-- ==== Sys2Proof/Word.lean ====
section
/-! DEFINITION. The word types of the PDT-4896 model: a byte, and the sparse forms in which the model holds
addressed storage (a byte memory and a table by number). -/

namespace Sys2Proof

/-- One byte. -/
abbrev Byte := BitVec 8

/-- Sparse byte memory: (address, byte) pairs, addresses strictly rising, no entry equal to 0, which is what an
unlisted address reads as (every memory of the node reads 0 after its reset: R269, R449, R605 step 0x4). -/
abbrev Mem := List (Nat × Byte)

/-- Sparse table by number: (key, value) pairs, keys strictly rising. What an unlisted key holds is said where the
table is used. -/
abbrev Tbl (α : Type) := List (Nat × α)

end Sys2Proof
end

