-- ==== Sys2Proof/Syntax.lean ====
section
/-! DEFINITION. The commands of the block: one constructor of `Instr` per row of spec/opcode_table.json, in the
table's order, and the operand types they carry. Received frames are structures whose fields are those of the
frame tables of spec/. Every constructor but the registration instant begins with `dt`: how much time has passed on
the node's own count since the previous command, in units of 1/65,536 ns (R219). -/

namespace Sys2Proof

/-- Who accesses a directly mapped block: PCI Express, local bus, SPI, a remote initiator (its train node address and
its unique identifier) or a lock-step pair (R13, R547, R580). -/
inductive Iface where
  | pcie
  | lb
  | spi
  | remote (addr : BitVec 10) (uid : BitVec 64)
  | pair (l : Fin 4)
  deriving DecidableEq, Repr

/-- Line A or line B of the trunk (R42). -/
inductive Line where
  | a
  | b
  deriving DecidableEq, Repr

/-- A mailbox command as a host submits it (R549): the mailbox, the ringing interface, TAG, the request payload
(REQ_LEN is its length) and, where flash is written, the sector whose write fails three times (R563 FLASH_FAIL). -/
structure Ring where
  mbx : Fin 8
  src : Iface
  tag : BitVec 16
  req : List Byte
  flashFail : Option (BitVec 32)
  deriving DecidableEq, Repr

/-- What the node finds at power-good: the straps (R604), the sensed bypass positions (R75) and the store capacitance
in 0.1 µF measured from the charging curve (R630). -/
structure PowerGoodIn where
  profSelHigh : Bool
  maintLow : Bool
  sensedA : Bool
  sensedB : Bool
  storeCap : BitVec 16
  deriving DecidableEq, Repr

/-- How a start step ends (R605): its code, success, physical pairs failing logic self-test (step 0x5), flash areas
that fail their CRC (step 0x6) and whether the repair log's CRC holds (R652). -/
structure StepResult where
  step : Nat
  ok : Bool
  pairFail : List (Fin 5)
  corrupt : List Nat
  logOk : Bool
  deriving DecidableEq, Repr

/-- A port that measures hop delay: a trunk port (R78) or one lane of a fabric link (R503). -/
inductive DelayPort where
  | trunk (p : Fin 4)
  | fabric (k : Fin 4) (lane : Fin 2)
  deriving DecidableEq, Repr

/-- A delay marker's 40 bits: TYPE, SEQ, VALUE and CRC. -/
structure Marker where
  type : BitVec 2
  seq : BitVec 6
  value : BitVec 24
  crc : Byte
  deriving DecidableEq, Repr

/-- What measures a hop's delay: a delay marker on an Ndoelle port or a fabric lane (R77), or on a T1 port a peer-delay
message of IEEE 802.1AS with its sequence identifier (R82): the request, the response with t2 and its follow-up with t3,
both the partner's times in ticks. -/
inductive DelayMsg where
  | marker (m : Marker)
  | pdelayReq (seq : BitVec 16)
  | pdelayResp (seq : BitVec 16) (t2 : Int)
  | pdelayFollowUp (seq : BitVec 16) (t3 : Int)
  deriving DecidableEq, Repr

/-- How a received frame ends: with a good frame check sequence, with a bad one, or cut short by an abort code (R212). -/
inductive FrameEnd where
  | good
  | bad
  | abort
  deriving DecidableEq, Repr

/-- Link beacon body (R94). TX_TIME is a train time in ticks of 1/65,536 ns. -/
structure Beacon where
  uid : BitVec 64
  vid : BitVec 48
  addr : BitVec 10
  flags : Byte
  prio : Byte
  gen : BitVec 16
  nodes : BitVec 16
  cycleUs : BitVec 16
  refUid : BitVec 64
  endRef : BitVec 64
  endFar : BitVec 64
  hash : BitVec 256
  txTime : Nat
  leadVid : BitVec 48
  deriving DecidableEq, Repr

/-- BREAK body (R116). T_DOWN in ticks. -/
structure BreakBody where
  addr : BitVec 10
  dir : Fin 2
  cause : Byte
  tDown : Nat
  lostUid : BitVec 64
  gen : BitVec 16
  deriving DecidableEq, Repr

/-- One vehicle record of a directory (R100). -/
structure VehRec where
  pos : Byte
  flags : Byte
  slots : BitVec 16
  vid : BitVec 48
  wtbAddr : Byte
  uidA : BitVec 64
  uidB : BitVec 64
  deriving DecidableEq, Repr

/-- A train directory: the header fields of R100 that both frames share, and all vehicle records in position order. -/
structure Directory where
  gen : BitVec 16
  refUid : BitVec 64
  leadVid : BitVec 48
  nodes : BitVec 16
  vehicles : List VehRec
  deriving DecidableEq, Repr

/-- A DIRECTORY frame (R100): index 0 or 1, the vehicle count, the header, DIR_HASH, FLAGS and its records. -/
structure DirFrame where
  index : Fin 2
  vehicleCount : Byte
  gen : BitVec 16
  refUid : BitVec 64
  leadVid : BitVec 48
  nodes : BitVec 16
  dirHash : BitVec 32
  prepared : Bool
  isForeign : Bool
  records : List VehRec
  deriving DecidableEq, Repr

/-- JOIN body (R125). -/
structure JoinBody where
  uid : BitVec 64
  vid : BitVec 48
  twinB : Bool
  native : Bool
  fabric : Bool
  prio : Byte
  nb1 : BitVec 64
  nb2 : BitVec 64
  deriving DecidableEq, Repr

/-- COLD_CLAIM body (R138). -/
structure ColdClaim where
  rank : BitVec 80
  newestGen : BitVec 16
  seq : BitVec 16
  deriving DecidableEq, Repr

/-- MERGE_REPORT body with the partner group's directory that follows it (R130). Δ is in ticks, T_STABLE in ticks. -/
structure MergeReport where
  addr : BitVec 10
  port : Fin 4
  partner : Beacon
  delta : Int
  tStable : Nat
  dir : Directory
  deriving DecidableEq, Repr

/-- Inauguration block of the opening frame (R107). STEP_NS with STEP_FRAC is a signed count of ticks. -/
structure InaugBlock where
  gen : BitVec 16
  prepare : Bool
  commit : Bool
  step : Bool
  provisional : Bool
  removal : Bool
  dirHash : BitVec 32
  nextGen : BitVec 16
  nextHash : BitVec 32
  switchCycle : BitVec 32
  stepTicks : Int
  refUid : BitVec 64
  deriving DecidableEq, Repr

/-- The cycle-opening frame (R162). PATH and ORIGIN are in 1/16 ns. -/
structure OpeningFrame where
  source : BitVec 48
  type : Byte
  version : Byte
  cycle : BitVec 32
  variant : Byte
  held : Bool
  noPoll : Bool
  lineB : Bool
  dirUp : Bool
  cycleUs : BitVec 16
  schedTag : BitVec 32
  path : BitVec 32
  origin : BitVec 16
  inaug : InaugBlock
  poll : List Bool
  deriving DecidableEq, Repr


/-- The protection of a flow frame (R298): its SCI, association number, packet number and ICV. The frame's other fields are
those that its user data decipher to. -/
structure SecTag where
  sci : BitVec 64
  an : BitVec 2
  pn : BitVec 32
  icv : BitVec 128
  deriving DecidableEq, Repr

/-- A flow frame (R279). -/
structure FlowFrame where
  source : BitVec 48
  flowId : BitVec 16
  gen : BitVec 16
  claim : BitVec 32
  seq : BitVec 32
  fresh : BitVec 16
  safe : Bool
  island : Bool
  srcAddr : BitVec 10
  len : Nat
  safety : BitVec 32
  payload : List Byte
  sec : Option SecTag
  deriving DecidableEq, Repr

/-- Where a flow frame came in: a trunk port with its pin-corrected receive time, inside the slot region or not; or
the fabric, relayed by a twin (R518) over line A or B. -/
inductive FlowArrival where
  | trunk (p : Fin 4) (tRx : Int)
  | fabric (lineB : Bool)
  deriving DecidableEq, Repr

/-- A session frame (R304), with the train node addresses it comes from and goes to. -/
structure SessionFrame where
  sid : BitVec 16
  kind : Byte
  cause : Byte
  openerUid : BitVec 64
  msg : BitVec 4
  seg : BitVec 12
  msgLen : BitVec 16
  payload : List Byte
  srcAddr : BitVec 10
  dst : BitVec 10
  deriving DecidableEq, Repr

/-- A gPTP Sync received (R242, R245): domain, sequence number, raw receive time in ticks, and, in a one-step Sync, the origin
timestamp with its correction and the rate ratio offset in 0.01 ppb, which a two-step one has in its Follow_Up. -/
structure PtpSync where
  domain : BitVec 7
  seq : BitVec 16
  raw : Int
  twoStep : Bool
  origin : Int
  corr : Int
  rate : Int
  deriving DecidableEq, Repr

/-- What the row of received Syncs delivers: a Sync, its Follow_Up, a peer's delay request with its raw receive time, or the
end of an exchange that this node began, with its own raw transmit and receive times t1 and t4 and the peer's t2 and t3. -/
inductive PtpTimed where
  | sync (m : PtpSync)
  | followUp (domain : BitVec 7) (seq : BitVec 16) (origin corr rate : Int)
  | pdelayReq (raw : Int)
  | pdelayEnd (t1Raw t4Raw t2 t3 : Int)
  deriving DecidableEq, Repr

/-- An Announce message's best-master fields (R243). -/
structure PtpAnnounce where
  domain : BitVec 7
  priority1 : Byte
  clockClass : Byte
  accuracy : Byte
  oslv : BitVec 16
  priority2 : Byte
  gmId : BitVec 64
  stepsRemoved : BitVec 16
  traceable : Bool
  deriving DecidableEq, Repr

/-- What the row of received Announces delivers: one, or a Signaling message with the message interval request, the signed
logarithm of the Sync interval asked for (R242). -/
inductive PtpGeneral where
  | announce (m : PtpAnnounce)
  | signaling (domain : BitVec 7) (logSync : Byte)
  deriving DecidableEq, Repr

/-- The periodic message an instance sends (R242). -/
inductive PtpKind where
  | sync
  | announce
  | pdelay
  deriving DecidableEq, Repr

/-- The path a heartbeat came on (R328, R330): a twin link, or a trunk port with the raw receive time. -/
inductive HbPath where
  | tw0
  | tw1
  | trunk (p : Fin 4) (tRx : Int)
  deriving DecidableEq, Repr

/-- Heartbeat body (R331). -/
structure Heartbeat where
  uid : BitVec 64
  vid : BitVec 48
  addr : BitVec 10
  role : BitVec 3
  preferred : Bool
  twHeard : Bool
  trunkHeard : Bool
  switch : Bool
  ownGen : BitVec 16
  seenGen : BitVec 16
  gen : BitVec 16
  cycle : BitVec 32
  switchCycle : BitVec 32
  flowRgen : BitVec 32
  regionRgen : BitVec 32
  deriving DecidableEq, Repr

/-- A racking item (R345): context state, image block or region page. -/
inductive RackItem where
  | ctx (n : BitVec 16) (seq : BitVec 32) (fresh : BitVec 16) (flags : Byte)
  | block (n : BitVec 16) (data : List Byte)
  | page (n : BitVec 16) (data : List Byte)
  deriving DecidableEq, Repr

/-- A racking frame (R345, R346): an items frame, or a commit with its totals and CRC. -/
structure RackFrame where
  uid : BitVec 64
  stream : Byte
  commit : Bool
  rgen : BitVec 32
  cycle : BitVec 32
  part : BitVec 32
  items : List RackItem
  totItems : BitVec 32
  totBytes : BitVec 32
  crc : BitVec 32
  deriving DecidableEq, Repr

/-- A received CAN frame. `ts` is the nanoseconds field at the start-of-frame edge (R416). -/
structure CanFrame where
  id : BitVec 29
  ide : Bool
  rtr : Bool
  fdf : Bool
  brs : Bool
  esi : Bool
  dlc : BitVec 4
  data : List Byte
  ts : BitVec 30
  deriving DecidableEq, Repr

/-- Kinds of CAN error, coded as LEC (R444): stuff, form, acknowledgement, bit 1, bit 0, CRC. -/
inductive CanErrKind where
  | stuff
  | form
  | ack
  | bit1
  | bit0
  | crc
  deriving DecidableEq, Repr

/-- An error on a channel: kind, phase, whether this node was transmitting, whether a dominant bit was seen in the
passive error flag (R431), the TEC and REC increments ISO 11898-1 gives, and a protocol exception instead of an error
(R394). -/
structure CanError where
  kind : CanErrKind
  dataPhase : Bool
  transmitting : Bool
  dominantSeen : Bool                  -- R431: a dominant bit during the passive error flag
  inFlag : Bool                        -- a bit error while an active error flag or an overload flag is sent
  arbStuff : Bool                      -- a recessive stuff bit of the arbitration field read back dominant
  afterFlag : Bool                     -- the first bit after a receiver's error flag is dominant
  runs : Nat                           -- sequences of dominant bits beyond the tolerated ones after a flag
  protocolException : Bool
  deriving DecidableEq, Repr

/-- A message object or a high-priority buffer of a channel. -/
inductive CanSlot where
  | obj (i : Fin 128)
  | hpb (b : Fin 8)
  deriving DecidableEq, Repr

/-- A multifunction-vehicle-bus master frame: F_code and 12-bit address, heard valid on line A, on line B. -/
structure MvbMaster where
  fcode : BitVec 4
  addr : BitVec 12
  onA : Bool
  onB : Bool
  deriving DecidableEq, Repr

/-- A slave frame as each line delivered it: valid data, or none when missing or invalid. -/
structure MvbSlave where
  dataA : Option (List Byte)
  dataB : Option (List Byte)
  invalidA : Bool
  invalidB : Bool
  firstB : Bool
  deriving DecidableEq, Repr

/-- An Ethernet frame entering the switch core (R474): ingress port 0–21, addresses, VLAN tag, R-TAG sequence
number, length with tags, frame check verdict and MACsec validity. -/
structure EthFrame where
  port : Fin 22
  dst : BitVec 48
  src : BitVec 48
  vlan : Option (BitVec 12)
  pcp : BitVec 3
  len : Nat
  rtag : Option (BitVec 16)
  fcsOk : Bool
  secTagOk : Bool
  flow : Option (BitVec 16)
  pair : Option (Fin 4)
  deriving DecidableEq, Repr

/-- A trunk frame that the node passes on or takes for its switch core (R36, R37): how it ends, its byte length, and the
Ethernet frame it brings to a port group behind the switch core, if it is addressed to this node. -/
structure TransitFrame where
  fin : FrameEnd
  len : Nat
  local_ : Option EthFrame
  deriving DecidableEq, Repr

/-- An MKPDU (R489): ICV verdict under the pre-shared CAK, key server priority and SCI, live peer, distributed SAK. -/
structure MkPdu where
  icvOk : Bool
  serverPrio : Byte
  sci : BitVec 64
  sak : Option (BitVec 32)
  pnExhausted : Bool
  deriving DecidableEq, Repr

/-- Fabric beacon body (R505). -/
structure FabricBeacon where
  uid : BitVec 64
  vid : BitVec 48
  slot : Byte
  twin : Bool
  twinB : Bool
  active : Bool
  numbered : Bool
  joined : Bool
  gen : BitVec 16
  cost : List Byte
  table : List (BitVec 64)
  schedTag : BitVec 32
  deriving DecidableEq, Repr

/-- A FABRIC_TICK (R514). TIME in ticks, CORR in 1/16 ns, EPS in ns. -/
structure FabricTick where
  fromTwinB : Bool
  frame : OpeningFrame
  time : Nat
  corr : BitVec 32
  eps : BitVec 16
  deriving DecidableEq, Repr

/-- A FABRIC_REPORT body (R510). -/
structure FabricReport where
  vid : BitVec 48
  slots : BitVec 16
  uids : List (BitVec 64)
  deriving DecidableEq, Repr

/-- Bridge frame (R528): operation codes 1 read, 2 write, 3 acquire, 4 release, 5 withdraw; with the train node addresses
of the initiator and of the node it goes to. -/
structure BridgeFrame where
  tag : BitVec 16
  op : Byte
  status : Byte
  initUid : BitVec 64
  initAddr : BitVec 10
  dst : BitVec 10
  gen : BitVec 16
  len : Nat
  addr : BitVec 32
  sem : Byte
  reissue : Bool
  data : List Byte
  deriving DecidableEq, Repr

/-- What an IEC 61375-2-5 topology discovery frame tells (R152): the standard's topology counter and its backbone
nodes in numbering order, each with its vehicle identity and unique identifier (0 for a foreign node). -/
structure Ttdp where
  counter : BitVec 32
  nodes : List (BitVec 48 × BitVec 64)
  deriving DecidableEq, Repr

/-- What a fabric frame carries (R509, R511, R517–R519, R528): a proxied frame names the entry it goes out in. -/
inductive FabricPayload where
  | flow (lineB : Bool) (f : FlowFrame)
  | proxy (entry : Nat) (f : FlowFrame)
  | bridge (resp : Bool) (b : BridgeFrame)
  | join (j : JoinBody)
  | leadSet (vid : BitVec 48)
  | subscribe (flows : List (BitVec 16))
  | dir (d : DirFrame)
  | session (f : SessionFrame)
  | eth (f : EthFrame)
  | ttdp (t : Ttdp)
  deriving DecidableEq, Repr

/-- A fabric frame: its header (R511), its link sequence number (R498) and its payload. -/
structure FabricFrame where
  seq : BitVec 16
  dst : Byte
  src : Byte
  hops : Byte
  cls : Byte
  payload : FabricPayload
  deriving DecidableEq, Repr

/-- Where a memory error lies (R653, R656, R658): an SRAM macro (with what owns it), a DRAM page, a buffer bank. -/
inductive MemPlace where
  | sram (macro_ : BitVec 16) (isRow : Bool) (index : BitVec 16) (cacheOf : Option (Fin 5))
  | dram (page : BitVec 16) (word : BitVec 12)
  | bank (b : Fin 26)
  deriving DecidableEq, Repr

/-- Read data as a pair's sampler takes it: a corrected value, or an uncorrectable-error report (R40, R361). -/
structure ReadIn where
  data : BitVec 64
  corrected : Bool
  uncorrectable : Bool
  deriving DecidableEq, Repr, Inhabited

/-- What both cores of a locked pair take in one cycle of their stream (R361): read data, the external interrupts, the
registration-instant interrupt, the machine timer's, the time CSR, the pair-control CSR as it reads (R373), debug and
hand-over requests, a stall, the address of an access fault (R359), and whether a full hold buffer stalls the core (R369). -/
structure CoreInput where
  fault : Option (BitVec 64) := none
  held : Bool := false
  read : Option ReadIn
  irqQueue : Bool
  irqTio : Bool
  irqCan : Bool
  irqHost : Bool
  irqInstant : Bool
  irqTimer : Bool
  time : BitVec 64
  ctl : BitVec 32
  debug : Bool
  handOver : Bool
  stall : Bool
  deriving DecidableEq, Repr, Inhabited

/-- A cache line: its address, whether it is dirty, and its bytes. A line has 64 bytes, as an entry of the hold buffer has
(R369; PRESUMED, log 40). -/
structure CacheLine where
  addr : BitVec 64
  dirty : Bool
  data : List (BitVec 8)
  deriving DecidableEq, Repr, Inhabited

/-- A core (R358, R383): program counter, privilege level, integer and floating-point registers, CSRs by number, its L1
instruction cache, L1 data cache and L2, and what else its next cycle depends on. -/
structure CoreState where
  l1i : List CacheLine := []
  l1d : List CacheLine := []
  l2 : List CacheLine := []
  pc : BitVec 64
  priv : BitVec 2
  x : List (BitVec 64)
  f : List (BitVec 64)
  csr : List (BitVec 12 × BitVec 64)
  inner : List (BitVec 64)
  deriving DecidableEq, Repr, Inhabited

/-- What a retired instruction writes (R364). -/
inductive Dest where
  | none_
  | int (r : Fin 32)
  | fp (r : Fin 32)
  | csr (n : BitVec 12)
  deriving DecidableEq, Repr, Inhabited

/-- A retired instruction. -/
structure Retired where
  pc : BitVec 64
  dest : Dest
  value : BitVec 64
  deriving DecidableEq, Repr, Inhabited

/-- A retired store. -/
structure CoreStore where
  addr : BitVec 64
  data : BitVec 64
  mask : BitVec 8
  deriving DecidableEq, Repr, Inhabited

/-- Types of a core's outgoing transaction (R368). -/
inductive TxnKind where
  | fetch
  | read
  | write
  | writeBack
  | atomic
  | interrupt
  deriving DecidableEq, Repr, Inhabited

/-- An outgoing transaction: type, address, size in bytes and write data. -/
structure CoreTxn where
  kind : TxnKind
  addr : BitVec 64
  size : Nat
  data : List (BitVec 8)
  deriving DecidableEq, Repr, Inhabited

/-- What a core does in one cycle (R362): the two retirement slots, the store and the outgoing transaction; and whether it
waits in WFI (R381, R384). -/
structure CoreCycle where
  wfi : Bool := false
  slot0 : Option Retired
  slot1 : Option Retired
  store : Option CoreStore
  txn : Option CoreTxn
  deriving DecidableEq, Repr, Inhabited

/-- What core T's own sampler path takes in from the outside while the pair is split (R382). -/
structure SplitIn where
  read : Option ReadIn
  irqQueue : Bool
  irqTio : Bool
  irqCan : Bool
  irqHost : Bool
  irqTimer : Bool
  stall : Bool
  deriving DecidableEq, Repr

/-- One clock cycle of a pair as the outside gives it: what the ECC makes of the read data that comes in it, interrupts and a
stall for the sampler, of a split pair what core T takes in, and the faults of the cycle, in which a core goes to another
state and does something else than it should, or a delay register holds something else than was sampled. -/
structure PairCycle where
  coreT : SplitIn := { read := none, irqQueue := false, irqTio := false, irqCan := false, irqHost := false,
                       irqTimer := false, stall := false }
  read : Option ReadIn
  irqQueue : Bool
  irqTio : Bool
  irqCan : Bool
  irqHost : Bool
  irqTimer : Bool
  stall : Bool
  badLead : Option (CoreState × CoreCycle)
  badTrail : Option (CoreState × CoreCycle)
  badDelay : Option CoreInput
  deriving DecidableEq, Repr

/-- A memory error: its place, whether uncorrectable (R653), and where a lock-step pair's read met it, that pair and the value
the read gives (R40). -/
structure MemError where
  place : MemPlace
  uncorrectable : Bool
  reader : Option (Fin 4)
  value : BitVec 64
  deriving DecidableEq, Repr

/-- What a background slice does (R661): scrub without finding, repair a row, column or page marked failing, or run a
queued request to its end with a result. -/
inductive ScrubWork where
  | scrub
  | repair (p : MemPlace)
  | request (kind : Fin 8) (passed : Bool)
  deriving DecidableEq, Repr

/-- One local-bus access (R522, R523): window byte offset, write data of 16 bits or a read, byte enables, lock, and
whether the master withdraws before the answer (R702). -/
structure LbAccess where
  off : Nat
  wdata : Option (BitVec 16)
  be : BitVec 2
  lock : Bool
  abandon : Bool
  deriving DecidableEq, Repr

/-- The commands of the block, one constructor per row of spec/opcode_table.json. -/
inductive Instr where
  /-- POWER_GOOD (R605): The converter declares every rail in regulation, and the node latches its straps and begins the start sequence. -/
  | powerGood (dt : Nat) (p : PowerGoodIn)
  /-- START_STEP_COMPLETE (R605): A start step (self-test, patch check, SRAM, DRAM, logic self-test or configuration) ends, and the next step begins or the failure reaction applies. -/
  | startStepComplete (dt : Nat) (r : StepResult)
  /-- START_RETRY (R606): One second after a failed step 0x1 or 0x4, the node starts again once. -/
  | startRetry (dt : Nat)
  /-- PERST_ASSERT (R684): PERST_L falls, and the PCI Express function is held in reset while the rest of the node runs on. -/
  | perstAssert (dt : Nat)
  /-- PERST_RELEASE (R684): PERST_L rises, and the PCI Express link trains again from its configuration defaults. -/
  | perstRelease (dt : Nat)
  /-- SUPERVISOR_WATCHDOG_EXPIRY (R70): The supervisor watchdog expires; both bypass switches close and a start with cause 0x3 follows. -/
  | supervisorWatchdogExpiry (dt : Nat)
  /-- SUPERVISOR_FATAL_FAULT (R70): A fatal fault of the supervisor pair closes both bypass switches. -/
  | supervisorFatalFault (dt : Nat)
  /-- NODE_RESET_APPLY (R575): At the instant after SYS_RESET, the node sends an Out of service heartbeat and applies the supervisor-commanded node reset. -/
  | nodeResetApply (dt : Nat)
  /-- INPUT_VOLTAGE_CHANGE (R625): The battery input crosses a threshold, and the supply state changes. -/
  | inputVoltageChange (dt : Nat) (vin : Nat)
  /-- STORE_OK_CHANGE (R626): The store comparator sets STORE_OK at 149 V rising or clears it at 147.5 V falling. -/
  | storeOkChange (dt : Nat) (vstore : Nat)
  /-- LOSS_DECLARED (R628): The store falls to 72 V with the input below 13.0 V; the node sends Out of service heartbeats and PASSIVE beacons and turns off its domains. -/
  | lossDeclared (dt : Nat) (vin : Nat) (vstore : Nat)
  /-- SHUTDOWN_BYPASS_CLOSE (R628): 100 µs after a loss declaration, both bypass switches are commanded closed. -/
  | shutdownBypassClose (dt : Nat)
  /-- CONVERTER_STOP (R628): Once both switches are sensed closed, the node logs SUPPLY_STATE and stops the converter; a power-on start follows if the input has returned. -/
  | converterStop (dt : Nat) (vin : Nat)
  /-- PD0_STOP (R629): The store falls below 24 V, and PD0 and its real-time counter stop. -/
  | pd0Stop (dt : Nat)
  /-- THERMAL_CHANGE (R646): The die or case temperature crosses a threshold, and the node throttles, unthrottles or declares a loss. -/
  | thermalChange (dt : Nat) (case : Int) (die : Int)
  /-- POWER_DOMAIN_IDLE (R635): A domain becomes idle or its next known event changes, and the power manager chooses its deepest state that still fits. -/
  | powerDomainIdle (dt : Nat) (d : Fin 12) (idle : Bool) (next : Option Nat)
  /-- DOMAIN_WAKE_TIMER (R635): At T minus the wake latency, a dozing or napping domain begins to wake for its next event. -/
  | domainWakeTimer (dt : Nat) (d : Fin 12)
  /-- ASYNC_DOMAIN_WAKE (R636): An asynchronous input wakes a domain, and the input is held until the domain runs. -/
  | asyncDomainWake (dt : Nat) (d : Fin 12) (due : Option Nat)
  /-- PARK_ENTRY (R639): At the instant of cycle C, the node stops forwarding, leaves Joined, puts its trunk ports into Listen and enters Park. -/
  | parkEntry (dt : Nat)
  /-- KILN_ENTRY (R640): At the instant of cycle C, the node goes passive, closes both bypasses and turns off every domain but PD0. -/
  | kilnEntry (dt : Nat)
  /-- WAKE_SOURCE (R641): An enabled wake source fires in Park or Kiln, and the wake is passed on. -/
  | wakeSource (dt : Nat) (src : Fin 5) (port : Option (Fin 4))
  /-- WAKE_L_LOW_TIMEOUT (R685): WAKE_L has been low for 1 ms without a break in Park or Kiln. -/
  | wakeLLowTimeout (dt : Nat)
  /-- PARK_WAKE_COMPLETE (R643): A node woken from Park reaches Run, resets the domains that were off, trains its trunk and raises PWR_WAKE. -/
  | parkWakeComplete (dt : Nat)
  /-- REGISTRATION_INSTANT (R26): At each registration instant the node latches its outputs, samples its inputs and applies every change committed for that instant. -/
  | registrationInstant
  /-- HOLDOVER_ENTRY (R232): After two consecutive cycles without a phase sample, the time unit enters Holdover. -/
  | holdoverEntry (dt : Nat)
  /-- NEXT_OPEN_SET (R268): The carry-forward copy completes, NEXT_OPEN sets and held writes to the next window are applied. -/
  | nextOpenSet (dt : Nat)
  /-- RELEASE_DEADLINE (R270): At the release deadline, linked receive data is written, safety codes are computed and the outgoing objects are prepared. -/
  | releaseDeadline (dt : Nat)
  /-- LOSS_OF_SIGNAL (R58): No valid symbol is received for 2 µs on an Ndoelle port, and a loss begins. -/
  | lossOfSignal (dt : Nat) (p : Fin 4)
  /-- RESUME_ENTRY (R58): A loss longer than 100 µs puts the port into Resume, where it neither forwards nor sends. -/
  | resumeEntry (dt : Nat) (p : Fin 4)
  /-- SIGNAL_RELOCK (R58): The port relocks with frozen coefficients after the signal returns, and a ride-through or Resume ends. -/
  | signalRelock (dt : Nat) (p : Fin 4)
  /-- LINK_DOWN_TIMEOUT (R58): A loss reaches one macrocycle; the link is down and the port returns to Detect. -/
  | linkDownTimeout (dt : Nat) (p : Fin 4)
  /-- PARTNER_ENERGY_DETECT (R67): A port in Detect detects partner energy and starts negotiation or training. -/
  | partnerEnergyDetect (dt : Nat) (p : Fin 4)
  /-- TRAINING_LOCK_COMPLETE (R53): Ndoelle training reaches the end of Lock, and the port enters Qualify. -/
  | trainingLockComplete (dt : Nat) (p : Fin 4)
  /-- QUALIFY_COMPLETE (R54): After 16 ms of proving without a fault, the port enters Up and the link reports stable. -/
  | qualifyComplete (dt : Nat) (p : Fin 4) (partner : BitVec 64)
  /-- CODE_VIOLATION_LIMIT (R54): A loss of lock or the 17th code violation in Qualify returns the port to Announce and counts a training failure. -/
  | codeViolationLimit (dt : Nat) (p : Fin 4) (violations : Nat) (lockLost : Bool)
  /-- NEGOTIATE_TIMEOUT (R67): Two seconds in Negotiate without a result return the port to Detect. -/
  | negotiateTimeout (dt : Nat) (p : Fin 4)
  /-- T1_LINK_UP (R67): Clause 96 or 97 reports a T1 link up, and the port enters Up. -/
  | t1LinkUp (dt : Nat) (p : Fin 4) (partner : BitVec 64)
  /-- T1_ROLE_SWAP (R63): A fixed T1 port whose link is not up after 500 ms swaps its master/slave role. -/
  | t1RoleSwap (dt : Nat) (p : Fin 4)
  /-- DELAY_REQUEST (R78): Every 50 µs, an Up Ndoelle port sends a request delay marker in idle time. -/
  | delayRequest (dt : Nat) (p : DelayPort) (idle : Bool) (tTx : Int)
  /-- DELAY_MARKER_RX (R78): A received request marker is answered with a response and a follow-up marker. -/
  | delayMarkerRx (dt : Nat) (p : DelayPort) (m : DelayMsg) (tRx : Int) (tTx : Int)
  /-- DELAY_FOLLOW_UP_RX (R81): A follow-up completes a hop-delay sample, which is filtered into the estimate. -/
  | delayFollowUpRx (dt : Nat) (p : DelayPort) (m : DelayMsg)
  /-- PEER_DELAY_REQUEST (R82): A T1 port sends an IEEE 802.1AS peer-delay request every 125 ms. -/
  | peerDelayRequest (dt : Nat) (p : Fin 4) (tTx : Int)
  /-- BYPASS_LINE_A_CLOSE (R71): At the instant after a go-passive command, the line A bypass switch closes. -/
  | bypassLineAClose (dt : Nat)
  /-- BYPASS_LINE_B_CLOSE (R71): 100 ms after line A, the line B bypass switch closes. -/
  | bypassLineBClose (dt : Nat)
  /-- BYPASS_LINE_A_OPEN (R72): At the instant after a go-active command, the line A bypass switch opens and its ports train. -/
  | bypassLineAOpen (dt : Nat)
  /-- BYPASS_LINE_B_OPEN (R72): At the first instant that meets the 100 ms and line A conditions, the line B bypass switch opens. -/
  | bypassLineBOpen (dt : Nat)
  /-- BYPASS_SENSE_CHECK (R76): 4 ms after a command, a switch whose sensed position differs is reported and retried once. -/
  | bypassSenseCheck (dt : Nat) (line : Line) (closed : Bool)
  /-- LINK_BEACON_SEND (R93): Every 100 µs, a link beacon is sent on each qualifying trunk port in idle time. -/
  | linkBeaconSend (dt : Nat) (p : Fin 4) (idleFor : Nat)
  /-- PASSIVE_BEACON_SEND (R96): PASSIVE beacons repeat every 100 µs until the bypass closes. -/
  | passiveBeaconSend (dt : Nat)
  /-- LINK_BEACON_RX (R95): A received link beacon updates Δ and the partner record and may break a direction or start merge preparation. -/
  | linkBeaconRx (dt : Nat) (p : Fin 4) (b : Beacon) (tRx : Int)
  /-- BREAK_RX (R117): A received BREAK is forwarded and schedules a removal for cycle m+2, or for the first instant that is late enough. -/
  | breakRx (dt : Nat) (p : Fin 4) (b : BreakBody)
  /-- DIRECTORY_RX (R100): A DIRECTORY frame is stored as the directory in force, prepared or foreign. -/
  | directoryRx (dt : Nat) (p : Fin 4) (d : DirFrame)
  /-- JOIN_RX (R126): The first node receives a JOIN and prepares an addition for k = n+3. -/
  | joinRx (dt : Nat) (p : Option (Fin 4)) (j : JoinBody)
  /-- COLD_CLAIM_RX (R139): A contending node that receives a higher-ranked COLD_CLAIM abandons its claim and becomes a provisional member. -/
  | coldClaimRx (dt : Nat) (p : Fin 4) (c : ColdClaim)
  /-- MERGE_REPORT_RX (R131): The first node computes the merged directory and decides which group keeps time. -/
  | mergeReportRx (dt : Nat) (p : Fin 4) (m : MergeReport)
  /-- LEAD_SET_RX (R106): The first node treats a new leading-vehicle identity as an addition. -/
  | leadSetRx (dt : Nat) (p : Option (Fin 4)) (vid : BitVec 48)
  /-- OPENING_FRAME_RX (R166): An opening frame is validated and yields the poll vector, a phase sample and the inauguration flags. -/
  | openingFrameRx (dt : Nat) (p : Fin 4) (f : OpeningFrame) (tRx : Int) (fin : FrameEnd)
  /-- COLD_START_TIMEOUT (R122): Without an opening frame for the timeout, the node enters Contend. -/
  | coldStartTimeout (dt : Nat)
  /-- COLD_CLAIM_SEND (R138): A contending node sends a COLD_CLAIM every 1 ms on every Up trunk port. -/
  | coldClaimSend (dt : Nat)
  /-- CONTEND_TIMEOUT (R139): Ten ms without a higher rank make the node provisional lead at its next instant. -/
  | contendTimeout (dt : Nat)
  /-- PROVISIONAL_NO_JOIN (R142): After two provisional cycles without a new JOIN, the lead prepares and commits the first generation. -/
  | provisionalNoJoin (dt : Nat)
  /-- YIELD_SWITCH (R135): The yielding group's count reaches the switch instant minus the step, and it steps and switches. -/
  | yieldSwitch (dt : Nat)
  /-- SCHEDULED_SEND (R174): At the wavefront time of its polled entry, the node sends its scheduled frame, heartbeat or proxied frame. -/
  | scheduledSend (dt : Nat) (entry : Nat) (transit : List (Fin 4))
  /-- SPORADIC_ABORT (R212): At G/2 before each instant, non-scheduled frames still passing are aborted. -/
  | sporadicAbort (dt : Nat) (passing : List (Fin 4))
  /-- TRUNK_FRAME_FORWARD (R37): A trunk frame not delivered locally is forwarded cut-through or store-and-forward to the other direction. -/
  | trunkFrameForward (dt : Nat) (p : Fin 4) (f : TransitFrame) (tRx : Int)
  /-- FLOW_FRAME_RX (R281): A received flow frame passes the consumer checks, elimination and the safety checks, or is discarded. -/
  | flowFrameRx (dt : Nat) (src : FlowArrival) (f : FlowFrame) (fin : FrameEnd)
  /-- SESSION_FRAME_RX (R304): A session OPEN, DATA, ACK or CLOSE frame is handled. -/
  | sessionFrameRx (dt : Nat) (p : Option (Fin 4)) (f : SessionFrame)
  /-- SESSION_RETRANSMIT (R303): A segment unacknowledged for 2 macrocycles is resent; after the 8th resend, the session closes with cause timeout. -/
  | sessionRetransmit (dt : Nat) (sid : BitVec 16) (opener : BitVec 64)
  /-- TCXO_STOP (R234): The oscillator monitor finds the TCXO stopped; the count runs on the ring oscillator and the node leaves Joined. -/
  | tcxoStop (dt : Nat)
  /-- TCXO_RESTART (R234): The TCXO runs again, and the time unit returns to it and acquires from Free. -/
  | tcxoRestart (dt : Nat)
  /-- PTP_SYNC_RX (R245): A gPTP Sync updates the instance servo for O_d and the rate ratio. -/
  | ptpSyncRx (dt : Nat) (port : Fin 16) (m : PtpTimed)
  /-- PTP_ANNOUNCE_RX (R243): An Announce feeds the best master clock algorithm of an instance. -/
  | ptpAnnounceRx (dt : Nat) (port : Fin 16) (m : PtpGeneral)
  /-- PTP_MESSAGE_SEND (R242): An instance sends its periodic Sync, Announce or peer-delay messages. -/
  | ptpMessageSend (dt : Nat) (inst : Fin 2) (kind : PtpKind)
  /-- PTP_SYNC_TIMEOUT (R245): Four Sync intervals without Sync, or an Announce receipt timeout, take the instance out of lock. -/
  | ptpSyncTimeout (dt : Nat) (inst : Fin 2) (announce : Bool)
  /-- DOMAIN_RETURN_TIMER (R246): After 10 s of lock on domain 0, policy 0x2 selects domain 0 again. -/
  | domainReturnTimer (dt : Nat)
  /-- TIO_PULSE_EDGE (R251): A one-shot or periodic output drives its edge at the scheduled train time. -/
  | tioPulseEdge (dt : Nat) (n : Fin 6) (at_ : Nat) (assert_ : Bool)
  /-- TIO_CAPTURE_EDGE (R255): A selected input edge is timestamped into the capture FIFO, or dropped when the FIFO is full. -/
  | tioCaptureEdge (dt : Nat) (n : Fin 6) (at_ : Nat) (rising : Bool) (width : Nat)
  /-- TIO_ARM (R253): A write of ARM arms the port, with a late one-shot or periodic output handled. -/
  | tioArm (dt : Nat) (n : Fin 6) (src : Iface) (value : BitVec 32)
  /-- TIO_STOP (R259): A write of STOP disarms the port. -/
  | tioStop (dt : Nat) (n : Fin 6) (src : Iface) (value : BitVec 32)
  /-- TIO_CAP_READ (R259): Reading TIO_CAP_FRAC removes the head entry of the FIFO and latches its time. -/
  | tioCapRead (dt : Nat) (n : Fin 6) (src : Iface)
  /-- HEARTBEAT_RX (R331): A partner heartbeat on a twin link or the trunk marks its path heard and updates the partner's role and claim. -/
  | heartbeatRx (dt : Nat) (path : HbPath) (h : Heartbeat)
  /-- TAKEOVER (R333): SILENT reaches 3, and the node raises its claim generation and becomes Active or reasserts. -/
  | takeover (dt : Nat)
  /-- TAKEOVER_PARTNER_OUT (R334): A heartbeat showing the partner Out of service makes a Standby or Returning node take over at the instant that closes the cycle. -/
  | takeoverPartnerOut (dt : Nat)
  /-- STEP_DOWN (R337): An Active node that heard a higher claim stops its claim-gated sends and enters Returning at the next instant. -/
  | stepDown (dt : Nat)
  /-- NONPREFERRED_ACTIVATE (R320): A joined non-preferred node that has not seen the partner Active for 8 cycles becomes Active. -/
  | nonpreferredActivate (dt : Nat)
  /-- RACKING_FRAME_RX (R347): A racking items or commit frame is collected, and the generation is applied or discarded. -/
  | rackingFrameRx (dt : Nat) (f : RackFrame)
  /-- REGION_STAGING_APPLY (R347): Staged region pages are copied into the region within 1 ms of the commit. -/
  | regionStagingApply (dt : Nat)
  /-- RACK_ABANDON (R343): A region generation not reported applied within 2 cycles is abandoned and its pages are marked dirty again. -/
  | rackAbandon (dt : Nat)
  /-- COPY_ON_WRITE (R344): A write to an unsent snapshot page first copies the page, or waits for room in the copy pool. -/
  | copyOnWrite (dt : Nat) (page : Nat) (addr : Nat) (data : List Byte)
  /-- BURIN_VERDICT (R365): At the close of window w+1, the burin reports on window w and clean transactions leave the hold buffer. -/
  | burinVerdict (dt : Nat) (l : Fin 4) (cycles : List PairCycle)
  /-- HOLD_BUFFER_STALL (R369): A full hold buffer stalls both cores until verdicts free entries. -/
  | holdBufferStall (dt : Nat) (l : Fin 4) (cycles : Nat)
  /-- CHECKER_FAULT (R367): The monitor finds the burin code repeated or overdue for 600 cycles. -/
  | checkerFault (dt : Nat) (l : Fin 4)
  /-- CACHE_UNCORRECTABLE (R380): An uncorrectable cache error fences a locked pair or stops one core of a split pair. -/
  | cacheUncorrectable (dt : Nat) (l : Fin 4) (core : Fin 2)
  /-- PAIR_RESTART (R378): At the instant after a fence, the logical pair restarts on the spare or on the same physical pair. -/
  | pairRestart (dt : Nat) (l : Fin 4)
  /-- PAIR_ACCESS_FAULT (R359): A pair access outside its windows raises an access-fault exception in both cores. -/
  | pairAccessFault (dt : Nat) (l : Fin 4) (core : Fin 2) (addr : Nat)
  /-- HANDOVER_POINT (R381): A locked pair executes WFI with HOK set early enough and is halted at the close of the window. -/
  | handoverPoint (dt : Nat) (l : Fin 4)
  /-- SPLIT_INSTANT (R382): At the instant after a drained hand-over point, both cores resume split. -/
  | splitInstant (dt : Nat) (l : Fin 4)
  /-- SUBSTITUTION_TRANSFER (R383): The architectural state is compared and moved to the spare, which resumes at the instant. -/
  | substitutionTransfer (dt : Nat) (l : Fin 4)
  /-- REJOIN_INSTANT (R384): Once both split cores wait with REJOIN_RDY, core L's state is copied and the pair resumes locked at the next instant. -/
  | rejoinInstant (dt : Nat) (l : Fin 4)
  /-- HANDOVER_ABANDON (R385): A split or substitution without a hand-over point in 1,000 macrocycles is abandoned. -/
  | handoverAbandon (dt : Nat) (l : Fin 4)
  /-- DEBUG_ACCESS (R387): A JTAG access touches a locked pair; the pair is halted, marked DBG and split at the next instant. -/
  | debugAccess (dt : Nat) (l : Fin 4)
  /-- JTAG_EXTEST (R620): EXTEST is selected; both bypasses close and every port is held inactive. -/
  | jtagExtest (dt : Nat)
  /-- PAIR_READY_WRITE (R373): A pair sets READY bits in its pair-control CSR to reinstate classes at the next instant. -/
  | pairReadyWrite (dt : Nat) (l : Fin 4) (core : Fin 2) (value : BitVec 32)
  /-- CAN_FRAME_RX (R412): A frame completed without error is filtered into an object, the FIFO or a buffer, or rejected. -/
  | canFrameRx (dt : Nat) (c : Fin 12) (f : CanFrame) (own : Bool)
  /-- CAN_TX_COMPLETE (R420): A pending frame is sent without error and its DONE bit sets. -/
  | canTxComplete (dt : Nat) (c : Fin 12) (tdcv : Option Nat)
  /-- CAN_ARBITRATION_LOST (R420): A frame loses arbitration and stays pending. -/
  | canArbitrationLost (dt : Nat) (c : Fin 12)
  /-- CAN_ERROR (R430): A protocol error updates TEC and REC, the error state and the acknowledgement count. -/
  | canError (dt : Nat) (c : Fin 12) (e : CanError)
  /-- CAN_RECOVERY_COMPLETE (R433): After 128 occurrences of 11 recessive bits, the channel becomes error active. -/
  | canRecoveryComplete (dt : Nat) (c : Fin 12) (occ : Fin 129)
  /-- CAN_INTEGRATION_COMPLETE (R408): Eleven recessive bits after leaving Config or Standby let the channel take part in traffic. -/
  | canIntegrationComplete (dt : Nat) (c : Fin 12)
  /-- CAN_WAKE_PATTERN (R411): A wake-up pattern on a channel in Standby with WAKE_EN raises CAN_WAKE. -/
  | canWakePattern (dt : Nat) (c : Fin 12)
  /-- CAN_MODE_WRITE (R409): A write of CAN_CTRL.MODE takes effect at the end of any frame in progress. -/
  | canModeWrite (dt : Nat) (c : Fin 12) (src : Iface) (value : BitVec 32) (busy : Bool)
  /-- CAN_TXRQ_WRITE (R417): A write of CAN_TXRQ makes objects pending or withheld by the claim gate. -/
  | canTxrqWrite (dt : Nat) (c : Fin 12) (m : Fin 4) (src : Iface) (value : BitVec 32)
  /-- CAN_TXCAN_WRITE (R428): A write of CAN_TXCAN cancels requests, or marks them too late. -/
  | canTxcanWrite (dt : Nat) (c : Fin 12) (m : Fin 4) (src : Iface) (value : BitVec 32)
  /-- CAN_HPB_REQUEST (R417): A write of CAN_HPB_CTRL.RQ makes a high-priority buffer pending. -/
  | canHpbRequest (dt : Nat) (c : Fin 12) (src : Iface) (value : BitVec 32)
  /-- CAN_HPB_CANCEL (R428): A write of CAN_HPB_CTRL.CANCEL cancels a buffer's request. -/
  | canHpbCancel (dt : Nat) (c : Fin 12) (src : Iface) (value : BitVec 32)
  /-- CAN_RECOVER_START (R433): A write of CAN_RECOVER.START starts bus-off recovery when RECOV_PEND is set. -/
  | canRecoverStart (dt : Nat) (c : Fin 12) (src : Iface) (value : BitVec 32)
  /-- CAN_FIFO_POP (R414): A write of POP removes the FIFO head. -/
  | canFifoPop (dt : Nat) (c : Fin 12) (src : Iface) (value : BitVec 32)
  /-- CAN_OBJECT_WORD0_READ (R415): A read of word 0 latches an object or buffer into the interface's shadow. -/
  | canObjectWord0Read (dt : Nat) (c : Fin 12) (o : CanSlot) (src : Iface)
  /-- CAN_OBJECT_WRITE (R418): A write to an object or buffer header or data is applied or discarded under the pending and link conditions. -/
  | canObjectWrite (dt : Nat) (c : Fin 12) (o : CanSlot) (word : Fin 20) (src : Iface) (value : BitVec 32)
  /-- CAN_TT_COMMIT_WRITE (R441): A write of CAN_TT_COMMIT arms a commit of the shadow matrix for cycle C. -/
  | canTtCommitWrite (dt : Nat) (c : Fin 12) (src : Iface) (cycle : BitVec 32)
  /-- CAN_MATRIX_COMMIT (R441): At the first row-0 start from cycle C, the shadow becomes active or is rejected. -/
  | canMatrixCommit (dt : Nat) (c : Fin 12)
  /-- CAN_REFERENCE_RX (R435): A slave channel receives the reference message and begins a basic cycle. -/
  | canReferenceRx (dt : Nat) (c : Fin 12) (count : Nat)
  /-- CAN_REFERENCE_ABANDON (R436): A reference not started by the START of column 0 is abandoned and counted. -/
  | canReferenceAbandon (dt : Nat) (c : Fin 12)
  /-- CAN_SLAVE_REF_TIMEOUT (R438): A slave without a reference for 2 × BC_MACRO macrocycles stops running windows. -/
  | canSlaveRefTimeout (dt : Nat) (c : Fin 12)
  /-- CAN_HATCH_WINDOW (R439): A column's START opens its window for an exclusive, arbitrating, free or receive-check cell. -/
  | canHatchWindow (dt : Nat) (c : Fin 12) (col : Fin 64) (idle : Bool)
  /-- CAN_HATCH_WINDOW_END (R439): A window ends, and a missed exclusive send or receive check is counted. -/
  | canHatchWindowEnd (dt : Nat) (c : Fin 12) (col : Fin 64)
  /-- MVB_BASIC_PERIOD_START (R454): An administrator begins a basic period and polls its first master frame. -/
  | mvbBasicPeriodStart (dt : Nat) (g : Fin 2)
  /-- MVB_MASTER_FRAME_SEND (R456): 4.0 µs after a slave frame ends, the administrator starts the next master frame or the device status poll. -/
  | mvbMasterFrameSend (dt : Nat) (g : Fin 2)
  /-- MVB_NO_REPLY_TIMEOUT (R456): No slave frame within 21.3 µs counts NO_REPLY, and polling continues. -/
  | mvbNoReplyTimeout (dt : Nat) (g : Fin 2)
  /-- MVB_MASTER_FRAME_RX (R463): A master frame for an own source port or device address is answered with a slave frame. -/
  | mvbMasterFrameRx (dt : Nat) (g : Fin 2) (f : MvbMaster)
  /-- MVB_SLAVE_FRAME_RX (R464): A valid slave frame is taken by sink ports, and line quality is judged. -/
  | mvbSlaveFrameRx (dt : Nat) (g : Fin 2) (f : MvbSlave)
  /-- CONSIST_FRAME_RX (R474): A frame entering a consist port passes VLAN, stream filtering, metering and replication checks and is forwarded or dropped. -/
  | consistFrameRx (dt : Nat) (f : EthFrame)
  /-- CONSIST_FRAME_EGRESS (R478): A queued frame leaves a consist port when its gate permits, or is dropped by the claim gate or for want of cells. -/
  | consistFrameEgress (dt : Nat) (port : Fin 22) (queue : Fin 8)
  /-- ADDRESS_AGEING (R475): A learned address entry ages out after 300 s. -/
  | addressAgeing (dt : Nat) (mac : BitVec 48) (vid : BitVec 12)
  /-- FRER_RESET_TIMER (R485): The recovery reset time expires and the recovery history resets. -/
  | frerResetTimer (dt : Nat) (handle : Fin 256)
  /-- MKA_PDU_RX (R489): An MKPDU is processed by the MACsec Key Agreement of a consist port. -/
  | mkaPduRx (dt : Nat) (port : Fin 16) (m : MkPdu)
  /-- SAK_DISTRIBUTE (R490): As key server, the node distributes a new SAK after a generation switch or on packet-number exhaustion. -/
  | sakDistribute (dt : Nat) (port : Fin 16)
  /-- CONSIST_LINK_CHANGE (R494): A consist port's link comes up or goes down. -/
  | consistLinkChange (dt : Nat) (port : Fin 16) (up : Bool) (speed : Fin 3) (t1Master : Bool)
  /-- FABRIC_BEACON_SEND (R505): Every 100 µs, a fabric beacon is sent on each Up fabric link. -/
  | fabricBeaconSend (dt : Nat) (k : Fin 4)
  /-- FABRIC_BEACON_RX (R512): A fabric beacon updates routing costs, the partner record and the slot table. -/
  | fabricBeaconRx (dt : Nat) (k : Fin 4) (b : FabricBeacon)
  /-- FABRIC_SLOT_ASSIGN (R507): At the next instant, the active twin assigns the lowest free slot to a new UID. -/
  | fabricSlotAssign (dt : Nat) (uid : BitVec 64)
  /-- FABRIC_FRAME_RX (R511): A fabric frame is delivered or routed on, or dropped when HOPS reaches 0 or no route exists. -/
  | fabricFrameRx (dt : Nat) (k : Fin 4) (f : FabricFrame)
  /-- FABRIC_ACK_TIMEOUT (R498): A frame unacknowledged after 10 µs is resent from the replay buffer. -/
  | fabricAckTimeout (dt : Nat) (k : Fin 4)
  /-- FABRIC_LINK_DOWN (R499): Frames waiting 500 µs without acknowledgement, or both lanes losing lock for 100 µs, take the link down. -/
  | fabricLinkDown (dt : Nat) (k : Fin 4)
  /-- FABRIC_LINK_UP (R499): Block lock and exchanged beacons bring a fabric link Up. -/
  | fabricLinkUp (dt : Nat) (k : Fin 4)
  /-- FABRIC_LANE_SWITCH (R501): A failing active lane is switched to a Good spare, and unacknowledged frames are resent. -/
  | fabricLaneSwitch (dt : Nat) (k : Fin 4) (lane : Fin 2) (errors : Option Nat)
  /-- SPARE_LANE_GOOD (R500): A spare lane without fault for 1 s becomes Good. -/
  | spareLaneGood (dt : Nat) (k : Fin 4) (errors : Nat)
  /-- FABRIC_REPORT_RX (R510): The first node compares a FABRIC_REPORT with the directory and prepares an addition when they differ. -/
  | fabricReportRx (dt : Nat) (p : Option (Fin 4)) (r : FabricReport)
  /-- FABRIC_TICK_SEND (R514): At I + SLOT_BEGIN_NS, a twin sends a FABRIC_TICK on every Up fabric link. -/
  | fabricTickSend (dt : Nat)
  /-- FABRIC_TICK_RX (R515): A fabric node forwards the tick, takes a phase sample and treats it as its opening frame. -/
  | fabricTickRx (dt : Nat) (k : Fin 4) (t : FabricTick) (tRx : Int) (residence : Nat)
  /-- PROXY_FRAME_RX (R517): The Active twin stores a fabric node's scheduled flow frame in its proxy buffer. -/
  | proxyFrameRx (dt : Nat) (slot : Fin 16) (entry : Nat) (f : FlowFrame)
  /-- FABRIC_SUBSCRIBE_RX (R518): A twin records a fabric node's subscribed flows and forwards matching trunk flow frames. -/
  | fabricSubscribeRx (dt : Nat) (slot : Fin 16) (flows : List (BitVec 16))
  /-- BRIDGE_REQUEST_RX (R530): A remote read, write or semaphore request is executed, queued, answered BUSY or resolved as a crossing. -/
  | bridgeRequestRx (dt : Nat) (p : Option (Fin 4)) (r : BridgeFrame) (bad : Bool)
  /-- BRIDGE_RESPONSE_RX (R531): A response completes a held remote read or semaphore operation and frees the engine. -/
  | bridgeResponseRx (dt : Nat) (p : Option (Fin 4)) (r : BridgeFrame)
  /-- BRIDGE_WITHDRAW_RX (R534): A withdraw removes the named request from the inbound queue. -/
  | bridgeWithdrawRx (dt : Nat) (p : Option (Fin 4)) (r : BridgeFrame)
  /-- BRIDGE_RETRY_TIMER (R529): A request unanswered after 2 macrocycles is sent again, at most 3 times. -/
  | bridgeRetryTimer (dt : Nat) (tag : BitVec 16)
  /-- BRIDGE_REQ_TIMEOUT (R531): A read not completed within REQ_TMO completes with all ones and records its error. -/
  | bridgeReqTimeout (dt : Nat) (tag : BitVec 16)
  /-- BRIDGE_FETCH_STALE (R531): Local-bus fetched data not collected within 100 µs is discarded. -/
  | bridgeFetchStale (dt : Nat)
  /-- BRIDGE_BUSY_RETRY (R536): After a BUSY answer, the bridge asks again 10 µs later. -/
  | bridgeBusyRetry (dt : Nat)
  /-- REMOTE_WINDOW_READ (R531): A host read through a remote window starts a fetch that is retried or held until its data arrives. -/
  | remoteWindowRead (dt : Nat) (src : Iface) (w : Fin 8) (off : Nat) (len : Nat)
  /-- REMOTE_WINDOW_WRITE (R532): A host write through a remote window is posted in order to the far node. -/
  | remoteWindowWrite (dt : Nat) (src : Iface) (w : Fin 8) (off : Nat) (data : List Byte)
  /-- LOCKED_SEQUENCE_START (R536): An access with LB_LOCK_L acquires the window's guard semaphore at the target. -/
  | lockedSequenceStart (dt : Nat) (w : Fin 8) (off : Nat)
  /-- LOCKED_SEQUENCE_END (R536): The release of LB_LOCK_L releases the guard semaphore. -/
  | lockedSequenceEnd (dt : Nat)
  /-- FAB_SEM_READ (R535): A read of a free semaphore takes it, and a read of a held one returns the owner. -/
  | fabSemRead (dt : Nat) (src : Iface) (k : Fin 32)
  /-- FAB_SEM_WRITE (R535): A write of 0 by the owner releases the semaphore. -/
  | fabSemWrite (dt : Nat) (src : Iface) (k : Fin 32) (value : BitVec 32)
  /-- SEM_TMO_EXPIRY (R535): A semaphore held longer than SEM_TMO is released. -/
  | semTmoExpiry (dt : Nat) (k : Fin 32)
  /-- FAB_VEC_PEND_WRITE (R539): Writing 1 to a FAB_VEC_PEND bit clears the vector and may release its pin. -/
  | fabVecPendWrite (dt : Nat) (src : Iface) (value : BitVec 32)
  /-- MEMORY_ECC_ERROR (R653): A corrected or uncorrectable memory error is recorded and may mark a row, column, page or bank failing. -/
  | memoryEccError (dt : Nat) (e : MemError)
  /-- SCRUB_SLICE (R661): A background slice scrubs memory or runs queued work in idle time. -/
  | scrubSlice (dt : Nat) (w : ScrubWork)
  /-- BANK_DRAIN_COMPLETE (R659): A failing buffer bank is empty or its 10 ms has passed, and a spare replaces it or it is removed. -/
  | bankDrainComplete (dt : Nat) (bank : Fin 26)
  /-- ROTATION_STEP (R662): A due rotation step moves the pair with the oldest test to the spare, or is deferred. -/
  | rotationStep (dt : Nat)
  /-- LOGIC_SELF_TEST_COMPLETE (R660): A pair's logic self-test ends; the pair becomes Ready or is retired. -/
  | logicSelfTestComplete (dt : Nat) (phys : Fin 5) (passed : Bool) (monitors : List Nat)
  /-- AGING_MONITOR_READ (R665): Hourly, the aging monitors are read and a new guard-band step may be taken. -/
  | agingMonitorRead (dt : Nat) (monitors : List Nat)
  /-- AGING_STEP_APPLY (R666): At the next instant, the new frequency step takes effect for every pair. -/
  | agingStepApply (dt : Nat)
  /-- QUEUED_COMMAND_COMPLETE (R558): The work of a queued command ends, and CMD_COMPLETE reports its final status. -/
  | queuedCommandComplete (dt : Nat) (seq : BitVec 32) (status : BitVec 16)
  /-- MAILBOX_WRITE (R551): A host write to a mailbox is stored, or discarded and counted while RING reads 1. -/
  | mailboxWrite (dt : Nat) (src : Iface) (mbx : Fin 8) (off : Nat) (data : List Byte)
  /-- MBX_LOCK_READ (R547): A read of a free mailbox lock takes it for the reading interface. -/
  | mbxLockRead (dt : Nat) (src : Iface) (mbx : Fin 8)
  /-- MBX_LOCK_WRITE (R547): A write of 0 by the owner releases the mailbox lock. -/
  | mbxLockWrite (dt : Nat) (src : Iface) (mbx : Fin 8) (value : BitVec 32)
  /-- EVQ_RD_WRITE (R586): A host write of EVQ_RD frees entries, or is discarded with RD_ERR. -/
  | evqRdWrite (dt : Nat) (src : Iface) (value : BitVec 32)
  /-- EVQ_HOLD_TIMEOUT (R588): HOLD × 10 µs after an unread entry without a raise, the queue vector is raised. -/
  | evqHoldTimeout (dt : Nat)
  /-- NEXT_WINDOW_WRITE (R269): A write to the next window is applied, held, refused by class or discarded as late. -/
  | nextWindowWrite (dt : Nat) (src : Iface) (off : Nat) (data : List Byte)
  /-- CURRENT_WINDOW_WRITE (R265): A write to the current window is discarded. -/
  | currentWindowWrite (dt : Nat) (src : Iface) (off : Nat) (data : List Byte)
  /-- PDI_RELEASE_HOST (R591): A host write sets the HOST release bit, and the release may become complete. -/
  | pdiReleaseHost (dt : Nat) (src : Iface) (value : BitVec 32)
  /-- PDI_RELEASE_PAIR (R591): A pair write sets its own PAIR release bit, and the release may become complete. -/
  | pdiReleasePair (dt : Nat) (l : Fin 4) (value : BitVec 32)
  /-- PDI_REL_MASK_WRITE (R594): A write of PDI_REL_MASK takes effect at the next instant, or is discarded when all zero. -/
  | pdiRelMaskWrite (dt : Nat) (src : Iface) (value : BitVec 32)
  /-- MULTI_REGISTER_LATCH_READ (R11): A read of the lowest register of a multi-register value latches the rest into the interface's shadow. -/
  | multiRegisterLatchRead (dt : Nat) (src : Iface) (addr : Nat)
  /-- RC_FIELD_READ (R10): A read of an RC field returns its value and clears it, with its overflow bit. -/
  | rcFieldRead (dt : Nat) (src : Iface) (addr : Nat)
  /-- LOCAL_BUS_ACCESS (R523): A local-bus half access is assembled into a 32-bit access, or answered with retry. -/
  | localBusAccess (dt : Nat) (a : LbAccess)
  /-- PCIE_MULTI_DWORD_REQUEST (R712): A PCI Express request of several dwords is split into aligned accesses in ascending order. -/
  | pcieMultiDwordRequest (dt : Nat) (addr : Nat) (len : Nat) (wdata : Option (List Byte))
  /-- SPI_TRANSFER (R525): An SPI transfer reads or writes BAR0 words, or counts SPI_REFUSED outside its reach. -/
  | spiTransfer (dt : Nat) (addr : Nat) (words : Nat) (wdata : Option (List Byte))
  /-- UNALIGNED_ACCESS (R713): An access of an unaccepted width or alignment completes normally, reading 0 and discarding writes. -/
  | unalignedAccess (dt : Nat) (src : Iface) (addr : Nat) (width : Nat) (wdata : Option (List Byte))
  /-- UNMAPPED_ACCESS (R581): An access to an unmapped address reads 0 and discards writes. -/
  | unmappedAccess (dt : Nat) (src : Iface) (addr : Nat) (width : Nat) (wdata : Option (List Byte))
  /-- REGISTER_WRITE (R10): A write to a register without a row of its own applies its fields by access type. -/
  | registerWrite (dt : Nat) (src : Iface) (addr : Nat) (value : BitVec 32)
  /-- SYS_IDENTITY (R574): Returns the identity record. -/
  | sysIdentity (dt : Nat) (r : Ring)
  /-- SYS_NOP (R573): Returns the request bytes unchanged. -/
  | sysNop (dt : Nat) (r : Ring)
  /-- SYS_RESET (R575): Refuses further rings, aborts other commands and schedules the supervisor-commanded node reset. -/
  | sysReset (dt : Nat) (r : Ring)
  /-- SYS_EVENT_MASK (R568): Admits event types to, or withholds them from, the event queue. -/
  | sysEventMask (dt : Nat) (r : Ring)
  /-- SYS_PATCH_STAGE (R577): Writes part of a patch image into the staged area in flash. -/
  | sysPatchStage (dt : Nat) (r : Ring)
  /-- SYS_PATCH_VERIFY (R578): Checks the staged patch and returns its level, floor and identifier, or PATCH_REJECTED. -/
  | sysPatchVerify (dt : Nat) (r : Ring)
  /-- SYS_LOG_READ (R572): Returns entries of the non-volatile event log. -/
  | sysLogRead (dt : Nat) (r : Ring)
  /-- SYS_PROFILE_CONFIRM (R615): Stores the profile confirmation when it matches the strap, releasing step 0x7. -/
  | sysProfileConfirm (dt : Nat) (r : Ring)
  /-- SYS_DEBUG_NONCE (R621): Returns a 16-byte nonce for one debug unlock. -/
  | sysDebugNonce (dt : Nat) (r : Ring)
  /-- SYS_DEBUG_UNLOCK (R621): Verifies the signed scope and unlocks the test access port. -/
  | sysDebugUnlock (dt : Nat) (r : Ring)
  /-- SYS_DEBUG_RELOCK (R621): Locks the test access port again. -/
  | sysDebugRelock (dt : Nat) (r : Ring)
  /-- TOPO_STATUS (R156): Returns the topology status record, optionally clearing its counters. -/
  | topoStatus (dt : Nat) (r : Ring)
  /-- TOPO_DIRECTORY (R100): Returns the directory in force or the prepared directory. -/
  | topoDirectory (dt : Nat) (r : Ring)
  /-- TOPO_POSITION_MAP (R143): Returns the position map of the last switch. -/
  | topoPositionMap (dt : Nat) (r : Ring)
  /-- TOPO_SET_LEADING (R106): Stores a leading-vehicle command and passes it to the first node. -/
  | topoSetLeading (dt : Nat) (r : Ring)
  /-- TOPO_SET_IDENTITY (R154): Sets the vehicle identity, twin letter and cold-start priority in steep. -/
  | topoSetIdentity (dt : Nat) (r : Ring)
  /-- TOPO_COLD_START (R138): Puts the node into cold-start contention. -/
  | topoColdStart (dt : Nat) (r : Ring)
  /-- TRUNK_SET_POLICY (R714): Sets a direction's mode policy, at once or at the next entry to steep. -/
  | trunkSetPolicy (dt : Nat) (r : Ring)
  /-- TRUNK_STATUS (R87): Returns a trunk port's status record, optionally clearing its counters. -/
  | trunkStatus (dt : Nat) (r : Ring)
  /-- TRUNK_BYPASS_PASSIVE (R71): Commands the staggered closing of the bypass switches. -/
  | trunkBypassPassive (dt : Nat) (r : Ring)
  /-- TRUNK_BYPASS_ACTIVE (R72): Commands the staggered opening of the bypass switches. -/
  | trunkBypassActive (dt : Nat) (r : Ring)
  /-- TRUNK_RETRAIN (R56): Retrains a port in steep, or queues the retrain until steep. -/
  | trunkRetrain (dt : Nat) (r : Ring)
  /-- SCHED_STATUS (R216): Returns the schedule status record, optionally clearing its counters. -/
  | schedStatus (dt : Nat) (r : Ring)
  /-- SCHED_STAGE (R198): Writes part of an image into the staged area. -/
  | schedStage (dt : Nat) (r : Ring)
  /-- SCHED_VERIFY (R199): Checks the staged image and marks it verified, or rejects it with a check code. -/
  | schedVerify (dt : Nat) (r : Ring)
  /-- SCHED_HOLD (R200): The first node holds the backbone from the next cycle it opens. -/
  | schedHold (dt : Nat) (r : Ring)
  /-- SCHED_ACTIVATE (R201): Makes the verified staged image run at once in steep, or at the release in Held. -/
  | schedActivate (dt : Nat) (r : Ring)
  /-- SCHED_RELEASE (R202): The first node chooses the release instant and counts down to it. -/
  | schedRelease (dt : Nat) (r : Ring)
  /-- SCHED_ENTRY_STATUS (R216): Returns an entry's status record, optionally clearing its counters. -/
  | schedEntryStatus (dt : Nat) (r : Ring)
  /-- TIME_STATUS (R260): Returns the time unit registers taken at one moment. -/
  | timeStatus (dt : Nat) (r : Ring)
  /-- TIME_SET (R260): Sets the train time in steep and puts the time unit into Free. -/
  | timeSet (dt : Nat) (r : Ring)
  /-- TIME_PTP_CONFIG (R260): Configures a PTP instance from the next instant. -/
  | timePtpConfig (dt : Nat) (r : Ring)
  /-- TIME_DOMAIN_POLICY (R246): Sets the domain selection policy, the reaction and the asymmetry bound. -/
  | timeDomainPolicy (dt : Nat) (r : Ring)
  /-- TIME_STEER (R249): Turns TAI steering on or off. -/
  | timeSteer (dt : Nat) (r : Ring)
  /-- TIME_PTP_STATUS (R260): Returns a PTP instance status record. -/
  | timePtpStatus (dt : Nat) (r : Ring)
  /-- FLOW_SET (R718): Checks and writes a flow context that takes effect at the next instant. -/
  | flowSet (dt : Nat) (r : Ring)
  /-- FLOW_GET (R312): Returns a flow context record. -/
  | flowGet (dt : Nat) (r : Ring)
  /-- FLOW_STATUS (R313): Returns a flow status record, optionally clearing its counters. -/
  | flowStatus (dt : Nat) (r : Ring)
  /-- FLOW_SAVE (R312): Stores all flow contexts in flash. -/
  | flowSave (dt : Nat) (r : Ring)
  /-- FLOW_MACSEC_KEY (R299): Loads the connectivity association key for flow MACsec. -/
  | flowMacsecKey (dt : Nat) (r : Ring)
  /-- SESSION_OPEN (R305): Opens a message session by address or by identity. -/
  | sessionOpen (dt : Nat) (r : Ring)
  /-- SESSION_SEND (R303): Stores a chunk of a message for sending. -/
  | sessionSend (dt : Nat) (r : Ring)
  /-- SESSION_RECV (R312): Returns part of a received message and frees it when fully read. -/
  | sessionRecv (dt : Nat) (r : Ring)
  /-- SESSION_CLOSE (R312): Closes a session. -/
  | sessionClose (dt : Nat) (r : Ring)
  /-- TWIN_STATUS (R354): Returns the twin status record. -/
  | twinStatus (dt : Nat) (r : Ring)
  /-- TWIN_CONFIG (R353): Sets the preferred bit and the application region. -/
  | twinConfig (dt : Nat) (r : Ring)
  /-- TWIN_SWITCHOVER (R349): Starts a planned switchover to the Standby partner. -/
  | twinSwitchover (dt : Nat) (r : Ring)
  /-- TWIN_SERVICE_OUT (R351): Takes the node out of service, through a switchover where one is possible. -/
  | twinServiceOut (dt : Nat) (r : Ring)
  /-- TWIN_SERVICE_RETURN (R351): Returns a node held out of service. -/
  | twinServiceReturn (dt : Nat) (r : Ring)
  /-- TWIN_RENEW (R327): Resets the claim generations of a passive node. -/
  | twinRenew (dt : Nat) (r : Ring)
  /-- LSK_STATUS (R392): Returns a pair status record. -/
  | lskStatus (dt : Nat) (r : Ring)
  /-- LSK_PAIR_CONFIG (R391): Configures a halted pair's reaction, classes, windows and reset vector. -/
  | lskPairConfig (dt : Nat) (r : Ring)
  /-- LSK_PAIR_RESET (R389): Resets a logical pair at the next instant. -/
  | lskPairReset (dt : Nat) (r : Ring)
  /-- LSK_SPLIT (R382): Queues a split at the next hand-over point. -/
  | lskSplit (dt : Nat) (r : Ring)
  /-- LSK_REJOIN (R384): Queues the rejoin of a split pair. -/
  | lskRejoin (dt : Nat) (r : Ring)
  /-- LSK_SUBSTITUTE (R383): Queues a planned substitution onto the Ready spare. -/
  | lskSubstitute (dt : Nat) (r : Ring)
  /-- CAN_SAVE (R447): Stores the configuration of the masked channels in flash. -/
  | canSave (dt : Nat) (r : Ring)
  /-- CAN_LOAD (R447): Loads the saved configuration of masked channels that are in Config. -/
  | canLoad (dt : Nat) (r : Ring)
  /-- MVB_CONFIG (R453): Sets a segment's role, administrator claim and device address. -/
  | mvbConfig (dt : Nat) (r : Ring)
  /-- MVB_POLL_STAGE (R491): Writes part of a poll table. -/
  | mvbPollStage (dt : Nat) (r : Ring)
  /-- MVB_POLL_COMMIT (R460): Checks the staged poll table and commits it for cycle C. -/
  | mvbPollCommit (dt : Nat) (r : Ring)
  /-- MVB_PORT_SET (R462): Writes a segment port record. -/
  | mvbPortSet (dt : Nat) (r : Ring)
  /-- MVB_PORT_WRITE (R463): Sets the data of an unlinked source port. -/
  | mvbPortWrite (dt : Nat) (r : Ring)
  /-- MVB_PORT_READ (R466): Returns a port's data and AGE. -/
  | mvbPortRead (dt : Nat) (r : Ring)
  /-- MVB_STATUS (R493): Returns the segment status record. -/
  | mvbStatus (dt : Nat) (r : Ring)
  /-- SWC_PORT_CONFIG (R491): Configures a consist port from the next instant. -/
  | swcPortConfig (dt : Nat) (r : Ring)
  /-- SWC_PORT_STATUS (R493): Returns a switch port status record. -/
  | swcPortStatus (dt : Nat) (r : Ring)
  /-- SWC_VLAN_SET (R475): Sets a VLAN's member and untagged masks. -/
  | swcVlanSet (dt : Nat) (r : Ring)
  /-- SWC_STREAM_SET (R492): Writes a stream record and clears its counters. -/
  | swcStreamSet (dt : Nat) (r : Ring)
  /-- SWC_GCL_STAGE (R477): Stages a port's gate control list. -/
  | swcGclStage (dt : Nat) (r : Ring)
  /-- SWC_GCL_COMMIT (R479): Commits staged gate lists for cycle C. -/
  | swcGclCommit (dt : Nat) (r : Ring)
  /-- SWC_MACSEC_KEY (R489): Loads a consist port's CAK and CKN. -/
  | swcMacsecKey (dt : Nat) (r : Ring)
  /-- SWC_STREAM_STATUS (R493): Returns a stream status record. -/
  | swcStreamStatus (dt : Nat) (r : Ring)
  /-- SWC_SAVE (R491): Stores the switch configuration in flash. -/
  | swcSave (dt : Nat) (r : Ring)
  /-- FAB_STATUS (R542): Returns a fabric link status record. -/
  | fabStatus (dt : Nat) (r : Ring)
  /-- FAB_CONFIG (R504): Sets the fabric attachment, link mask, grant and timeouts in steep. -/
  | fabConfig (dt : Nat) (r : Ring)
  /-- FAB_WINDOW_SET (R526): Configures a remote window. -/
  | fabWindowSet (dt : Nat) (r : Ring)
  /-- FAB_SLOT_TABLE (R507): Assigns or frees a slot at the Active twin. -/
  | fabSlotTable (dt : Nat) (r : Ring)
  /-- FAB_BRIDGE_STATUS (R541): Returns the bridge counters. -/
  | fabBridgeStatus (dt : Nat) (r : Ring)
  /-- FAB_PWLOG (R537): Returns and optionally removes posted-write failure entries. -/
  | fabPwlog (dt : Nat) (r : Ring)
  /-- FAB_SEM_RELEASE (R541): Releases a bridge semaphore by command. -/
  | fabSemRelease (dt : Nat) (r : Ring)
  /-- PWR_STATUS (R648): Returns the power status record. -/
  | pwrStatus (dt : Nat) (r : Ring)
  /-- PWR_DOMAIN_CONFIG (R647): Sets the deepest state a domain may take. -/
  | pwrDomainConfig (dt : Nat) (r : Ring)
  /-- PWR_PARK (R638): Queues entry to Park at cycle C. -/
  | pwrPark (dt : Nat) (r : Ring)
  /-- PWR_PARK_WITHDRAW (R638): Withdraws a pending Park or Kiln command. -/
  | pwrParkWithdraw (dt : Nat) (r : Ring)
  /-- PWR_KILN (R638): Queues entry to Kiln at cycle C. -/
  | pwrKiln (dt : Nat) (r : Ring)
  /-- PWR_KILN_WITHDRAW (R638): Withdraws a pending Kiln or Park command. -/
  | pwrKilnWithdraw (dt : Nat) (r : Ring)
  /-- PWR_WAKE_CONFIG (R641): Sets the wake sources and the alarm time. -/
  | pwrWakeConfig (dt : Nat) (r : Ring)
  /-- REP_STATUS (R670): Returns the repair status record. -/
  | repStatus (dt : Nat) (r : Ring)
  /-- REP_LOG (R669): Returns repair history entries. -/
  | repLog (dt : Nat) (r : Ring)
  /-- REP_TEST (R667): Queues a self-test, sweep, scrub or lane check. -/
  | repTest (dt : Nat) (r : Ring)
  /-- REP_CALIBRATE (R667): Queues a calibration. -/
  | repCalibrate (dt : Nat) (r : Ring)
  /-- REP_ROTATION (R662): Sets or stops the rotation period. -/
  | repRotation (dt : Nat) (r : Ring)
  /-- REC_STATUS (R312): Returns the recorder's write offset, frozen bytes and casks. -/
  | recStatus (dt : Nat) (r : Ring)
  /-- REC_CONFIG (R308): Sets PRE, POST, the trigger events and the recording bitmap. -/
  | recConfig (dt : Nat) (r : Ring)
  /-- REC_TRIGGER (R308): Freezes a cask, or is refused under the limits. -/
  | recTrigger (dt : Nat) (r : Ring)
  /-- REC_CASK (R311): Returns a cask's offset, length, trigger cycle and tag. -/
  | recCask (dt : Nat) (r : Ring)
  /-- REC_RELEASE (R309): Releases a cask. -/
  | recRelease (dt : Nat) (r : Ring)
  /-- REC_PAGE (R311): Selects the ring page shown in the read window. -/
  | recPage (dt : Nat) (r : Ring)
  /-- AUTONEG_COMPLETE (R67): Clause 98 auto-negotiation resolves a common T1 mode and master/slave role, and the port leaves Negotiate for Train. -/
  | autonegComplete (dt : Nat) (p : Fin 4) (m1000 : Bool) (m100 : Bool) (master : Bool)
  /-- TRAINING_FAILURE (R67): Training fails, or under policy 0x1 no Ndoelle partner answers within 40 ms; the port counts TRAIN_FAIL and returns to Detect or falls back to Clause 98 auto-negotiation. -/
  | trainingFailure (dt : Nat) (p : Fin 4) (answered : Bool)
  /-- T1_LINK_DOWN (R67): Clause 96 or Clause 97 reports a T1 trunk link down, and the port leaves Up for Detect with a TRUNK_LINK event. -/
  | t1LinkDown (dt : Nat) (p : Fin 4)
  /-- TTDP_FRAME_RX (R152): An IEC 61375-2-5 topology discovery frame arrives from a T1 partner that sends no link beacon, and the node enters or stays in the state Backbone node and follows that standard's topology counter. -/
  | ttdpFrameRx (dt : Nat) (p : Fin 4) (t : Ttdp)
  /-- TRUNK_DOMAIN_SYNC_RX (R229): An IEEE 802.1AS Sync of the trunk time domain arrives over a hop without beacons, is relayed, and gives the node its phase sample. -/
  | trunkDomainSyncRx (dt : Nat) (p : Fin 4) (domain : BitVec 7) (origin : Int) (tRx : Int)
  /-- ISLAND_INAUGURATION_COMPLETE (R149): A wire-train-bus inauguration in a legacy island completes, and the boundary node imports its result and has it prepared as an addition. -/
  | islandInaugurationComplete (dt : Nat) (dir : Fin 2) (wtbAddrs : List Byte) (interior : Bool) (master : Bool)
      (reporter : Option (BitVec 64))
  /-- ISLAND_TELEGRAM_RX (R301): A wire-train-bus process-data telegram from an island node arrives at the boundary node and becomes the latest value of its island flow. -/
  | islandTelegramRx (dt : Nat) (addr : Byte) (data : List Byte) (okA : Bool) (okB : Bool)
  /-- ISLAND_TELEGRAM_SEND (R302): At each 25 ms period of the island, the boundary node sends its own wire-train-bus process data, carrying the current values of its consumed island flows. -/
  | islandTelegramSend (dt : Nat)
  /-- NON_SCHEDULED_SEND (R208): Outside the slot region, a trunk egress port whose transit FIFO is empty starts the next management or sporadic frame from its queues, under the master-part, credit and SPOR_END limits. -/
  | nonScheduledSend (dt : Nat) (p : Fin 4) (transitBusy : Bool)
  /-- DOORBELL_RING (R550): A write of 1 to MBX_DBn.RING is refused and counted, or it is accepted and its opcode is not in the master table and completes with UNKNOWN_OPCODE. -/
  | doorbellRing (dt : Nat) (src : Iface) (mbx : Fin 8) (value : BitVec 32)
  /-- RACKING_FRAME_SEND (R341): From 6 µs after a snapshot, the active twin sends the next racking items frame or commit frame on the twin links as link time allows, marking region pages sent. -/
  | rackingFrameSend (dt : Nat) (room : Nat)
  deriving DecidableEq, Repr

end Sys2Proof
end

