-- ==== Sys2Proof/Decode.lean ====
section
/-! DEFINITION. The command a word spells by the bits of spec/opcode_table.json. The table gives no row any bits (the
block is commanded by frames, pins, register accesses and mailboxes), so no word spells a command. -/

namespace Sys2Proof

/-- The command a word spells: the table gives bits to no row. -/
def decodeTableWord (_nbits _w : Nat) : Option Instr := none

end Sys2Proof
end

