-- ==== Sys2Proof/Config.lean ====
section
/-! DEFINITION. What the spec leaves open: constants without a body, so that nothing can be proved of their values. -/

namespace Sys2Proof.Config

/-- The values the spec does not state (log 3): the n-th one used is `freeNat n`, reduced to the range the spec sets. -/
opaque freeNat : Nat → Nat

/-- Whether an Ed25519 signature (RFC 8032) of 64 bytes verifies over a message: first argument false for the Sarevo
patch key (R577), true for the Sarevo debug key (R621). The keys stand in ROM and the spec does not print them. -/
opaque ed25519 : Bool → List Byte → List Byte → Bool

/-- The n-th debug nonce since the start (R621): 16 bytes whose values the spec does not state. -/
opaque nonce : Nat → BitVec 128

/-- Sarevo's JEP106 manufacturer identity in the IDCODE (R687), whose value the spec does not print. -/
opaque jep106 : BitVec 11

/-- R359: where the ROM begins as a pair sees it. The spec does not state it. -/
opaque romBase : Nat

/-- How many bytes the ROM has as a pair sees it. -/
opaque romSize : Nat

/-- A byte of the ROM. -/
opaque romByte : Nat → BitVec 8

/-- One clock cycle of a core on the inputs of that cycle (R358, R361): the state after it, and what it retires, stores and
sends. The spec names the instruction set (RV64GC) and leaves the rest of the core open. -/
opaque coreCycle : CoreState → CoreInput → CoreState × CoreCycle

end Sys2Proof.Config
end

