-- ==== Sys2Proof/Machine/Bits.lean ====
section
/-! DEFINITION. Bytes, bit fields, sparse storage and the codes the spec computes (CRC-8, CRC-32C, SHA-256). -/

namespace Sys2Proof.Machine

/-! ## Bytes and fields -/

/-- The `k` little-endian bytes of `v` (R4). -/
def leBytes : Nat → Nat → List Byte
  | 0, _ => []
  | k + 1, v => BitVec.ofNat 8 v :: leBytes k (v / 256)

/-- The number whose little-endian bytes are given. -/
def leNat : List Byte → Nat
  | [] => 0
  | b :: bs => b.toNat + 256 * leNat bs

/-- Byte `i` of a payload, 0 beyond its end. -/
def byteAt (l : List Byte) (i : Nat) : Nat := (l.getD i 0).toNat

/-- The little-endian number of `n` bytes at offset `off`. -/
def fieldAt (l : List Byte) (off n : Nat) : Nat := leNat ((l.drop off).take n)

/-- Bits [lo + w − 1 : lo] of `v`. -/
def bitsOf (v lo w : Nat) : Nat := v / 2 ^ lo % 2 ^ w

/-- 1 for true. -/
def b2n (b : Bool) : Nat := if b then 1 else 0

/-- The bit string with value `v` in the `w` bits from bit `lo`, for each (lo, w, v). -/
def packFields (fs : List (Nat × Nat × Nat)) : Nat :=
  fs.foldl (fun acc f => acc + f.2.2 % 2 ^ f.2.1 * 2 ^ f.1) 0

/-- A record of `n` bytes with the given fields, every other bit 0. -/
def recBytes (n : Nat) (fs : List (Nat × Nat × Nat)) : List Byte := leBytes n (packFields fs)

/-- The two's complement of `v` in `w` bits. -/
def twos (w : Nat) (v : Int) : Nat := (v % (2 ^ w : Int)).toNat

/-- The signed value of the low `w` bits of `v`. -/
def signed (w v : Nat) : Int :=
  if v % 2 ^ w < 2 ^ (w - 1) then (v % 2 ^ w : Nat) else (v % 2 ^ w : Nat) - (2 ^ w : Nat)

/-- Zeros up to length `n`, and nothing beyond it. -/
def padTo (n : Nat) (l : List Byte) : List Byte := (l ++ List.replicate n 0).take n

/-- Element `i` changed. -/
def updAt {α : Type} : List α → Nat → (α → α) → List α
  | [], _, _ => []
  | x :: xs, 0, f => f x :: xs
  | x :: xs, i + 1, f => x :: updAt xs i f

/-! ## Sparse storage -/

/-- The byte at an address; an unlisted address reads 0. -/
def memGet : Mem → Nat → Byte
  | [], _ => 0
  | (b, w) :: m, a => if a = b then w else memGet m a

/-- A byte written: the listing stays rising and lists no 0. -/
def memSet : Mem → Nat → Byte → Mem
  | [], a, v => if v = 0 then [] else [(a, v)]
  | (b, w) :: m, a, v =>
    if a < b then (if v = 0 then (b, w) :: m else (a, v) :: (b, w) :: m)
    else if a = b then (if v = 0 then m else (b, v) :: m)
    else (b, w) :: memSet m a v

/-- `n` bytes from an address. -/
def memRead (m : Mem) (a n : Nat) : List Byte := (List.range n).map (fun i => memGet m (a + i))

/-- Bytes written from an address up. -/
def memWrite : Mem → Nat → List Byte → Mem
  | m, _, [] => m
  | m, a, v :: vs => memWrite (memSet m a v) (a + 1) vs

/-- The bytes of `[a, a + n)` made 0. -/
def memClear (m : Mem) (a n : Nat) : Mem := m.filter (fun c => c.1 < a || a + n ≤ c.1)

/-- The value at a key. -/
def tblGet {α : Type} : Tbl α → Nat → Option α
  | [], _ => none
  | (k, v) :: t, i => if i = k then some v else tblGet t i

/-- A value stored at a key, the keys staying in rising order. -/
def tblSet {α : Type} : Tbl α → Nat → α → Tbl α
  | [], i, v => [(i, v)]
  | (k, w) :: t, i, v =>
    if i < k then (i, v) :: (k, w) :: t
    else if i = k then (k, v) :: t
    else (k, w) :: tblSet t i v

/-- A key taken out. -/
def tblErase {α : Type} (t : Tbl α) (i : Nat) : Tbl α := t.filter (fun e => e.1 ≠ i)

/-- Every value changed. -/
def tblMap {α : Type} (f : Nat → α → α) (t : Tbl α) : Tbl α := t.map (fun e => (e.1, f e.1 e.2))

/-! ## Codes -/

/-- One bit step of CRC-8, polynomial 0x07, initial value 0 (delay markers). -/
def crc8Bit (c : Byte) (b : Bool) : Byte :=
  if c.getMsbD 0 != b then (c <<< 1) ^^^ 0x07 else c <<< 1

/-- CRC-8 over the low `n` bits of `v`, most significant first. -/
def crc8 : Nat → Nat → Byte → Byte
  | 0, _, c => c
  | n + 1, v, c => crc8 n v (crc8Bit c (v.testBit n))

/-- One bit step of the reflected CRC-32C. -/
def crc32Step (c : BitVec 32) : BitVec 32 :=
  if c.getLsbD 0 then (c >>> 1) ^^^ 0x82F63B78 else c >>> 1

/-- One byte of the CRC-32C. -/
def crc32Byte (c : BitVec 32) (b : Byte) : BitVec 32 :=
  crc32Step (crc32Step (crc32Step (crc32Step (crc32Step (crc32Step (crc32Step (crc32Step
    (c ^^^ b.setWidth 32))))))))

/-- CRC-32C of R292: polynomial 0x1EDC_6F41 reflected, initial value and final XOR 0xFFFF_FFFF. -/
def crc32c (l : List Byte) : BitVec 32 := (l.foldl crc32Byte 0xFFFFFFFF) ^^^ 0xFFFFFFFF

/-- The whole part of the `k`-th root of `n`: bits `b − 1` to 0 of it, added to `r` from the highest down. -/
def rootBits (k n : Nat) : Nat → Nat → Nat
  | 0, r => r
  | b + 1, r => rootBits k n b (if (r + 2 ^ b) ^ k ≤ n then r + 2 ^ b else r)

/-- The first 32 bits of the fractional part of the `k`-th root of `p`: how FIPS 180-4, cited by R196, names the
constants of SHA-256. `p` is below 512. -/
def rootFraction (k p : Nat) : BitVec 32 := BitVec.ofNat 32 (rootBits k (p * 2 ^ (32 * k)) 37 0)

/-- The primes below `n`, which is at most 361. -/
def primesBelow (n : Nat) : List Nat :=
  (List.range n).filter (fun p => 2 ≤ p && [2, 3, 5, 7, 11, 13, 17].all (fun d => p = d || p % d ≠ 0))

/-- The 64 round constants of SHA-256: cube roots of the first 64 primes. -/
def shaK : List (BitVec 32) := (primesBelow 312).map (rootFraction 3)

/-- The eight words that SHA-256 begins with: square roots of the first eight primes. -/
def shaStart : List (BitVec 32) := (primesBelow 20).map (rootFraction 2)

/-- The message schedule: `w` holds the words so far, newest first. -/
def shaExtend : Nat → List (BitVec 32) → List (BitVec 32)
  | 0, w => w
  | n + 1, w =>
    let s1 (x : BitVec 32) := x.rotateRight 17 ^^^ x.rotateRight 19 ^^^ (x >>> 10)
    let s0 (x : BitVec 32) := x.rotateRight 7 ^^^ x.rotateRight 18 ^^^ (x >>> 3)
    shaExtend n ((s1 (w.getD 1 0) + w.getD 6 0 + s0 (w.getD 14 0) + w.getD 15 0) :: w)

/-- One round on (a, b, c, d, e, f, g, h). -/
def shaRound (v : List (BitVec 32)) (kw : BitVec 32) : List (BitVec 32) :=
  match v with
  | [a, b, c, d, e, f, g, h] =>
    let t1 := h + (e.rotateRight 6 ^^^ e.rotateRight 11 ^^^ e.rotateRight 25) +
      ((e &&& f) ^^^ ((~~~ e) &&& g)) + kw
    let t2 := (a.rotateRight 2 ^^^ a.rotateRight 13 ^^^ a.rotateRight 22) +
      ((a &&& b) ^^^ (a &&& c) ^^^ (b &&& c))
    [t1 + t2, a, b, c, d + t1, e, f, g]
  | v => v

/-- The big-endian number of some bytes. -/
def beNat (l : List Byte) : Nat := l.foldl (fun a b => 256 * a + b.toNat) 0

/-- One 64-byte block. -/
def shaBlock (h : List (BitVec 32)) (blk : List Byte) : List (BitVec 32) :=
  let w0 := (List.range 16).map (fun i => BitVec.ofNat 32 (beNat ((blk.drop (4 * i)).take 4)))
  let w := (shaExtend 48 w0.reverse).reverse
  let v := (List.zipWith (· + ·) shaK w).foldl shaRound h
  List.zipWith (· + ·) h v

/-- `n` blocks in turn. -/
def shaBlocks : Nat → List (BitVec 32) → List Byte → List (BitVec 32)
  | 0, h, _ => h
  | n + 1, h, m => shaBlocks n (shaBlock h (m.take 64)) (m.drop 64)

/-- SHA-256 as 32 bytes in the order of the standard. -/
def sha256 (m : List Byte) : List Byte :=
  let len := m.length
  let z := (119 - len % 64) % 64
  let p := m ++ [0x80] ++ List.replicate z 0 ++ (leBytes 8 (8 * len)).reverse
  let h := shaBlocks (p.length / 64) shaStart p
  h.flatMap (fun x => (leBytes 4 x.toNat).reverse)

/-! ## Arithmetic of the records -/

/-- R17: `a` is newer than `b` for `w`-bit wrap values. -/
def wrapNewer {w : Nat} (a b : BitVec w) : Bool :=
  0 < (a - b).toNat && (a - b).toNat < 2 ^ (w - 1)

/-- R17: the two values are unordered. -/
def wrapUnordered {w : Nat} (a b : BitVec w) : Bool := (a - b).toNat = 2 ^ (w - 1)

/-- A list of numbers sorted in rising order. -/
def insertNat (x : Nat) : List Nat → List Nat
  | [] => [x]
  | y :: ys => if x ≤ y then x :: y :: ys else y :: insertNat x ys

/-- Ascending sort. -/
def sortNat (l : List Nat) : List Nat := l.foldr insertNat []

/-- Insertion of an integer in rising order. -/
def insertInt (x : Int) : List Int → List Int
  | [] => [x]
  | y :: ys => if x ≤ y then x :: y :: ys else y :: insertInt x ys

/-- Ascending sort of integers. -/
def sortInt (l : List Int) : List Int := l.foldr insertInt []

end Sys2Proof.Machine
end

