-- ==== Sys2Proof/Machine/Records.lean ====
section
/-! DEFINITION. The records of which `State` is made: plain data, one structure per block of the node. Each field's
line gives the rule of spec/ that names it; the values after reset stand with each record's `reset` in State.lean. -/

namespace Sys2Proof.Machine

/-- A counter of class sat with its sticky overflow bit (R14). -/
structure Sat where
  n : BitVec 32
  ovf : Bool
  deriving DecidableEq, Repr

/-- The sat counters of one record, by the index n of the record's OVERFLOW rule. -/
abbrev Ctrs := List Sat

/-- Inauguration states (R123). -/
inductive Inaug where
  | steep
  | contend
  | provLead
  | provMember
  | joined
  | held
  | backbone
  deriving DecidableEq, Repr

/-- Trunk port states (R67). -/
inductive PortSt where
  | disabled
  | detect
  | negotiate
  | train
  | qualify
  | up
  | resume
  | listen
  | bypassed
  | tap
  deriving DecidableEq, Repr

/-- Trunk port modes (R45). -/
inductive Mode where
  | none
  | ndoelle
  | t1000
  | t100
  | wtb
  deriving DecidableEq, Repr

/-- Time unit states (R232). -/
inductive TimeSt where
  | free
  | acquire
  | locked
  | holdover
  | master
  deriving DecidableEq, Repr

/-- Twin roles (R319). -/
inductive Role where
  | out
  | returning
  | standby
  | active
  deriving DecidableEq, Repr

/-- An event as the queue, the log and the recorder hold it (R569). TIME in ticks. -/
structure Event where
  seq : BitVec 32
  type : BitVec 16
  lost : Bool
  unsure : Bool
  logged : Bool
  time : Nat
  param : List Byte
  clk : Nat                            -- moment it was written (the model's own)
  raised : Bool                        -- R588: the queue vector was raised since it was written (the model's own)
  deriving DecidableEq, Repr

/-- A command's answer: status (R563), DETAIL, response payload, and for a queued command what its completion needs
(the model's own number). -/
structure Reply where
  status : Nat
  detail : Nat
  rsp : List Byte
  arg : Nat
  deriving DecidableEq, Repr

/-- What R555 checks of a command before its subject chapter does: the opcode, whether it is refused remotely (R562),
whether it stores in flash and how long it may take (R554), the range of REQ_LEN and the field (offset, size, base,
factor) that fixes it within the range, and the reserved bits as (byte offset, mask). -/
structure CmdSpec where
  opcode : Nat
  noRemote : Bool
  flash : Bool
  slow : Bool
  minLen : Nat
  maxLen : Nat
  tied : Option (Nat × Nat × Nat × Nat)
  resv : List (Nat × Nat)
  deriving DecidableEq, Repr

/-- Frames the node originates on a trunk port. -/
inductive OutFrame where
  | beacon (b : Beacon)
  | breakF (b : BreakBody)
  | dir (d : DirFrame)
  | join (j : JoinBody)
  | coldClaim (c : ColdClaim)
  | mergeReport (m : MergeReport)
  | leadSet (vid : BitVec 48)
  | fabricReport (r : FabricReport)
  | opening (f : OpeningFrame)
  | flow (f : FlowFrame)
  | heartbeat (dst : Option (BitVec 48)) (h : Heartbeat)
  | session (f : SessionFrame)
  | bridge (resp : Bool) (b : BridgeFrame)
  | eth (f : EthFrame)
  | domainSync (domain : BitVec 7) (t : Int)
  | ttdp (t : Ttdp)
  | islandReport (uid : BitVec 64) (addrs : List Byte)
  deriving DecidableEq, Repr

/-- A frame waiting in the transit FIFO of a trunk port (R208): as it passes, or one of a kind the node reads, with its
length. -/
inductive TransitItem where
  | raw (f : TransitFrame)
  | out (f : OutFrame) (len : Nat)
  deriving DecidableEq, Repr

/-- What the node drives, sends or answers on its pins during one command: the model's own record, not a register of
the spec. Times are ticks of the node's own count. -/
inductive Emission where
  | trunk (p : Fin 4) (f : OutFrame) (at_ : Option Int) (etherType : Option (BitVec 16))
  | transit (p : Fin 4) (f : TransitFrame)
  | forwarded (p : Fin 4) (f : OutFrame)
  | abortCode (p : Fin 4)
  | delay (p : DelayPort) (m : DelayMsg)
  | train (p : Fin 4)
  | twinLink (k : Fin 2) (h : Heartbeat)
  | rack (f : RackFrame)
  | rackReport (rgen : BitVec 32)
  | fabric (k : Fin 4) (f : FabricFrame)
  | fabricBeacon (k : Fin 4) (b : FabricBeacon)
  | fabricTick (k : Fin 4) (t : FabricTick)
  | laneSwitch (k : Fin 4) (lane : Fin 2)
  | canData (c : Fin 12) (slot : CanSlot)
  | canReference (c : Fin 12) (row : Nat)
  | mvbMaster (g : Fin 2) (fcode : BitVec 4) (addr : BitVec 12)
  | mvbSlave (g : Fin 2) (data : List Byte)
  | consist (port : Fin 22) (f : EthFrame) (rtag : Option (BitVec 16))
  | mkpdu (port : Fin 16) (sak : Option (BitVec 32))
  | ptpSync (inst : Fin 2) (port : Nat) (domain : BitVec 7) (seq : BitVec 16)
  | ptpFollowUp (inst : Fin 2) (port : Nat) (domain : BitVec 7) (seq : BitVec 16) (origin : Int) (corr : Int)
  | ptpAnnounce (inst : Fin 2) (ports : List Nat) (a : PtpAnnounce)
  | ptpPdelay (inst : Fin 2) (ports : List Nat) (domain : BitVec 7)
  | ptpSignaling (inst : Fin 2) (port : Nat) (domain : BitVec 7) (logSync : Byte)
  | ptpDelayAnswer (port : Nat) (t2 t3 : Int)
  | wtb (data : List Byte)
  | msix (v : Fin 32)
  | pairIrq (l : Fin 4) (vector : Byte)
  | readData (i : Iface) (data : List Byte)
  | lbAnswer (ready : Bool) (data : BitVec 16)
  | pcieHeld
  | tio (n : Fin 6) (level : Bool)
  | bypass (line : Line) (close : Bool)
  | wakePort (p : Fin 4)
  | wakeTwin (k : Fin 2)
  | wakeTone (line : Line)
  | accessFault (l : Fin 4) (addr : Nat)
  | coreInterrupt (l : Fin 4) (addr : Nat) (data : List Byte)
  | wtbInaugurate
  deriving DecidableEq, Repr

/-! ## System: start, patches, mailboxes, events -/

/-- One patch image held in flash with its verified mark (R577–R579). -/
structure Patch where
  bytes : Mem
  len : Nat
  verified : Bool
  deriving DecidableEq, Repr

/-- R619, R687: what the test access port carries out. -/
inductive TapIr where
  | idcode
  | bypass
  | extest
  deriving DecidableEq, Repr

/-- Start-up, straps, identity and debug (R574, R604–R622). -/
structure Sys where
  uid : BitVec 64                      -- R23: fused unique identifier
  ordering : List Byte                 -- R574: ordering code
  revision : BitVec 16                 -- R574: module revision
  dateYear : Byte                      -- R574
  dateWeek : Byte                      -- R574
  romMinor : Byte                      -- R574
  powered : Bool                       -- R605: power-good reached
  native : Bool                        -- R604: PROF_SEL as latched
  maint : Bool                         -- R604: MAINT_L low as latched
  step : Nat                           -- R605: start step in progress, 0 before power-good
  step4Done : Bool                     -- R605: step 0x4 ended
  step5Done : Bool                     -- R605: step 0x5 ended
  ready : Bool                         -- R613: START_READY raised
  cause : Byte                         -- R574: START_CAUSE
  attempts : Nat                       -- R606: failed starts of step 0x1 or 0x4
  heldInReset : Bool                   -- R606: supervisor and host interfaces held in reset
  pgClk : Nat                          -- R605: moment of power-good
  startClk : Nat                       -- R574: moment from which UPTIME counts
  readyClk : Nat                       -- R617: moment step 0x6 ended
  resetPending : Option (Byte × Fin 8) -- R575: SYS_RESET completed, reset due at the next instant
  resetHold : Bool                     -- R703: node reset applied, step 0x2 not yet ended
  profileRecord : Option Bool          -- R614: confirmation record in flash
  patchRun : Option Patch              -- R577: running patch
  patchStaged : Option Patch           -- R577: staged patch
  patchActive : Bool                   -- R609: a patch runs
  nonce : Option (Nat × Nat)           -- R621: nonce number and the moment it was given
  nonceNext : Nat                      -- R621: nonces given since the start (the model's own)
  debugScope : Byte                    -- R619: scope unlocked, 0 locked
  extest : Bool                        -- R620
  tap : TapIr                          -- R619, R687: instruction of the test access port
  areas : BitVec 16                    -- R610: bit a: configuration area a has been written in flash
  perst : Bool                         -- R684: PERST_L low
  msixEnabled : Bool                   -- R538: MSI-X enabled
  msixMasked : BitVec 32               -- R538: vectors masked
  msixTable : Mem                      -- R521: MSI-X table, message addresses and data
  kilnWake : Option Byte               -- R644: a wake from Kiln is starting, its source bits
  deriving DecidableEq, Repr

/-- One mailbox (R545) with its doorbell register and lock (R546, R547). -/
structure Mailbox where
  opcode : BitVec 16
  tag : BitVec 16
  reqLen : BitVec 16
  status : BitVec 16
  rspLen : BitVec 16
  state : Byte
  srcIf : Byte
  detail : BitVec 32
  cmdSeq : BitVec 32
  elapsed : BitVec 32
  payload : Mem
  ring : Bool
  done : Bool
  refused : Bool
  irqEn : Bool
  vector : BitVec 5
  lock : Option (BitVec 12)
  ringClk : Nat
  deriving DecidableEq, Repr

/-- A queued command (R558) with what it needs to be completed. -/
structure Queued where
  mbx : Fin 8
  opcode : BitVec 16
  tag : BitVec 16
  cmdSeq : BitVec 32
  arg : Nat
  deriving DecidableEq, Repr

/-- Mailboxes, command queue, event queue and log (R545–R576, R585). -/
structure Cmd where
  mbx : List Mailbox
  nextSeq : BitVec 32                  -- R545: CMD_SEQ of the next accepted ring
  ctr : Ctrs                           -- R546: MBX_REFUSED, MBX_DISCARD
  queued : List Queued                 -- R559: at most 32
  mask : List (BitVec 16)              -- R568: event codes withheld from the queue
  evSeq : BitVec 32                    -- R585: EVQ_SEQ.NEXT
  ring : Tbl Event                     -- R565: event ring by index
  wr : BitVec 10                       -- R585: EVQ_WR
  rd : BitVec 10                       -- R585: EVQ_RD
  lost : Sat                           -- R585: EVQ_LOST
  lostMark : Bool                      -- R567: the next entry written carries LOST
  rdErr : Bool                         -- R585: RD_ERR
  evqVector : BitVec 5                 -- R585: EVQ_IRQ.VECTOR
  evqIrqEn : Bool                      -- R585
  evqHold : Byte                       -- R585: HOLD
  evqThresh : BitVec 10                -- R585: THRESH
  log : List Event                     -- R572: non-volatile log, oldest first, at most 4,096
  cycleEvents : List Event             -- R307: events of the cycle in progress
  deriving DecidableEq, Repr

/-! ## Trunk -/

/-- A hop-delay estimate and the measurement in progress (R79–R81). Ticks. -/
structure DelayEst where
  valid : Bool
  est : Int
  first : List Int
  rejects : Nat
  reqSeq : BitVec 16                   -- R79, R82: sequence of the last request; a marker carries its low 6 bits
  accSeq : BitVec 6                    -- R87: DLY_SEQ
  t1 : Option Int
  t2 : Option Int                      -- R82: the partner's receive time, from its response
  t4 : Option Int
  deriving DecidableEq, Repr

/-- A frame waiting in a trunk queue (R209). -/
structure QFrame where
  frame : OutFrame
  len : Nat
  deferred : Bool
  ctx : Option Nat
  urgent : Bool                        -- R116: leaves in the first idle time
  counted : Bool := false              -- R313: its send on this line is in SENT already
  deriving DecidableEq, Repr

/-- One trunk port (R67–R89, R95, R207–R213). -/
structure Port where
  st : PortSt
  mode : Mode
  partnerUid : BitVec 64               -- R68: recorded at entry to Up
  partner : Option Beacon              -- R95: latest beacon of the partner
  deltas : List Int                    -- R95: last 8 values of Δ, newest first
  passive : Bool                       -- R91: a PASSIVE beacon has arrived
  ttdp : Bool                          -- R152: the partner answers topology discovery without beacons
  okUid : BitVec 64                    -- R227: the partner from whom samples are taken
  strange : Bool                       -- R227: the partner named another identifier, no valid delay since
  delay : DelayEst
  calIn : List Int                     -- R84: fused ingress residuals by mode, 1/16 ns
  calOut : List Int                    -- R84: fused egress residuals by mode, 1/16 ns
  ctr : Ctrs                           -- R87: index n of bit 448 + n
  downCause : BitVec 4                 -- R87
  violations : Nat                     -- R54: code violations in Qualify
  lossClk : Option Nat                 -- R58: start of the loss in progress
  qualClk : Nat                        -- R48, R54, R67, R130: moment Train, Qualify or Negotiate began, or Up on a T1 port
  rideCounted : Bool                   -- R58: this loss has entered Resume
  t1Master : Bool                      -- R63
  swapClk : Nat                        -- R63: moment from which the 500 ms of the present role count
  trainPol : Nat                       -- R714: policy that governs the training in progress
  clause98 : Bool                      -- R48: native first has found no Ndoelle partner, the next energy negotiates
  partnerClk : Option Nat              -- R92: moment of the latest beacon of the partner
  energySeen : Bool                    -- R72: partner energy since the switch opened
  upInstants : Nat                     -- R72: instants since the port entered Up
  stable : Bool                        -- R129: the link reports stable
  stableClk : Nat                      -- R130: moment since which it does
  retrain : Bool                       -- R56: retrain queued
  dirSent : Bool                       -- R130: own directory sent across this new link
  reported : Bool                      -- R130: MERGE_REPORT sent for this link in this cycle (the model's own)
  queues : List (List QFrame)          -- R209: management, high, medium, low
  fifo : List TransitItem              -- R208: transit FIFO
  busyTill : Nat                       -- R208: moment the node's own frame in progress ends
  mgmtUsed : Nat                       -- R210: management bytes sent this cycle
  sporUsed : Nat                       -- R210: sporadic bytes sent this cycle
  deriving DecidableEq, Repr

/-- One bypass switch (R70–R76). -/
structure Bypass where
  closed : Bool                        -- R87: sensed position
  command : Option Bool                -- R76: commanded position awaiting its check, true close
  retried : Bool                       -- R76
  cmdClk : Nat                         -- R76: moment of the command or of its retry
  deriving DecidableEq, Repr

/-- A staggered bypass sequence (R71–R74): its sense and how far it has come. -/
structure BypassSeq where
  passive : Bool
  lineADone : Bool
  aClk : Nat
  deriving DecidableEq, Repr

/-- The trunk: ports, policies, switches (R42–R89). -/
structure Trunk where
  ports : List Port
  policy : List Nat                    -- R48: mode policy of direction 1, 2
  policyNext : List (Option Nat)       -- R86: policy queued until the next entry to Steep
  lineA : Bypass
  lineB : Bypass
  seq : Option BypassSeq               -- R74: sequence in progress
  byCommand : Bool                     -- R327: both switches stand closed by command
  passiveOn : Bool                     -- R96: the node announces that it goes passive
  passiveSent : Option Nat             -- R96: departure time, TX_TIME of the first PASSIVE beacon
  passivePorts : List Nat              -- R96: ports on which a PASSIVE beacon has gone out
  stopForward : Bool                   -- R120, R639: forwarding has stopped
  openAtStart : Bool                   -- R616: step 0x8 has to run the go-active sequence
  wtbEnd : Bool                        -- R65: end node on the wire train bus, otherwise intermediate
  wtbMaster : Bool                     -- R65: elected master by the standard's inauguration
  wtbLineB : Bool                      -- R65: the line the wire train bus trusts
  wtbTerm : Option (Fin 2)             -- R66: direction whose bus section the internal termination closes
  etherType : BitVec 16                -- R151: Padait control EtherType
  deriving DecidableEq, Repr

/-! ## Inauguration -/

/-- A prepared generation (R110–R113). -/
structure Prepared where
  dir : Directory
  hash : BitVec 32
  committed : Bool
  k : BitVec 32
  step : Int
  stepping : Bool
  whole : Bool                         -- the directory with this hash is held
  merge : Bool                         -- R131: a merge
  stableAt : Nat                       -- R134: moment at which its link reports stable, in own train time
  otherGen : BitVec 16                 -- R132: the partner group's generation when it was prepared
  floor : Nat                          -- R132: cycle opened by a removal of the partner group since, in the time that is kept
  base : Nat                           -- R132: cycle from which its k counts
  seen : Nat                           -- R134: cycle at whose opening a report of its link was last in hand
  joins : List JoinBody                -- R114: the JOINs that it takes in
  conf : List (Byte × BitVec 64)       -- R99: nodes this directory leaves unnumbered
  deriving DecidableEq, Repr

/-- A removal waiting for its switch (R117, R119): its BREAK and the count of instants still to pass. -/
structure Removal where
  brk : BreakBody
  reporter : BitVec 64                 -- the node that reports it
  wait : Nat
  deriving DecidableEq, Repr

/-- A trunk node as the walk of R97 sees it. -/
structure WalkNode where
  uid : BitVec 64
  vid : BitVec 48
  twinB : Bool
  dirToRef : Bool                      -- direction 2 faces the reference end
  deriving DecidableEq, Repr

/-- A legacy island at one end (R145–R149): the direction it lies on and its node addresses in order. -/
structure Island where
  uid : BitVec 64                      -- R145: the boundary node
  dir : Fin 2
  addrs : List Byte
  interior : Bool
  deriving DecidableEq, Repr

/-- Inauguration (R90–R157). -/
structure Ina where
  st : Inaug
  vid : BitVec 48                      -- R154
  twinB : Bool                         -- R154
  prio : Byte                          -- R154
  leading : Option (BitVec 48)         -- R106: stored command
  leadIssued : BitVec 48               -- R106: LEAD_VID in force when it was issued
  gen : BitVec 16                      -- R156: generation in force
  dir : Option Directory               -- R100: directory in force
  dirAge : Nat                         -- R124: macrocycles since the directory was received
  foreignDir : Option Directory        -- R130
  partial_ : List DirFrame             -- R100: directory frames of which the other half is missing
  prep : Option Prepared               -- R110
  additions : List JoinBody            -- R114: additions waiting
  leadNew : Option (BitVec 48)         -- R106: LEAD_SET identity not yet prepared
  mergeWait : Option MergeReport       -- R131: merge being prepared
  islandNew : Bool                     -- R149: an inauguration of an island has completed
  islandCheck : Bool                   -- R148: the known islands are to be held against the directory
  heldTt : Bool                        -- R200: a Backbone node that is Held
  fabricNew : List FabricReport        -- R510: reports that change a vehicle record
  fabricKnown : List FabricReport      -- R510: the report on which each vehicle's record rests
  removals : List Removal              -- R117
  brkSent : List BreakBody             -- R116: BREAKs repeated in each management slot
  addr : BitVec 10                     -- R156
  members : List WalkNode              -- R97: group's trunk nodes from the reference end
  joiners : List JoinBody              -- R142: JOINs heard in provisional cycles
  posMap : List Byte                   -- R143: 64 bytes
  oldGen : BitVec 16                   -- R143
  conflict : Option Byte               -- R99: cause for which this node stands unnumbered
  conflicts : List (Byte × BitVec 64)  -- R99: reported by this first node
  newest : BitVec 16                   -- R138: newest generation seen since power-on
  claimSeq : BitVec 16                 -- R138
  heardGens : List (BitVec 16)         -- R142: NEWEST_GEN values heard
  provQuiet : Nat                      -- R142: provisional cycles without a new JOIN
  removalFlag : Bool                   -- R107: this cycle's generation was entered by a removal
  proofs : Nat                         -- R125: proof cycles since entering steep
  sinceJoin : Nat                      -- R125: cycles since the last JOIN
  mismatchRaised : Bool                -- R127: raised on this entry to steep
  quietClk : Option Nat                -- R122, R138: moment from which the wait for an opening frame counts
  contendClk : Nat                     -- R139: moment Contend was entered
  leadNext : Bool                      -- R139: provisional lead at the next instant
  sinceLead : Nat                      -- R106: instants since the last LEAD_SET
  mismatch : Bool                      -- R127: schedule hash differs from a neighbour's
  islands : List Island                -- R145
  islandConflict : Bool                -- R147
  ttCounter : BitVec 32                -- R152
  ttPend : Option Ttdp                 -- R152: taken at the next instant
  ttRemote : List Bool                 -- R152, R153: by direction, a partner without beacons stands beyond
  switchedAt : Option Nat              -- R92: moment of this node's last switch
  lastRemoval : Option Nat             -- R132: cycle count opened by the last removal
  provJoin : Bool                      -- R142: a new JOIN came in this provisional cycle
  extra : List JoinBody                -- R97, R99: trunk nodes that have joined and stand unnumbered
  prevDir : Option Directory           -- R119: the directory in force before the last switch
  ctr : Ctrs                           -- R156: index n of bit 288 + n
  deriving DecidableEq, Repr

/-! ## Schedule -/

/-- One entry of the mash schedule (R193). -/
structure Entry where
  start : Nat
  len : Nat
  role : BitVec 16
  lines : Byte
  flags : Byte
  deriving DecidableEq, Repr

/-- A schedule image as parsed (R193–R195). -/
structure Image where
  cycleUs : Nat
  guardNs : Nat
  spanNs : Nat
  slotBegin : Nat
  mgmtBegin : Nat
  mgmtLen : Nat
  sporEnd : Nat
  releaseNs : Nat
  sporCredit : Nat
  mgmtCredit : Nat
  entries : List Entry
  variants : List (List Nat)
  seq : List Nat
  hash : BitVec 256
  deriving DecidableEq, Repr

/-- One line's wavefront state (R172, R177, R178). δ in 1/16 ns. -/
structure LinePath where
  delta : Nat
  valid : Bool
  rx : Option (Fin 4)                  -- R177: the receiving port, none at the reference-end node
  sinceOpen : Nat                      -- macrocycles since a valid opening frame on this line
  spanExceeded : Bool
  spanRaised : Bool
  copy : Option OpeningFrame           -- R169: this cycle's valid copy
  deriving DecidableEq, Repr

/-- The mash schedule and the backbone cycle (R158–R218). -/
structure Sched where
  running : Option Image
  stagedBytes : Mem
  stagedLen : Nat
  verified : Option Image              -- R199
  activated : Bool                     -- R201
  variant : Byte                       -- R216
  heldFlag : Bool                      -- R216: HELD
  noPoll : Bool                        -- R216
  holdAsked : Bool                     -- R200: SCHED_HELD queued for the next cycle opened
  release : Option Nat                 -- R202: instants left before the release
  afterRelease : Bool                  -- R203: the first opening frame after a release is awaited
  cycle : BitVec 32                    -- R28: cycle number of the last cycle opened
  a : LinePath
  b : LinePath
  openOk : Bool                        -- R171: a valid opening frame arrived in this cycle
  openClk : Nat                        -- R170: moment at which the first of them had arrived
  poll : List Bool                     -- R169
  pollVariant : Nat                    -- variant polled in this cycle
  badTags : Nat                        -- R168: consecutive cycles of wrong tags
  badTagNow : Bool                     -- R168: this cycle
  received : List Nat                  -- R187: polled entries received in this cycle
  suppressing : Bool                   -- R183: gate suppresses
  suppressedNow : Bool                 -- R183: in this cycle
  ctr : Ctrs                           -- R216: index n of bit 896 + n
  entryCtr : Tbl Ctrs                  -- R216: entry records
  deriving DecidableEq, Repr

/-! ## Time -/

/-- One PTP instance (R242–R245, R260). -/
structure PtpInst where
  role : Byte
  domain : BitVec 7
  prio1 : Byte
  prio2 : Byte
  logSync : Byte
  ports : BitVec 16
  state : Byte
  gm : PtpAnnounce
  offset : Int                         -- O_d in ticks
  rate : Int
  good : Nat                           -- Sync intervals with a small residual
  primed : Bool                        -- R245: O_d has been taken from a Sync
  locked : Bool
  lockClk : Nat
  portRoles : BitVec 32
  waiting : Option (Nat × BitVec 16 × Int) -- R242: a two-step Sync waits for its Follow_Up: port, number, pin time
  last : Option (Int × Int × Int)      -- R242: the Sync to relay: origin, correction with the link delay, pin time
  intervals : List Byte                -- R242: Sync interval a peer asked for, by consist port
  syncClk : List (Option Nat)          -- R242: moment of the last Sync, by consist port
  txSeq : BitVec 16                    -- R242: number of the last Sync sent
  ctr : Ctrs                           -- SYNC_RX, SYNC_TIMEOUT
  pending : Option (Byte × BitVec 7 × Byte × Byte × Byte × BitVec 16)
  deriving DecidableEq, Repr

/-- One captured edge (R255). -/
structure Capture where
  time : Nat
  rising : Bool
  holdover : Bool
  stepped : Bool
  deriving DecidableEq, Repr

/-- One timed I/O port (R251–R259). -/
structure Tio where
  armMode : BitVec 2                   -- R253: MODE, POL, EDGE, GATE and SVC as taken at ARM
  armPol : Bool
  armEdge : BitVec 2
  armGate : Bool
  armSvc : BitVec 4
  mode : BitVec 2
  pol : Bool
  edge : BitVec 2
  armed : Bool
  gate : Bool
  svc : BitVec 4
  startFrac : BitVec 16
  startNs : BitVec 30
  startSecLo : BitVec 32
  startSecHi : BitVec 16
  periodNs : BitVec 32
  periodFrac : BitVec 16
  width : BitVec 32
  active : Bool
  late : Bool
  gated : Bool
  stepped : Bool
  stepMark : Bool                      -- R256: the next capture carries STEPPED
  fifo : List Capture
  dropping : Bool                      -- R255: full since the last drop event
  lastEdge : Option Nat                -- R255: 100 ns spacing
  driven : Option Nat                  -- R256: last edge that has passed
  undriven : List (Nat × Nat)          -- R256: spans before it whose edges were not driven
  armStart : Nat                       -- R253: START as taken at ARM
  armPeriod : Nat
  armWidth : Nat
  armFirst : Nat                       -- R254: first pulse
  ctr : Ctrs                           -- SKIPPED, CAP_DROP
  deriving DecidableEq, Repr

/-- The time unit (R219–R263). -/
structure Time where
  st : TimeSt
  lineB : Bool                         -- R258: time line
  lineAGood : Nat                      -- R226: consecutive cycles with a valid sample on line A
  lineANow : Bool                      -- R226: line A gave a valid sample in this cycle
  lineBHeld : Option (Int × Nat)       -- R226: a sample of line B (θ, hops) that waits for one of line A in this cycle
  source : BitVec 2                    -- R258
  freq : Int                           -- R231: 0.01 ppb
  freqs : List Int                     -- R236: last 64 values
  slew : Int                           -- R231: ticks over the cycle
  slewNext : Int                       -- R231: the slew of the next cycle
  carry : Int                          -- R231: part of a tick by which the count is ahead, in 10^-17 (the model's own)
  theta : Int                          -- R258: last θ, ticks
  thetas : List Int                    -- R235: |θ| of the last 16 samples, ticks
  good : Nat                           -- R232: consecutive samples of at most 20 ns
  overs : Nat                          -- R234: consecutive samples above 1 µs while joined
  freqOver : Nat                       -- R234: consecutive samples with freq beyond 2 ppm
  sampled : Bool                       -- R231: a sample was taken in this cycle
  without : Nat                        -- R232: consecutive cycles without a sample
  holdClk : Nat                        -- R237: moment of the last sample
  holdEntry : Nat                      -- R258: moment Holdover was entered
  eps0 : Nat                           -- R237: bound at that sample, ns
  hops : Nat                           -- R235
  tcxo : Bool                          -- R234: TCXO running
  lastStep : Int                       -- R258: ticks
  stepGen : BitVec 16
  ctr : Ctrs                           -- R258: STEPS, HOLDOVERS, MISSED, LINE_SW
  rtcKept : Bool                       -- R262: PD0 counter kept powered
  ptp : List PtpInst
  links : List (Option Int)            -- R242: mean link delay by consist port, ticks, shared by both instances
  policy : Byte                        -- R246
  reaction : Byte                      -- R248
  bound : Nat                          -- R248: ns
  trunkDomain : BitVec 7               -- R229: domain number of the trunk time domain
  steer : Bool                         -- R249: TIME_STEER
  steering : Bool                      -- R258: STEER
  steerRate : Int                      -- R249: f_s, parts in 10^17
  selected : Fin 2                     -- R246
  oOut : Int                           -- R247: ticks
  slewing : Bool                       -- R247
  suspect : Bool                       -- R248
  excess : Nat                         -- R248
  clearClk : Nat                       -- R248
  diverged : Bool                      -- R249
  returning : Bool                     -- R246: domain 0 locked, 10 s running
  tio : List Tio
  deriving DecidableEq, Repr

/-! ## Process data -/

/-- A flow context record (R277). -/
structure FlowCtx where
  flowId : BitVec 16
  enable : Bool
  produce : Bool
  lines : BitVec 2
  fallback : Bool
  claim : Bool
  transport : BitVec 2
  svc : BitVec 4
  macsec : Bool
  entry : BitVec 12
  imgBlock : BitVec 10
  len : BitVec 11
  period : Byte
  freshLimit : Byte
  expectRole : BitVec 16
  safeIdx : BitVec 7
  safe : Bool
  safeSrcId : BitVec 32
  tmax : Byte
  seqWindow : Byte
  cat3 : Bool
  deriving DecidableEq, Repr

/-- Run-time state of a context (R718, R280–R297). -/
structure FlowRun where
  seq : BitVec 32
  fresh : BitVec 16
  age : Nat
  valid : Bool
  claim : Option (BitVec 32)           -- R289: highest claim seen
  keptSeq : Option (BitVec 32)         -- R283
  acceptedSince : Bool                 -- R283: accepted since VALID last cleared
  taken : Option (BitVec 16 × BitVec 32 × Bool × Bool × List Byte) -- value accepted this cycle: FRESH, CLAIM, line B, island, payload
  claimChanged : Bool
  safeState : Bool                     -- R296
  safeOk : Bool
  safeBase : Option (BitVec 32)        -- R294: last safe SEQ or the new base
  safeCount : Nat                      -- R296: safe-valid frames after the base
  safeSeen : Bool                      -- R295: a safe-valid frame since enabled
  sinceSafe : Nat                      -- R295: cycles since the last safe-valid frame
  safeNow : Bool                       -- R295: a safe-valid frame came in the cycle in progress
  seqUsed : Bool                       -- R280: a frame with the last SEQ has left
  lineB : Bool
  telegram : Option (List Byte)        -- R301
  ctr : Ctrs                           -- R313
  deriving DecidableEq, Repr

/-- A message being sent or received (R303). -/
structure Message where
  number : BitVec 4
  bytes : List Byte
  last : Bool
  acked : Nat                          -- segments acknowledged or received in order
  sent : Nat                           -- segments sent
  resends : List Nat                   -- retransmissions of each segment from `acked` on
  sentClk : Nat                        -- moment of the last send
  deriving DecidableEq, Repr

/-- One session (R303–R305). -/
structure Session where
  sid : BitVec 16
  opener : BitVec 64
  byIdentity : Bool
  slot : Byte
  addr : BitVec 10
  vid : BitVec 48
  peerUid : BitVec 64
  nextMsg : BitVec 4
  out : List Message
  inMsg : Option Message
  rxq : List Message
  deriving DecidableEq, Repr

/-- One cask (R308–R311). -/
structure Cask where
  offset : Nat
  length : Nat                         -- R311: its extent in the ring
  held : Nat                           -- R309: bytes of its records
  cycle : BitVec 32
  tag : BitVec 32
  postLeft : Nat
  order : Nat
  deriving DecidableEq, Repr

/-- The cask recorder (R307–R311). -/
structure Rec where
  ring : Mem                           -- 192 MiB ring
  wr : Nat                             -- write offset
  recs : List (Nat × Nat)              -- offset and length of the records in the ring, newest first
  casks : List (Option Cask)           -- 8 places
  nextOrder : Nat
  pre : Nat
  post : Nat
  oldest : Bool                        -- R309: release the oldest casks
  types : List (BitVec 16)
  bitmap : List Byte                   -- 128 bytes
  next : Option (Nat × Nat × Bool × List (BitVec 16) × List Byte)
  trigger : Option (BitVec 16 × BitVec 32) -- trigger of this cycle
  collecting : Option Nat              -- cask being collected
  page : Nat
  deriving DecidableEq, Repr

/-- The flow engine, image, sessions and recorder (R264–R315). -/
structure Flow where
  ctx : Tbl FlowCtx
  ctxNext : Tbl FlowCtx                -- R277: contexts written, in effect at the next instant
  run : Tbl FlowRun
  bank0 : Mem                          -- R264: produced bank 0
  bank1 : Mem
  outBank1 : Bool                      -- R590: OUT_BANK
  cons : Mem                           -- R264: consumed values shown
  nextOpen : Bool                      -- R268
  opening : Bool                       -- R269: the first instant after step 0x6 has passed
  heldWrites : List (Iface × Nat × List Byte) -- R269
  release : BitVec 5                   -- R590: PDI_RELEASE
  relMask : BitVec 5
  relMaskNext : Option (BitVec 5)
  relPend : Bool                       -- R590: a complete release awaits its instant
  relNow : Int                         -- R270: train time at which it became complete, as the count now stands
  relLate : Bool                       -- R272: it has counted as late
  deadline : Bool                      -- R270: the deadline of the next instant has passed
  overrunNow : Bool                    -- R274: the last instant had no effective release
  pubCycle : BitVec 32
  pdiCycle : BitVec 32
  ctr : Ctrs                           -- R590: OVERRUN, LATE_RELEASE, LATE_WRITE
  irqEn : Bool
  vector : BitVec 5
  key : Option (List Byte)             -- R299: connectivity association key
  epoch : BitVec 14                    -- R299
  keyGen : BitVec 16                   -- R299
  txPn : List (BitVec 32)              -- R298: next packet number per line
  rxPn : List (BitVec 64 × BitVec 32)  -- R298: last packet number per SCI
  islandOut : Mem                      -- R302: own wire-train-bus process data
  sessions : List Session
  nextSid : BitVec 16
  rec_ : Rec
  saved : Tbl FlowCtx                  -- R610: contexts in flash
  deriving DecidableEq, Repr

/-! ## Twins -/

/-- A racking generation being collected or sent (R340–R347). -/
structure RackGen where
  rgen : BitVec 32
  cycle : BitVec 32
  part : BitVec 32
  items : List RackItem
  parts : List (BitVec 32 × List RackItem) -- received: the items by PART, ascending (R345, R346)
  sent : Nat
  committed : Bool
  cyclesSince : Nat
  deriving DecidableEq, Repr

/-- Twins, claims, heartbeats and racking (R316–R356). -/
structure Twin where
  configured : Bool                    -- R319: twin service configured
  preferred : Bool
  regionOn : Bool
  regionPages : Nat
  regionOff : Nat
  heldOut : Bool
  role : Role
  partner : Option (BitVec 64)         -- R317
  hb : Option Heartbeat                -- latest partner heartbeat
  hbActive : Bool                      -- R320: a heartbeat of this cycle showed the partner Active
  hbOut : Bool                         -- R334: a heartbeat of this cycle showed Out of service
  hbReturning : Bool                   -- R350: a heartbeat showed the partner Returning
  joinedCycles : Nat                   -- R320: consecutive cycles since joining without the partner Active
  joinedBefore : Bool                  -- R320: was joined at the last instant
  own : BitVec 16                      -- R321: CLAIM_GEN
  seen : BitVec 16                     -- R323: SEEN_GEN
  limitRaised : Bool                   -- R326
  partnerClaim : BitVec 16             -- R323: partner's claim generation heard this cycle
  partnerPref : Bool
  higher : Bool                        -- R337: a higher claim was heard in this cycle
  twNow : Bool                         -- R328: heard in the cycle in progress
  trNow : Bool
  twHeard : Bool                       -- R354: heard in the closed cycle
  trHeard : Bool
  silent : Nat
  fresh : Nat                          -- R336: instants since this node became Active, stops at 2
  frameSince : Bool                    -- R338: a partner frame since takeover
  foreignStop : Bool                   -- R338: step down at the next instant
  outAt : Option Byte                  -- R351: leave for Out of service at the next instant, its cause
  outAfter : Bool                      -- R351: Out of service follows the switchover
  switching : Option (Option (BitVec 32)) -- R349: a switchover runs; its k once set
  switchSnap : Bool                    -- R349: the snapshot s is taken
  echoed : Bool                        -- R349: echo received (active) or SWITCH heard (standby)
  echoK : BitVec 32                    -- R349: k heard by the standby
  flowOut : Option RackGen             -- R341: flow generation in transfer
  flowRgen : BitVec 32
  flowCycle : BitVec 32
  regionOut : Option RackGen           -- R343: region generation in transfer or awaiting its report
  regionRgen : BitVec 32
  regionCycle : BitVec 32
  fullOut : Option RackGen             -- R350
  fullDone : Bool
  dirty : List Nat                     -- R342: dirty pages, ascending
  pool : Nat                           -- R344: pages held in the copy pool
  behind : Bool                        -- R343: in a run of deferrals
  inFlow : Option RackGen              -- R347: collected generations
  inRegion : Option RackGen
  inFull : Option RackGen
  applied : Option (BitVec 32 × List RackItem) -- racked flow state: snapshot cycle and items
  staging : Option RackGen             -- R347: region pages awaiting their copy
  appliedRegion : Option (BitVec 32)
  fullApplied : Bool                   -- R350
  flowAfterFull : Bool
  regionValid : Bool
  recAgain : Bool                      -- R317: the record was cleared at a switch since joining
  returnAt : Bool                      -- R351: TWIN_SERVICE return, in effect at the next instant
  waiting : List (Nat × Nat × List Byte) -- R344: writes that wait for the copy pool: page, place in it, bytes
  fullRgen : BitVec 32                 -- R345: number of the last full-region generation
  gates : BitVec 16                    -- R424: classes whose claim gate is open in this cycle
  canStop : Bool                       -- R338: claim-gated transmission stopped at once on every channel
  flowAge : BitVec 16                  -- R354
  regionAge : BitVec 16
  ctr : Ctrs                           -- R354: index n of bit 512 + n
  deriving DecidableEq, Repr

/-! ## Lock-step cluster -/

/-- States of a logical pair (R392). -/
inductive PairSt where
  | held
  | locked
  | split
  | debugSplit
  | fenced
  deriving DecidableEq, Repr

/-- Kinds of hand-over (R393). -/
inductive HandKind where
  | split
  | rejoin
  | subst
  | restart
  deriving DecidableEq, Repr

/-- Configuration of a logical pair (R391). -/
structure PairCfg where
  reaction : Nat
  classes : BitVec 16
  priv : Nat × Nat
  shared : Nat × Nat
  splitWin : Nat × Nat
  vector : BitVec 64
  deriving DecidableEq, Repr

/-- What a held transaction goes to (R368): a directly mapped block, the work area of DRAM, another pair or the supervisor
as an interrupt, or the switch core as a frame (R36); an atomic operation reads where it writes. -/
inductive HeldKind where
  | block
  | memory
  | atomicBlock
  | atomicMemory
  | interrupt
  | frame (f : EthFrame)
  deriving DecidableEq, Repr

/-- A transaction in an output hold buffer (R368): the window in which it was issued, what it goes to, its address there, its
length and, for a write, its data. -/
structure HeldAccess where
  window : BitVec 64
  kind : HeldKind
  addr : Nat
  len : Nat
  wdata : Option (List Byte)
  deriving DecidableEq, Repr

/-- The two cores of a pair and what stands between them and the outside (R360–R364): the leading and the trailing core, the
delay registers, oldest first, the signature registers, the leading core's window and its cycle in it, the signatures of the
windows closed last, and what the sampler has still to pass. -/
structure Cores where
  lead : CoreState
  trail : CoreState
  delay : List CoreInput
  sigLead : BitVec 64
  sigTrail : BitVec 64
  win : BitVec 64
  cyc : Nat
  doneLead : Option (BitVec 64)        -- of window `win` - 1
  doneTrail : Option (BitVec 64)
  reads : List ReadIn                  -- R40, R368: read data that has come, oldest first
  instantIrq : Bool                    -- R361: the registration-instant interrupt waits for the sampler
  pend : BitVec 5                      -- R381: interrupts that came to the halted pair: queue, timed I/O, CAN, host, timer
  faults : List (BitVec 64)            -- R359: addresses of access faults for the sampler, oldest first
  readsT : List ReadIn                 -- R382: the same for core T's sampler path of a split pair
  instantT : Bool
  faultsT : List (BitVec 64)
  deriving DecidableEq, Repr

/-- One logical pair (R357–R393). -/
structure Pair where
  cfg : PairCfg
  configured : Bool
  st : PairSt
  phys : Option (Fin 5)
  dbg : Bool
  lastCause : BitVec 4
  onFence : Nat                        -- R375: the reaction that applied when the pair was fenced
  ready : BitVec 16                    -- R392: reinstated classes
  readySet : BitVec 16                 -- R373: READY written, in effect at the next instant
  withdraw : Bool                      -- R372: classes withdrawn at the next instant
  hok : List Bool                      -- R373: per core
  rejoinRdy : List Bool                -- R373: per core
  wfi : List Bool                      -- R384: the core of a split pair waits in WFI
  entry : BitVec 4                     -- R373
  cores : Cores
  window : BitVec 64                   -- R392: the last window compared clean
  windowCode : Option Bool             -- R365: last complementary value
  held : List HeldAccess               -- R368, R369: output hold buffer, oldest first
  stopped : List Bool                  -- R380: core stopped
  pendHand : Option HandKind
  halted : Bool                        -- R381, R387: halted at a hand-over point or by debug access
  handCycles : Nat                     -- R385
  handFound : Bool                     -- R385: hand-over point in this cycle
  substTo : Option (Fin 5)
  resetAsk : Option Bool               -- R389: reset at the next instant, true hold
  resetMbx : List (Fin 8)              -- R389: mailboxes whose LSK_PAIR_RESET completes with it
  debugSplitAt : Bool                  -- R387
  ctr : Ctrs                           -- R392: index n of bit 416 + n
  deriving DecidableEq, Repr

/-- The cluster (R357, R392). -/
structure Lsk where
  pairs : List Pair
  spare : Option (Fin 5)
  spareReady : Bool
  saved : List (Option PairCfg)        -- flash
  work : Mem                           -- R359: firmware work area of DRAM
  deriving DecidableEq, Repr

end Sys2Proof.Machine
end

