-- ==== Sys2Proof/Machine/Records2.lean ====
section
/-! DEFINITION. The records of the vehicle networks, the fabric, the bridge, the supply and self-repair, of which
`State` is made: plain data. Each field's line gives the rule of spec/ that names it. -/

namespace Sys2Proof.Machine

/-! ## CAN -/

/-- An acceptance filter (R446). -/
structure CanFilter where
  fid : BitVec 29
  ide : Bool
  en : Bool
  mask : BitVec 29
  kind : BitVec 2
  index : BitVec 7
  hits : Sat
  deriving DecidableEq, Repr

/-- A message object or high-priority buffer (R445). `link` is word 2. -/
structure CanObj where
  id : BitVec 29
  ide : Bool
  rtr : Bool
  dlc : BitVec 4
  fdf : Bool
  brs : Bool
  esi : Bool
  tx : Bool                            -- DIR
  en : Bool
  claim : Bool
  svc : BitVec 4
  link : BitVec 2
  filter : BitVec 6
  new : Bool
  lost : Bool
  cancelled : Bool
  tooLate : Bool
  limit : Bool
  withheld : Bool
  linkFlow : BitVec 9
  linkOff : BitVec 11
  vector : Byte
  dest : BitVec 3
  ts : BitVec 30
  data : List Byte
  deriving DecidableEq, Repr

/-- A hatch-matrix cell (R446). -/
structure CanCell where
  index : BitVec 7
  hpb : Bool
  kind : BitVec 2
  deriving DecidableEq, Repr

/-- A hatch matrix with its control fields (R435–R443). Cells by 64 × row + column. -/
structure CanMatrix where
  role : BitVec 2
  rowsLog2 : BitVec 3
  cols : BitVec 7
  bcMacro : BitVec 4                   -- BC_MACRO − 1
  refSvc : BitVec 4
  refClaim : Bool
  refId : BitVec 29
  refIde : Bool
  starts : Tbl (BitVec 32)
  wins : Tbl (BitVec 5)
  cells : Tbl CanCell
  deriving DecidableEq, Repr

/-- Error states (R444). -/
inductive EState where
  | active
  | passive
  | busOff
  deriving DecidableEq, Repr

/-- A slot with its pending request (R417–R432). -/
structure CanReq where
  slot : CanSlot
  unacks : Nat                         -- R432: consecutive acknowledgement errors
  deriving DecidableEq, Repr

/-- What a channel is sending (R419, R428, R436). -/
inductive CanTx where
  | none
  | slot (s : CanSlot) (tooLate : Bool) (noRetry : Bool) (exclusive : Bool)
  | reference (row : Nat)
  deriving DecidableEq, Repr

/-- What CAN_SAVE stores of one channel (R447): control registers, filters, transmit objects and buffers, and the
active matrix. -/
structure CanSaved where
  ctrl : BitVec 32
  nbt : BitVec 32
  dbt : BitVec 32
  tdco : BitVec 7
  unackN : Byte
  fifoBase : BitVec 7
  fifoDepth : BitVec 7
  irqEn : BitVec 12
  irqVector : Byte
  irqDest : BitVec 3
  filters : Tbl CanFilter
  objs : Tbl CanObj
  hpbs : Tbl CanObj
  matrix : CanMatrix
  deriving DecidableEq, Repr

/-- One CAN FD channel (R394–R451). -/
structure Can where
  ctrl : BitVec 32                     -- R444: CAN_CTRL
  nbt : BitVec 32
  dbt : BitVec 32
  tdco : BitVec 7
  tdcv : BitVec 7
  modeAct : BitVec 3
  modeNext : Option (BitVec 3)         -- R409: change waiting for the end of a frame
  integrating : Bool                   -- R408
  est : EState
  act : BitVec 2
  lec : BitVec 3
  dlec : BitVec 3
  foreign : Bool
  recovPend : Bool
  recovering : Bool                    -- R433
  cfgErr : Bool
  tec : Nat
  recc : Nat
  rp : Bool
  recovCnt : Nat
  unackN : Byte
  fifoBase : BitVec 7
  fifoDepth : BitVec 7
  fifoHead : BitVec 7
  fifoLevel : BitVec 7
  irqStat : BitVec 12
  irqEn : BitVec 12
  irqVector : Byte
  irqDest : BitVec 3
  pending : List CanReq
  done : BitVec 128                    -- CAN_TXDONE
  hpbDone : Byte
  tx : CanTx
  objs : Tbl CanObj                    -- unlisted: all zero
  hpbs : Tbl CanObj                    -- unlisted: all zero but DEST 0b111
  filters : Tbl CanFilter
  shadow : CanMatrix
  active : CanMatrix
  commit : BitVec 32                   -- CAN_TT_COMMIT
  commitPend : Bool
  commitLate : Bool
  running : Bool
  slaveAct : Bool
  row : Nat
  col : Nat
  bcClk : Nat                          -- start of the basic cycle in progress, train time
  refDue : Bool                        -- R436: the reference is not yet sent or abandoned
  refWait : Bool                       -- R436: it has not started yet
  sofNs : BitVec 30                    -- R416: start-of-frame of the frame being sent
  lastRefClk : Nat                     -- R438
  refSpan : Bool                       -- R438: no windows until the next reference
  window : Option (Nat × Bool)         -- open window: column, handed over
  rxCheck : List (Nat × Nat)           -- R439: receive checks open: object, column
  deadCols : List Nat                  -- R443: columns out of use
  shadows : List (Iface × CanSlot × List Byte) -- R415
  rxSet : List Nat                     -- R422: objects with NEW set since the previous deadline
  ctr : Ctrs                           -- R444: index n at 0x0A0 + 4 n
  flash : Option CanSaved
  deriving DecidableEq, Repr

/-! ## Multifunction vehicle bus -/

/-- A poll table (R458). -/
structure PollTable where
  bp2 : Bool                           -- basic period 2000 µs
  sporUs : Nat
  entries : List (BitVec 32)
  scan : List (BitVec 16)
  deriving DecidableEq, Repr

/-- A port record with its value (R462–R466). -/
structure MvbPort where
  fcode : Nat
  dir : Nat                            -- 0 unused, 1 source, 2 sink
  claim : Bool
  svc : BitVec 4
  linked : Bool
  flow : Nat
  off : Nat
  data : List Byte                     -- value sent, or last value taken
  next : Option (List Byte)            -- MVB_PORT_WRITE, sent from the next instant
  age : Nat
  held : Bool                          -- value held
  lineB : Bool
  taken : Bool                         -- R464: taken since the previous deadline
  deriving DecidableEq, Repr

/-- One line's quality (R468). -/
structure MvbLineSt where
  faulty : Bool
  bad : Nat
  good : Nat
  deriving DecidableEq, Repr

/-- A segment's configuration (R453). -/
structure MvbCfg where
  role : Nat
  admClaim : Bool
  admSvc : BitVec 4
  device : BitVec 12
  deriving DecidableEq, Repr

/-- One segment (R452–R471). -/
structure Mvb where
  cfg : MvbCfg
  cfgNext : Option MvbCfg
  roleAct : BitVec 2                   -- R493
  staged : Mem
  stagedLen : Nat
  commit : Option (PollTable × BitVec 32 × Bool) -- R461: table, C, late
  table : Option PollTable
  ports : Tbl MvbPort
  portsNext : Tbl MvbPort              -- R462: records in effect at the next instant
  polls : List (BitVec 32)             -- entries still to poll in this basic period
  scanNext : Nat                       -- R459: next scan-list item
  scanDue : Bool
  inPeriod : Bool
  master : Option (BitVec 4 × BitVec 12) -- master frame awaiting its slave frame
  known : List (BitVec 12)             -- R459
  lineA : MvbLineSt
  lineB : MvbLineSt
  ctr : Ctrs                           -- R493: index n of bit 224 + n
  flash : Option (MvbCfg × Option PollTable) -- R610 area 0x0A
  deriving DecidableEq, Repr

/-! ## Consist switch -/

/-- A consist port's configuration (R491). -/
structure SwcCfg where
  mode : Nat
  t1Master : Bool
  macsec : Bool
  gates : Bool
  replay : Byte
  pvid : BitVec 12
  accept : Nat
  ksPrio : Byte
  deriving DecidableEq, Repr

/-- A gate control list (R477): cycle time and entries of gate states and interval. -/
structure Gcl where
  ct : Nat
  entries : List (Byte × Nat)
  deriving DecidableEq, Repr

/-- A frame waiting in an egress queue. -/
structure EgFrame where
  frame : EthFrame
  rtag : Option (BitVec 16)
  stream : Option (Fin 256)
  bank : Nat
  cells : Nat
  deriving DecidableEq, Repr

/-- One port of the switch core (R472–R494). -/
structure SwPort where
  cfg : SwcCfg
  cfgNext : Option SwcCfg
  link : Bool
  speed : BitVec 2
  calIn : List Int                     -- R224: fused ingress residuals by speed, 1/16 ns
  calOut : List Int                    -- R224: fused egress residuals by speed, 1/16 ns
  t1Master : Bool
  secured : Bool
  key : Option (List Byte × List Byte) -- CAK, CKN
  sak : Option (BitVec 32)             -- SAK number in use
  live : Bool                          -- live MACsec peer
  liveClk : Nat                        -- R490: moment of its last MKPDU
  server : Bool                        -- key server elected
  gcl : Option Gcl
  staged : Option Gcl
  commit : Option (BitVec 32 × Bool)
  queues : List (List EgFrame)
  ctr : Ctrs                           -- R493: index n of bit 352 + n
  deriving DecidableEq, Repr

/-- A stream record (R492) with its run-time state (R482, R485). -/
structure Stream where
  mac : BitVec 48
  vid : BitVec 12
  bySource : Bool
  en : Bool
  maxSdu : Nat
  cbs : Nat
  cir : Nat
  eir : Nat
  ebs : Nat
  coupling : Bool
  dropYellow : Bool
  blockOversize : Bool
  claim : Bool
  svc : BitVec 4
  frer : BitVec 2
  history : Nat
  resetMs : Nat
  ports : BitVec 16
  blocked : Bool
  cTok : Nat                           -- committed tokens, bits × 10^12 scaled
  eTok : Nat
  tokClk : Nat
  genSeq : BitVec 16
  recSeq : Option (BitVec 16)
  recHist : List Bool
  recClk : Nat                         -- R485: when recovery last accepted a frame
  ctr : Ctrs                           -- R493: index n of bit 384 + n
  deriving DecidableEq, Repr

/-- A packet-buffer bank (R487, R659). -/
structure Bank where
  inUse : Bool
  draining : Bool
  drainClk : Nat                       -- R659: since when it takes no more cells
  retired : Bool
  corr : List Nat                      -- moments of corrected errors within 1 h
  deriving DecidableEq, Repr

/-- The switch configuration that SWC_SAVE stores (R491). -/
structure SwcSaved where
  ports : List SwcCfg
  vlans : Tbl (BitVec 32 × BitVec 32)
  statics : List (BitVec 48 × BitVec 12 × Nat)
  streams : Tbl Stream
  gcls : List (Option Gcl)
  deriving DecidableEq, Repr

/-- The consist switch (R472–R495). -/
structure Swc where
  ports : List SwPort
  vlans : Tbl (BitVec 32 × BitVec 32)  -- member and untagged masks
  addrs : List (BitVec 48 × BitVec 12 × Nat × Bool × Nat) -- MAC, VID, port, static, moment last seen
  streams : Tbl Stream
  banks : List Bank
  sakNext : BitVec 32                  -- the model's own SAK number
  saved : Option SwcSaved
  deriving DecidableEq, Repr

/-! ## Fabric -/

/-- Spare lane states (R542). -/
inductive LaneSt where
  | good
  | suspect
  | retired
  deriving DecidableEq, Repr

/-- Fabric link states (R542). -/
inductive FabSt where
  | disabled
  | training
  | up
  | boundary
  deriving DecidableEq, Repr

/-- One fabric link (R496–R503, R542). -/
structure FabLink where
  st : FabSt
  lane : Fin 2
  spare : LaneSt
  delays : List DelayEst               -- per lane
  partnerSlot : Byte
  partnerUid : BitVec 64
  partner : Option FabricBeacon
  txSeq : BitVec 16
  rxSeq : BitVec 16
  replay : List (FabricFrame × Nat)    -- R498: unacknowledged frames with the moment each was sent
  switches : List (Fin 2 × Nat)        -- R502: lane at fault and moment
  spareClk : Nat                       -- R500: since when the spare lane has shown no fault
  beaconTx : Bool                      -- R499: a beacon has been sent since training
  beaconRx : Bool                      -- R499: a beacon has arrived since training
  ctr : Ctrs                           -- R542: index n of bit 320 + n
  deriving DecidableEq, Repr

/-- The fabric as a whole (R504–R519). -/
structure Fab where
  attached : Bool
  mask : BitVec 4
  allow : BitVec 16
  reqTmo : Nat                         -- ms
  semTmo : Nat                         -- ms
  links : List FabLink
  slots : List (BitVec 64)             -- R507: UID of slots 2–15, 0 free
  heard : Option (List (BitVec 64))    -- R508: table last heard
  assign : List (BitVec 64)            -- R507: UIDs awaiting their slot
  mySlot : Byte                        -- 0xFF unassigned
  costs : List Nat                     -- R512: 64 entries, 4 × d + i
  reach : List Nat                     -- R510: cycles each slot 2–15 has been unreachable
  cut : BitVec 16                      -- R510: slots unreachable at some time in the cycle in progress
  joins : List JoinBody                -- JOINs of fabric nodes
  lastReport : Option FabricReport     -- R510
  sinceReport : Nat
  noSlot : List (BitVec 64)            -- UIDs for which FAB_CONFLICT cause 2 was raised
  proxy : List (Fin 16 × Nat × Nat × FlowFrame) -- R517: proxy buffer: slot, entry, moment of arrival
  subs : List (Fin 16 × List (BitVec 16)) -- R518
  sinceSub : Nat
  subSent : Option (List (BitVec 16))  -- R518: flows last subscribed to since joining
  tickSent : Bool                      -- R514: this cycle's tick has left
  srcB : Bool                          -- R515: tick source is twin B
  srcAGood : Nat                       -- R515: consecutive cycles with a valid tick of the preferred twin
  tickPref : Bool                      -- R515: the preferred twin gave a valid tick in this cycle
  ticks : List (Bool × Nat)            -- R514: the last tick taken in from each twin: twin B, its TIME
  tickEps : Nat
  tickHops : Nat
  deriving DecidableEq, Repr

/-- A remote window (R526). -/
structure Window where
  mode : Nat
  addr : BitVec 10
  vid : BitVec 48
  slot : Byte
  base : BitVec 32
  rd : Bool
  wr : Bool
  guard_ : Option (Fin 32)
  deriving DecidableEq, Repr

/-- An outbound transfer (R529–R534): its frame, its window and how that was set when the transfer began, who asked, its
target, how often and when it was sent, and whether it was answered BUSY. -/
structure Outbound where
  frame : BridgeFrame
  window : Option (Fin 8)
  through : Window
  src : Iface
  target : BitVec 10
  targetUid : BitVec 64
  sends : Nat
  startClk : Nat
  sentClk : Nat
  busy : Bool
  deriving DecidableEq, Repr

/-- A bridge semaphore (R535): owner tag, the owner, the vehicle it is numbered in, and the moment it was taken. -/
structure Sem where
  owner : BitVec 12
  ownerUid : BitVec 64
  ownerVid : Option (BitVec 48)
  clk : Nat
  deriving DecidableEq, Repr

/-- A posted-write failure entry (R537). -/
structure PwEntry where
  time : Nat
  addr : BitVec 32
  target : BitVec 64
  node : BitVec 10
  error : Byte
  window : Byte
  iface : Byte
  len : Nat
  deriving DecidableEq, Repr

/-- The host bridge (R520–R544). -/
structure Bridge where
  windows : List Window
  out : Option Outbound                -- R530: the engine's outbound transfer
  posted : List Outbound               -- R532: posted writes awaiting their response
  waiting : List Outbound              -- accesses waiting for the engine
  inq : List (BridgeFrame × Nat × Bool) -- R530: at most 16, each with its moment of arrival, and an uncorrectable error met
  store : List (BitVec 64 × BitVec 16 × BridgeFrame) -- R529: last 32 responses per initiator
  nextTag : BitVec 16
  fetch : Option (Nat × Nat × Option (List Byte)) -- R531: local-bus fetch: address, length, data
  fetchClk : Nat
  sems : List (Option Sem)
  pwlog : List PwEntry                 -- oldest first, at most 64
  vecPend : BitVec 32
  vecPin : List (BitVec 32)
  rdErr : Byte
  rdErrWin : BitVec 3
  lbPage : BitVec 6
  lbHigh : Option (Nat × BitVec 16)    -- R523: latched high half and its register
  lbLow : Option (Nat × BitVec 16)     -- R523: held low half and its register
  lock : Option (Fin 8 × Bool)         -- R536: locked sequence: window, semaphore held
  ctr : Ctrs                           -- R541: READ_FAIL PW_FAIL PW_LOST RD_STALE PROXY_LATE SPI_REFUSED
  deriving DecidableEq, Repr

/-- Area 0x01 as put aside (R610). -/
structure KeptIdentity where
  vid : BitVec 48
  twinB : Bool
  prio : Byte
  leading : Option (BitVec 48)
  leadIssued : BitVec 48
  deriving DecidableEq, Repr

/-- Area 0x03 as put aside. -/
structure KeptTwin where
  configured : Bool
  preferred : Bool
  regionOn : Bool
  regionPages : Nat
  regionOff : Nat
  heldOut : Bool
  deriving DecidableEq, Repr

/-- Area 0x04 as put aside. -/
structure KeptFab where
  attached : Bool
  mask : BitVec 4
  allow : BitVec 16
  reqTmo : Nat
  semTmo : Nat
  slots : List (BitVec 64)
  windows : List Window
  deriving DecidableEq, Repr

/-- Area 0x05 as put aside. -/
structure KeptSched where
  running : Option Image
  stagedBytes : Mem
  stagedLen : Nat
  verified : Option Image
  deriving DecidableEq, Repr

/-- A PTP instance's configuration as put aside. -/
structure KeptInst where
  role : Byte
  domain : BitVec 7
  prio1 : Byte
  prio2 : Byte
  logSync : Byte
  ports : BitVec 16
  deriving DecidableEq, Repr

/-- Area 0x07 as put aside. -/
structure KeptPtp where
  insts : List KeptInst
  policy : Byte
  reaction : Byte
  bound : Nat
  steer : Bool
  deriving DecidableEq, Repr

/-- Configuration that flash still holds while the node runs on the default of its area, after a maintenance start or a
failed CRC (R611, R613): areas 0x01–0x05 and 0x07, and the MACsec key of area 0x06. -/
structure Shelf where
  identity : Option KeptIdentity
  policy : Option (List Nat)
  twin : Option KeptTwin
  fab : Option KeptFab
  sched : Option KeptSched
  key : Option (List Byte)
  ptp : Option KeptPtp
  deriving DecidableEq, Repr

/-! ## Supply and power -/

/-- Supply states (R625). -/
inductive Supply where
  | normal
  | riding
  | below
  | loss
  deriving DecidableEq, Repr

/-- Domain states (R632). -/
inductive DomSt where
  | run
  | doze
  | nap
  | off
  deriving DecidableEq, Repr

/-- Whole-device states (R632). -/
inductive DevSt where
  | unpowered
  | run
  | park
  | kiln
  deriving DecidableEq, Repr

/-- Supply, power and thermal state (R623–R650). -/
structure Pwr where
  dev : DevSt
  supply : Supply
  storeOk : Bool
  storeDegraded : Bool
  storeCap : BitVec 16
  vin : Nat                            -- 10 mV
  pin : Nat                            -- 10 mW
  vstore : Nat                         -- 10 mV
  case_ : Int                          -- 0.1 °C
  die : Int
  throttled : Bool
  throttleNow : Bool                   -- R646: in effect from the next instant
  lastWake : BitVec 5
  doms : List DomSt                    -- PD0–PD11
  idle : List Bool
  deepest : List Nat                   -- R647: configured, 0 run 1 doze 2 nap
  deepestNext : List (Option Nat)
  nextAt : List (Option Nat)           -- R634: moment of each domain's next known event, as last given
  pend : Option (Bool × BitVec 32 × Bool) -- R638: Kiln, C, late
  wakePark : BitVec 5
  wakeKiln : BitVec 5
  alarm : Nat
  wakeBits : BitVec 5                  -- source of the wake in progress
  shutdown : Bool                      -- R628: shutdown in progress
  ctr : Ctrs                           -- R648: index n of bit 256 + n
  flash : Option (List Nat × BitVec 5 × BitVec 5 × Nat)
  deriving DecidableEq, Repr

/-! ## Self-repair -/

/-- A repair history entry (R669). -/
structure RepEntry where
  time : Nat
  cls : Byte
  unsure : Bool
  atStart : Bool
  loc : BitVec 32
  left : BitVec 16
  deriving DecidableEq, Repr

/-- Self-repair (R651–R672). -/
structure Rep where
  rows : BitVec 16
  cols : BitVec 16
  pages : BitVec 11
  lanes : BitVec 3
  banks : BitVec 2
  pair : Bool
  rowsUsed : Tbl Nat                   -- spare rows used by macro
  colsUsed : Tbl Nat
  full : BitVec 16                     -- REP_SRAM_FULL
  errs : List (MemPlace × Nat × Bool)  -- locations with errors, moment, uncorrectable
  failing : List MemPlace              -- rows, columns, pages awaiting repair
  pendingCache : List MemPlace         -- R654: cache repairs held for a self-test
  repaired : List MemPlace
  ways : List MemPlace                 -- R655: ways disabled
  retiredPages : List (BitVec 16)
  step : BitVec 4
  stepNext : Option (BitVec 4)
  rotHours : Nat
  rotDueClk : Nat
  rotRun : Option (Fin 5)              -- R662: freed pair of the step in progress
  rotStopped : Bool
  rotPick : Option (Fin 5)             -- R667: pair requested by REP_TEST
  testing : Option (Fin 5)
  testClk : List (Option Nat)          -- moment of the last passed self-test by pair
  fenceClk : List (Option Nat)         -- R663: moment of the last fence by pair
  fenced : BitVec 5                    -- R663: fenced and not tested since
  refenced : BitVec 5                  -- R663: fenced twice within 24 h
  retired : BitVec 5
  hist : List RepEntry                 -- oldest first, at most 1,024
  reqs : List (Fin 8 × BitVec 32)      -- R667: pending kinds with CMD_SEQ: 0–3 REP_TEST, 4–6 REP_CALIBRATE
  rotDeferred : Bool                   -- R662: the step that is due has been deferred
  ctr : Ctrs                           -- R670: index n of bit 416 + n
  deriving DecidableEq, Repr

end Sys2Proof.Machine
end

