-- ==== Sys2Proof/Machine/State.lean ====
section
/-! DEFINITION. The state of the node: its reasons to stop, `State`, and `State.reset`, the node as power-on reset
leaves it, before the converter declares its rails good (the first command of a life is POWER_GOOD). -/

namespace Sys2Proof.Machine

/-- Faults. There is none: the spec gives every command of the table an effect (an access outside every block reads 0
and is discarded, R581, R713), so no meaning of this model stops. Safe: nothing is proved from a stop. -/
inductive Fault where
  deriving DecidableEq, Repr

/-- Refusals: only the rejection by name of a command whose meaning is not written yet. -/
inductive Refusal where
  /-- Raised by an arm of `exec` that has no meaning yet. Safe: the model stops where the node goes on. -/
  | notModelled (mnemonic : String)
  deriving DecidableEq, Repr

/-- The state of the node. -/
structure State where
  pending : List Instr                 -- the commands waiting, first in, first out
  now : Nat                            -- R219: train time, in ticks of 1/65,536 ns
  clk : Nat                            -- time passed on the node's own count, never stepped (the model's own)
  free : Nat                           -- how many free values have been used (the model's own)
  emit : List Emission                 -- what the node sent, drove or answered in the last command (the model's own)
  sys : Sys
  cmd : Cmd
  trunk : Trunk
  ina : Ina
  sched : Sched
  time : Time
  flow : Flow
  twin : Twin
  lsk : Lsk
  can : List Can
  mvb : List Mvb
  swc : Swc
  fab : Fab
  bridge : Bridge
  pwr : Pwr
  rep : Rep
  shelf : Shelf                        -- R611, R613: flash content whose area stands at its default
  shadows : List (Iface × Nat × List Byte) -- R11–R13: latched bytes of a multi-register value, by party and base
  summaries : List (List Byte)         -- R597: the five snapshots LSK, PWR, REP, TWN, TOP
  summariesNew : List (List Byte)      -- R597: the snapshots being refreshed
  summariesAt : Nat                    -- R597: moment at which their refresh is complete
  deriving DecidableEq, Repr

/-! ## Values after power-on reset -/

/-- A counter at 0. -/
def Sat.zero : Sat := { n := 0, ovf := false }

/-- `k` counters at 0. -/
def Ctrs.zero (k : Nat) : Ctrs := List.replicate k Sat.zero

/-- R574, R604, R605: before power-good. The identity is the manual's printed example (DESIGN CHOICE, log 2). -/
def Sys.reset : Sys where
  uid := 0x5A3C0019E7F244B0
  ordering := [0x50, 0x44, 0x54, 0x2D, 0x34, 0x38, 0x39, 0x36, 0x2D, 0x45, 0, 0, 0, 0, 0, 0]
  revision := 0x3142
  dateYear := 24
  dateWeek := 47
  romMinor := 0
  powered := false
  native := false
  maint := false
  step := 0
  step4Done := false
  step5Done := false
  ready := false
  cause := 0
  attempts := 0
  heldInReset := false
  pgClk := 0
  startClk := 0
  readyClk := 0
  resetPending := none
  resetHold := false
  profileRecord := none
  patchRun := none
  patchStaged := none
  patchActive := false
  nonce := none
  nonceNext := 0
  debugScope := 0
  extest := false
  tap := .idcode
  areas := 0
  perst := false
  msixEnabled := false
  msixMasked := 0xFFFFFFFF
  msixTable := []
  kilnWake := none

/-- R545, R546: a mailbox free and cleared. -/
def Mailbox.reset : Mailbox where
  opcode := 0
  tag := 0
  reqLen := 0
  status := 0
  rspLen := 0
  state := 0
  srcIf := 0
  detail := 0
  cmdSeq := 0
  elapsed := 0
  payload := []
  ring := false
  done := false
  refused := false
  irqEn := false
  vector := 0
  lock := none
  ringClk := 0

/-- R576, R585. -/
def Cmd.reset : Cmd where
  mbx := List.replicate 8 Mailbox.reset
  nextSeq := 0
  ctr := Ctrs.zero 2
  queued := []
  mask := []
  evSeq := 0
  ring := []
  wr := 0
  rd := 0
  lost := Sat.zero
  lostMark := false
  rdErr := false
  evqVector := 0
  evqIrqEn := false
  evqHold := 0
  evqThresh := 1
  log := []
  cycleEvents := []

/-- R81: no estimate. -/
def DelayEst.reset : DelayEst where
  valid := false
  est := 0
  first := []
  rejects := 0
  reqSeq := 0
  accSeq := 0
  t1 := none
  t2 := none
  t4 := none

/-- R87: a trunk port. The fused residuals are 0 (DESIGN CHOICE, log 2). -/
def Port.reset : Port where
  st := .disabled
  mode := .none
  partnerUid := 0
  partner := none
  deltas := []
  passive := false
  ttdp := false
  okUid := 0
  strange := false
  delay := DelayEst.reset
  calIn := List.replicate 5 0
  calOut := List.replicate 5 0
  ctr := Ctrs.zero 10
  downCause := 0
  violations := 0
  lossClk := none
  qualClk := 0
  rideCounted := false
  t1Master := false
  swapClk := 0
  trainPol := 0
  clause98 := false
  partnerClk := none
  energySeen := false
  upInstants := 0
  stable := false
  stableClk := 0
  retrain := false
  dirSent := false
  reported := false
  queues := [[], [], [], []]
  fifo := []
  busyTill := 0
  mgmtUsed := 0
  sporUsed := 0

/-- R42, R48, R75: switches taken as closed until power-good senses them. -/
def Trunk.reset : Trunk where
  ports := List.replicate 4 Port.reset
  policy := [3, 3]
  policyNext := [none, none]
  lineA := { closed := true, command := none, retried := false, cmdClk := 0 }
  lineB := { closed := true, command := none, retried := false, cmdClk := 0 }
  seq := none
  byCommand := false
  passiveOn := false
  passiveSent := none
  passivePorts := []
  stopForward := false
  openAtStart := false
  wtbEnd := false
  wtbMaster := false
  wtbLineB := false
  wtbTerm := none
  etherType := 0x88B5

/-- R123, R156. -/
def Ina.reset : Ina where
  st := .steep
  vid := 0
  twinB := false
  prio := 0
  leading := none
  leadIssued := 0
  gen := 0
  dir := none
  dirAge := 0
  foreignDir := none
  partial_ := []
  prep := none
  additions := []
  leadNew := none
  mergeWait := none
  islandNew := false
  islandCheck := false
  heldTt := false
  fabricNew := []
  fabricKnown := []
  removals := []
  brkSent := []
  addr := 0
  members := []
  joiners := []
  posMap := List.replicate 64 0
  oldGen := 0
  conflict := none
  conflicts := []
  newest := 0
  claimSeq := 0
  heardGens := []
  provQuiet := 0
  removalFlag := false
  proofs := 0
  sinceJoin := 0
  mismatchRaised := false
  quietClk := none
  contendClk := 0
  leadNext := false
  sinceLead := 0
  mismatch := false
  islands := []
  islandConflict := false
  ttCounter := 0
  ttPend := none
  ttRemote := [false, false]
  switchedAt := none
  lastRemoval := none
  provJoin := false
  extra := []
  prevDir := none
  ctr := Ctrs.zero 7

/-- R216: a line without a path. -/
def LinePath.reset : LinePath where
  delta := 0
  valid := false
  rx := none
  sinceOpen := 0
  spanExceeded := false
  spanRaised := false
  copy := none

/-- R216. -/
def Sched.reset : Sched where
  running := none
  stagedBytes := []
  stagedLen := 0
  verified := none
  activated := false
  variant := 0xFF
  heldFlag := false
  noPoll := false
  holdAsked := false
  release := none
  afterRelease := false
  cycle := 0
  a := LinePath.reset
  b := LinePath.reset
  openOk := false
  openClk := 0
  poll := []
  pollVariant := 0
  badTags := 0
  badTagNow := false
  received := []
  suppressing := false
  suppressedNow := false
  ctr := Ctrs.zero 15
  entryCtr := []

/-- R260: a PTP unit of the standard's profile, Disabled. -/
def PtpInst.reset : PtpInst where
  role := 0
  domain := 0
  prio1 := 0
  prio2 := 0
  logSync := 0
  ports := 0
  state := 0
  gm := { domain := 0, priority1 := 0, clockClass := 0, accuracy := 0, oslv := 0, priority2 := 0, gmId := 0,
          stepsRemoved := 0, traceable := false }
  offset := 0
  rate := 0
  good := 0
  primed := false
  locked := false
  lockClk := 0
  portRoles := 0
  waiting := none
  last := none
  intervals := List.replicate 16 0x80
  syncClk := List.replicate 16 none
  txSeq := 0
  ctr := Ctrs.zero 2
  pending := none

/-- R259. -/
def Tio.reset : Tio where
  armMode := 0
  armPol := false
  armEdge := 1
  armGate := false
  armSvc := 0
  mode := 0
  pol := false
  edge := 1
  armed := false
  gate := false
  svc := 0
  startFrac := 0
  startNs := 0
  startSecLo := 0
  startSecHi := 0
  periodNs := 0
  periodFrac := 0
  width := 0
  active := false
  late := false
  gated := false
  stepped := false
  stepMark := false
  fifo := []
  dropping := false
  lastEdge := none
  driven := none
  undriven := []
  armStart := 0
  armPeriod := 0
  armWidth := 0
  armFirst := 0
  ctr := Ctrs.zero 2

/-- R258. -/
def Time.reset : Time where
  st := .free
  lineB := false
  lineAGood := 0
  lineANow := false
  lineBHeld := none
  source := 3
  freq := 0
  freqs := []
  slew := 0
  slewNext := 0
  carry := 0
  theta := 0
  thetas := []
  good := 0
  overs := 0
  freqOver := 0
  sampled := false
  without := 0
  holdClk := 0
  holdEntry := 0
  eps0 := 0
  hops := 0
  tcxo := true
  lastStep := 0
  stepGen := 0
  ctr := Ctrs.zero 4
  rtcKept := false
  ptp := [PtpInst.reset, { PtpInst.reset with domain := 1 }]
  links := List.replicate 16 none
  policy := 2
  reaction := 1
  bound := 200
  trunkDomain := 20
  steer := false
  steering := false
  steerRate := 0
  selected := 0
  oOut := 0
  slewing := false
  suspect := false
  excess := 0
  clearClk := 0
  diverged := false
  returning := false
  tio := List.replicate 6 Tio.reset

/-- R307–R311. -/
def Rec.reset : Rec where
  ring := []
  wr := 0
  recs := []
  casks := List.replicate 8 none
  nextOrder := 0
  pre := 1000
  post := 1000
  oldest := false
  types := []
  bitmap := List.replicate 128 0
  next := none
  trigger := none
  collecting := none
  page := 0

/-- R264, R590. -/
def Flow.reset : Flow where
  ctx := []
  ctxNext := []
  run := []
  bank0 := []
  bank1 := []
  outBank1 := false
  cons := []
  nextOpen := false
  opening := false
  heldWrites := []
  release := 0
  relMask := 1
  relMaskNext := none
  relPend := false
  relNow := 0
  relLate := false
  deadline := false
  overrunNow := true
  pubCycle := 0
  pdiCycle := 0
  ctr := Ctrs.zero 3
  irqEn := false
  vector := 0
  key := none
  epoch := 0
  keyGen := 0
  txPn := [1, 1]
  rxPn := []
  islandOut := []
  sessions := []
  nextSid := 0
  rec_ := Rec.reset
  saved := []

/-- R319, R354. -/
def Twin.reset : Twin where
  configured := false
  preferred := false
  regionOn := false
  regionPages := 0
  regionOff := 0
  heldOut := false
  role := .out
  partner := none
  hb := none
  hbActive := false
  hbOut := false
  hbReturning := false
  joinedCycles := 0
  joinedBefore := false
  own := 0
  seen := 0
  limitRaised := false
  partnerClaim := 0
  partnerPref := false
  higher := false
  twNow := false
  trNow := false
  twHeard := false
  trHeard := false
  silent := 0
  fresh := 2
  frameSince := false
  foreignStop := false
  outAt := none
  outAfter := false
  switching := none
  switchSnap := false
  echoed := false
  echoK := 0
  flowOut := none
  flowRgen := 0
  flowCycle := 0
  regionOut := none
  regionRgen := 0
  regionCycle := 0
  fullOut := none
  fullDone := false
  dirty := []
  pool := 0
  behind := false
  inFlow := none
  inRegion := none
  inFull := none
  applied := none
  staging := none
  appliedRegion := none
  fullApplied := false
  flowAfterFull := false
  regionValid := false
  recAgain := false
  returnAt := false
  waiting := []
  fullRgen := 0
  gates := 0
  canStop := false
  flowAge := 0xFFFF
  regionAge := 0xFFFF
  ctr := Ctrs.zero 8

/-- R391: a pair not configured. -/
def PairCfg.reset : PairCfg where
  reaction := 0
  classes := 0
  priv := (0, 0)
  shared := (0, 0)
  splitWin := (0, 0)
  vector := 0

/-- R389: a core whose registers are reset, at a program counter: machine mode, every register 0 (PRESUMED of the mode,
DESIGN CHOICE of the registers, log 40). -/
def coreAt (pc : BitVec 64) : CoreState where
  pc := pc
  priv := 3
  x := List.replicate 32 0
  f := List.replicate 32 0
  csr := []
  inner := []

/-- The start of locked operation from a core's state (R360, R363): window 0, nothing on its way to the trailing core. -/
def Cores.start (c : CoreState) : Cores where
  lead := c
  trail := c
  delay := []
  sigLead := 0
  sigTrail := 0
  win := 0
  cyc := 0
  doneLead := none
  doneTrail := none
  reads := []
  instantIrq := false
  pend := 0
  faults := []
  readsT := []
  instantT := false
  faultsT := []

/-- R392: logical pair `l`, mapped to physical pair `l` (R357). -/
def Pair.reset (l : Fin 5) : Pair where
  cfg := PairCfg.reset
  configured := false
  st := .held
  phys := some l
  dbg := false
  lastCause := 0
  onFence := 0
  ready := 0
  readySet := 0
  withdraw := false
  hok := [false, false]
  rejoinRdy := [false, false]
  wfi := [false, false]
  entry := 0
  cores := Cores.start (coreAt 0)
  window := 0
  windowCode := none
  held := []
  stopped := [false, false]
  pendHand := none
  halted := false
  handCycles := 0
  handFound := false
  substTo := none
  resetAsk := none
  resetMbx := []
  debugSplitAt := false
  ctr := Ctrs.zero 9

/-- R357. -/
def Lsk.reset : Lsk where
  pairs := [Pair.reset 0, Pair.reset 1, Pair.reset 2, Pair.reset 3]
  spare := some 4
  spareReady := false
  saved := [none, none, none, none]
  work := []

/-- R435: a matrix of zeros. -/
def CanMatrix.reset : CanMatrix where
  role := 0
  rowsLog2 := 0
  cols := 0
  bcMacro := 0
  refSvc := 0
  refClaim := false
  refId := 0
  refIde := false
  starts := []
  wins := []
  cells := []

/-- R444, R449. -/
def Can.reset : Can where
  ctrl := 0x200
  nbt := 0x070F3E09
  dbt := 0x03030E01
  tdco := 0
  tdcv := 0
  modeAct := 0
  modeNext := none
  integrating := false
  est := .active
  act := 0
  lec := 0
  dlec := 0
  foreign := false
  recovPend := false
  recovering := false
  cfgErr := false
  tec := 0
  recc := 0
  rp := false
  recovCnt := 0
  unackN := 0
  fifoBase := 0
  fifoDepth := 0
  fifoHead := 0
  fifoLevel := 0
  irqStat := 0
  irqEn := 0
  irqVector := 0
  irqDest := 7
  pending := []
  done := 0
  hpbDone := 0
  tx := .none
  objs := []
  hpbs := []
  filters := []
  shadow := CanMatrix.reset
  active := CanMatrix.reset
  commit := 0
  commitPend := false
  commitLate := false
  running := false
  slaveAct := false
  row := 0
  col := 0
  bcClk := 0
  refDue := false
  refWait := false
  sofNs := 0
  lastRefClk := 0
  refSpan := false
  window := none
  rxCheck := []
  deadCols := []
  shadows := []
  rxSet := []
  ctr := Ctrs.zero 14
  flash := none

/-- R453, R468. -/
def Mvb.reset : Mvb where
  cfg := { role := 0, admClaim := false, admSvc := 0, device := 0 }
  cfgNext := none
  roleAct := 0
  staged := []
  stagedLen := 0
  commit := none
  table := none
  ports := []
  portsNext := []
  polls := []
  scanNext := 0
  scanDue := false
  inPeriod := false
  master := none
  known := []
  lineA := { faulty := false, bad := 0, good := 0 }
  lineB := { faulty := false, bad := 0, good := 0 }
  ctr := Ctrs.zero 6
  flash := none

/-- R491: a port Disabled. -/
def SwcCfg.reset : SwcCfg where
  mode := 0
  t1Master := false
  macsec := false
  gates := false
  replay := 0
  pvid := 1
  accept := 0
  ksPrio := 0

/-- R493. -/
def SwPort.reset : SwPort where
  cfg := SwcCfg.reset
  cfgNext := none
  link := false
  speed := 0
  calIn := List.replicate 3 0
  calOut := List.replicate 3 0
  t1Master := false
  secured := false
  key := none
  sak := none
  live := false
  liveClk := 0
  server := false
  gcl := none
  staged := none
  commit := none
  queues := List.replicate 8 []
  ctr := Ctrs.zero 10

/-- R487: banks 0–23 in use, 24 and 25 spare. -/
def Swc.reset : Swc where
  ports := List.replicate 22 SwPort.reset
  vlans := []
  addrs := []
  streams := []
  banks := List.replicate 24 { inUse := true, draining := false, drainClk := 0, retired := false, corr := [] } ++
    List.replicate 2 { inUse := false, draining := false, drainClk := 0, retired := false, corr := [] }
  sakNext := 0
  saved := none

/-- R542. -/
def FabLink.reset : FabLink where
  st := .disabled
  lane := 0
  spare := .good
  delays := [DelayEst.reset, DelayEst.reset]
  partnerSlot := 0xFF
  partnerUid := 0
  partner := none
  txSeq := 0
  rxSeq := 0
  replay := []
  switches := []
  spareClk := 0
  beaconTx := false
  beaconRx := false
  ctr := Ctrs.zero 6

/-- R504, R507. -/
def Fab.reset : Fab where
  attached := false
  mask := 0
  allow := 1
  reqTmo := 10
  semTmo := 100
  links := List.replicate 4 FabLink.reset
  slots := List.replicate 14 0
  heard := none
  assign := []
  mySlot := 0xFF
  costs := List.replicate 64 16
  reach := List.replicate 14 0
  cut := 0
  joins := []
  lastReport := none
  sinceReport := 0
  noSlot := []
  proxy := []
  subs := []
  sinceSub := 0
  subSent := none
  tickSent := false
  srcB := false
  srcAGood := 0
  tickPref := false
  ticks := []
  tickEps := 0
  tickHops := 0

/-- R526, R540. -/
def Bridge.reset : Bridge where
  windows := List.replicate 8
    { mode := 0, addr := 0, vid := 0, slot := 0, base := 0, rd := false, wr := false, guard_ := none }
  out := none
  posted := []
  waiting := []
  inq := []
  store := []
  nextTag := 0
  fetch := none
  fetchClk := 0
  sems := List.replicate 32 none
  pwlog := []
  vecPend := 0
  vecPin := List.replicate 4 0xFFFFFFFF
  rdErr := 0
  rdErrWin := 0
  lbPage := 0
  lbHigh := none
  lbLow := none
  lock := none
  ctr := Ctrs.zero 6

/-- R625, R632, R648: no power. -/
def Pwr.reset : Pwr where
  dev := .unpowered
  supply := .normal
  storeOk := false
  storeDegraded := false
  storeCap := 0
  vin := 0
  pin := 0
  vstore := 0
  case_ := 0
  die := 0
  throttled := false
  throttleNow := false
  lastWake := 0
  doms := List.replicate 12 .off
  idle := List.replicate 12 false
  deepest := List.replicate 12 2
  deepestNext := List.replicate 12 none
  nextAt := List.replicate 12 none
  pend := none
  wakePark := 0x1F
  wakeKiln := 0x1F
  alarm := 0
  wakeBits := 0
  shutdown := false
  ctr := Ctrs.zero 6
  flash := none

/-- R651, R670. The spares left by test-time repair are the whole of each reserve; the SRAM reserves are those of 331
macros (DESIGN CHOICE, log 2). -/
def Rep.reset : Rep where
  rows := 662
  cols := 331
  pages := 1024
  lanes := 4
  banks := 2
  pair := true
  rowsUsed := []
  colsUsed := []
  full := 0
  errs := []
  failing := []
  pendingCache := []
  repaired := []
  ways := []
  retiredPages := []
  step := 0
  stepNext := none
  rotHours := 24
  rotDueClk := 0
  rotRun := none
  rotStopped := false
  rotPick := none
  testing := none
  testClk := List.replicate 5 none
  fenceClk := List.replicate 5 none
  fenced := 0
  refenced := 0
  retired := 0
  hist := []
  reqs := []
  rotDeferred := false
  ctr := Ctrs.zero 7

/-- Nothing put aside. -/
def Shelf.reset : Shelf where
  identity := none
  policy := none
  twin := none
  fab := none
  sched := none
  key := none
  ptp := none

/-- The node after power-on reset, no rail in regulation yet, no command waiting. -/
def State.reset : State where
  pending := []
  now := 0
  clk := 0
  free := 0
  emit := []
  sys := Sys.reset
  cmd := Cmd.reset
  trunk := Trunk.reset
  ina := Ina.reset
  sched := Sched.reset
  time := Time.reset
  flow := Flow.reset
  twin := Twin.reset
  lsk := Lsk.reset
  can := List.replicate 12 Can.reset
  mvb := List.replicate 2 Mvb.reset
  swc := Swc.reset
  fab := Fab.reset
  bridge := Bridge.reset
  pwr := Pwr.reset
  rep := Rep.reset
  shelf := Shelf.reset
  shadows := []
  summaries := [[], [], [], [], []]
  summariesNew := [[], [], [], [], []]
  summariesAt := 0

end Sys2Proof.Machine
end

