-- ==== Sys2Proof/Machine/Ops.lean ====
section
/-! DEFINITION. The named operations every meaning is written with: time, counters, free values, emissions, events
(R565–R572, R588), interrupt vectors (R538) and the registration grid (R27–R30). -/

namespace Sys2Proof.Machine

/-! ## Time -/

/-- Ticks of `n` nanoseconds (R219). -/
def nsT (n : Nat) : Nat := n * 65536

/-- Ticks of `n` microseconds. -/
def usT (n : Nat) : Nat := nsT (n * 1000)

/-- Ticks of `n` milliseconds. -/
def msT (n : Nat) : Nat := usT (n * 1000)

/-- Ticks of `n` seconds. -/
def secT (n : Nat) : Nat := msT (n * 1000)

/-- The macrocycle in µs: that of the running image, 1000 without one (R30). -/
def cycleUs (s : State) : Nat :=
  match s.sched.running with
  | some im => im.cycleUs
  | none => 1000

/-- The macrocycle in ticks. -/
def macroT (s : State) : Nat := usT (cycleUs s)

/-- What the count advances beyond the oscillator, in parts of 10^17: freq, the slew spread over a macrocycle, and TAI
steering (R231, R249). -/
def countRate (s : State) : Int :=
  s.time.freq * 1000000 + s.time.slew * 100000000000000000 / (macroT s : Int) + s.time.steerRate

/-- R231: the ticks that the count advances in `dt` ticks of the oscillator, in parts of 10^17 with what was left over. -/
def countParts (dt : Nat) (s : State) : Int := (dt : Int) * (100000000000000000 + countRate s) + s.time.carry

/-- A command begins: `dt` ticks of the oscillator have passed, the count has advanced at its rate, and nothing has been
sent yet. -/
def begin_ (dt : Nat) (s : State) : State :=
  { s with
    now := ((s.now : Int) + countParts dt s / 100000000000000000).toNat
    clk := s.clk + dt
    time := { s.time with carry := countParts dt s % 100000000000000000 }
    emit := [] }

/-- Moments at which a cycle count begins: `n` times the macrocycle (R27, R28). -/
def cycleCount (s : State) : Nat := s.now / macroT s

/-- Train time of the instant that opened the cycle in progress. -/
def lastInstant (s : State) : Nat := cycleCount s * macroT s

/-- Train time of the next registration instant. -/
def nextInstant (s : State) : Nat := (cycleCount s + 1) * macroT s

/-- R28: cycle number of the cycle in progress. -/
def cycleNo (s : State) : BitVec 32 := BitVec.ofNat 32 (cycleCount s)

/-- R221: the 12 bytes of a train time. -/
def timeBytes (t : Nat) : List Byte :=
  leBytes 6 (t / secT 1) ++ leBytes 4 (t / 65536 % 1000000000) ++ leBytes 2 (t % 65536)

/-- R571: a train time as an event parameter, 10 bytes. -/
def timeParam (t : Nat) : List Byte :=
  leBytes 4 (t / secT 1) ++ leBytes 4 (t / 65536 % 1000000000) ++ leBytes 2 (t % 65536)

/-- A train time read from 12 bytes under R221. -/
def timeOf (l : List Byte) : Nat := secT (fieldAt l 0 6) + nsT (fieldAt l 6 4) + fieldAt l 10 2

/-- A signed tick count as whole ns and fraction of the same sign. -/
def nsPart (t : Int) : Int := Int.tdiv t 65536

/-- The fraction of a signed tick count. -/
def fracPart (t : Int) : Int := Int.tmod t 65536

/-- The nanoseconds field of a train time. -/
def nsField (t : Nat) : Nat := t / 65536 % 1000000000

/-! ## Counters of class sat (R14) -/

/-- One count: at the maximum the count is lost and the sticky bit sets. -/
def satInc (c : Sat) : Sat := if c.n = 0xFFFFFFFF then { c with ovf := true } else { c with n := c.n + 1 }

/-- `k` counts. -/
def satAdd : Nat → Sat → Sat
  | 0, c => c
  | k + 1, c => satAdd k (satInc c)

/-- Counter `i` of a record counts one. -/
def ctrInc (cs : Ctrs) (i : Nat) : Ctrs := updAt cs i satInc

/-- Every counter of a record cleared with its sticky bit. -/
def ctrClear (cs : Ctrs) : Ctrs := cs.map (fun _ => Sat.zero)

/-- Counter `i`. -/
def ctrGet (cs : Ctrs) (i : Nat) : Sat := cs.getD i Sat.zero

/-- The 32-bit fields of a record's counters that start at bits `starts`, and the sticky bit of the one at bit 32 × n
at bit `ovf + n` (the OVERFLOW rule of the records). -/
def ctrFields (cs : Ctrs) (starts : List Nat) (ovf : Nat) : List (Nat × Nat × Nat) :=
  (List.zipWith (fun (c : Sat) (b : Nat) => [(b, 32, c.n.toNat), (ovf + b / 32, 1, b2n c.ovf)]) cs starts).flatten

/-- The sticky bits of a block whose OVF bit n belongs to its n-th counter. -/
def ovfBits : Ctrs → Nat
  | [] => 0
  | c :: cs => b2n c.ovf + 2 * ovfBits cs

/-! ## Free values and emissions -/

/-- A value the spec leaves open, below `n` (log 3), and the state after its use. -/
def takeFree (n : Nat) (s : State) : Nat × State :=
  (Config.freeNat s.free % n, { s with free := s.free + 1 })

/-- What leaves on a port that EXTEST holds inactive (R620): everything but interrupts, answers to the host interfaces and
bypass commands. -/
def onPort : Emission → Bool
  | .msix _ => false
  | .pairIrq _ _ => false
  | .readData _ _ => false
  | .lbAnswer _ _ => false
  | .pcieHeld => false
  | .accessFault _ _ => false
  | .bypass _ _ => false
  | _ => true

/-- The node sends, drives or answers something; a port held inactive sends nothing (R620). -/
def emit (e : Emission) (s : State) : State := if s.sys.extest && onPort e then s else { s with emit := s.emit ++ [e] }

/-- Several of them, in order. -/
def emits (es : List Emission) (s : State) : State := es.foldl (fun s e => emit e s) s

/-! ## Parts of the state -/

/-- Inauguration changed. -/
def modIna (f : Ina → Ina) (s : State) : State := { s with ina := f s.ina }

/-- Trunk port `p` changed. -/
def modPort (p : Nat) (f : Port → Port) (s : State) : State :=
  { s with trunk := { s.trunk with ports := updAt s.trunk.ports p f } }

/-- Trunk port `p`. -/
def portOf (s : State) (p : Nat) : Port := s.trunk.ports.getD p Port.reset

/-- The mailboxes, command and event blocks changed. -/
def modCmd (f : Cmd → Cmd) (s : State) : State := { s with cmd := f s.cmd }

/-- Mailbox `n` changed. -/
def modMbx (n : Nat) (f : Mailbox → Mailbox) (s : State) : State :=
  { s with cmd := { s.cmd with mbx := updAt s.cmd.mbx n f } }

/-- Mailbox `n`. -/
def mbxOf (s : State) (n : Nat) : Mailbox := s.cmd.mbx.getD n Mailbox.reset

/-- CAN channel `c`. -/
def canOf (s : State) (c : Nat) : Can := s.can.getD c Can.reset

/-- CAN channel `c` changed. -/
def modCan (c : Nat) (f : Can → Can) (s : State) : State := { s with can := updAt s.can c f }

/-- Segment `g`. -/
def mvbOf (s : State) (g : Nat) : Mvb := s.mvb.getD g Mvb.reset

/-- Segment `g` changed. -/
def modMvb (g : Nat) (f : Mvb → Mvb) (s : State) : State := { s with mvb := updAt s.mvb g f }

/-- Logical pair `l`. -/
def pairOf (s : State) (l : Nat) : Pair := s.lsk.pairs.getD l (Pair.reset 0)

/-- Logical pair `l` changed. -/
def modPair (l : Nat) (f : Pair → Pair) (s : State) : State :=
  { s with lsk := { s.lsk with pairs := updAt s.lsk.pairs l f } }

/-- Timed I/O port `n`. -/
def tioOf (s : State) (n : Nat) : Tio := s.time.tio.getD n Tio.reset

/-- Timed I/O port `n` changed. -/
def modTio (n : Nat) (f : Tio → Tio) (s : State) : State :=
  { s with time := { s.time with tio := updAt s.time.tio n f } }

/-- Port `p` of the switch core. -/
def swOf (s : State) (p : Nat) : SwPort := s.swc.ports.getD p SwPort.reset

/-- Port `p` of the switch core changed. -/
def modSw (p : Nat) (f : SwPort → SwPort) (s : State) : State :=
  { s with swc := { s.swc with ports := updAt s.swc.ports p f } }

/-- Fabric link `k`. -/
def fabOf (s : State) (k : Nat) : FabLink := s.fab.links.getD k FabLink.reset

/-- Fabric link `k` changed. -/
def modFab (k : Nat) (f : FabLink → FabLink) (s : State) : State :=
  { s with fab := { s.fab with links := updAt s.fab.links k f } }

/-- The flow engine changed. -/
def modFlow (f : Flow → Flow) (s : State) : State := { s with flow := f s.flow }

/-- The node is joined (R715): Joined, Held or Backbone node. -/
def joined (s : State) : Bool :=
  match s.ina.st with
  | .joined => true
  | .held => true
  | .backbone => true
  | _ => false

/-- The node's own train node address as a position. -/
def position (s : State) : Nat := s.ina.addr.toNat / 16

/-! ## Interrupt vectors (R538, R539) -/

/-- A vector raised: its MSI-X message while MSI-X is enabled and it is unmasked, otherwise its pending bit. -/
def raiseVector (v : BitVec 5) (s : State) : State :=
  if s.sys.msixEnabled && !(s.sys.msixMasked.getLsbD v.toNat) then emit (.msix ⟨v.toNat, v.isLt⟩) s
  else { s with bridge := { s.bridge with vecPend := s.bridge.vecPend ||| (1#32 <<< v.toNat) } }

/-- R540: the pin mapped to vector `v` (0xF none). -/
def vecPin (s : State) (v : Nat) : Nat := bitsOf (s.bridge.vecPin.getD (v / 8) 0).toNat (4 * (v % 8)) 4

/-- R539: HOST_IRQ pin `p` is asserted while any vector mapped to it is pending. -/
def pinAsserted (s : State) (p : Nat) : Bool :=
  (List.range 32).any (fun v => s.bridge.vecPend.getLsbD v && vecPin s v == p)

/-! ## Events -/

/-- R572 and the tables of the power and repair chapters: the event codes and whether each is logged. -/
def eventCodes : List (Nat × Bool) :=
  [(0x0101, false), (0x0102, true), (0x0103, true), (0x0104, true), (0x0105, true), (0x0106, true),
   (0x0107, false), (0x0108, true), (0x0201, false), (0x0202, true), (0x0203, true), (0x0204, true),
   (0x0220, false), (0x0221, true), (0x0301, false), (0x0302, false), (0x0303, false), (0x0304, true),
   (0x0305, false), (0x0401, false), (0x0402, true), (0x0403, false), (0x0404, false), (0x0405, false),
   (0x0406, false), (0x0407, false), (0x0501, false), (0x0502, false), (0x0503, true), (0x0504, false),
   (0x0510, false), (0x0511, false), (0x0601, true), (0x0602, false), (0x0603, true), (0x0604, true),
   (0x0605, true), (0x0606, false), (0x0607, false), (0x0701, true), (0x0702, true), (0x0703, true),
   (0x0801, false), (0x0802, false), (0x0803, false), (0x0804, false), (0x0901, false), (0x0902, false),
   (0x0903, false), (0x0A01, false), (0x0A02, false), (0x0A03, false), (0x0B01, false), (0x0B02, true),
   (0x0B03, true), (0x0B04, false), (0x0B05, false), (0x0E01, false), (0x0E02, false)] ++
  [(0x0C01, true), (0x0C02, true), (0x0C03, true), (0x0C04, true), (0x0C05, true),
   (0x0D01, true), (0x0D02, true), (0x0D03, true), (0x0D04, true), (0x0D05, true)]

/-- Whether an event code is written to the non-volatile log. -/
def isLogged (code : Nat) : Bool := (eventCodes.lookup code).getD false

/-- EVQ_LEVEL.UNREAD: entries between the read index and the write index. -/
def unread (c : Cmd) : Nat := (c.wr - c.rd).toNat

/-- R567: the queue is full. -/
def queueFull (c : Cmd) : Bool := c.wr + 1 == c.rd

/-- R569: the 32 bytes of an entry. -/
def eventBytes (e : Event) : List Byte :=
  leBytes 4 e.seq.toNat ++ leBytes 2 e.type.toNat ++
  [BitVec.ofNat 8 (b2n e.lost + 2 * b2n e.unsure + 4 * b2n e.logged), BitVec.ofNat 8 e.param.length] ++
  timeBytes e.time ++ padTo 12 e.param

/-- R588: the queue's vector is raised; every entry written so far has seen a raise. -/
def raiseQueue (s : State) : State :=
  raiseVector s.cmd.evqVector
    { s with cmd := { s.cmd with ring := tblMap (fun _ e => { e with raised := true }) s.cmd.ring } }

/-- R588: THRESH, where 0 acts as 1. -/
def threshOf (c : Cmd) : Nat := if c.evqThresh = 0 then 1 else c.evqThresh.toNat

/-- The time unit does not vouch for TIME (R569 TIME_UNSURE). -/
def timeUnsure (s : State) : Bool :=
  match s.time.st with
  | .free => true
  | .holdover => true
  | _ => false

/-- The newest `n` elements of a list kept oldest first. -/
def keepLast {α : Type} (n : Nat) (l : List α) : List α := l.drop (l.length - n)

/-- R566, R567: an entry written into the queue, or lost to a full one; R588's first case. -/
def queueEvent (e : Event) (s : State) : State :=
  if queueFull s.cmd then
    { s with cmd := { s.cmd with lost := satInc s.cmd.lost, lostMark := true } }
  else
    let c := { s.cmd with
      ring := tblSet s.cmd.ring s.cmd.wr.toNat { e with lost := s.cmd.lostMark }
      wr := s.cmd.wr + 1
      lostMark := false }
    let s1 := { s with cmd := c }
    if c.evqIrqEn && unread c == threshOf c then raiseQueue s1 else s1

/-- The event as raised: the next sequence number, its flags and its time. -/
def newEvent (t code : Nat) (param : List Byte) (s : State) : Event where
  seq := s.cmd.evSeq
  type := BitVec.ofNat 16 code
  lost := false
  unsure := timeUnsure s
  logged := isLogged code
  time := t
  param := param.take 12
  clk := s.clk
  raised := false

/-- What every event does, in the queue or not: it takes its sequence number (R568), is recorded for the cycle
(R307), logged where its code is (R572), and is a cask trigger where its type is configured (R308). -/
def recordEvent (e : Event) (s : State) : State :=
  let r := s.flow.rec_
  { s with
    cmd := { s.cmd with
      evSeq := s.cmd.evSeq + 1
      log := if e.logged then keepLast 4096 (s.cmd.log ++ [e]) else s.cmd.log
      cycleEvents := s.cmd.cycleEvents ++ [e] }
    flow := { s.flow with
      rec_ := { r with trigger := if r.types.contains e.type && r.trigger.isNone then some (e.type, 0) else r.trigger } } }

/-- An event raised with TIME `t`. -/
def raiseAt (t code : Nat) (param : List Byte) (s : State) : State :=
  let e := newEvent t code param s
  let s1 := recordEvent e s
  if s.cmd.mask.contains e.type then s1 else queueEvent e s1

/-- An event raised now. -/
def raise (code : Nat) (param : List Byte) (s : State) : State := raiseAt s.now code param s

/-- An event that reaches the log only (R606). -/
def raiseLogOnly (code : Nat) (param : List Byte) (s : State) : State := recordEvent (newEvent s.now code param s) s

/-- A fold of a state change over a list. -/
def forEach {α : Type} (l : List α) (f : α → State → State) (s : State) : State := l.foldl (fun s x => f x s) s

/-- R715's numbers of the inauguration states (R123). -/
def inaugCode : Inaug → Nat
  | .steep => 0
  | .contend => 1
  | .provLead => 2
  | .provMember => 3
  | .joined => 4
  | .held => 5
  | .backbone => 6

/-- R67. -/
def portCode : PortSt → Nat
  | .disabled => 0
  | .detect => 1
  | .negotiate => 2
  | .train => 3
  | .qualify => 4
  | .up => 5
  | .resume => 6
  | .listen => 7
  | .bypassed => 8
  | .tap => 9

/-- R45. -/
def modeCode : Mode → Nat
  | .none => 0
  | .ndoelle => 1
  | .t1000 => 2
  | .t100 => 3
  | .wtb => 4

/-- R232. -/
def timeCode : TimeSt → Nat
  | .free => 0
  | .acquire => 1
  | .locked => 2
  | .holdover => 3
  | .master => 4

/-- R319. -/
def roleCode : Role → Nat
  | .out => 0
  | .returning => 1
  | .standby => 2
  | .active => 3

/-- R625. -/
def supplyCode : Supply → Nat
  | .normal => 0
  | .riding => 1
  | .below => 2
  | .loss => 3

/-- R632. -/
def domCode : DomSt → Nat
  | .run => 0
  | .doze => 1
  | .nap => 2
  | .off => 3

/-- R392. -/
def pairCode : PairSt → Nat
  | .held => 0
  | .locked => 1
  | .split => 2
  | .debugSplit => 3
  | .fenced => 4

/-- R547: the interface code of an owner tag. -/
def ifaceTag : Iface → Nat
  | .pcie => 0
  | .lb => 1
  | .remote _ _ => 2
  | .spi => 3
  | .pair _ => 0

/-- R545: SRC_IF. -/
def srcIf : Iface → Nat
  | .pcie => 0
  | .lb => 1
  | .spi => 2
  | .remote _ _ => 3
  | .pair _ => 0

/-- A remote initiator. -/
def isRemote : Iface → Bool
  | .remote _ _ => true
  | _ => false

/-- A lock-step pair. -/
def isPair : Iface → Bool
  | .pair _ => true
  | _ => false

/-- R535, R547: owner tag, address in [9:0] and interface in [11:10]. -/
def ownerTag (i : Iface) (s : State) : BitVec 12 :=
  match i with
  | .remote a _ => BitVec.ofNat 12 (a.toNat + 1024 * 2)
  | i => BitVec.ofNat 12 (s.ina.addr.toNat + 1024 * ifaceTag i)

/-- The node is powered and its interfaces answer: from the end of start step 0x2 (R607), not held in reset
(R606), PD11 not off (R628, R633). -/
def hostOpen (s : State) : Bool :=
  s.sys.powered && !s.sys.heldInReset && 3 ≤ s.sys.step && !s.sys.resetHold && (s.pwr.doms.getD 11 .off) ≠ .off

/-- An interface that reaches the node now: none before step 0x2 has ended, PCI Express not while PERST_L is low. -/
def ifaceOpen (i : Iface) (s : State) : Bool :=
  hostOpen s && (match i with | .pcie => !s.sys.perst | _ => true)

/-- The blocks that SPI reaches (R525, R580): mailboxes, doorbells, the event queue and its control block. -/
def spiReaches (addr : Nat) : Bool :=
  addr < 0x8060 || (0x100000 ≤ addr && addr < 0x108000) || (0x108000 ≤ addr && addr < 0x108020)

/-- An address that an interface reaches: SPI under R525, a remote initiator within the granted granules (R527). -/
def reaches (i : Iface) (addr : Nat) (s : State) : Bool :=
  match i with
  | .spi => spiReaches addr
  | .remote _ _ => addr < 0x1000000 && s.fab.allow.getLsbD (addr / 0x100000)
  | _ => true

end Sys2Proof.Machine
end

