-- ==== Sys2Proof/Machine/Claims.lean ====
section
/-! DEFINITION. Claims and gates: the claim number (R321), the classes bound to pairs (R371–R373, R325) and the claim
gate of a class (R39, R322, R336, R424, R719). -/

namespace Sys2Proof.Machine

/-- The logical pair a service class is bound to (R371); classes 0x0 and 0xF are bound to none. -/
def classPair (k : Nat) (s : State) : Option Nat :=
  if k = 0 || 15 ≤ k then none
  else (List.range 4).find? (fun l => (pairOf s l).configured && (pairOf s l).cfg.classes.getLsbD k)

/-- R372: the class is bound to a pair and has not been reinstated since it was withdrawn. -/
def classWithdrawn (k : Nat) (s : State) : Bool :=
  match classPair k s with
  | some l => !((pairOf s l).ready.getLsbD k)
  | none => false

/-- R325: the class is carried as 0xF, its pair being split for debug. -/
def classDebug (k : Nat) (s : State) : Bool :=
  match classPair k s with
  | some l => (pairOf s l).st == .debugSplit
  | none => false

/-- The claim generation the node sends (R319, R719). -/
def sentGen (s : State) : BitVec 16 :=
  if s.twin.configured then (match s.twin.role with | .active => s.twin.own | _ => 0) else 1

/-- The PREF bit the node sends. -/
def sentPref (s : State) : Bool := s.twin.configured && s.twin.preferred

/-- R321: a claim number. -/
def claimNumber (svc gen : Nat) (pref : Bool) (addr : Nat) : BitVec 32 :=
  BitVec.ofNat 32 (svc % 16 * 2 ^ 28 + gen % 65536 * 4096 + b2n pref * 2048 + addr % 1024 * 2)

/-- The node's own claim for class `k`, under R325 with SVC 0xF for a class carried so. -/
def ownClaim (k : Nat) (s : State) : BitVec 32 :=
  claimNumber (if classDebug k s then 15 else k) (sentGen s).toNat (sentPref s) s.ina.addr.toNat

/-- The train node address of the vehicle's other twin: the other of slots 0 and 1. -/
def twinAddr (s : State) : BitVec 10 := s.ina.addr ^^^ 1

/-- The partner's claim for class `k` as last learnt (R323). -/
def partnerClaimOf (k : Nat) (s : State) : BitVec 32 :=
  claimNumber k s.twin.partnerClaim.toNat s.twin.partnerPref (twinAddr s).toNat

/-- The node is a twin that is Active, or has no twin service (R719). -/
def mayClaim (s : State) : Bool :=
  !s.twin.configured || (match s.twin.role with | .active => true | _ => false)

/-- R39, R322: the node holds the highest claim it sees for class `k`. -/
def holdsHighest (k : Nat) (s : State) : Bool :=
  k < 15 && !classWithdrawn k s && !classDebug k s && mayClaim s &&
  (!s.twin.configured || (partnerClaimOf k s).toNat ≤ (ownClaim k s).toNat)

/-- R424 at the instant: the highest claim, and R336's cycle of waiting over. -/
def gateAtInstant (k : Nat) (s : State) : Bool :=
  holdsHighest k s && (!s.twin.configured || 1 ≤ s.twin.fresh)

/-- The gates of the opening cycle. -/
def gatesAtInstant (s : State) : BitVec 16 :=
  BitVec.ofNat 16 ((List.range 16).foldl (fun a k => a + b2n (gateAtInstant k s) * 2 ^ k) 0)

/-- The gate of class `k` is open in the cycle in progress; a node that left the Active role sends nothing (R319). -/
def gateOpen (k : Nat) (s : State) : Bool := s.twin.gates.getLsbD k && mayClaim s

/-- The gate of class `k` for the CAN channels, which R338 closes at once. -/
def canGateOpen (k : Nat) (s : State) : Bool := gateOpen k s && !s.twin.canStop

/-- R189, R319, R719: the node holds the active claim of its vehicle. -/
def holdsActiveClaim (s : State) : Bool :=
  if s.twin.configured then (match s.twin.role with | .active => true | _ => false)
  else
    let slot := s.ina.addr.toNat % 16
    s.ina.addr.toNat ≠ 0 && (slot = 0 || (slot = 1 &&
      !(s.ina.members.any (fun w => w.vid == s.ina.vid && !w.twinB))))

end Sys2Proof.Machine
end

