-- ==== Sys2Proof/Machine/Frames.lean ====
section
/-! DEFINITION. The bytes of the frames of inauguration and of the cycle-opening frame, as their tables lay them out (R94,
R106, R107, R116, R125, R130, R138, R162), and the length a frame has on the line. -/

namespace Sys2Proof.Machine

/-- The 4-byte header before a body of `n` bytes: TYPE, version 0x01, body length. -/
def padaitHeader (type n : Nat) : List Byte := leBytes 1 type ++ leBytes 1 1 ++ leBytes 2 n

/-- R94: the 104 bytes of a link beacon's body. -/
def beaconBytes (b : Beacon) : List Byte :=
  leBytes 8 b.uid.toNat ++ leBytes 6 b.vid.toNat ++ leBytes 2 b.addr.toNat ++ [b.flags, b.prio] ++ leBytes 2 b.gen.toNat ++
  leBytes 2 b.nodes.toNat ++ leBytes 2 b.cycleUs.toNat ++ leBytes 8 b.refUid.toNat ++ leBytes 8 b.endRef.toNat ++
  leBytes 8 b.endFar.toNat ++ leBytes 32 b.hash.toNat ++ timeBytes b.txTime ++ leBytes 6 b.leadVid.toNat ++ leBytes 6 0

/-- A signed time as 8 bytes of ns and 2 bytes of fraction, both signed (R107, R130). -/
def signedTime (t : Int) : List Byte := leBytes 8 (twos 64 (nsPart t)) ++ leBytes 2 (twos 16 (fracPart t))

/-- R107: the 40 bytes of the inauguration block. -/
def inaugBytes (b : InaugBlock) : List Byte :=
  leBytes 2 b.gen.toNat ++
  leBytes 1 (b2n b.prepare + 2 * b2n b.commit + 4 * b2n b.step + 8 * b2n b.provisional + 16 * b2n b.removal) ++ leBytes 1 0 ++
  leBytes 4 b.dirHash.toNat ++ leBytes 2 b.nextGen.toNat ++ leBytes 2 0 ++ leBytes 4 b.nextHash.toNat ++
  leBytes 4 b.switchCycle.toNat ++ signedTime (if b.step then b.stepTicks else 0) ++ leBytes 2 0 ++ leBytes 8 b.refUid.toNat

/-- R116: the 28 bytes of a BREAK's body. -/
def breakBytes (b : BreakBody) : List Byte :=
  leBytes 2 b.addr.toNat ++ leBytes 1 (b.dir.val + 1) ++ [b.cause] ++ timeBytes b.tDown ++ leBytes 8 b.lostUid.toNat ++
  leBytes 2 b.gen.toNat ++ leBytes 2 0

/-- R125: the 32 bytes of a JOIN's body. -/
def joinBytes (j : JoinBody) : List Byte :=
  leBytes 8 j.uid.toNat ++ leBytes 6 j.vid.toNat ++ leBytes 1 (b2n j.twinB + 2 * b2n j.native + 4 * b2n j.fabric) ++
  [j.prio] ++ leBytes 8 j.nb1.toNat ++ leBytes 8 j.nb2.toNat

/-- R138: the 16 bytes of a COLD_CLAIM's body. -/
def coldClaimBytes (c : ColdClaim) : List Byte :=
  leBytes 10 c.rank.toNat ++ leBytes 2 c.newestGen.toNat ++ leBytes 2 c.seq.toNat ++ leBytes 2 0

/-- R130: the 132 bytes of a MERGE_REPORT's body. -/
def mergeReportBytes (m : MergeReport) : List Byte :=
  leBytes 2 m.addr.toNat ++ leBytes 1 m.port.val ++ leBytes 1 0 ++ beaconBytes m.partner ++ signedTime m.delta ++
  leBytes 2 0 ++ timeBytes m.tStable

/-- R106: the 8 bytes of a LEAD_SET's body. -/
def leadSetBytes (vid : BitVec 48) : List Byte := leBytes 6 vid.toNat ++ leBytes 2 0

/-- R162: the 18 bytes of the cycle header. -/
def cycleBytes (f : OpeningFrame) : List Byte :=
  leBytes 4 f.cycle.toNat ++ [f.variant] ++
  leBytes 1 (b2n f.held + 2 * b2n f.noPoll + 4 * b2n f.lineB + 8 * b2n f.dirUp) ++ leBytes 2 f.cycleUs.toNat ++
  leBytes 4 f.schedTag.toNat ++ leBytes 4 f.path.toNat ++ leBytes 2 f.origin.toNat

/-- R162: the 128 bytes of a poll vector. -/
def pollBytes (poll : List Bool) : List Byte :=
  (List.range 128).map (fun i => BitVec.ofNat 8 (((List.range 8).map (fun k => b2n (poll.getD (8 * i + k) false) * 2 ^ k)).sum))

/-- The Padait cycle group address, in the order of its bytes. -/
def cycleGroup : List Byte := [0x03, 0x5A, 0xD0, 0x00, 0x00, 0x01]

/-- One bit of the Ethernet frame check sequence. -/
def fcsStep (c : BitVec 32) : BitVec 32 := if c.getLsbD 0 then (c >>> 1) ^^^ 0xEDB88320 else c >>> 1

/-- The frame check sequence of IEEE 802.3 over a frame's bytes (PRESUMED, log 37: the spec names it and leaves it to the
standard). -/
def frameCheck (l : List Byte) : BitVec 32 :=
  (l.foldl (fun c b => (List.range 8).foldl (fun c _ => fcsStep c) (c ^^^ b.setWidth 32)) 0xFFFFFFFF) ^^^ 0xFFFFFFFF

/-- R162: the 208 bytes of the cycle-opening frame, with a MAC address most significant byte first. -/
def openingBytes (etherType : BitVec 16) (f : OpeningFrame) : List Byte :=
  let body := cycleBytes f ++ inaugBytes f.inaug ++ pollBytes f.poll
  let frame := cycleGroup ++ (leBytes 6 f.source.toNat).reverse ++ leBytes 2 etherType.toNat ++ [f.type, f.version] ++
    leBytes 2 body.length ++ body
  frame ++ leBytes 4 (frameCheck frame).toNat

/-- The Ethernet header of a trunk frame of the node. -/
def trunkHeader (dst : List Byte) (src : BitVec 48) (etherType : BitVec 16) : List Byte :=
  dst ++ (leBytes 6 src.toNat).reverse ++ leBytes 2 etherType.toNat

/-- R279: a flow frame without MACsec, its frame check sequence apart. -/
def flowPlain (etherType : BitVec 16) (f : FlowFrame) : List Byte :=
  let dst : List Byte := [0x03, 0x5A, 0xD0, 0x01] ++ (leBytes 2 f.flowId.toNat).reverse
  let body := leBytes 2 f.flowId.toNat ++ leBytes 2 f.gen.toNat ++ leBytes 4 f.claim.toNat ++ leBytes 4 f.seq.toNat ++
    leBytes 2 f.fresh.toNat ++ leBytes 1 (b2n f.safe + 2 * b2n f.island) ++ leBytes 1 0 ++ leBytes 2 f.srcAddr.toNat ++
    leBytes 2 f.len ++ leBytes 4 f.safety.toNat ++ padTo f.len f.payload
  let frame := trunkHeader dst f.source etherType ++ padaitHeader 0x20 (24 + f.len) ++ body
  if frame.length < 60 then padTo 60 frame else frame

/-- R279: a flow frame without MACsec. -/
def flowBytes (etherType : BitVec 16) (f : FlowFrame) : List Byte :=
  let plain := flowPlain etherType f
  plain ++ leBytes 4 (frameCheck plain).toNat

/-- R304: the body of a session frame. -/
def sessionBytes (f : SessionFrame) : List Byte :=
  leBytes 2 f.sid.toNat ++ [f.kind, f.cause] ++ leBytes 8 f.openerUid.toNat ++
  leBytes 2 (4096 * f.msg.toNat + f.seg.toNat) ++ leBytes 2 f.msgLen.toNat ++ f.payload

/-- R331: the 40 bytes of a heartbeat's body. -/
def heartbeatBytes (h : Heartbeat) : List Byte :=
  leBytes 8 h.uid.toNat ++ leBytes 6 h.vid.toNat ++ leBytes 2 h.addr.toNat ++
  leBytes 1 (h.role.toNat + 8 * b2n h.preferred + 16 * b2n h.twHeard + 32 * b2n h.trunkHeard + 64 * b2n h.switch) ++
  leBytes 1 0 ++ leBytes 2 h.ownGen.toNat ++ leBytes 2 h.seenGen.toNat ++ leBytes 2 h.gen.toNat ++
  leBytes 4 h.cycle.toNat ++ leBytes 4 (if h.switch then h.switchCycle.toNat else 0) ++ leBytes 4 h.flowRgen.toNat ++
  leBytes 4 h.regionRgen.toNat

/-- R331: a heartbeat behind its header, on both paths. -/
def heartbeatFrameBytes (h : Heartbeat) : List Byte := padaitHeader 0x30 (heartbeatBytes h).length ++ heartbeatBytes h

/-- R304: a session frame behind its header. -/
def sessionFrameBytes (f : SessionFrame) : List Byte := padaitHeader 0x21 (sessionBytes f).length ++ sessionBytes f

/-- R505: the 152 bytes of a fabric beacon's body. -/
def fabricBeaconBytes (b : FabricBeacon) : List Byte :=
  leBytes 8 b.uid.toNat ++ leBytes 6 b.vid.toNat ++ [b.slot] ++
  leBytes 1 (b2n b.twin + 2 * b2n b.twinB + 4 * b2n b.active + 8 * b2n b.numbered + 16 * b2n b.joined) ++
  leBytes 2 b.gen.toNat ++ padTo 16 b.cost ++ (List.range 14).flatMap (fun i => leBytes 8 (b.table.getD i 0).toNat) ++
  leBytes 4 b.schedTag.toNat ++ leBytes 2 0

/-- R511: the 8-byte fabric header. -/
def fabricHeader (f : FabricFrame) : List Byte := [f.dst, f.src, f.hops, f.cls] ++ leBytes 4 0

/-- R510: the 120 bytes of a FABRIC_REPORT's body. -/
def reportBytes (r : FabricReport) : List Byte :=
  leBytes 6 r.vid.toNat ++ leBytes 2 r.slots.toNat ++ (List.range 14).flatMap (fun i => leBytes 8 (r.uids.getD i 0).toNat)

/-- R514: what a FABRIC_TICK carries. -/
def tickBytes (t : FabricTick) : List Byte :=
  cycleBytes t.frame ++ inaugBytes t.frame.inaug ++ timeBytes t.time ++ leBytes 4 t.corr.toNat ++ leBytes 2 t.eps.toNat

/-- R528: a bridge frame's header and data. -/
def bridgeBytes (b : BridgeFrame) : List Byte :=
  leBytes 2 b.tag.toNat ++ [b.op, b.status] ++ leBytes 8 b.initUid.toNat ++ leBytes 2 b.gen.toNat ++ leBytes 2 b.len ++
  leBytes 4 b.addr.toNat ++ [b.sem] ++ leBytes 1 (b2n b.reissue) ++ leBytes 2 0 ++ b.data

/-- The length of an Ethernet frame with a body of `n` bytes behind the 4-byte header. -/
def controlLen (n : Nat) : Nat := max 64 (n + 22)

/-- The length of an inauguration frame or of the cycle-opening frame on the line, with its addresses and check sequence;
a DIRECTORY frame carries 32 bytes a record, a MERGE_REPORT is followed by its directory frames. -/
def inaugLen : OutFrame → Nat
  | .beacon b => controlLen (beaconBytes b).length
  | .breakF b => controlLen (breakBytes b).length
  | .join j => controlLen (joinBytes j).length
  | .coldClaim c => controlLen (coldClaimBytes c).length
  | .leadSet v => controlLen (leadSetBytes v).length
  | .mergeReport m => controlLen (mergeReportBytes m).length
  | .dir d => controlLen (32 + 32 * d.records.length)
  | .opening f => (openingBytes 0 f).length
  | _ => 64

end Sys2Proof.Machine
end

