-- ==== Sys2Proof/Machine/Mailbox.lean ====
section
/-! DEFINITION. How a mailbox command runs (R545–R563): the ring, the checks of R555, completion, and the queued
commands and their CMD_COMPLETE (R558–R560). -/

namespace Sys2Proof.Machine

/-! ## Answers (R563) -/

/-- DONE with a response. -/
def done (rsp : List Byte) : Reply := { status := 0, detail := 0, rsp := rsp, arg := 0 }

/-- QUEUED; `arg` is kept with the queued command. -/
def queued (arg : Nat) : Reply := { status := 1, detail := 0, rsp := [], arg := arg }

/-- An error status with its DETAIL. -/
def fail (status detail : Nat) : Reply := { status := status, detail := detail, rsp := [], arg := 0 }

/-- OUT_OF_RANGE: the payload offset of the first offending byte. -/
def outOfRange (off : Nat) : Reply := fail 0x0102 off

/-- OUT_OF_RANGE where no single field is at fault. -/
def outOfRangeAll : Reply := fail 0x0102 0xFFFFFFFF

/-- NOT_IN_STATE with the state code that forbade it. -/
def notInState (code : Nat) : Reply := fail 0x0103 code

/-- NOT_IN_STATE where the chapter gives no code. -/
def notInStateAll : Reply := fail 0x0103 0xFFFFFFFF

/-! ## The checks before the subject chapter's (R555, steps 2 to 4) -/

/-- The reserved bytes `a` to `b` of a request. -/
def zeros (a b : Nat) : List (Nat × Nat) := (List.range (b + 1 - a)).map (fun i => (a + i, 0xFF))

/-- Offset of the first byte with a reserved bit set. -/
def reservedSet : List (Nat × Nat) → List Byte → Option Nat
  | [], _ => none
  | (off, mask) :: rs, req => if byteAt req off &&& mask ≠ 0 then some off else reservedSet rs req

/-- REQ_LEN is one the command defines. -/
def lengthOk (sp : CmdSpec) (req : List Byte) : Bool :=
  sp.minLen ≤ req.length && req.length ≤ sp.maxLen &&
  (match sp.tied with
   | none => true
   | some (off, size, base, factor) => req.length == base + factor * fieldAt req off size)

/-- Checks 2, 3 and 4 of R555, the first failure answered. -/
def checkRequest (sp : CmdSpec) (src : Iface) (req : List Byte) : Option Reply :=
  if sp.noRemote && isRemote src then some (fail 0x0105 0)
  else if !(lengthOk sp req) then some (fail 0x0101 sp.minLen)
  else match reservedSet sp.resv req with
    | some off => some (outOfRange off)
    | none => none

/-- R608: the opcodes accepted before START_READY. -/
def startAllowed (op : Nat) : Bool := [0x0101, 0x0102, 0x0107, 0x0105, 0x0106, 0x0110, 0x0111].contains op

/-! ## Queued commands -/

/-- R558: CMD_COMPLETE of a queued command. -/
def completeEvent (q : Queued) (status : Nat) (s : State) : State :=
  raise 0x0101 (leBytes 1 q.mbx.val ++ leBytes 2 q.opcode.toNat ++ leBytes 2 q.tag.toNat ++ leBytes 2 status ++
    leBytes 4 q.cmdSeq.toNat) s

/-- The queued commands that `p` names end with a final status: each leaves the queue with its CMD_COMPLETE. -/
def finishQueued (p : Queued → Bool) (status : Nat) (s : State) : State :=
  let ended := s.cmd.queued.filter p
  let s1 := { s with cmd := { s.cmd with queued := s.cmd.queued.filter (fun q => !p q) } }
  forEach ended (fun q s => completeEvent q status s) s1

/-- Whether a queued command of an opcode waits. -/
def hasQueued (s : State) (op : Nat) : Bool := s.cmd.queued.any (fun q => q.opcode.toNat == op)

/-! ## A command from its ring to its completion -/

/-- R550: a ring refused. -/
def refuseRing (n : Nat) (s : State) : State :=
  modCmd (fun c => { c with ctr := ctrInc c.ctr 0 }) (modMbx n (fun m => { m with refused := true }) s)

/-- R548: the party may ring mailbox `n`. -/
def lockAllows (n : Nat) (src : Iface) (s : State) : Bool :=
  match (mbxOf s n).lock with
  | none => true
  | some o => o == ownerTag src s

/-- R552: a ring accepted. -/
def acceptRing (n : Nat) (src : Iface) (s : State) : State :=
  let seq := s.cmd.nextSeq
  modCmd (fun c => { c with nextSeq := c.nextSeq + 1 })
    (modMbx n (fun m => { m with state := 1, done := false, srcIf := BitVec.ofNat 8 (srcIf src), cmdSeq := seq,
                                 ring := true, ringClk := s.clk }) s)

/-- R553: a mailbox with its completion: response, status, DETAIL and ELAPSED `e`. -/
def answered (rp : Reply) (e : Nat) (m : Mailbox) : Mailbox :=
  { m with
    payload := memWrite m.payload 0 rp.rsp
    rspLen := BitVec.ofNat 16 rp.rsp.length
    status := BitVec.ofNat 16 rp.status
    detail := BitVec.ofNat 32 rp.detail
    elapsed := BitVec.ofNat 32 e
    state := 2
    ring := false
    done := true }

/-- R553: the completion of the command in mailbox `n`. `limit` bounds ELAPSED in µs (R554). -/
def completeMbx (n : Nat) (limit : Nat) (rp : Reply) (s : State) : State :=
  let x := takeFree (limit + 1) s
  let s1 := modMbx n (answered rp x.1) x.2
  let m := mbxOf s1 n
  if m.irqEn then raiseVector m.vector s1 else s1

/-- R610: the configuration area a command writes, 0 for none. -/
def areaOf (op : Nat) : Nat :=
  (([(0x0204, 1), (0x0205, 1), (0x0220, 2), (0x0602, 3), (0x0604, 3), (0x0B02, 4), (0x0B03, 4), (0x0B04, 4), (0x0302, 5),
     (0x0303, 5), (0x0305, 5), (0x0504, 6), (0x0505, 6), (0x0403, 7), (0x0404, 7), (0x0405, 7), (0x0702, 8), (0x0801, 9),
     (0x0901, 10), (0x0903, 10), (0x0A01, 11), (0x0A09, 11), (0x0C02, 12), (0x0C05, 12)] : List (Nat × Nat)).lookup op).getD 0

/-- An area written takes the place of what flash held for it. -/
def shelfDrop (a : Nat) (h : Shelf) : Shelf where
  identity := if a = 1 then none else h.identity
  policy := if a = 2 then none else h.policy
  twin := if a = 3 then none else h.twin
  fab := if a = 4 then none else h.fab
  sched := if a = 5 then none else h.sched
  key := if a = 6 then none else h.key
  ptp := if a = 7 then none else h.ptp

/-- Area `a` of the configuration has been written in flash (0: none). -/
def areaWritten (a : Nat) (s : State) : State :=
  if a = 0 then s
  else { s with sys := { s.sys with areas := s.sys.areas ||| (1#16 <<< a) }, shelf := shelfDrop a s.shelf }

/-- Queued commands whose configuration is in flash from their acceptance on; the others that store do so at their end. -/
def queuedWrites (op : Nat) : Bool := [0x0220, 0x0305, 0x0604, 0x0903].contains op

/-- R556: an error leaves the node as it was, but that a failed debug unlock makes the nonce invalid (R621). -/
def afterError (sp : CmdSpec) (before : State) (x : State) : State :=
  if sp.opcode = 0x0111 then { before with sys := { before.sys with nonce := x.sys.nonce } } else before

/-- What the subject chapter's part answers, held to R556 (an error has no effect), R559 (the 33rd queued command)
and R563 FLASH_FAIL. -/
def settle (sp : CmdSpec) (r : Ring) (before : State) (x : Reply × State) : Reply × State :=
  if 0x0100 ≤ x.1.status then (x.1, afterError sp before x.2)
  else if x.1.status = 1 then
    if 32 ≤ before.cmd.queued.length then (fail 0x0106 0, before)
    else
      (x.1, areaWritten (if queuedWrites sp.opcode then areaOf sp.opcode else 0) { x.2 with cmd := { x.2.cmd with queued := x.2.cmd.queued ++
        [{ mbx := r.mbx, opcode := BitVec.ofNat 16 sp.opcode, tag := r.tag,
           cmdSeq := (mbxOf before r.mbx).cmdSeq, arg := x.1.arg }] } })
  else match r.flashFail with
    | some sector => if sp.flash then (fail 0x010A sector.toNat, before) else (x.1, areaWritten (areaOf sp.opcode) x.2)
    | none => (x.1, areaWritten (areaOf sp.opcode) x.2)

/-- R621: any failure of SYS_DEBUG_UNLOCK makes the nonce invalid. -/
def nonceSpent (sp : CmdSpec) (s : State) : State :=
  if sp.opcode = 0x0111 then { s with sys := { s.sys with nonce := none } } else s

/-- The command's answer: the checks of R555 in order, R608's state check first among the subject's. -/
def answer (sp : CmdSpec) (body : Ring → State → Reply × State) (r : Ring) (s : State) : Reply × State :=
  match checkRequest sp r.src r.req with
  | some rp => (rp, nonceSpent sp s)
  | none =>
    if !s.sys.ready && !startAllowed sp.opcode then (notInState s.sys.step, s)
    else settle sp r s (body r s)

/-- R554: the bound on ELAPSED in µs. -/
def elapsedLimit (sp : CmdSpec) : Nat := if sp.slow || sp.flash then 250000 else 1000

/-- An accepted command runs to its completion. -/
def runAccepted (sp : CmdSpec) (body : Ring → State → Reply × State) (r : Ring) (s : State) : State :=
  let x := answer sp body r s
  completeMbx r.mbx (elapsedLimit sp) x.1 x.2

/-- The request as the host writes it before it rings (R549). -/
def loadRequest (op : Nat) (r : Ring) (s : State) : State :=
  modMbx r.mbx (fun m => { m with
    opcode := BitVec.ofNat 16 op
    tag := r.tag
    reqLen := BitVec.ofNat 16 r.req.length
    payload := memWrite m.payload 0 r.req }) s

/-- A party that rings a mailbox: an interface that reaches them now; a pair rings none (R582). -/
def mayRing (i : Iface) (s : State) : Bool := ifaceOpen i s && reaches i 0x8000 s && !isPair i

/-- A command as a host submits it: nothing while the interfaces are closed (R607); refused while RING reads 1 or a
reset is due (R550, R575); its request written, then refused where another party holds the lock (R548), and otherwise
accepted and run. -/
def submit (sp : CmdSpec) (body : Ring → State → Reply × State) (dt : Nat) (r : Ring) (s : State) : State :=
  let s := begin_ dt s
  if !mayRing r.src s then s
  else if (mbxOf s r.mbx).ring || s.sys.resetPending.isSome then refuseRing r.mbx s
  else
    let s1 := loadRequest sp.opcode r s
    if lockAllows r.mbx r.src s1 then runAccepted sp body r (acceptRing r.mbx r.src s1)
    else refuseRing r.mbx s1

/-- A command that completes later, at a registration instant: an error completes at once, and otherwise the mailbox
stays busy. -/
def runLater (sp : CmdSpec) (body : Ring → State → Reply × State) (r : Ring) (s : State) : State :=
  let x := answer sp body r s
  if x.1.status = 0 then x.2 else completeMbx r.mbx (elapsedLimit sp) x.1 x.2

/-- `submit` for such a command. -/
def submitLater (sp : CmdSpec) (body : Ring → State → Reply × State) (dt : Nat) (r : Ring) (s : State) : State :=
  let s := begin_ dt s
  if !mayRing r.src s then s
  else if (mbxOf s r.mbx).ring || s.sys.resetPending.isSome then refuseRing r.mbx s
  else
    let s1 := loadRequest sp.opcode r s
    if lockAllows r.mbx r.src s1 then runLater sp body r (acceptRing r.mbx r.src s1)
    else refuseRing r.mbx s1

/-- A plain command's specification: fixed length, reserved bits, no flash, allowed remotely. -/
def plainSpec (op len : Nat) (resv : List (Nat × Nat)) : CmdSpec where
  opcode := op
  noRemote := false
  flash := false
  slow := false
  minLen := len
  maxLen := len
  tied := none
  resv := resv

/-- A plain command that stores in flash. -/
def flashSpec (op len : Nat) (resv : List (Nat × Nat)) : CmdSpec := { plainSpec op len resv with flash := true }

/-- Takes the record, and clears its counters where bit [0] of byte `off` asks for it, in one step. -/
def clearAsked (req : List Byte) (off : Nat) : Bool := (byteAt req off).testBit 0

end Sys2Proof.Machine
end

