-- ==== Sys2Proof/Machine/TrunkQ.lean ====
section
/-! DEFINITION. The queues of non-scheduled frames at the trunk ports (R209, R213). -/

namespace Sys2Proof.Machine

/-- A schedule counter (R216) counts. -/
def schedCount (i : Nat) (s : State) : State := { s with sched := { s.sched with ctr := ctrInc s.sched.ctr i } }

/-- Trunk port `p` is Up. -/
def portUp (s : State) (p : Nat) : Bool := match (portOf s p).st with | .up => true | _ => false

/-- Trunk ports of line A are 0 and 2, of line B 1 and 3 (R42). -/
def lineOfPort (p : Nat) : Line := if p % 2 = 0 then .a else .b

/-- Direction of a trunk port: 0 for direction 1, 1 for direction 2. -/
def dirOfPort (p : Nat) : Nat := p / 2

/-- The other port of the same line. -/
def acrossPort (p : Nat) : Nat := (p + 2) % 4

/-- The two ports of a direction (0 or 1). -/
def dirPorts (d : Nat) : List Nat := [2 * d, 2 * d + 1]

/-- Port `p` runs wire-train-bus mode, which carries no frame of the trunk. -/
def onWtb (s : State) (p : Nat) : Bool := match (portOf s p).mode with | .wtb => true | _ => false

/-- The Up trunk ports that carry frames. -/
def upPorts (s : State) : List Nat := (List.range 4).filter (fun p => portUp s p && !onWtb s p)

/-- The port runs the Ndoelle line. -/
def onNdoelle (t : Port) : Bool := match t.mode with | .ndoelle => true | _ => false

/-- The port runs a T1 mode. -/
def onT1 (t : Port) : Bool := match t.mode with | .t1000 => true | .t100 => true | _ => false

/-- Inauguration frames and the cycle-opening frame, which a T1 hop carries only to a Padait partner (R47, R151). -/
def isInaugFrame : OutFrame → Bool
  | .beacon _ => true
  | .breakF _ => true
  | .dir _ => true
  | .join _ => true
  | .coldClaim _ => true
  | .mergeReport _ => true
  | .leadSet _ => true
  | .fabricReport _ => true
  | .opening _ => true
  | .islandReport _ _ => true
  | _ => false

/-- Frames that are not the node's Padait traffic: Ethernet of the consists, the trunk time domain, topology discovery. -/
def isForeignFrame : OutFrame → Bool
  | .eth _ => true
  | .domainSync _ _ => true
  | .ttdp _ => true
  | _ => false

/-- R47, R151, R31: port `p` carries inauguration frames: on the Ndoelle line, and on a T1 hop whose partner sends
beacons. -/
def carriesPadait (p : Nat) (s : State) : Bool :=
  let t := portOf s p
  onNdoelle t || (onT1 t && t.partner.isSome && !t.ttdp)

/-- The Up trunk ports that carry inauguration frames. -/
def padaitPorts (s : State) : List Nat := (upPorts s).filter (fun p => carriesPadait p s)

/-- A frame leaves on trunk port `p`: the node's own traffic under the Padait control EtherType (R151). -/
def trunkOut (p : Nat) (f : OutFrame) (at_ : Option Int) (s : State) : State :=
  emit (.trunk (Fin.ofNat 4 p) f at_ (if isForeignFrame f then none else some s.trunk.etherType)) s

/-- R209: the queue a PCP belongs to: 1 high, 2 medium, 3 low; 0 is management. -/
def pcpQueue (pcp : Nat) : Nat := if 6 ≤ pcp then 1 else if 3 ≤ pcp then 2 else 3

/-- Two queued frames are frames of one flow. -/
def sameFlow (f g : QFrame) : Bool :=
  match f.frame, g.frame with
  | .flow a, .flow b => a.flowId == b.flowId
  | _, _ => false

/-- R213: a frame of one flow waiting in a queue gives way to the newer value. -/
def replaceFlow (f : QFrame) (q : List QFrame) : List QFrame :=
  if q.any (sameFlow f) then q.map (fun g => if sameFlow f g then { f with deferred := g.deferred } else g) else q ++ [f]

/-- R123: what a node sends of its own in Steep from its queues: JOIN and COLD_CLAIM; and as a backbone node of the standard
its topology discovery (R64; DESIGN CHOICE, log 38). -/
def steepSends : OutFrame → Bool
  | .ttdp _ => true
  | .join _ => true
  | .coldClaim _ => true
  | _ => false

/-- A frame may be queued on port `p`: in Steep only what that state sends (R123), and an inauguration frame only where
the port carries one. -/
def mayQueue (p : Nat) (f : OutFrame) (s : State) : Bool :=
  (match s.ina.st with | .steep => steepSends f | _ => true) && (!(isInaugFrame f) || carriesPadait p s)

/-- R209: a frame enters queue `q` of port `p`, or is dropped and counted where it would overfill the 64 KiB. -/
def trunkEnqueue (p q : Nat) (f : QFrame) (s : State) : State :=
  let old := (portOf s p).queues.getD q []
  let new := replaceFlow f old
  if !(mayQueue p f.frame s) then s
  else if 65536 < (new.map (fun g => g.len)).sum then schedCount 13 s
  else modPort p (fun t => { t with queues := updAt t.queues q (fun _ => new) }) s

/-- A management-class frame of `len` bytes for each port of a list. -/
def mgmtSend (ps : List Nat) (f : OutFrame) (len : Nat) (s : State) : State :=
  forEach ps (fun p s => trunkEnqueue p 0 { frame := f, len := len, deferred := false, ctx := none, urgent := false } s) s

/-- An inauguration frame at its own length. -/
def inaugSend (ps : List Nat) (f : OutFrame) (s : State) : State := mgmtSend ps f (inaugLen f) s

/-- The Up ports of the line on which a frame for the train goes out: line A, or line B where line A has none. -/
def trainPorts (s : State) : List Nat :=
  let a := (upPorts s).filter (fun p => p % 2 == 0)
  if a.isEmpty then upPorts s else a

end Sys2Proof.Machine
end

