-- ==== Sys2Proof/Machine/FabCore.lean ====
section
/-! DEFINITION. The vehicle fabric's link layer and routing: sending, costs and routes (R498, R506, R511–R513, R519). -/

namespace Sys2Proof.Machine

/-- The fabric part of the state changed. -/
def modFabric (f : Fab → Fab) (s : State) : State := { s with fab := f s.fab }

/-- A counter of link `k`'s record (R542): 0 BLOCK_ERR, 1 REPLAY, 2 LANE_SWITCH, 3 LINK_DOWN, 4 TTL_DROP,
5 DLY_REJECT. -/
def fabCount (k i : Nat) (s : State) : State := modFab k (fun l => { l with ctr := ctrInc l.ctr i }) s

/-- Link `k` is Up. -/
def fabUp (s : State) (k : Nat) : Bool := match (fabOf s k).st with | .up => true | _ => false

/-- The links that are Up. -/
def fabUpLinks (s : State) : List Nat := (List.range 4).filter (fabUp s)

/-- This node's slot: of a trunk twin 0 or 1, of an attached node as assigned; 0xFF without one (R505, R507). -/
def fabSlot (s : State) : Nat :=
  if s.fab.attached then s.fab.mySlot.toNat else if s.ina.vid = 0 then 0xFF else b2n s.ina.twinB

/-- R189: the node is a trunk twin and holds the active claim of its vehicle. -/
def fabActiveTwin (s : State) : Bool := !s.fab.attached && holdsActiveClaim s

/-! ## Routing (R512, R513) -/

/-- Entry 4 × d + i of the routing table. -/
def fabEntry (s : State) (d i : Nat) : Nat := s.fab.costs.getD (4 * d + i) 16

/-- The link of lowest entry cost to slot `d`, the lower index when two are equal. -/
def fabBest (s : State) (d : Nat) : Nat :=
  [1, 2, 3].foldl (fun b i => if fabEntry s d i < fabEntry s d b then i else b) 0

/-- The node's own cost to slot `d`. -/
def fabCost (s : State) (d : Nat) : Nat := if d = fabSlot s then 0 else fabEntry s d (fabBest s d)

/-- The link on which a frame for slot `d` leaves. -/
def fabRoute (s : State) (d : Nat) : Option Nat :=
  if d = fabSlot s || 16 ≤ fabEntry s d (fabBest s d) then none else some (fabBest s d)

/-- R512: the cost advertised for slot `d` on link `k`. -/
def fabAdvertised (s : State) (k d : Nat) : Nat := if fabRoute s d = some k then 16 else fabCost s d

/-- The costs through link `k` as its partner advertises them, or 16 when it is not Up; slots out of reach are noted
for R510. -/
def fabSetCosts (k : Nat) (adv : List Byte) (s : State) : State :=
  let cost (d : Nat) : Nat := if fabUp s k then min 16 ((adv.getD d 16).toNat + 1) else 16
  let s1 := modFabric (fun f => { f with
    costs := (List.range 16).foldl (fun cs d => updAt cs (4 * d + k) (fun _ => cost d)) f.costs }) s
  let lost := BitVec.ofNat 16 (((List.range 16).map (fun d => if 16 ≤ fabCost s1 d then 2 ^ d else 0)).sum)
  modFabric (fun f => { f with cut := f.cut ||| lost }) s1

/-- The slot of the vehicle's Active twin as this node knows it: its own, the other twin's at a twin that is not Active,
or at an attached node that of a neighbour whose beacon says so; twin A where nothing says so (DESIGN CHOICE, log 31). -/
def fabActiveSlot (s : State) : Nat :=
  if fabActiveTwin s then fabSlot s
  else if !s.fab.attached then 1 - fabSlot s
  else match s.fab.links.find? (fun l => match l.partner with | some b => b.active && l.st == .up | none => false) with
    | some l => l.partnerSlot.toNat
    | none => 0

/-- R513: the slot to which DST 0x10 is routed: the Active twin, or the other when it is unreachable. -/
def fabTrunkSlot (s : State) : Nat :=
  let a := fabActiveSlot s
  if fabCost s a < 16 then a else 1 - a

/-- The slot a DST byte stands for. -/
def fabDest (s : State) (dst : Nat) : Nat := if dst = 0x10 then fabTrunkSlot s else dst

/-! ## Sending (R498, R511) -/

/-- Frames sent more than 10 µs ago without FABRIC_ACK_TIMEOUT have been acknowledged. -/
def fabTrim (now : Nat) (r : List (FabricFrame × Nat)) : List (FabricFrame × Nat) :=
  r.filter (fun x => now ≤ x.2 + usT 10)

/-- A frame leaves on link `k` under the link's next sequence number, and is kept until it is acknowledged. -/
def fabSendOn (k : Nat) (f : FabricFrame) (s : State) : State :=
  let g := { f with seq := (fabOf s k).txSeq }
  emit (.fabric (Fin.ofNat 4 k) g) (modFab k (fun l => { l with
    txSeq := l.txSeq + 1, replay := fabTrim s.clk l.replay ++ [(g, s.clk)] }) s)

/-- A frame for a DST byte leaves on its route, or is dropped and counted on link `from_`. -/
def fabForward (from_ : Nat) (f : FabricFrame) (s : State) : State :=
  match fabRoute s (fabDest s f.dst.toNat) with
  | some k => fabSendOn k f s
  | none => fabCount from_ 4 s

/-- R123: what a node in Steep sends towards the trunk. -/
def steepFabric (p : FabricPayload) (s : State) : Bool :=
  match s.ina.st, p with
  | .steep, .join _ => true
  | .steep, _ => false
  | _, _ => true

/-- A frame this node originates (R511). -/
def fabOriginate (dst cls : Nat) (p : FabricPayload) (s : State) : State :=
  if dst = 0x10 && !(steepFabric p s) then s
  else fabForward 0 { seq := 0, dst := BitVec.ofNat 8 dst, src := BitVec.ofNat 8 (fabSlot s), hops := 15,
                      cls := BitVec.ofNat 8 cls, payload := p } s

/-- The fabric slots 2–15 of the vehicle that a frame reaches now. -/
def fabNodes (s : State) : List Nat :=
  (List.range 16).filter (fun d => 2 ≤ d && d ≠ fabSlot s && fabCost s d < 16)

/-- R509, R519: what the Active twin passes on from the trunk to the fabric nodes of its vehicle. -/
def fabRelay (p : FabricPayload) (s : State) : State :=
  if fabActiveTwin s then forEach (fabNodes s) (fun d s => fabOriginate d 0 p s) s else s

end Sys2Proof.Machine
end

