-- ==== Sys2Proof/Machine/Access.lean ====
section
/-! DEFINITION. Who reaches the directly mapped blocks, and how: the interfaces open to an access (R606, R607, R684) and
the output hold buffers of the lock-step pairs (R368, R369). -/

namespace Sys2Proof.Machine

/-- Offset in BAR0 of register `off` of CAN channel `c` (R580). -/
def canAddr (c : Fin 12) (off : Nat) : Nat := 0x00500000 + 0x10000 * c.val + off

/-- Offset of a message object or buffer within its channel block. -/
def canSlotOff (o : CanSlot) : Nat := match o with | .hpb b => 0x0800 + 80 * b.val | .obj i => 0x4000 + 80 * i.val

/-- Offset in BAR0 of register `off` of timed I/O port `n` (R580). -/
def tioAddr (n : Fin 6) (off : Nat) : Nat := 0x00410000 + 0x100 * n.val + off

/-- The pair runs locked. -/
def pairLocked (p : Pair) : Bool := match p.st with | .locked => true | _ => false

/-- The pair runs split, for debug or not. -/
def pairSplit (p : Pair) : Bool := match p.st with | .split => true | .debugSplit => true | _ => false

/-- R368, R369: a transaction issued in window `w` enters the hold buffer of a locked pair; where that is full, the cores are
stalled and issue none. An entry has up to 64 bytes. -/
def holdIn (l : Nat) (w : BitVec 64) (k : HeldKind) (addr len : Nat) (d : Option (List Byte)) (s : State) : State :=
  modPair l (fun p =>
    if 64 ≤ p.held.length then p
    else { p with held := p.held ++ [{ window := w, kind := k, addr := addr, len := len, wdata := d }],
                  ctr := if d.isNone then ctrInc p.ctr 5 else p.ctr }) s

/-- The same of a transaction of the window in progress. -/
def holdTxn (l : Nat) (k : HeldKind) (addr len : Nat) (d : Option (List Byte)) (s : State) : State :=
  holdIn l (pairOf s l).cores.win k addr len d s

/-- An access to the directly mapped blocks held so. -/
def holdAccess (l addr len : Nat) (w : Option (List Byte)) (s : State) : State := holdTxn l .block addr len w s

/-- What an interface that does not reach the node is answered (R607, R703): local bus retry, SPI zeros, PCI Express all
ones during a node reset. -/
def closedAnswer (i : Iface) (len : Nat) (w : Option (List Byte)) (s : State) : State :=
  match i with
  | .lb => if s.sys.powered then emit (.lbAnswer false 0) s else s
  | .spi => if s.sys.powered && w.isNone then emit (.readData .spi (List.replicate len 0)) s else s
  | .pcie =>
    if s.sys.resetHold && !s.sys.perst && w.isNone then emit (.readData .pcie (List.replicate len 0xFF)) s else s
  | _ => s

/-- R525: an access that SPI does not reach is counted, a read of it returns 0. -/
def refusedAnswer (i : Iface) (len : Nat) (w : Option (List Byte)) (s : State) : State :=
  match i with
  | .spi =>
    let s1 := { s with bridge := { s.bridge with ctr := ctrInc s.bridge.ctr 5 } }
    if w.isNone then emit (.readData .spi (List.replicate len 0)) s1 else s1
  | _ => s

/-- An access of `len` bytes by an interface. A locked pair's transaction enters its hold buffer; a split pair's passes
at once while one of its cores runs (R380); a pair that is halted, fenced or held in reset issues none. -/
def accessBy (src : Iface) (addr len : Nat) (w : Option (List Byte)) (f : State → State) (s : State) : State :=
  if !ifaceOpen src s then closedAnswer src len w s
  else if !reaches src addr s then refusedAnswer src len w s
  else match src with
    | .pair l =>
      let p := pairOf s l.val
      if p.halted then s
      else if pairLocked p then holdAccess l.val addr len w s
      else if pairSplit p && p.stopped.any (fun b => !b) then f s
      else s
    | _ => f s

/-- A 32-bit register access as a command: a write with its value, or a read. -/
def hostAccess (dt : Nat) (src : Iface) (addr : Nat) (w : Option (BitVec 32)) (f : State → State) (s : State) : State :=
  accessBy src addr 4 (w.map (fun v => leBytes 4 v.toNat)) f (begin_ dt s)

end Sys2Proof.Machine
end

