-- ==== Sys2Proof/Machine/Can.lean ====
section
/-! DEFINITION. CAN FD channels: objects, requests, arbitration, reception, errors and modes (R394–R434, R444–R451). -/

namespace Sys2Proof.Machine

/-! ## Storage -/

/-- A message object of zeros (R449). -/
def canObjZero : CanObj where
  id := 0
  ide := false
  rtr := false
  dlc := 0
  fdf := false
  brs := false
  esi := false
  tx := false
  en := false
  claim := false
  svc := 0
  link := 0
  filter := 0
  new := false
  lost := false
  cancelled := false
  tooLate := false
  limit := false
  withheld := false
  linkFlow := 0
  linkOff := 0
  vector := 0
  dest := 0
  ts := 0
  data := List.replicate 64 0

/-- R449: a buffer of zeros but for DEST. -/
def canHpbZero : CanObj := { canObjZero with dest := 7 }

/-- The object or buffer of a slot. -/
def canSlotGet (ch : Can) : CanSlot → CanObj
  | .obj i => (tblGet ch.objs i.val).getD canObjZero
  | .hpb b => (tblGet ch.hpbs b.val).getD canHpbZero

/-- The object or buffer of a slot, changed. -/
def canSlotMod (o : CanSlot) (f : CanObj → CanObj) (ch : Can) : Can :=
  match o with
  | .obj i => { ch with objs := tblSet ch.objs i.val (f (canSlotGet ch o)) }
  | .hpb b => { ch with hpbs := tblSet ch.hpbs b.val (f (canSlotGet ch o)) }

/-- Every slot, buffers first: the order in which frames that would tie are taken (R419). -/
def canSlots : List CanSlot := (List.finRange 8).map .hpb ++ (List.finRange 128).map .obj

/-- A slot's number among objects (0–127), then buffers. -/
def canSlotNo : CanSlot → Nat
  | .obj i => i.val
  | .hpb b => 128 + b.val

/-- The length in bytes a DLC stands for. -/
def dlcLen (fdf : Bool) (dlc : Nat) : Nat :=
  if dlc ≤ 8 then dlc
  else if !fdf then 8
  else [12, 16, 20, 24, 32, 48, 64].getD (dlc - 9) 64

/-! ## Fields of CAN_CTRL -/

/-- CAN_CTRL bit `n`. -/
def canCtl (ch : Can) (n : Nat) : Bool := ch.ctrl.getLsbD n

/-- CAN_CTRL.MODE. -/
def canMode (ch : Can) : Nat := ch.ctrl.toNat % 8

/-- The mode in effect. -/
def canModeAct (ch : Can) : Nat := ch.modeAct.toNat

/-- R408: the channel takes part in traffic. -/
def canTakesPart (ch : Can) : Bool :=
  canModeAct ch ≠ 0 && canModeAct ch ≠ 6 && !ch.integrating && (match ch.est with | .busOff => false | _ => true)

/-- R407, R409: the modes in which frames are sent. -/
def canSends (ch : Can) : Bool :=
  canTakesPart ch && (canModeAct ch = 1 || canModeAct ch = 4 || canModeAct ch = 5)

/-- Nominal bit time in CAN clocks of 12.5 ns (R402). -/
def canNominalBit (ch : Can) : Nat :=
  (ch.nbt.toNat % 256 + 1) * (1 + (bitsOf ch.nbt.toNat 8 8 + 1) + (bitsOf ch.nbt.toNat 16 7 + 1))

/-- Data bit time in CAN clocks (R402). -/
def canDataBit (ch : Can) : Nat :=
  (ch.dbt.toNat % 32 + 1) * (1 + (bitsOf ch.dbt.toNat 8 5 + 1) + (bitsOf ch.dbt.toNat 16 4 + 1))

/-- R401, R403: the timing with which a channel may leave Config. -/
def canTimingOk (ch : Can) : Bool :=
  let nbrp := ch.nbt.toNat % 256 + 1
  let nt1 := bitsOf ch.nbt.toNat 8 8 + 1
  let nt2 := bitsOf ch.nbt.toNat 16 7 + 1
  let nsjw := bitsOf ch.nbt.toNat 24 7 + 1
  let dt2 := bitsOf ch.dbt.toNat 16 4 + 1
  let dsjw := bitsOf ch.dbt.toNat 24 4 + 1
  let nb := canNominalBit ch
  let db := canDataBit ch
  2 ≤ nt1 && 2 ≤ nt2 && (!(canCtl ch 7) || 3 ≤ nt1) &&
  80 ≤ nb && nb ≤ 8000 && 10 ≤ db && db ≤ 160 && db ≤ nb &&
  nsjw ≤ nt2 && 6 ≤ nbrp * (nt2 - nsjw) && dsjw ≤ dt2 &&
  (!(canCtl ch 5 && db < 80) || canCtl ch 8)

/-! ## Interrupts (R444, R446) -/

/-- An interrupt on a destination: host, logical pair 0–3, or none. -/
def canInterrupt (vector : Byte) (dest : BitVec 3) (s : State) : State :=
  match dest.toNat with
  | 0 => raiseVector (vector.setWidth 5) s
  | 1 => emit (.pairIrq 0 vector) s
  | 2 => emit (.pairIrq 1 vector) s
  | 3 => emit (.pairIrq 2 vector) s
  | 4 => emit (.pairIrq 3 vector) s
  | _ => s

/-- A bit of CAN_IRQ_STAT sets; its interrupt is raised where enabled. -/
def canIrq (c bit : Nat) (s : State) : State :=
  let s1 := modCan c (fun ch => { ch with irqStat := ch.irqStat ||| (1#12 <<< bit) }) s
  let ch := canOf s1 c
  if ch.irqEn.getLsbD bit then canInterrupt ch.irqVector ch.irqDest s1 else s1

/-- R446: a buffer's own interrupt. -/
def canHpbIrq (_c : Nat) (o : CanObj) (s : State) : State := canInterrupt o.vector o.dest s

/-- A counter of the channel counts. -/
def canCount (c i : Nat) (s : State) : State := modCan c (fun ch => { ch with ctr := ctrInc ch.ctr i }) s

/-! ## Selection (R419) -/

/-- The order of arbitration on the bus: the lower key wins (ISO 11898-1). -/
def canArbKey (o : CanObj) : Nat :=
  let base := o.id.toNat / 2 ^ 18
  if o.ide then base * 2 ^ 21 + 2 ^ 20 + 2 ^ 19 + o.id.toNat % 2 ^ 18 * 2 + b2n (o.rtr && !o.fdf)
  else base * 2 ^ 21 + b2n (o.rtr && !o.fdf) * 2 ^ 20

/-- A slot has a pending request. -/
def canIsPending (ch : Can) (o : CanSlot) : Bool := ch.pending.any (fun r => r.slot == o)

/-- The pending slot whose frame would win arbitration; between ties a buffer first, then the lower index. -/
def canSelect (ch : Can) : Option CanSlot :=
  (canSlots.filter (canIsPending ch)).foldl (fun best o =>
    match best with
    | none => some o
    | some b => if canArbKey (canSlotGet ch o) < canArbKey (canSlotGet ch b) then some o else some b) none

/-- Columns of the active matrix. -/
def canCols (m : CanMatrix) : Nat := m.cols.toNat

/-- Rows of a matrix. -/
def canRows (m : CanMatrix) : Nat := 2 ^ m.rowsLog2.toNat

/-- The cell at a row and column. -/
def canCell (m : CanMatrix) (row col : Nat) : CanCell :=
  (tblGet m.cells (64 * row + col)).getD { index := 0, hpb := false, kind := 0 }

/-- The slot a cell names. -/
def canCellSlot (x : CanCell) : CanSlot :=
  if x.hpb then .hpb ⟨x.index.toNat % 8, Nat.mod_lt _ (by decide)⟩
  else .obj ⟨x.index.toNat, by have := x.index.isLt; simpa using this⟩

/-- A matrix is in use: a role other than Off in the active copy. -/
def canMatrixOn (ch : Can) : Bool := ch.active.role ≠ 0

/-- The cells of the rows and columns in use. -/
def canCellsUsed (m : CanMatrix) : List CanCell :=
  (m.cells.filter (fun e => e.1 / 64 < canRows m && e.1 % 64 < canCols m)).map (fun e => e.2)

/-- R417: an exclusive cell of the active matrix names the slot. -/
def canNamedExclusive (ch : Can) (o : CanSlot) : Bool :=
  canMatrixOn ch && (canCellsUsed ch.active).any (fun x => x.kind == 1 && canCellSlot x == o)

/-- R421: a cell of the active matrix names the slot. -/
def canNamedByCell (ch : Can) (o : CanSlot) : Bool :=
  canMatrixOn ch && (canCellsUsed ch.active).any (fun x => x.kind ≠ 0 && canCellSlot x == o)

/-! ## Starting a frame -/

/-- R416: a start-of-frame timestamp, within 12 ns of the node's own count (the CAN clock's phase is left open). -/
def canStamp (s : State) : BitVec 30 × State :=
  let (x, s1) := takeFree 25 s
  (BitVec.ofNat 30 ((nsField s.now + 999999988 + x) % 1000000000), s1)

/-- The front end takes a slot's start-of-frame. -/
def canStart (c : Nat) (o : CanSlot) (exclusive : Bool) (s : State) : State :=
  let (ts, s1) := canStamp s
  modCan c (fun ch => { ch with tx := .slot o false false exclusive, act := 3, sofNs := ts })
    (emit (.canData ⟨c % 12, Nat.mod_lt _ (by decide)⟩ o) s1)

/-- R436: the front end takes the reference message; late when the bus was busy at the instant. -/
def canStartRef (c : Nat) (late : Bool) (s : State) : State :=
  let row := (canOf s c).row
  let (ts, s1) := canStamp s
  let s2 := modCan c (fun ch => { ch with tx := .reference row, act := 3, sofNs := ts, refWait := false,
                                          ctr := if late then ctrInc ch.ctr 13 else ch.ctr }) s1
  emit (.canReference ⟨c % 12, Nat.mod_lt _ (by decide)⟩ row) s2

/-- The bus is idle and nothing is being sent. -/
def canIdle (ch : Can) : Bool := ch.act == 1 && ch.tx == .none

/-- The claim gate of a slot lets it send (R424). -/
def canGated (x : CanObj) (s : State) : Bool := x.claim && !(canGateOpen x.svc.toNat s)

/-- A request removed. -/
def canDrop (o : CanSlot) (ch : Can) : Can := { ch with pending := ch.pending.filter (fun r => r.slot ≠ o) }

/-- R437: a reference behind a closed gate that has not started is not sent, and the channel runs as slave. -/
def canRefWithhold (c : Nat) (s : State) : State :=
  let ch := canOf s c
  let started := match ch.tx with | .reference _ => true | _ => false
  if ch.refDue && !started && ch.active.refClaim && !(canGateOpen ch.active.refSvc.toNat s) then
    modCan c (fun ch => { ch with
      slaveAct := true, refDue := false, refWait := false, running := false, window := none, lastRefClk := s.clk }) s
  else s

/-- R426: the gates of the channel judged anew: every pending request of a closed gate whose start-of-frame is not
sent is withheld; a frame already started is not retried. -/
def canWithhold (c : Nat) (s0 : State) : State :=
  let s := canRefWithhold c s0
  let ch := canOf s c
  let closed (o : CanSlot) : Bool := canGated (canSlotGet ch o) s
  let started (o : CanSlot) : Bool := match ch.tx with | .slot o' _ _ _ => o' == o | _ => false
  let out := ch.pending.filter (fun r => closed r.slot && !started r.slot)
  let s1 := forEach out (fun r s => modCan c (fun ch => canSlotMod r.slot (fun y => { y with withheld := true })
    { canDrop r.slot ch with ctr := ctrInc ch.ctr 10 }) s) s
  match ch.tx with
  | .slot o tl _ ex => if closed o then modCan c (fun ch => { ch with tx := .slot o tl true ex }) s1 else s1
  | _ => s1

/-- An exclusive window's frame is handed over, unless its gate has closed since the window opened (R39, R439). -/
def canOfferExclusive (c col : Nat) (o : CanSlot) (s : State) : State :=
  if canGated (canSlotGet (canOf s c) o) s then modCan c (fun ch => { ch with window := none, ctr := ctrInc ch.ctr 10 }) s
  else modCan c (fun ch => { ch with window := some (col, true) }) (canStart c o true s)

/-- The frame R419 selects starts. -/
def canOfferPending (c : Nat) (s : State) : State :=
  match canSelect (canOf s c) with
  | some o => canStart c o false s
  | none => s

/-- An arbitration opportunity: the reference that is due and nothing else, late where it starts only now (R436); an
exclusive window's frame not yet handed over, or the frame R419 selects inside an arbitrating window (R439, R440); without a
matrix, the frame R419 selects. What a closed gate withholds is withdrawn first (R39, R426). A matrix in use between its
basic cycles, as that of a slave without a reference, gives no opportunity (DESIGN CHOICE, log 23). -/
def canOffer (c : Nat) (s0 : State) : State :=
  let s := canWithhold c s0
  let ch := canOf s c
  if !(canSends ch) || !(canIdle ch) then s
  else if ch.refDue then canStartRef c ch.refWait s
  else if canMatrixOn ch then
    match ch.window with
    | some (col, handed) =>
      let x := canCell ch.active ch.row col
      if x.kind == 1 && !handed then canOfferExclusive c col (canCellSlot x) s
      else if x.kind == 2 then canOfferPending c s
      else s
    | none => s
  else canOfferPending c s

/-! ## Requests (R417, R425) -/

/-- One request of a slot. -/
def canRequest (c : Nat) (o : CanSlot) (s : State) : State :=
  let ch := canOf s c
  let x := canSlotGet ch o
  if !x.en || !x.tx then s
  else if x.fdf && !(canCtl ch 4) then modCan c (fun ch => { ch with cfgErr := true }) s
  else if canNamedExclusive ch o then s
  else if canGated x s then
    modCan c (fun ch => canSlotMod o (fun y => { y with withheld := true }) { ch with ctr := ctrInc ch.ctr 10 }) s
  else if canIsPending ch o then s
  else modCan c (fun ch => { ch with pending := ch.pending ++ [{ slot := o, unacks := 0 }] }) s

/-- R428: one cancellation. -/
def canCancel (c : Nat) (o : CanSlot) (s : State) : State :=
  let ch := canOf s c
  match ch.tx with
  | .slot o' _ nr ex =>
    if o' = o then
      canIrq c 11 (modCan c (fun ch => canSlotMod o (fun y => { y with tooLate := true })
        { ch with tx := .slot o' true nr ex }) s)
    else if canIsPending ch o then
      canIrq c 9 (modCan c (fun ch => canSlotMod o (fun y => { y with cancelled := true }) (canDrop o ch)) s)
    else s
  | _ =>
    if canIsPending ch o then
      canIrq c 9 (modCan c (fun ch => canSlotMod o (fun y => { y with cancelled := true }) (canDrop o ch)) s)
    else s

/-! ## Error state (R430) -/

/-- The error state TEC and REC stand for. -/
def canEState (ch : Can) : EState :=
  match ch.est with
  | .busOff => .busOff
  | _ => if 128 ≤ ch.tec || ch.rp then .passive else .active

/-- ESTATE's code. -/
def estCode : EState → Nat
  | .active => 0
  | .passive => 1
  | .busOff => 2

/-- ESTATE follows the counters; every change raises CAN_STATE and its interrupt. -/
def canSetEState (c : Nat) (e : EState) (s : State) : State :=
  if (canOf s c).est = e then s
  else
    let s1 := modCan c (fun ch => { ch with est := e }) s
    let ch := canOf s1 c
    canIrq c 4 (raise 0x0801 (leBytes 1 c ++ leBytes 1 (estCode e) ++ leBytes 1 ch.tec ++ leBytes 1 ch.recc) s1)

/-- ESTATE judged after a change of the counters. -/
def canJudge (c : Nat) (s : State) : State := canSetEState c (canEState (canOf s c)) s

/-- R433: entry to bus-off. -/
def canBusOff (c : Nat) (s : State) : State :=
  let s1 := modCan c (fun ch => { ch with
    tec := 255, act := 0, tx := .none, recovCnt := 0, ctr := ctrInc ch.ctr 4
    recovPend := !(canCtl ch 9), recovering := canCtl ch 9 }) s
  canIrq c 5 (canSetEState c .busOff s1)

/-- R430: TEC raised by `n` (the amounts are ISO 11898-1's: PRESUMED, log 30). -/
def canTecInc (c n : Nat) (s : State) : State :=
  if 255 < (canOf s c).tec + n then canBusOff c s
  else canJudge c (modCan c (fun ch => { ch with tec := ch.tec + n }) s)

/-- R430: REC raised by `n`. -/
def canRecInc (c n : Nat) (s : State) : State :=
  canJudge c (modCan c (fun ch =>
    if 127 < ch.recc + n then { ch with recc := 127, rp := true } else { ch with recc := ch.recc + n }) s)

/-- R430, ISO 11898-1: a successful reception. -/
def canRecOk (c : Nat) (s : State) : State :=
  canJudge c (modCan c (fun ch =>
    if ch.rp then { ch with recc := 120, rp := false } else { ch with recc := ch.recc - 1 }) s)

/-! ## Modes (R407–R410) -/

/-- A mode takes effect. -/
def canApplyMode (c m : Nat) (s : State) : State :=
  modCan c (fun ch =>
    let off := m = 0 || m = 6
    let wasOff := canModeAct ch = 0 || canModeAct ch = 6
    { ch with
      modeAct := BitVec.ofNat 3 m
      modeNext := none
      integrating := if off then false else if wasOff then true else ch.integrating
      act := if off || wasOff then 0 else ch.act
      tx := if off then .none else ch.tx }) s

/-- The end of a frame: the bus is idle again, a waiting change of mode takes effect (R409), and the channel offers. -/
def canFrameEnd (c : Nat) (s : State) : State :=
  let s1 := modCan c (fun ch => { ch with
    tx := .none
    act := match ch.est with | .busOff => 0 | _ => if ch.integrating then 0 else 1 }) s
  canOffer c (match (canOf s1 c).modeNext with
    | some m => canApplyMode c m.toNat s1
    | none => s1)

/-- R407, R403: a write of CAN_CTRL. Outside Config the other fields stand, and a write that would change them sets
CFG_ERR; a mode the timing forbids, and the undefined code 7, are refused with CFG_ERR (DEDUCED, log 23). A change waits for
the end of a frame in which the channel takes part, and the mode in effect written takes it back (R409). -/
def canWriteCtrl (c : Nat) (busy : Bool) (v : BitVec 32) (s : State) : State :=
  let ch := canOf s c
  let v := v &&& 0x3FF7
  let m := v.toNat % 8
  let inConfig := canModeAct ch = 0
  let rest : BitVec 32 := if inConfig then v &&& 0x3FF0 else ch.ctrl &&& 0x3FF0
  let refusedRest := !inConfig && (v &&& 0x3FF0) ≠ (ch.ctrl &&& 0x3FF0)
  let ch1 := { ch with ctrl := rest ||| (ch.ctrl &&& 7) }
  let refusedMode := m = 7 || (inConfig && m ≠ 0 && !(canTimingOk ch1))
  let s1 := modCan c (fun _ => { ch1 with
    ctrl := if refusedMode then ch1.ctrl else rest ||| BitVec.ofNat 32 m
    cfgErr := ch.cfgErr || refusedRest || refusedMode }) s
  if refusedMode then s1
  else if m = canModeAct ch then modCan c (fun ch => { ch with modeNext := none }) s1
  else if canTakesPart ch && (busy || 2 ≤ ch.act.toNat) then
    modCan c (fun ch => { ch with modeNext := some (BitVec.ofNat 3 m) }) s1
  else canOffer c (canApplyMode c m s1)

/-! ## Sending ends -/

/-- R405, R406: the delay measured in a frame with bit rate switching. -/
def canMeasure (x : CanObj) (tdcv : Option Nat) (ch : Can) : Can :=
  match tdcv with
  | none => ch
  | some d =>
    if x.fdf && x.brs && canCtl ch 5 && canCtl ch 8 then
      let beyond := 4 * canDataBit ch ≤ d + ch.tdco.toNat || 127 < d + ch.tdco.toNat
      { ch with tdcv := BitVec.ofNat 7 (min d 127), ctr := if beyond then ctrInc ch.ctr 11 else ch.ctr }
    else ch

/-- A frame sent without error: DONE, the timestamp, TEC, TXOK. -/
def canTxComplete (c : Nat) (tdcv : Option Nat) (s : State) : State :=
  let ch := canOf s c
  match ch.tx with
  | .none => s
  | .reference _ =>
    canFrameEnd c (canIrq c 7 (canJudge c (modCan c (fun ch => { ch with
      refDue := false, tec := ch.tec - 1, ctr := ctrInc ch.ctr 0 }) s)))
  | .slot o _ _ _ =>
    let s1 := modCan c (fun ch =>
      canMeasure (canSlotGet ch o) tdcv (canSlotMod o (fun y => { y with ts := ch.sofNs })
        { canDrop o ch with tec := ch.tec - 1, ctr := ctrInc ch.ctr 0 })) s
    let s2 := match o with
      | .obj i => canIrq c 0 (modCan c (fun ch => { ch with done := ch.done ||| (1#128 <<< i.val) }) s1)
      | .hpb b => canHpbIrq c (canSlotGet ch o) (modCan c (fun ch => { ch with hpbDone := ch.hpbDone ||| (1#8 <<< b.val) }) s1)
    canFrameEnd c (canJudge c s2)

/-- R428, R426: an attempt ended without success: a request cancelled too late is withdrawn with CANCELLED, one whose
gate closed is withdrawn, any other stays pending (R420). -/
def canAttemptLost (c : Nat) (s : State) : State :=
  match (canOf s c).tx with
  | .slot o true _ _ =>
    canIrq c 9 (modCan c (fun ch => canSlotMod o (fun y => { y with cancelled := true }) (canDrop o ch)) s)
  | .slot o false true _ => modCan c (canDrop o) s
  | _ => s

/-- R420: arbitration lost; the channel receives the winner. -/
def canArbLost (c : Nat) (s : State) : State :=
  match (canOf s c).tx with
  | .none => s
  | _ => modCan c (fun ch => { ch with tx := .none, act := 2, ctr := ctrInc ch.ctr 2 }) (canAttemptLost c s)

/-! ## Reception (R412–R414) -/

/-- R412: a filter decides for a frame. -/
def canMatches (ft : CanFilter) (f : CanFrame) : Bool :=
  ft.en && ft.ide == f.ide &&
  (if f.ide then (ft.fid ^^^ f.id) &&& ft.mask == 0
   else ((ft.fid ^^^ f.id) &&& ft.mask).toNat / 2 ^ 18 == 0)

/-- R446: HITS is a counter of 31 bits. -/
def hitInc (h : Sat) : Sat := if h.n = 0x7FFFFFFF then { h with ovf := true } else { h with n := h.n + 1 }

/-- The frame stored in an object: data, header, filter, timestamp and NEW. -/
def canStore (f : CanFrame) (filter : Nat) (x : CanObj) : CanObj :=
  { x with
    id := f.id, ide := f.ide, rtr := f.rtr, dlc := f.dlc, fdf := f.fdf, brs := f.brs, esi := f.esi
    data := if f.rtr then x.data else (f.data.take 64) ++ x.data.drop (f.data.take 64).length
    filter := BitVec.ofNat 6 filter
    new := true
    ts := f.ts }

/-- A channel whose slot takes a frame in: it counts as new for the link (R422) and for its receive check (R439). -/
def canTakeIn (o : CanSlot) (f : CanFrame) (filter : Nat) (ch : Can) : Can :=
  canSlotMod o (canStore f filter) { ch with
    rxSet := if ch.rxSet.contains (canSlotNo o) then ch.rxSet else ch.rxSet ++ [canSlotNo o]
    rxCheck := ch.rxCheck.filter (fun k => k.1 ≠ canSlotNo o) }

/-- R413: a frame for an object or buffer, LOST where NEW was set. -/
def canToSlot (c : Nat) (o : CanSlot) (f : CanFrame) (filter : Nat) (s : State) : State :=
  let ch := canOf s c
  let x := canSlotGet ch o
  if !x.en || x.tx then canCount c 6 s
  else
    let s1 := modCan c (fun ch => canTakeIn o f filter (canSlotMod o (fun y => { y with lost := y.lost || y.new })
      { ch with ctr := if x.new then ctrInc ch.ctr 6 else ch.ctr })) s
    match o with
    | .obj _ => canIrq c 1 s1
    | .hpb _ => canHpbIrq c x s1

/-- R414: the FIFO object `k` places after the head. -/
def canFifoAt (ch : Can) (k : Nat) : CanSlot :=
  let d := max 1 ch.fifoDepth.toNat
  let i := ch.fifoBase.toNat + (ch.fifoHead.toNat - ch.fifoBase.toNat + k) % d
  .obj ⟨i % 128, Nat.mod_lt _ (by decide)⟩

/-- The head moves on by one place in the run. -/
def canHeadNext (ch : Can) : BitVec 7 := BitVec.ofNat 7 (canSlotNo (canFifoAt ch 1))

/-- R414: a frame for the FIFO. An object of the run takes it whatever it was set up for, and LOST is R413's alone
(DESIGN CHOICE, log 23). -/
def canToFifo (c : Nat) (f : CanFrame) (filter : Nat) (s : State) : State :=
  let ch := canOf s c
  if ch.fifoLevel.toNat < ch.fifoDepth.toNat then
    canIrq c 2 (modCan c (fun ch => canTakeIn (canFifoAt ch ch.fifoLevel.toNat) f filter
      { ch with fifoLevel := ch.fifoLevel + 1 }) s)
  else if canCtl ch 10 && ch.fifoDepth ≠ 0 then
    canIrq c 3 (canIrq c 2 (modCan c (fun ch => canTakeIn (canFifoAt ch 0) f filter
      { ch with fifoHead := canHeadNext ch, ctr := ctrInc ch.ctr 5 }) s))
  else canIrq c 3 (canCount c 5 s)

/-- R412: where a frame goes. Of the INDEX of a buffer bits [2:0] count (DESIGN CHOICE, log 23). -/
def canFilter (c : Nat) (f : CanFrame) (s : State) : State :=
  let ch := canOf s c
  match ch.filters.find? (fun e => canMatches e.2 f) with
  | some (i, ft) =>
    let s1 := modCan c (fun ch => { ch with filters := tblSet ch.filters i { ft with hits := hitInc ft.hits } }) s
    match ft.kind.toNat with
    | 0 => canToSlot c (.obj ⟨ft.index.toNat, by have := ft.index.isLt; simpa using this⟩) f i s1
    | 1 => canToFifo c f i s1
    | 2 => canToSlot c (.hpb ⟨ft.index.toNat % 8, Nat.mod_lt _ (by decide)⟩) f i s1
    | _ => s1
  | none => if canCtl ch 11 then canToFifo c f 0 s else s

/-- R427: the frame carries an identifier of a claim-gated transmit object or buffer. -/
def canForeign (ch : Can) (f : CanFrame) : Bool :=
  (ch.objs ++ ch.hpbs).any (fun e => e.2.en && e.2.tx && e.2.claim && e.2.ide == f.ide &&
    (if f.ide then e.2.id == f.id else e.2.id.toNat / 2 ^ 18 == f.id.toNat / 2 ^ 18))

/-- R338: what the twin logic does with a foreign frame. -/
def canForeignGuard (s : State) : State :=
  let active := match s.twin.role with | .active => true | _ => false
  if s.twin.configured && active && !s.twin.preferred && !s.twin.frameSince then
    let s1 := { s with twin := { s.twin with canStop := true, foreignStop := true, ctr := ctrInc s.twin.ctr 7 } }
    forEach (List.range 12) canWithhold s1
  else s

/-- A frame completed without error. -/
def canReceive (c : Nat) (f : CanFrame) (own : Bool) (s : State) : State :=
  let ch := canOf s c
  let loop := canModeAct ch = 4 || canModeAct ch = 5
  if !(canTakesPart ch) || (own && !loop) then s
  else
    let s1 := canCount c 1 s
    let s2 := if canModeAct ch = 3 then s1 else canRecOk c s1
    let s3 := canFilter c f s2
    let s4 := if !own && canForeign ch f then canForeignGuard (modCan c (fun ch => { ch with foreign := true }) s3) else s3
    if own then s4 else canFrameEnd c s4

/-! ## Errors (R430–R433) -/

/-- LEC and DLEC codes. -/
def canErrCode : CanErrKind → Nat
  | .stuff => 1
  | .form => 2
  | .ack => 3
  | .bit1 => 4
  | .bit0 => 5
  | .crc => 6

/-- R432: an acknowledgement error of the frame being sent. -/
def canAckError (c : Nat) (s : State) : State :=
  let ch := canOf s c
  let s1 := canCount c 3 s
  match ch.tx with
  | .slot o _ _ _ =>
    let s2 := modCan c (fun ch => { ch with
      pending := ch.pending.map (fun r => if r.slot = o then { r with unacks := r.unacks + 1 } else r) }) s1
    let n := ((canOf s2 c).pending.find? (fun r => r.slot == o)).elim 0 (fun r => r.unacks)
    if ch.unackN ≠ 0 && ch.unackN.toNat ≤ n then
      canIrq c 10 (modCan c (fun ch => canSlotMod o (fun y => { y with limit := true }) (canDrop o ch)) s2)
    else s2
  | _ => s1

/-- Errors other than of acknowledgement break a run of acknowledgement errors. -/
def canUnackRestart (c : Nat) (s : State) : State :=
  match (canOf s c).tx with
  | .slot o _ _ _ => modCan c (fun ch => { ch with
      pending := ch.pending.map (fun r => if r.slot = o then { r with unacks := 0 } else r) }) s
  | _ => s

/-- R430, ISO 11898-1: what an error adds to the transmitter's count (PRESUMED, log 30). -/
def canTecStep (e : CanError) : Nat := (if e.arbStuff then 0 else 8) + 8 * e.runs

/-- R430, ISO 11898-1: what an error adds to a receiver's count (PRESUMED, log 30). -/
def canRecStep (e : CanError) : Nat := (if e.inFlag then 8 else 1) + (if e.afterFlag then 8 else 0) + 8 * e.runs

/-- A protocol error, or a protocol exception. -/
def canError (c : Nat) (e : CanError) (s : State) : State :=
  let ch := canOf s c
  if !(canTakesPart ch) then s
  else if e.protocolException && !(canCtl ch 6) then
    canFrameEnd c (modCan c (fun ch => { ch with integrating := true, ctr := ctrInc ch.ctr 12 }) s)
  else
    let code : BitVec 3 := if e.protocolException then 2 else BitVec.ofNat 3 (canErrCode e.kind)
    let s1 := modCan c (fun ch => if e.dataPhase then { ch with dlec := code } else { ch with lec := code }) s
    let isAck := e.kind == .ack && !e.protocolException
    let mine := e.transmitting && !(ch.tx == .none)
    let s2 := if mine then (if isAck then canAckError c s1 else canUnackRestart c s1) else s1
    let s3 := if mine then canAttemptLost c s2 else s2
    let exempt := isAck && (match ch.est with | .passive => true | _ => false) && !e.dominantSeen
    let s4 :=
      if canModeAct ch = 3 then s3
      else if mine then (if exempt then s3 else canTecInc c (canTecStep e) s3)
      else canRecInc c (canRecStep e) s3
    canFrameEnd c s4

/-- R433: `occ` occurrences of 11 recessive bits have been counted; the 128th ends recovery. -/
def canRecovered (c occ : Nat) (s : State) : State :=
  let ch := canOf s c
  if ch.recovering && canModeAct ch ≠ 0 && canModeAct ch ≠ 6 then
    if occ < 128 then modCan c (fun ch => { ch with recovCnt := max ch.recovCnt occ }) s
    else
      let s1 := modCan c (fun ch => { ch with
        tec := 0, recc := 0, rp := false, recovering := false, recovPend := false, recovCnt := 128
        integrating := false, act := 1 }) s
      canOffer c (canIrq c 6 (canSetEState c .active s1))
  else s

/-! ## Object and filter words (R445, R446) -/

/-- The 32-bit words 0 to 3 and the data words of an object or buffer. -/
def canObjWord (isHpb : Bool) (x : CanObj) (w : Nat) : Nat :=
  match w with
  | 0 => packFields [(0, 29, x.id.toNat), (29, 1, b2n x.ide), (30, 1, b2n x.rtr)]
  | 1 => packFields [(0, 4, x.dlc.toNat), (4, 1, b2n x.fdf), (5, 1, b2n x.brs), (6, 1, b2n x.esi), (7, 1, b2n x.tx),
      (8, 1, b2n x.en), (9, 1, b2n x.claim), (10, 4, x.svc.toNat), (14, 2, x.link.toNat), (16, 6, x.filter.toNat),
      (24, 1, b2n x.new), (25, 1, b2n x.lost), (26, 1, b2n x.cancelled), (27, 1, b2n x.tooLate),
      (28, 1, b2n x.limit), (29, 1, b2n x.withheld)]
  | 2 => if isHpb then packFields [(0, 8, x.vector.toNat), (8, 3, x.dest.toNat)]
         else packFields [(0, 9, x.linkFlow.toNat), (11, 11, x.linkOff.toNat)]
  | 3 => x.ts.toNat
  | w => fieldAt x.data (4 * (w - 4)) 4

/-- The header and data fields of a word as written; TS_NS and FILTER are read-only. -/
def canObjSet (isHpb : Bool) (w v : Nat) (x : CanObj) : CanObj :=
  match w with
  | 0 => { x with id := BitVec.ofNat 29 v, ide := v.testBit 29, rtr := v.testBit 30 }
  | 1 => { x with
      dlc := BitVec.ofNat 4 v, fdf := v.testBit 4, brs := v.testBit 5, esi := v.testBit 6, tx := v.testBit 7
      en := v.testBit 8, claim := v.testBit 9, svc := BitVec.ofNat 4 (bitsOf v 10 4)
      link := BitVec.ofNat 2 (bitsOf v 14 2) }
  | 2 => if isHpb then { x with vector := BitVec.ofNat 8 v, dest := BitVec.ofNat 3 (bitsOf v 8 3) }
         else { x with linkFlow := BitVec.ofNat 9 v, linkOff := BitVec.ofNat 11 (bitsOf v 11 11) }
  | 3 => x
  | w => { x with data := x.data.take (4 * (w - 4)) ++ leBytes 4 v ++ x.data.drop (4 * (w - 4) + 4) }

/-- The W1C status bits of word 1. -/
def canObjW1c (v : Nat) (x : CanObj) : CanObj :=
  { x with
    new := x.new && !(v.testBit 24), lost := x.lost && !(v.testBit 25)
    cancelled := x.cancelled && !(v.testBit 26), tooLate := x.tooLate && !(v.testBit 27)
    limit := x.limit && !(v.testBit 28), withheld := x.withheld && !(v.testBit 29) }

/-- R423: a link's conditions on the flow context it names. -/
def canLinkOk (isHpb : Bool) (x : CanObj) (s : State) : Bool :=
  match x.link.toNat with
  | 0 => true
  | 3 => false
  | k =>
    !isHpb &&
    (match tblGet s.flow.ctx x.linkFlow.toNat with
     | some f => f.enable && f.produce && x.linkOff.toNat + 64 ≤ f.len.toNat &&
         (k = 1 || (classPair f.svc.toNat s).isNone)
     | none => false)

/-- A slot is a buffer. -/
def canIsHpb : CanSlot → Bool
  | .hpb _ => true
  | .obj _ => false

/-- R418, R423, R445: a word of an object or buffer written. -/
def canObjWrite (c : Nat) (o : CanSlot) (w : Nat) (v : BitVec 32) (s : State) : State :=
  let ch := canOf s c
  let x := canSlotGet ch o
  let locked := x.tx && canIsPending ch o
  let y := if locked then x else canObjSet (canIsHpb o) w v.toNat x
  let z := if w = 1 then canObjW1c v.toNat y else y
  if (w = 1 || w = 2) && !(canLinkOk (canIsHpb o) y s) then
    modCan c (fun ch => canSlotMod o (fun x => if w = 1 then canObjW1c v.toNat x else x) { ch with cfgErr := true }) s
  else modCan c (canSlotMod o (fun _ => z)) s

/-- The 80 bytes of an object or buffer (R445). -/
def canObjBytes (o : CanSlot) (x : CanObj) : List Byte :=
  leBytes 4 (canObjWord (canIsHpb o) x 0) ++ leBytes 4 (canObjWord (canIsHpb o) x 1) ++
  leBytes 4 (canObjWord (canIsHpb o) x 2) ++ leBytes 4 (canObjWord (canIsHpb o) x 3) ++ padTo 64 x.data

/-- R415: word 0 latches the 80 bytes for the reading interface. -/
def canLatch (c : Nat) (o : CanSlot) (i : Iface) (s : State) : State :=
  let bs := canObjBytes o (canSlotGet (canOf s c) o)
  modCan c (fun ch => { ch with
    shadows := (ch.shadows.filter (fun e => !(e.1 == i && e.2.1 == o))) ++ [(i, o, bs)] }) s

/-- R415: the shadow an interface reads; zeros before its first latch (R12). -/
def canShadow (ch : Can) (o : CanSlot) (i : Iface) : List Byte :=
  ((ch.shadows.find? (fun e => e.1 == i && e.2.1 == o)).map (fun e => e.2.2)).getD (List.replicate 80 0)

/-! ## CAN_SAVE, CAN_LOAD and node reset (R447, R450) -/

/-- What CAN_SAVE stores of a channel. -/
def canImage (ch : Can) : CanSaved where
  ctrl := ch.ctrl
  nbt := ch.nbt
  dbt := ch.dbt
  tdco := ch.tdco
  unackN := ch.unackN
  fifoBase := ch.fifoBase
  fifoDepth := ch.fifoDepth
  irqEn := ch.irqEn
  irqVector := ch.irqVector
  irqDest := ch.irqDest
  filters := tblMap (fun _ f => { f with hits := Sat.zero }) ch.filters
  objs := ch.objs.filter (fun e => e.2.tx)
  hpbs := ch.hpbs
  matrix := ch.active

/-- The filters loaded, each keeping the hits counted so far. -/
def canKeepHits (old new : Tbl CanFilter) : Tbl CanFilter :=
  tblMap (fun i f => { f with hits := ((tblGet old i).map (fun g => g.hits)).getD Sat.zero }) new

/-- A saved configuration in a channel that stands in Config; the saved mode takes effect as a write of CAN_CTRL. -/
def canLoadOne (c : Nat) (s : State) : State :=
  match (canOf s c).flash with
  | none => s
  | some f =>
    let s1 := modCan c (fun ch => { ch with
      ctrl := f.ctrl &&& 0xFFFFFFF8#32, nbt := f.nbt, dbt := f.dbt, tdco := f.tdco, unackN := f.unackN
      fifoBase := f.fifoBase, fifoDepth := f.fifoDepth, fifoHead := f.fifoBase, fifoLevel := 0
      irqEn := f.irqEn, irqVector := f.irqVector, irqDest := f.irqDest
      filters := canKeepHits ch.filters f.filters
      objs := f.objs.foldl (fun t e => tblSet t e.1 e.2) ch.objs, hpbs := f.hpbs, active := f.matrix, shadow := f.matrix
      running := false, slaveAct := f.matrix.role = 2, refSpan := f.matrix.role = 2, lastRefClk := s.clk, refDue := false
      window := none, rxCheck := [] }) s
    canWriteCtrl c false f.ctrl s1

/-- R450: the part of a supervisor-commanded node reset that falls to one channel, but for the load of its saved
configuration, which start step 0x6 does (R612). -/
def canNodeReset (c : Nat) (s : State) : State :=
  modCan c (fun ch => { Can.reset with
    ctr := ch.ctr, flash := ch.flash
    filters := (tblMap (fun _ f => { fid := 0, ide := false, en := false, mask := 0, kind := 0, index := 0, hits := f.hits })
      ch.filters).filter (fun e => e.2.hits ≠ Sat.zero) }) s

/-- R447: the channels a mask names. -/
def canMasked (mask : Nat) : List Nat := (List.range 12).filter (fun c => mask.testBit c)

/-- The configuration of the masked channels stored in flash. -/
def canSaveMask (mask : Nat) (s : State) : State :=
  forEach (canMasked mask) (fun c s => modCan c (fun ch => { ch with flash := some (canImage ch) }) s) s

/-- R447. -/
def canSaveSpec : CmdSpec := flashSpec 0x0801 4 ((1, 0xF0) :: zeros 2 3)

/-- CAN_SAVE: queued; the store is the queued work. -/
def canSaveBody (r : Ring) (s : State) : Reply × State := (queued (fieldAt r.req 0 2), s)

/-- R447. -/
def canLoadSpec : CmdSpec := plainSpec 0x0802 4 ((1, 0xF0) :: zeros 2 3)

/-- CAN_LOAD: done where every masked channel is in Config. -/
def canLoadBody (r : Ring) (s : State) : Reply × State :=
  match (canMasked (fieldAt r.req 0 2)).find? (fun c => canModeAct (canOf s c) ≠ 0) with
  | some c => (notInState (canModeAct (canOf s c)), s)
  | none => (done [], forEach (canMasked (fieldAt r.req 0 2)) canLoadOne s)

/-! ## Commands -/

/-- CAN_FRAME_RX (R412). -/
def execCanFrameRx (dt : Nat) (c : Fin 12) (f : CanFrame) (own : Bool) (s : State) : Host.Outcome State Fault Refusal :=
  .next (canReceive c.val f own (begin_ dt s))

/-- CAN_TX_COMPLETE (R405, R419). -/
def execCanTxComplete (dt : Nat) (c : Fin 12) (tdcv : Option Nat) (s : State) : Host.Outcome State Fault Refusal :=
  .next (canTxComplete c.val tdcv (begin_ dt s))

/-- CAN_ARBITRATION_LOST (R420, R428). -/
def execCanArbitrationLost (dt : Nat) (c : Fin 12) (s : State) : Host.Outcome State Fault Refusal :=
  .next (canArbLost c.val (begin_ dt s))

/-- CAN_ERROR (R430). -/
def execCanError (dt : Nat) (c : Fin 12) (e : CanError) (s : State) : Host.Outcome State Fault Refusal :=
  .next (canError c.val e (begin_ dt s))

/-- CAN_RECOVERY_COMPLETE (R433). -/
def execCanRecoveryComplete (dt : Nat) (c : Fin 12) (occ : Fin 129) (s : State) : Host.Outcome State Fault Refusal :=
  .next (canRecovered c.val occ.val (begin_ dt s))

/-- R408: 11 consecutive recessive bits have passed. -/
def canIntegrated (c : Nat) (s : State) : State :=
  let ch := canOf s c
  if ch.integrating && canModeAct ch ≠ 0 && canModeAct ch ≠ 6 then
    canOffer c (modCan c (fun ch => { ch with
      integrating := false, act := match ch.est with | .busOff => 0 | _ => 1 }) s)
  else s

/-- CAN_INTEGRATION_COMPLETE (R408). -/
def execCanIntegrationComplete (dt : Nat) (c : Fin 12) (s : State) : Host.Outcome State Fault Refusal :=
  .next (canIntegrated c.val (begin_ dt s))

/-- CAN_WAKE_PATTERN (R411). -/
def execCanWakePattern (dt : Nat) (c : Fin 12) (s : State) : Host.Outcome State Fault Refusal :=
  let s1 := begin_ dt s
  .next (if canModeAct (canOf s1 c.val) = 6 && canCtl (canOf s1 c.val) 13 then raise 0x0803 (leBytes 1 c.val) s1 else s1)

/-- CAN_MODE_WRITE (R407–R410). -/
def execCanModeWrite (dt : Nat) (c : Fin 12) (src : Iface) (value : BitVec 32) (busy : Bool) (s : State) :
    Host.Outcome State Fault Refusal :=
  .next (hostAccess dt src (canAddr c 0x000) (some value) (canWriteCtrl c.val busy value) s)

/-- The objects a register m of CAN_TXRQ or CAN_TXCAN names. -/
def canMaskSlots (m : Nat) (v : BitVec 32) : List CanSlot :=
  ((List.finRange 128).filter (fun i => i.val / 32 == m && v.getLsbD (i.val % 32))).map .obj

/-- The buffers a byte names. -/
def canMaskHpbs (v : Nat) : List CanSlot := ((List.finRange 8).filter (fun b => v.testBit b.val)).map .hpb

/-- A write of CAN_TXRQm. -/
def canTxrq (c m : Nat) (v : BitVec 32) (s : State) : State :=
  canOffer c (forEach (canMaskSlots m v) (canRequest c) s)

/-- A write of CAN_TXCANm. -/
def canTxcan (c m : Nat) (v : BitVec 32) (s : State) : State := forEach (canMaskSlots m v) (canCancel c) s

/-- A write of CAN_HPB_CTRL: requests, cancellations, and the DONE bits cleared. -/
def canHpbCtrl (c : Nat) (v : BitVec 32) (s : State) : State :=
  let s1 := modCan c (fun ch => { ch with hpbDone := ch.hpbDone &&& ~~~ (BitVec.ofNat 8 (bitsOf v.toNat 16 8)) }) s
  let s2 := forEach (canMaskHpbs (bitsOf v.toNat 8 8)) (canCancel c) s1
  canOffer c (forEach (canMaskHpbs (bitsOf v.toNat 0 8)) (canRequest c) s2)

/-- CAN_TXRQ_WRITE (R417). -/
def execCanTxrqWrite (dt : Nat) (c : Fin 12) (m : Fin 4) (src : Iface) (value : BitVec 32) (s : State) :
    Host.Outcome State Fault Refusal :=
  .next (hostAccess dt src (canAddr c (0x040 + 4 * m.val)) (some value) (canTxrq c.val m.val value) s)

/-- CAN_TXCAN_WRITE (R428). -/
def execCanTxcanWrite (dt : Nat) (c : Fin 12) (m : Fin 4) (src : Iface) (value : BitVec 32) (s : State) :
    Host.Outcome State Fault Refusal :=
  .next (hostAccess dt src (canAddr c (0x050 + 4 * m.val)) (some value) (canTxcan c.val m.val value) s)

/-- CAN_HPB_REQUEST (R417). -/
def execCanHpbRequest (dt : Nat) (c : Fin 12) (src : Iface) (value : BitVec 32) (s : State) :
    Host.Outcome State Fault Refusal :=
  .next (hostAccess dt src (canAddr c 0x070) (some value) (canHpbCtrl c.val value) s)

/-- CAN_HPB_CANCEL (R428). -/
def execCanHpbCancel (dt : Nat) (c : Fin 12) (src : Iface) (value : BitVec 32) (s : State) :
    Host.Outcome State Fault Refusal :=
  .next (hostAccess dt src (canAddr c 0x070) (some value) (canHpbCtrl c.val value) s)

/-- R433: a write of CAN_RECOVER. -/
def canRecoverStart (c : Nat) (v : BitVec 32) (s : State) : State :=
  if v.getLsbD 0 && (canOf s c).recovPend then
    modCan c (fun ch => { ch with recovPend := false, recovering := true, recovCnt := 0 }) s
  else s

/-- CAN_RECOVER_START (R433). -/
def execCanRecoverStart (dt : Nat) (c : Fin 12) (src : Iface) (value : BitVec 32) (s : State) :
    Host.Outcome State Fault Refusal :=
  .next (hostAccess dt src (canAddr c 0x018) (some value) (canRecoverStart c.val value) s)

/-- R414: a write of CAN_FIFO_STAT. -/
def canFifoPop (c : Nat) (v : BitVec 32) (s : State) : State :=
  if v.getLsbD 16 && (canOf s c).fifoLevel ≠ 0 then
    modCan c (fun ch => { ch with fifoHead := canHeadNext ch, fifoLevel := ch.fifoLevel - 1 }) s
  else s

/-- CAN_FIFO_POP (R414). -/
def execCanFifoPop (dt : Nat) (c : Fin 12) (src : Iface) (value : BitVec 32) (s : State) :
    Host.Outcome State Fault Refusal :=
  .next (hostAccess dt src (canAddr c 0x024) (some value) (canFifoPop c.val value) s)

/-- CAN_OBJECT_WORD0_READ (R415). -/
def execCanObjectWord0Read (dt : Nat) (c : Fin 12) (o : CanSlot) (src : Iface) (s : State) :
    Host.Outcome State Fault Refusal :=
  .next (hostAccess dt src (canAddr c (canSlotOff o)) none
    (fun s => emit (.readData src (leBytes 4 (canObjWord (canIsHpb o) (canSlotGet (canOf s c.val) o) 0))) (canLatch c.val o src s)) s)

/-- CAN_OBJECT_WRITE (R418, R423). -/
def execCanObjectWrite (dt : Nat) (c : Fin 12) (o : CanSlot) (word : Fin 20) (src : Iface) (value : BitVec 32) (s : State) :
    Host.Outcome State Fault Refusal :=
  .next (hostAccess dt src (canAddr c (canSlotOff o + 4 * word.val)) (some value) (canObjWrite c.val o word.val value) s)

/-- CAN_SAVE (R447). -/
def execCanSave (dt : Nat) (r : Ring) (s : State) : Host.Outcome State Fault Refusal :=
  .next (submit canSaveSpec canSaveBody dt r s)

/-- CAN_LOAD (R447). -/
def execCanLoad (dt : Nat) (r : Ring) (s : State) : Host.Outcome State Fault Refusal :=
  .next (submit canLoadSpec canLoadBody dt r s)

end Sys2Proof.Machine
end

