-- ==== Sys2Proof/Machine/CanTT.lean ====
section
/-! DEFINITION. The hatch matrix of a CAN channel (R434–R443): basic cycles, references, windows and commits, and the
process-data links of its objects (R421–R423). -/

namespace Sys2Proof.Machine

/-- BC_MACRO: macrocycles of a basic cycle. -/
def canBcMacro (m : CanMatrix) : Nat := m.bcMacro.toNat + 1

/-- Length of a basic cycle in ns. -/
def canBcNs (m : CanMatrix) (s : State) : Nat := canBcMacro m * cycleUs s * 1000

/-- START of a column, in ns from the basic cycle's start. -/
def canColStart (m : CanMatrix) (col : Nat) : Nat := ((tblGet m.starts col).getD 0).toNat

/-- WIN_BITS of a column. -/
def canColBits (m : CanMatrix) (col : Nat) : Nat := ((tblGet m.wins col).getD 0).toNat

/-- A column ends within `len` ns: START and WIN_BITS nominal bits of 12.5 ns clocks. -/
def canColFits (ch : Can) (len col : Nat) : Bool :=
  2 * canColStart ch.active col + 25 * canNominalBit ch * canColBits ch.active col ≤ 2 * len

/-! ## Commit (R441) -/

/-- A cell of the right direction for its kind. -/
def canCellOk (ch : Can) (x : CanCell) : Bool :=
  (!x.hpb || x.index.toNat < 8) &&
  (match x.kind.toNat with
   | 1 => (canSlotGet ch (canCellSlot x)).tx
   | 3 => !(canSlotGet ch (canCellSlot x)).tx
   | _ => true)

/-- START values ascending. -/
def ascending : List Nat → Bool
  | a :: b :: l => a < b && ascending (b :: l)
  | _ => true

/-- The checks of a shadow at its commit; the undefined ROLE code 3 fails too (DESIGN CHOICE, log 30). -/
def canShadowOk (ch : Can) (s : State) : Bool :=
  let m := ch.shadow
  let starts := (List.range (canCols m)).map (canColStart m)
  m.role ≠ 3 && m.rowsLog2.toNat ≤ 5 && 1 ≤ canCols m && canCols m ≤ 64 && ascending starts &&
  starts.all (fun t => t < canBcNs m s) && (canCellsUsed m).all (canCellOk ch)

/-- CAN_TT_FAULT. -/
def canTtFault (c cause : Nat) (s : State) : State := raise 0x0802 (leBytes 1 c ++ leBytes 1 cause) s

/-- A commit whose time has come: C is the current cycle or an earlier one. -/
def canCommitDue (ch : Can) (s : State) : Bool :=
  ch.commitPend && (ch.commit == cycleNo s || wrapNewer (cycleNo s) ch.commit)

/-- R441: the shadow becomes active, or is rejected. It runs from the first basic cycle of its own. -/
def canCommitNow (c : Nat) (s : State) : State :=
  let ch := canOf s c
  if canShadowOk ch s then
    modCan c (fun ch => { ch with
      active := ch.shadow, commitPend := false, deadCols := [], running := false
      slaveAct := ch.shadow.role == 2, refSpan := ch.shadow.role == 2, lastRefClk := s.clk
      refDue := false, refWait := false, window := none, rxCheck := [] }) s
  else canTtFault c 4 (modCan c (fun ch => { ch with cfgErr := true, commitPend := false }) s)

/-- R441: a write of CAN_TT_COMMIT. -/
def canCommitWrite (c : Nat) (cycle : BitVec 32) (s : State) : State :=
  let late := !(wrapNewer cycle (cycleNo s))
  let s1 := modCan c (fun ch => { ch with commit := cycle, commitPend := true, commitLate := ch.commitLate || late }) s
  if late then canTtFault c 3 s1 else s1

/-! ## Basic cycles (R435–R438, R442) -/

/-- R437: a locked master whose reference gate is closed runs as slave. -/
def canActsMaster (ch : Can) (s : State) : Bool :=
  ch.active.role = 1 && (!ch.active.refClaim || canGateOpen ch.active.refSvc.toNat s)

/-- R435: the row of a locked basic cycle that holds cycle count `n`. -/
def canRowAt (m : CanMatrix) (n : Nat) : Nat := n / canBcMacro m % canRows m

/-- The receive checks still open end, each counted unless the basic cycle was cut (R439, R442). -/
def canEndChecks (c : Nat) (counted : Bool) (s : State) : State :=
  modCan c (fun ch => { ch with
    rxCheck := []
    ctr := if counted then ch.rxCheck.foldl (fun k _ => ctrInc k 8) ch.ctr else ch.ctr }) s

/-- A basic cycle begins: row, column 0, and no window open. -/
def canBegin (c row : Nat) (s : State) : State :=
  modCan c (fun ch => { ch with running := true, row := row, col := 0, bcClk := s.now, window := none }) s

/-- R436: the reference of a basic cycle begun now: sent at once on an idle bus, else due. -/
def canRefer (c : Nat) (s : State) : State :=
  let s1 := modCan c (fun ch => { ch with refDue := true, refWait := true, slaveAct := false }) s
  if canSends (canOf s c) && canIdle (canOf s c) then canStartRef c false s1 else s1

/-- R437: a master whose gate has closed runs as slave; its windows wait for the first reference. -/
def canToSlave (c : Nat) (s : State) : State :=
  modCan c (fun ch => if ch.slaveAct then { ch with refDue := false }
    else { ch with slaveAct := true, refDue := false, running := false, window := none, lastRefClk := s.clk }) s

/-- A basic cycle of a locked master begins at an instant with cycle count `n`; `whole` unless it interrupts another
(R442, R443). A master whose gate is closed runs as slave (R437). -/
def canMasterBegin (c n : Nat) (whole : Bool) (s : State) : State :=
  let ch := canOf s c
  if ch.active.role = 1 then
    if canActsMaster ch s then canRefer c (canBegin c (canRowAt ch.active n) (canEndChecks c whole s)) else canToSlave c s
  else s

/-- The train time at which the basic cycle of a locked master ends that holds train time `t`. -/
def canCycleEnd (m : CanMatrix) (t : Nat) (s : State) : Nat := (t / macroT s / canBcMacro m + 1) * canBcMacro m * macroT s

/-- The basic cycle in progress ends at the instant that stands now, and no change cuts it (R442). -/
def canWhole (ch : Can) (s : State) : Bool := canCycleEnd ch.active ch.bcClk s = s.now

/-- R435, R441: the shadow's first row-0 start at cycle count `n`: the matrix in use gives the rows, and where none
runs, or a slave's gives way to a master, the matrix being committed does. -/
def canRowZeroAt (ch : Can) (n : Nat) : Bool :=
  let m := if ch.active.role = 1 then ch.active else ch.shadow
  n % canBcMacro m = 0 && canRowAt m n = 0

/-- R441: the channel's shadow is committed at the instant that stands now. -/
def canCommits (c : Nat) (s : State) : Bool :=
  let ch := canOf s c
  canCommitDue ch s && canRowZeroAt ch (cycleCount s) && ch.active.role ≠ 2

/-- One channel at a registration instant (R426, R435, R441, R442, R443). -/
def canAtInstant (switch : Bool) (c : Nat) (s0 : State) : State :=
  let s := canWithhold c s0
  let whole := canWhole (canOf s c) s
  let s1 := if canCommits c s then canCommitNow c (canEndChecks c ((canOf s c).running && whole) s) else s
  let m := (canOf s1 c).active
  if switch || cycleCount s % canBcMacro m = 0 then canMasterBegin c (cycleCount s) whole s1 else s1

/-- R443: the columns that a change of macrocycle leaves no room for. -/
def canMacroChange (c : Nat) (s : State) : State :=
  let ch := canOf s c
  if ch.active.role = 1 then
    let dead := (List.range (canCols ch.active)).filter (fun k => !(canColFits ch (canBcNs ch.active s) k))
    if dead.isEmpty then modCan c (fun ch => { ch with deadCols := [] }) s
    else canTtFault c 5 (modCan c (fun ch => { ch with deadCols := dead, cfgErr := true }) s)
  else s

/-- R435, R438: a reference of another master begins a slave's basic cycle. -/
def canReference (c count : Nat) (s : State) : State :=
  let ch := canOf s c
  let slave := ch.active.role = 2 || (ch.active.role = 1 && !(canActsMaster ch s))
  if !(canTakesPart ch) then s
  else if slave then
    let s0 := canEndChecks c true s
    let row := count % canRows ch.active
    let s1 := if canCommitDue ch s && row = 0 then canCommitNow c s0 else s0
    let m := (canOf s1 c).active
    canIrq c 7 (modCan c (fun ch => { ch with slaveAct := true, refSpan := false, lastRefClk := s.clk })
      (canBegin c (count % canRows m) s1))
  else if ch.shadow.role = 2 && ch.active.role = 0 && canCommitDue ch s && count % canRows ch.shadow = 0 then
    let s1 := canCommitNow c s
    if (canOf s1 c).active.role = 2 then
      canIrq c 7 (modCan c (fun ch => { ch with slaveAct := true, refSpan := false }) (canBegin c 0 s1))
    else s1
  else s

/-- A train time `ns` into the basic cycle of a locked master has come; a slave's times come with their commands. -/
def canReached (ch : Can) (ns : Nat) (s : State) : Bool := ch.slaveAct || ch.bcClk + nsT ns ≤ s.now

/-- R442: the window of a column ends before a basic cycle cut short by a switch does. -/
def canFitsShort (ch : Can) (col : Nat) (s : State) : Bool :=
  let cut := ch.bcClk / macroT s % canBcMacro ch.active ≠ 0
  let last := nsT (canColStart ch.active col) + nsT (25 * canNominalBit ch * canColBits ch.active col) / 2
  ch.slaveAct || !cut || ch.bcClk + last < canCycleEnd ch.active ch.bcClk s

/-- R436: a master's reference not started by the START of column 0. -/
def canRefAbandon (c : Nat) (s : State) : State :=
  let ch := canOf s c
  let started := match ch.tx with | .reference _ => true | _ => false
  if ch.refDue && ch.refWait && !started && canReached ch (canColStart ch.active 0) s then
    canOffer c (canTtFault c 1 (modCan c (fun ch => { ch with refDue := false, refWait := false, ctr := ctrInc ch.ctr 9 }) s))
  else s

/-- R438: 2 × BC_MACRO macrocycles without a reference. -/
def canRefTimeout (c : Nat) (s : State) : State :=
  let ch := canOf s c
  if ch.slaveAct && ch.lastRefClk + 2 * canBcMacro ch.active * macroT s ≤ s.clk then
    canTtFault c 2 (modCan c (fun ch => { ch with
      refSpan := true, running := false, window := none, lastRefClk := s.clk, ctr := ctrInc ch.ctr 9 }) s)
  else s

/-! ## Windows (R439, R440) -/

/-- The receive checks of earlier columns end at this column's START. -/
def canCloseChecks (c col : Nat) (s : State) : State :=
  modCan c (fun ch => { ch with
    rxCheck := ch.rxCheck.filter (fun k => k.2 = col)
    ctr := (ch.rxCheck.filter (fun k => k.2 ≠ col)).foldl (fun k _ => ctrInc k 8) ch.ctr }) s

/-- A column's window opens. -/
def canWindow (c col : Nat) (idle : Bool) (s : State) : State :=
  let ch := canOf s c
  let runs := ch.running && !ch.refSpan && col < canCols ch.active && !(ch.deadCols.contains col)
  if !runs || !(canFitsShort ch col s) || !(canReached ch (canColStart ch.active col) s) then s
  else
    let s1 := modCan c (fun ch => { ch with col := col }) (canCloseChecks c col s)
    let x := canCell ch.active ch.row col
    let o := canCellSlot x
    let y := canSlotGet ch o
    match x.kind.toNat with
    | 1 =>
      if !y.en || !y.tx then modCan c (fun ch => { ch with window := none }) s1
      else if canGated y s then
        canCount c 10 (modCan c (fun ch => { ch with window := none }) s1)
      else if ch.est = .busOff then canIrq c 8 (canCount c 7 (modCan c (fun ch => { ch with window := none }) s1))
      else
        let s2 := modCan c (fun ch => { ch with window := some (col, false) }) s1
        if idle then canOffer c s2 else s2
    | 2 =>
      let s2 := modCan c (fun ch => { ch with window := some (col, false) }) s1
      if idle then canOffer c s2 else s2
    | 3 => modCan c (fun ch => { ch with window := none, rxCheck := ch.rxCheck ++ [(canSlotNo o, col)] }) s1
    | _ => modCan c (fun ch => { ch with window := none }) s1

/-- A window ends: an exclusive frame not handed over is missed. -/
def canWindowEnd (c col : Nat) (s : State) : State :=
  let ch := canOf s c
  match ch.window with
  | some (k, handed) =>
    if k = col then
      let s1 := modCan c (fun ch => { ch with window := none }) s
      if (canCell ch.active ch.row col).kind = 1 && !handed then canIrq c 8 (canCount c 7 s1) else s1
    else s
  | none => s

/-! ## Links to the process-data image (R421–R423) -/

/-- R421 at an instant: linked transmit objects take their data from the published bank (`rd flow off n`), and become
pending where a release took effect and no cell names them. -/
def canLinkLoad (rd : Nat → Nat → Nat → List Byte) (effective : Bool) (c : Nat) (s : State) : State :=
  let ch := canOf s c
  let linked := (ch.objs.filter (fun e => e.2.tx && e.2.link = 1)).map (fun e => e.1)
  let s1 := forEach linked (fun i s =>
    let o : CanSlot := .obj ⟨i % 128, Nat.mod_lt _ (by decide)⟩
    let x := canSlotGet (canOf s c) o
    let n := dlcLen x.fdf x.dlc.toNat
    let s2 := modCan c (canSlotMod o (fun y => { y with data := rd x.linkFlow.toNat x.linkOff.toNat n ++ y.data.drop n })) s
    if effective && !(canNamedByCell (canOf s c) o) then canRequest c o s2 else s2) s
  if effective then canOffer c s1 else s1

/-- R422 at a release deadline: what each linked receive object with a new reception writes: flow, offset, bytes. -/
def canLinkWrites (ch : Can) : List (Nat × Nat × List Byte) :=
  (ch.objs.filter (fun e => !e.2.tx && e.2.link = 2 && ch.rxSet.contains e.1)).map (fun e =>
    (e.2.linkFlow.toNat, e.2.linkOff.toNat, if e.2.rtr then [] else e.2.data.take (dlcLen e.2.fdf e.2.dlc.toNat)))

/-- The deadline has passed: receptions are counted as new from here. -/
def canDeadlineDone (c : Nat) (s : State) : State := modCan c (fun ch => { ch with rxSet := [] }) s

/-- R423: links that a change of flow contexts broke are undone, with CAN_CONFIG. -/
def canCheckLinks (c : Nat) (s : State) : State :=
  let broken := ((canOf s c).objs.filter (fun e => e.2.link ≠ 0 && !(canLinkOk false e.2 s))).map (fun e => e.1)
  forEach broken (fun i s =>
    raiseAt (lastInstant s) 0x0804 (leBytes 1 c ++ leBytes 1 i)
      (modCan c (canSlotMod (.obj ⟨i % 128, Nat.mod_lt _ (by decide)⟩) (fun y => { y with link := 0 })) s)) s

/-! ## Commands -/

/-- CAN_TT_COMMIT_WRITE (R441). -/
def execCanTtCommitWrite (dt : Nat) (c : Fin 12) (src : Iface) (cycle : BitVec 32) (s : State) :
    Host.Outcome State Fault Refusal :=
  .next (hostAccess dt src (canAddr c 0x088) (some cycle) (canCommitWrite c.val cycle) s)

/-- CAN_REFERENCE_RX (R435). -/
def execCanReferenceRx (dt : Nat) (c : Fin 12) (count : Nat) (s : State) : Host.Outcome State Fault Refusal :=
  .next (canReference c.val count (begin_ dt s))

/-- CAN_REFERENCE_ABANDON (R436). -/
def execCanReferenceAbandon (dt : Nat) (c : Fin 12) (s : State) : Host.Outcome State Fault Refusal :=
  .next (canRefAbandon c.val (begin_ dt s))

/-- CAN_SLAVE_REF_TIMEOUT (R438). -/
def execCanSlaveRefTimeout (dt : Nat) (c : Fin 12) (s : State) : Host.Outcome State Fault Refusal :=
  .next (canRefTimeout c.val (begin_ dt s))

/-- CAN_HATCH_WINDOW (R439). -/
def execCanHatchWindow (dt : Nat) (c : Fin 12) (col : Fin 64) (idle : Bool) (s : State) :
    Host.Outcome State Fault Refusal :=
  .next (canWindow c.val col.val idle (begin_ dt s))

/-- CAN_HATCH_WINDOW_END (R439). -/
def execCanHatchWindowEnd (dt : Nat) (c : Fin 12) (col : Fin 64) (s : State) : Host.Outcome State Fault Refusal :=
  .next (canWindowEnd c.val col.val (begin_ dt s))

/-! ## The channel's registers (R444) -/

/-- A control register's value. -/
def canRegRead (ch : Can) (off : Nat) : Nat :=
  match off with
  | 0x000 => ch.ctrl.toNat
  | 0x004 => ch.nbt.toNat
  | 0x008 => ch.dbt.toNat
  | 0x00C => ch.tdco.toNat + ch.tdcv.toNat * 256
  | 0x010 => packFields [(0, 3, ch.modeAct.toNat), (3, 2, estCode ch.est), (5, 1, b2n (96 ≤ ch.tec || 96 ≤ ch.recc || ch.rp)),
      (6, 2, ch.act.toNat), (8, 3, ch.lec.toNat), (11, 3, ch.dlec.toNat), (14, 1, b2n ch.foreign),
      (15, 1, b2n ch.recovPend), (16, 1, b2n ch.cfgErr)]
  | 0x014 => packFields [(0, 8, ch.tec), (8, 7, ch.recc), (15, 1, b2n ch.rp), (16, 8, ch.recovCnt)]
  | 0x01C => ch.unackN.toNat
  | 0x020 => ch.fifoBase.toNat + ch.fifoDepth.toNat * 256
  | 0x024 => ch.fifoHead.toNat + ch.fifoLevel.toNat * 256
  | 0x028 => ch.irqStat.toNat
  | 0x02C => ch.irqEn.toNat
  | 0x030 => ch.irqVector.toNat + ch.irqDest.toNat * 256
  | 0x070 => packFields [(0, 8, ((List.finRange 8).map (fun b => b2n (canIsPending ch (.hpb b)) * 2 ^ b.val)).sum),
      (16, 8, ch.hpbDone.toNat)]
  | 0x080 => packFields [(0, 2, ch.shadow.role.toNat), (2, 3, ch.shadow.rowsLog2.toNat), (5, 7, ch.shadow.cols.toNat),
      (12, 4, ch.shadow.bcMacro.toNat), (16, 4, ch.shadow.refSvc.toNat), (20, 1, b2n ch.shadow.refClaim)]
  | 0x084 => ch.shadow.refId.toNat + b2n ch.shadow.refIde * 2 ^ 29
  | 0x088 => ch.commit.toNat
  | 0x08C => packFields [(0, 1, b2n ch.running), (1, 1, b2n ch.commitPend), (2, 1, b2n ch.commitLate),
      (3, 1, b2n ch.slaveAct), (4, 5, ch.row), (9, 6, ch.col)]
  | 0x0D8 => ovfBits ch.ctr
  | off =>
    if 0x040 ≤ off && off < 0x050 then
      ((List.range 32).map (fun j => b2n (ch.pending.any (fun r => canSlotNo r.slot == 32 * ((off - 0x040) / 4) + j)) * 2 ^ j)).sum
    else if 0x060 ≤ off && off < 0x070 then bitsOf ch.done.toNat (32 * ((off - 0x060) / 4)) 32
    else if 0x0A0 ≤ off && off < 0x0D8 then (ctrGet ch.ctr ((off - 0x0A0) / 4)).n.toNat
    else 0

/-- A filter's word. -/
def canFilterWord (ft : CanFilter) (w : Nat) : Nat :=
  match w with
  | 0 => packFields [(0, 29, ft.fid.toNat), (29, 1, b2n ft.ide), (31, 1, b2n ft.en)]
  | 1 => ft.mask.toNat
  | 2 => packFields [(0, 2, ft.kind.toNat), (2, 7, ft.index.toNat)]
  | _ => ft.hits.n.toNat + b2n ft.hits.ovf * 2 ^ 31

/-- A filter of zeros. -/
def canFilterZero : CanFilter :=
  { fid := 0, ide := false, en := false, mask := 0, kind := 0, index := 0, hits := Sat.zero }

/-- A filter's word written. -/
def canFilterSet (w v : Nat) (ft : CanFilter) : CanFilter :=
  match w with
  | 0 => { ft with fid := BitVec.ofNat 29 v, ide := v.testBit 29, en := v.testBit 31 }
  | 1 => { ft with mask := BitVec.ofNat 29 v }
  | 2 => { ft with kind := BitVec.ofNat 2 v, index := BitVec.ofNat 7 (v / 4) }
  | _ => ft

/-- The slot and the word of an offset within the buffers or the objects. -/
def canSlotAt (off : Nat) : Option (CanSlot × Nat) :=
  if 0x0800 ≤ off && off < 0x0A80 then
    some (.hpb ⟨(off - 0x0800) / 80 % 8, Nat.mod_lt _ (by decide)⟩, (off - 0x0800) % 80 / 4)
  else if 0x4000 ≤ off && off < 0x6800 then
    some (.obj ⟨(off - 0x4000) / 80 % 128, Nat.mod_lt _ (by decide)⟩, (off - 0x4000) % 80 / 4)
  else none

/-- A shadow cell as the channel block shows it. -/
def canCellBits (x : CanCell) : Nat := packFields [(0, 7, x.index.toNat), (7, 1, b2n x.hpb), (8, 2, x.kind.toNat)]

/-- The cell a 16-bit value writes. -/
def canCellOf (v : Nat) : CanCell :=
  { index := BitVec.ofNat 7 v, hpb := v.testBit 7, kind := BitVec.ofNat 2 (bitsOf v 8 2) }

/-- The value of the channel's 32-bit register at an aligned offset, as an interface reads it. -/
def canRead (c : Nat) (i : Iface) (off : Nat) (s : State) : Nat :=
  let ch := canOf s c
  if off < 0x100 then canRegRead ch off
  else if 0x0400 ≤ off && off < 0x0800 then
    canFilterWord ((tblGet ch.filters ((off - 0x400) / 16)).getD canFilterZero) (off % 16 / 4)
  else if 0x1000 ≤ off && off < 0x1200 then
    (if off % 8 = 0 then canColStart ch.shadow ((off - 0x1000) / 8) else canColBits ch.shadow ((off - 0x1000) / 8))
  else if 0x2000 ≤ off && off < 0x3000 then
    let k := (off - 0x2000) / 2
    canCellBits (canCell ch.shadow (k / 64) (k % 64)) + 65536 * canCellBits (canCell ch.shadow (k / 64) (k % 64 + 1))
  else match canSlotAt off with
    | some (o, 0) => canObjWord (canIsHpb o) (canSlotGet ch o) 0
    | some (o, w) => fieldAt (canShadow ch o i) (4 * w) 4
    | none => 0

/-- A write of a control register that has no row of its own. Timing and TDC fields are writable only in Config
(R407); a FIFO run beyond the 128 objects is refused (R414). -/
def canRegWrite (c off : Nat) (v : BitVec 32) (s : State) : State :=
  let n := v.toNat
  let inConfig := canModeAct (canOf s c) = 0
  let guarded (f : Can → Can) : State :=
    if inConfig then modCan c f s else modCan c (fun ch => { ch with cfgErr := true }) s
  match off with
  | 0x000 => canWriteCtrl c false v s
  | 0x004 => guarded (fun ch => { ch with nbt := v &&& 0x7F7FFFFF })
  | 0x008 => guarded (fun ch => { ch with dbt := v &&& 0x0F0F1F1F })
  | 0x00C => guarded (fun ch => { ch with tdco := BitVec.ofNat 7 n })
  | 0x010 => modCan c (fun ch => { ch with foreign := ch.foreign && !(n.testBit 14), cfgErr := ch.cfgErr && !(n.testBit 16) }) s
  | 0x018 => canRecoverStart c v s
  | 0x01C => modCan c (fun ch => { ch with unackN := BitVec.ofNat 8 n }) s
  | 0x020 =>
    let base := n % 128
    let depth := bitsOf n 8 7
    if 64 < depth || 128 < base + depth then modCan c (fun ch => { ch with cfgErr := true }) s
    else modCan c (fun ch => { ch with
      fifoBase := BitVec.ofNat 7 base, fifoDepth := BitVec.ofNat 7 depth, fifoHead := BitVec.ofNat 7 base, fifoLevel := 0 }) s
  | 0x024 => canFifoPop c v s
  | 0x028 => modCan c (fun ch => { ch with irqStat := ch.irqStat &&& ~~~ (v.setWidth 12) }) s
  | 0x02C => modCan c (fun ch => { ch with irqEn := v.setWidth 12 }) s
  | 0x030 => modCan c (fun ch => { ch with irqVector := BitVec.ofNat 8 n, irqDest := BitVec.ofNat 3 (bitsOf n 8 3) }) s
  | 0x070 => canHpbCtrl c v s
  | 0x080 => modCan c (fun ch => { ch with shadow := { ch.shadow with
      role := BitVec.ofNat 2 n, rowsLog2 := BitVec.ofNat 3 (bitsOf n 2 3), cols := BitVec.ofNat 7 (bitsOf n 5 7)
      bcMacro := BitVec.ofNat 4 (bitsOf n 12 4), refSvc := BitVec.ofNat 4 (bitsOf n 16 4), refClaim := n.testBit 20 } }) s
  | 0x084 => modCan c (fun ch => { ch with shadow := { ch.shadow with refId := BitVec.ofNat 29 n, refIde := n.testBit 29 } }) s
  | 0x088 => canCommitWrite c v s
  | 0x08C => modCan c (fun ch => { ch with commitLate := ch.commitLate && !(n.testBit 2) }) s
  | off =>
    if 0x040 ≤ off && off < 0x050 then canTxrq c ((off - 0x040) / 4) v s
    else if 0x050 ≤ off && off < 0x060 then canTxcan c ((off - 0x050) / 4) v s
    else if 0x060 ≤ off && off < 0x070 then
      modCan c (fun ch => { ch with done := ch.done &&& ~~~ (BitVec.ofNat 128 (n * 2 ^ (32 * ((off - 0x060) / 4)))) }) s
    else s

/-- A write of the channel's 32-bit register at an aligned offset. -/
def canWrite (c off : Nat) (v : BitVec 32) (s : State) : State :=
  if off < 0x100 then canRegWrite c off v s
  else if 0x0400 ≤ off && off < 0x0800 then
    let i := (off - 0x400) / 16
    modCan c (fun ch => { ch with
      filters := tblSet ch.filters i (canFilterSet (off % 16 / 4) v.toNat ((tblGet ch.filters i).getD canFilterZero)) }) s
  else if 0x1000 ≤ off && off < 0x1200 then
    let i := (off - 0x1000) / 8
    modCan c (fun ch => { ch with shadow :=
      if off % 8 = 0 then { ch.shadow with starts := tblSet ch.shadow.starts i v }
      else { ch.shadow with wins := tblSet ch.shadow.wins i (v.setWidth 5) } }) s
  else if 0x2000 ≤ off && off < 0x3000 then
    let k := (off - 0x2000) / 2
    modCan c (fun ch => { ch with shadow := { ch.shadow with
      cells := tblSet (tblSet ch.shadow.cells k (canCellOf (v.toNat % 65536))) (k + 1) (canCellOf (v.toNat / 65536)) } }) s
  else match canSlotAt off with
    | some (o, w) => canObjWrite c o w v s
    | none => s

/-- R10, R14: the RC fields of a channel: its counters and its filters' HITS, cleared by their read. -/
def canReadClear (c off : Nat) (s : State) : State :=
  if 0x0A0 ≤ off && off < 0x0D8 then
    modCan c (fun ch => { ch with ctr := updAt ch.ctr ((off - 0x0A0) / 4) (fun _ => Sat.zero) }) s
  else if 0x0400 ≤ off && off < 0x0800 && off % 16 = 12 then
    modCan c (fun ch => { ch with filters := ch.filters.map (fun e =>
      if e.1 = (off - 0x400) / 16 then (e.1, { e.2 with hits := Sat.zero }) else e) }) s
  else s

end Sys2Proof.Machine
end

