-- ==== Sys2Proof/Machine/Mvb.lean ====
section
/-! DEFINITION. Multifunction-vehicle-bus segments (R452–R471, R491, R493–R495). -/

namespace Sys2Proof.Machine

/-- A counter of the segment counts: 0 POLLS, 1 NO_REPLY, 2 FRAME_ERR_A, 3 FRAME_ERR_B, 4 LINE_DISAGREE, 5 CLAIM_HOLD. -/
def mvbCount (g i : Nat) (s : State) : State := modMvb g (fun m => { m with ctr := ctrInc m.ctr i }) s

/-- R454: the basic period in ticks. -/
def mvbBp (t : PollTable) : Nat := if t.bp2 then usT 2000 else usT 1000

/-- R454: the basic period index at a train time. -/
def mvbIndex (t : PollTable) (now : Nat) : Nat := now / mvbBp t % 1024

/-- Fields of a poll-table entry (R458). -/
def pollPort (e : BitVec 32) : Nat := bitsOf e.toNat 0 12

/-- FCODE. -/
def pollFcode (e : BitVec 32) : Nat := bitsOf e.toNat 12 3

/-- PLOG. -/
def pollPlog (e : BitVec 32) : Nat := bitsOf e.toNat 16 4

/-- PHASE. -/
def pollPhase (e : BitVec 32) : Nat := bitsOf e.toNat 20 10

/-- R459: an entry is polled in basic period `b`. -/
def pollDue (b : Nat) (e : BitVec 32) : Bool := b % 2 ^ pollPlog e == pollPhase e

/-- R459: the entries of a basic period, in ascending PLOG and in table order within one. -/
def pollsOf (t : PollTable) (b : Nat) : List (BitVec 32) :=
  (List.range 11).flatMap (fun k => t.entries.filter (fun e => pollPlog e == k && pollDue b e))

/-- R457: t(F) in thirds of a microsecond. -/
def pollTime (f : Nat) : Nat := [156, 188, 252, 396, 684].getD f 156

/-- The data bytes of an F_code (R452). -/
def fcodeBytes (f : Nat) : Nat := 2 ^ (f + 1)

/-- R453, R470: the role in effect: 0 off, 1 device, 2 administrator, 3 administrator withheld. -/
def mvbRole (c : MvbCfg) (s : State) : BitVec 2 :=
  match c.role with
  | 0 => 0
  | 1 => 1
  | _ => if c.admClaim && !(gateOpen c.admSvc.toNat s) then 3 else 2

/-! ## Polling -/

/-- A source port's slave frame, or the silence of a closed gate (R463, R469); the device status (R466). The status
word's bits but the bus-administrator capability are left open. -/
def mvbAnswer (g : Fin 2) (fcode : BitVec 4) (addr : BitVec 12) (s : State) : State :=
  let m := mvbOf s g.val
  if fcode.toNat ≤ 4 then
    match tblGet m.ports addr.toNat with
    | some p =>
      if p.dir = 1 && p.fcode = fcode.toNat then
        if p.claim && !(gateOpen p.svc.toNat s) then mvbCount g.val 5 s
        else emit (.mvbSlave g p.data) (modMvb g.val (fun m => { m with master := none }) s)
      else s
    | none => s
  else if fcode = 15 && addr = m.cfg.device && m.roleAct ≠ 0 then
    let (x, s1) := takeFree 65536 s
    let w := x - bitsOf x 14 1 * 2 ^ 14 + b2n (m.roleAct == 2) * 2 ^ 14
    emit (.mvbSlave g ((leBytes 2 w).reverse)) (modMvb g.val (fun m => { m with master := none }) s1)
  else s

/-- A master frame goes out: POLLS, and the node's own answer to it where it is its own port's. -/
def mvbPoll (g : Fin 2) (fcode : BitVec 4) (addr : BitVec 12) (s : State) : State :=
  mvbAnswer g fcode addr (emit (.mvbMaster g fcode addr)
    (modMvb g.val (fun m => { m with master := some (fcode, addr), ctr := ctrInc m.ctr 0 }) s))

/-- R456: a master frame of 22 µs that starts now ends 20 µs before the next basic period. -/
def mvbFits (t : PollTable) (now : Nat) : Bool := now % mvbBp t + usT 42 ≤ mvbBp t

/-- R456, R459: the next master frame of the basic period: its next entry, then one device status poll. -/
def mvbNext (g : Fin 2) (s : State) : State :=
  let m := mvbOf s g.val
  match m.table with
  | none => s
  | some t =>
    if m.roleAct ≠ 2 || !m.inPeriod then s
    else if !(mvbFits t s.now) then modMvb g.val (fun m => { m with inPeriod := false, polls := [], scanDue := false }) s
    else match m.polls with
      | e :: es =>
        mvbPoll g (BitVec.ofNat 4 (pollFcode e)) (BitVec.ofNat 12 (pollPort e)) (modMvb g.val (fun m => { m with polls := es }) s)
      | [] =>
        if m.scanDue then
          let k := m.scanNext % max 1 t.scan.length
          mvbPoll g 15 ((t.scan.getD k 0).setWidth 12)
            (modMvb g.val (fun m => { m with scanDue := false, scanNext := (k + 1) % max 1 t.scan.length }) s)
        else modMvb g.val (fun m => { m with inPeriod := false }) s

/-- R461: the committed poll table takes effect at this basic period. -/
def mvbTakeTable (g : Nat) (s : State) : State :=
  match (mvbOf s g).commit with
  | some (t, c, late) =>
    if late || c == cycleNo s || wrapNewer (cycleNo s) c then
      let s1 := modMvb g (fun m => { m with
        table := some t, commit := none, scanNext := 0, known := []
        flash := some (m.cfg, some t) }) s
      finishQueued (fun q => q.opcode == 0x0903 && q.arg == g) 0
        (raise 0x0902 (leBytes 1 g ++ leBytes 1 (b2n late)) s1)
    else s
  | none => s

/-- R466: AGE counts basic periods. -/
def mvbAge (p : MvbPort) : MvbPort := if p.dir = 2 then { p with age := min 255 (p.age + 1) } else p

/-- R454: a basic period of the administrator's table, the running one or the first to come, starts now: within the 1 µs of
R456. -/
def mvbStarts (m : Mvb) (s : State) : Bool :=
  match m.table.orElse (fun _ => m.commit.map (fun c => c.1)) with
  | some t => s.now % mvbBp t < usT 1
  | none => true

/-- R454, R459: a basic period begins. -/
def mvbPeriod (g : Fin 2) (s : State) : State :=
  let m0 := mvbOf s g.val
  if m0.roleAct = 0 || (m0.cfg.role = 2 && !(mvbStarts m0 s)) then s
  else
    let s1 := modMvb g.val (fun m => { m with ports := tblMap (fun _ p => mvbAge p) m.ports, master := none }) s
    let s2 := if m0.cfg.role = 2 then mvbTakeTable g.val s1 else s1
    match (mvbOf s2 g.val).table with
    | none => s2
    | some t =>
      if m0.roleAct ≠ 2 then s2
      else mvbNext g (modMvb g.val (fun m => { m with
        polls := pollsOf t (mvbIndex t s.now), scanDue := !t.scan.isEmpty, inPeriod := true }) s2)

/-- R471, R470: polls not started are not made. -/
def mvbCut (g : Nat) (s : State) : State :=
  modMvb g (fun m => { m with polls := [], scanDue := false, inPeriod := false, master := none }) s

/-! ## Lines (R467, R468) -/

/-- One line's quality after a frame that the line delivered valid (`ok`) or did not, the other line having done so
(`other`). -/
def lineJudge (ok other : Bool) (l : MvbLineSt) : MvbLineSt :=
  if ok then
    let good := min 16 (l.good + 1)
    { faulty := l.faulty && good < 16, bad := 0, good := good }
  else if other then
    let bad := min 16 (l.bad + 1)
    { faulty := l.faulty || bad == 16, bad := bad, good := 0 }
  else { l with good := 0 }

/-- MVB_LINE where a line's state changed. -/
def lineEvent (g line : Nat) (old new : MvbLineSt) (s : State) : State :=
  if old.faulty = new.faulty then s
  else raise 0x0901 (leBytes 1 g ++ leBytes 1 line ++ leBytes 1 (b2n new.faulty)) s

/-- Both lines judged after a frame. -/
def mvbJudge (g : Nat) (a b : Bool) (s : State) : State :=
  let m := mvbOf s g
  let la := lineJudge a b m.lineA
  let lb := lineJudge b a m.lineB
  lineEvent g 1 m.lineB lb (lineEvent g 0 m.lineA la (modMvb g (fun m => { m with lineA := la, lineB := lb }) s))

/-! ## Frames -/

/-- A master frame heard as a device. -/
def mvbMasterRx (g : Fin 2) (f : MvbMaster) (s : State) : State :=
  if (mvbOf s g.val).roleAct = 0 || !(f.onA || f.onB) then s
  else mvbAnswer g f.fcode f.addr (mvbJudge g.val f.onA f.onB
    (modMvb g.val (fun m => { m with master := some (f.fcode, f.addr) }) s))

/-- R464: a sink port takes a value. -/
def mvbTake (addr fcode : Nat) (data : List Byte) (lineB : Bool) (m : Mvb) : Mvb :=
  match tblGet m.ports addr with
  | some p =>
    if p.dir = 2 && p.fcode = fcode then
      { m with ports := tblSet m.ports addr { p with
          data := padTo (fcodeBytes fcode) data, age := 0, held := true, lineB := lineB, taken := true } }
    else m
  | none => m

/-- A slave frame as each line delivered it (R464, R467, R468). -/
def mvbSlaveRx (g : Fin 2) (f : MvbSlave) (s : State) : State :=
  let m := mvbOf s g.val
  match m.master with
  | none => s
  | some (fcode, addr) =>
    let s1 := modMvb g.val (fun m => { m with
      master := none
      ctr := (if f.invalidB then fun c => ctrInc c 3 else id) ((if f.invalidA then fun c => ctrInc c 2 else id) m.ctr) }) s
    let s2 := mvbJudge g.val f.dataA.isSome f.dataB.isSome s1
    let s3 := match f.dataA, f.dataB with
      | some a, some b => if a = b then s2 else mvbCount g.val 4 s2
      | _, _ => s2
    let first := if f.firstB then (f.dataB, true) else (f.dataA, false)
    let other := if f.firstB then (f.dataA, false) else (f.dataB, true)
    match (if first.1.isSome then first else other) with
    | (some d, b) =>
      if fcode.toNat ≤ 4 then modMvb g.val (mvbTake addr.toNat fcode.toNat d b) s3
      else if fcode = 15 then
        modMvb g.val (fun m => { m with known := if m.known.contains addr then m.known else m.known ++ [addr] }) s3
      else s3
    | (none, _) => s3

/-- R456: no slave frame has begun in time. -/
def mvbNoReply (g : Nat) (s : State) : State :=
  if (mvbOf s g).roleAct = 2 && (mvbOf s g).master.isSome then
    mvbCount g 1 (modMvb g (fun m => { m with master := none }) s)
  else s

/-! ## Links (R463–R465) and the instant -/

/-- R465: a linked record's conditions. -/
def mvbLinkOk (p : MvbPort) (s : State) : Bool :=
  !p.linked || p.dir = 0 ||
  (match tblGet s.flow.ctx p.flow with
   | some f => f.enable && f.produce && p.off + fcodeBytes p.fcode ≤ f.len.toNat &&
       (p.dir = 1 || (classPair f.svc.toNat s).isNone)
   | none => false)

/-- R464 at a release deadline: flow, offset and bytes of each linked sink that took a value. -/
def mvbLinkWrites (m : Mvb) : List (Nat × Nat × List Byte) :=
  (m.ports.filter (fun e => e.2.dir = 2 && e.2.linked && e.2.taken)).map (fun e => (e.2.flow, e.2.off, e.2.data))

/-- The deadline has passed. -/
def mvbDeadlineDone (g : Nat) (s : State) : State :=
  modMvb g (fun m => { m with ports := tblMap (fun _ p => { p with taken := false }) m.ports }) s

/-- R465: links that a change of flow contexts broke are removed, with MVB_CONFIG. -/
def mvbCheckLinks (g : Nat) (s : State) : State :=
  let broken := ((mvbOf s g).ports.filter (fun e => e.2.linked && !(mvbLinkOk e.2 s))).map (fun e => e.1)
  forEach broken (fun a s =>
    raiseAt (lastInstant s) 0x0903 (leBytes 1 g ++ leBytes 2 a)
      (modMvb g (fun m => { m with ports := tblMap (fun k p => if k = a then { p with linked := false } else p) m.ports }) s)) s

/-- A configuration takes effect (R453): lines start sound, and a segment that goes Off stops. -/
def mvbApply (g : Nat) (c : MvbCfg) (s : State) : State :=
  let s1 := modMvb g (fun m => { m with cfg := c, cfgNext := none, flash := some (c, m.table) }) s
  let s2 := modMvb g (fun m => { m with roleAct := mvbRole c s1 }) s1
  if (mvbOf s2 g).roleAct = 2 then s2 else mvbCut g s2

/-- One segment at a registration instant (R453, R462, R463, R470); `rd flow off n` reads the published bank. -/
def mvbAtInstant (rd : Nat → Nat → Nat → List Byte) (g : Nat) (s : State) : State :=
  let s1 := match (mvbOf s g).cfgNext with
    | some c => finishQueued (fun q => q.opcode == 0x0901 && q.arg == g) 0 (areaWritten 10 (mvbApply g c s))
    | none => s
  let m := mvbOf s1 g
  let role := mvbRole m.cfg s1
  let s2 := if m.roleAct = 2 && role ≠ 2 then mvbCut g s1 else s1
  modMvb g (fun m => { m with
    roleAct := role
    portsNext := []
    ports := tblMap (fun _ p => match p.next with
        | some d => { p with data := d, next := none }
        | none => if p.dir = 1 && p.linked then { p with data := rd p.flow p.off (fcodeBytes p.fcode) } else p)
      (m.portsNext.foldl (fun t e => tblSet t e.1 e.2) m.ports) }) s2

/-- R495: Off; AGE values and records go, counters stay. -/
def mvbNodeReset (g : Nat) (s : State) : State := modMvb g (fun m => { Mvb.reset with ctr := m.ctr, flash := m.flash }) s

/-- R610, R495: a segment configured from flash. -/
def mvbLoad (g : Nat) (s : State) : State :=
  match (mvbOf s g).flash with
  | some (c, t) => mvbApply g c (modMvb g (fun m => { m with table := t }) s)
  | none => s

/-! ## Commands (R491) -/

/-- MVB_CONFIG. -/
def mvbConfigSpec : CmdSpec := flashSpec 0x0901 8 ([(2, 0x0E)] ++ zeros 3 3 ++ zeros 6 7)

/-- Done while the segment is Off, otherwise queued to the next instant. -/
def mvbConfigBody (r : Ring) (s : State) : Reply × State :=
  let g := byteAt r.req 0
  if 1 < g then (outOfRange 0, s)
  else if 2 < byteAt r.req 1 then (outOfRange 1, s)
  else if 4095 < fieldAt r.req 4 2 then (outOfRange 4, s)
  else
    let c : MvbCfg := { role := byteAt r.req 1, admClaim := (byteAt r.req 2).testBit 0
                        admSvc := BitVec.ofNat 4 (byteAt r.req 2 / 16), device := BitVec.ofNat 12 (fieldAt r.req 4 2) }
    if (mvbOf s g).cfg.role = 0 then (done [], mvbApply g c s)
    else (queued g, modMvb g (fun m => { m with cfgNext := some c }) s)

/-- MVB_POLL_STAGE. -/
def mvbStageSpec : CmdSpec :=
  { plainSpec 0x0902 12 (zeros 1 1) with maxLen := 2056, tied := some (2, 2, 8, 1) }

/-- Part of a poll table written. -/
def mvbStageBody (r : Ring) (s : State) : Reply × State :=
  let g := byteAt r.req 0
  let n := fieldAt r.req 2 2
  let off := fieldAt r.req 4 4
  if 1 < g then (outOfRange 0, s)
  else if n % 4 ≠ 0 then (outOfRange 2, s)
  else if off % 4 ≠ 0 || 16912 < off + n then (outOfRange 4, s)
  else (done [], modMvb g (fun m => { m with staged := memWrite m.staged off (r.req.drop 8) }) s)

/-- The staged poll table's header and parts. -/
def mvbParse (m : Mem) : PollTable where
  bp2 := memGet m 2 = 1
  sporUs := leNat (memRead m 4 2)
  entries := (List.range (leNat (memRead m 0 2))).map (fun i => BitVec.ofNat 32 (leNat (memRead m (16 + 4 * i) 4)))
  scan := (List.range (leNat (memRead m 6 2))).map (fun i =>
    BitVec.ofNat 16 (leNat (memRead m (16 + 4 * leNat (memRead m 0 2) + 2 * i) 2)))

/-- First position at which a property fails. -/
def firstBad {α : Type} (p : α → Bool) (l : List α) : Option Nat := l.findIdx? (fun x => !p x)

/-- First entry whose PORT an earlier one names. -/
def dupPort : List (BitVec 32) → List Nat → Nat → Option Nat
  | [], _, _ => none
  | e :: es, seen, i => if seen.contains (pollPort e) then some i else dupPort es (pollPort e :: seen) (i + 1)

/-- R460: the first failing check: its code, and the entry or basic period index. -/
def pollCheck (m : Mem) : Option (Nat × Nat) :=
  let n := leNat (memRead m 0 2)
  let sc := leNat (memRead m 6 2)
  let t := mvbParse m
  let bp := if t.bp2 then 2000 else 1000
  let body := memRead m 16 (4 * n + 2 * sc)
  if n < 1 || 4096 < n || 1 < (memGet m 2).toNat || memGet m 3 ≠ 0 || t.sporUs < 100 || bp / 2 < t.sporUs || 256 < sc ||
      leNat (memRead m 12 4) ≠ 0 || leNat (memRead m 8 4) ≠ (crc32c body).toNat ||
      t.entries.any (fun e => e.getLsbD 15 || e.getLsbD 30 || e.getLsbD 31) then some (1, 0)
  else match firstBad (fun e => pollFcode e ≤ 4 && pollPlog e ≤ 10 && pollPhase e < 2 ^ pollPlog e) t.entries with
  | some i => some (2, i)
  | none =>
    match dupPort t.entries [] 0 with
    | some i => some (3, i)
    | none =>
      match firstBad (fun b => (((t.entries.filter (pollDue b)).map (fun e => pollTime (pollFcode e))).sum) ≤ 3 * (bp - t.sporUs))
          (List.range 1024) with
      | some b => some (4, b)
      | none => if t.scan.any (fun d => 4096 ≤ d.toNat) then some (5, 0) else none

/-- MVB_POLL_COMMIT. -/
def mvbCommitSpec : CmdSpec := plainSpec 0x0903 8 (zeros 1 3)

/-- Checked under R460, then queued under R461. -/
def mvbCommitBody (r : Ring) (s : State) : Reply × State :=
  let g := byteAt r.req 0
  let c := BitVec.ofNat 32 (fieldAt r.req 4 4)
  if 1 < g then (outOfRange 0, s)
  else match pollCheck (mvbOf s g).staged with
    | some (code, x) => ({ outOfRangeAll with rsp := leBytes 2 code ++ leBytes 2 x }, s)
    | none => (queued g, modMvb g (fun m => { m with
        commit := some (mvbParse m.staged, c, !(wrapNewer c (cycleNo s))) }) s)

/-- MVB_PORT_SET. -/
def mvbPortSetSpec : CmdSpec :=
  plainSpec 0x0904 12 (zeros 1 3 ++ [(5, 0x80), (6, 0x08), (7, 0xFF), (9, 0x7E), (11, 0xF8)])

/-- The port record of R491 at payload offset 4. -/
def mvbRecord (req : List Byte) : MvbPort where
  fcode := bitsOf (fieldAt req 4 2) 12 3
  dir := byteAt req 6 % 4
  claim := (byteAt req 6).testBit 2
  svc := BitVec.ofNat 4 (byteAt req 6 / 16)
  linked := (fieldAt req 8 2).testBit 15
  flow := fieldAt req 8 2 % 512
  off := fieldAt req 10 2 % 2048
  data := List.replicate (fcodeBytes (bitsOf (fieldAt req 4 2) 12 3)) 0
  next := none
  age := 255
  held := false
  lineB := false
  taken := false

/-- R462, R465: in effect from the next instant. -/
def mvbPortSetBody (r : Ring) (s : State) : Reply × State :=
  let g := byteAt r.req 0
  let p := mvbRecord r.req
  if 1 < g then (outOfRange 0, s)
  else if 4 < p.fcode then (outOfRange 4, s)
  else if 2 < p.dir then (outOfRange 6, s)
  else if !(mvbLinkOk p s) then (outOfRange 8, s)
  else (done [], modMvb g (fun m => { m with portsNext := tblSet m.portsNext (fieldAt r.req 4 2 % 4096) p }) s)

/-- MVB_PORT_WRITE. -/
def mvbPortWriteSpec : CmdSpec := { plainSpec 0x0905 6 (zeros 1 1) with maxLen := 36 }

/-- R463: data of an unlinked source port, sent from the next instant. -/
def mvbPortWriteBody (r : Ring) (s : State) : Reply × State :=
  let g := byteAt r.req 0
  let a := fieldAt r.req 2 2
  if 1 < g then (outOfRange 0, s)
  else match tblGet (mvbOf s g).ports a with
    | some p =>
      if p.dir ≠ 1 || p.linked then (outOfRange 2, s)
      else if r.req.length ≠ 4 + fcodeBytes p.fcode then (fail 0x0101 6, s)
      else (done [], modMvb g (fun m => { m with ports := tblSet m.ports a { p with next := some (r.req.drop 4) } }) s)
    | none => (outOfRange 2, s)

/-- MVB_PORT_READ. -/
def mvbPortReadSpec : CmdSpec := plainSpec 0x0906 4 (zeros 1 1)

/-- R466. -/
def mvbPortReadBody (r : Ring) (s : State) : Reply × State :=
  let g := byteAt r.req 0
  let a := fieldAt r.req 2 2
  if 1 < g then (outOfRange 0, s)
  else if 4096 ≤ a then (outOfRange 2, s)
  else match tblGet (mvbOf s g).ports a with
    | some p => (done (leBytes 1 p.age ++ leBytes 1 (b2n p.held + 2 * b2n p.lineB) ++ [0, 0] ++ p.data), s)
    | none => (done (leBytes 1 255 ++ [0, 0, 0] ++ [0, 0]), s)

/-- R493: the segment status record. -/
def mvbStatusRec (m : Mvb) : List Byte :=
  recBytes 32 ([(0, 2, m.roleAct.toNat), (2, 1, b2n (m.roleAct ≠ 0 && !m.lineA.faulty)),
    (3, 1, b2n (m.roleAct ≠ 0 && !m.lineB.faulty)), (4, 1, b2n m.commit.isSome),
    (16, 13, (m.table.map (fun t => t.entries.length)).getD 0)] ++
    ctrFields m.ctr [32, 64, 96, 128, 160, 192] 223)

/-- MVB_STATUS. -/
def mvbStatusSpec : CmdSpec := plainSpec 0x0907 4 ([(1, 0xFE)] ++ zeros 2 3)

/-- The record, its counters cleared where asked. -/
def mvbStatusBody (r : Ring) (s : State) : Reply × State :=
  let g := byteAt r.req 0
  if 1 < g then (outOfRange 0, s)
  else (done (mvbStatusRec (mvbOf s g)),
    if clearAsked r.req 1 then modMvb g (fun m => { m with ctr := ctrClear m.ctr }) s else s)

/-- MVB_CONFIG (R453, R491). -/
def execMvbConfig (dt : Nat) (r : Ring) (s : State) : Host.Outcome State Fault Refusal :=
  .next (submit mvbConfigSpec mvbConfigBody dt r s)

/-- MVB_POLL_STAGE (R491). -/
def execMvbPollStage (dt : Nat) (r : Ring) (s : State) : Host.Outcome State Fault Refusal :=
  .next (submit mvbStageSpec mvbStageBody dt r s)

/-- MVB_POLL_COMMIT (R460, R461). -/
def execMvbPollCommit (dt : Nat) (r : Ring) (s : State) : Host.Outcome State Fault Refusal :=
  .next (submit mvbCommitSpec mvbCommitBody dt r s)

/-- MVB_PORT_SET (R462). -/
def execMvbPortSet (dt : Nat) (r : Ring) (s : State) : Host.Outcome State Fault Refusal :=
  .next (submit mvbPortSetSpec mvbPortSetBody dt r s)

/-- MVB_PORT_WRITE (R463). -/
def execMvbPortWrite (dt : Nat) (r : Ring) (s : State) : Host.Outcome State Fault Refusal :=
  .next (submit mvbPortWriteSpec mvbPortWriteBody dt r s)

/-- MVB_PORT_READ (R466). -/
def execMvbPortRead (dt : Nat) (r : Ring) (s : State) : Host.Outcome State Fault Refusal :=
  .next (submit mvbPortReadSpec mvbPortReadBody dt r s)

/-- MVB_STATUS (R493). -/
def execMvbStatus (dt : Nat) (r : Ring) (s : State) : Host.Outcome State Fault Refusal :=
  .next (submit mvbStatusSpec mvbStatusBody dt r s)

/-- MVB_BASIC_PERIOD_START (R454). -/
def execMvbBasicPeriodStart (dt : Nat) (g : Fin 2) (s : State) : Host.Outcome State Fault Refusal :=
  .next (mvbPeriod g (begin_ dt s))

/-- MVB_MASTER_FRAME_SEND (R456): 4.0 µs after the slave frame ended. -/
def execMvbMasterFrameSend (dt : Nat) (g : Fin 2) (s : State) : Host.Outcome State Fault Refusal :=
  let s1 := begin_ dt s
  .next (if (mvbOf s1 g.val).master.isNone then mvbNext g s1 else s1)

/-- MVB_NO_REPLY_TIMEOUT (R456). -/
def execMvbNoReplyTimeout (dt : Nat) (g : Fin 2) (s : State) : Host.Outcome State Fault Refusal :=
  .next (mvbNoReply g.val (begin_ dt s))

/-- MVB_MASTER_FRAME_RX (R463, R466, R468, R469). -/
def execMvbMasterFrameRx (dt : Nat) (g : Fin 2) (f : MvbMaster) (s : State) : Host.Outcome State Fault Refusal :=
  .next (mvbMasterRx g f (begin_ dt s))

/-- MVB_SLAVE_FRAME_RX (R464, R467, R468). -/
def execMvbSlaveFrameRx (dt : Nat) (g : Fin 2) (f : MvbSlave) (s : State) : Host.Outcome State Fault Refusal :=
  .next (mvbSlaveRx g f (begin_ dt s))

end Sys2Proof.Machine
end

