-- ==== Sys2Proof/Machine/Switch.lean ====
section
/-! DEFINITION. The consist switch (R472–R495): bridging, streams and meters, FRER, gates, buffer and MACsec. -/

namespace Sys2Proof.Machine

/-- A port counter (R493): 0 RX_FRAMES, 1 TX_FRAMES, 2 RX_FCS, 3 OVERSIZE, 4 VLAN_DROP, 5 NO_STREAM, 6 TAIL_DROP,
7 CLAIM_HOLD, 8 BUF_ECC, 9 MACSEC_FAIL. -/
def swCount (p i : Nat) (s : State) : State := modSw p (fun t => { t with ctr := ctrInc t.ctr i }) s

/-- A stream record of zeros, not enabled. -/
def streamZero : Stream where
  mac := 0
  vid := 0
  bySource := false
  en := false
  maxSdu := 0
  cbs := 0
  cir := 0
  eir := 0
  ebs := 0
  coupling := false
  dropYellow := false
  blockOversize := false
  claim := false
  svc := 0
  frer := 0
  history := 0
  resetMs := 0
  ports := 0
  blocked := false
  cTok := 0
  eTok := 0
  tokClk := 0
  genSeq := 0
  recSeq := none
  recHist := []
  recClk := 0
  ctr := Ctrs.zero 11

/-- Stream `h`. -/
def streamOf (s : State) (h : Nat) : Stream := (tblGet s.swc.streams h).getD streamZero

/-- Stream `h` changed. -/
def modStream (h : Nat) (f : Stream → Stream) (s : State) : State :=
  { s with swc := { s.swc with streams := tblSet s.swc.streams h (f (streamOf s h)) } }

/-- A stream counter (R493): 0 MATCH, 1 PASS, 2 SDU_DROP, 3 RED_DROP, 4 FRER_PASSED, 5 FRER_DISCARD, 6 FRER_OOO,
7 FRER_LOST, 8 FRER_RESETS, 9 FRER_ROGUE, 10 FRER_TAGLESS. -/
def streamCount (h i : Nat) (s : State) : State := modStream h (fun t => { t with ctr := ctrInc t.ctr i }) s

/-- A consist port, as against an internal one (R473). -/
def isConsist (p : Nat) : Bool := p < 16

/-- A consist port takes part in traffic: configured and with its link up. -/
def swActive (t : SwPort) : Bool := t.cfg.mode ≠ 0 && t.link

/-! ## Identification, metering, recovery (R481–R486) -/

/-- R481: the first enabled record, in ascending index, that a frame matches. -/
def streamFor (f : EthFrame) (vid : BitVec 12) (s : State) : Option Nat :=
  (s.swc.streams.find? (fun e => e.2.en && e.2.vid == vid && e.2.mac == (if e.2.bySource then f.src else f.dst))).map (fun e => e.1)

/-- Token units of one byte: a rate of 1 kbit/s adds one unit per tick of 1/65,536 ns. -/
def tokenUnit : Nat := 8 * 65536000000

/-- R482: the buckets filled up to now; what the committed bucket overflows goes to the excess bucket under the
coupling flag. -/
def meterFill (clk : Nat) (t : Stream) : Stream :=
  let dt := clk - t.tokClk
  let c := t.cTok + dt * t.cir
  let cmax := t.cbs * tokenUnit
  let spill := if t.coupling then c - cmax else 0
  { t with cTok := min c cmax, eTok := min (t.eTok + dt * t.eir + spill) (t.ebs * tokenUnit), tokClk := clk }

/-- R482: the meter's verdict on a frame of `len` bytes, colour-blind: passed or not. -/
def meter (clk len : Nat) (t : Stream) : Bool × Stream :=
  if t.cir = 0 then (true, t)
  else
    let u := meterFill clk t
    let n := len * tokenUnit
    if n ≤ u.cTok then (true, { u with cTok := u.cTok - n })
    else if n ≤ u.eTok then (!u.dropYellow, { u with eTok := u.eTok - n })
    else (false, u)

/-- R485: the history moved up by `n` places: how many sequence numbers fall out never received, and the history. -/
def histShift : Nat → Nat → List Bool → Nat × List Bool
  | 0, _, h => (0, h)
  | n + 1, len, h =>
    let lost := b2n (len ≤ h.length && !(h.getD (len - 1) true))
    let r := histShift n len ((false :: h).take len)
    (lost + r.1, r.2)

/-- R485, R486: vector recovery (IEEE 802.1CB; PRESUMED, log 30): passed or not, and the record, which keeps the moment of
the last frame accepted. -/
def recover (clk : Nat) (rtag : Option (BitVec 16)) (t : Stream) : Bool × Stream :=
  match rtag with
  | none => (true, { t with ctr := ctrInc t.ctr 10 })
  | some q =>
    match t.recSeq with
    | none => (true, { t with recClk := clk, recSeq := some q, recHist := true :: List.replicate (t.history - 1) false, ctr := ctrInc t.ctr 4 })
    | some r =>
      let d := (q - r).toInt
      if (t.history : Int) ≤ d || d ≤ -(t.history : Int) then (false, { t with ctr := ctrInc t.ctr 9 })
      else if d ≤ 0 then
        let i := (-d).toNat
        if t.recHist.getD i false then (false, { t with ctr := ctrInc t.ctr 5 })
        else (true, { t with recClk := clk, recHist := updAt t.recHist i (fun _ => true), ctr := ctrInc (ctrInc t.ctr 6) 4 })
      else
        let x := histShift d.toNat t.history t.recHist
        let c1 := if d = 1 then t.ctr else ctrInc t.ctr 6
        (true, { t with recClk := clk, recSeq := some q, recHist := updAt x.2 0 (fun _ => true), ctr := ctrInc (updAt c1 7 (satAdd x.1)) 4 })

/-- R482, R485: a frame of stream `h` passes the filter, the meter and recovery, or is dropped. -/
def streamPass (h : Nat) (f : EthFrame) (s : State) : Bool × State :=
  let s1 := streamCount h 0 s
  let t := streamOf s1 h
  if t.blocked then (false, s1)
  else if t.maxSdu ≠ 0 && t.maxSdu < f.len then
    (false, modStream h (fun t => { t with blocked := t.blockOversize, ctr := ctrInc t.ctr 2 }) s1)
  else
    let m := meter s1.clk f.len t
    let s2 := modStream h (fun _ => if m.1 then { m.2 with ctr := ctrInc m.2.ctr 1 } else { m.2 with ctr := ctrInc m.2.ctr 3 }) s1
    if !m.1 then (false, s2)
    else if t.frer = 2 && t.ports.getLsbD f.port.val then
      let x := recover s2.clk f.rtag (streamOf s2 h)
      (x.1, modStream h (fun _ => x.2) s2)
    else (true, s2)

/-! ## Buffer and queues (R487, R488) -/

/-- Cells of a frame. -/
def cellsOf (len : Nat) : Nat := (len + 255) / 256

/-- Cells held by a queue. -/
def queueCells (q : List EgFrame) : Nat := (q.map (fun e => e.cells)).sum

/-- Cells a queue holds beyond its own 16. -/
def sharedUse (q : List EgFrame) : Nat := queueCells q - 16

/-- The shared cells: those of the banks in use, less 16 for each of the 176 queues. -/
def sharedTotal (s : State) : Nat := 1024 * (s.swc.banks.filter (fun b => b.inUse && !b.retired)).length - 16 * 176

/-- Shared cells that are free. -/
def sharedFree (s : State) : Nat :=
  sharedTotal s - ((s.swc.ports.flatMap (fun t => t.queues.map sharedUse)).sum)

/-- The banks new cells are taken from: in use and not draining (R659). -/
def openBanks (s : State) : List Nat :=
  (List.range 26).filter (fun i => match s.swc.banks[i]? with | some b => b.inUse && !b.draining && !b.retired | none => false)

/-- R487, R488: a frame enters an egress queue, or is dropped for want of a cell. Which bank takes it is left open. -/
def swEnqueue (p q : Nat) (f : EthFrame) (rtag : Option (BitVec 16)) (h : Option (Fin 256)) (s : State) : State :=
  let old := (swOf s p).queues.getD q []
  let n := cellsOf f.len
  let extra := (queueCells old + n - 16) - sharedUse old
  let fits := extra = 0 || (sharedUse old < 2 * sharedFree s && extra ≤ sharedFree s)
  if !fits then swCount p 6 s
  else
    let (x, s1) := takeFree (max 1 (openBanks s).length) s
    modSw p (fun t => { t with queues := updAt t.queues q (fun l => l ++
      [{ frame := f, rtag := rtag, stream := h, bank := (openBanks s).getD x 0, cells := n }]) }) s1

/-! ## Forwarding (R474, R475, R483–R485) -/

/-- Member mask of a VID. -/
def vlanMembers (vid : BitVec 12) (s : State) : BitVec 32 := ((tblGet s.swc.vlans vid.toNat).getD (0, 0)).1

/-- The frame's VID: its tag's, or the port's PVID. -/
def frameVid (f : EthFrame) (t : SwPort) : BitVec 12 := f.vlan.getD t.cfg.pvid

/-- R475: acceptable frame types and ingress filtering of a consist port. -/
def vlanAccepts (f : EthFrame) (s : State) : Bool :=
  let t := swOf s f.port.val
  (match t.cfg.accept with
   | 1 => f.vlan.isSome
   | 2 => f.vlan.isNone
   | _ => true) && (vlanMembers (frameVid f t) s).getLsbD f.port.val

/-- A group address. -/
def isGroup (a : BitVec 48) : Bool := a.getLsbD 0

/-- R475: the source address learned for its VID, up to 16,384 entries, with the moment it was seen. -/
def learn (f : EthFrame) (vid : BitVec 12) (s : State) : State :=
  if isGroup f.src || s.swc.addrs.any (fun e => e.1 == f.src && e.2.1 == vid && e.2.2.2.1) then s
  else
    let rest := s.swc.addrs.filter (fun e => !(e.1 == f.src && e.2.1 == vid))
    if 16384 ≤ rest.length then s
    else { s with swc := { s.swc with addrs := rest ++ [(f.src, vid, f.port.val, false, s.clk)] } }

/-- Ports a frame goes to: the address table's, or every member but the one it came in by. -/
def egressPorts (f : EthFrame) (vid : BitVec 12) (s : State) : List Nat :=
  let members := (List.range 22).filter (fun p => (vlanMembers vid s).getLsbD p && p ≠ f.port.val)
  match s.swc.addrs.find? (fun e => e.1 == f.dst && e.2.1 == vid) with
  | some e => if isGroup f.dst then members else members.filter (fun p => p == e.2.2.1)
  | none => members

/-- R475: the frame as port `p` sends it: without its tag where the VID's untagged mask names the port, tagged otherwise. -/
def taggedFor (vid : BitVec 12) (p : Nat) (f : EthFrame) (s : State) : EthFrame :=
  if ((tblGet s.swc.vlans vid.toNat).getD (0, 0)).2.getLsbD p then
    { f with vlan := none, len := if f.vlan.isSome then f.len - 4 else f.len }
  else { f with vlan := some vid, len := if f.vlan.isSome then f.len else f.len + 4 }

/-- R484: the claim gate of a record withholds a frame of the flow engine, the cluster or the host bridge from a consist
port. -/
def egressGated (h : Option (Fin 256)) (from_ p : Nat) (s : State) : Bool :=
  isConsist p && (from_ = 17 || from_ = 20 || from_ = 21) &&
  (match h with
   | some k => (streamOf s k.val).claim && !(gateOpen (streamOf s k.val).svc.toNat s)
   | none => false)

/-- R481, R484: a port whose frames are held against the stream records: a consist port, and the flow engine, the cluster
and the host bridge, whose frames a record's gate withholds (DEDUCED, log 24). -/
def identifies (p : Nat) : Bool := isConsist p || p = 17 || p = 20 || p = 21

/-- The frame at one egress port: no frame without a record reaches the trunk gateway (R483); gated for a consist port (R484), queued. -/
def egress (h : Option (Fin 256)) (rtag : Option (BitVec 16)) (vid : BitVec 12) (g : EthFrame) (p : Nat) (s : State) : State :=
  let f := taggedFor vid p g s
  if p = 16 then
    if h.isNone then swCount 16 5 s
    else if s.fab.attached then fabOriginate 0x10 3 (.eth f) s
    else forEach (trainPorts s) (fun q s =>
      trunkEnqueue q (pcpQueue f.pcp.toNat) { frame := .eth f, len := f.len, deferred := false, ctx := none, urgent := false } s) s
  else if isConsist p && !(swActive (swOf s p)) then s
  else if egressGated h f.port.val p s then swCount p 7 s
  else swEnqueue p f.pcp.toNat f rtag h s

/-- A frame that has passed the ingress checks goes to its egress ports; a stream that generates (R485) sends it with
an R-TAG on the two ports of its mask, and one that recovers takes the R-TAG off frames from the two ports of its. An R-TAG
is 6 bytes long. -/
def swForward (h : Option Nat) (f : EthFrame) (s : State) : State :=
  let vid := frameVid f (swOf s f.port.val)
  let hf : Option (Fin 256) := h.map (fun k => ⟨k % 256, Nat.mod_lt _ (by decide)⟩)
  match h with
  | some k =>
    let t := streamOf s k
    if t.frer = 1 then
      let s1 := modStream k (fun t => { t with genSeq := t.genSeq + 1 }) s
      forEach ((List.range 16).filter (fun p => t.ports.getLsbD p)) (egress hf (some t.genSeq) vid { f with len := f.len + 6 }) s1
    else if t.frer = 2 && t.ports.getLsbD f.port.val then
      forEach (egressPorts f vid s) (egress hf none vid { f with len := f.len - (if f.rtag.isSome then 6 else 0) }) s
    else forEach (egressPorts f vid s) (egress hf f.rtag vid f) s
  | none => forEach (egressPorts f vid s) (egress hf f.rtag vid f) s

/-- A frame enters the switch core. -/
def switchIn (f : EthFrame) (s : State) : State :=
  let p := f.port.val
  let t := swOf s p
  if isConsist p && !(swActive t) then s
  else
    let s1 := swCount p 0 s
    if !f.fcsOk then swCount p 2 s1
    else if 2000 < f.len then swCount p 3 s1
    else if f.len < 64 then s1
    else if isConsist p && t.cfg.macsec && !(f.secTagOk && t.sak.isSome) then swCount p 9 s1
    else if isConsist p && !(vlanAccepts f s) then swCount p 4 s1
    else
      let vid := frameVid f t
      let s2 := learn f vid s1
      match (if identifies p then streamFor f vid s2 else none) with
      | some h =>
        let x := streamPass h f s2
        if x.1 then swForward (some h) f x.2 else x.2
      | none => swForward none f s2

/-- R36, R368: a frame from a cluster pair passes its output hold buffer first; a pair that is halted, fenced or held in
reset sends none. -/
def consistRx (f : EthFrame) (s : State) : State :=
  match (if f.port = 20 then f.pair else none) with
  | some l =>
    let p := pairOf s l.val
    if p.halted then s
    else if pairLocked p then holdTxn l.val (.frame f) 0 f.len (some []) s
    else if pairSplit p then switchIn f s
    else s
  | none => switchIn f s

/-! ## Egress and gates (R476–R478) -/

/-- Bits per microsecond of a consist port's speed. -/
def portSpeed (t : SwPort) : Nat :=
  match t.speed.toNat with
  | 0 => 10
  | 1 => 100
  | _ => 1000

/-- The gate of queue `q` stays open for at least `need` ns from `at_` ns into the cycle, over the entries laid out from
the cycle's start as often as given. -/
def gateSpan (q : Nat) : List (Byte × Nat) → Nat → Nat → Nat → Bool
  | [], _, _, need => need = 0
  | (g, n) :: es, start, at_, need =>
    if start + n ≤ at_ then gateSpan q es (start + n) at_ need
    else if !(g.getLsbD q) then false
    else
      let left := start + n - at_
      if need ≤ left then true else gateSpan q es (start + n) (start + n) (need - left)

/-- R478: a frame that lasts `need` ns may start now. -/
def gateAllows (t : SwPort) (q need now : Nat) : Bool :=
  match t.gcl with
  | none => true
  | some g =>
    if !t.cfg.gates || g.ct = 0 then true
    else
      let es := (List.replicate (need / g.ct + 2) g.entries).flatten
      gateSpan q es 0 (nsField now % g.ct) need

/-- Time of a frame on the wire in ns, its 8 bytes of preamble and delimiter included. -/
def wireNs (t : SwPort) (len : Nat) : Nat := (len + 8) * 8 * 1000 / portSpeed t

/-- A queue of a port may start its head frame now. -/
def queueReady (p : Nat) (t : SwPort) (q now : Nat) : Bool :=
  match (t.queues.getD q []).head? with
  | some e => !(isConsist p) || gateAllows t q (wireNs t e.frame.len) now
  | none => false

/-- R476, R489, R490: queue `q` of port `p` starts its head frame when no higher queue is ready; a MACsec port that is
not secured sends nothing of this. The claim gate is judged as the frame leaves (R39, R484). -/
def swEgress (p : Fin 22) (q : Nat) (s : State) : State :=
  let t := swOf s p.val
  let blocked := isConsist p.val && (!(swActive t) || (t.cfg.macsec && !t.secured))
  if blocked || !(queueReady p.val t q s.now) || (List.range 8).any (fun k => q < k && queueReady p.val t k s.now) then s
  else match t.queues.getD q [] with
    | e :: es =>
      let s1 := modSw p.val (fun t => { t with queues := updAt t.queues q (fun _ => es) }) s
      if egressGated e.stream e.frame.port.val p.val s then swCount p.val 7 s1
      else emit (.consist p e.frame e.rtag) (swCount p.val 1 s1)
    | [] => s

/-! ## Links and MACsec (R489, R490, R494) -/

/-- MACSEC_SECURED changes, with SWC_MACSEC. -/
def setSecured (p : Nat) (b : Bool) (s : State) : State :=
  if (swOf s p).secured = b then s
  else raise 0x0A03 (leBytes 1 p ++ leBytes 1 (b2n b)) (modSw p (fun t => { t with secured := b }) s)

/-- R472: the speed of a link that comes up under a port's mode: the mode's where it is fixed. -/
def linkSpeed (c : SwcCfg) (v : Nat) : Nat :=
  match c.mode with
  | 2 => 2
  | 3 => 1
  | 4 => 0
  | _ => v

/-- R472: the T1 role of a link that comes up under a port's mode: the configured one where the mode is fixed. -/
def linkMaster (c : SwcCfg) (m : Bool) : Bool := if 2 ≤ c.mode then c.t1Master else m

/-- A consist port's link changes (R494), the event of a lost link with speed 0xFF (R571); a lost link has no live peer (R490)
and no link delay (R242). -/
def linkChange (p : Nat) (up : Bool) (speed : Nat) (t1 : Bool) (s : State) : State :=
  let t := swOf s p
  if t.link = up || (up && t.cfg.mode = 0) then s
  else
    let s1 := modSw p (fun t => { t with link := up, speed := BitVec.ofNat 2 (linkSpeed t.cfg speed), t1Master := linkMaster t.cfg t1 }) s
    let s2 := raise 0x0A01 (leBytes 1 p ++ leBytes 1 (if up then linkSpeed t.cfg speed else 0xFF)) s1
    if up then s2
    else
      let s3 := { s2 with time := { s2.time with links := updAt s2.time.links p (fun _ => none) } }
      setSecured p false (modSw p (fun t => { t with live := false, server := false, sak := none }) s3)

/-- R490: the key server distributes a new SAK and uses it. -/
def sakDistribute (p : Fin 16) (s : State) : State :=
  let t := swOf s p.val
  if t.cfg.macsec && t.server && t.live then
    let n := s.swc.sakNext + 1
    setSecured p.val true (emit (.mkpdu p (some n))
      (modSw p.val (fun t => { t with sak := some n }) { s with swc := { s.swc with sakNext := n } }))
  else s

/-- R489: an MKPDU: the lower key server priority is key server; what decides an equal one (the SCI) is left open. -/
def mkaRx (p : Fin 16) (m : MkPdu) (s : State) : State :=
  let t := swOf s p.val
  if !t.cfg.macsec || t.key.isNone || !m.icvOk || !t.link then s
  else
    let (x, s0) := if t.cfg.ksPrio = m.serverPrio then takeFree 2 s else (0, s)
    let server := t.cfg.ksPrio.toNat < m.serverPrio.toNat || (t.cfg.ksPrio = m.serverPrio && x = 1)
    let s1 := modSw p.val (fun t => { t with live := true, liveClk := s0.clk, server := server }) s0
    if server then (if m.pnExhausted || t.sak.isNone then sakDistribute p s1 else s1)
    else match m.sak with
      | some k => setSecured p.val true (modSw p.val (fun t => { t with sak := some k }) s1)
      | none => s1

/-! ## The instant (R477, R479, R480) and node reset (R495) -/

/-- A committed list whose cycle has come. -/
def gclDue (t : SwPort) (s : State) : Bool :=
  match t.commit with
  | some (c, late) => late || c == cycleNo s || wrapNewer (cycleNo s) c
  | none => false

/-- The mask of ports with a property. -/
def portMask (p : SwPort → Bool) (s : State) : Nat :=
  ((List.range 16).map (fun i => b2n (p (swOf s i)) * 2 ^ i)).sum

/-- R479: staged lists whose cycle has come become operational. -/
def gclAtInstant (s : State) : State :=
  let onTime := portMask (fun t => gclDue t s && !((t.commit.map (fun c => c.2)).getD false)) s
  let late := portMask (fun t => gclDue t s && ((t.commit.map (fun c => c.2)).getD false)) s
  let s1 := { s with swc := { s.swc with ports := s.swc.ports.map (fun t =>
    if gclDue t s then { t with gcl := t.staged, staged := none, commit := none } else t) } }
  let ev (m cause : Nat) (s : State) : State :=
    if m = 0 then s else raiseAt (lastInstant s) 0x0A02 (leBytes 2 m ++ leBytes 1 cause) s
  let s2 := ev late 1 (ev onTime 0 s1)
  finishQueued (fun q => q.opcode == 0x0A06 && (List.range 16).all (fun i => !(q.arg.testBit i) || (swOf s2 i).commit.isNone)) 0 s2

/-- R480: lists whose CT no longer divides the macrocycle go out of use; a commit withdrawn so ends CANCELLED. -/
def gclMacroChange (s : State) : State :=
  let len := cycleUs s * 1000
  let bad (g : Option Gcl) : Bool := match g with | some g => len % (max 1 g.ct) ≠ 0 | none => false
  let m := portMask (fun t => bad t.gcl) s
  let s1 := { s with swc := { s.swc with ports := s.swc.ports.map (fun t => { t with
    gcl := if bad t.gcl then none else t.gcl
    commit := if bad t.staged then none else t.commit
    staged := if bad t.staged then none else t.staged }) } }
  let s2 := if m = 0 then s1 else raiseAt (lastInstant s) 0x0A02 (leBytes 2 m ++ leBytes 1 2) s1
  let gone := portMask (fun t => t.commit.isSome && bad t.staged) s
  let ended (arg : Nat) : Bool := (List.range 16).all (fun i => !(arg.testBit i) || (swOf s2 i).commit.isNone)
  if gone = 0 then s2 else finishQueued (fun q => q.opcode == 0x0A06 && q.arg &&& gone ≠ 0 && ended q.arg) 0x010B s2

/-- R490, IEEE 802.1X-2020: a peer not heard for 6 s is no longer live (PRESUMED, log 24). -/
def peerLost (p : Nat) (s : State) : State :=
  let t := swOf s p
  if t.live && t.liveClk + secT 6 ≤ s.clk then
    setSecured p false (modSw p (fun t => { t with live := false, server := false, sak := none }) s)
  else s

/-- A port's configuration takes effect; a disabled port loses its link. -/
def swApply (p : Nat) (c : SwcCfg) (s : State) : State :=
  let s1 := modSw p (fun t => { t with cfg := c, cfgNext := none }) s
  if c.mode = 0 then linkChange p false 0 false s1 else s1

/-- R610: no switch configuration in flash: ports disabled, no table entries. -/
def swcSavedNone (s : State) : SwcSaved where
  ports := s.swc.ports.map (fun _ => SwPort.reset.cfg)
  vlans := []
  statics := []
  streams := []
  gcls := s.swc.ports.map (fun _ => none)

/-- A port's configuration put into flash beside what SWC_SAVE stored there last (R491; DEDUCED, log 33). -/
def swcStorePort (p : Nat) (c : SwcCfg) (s : State) : State :=
  let f := s.swc.saved.getD (swcSavedNone s)
  { s with swc := { s.swc with saved := some { f with ports := updAt f.ports p (fun _ => c) } } }

/-- The switch at a registration instant. -/
def swAtInstant (s : State) : State :=
  let changing := (List.range 16).filter (fun p => (swOf s p).cfgNext.isSome)
  let s1 := forEach changing (fun p s => match (swOf s p).cfgNext with
    | some c => finishQueued (fun q => q.opcode == 0x0A01 && q.arg == p) 0 (areaWritten 11 (swcStorePort p c (swApply p c s)))
    | none => s) s
  gclAtInstant (forEach (List.range 16) peerLost s1)

/-- What SWC_SAVE stores. -/
def swcImage (s : State) : SwcSaved where
  ports := s.swc.ports.map (fun t => t.cfg)
  vlans := s.swc.vlans
  statics := (s.swc.addrs.filter (fun e => e.2.2.2.1)).map (fun e => (e.1, e.2.1, e.2.2.1))
  streams := tblMap (fun _ t => { t with blocked := false, cTok := 0, eTok := 0, tokClk := 0, recSeq := none, recHist := [], recClk := 0, genSeq := 0, ctr := Ctrs.zero 11 }) s.swc.streams
  gcls := s.swc.ports.map (fun t => t.gcl)

/-- The stored switch configuration loaded, every bucket full; counters and CAKs stay. -/
def swcLoad (s : State) : State :=
  match s.swc.saved with
  | none => s
  | some f => { s with swc := { s.swc with
      ports := List.zipWith (fun (t : SwPort) (x : SwcCfg × Option Gcl) => { t with cfg := x.1, gcl := x.2 }) s.swc.ports
        (List.zip f.ports f.gcls)
      vlans := f.vlans
      addrs := f.statics.map (fun e => (e.1, e.2.1, e.2.2, true, 0))
      streams := tblMap (fun h t => { t with
        ctr := (streamOf s h).ctr, cTok := t.cbs * tokenUnit, eTok := t.ebs * tokenUnit, tokClk := s.clk }) f.streams } }

/-- R495, but for the load of the saved configuration, which start step 0x6 does. -/
def swcNodeReset (s : State) : State :=
  { s with swc := { s.swc with
    ports := s.swc.ports.map (fun t => { SwPort.reset with key := t.key, ctr := t.ctr, calIn := t.calIn, calOut := t.calOut })
    vlans := [], addrs := []
    streams := tblMap (fun _ t => { streamZero with ctr := t.ctr }) s.swc.streams } }

/-! ## Commands (R491–R493) -/

/-- SWC_PORT_CONFIG. -/
def swcPortConfigSpec : CmdSpec := flashSpec 0x0A01 8 [(2, 0xF8)]

/-- The configuration a SWC_PORT_CONFIG request carries. -/
def swcPortCfg (req : List Byte) : SwcCfg where
  mode := byteAt req 1
  t1Master := (byteAt req 2).testBit 0
  macsec := (byteAt req 2).testBit 1
  gates := (byteAt req 2).testBit 2
  replay := BitVec.ofNat 8 (byteAt req 3)
  pvid := BitVec.ofNat 12 (fieldAt req 4 2)
  accept := byteAt req 6
  ksPrio := BitVec.ofNat 8 (byteAt req 7)

/-- Queued to the next instant, at which the configuration takes effect and is stored in flash. -/
def swcPortConfigBody (r : Ring) (s : State) : Reply × State :=
  let p := byteAt r.req 0
  let m := byteAt r.req 1
  if 15 < p then (outOfRange 0, s)
  else if 4 < m || (m = 4 && p < 12) then (outOfRange 1, s)
  else if fieldAt r.req 4 2 < 1 || 4094 < fieldAt r.req 4 2 then (outOfRange 4, s)
  else if 2 < byteAt r.req 6 then (outOfRange 6, s)
  else (queued p, modSw p (fun t => { t with cfgNext := some (swcPortCfg r.req) }) s)

/-- R493: the consist port status record. -/
def swcPortRec (p : Nat) (t : SwPort) : List Byte :=
  recBytes 48 ((if isConsist p then [(0, 1, b2n t.link), (1, 2, t.speed.toNat), (3, 1, b2n t.secured),
    (4, 1, b2n t.t1Master), (16, 12, t.cfg.pvid.toNat)] else []) ++
    ctrFields t.ctr [32, 64, 96, 128, 160, 192, 224, 256, 288, 320] 351)

/-- SWC_PORT_STATUS. -/
def swcPortStatusSpec : CmdSpec := plainSpec 0x0A02 4 ([(1, 0xFE)] ++ zeros 2 3)

/-- The record, its counters cleared where asked. -/
def swcPortStatusBody (r : Ring) (s : State) : Reply × State :=
  let p := byteAt r.req 0
  if 21 < p then (outOfRange 0, s)
  else (done (swcPortRec p (swOf s p)),
    if clearAsked r.req 1 then modSw p (fun t => { t with ctr := ctrClear t.ctr }) s else s)

/-- SWC_VLAN_SET. -/
def swcVlanSetSpec : CmdSpec := plainSpec 0x0A03 12 (zeros 2 3 ++ [(6, 0xC0), (7, 0xFF), (10, 0xC0), (11, 0xFF)])

/-- Member and untagged masks of a VID. -/
def swcVlanSetBody (r : Ring) (s : State) : Reply × State :=
  let v := fieldAt r.req 0 2
  if v < 1 || 4094 < v then (outOfRange 0, s)
  else
    let t := tblSet s.swc.vlans v (BitVec.ofNat 32 (fieldAt r.req 4 4), BitVec.ofNat 32 (fieldAt r.req 8 4))
    (done [], { s with swc := { s.swc with vlans := t } })

/-- Bits set among the low 16. -/
def bitCount (v : Nat) : Nat := ((List.range 16).map (fun i => b2n (v.testBit i))).sum

/-- SWC_STREAM_SET. -/
def swcStreamSetSpec : CmdSpec := plainSpec 0x0A04 36 (zeros 1 3 ++ [(11, 0x60), (27, 0xFC)] ++ zeros 32 35)

/-- The stream record of R492 at payload offset 4. -/
def streamRecord (q : List Byte) : Stream :=
  let m := fieldAt q 10 2
  { streamZero with
    mac := BitVec.ofNat 48 (fieldAt q 4 6), vid := BitVec.ofNat 12 m, bySource := m.testBit 12, en := m.testBit 15,
    maxSdu := fieldAt q 12 2, cbs := fieldAt q 14 2, cir := fieldAt q 16 4, eir := fieldAt q 20 4, ebs := fieldAt q 24 2,
    coupling := (byteAt q 26).testBit 0, dropYellow := (byteAt q 26).testBit 1, blockOversize := (byteAt q 26).testBit 2,
    claim := (byteAt q 26).testBit 3, svc := BitVec.ofNat 4 (byteAt q 26 / 16), frer := BitVec.ofNat 2 (byteAt q 27),
    history := byteAt q 28, resetMs := byteAt q 29, ports := BitVec.ofNat 16 (fieldAt q 30 2) }

/-- A record written: its counters cleared, its buckets full, its recovery new. -/
def swcStreamSetBody (r : Ring) (s : State) : Reply × State :=
  let t := streamRecord r.req
  if t.frer = 3 then (outOfRange 27, s)
  else if t.frer = 2 && (t.history < 2 || 32 < t.history) then (outOfRange 28, s)
  else if t.frer = 2 && t.resetMs < 1 then (outOfRange 29, s)
  else if t.frer ≠ 0 && bitCount t.ports.toNat ≠ 2 then (outOfRange 30, s)
  else (done [], modStream (byteAt r.req 0) (fun _ => { t with
    cTok := t.cbs * tokenUnit, eTok := t.ebs * tokenUnit, tokClk := s.clk }) s)

/-- SWC_GCL_STAGE. -/
def swcGclStageSpec : CmdSpec :=
  { plainSpec 0x0A05 16 (zeros 2 3) with maxLen := 1032, tied := some (1, 1, 8, 8) }

/-- The entries of a staged list: gate states and interval. -/
def gclEntries (q : List Byte) : List (Byte × Nat) :=
  (List.range (byteAt q 1)).map (fun i => (q.getD (8 + 8 * i) 0, fieldAt q (12 + 8 * i) 4))

/-- First reserved byte of an entry that is not 0. -/
def gclReserved (q : List Byte) : Option Nat :=
  reservedSet ((List.range (byteAt q 1)).flatMap (fun i => zeros (9 + 8 * i) (11 + 8 * i))) q

/-- R477: CT divides the macrocycle and the intervals sum to it. -/
def swcGclStageBody (r : Ring) (s : State) : Reply × State :=
  let p := byteAt r.req 0
  let ct := fieldAt r.req 4 4
  let es := gclEntries r.req
  match gclReserved r.req with
  | some off => (outOfRange off, s)
  | none =>
    if 15 < p then (outOfRange 0, s)
    else if 128 < byteAt r.req 1 then (outOfRange 1, s)
    else if ct = 0 || cycleUs s * 1000 % ct ≠ 0 then (outOfRange 4, s)
    else if (es.map (fun e => e.2)).sum ≠ ct then (outOfRangeAll, s)
    else (done [], modSw p (fun t => { t with staged := some { ct := ct, entries := es } }) s)

/-- SWC_GCL_COMMIT. -/
def swcGclCommitSpec : CmdSpec := plainSpec 0x0A06 8 (zeros 2 3)

/-- Queued to cycle C; every port named must hold a staged list. -/
def swcGclCommitBody (r : Ring) (s : State) : Reply × State :=
  let m := fieldAt r.req 0 2
  let c := BitVec.ofNat 32 (fieldAt r.req 4 4)
  let ps := (List.range 16).filter (fun p => m.testBit p)
  if ps.any (fun p => (swOf s p).staged.isNone) || ps.isEmpty then (outOfRange 0, s)
  else (queued m, forEach ps (fun p s => modSw p (fun t => { t with commit := some (c, !(wrapNewer c (cycleNo s))) }) s) s)

/-- SWC_MACSEC_KEY. -/
def swcMacsecKeySpec : CmdSpec := { flashSpec 0x0A07 52 (zeros 1 3) with noRemote := true }

/-- CAK and CKN stored. -/
def swcMacsecKeyBody (r : Ring) (s : State) : Reply × State :=
  if 15 < byteAt r.req 0 then (outOfRange 0, s)
  else (done [], modSw (byteAt r.req 0) (fun t => { t with
    key := some ((r.req.drop 4).take 32, (r.req.drop 36).take 16) }) s)

/-- R493: the stream status record. -/
def streamRec (h : Nat) (t : Stream) : List Byte :=
  recBytes 52 ([(0, 8, h), (8, 1, b2n t.en), (9, 1, b2n t.blocked)] ++
    ctrFields t.ctr [32, 64, 96, 128, 160, 192, 224, 256, 288, 320, 352] 383)

/-- SWC_STREAM_STATUS. -/
def swcStreamStatusSpec : CmdSpec := plainSpec 0x0A08 4 ([(1, 0xFE)] ++ zeros 2 3)

/-- The record, its counters cleared where asked. -/
def swcStreamStatusBody (r : Ring) (s : State) : Reply × State :=
  let h := byteAt r.req 0
  (done (streamRec h (streamOf s h)),
    if clearAsked r.req 1 then modStream h (fun t => { t with ctr := ctrClear t.ctr }) s else s)

/-- SWC_SAVE. -/
def swcSaveSpec : CmdSpec := flashSpec 0x0A09 4 (zeros 0 3)

/-- Queued; the store is the queued work. -/
def swcSaveBody (_r : Ring) (s : State) : Reply × State := (queued 0, s)

/-- The queued work of SWC_SAVE. -/
def swcSaveWork (s : State) : State := { s with swc := { s.swc with saved := some (swcImage s) } }

/-- SWC_PORT_CONFIG (R491). -/
def execSwcPortConfig (dt : Nat) (r : Ring) (s : State) : Host.Outcome State Fault Refusal :=
  .next (submit swcPortConfigSpec swcPortConfigBody dt r s)

/-- SWC_PORT_STATUS (R493). -/
def execSwcPortStatus (dt : Nat) (r : Ring) (s : State) : Host.Outcome State Fault Refusal :=
  .next (submit swcPortStatusSpec swcPortStatusBody dt r s)

/-- SWC_VLAN_SET (R475). -/
def execSwcVlanSet (dt : Nat) (r : Ring) (s : State) : Host.Outcome State Fault Refusal :=
  .next (submit swcVlanSetSpec swcVlanSetBody dt r s)

/-- SWC_STREAM_SET (R492). -/
def execSwcStreamSet (dt : Nat) (r : Ring) (s : State) : Host.Outcome State Fault Refusal :=
  .next (submit swcStreamSetSpec swcStreamSetBody dt r s)

/-- SWC_GCL_STAGE (R477). -/
def execSwcGclStage (dt : Nat) (r : Ring) (s : State) : Host.Outcome State Fault Refusal :=
  .next (submit swcGclStageSpec swcGclStageBody dt r s)

/-- SWC_GCL_COMMIT (R479). -/
def execSwcGclCommit (dt : Nat) (r : Ring) (s : State) : Host.Outcome State Fault Refusal :=
  .next (submit swcGclCommitSpec swcGclCommitBody dt r s)

/-- SWC_MACSEC_KEY (R489). -/
def execSwcMacsecKey (dt : Nat) (r : Ring) (s : State) : Host.Outcome State Fault Refusal :=
  .next (submit swcMacsecKeySpec swcMacsecKeyBody dt r s)

/-- SWC_STREAM_STATUS (R493). -/
def execSwcStreamStatus (dt : Nat) (r : Ring) (s : State) : Host.Outcome State Fault Refusal :=
  .next (submit swcStreamStatusSpec swcStreamStatusBody dt r s)

/-- SWC_SAVE (R491). -/
def execSwcSave (dt : Nat) (r : Ring) (s : State) : Host.Outcome State Fault Refusal :=
  .next (submit swcSaveSpec swcSaveBody dt r s)

/-- CONSIST_FRAME_RX (R474). -/
def execConsistFrameRx (dt : Nat) (f : EthFrame) (s : State) : Host.Outcome State Fault Refusal :=
  .next (consistRx f (begin_ dt s))

/-- CONSIST_FRAME_EGRESS (R476, R478). -/
def execConsistFrameEgress (dt : Nat) (port : Fin 22) (queue : Fin 8) (s : State) : Host.Outcome State Fault Refusal :=
  .next (swEgress port queue.val (begin_ dt s))

/-- ADDRESS_AGEING (R475): a learned entry not seen for 300 s is taken out. -/
def execAddressAgeing (dt : Nat) (mac : BitVec 48) (vid : BitVec 12) (s : State) : Host.Outcome State Fault Refusal :=
  let s1 := begin_ dt s
  let old (e : BitVec 48 × BitVec 12 × Nat × Bool × Nat) : Bool := !e.2.2.2.1 && e.2.2.2.2 + secT 300 ≤ s1.clk
  .next { s1 with swc := { s1.swc with addrs := s1.swc.addrs.filter (fun e => !(e.1 == mac && e.2.1 == vid && old e)) } }

/-- R485: a stream's reset time has passed since it last accepted a frame (IEEE 802.1CB; PRESUMED, log 30). -/
def recoveryStale (t : Stream) (clk : Nat) : Bool := t.frer = 2 && t.recSeq.isSome && t.recClk + msT t.resetMs ≤ clk

/-- FRER_RESET_TIMER (R485): the recovery of a stream whose reset time has passed starts again. -/
def execFrerResetTimer (dt : Nat) (handle : Fin 256) (s : State) : Host.Outcome State Fault Refusal :=
  let s1 := begin_ dt s
  .next (if recoveryStale (streamOf s1 handle.val) s1.clk then
    modStream handle.val (fun t => { t with recSeq := none, recHist := [], ctr := ctrInc t.ctr 8 }) s1 else s1)

/-- MKA_PDU_RX (R489). -/
def execMkaPduRx (dt : Nat) (port : Fin 16) (m : MkPdu) (s : State) : Host.Outcome State Fault Refusal :=
  .next (mkaRx port m (begin_ dt s))

/-- SAK_DISTRIBUTE (R490). -/
def execSakDistribute (dt : Nat) (port : Fin 16) (s : State) : Host.Outcome State Fault Refusal :=
  .next (sakDistribute port (begin_ dt s))

/-- CONSIST_LINK_CHANGE (R494). -/
def execConsistLinkChange (dt : Nat) (port : Fin 16) (up : Bool) (speed : Fin 3) (t1Master : Bool) (s : State) :
    Host.Outcome State Fault Refusal :=
  .next (linkChange port.val up speed.val t1Master (begin_ dt s))

end Sys2Proof.Machine
end

