-- ==== Sys2Proof/Machine/TimeUnit.lean ====
section
/-! DEFINITION. The time unit (R219–R241, R258, R263): its states, the phase-error bound, steps of the count, the
servo, and timed I/O (R251–R257, R259). -/

namespace Sys2Proof.Machine

/-- The time unit changed. -/
def modTime (f : Time → Time) (s : State) : State := { s with time := f s.time }

/-! ## The bound ε (R235, R237) -/

/-- The integer square root from bit `k` down. -/
def sqrtBits : Nat → Nat → Nat → Nat
  | 0, r, _ => r
  | k + 1, r, x => sqrtBits k (if (r + 2 ^ k) * (r + 2 ^ k) ≤ x then r + 2 ^ k else r) x

/-- The least number whose square is at least `x`, for `x` below 2^96. -/
def ceilSqrt (x : Nat) : Nat :=
  let r := sqrtBits 48 0 x
  if r * r = x then r else r + 1

/-- Quotient rounded up. -/
def ceilDiv (a b : Nat) : Nat := (a + b - 1) / b

/-- e_servo: the largest |θ| among the last 16 samples, in ticks. -/
def servoError (t : Time) : Nat := (t.thetas.map Int.natAbs).foldl max 0

/-- R235: ε in ns while Acquire or Locked, from the source and the hops. -/
def sampleBound (t : Time) : Nat :=
  let e := servoError t
  if t.source = 0 then ceilDiv (e + ceilSqrt ((15 * t.hops - 3) * 2 ^ 30)) 65536
  else if t.source = 1 then ceilDiv (e + nsT (30 * t.hops)) 65536
  else ceilDiv (e + nsT (50 * t.hops)) 65536

/-- R237: ε in ns a time `d` after the last sample. -/
def holdBound (eps0 d : Nat) : Nat :=
  if d ≤ secT 10 then eps0 + ceilDiv (100 * d) (secT 1)
  else eps0 + 1000 + ceilDiv (280 * (d - secT 10)) (secT 1)

/-- ε in ns, none when unknown; at a fabric-attached node under R516. -/
def epsNs (s : State) : Option Nat :=
  match s.time.st with
  | .master => some 0
  | .free => none
  | .holdover => some (holdBound s.time.eps0 (s.clk - s.time.holdClk))
  | _ => some (if s.fab.attached then s.fab.tickEps + ceilDiv (servoError s.time + nsT (3 * s.fab.tickHops)) 65536
      else sampleBound s.time)

/-- A bound as TTS_EPS shows it: 0xFFFF when unknown or above 65,534. -/
def epsField (e : Option Nat) : Nat :=
  match e with
  | some v => if 65534 < v then 0xFFFF else v
  | none => 0xFFFF

/-! ## States (R232) -/

/-- Mean of some integers. -/
def meanInt (l : List Int) : Int := if l.isEmpty then 0 else l.sum / (l.length : Int)

/-- R236, R239: freq becomes the mean of its last 64 values, with no slew. -/
def holdFreq (t : Time) : Time := { t with freq := if t.freqs.isEmpty then t.freq else meanInt t.freqs, slew := 0, slewNext := 0 }

/-- A change of time unit state, with TIME_STATE (R261). -/
def setTimeState (n : TimeSt) (s : State) : State :=
  if s.time.st = n then s
  else
    let old := s.time.st
    let s1 := modTime (fun t => { t with st := n, good := 0 }) s
    let s2 := match n with
      | .holdover => modTime (fun t => { holdFreq t with ctr := ctrInc t.ctr 1, holdEntry := s.clk }) s1
      | .master => modTime (fun t => { holdFreq t with source := 3, hops := 0 }) s1
      | .free => modTime (fun t => { t with slew := 0, slewNext := 0, source := 3, thetas := [] }) s1
      | _ => s1
    raise 0x0401 (leBytes 1 (timeCode old) ++ leBytes 1 (timeCode n) ++ leBytes 2 (epsField (epsNs s2))) s2

/-! ## Timed I/O at a step of the count (R256) -/

/-- Ticks of a port's PERIOD. -/
def tioPeriod (t : Tio) : Nat := nsT t.periodNs.toNat + t.periodFrac.toNat

/-- Ticks of a port's START. -/
def tioStart (t : Tio) : Nat :=
  secT (t.startSecLo.toNat + 2 ^ 32 * t.startSecHi.toNat) + nsT t.startNs.toNat + t.startFrac.toNat

/-- Number of the moments `first + n × period` (n ≥ 0) that lie before `a`. -/
def edgesBefore (first period a : Nat) : Nat :=
  if a ≤ first then 0 else if period = 0 then 1 else (a - first + period - 1) / period

/-- Number of those moments in [a, b). -/
def edgesIn (first period a b : Nat) : Nat := edgesBefore first period b - edgesBefore first period a

/-- TIO_LATE: port and START. -/
def tioLate (n start : Nat) (s : State) : State := raise 0x0406 (leBytes 1 n ++ timeParam start) s

/-- The level at which port `n` is driven for an asserted or inactive output (R259 POL, as taken at ARM). -/
def tioDrive (n : Nat) (asserted : Bool) (s : State) : State :=
  emit (.tio (Fin.ofNat 6 n) (asserted != (tioOf s n).armPol)) s

/-- The span of a forward step from which port `n` has driven nothing yet. -/
def tioFrom (t : Tio) (old : Nat) : Nat :=
  match t.driven with
  | some d => max old (d + 1)
  | none => old

/-- Spans without the moment `at_`. -/
def spansWithout (at_ : Nat) (l : List (Nat × Nat)) : List (Nat × Nat) :=
  l.flatMap (fun x => if x.1 ≤ at_ && at_ < x.2 then [(x.1, at_), (at_ + 1, x.2)].filter (fun y => decide (y.1 < y.2)) else [x])

/-- R256: the edges of port `n` before `b`, from its last one on, have not been driven: one span with those before it. -/
def tioPass (b : Nat) (t : Tio) : Tio :=
  let a := match t.driven with | some d => d + 1 | none => 0
  let next := match t.undriven with
    | (lo, hi) :: rest => if a ≤ hi then (lo, b) :: rest else (a, b) :: t.undriven
    | [] => [(a, b)]
  if b ≤ a then t else { t with driven := some (b - 1), undriven := next }

/-- An edge of port `n` at `at_` has come: driven, or withheld (R257). -/
def tioCome (at_ : Nat) (drives : Bool) (t : Tio) : Tio :=
  if drives then { t with driven := some (max at_ (t.driven.getD 0)), undriven := spansWithout at_ t.undriven }
  else tioPass (at_ + 1) t

/-- R256: port `n` when the count steps from `old` to `new`. -/
def tioStep (n old new : Nat) (s : State) : State :=
  let t := tioOf s n
  let a := tioFrom t old
  let s1 := modTio n (fun t => { t with stepped := true, stepMark := true }) s
  if !t.armed || new ≤ old then s1
  else if t.armMode = 1 then
    if a ≤ t.armStart && t.armStart < new then
      tioLate n t.armStart (modTio n (fun t => { t with late := true, armed := false }) s1)
    else if t.active && t.armStart + t.armWidth < new then
      tioDrive n false (modTio n (fun t => { t with active := false, armed := false }) s1)
    else s1
  else if t.armMode = 2 then
    let ends := edgesIn (t.armFirst + t.armWidth) t.armPeriod a new
    let skips := edgesIn t.armFirst t.armPeriod a new + (ends - b2n t.active)
    let s2 := modTio n (fun t => tioPass new { t with ctr := if t.gated then t.ctr else updAt t.ctr 0 (satAdd skips) }) s1
    if t.active && 0 < ends then tioDrive n false (modTio n (fun t => { t with active := false }) s2)
    else s2
  else s1

/-! ## Steps of the count (R233, R155) -/

/-- A count moved by a signed number of ticks. -/
def addTicks (t : Nat) (d : Int) : Nat := ((t : Int) + d).toNat

/-- R155: the generation an event shows, 0x0000 while the node holds none. -/
def heldGen (s : State) : BitVec 16 := if joined s then s.ina.gen else 0

/-- The count steps by `d` ticks: TTS_STEPS, the last step and TIME_STEP with generation `gen`, and R256. -/
def countSteps (d : Int) (gen : BitVec 16) (s : State) : State :=
  let new := addTicks s.now d
  let old := s.now
  let s1 := { s with now := new, flow := { s.flow with relNow := s.flow.relNow + d } }
  let s2 := modTime (fun t => { t with lastStep := d, stepGen := gen, ctr := ctrInc t.ctr 0 }) s1
  let s3 := raise 0x0203 (leBytes 8 (twos 64 (nsPart d)) ++ leBytes 2 (twos 16 (fracPart d)) ++ leBytes 2 gen.toNat) s2
  forEach (List.range 6) (fun n s => tioStep n old new s) s3

/-- A step moves the offsets recorded on ports whose partners do not step with it (DEDUCED from R95 and R717, log 19: a count
that stands off reaches the partner's time in one step). -/
def stepDeltas (ps : List Nat) (d : Int) (s : State) : State :=
  forEach ps (fun p s => modPort p (fun t => { t with deltas := t.deltas.map (fun x => x - d) }) s) s

/-- The count of this node alone steps. -/
def stepCount (d : Int) (gen : BitVec 16) (s : State) : State := stepDeltas (List.range 4) d (countSteps d gen s)

/-! ## The servo (R231) -/

/-- θ / (64 × L) in units of 0.01 ppb. -/
def freqMove (theta : Int) (s : State) : Int := theta * 100000000000 / (64 * (macroT s : Int))

/-- ±5 ppm in units of 0.01 ppb. -/
def clampFreq (f : Int) : Int := max (-500000) (min 500000 f)

/-- What a sample finds: the unit's state, the sample and whether it completes a case of R234. -/
def sampleFault (theta : Int) (f : Int) (s : State) : Option Nat × Nat × Nat :=
  let overs := if joined s && usT 1 < theta.natAbs then s.time.overs + 1 else 0
  let fo := if 200000 < f.natAbs then s.time.freqOver + 1 else 0
  if 3 ≤ overs then (some 1, 0, 0) else if 16 ≤ fo then (some 2, 0, 0) else (none, overs, fo)

/-- R232: the state a sample brings about before it is applied. -/
def sampleEntry (theta : Int) (s : State) : State :=
  match s.time.st with
  | .free => setTimeState .acquire s
  | .holdover => setTimeState .acquire s
  | .locked => if nsT 28 < theta.natAbs then setTimeState .acquire s else s
  | _ => s

/-- R232: 16 consecutive samples of at most 20 ns lock an acquiring unit. -/
def sampleLock (theta : Int) (s : State) : State :=
  match s.time.st with
  | .acquire =>
    let g := if theta.natAbs ≤ nsT 20 then s.time.good + 1 else 0
    let s1 := modTime (fun t => { t with good := g }) s
    if 16 ≤ g then setTimeState .locked s1 else s1
  | _ => s

/-- The unit is acquiring. -/
def acquiring (s : State) : Bool := match s.time.st with | .acquire => true | _ => false

/-- The sample's own effect once the state is set: a step under R233, or slew and freq under R231. Whether the servo law also
applies to a sample that steps the count is left open: freq stays, and slew is 0 (DESIGN CHOICE, log 19). -/
def sampleApply (theta f : Int) (s : State) : State :=
  if !joined s && acquiring s && usT 1 < theta.natAbs then
    stepCount (-theta) (heldGen s) (modTime (fun t => { t with slew := 0, slewNext := 0 }) s)
  else modTime (fun t => { t with slewNext := -theta / 4, freq := f }) s

/-- What is recorded of every sample. -/
def sampleRecord (theta : Int) (source : BitVec 2) (hops : Nat) (s : State) : State :=
  modTime (fun t => { t with
    theta := theta, thetas := keepLast 16 (t.thetas ++ [theta]), sampled := true, without := 0, source := source,
    hops := hops }) s

/-- A phase sample θ (ticks) from a source over `hops` hops, with `steep` the entry to steep that R234 asks for. None
is taken while the TCXO is stopped (R232), and a first node applies none (R239). -/
def takeSample (steep : State → State) (theta : Int) (source : BitVec 2) (hops : Nat) (s : State) : State :=
  let master := match s.time.st with | .master => true | _ => false
  if !s.time.tcxo || master then s
  else
    let s1 := sampleEntry theta (sampleRecord theta source hops s)
    let steps := !joined s1 && acquiring s1 && usT 1 < theta.natAbs
    let f := if steps then s.time.freq else clampFreq (s.time.freq - freqMove theta s)
    let x := sampleFault theta f s1
    let s2 := modTime (fun t => { t with overs := x.2.1, freqOver := x.2.2 }) s1
    let s3 := match x.1 with
      | some cause =>
        let s2' := raise 0x0402 (leBytes 1 cause) s2
        modTime (fun t => { t with good := 0 }) (setTimeState .acquire (if joined s2' then steep s2' else s2'))
      | none => s2
    let s4 := sampleLock theta (sampleApply theta f s3)
    modTime (fun t => { t with
      freqs := keepLast 64 (t.freqs ++ [t.freq]), holdClk := s4.clk, eps0 := (epsNs s4).getD 0xFFFF }) s4

/-- R231: the slew of a sample begins with the cycle after it, and ends with that. -/
def slewTurn (s : State) : State := modTime (fun t => { t with slew := t.slewNext, slewNext := 0 }) s

/-- R231: a cycle ends, with or without a sample. -/
def cycleSample (s : State) : State :=
  let master := match s.time.st with | .master => true | _ => false
  let s1 := slewTurn s
  if s.time.sampled || master then modTime (fun t => { t with sampled := false, without := 0 }) s1
  else modTime (fun t => { t with without := t.without + 1, ctr := ctrInc t.ctr 2 }) s1

/-- R239, R232: the node becomes first node. -/
def becomeMaster (s : State) : State := setTimeState .master s

/-- R232: the node stops being first node. -/
def leaveMaster (s : State) : State :=
  match s.time.st with
  | .master => setTimeState .acquire s
  | _ => s

/-- HOLDOVER_ENTRY (R232): two consecutive cycles without a sample. -/
def execHoldoverEntry (dt : Nat) (s : State) : Host.Outcome State Fault Refusal :=
  let s1 := begin_ dt s
  .next (match s1.time.st with
    | .acquire => if 2 ≤ s1.time.without then setTimeState .holdover s1 else s1
    | .locked => if 2 ≤ s1.time.without then setTimeState .holdover s1 else s1
    | _ => s1)

/-! ## Timed I/O (R251–R257, R259) -/

/-- R257: the claim gate lets port `n` drive. -/
def tioMayDrive (t : Tio) (s : State) : Bool := !t.armGate || gateOpen t.armSvc.toNat s

/-- A moment at which port `n` has a pulse edge: START or the first pulse and its period, and WIDTH later. -/
def tioDue (t : Tio) (at_ : Nat) (asserts : Bool) : Bool :=
  let first := if t.armMode = 2 then t.armFirst else t.armStart
  let e := if asserts then first else first + t.armWidth
  if t.armMode = 2 then e ≤ at_ && 0 < t.armPeriod && (at_ - e) % t.armPeriod = 0 else at_ = e

/-- R256: the edge has been driven already, in a span that a backward step repeats. -/
def tioDriven (t : Tio) (at_ : Nat) : Bool :=
  match t.driven with
  | some d => at_ ≤ d && !(t.undriven.any (fun x => x.1 ≤ at_ && at_ < x.2))
  | none => false

/-- A pulse edge of port `n` at train time `at_` (R251, R257). -/
def tioEdge (n at_ : Nat) (asserts : Bool) (s : State) : State :=
  let t := tioOf s n
  if !t.armed || !(t.armMode = 1 || t.armMode = 2) || !(tioDue t at_ asserts) || tioDriven t at_ then s
  else
    let free := tioMayDrive t s
    let ended := t.armMode = 1 && !asserts
    let s1 := modTio n (fun t => tioCome at_ (if asserts then free else t.active || free) { t with
      gated := !free, active := asserts && free, armed := t.armed && !ended }) s
    if asserts then (if free then tioDrive n true s1 else s1)
    else if t.active then tioDrive n false s1 else s1

/-- R257 at a registration instant: an output whose claim gate closed goes inactive and shows GATED. -/
def tioGateAtInstant (n : Nat) (s : State) : State :=
  let t := tioOf s n
  let held := t.armed && (t.armMode = 1 || t.armMode = 2) && !(tioMayDrive t s)
  let s1 := modTio n (fun t => { t with gated := held, active := t.active && !held }) s
  if t.active && held then tioDrive n false s1 else s1

/-- The edge is of a kind the port selects. -/
def tioSelects (t : Tio) (rising : Bool) : Bool := if rising then t.armEdge.getLsbD 0 else t.armEdge.getLsbD 1

/-- The edge stands 100 ns or more after the last one captured (R255). -/
def tioSpaced (t : Tio) (at_ : Nat) : Bool :=
  match t.lastEdge with
  | some d => d + nsT 100 ≤ at_ || at_ < d
  | none => true

/-- R255: an edge at train time `at_` of a pulse `width` ticks long. Its timestamp lies within ±20 ns of the count with
a resolution of 1 ns (R252). -/
def tioCapture (n at_ : Nat) (rising : Bool) (width : Nat) (s : State) : State :=
  let t := tioOf s n
  if !t.armed || t.armMode ≠ 3 || !(tioSelects t rising) || width < nsT 20 || !(tioSpaced t at_) then s
  else if 16 ≤ t.fifo.length then
    let s1 := modTio n (fun t => { t with dropping := true, lastEdge := some at_, ctr := ctrInc t.ctr 1 }) s
    if t.dropping then s1 else raise 0x0407 (leBytes 1 n) s1
  else
    let x := takeFree 41 s
    let stamp := nsT (at_ / 65536 + x.1 - 20)
    modTio n (fun t => { t with
      fifo := t.fifo ++ [{ time := stamp, rising := rising, holdover := timeUnsure s, stepped := t.stepMark }]
      stepMark := false
      lastEdge := some at_ }) x.2

/-- The first pulse of a periodic port: the first START + n × PERIOD at least 200 ns ahead (R254). -/
def tioFirst (start period now : Nat) : Nat :=
  let n := edgesBefore start period (now + nsT 200)
  start + n * period

/-- STOP: the port disarms and its output goes inactive. -/
def tioStop (n : Nat) (s : State) : State :=
  let t := tioOf s n
  let s1 := modTio n (fun t => { t with armed := false, active := false, gated := false }) s
  if t.active then tioDrive n false s1 else s1

/-- What a port runs with from ARM on (R253). -/
def tioTake (now : Nat) (t : Tio) : Tio :=
  { t with armMode := t.mode, armPol := t.pol, armEdge := t.edge, armGate := t.gate, armSvc := t.svc, armed := true,
           armStart := tioStart t, armPeriod := tioPeriod t, armWidth := nsT t.width.toNat, driven := none, undriven := [],
           armFirst := if t.mode = 2 then tioFirst (tioStart t) (tioPeriod t) now else tioStart t }

/-- R253, R254: ARM takes the values present; a pulse in progress ends, and an output whose polarity changes goes to its new
inactive level. -/
def tioArm (n : Nat) (s : State) : State :=
  let t := tioOf s n
  let s0 := tioStop n s
  if t.mode = 0 then s0
  else if t.mode = 1 && tioStart t < s.now + nsT 200 then tioLate n (tioStart t) (modTio n (fun t => { t with late := true }) s0)
  else
    let s1 := modTio n (tioTake s.now) s0
    let s2 := if (t.mode = 1 || t.mode = 2) && t.pol != t.armPol then tioDrive n false s1 else s1
    tioGateAtInstant n s2

/-- The RW fields of TIO_CTRL. -/
def tioSetCtrl (v : Nat) (t : Tio) : Tio := { t with
  mode := BitVec.ofNat 2 v, pol := v.testBit 2, edge := BitVec.ofNat 2 (v / 16), gate := v.testBit 12,
  svc := BitVec.ofNat 4 (v / 65536) }

/-- A write of TIO_CTRL: its RW fields, then ARM, then STOP (R259). -/
def tioCtrlWrite (n v : Nat) (s : State) : State :=
  let s1 := modTio n (tioSetCtrl v) s
  let s2 := if v.testBit 8 then tioArm n s1 else s1
  if v.testBit 9 then tioStop n s2 else s2

/-- R263: a supervisor-commanded node reset disarms the port and empties its FIFO. -/
def tioNodeReset (n : Nat) (s : State) : State :=
  modTio n (fun t => { t with fifo := [], dropping := false, stepMark := false, lastEdge := none }) (tioStop n s)

/-- TIO_CAP_FRAC, +0x34, +0x38, +0x3C of an entry. -/
def captureRegs (c : Option Capture) : List Nat :=
  match c with
  | none => [0, 0, 0, 0]
  | some c =>
    [c.time % 65536 + b2n c.rising * 65536 + b2n c.holdover * 131072 + b2n c.stepped * 262144 + 2147483648,
     nsField c.time, c.time / secT 1 % 2 ^ 32, c.time / secT 1 / 2 ^ 32 % 65536]

/-- TIO registers that a write of a plain register sets (R259): START, PERIOD, WIDTH and the W1C bits. -/
def tioRegWrite (off v : Nat) (t : Tio) : Tio :=
  if off = 0x04 then { t with startFrac := BitVec.ofNat 16 v }
  else if off = 0x08 then { t with startNs := BitVec.ofNat 30 v }
  else if off = 0x0C then { t with startSecLo := BitVec.ofNat 32 v }
  else if off = 0x10 then { t with startSecHi := BitVec.ofNat 16 v }
  else if off = 0x14 then { t with periodNs := BitVec.ofNat 32 v }
  else if off = 0x18 then { t with periodFrac := BitVec.ofNat 16 v }
  else if off = 0x1C then { t with width := BitVec.ofNat 32 v }
  else if off = 0x20 then { t with late := t.late && !(v.testBit 2), stepped := t.stepped && !(v.testBit 4) }
  else t

/-- The value of a TIO register but those of the capture read. -/
def tioRegRead (t : Tio) (off : Nat) : Nat :=
  if off = 0x00 then packFields [(0, 2, t.mode.toNat), (2, 1, b2n t.pol), (4, 2, t.edge.toNat), (8, 1, b2n t.armed),
    (12, 1, b2n t.gate), (16, 4, t.svc.toNat)]
  else if off = 0x04 then t.startFrac.toNat
  else if off = 0x08 then t.startNs.toNat
  else if off = 0x0C then t.startSecLo.toNat
  else if off = 0x10 then t.startSecHi.toNat
  else if off = 0x14 then t.periodNs.toNat
  else if off = 0x18 then t.periodFrac.toNat
  else if off = 0x1C then t.width.toNat
  else if off = 0x20 then packFields [(1, 1, b2n t.active), (2, 1, b2n t.late), (3, 1, b2n t.gated),
    (4, 1, b2n t.stepped), (8, 5, t.fifo.length)]
  else if off = 0x24 then (ctrGet t.ctr 0).n.toNat
  else if off = 0x28 then (ctrGet t.ctr 1).n.toNat
  else if off = 0x2C then ovfBits t.ctr
  else 0

/-- A read of an RC counter of a TIO port clears it with its overflow bit. -/
def tioReadClear (off : Nat) (t : Tio) : Tio :=
  if off = 0x24 then { t with ctr := updAt t.ctr 0 (fun _ => Sat.zero) }
  else if off = 0x28 then { t with ctr := updAt t.ctr 1 (fun _ => Sat.zero) }
  else t

/-- A party's shadow of a multi-register value (R11–R13): the latched bytes above the lowest register at `addr`. -/
def latchShadow (i : Iface) (addr : Nat) (bytes : List Byte) (s : State) : State :=
  { s with shadows := (i, addr, bytes) :: s.shadows.filter (fun e => !(e.1 == i && e.2.1 == addr)) }

/-- The latched bytes of a party for the value whose lowest register is at `addr`. -/
def shadowOf (i : Iface) (addr : Nat) (s : State) : List Byte :=
  match s.shadows.find? (fun e => e.1 == i && e.2.1 == addr) with
  | some e => e.2.2
  | none => []

/-- R259: a read of TIO_CAP_FRAC takes the head entry and latches its time for the reader; what it returns. -/
def tioCapTake (n : Nat) (i : Iface) (s : State) : Nat × State :=
  let regs := captureRegs (tioOf s n).fifo.head?
  let s1 := modTio n (fun t => { t with fifo := t.fifo.drop 1, dropping := false }) s
  (regs.getD 0 0, latchShadow i (0x00410030 + 0x100 * n) ((regs.drop 1).flatMap (leBytes 4)) s1)

/-- The same as an access of its own. -/
def tioCapRead (n : Nat) (i : Iface) (s : State) : State :=
  let x := tioCapTake n i s
  emit (.readData i (leBytes 4 x.1)) x.2

/-- TIO_PULSE_EDGE (R251, R256, R257). -/
def execTioPulseEdge (dt : Nat) (n : Fin 6) (at_ : Nat) (assert_ : Bool) (s : State) : Host.Outcome State Fault Refusal :=
  .next (tioEdge n.val at_ assert_ (begin_ dt s))

/-- TIO_CAPTURE_EDGE (R255). -/
def execTioCaptureEdge (dt : Nat) (n : Fin 6) (at_ : Nat) (rising : Bool) (width : Nat) (s : State) :
    Host.Outcome State Fault Refusal :=
  .next (tioCapture n.val at_ rising width (begin_ dt s))

/-- TIO_ARM (R253, R254). -/
def execTioArm (dt : Nat) (n : Fin 6) (src : Iface) (value : BitVec 32) (s : State) : Host.Outcome State Fault Refusal :=
  .next (hostAccess dt src (tioAddr n 0x00) (some value) (tioCtrlWrite n.val value.toNat) s)

/-- TIO_STOP (R259). -/
def execTioStop (dt : Nat) (n : Fin 6) (src : Iface) (value : BitVec 32) (s : State) : Host.Outcome State Fault Refusal :=
  .next (hostAccess dt src (tioAddr n 0x00) (some value) (fun s => tioCtrlWrite n.val value.toNat s) s)

/-- TIO_CAP_READ (R259). -/
def execTioCapRead (dt : Nat) (n : Fin 6) (src : Iface) (s : State) : Host.Outcome State Fault Refusal :=
  .next (hostAccess dt src (tioAddr n 0x30) none (tioCapRead n.val src) s)

end Sys2Proof.Machine
end

