-- ==== Sys2Proof/Machine/TrunkCore.lean ====
section
/-! DEFINITION. Trunk ports and bypass switches (R42–R89): states and modes, policies, hop delay, and the status
record. What a broken direction means stands in Inaug.lean. -/

namespace Sys2Proof.Machine

/-- The trunk changed. -/
def modTrunk (f : Trunk → Trunk) (s : State) : State := { s with trunk := f s.trunk }

/-- R96: the node no longer goes passive. -/
def passiveEnd (t : Trunk) : Trunk :=
  { t with passiveOn := false, passiveSent := none, passivePorts := [], stopForward := false }

/-! ## Modes and policies (R45–R50) -/

/-- Policy code of the direction of port `p`. -/
def policyOf (s : State) (p : Nat) : Nat := s.trunk.policy.getD (dirOfPort p) 0

/-- The modes a policy lets a port reach (R48). -/
def policyAllows (pol : Nat) (m : Mode) : Bool :=
  match m with
  | .none => false
  | .ndoelle => pol = 1 || pol = 2
  | .t1000 => pol = 1 || pol = 3 || pol = 4
  | .t100 => pol = 1 || pol = 3 || pol = 5
  | .wtb => pol = 6

/-- The bypass switch of port `p`'s line. -/
def bypassOf (s : State) (p : Nat) : Bypass := if p % 2 = 0 then s.trunk.lineA else s.trunk.lineB

/-- A count of port `p`'s record. -/
def portCount (p i : Nat) (s : State) : State := modPort p (fun t => { t with ctr := ctrInc t.ctr i }) s

/-- TRUNK_LINK (R69): port, STATE, MODE, DOWN_CAUSE. -/
def trunkLink (p : Nat) (s : State) : State :=
  let t := portOf s p
  raise 0x0220 (leBytes 1 p ++ leBytes 1 (portCode t.st) ++ leBytes 1 (modeCode t.mode) ++ leBytes 1 t.downCause.toNat) s

/-- The port is Up, or Up with traffic suspended (R59). -/
def linkHeld (t : Port) : Bool := match t.st with | .up => true | .resume => true | _ => false

/-! ## Changes of port state (R67–R69) -/

/-- R45, R67: the mode a port keeps on entering a state: none but in Train and Qualify. -/
def modeIn (st : PortSt) (m : Mode) : Mode :=
  match st with
  | .train => m
  | .qualify => m
  | _ => .none

/-- A port leaves its link: what a link's end takes with it, the hop-delay estimate among it (R68). The partner's last
beacon, and so PARTNER_ADDR of R87, stays until the next Qualify or T1 link up (DESIGN CHOICE, log 36). -/
def portClear (st : PortSt) (t : Port) : Port := { t with
  st := st, mode := modeIn st t.mode, delay := { DelayEst.reset with reqSeq := t.delay.reqSeq, accSeq := t.delay.accSeq }
  lossClk := none, rideCounted := false, upInstants := 0, stable := false, violations := 0, passive := false,
  fifo := [], ttdp := false, strange := false, dirSent := false, reported := false, clause98 := false }

/-- A policy without negotiation (R48). -/
def fixedPolicy (pol : Nat) : Bool := pol = 4 || pol = 5

/-- The role with which a fixed T1 policy begins: D1A and D1B master, D2A and D2B slave (R62). -/
def portRole (p : Nat) (s : State) : State :=
  modPort p (fun t => { t with t1Master := p < 2, swapClk := s.clk, trainPol := policyOf s p }) s

/-- R62, R714: a port that kept its link under a fixed T1 policy newly applied takes the fixed role for its next training. -/
def roleForPolicy (p : Nat) (s : State) : State :=
  if fixedPolicy (policyOf s p) && !fixedPolicy (portOf s p).trainPol then portRole p s else s

/-- Port `p` leaves Up or Resume for Detect (cause as DOWN_CAUSE), or any other state without an event. A port whose link
under a fixed T1 policy is lost keeps the role of its last training, swaps included, and counts the 500 ms of R63 anew
(DESIGN CHOICE, log 36). -/
def portToDetect (p cause : Nat) (s : State) : State :=
  roleForPolicy p (if linkHeld (portOf s p) then
    trunkLink p (modPort p (fun t => { portClear .detect t with
      downCause := BitVec.ofNat 4 (if cause = 1 && t.passive then 5 else cause), ctr := ctrInc t.ctr 4,
      swapClk := s.clk }) s)
  else modPort p (portClear .detect) s)

/-- Port `p` enters Bypassed (R69), from Up with DOWN_CAUSE 0x3. -/
def portToBypassed (p : Nat) (s : State) : State :=
  let t := portOf s p
  match t.st with
  | .bypassed => s
  | _ => trunkLink p (modPort p (fun t => { portClear .bypassed t with
      downCause := if linkHeld t then 3 else t.downCause }) s)

/-- Port `p` enters Train in a mode, under the policy in force now (R714). -/
def portToTrain (p : Nat) (m : Mode) (s : State) : State :=
  modPort p (fun t => { portClear .train t with
    mode := m, energySeen := true, ctr := ctrInc t.ctr 5, qualClk := s.clk, trainPol := policyOf s p }) s

/-- Port `p` enters Negotiate. -/
def portToNegotiate (p : Nat) (s : State) : State :=
  modPort p (fun t => { portClear .negotiate t with energySeen := true, qualClk := s.clk }) s

/-- R617: the first port that enters Up begins the wait of a start, unless 100 ms have passed since step 0x6 ended. -/
def waitBegins (s : State) : State :=
  let late := s.sys.readyClk + msT 100
  modIna (fun n => { n with quietClk := match n.quietClk with
    | some c => some c
    | none => some (if s.sys.ready then min s.clk late else s.clk) }) s

/-- Port `p` enters Up from Train or Qualify (R68): its estimate starts afresh and its partner is recorded. -/
def portToUp (p : Nat) (partner : BitVec 64) (s : State) : State :=
  waitBegins (trunkLink p (modPort p (fun t => { t with
    st := .up, partnerUid := partner, okUid := partner, delay := { DelayEst.reset with reqSeq := t.delay.reqSeq, accSeq := t.delay.accSeq },
    lossClk := none, rideCounted := false, upInstants := 0, stable := onNdoelle t,
    stableClk := s.clk }) s))

/-- A training or qualification failure counts (R54, R67). -/
def portTrainFail (p : Nat) (s : State) : State := portCount p 6 s

/-- The state a detached or policy-less port takes when it may start again. -/
def portStart (p : Nat) (s : State) : PortSt :=
  if policyOf s p = 0 then .disabled else if (bypassOf s p).closed then .bypassed else .detect

/-- The other port of the same direction. -/
def siblingPort (p : Nat) : Nat := 2 * dirOfPort p + (1 - p % 2)

/-- R44: the mode the other port of the direction runs. -/
def siblingMode (s : State) (p : Nat) : Mode := (portOf s (siblingPort p)).mode

/-- The Ndoelle line of port `t` has a partner that answers: the port has come through Lock (R53). -/
def ndoelleHeld (t : Port) : Bool := onNdoelle t && (match t.st with | .train => false | _ => true)

/-- R44, R48: a port in Detect under policy 0x1 negotiates: the other port of the direction runs T1, or this one has
fallen back and the other has found no Ndoelle partner either. -/
def negotiatesNext (p : Nat) (s : State) : Bool :=
  onT1 (portOf s (siblingPort p)) || ((portOf s p).clause98 && !ndoelleHeld (portOf s (siblingPort p)))

/-- R67: partner energy on a port in Detect begins training or negotiation by the policy (R48). Both ports of a direction
run one mode (R44): while the other port runs T1 this one negotiates, and while the other has an Ndoelle partner this one
trains on the Ndoelle line (DESIGN CHOICE, log 36: how the two come to one mode). -/
def portEnergy (p : Nat) (s : State) : State :=
  match (portOf s p).st with
  | .detect =>
    let pol := policyOf s p
    if pol = 1 then
      if negotiatesNext p s then portToNegotiate p s else portToTrain p .ndoelle s
    else if pol = 2 then portToTrain p .ndoelle s
    else if pol = 3 then portToNegotiate p s
    else if pol = 4 then portToTrain p .t1000 s
    else if pol = 5 then portToTrain p .t100 s
    else if pol = 6 then portToTrain p .wtb s
    else s
  | _ => s

/-- R48: under policy 0x1 no Ndoelle partner has answered for 40 ms, and the other port of the direction holds no Ndoelle
link (R44). -/
def fallsBack (p : Nat) (answered : Bool) (s : State) : Bool :=
  let t := portOf s p
  t.trainPol = 1 && policyOf s p = 1 && onNdoelle t && !answered && t.qualClk + msT 40 ≤ s.clk &&
    !ndoelleHeld (portOf s (siblingPort p))

/-- A port returns to Detect and falls back to Clause 98 there: its partner's energy begins negotiation (R48, R67). -/
def portFallback (p : Nat) (s : State) : State := modPort p (fun t => { t with clause98 := true }) (portToDetect p 0 s)

/-- R67: a training fails, and the port leaves Train for Detect. Under policy 0x1 a Ndoelle training without an answer falls
back to Clause 98 (R48). -/
def portTrainingFailure (p : Nat) (answered : Bool) (s : State) : State :=
  match (portOf s p).st with
  | .train =>
    if fallsBack p answered s then portFallback p (portTrainFail p s) else portToDetect p 0 (portTrainFail p s)
  | _ => s

/-- R50, R44: the T1 mode that both sides have in common, 1000BASE-T1 before 100BASE-T1; the mode of the direction's other
port where that one runs T1; none where it has an Ndoelle partner. -/
def commonMode (p : Nat) (m1000 m100 : Bool) (s : State) : Mode :=
  match siblingMode s p with
  | .t1000 => if m1000 then .t1000 else .none
  | .t100 => if m100 then .t100 else .none
  | _ => if ndoelleHeld (portOf s (siblingPort p)) then .none else if m1000 then .t1000 else if m100 then .t100 else .none

/-- R44: a port that still trains on the Ndoelle line while the other of its direction has found a T1 partner falls back. -/
def siblingFallback (q : Nat) (s : State) : State :=
  match (portOf s q).st with
  | .train => if onNdoelle (portOf s q) then portFallback q s else s
  | _ => s

/-- R67: negotiation resolves a mode and a role, and the port trains; a sibling that still trains on the Ndoelle line
falls back (R44). Without a common mode the port goes on negotiating. -/
def portNegotiated (p : Nat) (m1000 m100 master : Bool) (s : State) : State :=
  match (portOf s p).st, commonMode p m1000 m100 s with
  | .negotiate, .none => s
  | .negotiate, m => modPort p (fun t => { t with t1Master := master }) (portToTrain p m (siblingFallback (siblingPort p) s))
  | _, _ => s

/-- R54: the 17th code violation in Qualify, or a loss of lock, returns the port to Announce; in Up and Resume violations
only count. -/
def portViolations (p k : Nat) (lockLost : Bool) (s : State) : State :=
  let s1 := modPort p (fun t => { t with ctr := updAt t.ctr 0 (satAdd k), violations := t.violations + k }) s
  match (portOf s p).st with
  | .qualify => if lockLost || 16 < (portOf s1 p).violations then portToTrain p .ndoelle (portTrainFail p s1) else s1
  | .up => s1
  | .resume => s1
  | _ => s

/-- R54: the port has proved itself for 16 ms with at most 16 code violations. -/
def portQualified (p : Nat) (s : State) : Bool :=
  let t := portOf s p
  (match t.st with | .qualify => true | _ => false) && t.qualClk + msT 16 ≤ s.clk && t.violations ≤ 16

/-! ## Roles of a fixed T1 policy (R62, R63) -/

/-- R63: a port whose link has not come up 500 ms after it took its role swaps it. -/
def portSwap (p : Nat) (s : State) : State :=
  let t := portOf s p
  let waits : Bool := match t.st with
    | .detect => fixedPolicy (policyOf s p)
    | .train => fixedPolicy t.trainPol
    | _ => false
  if waits && t.swapClk + msT 500 ≤ s.clk then modPort p (fun t => { t with t1Master := !t.t1Master, swapClk := s.clk }) s
  else s

/-! ## Loss of signal (R58) -/

/-- A loss begins on an Ndoelle port that is Up. -/
def portLoss (p : Nat) (s : State) : State :=
  let t := portOf s p
  if portUp s p && onNdoelle t && t.lossClk.isNone then modPort p (fun t => { t with lossClk := some s.clk }) s else s

/-- How long the loss in progress has lasted. -/
def lossFor (p : Nat) (s : State) : Option Nat := (portOf s p).lossClk.map (fun c => s.clk - c)

/-- A loss of over 100 µs puts the port into Resume. -/
def portResume (p : Nat) (s : State) : State :=
  match lossFor p s with
  | some d =>
    if portUp s p && usT 100 < d then
      modPort p (fun t => { t with st := .resume, rideCounted := true, ctr := ctrInc t.ctr 3, fifo := [] }) s
    else s
  | none => s

/-- The loss in progress has reached one macrocycle. -/
def lossOver (p : Nat) (s : State) : Bool :=
  match lossFor p s with
  | some d => macroT s ≤ d
  | none => false

/-! ## Hop delay (R77–R85) -/

/-- R223's nominal corrections (C_in, C_out) in ticks; those of the Ndoelle line rounded to the nearest tick. -/
def nominal (m : Mode) : Int × Int :=
  match m with
  | .ndoelle => (11953766, 2726298)
  | .t1000 => (22675456, 13893632)
  | .t100 => (73662464, 41680896)
  | _ => (0, 0)

/-- A fused residual of a port's mode in ticks (R84). -/
def residual (cal : List Int) (m : Mode) : Int := cal.getD (modeCode m) 0 * 4096

/-- R222: the pin time of a raw receive time on port `p`. -/
def pinRx (t : Port) (raw : Int) : Int := raw - ((nominal t.mode).1 + residual t.calIn t.mode)

/-- R222: the pin time of a raw transmit time on port `p`. -/
def pinTx (t : Port) (raw : Int) : Int := raw + ((nominal t.mode).2 + residual t.calOut t.mode)

/-- The 32 bits a marker's CRC covers. -/
def markerBits (m : Marker) : Nat := m.type.toNat * 2 ^ 30 + m.seq.toNat * 2 ^ 24 + m.value.toNat

/-- A marker with its CRC (R77's table). -/
def marker (type : BitVec 2) (seq : BitVec 6) (value : BitVec 24) : Marker :=
  let m : Marker := { type := type, seq := seq, value := value, crc := 0 }
  { m with crc := crc8 32 (markerBits m) 0 }

/-- The marker's CRC holds. -/
def markerOk (m : Marker) : Bool := m.crc == crc8 32 (markerBits m) 0

/-- A request sent at pin time `t1`: the next sequence number, with no response yet (R79, R80). -/
def delayAsk (t1 : Int) (d : DelayEst) : DelayEst :=
  { d with reqSeq := d.reqSeq + 1, t1 := some t1, t2 := none, t4 := none }

/-- The sequence number a marker of the request in hand carries. -/
def markerSeq (d : DelayEst) : BitVec 6 := d.reqSeq.setWidth 6

/-- R81: the median of 8 samples is the mean of the 4th and 5th. -/
def medianOf8 (l : List Int) : Int := let o := sortInt l; (o.getD 3 0 + o.getD 4 0) / 2

/-- A sample enters the filter with the window `w` (R81, R82): the new estimate and whether it was rejected. After the 16
rejects that clear DELAY_VALID the estimate itself, and so HOP_DELAY of R87, stands as it was until the next median
(DESIGN CHOICE, log 36). -/
def delayFilter (w : Nat) (x : Int) (d : DelayEst) : DelayEst × Bool :=
  if !d.valid then
    let first := d.first ++ [x]
    if 8 ≤ first.length then
      ({ d with valid := true, est := medianOf8 first, first := [], rejects := 0, accSeq := markerSeq d }, false)
    else ({ d with first := first, accSeq := markerSeq d }, false)
  else if (x - d.est).natAbs ≤ w then
    ({ d with est := d.est + (x - d.est) / 16, rejects := 0, accSeq := markerSeq d }, false)
  else if 16 ≤ d.rejects + 1 then ({ d with valid := false, first := [], rejects := 0 }, true)
  else ({ d with rejects := d.rejects + 1 }, true)

/-- The four times of the sequence in hand are known, `turn` = t3 − t2 in ticks: a sample is filtered (R79, R81, R82). -/
def delayComplete (w : Nat) (turn : Int) (d : DelayEst) : DelayEst × Bool :=
  match d.t1, d.t4 with
  | some t1, some t4 => delayFilter w (((t4 - t1) - turn) / 2) { d with t1 := none, t2 := none, t4 := none }
  | _, _ => (d, false)

/-- A follow-up marker completes its sample, unless the turnaround exceeds 8 µs or another sequence is in hand (R80). -/
def markerComplete (m : Marker) (d : DelayEst) : DelayEst × Bool :=
  if m.seq ≠ markerSeq d || 128000 < m.value.toNat then (d, false)
  else delayComplete (nsT 8) ((m.value.toNat : Int) * 4096) d

/-- R82: a Pdelay_Resp_Follow_Up completes its sample with t3: the formula of R79 over the four times, without the neighbour
rate ratio of IEEE 802.1AS (DESIGN CHOICE, log 36). -/
def pdelayComplete (seq : BitVec 16) (t3 : Int) (d : DelayEst) : DelayEst × Bool :=
  match d.t2 with
  | some t2 => if seq ≠ d.reqSeq then (d, false) else delayComplete (nsT 32) (t3 - t2) d
  | none => (d, false)

/-- The response marker for the sequence in hand arrived at pin time `t4`. -/
def delayResponse (seq : BitVec 6) (t4 : Int) (d : DelayEst) : DelayEst :=
  if seq = markerSeq d && d.t1.isSome then { d with t4 := some t4 } else d

/-- R82: a Pdelay_Resp with the partner's receive time arrived at pin time `t4`. -/
def pdelayResponse (seq : BitVec 16) (t2 t4 : Int) (d : DelayEst) : DelayEst :=
  if seq = d.reqSeq && d.t1.isSome then { d with t2 := some t2, t4 := some t4 } else d

/-- The hop delay of port `p` in ticks. -/
def hopDelay (s : State) (p : Nat) : Int := (portOf s p).delay.est

/-- The estimate of port `p` is valid. -/
def delayValid (s : State) (p : Nat) : Bool := (portOf s p).delay.valid

/-! ## Policies and retraining (R56, R86, R714) -/

/-- R714 for one port. What the rule does not list is the model's (DESIGN CHOICE, log 36): a port in Negotiate stays there
under policies 0x1 and 0x3 and otherwise leaves without DOWN_CAUSE, and one in Bypassed stays there under any policy, 0x0
included, though `portStart` takes a port from reset to Disabled under that. -/
def portPolicy (pol p : Nat) (s : State) : State :=
  let t := portOf s p
  let away : PortSt := if pol = 0 then .disabled else .detect
  match t.st with
  | .disabled =>
    if pol = 0 then s
    else portRole p (if (bypassOf s p).closed then portToBypassed p s else modPort p (fun t => { t with st := .detect }) s)
  | .bypassed => portRole p s
  | .listen => if pol = 0 then modPort p (portClear .disabled) s else s
  | .detect => if pol = 0 then modPort p (portClear .disabled) s else portRole p s
  | .negotiate => if pol = 1 || pol = 3 then s else portRole p (modPort p (portClear away) s)
  | _ =>
    if policyAllows pol t.mode then s
    else if linkHeld t then
      if pol = 0 then modPort p (fun t => { portClear .disabled t with downCause := 2 }) s
      else portRole p (portToDetect p 2 s)
    else portRole p (modPort p (fun t => { portClear away t with downCause := 2 }) s)

/-- A policy applied to direction `d` (0 or 1). -/
def applyPolicy (d pol : Nat) (s : State) : State :=
  let s1 := modTrunk (fun t => { t with policy := updAt t.policy d (fun _ => pol) }) s
  forEach (dirPorts d) (portPolicy pol) s1

/-- R56: the retrain of a port that is Up. -/
def portRetrain (p : Nat) (s : State) : State :=
  let s1 := modPort p (fun t => { t with retrain := false }) s
  if linkHeld (portOf s p) then portToDetect p 4 s1 else s1

/-- A queued policy of direction `d` applied, but at a fabric-attached node (R504). -/
def queuedPolicy (d : Nat) (s : State) : State :=
  match s.trunk.policyNext.getD d none with
  | some pol => (if s.fab.attached then id else applyPolicy d pol) (modTrunk (fun t => { t with policyNext := updAt t.policyNext d (fun _ => none) }) s)
  | none => s

/-- The next entry to Steep: queued policies and retrains are performed, and their commands complete (R56, R714). -/
def trunkEnterSteep (s : State) : State :=
  let s1 := queuedPolicy 1 (queuedPolicy 0 s)
  let s2 := finishQueued (fun q => q.opcode == 0x0220) 0 s1
  let s3 := forEach (List.range 4) (fun p s => if (portOf s p).retrain then portRetrain p s else s) s2
  finishQueued (fun q => q.opcode == 0x0223) 0 s3

/-! ## Bypass switches (R66, R70–R76) -/

/-- A switch commanded to a position. -/
def switchCommand (line : Line) (close : Bool) (s : State) : State :=
  let b : Bypass := { closed := close, command := some close, retried := false, cmdClk := s.clk }
  let s1 := match line with
    | .a => modTrunk (fun t => { t with lineA := b }) s
    | .b => modTrunk (fun t => { t with lineB := b }) s
  emit (.bypass line close) s1

/-- The ports of a line. -/
def linePorts (line : Line) : List Nat := match line with | .a => [0, 2] | .b => [1, 3]

/-- A line's switch stands closed. -/
def lineClosed (line : Line) (s : State) : Bool := match line with | .a => s.trunk.lineA.closed | .b => s.trunk.lineB.closed

/-- A line's switch closes: its ports are detached, and the closing of an open switch counts (BYPASS_OPS, R87). -/
def closeLine (line : Line) (s : State) : State :=
  let counts := !(lineClosed line s)
  forEach (linePorts line) (fun p s => (if counts then portCount p 8 else id) (portToBypassed p s)) (switchCommand line true s)

/-- A detached port returns to Detect, under policy 0x0 to Disabled. -/
def portAttach (p : Nat) (s : State) : State :=
  roleForPolicy p (modPort p (fun t => { portClear (if policyOf s p = 0 then .disabled else .detect) t with
    energySeen := false }) s)

/-- A line's switch opens: its ports return to Detect. -/
def openLine (line : Line) (s : State) : State :=
  forEach (linePorts line) (fun p s => match (portOf s p).st with
    | .bypassed => portAttach p s
    | .tap => portAttach p s
    | _ => s) (switchCommand line false s)

/-- R76: a switch found in a position 4 ms after its command. -/
def senseCheck (line : Line) (sensed : Bool) (s : State) : State :=
  let b := match line with | .a => s.trunk.lineA | .b => s.trunk.lineB
  let put (b : Bypass) (s : State) : State := match line with
    | .a => modTrunk (fun t => { t with lineA := b }) s
    | .b => modTrunk (fun t => { t with lineB := b }) s
  match b.command with
  | none => s
  | some c =>
    if s.clk < b.cmdClk + msT 4 then s
    else if sensed = c then put { b with closed := sensed, command := none } s
    else
      let s1 := raise 0x0221 (leBytes 1 (match line with | .a => 0 | .b => 1) ++ leBytes 1 (b2n c) ++ leBytes 1 (b2n sensed))
        (put { b with closed := sensed } s)
      if b.retried then
        let s2 := put { b with closed := sensed, command := none, retried := true } s1
        forEach (linePorts line) (fun p s =>
          if sensed then portToBypassed p s else portAttach p s) s2
      else emit (.bypass line c) (put { closed := sensed, command := some c, retried := true, cmdClk := s.clk } s1)

/-- A staggered sequence ends: its switches stand by command, its commands complete. -/
def sequenceEnd (passive : Bool) (status : Nat) (s : State) : State :=
  let s1 := modTrunk (fun t => { t with seq := none }) s
  finishQueued (fun q => q.opcode == 0x0222 && q.arg == b2n passive) status s1

/-- Both switches close at once (R70); R73 abandons the sequence in progress and every TRUNK_BYPASS. -/
def closeBoth (s : State) : State :=
  let s1 := modTrunk (fun t => { t with seq := none }) (closeLine .b (closeLine .a s))
  finishQueued (fun q => q.opcode == 0x0222) 0x010B s1

/-- R72: line A no longer keeps line B's switch closed: 100 ms have passed, and each line A port has been Up for a full
macrocycle or has detected no partner. -/
def lineBMayOpen (aClk : Nat) (s : State) : Bool :=
  aClk + msT 100 ≤ s.clk &&
  [0, 2].all (fun p => (portUp s p && 2 ≤ (portOf s p).upInstants) || !(portOf s p).energySeen)

/-! ## The status record (R87, R88) -/

/-- HOP_DELAY: whole ns and fraction of the estimate, 0 while it is negative. -/
def hopDelayField (d : Int) : Nat := d.toNat % 2 ^ 32

/-- The 64 bytes of port `p`. -/
def trunkRecord (p : Nat) (s : State) : List Byte :=
  let t := portOf s p
  recBytes 64 ([(0, 4, portCode t.st), (4, 4, modeCode t.mode), (8, 4, policyOf s p), (12, 1, b2n (bypassOf s p).closed),
    (13, 1, b2n t.delay.valid), (16, 10, (t.partner.map (fun b => b.addr.toNat)).getD 0),
    (32, 32, hopDelayField t.delay.est), (64, 16, twos 16 (t.calIn.getD (modeCode t.mode) 0)),
    (80, 16, twos 16 (t.calOut.getD (modeCode t.mode) 0)), (352, 6, t.delay.accSeq.toNat),
    (464, 4, t.downCause.toNat)] ++
    ctrFields t.ctr [96, 128, 160, 192, 224, 256, 288, 320, 384, 416] 448)

end Sys2Proof.Machine
end

