-- ==== Sys2Proof/Machine/InaugDir.lean ====
section
/-! DEFINITION. The train directory (R97–R105, R131, R143, R148): its frames and hash, the walk, conflicts, and the
choice of the reference end. -/

namespace Sys2Proof.Machine

/-! ## Frames and hash (R100, R101) -/

/-- The 32 bytes of a vehicle record. -/
def vehBytes (v : VehRec) : List Byte :=
  [v.pos, v.flags] ++ leBytes 2 v.slots.toNat ++ leBytes 6 v.vid.toNat ++ [v.wtbAddr, 0] ++ leBytes 8 v.uidA.toNat ++
  leBytes 8 v.uidB.toNat ++ leBytes 4 0

/-- R101: DIR_HASH. -/
def dirHash (d : Directory) : BitVec 32 :=
  crc32c (leBytes 2 d.gen.toNat ++ leBytes 1 d.vehicles.length ++ leBytes 8 d.refUid.toNat ++ leBytes 6 d.leadVid.toNat ++
    leBytes 2 d.nodes.toNat ++ d.vehicles.flatMap vehBytes)

/-- One DIRECTORY frame of a directory. -/
def dirFrame (idx : Fin 2) (prepared foreign : Bool) (d : Directory) : DirFrame where
  index := idx
  vehicleCount := BitVec.ofNat 8 d.vehicles.length
  gen := d.gen
  refUid := d.refUid
  leadVid := d.leadVid
  nodes := d.nodes
  dirHash := dirHash d
  prepared := prepared
  isForeign := foreign
  records := (d.vehicles.drop (32 * idx.val)).take 32

/-- R100: one or two frames. -/
def dirFrames (prepared foreign : Bool) (d : Directory) : List DirFrame :=
  if 32 < d.vehicles.length then [dirFrame 0 prepared foreign d, dirFrame 1 prepared foreign d]
  else [dirFrame 0 prepared foreign d]

/-- The 32 bytes of a frame's header, and its records. -/
def dirFrameBytes (f : DirFrame) : List Byte :=
  leBytes 2 f.gen.toNat ++ leBytes 1 f.index.val ++ [f.vehicleCount] ++ leBytes 8 f.refUid.toNat ++
  leBytes 6 f.leadVid.toNat ++ leBytes 2 f.nodes.toNat ++ leBytes 4 f.dirHash.toNat ++
  [BitVec.ofNat 8 (b2n f.prepared + 2 * b2n f.isForeign)] ++ leBytes 7 0 ++ f.records.flatMap vehBytes

/-- The directory of the frames in hand, once both halves are there. -/
def assembleDir (fs : List DirFrame) : Option Directory :=
  match fs.find? (fun f => f.index == 0) with
  | none => none
  | some f0 =>
    let second := fs.find? (fun f => f.index == 1 && f.dirHash == f0.dirHash && f.gen == f0.gen)
    let recs := f0.records ++ (second.map (fun f => f.records)).getD []
    let d : Directory := { gen := f0.gen, refUid := f0.refUid, leadVid := f0.leadVid, nodes := f0.nodes, vehicles := recs }
    if recs.length = f0.vehicleCount.toNat && dirHash d = f0.dirHash then some d else none

/-! ## Reading a directory -/

/-- A vehicle record is a legacy one. -/
def isLegacy (v : VehRec) : Bool := v.flags.getLsbD 3

/-- The trunk nodes of a vehicle, from the reference end. A vehicle not reversed has its twin A nearer that end. -/
def vehWalk (v : VehRec) : List WalkNode :=
  let rev := v.flags.getLsbD 2
  let a : List WalkNode := if v.flags.getLsbD 0 then [{ uid := v.uidA, vid := v.vid, twinB := false, dirToRef := rev }] else []
  let b : List WalkNode := if v.flags.getLsbD 1 then [{ uid := v.uidB, vid := v.vid, twinB := true, dirToRef := rev }] else []
  if isLegacy v then [] else if rev then b ++ a else a ++ b

/-- The numbered trunk nodes in walking order from the reference end (R97). -/
def walkOf (d : Directory) : List WalkNode := d.vehicles.flatMap vehWalk

/-- The train node address of a node: twins by their unique identifier, a fabric node by vehicle and slot. -/
def addrIn (d : Directory) (uid : BitVec 64) (vid : BitVec 48) (fabricSlot : Option Nat) : BitVec 10 :=
  match fabricSlot with
  | some sl =>
    (match d.vehicles.find? (fun v => v.vid == vid && !isLegacy v && v.slots.getLsbD sl) with
     | some v => BitVec.ofNat 10 (v.pos.toNat * 16 + sl)
     | none => 0)
  | none =>
    match d.vehicles.find? (fun v => !isLegacy v &&
        ((v.flags.getLsbD 0 && v.uidA == uid) || (v.flags.getLsbD 1 && v.uidB == uid))) with
    | some v => BitVec.ofNat 10 (v.pos.toNat * 16 + (if v.flags.getLsbD 0 && v.uidA == uid then 0 else 1))
    | none => 0

/-- The unique identifier of the trunk node at a train node address. -/
def uidAt (d : Directory) (a : BitVec 10) : Option (BitVec 64) :=
  match d.vehicles.find? (fun v => v.pos.toNat == a.toNat / 16 && !isLegacy v) with
  | some v => if a.toNat % 16 = 0 && v.flags.getLsbD 0 then some v.uidA
              else if a.toNat % 16 = 1 && v.flags.getLsbD 1 then some v.uidB else none
  | none => none

/-- A position and slot is numbered. -/
def numberedIn (d : Directory) (pos slot : Nat) : Bool :=
  match d.vehicles.find? (fun v => v.pos.toNat == pos) with
  | some v => v.slots.getLsbD slot
  | none => false

/-- A unique identifier is a numbered twin. -/
def uidNumbered (d : Directory) (uid : BitVec 64) : Bool := (walkOf d).any (fun w => w.uid == uid)

/-! ## The walk: runs, conflicts, orientation (R97–R99, R104, R105) -/

/-- Maximal runs of adjacent nodes of one vehicle identity (R97). -/
def runs : List WalkNode → List (List WalkNode)
  | [] => []
  | x :: xs =>
    match runs xs with
    | (y :: ys) :: rest => if x.vid = y.vid then (x :: y :: ys) :: rest else [x] :: (y :: ys) :: rest
    | rest => [x] :: rest

/-- The nodes of a run that stay: of two of one twin letter, the one of the lower identifier (R99). -/
def runKept (r : List WalkNode) : List WalkNode :=
  r.filter (fun x => !(r.any (fun y => y.twinB == x.twinB && y.uid.toNat < x.uid.toNat)))

/-- R99's cases over the runs from the reference end: the vehicles numbered, and (cause, identifier) of each node that
stays unnumbered. -/
def numberRuns : List (List WalkNode) → List (BitVec 48) → Nat → List (List WalkNode) × List (Byte × BitVec 64)
  | [], _, _ => ([], [])
  | r :: rs, seen, n =>
    let vid := (r.head?.map (fun w => w.vid)).getD 0
    if seen.contains vid then
      let x := numberRuns rs seen n
      (x.1, r.map (fun w => (1, w.uid)) ++ x.2)
    else if 64 ≤ n then
      let x := numberRuns rs (vid :: seen) n
      (x.1, r.map (fun w => (3, w.uid)) ++ x.2)
    else
      let kept := runKept r
      let x := numberRuns rs (vid :: seen) (n + 1)
      (kept :: x.1, (r.filter (fun w => !(kept.any (fun k => k.uid == w.uid)))).map (fun w => (2, w.uid)) ++ x.2)

/-- A walk seen from its other end. -/
def turnWalk (l : List WalkNode) : List WalkNode := l.reverse.map (fun w => { w with dirToRef := !w.dirToRef })

/-- R105: a run whose vehicle has a twin A that would be numbered. -/
def runQualifies (r : List WalkNode) : Bool := (runKept r).any (fun w => !w.twinB)

/-- The vehicle identity of a run. -/
def runVid (r : List WalkNode) : BitVec 48 := (r.head?.map (fun w => w.vid)).getD 0

/-- R105: the end vehicle at the head qualifies. -/
def headQualifies (l : List WalkNode) : Bool :=
  match runs l with
  | r :: _ => runQualifies r
  | [] => false

/-- R105: inward from the chosen end, the vehicles that stay unnumbered until one qualifies. A farther run of an identity
already met is R99's first case: it does not qualify, and an identity met in a vehicle so left out counts as met. -/
def dropInward : List (List WalkNode) → List (BitVec 48) → List (List WalkNode) × List (Byte × BitVec 64)
  | [], seen => numberRuns [] seen 0
  | r :: rs, seen =>
    if seen.contains (runVid r) then
      let x := dropInward rs seen
      (x.1, r.map (fun w => (1, w.uid)) ++ x.2)
    else if runQualifies r then numberRuns (r :: rs) seen 0
    else
      let kept := runKept r
      let x := dropInward rs (runVid r :: seen)
      (x.1, (r.filter (fun w => !(kept.any (fun k => k.uid == w.uid)))).map (fun w => (2, w.uid)) ++ x.2)

/-- R105: the walk from the end that is examined first, given the walk from the end R104 chose: the opposite end where
only its vehicle qualifies. -/
def qualifyWalk (l : List WalkNode) : List WalkNode :=
  if headQualifies l then l
  else if headQualifies (turnWalk l) then turnWalk l
  else l

/-- What the choice of R104 rests on. -/
structure EndChoice where
  lead : BitVec 48
  old : Option Directory               -- step 2: the generation in force before a break
  formerRefs : List (BitVec 64 × Nat)  -- step 3: reference-end nodes of merging groups and their node counts
  current : Bool                       -- step 4: the walk begins at the current reference end
  deriving DecidableEq, Repr

/-- The position a node held in a directory. -/
def positionIn (d : Directory) (uid : BitVec 64) : Option Nat :=
  (d.vehicles.find? (fun v => (v.flags.getLsbD 0 && v.uidA == uid) || (v.flags.getLsbD 1 && v.uidB == uid))).map
    (fun v => v.pos.toNat)

/-- Step 1: the end of the leading vehicle: some true for the far end of the walk. Of a walk that is that one vehicle it names
the head (DESIGN CHOICE, log 36). -/
def endByLead (c : EndChoice) (h t : WalkNode) : Option Bool :=
  if c.lead = 0 then none else if h.vid = c.lead then some false else if t.vid = c.lead then some true else none

/-- Step 2: after a break, the end whose node held the lower position. -/
def endByOld (c : EndChoice) (h t : WalkNode) : Option Bool :=
  match c.old with
  | none => none
  | some d =>
    match positionIn d h.uid, positionIn d t.uid with
    | some a, some b => if a < b then some false else if b < a then some true else none
    | _, _ => none

/-- Step 3: in a merge, the former reference end that is still an end; of two, the larger group's. -/
def endByMerge (c : EndChoice) (h t : WalkNode) : Option Bool :=
  let atHead := c.formerRefs.filter (fun r => r.1 == h.uid)
  let atTail := c.formerRefs.filter (fun r => r.1 == t.uid)
  match atHead, atTail with
  | [], [] => none
  | _ :: _, [] => some false
  | [], _ :: _ => some true
  | a :: _, b :: _ => if b.2 < a.2 then some false else if a.2 < b.2 then some true else none

/-- R104: the far end is chosen. Step 4 names the head where the walk begins at the current reference end. -/
def chooseFar (c : EndChoice) (l : List WalkNode) : Bool :=
  match l.head?, l.getLast? with
  | some h, some t =>
    ((endByLead c h t).or ((endByOld c h t).or ((endByMerge c h t).or (if c.current then some false else none)))).getD
      (decide (t.uid.toNat < h.uid.toNat))
  | _, _ => false

/-- R104, R105: the walk from the reference end. -/
def orientWalk (c : EndChoice) (l : List WalkNode) : List WalkNode :=
  qualifyWalk (if chooseFar c l then turnWalk l else l)

/-! ## Building a directory -/

/-- Slots 2–15 of a vehicle: as the newest report says, otherwise as an earlier directory held them (R98, R510). -/
def fabricSlots (vid : BitVec 48) (dirs : List Directory) (reports : List FabricReport) : BitVec 16 :=
  match reports.find? (fun r => r.vid == vid) with
  | some r => r.slots &&& 0xFFFC
  | none =>
    match dirs.findSome? (fun d => d.vehicles.find? (fun v => v.vid == vid && !isLegacy v)) with
    | some v => v.slots &&& 0xFFFC
    | none => 0

/-- The record of a numbered vehicle. -/
def vehRecord (pos : Nat) (kept : List WalkNode) (slots : BitVec 16) (lead : BitVec 48) : VehRec :=
  let a := kept.find? (fun w => !w.twinB)
  let b := kept.find? (fun w => w.twinB)
  let vid := (kept.head?.map (fun w => w.vid)).getD 0
  let rev := match a, b with
    | some w, _ => w.dirToRef
    | none, some w => w.dirToRef
    | none, none => false
  { pos := BitVec.ofNat 8 pos
    flags := BitVec.ofNat 8 (b2n a.isSome + 2 * b2n b.isSome + 4 * b2n rev + 16 * b2n (lead ≠ 0 && vid = lead))
    slots := slots ||| BitVec.ofNat 16 (b2n a.isSome + 2 * b2n b.isSome)
    vid := vid
    wtbAddr := 0
    uidA := (a.map (fun w => w.uid)).getD 0
    uidB := (b.map (fun w => w.uid)).getD 0 }

/-- R148: the record of a legacy vehicle. -/
def legacyRecord (pos : Nat) (wtb : Byte) : VehRec where
  pos := BitVec.ofNat 8 pos
  flags := 8
  slots := 1
  vid := 0
  wtbAddr := wtb
  uidA := 0
  uidB := 0

/-- Set bits of a slot mask. -/
def popcount16 (v : BitVec 16) : Nat := ((List.range 16).map (fun i => b2n (v.getLsbD i))).sum

/-- NODES: numbered Padait nodes. -/
def nodeCount (vs : List VehRec) : Nat := ((vs.filter (fun v => !isLegacy v)).map (fun v => popcount16 v.slots)).sum

/-- A directory of generation `gen` over an oriented walk, the vehicles inward of R105 included, followed by legacy
vehicles (R97–R100, R148), with the nodes left unnumbered. -/
def buildDir (gen : BitVec 16) (lead : BitVec 48) (walk : List WalkNode) (dirs : List Directory)
    (reports : List FabricReport) (legacy : List Byte) : Directory × List (Byte × BitVec 64) :=
  let x := dropInward (runs walk) []
  let vs := (x.1.zipIdx 1).map (fun e =>
    vehRecord e.2 e.1 (fabricSlots ((e.1.head?.map (fun w => w.vid)).getD 0) dirs reports) lead)
  let ls := ((legacy.take (64 - vs.length)).zipIdx (vs.length + 1)).map (fun e => legacyRecord e.2 e.1)
  let ref := match vs.head? with | some v => v.uidA | none => 0
  ({ gen := gen, refUid := ref, leadVid := lead, nodes := BitVec.ofNat 16 (nodeCount vs), vehicles := vs ++ ls }, x.2)

/-! ## The position map (R143, R144) -/

/-- The legacy vehicles of a directory. -/
def legacyList (d : Directory) : List Byte := (d.vehicles.filter isLegacy).map (fun v => v.wtbAddr)

/-- How many of a list begin it before one of them repeats. -/
def distinctPrefix : List Byte → List Byte → Nat
  | [], _ => 0
  | x :: xs, seen => if seen.contains x then 0 else distinctPrefix xs (x :: seen) + 1

/-- The far island's and the near island's addresses in the order of R148, parted where an address repeats. -/
def legacyBlocks (l : List Byte) : List Byte × List Byte :=
  let n := distinctPrefix l []
  (l.take n, l.drop n)

/-- The numbering of the Padait section runs the other way in the new directory: two vehicles stand in the other order, or
one is seen from its other end. -/
def numberingTurned (old new : Directory) : Bool :=
  let both := (old.vehicles.filter (fun v => !isLegacy v)).filterMap (fun v =>
    (new.vehicles.find? (fun w => !isLegacy w && w.vid == v.vid)).map (fun w => (v, w)))
  match both.head?, both.getLast? with
  | some x, some y =>
    if x.1.pos = y.1.pos then x.1.flags.getLsbD 2 ≠ x.2.flags.getLsbD 2 else y.2.pos.toNat < x.2.pos.toNat
  | _, _ => false

/-- Whether a legacy vehicle of an old directory is the one of the new directory's far island, or of its near one, where its
address occurs in both (DESIGN CHOICE, log 39): the islands change places when the numbering turns, and of two islands
that had the address the one whose addresses are still there has stayed, the far one where that decides nothing. -/
def legacySecond (old new : Directory) (v : VehRec) : Option Bool :=
  let o := legacyList old
  let n := legacyList new
  let twice (l : List Byte) : Bool := 2 ≤ (l.filter (fun a => a == v.wtbAddr)).length
  let second := old.vehicles.any (fun w => isLegacy w && w.wtbAddr == v.wtbAddr && w.pos.toNat < v.pos.toNat)
  let b := legacyBlocks o
  let here (l m : List Byte) : Bool := l.all (fun a => m.contains a)
  if twice o && twice n then some (second != numberingTurned old new)
  else if twice o then (if second == (here b.2 n && !(here b.1 n)) then some false else none)
  else if twice n then some (!(here o (legacyBlocks n).1))
  else some false

/-- The new position of the vehicle of a record: the same vehicle identity, or for a legacy vehicle the same
wire-train-bus address of its island. -/
def newPosition (old new : Directory) (v : VehRec) : Byte :=
  let same := new.vehicles.filter (fun w => isLegacy w == isLegacy v && (if isLegacy v then w.wtbAddr == v.wtbAddr else w.vid == v.vid))
  let place (w : Option VehRec) : Byte := (w.map (fun w => w.pos)).getD 0
  if !isLegacy v then place same.head?
  else match legacySecond old new v with
    | some second => place (if second then same.getLast? else same.head?)
    | none => 0

/-- The 64 bytes of the map from an old directory to a new one. -/
def positionMap (old : Option Directory) (new : Directory) : List Byte :=
  (List.range 64).map (fun i =>
    match old with
    | some d => (match d.vehicles.find? (fun v => v.pos.toNat == i + 1) with
      | some v => newPosition d new v
      | none => 0)
    | none => 0)

/-- A train node address after a switch: the same node's new address, 0 when it is no longer numbered. -/
def mapAddr (map : List Byte) (new : Directory) (a : BitVec 10) : BitVec 10 :=
  let p := (map.getD (a.toNat / 16 - 1) 0).toNat
  if a.toNat < 16 || p = 0 || !(numberedIn new p (a.toNat % 16)) then 0 else BitVec.ofNat 10 (p * 16 + a.toNat % 16)

end Sys2Proof.Machine
end

