-- ==== Sys2Proof/Machine/BridgeCore.lean ====
section
/-! DEFINITION. The bridge's windows, semaphores (R535), posted-write failure log (R537) and its commands (R526,
R541). -/

namespace Sys2Proof.Machine

/-- The bridge changed. -/
def modBridge (f : Bridge → Bridge) (s : State) : State := { s with bridge := f s.bridge }

/-- A counter of FAB_BRIDGE_STATUS: 0 READ_FAIL, 1 PW_FAIL, 2 PW_LOST, 3 RD_STALE, 4 PROXY_LATE, 5 SPI_REFUSED. -/
def bridgeCount (i : Nat) (s : State) : State := modBridge (fun b => { b with ctr := ctrInc b.ctr i }) s

/-! ## Semaphores (R535) -/

/-- Semaphore `k`. -/
def semOf (s : State) (k : Nat) : Option Sem := s.bridge.sems.getD k none

/-- Semaphore `k` set. -/
def semSet (k : Nat) (x : Option Sem) (s : State) : State :=
  modBridge (fun b => { b with sems := updAt b.sems k (fun _ => x) }) s

/-- The unique identifier behind an interface: the initiator's, or this node's. -/
def ifaceUid (i : Iface) (s : State) : BitVec 64 := match i with | .remote _ u => u | _ => s.sys.uid

/-- The party owns the semaphore: the same interface of the same node. -/
def semOwned (i : Iface) (x : Sem) (s : State) : Bool :=
  x.ownerUid == ifaceUid i s && x.owner.toNat / 1024 == ifaceTag i

/-- The address behind an interface. -/
def ifaceAddr (i : Iface) (s : State) : BitVec 10 := match i with | .remote a _ => a | _ => s.ina.addr

/-- The vehicle a train node address names in a directory. -/
def targetVid (d : Option Directory) (a : BitVec 10) : Option (BitVec 48) :=
  match d with
  | some d => (d.vehicles.find? (fun v => v.pos.toNat == a.toNat / 16 && !isLegacy v)).map (fun v => v.vid)
  | none => none

/-- A free semaphore is taken by the party. -/
def semTake (i : Iface) (k : Nat) (s : State) : State :=
  semSet k (some { owner := ownerTag i s, ownerUid := ifaceUid i s, ownerVid := targetVid s.ina.dir (ifaceAddr i s),
                   clk := s.clk }) s

/-- A read: a free semaphore returns 0 and is taken, a held one returns its owner tag with bit [31]. -/
def semRead (i : Iface) (k : Nat) (s : State) : Nat × State :=
  match semOf s k with
  | none => (0, semTake i k s)
  | some x => (x.owner.toNat + 2 ^ 31, s)

/-- A write: 0 by the owner releases. -/
def semWrite (i : Iface) (k v : Nat) (s : State) : State :=
  match semOf s k with
  | some x => if v = 0 && semOwned i x s then semSet k none s else s
  | none => s

/-- FAB_SEM_TIMEOUT: semaphore, owner tag, cause (0 timeout, 1 owner left, 2 command). -/
def semEvent (k cause : Nat) (s : State) : State :=
  let tag := match semOf s k with | some x => x.owner.toNat | none => 0
  raise 0x0B05 (leBytes 1 k ++ leBytes 4 tag ++ leBytes 1 cause) s

/-- A semaphore released by the node. -/
def semFree (k cause : Nat) (s : State) : State := semSet k none (semEvent k cause s)

/-- R535: the semaphores of this node's own interfaces are released. -/
def semOwnFree (s : State) : State :=
  modBridge (fun b => { b with sems := b.sems.map (fun x =>
    match x with | some y => if y.ownerUid = s.sys.uid then none else some y | none => none) }) s

/-! ## Targets -/

/-- The vehicle record at a position. -/
def vehAt (d : Directory) (pos : Nat) : Option VehRec := d.vehicles.find? (fun v => v.pos.toNat == pos && !isLegacy v)

/-- The unique identifier of the node at an address, 0 when unknown: twins from the directory, fabric nodes of the own
vehicle from the slot table. -/
def uidOfAddr (s : State) (a : BitVec 10) : BitVec 64 :=
  let slot := a.toNat % 16
  if a.toNat / 16 = position s && 2 ≤ slot then
    (if s.fab.attached then s.fab.heard.getD [] else s.fab.slots).getD (slot - 2) 0
  else match s.ina.dir with
    | some d => match vehAt d (a.toNat / 16) with
      | some v => if slot = 0 then v.uidA else if slot = 1 then v.uidB else 0
      | none => 0
    | none => 0

/-- A train node address names a node: a numbered one of the directory, or a slot of the own vehicle the fabric reaches. -/
def addrNamed (s : State) (a : BitVec 10) : Bool :=
  let pos := a.toNat / 16
  let slot := a.toNat % 16
  (pos = position s && (fabRoute s slot).isSome) ||
  (pos ≠ 0 && (match s.ina.dir with | some d => numberedIn d pos slot | none => false))

/-- The address a window's target has now (R526). -/
def windowTarget (s : State) (w : Window) : Option (BitVec 10) :=
  if w.mode = 1 then (if addrNamed s w.addr then some w.addr else none)
  else if w.mode = 2 then
    let own : Option (BitVec 10) :=
      if w.vid = s.ina.vid && (fabRoute s w.slot.toNat).isSome then some (BitVec.ofNat 10 (16 * position s + w.slot.toNat))
      else none
    match s.ina.dir with
    | some d => match d.vehicles.find? (fun v => v.vid == w.vid && !isLegacy v) with
      | some v =>
        let a := BitVec.ofNat 10 (16 * v.pos.toNat + w.slot.toNat)
        if addrNamed s a then some a else own
      | none => own
    | none => own
  else none

/-! ## The posted-write failure log (R537) -/

/-- A failed posted write: its entry, its count and BRIDGE_PW_FAIL. -/
def pwFail (code : Nat) (o : Outbound) (s : State) : State :=
  let e : PwEntry :=
    { time := s.now, addr := o.frame.addr, target := o.targetUid, node := o.target, error := BitVec.ofNat 8 code,
      window := BitVec.ofNat 8 (match o.window with | some w => w.val | none => 0),
      iface := BitVec.ofNat 8 (ifaceTag o.src), len := o.frame.len }
  let s1 := if 64 ≤ s.bridge.pwlog.length then bridgeCount 2 s else s
  raise 0x0B04 (leBytes 1 code ++ leBytes 1 e.window.toNat)
    (bridgeCount 1 (modBridge (fun b => { b with pwlog := keepLast 64 (b.pwlog ++ [e]) }) s1))

/-- The 32 bytes of an entry. -/
def pwBytes (e : PwEntry) : List Byte :=
  timeBytes e.time ++ leBytes 4 e.addr.toNat ++ leBytes 8 e.target.toNat ++ leBytes 2 e.node.toNat ++
  [e.error, e.window, e.iface, 0] ++ leBytes 2 e.len

/-! ## Commands (R541) -/

/-- FAB_WINDOW_SET. -/
def fabWindowSetSpec : CmdSpec := plainSpec 0x0B03 20 ([(2, 0xFC), (7, 0xFF)] ++ zeros 14 15)

/-- R526. -/
def fabWindowSetBody (r : Ring) (s : State) : Reply × State :=
  let b (i : Nat) := byteAt r.req i
  let base := fieldAt r.req 16 4
  if 8 ≤ b 0 then (outOfRange 0, s)
  else if 3 ≤ b 1 then (outOfRange 1, s)
  else if 32 ≤ b 3 && b 3 ≠ 0xFF then (outOfRange 3, s)
  else if 1024 ≤ fieldAt r.req 4 2 then (outOfRange 4, s)
  else if 16 ≤ b 6 then (outOfRange 6, s)
  else if base % 0x400000 ≠ 0 || 0x1000000 ≤ base then (outOfRange 16, s)
  else
    let w : Window :=
      { mode := b 1, addr := BitVec.ofNat 10 (fieldAt r.req 4 2), vid := BitVec.ofNat 48 (fieldAt r.req 8 6),
        slot := BitVec.ofNat 8 (b 6), base := BitVec.ofNat 32 base, rd := (b 2).testBit 0, wr := (b 2).testBit 1,
        guard_ := if b 3 = 0xFF then none else some (Fin.ofNat 32 (b 3)) }
    (done [], modBridge (fun x => { x with windows := updAt x.windows (b 0) (fun _ => w) }) s)

/-- FAB_BRIDGE_STATUS. -/
def fabBridgeStatusSpec : CmdSpec := plainSpec 0x0B05 4 ([(0, 0xFE)] ++ zeros 1 3)

/-- The six counters and their overflow bits, cleared where asked. -/
def fabBridgeStatusBody (r : Ring) (s : State) : Reply × State :=
  let c := s.bridge.ctr
  (done (c.flatMap (fun x => leBytes 4 x.n.toNat) ++ leBytes 1 (ovfBits c)),
   if clearAsked r.req 0 then modBridge (fun b => { b with ctr := ctrClear b.ctr }) s else s)

/-- FAB_PWLOG. -/
def fabPwlogSpec : CmdSpec := plainSpec 0x0B06 4 ([(1, 0xFE)] ++ zeros 2 3)

/-- The oldest entries, removed where asked. -/
def fabPwlogBody (r : Ring) (s : State) : Reply × State :=
  let n := byteAt r.req 0
  if n = 0 || 64 < n then (outOfRange 0, s)
  else
    let es := s.bridge.pwlog.take n
    (done ([BitVec.ofNat 8 es.length, 0, 0, 0] ++ es.flatMap pwBytes),
     if (byteAt r.req 1).testBit 0 then modBridge (fun b => { b with pwlog := b.pwlog.drop n }) s else s)

/-- FAB_SEM_RELEASE. -/
def fabSemReleaseSpec : CmdSpec := plainSpec 0x0B07 4 (zeros 1 3)

/-- The semaphore is released, with FAB_SEM_TIMEOUT of cause command. -/
def fabSemReleaseBody (r : Ring) (s : State) : Reply × State :=
  let k := byteAt r.req 0
  if 32 ≤ k then (outOfRange 0, s) else (done [], semFree k 2 s)

/-- FAB_WINDOW_SET (R526). -/
def execFabWindowSet (dt : Nat) (r : Ring) (s : State) : Host.Outcome State Fault Refusal :=
  .next (submit fabWindowSetSpec fabWindowSetBody dt r s)

/-- FAB_BRIDGE_STATUS (R541). -/
def execFabBridgeStatus (dt : Nat) (r : Ring) (s : State) : Host.Outcome State Fault Refusal :=
  .next (submit fabBridgeStatusSpec fabBridgeStatusBody dt r s)

/-- FAB_PWLOG (R537, R541). -/
def execFabPwlog (dt : Nat) (r : Ring) (s : State) : Host.Outcome State Fault Refusal :=
  .next (submit fabPwlogSpec fabPwlogBody dt r s)

/-- FAB_SEM_RELEASE (R541). -/
def execFabSemRelease (dt : Nat) (r : Ring) (s : State) : Host.Outcome State Fault Refusal :=
  .next (submit fabSemReleaseSpec fabSemReleaseBody dt r s)

end Sys2Proof.Machine
end

