-- ==== Sys2Proof/Machine/Crypt.lean ====
section
/-! DEFINITION. The cryptography of protected flow frames (R298, R299): AES-256, AES-CMAC, the counter mode of GCM, the key
derivation function of IEEE 802.1X-2020, and the frame of IEEE 802.1AE-2018. The spec names these standards and leaves their
algorithms to them (PRESUMED, log 37). Bytes are natural numbers below 256 here, and a block is 16 of them. -/

namespace Sys2Proof.Machine

/-! ## AES-256 -/

/-- The rows of the substitution box, entry 0 of each in its least significant byte. -/
def aesRows : List Nat :=
  [0x76abd7fe2b670130c56f6bf27b777c63, 0xc072a49cafa2d4adf04759fa7dc982ca, 0x1531d871f1e5a534ccf73f362693fdb7,
   0x75b227ebe28012079a059618c323c704, 0x842fe329b3d63b52a05a6e1b1a2c8309, 0xcf584c4a39becb6a5bb1fc20ed00d153,
   0xa89f3c507f02f94585334d43fbaaefd0, 0xd2f3ff1021dab6bcf5389d928f40a351, 0x73195d643d7ea7c41744975fec130ccd,
   0xdb0b5ede14b8ee4688902a22dc4f8160, 0x79e4959162acd3c25c2406490a3a32e0, 0x08ae7a65eaf4566ca94ed58d6d37c8e7,
   0x8a8bbd4b1f74dde8c6b4a61c2e2578ba, 0x9e1dc186b95735610ef6034866b53e70, 0xdf2855cee9871e9b948ed9691198f8e1,
   0x16bb54b00f2d99416842e6bf0d89a18c]

/-- The substitution of a byte. -/
def aesSub (a : Nat) : Nat := aesRows.getD (a / 16) 0 / 256 ^ (a % 16) % 256

/-- Twice a byte in the field of AES. -/
def aesTwice (a : Nat) : Nat := if a < 128 then 2 * a else (2 * a) ^^^ 0x11B

/-- Two lists of bytes, added. -/
def xorBytes (a b : List Nat) : List Nat := List.zipWith (fun x y => x ^^^ y) a b

/-- One column mixed. -/
def mixColumn (c : List Nat) : List Nat :=
  (List.range 4).map (fun r =>
    let a (i : Nat) : Nat := c.getD ((r + i) % 4) 0
    aesTwice (a 0) ^^^ aesTwice (a 1) ^^^ a 1 ^^^ a 2 ^^^ a 3)

/-- The columns of a block mixed. -/
def mixColumns (b : List Nat) : List Nat := (List.range 4).flatMap (fun c => mixColumn ((b.drop (4 * c)).take 4))

/-- Bytes substituted and rows shifted. -/
def subShift (b : List Nat) : List Nat :=
  (List.range 16).map (fun i => aesSub (b.getD ((i % 4 + 4 * ((i / 4 + i % 4) % 4))) 0))

/-- The next word of the key schedule, `w` the words so far, newest first. -/
def nextKeyWord (w : List (List Nat)) : List Nat :=
  let i := w.length
  let t := w.headD []
  let t1 := if i % 8 = 0 then xorBytes ((t.drop 1 ++ t.take 1).map aesSub) [2 ^ (i / 8 - 1), 0, 0, 0]
            else if i % 8 = 4 then t.map aesSub else t
  xorBytes (w.getD 7 []) t1

/-- The 60 words of the key schedule, newest first. -/
def keyWords : Nat → List (List Nat) → List (List Nat)
  | 0, w => w
  | n + 1, w => keyWords n (nextKeyWord w :: w)

/-- The 15 round keys of a 32-byte key. -/
def roundKeys (key : List Nat) : List (List Nat) :=
  let w := (keyWords 52 ((List.range 8).map (fun i => (key.drop (4 * i)).take 4)).reverse).reverse
  (List.range 15).map (fun r => ((w.drop (4 * r)).take 4).flatten)

/-- The rounds after the first key addition. -/
def aesRounds : List (List Nat) → List Nat → List Nat
  | [], b => b
  | [k], b => xorBytes (subShift b) k
  | k :: ks, b => aesRounds ks (xorBytes (mixColumns (subShift b)) k)

/-- A block enciphered under round keys. -/
def aesBlock (ks : List (List Nat)) (b : List Nat) : List Nat :=
  match ks with
  | [] => b
  | k :: rest => aesRounds rest (xorBytes b k)

/-! ## Blocks -/

/-- A block as a number, its first byte most significant. -/
def blockNat (b : List Nat) : Nat := b.foldl (fun a x => 256 * a + x) 0

/-- `n` bytes of a number, the most significant first. -/
def natBytes (n v : Nat) : List Nat := ((List.range n).map (fun i => v / 256 ^ i % 256)).reverse

/-- Bytes filled up with zeros to whole blocks. -/
def fillBlock (b : List Nat) : List Nat := b ++ List.replicate ((16 - b.length % 16) % 16) 0

/-- Bytes in blocks of 16; `n` bounds their number. -/
def aesBlocks : Nat → List Nat → List (List Nat)
  | 0, _ => []
  | n + 1, b => if b.isEmpty then [] else b.take 16 :: aesBlocks n (b.drop 16)

/-! ## AES-CMAC -/

/-- A subkey from the one before. -/
def cmacTwice (v : Nat) : Nat := if v < 2 ^ 127 then 2 * v else ((2 * v) % 2 ^ 128) ^^^ 0x87

/-- The message authentication code of a message. -/
def aesCmac (key msg : List Nat) : List Nat :=
  let ks := roundKeys key
  let k1 := cmacTwice (blockNat (aesBlock ks (List.replicate 16 0)))
  let whole := msg ≠ [] && msg.length % 16 = 0
  let n := if whole then msg.length / 16 - 1 else msg.length / 16
  let end_ := msg.drop (16 * n)
  let last := if whole then xorBytes end_ (natBytes 16 k1)
              else xorBytes (fillBlock (end_ ++ [0x80])) (natBytes 16 (cmacTwice k1))
  let x := (aesBlocks n (msg.take (16 * n))).foldl (fun x b => aesBlock ks (xorBytes x b)) (List.replicate 16 0)
  aesBlock ks (xorBytes x last)

/-! ## GCM -/

/-- A product in the field of GCM; `n` bits of `x` are left. -/
def gcmTimes : Nat → Nat → Nat → Nat → Nat
  | 0, _, _, z => z
  | n + 1, x, v, z =>
    gcmTimes n x (if v.testBit 0 then (v / 2) ^^^ (0xE1 * 2 ^ 120) else v / 2) (if x.testBit n then z ^^^ v else z)

/-- The hash of whole blocks. -/
def gHash (h : Nat) (b : List Nat) : Nat :=
  (aesBlocks (b.length / 16) b).foldl (fun y x => gcmTimes 128 (y ^^^ blockNat x) h 0) 0

/-- The key stream of `n` blocks after a counter block with the initialization vector `iv`. -/
def gcmStream (ks : List (List Nat)) (iv : List Nat) (n : Nat) : List Nat :=
  (List.range n).flatMap (fun i => aesBlock ks (iv ++ natBytes 4 (i + 2)))

/-- GCM-AES-256: the enciphered text and the 16-byte check value. -/
def gcmSeal (key iv aad text : List Nat) : List Nat × List Nat :=
  let ks := roundKeys key
  let c := xorBytes text (gcmStream ks iv ((text.length + 15) / 16))
  let h := blockNat (aesBlock ks (List.replicate 16 0))
  let s := gHash h (fillBlock aad ++ fillBlock c ++ natBytes 8 (8 * aad.length) ++ natBytes 8 (8 * c.length))
  (c, xorBytes (natBytes 16 s) (aesBlock ks (iv ++ [0, 0, 0, 1])))

/-! ## The secure association key (R299) -/

/-- The bytes of "Padait flow SAK". -/
def sakLabel : List Nat := "Padait flow SAK".toList.map (fun c => c.toNat)

/-- The key derivation function of IEEE 802.1X-2020 for 256 bits. -/
def deriveKey (key label context : List Nat) : List Nat :=
  [1, 2].flatMap (fun i => aesCmac key (i :: label ++ [0] ++ context ++ natBytes 2 256))

/-- Bytes as numbers. -/
def toNats (b : List Byte) : List Nat := b.map (fun x => x.toNat)

/-- R299: the secure association key of a group, a generation and an epoch. The context's fields are little-endian, as the
fields of the spec's frames are (DESIGN CHOICE, log 37). -/
def flowSak (cak : List Byte) (ref : BitVec 64) (gen : BitVec 16) (epoch : BitVec 14) : List Nat :=
  deriveKey (toNats cak) sakLabel (toNats (leBytes 8 ref.toNat ++ leBytes 2 gen.toNat ++ leBytes 2 epoch.toNat))

/-! ## The protected frame (R298) -/

/-- The SecTAG with its SCI: confidentiality on, the short length of user data below 48 bytes. -/
def secTagBytes (t : SecTag) (n : Nat) : List Nat :=
  [0x88, 0xE5, 0x2C + t.an.toNat, if n < 48 then n else 0] ++ natBytes 4 t.pn.toNat ++ natBytes 8 t.sci.toNat

/-- A flow frame's user data, and what GCM makes of it: confidentiality offset 0, the addresses and the SecTAG authenticated. -/
def sealFlow (sak : List Nat) (etherType : BitVec 16) (f : FlowFrame) (t : SecTag) : List Nat × List Nat :=
  let plain := toNats (flowPlain etherType f)
  let user := plain.drop 12
  gcmSeal sak (natBytes 8 t.sci.toNat ++ natBytes 4 t.pn.toNat) (plain.take 12 ++ secTagBytes t user.length) user

/-- The ICV of a flow frame under a key. -/
def flowIcv (sak : List Nat) (etherType : BitVec 16) (f : FlowFrame) (t : SecTag) : BitVec 128 :=
  BitVec.ofNat 128 (blockNat (sealFlow sak etherType f t).2)

/-- R298: the bytes of a protected flow frame. -/
def protectedBytes (sak : List Nat) (etherType : BitVec 16) (f : FlowFrame) (t : SecTag) : List Byte :=
  let plain := toNats (flowPlain etherType f)
  let x := sealFlow sak etherType f t
  let frame := (plain.take 12 ++ secTagBytes t (plain.length - 12) ++ x.1 ++ x.2).map (fun n => BitVec.ofNat 8 n)
  frame ++ leBytes 4 (frameCheck frame).toNat

end Sys2Proof.Machine
end

