-- ==== Sys2Proof/Machine/Image.lean ====
section
/-! DEFINITION. The mash schedule image (R193–R197): its sections and the checks of R197. -/

namespace Sys2Proof.Machine

/-- The 16 bytes of entry `i` begin at 64 + 16 i. -/
def imageEntry (b : List Byte) (i : Nat) : Entry :=
  let o := 64 + 16 * i
  { start := fieldAt b o 4, len := fieldAt b (o + 4) 2, role := BitVec.ofNat 16 (fieldAt b (o + 6) 2),
    lines := b.getD (o + 8) 0, flags := b.getD (o + 9) 0 }

/-- ENTRIES, VARIANTS, SEQ_LOG2 and REFS of a header. -/
def imageCounts (b : List Byte) : Nat × Nat × Nat × Nat :=
  (fieldAt b 10 2, byteAt b 12, byteAt b 13, fieldAt b 48 4)

/-- Offset of the variant directory, the reference list and the sequence table, and the whole length. -/
def imageLayout (b : List Byte) : Nat × Nat × Nat × Nat :=
  let c := imageCounts b
  let v := 64 + 16 * c.1
  let r := v + 4 * c.2.1
  let q := r + 2 * c.2.2.2
  (v, r, q, (q + 2 ^ c.2.2.1 + 3) / 4 * 4 + 32)

/-- (FIRST, COUNT) of variant `i`. -/
def imageVariant (b : List Byte) (i : Nat) : Nat × Nat :=
  let v := (imageLayout b).1
  (fieldAt b (v + 4 * i) 2, fieldAt b (v + 4 * i + 2) 2)

/-- The entry numbers a variant references (R194). -/
def variantRefs (b : List Byte) (i : Nat) : List Nat :=
  let x := imageVariant b i
  let r := (imageLayout b).2.1
  (List.range x.2).map (fun k => fieldAt b (r + 2 * (x.1 + k)) 2)

/-- The image the bytes describe. -/
def imageOf (b : List Byte) : Image :=
  let c := imageCounts b
  let q := (imageLayout b).2.2.1
  { cycleUs := fieldAt b 6 2, guardNs := fieldAt b 8 2, spanNs := fieldAt b 16 4, slotBegin := fieldAt b 20 4,
    mgmtBegin := fieldAt b 24 4, mgmtLen := fieldAt b 28 4, sporEnd := fieldAt b 32 4, releaseNs := fieldAt b 36 4,
    sporCredit := fieldAt b 40 4, mgmtCredit := fieldAt b 44 4,
    entries := (List.range c.1).map (imageEntry b), variants := (List.range c.2.1).map (variantRefs b),
    seq := (List.range (2 ^ c.2.2.1)).map (fun i => byteAt b (q + i)),
    hash := BitVec.ofNat 256 (fieldAt b ((imageLayout b).2.2.2 - 32) 32) }

/-- T of an entry in tenths of a nanosecond. -/
def entryT10 (e : Entry) : Nat := (e.len + 20) * 32

/-- ROLE's TARGET. -/
def roleTarget (e : Entry) : Nat := e.role.toNat % 1024

/-- ROLE's KIND. -/
def roleKind (e : Entry) : Nat := e.role.toNat / 4096 % 4

/-- Check 0x08 of one entry at its bytes. Bits [7:2] of LINES, of which the entry record says nothing, count as reserved
(DESIGN CHOICE, log 36). -/
def entryBad (b : List Byte) (i : Nat) : Bool :=
  let e := imageEntry b i
  e.len < 64 || 1568 < e.len || e.lines &&& 3 = 0 || e.lines.toNat / 4 ≠ 0 || e.flags.toNat / 4 ≠ 0 ||
  fieldAt b (64 + 16 * i + 10) 6 ≠ 0 || e.role.toNat / 1024 % 4 ≠ 0 || e.role.toNat / 16384 ≠ 0 ||
  (roleKind e = 1 && roleTarget e % 16 ≠ 0) || (roleKind e = 3 && roleTarget e ≠ 0)

/-- Check 0x09 of one variant. -/
def variantBad (b : List Byte) (i : Nat) : Bool :=
  let x := imageVariant b i
  let c := imageCounts b
  1024 < x.2 || (x.2 ≠ 0 && c.2.2.2 < x.1 + x.2) || (variantRefs b i).any (fun e => c.1 ≤ e)

/-- Check 0x0A: two successive references stand too close. -/
def tooClose (g : Nat) (x y : Entry) : Bool := y.start * 10 < x.start * 10 + entryT10 x + g * 10

/-- Check 0x0A over a variant's entries. -/
def orderBad (g : Nat) : List Entry → Bool
  | x :: y :: es => tooClose g x y || orderBad g (y :: es)
  | _ => false

/-- Checks 0x04 to 0x07 of the header. -/
def headerCheck (b : List Byte) : Option (Nat × Nat) :=
  let c := imageCounts b
  let cyc := fieldAt b 6 2
  let g := fieldAt b 8 2
  let sp := fieldAt b 16 4
  if !([250, 500, 1000, 2000, 4000].contains cyc) then some (0x04, 0xFFFF)
  else if g < 200 || 20000 < g then some (0x05, 0xFFFF)
  else if sp < 2000 || 160000 < sp then some (0x06, 0xFFFF)
  else if c.1 < 1 || 4096 < c.1 || c.2.1 < 1 || 64 < c.2.1 || 12 < c.2.2.1 || c.2.2.2 < 1 || 65536 < c.2.2.2 then
    some (0x07, 0xFFFF)
  else none

/-- Checks 0x08 to 0x0B of the tables. -/
def tableCheck (b : List Byte) : Option (Nat × Nat) :=
  let c := imageCounts b
  let im := imageOf b
  let ent (n : Nat) : Entry := imageEntry b n
  match (List.range c.1).find? (entryBad b) with
  | some i => some (0x08, i)
  | none =>
  match (List.range c.2.1).find? (variantBad b) with
  | some i => some (0x09, i)
  | none =>
  match (List.range c.2.1).find? (fun i => orderBad im.guardNs ((variantRefs b i).map ent)) with
  | some i => some (0x0A, i)
  | none => if im.seq.any (fun v => c.2.1 ≤ v) then some (0x0B, 0xFFFF) else none

/-- Checks 0x0C to 0x11 of the times. -/
def timesCheck (im : Image) : Option (Nat × Nat) :=
  let used := im.variants.flatten
  let refs := (im.entries.zipIdx).filter (fun e => used.contains e.2)
  let l := im.cycleUs * 1000
  if im.slotBegin < im.spanNs + 3000 then some (0x0C, 0xFFFF)
  else match refs.find? (fun e => e.1.start < im.slotBegin) with
  | some e => some (0x0C, e.2)
  | none =>
  match refs.find? (fun e => im.mgmtBegin * 10 < e.1.start * 10 + entryT10 e.1 + im.spanNs * 10 + im.guardNs * 10) with
  | some e => some (0x0D, e.2)
  | none =>
    if im.mgmtLen < 10000 then some (0x0E, 0xFFFF)
    else if l < im.mgmtBegin + im.mgmtLen + 40000 || l < im.mgmtBegin + 7200 + im.spanNs + 40000 then some (0x0F, 0xFFFF)
    else if im.sporEnd < im.mgmtBegin + im.mgmtLen || l < im.sporEnd + 2000 || l < im.sporEnd + im.guardNs then
      some (0x10, 0xFFFF)
    else if im.releaseNs < 5000 || l < 2 * im.releaseNs then some (0x11, 0xFFFF)
    else none

/-- The first failing check of R197 in table order, with the entry or variant it returns. -/
def imageCheck (b : List Byte) : Option (Nat × Nat) :=
  if b.length < 64 then some (0x02, 0xFFFF)
  else if fieldAt b 0 4 ≠ 0x4853414D || fieldAt b 4 2 ≠ 1 || fieldAt b 14 2 ≠ 0 then some (0x01, 0xFFFF)
  else if fieldAt b 52 4 ≠ b.length || fieldAt b 52 4 ≠ (imageLayout b).2.2.2 then some (0x02, 0xFFFF)
  else if b.drop (b.length - 32) ≠ sha256 (b.take (b.length - 32)) then some (0x03, 0xFFFF)
  else (headerCheck b).or ((tableCheck b).or (timesCheck (imageOf b)))

end Sys2Proof.Machine
end

