-- ==== Sys2Proof/Machine/InaugCore.lean ====
section
/-! DEFINITION. Who and where a node is in its group (R22, R90, R92, R97, R98), and its inauguration state (R123). -/

namespace Sys2Proof.Machine

/-- The schedule changed. -/
def modSched (f : Sched → Sched) (s : State) : State := { s with sched := f s.sched }

/-- A count of the topology status record. -/
def inaCount (i : Nat) (s : State) : State := modIna (fun n => { n with ctr := ctrInc n.ctr i }) s

/-- The first node of its group: twin A of position 1, joined (R22). -/
def isFirst (s : State) : Bool := joined s && s.ina.addr == 0x010

/-- The node is in Steep. -/
def inSteep (s : State) : Bool := match s.ina.st with | .steep => true | _ => false

/-- The node is Held. -/
def inHeld (s : State) : Bool := match s.ina.st with | .held => true | _ => false

/-- The node is a provisional member. -/
def inProvMember (s : State) : Bool := match s.ina.st with | .provMember => true | _ => false

/-- The node is the provisional lead. -/
def inProvLead (s : State) : Bool := match s.ina.st with | .provLead => true | _ => false

/-- The node is contending. -/
def inContend (s : State) : Bool := match s.ina.st with | .contend => true | _ => false

/-- The node is a backbone node. -/
def inBackbone (s : State) : Bool := match s.ina.st with | .backbone => true | _ => false

/-- The image hash bytes 0–3 (SCHED_TAG). -/
def imageTag (im : Image) : BitVec 32 := im.hash.setWidth 32

/-- The hash a beacon carries: 0 without an image (R716). -/
def ownHash (s : State) : BitVec 256 := match s.sched.running with | some im => im.hash | none => 0

/-- The slot of a fabric-attached node (R98). -/
def ownSlot (s : State) : Option Nat := if s.fab.attached then some s.fab.mySlot.toNat else none

/-- The place of this node in the walk. -/
def ownIndex (s : State) : Option Nat := s.ina.members.findIdx? (fun w => w.uid == s.sys.uid)

/-- The upstream neighbour: the next node towards the reference end. -/
def upUid (s : State) : Option (BitVec 64) :=
  match ownIndex s with
  | some (i + 1) => (s.ina.members[i]?).map (fun w => w.uid)
  | _ => none

/-- The direction in which a partner stands. -/
def dirOfPartner (s : State) (u : BitVec 64) : Option Nat :=
  [0, 1].find? (fun d => (dirPorts d).any (fun p => linkHeld (portOf s p) && (portOf s p).partnerUid == u))

/-- The direction of the reference end. -/
def upDir (s : State) : Option Nat := (upUid s).bind (dirOfPartner s)

/-- R90: the partner's latest beacon shows this node's group: its generation and reference node, or those of the
generation this node is about to enter. A beacon that left before this node's last switch can have told only who the
partner is (DESIGN CHOICE, log 36). -/
def sameGroup (b : Beacon) (at_ : Option Nat) (d : Directory) (s : State) : Bool :=
  let fresh : Bool := match at_, s.ina.switchedAt with
    | some t, some w => w + usT 200 < t
    | _, _ => false
  let next : Bool := match s.ina.prep with
    | some p => p.committed && b.gen == p.dir.gen && (!p.whole || b.refUid == p.dir.refUid)
    | none => false
  if fresh then (b.gen == d.gen && b.refUid == d.refUid) || next else uidNumbered d b.uid

/-- R90: a partner that shows JOINED holds the generation and reference node of a directory, by a beacon that left after
this node's last switch. -/
def showsGroup (p : Nat) (d : Directory) (s : State) : Option Bool :=
  let t := portOf s p
  match t.partner with
  | some b =>
    let fresh : Bool := match t.partnerClk, s.ina.switchedAt with
      | some c, some w => w + usT 200 < c
      | _, none => true
      | none, _ => false
    if b.flags.getLsbD 1 && linkHeld t && fresh then some (b.gen == d.gen && b.refUid == d.refUid) else none
  | none => none

/-- R92: a port whose partner belongs to another group. A node without a number belongs to the group whose directory it
holds and whose numbered node is its partner on the other direction; a partner that does not show JOINED makes no boundary
(DESIGN CHOICE, log 36). -/
def isBoundary (s : State) (p : Nat) : Bool :=
  let t := portOf s p
  match t.partner, s.ina.dir with
  | some b, some d =>
    if joined s then b.flags.getLsbD 1 && !(sameGroup b t.partnerClk d s)
    else showsGroup p d s == some false && (dirPorts (1 - dirOfPort p)).any (fun q => showsGroup q d s == some true)
  | _, _ => false

/-- R235: hops from this node to the first node by way of port `p`: counted in the directory from the partner on where it
numbers the partner, otherwise at most the partner group's node count (DESIGN CHOICE, log 36). -/
def hopsVia (p : Nat) (s : State) : Nat :=
  match ownIndex s with
  | some _ => s.time.hops
  | none =>
    let u := (portOf s p).partnerUid
    let far := ((portOf s p).partner.map (fun b => b.nodes.toNat)).getD 1
    match s.ina.dir with
    | some d => (match (walkOf d).findIdx? (fun w => w.uid == u), (walkOf d).findIdx? (fun w => w.uid == d.refUid) with
      | some i, some j => max i j - min i j + 1
      | _, _ => max 1 far)
    | none => max 1 far

/-- The trunk ports of a direction that are Up within the group (R92). -/
def groupPorts (d : Nat) (s : State) : List Nat := (dirPorts d).filter (fun p => portUp s p && !isBoundary s p)

/-- R37, R92: a port that is not Up or that has become a boundary delivers no frame of this node's group. What comes on no
trunk port is not so kept out. -/
def keptOut (p : Option Nat) (s : State) : Bool := (p.map (fun p => !(portUp s p) || isBoundary s p)).getD false

/-- R37: the node forwards between port `p` and the port across. -/
def forwards (s : State) (p : Nat) : Bool :=
  portUp s p && portUp s (acrossPort p) && !isBoundary s p && !isBoundary s (acrossPort p) && !s.trunk.stopForward

end Sys2Proof.Machine
end

