-- ==== Sys2Proof/Machine/SchedCore.lean ====
section
/-! DEFINITION. Roles, polled entries and the wavefront of each line (R169–R191): what the ports, inauguration and the
schedule read of the cycle in progress. -/

namespace Sys2Proof.Machine

/-! ## Roles (R188–R191) -/

/-- VEHICLES of the directory in force. -/
def vehicleCount (s : State) : Nat := (s.ina.dir.map (fun d => d.vehicles.length)).getD 0

/-- The position a FROM_FAR target names, 0 when none. -/
def farPosition (s : State) (t : Nat) : Nat := vehicleCount s + 1 - t

/-- R189: this node is the boundary node of the legacy vehicle at a position: of an island of its own. -/
def ownsLegacy (pos : Nat) (s : State) : Bool :=
  match s.ina.dir.bind (fun d => d.vehicles.find? (fun v => v.pos.toNat == pos)) with
  | some v => isLegacy v && s.ina.islands.any (fun i => i.uid == s.sys.uid && i.addrs.contains v.wtbAddr)
  | none => false

/-- R189: the entry is this node's own. -/
def entryOwn (e : Entry) (s : State) : Bool :=
  let t := roleTarget e
  let a := s.ina.addr.toNat
  joined s && a ≠ 0 &&
  (if roleKind e = 0 then a = t || (t % 16 = 0 && ownsLegacy (t / 16) s)
   else if roleKind e = 1 then a / 16 = t / 16 && holdsActiveClaim s
   else if roleKind e = 2 then a / 16 = farPosition s (t / 16) && a % 16 = t % 16
   else isFirst s)

/-- The vehicle at a position has a numbered twin. -/
def twinIn (d : Directory) (pos : Nat) : Bool :=
  match d.vehicles.find? (fun v => v.pos.toNat == pos) with
  | some v => !isLegacy v && (v.slots.getLsbD 0 || v.slots.getLsbD 1)
  | none => false

/-- R189: the entry's role is present under a directory. -/
def entryPresent (e : Entry) (d : Directory) : Bool :=
  let t := roleTarget e
  if roleKind e = 0 then numberedIn d (t / 16) (t % 16)
  else if roleKind e = 1 then twinIn d (t / 16)
  else if roleKind e = 2 then numberedIn d (d.vehicles.length + 1 - t / 16) (t % 16)
  else true

/-- R191: the variant of a cycle number. -/
def variantOf (im : Image) (n : BitVec 32) : Nat := im.seq.getD (n.toNat % im.seq.length) 0

/-- The entry numbers of a variant. -/
def variantEntries (im : Image) (v : Nat) : List Nat := im.variants.getD v []

/-- An entry of an image. -/
def entryAt (im : Image) (n : Nat) : Option Entry := im.entries[n]?

/-! ## The wavefront of a line (R172–R177) -/

/-- The wavefront state of a line. -/
def lineState (s : State) (l : Line) : LinePath := match l with | .a => s.sched.a | .b => s.sched.b

/-- A line's wavefront state changed. -/
def modLine (l : Line) (f : LinePath → LinePath) (s : State) : State :=
  match l with
  | .a => modSched (fun d => { d with a := f d.a }) s
  | .b => modSched (fun d => { d with b := f d.b }) s

/-- R172: the node stands at the reference end of its group. -/
def atRefEnd (s : State) : Bool := ownIndex s == some 0

/-- ρ in 1/16 ns. -/
def rho (s : State) : Nat := if atRefEnd s then 0 else 5120

/-- 320 ns in 1/16 ns. -/
def residence16 : Nat := 5120

/-- R46: what port `p` receives is forwarded store-and-forward, the other direction of its line being Up in another mode. -/
def storesForward (p : Nat) (s : State) : Bool :=
  let q := portOf s (acrossPort p)
  portUp s (acrossPort p) && !(onWtb s (acrossPort p)) && !(q.mode == (portOf s p).mode)

/-- R177: the port can give its line a path. -/
def givesPath (p : Nat) (s : State) : Bool := delayValid s p && onNdoelle (portOf s p) && !storesForward p s

/-- R177: the line's path is valid now. -/
def pathOk (l : LinePath) (s : State) : Bool := l.valid && (match l.rx with | some p => givesPath p.val s | none => true)

/-- Ticks a frame of `n` bytes occupies a port with preamble and idle, by its mode (R45, R51). -/
def lineTicks (t : Port) (n : Nat) : Nat :=
  match t.mode with
  | .t1000 => (n + 20) * nsT 8
  | .t100 => (n + 20) * nsT 80
  | _ => (n + 20) * 32 * 65536 / 10

/-- The guard band G in ticks. -/
def guardT (s : State) : Nat := match s.sched.running with | some im => nsT im.guardNs | none => 0

/-! ## Polled entries and their times (R169, R171, R174, R175, R184) -/

/-- The entries this cycle polls, or without an opening frame those of the node's own sequence table (R169, R171). -/
def polledEntries (s : State) : List Nat :=
  match s.sched.running with
  | none => []
  | some im =>
    if s.sched.openOk then
      ((variantEntries im s.sched.pollVariant).zip s.sched.poll).filterMap (fun e => if e.2 then some e.1 else none)
    else if s.sched.heldFlag then []
    else variantEntries im (variantOf im (cycleNo s))

/-- Port `p` faces the reference end. -/
def isUpstream (p : Nat) (s : State) : Bool := upDir s == some (dirOfPort p)

/-- R175: how long after its slot time, in ticks, an entry's frame is expected on port `p`. -/
def slotOffset (im : Image) (p : Nat) (s : State) : Int :=
  let d := (lineState s (lineOfPort p)).delta
  if isUpstream p s then (d * 4096 : Nat) else (nsT im.spanNs : Int) - ((d + rho s) * 4096 : Nat)

/-- The frame at pin time `t` lies in the window of entry `e` in the cycle of that time (R184). -/
def inWindow (im : Image) (p : Nat) (t : Int) (e : Entry) (s : State) : Bool :=
  let late := t - ((lastInstant s : Int) + nsT e.start + slotOffset im p s)
  2 * late.natAbs ≤ nsT im.guardNs

/-- The frame starts in the slot region of port `p` (R158). -/
def inSlotRegion (im : Image) (p : Nat) (t : Int) (s : State) : Bool :=
  let x := t - (lastInstant s : Int) - slotOffset im p s
  (nsT im.slotBegin : Int) ≤ x && x < nsT im.mgmtBegin

/-- The polled entry in whose window a frame lies. -/
def windowEntry (im : Image) (p : Nat) (t : Int) (s : State) : Option Nat :=
  (polledEntries s).find? (fun n => match entryAt im n with | some e => inWindow im p t e s | none => false)

/-- R185: a frame that starts on port `p` at pin time `t` starts in the slot region and in the window of no polled entry. -/
def straysAt (p : Nat) (t : Int) (s : State) : Bool :=
  match s.sched.running with
  | none => false
  | some im => !inBackbone s && pathOk (lineState s (lineOfPort p)) s && inSlotRegion im p t s && (windowEntry im p t s).isNone

/-- What comes in on port `p` now strays (R185). A frame whose command carries no receive time is judged by the moment of the
command (DESIGN CHOICE, log 36). -/
def straysNow (p : Nat) (s : State) : Bool := straysAt p s.now s

/-- A frame that starts at pin time `t` starts in the slot region in the window of a polled entry: a scheduled frame. -/
def scheduledAt (p : Nat) (t : Int) (s : State) : Bool :=
  match s.sched.running with
  | none => false
  | some im => pathOk (lineState s (lineOfPort p)) s && inSlotRegion im p t s && (windowEntry im p t s).isSome

/-- R174: the train time at which the timestamp point of entry `e`'s frame leaves port `p`. -/
def sendTime (im : Image) (e : Entry) (p : Nat) (s : State) : Int :=
  let d := (lineState s (lineOfPort p)).delta
  let off : Int := if isUpstream p s then (nsT im.spanNs : Int) - (d * 4096 : Nat) else ((d + rho s) * 4096 : Nat)
  (lastInstant s : Int) + nsT e.start + off

/-- The time a frame of entry `e` takes on port `p`, in ticks. -/
def entryTicks (p : Nat) (e : Entry) (s : State) : Nat := lineTicks (portOf s p) e.len

/-- R77, R160: of the moments from `w` ticks on, the first at which `dur` ticks on port `p` end G/2 before the next frame of
a polled entry, or the next opening frame, is due to leave that port: behind each that stands in the way. -/
def clearFrom (p dur w : Nat) (s : State) : Nat :=
  match s.sched.running with
  | none => w
  | some im =>
    let past (w : Nat) (at_ : Int) (n : Nat) : Nat :=
      let free := at_ + n - s.now
      if free ≤ w || (w : Int) + dur + guardT s / 2 ≤ at_ - s.now then w else free.toNat
    let w1 := (polledEntries s).foldl (fun w n => match entryAt im n with
      | some e => if e.lines.getLsbD (p % 2) then past w (sendTime im e p s) (entryTicks p e s) else w
      | none => w) w
    past w1 (nextInstant s) (lineTicks (portOf s p) 208)

/-- R160: a transmission of `dur` ticks that starts now on port `p` ends at least G/2 before the next frame of a polled
entry, or the next opening frame, is due to leave that port. -/
def scheduleClear (p dur : Nat) (s : State) : Bool :=
  match s.sched.running with
  | none => true
  | some im =>
    let ends : Int := (s.now : Int) + dur + guardT s / 2
    ends ≤ nextInstant s && (polledEntries s).all (fun n => match entryAt im n with
      | some e => !(e.lines.getLsbD (p % 2)) || sendTime im e p s < s.now || decide (ends ≤ sendTime im e p s)
      | none => true)

end Sys2Proof.Machine
end

