-- ==== Sys2Proof/Machine/Egress.lean ====
section
/-! DEFINITION. What leaves a trunk port (R37, R45, R46, R206–R213): frames in transit and the transit store, the queues of
the node's own non-scheduled frames with their regions and credits, and the SecTAG (R298). -/

namespace Sys2Proof.Machine

/-! ## Frames in transit (R37, R45, R208) -/

/-- R45: both ports of a line run one mode, and a frame between them goes cut-through. -/
def cutsThrough (p : Nat) (s : State) : Bool :=
  let m := (portOf s p).mode
  m == (portOf s (acrossPort p)).mode && (match m with | .ndoelle => true | .t1000 => true | .t100 => true | _ => false)

/-- Bytes of a frame that waits. -/
def transitLen (x : TransitItem) : Nat := match x with | .raw f => f.len | .out _ n => n

/-- Port `p` is busy from now for a frame of `n` bytes. -/
def portBusy (p n : Nat) (s : State) : State :=
  modPort p (fun t => { t with busyTill := max t.busyTill (s.clk + lineTicks t n) }) s

/-- A frame passes on from port `q`, counted under FWD_FRAMES on its ingress port (R87). -/
def transitEmit (q : Nat) (x : TransitItem) (s : State) : State :=
  emit (match x with | .raw f => .transit (Fin.ofNat 4 q) f | .out f _ => .forwarded (Fin.ofNat 4 q) f)
    (portBusy q (transitLen x) (portCount (acrossPort q) 9 s))

/-- R208: a frame in transit leaves port `q`, behind those that wait there and behind the frame in progress. What no longer
fits the 4 KiB is lost, and is no forwarded frame (DESIGN CHOICE, log 36). -/
def transitOut (q : Nat) (x : TransitItem) (s : State) : State :=
  let t := portOf s q
  if s.clk < t.busyTill || !t.fifo.isEmpty then
    (if (t.fifo.map transitLen).sum + transitLen x ≤ 4096 then modPort q (fun t => { t with fifo := t.fifo ++ [x] }) s else s)
  else transitEmit q x s

/-- R37, R47: a frame that the node reads goes on from port `p` to the other direction of its line. -/
def passesOn (p : Nat) (f : OutFrame) (s : State) : Bool :=
  forwards s p && (!(isInaugFrame f) || carriesPadait (acrossPort p) s)

/-- A frame of `len` bytes goes on without waiting (R37, R43, R176): an opening frame, or one of a polled entry. -/
def forwardAtOnce (p : Nat) (f : OutFrame) (len : Nat) (s : State) : State :=
  if passesOn p f s then transitEmit (acrossPort p) (.out f len) s else s

/-- A non-scheduled frame of `len` bytes forwarded to the other direction of its line (R37, R43, R47, R208). -/
def forwardLen (p : Nat) (f : OutFrame) (len : Nat) (s : State) : State :=
  if passesOn p f s then transitOut (acrossPort p) (.out f len) s else s

/-- An inauguration frame so forwarded. -/
def forwardFrame (p : Nat) (f : OutFrame) (s : State) : State := forwardLen p f (inaugLen f) s

/-! ## Regions and credits (R206, R207, R210, R211) -/

/-- A directory frame of the generation in force. -/
def isForceDir (f : OutFrame) : Bool := match f with | .dir d => !d.prepared && !d.isForeign | _ => false

/-- An inauguration frame the first node originates. -/
def isMasterFrame (f : OutFrame) : Bool :=
  match f with | .dir _ => true | .breakF _ => true | .leadSet _ => true | _ => false

/-- δ by which line `l`'s management frames wait, in ticks (R207). -/
def mgmtDelta (im : Image) (l : Line) (s : State) : Nat :=
  let me := lineState s l
  let other := lineState s (match l with | .a => .b | .b => .a)
  if pathOk me s then me.delta * 4096 else if pathOk other s then other.delta * 4096 else nsT im.spanNs

/-- A frame of queue `q` may start on port `p` at this point of the cycle (R206, R207, R211). -/
def regionAllows (im : Image) (p q : Nat) (f : QFrame) (s : State) : Bool :=
  let t := s.now - lastInstant s
  let ends := t + lineTicks (portOf s p) f.len ≤ nsT im.sporEnd
  let master := (isFirst s || inProvLead s) && isMasterFrame f.frame && !(isForceDir f.frame && s.ina.prep.isSome)
  let from_ :=
    if q = 0 then
      if master then nsT im.mgmtBegin + mgmtDelta im (lineOfPort p) s
      else nsT (im.mgmtBegin + 7200) + mgmtDelta im (lineOfPort p) s
    else nsT (im.mgmtBegin + im.mgmtLen) + mgmtDelta im (lineOfPort p) s
  from_ ≤ t && ends

/-- R210: the frame's class still has credit for it, 0 meaning no limit. Credit that is left but does not reach the frame's
end counts as spent (DESIGN CHOICE, log 36). -/
def creditAllows (im : Image) (p q : Nat) (f : QFrame) (s : State) : Bool :=
  let t := portOf s p
  if q = 0 then im.mgmtCredit = 0 || t.mgmtUsed + f.len ≤ im.mgmtCredit
  else im.sporCredit = 0 || t.sporUsed + f.len ≤ im.sporCredit

/-- R210: each frame of queue `q` of port `p`, deferred for want of credit, counts once. -/
def creditDefer (p q : Nat) (s : State) : State :=
  let fresh := ((portOf s p).queues.getD q []).filter (fun f => !f.deferred)
  forEach fresh (fun _ s => schedCount 14 s)
    (modPort p (fun t => { t with queues := updAt t.queues q (fun l => l.map (fun f => { f with deferred := true })) }) s)

/-! ## What a frame gets as it leaves (R229, R280, R298) -/

/-- R162: a node's trunk MAC address. -/
def trunkMac (uid : BitVec 64) : BitVec 48 := BitVec.ofNat 48 (2 * 2 ^ 40 + uid.toNat % 2 ^ 40)

/-- REF_UID of the group. -/
def groupRef (s : State) : BitVec 64 := match s.ina.dir with | some d => d.refUid | none => 0

/-- R299: the secure association key of this moment. -/
def sakNow (s : State) : List Nat := flowSak (s.flow.key.getD []) (groupRef s) s.flow.keyGen s.flow.epoch

/-- R298: a flow frame as this node sends it protected on a line; the line's packet number advances. -/
def protect (lineB : Bool) (f : FlowFrame) (s : State) : FlowFrame × State :=
  let k := b2n lineB
  let t : SecTag := {
    sci := BitVec.ofNat 64 ((trunkMac s.sys.uid).toNat * 65536 + k + 1)
    an := BitVec.ofNat 2 (s.flow.keyGen.toNat + s.flow.epoch.toNat), pn := s.flow.txPn.getD k 1, icv := 0 }
  ({ f with sec := some { t with icv := flowIcv (sakNow s) s.trunk.etherType f t } },
   modFlow (fun w => { w with txPn := updAt w.txPn k (· + 1) }) s)

/-- R280, R313: a frame with the last SEQ of context `i` has left; `first` is its send's first frame on a line, which SENT
counts. -/
def flowLeft (i : Nat) (first : Bool) (s : State) : State :=
  modFlow (fun w => { w with run := match tblGet w.run i with
    | some r => tblSet w.run i { r with seqUsed := true, ctr := if first then ctrInc r.ctr 0 else r.ctr }
    | none => w.run }) s

/-- The frame of context `i` that waits at the other port of the line is of the same send. -/
def countedAcross (p i : Nat) (s : State) : State :=
  modPort (acrossPort p) (fun t => { t with
    queues := t.queues.map (fun q => q.map (fun f => if f.ctx = some i then { f with counted := true } else f)) }) s

/-- R279: what a flow frame carries of the node at the moment it is sent. -/
def flowStamp (i : Nat) (f : FlowFrame) (s : State) : FlowFrame :=
  { f with gen := s.ina.gen, srcAddr := s.ina.addr,
           claim := match tblGet s.flow.ctx i with | some c => ownClaim c.svc.toNat s | none => f.claim }

/-- A queued frame as it leaves port `p`: a Sync of the trunk time domain with the domain's time at that moment (R229), a
flow frame with the node's claim of that moment and, protected, its packet number (R288, R298). -/
def departing (p : Nat) (f : QFrame) (s : State) : OutFrame × State :=
  match f.frame with
  | .domainSync d x => (.domainSync d (pinTx (portOf s p) s.now + x), s)
  | .flow g => match f.ctx with
    | none => (f.frame, s)
    | some i =>
      let s1 := countedAcross p i (flowLeft i (!f.counted) s)
      let h := flowStamp i g s1
      if g.sec.isSome then let y := protect (p % 2 == 1) h s1; (.flow y.1, y.2) else (.flow h, s1)
  | _ => (f.frame, s)

/-- A frame of class `q` starts on port `p`: the port is busy, and its credit is used. -/
def startFrame (p q : Nat) (f : QFrame) (s : State) : State :=
  let x := departing p f s
  trunkOut p x.1 none (portBusy p f.len (modPort p (fun t => { t with
    mgmtUsed := if q = 0 then t.mgmtUsed + f.len else t.mgmtUsed,
    sporUsed := if q = 0 then t.sporUsed else t.sporUsed + f.len }) x.2))

/-- The head of queue `q` starts on port `p`. -/
def startQueued (p q : Nat) (f : QFrame) (s : State) : State :=
  startFrame p q f (modPort p (fun t => { t with queues := updAt t.queues q (fun l => l.drop 1) }) s)

/-! ## The queues of a port (R208, R209) -/

/-- R92: a frame that may leave on a boundary port. -/
def mayCross (f : OutFrame) : Bool := match f with | .dir d => d.isForeign | _ => false

/-- R92: what waits at a port that has become a boundary and may not cross it is dropped. -/
def boundaryQueues (p : Nat) (s : State) : State :=
  if isBoundary s p then
    modPort p (fun t => { t with queues := t.queues.map (fun q => q.filter (fun f => mayCross f.frame)) }) s
  else s

/-- A frame of class `q` may start on port `p` now, as the regions and its credit go. -/
def mayStart (p q : Nat) (f : QFrame) (s : State) : Bool :=
  match s.sched.running with
  | none => true
  | some im => regionAllows im p q f s && creditAllows im p q f s

/-- R210: the class of queue `q` has no credit left for its head: its frames wait, those of the sporadic class in every
queue from `q` on. -/
def classDefers (p q : Nat) (qs : List Nat) (s : State) : State :=
  if q = 0 then creditDefer p 0 s else forEach (q :: qs) (creditDefer p) s

/-- The next frame of the queues from `q` on, in strict priority (R209). -/
def nextQueued (p : Nat) : List Nat → State → State
  | [], s => s
  | q :: qs, s =>
    match ((portOf s p).queues.getD q []).head? with
    | none => nextQueued p qs s
    | some f => match s.sched.running with
        | none => startQueued p q f s
        | some im =>
          if !(regionAllows im p q f s) then nextQueued p qs s
          else if creditAllows im p q f s then startQueued p q f s
          else if q = 0 then nextQueued p qs (classDefers p q qs s)
          else classDefers p q qs s

/-- R130: a port in Qualify carries its own group's directory across the new link. -/
def portCarries (s : State) (p : Nat) : Bool :=
  match (portOf s p).st with | .up => true | .qualify => true | _ => false

/-- R208: with the port idle, a waiting transit frame first, then a frame of the node's own. -/
def nonScheduled (p : Nat) (transitBusy : Bool) (s : State) : State :=
  let t := portOf s p
  if !(portCarries s p) || onWtb s p || transitBusy || s.clk < t.busyTill then s
  else match t.fifo with
    | f :: fs => transitEmit p f (modPort p (fun t => { t with fifo := fs }) s)
    | [] => nextQueued p [0, 1, 2, 3] (boundaryQueues p s)

/-- An urgent frame goes before all that waits in the management queue of port `p` (R209), or is dropped and counted where it
would overfill the 64 KiB. -/
def enqueueFirst (p : Nat) (f : QFrame) (s : State) : State :=
  let old := (portOf s p).queues.getD 0 []
  let new := old.filter (fun g => g.urgent) ++ f :: old.filter (fun g => !g.urgent)
  if !(mayQueue p f.frame s) then s
  else if 65536 < (new.map (fun g => g.len)).sum then schedCount 13 s
  else modPort p (fun t => { t with queues := updAt t.queues 0 (fun _ => new) }) s

/-- R116: a BREAK leaves port `p` at once where it may: with the port idle, in a region of the cycle that management frames
of this node have and within their credit (R158, R159, R206–R208, R210, R211); otherwise before all other frames in the
first idle time that is such (DESIGN CHOICE, log 36). -/
def sendUrgent (p : Nat) (f : OutFrame) (s : State) : State :=
  let t := portOf s p
  let q : QFrame := { frame := f, len := inaugLen f, deferred := false, ctx := none, urgent := true }
  if mayQueue p f s && t.fifo.isEmpty && t.busyTill ≤ s.clk && mayStart p 0 q s then startFrame p 0 q s
  else enqueueFirst p q s

end Sys2Proof.Machine
end

