-- ==== Sys2Proof/Machine/TwinCore.lean ====
section
/-! DEFINITION. Twins: the role and its event (R319, R355), leaving Joined (R320), the partner's record at a generation
switch (R317), and what is learnt of the partner's claim (R322, R323). -/

namespace Sys2Proof.Machine

/-- The twin part of the state changed. -/
def modTwin (f : Twin → Twin) (s : State) : State := { s with twin := f s.twin }

/-- A counter of the twin status record counts (R354): 0 TAKEOVERS, 1 STEP_DOWNS, 2 TW_SILENT, 3 TRUNK_SILENT,
4 RACK_DISCARD, 5 RACK_BEHIND, 6 COW_STALL, 7 FOREIGN. -/
def twinCount (i : Nat) (s : State) : State := modTwin (fun t => { t with ctr := ctrInc t.ctr i }) s

/-- The node's role is Active. -/
def isActive (s : State) : Bool := match s.twin.role with | .active => true | _ => false

/-- The node is in Standby or Returning. -/
def isWaiting (s : State) : Bool := match s.twin.role with | .standby => true | .returning => true | _ => false

/-- Role in the partner's latest heartbeat, 0x7 without one (R354). -/
def partnerRole (s : State) : Nat := match s.twin.hb with | some h => h.role.toNat | none => 7

/-- What a node forgets that leaves the Active role: generations it was sending, the planned switchover. -/
def leaveActive (t : Twin) : Twin := { t with
  flowOut := none, regionOut := none, fullOut := none, fullDone := false, switching := none, switchSnap := false,
  behind := false, pool := 0, canStop := false, foreignStop := false, higher := false, echoed := false, echoK := 0 }

/-- What a node starts without that enters Returning: no generation has been applied (R347, R350). -/
def enterReturning (t : Twin) : Twin := { t with
  inFlow := none, inRegion := none, inFull := none, applied := none, staging := none, appliedRegion := none,
  fullApplied := false, flowAfterFull := false, flowRgen := 0, flowCycle := 0, regionRgen := 0, regionCycle := 0 }

/-- What a node that becomes Active begins with: R336's wait, R338's guard, and the partner's return if it shows one. -/
def enterActive (t : Twin) : Twin := { t with
  fresh := 0, frameSince := false, canStop := false, foreignStop := false, higher := false, echoed := false, echoK := 0,
  switching := none, switchSnap := false, flowOut := none, regionOut := none, fullOut := none, fullDone := false,
  hbReturning := (t.hb.map (fun h => h.role == 1)).getD false, dirty := [], pool := 0, behind := false }

/-- The role changes, with TWIN_ROLE (R355). -/
def setRole (new : Role) (cause : Nat) (s : State) : State :=
  if new = s.twin.role then s
  else
    let old := s.twin.role
    let fix (t : Twin) : Twin := match new with
      | .active => enterActive t
      | .returning => enterReturning (leaveActive t)
      | _ => leaveActive t
    raise 0x0601 (leBytes 1 (roleCode old) ++ leBytes 1 (roleCode new) ++ leBytes 1 cause)
      (modTwin (fun t => { fix t with role := new }) s)

/-- R326: the claim generation raised to SEEN_GEN + 1; CLAIM_GEN_LIMIT once on reaching 0xFFFF (R18, R19). -/
def raiseClaim (s : State) : State :=
  let g := min 0xFFFF (s.twin.seen.toNat + 1)
  let s1 := modTwin (fun t => { t with own := BitVec.ofNat 16 g, seen := BitVec.ofNat 16 g }) s
  if g = 0xFFFF && !s.twin.limitRaised then raise 0x0604 [] (modTwin (fun t => { t with limitRaised := true }) s1) else s1

/-- R317: the partner's record cleared. -/
def forgetPartner (t : Twin) : Twin := { t with
  partner := none, hb := none, hbActive := false, hbOut := false, hbReturning := false, partnerClaim := 0,
  partnerPref := false, higher := false }

/-- R320: the node leaves Joined, and enters Out of service at once. A planned switchover ends; an Out of service that
was to follow it needs it no more. Timed outputs behind a claim gate go inactive (R39, R257). -/
def twinLeave (s : State) : State :=
  if !s.twin.configured then s
  else
    let s1 := finishQueued (fun q => q.opcode == 0x0603) 0x010B (modTwin (fun t => { forgetPartner t with
      outAt := if t.outAfter then some 6 else t.outAt, outAfter := false, recAgain := false, silent := 0, joinedCycles := 0 }) s)
    forEach (List.range 6) tioGateAtInstant (setRole .out 7 s1)

/-- R317 at a generation switch: a recorded node that the directory in force no longer numbers is forgotten. What the closed
cycle showed of it still counts at this instant (R339). -/
def partnerAtSwitch (new : Directory) (s : State) : State :=
  match s.twin.partner with
  | some u =>
    if uidNumbered new u then s
    else modTwin (fun t => { forgetPartner t with
      recAgain := true, hbActive := t.hbActive, hbOut := t.hbOut, higher := t.higher }) s
  | none => s

/-- The low 28 bits of a claim, by which claims of one class compare (R322). -/
def claimLow (gen : BitVec 16) (pref : Bool) (addr : BitVec 10) : Nat := (claimNumber 0 gen.toNat pref addr.toNat).toNat

/-- R323, R337: what is learnt of the partner's claim; a higher one than an Active node's own is kept for the instant. -/
def learnClaim (gen : BitVec 16) (pref : Bool) (addr : BitVec 10) (s : State) : State :=
  let higher := isActive s && claimLow s.twin.own s.twin.preferred s.ina.addr < claimLow gen pref addr
  modTwin (fun t => { t with partnerClaim := gen, partnerPref := pref, higher := t.higher || higher,
                             seen := if t.seen.toNat < gen.toNat then gen else t.seen }) s

/-- R323: the claim of a flow frame from the partner's address that passed the checks named there; R338's guard ends. -/
def learnFromFlow (f : FlowFrame) (verified : Bool) (s : State) : State :=
  if s.twin.configured && s.ina.addr ≠ 0 && f.srcAddr == twinAddr s && f.gen == s.ina.gen && (f.sec.isNone || verified) then
    modTwin (fun t => { t with frameSince := true })
      (learnClaim (BitVec.ofNat 16 (bitsOf f.claim.toNat 12 16)) (f.claim.getLsbD 11) f.srcAddr s)
  else s

end Sys2Proof.Machine
end

