-- ==== Sys2Proof/Machine/SessionCore.lean ====
section
/-! DEFINITION. Message data sessions: their frames, and how they close (R303–R305). -/

namespace Sys2Proof.Machine

/-- The session `sid` opened by `opener`. -/
def isSession (sid : BitVec 16) (opener : BitVec 64) (x : Session) : Bool := x.sid == sid && x.opener == opener

/-- Sessions that `p` names changed. -/
def modSession (p : Session → Bool) (f : Session → Session) (s : State) : State :=
  modFlow (fun w => { w with sessions := w.sessions.map (fun x => if p x then f x else x) }) s

/-- R305: where the frames of a session go: to its address, or to wherever its vehicle and slot, or the node that opened
it, stand in the directory in force. -/
def sessionPeer (x : Session) (s : State) : BitVec 10 :=
  let now (uid : BitVec 64) (vid : BitVec 48) (slot : Option Nat) : BitVec 10 :=
    match s.ina.dir with
    | some d => let a := addrIn d uid vid slot; if a = 0 then x.addr else a
    | none => x.addr
  if x.opener ≠ s.sys.uid then now x.peerUid 0 none
  else if x.byIdentity then now 0 x.vid (some x.slot.toNat)
  else x.addr

/-- A frame of a session: its header fields and payload (R304). -/
def sessionFrame (x : Session) (kind cause : Nat) (msg : BitVec 4) (seg len : Nat) (data : List Byte) (s : State) :
    SessionFrame where
  sid := x.sid
  kind := BitVec.ofNat 8 kind
  cause := BitVec.ofNat 8 cause
  openerUid := x.opener
  msg := msg
  seg := BitVec.ofNat 12 seg
  msgLen := BitVec.ofNat 16 len
  payload := data
  srcAddr := s.ina.addr
  dst := sessionPeer x s

/-- The length of a session frame on the line. -/
def sessionLen (f : SessionFrame) : Nat := max 64 (18 + (sessionFrameBytes f).length)

/-- A session frame queued at sporadic-medium priority. -/
def queueSession (f : SessionFrame) (s : State) : State :=
  let q : QFrame := { frame := .session f, len := sessionLen f, deferred := false, ctx := none, urgent := false }
  forEach (trainPorts s) (fun p s => trunkEnqueue p 2 q s) s

/-- A session frame of this node on its way: to the trunk, from an attached node over the fabric (R519). -/
def sendSession (f : SessionFrame) (s : State) : State :=
  if s.fab.attached then fabOriginate 0x10 3 (.session f) s else queueSession f s

/-- A session closes with a CLOSE frame. -/
def closeSession (x : Session) (cause : Nat) (s : State) : State :=
  let s1 := modFlow (fun w => { w with sessions := w.sessions.filter (fun y => !(isSession x.sid x.opener y)) }) s
  sendSession (sessionFrame x 4 cause 0 0 0 [] s1) s1

/-- SESSION_CLOSED (R314). -/
def sessionClosed (x : Session) (cause : Nat) (s : State) : State :=
  raise 0x0510 (leBytes 2 x.sid.toNat ++ leBytes 1 cause) s

/-- The unique identifier of the trunk node at an address of a directory, 0 for none. -/
def uidHeld (d : Option Directory) (a : BitVec 10) : BitVec 64 := (d.bind (fun d => uidAt d a)).getD 0

/-- R305: sessions opened by an address that a switch, from the directory before, gives to a different node or to none are
closed. -/
def renumberSessions (map : List Byte) (new : Directory) (s : State) : State :=
  let moved (a : BitVec 10) : Bool := mapAddr map new a ≠ a || uidHeld s.ina.prevDir a ≠ uidHeld (some new) a
  let lost := s.flow.sessions.filter (fun x => x.opener == s.sys.uid && !x.byIdentity && moved x.addr)
  forEach lost (fun x s => sessionClosed x 2 (closeSession x 2 s)) s

end Sys2Proof.Machine
end

