-- ==== Sys2Proof/Machine/Inaug.lean ====
section
/-! DEFINITION. Inauguration (R90–R157): joining, breaks and removals, additions and merges, and the switch of
generation. What happens at the instants is composed in Instant.lean. -/

namespace Sys2Proof.Machine

/-! ## Steep and the other states (R123) -/

/-- SCHEDULE_MISMATCH for a port. -/
def mismatchEvent (p : Nat) (s : State) : State :=
  raise 0x0202 (leBytes 1 p ++ leBytes 8 (portOf s p).partnerUid.toNat) s

/-- R127, R716: the mismatch is raised once on each entry to steep. -/
def mismatchOnce (p : Nat) (s : State) : State :=
  let s1 := modIna (fun n => { n with mismatch := true }) s
  if s.ina.mismatchRaised then s1 else mismatchEvent p (modIna (fun n => { n with mismatchRaised := true }) s1)

/-- The node leaves Held or Joined with what belonged to it. -/
def clearNumbering (n : Ina) : Ina := { n with
  addr := 0, prep := none, proofs := 0, sinceJoin := 0, mismatchRaised := false, mismatch := false, removals := [],
  brkSent := [], removalFlag := false, provQuiet := 0, leadNext := false, heldTt := false }

/-- R123: what the queues of a trunk port keep on entry to Steep. -/
def steepQueues (t : Port) : Port := { t with queues := t.queues.map (fun q => q.filter (fun f => steepSends f.frame)) }

/-- The node enters Steep (R123, R124, R127, R56, R714). -/
def enterSteep (s : State) : State :=
  let first := isFirst s || inProvLead s
  let s1 := modIna (fun n => { clearNumbering n with st := .steep, ctr := ctrInc n.ctr 2, joiners := [], additions := [], quietClk := some s.clk }) s
  let s2 := if first then leaveMaster s1 else s1
  let s3 := trunkEnterSteep (twinLeave (forEach (List.range 4) (fun p s => modPort p steepQueues s) s2))
  match s3.sched.running with
  | some _ => s3
  | none => mismatchOnce ((upPorts s3).headD 0) s3

/-- A phase sample with R234's return to steep. -/
def phaseSample (theta : Int) (source : BitVec 2) (hops : Nat) (s : State) : State :=
  takeSample enterSteep theta source hops s

/-! ## The leading-vehicle command (R106) -/

/-- A directory in force settles the stored command: DONE when it carries it, CANCELLED when a later one came first. -/
def settleLeading (s : State) : State :=
  match s.ina.leading, s.ina.dir with
  | some v, some d =>
    if d.leadVid = v then finishQueued (fun q => q.opcode == 0x0204) 0 (modIna (fun n => { n with leading := none }) s)
    else if d.leadVid ≠ s.ina.leadIssued then
      finishQueued (fun q => q.opcode == 0x0204) 0x010B (modIna (fun n => { n with leading := none }) s)
    else s
  | _, _ => s

/-- R106: every 8 macrocycles a joined node with a stored command sends LEAD_SET; at the first node it is taken as one
received then. -/
def sendLeading (s : State) : State :=
  match s.ina.leading with
  | none => s
  | some v =>
    if !joined s then s
    else if s.ina.sinceLead = 0 then
      modIna (fun n => { n with sinceLead := 7 })
        (if isFirst s then modIna (fun n => { n with leadNew := some v }) s else inaugSend (trainPorts s) (.leadSet v) s)
    else modIna (fun n => { n with sinceLead := n.sinceLead - 1 }) s

/-! ## Conflicts (R99) -/

/-- TOPO_CONFLICT. -/
def conflictEvent (cause : Byte) (uid : BitVec 64) (s : State) : State :=
  raise 0x0204 ([cause] ++ leBytes 8 uid.toNat) s

/-- R99: of the vehicle `v`, which a directory numbers with this node's identity, this node's own run is the farther one: its
neighbours stand behind that vehicle in the walk. A neighbour the directory does not number tells nothing (DESIGN CHOICE,
log 36). -/
def runIsFarther (d : Directory) (v : VehRec) (s : State) : Bool :=
  let place (u : BitVec 64) : Option Nat := (walkOf d).findIdx? (fun w => w.uid == u)
  let mine := ((List.range 4).filter (fun p => linkHeld (portOf s p))).filterMap (fun p => place (portOf s p).partnerUid)
  match (walkOf d).findIdx? (fun w => w.vid == v.vid) with
  | some j => mine.all (fun i => decide (j < i))
  | none => false

/-- R99: the cause for which a directory in force leaves this node out, once it has sent a JOIN. -/
def ownConflict (d : Directory) (s : State) : Option Byte :=
  if s.ina.vid = 0 || s.ina.proofs = 0 || s.fab.attached then none
  else match d.vehicles.find? (fun v => v.vid == s.ina.vid && !isLegacy v) with
    | some v =>
      let other := if s.ina.twinB then v.uidB else v.uidA
      let near := (List.range 4).any (fun p => linkHeld (portOf s p) &&
        ((portOf s p).partnerUid == v.uidA || (portOf s p).partnerUid == v.uidB))
      if near then (if other ≠ 0 && other.toNat < s.sys.uid.toNat then some 2 else none)
      else if runIsFarther d v s then some 1 else none
    | none => if d.vehicles.length = 64 then some 3 else none

/-- R99: the nodes of this group that a directory from another node leaves without a number, with the cause: of a vehicle
that it numbers with others of their own run the second, of any other that it numbers the first. -/
def leftOut (d : Directory) (s : State) : List (Byte × BitVec 64) :=
  (runs s.ina.members).flatMap (fun r =>
    let known := d.vehicles.any (fun v => v.vid == runVid r && !isLegacy v)
    let cause : Byte := if known then (if r.any (fun w => uidNumbered d w.uid) then 2 else 1) else 3
    if known || d.vehicles.length = 64 then
      (r.filter (fun w => !(uidNumbered d w.uid))).map (fun w => (cause, w.uid))
    else [])

/-- R99: an unnumbered node raises its own case once per cause until it has been numbered in between. -/
def noteConflict (s : State) : State :=
  match s.ina.dir with
  | none => s
  | some d =>
    if addrIn d s.sys.uid s.ina.vid (ownSlot s) ≠ 0 then modIna (fun n => { n with conflict := none }) s
    else match ownConflict d s with
      | some c =>
        if s.ina.conflict = some c then s
        else conflictEvent c s.sys.uid (modIna (fun n => { n with conflict := some c }) s)
      | none => s

/-- R99: the first node raises each case once, at the switch that puts the directory in force. -/
def reportConflicts (conf : List (Byte × BitVec 64)) (s : State) : State :=
  let fresh := conf.filter (fun c => !(s.ina.conflicts.contains c))
  let s1 := modIna (fun n => { n with conflicts := conf }) s
  if isFirst s then forEach fresh (fun c s => if c.2 = s.sys.uid then s else conflictEvent c.1 c.2 s) s1 else s1

/-! ## The switch of generation (R110–R115, R143) -/

/-- The newer of two generations, by R17; 0 stands for none seen (R138). -/
def newerGen (a b : BitVec 16) : BitVec 16 := if b = 0 then a else if a = 0 || wrapNewer b a then b else a

/-- Distance in hops from the first node (R235). -/
def hopsFromFirst (d : Directory) (s : State) : Nat :=
  match ownIndex s, (walkOf d).findIdx? (fun w => w.uid == d.refUid) with
  | some i, some j => max i j - min i j
  | _, _ => 0

/-- R115: stored claims follow their nodes' addresses. -/
def mapClaim (map : List Byte) (new : Directory) (c : BitVec 32) : Option (BitVec 32) :=
  let a := mapAddr map new (BitVec.ofNat 10 (c.toNat / 2))
  if a = 0 then none else some (BitVec.ofNat 32 (c.toNat - c.toNat / 2 % 1024 * 2 + a.toNat * 2))

/-- What a change of first node brings: Master, or Acquire (R239, R232), and R205. -/
def firstChange (was : Bool) (s : State) : State :=
  if isFirst s && !was then
    let s1 := becomeMaster s
    if s.sched.heldFlag then
      raise 0x0305 (leBytes 2 s.ina.gen.toNat) (modSched (fun d => { d with release := none }) s1)
    else s1
  else if !isFirst s && was then leaveMaster s
  else s

/-- The state a numbered or unnumbered node has after a switch. -/
def switchState (addr : BitVec 10) (s : State) : State :=
  if addr = 0 then (if joined s || inProvMember s || inProvLead s then enterSteep s else s)
  else if joined s then s
  else modIna (fun n => { n with st := if s.sched.heldFlag then .held else .joined, proofs := 0 }) s

/-- R217: SCHED_HELD of a node that is numbered while the backbone is held. -/
def heldOnJoin (was s : State) : State :=
  if !joined was && (match s.ina.st with | .held => true | _ => false) then raise 0x0303 (leBytes 2 s.ina.gen.toNat) s else s

/-- TOPO_CHANGE (R155). -/
def topoChange (oldGen newGen : BitVec 16) (oldAddr newAddr : BitVec 10) (removal step : Bool) (s : State) : State :=
  raise 0x0201 (leBytes 2 oldGen.toNat ++ leBytes 2 newGen.toNat ++ leBytes 2 oldAddr.toNat ++ leBytes 2 newAddr.toNat ++
    leBytes 1 (b2n removal + 2 * b2n step)) s

/-- R128, R716: the two groups' schedule hashes and macrocycles agree; the hash of no image matches none. -/
def sameSchedule (b : Beacon) (s : State) : Bool :=
  s.sched.running.isSome && b.hash == ownHash s && b.cycleUs.toNat == cycleUs s

/-- R130: the own directory is to go again across a new link whose partner may merge. -/
def sendDirAgain (s : State) : State :=
  forEach (List.range 4) (fun p s => modPort p (fun t => { t with
    dirSent := t.dirSent && !((t.partner.map (fun b => sameSchedule b s)).getD false) }) s) s

/-- The trunk nodes whose JOIN a directory has left without a number (R97, R99), the latest of each. -/
def unnumberedJoins (new : Directory) (js : List JoinBody) : List JoinBody :=
  (js.filter (fun j => !j.fabric && !(uidNumbered new j.uid))).foldl
    (fun l j => l.filter (fun x => x.uid ≠ j.uid) ++ [j]) []

/-- R510: the reports that a generation has taken into its records. -/
def reportTaken (new : Directory) (r : FabricReport) : Bool :=
  new.vehicles.any (fun v => v.vid == r.vid && !isLegacy v && bitsOf v.slots.toNat 2 14 == bitsOf r.slots.toNat 2 14)

/-- A generation takes effect at the instant: directory, addresses, map, claims, state, time and events. -/
def performSwitch (new : Directory) (conf : List (Byte × BitVec 64)) (removal step : Bool) (s : State) : State :=
  let oldGen := s.ina.gen
  let oldAddr := s.ina.addr
  let was := isFirst s || inProvLead s
  let map := positionMap s.ina.dir new
  let addr := addrIn new s.sys.uid s.ina.vid (ownSlot s)
  let walk := walkOf new
  let taken := (s.ina.prep.map (fun p => p.joins)).getD []
  let s1 := modIna (fun n => { n with
    gen := new.gen, dir := some new, dirAge := 0, posMap := map, oldGen := oldGen, members := walk,
    newest := newerGen n.newest new.gen, prep := none, mergeWait := none, removalFlag := removal,
    brkSent := n.brkSent.filter (fun b => uidNumbered new b.lostUid), prevDir := n.dir, switchedAt := some s.clk,
    lastRemoval := if removal then some (cycleCount s) else n.lastRemoval, heardGens := [],
    extra := if removal then [] else unnumberedJoins new (n.extra ++ taken),
    additions := n.additions.filter (fun j => (removal || !(taken.contains j)) && !(uidNumbered new j.uid)),
    leadNew := if n.leadNew = some new.leadVid then none else n.leadNew, joiners := [],
    fabricKnown := n.fabricKnown.filter (fun k => !(n.fabricNew.any (fun r => r.vid == k.vid && reportTaken new r))) ++
      n.fabricNew.filter (reportTaken new),
    fabricNew := n.fabricNew.filter (fun r => !(reportTaken new r)),
    ctr := ctrInc n.ctr 0 }) s
  let s2 := { s1 with flow := { s1.flow with
    run := tblMap (fun _ r => { r with claim := r.claim.bind (mapClaim map new) }) s1.flow.run } }
  let s3 := modSched (fun d => { d with a := { d.a with spanRaised := false }, b := { d.b with spanRaised := false } }) s2
  let s4 := modIna (fun n => { n with addr := addr }) (switchState addr s3)
  let s5 := heldOnJoin s3 (topoChange oldGen new.gen oldAddr addr removal step s4)
  let s6 := modTime (fun t => { t with hops := hopsFromFirst new s5 }) (firstChange was s5)
  sendDirAgain (settleLeading (noteConflict (reportConflicts conf (partnerAtSwitch new (renumberSessions map new s6)))))

/-! ## Breaks and removals (R116–R121) -/

/-- Cycle count of a moment. -/
def cycleOf (t : Nat) (s : State) : Nat := t / macroT s

/-- The cycle count nearest `base` whose CYCLE is `k` (R28). -/
def cycleNear (base : Nat) (k : BitVec 32) : Nat := ((base : Int) + (k - BitVec.ofNat 32 base).toInt).toNat

/-- R117, R119: instants to pass before a removal known now takes effect. -/
def removalWait (tDown : Nat) (s : State) : Nat :=
  let due := (cycleOf tDown s + 2) * macroT s
  if s.now + usT 40 ≤ due then (due - lastInstant s) / macroT s
  else if s.now + usT 40 ≤ nextInstant s then 1 else 2

/-- R116, R119: the node that sent a BREAK, by its address in the generation that the BREAK names. -/
def reporterOf (b : BreakBody) (s : State) : Option (BitVec 64) :=
  let d := if b.gen = s.ina.gen then s.ina.dir else (s.ina.prevDir.filter (fun d => d.gen == b.gen)).or s.ina.dir
  d.bind (fun d => uidAt d b.addr)

/-- A BREAK acted on or sent: its removal is scheduled once, and it counts (R117). -/
def scheduleRemoval (b : BreakBody) (s : State) : State :=
  match reporterOf b s with
  | none => s
  | some u =>
    if s.ina.removals.any (fun r => r.brk.lostUid == b.lostUid && r.reporter == u) then s
    else inaCount 5 (modIna (fun n => { n with
      removals := n.removals ++ [{ brk := b, reporter := u, wait := removalWait b.tDown s }] }) s)

/-- R116: the direction is broken, and a joined node says so in the other direction. -/
def breakNow (d : Nat) (cause : Byte) (tDown : Nat) (lost : BitVec 64) (s : State) : State :=
  match s.ina.dir with
  | none => s
  | some dir =>
    let b : BreakBody := { addr := s.ina.addr, dir := Fin.ofNat 2 d, cause := cause, tDown := tDown, lostUid := lost, gen := s.ina.gen }
    if !joined s || inBackbone s || !(uidNumbered dir lost) ||
        s.ina.brkSent.any (fun x => x.lostUid == lost) then s
    else
      let s1 := forEach (groupPorts (1 - d) s) (fun p s => sendUrgent p (.breakF b) s) s
      scheduleRemoval b (modIna (fun n => { n with brkSent := n.brkSent ++ [b] }) s1)

/-- The node lost when direction `d` breaks: the partner of its ports that the directory in force numbers. -/
def lostPartner (d : Nat) (s : State) : BitVec 64 :=
  (((dirPorts d).map (fun p => (portOf s p).partnerUid)).find? (fun u =>
    (s.ina.dir.map (fun dir => uidNumbered dir u)).getD false)).getD 0

/-- R91: both ports of direction `d` are down. -/
def checkBroken (d : Nat) (s : State) : State :=
  if (dirPorts d).any (fun p => linkHeld (portOf s p)) then s
  else breakNow d 1 s.now (lostPartner d s) s

/-- A port left its link: its direction may be broken. -/
def portLost (p : Nat) (s : State) : State := checkBroken (dirOfPort p) s

/-- Where a removal cuts a walk: before its lost node, or behind it where the reporter stands farther on. -/
def cutAt (r : Removal) (l : List WalkNode) : Option Nat :=
  match l.findIdx? (fun w => w.uid == r.reporter), l.findIdx? (fun w => w.uid == r.brk.lostUid) with
  | some i, some j => some (if i < j then j else j + 1)
  | _, _ => none

/-- The nodes of a walk that removals which take effect together leave in the group of node `me` (R117, R119). -/
def keptWalk (me : BitVec 64) (rs : List Removal) (l : List WalkNode) : List WalkNode :=
  let i := (l.findIdx? (fun w => w.uid == me)).getD 0
  let cuts := rs.filterMap (fun r => cutAt r l)
  let lo := (cuts.filter (fun c => decide (c ≤ i))).foldl max 0
  let hi := (cuts.filter (fun c => decide (i < c))).foldl min l.length
  (l.take hi).drop lo

/-- The node addresses of the known islands at the far (or near) end of a walk, each in order away from the Padait
section (R148). -/
def islandAddrs (near : Bool) (walk : List WalkNode) (s : State) : List Byte :=
  (s.ina.islands.filter (fun i => !i.interior && (match walk.find? (fun w => w.uid == i.uid) with
    | some w => ((i.dir.val == 1) == w.dirToRef) == near
    | none => false))).flatMap (fun i => i.addrs)

/-- R148: the legacy addresses that a directory has of the other island, given those of the one known here: what stands
beside them, or where they stand nowhere the other of two blocks. -/
def otherIsland (mine : List Byte) (far : Bool) (kept : List Byte) : List Byte :=
  if kept.take mine.length == mine then kept.drop mine.length
  else if kept.drop (kept.length - mine.length) == mine then kept.take (kept.length - mine.length)
  else if far then (legacyBlocks kept).2
  else if (legacyBlocks kept).2.isEmpty then [] else (legacyBlocks kept).1

/-- R148: the legacy vehicles behind a walk: the island at the far end, then that at the near end; an island that is not
known here as the directory had it (DESIGN CHOICE, log 39). -/
def legacyOf (walk : List WalkNode) (kept : List Byte) (s : State) : List Byte :=
  let far := islandAddrs false walk s
  let near := islandAddrs true walk s
  if s.ina.islands.isEmpty then kept
  else if far.isEmpty && near.isEmpty then []
  else if near.isEmpty then far ++ otherIsland far true kept
  else if far.isEmpty then otherIsland near false kept ++ near
  else far ++ near

/-- The numbered node whose place in the walk is this node's own: itself, or without a number its neighbour. -/
def walkPlace (d : Directory) (s : State) : BitVec 64 :=
  if joined s then s.sys.uid
  else (((List.range 4).filter (fun p => linkHeld (portOf s p))).map (fun p => (portOf s p).partnerUid)).find?
    (uidNumbered d) |>.getD 0

/-- R117: the removals that are due take effect together, at every node that holds the directory. Legacy vehicles stay with
the group that keeps the far end, as every node must find the same (DESIGN CHOICE, log 39). -/
def performRemovals (due : List Removal) (s : State) : State :=
  match s.ina.dir with
  | none => s
  | some d =>
    let live := due.filter (fun r => uidNumbered d r.brk.lostUid)
    let me := walkPlace d s
    if live.isEmpty then s
    else if me = 0 then modIna (fun n => { n with prep := none }) s
    else
      let all := s.ina.members
      let walk := keptWalk me live all
      let uidOf (w : Option WalkNode) : BitVec 64 := (w.map (fun w => w.uid)).getD 0
      let c : EndChoice := { lead := d.leadVid, old := some d, formerRefs := [],
                             current := uidOf walk.head? == uidOf all.head? }
      let x := buildDir (s.ina.gen + 1) d.leadVid (orientWalk c walk) [d] []
        (if uidOf walk.getLast? = uidOf all.getLast? then legacyList d else [])
      performSwitch x.1 x.2 true false s

/-- The removals at an instant: those whose count runs out (R117, R119), and R120's end of forwarding, where a node
that goes passive becomes unnumbered (DEDUCED from R120 and R327, log 17). -/
def removalsAtInstant (s : State) : State :=
  let rs := s.ina.removals.map (fun r => { r with wait := r.wait - 1 })
  let due := rs.filter (fun r => r.wait = 0)
  let s1 := modIna (fun n => { n with removals := rs.filter (fun r => r.wait ≠ 0), removalFlag := false }) s
  let s2 := if due.isEmpty then s1 else performRemovals due s1
  match s2.trunk.passiveSent with
  | some t =>
    if cycleOf t s2 + 2 ≤ cycleCount s2 && !s2.trunk.stopForward then
      let s3 := modTrunk (fun k => { k with stopForward := true }) s2
      if joined s3 then enterSteep s3 else s3
    else s2
  | none => s2

/-! ## Additions prepared by the first node (R110, R114, R126, R131–R134) -/

/-- A joining trunk node put into the walk beside the neighbour it names. -/
def insertJoiner (j : JoinBody) (me : BitVec 64) (meDirOf : BitVec 64 → Option Nat) (l : List WalkNode) : List WalkNode :=
  if l.any (fun w => w.uid == j.uid) then l
  else
    let node (toRef : Bool) : WalkNode := { uid := j.uid, vid := j.vid, twinB := j.twinB, dirToRef := toRef }
    match l.findIdx? (fun w => w.uid ≠ 0 && (w.uid == j.nb1 || w.uid == j.nb2)) with
    | none => l
    | some i =>
      let nb := ((l[i]?).map (fun w => w.uid)).getD 0
      let other := if nb = j.nb1 then j.nb2 else j.nb1
      let next := ((l[i + 1]?).map (fun w => w.uid)).getD 0
      let after :=
        if l.length = 1 && nb = me then
          (match meDirOf j.uid with
           | some d => !(((l[i]?).map (fun w => w.dirToRef)).getD false) == (d == 1)
           | none => true)
        else i + 1 = l.length || (other ≠ 0 && next = other)
      if after then l.take (i + 1) ++ [node (nb = j.nb2)] ++ l.drop (i + 1)
      else l.take i ++ [node (nb = j.nb1)] ++ l.drop i

/-- Every joiner whose neighbour is known, in as many passes as there are joiners. -/
def insertJoiners (js : List JoinBody) (s : State) : Nat → List WalkNode → List WalkNode
  | 0, l => l
  | n + 1, l => insertJoiners js s n (js.foldl (fun l j => if j.fabric then l else insertJoiner j s.sys.uid (dirOfPartner s) l) l)

/-- Two directories agree but for the generation. -/
def sameButGen (a b : Directory) : Bool := a.vehicles == b.vehicles && a.leadVid == b.leadVid && a.refUid == b.refUid

/-- An addition prepared for the instant that opens `k`. -/
def prepared (k : BitVec 32) (x : Directory × List (Byte × BitVec 64)) : Prepared where
  dir := x.1
  hash := dirHash x.1
  committed := false
  k := k
  step := 0
  stepping := false
  whole := true
  merge := false
  stableAt := 0
  otherGen := 0
  floor := 0
  base := 0
  seen := 0
  joins := []
  conf := x.2

/-- The group's walk with the trunk nodes that have joined without a number (R97, R99) and those that now join. -/
def joinedWalk (s : State) : List WalkNode :=
  let js := s.ina.extra ++ s.ina.additions
  insertJoiners js s js.length s.ina.members

/-- R510: the vehicle's report lists a fabric node's JOIN at a slot. -/
def reportLists (j : JoinBody) (s : State) : Bool :=
  (s.ina.fabricNew ++ s.ina.fabricKnown).any (fun r => r.vid == j.vid &&
    (List.range 14).any (fun i => r.slots.getLsbD (i + 2) && r.uids.getD i 0 == j.uid))

/-- R126: joins, a leading command, fabric and island changes that wait become one prepared addition, k two cycles
after the cycle now opening. A JOIN of a node that has its place makes one even where the directory stays as it is, and so
does an island's inauguration (R149); nothing else does (DESIGN CHOICE, log 36). -/
def prepareAddition (s : State) : State :=
  match s.ina.dir with
  | none => s
  | some d =>
    let lead := s.ina.leadNew.getD d.leadVid
    let walk := joinedWalk s
    let o := orientWalk { lead := lead, old := none, formerRefs := [], current := true } walk
    let x := buildDir (s.ina.gen + 1) lead o [d] s.ina.fabricNew (legacyOf o (legacyList d) s)
    let placed := !s.ina.fabricNew.isEmpty || s.ina.islandNew ||
      s.ina.additions.any (fun j => if j.fabric then reportLists j s else walk.any (fun w => w.uid == j.uid))
    let s1 := modIna (fun n => { n with islandNew := false, islandCheck := false }) s
    if sameButGen x.1 d && !placed then modIna (fun n => { n with additions := [], leadNew := none, fabricNew := [] }) s1
    else modIna (fun n => { n with prep := some { prepared (cycleNo s + 2) x with joins := n.additions } }) s1

/-- The walk of a group seen so that the node at the coupling stands last. -/
def towardsEnd (toRef : Bool) (l : List WalkNode) : List WalkNode := if toRef then turnWalk l else l

/-- R131: the merged directory, and whether this node's group keeps its train time. Where both groups are of one size and
both carry a LEAD_VID, R131 and R106 settle each other; the own group's is tried first. Step 4 of R104 names no end of a merged
walk, which has two current reference ends: where step 3 names none, step 5 does (DESIGN CHOICE, log 36). -/
def mergedDir (m : MergeReport) (d : Directory) (s : State) : (Directory × List (Byte × BitVec 64)) × Bool :=
  let own := joinedWalk s
  let theirs := walkOf m.dir
  let rep := ((uidAt d m.addr).bind (fun u => own.find? (fun w => w.uid == u)))
  let repFacesRef := (rep.map (fun w => w.dirToRef)).getD false == (dirOfPort m.port.val == 1)
  let par := theirs.find? (fun w => w.uid == m.partner.uid)
  let parFacesRef := (par.map (fun w => w.dirToRef)).getD false == m.partner.flags.getLsbD 5
  let walk := towardsEnd repFacesRef own ++ (if parFacesRef then theirs else turnWalk theirs)
  let refs := [((s.ina.members.head?.map (fun w => w.uid)).getD 0, d.nodes.toNat),
               ((theirs.head?.map (fun w => w.uid)).getD 0, m.dir.nodes.toNat)]
  let ownLead := s.ina.leadNew.getD d.leadVid
  let make (lead : BitVec 48) (gen : BitVec 16) :=
    let o := orientWalk { lead := lead, old := none, formerRefs := refs, current := false } walk
    let mine := legacyOf o (legacyList d) s
    let head := (o.head?.map (fun w => own.any (fun x => x.uid == w.uid))).getD true
    buildDir gen lead o [d, m.dir] s.ina.fabricNew (if head then legacyList m.dir ++ mine else mine ++ legacyList m.dir)
  let larger := m.dir.nodes.toNat < d.nodes.toNat
  let smaller := d.nodes.toNat < m.dir.nodes.toNat
  let trial := make (if ownLead = 0 then m.dir.leadVid else ownLead) 0
  let keeps := larger || (!smaller && own.any (fun w => w.uid == trial.1.refUid))
  let lead := if keeps then (if ownLead = 0 then m.dir.leadVid else ownLead)
              else (if m.dir.leadVid = 0 then ownLead else m.dir.leadVid)
  let keeperGen := if keeps then d.gen else m.dir.gen
  let base := if wrapNewer d.gen m.dir.gen then d.gen else if wrapNewer m.dir.gen d.gen then m.dir.gen else keeperGen
  (make lead (base + 1), keeps)

/-- R132: the cycle opened by the last removal of either group, as the group counts that keeps time: this group's own, or
one that the partner group's new generation tells of, whose report comes in the cycle after its switch (DESIGN CHOICE,
log 36). -/
def removalCycle (m : MergeReport) (keeps : Bool) (here : Nat) (s : State) : Nat × Nat :=
  let own := match s.ina.lastRemoval with
    | some c => if keeps then c else cycleOf (addTicks (c * macroT s) m.delta) s
    | none => 0
  let floor := match s.ina.prep with
    | some p => if !p.merge then 0 else if p.otherGen = m.dir.gen then p.floor else here - 1
    | none => 0
  (own, floor)

/-- R132–R134: a merge prepared from a report, or prepared again as its report now stands: with the same k as long as neither
the directory nor the cycle from which k counts has changed. In the yielding group SWITCH_CYCLE counts in the other
group's time. -/
def prepareMerge (m : MergeReport) (s : State) : State :=
  match s.ina.dir with
  | none => s
  | some d =>
    let x := mergedDir m d s
    let keeps := x.2
    let stable := if keeps then m.tStable else addTicks m.tStable m.delta
    let here := if keeps then cycleCount s else cycleOf (addTicks s.now m.delta) s
    let r := removalCycle m keeps here s
    let base := max (max (cycleOf stable s) r.1) r.2
    let k := match s.ina.prep with
      | some p => if p.merge && p.base = base && p.hash = dirHash x.1.1 then p.k else BitVec.ofNat 32 (max (base + 3) (here + 2))
      | none => BitVec.ofNat 32 (max (base + 3) (here + 2))
    modIna (fun n => { n with
      mergeWait := none
      prep := some { prepared k x.1 with
        step := m.delta, stepping := !keeps, merge := true, stableAt := m.tStable, otherGen := m.dir.gen, floor := r.2,
        base := base, seen := cycleCount s, joins := n.additions } }) s

/-- R134: a committed merge of a yielding group carries the mean Δ as it now stands; in the last half macrocycle before
the switch of R135 it no longer moves, so that all nodes of the group add one step (DEDUCED from R135, log 17). -/
def mergeStep (m : MergeReport) (p : Prepared) (s : State) : State :=
  let there := addTicks s.now p.step
  let fixed : Bool := cycleNear (cycleOf there s) p.k * macroT s < there + macroT s / 2
  modIna (fun n => { n with mergeWait := none, prep := some (if p.stepping && !fixed then { p with step := m.delta } else p) }) s

/-- Something waits to be prepared (R114). -/
def additionWaits (n : Ina) : Bool :=
  !n.additions.isEmpty || n.leadNew.isSome || !n.fabricNew.isEmpty || n.islandNew || n.islandCheck

/-- What is due is committed: a merge of a yielding group from the moment the link is stable, as a report of the last cycle
says (R134); anything else in the opening frame of k − 1; never in the frame that first prepares it. -/
def commitDue (fresh : Bool) (s : State) : State :=
  match s.ina.prep with
  | some p =>
    let due := if p.stepping then p.stableAt < s.now && cycleCount s ≤ p.seen + 1 else cycleNo s + 1 == p.k
    if due && !fresh then modIna (fun n => { n with prep := some { p with committed := true } }) s else s
  | none => s

/-- A merge that is not committed is given up when its link has not been reported for two cycles: the link has been lost
(DESIGN CHOICE, log 36). -/
def mergeLost (p : Prepared) (s : State) : State :=
  if p.merge && !p.committed && p.seen + 2 ≤ cycleCount s then modIna (fun n => { n with prep := none }) s else s

/-- The first node at the opening of a cycle prepares what waits and commits what is due; so does the provisional lead
with its first generation (R142). -/
def firstNodePrepares (s : State) : State :=
  if inProvLead s then commitDue false s
  else if !isFirst s || inBackbone s then s
  else
    let s1 := match s.ina.mergeWait, s.ina.prep with
      | some m, none => prepareMerge m s
      | some m, some p => if p.committed then mergeStep m p s else prepareMerge m s
      | none, none => if additionWaits s.ina then prepareAddition s else s
      | none, some p => mergeLost p s
    commitDue s.ina.prep.isNone s1

/-- R102, R142: the directories the first node, or the provisional lead, sends in this cycle. -/
def sendDirectories (s : State) : State :=
  if !isFirst s && !inProvLead s then s
  else
    let out (fs : List DirFrame) (s : State) : State :=
      forEach fs (fun f s => fabRelay (.dir f) (inaugSend (upPorts s) (.dir f) s)) s
    let s1 := match s.ina.prep with
      | some p => out (dirFrames true false p.dir) s
      | none => s
    match s1.ina.dir with
    | some d => if cycleCount s1 % 8 = 0 then out (dirFrames false false d) s1 else s1
    | none => s1

/-- R116: the BREAKs repeated in the management slot of every cycle until their switch. -/
def repeatBreaks (s : State) : State :=
  forEach s.ina.brkSent (fun b s => inaugSend (groupPorts (1 - b.dir.val) s) (.breakF b) s) s

/-! ## The switch at the instant (R110–R113) -/

/-- R113: a committed generation whose directory this node lacks: a joined node counts a proof failure and enters steep,
any other lets the change pass. -/
def lacksDirectory (s : State) : State :=
  if joined s then enterSteep (inaCount 3 s) else modIna (fun n => { n with prep := none }) s

/-- What a prepared generation does at the opening of cycle `c`: a committed one takes effect, an uncommitted one whose instant
this is, or was, is discarded. The yielding group switches under R135 instead. -/
def switchAtInstant (c : BitVec 32) (s : State) : State :=
  match s.ina.prep with
  | none => s
  | some p =>
    if p.stepping || (c - p.k).toInt < 0 then s
    else if !p.committed then modIna (fun n => { n with prep := none }) s
    else if p.whole then performSwitch p.dir p.conf false false s
    else lacksDirectory s

/-! ## Proof cycles and JOIN (R124, R125) -/

/-- The directory carried by the last valid opening frame is held, and fresh. A provisional member needs none, since no
directory is in force in provisional cycles (DESIGN CHOICE, log 36). -/
def holdsDirectory (s : State) : Bool :=
  inProvMember s ||
  match s.ina.dir, (s.sched.a.copy.or s.sched.b.copy) with
  | some d, some f => f.inaug.dirHash == dirHash d && s.ina.dirAge ≤ 8
  | _, _ => false

/-- The neighbours' beacons carry this node's schedule hash and macrocycle. -/
def neighboursAgree (s : State) : Bool :=
  (List.range 4).all (fun p => match (portOf s p).partner with
    | some b => !(linkHeld (portOf s p)) || sameSchedule b s
    | none => true)

/-- The time unit is Locked. -/
def timeLocked (s : State) : Bool := match s.time.st with | .locked => true | _ => false

/-- The partner on a direction: of the first of its ports, line A before line B, that holds a link; 0 if none. -/
def dirPartner (d : Nat) (s : State) : BitVec 64 :=
  (((dirPorts d).find? (fun p => linkHeld (portOf s p))).map (fun p => (portOf s p).partnerUid)).getD 0

/-- The JOIN this node sends (R125). -/
def ownJoin (s : State) : JoinBody where
  uid := s.sys.uid
  vid := s.ina.vid
  twinB := s.ina.twinB
  native := s.sys.native
  fabric := s.fab.attached
  prio := s.ina.prio
  nb1 := dirPartner 0 s
  nb2 := dirPartner 1 s

/-- R611, R614: the node has come to step 0x8 of a start that is no maintenance start. -/
def mayOpen (s : State) : Bool := s.sys.step = 8 && !s.sys.maint

/-- The node has announced that it goes passive and has not gone active since: it stays unnumbered (DEDUCED from R327, log 17). -/
def goesPassive (s : State) : Bool := s.trunk.passiveOn

/-- R125, R614, R716: the node may send a JOIN. -/
def mayJoin (s : State) : Bool := mayOpen s && !goesPassive s && s.ina.vid ≠ 0 && s.sched.running.isSome

/-- The proof cycle that ends at this instant (R124), and the JOIN in the next management slot and every 8 macrocycles
(R125); `mism` says that a neighbour's schedule differs, `join` sends the JOIN. A cycle without a valid opening frame
counts under OPEN_MISSED and not under PROOF_FAIL (DESIGN CHOICE, log 36). -/
def proofCycle (mism : Bool) (join : State → State) (s : State) : State :=
  let s0 := if mism then inaCount 1 s else s
  let heard := s.sched.openOk
  let ok := heard && holdsDirectory s && !mism && timeLocked s && s.sched.running.isSome
  if ok && mayJoin s then
    let s1 := modIna (fun n => { n with proofs := n.proofs + 1, sinceJoin := if n.proofs = 0 || 7 ≤ n.sinceJoin then 0 else n.sinceJoin + 1 }) s0
    if s1.ina.sinceJoin = 0 then join s1 else s1
  else if ok then s0
  else if 0 < s.ina.proofs then
    let s1 := modIna (fun n => { n with sinceJoin := if 7 ≤ n.sinceJoin then 0 else n.sinceJoin + 1 }) s0
    let s2 := if s1.ina.sinceJoin = 0 && !mism && mayJoin s then join s1 else s1
    if heard then inaCount 3 s2 else s2
  else if heard then inaCount 3 s0 else s0

/-- R124, R125 at a trunk node. -/
def proofAtInstant (s : State) : State :=
  if !(inSteep s || inProvMember s) || s.fab.attached then s
  else proofCycle (!(neighboursAgree s)) (fun s => inaugSend (upPorts s) (.join (ownJoin s)) s) s

/-! ## Merge preparation (R130) -/

/-- R130: the expected moment at which a link reports stable: 16 ms after Qualify began, or 8 requests of a T1 port. One
that is overdue is expected two macrocycles from now (DESIGN CHOICE, log 36), so that nothing is committed for it. -/
def expectedStable (p : Nat) (s : State) : Nat :=
  let t := portOf s p
  let due := t.qualClk + (if onNdoelle t then msT 16 else secT 1)
  if t.stable then s.now - (s.clk - t.stableClk)
  else if s.clk < due then s.now + (due - s.clk)
  else s.now + 2 * macroT s

/-- Mean Δ of a port (R95). -/
def meanDelta (s : State) (p : Nat) : Int := meanInt (portOf s p).deltas

/-- A report that still waits at port `q` gives way to a newer one of its port. -/
def renewReport (m : MergeReport) (q : Nat) (s : State) : State :=
  modPort q (fun t => { t with queues := updAt t.queues 0 (fun l => l.map (fun f => match f.frame with
    | .mergeReport x => if x.port = m.port then { f with frame := .mergeReport m } else f
    | _ => f)) }) s

/-- The length of a MERGE_REPORT with the partner group's directory frames behind it. -/
def reportLen (m : MergeReport) : Nat :=
  inaugLen (.mergeReport m) + ((dirFrames false true m.dir).map (fun f => inaugLen (.dir f))).sum

/-- R130: a MERGE_REPORT for port `p` once the partner group's directory is held: one a cycle to the own first node, or
taken by this node when it is that. -/
def mergeReport (p : Nat) (s : State) : State :=
  match (portOf s p).partner, s.ina.foreignDir with
  | some b, some fd =>
    if !joined s || inBackbone s || !(uidNumbered fd b.uid) || !(sameSchedule b s) then s
    else
      let m : MergeReport := { addr := s.ina.addr, port := Fin.ofNat 4 p, partner := b, delta := meanDelta s p, tStable := expectedStable p s, dir := fd }
      let out := groupPorts (1 - dirOfPort p) s
      let len := reportLen m
      if isFirst s then modIna (fun n => { n with mergeWait := some m }) s
      else if (portOf s p).reported then forEach out (renewReport m) s
      else mgmtSend out (.mergeReport m) len (modPort p (fun t => { t with reported := true }) s)
  | _, _ => s

/-- R130: the own group's directory goes across a new link once. -/
def sendAcross (p : Nat) (s : State) : State :=
  match s.ina.dir with
  | some d =>
    if joined s && !(portOf s p).dirSent then
      let s1 := modPort p (fun t => { t with dirSent := true }) s
      forEach (dirFrames false true d) (fun f s => inaugSend [p] (.dir f) s) s1
    else s
  | none => s

/-! ## Contention (R122, R138–R142) -/

/-- R138, R614, R716: the node may contend. -/
def mayContend (s : State) : Bool := mayOpen s && !goesPassive s && !s.fab.attached && s.ina.vid ≠ 0 && s.sched.running.isSome

/-- R122, R138, R617: 20 ms have passed without an opening frame. -/
def quietLong (s : State) : Bool :=
  s.ina.quietClk.getD (s.sys.readyClk + msT 100) + msT 20 ≤ s.clk

/-- The node enters Contend. -/
def enterContend (s : State) : State :=
  let first := isFirst s
  let s1 := twinLeave (modIna (fun n => { clearNumbering n with
    st := .contend, ctr := ctrInc n.ctr 4, joiners := [], contendClk := s.clk }) s)
  if first then leaveMaster s1 else s1

/-- The 80-bit rank (R138). -/
def ownRank (s : State) : BitVec 80 :=
  BitVec.ofNat 80 (b2n s.sys.native * 2 ^ 72 + s.ina.prio.toNat * 2 ^ 64 + s.sys.uid.toNat)

/-- The claim this node sends. -/
def ownColdClaim (s : State) : ColdClaim where
  rank := ownRank s
  newestGen := s.ina.newest
  seq := s.ina.claimSeq

/-- R142: the first generation's number: one above the newest NEWEST_GEN heard. -/
def firstGen (n : Ina) : BitVec 16 :=
  match n.heardGens.filter (fun g => g ≠ 0) with
  | [] => 1
  | x :: xs => xs.foldl newerGen x + 1

/-- R142: the provisional lead prepares the first generation over itself and the joiners heard. Its LEAD_VID is the lead's
own stored command, there being no directory that carries one (DESIGN CHOICE, log 36). -/
def prepareFirst (s : State) : State :=
  let me : WalkNode := { uid := s.sys.uid, vid := s.ina.vid, twinB := s.ina.twinB, dirToRef := false }
  let js := s.ina.joiners
  let walk := insertJoiners js s js.length [me]
  let lead := s.ina.leading.getD 0
  let o := orientWalk { lead := lead, old := none, formerRefs := [], current := false } walk
  let x := buildDir (firstGen s.ina) lead o [] s.ina.fabricNew (legacyOf o [] s)
  modIna (fun n => { n with prep := some (prepared (cycleNo s + 3) x) }) s

/-! ## The topology records -/

/-- The topology status record (R156). -/
def topoRecord (s : State) : List Byte :=
  recBytes 40 ([(0, 16, s.ina.gen.toNat), (16, 10, s.ina.addr.toNat), (26, 4, inaugCode s.ina.st),
    (32, 16, (s.ina.dir.map (fun d => d.nodes.toNat)).getD 0),
    (48, 8, (s.ina.dir.map (fun d => d.vehicles.length)).getD 0)] ++
    ctrFields s.ina.ctr [64, 96, 128, 160, 192, 224, 256] 288)

end Sys2Proof.Machine
end

