-- ==== Sys2Proof/Machine/Trunk.lean ====
section
/-! DEFINITION. The trunk's commands (R42–R96, R714): link states, hop delay, bypass, beacons, and the TRUNK_ mailbox
commands. -/

namespace Sys2Proof.Machine

/-! ## Link states -/

/-- A partner without beacons stands on one of this node's own hops of direction `d`. -/
def ttHere (d : Nat) (s : State) : Bool := (dirPorts d).any (fun p => linkHeld (portOf s p) && (portOf s p).ttdp)

/-- The length of a topology discovery frame, whose layout IEC 61375-2-5 has (PRESUMED, log 38). -/
def ttLen (t : Ttdp) : Nat := controlLen (8 + 14 * t.nodes.length)

/-- Topology discovery frames of this node for ports that are Up, among the frames of the management class (PRESUMED,
log 38). -/
def ttSend (ps : List Nat) (t : Ttdp) (s : State) : State :=
  mgmtSend (ps.filter (fun p => portUp s p && !onWtb s p)) (.ttdp t) (ttLen t) s

/-- R64: what this node tells of the standard's topology: the backbone nodes it knows, itself among them, under its count of
that topology. -/
def ttOwn (known : List (BitVec 48 × BitVec 64)) (s : State) : Ttdp where
  counter := s.ina.ttCounter
  nodes := if known.any (fun n => n.2 == s.sys.uid) then known else known ++ [(s.ina.vid, s.sys.uid)]

/-- R153: no partner without beacons is left on direction `d`: the other direction and the fabric nodes are told with a frame
that names no node (DESIGN CHOICE, log 38). -/
def ttTell (d : Nat) (s : State) : State :=
  let t : Ttdp := { counter := s.ina.ttCounter, nodes := [] }
  fabRelay (.ttdp t) (ttSend (dirPorts (1 - d)) t s)

/-- R153: the node leaves Backbone node once no partner without beacons remains on any hop. -/
def leaveBackbone (s : State) : State :=
  if inBackbone s && !(ttHere 0 s) && !(ttHere 1 s) && !(s.ina.ttRemote.any id) then enterSteep s else s

/-- R153: the last partner without beacons of direction `d` is gone: the others are told, and this node may leave the state. -/
def ttGone (d : Nat) (before s : State) : State :=
  if ttHere d before && !(ttHere d s) && !(s.ina.ttRemote.getD d false) then leaveBackbone (ttTell d s) else s

/-- R153: what stood beyond a direction is out of reach: no link of it is held, or no route from an attached node to the trunk
is left. -/
def ttBeyond (d : Nat) (s : State) : Bool :=
  if s.fab.attached then (fabRoute s (fabTrunkSlot s)).isSome else (dirPorts d).any (fun p => linkHeld (portOf s p))

/-- R153: a partner without beacons beyond a direction that is out of reach counts no longer. -/
def ttClean (d : Nat) (s : State) : State :=
  if s.ina.ttRemote.getD d false && !(ttBeyond d s) then
    let s1 := modIna (fun n => { n with ttRemote := updAt n.ttRemote d (fun _ => false) }) s
    if ttHere d s1 then s1 else ttTell d s1
  else s

/-- LOSS_OF_SIGNAL (R58): no valid symbol for 2 µs. -/
def execLossOfSignal (dt : Nat) (p : Fin 4) (s : State) : Host.Outcome State Fault Refusal :=
  .next (portLoss p.val (begin_ dt s))

/-- RESUME_ENTRY (R58). -/
def execResumeEntry (dt : Nat) (p : Fin 4) (s : State) : Host.Outcome State Fault Refusal :=
  .next (portResume p.val (begin_ dt s))

/-- A link goes down: the port returns to Detect, and the direction may be broken. -/
def linkDown (p cause : Nat) (s : State) : State := ttGone (dirOfPort p) s (portLost p (portToDetect p cause s))

/-- R58: the port relocks. A loss of up to 100 µs was a ride-through, a longer one a Resume, and one that has lasted a
macrocycle is down all the same. -/
def portRelock (p : Nat) (s : State) : State :=
  match lossFor p s with
  | none => s
  | some d =>
    if macroT s ≤ d then linkDown p 1 s
    else match (portOf s p).st with
      | .up => modPort p (fun t => { t with lossClk := none, ctr := ctrInc t.ctr (if d ≤ usT 100 then 2 else 3) }) s
      | .resume => modPort p (fun t => { t with st := .up, lossClk := none, rideCounted := false }) s
      | _ => s

/-- SIGNAL_RELOCK (R58). -/
def execSignalRelock (dt : Nat) (p : Fin 4) (s : State) : Host.Outcome State Fault Refusal :=
  .next (portRelock p.val (begin_ dt s))

/-- LINK_DOWN_TIMEOUT (R58): the loss has lasted a macrocycle. -/
def execLinkDownTimeout (dt : Nat) (p : Fin 4) (s : State) : Host.Outcome State Fault Refusal :=
  let s1 := begin_ dt s
  .next (if linkHeld (portOf s1 p.val) && lossOver p.val s1 then linkDown p.val 1 s1 else s1)

/-- PARTNER_ENERGY_DETECT (R48, R67). -/
def execPartnerEnergyDetect (dt : Nat) (p : Fin 4) (s : State) : Host.Outcome State Fault Refusal :=
  .next (portEnergy p.val (begin_ dt s))

/-- R53: the end of Lock puts a Ndoelle port into Qualify, with nothing yet heard of its partner. -/
def portQualify (p : Nat) (s : State) : State :=
  match (portOf s p).st with
  | .train => if onNdoelle (portOf s p) then
      modPort p (fun t => { portClear .qualify t with qualClk := s.clk, partner := none, partnerClk := none, deltas := [] }) s else s
  | _ => s

/-- TRAINING_LOCK_COMPLETE (R53). -/
def execTrainingLockComplete (dt : Nat) (p : Fin 4) (s : State) : Host.Outcome State Fault Refusal :=
  .next (portQualify p.val (begin_ dt s))

/-- QUALIFY_COMPLETE (R54, R68, R129). -/
def execQualifyComplete (dt : Nat) (p : Fin 4) (partner : BitVec 64) (s : State) : Host.Outcome State Fault Refusal :=
  let s1 := begin_ dt s
  .next (if portQualified p.val s1 then portToUp p.val partner s1 else s1)

/-- CODE_VIOLATION_LIMIT (R54). -/
def execCodeViolationLimit (dt : Nat) (p : Fin 4) (violations : Nat) (lockLost : Bool) (s : State) :
    Host.Outcome State Fault Refusal :=
  .next (portViolations p.val violations lockLost (begin_ dt s))

/-- NEGOTIATE_TIMEOUT (R67). -/
def execNegotiateTimeout (dt : Nat) (p : Fin 4) (s : State) : Host.Outcome State Fault Refusal :=
  let s1 := begin_ dt s
  .next (match (portOf s1 p.val).st with
    | .negotiate => if (portOf s1 p.val).qualClk + secT 2 ≤ s1.clk then portToDetect p.val 0 s1 else s1
    | _ => s1)

/-- AUTONEG_COMPLETE (R50, R67): what the partner offers beside both T1 modes of this port, and the role resolved. -/
def execAutonegComplete (dt : Nat) (p : Fin 4) (m1000 m100 master : Bool) (s : State) :
    Host.Outcome State Fault Refusal :=
  .next (portNegotiated p.val m1000 m100 master (begin_ dt s))

/-- TRAINING_FAILURE (R48, R67). -/
def execTrainingFailure (dt : Nat) (p : Fin 4) (answered : Bool) (s : State) : Host.Outcome State Fault Refusal :=
  .next (portTrainingFailure p.val answered (begin_ dt s))

/-- T1_LINK_UP (R67, R68). -/
def execT1LinkUp (dt : Nat) (p : Fin 4) (partner : BitVec 64) (s : State) : Host.Outcome State Fault Refusal :=
  let s1 := begin_ dt s
  .next (match (portOf s1 p.val).st with
    | .train => if onT1 (portOf s1 p.val) then
        portToUp p.val partner (modPort p.val (fun t => { t with partner := none, partnerClk := none, deltas := [], qualClk := s1.clk }) s1) else s1
    | _ => s1)

/-- T1_LINK_DOWN (R67): Up to Detect. -/
def execT1LinkDown (dt : Nat) (p : Fin 4) (s : State) : Host.Outcome State Fault Refusal :=
  let s1 := begin_ dt s
  .next (if linkHeld (portOf s1 p.val) && onT1 (portOf s1 p.val) then linkDown p.val 1 s1 else s1)

/-- T1_ROLE_SWAP (R63). -/
def execT1RoleSwap (dt : Nat) (p : Fin 4) (s : State) : Host.Outcome State Fault Refusal :=
  .next (portSwap p.val (begin_ dt s))

/-! ## Hop delay (R77–R82, R503) -/

/-- Lane `lane` of fabric link `k` changed. -/
def modLane (k lane : Nat) (f : DelayEst → DelayEst) (s : State) : State :=
  modFab k (fun l => { l with delays := updAt l.delays lane f }) s

/-- Lane `lane` of fabric link `k`. -/
def laneOf (s : State) (k lane : Nat) : DelayEst := (fabOf s k).delays.getD lane DelayEst.reset

/-- A lane carries markers: its link is Up or a boundary (R503, R506), and the lane is not retired. -/
def laneRuns (s : State) (k lane : Nat) : Bool :=
  (match (fabOf s k).st with | .up => true | .boundary => true | _ => false) &&
    ((fabOf s k).lane.val == lane || (fabOf s k).spare ≠ .retired)

/-- Ticks of `n` delay markers of 25.6 ns. -/
def markerTicks (n : Nat) : Nat := nsT (256 * n) / 10

/-- R77, R160: the transmit side of port `p` is idle `wait` ticks from now for `n` markers, and they delay no frame. -/
def markerClear (p wait n : Nat) (s : State) : Bool :=
  (portOf s p).fifo.isEmpty && (portOf s p).busyTill ≤ s.clk + wait && clearFrom p (markerTicks n) wait s == wait

/-- DELAY_REQUEST: a request marker in idle time (R77, R78), its transmit time kept. -/
def delayRequestSend (p : DelayPort) (idle : Bool) (tTx : Int) (s : State) : State :=
  if !idle then s
  else match p with
    | .trunk p =>
      if portUp s p.val && onNdoelle (portOf s p.val) && markerClear p.val (tTx - s.now).toNat 1 s then
        let s1 := modPort p.val (fun t => { t with delay := delayAsk (pinTx t tTx) t.delay }) s
        emit (.delay (.trunk p) (.marker (marker 0 (markerSeq (portOf s1 p.val).delay) 0))) s1
      else s
    | .fabric k lane =>
      if laneRuns s k.val lane.val then
        let s1 := modLane k.val lane.val (delayAsk tTx) s
        emit (.delay (.fabric k lane) (.marker (marker 0 (markerSeq (laneOf s1 k.val lane.val)) 0))) s1
      else s

/-- DELAY_REQUEST (R78). -/
def execDelayRequest (dt : Nat) (p : DelayPort) (idle : Bool) (tTx : Int) (s : State) : Host.Outcome State Fault Refusal :=
  .next (delayRequestSend p idle tTx (begin_ dt s))

/-- The port measures hop delay by markers: an Ndoelle port or a fabric lane (R47, R78, R503). -/
def markerPort (p : DelayPort) (s : State) : Bool :=
  match p with
  | .trunk p => portUp s p.val && onNdoelle (portOf s p.val)
  | .fabric k lane => laneRuns s k.val lane.val

/-- Port `p` measures hop delay by peer-delay messages (R82). -/
def pdelayPort (p : DelayPort) (s : State) : Option (Fin 4) :=
  match p with
  | .trunk p => if portUp s p.val && onT1 (portOf s p.val) then some p else none
  | .fabric _ _ => none

/-- Pin times of a receive and a transmit on a port. -/
def delayPins (p : DelayPort) (tRx tTx : Int) (s : State) : Int × Int :=
  match p with
  | .trunk p => (pinRx (portOf s p.val) tRx, pinTx (portOf s p.val) tTx)
  | .fabric _ _ => (tRx, tTx)

/-- How long after now a response leaves that would leave at raw time `tTx` (R77, R78, R160): at the end of the frame in
progress and of those that wait in transit, and behind the scheduled frames that stand in its way. -/
def delayWait (p : DelayPort) (tTx : Int) (s : State) : Nat :=
  match p with
  | .trunk q =>
    let t := portOf s q.val
    let busy := (t.busyTill - s.clk) + (t.fifo.map (fun x => lineTicks t (transitLen x))).sum
    clearFrom q.val (markerTicks 2) (max busy (tTx - s.now).toNat) s
  | .fabric _ _ => (tTx - s.now).toNat



/-- R78: a request marker is answered with a response, at the end of a frame in progress, and a follow-up that carries
t3 − t2 in 1/16 ns; a response gives t4. -/
def delayMarkerIn (p : DelayPort) (m : Marker) (tRx tTx : Int) (s : State) : State :=
  if !(markerPort p s) || !(markerOk m) then s
  else
    let x := delayPins p tRx (max tTx ((s.now : Int) + delayWait p tTx s)) s
    if m.type = 0 then
      emits [.delay p (.marker (marker 1 m.seq 0)),
             .delay p (.marker (marker 2 m.seq (BitVec.ofInt 24 ((x.2 - x.1) / 4096))))] s
    else if m.type = 1 then
      (match p with
       | .trunk p => modPort p.val (fun t => { t with delay := delayResponse m.seq x.1 t.delay }) s
       | .fabric k lane => modLane k.val lane.val (delayResponse m.seq x.1) s)
    else s

/-- R82: a Pdelay_Req is answered with t2 and, in the follow-up, t3; a Pdelay_Resp gives t2 and t4. -/
def pdelayIn (p : DelayPort) (m : DelayMsg) (tRx tTx : Int) (s : State) : State :=
  match pdelayPort p s with
  | none => s
  | some q =>
    let x := delayPins p tRx tTx s
    match m with
    | .pdelayReq seq => emits [.delay p (.pdelayResp seq x.1), .delay p (.pdelayFollowUp seq x.2)] s
    | .pdelayResp seq t2 => modPort q.val (fun t => { t with delay := pdelayResponse seq t2 x.1 t.delay }) s
    | _ => s

/-- What asks for a delay or answers it, received on a port. -/
def delayIn (p : DelayPort) (m : DelayMsg) (tRx tTx : Int) (s : State) : State :=
  match m with
  | .marker m => delayMarkerIn p m tRx tTx s
  | m => pdelayIn p m tRx tTx s

/-- DELAY_MARKER_RX (R78, R79, R82). -/
def execDelayMarkerRx (dt : Nat) (p : DelayPort) (m : DelayMsg) (tRx : Int) (tTx : Int) (s : State) :
    Host.Outcome State Fault Refusal :=
  .next (delayIn p m tRx tTx (begin_ dt s))

/-- A sample on a trunk port, if it is complete: the estimate, its reject count, and a T1 link's report of being stable
(R81, R82, R129). The Δ taken while no estimate was valid get the hop delay of the one that now is (R95), and samples
from a partner that changed its identifier may be taken again (R227). -/
def delayTrunkDone (p : Nat) (x : DelayEst × Bool) (s : State) : State :=
  let t := portOf s p
  let nowValid := x.1.valid && !t.delay.valid
  modPort p (fun t => { t with
    delay := x.1, ctr := if x.2 then ctrInc t.ctr 7 else t.ctr, stable := t.stable || (onT1 t && x.1.valid)
    stableClk := if t.stable then t.stableClk else s.clk
    strange := t.strange && !nowValid
    okUid := if nowValid then (t.partner.map (fun b => b.uid)).getD t.okUid else t.okUid
    deltas := if nowValid then t.deltas.map (fun d => d + (x.1.est - t.delay.est)) else t.deltas }) s

/-- A sample on a fabric lane (R503), if it is complete, and its reject count. -/
def delayLaneDone (k lane : Nat) (x : DelayEst × Bool) (s : State) : State :=
  modFab k (fun l => { l with
    delays := updAt l.delays lane (fun _ => x.1), ctr := if x.2 then ctrInc l.ctr 5 else l.ctr }) s

/-- A follow-up received on a port (R80, R81, R82). -/
def delayFollowIn (p : DelayPort) (m : DelayMsg) (s : State) : State :=
  match m with
  | .marker m =>
    if !(markerPort p s) || !(markerOk m) || m.type ≠ 2 then s
    else (match p with
      | .trunk p => delayTrunkDone p.val (markerComplete m (portOf s p.val).delay) s
      | .fabric k lane => delayLaneDone k.val lane.val (markerComplete m (laneOf s k.val lane.val)) s)
  | .pdelayFollowUp seq t3 => (match pdelayPort p s with
    | some q => delayTrunkDone q.val (pdelayComplete seq t3 (portOf s q.val).delay) s
    | none => s)
  | _ => s

/-- DELAY_FOLLOW_UP_RX (R80, R81, R82). -/
def execDelayFollowUpRx (dt : Nat) (p : DelayPort) (m : DelayMsg) (s : State) : Host.Outcome State Fault Refusal :=
  .next (delayFollowIn p m (begin_ dt s))

/-- PEER_DELAY_REQUEST (R82): a T1 port's request every 125 ms. -/
def execPeerDelayRequest (dt : Nat) (p : Fin 4) (tTx : Int) (s : State) : Host.Outcome State Fault Refusal :=
  let s1 := begin_ dt s
  .next (match pdelayPort (.trunk p) s1 with
    | some _ =>
      let s2 := modPort p.val (fun t => { t with delay := delayAsk (pinTx t tTx) t.delay }) s1
      emit (.delay (.trunk p) (.pdelayReq (portOf s2 p.val).delay.reqSeq)) s2
    | none => s1)

/-! ## Beacons (R93–R96, R228, R717) -/

/-- The end nodes of the group: at the reference end and at the far end. -/
def endNodes (s : State) : BitVec 64 × BitVec 64 :=
  ((s.ina.members.head?.map (fun w => w.uid)).getD 0, (s.ina.members.getLast?.map (fun w => w.uid)).getD 0)

/-- The beacon that port `p` sends now (R94); TX_TIME is the pin time of its timestamp point (R222). -/
def ownBeacon (p : Nat) (s : State) : Beacon where
  uid := s.sys.uid
  vid := s.ina.vid
  addr := s.ina.addr
  flags := BitVec.ofNat 8 (b2n s.trunk.passiveOn + 2 * b2n (joined s) + 4 * b2n (inProvLead s || inProvMember s) +
    8 * b2n s.sys.native + 16 * b2n s.ina.twinB + 32 * dirOfPort p + 64 * (p % 2))
  prio := s.ina.prio
  gen := s.ina.gen
  nodes := (s.ina.dir.map (fun d => d.nodes)).getD 0
  cycleUs := BitVec.ofNat 16 (cycleUs s)
  refUid := (s.ina.dir.map (fun d => d.refUid)).getD 0
  endRef := (endNodes s).1
  endFar := (endNodes s).2
  hash := ownHash s
  txTime := (pinTx (portOf s p) s.now).toNat
  leadVid := (s.ina.dir.map (fun d => d.leadVid)).getD 0

/-- R93: the port carries beacons. -/
def beaconPort (s : State) (p : Nat) : Bool :=
  let t := portOf s p
  (onNdoelle t || onT1 t) && (match t.st with | .qualify => true | .up => true | .resume => true | _ => false)

/-- R93, R160: a beacon on port `p` that would start now, with the port idle for `idleFor` ticks, delays no frame. -/
def beaconClear (p idleFor : Nat) (s : State) : Bool :=
  let n := lineTicks (portOf s p) (inaugLen (.beacon (ownBeacon p s)))
  (portOf s p).fifo.isEmpty && (portOf s p).busyTill ≤ s.clk && n ≤ idleFor && scheduleClear p n s

/-- A beacon leaves on port `p`. -/
def beaconOut (p : Nat) (s : State) : State :=
  let f := OutFrame.beacon (ownBeacon p s)
  trunkOut p f none (portBusy p (inaugLen f) s)

/-- LINK_BEACON_SEND (R93, R160). -/
def execLinkBeaconSend (dt : Nat) (p : Fin 4) (idleFor : Nat) (s : State) : Host.Outcome State Fault Refusal :=
  let s1 := begin_ dt s
  .next (if beaconPort s1 p.val && beaconClear p.val idleFor s1 then beaconOut p.val s1 else s1)

/-- A PASSIVE beacon on port `p`, where it delays no frame (R96, R160); TX_TIME of the first of all is the departure time. -/
def passiveBeacon (p : Nat) (s : State) : State :=
  if beaconClear p (lineTicks (portOf s p) (inaugLen (.beacon (ownBeacon p s)))) s then
    modTrunk (fun t => { t with
      passiveSent := some (t.passiveSent.getD (ownBeacon p s).txTime)
      passivePorts := p :: t.passivePorts.filter (fun q => q ≠ p) }) (beaconOut p s)
  else s

/-- PASSIVE beacons on every Up trunk port (R96). -/
def passiveBeacons (s : State) : State := forEach (upPorts s) passiveBeacon s

/-- R96: a PASSIVE beacon has gone out on every Up trunk port. -/
def passiveTold (s : State) : Bool := (upPorts s).all (fun p => s.trunk.passivePorts.contains p)

/-- R96: the node announces that it goes passive. Without an Up port there is no beacon, and it departs now (DESIGN CHOICE,
log 36). -/
def goPassive (s : State) : State :=
  let s1 := passiveBeacons (modTrunk (fun t => { t with passiveOn := true }) s)
  if (upPorts s).isEmpty then modTrunk (fun t => { t with passiveSent := some (t.passiveSent.getD s.now) }) s1 else s1

/-- PASSIVE_BEACON_SEND (R96): until the switches close. -/
def execPassiveBeaconSend (dt : Nat) (s : State) : Host.Outcome State Fault Refusal :=
  let s1 := begin_ dt s
  .next (if s1.trunk.passiveOn then passiveBeacons s1 else s1)

/-- The path of this node is invalid on both lines for want of opening frames (R177, R228). -/
def noPath (s : State) : Bool := !s.sched.a.valid && !s.sched.b.valid

/-- The time unit is Free or Acquire. -/
def unlockedTime (s : State) : Bool := match s.time.st with | .free => true | .acquire => true | _ => false

/-- R227: no sample from port `p`: its delay is not valid, or its partner changed its identifier. -/
def noSampleFrom (p : Nat) (s : State) : Bool := !(delayValid s p) || (portOf s p).strange

/-- The partner on an Up port shows JOINED. -/
def showsJoined (s : State) (p : Nat) : Bool :=
  portUp s p && (match (portOf s p).partner with | some b => b.flags.getLsbD 1 | none => false)

/-- R228, R717: the port a node samples from beacons on: its upstream port, or while it is not joined the port whose
partner shows JOINED, or any where none does. A node without a number has no upstream port: outside Free and Acquire it takes
any port whose beacons give samples (DESIGN CHOICE, log 36). -/
def beaconSource (s : State) (p : Nat) : Bool :=
  let ok := portUp s p && !(noSampleFrom p s) && !(portOf s p).deltas.isEmpty
  if !joined s then
    if unlockedTime s then ok && (showsJoined s p || !((List.range 4).any (showsJoined s)))
    else noPath s && ok
  else noPath s && ok && some (dirOfPort p) == upDir s

/-- R717: valid opening frames give samples on some line, and take precedence over beacons. -/
def openingSamples (s : State) : Bool :=
  [s.sched.a, s.sched.b].any (fun l => pathOk l s && l.rx.isSome && (l.copy.isSome || l.sinceOpen = 0))

/-- R228: once per cycle θ := −Δ̄ of that port. -/
def beaconSample (p : Nat) (s : State) : State :=
  if !s.time.sampled && beaconSource s p && !(openingSamples s) && !isFirst s then
    phaseSample (-(meanDelta s p)) 1 (hopsVia p s) s
  else s

/-- R127, R128: a partner's schedule that differs. -/
def beaconSchedule (p : Nat) (b : Beacon) (s : State) : State :=
  if sameSchedule b s then s
  else if inSteep s then mismatchOnce p s
  else if joined s && isBoundary s p && !(portOf s p).dirSent then
    mismatchEvent p (modPort p (fun t => { t with dirSent := true }) s)
  else s

/-- R91, R116: the first PASSIVE beacon on a port breaks its direction at its TX_TIME. -/
def beaconPassive (p : Nat) (b : Beacon) (s : State) : State :=
  if b.flags.getLsbD 0 && !(portOf s p).passive then
    breakNow (dirOfPort p) 2 b.txTime b.uid (modPort p (fun t => { t with passive := true }) s)
  else s

/-- R130: merge preparation on a link to another group. -/
def beaconMerge (p : Nat) (b : Beacon) (s : State) : State :=
  if joined s && isBoundary s p && sameSchedule b s && !inBackbone s then mergeReport p (sendAcross p s) else s

/-- A beacon received on port `p` at raw time `tRx` (R95). -/
def beaconIn (p : Nat) (b : Beacon) (tRx : Int) (s : State) : State :=
  if !(beaconPort s p) then s
  else
    let t := portOf s p
    let est := if linkHeld t then t.delay.est else 0
    let delta := (b.txTime : Int) + est - pinRx t tRx
    let s1 := modPort p (fun t => { t with
      partner := some b, partnerClk := some s.clk, partnerUid := if linkHeld t then t.partnerUid else b.uid,
      ttdp := false, strange := t.strange || (linkHeld t && b.uid ≠ t.partnerUid && b.uid ≠ t.okUid),
      deltas := (delta :: t.deltas).take 8 }) s
    let s2 := beaconPassive p b (modIna (fun n => { n with newest := newerGen n.newest b.gen }) s1)
    let s3 := beaconSchedule p b s2
    ttGone (dirOfPort p) s (beaconSample p (beaconMerge p b s3))

/-- LINK_BEACON_RX (R95). -/
def execLinkBeaconRx (dt : Nat) (p : Fin 4) (b : Beacon) (tRx : Int) (s : State) : Host.Outcome State Fault Refusal :=
  .next (beaconIn p.val b tRx (begin_ dt s))

/-! ## Bypass switches (R70–R76) -/

/-- A line closes with its consequences for the directions. -/
def closeLineBroken (line : Line) (s : State) : State := checkBroken 1 (checkBroken 0 (closeLine line s))

/-- R70 with its consequences: every trigger closes both switches at once. -/
def emergencyClose (s : State) : State :=
  modTrunk (fun t => { t with byCommand := false }) (checkBroken 1 (checkBroken 0 (closeBoth s)))

/-- A sequence begins (R71, R72). To go passive is announced first (R96). -/
def startSequence (passive : Bool) (s : State) : State :=
  let s1 := modTrunk (fun t => { t with seq := some { passive := passive, lineADone := false, aClk := s.clk } }) s
  if passive then goPassive s1 else modTrunk passiveEnd s1

/-- R74: the command of the other sense that waits begins from its start. -/
def nextSequence (passive : Bool) (s : State) : State :=
  if s.cmd.queued.any (fun q => q.opcode == 0x0222 && q.arg == b2n (!passive)) then startSequence (!passive) s else s

/-- The sequence in progress is complete. -/
def finishSequence (passive : Bool) (s : State) : State :=
  nextSequence passive (sequenceEnd passive 0 (modTrunk (fun t => { t with byCommand := passive }) s))

/-- BYPASS_LINE_A_CLOSE (R71), once the PASSIVE beacons have gone out (R96). -/
def execBypassLineAClose (dt : Nat) (s : State) : Host.Outcome State Fault Refusal :=
  let s1 := begin_ dt s
  .next (match s1.trunk.seq with
    | some q => if q.passive && !q.lineADone && passiveTold s1 then
        closeLineBroken .a (modTrunk (fun t => { t with seq := some { q with lineADone := true, aClk := s1.clk } }) s1) else s1
    | none => s1)

/-- BYPASS_LINE_B_CLOSE (R71): 100 ms after line A. -/
def execBypassLineBClose (dt : Nat) (s : State) : Host.Outcome State Fault Refusal :=
  let s1 := begin_ dt s
  .next (match s1.trunk.seq with
    | some q => if q.passive && q.lineADone && q.aClk + msT 100 ≤ s1.clk then finishSequence true (closeLineBroken .b s1) else s1
    | none => s1)

/-- R614, R620: a switch opens once the profile is confirmed, and never under EXTEST. -/
def mayOpenSwitch (s : State) : Bool := s.sys.step = 8 && !s.sys.extest

/-- BYPASS_LINE_A_OPEN (R72). -/
def execBypassLineAOpen (dt : Nat) (s : State) : Host.Outcome State Fault Refusal :=
  let s1 := begin_ dt s
  .next (match s1.trunk.seq with
    | some q => if !q.passive && !q.lineADone && mayOpenSwitch s1 then
        openLine .a (modTrunk (fun t => { t with seq := some { q with lineADone := true, aClk := s1.clk } }) s1) else s1
    | none => s1)

/-- BYPASS_LINE_B_OPEN (R72). -/
def execBypassLineBOpen (dt : Nat) (s : State) : Host.Outcome State Fault Refusal :=
  let s1 := begin_ dt s
  .next (match s1.trunk.seq with
    | some q => if !q.passive && q.lineADone && lineBMayOpen q.aClk s1 && mayOpenSwitch s1 then finishSequence false (openLine .b s1) else s1
    | none => s1)

/-- BYPASS_SENSE_CHECK (R76). -/
def execBypassSenseCheck (dt : Nat) (line : Line) (closed : Bool) (s : State) : Host.Outcome State Fault Refusal :=
  .next (senseCheck line closed (begin_ dt s))

/-! ## Backbone nodes (R152, R229) and legacy islands (R145–R149) -/

/-- R152: the directory of the standard's numbering: each backbone node a vehicle, slot 0. -/
def ttdpDir (gen : BitVec 16) (t : Ttdp) : Directory :=
  let vs := ((t.nodes.take 64).zipIdx 1).map (fun (e : (BitVec 48 × BitVec 64) × Nat) =>
    ({ pos := BitVec.ofNat 8 e.2, flags := 1, slots := 1, vid := e.1.1, wtbAddr := 0, uidA := e.1.2, uidB := 0 } : VehRec))
  { gen := gen, refUid := (vs.head?.map (fun v => v.uidA)).getD 0, leadVid := 0,
    nodes := BitVec.ofNat 16 (vs.filter (fun v => v.uidA ≠ 0)).length, vehicles := vs }

/-- R152: topology discovery is taken at the next instant, once for each count of the standard. -/
def ttTake (t : Ttdp) (s : State) : State :=
  if inBackbone s && t.counter = s.ina.ttCounter then s else modIna (fun n => { n with ttPend := some t }) s

/-- What a topology discovery frame that a Padait node passes on tells: that a partner without beacons stands beyond direction
`d`, or, naming no node, that none does any more (log 38). -/
def ttLearn (d : Nat) (t : Ttdp) (s : State) : State :=
  let s1 := modIna (fun n => { n with ttRemote := updAt n.ttRemote d (fun _ => !t.nodes.isEmpty) }) s
  if t.nodes.isEmpty then leaveBackbone s1 else ttTake t s1

/-- A topology discovery frame: from a T1 partner that sends no beacon, answered with this node added, or from a Padait node;
passed on to the other direction of its line and to the fabric nodes (R43, R64, R152, R153; log 38). -/
def ttdpIn (p : Nat) (t : Ttdp) (s : State) : State :=
  let q := portOf s p
  if !(portUp s p) || onWtb s p then s
  else
    let s1 := fabRelay (.ttdp t) (forwardLen p (.ttdp t) (ttLen t) s)
    if onT1 q && q.partner.isNone then
      let s2 := modPort p (fun q => { q with ttdp := true }) s1
      ttTake t (ttSend [p] (ttOwn t.nodes s2) s2)
    else ttLearn (dirOfPort p) t s1

/-- The backbone nodes this node knows of (R152). -/
def ttKnown (s : State) : List (BitVec 48 × BitVec 64) :=
  if inBackbone s then ((s.ina.dir.map (fun d => d.vehicles)).getD []).map (fun v => (v.vid, v.uidA)) else []

/-- R64: topology discovery on T1 hops whose partner has sent no beacon, every 100 ms (PRESUMED, log 38). -/
def ttDiscover (s : State) : State :=
  if s.now % msT 100 < macroT s then
    ttSend ((List.range 4).filter (fun p => onT1 (portOf s p) && (portOf s p).partner.isNone)) (ttOwn (ttKnown s) s) s
  else s

/-- R152 at an instant: the node enters Backbone node, or follows the standard's topology counter; in Held it does so as a
Backbone node that is Held (R200). -/
def ttAtInstant (s : State) : State :=
  let s0 := ttDiscover (ttClean 1 (ttClean 0 s))
  match s0.ina.ttPend with
  | none => leaveBackbone s0
  | some t =>
    let s1 := modIna (fun n => { n with ttCounter := t.counter, ttPend := none }) s0
    let s2 := performSwitch (ttdpDir (s1.ina.gen + 1) t) [] false false s1
    leaveBackbone (modIna (fun n => match n.st with
      | .held => { n with heldTt := true }
      | _ => { n with st := .backbone, heldTt := false }) s2)

/-- TTDP_FRAME_RX (R152). -/
def execTtdpFrameRx (dt : Nat) (p : Fin 4) (t : Ttdp) (s : State) : Host.Outcome State Fault Refusal :=
  .next (ttdpIn p.val t (begin_ dt s))

/-- Syncs of the trunk time domain for a list of ports: the domain's time is that of each departure plus `x` (R229). They wait
among the sporadic frames of high priority (PRESUMED, log 38). -/
def domainSend (ps : List Nat) (domain : BitVec 7) (x : Int) (s : State) : State :=
  forEach ps (fun p s => trunkEnqueue p 1
    { frame := .domainSync domain x, len := 64, deferred := false, ctx := none, urgent := false } s) s

/-- R229: a Sync of the trunk time domain: the domain's time at its departure from the partner. The node passes the
domain's time on, with the delay of the hop and its own residence, to the hops whose partner sends no beacon, and one that is
not the first node takes its sample. -/
def domainSyncIn (p : Nat) (domain : BitVec 7) (origin tRx : Int) (s : State) : State :=
  if !(portUp s p) || !(inBackbone s) || domain ≠ s.time.trunkDomain then s
  else
    let theta := pinRx (portOf s p) tRx - (origin + hopDelay s p)
    let out := (upPorts s).filter (fun q => dirOfPort q ≠ dirOfPort p && (portOf s q).ttdp)
    let s1 := domainSend out domain (-theta) s
    if isFirst s1 then s1 else phaseSample theta 2 (hopsVia p s1) s1

/-- TRUNK_DOMAIN_SYNC_RX (R229). -/
def execTrunkDomainSyncRx (dt : Nat) (p : Fin 4) (domain : BitVec 7) (origin : Int) (tRx : Int) (s : State) :
    Host.Outcome State Fault Refusal :=
  .next (domainSyncIn p.val domain origin tRx (begin_ dt s))

/-- R229: this node is the origin of the trunk time domain for direction `d`: the first node is grandmaster, and one that has
train time from the beacons of the other direction takes it on from there. -/
def domainOrigin (d : Nat) (s : State) : Bool :=
  isFirst s || ((match s.time.st with | .acquire => true | .locked => true | _ => false) && s.time.source == 1 &&
    upDir s == some (1 - d))

/-- R229 at an instant. The Syncs leave every 125 ms, the interval of IEEE 802.1AS (PRESUMED, log 38), on the hops whose
partner sends no beacon. -/
def domainAtInstant (s : State) : State :=
  if inBackbone s && s.now % msT 125 < macroT s then
    domainSend ((upPorts s).filter (fun p => (portOf s p).ttdp && domainOrigin (dirOfPort p) s)) s.time.trunkDomain 0 s
  else s

/-- R66, R67: port `p` takes its place on the bus of an end node: through Train to Up. -/
def wtbPortUp (p : Nat) (s : State) : State :=
  let t := portOf s p
  match t.st, t.mode with
  | .up, .wtb => s
  | .train, .wtb => portToUp p 0 s
  | .detect, _ => portToUp p 0 (portToTrain p .wtb s)
  | _, _ => s

/-- R66: an intermediate node: each line's bypass closed, the transceivers on the through path by the tap. -/
def wtbTap (s : State) : State :=
  let close (line : Line) (s : State) : State := if lineClosed line s then s else closeLine line s
  forEach [0, 1, 2, 3] (fun p s => modPort p (fun t => { t with st := .tap, mode := .wtb }) s) (close .b (close .a s))

/-- R66: an end node: the bypasses open where they may, the bus Up on its side. -/
def wtbEndPorts (d : Nat) (s : State) : State :=
  let open_ (line : Line) (s : State) : State := if lineClosed line s && mayOpenSwitch s then openLine line s else s
  forEach (dirPorts d) wtbPortUp (open_ .b (open_ .a s))

/-- R65, R66: the node's place on the wire train bus of direction `d`: intermediate with the bus on both sides, otherwise
an end node whose internal termination closes the bus section of that direction (DESIGN CHOICE, log 39). -/
def wtbPorts (d : Fin 2) (master : Bool) (s : State) : State :=
  let mid := s.trunk.policy.all (fun x => x == 6)
  let s1 := modTrunk (fun t => { t with wtbEnd := !mid, wtbMaster := master, wtbTerm := if mid then none else some d }) s
  if mid then wtbTap s1 else wtbEndPorts d.val s1

/-- An island of boundary node `u` as newly inaugurated, in place of what it was. -/
def islandPut (u : BitVec 64) (d : Fin 2) (addrs : List Byte) (interior : Bool) (s : State) : State :=
  let isl : Island := { uid := u, dir := d, addrs := addrs.take 32, interior := interior }
  modIna (fun n => { n with
    islands := isl :: n.islands.filter (fun i => !(i.uid == u && i.dir == d)), islandNew := true }) s

/-- A completed wire-train-bus inauguration: the island is imported (R146, R148), an interior one reported once (R147). A
boundary node that is not the first tells the first node (R149, log 39). -/
def islandDone (d : Fin 2) (addrs : List Byte) (interior master : Bool) (s : State) : State :=
  if s.sys.native || s.trunk.policy.getD d.val 0 ≠ 6 then s
  else
    let s1 := modIna (fun n => { n with islandConflict := interior })
      (islandPut s.sys.uid d addrs interior (wtbPorts d master s))
    let s2 := if joined s1 && !isFirst s1 then inaugSend (trainPorts s1) (.islandReport s.sys.uid (addrs.take 32)) s1 else s1
    if interior && !s.ina.islandConflict then conflictEvent 4 s.sys.uid s2 else s2

/-- The report of another boundary node, at the first node (R149). -/
def islandReported (u : BitVec 64) (d : Fin 2) (addrs : List Byte) (interior : Bool) (s : State) : State :=
  if isFirst s && (s.ina.dir.map (fun x => uidNumbered x u)).getD false then islandPut u d addrs interior s else s

/-- ISLAND_INAUGURATION_COMPLETE (R147–R149): this node's own island, or as another boundary node reports it. -/
def execIslandInaugurationComplete (dt : Nat) (dir : Fin 2) (wtbAddrs : List Byte) (interior master : Bool)
    (reporter : Option (BitVec 64)) (s : State) : Host.Outcome State Fault Refusal :=
  .next (match reporter with
    | none => islandDone dir wtbAddrs interior master (begin_ dt s)
    | some u => islandReported u dir wtbAddrs interior (begin_ dt s))

/-! ## Mailbox commands -/

/-- Every port of a direction is in Disabled, Detect, Bypassed or Listen. -/
def policyAtOnce (d : Nat) (s : State) : Bool :=
  (dirPorts d).all (fun p => match (portOf s p).st with
    | .disabled => true | .detect => true | .bypassed => true | .listen => true | _ => false)

/-- TRUNK_SET_POLICY. -/
def trunkSetPolicySpec : CmdSpec := plainSpec 0x0220 4 (zeros 2 3)

/-- R49, R86, R714. A fabric-attached node holds policy 0x0 (R504): another one is out of range (DESIGN CHOICE, log 31). -/
def trunkSetPolicyBody (r : Ring) (s : State) : Reply × State :=
  let d := byteAt r.req 0
  let pol := byteAt r.req 1
  if d < 1 || 2 < d then (outOfRange 0, s)
  else if 6 < pol then (outOfRange 1, s)
  else if pol = 6 && s.sys.native then (fail 0x0104 1, s)
  else if s.fab.attached && pol ≠ 0 then (outOfRange 1, s)
  else if policyAtOnce (d - 1) s then (done [], applyPolicy (d - 1) pol s)
  else (queued 0, modTrunk (fun t => { t with policyNext := updAt t.policyNext (d - 1) (fun _ => some pol) }) s)

/-- TRUNK_STATUS. -/
def trunkStatusSpec : CmdSpec := plainSpec 0x0221 4 ([(1, 0xFE)] ++ zeros 2 3)

/-- R87, R88. -/
def trunkStatusBody (r : Ring) (s : State) : Reply × State :=
  let p := byteAt r.req 0
  if 3 < p then (outOfRange 0, s)
  else (done (trunkRecord p s), if clearAsked r.req 1 then modPort p (fun t => { t with ctr := ctrClear t.ctr }) s else s)

/-- TRUNK_BYPASS. -/
def trunkBypassSpec : CmdSpec := plainSpec 0x0222 4 (zeros 1 3)

/-- R71–R74: the command joins a sequence of its sense, waits behind one of the other, or starts one. A
fabric-attached node keeps its switches closed (R504): it is not allowed to go active (DESIGN CHOICE, log 31). -/
def trunkBypassBody (r : Ring) (s : State) : Reply × State :=
  let b := byteAt r.req 0
  if 1 < b then (outOfRange 0, s)
  else if s.fab.attached && b = 0 then (notInState (inaugCode s.ina.st), s)
  else match s.trunk.seq with
    | some _ => (queued b, s)
    | none => (queued b, startSequence (b == 1) s)

/-- TRUNK_RETRAIN. -/
def trunkRetrainSpec : CmdSpec := plainSpec 0x0223 4 (zeros 1 3)

/-- R56. -/
def trunkRetrainBody (r : Ring) (s : State) : Reply × State :=
  let p := byteAt r.req 0
  if 3 < p then (outOfRange 0, s)
  else if inSteep s then (done [], portRetrain p s)
  else (queued p, modPort p (fun t => { t with retrain := true }) s)

/-- TRUNK_SET_POLICY (R714). -/
def execTrunkSetPolicy (dt : Nat) (r : Ring) (s : State) : Host.Outcome State Fault Refusal :=
  .next (submit trunkSetPolicySpec trunkSetPolicyBody dt r s)

/-- TRUNK_STATUS (R87). -/
def execTrunkStatus (dt : Nat) (r : Ring) (s : State) : Host.Outcome State Fault Refusal :=
  .next (submit trunkStatusSpec trunkStatusBody dt r s)

/-- TRUNK_BYPASS_PASSIVE (R71): TRUNK_BYPASS with byte 0 at 1. -/
def execTrunkBypassPassive (dt : Nat) (r : Ring) (s : State) : Host.Outcome State Fault Refusal :=
  .next (submit trunkBypassSpec trunkBypassBody dt r s)

/-- TRUNK_BYPASS_ACTIVE (R72): TRUNK_BYPASS with byte 0 at 0. -/
def execTrunkBypassActive (dt : Nat) (r : Ring) (s : State) : Host.Outcome State Fault Refusal :=
  let x := submit trunkBypassSpec trunkBypassBody dt r s
  .next x

/-- TRUNK_RETRAIN (R56). -/
def execTrunkRetrain (dt : Nat) (r : Ring) (s : State) : Host.Outcome State Fault Refusal :=
  .next (submit trunkRetrainSpec trunkRetrainBody dt r s)

end Sys2Proof.Machine
end

