-- ==== Sys2Proof/Machine/Sched.lean ====
section
/-! DEFINITION. The backbone cycle (R158–R218): roles and polling, the opening frame and wavefront timing, holding and
releasing, non-scheduled traffic, and the inauguration frames that arrive on the trunk. -/

namespace Sys2Proof.Machine

/-! ## The poll (R164, R190, R136) -/

/-- R136: train time of the switch while this node's group yields. -/
def yieldSwitchTime (s : State) : Option Nat :=
  match s.ina.prep with
  | some p => if p.stepping && p.committed then
      let n := cycleOf (addTicks s.now p.step) s
      some (addTicks ((n + (p.k - BitVec.ofNat 32 n).toNat) * macroT s) (-p.step)) else none
  | none => none

/-- R136: the entry ends half a guard band before the switch. -/
def endsBeforeSwitch (im : Image) (e : Entry) (s : State) : Bool :=
  match yieldSwitchTime s with
  | some t => if t < nextInstant s then
      (lastInstant s) * 10 + (e.start * 10 + entryT10 e + im.guardNs * 5) * 65536 ≤ t * 10 else true
  | none => true

/-- R164: the first node polls nothing. -/
def pollsNothing (s : State) : Bool := s.sched.heldFlag || inProvLead s || inBackbone s

/-- R190: the poll vector the first node sends for the cycle now opening. -/
def pollVector (im : Image) (v : Nat) (s : State) : List Bool :=
  match s.ina.dir with
  | none => []
  | some d =>
    if pollsNothing s then []
    else (variantEntries im v).map (fun n => match entryAt im n with
      | some e => entryPresent e d && endsBeforeSwitch im e s
      | none => false)

/-! ## The opening frame (R161–R166) -/

/-- R172: the node that opens cycles takes δ from its port towards the reference-end node. A provisional lead, whose group
has no reference end yet, takes δ and ρ as 0 (DESIGN CHOICE, log 36). -/
def leadPath (im : Image) (l : Line) (s : State) : LinePath → LinePath := fun x =>
  if atRefEnd s then { x with delta := 0, valid := true, rx := none, sinceOpen := 0, spanExceeded := false }
  else
    let p := (linePorts l).find? (fun p => some (dirOfPort p) == upDir s)
    match p with
    | some p =>
      let d := (hopDelay s p / 4096).toNat
      { x with
        delta := d, valid := givesPath p s, rx := some (Fin.ofNat 4 p)
        sinceOpen := 0, spanExceeded := 16 * im.spanNs < d }
    | none => { x with valid := false }

/-- The inauguration block the first node sends (R107, R110, R134). -/
def inaugBlock (s : State) : InaugBlock :=
  let p := s.ina.prep
  let com := (p.map (fun p => p.committed)).getD false
  { gen := s.ina.gen
    prepare := p.isSome && !com
    commit := com
    step := (p.map (fun p => p.stepping && p.committed)).getD false
    provisional := inProvLead s
    removal := s.ina.removalFlag
    dirHash := (s.ina.dir.map dirHash).getD 0
    nextGen := (p.map (fun p => p.dir.gen)).getD 0
    nextHash := (p.map (fun p => p.hash)).getD 0
    switchCycle := (p.map (fun p => p.k)).getD 0
    stepTicks := (p.map (fun p => if p.stepping && p.committed then p.step else 0)).getD 0
    refUid := s.sys.uid }

/-- VARIANT of the frame that opens this cycle (R162, R202). -/
def openingVariant (im : Image) (s : State) : Nat :=
  if s.sched.heldFlag then
    match s.sched.release with
    | some r => r - 1
    | none => 0xFF
  else variantOf im (cycleNo s)

/-- The opening frame on a port (R161, R173). -/
def openingFrame (im : Image) (p : Nat) (s : State) : OpeningFrame :=
  let l := lineState s (lineOfPort p)
  let path := l.delta + rho s
  { source := trunkMac s.sys.uid
    type := 0x10
    version := 1
    cycle := cycleNo s
    variant := BitVec.ofNat 8 (openingVariant im s)
    held := s.sched.heldFlag
    noPoll := pollsNothing s
    lineB := p % 2 = 1
    dirUp := some (dirOfPort p) == upDir s
    cycleUs := BitVec.ofNat 16 im.cycleUs
    schedTag := imageTag im
    path := if l.valid then BitVec.ofNat 32 path else 0xFFFFFFFF
    origin := BitVec.ofNat 16 path
    inaug := inaugBlock s
    poll := pollVector im (variantOf im (cycleNo s)) s }

/-- The node opens cycles: first node or provisional lead, with an image. -/
def opensCycles (s : State) : Bool := (isFirst s || inProvLead s) && s.sched.running.isSome

/-- R161: the opening frame at the instant on every Up port of the group that carries it (R31, R47), and what this node
itself takes from it. A count that was stepped off the instant (R250) opens no cycle before its next one. -/
def sendOpening (s : State) : State :=
  match s.sched.running with
  | none => s
  | some im =>
    if !(opensCycles s) || s.now ≠ lastInstant s then s
    else
      let s1 := modLine .b (leadPath im .b s) (modLine .a (leadPath im .a s) s)
      let v := variantOf im (cycleNo s1)
      let s2 := modSched (fun d => { d with
        variant := BitVec.ofNat 8 (openingVariant im s1), noPoll := pollsNothing s1, openOk := true, openClk := s1.clk,
        poll := pollVector im v s1, pollVariant := v }) s1
      forEach ((padaitPorts s2).filter (fun p => !isBoundary s2 p))
        (fun p s => trunkOut p (.opening (openingFrame im p s)) (some s.now) (portBusy p 208 s)) s2

/-! ## Held (R200–R205) -/

/-- The node enters Held (R200), from Joined or as a Backbone node, which is joined as well (R715). -/
def enterHeld (s : State) : State :=
  let enter (tt : Bool) : State := raise 0x0303 (leBytes 2 s.ina.gen.toNat)
    (modSched (fun d => { d with heldFlag := true }) (modIna (fun n => { n with st := .held, heldTt := tt }) s))
  match s.ina.st with
  | .joined => enter false
  | .backbone => enter true
  | _ => modSched (fun d => { d with heldFlag := true }) s

/-- The node leaves Held for the state it came from. -/
def leaveHeld (s : State) : State :=
  modSched (fun d => { d with heldFlag := false, release := none }) (modIna (fun n => { n with
    st := (match n.st with | .held => if n.heldTt then .backbone else .joined | x => x), heldTt := false }) s)

/-- R203: an opening frame's HELD bit and countdown, at a node that does not open cycles. -/
def followHeld (f : OpeningFrame) (s : State) : State :=
  if f.held then
    let s1 := if s.sched.heldFlag && inHeld s then s else enterHeld s
    modSched (fun d => { d with release := if f.variant = 0xFF then none else some (f.variant.toNat + 1) }) s1
  else if s.sched.heldFlag then
    modSched (fun d => { d with activated := false }) (leaveHeld s)
  else s

/-- R201: an image begins to run. -/
def runImage (im : Image) (s : State) : State := modSched (fun d => { d with running := some im, activated := false }) s

/-- What a change of the macrocycle changes elsewhere (R443, R477). -/
def macroChange (s : State) : State :=
  gclMacroChange (forEach (List.range 12) canMacroChange s)

/-- The first four bytes of an image's hash. -/
def hashBytes4 (s : State) : List Byte := leBytes 4 (ownHash s).toNat

/-- R204: a prepared generation of this node keeps the moment of its switch when a release changes the macrocycle from `old`
to `new` µs: the first cycle of the new count that opens at that moment or later, and for one that is not yet committed no
earlier than its COMMIT can go before it (DESIGN CHOICE, log 36). -/
def rescalePrep (old new : Nat) (s : State) : State :=
  let at_ (p : Prepared) : Nat := cycleNear (s.now / usT old) p.k
  let k (p : Prepared) : Nat := (at_ p * old + new - 1) / new
  modIna (fun n => { n with prep := n.prep.map (fun p =>
    if p.stepping then p else { p with k := BitVec.ofNat 32 (if p.committed then k p else max (k p) (s.now / usT new + 2)) }) }) s

/-- R203: the release instant. -/
def releaseNow (s : State) : State :=
  let old := cycleUs s
  let s1 := if s.sched.activated then
      (match s.sched.verified with | some im => runImage im s | none => s) else s
  let s2 := modSched (fun d => { d with afterRelease := true, cycle := cycleNo s1 }) (leaveHeld s1)
  let s3 := if cycleUs s2 = old then s2 else rescalePrep old (cycleUs s2) (macroChange s2)
  let s4 := raise 0x0304 (leBytes 4 (cycleNo s3).toNat ++ hashBytes4 s3) s3
  finishQueued (fun q => q.opcode == 0x0306) 0 s4

/-- The countdown at an instant (R202). -/
def releaseAtInstant (s : State) : State :=
  match s.sched.release with
  | none => s
  | some 0 => s
  | some 1 => releaseNow s
  | some (n + 1) => modSched (fun d => { d with release := some n }) s

/-- R200: the first held cycle opens. A SCHED_HOLD of a node that is Held already takes the countdown to a release back, and the
SCHED_RELEASE goes on waiting (DESIGN CHOICE, log 36). -/
def holdAtInstant (s : State) : State :=
  if s.sched.holdAsked && isFirst s then
    finishQueued (fun q => q.opcode == 0x0304) 0
      (enterHeld (modSched (fun d => { d with holdAsked := false, release := none }) s))
  else s

/-! ## Receiving the opening frame (R164–R172, R225–R227) -/

/-- R172, R175, R225: the expected arrival in ticks after the instant, and δ in 1/16 ns, on port `p`. -/
def arrival (p : Nat) (f : OpeningFrame) (s : State) : Int × Nat :=
  let h := hopDelay s p
  if f.dirUp then (h, 0)
  else ((f.path.toNat - f.origin.toNat : Int) * 4096 + h, (f.path.toNat + h / 4096).toNat)

/-- The cycle count that an opening frame at pin time `t` names: of those with its CYCLE the one nearest `t` (R28). -/
def openedCycle (f : OpeningFrame) (t : Int) (s : State) : Nat := cycleNear (t.toNat / macroT s) f.cycle

/-- How late an opening frame is against its expected arrival, counted from the instant it opens (R166, R225). -/
def openingLate (p : Nat) (f : OpeningFrame) (t : Int) (s : State) : Int :=
  t - ((openedCycle f t s * macroT s : Nat) + (arrival p f s).1)

/-- CYCLE is the node's own: that of the cycle which its count opened last when the frame came, early ones by half a guard
band included (R166; DEDUCED, log 18). -/
def ownCycle (t : Int) (s : State) : BitVec 32 := BitVec.ofInt 32 ((t + guardT s / 2) / macroT s)

/-- R151, R177: the frame has come over a hop that leaves it no PATH, and comes from the reference-end side. It gives no
expected arrival, so it is not held to the window of R166 (DESIGN CHOICE, log 36): it is valid, and the path is not. -/
def pathLost (f : OpeningFrame) : Bool := f.path == 0xFFFFFFFF && !f.dirUp

/-- Why an opening frame fails R166: 1 a wrong tag, 2 another wrong field, 3 outside its window. One that fails in several
ways counts for the first of these only (DESIGN CHOICE, log 36). -/
def openingFault (im : Image) (p : Nat) (f : OpeningFrame) (tPin : Int) (s : State) : Option Nat :=
  if f.schedTag ≠ imageTag im then some 1
  else if f.cycleUs.toNat ≠ im.cycleUs || f.cycle ≠ ownCycle tPin s ||
      (!f.held && f.variant.toNat ≠ variantOf im f.cycle) then some 2
  else if !(pathLost f) && nsT im.guardNs < 2 * (openingLate p f tPin s).natAbs then some 3
  else none

/-- R108: a joined node discards another group's frame. -/
def foreignOpening (f : OpeningFrame) (s : State) : Bool :=
  match s.ina.dir with
  | some d => joined s && (f.inaug.refUid ≠ d.refUid || (f.inaug.gen ≠ d.gen && !f.inaug.removal))
  | none => false

/-- R169: two copies agree apart from LINE_B, DIR_UP and PATH. -/
def sameOpening (a b : OpeningFrame) : Bool :=
  { a with lineB := false, dirUp := false, path := 0 } == { b with lineB := false, dirUp := false, path := 0 }

/-- TTS_LINE changes, with TTS_LINE_SW (R226, R258). -/
def setLine (b : Bool) (s : State) : State := modTime (fun t => { t with lineB := b, ctr := ctrInc t.ctr 3 }) s

/-- R226: a valid sample of line A: it is taken while line A is the time line, and line A is that again after 16
consecutive cycles of them. -/
def sampleA (theta : Int) (hops : Nat) (s : State) : State :=
  if s.time.lineANow then s
  else
    let s1 := modTime (fun t => { t with lineANow := true, lineAGood := t.lineAGood + 1, lineBHeld := none }) s
    let s2 := if s1.time.lineB && 16 ≤ s1.time.lineAGood then setLine false s1 else s1
    if s2.time.lineB || s2.time.sampled then s2 else phaseSample theta 0 hops s2

/-- R226: a valid sample of line B: taken while that is the time line, otherwise kept for a cycle in which line A gives
none. -/
def sampleB (theta : Int) (hops : Nat) (s : State) : State :=
  if s.time.sampled then s
  else if s.time.lineB then phaseSample theta 0 hops s
  else if s.time.lineANow then s
  else modTime (fun t => { t with lineBHeld := some (theta, hops) }) s

/-- R226 at an instant: where line A gave no valid sample in the closed cycle and line B did, line B becomes the time line
and its sample counts for that cycle; the run of good cycles of line A is over. -/
def lineClose (s : State) : State :=
  let s1 := modTime (fun t => { t with lineAGood := if t.lineANow then t.lineAGood else 0, lineANow := false }) s
  if s1.time.lineBHeld.isSome && !s1.time.sampled then modTime (fun t => { t with sampled := true }) (setLine true s1)
  else modTime (fun t => { t with lineBHeld := none }) s1

/-- R226: the sample of line B that waited is applied, once everything else of the instant has been; its slew is that of the
cycle that opens. -/
def heldSample (s : State) : State :=
  match s.time.lineBHeld with
  | some x => modTime (fun t => { t with sampled := false, lineBHeld := none }) (slewTurn (phaseSample x.1 0 x.2 s))
  | none => s

/-- R225–R227: the phase sample of a valid frame on a valid path; one per cycle, on the time line. -/
def openingSample (p : Nat) (f : OpeningFrame) (tPin : Int) (s : State) : State :=
  if isFirst s || inProvLead s || !(lineState s (lineOfPort p)).valid || noSampleFrom p s then s
  else
    let theta := openingLate p f tPin s
    if p % 2 = 1 then sampleB theta (hopsVia p s) s else sampleA theta (hopsVia p s) s

/-- What a frame's block says of the prepared generation. -/
def committedPrep (b : InaugBlock) (p : Prepared) : Prepared := { p with
  k := b.switchCycle, committed := p.committed || b.commit, step := b.stepTicks, stepping := b.step }

/-- R113: the opening frame of k − 1 brings no COMMIT for what is prepared for k. -/
def dropsPrepared (f : OpeningFrame) (p : Prepared) : Bool :=
  !f.inaug.commit && !p.committed && !p.stepping && p.k == f.cycle + 1

/-- A generation of which a frame's block tells, without its directory so far. -/
def announced (b : InaugBlock) : Prepared :=
  committedPrep b { prepared 0 ({ gen := b.nextGen, refUid := 0, leadVid := 0, nodes := 0, vehicles := [] }, []) with
    hash := b.nextHash, whole := false }

/-- R110–R113: PREPARE and COMMIT at a node that follows: of the generation in hand, or of another one in its place as long as
that is not committed with its directory. -/
def followInaug (f : OpeningFrame) (s : State) : State :=
  let b := f.inaug
  let put (p : Option Prepared) : State := modIna (fun n => { n with prep := p }) s
  if isFirst s then s
  else match s.ina.prep with
    | some p =>
      if p.hash == b.nextHash && (b.prepare || b.commit) then
        let q := committedPrep b p
        put (if dropsPrepared f q then none else some q)
      else if p.committed && (p.whole || !b.commit) then s
      else if b.prepare || b.commit then put (if dropsPrepared f (announced b) then none else some (announced b))
      else if dropsPrepared f p then put none
      else s
    | none =>
      if b.prepare || b.commit then put (if dropsPrepared f (announced b) then none else some (announced b)) else s

/-- A valid copy on a line: that line's δ and path (R166, R172, R177). -/
def openingLine (im : Image) (p : Nat) (f : OpeningFrame) (s : State) : State :=
  let lost := f.path == 0xFFFFFFFF
  let d := (arrival p f s).2
  modLine (lineOfPort p) (fun l => { l with
    delta := if lost then l.delta else d, valid := givesPath p s && !lost,
    rx := some (Fin.ofNat 4 p), sinceOpen := 0, copy := some f,
    spanExceeded := if lost then l.spanExceeded else 16 * im.spanNs < d }) s

/-- The first valid copy of a cycle: its poll vector and what its flags say (R138, R169, R170, R200, R203). -/
def openingFirst (im : Image) (f : OpeningFrame) (s : State) : State :=
  let s1 := modSched (fun d => { d with
    openOk := true, openClk := s.clk, variant := f.variant, noPoll := f.noPoll, afterRelease := false,
    poll := if f.noPoll then [] else f.poll, pollVariant := variantOf im f.cycle }) s
  followInaug f (followHeld f (modIna (fun n => { n with newest := newerGen n.newest f.inaug.gen }) s1))

/-- What a valid frame gives: its line's path, the poll and flags of the first copy, or the comparison of the second with
it, and a sample (R166–R173, R225). -/
def openingValid (im : Image) (p : Nat) (f : OpeningFrame) (tPin : Int) (s : State) : State :=
  let other := (lineState s (match lineOfPort p with | .a => .b | .b => .a)).copy
  let s1 := openingLine im p f s
  let s2 := if !s.sched.openOk then openingFirst im f s1
    else match other with
      | some g => if sameOpening f g then s1 else schedCount 3 s1
      | none => s1
  openingSample p f tPin s2

/-- A frame that fails R166 (R167, R168, R203). -/
def openingFailed (why p : Nat) (s : State) : State :=
  if why = 3 then schedCount 1 s
  else
    let s1 := schedCount 2 s
    if why ≠ 1 then s1
    else if s.sched.afterRelease then
      mismatchOnce p (enterSteep (modSched (fun d => { d with afterRelease := false }) s1))
    else if s.sched.badTagNow then s1
    else
      let s2 := modSched (fun d => { d with badTagNow := true, badTags := d.badTags + 1 }) s1
      if 3 ≤ s2.sched.badTags then
        let s3 := modSched (fun d => { d with badTags := 0 }) s2
        mismatchOnce p (if inSteep s3 then s3 else enterSteep s3)
      else s2

/-- R139: a contending node abandons its claim for a group's opening frame. -/
def openingContend (f : OpeningFrame) (s : State) : State :=
  if inContend s then
    if f.inaug.provisional then modIna (fun n => { n with st := .provMember, proofs := 0 }) s else enterSteep s
  else s

/-- R165: the copy that goes on, with this node's PATH. -/
def forwardedOpening (p : Nat) (f : OpeningFrame) (s : State) : OpeningFrame :=
  let l := lineState s (lineOfPort p)
  { f with path := if pathOk l s && onNdoelle (portOf s (acrossPort p)) then BitVec.ofNat 32 (l.delta + residence16) else 0xFFFFFFFF }

/-- The effect of an opening frame apart from forwarding it: a node that opens cycles itself only discards another group's
(R108). -/
def openingEffect (p : Nat) (f : OpeningFrame) (tPin : Int) (s : State) : State :=
  match s.sched.running with
  | none => s
  | some im =>
    let s1 := openingContend f s
    if foreignOpening f s1 then inaCount 6 s1
    else if opensCycles s1 then s1
    else match openingFault im p f tPin s1 with
      | some why => openingFailed why p s1
      | none => openingValid im p f tPin s1

/-- A bad frame that a port receives counts as an FCS error (R87), in Qualify as in Up and Resume; a fragment that an abort
code ended does not (R212). -/
def frameError (p : Nat) (fin : FrameEnd) (s : State) : State :=
  match fin with
  | .bad => if portCarries s p || linkHeld (portOf s p) then portCount p 1 s else s
  | _ => s

/-- An opening frame on port `p`: one cut short is dropped (R212), a bad one counts as an FCS error; the rest takes effect
and goes on (R165–R169). On a boundary port it is another group's, which a joined node discards (R92, R108). One that is bad,
or of another TYPE or version, is not passed on: its PATH could not be rewritten (DESIGN CHOICE, log 36). -/
def openingIn (p : Nat) (f : OpeningFrame) (tRx : Int) (fin : FrameEnd) (s : State) : State :=
  match fin with
  | .good =>
    if !(portUp s p) || onWtb s p || f.type ≠ 0x10 || f.version ≠ 1 then s
    else if isBoundary s p then (if joined s then inaCount 6 s else s)
    else
      let s1 := openingEffect p f (pinRx (portOf s p) tRx) (modIna (fun n => { n with quietClk := some s.clk }) s)
      forwardAtOnce p (.opening (forwardedOpening p f s1)) 208 s1
  | _ => frameError p fin s

/-- OPENING_FRAME_RX (R166). -/
def execOpeningFrameRx (dt : Nat) (p : Fin 4) (f : OpeningFrame) (tRx : Int) (fin : FrameEnd) (s : State) :
    Host.Outcome State Fault Refusal :=
  .next (openingIn p.val f tRx fin (begin_ dt s))

/-! ## What the instant does to the cycle just closed -/

/-- R171, R177: a line's own count of cycles without an opening frame. -/
def linePathClose (leads : Bool) (l : LinePath) : LinePath :=
  let since := if l.copy.isSome || leads then 0 else l.sinceOpen + 1
  { l with copy := none, sinceOpen := since, valid := l.valid && since < 8 }

/-- SLOT_PHASE: p = ε + 0.4 ns in whole ns, whose rounding the spec leaves open (log 3). -/
def slotPhase (starts : Bool) (s : State) : State :=
  let x := takeFree 2 s
  raise 0x0301 (leBytes 1 (b2n starts) ++ leBytes 2 (min 0xFFFF ((epsNs s).getD 0xFFFF + x.1))) x.2

/-- R177: PATH_INVALID of the closed cycle, once for each line. A fabric-attached node has no line. -/
def pathClose (s : State) : State :=
  let count (bad : Bool) (s : State) : State := if bad && !s.fab.attached then schedCount 7 s else s
  count (!pathOk s.sched.b s) (count (!pathOk s.sched.a s) s)

/-- The closing of a cycle: OPEN_MISSED, PATH_INVALID, wrong tags in a row, and the end of suppression (R168, R171,
R177, R183). -/
def cycleClose (s : State) : State :=
  match s.sched.running with
  | none => modSched (fun d => { d with openOk := false, poll := [], received := [] }) (pathClose s)
  | some _ =>
    let leads := opensCycles s
    let s3 := pathClose (if !leads && !s.sched.openOk then schedCount 0 s else s)
    let ended := s.sched.suppressing && !s.sched.suppressedNow
    let s4 := modSched (fun d => { d with
      a := linePathClose leads d.a, b := linePathClose leads d.b, openOk := false, poll := [], received := [],
      badTags := if d.badTagNow then d.badTags else 0, badTagNow := false,
      suppressing := d.suppressing && !ended, suppressedNow := false }) s3
    if ended then slotPhase false s4 else s4

/-- R210: the credits of every trunk port are restored. -/
def creditRestore (s : State) : State :=
  forEach (List.range 4) (fun p s => modPort p (fun t => { t with
    mgmtUsed := 0, sporUsed := 0, reported := false, upInstants := if portUp s p then t.upInstants + 1 else 0 }) s) s

/-! ## Forwarding and non-scheduled traffic (R37, R46, R158, R185, R206–R212) -/

/-- A trunk frame addressed to a port group of this node behind the switch core: it enters there by the trunk gateway
(R36). -/
def transitLocal (f : EthFrame) (s : State) : State := consistRx { f with port := 16, fcsOk := true } s



/-- Whether a frame of port `p` goes on to the port across (R37, R45, R92, R177): cut-through whatever its end, stored only
when good, a scheduled one never onto a T1 hop. -/
def transitGoes (p : Nat) (scheduled : Bool) (f : TransitFrame) (s : State) : Bool :=
  let q := acrossPort p
  forwards s p && !onWtb s q && f.local_.isNone && (cutsThrough p s || f.fin == .good) && !(scheduled && onT1 (portOf s q))

/-- A trunk frame on port `p`, at pin time `t`, that this node does not read (R36, R37, R43, R185, R208, R212): what the
node's own windows say it is decides how it fares. -/
def transitIn (p : Nat) (f : TransitFrame) (t : Int) (s : State) : State :=
  let s1 := frameError p f.fin s
  if !(portUp s p) || onWtb s p then s1
  else
    let s2 := if straysAt p t s then schedCount 9 s1 else s1
    let s3 := match f.local_, f.fin with
      | some e, .good => if straysAt p t s || isBoundary s p then s2 else transitLocal e s2
      | _, _ => s2
    if transitGoes p (scheduledAt p t s) f s then
      (if scheduledAt p t s then transitEmit (acrossPort p) (.raw f) s3 else transitOut (acrossPort p) (.raw f) s3)
    else s3

/-- TRUNK_FRAME_FORWARD (R36, R37). -/
def execTrunkFrameForward (dt : Nat) (p : Fin 4) (f : TransitFrame) (tRx : Int) (s : State) :
    Host.Outcome State Fault Refusal :=
  let s1 := begin_ dt s
  .next (transitIn p.val f (pinRx (portOf s1 p.val) tRx) s1)

/-- SPORADIC_ABORT (R212). -/
def execSporadicAbort (dt : Nat) (passing : List (Fin 4)) (s : State) : Host.Outcome State Fault Refusal :=
  let s1 := begin_ dt s
  .next (forEach passing (fun p s => emit (.abortCode p)
    (schedCount 12 (modPort p.val (fun t => { t with busyTill := s.clk }) s))) s1)

/-- NON_SCHEDULED_SEND (R208). -/
def execNonScheduledSend (dt : Nat) (p : Fin 4) (transitBusy : Bool) (s : State) : Host.Outcome State Fault Refusal :=
  .next (nonScheduled p.val transitBusy (begin_ dt s))

/-! ## Inauguration frames -/

/-- A BREAK on port `p` (R116, R117): passed on, and acted on where the directory in force numbers the node that is lost. -/
def breakIn (p : Nat) (b : BreakBody) (s : State) : State :=
  if !(portUp s p) || isBoundary s p then s
  else
    let known := (s.ina.dir.map (fun d => uidNumbered d b.lostUid)).getD false
    forwardFrame p (.breakF b) (if straysNow p s then schedCount 9 s else if known then scheduleRemoval b s else s)

/-- BREAK_RX (R116, R117). -/
def execBreakRx (dt : Nat) (p : Fin 4) (b : BreakBody) (s : State) : Host.Outcome State Fault Refusal :=
  .next (breakIn p.val b (begin_ dt s))

/-- A whole directory in force: kept by a node that may use it, with what it settles (R99, R106, R124, R138). -/
def takeDirectory (d : Directory) (s : State) : State :=
  if joined s then
    if d.gen = s.ina.gen then settleLeading (modIna (fun n => { n with dir := some d, dirAge := 0 }) s) else s
  else
    noteConflict (modIna (fun n => { n with
      gen := d.gen, dir := some d, dirAge := 0, members := walkOf d, newest := newerGen n.newest d.gen }) s)

/-- The moment at which a committed generation takes effect here, in own train time (R109, R135). -/
def switchTime (p : Prepared) (s : State) : Nat :=
  if p.stepping then (yieldSwitchTime s).getD s.now else cycleNear (cycleCount s) p.k * macroT s

/-- A whole prepared directory (R110), with what it leaves out (R99): one that comes later than 40 µs before its switch is not
held (R113). One that comes before any PREPARE is kept for two cycles at most, in which a PREPARE names its k (DESIGN CHOICE,
log 36). -/
def takePrepared (d : Directory) (s : State) : State :=
  let h := dirHash d
  let conf := leftOut d s
  match s.ina.prep with
  | some p =>
    if p.committed && p.whole then s
    else if p.committed && p.hash ≠ h then s
    else if p.committed && switchTime p s < s.now + usT 40 then s
    else modIna (fun n => { n with prep := some { p with dir := d, hash := h, whole := true, conf := conf } }) s
  | none => modIna (fun n => { n with prep := some (prepared (cycleNo s + 2) (d, conf)) }) s

/-- A DIRECTORY frame joins its other half and takes its place (R100). -/
def directoryIn (p : Nat) (f : DirFrame) (s : State) : State :=
  let rest := s.ina.partial_.filter (fun g => !(g.dirHash == f.dirHash && g.index == f.index) &&
    (g.prepared == f.prepared && g.isForeign == f.isForeign))
  let others := s.ina.partial_.filter (fun g => !(g.prepared == f.prepared && g.isForeign == f.isForeign))
  let mine := (f :: rest).filter (fun g => g.dirHash == f.dirHash)
  match assembleDir mine with
  | none => modIna (fun n => { n with partial_ := mine ++ others }) s
  | some d =>
    let s1 := modIna (fun n => { n with partial_ := others }) s
    if f.isForeign then mergeReport p (modIna (fun n => { n with foreignDir := some d }) s1)
    else if isFirst s then s1
    else if f.prepared then takePrepared d s1
    else takeDirectory d s1

/-- A DIRECTORY frame on port `p` (R100): a boundary port delivers only the other group's directory (R92). -/
def directoryOnTrunk (p : Nat) (d : DirFrame) (s : State) : State :=
  if !(portCarries s p) || (isBoundary s p && !d.isForeign) then s
  else if straysNow p s then forwardFrame p (.dir d) (schedCount 9 s)
  else if d.isForeign then directoryIn p d s
  else fabRelay (.dir d) (forwardFrame p (.dir d) (directoryIn p d s))

/-- DIRECTORY_RX (R100). -/
def execDirectoryRx (dt : Nat) (p : Fin 4) (d : DirFrame) (s : State) : Host.Outcome State Fault Refusal :=
  .next (directoryOnTrunk p.val d (begin_ dt s))

/-- A JOIN of the list replaced or added. -/
def putJoin (j : JoinBody) (l : List JoinBody) : List JoinBody := l.filter (fun x => x.uid ≠ j.uid) ++ [j]

/-- R126: a JOIN at the first node is an addition. One that a node left without a number repeats unchanged asks for nothing
new (R99; DESIGN CHOICE, log 36). -/
def joinFirst (j : JoinBody) (s : State) : State :=
  if s.ina.extra.contains j then s else modIna (fun n => { n with additions := putJoin j n.additions }) s

/-- R142: a JOIN at the provisional lead is a joiner. -/
def joinLead (j : JoinBody) (s : State) : State :=
  if s.ina.joiners.any (fun x => x.uid == j.uid) then s
  else modIna (fun n => { n with joiners := n.joiners ++ [j], provQuiet := 0, provJoin := true }) s

/-- A JOIN, at the first node or the provisional lead; elsewhere it is passed on, a fabric node's by the Active twin
(R509). -/
def joinIn (p : Option Nat) (j : JoinBody) (s : State) : State :=
  let lost := (p.map (fun p => straysNow p s)).getD false
  if keptOut p s then s
  else if lost then (match p with
    | some p => forwardFrame p (.join j) (schedCount 9 s)
    | none => s)
  else if isFirst s then joinFirst j s
  else if inProvLead s then joinLead j s
  else match p with
    | some p => forwardFrame p (.join j) s
    | none => inaugSend (trainPorts s) (.join j) s

/-- JOIN_RX (R126). -/
def execJoinRx (dt : Nat) (p : Option (Fin 4)) (j : JoinBody) (s : State) : Host.Outcome State Fault Refusal :=
  .next (joinIn (p.map (fun p => p.val)) j (begin_ dt s))

/-- A COLD_CLAIM on port `p` (R138, R139, R142): every node forwards it and keeps its generation; a contending node of lower
rank becomes a provisional member. -/
def coldClaimIn (p : Nat) (c : ColdClaim) (s : State) : State :=
  if !(portUp s p) || isBoundary s p then s
  else
    let s1 := forwardFrame p (.coldClaim c) s
    if straysNow p s then schedCount 9 s1
    else
      let s2 := modIna (fun n => { n with heardGens := (n.heardGens ++ [c.newestGen]).eraseDups }) s1
      if inContend s2 && (ownRank s2).toNat < c.rank.toNat then
        modIna (fun n => { n with st := .provMember, proofs := 0, leadNext := false }) s2
      else s2

/-- COLD_CLAIM_RX (R138, R139). -/
def execColdClaimRx (dt : Nat) (p : Fin 4) (c : ColdClaim) (s : State) : Host.Outcome State Fault Refusal :=
  .next (coldClaimIn p.val c (begin_ dt s))

/-- A MERGE_REPORT (R128, R131): taken at the first node, passed on by any other and where it strays (R151, R185). -/
def mergeReportIn (p : Nat) (m : MergeReport) (s : State) : State :=
  if !(portUp s p) || isBoundary s p then s
  else if straysNow p s then forwardLen p (.mergeReport m) (reportLen m) (schedCount 9 s)
  else if !(isFirst s) then forwardLen p (.mergeReport m) (reportLen m) s
  else if (s.ina.dir.map (fun d => uidNumbered d m.partner.uid)).getD false then s
  else if sameSchedule m.partner s then modIna (fun n => { n with mergeWait := some m }) s
  else raise 0x0202 (leBytes 1 m.port.val ++ leBytes 8 m.partner.uid.toNat) s

/-- MERGE_REPORT_RX (R128, R131). -/
def execMergeReportRx (dt : Nat) (p : Fin 4) (m : MergeReport) (s : State) : Host.Outcome State Fault Refusal :=
  .next (mergeReportIn p.val m (begin_ dt s))

/-- A LEAD_SET (R106): a new identity is an addition at the first node; any other node passes one from the trunk on, and so
does one in whose slot region it strays (R151, R185). -/
def leadSetIn (p : Option Nat) (vid : BitVec 48) (s : State) : State :=
  let pass (s : State) : State := match p with | some p => forwardFrame p (.leadSet vid) s | none => s
  if keptOut p s then s
  else if (p.map (fun p => straysNow p s)).getD false then pass (schedCount 9 s)
  else if !(isFirst s) then pass s
  else if (s.ina.dir.map (fun d => d.leadVid)) = some vid then s
  else modIna (fun n => { n with leadNew := some vid }) s

/-- LEAD_SET_RX (R106). -/
def execLeadSetRx (dt : Nat) (p : Option (Fin 4)) (vid : BitVec 48) (s : State) : Host.Outcome State Fault Refusal :=
  .next (leadSetIn (p.map (fun p => p.val)) vid (begin_ dt s))

/-- COLD_START_TIMEOUT (R122, R138). -/
def execColdStartTimeout (dt : Nat) (s : State) : Host.Outcome State Fault Refusal :=
  let s1 := begin_ dt s
  .next (if mayContend s1 && quietLong s1 && !isFirst s1 && !inProvLead s1 && !inContend s1 && !inBackbone s1 then
    enterContend s1 else s1)

/-- COLD_CLAIM_SEND (R138): on every Up trunk port, as a management-class frame (R207). -/
def execColdClaimSend (dt : Nat) (s : State) : Host.Outcome State Fault Refusal :=
  let s1 := begin_ dt s
  .next (if inContend s1 then
      inaugSend (upPorts s1) (.coldClaim (ownColdClaim s1)) (modIna (fun n => { n with claimSeq := n.claimSeq + 1 }) s1)
    else s1)

/-- R250: the selected domain is locked and traceable. -/
def traceableNow (s : State) : Bool :=
  match s.time.ptp[s.time.selected.val]? with
  | some d => d.locked && d.gm.traceable
  | none => false

/-- CONTEND_TIMEOUT (R139): provisional lead at the next instant. -/
def execContendTimeout (dt : Nat) (s : State) : Host.Outcome State Fault Refusal :=
  let s1 := begin_ dt s
  .next (if inContend s1 && s1.ina.contendClk + msT 10 ≤ s1.clk then modIna (fun n => { n with leadNext := true }) s1 else s1)

/-- R139: the instant that makes a contending node provisional lead. It opens cycles by its own count, so its time unit enters
Master (R232; DESIGN CHOICE, log 36: the spec names the first node only). -/
def leadAtInstant (s : State) : State :=
  if s.ina.leadNext && inContend s then
    becomeMaster (modIna (fun n => { n with
      st := .provLead, leadNext := false, provQuiet := 0, provJoin := false, joiners := [], dir := none,
      members := [{ uid := s.sys.uid, vid := s.ina.vid, twinB := s.ina.twinB, dirToRef := false }] }) s)
  else s

/-- R250: a node that has become provisional lead under a traceable domain steps its count to TT + O_out before its first
provisional cycle. -/
def leadStep (was s : State) : State :=
  if inContend was && inProvLead s && traceableNow s then stepCount s.time.oOut 0 s else s

/-- R142: a provisional cycle that ends, with or without a new JOIN. -/
def provisionalAtInstant (s : State) : State :=
  if inProvLead s then modIna (fun n => { n with provQuiet := if n.provJoin then 0 else n.provQuiet + 1, provJoin := false }) s
  else s

/-- PROVISIONAL_NO_JOIN (R142). -/
def execProvisionalNoJoin (dt : Nat) (s : State) : Host.Outcome State Fault Refusal :=
  let s1 := begin_ dt s
  .next (if inProvLead s1 && 2 ≤ s1.ina.provQuiet && s1.ina.prep.isNone then prepareFirst s1 else s1)

/-! ## Mailbox commands -/

/-- SCHED_STATUS. -/
def schedStatusSpec : CmdSpec := plainSpec 0x0301 4 ([(0, 0xFE)] ++ zeros 1 3)

/-- The schedule status record (R216). -/
def schedRecord (s : State) : List Byte :=
  let d := s.sched
  recBytes 116 ([(0, 16, (d.running.map (fun im => im.cycleUs)).getD 0), (16, 8, d.variant.toNat), (24, 1, b2n d.heldFlag),
    (25, 1, b2n d.noPoll), (26, 1, b2n d.verified.isSome), (27, 1, b2n d.activated),
    (28, 1, b2n (d.a.spanExceeded || d.b.spanExceeded)), (29, 1, b2n (pathOk d.a s)), (30, 1, b2n (pathOk d.b s)),
    (32, 32, d.cycle.toNat), (64, 32, d.a.delta), (96, 32, d.b.delta),
    (128, 16, (d.running.map (fun im => im.guardNs)).getD 0), (160, 256, (ownHash s).toNat)] ++
    ctrFields d.ctr [416, 448, 480, 512, 544, 576, 608, 640, 672, 704, 736, 768, 800, 832, 864] 883)

/-- The record, its counters cleared where asked. -/
def schedStatusBody (r : Ring) (s : State) : Reply × State :=
  (done (schedRecord s), if clearAsked r.req 0 then modSched (fun d => { d with ctr := ctrClear d.ctr }) s else s)

/-- SCHED_STAGE. -/
def schedStageSpec : CmdSpec :=
  { flashSpec 0x0302 12 (zeros 6 7) with maxLen := 2056, tied := some (4, 2, 8, 1) }

/-- R198: n bytes of image; offset 0 discards what was staged. -/
def schedStageBody (r : Ring) (s : State) : Reply × State :=
  let off := fieldAt r.req 0 4
  let n := fieldAt r.req 4 2
  if off % 4 ≠ 0 then (outOfRange 0, s)
  else if n < 4 || 2048 < n || n % 4 ≠ 0 then (outOfRange 4, s)
  else if 262144 < off + n then (outOfRangeAll, s)
  else
    let base := if off = 0 then ([] : Mem) else s.sched.stagedBytes
    let len := if off = 0 then 0 else s.sched.stagedLen
    (done [], modSched (fun d => { d with
      stagedBytes := memWrite base off (r.req.drop 8), stagedLen := max len (off + n), verified := none, activated := false }) s)

/-- SCHED_VERIFY. -/
def schedVerifySpec : CmdSpec := { flashSpec 0x0303 4 (zeros 0 3) with slow := true }

/-- R199: the checks of R197. -/
def schedVerifyBody (_r : Ring) (s : State) : Reply × State :=
  let b := memRead s.sched.stagedBytes 0 s.sched.stagedLen
  match imageCheck b with
  | some c => ({ status := 0x0107, detail := c.1, rsp := leBytes 2 c.1 ++ leBytes 2 c.2, arg := 0 }, s)
  | none =>
    let im := imageOf b
    (done (leBytes 32 im.hash.toNat), modSched (fun d => { d with verified := some im }) s)

/-- SCHED_HOLD. -/
def schedHoldSpec : CmdSpec := plainSpec 0x0304 4 (zeros 0 3)

/-- R200: the first node only, when Joined. -/
def schedHoldBody (_r : Ring) (s : State) : Reply × State :=
  if isFirst s then (queued 0, modSched (fun d => { d with holdAsked := true }) s)
  else (notInState (inaugCode s.ina.st), s)

/-- SCHED_ACTIVATE. -/
def schedActivateSpec : CmdSpec := { flashSpec 0x0305 4 (zeros 0 3) with flash := false }

/-- R201: at once in steep, at the release in Held. -/
def schedActivateBody (_r : Ring) (s : State) : Reply × State :=
  match s.ina.st, s.sched.verified with
  | .steep, some im =>
    let s1 := modIna (fun n => { n with mismatch := false }) (runImage im s)
    (done [], if cycleUs s1 = cycleUs s then s1 else macroChange s1)
  | .held, some _ => (done [], modSched (fun d => { d with activated := true }) s)
  | .steep, none => (notInStateAll, s)
  | .held, none => (notInStateAll, s)
  | st, _ => (notInState (inaugCode st), s)

/-- SCHED_RELEASE. -/
def schedReleaseSpec : CmdSpec := plainSpec 0x0306 4 (zeros 0 3)

/-- R202: instants up to the release: the earliest at least 2 macrocycles ahead at a multiple of 4,000 µs. -/
def releaseCount (s : State) : Nat :=
  let t := (s.now + 2 * macroT s + usT 4000 - 1) / usT 4000 * usT 4000
  (t - lastInstant s) / macroT s

/-- R202: the first node only, in Held. -/
def schedReleaseBody (_r : Ring) (s : State) : Reply × State :=
  match s.ina.st with
  | .held => if isFirst s then (queued 0, modSched (fun d => { d with release := some (releaseCount s) }) s)
             else (notInState 5, s)
  | st => (notInState (inaugCode st), s)

/-- SCHED_ENTRY_STATUS. -/
def schedEntryStatusSpec : CmdSpec := plainSpec 0x0307 4 [(2, 0xFE), (3, 0xFF)]

/-- A flow of this node consumes the entry. -/
def entryConsumed (n : Nat) (s : State) : Bool :=
  s.flow.ctx.any (fun e => e.2.enable && !e.2.produce && e.2.transport == 0 && e.2.entry.toNat == n)

/-- The counters of an entry. -/
def entryCtrs (n : Nat) (s : State) : Ctrs := (tblGet s.sched.entryCtr n).getD (Ctrs.zero 5)

/-- A count of entry `n`'s record. -/
def entryCount (n i : Nat) (s : State) : State :=
  modSched (fun d => { d with entryCtr := tblSet d.entryCtr n (ctrInc ((tblGet d.entryCtr n).getD (Ctrs.zero 5)) i) }) s

/-- The entry status record (R216). -/
def entryRecord (n : Nat) (e : Entry) (s : State) : List Byte :=
  recBytes 28 ([(0, 12, n), (12, 1, b2n (entryOwn e s)), (13, 1, b2n (entryConsumed n s))] ++
    ctrFields (entryCtrs n s) [32, 64, 96, 128, 160] 191)

/-- The record, its counters cleared where asked. -/
def schedEntryStatusBody (r : Ring) (s : State) : Reply × State :=
  let n := fieldAt r.req 0 2
  match s.sched.running.bind (fun im => entryAt im n) with
  | some e => (done (entryRecord n e s),
      if clearAsked r.req 2 then modSched (fun d => { d with entryCtr := tblErase d.entryCtr n }) s else s)
  | none => (outOfRange 0, s)

/-- SCHED_STATUS (R216). -/
def execSchedStatus (dt : Nat) (r : Ring) (s : State) : Host.Outcome State Fault Refusal :=
  .next (submit schedStatusSpec schedStatusBody dt r s)

/-- SCHED_STAGE (R198). -/
def execSchedStage (dt : Nat) (r : Ring) (s : State) : Host.Outcome State Fault Refusal :=
  .next (submit schedStageSpec schedStageBody dt r s)

/-- SCHED_VERIFY (R199). -/
def execSchedVerify (dt : Nat) (r : Ring) (s : State) : Host.Outcome State Fault Refusal :=
  .next (submit schedVerifySpec schedVerifyBody dt r s)

/-- SCHED_HOLD (R200). -/
def execSchedHold (dt : Nat) (r : Ring) (s : State) : Host.Outcome State Fault Refusal :=
  .next (submit schedHoldSpec schedHoldBody dt r s)

/-- SCHED_RELEASE (R202). -/
def execSchedRelease (dt : Nat) (r : Ring) (s : State) : Host.Outcome State Fault Refusal :=
  .next (submit schedReleaseSpec schedReleaseBody dt r s)

/-- SCHED_ENTRY_STATUS (R216). -/
def execSchedEntryStatus (dt : Nat) (r : Ring) (s : State) : Host.Outcome State Fault Refusal :=
  .next (submit schedEntryStatusSpec schedEntryStatusBody dt r s)

end Sys2Proof.Machine
end

