-- ==== Sys2Proof/Machine/FlowArea.lean ====
section
/-! DEFINITION. The process-data image (R264–R276) and the flow contexts (R277, R278, R718): areas, headers, banks, the
checks of a context, and its commands. -/

namespace Sys2Proof.Machine

/-! ## Contexts -/

/-- A context not in use. -/
def flowCtxZero : FlowCtx where
  flowId := 0
  enable := false
  produce := false
  lines := 0
  fallback := false
  claim := false
  transport := 0
  svc := 0
  macsec := false
  entry := 0
  imgBlock := 0
  len := 0
  period := 0
  freshLimit := 0
  expectRole := 0
  safeIdx := 0
  safe := false
  safeSrcId := 0
  tmax := 0
  seqWindow := 0
  cat3 := false

/-- The run-time state of a context that starts. -/
def flowRunZero : FlowRun where
  seq := 0
  fresh := 0
  age := 0
  valid := false
  claim := none
  keptSeq := none
  acceptedSince := false
  taken := none
  claimChanged := false
  safeState := false
  safeOk := false
  safeBase := none
  safeCount := 0
  safeSeen := false
  sinceSafe := 0
  safeNow := false
  seqUsed := true
  lineB := false
  telegram := none
  ctr := Ctrs.zero 14

/-- Context `i`. -/
def ctxOf (s : State) (i : Nat) : FlowCtx := (tblGet s.flow.ctx i).getD flowCtxZero

/-- Its run-time state. -/
def runOf (s : State) (i : Nat) : FlowRun := (tblGet s.flow.run i).getD flowRunZero

/-- Its run-time state changed. -/
def modRun (i : Nat) (f : FlowRun → FlowRun) (s : State) : State :=
  modFlow (fun w => { w with run := tblSet w.run i (f ((tblGet w.run i).getD flowRunZero)) }) s

/-- A counter of the flow status record counts: 0 SENT, 1 RECEIVED, 2 EMPTY, 3 STALE, 4 ELIM, 5 OUT_OF_ORDER,
6 CLAIM_REJECT, 7 ROLE_MISMATCH, 8 GEN_DISCARD, 9 LEN_ERR, 10 SAFE_CRC, 11 SAFE_SEQ, 12 SAFE_TIMEOUT, 13 MACSEC_FAIL. -/
def flowCount (i k : Nat) (s : State) : State := modRun i (fun r => { r with ctr := ctrInc r.ctr k }) s

/-- The 32 bytes of a context record (R277). -/
def ctxBytes (c : FlowCtx) : List Byte :=
  recBytes 32 [(0, 16, c.flowId.toNat), (16, 1, b2n c.enable), (17, 1, b2n c.produce), (18, 2, c.lines.toNat),
    (20, 1, b2n c.fallback), (21, 1, b2n c.claim), (22, 2, c.transport.toNat), (24, 4, c.svc.toNat),
    (28, 1, b2n c.macsec), (32, 12, c.entry.toNat), (48, 10, c.imgBlock.toNat), (64, 11, c.len.toNat),
    (80, 8, c.period.toNat), (88, 8, c.freshLimit.toNat), (96, 16, c.expectRole.toNat), (112, 7, c.safeIdx.toNat),
    (119, 1, b2n c.safe), (128, 32, c.safeSrcId.toNat), (160, 8, c.tmax.toNat), (168, 8, c.seqWindow.toNat),
    (176, 1, b2n c.cat3)]

/-- The context a record of 32 bytes describes. -/
def ctxOfBytes (b : List Byte) : FlowCtx :=
  let v := leNat (b.take 32)
  { flowId := BitVec.ofNat 16 v, enable := v.testBit 16, produce := v.testBit 17, lines := BitVec.ofNat 2 (bitsOf v 18 2),
    fallback := v.testBit 20, claim := v.testBit 21, transport := BitVec.ofNat 2 (bitsOf v 22 2),
    svc := BitVec.ofNat 4 (bitsOf v 24 4), macsec := v.testBit 28, entry := BitVec.ofNat 12 (bitsOf v 32 12),
    imgBlock := BitVec.ofNat 10 (bitsOf v 48 10), len := BitVec.ofNat 11 (bitsOf v 64 11),
    period := BitVec.ofNat 8 (bitsOf v 80 8), freshLimit := BitVec.ofNat 8 (bitsOf v 88 8),
    expectRole := BitVec.ofNat 16 (bitsOf v 96 16), safeIdx := BitVec.ofNat 7 (bitsOf v 112 7), safe := v.testBit 119,
    safeSrcId := BitVec.ofNat 32 (bitsOf v 128 32), tmax := BitVec.ofNat 8 (bitsOf v 160 8),
    seqWindow := BitVec.ofNat 8 (bitsOf v 168 8), cat3 := v.testBit 176 }

/-- ISLAND_SRC of an island flow. -/
def islandSrc (c : FlowCtx) : Byte := BitVec.ofNat 8 c.entry.toNat

/-! ## Areas (R275, R276) -/

/-- Blocks of an area of payload length `len`. -/
def blocksOf (len : Nat) : Nat := (8 + len + 63) / 64

/-- First byte of a context's area. -/
def areaBase (c : FlowCtx) : Nat := 64 * c.imgBlock.toNat

/-- Blocks of a context's area. -/
def areaBlocks (c : FlowCtx) : Nat := blocksOf c.len.toNat

/-- A block lies in the context's area. -/
def ownsBlock (c : FlowCtx) (b : Nat) : Bool :=
  c.enable && c.imgBlock.toNat ≤ b && b < c.imgBlock.toNat + areaBlocks c

/-- The enabled context whose area holds block `b`. -/
def blockOwner (s : State) (b : Nat) : Option (Nat × FlowCtx) := s.flow.ctx.find? (fun e => ownsBlock e.2 b)

/-- Bank 1 or bank 0 of the produced blocks. -/
def bankOf (w : Flow) (one : Bool) : Mem := if one then w.bank1 else w.bank0

/-- A bank changed. -/
def setBank (one : Bool) (f : Mem → Mem) (s : State) : State :=
  modFlow (fun w => if one then { w with bank1 := f w.bank1 } else { w with bank0 := f w.bank0 }) s

/-- The current output bank. -/
def outBank (s : State) : Mem := bankOf s.flow s.flow.outBank1

/-- The bank being prepared. -/
def nextBank (s : State) : Mem := bankOf s.flow (!s.flow.outBank1)

/-- The current output bank changed. -/
def modOut (f : Mem → Mem) (s : State) : State := setBank s.flow.outBank1 f s

/-- The next bank changed. -/
def modNext (f : Mem → Mem) (s : State) : State := setBank (!s.flow.outBank1) f s

/-- Bytes of the flow `i`'s published payload at an offset (R421, R463). -/
def readPublished (s : State) (i off n : Nat) : List Byte := memRead (outBank s) (areaBase (ctxOf s i) + 8 + off) n

/-- Bytes written into a produced flow's payload in the next bank (R422, R464). -/
def writeLinked (i off : Nat) (data : List Byte) (s : State) : State :=
  modNext (fun m => memWrite m (areaBase (ctxOf s i) + 8 + off) data) s

/-- The 8 bytes of an area header. -/
def headerBytes (fresh age flags claim : Nat) : List Byte :=
  leBytes 2 fresh ++ leBytes 1 age ++ leBytes 1 flags ++ leBytes 4 claim

/-- The next window as it reads (R264). -/
def nextWindow (s : State) (off n : Nat) : List Byte :=
  (List.range n).map (fun k => match blockOwner s ((off + k) / 64) with
    | some e => if e.2.produce then memGet (nextBank s) (off + k) else 0
    | none => 0)

/-- R276: a produced scheduled flow whose entry the opening frame of the cycle does not poll is not sent. -/
def unpolled (c : FlowCtx) (s : State) : Bool :=
  c.transport == 0 && !inBackbone s && !(polledEntries s).contains c.entry.toNat

/-- A byte of a produced area in the current window: VALID of its header follows the poll of the cycle. -/
def producedShown (c : FlowCtx) (a : Nat) (s : State) : Byte :=
  let v := memGet (outBank s) a
  if a = areaBase c + 3 && unpolled c s then v &&& 0xFE else v

/-- The current window as it reads (R264). -/
def currentWindow (s : State) (off n : Nat) : List Byte :=
  (List.range n).map (fun k => match blockOwner s ((off + k) / 64) with
    | some e => if e.2.produce then producedShown e.2 (off + k) s else memGet s.flow.cons (off + k)
    | none => 0)

/-! ## The checks of R278 -/

/-- Frame length of a flow on its entry (R279, R278). -/
def flowFrameLen (c : FlowCtx) : Nat := max 64 (c.len.toNat + 46) + (if c.macsec then 32 else 0)

/-- R279, R298: the length of a flow frame on the line. -/
def flowWireLen (f : FlowFrame) : Nat := max 64 (f.len + 46) + (if f.sec.isSome then 32 else 0)

/-- Payload offsets at which a scheduled context fails against an image. -/
def imageMisfits (c : FlowCtx) (im : Image) : List Nat :=
  match entryAt im c.entry.toNat with
  | none => [8]
  | some e => (if e.len < flowFrameLen c then [12] else []) ++ (if c.lines &&& ~~~ (e.lines.setWidth 2) ≠ 0 then [6] else [])

/-- The context is a scheduled one. -/
def isScheduled (c : FlowCtx) : Bool := c.transport == 0

/-- EXPECT_ROLE is a ROLE of R188, or any. -/
def expectRoleOk (r : BitVec 16) : Bool :=
  r = 0xFFFF ||
  (r.toNat / 1024 % 4 = 0 && r.toNat / 16384 = 0 && (r.toNat / 4096 % 4 ≠ 1 || r.toNat % 16 = 0) &&
    (r.toNat / 4096 % 4 ≠ 3 || r.toNat % 1024 = 0))

/-- Payload offsets of fields the context uses that lie outside their range. -/
def fieldOffenders (c : FlowCtx) : List Nat :=
  (if c.flowId = 0 then [4] else []) ++ (if c.lines = 0 || c.transport = 3 then [6] else []) ++
  (if c.transport = 2 && 256 ≤ c.entry.toNat then [9] else []) ++
  (if c.len = 0 || 1472 < c.len.toNat then [12] else []) ++
  (if c.transport = 1 && c.period = 0 then [14] else []) ++
  (if !c.produce && c.freshLimit = 0 then [15] else []) ++
  (if !c.produce && !(expectRoleOk c.expectRole) then [16] else []) ++
  (if c.safe && !c.produce && c.tmax = 0 then [24] else []) ++
  (if c.safe && !c.produce && c.seqWindow = 0 then [25] else [])

/-- Two areas share a block. -/
def areasMeet (a b : FlowCtx) : Bool :=
  a.imgBlock.toNat < b.imgBlock.toNat + areaBlocks b && b.imgBlock.toNat < a.imgBlock.toNat + areaBlocks a

/-- Payload offsets at which a context fails against the node's other enabled contexts, its key and itself. -/
def relationOffenders (c : FlowCtx) (others : List FlowCtx) (keyed : Bool) : List Nat :=
  (if others.any (fun o => o.flowId == c.flowId) then [4] else []) ++
  (if 1024 < c.imgBlock.toNat + areaBlocks c || others.any (areasMeet c) then [10] else []) ++
  (if c.produce && isScheduled c && others.any (fun o => o.produce && isScheduled o && o.entry == c.entry) then [8] else []) ++
  (if c.safe && others.any (fun o => o.safe && o.safeIdx == c.safeIdx) then [18] else []) ++
  (if c.safe && c.cat3 && !c.macsec then [26] else []) ++
  (if c.macsec && !keyed then [7] else []) ++
  (if c.transport = 1 && !c.produce && c.freshLimit.toNat < c.period.toNat then [15] else [])

/-- R278: the first offending byte of a context that FLOW_SET would write as number `i`. -/
def ctxOffender (i : Nat) (c : FlowCtx) (view : Tbl FlowCtx) (im : Option Image) (keyed : Bool) : Option Nat :=
  if !c.enable then none
  else
    let others := (view.filter (fun e => e.1 ≠ i && e.2.enable)).map (fun e => e.2)
    let img := match im with | some im => if isScheduled c then imageMisfits c im else [] | none => []
    (sortNat (fieldOffenders c ++ relationOffenders c others keyed ++ img)).head?

/-- The contexts as written, in effect or not. -/
def ctxWritten (s : State) : Tbl FlowCtx := s.flow.ctxNext.foldl (fun t e => tblSet t e.1 e.2) s.flow.ctx

/-! ## When contexts take effect (R277, R278, R718) -/

/-- R290, R423, R465: the links of the channels and segments judged after a change of contexts. -/
def checkLinks (s : State) : State :=
  mvbCheckLinks 1 (mvbCheckLinks 0 (forEach (List.range 12) canCheckLinks s))

/-- A safe consumed context starts in safe state, its payload at 0; any other is out of it (R296). -/
def safeStart (c : FlowCtx) (r : FlowRun) : FlowRun :=
  if c.enable && c.safe && !c.produce then
    { r with safeState := true, safeOk := false, safeBase := none, safeCount := 0, safeSeen := false, sinceSafe := 0,
             safeNow := false, valid := false, acceptedSince := false }
  else { r with safeState := false, safeOk := false, safeBase := none, safeCount := 0, safeSeen := false, sinceSafe := 0,
                safeNow := false }

/-- The area of a context written with 0 in both banks and in the consumed values. -/
def zeroArea (c : FlowCtx) (s : State) : State :=
  let clr (m : Mem) : Mem := memClear m (areaBase c) (64 * areaBlocks c)
  modFlow (fun w => { w with bank0 := clr w.bank0, bank1 := clr w.bank1, cons := clr w.cons }) s

/-- R718: one written context takes effect. -/
def applyCtx (i : Nat) (c : FlowCtx) (s : State) : State :=
  let old := ctxOf s i
  let keep := old.enable && c.enable && old.flowId == c.flowId && old.produce == c.produce
  let sameArea := keep && old.imgBlock == c.imgBlock && old.len == c.len
  let s1 := if c.enable && !sameArea then zeroArea c s else s
  let safeChange := old.safe != c.safe || old.safeSrcId != c.safeSrcId || old.cat3 != c.cat3
  let fix (r : FlowRun) : FlowRun :=
    if keep then (if safeChange then safeStart c r else r)
    else safeStart c { flowRunZero with ctr := r.ctr }
  let s2 := modRun i fix s1
  let s3 := if keep && safeChange && c.safe && !c.produce then
      modFlow (fun w => { w with cons := memClear w.cons (areaBase c + 8) c.len.toNat }) s2 else s2
  modFlow (fun w => { w with ctx := tblSet w.ctx i c }) s3

/-- R278: each enabled scheduled context judged against the running image; one that fails is disabled, with
FLOW_CONFIG. -/
def judgeContexts (s : State) : State :=
  match s.sched.running with
  | none => s
  | some im =>
    let bad := (s.flow.ctx.filter (fun e => e.2.enable && isScheduled e.2 && !(imageMisfits e.2 im).isEmpty)).map (fun e => e.1)
    let s1 := forEach bad (fun i s => raise 0x0504 (leBytes 2 i)
      (modFlow (fun w => { w with ctx := tblSet w.ctx i { ctxOf s i with enable := false } }) s)) s
    if bad.isEmpty then s1 else checkLinks s1

/-- R277: the contexts written since the last instant take effect. -/
def applyContexts (s : State) : State :=
  if s.flow.ctxNext.isEmpty then s
  else
    let s1 := forEach s.flow.ctxNext (fun e s => applyCtx e.1 e.2 s) (modFlow (fun w => { w with ctxNext := [] }) s)
    checkLinks (judgeContexts s1)

/-! ## Commands (R312, R313) -/

/-- FLOW_SET. -/
def flowSetSpec : CmdSpec :=
  plainSpec 0x0501 36 (zeros 2 3 ++ [(7, 0xE0), (9, 0xF0), (11, 0xFC), (13, 0xF8), (19, 0xFF), (26, 0xFE)] ++ zeros 27 35)

/-- R278, R277. -/
def flowSetBody (r : Ring) (s : State) : Reply × State :=
  let i := fieldAt r.req 0 2
  let c := ctxOfBytes (r.req.drop 4)
  if 512 ≤ i then (outOfRange 0, s)
  else match ctxOffender i c (ctxWritten s) s.sched.running s.flow.key.isSome with
    | some off => (outOfRange off, s)
    | none => (done [], modFlow (fun w => { w with ctxNext := tblSet w.ctxNext i c }) s)

/-- FLOW_GET. -/
def flowGetSpec : CmdSpec := plainSpec 0x0502 4 (zeros 2 3)

/-- The record as last written. -/
def flowGetBody (r : Ring) (s : State) : Reply × State :=
  let i := fieldAt r.req 0 2
  if 512 ≤ i then (outOfRange 0, s) else (done (ctxBytes ((tblGet (ctxWritten s) i).getD flowCtxZero)), s)

/-- FLOW_STATUS. -/
def flowStatusSpec : CmdSpec := plainSpec 0x0503 4 ([(2, 0xFE)] ++ zeros 3 3)

/-- The flow status record (R313). -/
def flowRecord (i : Nat) (s : State) : List Byte :=
  let c := ctxOf s i
  let x := runOf s i
  recBytes 80 ([(0, 1, b2n (if c.produce then (producedShown c (areaBase c + 3) s).getLsbD 0 else x.valid)), (1, 1, b2n x.safeOk), (2, 1, b2n x.safeState),
    (3, 1, b2n (c.enable && c.produce && holdsHighest c.svc.toNat s)), (4, 1, b2n x.lineB), (16, 16, x.fresh.toNat),
    (32, 32, x.seq.toNat), (64, 32, if c.produce then (ownClaim c.svc.toNat s).toNat else (x.claim.getD 0).toNat),
    (96, 8, if c.produce then 0 else x.age)] ++
    ctrFields x.ctr ((List.range 14).map (fun n => 128 + 32 * n)) 572)

/-- The record, its counters cleared where asked. -/
def flowStatusBody (r : Ring) (s : State) : Reply × State :=
  let i := fieldAt r.req 0 2
  if 512 ≤ i then (outOfRange 0, s)
  else (done (flowRecord i s), if clearAsked r.req 2 then modRun i (fun x => { x with ctr := ctrClear x.ctr }) s else s)

/-- FLOW_SAVE. -/
def flowSaveSpec : CmdSpec := flashSpec 0x0504 4 (zeros 0 3)

/-- Queued; the store is the queued work. -/
def flowSaveBody (_r : Ring) (s : State) : Reply × State := (queued 0, s)

/-- All contexts stored in flash. -/
def flowSaveWork (s : State) : State := modFlow (fun w => { w with saved := ctxWritten s }) s

/-- FLOW_MACSEC_KEY. -/
def flowMacsecKeySpec : CmdSpec := { flashSpec 0x0505 32 [] with noRemote := true }

/-- R299: the connectivity association key. -/
def flowMacsecKeyBody (r : Ring) (s : State) : Reply × State := (done [], modFlow (fun w => { w with key := some r.req }) s)

/-- FLOW_SET (R277, R278). -/
def execFlowSet (dt : Nat) (r : Ring) (s : State) : Host.Outcome State Fault Refusal :=
  .next (submit flowSetSpec flowSetBody dt r s)

/-- FLOW_GET (R312). -/
def execFlowGet (dt : Nat) (r : Ring) (s : State) : Host.Outcome State Fault Refusal :=
  .next (submit flowGetSpec flowGetBody dt r s)

/-- FLOW_STATUS (R313). -/
def execFlowStatus (dt : Nat) (r : Ring) (s : State) : Host.Outcome State Fault Refusal :=
  .next (submit flowStatusSpec flowStatusBody dt r s)

/-- FLOW_SAVE (R312). -/
def execFlowSave (dt : Nat) (r : Ring) (s : State) : Host.Outcome State Fault Refusal :=
  .next (submit flowSaveSpec flowSaveBody dt r s)

/-- FLOW_MACSEC_KEY (R299). -/
def execFlowMacsecKey (dt : Nat) (r : Ring) (s : State) : Host.Outcome State Fault Refusal :=
  .next (submit flowMacsecKeySpec flowMacsecKeyBody dt r s)

/-- SCHED_ACTIVATE in full: R201, and R278 for an image that begins to run at once. -/
def schedActivateFull (r : Ring) (s : State) : Reply × State :=
  let x := schedActivateBody r s
  if inSteep s && x.1.status = 0 then (x.1, judgeContexts x.2) else x

/-- SCHED_ACTIVATE (R201). -/
def execSchedActivate (dt : Nat) (r : Ring) (s : State) : Host.Outcome State Fault Refusal :=
  .next (submit schedActivateSpec schedActivateFull dt r s)

end Sys2Proof.Machine
end

