-- ==== Sys2Proof/Machine/FlowRx.lean ====
section
/-! DEFINITION. Flow frames received (R184, R185, R281–R297), MACsec on the trunk (R298, R299), and what an instant does
to each flow (R285–R287, R295–R302). -/

namespace Sys2Proof.Machine

/-! ## Windows (R175, R184, R185) -/

/-- A polled entry's frame has come on a line: recorded for R187 and counted in the entry. -/
def entryReceived (n : Nat) (lineB : Bool) (s : State) : State :=
  entryCount n 1 (modSched (fun d => { d with received := (2 * n + b2n lineB) :: d.received }) s)

/-- WINDOW_VIOL of the schedule and of the entry. -/
def windowViolation (n : Nat) (s : State) : State := entryCount n 2 (schedCount 8 s)

/-! ## MACsec on the trunk (R298, R299) -/

/-- EPOCH: bits [31:18] of the cycle number. -/
def epochNow (s : State) : BitVec 14 := BitVec.ofNat 14 ((cycleNo s).toNat / 2 ^ 18)

/-- R298, R299: a protected frame verifies: its ICV under the key of this moment, its packet number newer than every other of
its channel. -/
def macsecOk (f : FlowFrame) (t : SecTag) (s : State) : Bool :=
  s.flow.key.isSome && t.an.toNat == (s.flow.keyGen.toNat + s.flow.epoch.toNat) % 4 &&
  (match s.flow.rxPn.find? (fun e => e.1 == t.sci) with | some e => e.2.toNat < t.pn.toNat | none => 1 ≤ t.pn.toNat) &&
  t.icv == flowIcv (sakNow s) s.trunk.etherType f t

/-- The channel's last packet number kept. -/
def macsecNote (t : SecTag) (s : State) : State :=
  modFlow (fun w => { w with rxPn := (t.sci, t.pn) :: w.rxPn.filter (fun e => e.1 ≠ t.sci) }) s

/-- Whether a frame's protection verifies (a frame without a SecTAG has none), and the state after. -/
def macsecTake (f : FlowFrame) (s : State) : Bool × State :=
  match f.sec with
  | none => (false, s)
  | some t => if macsecOk f t s then (true, macsecNote t s) else (false, s)

/-- R299: at an instant at which GEN or EPOCH changes, the new key and packet numbers from 1. -/
def sakAtInstant (s : State) : State :=
  if s.flow.epoch = epochNow s && s.flow.keyGen = s.ina.gen then s
  else modFlow (fun w => { w with epoch := epochNow s, keyGen := s.ina.gen, txPn := [1, 1], rxPn := [] }) s

/-! ## The consumer checks (R281–R297) -/

/-- R282: the consumer takes frames of that line. -/
def lineAllowed (c : FlowCtx) (lineB : Bool) : Bool := c.lines.getLsbD (b2n lineB) || c.fallback

/-- The vehicle beside a legacy position: the nearest vehicle that is no legacy one. -/
def besideLegacy (d : Directory) (pos : Nat) : Option Nat :=
  let ps := (d.vehicles.filter (fun v => !isLegacy v)).map (fun v => v.pos.toNat)
  (ps.foldl (fun best p => match best with
    | none => some p
    | some q => if max p pos - min p pos < max q pos - min q pos then some p else some q) none)

/-- R281 check 8: an address resolves to a role under R189, as far as a receiver can see. -/
def roleMatches (role : BitVec 16) (src : BitVec 10) (s : State) : Bool :=
  let t := role.toNat % 1024
  let kind := role.toNat / 4096 % 4
  let a := src.toNat
  if role = 0xFFFF then true
  else if a = 0 then false
  else if kind = 0 then
    a = t || (t % 16 = 0 && (match s.ina.dir with
      | some d => d.vehicles.any (fun v => isLegacy v && v.pos.toNat == t / 16) && besideLegacy d (t / 16) == some (a / 16)
      | none => false))
  else if kind = 1 then a / 16 = t / 16 && a % 16 < 2
  else if kind = 2 then a / 16 = farPosition s (t / 16) && a % 16 = t % 16
  else a = 0x010

/-- R289: a claim with the debug class. -/
def isDebugClaim (c : BitVec 32) : Bool := 0xF0000000 ≤ c.toNat

/-- R289: the frame's claim is lower than the one kept. -/
def claimLower (c : BitVec 32) (r : FlowRun) : Bool :=
  isDebugClaim c || (match r.claim with | some k => c.toNat < k.toNat | none => false)

/-- R289: the frame's claim is higher than the one kept. -/
def claimHigher (c : BitVec 32) (r : FlowRun) : Bool :=
  !isDebugClaim c && (match r.claim with
  | some k => k.toNat < c.toNat
  | none => true)

/-- R283: how a SEQ stands to the kept one: some 4 or 5, the counter under which it is discarded. -/
def eliminate (seq : BitVec 32) (higher : Bool) (r : FlowRun) : Option Nat :=
  if higher || (!r.valid && !r.acceptedSince) then none
  else match r.keptSeq with
    | none => none
    | some k => if seq = k then some 4 else if wrapNewer seq k then none else some 5

/-- R292: the safety code. -/
def safetyCode (src seq : BitVec 32) (payload : List Byte) : BitVec 32 :=
  crc32c (leBytes 4 src.toNat ++ leBytes 4 seq.toNat ++ payload)

/-- VALID clears: elimination starts afresh (R283). -/
def validClear (r : FlowRun) : FlowRun := { r with valid := false, acceptedSince := r.acceptedSince && !r.valid }

/-- The FLAGS byte of a consumed area; ISLAND as it stood or as the new value brings it. -/
def consumedFlags (r : FlowRun) (changed island : Bool) : Nat :=
  b2n r.valid + 2 * b2n r.lineB + 4 * b2n r.safeOk + 8 * b2n changed + 16 * b2n island

/-- FLAGS of context `i`'s consumed area follow its run-time state (R276). -/
def showFlags (i : Nat) (s : State) : State :=
  let a := areaBase (ctxOf s i) + 3
  let old := (memGet s.flow.cons a).toNat
  let flags := BitVec.ofNat 8 (consumedFlags (runOf s i) (old.testBit 3) (old.testBit 4))
  modFlow (fun w => { w with cons := memSet w.cons a flags }) s

/-- R296: entry to safe state, with its event once. -/
def enterSafe (i cause : Nat) (s : State) : State :=
  let was := (runOf s i).safeState
  let s1 := modRun i (fun r => { validClear r with safeState := true, safeOk := false, safeBase := none, safeCount := 0 }) s
  if was then s1 else raise 0x0503 (leBytes 2 i ++ leBytes 1 cause) s1

/-- R294, R296, R297: what a matching code makes of a safe frame: none outside the window, else the new state. -/
def safeAdvance (c : FlowCtx) (seq : BitVec 32) (higher : Bool) (r : FlowRun) : Option FlowRun :=
  match (if higher then none else r.safeBase) with
  | none => some { r with safeBase := some seq, safeCount := 0, safeOk := false }
  | some b =>
    let adv := (seq - b).toNat
    let most := if r.safeCount < 2 then 1 else c.seqWindow.toNat
    if 1 ≤ adv && adv ≤ most then
      some { r with safeBase := some seq, safeCount := min 2 (r.safeCount + 1), safeSeen := true, safeNow := true }
    else none

/-- R281 check 11. -/
def safeCheck (i : Nat) (c : FlowCtx) (higher : Bool) (f : FlowFrame) (s : State) : Bool × State :=
  if !c.safe then (true, s)
  else if safetyCode c.safeSrcId f.seq f.payload ≠ f.safety then
    (false, showFlags i (enterSafe i 1 (flowCount i 10 s)))
  else match safeAdvance c f.seq higher (runOf s i) with
    | some r => (true, showFlags i (modRun i (fun _ => r) s))
    | none => (false, flowCount i 11 s)

/-- A frame that passed every check (R281, R283, R289, R267). -/
def acceptFlow (i : Nat) (c : FlowCtx) (lineB higher : Bool) (f : FlowFrame) (s : State) : State :=
  flowCount i 1 (modRun i (fun r => { r with
    seq := f.seq, keptSeq := some f.seq, acceptedSince := true,
    claim := if higher then some f.claim else r.claim,
    claimChanged := r.claimChanged || (c.claim && higher),
    taken := some (f.fresh, f.claim, lineB, f.island, f.payload) }) s)

/-- Checks 10 and 11 of R281 for context `i`. -/
def consumeNew (i : Nat) (c : FlowCtx) (lineB : Bool) (f : FlowFrame) (s : State) : State :=
  let higher := c.claim && claimHigher f.claim (runOf s i)
  match eliminate f.seq higher (runOf s i) with
  | some k => flowCount i k s
  | none =>
    let x := safeCheck i c higher f s
    if x.1 then acceptFlow i c lineB (claimHigher f.claim (runOf s i)) f x.2 else x.2

/-- Checks 7 to 9 of R281 for context `i`; what passes them is a valid frame for its entry (R187). -/
def consumeChecks (i : Nat) (c : FlowCtx) (lineB : Bool) (f : FlowFrame) (s : State) : State :=
  if f.len ≠ c.len.toNat then flowCount i 9 s
  else if !(roleMatches c.expectRole f.srcAddr s) then flowCount i 7 s
  else if c.claim && claimLower f.claim (runOf s i) then flowCount i 6 s
  else consumeNew i c lineB f (if isScheduled c && !inBackbone s then entryReceived c.entry.toNat lineB s else s)

/-- The consuming context of a FLOW_ID (R281 check 3). -/
def consumer (flowId : BitVec 16) (s : State) : Option (Nat × FlowCtx) :=
  s.flow.ctx.find? (fun e => e.2.enable && !e.2.produce && e.2.flowId == flowId)

/-- R281 check 4: the frame's generation is the one in force. -/
def genInForce (g : BitVec 16) (s : State) : Bool := s.ina.dir.isSome && g == s.ina.gen

/-- Checks 2 to 5 of R281 for the context found, then the rest where `late` allows (check 6). -/
def consumeFrame (i : Nat) (c : FlowCtx) (lineB verified : Bool) (check6 : State → Bool × State) (f : FlowFrame)
    (s : State) : State :=
  if c.macsec && !verified then flowCount i 13 s
  else if !(genInForce f.gen s) then flowCount i 8 s
  else if !(lineAllowed c lineB) then s
  else
    let x := check6 s
    if x.1 then consumeChecks i c lineB f x.2 else x.2

/-- R281 check 6 on a trunk port for a context: a scheduled frame lies in the window of its polled entry. Any other passes
unless it strays into the slot region (R185). -/
def windowCheck (im : Image) (p : Nat) (t : Int) (c : FlowCtx) (s : State) : Bool × State :=
  if inBackbone s then (true, s)
  else if isScheduled c then
    let n := c.entry.toNat
    if !(polledEntries s).contains n then (false, schedCount 8 s)
    else match entryAt im n with
      | some e => if inWindow im p t e s then (true, s) else (false, windowViolation n s)
      | none => (false, schedCount 8 s)
  else (!(pathOk (lineState s (lineOfPort p)) s && inSlotRegion im p t s && (windowEntry im p t s).isNone), s)

/-- R184, R185, R187: what a frame on a trunk port means for the schedule, whoever it is for. An entry that a flow of this
node consumes has received its frame only when that passes the checks of R281 before elimination (DEDUCED from R187,
log 18). -/
def slotNote (im : Image) (p : Nat) (t : Int) (s : State) : State :=
  match windowEntry im p t s with
  | some n => if entryConsumed n s then s else entryReceived n (p % 2 == 1) s
  | none => if inSlotRegion im p t s then schedCount 9 s else s

/-- R177: a scheduled frame is not received on a line whose path is invalid. -/
def lineDead (p : Nat) (c : Option FlowCtx) (s : State) : Bool :=
  match c with
  | some c => isScheduled c && !inBackbone s && !pathOk (lineState s (lineOfPort p)) s
  | none => false

/-- A flow frame on trunk port `p` with a good frame check sequence, its protection judged: R184, R185, R281. -/
def flowFromTrunk (p : Nat) (tPin : Int) (verified : Bool) (f : FlowFrame) (s : State) : State :=
  let c := consumer f.flowId s
  match s.sched.running with
  | none => (match c with
    | some x => consumeFrame x.1 x.2 (p % 2 == 1) verified (fun s => (!isScheduled x.2 || inBackbone s, s)) f s
    | none => s)
  | some im =>
    if lineDead p (c.map (fun x => x.2)) s then s
    else
      let s1 := if inBackbone s || !(pathOk (lineState s (lineOfPort p)) s) then s else slotNote im p tPin s
      match c with
      | some x => consumeFrame x.1 x.2 (p % 2 == 1) verified (windowCheck im p tPin x.2) f s1
      | none => s1

/-- R518: a frame relayed over the fabric: R281 without check 6. -/
def flowFromFabric (lineB verified : Bool) (f : FlowFrame) (s : State) : State :=
  match consumer f.flowId s with
  | some x => consumeFrame x.1 x.2 lineB verified (fun s => (true, s)) f s
  | none => s

/-! ## Flows at an instant -/

/-- R187: a polled entry that consuming flows did not receive on any line they use counts as empty, in three places.
`hb` are entries consumed as the partner's heartbeat entries (R329). -/
def emptyAtInstant (polled : List Nat) (hb : List Nat) (s : State) : State :=
  if inHeld s then s
  else forEach polled (fun n s =>
    let users := s.flow.ctx.filter (fun e => e.2.enable && !e.2.produce && isScheduled e.2 && e.2.entry.toNat == n)
    let came (b : Bool) : Bool := s.sched.received.contains (2 * n + b2n b)
    let missed := users.filter (fun e => !((lineAllowed e.2 false && came false) || (lineAllowed e.2 true && came true)))
    let hbMissed := hb.contains n && users.isEmpty && !came false && !came true
    let s1 := forEach missed (fun e s => flowCount e.1 2 s) s
    if missed.isEmpty && !hbMissed then s else entryCount n 3 (schedCount 10 s1)) s

/-- R286, R296: the value taken in the closed cycle, or none. -/
def takeValue (c : FlowCtx) (r : FlowRun) : FlowRun × Bool × Bool :=
  match r.taken with
  | some (fresh, _, lineB, _, _) =>
    if fresh ≠ r.fresh then
      ({ r with age := 0, fresh := fresh, lineB := lineB, valid := r.valid || !(c.safe && r.safeState) }, true, false)
    else ({ r with age := min 255 (r.age + 1) }, false, true)
  | none => ({ r with age := min 255 (r.age + 1) }, false, false)

/-- R296: the flow leaves safe state at this instant. -/
def leavesSafe (c : FlowCtx) (r : FlowRun) : Bool := c.safe && r.safeState && r.safeBase.isSome && 2 ≤ r.safeCount

/-- R295: the cycles since the last safe-valid frame. -/
def safeAge (r : FlowRun) : FlowRun :=
  { r with safeNow := false, sinceSafe := if r.safeNow then 0 else r.sinceSafe + 1 }

/-- The area of a consumed flow written for the cycle that opens: header, and the payload it shows. -/
def showArea (i : Nat) (c : FlowCtx) (new : Bool) (zero : Bool) (old : FlowRun) (s : State) : State :=
  let a := areaBase c
  let r := runOf s i
  let oldFlags := (memGet s.flow.cons (a + 3)).toNat
  let v := old.taken
  let claim := if new then ((v.map (fun (x : BitVec 16 × BitVec 32 × Bool × Bool × List Byte) => x.2.1)).getD 0).toNat else leNat (memRead s.flow.cons (a + 4) 4)
  let island := if new then (v.map (fun x => x.2.2.2.1)).getD false else oldFlags.testBit 4
  let hdr := headerBytes r.fresh.toNat r.age (consumedFlags r (new && old.claimChanged) island) claim
  modFlow (fun w =>
    let m := memWrite w.cons a hdr
    let m := if new then memWrite m (a + 8) (padTo c.len.toNat ((v.map (fun x => x.2.2.2.2)).getD [])) else m
    { w with cons := if zero then memClear m (a + 8) c.len.toNat else m }) s

/-- R286, R295, R296 for one enabled consumed flow at an instant. -/
def consumedAtInstant (i : Nat) (c : FlowCtx) (s : State) : State :=
  let old := runOf s i
  let leaves := leavesSafe c old
  let r0 := if leaves then { old with safeState := false, safeOk := true } else old
  let (r1, new, stale) := takeValue c r0
  let shown := new || (leaves && old.taken.isSome)
  let r2 := if leaves then { r1 with valid := true, lineB := (old.taken.map (fun x => x.2.2.1)).getD r1.lineB } else r1
  let r3 := if c.safe then { safeAge r2 with
    safeOk := !r2.safeState && r2.safeBase.isSome && 2 ≤ r2.safeCount } else r2
  let s1 := modRun i (fun _ => { r3 with taken := none, claimChanged := false }) s
  let s2 := if stale then flowCount i 3 s1 else s1
  let late := c.safe && !r3.safeState && r3.safeSeen && c.tmax.toNat ≤ r3.sinceSafe
  let s3 := if late then enterSafe i 2 (flowCount i 12 s2) else s2
  let r4 := runOf s3 i
  let s4 := if c.freshLimit.toNat ≤ r4.age && r4.valid then
      raise 0x0502 (leBytes 2 i ++ leBytes 2 c.flowId.toNat) (modRun i validClear s3) else s3
  showArea i c shown (c.safe && (runOf s4 i).safeState) old s4

/-- Every enabled consumed flow at an instant (R267, R286). -/
def consumedUpdate (s : State) : State :=
  forEach (s.flow.ctx.filter (fun e => e.2.enable && !e.2.produce)) (fun e s => consumedAtInstant e.1 e.2 s) s

/-- Lines of a two-bit mask: A, B. -/
def linesOf (m : BitVec 2) : List Bool := (if m.getLsbD 0 then [false] else []) ++ (if m.getLsbD 1 then [true] else [])

/-- A line by its letter. -/
def lineNamed (b : Bool) : Line := if b then .b else .a

/-- R284: the lines a flow goes out on in an entry: those of its LINES, or for a single-line flow whose own path is
invalid the other one, where FALLBACK, the entry's lines and its path allow it. -/
def flowLines (c : FlowCtx) (e : Entry) (s : State) : List Bool :=
  let ls := linesOf c.lines
  let ok (b : Bool) : Bool := pathOk (lineState s (lineNamed b)) s
  match ls with
  | [b] => if !(ok b) && c.fallback && e.lines.getLsbD (b2n (!b)) && ok (!b) then [!b] else [b]
  | _ => ls

/-- The flow is sent in the cycle that opens (R288, R325, R372). -/
def flowSends (c : FlowCtx) (s : State) : Bool :=
  joined s && s.ina.addr ≠ 0 && !(classWithdrawn c.svc.toNat s) && (!c.claim || holdsHighest c.svc.toNat s)

/-- A scheduled flow's entry carries it in the cycle in progress, as far as it is known (R276): an image runs, and the entry is
polled; on a line with a valid path and within SPAN, or at an attached node over the fabric. -/
def entryCarries (c : FlowCtx) (s : State) : Bool :=
  !(isScheduled c) || inBackbone s ||
  (match s.sched.running with
   | none => false
   | some im => (polledEntries s).contains c.entry.toNat && (match entryAt im c.entry.toNat with
     | none => false
     | some e => s.fab.attached || (flowLines c e s).any (fun b =>
         let l := lineState s (lineNamed b)
         pathOk l s && l.delta ≤ 16 * im.spanNs)))

/-- The header of each enabled produced flow for the cycle that opens (R276), and whether it may be sent in it. -/
def producedHeaders (s : State) : State :=
  forEach (s.flow.ctx.filter (fun e => e.2.enable && e.2.produce)) (fun e s =>
    let v := flowSends e.2 s
    let s1 := modRun e.1 (fun r => { r with valid := v }) s
    let hdr := headerBytes (runOf s1 e.1).fresh.toNat 0 (b2n (v && entryCarries e.2 s1)) (ownClaim e.2.svc.toNat s1).toNat
    let put (m : Mem) : Mem := memWrite m (areaBase e.2) hdr
    modFlow (fun w => { w with bank0 := put w.bank0, bank1 := put w.bank1 }) s1) s

/-- R285: FRESH of every enabled produced flow but those of island transport. -/
def freshAdvance (s : State) : State :=
  forEach (s.flow.ctx.filter (fun e => e.2.enable && e.2.produce && e.2.transport ≠ 2)) (fun e s =>
    modRun e.1 (fun r => { r with fresh := r.fresh + 1 }) s) s

/-- The produced blocks of a bank copied into another. -/
def copyProduced (ctx : Tbl FlowCtx) (from_ to_ : Mem) : Mem :=
  (ctx.filter (fun e => e.2.enable && e.2.produce)).foldl
    (fun m e => memWrite m (areaBase e.2) (memRead from_ (areaBase e.2) (64 * areaBlocks e.2))) to_

/-- R268, R271, R272, R274, R285: the produced banks at an instant, at which a release is effective or not. One that the instant
found too young, where its cycle was cut short, is late as well. -/
def banksAtInstant (effective : Bool) (s : State) : State :=
  let cyc := cycleNo s
  let s0 := modFlow (fun w => { w with deadline := false, pdiCycle := cyc }) s
  if effective then
    freshAdvance (modFlow (fun w =>
      let w1 := { w with outBank1 := !w.outBank1, release := 0, relPend := false, relLate := false, pubCycle := cyc,
                         nextOpen := false, overrunNow := false }
      let next := copyProduced w1.ctx (bankOf w1 w1.outBank1) (bankOf w1 (!w1.outBank1))
      if w1.outBank1 then { w1 with bank0 := next } else { w1 with bank1 := next }) s0)
  else
    let late := s.flow.relPend && !s.flow.relLate
    let s1 := modFlow (fun w => { w with
      relLate := w.relPend, ctr := ctrInc (if late then ctrInc w.ctr 1 else w.ctr) 0, overrunNow := true }) s0
    if s.flow.overrunNow then s1 else raise 0x0501 (leBytes 4 cyc.toNat) s1

/-! ## Sends (R280, R282, R293, R298, R300–R302) -/

/-- The frame of a produced flow with a SEQ, its protection apart. -/
def flowFrame (i : Nat) (c : FlowCtx) (seq : BitVec 32) (s : State) : FlowFrame :=
  let payload := readPublished s i 0 c.len.toNat
  { source := trunkMac s.sys.uid, flowId := c.flowId, gen := s.ina.gen, claim := ownClaim c.svc.toNat s, seq := seq,
    fresh := (runOf s i).fresh, safe := c.safe, island := c.transport == 2, srcAddr := s.ina.addr, len := c.len.toNat,
    safety := if c.safe then safetyCode c.safeSrcId seq payload else 0, payload := payload, sec := none }

/-- R280: the SEQ of a flow's next send: a new one, or the last one where no frame has left with it. -/
def nextSeq (i : Nat) (s : State) : BitVec 32 × State :=
  let r := runOf s i
  if r.seqUsed then (r.seq + 1, modRun i (fun r => { r with seq := r.seq + 1, seqUsed := false }) s) else (r.seq, s)

/-- The SEQ of a send that goes out at once. -/
def nextSend (i : Nat) (s : State) : BitVec 32 × State :=
  let x := nextSeq i s
  (x.1, modRun i (fun r => { r with seqUsed := true }) x.2)

/-- The frame as it goes out on a line, protected where the context asks for it. -/
def flowOnLine (c : FlowCtx) (lineB : Bool) (f : FlowFrame) (s : State) : FlowFrame × State :=
  if c.macsec then protect lineB f s else (f, s)

/-- Up ports of a line that are no boundary. -/
def linePortsUp (lineB : Bool) (s : State) : List Nat :=
  (upPorts s).filter (fun p => (p % 2 == 1) == lineB && !isBoundary s p)

/-- R519: a flow of an attached node on its way to the Active twin, which puts it on a line. -/
def fabricFlow (i : Nat) (c : FlowCtx) (s : State) : State :=
  let x := nextSend i s
  let f := flowFrame i c x.1 x.2
  forEach (linesOf c.lines) (fun b s =>
    let y := flowOnLine c b f s
    fabOriginate 0x10 3 (.flow b y.1) (flowCount i 0 y.2)) x.2

/-- A flow frame in the sporadic-high queue of every port of a line. -/
def lineFlow (ctx : Option Nat) (f : FlowFrame) (b : Bool) (s : State) : State :=
  let q : QFrame := { frame := .flow f, len := flowWireLen f, deferred := false, ctx := ctx, urgent := false }
  forEach (linePortsUp b s) (fun p s => trunkEnqueue p 1 q s) s

/-- R300, R213: a flow queued in the sporadic-high queue of every port of its lines, or sent to the trunk over the fabric. A
frame that is to be protected is so as it leaves. -/
def queueFlow (i : Nat) (c : FlowCtx) (s : State) : State :=
  if s.fab.attached then fabricFlow i c s
  else if (linesOf c.lines).all (fun b => (linePortsUp b s).isEmpty) then s
  else
    let x := nextSeq i s
    let f := { flowFrame i c x.1 x.2 with sec := if c.macsec then some { sci := 0, an := 0, pn := 0, icv := 0 } else none }
    forEach (linesOf c.lines) (lineFlow (some i) f) x.2

/-- R288: a queued frame of a flow that is not sent in the sporadic window of this cycle. -/
def withheld (s : State) (f : QFrame) : Bool :=
  match f.ctx with
  | none => false
  | some i =>
    let c := ctxOf s i
    !(c.enable && c.produce && (runOf s i).valid) || (isScheduled c && !inBackbone s)

/-- R288: what still waits of a flow that the cycle that opens does not send is sent no more. -/
def dropWithheld (s : State) : State :=
  modTrunk (fun t => { t with ports := t.ports.map (fun p => { p with
    queues := p.queues.map (fun q => q.filter (fun f => !(withheld s f))) }) }) s

/-- R300, R301: the flows that leave in the sporadic window of the cycle that opens. -/
def sporadicAtInstant (arrived : List Nat) (s : State) : State :=
  forEach (s.flow.ctx.filter (fun e => e.2.enable && e.2.produce)) (fun e s =>
    let due := (e.2.transport = 1 && cycleCount s % e.2.period.toNat = 0) ||
      (e.2.transport = 0 && inBackbone s) || (e.2.transport = 2 && arrived.contains e.1)
    if due && (runOf s e.1).valid then queueFlow e.1 e.2 s else s) (dropWithheld s)

/-- R301: the latest process data of each island node taken, FRESH advancing with a new telegram: the contexts that
advanced, and the state. -/
def islandAtInstant (s : State) : List Nat × State :=
  let new := s.flow.ctx.filter (fun e => e.2.enable && e.2.produce && e.2.transport = 2 && (runOf s e.1).telegram.isSome)
  (new.map (fun e => e.1), forEach new (fun e s =>
    let data := padTo e.2.len.toNat (((runOf s e.1).telegram).getD [])
    let put (m : Mem) : Mem := memWrite m (areaBase e.2 + 8) data
    modFlow (fun w => { w with bank0 := put w.bank0, bank1 := put w.bank1 })
      (modRun e.1 (fun r => { r with fresh := r.fresh + 1, telegram := none }) s)) s)

/-- R302: consumed island flows placed into this node's own wire-train-bus process data, within 128 bytes. -/
def islandPlace (s : State) : State :=
  forEach (s.flow.ctx.filter (fun e => e.2.enable && !e.2.produce && e.2.transport = 2)) (fun e s =>
    let at_ := (islandSrc e.2).toNat
    let data := (memRead s.flow.cons (areaBase e.2 + 8) e.2.len.toNat).take (128 - at_)
    modFlow (fun w => { w with islandOut := memWrite w.islandOut at_ data }) s) s

/-- The node is boundary node of an island that holds a wire-train-bus address. -/
def islandHolds (addr : Byte) (s : State) : Bool := s.ina.islands.any (fun x => x.addrs.contains addr)

/-- R65: a telegram is taken from the line that the node trusts, or from the other one, which it then trusts (IEC 61375-2-1;
PRESUMED, log 39). -/
def wtbLine (okA okB : Bool) (s : State) : State :=
  modTrunk (fun t => { t with wtbLineB := if t.wtbLineB then okB || !okA else okB && !okA }) s

/-- The latest process data of an island node (R301), heard valid on a line. -/
def islandTelegram (addr : Byte) (data : List Byte) (okA okB : Bool) (s : State) : State :=
  if !(islandHolds addr s) || !(okA || okB) then s
  else forEach (s.flow.ctx.filter (fun e => e.2.enable && e.2.produce && e.2.transport = 2 && islandSrc e.2 == addr))
    (fun e s => modRun e.1 (fun r => { r with telegram := some data }) s) (wtbLine okA okB s)

/-- ISLAND_TELEGRAM_RX (R301). -/
def execIslandTelegramRx (dt : Nat) (addr : Byte) (data : List Byte) (okA okB : Bool) (s : State) :
    Host.Outcome State Fault Refusal :=
  .next (islandTelegram addr data okA okB (begin_ dt s))

/-- ISLAND_TELEGRAM_SEND (R302): the boundary node's own process data, with the values current now. -/
def execIslandTelegramSend (dt : Nat) (s : State) : Host.Outcome State Fault Refusal :=
  let s1 := begin_ dt s
  .next (if s1.ina.islands.isEmpty then s1 else emit (.wtb (memRead s1.flow.islandOut 0 128)) s1)

end Sys2Proof.Machine
end

