-- ==== Sys2Proof/Machine/Cores.lean ====
section
/-! DEFINITION. The two cores of a locked pair, cycle by cycle: the single sampler and the delay registers (R360, R361), the
signature registers of the burin (R362–R364), the windows, and what the leading core sends (R359, R368). -/

namespace Sys2Proof.Machine

/-! ## Addresses (R359, R582) -/

/-- An address lies in a window given in units of 64 KiB. -/
def inUnits (w : Nat × Nat) (addr : Nat) : Bool := 65536 * w.1 ≤ addr && addr < 65536 * (w.1 + w.2)

/-- The directly mapped blocks as a pair sees them (R582). -/
def inBlocks (addr : Nat) : Bool := 0xF0000000 ≤ addr && addr < 0xF1000000

/-- The windows of memory a core may reach. They are counted from address 0 (DESIGN CHOICE, log 32). -/
def inWindows (p : Pair) (core addr : Nat) : Bool :=
  inUnits (if pairSplit p && core = 1 then p.cfg.splitWin else p.cfg.priv) addr || inUnits p.cfg.shared addr

/-- The ROM as a pair sees it: one run of addresses (DESIGN CHOICE, log 32). -/
def inRom (addr : Nat) : Bool := Config.romBase ≤ addr && addr < Config.romBase + Config.romSize

/-- The addresses a core may reach: its windows, the directly mapped blocks and the ROM. -/
def pairMay (p : Pair) (core addr : Nat) : Bool := inWindows p core addr || inBlocks addr || inRom addr

/-! ## The signature (R362, R364) -/

/-- The 64-bit words of what is compared: of a retired instruction its program counter and the value it writes; of a store
its address, data and byte mask; of a transaction its address, type and size, and write data. Their order within a record
is the model's (DESIGN CHOICE, log 40). -/
def retiredWords (r : Retired) : List (BitVec 64) :=
  match r.dest with
  | .none_ => [r.pc]
  | _ => [r.pc, r.value]

/-- Words of a store. -/
def storeWords (x : CoreStore) : List (BitVec 64) := [x.addr, x.data, x.mask.setWidth 64]

/-- The number of a transaction's type in its record. -/
def txnCode : TxnKind → Nat
  | .fetch => 0
  | .read => 1
  | .write => 2
  | .writeBack => 3
  | .atomic => 4
  | .interrupt => 5

/-- Bytes as 64-bit words, little-endian. -/
def byteWords (d : List Byte) : List (BitVec 64) :=
  (List.range ((d.length + 7) / 8)).map (fun k => BitVec.ofNat 64 (leNat ((d.drop (8 * k)).take 8)))

/-- Words of a transaction. -/
def txnWords (x : CoreTxn) : List (BitVec 64) :=
  [x.addr, BitVec.ofNat 64 (txnCode x.kind), BitVec.ofNat 64 x.size] ++ byteWords x.data

/-- R362: a record folded, from its word number `j` on: word j rotated left by 8 × j bits, all combined by exclusive-or. -/
def foldFrom : Nat → List (BitVec 64) → BitVec 64
  | _, [] => 0
  | j, w :: ws => w.rotateLeft (8 * j % 64) ^^^ foldFrom (j + 1) ws

/-- R362: an item folded; an empty one folds to 0. -/
def foldItem {α : Type} (words : α → List (BitVec 64)) (x : Option α) : BitVec 64 :=
  match x with
  | some a => foldFrom 0 (words a)
  | none => 0

/-- R362: W of a cycle. -/
def cycleWord (c : CoreCycle) : BitVec 64 :=
  (foldItem retiredWords c.slot0).rotateLeft 0 ^^^ (foldItem retiredWords c.slot1).rotateLeft 17 ^^^
  (foldItem storeWords c.store).rotateLeft 34 ^^^ (foldItem txnWords c.txn).rotateLeft 51

/-- R362: the signature register over one cycle. -/
def signature (sig w : BitVec 64) : BitVec 64 := (sig <<< 1) ^^^ (if sig.getLsbD 63 then 0x1B else 0) ^^^ w

/-! ## The sampler (R361) -/

/-- R361: the time CSR, seconds × 1,000,000,000 + nanoseconds, modulo 2^64. -/
def timeCsr (s : State) : BitVec 64 := BitVec.ofNat 64 (s.now / secT 1 * 1000000000 + s.now / 65536 % 1000000000)

/-- R373: the pair-control CSR as core `core` reads it. -/
def pairCtl (l core : Nat) (p : Pair) : BitVec 32 :=
  BitVec.ofNat 32 (packFields [(0, 1, b2n (p.hok.getD core false)), (1, 1, b2n (p.rejoinRdy.getD core false)),
    (2, 1, b2n (pairSplit p)), (3, 1, if pairSplit p then core else 0), (4, 3, l), (8, 4, p.entry.toNat),
    (17, 14, (p.ready ||| p.readySet).toNat / 2)])

/-- R446, R361: a CAN channel or one of its high-priority buffers asks for an interrupt of pair `l`. It stands at the sampler as
long as its status does (DESIGN CHOICE, log 40). -/
def canAsks (l : Nat) (s : State) : Bool :=
  s.can.any (fun ch => (ch.irqDest.toNat == l + 1 && ch.irqStat &&& ch.irqEn ≠ 0) ||
    ch.hpbs.any (fun o => o.2.dest.toNat == l + 1 && o.2.new))

/-- What the outside gives the sampler path of a core in a cycle: core T of a split pair has its own (R382). -/
def outsideIn (core : Nat) (c : PairCycle) : SplitIn :=
  if core = 1 then c.coreT
  else { read := c.read, irqQueue := c.irqQueue, irqTio := c.irqTio, irqCan := c.irqCan, irqHost := c.irqHost,
         irqTimer := c.irqTimer, stall := c.stall }

/-- What the sampler path of core `core` of pair `l` takes in a cycle: what the outside gives, what has come for the core or
waits since it was halted, and what the node itself puts to it. The node's interrupts go to core L of a split pair (DESIGN
CHOICE, log 40). -/
def sampled (l core : Nat) (c : PairCycle) (s : State) : CoreInput :=
  let p := pairOf s l
  let k := p.cores
  let o := outsideIn core c
  let late (i : Nat) : Bool := core = 0 && k.pend.getLsbD i
  { read := match o.read with | some r => some r | none => (if core = 1 then k.readsT else k.reads).head?
    fault := (if core = 1 then k.faultsT else k.faults).head?
    irqQueue := o.irqQueue || late 0, irqTio := o.irqTio || late 1
    irqCan := o.irqCan || late 2 || (core = 0 && canAsks l s), irqHost := o.irqHost || late 3
    irqInstant := if core = 1 then k.instantT else k.instantIrq, irqTimer := o.irqTimer || late 4
    time := timeCsr s, ctl := pairCtl l core p, debug := p.debugSplitAt, handOver := p.pendHand.isSome
    stall := o.stall, held := pairLocked p && 64 ≤ p.held.length }

/-- An interrupt is among the input. -/
def interrupts (i : CoreInput) : Bool :=
  i.irqQueue || i.irqTio || i.irqCan || i.irqHost || i.irqInstant || i.irqTimer

/-- What has been passed on to a core is no longer waiting. -/
def samplerDone (core : Nat) (k : Cores) : Cores :=
  if core = 1 then { k with readsT := k.readsT.drop 1, faultsT := k.faultsT.drop 1, instantT := false }
  else { k with reads := k.reads.drop 1, faults := k.faults.drop 1, instantIrq := false, pend := 0 }

/-- R381: an interrupt that comes to a halted pair stays pending. -/
def keepPending (c : PairCycle) (k : Cores) : Cores :=
  { k with pend := k.pend ||| BitVec.ofNat 5 (b2n c.irqQueue + 2 * b2n c.irqTio + 4 * b2n c.irqCan + 8 * b2n c.irqHost +
      16 * b2n c.irqTimer) }

/-- Read data has come for a core of a pair: it waits for its sampler path (R361). -/
def readsCome (l core : Nat) (r : List ReadIn) (s : State) : State :=
  modPair l (fun p => { p with cores :=
    if core = 1 then { p.cores with readsT := p.cores.readsT ++ r } else { p.cores with reads := p.cores.reads ++ r } }) s

/-- The same of one word for a locked pair. -/
def readComes (l : Fin 4) (r : ReadIn) (s : State) : State := readsCome l.val 0 [r] s

/-- R359: the access-fault exception for a core; in a locked pair both take it, each in its own cycle of the stream. -/
def faultComes (l : Fin 4) (core a : Nat) (s : State) : State :=
  let v := BitVec.ofNat 64 a
  emit (.accessFault l a) (modPair l.val (fun p => { p with cores :=
    if core = 1 then { p.cores with faultsT := p.cores.faultsT ++ [v] }
    else { p.cores with faults := p.cores.faults ++ [v] } }) s)

/-! ## A cycle of each core (R360, R362, R363) -/

/-- A core's cycle on its input; stalled by a full hold buffer it does nothing (R369). -/
def coreStep (c : CoreState) (i : CoreInput) : CoreState × CoreCycle :=
  if i.held then (c, { slot0 := none, slot1 := none, store := none, txn := none }) else Config.coreCycle c i

/-- R360: the trailing core takes the input of two cycles ago, if its stream has come so far. It closes its window, the one
before the leading core's, two cycles into that, and seeds its register with the next. -/
def trailCycle (bad : Option (CoreState × CoreCycle)) (k : Cores) : Cores :=
  match k.delay with
  | i :: rest =>
    let x := bad.getD (coreStep k.trail i)
    let sig := signature k.sigTrail (cycleWord x.2)
    if k.cyc = 1 then { k with trail := x.1, delay := rest, sigTrail := k.win, doneTrail := some sig }
    else { k with trail := x.1, delay := rest, sigTrail := sig }
  | [] => k

/-- The leading core's cycle on a sampled input, which the delay registers keep for the trailing core; its window closes
with its 256th cycle. -/
def leadCycle (i : CoreInput) (bad : Option (CoreState × CoreCycle)) (badDelay : Option CoreInput) (k : Cores) :
    CoreCycle × Cores :=
  let x := bad.getD (coreStep k.lead i)
  let sig := signature k.sigLead (cycleWord x.2)
  let k1 := { k with lead := x.1, delay := k.delay ++ [badDelay.getD i] }
  (x.2, if k.cyc = 255 then { k1 with cyc := 0, win := k.win + 1, sigLead := k.win + 1, doneLead := some sig }
        else { k1 with cyc := k.cyc + 1, sigLead := sig })

/-- One clock cycle of both cores: the trailing core takes its input only once two inputs stand in the delay registers. -/
def coresCycle (i : CoreInput) (c : PairCycle) (k : Cores) : CoreCycle × Cores :=
  leadCycle i c.badLead c.badDelay (if 2 ≤ k.delay.length then trailCycle c.badTrail k else k)

/-- R382: of a pair that halts at the close of its window, the trailing core ends its stream, and with it that window. -/
def drainCycle (bad : Option (CoreState × CoreCycle)) (k : Cores) : Cores :=
  match k.delay with
  | i :: rest =>
    let x := bad.getD (coreStep k.trail i)
    let sig := signature k.sigTrail (cycleWord x.2)
    if rest.isEmpty then { k with trail := x.1, delay := rest, sigTrail := k.win, doneTrail := some sig }
    else { k with trail := x.1, delay := rest, sigTrail := sig }
  | [] => k

/-! ## What the leading core sends (R359, R360, R368) -/

/-- R368: fetches, and reads in a window or the ROM, are not held. -/
def txnPasses (p : Pair) (core : Nat) (x : CoreTxn) : Bool :=
  match x.kind with
  | .fetch => true
  | .read => inWindows p core x.addr.toNat || inRom x.addr.toNat
  | _ => false

/-- Words read, as the sampler takes them. -/
def wordsIn (d : List Byte) : List ReadIn :=
  (byteWords d).map (fun w => { data := w, corrected := false, uncorrectable := false })

/-- The bytes at an address of the work area or the ROM. -/
def memoryBytes (a n : Nat) (s : State) : List Byte :=
  if inRom a then (List.range n).map (fun k => Config.romByte (a + k)) else memRead s.lsk.work a n

/-- The write data of a transaction, or none where it reads. -/
def txnData (x : CoreTxn) : Option (List Byte) := match x.kind with | .read => none | _ => some (padTo (min 64 x.size) x.data)

/-- R359, R368: the leading core's transaction of window `w` is held, passes, or raises the access fault. A write to the ROM is
without effect, and a fetch from a directly mapped block brings what the outside gives (DESIGN CHOICE, log 32). -/
def issueTxn (l : Fin 4) (w : BitVec 64) (x : CoreTxn) (s : State) : State :=
  let a := x.addr.toNat
  let p := pairOf s l.val
  let atomic : Bool := match x.kind with | .atomic => true | _ => false
  match x.kind with
  | .interrupt => holdIn l.val w .interrupt a x.size (txnData x) s
  | _ =>
    if !(pairMay p 0 a) then faultComes l 0 a s
    else if txnPasses p 0 x then (if inBlocks a then s else readsCome l.val 0 (wordsIn (memoryBytes a x.size s)) s)
    else if inBlocks a then holdIn l.val w (if atomic then .atomicBlock else .block) (a - 0xF0000000) x.size (txnData x) s
    else if inWindows p 0 a then holdIn l.val w (if atomic then .atomicMemory else .memory) a x.size (txnData x) s
    else s

/-- R373: what a write of the pair-control CSR by a core does; of a locked pair both cores write it. -/
def csrWrite (core : Fin 2) (v : Nat) (p : Pair) : Pair :=
  let accepts := pairLocked p && !p.dbg
  let put (l : List Bool) (b : Bool) : List Bool := if pairSplit p then updAt l core.val (fun _ => b) else [b, b]
  { p with hok := put p.hok (v.testBit 0), rejoinRdy := put p.rejoinRdy (v.testBit 1),
           readySet := if accepts then p.readySet ||| (BitVec.ofNat 16 (bitsOf v 17 14 * 2)) else p.readySet }

/-- A retired write of that CSR. -/
def retireCtl (core : Fin 2) (r : Option Retired) (p : Pair) : Pair :=
  match r with
  | some r => if r.dest = .csr 0x7C0 then csrWrite core r.value.toNat p else p
  | none => p

/-- The pair waits for a hand-over point. -/
def awaitsPoint (p : Pair) : Bool := match p.pendHand with | some .split => true | some .subst => true | _ => false

/-- R381: a WFI of a locked pair is a hand-over point: with HOK set, early enough before the next instant. -/
def pointReached (l : Nat) (s : State) : Bool :=
  let p := pairOf s l
  pairLocked p && awaitsPoint p && p.hok.getD 0 false && s.now + usT 150 ≤ nextInstant s

/-- R381: the pair halts at the close of its window. -/
def atPoint (l : Nat) (s : State) : State := modPair l (fun p => { p with halted := true, handFound := true }) s

/-- R381: an interrupt has ended the WFI before the halt. -/
def lapses (i : CoreInput) (p : Pair) : Bool := p.halted && awaitsPoint p && !p.debugSplitAt && interrupts i

/-- R369: a cycle in which the full hold buffer stalls the cores counts. -/
def countStall (i : CoreInput) (p : Pair) : Pair := if i.held then { p with ctr := ctrInc p.ctr 4 } else p

/-- One clock cycle of locked pair `l`: both cores, the leading core's CSR writes, its transaction and its WFI. A pair that has
halted at the close of a window only drains. -/
def pairCycle (l : Fin 4) (c : PairCycle) (s : State) : State :=
  let p := pairOf s l
  if p.halted && p.cores.cyc = 0 then
    modPair l (fun p => { p with cores := keepPending c (drainCycle c.badTrail p.cores) }) s
  else
    let i := sampled l.val 0 c s
    let x := coresCycle i c (samplerDone 0 p.cores)
    let s1 := modPair l (fun p => retireCtl 0 x.1.slot1 (retireCtl 0 x.1.slot0 (countStall i
      { p with cores := x.2, halted := p.halted && !(lapses i p) }))) s
    let s2 := match x.1.txn with
      | some t => issueTxn l p.cores.win t s1
      | none => s1
    if x.1.wfi && pointReached l s2 then atPoint l s2 else s2

/-- R365: the burin's verdict after a cycle, if one falls due: the window and whether the two signatures agree. It is on the
window before the leading core's, at the close of that, or of a halted pair once the trailing core has ended its stream. -/
def verdictDue (before after : Cores) : Option (BitVec 64 × Bool) :=
  if before.cyc = 255 && after.cyc = 0 then
    (if before.doneLead.isNone then none else some (before.win - 1, before.doneLead == before.doneTrail))
  else if !before.delay.isEmpty && after.delay.isEmpty then some (after.win - 1, after.doneLead == after.doneTrail)
  else none

/-- The verdict of a drained pair has been given: the next one is on the window to come. -/
def verdictGiven (k : Cores) : Cores := if k.delay.isEmpty then { k with doneLead := none, doneTrail := none } else k

end Sys2Proof.Machine
end

