-- ==== Sys2Proof/Machine/PdiCore.lean ====
section
/-! DEFINITION. Releases of the next bank (R270–R274, R591, R592) and the partition of its writes by service class
(R370). -/

namespace Sys2Proof.Machine

/-- R592: a required pair has set its bit, or counts as having set it. -/
def pairReleased (l : Nat) (s : State) : Bool :=
  let p := pairOf s l
  s.flow.release.getLsbD (1 + l) ||
    !(match p.st with | .locked => true | _ => false) ||
    (p.configured && p.cfg.classes ≠ 0 && p.ready &&& p.cfg.classes = 0)

/-- R592: every bit that PDI_REL_MASK requires is set. -/
def releaseComplete (s : State) : Bool :=
  (!(s.flow.relMask.getLsbD 0) || s.flow.release.getLsbD 0) &&
  (List.range 4).all (fun l => !(s.flow.relMask.getLsbD (1 + l)) || pairReleased l s)

/-- RELEASE_NS of the running image, in ticks; 50,000 ns without one (R30). -/
def releaseT (s : State) : Nat := match s.sched.running with | some im => nsT im.releaseNs | none => nsT 50000

/-- R270, R272, R592: a release that becomes complete is the release; one past the deadline is late. -/
def checkRelease (s : State) : State :=
  if s.flow.relPend || !releaseComplete s then s
  else
    let late := nextInstant s - s.now < releaseT s
    modFlow (fun w => { w with
      relPend := true, relNow := s.now, relLate := late, ctr := if late then ctrInc w.ctr 1 else w.ctr }) s

/-- R270: the complete release lies at least RELEASE_NS before now, the moment of an instant. -/
def releaseEffective (s : State) : Bool := s.flow.relPend && s.flow.relNow + releaseT s ≤ s.now

/-- R591: a party sets its own bit of PDI_RELEASE. -/
def setRelease (bit : Nat) (s : State) : State :=
  checkRelease (modFlow (fun w => { w with release := w.release ||| (1#5 <<< bit) }) s)

/-- R370: the pair whose class refuses a write of party `i` to image block `b`. -/
def blockRefuses (i : Iface) (b : Nat) (s : State) : Option Nat :=
  match blockOwner s b with
  | none => none
  | some (_, c) =>
    if !c.produce then none
    else match classPair c.svc.toNat s with
      | none => none
      | some l =>
        let own := match i with | .pair k => k.val == l | _ => false
        let locked := match (pairOf s l).st with | .locked => true | _ => false
        if own && locked && (pairOf s l).ready.getLsbD c.svc.toNat then none else some l

end Sys2Proof.Machine
end

