-- ==== Sys2Proof/Machine/RepairCore.lean ====
section
/-! DEFINITION. The repair log, the reserves and the spare pair (R651, R652, R660–R664, R669, R671). -/

namespace Sys2Proof.Machine

/-- Self-repair changed. -/
def modRep (f : Rep → Rep) (s : State) : State := { s with rep := f s.rep }

/-- A counter of the repair status record: 0 CORR_SRAM, 1 SOFT_REPAIRS, 2 CORR_DRAM, 3 RETIRE_DENIED, 4 ROTATIONS,
5 ROT_DEFER, 6 TEST_FAIL. -/
def repCount (i : Nat) (s : State) : State := modRep (fun r => { r with ctr := ctrInc r.ctr i }) s

/-- The cluster changed. -/
def modLsk (f : Lsk → Lsk) (s : State) : State := { s with lsk := f s.lsk }

/-- A repair or retirement written to the log (R669), with REP_REPAIR (R671). -/
def repairEntry (cls loc left : Nat) (atStart : Bool) (s : State) : State :=
  let e : RepEntry :=
    { time := s.now / secT 1, cls := BitVec.ofNat 8 cls, unsure := timeUnsure s, atStart := atStart,
      loc := BitVec.ofNat 32 loc, left := BitVec.ofNat 16 left }
  raise 0x0D01 (leBytes 1 cls ++ leBytes 4 loc ++ leBytes 2 left) (modRep (fun r => { r with hist := keepLast 1024 (r.hist ++ [e]) }) s)

/-- REP_RESERVE when a reserve that stood above 0 has reached it (R18, R671). -/
def reserveEmpty (bit before after : Nat) (s : State) : State :=
  if before ≠ 0 && after = 0 then raise 0x0D02 (leBytes 1 bit) s else s

/-- R663: physical pair `p` is never used again; the reserve falls to 0 and rotation stops. -/
def retirePair (p : Nat) (atStart : Bool) (s : State) : State :=
  let before := b2n s.rep.pair
  let s1 := modRep (fun r => { r with
    retired := r.retired ||| (1#5 <<< p), pair := false, rotStopped := true,
    fenced := r.fenced &&& ~~~ (1#5 <<< p), refenced := r.refenced &&& ~~~ (1#5 <<< p) }) s
  reserveEmpty 0 before 0 (repairEntry 6 p 0 atStart s1)

/-- A fence of physical pair `p` is noted: whether it is the second within 24 h (R663). -/
def noteFence (p : Nat) (s : State) : State :=
  let again : Bool := match s.rep.fenceClk.getD p none with | some c => s.clk ≤ c + secT 86400 | none => false
  modRep (fun r => { r with
    fenceClk := updAt r.fenceClk p (fun _ => some s.clk), fenced := r.fenced ||| (1#5 <<< p),
    refenced := if again then r.refenced ||| (1#5 <<< p) else r.refenced }) s

/-- R662, R663: a freed physical pair goes to logic self-test, or is retired at once after a checker fault. -/
def freePair (p cause : Nat) (s : State) : State :=
  let s1 := modLsk (fun k => { k with spare := none, spareReady := false }) s
  if cause = 2 then retirePair p false s1 else modRep (fun r => { r with testing := some (Fin.ofNat 5 p) }) s1

end Sys2Proof.Machine
end

