-- ==== Sys2Proof/Machine/Twin.lean ====
section
/-! DEFINITION. Twins, heartbeats, takeover, racking and the planned switchover (R316–R356). -/

namespace Sys2Proof.Machine

/-! ## Heartbeats (R328–R331) -/

/-- The node's heartbeat (R331), SWITCH set by a planned switchover or as its echo (R349). -/
def ownHeartbeat (s : State) : Heartbeat :=
  let t := s.twin
  let k : Option (BitVec 32) := match t.switching with
    | some (some k) => if isActive s then some k else none
    | _ => if t.echoed && !isActive s then some t.echoK else none
  { uid := s.sys.uid, vid := s.ina.vid, addr := s.ina.addr, role := BitVec.ofNat 3 (roleCode t.role),
    preferred := t.preferred, twHeard := t.twHeard, trunkHeard := t.trHeard, switch := k.isSome, ownGen := sentGen s,
    seenGen := t.seen, gen := s.ina.gen, cycle := cycleNo s, switchCycle := k.getD 0, flowRgen := t.flowRgen,
    regionRgen := t.regionRgen }

/-- A heartbeat on both twin links. -/
def twinLinks (h : Heartbeat) (s : State) : State := emits [.twinLink 0 h, .twinLink 1 h] s

/-- The partner as the directory in force numbers it. -/
def numberedPartner (s : State) : Option (BitVec 64) := s.ina.dir.bind (fun d => uidAt d (twinAddr s))

/-- The length of a heartbeat on the trunk. -/
def heartbeatLen (h : Heartbeat) : Nat := max 64 (18 + (heartbeatFrameBytes h).length)

/-- The trunk MAC address of the partner that the directory in force numbers; none where the node sends none. -/
def partnerMac (s : State) : Option (BitVec 48) := if joined s then (numberedPartner s).map trunkMac else none

/-- R329: the heartbeat as a management frame, to the partner's trunk MAC address. -/
def heartbeatFrame (h : Heartbeat) (s : State) : State :=
  match partnerMac s with
  | some a => mgmtSend (trainPorts s) (.heartbeat (some a) h) (heartbeatLen h) s
  | none => s

/-- R328, R329 at an instant. -/
def sendHeartbeats (s : State) : State :=
  if !s.twin.configured then s
  else
    let h := ownHeartbeat s
    let s1 := twinLinks h s
    if s.sched.noPoll then heartbeatFrame h s1 else s1

/-- One heartbeat showing Out of service. -/
def outHeartbeat (s : State) : Heartbeat := { ownHeartbeat s with role := 0, ownGen := 0, switch := false, switchCycle := 0 }

/-- R356: it goes out on both paths, on the trunk at once: the reset that follows leaves no queue. -/
def sendOutBoth (s : State) : State :=
  if !s.twin.configured then s
  else
    let h := outHeartbeat s
    let s1 := twinLinks h s
    match partnerMac s1 with
    | some a => forEach (trainPorts s1) (fun p s => trunkOut p (.heartbeat (some a) h) none s) s1
    | none => s1

/-- R317: the state with the sender recorded, or none where the heartbeat is not accepted. -/
def acceptPartner (uid : BitVec 64) (vid : BitVec 48) (s : State) : Option State :=
  if !s.twin.configured || !joined s || uid = s.sys.uid || vid ≠ s.ina.vid then none
  else match s.twin.partner with
    | some u => if u = uid then some s else none
    | none =>
      if s.twin.recAgain && numberedPartner s ≠ some uid then none
      else some (modTwin (fun t => { t with partner := some uid }) s)

/-- The polled heartbeat entries of the partner (R329). -/
def heartbeatEntries (polled : List Nat) (s : State) : List Nat :=
  match s.sched.running with
  | none => []
  | some im => polled.filter (fun n => match entryAt im n with
    | some e => s.twin.configured && e.flags.getLsbD 0 && roleMatches e.role (twinAddr s) s
    | none => false)

/-- R184, R185, R329, R330: what a heartbeat on trunk port `p` at pin time `t` is for the schedule. In the window of one of
the partner's polled heartbeat entries it is received and the path heard; outside it counts under WINDOW_VIOL and, in the
slot region in no polled window, under UNEXPECTED, and is not taken. Where no such entry is polled it is a management frame,
which is heard under NO_POLL only. The answer: none not taken, some whether heard. -/
def trunkHeartbeat (p : Nat) (t : Int) (s : State) : Option Bool × State :=
  match s.sched.running with
  | none => (some s.sched.noPoll, s)
  | some im =>
    let ok := pathOk (lineState s (lineOfPort p)) s
    let stray := ok && inSlotRegion im p t s && (windowEntry im p t s).isNone
    let es := heartbeatEntries (polledEntries s) s
    let s1 := if stray && !inBackbone s then schedCount 9 s else s
    match es.find? (fun n => match entryAt im n with | some e => inWindow im p t e s | none => false) with
    | some n => if ok then (some true, entryReceived n (p % 2 == 1) s1) else (none, s1)
    | none =>
      match es with
      | [] => if stray && !inBackbone s then (none, s1) else (some s.sched.noPoll, s1)
      | n :: _ => (none, if ok then windowViolation n s1 else s1)

/-- What the heartbeat's fields change in the node's record of its partner; `tw` and `tr` say which path it makes heard. -/
def noteHeartbeat (tw tr : Bool) (h : Heartbeat) (t : Twin) : Twin :=
  let was := (t.hb.map (fun x => x.role)).getD 7
  let returns := h.role = 1 && was ≠ 1
  { t with
    hb := some h
    twNow := t.twNow || tw
    trNow := t.trNow || tr
    hbActive := t.hbActive || h.role = 3
    hbOut := t.hbOut || h.role = 0
    hbReturning := if returns then true else if h.role = 1 then t.hbReturning else false
    fullDone := if returns then false else t.fullDone
    frameSince := true
    seen := if t.seen.toNat < h.seenGen.toNat then h.seenGen else t.seen }

/-- R349: SWITCH heard by a Standby node, or echoed to the Active one. -/
def noteSwitch (h : Heartbeat) (t : Twin) : Twin :=
  if !h.switch then t
  else match t.role with
    | .standby => { t with echoed := true, echoK := h.switchCycle }
    | .active => (match t.switching with
        | some (some k) => if k = h.switchCycle then { t with echoed := true } else t
        | _ => t)
    | _ => t

/-- A heartbeat taken from the partner. -/
def heartbeatIn (tw tr : Bool) (h : Heartbeat) (s : State) : State :=
  let s1 := learnClaim h.ownGen h.preferred h.addr (modTwin (fun t => noteSwitch h (noteHeartbeat tw tr h t)) s)
  if h.preferred = s.twin.preferred then raise 0x0605 (leBytes 1 1) s1 else s1

/-- A valid heartbeat: R317 accepts it or not. -/
def takeHeartbeat (tw tr : Bool) (h : Heartbeat) (s : State) : State :=
  match acceptPartner h.uid h.vid s with | some s1 => heartbeatIn tw tr h s1 | none => s

/-- The frame at pin time `t` starts in the slot region of port `p`. -/
def slotAt (p : Nat) (t : Int) (s : State) : Bool :=
  match s.sched.running with | some im => inSlotRegion im p t s | none => false

/-- R37, R176, R184, R185: a heartbeat goes on from trunk port `p`: in the slot region at once and never onto a T1 hop,
otherwise behind what waits. -/
def heartbeatPass (p : Nat) (t : Int) (h : Heartbeat) (s : State) : State :=
  let f : OutFrame := .heartbeat (if slotAt p t s then none else s.ina.dir.bind (fun d => (uidAt d (h.addr ^^^ 1)).map trunkMac)) h
  if !(slotAt p t s) then forwardLen p f (heartbeatLen h) s
  else if onT1 (portOf s (acrossPort p)) then s
  else forwardAtOnce p f (heartbeatLen h) s

/-- A heartbeat on trunk port `p` at pin time `t`: judged by the schedule first. One of the slot region goes on whatever becomes
of it here (R176, R184, R185), a management frame where it is not the partner's to this node (R329). -/
def heartbeatTrunk (p : Nat) (t : Int) (h : Heartbeat) (s : State) : State :=
  if keptOut (some p) s then s
  else if (acceptPartner h.uid h.vid s).isNone then heartbeatPass p t h (if straysAt p t s then schedCount 9 s else s)
  else
    let x := trunkHeartbeat p t s
    let s1 := if slotAt p t s then heartbeatPass p t h x.2 else x.2
    match x.1 with
    | some heard => takeHeartbeat false heard h s1
    | none => s1

/-- A heartbeat on a path. -/
def heartbeatOn (path : HbPath) (h : Heartbeat) (s : State) : State :=
  match path with
  | .trunk p tRx => heartbeatTrunk p.val (pinRx (portOf s p.val) tRx) h s
  | _ => takeHeartbeat true false h s

/-- HEARTBEAT_RX (R184, R317, R318, R323, R328–R331, R334, R337, R349). -/
def execHeartbeatRx (dt : Nat) (path : HbPath) (h : Heartbeat) (s : State) : Host.Outcome State Fault Refusal :=
  .next (heartbeatOn path h (begin_ dt s))

/-! ## Paths and ages at an instant (R332, R348) -/

/-- TWIN_PATH when path `n` changes between heard and silent. -/
def pathEvent (n : Nat) (was now : Bool) (s : State) : State :=
  if was = now then s else raise 0x0602 (leBytes 1 n ++ leBytes 1 (b2n !now)) s

/-- R332: the closed cycle's paths; whether SILENT reached 3. -/
def twinPaths (s : State) : Bool × State :=
  let t := s.twin
  let silent := if t.twNow || t.trNow then 0 else min 3 (t.silent + 1)
  let s1 := modTwin (fun t => { t with twHeard := t.twNow, trHeard := t.trNow, silent := silent, twNow := false, trNow := false }) s
  let s2 := if t.twNow then s1 else twinCount 2 s1
  let s3 := if t.trNow then s2 else twinCount 3 s2
  (t.silent = 2 && silent = 3, pathEvent 1 t.trHeard t.trNow (pathEvent 0 t.twHeard t.twNow s3))

/-- R348: an age at the instant of cycle `n`. -/
def rackAge (n : BitVec 32) (c : Option (BitVec 32)) : BitVec 16 :=
  match c with
  | none => 0xFFFF
  | some c => BitVec.ofNat 16 (min 0xFFFE (n - c).toNat)

/-- The ages of a node that is not Active (R348, R354). -/
def ageAtInstant (s : State) : State :=
  if isActive s then s
  else modTwin (fun t => { t with flowAge := rackAge (cycleNo s) (t.applied.map (fun a => a.1)),
                                  regionAge := rackAge (cycleNo s) t.appliedRegion }) s

/-! ## Roles at an instant (R320, R333–R338, R349–R351) -/

/-- A planned switchover ends with a status, and the TWIN_SERVICE that waited for it with it (R349, R351). -/
def endSwitchover (status : Nat) (s : State) : State :=
  let after := s.twin.outAfter
  let s1 := finishQueued (fun q => q.opcode == 0x0603 || (after && q.opcode == 0x0604 && q.arg == 0)) status s
  modTwin (fun t => { t with switching := none, switchSnap := false, outAfter := false, echoed := false }) s1

/-- R351: Out of service or return, as commanded. -/
def serviceAtInstant (s : State) : State :=
  let s1 := match s.twin.outAt with
    | some c =>
      let s0 := endSwitchover 0x010B s
      finishQueued (fun q => q.opcode == 0x0604 && q.arg == 0) 0 (setRole .out c.toNat (modTwin (fun t => { t with
        outAt := none, heldOut := true }) s0))
    | none => s
  if s1.twin.returnAt then
    finishQueued (fun q => q.opcode == 0x0604 && q.arg == 1) 0 (modTwin (fun t => { t with
      returnAt := false, heldOut := false, joinedBefore := false, joinedCycles := 0 }) s1)
  else s1

/-- R349 at k: the Active node steps down when it has received the echo, and cancels otherwise. -/
def switchoverAtInstant (s : State) : State :=
  match s.twin.switching with
  | some (some k) =>
    if !(isActive s) || cycleNo s ≠ k then s
    else if s.twin.echoed then
      let out := s.twin.outAfter
      let s1 := modTwin (fun t => { t with heldOut := t.heldOut || out }) (twinCount 1 s)
      endSwitchover 0 (if out then setRole .out 6 s1 else setRole .returning 5 s1)
    else endSwitchover 0x010B (raise 0x0607 (leBytes 4 k.toNat) s)
  | _ => s

/-- A start to Active (R320): the claim is raised. -/
def startActive (s : State) : State := setRole .active 1 (raiseClaim s)

/-- R320: the next role of a joined node that is Out of service and not held out. -/
def startRole (s : State) : State :=
  let t := s.twin
  if t.heldOut || !t.joinedBefore then s
  else if partnerRole s = 3 then setRole .returning 1 s
  else if t.preferred then (if t.hbActive then s else startActive s)
  else
    let n := if t.hbActive then 0 else min 8 (t.joinedCycles + 1)
    let s1 := modTwin (fun t => { t with joinedCycles := n }) s
    if 8 ≤ n then startActive s1 else s1

/-- R333, R334, R349: the takeover this instant calls for, by its TWIN_ROLE cause. -/
def takeoverCause (reached : Bool) (s : State) : Option Byte :=
  let t := s.twin
  let standby := match t.role with | .standby => true | _ => false
  if standby && t.echoed && t.echoK = cycleNo s then some 5
  else if reached then some 2
  else if t.hbOut then some 3
  else none

/-- R350: racking is complete. -/
def rackComplete (t : Twin) : Bool := (t.fullApplied || !t.regionOn) && t.flowAfterFull

/-! ## Snapshots (R341–R344, R349, R350) -/

/-- A generation that starts with this instant's snapshot. -/
def newGen (rgen : BitVec 32) (items : List RackItem) (s : State) : RackGen where
  rgen := rgen
  cycle := cycleNo s
  part := 0
  items := items
  parts := []
  sent := 0
  committed := false
  cyclesSince := 0

/-- Page `n` of the application region (R342). -/
def regionPage (n : Nat) (s : State) : List Byte := memRead s.lsk.work (s.twin.regionOff + 4096 * n) 4096

/-- Items of some pages. -/
def pageItems (ps : List Nat) (s : State) : List RackItem := ps.map (fun n => .page (BitVec.ofNat 16 n) (regionPage n s))

/-- The pages a generation holds. -/
def genPages (g : RackGen) : List Nat := g.items.filterMap (fun i => match i with | .page n _ => some n.toNat | _ => none)

/-- R341: the items of a flow snapshot. FLAGS are those of the area header. -/
def flowItems (s : State) : List RackItem :=
  let cs := s.flow.ctx.filter (fun e => e.2.enable && e.2.produce)
  cs.map (fun e => .ctx (BitVec.ofNat 16 e.1) (runOf s e.1).seq (runOf s e.1).fresh (memGet (outBank s) (areaBase e.2 + 3))) ++
  cs.flatMap (fun e => (List.range (areaBlocks e.2)).map (fun b =>
    .block (BitVec.ofNat 16 (e.2.imgBlock.toNat + b)) (memRead (outBank s) (areaBase e.2 + 64 * b) 64)))

/-- The node is Active and its partner in Standby or Returning (R340). -/
def racks (s : State) : Bool := isActive s && (partnerRole s = 1 || partnerRole s = 2)

/-- R341: the flow snapshot, once the previous generation has committed. -/
def flowSnapshot (s : State) : State :=
  if racks s && s.twin.flowOut.isNone then
    modTwin (fun t => { t with flowOut := some (newGen (t.flowRgen + 1) (flowItems s) s) }) s
  else s

/-- R350: the full-region generation that follows a partner's return. -/
def fullSnapshot (s : State) : State :=
  if racks s && s.twin.hbReturning then
    if s.twin.regionOn then
      modTwin (fun t => { t with
        fullOut := some (newGen (t.fullRgen + 1) (pageItems (List.range t.regionPages) s) s), fullRgen := t.fullRgen + 1,
        regionOut := none, hbReturning := false, fullDone := false, dirty := [], behind := false, pool := 0 }) s
    else modTwin (fun t => { t with hbReturning := false, fullDone := true }) s
  else s

/-- Pages marked dirty. -/
def markDirty (ps : List Nat) (t : Twin) : Twin :=
  { t with dirty := ps.foldl (fun l p => if l.contains p then l else insertNat p l) t.dirty }

/-- R343, R349: the partner's report of the region generation awaiting it, or its abandonment when two cycles have passed
since its commit. SWITCH_CYCLE is c + 3 for the closed cycle c. -/
def regionReport (s : State) : State :=
  match s.twin.regionOut with
  | none => s
  | some g =>
    if g.committed && (match s.twin.hb with | some h => h.regionRgen == g.rgen | none => false) then
      modTwin (fun t => { t with
        regionOut := none
        switching := if t.switching = some none && t.switchSnap then some (some (cycleNo s + 2)) else t.switching }) s
    else if g.committed && 2 ≤ g.cyclesSince then
      modTwin (fun t => { markDirty (genPages g) t with regionOut := none, switchSnap := false }) s
    else modTwin (fun t => { t with regionOut := some { g with cyclesSince := if g.committed then g.cyclesSince + 1 else 0 } }) s

/-- A generation still has page `p` to send (R344). -/
def unsentPage (p : Nat) (g : RackGen) : Bool := !g.committed && (genPages { g with items := g.items.drop g.sent }).contains p

/-- R344: a write to page `p` that waits for the copy pool: the page is held unsent, uncopied, and the 256 places are
taken. -/
def mustCopy (p : Nat) (t : Twin) : Bool :=
  !(t.dirty.contains p) && ([t.regionOut, t.fullOut].any (fun g => match g with | some g => unsentPage p g | none => false))

/-- R344: a write to page `p` has to wait: it must copy the page, and the pool's 256 places are taken. -/
def waits (p : Nat) (t : Twin) : Bool := mustCopy p t && 256 ≤ t.pool

/-- R342, R344: a write to a page goes through, with the page copied first where a generation holds it unsent. -/
def putRegion (w : Nat × Nat × List Byte) (s : State) : State :=
  modTwin (fun t => { markDirty [w.1] t with pool := if mustCopy w.1 t then t.pool + 1 else t.pool })
    { s with lsk := { s.lsk with
      work := memWrite s.lsk.work (s.twin.regionOff + 4096 * w.1 + w.2.1) (w.2.2.take (4096 - w.2.1)) } }

/-- R342, R344: a write to a page of the region, or its wait for the pool, counted once. -/
def writeRegion (w : Nat × Nat × List Byte) (s : State) : State :=
  if waits w.1 s.twin then twinCount 6 (modTwin (fun t => { t with waiting := t.waiting ++ [w] }) s) else putRegion w s

/-- R344: the writes that waited and need wait no longer go through, in their order. -/
def drainWaiting (s : State) : State :=
  forEach s.twin.waiting (fun w s =>
    if waits w.1 s.twin then modTwin (fun t => { t with waiting := t.waiting ++ [w] }) s else putRegion w s)
    (modTwin (fun t => { t with waiting := [] }) s)

/-- R343: the region snapshot, or its deferral. -/
def regionSnapshot (s : State) : State :=
  let t := s.twin
  if !(racks s) || !t.regionOn || t.regionOut.isSome || t.fullOut.isSome || !(partnerRole s = 2 || t.fullDone) then s
  else if 1024 < t.dirty.length then
    let s1 := twinCount 5 (modTwin (fun t => { t with behind := true }) s)
    if t.behind then s1 else raise 0x0606 (leBytes 2 t.dirty.length) s1
  else
    modTwin (fun t => { t with
      regionOut := some (newGen (t.regionRgen + 1) (pageItems t.dirty s) s), dirty := [], behind := false, pool := 0,
      switchSnap := t.switchSnap || t.switching = some none }) s

/-- A generation in transfer has no partner left to take it: its pages are dirty again. -/
def loseTransfers (s : State) : State :=
  if !(isActive s) || racks s then s
  else
    let ps := match s.twin.regionOut with | some g => genPages g | none => []
    let s1 := modTwin (fun t => { markDirty ps t with flowOut := none, regionOut := none, fullOut := none, pool := 0 }) s
    if s.twin.switching = some none then endSwitchover 0x010B s1 else s1

/-- R349 without a region: SWITCH is due at once. -/
def switchWithoutRegion (s : State) : State :=
  if racks s && !s.twin.regionOn && s.twin.switching = some none then
    modTwin (fun t => { t with switching := some (some (cycleNo s + 2)) }) s
  else s

/-- The snapshots of an instant, after the bank swap. -/
def rackAtInstant (s : State) : State :=
  regionSnapshot (fullSnapshot (flowSnapshot (switchWithoutRegion (regionReport (drainWaiting (loseTransfers s))))))

/-! ## Taking over and stepping down (R333–R339) -/

/-- R347, R350: changed pages alone make no valid region on a node that still waits for its full region. -/
def isBase (t : Twin) : Bool := match t.role with | .returning => t.fullApplied | _ => true

/-- R347: staged pages copied into the region; the generation is applied. -/
def applyStaging (s : State) : State :=
  match s.twin.staging with
  | none => s
  | some g =>
    let put (m : Mem) (i : RackItem) : Mem := match i with
      | .page n d => if n.toNat < s.twin.regionPages then memWrite m (s.twin.regionOff + 4096 * n.toNat) (padTo 4096 d) else m
      | _ => m
    let s1 := { s with lsk := { s.lsk with work := g.items.foldl put s.lsk.work } }
    modTwin (fun t => { t with staging := none, appliedRegion := some g.cycle, regionRgen := g.rgen, regionCycle := g.cycle,
                               regionValid := t.regionValid || isBase t }) s1

/-- R335: the racked flow state becomes the node's own, as old as its flow age. -/
def restoreFlow (age : Nat) (s : State) : State :=
  match s.twin.applied with
  | none => s
  | some (_, items) => forEach items (fun i s => match i with
    | .ctx n seq fresh _ => modRun n.toNat (fun r => { r with seq := seq + BitVec.ofNat 32 age, fresh := fresh + BitVec.ofNat 16 age }) s
    | .block n d => modOut (fun m => memWrite m (64 * n.toNat) (padTo 64 d)) s
    | .page _ _ => s) s

/-- R335, R347: every partial generation is discarded. -/
def discardPartials (s : State) : State :=
  let k := b2n s.twin.inFlow.isSome + b2n s.twin.inRegion.isSome + b2n s.twin.inFull.isSome
  modTwin (fun t => { t with inFlow := none, inRegion := none, inFull := none, ctr := updAt t.ctr 4 (satAdd k) }) s

/-- R335: a release due at this instant is not taken, and PDI_RELEASE clears. -/
def releaseNotTaken (s : State) : State := modFlow (fun w => { w with release := 0, relPend := false, relLate := false }) s

/-- R333–R335: the takeover, or at an Active node the reassertion. -/
def takeOver (cause : Nat) (s : State) : State :=
  if isActive s then twinCount 0 (raiseClaim s)
  else
    let s1 := ageAtInstant (applyStaging s)
    let s2 := discardPartials (releaseNotTaken (restoreFlow s1.twin.flowAge.toNat s1))
    let s3 := setRole .active cause (twinCount 0 (raiseClaim s2))
    let t := s3.twin
    raise 0x0603 (leBytes 2 t.own.toNat ++ leBytes 2 t.flowAge.toNat ++ leBytes 2 t.regionAge.toNat) s3

/-- R337, R338: the step-down. -/
def stepDownNow (cause : Nat) (s : State) : State :=
  setRole .returning cause (endSwitchover 0x010B (twinCount 1 s))

/-- The role a joined node takes at this instant: its start, a takeover, a reassertion, a step-down or the end of racking
(R320, R333–R338, R350). -/
def roleAtInstant (reached : Bool) (s : State) : State :=
  match s.twin.role with
  | .out => startRole s
  | .active =>
    if s.twin.foreignStop then stepDownNow 9 s
    else if reached then takeOver 2 s
    else if s.twin.higher then stepDownNow 4 s
    else s
  | _ =>
    match takeoverCause reached s with
    | some c => takeOver c.toNat s
    | none =>
      (match s.twin.role with
       | .returning => if rackComplete s.twin then setRole .standby 8 s else s
       | _ => s)

/-- The twins at an instant, to the roles (R320, R332–R339, R349–R351). -/
def twinAtInstant (s : State) : State :=
  if !s.twin.configured then modTwin (fun t => { t with joinedBefore := joined s }) s
  else
    let s1 := serviceAtInstant (ageAtInstant (modTwin (fun t => { t with fresh := min 2 (t.fresh + 1) }) s))
    let x := twinPaths s1
    let s2 := ageAtInstant (if joined x.2 then roleAtInstant x.1 (switchoverAtInstant x.2) else x.2)
    modTwin (fun t => { t with hbActive := false, hbOut := false, higher := false, joinedBefore := joined s2 }) s2

/-! ## Racking frames (R340, R344–R347) -/

/-- Bytes of an item with its header (R345). -/
def itemSize (i : RackItem) : Nat := match i with | .ctx _ _ _ _ => 16 | .block _ _ => 72 | .page _ _ => 4104

/-- The bytes of an item. -/
def itemBytes (i : RackItem) : List Byte :=
  match i with
  | .ctx n seq fresh flags => leBytes 2 1 ++ leBytes 2 n.toNat ++ leBytes 4 8 ++ leBytes 4 seq.toNat ++ leBytes 2 fresh.toNat ++ [flags, 0]
  | .block n d => leBytes 2 2 ++ leBytes 2 n.toNat ++ leBytes 4 64 ++ padTo 64 d
  | .page n d => leBytes 2 3 ++ leBytes 2 n.toNat ++ leBytes 4 4096 ++ padTo 4096 d

/-- R345, R346: the body of a racking frame. -/
def rackBytes (f : RackFrame) : List Byte :=
  [f.stream] ++ leBytes 1 (if f.commit then 2 else 1) ++ leBytes 2 (if f.commit then 0 else f.items.length) ++
  leBytes 4 f.rgen.toNat ++ leBytes 4 f.cycle.toNat ++ leBytes 4 f.part.toNat ++
  (if f.commit then leBytes 4 f.totItems.toNat ++ leBytes 4 f.totBytes.toNat ++ leBytes 4 f.crc.toNat
   else f.items.flatMap itemBytes)

/-- R345: a racking frame behind its header. -/
def rackFrameBytes (f : RackFrame) : List Byte := padaitHeader 0x31 (rackBytes f).length ++ rackBytes f

/-- The items at the head of a list that fit into some bytes. -/
def fitItems : Nat → List RackItem → List RackItem
  | _, [] => []
  | room, i :: is => if itemSize i ≤ room then i :: fitItems (room - itemSize i) is else []

/-- Total item bytes. -/
def itemsSize (is : List RackItem) : Nat := (is.map itemSize).sum

/-- CRC of all item bytes in PART order (R346). -/
def itemsCrc (is : List RackItem) : BitVec 32 := crc32c (is.flatMap itemBytes)

/-- The next frame of a generation within `room` bytes of body (R345, R346), and the generation after it. -/
def nextRackFrame (stream room : Nat) (g : RackGen) (s : State) : Option (RackFrame × RackGen) :=
  let base : RackFrame :=
    { uid := s.sys.uid, stream := BitVec.ofNat 8 stream, commit := false, rgen := g.rgen, cycle := g.cycle, part := g.part,
      items := [], totItems := 0, totBytes := 0, crc := 0 }
  let rest := g.items.drop g.sent
  if rest.isEmpty then
    if room < 28 then none
    else some ({ base with commit := true, totItems := BitVec.ofNat 32 g.items.length,
                           totBytes := BitVec.ofNat 32 (itemsSize g.items), crc := itemsCrc g.items },
      { g with part := g.part + 1, committed := true })
  else
    let now := fitItems (min room 4120 - 16) rest
    if now.isEmpty then none
    else some ({ base with items := now }, { g with part := g.part + 1, sent := g.sent + now.length })

/-- R344: pages that leave and had been copied free their place in the copy pool. -/
def freeCopies (f : RackFrame) (t : Twin) : Twin :=
  let n := (f.items.filter (fun i => match i with | .page p _ => t.dirty.contains p.toNat | _ => false)).length
  { t with pool := t.pool - n }

/-- The racking frame that leaves next, by the streams' priority (R340). -/
def sendRack (room : Nat) (s : State) : State :=
  let t := s.twin
  match t.flowOut, t.regionOut.filter (fun g => !g.committed), t.fullOut with
  | some g, _, _ => (match nextRackFrame 1 room g s with
    | some (f, g) => emit (.rack f) (modTwin (fun t =>
        if g.committed then { t with flowOut := none, flowRgen := g.rgen, flowCycle := g.cycle } else { t with flowOut := some g }) s)
    | none => s)
  | none, some g, _ => (match nextRackFrame 2 room g s with
    | some (f, g) => emit (.rack f) (modTwin (fun t =>
        let t := freeCopies f { t with regionOut := some g }
        if g.committed then { t with regionRgen := g.rgen, regionCycle := g.cycle } else t) s)
    | none => s)
  | none, none, some g => (match nextRackFrame 3 room g s with
    | some (f, g) => emit (.rack f) (modTwin (fun t =>
        if g.committed then { t with fullOut := none, fullDone := true } else freeCopies f { t with fullOut := some g }) s)
    | none => s)
  | none, none, none => s

/-- RACKING_FRAME_SEND (R340, R341, R344–R346): from 6 µs after the instant to 10 µs before the next. -/
def execRackingFrameSend (dt : Nat) (room : Nat) (s : State) : Host.Outcome State Fault Refusal :=
  let s := begin_ dt s
  .next (if isActive s && lastInstant s + usT 6 ≤ s.now && s.now + usT 10 ≤ nextInstant s then drainWaiting (sendRack room s)
    else s)

/-- A generation being collected in a stream. -/
def inGen (stream : Nat) (t : Twin) : Option RackGen := if stream = 1 then t.inFlow else if stream = 2 then t.inRegion else t.inFull

/-- It changed. -/
def setInGen (stream : Nat) (g : Option RackGen) (t : Twin) : Twin :=
  if stream = 1 then { t with inFlow := g } else if stream = 2 then { t with inRegion := g } else { t with inFull := g }

/-- A generation of which nothing has arrived. -/
def emptyGen (f : RackFrame) : RackGen where
  rgen := f.rgen
  cycle := f.cycle
  part := 0
  items := []
  parts := []
  sent := 0
  committed := false
  cyclesSince := 0

/-- R347: the generation a frame belongs to: a newer RGEN discards the one being collected, an older one is nothing. -/
def genFor (stream : Nat) (f : RackFrame) (s : State) : Option RackGen × State :=
  match inGen stream s.twin with
  | none => (some (emptyGen f), s)
  | some g =>
    if g.rgen = f.rgen then (some g, s)
    else if wrapNewer f.rgen g.rgen then (some (emptyGen f), twinCount 4 s)
    else (none, s)

/-- R347: full-region pages go into the region at once, which is invalid until the commit. -/
def writeFullPages (items : List RackItem) (s : State) : State :=
  let put (m : Mem) (i : RackItem) : Mem := match i with
    | .page n d => if n.toNat < s.twin.regionPages then memWrite m (s.twin.regionOff + 4096 * n.toNat) (padTo 4096 d) else m
    | _ => m
  modTwin (fun t => { t with regionValid := false, fullApplied := false, flowAfterFull := false })
    { s with lsk := { s.lsk with work := items.foldl put s.lsk.work } }

/-- Pages of the region, 0 without one. -/
def regionSize (t : Twin) : Nat := if t.regionOn then t.regionPages else 0

/-- R347: a generation whose commit agrees is applied. The region is as old as a full-region generation that it holds
(DESIGN CHOICE, log 41). -/
def applyGen (stream : Nat) (g : RackGen) (s : State) : State :=
  if stream = 1 then
    modTwin (fun t => { t with applied := some (g.cycle, g.items), flowRgen := g.rgen, flowCycle := g.cycle,
                               flowAfterFull := t.flowAfterFull || t.fullApplied || !t.regionOn }) s
  else if stream = 2 then modTwin (fun t => { t with staging := some g }) (applyStaging s)
  else modTwin (fun t => { t with fullApplied := true, regionValid := true, appliedRegion := some g.cycle }) s

/-- The items of a PART among those received, in PART order (R345, R346); a PART that comes again changes nothing. -/
def putPart (n : BitVec 32) (is : List RackItem) : List (BitVec 32 × List RackItem) → List (BitVec 32 × List RackItem)
  | [] => [(n, is)]
  | p :: ps => if n = p.1 then p :: ps else if n.toNat < p.1.toNat then (n, is) :: p :: ps else p :: putPart n is ps

/-- A generation being collected with one more items frame. -/
def collect (f : RackFrame) (g : RackGen) : RackGen :=
  let ps := putPart f.part f.items g.parts
  { g with parts := ps, items := ps.flatMap (fun p => p.2), part := g.part + 1 }

/-- A racking frame taken from the partner (R345–R347). -/
def rackIn (stream : Nat) (f : RackFrame) (s : State) : State :=
  let x := genFor stream f s
  match x.1 with
  | none => x.2
  | some g =>
    if f.commit then
      let s1 := modTwin (setInGen stream none) x.2
      if stream = 3 && f.totItems.toNat ≠ regionSize s.twin then raise 0x0605 (leBytes 1 2) (twinCount 4 s1)
      else if f.totItems.toNat = g.items.length && f.totBytes.toNat = itemsSize g.items && f.crc = itemsCrc g.items then
        applyGen stream g s1
      else twinCount 4 s1
    else
      let s1 := modTwin (setInGen stream (some (collect f g))) x.2
      if stream = 3 then writeFullPages f.items s1 else s1

/-- RACKING_FRAME_RX (R317, R340, R345–R347). -/
def execRackingFrameRx (dt : Nat) (f : RackFrame) (s : State) : Host.Outcome State Fault Refusal :=
  let s := begin_ dt s
  let k := f.stream.toNat
  .next (if !s.twin.configured || !joined s || s.twin.partner ≠ some f.uid then s
    else
      let s1 := modTwin (fun t => { t with frameSince := true }) s
      if isWaiting s1 && 1 ≤ k && k ≤ 3 then rackIn k f s1 else s1)

/-- REGION_STAGING_APPLY (R347). -/
def execRegionStagingApply (dt : Nat) (s : State) : Host.Outcome State Fault Refusal := .next (applyStaging (begin_ dt s))

/-- COPY_ON_WRITE (R342, R344): a write of the cluster or the host to a page of the region, or its wait for the pool. -/
def execCopyOnWrite (dt : Nat) (page : Nat) (addr : Nat) (data : List Byte) (s : State) : Host.Outcome State Fault Refusal :=
  let s := begin_ dt s
  .next (if !s.twin.regionOn || s.twin.regionPages ≤ page || 4096 ≤ addr then s
    else writeRegion (page, addr, data) s)

/-! ## Commands (R353, R354) -/

/-- TWIN_STATUS. -/
def twinStatusSpec : CmdSpec := plainSpec 0x0601 4 ([(0, 0xFE)] ++ zeros 1 3)

/-- The twin status record (R354). -/
def twinRecord (s : State) : List Byte :=
  let t := s.twin
  recBytes 68 ([(0, 3, roleCode t.role), (3, 1, b2n t.preferred), (4, 3, partnerRole s), (7, 1, b2n t.heldOut),
    (8, 1, b2n t.twHeard), (9, 1, b2n t.trHeard), (10, 2, t.silent), (12, 1, b2n t.regionValid),
    (13, 1, b2n (t.switching.isSome || t.echoed)), (32, 16, if isActive s then t.own.toNat else 0), (48, 16, t.seen.toNat),
    (64, 32, (ownClaim 0 s).toNat), (96, 32, t.flowRgen.toNat), (128, 32, t.flowCycle.toNat),
    (160, 32, t.regionRgen.toNat), (192, 32, t.regionCycle.toNat), (224, 16, t.flowAge.toNat), (240, 16, t.regionAge.toNat)] ++
    ctrFields t.ctr ((List.range 8).map (fun n => 256 + 32 * n)) 504)

/-- The record, its counters cleared where asked. -/
def twinStatusBody (r : Ring) (s : State) : Reply × State :=
  (done (twinRecord s), if clearAsked r.req 0 then modTwin (fun t => { t with ctr := ctrClear t.ctr }) s else s)

/-- TWIN_CONFIG. -/
def twinConfigSpec : CmdSpec := flashSpec 0x0602 8 [(0, 0xFC), (1, 0xFF)]

/-- R353, R318, R342. A fabric-attached node is never a twin (R316): it is in no state for this command (DESIGN CHOICE,
log 41). -/
def twinConfigBody (r : Ring) (s : State) : Reply × State :=
  let on := (byteAt r.req 0).testBit 1
  let pages := fieldAt r.req 2 2
  let off := fieldAt r.req 4 4
  let outside := match s.twin.role with | .out => false | _ => !inSteep s
  if on && (pages = 0 || 4096 < pages) then (outOfRange 2, s)
  else if on && off % 4096 ≠ 0 then (outOfRange 4, s)
  else if on && 27 * 1048576 < off + 4096 * pages then (outOfRangeAll, s)
  else if outside || s.fab.attached then (notInState (roleCode s.twin.role), s)
  else (done [], modTwin (fun t => { t with
    configured := true, preferred := (byteAt r.req 0).testBit 0, regionOn := on, regionPages := if on then pages else 0,
    regionOff := if on then off else 0 }) s)

/-- TWIN_SWITCHOVER. -/
def twinSwitchoverSpec : CmdSpec := plainSpec 0x0603 4 (zeros 0 3)

/-- A planned switchover asked for. -/
def askSwitchover (t : Twin) : Twin := { t with switching := match t.switching with | some k => some k | none => some none }

/-- R349: at an Active node whose partner is in Standby. -/
def twinSwitchoverBody (_r : Ring) (s : State) : Reply × State :=
  if isActive s && partnerRole s = 2 then (queued 0, modTwin askSwitchover s) else (notInState (roleCode s.twin.role), s)

/-- TWIN_SERVICE. -/
def twinServiceSpec : CmdSpec := plainSpec 0x0604 4 ([(1, 0xFE)] ++ zeros 2 3)

/-- R351. -/
def twinServiceBody (r : Ring) (s : State) : Reply × State :=
  let op := byteAt r.req 0
  let force := (byteAt r.req 1).testBit 0
  if 2 ≤ op then (outOfRange 0, s)
  else if !s.twin.configured then (notInState 0, s)
  else if op = 1 then (queued 1, modTwin (fun t => { t with returnAt := true }) s)
  else if isActive s && partnerRole s = 2 then (queued 0, modTwin (fun t => { askSwitchover t with outAfter := true }) s)
  else if isActive s && !force then (notInState 3, s)
  else (queued 0, modTwin (fun t => { t with outAt := some 6 }) s)

/-- TWIN_RENEW. -/
def twinRenewSpec : CmdSpec := { plainSpec 0x0605 4 (zeros 0 3) with noRemote := true }

/-- R327: while both bypass switches are closed by command. -/
def twinRenewBody (_r : Ring) (s : State) : Reply × State :=
  if s.trunk.byCommand && s.trunk.lineA.closed && s.trunk.lineB.closed then
    (done [], modTwin (fun t => { t with own := 0, seen := 0, limitRaised := false }) s)
  else (notInStateAll, s)

/-- TWIN_STATUS (R354). -/
def execTwinStatus (dt : Nat) (r : Ring) (s : State) : Host.Outcome State Fault Refusal :=
  .next (submit twinStatusSpec twinStatusBody dt r s)

/-- TWIN_CONFIG (R353). -/
def execTwinConfig (dt : Nat) (r : Ring) (s : State) : Host.Outcome State Fault Refusal :=
  .next (submit twinConfigSpec twinConfigBody dt r s)

/-- TWIN_SWITCHOVER (R349). -/
def execTwinSwitchover (dt : Nat) (r : Ring) (s : State) : Host.Outcome State Fault Refusal :=
  .next (submit twinSwitchoverSpec twinSwitchoverBody dt r s)

/-- TWIN_SERVICE with out of service (R351). -/
def execTwinServiceOut (dt : Nat) (r : Ring) (s : State) : Host.Outcome State Fault Refusal :=
  .next (submit twinServiceSpec twinServiceBody dt r s)

/-- TWIN_SERVICE with return (R351). -/
def execTwinServiceReturn (dt : Nat) (r : Ring) (s : State) : Host.Outcome State Fault Refusal :=
  .next (submit twinServiceSpec twinServiceBody dt r s)

/-- TWIN_RENEW (R327). -/
def execTwinRenew (dt : Nat) (r : Ring) (s : State) : Host.Outcome State Fault Refusal :=
  .next (submit twinRenewSpec twinRenewBody dt r s)

/-- R356: what a supervisor-commanded node reset leaves of the twin part. -/
def twinReset (t : Twin) : Twin := { Twin.reset with
  configured := t.configured, preferred := t.preferred, regionOn := t.regionOn, regionPages := t.regionPages,
  regionOff := t.regionOff, heldOut := t.heldOut, seen := t.seen, ctr := t.ctr }

end Sys2Proof.Machine
end

