-- ==== Sys2Proof/Machine/Lockstep.lean ====
section
/-! DEFINITION. The lock-step cluster (R357–R393): faults and reactions, hand-overs, debug access, pair resets, service
classes, and the commands. What their cores do cycle by cycle stands in Cores.lean; the burin's verdicts, which let held
transactions go, in Bus.lean. -/

namespace Sys2Proof.Machine

/-- A counter of a pair's status record (R392): 0 DIVERGE, 1 CHECKER, 2 CACHE_CORR, 3 CACHE_UNCORR, 4 HOLD_STALL,
5 READ_HELD, 6 WRITE_REFUSED, 7 HANDOVERS, 8 HOK_WAIT. -/
def pairCount (l i : Nat) (s : State) : State := modPair l (fun p => { p with ctr := ctrInc p.ctr i }) s

/-- The code of a physical pair, 7 for none. -/
def physCode (p : Option (Fin 5)) : Nat := match p with | some x => x.val | none => 7

/-- STATE of the status record: a hand-over pending shows 0x5 (R392). -/
def pairState (p : Pair) : Nat := if p.pendHand.isSome && (pairLocked p || pairSplit p) then 5 else pairCode p.st

/-- The configured reaction, or R375's default. -/
def reactionOf (l : Nat) (s : State) : Nat :=
  let p := pairOf s l
  if p.configured then p.cfg.reaction else if s.twin.configured then 2 else 1

/-- Kinds of hand-over as LSK_HANDOVER gives them (R393). -/
def handCode (k : HandKind) : Nat := match k with | .split => 1 | .rejoin => 2 | .subst => 3 | .restart => 4

/-- The command that queues a hand-over. -/
def handOpcode (k : HandKind) : Nat := match k with | .split => 0x0704 | .rejoin => 0x0705 | .subst => 0x0706 | .restart => 0

/-- LSK_HANDOVER (R393). -/
def handEvent (l : Nat) (k : HandKind) (result : Nat) (s : State) : State :=
  raise 0x0702 (leBytes 1 l ++ leBytes 1 (handCode k) ++ leBytes 1 result ++ leBytes 1 (physCode (pairOf s l).phys)) s

/-- A hand-over completes: its count, its event and its queued command. -/
def handDone (l : Nat) (k : HandKind) (s : State) : State :=
  let s1 := modPair l (fun p => { p with pendHand := none, halted := false, substTo := none, handCycles := 0 }) s
  finishQueued (fun q => q.opcode.toNat == handOpcode k && q.arg == l) 0 (handEvent l k 0 (pairCount l 7 s1))

/-- A rotation step whose substitution is abandoned is due again, and deferred (R662). -/
def rotationLost (l : Nat) (s : State) : State :=
  if s.rep.rotRun.isSome && s.rep.rotRun = (pairOf s l).phys then
    repCount 5 (modRep (fun r => { r with
      rotRun := none, rotDeferred := true, rotDueClk := r.rotDueClk - secT (r.rotHours * 720) }) s)
  else s

/-- A pending hand-over is abandoned (R385, R386). -/
def handAbandon (l : Nat) (s : State) : State :=
  match (pairOf s l).pendHand with
  | none => s
  | some k =>
    let s1 := modPair l (fun p => { p with pendHand := none, halted := false, substTo := none, handCycles := 0 }) s
    finishQueued (fun q => q.opcode.toNat == handOpcode k && q.arg == l) 0x010B (handEvent l k 1 (rotationLost l s1))

/-! ## Faults (R374–R380) -/

/-- R383: what the state port reads: registers, CSRs, program counter and privilege level. -/
def archState (c : CoreState) : CoreState := { c with inner := [], l1i := [], l1d := [], l2 := [] }

/-- R377, R389: both cores stop, their caches are discarded, and nothing is on its way to them. -/
def stopCores (k : Cores) : Cores :=
  { k with lead := archState k.lead, trail := archState k.trail, delay := [], reads := [], instantIrq := false, pend := 0,
           faults := [], readsT := [], instantT := false, faultsT := [] }

/-- R377: the fence of pair `l` for a cause; window `w` is reported. -/
def fencePair (l cause core : Nat) (w : BitVec 64) (s : State) : State :=
  let p := pairOf s l
  let s1 := modPair l (fun p => { p with
    held := [], st := .fenced, halted := false, lastCause := BitVec.ofNat 4 cause, onFence := reactionOf l s, withdraw := true,
    readySet := 0, windowCode := none, debugSplitAt := false, cores := stopCores p.cores }) s
  let s2 := match p.phys with | some x => noteFence x.val s1 | none => s1
  let s3 := raise 0x0701 (leBytes 1 l ++ leBytes 1 (physCode p.phys) ++ leBytes 1 cause ++
    leBytes 1 (if cause = 3 then core else 0xFF) ++ leBytes 4 (w.toNat % 2 ^ 32)) s2
  let s4 := handAbandon l s3
  let yields := reactionOf l s = 2 && isActive s && partnerRole s = 2
  checkRelease (if yields then modTwin (fun t => { t with outAt := some 6 }) s4 else s4)

/-- CHECKER_FAULT (R367): the monitor's finding fences a locked pair with cause 0x2. -/
def checkerFault (l : Nat) (s : State) : State := fencePair l 2 0 (pairOf s l).cores.win (pairCount l 1 s)

/-- CHECKER_FAULT (R367, R376, R377). -/
def execCheckerFault (dt : Nat) (l : Fin 4) (s : State) : Host.Outcome State Fault Refusal :=
  let s := begin_ dt s
  .next (if pairLocked (pairOf s l.val) then checkerFault l.val s else s)

/-- R380: one core of a split pair stops. -/
def splitCoreFault (l : Nat) (core : Fin 2) (s : State) : State :=
  let p := pairOf s l
  raise 0x0701 (leBytes 1 l ++ leBytes 1 (physCode p.phys) ++ leBytes 1 3 ++ leBytes 1 core.val ++
    leBytes 4 (p.window.toNat % 2 ^ 32))
    (modPair l (fun p => { p with stopped := updAt p.stopped core.val (fun _ => true), lastCause := 3 }) (pairCount l 3 s))

/-- CACHE_UNCORRECTABLE (R376, R377, R380). While a rejoin is pending, the split pair is the source of a hand-over, and the fault
fences it (R386). -/
def execCacheUncorrectable (dt : Nat) (l : Fin 4) (core : Fin 2) (s : State) : Host.Outcome State Fault Refusal :=
  let s := begin_ dt s
  let p := pairOf s l.val
  .next (if pairLocked p then fencePair l.val 3 core.val p.cores.win (pairCount l.val 3 s)
    else if pairSplit p && p.pendHand = some .rejoin then fencePair l.val 3 core.val p.window (pairCount l.val 3 s)
    else if pairSplit p then splitCoreFault l.val core s
    else s)

/-- HOLD_BUFFER_STALL (R369): cycles in which a full hold buffer stalled both cores. -/
def execHoldBufferStall (dt : Nat) (l : Fin 4) (cycles : Nat) (s : State) : Host.Outcome State Fault Refusal :=
  let s := begin_ dt s
  .next (if 64 ≤ (pairOf s l.val).held.length then
      modPair l.val (fun p => { p with ctr := updAt p.ctr 4 (satAdd cycles) }) s
    else s)

/-- R12: the shadows of a pair's multi-register reads and of its CAN objects are cleared at its reset. -/
def clearShadows (l : Nat) (s : State) : State :=
  let other (i : Iface) : Bool := match i with | .pair k => k.val ≠ l | _ => true
  { s with shadows := s.shadows.filter (fun e => other e.1)
           can := s.can.map (fun ch => { ch with shadows := ch.shadows.filter (fun e => other e.1) }) }

/-- Pair `l` starts in lock-step at its reset vector with an ENTRY code, its classes withdrawn. -/
def startLocked (l entry : Nat) (s : State) : State :=
  modPair l (fun p => { p with
    st := .locked, entry := BitVec.ofNat 4 entry, window := 0, windowCode := none, held := [], stopped := [false, false],
    hok := [false, false], rejoinRdy := [false, false], wfi := [false, false], ready := 0, readySet := 0, halted := false, withdraw := false,
    cores := Cores.start (coreAt p.cfg.vector) }) s

/-- The same at a reset of the pair (R389), which clears its shadows (R12). -/
def startPair (l entry : Nat) (s : State) : State := startLocked l entry (clearShadows l s)

/-- Pair `l` stands in reset. -/
def holdPair (l : Nat) (s : State) : State := modPair l (fun p => { p with st := .held }) (startPair l 0 s)

/-- R378: the restart, on the Ready spare or on the same physical pair. A pair retired for a checker fault without a
spare is never used again (R663), and its logical pair is held in reset (R664). -/
def restartPair (l : Nat) (s : State) : State :=
  let p := pairOf s l
  match s.lsk.spare, s.lsk.spareReady, p.phys with
  | some x, true, old =>
    let s1 := modPair l (fun p => { p with phys := some x }) (startPair l 1 s)
    let s2 := match old with
      | some o => freePair o.val p.lastCause.toNat s1
      | none => modLsk (fun k => { k with spare := none, spareReady := false }) s1
    handDone l .restart s2
  | _, _, some o =>
    if p.lastCause = 2 then retirePair o.val false (modPair l (fun p => { p with phys := none }) (holdPair l s))
    else handDone l .restart (startPair l 1 s)
  | _, _, none => holdPair l s

/-! ## Windows of memory (R359) -/

/-- PAIR_ACCESS_FAULT (R359). -/
def execPairAccessFault (dt : Nat) (l : Fin 4) (core : Fin 2) (addr : Nat) (s : State) : Host.Outcome State Fault Refusal :=
  let s := begin_ dt s
  let p := pairOf s l.val
  .next (if (pairLocked p || pairSplit p) && !(pairMay p core.val addr) then
      faultComes l (if pairSplit p then core.val else 0) addr s
    else s)

/-! ## Hand-overs (R381–R386) -/

/-- R384: the WFI of a split pair: each core that has set REJOIN_RDY and runs waits in it. The table has no command of its own
for a core's WFI (DESIGN CHOICE, log 40). -/
def splitWaits (p : Pair) : Pair :=
  { p with wfi := (List.range 2).map (fun c => p.wfi.getD c false || (p.rejoinRdy.getD c false && !(p.stopped.getD c false))) }

/-- HANDOVER_POINT (R381, R384): a WFI. -/
def execHandoverPoint (dt : Nat) (l : Fin 4) (s : State) : Host.Outcome State Fault Refusal :=
  let s := begin_ dt s
  .next (if pairSplit (pairOf s l.val) then modPair l.val splitWaits s
    else if pointReached l.val s then atPoint l.val s
    else s)

/-- A locked pair has halted at the close of its window, and the verdicts on all of them have let its transactions go
(R382, R383). -/
def isDrained (p : Pair) : Bool := p.halted && p.cores.cyc == 0 && p.cores.delay.isEmpty && p.held.isEmpty

/-- The dirty lines of a core, those of its L2 before those of its L1, which are the newer ones. -/
def dirtyLines (c : CoreState) : List CacheLine := (c.l2 ++ c.l1d).filter (fun x => x.dirty)

/-- A pair's write to the work area of DRAM, its application region included (R342, R344). -/
def workWrite (a : Nat) (d : List Byte) (s : State) : State :=
  let t := s.twin
  if t.regionOn && t.regionOff ≤ a && a < t.regionOff + 4096 * t.regionPages then
    writeRegion ((a - t.regionOff) / 4096, (a - t.regionOff) % 4096, d) s
  else { s with lsk := { s.lsk with work := memWrite s.lsk.work a d } }

/-- R383, R384: a core's dirty lines written back. -/
def writeBack (c : CoreState) (s : State) : State := forEach (dirtyLines c) (fun x s => workWrite x.addr.toNat x.data s) s

/-- R383: the caches of both cores invalidated. -/
def cachesOff (k : Cores) : Cores := { k with lead := archState k.lead, trail := archState k.trail }

/-- R383 of a drained pair: the leading core's dirty lines are written back and both cores' caches invalidated; the copies of
the architectural state agree and are for the spare, or the source is fenced with cause 0x4. -/
def transfer (l : Nat) (s : State) : State :=
  let k := (pairOf s l).cores
  let s1 := modPair l (fun p => { p with cores := cachesOff p.cores }) (writeBack k.lead s)
  if archState k.lead ≠ archState k.trail then fencePair l 4 0 k.win s1
  else if s1.lsk.spareReady then modPair l (fun p => { p with substTo := s1.lsk.spare }) s1
  else s1

/-- SUBSTITUTION_TRANSFER (R383). -/
def execSubstitutionTransfer (dt : Nat) (l : Fin 4) (s : State) : Host.Outcome State Fault Refusal :=
  let s := begin_ dt s
  let p := pairOf s l.val
  .next (if !(pairLocked p) || p.pendHand ≠ some .subst || !isDrained p then s else transfer l.val s)

/-- R383 at the instant: the logical pair resumes on the spare. -/
def substitutionAtInstant (l : Nat) (s : State) : State :=
  let p := pairOf s l
  match p.substTo with
  | none => s
  | some x =>
    let s1 := modPair l (fun p => { p with
      phys := some x, entry := 4, window := 0, windowCode := none, cores := Cores.start (archState p.cores.lead) }) s
    let s2 := match p.phys with | some o => freePair o.val 0 s1 | none => s1
    handDone l .subst s2

/-- HANDOVER_ABANDON (R385). -/
def execHandoverAbandon (dt : Nat) (l : Fin 4) (s : State) : Host.Outcome State Fault Refusal :=
  let s := begin_ dt s
  let p := pairOf s l.val
  .next (if awaitsPoint p && !p.halted && 1000 ≤ p.handCycles then handAbandon l.val s else s)

/-- DEBUG_ACCESS (R387): through an unlocked port whose scope grants it. -/
def execDebugAccess (dt : Nat) (l : Fin 4) (s : State) : Host.Outcome State Fault Refusal :=
  let s := begin_ dt s
  .next (if s.sys.debugScope.getLsbD 1 && pairLocked (pairOf s l.val) && !(pairOf s l.val).debugSplitAt then
      raise 0x0703 (leBytes 1 l.val) (modPair l.val (fun p => { p with halted := true, dbg := true, debugSplitAt := true }) s)
    else s)

/-- PAIR_READY_WRITE (R373): a core that writes does not wait in WFI; a stopped one does not write (R380). -/
def execPairReadyWrite (dt : Nat) (l : Fin 4) (core : Fin 2) (value : BitVec 32) (s : State) : Host.Outcome State Fault Refusal :=
  let s := begin_ dt s
  let p := pairOf s l.val
  .next (if (pairLocked p || (pairSplit p && !(p.stopped.getD core.val false))) && !p.halted then
      modPair l.val (fun p => csrWrite core value.toNat { p with wfi := updAt p.wfi core.val (fun _ => false) }) s
    else s)

/-! ## At an instant -/

/-- The pair's classes return or are withdrawn (R372, R373). -/
def classesAtInstant (p : Pair) : Pair :=
  let r := if pairLocked p && !p.dbg then p.ready ||| (p.readySet &&& p.cfg.classes) else p.ready
  { p with ready := if p.withdraw then 0 else r, readySet := 0, withdraw := false }

/-- A split is due at this instant: the pair has been halted and is drained, a split asked for or debug having touched the
pair (R382, R387). -/
def splitsNow (p : Pair) : Bool := pairLocked p && isDrained p && (p.debugSplitAt || p.pendHand = some .split)

/-- The pair is split: SPLIT set, the burin off, its classes withdrawn (R372); core T's caches are invalid (R382). -/
def splitPair (l : Nat) (st : PairSt) (s : State) : State :=
  handDone l .split (modPair l (fun p => { p with
    st := st, entry := 2, windowCode := none, stopped := [false, false], hok := [false, false], rejoinRdy := [false, false],
    wfi := [false, false], ready := 0, readySet := 0, debugSplitAt := false
    cores := { Cores.start p.cores.lead with
      trail := archState p.cores.trail, reads := p.cores.reads, pend := p.cores.pend, faults := p.cores.faults } }) s)

/-- R382, R387 at the instant. -/
def splitAtInstant (l : Nat) (s : State) : State :=
  let p := pairOf s l
  if !splitsNow p then s
  else if p.debugSplitAt then splitPair l .debugSplit (if p.pendHand = some .split then s else handAbandon l s)
  else splitPair l .split s

/-- Both cores of a split pair run and wait in WFI with REJOIN_RDY for the rejoin asked for (R384). -/
def rejoinsNow (p : Pair) : Bool :=
  pairSplit p && !p.dbg && p.pendHand = some .rejoin && p.rejoinRdy.all (fun b => b) && p.wfi.all (fun b => b) &&
  p.stopped.all (fun b => !b)

/-- R384 at the instant: the dirty lines of core L and then of core T are written back, and the pair is locked again, from core
L's state in both cores. -/
def rejoinAtInstant (l : Nat) (s : State) : State :=
  let k := (pairOf s l).cores
  if rejoinsNow (pairOf s l) then
    handDone l .rejoin (modPair l (fun p => { p with cores := Cores.start (archState k.lead) })
      (startLocked l 3 (writeBack k.trail (writeBack k.lead s))))
  else s

/-- R378 at the instant that follows the fence. -/
def restartsNow (l : Nat) (s : State) : Bool :=
  (match (pairOf s l).st with | .fenced => true | _ => false) && (pairOf s l).onFence ≠ 0

/-- R378. -/
def restartAtInstant (l : Nat) (s : State) : State := if restartsNow l s then restartPair l s else s

/-- R385: a cycle without a hand-over point counts; the attempt that was not completed lapses. -/
def handAtInstant (p : Pair) : Pair :=
  let waits := awaitsPoint p && pairLocked p
  { p with
    ctr := if waits && !p.handFound then ctrInc p.ctr 8 else p.ctr
    handFound := false
    handCycles := if waits then p.handCycles + 1 else 0
    halted := p.debugSplitAt }

/-- R389: the pair reset asked for, and the commands that asked for it end. -/
def resetAtInstant (l : Nat) (s : State) : State :=
  let p := pairOf s l
  match p.resetAsk with
  | none => s
  | some hold =>
    let s1 := handAbandon l s
    let s2 := if hold || p.phys.isNone then holdPair l s1 else startPair l 0 s1
    let s3 := modPair l (fun p => { p with resetAsk := none, resetMbx := [], debugSplitAt := false }) s2
    forEach p.resetMbx (fun n s => completeMbx n.val 10000 (done []) s) s3

/-- R361: the registration-instant interrupt of a pair that runs, of a split one for each core. -/
def instantInterrupt (p : Pair) : Pair :=
  if pairLocked p || pairSplit p then { p with cores := { p.cores with instantIrq := true, instantT := pairSplit p } } else p

/-- One pair at an instant (R361, R372, R373, R378, R382–R385, R389). -/
def pairAtInstant (l : Nat) (s : State) : State :=
  let s1 := rejoinAtInstant l (splitAtInstant l (substitutionAtInstant l (modPair l classesAtInstant s)))
  let s2 := restartAtInstant l (modPair l handAtInstant s1)
  modPair l instantInterrupt (resetAtInstant l s2)

/-- Every pair. -/
def lskAtInstant (s : State) : State := checkRelease (forEach (List.range 4) pairAtInstant s)

/-- R390: what a supervisor-commanded node reset does to a pair: its configuration from flash, DBG cleared. -/
def pairNodeReset (l : Nat) (s : State) : State :=
  let s1 := modPair l (fun p =>
    let c := s.lsk.saved.getD l none
    { p with cfg := c.getD PairCfg.reset, configured := c.isSome, dbg := false, resetAsk := none, resetMbx := [],
             pendHand := none, substTo := none, debugSplitAt := false, handCycles := 0, handFound := false }) s
  holdPair l s1

/-! ## Commands (R391, R392) -/

/-- LSK_STATUS. -/
def lskStatusSpec : CmdSpec := plainSpec 0x0701 4 ([(1, 0xFE)] ++ zeros 2 3)

/-- The fields of the pair status record. -/
def pairFields (l : Nat) (s : State) : List (Nat × Nat × Nat) :=
  let p := pairOf s l
  [(0, 3, pairState p), (3, 3, physCode p.phys), (6, 1, b2n p.dbg), (7, 1, b2n s.lsk.spareReady),
   (8, 3, physCode s.lsk.spare), (12, 4, p.lastCause.toNat), (16, 16, p.cfg.classes.toNat), (32, 16, p.ready.toNat),
   (64, 64, p.window.toNat)]

/-- The pair status record. -/
def pairRecord (l : Nat) (s : State) : List Byte :=
  recBytes 56 (pairFields l s ++ ctrFields (pairOf s l).ctr ((List.range 9).map (fun n => 128 + 32 * n)) 412)

/-- The record, its counters cleared where asked. -/
def lskStatusBody (r : Ring) (s : State) : Reply × State :=
  let l := byteAt r.req 0
  if 4 ≤ l then (outOfRange 0, s)
  else (done (pairRecord l s), if clearAsked r.req 1 then modPair l (fun p => { p with ctr := ctrClear p.ctr }) s else s)

/-- LSK_PAIR_CONFIG. -/
def lskPairConfigSpec : CmdSpec := flashSpec 0x0702 24 [(2, 0x01), (3, 0x80)]

/-- The configuration a request describes. -/
def pairCfgOf (req : List Byte) : PairCfg where
  reaction := byteAt req 1
  classes := BitVec.ofNat 16 (fieldAt req 2 2)
  priv := (fieldAt req 4 2, fieldAt req 6 2)
  shared := (fieldAt req 8 2, fieldAt req 10 2)
  splitWin := (fieldAt req 12 2, fieldAt req 14 2)
  vector := BitVec.ofNat 64 (fieldAt req 16 8)

/-- Two windows share a unit. -/
def unitsMeet (a b : Nat × Nat) : Bool := a.2 ≠ 0 && b.2 ≠ 0 && a.1 < b.1 + b.2 && b.1 < a.1 + a.2

/-- The configurations of the other configured pairs. -/
def otherCfgs (l : Nat) (s : State) : List PairCfg :=
  ((List.range 4).filter (fun k => k ≠ l && (pairOf s k).configured)).map (fun k => (pairOf s k).cfg)

/-- The private and split windows of some pairs, which no window of another pair may meet (R391). -/
def ownWindows (cs : List PairCfg) : List (Nat × Nat) := cs.flatMap (fun c => [c.priv, c.splitWin])

/-- All windows of some pairs. -/
def allWindows (cs : List PairCfg) : List (Nat × Nat) := cs.flatMap (fun c => [c.priv, c.shared, c.splitWin])

/-- Payload offset of the first field out of range (R391). -/
def pairCfgOffender (l : Nat) (c : PairCfg) (s : State) : Option Nat :=
  let others := otherCfgs l s
  if 3 ≤ c.reaction then some 1
  else if others.any (fun o => o.classes &&& c.classes ≠ 0) then some 2
  else if 512 < c.priv.1 + c.priv.2 || (allWindows others).any (unitsMeet c.priv) then some 4
  else if 512 < c.shared.1 + c.shared.2 || (ownWindows others).any (unitsMeet c.shared) then some 8
  else if 512 < c.splitWin.1 + c.splitWin.2 || (allWindows others).any (unitsMeet c.splitWin) then some 12
  else none

/-- The pair is halted, or held in reset. -/
def pairConfigurable (p : Pair) : Bool := match p.st with | .held => true | .fenced => true | _ => p.halted

/-- R391. -/
def lskPairConfigBody (r : Ring) (s : State) : Reply × State :=
  let l := byteAt r.req 0
  let c := pairCfgOf r.req
  if 4 ≤ l then (outOfRange 0, s)
  else match pairCfgOffender l c s with
    | some off => (outOfRange off, s)
    | none =>
      if !pairConfigurable (pairOf s l) then (notInState (pairState (pairOf s l)), s)
      else (done [], modLsk (fun k => { k with saved := updAt k.saved l (fun _ => some c) })
        (modPair l (fun p => { p with cfg := c, configured := true, ready := p.ready &&& c.classes }) s))

/-- LSK_PAIR_RESET. -/
def lskPairResetSpec : CmdSpec := plainSpec 0x0703 4 (zeros 2 3)

/-- R389, R391: the checks, and the reset asked for the next instant. -/
def lskPairResetBody (r : Ring) (s : State) : Reply × State :=
  let l := byteAt r.req 0
  let hold := byteAt r.req 1
  if 4 ≤ l then (outOfRange 0, s)
  else if 2 ≤ hold then (outOfRange 1, s)
  else (done [], modPair l (fun p => { p with resetAsk := some (hold == 1), resetMbx := p.resetMbx ++ [r.mbx] }) s)

/-- LSK_SPLIT. -/
def lskSplitSpec : CmdSpec := plainSpec 0x0704 4 (zeros 1 3)

/-- A hand-over asked for. -/
def askHand (l : Nat) (k : HandKind) (s : State) : State :=
  modPair l (fun p => { p with pendHand := some k, handCycles := 0, handFound := false }) s

/-- R391: queued, while locked. -/
def lskSplitBody (r : Ring) (s : State) : Reply × State :=
  let l := byteAt r.req 0
  if 4 ≤ l then (outOfRange 0, s)
  else if pairState (pairOf s l) ≠ 1 then (notInState (pairState (pairOf s l)), s)
  else (queued l, askHand l .split s)

/-- LSK_REJOIN. -/
def lskRejoinSpec : CmdSpec := plainSpec 0x0705 4 (zeros 1 3)

/-- R388, R391: queued, while split and not DBG. -/
def lskRejoinBody (r : Ring) (s : State) : Reply × State :=
  let l := byteAt r.req 0
  if 4 ≤ l then (outOfRange 0, s)
  else if pairState (pairOf s l) ≠ 2 || (pairOf s l).dbg then (notInState (pairState (pairOf s l)), s)
  else (queued l, askHand l .rejoin s)

/-- LSK_SUBSTITUTE. -/
def lskSubstituteSpec : CmdSpec := plainSpec 0x0706 4 (zeros 1 3)

/-- R388, R391: queued, while locked, not DBG and with the spare Ready. -/
def lskSubstituteBody (r : Ring) (s : State) : Reply × State :=
  let l := byteAt r.req 0
  if 4 ≤ l then (outOfRange 0, s)
  else if pairState (pairOf s l) ≠ 1 || (pairOf s l).dbg || !s.lsk.spareReady then (notInState (pairState (pairOf s l)), s)
  else (queued l, askHand l .subst s)

/-- LSK_STATUS (R392). -/
def execLskStatus (dt : Nat) (r : Ring) (s : State) : Host.Outcome State Fault Refusal :=
  .next (submit lskStatusSpec lskStatusBody dt r s)

/-- LSK_PAIR_CONFIG (R391). -/
def execLskPairConfig (dt : Nat) (r : Ring) (s : State) : Host.Outcome State Fault Refusal :=
  .next (submit lskPairConfigSpec lskPairConfigBody dt r s)

/-- LSK_PAIR_RESET (R389, R391): an accepted command completes at the next registration instant. -/
def execLskPairReset (dt : Nat) (r : Ring) (s : State) : Host.Outcome State Fault Refusal :=
  .next (submitLater lskPairResetSpec lskPairResetBody dt r s)

/-- LSK_SPLIT (R382). -/
def execLskSplit (dt : Nat) (r : Ring) (s : State) : Host.Outcome State Fault Refusal :=
  .next (submit lskSplitSpec lskSplitBody dt r s)

/-- LSK_REJOIN (R384). -/
def execLskRejoin (dt : Nat) (r : Ring) (s : State) : Host.Outcome State Fault Refusal :=
  .next (submit lskRejoinSpec lskRejoinBody dt r s)

/-- LSK_SUBSTITUTE (R383). -/
def execLskSubstitute (dt : Nat) (r : Ring) (s : State) : Host.Outcome State Fault Refusal :=
  .next (submit lskSubstituteSpec lskSubstituteBody dt r s)

end Sys2Proof.Machine
end

