-- ==== Sys2Proof/Machine/Session.lean ====
section
/-! DEFINITION. Message data sessions (R303–R305, R312): their commands, frames and retransmission. -/

namespace Sys2Proof.Machine

/-- Payload bytes of a segment. -/
def segSize : Nat := 1440

/-- Segments of a message. -/
def segCount (m : Message) : Nat := (m.bytes.length + segSize - 1) / segSize

/-- Segments [from_, to_) of a message sent. -/
def sendSegments (x : Session) (m : Message) (from_ to_ : Nat) (s : State) : State :=
  forEach ((List.range to_).drop from_) (fun k s =>
    sendSession (sessionFrame x 2 0 m.number k m.bytes.length ((m.bytes.drop (segSize * k)).take segSize) s) s) s

/-- The first message of a session whose last chunk is stored goes on: at most 4 unacknowledged segments. -/
def pumpSession (sid : BitVec 16) (opener : BitVec 64) (s : State) : State :=
  match s.flow.sessions.find? (isSession sid opener) with
  | none => s
  | some x => match x.out with
    | [] => s
    | m :: ms =>
      let hi := min (segCount m) (m.acked + 4)
      if !m.last || hi ≤ m.sent then s
      else
        let s1 := sendSegments x m m.sent hi s
        modSession (isSession sid opener) (fun y => { y with out := { m with sent := hi, sentClk := s.clk } :: ms }) s1

/-- A session not yet numbered by this node, for SESSION_OPEN; which one is left open (log 3). -/
def freeSid (base : Nat) (used : List (BitVec 16)) : BitVec 16 :=
  ((List.range 33).map (fun i => BitVec.ofNat 16 (base + i))).find? (fun v => !(used.contains v)) |>.getD 0

/-- SESSION_OPEN. -/
def sessionOpenSpec : CmdSpec := plainSpec 0x0510 12 ([(3, 0xFC)] ++ zeros 10 11)

/-- R303, R305. -/
def sessionOpenBody (r : Ring) (s : State) : Reply × State :=
  let by_ := byteAt r.req 0
  let slot := byteAt r.req 1
  if 2 ≤ by_ then (outOfRange 0, s)
  else if by_ = 1 && 16 ≤ slot then (outOfRange 1, s)
  else if 32 ≤ s.flow.sessions.length then (fail 0x0108 0, s)
  else
    let f := takeFree 65536 s
    let sid := freeSid f.1 ((s.flow.sessions.filter (fun x => x.opener == s.sys.uid)).map (fun x => x.sid))
    let x : Session := {
      sid := sid, opener := s.sys.uid, byIdentity := by_ = 1, slot := BitVec.ofNat 8 slot,
      addr := BitVec.ofNat 10 (fieldAt r.req 2 2), vid := BitVec.ofNat 48 (fieldAt r.req 4 6), peerUid := 0, nextMsg := 0, out := [], inMsg := none, rxq := [] }
    let s1 := modFlow (fun w => { w with sessions := w.sessions ++ [x] }) f.2
    (done (leBytes 2 sid.toNat), sendSession (sessionFrame x 1 0 0 0 0 [] s1) s1)

/-- The session a command names: this node's own first. -/
def sessionNamed (sid : Nat) (s : State) : Option Session :=
  (s.flow.sessions.find? (fun x => x.sid.toNat == sid && x.opener == s.sys.uid)).or
    (s.flow.sessions.find? (fun x => x.sid.toNat == sid))

/-- SESSION_SEND. -/
def sessionSendSpec : CmdSpec :=
  { plainSpec 0x0511 8 ([(6, 0xFE)] ++ zeros 7 7) with maxLen := 3080, tied := some (4, 2, 8, 1) }

/-- A chunk put into the message being composed, the last of a session's messages if that lacks its last chunk. -/
def storeChunk (off : Nat) (data : List Byte) (last : Bool) (x : Session) : Session :=
  let put (old : List Byte) : List Byte := padTo off old ++ data ++ old.drop (off + data.length)
  match x.out.getLast? with
  | some m =>
    if m.last then
      { x with out := x.out ++ [{ number := x.nextMsg, bytes := put [], last := last, acked := 0, sent := 0, resends := [], sentClk := 0 }],
               nextMsg := x.nextMsg + 1 }
    else { x with out := x.out.dropLast ++ [{ m with bytes := put m.bytes, last := last }] }
  | none =>
    { x with out := [{ number := x.nextMsg, bytes := put [], last := last, acked := 0, sent := 0, resends := [], sentClk := 0 }],
             nextMsg := x.nextMsg + 1 }

/-- Bytes of the message being composed. -/
def composing (x : Session) : Nat :=
  match x.out.getLast? with | some m => if m.last then 0 else m.bytes.length | none => 0

/-- R303: a message of 1 byte to 16 KiB. -/
def sessionSendBody (r : Ring) (s : State) : Reply × State :=
  let off := fieldAt r.req 2 2
  let n := fieldAt r.req 4 2
  let last := (byteAt r.req 6).testBit 0
  match sessionNamed (fieldAt r.req 0 2) s with
  | none => (outOfRange 0, s)
  | some x =>
    if 3072 < n then (outOfRange 4, s)
    else if 16384 < off + n then (outOfRangeAll, s)
    else if last && n = 0 && composing x = 0 then (outOfRange 4, s)
    else
      let s1 := modSession (isSession x.sid x.opener) (storeChunk off (r.req.drop 8) last) s
      (done [], pumpSession x.sid x.opener s1)

/-- SESSION_RECV. -/
def sessionRecvSpec : CmdSpec := plainSpec 0x0512 8 (zeros 4 7)

/-- Up to 3,072 bytes of the oldest message received; length 0 without one. -/
def sessionRecvBody (r : Ring) (s : State) : Reply × State :=
  let off := fieldAt r.req 2 2
  match sessionNamed (fieldAt r.req 0 2) s with
  | none => (outOfRange 0, s)
  | some x => match x.rxq with
    | [] => (done (leBytes 2 0), s)
    | m :: ms =>
      if m.bytes.length ≤ off then (outOfRange 2, s)
      else
        let data := (m.bytes.drop off).take 3072
        let s1 := if off + data.length = m.bytes.length then
            modSession (isSession x.sid x.opener) (fun y => { y with rxq := ms }) s else s
        (done (leBytes 2 m.bytes.length ++ data), s1)

/-- SESSION_CLOSE. -/
def sessionCloseSpec : CmdSpec := plainSpec 0x0513 4 (zeros 2 3)

/-- Closed with cause normal. -/
def sessionCloseBody (r : Ring) (s : State) : Reply × State :=
  match sessionNamed (fieldAt r.req 0 2) s with
  | none => (outOfRange 0, s)
  | some x => (done [], closeSession x 0 s)

/-- SESSION_OPEN (R303). -/
def execSessionOpen (dt : Nat) (r : Ring) (s : State) : Host.Outcome State Fault Refusal :=
  .next (submit sessionOpenSpec sessionOpenBody dt r s)

/-- SESSION_SEND (R303). -/
def execSessionSend (dt : Nat) (r : Ring) (s : State) : Host.Outcome State Fault Refusal :=
  .next (submit sessionSendSpec sessionSendBody dt r s)

/-- SESSION_RECV (R303). -/
def execSessionRecv (dt : Nat) (r : Ring) (s : State) : Host.Outcome State Fault Refusal :=
  .next (submit sessionRecvSpec sessionRecvBody dt r s)

/-- SESSION_CLOSE (R303). -/
def execSessionClose (dt : Nat) (r : Ring) (s : State) : Host.Outcome State Fault Refusal :=
  .next (submit sessionCloseSpec sessionCloseBody dt r s)

/-! ## Frames -/

/-- OPEN: a session of the opening node, or a refusal when 32 are open. -/
def sessionOpened (f : SessionFrame) (s : State) : State :=
  if s.flow.sessions.any (isSession f.sid f.openerUid) then s
  else
    let x : Session := {
      sid := f.sid, opener := f.openerUid, byIdentity := true, slot := 0, addr := f.srcAddr, vid := 0, peerUid := f.openerUid,
      nextMsg := 0, out := [], inMsg := none, rxq := [] }
    if 32 ≤ s.flow.sessions.length then sendSession (sessionFrame x 4 3 0 0 0 [] s) s
    else modFlow (fun w => { w with sessions := w.sessions ++ [x] }) s

/-- The message in reception after a segment: one already complete, one that goes on, or a new one. -/
def takeSegment (f : SessionFrame) (old : Option Message) : Option Message :=
  let new : Message := { number := f.msg, bytes := f.payload, last := false, acked := 1, sent := 0, resends := [], sentClk := 0 }
  match old with
  | some m =>
    if m.number = f.msg then
      if !m.last && m.acked = f.seg.toNat then some { m with bytes := m.bytes ++ f.payload, acked := m.acked + 1 } else some m
    else if f.seg = 0 then some new else some m
  | none => if f.seg = 0 then some new else none

/-- DATA: taken in order and acknowledged up to the highest segment received in order; a message beyond the 4 waiting is
not acknowledged. -/
def sessionData (x : Session) (f : SessionFrame) (s : State) : State :=
  let known := match x.inMsg with | some m => m.number == f.msg && m.last | none => false
  if 4 ≤ x.rxq.length && !known then s
  else match takeSegment f x.inMsg with
    | none => s
    | some m =>
      let whole := !m.last && f.msgLen.toNat ≤ m.bytes.length && m.number == f.msg
      let kept : Message := if whole then { m with bytes := [], last := true } else m
      let s1 := modSession (isSession x.sid x.opener) (fun y => { y with
        inMsg := some kept, rxq := if whole then y.rxq ++ [{ m with last := true }] else y.rxq }) s
      if m.number = f.msg then sendSession (sessionFrame x 3 0 m.number 0 (m.acked - 1) [] s1) s1 else s1

/-- ACK: the first message's segments up to the one named are acknowledged; SESSION_SENT when all are. -/
def sessionAck (x : Session) (f : SessionFrame) (s : State) : State :=
  match x.out with
  | [] => s
  | m :: ms =>
    if m.number ≠ f.msg || f.msgLen.toNat < m.acked || m.sent ≤ f.msgLen.toNat then s
    else
      let acked := f.msgLen.toNat + 1
      let full := segCount m ≤ acked
      let s1 := modSession (isSession x.sid x.opener) (fun y => { y with
        out := if full then ms else { m with acked := acked, resends := m.resends.drop (acked - m.acked) } :: ms }) s
      let s2 := if full then raise 0x0511 (leBytes 2 x.sid.toNat ++ leBytes 1 m.number.toNat) s1 else s1
      pumpSession x.sid x.opener s2

/-- A session frame for this node (R304). -/
def sessionIn (f : SessionFrame) (s : State) : State :=
  if f.kind = 1 then sessionOpened f s
  else match s.flow.sessions.find? (isSession f.sid f.openerUid) with
    | none => s
    | some x =>
      if f.kind = 2 then sessionData x f s
      else if f.kind = 3 then sessionAck x f s
      else if f.kind = 4 then
        modFlow (fun w => { w with sessions := w.sessions.filter (fun y => !(isSession x.sid x.opener y)) }) s
      else s

/-- R519: a session frame from the trunk for a fabric node of this Active twin's vehicle. -/
def forFabricNode (a : BitVec 10) (s : State) : Bool :=
  fabActiveTwin s && a.toNat / 16 == position s && 2 ≤ a.toNat % 16

/-- A session frame on trunk port `p` goes on (R37, R185). -/
def sessionPass (p : Option Nat) (f : SessionFrame) (s : State) : State :=
  match p with
  | some p => forwardLen p (.session f) (sessionLen f) s
  | none => s

/-- A session frame from a trunk port or the fabric: one that strays into the slot region is
discarded and passed on (R185). -/
def sessionFrameIn (p : Option Nat) (f : SessionFrame) (s : State) : State :=
  if keptOut p s then s
  else if (p.map (fun p => straysNow p s)).getD false then sessionPass p f (schedCount 9 s)
  else if p.isSome && forFabricNode f.dst s then fabOriginate (f.dst.toNat % 16) 3 (.session f) s
  else sessionIn f s

/-- SESSION_FRAME_RX (R304). -/
def execSessionFrameRx (dt : Nat) (p : Option (Fin 4)) (f : SessionFrame) (s : State) : Host.Outcome State Fault Refusal :=
  .next (sessionFrameIn (p.map (fun p => p.val)) f (begin_ dt s))

/-- The unacknowledged segments of a message sent once more. -/
def resentOnce (clk : Nat) (m : Message) : Message :=
  { m with resends := (List.range (m.sent - m.acked)).map (fun k => m.resends.getD k 0 + 1), sentClk := clk }

/-- R303: 2 macrocycles without acknowledgement: the unacknowledged segments again, or after the 8th time of one the end. -/
def retransmit (sid : BitVec 16) (opener : BitVec 64) (s : State) : State :=
  match s.flow.sessions.find? (isSession sid opener) with
  | none => s
  | some x => match x.out with
    | [] => s
    | m :: ms =>
      if m.sent ≤ m.acked || s.clk < m.sentClk + 2 * macroT s then s
      else if m.resends.any (fun n => 8 ≤ n) then sessionClosed x 1 (closeSession x 1 s)
      else modSession (isSession sid opener) (fun y => { y with out := resentOnce s.clk m :: ms }) (sendSegments x m m.acked m.sent s)

/-- SESSION_RETRANSMIT (R303). -/
def execSessionRetransmit (dt : Nat) (sid : BitVec 16) (opener : BitVec 64) (s : State) : Host.Outcome State Fault Refusal :=
  .next (retransmit sid opener (begin_ dt s))

/-- R315: every session closes with cause timeout. -/
def sessionsReset (s : State) : State :=
  forEach s.flow.sessions (fun x s => sessionClosed x 1 s) (modFlow (fun w => { w with sessions := [] }) s)

end Sys2Proof.Machine
end

