-- ==== Sys2Proof/Machine/Fabric.lean ====
section
/-! DEFINITION. The vehicle fabric: links, lanes, beacons, slots, reports, ticks, proxied and subscribed flows
(R496–R519), and the fabric commands FAB_STATUS, FAB_CONFIG and FAB_SLOT_TABLE (R541, R542). -/

namespace Sys2Proof.Machine

/-! ## Links and lanes (R498–R506) -/

/-- STATE codes of a link (R542). -/
def fabStCode : FabSt → Nat
  | .disabled => 0
  | .training => 1
  | .up => 2
  | .boundary => 3

/-- FAB_LINK (R543). -/
def fabLinkEvent (k : Nat) (s : State) : State :=
  raise 0x0B01 (leBytes 1 k ++ leBytes 1 (fabStCode (fabOf s k).st)) s

/-- Link `k` enters a state other than Up: what it leaves with the link, and when it was Up its count and event. -/
def fabLeave (k : Nat) (st : FabSt) (s : State) : State :=
  let was := fabUp s k
  let s1 := modFab k (fun l => { l with
    st := st, replay := [], beaconTx := false, beaconRx := false, txSeq := 0, rxSeq := 0 }) s
  let s2 := fabSetCosts k [] s1
  if was then fabLinkEvent k (fabCount k 3 s2) else s2

/-- Every link as the mask enables it: an enabled one trains (R499, R541, R544). -/
def fabStartLinks (s : State) : State :=
  forEach (List.range 4) (fun k s => fabLeave k (if s.fab.mask.getLsbD k then .training else .disabled) s) s

/-- FAB_CONFLICT (R543). -/
def fabConflict (cause : Nat) (uid : BitVec 64) (s : State) : State :=
  raise 0x0B03 (leBytes 1 cause ++ leBytes 8 uid.toNat) s

/-- The link takes part in the fabric. -/
def fabEnabled (s : State) (k : Nat) : Bool := match (fabOf s k).st with | .disabled => false | _ => true

/-- The link is training. -/
def fabTraining (s : State) (k : Nat) : Bool := match (fabOf s k).st with | .training => true | _ => false

/-- The link's partner carries another vehicle identity (R506). -/
def fabForeign (s : State) (k : Nat) : Bool :=
  match (fabOf s k).partner with
  | some b => b.vid ≠ s.ina.vid
  | none => false

/-- The beacon this node sends on link `k` (R505, R512). -/
def ownFabricBeacon (k : Nat) (s : State) : FabricBeacon where
  uid := s.sys.uid
  vid := s.ina.vid
  slot := BitVec.ofNat 8 (fabSlot s)
  twin := !s.fab.attached
  twinB := !s.fab.attached && s.ina.twinB
  active := fabActiveTwin s
  numbered := s.ina.addr ≠ 0
  joined := joined s
  gen := s.ina.gen
  cost := (List.range 16).map (fun d => BitVec.ofNat 8 (fabAdvertised s k d))
  table := if fabActiveTwin s then s.fab.slots else List.replicate 14 0
  schedTag := (s.sched.running.map imageTag).getD 0

/-- FABRIC_BEACON_SEND (R505): on each Up link, and on a training one and a boundary, whose partners exchange beacons
too (R499, R506). -/
def execFabricBeaconSend (dt : Nat) (k : Fin 4) (s : State) : Host.Outcome State Fault Refusal :=
  let s1 := begin_ dt s
  .next (if fabEnabled s1 k.val then
      emit (.fabricBeacon k (ownFabricBeacon k.val s1)) (modFab k.val (fun l => { l with beaconTx := true }) s1)
    else s1)

/-- R506: a link whose partner carries another vehicle identity becomes a boundary; one whose partner no longer does
trains again. -/
def fabJudgeVid (k : Nat) (s : State) : State :=
  let boundary : Bool := match (fabOf s k).st with | .boundary => true | _ => false
  if fabForeign s k && !boundary then
    fabConflict 1 (fabOf s k).partnerUid (fabLeave k .boundary s)
  else if !(fabForeign s k) && boundary then fabLeave k .training s
  else s

/-- The place of a unique identifier in the slot table, as a slot. -/
def fabSlotOf (slots : List (BitVec 64)) (uid : BitVec 64) : Option Nat :=
  match slots.findIdx? (fun u => u == uid) with
  | some i => some (i + 2)
  | none => none

/-- R507, R508: what a beacon of the own vehicle means for the slot table: the Active twin notes a new identifier, and
any other node keeps the table of the Active twin. -/
def fabTakeTable (b : FabricBeacon) (s : State) : State :=
  if b.vid ≠ s.ina.vid || s.ina.vid = 0 then s
  else if fabActiveTwin s then
    if b.twin || (fabSlotOf s.fab.slots b.uid).isSome || s.fab.assign.contains b.uid || s.fab.noSlot.contains b.uid then s
    else modFabric (fun f => { f with assign := f.assign ++ [b.uid] }) s
  else if b.active then
    modFabric (fun f => { f with
      heard := some b.table, slots := b.table, assign := [], noSlot := []
      mySlot := if f.attached then (match fabSlotOf b.table s.sys.uid with | some d => BitVec.ofNat 8 d | none => 0xFF)
                else f.mySlot }) s
  else s

/-- R127 at an attached node: a neighbour whose schedule differs, once on each entry to steep. -/
def fabSchedule (k : Nat) (b : FabricBeacon) (s : State) : State :=
  if s.fab.attached && inSteep s && s.sched.running.isSome && b.schedTag ≠ (s.sched.running.map imageTag).getD 0 then
    mismatchOnce (38 + k) s
  else s

/-- A fabric beacon on link `k` (R505–R508, R512). -/
def fabBeaconIn (k : Nat) (b : FabricBeacon) (s : State) : State :=
  if !(fabEnabled s k) then s
  else
    let s1 := modFab k (fun l => { l with
      partner := some b, partnerSlot := b.slot, partnerUid := b.uid, beaconRx := true }) s
    let s2 := fabJudgeVid k s1
    let s3 := if fabUp s2 k then fabSetCosts k b.cost s2 else modFab k (fun l => { l with beaconRx := true }) s2
    if fabForeign s3 k then s3 else fabSchedule k b (fabTakeTable b s3)

/-- FABRIC_BEACON_RX (R512). -/
def execFabricBeaconRx (dt : Nat) (k : Fin 4) (b : FabricBeacon) (s : State) : Host.Outcome State Fault Refusal :=
  .next (fabBeaconIn k.val b (begin_ dt s))

/-- R507: the lowest free slot for an identifier that awaits one, or FAB_CONFLICT once when none is free. -/
def fabAssign (uid : BitVec 64) (s : State) : State :=
  match s.fab.slots.findIdx? (fun u => u == 0) with
  | some i => modFabric (fun f => { f with slots := updAt f.slots i (fun _ => uid) }) s
  | none => fabConflict 2 uid (modFabric (fun f => { f with noSlot := f.noSlot ++ [uid] }) s)

/-- R507: the Active twin assigns a slot to every identifier first heard in the closed cycle. -/
def fabAssignAtInstant (s : State) : State :=
  if fabActiveTwin s then forEach s.fab.assign fabAssign (modFabric (fun f => { f with assign := [] }) s) else s

/-- Frames of the replay buffer sent again, each counted (R498, R501). -/
def fabResend (k : Nat) (old : FabricFrame × Nat → Bool) (s : State) : State :=
  let again := (fabOf s k).replay.filter old
  let s1 := modFab k (fun l => { l with
    replay := l.replay.map (fun x => if old x then (x.1, s.clk) else x) }) s
  forEach again (fun x s => emit (.fabric (Fin.ofNat 4 k) x.1) (fabCount k 1 s)) s1

/-- FABRIC_ACK_TIMEOUT (R498): what has waited 10 µs without acknowledgement is resent. -/
def execFabricAckTimeout (dt : Nat) (k : Fin 4) (s : State) : Host.Outcome State Fault Refusal :=
  let s1 := begin_ dt s
  .next (if fabUp s1 k.val then fabResend k.val (fun x => x.2 + usT 10 ≤ s1.clk) s1 else s1)

/-- FABRIC_LINK_DOWN (R499): the link goes down and trains again. -/
def execFabricLinkDown (dt : Nat) (k : Fin 4) (s : State) : Host.Outcome State Fault Refusal :=
  let s1 := begin_ dt s
  .next (if fabEnabled s1 k.val then fabLeave k.val .training s1 else s1)

/-- The link enters Up: its lanes' estimates start afresh, its spare has yet to be proved Good (R500), and its partner's
costs count. -/
def fabEnterUp (k : Nat) (s : State) : State :=
  let s1 := modFab k (fun l => { l with
    st := .up, delays := [DelayEst.reset, DelayEst.reset], spareClk := s.clk
    spare := match l.spare with | .retired => .retired | _ => .suspect }) s
  let adv := ((fabOf s1 k).partner.map (fun b => b.cost)).getD []
  fabLinkEvent k (fabSetCosts k adv s1)

/-- FABRIC_LINK_UP (R499): block lock holds, and beacons have gone both ways. -/
def execFabricLinkUp (dt : Nat) (k : Fin 4) (s : State) : Host.Outcome State Fault Refusal :=
  let s1 := begin_ dt s
  let l := fabOf s1 k.val
  .next (if fabTraining s1 k.val && l.beaconTx && l.beaconRx && !(fabForeign s1 k.val) then fabEnterUp k.val s1 else s1)

/-- R502: the lane's switches within 24 h, the one at hand among them. -/
def laneSwitches (k : Nat) (lane : Fin 2) (s : State) : Nat :=
  ((fabOf s k).switches.filter (fun x => x.1 = lane && s.clk ≤ x.2 + secT 86400)).length

/-- R502: a lane retired, which draws on the reserve of fabric lanes. -/
def retireLane (k lane : Nat) (s : State) : State :=
  let left := s.rep.lanes.toNat - 1
  reserveEmpty 4 s.rep.lanes.toNat left
    (repairEntry 4 (2 * k + lane) left false (modRep (fun r => { r with lanes := BitVec.ofNat 3 left })
      (modFab k (fun l => { l with spare := .retired }) s)))

/-- R501: the active lane at fault becomes the spare, marked Suspect, and everything unacknowledged is resent. -/
def fabSwitchLane (k : Nat) (lane : Fin 2) (s : State) : State :=
  let s1 := modFab k (fun l => { l with
    lane := 1 - lane, spare := .suspect, spareClk := s.clk, switches := keepLast 8 (l.switches ++ [(lane, s.clk)]) }) s
  let s2 := emit (.laneSwitch (Fin.ofNat 4 k) (1 - lane)) (fabCount k 2 s1)
  let retires := 3 ≤ laneSwitches k lane s2
  let s3 := if retires then retireLane k lane.val s2 else s2
  fabResend k (fun _ => true)
    (raise 0x0B02 (leBytes 1 k ++ leBytes 1 (1 - lane).val ++ leBytes 1 (b2n retires)) s3)

/-- Block errors on the active lane (R542). -/
def fabBlockErrors (k n : Nat) (s : State) : State :=
  modFab k (fun l => { l with ctr := updAt l.ctr 0 (satAdd n) }) s

/-- FABRIC_LANE_SWITCH (R501, R502): `lane`, the active one, lost block lock for 4 µs, or showed so many block errors within
1 ms. It switches to a Good spare only, and for 16 errors. -/
def execFabricLaneSwitch (dt : Nat) (k : Fin 4) (lane : Fin 2) (errors : Option Nat) (s : State) :
    Host.Outcome State Fault Refusal :=
  let s1 := begin_ dt s
  let l := fabOf s1 k.val
  let good : Bool := match l.spare with | .good => true | _ => false
  .next (if fabUp s1 k.val && l.lane = lane then
      let s2 := fabBlockErrors k.val (errors.getD 0) s1
      if good && 16 ≤ errors.getD 16 then fabSwitchLane k.val lane s2 else s2
    else s1)

/-- R500: the spare lane is Good after 1 s without a loss of lock and with at most 1 block error, and Suspect otherwise. -/
def spareJudged (k errors : Nat) (s : State) : State :=
  modFab k (fun l => match l.spare with
    | .retired => l
    | _ => if 1 < errors then { l with spare := .suspect, spareClk := s.clk }
           else if l.spareClk + secT 1 ≤ s.clk then { l with spare := .good } else l) s

/-- SPARE_LANE_GOOD (R500): the spare lane has kept its lock, with so many block errors in the last second. -/
def execSpareLaneGood (dt : Nat) (k : Fin 4) (errors : Nat) (s : State) : Host.Outcome State Fault Refusal :=
  .next (spareJudged k.val errors (begin_ dt s))

/-! ## Reports and attached nodes at the instant (R508–R510, R517, R518) -/

/-- The slots that have sent a JOIN: bit d for slot d. -/
def fabJoined (s : State) (d : Nat) : Bool :=
  let u := s.fab.slots.getD (d - 2) 0
  u ≠ 0 && s.fab.joins.any (fun j => j.uid == u)

/-- SLOTS of R510 at an instant, given the cycles each slot has been unreachable and the last report. -/
def reportSlots (s : State) : BitVec 16 :=
  let was (d : Nat) : Bool := (s.fab.lastReport.map (fun r => r.slots.getLsbD d)).getD false
  let lists (d : Nat) : Bool :=
    2 ≤ d && fabJoined s d && (s.fab.reach.getD (d - 2) 0 = 0 || (was d && s.fab.reach.getD (d - 2) 0 < 2))
  BitVec.ofNat 16 (((List.range 16).map (fun d => if lists d then 2 ^ d else 0)).sum)

/-- The report of R510. -/
def ownReport (s : State) : FabricReport := { vid := s.ina.vid, slots := reportSlots s, uids := s.fab.slots }

/-- R510: the report differs from the vehicle's record in SLOTS, or in an identifier from the report on which the record
rests: a record holds no identifiers of fabric nodes (DEDUCED, log 31). -/
def reportDiffers (v : VehRec) (r : FabricReport) (s : State) : Bool :=
  bitsOf v.slots.toNat 2 14 ≠ bitsOf r.slots.toNat 2 14 ||
  (match s.ina.fabricKnown.find? (fun x => x.vid == r.vid) with
   | some k => (List.range 14).any (fun i => r.slots.getLsbD (i + 2) && k.uids.getD i 0 ≠ r.uids.getD i 0)
   | none => false)

/-- R510 at the first node: a report that differs from the vehicle's record makes an addition. -/
def reportIn (r : FabricReport) (s : State) : State :=
  let others := s.ina.fabricNew.filter (fun x => x.vid ≠ r.vid)
  let known := s.ina.fabricKnown.filter (fun x => x.vid ≠ r.vid)
  match s.ina.dir.bind (fun d => d.vehicles.find? (fun v => v.vid == r.vid && !isLegacy v)) with
  | some v =>
    if reportDiffers v r s then modIna (fun n => { n with fabricNew := others ++ [r] }) s
    else modIna (fun n => { n with fabricNew := others, fabricKnown := known ++ [r] }) s
  | none => s

/-- The cycles each slot has been unreachable, counted at an instant; the cut of the cycle that opens starts with what
is unreachable now. -/
def fabReachAtInstant (s : State) : State :=
  modFabric (fun f => { f with
    reach := (List.range 14).map (fun i => if f.cut.getLsbD (i + 2) then f.reach.getD i 0 + 1 else 0)
    cut := BitVec.ofNat 16 (((List.range 16).map (fun d => if 16 ≤ fabCost s d then 2 ^ d else 0)).sum) }) s

/-- R510 at the Active twin: after any change, and otherwise every 8 macrocycles. -/
def fabReportAtInstant (s : State) : State :=
  let s1 := fabReachAtInstant s
  if !(fabActiveTwin s1) || !(joined s1) then s1
  else
    let r := ownReport s1
    if s1.fab.lastReport = some r && s1.fab.sinceReport < 7 then
      modFabric (fun f => { f with sinceReport := f.sinceReport + 1 }) s1
    else
      let s2 := modFabric (fun f => { f with lastReport := some r, sinceReport := 0 }) s1
      if isFirst s2 then reportIn r s2 else mgmtSend (trainPorts s2) (.fabricReport r) (controlLen (reportBytes r).length) s2

/-- A FABRIC_REPORT (R510): taken at the first node; any other node passes it on, and so does one in whose slot region it
strays (R185). -/
def fabricReportIn (p : Option Nat) (r : FabricReport) (s : State) : State :=
  let pass (s : State) : State := match p with
    | some p => forwardLen p (.fabricReport r) (controlLen (reportBytes r).length) s
    | none => s
  if keptOut p s then s
  else if (p.map (fun p => straysNow p s)).getD false then pass (schedCount 9 s)
  else if isFirst s then reportIn r s else pass s

/-- FABRIC_REPORT_RX (R510, R185). -/
def execFabricReportRx (dt : Nat) (p : Option (Fin 4)) (r : FabricReport) (s : State) : Host.Outcome State Fault Refusal :=
  .next (fabricReportIn (p.map (fun p => p.val)) r (begin_ dt s))

/-- The fabric neighbours' beacons carry this node's schedule tag. -/
def fabAgree (s : State) : Bool :=
  s.fab.links.all (fun l => match l.st, l.partner with
    | .up, some b => b.schedTag == (s.sched.running.map imageTag).getD 0
    | _, _ => true)

/-- R509, R124, R125: the proof cycle of an attached node, and its JOIN to the Active twin. -/
def fabProofAtInstant (s : State) : State :=
  if !s.fab.attached || !(inSteep s) then s
  else proofCycle (!(fabAgree s)) (fun s => fabOriginate 0x10 0 (.join (ownJoin s)) s) s

/-- The flows an attached node consumes, at most 512 (R518). -/
def consumedFlows (s : State) : List (BitVec 16) :=
  ((s.flow.ctx.filter (fun x => x.2.enable && !x.2.produce)).map (fun x => x.2.flowId)).take 512

/-- R518: FABRIC_SUBSCRIBE to both twins at joining, on every change and every 8 macrocycles. -/
def fabSubscribeAtInstant (s : State) : State :=
  if !s.fab.attached then s
  else if !(joined s) then modFabric (fun f => { f with subSent := none, sinceSub := 0 }) s
  else
    let flows := consumedFlows s
    if s.fab.subSent = some flows && s.fab.sinceSub < 7 then
      modFabric (fun f => { f with sinceSub := f.sinceSub + 1 }) s
    else fabOriginate 1 0 (.subscribe flows) (fabOriginate 0 0 (.subscribe flows)
      (modFabric (fun f => { f with subSent := some flows, sinceSub := 0 }) s))

/-- The trunk entry of a produced scheduled flow with the frame that an attached node sends for it (R517). -/
def proxyOne (x : Nat × FlowCtx) (s : State) : State :=
  if !(x.2.enable && x.2.produce && isScheduled x.2 && flowSends x.2 s) || inBackbone s then s
  else
    let n := nextSend x.1 s
    let f := flowOnLine x.2 false (flowFrame x.1 x.2 n.1 n.2) n.2
    fabOriginate 0x10 1 (.proxy x.2.entry.toNat f.1) (flowCount x.1 0 f.2)

/-- R517: a numbered attached node sends the frame of each of its produced scheduled flows. -/
def fabProxyAtInstant (s : State) : State :=
  if s.fab.attached && joined s && s.ina.addr ≠ 0 then forEach s.flow.ctx proxyOne s else s

/-- R106 at an attached node: its LEAD_SET goes to the Active twin. -/
def fabLeadAtInstant (s : State) : State :=
  match s.ina.leading with
  | some v => if s.fab.attached && joined s && cycleCount s % 8 = 0 then fabOriginate 0x10 0 (.leadSet v) s else s
  | none => s

/-- R515, R226: a cycle closes: another one in a row with a valid tick of the preferred twin, or the count starts again. -/
def tickClose (s : State) : State :=
  modFabric (fun f => { f with srcAGood := if f.tickPref then min 16 (f.srcAGood + 1) else 0, tickPref := false }) s

/-- The fabric's part of a registration instant. -/
def fabAtInstant (s : State) : State :=
  let s1 := fabAssignAtInstant (tickClose (modFabric (fun f => { f with proxy := [], tickSent := false }) s))
  fabLeadAtInstant (fabProxyAtInstant (fabSubscribeAtInstant (fabReportAtInstant s1)))

/-! ## The tick (R514–R516) -/

/-- The tick of this cycle: the opening frame that was received or sent, and the train time of its instant. -/
def ownTick (s : State) : Option FabricTick :=
  match s.sched.running with
  | none => none
  | some im =>
    let f := if opensCycles s then some (openingFrame im 0 s)
             else match s.sched.a.copy with | some f => some f | none => s.sched.b.copy
    f.map (fun f => { fromTwinB := s.ina.twinB, frame := f, time := lastInstant s, corr := 0,
                      eps := BitVec.ofNat 16 (epsField (epsNs s)) })

/-- R514: the moment I + SLOT_BEGIN_NS has come, for the first time in this cycle. -/
def tickDue (s : State) : Bool :=
  match s.sched.running with
  | some im => !s.fab.tickSent && lastInstant s + nsT im.slotBegin ≤ s.now
  | none => false

/-- FABRIC_TICK_SEND (R514): a twin that has taken a valid opening frame, or opens cycles itself. -/
def execFabricTickSend (dt : Nat) (s : State) : Host.Outcome State Fault Refusal :=
  let s1 := begin_ dt s
  .next (if s1.fab.attached || !(s1.sched.openOk || opensCycles s1) || !(tickDue s1) then s1
    else match ownTick s1 with
      | some t => forEach (fabUpLinks s1) (fun k s => emit (.fabricTick (Fin.ofNat 4 k) t) s)
          (modFabric (fun f => { f with tickSent := true }) s1)
      | none => s1)

/-- R515: the twin of lower cost, twin A when they are equal; A is returned to after 16 cycles in a row (R226). -/
def tickPreferB (s : State) : Bool := fabCost s 1 < fabCost s 0

/-- R226 as R515 applies it: the source after a valid tick from a twin. The preferred one is the source again after 16
cycles in a row with its valid tick, and the other one serves once a cycle has passed without a sample. -/
def tickChoose (t : FabricTick) (s : State) : State :=
  if t.fromTwinB == tickPreferB s then
    modFabric (fun f => { f with tickPref := true, srcB := if 15 ≤ f.srcAGood then t.fromTwinB else f.srcB }) s
  else if 0 < s.time.without then modFabric (fun f => { f with srcB := t.fromTwinB, srcAGood := 0 }) s
  else s

/-- R514: this tick of its twin has come in already, by another way through the fabric. -/
def tickAgain (t : FabricTick) (s : State) : Bool := s.fab.ticks.contains (t.fromTwinB, t.time)

/-- The tick noted as its twin's last. -/
def tickNote (t : FabricTick) (s : State) : State :=
  modFabric (fun f => { f with ticks := f.ticks.filter (fun x => x.1 != t.fromTwinB) ++ [(t.fromTwinB, t.time)] }) s

/-- θ of a tick on link `k` (R515), in ticks. -/
def tickTheta (im : Image) (k : Nat) (t : FabricTick) (tRx : Int) (s : State) : Int :=
  let hop := (laneOf s k (fabOf s k).lane.val).est
  tRx - ((t.time : Int) + nsT im.slotBegin + t.corr.toNat * 4096 + hop)

/-- Why a tick fails R166 as R516 applies it: 1 a wrong tag, 2 another wrong field, 3 outside ±G/2. -/
def tickFault (im : Image) (theta : Int) (t : FabricTick) : Option Nat :=
  let f := t.frame
  if f.schedTag ≠ imageTag im then some 1
  else if f.cycleUs.toNat ≠ im.cycleUs || f.cycle ≠ BitVec.ofNat 32 (t.time / usT im.cycleUs) ||
      (!f.held && f.variant.toNat ≠ variantOf im f.cycle) then some 2
  else if nsT im.guardNs / 2 < theta.natAbs then some 3
  else none

/-- The node has no train time yet: it is not joined, and its unit is in Free or Acquire (R233, R717). -/
def tickAcquires (s : State) : Bool :=
  !(joined s) && (match s.time.st with | .free => true | .acquire => true | _ => false)

/-- A tick taken as this cycle's opening frame (R516): what a valid opening frame gives, but for a path. The copy it carries is
kept for R124. -/
def tickValid (im : Image) (t : FabricTick) (s : State) : State :=
  let f := t.frame
  let first := !s.sched.openOk
  let s1 := modSched (fun d => { d with
    openOk := true, variant := f.variant, noPoll := f.noPoll,
    poll := if first then (if f.noPoll then [] else f.poll) else d.poll,
    pollVariant := if first then variantOf im f.cycle else d.pollVariant
    a := { d.a with copy := some f } }) s
  modSched (fun d => { d with afterRelease := false }) (followInaug f (followHeld f s1))

/-- The phase sample of a tick, with what it tells of its source (R515, R516). The lane's estimate must be valid. -/
def tickSample (k : Nat) (theta : Int) (t : FabricTick) (s : State) : State :=
  if !(laneOf s k (fabOf s k).lane.val).valid || s.time.sampled then s
  else phaseSample theta 0 s.time.hops (modFabric (fun f => { f with
    tickEps := t.eps.toNat, tickHops := fabCost s (b2n t.fromTwinB) }) s)

/-- R514: the tick this node takes as its source goes on, its residence (1/16 ns) added to CORR. -/
def tickOn (k : Nat) (t : FabricTick) (residence : Nat) (s : State) : State :=
  let u := { t with corr := t.corr + BitVec.ofNat 32 residence }
  forEach ((fabUpLinks s).filter (fun j => j ≠ k)) (fun j s => emit (.fabricTick (Fin.ofNat 4 j) u) s) s

/-- The effect of a tick at an attached node that takes it as its source. -/
def tickEffect (im : Image) (k : Nat) (t : FabricTick) (tRx : Int) (s : State) : State :=
  let theta := tickTheta im k t tRx s
  if foreignOpening t.frame s then inaCount 6 s
  else match tickFault im theta t with
    | some why => if why = 3 && tickAcquires s then tickSample k theta t (schedCount 1 s)
                  else openingFailed why (38 + k) s
    | none => tickSample k theta t (tickValid im t s)

/-- A tick that passes R166 as R516 applies it, of this node's own group. -/
def tickGood (k : Nat) (t : FabricTick) (tRx : Int) (s : State) : Bool :=
  match s.sched.running with
  | none => true
  | some im => !(foreignOpening t.frame s) && (tickFault im (tickTheta im k t tRx s) t).isNone

/-- A tick in. A copy that comes by another way is left: the fabric delivers each frame once (R498; DEDUCED, log 31). -/
def tickIn (k : Nat) (t : FabricTick) (tRx : Int) (residence : Nat) (s : State) : State :=
  if !s.fab.attached || !(fabUp s k) || tickAgain t s then s
  else
    let s0 := tickNote t s
    let s1 := if tickGood k t tRx s0 then tickChoose t s0 else s0
    if s1.fab.srcB ≠ t.fromTwinB then s1
    else match s1.sched.running with
      | none => tickOn k t residence s1
      | some im => tickOn k t residence (tickEffect im k t tRx s1)

/-- FABRIC_TICK_RX (R514–R516). -/
def execFabricTickRx (dt : Nat) (k : Fin 4) (t : FabricTick) (tRx : Int) (residence : Nat) (s : State) :
    Host.Outcome State Fault Refusal :=
  .next (tickIn k.val t tRx residence (begin_ dt s))

/-! ## Proxied and subscribed frames (R517, R518) -/

/-- R517: the Active twin keeps a fabric node's frame for its entry in the 96 KiB buffer. -/
def proxyIn (slot : Fin 16) (entry : Nat) (f : FlowFrame) (s : State) : State :=
  let rest := s.fab.proxy.filter (fun x => !(x.1 == slot && x.2.1 == entry))
  if !(fabActiveTwin s) || 98304 < ((rest.map (fun x => flowWireLen x.2.2.2)).sum + flowWireLen f) then s
  else modFabric (fun b => { b with proxy := rest ++ [(slot, entry, s.now, f)] }) s

/-- PROXY_FRAME_RX (R517). -/
def execProxyFrameRx (dt : Nat) (slot : Fin 16) (entry : Nat) (f : FlowFrame) (s : State) :
    Host.Outcome State Fault Refusal :=
  .next (proxyIn slot entry f (begin_ dt s))

/-- R518: a twin records what a fabric node subscribes to. -/
def subscribeIn (slot : Fin 16) (flows : List (BitVec 16)) (s : State) : State :=
  if s.fab.attached then s
  else modFabric (fun f => { f with subs := f.subs.filter (fun x => x.1 ≠ slot) ++ [(slot, flows.take 512)] }) s

/-- FABRIC_SUBSCRIBE_RX (R518). -/
def execFabricSubscribeRx (dt : Nat) (slot : Fin 16) (flows : List (BitVec 16)) (s : State) :
    Host.Outcome State Fault Refusal :=
  .next (subscribeIn slot flows (begin_ dt s))

/-- R518: a trunk flow frame that passed checks 1 to 4 of R281 goes to each subscriber of its FLOW_ID. -/
def relayFlow (lineB : Bool) (f : FlowFrame) (s : State) : State :=
  if s.fab.attached then s
  else forEach (s.fab.subs.filter (fun x => x.2.contains f.flowId))
    (fun x s => fabOriginate x.1.val 2 (.flow lineB f) s) s

/-! ## Commands (R541, R542) -/

/-- FAB_STATUS. -/
def fabStatusSpec : CmdSpec := plainSpec 0x0B01 4 ([(1, 0xFE)] ++ zeros 2 3)

/-- SPARE codes. -/
def laneCode : LaneSt → Nat
  | .good => 0
  | .suspect => 1
  | .retired => 2

/-- The fabric link status record. -/
def fabRecord (k : Nat) (s : State) : List Byte :=
  let l := fabOf s k
  let d := laneOf s k l.lane.val
  recBytes 44 ([(0, 2, fabStCode l.st), (2, 1, l.lane.val), (3, 2, laneCode l.spare), (5, 1, b2n d.valid),
    (16, 8, l.partnerSlot.toNat), (32, 64, l.partnerUid.toNat), (96, 32, hopDelayField d.est)] ++
    ctrFields l.ctr [128, 160, 192, 224, 256, 288] 316)

/-- The record, its counters cleared where asked. -/
def fabStatusBody (r : Ring) (s : State) : Reply × State :=
  let k := byteAt r.req 0
  if 3 < k then (outOfRange 0, s)
  else (done (fabRecord k s), if clearAsked r.req 1 then modFab k (fun l => { l with ctr := ctrClear l.ctr }) s else s)

/-- FAB_CONFIG. -/
def fabConfigSpec : CmdSpec := flashSpec 0x0B02 8 [(0, 0xFE), (1, 0xF0)]

/-- R504: an attached node holds policy 0 in both directions and both bypass switches closed. -/
def fabAttach (s : State) : State := closeBoth (applyPolicy 1 0 (applyPolicy 0 0 s))

/-- R541, R504. -/
def fabConfigBody (r : Ring) (s : State) : Reply × State :=
  let att := (byteAt r.req 0).testBit 0
  let req := fieldAt r.req 4 2
  let sem := fieldAt r.req 6 2
  if att && s.twin.configured then (outOfRange 0, s)
  else if req < 1 || 50 < req then (outOfRange 4, s)
  else if sem < 10 || 10000 < sem then (outOfRange 6, s)
  else if !(inSteep s) then (notInState (inaugCode s.ina.st), s)
  else
    let s1 := modFabric (fun f => { f with
      attached := att, mask := BitVec.ofNat 4 (byteAt r.req 1), allow := BitVec.ofNat 16 (fieldAt r.req 2 2),
      reqTmo := req, semTmo := sem }) s
    let old := s.fab.mask
    let s2 := forEach (List.range 4) (fun k s =>
      if s.fab.mask.getLsbD k && !(old.getLsbD k) then fabLeave k .training s
      else if !(s.fab.mask.getLsbD k) && old.getLsbD k then fabLeave k .disabled s else s) s1
    (done [], if att && !s.fab.attached then fabAttach s2 else s2)

/-- FAB_SLOT_TABLE. -/
def fabSlotTableSpec : CmdSpec := flashSpec 0x0B04 16 (zeros 2 7)

/-- R507, R541: at the Active twin. -/
def fabSlotTableBody (r : Ring) (s : State) : Reply × State :=
  let d := byteAt r.req 0
  let uid := BitVec.ofNat 64 (fieldAt r.req 8 8)
  let put (f : Fab) : Fab := { f with
    slots := updAt (f.slots.map (fun u => if u = uid then 0 else u)) (d - 2) (fun _ => uid),
    assign := f.assign.filter (fun u => u ≠ uid), noSlot := f.noSlot.filter (fun u => u ≠ uid) }
  let free (f : Fab) : Fab := { f with slots := updAt f.slots (d - 2) (fun _ => 0), noSlot := [] }
  if d < 2 || 15 < d then (outOfRange 0, s)
  else if 1 < byteAt r.req 1 then (outOfRange 1, s)
  else if byteAt r.req 1 = 1 && uid = 0 then (outOfRange 8, s)
  else if !(fabActiveTwin s) then (notInState (roleCode s.twin.role), s)
  else (done [], modFabric (if byteAt r.req 1 = 1 then put else free) s)

/-- FAB_STATUS (R542). -/
def execFabStatus (dt : Nat) (r : Ring) (s : State) : Host.Outcome State Fault Refusal :=
  .next (submit fabStatusSpec fabStatusBody dt r s)

/-- FAB_CONFIG (R504, R541). -/
def execFabConfig (dt : Nat) (r : Ring) (s : State) : Host.Outcome State Fault Refusal :=
  .next (submit fabConfigSpec fabConfigBody dt r s)

/-- FAB_SLOT_TABLE (R507, R541). -/
def execFabSlotTable (dt : Nat) (r : Ring) (s : State) : Host.Outcome State Fault Refusal :=
  .next (submit fabSlotTableSpec fabSlotTableBody dt r s)

end Sys2Proof.Machine
end

