-- ==== Sys2Proof/Machine/Repair.lean ====
section
/-! DEFINITION. Self-repair and background test: memory errors, soft repair, page and bank retirement, rotation, logic
self-test, aging and the repair commands (R651–R672). -/

namespace Sys2Proof.Machine

/-! ## Memory errors and repair (R653–R659) -/

/-- 24 h in ticks. -/
def dayT : Nat := secT 86400

/-- The errors kept of a place at moments other than now and within 24 h. -/
def earlierErrors (p : MemPlace → Bool) (s : State) : List (MemPlace × Nat × Bool) :=
  s.rep.errs.filter (fun e => p e.1 && e.2.1 ≠ s.clk && s.clk ≤ e.2.1 + dayT)

/-- An error of a DRAM page. -/
def onPage (page : BitVec 16) (q : MemPlace) : Bool := match q with | .dram g _ => g = page | _ => false

/-- Moments of a list, each once. -/
def moments (l : List (MemPlace × Nat × Bool)) : Nat := ((l.map (fun e => e.2.1)).eraseDups).length

/-- R653, R656: the place is failing with the error at hand. -/
def nowFailing (e : MemError) (s : State) : Bool :=
  e.uncorrectable ||
  match e.place with
  | .sram _ _ _ _ => !(earlierErrors (fun q => q == e.place) s).isEmpty
  | .dram page _ => 2 ≤ moments (earlierErrors (onPage page) s) || s.rep.errs.any (fun x => x.1 == e.place)
  | .bank _ => false

/-- The place as a failing place: a page is the same whichever word shows the error. -/
def failPlace (p : MemPlace) : MemPlace := match p with | .dram g _ => .dram g 0 | q => q

/-- The macro of a lock-step pair's L1 or L2 (R654). -/
def cacheMacro (p : MemPlace) : Bool := match p with | .sram _ _ _ c => c.isSome | _ => false

/-- A failing place noted once: a cache repair is held for the pair's self-test, any other awaits a background slice. -/
def noteFailing (p : MemPlace) (s : State) : State :=
  let q := failPlace p
  if s.rep.failing.contains q || s.rep.pendingCache.contains q || s.rep.repaired.contains q || s.rep.ways.contains q then s
  else if cacheMacro q then modRep (fun r => { r with pendingCache := r.pendingCache ++ [q] }) s
  else modRep (fun r => { r with failing := r.failing ++ [q] }) s

/-- R658: an error in a bank: failing when uncorrectable or the 16th corrected within 1 h; it takes no more cells
(R659). -/
def bankError (b : Nat) (unc : Bool) (s : State) : State :=
  let change (k : Bank) : Bank :=
    let c := (k.corr.filter (fun t => s.clk ≤ t + secT 3600)) ++ [s.clk]
    let fails := !k.draining && k.inUse && (unc || 16 ≤ c.length)
    { k with corr := c, draining := k.draining || fails, drainClk := if fails then s.clk else k.drainClk }
  { s with swc := { s.swc with banks := updAt s.swc.banks b change } }

/-- The logical pair that physical pair `p` carries. -/
def carriedBy (s : State) (p : Fin 5) : Option Nat :=
  (List.range 4).find? (fun l => (pairOf s l).phys = some p)

/-- R392: a corrected error of a cache counts for the logical pair whose physical pair has it. The correction costs no cycle
(R358). -/
def cacheCorrected (e : MemError) (s : State) : State :=
  match e.place with
  | .sram _ _ _ (some p) =>
    (match carriedBy s p with
     | some l => if e.uncorrectable then s else pairCount l 2 s
     | none => s)
  | _ => s

/-- A memory error recorded (R653, R656–R658). -/
def memoryError (e : MemError) (s : State) : State :=
  match e.place with
  | .bank b => bankError b.val e.uncorrectable s
  | .sram _ _ _ _ =>
    let s1 := if e.uncorrectable then s else repCount 0 s
    let s2 := if nowFailing e s then noteFailing e.place s1 else s1
    cacheCorrected e (modRep (fun r => { r with errs := keepLast 4096 (r.errs ++ [(e.place, s.clk, e.uncorrectable)]) }) s2)
  | .dram page _ =>
    let s1 := if e.uncorrectable then s else repCount 2 s
    let denied := s.rep.pages = 0 && s.rep.failing.contains (.dram page 0)
    let s2 := if denied && e.uncorrectable then repCount 3 s1
              else if nowFailing e s then noteFailing e.place s1 else s1
    modRep (fun r => { r with errs := keepLast 4096 (r.errs ++ [(e.place, s.clk, e.uncorrectable)]) }) s2

/-- The place of a memory error as an event shows it: the CLASS and LOCATION of R669. -/
def placeParam (p : MemPlace) : List Byte :=
  match p with
  | .sram m isRow i _ => leBytes 1 (if isRow then 1 else 2) ++ leBytes 4 (m.toNat * 65536 + i.toNat)
  | .dram page _ => leBytes 1 3 ++ leBytes 4 page.toNat
  | .bank b => leBytes 1 5 ++ leBytes 4 b.val

/-- R41, R657: an uncorrectable error is an event against the memory block. Its code is stated nowhere: a free value; its
parameters are the model's (log 40). -/
def reportUncorrectable (e : MemError) (s : State) : State :=
  if e.uncorrectable then
    let x := takeFree 65536 s
    raise x.1 (placeParam e.place) x.2
  else s

/-- R40: the read that met the error gives its value, or its report, once to the pair's sampler. -/
def readMet (e : MemError) (s : State) : State :=
  match e.reader with
  | some l => if pairLocked (pairOf s l.val) || pairSplit (pairOf s l.val) then
      readComes l { data := e.value, corrected := !e.uncorrectable, uncorrectable := e.uncorrectable } s
    else s
  | none => s

/-- MEMORY_ECC_ERROR (R40, R41, R653, R656–R658). -/
def execMemoryEccError (dt : Nat) (e : MemError) (s : State) : Host.Outcome State Fault Refusal :=
  .next (readMet e (reportUncorrectable e (memoryError e (begin_ dt s))))

/-- Spare rows, or columns, of a macro that are used. -/
def sparesUsed (isRow : Bool) (m : Nat) (r : Rep) : Nat := ((tblGet (if isRow then r.rowsUsed else r.colsUsed) m).getD 0)

/-- R655: the macro has neither a spare row nor a spare column left. -/
def macroFull (m : Nat) (r : Rep) : Bool := 2 ≤ sparesUsed true m r && 1 ≤ sparesUsed false m r

/-- A place no longer awaits its repair, and its errors are forgotten. -/
def placeDone (p : MemPlace) (s : State) : State :=
  modRep (fun r => { r with
    failing := r.failing.filter (fun q => q ≠ p), pendingCache := r.pendingCache.filter (fun q => q ≠ p)
    errs := r.errs.filter (fun e => failPlace e.1 ≠ p) }) s

/-- LOCATION of a macro's row or column (R669). -/
def sramLoc (m index : BitVec 16) : Nat := m.toNat * 65536 + index.toNat

/-- REP_MACRO_FULL the first time a macro has no spare left (R655). -/
def noteMacroFull (m : BitVec 16) (was : Bool) (s : State) : State :=
  if !was && macroFull m.toNat s.rep then
    raise 0x0D03 (leBytes 2 m.toNat) (modRep (fun r => { r with full := r.full + 1 }) s)
  else s

/-- R654: a spare row of the macro brought in. -/
def useRow (m index : BitVec 16) (atStart : Bool) (s : State) : State :=
  let left := s.rep.rows.toNat - 1
  let s1 := modRep (fun r => { r with
    rows := BitVec.ofNat 16 left, rowsUsed := tblSet r.rowsUsed m.toNat (sparesUsed true m.toNat r + 1) }) s
  reserveEmpty 1 s.rep.rows.toNat left (repairEntry 1 (sramLoc m index) left atStart s1)

/-- R654: the spare column of the macro brought in. -/
def useCol (m index : BitVec 16) (atStart : Bool) (s : State) : State :=
  let left := s.rep.cols.toNat - 1
  let s1 := modRep (fun r => { r with
    cols := BitVec.ofNat 16 left, colsUsed := tblSet r.colsUsed m.toNat (sparesUsed false m.toNat r + 1) }) s
  reserveEmpty 2 s.rep.cols.toNat left (repairEntry 2 (sramLoc m index) left atStart s1)

/-- R654, R655: a failing row or column of a macro. -/
def repairSram (m : BitVec 16) (isRow : Bool) (index : BitVec 16) (c : Option (Fin 5)) (atStart : Bool) (s : State) : State :=
  let p := MemPlace.sram m isRow index c
  let was := macroFull m.toNat s.rep
  let spare := if isRow then sparesUsed true m.toNat s.rep < 2 && s.rep.rows ≠ 0
               else sparesUsed false m.toNat s.rep < 1 && s.rep.cols ≠ 0
  if spare then
    let s1 := modRep (fun r => { r with repaired := r.repaired ++ [p] }) (repCount 1 (placeDone p s))
    noteMacroFull m was (if isRow then useRow m index atStart s1 else useCol m index atStart s1)
  else if c.isSome then
    repairEntry 9 (sramLoc m index) 0 atStart (modRep (fun r => { r with ways := r.ways ++ [p] }) (placeDone p s))
  else modRep (fun r => { r with repaired := r.repaired ++ [p] }) (placeDone p s)

/-- R656: a page redirected to a spare page. Without one it is not retired (R657). -/
def retirePage (page : BitVec 16) (atStart : Bool) (s : State) : State :=
  if s.rep.pages = 0 then s
  else
    let left := s.rep.pages.toNat - 1
    let s1 := modRep (fun r => { r with
      pages := BitVec.ofNat 11 left, retiredPages := r.retiredPages ++ [page] }) (placeDone (.dram page 0) s)
    reserveEmpty 3 s.rep.pages.toNat left (repairEntry 3 page.toNat left atStart s1)

/-- The repair of a failing place (R654–R657). -/
def repairPlace (p : MemPlace) (atStart : Bool) (s : State) : State :=
  match p with
  | .sram m isRow index c => repairSram m isRow index c atStart s
  | .dram page _ => retirePage page atStart s
  | .bank _ => s

/-- REP_TEST event (R671): kind, pair or 0xFF, result. -/
def repTestEvent (kind pair : Nat) (passed : Bool) (s : State) : State :=
  raise 0x0D05 (leBytes 1 kind ++ leBytes 1 pair ++ leBytes 1 (b2n !passed)) s

/-- A pending request of a kind ends, and its queued command with it. -/
def requestDone (kind : Fin 8) (s : State) : State :=
  match s.rep.reqs.find? (fun q => q.1 = kind) with
  | none => s
  | some q => finishQueued (fun c => c.cmdSeq = q.2 && (c.opcode == 0x0D03 || c.opcode == 0x0D04)) 0
      (modRep (fun r => { r with reqs := r.reqs.filter (fun x => x.1 ≠ kind) }) s)

/-- The kind a request shows in its REP_TEST event: byte 0 of its command. -/
def requestKind (kind : Fin 8) : Nat := if kind.val < 4 then kind.val + 1 else kind.val - 3

/-- What a background slice does (R661): scrub without a finding, repair a place marked failing, or end a queued
request other than a pair's self-test (R667). -/
def scrubSlice (w : ScrubWork) (s : State) : State :=
  match w with
  | .scrub => s
  | .repair p => if s.rep.failing.contains (failPlace p) then repairPlace (failPlace p) false s else s
  | .request kind passed =>
    if kind.val ≠ 0 && s.rep.reqs.any (fun q => q.1 = kind) then
      requestDone kind (repTestEvent (requestKind kind) 0xFF passed s)
    else s

/-- SCRUB_SLICE (R661): a slice that ends now, 20 µs or more before the next registration instant, which is a known event of
every domain. -/
def execScrubSlice (dt : Nat) (w : ScrubWork) (s : State) : Host.Outcome State Fault Refusal :=
  let s1 := begin_ dt s
  .next (if s1.now + usT 20 ≤ nextInstant s1 then scrubSlice w s1 else s1)

/-- The frames of an egress queue that leave no cell in bank `b`, and how many did. -/
def dropBank (b : Nat) (t : SwPort) : SwPort :=
  let gone := ((t.queues.map (fun q => (q.filter (fun f => f.bank = b)).length)).sum)
  { t with queues := t.queues.map (fun q => q.filter (fun f => f.bank ≠ b)), ctr := updAt t.ctr 8 (satAdd gone) }

/-- R659: the failing bank is empty, or what still holds cells in it is dropped; a spare bank takes its place while
there is one. -/
def bankRetire (b : Nat) (s : State) : State :=
  let s1 := { s with swc := { s.swc with
    ports := s.swc.ports.map (dropBank b)
    banks := updAt s.swc.banks b (fun k => { k with inUse := false, draining := false, retired := true }) } }
  let spare := (List.range 26).find? (fun i => match s1.swc.banks[i]? with | some k => !k.inUse && !k.retired | none => false)
  let left := s.rep.banks.toNat - 1
  match spare with
  | some i =>
    if s.rep.banks = 0 then repairEntry 5 b 0 false s1
    else reserveEmpty 5 s.rep.banks.toNat left (repairEntry 5 b left false (modRep (fun r => { r with banks := BitVec.ofNat 2 left })
      { s1 with swc := { s1.swc with banks := updAt s1.swc.banks i (fun k => { k with inUse := true }) } }))
  | none => repairEntry 5 b 0 false s1

/-- A failing bank is empty, or 10 ms have passed since it took no more cells (R659). -/
def bankDrained (b : Nat) (s : State) : Bool :=
  match s.swc.banks[b]? with
  | some k => k.draining && (k.drainClk + msT 10 ≤ s.clk ||
      s.swc.ports.all (fun t => t.queues.all (fun q => q.all (fun f => f.bank ≠ b))))
  | none => false

/-- BANK_DRAIN_COMPLETE (R659). -/
def execBankDrainComplete (dt : Nat) (bank : Fin 26) (s : State) : Host.Outcome State Fault Refusal :=
  let s1 := begin_ dt s
  .next (if bankDrained bank.val s1 then bankRetire bank.val s1 else s1)

/-! ## Rotation and logic self-test (R660–R664) -/

/-- P / 5 in ticks. -/
def rotSpan (s : State) : Nat := secT (s.rep.rotHours * 720)

/-- Seconds since physical pair `p` last passed its self-test; never passed counts longest. -/
def testAge (s : State) (p : Nat) : Nat :=
  match s.rep.testClk.getD p none with
  | some c => min 0xFFFFFFFF ((s.clk - c) / secT 1)
  | none => 0xFFFFFFFF

/-- Moment of the last passed self-test; a pair that never passed is the oldest. -/
def testMoment (s : State) (p : Nat) : Nat := match s.rep.testClk.getD p none with | some c => c + 1 | none => 0

/-- R662: a physical pair that a rotation step may free: it carries a logical pair that is locked and not DBG. -/
def rotEligible (s : State) (p : Fin 5) : Bool :=
  match carriedBy s p with
  | some l => pairLocked (pairOf s l) && !(pairOf s l).dbg
  | none => false

/-- R662: the eligible pair whose last self-test is oldest, on a tie the lower index; or the pair REP_TEST asked for. -/
def rotChoice (s : State) : Option (Fin 5) :=
  match s.rep.rotPick with
  | some p => if rotEligible s p then some p else none
  | none =>
    ([0, 1, 2, 3, 4] : List (Fin 5)).foldl (fun b p =>
      if !(rotEligible s p) then b
      else match b with
        | none => some p
        | some q => if testMoment s p.val < testMoment s q.val then some p else b) none

/-- The power state leaves PD2 or PD3 off (R662). -/
def coresOff (s : State) : Bool :=
  [2, 3].any (fun d => match s.pwr.doms.getD d .run with | .off => true | _ => false)

/-- A rotation step is due: its time has come, or it has been deferred. -/
def rotDue (s : State) : Bool :=
  s.rep.rotDeferred || (s.rep.rotHours ≠ 0 && !s.rep.rotStopped && s.rep.rotDueClk ≤ s.clk)

/-- R662: the step that is due runs, or is deferred and counted. -/
def rotationTry (s : State) : State :=
  if !(rotDue s) || s.rep.rotRun.isSome || s.rep.rotStopped then s
  else
    let l := (rotChoice s).bind (carriedBy s)
    let free : Bool := match l with | some l => (pairOf s l).pendHand.isNone | none => false
    match rotChoice s, l with
    | some p, some l =>
      if s.lsk.spareReady && !(coresOff s) && free then
        askHand l .subst (modRep (fun r => { r with
          rotRun := some p, rotDeferred := false, rotDueClk := s.rep.rotDueClk + rotSpan s }) s)
      else if s.rep.rotDeferred then s else repCount 5 (modRep (fun r => { r with rotDeferred := true }) s)
    | _, _ => if s.rep.rotDeferred then s else repCount 5 (modRep (fun r => { r with rotDeferred := true }) s)

/-- ROTATION_STEP (R662). -/
def execRotationStep (dt : Nat) (s : State) : Host.Outcome State Fault Refusal :=
  .next (rotationTry (begin_ dt s))

/-- R662: a deferred step, and one whose substitution was abandoned, is tried again at every instant. -/
def rotationAtInstant (s : State) : State := if s.rep.rotDeferred then rotationTry s else s

/-- Guard-band steps that monitors call for (R665): the monitors' falls from their fused values in 0.01 %. -/
def agingRead (monitors : List Nat) (s : State) : State :=
  let worst := monitors.foldl max 0
  let at_ := (s.rep.stepNext.getD s.rep.step).toNat
  if at_ < 15 && 150 * (at_ + 1) < worst then modRep (fun r => { r with stepNext := some (BitVec.ofNat 4 (at_ + 1)) }) s
  else s

/-- R654: the cache repairs held for physical pair `p` are applied. -/
def applyCache (p : Fin 5) (atStart : Bool) (s : State) : State :=
  let mine := s.rep.pendingCache.filter (fun q => match q with | .sram _ _ _ c => c = some p | _ => false)
  forEach mine (fun q s => repairPlace q atStart s) s

/-- R660, R663: physical pair `p` has passed: it becomes the spare, unless it was fenced twice within 24 h. -/
def testPassed (p : Fin 5) (s : State) : State :=
  let s1 := modRep (fun r => { r with testClk := updAt r.testClk p.val (fun _ => some s.clk) }) s
  if s.rep.refenced.getLsbD p.val then
    retirePair p.val false (modLsk (fun k => if k.spare = some p then { k with spare := none, spareReady := false } else k) s1)
  else
    let s2 := if s.rep.fenced.getLsbD p.val then repairEntry 7 p.val (b2n s.rep.pair) false s1 else s1
    modLsk (fun k => { k with spare := some p, spareReady := true })
      (modRep (fun r => { r with fenced := r.fenced &&& ~~~ (1#5 <<< p.val) }) s2)

/-- R663: physical pair `p` has failed: it is retired, and the spare no longer when it was that. -/
def testFailed (p : Fin 5) (s : State) : State :=
  let s1 := retirePair p.val false (repCount 6 s)
  if s1.lsk.spare = some p then modLsk (fun k => { k with spare := none, spareReady := false }) s1 else s1

/-- The end of a pair's logic self-test (R660, R662, R663, R665, R667). -/
def selfTestEnd (p : Fin 5) (passed : Bool) (monitors : List Nat) (s : State) : State :=
  let s1 := modRep (fun r => { r with testing := none }) (agingRead monitors (applyCache p false s))
  let s2 := if passed then testPassed p s1 else testFailed p s1
  let s3 := repTestEvent 1 p.val passed s2
  let s4 := if s3.rep.rotRun = some p then repCount 4 (modRep (fun r => { r with rotRun := none }) s3) else s3
  if s4.rep.rotPick = some p then requestDone 0 (modRep (fun r => { r with rotPick := none }) s4) else s4

/-- LOGIC_SELF_TEST_COMPLETE (R660, R663). -/
def execLogicSelfTestComplete (dt : Nat) (phys : Fin 5) (passed : Bool) (monitors : List Nat) (s : State) :
    Host.Outcome State Fault Refusal :=
  let s1 := begin_ dt s
  .next (if s1.rep.testing = some phys then selfTestEnd phys passed monitors s1 else s1)

/-- R664 for one physical pair that fails at a start: it is retired, and its logical pair goes to the spare where the
spare passed. -/
def startFail (failed : List (Fin 5)) (p : Fin 5) (s : State) : State :=
  let s1 := retirePair p.val true (repCount 6 s)
  match s1.lsk.spare with
  | none =>
    (match carriedBy s1 p with
     | some l => modPair l (fun x => { x with phys := none }) s1
     | none => s1)
  | some q =>
    if q = p then modLsk (fun k => { k with spare := none, spareReady := false }) s1
    else match carriedBy s1 p with
      | none => s1
      | some l =>
        if failed.contains q then modPair l (fun x => { x with phys := none }) s1
        else modLsk (fun k => { k with spare := none, spareReady := false }) (modPair l (fun x => { x with phys := some q }) s1)

/-- R357: the physical pair, not retired, that carries no logical pair. -/
def freePhys (s : State) : Option (Fin 5) :=
  ([0, 1, 2, 3, 4] : List (Fin 5)).find? (fun p => !(s.rep.retired.getLsbD p.val) && (carriedBy s p).isNone)

/-- Step 0x5 (R664): every physical pair that is not retired is tested; the one without a logical pair is the spare (R357),
though power went while it was in test. -/
def startSelfTest (failed : List (Fin 5)) (s : State) : State :=
  let s := modLsk (fun k => { k with spare := k.spare.or (freePhys s) }) s
  let tested := ([0, 1, 2, 3, 4] : List (Fin 5)).filter (fun p => !(s.rep.retired.getLsbD p.val))
  let s1 := forEach tested (fun p s =>
    let ok := !(failed.contains p)
    let s1 := applyCache p true s
    let s2 := if ok then modRep (fun r => { r with testClk := updAt r.testClk p.val (fun _ => some s.clk) }) s1 else s1
    repTestEvent 1 p.val ok s2) s
  let s2 := forEach (tested.filter (fun p => failed.contains p)) (startFail failed) s1
  let s3 := modLsk (fun k => { k with spareReady := k.spare.isSome }) s2
  modRep (fun r => { r with testing := none, rotRun := none, rotDueClk := s.clk + rotSpan s }) s3

/-- R652: the log is not readable at a start: the fused repairs stand alone. -/
def logLost (s : State) : State :=
  raise 0x0106 (leBytes 1 0x0D ++ leBytes 1 2) (modRep (fun r => { Rep.reset with
    ctr := r.ctr, rotHours := r.rotHours, rotDueClk := r.rotDueClk, testClk := r.testClk, fenceClk := r.fenceClk }) s)

/-! ## Aging (R665, R666) -/

/-- AGING_MONITOR_READ (R665). -/
def execAgingMonitorRead (dt : Nat) (monitors : List Nat) (s : State) : Host.Outcome State Fault Refusal :=
  .next (agingRead monitors (begin_ dt s))

/-- REP_AGING.MHZ at a guard-band step. -/
def agingMhz (step : BitVec 4) : Nat := 1200 - 25 * step.toNat

/-- R666: a step taken takes effect at the instant. -/
def agingApply (s : State) : State :=
  match s.rep.stepNext with
  | none => s
  | some n =>
    raise 0x0D04 (leBytes 1 n.toNat ++ leBytes 2 (agingMhz n))
      (repairEntry 8 n.toNat (15 - n.toNat) false (modRep (fun r => { r with step := n, stepNext := none }) s))

/-! ## Commands (R667–R670) -/

/-- REP_STATUS. -/
def repStatusSpec : CmdSpec := plainSpec 0x0D01 4 ((0, 0xFE) :: zeros 1 3)

/-- PENDING of the record: test, sweep or scrub, lane check, calibration. -/
def repPending (s : State) : Nat :=
  let has (ks : List Nat) : Bool := s.rep.reqs.any (fun q => ks.contains q.1.val)
  b2n (has [0]) + 2 * b2n (has [1, 2]) + 4 * b2n (has [3]) + 8 * b2n (has [4, 5, 6])

/-- P, 0 when rotation is stopped. -/
def rotHoursNow (s : State) : Nat := if s.rep.rotStopped then 0 else s.rep.rotHours

/-- The repair status record. -/
def repRecord (s : State) : List Byte :=
  let next := if rotHoursNow s = 0 then 7 else match rotChoice s with | some p => p.val | none => 7
  recBytes 56 ([(0, 8, rotHoursNow s), (8, 1, b2n s.rep.rotRun.isSome), (9, 3, next), (12, 4, repPending s),
    (16, 5, s.rep.retired.toNat)] ++ (List.range 5).map (fun p => (32 + 32 * p, 32, testAge s p)) ++
    ctrFields s.rep.ctr [192, 224, 256, 288, 320, 352, 384] 410)

/-- The record, its counters cleared where asked. -/
def repStatusBody (r : Ring) (s : State) : Reply × State :=
  (done (repRecord s), if clearAsked r.req 0 then modRep (fun x => { x with ctr := ctrClear x.ctr }) s else s)

/-- REP_LOG. -/
def repLogSpec : CmdSpec := plainSpec 0x0D02 4 []

/-- The 16 bytes of a history entry (R669). -/
def repEntryBytes (e : RepEntry) : List Byte :=
  leBytes 6 e.time ++ [e.cls, BitVec.ofNat 8 (b2n e.unsure + 2 * b2n e.atStart)] ++ leBytes 4 e.loc.toNat ++
    leBytes 2 e.left.toNat ++ leBytes 2 0

/-- R668. -/
def repLogBody (r : Ring) (s : State) : Reply × State :=
  let n := fieldAt r.req 2 2
  if n < 1 || 250 < n then (outOfRange 2, s)
  else
    let es := (s.rep.hist.drop (fieldAt r.req 0 2)).take n
    (done (leBytes 2 es.length ++ leBytes 2 s.rep.hist.length ++ leBytes 12 0 ++ es.flatMap repEntryBytes), s)

/-- REP_TEST. -/
def repTestSpec : CmdSpec := plainSpec 0x0D03 4 (zeros 2 3)

/-- A request is pending of a kind. -/
def reqPending (kind : Fin 8) (s : State) : Bool := s.rep.reqs.any (fun q => q.1 = kind)

/-- A request noted with the number of its command. -/
def addReq (kind : Fin 8) (m : Nat) (s : State) : State :=
  modRep (fun r => { r with reqs := r.reqs ++ [(kind, (mbxOf s m).cmdSeq)] }) s

/-- R667: a self-test of a pair: of the spare at once, of one that carries a logical pair as the next rotation step. -/
def askTest (p : Fin 5) (s : State) : State :=
  let s1 := modRep (fun r => { r with rotPick := some p }) s
  if s.lsk.spare = some p then modLsk (fun k => { k with spareReady := false }) (modRep (fun r => { r with testing := some p }) s1)
  else s1

/-- R667, R668. -/
def repTestBody (r : Ring) (s : State) : Reply × State :=
  let kind := byteAt r.req 0
  let p : Fin 5 := Fin.ofNat 5 (byteAt r.req 1)
  let st : Option Nat := (carriedBy s p).map (fun l => pairState (pairOf s l))
  let bars : Bool := match carriedBy s p with
    | some l => pairSplit (pairOf s l) || (pairOf s l).dbg
    | none => false
  if kind < 1 || 4 < kind then (outOfRange 0, s)
  else if (kind = 1 && 4 < byteAt r.req 1) || (kind ≠ 1 && byteAt r.req 1 ≠ 0) then (outOfRange 1, s)
  else if kind = 1 && s.rep.retired.getLsbD p.val then (notInStateAll, s)
  else if kind = 1 && bars then (notInState (st.getD 0), s)
  else if reqPending (Fin.ofNat 8 (kind - 1)) s then (fail 0x0108 0, s)
  else (queued 0, addReq (Fin.ofNat 8 (kind - 1)) r.mbx.val (if kind = 1 then askTest p s else s))

/-- REP_CALIBRATE. -/
def repCalibrateSpec : CmdSpec := plainSpec 0x0D04 4 (zeros 1 3)

/-- R667, R668. -/
def repCalibrateBody (r : Ring) (s : State) : Reply × State :=
  let kind := byteAt r.req 0
  if kind < 1 || 3 < kind then (outOfRange 0, s)
  else if reqPending (Fin.ofNat 8 (kind + 3)) s then (fail 0x0108 0, s)
  else (queued 0, addReq (Fin.ofNat 8 (kind + 3)) r.mbx.val s)

/-- REP_ROTATION. -/
def repRotationSpec : CmdSpec := flashSpec 0x0D05 4 (zeros 2 3)

/-- R668, R662: the period; the next step falls due a fifth of it from now. -/
def repRotationBody (r : Ring) (s : State) : Reply × State :=
  let p := fieldAt r.req 0 2
  if p ≠ 0 && (p < 6 || 168 < p) then (outOfRange 0, s)
  else (done [], modRep (fun x => { x with
    rotHours := p, rotDueClk := s.clk + secT (p * 720), rotDeferred := x.rotDeferred && p ≠ 0 }) s)

/-- REP_STATUS (R670). -/
def execRepStatus (dt : Nat) (r : Ring) (s : State) : Host.Outcome State Fault Refusal :=
  .next (submit repStatusSpec repStatusBody dt r s)

/-- REP_LOG (R669). -/
def execRepLog (dt : Nat) (r : Ring) (s : State) : Host.Outcome State Fault Refusal :=
  .next (submit repLogSpec repLogBody dt r s)

/-- REP_TEST (R667). -/
def execRepTest (dt : Nat) (r : Ring) (s : State) : Host.Outcome State Fault Refusal :=
  .next (submit repTestSpec repTestBody dt r s)

/-- REP_CALIBRATE (R667). -/
def execRepCalibrate (dt : Nat) (r : Ring) (s : State) : Host.Outcome State Fault Refusal :=
  .next (submit repCalibrateSpec repCalibrateBody dt r s)

/-- REP_ROTATION (R662, R668). -/
def execRepRotation (dt : Nat) (r : Ring) (s : State) : Host.Outcome State Fault Refusal :=
  .next (submit repRotationSpec repRotationBody dt r s)

end Sys2Proof.Machine
end

