-- ==== Sys2Proof/Machine/Power.lean ====
section
/-! DEFINITION. Supply, hold-up, power domains, Park and Kiln, thermal limits and the power commands (R623–R650). Entry
to Kiln, the converter's stop and the wake from Park stand in Start.lean with what a start makes of the state. -/

namespace Sys2Proof.Machine

/-- The power manager changed. -/
def modPwr (f : Pwr → Pwr) (s : State) : State := { s with pwr := f s.pwr }

/-- A counter of the power status record (R648): 0 RIDE_THRU, 1 BELOW_RANGE, 2 DOZE, 3 NAP, 4 WAKE_LATE, 5 THROTTLE. -/
def pwrCount (i : Nat) (s : State) : State := modPwr (fun p => { p with ctr := ctrInc p.ctr i }) s

/-- The device runs in service. -/
def inRun (s : State) : Bool := match s.pwr.dev with | .run => true | _ => false

/-- The device is in Park. -/
def inPark (s : State) : Bool := match s.pwr.dev with | .park => true | _ => false

/-- The device is in Kiln. -/
def inKiln (s : State) : Bool := match s.pwr.dev with | .kiln => true | _ => false

/-! ## Supply (R625–R629) -/

/-- A loss is declared. -/
def lossDeclared (s : State) : Bool := match s.pwr.supply with | .loss => true | _ => false

/-- R625: the state an input voltage (10 mV) brings about. -/
def supplyNext (vin : Nat) : Supply → Supply
  | .loss => .loss
  | .riding => if vin < 1300 then .riding else if vin < 1440 then .below else .normal
  | _ => if vin < 1200 then .riding else if vin < 1440 then .below else .normal

/-- A supply state entered: SUPPLY_STATE and its count at each change. -/
def setSupply (n : Supply) (s : State) : State :=
  if n = s.pwr.supply then s
  else
    let s1 := raise 0x0C01 (leBytes 1 (supplyCode s.pwr.supply) ++ leBytes 1 (supplyCode n) ++ leBytes 2 s.pwr.vin)
      (modPwr (fun p => { p with supply := n }) s)
    match n with
    | .riding => pwrCount 0 s1
    | .below => pwrCount 1 s1
    | _ => s1

/-- Domains put into states by number. -/
def setDoms (l : List (Nat × DomSt)) (s : State) : State :=
  modPwr (fun p => { p with doms := l.foldl (fun ds x => updAt ds x.1 (fun _ => x.2)) p.doms }) s

/-- CAN and segment transmitters go recessive or quiet. -/
def quietBuses (s : State) : State :=
  let s1 := forEach (List.range 12) (fun c s => modCan c (fun ch => { ch with tx := .none, running := false }) s) s
  forEach [0, 1] (fun g s => modMvb g (fun m => { m with inPeriod := false, polls := [], master := none }) s) s1

/-- R628: transmitters go recessive or quiet, and timed outputs take their inactive level. -/
def quietOutputs (s : State) : State :=
  forEach (List.range 6) (fun n s =>
    if (tioOf s n).active then tioDrive n false (modTio n (fun t => { t with active := false }) s) else s) (quietBuses s)

/-- R628: the loss declaration: heartbeats, the first PASSIVE beacons, and the domains that are turned off. In Kiln only
PD0 runs (R645). -/
def declareLoss (s : State) : State :=
  let s1 := modPwr (fun p => { p with shutdown := true }) (setSupply .loss s)
  if inKiln s then s1
  else
    let s2 := if s1.twin.configured then twinLinks (outHeartbeat s1) s1 else s1
    let s3 := forEach (List.range 4) holdPair (goPassive s2)
    quietOutputs (setDoms [(2, .off), (3, .off), (4, .off), (5, .off), (7, .off), (8, .off), (11, .off)] s3)

/-- INPUT_VOLTAGE_CHANGE (R625, R645): `vin` in 10 mV. Park and Kiln do not ride through; in Kiln the supervisor is off. -/
def inputChange (vin : Nat) (s : State) : State :=
  let s1 := modPwr (fun p => { p with vin := vin }) s
  if !s.sys.powered && !(inKiln s) then s1
  else if !(inRun s) && vin < 1200 then
    if lossDeclared s then s1 else declareLoss (if inPark s1 then emergencyClose s1 else s1)
  else if inKiln s then s1
  else setSupply (supplyNext vin s1.pwr.supply) s1

/-- INPUT_VOLTAGE_CHANGE (R625). -/
def execInputVoltageChange (dt : Nat) (vin : Nat) (s : State) : Host.Outcome State Fault Refusal :=
  .next (inputChange vin (begin_ dt s))

/-- STORE_OK_CHANGE (R626): `vstore` in 10 mV. -/
def execStoreOkChange (dt : Nat) (vstore : Nat) (s : State) : Host.Outcome State Fault Refusal :=
  .next (modPwr (fun p => { p with
    vstore := vstore, storeOk := if 14900 ≤ vstore then true else if vstore ≤ 14750 then false else p.storeOk }) (begin_ dt s))

/-- LOSS_DECLARED (R628): the store has fallen to 72 V and the input is still below 13.0 V. -/
def execLossDeclared (dt : Nat) (vin : Nat) (vstore : Nat) (s : State) : Host.Outcome State Fault Refusal :=
  let s1 := modPwr (fun p => { p with vin := vin, vstore := vstore }) (begin_ dt s)
  let riding : Bool := match s1.pwr.supply with | .riding => true | _ => false
  .next (if riding && vin < 1300 && vstore ≤ 7200 then declareLoss s1 else s1)

/-- SHUTDOWN_BYPASS_CLOSE (R628, R70). -/
def execShutdownBypassClose (dt : Nat) (s : State) : Host.Outcome State Fault Refusal :=
  let s1 := begin_ dt s
  .next (if s1.pwr.shutdown then emergencyClose s1 else s1)

/-- PD0_STOP (R629): below 24 V the real-time counter stops, once the converter has. -/
def execPd0Stop (dt : Nat) (s : State) : Host.Outcome State Fault Refusal :=
  let s1 := begin_ dt s
  .next (if s1.sys.powered then s1 else { s1 with time := { s1.time with rtcKept := false } })

/-! ## Thermal (R646) -/

/-- THERMAL, counted (R646): 0 normal, 1 throttled, 2 shutdown. -/
def thermalEvent (state : Nat) (s : State) : State :=
  raise 0x0C05 (leBytes 1 state ++ leBytes 2 (twos 16 s.pwr.case_) ++ leBytes 2 (twos 16 s.pwr.die)) (pwrCount 5 s)

/-- A temperature crossing: throttled from 110 °C, a loss of supply from 125 °C of the die or 105 °C of the case. -/
def thermalIn (case_ die : Int) (s : State) : State :=
  let s1 := modPwr (fun p => { p with case_ := case_, die := die }) s
  if !s.sys.powered || lossDeclared s then s1
  else if 1250 ≤ die || 1050 ≤ case_ then declareLoss (thermalEvent 2 s1)
  else if 1100 ≤ die && !s.pwr.throttled then thermalEvent 1 (modPwr (fun p => { p with throttled := true }) s1)
  else s1

/-- THERMAL_CHANGE (R646): temperatures in 0.1 °C. -/
def execThermalChange (dt : Nat) (case : Int) (die : Int) (s : State) : Host.Outcome State Fault Refusal :=
  .next (thermalIn case die (begin_ dt s))

/-- R646 at an instant: THROTTLED clears below 105 °C, and the pairs' frequency follows. -/
def thermalAtInstant (s : State) : State :=
  let s1 := if s.pwr.throttled && s.pwr.die < 1050 then
      thermalEvent 0 (modPwr (fun p => { p with throttled := false }) s) else s
  modPwr (fun p => { p with throttleNow := p.throttled }) s1

/-! ## The next-event chooser (R634–R637) -/

/-- R633: the deepest state a domain may take in service: 0 Run, 1 Doze, 2 Nap. -/
def domLimit (d : Nat) : Nat :=
  if [1, 2, 3, 4].contains d then 2 else if [5, 7, 8, 11].contains d then 1 else 0

/-- R635: the deepest state that fits a time `t` ahead (ticks). -/
def domFit (limit t : Nat) : DomSt :=
  if 2 ≤ limit && usT 66 ≤ t then .nap else if 1 ≤ limit && nsT 550 ≤ t then .doze else .run

/-- A domain enters a state, with its count. -/
def enterDom (d : Nat) (n : DomSt) (s : State) : State :=
  let old := s.pwr.doms.getD d .off
  if n = old then s
  else
    let s1 := setDoms [(d, n)] s
    match n with
    | .doze => pwrCount 2 s1
    | .nap => pwrCount 3 s1
    | _ => s1

/-- R634: what the state shows of domain `d` does not keep it from being idle: no frame in a trunk queue (PD5) or waiting
for egress (PD7); every channel in Config, Standby or bus-off without a request, and the segments Off (PD8); no self-test
or hand-over (PD2, PD3). The rest of the idle condition comes with POWER_DOMAIN_IDLE. -/
def mayIdle (d : Nat) (s : State) : Bool :=
  let channel (c : Can) : Bool :=
    (canModeAct c = 0 || canModeAct c = 6 || (match c.est with | .busOff => true | _ => false)) && c.pending.isEmpty
  let pairsRest (lo hi : Nat) : Bool :=
    (match s.rep.testing with | some p => p.val < lo || hi < p.val | none => true) &&
    s.lsk.pairs.all (fun p => p.pendHand.isNone)
  match d with
  | 2 => pairsRest 0 1
  | 3 => pairsRest 2 4
  | 5 => s.trunk.ports.all (fun t => t.queues.all (fun q => q.isEmpty) && t.fifo.isEmpty)
  | 7 => s.swc.ports.all (fun t => t.queues.all (fun q => q.isEmpty))
  | 8 => s.can.all channel && s.mvb.all (fun m => m.roleAct = 0)
  | _ => true

/-- R634, R635: the state chosen for domain `d` of a device in service. A known event whose moment has passed no longer
counts. -/
def chooseDom (d : Nat) (s : State) : State :=
  let off : Bool := match s.pwr.doms.getD d .off with | .off => true | _ => false
  if off || !(inRun s) then s
  else
    let instant := nextInstant s - s.now
    let ahead := match s.pwr.nextAt.getD d none with
      | some c => if c < s.clk then instant else min (c - s.clk) instant
      | none => instant
    let limit := min (domLimit d) (s.pwr.deepest.getD d 2)
    enterDom d (if s.pwr.idle.getD d false && mayIdle d s then domFit limit ahead else .run) s

/-- POWER_DOMAIN_IDLE (R634, R635): `next` is how long ahead, in ticks, the domain's next known event lies. -/
def execPowerDomainIdle (dt : Nat) (d : Fin 12) (idle : Bool) (next : Option Nat) (s : State) :
    Host.Outcome State Fault Refusal :=
  let s1 := begin_ dt s
  .next (chooseDom d.val (modPwr (fun p => { p with
    idle := updAt p.idle d.val (fun _ => idle), nextAt := updAt p.nextAt d.val (fun _ => next.map (fun t => s1.clk + t)) }) s1))

/-- A domain that dozes or naps is in Run again. -/
def wakeDom (d : Nat) (s : State) : State :=
  match s.pwr.doms.getD d .off with
  | .off => s
  | _ => setDoms [(d, .run)] s

/-- DOMAIN_WAKE_TIMER (R635). -/
def execDomainWakeTimer (dt : Nat) (d : Fin 12) (s : State) : Host.Outcome State Fault Refusal :=
  .next (wakeDom d.val (begin_ dt s))

/-- R632: wake latency of a domain's present state. -/
def wakeLatency (d : Nat) (s : State) : Nat :=
  match s.pwr.doms.getD d .off with
  | .doze => nsT 300
  | .nap => usT 40
  | _ => 0

/-- ASYNC_DOMAIN_WAKE (R636, R637): `due` is how long ahead the event that was added lies. -/
def execAsyncDomainWake (dt : Nat) (d : Fin 12) (due : Option Nat) (s : State) : Host.Outcome State Fault Refusal :=
  let s1 := begin_ dt s
  let late : Bool := match due with | some t => t < wakeLatency d.val s1 | none => false
  .next (wakeDom d.val (if late then pwrCount 4 s1 else s1))

/-- R634, R647 at an instant: configurations take effect, and every domain's state is chosen anew. -/
def powerAtInstant (s : State) : State :=
  let s1 := modPwr (fun p => { p with
    deepest := List.zipWith (fun (a : Nat) (b : Option Nat) => b.getD a) p.deepest p.deepestNext
    deepestNext := List.replicate 12 none }) s
  forEach (List.range 12) chooseDom (thermalAtInstant s1)

/-! ## Park and the wakes (R638–R642) -/

/-- R638: the pending entry is due at the instant that has just come: cycle C, or the first instant when C is no longer
newer than its cycle. -/
def entryDue (kiln : Bool) (s : State) : Bool :=
  match s.pwr.pend with
  | some (k, c, late) => k == kiln && (late || !(wrapNewer c (cycleNo s)))
  | none => false

/-- PWR_PARKED, and the end of the queued command. -/
def parkedEvent (kiln : Bool) (s : State) : State :=
  let late := (s.pwr.pend.map (fun x => x.2.2 || x.2.1 ≠ cycleNo s)).getD false
  finishQueued (fun q => q.opcode == (if kiln then 0x0C04 else 0x0C03)) 0
    (raise 0x0C03 (leBytes 1 (b2n kiln) ++ leBytes 1 (b2n late) ++ leBytes 4 (cycleNo s).toNat)
      (modPwr (fun p => { p with pend := none }) s))

/-- A trunk port into Listen, its bypass switch open (R67); R69 names no event for it. -/
def portToListen (p : Nat) (s : State) : State := modPort p (portClear .listen) s

/-- R639, R633: what entry to Park does. -/
def enterPark (s : State) : State :=
  let s1 := parkedEvent false (enterSteep (modTrunk (fun t => { t with stopForward := true, seq := none }) s))
  let s2 := if s1.trunk.lineA.closed then openLine .a s1 else s1
  let s3 := if s2.trunk.lineB.closed then openLine .b s2 else s2
  let s4 := quietBuses (forEach (List.range 4) holdPair (forEach (List.range 4) portToListen s3))
  let s5 := forEach (List.range 12) (fun c s => if canCtl (canOf s c) 13 then canApplyMode c 6 s else s) s4
  let s6 := setDoms [(0, .run), (1, .nap), (2, .off), (3, .off), (4, .nap), (5, .off), (6, .run), (7, .off), (8, .off),
    (9, .run), (10, .run), (11, .off)] s5
  modPwr (fun p => { p with dev := .park, wakeBits := 0 }) s6

/-- R411, R641: a CAN channel on which a wake-up pattern wakes the device: WAKE_EN is set, and in Park it is in Standby. -/
def canWakes (s : State) : Bool := s.can.any (fun c => canCtl c 13 && (inKiln s || canModeAct c = 6))

/-- R641: the source is enabled in the state the device is in; the alarm's time has come where it is the alarm, and a channel
takes the pattern where it is CAN. -/
def wakeEnabled (src : Nat) (s : State) : Bool :=
  (if inPark s then s.pwr.wakePark.getLsbD src else inKiln s && s.pwr.wakeKiln.getLsbD src && src ≠ 1) &&
  (src ≠ 3 || (s.pwr.alarm ≠ 0 && s.pwr.alarm ≤ s.now)) && (src ≠ 4 || canWakes s)

/-- R642: the wake is passed on, but not to the port it came from. -/
def forwardWake (port : Option (Fin 4)) (s : State) : State :=
  if inPark s then
    let ps := ([0, 1, 2, 3] : List (Fin 4)).filter (fun p => some p ≠ port)
    emits (ps.map (fun p => Emission.wakePort p) ++ [.wakeTwin 0, .wakeTwin 1]) s
  else
    let ls := ([.a, .b] : List Line).filter (fun l => (port.map (fun p => lineOfPort p.val)) ≠ some l)
    emits (ls.map (fun l => Emission.wakeTone l)) s

/-- R641: the first enabled source wakes the device. -/
def wakeIn (src : Nat) (port : Option (Fin 4)) (s : State) : State :=
  if s.pwr.wakeBits ≠ 0 || !(wakeEnabled src s) then s
  else
    let bits : BitVec 5 := 1#5 <<< src
    let s1 := forwardWake port (modPwr (fun p => { p with wakeBits := bits, lastWake := bits }) s)
    if inKiln s then { s1 with sys := { s1.sys with kilnWake := some (bits.setWidth 8) } } else s1

/-- WAKE_SOURCE (R641, R642). -/
def execWakeSource (dt : Nat) (src : Fin 5) (port : Option (Fin 4)) (s : State) : Host.Outcome State Fault Refusal :=
  .next (wakeIn src.val port (begin_ dt s))

/-- WAKE_L_LOW_TIMEOUT (R641, R685). -/
def execWakeLLowTimeout (dt : Nat) (s : State) : Host.Outcome State Fault Refusal :=
  .next (wakeIn 2 none (begin_ dt s))

/-! ## Commands (R647, R648) -/

/-- PWR_STATUS. -/
def pwrStatusSpec : CmdSpec := plainSpec 0x0C01 4 ((0, 0xFE) :: zeros 1 3)

/-- The power status record. -/
def pwrRecord (s : State) : List Byte :=
  let p := s.pwr
  let pends (k : Bool) : Bool := (p.pend.map (fun x => x.1 == k)).getD false
  recBytes 36 ([(0, 3, supplyCode p.supply), (3, 1, b2n p.storeOk), (4, 1, b2n p.storeDegraded), (5, 1, b2n (pends false)),
    (6, 1, b2n (pends true)), (7, 1, b2n p.throttled), (8, 5, p.lastWake.toNat), (16, 16, p.storeCap.toNat),
    (32, 32, (p.pend.map (fun x => x.2.1.toNat)).getD 0)] ++ ctrFields p.ctr [64, 96, 128, 160, 192, 224] 254)

/-- The record, its counters cleared where asked. -/
def pwrStatusBody (r : Ring) (s : State) : Reply × State :=
  (done (pwrRecord s), if clearAsked r.req 0 then modPwr (fun p => { p with ctr := ctrClear p.ctr }) s else s)

/-- PWR_DOMAIN_CONFIG. -/
def pwrDomainConfigSpec : CmdSpec := flashSpec 0x0C02 4 (zeros 2 3)

/-- The domain and wake configuration as area 0x0C holds it. -/
def pwrStore (s : State) : State :=
  modPwr (fun p => { p with flash := some (List.zipWith (fun (a : Nat) (b : Option Nat) => b.getD a) p.deepest p.deepestNext,
    p.wakePark, p.wakeKiln, p.alarm) }) s

/-- R647. -/
def pwrDomainConfigBody (r : Ring) (s : State) : Reply × State :=
  let d := byteAt r.req 0
  if d < 1 || 11 < d then (outOfRange 0, s)
  else if domLimit d < byteAt r.req 1 then (outOfRange 1, s)
  else (done [], pwrStore (modPwr (fun p => { p with deepestNext := updAt p.deepestNext d (fun _ => some (byteAt r.req 1)) }) s))

/-- PWR_PARK. -/
def pwrParkSpec : CmdSpec := plainSpec 0x0C03 8 (zeros 5 7)

/-- PWR_KILN. -/
def pwrKilnSpec : CmdSpec := plainSpec 0x0C04 8 (zeros 5 7)

/-- R638: a pending entry is withdrawn or replaced, and its command ends CANCELLED. -/
def dropEntry (s : State) : State :=
  finishQueued (fun q => q.opcode == 0x0C03 || q.opcode == 0x0C04) 0x010B (modPwr (fun p => { p with pend := none }) s)

/-- R638: an entry asked for, or the pending one withdrawn. -/
def entryBody (kiln : Bool) (r : Ring) (s : State) : Reply × State :=
  let c := BitVec.ofNat 32 (fieldAt r.req 0 4)
  if 1 < byteAt r.req 4 then (outOfRange 4, s)
  else if byteAt r.req 4 = 1 then (done [], dropEntry s)
  else (queued 0, modPwr (fun p => { p with pend := some (kiln, c, !(wrapNewer c (cycleNo s))) }) (dropEntry s))

/-- PWR_WAKE_CONFIG. -/
def pwrWakeConfigSpec : CmdSpec := flashSpec 0x0C05 16 ([(0, 0xE0), (1, 0xE2)] ++ zeros 2 3)

/-- R641, R647: the sources of each state and the alarm. -/
def pwrWakeConfigBody (r : Ring) (s : State) : Reply × State :=
  if 1000000000 ≤ fieldAt r.req 10 4 then (outOfRange 10, s)
  else (done [], pwrStore (modPwr (fun p => { p with
    wakePark := BitVec.ofNat 5 (byteAt r.req 0), wakeKiln := BitVec.ofNat 5 (byteAt r.req 1), alarm := timeOf (r.req.drop 4) }) s))

/-- PWR_STATUS (R648). -/
def execPwrStatus (dt : Nat) (r : Ring) (s : State) : Host.Outcome State Fault Refusal :=
  .next (submit pwrStatusSpec pwrStatusBody dt r s)

/-- PWR_DOMAIN_CONFIG (R647). -/
def execPwrDomainConfig (dt : Nat) (r : Ring) (s : State) : Host.Outcome State Fault Refusal :=
  .next (submit pwrDomainConfigSpec pwrDomainConfigBody dt r s)

/-- PWR_PARK (R638). -/
def execPwrPark (dt : Nat) (r : Ring) (s : State) : Host.Outcome State Fault Refusal :=
  .next (submit pwrParkSpec (entryBody false) dt r s)

/-- PWR_PARK with withdraw (R638). -/
def execPwrParkWithdraw (dt : Nat) (r : Ring) (s : State) : Host.Outcome State Fault Refusal :=
  .next (submit pwrParkSpec (entryBody false) dt r s)

/-- PWR_KILN (R638). -/
def execPwrKiln (dt : Nat) (r : Ring) (s : State) : Host.Outcome State Fault Refusal :=
  .next (submit pwrKilnSpec (entryBody true) dt r s)

/-- PWR_KILN with withdraw (R638). -/
def execPwrKilnWithdraw (dt : Nat) (r : Ring) (s : State) : Host.Outcome State Fault Refusal :=
  .next (submit pwrKilnSpec (entryBody true) dt r s)

/-- PWR_WAKE_CONFIG (R641, R647). -/
def execPwrWakeConfig (dt : Nat) (r : Ring) (s : State) : Host.Outcome State Fault Refusal :=
  .next (submit pwrWakeConfigSpec pwrWakeConfigBody dt r s)

end Sys2Proof.Machine
end

