-- ==== Sys2Proof/Machine/Ptp.lean ====
section
/-! DEFINITION. PTP on the consist ports, the selected domain, TAI steering (R242–R250), the oscillator monitor (R234)
and the time commands (R258, R260). -/

namespace Sys2Proof.Machine

/-- Instance `d`. -/
def ptpOf (s : State) (d : Nat) : PtpInst := s.time.ptp.getD d PtpInst.reset

/-- Instance `d` changed. -/
def modPtp (d : Nat) (f : PtpInst → PtpInst) (s : State) : State := modTime (fun t => { t with ptp := updAt t.ptp d f }) s

/-- A signed number as two's complement little-endian bytes. -/
def sBytes (n : Nat) (v : Int) : List Byte := leBytes n (twos (8 * n) v)

/-! ## The selected domain (R246–R248) -/

/-- The selection and TAI steering are held (R248). -/
def suspectHold (s : State) : Bool := s.time.suspect && s.time.reaction == 1

/-- R246 policy 0x3: the key by which a lower grandmaster is the better. -/
def gmKey (g : PtpAnnounce) : Nat := (g.clockClass.toNat * 256 + g.accuracy.toNat) * 65536 + g.oslv.toNat

/-- R246: the domain the policy selects now. -/
def policyDomain (s : State) : Fin 2 :=
  let l0 := (ptpOf s 0).locked
  let l1 := (ptpOf s 1).locked
  let k0 := gmKey (ptpOf s 0).gm
  let k1 := gmKey (ptpOf s 1).gm
  if s.time.policy = 0 then 0
  else if s.time.policy = 1 then 1
  else if s.time.policy = 2 then
    if s.time.selected = 0 then (if !l0 && l1 then 1 else 0) else (if l0 && !l1 then 0 else 1)
  else if l0 && l1 then (if k0 < k1 then 0 else if k1 < k0 then 1 else s.time.selected)
  else if l0 then 0 else if l1 then 1 else s.time.selected

/-- A change of selected domain: DOMAIN_SWITCH, and O_out begins to slew (R247). -/
def switchDomain (d : Fin 2) (s : State) : State :=
  let move := (ptpOf s d.val).offset - s.time.oOut
  raise 0x0404 (leBytes 1 s.time.selected.val ++ leBytes 1 d.val ++ sBytes 8 (nsPart move))
    (modTime (fun t => { t with selected := d, slewing := true, returning := false }) s)

/-- The selection judged again (R246); domain 0's return waits 10 s. -/
def selectDomain (s : State) : State :=
  if suspectHold s then s
  else
    let d := policyDomain s
    if d ≠ s.time.selected then switchDomain d s
    else
      let back := s.time.policy = 2 && s.time.selected = 1 && (ptpOf s 0).locked
      modTime (fun t => { t with returning := back }) s

/-- DOMAIN_RETURN_TIMER (R246): domain 0 has been locked for 10 s. -/
def execDomainReturnTimer (dt : Nat) (s : State) : Host.Outcome State Fault Refusal :=
  let s1 := begin_ dt s
  let due := s1.time.returning && (ptpOf s1 0).locked && (ptpOf s1 0).lockClk + secT 10 ≤ s1.clk
  .next (if due && !suspectHold s1 then switchDomain 0 s1 else s1)

/-! ## Messages (R242–R245) -/

/-- R242: a consist port carries PTP: linked, at 100 Mbit/s or 1 Gbit/s. -/
def ptpPort (port : Nat) (s : State) : Bool := (swOf s port).link && (swOf s port).speed ≠ 0

/-- An instance takes part on a consist port. -/
def ptpOn (i : PtpInst) (domain : BitVec 7) (port : Nat) (s : State) : Bool :=
  i.role ≠ 0 && i.domain == domain && i.ports.getLsbD port && ptpPort port s

/-- R223: the nominal corrections (C_in, C_out) of a consist port in ticks. -/
def swNominal (port : Nat) (t : SwPort) : Int × Int :=
  if port < 12 then (if t.speed = 1 then nominal .t100 else nominal .t1000)
  else if t.speed = 1 then (27000832, 18874368) else (15466496, 9699328)

/-- R222, R224: the pin time of a raw receive time on a consist port. -/
def swPinRx (port : Nat) (raw : Int) (s : State) : Int :=
  let t := swOf s port
  raw - ((swNominal port t).1 + t.calIn.getD t.speed.toNat 0 * 4096)

/-- R222, R224: the pin time of a raw transmit time on a consist port. -/
def swPinTx (port : Nat) (raw : Int) (s : State) : Int :=
  let t := swOf s port
  raw + ((swNominal port t).2 + t.calOut.getD t.speed.toNat 0 * 4096)

/-- The role of a port of an instance: 0 disabled, 1 master, 2 slave, 3 passive. -/
def ptpPortRole (i : PtpInst) (port : Nat) : Nat := bitsOf i.portRoles.toNat (2 * port) 2

/-- Roles of an instance's ports: slave on one port or none, passive on the given ones, master on its others. -/
def ptpRoles (i : PtpInst) (slave : Option Nat) (passive : List Nat) : BitVec 32 :=
  BitVec.ofNat 32 (packFields ((List.range 16).map (fun n => (2 * n, 2,
    if !i.ports.getLsbD n then 0 else if slave = some n then 2 else if passive.contains n then 3 else 1))))

/-- The ports of an instance that are passive. -/
def ptpPassive (i : PtpInst) : List Nat := (List.range 16).filter (fun n => ptpPortRole i n == 3)

/-- R244: what this node announces as grandmaster. Its accuracy and variance are the standard's unknown (PRESUMED, log 28). -/
def ownAnnounce (i : PtpInst) (s : State) : PtpAnnounce where
  domain := i.domain
  priority1 := i.prio1
  clockClass := 248
  accuracy := 0xFE
  oslv := 0xFFFF
  priority2 := i.prio2
  gmId := s.sys.uid
  stepsRemoved := 0
  traceable := s.time.steering && decide (s.time.oOut.natAbs ≤ usT 1)

/-- The order of the best master clock algorithm: the lower key is the better. -/
def bmcaKey (a : PtpAnnounce) : Nat :=
  ((((a.priority1.toNat * 256 + a.clockClass.toNat) * 256 + a.accuracy.toNat) * 65536 + a.oslv.toNat) * 256 +
    a.priority2.toNat) * 2 ^ 80 + a.gmId.toNat * 65536 + a.stepsRemoved.toNat

/-- The instance becomes grandmaster of its domain. -/
def ptpMaster (d : Nat) (s : State) : State :=
  selectDomain (modPtp d (fun i => { i with
    state := 4, gm := ownAnnounce i s, primed := false, locked := false, good := 0, waiting := none, last := none,
    portRoles := ptpRoles i none [] }) s)

/-- An instance follows a grandmaster heard on a port, and asks there for Syncs at its own interval (R242; that it asks when it
begins to follow is PRESUMED, log 28). -/
def ptpFollow (d port : Nat) (a : PtpAnnounce) (s : State) : State :=
  emit (.ptpSignaling (Fin.ofNat 2 d) port a.domain (ptpOf s d).logSync) (selectDomain (modPtp d (fun i => { i with
    state := 2, gm := a, primed := false, locked := false, good := 0, waiting := none, last := none,
    portRoles := ptpRoles i (some port) [] }) s))

/-- An Announce on one instance (R243, the best master clock algorithm): a BMCA instance whose own clock is the better becomes
grandmaster, also where the grandmaster it follows announces itself worse; a change at the one followed is judged (R246). -/
def ptpAnnounce (d port : Nat) (a : PtpAnnounce) (s : State) : State :=
  let i := ptpOf s d
  let worse := i.role = 1 && bmcaKey (ownAnnounce i s) < bmcaKey a
  let following := i.state = 2 || i.state = 3
  if !(ptpOn i a.domain port s) || i.role = 3 || a.gmId = s.sys.uid then s
  else if following && i.gm.gmId = a.gmId then
    if ptpPortRole i port ≠ 2 then modPtp d (fun i => { i with
      portRoles := ptpRoles i ((List.range 16).find? (fun n => ptpPortRole i n == 2)) (port :: ptpPassive i) }) s
    else if worse then ptpMaster d s
    else selectDomain (modPtp d (fun i => { i with gm := a }) s)
  else if worse then (if i.state = 1 || i.state = 5 then ptpMaster d s else s)
  else if following && bmcaKey i.gm ≤ bmcaKey a then s
  else ptpFollow d port a s

/-- R242: a peer asks for another Sync interval on a port. -/
def ptpSignaling (d port : Nat) (domain : BitVec 7) (logSync : Byte) (s : State) : State :=
  if ptpOn (ptpOf s d) domain port s then
    modPtp d (fun i => { i with intervals := updAt i.intervals port (fun _ => logSync) }) s
  else s

/-- A general message on both instances. -/
def ptpGeneral (port : Nat) (m : PtpGeneral) (s : State) : State :=
  match m with
  | .announce a => ptpAnnounce 1 port a (ptpAnnounce 0 port a s)
  | .signaling domain logSync => ptpSignaling 1 port domain logSync (ptpSignaling 0 port domain logSync s)

/-- PTP_ANNOUNCE_RX (R242, R243, R246). -/
def execPtpAnnounceRx (dt : Nat) (port : Fin 16) (m : PtpGeneral) (s : State) : Host.Outcome State Fault Refusal :=
  .next (ptpGeneral port.val m (begin_ dt s))

/-- R245: O_d moves towards a Sync's offset by a servo whose gain is left open (log 3); an instance that has taken none yet
takes it whole. The residual left is the filtered one; sixteen intervals of at most 100 ns lock the instance. -/
def ptpServo (d : Nat) (offset rate : Int) (s : State) : State :=
  let i := ptpOf s d
  let res := offset - i.offset
  let x := takeFree (res.natAbs + 1) s
  let move : Int := if !i.primed then res else if res < 0 then -(x.1 : Int) else x.1
  let near := i.primed && (res - move).natAbs ≤ nsT 100
  let good := if near then min 16 (i.good + 1) else if i.locked then i.good else 0
  let locks := !i.locked && 16 ≤ good
  let s1 := modPtp d (fun i => { i with
    offset := i.offset + move, rate := rate, primed := true, good := good, locked := i.locked || locks,
    lockClk := if locks then s.clk else i.lockClk, state := if i.locked || locks then 3 else 2,
    ctr := ctrInc i.ctr 0 }) x.2
  if locks then selectDomain s1 else s1

/-- R242, R245: a Sync with its origin timestamp and correction complete, received at a pin time on a port whose link delay
is known: O_d is the domain's time of that moment minus train time. It is kept for the relay. -/
def ptpTake (d port : Nat) (pin origin corr rate : Int) (s : State) : State :=
  match s.time.links.getD port none with
  | none => s
  | some link => ptpServo d (origin + corr + link - pin) rate
      (modPtp d (fun i => { i with waiting := none, last := some (origin, corr + link, pin) }) s)

/-- An instance follows on a port. -/
def ptpSlave (d port : Nat) (domain : BitVec 7) (s : State) : Bool :=
  ptpOn (ptpOf s d) domain port s && ptpPortRole (ptpOf s d) port == 2

/-- A Sync: complete in one step, or waiting for its Follow_Up. -/
def ptpSync (d port : Nat) (m : PtpSync) (s : State) : State :=
  if !(ptpSlave d port m.domain s) then s
  else
    let pin := swPinRx port m.raw s
    if m.twoStep then modPtp d (fun i => { i with waiting := some (port, m.seq, pin) }) s
    else ptpTake d port pin m.origin m.corr m.rate s

/-- A Follow_Up completes the Sync of its number. -/
def ptpFollowUp (d port : Nat) (domain : BitVec 7) (seq : BitVec 16) (origin corr rate : Int) (s : State) : State :=
  match (ptpOf s d).waiting with
  | some (p, n, pin) => if ptpSlave d port domain s && p = port && n = seq then ptpTake d port pin origin corr rate s else s
  | none => s

/-- R242: a peer delay exchange has ended: the mean link delay, from pin times of this node. -/
def ptpDelayEnd (port : Nat) (t1Raw t4Raw t2 t3 : Int) (s : State) : State :=
  if ptpPort port s then
    let delay := ((swPinRx port t4Raw s - swPinTx port t1Raw s) - (t3 - t2)) / 2
    modTime (fun t => { t with links := updAt t.links port (fun _ => some delay) }) s
  else s

/-- A message with a receive time. -/
def ptpTimed (port : Nat) (m : PtpTimed) (s : State) : State :=
  match m with
  | .sync m => ptpSync 1 port m (ptpSync 0 port m s)
  | .followUp domain seq origin corr rate =>
    ptpFollowUp 1 port domain seq origin corr rate (ptpFollowUp 0 port domain seq origin corr rate s)
  | .pdelayReq raw =>
    if ptpPort port s then emit (.ptpDelayAnswer port (swPinRx port raw s) (swPinTx port s.now s)) s else s
  | .pdelayEnd t1 t4 t2 t3 => ptpDelayEnd port t1 t4 t2 t3 s

/-- PTP_SYNC_RX (R222, R224, R242, R245). -/
def execPtpSyncRx (dt : Nat) (port : Fin 16) (m : PtpTimed) (s : State) : Host.Outcome State Fault Refusal :=
  .next (ptpTimed port.val m (begin_ dt s))

/-- R245: an instance that follows leaves lock; without a grandmaster a BMCA instance becomes one. -/
def ptpTimeout (d : Nat) (announce : Bool) (s : State) : State :=
  let i := ptpOf s d
  let listens := i.state = 1 || i.state = 2 || i.state = 3 || i.state = 5
  if i.role = 0 || i.role = 3 || !listens then s
  else if announce then
    if i.role = 1 then ptpMaster d s
    else selectDomain (modPtp d (fun i => { i with
      state := if i.locked then 5 else 1, primed := false, locked := false, good := 0, waiting := none, last := none
      portRoles := ptpRoles i none [] }) s)
  else if i.state = 1 then s
  else selectDomain (modPtp d (fun i => { i with
    state := if i.locked then 5 else i.state, primed := false, locked := false, good := 0, waiting := none, ctr := ctrInc i.ctr 1 }) s)

/-- PTP_SYNC_TIMEOUT (R245). -/
def execPtpSyncTimeout (dt : Nat) (inst : Fin 2) (announce : Bool) (s : State) : Host.Outcome State Fault Refusal :=
  .next (ptpTimeout inst.val announce (begin_ dt s))

/-- The ticks of a message interval, the signed logarithm of its seconds; none for the codes that name no interval. -/
def intervalT (v : Byte) : Option Nat :=
  let n := v.toInt
  if n < -24 || 24 < n then none else if n < 0 then some (secT 1 / 2 ^ n.natAbs) else some (secT 1 * 2 ^ n.toNat)

/-- R242: a Sync is due on a port under the interval its peer asked for: 0x7F asks for none, another code that names no
interval leaves the node's own (PRESUMED, log 28: the codes of IEEE 802.1AS). -/
def ptpDue (i : PtpInst) (n : Nat) (s : State) : Bool :=
  let v := i.intervals.getD n 0x80
  v ≠ 0x7F && (match intervalT v, i.syncClk.getD n none with
    | some t, some c => c + t ≤ s.clk
    | _, _ => true)

/-- The ports on which an instance sends Sync and Announce: its linked master ports, a Sync where one is due; delay requests go
on every port of its. -/
def ptpSendPorts (i : PtpInst) (k : PtpKind) (s : State) : List Nat :=
  (List.range 16).filter (fun n => i.ports.getLsbD n && ptpPort n s &&
    (match k with
     | .pdelay => true
     | .announce => ptpPortRole i n == 1
     | .sync => ptpPortRole i n == 1 && ptpDue i n s))

/-- R242: a Sync in two steps on a port: the message, and a Follow_Up with what `stamp` makes of the pin time at which the
message left (R222, R224): its origin timestamp and its correction. -/
def ptpTwoStep (d : Fin 2) (stamp : Int → Int × Int) (n : Nat) (s : State) : State :=
  let x := stamp (swPinTx n s.now s)
  let s1 := modPtp d.val (fun i => { i with txSeq := i.txSeq + 1, syncClk := updAt i.syncClk n (fun _ => some s.clk) }) s
  let i := ptpOf s1 d.val
  emits [.ptpSync d n i.domain i.txSeq, .ptpFollowUp d n i.domain i.txSeq x.1 x.2] s1

/-- A message of an instance on its ports (R242, R244, R247). A grandmaster's Sync carries consist time as its origin; a relay's
the origin it received, with the correction grown by the link delay and the residence, and its Announce one step more. -/
def ptpSend (d : Fin 2) (k : PtpKind) (s : State) : State :=
  let i := ptpOf s d.val
  let ports := ptpSendPorts i k s
  if i.role = 0 || ports.isEmpty then s
  else match k with
    | .pdelay => emit (.ptpPdelay d ports i.domain) s
    | .announce =>
      if i.state = 4 then emit (.ptpAnnounce d ports (ownAnnounce i s)) s
      else if i.state = 2 || i.state = 3 then emit (.ptpAnnounce d ports { i.gm with stepsRemoved := i.gm.stepsRemoved + 1 }) s
      else s
    | .sync =>
      if i.state = 4 then forEach ports (ptpTwoStep d (fun t => (t + s.time.oOut, 0))) s
      else match i.last with
        | some (origin, corr, pin) =>
          if i.state = 2 || i.state = 3 then forEach ports (ptpTwoStep d (fun t => (origin, corr + (t - pin)))) s else s
        | none => s

/-- PTP_MESSAGE_SEND (R242). -/
def execPtpMessageSend (dt : Nat) (inst : Fin 2) (kind : PtpKind) (s : State) : Host.Outcome State Fault Refusal :=
  .next (ptpSend inst kind (begin_ dt s))

/-! ## At an instant (R247–R249, R260) -/

/-- R260: a configuration takes effect. -/
def ptpApply (d : Nat) (s : State) : State :=
  match (ptpOf s d).pending with
  | none => s
  | some (role, domain, p1, p2, sync, ports) =>
    let s1 := modPtp d (fun i => { i with
      role := role, domain := domain, prio1 := p1, prio2 := p2, logSync := sync, ports := ports, pending := none,
      state := if role = 0 then 0 else 1, primed := false, locked := false, good := 0, portRoles := 0, waiting := none
      last := none }) s
    let s2 := if role = 3 then ptpMaster d s1 else selectDomain s1
    finishQueued (fun q => q.opcode == 0x0403 && q.arg == d) 0 (areaWritten 7 s2)

/-- R243: an instance whose role stands and which does not run begins it, after a time without power or with a configuration
that differs. -/
def ptpStart (d : Nat) (s : State) : State :=
  let i := ptpOf s d
  if i.role = 0 || i.state ≠ 0 then s
  else
    let s1 := modPtp d (fun i => { i with state := 1 }) s
    if i.role = 3 then ptpMaster d s1 else s1

/-- R247: O_out in the cycle that opens. -/
def outMove (s : State) : State :=
  let i := ptpOf s s.time.selected.val
  let gap := i.offset - s.time.oOut
  let most : Int := (10 * cycleUs s * 65536 / 1000 : Nat)
  if !s.time.slewing then (if i.locked then modTime (fun t => { t with oOut := i.offset }) s else s)
  else if gap.natAbs ≤ most.natAbs then modTime (fun t => { t with oOut := i.offset, slewing := false }) s
  else modTime (fun t => { t with oOut := t.oOut + (if gap < 0 then -most else most) }) s

/-- |O_0 − O_1| in ticks. -/
def domainGap (s : State) : Nat := ((ptpOf s 0).offset - (ptpOf s 1).offset).natAbs

/-- ASYMMETRY_SUSPECT. -/
def suspectEvent (on : Bool) (s : State) : State :=
  raise 0x0403 (leBytes 1 (b2n on) ++ leBytes 4 (min 0xFFFFFFFF (domainGap s / 65536))) s

/-- R248. -/
def compareDomains (s : State) : State :=
  let both := (ptpOf s 0).locked && (ptpOf s 1).locked
  let exceeds := both && nsT s.time.bound < domainGap s
  let n := if exceeds then s.time.excess + 1 else if both then 0 else s.time.excess
  let s1 := modTime (fun t => { t with excess := n, clearClk := if exceeds then s.clk else t.clearClk }) s
  if !s.time.suspect && 4 ≤ n then suspectEvent true (modTime (fun t => { t with suspect := true }) s1)
  else if s.time.suspect && s1.time.clearClk + secT 10 ≤ s.clk then
    selectDomain (suspectEvent false (modTime (fun t => { t with suspect := false, excess := 0 }) s1))
  else s1

/-- R249: TAI steering is active. -/
def steers (s : State) : Bool :=
  let i := ptpOf s s.time.selected.val
  (isFirst s || inProvLead s) && s.time.steer && i.locked && i.gm.traceable && !suspectHold s

/-- R249: f_s in parts of 10^17, and TIME_DIVERGE. -/
def steerAtInstant (s : State) : State :=
  let on := steers s
  let d := s.time.oOut
  let want : Int := if on then max (-10000000000) (min 10000000000 (d * 100000000000000000 / 655360000000000)) else 0
  let most : Int := (1000 * cycleUs s : Nat)
  let rate := s.time.steerRate + max (-most) (min most (want - s.time.steerRate))
  let far := on && msT 1 < d.natAbs
  let s1 := modTime (fun t => { t with
    steering := on, steerRate := rate,
    diverged := if far then true else if d.natAbs < usT 100 then false else t.diverged }) s
  if far && !s.time.diverged then
    raise 0x0405 (sBytes 4 (max (-2147483648) (min 2147483647 (nsPart d)))) s1 else s1

/-- PTP at an instant. -/
def ptpAtInstant (s : State) : State := steerAtInstant (compareDomains (outMove (ptpApply 1 (ptpApply 0 s))))

/-! ## The oscillator monitor (R234) -/

/-- TCXO_STOP. -/
def execTcxoStop (dt : Nat) (s : State) : Host.Outcome State Fault Refusal :=
  let s1 := begin_ dt s
  .next (if !s1.time.tcxo then s1
    else
      let s2 := raise 0x0402 (leBytes 1 3) (modTime (fun t => { t with tcxo := false, source := 3 }) s1)
      let s3 := setTimeState .free s2
      if joined s3 || inProvLead s3 then enterSteep s3 else s3)

/-- TCXO_RESTART: the unit acquires from Free. -/
def execTcxoRestart (dt : Nat) (s : State) : Host.Outcome State Fault Refusal :=
  .next (modTime (fun t => { t with tcxo := true }) (begin_ dt s))

/-! ## Registers and commands (R258, R260) -/

/-- The three words of a signed offset: fraction, ns low, ns high. -/
def offsetWords (d : Int) : List Nat :=
  [twos 16 (fracPart d), twos 64 (nsPart d) % 2 ^ 32, twos 64 (nsPart d) / 2 ^ 32]

/-- e_servo as TTS_EPS shows it. -/
def servoField (s : State) : Nat :=
  if s.time.thetas.isEmpty || (match s.time.st with | .free => true | _ => false) then 0xFFFF
  else epsField (some (ceilDiv (servoError s.time) 65536))

/-- TTS_STATE. -/
def ttsState (s : State) : Nat :=
  let t := s.time
  packFields [(0, 3, timeCode t.st), (3, 1, b2n t.lineB), (4, 2, t.source.toNat), (6, 1, b2n t.steering),
    (7, 1, b2n t.suspect), (8, 1, t.selected.val), (9, 1, b2n (ptpOf s 0).locked), (10, 1, b2n (ptpOf s 1).locked),
    (11, 1, b2n t.slewing), (16, 8, t.hops)]

/-- TTS_HOLD_AGE. -/
def holdAge (s : State) : Nat :=
  match s.time.st with
  | .holdover => min 0xFFFFFFFF ((s.clk - s.time.holdEntry) / usT 1)
  | _ => 0

/-- The 32 words at TTS_ offsets 0x000 to 0x07F. -/
def ttsWords (s : State) : List Nat :=
  let t := s.time
  [s.now % 65536, nsField s.now, s.now / secT 1 % 2 ^ 32, s.now / secT 1 / 2 ^ 32 % 65536,
   ttsState s, epsField (epsNs s) + 65536 * servoField s, twos 32 (t.theta / 4096), twos 32 t.freq, holdAge s] ++
  (List.range 4).map (fun i => (ctrGet t.ctr i).n.toNat) ++ [ovfBits t.ctr, 0, 0] ++
  offsetWords (ptpOf s 0).offset ++ [0] ++ offsetWords (ptpOf s 1).offset ++ [0] ++ offsetWords t.oOut ++ [0] ++
  offsetWords t.lastStep ++ [t.stepGen.toNat]

/-- TIME_STATUS. -/
def timeStatusSpec : CmdSpec := plainSpec 0x0401 4 ([(0, 0xFE)] ++ zeros 1 3)

/-- The 128 bytes, the counters cleared where asked. -/
def timeStatusBody (r : Ring) (s : State) : Reply × State :=
  (done ((ttsWords s).flatMap (leBytes 4)),
   if clearAsked r.req 0 then modTime (fun t => { t with ctr := ctrClear t.ctr }) s else s)

/-- TIME_SET. -/
def timeSetSpec : CmdSpec := { plainSpec 0x0402 12 [] with noRemote := true }

/-- R233, R260: the count set in steep; the unit enters Free. -/
def timeSetBody (r : Ring) (s : State) : Reply × State :=
  if 1000000000 ≤ fieldAt r.req 6 4 then (outOfRange 6, s)
  else if !(inSteep s) then (notInState (inaugCode s.ina.st), s)
  else (done [], setTimeState .free (stepCount ((timeOf r.req : Int) - s.now) (heldGen s) s))

/-- TIME_PTP_CONFIG. -/
def timePtpConfigSpec : CmdSpec := flashSpec 0x0403 8 []

/-- Queued to the next instant. -/
def timePtpConfigBody (r : Ring) (s : State) : Reply × State :=
  let b := byteAt r.req
  if 2 ≤ b 0 then (outOfRange 0, s)
  else if 4 ≤ b 1 then (outOfRange 1, s)
  else if 128 ≤ b 2 then (outOfRange 2, s)
  else if b 5 ≠ 0 && b 5 < 249 then (outOfRange 5, s)
  else (queued (b 0), modPtp (b 0) (fun i => { i with pending := some (BitVec.ofNat 8 (b 1), BitVec.ofNat 7 (b 2),
    BitVec.ofNat 8 (b 3), BitVec.ofNat 8 (b 4), BitVec.ofNat 8 (b 5), BitVec.ofNat 16 (fieldAt r.req 6 2)) }) s)

/-- R563: the configuration waiting for its instant could not be stored: it does not take effect. -/
def ptpCancel (d : Nat) (s : State) : State := modPtp d (fun i => { i with pending := none }) s

/-- TIME_DOMAIN_POLICY. -/
def timeDomainPolicySpec : CmdSpec := flashSpec 0x0404 4 []

/-- R246, R248. -/
def timeDomainPolicyBody (r : Ring) (s : State) : Reply × State :=
  let bound := fieldAt r.req 2 2
  if 4 ≤ byteAt r.req 0 then (outOfRange 0, s)
  else if 2 ≤ byteAt r.req 1 then (outOfRange 1, s)
  else if bound ≠ 0 && (bound < 20 || 10000 < bound) then (outOfRange 2, s)
  else (done [], selectDomain (modTime (fun t => { t with
    policy := BitVec.ofNat 8 (byteAt r.req 0), reaction := BitVec.ofNat 8 (byteAt r.req 1),
    bound := if bound = 0 then 200 else bound }) s))

/-- TIME_STEER. -/
def timeSteerSpec : CmdSpec := flashSpec 0x0405 4 (zeros 1 3)

/-- R249. -/
def timeSteerBody (r : Ring) (s : State) : Reply × State :=
  if 2 ≤ byteAt r.req 0 then (outOfRange 0, s)
  else (done [], modTime (fun t => { t with steer := byteAt r.req 0 == 1 }) s)

/-- TIME_PTP_STATUS. -/
def timePtpStatusSpec : CmdSpec := plainSpec 0x0406 4 ([(1, 0xFE)] ++ zeros 2 3)

/-- The instance status record (R260). -/
def ptpRecord (d : Nat) (s : State) : List Byte :=
  let i := ptpOf s d
  let g := if i.state = 4 then ownAnnounce i s else i.gm
  recBytes 44 ([(0, 8, i.state.toNat), (8, 1, b2n (s.time.selected.val == d)), (9, 1, b2n g.traceable),
    (10, 1, b2n s.time.suspect), (16, 16, g.stepsRemoved.toNat), (32, 64, g.gmId.toNat), (96, 8, g.clockClass.toNat),
    (104, 8, g.accuracy.toNat), (112, 16, g.oslv.toNat), (128, 64, twos 64 (nsPart i.offset)),
    (192, 16, twos 16 (fracPart i.offset)), (224, 32, i.portRoles.toNat)] ++ ctrFields i.ctr [256, 288] 312)

/-- The record, its counters cleared where asked. -/
def timePtpStatusBody (r : Ring) (s : State) : Reply × State :=
  let d := byteAt r.req 0
  if 2 ≤ d then (outOfRange 0, s)
  else (done (ptpRecord d s), if clearAsked r.req 1 then modPtp d (fun i => { i with ctr := ctrClear i.ctr }) s else s)

/-- TIME_STATUS (R260). -/
def execTimeStatus (dt : Nat) (r : Ring) (s : State) : Host.Outcome State Fault Refusal :=
  .next (submit timeStatusSpec timeStatusBody dt r s)

/-- TIME_SET (R260). -/
def execTimeSet (dt : Nat) (r : Ring) (s : State) : Host.Outcome State Fault Refusal :=
  .next (submit timeSetSpec timeSetBody dt r s)

/-- TIME_PTP_CONFIG (R260). -/
def execTimePtpConfig (dt : Nat) (r : Ring) (s : State) : Host.Outcome State Fault Refusal :=
  .next (submit timePtpConfigSpec timePtpConfigBody dt r s)

/-- TIME_DOMAIN_POLICY (R246). -/
def execTimeDomainPolicy (dt : Nat) (r : Ring) (s : State) : Host.Outcome State Fault Refusal :=
  .next (submit timeDomainPolicySpec timeDomainPolicyBody dt r s)

/-- TIME_STEER (R249). -/
def execTimeSteer (dt : Nat) (r : Ring) (s : State) : Host.Outcome State Fault Refusal :=
  .next (submit timeSteerSpec timeSteerBody dt r s)

/-- TIME_PTP_STATUS (R260). -/
def execTimePtpStatus (dt : Nat) (r : Ring) (s : State) : Host.Outcome State Fault Refusal :=
  .next (submit timePtpStatusSpec timePtpStatusBody dt r s)

end Sys2Proof.Machine
end

