-- ==== Sys2Proof/Machine/Recorder.lean ====
section
/-! DEFINITION. The cask recorder (R307–R312). -/

namespace Sys2Proof.Machine

/-- Bytes of the ring. -/
def ringSize : Nat := 201326592

/-- Bytes that may be frozen. -/
def frozenLimit : Nat := 100663296

/-- The recorder changed. -/
def modRec (f : Rec → Rec) (s : State) : State := modFlow (fun w => { w with rec_ := f w.rec_ }) s

/-- Blocks of the recording bitmap. -/
def recBlocks (r : Rec) : List Nat := (List.range 1024).filter (fun b => (r.bitmap.getD (b / 8) 0).getLsbD (b % 8))

/-- R307: the record of the instant `s` stands at, with the events of the closed cycle. -/
def cycleRecord (evs : List Event) (overrun trigger : Bool) (s : State) : List Byte :=
  let blocks := recBlocks s.flow.rec_
  let step := evs.any (fun e => e.type == 0x0203)
  let len := 32 + 64 * blocks.length + 32 * evs.length
  leBytes 4 (cycleNo s).toNat ++ timeBytes (lastInstant s) ++ leBytes 2 s.ina.gen.toNat ++ leBytes 2 blocks.length ++
    leBytes 2 evs.length ++ leBytes 2 (b2n overrun + 2 * b2n step + 4 * b2n trigger) ++ leBytes 4 len ++ leBytes 4 0 ++
    blocks.flatMap (fun b => currentWindow s (64 * b) 64) ++ evs.flatMap eventBytes

/-- Offsets [o, o + n) of the ring meet a cask. -/
def meetsCask (o n : Nat) (c : Cask) : Bool :=
  (o < c.offset + c.length && c.offset < o + n) || o + ringSize < c.offset + c.length || c.offset + ringSize < o + n

/-- The place of the next record of `n` bytes: behind every frozen cask it would meet. -/
def recordPlace : Nat → List Cask → Nat → Nat → Nat
  | 0, _, o, _ => o
  | k + 1, cs, o, n =>
    match cs.find? (meetsCask o n) with
    | some c => recordPlace k cs ((c.offset + c.length) % ringSize) n
    | none => o

/-- Bytes written into the ring, from its start again past its end. -/
def ringWrite (m : Mem) (o : Nat) (b : List Byte) : Mem :=
  memWrite (memWrite m o (b.take (ringSize - o))) 0 (b.drop (ringSize - o))

/-- The casks held. -/
def casksHeld (r : Rec) : List Cask := r.casks.filterMap id

/-- Bytes frozen, a cask still collecting counted with what it holds. -/
def frozenBytes (r : Rec) : Nat := ((casksHeld r).map (fun c => c.held)).sum

/-- The length of a cycle record with `n` events. -/
def recordLen (r : Rec) (n : Nat) : Nat := 32 + 64 * (recBlocks r).length + 32 * n

/-- What a new cask holds as far as it is known: the PRE records, the trigger cycle with its `n` events, POST records without
events. -/
def caskEstimate (n : Nat) (r : Rec) : Nat :=
  ((r.recs.take r.pre).map (fun x => x.2)).sum + recordLen r n + r.post * recordLen r 0

/-- A further cask fits (R309), the cycle in which it is triggered having `n` events. -/
def caskFits (n : Nat) (r : Rec) : Bool := (casksHeld r).length < 8 && frozenBytes r + caskEstimate n r ≤ frozenLimit

/-- The oldest cask released, that which is collecting apart. -/
def dropOldest (r : Rec) : Rec :=
  match ((casksHeld r).filter (fun c => c.postLeft = 0)).foldl (fun (b : Option Cask) c => match b with
      | none => some c
      | some d => if c.order < d.order then some c else some d) none with
  | none => r
  | some o => { r with casks := r.casks.map (fun c => match c with
      | some d => if d.order = o.order then none else some d
      | none => none) }

/-- R309: the oldest casks released, at most so many, until `fits`. -/
def makeRoom (fits : Rec → Bool) : Nat → Rec → Rec
  | 0, r => r
  | n + 1, r => if fits r then r else makeRoom fits n (dropOldest r)

/-- The recorder with room for a cask, or none where the trigger is refused. -/
def roomForCask (n : Nat) (r : Rec) : Option Rec :=
  let r1 := if r.oldest then makeRoom (caskFits n) 8 r else r
  if caskFits n r1 then some r1 else none

/-- Bytes of the ring from offset `o` to offset `w`, the whole ring where they meet behind records. -/
def extent (o w : Nat) : Nat := if o < w then w - o else ringSize + w - o

/-- R308, R311: a cask begun: the PRE newest records are its start. Its extent runs from its first byte to its last, with what
it may enclose of other casks (DESIGN CHOICE, log 18). -/
def beginCask (cyc tag : BitVec 32) (r : Rec) : Nat × Rec :=
  let i := (r.casks.findIdx? (fun c => c.isNone)).getD 0
  let old := r.recs.take r.pre
  let c : Cask := {
    offset := (old.getLast?.map (fun x => x.1)).getD r.wr
    length := match old.getLast? with | some x => extent x.1 r.wr | none => 0
    held := (old.map (fun x => x.2)).sum, cycle := cyc, tag := tag, postLeft := r.post + 1, order := r.nextOrder }
  (i, { r with casks := updAt r.casks i (fun _ => some c), nextOrder := r.nextOrder + 1, collecting := some i })

/-- The collecting cask with the record of `n` bytes just written at `o`. -/
def withRecord (o n : Nat) (c : Cask) : Cask :=
  let from_ := if c.held = 0 then o else c.offset
  { c with offset := from_, length := extent from_ ((o + n) % ringSize), held := c.held + n, postLeft := c.postLeft - 1 }

/-- R309: room for `n` more bytes of the collecting cask: the oldest others are released where that is configured. -/
def roomToGrow (n : Nat) (r : Rec) : Rec :=
  if r.oldest then makeRoom (fun r => frozenBytes r + n ≤ frozenLimit) 8 r else r

/-- A record of `n` bytes has been written at `o`: the collecting cask grows, and freezes with its last POST record. Where
events have made its records longer than was reckoned and the 96 MiB are reached, it ends before them (DESIGN CHOICE,
log 18). -/
def growCask (o n : Nat) (s : State) : State :=
  match s.flow.rec_.collecting with
  | none => s
  | some i =>
    let r := roomToGrow n s.flow.rec_
    match r.casks.getD i none with
    | none => modRec (fun r => { r with collecting := none }) s
    | some c =>
      let fits := frozenBytes r + n ≤ frozenLimit
      let c1 := if fits then withRecord o n c else { c with postLeft := 0 }
      let s1 := modRec (fun _ => { r with casks := updAt r.casks i (fun _ => some c1) }) s
      if c1.postLeft = 0 then
        raise 0x0E01 (leBytes 1 i ++ leBytes 4 c.cycle.toNat) (modRec (fun r => { r with collecting := none }) s1)
      else s1

/-- CASK_REFUSED (R309, R314). -/
def caskRefused (type : BitVec 16) (s : State) : State := raise 0x0E02 (leBytes 2 type.toNat) s

/-- R308, R309: the trigger of the closed cycle, with its `n` events, begins a cask, or is refused. -/
def triggerCask (n : Nat) (t : Option (BitVec 16 × BitVec 32)) (s : State) : State :=
  match t with
  | none => s
  | some (type, tag) =>
    if s.flow.rec_.collecting.isSome then s
    else match roomForCask n s.flow.rec_ with
      | some r => modRec (fun _ => (beginCask (BitVec.ofNat 32 (cycleCount s - 1)) tag r).2) s
      | none => caskRefused type s

/-- R307, R308: the recorder at an instant. `evs` and `t` are the events and the trigger of the closed cycle. -/
def recorderAtInstant (evs : List Event) (t : Option (BitVec 16 × BitVec 32)) (overrun : Bool) (s : State) : State :=
  let s0 := match s.flow.rec_.next with
    | some (pre, post, oldest, types, bitmap) =>
      modRec (fun r => { r with pre := pre, post := post, oldest := oldest, types := types, bitmap := bitmap, next := none }) s
    | none => s
  let b := cycleRecord evs overrun t.isSome s0
  let s1 := triggerCask evs.length t s0
  let r := s1.flow.rec_
  let o := recordPlace 8 ((casksHeld r).filter (fun c => c.postLeft = 0)) r.wr b.length
  let keep := r.recs.filter (fun x => !(x.1 < o + b.length && o < x.1 + x.2))
  growCask o b.length (modRec (fun r => { r with
    ring := ringWrite r.ring o b, wr := (o + b.length) % ringSize, recs := ((o, b.length) :: keep).take 65536 }) s1)

/-! ## Commands (R312) -/

/-- REC_STATUS. -/
def recStatusSpec : CmdSpec := plainSpec 0x0E01 4 (zeros 0 3)

/-- Write offset, frozen bytes, casks held. -/
def recStatusBody (_r : Ring) (s : State) : Reply × State :=
  let x := s.flow.rec_
  (done (leBytes 4 x.wr ++ leBytes 4 (frozenBytes x) ++ leBytes 1 (casksHeld x).length), s)

/-- REC_CONFIG. -/
def recConfigSpec : CmdSpec := plainSpec 0x0E02 166 (zeros 5 5)

/-- In effect from the next instant. -/
def recConfigBody (r : Ring) (s : State) : Reply × State :=
  if 2 ≤ byteAt r.req 4 then (outOfRange 4, s)
  else
    let types := ((List.range 16).map (fun i => BitVec.ofNat 16 (fieldAt r.req (6 + 2 * i) 2))).filter (fun t => t ≠ 0)
    let cfg := (fieldAt r.req 0 2, fieldAt r.req 2 2, byteAt r.req 4 == 1, types, (r.req.drop 38).take 128)
    (done [], modRec (fun x => { x with next := some cfg }) s)

/-- REC_TRIGGER. -/
def recTriggerSpec : CmdSpec := plainSpec 0x0E03 4 []

/-- R308, R309: a cask from the cycle in progress; while one collects, that one's index. -/
def recTriggerBody (r : Ring) (s : State) : Reply × State :=
  match s.flow.rec_.collecting with
  | some i => (done (leBytes 1 i), modRec (fun x => { x with trigger := some (0, BitVec.ofNat 32 (fieldAt r.req 0 4)) }) s)
  | none => match roomForCask s.cmd.cycleEvents.length s.flow.rec_ with
    | none => (fail 0x0108 0, caskRefused 0 s)
    | some x =>
      let tag := BitVec.ofNat 32 (fieldAt r.req 0 4)
      let y := beginCask (cycleNo s) tag x
      (done (leBytes 1 y.1), modRec (fun _ => { y.2 with trigger := some (0, tag) }) s)

/-- REC_CASK. -/
def recCaskSpec : CmdSpec := plainSpec 0x0E04 4 (zeros 1 3)

/-- Offset, length, trigger cycle and tag of a cask; zeros where none is held. -/
def recCaskBody (r : Ring) (s : State) : Reply × State :=
  let i := byteAt r.req 0
  if 8 ≤ i then (outOfRange 0, s)
  else match s.flow.rec_.casks.getD i none with
    | some c => (done (leBytes 4 c.offset ++ leBytes 4 c.length ++ leBytes 4 c.cycle.toNat ++ leBytes 4 c.tag.toNat), s)
    | none => (done (List.replicate 16 0), s)

/-- REC_RELEASE. -/
def recReleaseSpec : CmdSpec := plainSpec 0x0E05 4 (zeros 1 3)

/-- The cask's place freed. -/
def recReleaseBody (r : Ring) (s : State) : Reply × State :=
  let i := byteAt r.req 0
  if 8 ≤ i then (outOfRange 0, s)
  else (done [], modRec (fun x => { x with
    casks := updAt x.casks i (fun _ => none), collecting := if x.collecting = some i then none else x.collecting }) s)

/-- REC_PAGE. -/
def recPageSpec : CmdSpec := plainSpec 0x0E06 4 (zeros 1 3)

/-- R311. -/
def recPageBody (r : Ring) (s : State) : Reply × State :=
  if 24 ≤ byteAt r.req 0 then (outOfRange 0, s) else (done [], modRec (fun x => { x with page := byteAt r.req 0 }) s)

/-- REC_STATUS (R312). -/
def execRecStatus (dt : Nat) (r : Ring) (s : State) : Host.Outcome State Fault Refusal :=
  .next (submit recStatusSpec recStatusBody dt r s)

/-- REC_CONFIG (R312). -/
def execRecConfig (dt : Nat) (r : Ring) (s : State) : Host.Outcome State Fault Refusal :=
  .next (submit recConfigSpec recConfigBody dt r s)

/-- REC_TRIGGER (R308). -/
def execRecTrigger (dt : Nat) (r : Ring) (s : State) : Host.Outcome State Fault Refusal :=
  .next (submit recTriggerSpec recTriggerBody dt r s)

/-- REC_CASK (R311). -/
def execRecCask (dt : Nat) (r : Ring) (s : State) : Host.Outcome State Fault Refusal :=
  .next (submit recCaskSpec recCaskBody dt r s)

/-- REC_RELEASE (R312). -/
def execRecRelease (dt : Nat) (r : Ring) (s : State) : Host.Outcome State Fault Refusal :=
  .next (submit recReleaseSpec recReleaseBody dt r s)

/-- REC_PAGE (R311). -/
def execRecPage (dt : Nat) (r : Ring) (s : State) : Host.Outcome State Fault Refusal :=
  .next (submit recPageSpec recPageBody dt r s)

end Sys2Proof.Machine
end

