-- ==== Sys2Proof/Machine/Sys.lean ====
section
/-! DEFINITION. The system commands (R573–R579, R614, R615, R621): identity, reset, event mask, patches, log, profile
confirmation and debug unlock. -/

namespace Sys2Proof.Machine

/-- The system part of the state changed. -/
def modSys (f : Sys → Sys) (s : State) : State := { s with sys := f s.sys }

/-! ## Patches (R577–R579, R609) -/

/-- LEVEL of a patch image. -/
def patchLevel (p : Patch) : Nat := fieldAt (memRead p.bytes 6 2) 0 2

/-- FLOOR of a patch image. -/
def patchFloor (p : Patch) : Nat := fieldAt (memRead p.bytes 8 2) 0 2

/-- Bytes of the image before its signature. -/
def patchSize (p : Patch) : Nat := 16 + fieldAt (memRead p.bytes 12 4) 0 4

/-- PATCH_ID: bytes 0–3 of the SHA-256 of the image with its signature. -/
def patchId (p : Patch) : List Byte := (sha256 (memRead p.bytes 0 (min 65536 (patchSize p + 64)))).take 4

/-- The signature of an image verifies against the Sarevo patch key. -/
def patchSigned (p : Patch) : Bool :=
  Config.ed25519 false (memRead p.bytes 0 (patchSize p)) (memRead p.bytes (patchSize p) 64)

/-- R578: the first failing check of an image against a ROM minor version and the FLOOR of the running patch. Staging
runs in multiples of 4 bytes, so the bytes staged are the image's length rounded up. -/
def patchFault (minor : Byte) (floor : Nat) (p : Patch) : Option Nat :=
  let b := memRead p.bytes 0 16
  if fieldAt b 0 4 ≠ 0x48435450 || fieldAt b 10 2 ≠ 0 then some 1
  else if 65536 < patchSize p + 64 || (patchSize p + 67) / 4 * 4 ≠ p.len then some 2
  else if byteAt b 4 ≠ 3 || byteAt b 5 ≠ minor.toNat then some 3
  else if patchLevel p = 0 || patchLevel p < patchFloor p || patchLevel p < floor then some 4
  else if !(patchSigned p) then some 5
  else none

/-- FLOOR of the running patch, 0 without one. -/
def runningFloor (s : State) : Nat := if s.sys.patchActive then (s.sys.patchRun.map patchFloor).getD 0 else 0

/-- Level of the running patch, 0 when none runs. -/
def runningLevel (s : State) : Nat := if s.sys.patchActive then (s.sys.patchRun.map patchLevel).getD 0 else 0

/-- SYS_PATCH_STAGE. -/
def sysPatchStageSpec : CmdSpec :=
  { flashSpec 0x0105 12 (zeros 6 7) with noRemote := true, maxLen := 2056, tied := some (4, 2, 8, 1) }

/-- R573, R577: bytes of the staged patch; a write at offset 0 first discards it. -/
def sysPatchStageBody (r : Ring) (s : State) : Reply × State :=
  let off := fieldAt r.req 0 4
  let n := fieldAt r.req 4 2
  let old : Patch := if off = 0 then { bytes := [], len := 0, verified := false }
    else s.sys.patchStaged.getD { bytes := [], len := 0, verified := false }
  if off % 4 ≠ 0 then (outOfRange 0, s)
  else if n < 4 || 2048 < n || n % 4 ≠ 0 then (outOfRange 4, s)
  else if 65536 < off + n then (outOfRangeAll, s)
  else (done [], modSys (fun y => { y with
    patchStaged := some { bytes := memWrite old.bytes off (r.req.drop 8), len := max old.len (off + n), verified := false } }) s)

/-- SYS_PATCH_VERIFY. -/
def sysPatchVerifySpec : CmdSpec := { flashSpec 0x0106 4 (zeros 0 3) with noRemote := true, slow := true }

/-- R578: the staged patch verified, or rejected at its first failing check; nothing staged fails the first. -/
def sysPatchVerifyBody (_r : Ring) (s : State) : Reply × State :=
  match s.sys.patchStaged with
  | none => (fail 0x0109 1, s)
  | some p =>
    match patchFault s.sys.romMinor (runningFloor s) p with
    | some c => (fail 0x0109 c, s)
    | none => (done (leBytes 2 (patchLevel p) ++ leBytes 2 (patchFloor p) ++ patchId p),
        modSys (fun y => { y with patchStaged := some { p with verified := true } }) s)

/-! ## Identity, log and mask -/

/-- SYS_IDENTITY. -/
def sysIdentitySpec : CmdSpec := plainSpec 0x0101 4 (zeros 0 3)

/-- R614: the profile is confirmed. -/
def profileConfirmed (s : State) : Bool := s.sys.profileRecord = some s.sys.native

/-- The identity record (R574). -/
def identityRecord (s : State) : List Byte :=
  let staged := match s.sys.patchStaged with | some p => if p.verified then patchLevel p else 0 | none => 0
  let pid := if s.sys.patchActive then (s.sys.patchRun.map patchId).getD (leBytes 4 0) else leBytes 4 0
  padTo 16 s.sys.ordering ++ leBytes 2 s.sys.revision.toNat ++ [s.sys.dateYear, s.sys.dateWeek] ++
    leBytes 8 s.sys.uid.toNat ++ [3, s.sys.romMinor] ++ leBytes 2 (runningLevel s) ++ leBytes 2 staged ++
    leBytes 2 (runningFloor s) ++ [BitVec.ofNat 8 (b2n s.sys.native + 128 * b2n (!(profileConfirmed s))), s.sys.cause] ++
    leBytes 2 0 ++ pid ++ leBytes 4 (min 0xFFFFFFFF ((s.clk - s.sys.startClk) / secT 1))

/-- The record. -/
def sysIdentityBody (_r : Ring) (s : State) : Reply × State := (done (identityRecord s), s)

/-- SYS_NOP. -/
def sysNopSpec : CmdSpec := { plainSpec 0x0102 0 [] with maxLen := 4064 }

/-- The request bytes, unchanged. -/
def sysNopBody (r : Ring) (s : State) : Reply × State := (done r.req, s)

/-- SYS_LOG_READ. -/
def sysLogReadSpec : CmdSpec := plainSpec 0x0107 4 []

/-- Entries of the non-volatile log, oldest first (R572, R573). -/
def sysLogReadBody (r : Ring) (s : State) : Reply × State :=
  let n := fieldAt r.req 2 2
  if n < 1 || 126 < n then (outOfRange 2, s)
  else
    let es := (s.cmd.log.drop (fieldAt r.req 0 2)).take n
    (done (leBytes 2 es.length ++ leBytes 2 s.cmd.log.length ++ leBytes 28 0 ++ es.flatMap eventBytes), s)

/-- SYS_EVENT_MASK. -/
def sysEventMaskSpec : CmdSpec := plainSpec 0x0104 4 (zeros 3 3)

/-- Every code but CMD_COMPLETE and NODE_START. -/
def maskable : List (BitVec 16) :=
  ((eventCodes.map (fun e => e.1)).filter (fun c => c ≠ 0x0101 && c ≠ 0x0102)).map (fun c => BitVec.ofNat 16 c)

/-- R573: an event code, or all, withheld from the queue or let through. -/
def sysEventMaskBody (r : Ring) (s : State) : Reply × State :=
  let code := fieldAt r.req 0 2
  let c := BitVec.ofNat 16 code
  let unmask := byteAt r.req 2 = 1
  let rest := s.cmd.mask.filter (fun x => x ≠ c)
  if code ≠ 0xFFFF && (eventCodes.lookup code).isNone then (outOfRange 0, s)
  else if 1 < byteAt r.req 2 then (outOfRange 2, s)
  else if code = 0xFFFF then (done [], modCmd (fun m => { m with mask := if unmask then [] else maskable }) s)
  else if !unmask && (code = 0x0101 || code = 0x0102) then (outOfRange 0, s)
  else (done [], modCmd (fun m => { m with mask := if unmask then rest else rest ++ [c] }) s)

/-! ## Reset (R575) -/

/-- SYS_RESET. -/
def sysResetSpec : CmdSpec := plainSpec 0x0103 4 (zeros 2 3)

/-- The command itself: DONE, and the reset is due at the next instant. -/
def sysResetBody (r : Ring) (s : State) : Reply × State :=
  if byteAt r.req 0 ≠ 0x96 then (outOfRange 0, s)
  else if byteAt r.req 1 ≠ 0x48 then (outOfRange 1, s)
  else (done [], modSys (fun y => { y with resetPending := some (BitVec.ofNat 8 (srcIf r.src), r.mbx) }) s)

/-- The leading vehicle that stood before a TOPO_SET_LEADING that is aborted. -/
def leadBefore (qs : List Queued) (l : Option (BitVec 48)) : Option (BitVec 48) :=
  match qs.find? (fun q => q.opcode == 0x0204) with
  | some q => if q.arg = 0 then none else some (BitVec.ofNat 48 (q.arg - 1))
  | none => l

/-- R556, R575: what the aborted queued commands `qs` would still have done is not done. -/
def queuedDropped (qs : List Queued) (s : State) : State :=
  { s with
    ina := { s.ina with leading := leadBefore qs s.ina.leading }
    trunk := { s.trunk with policyNext := [none, none] }
    time := { s.time with ptp := s.time.ptp.map (fun i => { i with pending := none }) }
    sched := { s.sched with holdAsked := false, release := none }
    twin := { s.twin with switching := none, outAfter := false, outAt := none, returnAt := false }
    lsk := { s.lsk with pairs := s.lsk.pairs.map (fun p => { p with pendHand := none, substTo := none }) }
    mvb := s.mvb.map (fun m => { m with cfgNext := none, commit := none })
    swc := { s.swc with ports := s.swc.ports.map (fun t => { t with cfgNext := none, commit := none }) }
    pwr := { s.pwr with pend := none }
    rep := { s.rep with reqs := [], rotPick := none } }

/-- R575, after the completion: NODE_RESET, and every other busy mailbox and every queued command ends. -/
def resetFollow (s : State) : State :=
  match s.sys.resetPending with
  | none => s
  | some (src, m) =>
    let s1 := raise 0x0103 (leBytes 1 src.toNat ++ leBytes 1 m.val) s
    let busy := (List.range 8).filter (fun n => (mbxOf s1 n).state = 1)
    queuedDropped s.cmd.queued (finishQueued (fun _ => true) 0x010C (forEach busy (fun n s => completeMbx n 250000 (fail 0x010C 0) s) s1))

/-- What follows a command that has just made a reset due. -/
def thenReset (before after : State) : State :=
  if before.sys.resetPending.isNone && after.sys.resetPending.isSome then resetFollow after else after

/-! ## Profile and debug (R614, R615, R619–R621) -/

/-- SYS_PROFILE_CONFIRM. -/
def sysProfileConfirmSpec : CmdSpec := flashSpec 0x0110 4 (zeros 1 3)

/-- R615: the record is stored, and a node that waits in step 0x7 goes on to step 0x8. -/
def sysProfileConfirmBody (r : Ring) (s : State) : Reply × State :=
  let p := byteAt r.req 0
  if 1 < p then (outOfRange 0, s)
  else if p ≠ b2n s.sys.native then (fail 0x0104 0, s)
  else (done [], modSys (fun y => { y with
    profileRecord := some y.native, step := if y.step = 7 then 8 else y.step }) s)

/-- SYS_DEBUG_UNLOCK: what the length and the reserved bytes must be depends on byte 0. -/
def sysDebugSpec : CmdSpec := { plainSpec 0x0111 4 [] with maxLen := 68, noRemote := true }

/-- The nonce in force is valid: at most 10 minutes old (R621). -/
def nonceValid (s : State) : Option (BitVec 128) :=
  match s.sys.nonce with
  | some (n, c) => if s.clk ≤ c + secT 600 then some (Config.nonce n) else none
  | none => none

/-- The first reserved byte that is set: bytes 1 to 3, or 2 and 3 and the reserved bits of the scope. -/
def debugReserved (req : List Byte) : Option Nat :=
  if byteAt req 0 = 1 then
    (if 4 ≤ byteAt req 1 then some 1 else if byteAt req 2 ≠ 0 then some 2 else if byteAt req 3 ≠ 0 then some 3 else none)
  else [1, 2, 3].find? (fun i => byteAt req i ≠ 0)

/-- R621: a nonce asked for. -/
def debugNonce (s : State) : Reply × State :=
  let n := s.sys.nonceNext
  (done (leBytes 16 (Config.nonce n).toNat), modSys (fun y => { y with nonce := some (n, s.clk), nonceNext := n + 1 }) s)

/-- R621: the scope granted for a signature over UID, nonce and scope; any failure makes the nonce invalid. -/
def debugUnlock (req : List Byte) (s : State) : Reply × State :=
  let spent := modSys (fun y => { y with nonce := none }) s
  match nonceValid s with
  | none => (outOfRange 4, spent)
  | some n =>
    let scope := BitVec.ofNat 8 (byteAt req 1)
    let msg := leBytes 8 s.sys.uid.toNat ++ leBytes 16 n.toNat ++ [scope]
    if Config.ed25519 true msg ((req.drop 4).take 64) then
      (done [], raise 0x0105 (leBytes 1 scope.toNat) (modSys (fun y => { y with debugScope := scope }) spent))
    else (outOfRange 4, spent)

/-- R621: by byte 0 a nonce, the unlock, or the port locked again. -/
def sysDebugBody (r : Ring) (s : State) : Reply × State :=
  let spent := modSys (fun y => { y with nonce := none }) s
  let kind := byteAt r.req 0
  if 2 < kind then (outOfRange 0, spent)
  else if r.req.length ≠ (if kind = 1 then 68 else 4) then (fail 0x0101 4, spent)
  else match debugReserved r.req with
    | some off => (outOfRange off, spent)
    | none =>
      if kind = 0 then debugNonce s
      else if kind = 1 then debugUnlock r.req s
      else (done [], modSys (fun y => { y with debugScope := 0 }) s)

/-! ## The commands -/

/-- SYS_IDENTITY (R574). -/
def execSysIdentity (dt : Nat) (r : Ring) (s : State) : Host.Outcome State Fault Refusal :=
  .next (submit sysIdentitySpec sysIdentityBody dt r s)

/-- SYS_NOP (R573). -/
def execSysNop (dt : Nat) (r : Ring) (s : State) : Host.Outcome State Fault Refusal :=
  .next (submit sysNopSpec sysNopBody dt r s)

/-- SYS_RESET (R575). -/
def execSysReset (dt : Nat) (r : Ring) (s : State) : Host.Outcome State Fault Refusal :=
  .next (thenReset s (submit sysResetSpec sysResetBody dt r s))

/-- SYS_EVENT_MASK (R573, R568). -/
def execSysEventMask (dt : Nat) (r : Ring) (s : State) : Host.Outcome State Fault Refusal :=
  .next (submit sysEventMaskSpec sysEventMaskBody dt r s)

/-- SYS_PATCH_STAGE (R577). -/
def execSysPatchStage (dt : Nat) (r : Ring) (s : State) : Host.Outcome State Fault Refusal :=
  .next (submit sysPatchStageSpec sysPatchStageBody dt r s)

/-- SYS_PATCH_VERIFY (R578). -/
def execSysPatchVerify (dt : Nat) (r : Ring) (s : State) : Host.Outcome State Fault Refusal :=
  .next (submit sysPatchVerifySpec sysPatchVerifyBody dt r s)

/-- SYS_LOG_READ (R572). -/
def execSysLogRead (dt : Nat) (r : Ring) (s : State) : Host.Outcome State Fault Refusal :=
  .next (submit sysLogReadSpec sysLogReadBody dt r s)

/-- SYS_PROFILE_CONFIRM (R615). -/
def execSysProfileConfirm (dt : Nat) (r : Ring) (s : State) : Host.Outcome State Fault Refusal :=
  .next (submit sysProfileConfirmSpec sysProfileConfirmBody dt r s)

/-- SYS_DEBUG_UNLOCK with byte 0 0x0 (R621). -/
def execSysDebugNonce (dt : Nat) (r : Ring) (s : State) : Host.Outcome State Fault Refusal :=
  .next (submit sysDebugSpec sysDebugBody dt r s)

/-- SYS_DEBUG_UNLOCK with byte 0 0x1 (R621). -/
def execSysDebugUnlock (dt : Nat) (r : Ring) (s : State) : Host.Outcome State Fault Refusal :=
  .next (submit sysDebugSpec sysDebugBody dt r s)

/-- SYS_DEBUG_UNLOCK with byte 0 0x2 (R621). -/
def execSysDebugRelock (dt : Nat) (r : Ring) (s : State) : Host.Outcome State Fault Refusal :=
  .next (submit sysDebugSpec sysDebugBody dt r s)

end Sys2Proof.Machine
end

