-- ==== Sys2Proof/Machine/Topo.lean ====
section
/-! DEFINITION. The topology commands (R106, R143, R154, R156, R618). -/

namespace Sys2Proof.Machine

/-- TOPO_STATUS. -/
def topoStatusSpec : CmdSpec := plainSpec 0x0201 4 ([(0, 0xFE)] ++ zeros 1 3)

/-- The record, its counters cleared where asked. -/
def topoStatusBody (r : Ring) (s : State) : Reply × State :=
  (done (topoRecord s), if clearAsked r.req 0 then modIna (fun n => { n with ctr := ctrClear n.ctr }) s else s)

/-- TOPO_DIRECTORY. -/
def topoDirectorySpec : CmdSpec := plainSpec 0x0202 4 (zeros 1 3)

/-- The frames' headers and records of the directory in force or prepared. -/
def topoDirectoryBody (r : Ring) (s : State) : Reply × State :=
  let k := byteAt r.req 0
  let d := if k = 0 then s.ina.dir else (s.ina.prep.filter (fun p => p.whole)).map (fun p => p.dir)
  if 2 ≤ k then (outOfRange 0, s)
  else match d with
    | some d => (done ((dirFrames (k == 1) false d).flatMap dirFrameBytes), s)
    | none => (notInState (inaugCode s.ina.st), s)

/-- TOPO_POSITION_MAP. -/
def topoPositionMapSpec : CmdSpec := plainSpec 0x0203 4 (zeros 0 3)

/-- R143. -/
def topoPositionMapBody (_r : Ring) (s : State) : Reply × State :=
  (done (leBytes 2 s.ina.oldGen.toNat ++ leBytes 2 s.ina.gen.toNat ++ s.ina.posMap), s)

/-- TOPO_SET_LEADING. -/
def topoSetLeadingSpec : CmdSpec := flashSpec 0x0204 8 (zeros 6 7)

/-- What a TOPO_SET_LEADING keeps of the vehicle that led before it and before those it replaces: 0 where none did. -/
def leadKept (s : State) : Nat :=
  match s.cmd.queued.find? (fun q => q.opcode == 0x0204) with
  | some q => q.arg
  | none => (s.ina.leading.map (fun v => v.toNat + 1)).getD 0

/-- R106: stored, in place of a command stored earlier, which then ends cancelled. -/
def topoSetLeadingBody (r : Ring) (s : State) : Reply × State :=
  let v := BitVec.ofNat 48 (fieldAt r.req 0 6)
  let lead := (s.ina.dir.map (fun d => d.leadVid)).getD 0
  let s1 := finishQueued (fun q => q.opcode == 0x0204) 0x010B s
  (queued (leadKept s), modIna (fun n => { n with leading := some v, leadIssued := lead, sinceLead := 0 }) s1)

/-- TOPO_SET_IDENTITY. -/
def topoSetIdentitySpec : CmdSpec := { flashSpec 0x0205 8 [] with noRemote := true }

/-- R154: in steep. -/
def topoSetIdentityBody (r : Ring) (s : State) : Reply × State :=
  let v := fieldAt r.req 0 6
  if v = 0 then (outOfRange 0, s)
  else if 2 ≤ byteAt r.req 6 then (outOfRange 6, s)
  else if !(inSteep s) then (notInState (inaugCode s.ina.st), s)
  else (done [], modIna (fun n => { n with
    vid := BitVec.ofNat 48 v, twinB := byteAt r.req 6 == 1, prio := BitVec.ofNat 8 (byteAt r.req 7) }) s)

/-- TOPO_COLD_START. -/
def topoColdStartSpec : CmdSpec := plainSpec 0x0206 4 (zeros 0 3)

/-- R138, R618: in steep or Held, and never by a fabric-attached node. -/
def topoColdStartBody (_r : Ring) (s : State) : Reply × State :=
  if s.fab.attached || !(inSteep s || inHeld s) then (notInState (inaugCode s.ina.st), s)
  else (done [], if mayContend s then enterContend s else s)

/-- TOPO_STATUS (R156). -/
def execTopoStatus (dt : Nat) (r : Ring) (s : State) : Host.Outcome State Fault Refusal :=
  .next (submit topoStatusSpec topoStatusBody dt r s)

/-- TOPO_DIRECTORY (R100). -/
def execTopoDirectory (dt : Nat) (r : Ring) (s : State) : Host.Outcome State Fault Refusal :=
  .next (submit topoDirectorySpec topoDirectoryBody dt r s)

/-- TOPO_POSITION_MAP (R143). -/
def execTopoPositionMap (dt : Nat) (r : Ring) (s : State) : Host.Outcome State Fault Refusal :=
  .next (submit topoPositionMapSpec topoPositionMapBody dt r s)

/-- TOPO_SET_LEADING (R106). -/
def execTopoSetLeading (dt : Nat) (r : Ring) (s : State) : Host.Outcome State Fault Refusal :=
  .next (submit topoSetLeadingSpec topoSetLeadingBody dt r s)

/-- TOPO_SET_IDENTITY (R154). -/
def execTopoSetIdentity (dt : Nat) (r : Ring) (s : State) : Host.Outcome State Fault Refusal :=
  .next (submit topoSetIdentitySpec topoSetIdentityBody dt r s)

/-- TOPO_COLD_START (R138). -/
def execTopoColdStart (dt : Nat) (r : Ring) (s : State) : Host.Outcome State Fault Refusal :=
  .next (submit topoColdStartSpec topoColdStartBody dt r s)

end Sys2Proof.Machine
end

