-- ==== Sys2Proof/Machine/CmdTable.lean ====
section
/-! DEFINITION. The opcode table (R573): what each opcode of ROM major version 3 is checked against and does, and a ring
through a doorbell register (R546, R550, R555). -/

namespace Sys2Proof.Machine

/-- A command's specification and its subject chapter's part. -/
abbrev Command := CmdSpec × (Ring → State → Reply × State)

/-- Opcodes 0x0101 to 0x0220. -/
def commands1 : List Command := [
  (sysIdentitySpec, sysIdentityBody),
  (sysNopSpec, sysNopBody),
  (sysResetSpec, sysResetBody),
  (sysEventMaskSpec, sysEventMaskBody),
  (sysPatchStageSpec, sysPatchStageBody),
  (sysPatchVerifySpec, sysPatchVerifyBody),
  (sysLogReadSpec, sysLogReadBody),
  (sysProfileConfirmSpec, sysProfileConfirmBody),
  (sysDebugSpec, sysDebugBody),
  (topoStatusSpec, topoStatusBody),
  (topoDirectorySpec, topoDirectoryBody),
  (topoPositionMapSpec, topoPositionMapBody),
  (topoSetLeadingSpec, topoSetLeadingBody),
  (topoSetIdentitySpec, topoSetIdentityBody),
  (topoColdStartSpec, topoColdStartBody),
  (trunkSetPolicySpec, trunkSetPolicyBody)]

/-- Opcodes 0x0221 to 0x0406. -/
def commands2 : List Command := [
  (trunkStatusSpec, trunkStatusBody),
  (trunkBypassSpec, trunkBypassBody),
  (trunkRetrainSpec, trunkRetrainBody),
  (schedStatusSpec, schedStatusBody),
  (schedStageSpec, schedStageBody),
  (schedVerifySpec, schedVerifyBody),
  (schedHoldSpec, schedHoldBody),
  (schedActivateSpec, schedActivateFull),
  (schedReleaseSpec, schedReleaseBody),
  (schedEntryStatusSpec, schedEntryStatusBody),
  (timeStatusSpec, timeStatusBody),
  (timeSetSpec, timeSetBody),
  (timePtpConfigSpec, timePtpConfigBody),
  (timeDomainPolicySpec, timeDomainPolicyBody),
  (timeSteerSpec, timeSteerBody),
  (timePtpStatusSpec, timePtpStatusBody)]

/-- Opcodes 0x0501 to 0x0702. -/
def commands3 : List Command := [
  (flowSetSpec, flowSetBody),
  (flowGetSpec, flowGetBody),
  (flowStatusSpec, flowStatusBody),
  (flowSaveSpec, flowSaveBody),
  (flowMacsecKeySpec, flowMacsecKeyBody),
  (sessionOpenSpec, sessionOpenBody),
  (sessionSendSpec, sessionSendBody),
  (sessionRecvSpec, sessionRecvBody),
  (sessionCloseSpec, sessionCloseBody),
  (twinStatusSpec, twinStatusBody),
  (twinConfigSpec, twinConfigBody),
  (twinSwitchoverSpec, twinSwitchoverBody),
  (twinServiceSpec, twinServiceBody),
  (twinRenewSpec, twinRenewBody),
  (lskStatusSpec, lskStatusBody),
  (lskPairConfigSpec, lskPairConfigBody)]

/-- Opcodes 0x0703 to 0x0A03. -/
def commands4 : List Command := [
  (lskPairResetSpec, lskPairResetBody),
  (lskSplitSpec, lskSplitBody),
  (lskRejoinSpec, lskRejoinBody),
  (lskSubstituteSpec, lskSubstituteBody),
  (canSaveSpec, canSaveBody),
  (canLoadSpec, canLoadBody),
  (mvbConfigSpec, mvbConfigBody),
  (mvbStageSpec, mvbStageBody),
  (mvbCommitSpec, mvbCommitBody),
  (mvbPortSetSpec, mvbPortSetBody),
  (mvbPortWriteSpec, mvbPortWriteBody),
  (mvbPortReadSpec, mvbPortReadBody),
  (mvbStatusSpec, mvbStatusBody),
  (swcPortConfigSpec, swcPortConfigBody),
  (swcPortStatusSpec, swcPortStatusBody),
  (swcVlanSetSpec, swcVlanSetBody)]

/-- Opcodes 0x0A04 to 0x0C03. -/
def commands5 : List Command := [
  (swcStreamSetSpec, swcStreamSetBody),
  (swcGclStageSpec, swcGclStageBody),
  (swcGclCommitSpec, swcGclCommitBody),
  (swcMacsecKeySpec, swcMacsecKeyBody),
  (swcStreamStatusSpec, swcStreamStatusBody),
  (swcSaveSpec, swcSaveBody),
  (fabStatusSpec, fabStatusBody),
  (fabConfigSpec, fabConfigBody),
  (fabWindowSetSpec, fabWindowSetBody),
  (fabSlotTableSpec, fabSlotTableBody),
  (fabBridgeStatusSpec, fabBridgeStatusBody),
  (fabPwlogSpec, fabPwlogBody),
  (fabSemReleaseSpec, fabSemReleaseBody),
  (pwrStatusSpec, pwrStatusBody),
  (pwrDomainConfigSpec, pwrDomainConfigBody),
  (pwrParkSpec, (entryBody false))]

/-- Opcodes 0x0C04 to 0x0E06. -/
def commands6 : List Command := [
  (pwrKilnSpec, (entryBody true)),
  (pwrWakeConfigSpec, pwrWakeConfigBody),
  (repStatusSpec, repStatusBody),
  (repLogSpec, repLogBody),
  (repTestSpec, repTestBody),
  (repCalibrateSpec, repCalibrateBody),
  (repRotationSpec, repRotationBody),
  (recStatusSpec, recStatusBody),
  (recConfigSpec, recConfigBody),
  (recTriggerSpec, recTriggerBody),
  (recCaskSpec, recCaskBody),
  (recReleaseSpec, recReleaseBody),
  (recPageSpec, recPageBody)]

/-- The command set. -/
def commands : List Command := commands1 ++ commands2 ++ commands3 ++ commands4 ++ commands5 ++ commands6

/-- The command of an opcode. -/
def commandOf (op : Nat) : Option Command := commands.find? (fun c => c.1.opcode == op)

/-- The request a mailbox holds. -/
def mailboxRing (n : Fin 8) (i : Iface) (s : State) : Ring :=
  let m := mbxOf s n.val
  { mbx := n, src := i, tag := m.tag, req := memRead m.payload 0 m.reqLen.toNat, flashFail := none }

/-- A mailbox rung: refused (R550, R548, R575), or accepted and run; an opcode outside the table completes with
UNKNOWN_OPCODE (R555). -/
def ringMailbox (n : Fin 8) (i : Iface) (s : State) : State :=
  if (mbxOf s n.val).ring || s.sys.resetPending.isSome || !(lockAllows n.val i s) then refuseRing n.val s
  else
    let r := mailboxRing n i s
    let s1 := acceptRing n.val i s
    match commandOf (mbxOf s n.val).opcode.toNat with
    | none => completeMbx n.val 1000 (fail 0x0100 0) s1
    | some c => thenReset s (if c.1.opcode = 0x0703 then runLater c.1 c.2 r s1 else runAccepted c.1 c.2 r s1)

/-- A write of MBX_DBn: its RW fields, its W1C bits, then the ring (R546). -/
def doorbellWrite (n : Fin 8) (i : Iface) (v : Nat) (s : State) : State :=
  let s1 := modMbx n.val (fun m => { m with
    done := m.done && !(v.testBit 1), refused := m.refused && !(v.testBit 2),
    irqEn := v.testBit 7, vector := BitVec.ofNat 5 (v / 256) }) s
  if v.testBit 0 then ringMailbox n i s1 else s1

/-- R558: the work of the queued command with this CMD_SEQ ends with a final status: a command that stores in flash, done
or failed; what other queued commands wait for comes with the command that brings it. -/
def queuedComplete (seq : BitVec 32) (status : BitVec 16) (s : State) : State :=
  match s.cmd.queued.find? (fun q => q.cmdSeq == seq) with
  | none => s
  | some q =>
    let op := q.opcode.toNat
    if op = 0x0403 then (if status = 0x010A then finishQueued (fun x => x.cmdSeq == seq) 0x010A (ptpCancel q.arg s) else s)
    else if op ≠ 0x0504 && op ≠ 0x0801 && op ≠ 0x0A09 then s
    else if status = 0 then
      let s1 := if op = 0x0504 then flowSaveWork s else if op = 0x0801 then canSaveMask q.arg s else swcSaveWork s
      finishQueued (fun x => x.cmdSeq == seq) 0 (areaWritten (areaOf op) s1)
    else if status = 0x010A then finishQueued (fun x => x.cmdSeq == seq) 0x010A s
    else s

/-- QUEUED_COMMAND_COMPLETE (R558, R560). -/
def execQueuedCommandComplete (dt : Nat) (seq : BitVec 32) (status : BitVec 16) (s : State) :
    Host.Outcome State Fault Refusal := .next (queuedComplete seq status (begin_ dt s))

/-- DOORBELL_RING (R546, R550): a write of MBX_DBn. -/
def execDoorbellRing (dt : Nat) (src : Iface) (mbx : Fin 8) (value : BitVec 32) (s : State) :
    Host.Outcome State Fault Refusal :=
  .next (hostAccess dt src (0x8000 + 4 * mbx.val) (some value)
    (fun s => if isPair src then s else doorbellWrite mbx src value.toNat s) s)

end Sys2Proof.Machine
end

