-- ==== Sys2Proof/Machine/Pdi.lean ====
section
/-! DEFINITION. The next window of the process-data image (R264–R269, R273, R370) and the writes of the bank-control
block (R590–R594). -/

namespace Sys2Proof.Machine

/-! ## The next window -/

/-- A byte of the next window that a write changes: in the area of an enabled produced flow, beyond its header (R264,
R276). -/
def producedByte (s : State) (a : Nat) : Bool :=
  match blockOwner s (a / 64) with
  | some (_, c) => c.produce && areaBase c + 8 ≤ a
  | none => false

/-- The writable ones of some bytes from offset `off` stored. -/
def storeProduced (s : State) : Mem → Nat → List Byte → Mem
  | m, _, [] => m
  | m, off, b :: bs => storeProduced s (if producedByte s off then memSet m off b else m) (off + 1) bs

/-- R269: while an earlier write is held, a further one is answered with retry on the local bus. -/
def lbRetries (s : State) : Bool := s.flow.opening && !s.flow.nextOpen && !s.flow.heldWrites.isEmpty

/-- A write to the next window by a party: refused and counted by class (R370), discarded and counted between a release
and its instant (R273), held while NEXT_OPEN is clear, and otherwise applied (R269). Before the first instant after step
0x6 it is discarded uncounted. -/
def nextWindowWrite (i : Iface) (off : Nat) (data : List Byte) (s : State) : State :=
  if !s.flow.opening then s
  else if i == .lb && lbRetries s then emit (.lbAnswer false 0) s
  else match blockRefuses i (off / 64) s with
    | some l => pairCount l 6 s
    | none =>
      if s.flow.relPend then modFlow (fun w => { w with ctr := ctrInc w.ctr 2 }) s
      else if s.flow.nextOpen then modNext (fun m => storeProduced s m off data) s
      else modFlow (fun w => { w with heldWrites := w.heldWrites ++ [(i, off, data)] }) s

/-- R269: NEXT_OPEN sets, the writes held since the instant are applied in arrival order, and PDI_IRQ raises its vector
(R590). A held write was judged when it came; a release since then does not discard it. -/
def openNext (s : State) : State :=
  let held := s.flow.heldWrites
  let s1 := modFlow (fun w => { w with nextOpen := true, heldWrites := [] }) s
  let s2 := forEach held (fun x s => modNext (fun m => storeProduced s m x.2.1 x.2.2) s) s1
  if s2.flow.irqEn then raiseVector s2.flow.vector s2 else s2

/-! ## Bank control -/

/-- R591: a write of PDI_RELEASE sets the party's own bit; while a complete release awaits its instant it has no effect
(R273). -/
def pdiReleaseWrite (i : Iface) (v : Nat) (s : State) : State :=
  if s.flow.relPend then s
  else match i with
    | .pair l => if v.testBit (1 + l.val) then setRelease (1 + l.val) s else s
    | .spi => s
    | _ => if v.testBit 0 then setRelease 0 s else s

/-- R594: a write of PDI_REL_MASK, in effect at the next instant; all zero is discarded. -/
def pdiMaskWrite (i : Iface) (v : Nat) (s : State) : State :=
  if isPair i || v % 32 = 0 then s else modFlow (fun w => { w with relMaskNext := some (BitVec.ofNat 5 v) }) s

/-- A write of PDI_IRQ. -/
def pdiIrqWrite (i : Iface) (v : Nat) (s : State) : State :=
  if isPair i then s else modFlow (fun w => { w with vector := BitVec.ofNat 5 v, irqEn := v.testBit 7 }) s

/-- PDI_DEADLINE: the next release deadline, as a train time. -/
def nextDeadline (s : State) : Nat :=
  let d := nextInstant s - releaseT s
  if s.now < d then d else d + macroT s

/-- The bank-control registers. -/
def pdiRead (off : Nat) (s : State) : Nat × State :=
  let w := s.flow
  let rc (i : Nat) : Nat × State :=
    ((ctrGet w.ctr i).n.toNat, modFlow (fun w => { w with ctr := updAt w.ctr i (fun _ => Sat.zero) }) s)
  match off with
  | 0x000 => (w.release.toNat, s)
  | 0x004 => (w.relMask.toNat, s)
  | 0x008 => (b2n w.nextOpen + 2 * b2n w.relPend + 4 * b2n w.outBank1, s)
  | 0x00C => (w.pdiCycle.toNat, s)
  | 0x010 => (w.pubCycle.toNat, s)
  | 0x014 => (nsField (nextDeadline s), s)
  | 0x020 => rc 0
  | 0x024 => rc 1
  | 0x028 => rc 2
  | 0x02C => (ovfBits w.ctr, s)
  | 0x030 => (w.vector.toNat + 128 * b2n w.irqEn, s)
  | _ => (0, s)

/-- A write of a bank-control register. -/
def pdiWrite (i : Iface) (off v : Nat) (s : State) : State :=
  match off with
  | 0x000 => pdiReleaseWrite i v s
  | 0x004 => pdiMaskWrite i v s
  | 0x030 => pdiIrqWrite i v s
  | _ => s

end Sys2Proof.Machine
end

