-- ==== Sys2Proof/Machine/Regs.lean ====
section
/-! DEFINITION. BAR0 as every party reads and writes it (R4–R13, R580–R589, R596–R598, R712, R713). -/

namespace Sys2Proof.Machine

/-! ## Mailboxes (R545–R551) -/

/-- The 32 bytes of a mailbox header. -/
def mbxHeader (m : Mailbox) : List Byte :=
  leBytes 2 m.opcode.toNat ++ leBytes 2 m.tag.toNat ++ leBytes 2 m.reqLen.toNat ++ [0, 0] ++ leBytes 2 m.status.toNat ++
  leBytes 2 m.rspLen.toNat ++ [m.state, m.srcIf, 0, 0] ++ leBytes 4 m.detail.toNat ++ leBytes 4 m.cmdSeq.toNat ++
  leBytes 4 m.elapsed.toNat ++ [0, 0, 0, 0]

/-- Byte `o` of a mailbox. -/
def mbxByte (m : Mailbox) (o : Nat) : Byte := if o < 32 then (mbxHeader m).getD o 0 else memGet m.payload (o - 32)

/-- Bytes of a list replaced from offset `off`. -/
def patchBytes (l : List Byte) (off : Nat) (data : List Byte) : List Byte :=
  (List.range l.length).map (fun i => if off ≤ i && i < off + data.length then data.getD (i - off) 0 else l.getD i 0)

/-- Bytes of a mailbox as a host writes them: OPCODE, TAG, REQ_LEN and the payload (R545). -/
def mbxStore (off : Nat) (data : List Byte) (m : Mailbox) : Mailbox :=
  if 32 ≤ off then { m with payload := memWrite m.payload (off - 32) data }
  else
    let h := patchBytes (mbxHeader m) off data
    { m with opcode := BitVec.ofNat 16 (fieldAt h 0 2), tag := BitVec.ofNat 16 (fieldAt h 2 2),
             reqLen := BitVec.ofNat 16 (fieldAt h 4 2) }

/-- R551: a write to a mailbox, discarded and counted while RING reads 1. A pair writes none (R582). -/
def mbxWrite (i : Iface) (n off : Nat) (data : List Byte) (s : State) : State :=
  if isPair i then s
  else if (mbxOf s n).ring then modCmd (fun c => { c with ctr := ctrInc c.ctr 1 }) s
  else modMbx n (mbxStore off data) s

/-- R547: a read of MBX_LOCKn. -/
def lockRead (i : Iface) (n : Nat) (s : State) : Nat × State :=
  match (mbxOf s n).lock with
  | some o => (o.toNat + 2 ^ 31, s)
  | none => (0, if isPair i then s else modMbx n (fun m => { m with lock := some (ownerTag i s) }) s)

/-- R547: a write of MBX_LOCKn. -/
def lockWrite (i : Iface) (n v : Nat) (s : State) : State :=
  if v = 0 && !isPair i && (mbxOf s n).lock == some (ownerTag i s) then modMbx n (fun m => { m with lock := none }) s else s

/-- MBX_DBn as it reads. -/
def doorbellBits (m : Mailbox) : Nat :=
  packFields [(0, 1, b2n m.ring), (1, 1, b2n m.done), (2, 1, b2n m.refused), (7, 1, b2n m.irqEn), (8, 5, m.vector.toNat)]

/-- A bit of every mailbox, mailbox n in bit n. -/
def mbxBits (f : Mailbox → Bool) (s : State) : Nat := packFields ((List.range 8).map (fun n => (n, 1, b2n (f (mbxOf s n)))))

/-- A doorbell register read. -/
def doorbellRead (i : Iface) (off : Nat) (s : State) : Nat × State :=
  let rc (k : Nat) : Nat × State :=
    ((ctrGet s.cmd.ctr k).n.toNat, modCmd (fun c => { c with ctr := updAt c.ctr k (fun _ => Sat.zero) }) s)
  if off < 0x20 then (doorbellBits (mbxOf s (off / 4)), s)
  else if off = 0x20 then (mbxBits Mailbox.ring s + 256 * mbxBits Mailbox.done s, s)
  else if off = 0x24 then rc 0
  else if off = 0x28 then rc 1
  else if off = 0x2C then (ovfBits s.cmd.ctr, s)
  else if 0x40 ≤ off && off < 0x60 then lockRead i ((off - 0x40) / 4) s
  else (0, s)

/-! ## Event queue (R565, R585–R588) -/

/-- R586, R588: a write of EVQ_RD. -/
def evqRdWrite (i : Iface) (v : Nat) (s : State) : State :=
  let c := s.cmd
  let new := BitVec.ofNat 10 v
  if isPair i || (c.wr - c.rd).toNat < (c.wr - new).toNat then modCmd (fun c => { c with rdErr := true }) s
  else
    let s1 := modCmd (fun c => { c with rd := new }) s
    if c.evqIrqEn && c.wr ≠ new then raiseQueue s1 else s1

/-- An event-queue control register read. -/
def evqRead (off : Nat) (s : State) : Nat × State :=
  let c := s.cmd
  match off with
  | 0x00 => (c.wr.toNat, s)
  | 0x04 => (c.rd.toNat, s)
  | 0x08 => (c.lost.n.toNat, modCmd (fun c => { c with lost := Sat.zero }) s)
  | 0x0C => (packFields [(0, 5, c.evqVector.toNat), (7, 1, b2n c.evqIrqEn), (8, 8, c.evqHold.toNat), (16, 10, c.evqThresh.toNat)], s)
  | 0x10 => (c.evSeq.toNat, s)
  | 0x14 => (unread c, s)
  | 0x18 => (b2n c.lost.ovf + 2 * b2n c.rdErr + 4 * b2n (queueFull c), s)
  | _ => (0, s)

/-- An event-queue control register written. -/
def evqWrite (i : Iface) (off v : Nat) (s : State) : State :=
  if off = 0x04 then evqRdWrite i v s
  else if isPair i then s
  else if off = 0x0C then
    modCmd (fun c => { c with evqVector := BitVec.ofNat 5 v, evqIrqEn := v.testBit 7, evqHold := BitVec.ofNat 8 (v / 256),
                              evqThresh := BitVec.ofNat 10 (v / 65536) }) s
  else if off = 0x18 then modCmd (fun c => { c with rdErr := c.rdErr && !(v.testBit 1) }) s
  else s

/-- The bytes of the event ring from offset `off`; an entry never written reads 0. -/
def eventRingBytes (off n : Nat) (s : State) : List Byte :=
  (List.range n).map (fun k =>
    match tblGet s.cmd.ring ((off + k) / 32) with
    | some e => (eventBytes e).getD ((off + k) % 32) 0
    | none => 0)

/-- R588: the timed raise of the queue's vector. -/
def holdTimeout (s : State) : State :=
  let c := s.cmd
  if c.evqIrqEn && c.evqHold ≠ 0 && 0 < unread c && unread c < threshOf c then
    match tblGet c.ring c.rd.toNat with
    | some e => if !e.raised && e.clk + usT (10 * c.evqHold.toNat) ≤ s.clk then raiseQueue s else s
    | none => s
  else s

/-! ## Multi-register values (R11, R12) -/

/-- A register of a multi-register value: the lowest one latches the others for the reader, and the others return what
was latched. `base` is the lowest register's address, `words` the value's registers. -/
def multiRead (i : Iface) (base off : Nat) (words : List Nat) (s : State) : Nat × State :=
  if off = 0 then (words.getD 0 0, latchShadow i base ((words.drop 1).flatMap (leBytes 4)) s)
  else (fieldAt (shadowOf i base s) (off - 4) 4, s)

/-- A time unit register read. -/
def ttsRead (i : Iface) (off : Nat) (s : State) : Nat × State :=
  let w := ttsWords s
  let multi (b n : Nat) : Nat × State := multiRead i (0x400000 + b) (off - b) ((w.drop (b / 4)).take n) s
  if off < 0x10 then multi 0 4
  else if 0x24 ≤ off && off < 0x34 then
    (w.getD (off / 4) 0, modTime (fun t => { t with ctr := updAt t.ctr ((off - 0x24) / 4) (fun _ => Sat.zero) }) s)
  else if 0x40 ≤ off && off < 0x7C && off % 16 ≠ 12 then multi (off / 16 * 16) 3
  else (w.getD (off / 4) 0, s)

/-- A timed I/O register read. -/
def tioRead (i : Iface) (n off : Nat) (s : State) : Nat × State :=
  let t := tioOf s n
  let base := 0x410000 + 0x100 * n
  if 0x04 ≤ off && off < 0x14 then multiRead i (base + 4) (off - 4) ((List.range 4).map (fun k => tioRegRead t (4 + 4 * k))) s
  else if 0x14 ≤ off && off < 0x1C then multiRead i (base + 0x14) (off - 0x14) [tioRegRead t 0x14, tioRegRead t 0x18] s
  else if off = 0x30 then tioCapTake n i s
  else if 0x34 ≤ off && off < 0x40 then (fieldAt (shadowOf i (base + 0x30) s) (off - 0x34) 4, s)
  else (tioRegRead t off, modTio n (tioReadClear off) s)

/-- A channel's register read, with what the read does: RC fields clear, word 0 of an object latches it (R415). -/
def canReadFull (i : Iface) (c off : Nat) (s : State) : Nat × State :=
  match canSlotAt off with
  | some (o, 0) => (canRead c i off s, canLatch c o i s)
  | _ => (canRead c i off s, canReadClear c off s)

/-- The complete snapshots at this moment (R597). -/
def summariesNow (s : State) : List (List Byte) := if s.summariesAt ≤ s.clk then s.summariesNew else s.summaries

/-- A summary register read: CYCLE latches the whole summary (R598). -/
def summaryRead (i : Iface) (j off : Nat) (s : State) : Nat × State :=
  let b := (summariesNow s).getD j []
  let base := 0x600000 + 0x1000 * j
  if off = 0 then (fieldAt b 0 4, latchShadow i base (b.drop 4) s)
  else (fieldAt (shadowOf i base s) (off - 4) 4, s)

/-! ## The address map (R580) -/

/-- How a block takes accesses: bytes of any width (R9), whole entries of the event ring (R583), registers (R7), or
nothing there (R581). -/
inductive BlockKind where
  | bytes
  | ring
  | regs
  | none_
  deriving DecidableEq, Repr

/-- The block at an address. -/
def blockAt (a : Nat) : BlockKind :=
  if a < 0x8000 then .bytes
  else if a < 0x8060 then .regs
  else if a < 0x100000 then .none_
  else if a < 0x108000 then .ring
  else if a < 0x108020 then .regs
  else if a < 0x200000 then .none_
  else if a < 0x220000 then .bytes
  else if a < 0x221000 then .regs
  else if a < 0x400000 then .none_
  else if a < 0x400080 then .regs
  else if a < 0x410000 then .none_
  else if a < 0x410600 then .regs
  else if a < 0x500000 then .none_
  else if a < 0x5C0000 then .regs
  else if a < 0x600000 then .none_
  else if a < 0x605000 then .regs
  else if a < 0x700000 then .none_
  else if a < 0x700080 then .bytes
  else if a < 0x800000 then .none_
  else if a < 0x1000000 then .bytes
  else .none_

/-- `n` bytes of the ring page shown, from an offset in the cask window (R311). -/
def caskBytes (off n : Nat) (s : State) : List Byte := memRead s.flow.rec_.ring (s.flow.rec_.page * 0x800000 + off) n

/-- Bytes of the blocks that take every width. -/
def bytesRead (a n : Nat) (s : State) : List Byte :=
  if a < 0x8000 then (List.range n).map (fun k => mbxByte (mbxOf s (a / 0x1000)) (a % 0x1000 + k))
  else if a < 0x210000 then nextWindow s (a - 0x200000) n
  else if a < 0x220000 then currentWindow s (a - 0x210000) n
  else if a < 0x800000 then caskBytes ((a - 0x700000) / 16 * 0x100000 + 0xFFFF0 + a % 16) n s
  else caskBytes (a - 0x800000) n s

/-- A write to those blocks: the mailboxes and the next window; every other one is read-only. -/
def bytesWrite (i : Iface) (a : Nat) (data : List Byte) (s : State) : State :=
  if a < 0x8000 then mbxWrite i (a / 0x1000) (a % 0x1000) data s
  else if a < 0x210000 then nextWindowWrite i (a - 0x200000) data s
  else s

/-- A 32-bit register read with its effect. -/
def regRead (i : Iface) (a : Nat) (s : State) : Nat × State :=
  if a < 0x8060 then doorbellRead i (a - 0x8000) s
  else if a < 0x108020 then evqRead (a - 0x108000) s
  else if a < 0x221000 then pdiRead (a - 0x220000) s
  else if a < 0x400080 then ttsRead i (a - 0x400000) s
  else if a < 0x410600 then tioRead i ((a - 0x410000) / 0x100) ((a - 0x410000) % 0x100) s
  else if a < 0x5C0000 then canReadFull i ((a - 0x500000) / 0x10000) ((a - 0x500000) % 0x10000) s
  else summaryRead i ((a - 0x600000) / 0x1000) ((a - 0x600000) % 0x1000) s

/-- A 32-bit register write. Of a pair's writes only those to PDI_RELEASE, timed I/O and CAN have an effect, and one to
EVQ_RD marks RD_ERR (R582, R586). -/
def regWrite (i : Iface) (a v : Nat) (s : State) : State :=
  if a < 0x8020 then (if isPair i then s else doorbellWrite (Fin.ofNat 8 ((a - 0x8000) / 4)) i v s)
  else if a < 0x8040 then s
  else if a < 0x8060 then lockWrite i ((a - 0x8040) / 4) v s
  else if a < 0x108020 then evqWrite i (a - 0x108000) v s
  else if a < 0x221000 then pdiWrite i (a - 0x220000) v s
  else if a < 0x400080 then s
  else if a < 0x410600 then
    let n := (a - 0x410000) / 0x100
    let off := (a - 0x410000) % 0x100
    if off = 0 then tioCtrlWrite n v s else modTio n (tioRegWrite off v) s
  else if a < 0x5C0000 then canWrite ((a - 0x500000) / 0x10000) ((a - 0x500000) % 0x10000) (BitVec.ofNat 32 v) s
  else s

/-- An access is aligned to its own width, which is 8, 16, 32 or 64 bits (R713). -/
def widthOk (a n : Nat) : Bool := (n == 1 || n == 2 || n == 4 || n == 8) && a % n == 0

/-- A read of `n` bytes of BAR0 by a party (R7–R9, R581, R583, R712, R713). -/
def busRead (i : Iface) (a n : Nat) (s : State) : List Byte × State :=
  if !widthOk a n then (List.replicate n 0, s)
  else match blockAt a with
    | .bytes => (bytesRead a n s, s)
    | .ring => (if 4 ≤ n then eventRingBytes (a - 0x100000) n s else List.replicate n 0, s)
    | .none_ => (List.replicate n 0, s)
    | .regs =>
      let x := regRead i (a / 4 * 4) s
      if n = 8 then
        let y := regRead i (a + 4) x.2
        (leBytes 4 x.1 ++ leBytes 4 y.1, y.2)
      else (((leBytes 4 x.1).drop (a % 4)).take n, x.2)

/-- A write to BAR0 by a party. -/
def busWrite (i : Iface) (a : Nat) (data : List Byte) (s : State) : State :=
  let n := data.length
  if !widthOk a n then s
  else match blockAt a with
    | .bytes => bytesWrite i a data s
    | .ring => s
    | .none_ => s
    | .regs =>
      if n = 4 then regWrite i a (leNat data) s
      else if n = 8 then regWrite i (a + 4) (leNat (data.drop 4)) (regWrite i a (leNat (data.take 4)) s)
      else s

/-- A request of whole dwords carried out as the aligned 64-bit and 32-bit accesses it contains, in ascending order
(R712). -/
def busReads (i : Iface) : Nat → Nat → Nat → State → List Byte × State
  | 0, _, _, s => ([], s)
  | f + 1, a, n, s =>
    if n = 0 then ([], s)
    else
      let k := if a % 8 = 0 && 8 ≤ n then 8 else 4
      let x := busRead i a k s
      let y := busReads i f (a + k) (n - k) x.2
      (x.1 ++ y.1, y.2)

/-- The same for a write. -/
def busWrites (i : Iface) : Nat → Nat → List Byte → State → State
  | 0, _, _, s => s
  | f + 1, a, data, s =>
    if data.isEmpty then s
    else
      let k := if a % 8 = 0 && 8 ≤ data.length then 8 else 4
      busWrites i f (a + k) (data.drop k) (busWrite i a (data.take k) s)

/-! ## Commands -/

/-- A read as a command: its data is returned. -/
def readAccess (dt : Nat) (src : Iface) (a n : Nat) (s : State) : State :=
  accessBy src a n none (fun s => let x := busRead src a n s; emit (.readData src x.1) x.2) (begin_ dt s)

/-- A write as a command. -/
def writeAccess (dt : Nat) (src : Iface) (a : Nat) (data : List Byte) (s : State) : State :=
  accessBy src a data.length (some data) (busWrite src a data) (begin_ dt s)

/-- MAILBOX_WRITE (R549, R551). -/
def execMailboxWrite (dt : Nat) (src : Iface) (mbx : Fin 8) (off : Nat) (data : List Byte) (s : State) :
    Host.Outcome State Fault Refusal := .next (writeAccess dt src (0x1000 * mbx.val + off % 0x1000) data s)

/-- MBX_LOCK_READ (R547). -/
def execMbxLockRead (dt : Nat) (src : Iface) (mbx : Fin 8) (s : State) : Host.Outcome State Fault Refusal :=
  .next (readAccess dt src (0x8040 + 4 * mbx.val) 4 s)

/-- MBX_LOCK_WRITE (R547). -/
def execMbxLockWrite (dt : Nat) (src : Iface) (mbx : Fin 8) (value : BitVec 32) (s : State) :
    Host.Outcome State Fault Refusal := .next (hostAccess dt src (0x8040 + 4 * mbx.val) (some value)
      (lockWrite src mbx.val value.toNat) s)

/-- EVQ_RD_WRITE (R586, R588). -/
def execEvqRdWrite (dt : Nat) (src : Iface) (value : BitVec 32) (s : State) : Host.Outcome State Fault Refusal :=
  .next (hostAccess dt src 0x108004 (some value) (evqRdWrite src value.toNat) s)

/-- EVQ_HOLD_TIMEOUT (R588). -/
def execEvqHoldTimeout (dt : Nat) (s : State) : Host.Outcome State Fault Refusal := .next (holdTimeout (begin_ dt s))

/-- NEXT_WINDOW_WRITE (R264, R269, R273, R370). -/
def execNextWindowWrite (dt : Nat) (src : Iface) (off : Nat) (data : List Byte) (s : State) :
    Host.Outcome State Fault Refusal := .next (writeAccess dt src (0x200000 + off % 0x10000) data s)

/-- CURRENT_WINDOW_WRITE (R265). -/
def execCurrentWindowWrite (dt : Nat) (src : Iface) (off : Nat) (data : List Byte) (s : State) :
    Host.Outcome State Fault Refusal := .next (writeAccess dt src (0x210000 + off % 0x10000) data s)

/-- PDI_RELEASE_HOST (R591). -/
def execPdiReleaseHost (dt : Nat) (src : Iface) (value : BitVec 32) (s : State) : Host.Outcome State Fault Refusal :=
  .next (hostAccess dt src 0x220000 (some value) (pdiReleaseWrite src value.toNat) s)

/-- PDI_RELEASE_PAIR (R591). -/
def execPdiReleasePair (dt : Nat) (l : Fin 4) (value : BitVec 32) (s : State) : Host.Outcome State Fault Refusal :=
  .next (hostAccess dt (.pair l) 0x220000 (some value) (pdiReleaseWrite (.pair l) value.toNat) s)

/-- PDI_REL_MASK_WRITE (R594). -/
def execPdiRelMaskWrite (dt : Nat) (src : Iface) (value : BitVec 32) (s : State) : Host.Outcome State Fault Refusal :=
  .next (hostAccess dt src 0x220004 (some value) (pdiMaskWrite src value.toNat) s)

end Sys2Proof.Machine
end

