-- ==== Sys2Proof/Machine/Bridge.lean ====
section
/-! DEFINITION. The host bridge (R520–R544): remote windows, the remote-transfer engine, crossings, locked sequences and
the bridge registers. -/

namespace Sys2Proof.Machine

/-! ## Frames on their way -/

/-- Length of a bridge frame on the trunk: a management-class frame (R528). -/
def bridgeLen (b : BridgeFrame) : Nat := controlLen (bridgeBytes b).length

/-- A bridge frame sent towards its node (R528): within the vehicle over the fabric as CLASS 0, otherwise over the trunk,
from an attached node through the Active twin. None without a route. -/
def bridgeRoute (resp : Bool) (b : BridgeFrame) (s : State) : Option State :=
  let slot := b.dst.toNat % 16
  if b.dst.toNat / 16 = position s then (fabRoute s slot).map (fun _ => fabOriginate slot 0 (.bridge resp b) s)
  else if s.fab.attached then (fabRoute s (fabTrunkSlot s)).map (fun _ => fabOriginate 0x10 0 (.bridge resp b) s)
  else if (trainPorts s).isEmpty then none
  else some (mgmtSend (trainPorts s) (.bridge resp b) (bridgeLen b) s)

/-- An address is this node's own. -/
def ownAddr (a : BitVec 10) (s : State) : Bool := a == s.ina.addr || a.toNat == 16 * position s + fabSlot s

/-! ## Outbound transfers -/

/-- A frame for an operation of this node. -/
def bridgeFrame (op : Nat) (w : Window) (target : BitVec 10) (addr len : Nat) (data : List Byte) (s : State) : BridgeFrame where
  tag := s.bridge.nextTag
  op := BitVec.ofNat 8 op
  status := 0
  initUid := s.sys.uid
  initAddr := s.ina.addr
  dst := target
  gen := s.ina.gen
  len := len
  addr := BitVec.ofNat 32 addr
  sem := match w.guard_ with | some g => BitVec.ofNat 8 g.val | none => 0xFF
  reissue := false
  data := data

/-- A remote window. -/
def windowOf (s : State) (w : Nat) : Window :=
  s.bridge.windows.getD w { mode := 0, addr := 0, vid := 0, slot := 0, base := 0, rd := false, wr := false, guard_ := none }

/-- Why a window cannot carry an operation (R537): 1 no route, 2 not allowed, 4 no target; 0 when it can. -/
def windowFault (op : Nat) (w : Window) (s : State) : Nat :=
  if w.mode = 0 then 1
  else if (op = 1 && !w.rd) || (op = 2 && !w.wr) then 2
  else if (windowTarget s w).isNone then 4
  else 0

/-- A transfer through window `w`, with the next tag. -/
def newOutbound (op : Nat) (src : Iface) (w : Fin 8) (off len : Nat) (data : List Byte) (s : State) : Outbound × State :=
  let win := windowOf s w.val
  let t := (windowTarget s win).getD 0
  ({ frame := bridgeFrame op win t (win.base.toNat + off) len data s, window := some w, through := win, src := src,
     target := t,
     targetUid := uidOfAddr s t, sends := 0, startClk := s.clk, sentClk := s.clk, busy := false },
   modBridge (fun b => { b with nextTag := b.nextTag + 1 }) s)

/-- A transfer sent, or sent again. -/
def sendOutbound (o : Outbound) (s : State) : Option (Outbound × State) :=
  let o1 := { o with sends := o.sends + 1, sentClk := s.clk, busy := false,
                     frame := { o.frame with gen := s.ina.gen, initAddr := s.ina.addr, dst := o.target } }
  (bridgeRoute false o1.frame s).map (fun s1 => (o1, s1))

/-- The data of a remote read reaches its initiator: the local bus fetches it, PCI Express gets its completion, which
PERST_L low discards (R531, R684). -/
def readDone (o : Outbound) (data : List Byte) (s : State) : State :=
  match o.src with
  | .lb => modBridge (fun b => { b with fetch := b.fetch.map (fun x => (x.1, x.2.1, some data)), fetchClk := s.clk }) s
  | _ => if s.sys.perst then s else emit (.readData .pcie data) s

/-- A transfer ends with an error (R531, R537): a read completes with all ones, a write is logged, a semaphore operation
is dropped. -/
def failOutbound (code : Nat) (o : Outbound) (s : State) : State :=
  if o.frame.op = 1 then
    readDone o (List.replicate o.frame.len 0xFF)
      (bridgeCount 0 (modBridge (fun b => { b with
        rdErr := BitVec.ofNat 8 code, rdErrWin := BitVec.ofNat 3 (match o.window with | some w => w.val | none => 0) }) s))
  else if o.frame.op = 2 then pwFail code o s
  else s

/-! ## Posted writes (R532) -/

/-- Window `w`'s first posted write leaves when it has not been sent; one without a route fails and the next follows. -/
def sendPosted : Nat → Nat → State → State
  | 0, _, s => s
  | n + 1, w, s =>
    match s.bridge.posted.find? (fun o => o.window.map Fin.val == some w) with
    | none => s
    | some o =>
      if o.sends ≠ 0 then s
      else match sendOutbound o s with
        | some (o1, s1) => modBridge (fun b => { b with posted := b.posted.map (fun x => if x = o then o1 else x) }) s1
        | none => sendPosted n w (failOutbound 1 o (modBridge (fun b => { b with posted := b.posted.erase o }) s))

/-- Every window's. -/
def sendAllPosted (s : State) : State :=
  forEach (List.range 8) (fun w s => sendPosted (s.bridge.posted.length + 1) w s) s

/-! ## Inbound requests (R527, R529, R535, R536) -/

/-- The answer to a request, kept for a repeat of its tag unless it is BUSY (R529). -/
def bridgeAnswer (status : Nat) (data : List Byte) (r : BridgeFrame) (s : State) : State :=
  let f := { r with status := BitVec.ofNat 8 status, data := data, dst := r.initAddr, gen := s.ina.gen }
  let mine := s.bridge.store.filter (fun e => e.1 = r.initUid)
  let rest := s.bridge.store.filter (fun e => e.1 ≠ r.initUid)
  let s1 := if status = 0x80 then s
    else modBridge (fun b => { b with store := rest ++ keepLast 32 (mine ++ [(r.initUid, r.tag, f)]) }) s
  (bridgeRoute true f s1).getD s1

/-- The initiator of a request as a party. -/
def initiator (r : BridgeFrame) : Iface := .remote r.initAddr r.initUid

/-- The semaphore a request names is held by another (R536). -/
def semBusy (r : BridgeFrame) (s : State) : Bool :=
  match semOf s r.sem.toNat with
  | some x => r.sem.toNat < 32 && !semOwned (initiator r) x s
  | none => false

/-- The request lies within the granted granules and in whole dwords (R527, R528). -/
def requestAllowed (r : BridgeFrame) (s : State) : Bool :=
  let a := r.addr.toNat
  a % 4 = 0 && r.len % 4 = 0 && 4 ≤ r.len && r.len ≤ 256 && reaches (initiator r) a s && reaches (initiator r) (a + r.len - 1) s

/-- A request carried out and answered; `bad`: it meets an uncorrectable memory error (R537). -/
def bridgeServe (bad : Bool) (r : BridgeFrame) (s : State) : State :=
  if r.op ≠ 4 && semBusy r s then bridgeAnswer 0x80 [] r s
  else if r.op = 1 then
    if !(requestAllowed r s) then bridgeAnswer 2 [] r s
    else if bad then bridgeAnswer 5 [] r s
    else
      let x := busReads (initiator r) (r.len / 4 + 1) r.addr.toNat r.len s
      bridgeAnswer 0 x.1 r x.2
  else if r.op = 2 then
    if !(requestAllowed r s) || r.data.length ≠ r.len then bridgeAnswer 2 [] r s
    else if bad then bridgeAnswer 5 [] r s
    else bridgeAnswer 0 [] r (busWrites (initiator r) (r.len / 4 + 1) r.addr.toNat r.data s)
  else if r.op = 3 then
    if 32 ≤ r.sem.toNat then bridgeAnswer 2 [] r s
    else if (semOf s r.sem.toNat).isSome then bridgeAnswer 0 [] r s
    else bridgeAnswer 0 [] r (semTake (initiator r) r.sem.toNat s)
  else if r.op = 4 then bridgeAnswer 0 [] r (semWrite (initiator r) r.sem.toNat 0 s)
  else s

/-! ## The engine (R530, R534) -/

/-- A read waits for the earlier writes of its window (R532). -/
def readBlocked (o : Outbound) (s : State) : Bool :=
  o.frame.op = 1 && s.bridge.posted.any (fun p => p.window == o.window && p.startClk ≤ o.startClk)

/-- A transfer takes the engine. -/
def startOutbound (o : Outbound) (s : State) : State :=
  match sendOutbound o s with
  | some (o1, s1) => modBridge (fun b => { b with out := some o1 }) s1
  | none => failOutbound 1 o s

/-- The free engine takes what arrived first: a waiting request, or a waiting transfer of its own. -/
def bridgePump : Nat → State → State
  | 0, s => s
  | n + 1, s =>
    if s.bridge.out.isSome then s
    else match s.bridge.inq, s.bridge.waiting.find? (fun o => !readBlocked o s) with
      | (r, c, bad) :: rest, some o =>
        if c ≤ o.startClk then bridgePump n (bridgeServe bad r (modBridge (fun b => { b with inq := rest }) s))
        else bridgePump n (startOutbound o (modBridge (fun b => { b with waiting := b.waiting.erase o }) s))
      | (r, _, bad) :: rest, none => bridgePump n (bridgeServe bad r (modBridge (fun b => { b with inq := rest }) s))
      | [], some o => bridgePump n (startOutbound o (modBridge (fun b => { b with waiting := b.waiting.erase o }) s))
      | [], none => s

/-- Everything that can go on goes on. -/
def bridgeRun (s : State) : State :=
  let s1 := sendAllPosted s
  bridgePump (s1.bridge.inq.length + s1.bridge.waiting.length + 1) s1

/-- A transfer of this node waits for the engine. -/
def enqueueOutbound (o : Outbound) (s : State) : State :=
  bridgeRun (modBridge (fun b => { b with waiting := b.waiting ++ [o] }) s)

/-- The target of an outbound transfer is the initiator of a request: a crossing (R534). -/
def crosses (o : Outbound) (r : BridgeFrame) : Bool := o.target == r.initAddr && (o.targetUid == 0 || o.targetUid == r.initUid)

/-- R534: this bridge yields. -/
def yields (o : Outbound) (r : BridgeFrame) (s : State) : Bool :=
  if o.frame.reissue != r.reissue then !o.frame.reissue
  else if s.ina.addr.toNat / 16 = 0 || r.initAddr.toNat / 16 = 0 then r.initUid < s.sys.uid
  else r.initAddr < s.ina.addr

/-- R534: withdraw, serve the request, and re-issue the transfer under a new tag. -/
def yieldCrossing (bad : Bool) (o : Outbound) (r : BridgeFrame) (s : State) : State :=
  let w := { o.frame with op := 5, data := [] }
  let s1 := (bridgeRoute false w s).getD s
  let s2 := bridgeServe bad r (modBridge (fun b => { b with out := none }) s1)
  let o1 := { o with sends := 0, frame := { o.frame with tag := s2.bridge.nextTag, reissue := true } }
  startOutbound o1 (modBridge (fun b => { b with nextTag := b.nextTag + 1 }) s2)

/-- The node answers requests: step 0x2 of its start has ended and no reset is under way (R703). -/
def bridgeReady (s : State) : Bool := 3 ≤ s.sys.step && !s.sys.resetHold && !s.sys.heldInReset

/-- R534: a withdraw removes the request it names. -/
def withdrawIn (r : BridgeFrame) (s : State) : State :=
  modBridge (fun b => { b with inq := b.inq.filter (fun e => !(e.1.initUid == r.initUid && e.1.tag == r.tag)) }) s

/-- A request for this node: a withdraw at once; error 0x06 while the node is in reset, the stored answer for a repeated
tag, a write at once, and a non-posted one by the engine (R529, R530, R534, R703). -/
def requestIn (bad : Bool) (r : BridgeFrame) (s : State) : State :=
  if r.op = 5 then withdrawIn r s
  else if !bridgeReady s then (bridgeRoute true { r with status := 6, data := [], dst := r.initAddr } s).getD s
  else match s.bridge.store.find? (fun e => e.1 == r.initUid && e.2.1 == r.tag) with
    | some e => (bridgeRoute true e.2.2 s).getD s
    | none =>
      if r.op = 2 then bridgeServe bad r s
      else if s.bridge.inq.any (fun e => e.1.initUid == r.initUid && e.1.tag == r.tag) then s
      else match s.bridge.out with
        | none => bridgeServe bad r s
        | some o =>
          if crosses o r && yields o r s then bridgeRun (yieldCrossing bad o r s)
          else if 16 ≤ s.bridge.inq.length then bridgeAnswer 0x80 [] r s
          else modBridge (fun b => { b with inq := b.inq ++ [(r, s.clk, bad)] }) s

/-! ## Locked sequences (R536) -/

/-- A semaphore operation on the guard of window `w` at its target. -/
def semOperation (op : Nat) (w : Fin 8) (s : State) : State :=
  if windowFault op (windowOf s w.val) s ≠ 0 then s
  else
    let x := newOutbound op .lb w 0 4 [] s
    enqueueOutbound x.1 x.2

/-- The guard semaphore has been acquired; when its sequence is over already, it is released again. -/
def lockAcquired (w : Option (Fin 8)) (s : State) : State :=
  match s.bridge.lock, w with
  | some (v, false), some u =>
    if v = u then modBridge (fun b => { b with lock := some (v, true) }) s else semOperation 4 u s
  | none, some u => semOperation 4 u s
  | _, _ => s

/-- An acquisition is on its way. -/
def acquiringLock (s : State) : Bool :=
  (match s.bridge.out with | some o => o.frame.op == 3 | none => false) || s.bridge.waiting.any (fun o => o.frame.op == 3)

/-- R536: the end of a locked sequence releases the semaphore that is held. -/
def lockEnd (s : State) : State :=
  match s.bridge.lock with
  | some (w, held) =>
    let s1 := modBridge (fun b => { b with lock := none }) s
    if held then semOperation 4 w s1 else s1
  | none => s

/-! ## Responses (R529, R531, R537) -/

/-- A response for the transfer in the engine. -/
def responseOut (o : Outbound) (r : BridgeFrame) (s : State) : State :=
  let free (s : State) : State := modBridge (fun b => { b with out := none }) s
  if r.status = 0x80 then modBridge (fun b => { b with out := some { o with busy := true, sentClk := s.clk } }) s
  else if r.status ≠ 0 then bridgeRun (failOutbound r.status.toNat o (free s))
  else if o.frame.op = 1 then bridgeRun (readDone o r.data (free s))
  else if o.frame.op = 3 then bridgeRun (lockAcquired o.window (free s))
  else bridgeRun (free s)

/-- A response for a posted write. -/
def responsePosted (o : Outbound) (r : BridgeFrame) (s : State) : State :=
  if r.status = 0x80 then
    modBridge (fun b => { b with posted := b.posted.map (fun x => if x = o then { o with busy := true, sentClk := s.clk } else x) }) s
  else
    let s1 := modBridge (fun b => { b with posted := b.posted.erase o }) s
    bridgeRun (if r.status ≠ 0 then pwFail r.status.toNat o s1 else s1)

/-- A response for this node. -/
def responseIn (r : BridgeFrame) (s : State) : State :=
  match s.bridge.out, s.bridge.posted.find? (fun o => o.frame.tag == r.tag && o.sends ≠ 0) with
  | some o, p =>
    if o.frame.tag = r.tag then responseOut o r s
    else match p with
      | some q => responsePosted q r s
      | none => s
  | none, some q => responsePosted q r s
  | none, none => s

/-- A bridge frame on a trunk port goes on (R37, R185). -/
def bridgePass (p : Option (Fin 4)) (resp : Bool) (r : BridgeFrame) (s : State) : State :=
  match p with
  | some p => forwardLen p.val (.bridge resp r) (bridgeLen r) s
  | none => s

/-- A bridge frame that is not for this node (R528): the Active twin takes one from the trunk for its own vehicle into the
fabric, any other one on the trunk goes on, and a twin sends what the fabric brings it on its way (R513). -/
def bridgeOther (p : Option (Fin 4)) (resp : Bool) (r : BridgeFrame) (s : State) : State :=
  if (match p with | some _ => fabActiveTwin s && r.dst.toNat / 16 == position s | none => !s.fab.attached) then
    (bridgeRoute resp r s).getD s
  else bridgePass p resp r s

/-- A bridge frame that reaches this node. -/
def bridgeFrameIn (p : Option (Fin 4)) (resp bad : Bool) (r : BridgeFrame) (s : State) : State :=
  if ownAddr r.dst s then
    (if resp then (if r.initUid = s.sys.uid then responseIn r s else s) else requestIn bad r s)
  else bridgeOther p resp r s

/-- A bridge frame from the trunk, which R185 may discard and pass on, or from the fabric. -/
def bridgeRx (p : Option (Fin 4)) (resp bad : Bool) (r : BridgeFrame) (s : State) : State :=
  if !s.sys.powered || keptOut (p.map (fun p => p.val)) s then s
  else if (p.map (fun p => straysNow p.val s)).getD false then bridgePass p resp r (schedCount 9 s)
  else bridgeFrameIn p resp bad r s

/-! ## Timers (R529, R531, R536) -/

/-- The transfer of a tag sent again under its tag, or given up after the third repeat. -/
def resendOutbound (o : Outbound) (put : Outbound → State → State) (drop : State → State) (s : State) : State :=
  if o.busy || o.sends = 0 || s.clk < o.sentClk + 2 * macroT s then s
  else if o.sends < 4 then
    match sendOutbound o s with
    | some (o1, s1) => put o1 s1
    | none => put { o with sends := o.sends + 1, sentClk := s.clk } s
  else if o.frame.op = 1 then s
  else bridgeRun (failOutbound 3 o (drop s))

/-- The transfer in the engine replaced. -/
def putOut (o : Outbound) (s : State) : State := modBridge (fun b => { b with out := some o }) s

/-- The engine freed. -/
def dropOut (s : State) : State := modBridge (fun b => { b with out := none }) s

/-- A posted write replaced. -/
def putPosted (old new : Outbound) (s : State) : State :=
  modBridge (fun b => { b with posted := b.posted.map (fun x => if x = old then new else x) }) s

/-- A posted write gone. -/
def dropPosted (o : Outbound) (s : State) : State := modBridge (fun b => { b with posted := b.posted.erase o }) s

/-- R529: the retry timer of a tag. -/
def retryTimer (tag : BitVec 16) (s : State) : State :=
  let s1 := match s.bridge.out with
    | some o => if o.frame.tag = tag then resendOutbound o putOut dropOut s else s
    | none => s
  match s1.bridge.posted.find? (fun o => o.frame.tag == tag) with
  | some o => resendOutbound o (putPosted o) (dropPosted o) s1
  | none => s1

/-- A transfer has stood for REQ_TMO (R531). -/
def tmoOver (o : Outbound) (s : State) : Bool := o.startClk + msT s.fab.reqTmo ≤ s.clk

/-- R531, R537: the timeout of a tag: a read not completed, in the engine or waiting, or a posted write kept BUSY. -/
def reqTimeout (tag : BitVec 16) (s : State) : State :=
  let s1 := match s.bridge.out with
    | some o =>
      if o.frame.tag = tag && tmoOver o s && o.frame.op = 1 then bridgeRun (failOutbound (if o.busy then 7 else 3) o (dropOut s))
      else s
    | none => s
  let s2 := match s1.bridge.waiting.find? (fun o => o.frame.tag == tag && o.frame.op == 1 && tmoOver o s1) with
    | some o => failOutbound 3 o (modBridge (fun b => { b with waiting := b.waiting.erase o }) s1)
    | none => s1
  match s2.bridge.posted.find? (fun o => o.frame.tag == tag && o.busy && tmoOver o s2) with
  | some o => bridgeRun (failOutbound 7 o (dropPosted o s2))
  | none => s2

/-- R531: fetched data not collected for 100 µs is discarded. -/
def fetchStale (s : State) : State :=
  match s.bridge.fetch with
  | some (_, _, some _) =>
    if s.bridge.fetchClk + usT 100 ≤ s.clk then bridgeCount 3 (modBridge (fun b => { b with fetch := none }) s) else s
  | _ => s

/-- A transfer answered BUSY asked for again, under a new tag. -/
def askAgain (o : Outbound) (put : Outbound → State → State) (s : State) : State :=
  if !o.busy || s.clk < o.sentClk + usT 10 then s
  else
    let o1 := { o with sends := 0, frame := { o.frame with tag := s.bridge.nextTag } }
    let s1 := modBridge (fun b => { b with nextTag := b.nextTag + 1 }) s
    match sendOutbound o1 s1 with
    | some (o2, s2) => put o2 s2
    | none => put { o1 with busy := true, sentClk := s.clk } s1

/-- R536: every transfer that was answered BUSY 10 µs ago. -/
def busyRetry (s : State) : State :=
  let s1 := match s.bridge.out with
    | some o => askAgain o putOut s
    | none => s
  forEach s1.bridge.posted (fun o s => askAgain o (putPosted o) s) s1

/-- R535: a semaphore held for SEM_TMO. -/
def semTimeout (k : Nat) (s : State) : State :=
  match semOf s k with
  | some x => if x.clk + msT s.fab.semTmo ≤ s.clk then semFree k 0 s else s
  | none => s

/-! ## Host accesses to the windows (R531, R532) -/

/-- The combined-space address of a byte of window `w` (R522). -/
def windowAddr (w : Fin 8) (off : Nat) : Nat := 0x1000000 + 0x400000 * w.val + off

/-- A read through a window starts: it goes its way, or fails at once. -/
def startRead (src : Iface) (w : Fin 8) (off len : Nat) (s : State) : State :=
  let x := newOutbound 1 src w off len [] s
  let f := windowFault 1 (windowOf s w.val) s
  if f ≠ 0 then failOutbound f x.1 x.2 else enqueueOutbound x.1 x.2

/-- A larger PCI Express request as reads of at most 256 bytes. -/
def splitReads : Nat → Fin 8 → Nat → Nat → State → State
  | 0, _, _, _, s => s
  | n + 1, w, off, len, s =>
    if len = 0 then s else splitReads n w (off + min len 256) (len - min len 256) (startRead .pcie w off (min len 256) s)

/-- A 16-bit value of which the enabled bytes are shown. -/
def lbMask (be : BitVec 2) (v : Nat) : BitVec 16 :=
  BitVec.ofNat 16 ((if be.getLsbD 0 then v % 256 else 0) + (if be.getLsbD 1 then v / 256 % 256 * 256 else 0))

/-- A local-bus read of a half of a window's register (R523, R531): the high half that the access before latched, or retry
while its data is on the way, then the data, the high half latched when the low half was read. `high` is what was
latched; only the bytes of `be` are shown. -/
def lbRemoteRead (be : BitVec 2) (high : Option (Nat × BitVec 16)) (w : Fin 8) (off : Nat) (s : State) : State :=
  let key := windowAddr w off
  let retry (s : State) : State := emit (.lbAnswer false 0) s
  let start (s : State) : State :=
    match high with
    | some (r, h) =>
      if off % 4 = 2 && r + 2 = key then emit (.lbAnswer true (lbMask be h.toNat)) s
      else retry (startRead .lb w (off / 4 * 4) 4 (modBridge (fun b => { b with fetch := some (key, 4, none) }) s))
    | none => retry (startRead .lb w (off / 4 * 4) 4 (modBridge (fun b => { b with fetch := some (key, 4, none) }) s))
  match s.bridge.fetch with
  | some (a, _, some data) =>
    if a = key then
      let lo := fieldAt data 0 2
      let hi := fieldAt data 2 2
      emit (.lbAnswer true (lbMask be (if off % 4 = 0 then lo else hi)))
        (modBridge (fun b => { b with
          fetch := none, lbHigh := if off % 4 = 0 && be = 3 then some (key, BitVec.ofNat 16 hi) else none }) s)
    else retry s
  | some (_, _, none) => retry s
  | none => start s

/-- A posted write through a window: accepted, or failed at once and logged. -/
def postWrite (src : Iface) (w : Fin 8) (off : Nat) (data : List Byte) (s : State) : State :=
  let x := newOutbound 2 src w off data.length data s
  let f := windowFault 2 (windowOf s w.val) s
  if f ≠ 0 then failOutbound f x.1 x.2
  else bridgeRun (modBridge (fun b => { b with posted := b.posted ++ [x.1] }) x.2)

/-- A window access in whole dwords within a window. -/
def windowSpan (off len limit : Nat) : Bool := off % 4 = 0 && len % 4 = 0 && 4 ≤ len && len ≤ limit && off + len ≤ 0x400000

/-- A local-bus access to a window within a locked sequence or not: the acquisition first, where the window names a guard
(R536); while a fetch is pending it starts nothing (R531). -/
def lbLocked (lock : Bool) (w : Fin 8) (f : State → State) (s : State) : State :=
  let retry (s : State) : State := emit (.lbAnswer false 0) s
  if !lock || (windowOf s w.val).guard_.isNone then f s
  else match s.bridge.lock with
    | some (v, true) => if v = w then f s else retry s
    | some (v, false) => retry (if v = w && !acquiringLock s && s.bridge.fetch.isNone then semOperation 3 w s else s)
    | none =>
      retry (if s.bridge.fetch.isSome then s else semOperation 3 w (modBridge (fun b => { b with lock := some (w, false) }) s))

/-- A local-bus read of a half at an offset of window `w`, after which no other half is latched (R523). -/
def lbWindowRead (lock : Bool) (w : Fin 8) (off : Nat) (s : State) : State :=
  lbLocked lock w (lbRemoteRead 3 s.bridge.lbHigh w (off % 0x400000 / 2 * 2)) (modBridge (fun b => { b with lbHigh := none }) s)

/-- A read through a window by a host interface. -/
def windowRead (src : Iface) (w : Fin 8) (off len : Nat) (s : State) : State :=
  match src with
  | .lb => lbWindowRead false w off s
  | .pcie =>
    if windowSpan off len 512 then splitReads 2 w off len (emit .pcieHeld s)
    else emit (.readData .pcie (List.replicate len 0)) s
  | _ => s

/-- A write through a window by a host interface. -/
def windowWrite (src : Iface) (w : Fin 8) (off : Nat) (data : List Byte) (s : State) : State :=
  if !windowSpan off data.length 256 then s
  else match src with
    | .lb => if s.bridge.fetch.isSome then emit (.lbAnswer false 0) s else postWrite .lb w off data s
    | .pcie => postWrite .pcie w off data s
    | _ => s

/-! ## Generation switches and resets (R533, R535, R544) -/

/-- R533: where an outstanding transfer goes after a switch; none when it fails with error 0x04: its window goes by
address, and the address now names another node or none. One by vehicle identity whose vehicle is gone has no target left
and fails alike (DESIGN CHOICE, log 31). -/
def retarget (old : Option Directory) (o : Outbound) (s : State) : Option Outbound :=
  match windowTarget s o.through with
  | none => none
  | some a =>
    let u := uidOfAddr s a
    if o.through.mode = 1 && (targetVid old o.target ≠ targetVid s.ina.dir a ||
        (o.targetUid ≠ 0 && u ≠ 0 && u ≠ o.targetUid)) then none
    else some { o with target := a, targetUid := u }

/-- An outstanding transfer at a switch: it fails, or is sent again when it had been sent. -/
def switchOne (old : Option Directory) (put : Outbound → State → State) (drop : State → State) (o : Outbound) (s : State) : State :=
  match retarget old o s with
  | none => failOutbound 4 o (drop s)
  | some o1 =>
    if o.sends = 0 then put o1 s
    else match sendOutbound { o1 with sends := o.sends - 1 } s with
      | some (o2, s1) => put o2 s1
      | none => put o1 s

/-- R535: the owner of a semaphore has left the directory: its vehicle or its slot is no longer numbered. -/
def ownerLeft (x : Sem) (s : State) : Bool :=
  match x.ownerVid, s.ina.dir with
  | some v, some d => !(d.vehicles.any (fun r => r.vid == v && !isLegacy r && r.slots.getLsbD (x.owner.toNat % 16)))
  | _, _ => false

/-- The bridge at a generation switch, given the directory before it. -/
def bridgeSwitch (old : Option Directory) (s : State) : State :=
  let s1 := match s.bridge.out with
    | some o => switchOne old putOut dropOut o s
    | none => s
  let s2 := forEach s1.bridge.posted (fun o s => switchOne old (putPosted o) (dropPosted o) o s) s1
  let waitPut (o n : Outbound) (s : State) : State :=
    modBridge (fun b => { b with waiting := b.waiting.map (fun x => if x = o then n else x) }) s
  let waitDrop (o : Outbound) (s : State) : State := modBridge (fun b => { b with waiting := b.waiting.erase o }) s
  let s3 := forEach s2.bridge.waiting (fun o s => switchOne old (waitPut o) (waitDrop o) o s) s2
  let s4 := forEach (List.range 32) (fun k s =>
    match semOf s k with
    | some x => if ownerLeft x s then semFree k 1 s else s
    | none => s) s3
  bridgeRun s4

/-- R544: a supervisor-commanded node reset: pending reads complete with all ones and error 0x06, waiting requests are
answered with it, the semaphores of the node's own interfaces are released, and no locked sequence goes on. -/
def bridgeNodeReset (s : State) : State :=
  let reads := (match s.bridge.out with | some o => [o] | none => []) ++ s.bridge.waiting
  let s1 := modBridge (fun b => { b with out := none, waiting := [], lock := none, lbHigh := none, lbLow := none }) s
  let s2 := forEach (reads.filter (fun o => o.frame.op = 1)) (fun o s => failOutbound 6 o s) s1
  let s3 := forEach s2.bridge.inq (fun e s => bridgeAnswer 6 [] e.1 s) s2
  semOwnFree (modBridge (fun b => { b with inq := [] }) s3)

/-! ## Bridge registers (R521, R538–R540) -/

/-- R539: 1 written to a vector's bit clears it. -/
def vecPendWrite (v : BitVec 32) (s : State) : State := modBridge (fun b => { b with vecPend := b.vecPend &&& ~~~ v }) s

/-- A register of BAR4 read; the layout of the MSI-X table and the PBA is that of PCI (PRESUMED, log 29). -/
def bar4Read (i : Iface) (off : Nat) (s : State) : Nat × State :=
  if off < 0x200 then
    (if off % 16 = 12 then b2n (s.sys.msixMasked.getLsbD (off / 16)) else leNat (memRead s.sys.msixTable off 4), s)
  else if off = 0x800 then (if s.sys.msixEnabled then (s.bridge.vecPend &&& s.sys.msixMasked).toNat else 0, s)
  else if off = 0x1000 then (s.bridge.vecPend.toNat, s)
  else if 0x1004 ≤ off && off < 0x1014 then ((s.bridge.vecPin.getD ((off - 0x1004) / 4) 0).toNat, s)
  else if off = 0x1020 then
    (s.bridge.rdErr.toNat + 256 * s.bridge.rdErrWin.toNat, modBridge (fun b => { b with rdErr := 0, rdErrWin := 0 }) s)
  else if 0x1100 ≤ off && off < 0x1180 then semRead i ((off - 0x1100) / 4) s
  else (0, s)

/-- A register of BAR4 written. -/
def bar4Write (i : Iface) (off v : Nat) (s : State) : State :=
  if off < 0x200 then
    (if off % 16 = 12 then
       { s with sys := { s.sys with msixMasked :=
           (s.sys.msixMasked &&& ~~~ (1#32 <<< (off / 16))) ||| (BitVec.ofNat 32 (v % 2) <<< (off / 16)) } }
     else { s with sys := { s.sys with msixTable := memWrite s.sys.msixTable off (leBytes 4 v) } })
  else if off = 0x1000 then vecPendWrite (BitVec.ofNat 32 v) s
  else if 0x1004 ≤ off && off < 0x1014 then
    modBridge (fun b => { b with vecPin := updAt b.vecPin ((off - 0x1004) / 4) (fun _ => BitVec.ofNat 32 v) }) s
  else if 0x1100 ≤ off && off < 0x1180 then semWrite i ((off - 0x1100) / 4) v s
  else s

/-- PCI Express and the local bus reach BAR2 and BAR4 (R522, R525, R527, R582). -/
def barHost (i : Iface) : Bool := match i with | .pcie => true | .lb => true | _ => false

/-- An access to BAR2 or BAR4 as a command. -/
def barAccess (dt : Nat) (src : Iface) (len : Nat) (w : Option (List Byte)) (f : State → State) (s : State) : State :=
  let s1 := begin_ dt s
  if !barHost src then s1
  else if !ifaceOpen src s1 then closedAnswer src len w s1
  else f s1

/-! ## Commands -/

/-- BRIDGE_REQUEST_RX (R527–R530, R534, R535, R703): `bad` when it meets an uncorrectable memory error (R537). -/
def execBridgeRequestRx (dt : Nat) (p : Option (Fin 4)) (r : BridgeFrame) (bad : Bool) (s : State) :
    Host.Outcome State Fault Refusal := .next (bridgeRx p false bad r (begin_ dt s))

/-- BRIDGE_RESPONSE_RX (R529, R531, R537). -/
def execBridgeResponseRx (dt : Nat) (p : Option (Fin 4)) (r : BridgeFrame) (s : State) : Host.Outcome State Fault Refusal :=
  .next (bridgeRx p true false r (begin_ dt s))

/-- BRIDGE_WITHDRAW_RX (R534). -/
def execBridgeWithdrawRx (dt : Nat) (p : Option (Fin 4)) (r : BridgeFrame) (s : State) : Host.Outcome State Fault Refusal :=
  .next (bridgeRx p false false { r with op := 5 } (begin_ dt s))

/-- BRIDGE_RETRY_TIMER (R529). -/
def execBridgeRetryTimer (dt : Nat) (tag : BitVec 16) (s : State) : Host.Outcome State Fault Refusal :=
  .next (retryTimer tag (begin_ dt s))

/-- BRIDGE_REQ_TIMEOUT (R531, R537). -/
def execBridgeReqTimeout (dt : Nat) (tag : BitVec 16) (s : State) : Host.Outcome State Fault Refusal :=
  .next (reqTimeout tag (begin_ dt s))

/-- BRIDGE_FETCH_STALE (R531). -/
def execBridgeFetchStale (dt : Nat) (s : State) : Host.Outcome State Fault Refusal := .next (fetchStale (begin_ dt s))

/-- BRIDGE_BUSY_RETRY (R536). -/
def execBridgeBusyRetry (dt : Nat) (s : State) : Host.Outcome State Fault Refusal := .next (busyRetry (begin_ dt s))

/-- REMOTE_WINDOW_READ (R526, R531). -/
def execRemoteWindowRead (dt : Nat) (src : Iface) (w : Fin 8) (off : Nat) (len : Nat) (s : State) :
    Host.Outcome State Fault Refusal := .next (barAccess dt src len none (windowRead src w off len) s)

/-- REMOTE_WINDOW_WRITE (R526, R532). -/
def execRemoteWindowWrite (dt : Nat) (src : Iface) (w : Fin 8) (off : Nat) (data : List Byte) (s : State) :
    Host.Outcome State Fault Refusal := .next (barAccess dt src data.length (some data) (windowWrite src w off data) s)

/-- LOCKED_SEQUENCE_START (R536): a local-bus read with LB_LOCK_L asserted. -/
def execLockedSequenceStart (dt : Nat) (w : Fin 8) (off : Nat) (s : State) : Host.Outcome State Fault Refusal :=
  .next (barAccess dt .lb 2 none (lbWindowRead true w off) s)

/-- LOCKED_SEQUENCE_END (R536). -/
def execLockedSequenceEnd (dt : Nat) (s : State) : Host.Outcome State Fault Refusal := .next (lockEnd (begin_ dt s))

/-- FAB_SEM_READ (R535). -/
def execFabSemRead (dt : Nat) (src : Iface) (k : Fin 32) (s : State) : Host.Outcome State Fault Refusal :=
  .next (barAccess dt src 4 none (fun s => let x := semRead src k.val s; emit (.readData src (leBytes 4 x.1)) x.2) s)

/-- FAB_SEM_WRITE (R535). -/
def execFabSemWrite (dt : Nat) (src : Iface) (k : Fin 32) (value : BitVec 32) (s : State) : Host.Outcome State Fault Refusal :=
  .next (barAccess dt src 4 (some (leBytes 4 value.toNat)) (semWrite src k.val value.toNat) s)

/-- SEM_TMO_EXPIRY (R535). -/
def execSemTmoExpiry (dt : Nat) (k : Fin 32) (s : State) : Host.Outcome State Fault Refusal :=
  .next (semTimeout k.val (begin_ dt s))

/-- FAB_VEC_PEND_WRITE (R539). -/
def execFabVecPendWrite (dt : Nat) (src : Iface) (value : BitVec 32) (s : State) : Host.Outcome State Fault Refusal :=
  .next (barAccess dt src 4 (some (leBytes 4 value.toNat)) (vecPendWrite value) s)

end Sys2Proof.Machine
end

