-- ==== Sys2Proof/Machine/Bus.lean ====
section
/-! DEFINITION. The host interfaces' own ways of access: the local bus (R522–R524, R702), PCI Express requests (R712), SPI
transfers (R525), and the accesses a lock-step pair's hold buffer lets go (R365–R369). The address of a register command
is one of the combined space of R522: BAR0, BAR2 from 0x0100_0000, BAR4 at 0x0300_0000. -/

namespace Sys2Proof.Machine

/-! ## The combined space -/

/-- An address of BAR2. -/
def inBar2 (a : Nat) : Bool := 0x1000000 ≤ a && a < 0x3000000

/-- An address of BAR4. -/
def inBar4 (a : Nat) : Bool := 0x3000000 ≤ a && a < 0x3004000

/-- Offset of an address in BAR4. -/
def bar4Off (a : Nat) : Nat := a - 0x3000000

/-- The window and the offset of a BAR2 address. -/
def windowSplit (a : Nat) : Fin 8 × Nat := (Fin.ofNat 8 ((a - 0x1000000) / 0x400000), (a - 0x1000000) % 0x400000)

/-- A read in BAR4: 8 bytes are two registers, fewer are part of one. -/
def bar4Span (i : Iface) (off n : Nat) (s : State) : List Byte × State :=
  let x := bar4Read i (off / 4 * 4) s
  if n = 8 then
    let y := bar4Read i (off + 4) x.2
    (leBytes 4 x.1 ++ leBytes 4 y.1, y.2)
  else (((leBytes 4 x.1).drop (off % 4)).take n, x.2)

/-- A read of BAR0 or BAR4 in the combined space; nothing else is mapped there (R522, R581). -/
def spaceRead (i : Iface) (a n : Nat) (s : State) : List Byte × State :=
  if inBar4 a then (if !widthOk a n then (List.replicate n 0, s) else bar4Span i (bar4Off a) n s)
  else busRead i a n s

/-- A write of BAR0 or BAR4 in the combined space. -/
def spaceWrite (i : Iface) (a : Nat) (data : List Byte) (s : State) : State :=
  if inBar4 a then
    (if !widthOk a data.length then s
     else if data.length = 4 then bar4Write i (bar4Off a) (leNat data) s
     else if data.length = 8 then
       bar4Write i (bar4Off a + 4) (leNat (data.drop 4)) (bar4Write i (bar4Off a) (leNat (data.take 4)) s)
     else s)
  else busWrite i a data s

/-- A register command at an address of the combined space: through BAR0 every party, beyond it the host interfaces. -/
def spaceAccess (dt : Nat) (src : Iface) (a len : Nat) (w : Option (List Byte)) (f : State → State) (s : State) : State :=
  if a < 0x1000000 then accessBy src a len w f (begin_ dt s) else barAccess dt src len w f s

/-- A 32-bit register read as a command. -/
def registerRead (dt : Nat) (src : Iface) (a : Nat) (s : State) : State :=
  spaceAccess dt src a 4 none (fun s => let x := spaceRead src a 4 s; emit (.readData src x.1) x.2) s

/-- MULTI_REGISTER_LATCH_READ (R11, R12, R598): a read of the lowest register of a multi-register value. -/
def execMultiRegisterLatchRead (dt : Nat) (src : Iface) (addr : Nat) (s : State) : Host.Outcome State Fault Refusal :=
  .next (registerRead dt src addr s)

/-- RC_FIELD_READ (R10, R14): a read of a register with an RC field. -/
def execRcFieldRead (dt : Nat) (src : Iface) (addr : Nat) (s : State) : Host.Outcome State Fault Refusal :=
  .next (registerRead dt src addr s)

/-- REGISTER_WRITE (R7, R10). -/
def execRegisterWrite (dt : Nat) (src : Iface) (addr : Nat) (value : BitVec 32) (s : State) :
    Host.Outcome State Fault Refusal :=
  let d := leBytes 4 value.toNat
  .next (spaceAccess dt src addr 4 (some d)
    (if inBar2 addr then windowWrite src (windowSplit addr).1 (windowSplit addr).2 d else spaceWrite src addr d) s)

/-! ## PCI Express requests (R712) -/

/-- A read request of whole dwords of BAR4. -/
def bar4Reads (i : Iface) : Nat → Nat → State → List Byte × State
  | 0, _, s => ([], s)
  | n + 1, a, s =>
    let x := spaceRead i a 4 s
    let y := bar4Reads i n (a + 4) x.2
    (x.1 ++ y.1, y.2)

/-- A write request of whole dwords of BAR4. -/
def bar4Writes (i : Iface) : Nat → Nat → List Byte → State → State
  | 0, _, _, s => s
  | n + 1, a, d, s => bar4Writes i n (a + 4) (d.drop 4) (spaceWrite i a (d.take 4) s)

/-- A PCI Express read request. -/
def pcieRead (a len : Nat) (s : State) : State :=
  if a % 4 ≠ 0 || len % 4 ≠ 0 then emit (.readData .pcie (List.replicate len 0)) s
  else if inBar2 a then windowRead .pcie (windowSplit a).1 (windowSplit a).2 len s
  else
    let x := if inBar4 a then bar4Reads .pcie (len / 4) a s else busReads .pcie (len / 4 + 1) a len s
    emit (.readData .pcie x.1) x.2

/-- A PCI Express write request. -/
def pcieWrite (a : Nat) (d : List Byte) (s : State) : State :=
  if a % 4 ≠ 0 || d.length % 4 ≠ 0 then s
  else if inBar2 a then windowWrite .pcie (windowSplit a).1 (windowSplit a).2 d s
  else if inBar4 a then bar4Writes .pcie (d.length / 4) a d s
  else busWrites .pcie (d.length / 4 + 1) a d s

/-- PCIE_MULTI_DWORD_REQUEST (R712). -/
def execPcieMultiDwordRequest (dt : Nat) (addr : Nat) (len : Nat) (wdata : Option (List Byte)) (s : State) :
    Host.Outcome State Fault Refusal :=
  .next (barAccess dt .pcie len wdata (fun s => match wdata with
    | some d => pcieWrite addr (padTo len d) s
    | none => pcieRead addr len s) s)

/-! ## Narrow, unaligned and unmapped accesses (R8, R581, R713) -/

/-- A read or write of a width and alignment as given, in BAR0 or BAR4; the windows of BAR2 take requests of their own. -/
def oddAccess (dt : Nat) (src : Iface) (addr width : Nat) (wdata : Option (List Byte)) (s : State) : State :=
  match wdata with
  | some d => spaceAccess dt src addr width (some (padTo width d)) (spaceWrite src addr (padTo width d)) s
  | none => spaceAccess dt src addr width none
      (fun s => let x := spaceRead src addr width s; emit (.readData src x.1) x.2) s

/-- UNALIGNED_ACCESS (R713), and a narrow access of R8. -/
def execUnalignedAccess (dt : Nat) (src : Iface) (addr : Nat) (width : Nat) (wdata : Option (List Byte)) (s : State) :
    Host.Outcome State Fault Refusal := .next (oddAccess dt src addr width wdata s)

/-- UNMAPPED_ACCESS (R581). -/
def execUnmappedAccess (dt : Nat) (src : Iface) (addr : Nat) (width : Nat) (wdata : Option (List Byte)) (s : State) :
    Host.Outcome State Fault Refusal := .next (oddAccess dt src addr width wdata s)

/-! ## SPI (R525) -/

/-- The words of an SPI read, one after the other. -/
def spiReads : Nat → Nat → State → List Byte × State
  | 0, _, s => ([], s)
  | n + 1, a, s =>
    let x := if spiReaches a then busRead .spi a 4 s else (List.replicate 4 0, bridgeCount 5 s)
    let y := spiReads n ((a + 4) % 2 ^ 24) x.2
    (x.1 ++ y.1, y.2)

/-- The words of an SPI write. -/
def spiWrites : Nat → Nat → List Byte → State → State
  | 0, _, _, s => s
  | n + 1, a, d, s =>
    spiWrites n ((a + 4) % 2 ^ 24) (d.drop 4) (if spiReaches a then busWrite .spi a (d.take 4) s else bridgeCount 5 s)

/-- SPI_TRANSFER (R525, R607). -/
def execSpiTransfer (dt : Nat) (addr : Nat) (words : Nat) (wdata : Option (List Byte)) (s : State) :
    Host.Outcome State Fault Refusal :=
  let s1 := begin_ dt s
  .next (if !ifaceOpen .spi s1 then closedAnswer .spi (4 * words) wdata s1
    else match wdata with
      | some d => spiWrites words (addr % 2 ^ 24) (padTo (4 * words) d) s1
      | none => let x := spiReads words (addr % 2 ^ 24) s1; emit (.readData .spi x.1) x.2)

/-! ## The local bus (R522–R524, R700–R702) -/

/-- The bytes an access of a half enables: those of its data that count. -/
def lbBytes (be : BitVec 2) (d : List Byte) : List Byte :=
  (if be.getLsbD 0 then d.take 1 else []) ++ (if be.getLsbD 1 then d.drop 1 else [])

/-- LB_RDY_L with data. -/
def lbReady (v : BitVec 16) (s : State) : State := emit (.lbAnswer true v) s

/-- The address at which a half is assembled: a byte of the combined space, or FAB_LB_PAGE beyond it. -/
def lbTarget (off : Nat) (s : State) : Nat :=
  if 0xFFFF0 ≤ off then 0x4000000 + off else 0x100000 * s.bridge.lbPage.toNat + off

/-- A register of the local bus's view read: FAB_LB_PAGE, or one of the combined space. -/
def lbRegRead (a : Nat) (s : State) : Nat × State :=
  if 0x4000000 ≤ a then (if a = 0x40FFFF0 then s.bridge.lbPage.toNat else 0, s)
  else
    let x := spaceRead .lb a 4 s
    (leNat x.1, x.2)

/-- A register of the local bus's view written. -/
def lbRegWrite (a v : Nat) (s : State) : State :=
  if a = 0x40FFFF0 then modBridge (fun b => { b with lbPage := BitVec.ofNat 6 v }) s
  else if 0x4000000 ≤ a then s
  else spaceWrite .lb a (leBytes 4 v) s

/-- Local-bus halves of an address are assembled: registers, the event ring, FAB_LB_PAGE. -/
def lbAssembled (a : Nat) : Bool :=
  0x4000000 ≤ a || inBar4 a || (match blockAt a with | .regs => true | .ring => true | _ => false)

/-- R523: a read of a half of a register. `high` is the high half latched by the access before. -/
def lbHalfRead (a : Nat) (be : BitVec 2) (high : Option (Nat × BitVec 16)) (s : State) : State :=
  let reg := a / 4 * 4
  if a % 4 = 0 then
    let x := lbRegRead reg s
    lbReady (lbMask be x.1)
      (if be = 3 then modBridge (fun b => { b with lbHigh := some (reg, BitVec.ofNat 16 (x.1 / 65536)) }) x.2 else x.2)
  else match high with
    | some (r, h) =>
      if r = reg then lbReady (lbMask be h.toNat) s
      else let x := lbRegRead reg s; lbReady (lbMask be (x.1 / 65536)) x.2
    | none => let x := lbRegRead reg s; lbReady (lbMask be (x.1 / 65536)) x.2

/-- R523: a write of a half of a register; `f` carries out the 32-bit write and answers. -/
def lbHalfWrite (a : Nat) (be : BitVec 2) (d : BitVec 16) (f : Nat → State → State) (s : State) : State :=
  let reg := a / 4 * 4
  if be ≠ 3 then lbReady 0 s
  else if a % 4 = 0 then lbReady 0 (modBridge (fun b => { b with lbLow := some (reg, d) }) s)
  else match s.bridge.lbLow with
    | some (r, lo) => if r = reg then f (lo.toNat + 65536 * d.toNat) s else lbReady 0 s
    | none => lbReady 0 s

/-- A local-bus write of a half of a window's register: retried while a fetch is pending, posted with both halves in hand
(R523, R531, R532). -/
def lbWindowWrite (w : Fin 8) (off a : Nat) (be : BitVec 2) (d : BitVec 16) (s : State) : State :=
  if s.bridge.fetch.isSome then emit (.lbAnswer false 0) s
  else lbHalfWrite a be d (fun v s =>
    lbReady 0 (postWrite .lb w (off / 4 * 4) (leBytes 4 v) (modBridge (fun b => { b with lbLow := none }) s))) s

/-- A write to the next window while an earlier one is held is answered with retry (R269). -/
def lbHeldBack (a : Nat) (s : State) : Bool := 0x200000 ≤ a && a < 0x210000 && lbRetries s

/-- A local-bus access. -/
def lbAccess (x : LbAccess) (s : State) : State :=
  let high := s.bridge.lbHigh
  let a := lbTarget (x.off % 0x100000 / 2 * 2) s
  let s := modBridge (fun b => { b with lbHigh := none }) s
  if x.be = 0 then lbReady 0 s
  else if inBar2 a then
    let w := windowSplit a
    lbLocked x.lock w.1 (match x.wdata with
      | none => lbRemoteRead x.be high w.1 w.2
      | some d => lbWindowWrite w.1 w.2 a x.be d) s
  else if lbAssembled a then
    match x.wdata with
    | none => lbHalfRead a x.be high s
    | some d => lbHalfWrite a x.be d (fun v s => lbReady 0 (lbRegWrite (a / 4 * 4) v (modBridge (fun b => { b with lbLow := none }) s))) s
  else
    let lo := if x.be.getLsbD 0 then 0 else 1
    match x.wdata with
    | none =>
      let y := busRead .lb (a + lo) (if x.be = 3 then 2 else 1) s
      lbReady (BitVec.ofNat 16 (leNat y.1 * 256 ^ lo)) y.2
    | some d =>
      if lbHeldBack a s then emit (.lbAnswer false 0) s
      else lbReady 0 (busWrite .lb (a + lo) (lbBytes x.be (leBytes 2 d.toNat)) s)

/-- R702: an abandoned write has no effect, and an abandoned read may have had its own. -/
def lbAbandoned (x : LbAccess) (s : State) : State :=
  let s1 := modBridge (fun b => { b with lbHigh := none }) s
  if x.wdata.isSome then s1
  else
    let (c, s2) := takeFree 2 s1
    if c = 0 then s2 else { lbAccess x s2 with emit := s2.emit }

/-- LOCAL_BUS_ACCESS (R522–R524, R702). -/
def execLocalBusAccess (dt : Nat) (a : LbAccess) (s : State) : Host.Outcome State Fault Refusal :=
  .next (barAccess dt .lb 2 none (if a.abandon then lbAbandoned a else lbAccess a) s)

/-! ## The hold buffer lets go (R365–R369) -/

/-- A read of a directly mapped block by core `core` of pair `l`. -/
def blockRead (l : Fin 4) (core a n : Nat) (s : State) : State :=
  let y := busRead (.pair l) a n s
  emit (.readData (.pair l) y.1) (readsCome l.val core (wordsIn y.1) y.2)

/-- Core `core` of pair `l` reads memory. -/
def memoryRead (l : Fin 4) (core a n : Nat) (s : State) : State := readsCome l.val core (wordsIn (memoryBytes a n s)) s

/-- A transaction of core `core` of pair `l` reaches the outside. -/
def passOn (l : Fin 4) (core : Nat) (k : HeldKind) (a n : Nat) (d : Option (List Byte)) (s : State) : State :=
  match k, d with
  | .block, some d => busWrite (.pair l) a d s
  | .block, none => blockRead l core a n s
  | .memory, some d => workWrite a d s
  | .memory, none => memoryRead l core a n s
  | .atomicBlock, d => busWrite (.pair l) a (d.getD []) (blockRead l core a n s)
  | .atomicMemory, d => workWrite a (d.getD []) (memoryRead l core a n s)
  | .frame f, _ => switchIn f s
  | .interrupt, d => emit (.coreInterrupt l a (d.getD [])) s

/-- A held transaction of pair `l` leaves. -/
def releaseHeld (l : Fin 4) (x : HeldAccess) (s : State) : State := passOn l 0 x.kind x.addr x.len x.wdata s

/-- R365, R368, R376, R377: the verdict on window `w`. A divergence fences the pair; a clean window lets its transactions
leave in order. -/
def verdict (l : Fin 4) (w : BitVec 64) (clean : Bool) (s : State) : State :=
  if !clean then fencePair l.val 1 0 w (pairCount l.val 0 s)
  else
    let leaves (h : HeldAccess) : Bool := h.window.toNat ≤ w.toNat
    forEach ((pairOf s l.val).held.filter leaves) (releaseHeld l) (modPair l.val (fun p => { p with
      window := w, windowCode := some (w.toNat % 2 == 0), held := p.held.filter (fun h => !leaves h)
      cores := verdictGiven p.cores }) s)

/-- R382: a transaction of a core of a split pair passes at once, or raises the access fault in that core. -/
def splitTxn (l : Fin 4) (core : Nat) (x : CoreTxn) (s : State) : State :=
  let a := x.addr.toNat
  let p := pairOf s l.val
  let atomic : Bool := match x.kind with | .atomic => true | _ => false
  match x.kind with
  | .interrupt => passOn l core .interrupt a x.size (txnData x) s
  | _ =>
    if !(pairMay p core a) then faultComes l core a s
    else if txnPasses p core x then (if inBlocks a then s else memoryRead l core a x.size s)
    else if inBlocks a then passOn l core (if atomic then .atomicBlock else .block) (a - 0xF0000000) x.size (txnData x) s
    else if inWindows p core a then passOn l core (if atomic then .atomicMemory else .memory) a x.size (txnData x) s
    else s

/-- R382: one clock cycle of a core of a split pair on its own sampler path; a stopped one does nothing (R380). -/
def splitCycle (l : Fin 4) (core : Fin 2) (c : PairCycle) (s : State) : State :=
  let p := pairOf s l.val
  let k := p.cores
  if p.stopped.getD core.val false then s
  else
    let x := (if core = 1 then c.badTrail else c.badLead).getD
      (coreStep (if core = 1 then k.trail else k.lead) (sampled l.val core.val c s))
    let k1 := samplerDone core.val k
    let s1 := modPair l.val (fun p => retireCtl core x.2.slot1 (retireCtl core x.2.slot0 { p with
      cores := if core = 1 then { k1 with trail := x.1 } else { k1 with lead := x.1 }
      wfi := updAt p.wfi core.val (fun _ => x.2.wfi) })) s
    match x.2.txn with
    | some t => splitTxn l core.val t s1
    | none => s1

/-- One clock cycle of a pair: of a locked one with the verdict that falls due at its end, of a split one of core L and core T,
without a burin (R382). -/
def pairStep (l : Fin 4) (c : PairCycle) (s : State) : State :=
  if pairSplit (pairOf s l) then splitCycle l 1 c (splitCycle l 0 c s)
  else if !(pairLocked (pairOf s l)) then s
  else
    let s1 := pairCycle l c s
    match verdictDue (pairOf s l).cores (pairOf s1 l).cores with
    | some v => verdict l v.1 v.2 s1
    | none => s1

/-- Clock cycles of a pair, one after the other. -/
def pairRun (l : Fin 4) (cs : List PairCycle) (s : State) : State := forEach cs (pairStep l) s

/-- BURIN_VERDICT (R360–R366, R368): the clock cycles of a pair up to the close of a window, and the verdict at it. -/
def execBurinVerdict (dt : Nat) (l : Fin 4) (cycles : List PairCycle) (s : State) : Host.Outcome State Fault Refusal :=
  .next (pairRun l cycles (begin_ dt s))

end Sys2Proof.Machine
end

