-- ==== Sys2Proof/Machine/FabricRx.lean ====
section
/-! DEFINITION. Fabric frames received: delivered, or routed on (R498, R509–R513, R517–R519, R528). -/

namespace Sys2Proof.Machine

/-- A JOIN of a fabric node at the twin it reaches: noted for SLOTS (R510), and passed on (R509). -/
def fabJoinIn (j : JoinBody) (s : State) : State :=
  joinIn none j (modFabric (fun x => { x with joins := x.joins.filter (fun y => y.uid ≠ j.uid) ++ [j] }) s)

/-- A LEAD_SET of a fabric node: an addition at the first node, otherwise sent on over the trunk (R106). -/
def fabLeadIn (vid : BitVec 48) (s : State) : State :=
  if isFirst s then leadSetIn none vid s else inaugSend (trainPorts s) (.leadSet vid) s

/-- A fabric frame delivered at this node. -/
def fabDeliver (f : FabricFrame) (s : State) : State :=
  let slot : Fin 16 := Fin.ofNat 16 f.src.toNat
  match f.payload with
  | .flow lineB x =>
    if f.dst = 0x10 then lineFlow none x lineB s else let v := macsecTake x s; flowFromFabric lineB v.1 x v.2
  | .proxy entry x => if f.src.toNat < 16 then proxyIn slot entry x s else s
  | .bridge resp b => bridgeFrameIn none resp false b s
  | .join j => fabJoinIn j s
  | .leadSet vid => fabLeadIn vid s
  | .subscribe flows => if f.src.toNat < 16 then subscribeIn slot flows s else s
  | .dir d => if d.isForeign then s else directoryIn 0 d s
  | .ttdp t => ttLearn 0 t s
  | .session x => if f.dst = 0x10 then queueSession x s else sessionIn x s
  | .eth x =>
    if f.dst = 0x10 then
      forEach (trainPorts s) (fun q s =>
        trunkEnqueue q (pcpQueue x.pcp.toNat) { frame := .eth x, len := x.len, deferred := false, ctx := none, urgent := false } s) s
    else s

/-- R498, R511: a frame on an Up link in its sequence: delivered when its destination is this node, otherwise sent on
with one hop less, or dropped and counted. -/
def fabFrameIn (k : Nat) (f : FabricFrame) (s : State) : State :=
  let l := fabOf s k
  if !fabUp s k || f.seq ≠ l.rxSeq then s
  else
    let s1 := modFab k (fun x => { x with rxSeq := x.rxSeq + 1 }) s
    if fabDest s1 f.dst.toNat = fabSlot s1 then fabDeliver f s1
    else if f.hops.toNat ≤ 1 then fabCount k 4 s1
    else fabForward k { f with hops := f.hops - 1 } s1

/-- FABRIC_FRAME_RX (R498, R511–R513). -/
def execFabricFrameRx (dt : Nat) (k : Fin 4) (f : FabricFrame) (s : State) : Host.Outcome State Fault Refusal :=
  .next (fabFrameIn k.val f (begin_ dt s))

end Sys2Proof.Machine
end

