-- ==== Sys2Proof/Machine/Send.lean ====
section
/-! DEFINITION. The node's own sends in the slot region (R174–R183, R284, R329, R517), and the flow frames it receives
(R184, R281, R518). -/

namespace Sys2Proof.Machine

/-! ## When and whether a line carries a scheduled frame -/

/-- R181, R182: p, ε + 0.4 ns, is at most G/2. -/
def gatePasses (im : Image) (s : State) : Bool :=
  match epsNs s with
  | some e => 2 * (10 * e + 4) ≤ 10 * im.guardNs
  | none => false

/-- R182, R183: the transmit gate suppresses a frame of entry `n`. -/
def gateSuppress (n : Nat) (s : State) : State :=
  let s1 := entryCount n 4 (schedCount 5 s)
  let s2 := modSched (fun d => { d with suppressing := true, suppressedNow := true }) s1
  if s.sched.suppressing then s2 else slotPhase true s2

/-- R178: a frame suppressed on a line whose δ exceeds SPAN; SPAN_EXCEEDED once per generation. -/
def spanSuppress (im : Image) (b : Bool) (s : State) : State :=
  let s1 := schedCount 6 s
  if s.sched.a.spanRaised || s.sched.b.spanRaised then s1
  else raise 0x0302 (leBytes 1 (b2n b) ++ leBytes 4 ((lineState s (lineNamed b)).delta / 16) ++ leBytes 4 im.spanNs)
    (modLine (lineNamed b) (fun l => { l with spanRaised := true }) s1)

/-- Whether line `b` carries a frame of entry `n` now: its path valid (R177), δ within SPAN (R178), the gate open (R182). -/
def lineSends (im : Image) (n : Nat) (b : Bool) (s : State) : Bool × State :=
  let l := lineState s (lineNamed b)
  if !pathOk l s then (false, s)
  else if 16 * im.spanNs < l.delta then (false, spanSuppress im b s)
  else if gatePasses im s then (true, s)
  else (false, gateSuppress n s)

/-- The lines of a list that carry the frame. -/
def sendingLines (im : Image) (n : Nat) : List Bool → State → List Bool × State
  | [], s => ([], s)
  | b :: bs, s =>
    let x := lineSends im n b s
    let y := sendingLines im n bs x.2
    (if x.1 then b :: y.1 else y.1, y.2)

/-! ## The send -/

/-- A scheduled frame of `len` bytes leaves the Ndoelle ports of a line; a transit frame still passing one is cut (R179). -/
def sendLine (im : Image) (e : Entry) (b : Bool) (f : OutFrame) (len : Nat) (transit : List (Fin 4)) (s : State) : State :=
  let ps := (linePortsUp b s).filter (fun p => onNdoelle (portOf s p))
  forEach ps (fun p s =>
    let q : Fin 4 := Fin.ofNat 4 p
    let s1 := if transit.contains q then emit (.abortCode q) (schedCount 11 s) else s
    trunkOut p f (some (sendTime im e p s)) (portBusy p len s1)) s

/-- A frame sent in entry `n` on a line, counted. -/
def countSent (n : Nat) (s : State) : State := entryCount n 0 (schedCount 4 s)

/-- The produced flow of an entry that is sent in this cycle (R288, R325). -/
def entryFlow (n : Nat) (s : State) : Option (Nat × FlowCtx) :=
  s.flow.ctx.find? (fun x => x.2.enable && x.2.produce && isScheduled x.2 && x.2.entry.toNat == n && (runOf s x.1).valid)

/-- The flow frame of an entry on the lines that carry it, one SEQ for all (R280). -/
def sendFlow (im : Image) (n : Nat) (e : Entry) (transit : List (Fin 4)) (i : Nat) (c : FlowCtx) (s : State) : State :=
  let x := sendingLines im n (flowLines c e s) s
  if x.1.isEmpty || e.len < flowFrameLen c then x.2
  else
    let q := nextSend i x.2
    let f := flowFrame i c q.1 q.2
    forEach x.1 (fun b s =>
      let y := flowOnLine c b f s
      flowCount i 0 (countSent n (sendLine im e b (.flow y.1) (flowFrameLen c) transit y.2))) q.2

/-- R329: the heartbeat in its entry. -/
def sendHeartbeatEntry (im : Image) (n : Nat) (e : Entry) (transit : List (Fin 4)) (s : State) : State :=
  if !s.twin.configured then s
  else
    let x := sendingLines im n (linesOf (e.lines.setWidth 2)) s
    forEach x.1 (fun b s => countSent n (sendLine im e b (.heartbeat none (ownHeartbeat s)) (heartbeatLen (ownHeartbeat s)) transit s)) x.2

/-- R517, R189: the slot of a fabric node of this vehicle that an entry resolves to. -/
def proxySlot (e : Entry) (s : State) : Option Nat :=
  let t := roleTarget e
  let slot := t % 16
  let here := if roleKind e = 0 then t / 16 = position s
    else if roleKind e = 2 then farPosition s (t / 16) = position s
    else false
  if here && 2 ≤ slot && (s.ina.dir.map (fun d => numberedIn d (position s) slot)).getD false then some slot else none

/-- R517: a fabric node's frame in its entry, when it has come 2 µs before its send time. -/
def sendProxy (im : Image) (n : Nat) (e : Entry) (transit : List (Fin 4)) (slot : Nat) (s : State) : State :=
  match s.fab.proxy.find? (fun x => x.1.val == slot && x.2.1 == n) with
  | none => s
  | some (_, _, at_, f) =>
    let s1 := modFabric (fun b => { b with proxy := b.proxy.filter (fun x => !(x.1.val == slot && x.2.1 == n)) }) s
    if s.now < at_ + usT 2 then bridgeCount 4 s1
    else if e.len < flowWireLen f then s1
    else
      let x := sendingLines im n (linesOf (e.lines.setWidth 2)) s1
      forEach x.1 (fun b s => countSent n (sendLine im e b (.flow f) (flowWireLen f) transit s)) x.2

/-- R517: at an instant, the frames that came too late for their polled entries of the closed cycle are counted. -/
def proxyLeft (polled : List Nat) (s : State) : State :=
  let slotOf (n : Nat) : Option Nat := (s.sched.running.bind (fun im => entryAt im n)).bind (fun e => proxySlot e s)
  forEach (s.fab.proxy.filter (fun x => polled.contains x.2.1 && slotOf x.2.1 = some x.1.val)) (fun _ s => bridgeCount 4 s) s

/-- R170, R171: a valid opening frame of this cycle has been in for 2 µs; the node that opens cycles is ready with its own. -/
def readyToSend (s : State) : Bool := s.sched.openOk && (opensCycles s || s.sched.openClk + usT 2 ≤ s.clk)

/-- The send of a polled entry: a heartbeat, this node's flow, or a proxied frame. -/
def scheduledSend (n : Nat) (transit : List (Fin 4)) (s : State) : State :=
  match s.sched.running with
  | none => s
  | some im =>
    match entryAt im n with
    | none => s
    | some e =>
      if !(joined s) || s.fab.attached || !(readyToSend s) || !(polledEntries s).contains n then s
      else if entryOwn e s then
        if e.flags.getLsbD 0 then sendHeartbeatEntry im n e transit s
        else match entryFlow n s with
          | some (i, c) => sendFlow im n e transit i c s
          | none => s
      else match proxySlot e s with
        | some slot => if fabActiveTwin s then sendProxy im n e transit slot s else s
        | none => s

/-- SCHEDULED_SEND (R174): `transit` are the ports a transit frame still passes. -/
def execScheduledSend (dt : Nat) (entry : Nat) (transit : List (Fin 4)) (s : State) : Host.Outcome State Fault Refusal :=
  .next (scheduledSend entry transit (begin_ dt s))

/-! ## Flow frames received -/

/-- R37, R176, R177: a flow frame goes on to the port across; one that is not good only cut-through, one of the slot region at
once and never onto a T1 hop, any other behind what waits there. -/
def forwardFlow (p : Nat) (tPin : Int) (f : FlowFrame) (good : Bool) (s : State) : State :=
  let slot := match s.sched.running with | some im => inSlotRegion im p tPin s | none => false
  if !(good || cutsThrough p s) then s
  else if !slot then forwardLen p (.flow f) (flowWireLen f) s
  else if onT1 (portOf s (acrossPort p)) then s
  else forwardAtOnce p (.flow f) (flowWireLen f) s

/-- A flow frame on trunk port `p` (R281, R323, R518): a bad one counts as an FCS error, a fragment that an abort code ended
does not (R212). -/
def flowOnTrunk (p : Nat) (tRx : Int) (f : FlowFrame) (fin : FrameEnd) (s : State) : State :=
  if !(portUp s p) || onWtb s p then s
  else
    let t := pinRx (portOf s p) tRx
    let s1 := match fin with
      | .bad => frameError p fin s
      | .abort => s
      | .good =>
        if isBoundary s p then s
        else
          let x := macsecTake f s
          let s2 := flowFromTrunk p t x.1 f (learnFromFlow f x.1 x.2)
          if (f.sec.isNone || x.1) && genInForce f.gen s2 then relayFlow (p % 2 == 1) f s2 else s2
    forwardFlow p t f (fin == .good) s1

/-- FLOW_FRAME_RX (R281, R518). -/
def execFlowFrameRx (dt : Nat) (src : FlowArrival) (f : FlowFrame) (fin : FrameEnd) (s : State) :
    Host.Outcome State Fault Refusal :=
  let s1 := begin_ dt s
  .next (match src with
    | .trunk p t => flowOnTrunk p.val t f fin s1
    | .fabric b =>
      if s1.fab.attached && fin == .good then
        let x := macsecTake f s1
        flowFromFabric b x.1 f (learnFromFlow f x.1 x.2)
      else s1)

end Sys2Proof.Machine
end

