-- ==== Sys2Proof/Machine/Start.lean ====
section
/-! DEFINITION. Starts and ends of service (R604–R620, R575, R628, R639–R645, R684): power-good, the start steps, the load
of the configuration areas, the supervisor-commanded node reset, the stop of the converter, Kiln, the wake from Park. -/

namespace Sys2Proof.Machine

/-! ## What each block keeps -/

/-- The start cause runs steps 0x3 and 0x4 (R605): power-on and wake from Kiln. -/
def fullStart (s : State) : Bool := s.sys.cause = 0 || s.sys.cause = 2

/-- A trunk port without power: its fused residuals stay. -/
def portPowerOff (t : Port) : Port := { Port.reset with calIn := t.calIn, calOut := t.calOut }

/-- The policies as area 0x02 holds them: a queued one is in flash from its acceptance (R86). -/
def flashPolicy (t : Trunk) : List Nat :=
  List.zipWith (fun (a : Nat) (b : Option Nat) => b.getD a) t.policy t.policyNext

/-- A fabric link without power: the repair log keeps its lanes. -/
def linkPowerOff (l : FabLink) : FabLink := { FabLink.reset with lane := l.lane, spare := l.spare }

/-- A pair without power: the mapping is configuration (R357, R610). -/
def pairPowerOff (l : Nat) (p : Pair) : Pair := { Pair.reset (Fin.ofNat 5 l) with phys := p.phys }

/-- R641: CAN_CTRL of a channel whose other bits are off: in Kiln PD0 keeps WAKE_EN, bit [13], for its wake detectors. -/
def canPowerOff (kiln : Bool) (c : Can) : Can :=
  { Can.reset with flash := c.flash, ctrl := if kiln then c.ctrl &&& 0x2000 else Can.reset.ctrl }

/-- A segment without power keeps what flash holds. -/
def mvbPowerOff (m : Mvb) : Mvb := { Mvb.reset with flash := m.flash }

/-- The repair state without power (R652): fuses, the repair log and flash stay. -/
def repPowerOff (r : Rep) : Rep :=
  { r with errs := [], rotRun := none, rotPick := none, testing := none, testClk := Rep.reset.testClk, reqs := [],
           rotDeferred := false, stepNext := none, step := r.stepNext.getD r.step, ctr := Rep.reset.ctr }

/-- The PTP instances without power: their configuration stays. -/
def ptpPowerOff (i : PtpInst) : PtpInst :=
  { PtpInst.reset with
    role := i.role, domain := i.domain, prio1 := i.prio1, prio2 := i.prio2, logSync := i.logSync, ports := i.ports }

/-- The node when its converter stops: fuses, flash, the bypass switches and what PD0 holds stay (R75, R262, R610); the
nonces given are never given again. HELD_OUT ends here (R351). -/
def powerOff (dev : DevSt) (s : State) : State :=
  { State.reset with
    pending := s.pending, now := s.now, clk := s.clk, free := s.free, emit := s.emit
    sys := { Sys.reset with
      uid := s.sys.uid, ordering := s.sys.ordering, revision := s.sys.revision, dateYear := s.sys.dateYear
      dateWeek := s.sys.dateWeek, romMinor := s.sys.romMinor, profileRecord := s.sys.profileRecord
      patchRun := s.sys.patchRun, patchStaged := s.sys.patchStaged, nonceNext := s.sys.nonceNext
      areas := s.sys.areas, perst := s.sys.perst }
    cmd := { Cmd.reset with log := s.cmd.log, mbx := s.cmd.mbx.map (fun _ => Mailbox.reset) }
    trunk := { Trunk.reset with
      ports := s.trunk.ports.map portPowerOff, policy := flashPolicy s.trunk
      lineA := { closed := s.trunk.lineA.closed, command := none, retried := false, cmdClk := 0 }
      lineB := { closed := s.trunk.lineB.closed, command := none, retried := false, cmdClk := 0 } }
    ina := { Ina.reset with
      vid := s.ina.vid, twinB := s.ina.twinB, prio := s.ina.prio, leading := s.ina.leading, leadIssued := s.ina.leadIssued }
    sched := { Sched.reset with
      running := s.sched.running, stagedBytes := s.sched.stagedBytes, stagedLen := s.sched.stagedLen
      verified := s.sched.verified }
    time := { Time.reset with
      rtcKept := true, ptp := s.time.ptp.map ptpPowerOff, policy := s.time.policy, reaction := s.time.reaction
      bound := s.time.bound, steer := s.time.steer, tio := s.time.tio.map (fun _ => Tio.reset) }
    flow := { Flow.reset with key := s.flow.key, saved := s.flow.saved }
    twin := { Twin.reset with
      configured := s.twin.configured, preferred := s.twin.preferred, regionOn := s.twin.regionOn
      regionPages := s.twin.regionPages, regionOff := s.twin.regionOff, heldOut := false }
    lsk := { Lsk.reset with
      pairs := (s.lsk.pairs.zipIdx).map (fun e => pairPowerOff e.2 e.1), spare := s.lsk.spare, saved := s.lsk.saved }
    can := s.can.map (canPowerOff (dev = .kiln))
    mvb := s.mvb.map mvbPowerOff
    swc := { Swc.reset with
      ports := s.swc.ports.map (fun t => { SwPort.reset with key := t.key, calIn := t.calIn, calOut := t.calOut }), banks := s.swc.banks, saved := s.swc.saved }
    fab := { Fab.reset with
      attached := s.fab.attached, mask := s.fab.mask, allow := s.fab.allow, reqTmo := s.fab.reqTmo, semTmo := s.fab.semTmo
      links := s.fab.links.map linkPowerOff, slots := s.fab.slots }
    bridge := { Bridge.reset with windows := s.bridge.windows }
    pwr := { Pwr.reset with
      dev := dev, vin := s.pwr.vin, vstore := s.pwr.vstore, case_ := s.pwr.case_, die := s.pwr.die
      storeOk := dev = .kiln && s.pwr.storeOk, lastWake := s.pwr.lastWake, wakePark := s.pwr.wakePark
      wakeKiln := s.pwr.wakeKiln, alarm := s.pwr.alarm, flash := s.pwr.flash
      doms := updAt (s.pwr.doms.map (fun _ => DomSt.off)) 0 (fun d => if dev = .kiln then DomSt.run else d) }
    rep := repPowerOff s.rep
    shelf := { s.shelf with twin := s.shelf.twin.map (fun k => { k with heldOut := false }) } }

/-! ## Power-good (R604, R605, R630) -/

/-- R48: the mode policy of the strapped profile. -/
def profilePolicy (s : State) : Nat := if s.sys.native then 1 else 3

/-- The policies a start begins with, before step 0x6 loads them: those of flash, where the area holds any. -/
def startPolicy (s : State) : List Nat :=
  if s.fab.attached then [0, 0]
  else if s.sys.maint || !(s.sys.areas.getLsbD 2) then [profilePolicy s, profilePolicy s]
  else ((s.shelf.policy.getD s.trunk.policy).map (fun p => if s.sys.native && p = 6 then profilePolicy s else p))

/-- The trunk ports stand as their switches and policies have them (R616, R75), in their first role (R63). -/
def startPorts (s : State) : State :=
  forEach (List.range 4) (fun p s => portRole p (modPort p (fun t => { t with st := portStart p s }) s)) s

/-- R69: TRUNK_LINK of the ports that a start has put into Bypassed. -/
def bypassedEvents (s : State) : State :=
  forEach (List.range 4) (fun p s => match (portOf s p).st with | .bypassed => trunkLink p s | _ => s) s

/-- A start of the supervisor begins with step 0x1. -/
def beginStart (cause : Byte) (s : State) : State :=
  modSys (fun y => { y with
    step := 1, step4Done := false, step5Done := false, ready := false, cause := cause, heldInReset := false
    startClk := s.clk, pgClk := s.clk, patchActive := false }) s

/-- R687: a reset of the test access port, which has it carry out IDCODE (IEEE 1149.1); the debug lock and DBG stand. -/
def tapReset (s : State) : State := modSys (fun y => { y with tap := .idcode }) s

/-- R687: the IDCODE of the test access port: the die-set letter, the part number, the manufacturer, 1. -/
def idcode (s : State) : BitVec 32 :=
  BitVec.ofNat 4 (s.sys.revision.toNat % 256 - 0x41) ++ 0x4896#16 ++ Config.jep106 ++ 1#1

/-- R619: what the port shifts out for its instruction, least significant bit first: IDCODE, or BYPASS's one bit, 0. -/
def tapData (s : State) : List Bool :=
  match s.sys.tap with
  | .idcode => (List.range 32).map (fun i => (idcode s).getLsbD i)
  | _ => [false]

/-- Power-good: straps, sensed switches, store capacitance, the count (R262), every domain in Run. -/
def powerGood (p : PowerGoodIn) (s : State) : State :=
  let kiln := s.sys.kilnWake.isSome
  let s1 := modSys (fun y => { y with powered := true, native := p.profSelHigh, maint := p.maintLow, attempts := 0 }) s
  let s2 := { s1 with
    now := if s.time.rtcKept then s.now else 0
    can := s1.can.map (canPowerOff false)
    time := { s1.time with rtcKept := true }
    trunk := { s1.trunk with
      policy := startPolicy s1
      lineA := { closed := p.sensedA, command := none, retried := false, cmdClk := 0 }
      lineB := { closed := p.sensedB, command := none, retried := false, cmdClk := 0 } }
    pwr := { s1.pwr with
      dev := .run, supply := if s1.pwr.vin < 1440 then .below else .normal, storeCap := p.storeCap
      storeDegraded := p.storeCap.toNat < 540, doms := s1.pwr.doms.map (fun _ => DomSt.run), wakeBits := 0 } }
  startPorts (beginStart (if kiln then 2 else 0) (tapReset s2))

/-- The converter may declare its rails good: the node has no power, or wakes from Kiln. -/
def mayPower (s : State) : Bool :=
  !s.sys.powered && (match s.pwr.dev with | .unpowered => true | .kiln => s.sys.kilnWake.isSome | _ => false)

/-- POWER_GOOD (R604, R605). -/
def execPowerGood (dt : Nat) (p : PowerGoodIn) (s : State) : Host.Outcome State Fault Refusal :=
  let s1 := begin_ dt s
  .next (if mayPower s1 then powerGood p s1 else s1)

/-! ## Step 0x2: the patch check (R609, R611) -/

/-- A patch discarded at a start keeps its first failing check. -/
def stagedAtStart (s : State) : Option Nat × State :=
  match s.sys.patchStaged with
  | some p =>
    if p.verified then
      match patchFault s.sys.romMinor ((s.sys.patchRun.map patchFloor).getD 0) p with
      | none => (none, modSys (fun y => { y with patchRun := some p, patchStaged := none, patchActive := true }) s)
      | some c => (some c, modSys (fun y => { y with patchStaged := none }) s)
    else (none, s)
  | none => (none, s)

/-- The running patch checked again, unless a staged one has just taken its place. -/
def runningAtStart (s : State) : Option Nat × State :=
  if s.sys.patchActive then (none, s)
  else match s.sys.patchRun with
    | none => (none, s)
    | some p =>
      match patchFault s.sys.romMinor 0 p with
      | none => (none, modSys (fun y => { y with patchActive := true }) s)
      | some c => (some c, modSys (fun y => { y with patchRun := none }) s)

/-- R609: the patch of this start; the code of the first check that discarded one. A maintenance start runs none. -/
def patchCheck (s : State) : Option Nat × State :=
  if s.sys.maint then (none, s)
  else
    let (c1, s1) := stagedAtStart s
    let (c2, s2) := runningAtStart s1
    (c1.orElse (fun _ => c2), s2)

/-- NODE_START and PATCH_STATE, then what a wake from Kiln and a weak store report (R609, R644, R630). -/
def startEvents (discarded : Option Nat) (s : State) : State :=
  let lvl := leBytes 2 (runningLevel s)
  let result := if discarded.isSome then 1 else if s.sys.patchActive then 0 else 2
  let s1 := raise 0x0102 ([s.sys.cause] ++ lvl ++ leBytes 1 (b2n s.sys.native)) s
  let s2 := raise 0x0104 (leBytes 1 result ++ lvl ++ leBytes 1 (discarded.getD 0)) s1
  let s3 := match s.sys.kilnWake with
    | some bits => raise 0x0C04 (leBytes 1 1 ++ [bits]) (modSys (fun y => { y with kilnWake := none }) s2)
    | none => s2
  if fullStart s && s.pwr.storeDegraded then raise 0x0C02 (leBytes 2 s.pwr.storeCap.toNat) s3 else s3

/-- The end of step 0x2: the interfaces open (R607, R703), and the next step begins. The ports that the start has put into
Bypassed (R67, R69) are reported after NODE_START, the first event of a start (R576; DESIGN CHOICE, log 36). -/
def endStep2 (s : State) : State :=
  let (c, s1) := patchCheck s
  let s2 := startEvents c s1
  modSys (fun y => { y with step := if y.cause = 1 then 6 else 3, resetHold := false }) (bypassedEvents s2)

/-! ## Step 0x6: the configuration areas (R610–R613) -/

/-- START_CONFIG. -/
def startConfig (a cause : Nat) (s : State) : State := raise 0x0106 (leBytes 1 a ++ leBytes 1 cause) s

/-- Area 0x01 as it stands. -/
def keptIdentity (s : State) : KeptIdentity where
  vid := s.ina.vid
  twinB := s.ina.twinB
  prio := s.ina.prio
  leading := s.ina.leading
  leadIssued := s.ina.leadIssued

/-- Area 0x03 as it stands. -/
def keptTwin (s : State) : KeptTwin where
  configured := s.twin.configured
  preferred := s.twin.preferred
  regionOn := s.twin.regionOn
  regionPages := s.twin.regionPages
  regionOff := s.twin.regionOff
  heldOut := s.twin.heldOut

/-- Area 0x04 as it stands. -/
def keptFab (s : State) : KeptFab where
  attached := s.fab.attached
  mask := s.fab.mask
  allow := s.fab.allow
  reqTmo := s.fab.reqTmo
  semTmo := s.fab.semTmo
  slots := s.fab.slots
  windows := s.bridge.windows

/-- Area 0x05 as it stands. -/
def keptSched (s : State) : KeptSched where
  running := s.sched.running
  stagedBytes := s.sched.stagedBytes
  stagedLen := s.sched.stagedLen
  verified := s.sched.verified

/-- An instance's configuration as it stands. -/
def keptInst (i : PtpInst) : KeptInst where
  role := i.role
  domain := i.domain
  prio1 := i.prio1
  prio2 := i.prio2
  logSync := i.logSync
  ports := i.ports

/-- Area 0x07 as it stands. -/
def keptPtp (s : State) : KeptPtp where
  insts := s.time.ptp.map keptInst
  policy := s.time.policy
  reaction := s.time.reaction
  bound := s.time.bound
  steer := s.time.steer

/-- An area whose content stands in use is put aside before its default takes its place, unless it is so already. -/
def putAside (a : Nat) (s : State) : State :=
  let h := s.shelf
  if !(s.sys.areas.getLsbD a) then s
  else if a = 1 then { s with shelf := { h with identity := some (h.identity.getD (keptIdentity s)) } }
  else if a = 2 then { s with shelf := { h with policy := some (h.policy.getD s.trunk.policy) } }
  else if a = 3 then { s with shelf := { h with twin := some (h.twin.getD (keptTwin s)) } }
  else if a = 4 then { s with shelf := { h with fab := some (h.fab.getD (keptFab s)) } }
  else if a = 5 then { s with shelf := { h with sched := some (h.sched.getD (keptSched s)) } }
  else if a = 6 then { s with shelf := { h with key := h.key.orElse (fun _ => s.flow.key) } }
  else if a = 7 then { s with shelf := { h with ptp := some (h.ptp.getD (keptPtp s)) } }
  else s

/-- Area 0x01 as given. -/
def useIdentity (k : KeptIdentity) (s : State) : State :=
  { s with ina := { s.ina with vid := k.vid, twinB := k.twinB, prio := k.prio, leading := k.leading, leadIssued := k.leadIssued } }

/-- The trunk policies as given. -/
def usePolicy (l : List Nat) (s : State) : State :=
  forEach [0, 1] (fun d s => if s.trunk.policy.getD d 0 = l.getD d 0 then s else applyPolicy d (l.getD d 0) s) s

/-- Area 0x03 as given. -/
def useTwin (k : KeptTwin) (s : State) : State :=
  { s with twin := { s.twin with
      configured := k.configured, preferred := k.preferred, regionOn := k.regionOn, regionPages := k.regionPages
      regionOff := k.regionOff, heldOut := k.heldOut } }

/-- Area 0x04 as given: the links start anew where the mask differs. -/
def useFab (k : KeptFab) (s : State) : State :=
  let s1 := { s with
    fab := { s.fab with
      attached := k.attached, mask := k.mask, allow := k.allow, reqTmo := k.reqTmo, semTmo := k.semTmo, slots := k.slots }
    bridge := { s.bridge with windows := k.windows } }
  if s.fab.mask = k.mask then s1 else fabStartLinks s1

/-- Area 0x05 as given. -/
def useSched (k : KeptSched) (s : State) : State :=
  { s with sched := { s.sched with
      running := k.running, stagedBytes := k.stagedBytes, stagedLen := k.stagedLen, verified := k.verified } }

/-- Area 0x07 as given; an instance that differs starts anew. -/
def usePtp (k : KeptPtp) (s : State) : State :=
  let one (i : PtpInst) (c : KeptInst) : PtpInst :=
    if i.role = c.role && i.domain = c.domain && i.prio1 = c.prio1 && i.prio2 = c.prio2 && i.logSync = c.logSync &&
      i.ports = c.ports then i
    else { PtpInst.reset with
      role := c.role, domain := c.domain, prio1 := c.prio1, prio2 := c.prio2, logSync := c.logSync, ports := c.ports
      ctr := i.ctr }
  { s with time := { s.time with
      ptp := List.zipWith one s.time.ptp k.insts, policy := k.policy, reaction := k.reaction, bound := k.bound
      steer := k.steer } }

/-- The configuration of an instance of an unconfigured PTP unit. -/
def instDefault (domain : BitVec 7) : KeptInst :=
  { role := 0, domain := domain, prio1 := 0, prio2 := 0, logSync := 0, ports := 0 }

/-- R610: the default of an area takes effect. What flash holds for areas 0x06 and 0x08 to 0x0C is not taken. -/
def areaDefault (a : Nat) (s : State) : State :=
  if a = 1 then useIdentity { vid := 0, twinB := false, prio := 0, leading := none, leadIssued := 0 } s
  else if a = 2 then (if s.fab.attached then s else usePolicy [profilePolicy s, profilePolicy s] s)
  else if a = 3 then useTwin { configured := false, preferred := false, regionOn := false, regionPages := 0, regionOff := 0
                               heldOut := false } s
  else if a = 4 then useFab { attached := false, mask := 0, allow := 1, reqTmo := 10, semTmo := 100
                              slots := List.replicate 14 0, windows := Bridge.reset.windows } s
  else if a = 5 then useSched { running := none, stagedBytes := [], stagedLen := 0, verified := none } s
  else if a = 6 then { s with flow := { s.flow with ctx := [], key := none } }
  else if a = 7 then usePtp { insts := [instDefault 0, instDefault 1], policy := 2, reaction := 1, bound := 200
                              steer := false } s
  else if a = 8 then forEach (List.range 4) (fun l s => modPair l (fun p => { p with cfg := PairCfg.reset, configured := false }) s) s
  else if a = 12 then { s with pwr := { s.pwr with
      deepest := List.replicate 12 2, deepestNext := List.replicate 12 none, wakePark := 0x1F, wakeKiln := 0x1F, alarm := 0 } }
  else s

/-- Area 0x06: the saved contexts, each safe consumed one in its safe state (R296, R315), and the key. -/
def loadFlows (s : State) : State :=
  let s1 := { s with
    flow := { s.flow with ctx := s.flow.saved, ctxNext := [], key := s.shelf.key.orElse (fun _ => s.flow.key) }
    shelf := { s.shelf with key := none } }
  judgeContexts (forEach s1.flow.saved (fun e s => modRun e.1 (fun r => safeStart e.2 (validClear r)) s) s1)

/-- Area 0x08: each pair's configuration as stored. -/
def loadPairs (s : State) : State :=
  forEach (List.range 4) (fun l s =>
    let c := s.lsk.saved.getD l none
    modPair l (fun p => { p with cfg := c.getD PairCfg.reset, configured := c.isSome }) s) s

/-- Area 0x02: a policy the strapped profile forbids gives way to the profile's own (R613). -/
def loadPolicy (s : State) : State :=
  let l := s.shelf.policy.getD s.trunk.policy
  let bad := s.sys.native && l.any (fun p => p == 6)
  let s1 := { s with shelf := { s.shelf with policy := if bad then some l else none } }
  let s2 := usePolicy (l.map (fun p => if s.sys.native && p = 6 then profilePolicy s else p)) s1
  if bad then startConfig 2 3 s2 else s2

/-- R610: an area's content in flash takes effect. -/
def areaLoad (a : Nat) (s : State) : State :=
  let h := s.shelf
  if a = 1 then (match h.identity with | some k => useIdentity k { s with shelf := { h with identity := none } } | none => s)
  else if a = 2 then (if s.fab.attached then s else loadPolicy s)
  else if a = 3 then (match h.twin with | some k => useTwin k { s with shelf := { h with twin := none } } | none => s)
  else if a = 4 then (match h.fab with | some k => useFab k { s with shelf := { h with fab := none } } | none => s)
  else if a = 5 then (match h.sched with | some k => useSched k { s with shelf := { h with sched := none } } | none => s)
  else if a = 6 then loadFlows s
  else if a = 7 then (match h.ptp with | some k => usePtp k { s with shelf := { h with ptp := none } } | none => s)
  else if a = 8 then loadPairs s
  else if a = 9 then forEach (List.range 12) canLoadOne s
  else if a = 10 then checkLinks (forEach [0, 1] mvbLoad s)
  else if a = 11 then swcLoad s
  else match s.pwr.flash with
    | some (d, p, k, t) => { s with pwr := { s.pwr with
        deepest := d, deepestNext := List.replicate 12 none, wakePark := p, wakeKiln := k, alarm := t } }
    | none => s

/-- R611, R613: one area at a start; `corrupt` lists the areas that fail their CRC. -/
def startArea (corrupt : List Nat) (a : Nat) (s : State) : State :=
  if s.sys.maint && a ≠ 1 then areaDefault a (putAside a s)
  else if !(s.sys.areas.getLsbD a) then startConfig a 1 (areaDefault a s)
  else if corrupt.contains a then startConfig a 2 (areaDefault a (putAside a s))
  else areaLoad a s

/-- R612: each logical pair with a loaded configuration starts at its reset vector. -/
def startPairs (s : State) : State :=
  forEach (List.range 4) (fun l s => if (pairOf s l).configured && (pairOf s l).phys.isSome then startPair l 0 s else s) s

/-- A fabric-attached node keeps its switches closed and its trunk ports off (R504). -/
def startAttached (s : State) : State := if s.fab.attached then fabAttach s else s

/-- Every enabled fabric link that does not run trains (R499). -/
def startLinks (s : State) : State :=
  forEach ((List.range 4).filter (fun k => s.fab.mask.getLsbD k && !(fabEnabled s k))) (fun k s => fabLeave k .training s) s

/-- R617, R157: the node is in Steep from the end of step 0x6, an entry to steep; without an image R716 reports it. -/
def startSteep (s : State) : State :=
  let s1 := inaCount 2 (modIna (fun n => { n with mismatchRaised := false }) s)
  match s1.sched.running with
  | some _ => s1
  | none => mismatchOnce 0 s1

/-- The end of step 0x6: the areas in order, the pairs, START_READY, Steep (R610–R613, R617); step 0x7 is passed over
when the profile is confirmed (R615). -/
def endStep6 (corrupt : List Nat) (s : State) : State :=
  let areas := [1, 2, 3, 4, 5, 6, 7, 8, 9, 10, 11, 12]
  let s1 := ptpStart 1 (ptpStart 0 (startPairs (forEach areas (startArea corrupt) s)))
  let s2 := modSys (fun y => { y with step := if profileConfirmed s1 then 8 else 7, ready := true, readyClk := s.clk }) s1
  let s3 := startSteep (raise 0x0107 (leBytes 2 ((s.clk - s.sys.pgClk) / msT 1) ++ [s.sys.cause]) s2)
  startAttached (startLinks { s3 with
    trunk := { s3.trunk with openAtStart := !s3.sys.maint && (s3.trunk.lineA.closed || s3.trunk.lineB.closed) } })

/-! ## The steps (R605, R606) -/

/-- R606: a failed step 0x1 or 0x4; `startClk` keeps when it failed. -/
def startFailed (step : Nat) (s : State) : State :=
  let s1 := emergencyClose (modSys (fun y => { y with attempts := y.attempts + 1 }) s)
  let s2 := if step = 4 then raiseLogOnly 0x0108 (leBytes 1 4 ++ leBytes 1 s1.sys.attempts) s1 else s1
  modSys (fun y => { y with heldInReset := true, startClk := s.clk }) s2

/-- Steps 0x4 and 0x5 have both ended where both run. -/
def afterMemory (s : State) : State :=
  modSys (fun y => { y with step := if y.step5Done && (y.step4Done || y.cause = 3) then 6 else if y.step4Done then 5 else y.step }) s

/-- The end of step 0x3: the repair log applied or lost, and failing rows and columns repaired (R652, R654). -/
def endStep3 (logOk : Bool) (s : State) : State :=
  let s1 := if logOk then s else logLost { s with swc := { s.swc with banks := Swc.reset.banks } }
  let s2 := forEach s1.rep.failing (fun p s => repairPlace p true s) s1
  modSys (fun y => { y with step := if y.cause = 3 then 5 else 4 }) s2

/-- The end of step 0x4: the DRAM holds 0 throughout. -/
def endStep4 (s : State) : State :=
  afterMemory (modSys (fun y => { y with step4Done := true })
    { s with lsk := { s.lsk with work := [] }, flow := { s.flow with rec_ := Rec.reset } })

/-- The end of a step. -/
def stepDone (r : StepResult) (s : State) : State :=
  if r.step = 1 then (if r.ok then modSys (fun y => { y with step := 2 }) s else startFailed 1 s)
  else if r.step = 2 then endStep2 s
  else if r.step = 3 then endStep3 r.logOk s
  else if r.step = 4 then (if r.ok then endStep4 s else startFailed 4 s)
  else if r.step = 5 then afterMemory (modSys (fun y => { y with step5Done := true }) (startSelfTest r.pairFail s))
  else endStep6 r.corrupt s

/-- The step is in progress: steps 0x4 and 0x5 run side by side where both run. -/
def stepRuns (n : Nat) (s : State) : Bool :=
  s.sys.powered && !s.sys.heldInReset && !s.sys.ready &&
  (if n = 5 then !s.sys.step5Done && (s.sys.step = 5 || s.sys.step = 4)
   else if n = 4 then s.sys.step = 4 && !s.sys.step4Done
   else 1 ≤ n && n ≤ 6 && s.sys.step = n)

/-- START_STEP_COMPLETE (R605, R606). -/
def execStartStepComplete (dt : Nat) (r : StepResult) (s : State) : Host.Outcome State Fault Refusal :=
  let s1 := begin_ dt s
  .next (if stepRuns r.step s1 then stepDone r s1 else s1)

/-- START_RETRY (R606): once, 1 s later. -/
def execStartRetry (dt : Nat) (s : State) : Host.Outcome State Fault Refusal :=
  let s1 := begin_ dt s
  .next (if s1.sys.powered && s1.sys.heldInReset && s1.sys.attempts = 1 && s1.sys.startClk + secT 1 ≤ s1.clk then beginStart s1.sys.cause s1 else s1)

/-! ## PERST_L (R684) -/

/-- R684: a reset through PERST_L: MSI-X is disabled, and the function's own registers stand at their defaults. -/
def perstLow (s : State) : State :=
  modSys (fun y => { y with perst := true, msixEnabled := false, msixMasked := 0xFFFFFFFF, msixTable := [] }) s

/-- PERST_ASSERT (R684). -/
def execPerstAssert (dt : Nat) (s : State) : Host.Outcome State Fault Refusal := .next (perstLow (begin_ dt s))

/-- PERST_RELEASE (R684). -/
def execPerstRelease (dt : Nat) (s : State) : Host.Outcome State Fault Refusal :=
  .next (modSys (fun y => { y with perst := false }) (begin_ dt s))

/-! ## The supervisor-commanded node reset -/

/-- R576, R589: mailboxes, vectors and mask; the event queue, the log and the command sequence stay. -/
def cmdNodeReset (c : Cmd) : Cmd :=
  { c with mbx := c.mbx.map (fun _ => Mailbox.reset), queued := [], mask := [], rdErr := false, evqVector := 0, evqIrqEn := false
           evqHold := 0, evqThresh := 1 }

/-- R315: what the reset leaves of a context's run-time state: of a produced flow SEQ and FRESH, of a consumed one the claim and
the counters, its area being clear. -/
def runNodeReset (produced : Bool) (r : FlowRun) : FlowRun :=
  if produced then { r with valid := false, telegram := none } else { flowRunZero with claim := r.claim, ctr := r.ctr }

/-- R315, R595: the flow engine, the image and the bank-control block. The contexts come back from flash in step 0x6. -/
def flowNodeReset (w : Flow) : Flow :=
  { Flow.reset with
    run := tblMap (fun i r => runNodeReset ((tblGet w.ctx i).getD flowCtxZero).produce r) w.run, ctr := w.ctr, key := w.key
    epoch := w.epoch, keyGen := w.keyGen, txPn := w.txPn, rxPn := w.rxPn, nextSid := w.nextSid, rec_ := w.rec_, saved := w.saved }

/-- R263: the time unit stays, in Holdover where it had train time; timed I/O is disarmed. -/
def timeNodeReset (s : State) : State :=
  let s1 := match s.time.st with
    | .master => setTimeState .holdover { s with time := { s.time with eps0 := 0, holdClk := s.clk } }
    | .acquire => setTimeState .holdover s
    | .locked => setTimeState .holdover s
    | _ => s
  forEach (List.range 6) tioNodeReset (modTime (fun t => { t with ptp := t.ptp.map (fun i => { i with pending := none }) }) s1)

/-- R157: the inauguration after a node reset. -/
def inaNodeReset (n : Ina) : Ina :=
  { Ina.reset with
    vid := n.vid, twinB := n.twinB, prio := n.prio, leading := n.leading, leadIssued := n.leadIssued, newest := n.newest
    claimSeq := n.claimSeq, ctr := n.ctr }

/-- R218: the schedule after a node reset. -/
def schedNodeReset (x : Sched) : Sched :=
  { Sched.reset with
    running := x.running, stagedBytes := x.stagedBytes, stagedLen := x.stagedLen, verified := x.verified, cycle := x.cycle
    ctr := x.ctr, entryCtr := x.entryCtr }

/-- R650: power management; area 0x0C comes back in step 0x6. -/
def pwrNodeReset (p : Pwr) : Pwr := { p with pend := none }

/-- R672: repair; requests are withdrawn. -/
def repNodeReset (r : Rep) : Rep := { r with reqs := [], rotPick := none }

/-- R67, R89: a trunk port in reset: its counters (DLY_SEQ with them), OVERFLOW, DOWN_CAUSE and fused residuals stay. -/
def portNodeReset (t : Port) : Port :=
  { Port.reset with
    calIn := t.calIn, calOut := t.calOut, ctr := t.ctr, downCause := t.downCause
    delay := { Port.reset.delay with accSeq := t.delay.accSeq } }

/-- What the reset does to every block. -/
def blocksReset (s : State) : State :=
  let s1 := twinLeave (timeNodeReset (sessionsReset s))
  let s2 := forEach (List.range 4) pairNodeReset s1
  let s3 := forEach (List.range 12) canNodeReset s2
  let s4 := swcNodeReset (forEach [0, 1] mvbNodeReset s3)
  let s5 := bridgeNodeReset (fabStartLinks s4)
  { s5 with
    cmd := cmdNodeReset s5.cmd
    ina := inaNodeReset s5.ina
    sched := schedNodeReset s5.sched
    flow := flowNodeReset s5.flow
    twin := twinReset s5.twin
    trunk := { s5.trunk with
      ports := s5.trunk.ports.map portNodeReset, policy := flashPolicy s5.trunk, policyNext := [none, none], seq := none
      passiveOn := false, passiveSent := none, passivePorts := [], stopForward := false, openAtStart := false }
    fab := { s5.fab with heard := none, mySlot := 0xFF, proxy := [], subs := [], subSent := none, joins := [], ticks := [], tickPref := false, srcAGood := 0 }
    pwr := pwrNodeReset s5.pwr
    rep := repNodeReset s5.rep
    shadows := [] }

/-- R388: DBG of each pair as it was. -/
def debugKept (old : State) (s : State) : State :=
  forEach (List.range 4) (fun l s => modPair l (fun p => { p with dbg := (pairOf old l).dbg }) s) s

/-- The supervisor starts anew over its reset blocks; the interfaces stay shut until step 0x2 has ended (R703). The ports
of an open switch are in Detect at once: PD6 is up (R616). A watchdog start leaves DBG (R388). -/
def restart (cause : Byte) (s : State) : State :=
  let s1 := blocksReset s
  beginStart cause (startPorts (modSys (fun y => { y with
    attempts := 0, resetPending := none, resetHold := true, nonce := none, debugScope := 0, extest := false
    tap := match y.tap with | .extest => .bypass | i => i }) (if cause = 1 then s1 else debugKept s s1)))

/-- SUPERVISOR_WATCHDOG_EXPIRY (R70, R605): a start with cause 0x3. -/
def execSupervisorWatchdogExpiry (dt : Nat) (s : State) : Host.Outcome State Fault Refusal :=
  let s1 := begin_ dt s
  .next (if s1.sys.powered && !s1.sys.heldInReset then restart 3 (emergencyClose s1) else s1)

/-- SUPERVISOR_FATAL_FAULT (R70). -/
def execSupervisorFatalFault (dt : Nat) (s : State) : Host.Outcome State Fault Refusal :=
  let s1 := begin_ dt s
  .next (if s1.sys.powered then emergencyClose s1 else s1)

/-! ## Ends of service (R628, R640, R645) -/

/-- CONVERTER_STOP (R628): SUPPLY_STATE has been logged at the declaration. `vin` in 10 mV. -/
def execConverterStop (dt : Nat) (vin : Nat) (s : State) : Host.Outcome State Fault Refusal :=
  let s1 := begin_ dt s
  .next (if s1.pwr.shutdown then powerOff .unpowered { s1 with pwr := { s1.pwr with vin := vin } } else s1)

/-- R640: what entry to Kiln does. -/
def enterKiln (s : State) : State :=
  let s1 := goPassive s
  let s2 := emergencyClose { s1 with trunk := { s1.trunk with stopForward := true } }
  powerOff .kiln (parkedEvent true s2)

/-- A reset follows SYS_RESET at this instant (R575). -/
def resetDue (s : State) : Bool := s.sys.resetPending.isSome

/-- The entry to Park falls on this instant (R638). -/
def parkDue (s : State) : Bool := inRun s && entryDue false s

/-- The entry to Kiln falls on this instant (R638). -/
def kilnDue (s : State) : Bool := inRun s && entryDue true s

/-- What ends service at an instant: the reset of R575, the Out of service heartbeat first (R356), or R639 or R640. -/
def endsAtInstant (s : State) : State :=
  if !s.sys.powered then s
  else if resetDue s then restart 1 (sendOutBoth s)
  else if parkDue s then enterPark s
  else if kilnDue s then enterKiln s
  else s

/-! ## The wake from Park (R643) -/

/-- The domains that were Off come back as a node reset would leave their blocks, and their configuration is loaded: PD2
and PD3 the pairs, PD5 the switch core, flow engine and image, PD7, PD8 the channels and segments, PD11. -/
def wakeBlocks (s : State) : State :=
  let s1 := forEach (List.range 4) pairNodeReset (sessionsReset s)
  let s2 := forEach (List.range 12) (fun c s => canLoadOne c (canNodeReset c s)) s1
  let s3 := swcLoad (swcNodeReset (forEach [0, 1] (fun g s => mvbLoad g (mvbNodeReset g s)) s2))
  let s4 := bridgeNodeReset s3
  startPairs (loadFlows { s4 with flow := flowNodeReset s4.flow })

/-- R643: the node is in Run again; the start-up case of R138 counts from here as from the end of step 0x6 (R617; DEDUCED,
log 36). -/
def parkWake (s : State) : State :=
  let bits := s.pwr.wakeBits
  let s1 := { s with
    sys := { s.sys with readyClk := s.clk }
    ina := { s.ina with quietClk := none }
    pwr := { s.pwr with dev := .run, wakeBits := 0, doms := s.pwr.doms.map (fun _ => DomSt.run) }
    trunk := passiveEnd s.trunk }
  raise 0x0C04 (leBytes 1 0 ++ [bits.setWidth 8]) (fabStartLinks (bypassedEvents (startPorts (wakeBlocks s1))))

/-- PARK_WAKE_COMPLETE (R643). -/
def execParkWakeComplete (dt : Nat) (s : State) : Host.Outcome State Fault Refusal :=
  let s1 := begin_ dt s
  .next (if inPark s1 && s1.pwr.wakeBits ≠ 0 then parkWake s1 else s1)

/-! ## EXTEST (R620) -/

/-- JTAG_EXTEST (R619, R620): while scope bit [0] is unlocked; otherwise the port treats the instruction as BYPASS. -/
def execJtagExtest (dt : Nat) (s : State) : Host.Outcome State Fault Refusal :=
  let s1 := begin_ dt s
  .next (if s1.sys.powered && s1.sys.debugScope.getLsbD 0 then
      modSys (fun y => { y with extest := true, tap := .extest }) (quietOutputs (emergencyClose s1))
    else modSys (fun y => { y with tap := .bypass }) s1)

end Sys2Proof.Machine
end

