-- ==== Sys2Proof/Machine/Summary.lean ====
section
/-! DEFINITION. The five summaries (R596–R603): lock-step, power, repair, twin and topology, each one snapshot. -/

namespace Sys2Proof.Machine

/-- A summary: CYCLE, reserved registers to 0x00F, and its contents (R596). -/
def summaryBytes (cycle : Nat) (contents : List Byte) : List Byte := leBytes 4 cycle ++ List.replicate 12 0 ++ contents

/-- R599: bits [63:0] of each pair's status record. -/
def lskSummary (s : State) : List Byte := (List.range 4).flatMap (fun l => (pairRecord l s).take 8)

/-- R602: the power summary from 0x010. -/
def pwrSummary (s : State) : List Byte :=
  let p := s.pwr
  recBytes 28 ([(0, 1, b2n p.pend.isSome), (4, 3, supplyCode p.supply), (7, 1, b2n p.storeOk)] ++
    (List.range 12).map (fun d => (32 + 4 * d, 4, domCode (p.doms.getD d .off))) ++
    [(96, 16, p.vin), (128, 16, p.pin), (160, 16, p.vstore), (192, 16, twos 16 p.case_), (208, 16, twos 16 p.die)])

/-- R603: the repair summary from 0x010. -/
def repSummary (s : State) : List Byte :=
  let r := s.rep
  recBytes 24 [(0, 1, b2n (!r.pair)), (1, 1, b2n (r.rows = 0)), (2, 1, b2n (r.cols = 0)), (3, 1, b2n (r.pages = 0)),
    (4, 1, b2n (r.lanes = 0)), (5, 1, b2n (r.banks = 0)), (8, 1, b2n (!r.reqs.isEmpty)),
    (9, 3, (r.testing.map (fun p => p.val)).getD 7), (32, 16, r.rows.toNat), (48, 16, r.cols.toNat),
    (64, 11, r.pages.toNat), (96, 3, r.lanes.toNat), (100, 2, r.banks.toNat), (104, 1, b2n r.pair),
    (128, 16, r.full.toNat), (160, 4, r.step.toNat), (176, 16, agingMhz r.step)]

/-- R601: the topology summary from 0x010. -/
def topSummary (s : State) : List Byte :=
  let d := s.sched
  let port (p : Nat) : Nat := portCode (portOf s p).st + 16 * modeCode (portOf s p).mode
  let prep := match s.ina.prep with
    | some p => [(64, 16, p.dir.gen.toNat), (80, 1, 1), (81, 1, b2n p.committed), (96, 32, if p.committed then p.k.toNat else 0)]
    | none => []
  (topoRecord s).take 8 ++ (recBytes 32 ([(128, 64, (s.ina.dir.map (fun d => d.refUid.toNat)).getD 0)] ++ prep ++
    (List.range 4).map (fun p => (192 + 8 * p, 8, port p)) ++
    [(224, 1, b2n d.heldFlag), (225, 1, b2n (pathOk d.a s)), (226, 1, b2n (pathOk d.b s)), (232, 8, d.variant.toNat),
     (240, 16, (d.running.map (fun im => im.cycleUs)).getD 0)])).drop 8

/-- The five summaries in the order of their addresses. -/
def summaryAll (cycle : Nat) (s : State) : List (List Byte) :=
  ([lskSummary s, pwrSummary s, repSummary s, (twinRecord s).take 32, topSummary s]).map (summaryBytes cycle)

/-- R597 at an instant: the refresh is complete at a moment the spec leaves open, at most 8 µs later (log 3). Input power is
a measurement of at most 52 W (R631, log 3). -/
def refreshSummaries (s : State) : State :=
  let x := takeFree 5201 s
  let y := takeFree (usT 8 + 1) { x.2 with pwr := { x.2.pwr with pin := x.1 } }
  let shown := if s.summariesAt ≤ s.clk then s.summariesNew else s.summaries
  { y.2 with
    summaries := shown, summariesNew := summaryAll (cycleNo s).toNat y.2, summariesAt := s.clk + y.1 }

end Sys2Proof.Machine
end

