-- ==== Sys2Proof/Machine/Instant.lean ====
section
/-! DEFINITION. The registration instant (R26–R35, R266–R274, R597): every change due at it, applied together; the opening
of the next window, the release deadline, and the yielding group's switch (R135). -/

namespace Sys2Proof.Machine

/-! ## The moment -/

/-- The count runs on to a train time, and a command begins there. -/
def runTo (t : Nat) (s : State) : State :=
  { s with
    now := t
    clk := s.clk + (((t : Int) - s.now) * 100000000000000000 / (100000000000000000 + countRate s)).toNat
    time := { s.time with carry := 0 }
    emit := [] }

/-! ## Parts of an instant -/

/-- The closed cycle's events and trigger are taken for its record (R307); those of the opening cycle start. -/
def takeCycle (s : State) : State :=
  { s with cmd := { s.cmd with cycleEvents := [] }, flow := { s.flow with rec_ := { s.flow.rec_ with trigger := none } } }

/-- A prepared generation that takes effect at this instant numbers this node. -/
def numberedNow (s : State) : Bool :=
  match s.ina.prep with
  | some p => p.committed && p.whole && !p.stepping && p.k = cycleNo s &&
      addrIn p.dir s.sys.uid s.ina.vid (ownSlot s) ≠ 0
  | none => false

/-- What the closed cycle leaves behind: empty entries, the values received, the time line, the proof cycle, the paths, the
sample (R124, R177, R187, R226, R231, R267). -/
def closeCycle (polled hb : List Nat) (s : State) : State :=
  let s1 := consumedUpdate (emptyAtInstant polled hb (proxyLeft polled (lineClose s)))
  let s2 := if numberedNow s1 then s1 else fabProofAtInstant (proofAtInstant s1)
  cycleSample (cycleClose (modIna (fun n => { n with dirAge := n.dirAge + 1 }) s2))

/-- The generation in force has changed since `before`. -/
def switched (before s : State) : Bool := s.ina.gen ≠ before.ina.gen || (s.ina.dir.isSome && before.ina.dir.isNone)

/-- The unique identifier of the first node of a generation. -/
def firstUid (s : State) : Option (BitVec 64) := s.ina.dir.map (fun d => d.refUid)

/-- R148, R149 after a switch from `before`: the first node holds the islands it knows against its directory, and a boundary
node that has another first node than before reports its islands to it. -/
def reportIslands (before s : State) : State :=
  if isFirst s then modIna (fun n => { n with islandCheck := n.islandCheck || !n.islands.isEmpty }) s
  else if joined s && firstUid s ≠ firstUid before then
    forEach (s.ina.islands.filter (fun i => i.uid == s.sys.uid))
      (fun i s => inaugSend (trainPorts s) (.islandReport s.sys.uid i.addrs) s) s
  else s

/-- Generations, releases and roles of the backbone at the instant; `sw` is what switches a prepared generation. A release due
at it takes effect together with the switch (R204). The contexts are judged against an image that begins to run (R278). -/
def backboneAtInstant (sw : State → State) (s : State) : State :=
  let s1 := sw (removalsAtInstant (releaseAtInstant s))
  let s2 := ttAtInstant (if switched s s1 then reportIslands s (bridgeSwitch s.ina.dir s1) else s1)
  let s3 := if s2.sched.running = s.sched.running then s2 else judgeContexts s2
  let s4 := provisionalAtInstant (holdAtInstant s3)
  settleLeading (leadStep s4 (leadAtInstant s4))

/-- What the first node does for the opening cycle, and what every node sends in its management slot. -/
def openCycle (s : State) : State :=
  let s1 := sendOpening (firstNodePrepares s)
  let s2 := modSched (fun d => { d with cycle := cycleNo s1 }) s1
  creditRestore (sendLeading (repeatBreaks (sendDirectories s2)))

/-- R268–R274, R335: the produced banks; at a takeover the release due has not been taken and nothing is counted. -/
def producedAtInstant (took effective : Bool) (s : State) : State :=
  let s1 := modFlow (fun w => { w with
    opening := true, relMask := w.relMaskNext.getD w.relMask, relMaskNext := none }) s
  checkRelease (if took then modFlow (fun w => { w with deadline := false, pdiCycle := cycleNo s }) s1
    else banksAtInstant effective s1)

/-- The process data of the opening cycle, after the banks: island data, headers, and the flows of the sporadic window. -/
def flowsAtInstant (s : State) : State :=
  let x := islandAtInstant s
  islandPlace (sporadicAtInstant x.1 (producedHeaders x.2))

/-- R421, R435, R442: the CAN channels, which take linked data from the published bank. -/
def cansAtInstant (sw effective : Bool) (s : State) : State :=
  forEach (List.range 12) (fun c s => canLinkLoad (fun i off n => readPublished s i off n) effective c (canAtInstant sw c s)) s

/-- R453, R463, R470: the segments. -/
def mvbsAtInstant (s : State) : State :=
  forEach [0, 1] (fun g s => mvbAtInstant (fun i off n => readPublished s i off n) g s) s

/-- R424, R257: the claim gates of the opening cycle, and what stands behind them. -/
def gatesOpen (s : State) : State :=
  forEach (List.range 6) tioGateAtInstant { s with twin := { s.twin with gates := gatesAtInstant s } }

/-- R328, R341–R351: racking snapshots, and the heartbeats. -/
def racksAtInstant (s : State) : State := sendHeartbeats (rackAtInstant s)

/-- R616: the go-active sequence of bring-up, from the first instant at which STORE_OK is set. Where only line B's switch is
closed, its 100 ms (R72) count from the start of the supervisor (DESIGN CHOICE, log 36). -/
def openingAtStart (s : State) : State :=
  if s.trunk.openAtStart && s.sys.step = 8 && s.pwr.storeOk && !s.fab.attached && s.trunk.seq.isNone then
    let s1 := { s with trunk := { s.trunk with openAtStart := false } }
    if s.trunk.lineA.closed then startSequence false s1
    else modTrunk (fun t => { passiveEnd t with seq := some { passive := false, lineADone := true, aClk := s.sys.pgClk } }) s1
  else s

/-- R634, R646, R662, R666: power, rotation and aging. -/
def upkeepAtInstant (s : State) : State := agingApply (rotationAtInstant (powerAtInstant s))

/-- The configuration is loaded, and no loss has turned the flow engine and the switch core off (R628). -/
def inService (s : State) : Bool := s.sys.ready && !s.pwr.shutdown

/-- What runs only once the configuration is loaded: the process data and what is linked to it. -/
def serviceInstant (sw effective : Bool) (s : State) : State :=
  let s1 := gatesOpen (flowsAtInstant s)
  racksAtInstant (swAtInstant (mvbsAtInstant (cansAtInstant sw effective s1)))

/-- The instant up to the roles: what the closed cycle leaves, the backbone, the contexts written since. -/
def beforeRoles (polled hb : List Nat) (sw : State → State) (s : State) : State :=
  applyContexts (backboneAtInstant sw (closeCycle polled hb (takeCycle s)))

/-- The instant from the roles on: `sw` a switch to another generation, `took` a takeover, `effective` a release that takes
effect, `evs` and `trig` what the closed cycle has for its record. -/
def afterRoles (sw took effective : Bool) (evs : List Event) (trig : Option (BitVec 16 × BitVec 32)) (s : State) : State :=
  let s1 := lskAtInstant s
  let s2 := if inService s1 then producedAtInstant took effective s1 else s1
  let s3 := sakAtInstant (openCycle s2)
  let s4 := if inService s3 then serviceInstant sw effective s3 else s3
  let s5 := domainAtInstant (upkeepAtInstant (openingAtStart (ptpAtInstant (fabAtInstant s4))))
  let s6 := recorderAtInstant evs trig (inService s1 && !took && s5.flow.overrunNow) s5
  endsAtInstant (refreshSummaries (heldSample s6))

/-- R35: everything that takes effect at an instant at which the count stands, together. `polled` and `hb` are the entries the
closed cycle polled, `sw` what switches a prepared generation. -/
def instantBody (polled hb : List Nat) (sw : State → State) (s : State) : State :=
  let s1 := beforeRoles polled hb sw s
  let s2 := twinAtInstant s1
  let took := isWaiting s1 && isActive s2
  afterRoles (switched s s1) took (releaseEffective s && !took) s.cmd.cycleEvents s.flow.rec_.trigger s2

/-- A node in service, or starting, whose supervisor is not held in reset. -/
def instantRuns (s : State) : Bool := s.sys.powered && !s.sys.heldInReset && inRun s

/-- R115: a removal takes effect at the next own instant, which abandons an addition whose switch is due there. -/
def removalDue (s : State) : Bool :=
  s.ina.removals.any (fun r => r.wait ≤ 1 && (s.ina.dir.map (fun d => uidNumbered d r.brk.lostUid)).getD false)

/-- Removals keep their instants over a switch of R135 between two instants of the own count. -/
def holdRemovals (s : State) : State :=
  modIna (fun n => { n with removals := n.removals.map (fun r => { r with wait := r.wait + 1 }) }) s

/-- R135, R471: the step, TIME_STEP and the switch at the instant that opens k. A node without the directory shows no
generation (R113, R155). -/
def yieldTo (p : Prepared) (t : Nat) (s : State) : State :=
  let polled := polledEntries s
  let hb := heartbeatEntries polled s
  let s0 := runTo t (if t < nextInstant s then holdRemovals s else s)
  let gen := if p.whole then p.dir.gen else 0
  let s1 := forEach [0, 1] mvbCut (stepDeltas ((List.range 4).filter (isBoundary s0)) p.step (countSteps p.step gen s0))
  instantBody polled hb (fun s => if p.whole then performSwitch p.dir p.conf false true s else lacksDirectory s) s1

/-- A registration instant. In Park only the count and the domains in Run go on; without power, the counter of PD0.
A switch under R135 that falls on the instant takes its place. -/
def instant (s : State) : State :=
  let polled := polledEntries s
  let hb := heartbeatEntries polled s
  let s1 := runTo (nextInstant s) s
  if instantRuns s then
    match s.ina.prep with
    | some p => if yieldSwitchTime s = some (nextInstant s) && !removalDue s then yieldTo p (nextInstant s) s
                else instantBody polled hb (switchAtInstant (cycleNo s1)) s1
    | none => instantBody polled hb (switchAtInstant (cycleNo s1)) s1
  else if inPark s then powerAtInstant s1 else s1

/-- REGISTRATION_INSTANT (R26, R27, R35). -/
def execRegistrationInstant (s : State) : Host.Outcome State Fault Refusal := .next (instant s)

/-! ## The next window and the deadline -/

/-- NEXT_OPEN_SET (R268, R269): the copy after an instant is complete. -/
def execNextOpenSet (dt : Nat) (s : State) : Host.Outcome State Fault Refusal :=
  let s1 := begin_ dt s
  .next (if s1.flow.opening && !s1.flow.nextOpen then openNext s1 else s1)

/-- R370: linked data written into a produced flow's payload, or discarded and counted where its class is bound to a pair. -/
def linkWrite (i off : Nat) (data : List Byte) (s : State) : State :=
  match blockRefuses .pcie ((areaBase (ctxOf s i) + 8 + off) / 64) s with
  | some l => pairCount l 6 s
  | none => writeLinked i off data s

/-- R422, R464: what the channels and segments have received is written into the bank that is prepared. -/
def linkedWrites (s : State) : State :=
  let ws := (s.can.flatMap canLinkWrites) ++ (s.mvb.flatMap mvbLinkWrites)
  let s1 := forEach ws (fun w s => linkWrite w.1 w.2.1 w.2.2 s) s
  forEach [0, 1] mvbDeadlineDone (forEach (List.range 12) canDeadlineDone s1)

/-- RELEASE_DEADLINE (R270, R422, R464), once in a cycle. -/
def execReleaseDeadline (dt : Nat) (s : State) : Host.Outcome State Fault Refusal :=
  let s1 := begin_ dt s
  .next (if s1.sys.ready && inRun s1 && !s1.flow.deadline then
      linkedWrites (modFlow (fun w => { w with deadline := true }) s1)
    else s1)

/-! ## The switch of a yielding group (R135–R137) -/

/-- YIELD_SWITCH (R135): at once where a later frame has put its moment into the past. -/
def execYieldSwitch (dt : Nat) (s : State) : Host.Outcome State Fault Refusal :=
  let s1 := begin_ dt s
  .next (match s1.ina.prep, yieldSwitchTime s1 with
    | some p, some t => if instantRuns s1 then yieldTo p (max t s1.now) s1 else s1
    | _, _ => s1)

/-! ## What happens at an instant, as commands of their own (R33, R35) -/

/-- A command whose event falls on a registration instant: the time that has passed brings the count there and the event is
due at it, and the instant comes with all that takes effect together with it. Otherwise only the time passes. -/
def instantIf (due : State → Bool) (dt : Nat) (s : State) : State :=
  if due (runTo (nextInstant s) s) && nextInstant s ≤ (begin_ dt s).now then instant s else begin_ dt s

/-- The closed cycle is the third in which both paths were silent (R332, R333). -/
def silentNow (s : State) : Bool := s.twin.silent = 2 && !s.twin.twNow && !s.twin.trNow

/-- The twin service of a joined node. -/
def twinServes (s : State) : Bool := s.twin.configured && joined s

/-- R333, R349: SILENT reaches 3, or k of an echoed planned switchover comes. -/
def takeoverDue (s : State) : Bool :=
  twinServes s && (silentNow s && (isWaiting s || isActive s) ||
    (match s.twin.role with | .standby => s.twin.echoed && s.twin.echoK == cycleNo s | _ => false))

/-- TAKEOVER (R333, R335, R339, R349). -/
def execTakeover (dt : Nat) (s : State) : Host.Outcome State Fault Refusal := .next (instantIf takeoverDue dt s)

/-- R334: the partner showed Out of service in the closed cycle. -/
def partnerOutDue (s : State) : Bool := twinServes s && isWaiting s && s.twin.hbOut

/-- TAKEOVER_PARTNER_OUT (R334, R335). -/
def execTakeoverPartnerOut (dt : Nat) (s : State) : Host.Outcome State Fault Refusal := .next (instantIf partnerOutDue dt s)

/-- R337, R338: a higher claim was heard, or a foreign CAN frame. -/
def stepDownDue (s : State) : Bool := twinServes s && isActive s && (s.twin.higher || s.twin.foreignStop)

/-- STEP_DOWN (R337, R338). -/
def execStepDown (dt : Nat) (s : State) : Host.Outcome State Fault Refusal := .next (instantIf stepDownDue dt s)

/-- R320: the eighth cycle without the partner Active ends at a node that is not preferred. -/
def activateDue (s : State) : Bool :=
  twinServes s && (match s.twin.role with | .out => true | _ => false) && !s.twin.heldOut && s.twin.joinedBefore &&
  !s.twin.preferred && partnerRole s ≠ 3 && !s.twin.hbActive && 7 ≤ s.twin.joinedCycles

/-- NONPREFERRED_ACTIVATE (R320). -/
def execNonpreferredActivate (dt : Nat) (s : State) : Host.Outcome State Fault Refusal := .next (instantIf activateDue dt s)

/-- R343: two cycles have passed since the commit of a region generation that the partner has not reported applied. -/
def abandonDue (s : State) : Bool :=
  twinServes s && (match s.twin.regionOut with
    | some g => g.committed && 2 ≤ g.cyclesSince && !(match s.twin.hb with | some h => h.regionRgen == g.rgen | none => false)
    | none => false)

/-- RACK_ABANDON (R343). -/
def execRackAbandon (dt : Nat) (s : State) : Host.Outcome State Fault Refusal := .next (instantIf abandonDue dt s)

/-- PAIR_RESTART (R378): the instant after a fence. -/
def execPairRestart (dt : Nat) (l : Fin 4) (s : State) : Host.Outcome State Fault Refusal :=
  .next (instantIf (restartsNow l.val) dt s)

/-- SPLIT_INSTANT (R382, R387). -/
def execSplitInstant (dt : Nat) (l : Fin 4) (s : State) : Host.Outcome State Fault Refusal :=
  .next (instantIf (fun s => splitsNow (pairOf s l.val)) dt s)

/-- REJOIN_INSTANT (R384). -/
def execRejoinInstant (dt : Nat) (l : Fin 4) (s : State) : Host.Outcome State Fault Refusal :=
  .next (instantIf (fun s => rejoinsNow (pairOf s l.val)) dt s)

/-- NODE_RESET_APPLY (R575, R356): at the instant after SYS_RESET. -/
def execNodeResetApply (dt : Nat) (s : State) : Host.Outcome State Fault Refusal := .next (instantIf resetDue dt s)

/-- PARK_ENTRY (R639): at the instant of cycle C. -/
def execParkEntry (dt : Nat) (s : State) : Host.Outcome State Fault Refusal := .next (instantIf parkDue dt s)

/-- KILN_ENTRY (R640): at the instant of cycle C. -/
def execKilnEntry (dt : Nat) (s : State) : Host.Outcome State Fault Refusal := .next (instantIf kilnDue dt s)

/-- R507: an identifier awaits its slot at the Active twin. -/
def slotDue (uid : BitVec 64) (s : State) : Bool := fabActiveTwin s && s.fab.assign.contains uid

/-- FABRIC_SLOT_ASSIGN (R507): at the next instant. -/
def execFabricSlotAssign (dt : Nat) (uid : BitVec 64) (s : State) : Host.Outcome State Fault Refusal :=
  .next (instantIf (slotDue uid) dt s)

/-- AGING_STEP_APPLY (R666): a guard-band step has been taken, for the next instant. -/
def execAgingStepApply (dt : Nat) (s : State) : Host.Outcome State Fault Refusal :=
  .next (instantIf (fun s => s.rep.stepNext.isSome) dt s)

/-- CAN_MATRIX_COMMIT (R441): the instant that begins a basic cycle of row 0, the first from cycle C on. -/
def execCanMatrixCommit (dt : Nat) (c : Fin 12) (s : State) : Host.Outcome State Fault Refusal :=
  .next (instantIf (canCommits c.val) dt s)

end Sys2Proof.Machine
end

