-- ==== Sys2Proof/Machine/Dispatch.lean ====
section
/-! DEFINITION. The dispatch: each command's arm calls its meaning. -/

namespace Sys2Proof.Machine

/-- The effect of a command on everything but the queue of waiting commands. -/
def exec (i : Instr) (s : State) : Host.Outcome State Fault Refusal :=
  match i with
  | .powerGood dt p => Sys2Proof.Machine.execPowerGood dt p s
  | .startStepComplete dt r => Sys2Proof.Machine.execStartStepComplete dt r s
  | .startRetry dt => Sys2Proof.Machine.execStartRetry dt s
  | .perstAssert dt => Sys2Proof.Machine.execPerstAssert dt s
  | .perstRelease dt => Sys2Proof.Machine.execPerstRelease dt s
  | .supervisorWatchdogExpiry dt => Sys2Proof.Machine.execSupervisorWatchdogExpiry dt s
  | .supervisorFatalFault dt => Sys2Proof.Machine.execSupervisorFatalFault dt s
  | .nodeResetApply dt => Sys2Proof.Machine.execNodeResetApply dt s
  | .inputVoltageChange dt vin => Sys2Proof.Machine.execInputVoltageChange dt vin s
  | .storeOkChange dt vstore => Sys2Proof.Machine.execStoreOkChange dt vstore s
  | .lossDeclared dt vin vstore => Sys2Proof.Machine.execLossDeclared dt vin vstore s
  | .shutdownBypassClose dt => Sys2Proof.Machine.execShutdownBypassClose dt s
  | .converterStop dt vin => Sys2Proof.Machine.execConverterStop dt vin s
  | .pd0Stop dt => Sys2Proof.Machine.execPd0Stop dt s
  | .thermalChange dt case die => Sys2Proof.Machine.execThermalChange dt case die s
  | .powerDomainIdle dt d idle next => Sys2Proof.Machine.execPowerDomainIdle dt d idle next s
  | .domainWakeTimer dt d => Sys2Proof.Machine.execDomainWakeTimer dt d s
  | .asyncDomainWake dt d due => Sys2Proof.Machine.execAsyncDomainWake dt d due s
  | .parkEntry dt => Sys2Proof.Machine.execParkEntry dt s
  | .kilnEntry dt => Sys2Proof.Machine.execKilnEntry dt s
  | .wakeSource dt src port => Sys2Proof.Machine.execWakeSource dt src port s
  | .wakeLLowTimeout dt => Sys2Proof.Machine.execWakeLLowTimeout dt s
  | .parkWakeComplete dt => Sys2Proof.Machine.execParkWakeComplete dt s
  | .registrationInstant => Sys2Proof.Machine.execRegistrationInstant s
  | .holdoverEntry dt => Sys2Proof.Machine.execHoldoverEntry dt s
  | .nextOpenSet dt => Sys2Proof.Machine.execNextOpenSet dt s
  | .releaseDeadline dt => Sys2Proof.Machine.execReleaseDeadline dt s
  | .lossOfSignal dt p => Sys2Proof.Machine.execLossOfSignal dt p s
  | .resumeEntry dt p => Sys2Proof.Machine.execResumeEntry dt p s
  | .signalRelock dt p => Sys2Proof.Machine.execSignalRelock dt p s
  | .linkDownTimeout dt p => Sys2Proof.Machine.execLinkDownTimeout dt p s
  | .partnerEnergyDetect dt p => Sys2Proof.Machine.execPartnerEnergyDetect dt p s
  | .trainingLockComplete dt p => Sys2Proof.Machine.execTrainingLockComplete dt p s
  | .qualifyComplete dt p partner => Sys2Proof.Machine.execQualifyComplete dt p partner s
  | .codeViolationLimit dt p violations lockLost => Sys2Proof.Machine.execCodeViolationLimit dt p violations lockLost s
  | .negotiateTimeout dt p => Sys2Proof.Machine.execNegotiateTimeout dt p s
  | .t1LinkUp dt p partner => Sys2Proof.Machine.execT1LinkUp dt p partner s
  | .t1RoleSwap dt p => Sys2Proof.Machine.execT1RoleSwap dt p s
  | .delayRequest dt p idle tTx => Sys2Proof.Machine.execDelayRequest dt p idle tTx s
  | .delayMarkerRx dt p m tRx tTx => Sys2Proof.Machine.execDelayMarkerRx dt p m tRx tTx s
  | .delayFollowUpRx dt p m => Sys2Proof.Machine.execDelayFollowUpRx dt p m s
  | .peerDelayRequest dt p tTx => Sys2Proof.Machine.execPeerDelayRequest dt p tTx s
  | .bypassLineAClose dt => Sys2Proof.Machine.execBypassLineAClose dt s
  | .bypassLineBClose dt => Sys2Proof.Machine.execBypassLineBClose dt s
  | .bypassLineAOpen dt => Sys2Proof.Machine.execBypassLineAOpen dt s
  | .bypassLineBOpen dt => Sys2Proof.Machine.execBypassLineBOpen dt s
  | .bypassSenseCheck dt line closed => Sys2Proof.Machine.execBypassSenseCheck dt line closed s
  | .linkBeaconSend dt p idleFor => Sys2Proof.Machine.execLinkBeaconSend dt p idleFor s
  | .passiveBeaconSend dt => Sys2Proof.Machine.execPassiveBeaconSend dt s
  | .linkBeaconRx dt p b tRx => Sys2Proof.Machine.execLinkBeaconRx dt p b tRx s
  | .breakRx dt p b => Sys2Proof.Machine.execBreakRx dt p b s
  | .directoryRx dt p d => Sys2Proof.Machine.execDirectoryRx dt p d s
  | .joinRx dt p j => Sys2Proof.Machine.execJoinRx dt p j s
  | .coldClaimRx dt p c => Sys2Proof.Machine.execColdClaimRx dt p c s
  | .mergeReportRx dt p m => Sys2Proof.Machine.execMergeReportRx dt p m s
  | .leadSetRx dt p vid => Sys2Proof.Machine.execLeadSetRx dt p vid s
  | .openingFrameRx dt p f tRx fin => Sys2Proof.Machine.execOpeningFrameRx dt p f tRx fin s
  | .coldStartTimeout dt => Sys2Proof.Machine.execColdStartTimeout dt s
  | .coldClaimSend dt => Sys2Proof.Machine.execColdClaimSend dt s
  | .contendTimeout dt => Sys2Proof.Machine.execContendTimeout dt s
  | .provisionalNoJoin dt => Sys2Proof.Machine.execProvisionalNoJoin dt s
  | .yieldSwitch dt => Sys2Proof.Machine.execYieldSwitch dt s
  | .scheduledSend dt entry transit => Sys2Proof.Machine.execScheduledSend dt entry transit s
  | .sporadicAbort dt passing => Sys2Proof.Machine.execSporadicAbort dt passing s
  | .trunkFrameForward dt p f tRx => Sys2Proof.Machine.execTrunkFrameForward dt p f tRx s
  | .flowFrameRx dt src f fin => Sys2Proof.Machine.execFlowFrameRx dt src f fin s
  | .sessionFrameRx dt p f => Sys2Proof.Machine.execSessionFrameRx dt p f s
  | .sessionRetransmit dt sid opener => Sys2Proof.Machine.execSessionRetransmit dt sid opener s
  | .tcxoStop dt => Sys2Proof.Machine.execTcxoStop dt s
  | .tcxoRestart dt => Sys2Proof.Machine.execTcxoRestart dt s
  | .ptpSyncRx dt port m => Sys2Proof.Machine.execPtpSyncRx dt port m s
  | .ptpAnnounceRx dt port m => Sys2Proof.Machine.execPtpAnnounceRx dt port m s
  | .ptpMessageSend dt inst kind => Sys2Proof.Machine.execPtpMessageSend dt inst kind s
  | .ptpSyncTimeout dt inst announce => Sys2Proof.Machine.execPtpSyncTimeout dt inst announce s
  | .domainReturnTimer dt => Sys2Proof.Machine.execDomainReturnTimer dt s
  | .tioPulseEdge dt n at_ assert_ => Sys2Proof.Machine.execTioPulseEdge dt n at_ assert_ s
  | .tioCaptureEdge dt n at_ rising width => Sys2Proof.Machine.execTioCaptureEdge dt n at_ rising width s
  | .tioArm dt n src value => Sys2Proof.Machine.execTioArm dt n src value s
  | .tioStop dt n src value => Sys2Proof.Machine.execTioStop dt n src value s
  | .tioCapRead dt n src => Sys2Proof.Machine.execTioCapRead dt n src s
  | .heartbeatRx dt path h => Sys2Proof.Machine.execHeartbeatRx dt path h s
  | .takeover dt => Sys2Proof.Machine.execTakeover dt s
  | .takeoverPartnerOut dt => Sys2Proof.Machine.execTakeoverPartnerOut dt s
  | .stepDown dt => Sys2Proof.Machine.execStepDown dt s
  | .nonpreferredActivate dt => Sys2Proof.Machine.execNonpreferredActivate dt s
  | .rackingFrameRx dt f => Sys2Proof.Machine.execRackingFrameRx dt f s
  | .regionStagingApply dt => Sys2Proof.Machine.execRegionStagingApply dt s
  | .rackAbandon dt => Sys2Proof.Machine.execRackAbandon dt s
  | .copyOnWrite dt page addr data => Sys2Proof.Machine.execCopyOnWrite dt page addr data s
  | .burinVerdict dt l cycles => Sys2Proof.Machine.execBurinVerdict dt l cycles s
  | .holdBufferStall dt l cycles => Sys2Proof.Machine.execHoldBufferStall dt l cycles s
  | .checkerFault dt l => Sys2Proof.Machine.execCheckerFault dt l s
  | .cacheUncorrectable dt l core => Sys2Proof.Machine.execCacheUncorrectable dt l core s
  | .pairRestart dt l => Sys2Proof.Machine.execPairRestart dt l s
  | .pairAccessFault dt l core addr => Sys2Proof.Machine.execPairAccessFault dt l core addr s
  | .handoverPoint dt l => Sys2Proof.Machine.execHandoverPoint dt l s
  | .splitInstant dt l => Sys2Proof.Machine.execSplitInstant dt l s
  | .substitutionTransfer dt l => Sys2Proof.Machine.execSubstitutionTransfer dt l s
  | .rejoinInstant dt l => Sys2Proof.Machine.execRejoinInstant dt l s
  | .handoverAbandon dt l => Sys2Proof.Machine.execHandoverAbandon dt l s
  | .debugAccess dt l => Sys2Proof.Machine.execDebugAccess dt l s
  | .jtagExtest dt => Sys2Proof.Machine.execJtagExtest dt s
  | .pairReadyWrite dt l core value => Sys2Proof.Machine.execPairReadyWrite dt l core value s
  | .canFrameRx dt c f own => Sys2Proof.Machine.execCanFrameRx dt c f own s
  | .canTxComplete dt c tdcv => Sys2Proof.Machine.execCanTxComplete dt c tdcv s
  | .canArbitrationLost dt c => Sys2Proof.Machine.execCanArbitrationLost dt c s
  | .canError dt c e => Sys2Proof.Machine.execCanError dt c e s
  | .canRecoveryComplete dt c occ => Sys2Proof.Machine.execCanRecoveryComplete dt c occ s
  | .canIntegrationComplete dt c => Sys2Proof.Machine.execCanIntegrationComplete dt c s
  | .canWakePattern dt c => Sys2Proof.Machine.execCanWakePattern dt c s
  | .canModeWrite dt c src value busy => Sys2Proof.Machine.execCanModeWrite dt c src value busy s
  | .canTxrqWrite dt c m src value => Sys2Proof.Machine.execCanTxrqWrite dt c m src value s
  | .canTxcanWrite dt c m src value => Sys2Proof.Machine.execCanTxcanWrite dt c m src value s
  | .canHpbRequest dt c src value => Sys2Proof.Machine.execCanHpbRequest dt c src value s
  | .canHpbCancel dt c src value => Sys2Proof.Machine.execCanHpbCancel dt c src value s
  | .canRecoverStart dt c src value => Sys2Proof.Machine.execCanRecoverStart dt c src value s
  | .canFifoPop dt c src value => Sys2Proof.Machine.execCanFifoPop dt c src value s
  | .canObjectWord0Read dt c o src => Sys2Proof.Machine.execCanObjectWord0Read dt c o src s
  | .canObjectWrite dt c o word src value => Sys2Proof.Machine.execCanObjectWrite dt c o word src value s
  | .canTtCommitWrite dt c src cycle => Sys2Proof.Machine.execCanTtCommitWrite dt c src cycle s
  | .canMatrixCommit dt c => Sys2Proof.Machine.execCanMatrixCommit dt c s
  | .canReferenceRx dt c count => Sys2Proof.Machine.execCanReferenceRx dt c count s
  | .canReferenceAbandon dt c => Sys2Proof.Machine.execCanReferenceAbandon dt c s
  | .canSlaveRefTimeout dt c => Sys2Proof.Machine.execCanSlaveRefTimeout dt c s
  | .canHatchWindow dt c col idle => Sys2Proof.Machine.execCanHatchWindow dt c col idle s
  | .canHatchWindowEnd dt c col => Sys2Proof.Machine.execCanHatchWindowEnd dt c col s
  | .mvbBasicPeriodStart dt g => Sys2Proof.Machine.execMvbBasicPeriodStart dt g s
  | .mvbMasterFrameSend dt g => Sys2Proof.Machine.execMvbMasterFrameSend dt g s
  | .mvbNoReplyTimeout dt g => Sys2Proof.Machine.execMvbNoReplyTimeout dt g s
  | .mvbMasterFrameRx dt g f => Sys2Proof.Machine.execMvbMasterFrameRx dt g f s
  | .mvbSlaveFrameRx dt g f => Sys2Proof.Machine.execMvbSlaveFrameRx dt g f s
  | .consistFrameRx dt f => Sys2Proof.Machine.execConsistFrameRx dt f s
  | .consistFrameEgress dt port queue => Sys2Proof.Machine.execConsistFrameEgress dt port queue s
  | .addressAgeing dt mac vid => Sys2Proof.Machine.execAddressAgeing dt mac vid s
  | .frerResetTimer dt handle => Sys2Proof.Machine.execFrerResetTimer dt handle s
  | .mkaPduRx dt port m => Sys2Proof.Machine.execMkaPduRx dt port m s
  | .sakDistribute dt port => Sys2Proof.Machine.execSakDistribute dt port s
  | .consistLinkChange dt port up speed t1Master => Sys2Proof.Machine.execConsistLinkChange dt port up speed t1Master s
  | .fabricBeaconSend dt k => Sys2Proof.Machine.execFabricBeaconSend dt k s
  | .fabricBeaconRx dt k b => Sys2Proof.Machine.execFabricBeaconRx dt k b s
  | .fabricSlotAssign dt uid => Sys2Proof.Machine.execFabricSlotAssign dt uid s
  | .fabricFrameRx dt k f => Sys2Proof.Machine.execFabricFrameRx dt k f s
  | .fabricAckTimeout dt k => Sys2Proof.Machine.execFabricAckTimeout dt k s
  | .fabricLinkDown dt k => Sys2Proof.Machine.execFabricLinkDown dt k s
  | .fabricLinkUp dt k => Sys2Proof.Machine.execFabricLinkUp dt k s
  | .fabricLaneSwitch dt k lane errors => Sys2Proof.Machine.execFabricLaneSwitch dt k lane errors s
  | .spareLaneGood dt k errors => Sys2Proof.Machine.execSpareLaneGood dt k errors s
  | .fabricReportRx dt p r => Sys2Proof.Machine.execFabricReportRx dt p r s
  | .fabricTickSend dt => Sys2Proof.Machine.execFabricTickSend dt s
  | .fabricTickRx dt k t tRx residence => Sys2Proof.Machine.execFabricTickRx dt k t tRx residence s
  | .proxyFrameRx dt slot entry f => Sys2Proof.Machine.execProxyFrameRx dt slot entry f s
  | .fabricSubscribeRx dt slot flows => Sys2Proof.Machine.execFabricSubscribeRx dt slot flows s
  | .bridgeRequestRx dt p r bad => Sys2Proof.Machine.execBridgeRequestRx dt p r bad s
  | .bridgeResponseRx dt p r => Sys2Proof.Machine.execBridgeResponseRx dt p r s
  | .bridgeWithdrawRx dt p r => Sys2Proof.Machine.execBridgeWithdrawRx dt p r s
  | .bridgeRetryTimer dt tag => Sys2Proof.Machine.execBridgeRetryTimer dt tag s
  | .bridgeReqTimeout dt tag => Sys2Proof.Machine.execBridgeReqTimeout dt tag s
  | .bridgeFetchStale dt => Sys2Proof.Machine.execBridgeFetchStale dt s
  | .bridgeBusyRetry dt => Sys2Proof.Machine.execBridgeBusyRetry dt s
  | .remoteWindowRead dt src w off len => Sys2Proof.Machine.execRemoteWindowRead dt src w off len s
  | .remoteWindowWrite dt src w off data => Sys2Proof.Machine.execRemoteWindowWrite dt src w off data s
  | .lockedSequenceStart dt w off => Sys2Proof.Machine.execLockedSequenceStart dt w off s
  | .lockedSequenceEnd dt => Sys2Proof.Machine.execLockedSequenceEnd dt s
  | .fabSemRead dt src k => Sys2Proof.Machine.execFabSemRead dt src k s
  | .fabSemWrite dt src k value => Sys2Proof.Machine.execFabSemWrite dt src k value s
  | .semTmoExpiry dt k => Sys2Proof.Machine.execSemTmoExpiry dt k s
  | .fabVecPendWrite dt src value => Sys2Proof.Machine.execFabVecPendWrite dt src value s
  | .memoryEccError dt e => Sys2Proof.Machine.execMemoryEccError dt e s
  | .scrubSlice dt w => Sys2Proof.Machine.execScrubSlice dt w s
  | .bankDrainComplete dt bank => Sys2Proof.Machine.execBankDrainComplete dt bank s
  | .rotationStep dt => Sys2Proof.Machine.execRotationStep dt s
  | .logicSelfTestComplete dt phys passed monitors => Sys2Proof.Machine.execLogicSelfTestComplete dt phys passed monitors s
  | .agingMonitorRead dt monitors => Sys2Proof.Machine.execAgingMonitorRead dt monitors s
  | .agingStepApply dt => Sys2Proof.Machine.execAgingStepApply dt s
  | .queuedCommandComplete dt seq status => Sys2Proof.Machine.execQueuedCommandComplete dt seq status s
  | .mailboxWrite dt src mbx off data => Sys2Proof.Machine.execMailboxWrite dt src mbx off data s
  | .mbxLockRead dt src mbx => Sys2Proof.Machine.execMbxLockRead dt src mbx s
  | .mbxLockWrite dt src mbx value => Sys2Proof.Machine.execMbxLockWrite dt src mbx value s
  | .evqRdWrite dt src value => Sys2Proof.Machine.execEvqRdWrite dt src value s
  | .evqHoldTimeout dt => Sys2Proof.Machine.execEvqHoldTimeout dt s
  | .nextWindowWrite dt src off data => Sys2Proof.Machine.execNextWindowWrite dt src off data s
  | .currentWindowWrite dt src off data => Sys2Proof.Machine.execCurrentWindowWrite dt src off data s
  | .pdiReleaseHost dt src value => Sys2Proof.Machine.execPdiReleaseHost dt src value s
  | .pdiReleasePair dt l value => Sys2Proof.Machine.execPdiReleasePair dt l value s
  | .pdiRelMaskWrite dt src value => Sys2Proof.Machine.execPdiRelMaskWrite dt src value s
  | .multiRegisterLatchRead dt src addr => Sys2Proof.Machine.execMultiRegisterLatchRead dt src addr s
  | .rcFieldRead dt src addr => Sys2Proof.Machine.execRcFieldRead dt src addr s
  | .localBusAccess dt a => Sys2Proof.Machine.execLocalBusAccess dt a s
  | .pcieMultiDwordRequest dt addr len wdata => Sys2Proof.Machine.execPcieMultiDwordRequest dt addr len wdata s
  | .spiTransfer dt addr words wdata => Sys2Proof.Machine.execSpiTransfer dt addr words wdata s
  | .unalignedAccess dt src addr width wdata => Sys2Proof.Machine.execUnalignedAccess dt src addr width wdata s
  | .unmappedAccess dt src addr width wdata => Sys2Proof.Machine.execUnmappedAccess dt src addr width wdata s
  | .registerWrite dt src addr value => Sys2Proof.Machine.execRegisterWrite dt src addr value s
  | .sysIdentity dt r => Sys2Proof.Machine.execSysIdentity dt r s
  | .sysNop dt r => Sys2Proof.Machine.execSysNop dt r s
  | .sysReset dt r => Sys2Proof.Machine.execSysReset dt r s
  | .sysEventMask dt r => Sys2Proof.Machine.execSysEventMask dt r s
  | .sysPatchStage dt r => Sys2Proof.Machine.execSysPatchStage dt r s
  | .sysPatchVerify dt r => Sys2Proof.Machine.execSysPatchVerify dt r s
  | .sysLogRead dt r => Sys2Proof.Machine.execSysLogRead dt r s
  | .sysProfileConfirm dt r => Sys2Proof.Machine.execSysProfileConfirm dt r s
  | .sysDebugNonce dt r => Sys2Proof.Machine.execSysDebugNonce dt r s
  | .sysDebugUnlock dt r => Sys2Proof.Machine.execSysDebugUnlock dt r s
  | .sysDebugRelock dt r => Sys2Proof.Machine.execSysDebugRelock dt r s
  | .topoStatus dt r => Sys2Proof.Machine.execTopoStatus dt r s
  | .topoDirectory dt r => Sys2Proof.Machine.execTopoDirectory dt r s
  | .topoPositionMap dt r => Sys2Proof.Machine.execTopoPositionMap dt r s
  | .topoSetLeading dt r => Sys2Proof.Machine.execTopoSetLeading dt r s
  | .topoSetIdentity dt r => Sys2Proof.Machine.execTopoSetIdentity dt r s
  | .topoColdStart dt r => Sys2Proof.Machine.execTopoColdStart dt r s
  | .trunkSetPolicy dt r => Sys2Proof.Machine.execTrunkSetPolicy dt r s
  | .trunkStatus dt r => Sys2Proof.Machine.execTrunkStatus dt r s
  | .trunkBypassPassive dt r => Sys2Proof.Machine.execTrunkBypassPassive dt r s
  | .trunkBypassActive dt r => Sys2Proof.Machine.execTrunkBypassActive dt r s
  | .trunkRetrain dt r => Sys2Proof.Machine.execTrunkRetrain dt r s
  | .schedStatus dt r => Sys2Proof.Machine.execSchedStatus dt r s
  | .schedStage dt r => Sys2Proof.Machine.execSchedStage dt r s
  | .schedVerify dt r => Sys2Proof.Machine.execSchedVerify dt r s
  | .schedHold dt r => Sys2Proof.Machine.execSchedHold dt r s
  | .schedActivate dt r => Sys2Proof.Machine.execSchedActivate dt r s
  | .schedRelease dt r => Sys2Proof.Machine.execSchedRelease dt r s
  | .schedEntryStatus dt r => Sys2Proof.Machine.execSchedEntryStatus dt r s
  | .timeStatus dt r => Sys2Proof.Machine.execTimeStatus dt r s
  | .timeSet dt r => Sys2Proof.Machine.execTimeSet dt r s
  | .timePtpConfig dt r => Sys2Proof.Machine.execTimePtpConfig dt r s
  | .timeDomainPolicy dt r => Sys2Proof.Machine.execTimeDomainPolicy dt r s
  | .timeSteer dt r => Sys2Proof.Machine.execTimeSteer dt r s
  | .timePtpStatus dt r => Sys2Proof.Machine.execTimePtpStatus dt r s
  | .flowSet dt r => Sys2Proof.Machine.execFlowSet dt r s
  | .flowGet dt r => Sys2Proof.Machine.execFlowGet dt r s
  | .flowStatus dt r => Sys2Proof.Machine.execFlowStatus dt r s
  | .flowSave dt r => Sys2Proof.Machine.execFlowSave dt r s
  | .flowMacsecKey dt r => Sys2Proof.Machine.execFlowMacsecKey dt r s
  | .sessionOpen dt r => Sys2Proof.Machine.execSessionOpen dt r s
  | .sessionSend dt r => Sys2Proof.Machine.execSessionSend dt r s
  | .sessionRecv dt r => Sys2Proof.Machine.execSessionRecv dt r s
  | .sessionClose dt r => Sys2Proof.Machine.execSessionClose dt r s
  | .twinStatus dt r => Sys2Proof.Machine.execTwinStatus dt r s
  | .twinConfig dt r => Sys2Proof.Machine.execTwinConfig dt r s
  | .twinSwitchover dt r => Sys2Proof.Machine.execTwinSwitchover dt r s
  | .twinServiceOut dt r => Sys2Proof.Machine.execTwinServiceOut dt r s
  | .twinServiceReturn dt r => Sys2Proof.Machine.execTwinServiceReturn dt r s
  | .twinRenew dt r => Sys2Proof.Machine.execTwinRenew dt r s
  | .lskStatus dt r => Sys2Proof.Machine.execLskStatus dt r s
  | .lskPairConfig dt r => Sys2Proof.Machine.execLskPairConfig dt r s
  | .lskPairReset dt r => Sys2Proof.Machine.execLskPairReset dt r s
  | .lskSplit dt r => Sys2Proof.Machine.execLskSplit dt r s
  | .lskRejoin dt r => Sys2Proof.Machine.execLskRejoin dt r s
  | .lskSubstitute dt r => Sys2Proof.Machine.execLskSubstitute dt r s
  | .canSave dt r => Sys2Proof.Machine.execCanSave dt r s
  | .canLoad dt r => Sys2Proof.Machine.execCanLoad dt r s
  | .mvbConfig dt r => Sys2Proof.Machine.execMvbConfig dt r s
  | .mvbPollStage dt r => Sys2Proof.Machine.execMvbPollStage dt r s
  | .mvbPollCommit dt r => Sys2Proof.Machine.execMvbPollCommit dt r s
  | .mvbPortSet dt r => Sys2Proof.Machine.execMvbPortSet dt r s
  | .mvbPortWrite dt r => Sys2Proof.Machine.execMvbPortWrite dt r s
  | .mvbPortRead dt r => Sys2Proof.Machine.execMvbPortRead dt r s
  | .mvbStatus dt r => Sys2Proof.Machine.execMvbStatus dt r s
  | .swcPortConfig dt r => Sys2Proof.Machine.execSwcPortConfig dt r s
  | .swcPortStatus dt r => Sys2Proof.Machine.execSwcPortStatus dt r s
  | .swcVlanSet dt r => Sys2Proof.Machine.execSwcVlanSet dt r s
  | .swcStreamSet dt r => Sys2Proof.Machine.execSwcStreamSet dt r s
  | .swcGclStage dt r => Sys2Proof.Machine.execSwcGclStage dt r s
  | .swcGclCommit dt r => Sys2Proof.Machine.execSwcGclCommit dt r s
  | .swcMacsecKey dt r => Sys2Proof.Machine.execSwcMacsecKey dt r s
  | .swcStreamStatus dt r => Sys2Proof.Machine.execSwcStreamStatus dt r s
  | .swcSave dt r => Sys2Proof.Machine.execSwcSave dt r s
  | .fabStatus dt r => Sys2Proof.Machine.execFabStatus dt r s
  | .fabConfig dt r => Sys2Proof.Machine.execFabConfig dt r s
  | .fabWindowSet dt r => Sys2Proof.Machine.execFabWindowSet dt r s
  | .fabSlotTable dt r => Sys2Proof.Machine.execFabSlotTable dt r s
  | .fabBridgeStatus dt r => Sys2Proof.Machine.execFabBridgeStatus dt r s
  | .fabPwlog dt r => Sys2Proof.Machine.execFabPwlog dt r s
  | .fabSemRelease dt r => Sys2Proof.Machine.execFabSemRelease dt r s
  | .pwrStatus dt r => Sys2Proof.Machine.execPwrStatus dt r s
  | .pwrDomainConfig dt r => Sys2Proof.Machine.execPwrDomainConfig dt r s
  | .pwrPark dt r => Sys2Proof.Machine.execPwrPark dt r s
  | .pwrParkWithdraw dt r => Sys2Proof.Machine.execPwrParkWithdraw dt r s
  | .pwrKiln dt r => Sys2Proof.Machine.execPwrKiln dt r s
  | .pwrKilnWithdraw dt r => Sys2Proof.Machine.execPwrKilnWithdraw dt r s
  | .pwrWakeConfig dt r => Sys2Proof.Machine.execPwrWakeConfig dt r s
  | .repStatus dt r => Sys2Proof.Machine.execRepStatus dt r s
  | .repLog dt r => Sys2Proof.Machine.execRepLog dt r s
  | .repTest dt r => Sys2Proof.Machine.execRepTest dt r s
  | .repCalibrate dt r => Sys2Proof.Machine.execRepCalibrate dt r s
  | .repRotation dt r => Sys2Proof.Machine.execRepRotation dt r s
  | .recStatus dt r => Sys2Proof.Machine.execRecStatus dt r s
  | .recConfig dt r => Sys2Proof.Machine.execRecConfig dt r s
  | .recTrigger dt r => Sys2Proof.Machine.execRecTrigger dt r s
  | .recCask dt r => Sys2Proof.Machine.execRecCask dt r s
  | .recRelease dt r => Sys2Proof.Machine.execRecRelease dt r s
  | .recPage dt r => Sys2Proof.Machine.execRecPage dt r s
  | .autonegComplete dt p m1000 m100 master => Sys2Proof.Machine.execAutonegComplete dt p m1000 m100 master s
  | .trainingFailure dt p answered => Sys2Proof.Machine.execTrainingFailure dt p answered s
  | .t1LinkDown dt p => Sys2Proof.Machine.execT1LinkDown dt p s
  | .ttdpFrameRx dt p t => Sys2Proof.Machine.execTtdpFrameRx dt p t s
  | .trunkDomainSyncRx dt p domain origin tRx => Sys2Proof.Machine.execTrunkDomainSyncRx dt p domain origin tRx s
  | .islandInaugurationComplete dt dir wtbAddrs interior master reporter => Sys2Proof.Machine.execIslandInaugurationComplete dt dir wtbAddrs interior master reporter s
  | .islandTelegramRx dt addr data okA okB => Sys2Proof.Machine.execIslandTelegramRx dt addr data okA okB s
  | .islandTelegramSend dt => Sys2Proof.Machine.execIslandTelegramSend dt s
  | .nonScheduledSend dt p transitBusy => Sys2Proof.Machine.execNonScheduledSend dt p transitBusy s
  | .doorbellRing dt src mbx value => Sys2Proof.Machine.execDoorbellRing dt src mbx value s
  | .rackingFrameSend dt room => Sys2Proof.Machine.execRackingFrameSend dt room s

end Sys2Proof.Machine
end

