-- ==== Sys2Proof/Safety.lean ====
section
/-! DEFINITION. What the claims call a sound state: the machine keeps its parts (so many ports, channels, mailboxes), and
the identity fused at manufacture (R23, R574) and the commands still waiting are never touched by a command; and which trunk
frames they speak of. -/

namespace Sys2Proof.Machine

/-- The identity fused at manufacture (R23, R574). -/
structure Fused where
  uid : BitVec 64
  ordering : List Byte
  revision : BitVec 16
  dateYear : Byte
  dateWeek : Byte
  romMinor : Byte
  deriving DecidableEq, Repr

/-- The fused identity of a system block. -/
def fusedOf (y : Sys) : Fused := ⟨y.uid, y.ordering, y.revision, y.dateYear, y.dateWeek, y.romMinor⟩

/-- How many parts of each kind a state lists. -/
structure Parts where
  mailboxes : Nat
  trunkPorts : Nat
  canChannels : Nat
  mvbSegments : Nat
  pairs : Nat
  fabricLinks : Nat
  timedPorts : Nat
  domains : Nat
  deriving DecidableEq, Repr

/-- The parts a state lists. -/
def partsOf (s : State) : Parts where
  mailboxes := s.cmd.mbx.length
  trunkPorts := s.trunk.ports.length
  canChannels := s.can.length
  mvbSegments := s.mvb.length
  pairs := s.lsk.pairs.length
  fabricLinks := s.fab.links.length
  timedPorts := s.time.tio.length
  domains := s.pwr.doms.length

/-- The parts the node has: 8 mailboxes (R545), 4 trunk ports (R42), 12 CAN channels, 2 vehicle-bus segments, 4 lock-step
pairs (R358), 4 fabric links (R496), 6 timed I/O ports (R251) and 12 power domains (R631). -/
def nodeParts : Parts where
  mailboxes := 8
  trunkPorts := 4
  canChannels := 12
  mvbSegments := 2
  pairs := 4
  fabricLinks := 4
  timedPorts := 6
  domains := 12

/-- A sound state lists exactly the parts the node has. -/
def Sound (s : State) : Prop := partsOf s = nodeParts

/-- Frames of this node's own group that come on port `p` now, outside the slot region, are taken: the port is Up and no
boundary (R37, R92, R185). -/
def OwnTraffic (p : Fin 4) (dt : Nat) (s : State) : Prop :=
  portUp s p = true ∧ isBoundary s p = false ∧ straysNow p (begin_ dt s) = false

/-- The state is sound, and holds the waiting commands and the fused identity `k`. -/
def Kept (k : List Instr × Fused) (s : State) : Prop :=
  s.pending = k.1 ∧ fusedOf s.sys = k.2 ∧ Sound s

/-! ## What a command may write -/

/-- The parts of a state that claims about what stays tell apart. `mbx` is the mailboxes and `cmd` the rest of `State.cmd`;
`vec` is the pending vectors and `bridge` the rest of `State.bridge`; `now` is the count with the part of a tick it is ahead by
(`Time.carry`), and `time` the rest of `State.time`. -/
inductive Block where
  | pending
  | now
  | clk
  | free
  | emit
  | sys
  | mbx
  | cmd
  | trunk
  | ina
  | sched
  | time
  | flow
  | twin
  | lsk
  | can
  | mvb
  | swc
  | fab
  | bridge
  | vec
  | pwr
  | rep
  | shelf
  | shadows
  | summaries
  deriving DecidableEq, Repr

/-- Part `b` of `t` is that of `s`. -/
def SamePart (s t : State) : Block → Prop
  | .pending => t.pending = s.pending
  | .now => t.now = s.now ∧ t.time.carry = s.time.carry
  | .clk => t.clk = s.clk
  | .free => t.free = s.free
  | .emit => t.emit = s.emit
  | .sys => t.sys = s.sys
  | .mbx => t.cmd.mbx = s.cmd.mbx
  | .cmd => { t.cmd with mbx := [] } = { s.cmd with mbx := [] }
  | .trunk => t.trunk = s.trunk
  | .ina => t.ina = s.ina
  | .sched => t.sched = s.sched
  | .time => { t.time with carry := 0 } = { s.time with carry := 0 }
  | .flow => t.flow = s.flow
  | .twin => t.twin = s.twin
  | .lsk => t.lsk = s.lsk
  | .can => t.can = s.can
  | .mvb => t.mvb = s.mvb
  | .swc => t.swc = s.swc
  | .fab => t.fab = s.fab
  | .bridge => { t.bridge with vecPend := 0 } = { s.bridge with vecPend := 0 }
  | .vec => t.bridge.vecPend = s.bridge.vecPend
  | .pwr => t.pwr = s.pwr
  | .rep => t.rep = s.rep
  | .shelf => t.shelf = s.shelf
  | .shadows => t.shadows = s.shadows
  | .summaries => t.summaries = s.summaries ∧ t.summariesNew = s.summariesNew ∧ t.summariesAt = s.summariesAt

/-- `t` differs from `s` in the parts `w` at most. -/
def OnlyWrites (w : List Block) (s t : State) : Prop := ∀ b, b ∉ w → SamePart s t b

/-- The command completes in every state, and writes no part of it but those named. -/
def Writes (w : List Block) (i : Instr) : Prop := ∀ s, ∃ t, exec i s = .next t ∧ OnlyWrites w s t

/-! ## What claims about mailbox commands speak of -/

/-- A host may ring a mailbox with `r`, `dt` ticks from now, and the node takes the command: the interface reaches the
mailboxes, the mailbox is idle and not locked by another party, no reset is due, and the node is ready (R546–R550, R607,
R608). -/
structure Rings (r : Ring) (dt : Nat) (s : State) : Prop where
  sound : Sound s
  may : mayRing r.src (begin_ dt s) = true
  idle : (mbxOf s r.mbx).ring = false
  noReset : s.sys.resetPending = none
  lock : lockAllows r.mbx r.src s = true
  ready : s.sys.ready = true

/-- A ring that the node takes and whose request passes the checks every command has (R555, steps 2 to 4); where the
command stores in flash, no write to it fails. -/
structure Runs (sp : CmdSpec) (r : Ring) (dt : Nat) (s : State) : Prop where
  rings : Rings r dt s
  checks : checkRequest sp r.src r.req = none
  flash : sp.flash = true → r.flashFail = none

/-- The state in which an accepted command runs: time has passed, the request stands in the mailbox and the ring is taken. -/
def taken (op dt : Nat) (r : Ring) (s : State) : State := acceptRing r.mbx r.src (loadRequest op r (begin_ dt s))

/-- R553: mailbox `r.mbx` of `t` shows the completion of `r` with a status, a DETAIL and a response; `u` is the state in
which the command ran. -/
def Answered (r : Ring) (status detail : Nat) (rsp : List Byte) (u t : State) : Prop :=
  (mbxOf t r.mbx).ring = false ∧ (mbxOf t r.mbx).done = true ∧ (mbxOf t r.mbx).state = 2 ∧
  (mbxOf t r.mbx).tag = r.tag ∧
  (mbxOf t r.mbx).status = BitVec.ofNat 16 status ∧ (mbxOf t r.mbx).detail = BitVec.ofNat 32 detail ∧
  (mbxOf t r.mbx).rspLen = BitVec.ofNat 16 rsp.length ∧
  (mbxOf t r.mbx).payload = memWrite (mbxOf u r.mbx).payload 0 rsp

/-- Everything of a state but its mailboxes, the vectors pending, what was sent and the count of free values: what a
completion leaves alone. -/
def rest (s : State) : State :=
  { s with free := 0, emit := [], cmd := { s.cmd with mbx := [] }, bridge := { s.bridge with vecPend := 0 } }

/-- Every mailbox but that of `r` is in `t` as it is in `s`. -/
def OthersSame (r : Ring) (s t : State) : Prop := ∀ j : Fin 8, j ≠ r.mbx → mbxOf t j = mbxOf s j

/-- The command `i`, rung with `r` in `s`, completes with DONE and the response `rsp`, its effect on the node `x`; both
speak of the state in which the command ran. -/
def Does (i : Instr) (sp : CmdSpec) (dt : Nat) (r : Ring) (s : State) (rsp : State → List Byte) (x : State → State) : Prop :=
  ∃ t, exec i s = .next t ∧ Answered r 0 0 (rsp (taken sp.opcode dt r s)) (taken sp.opcode dt r s) t ∧ OthersSame r s t ∧
    rest t = rest (x (taken sp.opcode dt r s))

/-- R558, R559: what a queued command leaves behind for its end. -/
def queuedEntry (sp : CmdSpec) (r : Ring) (arg : Nat) (u : State) : Queued where
  mbx := r.mbx
  opcode := BitVec.ofNat 16 sp.opcode
  tag := r.tag
  cmdSeq := (mbxOf u r.mbx).cmdSeq
  arg := arg

/-- `x` with an entry added to the queue of commands. -/
def withQueued (q : Queued) (x : State) : State := { x with cmd := { x.cmd with queued := x.cmd.queued ++ [q] } }

/-- The command `i`, rung with `r` in `s`, is accepted for a later moment: it completes with QUEUED, its effect for now is
`x`, and it waits with `arg` among the queued commands (R558, R559). -/
def Queues (i : Instr) (sp : CmdSpec) (dt : Nat) (r : Ring) (s : State) (arg : Nat) (x : State → State) : Prop :=
  ∃ t, exec i s = .next t ∧ Answered r 1 0 [] (taken sp.opcode dt r s) t ∧ OthersSame r s t ∧
    rest t = rest (withQueued (queuedEntry sp r arg (taken sp.opcode dt r s)) (x (taken sp.opcode dt r s)))

/-- The requests: the check record, the time given and the ring of every command rung through a mailbox whose opcode the
master table has (R554). -/
def requestOf : Instr → Option (CmdSpec × Nat × Ring)
  | .sysIdentity dt r => some (sysIdentitySpec, dt, r)
  | .sysNop dt r => some (sysNopSpec, dt, r)
  | .sysReset dt r => some (sysResetSpec, dt, r)
  | .sysEventMask dt r => some (sysEventMaskSpec, dt, r)
  | .sysPatchStage dt r => some (sysPatchStageSpec, dt, r)
  | .sysPatchVerify dt r => some (sysPatchVerifySpec, dt, r)
  | .sysLogRead dt r => some (sysLogReadSpec, dt, r)
  | .sysProfileConfirm dt r => some (sysProfileConfirmSpec, dt, r)
  | .sysDebugNonce dt r => some (sysDebugSpec, dt, r)
  | .sysDebugUnlock dt r => some (sysDebugSpec, dt, r)
  | .sysDebugRelock dt r => some (sysDebugSpec, dt, r)
  | .topoStatus dt r => some (topoStatusSpec, dt, r)
  | .topoDirectory dt r => some (topoDirectorySpec, dt, r)
  | .topoPositionMap dt r => some (topoPositionMapSpec, dt, r)
  | .topoSetLeading dt r => some (topoSetLeadingSpec, dt, r)
  | .topoSetIdentity dt r => some (topoSetIdentitySpec, dt, r)
  | .topoColdStart dt r => some (topoColdStartSpec, dt, r)
  | .trunkSetPolicy dt r => some (trunkSetPolicySpec, dt, r)
  | .trunkStatus dt r => some (trunkStatusSpec, dt, r)
  | .trunkBypassPassive dt r => some (trunkBypassSpec, dt, r)
  | .trunkBypassActive dt r => some (trunkBypassSpec, dt, r)
  | .trunkRetrain dt r => some (trunkRetrainSpec, dt, r)
  | .schedStatus dt r => some (schedStatusSpec, dt, r)
  | .schedStage dt r => some (schedStageSpec, dt, r)
  | .schedVerify dt r => some (schedVerifySpec, dt, r)
  | .schedHold dt r => some (schedHoldSpec, dt, r)
  | .schedActivate dt r => some (schedActivateSpec, dt, r)
  | .schedRelease dt r => some (schedReleaseSpec, dt, r)
  | .schedEntryStatus dt r => some (schedEntryStatusSpec, dt, r)
  | .timeStatus dt r => some (timeStatusSpec, dt, r)
  | .timeSet dt r => some (timeSetSpec, dt, r)
  | .timePtpConfig dt r => some (timePtpConfigSpec, dt, r)
  | .timeDomainPolicy dt r => some (timeDomainPolicySpec, dt, r)
  | .timeSteer dt r => some (timeSteerSpec, dt, r)
  | .timePtpStatus dt r => some (timePtpStatusSpec, dt, r)
  | .flowSet dt r => some (flowSetSpec, dt, r)
  | .flowGet dt r => some (flowGetSpec, dt, r)
  | .flowStatus dt r => some (flowStatusSpec, dt, r)
  | .flowSave dt r => some (flowSaveSpec, dt, r)
  | .flowMacsecKey dt r => some (flowMacsecKeySpec, dt, r)
  | .sessionOpen dt r => some (sessionOpenSpec, dt, r)
  | .sessionSend dt r => some (sessionSendSpec, dt, r)
  | .sessionRecv dt r => some (sessionRecvSpec, dt, r)
  | .sessionClose dt r => some (sessionCloseSpec, dt, r)
  | .twinStatus dt r => some (twinStatusSpec, dt, r)
  | .twinConfig dt r => some (twinConfigSpec, dt, r)
  | .twinSwitchover dt r => some (twinSwitchoverSpec, dt, r)
  | .twinServiceOut dt r => some (twinServiceSpec, dt, r)
  | .twinServiceReturn dt r => some (twinServiceSpec, dt, r)
  | .twinRenew dt r => some (twinRenewSpec, dt, r)
  | .lskStatus dt r => some (lskStatusSpec, dt, r)
  | .lskPairConfig dt r => some (lskPairConfigSpec, dt, r)
  | .lskPairReset dt r => some (lskPairResetSpec, dt, r)
  | .lskSplit dt r => some (lskSplitSpec, dt, r)
  | .lskRejoin dt r => some (lskRejoinSpec, dt, r)
  | .lskSubstitute dt r => some (lskSubstituteSpec, dt, r)
  | .canSave dt r => some (canSaveSpec, dt, r)
  | .canLoad dt r => some (canLoadSpec, dt, r)
  | .mvbConfig dt r => some (mvbConfigSpec, dt, r)
  | .mvbPollStage dt r => some (mvbStageSpec, dt, r)
  | .mvbPollCommit dt r => some (mvbCommitSpec, dt, r)
  | .mvbPortSet dt r => some (mvbPortSetSpec, dt, r)
  | .mvbPortWrite dt r => some (mvbPortWriteSpec, dt, r)
  | .mvbPortRead dt r => some (mvbPortReadSpec, dt, r)
  | .mvbStatus dt r => some (mvbStatusSpec, dt, r)
  | .swcPortConfig dt r => some (swcPortConfigSpec, dt, r)
  | .swcPortStatus dt r => some (swcPortStatusSpec, dt, r)
  | .swcVlanSet dt r => some (swcVlanSetSpec, dt, r)
  | .swcStreamSet dt r => some (swcStreamSetSpec, dt, r)
  | .swcGclStage dt r => some (swcGclStageSpec, dt, r)
  | .swcGclCommit dt r => some (swcGclCommitSpec, dt, r)
  | .swcMacsecKey dt r => some (swcMacsecKeySpec, dt, r)
  | .swcStreamStatus dt r => some (swcStreamStatusSpec, dt, r)
  | .swcSave dt r => some (swcSaveSpec, dt, r)
  | .fabStatus dt r => some (fabStatusSpec, dt, r)
  | .fabConfig dt r => some (fabConfigSpec, dt, r)
  | .fabWindowSet dt r => some (fabWindowSetSpec, dt, r)
  | .fabSlotTable dt r => some (fabSlotTableSpec, dt, r)
  | .fabBridgeStatus dt r => some (fabBridgeStatusSpec, dt, r)
  | .fabPwlog dt r => some (fabPwlogSpec, dt, r)
  | .fabSemRelease dt r => some (fabSemReleaseSpec, dt, r)
  | .pwrStatus dt r => some (pwrStatusSpec, dt, r)
  | .pwrDomainConfig dt r => some (pwrDomainConfigSpec, dt, r)
  | .pwrPark dt r => some (pwrParkSpec, dt, r)
  | .pwrParkWithdraw dt r => some (pwrParkSpec, dt, r)
  | .pwrKiln dt r => some (pwrKilnSpec, dt, r)
  | .pwrKilnWithdraw dt r => some (pwrKilnSpec, dt, r)
  | .pwrWakeConfig dt r => some (pwrWakeConfigSpec, dt, r)
  | .repStatus dt r => some (repStatusSpec, dt, r)
  | .repLog dt r => some (repLogSpec, dt, r)
  | .repTest dt r => some (repTestSpec, dt, r)
  | .repCalibrate dt r => some (repCalibrateSpec, dt, r)
  | .repRotation dt r => some (repRotationSpec, dt, r)
  | .recStatus dt r => some (recStatusSpec, dt, r)
  | .recConfig dt r => some (recConfigSpec, dt, r)
  | .recTrigger dt r => some (recTriggerSpec, dt, r)
  | .recCask dt r => some (recCaskSpec, dt, r)
  | .recRelease dt r => some (recReleaseSpec, dt, r)
  | .recPage dt r => some (recPageSpec, dt, r)
  | _ => none

/-- A host access that is carried out: the interface is open (R520, R523, R525), it may reach the address, and a logical
pair that makes it runs split, one of its cores at least. -/
structure Accesses (src : Iface) (addr : Nat) (s : State) : Prop where
  isOpen : ifaceOpen src s = true
  reach : reaches src addr s = true
  runs : ∀ l, src = .pair l → (pairOf s l.val).halted = false ∧ pairLocked (pairOf s l.val) = false ∧
    pairSplit (pairOf s l.val) = true ∧ (pairOf s l.val).stopped.any (fun b => !b) = true

/-- The canonical form of a memory: addresses strictly rising, and no listed byte 0, which is what an unlisted byte reads. -/
def Memory.wf : Mem → Bool
  | [] => true
  | (a, v) :: m => v ≠ 0 && m.all (fun c => a < c.1) && Memory.wf m

end Sys2Proof.Machine
end

