-- ==== Sys2Proof/Certificates/Slice0/Obligations.lean ====
section
/-! DEFINITION. The statements for the provers, one `Prop` each. -/

open Sys2Proof Sys2Proof.Machine

/-! ## Mailbox commands: each completes, with what it answers and what it leaves -/

/-- R568, R572–R574, R577, R578, R615, R621: the SYS commands. The identity record, the echo of SYS_NOP, the event mask, bytes
of a patch staged, a staged patch verified or its fault told, the log read, the profile confirmed, a debug nonce drawn,
debug access unlocked by a signature over it, or the nonce spent, and locked again. Whether a signature verifies is a free
value (log 5). -/
def Obligations.SysCommandsComplete : Prop := ∀ (dt : Nat) (r : Ring) (s : State),
  (Runs sysIdentitySpec r dt s → Does (.sysIdentity dt r) sysIdentitySpec dt r s identityRecord id) ∧
  (Runs sysNopSpec r dt s → Does (.sysNop dt r) sysNopSpec dt r s (fun _ => r.req) id) ∧
  (Runs sysEventMaskSpec r dt s → fieldAt r.req 0 2 = 0xFFFF → byteAt r.req 2 = 1 →
    Does (.sysEventMask dt r) sysEventMaskSpec dt r s (fun _ => []) (modCmd (fun c => { c with mask := [] }))) ∧
  (Runs sysEventMaskSpec r dt s → fieldAt r.req 0 2 = 0xFFFF → byteAt r.req 2 = 0 →
    Does (.sysEventMask dt r) sysEventMaskSpec dt r s (fun _ => []) (modCmd (fun c => { c with mask := maskable }))) ∧
  (∀ w, Runs sysEventMaskSpec r dt s → eventCodes.lookup (fieldAt r.req 0 2) = some w → fieldAt r.req 0 2 ≠ 0xFFFF →
    byteAt r.req 2 = 1 →
    Does (.sysEventMask dt r) sysEventMaskSpec dt r s (fun _ => [])
      (modCmd (fun c => { c with mask := c.mask.filter (fun x => x ≠ BitVec.ofNat 16 (fieldAt r.req 0 2)) }))) ∧
  (∀ w, Runs sysEventMaskSpec r dt s → eventCodes.lookup (fieldAt r.req 0 2) = some w → fieldAt r.req 0 2 ≠ 0xFFFF →
    fieldAt r.req 0 2 ≠ 0x0101 → fieldAt r.req 0 2 ≠ 0x0102 → byteAt r.req 2 = 0 →
    Does (.sysEventMask dt r) sysEventMaskSpec dt r s (fun _ => [])
      (modCmd (fun c => { c with mask := c.mask.filter (fun x => x ≠ BitVec.ofNat 16 (fieldAt r.req 0 2)) ++
        [BitVec.ofNat 16 (fieldAt r.req 0 2)] }))) ∧
  (Runs sysPatchStageSpec r dt s → fieldAt r.req 0 4 = 0 → 4 ≤ fieldAt r.req 4 2 → fieldAt r.req 4 2 ≤ 2048 →
    fieldAt r.req 4 2 % 4 = 0 →
    Does (.sysPatchStage dt r) sysPatchStageSpec dt r s (fun _ => []) (modSys (fun y => { y with
      patchStaged := some { bytes := memWrite [] 0 (r.req.drop 8), len := fieldAt r.req 4 2, verified := false } }))) ∧
  (∀ p, Runs sysPatchStageSpec r dt s → s.sys.patchStaged = some p → fieldAt r.req 0 4 ≠ 0 → fieldAt r.req 0 4 % 4 = 0 →
    4 ≤ fieldAt r.req 4 2 → fieldAt r.req 4 2 ≤ 2048 → fieldAt r.req 4 2 % 4 = 0 →
    fieldAt r.req 0 4 + fieldAt r.req 4 2 ≤ 65536 →
    Does (.sysPatchStage dt r) sysPatchStageSpec dt r s (fun _ => []) (modSys (fun y => { y with
      patchStaged := some { bytes := memWrite p.bytes (fieldAt r.req 0 4) (r.req.drop 8)
                            len := max p.len (fieldAt r.req 0 4 + fieldAt r.req 4 2), verified := false } }))) ∧
  (∀ p, Runs sysPatchVerifySpec r dt s → s.sys.patchStaged = some p →
    match patchFault s.sys.romMinor (runningFloor s) p with
    | none => Does (.sysPatchVerify dt r) sysPatchVerifySpec dt r s
        (fun _ => leBytes 2 (patchLevel p) ++ leBytes 2 (patchFloor p) ++ patchId p)
        (modSys (fun y => { y with patchStaged := some { p with verified := true } }))
    | some c => ∃ t, exec (.sysPatchVerify dt r) s = .next t ∧ Answered r 0x0109 c [] (taken sysPatchVerifySpec.opcode dt r s) t ∧
        rest t = rest (taken sysPatchVerifySpec.opcode dt r s)) ∧
  (Runs sysLogReadSpec r dt s → 1 ≤ fieldAt r.req 2 2 → fieldAt r.req 2 2 ≤ 126 →
    Does (.sysLogRead dt r) sysLogReadSpec dt r s (fun _ =>
      leBytes 2 ((s.cmd.log.drop (fieldAt r.req 0 2)).take (fieldAt r.req 2 2)).length ++ leBytes 2 s.cmd.log.length ++
      leBytes 28 0 ++ ((s.cmd.log.drop (fieldAt r.req 0 2)).take (fieldAt r.req 2 2)).flatMap eventBytes) id) ∧
  (Runs sysProfileConfirmSpec r dt s → byteAt r.req 0 = b2n s.sys.native →
    Does (.sysProfileConfirm dt r) sysProfileConfirmSpec dt r s (fun _ => []) (modSys (fun y => { y with
      profileRecord := some y.native, step := if y.step = 7 then 8 else y.step }))) ∧
  (Runs sysDebugSpec r dt s → byteAt r.req 0 = 0 → r.req.length = 4 → debugReserved r.req = none →
    Does (.sysDebugNonce dt r) sysDebugSpec dt r s (fun u => leBytes 16 (Config.nonce u.sys.nonceNext).toNat)
      (fun u => modSys (fun y => { y with nonce := some (y.nonceNext, u.clk), nonceNext := y.nonceNext + 1 }) u)) ∧
  (∀ n, Runs sysDebugSpec r dt s → byteAt r.req 0 = 1 → r.req.length = 68 → debugReserved r.req = none →
    nonceValid (begin_ dt s) = some n →
    if Config.ed25519 true (leBytes 8 s.sys.uid.toNat ++ leBytes 16 n.toNat ++ [BitVec.ofNat 8 (byteAt r.req 1)])
        ((r.req.drop 4).take 64) = true then
      Does (.sysDebugUnlock dt r) sysDebugSpec dt r s (fun _ => [])
        (fun u => raise 0x0105 [BitVec.ofNat 8 (byteAt r.req 1)]
          (modSys (fun y => { y with nonce := none, debugScope := BitVec.ofNat 8 (byteAt r.req 1) }) u))
    else ∃ t, exec (.sysDebugUnlock dt r) s = .next t ∧ Answered r 0x0102 4 [] (taken sysDebugSpec.opcode dt r s) t ∧
      rest t = rest (modSys (fun y => { y with nonce := none }) (taken sysDebugSpec.opcode dt r s))) ∧
  (Runs sysDebugSpec r dt s → byteAt r.req 0 = 2 → r.req.length = 4 → debugReserved r.req = none →
    Does (.sysDebugRelock dt r) sysDebugSpec dt r s (fun _ => []) (modSys (fun y => { y with debugScope := 0 })))

/-- R575: SYS_RESET with both of its bytes completes with DONE and makes a reset due; every other busy mailbox completes
with RESETTING, and no command stays queued. -/
def Obligations.SysResetCompletes : Prop := ∀ (dt : Nat) (r : Ring) (s : State),
  Runs sysResetSpec r dt s → byteAt r.req 0 = 0x96 → byteAt r.req 1 = 0x48 →
  ∃ t, exec (.sysReset dt r) s = .next t ∧ Answered r 0 0 [] (taken sysResetSpec.opcode dt r s) t ∧
    t.sys = { s.sys with resetPending := some (BitVec.ofNat 8 (srcIf r.src), r.mbx) } ∧ t.cmd.queued = [] ∧
    (∀ j : Fin 8, j ≠ r.mbx → (mbxOf s j).state = 1 →
      (mbxOf t j).state = 2 ∧ (mbxOf t j).ring = false ∧ (mbxOf t j).status = 0x010C) ∧
    (∀ j : Fin 8, j ≠ r.mbx → (mbxOf s j).state ≠ 1 → mbxOf t j = mbxOf s j)

/-- R56, R71, R72, R87, R100, R106, R138, R143, R154, R156, R714: the TOPO and TRUNK commands. What a fabric-attached node
answers to a policy or to TRUNK_BYPASS active is the model's choice (DESIGN CHOICE, log 31), and no clause tells it. -/
def Obligations.TopoTrunkCommandsComplete : Prop := ∀ (dt : Nat) (r : Ring) (s : State),
  (Runs topoStatusSpec r dt s → Does (.topoStatus dt r) topoStatusSpec dt r s topoRecord
    (fun u => if clearAsked r.req 0 then modIna (fun n => { n with ctr := ctrClear n.ctr }) u else u)) ∧
  (∀ d, Runs topoDirectorySpec r dt s → byteAt r.req 0 = 0 → s.ina.dir = some d →
    Does (.topoDirectory dt r) topoDirectorySpec dt r s (fun _ => (dirFrames false false d).flatMap dirFrameBytes) id) ∧
  (∀ p, Runs topoDirectorySpec r dt s → byteAt r.req 0 = 1 → s.ina.prep = some p → p.whole = true →
    Does (.topoDirectory dt r) topoDirectorySpec dt r s (fun _ => (dirFrames true false p.dir).flatMap dirFrameBytes) id) ∧
  (Runs topoPositionMapSpec r dt s → Does (.topoPositionMap dt r) topoPositionMapSpec dt r s
    (fun _ => leBytes 2 s.ina.oldGen.toNat ++ leBytes 2 s.ina.gen.toNat ++ s.ina.posMap) id) ∧
  (Runs topoSetLeadingSpec r dt s → s.cmd.queued.length < 32 → Queues (.topoSetLeading dt r) topoSetLeadingSpec dt r s (leadKept s)
    (fun u => modIna (fun n => { n with
      leading := some (BitVec.ofNat 48 (fieldAt r.req 0 6)), leadIssued := (s.ina.dir.map (fun d => d.leadVid)).getD 0
      sinceLead := 0 }) (finishQueued (fun q => q.opcode == 0x0204) 0x010B u))) ∧
  (Runs topoSetIdentitySpec r dt s → s.ina.st = .steep → fieldAt r.req 0 6 ≠ 0 → byteAt r.req 6 ≤ 1 →
    Does (.topoSetIdentity dt r) topoSetIdentitySpec dt r s (fun _ => [])
      (fun u => areaWritten 1 (modIna (fun n => { n with
        vid := BitVec.ofNat 48 (fieldAt r.req 0 6), twinB := byteAt r.req 6 == 1
        prio := BitVec.ofNat 8 (byteAt r.req 7) }) u))) ∧
  (Runs topoColdStartSpec r dt s → s.fab.attached = false → s.ina.st = .steep ∨ s.ina.st = .held →
    Does (.topoColdStart dt r) topoColdStartSpec dt r s (fun _ => [])
      (fun u => if mayContend u then enterContend u else u)) ∧
  (Runs trunkSetPolicySpec r dt s → 1 ≤ byteAt r.req 0 → byteAt r.req 0 ≤ 2 → byteAt r.req 1 ≤ 6 →
    (byteAt r.req 1 = 6 → s.sys.native = false) → (s.fab.attached = true → byteAt r.req 1 = 0) →
    policyAtOnce (byteAt r.req 0 - 1) s = true →
    Does (.trunkSetPolicy dt r) trunkSetPolicySpec dt r s (fun _ => [])
      (fun u => areaWritten 2 (applyPolicy (byteAt r.req 0 - 1) (byteAt r.req 1) u))) ∧
  (Runs trunkSetPolicySpec r dt s → 1 ≤ byteAt r.req 0 → byteAt r.req 0 ≤ 2 → byteAt r.req 1 ≤ 6 →
    (byteAt r.req 1 = 6 → s.sys.native = false) → (s.fab.attached = true → byteAt r.req 1 = 0) →
    policyAtOnce (byteAt r.req 0 - 1) s = false → s.cmd.queued.length < 32 →
    Queues (.trunkSetPolicy dt r) trunkSetPolicySpec dt r s 0 (fun u => areaWritten 2 (modTrunk (fun t => { t with
      policyNext := updAt t.policyNext (byteAt r.req 0 - 1) (fun _ => some (byteAt r.req 1)) }) u))) ∧
  (Runs trunkStatusSpec r dt s → byteAt r.req 0 ≤ 3 →
    Does (.trunkStatus dt r) trunkStatusSpec dt r s (trunkRecord (byteAt r.req 0))
      (fun u => if clearAsked r.req 1 then modPort (byteAt r.req 0) (fun t => { t with ctr := ctrClear t.ctr }) u else u)) ∧
  (Runs trunkBypassSpec r dt s → byteAt r.req 0 = 1 → s.cmd.queued.length < 32 →
    Queues (.trunkBypassPassive dt r) trunkBypassSpec dt r s 1
      (fun u => if u.trunk.seq.isSome then u else startSequence true u)) ∧
  (Runs trunkBypassSpec r dt s → byteAt r.req 0 = 0 → s.fab.attached = false → s.cmd.queued.length < 32 →
    Queues (.trunkBypassActive dt r) trunkBypassSpec dt r s 0
      (fun u => if u.trunk.seq.isSome then u else startSequence false u)) ∧
  (Runs trunkRetrainSpec r dt s → byteAt r.req 0 ≤ 3 → s.ina.st = .steep →
    Does (.trunkRetrain dt r) trunkRetrainSpec dt r s (fun _ => []) (portRetrain (byteAt r.req 0))) ∧
  (Runs trunkRetrainSpec r dt s → byteAt r.req 0 ≤ 3 → s.ina.st ≠ .steep → s.cmd.queued.length < 32 →
    Queues (.trunkRetrain dt r) trunkRetrainSpec dt r s (byteAt r.req 0)
      (modPort (byteAt r.req 0) (fun t => { t with retrain := true })))

/-- R198–R202, R216: the SCHED commands. An image is staged piece by piece, checked, activated in steep at once and in held at the
next release; hold and release wait for the node that leads; the records answer with their counters. -/
def Obligations.SchedCommandsComplete : Prop := ∀ (dt : Nat) (r : Ring) (s : State),
  (Runs schedStatusSpec r dt s → Does (.schedStatus dt r) schedStatusSpec dt r s schedRecord
    (fun u => if clearAsked r.req 0 then modSched (fun d => { d with ctr := ctrClear d.ctr }) u else u)) ∧
  (Runs schedStageSpec r dt s → fieldAt r.req 0 4 = 0 → 4 ≤ fieldAt r.req 4 2 → fieldAt r.req 4 2 ≤ 2048 →
    fieldAt r.req 4 2 % 4 = 0 →
    Does (.schedStage dt r) schedStageSpec dt r s (fun _ => []) (fun u => areaWritten 5 (modSched (fun d => { d with
      stagedBytes := memWrite [] 0 (r.req.drop 8), stagedLen := fieldAt r.req 4 2, verified := none
      activated := false }) u))) ∧
  (Runs schedStageSpec r dt s → fieldAt r.req 0 4 ≠ 0 → fieldAt r.req 0 4 % 4 = 0 → 4 ≤ fieldAt r.req 4 2 →
    fieldAt r.req 4 2 ≤ 2048 → fieldAt r.req 4 2 % 4 = 0 → fieldAt r.req 0 4 + fieldAt r.req 4 2 ≤ 262144 →
    Does (.schedStage dt r) schedStageSpec dt r s (fun _ => []) (fun u => areaWritten 5 (modSched (fun d => { d with
      stagedBytes := memWrite d.stagedBytes (fieldAt r.req 0 4) (r.req.drop 8)
      stagedLen := max d.stagedLen (fieldAt r.req 0 4 + fieldAt r.req 4 2), verified := none, activated := false }) u))) ∧
  (Runs schedVerifySpec r dt s → imageCheck (memRead s.sched.stagedBytes 0 s.sched.stagedLen) = none →
    Does (.schedVerify dt r) schedVerifySpec dt r s
      (fun _ => leBytes 32 (imageOf (memRead s.sched.stagedBytes 0 s.sched.stagedLen)).hash.toNat)
      (fun u => areaWritten 5 (modSched (fun d => { d with
        verified := some (imageOf (memRead s.sched.stagedBytes 0 s.sched.stagedLen)) }) u))) ∧
  (Runs schedHoldSpec r dt s → s.ina.st = .joined → isFirst s = true → s.cmd.queued.length < 32 →
    Queues (.schedHold dt r) schedHoldSpec dt r s 0 (modSched (fun d => { d with holdAsked := true }))) ∧
  (∀ im, Runs schedActivateSpec r dt s → s.ina.st = .steep → s.sched.verified = some im →
    Does (.schedActivate dt r) schedActivateSpec dt r s (fun _ => [])
      (fun u => areaWritten 5 (judgeContexts
        (if cycleUs (modIna (fun n => { n with mismatch := false }) (runImage im u)) = cycleUs u
         then modIna (fun n => { n with mismatch := false }) (runImage im u)
         else macroChange (modIna (fun n => { n with mismatch := false }) (runImage im u)))))) ∧
  (∀ im, Runs schedActivateSpec r dt s → s.ina.st = .held → s.sched.verified = some im →
    Does (.schedActivate dt r) schedActivateSpec dt r s (fun _ => [])
      (fun u => areaWritten 5 (modSched (fun d => { d with activated := true }) u))) ∧
  (Runs schedReleaseSpec r dt s → s.ina.st = .held → isFirst s = true → s.cmd.queued.length < 32 →
    Queues (.schedRelease dt r) schedReleaseSpec dt r s 0
      (fun u => modSched (fun d => { d with release := some (releaseCount u) }) u)) ∧
  (∀ im e, Runs schedEntryStatusSpec r dt s → s.sched.running = some im → entryAt im (fieldAt r.req 0 2) = some e →
    Does (.schedEntryStatus dt r) schedEntryStatusSpec dt r s (entryRecord (fieldAt r.req 0 2) e)
      (fun u => if clearAsked r.req 2 then modSched (fun d => { d with
        entryCtr := tblErase d.entryCtr (fieldAt r.req 0 2) }) u else u))

/-- R246, R249, R260: the TIME commands. The time is set in steep; a PTP unit's configuration waits for
the next instant; the two-domain policy, its bound (200 ns for 0) and steering take effect at once. -/
def Obligations.TimeCommandsComplete : Prop := ∀ (dt : Nat) (r : Ring) (s : State),
  (Runs timeStatusSpec r dt s → Does (.timeStatus dt r) timeStatusSpec dt r s (fun u => (ttsWords u).flatMap (leBytes 4))
    (fun u => if clearAsked r.req 0 then modTime (fun t => { t with ctr := ctrClear t.ctr }) u else u)) ∧
  (Runs timeSetSpec r dt s → s.ina.st = .steep → fieldAt r.req 6 4 < 1000000000 →
    Does (.timeSet dt r) timeSetSpec dt r s (fun _ => [])
      (fun u => setTimeState .free (stepCount ((timeOf r.req : Int) - u.now) (heldGen u) u))) ∧
  (Runs timePtpConfigSpec r dt s → byteAt r.req 0 ≤ 1 → byteAt r.req 1 ≤ 3 → byteAt r.req 2 ≤ 127 →
    byteAt r.req 5 = 0 ∨ 249 ≤ byteAt r.req 5 → s.cmd.queued.length < 32 →
    Queues (.timePtpConfig dt r) timePtpConfigSpec dt r s (byteAt r.req 0) (modPtp (byteAt r.req 0) (fun i => { i with
      pending := some (BitVec.ofNat 8 (byteAt r.req 1), BitVec.ofNat 7 (byteAt r.req 2), BitVec.ofNat 8 (byteAt r.req 3),
        BitVec.ofNat 8 (byteAt r.req 4), BitVec.ofNat 8 (byteAt r.req 5), BitVec.ofNat 16 (fieldAt r.req 6 2)) }))) ∧
  (Runs timeDomainPolicySpec r dt s → byteAt r.req 0 ≤ 3 → byteAt r.req 1 ≤ 1 →
    fieldAt r.req 2 2 = 0 ∨ 20 ≤ fieldAt r.req 2 2 ∧ fieldAt r.req 2 2 ≤ 10000 →
    Does (.timeDomainPolicy dt r) timeDomainPolicySpec dt r s (fun _ => [])
      (fun u => areaWritten 7 (selectDomain (modTime (fun t => { t with
        policy := BitVec.ofNat 8 (byteAt r.req 0), reaction := BitVec.ofNat 8 (byteAt r.req 1)
        bound := if fieldAt r.req 2 2 = 0 then 200 else fieldAt r.req 2 2 }) u)))) ∧
  (Runs timeSteerSpec r dt s → byteAt r.req 0 ≤ 1 →
    Does (.timeSteer dt r) timeSteerSpec dt r s (fun _ => [])
      (fun u => areaWritten 7 (modTime (fun t => { t with steer := byteAt r.req 0 == 1 }) u))) ∧
  (Runs timePtpStatusSpec r dt s → byteAt r.req 0 ≤ 1 →
    Does (.timePtpStatus dt r) timePtpStatusSpec dt r s (ptpRecord (byteAt r.req 0))
      (fun u => if clearAsked r.req 1 then modPtp (byteAt r.req 0) (fun i => { i with ctr := ctrClear i.ctr }) u else u))

/-- R299, R303, R305, R312, R313, R718: the FLOW and SESSION commands. A context is written for the next instant, read back and
its record answered; the save waits; the key is stored; a session is opened under a fresh identifier, given bytes to send,
read, and closed. -/
def Obligations.FlowSessionCommandsComplete : Prop := ∀ (dt : Nat) (r : Ring) (s : State),
  (Runs flowSetSpec r dt s → fieldAt r.req 0 2 < 512 →
    ctxOffender (fieldAt r.req 0 2) (ctxOfBytes (r.req.drop 4)) (ctxWritten s) s.sched.running s.flow.key.isSome = none →
    Does (.flowSet dt r) flowSetSpec dt r s (fun _ => []) (modFlow (fun w => { w with
      ctxNext := tblSet w.ctxNext (fieldAt r.req 0 2) (ctxOfBytes (r.req.drop 4)) }))) ∧
  (Runs flowGetSpec r dt s → fieldAt r.req 0 2 < 512 → Does (.flowGet dt r) flowGetSpec dt r s
    (fun _ => ctxBytes ((tblGet (ctxWritten s) (fieldAt r.req 0 2)).getD flowCtxZero)) id) ∧
  (Runs flowStatusSpec r dt s → fieldAt r.req 0 2 < 512 →
    Does (.flowStatus dt r) flowStatusSpec dt r s (flowRecord (fieldAt r.req 0 2))
      (fun u => if clearAsked r.req 2 then modRun (fieldAt r.req 0 2) (fun x => { x with ctr := ctrClear x.ctr }) u
                else u)) ∧
  (Runs flowSaveSpec r dt s → s.cmd.queued.length < 32 → Queues (.flowSave dt r) flowSaveSpec dt r s 0 id) ∧
  (Runs flowMacsecKeySpec r dt s → Does (.flowMacsecKey dt r) flowMacsecKeySpec dt r s (fun _ => [])
    (fun u => areaWritten 6 (modFlow (fun w => { w with key := some r.req }) u))) ∧
  (Runs sessionOpenSpec r dt s → byteAt r.req 0 ≤ 1 → (byteAt r.req 0 = 1 → byteAt r.req 1 < 16) →
    s.flow.sessions.length < 32 →
    ∃ t, exec (.sessionOpen dt r) s = .next t ∧ ∃ sid : BitVec 16,
      Answered r 0 0 (leBytes 2 sid.toNat) (taken sessionOpenSpec.opcode dt r s) t ∧ OthersSame r s t ∧
      t.flow.sessions = s.flow.sessions ++ [{
        sid := sid, opener := s.sys.uid, byIdentity := byteAt r.req 0 = 1, slot := BitVec.ofNat 8 (byteAt r.req 1),
        addr := BitVec.ofNat 10 (fieldAt r.req 2 2), vid := BitVec.ofNat 48 (fieldAt r.req 4 6), peerUid := 0,
        nextMsg := 0, out := [], inMsg := none, rxq := [] }]) ∧
  (∀ x, Runs sessionSendSpec r dt s → sessionNamed (fieldAt r.req 0 2) s = some x → fieldAt r.req 4 2 ≤ 3072 →
    fieldAt r.req 2 2 + fieldAt r.req 4 2 ≤ 16384 →
    ((byteAt r.req 6).testBit 0 = true → 0 < fieldAt r.req 4 2 ∨ 0 < composing x) →
    Does (.sessionSend dt r) sessionSendSpec dt r s (fun _ => []) (fun u => pumpSession x.sid x.opener
      (modSession (isSession x.sid x.opener)
        (storeChunk (fieldAt r.req 2 2) (r.req.drop 8) ((byteAt r.req 6).testBit 0)) u))) ∧
  (∀ x, Runs sessionRecvSpec r dt s → sessionNamed (fieldAt r.req 0 2) s = some x → x.rxq = [] →
    Does (.sessionRecv dt r) sessionRecvSpec dt r s (fun _ => [0, 0]) id) ∧
  (∀ x m ms, Runs sessionRecvSpec r dt s → sessionNamed (fieldAt r.req 0 2) s = some x → x.rxq = m :: ms →
    fieldAt r.req 2 2 < m.bytes.length →
    Does (.sessionRecv dt r) sessionRecvSpec dt r s
      (fun _ => leBytes 2 m.bytes.length ++ (m.bytes.drop (fieldAt r.req 2 2)).take 3072)
      (fun u => if m.bytes.length ≤ fieldAt r.req 2 2 + 3072
        then modSession (isSession x.sid x.opener) (fun y => { y with rxq := ms }) u else u)) ∧
  (∀ x, Runs sessionCloseSpec r dt s → sessionNamed (fieldAt r.req 0 2) s = some x →
    Does (.sessionClose dt r) sessionCloseSpec dt r s (fun _ => []) (closeSession x 0))

/-- R327, R349, R351, R353, R354: the TWIN commands. The twin is configured in steep or while Out; switchover, service out
and return wait for their instants; both claim generations are renewed while both switches are closed by command. -/
def Obligations.TwinCommandsComplete : Prop := ∀ (dt : Nat) (r : Ring) (s : State),
  (Runs twinStatusSpec r dt s → Does (.twinStatus dt r) twinStatusSpec dt r s twinRecord
    (fun u => if clearAsked r.req 0 then modTwin (fun t => { t with ctr := ctrClear t.ctr }) u else u)) ∧
  (Runs twinConfigSpec r dt s → s.ina.st = .steep ∨ s.twin.role = .out → s.fab.attached = false →
    (byteAt r.req 0).testBit 1 = true → 1 ≤ fieldAt r.req 2 2 → fieldAt r.req 2 2 ≤ 4096 → fieldAt r.req 4 4 % 4096 = 0 →
    fieldAt r.req 4 4 + 4096 * fieldAt r.req 2 2 ≤ 27 * 1048576 →
    Does (.twinConfig dt r) twinConfigSpec dt r s (fun _ => []) (fun u => areaWritten 3 (modTwin (fun t => { t with
      configured := true, preferred := (byteAt r.req 0).testBit 0, regionOn := true, regionPages := fieldAt r.req 2 2
      regionOff := fieldAt r.req 4 4 }) u))) ∧
  (Runs twinConfigSpec r dt s → s.ina.st = .steep ∨ s.twin.role = .out → s.fab.attached = false →
    (byteAt r.req 0).testBit 1 = false →
    Does (.twinConfig dt r) twinConfigSpec dt r s (fun _ => []) (fun u => areaWritten 3 (modTwin (fun t => { t with
      configured := true, preferred := (byteAt r.req 0).testBit 0, regionOn := false, regionPages := 0
      regionOff := 0 }) u))) ∧
  (Runs twinSwitchoverSpec r dt s → isActive s = true → partnerRole s = 2 → s.cmd.queued.length < 32 →
    Queues (.twinSwitchover dt r) twinSwitchoverSpec dt r s 0 (modTwin askSwitchover)) ∧
  (Runs twinServiceSpec r dt s → byteAt r.req 0 = 0 → s.twin.configured = true → isActive s = true → partnerRole s = 2 →
    s.cmd.queued.length < 32 →
    Queues (.twinServiceOut dt r) twinServiceSpec dt r s 0
      (fun u => areaWritten 3 (modTwin (fun t => { askSwitchover t with outAfter := true }) u))) ∧
  (Runs twinServiceSpec r dt s → byteAt r.req 0 = 0 → s.twin.configured = true →
    isActive s = false ∨ partnerRole s ≠ 2 ∧ (byteAt r.req 1).testBit 0 = true → s.cmd.queued.length < 32 →
    Queues (.twinServiceOut dt r) twinServiceSpec dt r s 0
      (fun u => areaWritten 3 (modTwin (fun t => { t with outAt := some 6 }) u))) ∧
  (Runs twinServiceSpec r dt s → byteAt r.req 0 = 1 → s.twin.configured = true → s.cmd.queued.length < 32 →
    Queues (.twinServiceReturn dt r) twinServiceSpec dt r s 1
      (fun u => areaWritten 3 (modTwin (fun t => { t with returnAt := true }) u))) ∧
  (Runs twinRenewSpec r dt s → s.trunk.byCommand = true → s.trunk.lineA.closed = true → s.trunk.lineB.closed = true →
    Does (.twinRenew dt r) twinRenewSpec dt r s (fun _ => [])
      (modTwin (fun t => { t with own := 0, seen := 0, limitRaised := false })))

/-- R382–R384, R389, R391, R392: the LSK commands. A pair's record; its configuration while it may be configured; a reset, which
completes at the next instant and leaves the mailbox busy until then; split, rejoin and substitution, which wait for their
hand-over. -/
def Obligations.LockstepCommandsComplete : Prop := ∀ (dt : Nat) (r : Ring) (s : State),
  (Runs lskStatusSpec r dt s → byteAt r.req 0 ≤ 3 →
    Does (.lskStatus dt r) lskStatusSpec dt r s (pairRecord (byteAt r.req 0))
      (fun u => if clearAsked r.req 1 then modPair (byteAt r.req 0) (fun p => { p with ctr := ctrClear p.ctr }) u else u)) ∧
  (Runs lskPairConfigSpec r dt s → byteAt r.req 0 ≤ 3 → pairCfgOffender (byteAt r.req 0) (pairCfgOf r.req) s = none →
    pairConfigurable (pairOf s (byteAt r.req 0)) = true →
    Does (.lskPairConfig dt r) lskPairConfigSpec dt r s (fun _ => []) (fun u => areaWritten 8
      (modLsk (fun k => { k with saved := updAt k.saved (byteAt r.req 0) (fun _ => some (pairCfgOf r.req)) })
        (modPair (byteAt r.req 0) (fun p => { p with
          cfg := pairCfgOf r.req, configured := true, ready := p.ready &&& (pairCfgOf r.req).classes }) u)))) ∧
  (Runs lskPairResetSpec r dt s → byteAt r.req 0 ≤ 3 → byteAt r.req 1 ≤ 1 →
    ∃ t, exec (.lskPairReset dt r) s = .next t ∧ (mbxOf t r.mbx).state = 1 ∧ (mbxOf t r.mbx).ring = true ∧
      OthersSame r s t ∧ rest t = rest (modPair (byteAt r.req 0) (fun p => { p with
        resetAsk := some (byteAt r.req 1 == 1), resetMbx := p.resetMbx ++ [r.mbx] })
          (taken lskPairResetSpec.opcode dt r s))) ∧
  (Runs lskSplitSpec r dt s → byteAt r.req 0 ≤ 3 → pairState (pairOf s (byteAt r.req 0)) = 1 →
    s.cmd.queued.length < 32 →
    Queues (.lskSplit dt r) lskSplitSpec dt r s (byteAt r.req 0) (askHand (byteAt r.req 0) .split)) ∧
  (Runs lskRejoinSpec r dt s → byteAt r.req 0 ≤ 3 → pairState (pairOf s (byteAt r.req 0)) = 2 →
    (pairOf s (byteAt r.req 0)).dbg = false → s.cmd.queued.length < 32 →
    Queues (.lskRejoin dt r) lskRejoinSpec dt r s (byteAt r.req 0) (askHand (byteAt r.req 0) .rejoin)) ∧
  (Runs lskSubstituteSpec r dt s → byteAt r.req 0 ≤ 3 → pairState (pairOf s (byteAt r.req 0)) = 1 →
    (pairOf s (byteAt r.req 0)).dbg = false → s.lsk.spareReady = true → s.cmd.queued.length < 32 →
    Queues (.lskSubstitute dt r) lskSubstituteSpec dt r s (byteAt r.req 0) (askHand (byteAt r.req 0) .subst))

/-- R447, R453, R460, R462, R463, R466, R491, R493: the CAN and MVB commands. Channels saved and loaded; a segment configured, at once while its role
is off and at the next instant otherwise; a poll table staged and committed; ports set, written and read; the record. -/
def Obligations.CanMvbCommandsComplete : Prop := ∀ (dt : Nat) (r : Ring) (s : State),
  (Runs canSaveSpec r dt s → s.cmd.queued.length < 32 →
    Queues (.canSave dt r) canSaveSpec dt r s (fieldAt r.req 0 2) id) ∧
  (Runs canLoadSpec r dt s → (∀ c ∈ canMasked (fieldAt r.req 0 2), canModeAct (canOf s c) = 0) →
    Does (.canLoad dt r) canLoadSpec dt r s (fun _ => []) (forEach (canMasked (fieldAt r.req 0 2)) canLoadOne)) ∧
  (Runs mvbConfigSpec r dt s → byteAt r.req 0 ≤ 1 → byteAt r.req 1 ≤ 2 → fieldAt r.req 4 2 ≤ 4095 →
    (mvbOf s (byteAt r.req 0)).cfg.role = 0 →
    Does (.mvbConfig dt r) mvbConfigSpec dt r s (fun _ => []) (fun u => areaWritten 10 (mvbApply (byteAt r.req 0)
      { role := byteAt r.req 1, admClaim := (byteAt r.req 2).testBit 0, admSvc := BitVec.ofNat 4 (byteAt r.req 2 / 16)
        device := BitVec.ofNat 12 (fieldAt r.req 4 2) } u))) ∧
  (Runs mvbConfigSpec r dt s → byteAt r.req 0 ≤ 1 → byteAt r.req 1 ≤ 2 → fieldAt r.req 4 2 ≤ 4095 →
    (mvbOf s (byteAt r.req 0)).cfg.role ≠ 0 → s.cmd.queued.length < 32 →
    Queues (.mvbConfig dt r) mvbConfigSpec dt r s (byteAt r.req 0)
      (modMvb (byteAt r.req 0) (fun m => { m with cfgNext := some {
        role := byteAt r.req 1, admClaim := (byteAt r.req 2).testBit 0, admSvc := BitVec.ofNat 4 (byteAt r.req 2 / 16)
        device := BitVec.ofNat 12 (fieldAt r.req 4 2) } }))) ∧
  (Runs mvbStageSpec r dt s → byteAt r.req 0 ≤ 1 → fieldAt r.req 2 2 % 4 = 0 → fieldAt r.req 4 4 % 4 = 0 →
    fieldAt r.req 4 4 + fieldAt r.req 2 2 ≤ 16912 →
    Does (.mvbPollStage dt r) mvbStageSpec dt r s (fun _ => []) (modMvb (byteAt r.req 0) (fun m => { m with
      staged := memWrite m.staged (fieldAt r.req 4 4) (r.req.drop 8) }))) ∧
  (Runs mvbCommitSpec r dt s → byteAt r.req 0 ≤ 1 → pollCheck (mvbOf s (byteAt r.req 0)).staged = none →
    s.cmd.queued.length < 32 →
    Queues (.mvbPollCommit dt r) mvbCommitSpec dt r s (byteAt r.req 0) (fun u => areaWritten 10
      (modMvb (byteAt r.req 0) (fun m => { m with commit := some (mvbParse m.staged, BitVec.ofNat 32 (fieldAt r.req 4 4),
        !(wrapNewer (BitVec.ofNat 32 (fieldAt r.req 4 4)) (cycleNo u))) }) u))) ∧
  (Runs mvbPortSetSpec r dt s → byteAt r.req 0 ≤ 1 → (mvbRecord r.req).fcode ≤ 4 → (mvbRecord r.req).dir ≤ 2 →
    mvbLinkOk (mvbRecord r.req) s = true →
    Does (.mvbPortSet dt r) mvbPortSetSpec dt r s (fun _ => []) (modMvb (byteAt r.req 0) (fun m => { m with
      portsNext := tblSet m.portsNext (fieldAt r.req 4 2 % 4096) (mvbRecord r.req) }))) ∧
  (∀ p, Runs mvbPortWriteSpec r dt s → byteAt r.req 0 ≤ 1 →
    tblGet (mvbOf s (byteAt r.req 0)).ports (fieldAt r.req 2 2) = some p → p.dir = 1 → p.linked = false →
    r.req.length = 4 + fcodeBytes p.fcode →
    Does (.mvbPortWrite dt r) mvbPortWriteSpec dt r s (fun _ => []) (modMvb (byteAt r.req 0) (fun m => { m with
      ports := tblSet m.ports (fieldAt r.req 2 2) { p with next := some (r.req.drop 4) } }))) ∧
  (∀ p, Runs mvbPortReadSpec r dt s → byteAt r.req 0 ≤ 1 → fieldAt r.req 2 2 < 4096 →
    tblGet (mvbOf s (byteAt r.req 0)).ports (fieldAt r.req 2 2) = some p →
    Does (.mvbPortRead dt r) mvbPortReadSpec dt r s
      (fun _ => [BitVec.ofNat 8 p.age, BitVec.ofNat 8 (b2n p.held + 2 * b2n p.lineB), 0, 0] ++ p.data) id) ∧
  (Runs mvbStatusSpec r dt s → byteAt r.req 0 ≤ 1 →
    Does (.mvbStatus dt r) mvbStatusSpec dt r s (fun u => mvbStatusRec (mvbOf u (byteAt r.req 0)))
      (fun u => if clearAsked r.req 1 then modMvb (byteAt r.req 0) (fun m => { m with ctr := ctrClear m.ctr }) u else u))

/-- R475, R477, R479, R489, R491–R493: the SWC commands. A port's configuration waits for the next instant, and goes into flash then (log 33); VLANs and streams are written at once;
a gate list is staged, its intervals filling its cycle, which divides the macrocycle, and committed for a cycle; keys are
stored; the records answer with their counters; the save waits. -/
def Obligations.SwitchCommandsComplete : Prop := ∀ (dt : Nat) (r : Ring) (s : State),
  (Runs swcPortConfigSpec r dt s → byteAt r.req 0 ≤ 15 → byteAt r.req 1 ≤ 4 → (byteAt r.req 1 = 4 → 12 ≤ byteAt r.req 0) →
    1 ≤ fieldAt r.req 4 2 → fieldAt r.req 4 2 ≤ 4094 → byteAt r.req 6 ≤ 2 → s.cmd.queued.length < 32 →
    Queues (.swcPortConfig dt r) swcPortConfigSpec dt r s (byteAt r.req 0)
      (modSw (byteAt r.req 0) (fun t => { t with cfgNext := some (swcPortCfg r.req) }))) ∧
  (Runs swcPortStatusSpec r dt s → byteAt r.req 0 ≤ 21 →
    Does (.swcPortStatus dt r) swcPortStatusSpec dt r s (fun u => swcPortRec (byteAt r.req 0) (swOf u (byteAt r.req 0)))
      (fun u => if clearAsked r.req 1 then modSw (byteAt r.req 0) (fun t => { t with ctr := ctrClear t.ctr }) u else u)) ∧
  (Runs swcVlanSetSpec r dt s → 1 ≤ fieldAt r.req 0 2 → fieldAt r.req 0 2 ≤ 4094 →
    Does (.swcVlanSet dt r) swcVlanSetSpec dt r s (fun _ => []) (fun u => { u with swc := { u.swc with
      vlans := tblSet u.swc.vlans (fieldAt r.req 0 2)
        (BitVec.ofNat 32 (fieldAt r.req 4 4), BitVec.ofNat 32 (fieldAt r.req 8 4)) } })) ∧
  (Runs swcStreamSetSpec r dt s → (streamRecord r.req).frer ≠ 3 →
    ((streamRecord r.req).frer = 2 → 2 ≤ (streamRecord r.req).history ∧ (streamRecord r.req).history ≤ 32 ∧
      1 ≤ (streamRecord r.req).resetMs) →
    ((streamRecord r.req).frer ≠ 0 → bitCount (streamRecord r.req).ports.toNat = 2) →
    Does (.swcStreamSet dt r) swcStreamSetSpec dt r s (fun _ => []) (fun u => modStream (byteAt r.req 0) (fun _ =>
      { streamRecord r.req with
        cTok := (streamRecord r.req).cbs * tokenUnit, eTok := (streamRecord r.req).ebs * tokenUnit, tokClk := u.clk }) u)) ∧
  (Runs swcGclStageSpec r dt s → gclReserved r.req = none → byteAt r.req 0 ≤ 15 → byteAt r.req 1 ≤ 128 →
    fieldAt r.req 4 4 ≠ 0 → cycleUs s * 1000 % fieldAt r.req 4 4 = 0 →
    ((gclEntries r.req).map (fun e => e.2)).sum = fieldAt r.req 4 4 →
    Does (.swcGclStage dt r) swcGclStageSpec dt r s (fun _ => []) (modSw (byteAt r.req 0) (fun t => { t with
      staged := some { ct := fieldAt r.req 4 4, entries := gclEntries r.req } }))) ∧
  (Runs swcGclCommitSpec r dt s → fieldAt r.req 0 2 ≠ 0 →
    (∀ p : Nat, p < 16 → (fieldAt r.req 0 2).testBit p = true → (swOf s p).staged ≠ none) → s.cmd.queued.length < 32 →
    Queues (.swcGclCommit dt r) swcGclCommitSpec dt r s (fieldAt r.req 0 2)
      (forEach ((List.range 16).filter (fun p => (fieldAt r.req 0 2).testBit p)) (fun p u => modSw p (fun t => { t with
        commit := some (BitVec.ofNat 32 (fieldAt r.req 4 4),
          !(wrapNewer (BitVec.ofNat 32 (fieldAt r.req 4 4)) (cycleNo u))) }) u))) ∧
  (Runs swcMacsecKeySpec r dt s → byteAt r.req 0 ≤ 15 →
    Does (.swcMacsecKey dt r) swcMacsecKeySpec dt r s (fun _ => []) (modSw (byteAt r.req 0) (fun t => { t with
      key := some ((r.req.drop 4).take 32, (r.req.drop 36).take 16) }))) ∧
  (Runs swcStreamStatusSpec r dt s →
    Does (.swcStreamStatus dt r) swcStreamStatusSpec dt r s
      (fun u => streamRec (byteAt r.req 0) (streamOf u (byteAt r.req 0)))
      (fun u => if clearAsked r.req 1 then modStream (byteAt r.req 0) (fun t => { t with ctr := ctrClear t.ctr }) u
                else u)) ∧
  (Runs swcSaveSpec r dt s → s.cmd.queued.length < 32 → Queues (.swcSave dt r) swcSaveSpec dt r s 0 id)

/-- R504, R507, R526, R537, R541, R542: the FAB commands. Records, the fabric configuration in steep, a window set, a slot
assigned or freed by the Active twin, the log of posted writes that failed, and a semaphore freed. -/
def Obligations.FabricCommandsComplete : Prop := ∀ (dt : Nat) (r : Ring) (s : State),
  (Runs fabStatusSpec r dt s → byteAt r.req 0 ≤ 3 →
    Does (.fabStatus dt r) fabStatusSpec dt r s (fabRecord (byteAt r.req 0))
      (fun u => if clearAsked r.req 1 then modFab (byteAt r.req 0) (fun l => { l with ctr := ctrClear l.ctr }) u else u)) ∧
  (Runs fabConfigSpec r dt s → s.ina.st = .steep → ((byteAt r.req 0).testBit 0 = true → s.twin.configured = false) →
    1 ≤ fieldAt r.req 4 2 → fieldAt r.req 4 2 ≤ 50 → 10 ≤ fieldAt r.req 6 2 → fieldAt r.req 6 2 ≤ 10000 →
    Does (.fabConfig dt r) fabConfigSpec dt r s (fun _ => []) (fun u => areaWritten 4
      ((if (byteAt r.req 0).testBit 0 && !s.fab.attached then fabAttach else id)
        (forEach (List.range 4) (fun k v =>
            if v.fab.mask.getLsbD k && !(s.fab.mask.getLsbD k) then fabLeave k .training v
            else if !(v.fab.mask.getLsbD k) && s.fab.mask.getLsbD k then fabLeave k .disabled v else v)
          (modFabric (fun f => { f with
            attached := (byteAt r.req 0).testBit 0, mask := BitVec.ofNat 4 (byteAt r.req 1)
            allow := BitVec.ofNat 16 (fieldAt r.req 2 2), reqTmo := fieldAt r.req 4 2
            semTmo := fieldAt r.req 6 2 }) u))))) ∧
  (Runs fabWindowSetSpec r dt s → byteAt r.req 0 ≤ 7 → byteAt r.req 1 ≤ 2 → byteAt r.req 3 ≤ 31 ∨ byteAt r.req 3 = 0xFF →
    fieldAt r.req 4 2 < 1024 → byteAt r.req 6 < 16 → fieldAt r.req 16 4 % 0x400000 = 0 → fieldAt r.req 16 4 < 0x1000000 →
    Does (.fabWindowSet dt r) fabWindowSetSpec dt r s (fun _ => []) (fun u => areaWritten 4 (modBridge (fun x => { x with
      windows := updAt x.windows (byteAt r.req 0) (fun _ => {
        mode := byteAt r.req 1, addr := BitVec.ofNat 10 (fieldAt r.req 4 2), vid := BitVec.ofNat 48 (fieldAt r.req 8 6)
        slot := BitVec.ofNat 8 (byteAt r.req 6), base := BitVec.ofNat 32 (fieldAt r.req 16 4)
        rd := (byteAt r.req 2).testBit 0, wr := (byteAt r.req 2).testBit 1
        guard_ := if byteAt r.req 3 = 0xFF then none else some (Fin.ofNat 32 (byteAt r.req 3)) }) }) u))) ∧
  (Runs fabSlotTableSpec r dt s → 2 ≤ byteAt r.req 0 → byteAt r.req 0 ≤ 15 → byteAt r.req 1 = 1 → fieldAt r.req 8 8 ≠ 0 →
    fabActiveTwin s = true →
    Does (.fabSlotTable dt r) fabSlotTableSpec dt r s (fun _ => []) (fun u => areaWritten 4 (modFabric (fun f => { f with
      slots := updAt (f.slots.map (fun v => if v = BitVec.ofNat 64 (fieldAt r.req 8 8) then 0 else v)) (byteAt r.req 0 - 2)
        (fun _ => BitVec.ofNat 64 (fieldAt r.req 8 8))
      assign := f.assign.filter (fun v => v ≠ BitVec.ofNat 64 (fieldAt r.req 8 8))
      noSlot := f.noSlot.filter (fun v => v ≠ BitVec.ofNat 64 (fieldAt r.req 8 8)) }) u))) ∧
  (Runs fabSlotTableSpec r dt s → 2 ≤ byteAt r.req 0 → byteAt r.req 0 ≤ 15 → byteAt r.req 1 = 0 → fabActiveTwin s = true →
    Does (.fabSlotTable dt r) fabSlotTableSpec dt r s (fun _ => []) (fun u => areaWritten 4 (modFabric (fun f => { f with
      slots := updAt f.slots (byteAt r.req 0 - 2) (fun _ => 0), noSlot := [] }) u))) ∧
  (Runs fabBridgeStatusSpec r dt s → Does (.fabBridgeStatus dt r) fabBridgeStatusSpec dt r s
    (fun u => u.bridge.ctr.flatMap (fun x => leBytes 4 x.n.toNat) ++ leBytes 1 (ovfBits u.bridge.ctr))
    (fun u => if clearAsked r.req 0 then modBridge (fun b => { b with ctr := ctrClear b.ctr }) u else u)) ∧
  (Runs fabPwlogSpec r dt s → 1 ≤ byteAt r.req 0 → byteAt r.req 0 ≤ 64 →
    Does (.fabPwlog dt r) fabPwlogSpec dt r s
      (fun _ => [BitVec.ofNat 8 (s.bridge.pwlog.take (byteAt r.req 0)).length, 0, 0, 0] ++
        (s.bridge.pwlog.take (byteAt r.req 0)).flatMap pwBytes)
      (fun u => if (byteAt r.req 1).testBit 0
        then modBridge (fun b => { b with pwlog := b.pwlog.drop (byteAt r.req 0) }) u else u)) ∧
  (Runs fabSemReleaseSpec r dt s → byteAt r.req 0 ≤ 31 →
    Does (.fabSemRelease dt r) fabSemReleaseSpec dt r s (fun _ => []) (semFree (byteAt r.req 0) 2))

/-- R638, R641, R647, R648: the PWR commands. The record; a domain's deepest state, for the next instant, and the wake configuration, at
once, both stored; an entry into Park or Kiln noted for a cycle in place of one noted earlier, and withdrawn. -/
def Obligations.PowerCommandsComplete : Prop := ∀ (dt : Nat) (r : Ring) (s : State),
  (Runs pwrStatusSpec r dt s → Does (.pwrStatus dt r) pwrStatusSpec dt r s pwrRecord
    (fun u => if clearAsked r.req 0 then modPwr (fun p => { p with ctr := ctrClear p.ctr }) u else u)) ∧
  (Runs pwrDomainConfigSpec r dt s → 1 ≤ byteAt r.req 0 → byteAt r.req 0 ≤ 11 → byteAt r.req 1 ≤ domLimit (byteAt r.req 0) →
    Does (.pwrDomainConfig dt r) pwrDomainConfigSpec dt r s (fun _ => []) (fun u => areaWritten 12 (pwrStore
      (modPwr (fun p => { p with
        deepestNext := updAt p.deepestNext (byteAt r.req 0) (fun _ => some (byteAt r.req 1)) }) u)))) ∧
  (Runs pwrParkSpec r dt s → byteAt r.req 4 = 0 → s.cmd.queued.length < 32 →
    Queues (.pwrPark dt r) pwrParkSpec dt r s 0 (fun u => modPwr (fun p => { p with
      pend := some (false, BitVec.ofNat 32 (fieldAt r.req 0 4),
        !(wrapNewer (BitVec.ofNat 32 (fieldAt r.req 0 4)) (cycleNo u))) }) (dropEntry u))) ∧
  (Runs pwrKilnSpec r dt s → byteAt r.req 4 = 0 → s.cmd.queued.length < 32 →
    Queues (.pwrKiln dt r) pwrKilnSpec dt r s 0 (fun u => modPwr (fun p => { p with
      pend := some (true, BitVec.ofNat 32 (fieldAt r.req 0 4),
        !(wrapNewer (BitVec.ofNat 32 (fieldAt r.req 0 4)) (cycleNo u))) }) (dropEntry u))) ∧
  (Runs pwrParkSpec r dt s → byteAt r.req 4 = 1 →
    Does (.pwrParkWithdraw dt r) pwrParkSpec dt r s (fun _ => []) dropEntry) ∧
  (Runs pwrKilnSpec r dt s → byteAt r.req 4 = 1 →
    Does (.pwrKilnWithdraw dt r) pwrKilnSpec dt r s (fun _ => []) dropEntry) ∧
  (Runs pwrWakeConfigSpec r dt s → fieldAt r.req 10 4 < 1000000000 →
    Does (.pwrWakeConfig dt r) pwrWakeConfigSpec dt r s (fun _ => []) (fun u => areaWritten 12 (pwrStore
      (modPwr (fun p => { p with
        wakePark := BitVec.ofNat 5 (byteAt r.req 0), wakeKiln := BitVec.ofNat 5 (byteAt r.req 1)
        alarm := timeOf (r.req.drop 4) }) u))))

/-- R308, R309, R311, R312, R662, R667, R669, R670: the REP and REC commands. Self-repair's record and log, its tests and calibrations, which wait,
and the period of rotation; the recorder's record, configuration, trigger, casks and page. -/
def Obligations.RepairRecorderCommandsComplete : Prop := ∀ (dt : Nat) (r : Ring) (s : State),
  (Runs repStatusSpec r dt s → Does (.repStatus dt r) repStatusSpec dt r s repRecord
    (fun u => if clearAsked r.req 0 then modRep (fun x => { x with ctr := ctrClear x.ctr }) u else u)) ∧
  (Runs repLogSpec r dt s → 1 ≤ fieldAt r.req 2 2 → fieldAt r.req 2 2 ≤ 250 →
    Does (.repLog dt r) repLogSpec dt r s (fun _ =>
      leBytes 2 ((s.rep.hist.drop (fieldAt r.req 0 2)).take (fieldAt r.req 2 2)).length ++ leBytes 2 s.rep.hist.length ++
      leBytes 12 0 ++ ((s.rep.hist.drop (fieldAt r.req 0 2)).take (fieldAt r.req 2 2)).flatMap repEntryBytes) id) ∧
  (Runs repTestSpec r dt s → 2 ≤ byteAt r.req 0 → byteAt r.req 0 ≤ 4 → byteAt r.req 1 = 0 →
    reqPending (Fin.ofNat 8 (byteAt r.req 0 - 1)) s = false → s.cmd.queued.length < 32 →
    Queues (.repTest dt r) repTestSpec dt r s 0 (addReq (Fin.ofNat 8 (byteAt r.req 0 - 1)) r.mbx.val)) ∧
  (Runs repTestSpec r dt s → byteAt r.req 0 = 1 → byteAt r.req 1 ≤ 4 → s.rep.retired.getLsbD (byteAt r.req 1) = false →
    (∀ l, carriedBy s (Fin.ofNat 5 (byteAt r.req 1)) = some l →
      pairSplit (pairOf s l) = false ∧ (pairOf s l).dbg = false) →
    reqPending 0 s = false → s.cmd.queued.length < 32 →
    Queues (.repTest dt r) repTestSpec dt r s 0
      (fun u => addReq 0 r.mbx.val (askTest (Fin.ofNat 5 (byteAt r.req 1)) u))) ∧
  (Runs repCalibrateSpec r dt s → 1 ≤ byteAt r.req 0 → byteAt r.req 0 ≤ 3 →
    reqPending (Fin.ofNat 8 (byteAt r.req 0 + 3)) s = false → s.cmd.queued.length < 32 →
    Queues (.repCalibrate dt r) repCalibrateSpec dt r s 0 (addReq (Fin.ofNat 8 (byteAt r.req 0 + 3)) r.mbx.val)) ∧
  (Runs repRotationSpec r dt s → fieldAt r.req 0 2 = 0 ∨ 6 ≤ fieldAt r.req 0 2 ∧ fieldAt r.req 0 2 ≤ 168 →
    Does (.repRotation dt r) repRotationSpec dt r s (fun _ => []) (fun u => modRep (fun x => { x with
      rotHours := fieldAt r.req 0 2, rotDueClk := u.clk + secT (fieldAt r.req 0 2 * 720)
      rotDeferred := x.rotDeferred && fieldAt r.req 0 2 ≠ 0 }) u)) ∧
  (Runs recStatusSpec r dt s → Does (.recStatus dt r) recStatusSpec dt r s (fun _ =>
    leBytes 4 s.flow.rec_.wr ++ leBytes 4 (frozenBytes s.flow.rec_) ++ leBytes 1 (casksHeld s.flow.rec_).length) id) ∧
  (Runs recConfigSpec r dt s → byteAt r.req 4 ≤ 1 →
    Does (.recConfig dt r) recConfigSpec dt r s (fun _ => []) (modRec (fun x => { x with
      next := some (fieldAt r.req 0 2, fieldAt r.req 2 2, byteAt r.req 4 == 1,
       ((List.range 16).map (fun i => BitVec.ofNat 16 (fieldAt r.req (6 + 2 * i) 2))).filter (fun t => t ≠ 0),
       (r.req.drop 38).take 128) }))) ∧
  (∀ i, Runs recTriggerSpec r dt s → s.flow.rec_.collecting = some i →
    Does (.recTrigger dt r) recTriggerSpec dt r s (fun _ => leBytes 1 i)
      (modRec (fun x => { x with trigger := some (0, BitVec.ofNat 32 (fieldAt r.req 0 4)) }))) ∧
  (∀ x, Runs recTriggerSpec r dt s → s.flow.rec_.collecting = none →
    roomForCask s.cmd.cycleEvents.length s.flow.rec_ = some x →
    Does (.recTrigger dt r) recTriggerSpec dt r s
      (fun u => leBytes 1 (beginCask (cycleNo u) (BitVec.ofNat 32 (fieldAt r.req 0 4)) x).1)
      (fun u => modRec (fun _ => { (beginCask (cycleNo u) (BitVec.ofNat 32 (fieldAt r.req 0 4)) x).2 with
        trigger := some (0, BitVec.ofNat 32 (fieldAt r.req 0 4)) }) u)) ∧
  (∀ c, Runs recCaskSpec r dt s → byteAt r.req 0 ≤ 7 → s.flow.rec_.casks.getD (byteAt r.req 0) none = some c →
    Does (.recCask dt r) recCaskSpec dt r s
      (fun _ => leBytes 4 c.offset ++ leBytes 4 c.length ++ leBytes 4 c.cycle.toNat ++ leBytes 4 c.tag.toNat) id) ∧
  (Runs recReleaseSpec r dt s → byteAt r.req 0 ≤ 7 →
    Does (.recRelease dt r) recReleaseSpec dt r s (fun _ => []) (modRec (fun x => { x with
      casks := updAt x.casks (byteAt r.req 0) (fun _ => none)
      collecting := if x.collecting = some (byteAt r.req 0) then none else x.collecting }))) ∧
  (Runs recPageSpec r dt s → byteAt r.req 0 < 24 →
    Does (.recPage dt r) recPageSpec dt r s (fun _ => []) (modRec (fun x => { x with page := byteAt r.req 0 })))

/-! ## The other commands: each completes, with the state it leaves -/

/-- R44, R48, R50, R54, R56, R58, R62, R63, R67: a trunk port goes from state to state. A loss is timed from where it began; one of over
100 µs puts the port into Resume, from which it comes back to Up; one of a macrocycle ends the link; energy starts training or
negotiation by the policy of the direction; lock begins Qualify, and 16 ms of it with at most 16 code violations bring the port
Up, while the 17th, or a loss of lock, sends it back to Train; a negotiation of 2 s or a failed training sends it back to
Detect, and after an Ndoelle training under policy 0x1 without an answer for 40 ms the next energy there begins negotiation, which
prefers 1000BASE-T1; a fixed T1 port swaps its role after 500 ms without a link; and a T1 link comes up and goes down as a whole.
How the two ports of a direction come to one mode is the model's choice (log 36). -/
def Obligations.TrunkPortTransitions : Prop := ∀ (dt : Nat) (p : Fin 4) (s : State), Sound s →
  (portUp s p = true → onNdoelle (portOf s p) = true → (portOf s p).lossClk = none →
    exec (.lossOfSignal dt p) s = .next (modPort p (fun t => { t with lossClk := some (s.clk + dt) }) (begin_ dt s))) ∧
  (∀ c, portUp s p = true → (portOf s p).lossClk = some c → c + usT 100 < s.clk + dt →
    ∃ t, exec (.resumeEntry dt p) s = .next t ∧ (portOf t p).st = .resume ∧ (portOf t p).rideCounted = true ∧
      (portOf t p).ctr = ctrInc (portOf s p).ctr 3 ∧ (portOf t p).fifo = [] ∧ (portOf t p).lossClk = some c ∧
      (∀ q : Fin 4, q ≠ p → portOf t q = portOf s q)) ∧
  (∀ c, (portOf s p).st = .up → (portOf s p).lossClk = some c → c ≤ s.clk → s.clk + dt < c + macroT s →
    exec (.signalRelock dt p) s = .next (modPort p (fun t => { t with
      lossClk := none, ctr := ctrInc t.ctr (if s.clk + dt ≤ c + usT 100 then 2 else 3) }) (begin_ dt s))) ∧
  (∀ c, (portOf s p).st = .resume → (portOf s p).lossClk = some c → c ≤ s.clk → s.clk + dt < c + macroT s →
    exec (.signalRelock dt p) s = .next (modPort p (fun t => { t with
      st := .up, lossClk := none, rideCounted := false }) (begin_ dt s))) ∧
  (∀ c, linkHeld (portOf s p) = true → (portOf s p).lossClk = some c → c + macroT s ≤ s.clk + dt →
    exec (.signalRelock dt p) s = .next (linkDown p 1 (begin_ dt s)) ∧
    exec (.linkDownTimeout dt p) s = .next (linkDown p 1 (begin_ dt s)) ∧
    (joined s = false → ∃ t, exec (.linkDownTimeout dt p) s = .next t ∧ (portOf t p).st = .detect ∧
      (portOf t p).delay.valid = false ∧ (portOf t p).ctr = ctrInc (portOf s p).ctr 4 ∧
      (portOf t p).downCause = (if (portOf s p).passive then 5 else 1))) ∧
  ((portOf s p).st = .detect → policyOf s p = 1 ∧ negotiatesNext p s = false ∨ policyOf s p = 2 →
    ∃ t, exec (.partnerEnergyDetect dt p) s = .next t ∧ (portOf t p).st = .train ∧ (portOf t p).mode = .ndoelle ∧
      (portOf t p).ctr = ctrInc (portOf s p).ctr 5 ∧ (portOf t p).trainPol = policyOf s p ∧
      (∀ q : Fin 4, q ≠ p → portOf t q = portOf s q)) ∧
  ((portOf s p).st = .detect → policyOf s p = 1 ∧ negotiatesNext p s = true ∨ policyOf s p = 3 →
    ∃ t, exec (.partnerEnergyDetect dt p) s = .next t ∧ (portOf t p).st = .negotiate ∧ (portOf t p).qualClk = s.clk + dt ∧
      (∀ q : Fin 4, q ≠ p → portOf t q = portOf s q)) ∧
  ((portOf s p).st = .detect → policyOf s p = 4 ∨ policyOf s p = 5 →
    ∃ t, exec (.partnerEnergyDetect dt p) s = .next t ∧ (portOf t p).st = .train ∧
      (portOf t p).t1Master = (portOf s p).t1Master ∧ (portOf t p).mode = (if policyOf s p = 4 then .t1000 else .t100)) ∧
  ((portOf s p).st = .train → onNdoelle (portOf s p) = true →
    ∃ t, exec (.trainingLockComplete dt p) s = .next t ∧ (portOf t p).st = .qualify ∧ (portOf t p).mode = .ndoelle ∧
      (portOf t p).qualClk = s.clk + dt ∧ (portOf t p).violations = 0 ∧ (portOf t p).partner = none ∧
      (portOf t p).deltas = []) ∧
  (∀ uid, (portOf s p).st = .qualify → (portOf s p).qualClk + msT 16 ≤ s.clk + dt → (portOf s p).violations ≤ 16 →
    exec (.qualifyComplete dt p uid) s = .next (portToUp p uid (begin_ dt s)) ∧
    ∃ t, exec (.qualifyComplete dt p uid) s = .next t ∧ (portOf t p).st = .up ∧ (portOf t p).partnerUid = uid ∧
      (portOf t p).delay.valid = false) ∧
  (∀ uid, (portOf s p).st = .qualify → s.clk + dt < (portOf s p).qualClk + msT 16 ∨ 16 < (portOf s p).violations →
    exec (.qualifyComplete dt p uid) s = .next (begin_ dt s)) ∧
  (∀ k lost, (portOf s p).st = .qualify → lost = true ∨ 16 < (portOf s p).violations + k →
    ∃ t, exec (.codeViolationLimit dt p k lost) s = .next t ∧ (portOf t p).st = .train ∧ (portOf t p).mode = .ndoelle ∧
      (portOf t p).qualClk = s.clk + dt ∧ (∀ q : Fin 4, q ≠ p → portOf t q = portOf s q)) ∧
  (∀ k lost, (portOf s p).st = .qualify ∧ lost = false ∧ (portOf s p).violations + k ≤ 16 ∨ linkHeld (portOf s p) = true →
    exec (.codeViolationLimit dt p k lost) s = .next (modPort p (fun t => { t with
      ctr := updAt t.ctr 0 (satAdd k), violations := t.violations + k }) (begin_ dt s))) ∧
  ((portOf s p).st = .negotiate → (portOf s p).qualClk + secT 2 ≤ s.clk + dt →
    ∃ t, exec (.negotiateTimeout dt p) s = .next t ∧ (portOf t p).st = .detect ∧
      (∀ q : Fin 4, q ≠ p → portOf t q = portOf s q)) ∧
  (∀ a b m, (portOf s p).st = .negotiate → (a = true ∨ b = true) → onT1 (portOf s (siblingPort p)) = false →
    ndoelleHeld (portOf s (siblingPort p)) = false →
    ∃ t, exec (.autonegComplete dt p a b m) s = .next t ∧ (portOf t p).st = .train ∧ (portOf t p).t1Master = m ∧
      (portOf t p).mode = (if a then .t1000 else .t100) ∧
      (onNdoelle (portOf s (siblingPort p)) = true → (portOf t (siblingPort p)).st = .detect ∧
        (portOf t (siblingPort p)).clause98 = true)) ∧
  (∀ a b m, (portOf s p).st = .negotiate →
    (portOf s (siblingPort p)).mode = .t1000 ∧ a = true ∨ (portOf s (siblingPort p)).mode = .t100 ∧ b = true →
    ∃ t, exec (.autonegComplete dt p a b m) s = .next t ∧ (portOf t p).st = .train ∧ (portOf t p).t1Master = m ∧
      (portOf t p).mode = (portOf s (siblingPort p)).mode) ∧
  (∀ ans, (portOf s p).st = .train → fallsBack p ans (begin_ dt s) = false →
    ∃ t, exec (.trainingFailure dt p ans) s = .next t ∧ (portOf t p).st = .detect ∧ (portOf t p).clause98 = false ∧
      (portOf t p).ctr = ctrInc (portOf s p).ctr 6 ∧ (∀ q : Fin 4, q ≠ p → portOf t q = portOf s q)) ∧
  ((portOf s p).st = .train → (portOf s p).trainPol = 1 → policyOf s p = 1 → onNdoelle (portOf s p) = true →
    (portOf s p).qualClk + msT 40 ≤ s.clk + dt → ndoelleHeld (portOf s (siblingPort p)) = false →
    ∃ t, exec (.trainingFailure dt p false) s = .next t ∧ (portOf t p).st = .detect ∧ (portOf t p).clause98 = true ∧
      (portOf t p).ctr = ctrInc (portOf s p).ctr 6 ∧ (∀ q : Fin 4, q ≠ p → portOf t q = portOf s q)) ∧
  (∀ uid, (portOf s p).st = .train → onT1 (portOf s p) = true →
    ∃ t, exec (.t1LinkUp dt p uid) s = .next t ∧ (portOf t p).st = .up ∧ (portOf t p).partnerUid = uid ∧
      (portOf t p).partner = none) ∧
  ((portOf s p).st = .train ∧ ((portOf s p).trainPol = 4 ∨ (portOf s p).trainPol = 5) ∨
      (portOf s p).st = .detect ∧ (policyOf s p = 4 ∨ policyOf s p = 5) → (portOf s p).swapClk + msT 500 ≤ s.clk + dt →
    exec (.t1RoleSwap dt p) s = .next (modPort p (fun t => { t with
      t1Master := !t.t1Master, swapClk := s.clk + dt }) (begin_ dt s))) ∧
  (s.clk + dt < (portOf s p).swapClk + msT 500 → exec (.t1RoleSwap dt p) s = .next (begin_ dt s)) ∧
  (linkHeld (portOf s p) = true → onT1 (portOf s p) = true →
    exec (.t1LinkDown dt p) s = .next (linkDown p 1 (begin_ dt s)) ∧
    (joined s = false → ∃ t, exec (.t1LinkDown dt p) s = .next t ∧ (portOf t p).st = .detect ∧
      (portOf t p).ctr = ctrInc (portOf s p).ctr 4))

/-- R47, R77–R82, R160, R503: the hop-delay exchange. On a Ndoelle port and on a lane of a fabric link it runs by markers: a request
leaves an idle port where it delays no frame; its receiver answers with a response and a follow-up of the residence time; the
response gives t4 and the follow-up completes the estimate. On a T1 port it runs by peer-delay messages, whose answers carry
t2 and t3. A response that would delay a frame waits for its end. -/
def Obligations.HopDelayExchange : Prop := ∀ (dt : Nat) (s : State), Sound s →
  (∀ (p : Fin 4) tx, portUp s p = true → onNdoelle (portOf s p) = true →
    markerClear p (tx - ((begin_ dt s).now : Int)).toNat 1 (begin_ dt s) = true →
    ∃ t, exec (.delayRequest dt (.trunk p) true tx) s = .next t ∧
      (portOf t p).delay = { (portOf s p).delay with
        reqSeq := (portOf s p).delay.reqSeq + 1, t1 := some (pinTx (portOf s p) tx), t2 := none, t4 := none } ∧
      (s.sys.extest = false →
        t.emit = [.delay (.trunk p) (.marker (marker 0 (((portOf s p).delay.reqSeq + 1).setWidth 6) 0))])) ∧
  (∀ (p : Fin 4) tx idle, idle = false ∨ markerClear p (tx - ((begin_ dt s).now : Int)).toNat 1 (begin_ dt s) = false →
    exec (.delayRequest dt (.trunk p) idle tx) s = .next (begin_ dt s)) ∧
  (∀ (k : Fin 4) (l : Fin 2) tx, laneRuns s k l = true → (fabOf s k).delays.length = 2 →
    ∃ t, exec (.delayRequest dt (.fabric k l) true tx) s = .next t ∧ laneOf t k l = { laneOf s k l with
      reqSeq := (laneOf s k l).reqSeq + 1, t1 := some tx, t2 := none, t4 := none }) ∧
  (∀ (p : Fin 4) m rx tx, markerPort (.trunk p) s = true → markerOk m = true → m.type = 0 →
    s.sys.extest = false →
    ∃ t, exec (.delayMarkerRx dt (.trunk p) (.marker m) rx tx) s = .next t ∧
      t.emit = [.delay (.trunk p) (.marker (marker 1 m.seq 0)), .delay (.trunk p) (.marker (marker 2 m.seq
        (BitVec.ofInt 24 ((pinTx (portOf s p) (max tx (((begin_ dt s).now : Int) + delayWait (.trunk p) tx (begin_ dt s))) -
          pinRx (portOf s p) rx) / 4096))))]) ∧
  (∀ (k : Fin 4) (l : Fin 2) m rx tx, laneRuns s k l = true → markerOk m = true → m.type = 0 →
    ((begin_ dt s).now : Int) ≤ tx → s.sys.extest = false →
    ∃ t, exec (.delayMarkerRx dt (.fabric k l) (.marker m) rx tx) s = .next t ∧
      t.emit = [.delay (.fabric k l) (.marker (marker 1 m.seq 0)), .delay (.fabric k l) (.marker (marker 2 m.seq
        (BitVec.ofInt 24 ((tx - rx) / 4096))))]) ∧
  (∀ (p : Fin 4) m rx tx, markerPort (.trunk p) s = true → markerOk m = true → m.type = 1 →
    m.seq = markerSeq (portOf s p).delay → (portOf s p).delay.t1.isSome = true →
    exec (.delayMarkerRx dt (.trunk p) (.marker m) rx tx) s = .next (modPort p (fun t => { t with
      delay := { t.delay with t4 := some (pinRx (portOf s p) rx) } }) (begin_ dt s))) ∧
  (∀ (p : Fin 4) q rx tx, portUp s p = true → onT1 (portOf s p) = true → s.sys.extest = false →
    ∃ t, exec (.delayMarkerRx dt (.trunk p) (.pdelayReq q) rx tx) s = .next t ∧
      t.emit = [.delay (.trunk p) (.pdelayResp q (pinRx (portOf s p) rx)),
                .delay (.trunk p) (.pdelayFollowUp q (pinTx (portOf s p) tx))]) ∧
  (∀ (p : Fin 4) t2 rx tx, portUp s p = true → onT1 (portOf s p) = true → (portOf s p).delay.t1.isSome = true →
    exec (.delayMarkerRx dt (.trunk p) (.pdelayResp (portOf s p).delay.reqSeq t2) rx tx) s = .next (modPort p (fun t =>
      { t with delay := { t.delay with t2 := some t2, t4 := some (pinRx (portOf s p) rx) } }) (begin_ dt s))) ∧
  (∀ (p : Fin 4) m a b, markerPort (.trunk p) s = true → markerOk m = true → m.type = 2 →
    m.seq = markerSeq (portOf s p).delay → m.value.toNat ≤ 128000 → (portOf s p).delay.t1 = some a →
    (portOf s p).delay.t4 = some b → (portOf s p).delay.valid = true →
    ((b - a - (m.value.toNat : Int) * 4096) / 2 - (portOf s p).delay.est).natAbs ≤ nsT 8 →
    ∃ t, exec (.delayFollowUpRx dt (.trunk p) (.marker m)) s = .next t ∧ (portOf t p).delay.valid = true ∧
      (portOf t p).delay.est = (portOf s p).delay.est +
        ((b - a - (m.value.toNat : Int) * 4096) / 2 - (portOf s p).delay.est) / 16 ∧
      (portOf t p).delay.t1 = none ∧ (portOf t p).delay.t4 = none ∧ (portOf t p).ctr = (portOf s p).ctr) ∧
  (∀ (p : Fin 4) m, markerPort (.trunk p) s = true → markerOk m = true → m.type = 2 →
    m.seq ≠ markerSeq (portOf s p).delay ∨ 128000 < m.value.toNat →
    ∃ t, exec (.delayFollowUpRx dt (.trunk p) (.marker m)) s = .next t ∧ (portOf t p).delay = (portOf s p).delay) ∧
  (∀ (p : Fin 4) q t3, portUp s p = true → onT1 (portOf s p) = true →
    exec (.delayFollowUpRx dt (.trunk p) (.pdelayFollowUp q t3)) s =
      .next (delayTrunkDone p (pdelayComplete q t3 (portOf s p).delay) (begin_ dt s))) ∧
  (∀ (k : Fin 4) (l : Fin 2) m, laneRuns s k l = true → markerOk m = true → m.type = 2 →
    exec (.delayFollowUpRx dt (.fabric k l) (.marker m)) s =
      .next (delayLaneDone k l (markerComplete m (laneOf s k l)) (begin_ dt s))) ∧
  (∀ (p : Fin 4) tx, portUp s p = true → onT1 (portOf s p) = true →
    ∃ t, exec (.peerDelayRequest dt p tx) s = .next t ∧
      (portOf t p).delay = { (portOf s p).delay with
        reqSeq := (portOf s p).delay.reqSeq + 1, t1 := some (pinTx (portOf s p) tx), t2 := none, t4 := none } ∧
      (s.sys.extest = false → t.emit = [.delay (.trunk p) (.pdelayReq ((portOf s p).delay.reqSeq + 1))]))

/-- R70–R72, R76, R96, R614: the bypass switches. Going passive closes line A, once every Up port has said so, and, 100 ms later,
line B; going active opens line A and
then line B, and counts as complete with line B; a switch found where it was not commanded is driven once more; an emergency
closes both at once and abandons the sequence. -/
def Obligations.BypassSwitches : Prop := ∀ (dt : Nat) (s : State),
  (∀ q, s.trunk.seq = some q → q.passive = true → q.lineADone = false → passiveTold s = true →
    exec (.bypassLineAClose dt) s = .next (closeLineBroken .a (modTrunk (fun t => { t with
      seq := some { q with lineADone := true, aClk := s.clk + dt } }) (begin_ dt s))) ∧
    ∃ t, exec (.bypassLineAClose dt) s = .next t ∧ t.trunk.lineA.closed = true ∧ t.trunk.lineB = s.trunk.lineB ∧
      t.trunk.seq = some { q with lineADone := true, aClk := s.clk + dt }) ∧
  (passiveTold s = false → exec (.bypassLineAClose dt) s = .next (begin_ dt s)) ∧
  (∀ q, s.trunk.seq = some q → q.passive = true → q.lineADone = true → q.aClk + msT 100 ≤ s.clk + dt →
    exec (.bypassLineBClose dt) s = .next (finishSequence true (closeLineBroken .b (begin_ dt s))) ∧
    ∃ t, exec (.bypassLineBClose dt) s = .next t ∧ t.trunk.lineB.closed = true ∧ t.trunk.lineA = s.trunk.lineA ∧
      t.trunk.byCommand = true) ∧
  (∀ q, s.trunk.seq = some q → q.passive = false → q.lineADone = false → mayOpenSwitch s = true →
    exec (.bypassLineAOpen dt) s = .next (openLine .a (modTrunk (fun t => { t with
      seq := some { q with lineADone := true, aClk := s.clk + dt } }) (begin_ dt s))) ∧
    ∃ t, exec (.bypassLineAOpen dt) s = .next t ∧ t.trunk.lineA.closed = false ∧ t.trunk.lineB = s.trunk.lineB) ∧
  (∀ q, s.trunk.seq = some q → q.passive = false → q.lineADone = true → lineBMayOpen q.aClk (begin_ dt s) = true →
    mayOpenSwitch s = true →
    exec (.bypassLineBOpen dt) s = .next (finishSequence false (openLine .b (begin_ dt s))) ∧
    ∃ t, exec (.bypassLineBOpen dt) s = .next t ∧ t.trunk.lineB.closed = false ∧ t.trunk.lineA = s.trunk.lineA ∧
      t.trunk.byCommand = false) ∧
  (∀ c, s.trunk.lineA.command = some c → s.trunk.lineA.cmdClk + msT 4 ≤ s.clk + dt →
    exec (.bypassSenseCheck dt .a c) s = .next (modTrunk (fun t => { t with
      lineA := { t.lineA with closed := c, command := none } }) (begin_ dt s))) ∧
  (∀ c, s.trunk.lineB.command = some c → s.trunk.lineB.cmdClk + msT 4 ≤ s.clk + dt →
    exec (.bypassSenseCheck dt .b c) s = .next (modTrunk (fun t => { t with
      lineB := { t.lineB with closed := c, command := none } }) (begin_ dt s))) ∧
  (∀ c x, s.trunk.lineA.command = some c → x ≠ c → s.trunk.lineA.retried = false →
    s.trunk.lineA.cmdClk + msT 4 ≤ s.clk + dt →
    ∃ t, exec (.bypassSenseCheck dt .a x) s = .next t ∧
      t.trunk.lineA = { closed := x, command := some c, retried := true, cmdClk := s.clk + dt }) ∧
  (s.sys.powered = true → exec (.supervisorFatalFault dt) s = .next (emergencyClose (begin_ dt s)) ∧
    ∃ t, exec (.supervisorFatalFault dt) s = .next t ∧ t.trunk.lineA.closed = true ∧ t.trunk.lineB.closed = true ∧
      t.trunk.seq = none ∧ t.trunk.byCommand = false) ∧
  (s.pwr.shutdown = true → exec (.shutdownBypassClose dt) s = .next (emergencyClose (begin_ dt s)) ∧
    ∃ t, exec (.shutdownBypassClose dt) s = .next t ∧ t.trunk.lineA.closed = true ∧ t.trunk.lineB.closed = true ∧
      t.trunk.seq = none)

/-- R92, R93, R95, R96, R99, R100, R106, R116, R117, R122, R126, R128, R131, R135, R138, R139, R142, R165–R168: what nodes tell one
another to build the numbering. Beacons sent where they delay no frame, and taken; a break forwarded and its removal
scheduled; directory frames; joins noted by the first node and by the provisional lead, and passed on by the others; cold
claims, merge reports and the leading vehicle; the opening frame, valid, wrong or late; and the moments at which a node
contends, claims, leads and yields. A frame without a receive time is judged by the moment of its command (log 36, the model's
choice). -/
def Obligations.InaugurationCommandsComplete : Prop := ∀ (dt : Nat) (s : State), Sound s →
  (∀ (p : Fin 4) idle, beaconPort s p = true → beaconClear p idle (begin_ dt s) = true → s.sys.extest = false →
    ∃ t b, exec (.linkBeaconSend dt p idle) s = .next t ∧
      t.emit = [.trunk p (.beacon b) none (some s.trunk.etherType)] ∧ b = ownBeacon p (begin_ dt s) ∧ b.uid = s.sys.uid ∧
      b.vid = s.ina.vid ∧ b.addr = s.ina.addr ∧ b.gen = s.ina.gen ∧ b.hash = ownHash s) ∧
  (∀ (p : Fin 4) idle, beaconPort s p = false ∨ beaconClear p idle (begin_ dt s) = false →
    exec (.linkBeaconSend dt p idle) s = .next (begin_ dt s)) ∧
  (∀ (p : Fin 4), s.trunk.passiveOn = true → upPorts s = [p.val] → s.sys.extest = false →
    beaconClear p (lineTicks (portOf s p) (inaugLen (.beacon (ownBeacon p (begin_ dt s))))) (begin_ dt s) = true →
    ∃ t b, exec (.passiveBeaconSend dt) s = .next t ∧ t.emit = [.trunk p (.beacon b) none (some s.trunk.etherType)] ∧
      b.uid = s.sys.uid ∧ b.flags.getLsbD 0 = true) ∧
  (∀ (p : Fin 4) b rx, beaconPort s p = true → s.ina.st = .steep → sameSchedule b s = true → b.flags.getLsbD 0 = false →
    (portOf s p).ttdp = false → (portOf s p).delay.valid = false →
    exec (.linkBeaconRx dt p b rx) s = .next (modIna (fun n => { n with newest := newerGen n.newest b.gen })
      (modPort p (fun t => { t with
        partner := some b, partnerClk := some (s.clk + dt), partnerUid := if linkHeld t then t.partnerUid else b.uid
        strange := t.strange || (linkHeld t && b.uid ≠ t.partnerUid && b.uid ≠ t.okUid)
        deltas := ((b.txTime : Int) + (if linkHeld t then t.delay.est else 0) - pinRx t rx) :: t.deltas.take 7 })
        (begin_ dt s)))) ∧
  (∀ (p : Fin 4) b rx, beaconPort s p = false → exec (.linkBeaconRx dt p b rx) s = .next (begin_ dt s)) ∧
  (∀ (p : Fin 4) b d u, portUp s p = true → isBoundary s p = false → straysNow p (begin_ dt s) = false →
    s.ina.dir = some d → uidNumbered d b.lostUid = true → reporterOf b s = some u → s.ina.removals = [] →
    ∃ t, exec (.breakRx dt p b) s = .next t ∧
      t.ina.removals = [{ brk := b, reporter := u, wait := removalWait b.tDown (begin_ dt s) }] ∧
      t.ina.ctr = ctrInc s.ina.ctr 5) ∧
  (∀ (p : Fin 4) b, portUp s p = true → isBoundary s p = false →
    (∀ d, s.ina.dir = some d → uidNumbered d b.lostUid = false) →
    ∃ t, exec (.breakRx dt p b) s = .next t ∧ t.ina = s.ina ∧
      (forwards s p = true → carriesPadait (acrossPort p) s = true → (portOf s (acrossPort p)).fifo = [] →
        (portOf s (acrossPort p)).busyTill ≤ s.clk + dt → s.sys.extest = false →
        t.emit = [.forwarded (Fin.ofNat 4 (acrossPort p)) (.breakF b)])) ∧
  (∀ (p : Fin 4) d D, portUp s p = true → isBoundary s p = false → straysNow p (begin_ dt s) = false → d.isForeign = false →
    d.prepared = false → joined s = false → s.ina.partial_ = [] → assembleDir [d] = some D →
    ∃ t, exec (.directoryRx dt p d) s = .next t ∧ t.ina.dir = some D ∧ t.ina.gen = D.gen ∧ t.ina.members = walkOf D ∧
      t.ina.dirAge = 0 ∧ t.ina.partial_ = []) ∧
  (∀ (p : Fin 4) d D q, portUp s p = true → isBoundary s p = false → straysNow p (begin_ dt s) = false →
    d.isForeign = false → d.prepared = true → isFirst s = false → s.ina.partial_ = [] → assembleDir [d] = some D →
    s.ina.prep = some q → q.committed = false →
    ∃ t, exec (.directoryRx dt p d) s = .next t ∧
      t.ina.prep = some { q with dir := D, hash := dirHash D, whole := true, conf := leftOut D s } ∧
      t.ina.dir = s.ina.dir) ∧
  (∀ (p : Fin 4) d D, portUp s p = true → straysNow p (begin_ dt s) = false → d.isForeign = true →
    (portOf s p).partner = none → s.ina.partial_ = [] → assembleDir [d] = some D →
    ∃ t, exec (.directoryRx dt p d) s = .next t ∧ t.ina.foreignDir = some D ∧ t.ina.dir = s.ina.dir) ∧
  (∀ p j, isFirst s = true →
    (∀ q : Fin 4, p = some q → OwnTraffic q dt s) → j ∉ s.ina.extra →
    exec (.joinRx dt p j) s = .next (modIna (fun n => { n with
      additions := n.additions.filter (fun x => x.uid ≠ j.uid) ++ [j] }) (begin_ dt s))) ∧
  (∀ p j, inProvLead s = true →
    (∀ q : Fin 4, p = some q → OwnTraffic q dt s) →
    (∀ x ∈ s.ina.joiners, x.uid ≠ j.uid) →
    exec (.joinRx dt p j) s = .next (modIna (fun n => { n with
      joiners := n.joiners ++ [j], provQuiet := 0, provJoin := true }) (begin_ dt s))) ∧
  (∀ (p : Fin 4) j, portUp s p = true → isBoundary s p = false → isFirst s = false → inProvLead s = false → straysNow p (begin_ dt s) = false →
    exec (.joinRx dt (some p) j) s = .next (forwardFrame p (.join j) (begin_ dt s))) ∧
  (∀ (p : Fin 4) j, portUp s p = false ∨ isBoundary s p = true →
    exec (.joinRx dt (some p) j) s = .next (begin_ dt s)) ∧
  (∀ j, isFirst s = false → inProvLead s = false →
    exec (.joinRx dt none j) s = .next (inaugSend (trainPorts s) (.join j) (begin_ dt s))) ∧
  (∀ (p : Fin 4) c, portUp s p = true → isBoundary s p = false → straysNow p (begin_ dt s) = false → s.ina.st = .contend →
    ∃ t, exec (.coldClaimRx dt p c) s = .next t ∧ c.newestGen ∈ t.ina.heardGens ∧
      t.ina.st = (if (ownRank s).toNat < c.rank.toNat then .provMember else .contend)) ∧
  (∀ (p : Fin 4) m, portUp s p = true → isBoundary s p = false → isFirst s = true → straysNow p (begin_ dt s) = false →
    (∀ d, s.ina.dir = some d → uidNumbered d m.partner.uid = false) → sameSchedule m.partner s = true →
    exec (.mergeReportRx dt p m) s = .next (modIna (fun n => { n with mergeWait := some m }) (begin_ dt s))) ∧
  (∀ (p : Fin 4) m, portUp s p = true → isBoundary s p = false → isFirst s = true → straysNow p (begin_ dt s) = false →
    (∀ d, s.ina.dir = some d → uidNumbered d m.partner.uid = false) → sameSchedule m.partner s = false →
    exec (.mergeReportRx dt p m) s =
      .next (raise 0x0202 (leBytes 1 m.port.val ++ leBytes 8 m.partner.uid.toNat) (begin_ dt s))) ∧
  (∀ (p : Fin 4) m, portUp s p = true → isBoundary s p = false → isFirst s = false → straysNow p (begin_ dt s) = false →
    exec (.mergeReportRx dt p m) s = .next (forwardLen p (.mergeReport m) (reportLen m) (begin_ dt s))) ∧
  (∀ (p : Fin 4) m, portUp s p = false ∨ isBoundary s p = true → exec (.mergeReportRx dt p m) s = .next (begin_ dt s)) ∧
  (∀ p v, isFirst s = true → (∀ q : Fin 4, p = some q → OwnTraffic q dt s) →
    (∀ d, s.ina.dir = some d → d.leadVid ≠ v) →
    exec (.leadSetRx dt p v) s = .next (modIna (fun n => { n with leadNew := some v }) (begin_ dt s))) ∧
  (∀ (p : Fin 4) v, portUp s p = false ∨ isBoundary s p = true →
    exec (.leadSetRx dt (some p) v) s = .next (begin_ dt s)) ∧
  (∀ (p : Fin 4) v, portUp s p = true → isBoundary s p = false → isFirst s = false → straysNow p (begin_ dt s) = false →
    exec (.leadSetRx dt (some p) v) s = .next (forwardFrame p (.leadSet v) (begin_ dt s))) ∧
  (∀ v, isFirst s = false → exec (.leadSetRx dt none v) s = .next (begin_ dt s)) ∧
  (∀ (p : Fin 4) f rx, portUp s p = true → onWtb s p = false → isBoundary s p = false →
    exec (.openingFrameRx dt p f rx .bad) s = .next (portCount p 1 (begin_ dt s)) ∧
    exec (.openingFrameRx dt p f rx .abort) s = .next (begin_ dt s)) ∧
  (∀ (p : Fin 4) f rx im, portUp s p = true → onWtb s p = false → isBoundary s p = false → f.type = 0x10 → f.version = 1 →
    s.sched.running = some im → joined s = false → s.ina.st = .steep → s.sched.openOk = false →
    (portOf s p).delay.valid = false → openingFault im p f (pinRx (portOf s p) rx) (begin_ dt s) = none →
    ∃ t, exec (.openingFrameRx dt p f rx .good) s = .next t ∧ t.sched.openOk = true ∧ t.sched.variant = f.variant ∧
      t.sched.poll = (if f.noPoll then [] else f.poll) ∧ t.sched.pollVariant = variantOf im f.cycle ∧
      t.ina.quietClk = some (s.clk + dt) ∧ t.ina.newest = newerGen s.ina.newest f.inaug.gen ∧
      (lineState t (lineOfPort p)).copy = some f ∧ t.sched.ctr = s.sched.ctr) ∧
  (∀ (p : Fin 4) f rx im, portUp s p = true → onWtb s p = false → isBoundary s p = false → f.type = 0x10 → f.version = 1 →
    s.sched.running = some im → joined s = false → s.ina.st = .steep →
    openingFault im p f (pinRx (portOf s p) rx) (begin_ dt s) = some 3 →
    ∃ t, exec (.openingFrameRx dt p f rx .good) s = .next t ∧ t.sched = { s.sched with ctr := ctrInc s.sched.ctr 1 }) ∧
  (mayContend s = true → quietLong (begin_ dt s) = true → isFirst s = false → inProvLead s = false → inContend s = false →
    inBackbone s = false → exec (.coldStartTimeout dt) s = .next (enterContend (begin_ dt s)) ∧
    ∃ t, exec (.coldStartTimeout dt) s = .next t ∧ t.ina.st = .contend ∧ t.ina.contendClk = s.clk + dt ∧ t.ina.addr = 0) ∧
  (∀ (p : Fin 4), s.ina.st = .contend → upPorts s = [p.val] → carriesPadait p s = true → (portOf s p).queues = [[], [], [], []] →
    ∃ t, exec (.coldClaimSend dt) s = .next t ∧ t.ina.claimSeq = s.ina.claimSeq + 1 ∧
      (portOf t p).queues = [[{ frame := .coldClaim { rank := ownRank s, newestGen := s.ina.newest, seq := s.ina.claimSeq }
                                len := 64, deferred := false, ctx := none, urgent := false }], [], [], []]) ∧
  (s.ina.st = .contend → s.ina.contendClk + msT 10 ≤ s.clk + dt →
    exec (.contendTimeout dt) s = .next (modIna (fun n => { n with leadNext := true }) (begin_ dt s))) ∧
  (s.ina.st = .provLead → 2 ≤ s.ina.provQuiet → s.ina.prep = none →
    ∃ t q, exec (.provisionalNoJoin dt) s = .next t ∧ t.ina.prep = some q ∧ q.dir.gen = firstGen s.ina ∧
      q.dir.leadVid = s.ina.leading.getD 0 ∧ q.k = cycleNo (begin_ dt s) + 3 ∧ q.committed = false ∧ q.whole = true) ∧
  (∀ p k, s.ina.prep = some p → yieldSwitchTime (begin_ dt s) = some k → instantRuns s = true →
    exec (.yieldSwitch dt) s = .next (yieldTo p (max k (begin_ dt s).now) (begin_ dt s)) ∧
    ∃ t, exec (.yieldSwitch dt) s = .next t ∧ t.clk = (runTo (max k (begin_ dt s).now) (begin_ dt s)).clk) ∧
  (s.ina.prep = none → exec (.yieldSwitch dt) s = .next (begin_ dt s))

/-- R65, R66, R148, R149, R152, R229, R301, R302: a direction on a backbone of another kind. A wire train bus's inauguration is
noted, and that of another boundary node as it reports it; its telegrams are taken from a valid line and sent; a topology
frame from an Ethernet backbone is answered, passed on and kept for the next instant; time-domain synchronisation is passed
on and measured. What an Ethernet partner without beacons is told, and when, is the model's choice (log 38). -/
def Obligations.BackboneCommandsComplete : Prop := ∀ (dt : Nat) (s : State),
  (∀ (d : Fin 2) a i m, s.sys.native = false → s.trunk.policy.getD d.val 0 = 6 → joined s = false →
    ∃ t, exec (.islandInaugurationComplete dt d a i m none) s = .next t ∧ t.ina.islandNew = true ∧ t.ina.islandConflict = i ∧
      t.trunk.wtbMaster = m ∧
      t.ina.islands = { uid := s.sys.uid, dir := d, addrs := a.take 32, interior := i } ::
        s.ina.islands.filter (fun x => !(x.uid == s.sys.uid && x.dir == d))) ∧
  (∀ (d : Fin 2) a i m u D, isFirst s = true → s.ina.dir = some D → uidNumbered D u = true →
    exec (.islandInaugurationComplete dt d a i m (some u)) s = .next (modIna (fun n => { n with
      islands := { uid := u, dir := d, addrs := a.take 32, interior := i } ::
        n.islands.filter (fun x => !(x.uid == u && x.dir == d)), islandNew := true }) (begin_ dt s))) ∧
  (∀ (d : Fin 2) a i m u, isFirst s = false →
    exec (.islandInaugurationComplete dt d a i m (some u)) s = .next (begin_ dt s)) ∧
  (∀ a data okA okB, islandHolds a s = true → okA = true ∨ okB = true →
    ∃ t, exec (.islandTelegramRx dt a data okA okB) s = .next t ∧
    (∀ e ∈ s.flow.ctx, e.2.enable = true → e.2.produce = true → e.2.transport = 2 → islandSrc e.2 = a →
      ∃ x, tblGet t.flow.run e.1 = some x ∧ x.telegram = some data)) ∧
  (∀ a data, exec (.islandTelegramRx dt a data false false) s = .next (begin_ dt s)) ∧
  (s.ina.islands ≠ [] → s.sys.extest = false →
    ∃ t, exec (.islandTelegramSend dt) s = .next t ∧ t.emit = [.wtb (memRead s.flow.islandOut 0 128)] ∧ t.flow = s.flow) ∧
  (∀ (p : Fin 4) x, portUp s p = true → onWtb s p = false → onT1 (portOf s p) = true → (portOf s p).partner = none →
    inBackbone s = false →
    exec (.ttdpFrameRx dt p x) s = .next (ttTake x (ttSend [p.val] (ttOwn x.nodes s) (modPort p (fun q => { q with ttdp := true })
      (fabRelay (.ttdp x) (forwardLen p (.ttdp x) (ttLen x) (begin_ dt s)))))) ∧
    ∃ t, exec (.ttdpFrameRx dt p x) s = .next t ∧ t.ina = { s.ina with ttPend := some x } ∧ (portOf t p).ttdp = true) ∧
  (∀ (p : Fin 4) x, portUp s p = true → onWtb s p = false → onT1 (portOf s p) = true → (portOf s p).partner = none →
    inBackbone s = true → x.counter = s.ina.ttCounter → ∃ t, exec (.ttdpFrameRx dt p x) s = .next t ∧ t.ina = s.ina) ∧
  (∀ (p : Fin 4) x, portUp s p = false ∨ onWtb s p = true → exec (.ttdpFrameRx dt p x) s = .next (begin_ dt s)) ∧
  (∀ (p : Fin 4) o rx, portUp s p = true → inBackbone s = true → isFirst s = true →
    exec (.trunkDomainSyncRx dt p s.time.trunkDomain o rx) s = .next
      (domainSend ((upPorts s).filter (fun q => dirOfPort q ≠ dirOfPort p && (portOf s q).ttdp)) s.time.trunkDomain
        (-(pinRx (portOf s p) rx - (o + hopDelay s p))) (begin_ dt s)) ∧
    ∃ t, exec (.trunkDomainSyncRx dt p s.time.trunkDomain o rx) s = .next t ∧ t.time = (begin_ dt s).time) ∧
  (∀ (p : Fin 4) o rx, portUp s p = true → inBackbone s = true → isFirst s = false →
    (∀ q ∈ upPorts s, dirOfPort q ≠ dirOfPort p → (portOf s q).ttdp = false) →
    exec (.trunkDomainSyncRx dt p s.time.trunkDomain o rx) s = .next
      (phaseSample (pinRx (portOf s p) rx - (o + hopDelay s p)) 2 (hopsVia p s) (begin_ dt s))) ∧
  (∀ (p : Fin 4) n o rx, portUp s p = false ∨ inBackbone s = false →
    exec (.trunkDomainSyncRx dt p n o rx) s = .next (begin_ dt s)) ∧
  (∀ (p : Fin 4) n o rx, n ≠ s.time.trunkDomain → exec (.trunkDomainSyncRx dt p n o rx) s = .next (begin_ dt s))

/-- R605–R609, R614, R617: power good latches the straps and begins a start with its first step; a step that passes brings
the next, and the configuration step ends with the node ready; a failed first or fourth step closes both bypass switches and
holds the node in reset; the start is tried again once. -/
def Obligations.StartCommandsComplete : Prop := ∀ (dt : Nat) (s : State), Sound s →
  (∀ p, s.sys.powered = false → s.pwr.dev = .unpowered →
    exec (.powerGood dt p) s = .next (powerGood p (begin_ dt s)) ∧
    ∃ t, exec (.powerGood dt p) s = .next t ∧ t.sys.powered = true ∧ t.sys.native = p.profSelHigh ∧ t.sys.maint = p.maintLow ∧
      t.sys.step = 1 ∧ t.sys.ready = false ∧ (s.sys.kilnWake = none → t.sys.cause = 0) ∧ t.pwr.dev = .run ∧
      t.pwr.storeCap = p.storeCap ∧ t.trunk.lineA.closed = p.sensedA ∧ t.trunk.lineB.closed = p.sensedB) ∧
  (∀ p w, s.sys.powered = false → s.pwr.dev = .kiln → s.sys.kilnWake = some w →
    ∃ t, exec (.powerGood dt p) s = .next t ∧ t.sys.powered = true ∧ t.sys.step = 1 ∧ t.sys.cause = 2 ∧ t.pwr.dev = .run) ∧
  (∀ r, stepRuns 1 s = true → r.step = 1 → r.ok = true →
    exec (.startStepComplete dt r) s = .next (modSys (fun y => { y with step := 2 }) (begin_ dt s))) ∧
  (∀ r, stepRuns 1 s = true → r.step = 1 → r.ok = false →
    exec (.startStepComplete dt r) s = .next (modSys (fun y => { y with heldInReset := true, startClk := s.clk + dt })
      (emergencyClose (modSys (fun y => { y with attempts := y.attempts + 1 }) (begin_ dt s)))) ∧
    ∃ t, exec (.startStepComplete dt r) s = .next t ∧ t.sys.heldInReset = true ∧ t.sys.attempts = s.sys.attempts + 1 ∧
      t.trunk.lineA.closed = true ∧ t.trunk.lineB.closed = true) ∧
  (∀ r, stepRuns 2 s = true → r.step = 2 →
    ∃ t, exec (.startStepComplete dt r) s = .next t ∧ t.sys.step = (if s.sys.cause = 1 then 6 else 3) ∧
      t.sys.resetHold = false) ∧
  (∀ r, stepRuns 3 s = true → r.step = 3 →
    ∃ t, exec (.startStepComplete dt r) s = .next t ∧ t.sys.step = (if s.sys.cause = 3 then 5 else 4)) ∧
  (∀ r, stepRuns 4 s = true → r.step = 4 → r.ok = true →
    ∃ t, exec (.startStepComplete dt r) s = .next t ∧ t.sys.step4Done = true ∧ t.lsk.work = [] ∧
      t.sys.step = (if s.sys.step5Done then 6 else 5)) ∧
  (∀ r, stepRuns 4 s = true → r.step = 4 → r.ok = false →
    ∃ t, exec (.startStepComplete dt r) s = .next t ∧ t.sys.heldInReset = true ∧ t.sys.attempts = s.sys.attempts + 1 ∧
      t.trunk.lineA.closed = true ∧ t.trunk.lineB.closed = true) ∧
  (∀ r, stepRuns 5 s = true → r.step = 5 →
    ∃ t, exec (.startStepComplete dt r) s = .next t ∧ t.sys.step5Done = true ∧
      t.sys.step = (if s.sys.step4Done || s.sys.cause = 3 then 6 else s.sys.step)) ∧
  (∀ r, stepRuns 6 s = true → r.step = 6 →
    ∃ t, exec (.startStepComplete dt r) s = .next t ∧ t.sys.ready = true ∧ (t.sys.step = 7 ∨ t.sys.step = 8) ∧
      t.sys.readyClk = s.clk + dt) ∧
  (s.sys.powered = true → s.sys.heldInReset = true → s.sys.attempts = 1 → s.sys.startClk + secT 1 ≤ s.clk + dt →
    exec (.startRetry dt) s = .next (modSys (fun y => { y with
      step := 1, step4Done := false, step5Done := false, ready := false, heldInReset := false, startClk := s.clk + dt
      pgClk := s.clk + dt, patchActive := false }) (begin_ dt s)))

/-- R70, R575, R619, R620, R684: PERST_L holds the PCI Express function in its configuration defaults and the rest runs on;
the supervisor watchdog closes both switches and restarts the node with cause 3, a fatal fault closes both; the reset that a
command asked for comes with the instant, with cause 1 and an Out of service heartbeat first, and clears the request; EXTEST
runs where the debug scope allows it, and is BYPASS otherwise. -/
def Obligations.ResetCommandsComplete : Prop := ∀ (dt : Nat) (s : State), Sound s →
  (exec (.perstAssert dt) s = .next (modSys (fun y => { y with
    perst := true, msixEnabled := false, msixMasked := 0xFFFFFFFF, msixTable := [] }) (begin_ dt s))) ∧
  (exec (.perstRelease dt) s = .next (modSys (fun y => { y with perst := false }) (begin_ dt s))) ∧
  (s.sys.powered = true → s.sys.heldInReset = false →
    exec (.supervisorWatchdogExpiry dt) s = .next (restart 3 (emergencyClose (begin_ dt s))) ∧
    ∃ t, exec (.supervisorWatchdogExpiry dt) s = .next t ∧ t.sys.step = 1 ∧ t.sys.cause = 3 ∧ t.sys.ready = false ∧
      t.ina.st = .steep ∧ t.trunk.lineA.closed = true ∧ t.trunk.lineB.closed = true) ∧
  (s.sys.powered = true →
    exec (.supervisorFatalFault dt) s = .next (emergencyClose (begin_ dt s)) ∧
    ∃ t, exec (.supervisorFatalFault dt) s = .next t ∧ t.trunk.lineA.closed = true ∧ t.trunk.lineB.closed = true ∧
      t.trunk.seq = none ∧ t.trunk.byCommand = false) ∧
  (∀ k, s.sys.resetPending = some k → nextInstant s ≤ (begin_ dt s).now →
    exec (.nodeResetApply dt) s = .next (instant s)) ∧
  (s.sys.resetPending = none ∨ (begin_ dt s).now < nextInstant s → exec (.nodeResetApply dt) s = .next (begin_ dt s)) ∧
  (∀ k, s.sys.powered = true → s.sys.resetPending = some k →
    endsAtInstant s = restart 1 (sendOutBoth s) ∧ (endsAtInstant s).sys.step = 1 ∧ (endsAtInstant s).sys.cause = 1 ∧
    (endsAtInstant s).sys.ready = false ∧ (endsAtInstant s).sys.resetPending = none ∧
    (endsAtInstant s).sys.resetHold = true ∧ (endsAtInstant s).sys.debugScope = 0 ∧ (endsAtInstant s).ina.st = .steep) ∧
  (s.sys.powered = true → s.sys.debugScope.getLsbD 0 = true →
    ∃ t, exec (.jtagExtest dt) s = .next t ∧ t.sys.extest = true ∧ t.sys.tap = .extest ∧ t.trunk.lineA.closed = true ∧
      t.trunk.lineB.closed = true) ∧
  (s.sys.powered = false ∨ s.sys.debugScope.getLsbD 0 = false →
    exec (.jtagExtest dt) s = .next (modSys (fun y => { y with tap := .bypass }) (begin_ dt s)))

/-- R625, R626, R628, R629, R645, R646: the supply and the temperatures. The supply state of a node in service follows the
input voltage by its thresholds; Park and Kiln do not ride through; STORE_OK sets at 149.0 V and clears at 147.5 V; at 72 V of
the store with the input below 13.0 V a loss is declared; a converter stop takes the power away; below 24 V the counter stops;
and a die at 110 °C throttles, at 125 °C (or a case at 105 °C) declares the loss. -/
def Obligations.SupplyCommandsComplete : Prop := ∀ (dt : Nat) (s : State), Sound s →
  (∀ vin, s.sys.powered = true → s.pwr.dev = .run →
    exec (.inputVoltageChange dt vin) s = .next (setSupply (supplyNext vin s.pwr.supply)
      (modPwr (fun p => { p with vin := vin }) (begin_ dt s))) ∧
    ∃ t, exec (.inputVoltageChange dt vin) s = .next t ∧ t.pwr.vin = vin ∧ t.pwr.supply = supplyNext vin s.pwr.supply) ∧
  (∀ vin, s.sys.powered = true → s.pwr.dev = .run → s.pwr.supply = .normal →
    ∃ t, exec (.inputVoltageChange dt vin) s = .next t ∧
      (1440 ≤ vin → t.pwr.supply = .normal) ∧ (1200 ≤ vin → vin < 1440 → t.pwr.supply = .below) ∧
      (vin < 1200 → t.pwr.supply = .riding)) ∧
  (∀ vin, s.sys.powered = true → s.pwr.dev = .run → s.pwr.supply = .riding →
    ∃ t, exec (.inputVoltageChange dt vin) s = .next t ∧
      (1440 ≤ vin → t.pwr.supply = .normal) ∧ (1300 ≤ vin → vin < 1440 → t.pwr.supply = .below) ∧
      (vin < 1300 → t.pwr.supply = .riding)) ∧
  (∀ vin, s.sys.powered = true → s.pwr.dev = .park → s.pwr.supply ≠ .loss → vin < 1200 →
    ∃ t, exec (.inputVoltageChange dt vin) s = .next t ∧ t.pwr.vin = vin ∧ t.pwr.supply = .loss ∧ t.pwr.shutdown = true) ∧
  (∀ vin, s.pwr.dev = .kiln → 1200 ≤ vin →
    exec (.inputVoltageChange dt vin) s = .next (modPwr (fun p => { p with vin := vin }) (begin_ dt s))) ∧
  (∀ v, exec (.storeOkChange dt v) s = .next (modPwr (fun p => { p with
    vstore := v, storeOk := if 14900 ≤ v then true else if v ≤ 14750 then false else p.storeOk }) (begin_ dt s))) ∧
  (∀ vin v, s.pwr.supply = .riding → s.pwr.dev ≠ .kiln → vin < 1300 → v ≤ 7200 →
    ∃ t, exec (.lossDeclared dt vin v) s = .next t ∧ t.pwr.supply = .loss ∧ t.pwr.shutdown = true ∧
      (t.trunk.passiveSent.isSome = true) ∧ (∀ d ∈ [2, 3, 4, 5, 7, 8, 11], t.pwr.doms.getD d .off = .off)) ∧
  (s.pwr.shutdown = true →
    ∃ t, exec (.shutdownBypassClose dt) s = .next t ∧ t.trunk.lineA.closed = true ∧ t.trunk.lineB.closed = true) ∧
  (∀ vin, s.pwr.shutdown = true →
    exec (.converterStop dt vin) s =
      .next (powerOff .unpowered (modPwr (fun p => { p with vin := vin }) (begin_ dt s))) ∧
    ∃ t, exec (.converterStop dt vin) s = .next t ∧ t.sys.powered = false ∧ t.pwr.dev = .unpowered ∧ t.pwr.vin = vin ∧
      t.trunk.lineA.closed = s.trunk.lineA.closed ∧ t.trunk.lineB.closed = s.trunk.lineB.closed) ∧
  (s.sys.powered = false →
    exec (.pd0Stop dt) s = .next (modTime (fun t => { t with rtcKept := false }) (begin_ dt s))) ∧
  (∀ c d, s.sys.powered = true → s.pwr.supply ≠ .loss → c < 1050 → d < 1100 →
    exec (.thermalChange dt c d) s = .next (modPwr (fun p => { p with case_ := c, die := d }) (begin_ dt s))) ∧
  (∀ c d, s.sys.powered = true → s.pwr.supply ≠ .loss → s.pwr.throttled = false → c < 1050 → 1100 ≤ d → d < 1250 →
    ∃ t, exec (.thermalChange dt c d) s = .next t ∧ t.pwr.throttled = true ∧ t.pwr.die = d ∧ t.pwr.case_ = c ∧
      t.pwr.supply = s.pwr.supply) ∧
  (∀ c d, s.sys.powered = true → s.pwr.supply ≠ .loss → 1250 ≤ d ∨ 1050 ≤ c →
    ∃ t, exec (.thermalChange dt c d) s = .next t ∧ t.pwr.supply = .loss ∧ t.pwr.shutdown = true)

/-- R634–R636, R638–R643, R685: the power domains and the device states. A domain that may be idle takes the deepest state
that fits before its next known event, wakes by its timer or by an input (counted where the input was due sooner than the
domain wakes); Park and Kiln are entered at the instant of their cycle; an enabled source wakes the node once and is passed
on; and a node woken from Park runs again. -/
def Obligations.PowerStateCommandsComplete : Prop := ∀ (dt : Nat) (s : State), Sound s →
  (∀ (d : Fin 12) x, s.pwr.dev = .run → s.pwr.doms.getD d.val .off ≠ .off → d.val < s.pwr.idle.length →
    ∃ t, exec (.powerDomainIdle dt d false x) s = .next t ∧ t.pwr.doms.getD d.val .off = .run ∧
      t.pwr.idle.getD d.val true = false) ∧
  (∀ (d : Fin 12), s.pwr.dev = .run → s.pwr.doms.getD d.val .off ≠ .off → d.val < s.pwr.idle.length →
    d.val < s.pwr.nextAt.length → mayIdle d.val s = true →
    ∃ t, exec (.powerDomainIdle dt d true none) s = .next t ∧
      t.pwr.doms.getD d.val .off = domFit (min (domLimit d.val) (s.pwr.deepest.getD d.val 2))
        (nextInstant (begin_ dt s) - (begin_ dt s).now)) ∧
  (∀ (d : Fin 12) k, s.pwr.dev = .run → s.pwr.doms.getD d.val .off ≠ .off → d.val < s.pwr.idle.length →
    d.val < s.pwr.nextAt.length → mayIdle d.val s = true →
    ∃ t, exec (.powerDomainIdle dt d true (some k)) s = .next t ∧
      t.pwr.doms.getD d.val .off = domFit (min (domLimit d.val) (s.pwr.deepest.getD d.val 2))
        (min k (nextInstant (begin_ dt s) - (begin_ dt s).now))) ∧
  (∀ (d : Fin 12) x, s.pwr.dev = .run → s.pwr.doms.getD d.val .off ≠ .off → mayIdle d.val s = false →
    ∃ t, exec (.powerDomainIdle dt d true x) s = .next t ∧ t.pwr.doms.getD d.val .off = .run) ∧
  (∀ (d : Fin 12), s.pwr.doms.getD d.val .off ≠ .off →
    exec (.domainWakeTimer dt d) s = .next (setDoms [(d.val, .run)] (begin_ dt s))) ∧
  (∀ (d : Fin 12) k, s.pwr.doms.getD d.val .off ≠ .off → wakeLatency d.val s ≤ k →
    exec (.asyncDomainWake dt d (some k)) s = .next (setDoms [(d.val, .run)] (begin_ dt s))) ∧
  (∀ (d : Fin 12) k, s.pwr.doms.getD d.val .off ≠ .off → k < wakeLatency d.val s →
    exec (.asyncDomainWake dt d (some k)) s = .next (setDoms [(d.val, .run)] (pwrCount 4 (begin_ dt s)))) ∧
  (parkDue (runTo (nextInstant s) s) = true → nextInstant s ≤ (begin_ dt s).now →
    exec (.parkEntry dt) s = .next (instant s)) ∧
  (parkDue (runTo (nextInstant s) s) = false ∨ (begin_ dt s).now < nextInstant s →
    exec (.parkEntry dt) s = .next (begin_ dt s)) ∧
  (s.sys.powered = true → s.sys.resetPending = none → parkDue s = true →
    endsAtInstant s = enterPark s ∧ (endsAtInstant s).pwr.dev = .park ∧ (endsAtInstant s).pwr.wakeBits = 0 ∧
    (endsAtInstant s).ina.st = .steep ∧ (endsAtInstant s).trunk.stopForward = true) ∧
  (kilnDue (runTo (nextInstant s) s) = true → nextInstant s ≤ (begin_ dt s).now →
    exec (.kilnEntry dt) s = .next (instant s)) ∧
  (kilnDue (runTo (nextInstant s) s) = false ∨ (begin_ dt s).now < nextInstant s →
    exec (.kilnEntry dt) s = .next (begin_ dt s)) ∧
  (s.sys.powered = true → s.sys.resetPending = none → kilnDue s = true →
    endsAtInstant s = enterKiln s ∧ (endsAtInstant s).pwr.dev = .kiln ∧ (endsAtInstant s).sys.powered = false ∧
    (∀ d, 1 ≤ d → (endsAtInstant s).pwr.doms.getD d .off = .off)) ∧
  (∀ (i : Fin 5) p, s.pwr.dev = .park → s.pwr.wakeBits = 0 → s.pwr.wakePark.getLsbD i.val = true →
    (i = 3 → s.pwr.alarm ≠ 0 ∧ s.pwr.alarm ≤ (begin_ dt s).now) → (i = 4 → canWakes s = true) →
    ∃ t, exec (.wakeSource dt i p) s = .next t ∧ t.pwr.wakeBits = 1#5 <<< i.val ∧ t.pwr.lastWake = 1#5 <<< i.val ∧
      t.pwr.dev = .park) ∧
  (∀ (i : Fin 5) p, s.pwr.dev = .kiln → s.pwr.wakeBits = 0 → s.pwr.wakeKiln.getLsbD i.val = true → i ≠ 1 →
    (i = 3 → s.pwr.alarm ≠ 0 ∧ s.pwr.alarm ≤ (begin_ dt s).now) → (i = 4 → canWakes s = true) →
    ∃ t, exec (.wakeSource dt i p) s = .next t ∧ t.sys.kilnWake = some (BitVec.setWidth 8 (1#5 <<< i.val)) ∧ t.pwr.dev = .kiln) ∧
  (s.pwr.dev = .park → s.pwr.wakeBits = 0 → s.pwr.wakePark.getLsbD 2 = true →
    ∃ t, exec (.wakeLLowTimeout dt) s = .next t ∧ t.pwr.wakeBits = 4 ∧
      (s.sys.extest = false → t.emit = [.wakePort 0, .wakePort 1, .wakePort 2, .wakePort 3, .wakeTwin 0, .wakeTwin 1])) ∧
  (s.pwr.dev = .park → s.pwr.wakeBits ≠ 0 →
    exec (.parkWakeComplete dt) s = .next (parkWake (begin_ dt s)) ∧
    ∃ t, exec (.parkWakeComplete dt) s = .next t ∧ t.pwr.dev = .run ∧ t.pwr.wakeBits = 0 ∧ t.trunk.stopForward = false)

/-- R26, R35, R135, R232, R234, R268–R270: the instants of a cycle. A registration instant is all that takes effect together
at it, on the state at the next instant (a yielding group's switch where that falls on it); without samples the time unit
goes to Holdover after two cycles; the next window opens and holds no write back; and linked receive data is placed at the
release deadline, once in a cycle. -/
def Obligations.CycleCommandsComplete : Prop := ∀ (dt : Nat) (s : State), Sound s →
  (instantRuns s = true → s.ina.prep = none →
    exec .registrationInstant s = .next (instantBody (polledEntries s) (heartbeatEntries (polledEntries s) s) (switchAtInstant (cycleNo (runTo (nextInstant s) s)))
      (runTo (nextInstant s) s)) ∧
    ∃ t, exec .registrationInstant s = .next t ∧ t.clk = (runTo (nextInstant s) s).clk) ∧
  (∀ p, instantRuns s = true → s.ina.prep = some p → yieldSwitchTime s = some (nextInstant s) → removalDue s = false →
    exec .registrationInstant s = .next (yieldTo p (nextInstant s) s)) ∧
  (∀ p, instantRuns s = true → s.ina.prep = some p → yieldSwitchTime s ≠ some (nextInstant s) ∨ removalDue s = true →
    exec .registrationInstant s = .next (instantBody (polledEntries s) (heartbeatEntries (polledEntries s) s) (switchAtInstant (cycleNo (runTo (nextInstant s) s)))
      (runTo (nextInstant s) s))) ∧
  (instantRuns s = false → inPark s = false → exec .registrationInstant s = .next (runTo (nextInstant s) s) ∧
    ∃ t, exec .registrationInstant s = .next t ∧ t.now = nextInstant s) ∧
  (instantRuns s = false → inPark s = true → exec .registrationInstant s = .next (powerAtInstant (runTo (nextInstant s) s)) ∧
    ∃ t, exec .registrationInstant s = .next t ∧ t.now = nextInstant s ∧ t.pwr.deepestNext = List.replicate 12 none) ∧
  (s.time.st = .acquire ∨ s.time.st = .locked → 2 ≤ s.time.without →
    exec (.holdoverEntry dt) s = .next (setTimeState .holdover (begin_ dt s)) ∧
    ∃ t, exec (.holdoverEntry dt) s = .next t ∧ t.time.st = .holdover ∧ t.time.slew = 0 ∧ t.time.holdEntry = s.clk + dt) ∧
  (s.time.st = .free ∨ s.time.st = .master ∨ s.time.st = .holdover ∨ s.time.without < 2 →
    exec (.holdoverEntry dt) s = .next (begin_ dt s)) ∧
  (s.flow.opening = true → s.flow.nextOpen = false → s.flow.heldWrites = [] → s.flow.irqEn = false →
    exec (.nextOpenSet dt) s = .next (modFlow (fun w => { w with nextOpen := true, heldWrites := [] }) (begin_ dt s))) ∧
  (∀ i off data, s.flow.opening = true → s.flow.nextOpen = false → s.flow.heldWrites = [(i, off, data)] → s.flow.irqEn = false →
    exec (.nextOpenSet dt) s = .next (modNext (fun m => storeProduced
      (modFlow (fun w => { w with nextOpen := true, heldWrites := [] }) (begin_ dt s)) m off data)
      (modFlow (fun w => { w with nextOpen := true, heldWrites := [] }) (begin_ dt s))) ∧
    ∃ t, exec (.nextOpenSet dt) s = .next t ∧ t.flow.nextOpen = true ∧ t.flow.heldWrites = []) ∧
  (s.flow.opening = true → s.flow.nextOpen = false → s.flow.heldWrites = [] → s.flow.irqEn = true →
    exec (.nextOpenSet dt) s = .next (raiseVector s.flow.vector
      (modFlow (fun w => { w with nextOpen := true, heldWrites := [] }) (begin_ dt s)))) ∧
  (s.flow.opening = false ∨ s.flow.nextOpen = true → exec (.nextOpenSet dt) s = .next (begin_ dt s)) ∧
  (s.sys.ready = true → s.pwr.dev = .run → s.flow.deadline = false →
    exec (.releaseDeadline dt) s = .next (linkedWrites (modFlow (fun w => { w with deadline := true }) (begin_ dt s))) ∧
    ∃ t, exec (.releaseDeadline dt) s = .next t ∧ t.flow.deadline = true) ∧
  (s.sys.ready = false ∨ s.pwr.dev ≠ .run ∨ s.flow.deadline = true →
    exec (.releaseDeadline dt) s = .next (begin_ dt s))

/-- R36, R37, R92, R170, R174, R185, R208, R212, R281, R288, R293: scheduled and other sends, frames that pass and frames that
arrive. An own entry sends the flow it carries, the heartbeat, or a proxied frame; a frame still passing is aborted before the
instant; a transit frame goes on, waits, or enters the switch core; a queued frame starts when the region and the credit allow
it; and a flow frame of a consumed flow is checked, and passed on. -/
def Obligations.LineCommandsComplete : Prop := ∀ (dt : Nat) (s : State), Sound s →
  (∀ n tr im e i c, s.sched.running = some im → entryAt im n = some e → joined s = true → s.fab.attached = false →
    readyToSend (begin_ dt s) = true → (polledEntries (begin_ dt s)).contains n = true → entryOwn e s = true →
    e.flags.getLsbD 0 = false → entryFlow n s = some (i, c) →
    exec (.scheduledSend dt n tr) s = .next (sendFlow im n e tr i c (begin_ dt s))) ∧
  (∀ n tr im e, s.sched.running = some im → entryAt im n = some e → joined s = true → s.fab.attached = false →
    readyToSend (begin_ dt s) = true → (polledEntries (begin_ dt s)).contains n = true → entryOwn e s = true →
    e.flags.getLsbD 0 = true →
    exec (.scheduledSend dt n tr) s = .next (sendHeartbeatEntry im n e tr (begin_ dt s))) ∧
  (∀ n tr im e k, s.sched.running = some im → entryAt im n = some e → joined s = true → s.fab.attached = false →
    readyToSend (begin_ dt s) = true → (polledEntries (begin_ dt s)).contains n = true → entryOwn e s = false →
    proxySlot e s = some k → fabActiveTwin s = true →
    exec (.scheduledSend dt n tr) s = .next (sendProxy im n e tr k (begin_ dt s))) ∧
  (∀ n tr, s.sched.running = none ∨ joined s = false ∨ s.fab.attached = true ∨ readyToSend (begin_ dt s) = false ∨
      (polledEntries (begin_ dt s)).contains n = false →
    exec (.scheduledSend dt n tr) s = .next (begin_ dt s)) ∧
  (∀ (p : Fin 4), s.sys.extest = false →
    ∃ t, exec (.sporadicAbort dt [p]) s = .next t ∧ t.emit = [.abortCode p] ∧ (portOf t p).busyTill = s.clk + dt ∧
      t.sched.ctr = ctrInc s.sched.ctr 12 ∧ (∀ q : Fin 4, q ≠ p → portOf t q = portOf s q)) ∧
  (∀ (p : Fin 4) f rx, f.fin = .good → f.local_ = none → straysAt p (pinRx (portOf s p) rx) (begin_ dt s) = false →
    scheduledAt p (pinRx (portOf s p) rx) (begin_ dt s) = false → onWtb s p = false → forwards s p = true →
    onWtb s (acrossPort p) = false → (portOf s (acrossPort p)).busyTill ≤ s.clk + dt → (portOf s (acrossPort p)).fifo = [] →
    exec (.trunkFrameForward dt p f rx) s = .next (transitEmit (acrossPort p) (.raw f) (begin_ dt s)) ∧
    ∃ t, exec (.trunkFrameForward dt p f rx) s = .next t ∧ (portOf t p).ctr = ctrInc (portOf s p).ctr 9 ∧
      (s.sys.extest = false → t.emit = [.transit (Fin.ofNat 4 (acrossPort p)) f])) ∧
  (∀ (p : Fin 4) f rx, f.fin = .good → f.local_ = none → straysAt p (pinRx (portOf s p) rx) (begin_ dt s) = false →
    scheduledAt p (pinRx (portOf s p) rx) (begin_ dt s) = false → onWtb s p = false → forwards s p = true →
    onWtb s (acrossPort p) = false → s.clk + dt < (portOf s (acrossPort p)).busyTill →
    ((portOf s (acrossPort p)).fifo.map transitLen).sum + f.len ≤ 4096 →
    ∃ t, exec (.trunkFrameForward dt p f rx) s = .next t ∧ t.emit = [] ∧
      (portOf t (acrossPort p)).fifo = (portOf s (acrossPort p)).fifo ++ [.raw f]) ∧
  (∀ (p : Fin 4) f rx, f.fin = .good → f.local_ = none → straysAt p (pinRx (portOf s p) rx) (begin_ dt s) = true →
    scheduledAt p (pinRx (portOf s p) rx) (begin_ dt s) = false → onWtb s p = false → forwards s p = true →
    onWtb s (acrossPort p) = false →
    exec (.trunkFrameForward dt p f rx) s = .next (transitOut (acrossPort p) (.raw f) (schedCount 9 (begin_ dt s)))) ∧
  (∀ (p : Fin 4) f rx e, f.fin = .good → f.local_ = some e → straysAt p (pinRx (portOf s p) rx) (begin_ dt s) = false →
    portUp s p = true → onWtb s p = false → isBoundary s p = false →
    exec (.trunkFrameForward dt p f rx) s = .next (consistRx { e with port := 16, fcsOk := true } (begin_ dt s))) ∧
  (∀ (p : Fin 4) f rx e, f.fin = .good → f.local_ = some e → straysAt p (pinRx (portOf s p) rx) (begin_ dt s) = true →
    portUp s p = true → onWtb s p = false →
    exec (.trunkFrameForward dt p f rx) s = .next (schedCount 9 (begin_ dt s))) ∧
  (∀ (p : Fin 4) f rx, straysAt p (pinRx (portOf s p) rx) (begin_ dt s) = false → portUp s p = true → onWtb s p = false →
    cutsThrough p s = false →
    (f.fin = .bad → exec (.trunkFrameForward dt p f rx) s = .next (portCount p 1 (begin_ dt s))) ∧
    (f.fin = .abort → exec (.trunkFrameForward dt p f rx) s = .next (begin_ dt s))) ∧
  (∀ (p : Fin 4) f fs, portCarries s p = true → onWtb s p = false → (portOf s p).busyTill ≤ s.clk + dt →
    (portOf s p).fifo = f :: fs →
    exec (.nonScheduledSend dt p false) s =
      .next (transitEmit p f (modPort p (fun t => { t with fifo := fs }) (begin_ dt s)))) ∧
  (∀ (p : Fin 4) f im, portCarries s p = true → onWtb s p = false → (portOf s p).busyTill ≤ s.clk + dt →
    (portOf s p).fifo = [] → ((portOf s p).queues.getD 0 []).head? = some f → isBoundary s p = false →
    s.sched.running = some im → regionAllows im p 0 f (begin_ dt s) = true → creditAllows im p 0 f s = true →
    exec (.nonScheduledSend dt p false) s = .next (startQueued p 0 f (begin_ dt s)) ∧
    ∃ t, exec (.nonScheduledSend dt p false) s = .next t ∧
      (portOf t p).busyTill = s.clk + dt + lineTicks (portOf s p) f.len ∧
      (portOf t p).mgmtUsed = (portOf s p).mgmtUsed + f.len) ∧
  (∀ (p : Fin 4) f, portCarries s p = true → onWtb s p = false → (portOf s p).busyTill ≤ s.clk + dt →
    (portOf s p).fifo = [] → ((portOf s p).queues.getD 0 []).head? = some f → isBoundary s p = false → s.sched.running = none →
    exec (.nonScheduledSend dt p false) s = .next (startQueued p 0 f (begin_ dt s))) ∧
  (∀ (p : Fin 4), portCarries s p = true → onWtb s p = false → (portOf s p).busyTill ≤ s.clk + dt →
    (portOf s p).fifo = [] → isBoundary s p = true →
    (∀ q ∈ (portOf s p).queues, ∀ f ∈ q, mayCross f.frame = false) →
    ∃ t, exec (.nonScheduledSend dt p false) s = .next t ∧ t.emit = [] ∧ (∀ q ∈ (portOf t p).queues, q = [])) ∧
  (∀ (p : Fin 4), exec (.nonScheduledSend dt p true) s = .next (begin_ dt s)) ∧
  (∀ b f i c, s.fab.attached = true → f.sec = none → s.twin.configured = false → consumer f.flowId s = some (i, c) →
    c.macsec = false → genInForce f.gen s = true → lineAllowed c b = true →
    exec (.flowFrameRx dt (.fabric b) f .good) s = .next (consumeChecks i c b f (begin_ dt s))) ∧
  (∀ b f i c, s.fab.attached = true → f.sec = none → s.twin.configured = false → consumer f.flowId s = some (i, c) →
    c.macsec = false → genInForce f.gen s = false →
    exec (.flowFrameRx dt (.fabric b) f .good) s = .next (flowCount i 8 (begin_ dt s))) ∧
  (∀ b f i c, s.fab.attached = true → f.sec = none → s.twin.configured = false → consumer f.flowId s = some (i, c) →
    c.macsec = true → exec (.flowFrameRx dt (.fabric b) f .good) s = .next (flowCount i 13 (begin_ dt s))) ∧
  (∀ b f i c, s.fab.attached = true → f.sec = none → s.twin.configured = false → consumer f.flowId s = some (i, c) →
    c.macsec = false → genInForce f.gen s = true → lineAllowed c b = true → f.len ≠ c.len.toNat →
    exec (.flowFrameRx dt (.fabric b) f .good) s = .next (flowCount i 9 (begin_ dt s))) ∧
  (∀ b f fin, s.fab.attached = false ∨ fin ≠ .good →
    exec (.flowFrameRx dt (.fabric b) f fin) s = .next (begin_ dt s)) ∧
  (∀ (p : Fin 4) rx f, portUp s p = true → onWtb s p = false →
    exec (.flowFrameRx dt (.trunk p rx) f .bad) s =
      .next (forwardFlow p (pinRx (portOf s p) rx) f false (portCount p 1 (begin_ dt s))) ∧
    exec (.flowFrameRx dt (.trunk p rx) f .abort) s =
      .next (forwardFlow p (pinRx (portOf s p) rx) f false (begin_ dt s))) ∧
  (∀ (p : Fin 4) rx f, portUp s p = true → onWtb s p = false → isBoundary s p = true →
    exec (.flowFrameRx dt (.trunk p rx) f .good) s = .next (forwardFlow p (pinRx (portOf s p) rx) f true (begin_ dt s))) ∧
  (∀ (p : Fin 4) rx f, portUp s p = true → onWtb s p = false → isBoundary s p = false → f.sec = none →
    s.twin.configured = false → genInForce f.gen s = false → consumer f.flowId s = none → s.sched.running = none →
    exec (.flowFrameRx dt (.trunk p rx) f .good) s = .next (forwardFlow p (pinRx (portOf s p) rx) f true (begin_ dt s)))

/-- R185, R303, R304, R519: sessions. A frame that strays into the slot region is discarded and counted, one for a fabric node
of the vehicle goes there. An OPEN makes a session of one not known, or is refused when 32 are open; the first segment of a
message is kept; a whole message stands to be read; an ACK of the last segment ends the message; CLOSE removes the session; a
segment unacknowledged for 2 macrocycles is sent again, and after the eighth time the session closes with cause timeout. -/
def Obligations.SessionFramesComplete : Prop := ∀ (dt : Nat) (s : State),
  (∀ (p : Fin 4) f, portUp s p = false ∨ isBoundary s p = true →
    exec (.sessionFrameRx dt (some p) f) s = .next (begin_ dt s)) ∧
  (∀ (p : Fin 4) f, portUp s p = true → isBoundary s p = false → straysNow p (begin_ dt s) = true →
    exec (.sessionFrameRx dt (some p) f) s =
      .next (forwardLen p (.session f) (sessionLen f) (schedCount 9 (begin_ dt s)))) ∧
  (∀ (p : Fin 4) f, OwnTraffic p dt s → forFabricNode f.dst s = true →
    exec (.sessionFrameRx dt (some p) f) s = .next (fabOriginate (f.dst.toNat % 16) 3 (.session f) (begin_ dt s))) ∧
  (∀ p f, (∀ q : Fin 4, p = some q → OwnTraffic q dt s ∧ forFabricNode f.dst s = false) →
    f.kind = 1 → (∀ x ∈ s.flow.sessions, isSession f.sid f.openerUid x = false) → s.flow.sessions.length < 32 →
    exec (.sessionFrameRx dt p f) s = .next (modFlow (fun w => { w with sessions := w.sessions ++ [{
      sid := f.sid, opener := f.openerUid, byIdentity := true, slot := 0, addr := f.srcAddr, vid := 0
      peerUid := f.openerUid, nextMsg := 0, out := [], inMsg := none, rxq := [] }] }) (begin_ dt s))) ∧
  (∀ p f, (∀ q : Fin 4, p = some q → OwnTraffic q dt s ∧ forFabricNode f.dst s = false) →
    f.kind = 1 → (∀ x ∈ s.flow.sessions, isSession f.sid f.openerUid x = false) → 32 ≤ s.flow.sessions.length →
    ∃ t, exec (.sessionFrameRx dt p f) s = .next t ∧ t.flow.sessions = s.flow.sessions) ∧
  (∀ p f x, (∀ q : Fin 4, p = some q → OwnTraffic q dt s ∧ forFabricNode f.dst s = false) →
    f.kind = 2 → s.flow.sessions.find? (isSession f.sid f.openerUid) = some x → x.rxq.length < 4 → x.inMsg = none →
    f.seg = 0 → f.payload.length < f.msgLen.toNat →
    ∃ t, exec (.sessionFrameRx dt p f) s = .next t ∧ (∃ y, t.flow.sessions.find? (isSession f.sid f.openerUid) = some y ∧
      y.rxq = x.rxq ∧ y.inMsg = some { number := f.msg, bytes := f.payload, last := false, acked := 1, sent := 0, resends := []
                                       sentClk := 0 })) ∧
  (∀ p f x, (∀ q : Fin 4, p = some q → OwnTraffic q dt s ∧ forFabricNode f.dst s = false) →
    f.kind = 2 → s.flow.sessions.find? (isSession f.sid f.openerUid) = some x → x.rxq.length < 4 → x.inMsg = none →
    f.seg = 0 → f.msgLen.toNat ≤ f.payload.length →
    ∃ t, exec (.sessionFrameRx dt p f) s = .next t ∧ (∃ y, t.flow.sessions.find? (isSession f.sid f.openerUid) = some y ∧
      y.rxq = x.rxq ++ [{ number := f.msg, bytes := f.payload, last := true, acked := 1, sent := 0, resends := []
                          sentClk := 0 }])) ∧
  (∀ p f x m, (∀ q : Fin 4, p = some q → OwnTraffic q dt s ∧ forFabricNode f.dst s = false) →
    f.kind = 3 → s.flow.sessions.find? (isSession f.sid f.openerUid) = some x → x.out = [m] → m.number = f.msg →
    m.acked ≤ f.msgLen.toNat → f.msgLen.toNat < m.sent → segCount m ≤ f.msgLen.toNat + 1 →
    ∃ t, exec (.sessionFrameRx dt p f) s = .next t ∧
      (∃ y, t.flow.sessions.find? (isSession f.sid f.openerUid) = some y ∧ y.out = [])) ∧
  (∀ p f x, (∀ q : Fin 4, p = some q → OwnTraffic q dt s ∧ forFabricNode f.dst s = false) →
    f.kind = 4 → s.flow.sessions.find? (isSession f.sid f.openerUid) = some x →
    exec (.sessionFrameRx dt p f) s = .next (modFlow (fun w => { w with
      sessions := w.sessions.filter (fun y => !(isSession x.sid x.opener y)) }) (begin_ dt s))) ∧
  (∀ sid o x m ms, s.flow.sessions.find? (isSession sid o) = some x → x.out = m :: ms → m.acked < m.sent →
    (∀ n ∈ m.resends, n < 8) → m.sentClk + 2 * macroT s ≤ s.clk + dt →
    ∃ t, exec (.sessionRetransmit dt sid o) s = .next t ∧
      (∃ y, t.flow.sessions.find? (isSession sid o) = some y ∧
        y.out = resentOnce (s.clk + dt) m :: ms)) ∧
  (∀ sid o x m ms, s.flow.sessions.find? (isSession sid o) = some x → x.out = m :: ms → m.acked < m.sent →
    (∃ n ∈ m.resends, 8 ≤ n) → m.sentClk + 2 * macroT s ≤ s.clk + dt →
    exec (.sessionRetransmit dt sid o) s = .next (sessionClosed x 1 (closeSession x 1 (begin_ dt s))) ∧
    ∃ t, exec (.sessionRetransmit dt sid o) s = .next t ∧ t.flow.sessions.find? (isSession sid o) = none) ∧
  (∀ sid o x m ms, s.flow.sessions.find? (isSession sid o) = some x → x.out = m :: ms →
    m.sent ≤ m.acked ∨ s.clk + dt < m.sentClk + 2 * macroT s →
    exec (.sessionRetransmit dt sid o) s = .next (begin_ dt s))

/-- R222–R224, R234, R242, R243, R245, R246: the oscillator and the PTP instances. A stopped TCXO puts the time unit into Free on
the ring oscillator; the first Sync of an instance, complete at once or with its Follow_Up, sets its offset from pin times and
the link delay; peer delay requests are answered and an exchange measures the link; an Announce of a better clock is followed
and one of a worse clock is not; the periodic messages carry the grandmaster's time in two steps, a relay's with the correction grown
by the residence; a lost Sync or Announce takes the instance out of lock, and after 10 s of lock domain 0 is selected again. -/
def Obligations.ClockCommandsComplete : Prop := ∀ (dt : Nat) (s : State),
  (s.time.tcxo = true → joined s = false → inProvLead s = false →
    exec (.tcxoStop dt) s = .next (setTimeState .free
      (raise 0x0402 (leBytes 1 3) (modTime (fun t => { t with tcxo := false, source := 3 }) (begin_ dt s)))) ∧
    ∃ t, exec (.tcxoStop dt) s = .next t ∧ t.time.tcxo = false ∧ t.time.source = 3 ∧ t.time.st = .free) ∧
  (s.time.tcxo = true → joined s = true ∨ inProvLead s = true →
    ∃ t, exec (.tcxoStop dt) s = .next t ∧ t.time.tcxo = false ∧ t.ina.st = .steep) ∧
  (s.time.tcxo = false → exec (.tcxoStop dt) s = .next (begin_ dt s)) ∧
  (exec (.tcxoRestart dt) s = .next (modTime (fun t => { t with tcxo := true }) (begin_ dt s))) ∧
  (∀ (p : Fin 16) m d, ptpSlave 0 p m.domain s = true → ptpSlave 1 p m.domain s = false → m.twoStep = false →
    s.time.links.getD p none = some d → (ptpOf s 0).primed = false → (ptpOf s 0).locked = false → 0 < s.time.ptp.length →
    ∃ t, exec (.ptpSyncRx dt p (.sync m)) s = .next t ∧
      (ptpOf t 0).offset = m.origin + m.corr + d - swPinRx p m.raw s ∧ (ptpOf t 0).rate = m.rate ∧
      (ptpOf t 0).primed = true ∧ (ptpOf t 0).good = 0 ∧ (ptpOf t 0).state = 2 ∧
      (ptpOf t 0).last = some (m.origin, m.corr + d, swPinRx p m.raw s) ∧ ptpOf t 1 = ptpOf s 1) ∧
  (∀ (p : Fin 16) m d, ptpSlave 0 p m.domain s = true → ptpSlave 1 p m.domain s = false → m.twoStep = false →
    s.time.links.getD p none = some d → (ptpOf s 0).primed = true → (ptpOf s 0).locked = false → (ptpOf s 0).good = 15 →
    (m.origin + m.corr + d - swPinRx p m.raw s - (ptpOf s 0).offset).natAbs ≤ nsT 100 → 0 < s.time.ptp.length →
    ∃ t, exec (.ptpSyncRx dt p (.sync m)) s = .next t ∧ (ptpOf t 0).locked = true ∧ (ptpOf t 0).state = 3 ∧
      (ptpOf t 0).lockClk = s.clk + dt) ∧
  (∀ (p : Fin 16) m, ptpSlave 0 p m.domain s = true → ptpSlave 1 p m.domain s = false → m.twoStep = true →
    exec (.ptpSyncRx dt p (.sync m)) s =
      .next (modPtp 0 (fun i => { i with waiting := some (p.val, m.seq, swPinRx p m.raw s) }) (begin_ dt s))) ∧
  (∀ (p : Fin 16) dom q o c r pin d, ptpSlave 0 p dom s = true → ptpSlave 1 p dom s = false →
    (ptpOf s 0).waiting = some (p.val, q, pin) → s.time.links.getD p none = some d → (ptpOf s 0).primed = false →
    (ptpOf s 0).locked = false → 0 < s.time.ptp.length →
    ∃ t, exec (.ptpSyncRx dt p (.followUp dom q o c r)) s = .next t ∧ (ptpOf t 0).offset = o + c + d - pin ∧
      (ptpOf t 0).rate = r ∧ (ptpOf t 0).waiting = none ∧ (ptpOf t 0).state = 2) ∧
  (∀ (p : Fin 16) raw, ptpPort p s = true →
    exec (.ptpSyncRx dt p (.pdelayReq raw)) s =
      .next (emit (.ptpDelayAnswer p (swPinRx p raw s) (swPinTx p (begin_ dt s).now s)) (begin_ dt s))) ∧
  (∀ (p : Fin 16) t1 t4 t2 t3, ptpPort p s = true →
    exec (.ptpSyncRx dt p (.pdelayEnd t1 t4 t2 t3)) s = .next (modTime (fun t => { t with
      links := updAt t.links p (fun _ => some (((swPinRx p t4 s - swPinTx p t1 s) - (t3 - t2)) / 2)) }) (begin_ dt s))) ∧
  (∀ (p : Fin 16) m, ptpSlave 0 p m.domain s = false → ptpSlave 1 p m.domain s = false →
    exec (.ptpSyncRx dt p (.sync m)) s = .next (begin_ dt s)) ∧
  (∀ (p : Fin 16) a, ptpOn (ptpOf s 0) a.domain p s = true → (ptpOf s 0).role = 2 → a.gmId ≠ s.sys.uid →
    (ptpOf s 0).state = 1 → ptpOn (ptpOf s 1) a.domain p s = false → 0 < s.time.ptp.length →
    ∃ t, exec (.ptpAnnounceRx dt p (.announce a)) s = .next t ∧ (ptpOf t 0).state = 2 ∧ (ptpOf t 0).gm = a ∧
      (ptpOf t 0).locked = false) ∧
  (∀ (p : Fin 16) a, ptpOn (ptpOf s 0) a.domain p s = true → (ptpOf s 0).role = 2 → a.gmId ≠ s.sys.uid →
    (ptpOf s 0).state = 3 → a.gmId ≠ (ptpOf s 0).gm.gmId → bmcaKey (ptpOf s 0).gm ≤ bmcaKey a →
    ptpOn (ptpOf s 1) a.domain p s = false → exec (.ptpAnnounceRx dt p (.announce a)) s = .next (begin_ dt s)) ∧
  (∀ (p : Fin 16) a, ptpOn (ptpOf s 0) a.domain p s = true → (ptpOf s 0).role = 1 → a.gmId ≠ s.sys.uid →
    (ptpOf s 0).state = 3 → a.gmId = (ptpOf s 0).gm.gmId → ptpPortRole (ptpOf s 0) p = 2 →
    bmcaKey (ownAnnounce (ptpOf s 0) s) < bmcaKey a → ptpOn (ptpOf s 1) a.domain p s = false → 0 < s.time.ptp.length →
    ∃ t, exec (.ptpAnnounceRx dt p (.announce a)) s = .next t ∧ (ptpOf t 0).state = 4 ∧ (ptpOf t 0).locked = false) ∧
  (∀ (p : Fin 16) dom v, ptpOn (ptpOf s 0) dom p s = true → ptpOn (ptpOf s 1) dom p s = false →
    exec (.ptpAnnounceRx dt p (.signaling dom v)) s = .next (modPtp 0 (fun i => { i with
      intervals := updAt i.intervals p (fun _ => v) }) (begin_ dt s))) ∧
  (∀ (d : Fin 2) n, (ptpOf s d).state = 4 → (ptpOf s d).role ≠ 0 → ptpSendPorts (ptpOf s d) .sync (begin_ dt s) = [n] →
    d.val < s.time.ptp.length → s.sys.extest = false →
    ∃ t, exec (.ptpMessageSend dt d .sync) s = .next t ∧ (ptpOf t d).txSeq = (ptpOf s d).txSeq + 1 ∧
      t.emit = [.ptpSync d n (ptpOf s d).domain ((ptpOf s d).txSeq + 1), .ptpFollowUp d n (ptpOf s d).domain
        ((ptpOf s d).txSeq + 1) (swPinTx n (begin_ dt s).now s + s.time.oOut) 0]) ∧
  (∀ (d : Fin 2) n o c pin, (ptpOf s d).state = 3 → (ptpOf s d).role ≠ 0 →
    ptpSendPorts (ptpOf s d) .sync (begin_ dt s) = [n] → (ptpOf s d).last = some (o, c, pin) → d.val < s.time.ptp.length →
    s.sys.extest = false →
    ∃ t, exec (.ptpMessageSend dt d .sync) s = .next t ∧ (ptpOf t d).txSeq = (ptpOf s d).txSeq + 1 ∧
      t.emit = [.ptpSync d n (ptpOf s d).domain ((ptpOf s d).txSeq + 1), .ptpFollowUp d n (ptpOf s d).domain
        ((ptpOf s d).txSeq + 1) o (c + (swPinTx n (begin_ dt s).now s - pin))]) ∧
  (∀ (d : Fin 2), (ptpOf s d).state = 4 → (ptpOf s d).role ≠ 0 → ptpSendPorts (ptpOf s d) .announce s ≠ [] →
    exec (.ptpMessageSend dt d .announce) s = .next (emit (.ptpAnnounce d (ptpSendPorts (ptpOf s d) .announce s)
      (ownAnnounce (ptpOf s d) (begin_ dt s))) (begin_ dt s))) ∧
  (∀ (d : Fin 2), (ptpOf s d).state = 3 → (ptpOf s d).role ≠ 0 → ptpSendPorts (ptpOf s d) .announce s ≠ [] →
    exec (.ptpMessageSend dt d .announce) s = .next (emit (.ptpAnnounce d (ptpSendPorts (ptpOf s d) .announce s)
      { (ptpOf s d).gm with stepsRemoved := (ptpOf s d).gm.stepsRemoved + 1 }) (begin_ dt s))) ∧
  (∀ (d : Fin 2), (ptpOf s d).role ≠ 0 → ptpSendPorts (ptpOf s d) .pdelay s ≠ [] →
    exec (.ptpMessageSend dt d .pdelay) s =
      .next (emit (.ptpPdelay d (ptpSendPorts (ptpOf s d) .pdelay s) (ptpOf s d).domain) (begin_ dt s))) ∧
  (∀ (d : Fin 2) k, (ptpOf s d).role = 0 ∨ ptpSendPorts (ptpOf s d) k (begin_ dt s) = [] →
    exec (.ptpMessageSend dt d k) s = .next (begin_ dt s)) ∧
  (∀ (d : Fin 2), (ptpOf s d).role = 2 → (ptpOf s d).state = 3 → (ptpOf s d).locked = true → d.val < s.time.ptp.length →
    ∃ t, exec (.ptpSyncTimeout dt d false) s = .next t ∧ (ptpOf t d).state = 5 ∧ (ptpOf t d).locked = false ∧
      (ptpOf t d).good = 0 ∧ (ptpOf t d).ctr = ctrInc (ptpOf s d).ctr 1) ∧
  (∀ (d : Fin 2), (ptpOf s d).role = 2 → (ptpOf s d).state = 2 → (ptpOf s d).locked = false → d.val < s.time.ptp.length →
    ∃ t, exec (.ptpSyncTimeout dt d true) s = .next t ∧ (ptpOf t d).state = 1 ∧ (ptpOf t d).locked = false) ∧
  (∀ (d : Fin 2), (ptpOf s d).role = 1 → (ptpOf s d).state = 3 → d.val < s.time.ptp.length →
    ∃ t, exec (.ptpSyncTimeout dt d true) s = .next t ∧ (ptpOf t d).state = 4 ∧ (ptpOf t d).locked = false) ∧
  (s.time.returning = true → (ptpOf s 0).locked = true → (ptpOf s 0).lockClk + secT 10 ≤ s.clk + dt → suspectHold s = false →
    exec (.domainReturnTimer dt) s = .next (switchDomain 0 (begin_ dt s)) ∧
    ∃ t, exec (.domainReturnTimer dt) s = .next t ∧ t.time.selected = 0 ∧ t.time.slewing = true ∧ t.time.returning = false)

/-- R251, R253–R255, R257–R259: the timed I/O ports. A due edge of an output is driven at the level of its polarity when its
service gate is open; ARM of a one-shot too late leaves it unarmed with LATE set, else it takes the values present; STOP
disarms and drops the pin; a selected edge is kept with its time while there is room, and dropped and counted when there is
none; reading the capture register answers the head entry and removes it. -/
def Obligations.TimedIoCommandsComplete : Prop := ∀ (dt : Nat) (n : Fin 6) (s : State), Sound s →
  (∀ at_, (tioOf s n).armed = true → (tioOf s n).armMode = 1 → at_ = (tioOf s n).armStart → (tioOf s n).driven = none →
    tioMayDrive (tioOf s n) s = true → s.sys.extest = false →
    ∃ t, exec (.tioPulseEdge dt n at_ true) s = .next t ∧ (tioOf t n).active = true ∧ (tioOf t n).driven = some at_ ∧
      t.emit = [.tio n (!(tioOf s n).armPol)] ∧ (tioOf t n).armed = true) ∧
  (∀ at_, (tioOf s n).armed = true → (tioOf s n).armMode = 1 → at_ = (tioOf s n).armStart → (tioOf s n).driven = none →
    tioMayDrive (tioOf s n) s = false →
    ∃ t, exec (.tioPulseEdge dt n at_ true) s = .next t ∧ (tioOf t n).active = false ∧ (tioOf t n).gated = true ∧ t.emit = []) ∧
  (∀ at_, (tioOf s n).armed = true → (tioOf s n).armMode = 1 → at_ = (tioOf s n).armStart + (tioOf s n).armWidth →
    (∀ d, (tioOf s n).driven = some d → d < at_) → (tioOf s n).active = true → s.sys.extest = false →
    ∃ t, exec (.tioPulseEdge dt n at_ false) s = .next t ∧ (tioOf t n).active = false ∧ (tioOf t n).armed = false ∧
      t.emit = [.tio n (tioOf s n).armPol]) ∧
  (∀ at_ r w, (tioOf s n).armed = true → (tioOf s n).armMode = 3 → tioSelects (tioOf s n) r = true → nsT 20 ≤ w →
    tioSpaced (tioOf s n) at_ = true → (tioOf s n).fifo.length < 16 →
    ∃ t c, exec (.tioCaptureEdge dt n at_ r w) s = .next t ∧ (tioOf t n).fifo = (tioOf s n).fifo ++ [c] ∧ c.rising = r ∧
      nsT (at_ / 65536 - 20) ≤ c.time ∧ c.time ≤ nsT (at_ / 65536 + 20) ∧ c.holdover = timeUnsure s ∧
      c.stepped = (tioOf s n).stepMark ∧ (tioOf t n).lastEdge = some at_ ∧
      (∀ m : Fin 6, m ≠ n → tioOf t m = tioOf s m)) ∧
  (∀ at_ r w, (tioOf s n).armed = true → (tioOf s n).armMode = 3 → tioSelects (tioOf s n) r = true → nsT 20 ≤ w →
    tioSpaced (tioOf s n) at_ = true → 16 ≤ (tioOf s n).fifo.length →
    ∃ t, exec (.tioCaptureEdge dt n at_ r w) s = .next t ∧ (tioOf t n).fifo = (tioOf s n).fifo ∧
      (tioOf t n).ctr = ctrInc (tioOf s n).ctr 1 ∧ (tioOf t n).dropping = true) ∧
  (∀ src, Accesses src (tioAddr n 0) s → tioStart (tioOf s n) < (begin_ dt s).now + nsT 200 →
    ∃ t, exec (.tioArm dt n src 0x101) s = .next t ∧ (tioOf t n).mode = 1 ∧ (tioOf t n).late = true ∧ (tioOf t n).armed = false) ∧
  (∀ src, Accesses src (tioAddr n 0) s → (begin_ dt s).now + nsT 200 ≤ tioStart (tioOf s n) →
    ∃ t, exec (.tioArm dt n src 0x101) s = .next t ∧ (tioOf t n).mode = 1 ∧ (tioOf t n).armed = true ∧
      (tioOf t n).armMode = 1 ∧ (tioOf t n).armPol = false ∧
      (tioOf t n).armStart = tioStart (tioOf s n) ∧ (tioOf t n).armWidth = nsT (tioOf s n).width.toNat ∧
      (∀ m : Fin 6, m ≠ n → tioOf t m = tioOf s m)) ∧
  (∀ src v, Accesses src (tioAddr n 0) s → v.getLsbD 9 = true → v.getLsbD 8 = false → (tioOf s n).active = false →
    ∃ t, exec (.tioStop dt n src v) s = .next t ∧ (tioOf t n).armed = false ∧ (tioOf t n).active = false ∧ t.emit = [] ∧
      (∀ m : Fin 6, m ≠ n → tioOf t m = tioOf s m)) ∧
  (∀ src v, Accesses src (tioAddr n 0) s → v.getLsbD 9 = true → v.getLsbD 8 = false → (tioOf s n).active = true →
    s.sys.extest = false →
    ∃ t, exec (.tioStop dt n src v) s = .next t ∧ (tioOf t n).armed = false ∧ (tioOf t n).active = false ∧
      t.emit = [.tio n (tioOf s n).armPol]) ∧
  (∀ src, Accesses src (tioAddr n 0x30) s →
    ∃ t, exec (.tioCapRead dt n src) s = .next t ∧ (tioOf t n).fifo = (tioOf s n).fifo.drop 1 ∧ (tioOf t n).dropping = false ∧
      t.emit = [.readData src (leBytes 4 ((captureRegs (tioOf s n).fifo.head?).getD 0 0))] ∧
      (∀ m : Fin 6, m ≠ n → tioOf t m = tioOf s m))

/-- R317, R320, R328–R338, R341, R343–R347, R349: the twins. A heartbeat of the twin vehicle's other node makes it the partner
and is noted; a takeover, a step-down, an activation and the end of a generation come with the instant: a takeover raises the
claim generation above every generation seen and makes the node Active, or reasserts it; a node that heard a higher claim
returns; racking frames are collected and a commit that agrees applies its generation; staged pages are copied; a generation not
reported is given up; and a write to the region goes through or waits for the pool. -/
def Obligations.TwinEventCommandsComplete : Prop := ∀ (dt : Nat) (s : State),
  (∀ h, s.twin.configured = true → joined s = true → h.uid ≠ s.sys.uid → h.vid = s.ina.vid → s.twin.partner = none →
    s.twin.recAgain = false →
    ∃ t, exec (.heartbeatRx dt .tw0 h) s = .next t ∧ t.twin.partner = some h.uid ∧ t.twin.hb = some h ∧ t.twin.twNow = true ∧
      t.twin.trNow = s.twin.trNow ∧ t.twin.partnerClaim = h.ownGen ∧ t.twin.partnerPref = h.preferred ∧
      h.ownGen.toNat ≤ t.twin.seen.toNat ∧ h.seenGen.toNat ≤ t.twin.seen.toNat ∧ s.twin.seen.toNat ≤ t.twin.seen.toNat) ∧
  (∀ h, s.twin.configured = true → joined s = true → h.uid ≠ s.sys.uid → h.vid = s.ina.vid → s.twin.partner = some h.uid →
    s.twin.role = .active → claimLow s.twin.own s.twin.preferred s.ina.addr < claimLow h.ownGen h.preferred h.addr →
    ∃ t, exec (.heartbeatRx dt .tw1 h) s = .next t ∧ t.twin.hb = some h ∧ t.twin.higher = true ∧ t.twin.twNow = true) ∧
  (∀ (p : Fin 4) rx h, portUp s p = false ∨ isBoundary s p = true →
    exec (.heartbeatRx dt (.trunk p rx) h) s = .next (begin_ dt s)) ∧
  (∀ (p : Fin 4) rx h, portUp s p = true → isBoundary s p = false → s.twin.configured = true → joined s = true →
    h.uid ≠ s.sys.uid → h.vid = s.ina.vid → s.twin.partner = some h.uid → s.sched.running = none → s.sched.noPoll = true →
    ∃ t, exec (.heartbeatRx dt (.trunk p rx) h) s = .next t ∧ t.twin.hb = some h ∧ t.twin.trNow = true ∧
      t.twin.twNow = s.twin.twNow) ∧
  (∀ h u, s.twin.partner = some u → u ≠ h.uid → exec (.heartbeatRx dt .tw0 h) s = .next (begin_ dt s)) ∧
  (takeoverDue (runTo (nextInstant s) s) = true → nextInstant s ≤ (begin_ dt s).now →
    exec (.takeover dt) s = .next (instant s)) ∧
  (takeoverDue (runTo (nextInstant s) s) = false ∨ (begin_ dt s).now < nextInstant s →
    exec (.takeover dt) s = .next (begin_ dt s)) ∧
  (partnerOutDue (runTo (nextInstant s) s) = true → nextInstant s ≤ (begin_ dt s).now →
    exec (.takeoverPartnerOut dt) s = .next (instant s)) ∧
  (partnerOutDue (runTo (nextInstant s) s) = false ∨ (begin_ dt s).now < nextInstant s →
    exec (.takeoverPartnerOut dt) s = .next (begin_ dt s)) ∧
  (stepDownDue (runTo (nextInstant s) s) = true → nextInstant s ≤ (begin_ dt s).now →
    exec (.stepDown dt) s = .next (instant s)) ∧
  (stepDownDue (runTo (nextInstant s) s) = false ∨ (begin_ dt s).now < nextInstant s →
    exec (.stepDown dt) s = .next (begin_ dt s)) ∧
  (activateDue (runTo (nextInstant s) s) = true → nextInstant s ≤ (begin_ dt s).now →
    exec (.nonpreferredActivate dt) s = .next (instant s)) ∧
  (activateDue (runTo (nextInstant s) s) = false ∨ (begin_ dt s).now < nextInstant s →
    exec (.nonpreferredActivate dt) s = .next (begin_ dt s)) ∧
  (abandonDue (runTo (nextInstant s) s) = true → nextInstant s ≤ (begin_ dt s).now →
    exec (.rackAbandon dt) s = .next (instant s)) ∧
  (abandonDue (runTo (nextInstant s) s) = false ∨ (begin_ dt s).now < nextInstant s →
    exec (.rackAbandon dt) s = .next (begin_ dt s)) ∧
  (s.twin.role = .active → s.twin.foreignStop = false →
    roleAtInstant true s = twinCount 0 (raiseClaim s) ∧ (roleAtInstant true s).twin.role = .active ∧
    (roleAtInstant true s).twin.own = BitVec.ofNat 16 (min 0xFFFF (s.twin.seen.toNat + 1)) ∧
    (roleAtInstant true s).twin.seen = (roleAtInstant true s).twin.own) ∧
  (∀ r c, s.twin.role = .standby ∨ s.twin.role = .returning → takeoverCause r s = some c →
    roleAtInstant r s = takeOver c.toNat s ∧ (roleAtInstant r s).twin.role = .active ∧
    (roleAtInstant r s).twin.own = BitVec.ofNat 16 (min 0xFFFF (s.twin.seen.toNat + 1)) ∧
    (roleAtInstant r s).twin.seen = (roleAtInstant r s).twin.own ∧ (roleAtInstant r s).twin.inFlow = none ∧
    (roleAtInstant r s).twin.inRegion = none ∧ (roleAtInstant r s).twin.inFull = none ∧
    (roleAtInstant r s).twin.staging = none) ∧
  (s.twin.role = .active → s.twin.foreignStop = true ∨ s.twin.higher = true →
    (roleAtInstant false s).twin.role = .returning ∧ (roleAtInstant false s).twin.applied = none ∧
    (roleAtInstant false s).twin.switching = none ∧ (roleAtInstant false s).twin.ctr = ctrInc s.twin.ctr 1) ∧
  (∀ r, activateDue s = true → (roleAtInstant r s).twin.role = .active ∧
    (roleAtInstant r s).twin.own = BitVec.ofNat 16 (min 0xFFFF (s.twin.seen.toNat + 1)) ∧
    (roleAtInstant r s).twin.ctr = s.twin.ctr) ∧
  (∀ g, abandonDue s = true → s.twin.regionOut = some g →
    regionReport s = modTwin (fun t => { markDirty (genPages g) t with regionOut := none, switchSnap := false }) s) ∧
  (∀ f, s.twin.configured = true → joined s = true → s.twin.partner = some f.uid → s.twin.role = .standby → f.stream = 1 →
    f.commit = false → s.twin.inFlow = none →
    ∃ t, exec (.rackingFrameRx dt f) s = .next t ∧
      t.twin.inFlow = some { emptyGen f with items := f.items, parts := [(f.part, f.items)], part := 1 } ∧
      t.twin.applied = s.twin.applied ∧ t.twin.frameSince = true) ∧
  (∀ f g, s.twin.configured = true → joined s = true → s.twin.partner = some f.uid → s.twin.role = .standby → f.stream = 1 →
    f.commit = true → s.twin.inFlow = some g → g.rgen = f.rgen → f.totItems.toNat = g.items.length →
    f.totBytes.toNat = itemsSize g.items → f.crc = itemsCrc g.items →
    ∃ t, exec (.rackingFrameRx dt f) s = .next t ∧ t.twin.inFlow = none ∧ t.twin.applied = some (g.cycle, g.items) ∧
      t.twin.flowRgen = g.rgen ∧ t.twin.flowCycle = g.cycle) ∧
  (∀ f g, s.twin.configured = true → joined s = true → s.twin.partner = some f.uid → s.twin.role = .standby → f.stream = 1 →
    f.commit = true → s.twin.inFlow = some g → g.rgen = f.rgen → f.crc ≠ itemsCrc g.items →
    ∃ t, exec (.rackingFrameRx dt f) s = .next t ∧ t.twin.inFlow = none ∧ t.twin.applied = s.twin.applied ∧
      t.twin.ctr = ctrInc s.twin.ctr 4) ∧
  (∀ f, s.twin.partner ≠ some f.uid → exec (.rackingFrameRx dt f) s = .next (begin_ dt s)) ∧
  (∀ g room, s.twin.role = .active → lastInstant (begin_ dt s) + usT 6 ≤ (begin_ dt s).now →
    (begin_ dt s).now + usT 10 ≤ nextInstant (begin_ dt s) → s.twin.flowOut = some g → g.items.length ≤ g.sent → 28 ≤ room →
    ∃ t, exec (.rackingFrameSend dt room) s = .next t ∧ t.twin.flowOut = none ∧ t.twin.flowRgen = g.rgen ∧
      t.twin.flowCycle = g.cycle ∧
      (s.sys.extest = false → t.emit = [.rack { uid := s.sys.uid, stream := 1, commit := true, rgen := g.rgen, cycle := g.cycle,
                                                part := g.part, items := [], totItems := BitVec.ofNat 32 g.items.length,
                                                totBytes := BitVec.ofNat 32 (itemsSize g.items), crc := itemsCrc g.items }])) ∧
  (∀ room, s.twin.role = .active → s.twin.flowOut = none → s.twin.regionOut = none → s.twin.fullOut = none →
    s.twin.waiting = [] → exec (.rackingFrameSend dt room) s = .next (begin_ dt s)) ∧
  (∀ room, s.twin.role ≠ .active → exec (.rackingFrameSend dt room) s = .next (begin_ dt s)) ∧
  (∀ g, s.twin.staging = some g →
    ∃ t, exec (.regionStagingApply dt) s = .next t ∧ t.twin.staging = none ∧ t.twin.appliedRegion = some g.cycle ∧
      t.twin.regionRgen = g.rgen ∧ t.twin.regionCycle = g.cycle) ∧
  (s.twin.staging = none → exec (.regionStagingApply dt) s = .next (begin_ dt s)) ∧
  (∀ p a d, s.twin.regionOn = true → p < s.twin.regionPages → a < 4096 → waits p s.twin = false →
    ∃ t, exec (.copyOnWrite dt p a d) s = .next t ∧
      t.lsk.work = memWrite s.lsk.work (s.twin.regionOff + 4096 * p + a) (d.take (4096 - a)) ∧ p ∈ t.twin.dirty ∧
      t.twin.pool = (if mustCopy p s.twin then s.twin.pool + 1 else s.twin.pool) ∧ t.twin.waiting = s.twin.waiting) ∧
  (∀ p a d, s.twin.regionOn = true → p < s.twin.regionPages → a < 4096 → waits p s.twin = true →
    exec (.copyOnWrite dt p a d) s =
      .next (twinCount 6 (modTwin (fun t => { t with waiting := t.waiting ++ [(p, a, d)] }) (begin_ dt s)))) ∧
  (∀ p a d, s.twin.regionOn = false ∨ s.twin.regionPages ≤ p ∨ 4096 ≤ a →
    exec (.copyOnWrite dt p a d) s = .next (begin_ dt s))

/-- R359–R369, R373, R376–R378, R380–R387, R389: the lock-step pairs. A locked pair runs cycle after cycle; at the close of a
window of both cores the burin compares their two signatures. A clean verdict lets the held transactions of its window leave; a
divergence, a checker fault or an uncorrectable cache error fences the pair; a restart brings it back on the spare or on its own
physical pair; splits, rejoins and substitutions come with the instant, or are given up; a debug access halts the pair; and
READY is noted for the next instant. -/
def Obligations.PairEventCommandsComplete : Prop := ∀ (dt : Nat) (l : Fin 4) (s : State), Sound s →
  (∀ cs, (pairOf s l).st ≠ .locked → pairSplit (pairOf s l) = false →
    exec (.burinVerdict dt l cs) s = .next (begin_ dt s)) ∧
  (∀ c, pairSplit (pairOf s l) = true →
    exec (.burinVerdict dt l [c]) s = .next (splitCycle l 1 c (splitCycle l 0 c (begin_ dt s)))) ∧
  (∀ c, (pairOf s l).st = .locked →
    verdictDue (pairOf s l).cores (pairOf (pairCycle l c (begin_ dt s)) l).cores = none →
    exec (.burinVerdict dt l [c]) s = .next (pairCycle l c (begin_ dt s))) ∧
  (∀ c w ok, (pairOf s l).st = .locked →
    verdictDue (pairOf s l).cores (pairOf (pairCycle l c (begin_ dt s)) l).cores = some (w, ok) →
    exec (.burinVerdict dt l [c]) s = .next (verdict l w ok (pairCycle l c (begin_ dt s)))) ∧
  (∀ cs c, ∃ t, exec (.burinVerdict dt l cs) s = .next t ∧ exec (.burinVerdict dt l (cs ++ [c])) s = .next (pairStep l c t)) ∧
  (∀ (k k' : Cores) a, k.cyc = 255 → k'.cyc = 0 → k.doneLead = some a →
    verdictDue k k' = some (k.win - 1, some a == k.doneTrail)) ∧
  (∀ w, (pairOf s l).held = [] →
    verdict l w true s = modPair l (fun p => { p with
      window := w, windowCode := some (w.toNat % 2 == 0), held := [], cores := verdictGiven p.cores }) s) ∧
  (∀ w h, (pairOf s l).held = [h] → h.window.toNat ≤ w.toNat →
    verdict l w true s = releaseHeld l h (modPair l (fun p => { p with
      window := w, windowCode := some (w.toNat % 2 == 0), held := [], cores := verdictGiven p.cores }) s)) ∧
  (∀ w h, (pairOf s l).held = [h] → w.toNat < h.window.toNat →
    verdict l w true s = modPair l (fun p => { p with
      window := w, windowCode := some (w.toNat % 2 == 0), held := [h], cores := verdictGiven p.cores }) s) ∧
  (∀ w, (pairOf (verdict l w false s) l).st = .fenced ∧ (pairOf (verdict l w false s) l).held = [] ∧
    (pairOf (verdict l w false s) l).lastCause = 1 ∧ (pairOf (verdict l w false s) l).withdraw = true ∧
    (pairOf (verdict l w false s) l).phys = (pairOf s l).phys ∧
    (∀ m : Fin 4, m ≠ l → pairOf (verdict l w false s) m = pairOf s m)) ∧
  (∀ n, (pairOf s l).held.length = 64 →
    exec (.holdBufferStall dt l n) s = .next (modPair l (fun p => { p with ctr := updAt p.ctr 4 (satAdd n) }) (begin_ dt s))) ∧
  ((pairOf s l).st = .locked →
    ∃ t, exec (.checkerFault dt l) s = .next t ∧ (pairOf t l).st = .fenced ∧ (pairOf t l).held = [] ∧
      (pairOf t l).lastCause = 2 ∧ (pairOf t l).withdraw = true) ∧
  (∀ c, (pairOf s l).st = .locked →
    ∃ t, exec (.cacheUncorrectable dt l c) s = .next t ∧ (pairOf t l).st = .fenced ∧ (pairOf t l).lastCause = 3) ∧
  (∀ c, (pairOf s l).st = .split → (pairOf s l).pendHand = some .rejoin →
    ∃ t, exec (.cacheUncorrectable dt l c) s = .next t ∧ (pairOf t l).st = .fenced ∧ (pairOf t l).lastCause = 3) ∧
  (∀ c, (pairOf s l).st = .split → (pairOf s l).pendHand ≠ some .rejoin →
    ∃ t, exec (.cacheUncorrectable dt l c) s = .next t ∧ (pairOf t l).st = .split ∧ (pairOf t l).lastCause = 3 ∧
      (pairOf t l).stopped = updAt (pairOf s l).stopped c.val (fun _ => true)) ∧
  (restartsNow l.val (runTo (nextInstant s) s) = true → nextInstant s ≤ (begin_ dt s).now →
    exec (.pairRestart dt l) s = .next (instant s)) ∧
  (restartsNow l.val (runTo (nextInstant s) s) = false ∨ (begin_ dt s).now < nextInstant s →
    exec (.pairRestart dt l) s = .next (begin_ dt s)) ∧
  (∀ x, restartsNow l.val s = true → s.lsk.spare = some x → s.lsk.spareReady = true →
    (pairOf (restartAtInstant l.val s) l).st = .locked ∧ (pairOf (restartAtInstant l.val s) l).phys = some x ∧
    (pairOf (restartAtInstant l.val s) l).entry = 1 ∧ (pairOf (restartAtInstant l.val s) l).window = 0 ∧
    (restartAtInstant l.val s).lsk.spareReady = false) ∧
  (∀ x, restartsNow l.val s = true → s.lsk.spareReady = false → (pairOf s l).phys = some x → (pairOf s l).lastCause ≠ 2 →
    (pairOf (restartAtInstant l.val s) l).st = .locked ∧ (pairOf (restartAtInstant l.val s) l).phys = some x ∧
    (pairOf (restartAtInstant l.val s) l).entry = 1 ∧ (pairOf (restartAtInstant l.val s) l).window = 0) ∧
  (∀ c a, (pairOf s l).st = .locked → pairMay (pairOf s l) c.val a = false →
    exec (.pairAccessFault dt l c a) s = .next (faultComes l 0 a (begin_ dt s))) ∧
  (∀ c a, (pairOf s l).st = .split → pairMay (pairOf s l) c.val a = false →
    exec (.pairAccessFault dt l c a) s = .next (faultComes l c.val a (begin_ dt s))) ∧
  ((pairOf s l).st = .locked → (pairOf s l).pendHand = some .split ∨ (pairOf s l).pendHand = some .subst →
    (pairOf s l).hok.getD 0 false = true → (begin_ dt s).now + usT 150 ≤ nextInstant (begin_ dt s) →
    exec (.handoverPoint dt l) s = .next (modPair l (fun p => { p with halted := true, handFound := true }) (begin_ dt s))) ∧
  ((pairOf s l).st = .split → exec (.handoverPoint dt l) s = .next (modPair l splitWaits (begin_ dt s))) ∧
  (splitsNow (pairOf (runTo (nextInstant s) s) l) = true → nextInstant s ≤ (begin_ dt s).now →
    exec (.splitInstant dt l) s = .next (instant s)) ∧
  (splitsNow (pairOf (runTo (nextInstant s) s) l) = false ∨ (begin_ dt s).now < nextInstant s →
    exec (.splitInstant dt l) s = .next (begin_ dt s)) ∧
  ((pairOf s l).st = .locked → (pairOf s l).debugSplitAt = false → (pairOf s l).pendHand = some .split →
    isDrained (pairOf s l) = true →
    (pairOf (splitAtInstant l.val s) l).st = .split ∧ (pairOf (splitAtInstant l.val s) l).entry = 2 ∧
    (pairOf (splitAtInstant l.val s) l).ready = 0 ∧ (pairOf (splitAtInstant l.val s) l).pendHand = none ∧
    (pairOf (splitAtInstant l.val s) l).halted = false) ∧
  ((pairOf s l).st = .locked → (pairOf s l).debugSplitAt = true → isDrained (pairOf s l) = true →
    (pairOf (splitAtInstant l.val s) l).st = .debugSplit ∧ (pairOf (splitAtInstant l.val s) l).debugSplitAt = false ∧
    (pairOf (splitAtInstant l.val s) l).ready = 0) ∧
  ((pairOf s l).st = .locked → (pairOf s l).pendHand = some .subst → isDrained (pairOf s l) = true →
    archState (pairOf s l).cores.lead = archState (pairOf s l).cores.trail → s.lsk.spareReady = true →
    exec (.substitutionTransfer dt l) s = .next (transfer l (begin_ dt s)) ∧
    ∃ t, exec (.substitutionTransfer dt l) s = .next t ∧ (pairOf t l).substTo = s.lsk.spare ∧
      (pairOf t l).cores = cachesOff (pairOf s l).cores) ∧
  ((pairOf s l).st = .locked → (pairOf s l).pendHand = some .subst → isDrained (pairOf s l) = true →
    archState (pairOf s l).cores.lead ≠ archState (pairOf s l).cores.trail →
    ∃ t, exec (.substitutionTransfer dt l) s = .next t ∧ (pairOf t l).st = .fenced ∧ (pairOf t l).lastCause = 4) ∧
  (∀ x, (pairOf s l).substTo = some x →
    (pairOf (substitutionAtInstant l.val s) l).phys = some x ∧ (pairOf (substitutionAtInstant l.val s) l).entry = 4 ∧
    (pairOf (substitutionAtInstant l.val s) l).window = 0 ∧
    (pairOf (substitutionAtInstant l.val s) l).cores.lead = archState (pairOf s l).cores.lead ∧
    (pairOf (substitutionAtInstant l.val s) l).cores.trail = archState (pairOf s l).cores.lead) ∧
  (rejoinsNow (pairOf (runTo (nextInstant s) s) l) = true → nextInstant s ≤ (begin_ dt s).now →
    exec (.rejoinInstant dt l) s = .next (instant s)) ∧
  (rejoinsNow (pairOf (runTo (nextInstant s) s) l) = false ∨ (begin_ dt s).now < nextInstant s →
    exec (.rejoinInstant dt l) s = .next (begin_ dt s)) ∧
  (rejoinsNow (pairOf s l) = true →
    (pairOf (rejoinAtInstant l.val s) l).st = .locked ∧ (pairOf (rejoinAtInstant l.val s) l).entry = 3 ∧
    (pairOf (rejoinAtInstant l.val s) l).window = 0 ∧ (pairOf (rejoinAtInstant l.val s) l).ready = 0 ∧
    (pairOf (rejoinAtInstant l.val s) l).pendHand = none) ∧
  (((pairOf s l).pendHand = some .split ∨ (pairOf s l).pendHand = some .subst) → (pairOf s l).halted = false →
    1000 ≤ (pairOf s l).handCycles →
    ∃ t, exec (.handoverAbandon dt l) s = .next t ∧ (pairOf t l).pendHand = none ∧ (pairOf t l).handCycles = 0 ∧
      (pairOf t l).st = (pairOf s l).st) ∧
  (s.sys.debugScope.getLsbD 1 = true → (pairOf s l).st = .locked → (pairOf s l).debugSplitAt = false →
    exec (.debugAccess dt l) s = .next (raise 0x0703 (leBytes 1 l.val) (modPair l (fun p => { p with
      halted := true, dbg := true, debugSplitAt := true }) (begin_ dt s)))) ∧
  (∀ c v, (pairOf s l).st = .locked → (pairOf s l).halted = false → (pairOf s l).dbg = false →
    ∃ t, exec (.pairReadyWrite dt l c v) s = .next t ∧ (pairOf t l).hok = [v.getLsbD 0, v.getLsbD 0] ∧
      (pairOf t l).rejoinRdy = [v.getLsbD 1, v.getLsbD 1] ∧
      (pairOf t l).readySet = (pairOf s l).readySet ||| BitVec.ofNat 16 (bitsOf v.toNat 17 14 * 2) ∧
      (pairOf t l).ready = (pairOf s l).ready) ∧
  (∀ c v, (pairOf s l).st = .split → (pairOf s l).halted = false → (pairOf s l).stopped.getD c.val false = false →
    ∃ t, exec (.pairReadyWrite dt l c v) s = .next t ∧
      (pairOf t l).hok = updAt (pairOf s l).hok c.val (fun _ => v.getLsbD 0) ∧
      (pairOf t l).rejoinRdy = updAt (pairOf s l).rejoinRdy c.val (fun _ => v.getLsbD 1) ∧
      (pairOf t l).wfi = updAt (pairOf s l).wfi c.val (fun _ => false) ∧
      (pairOf t l).readySet = (pairOf s l).readySet)

/-- R408, R410–R414, R416, R420, R428–R433, R436, R439: what a CAN channel does with frames, errors and states. A frame taken by a
filter is stored in its object with NEW set; a sent frame drops its request and sets DONE; lost arbitration is counted and
leaves the request pending; an error is noted with its code and counted; occurrences of 11 recessive bits are counted and the
128th ends bus-off; 11 recessive bits let the channel take part; and a wake-up pattern in Standby is reported. -/
def Obligations.CanBusCommandsComplete : Prop := ∀ (dt : Nat) (c : Fin 12) (s : State), Sound s →
  (∀ f i ft, canTakesPart (canOf s c) = true → canModeAct (canOf s c) ≠ 3 → canForeign (canOf s c) f = false →
    (canOf s c).filters.find? (fun e => canMatches e.2 f) = some (i, ft) → ft.kind = 0 →
    (canSlotGet (canOf s c) (.obj (Fin.ofNat 128 ft.index.toNat))).en = true →
    (canSlotGet (canOf s c) (.obj (Fin.ofNat 128 ft.index.toNat))).tx = false →
    ∃ t, exec (.canFrameRx dt c f false) s = .next t ∧
      (canSlotGet (canOf t c) (.obj (Fin.ofNat 128 ft.index.toNat))).new = true ∧
      (canSlotGet (canOf t c) (.obj (Fin.ofNat 128 ft.index.toNat))).id = f.id ∧
      (canSlotGet (canOf t c) (.obj (Fin.ofNat 128 ft.index.toNat))).dlc = f.dlc ∧
      (canSlotGet (canOf t c) (.obj (Fin.ofNat 128 ft.index.toNat))).ts = f.ts ∧
      (canSlotGet (canOf t c) (.obj (Fin.ofNat 128 ft.index.toNat))).filter = BitVec.ofNat 6 i) ∧
  (∀ f own, canTakesPart (canOf s c) = false → exec (.canFrameRx dt c f own) s = .next (begin_ dt s)) ∧
  (∀ f, canModeAct (canOf s c) ≠ 4 → canModeAct (canOf s c) ≠ 5 →
    exec (.canFrameRx dt c f true) s = .next (begin_ dt s)) ∧
  (∀ (i : Fin 128) a b d, (canOf s c).tx = .slot (.obj i) a b d →
    ∃ t, exec (.canTxComplete dt c none) s = .next t ∧ (canOf t c).done = (canOf s c).done ||| (1#128 <<< i.val) ∧
      canIsPending (canOf t c) (.obj i) = false ∧ (∀ r ∈ (canOf t c).pending, r ∈ (canOf s c).pending) ∧
      (canOf t c).tec = (canOf s c).tec - 1 ∧ ctrGet (canOf t c).ctr 0 = ctrGet (ctrInc (canOf s c).ctr 0) 0) ∧
  (∀ (b : Fin 8) x y d, (canOf s c).tx = .slot (.hpb b) x y d →
    ∃ t, exec (.canTxComplete dt c none) s = .next t ∧ (canOf t c).hpbDone = (canOf s c).hpbDone ||| (1#8 <<< b.val) ∧
      (canOf t c).tec = (canOf s c).tec - 1) ∧
  ((canOf s c).tx = .none → exec (.canTxComplete dt c none) s = .next (begin_ dt s)) ∧
  (∀ o d, (canOf s c).tx = .slot o false false d →
    exec (.canArbitrationLost dt c) s = .next (modCan c (fun ch => { ch with
      tx := .none, act := 2, ctr := ctrInc ch.ctr 2 }) (begin_ dt s))) ∧
  (∀ o d, (canOf s c).tx = .slot o false true d →
    exec (.canArbitrationLost dt c) s = .next (modCan c (fun ch => { canDrop o ch with
      tx := .none, act := 2, ctr := ctrInc ch.ctr 2 }) (begin_ dt s))) ∧
  (∀ e, canTakesPart (canOf s c) = true → e.protocolException = true → canCtl (canOf s c) 6 = false →
    exec (.canError dt c e) s = .next (canFrameEnd c (modCan c (fun ch => { ch with
      integrating := true, ctr := ctrInc ch.ctr 12 }) (begin_ dt s))) ∧
    ((canOf s c).modeNext = none →
      ∃ t, exec (.canError dt c e) s = .next t ∧ (canOf t c).integrating = true ∧ (canOf t c).act = 0 ∧
        (canOf t c).tx = .none ∧ (canOf t c).tec = (canOf s c).tec ∧ (canOf t c).recc = (canOf s c).recc)) ∧
  (∀ e, canTakesPart (canOf s c) = true → e.protocolException = false → e.dataPhase = false → e.transmitting = false →
    (canOf s c).recc + canRecStep e ≤ 127 →
    ∃ t, exec (.canError dt c e) s = .next t ∧ (canOf t c).lec = BitVec.ofNat 3 (canErrCode e.kind) ∧
      (canOf t c).dlec = (canOf s c).dlec ∧ (canOf t c).tec = (canOf s c).tec ∧
      (canOf t c).recc = (if canModeAct (canOf s c) = 3 then (canOf s c).recc else (canOf s c).recc + canRecStep e)) ∧
  (∀ e o d, canTakesPart (canOf s c) = true → e.protocolException = false → e.dataPhase = true → e.transmitting = true →
    e.kind ≠ .ack → (canOf s c).tx = .slot o false false d → canModeAct (canOf s c) ≠ 3 →
    (canOf s c).tec + canTecStep e ≤ 255 →
    ∃ t, exec (.canError dt c e) s = .next t ∧ (canOf t c).dlec = BitVec.ofNat 3 (canErrCode e.kind) ∧
      (canOf t c).lec = (canOf s c).lec ∧ (canOf t c).tec = (canOf s c).tec + canTecStep e ∧
      (canGated (canSlotGet (canOf s c) o) s = false →
        canIsPending (canOf t c) o = canIsPending (canOf s c) o)) ∧
  (∀ e, canTakesPart (canOf s c) = true → e.protocolException = false → e.dataPhase = false → e.transmitting = true →
    (canOf s c).tx ≠ .none → e.kind = .ack → (canOf s c).est = .passive → e.dominantSeen = false →
    ∃ t, exec (.canError dt c e) s = .next t ∧ (canOf t c).lec = 3 ∧ (canOf t c).tec = (canOf s c).tec) ∧
  (∀ (occ : Fin 129), (canOf s c).recovering = true → canModeAct (canOf s c) ≠ 0 → canModeAct (canOf s c) ≠ 6 → occ.val < 128 →
    exec (.canRecoveryComplete dt c occ) s = .next (modCan c (fun ch => { ch with
      recovCnt := max ch.recovCnt occ.val }) (begin_ dt s))) ∧
  (∀ (occ : Fin 129), (canOf s c).recovering = true → canModeAct (canOf s c) ≠ 0 → canModeAct (canOf s c) ≠ 6 → occ.val = 128 →
    ∃ t, exec (.canRecoveryComplete dt c occ) s = .next t ∧ (canOf t c).est = .active ∧ (canOf t c).tec = 0 ∧
      (canOf t c).recc = 0 ∧ (canOf t c).recovering = false ∧ (canOf t c).recovPend = false ∧ (canOf t c).recovCnt = 128) ∧
  ((canOf s c).integrating = true → canModeAct (canOf s c) ≠ 0 → canModeAct (canOf s c) ≠ 6 →
    exec (.canIntegrationComplete dt c) s = .next (canOffer c (modCan c (fun ch => { ch with
      integrating := false, act := match (canOf s c).est with | .busOff => 0 | _ => 1 }) (begin_ dt s))) ∧
    ∃ t, exec (.canIntegrationComplete dt c) s = .next t ∧ (canOf t c).integrating = false) ∧
  (canModeAct (canOf s c) = 6 → canCtl (canOf s c) 13 = true →
    exec (.canWakePattern dt c) s = .next (raise 0x0803 (leBytes 1 c.val) (begin_ dt s))) ∧
  (canModeAct (canOf s c) ≠ 6 → exec (.canWakePattern dt c) s = .next (begin_ dt s))

/-- R409, R414, R415, R417, R418, R428, R433, R434: host accesses of a CAN channel. A mode written takes effect at once while the
channel is idle, and at the end of the frame in progress otherwise; a mode that needs a legal timing is refused without one;
TXRQ makes objects pending, or withheld by a shut claim gate; TXCAN cancels a request; START begins bus-off recovery; POP
removes the head; a read of word 0 latches the object; and a header is written, or refused for an illegal link. -/
def Obligations.CanAccessCommandsComplete : Prop := ∀ (dt : Nat) (c : Fin 12) (src : Iface) (s : State), Sound s →
  (Accesses src (canAddr c 0x000) s → canModeAct (canOf s c) = 0 → canTimingOk (canOf s c) = true →
    (canOf s c).ctrl = 0x10 → (canOf s c).act.toNat < 2 →
    ∃ t, exec (.canModeWrite dt c src 0x11 false) s = .next t ∧ (canOf t c).modeAct = 1 ∧ (canOf t c).integrating = true ∧
      (canOf t c).ctrl = 0x11 ∧ (canOf t c).cfgErr = (canOf s c).cfgErr) ∧
  (Accesses src (canAddr c 0x000) s → canModeAct (canOf s c) = 0 → (canOf s c).ctrl = 0x10 → canTimingOk (canOf s c) = false →
    ∃ t, exec (.canModeWrite dt c src 0x11 false) s = .next t ∧ (canOf t c).modeAct = (canOf s c).modeAct ∧
      (canOf t c).ctrl = 0x10 ∧ (canOf t c).cfgErr = true) ∧
  (Accesses src (canAddr c 0x000) s → canModeAct (canOf s c) = 1 → (canOf s c).ctrl = 0x11 → canTakesPart (canOf s c) = true →
    ∃ t, exec (.canModeWrite dt c src 0x10 true) s = .next t ∧ (canOf t c).modeNext = some 0 ∧
      (canOf t c).modeAct = (canOf s c).modeAct ∧ (canOf t c).ctrl = 0x10) ∧
  (Accesses src (canAddr c 0x000) s → canModeAct (canOf s c) = 1 → (canOf s c).ctrl = 0x11 → (canOf s c).act.toNat < 2 →
    ∃ t, exec (.canModeWrite dt c src 0x10 false) s = .next t ∧ (canOf t c).modeNext = none ∧ (canOf t c).modeAct = 0 ∧
      (canOf t c).ctrl = 0x10) ∧
  (∀ (i : Fin 32), Accesses src (canAddr c 0x040) s → (canSlotGet (canOf s c) (.obj (Fin.ofNat 128 i.val))).en = true →
    (canSlotGet (canOf s c) (.obj (Fin.ofNat 128 i.val))).tx = true →
    (canSlotGet (canOf s c) (.obj (Fin.ofNat 128 i.val))).fdf = false →
    (canSlotGet (canOf s c) (.obj (Fin.ofNat 128 i.val))).claim = false →
    canNamedExclusive (canOf s c) (.obj (Fin.ofNat 128 i.val)) = false →
    canIsPending (canOf s c) (.obj (Fin.ofNat 128 i.val)) = false →
    (∀ r ∈ (canOf s c).pending, canGated (canSlotGet (canOf s c) r.slot) s = false) →
    ∃ t, exec (.canTxrqWrite dt c 0 src (1#32 <<< i.val)) s = .next t ∧
      (canOf t c).pending = (canOf s c).pending ++ [{ slot := .obj (Fin.ofNat 128 i.val), unacks := 0 }]) ∧
  (∀ (i : Fin 32), Accesses src (canAddr c 0x040) s → (canSlotGet (canOf s c) (.obj (Fin.ofNat 128 i.val))).en = true →
    (canSlotGet (canOf s c) (.obj (Fin.ofNat 128 i.val))).tx = true →
    (canSlotGet (canOf s c) (.obj (Fin.ofNat 128 i.val))).fdf = false →
    (canSlotGet (canOf s c) (.obj (Fin.ofNat 128 i.val))).claim = true →
    canGateOpen (canSlotGet (canOf s c) (.obj (Fin.ofNat 128 i.val))).svc.toNat s = false →
    canNamedExclusive (canOf s c) (.obj (Fin.ofNat 128 i.val)) = false →
    ∃ t, exec (.canTxrqWrite dt c 0 src (1#32 <<< i.val)) s = .next t ∧
      (∀ r ∈ (canOf t c).pending, r ∈ (canOf s c).pending) ∧
      (canSlotGet (canOf t c) (.obj (Fin.ofNat 128 i.val))).withheld = true) ∧
  (∀ (i : Fin 32), Accesses src (canAddr c 0x050) s → (canOf s c).tx = .none →
    canIsPending (canOf s c) (.obj (Fin.ofNat 128 i.val)) = true →
    ∃ t, exec (.canTxcanWrite dt c 0 src (1#32 <<< i.val)) s = .next t ∧
      (canSlotGet (canOf t c) (.obj (Fin.ofNat 128 i.val))).cancelled = true ∧
      (canOf t c).pending = (canOf s c).pending.filter (fun r => r.slot ≠ .obj (Fin.ofNat 128 i.val))) ∧
  (∀ (b : Fin 8), Accesses src (canAddr c 0x070) s → (canSlotGet (canOf s c) (.hpb b)).en = true →
    (canSlotGet (canOf s c) (.hpb b)).tx = true → (canSlotGet (canOf s c) (.hpb b)).fdf = false →
    (canSlotGet (canOf s c) (.hpb b)).claim = false → canNamedExclusive (canOf s c) (.hpb b) = false →
    canIsPending (canOf s c) (.hpb b) = false →
    (∀ r ∈ (canOf s c).pending, canGated (canSlotGet (canOf s c) r.slot) s = false) →
    ∃ t, exec (.canHpbRequest dt c src (1#32 <<< b.val)) s = .next t ∧
      (canOf t c).pending = (canOf s c).pending ++ [{ slot := .hpb b, unacks := 0 }]) ∧
  (∀ (b : Fin 8), Accesses src (canAddr c 0x070) s → (canOf s c).tx = .none → canIsPending (canOf s c) (.hpb b) = true →
    (∀ r ∈ (canOf s c).pending, canGated (canSlotGet (canOf s c) r.slot) s = false) →
    ∃ t, exec (.canHpbCancel dt c src (1#32 <<< (8 + b.val))) s = .next t ∧
      (canSlotGet (canOf t c) (.hpb b)).cancelled = true ∧
      (canOf t c).pending = (canOf s c).pending.filter (fun r => r.slot ≠ .hpb b)) ∧
  (Accesses src (canAddr c 0x018) s → (canOf s c).recovPend = true →
    exec (.canRecoverStart dt c src 1) s = .next (modCan c (fun ch => { ch with
      recovPend := false, recovering := true, recovCnt := 0 }) (begin_ dt s))) ∧
  (Accesses src (canAddr c 0x018) s → (canOf s c).recovPend = false →
    exec (.canRecoverStart dt c src 1) s = .next (begin_ dt s)) ∧
  (Accesses src (canAddr c 0x024) s → (canOf s c).fifoLevel ≠ 0 →
    exec (.canFifoPop dt c src 0x10000) s = .next (modCan c (fun ch => { ch with
      fifoHead := canHeadNext ch, fifoLevel := ch.fifoLevel - 1 }) (begin_ dt s))) ∧
  (Accesses src (canAddr c 0x024) s → (canOf s c).fifoLevel = 0 →
    exec (.canFifoPop dt c src 0x10000) s = .next (begin_ dt s)) ∧
  (∀ o, Accesses src (canAddr c (canSlotOff o)) s →
    ∃ t, exec (.canObjectWord0Read dt c o src) s = .next t ∧
      t.emit = [.readData src ((canObjBytes o (canSlotGet (canOf s c) o)).take 4)] ∧
      (src, o, canObjBytes o (canSlotGet (canOf s c) o)) ∈ (canOf t c).shadows ∧
      (canOf t c).objs = (canOf s c).objs ∧ (canOf t c).hpbs = (canOf s c).hpbs) ∧
  (∀ o v, Accesses src (canAddr c (canSlotOff o + 4 * 0)) s → canIsPending (canOf s c) o = false →
    exec (.canObjectWrite dt c o 0 src v) s =
      .next (modCan c (canSlotMod o (fun _ => canObjSet (canIsHpb o) 0 v.toNat (canSlotGet (canOf s c) o))) (begin_ dt s)) ∧
    ∃ t, exec (.canObjectWrite dt c o 0 src v) s = .next t ∧ (canSlotGet (canOf t c) o).id = BitVec.ofNat 29 v.toNat ∧
      (canSlotGet (canOf t c) o).ide = v.getLsbD 29 ∧ (canSlotGet (canOf t c) o).rtr = v.getLsbD 30) ∧
  (∀ o v, Accesses src (canAddr c (canSlotOff o + 4 * 0)) s → canIsPending (canOf s c) o = true →
    (canSlotGet (canOf s c) o).tx = true →
    ∃ t, exec (.canObjectWrite dt c o 0 src v) s = .next t ∧ canSlotGet (canOf t c) o = canSlotGet (canOf s c) o) ∧
  (∀ o, Accesses src (canAddr c (canSlotOff o + 4 * 1)) s → canIsPending (canOf s c) o = false →
    ∃ t, exec (.canObjectWrite dt c o 1 src 0xC100) s = .next t ∧ (canOf t c).cfgErr = true ∧
      (canSlotGet (canOf t c) o).link = (canSlotGet (canOf s c) o).link ∧ (canSlotGet (canOf t c) o).en = (canSlotGet (canOf s c) o).en)

/-- R435–R439, R441, R443: time-triggered traffic of a CAN channel. A commit is armed, and counted as late for a cycle already
past; a legal shadow matrix becomes the active one and an illegal one is refused; a reference begins a basic cycle; a missing
reference is counted and stops the windows; and a column's cell opens its window or its receive check, and closes it. -/
def Obligations.CanScheduleCommandsComplete : Prop := ∀ (dt : Nat) (c : Fin 12) (s : State), Sound s →
  (∀ src k, Accesses src (canAddr c 0x088) s → wrapNewer k (cycleNo (begin_ dt s)) = true →
    exec (.canTtCommitWrite dt c src k) s = .next (modCan c (fun ch => { ch with
      commit := k, commitPend := true, commitLate := ch.commitLate }) (begin_ dt s))) ∧
  (∀ src k, Accesses src (canAddr c 0x088) s → wrapNewer k (cycleNo (begin_ dt s)) = false →
    exec (.canTtCommitWrite dt c src k) s = .next (canTtFault c 3 (modCan c (fun ch => { ch with
      commit := k, commitPend := true, commitLate := true }) (begin_ dt s)))) ∧
  (canCommits c (runTo (nextInstant s) s) = true → nextInstant s ≤ (begin_ dt s).now →
    exec (.canMatrixCommit dt c) s = .next (instant s)) ∧
  (canCommits c (runTo (nextInstant s) s) = false ∨ (begin_ dt s).now < nextInstant s →
    exec (.canMatrixCommit dt c) s = .next (begin_ dt s)) ∧
  (canShadowOk (canOf s c) s = true →
    (canOf (canCommitNow c s) c).active = (canOf s c).shadow ∧ (canOf (canCommitNow c s) c).commitPend = false ∧
    (canOf (canCommitNow c s) c).deadCols = [] ∧ (canOf (canCommitNow c s) c).cfgErr = (canOf s c).cfgErr) ∧
  (canShadowOk (canOf s c) s = false →
    (canOf (canCommitNow c s) c).active = (canOf s c).active ∧ (canOf (canCommitNow c s) c).commitPend = false ∧
    (canOf (canCommitNow c s) c).cfgErr = true) ∧
  (∀ d : Fin 12, d ≠ c → canOf (canCommitNow c s) d = canOf s d) ∧
  (∀ n, canTakesPart (canOf s c) = true → (canOf s c).active.role = 2 → canCommitDue (canOf s c) (begin_ dt s) = false →
    ∃ t, exec (.canReferenceRx dt c n) s = .next t ∧ (canOf t c).row = n % canRows (canOf s c).active ∧ (canOf t c).col = 0 ∧
      (canOf t c).running = true ∧ (canOf t c).slaveAct = true ∧ (canOf t c).refSpan = false ∧ (canOf t c).bcClk = (begin_ dt s).now ∧
      (canOf t c).lastRefClk = s.clk + dt ∧ (canOf t c).window = none) ∧
  (∀ n, canTakesPart (canOf s c) = false → exec (.canReferenceRx dt c n) s = .next (begin_ dt s)) ∧
  ((canOf s c).refDue = true → (canOf s c).refWait = true → (canOf s c).tx = .none →
    canReached (canOf s c) (canColStart (canOf s c).active 0) (begin_ dt s) = true →
    ∃ t, exec (.canReferenceAbandon dt c) s = .next t ∧ (canOf t c).refDue = false ∧ (canOf t c).refWait = false ∧
      ctrGet (canOf t c).ctr 9 = ctrGet (ctrInc (canOf s c).ctr 9) 9) ∧
  ((canOf s c).refDue = false ∨ canReached (canOf s c) (canColStart (canOf s c).active 0) (begin_ dt s) = false →
    exec (.canReferenceAbandon dt c) s = .next (begin_ dt s)) ∧
  ((canOf s c).slaveAct = true → (canOf s c).lastRefClk + 2 * canBcMacro (canOf s c).active * macroT s ≤ s.clk + dt →
    exec (.canSlaveRefTimeout dt c) s = .next (canTtFault c 2 (modCan c (fun ch => { ch with
      refSpan := true, running := false, window := none, lastRefClk := s.clk + dt, ctr := ctrInc ch.ctr 9 }) (begin_ dt s)))) ∧
  (s.clk + dt < (canOf s c).lastRefClk + 2 * canBcMacro (canOf s c).active * macroT s →
    exec (.canSlaveRefTimeout dt c) s = .next (begin_ dt s)) ∧
  (∀ (k : Fin 64), (canOf s c).running = true → (canOf s c).refSpan = false → k.val < canCols (canOf s c).active →
    (canOf s c).deadCols.contains k.val = false → canFitsShort (canOf s c) k (begin_ dt s) = true →
    canReached (canOf s c) (canColStart (canOf s c).active k) (begin_ dt s) = true →
    (canCell (canOf s c).active (canOf s c).row k).kind = 3 →
    ∃ t, exec (.canHatchWindow dt c k false) s = .next t ∧ (canOf t c).col = k.val ∧ (canOf t c).window = none ∧
      (canSlotNo (canCellSlot (canCell (canOf s c).active (canOf s c).row k)), k.val) ∈ (canOf t c).rxCheck) ∧
  (∀ (k : Fin 64), (canOf s c).running = true → (canOf s c).refSpan = false → k.val < canCols (canOf s c).active →
    (canOf s c).deadCols.contains k.val = false → canFitsShort (canOf s c) k (begin_ dt s) = true →
    canReached (canOf s c) (canColStart (canOf s c).active k) (begin_ dt s) = true →
    (canCell (canOf s c).active (canOf s c).row k).kind = 2 →
    ∃ t, exec (.canHatchWindow dt c k false) s = .next t ∧ (canOf t c).col = k.val ∧ (canOf t c).window = some (k.val, false)) ∧
  (∀ (k : Fin 64), (canOf s c).running = true → (canOf s c).refSpan = false → k.val < canCols (canOf s c).active →
    (canOf s c).deadCols.contains k.val = false → canFitsShort (canOf s c) k (begin_ dt s) = true →
    canReached (canOf s c) (canColStart (canOf s c).active k) (begin_ dt s) = true →
    (canCell (canOf s c).active (canOf s c).row k).kind = 1 → (canOf s c).est ≠ .busOff →
    (canSlotGet (canOf s c) (canCellSlot (canCell (canOf s c).active (canOf s c).row k))).en = true →
    (canSlotGet (canOf s c) (canCellSlot (canCell (canOf s c).active (canOf s c).row k))).tx = true →
    canGated (canSlotGet (canOf s c) (canCellSlot (canCell (canOf s c).active (canOf s c).row k))) s = false →
    ∃ t, exec (.canHatchWindow dt c k false) s = .next t ∧ (canOf t c).col = k.val ∧ (canOf t c).window = some (k.val, false)) ∧
  (∀ (k : Fin 64) i, (canOf s c).running = false ∨ canReached (canOf s c) (canColStart (canOf s c).active k) (begin_ dt s) = false →
    exec (.canHatchWindow dt c k i) s = .next (begin_ dt s)) ∧
  (∀ (k : Fin 64), (canOf s c).window = some (k.val, false) → (canCell (canOf s c).active (canOf s c).row k).kind = 1 →
    ∃ t, exec (.canHatchWindowEnd dt c k) s = .next t ∧ (canOf t c).window = none ∧ (canOf t c).ctr = ctrInc (canOf s c).ctr 7) ∧
  (∀ (k : Fin 64), (canOf s c).window = some (k.val, true) →
    exec (.canHatchWindowEnd dt c k) s = .next (modCan c (fun ch => { ch with window := none }) (begin_ dt s)))

/-- R454, R456, R459, R463–R466: a vehicle-bus segment. A basic period of an administrator takes its poll entries and starts
polling, one after another; a frame without a reply is counted; a master frame for an own source port or for the own device
address is answered; and the slave frame of a polled port is taken by the sink port, with the line it came on. -/
def Obligations.MvbBusCommandsComplete : Prop := ∀ (dt : Nat) (g : Fin 2) (s : State), Sound s →
  (∀ t, (mvbOf s g).roleAct = 2 → (mvbOf s g).commit = none → (mvbOf s g).table = some t →
    (mvbOf s g).cfg.role = 2 → mvbStarts (mvbOf s g) (begin_ dt s) = true →
    exec (.mvbBasicPeriodStart dt g) s = .next (mvbNext g (modMvb g (fun m => { m with
      ports := tblMap (fun _ p => mvbAge p) m.ports, master := none, polls := pollsOf t (mvbIndex t (begin_ dt s).now)
      scanDue := !t.scan.isEmpty, inPeriod := true }) (begin_ dt s)))) ∧
  ((mvbOf s g).cfg.role = 2 → mvbStarts (mvbOf s g) (begin_ dt s) = false →
    exec (.mvbBasicPeriodStart dt g) s = .next (begin_ dt s)) ∧
  ((mvbOf s g).roleAct = 1 → (mvbOf s g).cfg.role = 1 →
    exec (.mvbBasicPeriodStart dt g) s = .next (modMvb g (fun m => { m with
      ports := tblMap (fun _ p => mvbAge p) m.ports, master := none }) (begin_ dt s))) ∧
  ((mvbOf s g).roleAct = 0 → exec (.mvbBasicPeriodStart dt g) s = .next (begin_ dt s)) ∧
  (∀ t e es, (mvbOf s g).roleAct = 2 → (mvbOf s g).master = none → (mvbOf s g).table = some t → (mvbOf s g).inPeriod = true →
    mvbFits t (begin_ dt s).now = true → (mvbOf s g).polls = e :: es → tblGet (mvbOf s g).ports (BitVec.ofNat 12 (pollPort e)).toNat = none →
    (BitVec.ofNat 4 (pollFcode e)).toNat ≤ 4 →
    exec (.mvbMasterFrameSend dt g) s = .next (emit (.mvbMaster g (BitVec.ofNat 4 (pollFcode e)) (BitVec.ofNat 12 (pollPort e)))
      (modMvb g (fun m => { m with
        polls := es, master := some (BitVec.ofNat 4 (pollFcode e), BitVec.ofNat 12 (pollPort e)), ctr := ctrInc m.ctr 0 })
        (begin_ dt s)))) ∧
  (∀ t, (mvbOf s g).roleAct = 2 → (mvbOf s g).master = none → (mvbOf s g).table = some t → (mvbOf s g).inPeriod = true →
    mvbFits t (begin_ dt s).now = false →
    exec (.mvbMasterFrameSend dt g) s = .next (modMvb g (fun m => { m with inPeriod := false, polls := [], scanDue := false })
      (begin_ dt s))) ∧
  (∀ x, (mvbOf s g).roleAct = 2 → (mvbOf s g).master = some x →
    exec (.mvbNoReplyTimeout dt g) s = .next (modMvb g (fun m => { m with master := none, ctr := ctrInc m.ctr 1 }) (begin_ dt s))) ∧
  ((mvbOf s g).master = none → exec (.mvbNoReplyTimeout dt g) s = .next (begin_ dt s)) ∧
  (∀ f p, (mvbOf s g).roleAct ≠ 0 → f.onA = true → f.fcode.toNat ≤ 4 → tblGet (mvbOf s g).ports f.addr.toNat = some p →
    p.dir = 1 → p.fcode = f.fcode.toNat → p.claim = false → s.sys.extest = false →
    ∃ t, exec (.mvbMasterFrameRx dt g f) s = .next t ∧ (mvbOf t g).master = none ∧ .mvbSlave g p.data ∈ t.emit) ∧
  (∀ f p, (mvbOf s g).roleAct ≠ 0 → f.onA = true → f.fcode.toNat ≤ 4 → tblGet (mvbOf s g).ports f.addr.toNat = some p →
    p.dir = 1 → p.fcode = f.fcode.toNat → p.claim = true → gateOpen p.svc.toNat s = false →
    ∃ t, exec (.mvbMasterFrameRx dt g f) s = .next t ∧ (mvbOf t g).master = some (f.fcode, f.addr) ∧
      (∀ d, .mvbSlave g d ∉ t.emit)) ∧
  (∀ f, f.onA = false → f.onB = false → exec (.mvbMasterFrameRx dt g f) s = .next (begin_ dt s)) ∧
  (∀ f fc a p d, (mvbOf s g).master = some (fc, a) → fc.toNat ≤ 4 → f.dataA = some d → f.firstB = false →
    f.invalidA = false → f.invalidB = false → f.dataB = none ∨ f.dataB = some d →
    tblGet (mvbOf s g).ports a.toNat = some p → p.dir = 2 → p.fcode = fc.toNat →
    ∃ t, exec (.mvbSlaveFrameRx dt g f) s = .next t ∧ (mvbOf t g).master = none ∧ (mvbOf t g).ctr = (mvbOf s g).ctr ∧
      tblGet (mvbOf t g).ports a.toNat = some { p with
        data := padTo (fcodeBytes fc.toNat) d, age := 0, held := true, lineB := false, taken := true }) ∧
  (∀ f, (mvbOf s g).master = none → exec (.mvbSlaveFrameRx dt g f) s = .next (begin_ dt s))

/-- R474, R475, R478, R485, R489, R490, R494: the consist switch. A frame with a bad FCS, too long, or from a port that is down is
dropped, each as counted; other frames are learnt from and forwarded; a frame of a locked pair waits for the verdict on its
window; a queued frame leaves when its gates permit; a learned address ages out; the recovery history resets once its time
has passed since the last frame accepted (PRESUMED, log 30) and stays before that; MACsec keys are agreed and distributed; and
a link comes up and goes down. -/
def Obligations.SwitchEventCommandsComplete : Prop := ∀ (dt : Nat) (s : State),
  (∀ f, isConsist f.port = true → swActive (swOf s f.port) = false →
    exec (.consistFrameRx dt f) s = .next (begin_ dt s)) ∧
  (∀ f, isConsist f.port = true → swActive (swOf s f.port) = true → f.fcsOk = false →
    exec (.consistFrameRx dt f) s = .next (swCount f.port 2 (swCount f.port 0 (begin_ dt s)))) ∧
  (∀ f, isConsist f.port = true → swActive (swOf s f.port) = true → f.fcsOk = true → 2000 < f.len →
    exec (.consistFrameRx dt f) s = .next (swCount f.port 3 (swCount f.port 0 (begin_ dt s)))) ∧
  (∀ f, isConsist f.port = true → swActive (swOf s f.port) = true → f.fcsOk = true → 64 ≤ f.len → f.len ≤ 2000 →
    (swOf s f.port).cfg.macsec = true → f.secTagOk = false →
    exec (.consistFrameRx dt f) s = .next (swCount f.port 9 (swCount f.port 0 (begin_ dt s)))) ∧
  (∀ f, isConsist f.port = true → swActive (swOf s f.port) = true → f.fcsOk = true → 64 ≤ f.len → f.len ≤ 2000 →
    (swOf s f.port).cfg.macsec = false → vlanAccepts f s = false →
    exec (.consistFrameRx dt f) s = .next (swCount f.port 4 (swCount f.port 0 (begin_ dt s)))) ∧
  (∀ f, isConsist f.port = true → swActive (swOf s f.port) = true → f.fcsOk = true → 64 ≤ f.len → f.len ≤ 2000 →
    (swOf s f.port).cfg.macsec = false → vlanAccepts f s = true → s.swc.streams = [] →
    ∃ t, exec (.consistFrameRx dt f) s = .next t ∧ (∀ n, tblGet t.swc.streams n = none) ∧
      (isGroup f.src = false → s.swc.addrs = [] → t.swc.addrs = [(f.src, frameVid f (swOf s f.port), f.port.val, false, s.clk + dt)])) ∧
  (∀ f l, f.port = 20 → f.pair = some l → (pairOf s l).st = .locked → (pairOf s l).halted = false →
    exec (.consistFrameRx dt f) s = .next (holdTxn l (.frame f) 0 f.len (some []) (begin_ dt s))) ∧
  (∀ f l, f.port = 20 → f.pair = some l → (pairOf s l).st = .fenced ∨ (pairOf s l).st = .held ∨ (pairOf s l).halted = true →
    exec (.consistFrameRx dt f) s = .next (begin_ dt s)) ∧
  (∀ (p : Fin 22) (q : Fin 8) e es, isConsist p = false → ((swOf s p).queues.getD q []) = e :: es →
    (∀ k : Fin 8, q < k → (swOf s p).queues.getD k [] = []) →
    exec (.consistFrameEgress dt p q) s = .next (emit (.consist p e.frame e.rtag) (swCount p 1 (modSw p (fun t => { t with
      queues := updAt t.queues q (fun _ => es) }) (begin_ dt s))))) ∧
  (∀ (p : Fin 22) (q : Fin 8) e es, swActive (swOf s p) = true → (swOf s p).cfg.macsec = false →
    ((swOf s p).queues.getD q []) = e :: es → queueReady p (swOf s p) q (begin_ dt s).now = true →
    (∀ k : Fin 8, q < k → queueReady p (swOf s p) k (begin_ dt s).now = false) →
    exec (.consistFrameEgress dt p q) s =
      (if egressGated e.stream e.frame.port p s = true then
        .next (swCount p 7 (modSw p (fun t => { t with queues := updAt t.queues q (fun _ => es) }) (begin_ dt s)))
       else .next (emit (.consist p e.frame e.rtag) (swCount p 1 (modSw p (fun t => { t with
        queues := updAt t.queues q (fun _ => es) }) (begin_ dt s)))))) ∧
  (∀ (p : Fin 22) (q : Fin 8), ((swOf s p).queues.getD q []) = [] →
    exec (.consistFrameEgress dt p q) s = .next (begin_ dt s)) ∧
  (∀ m v, ∃ t, exec (.addressAgeing dt m v) s = .next t ∧
    t.swc.addrs = s.swc.addrs.filter (fun e =>
      !(e.1 == m && e.2.1 == v && (!e.2.2.2.1 && e.2.2.2.2 + secT 300 ≤ s.clk + dt))) ∧
    t.swc.ports = s.swc.ports ∧ t.swc.streams = s.swc.streams) ∧
  (∀ (h : Fin 256), recoveryStale (streamOf s h) (s.clk + dt) = true →
    exec (.frerResetTimer dt h) s = .next (modStream h (fun t => { t with recSeq := none, recHist := [], ctr := ctrInc t.ctr 8 })
      (begin_ dt s))) ∧
  (∀ (h : Fin 256), recoveryStale (streamOf s h) (s.clk + dt) = false →
    exec (.frerResetTimer dt h) s = .next (begin_ dt s)) ∧
  (∀ (p : Fin 16) m k, (swOf s p).cfg.macsec = true → (swOf s p).key.isSome = true → m.icvOk = true → (swOf s p).link = true →
    m.serverPrio.toNat < (swOf s p).cfg.ksPrio.toNat → m.sak = some k →
    exec (.mkaPduRx dt p m) s = .next (setSecured p true (modSw p (fun t => { t with sak := some k })
      (modSw p (fun t => { t with live := true, liveClk := s.clk + dt, server := false }) (begin_ dt s))))) ∧
  (∀ (p : Fin 16) m x, (swOf s p).cfg.macsec = true → (swOf s p).key.isSome = true → m.icvOk = true → (swOf s p).link = true →
    (swOf s p).cfg.ksPrio.toNat < m.serverPrio.toNat → m.pnExhausted = false → (swOf s p).sak = some x →
    exec (.mkaPduRx dt p m) s = .next (modSw p (fun t => { t with
      live := true, liveClk := s.clk + dt, server := true }) (begin_ dt s))) ∧
  (∀ (p : Fin 16) m, (swOf s p).cfg.macsec = false ∨ m.icvOk = false → exec (.mkaPduRx dt p m) s = .next (begin_ dt s)) ∧
  (∀ (p : Fin 16), (swOf s p).cfg.macsec = true → (swOf s p).server = true → (swOf s p).live = true →
    exec (.sakDistribute dt p) s = .next (setSecured p true (emit (.mkpdu p (some (s.swc.sakNext + 1)))
      (modSw p (fun t => { t with sak := some (s.swc.sakNext + 1) })
        { begin_ dt s with swc := { s.swc with sakNext := s.swc.sakNext + 1 } })))) ∧
  (∀ (p : Fin 16) (v : Fin 3) m, (swOf s p).link = false → (swOf s p).cfg.mode ≠ 0 →
    exec (.consistLinkChange dt p true v m) s = .next (raise 0x0A01 (leBytes 1 p.val ++ leBytes 1 (linkSpeed (swOf s p).cfg v.val))
      (modSw p (fun t => { t with
        link := true, speed := BitVec.ofNat 2 (linkSpeed t.cfg v.val),
        t1Master := linkMaster t.cfg m }) (begin_ dt s)))) ∧
  (∀ (p : Fin 16) (v : Fin 3) m, (swOf s p).link = true →
    exec (.consistLinkChange dt p false v m) s = .next (setSecured p false (modSw p (fun t => { t with
      live := false, server := false, sak := none }) (modTime (fun x => { x with links := updAt x.links p (fun _ => none) })
        (raise 0x0A01 (leBytes 1 p.val ++ leBytes 1 0xFF)
          (modSw p (fun t => { t with
            link := false, speed := BitVec.ofNat 2 (linkSpeed t.cfg v.val),
            t1Master := linkMaster t.cfg m }) (begin_ dt s))))))) ∧
  (∀ (p : Fin 16) b (v : Fin 3) m, (swOf s p).link = b → exec (.consistLinkChange dt p b v m) s = .next (begin_ dt s))

/-- R653, R656, R659–R662, R665–R667: errors, tests and repairs. A corrected error is kept with its place; a bank with an
uncorrectable error drains, and is retired for a spare; background work is done; the oldest pair rotates to the Ready spare,
or the step is deferred; a passed self-test makes the pair the Ready spare and a failed one retires it; and the guard band
takes its step at an instant. R558: work of a queued store ends with its status. -/
def Obligations.RepairEventCommandsComplete : Prop := ∀ (dt : Nat) (s : State), Sound s →
  (∀ e b, e.place = .bank b → ∃ t, exec (.memoryEccError dt e) s = .next t ∧ t.rep = s.rep ∧
    (∀ k, s.swc.banks[b.val]? = some k → k.inUse = true → e.uncorrectable = true →
      ∃ n, t.swc.banks[b.val]? = some n ∧ n.draining = true ∧ n.retired = k.retired)) ∧
  (∀ e pg w, e.place = .dram pg w → e.uncorrectable = false → s.rep.errs = [] → s.rep.failing = [] →
    ∃ t, exec (.memoryEccError dt e) s = .next t ∧ t.rep.errs = [(e.place, s.clk + dt, false)] ∧ t.rep.failing = [] ∧
      t.rep.ctr = ctrInc s.rep.ctr 2) ∧
  (∀ e pg w, e.place = .dram pg w → e.uncorrectable = true → s.rep.failing = [] → s.rep.repaired = [] → s.rep.pendingCache = [] →
    s.rep.ways = [] →
    ∃ t, exec (.memoryEccError dt e) s = .next t ∧ t.rep.failing = [.dram pg 0]) ∧
  (∀ e, e.uncorrectable = true → ∃ x, exec (.memoryEccError dt e) s =
    .next (readMet e (raise x (placeParam e.place) (takeFree 65536 (memoryError e (begin_ dt s))).2))) ∧
  (∀ e (l : Fin 4), e.reader = some l → (pairOf s l).st = .locked →
    ∃ t, exec (.memoryEccError dt e) s = .next t ∧ (pairOf t l).st = .locked ∧
      (pairOf t l).cores.reads = (pairOf s l).cores.reads ++
        [{ data := e.value, corrected := !e.uncorrectable, uncorrectable := e.uncorrectable }]) ∧
  (exec (.scrubSlice dt .scrub) s = .next (begin_ dt s)) ∧
  (∀ w, nextInstant (begin_ dt s) < (begin_ dt s).now + usT 20 → exec (.scrubSlice dt w) s = .next (begin_ dt s)) ∧
  (∀ p, failPlace p ∈ s.rep.failing → (begin_ dt s).now + usT 20 ≤ nextInstant (begin_ dt s) →
    exec (.scrubSlice dt (.repair p)) s = .next (repairPlace (failPlace p) false (begin_ dt s))) ∧
  (∀ k ok, k ≠ 0 → (∀ q ∈ s.rep.reqs, q.1 ≠ k) → exec (.scrubSlice dt (.request k ok)) s = .next (begin_ dt s)) ∧
  (∀ k ok n, k ≠ 0 → s.rep.reqs = [(k, n)] → (begin_ dt s).now + usT 20 ≤ nextInstant (begin_ dt s) →
    ∃ t, exec (.scrubSlice dt (.request k ok)) s = .next t ∧ t.rep.reqs = []) ∧
  (∀ (b : Fin 26), bankDrained b (begin_ dt s) = true →
    ∃ t n, exec (.bankDrainComplete dt b) s = .next t ∧ t.swc.banks[b.val]? = some n ∧ n.inUse = false ∧ n.draining = false ∧
      n.retired = true) ∧
  (∀ (b : Fin 26), bankDrained b (begin_ dt s) = false →
    exec (.bankDrainComplete dt b) s = .next (begin_ dt s)) ∧
  (∀ p l, rotDue (begin_ dt s) = true → s.rep.rotRun = none → s.rep.rotStopped = false → rotChoice (begin_ dt s) = some p →
    carriedBy (begin_ dt s) p = some l → s.lsk.spareReady = true → coresOff (begin_ dt s) = false →
    (pairOf s l).pendHand = none →
    ∃ t, exec (.rotationStep dt) s = .next t ∧ t.rep.rotRun = some p ∧ (l < 4 → (pairOf t l).pendHand = some .subst) ∧
      t.rep.rotDeferred = false) ∧
  (rotDue (begin_ dt s) = true → s.rep.rotRun = none → s.rep.rotStopped = false → s.lsk.spareReady = false →
    s.rep.rotDeferred = false →
    exec (.rotationStep dt) s = .next (repCount 5 (modRep (fun r => { r with rotDeferred := true }) (begin_ dt s)))) ∧
  (∀ (p : Fin 5), s.rep.testing = some p → s.rep.rotRun = none → s.rep.rotPick = none → s.rep.pendingCache = [] →
    s.rep.refenced = 0 → s.rep.fenced = 0 →
    ∃ t, exec (.logicSelfTestComplete dt p true []) s = .next t ∧ t.rep.testing = none ∧ t.lsk.spare = some p ∧
      t.lsk.spareReady = true ∧ t.rep.retired = s.rep.retired) ∧
  (∀ (p : Fin 5), s.rep.testing = some p → s.rep.rotRun = none → s.rep.rotPick = none → s.rep.pendingCache = [] →
    ∃ t, exec (.logicSelfTestComplete dt p false []) s = .next t ∧ t.rep.testing = none ∧
      t.rep.retired = s.rep.retired ||| (1#5 <<< p.val) ∧ (s.lsk.spare ≠ some p → t.lsk = s.lsk) ∧
      (s.lsk.spare = some p → t.lsk.spare = none ∧ t.lsk.spareReady = false)) ∧
  (∀ (p : Fin 5) ok ms, s.rep.testing ≠ some p → exec (.logicSelfTestComplete dt p ok ms) s = .next (begin_ dt s)) ∧
  (∀ w, s.rep.stepNext = none → s.rep.step.toNat < 15 → 150 * (s.rep.step.toNat + 1) < w →
    exec (.agingMonitorRead dt [w]) s = .next (modRep (fun r => { r with stepNext := some (BitVec.ofNat 4 (s.rep.step.toNat + 1)) })
      (begin_ dt s))) ∧
  (∀ w, s.rep.stepNext = none → w ≤ 150 * (s.rep.step.toNat + 1) →
    exec (.agingMonitorRead dt [w]) s = .next (begin_ dt s)) ∧
  (s.rep.stepNext ≠ none → nextInstant s ≤ (begin_ dt s).now → exec (.agingStepApply dt) s = .next (instant s)) ∧
  (s.rep.stepNext = none ∨ (begin_ dt s).now < nextInstant s → exec (.agingStepApply dt) s = .next (begin_ dt s)) ∧
  (∀ n, s.rep.stepNext = some n → (agingApply s).rep.step = n ∧ (agingApply s).rep.stepNext = none) ∧
  (∀ q, s.cmd.queued = [q] → q.opcode = 0x0A09 →
    ∃ t, exec (.queuedCommandComplete dt q.cmdSeq 0) s = .next t ∧ t.cmd.queued = [] ∧ t.swc.saved = some (swcImage s) ∧
      t.sys.areas = s.sys.areas ||| (1#16 <<< 11)) ∧
  (∀ q, s.cmd.queued = [q] → q.opcode = 0x0504 →
    ∃ t, exec (.queuedCommandComplete dt q.cmdSeq 0x010A) s = .next t ∧ t.cmd.queued = [] ∧ t.flow.saved = s.flow.saved ∧
      t.sys = s.sys) ∧
  (∀ n v, (∀ q ∈ s.cmd.queued, q.cmdSeq ≠ n) → exec (.queuedCommandComplete dt n v) s = .next (begin_ dt s))

/-- R498–R502, R505–R508, R510–R512, R514–R518: the vehicle fabric. Beacons are sent and taken; a new UID gets the lowest free
slot; a frame for this node is delivered and another routed on; unacknowledged frames are resent; a link comes up and goes
down; a failing lane gives way to its Good spare; a spare is judged; and ticks, proxied frames and subscriptions are kept. That a second copy
of a tick is left is the model's reading (DEDUCED, log 31). -/
def Obligations.FabricEventsComplete : Prop := ∀ (dt : Nat) (s : State), Sound s →
  (∀ (k : Fin 4), fabEnabled s k = true → s.sys.extest = false →
    ∃ t, exec (.fabricBeaconSend dt k) s = .next t ∧ t.emit = [.fabricBeacon k (ownFabricBeacon k (begin_ dt s))] ∧
      (fabOf t k).beaconTx = true ∧ (fabOf t k).st = (fabOf s k).st) ∧
  (∀ (k : Fin 4), fabEnabled s k = false → exec (.fabricBeaconSend dt k) s = .next (begin_ dt s)) ∧
  (∀ (k : Fin 4) b, (fabOf s k).st = .up → b.vid = s.ina.vid →
    ∃ t, exec (.fabricBeaconRx dt k b) s = .next t ∧ (fabOf t k).partner = some b ∧ (fabOf t k).partnerUid = b.uid ∧
      (fabOf t k).beaconRx = true ∧ (fabOf t k).st = .up) ∧
  (∀ (k : Fin 4) b, (fabOf s k).st = .up → b.vid ≠ s.ina.vid →
    ∃ t, exec (.fabricBeaconRx dt k b) s = .next t ∧ (fabOf t k).st = .boundary ∧ (fabOf t k).partner = some b ∧
      (fabOf t k).replay = []) ∧
  (∀ (k : Fin 4) b, fabEnabled s k = false → exec (.fabricBeaconRx dt k b) s = .next (begin_ dt s)) ∧
  (∀ u, slotDue u (runTo (nextInstant s) s) = true → nextInstant s ≤ (begin_ dt s).now →
    exec (.fabricSlotAssign dt u) s = .next (instant s)) ∧
  (∀ u, slotDue u (runTo (nextInstant s) s) = false ∨ (begin_ dt s).now < nextInstant s →
    exec (.fabricSlotAssign dt u) s = .next (begin_ dt s)) ∧
  (∀ u n, s.fab.slots.findIdx? (fun x => x == 0) = some n →
    fabAssign u s = modFabric (fun f => { f with slots := updAt f.slots n (fun _ => u) }) s) ∧
  (∀ u, s.fab.slots.findIdx? (fun x => x == 0) = none →
    (fabAssign u s).fab.slots = s.fab.slots ∧ u ∈ (fabAssign u s).fab.noSlot) ∧
  (∀ u, fabActiveTwin s = true → s.fab.assign = [u] →
    fabAssignAtInstant s = fabAssign u (modFabric (fun f => { f with assign := [] }) s)) ∧
  (∀ (k : Fin 4) f, (fabOf s k).st = .up → f.seq = (fabOf s k).rxSeq → fabDest s f.dst.toNat = fabSlot s →
    exec (.fabricFrameRx dt k f) s = .next (fabDeliver f (modFab k (fun x => { x with rxSeq := x.rxSeq + 1 }) (begin_ dt s)))) ∧
  (∀ (k : Fin 4) f, (fabOf s k).st = .up → f.seq = (fabOf s k).rxSeq → fabDest s f.dst.toNat ≠ fabSlot s → f.hops.toNat ≤ 1 →
    exec (.fabricFrameRx dt k f) s = .next (modFab k (fun x => { x with
      rxSeq := x.rxSeq + 1, ctr := ctrInc x.ctr 4 }) (begin_ dt s))) ∧
  (∀ (k j : Fin 4) f, (fabOf s k).st = .up → f.seq = (fabOf s k).rxSeq → fabDest s f.dst.toNat ≠ fabSlot s → 1 < f.hops.toNat →
    fabRoute s (fabDest s f.dst.toNat) = some j.val → j ≠ k →
    exec (.fabricFrameRx dt k f) s = .next (fabSendOn j { f with hops := f.hops - 1 }
      (modFab k (fun x => { x with rxSeq := x.rxSeq + 1 }) (begin_ dt s)))) ∧
  (∀ (k : Fin 4) f, f.seq ≠ (fabOf s k).rxSeq → exec (.fabricFrameRx dt k f) s = .next (begin_ dt s)) ∧
  (∀ (k : Fin 4) f c, (fabOf s k).st = .up → (fabOf s k).replay = [(f, c)] → c + usT 10 ≤ s.clk + dt → s.sys.extest = false →
    ∃ t, exec (.fabricAckTimeout dt k) s = .next t ∧ t.emit = [.fabric k f] ∧ (fabOf t k).replay = [(f, s.clk + dt)] ∧
      (fabOf t k).ctr = ctrInc (fabOf s k).ctr 1) ∧
  (∀ (k : Fin 4), fabEnabled s k = true →
    ∃ t, exec (.fabricLinkDown dt k) s = .next t ∧ (fabOf t k).st = .training ∧ (fabOf t k).replay = [] ∧
      (fabOf t k).beaconRx = false ∧ (∀ j : Fin 4, j ≠ k → fabOf t j = fabOf s j)) ∧
  (∀ (k : Fin 4), (fabOf s k).st = .training → (fabOf s k).beaconTx = true → (fabOf s k).beaconRx = true →
    fabForeign s k = false →
    ∃ t, exec (.fabricLinkUp dt k) s = .next t ∧ (fabOf t k).st = .up ∧ (fabOf t k).delays = [DelayEst.reset, DelayEst.reset] ∧
      (∀ j : Fin 4, j ≠ k → fabOf t j = fabOf s j)) ∧
  (∀ (k : Fin 4) (l : Fin 2) e, (fabOf s k).st = .up → (fabOf s k).lane = l → (fabOf s k).spare = .good →
    (fabOf s k).switches = [] → (fabOf s k).replay = [] → 16 ≤ e.getD 16 →
    ∃ t, exec (.fabricLaneSwitch dt k l e) s = .next t ∧ (fabOf t k).lane = 1 - l ∧ (fabOf t k).spare = .suspect ∧
      (fabOf t k).switches = [(l, s.clk + dt)] ∧
      (fabOf t k).ctr = ctrInc (updAt (fabOf s k).ctr 0 (satAdd (e.getD 0))) 2) ∧
  (∀ (k : Fin 4) (l : Fin 2) e, (fabOf s k).st = .up → (fabOf s k).lane = l → (fabOf s k).spare ≠ .good ∨ e.getD 16 < 16 →
    exec (.fabricLaneSwitch dt k l e) s =
      .next (modFab k (fun x => { x with ctr := updAt x.ctr 0 (satAdd (e.getD 0)) }) (begin_ dt s))) ∧
  (∀ (k : Fin 4) (l : Fin 2) e, (fabOf s k).lane ≠ l → exec (.fabricLaneSwitch dt k l e) s = .next (begin_ dt s)) ∧
  (∀ (k : Fin 4) n, (fabOf s k).spare ≠ .retired → 1 < n →
    ∃ t, exec (.spareLaneGood dt k n) s = .next t ∧ (fabOf t k).spare = .suspect ∧ (fabOf t k).spareClk = s.clk + dt ∧
      (fabOf t k).lane = (fabOf s k).lane) ∧
  (∀ (k : Fin 4) n, (fabOf s k).spare ≠ .retired → n ≤ 1 → (fabOf s k).spareClk + secT 1 ≤ s.clk + dt →
    ∃ t, exec (.spareLaneGood dt k n) s = .next t ∧ (fabOf t k).spare = .good ∧ (fabOf t k).lane = (fabOf s k).lane) ∧
  (∀ (k : Fin 4) n, (fabOf s k).spare = .retired ∨ (n ≤ 1 ∧ s.clk + dt < (fabOf s k).spareClk + secT 1) →
    ∃ t, exec (.spareLaneGood dt k n) s = .next t ∧ fabOf t k = fabOf s k) ∧
  (∀ r d v, isFirst s = true → s.ina.dir = some d →
    d.vehicles.find? (fun v => v.vid == r.vid && !isLegacy v) = some v →
    bitsOf v.slots.toNat 2 14 ≠ bitsOf r.slots.toNat 2 14 →
    exec (.fabricReportRx dt none r) s = .next (modIna (fun n => { n with
      fabricNew := n.fabricNew.filter (fun x => x.vid ≠ r.vid) ++ [r] }) (begin_ dt s))) ∧
  (∀ r d v, isFirst s = true → s.ina.dir = some d →
    d.vehicles.find? (fun v => v.vid == r.vid && !isLegacy v) = some v → reportDiffers v r s = false →
    exec (.fabricReportRx dt none r) s = .next (modIna (fun n => { n with
      fabricNew := n.fabricNew.filter (fun x => x.vid ≠ r.vid)
      fabricKnown := n.fabricKnown.filter (fun x => x.vid ≠ r.vid) ++ [r] }) (begin_ dt s))) ∧
  (∀ (p : Fin 4) r, portUp s p = true → isBoundary s p = false → straysNow p (begin_ dt s) = true →
    exec (.fabricReportRx dt (some p) r) s =
      .next (forwardLen p (.fabricReport r) (controlLen (reportBytes r).length) (schedCount 9 (begin_ dt s)))) ∧
  (∀ (p : Fin 4) r, OwnTraffic p dt s → isFirst s = false →
    exec (.fabricReportRx dt (some p) r) s =
      .next (forwardLen p (.fabricReport r) (controlLen (reportBytes r).length) (begin_ dt s))) ∧
  (∀ (p : Fin 4) r, portUp s p = false ∨ isBoundary s p = true →
    exec (.fabricReportRx dt (some p) r) s = .next (begin_ dt s)) ∧
  (∀ r, isFirst s = false → exec (.fabricReportRx dt none r) s = .next (begin_ dt s)) ∧
  (∀ x (k : Fin 4), s.fab.attached = false → s.sched.openOk = true ∨ opensCycles s = true → tickDue (begin_ dt s) = true →
    ownTick (begin_ dt s) = some x → fabUpLinks s = [k.val] →
    exec (.fabricTickSend dt) s = .next (emit (.fabricTick k x) (modFabric (fun f => { f with tickSent := true })
      (begin_ dt s)))) ∧
  (s.fab.attached = true ∨ tickDue (begin_ dt s) = false → exec (.fabricTickSend dt) s = .next (begin_ dt s)) ∧
  (∀ (k : Fin 4) x rx res, s.fab.attached = true → (fabOf s k).st = .up → s.sched.running = none →
    x.fromTwinB = tickPreferB s → s.fab.srcB = x.fromTwinB → tickAgain x s = false → fabUpLinks s = [k.val] →
    exec (.fabricTickRx dt k x rx res) s = .next (modFabric (fun f => { f with
      ticks := f.ticks.filter (fun y => y.1 != x.fromTwinB) ++ [(x.fromTwinB, x.time)]
      tickPref := true, srcB := x.fromTwinB }) (begin_ dt s))) ∧
  (∀ (k : Fin 4) x rx res, s.fab.attached = true → tickAgain x s = true →
    exec (.fabricTickRx dt k x rx res) s = .next (begin_ dt s)) ∧
  (∀ (k : Fin 4) x rx res, s.fab.attached = false → exec (.fabricTickRx dt k x rx res) s = .next (begin_ dt s)) ∧
  (∀ m n f, fabActiveTwin s = true → s.fab.proxy = [] → flowWireLen f ≤ 98304 →
    exec (.proxyFrameRx dt m n f) s = .next (modFabric (fun b => { b with proxy := [(m, n, (begin_ dt s).now, f)] }) (begin_ dt s))) ∧
  (∀ m n f, fabActiveTwin s = false → exec (.proxyFrameRx dt m n f) s = .next (begin_ dt s)) ∧
  (∀ m fl, s.fab.attached = false →
    exec (.fabricSubscribeRx dt m fl) s = .next (modFabric (fun f => { f with
      subs := f.subs.filter (fun x => x.1 ≠ m) ++ [(m, fl.take 512)] }) (begin_ dt s)))

/-- R523, R526–R537, R539: the host bridge. A request for this node is served, or queued behind an outbound transfer; its answer
is kept and given again to the same request; a response completes the read it answers; a withdrawn request leaves the queue; a
read without an answer fails in time; stale data is dropped; a window access that may not run says why; a semaphore is
taken, read, released and timed out; and a vector is acknowledged. -/
def Obligations.BridgeCommandsComplete : Prop := ∀ (dt : Nat) (s : State),
  (∀ r bad, s.sys.powered = true → ownAddr r.dst s = true → bridgeReady s = true → r.op ≠ 5 → r.op ≠ 2 → s.bridge.out = none →
    (∀ e ∈ s.bridge.store, ¬ (e.1 = r.initUid ∧ e.2.1 = r.tag)) →
    (∀ e ∈ s.bridge.inq, ¬ (e.1.initUid = r.initUid ∧ e.1.tag = r.tag)) →
    exec (.bridgeRequestRx dt none r bad) s = .next (bridgeServe bad r (begin_ dt s))) ∧
  (∀ r bad, s.sys.powered = true → ownAddr r.dst s = true → bridgeReady s = true → r.op = 3 → r.sem.toNat < 32 →
    s.bridge.out = none → s.bridge.store = [] → s.bridge.inq = [] → semOf s r.sem.toNat = none → semBusy r (begin_ dt s) = false →
    r.sem.toNat < s.bridge.sems.length →
    ∃ t, exec (.bridgeRequestRx dt none r bad) s = .next t ∧ (semOf t r.sem.toNat).isSome = true ∧
      (∃ f, t.bridge.store = [(r.initUid, r.tag, f)] ∧ f.status = 0 ∧ f.dst = r.initAddr ∧ f.gen = s.ina.gen)) ∧
  (∀ r o bad, s.sys.powered = true → ownAddr r.dst s = true → bridgeReady s = true → r.op = 1 → s.bridge.out = some o →
    crosses o r = false → s.bridge.store = [] → s.bridge.inq = [] →
    exec (.bridgeRequestRx dt none r bad) s = .next (modBridge (fun b => { b with
      inq := b.inq ++ [(r, s.clk + dt, bad)] }) (begin_ dt s))) ∧
  (∀ r bad, s.sys.powered = true → ownAddr r.dst s = false → s.fab.attached = true →
    exec (.bridgeRequestRx dt none r bad) s = .next (begin_ dt s)) ∧
  (∀ (p : Fin 4) r bad, s.sys.powered = true → OwnTraffic p dt s → ownAddr r.dst s = false → r.dst.toNat / 16 ≠ position s →
    exec (.bridgeRequestRx dt (some p) r bad) s = .next (forwardLen p (.bridge false r) (bridgeLen r) (begin_ dt s))) ∧
  (∀ (p : Fin 4) r bad, portUp s p = false ∨ isBoundary s p = true →
    exec (.bridgeRequestRx dt (some p) r bad) s = .next (begin_ dt s)) ∧
  (∀ (p : Fin 4) r bad, s.sys.powered = true → portUp s p = true → isBoundary s p = false → straysNow p (begin_ dt s) = true →
    exec (.bridgeRequestRx dt (some p) r bad) s =
      .next (forwardLen p (.bridge false r) (bridgeLen r) (schedCount 9 (begin_ dt s)))) ∧
  (∀ r o, s.sys.powered = true → ownAddr r.dst s = true → r.initUid = s.sys.uid → s.bridge.out = some o →
    o.frame.tag = r.tag → r.status = 0 → o.frame.op = 1 → o.src = .lb →
    exec (.bridgeResponseRx dt none r) s = .next (bridgeRun (modBridge (fun b => { b with
      out := none, fetch := b.fetch.map (fun x => (x.1, x.2.1, some r.data)), fetchClk := s.clk + dt }) (begin_ dt s)))) ∧
  (∀ r o, s.sys.powered = true → ownAddr r.dst s = true → r.initUid = s.sys.uid → s.bridge.out = some o →
    o.frame.tag = r.tag → r.status = 0x80 →
    exec (.bridgeResponseRx dt none r) s = .next (modBridge (fun b => { b with
      out := some { o with busy := true, sentClk := s.clk + dt } }) (begin_ dt s))) ∧
  (∀ r, s.sys.powered = true → ownAddr r.dst s = true → r.initUid ≠ s.sys.uid →
    exec (.bridgeResponseRx dt none r) s = .next (begin_ dt s)) ∧
  (∀ r, s.sys.powered = true → ownAddr r.dst s = true →
    exec (.bridgeWithdrawRx dt none r) s = .next (modBridge (fun b => { b with
      inq := b.inq.filter (fun e => !(e.1.initUid == r.initUid && e.1.tag == r.tag)) }) (begin_ dt s))) ∧
  (∀ o tag, s.bridge.out = some o → s.bridge.posted = [] → o.frame.tag = tag → o.busy = false → 1 ≤ o.sends → o.sends < 4 →
    o.sentClk + 2 * macroT s ≤ s.clk + dt →
    ∃ t o', exec (.bridgeRetryTimer dt tag) s = .next t ∧ t.bridge.out = some o' ∧ o'.sends = o.sends + 1 ∧
      o'.sentClk = s.clk + dt ∧ o'.frame.tag = tag) ∧
  (∀ o tag, s.bridge.out = some o → s.bridge.posted = [] → o.sends = 0 →
    exec (.bridgeRetryTimer dt tag) s = .next (begin_ dt s)) ∧
  (∀ o tag, s.bridge.out = some o → s.bridge.posted = [] → s.bridge.waiting = [] → s.bridge.inq = [] → o.frame.tag = tag →
    o.frame.op = 1 → o.busy = false → o.src = .lb → o.startClk + msT s.fab.reqTmo ≤ s.clk + dt →
    ∃ t, exec (.bridgeReqTimeout dt tag) s = .next t ∧ t.bridge.out = none ∧ t.bridge.rdErr = 3 ∧
      t.bridge.fetch = s.bridge.fetch.map (fun x => (x.1, x.2.1, some (List.replicate o.frame.len 0xFF))) ∧
      t.bridge.ctr = ctrInc s.bridge.ctr 0) ∧
  (∀ o tag, s.bridge.out = some o → s.bridge.posted = [] → s.bridge.waiting = [] → s.clk + dt < o.startClk + msT s.fab.reqTmo →
    exec (.bridgeReqTimeout dt tag) s = .next (begin_ dt s)) ∧
  (∀ a n d, s.bridge.fetch = some (a, n, some d) → s.bridge.fetchClk + usT 100 ≤ s.clk + dt →
    exec (.bridgeFetchStale dt) s = .next (modBridge (fun b => { b with fetch := none, ctr := ctrInc b.ctr 3 }) (begin_ dt s))) ∧
  (∀ o, s.bridge.out = some o → s.bridge.posted = [] → o.busy = true → o.sentClk + usT 10 ≤ s.clk + dt →
    ∃ t o', exec (.bridgeBusyRetry dt) s = .next t ∧ t.bridge.out = some o' ∧ o'.frame.tag = s.bridge.nextTag ∧
      t.bridge.nextTag = s.bridge.nextTag + 1 ∧ o'.sentClk = s.clk + dt) ∧
  (∀ o, s.bridge.out = some o → s.bridge.posted = [] → o.busy = false → exec (.bridgeBusyRetry dt) s = .next (begin_ dt s)) ∧
  (∀ (w : Fin 8) off len, ifaceOpen .pcie s = true → windowSpan off len 512 = false →
    exec (.remoteWindowRead dt .pcie w off len) s = .next (emit (.readData .pcie (List.replicate len 0)) (begin_ dt s))) ∧
  (∀ (w : Fin 8) off, ifaceOpen .pcie s = true → windowSpan off 4 512 = true → (windowOf s w).mode = 0 →
    ∃ t, exec (.remoteWindowRead dt .pcie w off 4) s = .next t ∧ t.emit = [.pcieHeld, .readData .pcie [0xFF, 0xFF, 0xFF, 0xFF]] ∧
      t.bridge.rdErr = 1 ∧ t.bridge.rdErrWin = BitVec.ofNat 3 w ∧ t.bridge.ctr = ctrInc s.bridge.ctr 0) ∧
  (∀ (w : Fin 8) off hi lo, ifaceOpen .lb s = true → off < 0x400000 → off % 4 = 0 →
    s.bridge.fetch = some (windowAddr w off, 4, some (leBytes 2 lo ++ leBytes 2 hi)) → lo < 65536 → hi < 65536 →
    exec (.remoteWindowRead dt .lb w off 2) s = .next (emit (.lbAnswer true (BitVec.ofNat 16 lo))
      (modBridge (fun b => { b with fetch := none, lbHigh := some (windowAddr w off, BitVec.ofNat 16 hi) }) (begin_ dt s)))) ∧
  (∀ (w : Fin 8) off d, ifaceOpen .pcie s = true → windowSpan off d.length 256 = false →
    exec (.remoteWindowWrite dt .pcie w off d) s = .next (begin_ dt s)) ∧
  (∀ (w : Fin 8) off d, ifaceOpen .pcie s = true → windowSpan off d.length 256 = true → (windowOf s w).mode ≠ 0 →
    (windowOf s w).wr = false →
    ∃ t e, exec (.remoteWindowWrite dt .pcie w off d) s = .next t ∧ t.bridge.pwlog = keepLast 64 (s.bridge.pwlog ++ [e]) ∧
      e.error = 2 ∧ e.window = BitVec.ofNat 8 w ∧ e.len = d.length ∧ t.bridge.posted = s.bridge.posted) ∧
  (∀ (w : Fin 8) off r h, ifaceOpen .lb s = true → off < 0x400000 → off % 4 = 2 → s.bridge.fetch = none →
    s.bridge.lbHigh = some (r, h) → r + 2 = windowAddr w off →
    exec (.remoteWindowRead dt .lb w off 2) s = .next (emit (.lbAnswer true (lbMask 3 h.toNat))
      (modBridge (fun b => { b with lbHigh := none }) (begin_ dt s)))) ∧
  (∀ (w : Fin 8) off, ifaceOpen .lb s = true → (windowOf s w).guard_.isSome = true → s.bridge.lock = some (w, true) →
    exec (.lockedSequenceStart dt w off) s = .next (lbRemoteRead 3 s.bridge.lbHigh w (off % 0x400000 / 2 * 2)
      (modBridge (fun b => { b with lbHigh := none }) (begin_ dt s)))) ∧
  (∀ (w v : Fin 8) off, ifaceOpen .lb s = true → (windowOf s w).guard_.isSome = true → s.bridge.lock = some (v, true) → v ≠ w →
    exec (.lockedSequenceStart dt w off) s = .next (emit (.lbAnswer false 0)
      (modBridge (fun b => { b with lbHigh := none }) (begin_ dt s)))) ∧
  (∀ (w : Fin 8) off, ifaceOpen .lb s = true → (windowOf s w).guard_.isSome = true → s.bridge.lock = none →
    s.bridge.fetch = none →
    exec (.lockedSequenceStart dt w off) s = .next (emit (.lbAnswer false 0) (semOperation 3 w
      (modBridge (fun b => { b with lbHigh := none, lock := some (w, false) }) (begin_ dt s))))) ∧
  (∀ (w : Fin 8), s.bridge.lock = some (w, false) →
    exec (.lockedSequenceEnd dt) s = .next (modBridge (fun b => { b with lock := none }) (begin_ dt s))) ∧
  (s.bridge.lock = none → exec (.lockedSequenceEnd dt) s = .next (begin_ dt s)) ∧
  (∀ (k : Fin 32), ifaceOpen .pcie s = true → semOf s k = none →
    exec (.fabSemRead dt .pcie k) s = .next (emit (.readData .pcie (leBytes 4 0)) (semTake .pcie k (begin_ dt s)))) ∧
  (∀ (k : Fin 32) x, ifaceOpen .pcie s = true → semOf s k = some x →
    exec (.fabSemRead dt .pcie k) s = .next (emit (.readData .pcie (leBytes 4 (x.owner.toNat + 2 ^ 31))) (begin_ dt s))) ∧
  (∀ (k : Fin 32) x, ifaceOpen .lb s = true → semOf s k = some x → semOwned .lb x s = true →
    exec (.fabSemWrite dt .lb k 0) s = .next (semSet k none (begin_ dt s))) ∧
  (∀ (k : Fin 32) x v, ifaceOpen .lb s = true → semOf s k = some x → semOwned .lb x s = false ∨ v ≠ 0 →
    exec (.fabSemWrite dt .lb k v) s = .next (begin_ dt s)) ∧
  (∀ (k : Fin 32) x, semOf s k = some x → x.clk + msT s.fab.semTmo ≤ s.clk + dt →
    exec (.semTmoExpiry dt k) s = .next (semSet k none (semEvent k 0 (begin_ dt s)))) ∧
  (∀ v, ifaceOpen .pcie s = true →
    exec (.fabVecPendWrite dt .pcie v) s = .next (modBridge (fun b => { b with vecPend := b.vecPend &&& ~~~ v }) (begin_ dt s)))

/-- R547, R550–R552, R584–R588: mailboxes and the event queue as the host sees them. Payload bytes are stored while the
mailbox is idle, and discarded and counted while it is busy; a read of a free lock takes it and a write of 0 by its owner frees
it; a ring of a busy mailbox is refused and counted; an unknown opcode completes with UNKNOWN_OPCODE; EVQ_RD moves on within
the unread entries only; and an entry held too long raises the queue's vector. -/
def Obligations.HostQueueCommandsComplete : Prop := ∀ (dt : Nat) (src : Iface) (s : State), Sound s →
  (∀ (m : Fin 8) v, Accesses src (0x1000 * m.val + 0x20) s → isPair src = false → (mbxOf s m).ring = false →
    exec (.mailboxWrite dt src m 0x20 [v]) s = .next (modMbx m (fun x => { x with payload := memSet x.payload 0 v }) (begin_ dt s))) ∧
  (∀ (m : Fin 8) v, Accesses src (0x1000 * m.val + 0x20) s → isPair src = false → (mbxOf s m).ring = true →
    exec (.mailboxWrite dt src m 0x20 [v]) s = .next (modCmd (fun c => { c with ctr := ctrInc c.ctr 1 }) (begin_ dt s))) ∧
  (∀ (m : Fin 8), Accesses src (0x8040 + 4 * m.val) s → isPair src = false → (mbxOf s m).lock = none →
    ∃ t, exec (.mbxLockRead dt src m) s = .next t ∧ (mbxOf t m).lock = some (ownerTag src s) ∧
      t.emit = [.readData src (leBytes 4 0)] ∧ (∀ j : Fin 8, j ≠ m → mbxOf t j = mbxOf s j)) ∧
  (∀ (m : Fin 8) x, Accesses src (0x8040 + 4 * m.val) s → isPair src = false → (mbxOf s m).lock = some x →
    exec (.mbxLockRead dt src m) s = .next (emit (.readData src (leBytes 4 (x.toNat + 2 ^ 31))) (begin_ dt s))) ∧
  (∀ (m : Fin 8), Accesses src (0x8040 + 4 * m.val) s → isPair src = false → (mbxOf s m).lock = some (ownerTag src s) →
    exec (.mbxLockWrite dt src m 0) s = .next (modMbx m (fun x => { x with lock := none }) (begin_ dt s))) ∧
  (∀ (m : Fin 8) x v, Accesses src (0x8040 + 4 * m.val) s → (mbxOf s m).lock = some x → x ≠ ownerTag src s ∨ v ≠ 0 →
    exec (.mbxLockWrite dt src m v) s = .next (begin_ dt s)) ∧
  (∀ (m : Fin 8), Accesses src (0x8000 + 4 * m.val) s → isPair src = false → (mbxOf s m).ring = true →
    ∃ t, exec (.doorbellRing dt src m 1) s = .next t ∧ (mbxOf t m).refused = true ∧ (mbxOf t m).ring = true ∧
      (mbxOf t m).tag = (mbxOf s m).tag ∧ t.cmd.ctr = ctrInc s.cmd.ctr 0 ∧ t.cmd.nextSeq = s.cmd.nextSeq) ∧
  (∀ (m : Fin 8), Accesses src (0x8000 + 4 * m.val) s → isPair src = false → (mbxOf s m).ring = false →
    s.sys.resetPending = none → lockAllows m src s = true → commandOf (mbxOf s m).opcode.toNat = none →
    ∃ t, exec (.doorbellRing dt src m 1) s = .next t ∧ (mbxOf t m).ring = false ∧ (mbxOf t m).done = true ∧
      (mbxOf t m).status = 0x0100 ∧ (mbxOf t m).state = 2) ∧
  (∀ (m : Fin 8), Accesses src (0x8000 + 4 * m.val) s → isPair src = false →
    exec (.doorbellRing dt src m 0x2) s = .next (modMbx m (fun x => { x with done := false, irqEn := false, vector := 0 })
      (begin_ dt s))) ∧
  (∀ n, Accesses src 0x108004 s → isPair src = false → (s.cmd.wr - BitVec.ofNat 10 n).toNat ≤ (s.cmd.wr - s.cmd.rd).toNat → n < 1024 →
    s.cmd.evqIrqEn = false →
    exec (.evqRdWrite dt src (BitVec.ofNat 32 n)) s = .next (modCmd (fun c => { c with rd := BitVec.ofNat 10 n }) (begin_ dt s))) ∧
  (∀ n, Accesses src 0x108004 s → (s.cmd.wr - s.cmd.rd).toNat < (s.cmd.wr - BitVec.ofNat 10 n).toNat → n < 1024 →
    exec (.evqRdWrite dt src (BitVec.ofNat 32 n)) s = .next (modCmd (fun c => { c with rdErr := true }) (begin_ dt s))) ∧
  (∀ e, s.cmd.evqIrqEn = true → s.cmd.evqHold ≠ 0 → 0 < unread s.cmd → unread s.cmd < threshOf s.cmd →
    tblGet s.cmd.ring s.cmd.rd.toNat = some e → e.raised = false → e.clk + usT (10 * s.cmd.evqHold.toNat) ≤ s.clk + dt →
    exec (.evqHoldTimeout dt) s = .next (raiseQueue (begin_ dt s))) ∧
  (s.cmd.evqHold = 0 → exec (.evqHoldTimeout dt) s = .next (begin_ dt s))

/-- R10, R11, R265, R269, R521, R523, R525, R581, R591, R594, R712, R713: the process-data windows and direct registers. A write
to the next window is stored once it is open and held until then, a further one of the local bus meanwhile answered with retry; one
to the current window is discarded; a release bit is
set, and a release complete is noted; the mask waits for the next instant; a read of a counter clears it; the first word
of a time latches the others; the local bus, PCI Express and SPI reach the same registers; and an access of a width,
alignment or address without a register reads 0 and writes nothing. -/
def Obligations.HostAccessCommandsComplete : Prop := ∀ (dt : Nat) (src : Iface) (s : State),
  (∀ v, Accesses src 0x200000 s → s.flow.opening = true → s.flow.nextOpen = true → s.flow.relPend = false →
    blockRefuses src 0 s = none →
    exec (.nextWindowWrite dt src 0 [v]) s = .next (modNext (fun m => storeProduced s m 0 [v]) (begin_ dt s))) ∧
  (∀ v, Accesses src 0x200000 s → s.flow.opening = true → s.flow.nextOpen = false → s.flow.relPend = false →
    src ≠ .lb ∨ s.flow.heldWrites = [] → blockRefuses src 0 s = none →
    exec (.nextWindowWrite dt src 0 [v]) s = .next (modFlow (fun w => { w with heldWrites := w.heldWrites ++ [(src, 0, [v])] })
      (begin_ dt s))) ∧
  (∀ v, Accesses src 0x200000 s → s.flow.opening = true → s.flow.relPend = true → src ≠ .lb ∨ s.flow.heldWrites = [] → blockRefuses src 0 s = none →
    exec (.nextWindowWrite dt src 0 [v]) s = .next (modFlow (fun w => { w with ctr := ctrInc w.ctr 2 }) (begin_ dt s))) ∧
  (∀ v l, Accesses src 0x200000 s → s.flow.opening = true → src ≠ .lb ∨ s.flow.heldWrites = [] → blockRefuses src 0 s = some l →
    exec (.nextWindowWrite dt src 0 [v]) s = .next (pairCount l 6 (begin_ dt s))) ∧
  (∀ off v, off < 0x10000 → ifaceOpen .lb s = true → s.flow.opening = true → s.flow.nextOpen = false → s.flow.heldWrites ≠ [] →
    exec (.nextWindowWrite dt .lb off [v]) s = .next (emit (.lbAnswer false 0) (begin_ dt s))) ∧
  (∀ off v, off < 0x10000 → Accesses src (0x210000 + off) s →
    exec (.currentWindowWrite dt src off [v]) s = .next (begin_ dt s)) ∧
  (Accesses .pcie 0x220000 s → s.flow.relPend = false → s.flow.relMask = 0x3 → s.flow.release = 0 →
    pairReleased 0 (begin_ dt s) = false →
    exec (.pdiReleaseHost dt .pcie 1) s = .next (modFlow (fun w => { w with release := 1 }) (begin_ dt s))) ∧
  (Accesses .pcie 0x220000 s → s.flow.relPend = false → s.flow.relMask = 0x1 → s.flow.release = 0 →
    ∃ t, exec (.pdiReleaseHost dt .pcie 1) s = .next t ∧ t.flow.release = 1 ∧ t.flow.relPend = true) ∧
  (Accesses src 0x220000 s → s.flow.relPend = true → exec (.pdiReleaseHost dt src 1) s = .next (begin_ dt s)) ∧
  (∀ (l : Fin 4), Accesses (.pair l) 0x220000 s → s.flow.relPend = false → s.flow.relMask = 0x1 → s.flow.release = 0 →
    exec (.pdiReleasePair dt l (1#32 <<< (1 + l.val))) s =
      .next (modFlow (fun w => { w with release := 1#5 <<< (1 + l.val) }) (begin_ dt s))) ∧
  (∀ v : BitVec 32, Accesses src 0x220004 s → isPair src = false → v.toNat % 32 ≠ 0 →
    exec (.pdiRelMaskWrite dt src v) s = .next (modFlow (fun w => { w with relMaskNext := some (BitVec.ofNat 5 v.toNat) }) (begin_ dt s))) ∧
  (∀ v : BitVec 32, Accesses src 0x220004 s → v.toNat % 32 = 0 → exec (.pdiRelMaskWrite dt src v) s = .next (begin_ dt s)) ∧
  (Accesses src 0x400000 s →
    ∃ t, exec (.multiRegisterLatchRead dt src 0x400000) s = .next t ∧ t.emit = [.readData src (leBytes 4 ((begin_ dt s).now % 65536))] ∧
      (src, 0x400000, (((ttsWords (begin_ dt s)).take 4).drop 1).flatMap (leBytes 4)) ∈ t.shadows ∧ t.time = (begin_ dt s).time) ∧
  (∀ b, Accesses src 0x400004 s → s.shadows = [(src, 0x400000, b)] →
    exec (.multiRegisterLatchRead dt src 0x400004) s = .next (emit (.readData src (leBytes 4 (fieldAt b 0 4))) (begin_ dt s))) ∧
  (Accesses src 0x8024 s →
    exec (.rcFieldRead dt src 0x8024) s = .next (emit (.readData src (leBytes 4 (ctrGet s.cmd.ctr 0).n.toNat))
      (modCmd (fun c => { c with ctr := updAt c.ctr 0 (fun _ => Sat.zero) }) (begin_ dt s)))) ∧
  (Accesses src 0x108008 s →
    exec (.rcFieldRead dt src 0x108008) s = .next (emit (.readData src (leBytes 4 s.cmd.lost.n.toNat))
      (modCmd (fun c => { c with lost := Sat.zero }) (begin_ dt s)))) ∧
  (∀ a, ifaceOpen .lb s = true → a.abandon = false → a.be = 0 →
    exec (.localBusAccess dt a) s = .next (emit (.lbAnswer true 0) (modBridge (fun b => { b with lbHigh := none }) (begin_ dt s)))) ∧
  (∀ a d, ifaceOpen .lb s = true → a.abandon = true → a.wdata = some d →
    exec (.localBusAccess dt a) s = .next (modBridge (fun b => { b with lbHigh := none }) (begin_ dt s))) ∧
  (∀ a, ifaceOpen .lb s = true → a.abandon = false → a.be = 3 → a.lock = false → a.wdata = none → a.off = 0x8024 → s.bridge.lbPage = 0 →
    ∃ t, exec (.localBusAccess dt a) s = .next t ∧
      t.emit = [.lbAnswer true (BitVec.ofNat 16 ((ctrGet s.cmd.ctr 0).n.toNat % 65536))] ∧
      t.bridge.lbHigh = some (0x8024, BitVec.ofNat 16 ((ctrGet s.cmd.ctr 0).n.toNat / 65536)) ∧ (ctrGet t.cmd.ctr 0) = Sat.zero) ∧
  (∀ n, ifaceOpen .pcie s = true → n % 4 ≠ 0 →
    exec (.pcieMultiDwordRequest dt 0x8000 n none) s = .next (emit (.readData .pcie (List.replicate n 0)) (begin_ dt s))) ∧
  (ifaceOpen .pcie s = true →
    exec (.pcieMultiDwordRequest dt 0x8024 4 none) s = .next (emit (.readData .pcie (leBytes 4 (ctrGet s.cmd.ctr 0).n.toNat))
      (modCmd (fun c => { c with ctr := updAt c.ctr 0 (fun _ => Sat.zero) }) (begin_ dt s)))) ∧
  (ifaceOpen .spi s = true →
    exec (.spiTransfer dt 0x8024 1 none) s = .next (emit (.readData .spi (leBytes 4 (ctrGet s.cmd.ctr 0).n.toNat))
      (modCmd (fun c => { c with ctr := updAt c.ctr 0 (fun _ => Sat.zero) }) (begin_ dt s)))) ∧
  (ifaceOpen .spi s = true →
    exec (.spiTransfer dt 0x200000 1 none) s = .next (emit (.readData .spi [0, 0, 0, 0]) (bridgeCount 5 (begin_ dt s)))) ∧
  (∀ a n, Accesses src a s → widthOk a n = false →
    exec (.unalignedAccess dt src a n none) s = .next (emit (.readData src (List.replicate n 0)) (begin_ dt s))) ∧
  (∀ a n d, Accesses src a s → widthOk a n = false →
    exec (.unalignedAccess dt src a n (some d)) s = .next (begin_ dt s)) ∧
  (∀ a n, Accesses src a s → blockAt a = .none_ →
    exec (.unmappedAccess dt src a n none) s = .next (emit (.readData src (List.replicate n 0)) (begin_ dt s))) ∧
  (∀ a n d, Accesses src a s → blockAt a = .none_ → exec (.unmappedAccess dt src a n (some d)) s = .next (begin_ dt s)) ∧
  (∀ v, Accesses src 0x8040 s → isPair src = false → (mbxOf s 0).lock = some (ownerTag src s) → v = 0 →
    exec (.registerWrite dt src 0x8040 v) s = .next (modMbx 0 (fun x => { x with lock := none }) (begin_ dt s)))

/-! ## The machine as a whole -/

/-- Log 1: a step takes the command at the front of the queue and runs it on the state with the rest of the queue. -/
def Obligations.StepRunsFrontCommand : Prop := ∀ (c : Instr) (s : State),
  step { s with pending := c :: s.pending } = exec c s

/-- R42, R45, R67, R123, R232, R319, R392, R545, R606: what the machine starts from (log 2: it stands before POWER_GOOD): no
command waits, the node is without power and not ready, it lists the parts it has, every trunk port is Disabled without a
mode, the node is In steep, its time unit Free and its twin Out, and no mailbox rings, is locked or holds an event. -/
def Obligations.ResetState : Prop :=
  State.reset.pending = [] ∧ Sound State.reset ∧ State.reset.sys.powered = false ∧ State.reset.sys.ready = false ∧
  (∀ p : Fin 4, (portOf State.reset p).st = .disabled ∧ (portOf State.reset p).mode = .none) ∧
  State.reset.ina.st = .steep ∧ State.reset.time.st = .free ∧ State.reset.twin.role = .out ∧
  (∀ m : Fin 8, (mbxOf State.reset m).ring = false ∧ (mbxOf State.reset m).done = false ∧
    (mbxOf State.reset m).refused = false ∧ (mbxOf State.reset m).lock = none ∧ (mbxOf State.reset m).vector = 0) ∧
  State.reset.cmd.rd = 0 ∧ State.reset.cmd.wr = 0 ∧ State.reset.cmd.queued = [] ∧ State.reset.emit = []

/-- Every command completes in every state: it answers a next state, the commands waiting and the identity fused at
manufacture (R23, R574) are as they were, and a state with the parts the node has keeps them. -/
def Obligations.EveryCommandCompletes : Prop := ∀ (i : Instr) (s : State), ∃ t, exec i s = .next t ∧
  t.pending = s.pending ∧ fusedOf t.sys = fusedOf s.sys ∧ (Sound s → Sound t)

/-- Every step keeps the machine's parts and the identity fused at manufacture, and takes at most one command from the
queue. -/
def Obligations.EveryStepKeepsSound : Prop := ∀ s t : State, Sound s → step s = .next t →
  Sound t ∧ fusedOf t.sys = fusedOf s.sys ∧ t.pending = s.pending.tail

/-! ## Mailboxes, for every command of the master table -/

/-- R550 with R548: a ring of a mailbox whose RING reads 1, and a ring by a party other than the owner of the mailbox's
lock, is refused, both where a command's request is rung and where a doorbell register is written: REFUSED is set, the ring
is counted, and nothing else comes of it. -/
def Obligations.RingsRefused : Prop :=
  (∀ i sp dt r s, requestOf i = some (sp, dt, r) → mayRing r.src (begin_ dt s) = true → (mbxOf s r.mbx).ring = true →
    exec i s = .next (refuseRing r.mbx (begin_ dt s))) ∧
  (∀ i sp dt r s, requestOf i = some (sp, dt, r) → Sound s → mayRing r.src (begin_ dt s) = true →
    lockAllows r.mbx r.src s = false → (mbxOf s r.mbx).ring = false → s.sys.resetPending = none →
    exec i s = .next (refuseRing r.mbx (loadRequest sp.opcode r (begin_ dt s)))) ∧
  (∀ (n : Fin 8) dt src s, Sound s → Accesses src (0x8000 + 4 * n.val) s → isPair src = false →
    (mbxOf s n).ring = true ∨ lockAllows n src s = false → (mbxOf s n).irqEn = false → (mbxOf s n).vector = 0 →
    exec (.doorbellRing dt src n 1) s = .next (refuseRing n (begin_ dt s))) ∧
  (∀ (n : Fin 8) s, Sound s → mbxOf (refuseRing n s) n = { mbxOf s n with refused := true } ∧
    (∀ j : Fin 8, j ≠ n → mbxOf (refuseRing n s) j = mbxOf s j) ∧ (refuseRing n s).cmd.ctr = ctrInc s.cmd.ctr 0 ∧
    { refuseRing n s with cmd := { (refuseRing n s).cmd with mbx := [], ctr := [] } } =
      { s with cmd := { s.cmd with mbx := [], ctr := [] } })

/-- R555, R562, R606–R608, R582: the checks before a command's own, in order, each with its answer: a command that a remote
initiator may not ring, a length the command does not define, a reserved bit that is set, and a command that must wait
for START_READY. The node is as it was but for the mailbox, and but for the nonce
of a debug unlock (R621). While the interface that would ring does not reach the mailboxes,
nothing comes of the command but the time that passes. -/
def Obligations.RequestChecksInOrder : Prop := ∀ i sp dt r s, requestOf i = some (sp, dt, r) →
  s.sys.resetPending = none →
  (mayRing r.src (begin_ dt s) = false → exec i s = .next (begin_ dt s)) ∧
  (Sound s → mayRing r.src (begin_ dt s) = true → (mbxOf s r.mbx).ring = false → lockAllows r.mbx r.src s = true →
    ∃ t, exec i s = .next t ∧
    ((sp.noRemote && isRemote r.src) = true →
      Answered r 0x0105 0 [] (taken sp.opcode dt r s) t ∧ OthersSame r s t ∧
        rest t = rest (nonceSpent sp (taken sp.opcode dt r s))) ∧
    ((sp.noRemote && isRemote r.src) = false → lengthOk sp r.req = false →
      Answered r 0x0101 sp.minLen [] (taken sp.opcode dt r s) t ∧ OthersSame r s t ∧
        rest t = rest (nonceSpent sp (taken sp.opcode dt r s))) ∧
    (∀ off, (sp.noRemote && isRemote r.src) = false → lengthOk sp r.req = true → reservedSet sp.resv r.req = some off →
      Answered r 0x0102 off [] (taken sp.opcode dt r s) t ∧ OthersSame r s t ∧
        rest t = rest (nonceSpent sp (taken sp.opcode dt r s))) ∧
    (checkRequest sp r.src r.req = none → s.sys.ready = false → startAllowed sp.opcode = false →
      Answered r 0x0103 s.sys.step [] (taken sp.opcode dt r s) t ∧ OthersSame r s t ∧
        rest t = rest (taken sp.opcode dt r s)))

/-- R556, R559 (and R621 for the nonce of a debug unlock that fails): a command that completes with an error leaves the
node, and the other mailboxes, as they were when it was taken; and while 32 commands are queued none is answered QUEUED. -/
def Obligations.ErrorsHaveNoEffect : Prop := ∀ i sp dt r s t, requestOf i = some (sp, dt, r) → Sound s →
  mayRing r.src (begin_ dt s) = true → (mbxOf s r.mbx).ring = false → s.sys.resetPending = none →
  lockAllows r.mbx r.src s = true → exec i s = .next t → (mbxOf t r.mbx).state = 2 →
  (0x0100 ≤ (mbxOf t r.mbx).status.toNat → OthersSame r s t ∧ (mbxOf t r.mbx).ring = false ∧
    (mbxOf t r.mbx).done = true ∧ (mbxOf t r.mbx).tag = r.tag ∧
    (sp.opcode ≠ 0x0111 → rest t = rest (taken sp.opcode dt r s)) ∧
    rest (modSys (fun y => { y with nonce := none }) t) =
      rest (modSys (fun y => { y with nonce := none }) (taken sp.opcode dt r s))) ∧
  (32 ≤ s.cmd.queued.length → (mbxOf t r.mbx).status ≠ 1)

/-! ## Events, counters and storage -/

/-- R567: the event queue is full when the write index plus 1 is the read index, which leaves room for 1,023 unread
entries; an event that finds it full is counted as lost and not written; the next entry written carries LOST. -/
def Obligations.EventQueueFullLoses : Prop := ∀ (e : Event) (s : State),
  (queueFull s.cmd = true ↔ s.cmd.wr + 1 = s.cmd.rd) ∧ (queueFull s.cmd = true ↔ unread s.cmd = 1023) ∧
  unread s.cmd ≤ 1023 ∧
  (queueFull s.cmd = true → queueEvent e s = { s with cmd := { s.cmd with lost := satInc s.cmd.lost, lostMark := true } }) ∧
  (queueFull s.cmd = false → (queueEvent e s).cmd.wr = s.cmd.wr + 1 ∧ (queueEvent e s).cmd.lostMark = false ∧
    (queueEvent e s).cmd.rd = s.cmd.rd ∧ (queueEvent e s).cmd.lost = s.cmd.lost ∧
    ∃ f, tblGet (queueEvent e s).cmd.ring s.cmd.wr.toNat = some f ∧ f.lost = s.cmd.lostMark ∧ f.seq = e.seq ∧
      f.type = e.type ∧ f.time = e.time ∧ f.param = e.param)

/-- R568, R571, R572: every event raised takes the next sequence number, masked or not, and is recorded for the cycle; one
whose type is logged is added to the log; a masked one does not enter the queue. -/
def Obligations.EventsAreNumberedAndRecorded : Prop := ∀ (code : Nat) (param : List Byte) (s : State),
  (raise code param s).cmd.evSeq = s.cmd.evSeq + 1 ∧
  (∃ e, (raise code param s).cmd.cycleEvents = s.cmd.cycleEvents ++ [e] ∧ e.seq = s.cmd.evSeq ∧
    e.type = BitVec.ofNat 16 code ∧ e.time = s.now ∧ e.param = param.take 12 ∧ e.logged = isLogged code ∧
    (isLogged code = true → s.cmd.log.length < 4096 → (raise code param s).cmd.log = s.cmd.log ++ [e]) ∧
    (isLogged code = false → (raise code param s).cmd.log = s.cmd.log)) ∧
  (BitVec.ofNat 16 code ∈ s.cmd.mask → (raise code param s).cmd.wr = s.cmd.wr ∧
    (raise code param s).cmd.ring = s.cmd.ring ∧ (raise code param s).cmd.lost = s.cmd.lost) ∧
  (BitVec.ofNat 16 code ∉ s.cmd.mask → queueFull s.cmd = false → (raise code param s).cmd.wr = s.cmd.wr + 1) ∧
  OnlyWrites [.emit, .cmd, .flow, .vec] s (raise code param s)

/-- R14: a counter stops at its maximum, and its overflow bit sets at the first count that is lost; it does not clear by
counting. -/
def Obligations.CountersStopAtTheirMaximum : Prop := ∀ (k : Nat) (c : Sat),
  (satAdd k c).n.toNat = min (c.n.toNat + k) 0xFFFFFFFF ∧
  ((satAdd k c).ovf = true ↔ c.ovf = true ∨ 0xFFFFFFFF < c.n.toNat + k)

/-- R586, R588: a write of EVQ_RD by a pair, or one that would leave more unread entries than before, is discarded and sets
RD_ERR; any other, the present index among them, is accepted. -/
def Obligations.ReadIndexNeverMovesBack : Prop := ∀ (dt : Nat) (src : Iface) (v : BitVec 32) (s : State),
  Accesses src 0x108004 s →
  (isPair src = true ∨ (s.cmd.wr - s.cmd.rd).toNat < (s.cmd.wr - BitVec.ofNat 10 v.toNat).toNat →
    exec (.evqRdWrite dt src v) s = .next (modCmd (fun c => { c with rdErr := true }) (begin_ dt s))) ∧
  (isPair src = false → (s.cmd.wr - BitVec.ofNat 10 v.toNat).toNat ≤ (s.cmd.wr - s.cmd.rd).toNat →
    ∃ t, exec (.evqRdWrite dt src v) s = .next t ∧ t.cmd.rd = BitVec.ofNat 10 v.toNat ∧ t.cmd.rdErr = s.cmd.rdErr ∧
      t.cmd.wr = s.cmd.wr ∧ unread t.cmd ≤ unread s.cmd ∧
      (s.cmd.evqIrqEn = true → s.cmd.wr ≠ BitVec.ofNat 10 v.toNat → t = raiseQueue (modCmd (fun c => { c with
        rd := BitVec.ofNat 10 v.toNat }) (begin_ dt s))))

/-- R265: the node discards every write to the current window: whichever party writes, at any width, by a command of its own
or through the bus that every other route to the window uses. -/
def Obligations.CurrentWindowIsReadOnly : Prop := ∀ (off : Nat) (src : Iface) (d : List Byte) (s : State), off < 0x10000 →
  busWrite src (0x210000 + off) d s = s ∧
  (∀ dt, Accesses src (0x210000 + off) s → exec (.currentWindowWrite dt src off d) s = .next (begin_ dt s))

/-- R264, R311, R449, R545 over the form of log 4: a byte memory in canonical form stays so under a write, reads back what
was written and every other byte as before; a range cleared reads 0; and two memories that read the same everywhere are
equal. -/
def Obligations.MemoryReadsBack : Prop := ∀ (m : Mem), Memory.wf m = true →
  (∀ a d, Memory.wf (memWrite m a d) = true) ∧
  (∀ a d x, memGet (memWrite m a d) x = if a ≤ x ∧ x < a + d.length then d.getD (x - a) 0 else memGet m x) ∧
  (∀ a n x, memGet (memClear m a n) x = if a ≤ x ∧ x < a + n then 0 else memGet m x) ∧
  (∀ n, Memory.wf n = true → (∀ a, memGet m a = memGet n a) → m = n)

/-! ## Frames: what a command leaves as it was

`Writes [...] i` says that `i` answers a next state in every state, and that every part of the state not named is as it was:
the registers of the other units, their FIFOs, buffers and flags, and the rest. -/

/-- R45–R101, R104–R157: what the trunk ports, the bypass and the inauguration may change: the clocks, what is sent, and the
parts named. A port that resumes, hears energy, trains or changes its role leaves the other ports as they were, and one that has
negotiated its mode leaves all but the other port of its direction. -/
def Obligations.TrunkFrames : Prop :=
  (∀ dt p, Writes [.now, .clk, .emit, .trunk] (.lossOfSignal dt p)) ∧
  (∀ dt p, Writes [.now, .clk, .emit, .trunk] (.resumeEntry dt p)) ∧
  (∀ dt p, Writes [.now, .clk, .emit, .cmd, .trunk, .ina, .sched, .time, .flow, .twin, .fab, .vec] (.signalRelock dt p)) ∧
  (∀ dt p, Writes [.now, .clk, .emit, .cmd, .trunk, .ina, .sched, .time, .flow, .twin, .fab, .vec] (.linkDownTimeout dt p)) ∧
  (∀ dt p, Writes [.now, .clk, .emit, .trunk] (.partnerEnergyDetect dt p)) ∧
  (∀ dt p, Writes [.now, .clk, .emit, .trunk] (.trainingLockComplete dt p)) ∧
  (∀ dt p partner, Writes [.now, .clk, .emit, .cmd, .trunk, .ina, .flow, .vec] (.qualifyComplete dt p partner)) ∧
  (∀ dt p violations lockLost, Writes [.now, .clk, .emit, .trunk] (.codeViolationLimit dt p violations lockLost)) ∧
  (∀ dt p, Writes [.now, .clk, .emit, .cmd, .trunk, .flow, .vec] (.negotiateTimeout dt p)) ∧
  (∀ dt p partner, Writes [.now, .clk, .emit, .cmd, .trunk, .ina, .flow, .vec] (.t1LinkUp dt p partner)) ∧
  (∀ dt p, Writes [.now, .clk, .emit, .trunk] (.t1RoleSwap dt p)) ∧
  (∀ dt p idle tTx, Writes [.now, .clk, .emit, .trunk, .fab] (.delayRequest dt p idle tTx)) ∧
  (∀ dt p m tRx tTx, Writes [.now, .clk, .emit, .trunk, .fab] (.delayMarkerRx dt p m tRx tTx)) ∧
  (∀ dt p m, Writes [.now, .clk, .emit, .trunk, .fab] (.delayFollowUpRx dt p m)) ∧
  (∀ dt p tTx, Writes [.now, .clk, .emit, .trunk] (.peerDelayRequest dt p tTx)) ∧
  (∀ dt, Writes [.now, .clk, .emit, .cmd, .trunk, .ina, .sched, .flow, .vec] (.bypassLineAClose dt)) ∧
  (∀ dt, Writes [.now, .clk, .emit, .cmd, .trunk, .ina, .sched, .flow, .vec] (.bypassLineBClose dt)) ∧
  (∀ dt, Writes [.now, .clk, .emit, .trunk] (.bypassLineAOpen dt)) ∧
  (∀ dt, Writes [.now, .clk, .emit, .cmd, .trunk, .flow, .vec] (.bypassLineBOpen dt)) ∧
  (∀ dt line closed, Writes [.now, .clk, .emit, .cmd, .trunk, .flow, .vec] (.bypassSenseCheck dt line closed)) ∧
  (∀ dt p idleFor, Writes [.now, .clk, .emit, .trunk] (.linkBeaconSend dt p idleFor)) ∧
  (∀ dt, Writes [.now, .clk, .emit, .trunk] (.passiveBeaconSend dt)) ∧
  (∀ dt p b tRx, Writes [.now, .clk, .emit, .cmd, .trunk, .ina, .sched, .time, .flow, .twin, .fab, .vec] (.linkBeaconRx dt p b tRx)) ∧
  (∀ dt p b, Writes [.now, .clk, .emit, .trunk, .ina, .sched] (.breakRx dt p b)) ∧
  (∀ dt p d, Writes [.now, .clk, .emit, .cmd, .trunk, .ina, .sched, .flow, .fab, .vec] (.directoryRx dt p d)) ∧
  (∀ dt p j, Writes [.now, .clk, .emit, .trunk, .ina, .sched] (.joinRx dt p j)) ∧
  (∀ dt p c, Writes [.now, .clk, .emit, .trunk, .ina, .sched] (.coldClaimRx dt p c)) ∧
  (∀ dt p m, Writes [.now, .clk, .emit, .cmd, .trunk, .ina, .sched, .flow, .vec] (.mergeReportRx dt p m)) ∧
  (∀ dt p vid, Writes [.now, .clk, .emit, .trunk, .ina, .sched] (.leadSetRx dt p vid)) ∧
  (∀ dt p f tRx fin,
    Writes [.now, .clk, .emit, .cmd, .trunk, .ina, .sched, .time, .flow, .twin, .vec] (.openingFrameRx dt p f tRx fin)) ∧
  (∀ dt, Writes [.now, .clk, .emit, .cmd, .ina, .time, .flow, .twin, .vec] (.coldStartTimeout dt)) ∧
  (∀ dt, Writes [.now, .clk, .emit, .trunk, .ina, .sched] (.coldClaimSend dt)) ∧
  (∀ dt, Writes [.now, .clk, .emit, .ina] (.contendTimeout dt)) ∧
  (∀ dt, Writes [.now, .clk, .emit, .ina] (.provisionalNoJoin dt)) ∧
  (∀ dt, Writes [.now, .clk, .emit, .cmd, .trunk, .ina, .sched, .flow, .vec] (.shutdownBypassClose dt)) ∧
  (∀ dt p m1000 m100 master, Writes [.now, .clk, .emit, .cmd, .trunk, .flow, .vec] (.autonegComplete dt p m1000 m100 master)) ∧
  (∀ dt p answered, Writes [.now, .clk, .emit, .cmd, .trunk, .flow, .vec] (.trainingFailure dt p answered)) ∧
  (∀ dt p, Writes [.now, .clk, .emit, .cmd, .trunk, .ina, .sched, .time, .flow, .twin, .fab, .vec] (.t1LinkDown dt p)) ∧
  (∀ dt p t, Writes [.now, .clk, .emit, .cmd, .trunk, .ina, .sched, .time, .flow, .twin, .fab, .vec] (.ttdpFrameRx dt p t)) ∧
  (∀ dt dir wtbAddrs interior master reporter,
    Writes [.now, .clk, .emit, .cmd, .trunk, .ina, .sched, .flow, .vec]
      (.islandInaugurationComplete dt dir wtbAddrs interior master reporter)) ∧
  (∀ dt addr data okA okB, Writes [.now, .clk, .emit, .trunk, .flow] (.islandTelegramRx dt addr data okA okB)) ∧
  (∀ dt, Writes [.now, .clk, .emit] (.islandTelegramSend dt)) ∧
  (∀ dt p s t, exec (.resumeEntry dt p) s = .next t → ∀ j : Fin 4, j ≠ p → portOf t j = portOf s j) ∧
  (∀ dt p s t, exec (.partnerEnergyDetect dt p) s = .next t → ∀ j : Fin 4, j ≠ p → portOf t j = portOf s j) ∧
  (∀ dt p s t, exec (.trainingLockComplete dt p) s = .next t → ∀ j : Fin 4, j ≠ p → portOf t j = portOf s j) ∧
  (∀ dt p s t, exec (.t1RoleSwap dt p) s = .next t → ∀ j : Fin 4, j ≠ p → portOf t j = portOf s j) ∧
  (∀ dt p m1000 m100 master s t, exec (.autonegComplete dt p m1000 m100 master) s = .next t →
    ∀ j : Fin 4, j ≠ p → j.val ≠ siblingPort p → portOf t j = portOf s j)

/-- R158–R310: what sending under the schedule, flows, sessions, the time unit and the timed ports may change. -/
def Obligations.ScheduleAndTimeFrames : Prop :=
  (∀ dt entry transit,
    Writes [.now, .clk, .free, .emit, .cmd, .trunk, .sched, .flow, .fab, .bridge, .vec] (.scheduledSend dt entry transit)) ∧
  (∀ dt passing, Writes [.now, .clk, .emit, .trunk, .sched] (.sporadicAbort dt passing)) ∧
  (∀ dt p f tRx, Writes [.now, .clk, .free, .emit, .trunk, .sched, .lsk, .swc, .fab] (.trunkFrameForward dt p f tRx)) ∧
  (∀ dt src f fin, Writes [.now, .clk, .emit, .cmd, .trunk, .sched, .flow, .twin, .fab, .vec] (.flowFrameRx dt src f fin)) ∧
  (∀ dt p f, Writes [.now, .clk, .emit, .cmd, .trunk, .sched, .flow, .fab, .vec] (.sessionFrameRx dt p f)) ∧
  (∀ dt sid opener, Writes [.now, .clk, .emit, .cmd, .trunk, .sched, .flow, .fab, .vec] (.sessionRetransmit dt sid opener)) ∧
  (∀ dt, Writes [.now, .clk, .emit, .cmd, .trunk, .ina, .time, .flow, .twin, .vec] (.tcxoStop dt)) ∧
  (∀ dt, Writes [.now, .clk, .emit, .time] (.tcxoRestart dt)) ∧
  (∀ dt port m, Writes [.now, .clk, .free, .emit, .cmd, .time, .flow, .vec] (.ptpSyncRx dt port m)) ∧
  (∀ dt port m, Writes [.now, .clk, .emit, .cmd, .time, .flow, .vec] (.ptpAnnounceRx dt port m)) ∧
  (∀ dt inst kind, Writes [.now, .clk, .emit, .time] (.ptpMessageSend dt inst kind)) ∧
  (∀ dt inst announce, Writes [.now, .clk, .emit, .cmd, .time, .flow, .vec] (.ptpSyncTimeout dt inst announce)) ∧
  (∀ dt, Writes [.now, .clk, .emit, .cmd, .time, .flow, .vec] (.domainReturnTimer dt)) ∧
  (∀ dt n at_ assert_, Writes [.now, .clk, .emit, .time] (.tioPulseEdge dt n at_ assert_)) ∧
  (∀ dt n at_ rising width,
    Writes [.now, .clk, .free, .emit, .cmd, .time, .flow, .vec] (.tioCaptureEdge dt n at_ rising width)) ∧
  (∀ dt n src value, Writes [.now, .clk, .emit, .cmd, .time, .flow, .lsk, .bridge, .vec] (.tioArm dt n src value)) ∧
  (∀ dt n src value, Writes [.now, .clk, .emit, .cmd, .time, .flow, .lsk, .bridge, .vec] (.tioStop dt n src value)) ∧
  (∀ dt n src, Writes [.now, .clk, .emit, .time, .lsk, .bridge, .vec, .shadows] (.tioCapRead dt n src)) ∧
  (∀ dt, Writes [.now, .clk, .emit, .cmd, .time, .flow, .vec] (.holdoverEntry dt)) ∧
  (∀ dt p domain origin tRx,
    Writes [.now, .clk, .emit, .cmd, .trunk, .ina, .sched, .time, .flow, .twin, .vec] (.trunkDomainSyncRx dt p domain origin tRx)) ∧
  (∀ dt p transitBusy, Writes [.now, .clk, .emit, .trunk, .sched, .flow] (.nonScheduledSend dt p transitBusy)) ∧
  (∀ dt, Writes [.now, .clk, .emit, .time] (.pd0Stop dt))

/-- R314–R396: what the twin and the lock-step pairs may change. -/
def Obligations.TwinAndLockstepFrames : Prop :=
  (∀ dt path h, Writes [.now, .clk, .emit, .cmd, .trunk, .sched, .flow, .twin, .vec] (.heartbeatRx dt path h)) ∧
  (∀ dt f, Writes [.now, .clk, .emit, .cmd, .flow, .twin, .lsk, .vec] (.rackingFrameRx dt f)) ∧
  (∀ dt, Writes [.now, .clk, .emit, .twin, .lsk] (.regionStagingApply dt)) ∧
  (∀ dt page addr data, Writes [.now, .clk, .emit, .twin, .lsk] (.copyOnWrite dt page addr data)) ∧
  (∀ dt l cycles, Writes [.now, .clk, .emit, .lsk] (.holdBufferStall dt l cycles)) ∧
  (∀ dt l core addr, Writes [.now, .clk, .emit, .lsk] (.pairAccessFault dt l core addr)) ∧
  (∀ dt l, Writes [.now, .clk, .emit, .lsk] (.handoverPoint dt l)) ∧
  (∀ dt l, Writes [.now, .clk, .emit, .cmd, .flow, .lsk, .vec] (.debugAccess dt l)) ∧
  (∀ dt l core value, Writes [.now, .clk, .emit, .lsk] (.pairReadyWrite dt l core value)) ∧
  (∀ dt room, Writes [.now, .clk, .emit, .twin, .lsk] (.rackingFrameSend dt room))

/-- R397–R462: what the CAN channels and the vehicle-bus segments may change; an event of one channel or segment leaves the others
as they were. -/
def Obligations.CanAndMvbFrames : Prop :=
  (∀ dt c f own, Writes [.now, .clk, .free, .emit, .cmd, .flow, .twin, .can, .vec] (.canFrameRx dt c f own)) ∧
  (∀ dt c tdcv, Writes [.now, .clk, .free, .emit, .cmd, .flow, .can, .vec] (.canTxComplete dt c tdcv)) ∧
  (∀ dt c, Writes [.now, .clk, .emit, .can, .vec] (.canArbitrationLost dt c)) ∧
  (∀ dt c e, Writes [.now, .clk, .free, .emit, .cmd, .flow, .can, .vec] (.canError dt c e)) ∧
  (∀ dt c occ, Writes [.now, .clk, .free, .emit, .cmd, .flow, .can, .vec] (.canRecoveryComplete dt c occ)) ∧
  (∀ dt c, Writes [.now, .clk, .free, .emit, .can] (.canIntegrationComplete dt c)) ∧
  (∀ dt c, Writes [.now, .clk, .emit, .cmd, .flow, .vec] (.canWakePattern dt c)) ∧
  (∀ dt c src value busy, Writes [.now, .clk, .free, .emit, .lsk, .can, .bridge, .vec] (.canModeWrite dt c src value busy)) ∧
  (∀ dt c m src value, Writes [.now, .clk, .free, .emit, .lsk, .can, .bridge, .vec] (.canTxrqWrite dt c m src value)) ∧
  (∀ dt c m src value, Writes [.now, .clk, .emit, .lsk, .can, .bridge, .vec] (.canTxcanWrite dt c m src value)) ∧
  (∀ dt c src value, Writes [.now, .clk, .free, .emit, .lsk, .can, .bridge, .vec] (.canHpbRequest dt c src value)) ∧
  (∀ dt c src value, Writes [.now, .clk, .free, .emit, .lsk, .can, .bridge, .vec] (.canHpbCancel dt c src value)) ∧
  (∀ dt c src value, Writes [.now, .clk, .emit, .lsk, .can, .bridge, .vec] (.canRecoverStart dt c src value)) ∧
  (∀ dt c src value, Writes [.now, .clk, .emit, .lsk, .can, .bridge, .vec] (.canFifoPop dt c src value)) ∧
  (∀ dt c o src, Writes [.now, .clk, .emit, .lsk, .can, .bridge, .vec] (.canObjectWord0Read dt c o src)) ∧
  (∀ dt c o word src value, Writes [.now, .clk, .emit, .lsk, .can, .bridge, .vec] (.canObjectWrite dt c o word src value)) ∧
  (∀ dt c src cycle, Writes [.now, .clk, .emit, .cmd, .flow, .lsk, .can, .bridge, .vec] (.canTtCommitWrite dt c src cycle)) ∧
  (∀ dt c count, Writes [.now, .clk, .emit, .cmd, .flow, .can, .vec] (.canReferenceRx dt c count)) ∧
  (∀ dt c, Writes [.now, .clk, .free, .emit, .cmd, .flow, .can, .vec] (.canReferenceAbandon dt c)) ∧
  (∀ dt c, Writes [.now, .clk, .emit, .cmd, .flow, .can, .vec] (.canSlaveRefTimeout dt c)) ∧
  (∀ dt c col idle, Writes [.now, .clk, .free, .emit, .can, .vec] (.canHatchWindow dt c col idle)) ∧
  (∀ dt c col, Writes [.now, .clk, .emit, .can, .vec] (.canHatchWindowEnd dt c col)) ∧
  (∀ dt g, Writes [.now, .clk, .free, .emit, .cmd, .flow, .mvb, .vec] (.mvbBasicPeriodStart dt g)) ∧
  (∀ dt g, Writes [.now, .clk, .free, .emit, .mvb] (.mvbMasterFrameSend dt g)) ∧
  (∀ dt g, Writes [.now, .clk, .emit, .mvb] (.mvbNoReplyTimeout dt g)) ∧
  (∀ dt g f, Writes [.now, .clk, .free, .emit, .cmd, .flow, .mvb, .vec] (.mvbMasterFrameRx dt g f)) ∧
  (∀ dt g f, Writes [.now, .clk, .emit, .cmd, .flow, .mvb, .vec] (.mvbSlaveFrameRx dt g f)) ∧
  (∀ dt, Writes [.now, .clk, .emit, .flow, .lsk, .can, .mvb] (.releaseDeadline dt)) ∧
  (∀ dt (c : Fin 12) f own s t, canForeign (canOf s c) f = false → exec (.canFrameRx dt c f own) s = .next t →
    ∀ j : Fin 12, j ≠ c → canOf t j = canOf s j) ∧
  (∀ dt c tdcv s t, exec (.canTxComplete dt c tdcv) s = .next t → ∀ j : Fin 12, j ≠ c → canOf t j = canOf s j) ∧
  (∀ dt c s t, exec (.canArbitrationLost dt c) s = .next t → ∀ j : Fin 12, j ≠ c → canOf t j = canOf s j) ∧
  (∀ dt c e s t, exec (.canError dt c e) s = .next t → ∀ j : Fin 12, j ≠ c → canOf t j = canOf s j) ∧
  (∀ dt c occ s t, exec (.canRecoveryComplete dt c occ) s = .next t → ∀ j : Fin 12, j ≠ c → canOf t j = canOf s j) ∧
  (∀ dt c s t, exec (.canIntegrationComplete dt c) s = .next t → ∀ j : Fin 12, j ≠ c → canOf t j = canOf s j) ∧
  (∀ dt c s t, exec (.canWakePattern dt c) s = .next t → ∀ j : Fin 12, j ≠ c → canOf t j = canOf s j) ∧
  (∀ dt c src value busy s t, exec (.canModeWrite dt c src value busy) s = .next t →
    ∀ j : Fin 12, j ≠ c → canOf t j = canOf s j) ∧
  (∀ dt c m src value s t, exec (.canTxrqWrite dt c m src value) s = .next t →
    ∀ j : Fin 12, j ≠ c → canOf t j = canOf s j) ∧
  (∀ dt c m src value s t, exec (.canTxcanWrite dt c m src value) s = .next t →
    ∀ j : Fin 12, j ≠ c → canOf t j = canOf s j) ∧
  (∀ dt c src value s t, exec (.canHpbRequest dt c src value) s = .next t → ∀ j : Fin 12, j ≠ c → canOf t j = canOf s j) ∧
  (∀ dt c src value s t, exec (.canHpbCancel dt c src value) s = .next t → ∀ j : Fin 12, j ≠ c → canOf t j = canOf s j) ∧
  (∀ dt c src value s t, exec (.canRecoverStart dt c src value) s = .next t →
    ∀ j : Fin 12, j ≠ c → canOf t j = canOf s j) ∧
  (∀ dt c src value s t, exec (.canFifoPop dt c src value) s = .next t → ∀ j : Fin 12, j ≠ c → canOf t j = canOf s j) ∧
  (∀ dt c o src s t, exec (.canObjectWord0Read dt c o src) s = .next t → ∀ j : Fin 12, j ≠ c → canOf t j = canOf s j) ∧
  (∀ dt c o word src value s t, exec (.canObjectWrite dt c o word src value) s = .next t →
    ∀ j : Fin 12, j ≠ c → canOf t j = canOf s j) ∧
  (∀ dt c src cycle s t, exec (.canTtCommitWrite dt c src cycle) s = .next t →
    ∀ j : Fin 12, j ≠ c → canOf t j = canOf s j) ∧
  (∀ dt c count s t, exec (.canReferenceRx dt c count) s = .next t → ∀ j : Fin 12, j ≠ c → canOf t j = canOf s j) ∧
  (∀ dt c s t, exec (.canReferenceAbandon dt c) s = .next t → ∀ j : Fin 12, j ≠ c → canOf t j = canOf s j) ∧
  (∀ dt c s t, exec (.canSlaveRefTimeout dt c) s = .next t → ∀ j : Fin 12, j ≠ c → canOf t j = canOf s j) ∧
  (∀ dt c col idle s t, exec (.canHatchWindow dt c col idle) s = .next t → ∀ j : Fin 12, j ≠ c → canOf t j = canOf s j) ∧
  (∀ dt c col s t, exec (.canHatchWindowEnd dt c col) s = .next t → ∀ j : Fin 12, j ≠ c → canOf t j = canOf s j) ∧
  (∀ dt g s t, exec (.mvbBasicPeriodStart dt g) s = .next t → ∀ j : Fin 2, j ≠ g → mvbOf t j = mvbOf s j) ∧
  (∀ dt g s t, exec (.mvbMasterFrameSend dt g) s = .next t → ∀ j : Fin 2, j ≠ g → mvbOf t j = mvbOf s j) ∧
  (∀ dt g s t, exec (.mvbNoReplyTimeout dt g) s = .next t → ∀ j : Fin 2, j ≠ g → mvbOf t j = mvbOf s j) ∧
  (∀ dt g f s t, exec (.mvbMasterFrameRx dt g f) s = .next t → ∀ j : Fin 2, j ≠ g → mvbOf t j = mvbOf s j) ∧
  (∀ dt g f s t, exec (.mvbSlaveFrameRx dt g f) s = .next t → ∀ j : Fin 2, j ≠ g → mvbOf t j = mvbOf s j)

/-- R463–R544: what the switch core, the fabric links and the bridge may change. -/
def Obligations.SwitchFabricBridgeFrames : Prop :=
  (∀ dt f, Writes [.now, .clk, .free, .emit, .trunk, .sched, .lsk, .swc, .fab] (.consistFrameRx dt f)) ∧
  (∀ dt port queue, Writes [.now, .clk, .emit, .swc] (.consistFrameEgress dt port queue)) ∧
  (∀ dt mac vid, Writes [.now, .clk, .emit, .swc] (.addressAgeing dt mac vid)) ∧
  (∀ dt handle, Writes [.now, .clk, .emit, .swc] (.frerResetTimer dt handle)) ∧
  (∀ dt port m, Writes [.now, .clk, .free, .emit, .cmd, .flow, .swc, .vec] (.mkaPduRx dt port m)) ∧
  (∀ dt port, Writes [.now, .clk, .emit, .cmd, .flow, .swc, .vec] (.sakDistribute dt port)) ∧
  (∀ dt port up speed t1Master,
    Writes [.now, .clk, .emit, .cmd, .time, .flow, .swc, .vec] (.consistLinkChange dt port up speed t1Master)) ∧
  (∀ dt k, Writes [.now, .clk, .emit, .fab] (.fabricBeaconSend dt k)) ∧
  (∀ dt k b, Writes [.now, .clk, .emit, .cmd, .ina, .flow, .fab, .vec] (.fabricBeaconRx dt k b)) ∧
  (∀ dt k, Writes [.now, .clk, .emit, .fab] (.fabricAckTimeout dt k)) ∧
  (∀ dt k, Writes [.now, .clk, .emit, .cmd, .flow, .fab, .vec] (.fabricLinkDown dt k)) ∧
  (∀ dt k, Writes [.now, .clk, .emit, .cmd, .flow, .fab, .vec] (.fabricLinkUp dt k)) ∧
  (∀ dt k lane errors, Writes [.now, .clk, .emit, .cmd, .flow, .fab, .vec, .rep] (.fabricLaneSwitch dt k lane errors)) ∧
  (∀ dt k errors, Writes [.now, .clk, .emit, .fab] (.spareLaneGood dt k errors)) ∧
  (∀ dt p r, Writes [.now, .clk, .emit, .trunk, .ina, .sched] (.fabricReportRx dt p r)) ∧
  (∀ dt, Writes [.now, .clk, .emit, .fab] (.fabricTickSend dt)) ∧
  (∀ dt k t tRx residence,
    Writes [.now, .clk, .emit, .cmd, .trunk, .ina, .sched, .time, .flow, .twin, .fab, .vec]
      (.fabricTickRx dt k t tRx residence)) ∧
  (∀ dt slot entry f, Writes [.now, .clk, .emit, .fab] (.proxyFrameRx dt slot entry f)) ∧
  (∀ dt slot flows, Writes [.now, .clk, .emit, .fab] (.fabricSubscribeRx dt slot flows)) ∧
  (∀ dt p r, Writes [.now, .clk, .emit, .trunk, .sched, .fab, .bridge] (.bridgeWithdrawRx dt p r)) ∧
  (∀ dt, Writes [.now, .clk, .emit, .bridge, .vec] (.bridgeFetchStale dt)) ∧
  (∀ dt, Writes [.now, .clk, .emit, .trunk, .sched, .fab, .bridge, .vec] (.bridgeBusyRetry dt)) ∧
  (∀ dt src k, Writes [.now, .clk, .emit, .bridge, .vec] (.fabSemRead dt src k)) ∧
  (∀ dt src k value, Writes [.now, .clk, .emit, .bridge, .vec] (.fabSemWrite dt src k value)) ∧
  (∀ dt k, Writes [.now, .clk, .emit, .cmd, .flow, .bridge, .vec] (.semTmoExpiry dt k)) ∧
  (∀ dt src value, Writes [.now, .clk, .emit, .bridge, .vec] (.fabVecPendWrite dt src value))

/-- R598–R697: what start, reset, supply, power states, self-test, repair and the recorder may change. -/
def Obligations.PowerAndRepairFrames : Prop :=
  (∀ dt p, Writes [.now, .clk, .emit, .sys, .trunk, .time, .can, .pwr] (.powerGood dt p)) ∧
  (∀ dt, Writes [.now, .clk, .emit, .sys] (.startRetry dt)) ∧
  (∀ dt, Writes [.now, .clk, .emit, .sys] (.perstAssert dt)) ∧
  (∀ dt, Writes [.now, .clk, .emit, .sys] (.perstRelease dt)) ∧
  (∀ dt, Writes [.now, .clk, .emit, .cmd, .trunk, .ina, .sched, .flow, .vec] (.supervisorFatalFault dt)) ∧
  (∀ dt vin,
    Writes [.now, .clk, .emit, .cmd, .trunk, .ina, .sched, .time, .flow, .lsk, .can, .mvb, .vec, .pwr, .shadows]
      (.inputVoltageChange dt vin)) ∧
  (∀ dt vstore, Writes [.now, .clk, .emit, .pwr] (.storeOkChange dt vstore)) ∧
  (∀ dt vin vstore,
    Writes [.now, .clk, .emit, .cmd, .trunk, .time, .flow, .lsk, .can, .mvb, .vec, .pwr, .shadows]
      (.lossDeclared dt vin vstore)) ∧
  (∀ dt case die,
    Writes [.now, .clk, .emit, .cmd, .trunk, .time, .flow, .lsk, .can, .mvb, .vec, .pwr, .shadows]
      (.thermalChange dt case die)) ∧
  (∀ dt d idle next, Writes [.now, .clk, .emit, .pwr] (.powerDomainIdle dt d idle next)) ∧
  (∀ dt d, Writes [.now, .clk, .emit, .pwr] (.domainWakeTimer dt d)) ∧
  (∀ dt d due, Writes [.now, .clk, .emit, .pwr] (.asyncDomainWake dt d due)) ∧
  (∀ dt src port, Writes [.now, .clk, .emit, .sys, .pwr] (.wakeSource dt src port)) ∧
  (∀ dt, Writes [.now, .clk, .emit, .sys, .pwr] (.wakeLLowTimeout dt)) ∧
  (∀ dt e, Writes [.now, .clk, .free, .emit, .cmd, .flow, .lsk, .swc, .vec, .rep] (.memoryEccError dt e)) ∧
  (∀ dt w, Writes [.now, .clk, .emit, .cmd, .flow, .vec, .rep] (.scrubSlice dt w)) ∧
  (∀ dt bank, Writes [.now, .clk, .emit, .cmd, .flow, .swc, .vec, .rep] (.bankDrainComplete dt bank)) ∧
  (∀ dt, Writes [.now, .clk, .emit, .lsk, .rep] (.rotationStep dt)) ∧
  (∀ dt phys passed monitors,
    Writes [.now, .clk, .emit, .cmd, .flow, .lsk, .vec, .rep] (.logicSelfTestComplete dt phys passed monitors)) ∧
  (∀ dt monitors, Writes [.now, .clk, .emit, .rep] (.agingMonitorRead dt monitors)) ∧
  (∀ dt, Writes [.now, .clk, .emit, .sys, .cmd, .trunk, .ina, .sched, .time, .flow, .can, .mvb, .vec] (.jtagExtest dt))

/-- R4–R13, R545–R594: what the accesses of a host or a lock-step pair may change. -/
def Obligations.HostAccessFrames : Prop :=
  (∀ dt src mbx,
    Writes [.now, .clk, .emit, .mbx, .cmd, .time, .flow, .lsk, .can, .bridge, .vec, .shadows] (.mbxLockRead dt src mbx)) ∧
  (∀ dt src mbx value, Writes [.now, .clk, .emit, .mbx, .lsk, .bridge, .vec] (.mbxLockWrite dt src mbx value)) ∧
  (∀ dt src value, Writes [.now, .clk, .emit, .cmd, .lsk, .bridge, .vec] (.evqRdWrite dt src value)) ∧
  (∀ dt, Writes [.now, .clk, .emit, .cmd, .vec] (.evqHoldTimeout dt)) ∧
  (∀ dt src value, Writes [.now, .clk, .emit, .flow, .lsk, .bridge, .vec] (.pdiReleaseHost dt src value)) ∧
  (∀ dt l value, Writes [.now, .clk, .emit, .flow, .lsk, .bridge, .vec] (.pdiReleasePair dt l value)) ∧
  (∀ dt src value, Writes [.now, .clk, .emit, .flow, .lsk, .bridge, .vec] (.pdiRelMaskWrite dt src value)) ∧
  (∀ dt src addr,
    Writes [.now, .clk, .emit, .mbx, .cmd, .time, .flow, .lsk, .can, .bridge, .vec, .shadows]
      (.multiRegisterLatchRead dt src addr)) ∧
  (∀ dt src addr,
    Writes [.now, .clk, .emit, .mbx, .cmd, .time, .flow, .lsk, .can, .bridge, .vec, .shadows] (.rcFieldRead dt src addr)) ∧
  (∀ dt seq status,
    Writes [.now, .clk, .emit, .sys, .cmd, .time, .flow, .can, .swc, .vec, .shelf] (.queuedCommandComplete dt seq status)) ∧
  (∀ dt, Writes [.now, .clk, .emit, .flow, .vec] (.nextOpenSet dt))

/-- R545–R563: what the commands rung through a mailbox may change, whatever their request and however they are answered. -/
def Obligations.MailboxCommandFrames : Prop :=
  (∀ dt r, Writes [.now, .clk, .free, .emit, .sys, .mbx, .cmd, .vec, .shelf] (.sysIdentity dt r)) ∧
  (∀ dt r, Writes [.now, .clk, .free, .emit, .sys, .mbx, .cmd, .vec, .shelf] (.sysNop dt r)) ∧
  (∀ dt r, Writes [.now, .clk, .free, .emit, .sys, .mbx, .cmd, .trunk, .ina, .sched, .time, .flow, .twin, .lsk, .mvb, .swc, .vec, .pwr, .rep, .shelf] (.sysReset dt r)) ∧
  (∀ dt r, Writes [.now, .clk, .free, .emit, .sys, .mbx, .cmd, .vec, .shelf] (.sysEventMask dt r)) ∧
  (∀ dt r, Writes [.now, .clk, .free, .emit, .sys, .mbx, .cmd, .vec, .shelf] (.sysPatchStage dt r)) ∧
  (∀ dt r, Writes [.now, .clk, .free, .emit, .sys, .mbx, .cmd, .vec, .shelf] (.sysPatchVerify dt r)) ∧
  (∀ dt r, Writes [.now, .clk, .free, .emit, .sys, .mbx, .cmd, .vec, .shelf] (.sysLogRead dt r)) ∧
  (∀ dt r, Writes [.now, .clk, .free, .emit, .sys, .mbx, .cmd, .vec, .shelf] (.sysProfileConfirm dt r)) ∧
  (∀ dt r, Writes [.now, .clk, .free, .emit, .sys, .mbx, .cmd, .flow, .vec, .shelf] (.sysDebugNonce dt r)) ∧
  (∀ dt r, Writes [.now, .clk, .free, .emit, .sys, .mbx, .cmd, .flow, .vec, .shelf] (.sysDebugUnlock dt r)) ∧
  (∀ dt r, Writes [.now, .clk, .free, .emit, .sys, .mbx, .cmd, .flow, .vec, .shelf] (.sysDebugRelock dt r)) ∧
  (∀ dt r, Writes [.now, .clk, .free, .emit, .sys, .mbx, .cmd, .ina, .vec, .shelf] (.topoStatus dt r)) ∧
  (∀ dt r, Writes [.now, .clk, .free, .emit, .sys, .mbx, .cmd, .vec, .shelf] (.topoDirectory dt r)) ∧
  (∀ dt r, Writes [.now, .clk, .free, .emit, .sys, .mbx, .cmd, .vec, .shelf] (.topoPositionMap dt r)) ∧
  (∀ dt r, Writes [.now, .clk, .free, .emit, .sys, .mbx, .cmd, .ina, .flow, .vec, .shelf] (.topoSetLeading dt r)) ∧
  (∀ dt r, Writes [.now, .clk, .free, .emit, .sys, .mbx, .cmd, .ina, .vec, .shelf] (.topoSetIdentity dt r)) ∧
  (∀ dt r, Writes [.now, .clk, .free, .emit, .sys, .mbx, .cmd, .ina, .time, .flow, .twin, .vec, .shelf] (.topoColdStart dt r)) ∧
  (∀ dt r, Writes [.now, .clk, .free, .emit, .sys, .mbx, .cmd, .trunk, .flow, .vec, .shelf] (.trunkSetPolicy dt r)) ∧
  (∀ dt r, Writes [.now, .clk, .free, .emit, .sys, .mbx, .cmd, .trunk, .vec, .shelf] (.trunkStatus dt r)) ∧
  (∀ dt r, Writes [.now, .clk, .free, .emit, .sys, .mbx, .cmd, .trunk, .vec, .shelf] (.trunkBypassPassive dt r)) ∧
  (∀ dt r, Writes [.now, .clk, .free, .emit, .sys, .mbx, .cmd, .trunk, .vec, .shelf] (.trunkBypassActive dt r)) ∧
  (∀ dt r, Writes [.now, .clk, .free, .emit, .sys, .mbx, .cmd, .trunk, .flow, .vec, .shelf] (.trunkRetrain dt r)) ∧
  (∀ dt r, Writes [.now, .clk, .free, .emit, .sys, .mbx, .cmd, .sched, .vec, .shelf] (.schedStatus dt r)) ∧
  (∀ dt r, Writes [.now, .clk, .free, .emit, .sys, .mbx, .cmd, .sched, .vec, .shelf] (.schedStage dt r)) ∧
  (∀ dt r, Writes [.now, .clk, .free, .emit, .sys, .mbx, .cmd, .sched, .vec, .shelf] (.schedVerify dt r)) ∧
  (∀ dt r, Writes [.now, .clk, .free, .emit, .sys, .mbx, .cmd, .sched, .vec, .shelf] (.schedHold dt r)) ∧
  (∀ dt r,
    Writes [.now, .clk, .free, .emit, .sys, .mbx, .cmd, .ina, .sched, .flow, .can, .mvb, .swc, .vec, .shelf]
      (.schedActivate dt r)) ∧
  (∀ dt r, Writes [.now, .clk, .free, .emit, .sys, .mbx, .cmd, .sched, .vec, .shelf] (.schedRelease dt r)) ∧
  (∀ dt r, Writes [.now, .clk, .free, .emit, .sys, .mbx, .cmd, .sched, .vec, .shelf] (.schedEntryStatus dt r)) ∧
  (∀ dt r, Writes [.now, .clk, .free, .emit, .sys, .mbx, .cmd, .time, .vec, .shelf] (.timeStatus dt r)) ∧
  (∀ dt r, Writes [.now, .clk, .free, .emit, .sys, .mbx, .cmd, .trunk, .time, .flow, .vec, .shelf] (.timeSet dt r)) ∧
  (∀ dt r, Writes [.now, .clk, .free, .emit, .sys, .mbx, .cmd, .time, .vec, .shelf] (.timePtpConfig dt r)) ∧
  (∀ dt r, Writes [.now, .clk, .free, .emit, .sys, .mbx, .cmd, .time, .flow, .vec, .shelf] (.timeDomainPolicy dt r)) ∧
  (∀ dt r, Writes [.now, .clk, .free, .emit, .sys, .mbx, .cmd, .time, .vec, .shelf] (.timeSteer dt r)) ∧
  (∀ dt r, Writes [.now, .clk, .free, .emit, .sys, .mbx, .cmd, .time, .vec, .shelf] (.timePtpStatus dt r)) ∧
  (∀ dt r, Writes [.now, .clk, .free, .emit, .sys, .mbx, .cmd, .flow, .vec, .shelf] (.flowSet dt r)) ∧
  (∀ dt r, Writes [.now, .clk, .free, .emit, .sys, .mbx, .cmd, .vec, .shelf] (.flowGet dt r)) ∧
  (∀ dt r, Writes [.now, .clk, .free, .emit, .sys, .mbx, .cmd, .flow, .vec, .shelf] (.flowStatus dt r)) ∧
  (∀ dt r, Writes [.now, .clk, .free, .emit, .sys, .mbx, .cmd, .vec, .shelf] (.flowSave dt r)) ∧
  (∀ dt r, Writes [.now, .clk, .free, .emit, .sys, .mbx, .cmd, .flow, .vec, .shelf] (.flowMacsecKey dt r)) ∧
  (∀ dt r, Writes [.now, .clk, .free, .emit, .sys, .mbx, .cmd, .trunk, .sched, .flow, .fab, .vec, .shelf] (.sessionOpen dt r)) ∧
  (∀ dt r, Writes [.now, .clk, .free, .emit, .sys, .mbx, .cmd, .trunk, .sched, .flow, .fab, .vec, .shelf] (.sessionSend dt r)) ∧
  (∀ dt r, Writes [.now, .clk, .free, .emit, .sys, .mbx, .cmd, .flow, .vec, .shelf] (.sessionRecv dt r)) ∧
  (∀ dt r,
    Writes [.now, .clk, .free, .emit, .sys, .mbx, .cmd, .trunk, .sched, .flow, .fab, .vec, .shelf] (.sessionClose dt r)) ∧
  (∀ dt r, Writes [.now, .clk, .free, .emit, .sys, .mbx, .cmd, .twin, .vec, .shelf] (.twinStatus dt r)) ∧
  (∀ dt r, Writes [.now, .clk, .free, .emit, .sys, .mbx, .cmd, .twin, .vec, .shelf] (.twinConfig dt r)) ∧
  (∀ dt r, Writes [.now, .clk, .free, .emit, .sys, .mbx, .cmd, .twin, .vec, .shelf] (.twinSwitchover dt r)) ∧
  (∀ dt r, Writes [.now, .clk, .free, .emit, .sys, .mbx, .cmd, .twin, .vec, .shelf] (.twinServiceOut dt r)) ∧
  (∀ dt r, Writes [.now, .clk, .free, .emit, .sys, .mbx, .cmd, .twin, .vec, .shelf] (.twinServiceReturn dt r)) ∧
  (∀ dt r, Writes [.now, .clk, .free, .emit, .sys, .mbx, .cmd, .twin, .vec, .shelf] (.twinRenew dt r)) ∧
  (∀ dt r, Writes [.now, .clk, .free, .emit, .sys, .mbx, .cmd, .lsk, .vec, .shelf] (.lskStatus dt r)) ∧
  (∀ dt r, Writes [.now, .clk, .free, .emit, .sys, .mbx, .cmd, .lsk, .vec, .shelf] (.lskPairConfig dt r)) ∧
  (∀ dt r, Writes [.now, .clk, .free, .emit, .sys, .mbx, .cmd, .lsk, .vec, .shelf] (.lskPairReset dt r)) ∧
  (∀ dt r, Writes [.now, .clk, .free, .emit, .sys, .mbx, .cmd, .lsk, .vec, .shelf] (.lskSplit dt r)) ∧
  (∀ dt r, Writes [.now, .clk, .free, .emit, .sys, .mbx, .cmd, .lsk, .vec, .shelf] (.lskRejoin dt r)) ∧
  (∀ dt r, Writes [.now, .clk, .free, .emit, .sys, .mbx, .cmd, .lsk, .vec, .shelf] (.lskSubstitute dt r)) ∧
  (∀ dt r, Writes [.now, .clk, .free, .emit, .sys, .mbx, .cmd, .vec, .shelf] (.canSave dt r)) ∧
  (∀ dt r, Writes [.now, .clk, .free, .emit, .sys, .mbx, .cmd, .can, .vec, .shelf] (.canLoad dt r)) ∧
  (∀ dt r, Writes [.now, .clk, .free, .emit, .sys, .mbx, .cmd, .mvb, .vec, .shelf] (.mvbConfig dt r)) ∧
  (∀ dt r, Writes [.now, .clk, .free, .emit, .sys, .mbx, .cmd, .mvb, .vec, .shelf] (.mvbPollStage dt r)) ∧
  (∀ dt r, Writes [.now, .clk, .free, .emit, .sys, .mbx, .cmd, .mvb, .vec, .shelf] (.mvbPollCommit dt r)) ∧
  (∀ dt r, Writes [.now, .clk, .free, .emit, .sys, .mbx, .cmd, .mvb, .vec, .shelf] (.mvbPortSet dt r)) ∧
  (∀ dt r, Writes [.now, .clk, .free, .emit, .sys, .mbx, .cmd, .mvb, .vec, .shelf] (.mvbPortWrite dt r)) ∧
  (∀ dt r, Writes [.now, .clk, .free, .emit, .sys, .mbx, .cmd, .vec, .shelf] (.mvbPortRead dt r)) ∧
  (∀ dt r, Writes [.now, .clk, .free, .emit, .sys, .mbx, .cmd, .mvb, .vec, .shelf] (.mvbStatus dt r)) ∧
  (∀ dt r, Writes [.now, .clk, .free, .emit, .sys, .mbx, .cmd, .swc, .vec, .shelf] (.swcPortConfig dt r)) ∧
  (∀ dt r, Writes [.now, .clk, .free, .emit, .sys, .mbx, .cmd, .swc, .vec, .shelf] (.swcPortStatus dt r)) ∧
  (∀ dt r, Writes [.now, .clk, .free, .emit, .sys, .mbx, .cmd, .swc, .vec, .shelf] (.swcVlanSet dt r)) ∧
  (∀ dt r, Writes [.now, .clk, .free, .emit, .sys, .mbx, .cmd, .swc, .vec, .shelf] (.swcStreamSet dt r)) ∧
  (∀ dt r, Writes [.now, .clk, .free, .emit, .sys, .mbx, .cmd, .swc, .vec, .shelf] (.swcGclStage dt r)) ∧
  (∀ dt r, Writes [.now, .clk, .free, .emit, .sys, .mbx, .cmd, .swc, .vec, .shelf] (.swcGclCommit dt r)) ∧
  (∀ dt r, Writes [.now, .clk, .free, .emit, .sys, .mbx, .cmd, .swc, .vec, .shelf] (.swcMacsecKey dt r)) ∧
  (∀ dt r, Writes [.now, .clk, .free, .emit, .sys, .mbx, .cmd, .swc, .vec, .shelf] (.swcStreamStatus dt r)) ∧
  (∀ dt r, Writes [.now, .clk, .free, .emit, .sys, .mbx, .cmd, .vec, .shelf] (.swcSave dt r)) ∧
  (∀ dt r, Writes [.now, .clk, .free, .emit, .sys, .mbx, .cmd, .fab, .vec, .shelf] (.fabStatus dt r)) ∧
  (∀ dt r, Writes [.now, .clk, .free, .emit, .sys, .mbx, .cmd, .trunk, .flow, .fab, .vec, .shelf] (.fabConfig dt r)) ∧
  (∀ dt r, Writes [.now, .clk, .free, .emit, .sys, .mbx, .cmd, .bridge, .vec, .shelf] (.fabWindowSet dt r)) ∧
  (∀ dt r, Writes [.now, .clk, .free, .emit, .sys, .mbx, .cmd, .fab, .vec, .shelf] (.fabSlotTable dt r)) ∧
  (∀ dt r, Writes [.now, .clk, .free, .emit, .sys, .mbx, .cmd, .bridge, .vec, .shelf] (.fabBridgeStatus dt r)) ∧
  (∀ dt r, Writes [.now, .clk, .free, .emit, .sys, .mbx, .cmd, .bridge, .vec, .shelf] (.fabPwlog dt r)) ∧
  (∀ dt r, Writes [.now, .clk, .free, .emit, .sys, .mbx, .cmd, .flow, .bridge, .vec, .shelf] (.fabSemRelease dt r)) ∧
  (∀ dt r, Writes [.now, .clk, .free, .emit, .sys, .mbx, .cmd, .vec, .pwr, .shelf] (.pwrStatus dt r)) ∧
  (∀ dt r, Writes [.now, .clk, .free, .emit, .sys, .mbx, .cmd, .vec, .pwr, .shelf] (.pwrDomainConfig dt r)) ∧
  (∀ dt r, Writes [.now, .clk, .free, .emit, .sys, .mbx, .cmd, .flow, .vec, .pwr, .shelf] (.pwrPark dt r)) ∧
  (∀ dt r, Writes [.now, .clk, .free, .emit, .sys, .mbx, .cmd, .flow, .vec, .pwr, .shelf] (.pwrParkWithdraw dt r)) ∧
  (∀ dt r, Writes [.now, .clk, .free, .emit, .sys, .mbx, .cmd, .flow, .vec, .pwr, .shelf] (.pwrKiln dt r)) ∧
  (∀ dt r, Writes [.now, .clk, .free, .emit, .sys, .mbx, .cmd, .flow, .vec, .pwr, .shelf] (.pwrKilnWithdraw dt r)) ∧
  (∀ dt r, Writes [.now, .clk, .free, .emit, .sys, .mbx, .cmd, .vec, .pwr, .shelf] (.pwrWakeConfig dt r)) ∧
  (∀ dt r, Writes [.now, .clk, .free, .emit, .sys, .mbx, .cmd, .vec, .rep, .shelf] (.repStatus dt r)) ∧
  (∀ dt r, Writes [.now, .clk, .free, .emit, .sys, .mbx, .cmd, .vec, .shelf] (.repLog dt r)) ∧
  (∀ dt r, Writes [.now, .clk, .free, .emit, .sys, .mbx, .cmd, .lsk, .vec, .rep, .shelf] (.repTest dt r)) ∧
  (∀ dt r, Writes [.now, .clk, .free, .emit, .sys, .mbx, .cmd, .vec, .rep, .shelf] (.repCalibrate dt r)) ∧
  (∀ dt r, Writes [.now, .clk, .free, .emit, .sys, .mbx, .cmd, .vec, .rep, .shelf] (.repRotation dt r)) ∧
  (∀ dt r, Writes [.now, .clk, .free, .emit, .sys, .mbx, .cmd, .vec, .shelf] (.recStatus dt r)) ∧
  (∀ dt r, Writes [.now, .clk, .free, .emit, .sys, .mbx, .cmd, .flow, .vec, .shelf] (.recConfig dt r)) ∧
  (∀ dt r, Writes [.now, .clk, .free, .emit, .sys, .mbx, .cmd, .flow, .vec, .shelf] (.recTrigger dt r)) ∧
  (∀ dt r, Writes [.now, .clk, .free, .emit, .sys, .mbx, .cmd, .vec, .shelf] (.recCask dt r)) ∧
  (∀ dt r, Writes [.now, .clk, .free, .emit, .sys, .mbx, .cmd, .flow, .vec, .shelf] (.recRelease dt r)) ∧
  (∀ dt r, Writes [.now, .clk, .free, .emit, .sys, .mbx, .cmd, .flow, .vec, .shelf] (.recPage dt r))
end

