-- ==== Sys2Proof/Laws/Kept.lean ====
section
/-! SUPPORT. What every operation leaves alone: the waiting commands, the fused identity and the parts the node lists
(`Kept`). Here the rules for a record update, a choice and a fold; the operations follow in the files Kept<subject>. -/

namespace Sys2Proof.Machine

/-- What is to stay: the waiting commands and the fused identity. -/
abbrev Keep := List Instr × Fused

/-- `Kept` in terms of the fields it reads. -/
def KeptParts (K : Keep) (p : List Instr) (f : Fused) (a b c d e g h i : Nat) : Prop :=
  p = K.1 ∧ f = K.2 ∧ (⟨a, b, c, d, e, g, h, i⟩ : Parts) = nodeParts

@[simp] theorem kept_mk (K : Keep) (p n c fr e sys cmd trunk ina sched time flow twin lsk can mvb swc fab bridge pwr rep
    shelf shadows s1 s2 s3) :
    Kept K (State.mk p n c fr e sys cmd trunk ina sched time flow twin lsk can mvb swc fab bridge pwr rep shelf shadows s1 s2 s3) ↔
    KeptParts K p (fusedOf sys) cmd.mbx.length trunk.ports.length can.length mvb.length lsk.pairs.length fab.links.length
      time.tio.length pwr.doms.length := Iff.rfl

@[simp] theorem kept_fold (K : Keep) (s : State) :
    KeptParts K s.pending (fusedOf s.sys) s.cmd.mbx.length s.trunk.ports.length s.can.length s.mvb.length s.lsk.pairs.length
      s.fab.links.length s.time.tio.length s.pwr.doms.length ↔ Kept K s := Iff.rfl

@[simp] theorem updAt_len {α : Type} (l : List α) (i : Nat) (f : α → α) : (updAt l i f).length = l.length := by
  induction l generalizing i with
  | nil => rfl
  | cons x xs ih => cases i <;> simp [updAt, ih]

@[simp] theorem fusedOf_mk (a b c d e f g h i j k l m n o p q r s t u v w x y z aa ab ac ad ae af ag ah ai aj) :
  fusedOf (Sys.mk a b c d e f g h i j k l m n o p q r s t u v w x y z aa ab ac ad ae af ag ah ai aj) = ⟨a,b,c,d,e,f⟩ := rfl

@[simp] theorem fused_fold (y : Sys) : (⟨y.uid,y.ordering,y.revision,y.dateYear,y.dateWeek,y.romMinor⟩ : Fused) = fusedOf y := rfl

@[simp] theorem kept_ite (K : Keep) (c : Prop) [Decidable c] (a b : State) :
    Kept K (if c then a else b) ↔ if c then Kept K a else Kept K b := by split <;> rfl

@[simp] theorem snd_ite {α : Type} (c : Prop) [Decidable c] (a b : α × State) :
    (if c then a else b).2 = if c then a.2 else b.2 := by split <;> rfl

theorem kept_foldl {α : Type} (K : Keep) (f : State → α → State) (h : ∀ s x, Kept K (f s x) ↔ Kept K s) (l : List α) (s : State) :
    Kept K (l.foldl f s) ↔ Kept K s := by
  induction l generalizing s with
  | nil => rfl
  | cons x xs ih => simp [ih, h]

@[simp] theorem foldl_updAt_len {α β : Type} (l : List β) (i : β → Nat) (f : β → α → α) (d : List α) :
    (l.foldl (fun d x => updAt d (i x) (f x)) d).length = d.length := by
  induction l generalizing d with
  | nil => rfl
  | cons x xs ih => simp [ih]

theorem kept_if {K : Keep} {c : Prop} [Decidable c] {a b s : State} (ha : Kept K a ↔ Kept K s) (hb : Kept K b ↔ Kept K s) :
    Kept K (if c then a else b) ↔ Kept K s := by split <;> assumption

end Sys2Proof.Machine
end

