-- ==== Sys2Proof/Laws/KeptOps.lean ====
section
/-! SUPPORT. The shared operations, the mailboxes and the accesses keep what `Kept` names. -/

namespace Sys2Proof.Machine

@[simp] theorem begin__kept (K : Keep) (dt : Nat) (s : State) : Kept K (begin_ dt s) ↔ Kept K s := by
  unfold begin_; simp

@[simp] theorem takeFree_kept (K : Keep) (n : Nat) (s : State) : Kept K ((takeFree n s).2) ↔ Kept K s := by
  unfold takeFree; simp

@[simp] theorem emit_kept (K : Keep) (e : Emission) (s : State) : Kept K (emit e s) ↔ Kept K s := by
  unfold emit; simp

@[simp] theorem emits_kept (K : Keep) (es : List Emission) (s : State) : Kept K (emits es s) ↔ Kept K s := by
  unfold emits; exact kept_foldl K _ (fun s x => by simp) es s

@[simp] theorem modIna_kept (K : Keep) (f : Ina → Ina) (s : State) : Kept K (modIna f s) ↔ Kept K s := by
  unfold modIna; simp

@[simp] theorem modPort_kept (K : Keep) (p : Nat) (f : Port → Port) (s : State) :
    Kept K (modPort p f s) ↔ Kept K s := by
  unfold modPort; simp

@[simp] theorem modCmd_kept (K : Keep) (f : Cmd → Cmd) (s : State) (h : ∀ x, (f x).mbx.length = x.mbx.length) :
    Kept K (modCmd f s) ↔ Kept K s := by
  unfold modCmd; simp [h]

@[simp] theorem modMbx_kept (K : Keep) (n : Nat) (f : Mailbox → Mailbox) (s : State) :
    Kept K (modMbx n f s) ↔ Kept K s := by
  unfold modMbx; simp

@[simp] theorem modCan_kept (K : Keep) (c : Nat) (f : Can → Can) (s : State) : Kept K (modCan c f s) ↔ Kept K s := by
  unfold modCan; simp

@[simp] theorem modMvb_kept (K : Keep) (g : Nat) (f : Mvb → Mvb) (s : State) : Kept K (modMvb g f s) ↔ Kept K s := by
  unfold modMvb; simp

@[simp] theorem modPair_kept (K : Keep) (l : Nat) (f : Pair → Pair) (s : State) :
    Kept K (modPair l f s) ↔ Kept K s := by
  unfold modPair; simp

@[simp] theorem modTio_kept (K : Keep) (n : Nat) (f : Tio → Tio) (s : State) : Kept K (modTio n f s) ↔ Kept K s := by
  unfold modTio; simp

@[simp] theorem modSw_kept (K : Keep) (p : Nat) (f : SwPort → SwPort) (s : State) :
    Kept K (modSw p f s) ↔ Kept K s := by
  unfold modSw; simp

@[simp] theorem modFab_kept (K : Keep) (k : Nat) (f : FabLink → FabLink) (s : State) :
    Kept K (modFab k f s) ↔ Kept K s := by
  unfold modFab; simp

@[simp] theorem modFlow_kept (K : Keep) (f : Flow → Flow) (s : State) : Kept K (modFlow f s) ↔ Kept K s := by
  unfold modFlow; simp

@[simp] theorem raiseVector_kept (K : Keep) (v : BitVec 5) (s : State) : Kept K (raiseVector v s) ↔ Kept K s := by
  unfold raiseVector; simp

@[simp] theorem raiseQueue_kept (K : Keep) (s : State) : Kept K (raiseQueue s) ↔ Kept K s := by
  unfold raiseQueue; simp

@[simp] theorem queueEvent_kept (K : Keep) (e : Event) (s : State) : Kept K (queueEvent e s) ↔ Kept K s := by
  unfold queueEvent; simp

@[simp] theorem recordEvent_kept (K : Keep) (e : Event) (s : State) : Kept K (recordEvent e s) ↔ Kept K s := by
  unfold recordEvent; simp

@[simp] theorem raiseAt_kept (K : Keep) (t code : Nat) (param : List Byte) (s : State) :
    Kept K (raiseAt t code param s) ↔ Kept K s := by
  unfold raiseAt; simp

@[simp] theorem raise_kept (K : Keep) (code : Nat) (param : List Byte) (s : State) :
    Kept K (raise code param s) ↔ Kept K s := by
  unfold raise; simp

@[simp] theorem raiseLogOnly_kept (K : Keep) (code : Nat) (param : List Byte) (s : State) :
    Kept K (raiseLogOnly code param s) ↔ Kept K s := by
  unfold raiseLogOnly; simp

@[simp] theorem forEach_kept {α : Type} (K : Keep) (l : List α) (f : α → State → State) (s : State)
    (h : ∀ x s, Kept K (f x s) ↔ Kept K s) : Kept K (forEach l f s) ↔ Kept K s := by
  unfold forEach; exact kept_foldl K _ (fun s x => h x s) l s

@[simp] theorem completeEvent_kept (K : Keep) (q : Queued) (status : Nat) (s : State) :
    Kept K (completeEvent q status s) ↔ Kept K s := by
  unfold completeEvent; simp

@[simp] theorem finishQueued_kept (K : Keep) (p : Queued → Bool) (status : Nat) (s : State) :
    Kept K (finishQueued p status s) ↔ Kept K s := by
  unfold finishQueued; simp

@[simp] theorem refuseRing_kept (K : Keep) (n : Nat) (s : State) : Kept K (refuseRing n s) ↔ Kept K s := by
  unfold refuseRing; simp

@[simp] theorem acceptRing_kept (K : Keep) (n : Nat) (src : Iface) (s : State) :
    Kept K (acceptRing n src s) ↔ Kept K s := by
  unfold acceptRing; simp

@[simp] theorem completeMbx_kept (K : Keep) (n : Nat) (limit : Nat) (rp : Reply) (s : State) :
    Kept K (completeMbx n limit rp s) ↔ Kept K s := by
  unfold completeMbx; simp

@[simp] theorem areaWritten_kept (K : Keep) (a : Nat) (s : State) : Kept K (areaWritten a s) ↔ Kept K s := by
  unfold areaWritten; simp

theorem settle_kept (K : Keep) (sp : CmdSpec) (r : Ring) (before : State) (x : Reply × State)
    (h : Kept K x.2 ↔ Kept K before) : Kept K (settle sp r before x).2 ↔ Kept K before := by
  unfold settle areaWritten afterError; dsimp only; (repeat' split) <;> simp_all

@[simp] theorem nonceSpent_kept (K : Keep) (sp : CmdSpec) (s : State) : Kept K (nonceSpent sp s) ↔ Kept K s := by
  unfold nonceSpent; (repeat' split) <;> simp_all

@[simp] theorem answer_kept (K : Keep) (sp : CmdSpec) (body : Ring → State → Reply × State) (r : Ring) (s : State)
    (h : ∀ r s, Kept K (body r s).2 ↔ Kept K s) : Kept K (answer sp body r s).2 ↔ Kept K s := by
  unfold answer; (repeat' split) <;> simp [settle_kept, h]

@[simp] theorem runAccepted_kept (K : Keep) (sp : CmdSpec) (body : Ring → State → Reply × State) (r : Ring) (s : State) (hbody : ∀ y0 y1, Kept K (body y0 y1).2 ↔ Kept K y1) :
    Kept K (runAccepted sp body r s) ↔ Kept K s := by
  unfold runAccepted; (repeat' split) <;> simp_all

@[simp] theorem loadRequest_kept (K : Keep) (op : Nat) (r : Ring) (s : State) :
    Kept K (loadRequest op r s) ↔ Kept K s := by
  unfold loadRequest; simp

@[simp] theorem submit_kept (K : Keep) (sp : CmdSpec) (body : Ring → State → Reply × State) (dt : Nat) (r : Ring) (s : State) (hbody : ∀ y0 y1, Kept K (body y0 y1).2 ↔ Kept K y1) :
    Kept K (submit sp body dt r s) ↔ Kept K s := by
  unfold submit; (repeat' split) <;> simp_all

@[simp] theorem runLater_kept (K : Keep) (sp : CmdSpec) (body : Ring → State → Reply × State) (r : Ring) (s : State) (hbody : ∀ y0 y1, Kept K (body y0 y1).2 ↔ Kept K y1) :
    Kept K (runLater sp body r s) ↔ Kept K s := by
  unfold runLater; (repeat' split) <;> simp_all

@[simp] theorem submitLater_kept (K : Keep) (sp : CmdSpec) (body : Ring → State → Reply × State) (dt : Nat) (r : Ring) (s : State) (hbody : ∀ y0 y1, Kept K (body y0 y1).2 ↔ Kept K y1) :
    Kept K (submitLater sp body dt r s) ↔ Kept K s := by
  unfold submitLater; (repeat' split) <;> simp_all

@[simp] theorem schedCount_kept (K : Keep) (i : Nat) (s : State) : Kept K (schedCount i s) ↔ Kept K s := by
  unfold schedCount; simp

@[simp] theorem trunkOut_kept (K : Keep) (p : Nat) (f : OutFrame) (at_ : Option Int) (s : State) :
    Kept K (trunkOut p f at_ s) ↔ Kept K s := by
  unfold trunkOut; simp

@[simp] theorem trunkEnqueue_kept (K : Keep) (p q : Nat) (f : QFrame) (s : State) :
    Kept K (trunkEnqueue p q f s) ↔ Kept K s := by
  unfold trunkEnqueue; simp

@[simp] theorem mgmtSend_kept (K : Keep) (ps : List Nat) (f : OutFrame) (len : Nat) (s : State) :
    Kept K (mgmtSend ps f len s) ↔ Kept K s := by
  unfold mgmtSend; simp

@[simp] theorem inaugSend_kept (K : Keep) (ps : List Nat) (f : OutFrame) (s : State) :
    Kept K (inaugSend ps f s) ↔ Kept K s := by
  unfold inaugSend; simp

@[simp] theorem modFabric_kept (K : Keep) (f : Fab → Fab) (s : State) (h : ∀ x, (f x).links.length = x.links.length) :
    Kept K (modFabric f s) ↔ Kept K s := by
  unfold modFabric; simp [h]

@[simp] theorem fabCount_kept (K : Keep) (k i : Nat) (s : State) : Kept K (fabCount k i s) ↔ Kept K s := by
  unfold fabCount; simp

@[simp] theorem fabSetCosts_kept (K : Keep) (k : Nat) (adv : List Byte) (s : State) :
    Kept K (fabSetCosts k adv s) ↔ Kept K s := by
  unfold fabSetCosts; simp

@[simp] theorem fabSendOn_kept (K : Keep) (k : Nat) (f : FabricFrame) (s : State) :
    Kept K (fabSendOn k f s) ↔ Kept K s := by
  unfold fabSendOn; simp

@[simp] theorem fabForward_kept (K : Keep) (from_ : Nat) (f : FabricFrame) (s : State) :
    Kept K (fabForward from_ f s) ↔ Kept K s := by
  unfold fabForward; (repeat' split) <;> simp

@[simp] theorem fabOriginate_kept (K : Keep) (dst cls : Nat) (p : FabricPayload) (s : State) :
    Kept K (fabOriginate dst cls p s) ↔ Kept K s := by
  unfold fabOriginate; simp

@[simp] theorem fabRelay_kept (K : Keep) (p : FabricPayload) (s : State) : Kept K (fabRelay p s) ↔ Kept K s := by
  unfold fabRelay; simp

@[simp] theorem holdIn_kept (K : Keep) (l : Nat) (w : BitVec 64) (k : HeldKind) (addr len : Nat)
    (d : Option (List Byte)) (s : State) :
    Kept K (holdIn l w k addr len d s) ↔ Kept K s := by
  unfold holdIn; (repeat' split) <;> simp_all

@[simp] theorem holdTxn_kept (K : Keep) (l : Nat) (k : HeldKind) (addr len : Nat) (d : Option (List Byte)) (s : State)
    :
    Kept K (holdTxn l k addr len d s) ↔ Kept K s := by
  unfold holdTxn; (repeat' split) <;> simp_all

@[simp] theorem holdAccess_kept (K : Keep) (l addr len : Nat) (w : Option (List Byte)) (s : State) :
    Kept K (holdAccess l addr len w s) ↔ Kept K s := by
  unfold holdAccess; simp

@[simp] theorem closedAnswer_kept (K : Keep) (i : Iface) (len : Nat) (w : Option (List Byte)) (s : State) :
    Kept K (closedAnswer i len w s) ↔ Kept K s := by
  unfold closedAnswer; (repeat' split) <;> simp

@[simp] theorem refusedAnswer_kept (K : Keep) (i : Iface) (len : Nat) (w : Option (List Byte)) (s : State) :
    Kept K (refusedAnswer i len w s) ↔ Kept K s := by
  unfold refusedAnswer; (repeat' split) <;> simp

@[simp] theorem accessBy_kept (K : Keep) (src : Iface) (addr len : Nat) (w : Option (List Byte)) (f : State → State) (s : State) (hf : ∀ y0, Kept K (f y0) ↔ Kept K y0) :
    Kept K (accessBy src addr len w f s) ↔ Kept K s := by
  unfold accessBy; (repeat' split) <;> simp_all

@[simp] theorem hostAccess_kept (K : Keep) (dt : Nat) (src : Iface) (addr : Nat) (w : Option (BitVec 32)) (f : State → State) (s : State) (hf : ∀ y0, Kept K (f y0) ↔ Kept K y0) :
    Kept K (hostAccess dt src addr w f s) ↔ Kept K s := by
  unfold hostAccess; (repeat' split) <;> simp_all

end Sys2Proof.Machine
end

