-- ==== Sys2Proof/Laws/KeptBus.lean ====
section
/-! SUPPORT. The CAN channels, the vehicle-bus segments and the switch core keep what `Kept` names. -/

namespace Sys2Proof.Machine

@[simp] theorem swCount_kept (K : Keep) (p i : Nat) (s : State) : Kept K (swCount p i s) ↔ Kept K s := by
  unfold swCount; simp

@[simp] theorem modStream_kept (K : Keep) (h : Nat) (f : Stream → Stream) (s : State) :
    Kept K (modStream h f s) ↔ Kept K s := by
  unfold modStream; simp

@[simp] theorem streamCount_kept (K : Keep) (h i : Nat) (s : State) : Kept K (streamCount h i s) ↔ Kept K s := by
  unfold streamCount; simp

@[simp] theorem streamPass_kept (K : Keep) (h : Nat) (f : EthFrame) (s : State) :
    Kept K ((streamPass h f s).2) ↔ Kept K s := by
  unfold streamPass; simp

@[simp] theorem swEnqueue_kept (K : Keep) (p q : Nat) (f : EthFrame) (rtag : Option (BitVec 16)) (h : Option (Fin 256)) (s : State) :
    Kept K (swEnqueue p q f rtag h s) ↔ Kept K s := by
  unfold swEnqueue; simp

@[simp] theorem learn_kept (K : Keep) (f : EthFrame) (vid : BitVec 12) (s : State) :
    Kept K (learn f vid s) ↔ Kept K s := by
  unfold learn; simp

@[simp] theorem egress_kept (K : Keep) (h : Option (Fin 256)) (rtag : Option (BitVec 16)) (vid : BitVec 12) (g :
    EthFrame) (p : Nat) (s : State) :
    Kept K (egress h rtag vid g p s) ↔ Kept K s := by
  unfold egress; simp

@[simp] theorem swForward_kept (K : Keep) (h : Option Nat) (f : EthFrame) (s : State) :
    Kept K (swForward h f s) ↔ Kept K s := by
  unfold swForward; (repeat' split) <;> simp

@[simp] theorem switchIn_kept (K : Keep) (f : EthFrame) (s : State) : Kept K (switchIn f s) ↔ Kept K s := by
  unfold switchIn; dsimp only; (repeat' split) <;> simp

@[simp] theorem consistRx_kept (K : Keep) (f : EthFrame) (s : State) : Kept K (consistRx f s) ↔ Kept K s := by
  unfold consistRx; dsimp only; (repeat' split) <;> simp

@[simp] theorem swEgress_kept (K : Keep) (p : Fin 22) (q : Nat) (s : State) : Kept K (swEgress p q s) ↔ Kept K s := by
  unfold swEgress; dsimp only; (repeat' split) <;> simp

@[simp] theorem setSecured_kept (K : Keep) (p : Nat) (b : Bool) (s : State) :
    Kept K (setSecured p b s) ↔ Kept K s := by
  unfold setSecured; simp

@[simp] theorem linkChange_kept (K : Keep) (p : Nat) (up : Bool) (speed : Nat) (t1 : Bool) (s : State) :
    Kept K (linkChange p up speed t1 s) ↔ Kept K s := by
  unfold linkChange; simp

@[simp] theorem sakDistribute_kept (K : Keep) (p : Fin 16) (s : State) : Kept K (sakDistribute p s) ↔ Kept K s := by
  unfold sakDistribute; simp

@[simp] theorem mkaRx_kept (K : Keep) (p : Fin 16) (m : MkPdu) (s : State) : Kept K (mkaRx p m s) ↔ Kept K s := by
  unfold mkaRx; (repeat' split) <;> simp

@[simp] theorem gclAtInstant_kept (K : Keep) (s : State) : Kept K (gclAtInstant s) ↔ Kept K s := by
  unfold gclAtInstant; simp

@[simp] theorem gclMacroChange_kept (K : Keep) (s : State) : Kept K (gclMacroChange s) ↔ Kept K s := by
  unfold gclMacroChange; simp

@[simp] theorem peerLost_kept (K : Keep) (p : Nat) (s : State) : Kept K (peerLost p s) ↔ Kept K s := by
  unfold peerLost; simp

@[simp] theorem swApply_kept (K : Keep) (p : Nat) (c : SwcCfg) (s : State) : Kept K (swApply p c s) ↔ Kept K s := by
  unfold swApply; simp

@[simp] theorem swcStorePort_kept (K : Keep) (p : Nat) (c : SwcCfg) (s : State) :
    Kept K (swcStorePort p c s) ↔ Kept K s := by
  unfold swcStorePort; simp

@[simp] theorem swAtInstant_kept (K : Keep) (s : State) : Kept K (swAtInstant s) ↔ Kept K s := by
  unfold swAtInstant; dsimp only; rw [gclAtInstant_kept, forEach_kept _ _ _ _ (fun p s => by simp), forEach_kept]
  intro p s; (repeat' split) <;> simp

@[simp] theorem swcLoad_kept (K : Keep) (s : State) : Kept K (swcLoad s) ↔ Kept K s := by
  unfold swcLoad; (repeat' split) <;> simp

@[simp] theorem swcNodeReset_kept (K : Keep) (s : State) : Kept K (swcNodeReset s) ↔ Kept K s := by
  unfold swcNodeReset; simp

@[simp] theorem swcPortConfigBody_kept (K : Keep) (r : Ring) (s : State) :
    Kept K ((swcPortConfigBody r s).2) ↔ Kept K s := by
  unfold swcPortConfigBody; simp

@[simp] theorem swcPortStatusBody_kept (K : Keep) (r : Ring) (s : State) :
    Kept K ((swcPortStatusBody r s).2) ↔ Kept K s := by
  unfold swcPortStatusBody; simp

@[simp] theorem swcVlanSetBody_kept (K : Keep) (r : Ring) (s : State) :
    Kept K ((swcVlanSetBody r s).2) ↔ Kept K s := by
  unfold swcVlanSetBody; simp

@[simp] theorem swcStreamSetBody_kept (K : Keep) (r : Ring) (s : State) :
    Kept K ((swcStreamSetBody r s).2) ↔ Kept K s := by
  unfold swcStreamSetBody; simp

@[simp] theorem swcGclStageBody_kept (K : Keep) (r : Ring) (s : State) :
    Kept K ((swcGclStageBody r s).2) ↔ Kept K s := by
  unfold swcGclStageBody; (repeat' split) <;> simp

@[simp] theorem swcGclCommitBody_kept (K : Keep) (r : Ring) (s : State) :
    Kept K ((swcGclCommitBody r s).2) ↔ Kept K s := by
  unfold swcGclCommitBody; simp

@[simp] theorem swcMacsecKeyBody_kept (K : Keep) (r : Ring) (s : State) :
    Kept K ((swcMacsecKeyBody r s).2) ↔ Kept K s := by
  unfold swcMacsecKeyBody; simp

@[simp] theorem swcStreamStatusBody_kept (K : Keep) (r : Ring) (s : State) :
    Kept K ((swcStreamStatusBody r s).2) ↔ Kept K s := by
  unfold swcStreamStatusBody; simp

@[simp] theorem swcSaveBody_kept (K : Keep) (_r : Ring) (s : State) : Kept K ((swcSaveBody _r s).2) ↔ Kept K s := by
  unfold swcSaveBody; simp

@[simp] theorem swcSaveWork_kept (K : Keep) (s : State) : Kept K (swcSaveWork s) ↔ Kept K s := by
  unfold swcSaveWork; simp

theorem execSwcPortConfig_kept (K : Keep) (dt : Nat) (r : Ring) (s : State) :
    ∃ u, execSwcPortConfig dt r s = .next u ∧ (Kept K u ↔ Kept K s) := by
  unfold execSwcPortConfig; exact ⟨_, rfl, by simp⟩

theorem execSwcPortStatus_kept (K : Keep) (dt : Nat) (r : Ring) (s : State) :
    ∃ u, execSwcPortStatus dt r s = .next u ∧ (Kept K u ↔ Kept K s) := by
  unfold execSwcPortStatus; exact ⟨_, rfl, by simp⟩

theorem execSwcVlanSet_kept (K : Keep) (dt : Nat) (r : Ring) (s : State) :
    ∃ u, execSwcVlanSet dt r s = .next u ∧ (Kept K u ↔ Kept K s) := by
  unfold execSwcVlanSet; exact ⟨_, rfl, by simp⟩

theorem execSwcStreamSet_kept (K : Keep) (dt : Nat) (r : Ring) (s : State) :
    ∃ u, execSwcStreamSet dt r s = .next u ∧ (Kept K u ↔ Kept K s) := by
  unfold execSwcStreamSet; exact ⟨_, rfl, by simp⟩

theorem execSwcGclStage_kept (K : Keep) (dt : Nat) (r : Ring) (s : State) :
    ∃ u, execSwcGclStage dt r s = .next u ∧ (Kept K u ↔ Kept K s) := by
  unfold execSwcGclStage; exact ⟨_, rfl, by simp⟩

theorem execSwcGclCommit_kept (K : Keep) (dt : Nat) (r : Ring) (s : State) :
    ∃ u, execSwcGclCommit dt r s = .next u ∧ (Kept K u ↔ Kept K s) := by
  unfold execSwcGclCommit; exact ⟨_, rfl, by simp⟩

theorem execSwcMacsecKey_kept (K : Keep) (dt : Nat) (r : Ring) (s : State) :
    ∃ u, execSwcMacsecKey dt r s = .next u ∧ (Kept K u ↔ Kept K s) := by
  unfold execSwcMacsecKey; exact ⟨_, rfl, by simp⟩

theorem execSwcStreamStatus_kept (K : Keep) (dt : Nat) (r : Ring) (s : State) :
    ∃ u, execSwcStreamStatus dt r s = .next u ∧ (Kept K u ↔ Kept K s) := by
  unfold execSwcStreamStatus; exact ⟨_, rfl, by simp⟩

theorem execSwcSave_kept (K : Keep) (dt : Nat) (r : Ring) (s : State) :
    ∃ u, execSwcSave dt r s = .next u ∧ (Kept K u ↔ Kept K s) := by
  unfold execSwcSave; exact ⟨_, rfl, by simp⟩

theorem execConsistFrameRx_kept (K : Keep) (dt : Nat) (f : EthFrame) (s : State) :
    ∃ u, execConsistFrameRx dt f s = .next u ∧ (Kept K u ↔ Kept K s) := by
  unfold execConsistFrameRx; exact ⟨_, rfl, by simp⟩

theorem execConsistFrameEgress_kept (K : Keep) (dt : Nat) (port : Fin 22) (queue : Fin 8) (s : State) :
    ∃ u, execConsistFrameEgress dt port queue s = .next u ∧ (Kept K u ↔ Kept K s) := by
  unfold execConsistFrameEgress; exact ⟨_, rfl, by simp⟩

theorem execAddressAgeing_kept (K : Keep) (dt : Nat) (mac : BitVec 48) (vid : BitVec 12) (s : State) :
    ∃ u, execAddressAgeing dt mac vid s = .next u ∧ (Kept K u ↔ Kept K s) := by
  unfold execAddressAgeing; exact ⟨_, rfl, by simp⟩

theorem execFrerResetTimer_kept (K : Keep) (dt : Nat) (handle : Fin 256) (s : State) :
    ∃ u, execFrerResetTimer dt handle s = .next u ∧ (Kept K u ↔ Kept K s) := by
  unfold execFrerResetTimer; exact ⟨_, rfl, by simp⟩

theorem execMkaPduRx_kept (K : Keep) (dt : Nat) (port : Fin 16) (m : MkPdu) (s : State) :
    ∃ u, execMkaPduRx dt port m s = .next u ∧ (Kept K u ↔ Kept K s) := by
  unfold execMkaPduRx; exact ⟨_, rfl, by simp⟩

theorem execSakDistribute_kept (K : Keep) (dt : Nat) (port : Fin 16) (s : State) :
    ∃ u, execSakDistribute dt port s = .next u ∧ (Kept K u ↔ Kept K s) := by
  unfold execSakDistribute; exact ⟨_, rfl, by simp⟩

theorem execConsistLinkChange_kept (K : Keep) (dt : Nat) (port : Fin 16) (up : Bool) (speed : Fin 3) (t1Master : Bool) (s : State) :
    ∃ u, execConsistLinkChange dt port up speed t1Master s = .next u ∧ (Kept K u ↔ Kept K s) := by
  unfold execConsistLinkChange; exact ⟨_, rfl, by simp⟩

@[simp] theorem canInterrupt_kept (K : Keep) (vector : Byte) (dest : BitVec 3) (s : State) :
    Kept K (canInterrupt vector dest s) ↔ Kept K s := by
  unfold canInterrupt; (repeat' split) <;> simp

@[simp] theorem canIrq_kept (K : Keep) (c bit : Nat) (s : State) : Kept K (canIrq c bit s) ↔ Kept K s := by
  unfold canIrq; simp

@[simp] theorem canHpbIrq_kept (K : Keep) (_c : Nat) (o : CanObj) (s : State) :
    Kept K (canHpbIrq _c o s) ↔ Kept K s := by
  unfold canHpbIrq; simp

@[simp] theorem canCount_kept (K : Keep) (c i : Nat) (s : State) : Kept K (canCount c i s) ↔ Kept K s := by
  unfold canCount; simp

@[simp] theorem canStamp_kept (K : Keep) (s : State) : Kept K ((canStamp s).2) ↔ Kept K s := by
  unfold canStamp; simp

@[simp] theorem canStart_kept (K : Keep) (c : Nat) (o : CanSlot) (exclusive : Bool) (s : State) :
    Kept K (canStart c o exclusive s) ↔ Kept K s := by
  unfold canStart; simp

@[simp] theorem canStartRef_kept (K : Keep) (c : Nat) (late : Bool) (s : State) :
    Kept K (canStartRef c late s) ↔ Kept K s := by
  unfold canStartRef; simp

@[simp] theorem canRefWithhold_kept (K : Keep) (c : Nat) (s : State) : Kept K (canRefWithhold c s) ↔ Kept K s := by
  unfold canRefWithhold; dsimp only; (repeat' split) <;> simp_all

@[simp] theorem canWithhold_kept (K : Keep) (c : Nat) (s0 : State) : Kept K (canWithhold c s0) ↔ Kept K s0 := by
  unfold canWithhold; dsimp only; (repeat' split) <;> simp_all

@[simp] theorem canOfferExclusive_kept (K : Keep) (c col : Nat) (o : CanSlot) (s : State) :
    Kept K (canOfferExclusive c col o s) ↔ Kept K s := by
  unfold canOfferExclusive; simp

@[simp] theorem canOfferPending_kept (K : Keep) (c : Nat) (s : State) : Kept K (canOfferPending c s) ↔ Kept K s := by
  unfold canOfferPending; (repeat' split) <;> simp

@[simp] theorem canOffer_kept (K : Keep) (c : Nat) (s0 : State) : Kept K (canOffer c s0) ↔ Kept K s0 := by
  unfold canOffer; dsimp only; (repeat' split) <;> simp

@[simp] theorem canRequest_kept (K : Keep) (c : Nat) (o : CanSlot) (s : State) :
    Kept K (canRequest c o s) ↔ Kept K s := by
  unfold canRequest; simp

@[simp] theorem canCancel_kept (K : Keep) (c : Nat) (o : CanSlot) (s : State) :
    Kept K (canCancel c o s) ↔ Kept K s := by
  unfold canCancel; dsimp only; (repeat' split) <;> simp

@[simp] theorem canSetEState_kept (K : Keep) (c : Nat) (e : EState) (s : State) :
    Kept K (canSetEState c e s) ↔ Kept K s := by
  unfold canSetEState; simp

@[simp] theorem canJudge_kept (K : Keep) (c : Nat) (s : State) : Kept K (canJudge c s) ↔ Kept K s := by
  unfold canJudge; simp

@[simp] theorem canBusOff_kept (K : Keep) (c : Nat) (s : State) : Kept K (canBusOff c s) ↔ Kept K s := by
  unfold canBusOff; simp

@[simp] theorem canTecInc_kept (K : Keep) (c n : Nat) (s : State) : Kept K (canTecInc c n s) ↔ Kept K s := by
  unfold canTecInc; simp

@[simp] theorem canRecInc_kept (K : Keep) (c n : Nat) (s : State) : Kept K (canRecInc c n s) ↔ Kept K s := by
  unfold canRecInc; simp

@[simp] theorem canRecOk_kept (K : Keep) (c : Nat) (s : State) : Kept K (canRecOk c s) ↔ Kept K s := by
  unfold canRecOk; simp

@[simp] theorem canApplyMode_kept (K : Keep) (c m : Nat) (s : State) : Kept K (canApplyMode c m s) ↔ Kept K s := by
  unfold canApplyMode; simp

@[simp] theorem canFrameEnd_kept (K : Keep) (c : Nat) (s : State) : Kept K (canFrameEnd c s) ↔ Kept K s := by
  unfold canFrameEnd; dsimp only; (repeat' split) <;> simp

@[simp] theorem canWriteCtrl_kept (K : Keep) (c : Nat) (busy : Bool) (v : BitVec 32) (s : State) :
    Kept K (canWriteCtrl c busy v s) ↔ Kept K s := by
  unfold canWriteCtrl; simp

@[simp] theorem canTxComplete_kept (K : Keep) (c : Nat) (tdcv : Option Nat) (s : State) :
    Kept K (canTxComplete c tdcv s) ↔ Kept K s := by
  unfold canTxComplete; dsimp only; (repeat' split) <;> simp

@[simp] theorem canAttemptLost_kept (K : Keep) (c : Nat) (s : State) : Kept K (canAttemptLost c s) ↔ Kept K s := by
  unfold canAttemptLost; (repeat' split) <;> simp

@[simp] theorem canArbLost_kept (K : Keep) (c : Nat) (s : State) : Kept K (canArbLost c s) ↔ Kept K s := by
  unfold canArbLost; (repeat' split) <;> simp

@[simp] theorem canToSlot_kept (K : Keep) (c : Nat) (o : CanSlot) (f : CanFrame) (filter : Nat) (s : State) :
    Kept K (canToSlot c o f filter s) ↔ Kept K s := by
  unfold canToSlot; (repeat' split) <;> simp

@[simp] theorem canToFifo_kept (K : Keep) (c : Nat) (f : CanFrame) (filter : Nat) (s : State) :
    Kept K (canToFifo c f filter s) ↔ Kept K s := by
  unfold canToFifo; simp

@[simp] theorem canFilter_kept (K : Keep) (c : Nat) (f : CanFrame) (s : State) :
    Kept K (canFilter c f s) ↔ Kept K s := by
  unfold canFilter; dsimp only; (repeat' split) <;> simp

@[simp] theorem canForeignGuard_kept (K : Keep) (s : State) : Kept K (canForeignGuard s) ↔ Kept K s := by
  unfold canForeignGuard; simp

@[simp] theorem canReceive_kept (K : Keep) (c : Nat) (f : CanFrame) (own : Bool) (s : State) :
    Kept K (canReceive c f own s) ↔ Kept K s := by
  unfold canReceive; simp

@[simp] theorem canAckError_kept (K : Keep) (c : Nat) (s : State) : Kept K (canAckError c s) ↔ Kept K s := by
  unfold canAckError; dsimp only; (repeat' split) <;> simp

@[simp] theorem canUnackRestart_kept (K : Keep) (c : Nat) (s : State) : Kept K (canUnackRestart c s) ↔ Kept K s := by
  unfold canUnackRestart; (repeat' split) <;> simp

@[simp] theorem canError_kept (K : Keep) (c : Nat) (e : CanError) (s : State) :
    Kept K (canError c e s) ↔ Kept K s := by
  unfold canError; simp

@[simp] theorem canRecovered_kept (K : Keep) (c occ : Nat) (s : State) : Kept K (canRecovered c occ s) ↔ Kept K s := by
  unfold canRecovered; simp

@[simp] theorem canObjWrite_kept (K : Keep) (c : Nat) (o : CanSlot) (w : Nat) (v : BitVec 32) (s : State) :
    Kept K (canObjWrite c o w v s) ↔ Kept K s := by
  unfold canObjWrite; simp

@[simp] theorem canLatch_kept (K : Keep) (c : Nat) (o : CanSlot) (i : Iface) (s : State) :
    Kept K (canLatch c o i s) ↔ Kept K s := by
  unfold canLatch; simp

@[simp] theorem canLoadOne_kept (K : Keep) (c : Nat) (s : State) : Kept K (canLoadOne c s) ↔ Kept K s := by
  unfold canLoadOne; (repeat' split) <;> simp

@[simp] theorem canNodeReset_kept (K : Keep) (c : Nat) (s : State) : Kept K (canNodeReset c s) ↔ Kept K s := by
  unfold canNodeReset; simp

@[simp] theorem canSaveMask_kept (K : Keep) (mask : Nat) (s : State) : Kept K (canSaveMask mask s) ↔ Kept K s := by
  unfold canSaveMask; simp

@[simp] theorem canSaveBody_kept (K : Keep) (r : Ring) (s : State) : Kept K ((canSaveBody r s).2) ↔ Kept K s := by
  unfold canSaveBody; simp

@[simp] theorem canLoadBody_kept (K : Keep) (r : Ring) (s : State) : Kept K ((canLoadBody r s).2) ↔ Kept K s := by
  unfold canLoadBody; (repeat' split) <;> simp

theorem execCanFrameRx_kept (K : Keep) (dt : Nat) (c : Fin 12) (f : CanFrame) (own : Bool) (s : State) :
    ∃ u, execCanFrameRx dt c f own s = .next u ∧ (Kept K u ↔ Kept K s) := by
  unfold execCanFrameRx; exact ⟨_, rfl, by simp⟩

theorem execCanTxComplete_kept (K : Keep) (dt : Nat) (c : Fin 12) (tdcv : Option Nat) (s : State) :
    ∃ u, execCanTxComplete dt c tdcv s = .next u ∧ (Kept K u ↔ Kept K s) := by
  unfold execCanTxComplete; exact ⟨_, rfl, by simp⟩

theorem execCanArbitrationLost_kept (K : Keep) (dt : Nat) (c : Fin 12) (s : State) :
    ∃ u, execCanArbitrationLost dt c s = .next u ∧ (Kept K u ↔ Kept K s) := by
  unfold execCanArbitrationLost; exact ⟨_, rfl, by simp⟩

theorem execCanError_kept (K : Keep) (dt : Nat) (c : Fin 12) (e : CanError) (s : State) :
    ∃ u, execCanError dt c e s = .next u ∧ (Kept K u ↔ Kept K s) := by
  unfold execCanError; exact ⟨_, rfl, by simp⟩

theorem execCanRecoveryComplete_kept (K : Keep) (dt : Nat) (c : Fin 12) (occ : Fin 129) (s : State) :
    ∃ u, execCanRecoveryComplete dt c occ s = .next u ∧ (Kept K u ↔ Kept K s) := by
  unfold execCanRecoveryComplete; exact ⟨_, rfl, by simp⟩

@[simp] theorem canIntegrated_kept (K : Keep) (c : Nat) (s : State) : Kept K (canIntegrated c s) ↔ Kept K s := by
  unfold canIntegrated; simp

theorem execCanIntegrationComplete_kept (K : Keep) (dt : Nat) (c : Fin 12) (s : State) :
    ∃ u, execCanIntegrationComplete dt c s = .next u ∧ (Kept K u ↔ Kept K s) := by
  unfold execCanIntegrationComplete; exact ⟨_, rfl, by simp⟩

theorem execCanWakePattern_kept (K : Keep) (dt : Nat) (c : Fin 12) (s : State) :
    ∃ u, execCanWakePattern dt c s = .next u ∧ (Kept K u ↔ Kept K s) := by
  unfold execCanWakePattern; exact ⟨_, rfl, by simp⟩

theorem execCanModeWrite_kept (K : Keep) (dt : Nat) (c : Fin 12) (src : Iface) (value : BitVec 32) (busy : Bool) (s : State) :
    ∃ u, execCanModeWrite dt c src value busy s = .next u ∧ (Kept K u ↔ Kept K s) := by
  unfold execCanModeWrite; exact ⟨_, rfl, by simp⟩

@[simp] theorem canTxrq_kept (K : Keep) (c m : Nat) (v : BitVec 32) (s : State) :
    Kept K (canTxrq c m v s) ↔ Kept K s := by
  unfold canTxrq; simp

@[simp] theorem canTxcan_kept (K : Keep) (c m : Nat) (v : BitVec 32) (s : State) :
    Kept K (canTxcan c m v s) ↔ Kept K s := by
  unfold canTxcan; simp

@[simp] theorem canHpbCtrl_kept (K : Keep) (c : Nat) (v : BitVec 32) (s : State) :
    Kept K (canHpbCtrl c v s) ↔ Kept K s := by
  unfold canHpbCtrl; simp

theorem execCanTxrqWrite_kept (K : Keep) (dt : Nat) (c : Fin 12) (m : Fin 4) (src : Iface) (value : BitVec 32) (s : State) :
    ∃ u, execCanTxrqWrite dt c m src value s = .next u ∧ (Kept K u ↔ Kept K s) := by
  unfold execCanTxrqWrite; exact ⟨_, rfl, by simp⟩

theorem execCanTxcanWrite_kept (K : Keep) (dt : Nat) (c : Fin 12) (m : Fin 4) (src : Iface) (value : BitVec 32) (s : State) :
    ∃ u, execCanTxcanWrite dt c m src value s = .next u ∧ (Kept K u ↔ Kept K s) := by
  unfold execCanTxcanWrite; exact ⟨_, rfl, by simp⟩

theorem execCanHpbRequest_kept (K : Keep) (dt : Nat) (c : Fin 12) (src : Iface) (value : BitVec 32) (s : State) :
    ∃ u, execCanHpbRequest dt c src value s = .next u ∧ (Kept K u ↔ Kept K s) := by
  unfold execCanHpbRequest; exact ⟨_, rfl, by simp⟩

theorem execCanHpbCancel_kept (K : Keep) (dt : Nat) (c : Fin 12) (src : Iface) (value : BitVec 32) (s : State) :
    ∃ u, execCanHpbCancel dt c src value s = .next u ∧ (Kept K u ↔ Kept K s) := by
  unfold execCanHpbCancel; exact ⟨_, rfl, by simp⟩

@[simp] theorem canRecoverStart_kept (K : Keep) (c : Nat) (v : BitVec 32) (s : State) :
    Kept K (canRecoverStart c v s) ↔ Kept K s := by
  unfold canRecoverStart; simp

theorem execCanRecoverStart_kept (K : Keep) (dt : Nat) (c : Fin 12) (src : Iface) (value : BitVec 32) (s : State) :
    ∃ u, execCanRecoverStart dt c src value s = .next u ∧ (Kept K u ↔ Kept K s) := by
  unfold execCanRecoverStart; exact ⟨_, rfl, by simp⟩

@[simp] theorem canFifoPop_kept (K : Keep) (c : Nat) (v : BitVec 32) (s : State) :
    Kept K (canFifoPop c v s) ↔ Kept K s := by
  unfold canFifoPop; simp

theorem execCanFifoPop_kept (K : Keep) (dt : Nat) (c : Fin 12) (src : Iface) (value : BitVec 32) (s : State) :
    ∃ u, execCanFifoPop dt c src value s = .next u ∧ (Kept K u ↔ Kept K s) := by
  unfold execCanFifoPop; exact ⟨_, rfl, by simp⟩

theorem execCanObjectWord0Read_kept (K : Keep) (dt : Nat) (c : Fin 12) (o : CanSlot) (src : Iface) (s : State) :
    ∃ u, execCanObjectWord0Read dt c o src s = .next u ∧ (Kept K u ↔ Kept K s) := by
  unfold execCanObjectWord0Read; exact ⟨_, rfl, by simp⟩

theorem execCanObjectWrite_kept (K : Keep) (dt : Nat) (c : Fin 12) (o : CanSlot) (word : Fin 20) (src : Iface) (value : BitVec 32) (s : State) :
    ∃ u, execCanObjectWrite dt c o word src value s = .next u ∧ (Kept K u ↔ Kept K s) := by
  unfold execCanObjectWrite; exact ⟨_, rfl, by simp⟩

theorem execCanSave_kept (K : Keep) (dt : Nat) (r : Ring) (s : State) :
    ∃ u, execCanSave dt r s = .next u ∧ (Kept K u ↔ Kept K s) := by
  unfold execCanSave; exact ⟨_, rfl, by simp⟩

theorem execCanLoad_kept (K : Keep) (dt : Nat) (r : Ring) (s : State) :
    ∃ u, execCanLoad dt r s = .next u ∧ (Kept K u ↔ Kept K s) := by
  unfold execCanLoad; exact ⟨_, rfl, by simp⟩

@[simp] theorem canTtFault_kept (K : Keep) (c cause : Nat) (s : State) :
    Kept K (canTtFault c cause s) ↔ Kept K s := by
  unfold canTtFault; simp

@[simp] theorem canCommitNow_kept (K : Keep) (c : Nat) (s : State) : Kept K (canCommitNow c s) ↔ Kept K s := by
  unfold canCommitNow; simp

@[simp] theorem canCommitWrite_kept (K : Keep) (c : Nat) (cycle : BitVec 32) (s : State) :
    Kept K (canCommitWrite c cycle s) ↔ Kept K s := by
  unfold canCommitWrite; simp

@[simp] theorem canEndChecks_kept (K : Keep) (c : Nat) (counted : Bool) (s : State) :
    Kept K (canEndChecks c counted s) ↔ Kept K s := by
  unfold canEndChecks; simp

@[simp] theorem canBegin_kept (K : Keep) (c row : Nat) (s : State) : Kept K (canBegin c row s) ↔ Kept K s := by
  unfold canBegin; simp

@[simp] theorem canRefer_kept (K : Keep) (c : Nat) (s : State) : Kept K (canRefer c s) ↔ Kept K s := by
  unfold canRefer; simp

@[simp] theorem canToSlave_kept (K : Keep) (c : Nat) (s : State) : Kept K (canToSlave c s) ↔ Kept K s := by
  unfold canToSlave; simp

@[simp] theorem canMasterBegin_kept (K : Keep) (c n : Nat) (whole : Bool) (s : State) :
    Kept K (canMasterBegin c n whole s) ↔ Kept K s := by
  unfold canMasterBegin; simp

@[simp] theorem canAtInstant_kept (K : Keep) (switch : Bool) (c : Nat) (s0 : State) :
    Kept K (canAtInstant switch c s0) ↔ Kept K s0 := by
  unfold canAtInstant; simp

@[simp] theorem canMacroChange_kept (K : Keep) (c : Nat) (s : State) : Kept K (canMacroChange c s) ↔ Kept K s := by
  unfold canMacroChange; simp

@[simp] theorem canReference_kept (K : Keep) (c count : Nat) (s : State) :
    Kept K (canReference c count s) ↔ Kept K s := by
  unfold canReference; simp

@[simp] theorem canRefAbandon_kept (K : Keep) (c : Nat) (s : State) : Kept K (canRefAbandon c s) ↔ Kept K s := by
  unfold canRefAbandon; simp

@[simp] theorem canRefTimeout_kept (K : Keep) (c : Nat) (s : State) : Kept K (canRefTimeout c s) ↔ Kept K s := by
  unfold canRefTimeout; simp

@[simp] theorem canCloseChecks_kept (K : Keep) (c col : Nat) (s : State) :
    Kept K (canCloseChecks c col s) ↔ Kept K s := by
  unfold canCloseChecks; simp

@[simp] theorem canWindow_kept (K : Keep) (c col : Nat) (idle : Bool) (s : State) :
    Kept K (canWindow c col idle s) ↔ Kept K s := by
  unfold canWindow; dsimp only; (repeat' split) <;> simp

@[simp] theorem canWindowEnd_kept (K : Keep) (c col : Nat) (s : State) :
    Kept K (canWindowEnd c col s) ↔ Kept K s := by
  unfold canWindowEnd; dsimp only; (repeat' split) <;> simp

@[simp] theorem canLinkLoad_kept (K : Keep) (rd : Nat → Nat → Nat → List Byte) (effective : Bool) (c : Nat) (s : State) :
    Kept K (canLinkLoad rd effective c s) ↔ Kept K s := by
  unfold canLinkLoad; simp

@[simp] theorem canDeadlineDone_kept (K : Keep) (c : Nat) (s : State) : Kept K (canDeadlineDone c s) ↔ Kept K s := by
  unfold canDeadlineDone; simp

@[simp] theorem canCheckLinks_kept (K : Keep) (c : Nat) (s : State) : Kept K (canCheckLinks c s) ↔ Kept K s := by
  unfold canCheckLinks; simp

theorem execCanTtCommitWrite_kept (K : Keep) (dt : Nat) (c : Fin 12) (src : Iface) (cycle : BitVec 32) (s : State) :
    ∃ u, execCanTtCommitWrite dt c src cycle s = .next u ∧ (Kept K u ↔ Kept K s) := by
  unfold execCanTtCommitWrite; exact ⟨_, rfl, by simp⟩

theorem execCanReferenceRx_kept (K : Keep) (dt : Nat) (c : Fin 12) (count : Nat) (s : State) :
    ∃ u, execCanReferenceRx dt c count s = .next u ∧ (Kept K u ↔ Kept K s) := by
  unfold execCanReferenceRx; exact ⟨_, rfl, by simp⟩

theorem execCanReferenceAbandon_kept (K : Keep) (dt : Nat) (c : Fin 12) (s : State) :
    ∃ u, execCanReferenceAbandon dt c s = .next u ∧ (Kept K u ↔ Kept K s) := by
  unfold execCanReferenceAbandon; exact ⟨_, rfl, by simp⟩

theorem execCanSlaveRefTimeout_kept (K : Keep) (dt : Nat) (c : Fin 12) (s : State) :
    ∃ u, execCanSlaveRefTimeout dt c s = .next u ∧ (Kept K u ↔ Kept K s) := by
  unfold execCanSlaveRefTimeout; exact ⟨_, rfl, by simp⟩

theorem execCanHatchWindow_kept (K : Keep) (dt : Nat) (c : Fin 12) (col : Fin 64) (idle : Bool) (s : State) :
    ∃ u, execCanHatchWindow dt c col idle s = .next u ∧ (Kept K u ↔ Kept K s) := by
  unfold execCanHatchWindow; exact ⟨_, rfl, by simp⟩

theorem execCanHatchWindowEnd_kept (K : Keep) (dt : Nat) (c : Fin 12) (col : Fin 64) (s : State) :
    ∃ u, execCanHatchWindowEnd dt c col s = .next u ∧ (Kept K u ↔ Kept K s) := by
  unfold execCanHatchWindowEnd; exact ⟨_, rfl, by simp⟩

@[simp] theorem canRegWrite_kept (K : Keep) (c off : Nat) (v : BitVec 32) (s : State) :
    Kept K (canRegWrite c off v s) ↔ Kept K s := by
  unfold canRegWrite; dsimp only; (repeat' split) <;> (first | (simp; done) | simp_all)

@[simp] theorem canWrite_kept (K : Keep) (c off : Nat) (v : BitVec 32) (s : State) :
    Kept K (canWrite c off v s) ↔ Kept K s := by
  unfold canWrite; (repeat' split) <;> simp

@[simp] theorem canReadClear_kept (K : Keep) (c off : Nat) (s : State) :
    Kept K (canReadClear c off s) ↔ Kept K s := by
  unfold canReadClear; simp

@[simp] theorem mvbCount_kept (K : Keep) (g i : Nat) (s : State) : Kept K (mvbCount g i s) ↔ Kept K s := by
  unfold mvbCount; simp

@[simp] theorem mvbAnswer_kept (K : Keep) (g : Fin 2) (fcode : BitVec 4) (addr : BitVec 12) (s : State) :
    Kept K (mvbAnswer g fcode addr s) ↔ Kept K s := by
  unfold mvbAnswer; dsimp only; (repeat' split) <;> simp

@[simp] theorem mvbPoll_kept (K : Keep) (g : Fin 2) (fcode : BitVec 4) (addr : BitVec 12) (s : State) :
    Kept K (mvbPoll g fcode addr s) ↔ Kept K s := by
  unfold mvbPoll; simp

@[simp] theorem mvbNext_kept (K : Keep) (g : Fin 2) (s : State) : Kept K (mvbNext g s) ↔ Kept K s := by
  unfold mvbNext; dsimp only; (repeat' split) <;> simp

@[simp] theorem mvbTakeTable_kept (K : Keep) (g : Nat) (s : State) : Kept K (mvbTakeTable g s) ↔ Kept K s := by
  unfold mvbTakeTable; (repeat' split) <;> simp

@[simp] theorem mvbPeriod_kept (K : Keep) (g : Fin 2) (s : State) : Kept K (mvbPeriod g s) ↔ Kept K s := by
  unfold mvbPeriod; dsimp only; (repeat' split) <;> simp

@[simp] theorem mvbCut_kept (K : Keep) (g : Nat) (s : State) : Kept K (mvbCut g s) ↔ Kept K s := by
  unfold mvbCut; simp

@[simp] theorem lineEvent_kept (K : Keep) (g line : Nat) (old new : MvbLineSt) (s : State) :
    Kept K (lineEvent g line old new s) ↔ Kept K s := by
  unfold lineEvent; simp

@[simp] theorem mvbJudge_kept (K : Keep) (g : Nat) (a b : Bool) (s : State) :
    Kept K (mvbJudge g a b s) ↔ Kept K s := by
  unfold mvbJudge; simp

@[simp] theorem mvbMasterRx_kept (K : Keep) (g : Fin 2) (f : MvbMaster) (s : State) :
    Kept K (mvbMasterRx g f s) ↔ Kept K s := by
  unfold mvbMasterRx; simp

@[simp] theorem mvbSlaveRx_kept (K : Keep) (g : Fin 2) (f : MvbSlave) (s : State) :
    Kept K (mvbSlaveRx g f s) ↔ Kept K s := by
  unfold mvbSlaveRx; dsimp only; (repeat' split) <;> simp

@[simp] theorem mvbNoReply_kept (K : Keep) (g : Nat) (s : State) : Kept K (mvbNoReply g s) ↔ Kept K s := by
  unfold mvbNoReply; simp

@[simp] theorem mvbDeadlineDone_kept (K : Keep) (g : Nat) (s : State) : Kept K (mvbDeadlineDone g s) ↔ Kept K s := by
  unfold mvbDeadlineDone; simp

@[simp] theorem mvbCheckLinks_kept (K : Keep) (g : Nat) (s : State) : Kept K (mvbCheckLinks g s) ↔ Kept K s := by
  unfold mvbCheckLinks; simp

@[simp] theorem mvbApply_kept (K : Keep) (g : Nat) (c : MvbCfg) (s : State) : Kept K (mvbApply g c s) ↔ Kept K s := by
  unfold mvbApply; simp

@[simp] theorem mvbAtInstant_kept (K : Keep) (rd : Nat → Nat → Nat → List Byte) (g : Nat) (s : State) :
    Kept K (mvbAtInstant rd g s) ↔ Kept K s := by
  unfold mvbAtInstant; (repeat' split) <;> simp

@[simp] theorem mvbNodeReset_kept (K : Keep) (g : Nat) (s : State) : Kept K (mvbNodeReset g s) ↔ Kept K s := by
  unfold mvbNodeReset; simp

@[simp] theorem mvbLoad_kept (K : Keep) (g : Nat) (s : State) : Kept K (mvbLoad g s) ↔ Kept K s := by
  unfold mvbLoad; (repeat' split) <;> simp

@[simp] theorem mvbConfigBody_kept (K : Keep) (r : Ring) (s : State) : Kept K ((mvbConfigBody r s).2) ↔ Kept K s := by
  unfold mvbConfigBody; simp

@[simp] theorem mvbStageBody_kept (K : Keep) (r : Ring) (s : State) : Kept K ((mvbStageBody r s).2) ↔ Kept K s := by
  unfold mvbStageBody; simp

@[simp] theorem mvbCommitBody_kept (K : Keep) (r : Ring) (s : State) : Kept K ((mvbCommitBody r s).2) ↔ Kept K s := by
  unfold mvbCommitBody; dsimp only; (repeat' split) <;> simp

@[simp] theorem mvbPortSetBody_kept (K : Keep) (r : Ring) (s : State) :
    Kept K ((mvbPortSetBody r s).2) ↔ Kept K s := by
  unfold mvbPortSetBody; simp

@[simp] theorem mvbPortWriteBody_kept (K : Keep) (r : Ring) (s : State) :
    Kept K ((mvbPortWriteBody r s).2) ↔ Kept K s := by
  unfold mvbPortWriteBody; dsimp only; (repeat' split) <;> simp

@[simp] theorem mvbPortReadBody_kept (K : Keep) (r : Ring) (s : State) :
    Kept K ((mvbPortReadBody r s).2) ↔ Kept K s := by
  unfold mvbPortReadBody; dsimp only; (repeat' split) <;> simp

@[simp] theorem mvbStatusBody_kept (K : Keep) (r : Ring) (s : State) : Kept K ((mvbStatusBody r s).2) ↔ Kept K s := by
  unfold mvbStatusBody; simp

theorem execMvbConfig_kept (K : Keep) (dt : Nat) (r : Ring) (s : State) :
    ∃ u, execMvbConfig dt r s = .next u ∧ (Kept K u ↔ Kept K s) := by
  unfold execMvbConfig; exact ⟨_, rfl, by simp⟩

theorem execMvbPollStage_kept (K : Keep) (dt : Nat) (r : Ring) (s : State) :
    ∃ u, execMvbPollStage dt r s = .next u ∧ (Kept K u ↔ Kept K s) := by
  unfold execMvbPollStage; exact ⟨_, rfl, by simp⟩

theorem execMvbPollCommit_kept (K : Keep) (dt : Nat) (r : Ring) (s : State) :
    ∃ u, execMvbPollCommit dt r s = .next u ∧ (Kept K u ↔ Kept K s) := by
  unfold execMvbPollCommit; exact ⟨_, rfl, by simp⟩

theorem execMvbPortSet_kept (K : Keep) (dt : Nat) (r : Ring) (s : State) :
    ∃ u, execMvbPortSet dt r s = .next u ∧ (Kept K u ↔ Kept K s) := by
  unfold execMvbPortSet; exact ⟨_, rfl, by simp⟩

theorem execMvbPortWrite_kept (K : Keep) (dt : Nat) (r : Ring) (s : State) :
    ∃ u, execMvbPortWrite dt r s = .next u ∧ (Kept K u ↔ Kept K s) := by
  unfold execMvbPortWrite; exact ⟨_, rfl, by simp⟩

theorem execMvbPortRead_kept (K : Keep) (dt : Nat) (r : Ring) (s : State) :
    ∃ u, execMvbPortRead dt r s = .next u ∧ (Kept K u ↔ Kept K s) := by
  unfold execMvbPortRead; exact ⟨_, rfl, by simp⟩

theorem execMvbStatus_kept (K : Keep) (dt : Nat) (r : Ring) (s : State) :
    ∃ u, execMvbStatus dt r s = .next u ∧ (Kept K u ↔ Kept K s) := by
  unfold execMvbStatus; exact ⟨_, rfl, by simp⟩

theorem execMvbBasicPeriodStart_kept (K : Keep) (dt : Nat) (g : Fin 2) (s : State) :
    ∃ u, execMvbBasicPeriodStart dt g s = .next u ∧ (Kept K u ↔ Kept K s) := by
  unfold execMvbBasicPeriodStart; exact ⟨_, rfl, by simp⟩

theorem execMvbMasterFrameSend_kept (K : Keep) (dt : Nat) (g : Fin 2) (s : State) :
    ∃ u, execMvbMasterFrameSend dt g s = .next u ∧ (Kept K u ↔ Kept K s) := by
  unfold execMvbMasterFrameSend; exact ⟨_, rfl, by simp⟩

theorem execMvbNoReplyTimeout_kept (K : Keep) (dt : Nat) (g : Fin 2) (s : State) :
    ∃ u, execMvbNoReplyTimeout dt g s = .next u ∧ (Kept K u ↔ Kept K s) := by
  unfold execMvbNoReplyTimeout; exact ⟨_, rfl, by simp⟩

theorem execMvbMasterFrameRx_kept (K : Keep) (dt : Nat) (g : Fin 2) (f : MvbMaster) (s : State) :
    ∃ u, execMvbMasterFrameRx dt g f s = .next u ∧ (Kept K u ↔ Kept K s) := by
  unfold execMvbMasterFrameRx; exact ⟨_, rfl, by simp⟩

theorem execMvbSlaveFrameRx_kept (K : Keep) (dt : Nat) (g : Fin 2) (f : MvbSlave) (s : State) :
    ∃ u, execMvbSlaveFrameRx dt g f s = .next u ∧ (Kept K u ↔ Kept K s) := by
  unfold execMvbSlaveFrameRx; exact ⟨_, rfl, by simp⟩

end Sys2Proof.Machine
end

