-- ==== Sys2Proof/Laws/KeptTrain.lean ====
section
/-! SUPPORT. The time unit, the trunk and inauguration keep what `Kept` names. -/

namespace Sys2Proof.Machine

/-- The ports stay as many when the node no longer goes passive. -/
theorem passiveEnd_ports_length (t : Trunk) : (passiveEnd t).ports.length = t.ports.length := rfl

@[simp] theorem modTime_kept (K : Keep) (f : Time → Time) (s : State) (h : ∀ x, (f x).tio.length = x.tio.length) :
    Kept K (modTime f s) ↔ Kept K s := by
  unfold modTime; simp [h]

@[simp] theorem setTimeState_kept (K : Keep) (n : TimeSt) (s : State) : Kept K (setTimeState n s) ↔ Kept K s := by
  unfold setTimeState; have hf : ∀ t, (holdFreq t).tio.length = t.tio.length := by intro t; unfold holdFreq; simp
  dsimp only; (repeat' split) <;> simp [hf]

@[simp] theorem tioLate_kept (K : Keep) (n start : Nat) (s : State) : Kept K (tioLate n start s) ↔ Kept K s := by
  unfold tioLate; simp

@[simp] theorem tioDrive_kept (K : Keep) (n : Nat) (asserted : Bool) (s : State) :
    Kept K (tioDrive n asserted s) ↔ Kept K s := by
  unfold tioDrive; simp

@[simp] theorem tioStep_kept (K : Keep) (n old new : Nat) (s : State) : Kept K (tioStep n old new s) ↔ Kept K s := by
  unfold tioStep; simp

@[simp] theorem countSteps_kept (K : Keep) (d : Int) (gen : BitVec 16) (s : State) :
    Kept K (countSteps d gen s) ↔ Kept K s := by
  unfold countSteps; simp

@[simp] theorem stepDeltas_kept (K : Keep) (ps : List Nat) (d : Int) (s : State) :
    Kept K (stepDeltas ps d s) ↔ Kept K s := by
  unfold stepDeltas; simp

@[simp] theorem stepCount_kept (K : Keep) (d : Int) (gen : BitVec 16) (s : State) :
    Kept K (stepCount d gen s) ↔ Kept K s := by
  unfold stepCount; simp

@[simp] theorem sampleEntry_kept (K : Keep) (theta : Int) (s : State) : Kept K (sampleEntry theta s) ↔ Kept K s := by
  unfold sampleEntry; (repeat' split) <;> simp

@[simp] theorem sampleLock_kept (K : Keep) (theta : Int) (s : State) : Kept K (sampleLock theta s) ↔ Kept K s := by
  unfold sampleLock; (repeat' split) <;> simp

@[simp] theorem sampleApply_kept (K : Keep) (theta f : Int) (s : State) :
    Kept K (sampleApply theta f s) ↔ Kept K s := by
  unfold sampleApply; simp

@[simp] theorem sampleRecord_kept (K : Keep) (theta : Int) (source : BitVec 2) (hops : Nat) (s : State) :
    Kept K (sampleRecord theta source hops s) ↔ Kept K s := by
  unfold sampleRecord; simp

@[simp] theorem takeSample_kept (K : Keep) (steep : State → State) (theta : Int) (source : BitVec 2) (hops : Nat) (s : State) (hsteep : ∀ y0, Kept K (steep y0) ↔ Kept K y0) :
    Kept K (takeSample steep theta source hops s) ↔ Kept K s := by
  unfold takeSample; dsimp only; (repeat' split) <;> simp_all

@[simp] theorem slewTurn_kept (K : Keep) (s : State) : Kept K (slewTurn s) ↔ Kept K s := by
  unfold slewTurn; (repeat' split) <;> simp_all

@[simp] theorem cycleSample_kept (K : Keep) (s : State) : Kept K (cycleSample s) ↔ Kept K s := by
  unfold cycleSample; simp

@[simp] theorem becomeMaster_kept (K : Keep) (s : State) : Kept K (becomeMaster s) ↔ Kept K s := by
  unfold becomeMaster; simp

@[simp] theorem leaveMaster_kept (K : Keep) (s : State) : Kept K (leaveMaster s) ↔ Kept K s := by
  unfold leaveMaster; (repeat' split) <;> simp

theorem execHoldoverEntry_kept (K : Keep) (dt : Nat) (s : State) :
    ∃ u, execHoldoverEntry dt s = .next u ∧ (Kept K u ↔ Kept K s) := by
  unfold execHoldoverEntry; exact ⟨_, rfl, by (repeat' split) <;> simp⟩

@[simp] theorem tioEdge_kept (K : Keep) (n at_ : Nat) (asserts : Bool) (s : State) :
    Kept K (tioEdge n at_ asserts s) ↔ Kept K s := by
  unfold tioEdge; simp

@[simp] theorem tioGateAtInstant_kept (K : Keep) (n : Nat) (s : State) :
    Kept K (tioGateAtInstant n s) ↔ Kept K s := by
  unfold tioGateAtInstant; simp

@[simp] theorem tioCapture_kept (K : Keep) (n at_ : Nat) (rising : Bool) (width : Nat) (s : State) :
    Kept K (tioCapture n at_ rising width s) ↔ Kept K s := by
  unfold tioCapture; simp

@[simp] theorem tioStop_kept (K : Keep) (n : Nat) (s : State) : Kept K (tioStop n s) ↔ Kept K s := by
  unfold tioStop; simp

@[simp] theorem tioArm_kept (K : Keep) (n : Nat) (s : State) : Kept K (tioArm n s) ↔ Kept K s := by
  unfold tioArm; simp

@[simp] theorem tioCtrlWrite_kept (K : Keep) (n v : Nat) (s : State) : Kept K (tioCtrlWrite n v s) ↔ Kept K s := by
  unfold tioCtrlWrite; simp

@[simp] theorem tioNodeReset_kept (K : Keep) (n : Nat) (s : State) : Kept K (tioNodeReset n s) ↔ Kept K s := by
  unfold tioNodeReset; simp

@[simp] theorem latchShadow_kept (K : Keep) (i : Iface) (addr : Nat) (bytes : List Byte) (s : State) :
    Kept K (latchShadow i addr bytes s) ↔ Kept K s := by
  unfold latchShadow; simp

@[simp] theorem tioCapTake_kept (K : Keep) (n : Nat) (i : Iface) (s : State) :
    Kept K ((tioCapTake n i s).2) ↔ Kept K s := by
  unfold tioCapTake; simp

@[simp] theorem tioCapRead_kept (K : Keep) (n : Nat) (i : Iface) (s : State) :
    Kept K (tioCapRead n i s) ↔ Kept K s := by
  unfold tioCapRead; simp

theorem execTioPulseEdge_kept (K : Keep) (dt : Nat) (n : Fin 6) (at_ : Nat) (assert_ : Bool) (s : State) :
    ∃ u, execTioPulseEdge dt n at_ assert_ s = .next u ∧ (Kept K u ↔ Kept K s) := by
  unfold execTioPulseEdge; exact ⟨_, rfl, by simp⟩

theorem execTioCaptureEdge_kept (K : Keep) (dt : Nat) (n : Fin 6) (at_ : Nat) (rising : Bool) (width : Nat) (s : State) :
    ∃ u, execTioCaptureEdge dt n at_ rising width s = .next u ∧ (Kept K u ↔ Kept K s) := by
  unfold execTioCaptureEdge; exact ⟨_, rfl, by simp⟩

theorem execTioArm_kept (K : Keep) (dt : Nat) (n : Fin 6) (src : Iface) (value : BitVec 32) (s : State) :
    ∃ u, execTioArm dt n src value s = .next u ∧ (Kept K u ↔ Kept K s) := by
  unfold execTioArm; exact ⟨_, rfl, by simp⟩

theorem execTioStop_kept (K : Keep) (dt : Nat) (n : Fin 6) (src : Iface) (value : BitVec 32) (s : State) :
    ∃ u, execTioStop dt n src value s = .next u ∧ (Kept K u ↔ Kept K s) := by
  unfold execTioStop; exact ⟨_, rfl, by simp⟩

theorem execTioCapRead_kept (K : Keep) (dt : Nat) (n : Fin 6) (src : Iface) (s : State) :
    ∃ u, execTioCapRead dt n src s = .next u ∧ (Kept K u ↔ Kept K s) := by
  unfold execTioCapRead; exact ⟨_, rfl, by simp⟩

@[simp] theorem modTrunk_kept (K : Keep) (f : Trunk → Trunk) (s : State) (h : ∀ x, (f x).ports.length = x.ports.length) :
    Kept K (modTrunk f s) ↔ Kept K s := by
  unfold modTrunk; simp [h]

@[simp] theorem portCount_kept (K : Keep) (p i : Nat) (s : State) : Kept K (portCount p i s) ↔ Kept K s := by
  unfold portCount; simp

@[simp] theorem trunkLink_kept (K : Keep) (p : Nat) (s : State) : Kept K (trunkLink p s) ↔ Kept K s := by
  unfold trunkLink; simp

@[simp] theorem portRole_kept (K : Keep) (p : Nat) (s : State) : Kept K (portRole p s) ↔ Kept K s := by
  unfold portRole; simp

@[simp] theorem roleForPolicy_kept (K : Keep) (p : Nat) (s : State) : Kept K (roleForPolicy p s) ↔ Kept K s := by
  unfold roleForPolicy; (repeat' split) <;> simp_all

@[simp] theorem portToDetect_kept (K : Keep) (p cause : Nat) (s : State) :
    Kept K (portToDetect p cause s) ↔ Kept K s := by
  unfold portToDetect; simp

@[simp] theorem portToBypassed_kept (K : Keep) (p : Nat) (s : State) : Kept K (portToBypassed p s) ↔ Kept K s := by
  unfold portToBypassed; dsimp only; (repeat' split) <;> simp

@[simp] theorem portToTrain_kept (K : Keep) (p : Nat) (m : Mode) (s : State) :
    Kept K (portToTrain p m s) ↔ Kept K s := by
  unfold portToTrain; simp

@[simp] theorem portToNegotiate_kept (K : Keep) (p : Nat) (s : State) : Kept K (portToNegotiate p s) ↔ Kept K s := by
  unfold portToNegotiate; simp

@[simp] theorem waitBegins_kept (K : Keep) (s : State) : Kept K (waitBegins s) ↔ Kept K s := by
  unfold waitBegins; simp

@[simp] theorem portToUp_kept (K : Keep) (p : Nat) (partner : BitVec 64) (s : State) :
    Kept K (portToUp p partner s) ↔ Kept K s := by
  unfold portToUp; simp

@[simp] theorem portTrainFail_kept (K : Keep) (p : Nat) (s : State) : Kept K (portTrainFail p s) ↔ Kept K s := by
  unfold portTrainFail; simp

@[simp] theorem portEnergy_kept (K : Keep) (p : Nat) (s : State) : Kept K (portEnergy p s) ↔ Kept K s := by
  unfold portEnergy; (repeat' split) <;> simp

@[simp] theorem portFallback_kept (K : Keep) (p : Nat) (s : State) : Kept K (portFallback p s) ↔ Kept K s := by
  unfold portFallback; (repeat' split) <;> simp_all

@[simp] theorem portTrainingFailure_kept (K : Keep) (p : Nat) (answered : Bool) (s : State) :
    Kept K (portTrainingFailure p answered s) ↔ Kept K s := by
  unfold portTrainingFailure; (repeat' split) <;> simp

@[simp] theorem siblingFallback_kept (K : Keep) (q : Nat) (s : State) : Kept K (siblingFallback q s) ↔ Kept K s := by
  unfold siblingFallback; (repeat' split) <;> simp_all

@[simp] theorem portNegotiated_kept (K : Keep) (p : Nat) (m1000 m100 master : Bool) (s : State) :
    Kept K (portNegotiated p m1000 m100 master s) ↔ Kept K s := by
  unfold portNegotiated; (repeat' split) <;> simp

@[simp] theorem portViolations_kept (K : Keep) (p k : Nat) (lockLost : Bool) (s : State) :
    Kept K (portViolations p k lockLost s) ↔ Kept K s := by
  unfold portViolations; (repeat' split) <;> simp

@[simp] theorem portSwap_kept (K : Keep) (p : Nat) (s : State) : Kept K (portSwap p s) ↔ Kept K s := by
  unfold portSwap; simp

@[simp] theorem portLoss_kept (K : Keep) (p : Nat) (s : State) : Kept K (portLoss p s) ↔ Kept K s := by
  unfold portLoss; simp

@[simp] theorem portResume_kept (K : Keep) (p : Nat) (s : State) : Kept K (portResume p s) ↔ Kept K s := by
  unfold portResume; (repeat' split) <;> simp

@[simp] theorem portPolicy_kept (K : Keep) (pol p : Nat) (s : State) : Kept K (portPolicy pol p s) ↔ Kept K s := by
  unfold portPolicy; dsimp only; (repeat' split) <;> simp

@[simp] theorem applyPolicy_kept (K : Keep) (d pol : Nat) (s : State) : Kept K (applyPolicy d pol s) ↔ Kept K s := by
  unfold applyPolicy; simp

@[simp] theorem portRetrain_kept (K : Keep) (p : Nat) (s : State) : Kept K (portRetrain p s) ↔ Kept K s := by
  unfold portRetrain; simp

@[simp] theorem queuedPolicy_kept (K : Keep) (d : Nat) (s : State) : Kept K (queuedPolicy d s) ↔ Kept K s := by
  unfold queuedPolicy; (repeat' split) <;> simp

@[simp] theorem trunkEnterSteep_kept (K : Keep) (s : State) : Kept K (trunkEnterSteep s) ↔ Kept K s := by
  unfold trunkEnterSteep; simp

@[simp] theorem switchCommand_kept (K : Keep) (line : Line) (close : Bool) (s : State) :
    Kept K (switchCommand line close s) ↔ Kept K s := by
  unfold switchCommand; (repeat' split) <;> simp

@[simp] theorem closeLine_kept (K : Keep) (line : Line) (s : State) : Kept K (closeLine line s) ↔ Kept K s := by
  unfold closeLine; dsimp only; (repeat' split) <;> simp

@[simp] theorem portAttach_kept (K : Keep) (p : Nat) (s : State) : Kept K (portAttach p s) ↔ Kept K s := by
  unfold portAttach; (repeat' split) <;> simp_all

@[simp] theorem openLine_kept (K : Keep) (line : Line) (s : State) : Kept K (openLine line s) ↔ Kept K s := by
  unfold openLine; rw [forEach_kept]
  · simp
  · intro x s; (repeat' split) <;> simp

@[simp] theorem senseCheck_kept (K : Keep) (line : Line) (sensed : Bool) (s : State) :
    Kept K (senseCheck line sensed s) ↔ Kept K s := by
  unfold senseCheck; dsimp only; (repeat' split) <;> simp

@[simp] theorem sequenceEnd_kept (K : Keep) (passive : Bool) (status : Nat) (s : State) :
    Kept K (sequenceEnd passive status s) ↔ Kept K s := by
  unfold sequenceEnd; simp

@[simp] theorem closeBoth_kept (K : Keep) (s : State) : Kept K (closeBoth s) ↔ Kept K s := by
  unfold closeBoth; simp

@[simp] theorem modSched_kept (K : Keep) (f : Sched → Sched) (s : State) : Kept K (modSched f s) ↔ Kept K s := by
  unfold modSched; simp

@[simp] theorem inaCount_kept (K : Keep) (i : Nat) (s : State) : Kept K (inaCount i s) ↔ Kept K s := by
  unfold inaCount; simp

@[simp] theorem modTwin_kept (K : Keep) (f : Twin → Twin) (s : State) : Kept K (modTwin f s) ↔ Kept K s := by
  unfold modTwin; simp

@[simp] theorem twinCount_kept (K : Keep) (i : Nat) (s : State) : Kept K (twinCount i s) ↔ Kept K s := by
  unfold twinCount; simp

@[simp] theorem setRole_kept (K : Keep) (new : Role) (cause : Nat) (s : State) :
    Kept K (setRole new cause s) ↔ Kept K s := by
  unfold setRole; simp

@[simp] theorem raiseClaim_kept (K : Keep) (s : State) : Kept K (raiseClaim s) ↔ Kept K s := by
  unfold raiseClaim; simp

@[simp] theorem twinLeave_kept (K : Keep) (s : State) : Kept K (twinLeave s) ↔ Kept K s := by
  unfold twinLeave; simp

@[simp] theorem partnerAtSwitch_kept (K : Keep) (new : Directory) (s : State) :
    Kept K (partnerAtSwitch new s) ↔ Kept K s := by
  unfold partnerAtSwitch; (repeat' split) <;> simp

@[simp] theorem learnClaim_kept (K : Keep) (gen : BitVec 16) (pref : Bool) (addr : BitVec 10) (s : State) :
    Kept K (learnClaim gen pref addr s) ↔ Kept K s := by
  unfold learnClaim; simp

@[simp] theorem learnFromFlow_kept (K : Keep) (f : FlowFrame) (verified : Bool) (s : State) :
    Kept K (learnFromFlow f verified s) ↔ Kept K s := by
  unfold learnFromFlow; simp

@[simp] theorem modSession_kept (K : Keep) (p : Session → Bool) (f : Session → Session) (s : State) :
    Kept K (modSession p f s) ↔ Kept K s := by
  unfold modSession; simp

@[simp] theorem queueSession_kept (K : Keep) (f : SessionFrame) (s : State) :
    Kept K (queueSession f s) ↔ Kept K s := by
  unfold queueSession; simp

@[simp] theorem sendSession_kept (K : Keep) (f : SessionFrame) (s : State) : Kept K (sendSession f s) ↔ Kept K s := by
  unfold sendSession; simp

@[simp] theorem closeSession_kept (K : Keep) (x : Session) (cause : Nat) (s : State) :
    Kept K (closeSession x cause s) ↔ Kept K s := by
  unfold closeSession; simp

@[simp] theorem sessionClosed_kept (K : Keep) (x : Session) (cause : Nat) (s : State) :
    Kept K (sessionClosed x cause s) ↔ Kept K s := by
  unfold sessionClosed; simp

@[simp] theorem renumberSessions_kept (K : Keep) (map : List Byte) (new : Directory) (s : State) :
    Kept K (renumberSessions map new s) ↔ Kept K s := by
  unfold renumberSessions; simp

@[simp] theorem mismatchEvent_kept (K : Keep) (p : Nat) (s : State) : Kept K (mismatchEvent p s) ↔ Kept K s := by
  unfold mismatchEvent; simp

@[simp] theorem mismatchOnce_kept (K : Keep) (p : Nat) (s : State) : Kept K (mismatchOnce p s) ↔ Kept K s := by
  unfold mismatchOnce; simp

@[simp] theorem enterSteep_kept (K : Keep) (s : State) : Kept K (enterSteep s) ↔ Kept K s := by
  unfold enterSteep; dsimp only; (repeat' split) <;> simp

@[simp] theorem phaseSample_kept (K : Keep) (theta : Int) (source : BitVec 2) (hops : Nat) (s : State) :
    Kept K (phaseSample theta source hops s) ↔ Kept K s := by
  unfold phaseSample; simp

@[simp] theorem settleLeading_kept (K : Keep) (s : State) : Kept K (settleLeading s) ↔ Kept K s := by
  unfold settleLeading; (repeat' split) <;> simp

@[simp] theorem sendLeading_kept (K : Keep) (s : State) : Kept K (sendLeading s) ↔ Kept K s := by
  unfold sendLeading; (repeat' split) <;> simp

@[simp] theorem conflictEvent_kept (K : Keep) (cause : Byte) (uid : BitVec 64) (s : State) :
    Kept K (conflictEvent cause uid s) ↔ Kept K s := by
  unfold conflictEvent; simp

@[simp] theorem noteConflict_kept (K : Keep) (s : State) : Kept K (noteConflict s) ↔ Kept K s := by
  unfold noteConflict; (repeat' split) <;> simp

@[simp] theorem reportConflicts_kept (K : Keep) (conf : List (Byte × BitVec 64)) (s : State) :
    Kept K (reportConflicts conf s) ↔ Kept K s := by
  unfold reportConflicts; simp

@[simp] theorem firstChange_kept (K : Keep) (was : Bool) (s : State) : Kept K (firstChange was s) ↔ Kept K s := by
  unfold firstChange; simp

@[simp] theorem switchState_kept (K : Keep) (addr : BitVec 10) (s : State) :
    Kept K (switchState addr s) ↔ Kept K s := by
  unfold switchState; simp

@[simp] theorem heldOnJoin_kept (K : Keep) (was s : State) : Kept K (heldOnJoin was s) ↔ Kept K s := by
  unfold heldOnJoin; simp

@[simp] theorem topoChange_kept (K : Keep) (oldGen newGen : BitVec 16) (oldAddr newAddr : BitVec 10) (removal step : Bool) (s : State) :
    Kept K (topoChange oldGen newGen oldAddr newAddr removal step s) ↔ Kept K s := by
  unfold topoChange; simp

@[simp] theorem sendDirAgain_kept (K : Keep) (s : State) : Kept K (sendDirAgain s) ↔ Kept K s := by
  unfold sendDirAgain; simp

@[simp] theorem performSwitch_kept (K : Keep) (new : Directory) (conf : List (Byte × BitVec 64)) (removal step : Bool) (s : State) :
    Kept K (performSwitch new conf removal step s) ↔ Kept K s := by
  unfold performSwitch; simp

@[simp] theorem scheduleRemoval_kept (K : Keep) (b : BreakBody) (s : State) :
    Kept K (scheduleRemoval b s) ↔ Kept K s := by
  unfold scheduleRemoval; (repeat' split) <;> simp

@[simp] theorem portBusy_kept (K : Keep) (p n : Nat) (s : State) : Kept K (portBusy p n s) ↔ Kept K s := by
  unfold portBusy; (repeat' split) <;> simp_all

@[simp] theorem protect_kept (K : Keep) (lineB : Bool) (f : FlowFrame) (s : State) :
    Kept K (protect lineB f s).2 ↔ Kept K s := by
  unfold protect; dsimp only; (repeat' split) <;> simp_all

@[simp] theorem flowLeft_kept (K : Keep) (i : Nat) (first : Bool) (s : State) :
    Kept K (flowLeft i first s) ↔ Kept K s := by
  unfold flowLeft; (repeat' split) <;> simp_all

@[simp] theorem countedAcross_kept (K : Keep) (p i : Nat) (s : State) : Kept K (countedAcross p i s) ↔ Kept K s := by
  unfold countedAcross; (repeat' split) <;> simp_all

@[simp] theorem departing_kept (K : Keep) (p : Nat) (f : QFrame) (s : State) :
    Kept K (departing p f s).2 ↔ Kept K s := by
  unfold departing; dsimp only; (repeat' split) <;> simp_all

@[simp] theorem startFrame_kept (K : Keep) (p q : Nat) (f : QFrame) (s : State) :
    Kept K (startFrame p q f s) ↔ Kept K s := by
  unfold startFrame; dsimp only; (repeat' split) <;> simp_all

@[simp] theorem enqueueFirst_kept (K : Keep) (p : Nat) (f : QFrame) (s : State) :
    Kept K (enqueueFirst p f s) ↔ Kept K s := by
  unfold enqueueFirst; dsimp only; (repeat' split) <;> simp_all

@[simp] theorem sendUrgent_kept (K : Keep) (p : Nat) (f : OutFrame) (s : State) :
    Kept K (sendUrgent p f s) ↔ Kept K s := by
  unfold sendUrgent; simp

@[simp] theorem breakNow_kept (K : Keep) (d : Nat) (cause : Byte) (tDown : Nat) (lost : BitVec 64) (s : State) :
    Kept K (breakNow d cause tDown lost s) ↔ Kept K s := by
  unfold breakNow; (repeat' split) <;> simp

@[simp] theorem checkBroken_kept (K : Keep) (d : Nat) (s : State) : Kept K (checkBroken d s) ↔ Kept K s := by
  unfold checkBroken; simp

@[simp] theorem portLost_kept (K : Keep) (p : Nat) (s : State) : Kept K (portLost p s) ↔ Kept K s := by
  unfold portLost; simp

@[simp] theorem performRemovals_kept (K : Keep) (due : List Removal) (s : State) :
    Kept K (performRemovals due s) ↔ Kept K s := by
  unfold performRemovals; (repeat' split) <;> simp

@[simp] theorem removalsAtInstant_kept (K : Keep) (s : State) : Kept K (removalsAtInstant s) ↔ Kept K s := by
  unfold removalsAtInstant; dsimp only; (repeat' split) <;> simp

@[simp] theorem prepareAddition_kept (K : Keep) (s : State) : Kept K (prepareAddition s) ↔ Kept K s := by
  unfold prepareAddition; (repeat' split) <;> simp

@[simp] theorem prepareMerge_kept (K : Keep) (m : MergeReport) (s : State) :
    Kept K (prepareMerge m s) ↔ Kept K s := by
  unfold prepareMerge; (repeat' split) <;> simp

@[simp] theorem mergeStep_kept (K : Keep) (m : MergeReport) (p : Prepared) (s : State) :
    Kept K (mergeStep m p s) ↔ Kept K s := by
  unfold mergeStep; simp

@[simp] theorem commitDue_kept (K : Keep) (fresh : Bool) (s : State) : Kept K (commitDue fresh s) ↔ Kept K s := by
  unfold commitDue; (repeat' split) <;> simp

@[simp] theorem mergeLost_kept (K : Keep) (p : Prepared) (s : State) : Kept K (mergeLost p s) ↔ Kept K s := by
  unfold mergeLost; (repeat' split) <;> simp_all

@[simp] theorem firstNodePrepares_kept (K : Keep) (s : State) : Kept K (firstNodePrepares s) ↔ Kept K s := by
  unfold firstNodePrepares; (repeat' split) <;> simp

@[simp] theorem sendDirectories_kept (K : Keep) (s : State) : Kept K (sendDirectories s) ↔ Kept K s := by
  unfold sendDirectories; dsimp only; (repeat' split) <;> simp

@[simp] theorem repeatBreaks_kept (K : Keep) (s : State) : Kept K (repeatBreaks s) ↔ Kept K s := by
  unfold repeatBreaks; simp

@[simp] theorem lacksDirectory_kept (K : Keep) (s : State) : Kept K (lacksDirectory s) ↔ Kept K s := by
  unfold lacksDirectory; simp

@[simp] theorem switchAtInstant_kept (K : Keep) (c : BitVec 32) (s : State) :
    Kept K (switchAtInstant c s) ↔ Kept K s := by
  unfold switchAtInstant; (repeat' split) <;> simp_all

@[simp] theorem proofCycle_kept (K : Keep) (mism : Bool) (join : State → State) (s : State)
    (hjoin : ∀ y0, Kept K (join y0) ↔ Kept K y0) :
    Kept K (proofCycle mism join s) ↔ Kept K s := by
  unfold proofCycle; (repeat' split) <;> simp_all

@[simp] theorem proofAtInstant_kept (K : Keep) (s : State) : Kept K (proofAtInstant s) ↔ Kept K s := by
  unfold proofAtInstant; simp

@[simp] theorem renewReport_kept (K : Keep) (m : MergeReport) (q : Nat) (s : State) :
    Kept K (renewReport m q s) ↔ Kept K s := by
  unfold renewReport; simp

@[simp] theorem mergeReport_kept (K : Keep) (p : Nat) (s : State) : Kept K (mergeReport p s) ↔ Kept K s := by
  unfold mergeReport; (repeat' split) <;> simp

@[simp] theorem sendAcross_kept (K : Keep) (p : Nat) (s : State) : Kept K (sendAcross p s) ↔ Kept K s := by
  unfold sendAcross; (repeat' split) <;> simp

@[simp] theorem enterContend_kept (K : Keep) (s : State) : Kept K (enterContend s) ↔ Kept K s := by
  unfold enterContend; simp

@[simp] theorem prepareFirst_kept (K : Keep) (s : State) : Kept K (prepareFirst s) ↔ Kept K s := by
  unfold prepareFirst; simp

@[simp] theorem ttSend_kept (K : Keep) (ps : List Nat) (t : Ttdp) (s : State) :
    Kept K (ttSend ps t s) ↔ Kept K s := by
  unfold ttSend; (repeat' split) <;> simp_all

@[simp] theorem leaveBackbone_kept (K : Keep) (s : State) : Kept K (leaveBackbone s) ↔ Kept K s := by
  unfold leaveBackbone; simp

@[simp] theorem ttTell_kept (K : Keep) (d : Nat) (s : State) : Kept K (ttTell d s) ↔ Kept K s := by
  unfold ttTell; dsimp only; (repeat' split) <;> simp_all

@[simp] theorem ttGone_kept (K : Keep) (d : Nat) (before s : State) : Kept K (ttGone d before s) ↔ Kept K s := by
  unfold ttGone; simp

theorem execLossOfSignal_kept (K : Keep) (dt : Nat) (p : Fin 4) (s : State) :
    ∃ u, execLossOfSignal dt p s = .next u ∧ (Kept K u ↔ Kept K s) := by
  unfold execLossOfSignal; exact ⟨_, rfl, by simp⟩

theorem execResumeEntry_kept (K : Keep) (dt : Nat) (p : Fin 4) (s : State) :
    ∃ u, execResumeEntry dt p s = .next u ∧ (Kept K u ↔ Kept K s) := by
  unfold execResumeEntry; exact ⟨_, rfl, by simp⟩

@[simp] theorem linkDown_kept (K : Keep) (p cause : Nat) (s : State) : Kept K (linkDown p cause s) ↔ Kept K s := by
  unfold linkDown; simp

@[simp] theorem portRelock_kept (K : Keep) (p : Nat) (s : State) : Kept K (portRelock p s) ↔ Kept K s := by
  unfold portRelock; (repeat' split) <;> simp

theorem execSignalRelock_kept (K : Keep) (dt : Nat) (p : Fin 4) (s : State) :
    ∃ u, execSignalRelock dt p s = .next u ∧ (Kept K u ↔ Kept K s) := by
  unfold execSignalRelock; exact ⟨_, rfl, by simp⟩

theorem execLinkDownTimeout_kept (K : Keep) (dt : Nat) (p : Fin 4) (s : State) :
    ∃ u, execLinkDownTimeout dt p s = .next u ∧ (Kept K u ↔ Kept K s) := by
  unfold execLinkDownTimeout; exact ⟨_, rfl, by simp⟩

theorem execPartnerEnergyDetect_kept (K : Keep) (dt : Nat) (p : Fin 4) (s : State) :
    ∃ u, execPartnerEnergyDetect dt p s = .next u ∧ (Kept K u ↔ Kept K s) := by
  unfold execPartnerEnergyDetect; exact ⟨_, rfl, by simp⟩

@[simp] theorem portQualify_kept (K : Keep) (p : Nat) (s : State) : Kept K (portQualify p s) ↔ Kept K s := by
  unfold portQualify; (repeat' split) <;> simp

theorem execTrainingLockComplete_kept (K : Keep) (dt : Nat) (p : Fin 4) (s : State) :
    ∃ u, execTrainingLockComplete dt p s = .next u ∧ (Kept K u ↔ Kept K s) := by
  unfold execTrainingLockComplete; exact ⟨_, rfl, by simp⟩

theorem execQualifyComplete_kept (K : Keep) (dt : Nat) (p : Fin 4) (partner : BitVec 64) (s : State) :
    ∃ u, execQualifyComplete dt p partner s = .next u ∧ (Kept K u ↔ Kept K s) := by
  unfold execQualifyComplete; exact ⟨_, rfl, by (repeat' split) <;> simp⟩

theorem execCodeViolationLimit_kept (K : Keep) (dt : Nat) (p : Fin 4) (violations : Nat) (lockLost : Bool) (s : State) :
    ∃ u, execCodeViolationLimit dt p violations lockLost s = .next u ∧ (Kept K u ↔ Kept K s) := by
  unfold execCodeViolationLimit; exact ⟨_, rfl, by simp⟩

theorem execNegotiateTimeout_kept (K : Keep) (dt : Nat) (p : Fin 4) (s : State) :
    ∃ u, execNegotiateTimeout dt p s = .next u ∧ (Kept K u ↔ Kept K s) := by
  unfold execNegotiateTimeout; exact ⟨_, rfl, by (repeat' split) <;> simp⟩

theorem execAutonegComplete_kept (K : Keep) (dt : Nat) (p : Fin 4) (m1000 m100 master : Bool) (s : State) :
    ∃ u, execAutonegComplete dt p m1000 m100 master s = .next u ∧ (Kept K u ↔ Kept K s) := by
  unfold execAutonegComplete; exact ⟨_, rfl, by (repeat' split) <;> simp⟩

theorem execTrainingFailure_kept (K : Keep) (dt : Nat) (p : Fin 4) (answered : Bool) (s : State) :
    ∃ u, execTrainingFailure dt p answered s = .next u ∧ (Kept K u ↔ Kept K s) := by
  unfold execTrainingFailure; exact ⟨_, rfl, by simp⟩

theorem execT1LinkUp_kept (K : Keep) (dt : Nat) (p : Fin 4) (partner : BitVec 64) (s : State) :
    ∃ u, execT1LinkUp dt p partner s = .next u ∧ (Kept K u ↔ Kept K s) := by
  unfold execT1LinkUp; exact ⟨_, rfl, by (repeat' split) <;> simp⟩

theorem execT1LinkDown_kept (K : Keep) (dt : Nat) (p : Fin 4) (s : State) :
    ∃ u, execT1LinkDown dt p s = .next u ∧ (Kept K u ↔ Kept K s) := by
  unfold execT1LinkDown; exact ⟨_, rfl, by simp⟩

theorem execT1RoleSwap_kept (K : Keep) (dt : Nat) (p : Fin 4) (s : State) :
    ∃ u, execT1RoleSwap dt p s = .next u ∧ (Kept K u ↔ Kept K s) := by
  unfold execT1RoleSwap; exact ⟨_, rfl, by (repeat' split) <;> simp⟩

@[simp] theorem modLane_kept (K : Keep) (k lane : Nat) (f : DelayEst → DelayEst) (s : State) :
    Kept K (modLane k lane f s) ↔ Kept K s := by
  unfold modLane; simp

@[simp] theorem delayRequestSend_kept (K : Keep) (p : DelayPort) (idle : Bool) (tTx : Int) (s : State) :
    Kept K (delayRequestSend p idle tTx s) ↔ Kept K s := by
  unfold delayRequestSend; (repeat' split) <;> simp

theorem execDelayRequest_kept (K : Keep) (dt : Nat) (p : DelayPort) (idle : Bool) (tTx : Int) (s : State) :
    ∃ u, execDelayRequest dt p idle tTx s = .next u ∧ (Kept K u ↔ Kept K s) := by
  unfold execDelayRequest; exact ⟨_, rfl, by simp⟩

@[simp] theorem delayMarkerIn_kept (K : Keep) (p : DelayPort) (m : Marker) (tRx tTx : Int) (s : State) :
    Kept K (delayMarkerIn p m tRx tTx s) ↔ Kept K s := by
  unfold delayMarkerIn; (repeat' split) <;> simp

@[simp] theorem pdelayIn_kept (K : Keep) (p : DelayPort) (m : DelayMsg) (tRx tTx : Int) (s : State) :
    Kept K (pdelayIn p m tRx tTx s) ↔ Kept K s := by
  unfold pdelayIn; (repeat' split) <;> simp

@[simp] theorem delayIn_kept (K : Keep) (p : DelayPort) (m : DelayMsg) (tRx tTx : Int) (s : State) :
    Kept K (delayIn p m tRx tTx s) ↔ Kept K s := by
  unfold delayIn; (repeat' split) <;> simp

theorem execDelayMarkerRx_kept (K : Keep) (dt : Nat) (p : DelayPort) (m : DelayMsg) (tRx : Int) (tTx : Int) (s : State)
    :
    ∃ u, execDelayMarkerRx dt p m tRx tTx s = .next u ∧ (Kept K u ↔ Kept K s) := by
  unfold execDelayMarkerRx; exact ⟨_, rfl, by simp⟩

@[simp] theorem delayTrunkDone_kept (K : Keep) (p : Nat) (x : DelayEst × Bool) (s : State) :
    Kept K (delayTrunkDone p x s) ↔ Kept K s := by
  unfold delayTrunkDone; simp

@[simp] theorem delayLaneDone_kept (K : Keep) (k lane : Nat) (x : DelayEst × Bool) (s : State) :
    Kept K (delayLaneDone k lane x s) ↔ Kept K s := by
  unfold delayLaneDone; simp

@[simp] theorem delayFollowIn_kept (K : Keep) (p : DelayPort) (m : DelayMsg) (s : State) :
    Kept K (delayFollowIn p m s) ↔ Kept K s := by
  unfold delayFollowIn; (repeat' split) <;> simp

theorem execDelayFollowUpRx_kept (K : Keep) (dt : Nat) (p : DelayPort) (m : DelayMsg) (s : State) :
    ∃ u, execDelayFollowUpRx dt p m s = .next u ∧ (Kept K u ↔ Kept K s) := by
  unfold execDelayFollowUpRx; exact ⟨_, rfl, by (repeat' split) <;> simp⟩

theorem execPeerDelayRequest_kept (K : Keep) (dt : Nat) (p : Fin 4) (tTx : Int) (s : State) :
    ∃ u, execPeerDelayRequest dt p tTx s = .next u ∧ (Kept K u ↔ Kept K s) := by
  unfold execPeerDelayRequest; dsimp only; (repeat' split) <;> exact ⟨_, rfl, by simp⟩

@[simp] theorem beaconOut_kept (K : Keep) (p : Nat) (s : State) : Kept K (beaconOut p s) ↔ Kept K s := by
  unfold beaconOut; simp

theorem execLinkBeaconSend_kept (K : Keep) (dt : Nat) (p : Fin 4) (idleFor : Nat) (s : State) :
    ∃ u, execLinkBeaconSend dt p idleFor s = .next u ∧ (Kept K u ↔ Kept K s) := by
  unfold execLinkBeaconSend; exact ⟨_, rfl, by simp⟩

@[simp] theorem passiveBeacon_kept (K : Keep) (p : Nat) (s : State) : Kept K (passiveBeacon p s) ↔ Kept K s := by
  unfold passiveBeacon; (repeat' split) <;> simp_all

@[simp] theorem passiveBeacons_kept (K : Keep) (s : State) : Kept K (passiveBeacons s) ↔ Kept K s := by
  unfold passiveBeacons; simp

@[simp] theorem goPassive_kept (K : Keep) (s : State) : Kept K (goPassive s) ↔ Kept K s := by
  unfold goPassive; simp

theorem execPassiveBeaconSend_kept (K : Keep) (dt : Nat) (s : State) :
    ∃ u, execPassiveBeaconSend dt s = .next u ∧ (Kept K u ↔ Kept K s) := by
  unfold execPassiveBeaconSend; exact ⟨_, rfl, by simp⟩

@[simp] theorem beaconSample_kept (K : Keep) (p : Nat) (s : State) : Kept K (beaconSample p s) ↔ Kept K s := by
  unfold beaconSample; simp

@[simp] theorem beaconSchedule_kept (K : Keep) (p : Nat) (b : Beacon) (s : State) :
    Kept K (beaconSchedule p b s) ↔ Kept K s := by
  unfold beaconSchedule; simp

@[simp] theorem beaconPassive_kept (K : Keep) (p : Nat) (b : Beacon) (s : State) :
    Kept K (beaconPassive p b s) ↔ Kept K s := by
  unfold beaconPassive; simp

@[simp] theorem beaconMerge_kept (K : Keep) (p : Nat) (b : Beacon) (s : State) :
    Kept K (beaconMerge p b s) ↔ Kept K s := by
  unfold beaconMerge; simp

@[simp] theorem beaconIn_kept (K : Keep) (p : Nat) (b : Beacon) (tRx : Int) (s : State) :
    Kept K (beaconIn p b tRx s) ↔ Kept K s := by
  unfold beaconIn; simp

theorem execLinkBeaconRx_kept (K : Keep) (dt : Nat) (p : Fin 4) (b : Beacon) (tRx : Int) (s : State) :
    ∃ u, execLinkBeaconRx dt p b tRx s = .next u ∧ (Kept K u ↔ Kept K s) := by
  unfold execLinkBeaconRx; exact ⟨_, rfl, by simp⟩

@[simp] theorem closeLineBroken_kept (K : Keep) (line : Line) (s : State) :
    Kept K (closeLineBroken line s) ↔ Kept K s := by
  unfold closeLineBroken; simp

@[simp] theorem emergencyClose_kept (K : Keep) (s : State) : Kept K (emergencyClose s) ↔ Kept K s := by
  unfold emergencyClose; simp

@[simp] theorem startSequence_kept (K : Keep) (passive : Bool) (s : State) :
    Kept K (startSequence passive s) ↔ Kept K s := by
  unfold startSequence; dsimp only; split <;> simp [modTrunk_kept _ _ _ passiveEnd_ports_length]

@[simp] theorem nextSequence_kept (K : Keep) (passive : Bool) (s : State) :
    Kept K (nextSequence passive s) ↔ Kept K s := by
  unfold nextSequence; simp

@[simp] theorem finishSequence_kept (K : Keep) (passive : Bool) (s : State) :
    Kept K (finishSequence passive s) ↔ Kept K s := by
  unfold finishSequence; simp

theorem execBypassLineAClose_kept (K : Keep) (dt : Nat) (s : State) :
    ∃ u, execBypassLineAClose dt s = .next u ∧ (Kept K u ↔ Kept K s) := by
  unfold execBypassLineAClose; exact ⟨_, rfl, by (repeat' split) <;> simp⟩

theorem execBypassLineBClose_kept (K : Keep) (dt : Nat) (s : State) :
    ∃ u, execBypassLineBClose dt s = .next u ∧ (Kept K u ↔ Kept K s) := by
  unfold execBypassLineBClose; exact ⟨_, rfl, by (repeat' split) <;> simp⟩

theorem execBypassLineAOpen_kept (K : Keep) (dt : Nat) (s : State) :
    ∃ u, execBypassLineAOpen dt s = .next u ∧ (Kept K u ↔ Kept K s) := by
  unfold execBypassLineAOpen; exact ⟨_, rfl, by (repeat' split) <;> simp⟩

theorem execBypassLineBOpen_kept (K : Keep) (dt : Nat) (s : State) :
    ∃ u, execBypassLineBOpen dt s = .next u ∧ (Kept K u ↔ Kept K s) := by
  unfold execBypassLineBOpen; exact ⟨_, rfl, by (repeat' split) <;> simp⟩

theorem execBypassSenseCheck_kept (K : Keep) (dt : Nat) (line : Line) (closed : Bool) (s : State) :
    ∃ u, execBypassSenseCheck dt line closed s = .next u ∧ (Kept K u ↔ Kept K s) := by
  unfold execBypassSenseCheck; exact ⟨_, rfl, by simp⟩

@[simp] theorem ttTake_kept (K : Keep) (t : Ttdp) (s : State) : Kept K (ttTake t s) ↔ Kept K s := by
  unfold ttTake; simp

@[simp] theorem transitEmit_kept (K : Keep) (q : Nat) (x : TransitItem) (s : State) :
    Kept K (transitEmit q x s) ↔ Kept K s := by
  unfold transitEmit; simp

@[simp] theorem transitOut_kept (K : Keep) (q : Nat) (x : TransitItem) (s : State) :
    Kept K (transitOut q x s) ↔ Kept K s := by
  unfold transitOut; simp

@[simp] theorem forwardLen_kept (K : Keep) (p : Nat) (f : OutFrame) (len : Nat) (s : State) :
    Kept K (forwardLen p f len s) ↔ Kept K s := by
  unfold forwardLen; simp

@[simp] theorem ttLearn_kept (K : Keep) (d : Nat) (t : Ttdp) (s : State) : Kept K (ttLearn d t s) ↔ Kept K s := by
  unfold ttLearn; dsimp only; (repeat' split) <;> simp_all

@[simp] theorem ttdpIn_kept (K : Keep) (p : Nat) (t : Ttdp) (s : State) : Kept K (ttdpIn p t s) ↔ Kept K s := by
  unfold ttdpIn; simp

@[simp] theorem ttClean_kept (K : Keep) (d : Nat) (s : State) : Kept K (ttClean d s) ↔ Kept K s := by
  unfold ttClean; dsimp only; (repeat' split) <;> simp_all

@[simp] theorem ttDiscover_kept (K : Keep) (s : State) : Kept K (ttDiscover s) ↔ Kept K s := by
  unfold ttDiscover; (repeat' split) <;> simp_all

@[simp] theorem ttAtInstant_kept (K : Keep) (s : State) : Kept K (ttAtInstant s) ↔ Kept K s := by
  unfold ttAtInstant; dsimp only; (repeat' split) <;> simp

theorem execTtdpFrameRx_kept (K : Keep) (dt : Nat) (p : Fin 4) (t : Ttdp) (s : State) :
    ∃ u, execTtdpFrameRx dt p t s = .next u ∧ (Kept K u ↔ Kept K s) := by
  unfold execTtdpFrameRx; exact ⟨_, rfl, by simp⟩

@[simp] theorem domainSend_kept (K : Keep) (ps : List Nat) (domain : BitVec 7) (x : Int) (s : State) :
    Kept K (domainSend ps domain x s) ↔ Kept K s := by
  unfold domainSend; (repeat' split) <;> simp_all

@[simp] theorem domainSyncIn_kept (K : Keep) (p : Nat) (domain : BitVec 7) (origin tRx : Int) (s : State) :
    Kept K (domainSyncIn p domain origin tRx s) ↔ Kept K s := by
  unfold domainSyncIn; simp

theorem execTrunkDomainSyncRx_kept (K : Keep) (dt : Nat) (p : Fin 4) (domain : BitVec 7) (origin : Int) (tRx : Int) (s :
    State) :
    ∃ u, execTrunkDomainSyncRx dt p domain origin tRx s = .next u ∧ (Kept K u ↔ Kept K s) := by
  unfold execTrunkDomainSyncRx; exact ⟨_, rfl, by simp⟩

@[simp] theorem domainAtInstant_kept (K : Keep) (s : State) : Kept K (domainAtInstant s) ↔ Kept K s := by
  unfold domainAtInstant; simp

@[simp] theorem wtbPortUp_kept (K : Keep) (p : Nat) (s : State) : Kept K (wtbPortUp p s) ↔ Kept K s := by
  unfold wtbPortUp; dsimp only; (repeat' split) <;> simp

@[simp] theorem wtbTap_kept (K : Keep) (s : State) : Kept K (wtbTap s) ↔ Kept K s := by
  unfold wtbTap; simp

@[simp] theorem wtbEndPorts_kept (K : Keep) (d : Nat) (s : State) : Kept K (wtbEndPorts d s) ↔ Kept K s := by
  unfold wtbEndPorts; simp

@[simp] theorem wtbPorts_kept (K : Keep) (d : Fin 2) (master : Bool) (s : State) :
    Kept K (wtbPorts d master s) ↔ Kept K s := by
  unfold wtbPorts; simp

@[simp] theorem islandPut_kept (K : Keep) (u : BitVec 64) (d : Fin 2) (addrs : List Byte) (interior : Bool) (s : State)
    :
    Kept K (islandPut u d addrs interior s) ↔ Kept K s := by
  unfold islandPut; simp

@[simp] theorem islandDone_kept (K : Keep) (d : Fin 2) (addrs : List Byte) (interior master : Bool) (s : State) :
    Kept K (islandDone d addrs interior master s) ↔ Kept K s := by
  unfold islandDone; simp

@[simp] theorem islandReported_kept (K : Keep) (u : BitVec 64) (d : Fin 2) (addrs : List Byte) (interior : Bool) (s :
    State) :
    Kept K (islandReported u d addrs interior s) ↔ Kept K s := by
  unfold islandReported; simp

theorem execIslandInaugurationComplete_kept (K : Keep) (dt : Nat) (dir : Fin 2) (wtbAddrs : List Byte)
    (interior master : Bool) (reporter : Option (BitVec 64)) (s : State) :
    ∃ u, execIslandInaugurationComplete dt dir wtbAddrs interior master reporter s = .next u ∧ (Kept K u ↔ Kept K s) := by
  unfold execIslandInaugurationComplete; split
  · exact ⟨_, rfl, by simp⟩
  · exact ⟨_, rfl, by simp⟩

@[simp] theorem trunkSetPolicyBody_kept (K : Keep) (r : Ring) (s : State) :
    Kept K ((trunkSetPolicyBody r s).2) ↔ Kept K s := by
  unfold trunkSetPolicyBody; simp

@[simp] theorem trunkStatusBody_kept (K : Keep) (r : Ring) (s : State) :
    Kept K ((trunkStatusBody r s).2) ↔ Kept K s := by
  unfold trunkStatusBody; simp

@[simp] theorem trunkBypassBody_kept (K : Keep) (r : Ring) (s : State) :
    Kept K ((trunkBypassBody r s).2) ↔ Kept K s := by
  unfold trunkBypassBody; (repeat' split) <;> simp

@[simp] theorem trunkRetrainBody_kept (K : Keep) (r : Ring) (s : State) :
    Kept K ((trunkRetrainBody r s).2) ↔ Kept K s := by
  unfold trunkRetrainBody; simp

theorem execTrunkSetPolicy_kept (K : Keep) (dt : Nat) (r : Ring) (s : State) :
    ∃ u, execTrunkSetPolicy dt r s = .next u ∧ (Kept K u ↔ Kept K s) := by
  unfold execTrunkSetPolicy; exact ⟨_, rfl, by simp⟩

theorem execTrunkStatus_kept (K : Keep) (dt : Nat) (r : Ring) (s : State) :
    ∃ u, execTrunkStatus dt r s = .next u ∧ (Kept K u ↔ Kept K s) := by
  unfold execTrunkStatus; exact ⟨_, rfl, by simp⟩

theorem execTrunkBypassPassive_kept (K : Keep) (dt : Nat) (r : Ring) (s : State) :
    ∃ u, execTrunkBypassPassive dt r s = .next u ∧ (Kept K u ↔ Kept K s) := by
  unfold execTrunkBypassPassive; exact ⟨_, rfl, by simp⟩

theorem execTrunkBypassActive_kept (K : Keep) (dt : Nat) (r : Ring) (s : State) :
    ∃ u, execTrunkBypassActive dt r s = .next u ∧ (Kept K u ↔ Kept K s) := by
  unfold execTrunkBypassActive; exact ⟨_, rfl, by simp⟩

theorem execTrunkRetrain_kept (K : Keep) (dt : Nat) (r : Ring) (s : State) :
    ∃ u, execTrunkRetrain dt r s = .next u ∧ (Kept K u ↔ Kept K s) := by
  unfold execTrunkRetrain; exact ⟨_, rfl, by simp⟩

@[simp] theorem forwardAtOnce_kept (K : Keep) (p : Nat) (f : OutFrame) (len : Nat) (s : State) :
    Kept K (forwardAtOnce p f len s) ↔ Kept K s := by
  unfold forwardAtOnce; (repeat' split) <;> simp_all

@[simp] theorem forwardFrame_kept (K : Keep) (p : Nat) (f : OutFrame) (s : State) :
    Kept K (forwardFrame p f s) ↔ Kept K s := by
  unfold forwardFrame; simp

@[simp] theorem creditDefer_kept (K : Keep) (p q : Nat) (s : State) : Kept K (creditDefer p q s) ↔ Kept K s := by
  unfold creditDefer; dsimp only; (repeat' split) <;> simp_all

@[simp] theorem startQueued_kept (K : Keep) (p q : Nat) (f : QFrame) (s : State) :
    Kept K (startQueued p q f s) ↔ Kept K s := by
  unfold startQueued; simp

@[simp] theorem boundaryQueues_kept (K : Keep) (p : Nat) (s : State) : Kept K (boundaryQueues p s) ↔ Kept K s := by
  unfold boundaryQueues; simp

@[simp] theorem classDefers_kept (K : Keep) (p q : Nat) (qs : List Nat) (s : State) :
    Kept K (classDefers p q qs s) ↔ Kept K s := by
  unfold classDefers; (repeat' split) <;> simp_all

@[simp] theorem nextQueued_kept (K : Keep) (p : Nat) (l : List Nat) (s : State) :
    Kept K (nextQueued p l s) ↔ Kept K s := by
  induction l generalizing s with
  | nil => simp [nextQueued]
  | cons q qs ih => unfold nextQueued; (repeat' split) <;> simp [ih]

@[simp] theorem nonScheduled_kept (K : Keep) (p : Nat) (transitBusy : Bool) (s : State) :
    Kept K (nonScheduled p transitBusy s) ↔ Kept K s := by
  unfold nonScheduled; dsimp only; (repeat' split) <;> simp

end Sys2Proof.Machine
end

