-- ==== Sys2Proof/Laws/KeptFlow.lean ====
section
/-! SUPPORT. The schedule, the flows, sessions, the recorder and gPTP keep what `Kept` names. -/

namespace Sys2Proof.Machine

@[simp] theorem modLine_kept (K : Keep) (l : Line) (f : LinePath → LinePath) (s : State) :
    Kept K (modLine l f s) ↔ Kept K s := by
  unfold modLine; (repeat' split) <;> simp

@[simp] theorem sendOpening_kept (K : Keep) (s : State) : Kept K (sendOpening s) ↔ Kept K s := by
  unfold sendOpening; (repeat' split) <;> simp

@[simp] theorem enterHeld_kept (K : Keep) (s : State) : Kept K (enterHeld s) ↔ Kept K s := by
  unfold enterHeld; (repeat' split) <;> simp

@[simp] theorem leaveHeld_kept (K : Keep) (s : State) : Kept K (leaveHeld s) ↔ Kept K s := by
  unfold leaveHeld; simp

@[simp] theorem followHeld_kept (K : Keep) (f : OpeningFrame) (s : State) : Kept K (followHeld f s) ↔ Kept K s := by
  unfold followHeld; simp

@[simp] theorem runImage_kept (K : Keep) (im : Image) (s : State) : Kept K (runImage im s) ↔ Kept K s := by
  unfold runImage; simp

@[simp] theorem macroChange_kept (K : Keep) (s : State) : Kept K (macroChange s) ↔ Kept K s := by
  unfold macroChange; simp

@[simp] theorem rescalePrep_kept (K : Keep) (old new : Nat) (s : State) :
    Kept K (rescalePrep old new s) ↔ Kept K s := by
  unfold rescalePrep; dsimp only; (repeat' split) <;> simp_all

@[simp] theorem releaseNow_kept (K : Keep) (s : State) : Kept K (releaseNow s) ↔ Kept K s := by
  unfold releaseNow; (repeat' split) <;> simp

@[simp] theorem releaseAtInstant_kept (K : Keep) (s : State) : Kept K (releaseAtInstant s) ↔ Kept K s := by
  unfold releaseAtInstant; (repeat' split) <;> simp

@[simp] theorem holdAtInstant_kept (K : Keep) (s : State) : Kept K (holdAtInstant s) ↔ Kept K s := by
  unfold holdAtInstant; simp

@[simp] theorem setLine_kept (K : Keep) (b : Bool) (s : State) : Kept K (setLine b s) ↔ Kept K s := by
  unfold setLine; simp

@[simp] theorem sampleA_kept (K : Keep) (theta : Int) (hops : Nat) (s : State) :
    Kept K (sampleA theta hops s) ↔ Kept K s := by
  unfold sampleA; simp

@[simp] theorem sampleB_kept (K : Keep) (theta : Int) (hops : Nat) (s : State) :
    Kept K (sampleB theta hops s) ↔ Kept K s := by
  unfold sampleB; simp

@[simp] theorem lineClose_kept (K : Keep) (s : State) : Kept K (lineClose s) ↔ Kept K s := by
  unfold lineClose; simp

@[simp] theorem heldSample_kept (K : Keep) (s : State) : Kept K (heldSample s) ↔ Kept K s := by
  unfold heldSample; (repeat' split) <;> simp

@[simp] theorem openingSample_kept (K : Keep) (p : Nat) (f : OpeningFrame) (tPin : Int) (s : State) :
    Kept K (openingSample p f tPin s) ↔ Kept K s := by
  unfold openingSample; simp

@[simp] theorem followInaug_kept (K : Keep) (f : OpeningFrame) (s : State) : Kept K (followInaug f s) ↔ Kept K s := by
  unfold followInaug; (repeat' split) <;> simp

@[simp] theorem openingLine_kept (K : Keep) (im : Image) (p : Nat) (f : OpeningFrame) (s : State) :
    Kept K (openingLine im p f s) ↔ Kept K s := by
  unfold openingLine; simp

@[simp] theorem openingFirst_kept (K : Keep) (im : Image) (f : OpeningFrame) (s : State) :
    Kept K (openingFirst im f s) ↔ Kept K s := by
  unfold openingFirst; simp

@[simp] theorem openingValid_kept (K : Keep) (im : Image) (p : Nat) (f : OpeningFrame) (tPin : Int) (s : State) :
    Kept K (openingValid im p f tPin s) ↔ Kept K s := by
  unfold openingValid; dsimp only; (repeat' split) <;> simp

@[simp] theorem openingFailed_kept (K : Keep) (why p : Nat) (s : State) :
    Kept K (openingFailed why p s) ↔ Kept K s := by
  unfold openingFailed; simp

@[simp] theorem openingContend_kept (K : Keep) (f : OpeningFrame) (s : State) :
    Kept K (openingContend f s) ↔ Kept K s := by
  unfold openingContend; simp

@[simp] theorem openingEffect_kept (K : Keep) (p : Nat) (f : OpeningFrame) (tPin : Int) (s : State) :
    Kept K (openingEffect p f tPin s) ↔ Kept K s := by
  unfold openingEffect; dsimp only; (repeat' split) <;> simp

@[simp] theorem frameError_kept (K : Keep) (p : Nat) (fin : FrameEnd) (s : State) :
    Kept K (frameError p fin s) ↔ Kept K s := by
  unfold frameError; (repeat' split) <;> simp_all

@[simp] theorem openingIn_kept (K : Keep) (p : Nat) (f : OpeningFrame) (tRx : Int) (fin : FrameEnd) (s : State) :
    Kept K (openingIn p f tRx fin s) ↔ Kept K s := by
  unfold openingIn; (repeat' split) <;> simp

theorem execOpeningFrameRx_kept (K : Keep) (dt : Nat) (p : Fin 4) (f : OpeningFrame) (tRx : Int) (fin : FrameEnd) (s :
    State) :
    ∃ u, execOpeningFrameRx dt p f tRx fin s = .next u ∧ (Kept K u ↔ Kept K s) := by
  unfold execOpeningFrameRx; exact ⟨_, rfl, by simp⟩

@[simp] theorem slotPhase_kept (K : Keep) (starts : Bool) (s : State) : Kept K (slotPhase starts s) ↔ Kept K s := by
  unfold slotPhase; simp

@[simp] theorem pathClose_kept (K : Keep) (s : State) : Kept K (pathClose s) ↔ Kept K s := by
  unfold pathClose; dsimp only; (repeat' split) <;> simp_all

@[simp] theorem cycleClose_kept (K : Keep) (s : State) : Kept K (cycleClose s) ↔ Kept K s := by
  unfold cycleClose; (repeat' split) <;> simp

@[simp] theorem creditRestore_kept (K : Keep) (s : State) : Kept K (creditRestore s) ↔ Kept K s := by
  unfold creditRestore; simp

@[simp] theorem transitLocal_kept (K : Keep) (f : EthFrame) (s : State) : Kept K (transitLocal f s) ↔ Kept K s := by
  unfold transitLocal; simp

@[simp] theorem transitIn_kept (K : Keep) (p : Nat) (f : TransitFrame) (t : Int) (s : State) :
    Kept K (transitIn p f t s) ↔ Kept K s := by
  unfold transitIn; dsimp only; (repeat' split) <;> simp_all

theorem execTrunkFrameForward_kept (K : Keep) (dt : Nat) (p : Fin 4) (f : TransitFrame) (_tRx : Int) (s : State) :
    ∃ u, execTrunkFrameForward dt p f _tRx s = .next u ∧ (Kept K u ↔ Kept K s) := by
  unfold execTrunkFrameForward; exact ⟨_, rfl, by simp⟩

theorem execSporadicAbort_kept (K : Keep) (dt : Nat) (passing : List (Fin 4)) (s : State) :
    ∃ u, execSporadicAbort dt passing s = .next u ∧ (Kept K u ↔ Kept K s) := by
  unfold execSporadicAbort; exact ⟨_, rfl, by simp⟩

theorem execNonScheduledSend_kept (K : Keep) (dt : Nat) (p : Fin 4) (transitBusy : Bool) (s : State) :
    ∃ u, execNonScheduledSend dt p transitBusy s = .next u ∧ (Kept K u ↔ Kept K s) := by
  unfold execNonScheduledSend; exact ⟨_, rfl, by simp⟩

@[simp] theorem breakIn_kept (K : Keep) (p : Nat) (b : BreakBody) (s : State) : Kept K (breakIn p b s) ↔ Kept K s := by
  unfold breakIn; simp

theorem execBreakRx_kept (K : Keep) (dt : Nat) (p : Fin 4) (b : BreakBody) (s : State) :
    ∃ u, execBreakRx dt p b s = .next u ∧ (Kept K u ↔ Kept K s) := by
  unfold execBreakRx; exact ⟨_, rfl, by simp⟩

@[simp] theorem takeDirectory_kept (K : Keep) (d : Directory) (s : State) :
    Kept K (takeDirectory d s) ↔ Kept K s := by
  unfold takeDirectory; simp

@[simp] theorem takePrepared_kept (K : Keep) (d : Directory) (s : State) : Kept K (takePrepared d s) ↔ Kept K s := by
  unfold takePrepared; (repeat' split) <;> simp

@[simp] theorem directoryIn_kept (K : Keep) (p : Nat) (f : DirFrame) (s : State) :
    Kept K (directoryIn p f s) ↔ Kept K s := by
  unfold directoryIn; dsimp only; (repeat' split) <;> simp

@[simp] theorem directoryOnTrunk_kept (K : Keep) (p : Nat) (d : DirFrame) (s : State) :
    Kept K (directoryOnTrunk p d s) ↔ Kept K s := by
  unfold directoryOnTrunk; simp

theorem execDirectoryRx_kept (K : Keep) (dt : Nat) (p : Fin 4) (d : DirFrame) (s : State) :
    ∃ u, execDirectoryRx dt p d s = .next u ∧ (Kept K u ↔ Kept K s) := by
  unfold execDirectoryRx; exact ⟨_, rfl, by simp⟩

@[simp] theorem joinFirst_kept (K : Keep) (j : JoinBody) (s : State) : Kept K (joinFirst j s) ↔ Kept K s := by
  unfold joinFirst; simp

@[simp] theorem joinLead_kept (K : Keep) (j : JoinBody) (s : State) : Kept K (joinLead j s) ↔ Kept K s := by
  unfold joinLead; simp

@[simp] theorem joinIn_kept (K : Keep) (p : Option Nat) (j : JoinBody) (s : State) :
    Kept K (joinIn p j s) ↔ Kept K s := by
  unfold joinIn; (repeat' split) <;> simp

theorem execJoinRx_kept (K : Keep) (dt : Nat) (p : Option (Fin 4)) (j : JoinBody) (s : State) :
    ∃ u, execJoinRx dt p j s = .next u ∧ (Kept K u ↔ Kept K s) := by
  unfold execJoinRx; exact ⟨_, rfl, by simp⟩

@[simp] theorem coldClaimIn_kept (K : Keep) (p : Nat) (c : ColdClaim) (s : State) :
    Kept K (coldClaimIn p c s) ↔ Kept K s := by
  unfold coldClaimIn; simp

theorem execColdClaimRx_kept (K : Keep) (dt : Nat) (p : Fin 4) (c : ColdClaim) (s : State) :
    ∃ u, execColdClaimRx dt p c s = .next u ∧ (Kept K u ↔ Kept K s) := by
  unfold execColdClaimRx; exact ⟨_, rfl, by simp⟩

@[simp] theorem mergeReportIn_kept (K : Keep) (p : Nat) (m : MergeReport) (s : State) :
    Kept K (mergeReportIn p m s) ↔ Kept K s := by
  unfold mergeReportIn; simp

theorem execMergeReportRx_kept (K : Keep) (dt : Nat) (p : Fin 4) (m : MergeReport) (s : State) :
    ∃ u, execMergeReportRx dt p m s = .next u ∧ (Kept K u ↔ Kept K s) := by
  unfold execMergeReportRx; exact ⟨_, rfl, by simp⟩

@[simp] theorem leadSetIn_kept (K : Keep) (p : Option Nat) (vid : BitVec 48) (s : State) :
    Kept K (leadSetIn p vid s) ↔ Kept K s := by
  unfold leadSetIn; cases p <;> simp

theorem execLeadSetRx_kept (K : Keep) (dt : Nat) (p : Option (Fin 4)) (vid : BitVec 48) (s : State) :
    ∃ u, execLeadSetRx dt p vid s = .next u ∧ (Kept K u ↔ Kept K s) := by
  unfold execLeadSetRx; exact ⟨_, rfl, by simp⟩

theorem execColdStartTimeout_kept (K : Keep) (dt : Nat) (s : State) :
    ∃ u, execColdStartTimeout dt s = .next u ∧ (Kept K u ↔ Kept K s) := by
  unfold execColdStartTimeout; exact ⟨_, rfl, by simp⟩

theorem execColdClaimSend_kept (K : Keep) (dt : Nat) (s : State) :
    ∃ u, execColdClaimSend dt s = .next u ∧ (Kept K u ↔ Kept K s) := by
  unfold execColdClaimSend; exact ⟨_, rfl, by simp⟩

theorem execContendTimeout_kept (K : Keep) (dt : Nat) (s : State) :
    ∃ u, execContendTimeout dt s = .next u ∧ (Kept K u ↔ Kept K s) := by
  unfold execContendTimeout; exact ⟨_, rfl, by simp⟩

@[simp] theorem leadAtInstant_kept (K : Keep) (s : State) : Kept K (leadAtInstant s) ↔ Kept K s := by
  unfold leadAtInstant; simp

@[simp] theorem leadStep_kept (K : Keep) (was s : State) : Kept K (leadStep was s) ↔ Kept K s := by
  unfold leadStep; simp

@[simp] theorem provisionalAtInstant_kept (K : Keep) (s : State) : Kept K (provisionalAtInstant s) ↔ Kept K s := by
  unfold provisionalAtInstant; simp

theorem execProvisionalNoJoin_kept (K : Keep) (dt : Nat) (s : State) :
    ∃ u, execProvisionalNoJoin dt s = .next u ∧ (Kept K u ↔ Kept K s) := by
  unfold execProvisionalNoJoin; exact ⟨_, rfl, by simp⟩

@[simp] theorem schedStatusBody_kept (K : Keep) (r : Ring) (s : State) :
    Kept K ((schedStatusBody r s).2) ↔ Kept K s := by
  unfold schedStatusBody; simp

@[simp] theorem schedStageBody_kept (K : Keep) (r : Ring) (s : State) :
    Kept K ((schedStageBody r s).2) ↔ Kept K s := by
  unfold schedStageBody; simp

@[simp] theorem schedVerifyBody_kept (K : Keep) (_r : Ring) (s : State) :
    Kept K ((schedVerifyBody _r s).2) ↔ Kept K s := by
  unfold schedVerifyBody; dsimp only; (repeat' split) <;> simp

@[simp] theorem schedHoldBody_kept (K : Keep) (_r : Ring) (s : State) :
    Kept K ((schedHoldBody _r s).2) ↔ Kept K s := by
  unfold schedHoldBody; (repeat' split) <;> simp

@[simp] theorem schedActivateBody_kept (K : Keep) (_r : Ring) (s : State) :
    Kept K ((schedActivateBody _r s).2) ↔ Kept K s := by
  unfold schedActivateBody; (repeat' split) <;> simp

@[simp] theorem schedReleaseBody_kept (K : Keep) (_r : Ring) (s : State) :
    Kept K ((schedReleaseBody _r s).2) ↔ Kept K s := by
  unfold schedReleaseBody; (repeat' split) <;> simp

@[simp] theorem entryCount_kept (K : Keep) (n i : Nat) (s : State) : Kept K (entryCount n i s) ↔ Kept K s := by
  unfold entryCount; simp

@[simp] theorem schedEntryStatusBody_kept (K : Keep) (r : Ring) (s : State) :
    Kept K ((schedEntryStatusBody r s).2) ↔ Kept K s := by
  unfold schedEntryStatusBody; dsimp only; (repeat' split) <;> simp

theorem execSchedStatus_kept (K : Keep) (dt : Nat) (r : Ring) (s : State) :
    ∃ u, execSchedStatus dt r s = .next u ∧ (Kept K u ↔ Kept K s) := by
  unfold execSchedStatus; exact ⟨_, rfl, by simp⟩

theorem execSchedStage_kept (K : Keep) (dt : Nat) (r : Ring) (s : State) :
    ∃ u, execSchedStage dt r s = .next u ∧ (Kept K u ↔ Kept K s) := by
  unfold execSchedStage; exact ⟨_, rfl, by simp⟩

theorem execSchedVerify_kept (K : Keep) (dt : Nat) (r : Ring) (s : State) :
    ∃ u, execSchedVerify dt r s = .next u ∧ (Kept K u ↔ Kept K s) := by
  unfold execSchedVerify; exact ⟨_, rfl, by simp⟩

theorem execSchedHold_kept (K : Keep) (dt : Nat) (r : Ring) (s : State) :
    ∃ u, execSchedHold dt r s = .next u ∧ (Kept K u ↔ Kept K s) := by
  unfold execSchedHold; exact ⟨_, rfl, by simp⟩

theorem execSchedRelease_kept (K : Keep) (dt : Nat) (r : Ring) (s : State) :
    ∃ u, execSchedRelease dt r s = .next u ∧ (Kept K u ↔ Kept K s) := by
  unfold execSchedRelease; exact ⟨_, rfl, by simp⟩

theorem execSchedEntryStatus_kept (K : Keep) (dt : Nat) (r : Ring) (s : State) :
    ∃ u, execSchedEntryStatus dt r s = .next u ∧ (Kept K u ↔ Kept K s) := by
  unfold execSchedEntryStatus; exact ⟨_, rfl, by simp⟩

@[simp] theorem modRun_kept (K : Keep) (i : Nat) (f : FlowRun → FlowRun) (s : State) :
    Kept K (modRun i f s) ↔ Kept K s := by
  unfold modRun; simp

@[simp] theorem flowCount_kept (K : Keep) (i k : Nat) (s : State) : Kept K (flowCount i k s) ↔ Kept K s := by
  unfold flowCount; simp

@[simp] theorem setBank_kept (K : Keep) (one : Bool) (f : Mem → Mem) (s : State) :
    Kept K (setBank one f s) ↔ Kept K s := by
  unfold setBank; simp

@[simp] theorem modOut_kept (K : Keep) (f : Mem → Mem) (s : State) : Kept K (modOut f s) ↔ Kept K s := by
  unfold modOut; simp

@[simp] theorem modNext_kept (K : Keep) (f : Mem → Mem) (s : State) : Kept K (modNext f s) ↔ Kept K s := by
  unfold modNext; simp

@[simp] theorem writeLinked_kept (K : Keep) (i off : Nat) (data : List Byte) (s : State) :
    Kept K (writeLinked i off data s) ↔ Kept K s := by
  unfold writeLinked; simp

@[simp] theorem checkLinks_kept (K : Keep) (s : State) : Kept K (checkLinks s) ↔ Kept K s := by
  unfold checkLinks; simp

@[simp] theorem zeroArea_kept (K : Keep) (c : FlowCtx) (s : State) : Kept K (zeroArea c s) ↔ Kept K s := by
  unfold zeroArea; simp

@[simp] theorem applyCtx_kept (K : Keep) (i : Nat) (c : FlowCtx) (s : State) :
    Kept K (applyCtx i c s) ↔ Kept K s := by
  unfold applyCtx; simp

@[simp] theorem judgeContexts_kept (K : Keep) (s : State) : Kept K (judgeContexts s) ↔ Kept K s := by
  unfold judgeContexts; (repeat' split) <;> simp

@[simp] theorem applyContexts_kept (K : Keep) (s : State) : Kept K (applyContexts s) ↔ Kept K s := by
  unfold applyContexts; simp

@[simp] theorem flowSetBody_kept (K : Keep) (r : Ring) (s : State) : Kept K ((flowSetBody r s).2) ↔ Kept K s := by
  unfold flowSetBody; dsimp only; (repeat' split) <;> simp

@[simp] theorem flowGetBody_kept (K : Keep) (r : Ring) (s : State) : Kept K ((flowGetBody r s).2) ↔ Kept K s := by
  unfold flowGetBody; simp

@[simp] theorem flowStatusBody_kept (K : Keep) (r : Ring) (s : State) :
    Kept K ((flowStatusBody r s).2) ↔ Kept K s := by
  unfold flowStatusBody; simp

@[simp] theorem flowSaveBody_kept (K : Keep) (_r : Ring) (s : State) : Kept K ((flowSaveBody _r s).2) ↔ Kept K s := by
  unfold flowSaveBody; simp

@[simp] theorem flowSaveWork_kept (K : Keep) (s : State) : Kept K (flowSaveWork s) ↔ Kept K s := by
  unfold flowSaveWork; simp

@[simp] theorem flowMacsecKeyBody_kept (K : Keep) (r : Ring) (s : State) :
    Kept K ((flowMacsecKeyBody r s).2) ↔ Kept K s := by
  unfold flowMacsecKeyBody; simp

theorem execFlowSet_kept (K : Keep) (dt : Nat) (r : Ring) (s : State) :
    ∃ u, execFlowSet dt r s = .next u ∧ (Kept K u ↔ Kept K s) := by
  unfold execFlowSet; exact ⟨_, rfl, by simp⟩

theorem execFlowGet_kept (K : Keep) (dt : Nat) (r : Ring) (s : State) :
    ∃ u, execFlowGet dt r s = .next u ∧ (Kept K u ↔ Kept K s) := by
  unfold execFlowGet; exact ⟨_, rfl, by simp⟩

theorem execFlowStatus_kept (K : Keep) (dt : Nat) (r : Ring) (s : State) :
    ∃ u, execFlowStatus dt r s = .next u ∧ (Kept K u ↔ Kept K s) := by
  unfold execFlowStatus; exact ⟨_, rfl, by simp⟩

theorem execFlowSave_kept (K : Keep) (dt : Nat) (r : Ring) (s : State) :
    ∃ u, execFlowSave dt r s = .next u ∧ (Kept K u ↔ Kept K s) := by
  unfold execFlowSave; exact ⟨_, rfl, by simp⟩

theorem execFlowMacsecKey_kept (K : Keep) (dt : Nat) (r : Ring) (s : State) :
    ∃ u, execFlowMacsecKey dt r s = .next u ∧ (Kept K u ↔ Kept K s) := by
  unfold execFlowMacsecKey; exact ⟨_, rfl, by simp⟩

@[simp] theorem schedActivateFull_kept (K : Keep) (r : Ring) (s : State) :
    Kept K ((schedActivateFull r s).2) ↔ Kept K s := by
  unfold schedActivateFull; simp

theorem execSchedActivate_kept (K : Keep) (dt : Nat) (r : Ring) (s : State) :
    ∃ u, execSchedActivate dt r s = .next u ∧ (Kept K u ↔ Kept K s) := by
  unfold execSchedActivate; exact ⟨_, rfl, by simp⟩

@[simp] theorem entryReceived_kept (K : Keep) (n : Nat) (lineB : Bool) (s : State) :
    Kept K (entryReceived n lineB s) ↔ Kept K s := by
  unfold entryReceived; simp

@[simp] theorem windowViolation_kept (K : Keep) (n : Nat) (s : State) : Kept K (windowViolation n s) ↔ Kept K s := by
  unfold windowViolation; simp

@[simp] theorem macsecNote_kept (K : Keep) (t : SecTag) (s : State) : Kept K (macsecNote t s) ↔ Kept K s := by
  unfold macsecNote; simp

@[simp] theorem macsecTake_kept (K : Keep) (f : FlowFrame) (s : State) : Kept K ((macsecTake f s).2) ↔ Kept K s := by
  unfold macsecTake; (repeat' split) <;> simp

@[simp] theorem sakAtInstant_kept (K : Keep) (s : State) : Kept K (sakAtInstant s) ↔ Kept K s := by
  unfold sakAtInstant; simp

@[simp] theorem showFlags_kept (K : Keep) (i : Nat) (s : State) : Kept K (showFlags i s) ↔ Kept K s := by
  unfold showFlags; simp

@[simp] theorem enterSafe_kept (K : Keep) (i cause : Nat) (s : State) : Kept K (enterSafe i cause s) ↔ Kept K s := by
  unfold enterSafe; simp

@[simp] theorem safeCheck_kept (K : Keep) (i : Nat) (c : FlowCtx) (higher : Bool) (f : FlowFrame) (s : State) :
    Kept K ((safeCheck i c higher f s).2) ↔ Kept K s := by
  unfold safeCheck; (repeat' split) <;> simp

@[simp] theorem acceptFlow_kept (K : Keep) (i : Nat) (c : FlowCtx) (lineB higher : Bool) (f : FlowFrame) (s : State) :
    Kept K (acceptFlow i c lineB higher f s) ↔ Kept K s := by
  unfold acceptFlow; simp

@[simp] theorem consumeNew_kept (K : Keep) (i : Nat) (c : FlowCtx) (lineB : Bool) (f : FlowFrame) (s : State) :
    Kept K (consumeNew i c lineB f s) ↔ Kept K s := by
  unfold consumeNew; dsimp only; (repeat' split) <;> simp

@[simp] theorem consumeChecks_kept (K : Keep) (i : Nat) (c : FlowCtx) (lineB : Bool) (f : FlowFrame) (s : State) :
    Kept K (consumeChecks i c lineB f s) ↔ Kept K s := by
  unfold consumeChecks; simp

@[simp] theorem consumeFrame_kept (K : Keep) (i : Nat) (c : FlowCtx) (lineB verified : Bool) (check6 : State → Bool × State) (f : FlowFrame)
    (s : State) (hcheck6 : ∀ y0, Kept K (check6 y0).2 ↔ Kept K y0) : Kept K (consumeFrame i c lineB verified check6 f s) ↔ Kept K s := by
  unfold consumeFrame; (repeat' split) <;> simp_all

@[simp] theorem windowCheck_kept (K : Keep) (im : Image) (p : Nat) (t : Int) (c : FlowCtx) (s : State) :
    Kept K ((windowCheck im p t c s).2) ↔ Kept K s := by
  unfold windowCheck; dsimp only; (repeat' split) <;> simp

@[simp] theorem slotNote_kept (K : Keep) (im : Image) (p : Nat) (t : Int) (s : State) :
    Kept K (slotNote im p t s) ↔ Kept K s := by
  unfold slotNote; (repeat' split) <;> simp

@[simp] theorem flowFromTrunk_kept (K : Keep) (p : Nat) (tPin : Int) (verified : Bool) (f : FlowFrame) (s : State) :
    Kept K (flowFromTrunk p tPin verified f s) ↔ Kept K s := by
  unfold flowFromTrunk; dsimp only; (repeat' split) <;> simp

@[simp] theorem flowFromFabric_kept (K : Keep) (lineB verified : Bool) (f : FlowFrame) (s : State) :
    Kept K (flowFromFabric lineB verified f s) ↔ Kept K s := by
  unfold flowFromFabric; (repeat' split) <;> simp

@[simp] theorem emptyAtInstant_kept (K : Keep) (polled : List Nat) (hb : List Nat) (s : State) :
    Kept K (emptyAtInstant polled hb s) ↔ Kept K s := by
  unfold emptyAtInstant; simp

@[simp] theorem showArea_kept (K : Keep) (i : Nat) (c : FlowCtx) (new : Bool) (zero : Bool) (old : FlowRun) (s : State) :
    Kept K (showArea i c new zero old s) ↔ Kept K s := by
  unfold showArea; simp

@[simp] theorem consumedAtInstant_kept (K : Keep) (i : Nat) (c : FlowCtx) (s : State) :
    Kept K (consumedAtInstant i c s) ↔ Kept K s := by
  unfold consumedAtInstant; simp

@[simp] theorem consumedUpdate_kept (K : Keep) (s : State) : Kept K (consumedUpdate s) ↔ Kept K s := by
  unfold consumedUpdate; simp

@[simp] theorem producedHeaders_kept (K : Keep) (s : State) : Kept K (producedHeaders s) ↔ Kept K s := by
  unfold producedHeaders; simp

@[simp] theorem freshAdvance_kept (K : Keep) (s : State) : Kept K (freshAdvance s) ↔ Kept K s := by
  unfold freshAdvance; simp

@[simp] theorem banksAtInstant_kept (K : Keep) (effective : Bool) (s : State) :
    Kept K (banksAtInstant effective s) ↔ Kept K s := by
  unfold banksAtInstant; simp

@[simp] theorem nextSeq_kept (K : Keep) (i : Nat) (s : State) : Kept K (nextSeq i s).2 ↔ Kept K s := by
  unfold nextSeq; dsimp only; (repeat' split) <;> simp_all

@[simp] theorem nextSend_kept (K : Keep) (i : Nat) (s : State) : Kept K ((nextSend i s).2) ↔ Kept K s := by
  unfold nextSend; simp

@[simp] theorem flowOnLine_kept (K : Keep) (c : FlowCtx) (lineB : Bool) (f : FlowFrame) (s : State) :
    Kept K ((flowOnLine c lineB f s).2) ↔ Kept K s := by
  unfold flowOnLine; simp

@[simp] theorem fabricFlow_kept (K : Keep) (i : Nat) (c : FlowCtx) (s : State) :
    Kept K (fabricFlow i c s) ↔ Kept K s := by
  unfold fabricFlow; dsimp only; (repeat' split) <;> simp_all

@[simp] theorem lineFlow_kept (K : Keep) (ctx : Option Nat) (f : FlowFrame) (b : Bool) (s : State) :
    Kept K (lineFlow ctx f b s) ↔ Kept K s := by
  unfold lineFlow; dsimp only; (repeat' split) <;> simp_all

@[simp] theorem queueFlow_kept (K : Keep) (i : Nat) (c : FlowCtx) (s : State) :
    Kept K (queueFlow i c s) ↔ Kept K s := by
  unfold queueFlow; simp

@[simp] theorem dropWithheld_kept (K : Keep) (s : State) : Kept K (dropWithheld s) ↔ Kept K s := by
  unfold dropWithheld; (repeat' split) <;> simp_all

@[simp] theorem sporadicAtInstant_kept (K : Keep) (arrived : List Nat) (s : State) :
    Kept K (sporadicAtInstant arrived s) ↔ Kept K s := by
  unfold sporadicAtInstant; simp

@[simp] theorem islandAtInstant_kept (K : Keep) (s : State) : Kept K ((islandAtInstant s).2) ↔ Kept K s := by
  unfold islandAtInstant; simp

@[simp] theorem islandPlace_kept (K : Keep) (s : State) : Kept K (islandPlace s) ↔ Kept K s := by
  unfold islandPlace; simp

@[simp] theorem wtbLine_kept (K : Keep) (okA okB : Bool) (s : State) : Kept K (wtbLine okA okB s) ↔ Kept K s := by
  unfold wtbLine; simp

@[simp] theorem islandTelegram_kept (K : Keep) (addr : Byte) (data : List Byte) (okA okB : Bool) (s : State) :
    Kept K (islandTelegram addr data okA okB s) ↔ Kept K s := by
  unfold islandTelegram; simp

theorem execIslandTelegramRx_kept (K : Keep) (dt : Nat) (addr : Byte) (data : List Byte) (okA okB : Bool) (s : State) :
    ∃ u, execIslandTelegramRx dt addr data okA okB s = .next u ∧ (Kept K u ↔ Kept K s) := by
  unfold execIslandTelegramRx; exact ⟨_, rfl, by simp⟩

theorem execIslandTelegramSend_kept (K : Keep) (dt : Nat) (s : State) :
    ∃ u, execIslandTelegramSend dt s = .next u ∧ (Kept K u ↔ Kept K s) := by
  unfold execIslandTelegramSend; exact ⟨_, rfl, by simp⟩

@[simp] theorem sendSegments_kept (K : Keep) (x : Session) (m : Message) (from_ to_ : Nat) (s : State) :
    Kept K (sendSegments x m from_ to_ s) ↔ Kept K s := by
  unfold sendSegments; simp

@[simp] theorem pumpSession_kept (K : Keep) (sid : BitVec 16) (opener : BitVec 64) (s : State) :
    Kept K (pumpSession sid opener s) ↔ Kept K s := by
  unfold pumpSession; (repeat' split) <;> simp

@[simp] theorem sessionOpenBody_kept (K : Keep) (r : Ring) (s : State) :
    Kept K ((sessionOpenBody r s).2) ↔ Kept K s := by
  unfold sessionOpenBody; simp

@[simp] theorem sessionSendBody_kept (K : Keep) (r : Ring) (s : State) :
    Kept K ((sessionSendBody r s).2) ↔ Kept K s := by
  unfold sessionSendBody; (repeat' split) <;> simp

@[simp] theorem sessionRecvBody_kept (K : Keep) (r : Ring) (s : State) :
    Kept K ((sessionRecvBody r s).2) ↔ Kept K s := by
  unfold sessionRecvBody; (repeat' split) <;> simp

@[simp] theorem sessionCloseBody_kept (K : Keep) (r : Ring) (s : State) :
    Kept K ((sessionCloseBody r s).2) ↔ Kept K s := by
  unfold sessionCloseBody; (repeat' split) <;> simp

theorem execSessionOpen_kept (K : Keep) (dt : Nat) (r : Ring) (s : State) :
    ∃ u, execSessionOpen dt r s = .next u ∧ (Kept K u ↔ Kept K s) := by
  unfold execSessionOpen; exact ⟨_, rfl, by simp⟩

theorem execSessionSend_kept (K : Keep) (dt : Nat) (r : Ring) (s : State) :
    ∃ u, execSessionSend dt r s = .next u ∧ (Kept K u ↔ Kept K s) := by
  unfold execSessionSend; exact ⟨_, rfl, by simp⟩

theorem execSessionRecv_kept (K : Keep) (dt : Nat) (r : Ring) (s : State) :
    ∃ u, execSessionRecv dt r s = .next u ∧ (Kept K u ↔ Kept K s) := by
  unfold execSessionRecv; exact ⟨_, rfl, by simp⟩

theorem execSessionClose_kept (K : Keep) (dt : Nat) (r : Ring) (s : State) :
    ∃ u, execSessionClose dt r s = .next u ∧ (Kept K u ↔ Kept K s) := by
  unfold execSessionClose; exact ⟨_, rfl, by simp⟩

@[simp] theorem sessionOpened_kept (K : Keep) (f : SessionFrame) (s : State) :
    Kept K (sessionOpened f s) ↔ Kept K s := by
  unfold sessionOpened; simp

@[simp] theorem sessionData_kept (K : Keep) (x : Session) (f : SessionFrame) (s : State) :
    Kept K (sessionData x f s) ↔ Kept K s := by
  unfold sessionData; (repeat' split) <;> simp

@[simp] theorem sessionAck_kept (K : Keep) (x : Session) (f : SessionFrame) (s : State) :
    Kept K (sessionAck x f s) ↔ Kept K s := by
  unfold sessionAck; (repeat' split) <;> simp

@[simp] theorem sessionIn_kept (K : Keep) (f : SessionFrame) (s : State) : Kept K (sessionIn f s) ↔ Kept K s := by
  unfold sessionIn; (repeat' split) <;> simp

@[simp] theorem sessionPass_kept (K : Keep) (p : Option Nat) (f : SessionFrame) (s : State) :
    Kept K (sessionPass p f s) ↔ Kept K s := by
  unfold sessionPass; (repeat' split) <;> simp_all

@[simp] theorem sessionFrameIn_kept (K : Keep) (p : Option Nat) (f : SessionFrame) (s : State) :
    Kept K (sessionFrameIn p f s) ↔ Kept K s := by
  unfold sessionFrameIn; simp

theorem execSessionFrameRx_kept (K : Keep) (dt : Nat) (p : Option (Fin 4)) (f : SessionFrame) (s : State) :
    ∃ u, execSessionFrameRx dt p f s = .next u ∧ (Kept K u ↔ Kept K s) := by
  unfold execSessionFrameRx; exact ⟨_, rfl, by simp⟩

@[simp] theorem retransmit_kept (K : Keep) (sid : BitVec 16) (opener : BitVec 64) (s : State) :
    Kept K (retransmit sid opener s) ↔ Kept K s := by
  unfold retransmit; (repeat' split) <;> simp

theorem execSessionRetransmit_kept (K : Keep) (dt : Nat) (sid : BitVec 16) (opener : BitVec 64) (s : State) :
    ∃ u, execSessionRetransmit dt sid opener s = .next u ∧ (Kept K u ↔ Kept K s) := by
  unfold execSessionRetransmit; exact ⟨_, rfl, by simp⟩

@[simp] theorem sessionsReset_kept (K : Keep) (s : State) : Kept K (sessionsReset s) ↔ Kept K s := by
  unfold sessionsReset; simp

@[simp] theorem modPtp_kept (K : Keep) (d : Nat) (f : PtpInst → PtpInst) (s : State) :
    Kept K (modPtp d f s) ↔ Kept K s := by
  unfold modPtp; simp

@[simp] theorem switchDomain_kept (K : Keep) (d : Fin 2) (s : State) : Kept K (switchDomain d s) ↔ Kept K s := by
  unfold switchDomain; simp

@[simp] theorem selectDomain_kept (K : Keep) (s : State) : Kept K (selectDomain s) ↔ Kept K s := by
  unfold selectDomain; simp

theorem execDomainReturnTimer_kept (K : Keep) (dt : Nat) (s : State) :
    ∃ u, execDomainReturnTimer dt s = .next u ∧ (Kept K u ↔ Kept K s) := by
  unfold execDomainReturnTimer; exact ⟨_, rfl, by simp⟩

@[simp] theorem ptpMaster_kept (K : Keep) (d : Nat) (s : State) : Kept K (ptpMaster d s) ↔ Kept K s := by
  unfold ptpMaster; simp

@[simp] theorem ptpFollow_kept (K : Keep) (d port : Nat) (a : PtpAnnounce) (s : State) :
    Kept K (ptpFollow d port a s) ↔ Kept K s := by
  unfold ptpFollow; simp

@[simp] theorem ptpAnnounce_kept (K : Keep) (d port : Nat) (a : PtpAnnounce) (s : State) :
    Kept K (ptpAnnounce d port a s) ↔ Kept K s := by
  unfold ptpAnnounce; simp

@[simp] theorem ptpSignaling_kept (K : Keep) (d port : Nat) (domain : BitVec 7) (logSync : Byte) (s : State) :
    Kept K (ptpSignaling d port domain logSync s) ↔ Kept K s := by
  unfold ptpSignaling; simp

@[simp] theorem ptpGeneral_kept (K : Keep) (port : Nat) (m : PtpGeneral) (s : State) :
    Kept K (ptpGeneral port m s) ↔ Kept K s := by
  unfold ptpGeneral; (repeat' split) <;> simp

theorem execPtpAnnounceRx_kept (K : Keep) (dt : Nat) (port : Fin 16) (m : PtpGeneral) (s : State) :
    ∃ u, execPtpAnnounceRx dt port m s = .next u ∧ (Kept K u ↔ Kept K s) := by
  unfold execPtpAnnounceRx; exact ⟨_, rfl, by simp⟩

@[simp] theorem ptpServo_kept (K : Keep) (d : Nat) (offset rate : Int) (s : State) :
    Kept K (ptpServo d offset rate s) ↔ Kept K s := by
  unfold ptpServo; simp

@[simp] theorem ptpTake_kept (K : Keep) (d port : Nat) (pin origin corr rate : Int) (s : State) :
    Kept K (ptpTake d port pin origin corr rate s) ↔ Kept K s := by
  unfold ptpTake; (repeat' split) <;> simp

@[simp] theorem ptpSync_kept (K : Keep) (d port : Nat) (m : PtpSync) (s : State) :
    Kept K (ptpSync d port m s) ↔ Kept K s := by
  unfold ptpSync; simp

@[simp] theorem ptpFollowUp_kept (K : Keep) (d port : Nat) (domain : BitVec 7) (seq : BitVec 16)
    (origin corr rate : Int) (s : State) :
    Kept K (ptpFollowUp d port domain seq origin corr rate s) ↔ Kept K s := by
  unfold ptpFollowUp; (repeat' split) <;> simp

@[simp] theorem ptpDelayEnd_kept (K : Keep) (port : Nat) (t1Raw t4Raw t2 t3 : Int) (s : State) :
    Kept K (ptpDelayEnd port t1Raw t4Raw t2 t3 s) ↔ Kept K s := by
  unfold ptpDelayEnd; simp

@[simp] theorem ptpTimed_kept (K : Keep) (port : Nat) (m : PtpTimed) (s : State) :
    Kept K (ptpTimed port m s) ↔ Kept K s := by
  unfold ptpTimed; (repeat' split) <;> simp

theorem execPtpSyncRx_kept (K : Keep) (dt : Nat) (port : Fin 16) (m : PtpTimed) (s : State) :
    ∃ u, execPtpSyncRx dt port m s = .next u ∧ (Kept K u ↔ Kept K s) := by
  unfold execPtpSyncRx; exact ⟨_, rfl, by simp⟩

@[simp] theorem ptpTimeout_kept (K : Keep) (d : Nat) (announce : Bool) (s : State) :
    Kept K (ptpTimeout d announce s) ↔ Kept K s := by
  unfold ptpTimeout; simp

theorem execPtpSyncTimeout_kept (K : Keep) (dt : Nat) (inst : Fin 2) (announce : Bool) (s : State) :
    ∃ u, execPtpSyncTimeout dt inst announce s = .next u ∧ (Kept K u ↔ Kept K s) := by
  unfold execPtpSyncTimeout; exact ⟨_, rfl, by simp⟩

@[simp] theorem ptpTwoStep_kept (K : Keep) (d : Fin 2) (stamp : Int → Int × Int) (n : Nat) (s : State) :
    Kept K (ptpTwoStep d stamp n s) ↔ Kept K s := by
  unfold ptpTwoStep; dsimp only; (repeat' split) <;> simp_all

@[simp] theorem ptpSend_kept (K : Keep) (d : Fin 2) (k : PtpKind) (s : State) : Kept K (ptpSend d k s) ↔ Kept K s := by
  unfold ptpSend; dsimp only; (repeat' split) <;> simp

theorem execPtpMessageSend_kept (K : Keep) (dt : Nat) (inst : Fin 2) (kind : PtpKind) (s : State) :
    ∃ u, execPtpMessageSend dt inst kind s = .next u ∧ (Kept K u ↔ Kept K s) := by
  unfold execPtpMessageSend; exact ⟨_, rfl, by simp⟩

@[simp] theorem ptpApply_kept (K : Keep) (d : Nat) (s : State) : Kept K (ptpApply d s) ↔ Kept K s := by
  unfold ptpApply; (repeat' split) <;> simp

@[simp] theorem outMove_kept (K : Keep) (s : State) : Kept K (outMove s) ↔ Kept K s := by
  unfold outMove; simp

@[simp] theorem suspectEvent_kept (K : Keep) (on : Bool) (s : State) : Kept K (suspectEvent on s) ↔ Kept K s := by
  unfold suspectEvent; simp

@[simp] theorem compareDomains_kept (K : Keep) (s : State) : Kept K (compareDomains s) ↔ Kept K s := by
  unfold compareDomains; simp

@[simp] theorem steerAtInstant_kept (K : Keep) (s : State) : Kept K (steerAtInstant s) ↔ Kept K s := by
  unfold steerAtInstant; simp

@[simp] theorem ptpAtInstant_kept (K : Keep) (s : State) : Kept K (ptpAtInstant s) ↔ Kept K s := by
  unfold ptpAtInstant; simp

theorem execTcxoStop_kept (K : Keep) (dt : Nat) (s : State) :
    ∃ u, execTcxoStop dt s = .next u ∧ (Kept K u ↔ Kept K s) := by
  unfold execTcxoStop; exact ⟨_, rfl, by simp⟩

theorem execTcxoRestart_kept (K : Keep) (dt : Nat) (s : State) :
    ∃ u, execTcxoRestart dt s = .next u ∧ (Kept K u ↔ Kept K s) := by
  unfold execTcxoRestart; exact ⟨_, rfl, by simp⟩

@[simp] theorem timeStatusBody_kept (K : Keep) (r : Ring) (s : State) :
    Kept K ((timeStatusBody r s).2) ↔ Kept K s := by
  unfold timeStatusBody; simp

@[simp] theorem timeSetBody_kept (K : Keep) (r : Ring) (s : State) : Kept K ((timeSetBody r s).2) ↔ Kept K s := by
  unfold timeSetBody; simp

@[simp] theorem timePtpConfigBody_kept (K : Keep) (r : Ring) (s : State) :
    Kept K ((timePtpConfigBody r s).2) ↔ Kept K s := by
  unfold timePtpConfigBody; simp

@[simp] theorem ptpCancel_kept (K : Keep) (d : Nat) (s : State) : Kept K (ptpCancel d s) ↔ Kept K s := by
  unfold ptpCancel; simp

@[simp] theorem timeDomainPolicyBody_kept (K : Keep) (r : Ring) (s : State) :
    Kept K ((timeDomainPolicyBody r s).2) ↔ Kept K s := by
  unfold timeDomainPolicyBody; simp

@[simp] theorem timeSteerBody_kept (K : Keep) (r : Ring) (s : State) : Kept K ((timeSteerBody r s).2) ↔ Kept K s := by
  unfold timeSteerBody; simp

@[simp] theorem timePtpStatusBody_kept (K : Keep) (r : Ring) (s : State) :
    Kept K ((timePtpStatusBody r s).2) ↔ Kept K s := by
  unfold timePtpStatusBody; simp

theorem execTimeStatus_kept (K : Keep) (dt : Nat) (r : Ring) (s : State) :
    ∃ u, execTimeStatus dt r s = .next u ∧ (Kept K u ↔ Kept K s) := by
  unfold execTimeStatus; exact ⟨_, rfl, by simp⟩

theorem execTimeSet_kept (K : Keep) (dt : Nat) (r : Ring) (s : State) :
    ∃ u, execTimeSet dt r s = .next u ∧ (Kept K u ↔ Kept K s) := by
  unfold execTimeSet; exact ⟨_, rfl, by simp⟩

theorem execTimePtpConfig_kept (K : Keep) (dt : Nat) (r : Ring) (s : State) :
    ∃ u, execTimePtpConfig dt r s = .next u ∧ (Kept K u ↔ Kept K s) := by
  unfold execTimePtpConfig; exact ⟨_, rfl, by simp⟩

theorem execTimeDomainPolicy_kept (K : Keep) (dt : Nat) (r : Ring) (s : State) :
    ∃ u, execTimeDomainPolicy dt r s = .next u ∧ (Kept K u ↔ Kept K s) := by
  unfold execTimeDomainPolicy; exact ⟨_, rfl, by simp⟩

theorem execTimeSteer_kept (K : Keep) (dt : Nat) (r : Ring) (s : State) :
    ∃ u, execTimeSteer dt r s = .next u ∧ (Kept K u ↔ Kept K s) := by
  unfold execTimeSteer; exact ⟨_, rfl, by simp⟩

theorem execTimePtpStatus_kept (K : Keep) (dt : Nat) (r : Ring) (s : State) :
    ∃ u, execTimePtpStatus dt r s = .next u ∧ (Kept K u ↔ Kept K s) := by
  unfold execTimePtpStatus; exact ⟨_, rfl, by simp⟩

@[simp] theorem modRec_kept (K : Keep) (f : Rec → Rec) (s : State) : Kept K (modRec f s) ↔ Kept K s := by
  unfold modRec; simp

@[simp] theorem growCask_kept (K : Keep) (o n : Nat) (s : State) : Kept K (growCask o n s) ↔ Kept K s := by
  unfold growCask; dsimp only; (repeat' split) <;> simp_all

@[simp] theorem caskRefused_kept (K : Keep) (type : BitVec 16) (s : State) :
    Kept K (caskRefused type s) ↔ Kept K s := by
  unfold caskRefused; (repeat' split) <;> simp_all

@[simp] theorem triggerCask_kept (K : Keep) (n : Nat) (t : Option (BitVec 16 × BitVec 32)) (s : State) :
    Kept K (triggerCask n t s) ↔ Kept K s := by
  unfold triggerCask; (repeat' split) <;> simp_all

@[simp] theorem recorderAtInstant_kept (K : Keep) (evs : List Event) (t : Option (BitVec 16 × BitVec 32)) (overrun : Bool) (s : State) :
    Kept K (recorderAtInstant evs t overrun s) ↔ Kept K s := by
  unfold recorderAtInstant; (repeat' split) <;> simp

@[simp] theorem recStatusBody_kept (K : Keep) (_r : Ring) (s : State) :
    Kept K ((recStatusBody _r s).2) ↔ Kept K s := by
  unfold recStatusBody; simp

@[simp] theorem recConfigBody_kept (K : Keep) (r : Ring) (s : State) : Kept K ((recConfigBody r s).2) ↔ Kept K s := by
  unfold recConfigBody; simp

@[simp] theorem recTriggerBody_kept (K : Keep) (r : Ring) (s : State) :
    Kept K ((recTriggerBody r s).2) ↔ Kept K s := by
  unfold recTriggerBody; (repeat' split) <;> simp

@[simp] theorem recCaskBody_kept (K : Keep) (r : Ring) (s : State) : Kept K ((recCaskBody r s).2) ↔ Kept K s := by
  unfold recCaskBody; dsimp only; (repeat' split) <;> simp

@[simp] theorem recReleaseBody_kept (K : Keep) (r : Ring) (s : State) :
    Kept K ((recReleaseBody r s).2) ↔ Kept K s := by
  unfold recReleaseBody; simp

@[simp] theorem recPageBody_kept (K : Keep) (r : Ring) (s : State) : Kept K ((recPageBody r s).2) ↔ Kept K s := by
  unfold recPageBody; simp

theorem execRecStatus_kept (K : Keep) (dt : Nat) (r : Ring) (s : State) :
    ∃ u, execRecStatus dt r s = .next u ∧ (Kept K u ↔ Kept K s) := by
  unfold execRecStatus; exact ⟨_, rfl, by simp⟩

theorem execRecConfig_kept (K : Keep) (dt : Nat) (r : Ring) (s : State) :
    ∃ u, execRecConfig dt r s = .next u ∧ (Kept K u ↔ Kept K s) := by
  unfold execRecConfig; exact ⟨_, rfl, by simp⟩

theorem execRecTrigger_kept (K : Keep) (dt : Nat) (r : Ring) (s : State) :
    ∃ u, execRecTrigger dt r s = .next u ∧ (Kept K u ↔ Kept K s) := by
  unfold execRecTrigger; exact ⟨_, rfl, by simp⟩

theorem execRecCask_kept (K : Keep) (dt : Nat) (r : Ring) (s : State) :
    ∃ u, execRecCask dt r s = .next u ∧ (Kept K u ↔ Kept K s) := by
  unfold execRecCask; exact ⟨_, rfl, by simp⟩

theorem execRecRelease_kept (K : Keep) (dt : Nat) (r : Ring) (s : State) :
    ∃ u, execRecRelease dt r s = .next u ∧ (Kept K u ↔ Kept K s) := by
  unfold execRecRelease; exact ⟨_, rfl, by simp⟩

theorem execRecPage_kept (K : Keep) (dt : Nat) (r : Ring) (s : State) :
    ∃ u, execRecPage dt r s = .next u ∧ (Kept K u ↔ Kept K s) := by
  unfold execRecPage; exact ⟨_, rfl, by simp⟩

@[simp] theorem topoStatusBody_kept (K : Keep) (r : Ring) (s : State) :
    Kept K ((topoStatusBody r s).2) ↔ Kept K s := by
  unfold topoStatusBody; simp

@[simp] theorem topoDirectoryBody_kept (K : Keep) (r : Ring) (s : State) :
    Kept K ((topoDirectoryBody r s).2) ↔ Kept K s := by
  unfold topoDirectoryBody; dsimp only; (repeat' split) <;> simp

@[simp] theorem topoPositionMapBody_kept (K : Keep) (_r : Ring) (s : State) :
    Kept K ((topoPositionMapBody _r s).2) ↔ Kept K s := by
  unfold topoPositionMapBody; simp

@[simp] theorem topoSetLeadingBody_kept (K : Keep) (r : Ring) (s : State) :
    Kept K ((topoSetLeadingBody r s).2) ↔ Kept K s := by
  unfold topoSetLeadingBody; simp

@[simp] theorem topoSetIdentityBody_kept (K : Keep) (r : Ring) (s : State) :
    Kept K ((topoSetIdentityBody r s).2) ↔ Kept K s := by
  unfold topoSetIdentityBody; simp

@[simp] theorem topoColdStartBody_kept (K : Keep) (_r : Ring) (s : State) :
    Kept K ((topoColdStartBody _r s).2) ↔ Kept K s := by
  unfold topoColdStartBody; simp

theorem execTopoStatus_kept (K : Keep) (dt : Nat) (r : Ring) (s : State) :
    ∃ u, execTopoStatus dt r s = .next u ∧ (Kept K u ↔ Kept K s) := by
  unfold execTopoStatus; exact ⟨_, rfl, by simp⟩

theorem execTopoDirectory_kept (K : Keep) (dt : Nat) (r : Ring) (s : State) :
    ∃ u, execTopoDirectory dt r s = .next u ∧ (Kept K u ↔ Kept K s) := by
  unfold execTopoDirectory; exact ⟨_, rfl, by simp⟩

theorem execTopoPositionMap_kept (K : Keep) (dt : Nat) (r : Ring) (s : State) :
    ∃ u, execTopoPositionMap dt r s = .next u ∧ (Kept K u ↔ Kept K s) := by
  unfold execTopoPositionMap; exact ⟨_, rfl, by simp⟩

theorem execTopoSetLeading_kept (K : Keep) (dt : Nat) (r : Ring) (s : State) :
    ∃ u, execTopoSetLeading dt r s = .next u ∧ (Kept K u ↔ Kept K s) := by
  unfold execTopoSetLeading; exact ⟨_, rfl, by simp⟩

theorem execTopoSetIdentity_kept (K : Keep) (dt : Nat) (r : Ring) (s : State) :
    ∃ u, execTopoSetIdentity dt r s = .next u ∧ (Kept K u ↔ Kept K s) := by
  unfold execTopoSetIdentity; exact ⟨_, rfl, by simp⟩

theorem execTopoColdStart_kept (K : Keep) (dt : Nat) (r : Ring) (s : State) :
    ∃ u, execTopoColdStart dt r s = .next u ∧ (Kept K u ↔ Kept K s) := by
  unfold execTopoColdStart; exact ⟨_, rfl, by simp⟩

@[simp] theorem ptpStart_kept (K : Keep) (d : Nat) (s : State) : Kept K (ptpStart d s) ↔ Kept K s := by
  unfold ptpStart; dsimp only; (repeat' split) <;> simp_all

end Sys2Proof.Machine
end

