-- ==== Sys2Proof/Laws/KeptNode.lean ====
section
/-! SUPPORT. The twin, the lock-step pairs, the fabric, repair, power and the system block keep what `Kept` names. -/

namespace Sys2Proof.Machine

@[simp] theorem checkRelease_kept (K : Keep) (s : State) : Kept K (checkRelease s) ↔ Kept K s := by
  unfold checkRelease; simp

@[simp] theorem setRelease_kept (K : Keep) (bit : Nat) (s : State) : Kept K (setRelease bit s) ↔ Kept K s := by
  unfold setRelease; simp

@[simp] theorem modRep_kept (K : Keep) (f : Rep → Rep) (s : State) : Kept K (modRep f s) ↔ Kept K s := by
  unfold modRep; simp

@[simp] theorem repCount_kept (K : Keep) (i : Nat) (s : State) : Kept K (repCount i s) ↔ Kept K s := by
  unfold repCount; simp

@[simp] theorem modLsk_kept (K : Keep) (f : Lsk → Lsk) (s : State) (h : ∀ x, (f x).pairs.length = x.pairs.length) :
    Kept K (modLsk f s) ↔ Kept K s := by
  unfold modLsk; simp [h]

@[simp] theorem repairEntry_kept (K : Keep) (cls loc left : Nat) (atStart : Bool) (s : State) :
    Kept K (repairEntry cls loc left atStart s) ↔ Kept K s := by
  unfold repairEntry; simp

@[simp] theorem reserveEmpty_kept (K : Keep) (bit before after : Nat) (s : State) :
    Kept K (reserveEmpty bit before after s) ↔ Kept K s := by
  unfold reserveEmpty; simp

@[simp] theorem retirePair_kept (K : Keep) (p : Nat) (atStart : Bool) (s : State) :
    Kept K (retirePair p atStart s) ↔ Kept K s := by
  unfold retirePair; simp

@[simp] theorem noteFence_kept (K : Keep) (p : Nat) (s : State) : Kept K (noteFence p s) ↔ Kept K s := by
  unfold noteFence; simp

@[simp] theorem freePair_kept (K : Keep) (p cause : Nat) (s : State) : Kept K (freePair p cause s) ↔ Kept K s := by
  unfold freePair; simp

@[simp] theorem readsCome_kept (K : Keep) (l core : Nat) (r : List ReadIn) (s : State) :
    Kept K (readsCome l core r s) ↔ Kept K s := by
  unfold readsCome; (repeat' split) <;> simp_all

@[simp] theorem readComes_kept (K : Keep) (l : Fin 4) (r : ReadIn) (s : State) :
    Kept K (readComes l r s) ↔ Kept K s := by
  unfold readComes; simp

@[simp] theorem faultComes_kept (K : Keep) (l : Fin 4) (core a : Nat) (s : State) :
    Kept K (faultComes l core a s) ↔ Kept K s := by
  unfold faultComes; dsimp only; (repeat' split) <;> simp_all

@[simp] theorem issueTxn_kept (K : Keep) (l : Fin 4) (w : BitVec 64) (x : CoreTxn) (s : State) :
    Kept K (issueTxn l w x s) ↔ Kept K s := by
  unfold issueTxn; dsimp only; (repeat' split) <;> simp_all

@[simp] theorem atPoint_kept (K : Keep) (l : Nat) (s : State) : Kept K (atPoint l s) ↔ Kept K s := by
  unfold atPoint; (repeat' split) <;> simp_all

@[simp] theorem pairCycle_kept (K : Keep) (l : Fin 4) (c : PairCycle) (s : State) :
    Kept K (pairCycle l c s) ↔ Kept K s := by
  unfold pairCycle; dsimp only; (repeat' split) <;> simp

@[simp] theorem twinLinks_kept (K : Keep) (h : Heartbeat) (s : State) : Kept K (twinLinks h s) ↔ Kept K s := by
  unfold twinLinks; simp

@[simp] theorem heartbeatFrame_kept (K : Keep) (h : Heartbeat) (s : State) :
    Kept K (heartbeatFrame h s) ↔ Kept K s := by
  unfold heartbeatFrame; split <;> simp

@[simp] theorem sendHeartbeats_kept (K : Keep) (s : State) : Kept K (sendHeartbeats s) ↔ Kept K s := by
  unfold sendHeartbeats; simp

@[simp] theorem sendOutBoth_kept (K : Keep) (s : State) : Kept K (sendOutBoth s) ↔ Kept K s := by
  unfold sendOutBoth; dsimp only; (repeat' split) <;> simp

theorem acceptPartner_kept (K : Keep) (uid : BitVec 64) (vid : BitVec 48) (s t : State) (h : acceptPartner uid vid s = some t) :
    Kept K t ↔ Kept K s := by
  unfold acceptPartner at h
  (repeat' split at h) <;> simp at h <;> (try subst h) <;> simp

@[simp] theorem trunkHeartbeat_kept (K : Keep) (p : Nat) (t : Int) (s : State) :
    Kept K (trunkHeartbeat p t s).2 ↔ Kept K s := by
  unfold trunkHeartbeat; dsimp only; (repeat' split) <;> simp

@[simp] theorem heartbeatIn_kept (K : Keep) (tw tr : Bool) (h : Heartbeat) (s : State) :
    Kept K (heartbeatIn tw tr h s) ↔ Kept K s := by
  unfold heartbeatIn; (repeat' split) <;> simp

@[simp] theorem takeHeartbeat_kept (K : Keep) (tw tr : Bool) (h : Heartbeat) (s : State) :
    Kept K (takeHeartbeat tw tr h s) ↔ Kept K s := by
  unfold takeHeartbeat; split
  · rename_i h1; rw [heartbeatIn_kept, acceptPartner_kept K _ _ _ _ h1]
  · rfl

@[simp] theorem heartbeatPass_kept (K : Keep) (p : Nat) (t : Int) (h : Heartbeat) (s : State) :
    Kept K (heartbeatPass p t h s) ↔ Kept K s := by
  unfold heartbeatPass; dsimp only; (repeat' split) <;> simp_all

@[simp] theorem heartbeatTrunk_kept (K : Keep) (p : Nat) (t : Int) (h : Heartbeat) (s : State) :
    Kept K (heartbeatTrunk p t h s) ↔ Kept K s := by
  unfold heartbeatTrunk; dsimp only; (repeat' split) <;> simp_all

@[simp] theorem heartbeatOn_kept (K : Keep) (path : HbPath) (h : Heartbeat) (s : State) :
    Kept K (heartbeatOn path h s) ↔ Kept K s := by
  unfold heartbeatOn; split <;> simp

theorem execHeartbeatRx_kept (K : Keep) (dt : Nat) (path : HbPath) (h : Heartbeat) (s : State) :
    ∃ u, execHeartbeatRx dt path h s = .next u ∧ (Kept K u ↔ Kept K s) := by
  unfold execHeartbeatRx; exact ⟨_, rfl, by simp⟩

@[simp] theorem pathEvent_kept (K : Keep) (n : Nat) (was now : Bool) (s : State) :
    Kept K (pathEvent n was now s) ↔ Kept K s := by
  unfold pathEvent; simp

@[simp] theorem twinPaths_kept (K : Keep) (s : State) : Kept K ((twinPaths s).2) ↔ Kept K s := by
  unfold twinPaths; simp

@[simp] theorem ageAtInstant_kept (K : Keep) (s : State) : Kept K (ageAtInstant s) ↔ Kept K s := by
  unfold ageAtInstant; simp

@[simp] theorem endSwitchover_kept (K : Keep) (status : Nat) (s : State) :
    Kept K (endSwitchover status s) ↔ Kept K s := by
  unfold endSwitchover; simp

@[simp] theorem serviceAtInstant_kept (K : Keep) (s : State) : Kept K (serviceAtInstant s) ↔ Kept K s := by
  unfold serviceAtInstant; (repeat' split) <;> simp

@[simp] theorem switchoverAtInstant_kept (K : Keep) (s : State) : Kept K (switchoverAtInstant s) ↔ Kept K s := by
  unfold switchoverAtInstant; (repeat' split) <;> simp

@[simp] theorem startActive_kept (K : Keep) (s : State) : Kept K (startActive s) ↔ Kept K s := by
  unfold startActive; simp

@[simp] theorem startRole_kept (K : Keep) (s : State) : Kept K (startRole s) ↔ Kept K s := by
  unfold startRole; simp

@[simp] theorem flowSnapshot_kept (K : Keep) (s : State) : Kept K (flowSnapshot s) ↔ Kept K s := by
  unfold flowSnapshot; simp

@[simp] theorem fullSnapshot_kept (K : Keep) (s : State) : Kept K (fullSnapshot s) ↔ Kept K s := by
  unfold fullSnapshot; simp

@[simp] theorem regionReport_kept (K : Keep) (s : State) : Kept K (regionReport s) ↔ Kept K s := by
  unfold regionReport; (repeat' split) <;> simp

@[simp] theorem putRegion_kept (K : Keep) (w : Nat × Nat × List Byte) (s : State) :
    Kept K (putRegion w s) ↔ Kept K s := by
  unfold putRegion; simp

@[simp] theorem writeRegion_kept (K : Keep) (w : Nat × Nat × List Byte) (s : State) :
    Kept K (writeRegion w s) ↔ Kept K s := by
  unfold writeRegion; simp

@[simp] theorem drainWaiting_kept (K : Keep) (s : State) : Kept K (drainWaiting s) ↔ Kept K s := by
  unfold drainWaiting; simp

@[simp] theorem regionSnapshot_kept (K : Keep) (s : State) : Kept K (regionSnapshot s) ↔ Kept K s := by
  unfold regionSnapshot; simp

@[simp] theorem loseTransfers_kept (K : Keep) (s : State) : Kept K (loseTransfers s) ↔ Kept K s := by
  unfold loseTransfers; simp

@[simp] theorem switchWithoutRegion_kept (K : Keep) (s : State) : Kept K (switchWithoutRegion s) ↔ Kept K s := by
  unfold switchWithoutRegion; simp

@[simp] theorem rackAtInstant_kept (K : Keep) (s : State) : Kept K (rackAtInstant s) ↔ Kept K s := by
  unfold rackAtInstant; simp

@[simp] theorem applyStaging_kept (K : Keep) (s : State) : Kept K (applyStaging s) ↔ Kept K s := by
  unfold applyStaging; (repeat' split) <;> simp

@[simp] theorem restoreFlow_kept (K : Keep) (age : Nat) (s : State) : Kept K (restoreFlow age s) ↔ Kept K s := by
  unfold restoreFlow; split
  · rfl
  · rw [forEach_kept]
    intro x s; (repeat' split) <;> simp

@[simp] theorem discardPartials_kept (K : Keep) (s : State) : Kept K (discardPartials s) ↔ Kept K s := by
  unfold discardPartials; simp

@[simp] theorem releaseNotTaken_kept (K : Keep) (s : State) : Kept K (releaseNotTaken s) ↔ Kept K s := by
  unfold releaseNotTaken; simp

@[simp] theorem takeOver_kept (K : Keep) (cause : Nat) (s : State) : Kept K (takeOver cause s) ↔ Kept K s := by
  unfold takeOver; simp

@[simp] theorem stepDownNow_kept (K : Keep) (cause : Nat) (s : State) : Kept K (stepDownNow cause s) ↔ Kept K s := by
  unfold stepDownNow; simp

@[simp] theorem roleAtInstant_kept (K : Keep) (reached : Bool) (s : State) :
    Kept K (roleAtInstant reached s) ↔ Kept K s := by
  unfold roleAtInstant; (repeat' split) <;> simp

@[simp] theorem twinAtInstant_kept (K : Keep) (s : State) : Kept K (twinAtInstant s) ↔ Kept K s := by
  unfold twinAtInstant; simp

@[simp] theorem sendRack_kept (K : Keep) (room : Nat) (s : State) : Kept K (sendRack room s) ↔ Kept K s := by
  unfold sendRack; dsimp only; (repeat' split) <;> simp

theorem execRackingFrameSend_kept (K : Keep) (dt : Nat) (room : Nat) (s : State) :
    ∃ u, execRackingFrameSend dt room s = .next u ∧ (Kept K u ↔ Kept K s) := by
  unfold execRackingFrameSend; exact ⟨_, rfl, by simp⟩

@[simp] theorem genFor_kept (K : Keep) (stream : Nat) (f : RackFrame) (s : State) :
    Kept K ((genFor stream f s).2) ↔ Kept K s := by
  unfold genFor; (repeat' split) <;> simp

@[simp] theorem writeFullPages_kept (K : Keep) (items : List RackItem) (s : State) :
    Kept K (writeFullPages items s) ↔ Kept K s := by
  unfold writeFullPages; simp

@[simp] theorem applyGen_kept (K : Keep) (stream : Nat) (g : RackGen) (s : State) :
    Kept K (applyGen stream g s) ↔ Kept K s := by
  unfold applyGen; simp

@[simp] theorem rackIn_kept (K : Keep) (stream : Nat) (f : RackFrame) (s : State) :
    Kept K (rackIn stream f s) ↔ Kept K s := by
  unfold rackIn; dsimp only; (repeat' split) <;> simp

theorem execRackingFrameRx_kept (K : Keep) (dt : Nat) (f : RackFrame) (s : State) :
    ∃ u, execRackingFrameRx dt f s = .next u ∧ (Kept K u ↔ Kept K s) := by
  unfold execRackingFrameRx; exact ⟨_, rfl, by simp⟩

theorem execRegionStagingApply_kept (K : Keep) (dt : Nat) (s : State) :
    ∃ u, execRegionStagingApply dt s = .next u ∧ (Kept K u ↔ Kept K s) := by
  unfold execRegionStagingApply; exact ⟨_, rfl, by simp⟩

theorem execCopyOnWrite_kept (K : Keep) (dt : Nat) (page : Nat) (addr : Nat) (data : List Byte) (s : State) :
    ∃ u, execCopyOnWrite dt page addr data s = .next u ∧ (Kept K u ↔ Kept K s) := by
  unfold execCopyOnWrite; exact ⟨_, rfl, by simp⟩

@[simp] theorem twinStatusBody_kept (K : Keep) (r : Ring) (s : State) :
    Kept K ((twinStatusBody r s).2) ↔ Kept K s := by
  unfold twinStatusBody; simp

@[simp] theorem twinConfigBody_kept (K : Keep) (r : Ring) (s : State) :
    Kept K ((twinConfigBody r s).2) ↔ Kept K s := by
  unfold twinConfigBody; simp

@[simp] theorem twinSwitchoverBody_kept (K : Keep) (_r : Ring) (s : State) :
    Kept K ((twinSwitchoverBody _r s).2) ↔ Kept K s := by
  unfold twinSwitchoverBody; simp

@[simp] theorem twinServiceBody_kept (K : Keep) (r : Ring) (s : State) :
    Kept K ((twinServiceBody r s).2) ↔ Kept K s := by
  unfold twinServiceBody; simp

@[simp] theorem twinRenewBody_kept (K : Keep) (_r : Ring) (s : State) :
    Kept K ((twinRenewBody _r s).2) ↔ Kept K s := by
  unfold twinRenewBody; simp

theorem execTwinStatus_kept (K : Keep) (dt : Nat) (r : Ring) (s : State) :
    ∃ u, execTwinStatus dt r s = .next u ∧ (Kept K u ↔ Kept K s) := by
  unfold execTwinStatus; exact ⟨_, rfl, by simp⟩

theorem execTwinConfig_kept (K : Keep) (dt : Nat) (r : Ring) (s : State) :
    ∃ u, execTwinConfig dt r s = .next u ∧ (Kept K u ↔ Kept K s) := by
  unfold execTwinConfig; exact ⟨_, rfl, by simp⟩

theorem execTwinSwitchover_kept (K : Keep) (dt : Nat) (r : Ring) (s : State) :
    ∃ u, execTwinSwitchover dt r s = .next u ∧ (Kept K u ↔ Kept K s) := by
  unfold execTwinSwitchover; exact ⟨_, rfl, by simp⟩

theorem execTwinServiceOut_kept (K : Keep) (dt : Nat) (r : Ring) (s : State) :
    ∃ u, execTwinServiceOut dt r s = .next u ∧ (Kept K u ↔ Kept K s) := by
  unfold execTwinServiceOut; exact ⟨_, rfl, by simp⟩

theorem execTwinServiceReturn_kept (K : Keep) (dt : Nat) (r : Ring) (s : State) :
    ∃ u, execTwinServiceReturn dt r s = .next u ∧ (Kept K u ↔ Kept K s) := by
  unfold execTwinServiceReturn; exact ⟨_, rfl, by simp⟩

theorem execTwinRenew_kept (K : Keep) (dt : Nat) (r : Ring) (s : State) :
    ∃ u, execTwinRenew dt r s = .next u ∧ (Kept K u ↔ Kept K s) := by
  unfold execTwinRenew; exact ⟨_, rfl, by simp⟩

@[simp] theorem pairCount_kept (K : Keep) (l i : Nat) (s : State) : Kept K (pairCount l i s) ↔ Kept K s := by
  unfold pairCount; simp

@[simp] theorem handEvent_kept (K : Keep) (l : Nat) (k : HandKind) (result : Nat) (s : State) :
    Kept K (handEvent l k result s) ↔ Kept K s := by
  unfold handEvent; simp

@[simp] theorem handDone_kept (K : Keep) (l : Nat) (k : HandKind) (s : State) :
    Kept K (handDone l k s) ↔ Kept K s := by
  unfold handDone; simp

@[simp] theorem rotationLost_kept (K : Keep) (l : Nat) (s : State) : Kept K (rotationLost l s) ↔ Kept K s := by
  unfold rotationLost; simp

@[simp] theorem handAbandon_kept (K : Keep) (l : Nat) (s : State) : Kept K (handAbandon l s) ↔ Kept K s := by
  unfold handAbandon; (repeat' split) <;> simp

@[simp] theorem fencePair_kept (K : Keep) (l cause core : Nat) (w : BitVec 64) (s : State) :
    Kept K (fencePair l cause core w s) ↔ Kept K s := by
  unfold fencePair; dsimp only; (repeat' split) <;> simp

@[simp] theorem checkerFault_kept (K : Keep) (l : Nat) (s : State) : Kept K (checkerFault l s) ↔ Kept K s := by
  unfold checkerFault; simp

theorem execCheckerFault_kept (K : Keep) (dt : Nat) (l : Fin 4) (s : State) :
    ∃ u, execCheckerFault dt l s = .next u ∧ (Kept K u ↔ Kept K s) := by
  unfold execCheckerFault; exact ⟨_, rfl, by simp⟩

@[simp] theorem splitCoreFault_kept (K : Keep) (l : Nat) (core : Fin 2) (s : State) :
    Kept K (splitCoreFault l core s) ↔ Kept K s := by
  unfold splitCoreFault; simp

theorem execCacheUncorrectable_kept (K : Keep) (dt : Nat) (l : Fin 4) (core : Fin 2) (s : State) :
    ∃ u, execCacheUncorrectable dt l core s = .next u ∧ (Kept K u ↔ Kept K s) := by
  unfold execCacheUncorrectable; exact ⟨_, rfl, by simp⟩

theorem execHoldBufferStall_kept (K : Keep) (dt : Nat) (l : Fin 4) (cycles : Nat) (s : State) :
    ∃ u, execHoldBufferStall dt l cycles s = .next u ∧ (Kept K u ↔ Kept K s) := by
  unfold execHoldBufferStall; exact ⟨_, rfl, by simp⟩

@[simp] theorem clearShadows_kept (K : Keep) (l : Nat) (s : State) : Kept K (clearShadows l s) ↔ Kept K s := by
  unfold clearShadows; simp

@[simp] theorem startLocked_kept (K : Keep) (l entry : Nat) (s : State) :
    Kept K (startLocked l entry s) ↔ Kept K s := by
  unfold startLocked; (repeat' split) <;> simp_all

@[simp] theorem startPair_kept (K : Keep) (l entry : Nat) (s : State) : Kept K (startPair l entry s) ↔ Kept K s := by
  unfold startPair; simp

@[simp] theorem holdPair_kept (K : Keep) (l : Nat) (s : State) : Kept K (holdPair l s) ↔ Kept K s := by
  unfold holdPair; simp

@[simp] theorem restartPair_kept (K : Keep) (l : Nat) (s : State) : Kept K (restartPair l s) ↔ Kept K s := by
  unfold restartPair; dsimp only; (repeat' split) <;> simp

theorem execPairAccessFault_kept (K : Keep) (dt : Nat) (l : Fin 4) (core : Fin 2) (addr : Nat) (s : State) :
    ∃ u, execPairAccessFault dt l core addr s = .next u ∧ (Kept K u ↔ Kept K s) := by
  unfold execPairAccessFault; exact ⟨_, rfl, by simp⟩

theorem execHandoverPoint_kept (K : Keep) (dt : Nat) (l : Fin 4) (s : State) :
    ∃ u, execHandoverPoint dt l s = .next u ∧ (Kept K u ↔ Kept K s) := by
  unfold execHandoverPoint; exact ⟨_, rfl, by simp⟩

@[simp] theorem workWrite_kept (K : Keep) (a : Nat) (d : List Byte) (s : State) :
    Kept K (workWrite a d s) ↔ Kept K s := by
  unfold workWrite; simp

@[simp] theorem writeBack_kept (K : Keep) (c : CoreState) (s : State) : Kept K (writeBack c s) ↔ Kept K s := by
  unfold writeBack; (repeat' split) <;> simp_all

@[simp] theorem transfer_kept (K : Keep) (l : Nat) (s : State) : Kept K (transfer l s) ↔ Kept K s := by
  unfold transfer; dsimp only; (repeat' split) <;> simp_all

theorem execSubstitutionTransfer_kept (K : Keep) (dt : Nat) (l : Fin 4) (s : State) :
    ∃ u, execSubstitutionTransfer dt l s = .next u ∧ (Kept K u ↔ Kept K s) := by
  unfold execSubstitutionTransfer; exact ⟨_, rfl, by simp⟩

@[simp] theorem substitutionAtInstant_kept (K : Keep) (l : Nat) (s : State) :
    Kept K (substitutionAtInstant l s) ↔ Kept K s := by
  unfold substitutionAtInstant; dsimp only; (repeat' split) <;> simp

theorem execHandoverAbandon_kept (K : Keep) (dt : Nat) (l : Fin 4) (s : State) :
    ∃ u, execHandoverAbandon dt l s = .next u ∧ (Kept K u ↔ Kept K s) := by
  unfold execHandoverAbandon; exact ⟨_, rfl, by simp⟩

theorem execDebugAccess_kept (K : Keep) (dt : Nat) (l : Fin 4) (s : State) :
    ∃ u, execDebugAccess dt l s = .next u ∧ (Kept K u ↔ Kept K s) := by
  unfold execDebugAccess; exact ⟨_, rfl, by simp⟩

theorem execPairReadyWrite_kept (K : Keep) (dt : Nat) (l : Fin 4) (core : Fin 2) (value : BitVec 32) (s : State) :
    ∃ u, execPairReadyWrite dt l core value s = .next u ∧ (Kept K u ↔ Kept K s) := by
  unfold execPairReadyWrite; exact ⟨_, rfl, by simp⟩

@[simp] theorem splitPair_kept (K : Keep) (l : Nat) (st : PairSt) (s : State) :
    Kept K (splitPair l st s) ↔ Kept K s := by
  unfold splitPair; (repeat' split) <;> simp_all

@[simp] theorem splitAtInstant_kept (K : Keep) (l : Nat) (s : State) : Kept K (splitAtInstant l s) ↔ Kept K s := by
  unfold splitAtInstant; simp

@[simp] theorem rejoinAtInstant_kept (K : Keep) (l : Nat) (s : State) : Kept K (rejoinAtInstant l s) ↔ Kept K s := by
  unfold rejoinAtInstant; simp

@[simp] theorem restartAtInstant_kept (K : Keep) (l : Nat) (s : State) : Kept K (restartAtInstant l s) ↔ Kept K s := by
  unfold restartAtInstant; simp

@[simp] theorem resetAtInstant_kept (K : Keep) (l : Nat) (s : State) : Kept K (resetAtInstant l s) ↔ Kept K s := by
  unfold resetAtInstant; dsimp only; (repeat' split) <;> simp

@[simp] theorem pairAtInstant_kept (K : Keep) (l : Nat) (s : State) : Kept K (pairAtInstant l s) ↔ Kept K s := by
  unfold pairAtInstant; simp

@[simp] theorem lskAtInstant_kept (K : Keep) (s : State) : Kept K (lskAtInstant s) ↔ Kept K s := by
  unfold lskAtInstant; simp

@[simp] theorem pairNodeReset_kept (K : Keep) (l : Nat) (s : State) : Kept K (pairNodeReset l s) ↔ Kept K s := by
  unfold pairNodeReset; simp

@[simp] theorem lskStatusBody_kept (K : Keep) (r : Ring) (s : State) : Kept K ((lskStatusBody r s).2) ↔ Kept K s := by
  unfold lskStatusBody; simp

@[simp] theorem lskPairConfigBody_kept (K : Keep) (r : Ring) (s : State) :
    Kept K ((lskPairConfigBody r s).2) ↔ Kept K s := by
  unfold lskPairConfigBody; dsimp only; (repeat' split) <;> simp

@[simp] theorem lskPairResetBody_kept (K : Keep) (r : Ring) (s : State) :
    Kept K ((lskPairResetBody r s).2) ↔ Kept K s := by
  unfold lskPairResetBody; simp

@[simp] theorem askHand_kept (K : Keep) (l : Nat) (k : HandKind) (s : State) : Kept K (askHand l k s) ↔ Kept K s := by
  unfold askHand; simp

@[simp] theorem lskSplitBody_kept (K : Keep) (r : Ring) (s : State) : Kept K ((lskSplitBody r s).2) ↔ Kept K s := by
  unfold lskSplitBody; simp

@[simp] theorem lskRejoinBody_kept (K : Keep) (r : Ring) (s : State) : Kept K ((lskRejoinBody r s).2) ↔ Kept K s := by
  unfold lskRejoinBody; simp

@[simp] theorem lskSubstituteBody_kept (K : Keep) (r : Ring) (s : State) :
    Kept K ((lskSubstituteBody r s).2) ↔ Kept K s := by
  unfold lskSubstituteBody; simp

theorem execLskStatus_kept (K : Keep) (dt : Nat) (r : Ring) (s : State) :
    ∃ u, execLskStatus dt r s = .next u ∧ (Kept K u ↔ Kept K s) := by
  unfold execLskStatus; exact ⟨_, rfl, by simp⟩

theorem execLskPairConfig_kept (K : Keep) (dt : Nat) (r : Ring) (s : State) :
    ∃ u, execLskPairConfig dt r s = .next u ∧ (Kept K u ↔ Kept K s) := by
  unfold execLskPairConfig; exact ⟨_, rfl, by simp⟩

theorem execLskPairReset_kept (K : Keep) (dt : Nat) (r : Ring) (s : State) :
    ∃ u, execLskPairReset dt r s = .next u ∧ (Kept K u ↔ Kept K s) := by
  unfold execLskPairReset; exact ⟨_, rfl, by simp⟩

theorem execLskSplit_kept (K : Keep) (dt : Nat) (r : Ring) (s : State) :
    ∃ u, execLskSplit dt r s = .next u ∧ (Kept K u ↔ Kept K s) := by
  unfold execLskSplit; exact ⟨_, rfl, by simp⟩

theorem execLskRejoin_kept (K : Keep) (dt : Nat) (r : Ring) (s : State) :
    ∃ u, execLskRejoin dt r s = .next u ∧ (Kept K u ↔ Kept K s) := by
  unfold execLskRejoin; exact ⟨_, rfl, by simp⟩

theorem execLskSubstitute_kept (K : Keep) (dt : Nat) (r : Ring) (s : State) :
    ∃ u, execLskSubstitute dt r s = .next u ∧ (Kept K u ↔ Kept K s) := by
  unfold execLskSubstitute; exact ⟨_, rfl, by simp⟩

@[simp] theorem nextWindowWrite_kept (K : Keep) (i : Iface) (off : Nat) (data : List Byte) (s : State) :
    Kept K (nextWindowWrite i off data s) ↔ Kept K s := by
  unfold nextWindowWrite; (repeat' split) <;> simp

@[simp] theorem openNext_kept (K : Keep) (s : State) : Kept K (openNext s) ↔ Kept K s := by
  unfold openNext; simp

@[simp] theorem pdiReleaseWrite_kept (K : Keep) (i : Iface) (v : Nat) (s : State) :
    Kept K (pdiReleaseWrite i v s) ↔ Kept K s := by
  unfold pdiReleaseWrite; (repeat' split) <;> simp

@[simp] theorem pdiMaskWrite_kept (K : Keep) (i : Iface) (v : Nat) (s : State) :
    Kept K (pdiMaskWrite i v s) ↔ Kept K s := by
  unfold pdiMaskWrite; simp

@[simp] theorem pdiIrqWrite_kept (K : Keep) (i : Iface) (v : Nat) (s : State) :
    Kept K (pdiIrqWrite i v s) ↔ Kept K s := by
  unfold pdiIrqWrite; simp

@[simp] theorem pdiRead_kept (K : Keep) (off : Nat) (s : State) : Kept K ((pdiRead off s).2) ↔ Kept K s := by
  unfold pdiRead; (repeat' split) <;> simp

@[simp] theorem pdiWrite_kept (K : Keep) (i : Iface) (off v : Nat) (s : State) :
    Kept K (pdiWrite i off v s) ↔ Kept K s := by
  unfold pdiWrite; (repeat' split) <;> simp

@[simp] theorem fabLinkEvent_kept (K : Keep) (k : Nat) (s : State) : Kept K (fabLinkEvent k s) ↔ Kept K s := by
  unfold fabLinkEvent; simp

@[simp] theorem fabLeave_kept (K : Keep) (k : Nat) (st : FabSt) (s : State) :
    Kept K (fabLeave k st s) ↔ Kept K s := by
  unfold fabLeave; simp

@[simp] theorem fabStartLinks_kept (K : Keep) (s : State) : Kept K (fabStartLinks s) ↔ Kept K s := by
  unfold fabStartLinks; simp

@[simp] theorem fabConflict_kept (K : Keep) (cause : Nat) (uid : BitVec 64) (s : State) :
    Kept K (fabConflict cause uid s) ↔ Kept K s := by
  unfold fabConflict; simp

theorem execFabricBeaconSend_kept (K : Keep) (dt : Nat) (k : Fin 4) (s : State) :
    ∃ u, execFabricBeaconSend dt k s = .next u ∧ (Kept K u ↔ Kept K s) := by
  unfold execFabricBeaconSend; exact ⟨_, rfl, by simp⟩

@[simp] theorem fabJudgeVid_kept (K : Keep) (k : Nat) (s : State) : Kept K (fabJudgeVid k s) ↔ Kept K s := by
  unfold fabJudgeVid; simp

@[simp] theorem fabTakeTable_kept (K : Keep) (b : FabricBeacon) (s : State) :
    Kept K (fabTakeTable b s) ↔ Kept K s := by
  unfold fabTakeTable; simp

@[simp] theorem fabSchedule_kept (K : Keep) (k : Nat) (b : FabricBeacon) (s : State) :
    Kept K (fabSchedule k b s) ↔ Kept K s := by
  unfold fabSchedule; simp

@[simp] theorem fabBeaconIn_kept (K : Keep) (k : Nat) (b : FabricBeacon) (s : State) :
    Kept K (fabBeaconIn k b s) ↔ Kept K s := by
  unfold fabBeaconIn; simp

theorem execFabricBeaconRx_kept (K : Keep) (dt : Nat) (k : Fin 4) (b : FabricBeacon) (s : State) :
    ∃ u, execFabricBeaconRx dt k b s = .next u ∧ (Kept K u ↔ Kept K s) := by
  unfold execFabricBeaconRx; exact ⟨_, rfl, by simp⟩

@[simp] theorem fabAssign_kept (K : Keep) (uid : BitVec 64) (s : State) : Kept K (fabAssign uid s) ↔ Kept K s := by
  unfold fabAssign; (repeat' split) <;> simp

@[simp] theorem fabAssignAtInstant_kept (K : Keep) (s : State) : Kept K (fabAssignAtInstant s) ↔ Kept K s := by
  unfold fabAssignAtInstant; simp

@[simp] theorem fabResend_kept (K : Keep) (k : Nat) (old : FabricFrame × Nat → Bool) (s : State) :
    Kept K (fabResend k old s) ↔ Kept K s := by
  unfold fabResend; simp

theorem execFabricAckTimeout_kept (K : Keep) (dt : Nat) (k : Fin 4) (s : State) :
    ∃ u, execFabricAckTimeout dt k s = .next u ∧ (Kept K u ↔ Kept K s) := by
  unfold execFabricAckTimeout; exact ⟨_, rfl, by simp⟩

theorem execFabricLinkDown_kept (K : Keep) (dt : Nat) (k : Fin 4) (s : State) :
    ∃ u, execFabricLinkDown dt k s = .next u ∧ (Kept K u ↔ Kept K s) := by
  unfold execFabricLinkDown; exact ⟨_, rfl, by simp⟩

@[simp] theorem fabEnterUp_kept (K : Keep) (k : Nat) (s : State) : Kept K (fabEnterUp k s) ↔ Kept K s := by
  unfold fabEnterUp; simp

theorem execFabricLinkUp_kept (K : Keep) (dt : Nat) (k : Fin 4) (s : State) :
    ∃ u, execFabricLinkUp dt k s = .next u ∧ (Kept K u ↔ Kept K s) := by
  unfold execFabricLinkUp; exact ⟨_, rfl, by simp⟩

@[simp] theorem retireLane_kept (K : Keep) (k lane : Nat) (s : State) : Kept K (retireLane k lane s) ↔ Kept K s := by
  unfold retireLane; simp

@[simp] theorem fabSwitchLane_kept (K : Keep) (k : Nat) (lane : Fin 2) (s : State) :
    Kept K (fabSwitchLane k lane s) ↔ Kept K s := by
  unfold fabSwitchLane; simp

@[simp] theorem fabBlockErrors_kept (K : Keep) (k n : Nat) (s : State) : Kept K (fabBlockErrors k n s) ↔ Kept K s := by
  unfold fabBlockErrors; simp

theorem execFabricLaneSwitch_kept (K : Keep) (dt : Nat) (k : Fin 4) (lane : Fin 2) (errors : Option Nat) (s : State) :
    ∃ u, execFabricLaneSwitch dt k lane errors s = .next u ∧ (Kept K u ↔ Kept K s) := by
  unfold execFabricLaneSwitch; exact ⟨_, rfl, by simp⟩

@[simp] theorem spareJudged_kept (K : Keep) (k errors : Nat) (s : State) :
    Kept K (spareJudged k errors s) ↔ Kept K s := by
  unfold spareJudged; simp

theorem execSpareLaneGood_kept (K : Keep) (dt : Nat) (k : Fin 4) (errors : Nat) (s : State) :
    ∃ u, execSpareLaneGood dt k errors s = .next u ∧ (Kept K u ↔ Kept K s) := by
  unfold execSpareLaneGood; exact ⟨_, rfl, by simp⟩

@[simp] theorem reportIn_kept (K : Keep) (r : FabricReport) (s : State) : Kept K (reportIn r s) ↔ Kept K s := by
  unfold reportIn; dsimp only; (repeat' split) <;> simp

@[simp] theorem fabReachAtInstant_kept (K : Keep) (s : State) : Kept K (fabReachAtInstant s) ↔ Kept K s := by
  unfold fabReachAtInstant; simp

@[simp] theorem fabReportAtInstant_kept (K : Keep) (s : State) : Kept K (fabReportAtInstant s) ↔ Kept K s := by
  unfold fabReportAtInstant; simp

@[simp] theorem fabricReportIn_kept (K : Keep) (p : Option Nat) (r : FabricReport) (s : State) :
    Kept K (fabricReportIn p r s) ↔ Kept K s := by
  unfold fabricReportIn; dsimp only; (repeat' split) <;> simp_all

theorem execFabricReportRx_kept (K : Keep) (dt : Nat) (p : Option (Fin 4)) (r : FabricReport) (s : State) :
    ∃ u, execFabricReportRx dt p r s = .next u ∧ (Kept K u ↔ Kept K s) := by
  unfold execFabricReportRx; exact ⟨_, rfl, by simp⟩

@[simp] theorem fabProofAtInstant_kept (K : Keep) (s : State) : Kept K (fabProofAtInstant s) ↔ Kept K s := by
  unfold fabProofAtInstant; simp

@[simp] theorem fabSubscribeAtInstant_kept (K : Keep) (s : State) : Kept K (fabSubscribeAtInstant s) ↔ Kept K s := by
  unfold fabSubscribeAtInstant; simp

@[simp] theorem proxyOne_kept (K : Keep) (x : Nat × FlowCtx) (s : State) : Kept K (proxyOne x s) ↔ Kept K s := by
  unfold proxyOne; simp

@[simp] theorem fabProxyAtInstant_kept (K : Keep) (s : State) : Kept K (fabProxyAtInstant s) ↔ Kept K s := by
  unfold fabProxyAtInstant; simp

@[simp] theorem fabLeadAtInstant_kept (K : Keep) (s : State) : Kept K (fabLeadAtInstant s) ↔ Kept K s := by
  unfold fabLeadAtInstant; (repeat' split) <;> simp

@[simp] theorem tickClose_kept (K : Keep) (s : State) : Kept K (tickClose s) ↔ Kept K s := by
  unfold tickClose; (repeat' split) <;> simp_all

@[simp] theorem fabAtInstant_kept (K : Keep) (s : State) : Kept K (fabAtInstant s) ↔ Kept K s := by
  unfold fabAtInstant; simp

theorem execFabricTickSend_kept (K : Keep) (dt : Nat) (s : State) :
    ∃ u, execFabricTickSend dt s = .next u ∧ (Kept K u ↔ Kept K s) := by
  unfold execFabricTickSend; exact ⟨_, rfl, by (repeat' split) <;> simp⟩

@[simp] theorem tickChoose_kept (K : Keep) (t : FabricTick) (s : State) : Kept K (tickChoose t s) ↔ Kept K s := by
  unfold tickChoose; simp

@[simp] theorem tickValid_kept (K : Keep) (im : Image) (t : FabricTick) (s : State) :
    Kept K (tickValid im t s) ↔ Kept K s := by
  unfold tickValid; simp

@[simp] theorem tickSample_kept (K : Keep) (k : Nat) (theta : Int) (t : FabricTick) (s : State) :
    Kept K (tickSample k theta t s) ↔ Kept K s := by
  unfold tickSample; simp

@[simp] theorem tickOn_kept (K : Keep) (k : Nat) (t : FabricTick) (residence : Nat) (s : State) :
    Kept K (tickOn k t residence s) ↔ Kept K s := by
  unfold tickOn; simp

@[simp] theorem tickEffect_kept (K : Keep) (im : Image) (k : Nat) (t : FabricTick) (tRx : Int) (s : State) :
    Kept K (tickEffect im k t tRx s) ↔ Kept K s := by
  unfold tickEffect; dsimp only; (repeat' split) <;> simp

@[simp] theorem tickNote_kept (K : Keep) (t : FabricTick) (s : State) : Kept K (tickNote t s) ↔ Kept K s := by
  unfold tickNote; (repeat' split) <;> simp_all

@[simp] theorem tickIn_kept (K : Keep) (k : Nat) (t : FabricTick) (tRx : Int) (residence : Nat) (s : State) :
    Kept K (tickIn k t tRx residence s) ↔ Kept K s := by
  unfold tickIn; dsimp only; (repeat' split) <;> simp

theorem execFabricTickRx_kept (K : Keep) (dt : Nat) (k : Fin 4) (t : FabricTick) (tRx : Int) (residence : Nat) (s : State) :
    ∃ u, execFabricTickRx dt k t tRx residence s = .next u ∧ (Kept K u ↔ Kept K s) := by
  unfold execFabricTickRx; exact ⟨_, rfl, by simp⟩

@[simp] theorem proxyIn_kept (K : Keep) (slot : Fin 16) (entry : Nat) (f : FlowFrame) (s : State) :
    Kept K (proxyIn slot entry f s) ↔ Kept K s := by
  unfold proxyIn; simp

theorem execProxyFrameRx_kept (K : Keep) (dt : Nat) (slot : Fin 16) (entry : Nat) (f : FlowFrame) (s : State) :
    ∃ u, execProxyFrameRx dt slot entry f s = .next u ∧ (Kept K u ↔ Kept K s) := by
  unfold execProxyFrameRx; exact ⟨_, rfl, by simp⟩

@[simp] theorem subscribeIn_kept (K : Keep) (slot : Fin 16) (flows : List (BitVec 16)) (s : State) :
    Kept K (subscribeIn slot flows s) ↔ Kept K s := by
  unfold subscribeIn; simp

theorem execFabricSubscribeRx_kept (K : Keep) (dt : Nat) (slot : Fin 16) (flows : List (BitVec 16)) (s : State) :
    ∃ u, execFabricSubscribeRx dt slot flows s = .next u ∧ (Kept K u ↔ Kept K s) := by
  unfold execFabricSubscribeRx; exact ⟨_, rfl, by simp⟩

@[simp] theorem relayFlow_kept (K : Keep) (lineB : Bool) (f : FlowFrame) (s : State) :
    Kept K (relayFlow lineB f s) ↔ Kept K s := by
  unfold relayFlow; simp

@[simp] theorem fabStatusBody_kept (K : Keep) (r : Ring) (s : State) : Kept K ((fabStatusBody r s).2) ↔ Kept K s := by
  unfold fabStatusBody; simp

@[simp] theorem fabAttach_kept (K : Keep) (s : State) : Kept K (fabAttach s) ↔ Kept K s := by
  unfold fabAttach; simp

@[simp] theorem fabConfigBody_kept (K : Keep) (r : Ring) (s : State) : Kept K ((fabConfigBody r s).2) ↔ Kept K s := by
  unfold fabConfigBody; simp

@[simp] theorem fabSlotTableBody_kept (K : Keep) (r : Ring) (s : State) :
    Kept K ((fabSlotTableBody r s).2) ↔ Kept K s := by
  unfold fabSlotTableBody; (repeat' split) <;> simp

theorem execFabStatus_kept (K : Keep) (dt : Nat) (r : Ring) (s : State) :
    ∃ u, execFabStatus dt r s = .next u ∧ (Kept K u ↔ Kept K s) := by
  unfold execFabStatus; exact ⟨_, rfl, by simp⟩

theorem execFabConfig_kept (K : Keep) (dt : Nat) (r : Ring) (s : State) :
    ∃ u, execFabConfig dt r s = .next u ∧ (Kept K u ↔ Kept K s) := by
  unfold execFabConfig; exact ⟨_, rfl, by simp⟩

theorem execFabSlotTable_kept (K : Keep) (dt : Nat) (r : Ring) (s : State) :
    ∃ u, execFabSlotTable dt r s = .next u ∧ (Kept K u ↔ Kept K s) := by
  unfold execFabSlotTable; exact ⟨_, rfl, by simp⟩

@[simp] theorem noteFailing_kept (K : Keep) (p : MemPlace) (s : State) : Kept K (noteFailing p s) ↔ Kept K s := by
  unfold noteFailing; simp

@[simp] theorem bankError_kept (K : Keep) (b : Nat) (unc : Bool) (s : State) :
    Kept K (bankError b unc s) ↔ Kept K s := by
  unfold bankError; simp

@[simp] theorem cacheCorrected_kept (K : Keep) (e : MemError) (s : State) :
    Kept K (cacheCorrected e s) ↔ Kept K s := by
  unfold cacheCorrected; (repeat' split) <;> simp_all

@[simp] theorem memoryError_kept (K : Keep) (e : MemError) (s : State) : Kept K (memoryError e s) ↔ Kept K s := by
  unfold memoryError; (repeat' split) <;> simp

@[simp] theorem reportUncorrectable_kept (K : Keep) (e : MemError) (s : State) :
    Kept K (reportUncorrectable e s) ↔ Kept K s := by
  unfold reportUncorrectable; simp

@[simp] theorem readMet_kept (K : Keep) (e : MemError) (s : State) : Kept K (readMet e s) ↔ Kept K s := by
  unfold readMet; (repeat' split) <;> simp

theorem execMemoryEccError_kept (K : Keep) (dt : Nat) (e : MemError) (s : State) :
    ∃ u, execMemoryEccError dt e s = .next u ∧ (Kept K u ↔ Kept K s) := by
  unfold execMemoryEccError; exact ⟨_, rfl, by simp⟩

@[simp] theorem placeDone_kept (K : Keep) (p : MemPlace) (s : State) : Kept K (placeDone p s) ↔ Kept K s := by
  unfold placeDone; simp

@[simp] theorem noteMacroFull_kept (K : Keep) (m : BitVec 16) (was : Bool) (s : State) :
    Kept K (noteMacroFull m was s) ↔ Kept K s := by
  unfold noteMacroFull; simp

@[simp] theorem useRow_kept (K : Keep) (m index : BitVec 16) (atStart : Bool) (s : State) :
    Kept K (useRow m index atStart s) ↔ Kept K s := by
  unfold useRow; simp

@[simp] theorem useCol_kept (K : Keep) (m index : BitVec 16) (atStart : Bool) (s : State) :
    Kept K (useCol m index atStart s) ↔ Kept K s := by
  unfold useCol; simp

@[simp] theorem repairSram_kept (K : Keep) (m : BitVec 16) (isRow : Bool) (index : BitVec 16) (c : Option (Fin 5)) (atStart : Bool) (s : State) :
    Kept K (repairSram m isRow index c atStart s) ↔ Kept K s := by
  unfold repairSram; simp

@[simp] theorem retirePage_kept (K : Keep) (page : BitVec 16) (atStart : Bool) (s : State) :
    Kept K (retirePage page atStart s) ↔ Kept K s := by
  unfold retirePage; simp

@[simp] theorem repairPlace_kept (K : Keep) (p : MemPlace) (atStart : Bool) (s : State) :
    Kept K (repairPlace p atStart s) ↔ Kept K s := by
  unfold repairPlace; (repeat' split) <;> simp

@[simp] theorem repTestEvent_kept (K : Keep) (kind pair : Nat) (passed : Bool) (s : State) :
    Kept K (repTestEvent kind pair passed s) ↔ Kept K s := by
  unfold repTestEvent; simp

@[simp] theorem requestDone_kept (K : Keep) (kind : Fin 8) (s : State) : Kept K (requestDone kind s) ↔ Kept K s := by
  unfold requestDone; (repeat' split) <;> simp

@[simp] theorem scrubSlice_kept (K : Keep) (w : ScrubWork) (s : State) : Kept K (scrubSlice w s) ↔ Kept K s := by
  unfold scrubSlice; (repeat' split) <;> simp

theorem execScrubSlice_kept (K : Keep) (dt : Nat) (w : ScrubWork) (s : State) :
    ∃ u, execScrubSlice dt w s = .next u ∧ (Kept K u ↔ Kept K s) := by
  unfold execScrubSlice; exact ⟨_, rfl, by simp⟩

@[simp] theorem bankRetire_kept (K : Keep) (b : Nat) (s : State) : Kept K (bankRetire b s) ↔ Kept K s := by
  unfold bankRetire; dsimp only; (repeat' split) <;> simp

theorem execBankDrainComplete_kept (K : Keep) (dt : Nat) (bank : Fin 26) (s : State) :
    ∃ u, execBankDrainComplete dt bank s = .next u ∧ (Kept K u ↔ Kept K s) := by
  unfold execBankDrainComplete; exact ⟨_, rfl, by simp⟩

@[simp] theorem rotationTry_kept (K : Keep) (s : State) : Kept K (rotationTry s) ↔ Kept K s := by
  unfold rotationTry; dsimp only; (repeat' split) <;> simp

theorem execRotationStep_kept (K : Keep) (dt : Nat) (s : State) :
    ∃ u, execRotationStep dt s = .next u ∧ (Kept K u ↔ Kept K s) := by
  unfold execRotationStep; exact ⟨_, rfl, by simp⟩

@[simp] theorem rotationAtInstant_kept (K : Keep) (s : State) : Kept K (rotationAtInstant s) ↔ Kept K s := by
  unfold rotationAtInstant; simp

@[simp] theorem agingRead_kept (K : Keep) (monitors : List Nat) (s : State) :
    Kept K (agingRead monitors s) ↔ Kept K s := by
  unfold agingRead; simp

@[simp] theorem applyCache_kept (K : Keep) (p : Fin 5) (atStart : Bool) (s : State) :
    Kept K (applyCache p atStart s) ↔ Kept K s := by
  unfold applyCache; simp

@[simp] theorem testPassed_kept (K : Keep) (p : Fin 5) (s : State) : Kept K (testPassed p s) ↔ Kept K s := by
  unfold testPassed; dsimp only; split
  · rw [retirePair_kept, modLsk_kept _ _ _ (fun x => by split <;> rfl)]; simp
  · simp

@[simp] theorem testFailed_kept (K : Keep) (p : Fin 5) (s : State) : Kept K (testFailed p s) ↔ Kept K s := by
  unfold testFailed; simp

@[simp] theorem selfTestEnd_kept (K : Keep) (p : Fin 5) (passed : Bool) (monitors : List Nat) (s : State) :
    Kept K (selfTestEnd p passed monitors s) ↔ Kept K s := by
  unfold selfTestEnd; simp

theorem execLogicSelfTestComplete_kept (K : Keep) (dt : Nat) (phys : Fin 5) (passed : Bool) (monitors : List Nat) (s : State) :
    ∃ u, execLogicSelfTestComplete dt phys passed monitors s = .next u ∧ (Kept K u ↔ Kept K s) := by
  unfold execLogicSelfTestComplete; exact ⟨_, rfl, by simp⟩

@[simp] theorem startFail_kept (K : Keep) (failed : List (Fin 5)) (p : Fin 5) (s : State) :
    Kept K (startFail failed p s) ↔ Kept K s := by
  unfold startFail; dsimp only; (repeat' split) <;> simp

@[simp] theorem startSelfTest_kept (K : Keep) (failed : List (Fin 5)) (s : State) :
    Kept K (startSelfTest failed s) ↔ Kept K s := by
  unfold startSelfTest; simp

@[simp] theorem logLost_kept (K : Keep) (s : State) : Kept K (logLost s) ↔ Kept K s := by
  unfold logLost; simp

theorem execAgingMonitorRead_kept (K : Keep) (dt : Nat) (monitors : List Nat) (s : State) :
    ∃ u, execAgingMonitorRead dt monitors s = .next u ∧ (Kept K u ↔ Kept K s) := by
  unfold execAgingMonitorRead; exact ⟨_, rfl, by simp⟩

@[simp] theorem agingApply_kept (K : Keep) (s : State) : Kept K (agingApply s) ↔ Kept K s := by
  unfold agingApply; (repeat' split) <;> simp

@[simp] theorem repStatusBody_kept (K : Keep) (r : Ring) (s : State) : Kept K ((repStatusBody r s).2) ↔ Kept K s := by
  unfold repStatusBody; simp

@[simp] theorem repLogBody_kept (K : Keep) (r : Ring) (s : State) : Kept K ((repLogBody r s).2) ↔ Kept K s := by
  unfold repLogBody; simp

@[simp] theorem addReq_kept (K : Keep) (kind : Fin 8) (m : Nat) (s : State) :
    Kept K (addReq kind m s) ↔ Kept K s := by
  unfold addReq; simp

@[simp] theorem askTest_kept (K : Keep) (p : Fin 5) (s : State) : Kept K (askTest p s) ↔ Kept K s := by
  unfold askTest; simp

@[simp] theorem repTestBody_kept (K : Keep) (r : Ring) (s : State) : Kept K ((repTestBody r s).2) ↔ Kept K s := by
  unfold repTestBody; simp

@[simp] theorem repCalibrateBody_kept (K : Keep) (r : Ring) (s : State) :
    Kept K ((repCalibrateBody r s).2) ↔ Kept K s := by
  unfold repCalibrateBody; simp

@[simp] theorem repRotationBody_kept (K : Keep) (r : Ring) (s : State) :
    Kept K ((repRotationBody r s).2) ↔ Kept K s := by
  unfold repRotationBody; simp

theorem execRepStatus_kept (K : Keep) (dt : Nat) (r : Ring) (s : State) :
    ∃ u, execRepStatus dt r s = .next u ∧ (Kept K u ↔ Kept K s) := by
  unfold execRepStatus; exact ⟨_, rfl, by simp⟩

theorem execRepLog_kept (K : Keep) (dt : Nat) (r : Ring) (s : State) :
    ∃ u, execRepLog dt r s = .next u ∧ (Kept K u ↔ Kept K s) := by
  unfold execRepLog; exact ⟨_, rfl, by simp⟩

theorem execRepTest_kept (K : Keep) (dt : Nat) (r : Ring) (s : State) :
    ∃ u, execRepTest dt r s = .next u ∧ (Kept K u ↔ Kept K s) := by
  unfold execRepTest; exact ⟨_, rfl, by simp⟩

theorem execRepCalibrate_kept (K : Keep) (dt : Nat) (r : Ring) (s : State) :
    ∃ u, execRepCalibrate dt r s = .next u ∧ (Kept K u ↔ Kept K s) := by
  unfold execRepCalibrate; exact ⟨_, rfl, by simp⟩

theorem execRepRotation_kept (K : Keep) (dt : Nat) (r : Ring) (s : State) :
    ∃ u, execRepRotation dt r s = .next u ∧ (Kept K u ↔ Kept K s) := by
  unfold execRepRotation; exact ⟨_, rfl, by simp⟩

@[simp] theorem modPwr_kept (K : Keep) (f : Pwr → Pwr) (s : State) (h : ∀ x, (f x).doms.length = x.doms.length) :
    Kept K (modPwr f s) ↔ Kept K s := by
  unfold modPwr; simp [h]

@[simp] theorem pwrCount_kept (K : Keep) (i : Nat) (s : State) : Kept K (pwrCount i s) ↔ Kept K s := by
  unfold pwrCount; simp

@[simp] theorem setSupply_kept (K : Keep) (n : Supply) (s : State) : Kept K (setSupply n s) ↔ Kept K s := by
  unfold setSupply; (repeat' split) <;> simp

@[simp] theorem setDoms_kept (K : Keep) (l : List (Nat × DomSt)) (s : State) : Kept K (setDoms l s) ↔ Kept K s := by
  unfold setDoms; simp

@[simp] theorem quietBuses_kept (K : Keep) (s : State) : Kept K (quietBuses s) ↔ Kept K s := by
  unfold quietBuses; simp

@[simp] theorem quietOutputs_kept (K : Keep) (s : State) : Kept K (quietOutputs s) ↔ Kept K s := by
  unfold quietOutputs; simp

@[simp] theorem declareLoss_kept (K : Keep) (s : State) : Kept K (declareLoss s) ↔ Kept K s := by
  unfold declareLoss; simp

@[simp] theorem inputChange_kept (K : Keep) (vin : Nat) (s : State) : Kept K (inputChange vin s) ↔ Kept K s := by
  unfold inputChange; simp

theorem execInputVoltageChange_kept (K : Keep) (dt : Nat) (vin : Nat) (s : State) :
    ∃ u, execInputVoltageChange dt vin s = .next u ∧ (Kept K u ↔ Kept K s) := by
  unfold execInputVoltageChange; exact ⟨_, rfl, by simp⟩

theorem execStoreOkChange_kept (K : Keep) (dt : Nat) (vstore : Nat) (s : State) :
    ∃ u, execStoreOkChange dt vstore s = .next u ∧ (Kept K u ↔ Kept K s) := by
  unfold execStoreOkChange; exact ⟨_, rfl, by simp⟩

theorem execLossDeclared_kept (K : Keep) (dt : Nat) (vin : Nat) (vstore : Nat) (s : State) :
    ∃ u, execLossDeclared dt vin vstore s = .next u ∧ (Kept K u ↔ Kept K s) := by
  unfold execLossDeclared; exact ⟨_, rfl, by simp⟩

theorem execShutdownBypassClose_kept (K : Keep) (dt : Nat) (s : State) :
    ∃ u, execShutdownBypassClose dt s = .next u ∧ (Kept K u ↔ Kept K s) := by
  unfold execShutdownBypassClose; exact ⟨_, rfl, by simp⟩

theorem execPd0Stop_kept (K : Keep) (dt : Nat) (s : State) :
    ∃ u, execPd0Stop dt s = .next u ∧ (Kept K u ↔ Kept K s) := by
  unfold execPd0Stop; exact ⟨_, rfl, by simp⟩

@[simp] theorem thermalEvent_kept (K : Keep) (state : Nat) (s : State) :
    Kept K (thermalEvent state s) ↔ Kept K s := by
  unfold thermalEvent; simp

@[simp] theorem thermalIn_kept (K : Keep) (case_ die : Int) (s : State) :
    Kept K (thermalIn case_ die s) ↔ Kept K s := by
  unfold thermalIn; simp

theorem execThermalChange_kept (K : Keep) (dt : Nat) (case : Int) (die : Int) (s : State) :
    ∃ u, execThermalChange dt case die s = .next u ∧ (Kept K u ↔ Kept K s) := by
  unfold execThermalChange; exact ⟨_, rfl, by simp⟩

@[simp] theorem thermalAtInstant_kept (K : Keep) (s : State) : Kept K (thermalAtInstant s) ↔ Kept K s := by
  unfold thermalAtInstant; simp

@[simp] theorem enterDom_kept (K : Keep) (d : Nat) (n : DomSt) (s : State) : Kept K (enterDom d n s) ↔ Kept K s := by
  unfold enterDom; (repeat' split) <;> simp

@[simp] theorem chooseDom_kept (K : Keep) (d : Nat) (s : State) : Kept K (chooseDom d s) ↔ Kept K s := by
  unfold chooseDom; simp

theorem execPowerDomainIdle_kept (K : Keep) (dt : Nat) (d : Fin 12) (idle : Bool) (next : Option Nat) (s : State) :
    ∃ u, execPowerDomainIdle dt d idle next s = .next u ∧ (Kept K u ↔ Kept K s) := by
  unfold execPowerDomainIdle; exact ⟨_, rfl, by simp⟩

@[simp] theorem wakeDom_kept (K : Keep) (d : Nat) (s : State) : Kept K (wakeDom d s) ↔ Kept K s := by
  unfold wakeDom; (repeat' split) <;> simp

theorem execDomainWakeTimer_kept (K : Keep) (dt : Nat) (d : Fin 12) (s : State) :
    ∃ u, execDomainWakeTimer dt d s = .next u ∧ (Kept K u ↔ Kept K s) := by
  unfold execDomainWakeTimer; exact ⟨_, rfl, by simp⟩

theorem execAsyncDomainWake_kept (K : Keep) (dt : Nat) (d : Fin 12) (due : Option Nat) (s : State) :
    ∃ u, execAsyncDomainWake dt d due s = .next u ∧ (Kept K u ↔ Kept K s) := by
  unfold execAsyncDomainWake; exact ⟨_, rfl, by simp⟩

@[simp] theorem powerAtInstant_kept (K : Keep) (s : State) : Kept K (powerAtInstant s) ↔ Kept K s := by
  unfold powerAtInstant; simp

@[simp] theorem parkedEvent_kept (K : Keep) (kiln : Bool) (s : State) : Kept K (parkedEvent kiln s) ↔ Kept K s := by
  unfold parkedEvent; simp

@[simp] theorem portToListen_kept (K : Keep) (p : Nat) (s : State) : Kept K (portToListen p s) ↔ Kept K s := by
  unfold portToListen; simp

@[simp] theorem enterPark_kept (K : Keep) (s : State) : Kept K (enterPark s) ↔ Kept K s := by
  unfold enterPark; simp

@[simp] theorem forwardWake_kept (K : Keep) (port : Option (Fin 4)) (s : State) :
    Kept K (forwardWake port s) ↔ Kept K s := by
  unfold forwardWake; simp

@[simp] theorem wakeIn_kept (K : Keep) (src : Nat) (port : Option (Fin 4)) (s : State) :
    Kept K (wakeIn src port s) ↔ Kept K s := by
  unfold wakeIn; simp

theorem execWakeSource_kept (K : Keep) (dt : Nat) (src : Fin 5) (port : Option (Fin 4)) (s : State) :
    ∃ u, execWakeSource dt src port s = .next u ∧ (Kept K u ↔ Kept K s) := by
  unfold execWakeSource; exact ⟨_, rfl, by simp⟩

theorem execWakeLLowTimeout_kept (K : Keep) (dt : Nat) (s : State) :
    ∃ u, execWakeLLowTimeout dt s = .next u ∧ (Kept K u ↔ Kept K s) := by
  unfold execWakeLLowTimeout; exact ⟨_, rfl, by simp⟩

@[simp] theorem pwrStatusBody_kept (K : Keep) (r : Ring) (s : State) : Kept K ((pwrStatusBody r s).2) ↔ Kept K s := by
  unfold pwrStatusBody; simp

@[simp] theorem pwrStore_kept (K : Keep) (s : State) : Kept K (pwrStore s) ↔ Kept K s := by
  unfold pwrStore; simp

@[simp] theorem pwrDomainConfigBody_kept (K : Keep) (r : Ring) (s : State) :
    Kept K ((pwrDomainConfigBody r s).2) ↔ Kept K s := by
  unfold pwrDomainConfigBody; simp

@[simp] theorem dropEntry_kept (K : Keep) (s : State) : Kept K (dropEntry s) ↔ Kept K s := by
  unfold dropEntry; simp

@[simp] theorem entryBody_kept (K : Keep) (kiln : Bool) (r : Ring) (s : State) :
    Kept K ((entryBody kiln r s).2) ↔ Kept K s := by
  unfold entryBody; simp

@[simp] theorem pwrWakeConfigBody_kept (K : Keep) (r : Ring) (s : State) :
    Kept K ((pwrWakeConfigBody r s).2) ↔ Kept K s := by
  unfold pwrWakeConfigBody; simp

theorem execPwrStatus_kept (K : Keep) (dt : Nat) (r : Ring) (s : State) :
    ∃ u, execPwrStatus dt r s = .next u ∧ (Kept K u ↔ Kept K s) := by
  unfold execPwrStatus; exact ⟨_, rfl, by simp⟩

theorem execPwrDomainConfig_kept (K : Keep) (dt : Nat) (r : Ring) (s : State) :
    ∃ u, execPwrDomainConfig dt r s = .next u ∧ (Kept K u ↔ Kept K s) := by
  unfold execPwrDomainConfig; exact ⟨_, rfl, by simp⟩

theorem execPwrPark_kept (K : Keep) (dt : Nat) (r : Ring) (s : State) :
    ∃ u, execPwrPark dt r s = .next u ∧ (Kept K u ↔ Kept K s) := by
  unfold execPwrPark; exact ⟨_, rfl, by simp⟩

theorem execPwrParkWithdraw_kept (K : Keep) (dt : Nat) (r : Ring) (s : State) :
    ∃ u, execPwrParkWithdraw dt r s = .next u ∧ (Kept K u ↔ Kept K s) := by
  unfold execPwrParkWithdraw; exact ⟨_, rfl, by simp⟩

theorem execPwrKiln_kept (K : Keep) (dt : Nat) (r : Ring) (s : State) :
    ∃ u, execPwrKiln dt r s = .next u ∧ (Kept K u ↔ Kept K s) := by
  unfold execPwrKiln; exact ⟨_, rfl, by simp⟩

theorem execPwrKilnWithdraw_kept (K : Keep) (dt : Nat) (r : Ring) (s : State) :
    ∃ u, execPwrKilnWithdraw dt r s = .next u ∧ (Kept K u ↔ Kept K s) := by
  unfold execPwrKilnWithdraw; exact ⟨_, rfl, by simp⟩

theorem execPwrWakeConfig_kept (K : Keep) (dt : Nat) (r : Ring) (s : State) :
    ∃ u, execPwrWakeConfig dt r s = .next u ∧ (Kept K u ↔ Kept K s) := by
  unfold execPwrWakeConfig; exact ⟨_, rfl, by simp⟩

@[simp] theorem modSys_eq (f : Sys → Sys) (s : State) : modSys f s = { s with sys := f s.sys } := rfl

@[simp] theorem sysPatchStageBody_kept (K : Keep) (r : Ring) (s : State) :
    Kept K ((sysPatchStageBody r s).2) ↔ Kept K s := by
  unfold sysPatchStageBody; simp

@[simp] theorem sysPatchVerifyBody_kept (K : Keep) (_r : Ring) (s : State) :
    Kept K ((sysPatchVerifyBody _r s).2) ↔ Kept K s := by
  unfold sysPatchVerifyBody; (repeat' split) <;> simp

@[simp] theorem sysIdentityBody_kept (K : Keep) (_r : Ring) (s : State) :
    Kept K ((sysIdentityBody _r s).2) ↔ Kept K s := by
  unfold sysIdentityBody; simp

@[simp] theorem sysNopBody_kept (K : Keep) (r : Ring) (s : State) : Kept K ((sysNopBody r s).2) ↔ Kept K s := by
  unfold sysNopBody; simp

@[simp] theorem sysLogReadBody_kept (K : Keep) (r : Ring) (s : State) :
    Kept K ((sysLogReadBody r s).2) ↔ Kept K s := by
  unfold sysLogReadBody; simp

@[simp] theorem sysEventMaskBody_kept (K : Keep) (r : Ring) (s : State) :
    Kept K ((sysEventMaskBody r s).2) ↔ Kept K s := by
  unfold sysEventMaskBody; simp

@[simp] theorem sysResetBody_kept (K : Keep) (r : Ring) (s : State) : Kept K ((sysResetBody r s).2) ↔ Kept K s := by
  unfold sysResetBody; simp

@[simp] theorem queuedDropped_kept (K : Keep) (qs : List Queued) (s : State) :
    Kept K (queuedDropped qs s) ↔ Kept K s := by
  unfold queuedDropped; (repeat' split) <;> simp_all

@[simp] theorem resetFollow_kept (K : Keep) (s : State) : Kept K (resetFollow s) ↔ Kept K s := by
  unfold resetFollow; (repeat' split) <;> simp

@[simp] theorem thenReset_kept (K : Keep) (before after : State) :
    Kept K (thenReset before after) ↔ Kept K after := by
  unfold thenReset; split <;> simp

@[simp] theorem sysProfileConfirmBody_kept (K : Keep) (r : Ring) (s : State) :
    Kept K ((sysProfileConfirmBody r s).2) ↔ Kept K s := by
  unfold sysProfileConfirmBody; simp

@[simp] theorem debugNonce_kept (K : Keep) (s : State) : Kept K ((debugNonce s).2) ↔ Kept K s := by
  unfold debugNonce; simp

@[simp] theorem debugUnlock_kept (K : Keep) (req : List Byte) (s : State) :
    Kept K ((debugUnlock req s).2) ↔ Kept K s := by
  unfold debugUnlock; (repeat' split) <;> simp

@[simp] theorem sysDebugBody_kept (K : Keep) (r : Ring) (s : State) : Kept K ((sysDebugBody r s).2) ↔ Kept K s := by
  unfold sysDebugBody; (repeat' split) <;> simp

theorem execSysIdentity_kept (K : Keep) (dt : Nat) (r : Ring) (s : State) :
    ∃ u, execSysIdentity dt r s = .next u ∧ (Kept K u ↔ Kept K s) := by
  unfold execSysIdentity; exact ⟨_, rfl, by simp⟩

theorem execSysNop_kept (K : Keep) (dt : Nat) (r : Ring) (s : State) :
    ∃ u, execSysNop dt r s = .next u ∧ (Kept K u ↔ Kept K s) := by
  unfold execSysNop; exact ⟨_, rfl, by simp⟩

theorem execSysReset_kept (K : Keep) (dt : Nat) (r : Ring) (s : State) :
    ∃ u, execSysReset dt r s = .next u ∧ (Kept K u ↔ Kept K s) := by
  unfold execSysReset; exact ⟨_, rfl, by simp⟩

theorem execSysEventMask_kept (K : Keep) (dt : Nat) (r : Ring) (s : State) :
    ∃ u, execSysEventMask dt r s = .next u ∧ (Kept K u ↔ Kept K s) := by
  unfold execSysEventMask; exact ⟨_, rfl, by simp⟩

theorem execSysPatchStage_kept (K : Keep) (dt : Nat) (r : Ring) (s : State) :
    ∃ u, execSysPatchStage dt r s = .next u ∧ (Kept K u ↔ Kept K s) := by
  unfold execSysPatchStage; exact ⟨_, rfl, by simp⟩

theorem execSysPatchVerify_kept (K : Keep) (dt : Nat) (r : Ring) (s : State) :
    ∃ u, execSysPatchVerify dt r s = .next u ∧ (Kept K u ↔ Kept K s) := by
  unfold execSysPatchVerify; exact ⟨_, rfl, by simp⟩

theorem execSysLogRead_kept (K : Keep) (dt : Nat) (r : Ring) (s : State) :
    ∃ u, execSysLogRead dt r s = .next u ∧ (Kept K u ↔ Kept K s) := by
  unfold execSysLogRead; exact ⟨_, rfl, by simp⟩

theorem execSysProfileConfirm_kept (K : Keep) (dt : Nat) (r : Ring) (s : State) :
    ∃ u, execSysProfileConfirm dt r s = .next u ∧ (Kept K u ↔ Kept K s) := by
  unfold execSysProfileConfirm; exact ⟨_, rfl, by simp⟩

theorem execSysDebugNonce_kept (K : Keep) (dt : Nat) (r : Ring) (s : State) :
    ∃ u, execSysDebugNonce dt r s = .next u ∧ (Kept K u ↔ Kept K s) := by
  unfold execSysDebugNonce; exact ⟨_, rfl, by simp⟩

theorem execSysDebugUnlock_kept (K : Keep) (dt : Nat) (r : Ring) (s : State) :
    ∃ u, execSysDebugUnlock dt r s = .next u ∧ (Kept K u ↔ Kept K s) := by
  unfold execSysDebugUnlock; exact ⟨_, rfl, by simp⟩

theorem execSysDebugRelock_kept (K : Keep) (dt : Nat) (r : Ring) (s : State) :
    ∃ u, execSysDebugRelock dt r s = .next u ∧ (Kept K u ↔ Kept K s) := by
  unfold execSysDebugRelock; exact ⟨_, rfl, by simp⟩

end Sys2Proof.Machine
end

