-- ==== Sys2Proof/Laws/KeptHost.lean ====
section
/-! SUPPORT. The host bridge and the register space keep what `Kept` names. -/

namespace Sys2Proof.Machine

@[simp] theorem modBridge_kept (K : Keep) (f : Bridge → Bridge) (s : State) : Kept K (modBridge f s) ↔ Kept K s := by
  unfold modBridge; simp

@[simp] theorem bridgeCount_kept (K : Keep) (i : Nat) (s : State) : Kept K (bridgeCount i s) ↔ Kept K s := by
  unfold bridgeCount; simp

@[simp] theorem semSet_kept (K : Keep) (k : Nat) (x : Option Sem) (s : State) : Kept K (semSet k x s) ↔ Kept K s := by
  unfold semSet; simp

@[simp] theorem semTake_kept (K : Keep) (i : Iface) (k : Nat) (s : State) : Kept K (semTake i k s) ↔ Kept K s := by
  unfold semTake; simp

@[simp] theorem semRead_kept (K : Keep) (i : Iface) (k : Nat) (s : State) :
    Kept K ((semRead i k s).2) ↔ Kept K s := by
  unfold semRead; (repeat' split) <;> simp

@[simp] theorem semWrite_kept (K : Keep) (i : Iface) (k v : Nat) (s : State) :
    Kept K (semWrite i k v s) ↔ Kept K s := by
  unfold semWrite; (repeat' split) <;> simp

@[simp] theorem semEvent_kept (K : Keep) (k cause : Nat) (s : State) : Kept K (semEvent k cause s) ↔ Kept K s := by
  unfold semEvent; simp

@[simp] theorem semFree_kept (K : Keep) (k cause : Nat) (s : State) : Kept K (semFree k cause s) ↔ Kept K s := by
  unfold semFree; simp

@[simp] theorem semOwnFree_kept (K : Keep) (s : State) : Kept K (semOwnFree s) ↔ Kept K s := by
  unfold semOwnFree; simp

@[simp] theorem pwFail_kept (K : Keep) (code : Nat) (o : Outbound) (s : State) :
    Kept K (pwFail code o s) ↔ Kept K s := by
  unfold pwFail; simp

@[simp] theorem fabWindowSetBody_kept (K : Keep) (r : Ring) (s : State) :
    Kept K ((fabWindowSetBody r s).2) ↔ Kept K s := by
  unfold fabWindowSetBody; simp

@[simp] theorem fabBridgeStatusBody_kept (K : Keep) (r : Ring) (s : State) :
    Kept K ((fabBridgeStatusBody r s).2) ↔ Kept K s := by
  unfold fabBridgeStatusBody; simp

@[simp] theorem fabPwlogBody_kept (K : Keep) (r : Ring) (s : State) : Kept K ((fabPwlogBody r s).2) ↔ Kept K s := by
  unfold fabPwlogBody; simp

@[simp] theorem fabSemReleaseBody_kept (K : Keep) (r : Ring) (s : State) :
    Kept K ((fabSemReleaseBody r s).2) ↔ Kept K s := by
  unfold fabSemReleaseBody; simp

theorem execFabWindowSet_kept (K : Keep) (dt : Nat) (r : Ring) (s : State) :
    ∃ u, execFabWindowSet dt r s = .next u ∧ (Kept K u ↔ Kept K s) := by
  unfold execFabWindowSet; exact ⟨_, rfl, by simp⟩

theorem execFabBridgeStatus_kept (K : Keep) (dt : Nat) (r : Ring) (s : State) :
    ∃ u, execFabBridgeStatus dt r s = .next u ∧ (Kept K u ↔ Kept K s) := by
  unfold execFabBridgeStatus; exact ⟨_, rfl, by simp⟩

theorem execFabPwlog_kept (K : Keep) (dt : Nat) (r : Ring) (s : State) :
    ∃ u, execFabPwlog dt r s = .next u ∧ (Kept K u ↔ Kept K s) := by
  unfold execFabPwlog; exact ⟨_, rfl, by simp⟩

theorem execFabSemRelease_kept (K : Keep) (dt : Nat) (r : Ring) (s : State) :
    ∃ u, execFabSemRelease dt r s = .next u ∧ (Kept K u ↔ Kept K s) := by
  unfold execFabSemRelease; exact ⟨_, rfl, by simp⟩

theorem commands_kept (K : Keep) : ∀ c ∈ commands, ∀ r s, Kept K (c.2 r s).2 ↔ Kept K s := by
  unfold commands commands1 commands2 commands3 commands4 commands5 commands6
  simp only [List.cons_append, List.nil_append, List.forall_mem_cons]
  and_intros <;> simp

@[simp] theorem ringMailbox_kept (K : Keep) (n : Fin 8) (i : Iface) (s : State) :
    Kept K (ringMailbox n i s) ↔ Kept K s := by
  unfold ringMailbox; dsimp only; split
  · simp
  · split
    · simp
    · rename_i c hc
      have h := commands_kept K c (List.mem_of_find?_eq_some hc)
      split <;> simp [h]

@[simp] theorem doorbellWrite_kept (K : Keep) (n : Fin 8) (i : Iface) (v : Nat) (s : State) :
    Kept K (doorbellWrite n i v s) ↔ Kept K s := by
  unfold doorbellWrite; simp

@[simp] theorem queuedComplete_kept (K : Keep) (seq : BitVec 32) (status : BitVec 16) (s : State) :
    Kept K (queuedComplete seq status s) ↔ Kept K s := by
  unfold queuedComplete; (repeat' split) <;> simp

theorem execQueuedCommandComplete_kept (K : Keep) (dt : Nat) (seq : BitVec 32) (status : BitVec 16) (s : State) :
    ∃ u, execQueuedCommandComplete dt seq status s = .next u ∧ (Kept K u ↔ Kept K s) := by
  unfold execQueuedCommandComplete; exact ⟨_, rfl, by simp⟩

theorem execDoorbellRing_kept (K : Keep) (dt : Nat) (src : Iface) (mbx : Fin 8) (value : BitVec 32) (s : State) :
    ∃ u, execDoorbellRing dt src mbx value s = .next u ∧ (Kept K u ↔ Kept K s) := by
  unfold execDoorbellRing; exact ⟨_, rfl, by simp⟩

@[simp] theorem mbxWrite_kept (K : Keep) (i : Iface) (n off : Nat) (data : List Byte) (s : State) :
    Kept K (mbxWrite i n off data s) ↔ Kept K s := by
  unfold mbxWrite; simp

@[simp] theorem lockRead_kept (K : Keep) (i : Iface) (n : Nat) (s : State) :
    Kept K ((lockRead i n s).2) ↔ Kept K s := by
  unfold lockRead; (repeat' split) <;> simp

@[simp] theorem lockWrite_kept (K : Keep) (i : Iface) (n v : Nat) (s : State) :
    Kept K (lockWrite i n v s) ↔ Kept K s := by
  unfold lockWrite; simp

@[simp] theorem doorbellRead_kept (K : Keep) (i : Iface) (off : Nat) (s : State) :
    Kept K ((doorbellRead i off s).2) ↔ Kept K s := by
  unfold doorbellRead; simp

@[simp] theorem evqRdWrite_kept (K : Keep) (i : Iface) (v : Nat) (s : State) :
    Kept K (evqRdWrite i v s) ↔ Kept K s := by
  unfold evqRdWrite; simp

@[simp] theorem evqRead_kept (K : Keep) (off : Nat) (s : State) : Kept K ((evqRead off s).2) ↔ Kept K s := by
  unfold evqRead; (repeat' split) <;> simp

@[simp] theorem evqWrite_kept (K : Keep) (i : Iface) (off v : Nat) (s : State) :
    Kept K (evqWrite i off v s) ↔ Kept K s := by
  unfold evqWrite; simp

@[simp] theorem holdTimeout_kept (K : Keep) (s : State) : Kept K (holdTimeout s) ↔ Kept K s := by
  unfold holdTimeout; dsimp only; (repeat' split) <;> simp

@[simp] theorem multiRead_kept (K : Keep) (i : Iface) (base off : Nat) (words : List Nat) (s : State) :
    Kept K ((multiRead i base off words s).2) ↔ Kept K s := by
  unfold multiRead; simp

@[simp] theorem ttsRead_kept (K : Keep) (i : Iface) (off : Nat) (s : State) :
    Kept K ((ttsRead i off s).2) ↔ Kept K s := by
  unfold ttsRead; simp

@[simp] theorem tioRead_kept (K : Keep) (i : Iface) (n off : Nat) (s : State) :
    Kept K ((tioRead i n off s).2) ↔ Kept K s := by
  unfold tioRead; simp

@[simp] theorem canReadFull_kept (K : Keep) (i : Iface) (c off : Nat) (s : State) :
    Kept K ((canReadFull i c off s).2) ↔ Kept K s := by
  unfold canReadFull; (repeat' split) <;> simp

@[simp] theorem summaryRead_kept (K : Keep) (i : Iface) (j off : Nat) (s : State) :
    Kept K ((summaryRead i j off s).2) ↔ Kept K s := by
  unfold summaryRead; simp

@[simp] theorem bytesWrite_kept (K : Keep) (i : Iface) (a : Nat) (data : List Byte) (s : State) :
    Kept K (bytesWrite i a data s) ↔ Kept K s := by
  unfold bytesWrite; simp

@[simp] theorem regRead_kept (K : Keep) (i : Iface) (a : Nat) (s : State) :
    Kept K ((regRead i a s).2) ↔ Kept K s := by
  unfold regRead; simp

@[simp] theorem regWrite_kept (K : Keep) (i : Iface) (a v : Nat) (s : State) :
    Kept K (regWrite i a v s) ↔ Kept K s := by
  unfold regWrite; simp

@[simp] theorem busRead_kept (K : Keep) (i : Iface) (a n : Nat) (s : State) :
    Kept K ((busRead i a n s).2) ↔ Kept K s := by
  unfold busRead; (repeat' split) <;> simp

@[simp] theorem busWrite_kept (K : Keep) (i : Iface) (a : Nat) (data : List Byte) (s : State) :
    Kept K (busWrite i a data s) ↔ Kept K s := by
  unfold busWrite; (repeat' split) <;> simp

@[simp] theorem busReads_kept (K : Keep) (i : Iface) (f a n : Nat) (s : State) :
    Kept K (busReads i f a n s).2 ↔ Kept K s := by
  induction f generalizing a n s with
  | zero => simp [busReads]
  | succ f ih => unfold busReads; dsimp only; split <;> simp [ih]

@[simp] theorem busWrites_kept (K : Keep) (i : Iface) (f a : Nat) (d : List Byte) (s : State) :
    Kept K (busWrites i f a d s) ↔ Kept K s := by
  induction f generalizing a d s with
  | zero => simp [busWrites]
  | succ f ih => unfold busWrites; dsimp only; split <;> simp [ih]

@[simp] theorem readAccess_kept (K : Keep) (dt : Nat) (src : Iface) (a n : Nat) (s : State) :
    Kept K (readAccess dt src a n s) ↔ Kept K s := by
  unfold readAccess; simp

@[simp] theorem writeAccess_kept (K : Keep) (dt : Nat) (src : Iface) (a : Nat) (data : List Byte) (s : State) :
    Kept K (writeAccess dt src a data s) ↔ Kept K s := by
  unfold writeAccess; simp

theorem execMailboxWrite_kept (K : Keep) (dt : Nat) (src : Iface) (mbx : Fin 8) (off : Nat) (data : List Byte) (s : State) :
    ∃ u, execMailboxWrite dt src mbx off data s = .next u ∧ (Kept K u ↔ Kept K s) := by
  unfold execMailboxWrite; exact ⟨_, rfl, by simp⟩

theorem execMbxLockRead_kept (K : Keep) (dt : Nat) (src : Iface) (mbx : Fin 8) (s : State) :
    ∃ u, execMbxLockRead dt src mbx s = .next u ∧ (Kept K u ↔ Kept K s) := by
  unfold execMbxLockRead; exact ⟨_, rfl, by simp⟩

theorem execMbxLockWrite_kept (K : Keep) (dt : Nat) (src : Iface) (mbx : Fin 8) (value : BitVec 32) (s : State) :
    ∃ u, execMbxLockWrite dt src mbx value s = .next u ∧ (Kept K u ↔ Kept K s) := by
  unfold execMbxLockWrite; exact ⟨_, rfl, by simp⟩

theorem execEvqRdWrite_kept (K : Keep) (dt : Nat) (src : Iface) (value : BitVec 32) (s : State) :
    ∃ u, execEvqRdWrite dt src value s = .next u ∧ (Kept K u ↔ Kept K s) := by
  unfold execEvqRdWrite; exact ⟨_, rfl, by simp⟩

theorem execEvqHoldTimeout_kept (K : Keep) (dt : Nat) (s : State) :
    ∃ u, execEvqHoldTimeout dt s = .next u ∧ (Kept K u ↔ Kept K s) := by
  unfold execEvqHoldTimeout; exact ⟨_, rfl, by simp⟩

theorem execNextWindowWrite_kept (K : Keep) (dt : Nat) (src : Iface) (off : Nat) (data : List Byte) (s : State) :
    ∃ u, execNextWindowWrite dt src off data s = .next u ∧ (Kept K u ↔ Kept K s) := by
  unfold execNextWindowWrite; exact ⟨_, rfl, by simp⟩

theorem execCurrentWindowWrite_kept (K : Keep) (dt : Nat) (src : Iface) (off : Nat) (data : List Byte) (s : State) :
    ∃ u, execCurrentWindowWrite dt src off data s = .next u ∧ (Kept K u ↔ Kept K s) := by
  unfold execCurrentWindowWrite; exact ⟨_, rfl, by simp⟩

theorem execPdiReleaseHost_kept (K : Keep) (dt : Nat) (src : Iface) (value : BitVec 32) (s : State) :
    ∃ u, execPdiReleaseHost dt src value s = .next u ∧ (Kept K u ↔ Kept K s) := by
  unfold execPdiReleaseHost; exact ⟨_, rfl, by simp⟩

theorem execPdiReleasePair_kept (K : Keep) (dt : Nat) (l : Fin 4) (value : BitVec 32) (s : State) :
    ∃ u, execPdiReleasePair dt l value s = .next u ∧ (Kept K u ↔ Kept K s) := by
  unfold execPdiReleasePair; exact ⟨_, rfl, by simp⟩

theorem execPdiRelMaskWrite_kept (K : Keep) (dt : Nat) (src : Iface) (value : BitVec 32) (s : State) :
    ∃ u, execPdiRelMaskWrite dt src value s = .next u ∧ (Kept K u ↔ Kept K s) := by
  unfold execPdiRelMaskWrite; exact ⟨_, rfl, by simp⟩

theorem bridgeRoute_kept (K : Keep) (resp : Bool) (f : BridgeFrame) (s t : State) (h : bridgeRoute resp f s = some t) :
    Kept K t ↔ Kept K s := by
  unfold bridgeRoute at h; dsimp only at h
  (repeat' split at h) <;> simp at h
  · obtain ⟨_, _, rfl⟩ := h; simp
  · obtain ⟨_, _, rfl⟩ := h; simp
  · subst h; simp

@[simp] theorem bridgeRoute_getD_kept (K : Keep) (resp : Bool) (f : BridgeFrame) (s : State) :
    Kept K ((bridgeRoute resp f s).getD s) ↔ Kept K s := by
  cases h : bridgeRoute resp f s with
  | none => simp
  | some t => simpa using bridgeRoute_kept K resp f s t h

@[simp] theorem newOutbound_kept (K : Keep) (op : Nat) (src : Iface) (w : Fin 8) (off len : Nat) (data : List Byte) (s : State) :
    Kept K ((newOutbound op src w off len data s).2) ↔ Kept K s := by
  unfold newOutbound; simp

theorem sendOutbound_kept (K : Keep) (o : Outbound) (s : State) (x : Outbound × State) (h : sendOutbound o s = some x) :
    Kept K x.2 ↔ Kept K s := by
  simp only [sendOutbound, Option.map_eq_some_iff] at h
  obtain ⟨t, ht, rfl⟩ := h
  exact bridgeRoute_kept K _ _ s t ht

@[simp] theorem readDone_kept (K : Keep) (o : Outbound) (data : List Byte) (s : State) :
    Kept K (readDone o data s) ↔ Kept K s := by
  unfold readDone; (repeat' split) <;> simp

@[simp] theorem failOutbound_kept (K : Keep) (code : Nat) (o : Outbound) (s : State) :
    Kept K (failOutbound code o s) ↔ Kept K s := by
  unfold failOutbound; simp

@[simp] theorem sendPosted_kept (K : Keep) (n w : Nat) (s : State) : Kept K (sendPosted n w s) ↔ Kept K s := by
  induction n generalizing s with
  | zero => simp [sendPosted]
  | succ n ih =>
    unfold sendPosted; (repeat' split) <;> simp [ih]
    rename_i h; simpa using sendOutbound_kept K _ _ _ h

@[simp] theorem sendAllPosted_kept (K : Keep) (s : State) : Kept K (sendAllPosted s) ↔ Kept K s := by
  unfold sendAllPosted; simp

@[simp] theorem bridgeAnswer_kept (K : Keep) (status : Nat) (data : List Byte) (r : BridgeFrame) (s : State) :
    Kept K (bridgeAnswer status data r s) ↔ Kept K s := by
  unfold bridgeAnswer; simp

@[simp] theorem bridgeServe_kept (K : Keep) (bad : Bool) (r : BridgeFrame) (s : State) :
    Kept K (bridgeServe bad r s) ↔ Kept K s := by
  unfold bridgeServe; simp

@[simp] theorem startOutbound_kept (K : Keep) (o : Outbound) (s : State) : Kept K (startOutbound o s) ↔ Kept K s := by
  unfold startOutbound; split
  · rename_i h; simpa using sendOutbound_kept K _ _ _ h
  · simp

@[simp] theorem bridgePump_kept (K : Keep) (n : Nat) (s : State) : Kept K (bridgePump n s) ↔ Kept K s := by
  induction n generalizing s with
  | zero => simp [bridgePump]
  | succ n ih => unfold bridgePump; (repeat' split) <;> simp [ih]

@[simp] theorem bridgeRun_kept (K : Keep) (s : State) : Kept K (bridgeRun s) ↔ Kept K s := by
  unfold bridgeRun; simp

@[simp] theorem enqueueOutbound_kept (K : Keep) (o : Outbound) (s : State) :
    Kept K (enqueueOutbound o s) ↔ Kept K s := by
  unfold enqueueOutbound; simp

@[simp] theorem yieldCrossing_kept (K : Keep) (bad : Bool) (o : Outbound) (r : BridgeFrame) (s : State) :
    Kept K (yieldCrossing bad o r s) ↔ Kept K s := by
  unfold yieldCrossing; simp

@[simp] theorem withdrawIn_kept (K : Keep) (r : BridgeFrame) (s : State) : Kept K (withdrawIn r s) ↔ Kept K s := by
  unfold withdrawIn; simp

@[simp] theorem requestIn_kept (K : Keep) (bad : Bool) (r : BridgeFrame) (s : State) :
    Kept K (requestIn bad r s) ↔ Kept K s := by
  unfold requestIn; (repeat' split) <;> simp

@[simp] theorem semOperation_kept (K : Keep) (op : Nat) (w : Fin 8) (s : State) :
    Kept K (semOperation op w s) ↔ Kept K s := by
  unfold semOperation; simp

@[simp] theorem lockAcquired_kept (K : Keep) (w : Option (Fin 8)) (s : State) :
    Kept K (lockAcquired w s) ↔ Kept K s := by
  unfold lockAcquired; (repeat' split) <;> simp

@[simp] theorem lockEnd_kept (K : Keep) (s : State) : Kept K (lockEnd s) ↔ Kept K s := by
  unfold lockEnd; (repeat' split) <;> simp

@[simp] theorem responseOut_kept (K : Keep) (o : Outbound) (r : BridgeFrame) (s : State) :
    Kept K (responseOut o r s) ↔ Kept K s := by
  unfold responseOut; simp

@[simp] theorem responsePosted_kept (K : Keep) (o : Outbound) (r : BridgeFrame) (s : State) :
    Kept K (responsePosted o r s) ↔ Kept K s := by
  unfold responsePosted; simp

@[simp] theorem responseIn_kept (K : Keep) (r : BridgeFrame) (s : State) : Kept K (responseIn r s) ↔ Kept K s := by
  unfold responseIn; (repeat' split) <;> simp

@[simp] theorem bridgePass_kept (K : Keep) (p : Option (Fin 4)) (resp : Bool) (r : BridgeFrame) (s : State) :
    Kept K (bridgePass p resp r s) ↔ Kept K s := by
  unfold bridgePass; (repeat' split) <;> simp_all

@[simp] theorem bridgeOther_kept (K : Keep) (p : Option (Fin 4)) (resp : Bool) (r : BridgeFrame) (s : State) :
    Kept K (bridgeOther p resp r s) ↔ Kept K s := by
  unfold bridgeOther; (repeat' split) <;> simp_all

@[simp] theorem bridgeFrameIn_kept (K : Keep) (p : Option (Fin 4)) (resp bad : Bool) (r : BridgeFrame) (s : State) :
    Kept K (bridgeFrameIn p resp bad r s) ↔ Kept K s := by
  unfold bridgeFrameIn; (repeat' split) <;> simp_all

@[simp] theorem bridgeRx_kept (K : Keep) (p : Option (Fin 4)) (resp bad : Bool) (r : BridgeFrame) (s : State) :
    Kept K (bridgeRx p resp bad r s) ↔ Kept K s := by
  unfold bridgeRx; simp

@[simp] theorem resendOutbound_kept (K : Keep) (o : Outbound) (put : Outbound → State → State) (drop : State → State) (s : State)
    (hp : ∀ o s, Kept K (put o s) ↔ Kept K s) (hd : ∀ s, Kept K (drop s) ↔ Kept K s) :
    Kept K (resendOutbound o put drop s) ↔ Kept K s := by
  unfold resendOutbound; (repeat' split) <;> simp [hp, hd]
  rename_i h; simpa using sendOutbound_kept K _ _ _ h

@[simp] theorem putOut_kept (K : Keep) (o : Outbound) (s : State) : Kept K (putOut o s) ↔ Kept K s := by
  unfold putOut; simp

@[simp] theorem dropOut_kept (K : Keep) (s : State) : Kept K (dropOut s) ↔ Kept K s := by
  unfold dropOut; simp

@[simp] theorem putPosted_kept (K : Keep) (old new : Outbound) (s : State) :
    Kept K (putPosted old new s) ↔ Kept K s := by
  unfold putPosted; simp

@[simp] theorem dropPosted_kept (K : Keep) (o : Outbound) (s : State) : Kept K (dropPosted o s) ↔ Kept K s := by
  unfold dropPosted; simp

@[simp] theorem retryTimer_kept (K : Keep) (tag : BitVec 16) (s : State) : Kept K (retryTimer tag s) ↔ Kept K s := by
  unfold retryTimer; dsimp only; (repeat' split) <;> simp

@[simp] theorem reqTimeout_kept (K : Keep) (tag : BitVec 16) (s : State) : Kept K (reqTimeout tag s) ↔ Kept K s := by
  unfold reqTimeout; dsimp only; (repeat' split) <;> simp

@[simp] theorem fetchStale_kept (K : Keep) (s : State) : Kept K (fetchStale s) ↔ Kept K s := by
  unfold fetchStale; (repeat' split) <;> simp

@[simp] theorem askAgain_kept (K : Keep) (o : Outbound) (put : Outbound → State → State) (s : State)
    (hp : ∀ o s, Kept K (put o s) ↔ Kept K s) : Kept K (askAgain o put s) ↔ Kept K s := by
  unfold askAgain; dsimp only; (repeat' split) <;> simp [hp]
  rename_i h; simpa using sendOutbound_kept K _ _ _ h

@[simp] theorem busyRetry_kept (K : Keep) (s : State) : Kept K (busyRetry s) ↔ Kept K s := by
  unfold busyRetry; (repeat' split) <;> simp

@[simp] theorem semTimeout_kept (K : Keep) (k : Nat) (s : State) : Kept K (semTimeout k s) ↔ Kept K s := by
  unfold semTimeout; (repeat' split) <;> simp

@[simp] theorem startRead_kept (K : Keep) (src : Iface) (w : Fin 8) (off len : Nat) (s : State) :
    Kept K (startRead src w off len s) ↔ Kept K s := by
  unfold startRead; simp

@[simp] theorem splitReads_kept (K : Keep) (n : Nat) (w : Fin 8) (off len : Nat) (s : State) :
    Kept K (splitReads n w off len s) ↔ Kept K s := by
  induction n generalizing off len s with
  | zero => simp [splitReads]
  | succ n ih => unfold splitReads; split <;> simp [ih]

@[simp] theorem lbRemoteRead_kept (K : Keep) (be : BitVec 2) (high : Option (Nat × BitVec 16)) (w : Fin 8) (off : Nat)
    (s : State) :
    Kept K (lbRemoteRead be high w off s) ↔ Kept K s := by
  unfold lbRemoteRead; (repeat' split) <;> simp

@[simp] theorem postWrite_kept (K : Keep) (src : Iface) (w : Fin 8) (off : Nat) (data : List Byte) (s : State) :
    Kept K (postWrite src w off data s) ↔ Kept K s := by
  unfold postWrite; simp

@[simp] theorem lbLocked_kept (K : Keep) (lock : Bool) (w : Fin 8) (f : State → State) (s : State) (hf : ∀ y0, Kept K (f y0) ↔ Kept K y0) :
    Kept K (lbLocked lock w f s) ↔ Kept K s := by
  unfold lbLocked; (repeat' split) <;> simp_all

@[simp] theorem lbWindowRead_kept (K : Keep) (lock : Bool) (w : Fin 8) (off : Nat) (s : State) :
    Kept K (lbWindowRead lock w off s) ↔ Kept K s := by
  unfold lbWindowRead; simp

@[simp] theorem windowRead_kept (K : Keep) (src : Iface) (w : Fin 8) (off len : Nat) (s : State) :
    Kept K (windowRead src w off len s) ↔ Kept K s := by
  unfold windowRead; (repeat' split) <;> simp

@[simp] theorem windowWrite_kept (K : Keep) (src : Iface) (w : Fin 8) (off : Nat) (data : List Byte) (s : State) :
    Kept K (windowWrite src w off data s) ↔ Kept K s := by
  unfold windowWrite; (repeat' split) <;> simp

@[simp] theorem switchOne_kept (K : Keep) (old : Option Directory) (put : Outbound → State → State) (drop : State → State) (o : Outbound)
    (s : State) (hp : ∀ o s, Kept K (put o s) ↔ Kept K s) (hd : ∀ s, Kept K (drop s) ↔ Kept K s) :
    Kept K (switchOne old put drop o s) ↔ Kept K s := by
  unfold switchOne; (repeat' split) <;> simp [hp, hd]
  rename_i h; simpa using sendOutbound_kept K _ _ _ h

@[simp] theorem bridgeSwitch_kept (K : Keep) (old : Option Directory) (s : State) :
    Kept K (bridgeSwitch old s) ↔ Kept K s := by
  unfold bridgeSwitch; dsimp only
  rw [bridgeRun_kept, forEach_kept, forEach_kept, forEach_kept]
  · split <;> simp
  · intro x s; simp
  · intro x s; simp
  · intro x s; (repeat' split) <;> simp

@[simp] theorem bridgeNodeReset_kept (K : Keep) (s : State) : Kept K (bridgeNodeReset s) ↔ Kept K s := by
  unfold bridgeNodeReset; simp

@[simp] theorem vecPendWrite_kept (K : Keep) (v : BitVec 32) (s : State) : Kept K (vecPendWrite v s) ↔ Kept K s := by
  unfold vecPendWrite; simp

@[simp] theorem bar4Read_kept (K : Keep) (i : Iface) (off : Nat) (s : State) :
    Kept K ((bar4Read i off s).2) ↔ Kept K s := by
  unfold bar4Read; simp

@[simp] theorem bar4Write_kept (K : Keep) (i : Iface) (off v : Nat) (s : State) :
    Kept K (bar4Write i off v s) ↔ Kept K s := by
  unfold bar4Write; simp

@[simp] theorem barAccess_kept (K : Keep) (dt : Nat) (src : Iface) (len : Nat) (w : Option (List Byte)) (f : State → State) (s : State) (hf : ∀ y0, Kept K (f y0) ↔ Kept K y0) :
    Kept K (barAccess dt src len w f s) ↔ Kept K s := by
  unfold barAccess; (repeat' split) <;> simp_all

theorem execBridgeRequestRx_kept (K : Keep) (dt : Nat) (p : Option (Fin 4)) (r : BridgeFrame) (bad : Bool) (s : State) :
    ∃ u, execBridgeRequestRx dt p r bad s = .next u ∧ (Kept K u ↔ Kept K s) := by
  unfold execBridgeRequestRx; exact ⟨_, rfl, by simp⟩

theorem execBridgeResponseRx_kept (K : Keep) (dt : Nat) (p : Option (Fin 4)) (r : BridgeFrame) (s : State) :
    ∃ u, execBridgeResponseRx dt p r s = .next u ∧ (Kept K u ↔ Kept K s) := by
  unfold execBridgeResponseRx; exact ⟨_, rfl, by simp⟩

theorem execBridgeWithdrawRx_kept (K : Keep) (dt : Nat) (p : Option (Fin 4)) (r : BridgeFrame) (s : State) :
    ∃ u, execBridgeWithdrawRx dt p r s = .next u ∧ (Kept K u ↔ Kept K s) := by
  unfold execBridgeWithdrawRx; exact ⟨_, rfl, by simp⟩

theorem execBridgeRetryTimer_kept (K : Keep) (dt : Nat) (tag : BitVec 16) (s : State) :
    ∃ u, execBridgeRetryTimer dt tag s = .next u ∧ (Kept K u ↔ Kept K s) := by
  unfold execBridgeRetryTimer; exact ⟨_, rfl, by simp⟩

theorem execBridgeReqTimeout_kept (K : Keep) (dt : Nat) (tag : BitVec 16) (s : State) :
    ∃ u, execBridgeReqTimeout dt tag s = .next u ∧ (Kept K u ↔ Kept K s) := by
  unfold execBridgeReqTimeout; exact ⟨_, rfl, by simp⟩

theorem execBridgeFetchStale_kept (K : Keep) (dt : Nat) (s : State) :
    ∃ u, execBridgeFetchStale dt s = .next u ∧ (Kept K u ↔ Kept K s) := by
  unfold execBridgeFetchStale; exact ⟨_, rfl, by simp⟩

theorem execBridgeBusyRetry_kept (K : Keep) (dt : Nat) (s : State) :
    ∃ u, execBridgeBusyRetry dt s = .next u ∧ (Kept K u ↔ Kept K s) := by
  unfold execBridgeBusyRetry; exact ⟨_, rfl, by simp⟩

theorem execRemoteWindowRead_kept (K : Keep) (dt : Nat) (src : Iface) (w : Fin 8) (off : Nat) (len : Nat) (s : State) :
    ∃ u, execRemoteWindowRead dt src w off len s = .next u ∧ (Kept K u ↔ Kept K s) := by
  unfold execRemoteWindowRead; exact ⟨_, rfl, by simp⟩

theorem execRemoteWindowWrite_kept (K : Keep) (dt : Nat) (src : Iface) (w : Fin 8) (off : Nat) (data : List Byte) (s : State) :
    ∃ u, execRemoteWindowWrite dt src w off data s = .next u ∧ (Kept K u ↔ Kept K s) := by
  unfold execRemoteWindowWrite; exact ⟨_, rfl, by simp⟩

theorem execLockedSequenceStart_kept (K : Keep) (dt : Nat) (w : Fin 8) (off : Nat) (s : State) :
    ∃ u, execLockedSequenceStart dt w off s = .next u ∧ (Kept K u ↔ Kept K s) := by
  unfold execLockedSequenceStart; exact ⟨_, rfl, by simp⟩

theorem execLockedSequenceEnd_kept (K : Keep) (dt : Nat) (s : State) :
    ∃ u, execLockedSequenceEnd dt s = .next u ∧ (Kept K u ↔ Kept K s) := by
  unfold execLockedSequenceEnd; exact ⟨_, rfl, by simp⟩

theorem execFabSemRead_kept (K : Keep) (dt : Nat) (src : Iface) (k : Fin 32) (s : State) :
    ∃ u, execFabSemRead dt src k s = .next u ∧ (Kept K u ↔ Kept K s) := by
  unfold execFabSemRead; exact ⟨_, rfl, by simp⟩

theorem execFabSemWrite_kept (K : Keep) (dt : Nat) (src : Iface) (k : Fin 32) (value : BitVec 32) (s : State) :
    ∃ u, execFabSemWrite dt src k value s = .next u ∧ (Kept K u ↔ Kept K s) := by
  unfold execFabSemWrite; exact ⟨_, rfl, by simp⟩

theorem execSemTmoExpiry_kept (K : Keep) (dt : Nat) (k : Fin 32) (s : State) :
    ∃ u, execSemTmoExpiry dt k s = .next u ∧ (Kept K u ↔ Kept K s) := by
  unfold execSemTmoExpiry; exact ⟨_, rfl, by simp⟩

theorem execFabVecPendWrite_kept (K : Keep) (dt : Nat) (src : Iface) (value : BitVec 32) (s : State) :
    ∃ u, execFabVecPendWrite dt src value s = .next u ∧ (Kept K u ↔ Kept K s) := by
  unfold execFabVecPendWrite; exact ⟨_, rfl, by simp⟩

@[simp] theorem bar4Span_kept (K : Keep) (i : Iface) (off n : Nat) (s : State) :
    Kept K ((bar4Span i off n s).2) ↔ Kept K s := by
  unfold bar4Span; simp

@[simp] theorem spaceRead_kept (K : Keep) (i : Iface) (a n : Nat) (s : State) :
    Kept K ((spaceRead i a n s).2) ↔ Kept K s := by
  unfold spaceRead; simp

@[simp] theorem spaceWrite_kept (K : Keep) (i : Iface) (a : Nat) (data : List Byte) (s : State) :
    Kept K (spaceWrite i a data s) ↔ Kept K s := by
  unfold spaceWrite; simp

@[simp] theorem spaceAccess_kept (K : Keep) (dt : Nat) (src : Iface) (a len : Nat) (w : Option (List Byte)) (f : State → State) (s : State) (hf : ∀ y0, Kept K (f y0) ↔ Kept K y0) :
    Kept K (spaceAccess dt src a len w f s) ↔ Kept K s := by
  unfold spaceAccess; (repeat' split) <;> simp_all

@[simp] theorem registerRead_kept (K : Keep) (dt : Nat) (src : Iface) (a : Nat) (s : State) :
    Kept K (registerRead dt src a s) ↔ Kept K s := by
  unfold registerRead; simp

theorem execMultiRegisterLatchRead_kept (K : Keep) (dt : Nat) (src : Iface) (addr : Nat) (s : State) :
    ∃ u, execMultiRegisterLatchRead dt src addr s = .next u ∧ (Kept K u ↔ Kept K s) := by
  unfold execMultiRegisterLatchRead; exact ⟨_, rfl, by simp⟩

theorem execRcFieldRead_kept (K : Keep) (dt : Nat) (src : Iface) (addr : Nat) (s : State) :
    ∃ u, execRcFieldRead dt src addr s = .next u ∧ (Kept K u ↔ Kept K s) := by
  unfold execRcFieldRead; exact ⟨_, rfl, by simp⟩

theorem execRegisterWrite_kept (K : Keep) (dt : Nat) (src : Iface) (addr : Nat) (value : BitVec 32) (s : State) :
    ∃ u, execRegisterWrite dt src addr value s = .next u ∧ (Kept K u ↔ Kept K s) := by
  unfold execRegisterWrite; exact ⟨_, rfl, by (repeat' split) <;> simp⟩

@[simp] theorem bar4Reads_kept (K : Keep) (i : Iface) (n a : Nat) (s : State) :
    Kept K (bar4Reads i n a s).2 ↔ Kept K s := by
  induction n generalizing a s with
  | zero => simp [bar4Reads]
  | succ n ih => unfold bar4Reads; simp [ih]

@[simp] theorem bar4Writes_kept (K : Keep) (i : Iface) (n a : Nat) (d : List Byte) (s : State) :
    Kept K (bar4Writes i n a d s) ↔ Kept K s := by
  induction n generalizing a d s with
  | zero => simp [bar4Writes]
  | succ n ih => unfold bar4Writes; simp [ih]

@[simp] theorem pcieRead_kept (K : Keep) (a len : Nat) (s : State) : Kept K (pcieRead a len s) ↔ Kept K s := by
  unfold pcieRead; simp

@[simp] theorem pcieWrite_kept (K : Keep) (a : Nat) (d : List Byte) (s : State) :
    Kept K (pcieWrite a d s) ↔ Kept K s := by
  unfold pcieWrite; simp

theorem execPcieMultiDwordRequest_kept (K : Keep) (dt : Nat) (addr : Nat) (len : Nat) (wdata : Option (List Byte)) (s : State) :
    ∃ u, execPcieMultiDwordRequest dt addr len wdata s = .next u ∧ (Kept K u ↔ Kept K s) := by
  unfold execPcieMultiDwordRequest; exact ⟨_, rfl, by (repeat' split) <;> simp⟩

@[simp] theorem oddAccess_kept (K : Keep) (dt : Nat) (src : Iface) (addr width : Nat) (wdata : Option (List Byte))
    (s : State) :
    Kept K (oddAccess dt src addr width wdata s) ↔ Kept K s := by
  unfold oddAccess; (repeat' split) <;> simp

theorem execUnalignedAccess_kept (K : Keep) (dt : Nat) (src : Iface) (addr : Nat) (width : Nat) (wdata : Option (List Byte)) (s : State) :
    ∃ u, execUnalignedAccess dt src addr width wdata s = .next u ∧ (Kept K u ↔ Kept K s) := by
  unfold execUnalignedAccess; exact ⟨_, rfl, by (repeat' split) <;> simp⟩

theorem execUnmappedAccess_kept (K : Keep) (dt : Nat) (src : Iface) (addr : Nat) (width : Nat) (wdata : Option (List Byte)) (s : State) :
    ∃ u, execUnmappedAccess dt src addr width wdata s = .next u ∧ (Kept K u ↔ Kept K s) := by
  unfold execUnmappedAccess; exact ⟨_, rfl, by (repeat' split) <;> simp⟩

@[simp] theorem spiReads_kept (K : Keep) (n a : Nat) (s : State) : Kept K (spiReads n a s).2 ↔ Kept K s := by
  induction n generalizing a s with
  | zero => simp [spiReads]
  | succ n ih => unfold spiReads; dsimp only; split <;> simp [ih]

@[simp] theorem spiWrites_kept (K : Keep) (n a : Nat) (d : List Byte) (s : State) :
    Kept K (spiWrites n a d s) ↔ Kept K s := by
  induction n generalizing a d s with
  | zero => simp [spiWrites]
  | succ n ih => unfold spiWrites; split <;> simp [ih]

theorem execSpiTransfer_kept (K : Keep) (dt : Nat) (addr : Nat) (words : Nat) (wdata : Option (List Byte)) (s : State) :
    ∃ u, execSpiTransfer dt addr words wdata s = .next u ∧ (Kept K u ↔ Kept K s) := by
  unfold execSpiTransfer; exact ⟨_, rfl, by (repeat' split) <;> simp⟩

@[simp] theorem lbReady_kept (K : Keep) (v : BitVec 16) (s : State) : Kept K (lbReady v s) ↔ Kept K s := by
  unfold lbReady; simp

@[simp] theorem lbRegRead_kept (K : Keep) (a : Nat) (s : State) : Kept K ((lbRegRead a s).2) ↔ Kept K s := by
  unfold lbRegRead; simp

@[simp] theorem lbRegWrite_kept (K : Keep) (a v : Nat) (s : State) : Kept K (lbRegWrite a v s) ↔ Kept K s := by
  unfold lbRegWrite; simp

@[simp] theorem lbHalfRead_kept (K : Keep) (a : Nat) (be : BitVec 2) (high : Option (Nat × BitVec 16)) (s : State) :
    Kept K (lbHalfRead a be high s) ↔ Kept K s := by
  unfold lbHalfRead; (repeat' split) <;> simp

@[simp] theorem lbHalfWrite_kept (K : Keep) (a : Nat) (be : BitVec 2) (d : BitVec 16) (f : Nat → State → State) (s : State) (hf : ∀ y0 y1, Kept K (f y0 y1) ↔ Kept K y1) :
    Kept K (lbHalfWrite a be d f s) ↔ Kept K s := by
  unfold lbHalfWrite; (repeat' split) <;> simp_all

@[simp] theorem lbWindowWrite_kept (K : Keep) (w : Fin 8) (off a : Nat) (be : BitVec 2) (d : BitVec 16) (s : State) :
    Kept K (lbWindowWrite w off a be d s) ↔ Kept K s := by
  unfold lbWindowWrite; simp

@[simp] theorem lbAccess_kept (K : Keep) (x : LbAccess) (s : State) : Kept K (lbAccess x s) ↔ Kept K s := by
  unfold lbAccess; dsimp only; (repeat' split) <;> simp

@[simp] theorem lbAbandoned_kept (K : Keep) (x : LbAccess) (s : State) : Kept K (lbAbandoned x s) ↔ Kept K s := by
  unfold lbAbandoned; simp

theorem execLocalBusAccess_kept (K : Keep) (dt : Nat) (a : LbAccess) (s : State) :
    ∃ u, execLocalBusAccess dt a s = .next u ∧ (Kept K u ↔ Kept K s) := by
  unfold execLocalBusAccess; exact ⟨_, rfl, by (repeat' split) <;> simp⟩

@[simp] theorem blockRead_kept (K : Keep) (l : Fin 4) (core a n : Nat) (s : State) :
    Kept K (blockRead l core a n s) ↔ Kept K s := by
  unfold blockRead; dsimp only; (repeat' split) <;> simp_all

@[simp] theorem memoryRead_kept (K : Keep) (l : Fin 4) (core a n : Nat) (s : State) :
    Kept K (memoryRead l core a n s) ↔ Kept K s := by
  unfold memoryRead; (repeat' split) <;> simp_all

@[simp] theorem passOn_kept (K : Keep) (l : Fin 4) (core : Nat) (k : HeldKind) (a n : Nat) (d : Option (List Byte))
    (s : State) :
    Kept K (passOn l core k a n d s) ↔ Kept K s := by
  unfold passOn; (repeat' split) <;> simp_all

@[simp] theorem releaseHeld_kept (K : Keep) (l : Fin 4) (x : HeldAccess) (s : State) :
    Kept K (releaseHeld l x s) ↔ Kept K s := by
  unfold releaseHeld; (repeat' split) <;> simp

@[simp] theorem verdict_kept (K : Keep) (l : Fin 4) (w : BitVec 64) (clean : Bool) (s : State) :
    Kept K (verdict l w clean s) ↔ Kept K s := by
  unfold verdict; simp

@[simp] theorem splitTxn_kept (K : Keep) (l : Fin 4) (core : Nat) (x : CoreTxn) (s : State) :
    Kept K (splitTxn l core x s) ↔ Kept K s := by
  unfold splitTxn; dsimp only; (repeat' split) <;> simp_all

@[simp] theorem splitCycle_kept (K : Keep) (l : Fin 4) (core : Fin 2) (c : PairCycle) (s : State) :
    Kept K (splitCycle l core c s) ↔ Kept K s := by
  unfold splitCycle; dsimp only; (repeat' split) <;> simp_all

@[simp] theorem pairStep_kept (K : Keep) (l : Fin 4) (c : PairCycle) (s : State) :
    Kept K (pairStep l c s) ↔ Kept K s := by
  unfold pairStep; dsimp only; (repeat' split) <;> simp

@[simp] theorem pairRun_kept (K : Keep) (l : Fin 4) (cs : List PairCycle) (s : State) :
    Kept K (pairRun l cs s) ↔ Kept K s := by
  unfold pairRun; simp

theorem execBurinVerdict_kept (K : Keep) (dt : Nat) (l : Fin 4) (cycles : List PairCycle) (s : State) :
    ∃ u, execBurinVerdict dt l cycles s = .next u ∧ (Kept K u ↔ Kept K s) := by
  unfold execBurinVerdict; exact ⟨_, rfl, by simp⟩

@[simp] theorem fabJoinIn_kept (K : Keep) (j : JoinBody) (s : State) : Kept K (fabJoinIn j s) ↔ Kept K s := by
  unfold fabJoinIn; simp

@[simp] theorem fabLeadIn_kept (K : Keep) (vid : BitVec 48) (s : State) : Kept K (fabLeadIn vid s) ↔ Kept K s := by
  unfold fabLeadIn; simp

@[simp] theorem fabDeliver_kept (K : Keep) (f : FabricFrame) (s : State) : Kept K (fabDeliver f s) ↔ Kept K s := by
  unfold fabDeliver; (repeat' split) <;> simp

@[simp] theorem fabFrameIn_kept (K : Keep) (k : Nat) (f : FabricFrame) (s : State) :
    Kept K (fabFrameIn k f s) ↔ Kept K s := by
  unfold fabFrameIn; simp

theorem execFabricFrameRx_kept (K : Keep) (dt : Nat) (k : Fin 4) (f : FabricFrame) (s : State) :
    ∃ u, execFabricFrameRx dt k f s = .next u ∧ (Kept K u ↔ Kept K s) := by
  unfold execFabricFrameRx; exact ⟨_, rfl, by simp⟩

@[simp] theorem refreshSummaries_kept (K : Keep) (s : State) : Kept K (refreshSummaries s) ↔ Kept K s := by
  unfold refreshSummaries; simp

end Sys2Proof.Machine
end

