-- ==== Sys2Proof/Laws/KeptLife.lean ====
section
/-! SUPPORT. The start sequence, scheduled sending, the registration instant and every command keep what `Kept` names. -/

namespace Sys2Proof.Machine

@[simp] theorem powerOff_kept (K : Keep) (dev : DevSt) (s : State) : Kept K (powerOff dev s) ↔ Kept K s := by
  unfold powerOff; simp

@[simp] theorem startPorts_kept (K : Keep) (s : State) : Kept K (startPorts s) ↔ Kept K s := by
  unfold startPorts; simp

@[simp] theorem bypassedEvents_kept (K : Keep) (s : State) : Kept K (bypassedEvents s) ↔ Kept K s := by
  unfold bypassedEvents; refine forEach_kept _ _ _ _ fun p s => ?_
  split <;> simp

@[simp] theorem beginStart_kept (K : Keep) (cause : Byte) (s : State) : Kept K (beginStart cause s) ↔ Kept K s := by
  unfold beginStart; simp

@[simp] theorem tapReset_kept (K : Keep) (s : State) : Kept K (tapReset s) ↔ Kept K s := by
  unfold tapReset; simp

@[simp] theorem powerGood_kept (K : Keep) (p : PowerGoodIn) (s : State) : Kept K (powerGood p s) ↔ Kept K s := by
  unfold powerGood; simp

theorem execPowerGood_kept (K : Keep) (dt : Nat) (p : PowerGoodIn) (s : State) :
    ∃ u, execPowerGood dt p s = .next u ∧ (Kept K u ↔ Kept K s) := by
  unfold execPowerGood; exact ⟨_, rfl, by simp⟩

@[simp] theorem stagedAtStart_kept (K : Keep) (s : State) : Kept K ((stagedAtStart s).2) ↔ Kept K s := by
  unfold stagedAtStart; (repeat' split) <;> simp

@[simp] theorem runningAtStart_kept (K : Keep) (s : State) : Kept K ((runningAtStart s).2) ↔ Kept K s := by
  unfold runningAtStart; (repeat' split) <;> simp

@[simp] theorem patchCheck_kept (K : Keep) (s : State) : Kept K ((patchCheck s).2) ↔ Kept K s := by
  unfold patchCheck; simp

@[simp] theorem startEvents_kept (K : Keep) (discarded : Option Nat) (s : State) :
    Kept K (startEvents discarded s) ↔ Kept K s := by
  unfold startEvents; (repeat' split) <;> simp

@[simp] theorem endStep2_kept (K : Keep) (s : State) : Kept K (endStep2 s) ↔ Kept K s := by
  unfold endStep2; simp

@[simp] theorem startConfig_kept (K : Keep) (a cause : Nat) (s : State) :
    Kept K (startConfig a cause s) ↔ Kept K s := by
  unfold startConfig; simp

@[simp] theorem putAside_kept (K : Keep) (a : Nat) (s : State) : Kept K (putAside a s) ↔ Kept K s := by
  unfold putAside; simp

@[simp] theorem useIdentity_kept (K : Keep) (k : KeptIdentity) (s : State) : Kept K (useIdentity k s) ↔ Kept K s := by
  unfold useIdentity; simp

@[simp] theorem usePolicy_kept (K : Keep) (l : List Nat) (s : State) : Kept K (usePolicy l s) ↔ Kept K s := by
  unfold usePolicy; simp

@[simp] theorem useTwin_kept (K : Keep) (k : KeptTwin) (s : State) : Kept K (useTwin k s) ↔ Kept K s := by
  unfold useTwin; simp

@[simp] theorem useFab_kept (K : Keep) (k : KeptFab) (s : State) : Kept K (useFab k s) ↔ Kept K s := by
  unfold useFab; simp

@[simp] theorem useSched_kept (K : Keep) (k : KeptSched) (s : State) : Kept K (useSched k s) ↔ Kept K s := by
  unfold useSched; simp

@[simp] theorem usePtp_kept (K : Keep) (k : KeptPtp) (s : State) : Kept K (usePtp k s) ↔ Kept K s := by
  unfold usePtp; simp

@[simp] theorem areaDefault_kept (K : Keep) (a : Nat) (s : State) : Kept K (areaDefault a s) ↔ Kept K s := by
  unfold areaDefault; simp

@[simp] theorem loadFlows_kept (K : Keep) (s : State) : Kept K (loadFlows s) ↔ Kept K s := by
  unfold loadFlows; simp

@[simp] theorem loadPairs_kept (K : Keep) (s : State) : Kept K (loadPairs s) ↔ Kept K s := by
  unfold loadPairs; simp

@[simp] theorem loadPolicy_kept (K : Keep) (s : State) : Kept K (loadPolicy s) ↔ Kept K s := by
  unfold loadPolicy; simp

@[simp] theorem areaLoad_kept (K : Keep) (a : Nat) (s : State) : Kept K (areaLoad a s) ↔ Kept K s := by
  unfold areaLoad; dsimp only
  refine kept_if ?_ (kept_if ?_ (kept_if ?_ (kept_if ?_ (kept_if ?_ (kept_if ?_ (kept_if ?_ (kept_if ?_ (kept_if ?_ (kept_if ?_ (kept_if ?_ ?_))))))))))
  · split <;> simp
  · simp
  · split <;> simp
  · split <;> simp
  · split <;> simp
  · simp
  · split <;> simp
  · simp
  · simp
  · simp
  · simp
  · split <;> simp

@[simp] theorem startArea_kept (K : Keep) (corrupt : List Nat) (a : Nat) (s : State) :
    Kept K (startArea corrupt a s) ↔ Kept K s := by
  unfold startArea; simp

@[simp] theorem startPairs_kept (K : Keep) (s : State) : Kept K (startPairs s) ↔ Kept K s := by
  unfold startPairs; simp

@[simp] theorem startAttached_kept (K : Keep) (s : State) : Kept K (startAttached s) ↔ Kept K s := by
  unfold startAttached; simp

@[simp] theorem startLinks_kept (K : Keep) (s : State) : Kept K (startLinks s) ↔ Kept K s := by
  unfold startLinks; simp

@[simp] theorem startSteep_kept (K : Keep) (s : State) : Kept K (startSteep s) ↔ Kept K s := by
  unfold startSteep; dsimp only; (repeat' split) <;> simp

@[simp] theorem endStep6_kept (K : Keep) (corrupt : List Nat) (s : State) :
    Kept K (endStep6 corrupt s) ↔ Kept K s := by
  unfold endStep6; simp

@[simp] theorem startFailed_kept (K : Keep) (step : Nat) (s : State) : Kept K (startFailed step s) ↔ Kept K s := by
  unfold startFailed; simp

@[simp] theorem afterMemory_kept (K : Keep) (s : State) : Kept K (afterMemory s) ↔ Kept K s := by
  unfold afterMemory; simp

@[simp] theorem endStep3_kept (K : Keep) (logOk : Bool) (s : State) : Kept K (endStep3 logOk s) ↔ Kept K s := by
  unfold endStep3; simp

@[simp] theorem endStep4_kept (K : Keep) (s : State) : Kept K (endStep4 s) ↔ Kept K s := by
  unfold endStep4; simp

@[simp] theorem stepDone_kept (K : Keep) (r : StepResult) (s : State) : Kept K (stepDone r s) ↔ Kept K s := by
  unfold stepDone; simp

theorem execStartStepComplete_kept (K : Keep) (dt : Nat) (r : StepResult) (s : State) :
    ∃ u, execStartStepComplete dt r s = .next u ∧ (Kept K u ↔ Kept K s) := by
  unfold execStartStepComplete; exact ⟨_, rfl, by simp⟩

theorem execStartRetry_kept (K : Keep) (dt : Nat) (s : State) :
    ∃ u, execStartRetry dt s = .next u ∧ (Kept K u ↔ Kept K s) := by
  unfold execStartRetry; exact ⟨_, rfl, by simp⟩

@[simp] theorem perstLow_kept (K : Keep) (s : State) : Kept K (perstLow s) ↔ Kept K s := by
  unfold perstLow; simp

theorem execPerstAssert_kept (K : Keep) (dt : Nat) (s : State) :
    ∃ u, execPerstAssert dt s = .next u ∧ (Kept K u ↔ Kept K s) := by
  unfold execPerstAssert; exact ⟨_, rfl, by simp⟩

theorem execPerstRelease_kept (K : Keep) (dt : Nat) (s : State) :
    ∃ u, execPerstRelease dt s = .next u ∧ (Kept K u ↔ Kept K s) := by
  unfold execPerstRelease; exact ⟨_, rfl, by simp⟩

@[simp] theorem timeNodeReset_kept (K : Keep) (s : State) : Kept K (timeNodeReset s) ↔ Kept K s := by
  unfold timeNodeReset; (repeat' split) <;> simp

@[simp] theorem blocksReset_kept (K : Keep) (s : State) : Kept K (blocksReset s) ↔ Kept K s := by
  unfold blocksReset; simp [cmdNodeReset, pwrNodeReset]

@[simp] theorem debugKept_kept (K : Keep) (old : State) (s : State) : Kept K (debugKept old s) ↔ Kept K s := by
  unfold debugKept; (repeat' split) <;> simp_all

@[simp] theorem restart_kept (K : Keep) (cause : Byte) (s : State) : Kept K (restart cause s) ↔ Kept K s := by
  unfold restart; simp

theorem execSupervisorWatchdogExpiry_kept (K : Keep) (dt : Nat) (s : State) :
    ∃ u, execSupervisorWatchdogExpiry dt s = .next u ∧ (Kept K u ↔ Kept K s) := by
  unfold execSupervisorWatchdogExpiry; exact ⟨_, rfl, by simp⟩

theorem execSupervisorFatalFault_kept (K : Keep) (dt : Nat) (s : State) :
    ∃ u, execSupervisorFatalFault dt s = .next u ∧ (Kept K u ↔ Kept K s) := by
  unfold execSupervisorFatalFault; exact ⟨_, rfl, by simp⟩

theorem execConverterStop_kept (K : Keep) (dt : Nat) (vin : Nat) (s : State) :
    ∃ u, execConverterStop dt vin s = .next u ∧ (Kept K u ↔ Kept K s) := by
  unfold execConverterStop; exact ⟨_, rfl, by simp⟩

@[simp] theorem enterKiln_kept (K : Keep) (s : State) : Kept K (enterKiln s) ↔ Kept K s := by
  unfold enterKiln; simp

@[simp] theorem endsAtInstant_kept (K : Keep) (s : State) : Kept K (endsAtInstant s) ↔ Kept K s := by
  unfold endsAtInstant; simp

@[simp] theorem wakeBlocks_kept (K : Keep) (s : State) : Kept K (wakeBlocks s) ↔ Kept K s := by
  unfold wakeBlocks; simp

@[simp] theorem parkWake_kept (K : Keep) (s : State) : Kept K (parkWake s) ↔ Kept K s := by
  unfold parkWake; simp [passiveEnd]

theorem execParkWakeComplete_kept (K : Keep) (dt : Nat) (s : State) :
    ∃ u, execParkWakeComplete dt s = .next u ∧ (Kept K u ↔ Kept K s) := by
  unfold execParkWakeComplete; exact ⟨_, rfl, by simp⟩

theorem execJtagExtest_kept (K : Keep) (dt : Nat) (s : State) :
    ∃ u, execJtagExtest dt s = .next u ∧ (Kept K u ↔ Kept K s) := by
  unfold execJtagExtest; exact ⟨_, rfl, by simp⟩

@[simp] theorem gateSuppress_kept (K : Keep) (n : Nat) (s : State) : Kept K (gateSuppress n s) ↔ Kept K s := by
  unfold gateSuppress; simp

@[simp] theorem spanSuppress_kept (K : Keep) (im : Image) (b : Bool) (s : State) :
    Kept K (spanSuppress im b s) ↔ Kept K s := by
  unfold spanSuppress; simp

@[simp] theorem lineSends_kept (K : Keep) (im : Image) (n : Nat) (b : Bool) (s : State) :
    Kept K ((lineSends im n b s).2) ↔ Kept K s := by
  unfold lineSends; simp

@[simp] theorem sendingLines_kept (K : Keep) (im : Image) (n : Nat) (l : List Bool) (s : State) :
    Kept K (sendingLines im n l s).2 ↔ Kept K s := by
  induction l generalizing s with
  | nil => simp [sendingLines]
  | cons b bs ih => simp [sendingLines, ih]

@[simp] theorem sendLine_kept (K : Keep) (im : Image) (e : Entry) (b : Bool) (f : OutFrame) (len : Nat) (transit : List (Fin 4)) (s : State) :
    Kept K (sendLine im e b f len transit s) ↔ Kept K s := by
  unfold sendLine; simp

@[simp] theorem countSent_kept (K : Keep) (n : Nat) (s : State) : Kept K (countSent n s) ↔ Kept K s := by
  unfold countSent; simp

@[simp] theorem sendFlow_kept (K : Keep) (im : Image) (n : Nat) (e : Entry) (transit : List (Fin 4)) (i : Nat) (c : FlowCtx) (s : State) :
    Kept K (sendFlow im n e transit i c s) ↔ Kept K s := by
  unfold sendFlow; simp

@[simp] theorem sendHeartbeatEntry_kept (K : Keep) (im : Image) (n : Nat) (e : Entry) (transit : List (Fin 4)) (s : State) :
    Kept K (sendHeartbeatEntry im n e transit s) ↔ Kept K s := by
  unfold sendHeartbeatEntry; simp

@[simp] theorem sendProxy_kept (K : Keep) (im : Image) (n : Nat) (e : Entry) (transit : List (Fin 4)) (slot : Nat) (s : State) :
    Kept K (sendProxy im n e transit slot s) ↔ Kept K s := by
  unfold sendProxy; (repeat' split) <;> simp

@[simp] theorem proxyLeft_kept (K : Keep) (polled : List Nat) (s : State) :
    Kept K (proxyLeft polled s) ↔ Kept K s := by
  unfold proxyLeft; simp

@[simp] theorem scheduledSend_kept (K : Keep) (n : Nat) (transit : List (Fin 4)) (s : State) :
    Kept K (scheduledSend n transit s) ↔ Kept K s := by
  unfold scheduledSend; (repeat' split) <;> simp

theorem execScheduledSend_kept (K : Keep) (dt : Nat) (entry : Nat) (transit : List (Fin 4)) (s : State) :
    ∃ u, execScheduledSend dt entry transit s = .next u ∧ (Kept K u ↔ Kept K s) := by
  unfold execScheduledSend; exact ⟨_, rfl, by simp⟩

@[simp] theorem forwardFlow_kept (K : Keep) (p : Nat) (tPin : Int) (f : FlowFrame) (good : Bool) (s : State) :
    Kept K (forwardFlow p tPin f good s) ↔ Kept K s := by
  unfold forwardFlow; simp

@[simp] theorem flowOnTrunk_kept (K : Keep) (p : Nat) (tRx : Int) (f : FlowFrame) (fin : FrameEnd) (s : State) :
    Kept K (flowOnTrunk p tRx f fin s) ↔ Kept K s := by
  unfold flowOnTrunk; (repeat' split) <;> simp

theorem execFlowFrameRx_kept (K : Keep) (dt : Nat) (src : FlowArrival) (f : FlowFrame) (fin : FrameEnd) (s : State) :
    ∃ u, execFlowFrameRx dt src f fin s = .next u ∧ (Kept K u ↔ Kept K s) := by
  unfold execFlowFrameRx; exact ⟨_, rfl, by (repeat' split) <;> simp⟩

@[simp] theorem runTo_kept (K : Keep) (t : Nat) (s : State) : Kept K (runTo t s) ↔ Kept K s := by
  unfold runTo; simp

@[simp] theorem takeCycle_kept (K : Keep) (s : State) : Kept K (takeCycle s) ↔ Kept K s := by
  unfold takeCycle; simp

@[simp] theorem closeCycle_kept (K : Keep) (polled hb : List Nat) (s : State) :
    Kept K (closeCycle polled hb s) ↔ Kept K s := by
  unfold closeCycle; simp

@[simp] theorem reportIslands_kept (K : Keep) (before s : State) : Kept K (reportIslands before s) ↔ Kept K s := by
  unfold reportIslands; (repeat' split) <;> simp_all

@[simp] theorem backboneAtInstant_kept (K : Keep) (sw : State → State) (s : State) (hsw : ∀ y0, Kept K (sw y0) ↔ Kept K y0) :
    Kept K (backboneAtInstant sw s) ↔ Kept K s := by
  unfold backboneAtInstant; (repeat' split) <;> simp_all

@[simp] theorem openCycle_kept (K : Keep) (s : State) : Kept K (openCycle s) ↔ Kept K s := by
  unfold openCycle; simp

@[simp] theorem producedAtInstant_kept (K : Keep) (took effective : Bool) (s : State) :
    Kept K (producedAtInstant took effective s) ↔ Kept K s := by
  unfold producedAtInstant; simp

@[simp] theorem flowsAtInstant_kept (K : Keep) (s : State) : Kept K (flowsAtInstant s) ↔ Kept K s := by
  unfold flowsAtInstant; simp

@[simp] theorem cansAtInstant_kept (K : Keep) (sw effective : Bool) (s : State) :
    Kept K (cansAtInstant sw effective s) ↔ Kept K s := by
  unfold cansAtInstant; simp

@[simp] theorem mvbsAtInstant_kept (K : Keep) (s : State) : Kept K (mvbsAtInstant s) ↔ Kept K s := by
  unfold mvbsAtInstant; simp

@[simp] theorem gatesOpen_kept (K : Keep) (s : State) : Kept K (gatesOpen s) ↔ Kept K s := by
  unfold gatesOpen; simp

@[simp] theorem racksAtInstant_kept (K : Keep) (s : State) : Kept K (racksAtInstant s) ↔ Kept K s := by
  unfold racksAtInstant; simp

@[simp] theorem openingAtStart_kept (K : Keep) (s : State) : Kept K (openingAtStart s) ↔ Kept K s := by
  unfold openingAtStart; dsimp only; (repeat' split) <;>
    first | simp | (rw [modTrunk_kept _ _ _ (fun t => passiveEnd_ports_length t)]; simp) | rfl

@[simp] theorem upkeepAtInstant_kept (K : Keep) (s : State) : Kept K (upkeepAtInstant s) ↔ Kept K s := by
  unfold upkeepAtInstant; simp

@[simp] theorem serviceInstant_kept (K : Keep) (sw effective : Bool) (s : State) :
    Kept K (serviceInstant sw effective s) ↔ Kept K s := by
  unfold serviceInstant; simp

@[simp] theorem beforeRoles_kept (K : Keep) (polled hb : List Nat) (sw : State → State) (s : State)
    (hsw : ∀ y0, Kept K (sw y0) ↔ Kept K y0) :
    Kept K (beforeRoles polled hb sw s) ↔ Kept K s := by
  unfold beforeRoles; (repeat' split) <;> simp_all

@[simp] theorem afterRoles_kept (K : Keep) (sw took effective : Bool) (evs : List Event) (trig : Option (BitVec 16 ×
    BitVec 32)) (s : State) :
    Kept K (afterRoles sw took effective evs trig s) ↔ Kept K s := by
  unfold afterRoles; simp

@[simp] theorem instantBody_kept (K : Keep) (polled hb : List Nat) (sw : State → State) (s : State) (hsw : ∀ y0, Kept K (sw y0) ↔ Kept K y0) :
    Kept K (instantBody polled hb sw s) ↔ Kept K s := by
  unfold instantBody; (repeat' split) <;> simp_all

@[simp] theorem holdRemovals_kept (K : Keep) (s : State) : Kept K (holdRemovals s) ↔ Kept K s := by
  unfold holdRemovals; (repeat' split) <;> simp_all

@[simp] theorem yieldTo_kept (K : Keep) (p : Prepared) (t : Nat) (s : State) : Kept K (yieldTo p t s) ↔ Kept K s := by
  unfold yieldTo; simp

@[simp] theorem instant_kept (K : Keep) (s : State) : Kept K (instant s) ↔ Kept K s := by
  unfold instant; (repeat' split) <;> simp

theorem execRegistrationInstant_kept (K : Keep) (s : State) :
    ∃ u, execRegistrationInstant s = .next u ∧ (Kept K u ↔ Kept K s) := by
  unfold execRegistrationInstant; exact ⟨_, rfl, by simp⟩

theorem execNextOpenSet_kept (K : Keep) (dt : Nat) (s : State) :
    ∃ u, execNextOpenSet dt s = .next u ∧ (Kept K u ↔ Kept K s) := by
  unfold execNextOpenSet; exact ⟨_, rfl, by simp⟩

@[simp] theorem linkWrite_kept (K : Keep) (i off : Nat) (data : List Byte) (s : State) :
    Kept K (linkWrite i off data s) ↔ Kept K s := by
  unfold linkWrite; (repeat' split) <;> simp_all

@[simp] theorem linkedWrites_kept (K : Keep) (s : State) : Kept K (linkedWrites s) ↔ Kept K s := by
  unfold linkedWrites; simp

theorem execReleaseDeadline_kept (K : Keep) (dt : Nat) (s : State) :
    ∃ u, execReleaseDeadline dt s = .next u ∧ (Kept K u ↔ Kept K s) := by
  unfold execReleaseDeadline; exact ⟨_, rfl, by simp⟩

theorem execYieldSwitch_kept (K : Keep) (dt : Nat) (s : State) :
    ∃ u, execYieldSwitch dt s = .next u ∧ (Kept K u ↔ Kept K s) := by
  unfold execYieldSwitch; exact ⟨_, rfl, by (repeat' split) <;> simp⟩

@[simp] theorem instantIf_kept (K : Keep) (due : State → Bool) (dt : Nat) (s : State) :
    Kept K (instantIf due dt s) ↔ Kept K s := by
  unfold instantIf; simp

theorem execTakeover_kept (K : Keep) (dt : Nat) (s : State) :
    ∃ u, execTakeover dt s = .next u ∧ (Kept K u ↔ Kept K s) := by
  unfold execTakeover; exact ⟨_, rfl, by (repeat' split) <;> simp⟩

theorem execTakeoverPartnerOut_kept (K : Keep) (dt : Nat) (s : State) :
    ∃ u, execTakeoverPartnerOut dt s = .next u ∧ (Kept K u ↔ Kept K s) := by
  unfold execTakeoverPartnerOut; exact ⟨_, rfl, by simp⟩

theorem execStepDown_kept (K : Keep) (dt : Nat) (s : State) :
    ∃ u, execStepDown dt s = .next u ∧ (Kept K u ↔ Kept K s) := by
  unfold execStepDown; exact ⟨_, rfl, by (repeat' split) <;> simp⟩

theorem execNonpreferredActivate_kept (K : Keep) (dt : Nat) (s : State) :
    ∃ u, execNonpreferredActivate dt s = .next u ∧ (Kept K u ↔ Kept K s) := by
  unfold execNonpreferredActivate; exact ⟨_, rfl, by simp⟩

theorem execRackAbandon_kept (K : Keep) (dt : Nat) (s : State) :
    ∃ u, execRackAbandon dt s = .next u ∧ (Kept K u ↔ Kept K s) := by
  unfold execRackAbandon; exact ⟨_, rfl, by (repeat' split) <;> simp⟩

theorem execPairRestart_kept (K : Keep) (dt : Nat) (l : Fin 4) (s : State) :
    ∃ u, execPairRestart dt l s = .next u ∧ (Kept K u ↔ Kept K s) := by
  unfold execPairRestart; exact ⟨_, rfl, by simp⟩

theorem execSplitInstant_kept (K : Keep) (dt : Nat) (l : Fin 4) (s : State) :
    ∃ u, execSplitInstant dt l s = .next u ∧ (Kept K u ↔ Kept K s) := by
  unfold execSplitInstant; exact ⟨_, rfl, by simp⟩

theorem execRejoinInstant_kept (K : Keep) (dt : Nat) (l : Fin 4) (s : State) :
    ∃ u, execRejoinInstant dt l s = .next u ∧ (Kept K u ↔ Kept K s) := by
  unfold execRejoinInstant; exact ⟨_, rfl, by simp⟩

theorem execNodeResetApply_kept (K : Keep) (dt : Nat) (s : State) :
    ∃ u, execNodeResetApply dt s = .next u ∧ (Kept K u ↔ Kept K s) := by
  unfold execNodeResetApply; exact ⟨_, rfl, by simp⟩

theorem execParkEntry_kept (K : Keep) (dt : Nat) (s : State) :
    ∃ u, execParkEntry dt s = .next u ∧ (Kept K u ↔ Kept K s) := by
  unfold execParkEntry; exact ⟨_, rfl, by simp⟩

theorem execKilnEntry_kept (K : Keep) (dt : Nat) (s : State) :
    ∃ u, execKilnEntry dt s = .next u ∧ (Kept K u ↔ Kept K s) := by
  unfold execKilnEntry; exact ⟨_, rfl, by simp⟩

theorem execFabricSlotAssign_kept (K : Keep) (dt : Nat) (uid : BitVec 64) (s : State) :
    ∃ u, execFabricSlotAssign dt uid s = .next u ∧ (Kept K u ↔ Kept K s) := by
  unfold execFabricSlotAssign; exact ⟨_, rfl, by simp⟩

theorem execAgingStepApply_kept (K : Keep) (dt : Nat) (s : State) :
    ∃ u, execAgingStepApply dt s = .next u ∧ (Kept K u ↔ Kept K s) := by
  unfold execAgingStepApply; exact ⟨_, rfl, by simp⟩

theorem execCanMatrixCommit_kept (K : Keep) (dt : Nat) (c : Fin 12) (s : State) :
    ∃ u, execCanMatrixCommit dt c s = .next u ∧ (Kept K u ↔ Kept K s) := by
  unfold execCanMatrixCommit; exact ⟨_, rfl, by simp⟩

theorem exec_kept (K : Keep) (i : Instr) (s : State) : ∃ u, exec i s = .next u ∧ (Kept K u ↔ Kept K s) := by
  cases i with
  | powerGood dt p => exact execPowerGood_kept K dt p s
  | startStepComplete dt r => exact execStartStepComplete_kept K dt r s
  | startRetry dt => exact execStartRetry_kept K dt s
  | perstAssert dt => exact execPerstAssert_kept K dt s
  | perstRelease dt => exact execPerstRelease_kept K dt s
  | supervisorWatchdogExpiry dt => exact execSupervisorWatchdogExpiry_kept K dt s
  | supervisorFatalFault dt => exact execSupervisorFatalFault_kept K dt s
  | nodeResetApply dt => exact execNodeResetApply_kept K dt s
  | inputVoltageChange dt vin => exact execInputVoltageChange_kept K dt vin s
  | storeOkChange dt vstore => exact execStoreOkChange_kept K dt vstore s
  | lossDeclared dt vin vstore => exact execLossDeclared_kept K dt vin vstore s
  | shutdownBypassClose dt => exact execShutdownBypassClose_kept K dt s
  | converterStop dt vin => exact execConverterStop_kept K dt vin s
  | pd0Stop dt => exact execPd0Stop_kept K dt s
  | thermalChange dt case die => exact execThermalChange_kept K dt case die s
  | powerDomainIdle dt d idle next => exact execPowerDomainIdle_kept K dt d idle next s
  | domainWakeTimer dt d => exact execDomainWakeTimer_kept K dt d s
  | asyncDomainWake dt d due => exact execAsyncDomainWake_kept K dt d due s
  | parkEntry dt => exact execParkEntry_kept K dt s
  | kilnEntry dt => exact execKilnEntry_kept K dt s
  | wakeSource dt src port => exact execWakeSource_kept K dt src port s
  | wakeLLowTimeout dt => exact execWakeLLowTimeout_kept K dt s
  | parkWakeComplete dt => exact execParkWakeComplete_kept K dt s
  | registrationInstant => exact execRegistrationInstant_kept K  s
  | holdoverEntry dt => exact execHoldoverEntry_kept K dt s
  | nextOpenSet dt => exact execNextOpenSet_kept K dt s
  | releaseDeadline dt => exact execReleaseDeadline_kept K dt s
  | lossOfSignal dt p => exact execLossOfSignal_kept K dt p s
  | resumeEntry dt p => exact execResumeEntry_kept K dt p s
  | signalRelock dt p => exact execSignalRelock_kept K dt p s
  | linkDownTimeout dt p => exact execLinkDownTimeout_kept K dt p s
  | partnerEnergyDetect dt p => exact execPartnerEnergyDetect_kept K dt p s
  | trainingLockComplete dt p => exact execTrainingLockComplete_kept K dt p s
  | qualifyComplete dt p partner => exact execQualifyComplete_kept K dt p partner s
  | codeViolationLimit dt p violations lockLost => exact execCodeViolationLimit_kept K dt p violations lockLost s
  | negotiateTimeout dt p => exact execNegotiateTimeout_kept K dt p s
  | t1LinkUp dt p partner => exact execT1LinkUp_kept K dt p partner s
  | t1RoleSwap dt p => exact execT1RoleSwap_kept K dt p s
  | delayRequest dt p idle tTx => exact execDelayRequest_kept K dt p idle tTx s
  | delayMarkerRx dt p m tRx tTx => exact execDelayMarkerRx_kept K dt p m tRx tTx s
  | delayFollowUpRx dt p m => exact execDelayFollowUpRx_kept K dt p m s
  | peerDelayRequest dt p tTx => exact execPeerDelayRequest_kept K dt p tTx s
  | bypassLineAClose dt => exact execBypassLineAClose_kept K dt s
  | bypassLineBClose dt => exact execBypassLineBClose_kept K dt s
  | bypassLineAOpen dt => exact execBypassLineAOpen_kept K dt s
  | bypassLineBOpen dt => exact execBypassLineBOpen_kept K dt s
  | bypassSenseCheck dt line closed => exact execBypassSenseCheck_kept K dt line closed s
  | linkBeaconSend dt p idleFor => exact execLinkBeaconSend_kept K dt p idleFor s
  | passiveBeaconSend dt => exact execPassiveBeaconSend_kept K dt s
  | linkBeaconRx dt p b tRx => exact execLinkBeaconRx_kept K dt p b tRx s
  | breakRx dt p b => exact execBreakRx_kept K dt p b s
  | directoryRx dt p d => exact execDirectoryRx_kept K dt p d s
  | joinRx dt p j => exact execJoinRx_kept K dt p j s
  | coldClaimRx dt p c => exact execColdClaimRx_kept K dt p c s
  | mergeReportRx dt p m => exact execMergeReportRx_kept K dt p m s
  | leadSetRx dt p vid => exact execLeadSetRx_kept K dt p vid s
  | openingFrameRx dt p f tRx fin => exact execOpeningFrameRx_kept K dt p f tRx fin s
  | coldStartTimeout dt => exact execColdStartTimeout_kept K dt s
  | coldClaimSend dt => exact execColdClaimSend_kept K dt s
  | contendTimeout dt => exact execContendTimeout_kept K dt s
  | provisionalNoJoin dt => exact execProvisionalNoJoin_kept K dt s
  | yieldSwitch dt => exact execYieldSwitch_kept K dt s
  | scheduledSend dt entry transit => exact execScheduledSend_kept K dt entry transit s
  | sporadicAbort dt passing => exact execSporadicAbort_kept K dt passing s
  | trunkFrameForward dt p f tRx => exact execTrunkFrameForward_kept K dt p f tRx s
  | flowFrameRx dt src f fin => exact execFlowFrameRx_kept K dt src f fin s
  | sessionFrameRx dt p f => exact execSessionFrameRx_kept K dt p f s
  | sessionRetransmit dt sid opener => exact execSessionRetransmit_kept K dt sid opener s
  | tcxoStop dt => exact execTcxoStop_kept K dt s
  | tcxoRestart dt => exact execTcxoRestart_kept K dt s
  | ptpSyncRx dt port m => exact execPtpSyncRx_kept K dt port m s
  | ptpAnnounceRx dt port m => exact execPtpAnnounceRx_kept K dt port m s
  | ptpMessageSend dt inst kind => exact execPtpMessageSend_kept K dt inst kind s
  | ptpSyncTimeout dt inst announce => exact execPtpSyncTimeout_kept K dt inst announce s
  | domainReturnTimer dt => exact execDomainReturnTimer_kept K dt s
  | tioPulseEdge dt n at_ assert_ => exact execTioPulseEdge_kept K dt n at_ assert_ s
  | tioCaptureEdge dt n at_ rising width => exact execTioCaptureEdge_kept K dt n at_ rising width s
  | tioArm dt n src value => exact execTioArm_kept K dt n src value s
  | tioStop dt n src value => exact execTioStop_kept K dt n src value s
  | tioCapRead dt n src => exact execTioCapRead_kept K dt n src s
  | heartbeatRx dt path h => exact execHeartbeatRx_kept K dt path h s
  | takeover dt => exact execTakeover_kept K dt s
  | takeoverPartnerOut dt => exact execTakeoverPartnerOut_kept K dt s
  | stepDown dt => exact execStepDown_kept K dt s
  | nonpreferredActivate dt => exact execNonpreferredActivate_kept K dt s
  | rackingFrameRx dt f => exact execRackingFrameRx_kept K dt f s
  | regionStagingApply dt => exact execRegionStagingApply_kept K dt s
  | rackAbandon dt => exact execRackAbandon_kept K dt s
  | copyOnWrite dt page addr data => exact execCopyOnWrite_kept K dt page addr data s
  | burinVerdict dt l cycles => exact execBurinVerdict_kept K dt l cycles s
  | holdBufferStall dt l cycles => exact execHoldBufferStall_kept K dt l cycles s
  | checkerFault dt l => exact execCheckerFault_kept K dt l s
  | cacheUncorrectable dt l core => exact execCacheUncorrectable_kept K dt l core s
  | pairRestart dt l => exact execPairRestart_kept K dt l s
  | pairAccessFault dt l core addr => exact execPairAccessFault_kept K dt l core addr s
  | handoverPoint dt l => exact execHandoverPoint_kept K dt l s
  | splitInstant dt l => exact execSplitInstant_kept K dt l s
  | substitutionTransfer dt l => exact execSubstitutionTransfer_kept K dt l s
  | rejoinInstant dt l => exact execRejoinInstant_kept K dt l s
  | handoverAbandon dt l => exact execHandoverAbandon_kept K dt l s
  | debugAccess dt l => exact execDebugAccess_kept K dt l s
  | jtagExtest dt => exact execJtagExtest_kept K dt s
  | pairReadyWrite dt l core value => exact execPairReadyWrite_kept K dt l core value s
  | canFrameRx dt c f own => exact execCanFrameRx_kept K dt c f own s
  | canTxComplete dt c tdcv => exact execCanTxComplete_kept K dt c tdcv s
  | canArbitrationLost dt c => exact execCanArbitrationLost_kept K dt c s
  | canError dt c e => exact execCanError_kept K dt c e s
  | canRecoveryComplete dt c occ => exact execCanRecoveryComplete_kept K dt c occ s
  | canIntegrationComplete dt c => exact execCanIntegrationComplete_kept K dt c s
  | canWakePattern dt c => exact execCanWakePattern_kept K dt c s
  | canModeWrite dt c src value busy => exact execCanModeWrite_kept K dt c src value busy s
  | canTxrqWrite dt c m src value => exact execCanTxrqWrite_kept K dt c m src value s
  | canTxcanWrite dt c m src value => exact execCanTxcanWrite_kept K dt c m src value s
  | canHpbRequest dt c src value => exact execCanHpbRequest_kept K dt c src value s
  | canHpbCancel dt c src value => exact execCanHpbCancel_kept K dt c src value s
  | canRecoverStart dt c src value => exact execCanRecoverStart_kept K dt c src value s
  | canFifoPop dt c src value => exact execCanFifoPop_kept K dt c src value s
  | canObjectWord0Read dt c o src => exact execCanObjectWord0Read_kept K dt c o src s
  | canObjectWrite dt c o word src value => exact execCanObjectWrite_kept K dt c o word src value s
  | canTtCommitWrite dt c src cycle => exact execCanTtCommitWrite_kept K dt c src cycle s
  | canMatrixCommit dt c => exact execCanMatrixCommit_kept K dt c s
  | canReferenceRx dt c count => exact execCanReferenceRx_kept K dt c count s
  | canReferenceAbandon dt c => exact execCanReferenceAbandon_kept K dt c s
  | canSlaveRefTimeout dt c => exact execCanSlaveRefTimeout_kept K dt c s
  | canHatchWindow dt c col idle => exact execCanHatchWindow_kept K dt c col idle s
  | canHatchWindowEnd dt c col => exact execCanHatchWindowEnd_kept K dt c col s
  | mvbBasicPeriodStart dt g => exact execMvbBasicPeriodStart_kept K dt g s
  | mvbMasterFrameSend dt g => exact execMvbMasterFrameSend_kept K dt g s
  | mvbNoReplyTimeout dt g => exact execMvbNoReplyTimeout_kept K dt g s
  | mvbMasterFrameRx dt g f => exact execMvbMasterFrameRx_kept K dt g f s
  | mvbSlaveFrameRx dt g f => exact execMvbSlaveFrameRx_kept K dt g f s
  | consistFrameRx dt f => exact execConsistFrameRx_kept K dt f s
  | consistFrameEgress dt port queue => exact execConsistFrameEgress_kept K dt port queue s
  | addressAgeing dt mac vid => exact execAddressAgeing_kept K dt mac vid s
  | frerResetTimer dt handle => exact execFrerResetTimer_kept K dt handle s
  | mkaPduRx dt port m => exact execMkaPduRx_kept K dt port m s
  | sakDistribute dt port => exact execSakDistribute_kept K dt port s
  | consistLinkChange dt port up speed t1Master => exact execConsistLinkChange_kept K dt port up speed t1Master s
  | fabricBeaconSend dt k => exact execFabricBeaconSend_kept K dt k s
  | fabricBeaconRx dt k b => exact execFabricBeaconRx_kept K dt k b s
  | fabricSlotAssign dt uid => exact execFabricSlotAssign_kept K dt uid s
  | fabricFrameRx dt k f => exact execFabricFrameRx_kept K dt k f s
  | fabricAckTimeout dt k => exact execFabricAckTimeout_kept K dt k s
  | fabricLinkDown dt k => exact execFabricLinkDown_kept K dt k s
  | fabricLinkUp dt k => exact execFabricLinkUp_kept K dt k s
  | fabricLaneSwitch dt k lane errors => exact execFabricLaneSwitch_kept K dt k lane errors s
  | spareLaneGood dt k errors => exact execSpareLaneGood_kept K dt k errors s
  | fabricReportRx dt p r => exact execFabricReportRx_kept K dt p r s
  | fabricTickSend dt => exact execFabricTickSend_kept K dt s
  | fabricTickRx dt k t tRx residence => exact execFabricTickRx_kept K dt k t tRx residence s
  | proxyFrameRx dt slot entry f => exact execProxyFrameRx_kept K dt slot entry f s
  | fabricSubscribeRx dt slot flows => exact execFabricSubscribeRx_kept K dt slot flows s
  | bridgeRequestRx dt p r bad => exact execBridgeRequestRx_kept K dt p r bad s
  | bridgeResponseRx dt p r => exact execBridgeResponseRx_kept K dt p r s
  | bridgeWithdrawRx dt p r => exact execBridgeWithdrawRx_kept K dt p r s
  | bridgeRetryTimer dt tag => exact execBridgeRetryTimer_kept K dt tag s
  | bridgeReqTimeout dt tag => exact execBridgeReqTimeout_kept K dt tag s
  | bridgeFetchStale dt => exact execBridgeFetchStale_kept K dt s
  | bridgeBusyRetry dt => exact execBridgeBusyRetry_kept K dt s
  | remoteWindowRead dt src w off len => exact execRemoteWindowRead_kept K dt src w off len s
  | remoteWindowWrite dt src w off data => exact execRemoteWindowWrite_kept K dt src w off data s
  | lockedSequenceStart dt w off => exact execLockedSequenceStart_kept K dt w off s
  | lockedSequenceEnd dt => exact execLockedSequenceEnd_kept K dt s
  | fabSemRead dt src k => exact execFabSemRead_kept K dt src k s
  | fabSemWrite dt src k value => exact execFabSemWrite_kept K dt src k value s
  | semTmoExpiry dt k => exact execSemTmoExpiry_kept K dt k s
  | fabVecPendWrite dt src value => exact execFabVecPendWrite_kept K dt src value s
  | memoryEccError dt e => exact execMemoryEccError_kept K dt e s
  | scrubSlice dt w => exact execScrubSlice_kept K dt w s
  | bankDrainComplete dt bank => exact execBankDrainComplete_kept K dt bank s
  | rotationStep dt => exact execRotationStep_kept K dt s
  | logicSelfTestComplete dt phys passed monitors => exact execLogicSelfTestComplete_kept K dt phys passed monitors s
  | agingMonitorRead dt monitors => exact execAgingMonitorRead_kept K dt monitors s
  | agingStepApply dt => exact execAgingStepApply_kept K dt s
  | queuedCommandComplete dt seq status => exact execQueuedCommandComplete_kept K dt seq status s
  | mailboxWrite dt src mbx off data => exact execMailboxWrite_kept K dt src mbx off data s
  | mbxLockRead dt src mbx => exact execMbxLockRead_kept K dt src mbx s
  | mbxLockWrite dt src mbx value => exact execMbxLockWrite_kept K dt src mbx value s
  | evqRdWrite dt src value => exact execEvqRdWrite_kept K dt src value s
  | evqHoldTimeout dt => exact execEvqHoldTimeout_kept K dt s
  | nextWindowWrite dt src off data => exact execNextWindowWrite_kept K dt src off data s
  | currentWindowWrite dt src off data => exact execCurrentWindowWrite_kept K dt src off data s
  | pdiReleaseHost dt src value => exact execPdiReleaseHost_kept K dt src value s
  | pdiReleasePair dt l value => exact execPdiReleasePair_kept K dt l value s
  | pdiRelMaskWrite dt src value => exact execPdiRelMaskWrite_kept K dt src value s
  | multiRegisterLatchRead dt src addr => exact execMultiRegisterLatchRead_kept K dt src addr s
  | rcFieldRead dt src addr => exact execRcFieldRead_kept K dt src addr s
  | localBusAccess dt a => exact execLocalBusAccess_kept K dt a s
  | pcieMultiDwordRequest dt addr len wdata => exact execPcieMultiDwordRequest_kept K dt addr len wdata s
  | spiTransfer dt addr words wdata => exact execSpiTransfer_kept K dt addr words wdata s
  | unalignedAccess dt src addr width wdata => exact execUnalignedAccess_kept K dt src addr width wdata s
  | unmappedAccess dt src addr width wdata => exact execUnmappedAccess_kept K dt src addr width wdata s
  | registerWrite dt src addr value => exact execRegisterWrite_kept K dt src addr value s
  | sysIdentity dt r => exact execSysIdentity_kept K dt r s
  | sysNop dt r => exact execSysNop_kept K dt r s
  | sysReset dt r => exact execSysReset_kept K dt r s
  | sysEventMask dt r => exact execSysEventMask_kept K dt r s
  | sysPatchStage dt r => exact execSysPatchStage_kept K dt r s
  | sysPatchVerify dt r => exact execSysPatchVerify_kept K dt r s
  | sysLogRead dt r => exact execSysLogRead_kept K dt r s
  | sysProfileConfirm dt r => exact execSysProfileConfirm_kept K dt r s
  | sysDebugNonce dt r => exact execSysDebugNonce_kept K dt r s
  | sysDebugUnlock dt r => exact execSysDebugUnlock_kept K dt r s
  | sysDebugRelock dt r => exact execSysDebugRelock_kept K dt r s
  | topoStatus dt r => exact execTopoStatus_kept K dt r s
  | topoDirectory dt r => exact execTopoDirectory_kept K dt r s
  | topoPositionMap dt r => exact execTopoPositionMap_kept K dt r s
  | topoSetLeading dt r => exact execTopoSetLeading_kept K dt r s
  | topoSetIdentity dt r => exact execTopoSetIdentity_kept K dt r s
  | topoColdStart dt r => exact execTopoColdStart_kept K dt r s
  | trunkSetPolicy dt r => exact execTrunkSetPolicy_kept K dt r s
  | trunkStatus dt r => exact execTrunkStatus_kept K dt r s
  | trunkBypassPassive dt r => exact execTrunkBypassPassive_kept K dt r s
  | trunkBypassActive dt r => exact execTrunkBypassActive_kept K dt r s
  | trunkRetrain dt r => exact execTrunkRetrain_kept K dt r s
  | schedStatus dt r => exact execSchedStatus_kept K dt r s
  | schedStage dt r => exact execSchedStage_kept K dt r s
  | schedVerify dt r => exact execSchedVerify_kept K dt r s
  | schedHold dt r => exact execSchedHold_kept K dt r s
  | schedActivate dt r => exact execSchedActivate_kept K dt r s
  | schedRelease dt r => exact execSchedRelease_kept K dt r s
  | schedEntryStatus dt r => exact execSchedEntryStatus_kept K dt r s
  | timeStatus dt r => exact execTimeStatus_kept K dt r s
  | timeSet dt r => exact execTimeSet_kept K dt r s
  | timePtpConfig dt r => exact execTimePtpConfig_kept K dt r s
  | timeDomainPolicy dt r => exact execTimeDomainPolicy_kept K dt r s
  | timeSteer dt r => exact execTimeSteer_kept K dt r s
  | timePtpStatus dt r => exact execTimePtpStatus_kept K dt r s
  | flowSet dt r => exact execFlowSet_kept K dt r s
  | flowGet dt r => exact execFlowGet_kept K dt r s
  | flowStatus dt r => exact execFlowStatus_kept K dt r s
  | flowSave dt r => exact execFlowSave_kept K dt r s
  | flowMacsecKey dt r => exact execFlowMacsecKey_kept K dt r s
  | sessionOpen dt r => exact execSessionOpen_kept K dt r s
  | sessionSend dt r => exact execSessionSend_kept K dt r s
  | sessionRecv dt r => exact execSessionRecv_kept K dt r s
  | sessionClose dt r => exact execSessionClose_kept K dt r s
  | twinStatus dt r => exact execTwinStatus_kept K dt r s
  | twinConfig dt r => exact execTwinConfig_kept K dt r s
  | twinSwitchover dt r => exact execTwinSwitchover_kept K dt r s
  | twinServiceOut dt r => exact execTwinServiceOut_kept K dt r s
  | twinServiceReturn dt r => exact execTwinServiceReturn_kept K dt r s
  | twinRenew dt r => exact execTwinRenew_kept K dt r s
  | lskStatus dt r => exact execLskStatus_kept K dt r s
  | lskPairConfig dt r => exact execLskPairConfig_kept K dt r s
  | lskPairReset dt r => exact execLskPairReset_kept K dt r s
  | lskSplit dt r => exact execLskSplit_kept K dt r s
  | lskRejoin dt r => exact execLskRejoin_kept K dt r s
  | lskSubstitute dt r => exact execLskSubstitute_kept K dt r s
  | canSave dt r => exact execCanSave_kept K dt r s
  | canLoad dt r => exact execCanLoad_kept K dt r s
  | mvbConfig dt r => exact execMvbConfig_kept K dt r s
  | mvbPollStage dt r => exact execMvbPollStage_kept K dt r s
  | mvbPollCommit dt r => exact execMvbPollCommit_kept K dt r s
  | mvbPortSet dt r => exact execMvbPortSet_kept K dt r s
  | mvbPortWrite dt r => exact execMvbPortWrite_kept K dt r s
  | mvbPortRead dt r => exact execMvbPortRead_kept K dt r s
  | mvbStatus dt r => exact execMvbStatus_kept K dt r s
  | swcPortConfig dt r => exact execSwcPortConfig_kept K dt r s
  | swcPortStatus dt r => exact execSwcPortStatus_kept K dt r s
  | swcVlanSet dt r => exact execSwcVlanSet_kept K dt r s
  | swcStreamSet dt r => exact execSwcStreamSet_kept K dt r s
  | swcGclStage dt r => exact execSwcGclStage_kept K dt r s
  | swcGclCommit dt r => exact execSwcGclCommit_kept K dt r s
  | swcMacsecKey dt r => exact execSwcMacsecKey_kept K dt r s
  | swcStreamStatus dt r => exact execSwcStreamStatus_kept K dt r s
  | swcSave dt r => exact execSwcSave_kept K dt r s
  | fabStatus dt r => exact execFabStatus_kept K dt r s
  | fabConfig dt r => exact execFabConfig_kept K dt r s
  | fabWindowSet dt r => exact execFabWindowSet_kept K dt r s
  | fabSlotTable dt r => exact execFabSlotTable_kept K dt r s
  | fabBridgeStatus dt r => exact execFabBridgeStatus_kept K dt r s
  | fabPwlog dt r => exact execFabPwlog_kept K dt r s
  | fabSemRelease dt r => exact execFabSemRelease_kept K dt r s
  | pwrStatus dt r => exact execPwrStatus_kept K dt r s
  | pwrDomainConfig dt r => exact execPwrDomainConfig_kept K dt r s
  | pwrPark dt r => exact execPwrPark_kept K dt r s
  | pwrParkWithdraw dt r => exact execPwrParkWithdraw_kept K dt r s
  | pwrKiln dt r => exact execPwrKiln_kept K dt r s
  | pwrKilnWithdraw dt r => exact execPwrKilnWithdraw_kept K dt r s
  | pwrWakeConfig dt r => exact execPwrWakeConfig_kept K dt r s
  | repStatus dt r => exact execRepStatus_kept K dt r s
  | repLog dt r => exact execRepLog_kept K dt r s
  | repTest dt r => exact execRepTest_kept K dt r s
  | repCalibrate dt r => exact execRepCalibrate_kept K dt r s
  | repRotation dt r => exact execRepRotation_kept K dt r s
  | recStatus dt r => exact execRecStatus_kept K dt r s
  | recConfig dt r => exact execRecConfig_kept K dt r s
  | recTrigger dt r => exact execRecTrigger_kept K dt r s
  | recCask dt r => exact execRecCask_kept K dt r s
  | recRelease dt r => exact execRecRelease_kept K dt r s
  | recPage dt r => exact execRecPage_kept K dt r s
  | autonegComplete dt p m1000 m100 master => exact execAutonegComplete_kept K dt p m1000 m100 master s
  | trainingFailure dt p answered => exact execTrainingFailure_kept K dt p answered s
  | t1LinkDown dt p => exact execT1LinkDown_kept K dt p s
  | ttdpFrameRx dt p t => exact execTtdpFrameRx_kept K dt p t s
  | trunkDomainSyncRx dt p domain origin tRx => exact execTrunkDomainSyncRx_kept K dt p domain origin tRx s
  | islandInaugurationComplete dt dir wtbAddrs interior master reporter => exact execIslandInaugurationComplete_kept K dt dir wtbAddrs interior master reporter s
  | islandTelegramRx dt addr data okA okB => exact execIslandTelegramRx_kept K dt addr data okA okB s
  | islandTelegramSend dt => exact execIslandTelegramSend_kept K dt s
  | nonScheduledSend dt p transitBusy => exact execNonScheduledSend_kept K dt p transitBusy s
  | doorbellRing dt src mbx value => exact execDoorbellRing_kept K dt src mbx value s
  | rackingFrameSend dt room => exact execRackingFrameSend_kept K dt room s

end Sys2Proof.Machine
end

