-- ==== Sys2Proof/Laws/State.lean ====
section
/-! SUPPORT. The updates of the state, field by field: what each one writes, and that it leaves every other field alone. -/

namespace Sys2Proof.Machine

/-! ## Lists of parts -/

@[simp] theorem updAt_length {α : Type} (l : List α) (i : Nat) (f : α → α) : (updAt l i f).length = l.length := by
  induction l generalizing i with
  | nil => rfl
  | cons x xs ih => cases i <;> simp [updAt, ih]

theorem getD_updAt_self {α : Type} (l : List α) (i : Nat) (f : α → α) (d : α) (h : i < l.length) :
    (updAt l i f).getD i d = f (l.getD i d) := by
  induction l generalizing i with
  | nil => simp at h
  | cons x xs ih =>
    cases i with
    | zero => rfl
    | succ n => simpa [updAt] using ih n (by simpa using h)

theorem getD_updAt_ne {α : Type} (l : List α) (i j : Nat) (f : α → α) (d : α) (h : i ≠ j) :
    (updAt l i f).getD j d = l.getD j d := by
  induction l generalizing i j with
  | nil => rfl
  | cons x xs ih =>
    cases i <;> cases j <;> simp_all [updAt]

/-! ## One update at a time -/

@[simp] theorem modIna_ina (f : Ina → Ina) (s : State) : (modIna f s).ina = f s.ina := rfl

@[simp] theorem modIna_frame (f : Ina → Ina) (s : State) :
    (modIna f s).pending = s.pending ∧ (modIna f s).now = s.now ∧ (modIna f s).clk = s.clk ∧
    (modIna f s).free = s.free ∧ (modIna f s).emit = s.emit ∧ (modIna f s).sys = s.sys ∧ (modIna f s).cmd = s.cmd ∧
    (modIna f s).trunk = s.trunk ∧ (modIna f s).sched = s.sched ∧ (modIna f s).time = s.time ∧
    (modIna f s).flow = s.flow ∧ (modIna f s).twin = s.twin ∧ (modIna f s).lsk = s.lsk ∧ (modIna f s).can = s.can ∧
    (modIna f s).mvb = s.mvb ∧ (modIna f s).swc = s.swc ∧ (modIna f s).fab = s.fab ∧ (modIna f s).bridge = s.bridge ∧
    (modIna f s).pwr = s.pwr ∧ (modIna f s).rep = s.rep ∧ (modIna f s).shelf = s.shelf ∧
    (modIna f s).shadows = s.shadows ∧ (modIna f s).summaries = s.summaries ∧
    (modIna f s).summariesNew = s.summariesNew ∧ (modIna f s).summariesAt = s.summariesAt :=
  ⟨rfl, rfl, rfl, rfl, rfl, rfl, rfl, rfl, rfl, rfl, rfl, rfl, rfl, rfl, rfl, rfl, rfl, rfl, rfl, rfl, rfl, rfl, rfl, rfl, rfl⟩

@[simp] theorem modPort_trunk (p : Nat) (f : Port → Port) (s : State) : (modPort p f s).trunk = { s.trunk with ports := updAt s.trunk.ports p f } := rfl

@[simp] theorem modPort_frame (p : Nat) (f : Port → Port) (s : State) :
    (modPort p f s).pending = s.pending ∧ (modPort p f s).now = s.now ∧ (modPort p f s).clk = s.clk ∧
    (modPort p f s).free = s.free ∧ (modPort p f s).emit = s.emit ∧ (modPort p f s).sys = s.sys ∧
    (modPort p f s).cmd = s.cmd ∧ (modPort p f s).ina = s.ina ∧ (modPort p f s).sched = s.sched ∧
    (modPort p f s).time = s.time ∧ (modPort p f s).flow = s.flow ∧ (modPort p f s).twin = s.twin ∧
    (modPort p f s).lsk = s.lsk ∧ (modPort p f s).can = s.can ∧ (modPort p f s).mvb = s.mvb ∧
    (modPort p f s).swc = s.swc ∧ (modPort p f s).fab = s.fab ∧ (modPort p f s).bridge = s.bridge ∧
    (modPort p f s).pwr = s.pwr ∧ (modPort p f s).rep = s.rep ∧ (modPort p f s).shelf = s.shelf ∧
    (modPort p f s).shadows = s.shadows ∧ (modPort p f s).summaries = s.summaries ∧
    (modPort p f s).summariesNew = s.summariesNew ∧ (modPort p f s).summariesAt = s.summariesAt :=
  ⟨rfl, rfl, rfl, rfl, rfl, rfl, rfl, rfl, rfl, rfl, rfl, rfl, rfl, rfl, rfl, rfl, rfl, rfl, rfl, rfl, rfl, rfl, rfl, rfl, rfl⟩

@[simp] theorem modCmd_cmd (f : Cmd → Cmd) (s : State) : (modCmd f s).cmd = f s.cmd := rfl

@[simp] theorem modCmd_frame (f : Cmd → Cmd) (s : State) :
    (modCmd f s).pending = s.pending ∧ (modCmd f s).now = s.now ∧ (modCmd f s).clk = s.clk ∧
    (modCmd f s).free = s.free ∧ (modCmd f s).emit = s.emit ∧ (modCmd f s).sys = s.sys ∧ (modCmd f s).trunk = s.trunk ∧
    (modCmd f s).ina = s.ina ∧ (modCmd f s).sched = s.sched ∧ (modCmd f s).time = s.time ∧ (modCmd f s).flow = s.flow ∧
    (modCmd f s).twin = s.twin ∧ (modCmd f s).lsk = s.lsk ∧ (modCmd f s).can = s.can ∧ (modCmd f s).mvb = s.mvb ∧
    (modCmd f s).swc = s.swc ∧ (modCmd f s).fab = s.fab ∧ (modCmd f s).bridge = s.bridge ∧ (modCmd f s).pwr = s.pwr ∧
    (modCmd f s).rep = s.rep ∧ (modCmd f s).shelf = s.shelf ∧ (modCmd f s).shadows = s.shadows ∧
    (modCmd f s).summaries = s.summaries ∧ (modCmd f s).summariesNew = s.summariesNew ∧
    (modCmd f s).summariesAt = s.summariesAt :=
  ⟨rfl, rfl, rfl, rfl, rfl, rfl, rfl, rfl, rfl, rfl, rfl, rfl, rfl, rfl, rfl, rfl, rfl, rfl, rfl, rfl, rfl, rfl, rfl, rfl, rfl⟩

@[simp] theorem modMbx_cmd (n : Nat) (f : Mailbox → Mailbox) (s : State) : (modMbx n f s).cmd = { s.cmd with mbx := updAt s.cmd.mbx n f } := rfl

@[simp] theorem modMbx_frame (n : Nat) (f : Mailbox → Mailbox) (s : State) :
    (modMbx n f s).pending = s.pending ∧ (modMbx n f s).now = s.now ∧ (modMbx n f s).clk = s.clk ∧
    (modMbx n f s).free = s.free ∧ (modMbx n f s).emit = s.emit ∧ (modMbx n f s).sys = s.sys ∧
    (modMbx n f s).trunk = s.trunk ∧ (modMbx n f s).ina = s.ina ∧ (modMbx n f s).sched = s.sched ∧
    (modMbx n f s).time = s.time ∧ (modMbx n f s).flow = s.flow ∧ (modMbx n f s).twin = s.twin ∧
    (modMbx n f s).lsk = s.lsk ∧ (modMbx n f s).can = s.can ∧ (modMbx n f s).mvb = s.mvb ∧ (modMbx n f s).swc = s.swc ∧
    (modMbx n f s).fab = s.fab ∧ (modMbx n f s).bridge = s.bridge ∧ (modMbx n f s).pwr = s.pwr ∧
    (modMbx n f s).rep = s.rep ∧ (modMbx n f s).shelf = s.shelf ∧ (modMbx n f s).shadows = s.shadows ∧
    (modMbx n f s).summaries = s.summaries ∧ (modMbx n f s).summariesNew = s.summariesNew ∧
    (modMbx n f s).summariesAt = s.summariesAt :=
  ⟨rfl, rfl, rfl, rfl, rfl, rfl, rfl, rfl, rfl, rfl, rfl, rfl, rfl, rfl, rfl, rfl, rfl, rfl, rfl, rfl, rfl, rfl, rfl, rfl, rfl⟩

@[simp] theorem modCan_can (c : Nat) (f : Can → Can) (s : State) : (modCan c f s).can = updAt s.can c f := rfl

@[simp] theorem modCan_frame (c : Nat) (f : Can → Can) (s : State) :
    (modCan c f s).pending = s.pending ∧ (modCan c f s).now = s.now ∧ (modCan c f s).clk = s.clk ∧
    (modCan c f s).free = s.free ∧ (modCan c f s).emit = s.emit ∧ (modCan c f s).sys = s.sys ∧
    (modCan c f s).cmd = s.cmd ∧ (modCan c f s).trunk = s.trunk ∧ (modCan c f s).ina = s.ina ∧
    (modCan c f s).sched = s.sched ∧ (modCan c f s).time = s.time ∧ (modCan c f s).flow = s.flow ∧
    (modCan c f s).twin = s.twin ∧ (modCan c f s).lsk = s.lsk ∧ (modCan c f s).mvb = s.mvb ∧
    (modCan c f s).swc = s.swc ∧ (modCan c f s).fab = s.fab ∧ (modCan c f s).bridge = s.bridge ∧
    (modCan c f s).pwr = s.pwr ∧ (modCan c f s).rep = s.rep ∧ (modCan c f s).shelf = s.shelf ∧
    (modCan c f s).shadows = s.shadows ∧ (modCan c f s).summaries = s.summaries ∧
    (modCan c f s).summariesNew = s.summariesNew ∧ (modCan c f s).summariesAt = s.summariesAt :=
  ⟨rfl, rfl, rfl, rfl, rfl, rfl, rfl, rfl, rfl, rfl, rfl, rfl, rfl, rfl, rfl, rfl, rfl, rfl, rfl, rfl, rfl, rfl, rfl, rfl, rfl⟩

@[simp] theorem modMvb_mvb (g : Nat) (f : Mvb → Mvb) (s : State) : (modMvb g f s).mvb = updAt s.mvb g f := rfl

@[simp] theorem modMvb_frame (g : Nat) (f : Mvb → Mvb) (s : State) :
    (modMvb g f s).pending = s.pending ∧ (modMvb g f s).now = s.now ∧ (modMvb g f s).clk = s.clk ∧
    (modMvb g f s).free = s.free ∧ (modMvb g f s).emit = s.emit ∧ (modMvb g f s).sys = s.sys ∧
    (modMvb g f s).cmd = s.cmd ∧ (modMvb g f s).trunk = s.trunk ∧ (modMvb g f s).ina = s.ina ∧
    (modMvb g f s).sched = s.sched ∧ (modMvb g f s).time = s.time ∧ (modMvb g f s).flow = s.flow ∧
    (modMvb g f s).twin = s.twin ∧ (modMvb g f s).lsk = s.lsk ∧ (modMvb g f s).can = s.can ∧
    (modMvb g f s).swc = s.swc ∧ (modMvb g f s).fab = s.fab ∧ (modMvb g f s).bridge = s.bridge ∧
    (modMvb g f s).pwr = s.pwr ∧ (modMvb g f s).rep = s.rep ∧ (modMvb g f s).shelf = s.shelf ∧
    (modMvb g f s).shadows = s.shadows ∧ (modMvb g f s).summaries = s.summaries ∧
    (modMvb g f s).summariesNew = s.summariesNew ∧ (modMvb g f s).summariesAt = s.summariesAt :=
  ⟨rfl, rfl, rfl, rfl, rfl, rfl, rfl, rfl, rfl, rfl, rfl, rfl, rfl, rfl, rfl, rfl, rfl, rfl, rfl, rfl, rfl, rfl, rfl, rfl, rfl⟩

@[simp] theorem modPair_lsk (l : Nat) (f : Pair → Pair) (s : State) : (modPair l f s).lsk = { s.lsk with pairs := updAt s.lsk.pairs l f } := rfl

@[simp] theorem modPair_frame (l : Nat) (f : Pair → Pair) (s : State) :
    (modPair l f s).pending = s.pending ∧ (modPair l f s).now = s.now ∧ (modPair l f s).clk = s.clk ∧
    (modPair l f s).free = s.free ∧ (modPair l f s).emit = s.emit ∧ (modPair l f s).sys = s.sys ∧
    (modPair l f s).cmd = s.cmd ∧ (modPair l f s).trunk = s.trunk ∧ (modPair l f s).ina = s.ina ∧
    (modPair l f s).sched = s.sched ∧ (modPair l f s).time = s.time ∧ (modPair l f s).flow = s.flow ∧
    (modPair l f s).twin = s.twin ∧ (modPair l f s).can = s.can ∧ (modPair l f s).mvb = s.mvb ∧
    (modPair l f s).swc = s.swc ∧ (modPair l f s).fab = s.fab ∧ (modPair l f s).bridge = s.bridge ∧
    (modPair l f s).pwr = s.pwr ∧ (modPair l f s).rep = s.rep ∧ (modPair l f s).shelf = s.shelf ∧
    (modPair l f s).shadows = s.shadows ∧ (modPair l f s).summaries = s.summaries ∧
    (modPair l f s).summariesNew = s.summariesNew ∧ (modPair l f s).summariesAt = s.summariesAt :=
  ⟨rfl, rfl, rfl, rfl, rfl, rfl, rfl, rfl, rfl, rfl, rfl, rfl, rfl, rfl, rfl, rfl, rfl, rfl, rfl, rfl, rfl, rfl, rfl, rfl, rfl⟩

@[simp] theorem modTio_time (n : Nat) (f : Tio → Tio) (s : State) : (modTio n f s).time = { s.time with tio := updAt s.time.tio n f } := rfl

@[simp] theorem modTio_frame (n : Nat) (f : Tio → Tio) (s : State) :
    (modTio n f s).pending = s.pending ∧ (modTio n f s).now = s.now ∧ (modTio n f s).clk = s.clk ∧
    (modTio n f s).free = s.free ∧ (modTio n f s).emit = s.emit ∧ (modTio n f s).sys = s.sys ∧
    (modTio n f s).cmd = s.cmd ∧ (modTio n f s).trunk = s.trunk ∧ (modTio n f s).ina = s.ina ∧
    (modTio n f s).sched = s.sched ∧ (modTio n f s).flow = s.flow ∧ (modTio n f s).twin = s.twin ∧
    (modTio n f s).lsk = s.lsk ∧ (modTio n f s).can = s.can ∧ (modTio n f s).mvb = s.mvb ∧ (modTio n f s).swc = s.swc ∧
    (modTio n f s).fab = s.fab ∧ (modTio n f s).bridge = s.bridge ∧ (modTio n f s).pwr = s.pwr ∧
    (modTio n f s).rep = s.rep ∧ (modTio n f s).shelf = s.shelf ∧ (modTio n f s).shadows = s.shadows ∧
    (modTio n f s).summaries = s.summaries ∧ (modTio n f s).summariesNew = s.summariesNew ∧
    (modTio n f s).summariesAt = s.summariesAt :=
  ⟨rfl, rfl, rfl, rfl, rfl, rfl, rfl, rfl, rfl, rfl, rfl, rfl, rfl, rfl, rfl, rfl, rfl, rfl, rfl, rfl, rfl, rfl, rfl, rfl, rfl⟩

@[simp] theorem modSw_swc (p : Nat) (f : SwPort → SwPort) (s : State) : (modSw p f s).swc = { s.swc with ports := updAt s.swc.ports p f } := rfl

@[simp] theorem modSw_frame (p : Nat) (f : SwPort → SwPort) (s : State) :
    (modSw p f s).pending = s.pending ∧ (modSw p f s).now = s.now ∧ (modSw p f s).clk = s.clk ∧
    (modSw p f s).free = s.free ∧ (modSw p f s).emit = s.emit ∧ (modSw p f s).sys = s.sys ∧ (modSw p f s).cmd = s.cmd ∧
    (modSw p f s).trunk = s.trunk ∧ (modSw p f s).ina = s.ina ∧ (modSw p f s).sched = s.sched ∧
    (modSw p f s).time = s.time ∧ (modSw p f s).flow = s.flow ∧ (modSw p f s).twin = s.twin ∧
    (modSw p f s).lsk = s.lsk ∧ (modSw p f s).can = s.can ∧ (modSw p f s).mvb = s.mvb ∧ (modSw p f s).fab = s.fab ∧
    (modSw p f s).bridge = s.bridge ∧ (modSw p f s).pwr = s.pwr ∧ (modSw p f s).rep = s.rep ∧
    (modSw p f s).shelf = s.shelf ∧ (modSw p f s).shadows = s.shadows ∧ (modSw p f s).summaries = s.summaries ∧
    (modSw p f s).summariesNew = s.summariesNew ∧ (modSw p f s).summariesAt = s.summariesAt :=
  ⟨rfl, rfl, rfl, rfl, rfl, rfl, rfl, rfl, rfl, rfl, rfl, rfl, rfl, rfl, rfl, rfl, rfl, rfl, rfl, rfl, rfl, rfl, rfl, rfl, rfl⟩

@[simp] theorem modFab_fab (k : Nat) (f : FabLink → FabLink) (s : State) : (modFab k f s).fab = { s.fab with links := updAt s.fab.links k f } := rfl

@[simp] theorem modFab_frame (k : Nat) (f : FabLink → FabLink) (s : State) :
    (modFab k f s).pending = s.pending ∧ (modFab k f s).now = s.now ∧ (modFab k f s).clk = s.clk ∧
    (modFab k f s).free = s.free ∧ (modFab k f s).emit = s.emit ∧ (modFab k f s).sys = s.sys ∧
    (modFab k f s).cmd = s.cmd ∧ (modFab k f s).trunk = s.trunk ∧ (modFab k f s).ina = s.ina ∧
    (modFab k f s).sched = s.sched ∧ (modFab k f s).time = s.time ∧ (modFab k f s).flow = s.flow ∧
    (modFab k f s).twin = s.twin ∧ (modFab k f s).lsk = s.lsk ∧ (modFab k f s).can = s.can ∧
    (modFab k f s).mvb = s.mvb ∧ (modFab k f s).swc = s.swc ∧ (modFab k f s).bridge = s.bridge ∧
    (modFab k f s).pwr = s.pwr ∧ (modFab k f s).rep = s.rep ∧ (modFab k f s).shelf = s.shelf ∧
    (modFab k f s).shadows = s.shadows ∧ (modFab k f s).summaries = s.summaries ∧
    (modFab k f s).summariesNew = s.summariesNew ∧ (modFab k f s).summariesAt = s.summariesAt :=
  ⟨rfl, rfl, rfl, rfl, rfl, rfl, rfl, rfl, rfl, rfl, rfl, rfl, rfl, rfl, rfl, rfl, rfl, rfl, rfl, rfl, rfl, rfl, rfl, rfl, rfl⟩

@[simp] theorem modFlow_flow (f : Flow → Flow) (s : State) : (modFlow f s).flow = f s.flow := rfl

@[simp] theorem modFlow_frame (f : Flow → Flow) (s : State) :
    (modFlow f s).pending = s.pending ∧ (modFlow f s).now = s.now ∧ (modFlow f s).clk = s.clk ∧
    (modFlow f s).free = s.free ∧ (modFlow f s).emit = s.emit ∧ (modFlow f s).sys = s.sys ∧ (modFlow f s).cmd = s.cmd ∧
    (modFlow f s).trunk = s.trunk ∧ (modFlow f s).ina = s.ina ∧ (modFlow f s).sched = s.sched ∧
    (modFlow f s).time = s.time ∧ (modFlow f s).twin = s.twin ∧ (modFlow f s).lsk = s.lsk ∧ (modFlow f s).can = s.can ∧
    (modFlow f s).mvb = s.mvb ∧ (modFlow f s).swc = s.swc ∧ (modFlow f s).fab = s.fab ∧
    (modFlow f s).bridge = s.bridge ∧ (modFlow f s).pwr = s.pwr ∧ (modFlow f s).rep = s.rep ∧
    (modFlow f s).shelf = s.shelf ∧ (modFlow f s).shadows = s.shadows ∧ (modFlow f s).summaries = s.summaries ∧
    (modFlow f s).summariesNew = s.summariesNew ∧ (modFlow f s).summariesAt = s.summariesAt :=
  ⟨rfl, rfl, rfl, rfl, rfl, rfl, rfl, rfl, rfl, rfl, rfl, rfl, rfl, rfl, rfl, rfl, rfl, rfl, rfl, rfl, rfl, rfl, rfl, rfl, rfl⟩

@[simp] theorem modTime_time (f : Time → Time) (s : State) : (modTime f s).time = f s.time := rfl

@[simp] theorem modTime_frame (f : Time → Time) (s : State) :
    (modTime f s).pending = s.pending ∧ (modTime f s).now = s.now ∧ (modTime f s).clk = s.clk ∧
    (modTime f s).free = s.free ∧ (modTime f s).emit = s.emit ∧ (modTime f s).sys = s.sys ∧ (modTime f s).cmd = s.cmd ∧
    (modTime f s).trunk = s.trunk ∧ (modTime f s).ina = s.ina ∧ (modTime f s).sched = s.sched ∧
    (modTime f s).flow = s.flow ∧ (modTime f s).twin = s.twin ∧ (modTime f s).lsk = s.lsk ∧ (modTime f s).can = s.can ∧
    (modTime f s).mvb = s.mvb ∧ (modTime f s).swc = s.swc ∧ (modTime f s).fab = s.fab ∧
    (modTime f s).bridge = s.bridge ∧ (modTime f s).pwr = s.pwr ∧ (modTime f s).rep = s.rep ∧
    (modTime f s).shelf = s.shelf ∧ (modTime f s).shadows = s.shadows ∧ (modTime f s).summaries = s.summaries ∧
    (modTime f s).summariesNew = s.summariesNew ∧ (modTime f s).summariesAt = s.summariesAt :=
  ⟨rfl, rfl, rfl, rfl, rfl, rfl, rfl, rfl, rfl, rfl, rfl, rfl, rfl, rfl, rfl, rfl, rfl, rfl, rfl, rfl, rfl, rfl, rfl, rfl, rfl⟩

@[simp] theorem modTrunk_trunk (f : Trunk → Trunk) (s : State) : (modTrunk f s).trunk = f s.trunk := rfl

@[simp] theorem modTrunk_frame (f : Trunk → Trunk) (s : State) :
    (modTrunk f s).pending = s.pending ∧ (modTrunk f s).now = s.now ∧ (modTrunk f s).clk = s.clk ∧
    (modTrunk f s).free = s.free ∧ (modTrunk f s).emit = s.emit ∧ (modTrunk f s).sys = s.sys ∧
    (modTrunk f s).cmd = s.cmd ∧ (modTrunk f s).ina = s.ina ∧ (modTrunk f s).sched = s.sched ∧
    (modTrunk f s).time = s.time ∧ (modTrunk f s).flow = s.flow ∧ (modTrunk f s).twin = s.twin ∧
    (modTrunk f s).lsk = s.lsk ∧ (modTrunk f s).can = s.can ∧ (modTrunk f s).mvb = s.mvb ∧ (modTrunk f s).swc = s.swc ∧
    (modTrunk f s).fab = s.fab ∧ (modTrunk f s).bridge = s.bridge ∧ (modTrunk f s).pwr = s.pwr ∧
    (modTrunk f s).rep = s.rep ∧ (modTrunk f s).shelf = s.shelf ∧ (modTrunk f s).shadows = s.shadows ∧
    (modTrunk f s).summaries = s.summaries ∧ (modTrunk f s).summariesNew = s.summariesNew ∧
    (modTrunk f s).summariesAt = s.summariesAt :=
  ⟨rfl, rfl, rfl, rfl, rfl, rfl, rfl, rfl, rfl, rfl, rfl, rfl, rfl, rfl, rfl, rfl, rfl, rfl, rfl, rfl, rfl, rfl, rfl, rfl, rfl⟩

@[simp] theorem modTwin_twin (f : Twin → Twin) (s : State) : (modTwin f s).twin = f s.twin := rfl

@[simp] theorem modTwin_frame (f : Twin → Twin) (s : State) :
    (modTwin f s).pending = s.pending ∧ (modTwin f s).now = s.now ∧ (modTwin f s).clk = s.clk ∧
    (modTwin f s).free = s.free ∧ (modTwin f s).emit = s.emit ∧ (modTwin f s).sys = s.sys ∧ (modTwin f s).cmd = s.cmd ∧
    (modTwin f s).trunk = s.trunk ∧ (modTwin f s).ina = s.ina ∧ (modTwin f s).sched = s.sched ∧
    (modTwin f s).time = s.time ∧ (modTwin f s).flow = s.flow ∧ (modTwin f s).lsk = s.lsk ∧ (modTwin f s).can = s.can ∧
    (modTwin f s).mvb = s.mvb ∧ (modTwin f s).swc = s.swc ∧ (modTwin f s).fab = s.fab ∧
    (modTwin f s).bridge = s.bridge ∧ (modTwin f s).pwr = s.pwr ∧ (modTwin f s).rep = s.rep ∧
    (modTwin f s).shelf = s.shelf ∧ (modTwin f s).shadows = s.shadows ∧ (modTwin f s).summaries = s.summaries ∧
    (modTwin f s).summariesNew = s.summariesNew ∧ (modTwin f s).summariesAt = s.summariesAt :=
  ⟨rfl, rfl, rfl, rfl, rfl, rfl, rfl, rfl, rfl, rfl, rfl, rfl, rfl, rfl, rfl, rfl, rfl, rfl, rfl, rfl, rfl, rfl, rfl, rfl, rfl⟩

@[simp] theorem modSched_sched (f : Sched → Sched) (s : State) : (modSched f s).sched = f s.sched := rfl

@[simp] theorem modSched_frame (f : Sched → Sched) (s : State) :
    (modSched f s).pending = s.pending ∧ (modSched f s).now = s.now ∧ (modSched f s).clk = s.clk ∧
    (modSched f s).free = s.free ∧ (modSched f s).emit = s.emit ∧ (modSched f s).sys = s.sys ∧
    (modSched f s).cmd = s.cmd ∧ (modSched f s).trunk = s.trunk ∧ (modSched f s).ina = s.ina ∧
    (modSched f s).time = s.time ∧ (modSched f s).flow = s.flow ∧ (modSched f s).twin = s.twin ∧
    (modSched f s).lsk = s.lsk ∧ (modSched f s).can = s.can ∧ (modSched f s).mvb = s.mvb ∧ (modSched f s).swc = s.swc ∧
    (modSched f s).fab = s.fab ∧ (modSched f s).bridge = s.bridge ∧ (modSched f s).pwr = s.pwr ∧
    (modSched f s).rep = s.rep ∧ (modSched f s).shelf = s.shelf ∧ (modSched f s).shadows = s.shadows ∧
    (modSched f s).summaries = s.summaries ∧ (modSched f s).summariesNew = s.summariesNew ∧
    (modSched f s).summariesAt = s.summariesAt :=
  ⟨rfl, rfl, rfl, rfl, rfl, rfl, rfl, rfl, rfl, rfl, rfl, rfl, rfl, rfl, rfl, rfl, rfl, rfl, rfl, rfl, rfl, rfl, rfl, rfl, rfl⟩

@[simp] theorem modPwr_pwr (f : Pwr → Pwr) (s : State) : (modPwr f s).pwr = f s.pwr := rfl

@[simp] theorem modPwr_frame (f : Pwr → Pwr) (s : State) :
    (modPwr f s).pending = s.pending ∧ (modPwr f s).now = s.now ∧ (modPwr f s).clk = s.clk ∧
    (modPwr f s).free = s.free ∧ (modPwr f s).emit = s.emit ∧ (modPwr f s).sys = s.sys ∧ (modPwr f s).cmd = s.cmd ∧
    (modPwr f s).trunk = s.trunk ∧ (modPwr f s).ina = s.ina ∧ (modPwr f s).sched = s.sched ∧
    (modPwr f s).time = s.time ∧ (modPwr f s).flow = s.flow ∧ (modPwr f s).twin = s.twin ∧ (modPwr f s).lsk = s.lsk ∧
    (modPwr f s).can = s.can ∧ (modPwr f s).mvb = s.mvb ∧ (modPwr f s).swc = s.swc ∧ (modPwr f s).fab = s.fab ∧
    (modPwr f s).bridge = s.bridge ∧ (modPwr f s).rep = s.rep ∧ (modPwr f s).shelf = s.shelf ∧
    (modPwr f s).shadows = s.shadows ∧ (modPwr f s).summaries = s.summaries ∧
    (modPwr f s).summariesNew = s.summariesNew ∧ (modPwr f s).summariesAt = s.summariesAt :=
  ⟨rfl, rfl, rfl, rfl, rfl, rfl, rfl, rfl, rfl, rfl, rfl, rfl, rfl, rfl, rfl, rfl, rfl, rfl, rfl, rfl, rfl, rfl, rfl, rfl, rfl⟩

@[simp] theorem modRep_rep (f : Rep → Rep) (s : State) : (modRep f s).rep = f s.rep := rfl

@[simp] theorem modRep_frame (f : Rep → Rep) (s : State) :
    (modRep f s).pending = s.pending ∧ (modRep f s).now = s.now ∧ (modRep f s).clk = s.clk ∧
    (modRep f s).free = s.free ∧ (modRep f s).emit = s.emit ∧ (modRep f s).sys = s.sys ∧ (modRep f s).cmd = s.cmd ∧
    (modRep f s).trunk = s.trunk ∧ (modRep f s).ina = s.ina ∧ (modRep f s).sched = s.sched ∧
    (modRep f s).time = s.time ∧ (modRep f s).flow = s.flow ∧ (modRep f s).twin = s.twin ∧ (modRep f s).lsk = s.lsk ∧
    (modRep f s).can = s.can ∧ (modRep f s).mvb = s.mvb ∧ (modRep f s).swc = s.swc ∧ (modRep f s).fab = s.fab ∧
    (modRep f s).bridge = s.bridge ∧ (modRep f s).pwr = s.pwr ∧ (modRep f s).shelf = s.shelf ∧
    (modRep f s).shadows = s.shadows ∧ (modRep f s).summaries = s.summaries ∧
    (modRep f s).summariesNew = s.summariesNew ∧ (modRep f s).summariesAt = s.summariesAt :=
  ⟨rfl, rfl, rfl, rfl, rfl, rfl, rfl, rfl, rfl, rfl, rfl, rfl, rfl, rfl, rfl, rfl, rfl, rfl, rfl, rfl, rfl, rfl, rfl, rfl, rfl⟩

@[simp] theorem modLsk_lsk (f : Lsk → Lsk) (s : State) : (modLsk f s).lsk = f s.lsk := rfl

@[simp] theorem modLsk_frame (f : Lsk → Lsk) (s : State) :
    (modLsk f s).pending = s.pending ∧ (modLsk f s).now = s.now ∧ (modLsk f s).clk = s.clk ∧
    (modLsk f s).free = s.free ∧ (modLsk f s).emit = s.emit ∧ (modLsk f s).sys = s.sys ∧ (modLsk f s).cmd = s.cmd ∧
    (modLsk f s).trunk = s.trunk ∧ (modLsk f s).ina = s.ina ∧ (modLsk f s).sched = s.sched ∧
    (modLsk f s).time = s.time ∧ (modLsk f s).flow = s.flow ∧ (modLsk f s).twin = s.twin ∧ (modLsk f s).can = s.can ∧
    (modLsk f s).mvb = s.mvb ∧ (modLsk f s).swc = s.swc ∧ (modLsk f s).fab = s.fab ∧ (modLsk f s).bridge = s.bridge ∧
    (modLsk f s).pwr = s.pwr ∧ (modLsk f s).rep = s.rep ∧ (modLsk f s).shelf = s.shelf ∧
    (modLsk f s).shadows = s.shadows ∧ (modLsk f s).summaries = s.summaries ∧
    (modLsk f s).summariesNew = s.summariesNew ∧ (modLsk f s).summariesAt = s.summariesAt :=
  ⟨rfl, rfl, rfl, rfl, rfl, rfl, rfl, rfl, rfl, rfl, rfl, rfl, rfl, rfl, rfl, rfl, rfl, rfl, rfl, rfl, rfl, rfl, rfl, rfl, rfl⟩

@[simp] theorem modFabric_fab (f : Fab → Fab) (s : State) : (modFabric f s).fab = f s.fab := rfl

@[simp] theorem modFabric_frame (f : Fab → Fab) (s : State) :
    (modFabric f s).pending = s.pending ∧ (modFabric f s).now = s.now ∧ (modFabric f s).clk = s.clk ∧
    (modFabric f s).free = s.free ∧ (modFabric f s).emit = s.emit ∧ (modFabric f s).sys = s.sys ∧
    (modFabric f s).cmd = s.cmd ∧ (modFabric f s).trunk = s.trunk ∧ (modFabric f s).ina = s.ina ∧
    (modFabric f s).sched = s.sched ∧ (modFabric f s).time = s.time ∧ (modFabric f s).flow = s.flow ∧
    (modFabric f s).twin = s.twin ∧ (modFabric f s).lsk = s.lsk ∧ (modFabric f s).can = s.can ∧
    (modFabric f s).mvb = s.mvb ∧ (modFabric f s).swc = s.swc ∧ (modFabric f s).bridge = s.bridge ∧
    (modFabric f s).pwr = s.pwr ∧ (modFabric f s).rep = s.rep ∧ (modFabric f s).shelf = s.shelf ∧
    (modFabric f s).shadows = s.shadows ∧ (modFabric f s).summaries = s.summaries ∧
    (modFabric f s).summariesNew = s.summariesNew ∧ (modFabric f s).summariesAt = s.summariesAt :=
  ⟨rfl, rfl, rfl, rfl, rfl, rfl, rfl, rfl, rfl, rfl, rfl, rfl, rfl, rfl, rfl, rfl, rfl, rfl, rfl, rfl, rfl, rfl, rfl, rfl, rfl⟩

@[simp] theorem modBridge_bridge (f : Bridge → Bridge) (s : State) : (modBridge f s).bridge = f s.bridge := rfl

@[simp] theorem modBridge_frame (f : Bridge → Bridge) (s : State) :
    (modBridge f s).pending = s.pending ∧ (modBridge f s).now = s.now ∧ (modBridge f s).clk = s.clk ∧
    (modBridge f s).free = s.free ∧ (modBridge f s).emit = s.emit ∧ (modBridge f s).sys = s.sys ∧
    (modBridge f s).cmd = s.cmd ∧ (modBridge f s).trunk = s.trunk ∧ (modBridge f s).ina = s.ina ∧
    (modBridge f s).sched = s.sched ∧ (modBridge f s).time = s.time ∧ (modBridge f s).flow = s.flow ∧
    (modBridge f s).twin = s.twin ∧ (modBridge f s).lsk = s.lsk ∧ (modBridge f s).can = s.can ∧
    (modBridge f s).mvb = s.mvb ∧ (modBridge f s).swc = s.swc ∧ (modBridge f s).fab = s.fab ∧
    (modBridge f s).pwr = s.pwr ∧ (modBridge f s).rep = s.rep ∧ (modBridge f s).shelf = s.shelf ∧
    (modBridge f s).shadows = s.shadows ∧ (modBridge f s).summaries = s.summaries ∧
    (modBridge f s).summariesNew = s.summariesNew ∧ (modBridge f s).summariesAt = s.summariesAt :=
  ⟨rfl, rfl, rfl, rfl, rfl, rfl, rfl, rfl, rfl, rfl, rfl, rfl, rfl, rfl, rfl, rfl, rfl, rfl, rfl, rfl, rfl, rfl, rfl, rfl, rfl⟩

/-! ## Reading a part back -/

theorem portOf_modPort_self (p : Nat) (f : Port → Port) (s : State) (h : p < s.trunk.ports.length) :
    portOf (modPort p f s) p = f (portOf s p) := getD_updAt_self _ _ _ _ h

theorem portOf_modPort_ne (p : Nat) (f : Port → Port) (s : State) (j : Nat) (h : p ≠ j) :
    portOf (modPort p f s) j = portOf s j := getD_updAt_ne _ _ _ _ _ h

theorem mbxOf_modMbx_self (n : Nat) (f : Mailbox → Mailbox) (s : State) (h : n < s.cmd.mbx.length) :
    mbxOf (modMbx n f s) n = f (mbxOf s n) := getD_updAt_self _ _ _ _ h

theorem mbxOf_modMbx_ne (n : Nat) (f : Mailbox → Mailbox) (s : State) (j : Nat) (h : n ≠ j) :
    mbxOf (modMbx n f s) j = mbxOf s j := getD_updAt_ne _ _ _ _ _ h

theorem canOf_modCan_self (c : Nat) (f : Can → Can) (s : State) (h : c < s.can.length) :
    canOf (modCan c f s) c = f (canOf s c) := getD_updAt_self _ _ _ _ h

theorem canOf_modCan_ne (c : Nat) (f : Can → Can) (s : State) (j : Nat) (h : c ≠ j) :
    canOf (modCan c f s) j = canOf s j := getD_updAt_ne _ _ _ _ _ h

theorem mvbOf_modMvb_self (g : Nat) (f : Mvb → Mvb) (s : State) (h : g < s.mvb.length) :
    mvbOf (modMvb g f s) g = f (mvbOf s g) := getD_updAt_self _ _ _ _ h

theorem mvbOf_modMvb_ne (g : Nat) (f : Mvb → Mvb) (s : State) (j : Nat) (h : g ≠ j) :
    mvbOf (modMvb g f s) j = mvbOf s j := getD_updAt_ne _ _ _ _ _ h

theorem pairOf_modPair_self (l : Nat) (f : Pair → Pair) (s : State) (h : l < s.lsk.pairs.length) :
    pairOf (modPair l f s) l = f (pairOf s l) := getD_updAt_self _ _ _ _ h

theorem pairOf_modPair_ne (l : Nat) (f : Pair → Pair) (s : State) (j : Nat) (h : l ≠ j) :
    pairOf (modPair l f s) j = pairOf s j := getD_updAt_ne _ _ _ _ _ h

theorem tioOf_modTio_self (n : Nat) (f : Tio → Tio) (s : State) (h : n < s.time.tio.length) :
    tioOf (modTio n f s) n = f (tioOf s n) := getD_updAt_self _ _ _ _ h

theorem tioOf_modTio_ne (n : Nat) (f : Tio → Tio) (s : State) (j : Nat) (h : n ≠ j) :
    tioOf (modTio n f s) j = tioOf s j := getD_updAt_ne _ _ _ _ _ h

theorem fabOf_modFab_self (k : Nat) (f : FabLink → FabLink) (s : State) (h : k < s.fab.links.length) :
    fabOf (modFab k f s) k = f (fabOf s k) := getD_updAt_self _ _ _ _ h

theorem fabOf_modFab_ne (k : Nat) (f : FabLink → FabLink) (s : State) (j : Nat) (h : k ≠ j) :
    fabOf (modFab k f s) j = fabOf s j := getD_updAt_ne _ _ _ _ _ h

theorem swOf_modSw_self (p : Nat) (f : SwPort → SwPort) (s : State) (h : p < s.swc.ports.length) :
    swOf (modSw p f s) p = f (swOf s p) := getD_updAt_self _ _ _ _ h

theorem swOf_modSw_ne (p : Nat) (f : SwPort → SwPort) (s : State) (j : Nat) (h : p ≠ j) :
    swOf (modSw p f s) j = swOf s j := getD_updAt_ne _ _ _ _ _ h

end Sys2Proof.Machine
end

