-- ==== Sys2Proof/Laws/Ops.lean ====
section
/-! SUPPORT. What the shared operations can do, said once: what sending, taking a free value, raising a vector or an event
and completing a queued command leave alone. -/

namespace Sys2Proof.Machine

@[simp] theorem begin__frame (dt : Nat) (s : State) :
    (begin_ dt s).pending = s.pending ∧ (begin_ dt s).free = s.free ∧ (begin_ dt s).sys = s.sys ∧
    (begin_ dt s).cmd = s.cmd ∧ (begin_ dt s).trunk = s.trunk ∧ (begin_ dt s).ina = s.ina ∧
    (begin_ dt s).sched = s.sched ∧ (begin_ dt s).time = { s.time with carry := countParts dt s % 100000000000000000 } ∧ (begin_ dt s).flow = s.flow ∧
    (begin_ dt s).twin = s.twin ∧ (begin_ dt s).lsk = s.lsk ∧ (begin_ dt s).can = s.can ∧ (begin_ dt s).mvb = s.mvb ∧
    (begin_ dt s).swc = s.swc ∧ (begin_ dt s).fab = s.fab ∧ (begin_ dt s).bridge = s.bridge ∧
    (begin_ dt s).pwr = s.pwr ∧ (begin_ dt s).rep = s.rep ∧ (begin_ dt s).shelf = s.shelf ∧
    (begin_ dt s).shadows = s.shadows ∧ (begin_ dt s).summaries = s.summaries ∧
    (begin_ dt s).summariesNew = s.summariesNew ∧ (begin_ dt s).summariesAt = s.summariesAt ∧
    (begin_ dt s).now = ((s.now : Int) + countParts dt s / 100000000000000000).toNat ∧ (begin_ dt s).clk = s.clk + dt ∧ (begin_ dt s).emit = [] := by
  and_intros <;> rfl

@[simp] theorem emit_frame (e : Emission) (s : State) :
    (emit e s).pending = s.pending ∧ (emit e s).now = s.now ∧ (emit e s).clk = s.clk ∧ (emit e s).free = s.free ∧
    (emit e s).sys = s.sys ∧ (emit e s).cmd = s.cmd ∧ (emit e s).trunk = s.trunk ∧ (emit e s).ina = s.ina ∧
    (emit e s).sched = s.sched ∧ (emit e s).time = s.time ∧ (emit e s).flow = s.flow ∧ (emit e s).twin = s.twin ∧
    (emit e s).lsk = s.lsk ∧ (emit e s).can = s.can ∧ (emit e s).mvb = s.mvb ∧ (emit e s).swc = s.swc ∧
    (emit e s).fab = s.fab ∧ (emit e s).bridge = s.bridge ∧ (emit e s).pwr = s.pwr ∧ (emit e s).rep = s.rep ∧
    (emit e s).shelf = s.shelf ∧ (emit e s).shadows = s.shadows ∧ (emit e s).summaries = s.summaries ∧
    (emit e s).summariesNew = s.summariesNew ∧ (emit e s).summariesAt = s.summariesAt := by
  unfold emit; split <;> simp

@[simp] theorem takeFree_frame (n : Nat) (s : State) :
    ((takeFree n s).2).pending = s.pending ∧ ((takeFree n s).2).now = s.now ∧ ((takeFree n s).2).clk = s.clk ∧
    ((takeFree n s).2).emit = s.emit ∧ ((takeFree n s).2).sys = s.sys ∧ ((takeFree n s).2).cmd = s.cmd ∧
    ((takeFree n s).2).trunk = s.trunk ∧ ((takeFree n s).2).ina = s.ina ∧ ((takeFree n s).2).sched = s.sched ∧
    ((takeFree n s).2).time = s.time ∧ ((takeFree n s).2).flow = s.flow ∧ ((takeFree n s).2).twin = s.twin ∧
    ((takeFree n s).2).lsk = s.lsk ∧ ((takeFree n s).2).can = s.can ∧ ((takeFree n s).2).mvb = s.mvb ∧
    ((takeFree n s).2).swc = s.swc ∧ ((takeFree n s).2).fab = s.fab ∧ ((takeFree n s).2).bridge = s.bridge ∧
    ((takeFree n s).2).pwr = s.pwr ∧ ((takeFree n s).2).rep = s.rep ∧ ((takeFree n s).2).shelf = s.shelf ∧
    ((takeFree n s).2).shadows = s.shadows ∧ ((takeFree n s).2).summaries = s.summaries ∧
    ((takeFree n s).2).summariesNew = s.summariesNew ∧ ((takeFree n s).2).summariesAt = s.summariesAt ∧
    (takeFree n s).2.free = s.free + 1 ∧ (takeFree n s).1 = Config.freeNat s.free % n := by
  simp [takeFree]

@[simp] theorem raiseVector_frame (v : BitVec 5) (s : State) :
    (raiseVector v s).pending = s.pending ∧ (raiseVector v s).now = s.now ∧ (raiseVector v s).clk = s.clk ∧
    (raiseVector v s).free = s.free ∧ (raiseVector v s).sys = s.sys ∧ (raiseVector v s).cmd = s.cmd ∧
    (raiseVector v s).trunk = s.trunk ∧ (raiseVector v s).ina = s.ina ∧ (raiseVector v s).sched = s.sched ∧
    (raiseVector v s).time = s.time ∧ (raiseVector v s).flow = s.flow ∧ (raiseVector v s).twin = s.twin ∧
    (raiseVector v s).lsk = s.lsk ∧ (raiseVector v s).can = s.can ∧ (raiseVector v s).mvb = s.mvb ∧
    (raiseVector v s).swc = s.swc ∧ (raiseVector v s).fab = s.fab ∧ (raiseVector v s).pwr = s.pwr ∧
    (raiseVector v s).rep = s.rep ∧ (raiseVector v s).shelf = s.shelf ∧ (raiseVector v s).shadows = s.shadows ∧
    (raiseVector v s).summaries = s.summaries ∧ (raiseVector v s).summariesNew = s.summariesNew ∧
    (raiseVector v s).summariesAt = s.summariesAt := by
  unfold raiseVector; split <;> simp

@[simp] theorem raiseQueue_frame (s : State) :
    (raiseQueue s).pending = s.pending ∧ (raiseQueue s).now = s.now ∧ (raiseQueue s).clk = s.clk ∧
    (raiseQueue s).free = s.free ∧ (raiseQueue s).sys = s.sys ∧ (raiseQueue s).trunk = s.trunk ∧
    (raiseQueue s).ina = s.ina ∧ (raiseQueue s).sched = s.sched ∧ (raiseQueue s).time = s.time ∧
    (raiseQueue s).flow = s.flow ∧ (raiseQueue s).twin = s.twin ∧ (raiseQueue s).lsk = s.lsk ∧
    (raiseQueue s).can = s.can ∧ (raiseQueue s).mvb = s.mvb ∧ (raiseQueue s).swc = s.swc ∧ (raiseQueue s).fab = s.fab ∧
    (raiseQueue s).pwr = s.pwr ∧ (raiseQueue s).rep = s.rep ∧ (raiseQueue s).shelf = s.shelf ∧
    (raiseQueue s).shadows = s.shadows ∧ (raiseQueue s).summaries = s.summaries ∧
    (raiseQueue s).summariesNew = s.summariesNew ∧ (raiseQueue s).summariesAt = s.summariesAt ∧
    (raiseQueue s).cmd.mbx = s.cmd.mbx ∧ (raiseQueue s).cmd.queued = s.cmd.queued ∧ (raiseQueue s).cmd.mask = s.cmd.mask ∧ (raiseQueue s).cmd.log = s.cmd.log ∧ (raiseQueue s).cmd.cycleEvents = s.cmd.cycleEvents ∧ (raiseQueue s).cmd.evSeq = s.cmd.evSeq := by
  simp [raiseQueue]

@[simp] theorem queueEvent_frame (e : Event) (s : State) :
    (queueEvent e s).pending = s.pending ∧ (queueEvent e s).now = s.now ∧ (queueEvent e s).clk = s.clk ∧
    (queueEvent e s).free = s.free ∧ (queueEvent e s).sys = s.sys ∧ (queueEvent e s).trunk = s.trunk ∧
    (queueEvent e s).ina = s.ina ∧ (queueEvent e s).sched = s.sched ∧ (queueEvent e s).time = s.time ∧
    (queueEvent e s).flow = s.flow ∧ (queueEvent e s).twin = s.twin ∧ (queueEvent e s).lsk = s.lsk ∧
    (queueEvent e s).can = s.can ∧ (queueEvent e s).mvb = s.mvb ∧ (queueEvent e s).swc = s.swc ∧
    (queueEvent e s).fab = s.fab ∧ (queueEvent e s).pwr = s.pwr ∧ (queueEvent e s).rep = s.rep ∧
    (queueEvent e s).shelf = s.shelf ∧ (queueEvent e s).shadows = s.shadows ∧
    (queueEvent e s).summaries = s.summaries ∧ (queueEvent e s).summariesNew = s.summariesNew ∧
    (queueEvent e s).summariesAt = s.summariesAt ∧
    (queueEvent e s).cmd.mbx = s.cmd.mbx ∧ (queueEvent e s).cmd.queued = s.cmd.queued ∧ (queueEvent e s).cmd.mask = s.cmd.mask ∧ (queueEvent e s).cmd.log = s.cmd.log ∧ (queueEvent e s).cmd.cycleEvents = s.cmd.cycleEvents ∧ (queueEvent e s).cmd.evSeq = s.cmd.evSeq := by
  unfold queueEvent; dsimp only; (repeat' split) <;> simp

@[simp] theorem recordEvent_frame (e : Event) (s : State) :
    (recordEvent e s).pending = s.pending ∧ (recordEvent e s).now = s.now ∧ (recordEvent e s).clk = s.clk ∧
    (recordEvent e s).free = s.free ∧ (recordEvent e s).emit = s.emit ∧ (recordEvent e s).sys = s.sys ∧
    (recordEvent e s).trunk = s.trunk ∧ (recordEvent e s).ina = s.ina ∧ (recordEvent e s).sched = s.sched ∧
    (recordEvent e s).time = s.time ∧ (recordEvent e s).twin = s.twin ∧ (recordEvent e s).lsk = s.lsk ∧
    (recordEvent e s).can = s.can ∧ (recordEvent e s).mvb = s.mvb ∧ (recordEvent e s).swc = s.swc ∧
    (recordEvent e s).fab = s.fab ∧ (recordEvent e s).bridge = s.bridge ∧ (recordEvent e s).pwr = s.pwr ∧
    (recordEvent e s).rep = s.rep ∧ (recordEvent e s).shelf = s.shelf ∧ (recordEvent e s).shadows = s.shadows ∧
    (recordEvent e s).summaries = s.summaries ∧ (recordEvent e s).summariesNew = s.summariesNew ∧
    (recordEvent e s).summariesAt = s.summariesAt ∧
    (recordEvent e s).cmd.mbx = s.cmd.mbx ∧ (recordEvent e s).cmd.queued = s.cmd.queued ∧ (recordEvent e s).cmd.mask = s.cmd.mask ∧ (recordEvent e s).cmd.cycleEvents = s.cmd.cycleEvents ++ [e] ∧ (recordEvent e s).cmd.evSeq = s.cmd.evSeq + 1 := by
  simp [recordEvent]

@[simp] theorem raiseAt_frame (t code : Nat) (param : List Byte) (s : State) :
    (raiseAt t code param s).pending = s.pending ∧ (raiseAt t code param s).now = s.now ∧
    (raiseAt t code param s).clk = s.clk ∧ (raiseAt t code param s).free = s.free ∧
    (raiseAt t code param s).sys = s.sys ∧ (raiseAt t code param s).trunk = s.trunk ∧
    (raiseAt t code param s).ina = s.ina ∧ (raiseAt t code param s).sched = s.sched ∧
    (raiseAt t code param s).time = s.time ∧ (raiseAt t code param s).twin = s.twin ∧
    (raiseAt t code param s).lsk = s.lsk ∧ (raiseAt t code param s).can = s.can ∧
    (raiseAt t code param s).mvb = s.mvb ∧ (raiseAt t code param s).swc = s.swc ∧
    (raiseAt t code param s).fab = s.fab ∧ (raiseAt t code param s).pwr = s.pwr ∧
    (raiseAt t code param s).rep = s.rep ∧ (raiseAt t code param s).shelf = s.shelf ∧
    (raiseAt t code param s).shadows = s.shadows ∧ (raiseAt t code param s).summaries = s.summaries ∧
    (raiseAt t code param s).summariesNew = s.summariesNew ∧ (raiseAt t code param s).summariesAt = s.summariesAt ∧
    (raiseAt t code param s).cmd.mbx = s.cmd.mbx ∧ (raiseAt t code param s).cmd.queued = s.cmd.queued ∧ (raiseAt t code param s).cmd.mask = s.cmd.mask ∧ (raiseAt t code param s).cmd.cycleEvents = s.cmd.cycleEvents ++ [newEvent t code param s] ∧ (raiseAt t code param s).cmd.evSeq = s.cmd.evSeq + 1 := by
  unfold raiseAt; dsimp only; split <;> simp

@[simp] theorem raise_frame (code : Nat) (param : List Byte) (s : State) :
    (raise code param s).pending = s.pending ∧ (raise code param s).now = s.now ∧ (raise code param s).clk = s.clk ∧
    (raise code param s).free = s.free ∧ (raise code param s).sys = s.sys ∧ (raise code param s).trunk = s.trunk ∧
    (raise code param s).ina = s.ina ∧ (raise code param s).sched = s.sched ∧ (raise code param s).time = s.time ∧
    (raise code param s).twin = s.twin ∧ (raise code param s).lsk = s.lsk ∧ (raise code param s).can = s.can ∧
    (raise code param s).mvb = s.mvb ∧ (raise code param s).swc = s.swc ∧ (raise code param s).fab = s.fab ∧
    (raise code param s).pwr = s.pwr ∧ (raise code param s).rep = s.rep ∧ (raise code param s).shelf = s.shelf ∧
    (raise code param s).shadows = s.shadows ∧ (raise code param s).summaries = s.summaries ∧
    (raise code param s).summariesNew = s.summariesNew ∧ (raise code param s).summariesAt = s.summariesAt ∧
    (raise code param s).cmd.mbx = s.cmd.mbx ∧ (raise code param s).cmd.queued = s.cmd.queued ∧ (raise code param s).cmd.mask = s.cmd.mask ∧ (raise code param s).cmd.cycleEvents = s.cmd.cycleEvents ++ [newEvent s.now code param s] ∧ (raise code param s).cmd.evSeq = s.cmd.evSeq + 1 := by
  unfold raise; simp

@[simp] theorem recordEvent_flow (e : Event) (s : State) :
    (recordEvent e s).flow.ctx = s.flow.ctx ∧ (recordEvent e s).flow.ctxNext = s.flow.ctxNext ∧ (recordEvent e s).flow.run = s.flow.run ∧
    (recordEvent e s).flow.bank0 = s.flow.bank0 ∧ (recordEvent e s).flow.bank1 = s.flow.bank1 ∧ (recordEvent e s).flow.outBank1 = s.flow.outBank1 ∧
    (recordEvent e s).flow.cons = s.flow.cons ∧ (recordEvent e s).flow.nextOpen = s.flow.nextOpen ∧ (recordEvent e s).flow.opening = s.flow.opening ∧
    (recordEvent e s).flow.heldWrites = s.flow.heldWrites ∧ (recordEvent e s).flow.release = s.flow.release ∧
    (recordEvent e s).flow.relMask = s.flow.relMask ∧ (recordEvent e s).flow.relMaskNext = s.flow.relMaskNext ∧
    (recordEvent e s).flow.relPend = s.flow.relPend ∧ (recordEvent e s).flow.relLate = s.flow.relLate ∧
    (recordEvent e s).flow.deadline = s.flow.deadline ∧ (recordEvent e s).flow.overrunNow = s.flow.overrunNow ∧
    (recordEvent e s).flow.pubCycle = s.flow.pubCycle ∧ (recordEvent e s).flow.pdiCycle = s.flow.pdiCycle ∧ (recordEvent e s).flow.ctr = s.flow.ctr ∧
    (recordEvent e s).flow.irqEn = s.flow.irqEn ∧ (recordEvent e s).flow.vector = s.flow.vector ∧ (recordEvent e s).flow.key = s.flow.key ∧
    (recordEvent e s).flow.epoch = s.flow.epoch ∧ (recordEvent e s).flow.keyGen = s.flow.keyGen ∧ (recordEvent e s).flow.txPn = s.flow.txPn ∧
    (recordEvent e s).flow.rxPn = s.flow.rxPn ∧ (recordEvent e s).flow.islandOut = s.flow.islandOut ∧
    (recordEvent e s).flow.sessions = s.flow.sessions ∧ (recordEvent e s).flow.nextSid = s.flow.nextSid ∧ (recordEvent e s).flow.saved = s.flow.saved := by
  and_intros <;> rfl

@[simp] theorem raiseAt_flow (t code : Nat) (param : List Byte) (s : State) :
    (raiseAt t code param s).flow.ctx = s.flow.ctx ∧ (raiseAt t code param s).flow.ctxNext = s.flow.ctxNext ∧
    (raiseAt t code param s).flow.run = s.flow.run ∧ (raiseAt t code param s).flow.bank0 = s.flow.bank0 ∧
    (raiseAt t code param s).flow.bank1 = s.flow.bank1 ∧ (raiseAt t code param s).flow.outBank1 = s.flow.outBank1 ∧
    (raiseAt t code param s).flow.cons = s.flow.cons ∧ (raiseAt t code param s).flow.nextOpen = s.flow.nextOpen ∧
    (raiseAt t code param s).flow.opening = s.flow.opening ∧ (raiseAt t code param s).flow.heldWrites = s.flow.heldWrites ∧
    (raiseAt t code param s).flow.release = s.flow.release ∧ (raiseAt t code param s).flow.relMask = s.flow.relMask ∧
    (raiseAt t code param s).flow.relMaskNext = s.flow.relMaskNext ∧ (raiseAt t code param s).flow.relPend = s.flow.relPend ∧
    (raiseAt t code param s).flow.relLate = s.flow.relLate ∧ (raiseAt t code param s).flow.deadline = s.flow.deadline ∧
    (raiseAt t code param s).flow.overrunNow = s.flow.overrunNow ∧ (raiseAt t code param s).flow.pubCycle = s.flow.pubCycle ∧
    (raiseAt t code param s).flow.pdiCycle = s.flow.pdiCycle ∧ (raiseAt t code param s).flow.ctr = s.flow.ctr ∧
    (raiseAt t code param s).flow.irqEn = s.flow.irqEn ∧ (raiseAt t code param s).flow.vector = s.flow.vector ∧
    (raiseAt t code param s).flow.key = s.flow.key ∧ (raiseAt t code param s).flow.epoch = s.flow.epoch ∧
    (raiseAt t code param s).flow.keyGen = s.flow.keyGen ∧ (raiseAt t code param s).flow.txPn = s.flow.txPn ∧
    (raiseAt t code param s).flow.rxPn = s.flow.rxPn ∧ (raiseAt t code param s).flow.islandOut = s.flow.islandOut ∧
    (raiseAt t code param s).flow.sessions = s.flow.sessions ∧ (raiseAt t code param s).flow.nextSid = s.flow.nextSid ∧
    (raiseAt t code param s).flow.saved = s.flow.saved := by
  unfold raiseAt; dsimp only; split <;> simp

@[simp] theorem raise_flow (code : Nat) (param : List Byte) (s : State) :
    (raise code param s).flow.ctx = s.flow.ctx ∧ (raise code param s).flow.ctxNext = s.flow.ctxNext ∧ (raise code param s).flow.run = s.flow.run ∧
    (raise code param s).flow.bank0 = s.flow.bank0 ∧ (raise code param s).flow.bank1 = s.flow.bank1 ∧
    (raise code param s).flow.outBank1 = s.flow.outBank1 ∧ (raise code param s).flow.cons = s.flow.cons ∧
    (raise code param s).flow.nextOpen = s.flow.nextOpen ∧ (raise code param s).flow.opening = s.flow.opening ∧
    (raise code param s).flow.heldWrites = s.flow.heldWrites ∧ (raise code param s).flow.release = s.flow.release ∧
    (raise code param s).flow.relMask = s.flow.relMask ∧ (raise code param s).flow.relMaskNext = s.flow.relMaskNext ∧
    (raise code param s).flow.relPend = s.flow.relPend ∧ (raise code param s).flow.relLate = s.flow.relLate ∧
    (raise code param s).flow.deadline = s.flow.deadline ∧ (raise code param s).flow.overrunNow = s.flow.overrunNow ∧
    (raise code param s).flow.pubCycle = s.flow.pubCycle ∧ (raise code param s).flow.pdiCycle = s.flow.pdiCycle ∧
    (raise code param s).flow.ctr = s.flow.ctr ∧ (raise code param s).flow.irqEn = s.flow.irqEn ∧ (raise code param s).flow.vector = s.flow.vector ∧
    (raise code param s).flow.key = s.flow.key ∧ (raise code param s).flow.epoch = s.flow.epoch ∧ (raise code param s).flow.keyGen = s.flow.keyGen ∧
    (raise code param s).flow.txPn = s.flow.txPn ∧ (raise code param s).flow.rxPn = s.flow.rxPn ∧
    (raise code param s).flow.islandOut = s.flow.islandOut ∧ (raise code param s).flow.sessions = s.flow.sessions ∧
    (raise code param s).flow.nextSid = s.flow.nextSid ∧ (raise code param s).flow.saved = s.flow.saved := by
  unfold raise; simp

@[simp] theorem raiseQueue_cmd (s : State) :
    (raiseQueue s).cmd.nextSeq = s.cmd.nextSeq ∧ (raiseQueue s).cmd.ctr = s.cmd.ctr ∧ (raiseQueue s).cmd.rd = s.cmd.rd ∧
    (raiseQueue s).cmd.rdErr = s.cmd.rdErr ∧ (raiseQueue s).cmd.evqVector = s.cmd.evqVector ∧ (raiseQueue s).cmd.evqIrqEn = s.cmd.evqIrqEn ∧
    (raiseQueue s).cmd.evqHold = s.cmd.evqHold ∧ (raiseQueue s).cmd.evqThresh = s.cmd.evqThresh := by
  simp [raiseQueue]

@[simp] theorem queueEvent_cmd (e : Event) (s : State) :
    (queueEvent e s).cmd.nextSeq = s.cmd.nextSeq ∧ (queueEvent e s).cmd.ctr = s.cmd.ctr ∧ (queueEvent e s).cmd.rd = s.cmd.rd ∧
    (queueEvent e s).cmd.rdErr = s.cmd.rdErr ∧ (queueEvent e s).cmd.evqVector = s.cmd.evqVector ∧
    (queueEvent e s).cmd.evqIrqEn = s.cmd.evqIrqEn ∧ (queueEvent e s).cmd.evqHold = s.cmd.evqHold ∧
    (queueEvent e s).cmd.evqThresh = s.cmd.evqThresh := by
  unfold queueEvent; dsimp only; (repeat' split) <;> simp

@[simp] theorem recordEvent_cmd (e : Event) (s : State) :
    (recordEvent e s).cmd.nextSeq = s.cmd.nextSeq ∧ (recordEvent e s).cmd.ctr = s.cmd.ctr ∧ (recordEvent e s).cmd.rd = s.cmd.rd ∧
    (recordEvent e s).cmd.rdErr = s.cmd.rdErr ∧ (recordEvent e s).cmd.evqVector = s.cmd.evqVector ∧
    (recordEvent e s).cmd.evqIrqEn = s.cmd.evqIrqEn ∧ (recordEvent e s).cmd.evqHold = s.cmd.evqHold ∧
    (recordEvent e s).cmd.evqThresh = s.cmd.evqThresh := by
  and_intros <;> rfl

@[simp] theorem raiseAt_cmd (t code : Nat) (param : List Byte) (s : State) :
    (raiseAt t code param s).cmd.nextSeq = s.cmd.nextSeq ∧ (raiseAt t code param s).cmd.ctr = s.cmd.ctr ∧
    (raiseAt t code param s).cmd.rd = s.cmd.rd ∧ (raiseAt t code param s).cmd.rdErr = s.cmd.rdErr ∧
    (raiseAt t code param s).cmd.evqVector = s.cmd.evqVector ∧ (raiseAt t code param s).cmd.evqIrqEn = s.cmd.evqIrqEn ∧
    (raiseAt t code param s).cmd.evqHold = s.cmd.evqHold ∧ (raiseAt t code param s).cmd.evqThresh = s.cmd.evqThresh := by
  unfold raiseAt; dsimp only; split <;> simp

@[simp] theorem raise_cmd (code : Nat) (param : List Byte) (s : State) :
    (raise code param s).cmd.nextSeq = s.cmd.nextSeq ∧ (raise code param s).cmd.ctr = s.cmd.ctr ∧ (raise code param s).cmd.rd = s.cmd.rd ∧
    (raise code param s).cmd.rdErr = s.cmd.rdErr ∧ (raise code param s).cmd.evqVector = s.cmd.evqVector ∧
    (raise code param s).cmd.evqIrqEn = s.cmd.evqIrqEn ∧ (raise code param s).cmd.evqHold = s.cmd.evqHold ∧
    (raise code param s).cmd.evqThresh = s.cmd.evqThresh := by
  unfold raise; simp

end Sys2Proof.Machine
end

