-- ==== Sys2Proof/Laws/Mailbox.lean ====
section
/-! SUPPORT. What a mailbox command can do, said once: a ring that the node takes runs the command's chapter and completes in
its mailbox (`submit_done`, `submit_queued`). -/

namespace Sys2Proof.Machine

theorem Sound.mbx {s : State} (h : Sound s) : s.cmd.mbx.length = 8 := congrArg Parts.mailboxes h
theorem Sound.ports {s : State} (h : Sound s) : s.trunk.ports.length = 4 := congrArg Parts.trunkPorts h
theorem Sound.can {s : State} (h : Sound s) : s.can.length = 12 := congrArg Parts.canChannels h
theorem Sound.mvb {s : State} (h : Sound s) : s.mvb.length = 2 := congrArg Parts.mvbSegments h
theorem Sound.pairs {s : State} (h : Sound s) : s.lsk.pairs.length = 4 := congrArg Parts.pairs h
theorem Sound.links {s : State} (h : Sound s) : s.fab.links.length = 4 := congrArg Parts.fabricLinks h
theorem Sound.tio {s : State} (h : Sound s) : s.time.tio.length = 6 := congrArg Parts.timedPorts h
theorem Sound.doms {s : State} (h : Sound s) : s.pwr.doms.length = 12 := congrArg Parts.domains h

@[simp] theorem mbxOf_modCmd_ctr (s : State) (n : Nat) (f : Cmd → Cmd) (h : (f s.cmd).mbx = s.cmd.mbx) :
    mbxOf (modCmd f s) n = mbxOf s n := by simp [mbxOf, h]

/-- A mailbox reads the same in states with the same mailboxes. -/
theorem mbxOf_congr {s t : State} (h : t.cmd.mbx = s.cmd.mbx) (n : Nat) : mbxOf t n = mbxOf s n := by simp [mbxOf, h]

/-- R552: what taking a ring leaves. -/
theorem taken_mbx (op dt : Nat) (r : Ring) (s : State) (h : Sound s) :
    mbxOf (taken op dt r s) r.mbx = { mbxOf s r.mbx with
      opcode := BitVec.ofNat 16 op, tag := r.tag, reqLen := BitVec.ofNat 16 r.req.length
      payload := memWrite (mbxOf s r.mbx).payload 0 r.req, state := 1, done := false
      srcIf := BitVec.ofNat 8 (srcIf r.src), cmdSeq := s.cmd.nextSeq, ring := true, ringClk := s.clk + dt } := by
  have h8 : r.mbx.val < s.cmd.mbx.length := by rw [h.mbx]; exact r.mbx.isLt
  unfold taken acceptRing loadRequest
  rw [mbxOf_modCmd_ctr _ _ _ rfl, mbxOf_modMbx_self _ _ _ (by simpa using h8), mbxOf_modMbx_self _ _ _ (by simpa using h8)]
  simp [mbxOf]

@[simp] theorem taken_frame (op dt : Nat) (r : Ring) (s : State) :
    (taken op dt r s).pending = s.pending ∧ (taken op dt r s).now = (begin_ dt s).now ∧ (taken op dt r s).clk = s.clk + dt ∧
    (taken op dt r s).free = s.free ∧ (taken op dt r s).emit = [] ∧ (taken op dt r s).sys = s.sys ∧
    (taken op dt r s).trunk = s.trunk ∧ (taken op dt r s).ina = s.ina ∧ (taken op dt r s).sched = s.sched ∧
    (taken op dt r s).time = (begin_ dt s).time ∧ (taken op dt r s).flow = s.flow ∧ (taken op dt r s).twin = s.twin ∧
    (taken op dt r s).lsk = s.lsk ∧ (taken op dt r s).can = s.can ∧ (taken op dt r s).mvb = s.mvb ∧
    (taken op dt r s).swc = s.swc ∧ (taken op dt r s).fab = s.fab ∧ (taken op dt r s).bridge = s.bridge ∧
    (taken op dt r s).pwr = s.pwr ∧ (taken op dt r s).rep = s.rep ∧ (taken op dt r s).shelf = s.shelf ∧
    (taken op dt r s).shadows = s.shadows ∧ (taken op dt r s).summaries = s.summaries ∧
    (taken op dt r s).cmd.queued = s.cmd.queued ∧ (taken op dt r s).cmd.mask = s.cmd.mask ∧
    (taken op dt r s).cmd.log = s.cmd.log ∧ (taken op dt r s).cmd.cycleEvents = s.cmd.cycleEvents ∧
    (taken op dt r s).cmd.mbx.length = s.cmd.mbx.length ∧ (taken op dt r s).cmd.nextSeq = s.cmd.nextSeq + 1 := by
  simp [taken, acceptRing, loadRequest]

/-- R549, R552: what taking a ring leaves of the other mailboxes. -/
theorem taken_other (op dt : Nat) (r : Ring) (s : State) : OthersSame r s (taken op dt r s) := by
  intro j hj
  have hne : r.mbx.val ≠ j.val := fun h => hj (Fin.ext h.symm)
  unfold taken acceptRing loadRequest
  rw [mbxOf_modCmd_ctr _ _ _ rfl, mbxOf_modMbx_ne _ _ _ _ hne, mbxOf_modMbx_ne _ _ _ _ hne]
  rfl

@[simp] theorem raiseVector_mbx (v : BitVec 5) (s : State) : (raiseVector v s).cmd.mbx = s.cmd.mbx := by simp

@[simp] theorem rest_raiseVector (v : BitVec 5) (s : State) : rest (raiseVector v s) = rest s := by
  unfold raiseVector; split
  · unfold emit; split <;> rfl
  · rfl

@[simp] theorem rest_takeFree (n : Nat) (s : State) : rest (takeFree n s).2 = rest s := by simp [takeFree, rest]

@[simp] theorem rest_modMbx (n : Nat) (f : Mailbox → Mailbox) (s : State) : rest (modMbx n f s) = rest s := by
  simp [rest, modMbx]

theorem rest_congr {s t : State} (h : s = t) : rest s = rest t := congrArg rest h

/-- R553: what a completion leaves. -/
theorem completeMbx_answered (r : Ring) (lim : Nat) (rp : Reply) (u : State) (hl : r.mbx.val < u.cmd.mbx.length)
    (ht : (mbxOf u r.mbx).tag = r.tag) :
    Answered r rp.status rp.detail rp.rsp u (completeMbx r.mbx lim rp u) ∧ OthersSame r u (completeMbx r.mbx lim rp u) ∧
    rest (completeMbx r.mbx lim rp u) = rest u := by
  have hm := mbxOf_modMbx_self r.mbx.val (answered rp (takeFree (lim + 1) u).1) (takeFree (lim + 1) u).2 (by simpa using hl)
  rw [show mbxOf (takeFree (lim + 1) u).2 r.mbx = mbxOf u r.mbx from mbxOf_congr (by simp) _] at hm
  have ho : OthersSame r u (modMbx r.mbx (answered rp (takeFree (lim + 1) u).1) (takeFree (lim + 1) u).2) := by
    intro j hj
    rw [mbxOf_modMbx_ne _ _ _ _ (fun h => hj (Fin.ext h.symm))]; exact mbxOf_congr (by simp) _
  unfold completeMbx; dsimp only; split
  · refine ⟨?_, fun j hj => (mbxOf_congr (raiseVector_mbx _ _) _).trans (ho j hj), by simp⟩
    unfold Answered; rw [mbxOf_congr (raiseVector_mbx _ _), hm]; simp [answered, ht]
  · refine ⟨?_, ho, by simp⟩
    unfold Answered; rw [hm]; simp [answered, ht]

@[simp] theorem areaWritten_mbx (a : Nat) (s : State) : (areaWritten a s).cmd.mbx = s.cmd.mbx := by
  unfold areaWritten; split <;> rfl

theorem areaWritten_queued (a : Nat) (q : Queued) (y : State) :
    areaWritten a (withQueued q y) = withQueued q (areaWritten a y) := by
  unfold areaWritten withQueued; split <;> rfl

/-- A ring that the node takes and whose request passes the checks comes to what its chapter answers. -/
theorem submit_runs {sp : CmdSpec} {body : Ring → State → Reply × State} {dt : Nat} {r : Ring} {s : State}
    (h : Rings r dt s) (hc : checkRequest sp r.src r.req = none) :
    submit sp body dt r s = completeMbx r.mbx (elapsedLimit sp)
      (settle sp r (taken sp.opcode dt r s) (body r (taken sp.opcode dt r s))).1
      (settle sp r (taken sp.opcode dt r s) (body r (taken sp.opcode dt r s))).2 := by
  have h1 := h.may; have h2 := h.idle; have h3 := h.noReset; have h4 := h.lock; have h5 := h.ready
  have hl : lockAllows r.mbx r.src (loadRequest sp.opcode r (begin_ dt s)) = true := by
    have h8 : r.mbx.val < s.cmd.mbx.length := by rw [h.sound.mbx]; exact r.mbx.isLt
    unfold lockAllows at h4 ⊢
    unfold loadRequest
    rw [mbxOf_modMbx_self _ _ _ (by simpa using h8)]
    have : mbxOf (begin_ dt s) r.mbx = mbxOf s r.mbx := mbxOf_congr (by simp) _
    rw [this]; simpa [ownerTag] using h4
  have hr : (taken sp.opcode dt r s).sys.ready = true := by simpa using h5
  unfold submit; dsimp only
  rw [show mbxOf (begin_ dt s) r.mbx = mbxOf s r.mbx from mbxOf_congr (by simp) _, h2, hl,
    show (begin_ dt s).sys = s.sys from rfl, h3, h1]
  simp only [Bool.not_true, Bool.false_eq_true, if_false, if_true, Option.isSome_none, Bool.or_self]
  change runAccepted sp body r (taken sp.opcode dt r s) = _
  unfold runAccepted answer
  rw [hc, hr]; simp

/-- R553: a command completed in the state it left, its mailboxes as they were when it ran. -/
theorem completed_runs {op dt lim : Nat} {r : Ring} {s x : State} {rp : Reply} (h : Sound s)
    (hm : x.cmd.mbx = (taken op dt r s).cmd.mbx) :
    Answered r rp.status rp.detail rp.rsp (taken op dt r s) (completeMbx r.mbx lim rp x) ∧
    OthersSame r s (completeMbx r.mbx lim rp x) ∧ rest (completeMbx r.mbx lim rp x) = rest x := by
  have hx (n : Nat) : mbxOf x n = mbxOf (taken op dt r s) n := mbxOf_congr hm n
  have h8 : r.mbx.val < x.cmd.mbx.length := by rw [hm]; simp [h.mbx]
  obtain ⟨ha, ho, hr⟩ := completeMbx_answered r lim rp x h8 (by rw [hx, taken_mbx _ _ _ _ h])
  refine ⟨?_, fun j hj => (ho j hj).trans ((hx j).trans (taken_other _ _ _ _ j hj)), hr⟩
  unfold Answered at ha ⊢; rw [hx] at ha; exact ha

/-- R553, R555: a command whose chapter answers DONE. -/
theorem does {i : Instr} {sp : CmdSpec} {body : Ring → State → Reply × State} {dt : Nat} {r : Ring} {s y : State}
    {rsp : State → List Byte} {x : State → State} (h : Runs sp r dt s)
    (he : exec i s = .next (submit sp body dt r s))
    (hb : body r (taken sp.opcode dt r s) = (done (rsp (taken sp.opcode dt r s)), y))
    (hm : y.cmd.mbx = (taken sp.opcode dt r s).cmd.mbx)
    (hx : areaWritten (areaOf sp.opcode) y = x (taken sp.opcode dt r s)) : Does i sp dt r s rsp x := by
  refine ⟨_, he, ?_⟩
  have hs : settle sp r (taken sp.opcode dt r s) (done (rsp (taken sp.opcode dt r s)), y) =
      (done (rsp (taken sp.opcode dt r s)), x (taken sp.opcode dt r s)) := by
    have hf := h.flash
    unfold settle
    cases hq : r.flashFail with
    | none => simp [done, hx]
    | some c => cases hp : sp.flash <;> simp_all [done]
  rw [submit_runs h.rings h.checks, hb, hs]
  exact completed_runs (rp := done (rsp (taken sp.opcode dt r s))) h.rings.sound (by rw [← hx]; simpa using hm)

/-- `does` for a command that writes no configuration area. -/
theorem does_plain {i : Instr} {sp : CmdSpec} {body : Ring → State → Reply × State} {dt : Nat} {r : Ring} {s : State}
    {rsp : State → List Byte} {x : State → State} (h : Runs sp r dt s)
    (he : exec i s = .next (submit sp body dt r s)) (ha : areaOf sp.opcode = 0)
    (hb : body r (taken sp.opcode dt r s) = (done (rsp (taken sp.opcode dt r s)), x (taken sp.opcode dt r s)))
    (hm : (x (taken sp.opcode dt r s)).cmd.mbx = (taken sp.opcode dt r s).cmd.mbx) : Does i sp dt r s rsp x :=
  does h he hb hm (by rw [ha]; rfl)

/-- R558, R559: a command whose chapter answers QUEUED, with room for it. -/
theorem queues {i : Instr} {sp : CmdSpec} {body : Ring → State → Reply × State} {dt arg : Nat} {r : Ring} {s y : State}
    {x : State → State} (h : Runs sp r dt s) (hq : s.cmd.queued.length < 32)
    (he : exec i s = .next (submit sp body dt r s))
    (hb : body r (taken sp.opcode dt r s) = (queued arg, y))
    (hm : y.cmd.mbx = (taken sp.opcode dt r s).cmd.mbx)
    (hx : areaWritten (if queuedWrites sp.opcode then areaOf sp.opcode else 0) y = x (taken sp.opcode dt r s)) :
    Queues i sp dt r s arg x := by
  refine ⟨_, he, ?_⟩
  have hs : settle sp r (taken sp.opcode dt r s) (queued arg, y) =
      (queued arg, withQueued (queuedEntry sp r arg (taken sp.opcode dt r s)) (x (taken sp.opcode dt r s))) := by
    have h0 : ¬ 0x0100 ≤ (queued arg).status := by simp [queued]
    have h1 : (queued arg).status = 1 := rfl
    have h2 : ¬ 32 ≤ (taken sp.opcode dt r s).cmd.queued.length := by simp; omega
    rw [settle, if_neg h0, if_pos h1, if_neg h2, ← hx]
    exact Prod.ext rfl (areaWritten_queued _ _ _)
  rw [submit_runs h.rings h.checks, hb, hs]
  refine completed_runs (rp := queued arg) h.rings.sound ?_
  rw [← hx]; simpa [withQueued] using hm

/-- `queues` for a command that writes no configuration area when it is accepted. -/
theorem queues_plain {i : Instr} {sp : CmdSpec} {body : Ring → State → Reply × State} {dt arg : Nat} {r : Ring} {s : State}
    {x : State → State} (h : Runs sp r dt s) (hq : s.cmd.queued.length < 32)
    (he : exec i s = .next (submit sp body dt r s))
    (ha : (if queuedWrites sp.opcode then areaOf sp.opcode else 0) = 0)
    (hb : body r (taken sp.opcode dt r s) = (queued arg, x (taken sp.opcode dt r s)))
    (hm : (x (taken sp.opcode dt r s)).cmd.mbx = (taken sp.opcode dt r s).cmd.mbx) : Queues i sp dt r s arg x :=
  queues h hq he hb hm (by rw [ha]; rfl)

end Sys2Proof.Machine
end

