-- ==== Sys2Proof/Laws/MbxSame.lean ====
section
/-! SUPPORT. The operations that commands are made of leave every mailbox as it is (`MbxIs`). -/

namespace Sys2Proof.Machine

/-- The mailboxes are `mb`. -/
def MbxIs (mb : List Mailbox) (s : State) : Prop := s.cmd.mbx = mb

theorem mbx_of_is {s t : State} (h : ∀ mb, MbxIs mb t ↔ MbxIs mb s) : t.cmd.mbx = s.cmd.mbx := (h s.cmd.mbx).mpr rfl

@[simp] theorem mbxIs_mk (mb : List Mailbox) (p n c fr e sys cmd trunk ina sched time flow twin lsk can mvb swc fab bridge pwr rep
    shelf shadows s1 s2 s3) :
    MbxIs mb (State.mk p n c fr e sys cmd trunk ina sched time flow twin lsk can mvb swc fab bridge pwr rep shelf shadows s1 s2 s3) ↔
    cmd.mbx = mb := Iff.rfl

@[simp] theorem mbxIs_fold (mb : List Mailbox) (s : State) : s.cmd.mbx = mb ↔ MbxIs mb s := Iff.rfl

@[simp] theorem mbxIs_ite (mb : List Mailbox) (c : Prop) [Decidable c] (a b : State) :
    MbxIs mb (if c then a else b) ↔ if c then MbxIs mb a else MbxIs mb b := by split <;> rfl

theorem mbxIs_foldl {α : Type} (mb : List Mailbox) (f : State → α → State) (h : ∀ s x, MbxIs mb (f s x) ↔ MbxIs mb s)
    (l : List α) (s : State) : MbxIs mb (l.foldl f s) ↔ MbxIs mb s := by
  induction l generalizing s with
  | nil => rfl
  | cons x xs ih => simp [ih, h]

@[simp] theorem emit_mbxIs (mb : List Mailbox) (e : Emission) (s : State) : MbxIs mb (emit e s) ↔ MbxIs mb s := by
  unfold emit; simp

@[simp] theorem modIna_mbxIs (mb : List Mailbox) (f : Ina → Ina) (s : State) : MbxIs mb (modIna f s) ↔ MbxIs mb s := by
  unfold modIna; simp

@[simp] theorem modPort_mbxIs (mb : List Mailbox) (p : Nat) (f : Port → Port) (s : State) :
    MbxIs mb (modPort p f s) ↔ MbxIs mb s := by
  unfold modPort; simp

@[simp] theorem modCan_mbxIs (mb : List Mailbox) (c : Nat) (f : Can → Can) (s : State) : MbxIs mb (modCan c f s) ↔ MbxIs mb s := by
  unfold modCan; simp

@[simp] theorem modMvb_mbxIs (mb : List Mailbox) (g : Nat) (f : Mvb → Mvb) (s : State) : MbxIs mb (modMvb g f s) ↔ MbxIs mb s := by
  unfold modMvb; simp

@[simp] theorem modPair_mbxIs (mb : List Mailbox) (l : Nat) (f : Pair → Pair) (s : State) :
    MbxIs mb (modPair l f s) ↔ MbxIs mb s := by
  unfold modPair; simp

@[simp] theorem modTio_mbxIs (mb : List Mailbox) (n : Nat) (f : Tio → Tio) (s : State) : MbxIs mb (modTio n f s) ↔ MbxIs mb s := by
  unfold modTio; simp

@[simp] theorem modSw_mbxIs (mb : List Mailbox) (p : Nat) (f : SwPort → SwPort) (s : State) :
    MbxIs mb (modSw p f s) ↔ MbxIs mb s := by
  unfold modSw; simp

@[simp] theorem modFab_mbxIs (mb : List Mailbox) (k : Nat) (f : FabLink → FabLink) (s : State) :
    MbxIs mb (modFab k f s) ↔ MbxIs mb s := by
  unfold modFab; simp

@[simp] theorem modFlow_mbxIs (mb : List Mailbox) (f : Flow → Flow) (s : State) : MbxIs mb (modFlow f s) ↔ MbxIs mb s := by
  unfold modFlow; simp

@[simp] theorem raiseVector_mbxIs (mb : List Mailbox) (v : BitVec 5) (s : State) : MbxIs mb (raiseVector v s) ↔ MbxIs mb s := by
  unfold raiseVector; simp

@[simp] theorem raiseQueue_mbxIs (mb : List Mailbox) (s : State) : MbxIs mb (raiseQueue s) ↔ MbxIs mb s := by
  unfold raiseQueue; simp

@[simp] theorem queueEvent_mbxIs (mb : List Mailbox) (e : Event) (s : State) : MbxIs mb (queueEvent e s) ↔ MbxIs mb s := by
  unfold queueEvent; simp

@[simp] theorem recordEvent_mbxIs (mb : List Mailbox) (e : Event) (s : State) : MbxIs mb (recordEvent e s) ↔ MbxIs mb s := by
  unfold recordEvent; simp

@[simp] theorem raiseAt_mbxIs (mb : List Mailbox) (t code : Nat) (param : List Byte) (s : State) :
    MbxIs mb (raiseAt t code param s) ↔ MbxIs mb s := by
  unfold raiseAt; simp

@[simp] theorem raise_mbxIs (mb : List Mailbox) (code : Nat) (param : List Byte) (s : State) :
    MbxIs mb (raise code param s) ↔ MbxIs mb s := by
  unfold raise; simp

@[simp] theorem forEach_mbxIs {α : Type} (mb : List Mailbox) (l : List α) (f : α → State → State) (s : State)
    (h : ∀ x s, MbxIs mb (f x s) ↔ MbxIs mb s) : MbxIs mb (forEach l f s) ↔ MbxIs mb s := by
  unfold forEach; exact mbxIs_foldl mb _ (fun s x => h x s) l s

@[simp] theorem completeEvent_mbxIs (mb : List Mailbox) (q : Queued) (status : Nat) (s : State) :
    MbxIs mb (completeEvent q status s) ↔ MbxIs mb s := by
  unfold completeEvent; simp

@[simp] theorem finishQueued_mbxIs (mb : List Mailbox) (p : Queued → Bool) (status : Nat) (s : State) :
    MbxIs mb (finishQueued p status s) ↔ MbxIs mb s := by
  unfold finishQueued; simp

@[simp] theorem schedCount_mbxIs (mb : List Mailbox) (i : Nat) (s : State) : MbxIs mb (schedCount i s) ↔ MbxIs mb s := by
  unfold schedCount; simp

@[simp] theorem trunkOut_mbxIs (mb : List Mailbox) (p : Nat) (f : OutFrame) (at_ : Option Int) (s : State) :
    MbxIs mb (trunkOut p f at_ s) ↔ MbxIs mb s := by
  unfold trunkOut; simp

@[simp] theorem trunkEnqueue_mbxIs (mb : List Mailbox) (p q : Nat) (f : QFrame) (s : State) :
    MbxIs mb (trunkEnqueue p q f s) ↔ MbxIs mb s := by
  unfold trunkEnqueue; simp

@[simp] theorem modFabric_mbxIs (mb : List Mailbox) (f : Fab → Fab) (s : State) :
    MbxIs mb (modFabric f s) ↔ MbxIs mb s := by
  unfold modFabric; simp

@[simp] theorem fabCount_mbxIs (mb : List Mailbox) (k i : Nat) (s : State) : MbxIs mb (fabCount k i s) ↔ MbxIs mb s := by
  unfold fabCount; simp

@[simp] theorem fabSetCosts_mbxIs (mb : List Mailbox) (k : Nat) (adv : List Byte) (s : State) :
    MbxIs mb (fabSetCosts k adv s) ↔ MbxIs mb s := by
  unfold fabSetCosts; simp

@[simp] theorem fabSendOn_mbxIs (mb : List Mailbox) (k : Nat) (f : FabricFrame) (s : State) :
    MbxIs mb (fabSendOn k f s) ↔ MbxIs mb s := by
  unfold fabSendOn; simp

@[simp] theorem fabForward_mbxIs (mb : List Mailbox) (from_ : Nat) (f : FabricFrame) (s : State) :
    MbxIs mb (fabForward from_ f s) ↔ MbxIs mb s := by
  unfold fabForward; (repeat' split) <;> simp

@[simp] theorem fabOriginate_mbxIs (mb : List Mailbox) (dst cls : Nat) (p : FabricPayload) (s : State) :
    MbxIs mb (fabOriginate dst cls p s) ↔ MbxIs mb s := by
  unfold fabOriginate; simp

@[simp] theorem modStream_mbxIs (mb : List Mailbox) (h : Nat) (f : Stream → Stream) (s : State) :
    MbxIs mb (modStream h f s) ↔ MbxIs mb s := by
  unfold modStream; simp

@[simp] theorem gclMacroChange_mbxIs (mb : List Mailbox) (s : State) : MbxIs mb (gclMacroChange s) ↔ MbxIs mb s := by
  unfold gclMacroChange; simp

@[simp] theorem canApplyMode_mbxIs (mb : List Mailbox) (c m : Nat) (s : State) : MbxIs mb (canApplyMode c m s) ↔ MbxIs mb s := by
  unfold canApplyMode; simp

@[simp] theorem takeFree_mbxIs (mb : List Mailbox) (n : Nat) (s : State) : MbxIs mb (takeFree n s).2 ↔ MbxIs mb s := by
  unfold takeFree; simp

@[simp] theorem canStamp_mbxIs (mb : List Mailbox) (s : State) : MbxIs mb (canStamp s).2 ↔ MbxIs mb s := by
  unfold canStamp; simp

@[simp] theorem canRefWithhold_mbxIs (mb : List Mailbox) (c : Nat) (s : State) :
    MbxIs mb (canRefWithhold c s) ↔ MbxIs mb s := by
  unfold canRefWithhold; (repeat' split) <;> simp_all

@[simp] theorem canWithhold_mbxIs (mb : List Mailbox) (c : Nat) (s : State) :
    MbxIs mb (canWithhold c s) ↔ MbxIs mb s := by
  unfold canWithhold; dsimp only; (repeat' split) <;> simp

@[simp] theorem canStart_mbxIs (mb : List Mailbox) (c : Nat) (o : CanSlot) (exclusive : Bool) (s : State) :
    MbxIs mb (canStart c o exclusive s) ↔ MbxIs mb s := by
  unfold canStart; simp

@[simp] theorem canStartRef_mbxIs (mb : List Mailbox) (c : Nat) (late : Bool) (s : State) :
    MbxIs mb (canStartRef c late s) ↔ MbxIs mb s := by
  unfold canStartRef; simp

@[simp] theorem canOfferPending_mbxIs (mb : List Mailbox) (c : Nat) (s : State) :
    MbxIs mb (canOfferPending c s) ↔ MbxIs mb s := by
  unfold canOfferPending; (repeat' split) <;> simp_all

@[simp] theorem canOfferExclusive_mbxIs (mb : List Mailbox) (c col : Nat) (o : CanSlot) (s : State) :
    MbxIs mb (canOfferExclusive c col o s) ↔ MbxIs mb s := by
  unfold canOfferExclusive; (repeat' split) <;> simp_all

@[simp] theorem canOffer_mbxIs (mb : List Mailbox) (c : Nat) (s : State) :
    MbxIs mb (canOffer c s) ↔ MbxIs mb s := by
  unfold canOffer; dsimp only; (repeat' split) <;> simp_all

@[simp] theorem canWriteCtrl_mbxIs (mb : List Mailbox) (c : Nat) (busy : Bool) (v : BitVec 32) (s : State) :
    MbxIs mb (canWriteCtrl c busy v s) ↔ MbxIs mb s := by
  unfold canWriteCtrl; simp

@[simp] theorem canLoadOne_mbxIs (mb : List Mailbox) (c : Nat) (s : State) : MbxIs mb (canLoadOne c s) ↔ MbxIs mb s := by
  unfold canLoadOne; (repeat' split) <;> simp

@[simp] theorem canTtFault_mbxIs (mb : List Mailbox) (c cause : Nat) (s : State) :
    MbxIs mb (canTtFault c cause s) ↔ MbxIs mb s := by
  unfold canTtFault; simp

@[simp] theorem canMacroChange_mbxIs (mb : List Mailbox) (c : Nat) (s : State) : MbxIs mb (canMacroChange c s) ↔ MbxIs mb s := by
  unfold canMacroChange; simp

@[simp] theorem canCheckLinks_mbxIs (mb : List Mailbox) (c : Nat) (s : State) : MbxIs mb (canCheckLinks c s) ↔ MbxIs mb s := by
  unfold canCheckLinks; simp

@[simp] theorem mvbCut_mbxIs (mb : List Mailbox) (g : Nat) (s : State) : MbxIs mb (mvbCut g s) ↔ MbxIs mb s := by
  unfold mvbCut; simp

@[simp] theorem mvbCheckLinks_mbxIs (mb : List Mailbox) (g : Nat) (s : State) : MbxIs mb (mvbCheckLinks g s) ↔ MbxIs mb s := by
  unfold mvbCheckLinks; simp

@[simp] theorem mvbApply_mbxIs (mb : List Mailbox) (g : Nat) (c : MvbCfg) (s : State) : MbxIs mb (mvbApply g c s) ↔ MbxIs mb s := by
  unfold mvbApply; simp

@[simp] theorem modTime_mbxIs (mb : List Mailbox) (f : Time → Time) (s : State) :
    MbxIs mb (modTime f s) ↔ MbxIs mb s := by
  unfold modTime; simp

@[simp] theorem setTimeState_mbxIs (mb : List Mailbox) (n : TimeSt) (s : State) : MbxIs mb (setTimeState n s) ↔ MbxIs mb s := by
  unfold setTimeState; have hf : ∀ t, (holdFreq t).tio.length = t.tio.length := by intro t; unfold holdFreq; simp
  dsimp only; (repeat' split) <;> simp [hf]

@[simp] theorem tioLate_mbxIs (mb : List Mailbox) (n start : Nat) (s : State) : MbxIs mb (tioLate n start s) ↔ MbxIs mb s := by
  unfold tioLate; simp

@[simp] theorem tioDrive_mbxIs (mb : List Mailbox) (n : Nat) (asserted : Bool) (s : State) :
    MbxIs mb (tioDrive n asserted s) ↔ MbxIs mb s := by
  unfold tioDrive; simp

@[simp] theorem tioStep_mbxIs (mb : List Mailbox) (n old new : Nat) (s : State) : MbxIs mb (tioStep n old new s) ↔ MbxIs mb s := by
  unfold tioStep; simp

@[simp] theorem countSteps_mbxIs (mb : List Mailbox) (d : Int) (gen : BitVec 16) (s : State) :
    MbxIs mb (countSteps d gen s) ↔ MbxIs mb s := by
  unfold countSteps; simp

@[simp] theorem stepDeltas_mbxIs (mb : List Mailbox) (ps : List Nat) (d : Int) (s : State) :
    MbxIs mb (stepDeltas ps d s) ↔ MbxIs mb s := by
  unfold stepDeltas; simp

@[simp] theorem stepCount_mbxIs (mb : List Mailbox) (d : Int) (gen : BitVec 16) (s : State) :
    MbxIs mb (stepCount d gen s) ↔ MbxIs mb s := by
  unfold stepCount; simp

@[simp] theorem leaveMaster_mbxIs (mb : List Mailbox) (s : State) : MbxIs mb (leaveMaster s) ↔ MbxIs mb s := by
  unfold leaveMaster; (repeat' split) <;> simp

@[simp] theorem modTrunk_mbxIs (mb : List Mailbox) (f : Trunk → Trunk) (s : State) :
    MbxIs mb (modTrunk f s) ↔ MbxIs mb s := by
  unfold modTrunk; simp

@[simp] theorem portCount_mbxIs (mb : List Mailbox) (p i : Nat) (s : State) : MbxIs mb (portCount p i s) ↔ MbxIs mb s := by
  unfold portCount; simp

@[simp] theorem trunkLink_mbxIs (mb : List Mailbox) (p : Nat) (s : State) : MbxIs mb (trunkLink p s) ↔ MbxIs mb s := by
  unfold trunkLink; simp

@[simp] theorem portRole_mbxIs (mb : List Mailbox) (p : Nat) (s : State) : MbxIs mb (portRole p s) ↔ MbxIs mb s := by
  unfold portRole; simp

@[simp] theorem roleForPolicy_mbxIs (mb : List Mailbox) (p : Nat) (s : State) :
    MbxIs mb (roleForPolicy p s) ↔ MbxIs mb s := by
  unfold roleForPolicy; split <;> simp

@[simp] theorem portToDetect_mbxIs (mb : List Mailbox) (p cause : Nat) (s : State) :
    MbxIs mb (portToDetect p cause s) ↔ MbxIs mb s := by
  unfold portToDetect; simp

@[simp] theorem portToBypassed_mbxIs (mb : List Mailbox) (p : Nat) (s : State) : MbxIs mb (portToBypassed p s) ↔ MbxIs mb s := by
  unfold portToBypassed; dsimp only; (repeat' split) <;> simp

@[simp] theorem portPolicy_mbxIs (mb : List Mailbox) (pol p : Nat) (s : State) : MbxIs mb (portPolicy pol p s) ↔ MbxIs mb s := by
  unfold portPolicy; dsimp only; (repeat' split) <;> simp

@[simp] theorem applyPolicy_mbxIs (mb : List Mailbox) (d pol : Nat) (s : State) : MbxIs mb (applyPolicy d pol s) ↔ MbxIs mb s := by
  unfold applyPolicy; simp

@[simp] theorem portRetrain_mbxIs (mb : List Mailbox) (p : Nat) (s : State) : MbxIs mb (portRetrain p s) ↔ MbxIs mb s := by
  unfold portRetrain; simp

@[simp] theorem switchCommand_mbxIs (mb : List Mailbox) (line : Line) (close : Bool) (s : State) :
    MbxIs mb (switchCommand line close s) ↔ MbxIs mb s := by
  unfold switchCommand; (repeat' split) <;> simp

@[simp] theorem closeLine_mbxIs (mb : List Mailbox) (line : Line) (s : State) :
    MbxIs mb (closeLine line s) ↔ MbxIs mb s := by
  unfold closeLine; dsimp only; (repeat' split) <;> simp

@[simp] theorem closeBoth_mbxIs (mb : List Mailbox) (s : State) : MbxIs mb (closeBoth s) ↔ MbxIs mb s := by
  unfold closeBoth; simp

@[simp] theorem modBridge_mbxIs (mb : List Mailbox) (f : Bridge → Bridge) (s : State) : MbxIs mb (modBridge f s) ↔ MbxIs mb s := by
  unfold modBridge; simp

@[simp] theorem semSet_mbxIs (mb : List Mailbox) (k : Nat) (x : Option Sem) (s : State) : MbxIs mb (semSet k x s) ↔ MbxIs mb s := by
  unfold semSet; simp

@[simp] theorem semEvent_mbxIs (mb : List Mailbox) (k cause : Nat) (s : State) : MbxIs mb (semEvent k cause s) ↔ MbxIs mb s := by
  unfold semEvent; simp

@[simp] theorem semFree_mbxIs (mb : List Mailbox) (k cause : Nat) (s : State) : MbxIs mb (semFree k cause s) ↔ MbxIs mb s := by
  unfold semFree; simp

@[simp] theorem modSched_mbxIs (mb : List Mailbox) (f : Sched → Sched) (s : State) : MbxIs mb (modSched f s) ↔ MbxIs mb s := by
  unfold modSched; simp

@[simp] theorem modTwin_mbxIs (mb : List Mailbox) (f : Twin → Twin) (s : State) : MbxIs mb (modTwin f s) ↔ MbxIs mb s := by
  unfold modTwin; simp

@[simp] theorem setRole_mbxIs (mb : List Mailbox) (new : Role) (cause : Nat) (s : State) :
    MbxIs mb (setRole new cause s) ↔ MbxIs mb s := by
  unfold setRole; simp

@[simp] theorem tioGateAtInstant_mbxIs (mb : List Mailbox) (n : Nat) (s : State) :
    MbxIs mb (tioGateAtInstant n s) ↔ MbxIs mb s := by
  unfold tioGateAtInstant; dsimp only; (repeat' split) <;> simp

@[simp] theorem twinLeave_mbxIs (mb : List Mailbox) (s : State) : MbxIs mb (twinLeave s) ↔ MbxIs mb s := by
  unfold twinLeave; simp

@[simp] theorem modSession_mbxIs (mb : List Mailbox) (p : Session → Bool) (f : Session → Session) (s : State) :
    MbxIs mb (modSession p f s) ↔ MbxIs mb s := by
  unfold modSession; simp

@[simp] theorem queueSession_mbxIs (mb : List Mailbox) (f : SessionFrame) (s : State) :
    MbxIs mb (queueSession f s) ↔ MbxIs mb s := by
  unfold queueSession; simp

@[simp] theorem sendSession_mbxIs (mb : List Mailbox) (f : SessionFrame) (s : State) : MbxIs mb (sendSession f s) ↔ MbxIs mb s := by
  unfold sendSession; simp

@[simp] theorem closeSession_mbxIs (mb : List Mailbox) (x : Session) (cause : Nat) (s : State) :
    MbxIs mb (closeSession x cause s) ↔ MbxIs mb s := by
  unfold closeSession; simp

@[simp] theorem enterContend_mbxIs (mb : List Mailbox) (s : State) : MbxIs mb (enterContend s) ↔ MbxIs mb s := by
  unfold enterContend; simp

@[simp] theorem portBusy_mbxIs (mb : List Mailbox) (p n : Nat) (s : State) :
    MbxIs mb (portBusy p n s) ↔ MbxIs mb s := by
  unfold portBusy; simp

@[simp] theorem beaconOut_mbxIs (mb : List Mailbox) (p : Nat) (s : State) : MbxIs mb (beaconOut p s) ↔ MbxIs mb s := by
  unfold beaconOut; simp

@[simp] theorem passiveBeacon_mbxIs (mb : List Mailbox) (p : Nat) (s : State) :
    MbxIs mb (passiveBeacon p s) ↔ MbxIs mb s := by
  unfold passiveBeacon; split <;> simp

@[simp] theorem passiveBeacons_mbxIs (mb : List Mailbox) (s : State) : MbxIs mb (passiveBeacons s) ↔ MbxIs mb s := by
  unfold passiveBeacons; simp

@[simp] theorem goPassive_mbxIs (mb : List Mailbox) (s : State) : MbxIs mb (goPassive s) ↔ MbxIs mb s := by
  unfold goPassive; simp

@[simp] theorem startSequence_mbxIs (mb : List Mailbox) (passive : Bool) (s : State) :
    MbxIs mb (startSequence passive s) ↔ MbxIs mb s := by
  unfold startSequence; simp

@[simp] theorem runImage_mbxIs (mb : List Mailbox) (im : Image) (s : State) : MbxIs mb (runImage im s) ↔ MbxIs mb s := by
  unfold runImage; simp

@[simp] theorem macroChange_mbxIs (mb : List Mailbox) (s : State) : MbxIs mb (macroChange s) ↔ MbxIs mb s := by
  unfold macroChange; simp

@[simp] theorem modRun_mbxIs (mb : List Mailbox) (i : Nat) (f : FlowRun → FlowRun) (s : State) :
    MbxIs mb (modRun i f s) ↔ MbxIs mb s := by
  unfold modRun; simp

@[simp] theorem checkLinks_mbxIs (mb : List Mailbox) (s : State) : MbxIs mb (checkLinks s) ↔ MbxIs mb s := by
  unfold checkLinks; simp

@[simp] theorem judgeContexts_mbxIs (mb : List Mailbox) (s : State) : MbxIs mb (judgeContexts s) ↔ MbxIs mb s := by
  unfold judgeContexts; (repeat' split) <;> simp

@[simp] theorem modRep_mbxIs (mb : List Mailbox) (f : Rep → Rep) (s : State) : MbxIs mb (modRep f s) ↔ MbxIs mb s := by
  unfold modRep; simp

@[simp] theorem modLsk_mbxIs (mb : List Mailbox) (f : Lsk → Lsk) (s : State) :
    MbxIs mb (modLsk f s) ↔ MbxIs mb s := by
  unfold modLsk; simp

@[simp] theorem askHand_mbxIs (mb : List Mailbox) (l : Nat) (k : HandKind) (s : State) : MbxIs mb (askHand l k s) ↔ MbxIs mb s := by
  unfold askHand; simp

@[simp] theorem sendSegments_mbxIs (mb : List Mailbox) (x : Session) (m : Message) (from_ to_ : Nat) (s : State) :
    MbxIs mb (sendSegments x m from_ to_ s) ↔ MbxIs mb s := by
  unfold sendSegments; simp

@[simp] theorem pumpSession_mbxIs (mb : List Mailbox) (sid : BitVec 16) (opener : BitVec 64) (s : State) :
    MbxIs mb (pumpSession sid opener s) ↔ MbxIs mb s := by
  unfold pumpSession; (repeat' split) <;> simp

@[simp] theorem fabLinkEvent_mbxIs (mb : List Mailbox) (k : Nat) (s : State) : MbxIs mb (fabLinkEvent k s) ↔ MbxIs mb s := by
  unfold fabLinkEvent; simp

@[simp] theorem fabLeave_mbxIs (mb : List Mailbox) (k : Nat) (st : FabSt) (s : State) :
    MbxIs mb (fabLeave k st s) ↔ MbxIs mb s := by
  unfold fabLeave; simp

@[simp] theorem fabAttach_mbxIs (mb : List Mailbox) (s : State) : MbxIs mb (fabAttach s) ↔ MbxIs mb s := by
  unfold fabAttach; simp

@[simp] theorem addReq_mbxIs (mb : List Mailbox) (kind : Fin 8) (m : Nat) (s : State) :
    MbxIs mb (addReq kind m s) ↔ MbxIs mb s := by
  unfold addReq; simp

@[simp] theorem askTest_mbxIs (mb : List Mailbox) (p : Fin 5) (s : State) : MbxIs mb (askTest p s) ↔ MbxIs mb s := by
  unfold askTest; simp

@[simp] theorem modPwr_mbxIs (mb : List Mailbox) (f : Pwr → Pwr) (s : State) :
    MbxIs mb (modPwr f s) ↔ MbxIs mb s := by
  unfold modPwr; simp

@[simp] theorem dropEntry_mbxIs (mb : List Mailbox) (s : State) : MbxIs mb (dropEntry s) ↔ MbxIs mb s := by
  unfold dropEntry; simp

@[simp] theorem modPtp_mbxIs (mb : List Mailbox) (d : Nat) (f : PtpInst → PtpInst) (s : State) :
    MbxIs mb (modPtp d f s) ↔ MbxIs mb s := by
  unfold modPtp; simp

@[simp] theorem switchDomain_mbxIs (mb : List Mailbox) (d : Fin 2) (s : State) : MbxIs mb (switchDomain d s) ↔ MbxIs mb s := by
  unfold switchDomain; simp

@[simp] theorem selectDomain_mbxIs (mb : List Mailbox) (s : State) : MbxIs mb (selectDomain s) ↔ MbxIs mb s := by
  unfold selectDomain; simp

@[simp] theorem modRec_mbxIs (mb : List Mailbox) (f : Rec → Rec) (s : State) : MbxIs mb (modRec f s) ↔ MbxIs mb s := by
  unfold modRec; simp

end Sys2Proof.Machine
end

