-- ==== Sys2Proof/Laws/Memory.lean ====
section
/-! SUPPORT. The byte memories keep their canonical form: addresses strictly rising, and no 0 listed. -/

namespace Sys2Proof.Machine

theorem wf_cons (c : Nat × Byte) (m : Mem) :
    Memory.wf (c :: m) = true ↔ c.2 ≠ 0 ∧ (∀ x ∈ m, c.1 < x.1) ∧ Memory.wf m = true := by
  obtain ⟨a, v⟩ := c; simp [Memory.wf, and_assoc]

/-- Every entry of a memory after a byte was written is that byte or was listed before. -/
theorem memSet_entries (m : Mem) (a : Nat) (v : Byte) (x : Nat × Byte) (h : x ∈ memSet m a v) : x.1 = a ∨ x ∈ m := by
  induction m with
  | nil =>
    simp only [memSet] at h
    split at h <;> simp_all
  | cons c m ih =>
    obtain ⟨b, w⟩ := c
    simp only [memSet] at h
    split at h
    · split at h
      · exact .inr h
      · rcases List.mem_cons.mp h with h | h
        · exact .inl (by simp [h])
        · exact .inr h
    · split at h
      · split at h
        · exact .inr (List.mem_cons_of_mem _ h)
        · rcases List.mem_cons.mp h with h | h
          · left; simp_all
          · exact .inr (List.mem_cons_of_mem _ h)
      · rcases List.mem_cons.mp h with h | h
        · exact .inr (by simp [h])
        · exact (ih h).imp id (List.mem_cons_of_mem _)

/-- A byte written keeps the form. -/
theorem memSet_wf (m : Mem) (a : Nat) (v : Byte) (h : Memory.wf m = true) : Memory.wf (memSet m a v) = true := by
  induction m with
  | nil => simp only [memSet]; split <;> simp_all [Memory.wf]
  | cons c m ih =>
    obtain ⟨b, w⟩ := c
    obtain ⟨hw, hlt, hm⟩ := (wf_cons _ _).mp h
    simp only [memSet]
    split
    · split
      · exact h
      · refine (wf_cons _ _).mpr ⟨‹_›, fun x hx => ?_, h⟩
        rcases List.mem_cons.mp hx with rfl | hx
        · assumption
        · exact lt_trans ‹a < b› (hlt x hx)
    · split
      · split
        · exact hm
        · exact (wf_cons _ _).mpr ⟨‹_›, hlt, hm⟩
      · refine (wf_cons _ _).mpr ⟨hw, fun x hx => ?_, ih hm⟩
        rcases memSet_entries m a v x hx with hx | hx
        · simp only; omega
        · exact hlt x hx

/-- Bytes written keep the form. -/
theorem memWrite_wf (m : Mem) (a : Nat) (d : List Byte) (h : Memory.wf m = true) : Memory.wf (memWrite m a d) = true := by
  induction d generalizing m a with
  | nil => exact h
  | cons v d ih => exact ih _ _ (memSet_wf m a v h)

/-- Bytes taken out keep the form. -/
theorem filter_wf (p : Nat × Byte → Bool) (m : Mem) (h : Memory.wf m = true) : Memory.wf (m.filter p) = true := by
  induction m with
  | nil => rfl
  | cons c m ih =>
    obtain ⟨hw, hlt, hm⟩ := (wf_cons _ _).mp h
    simp only [List.filter_cons]
    split
    · exact (wf_cons _ _).mpr ⟨hw, fun x hx => hlt x (List.mem_of_mem_filter hx), ih hm⟩
    · exact ih hm

/-- A range cleared keeps the form. -/
theorem memClear_wf (m : Mem) (a n : Nat) (h : Memory.wf m = true) : Memory.wf (memClear m a n) = true := filter_wf _ m h

/-- Every memory of the state after reset has the form. -/
theorem reset_memories_wf :
    (∀ m ∈ State.reset.cmd.mbx, Memory.wf m.payload = true) ∧ Memory.wf State.reset.sys.msixTable = true ∧
    Memory.wf State.reset.flow.bank0 = true ∧ Memory.wf State.reset.flow.bank1 = true ∧
    Memory.wf State.reset.flow.cons = true ∧ Memory.wf State.reset.flow.islandOut = true ∧
    Memory.wf State.reset.flow.rec_.ring = true ∧ Memory.wf State.reset.lsk.work = true ∧
    Memory.wf State.reset.sched.stagedBytes = true ∧ (∀ m ∈ State.reset.mvb, Memory.wf m.staged = true) := by decide

end Sys2Proof.Machine
end

