-- ==== Sys2Proof/Laws/Writes.lean ====
section
/-! SUPPORT. Which parts of a state an operation may write (`OnlyWrites`): the rules for a record update, a choice and a fold.
The operations follow in the files Writes<subject>. -/

namespace Sys2Proof.Machine

/-- `OnlyWrites`, part by part. -/
theorem onlyWrites_mk (w : List Block) (k : State) (a0 a1 a2 a3 a4 a5 a6 a7 a8 a9 a10 a11 a12 a13 a14 a15 a16 a17 a18 a19 a20 a21 a22 a23 a24 a25) :
    OnlyWrites w k (State.mk a0 a1 a2 a3 a4 a5 a6 a7 a8 a9 a10 a11 a12 a13 a14 a15 a16 a17 a18 a19 a20 a21 a22 a23 a24 a25) ↔
    (Block.pending ∉ w → a0 = k.pending) ∧ (Block.now ∉ w → a1 = k.now ∧ a10.carry = k.time.carry) ∧ (Block.clk ∉ w → a2 = k.clk) ∧ (Block.free ∉ w → a3 = k.free) ∧ (Block.emit ∉ w → a4 = k.emit) ∧ (Block.sys ∉ w → a5 = k.sys) ∧ (Block.mbx ∉ w → a6.mbx = k.cmd.mbx) ∧ (Block.cmd ∉ w → { a6 with mbx := [] } = { k.cmd with mbx := [] }) ∧ (Block.trunk ∉ w → a7 = k.trunk) ∧ (Block.ina ∉ w → a8 = k.ina) ∧ (Block.sched ∉ w → a9 = k.sched) ∧ (Block.time ∉ w → { a10 with carry := 0 } = { k.time with carry := 0 }) ∧ (Block.flow ∉ w → a11 = k.flow) ∧ (Block.twin ∉ w → a12 = k.twin) ∧ (Block.lsk ∉ w → a13 = k.lsk) ∧ (Block.can ∉ w → a14 = k.can) ∧ (Block.mvb ∉ w → a15 = k.mvb) ∧ (Block.swc ∉ w → a16 = k.swc) ∧ (Block.fab ∉ w → a17 = k.fab) ∧ (Block.bridge ∉ w → { a18 with vecPend := 0 } = { k.bridge with vecPend := 0 }) ∧ (Block.vec ∉ w → a18.vecPend = k.bridge.vecPend) ∧ (Block.pwr ∉ w → a19 = k.pwr) ∧ (Block.rep ∉ w → a20 = k.rep) ∧ (Block.shelf ∉ w → a21 = k.shelf) ∧ (Block.shadows ∉ w → a22 = k.shadows) ∧ (Block.summaries ∉ w → a23 = k.summaries ∧ a24 = k.summariesNew ∧ a25 = k.summariesAt) := by
  constructor
  · intro h; exact ⟨h .pending, h .now, h .clk, h .free, h .emit, h .sys, h .mbx, h .cmd, h .trunk, h .ina, h .sched, h .time, h .flow, h .twin, h .lsk, h .can, h .mvb, h .swc, h .fab, h .bridge, h .vec, h .pwr, h .rep, h .shelf, h .shadows, h .summaries⟩
  · rintro ⟨h0, h1, h2, h3, h4, h5, h6, h7, h8, h9, h10, h11, h12, h13, h14, h15, h16, h17, h18, h19, h20, h21, h22, h23, h24, h25⟩ b; cases b <;> assumption

theorem onlyWrites_parts (w : List Block) (k s : State) :
    OnlyWrites w k s ↔
    (Block.pending ∉ w → s.pending = k.pending) ∧ (Block.now ∉ w → s.now = k.now ∧ s.time.carry = k.time.carry) ∧ (Block.clk ∉ w → s.clk = k.clk) ∧ (Block.free ∉ w → s.free = k.free) ∧ (Block.emit ∉ w → s.emit = k.emit) ∧ (Block.sys ∉ w → s.sys = k.sys) ∧ (Block.mbx ∉ w → s.cmd.mbx = k.cmd.mbx) ∧ (Block.cmd ∉ w → { s.cmd with mbx := [] } = { k.cmd with mbx := [] }) ∧ (Block.trunk ∉ w → s.trunk = k.trunk) ∧ (Block.ina ∉ w → s.ina = k.ina) ∧ (Block.sched ∉ w → s.sched = k.sched) ∧ (Block.time ∉ w → { s.time with carry := 0 } = { k.time with carry := 0 }) ∧ (Block.flow ∉ w → s.flow = k.flow) ∧ (Block.twin ∉ w → s.twin = k.twin) ∧ (Block.lsk ∉ w → s.lsk = k.lsk) ∧ (Block.can ∉ w → s.can = k.can) ∧ (Block.mvb ∉ w → s.mvb = k.mvb) ∧ (Block.swc ∉ w → s.swc = k.swc) ∧ (Block.fab ∉ w → s.fab = k.fab) ∧ (Block.bridge ∉ w → { s.bridge with vecPend := 0 } = { k.bridge with vecPend := 0 }) ∧ (Block.vec ∉ w → s.bridge.vecPend = k.bridge.vecPend) ∧ (Block.pwr ∉ w → s.pwr = k.pwr) ∧ (Block.rep ∉ w → s.rep = k.rep) ∧ (Block.shelf ∉ w → s.shelf = k.shelf) ∧ (Block.shadows ∉ w → s.shadows = k.shadows) ∧ (Block.summaries ∉ w → s.summaries = k.summaries ∧ s.summariesNew = k.summariesNew ∧ s.summariesAt = k.summariesAt) := by
  constructor
  · intro h; exact ⟨h .pending, h .now, h .clk, h .free, h .emit, h .sys, h .mbx, h .cmd, h .trunk, h .ina, h .sched, h .time, h .flow, h .twin, h .lsk, h .can, h .mvb, h .swc, h .fab, h .bridge, h .vec, h .pwr, h .rep, h .shelf, h .shadows, h .summaries⟩
  · rintro ⟨h0, h1, h2, h3, h4, h5, h6, h7, h8, h9, h10, h11, h12, h13, h14, h15, h16, h17, h18, h19, h20, h21, h22, h23, h24, h25⟩ b; cases b <;> assumption

@[simp] theorem upd_pending (w : List Block) (k s : State) (x) (h : Block.pending ∈ w) :
    OnlyWrites w k { s with pending := x } ↔ OnlyWrites w k s := by
  rw [onlyWrites_mk, onlyWrites_parts]; simp [h]

@[simp] theorem upd_now (w : List Block) (k s : State) (x) (h : Block.now ∈ w) :
    OnlyWrites w k { s with now := x } ↔ OnlyWrites w k s := by
  rw [onlyWrites_mk, onlyWrites_parts]; simp [h]

@[simp] theorem upd_clk (w : List Block) (k s : State) (x) (h : Block.clk ∈ w) :
    OnlyWrites w k { s with clk := x } ↔ OnlyWrites w k s := by
  rw [onlyWrites_mk, onlyWrites_parts]; simp [h]

@[simp] theorem upd_free (w : List Block) (k s : State) (x) (h : Block.free ∈ w) :
    OnlyWrites w k { s with free := x } ↔ OnlyWrites w k s := by
  rw [onlyWrites_mk, onlyWrites_parts]; simp [h]

@[simp] theorem upd_emit (w : List Block) (k s : State) (x) (h : Block.emit ∈ w) :
    OnlyWrites w k { s with emit := x } ↔ OnlyWrites w k s := by
  rw [onlyWrites_mk, onlyWrites_parts]; simp [h]

@[simp] theorem upd_sys (w : List Block) (k s : State) (x) (h : Block.sys ∈ w) :
    OnlyWrites w k { s with sys := x } ↔ OnlyWrites w k s := by
  rw [onlyWrites_mk, onlyWrites_parts]; simp [h]

@[simp] theorem upd_trunk (w : List Block) (k s : State) (x) (h : Block.trunk ∈ w) :
    OnlyWrites w k { s with trunk := x } ↔ OnlyWrites w k s := by
  rw [onlyWrites_mk, onlyWrites_parts]; simp [h]

@[simp] theorem upd_ina (w : List Block) (k s : State) (x) (h : Block.ina ∈ w) :
    OnlyWrites w k { s with ina := x } ↔ OnlyWrites w k s := by
  rw [onlyWrites_mk, onlyWrites_parts]; simp [h]

@[simp] theorem upd_sched (w : List Block) (k s : State) (x) (h : Block.sched ∈ w) :
    OnlyWrites w k { s with sched := x } ↔ OnlyWrites w k s := by
  rw [onlyWrites_mk, onlyWrites_parts]; simp [h]

@[simp] theorem upd_time (w : List Block) (k s : State) (x : Time) (h : Block.time ∈ w) (hn : Block.now ∈ w) :
    OnlyWrites w k { s with time := x } ↔ OnlyWrites w k s := by
  rw [onlyWrites_mk, onlyWrites_parts]; simp [h, hn]

/-- The part of a tick goes with the count. -/
theorem upd_carry (w : List Block) (k s : State) (x : Int) (hn : Block.now ∈ w) :
    OnlyWrites w k { s with time := { s.time with carry := x } } ↔ OnlyWrites w k s := by
  rw [onlyWrites_mk, onlyWrites_parts]; simp [hn]

@[simp] theorem upd_flow (w : List Block) (k s : State) (x) (h : Block.flow ∈ w) :
    OnlyWrites w k { s with flow := x } ↔ OnlyWrites w k s := by
  rw [onlyWrites_mk, onlyWrites_parts]; simp [h]

@[simp] theorem upd_twin (w : List Block) (k s : State) (x) (h : Block.twin ∈ w) :
    OnlyWrites w k { s with twin := x } ↔ OnlyWrites w k s := by
  rw [onlyWrites_mk, onlyWrites_parts]; simp [h]

@[simp] theorem upd_lsk (w : List Block) (k s : State) (x) (h : Block.lsk ∈ w) :
    OnlyWrites w k { s with lsk := x } ↔ OnlyWrites w k s := by
  rw [onlyWrites_mk, onlyWrites_parts]; simp [h]

@[simp] theorem upd_can (w : List Block) (k s : State) (x) (h : Block.can ∈ w) :
    OnlyWrites w k { s with can := x } ↔ OnlyWrites w k s := by
  rw [onlyWrites_mk, onlyWrites_parts]; simp [h]

@[simp] theorem upd_mvb (w : List Block) (k s : State) (x) (h : Block.mvb ∈ w) :
    OnlyWrites w k { s with mvb := x } ↔ OnlyWrites w k s := by
  rw [onlyWrites_mk, onlyWrites_parts]; simp [h]

@[simp] theorem upd_swc (w : List Block) (k s : State) (x) (h : Block.swc ∈ w) :
    OnlyWrites w k { s with swc := x } ↔ OnlyWrites w k s := by
  rw [onlyWrites_mk, onlyWrites_parts]; simp [h]

@[simp] theorem upd_fab (w : List Block) (k s : State) (x) (h : Block.fab ∈ w) :
    OnlyWrites w k { s with fab := x } ↔ OnlyWrites w k s := by
  rw [onlyWrites_mk, onlyWrites_parts]; simp [h]

@[simp] theorem upd_pwr (w : List Block) (k s : State) (x) (h : Block.pwr ∈ w) :
    OnlyWrites w k { s with pwr := x } ↔ OnlyWrites w k s := by
  rw [onlyWrites_mk, onlyWrites_parts]; simp [h]

@[simp] theorem upd_rep (w : List Block) (k s : State) (x) (h : Block.rep ∈ w) :
    OnlyWrites w k { s with rep := x } ↔ OnlyWrites w k s := by
  rw [onlyWrites_mk, onlyWrites_parts]; simp [h]

@[simp] theorem upd_shelf (w : List Block) (k s : State) (x) (h : Block.shelf ∈ w) :
    OnlyWrites w k { s with shelf := x } ↔ OnlyWrites w k s := by
  rw [onlyWrites_mk, onlyWrites_parts]; simp [h]

@[simp] theorem upd_shadows (w : List Block) (k s : State) (x) (h : Block.shadows ∈ w) :
    OnlyWrites w k { s with shadows := x } ↔ OnlyWrites w k s := by
  rw [onlyWrites_mk, onlyWrites_parts]; simp [h]

@[simp] theorem upd_summaries (w : List Block) (k s : State) (x) (h : Block.summaries ∈ w) :
    OnlyWrites w k { s with summaries := x } ↔ OnlyWrites w k s := by
  rw [onlyWrites_mk, onlyWrites_parts]; simp [h]

@[simp] theorem upd_summariesNew (w : List Block) (k s : State) (x) (h : Block.summaries ∈ w) :
    OnlyWrites w k { s with summariesNew := x } ↔ OnlyWrites w k s := by
  rw [onlyWrites_mk, onlyWrites_parts]; simp [h]

@[simp] theorem upd_summariesAt (w : List Block) (k s : State) (x) (h : Block.summaries ∈ w) :
    OnlyWrites w k { s with summariesAt := x } ↔ OnlyWrites w k s := by
  rw [onlyWrites_mk, onlyWrites_parts]; simp [h]

@[simp] theorem upd_cmd (w : List Block) (k s : State) (x : Cmd) (h : Block.cmd ∈ w) (hm : x.mbx = s.cmd.mbx) :
    OnlyWrites w k { s with cmd := x } ↔ OnlyWrites w k s := by
  rw [onlyWrites_mk, onlyWrites_parts]; simp [h, hm]

theorem upd_mbx (w : List Block) (k s : State) (x : List Mailbox) (h : Block.mbx ∈ w) :
    OnlyWrites w k { s with cmd := { s.cmd with mbx := x } } ↔ OnlyWrites w k s := by
  rw [onlyWrites_mk, onlyWrites_parts]; simp [h]

@[simp] theorem upd_bridge (w : List Block) (k s : State) (x : Bridge) (h : Block.bridge ∈ w) (hv : Block.vec ∈ w) :
    OnlyWrites w k { s with bridge := x } ↔ OnlyWrites w k s := by
  rw [onlyWrites_mk, onlyWrites_parts]; simp [h, hv]

theorem upd_vec (w : List Block) (k s : State) (x : BitVec 32) (hv : Block.vec ∈ w) :
    OnlyWrites w k { s with bridge := { s.bridge with vecPend := x } } ↔ OnlyWrites w k s := by
  rw [onlyWrites_mk, onlyWrites_parts]; simp [hv]

/-- A state that differs from `s` in written parts only is as good as `s`. -/
theorem writes_of {w : List Block} {k s t : State} (h : OnlyWrites w s t) : OnlyWrites w k t ↔ OnlyWrites w k s := by
  constructor
  · intro g b hb
    have hs := h b hb
    have hg := g b hb
    cases b <;> first
      | exact hs.symm.trans hg
      | exact ⟨hs.1.symm.trans hg.1, hs.2.symm.trans hg.2⟩
      | exact ⟨hs.1.symm.trans hg.1, hs.2.1.symm.trans hg.2.1, hs.2.2.symm.trans hg.2.2⟩
  · intro g b hb
    have hs := h b hb
    have hg := g b hb
    cases b <;> first
      | exact hs.trans hg
      | exact ⟨hs.1.trans hg.1, hs.2.trans hg.2⟩
      | exact ⟨hs.1.trans hg.1, hs.2.1.trans hg.2.1, hs.2.2.trans hg.2.2⟩

@[simp] theorem onlyWrites_ite (w : List Block) (k : State) (c : Prop) [Decidable c] (a b : State) :
    OnlyWrites w k (if c then a else b) ↔ if c then OnlyWrites w k a else OnlyWrites w k b := by split <;> rfl

theorem writes_foldl {α : Type} (w : List Block) (k : State) (f : State → α → State)
    (h : ∀ s x, OnlyWrites w k (f s x) ↔ OnlyWrites w k s) (l : List α) (s : State) :
    OnlyWrites w k (l.foldl f s) ↔ OnlyWrites w k s := by
  induction l generalizing s with
  | nil => rfl
  | cons x xs ih => simp [ih, h]

theorem writes_if {w : List Block} {k : State} {c : Prop} [Decidable c] {a b s : State} (ha : OnlyWrites w k a ↔ OnlyWrites w k s)
    (hb : OnlyWrites w k b ↔ OnlyWrites w k s) : OnlyWrites w k (if c then a else b) ↔ OnlyWrites w k s := by split <;> assumption

@[simp] theorem modSys_writes (W : List Block) (S : State) (f : Sys → Sys) (s : State) (h : Block.sys ∈ W) :
    OnlyWrites W S (modSys f s) ↔ OnlyWrites W S s := by
  unfold modSys; simp [h]

theorem onlyWrites_refl (w : List Block) (s : State) : OnlyWrites w s s := by
  rw [onlyWrites_parts]; simp

end Sys2Proof.Machine
end

