-- ==== Sys2Proof/Laws/WritesOps.lean ====
section
/-! SUPPORT. The shared operations, the mailboxes and the accesses: which parts of a state they may write. -/

namespace Sys2Proof.Machine

@[simp] theorem begin__writes (W : List Block) (S : State) (dt : Nat) (s : State) (w_now : Block.now ∈ W)
    (w_clk : Block.clk ∈ W) (w_emit : Block.emit ∈ W) :
    OnlyWrites W S (begin_ dt s) ↔ OnlyWrites W S s := by
  apply writes_of; rw [onlyWrites_parts]; simp [begin_, w_now, w_clk, w_emit]

@[simp] theorem takeFree_writes (W : List Block) (S : State) (n : Nat) (s : State) (w_free : Block.free ∈ W) :
    OnlyWrites W S (takeFree n s).2 ↔ OnlyWrites W S s := by
  unfold takeFree; simp [w_free]

@[simp] theorem emit_writes (W : List Block) (S : State) (e : Emission) (s : State) (w_emit : Block.emit ∈ W) :
    OnlyWrites W S (emit e s) ↔ OnlyWrites W S s := by
  unfold emit; simp [w_emit]

@[simp] theorem emits_writes (W : List Block) (S : State) (es : List Emission) (s : State) (w_emit : Block.emit ∈ W) :
    OnlyWrites W S (emits es s) ↔ OnlyWrites W S s := by
  unfold emits; exact writes_foldl W S _ (fun s x => by simp [w_emit]) es s

@[simp] theorem modIna_writes (W : List Block) (S : State) (f : Ina → Ina) (s : State) (w_ina : Block.ina ∈ W) :
    OnlyWrites W S (modIna f s) ↔ OnlyWrites W S s := by
  unfold modIna; simp [w_ina]

@[simp] theorem modPort_writes (W : List Block) (S : State) (p : Nat) (f : Port → Port) (s : State)
    (w_trunk : Block.trunk ∈ W) :
    OnlyWrites W S (modPort p f s) ↔ OnlyWrites W S s := by
  unfold modPort; simp [w_trunk]

@[simp] theorem modCmd_writes (W : List Block) (S : State) (f : Cmd → Cmd) (s : State) (h : ∀ x, (f x).mbx = x.mbx)
    (w_cmd : Block.cmd ∈ W) :
    OnlyWrites W S (modCmd f s) ↔ OnlyWrites W S s := by
  unfold modCmd; simp [w_cmd, h]

@[simp] theorem modMbx_writes (W : List Block) (S : State) (n : Nat) (f : Mailbox → Mailbox) (s : State)
    (w_mbx : Block.mbx ∈ W) :
    OnlyWrites W S (modMbx n f s) ↔ OnlyWrites W S s := by
  unfold modMbx; exact upd_mbx _ _ _ _ w_mbx

@[simp] theorem modCan_writes (W : List Block) (S : State) (c : Nat) (f : Can → Can) (s : State)
    (w_can : Block.can ∈ W) :
    OnlyWrites W S (modCan c f s) ↔ OnlyWrites W S s := by
  unfold modCan; simp [w_can]

@[simp] theorem modMvb_writes (W : List Block) (S : State) (g : Nat) (f : Mvb → Mvb) (s : State)
    (w_mvb : Block.mvb ∈ W) :
    OnlyWrites W S (modMvb g f s) ↔ OnlyWrites W S s := by
  unfold modMvb; simp [w_mvb]

@[simp] theorem modPair_writes (W : List Block) (S : State) (l : Nat) (f : Pair → Pair) (s : State)
    (w_lsk : Block.lsk ∈ W) :
    OnlyWrites W S (modPair l f s) ↔ OnlyWrites W S s := by
  unfold modPair; simp [w_lsk]

@[simp] theorem modTio_writes (W : List Block) (S : State) (n : Nat) (f : Tio → Tio) (s : State) (w_now : Block.now ∈ W)
    (w_time : Block.time ∈ W) :
    OnlyWrites W S (modTio n f s) ↔ OnlyWrites W S s := by
  unfold modTio; simp [w_now, w_time]

@[simp] theorem modSw_writes (W : List Block) (S : State) (p : Nat) (f : SwPort → SwPort) (s : State)
    (w_swc : Block.swc ∈ W) :
    OnlyWrites W S (modSw p f s) ↔ OnlyWrites W S s := by
  unfold modSw; simp [w_swc]

@[simp] theorem modFab_writes (W : List Block) (S : State) (k : Nat) (f : FabLink → FabLink) (s : State)
    (w_fab : Block.fab ∈ W) :
    OnlyWrites W S (modFab k f s) ↔ OnlyWrites W S s := by
  unfold modFab; simp [w_fab]

@[simp] theorem modFlow_writes (W : List Block) (S : State) (f : Flow → Flow) (s : State) (w_flow : Block.flow ∈ W) :
    OnlyWrites W S (modFlow f s) ↔ OnlyWrites W S s := by
  unfold modFlow; simp [w_flow]

@[simp] theorem raiseVector_writes (W : List Block) (S : State) (v : BitVec 5) (s : State) (w_emit : Block.emit ∈ W)
    (w_vec : Block.vec ∈ W) :
    OnlyWrites W S (raiseVector v s) ↔ OnlyWrites W S s := by
  unfold raiseVector; split
  · simp [w_emit, w_vec]
  · exact upd_vec _ _ _ _ w_vec

@[simp] theorem raiseQueue_writes (W : List Block) (S : State) (s : State) (w_emit : Block.emit ∈ W)
    (w_cmd : Block.cmd ∈ W) (w_vec : Block.vec ∈ W) :
    OnlyWrites W S (raiseQueue s) ↔ OnlyWrites W S s := by
  unfold raiseQueue; simp [w_emit, w_cmd, w_vec]

@[simp] theorem queueEvent_writes (W : List Block) (S : State) (e : Event) (s : State) (w_emit : Block.emit ∈ W)
    (w_cmd : Block.cmd ∈ W) (w_vec : Block.vec ∈ W) :
    OnlyWrites W S (queueEvent e s) ↔ OnlyWrites W S s := by
  unfold queueEvent; simp [w_emit, w_cmd, w_vec]

@[simp] theorem recordEvent_writes (W : List Block) (S : State) (e : Event) (s : State) (w_cmd : Block.cmd ∈ W)
    (w_flow : Block.flow ∈ W) :
    OnlyWrites W S (recordEvent e s) ↔ OnlyWrites W S s := by
  apply writes_of; rw [onlyWrites_parts]; simp [recordEvent, w_cmd, w_flow]

@[simp] theorem raiseAt_writes (W : List Block) (S : State) (t code : Nat) (param : List Byte) (s : State)
    (w_emit : Block.emit ∈ W) (w_cmd : Block.cmd ∈ W) (w_flow : Block.flow ∈ W) (w_vec : Block.vec ∈ W) :
    OnlyWrites W S (raiseAt t code param s) ↔ OnlyWrites W S s := by
  unfold raiseAt; simp [w_emit, w_cmd, w_flow, w_vec]

@[simp] theorem raise_writes (W : List Block) (S : State) (code : Nat) (param : List Byte) (s : State)
    (w_emit : Block.emit ∈ W) (w_cmd : Block.cmd ∈ W) (w_flow : Block.flow ∈ W) (w_vec : Block.vec ∈ W) :
    OnlyWrites W S (raise code param s) ↔ OnlyWrites W S s := by
  unfold raise; simp [w_emit, w_cmd, w_flow, w_vec]

@[simp] theorem forEach_writes (W : List Block) (S : State) {α : Type} (l : List α) (f : α → State → State) (s : State)
    (h : ∀ x s, OnlyWrites W S (f x s) ↔ OnlyWrites W S s) :
    OnlyWrites W S (forEach l f s) ↔ OnlyWrites W S s := by
  unfold forEach; exact writes_foldl W S _ (fun s x => h x s) l s

@[simp] theorem completeEvent_writes (W : List Block) (S : State) (q : Queued) (status : Nat) (s : State)
    (w_emit : Block.emit ∈ W) (w_cmd : Block.cmd ∈ W) (w_flow : Block.flow ∈ W) (w_vec : Block.vec ∈ W) :
    OnlyWrites W S (completeEvent q status s) ↔ OnlyWrites W S s := by
  unfold completeEvent; simp [w_emit, w_cmd, w_flow, w_vec]

@[simp] theorem finishQueued_writes (W : List Block) (S : State) (p : Queued → Bool) (status : Nat) (s : State)
    (w_emit : Block.emit ∈ W) (w_cmd : Block.cmd ∈ W) (w_flow : Block.flow ∈ W) (w_vec : Block.vec ∈ W) :
    OnlyWrites W S (finishQueued p status s) ↔ OnlyWrites W S s := by
  unfold finishQueued; simp [w_emit, w_cmd, w_flow, w_vec]

@[simp] theorem refuseRing_writes (W : List Block) (S : State) (n : Nat) (s : State) (w_mbx : Block.mbx ∈ W)
    (w_cmd : Block.cmd ∈ W) :
    OnlyWrites W S (refuseRing n s) ↔ OnlyWrites W S s := by
  unfold refuseRing; simp [w_mbx, w_cmd]

@[simp] theorem acceptRing_writes (W : List Block) (S : State) (n : Nat) (src : Iface) (s : State)
    (w_mbx : Block.mbx ∈ W) (w_cmd : Block.cmd ∈ W) :
    OnlyWrites W S (acceptRing n src s) ↔ OnlyWrites W S s := by
  unfold acceptRing; simp [w_mbx, w_cmd]

@[simp] theorem completeMbx_writes (W : List Block) (S : State) (n : Nat) (limit : Nat) (rp : Reply) (s : State)
    (w_free : Block.free ∈ W) (w_emit : Block.emit ∈ W) (w_mbx : Block.mbx ∈ W) (w_vec : Block.vec ∈ W) :
    OnlyWrites W S (completeMbx n limit rp s) ↔ OnlyWrites W S s := by
  unfold completeMbx; simp [w_free, w_emit, w_mbx, w_vec]

@[simp] theorem areaWritten_writes (W : List Block) (S : State) (a : Nat) (s : State) (w_sys : Block.sys ∈ W)
    (w_shelf : Block.shelf ∈ W) :
    OnlyWrites W S (areaWritten a s) ↔ OnlyWrites W S s := by
  unfold areaWritten; split
  · rfl
  · apply writes_of; rw [onlyWrites_parts]; simp [w_sys, w_shelf]

@[simp] theorem settle_writes (W : List Block) (S : State) (sp : CmdSpec) (r : Ring) (before : State)
    (x : Reply × State) (h : OnlyWrites W S x.2 ↔ OnlyWrites W S before) (w_sys : Block.sys ∈ W) (w_cmd : Block.cmd ∈ W)
    (w_shelf : Block.shelf ∈ W) :
    OnlyWrites W S (settle sp r before x).2 ↔ OnlyWrites W S before := by
  have he : OnlyWrites W S (afterError sp before x.2) ↔ OnlyWrites W S before := by
    unfold afterError; split
    · simp [w_sys, w_cmd, w_shelf]
    · rfl
  unfold settle; (repeat' split) <;> simp [w_sys, w_cmd, w_shelf, h, he]

@[simp] theorem nonceSpent_writes (W : List Block) (S : State) (sp : CmdSpec) (s : State) (w_sys : Block.sys ∈ W) :
    OnlyWrites W S (nonceSpent sp s) ↔ OnlyWrites W S s := by
  unfold nonceSpent; (repeat' split) <;> simp_all [w_sys]

@[simp] theorem answer_writes (W : List Block) (S : State) (sp : CmdSpec) (body : Ring → State → Reply × State)
    (r : Ring) (s : State) (h : ∀ r s, OnlyWrites W S (body r s).2 ↔ OnlyWrites W S s) (w_sys : Block.sys ∈ W)
    (w_cmd : Block.cmd ∈ W) (w_shelf : Block.shelf ∈ W) :
    OnlyWrites W S (answer sp body r s).2 ↔ OnlyWrites W S s := by
  unfold answer; (repeat' split) <;> simp [w_sys, w_cmd, w_shelf, settle_writes, h]

@[simp] theorem runAccepted_writes (W : List Block) (S : State) (sp : CmdSpec) (body : Ring → State → Reply × State)
    (r : Ring) (s : State) (hbody : ∀ y0 y1, OnlyWrites W S (body y0 y1).2 ↔ OnlyWrites W S y1)
    (w_free : Block.free ∈ W) (w_emit : Block.emit ∈ W) (w_sys : Block.sys ∈ W) (w_mbx : Block.mbx ∈ W)
    (w_cmd : Block.cmd ∈ W) (w_vec : Block.vec ∈ W) (w_shelf : Block.shelf ∈ W) :
    OnlyWrites W S (runAccepted sp body r s) ↔ OnlyWrites W S s := by
  unfold runAccepted; (repeat' split) <;> simp_all

@[simp] theorem loadRequest_writes (W : List Block) (S : State) (op : Nat) (r : Ring) (s : State)
    (w_mbx : Block.mbx ∈ W) :
    OnlyWrites W S (loadRequest op r s) ↔ OnlyWrites W S s := by
  unfold loadRequest; simp [w_mbx]

@[simp] theorem submit_writes (W : List Block) (S : State) (sp : CmdSpec) (body : Ring → State → Reply × State)
    (dt : Nat) (r : Ring) (s : State) (hbody : ∀ y0 y1, OnlyWrites W S (body y0 y1).2 ↔ OnlyWrites W S y1)
    (w_now : Block.now ∈ W) (w_clk : Block.clk ∈ W) (w_free : Block.free ∈ W) (w_emit : Block.emit ∈ W)
    (w_sys : Block.sys ∈ W) (w_mbx : Block.mbx ∈ W) (w_cmd : Block.cmd ∈ W) (w_vec : Block.vec ∈ W)
    (w_shelf : Block.shelf ∈ W) :
    OnlyWrites W S (submit sp body dt r s) ↔ OnlyWrites W S s := by
  unfold submit; (repeat' split) <;> simp_all

@[simp] theorem runLater_writes (W : List Block) (S : State) (sp : CmdSpec) (body : Ring → State → Reply × State)
    (r : Ring) (s : State) (hbody : ∀ y0 y1, OnlyWrites W S (body y0 y1).2 ↔ OnlyWrites W S y1)
    (w_free : Block.free ∈ W) (w_emit : Block.emit ∈ W) (w_sys : Block.sys ∈ W) (w_mbx : Block.mbx ∈ W)
    (w_cmd : Block.cmd ∈ W) (w_vec : Block.vec ∈ W) (w_shelf : Block.shelf ∈ W) :
    OnlyWrites W S (runLater sp body r s) ↔ OnlyWrites W S s := by
  unfold runLater; (repeat' split) <;> simp_all

@[simp] theorem submitLater_writes (W : List Block) (S : State) (sp : CmdSpec) (body : Ring → State → Reply × State)
    (dt : Nat) (r : Ring) (s : State) (hbody : ∀ y0 y1, OnlyWrites W S (body y0 y1).2 ↔ OnlyWrites W S y1)
    (w_now : Block.now ∈ W) (w_clk : Block.clk ∈ W) (w_free : Block.free ∈ W) (w_emit : Block.emit ∈ W)
    (w_sys : Block.sys ∈ W) (w_mbx : Block.mbx ∈ W) (w_cmd : Block.cmd ∈ W) (w_vec : Block.vec ∈ W)
    (w_shelf : Block.shelf ∈ W) :
    OnlyWrites W S (submitLater sp body dt r s) ↔ OnlyWrites W S s := by
  unfold submitLater; (repeat' split) <;> simp_all

@[simp] theorem schedCount_writes (W : List Block) (S : State) (i : Nat) (s : State) (w_sched : Block.sched ∈ W) :
    OnlyWrites W S (schedCount i s) ↔ OnlyWrites W S s := by
  unfold schedCount; simp [w_sched]

@[simp] theorem trunkOut_writes (W : List Block) (S : State) (p : Nat) (f : OutFrame) (at_ : Option Int) (s : State)
    (w_emit : Block.emit ∈ W) :
    OnlyWrites W S (trunkOut p f at_ s) ↔ OnlyWrites W S s := by
  unfold trunkOut; simp [w_emit]

@[simp] theorem trunkEnqueue_writes (W : List Block) (S : State) (p q : Nat) (f : QFrame) (s : State)
    (w_trunk : Block.trunk ∈ W) (w_sched : Block.sched ∈ W) :
    OnlyWrites W S (trunkEnqueue p q f s) ↔ OnlyWrites W S s := by
  unfold trunkEnqueue; simp [w_trunk, w_sched]

@[simp] theorem mgmtSend_writes (W : List Block) (S : State) (ps : List Nat) (f : OutFrame) (len : Nat) (s : State)
    (w_trunk : Block.trunk ∈ W) (w_sched : Block.sched ∈ W) :
    OnlyWrites W S (mgmtSend ps f len s) ↔ OnlyWrites W S s := by
  unfold mgmtSend; simp [w_trunk, w_sched]

@[simp] theorem inaugSend_writes (W : List Block) (S : State) (ps : List Nat) (f : OutFrame) (s : State)
    (w_trunk : Block.trunk ∈ W) (w_sched : Block.sched ∈ W) :
    OnlyWrites W S (inaugSend ps f s) ↔ OnlyWrites W S s := by
  unfold inaugSend; simp [w_trunk, w_sched]

@[simp] theorem modFabric_writes (W : List Block) (S : State) (f : Fab → Fab) (s : State) (w_fab : Block.fab ∈ W) :
    OnlyWrites W S (modFabric f s) ↔ OnlyWrites W S s := by
  unfold modFabric; simp [w_fab]

@[simp] theorem fabCount_writes (W : List Block) (S : State) (k i : Nat) (s : State) (w_fab : Block.fab ∈ W) :
    OnlyWrites W S (fabCount k i s) ↔ OnlyWrites W S s := by
  unfold fabCount; simp [w_fab]

@[simp] theorem fabSetCosts_writes (W : List Block) (S : State) (k : Nat) (adv : List Byte) (s : State)
    (w_fab : Block.fab ∈ W) :
    OnlyWrites W S (fabSetCosts k adv s) ↔ OnlyWrites W S s := by
  unfold fabSetCosts; simp [w_fab]

@[simp] theorem fabSendOn_writes (W : List Block) (S : State) (k : Nat) (f : FabricFrame) (s : State)
    (w_emit : Block.emit ∈ W) (w_fab : Block.fab ∈ W) :
    OnlyWrites W S (fabSendOn k f s) ↔ OnlyWrites W S s := by
  unfold fabSendOn; simp [w_emit, w_fab]

@[simp] theorem fabForward_writes (W : List Block) (S : State) (from_ : Nat) (f : FabricFrame) (s : State)
    (w_emit : Block.emit ∈ W) (w_fab : Block.fab ∈ W) :
    OnlyWrites W S (fabForward from_ f s) ↔ OnlyWrites W S s := by
  unfold fabForward; (repeat' split) <;> simp [w_emit, w_fab]

@[simp] theorem fabOriginate_writes (W : List Block) (S : State) (dst cls : Nat) (p : FabricPayload) (s : State)
    (w_emit : Block.emit ∈ W) (w_fab : Block.fab ∈ W) :
    OnlyWrites W S (fabOriginate dst cls p s) ↔ OnlyWrites W S s := by
  unfold fabOriginate; simp [w_emit, w_fab]

@[simp] theorem fabRelay_writes (W : List Block) (S : State) (p : FabricPayload) (s : State) (w_emit : Block.emit ∈ W)
    (w_fab : Block.fab ∈ W) :
    OnlyWrites W S (fabRelay p s) ↔ OnlyWrites W S s := by
  unfold fabRelay; simp [w_emit, w_fab]

@[simp] theorem holdIn_writes (W : List Block) (S : State) (l : Nat) (w : BitVec 64) (k : HeldKind) (addr len : Nat)
    (d : Option (List Byte)) (s : State) (w_lsk : Block.lsk ∈ W) :
    OnlyWrites W S (holdIn l w k addr len d s) ↔ OnlyWrites W S s := by
  unfold holdIn; (repeat' split) <;> simp_all [w_lsk]

@[simp] theorem holdTxn_writes (W : List Block) (S : State) (l : Nat) (k : HeldKind) (addr len : Nat)
    (d : Option (List Byte)) (s : State) (w_lsk : Block.lsk ∈ W) :
    OnlyWrites W S (holdTxn l k addr len d s) ↔ OnlyWrites W S s := by
  unfold holdTxn; (repeat' split) <;> simp_all [w_lsk]

@[simp] theorem holdAccess_writes (W : List Block) (S : State) (l addr len : Nat) (w : Option (List Byte)) (s : State)
    (w_lsk : Block.lsk ∈ W) :
    OnlyWrites W S (holdAccess l addr len w s) ↔ OnlyWrites W S s := by
  unfold holdAccess; simp [w_lsk]

@[simp] theorem closedAnswer_writes (W : List Block) (S : State) (i : Iface) (len : Nat) (w : Option (List Byte))
    (s : State) (w_emit : Block.emit ∈ W) :
    OnlyWrites W S (closedAnswer i len w s) ↔ OnlyWrites W S s := by
  unfold closedAnswer; (repeat' split) <;> simp [w_emit]

@[simp] theorem refusedAnswer_writes (W : List Block) (S : State) (i : Iface) (len : Nat) (w : Option (List Byte))
    (s : State) (w_emit : Block.emit ∈ W) (w_bridge : Block.bridge ∈ W) (w_vec : Block.vec ∈ W) :
    OnlyWrites W S (refusedAnswer i len w s) ↔ OnlyWrites W S s := by
  unfold refusedAnswer; (repeat' split) <;> simp [w_emit, w_bridge, w_vec]

@[simp] theorem accessBy_writes (W : List Block) (S : State) (src : Iface) (addr len : Nat) (w : Option (List Byte))
    (f : State → State) (s : State) (hf : ∀ y0, OnlyWrites W S (f y0) ↔ OnlyWrites W S y0) (w_emit : Block.emit ∈ W)
    (w_lsk : Block.lsk ∈ W) (w_bridge : Block.bridge ∈ W) (w_vec : Block.vec ∈ W) :
    OnlyWrites W S (accessBy src addr len w f s) ↔ OnlyWrites W S s := by
  unfold accessBy; (repeat' split) <;> simp_all

@[simp] theorem hostAccess_writes (W : List Block) (S : State) (dt : Nat) (src : Iface) (addr : Nat)
    (w : Option (BitVec 32)) (f : State → State) (s : State) (hf : ∀ y0, OnlyWrites W S (f y0) ↔ OnlyWrites W S y0)
    (w_now : Block.now ∈ W) (w_clk : Block.clk ∈ W) (w_emit : Block.emit ∈ W) (w_lsk : Block.lsk ∈ W)
    (w_bridge : Block.bridge ∈ W) (w_vec : Block.vec ∈ W) :
    OnlyWrites W S (hostAccess dt src addr w f s) ↔ OnlyWrites W S s := by
  unfold hostAccess; (repeat' split) <;> simp_all

end Sys2Proof.Machine
end

