-- ==== Sys2Proof/Laws/WritesBus.lean ====
section
/-! SUPPORT. CAN, vehicle bus and switch: which parts of a state they may write. -/

namespace Sys2Proof.Machine

@[simp] theorem swCount_writes (W : List Block) (S : State) (p i : Nat) (s : State) (w_swc : Block.swc ∈ W) :
    OnlyWrites W S (swCount p i s) ↔ OnlyWrites W S s := by
  unfold swCount; simp [w_swc]

@[simp] theorem modStream_writes (W : List Block) (S : State) (h : Nat) (f : Stream → Stream) (s : State)
    (w_swc : Block.swc ∈ W) :
    OnlyWrites W S (modStream h f s) ↔ OnlyWrites W S s := by
  unfold modStream; simp [w_swc]

@[simp] theorem streamCount_writes (W : List Block) (S : State) (h i : Nat) (s : State) (w_swc : Block.swc ∈ W) :
    OnlyWrites W S (streamCount h i s) ↔ OnlyWrites W S s := by
  unfold streamCount; simp [w_swc]

@[simp] theorem streamPass_writes (W : List Block) (S : State) (h : Nat) (f : EthFrame) (s : State)
    (w_swc : Block.swc ∈ W) :
    OnlyWrites W S (streamPass h f s).2 ↔ OnlyWrites W S s := by
  unfold streamPass; simp [w_swc]

@[simp] theorem swEnqueue_writes (W : List Block) (S : State) (p q : Nat) (f : EthFrame) (rtag : Option (BitVec 16))
    (h : Option (Fin 256)) (s : State) (w_free : Block.free ∈ W) (w_swc : Block.swc ∈ W) :
    OnlyWrites W S (swEnqueue p q f rtag h s) ↔ OnlyWrites W S s := by
  unfold swEnqueue; simp [w_free, w_swc]

@[simp] theorem learn_writes (W : List Block) (S : State) (f : EthFrame) (vid : BitVec 12) (s : State)
    (w_swc : Block.swc ∈ W) :
    OnlyWrites W S (learn f vid s) ↔ OnlyWrites W S s := by
  unfold learn; simp [w_swc]

@[simp] theorem egress_writes (W : List Block) (S : State) (h : Option (Fin 256)) (rtag : Option (BitVec 16))
    (vid : BitVec 12) (g : EthFrame) (p : Nat) (s : State) (w_free : Block.free ∈ W) (w_emit : Block.emit ∈ W)
    (w_trunk : Block.trunk ∈ W) (w_sched : Block.sched ∈ W) (w_swc : Block.swc ∈ W) (w_fab : Block.fab ∈ W) :
    OnlyWrites W S (egress h rtag vid g p s) ↔ OnlyWrites W S s := by
  unfold egress; simp [w_free, w_emit, w_trunk, w_sched, w_swc, w_fab]

@[simp] theorem swForward_writes (W : List Block) (S : State) (h : Option Nat) (f : EthFrame) (s : State)
    (w_free : Block.free ∈ W) (w_emit : Block.emit ∈ W) (w_trunk : Block.trunk ∈ W) (w_sched : Block.sched ∈ W)
    (w_swc : Block.swc ∈ W) (w_fab : Block.fab ∈ W) :
    OnlyWrites W S (swForward h f s) ↔ OnlyWrites W S s := by
  unfold swForward; (repeat' split) <;> simp [w_free, w_emit, w_trunk, w_sched, w_swc, w_fab]

@[simp] theorem switchIn_writes (W : List Block) (S : State) (f : EthFrame) (s : State) (w_free : Block.free ∈ W)
    (w_emit : Block.emit ∈ W) (w_trunk : Block.trunk ∈ W) (w_sched : Block.sched ∈ W) (w_swc : Block.swc ∈ W)
    (w_fab : Block.fab ∈ W) :
    OnlyWrites W S (switchIn f s) ↔ OnlyWrites W S s := by
  unfold switchIn; dsimp only; (repeat' split) <;> simp [w_free, w_emit, w_trunk, w_sched, w_swc, w_fab]

@[simp] theorem consistRx_writes (W : List Block) (S : State) (f : EthFrame) (s : State) (w_free : Block.free ∈ W)
    (w_emit : Block.emit ∈ W) (w_trunk : Block.trunk ∈ W) (w_sched : Block.sched ∈ W) (w_lsk : Block.lsk ∈ W)
    (w_swc : Block.swc ∈ W) (w_fab : Block.fab ∈ W) :
    OnlyWrites W S (consistRx f s) ↔ OnlyWrites W S s := by
  unfold consistRx; dsimp only; (repeat' split) <;> simp [w_free, w_emit, w_trunk, w_sched, w_lsk, w_swc, w_fab]

@[simp] theorem swEgress_writes (W : List Block) (S : State) (p : Fin 22) (q : Nat) (s : State)
    (w_emit : Block.emit ∈ W) (w_swc : Block.swc ∈ W) :
    OnlyWrites W S (swEgress p q s) ↔ OnlyWrites W S s := by
  unfold swEgress; dsimp only; (repeat' split) <;> simp [w_emit, w_swc]

@[simp] theorem setSecured_writes (W : List Block) (S : State) (p : Nat) (b : Bool) (s : State)
    (w_emit : Block.emit ∈ W) (w_cmd : Block.cmd ∈ W) (w_flow : Block.flow ∈ W) (w_swc : Block.swc ∈ W)
    (w_vec : Block.vec ∈ W) :
    OnlyWrites W S (setSecured p b s) ↔ OnlyWrites W S s := by
  unfold setSecured; simp [w_emit, w_cmd, w_flow, w_swc, w_vec]

@[simp] theorem linkChange_writes (W : List Block) (S : State) (p : Nat) (up : Bool) (speed : Nat) (t1 : Bool)
    (s : State) (w_now : Block.now ∈ W) (w_emit : Block.emit ∈ W) (w_cmd : Block.cmd ∈ W) (w_time : Block.time ∈ W)
    (w_flow : Block.flow ∈ W) (w_swc : Block.swc ∈ W) (w_vec : Block.vec ∈ W) :
    OnlyWrites W S (linkChange p up speed t1 s) ↔ OnlyWrites W S s := by
  unfold linkChange; dsimp only; split
  · rfl
  · split
    · simp [w_now, w_emit, w_cmd, w_time, w_flow, w_swc, w_vec]
    · rw [setSecured_writes _ _ _ _ _ (by assumption) (by assumption) (by assumption) (by assumption) (by assumption),
        modSw_writes _ _ _ _ _ w_swc, upd_time _ _ _ _ w_time w_now]
      simp [w_now, w_emit, w_cmd, w_time, w_flow, w_swc, w_vec]

@[simp] theorem sakDistribute_writes (W : List Block) (S : State) (p : Fin 16) (s : State) (w_emit : Block.emit ∈ W)
    (w_cmd : Block.cmd ∈ W) (w_flow : Block.flow ∈ W) (w_swc : Block.swc ∈ W) (w_vec : Block.vec ∈ W) :
    OnlyWrites W S (sakDistribute p s) ↔ OnlyWrites W S s := by
  unfold sakDistribute; simp [w_emit, w_cmd, w_flow, w_swc, w_vec]

@[simp] theorem mkaRx_writes (W : List Block) (S : State) (p : Fin 16) (m : MkPdu) (s : State) (w_free : Block.free ∈ W)
    (w_emit : Block.emit ∈ W) (w_cmd : Block.cmd ∈ W) (w_flow : Block.flow ∈ W) (w_swc : Block.swc ∈ W)
    (w_vec : Block.vec ∈ W) :
    OnlyWrites W S (mkaRx p m s) ↔ OnlyWrites W S s := by
  unfold mkaRx; (repeat' split) <;> simp [w_free, w_emit, w_cmd, w_flow, w_swc, w_vec]

@[simp] theorem gclMacroChange_writes (W : List Block) (S : State) (s : State) (w_emit : Block.emit ∈ W)
    (w_cmd : Block.cmd ∈ W) (w_flow : Block.flow ∈ W) (w_swc : Block.swc ∈ W) (w_vec : Block.vec ∈ W) :
    OnlyWrites W S (gclMacroChange s) ↔ OnlyWrites W S s := by
  unfold gclMacroChange; simp [w_emit, w_cmd, w_flow, w_swc, w_vec]

@[simp] theorem swcStorePort_writes (W : List Block) (S : State) (p : Nat) (c : SwcCfg) (s : State)
    (w_swc : Block.swc ∈ W) :
    OnlyWrites W S (swcStorePort p c s) ↔ OnlyWrites W S s := by
  unfold swcStorePort; simp [w_swc]

@[simp] theorem swcPortConfigBody_writes (W : List Block) (S : State) (r : Ring) (s : State) (w_swc : Block.swc ∈ W) :
    OnlyWrites W S (swcPortConfigBody r s).2 ↔ OnlyWrites W S s := by
  unfold swcPortConfigBody; simp [w_swc]

@[simp] theorem swcPortStatusBody_writes (W : List Block) (S : State) (r : Ring) (s : State) (w_swc : Block.swc ∈ W) :
    OnlyWrites W S (swcPortStatusBody r s).2 ↔ OnlyWrites W S s := by
  unfold swcPortStatusBody; simp [w_swc]

@[simp] theorem swcVlanSetBody_writes (W : List Block) (S : State) (r : Ring) (s : State) (w_swc : Block.swc ∈ W) :
    OnlyWrites W S (swcVlanSetBody r s).2 ↔ OnlyWrites W S s := by
  unfold swcVlanSetBody; simp [w_swc]

@[simp] theorem swcStreamSetBody_writes (W : List Block) (S : State) (r : Ring) (s : State) (w_swc : Block.swc ∈ W) :
    OnlyWrites W S (swcStreamSetBody r s).2 ↔ OnlyWrites W S s := by
  unfold swcStreamSetBody; simp [w_swc]

@[simp] theorem swcGclStageBody_writes (W : List Block) (S : State) (r : Ring) (s : State) (w_swc : Block.swc ∈ W) :
    OnlyWrites W S (swcGclStageBody r s).2 ↔ OnlyWrites W S s := by
  unfold swcGclStageBody; (repeat' split) <;> simp [w_swc]

@[simp] theorem swcGclCommitBody_writes (W : List Block) (S : State) (r : Ring) (s : State) (w_swc : Block.swc ∈ W) :
    OnlyWrites W S (swcGclCommitBody r s).2 ↔ OnlyWrites W S s := by
  unfold swcGclCommitBody; simp [w_swc]

@[simp] theorem swcMacsecKeyBody_writes (W : List Block) (S : State) (r : Ring) (s : State) (w_swc : Block.swc ∈ W) :
    OnlyWrites W S (swcMacsecKeyBody r s).2 ↔ OnlyWrites W S s := by
  unfold swcMacsecKeyBody; simp [w_swc]

@[simp] theorem swcStreamStatusBody_writes (W : List Block) (S : State) (r : Ring) (s : State) (w_swc : Block.swc ∈ W) :
    OnlyWrites W S (swcStreamStatusBody r s).2 ↔ OnlyWrites W S s := by
  unfold swcStreamStatusBody; simp [w_swc]

@[simp] theorem swcSaveBody_writes (W : List Block) (S : State) (_r : Ring) (s : State) :
    OnlyWrites W S (swcSaveBody _r s).2 ↔ OnlyWrites W S s := by
  unfold swcSaveBody; simp

@[simp] theorem swcSaveWork_writes (W : List Block) (S : State) (s : State) (w_swc : Block.swc ∈ W) :
    OnlyWrites W S (swcSaveWork s) ↔ OnlyWrites W S s := by
  unfold swcSaveWork; simp [w_swc]

theorem execSwcPortConfig_writes (W : List Block) (S : State) (dt : Nat) (r : Ring) (s : State) (w_now : Block.now ∈ W)
    (w_clk : Block.clk ∈ W) (w_free : Block.free ∈ W) (w_emit : Block.emit ∈ W) (w_sys : Block.sys ∈ W)
    (w_mbx : Block.mbx ∈ W) (w_cmd : Block.cmd ∈ W) (w_swc : Block.swc ∈ W) (w_vec : Block.vec ∈ W)
    (w_shelf : Block.shelf ∈ W) :
    ∃ u, execSwcPortConfig dt r s = .next u ∧ (OnlyWrites W S u ↔ OnlyWrites W S s) := by
  unfold execSwcPortConfig; exact ⟨_, rfl, by simp [w_now, w_clk, w_free, w_emit, w_sys, w_mbx, w_cmd, w_swc, w_vec, w_shelf]⟩

theorem execSwcPortStatus_writes (W : List Block) (S : State) (dt : Nat) (r : Ring) (s : State) (w_now : Block.now ∈ W)
    (w_clk : Block.clk ∈ W) (w_free : Block.free ∈ W) (w_emit : Block.emit ∈ W) (w_sys : Block.sys ∈ W)
    (w_mbx : Block.mbx ∈ W) (w_cmd : Block.cmd ∈ W) (w_swc : Block.swc ∈ W) (w_vec : Block.vec ∈ W)
    (w_shelf : Block.shelf ∈ W) :
    ∃ u, execSwcPortStatus dt r s = .next u ∧ (OnlyWrites W S u ↔ OnlyWrites W S s) := by
  unfold execSwcPortStatus; exact ⟨_, rfl, by simp [w_now, w_clk, w_free, w_emit, w_sys, w_mbx, w_cmd, w_swc, w_vec, w_shelf]⟩

theorem execSwcVlanSet_writes (W : List Block) (S : State) (dt : Nat) (r : Ring) (s : State) (w_now : Block.now ∈ W)
    (w_clk : Block.clk ∈ W) (w_free : Block.free ∈ W) (w_emit : Block.emit ∈ W) (w_sys : Block.sys ∈ W)
    (w_mbx : Block.mbx ∈ W) (w_cmd : Block.cmd ∈ W) (w_swc : Block.swc ∈ W) (w_vec : Block.vec ∈ W)
    (w_shelf : Block.shelf ∈ W) :
    ∃ u, execSwcVlanSet dt r s = .next u ∧ (OnlyWrites W S u ↔ OnlyWrites W S s) := by
  unfold execSwcVlanSet; exact ⟨_, rfl, by simp [w_now, w_clk, w_free, w_emit, w_sys, w_mbx, w_cmd, w_swc, w_vec, w_shelf]⟩

theorem execSwcStreamSet_writes (W : List Block) (S : State) (dt : Nat) (r : Ring) (s : State) (w_now : Block.now ∈ W)
    (w_clk : Block.clk ∈ W) (w_free : Block.free ∈ W) (w_emit : Block.emit ∈ W) (w_sys : Block.sys ∈ W)
    (w_mbx : Block.mbx ∈ W) (w_cmd : Block.cmd ∈ W) (w_swc : Block.swc ∈ W) (w_vec : Block.vec ∈ W)
    (w_shelf : Block.shelf ∈ W) :
    ∃ u, execSwcStreamSet dt r s = .next u ∧ (OnlyWrites W S u ↔ OnlyWrites W S s) := by
  unfold execSwcStreamSet; exact ⟨_, rfl, by simp [w_now, w_clk, w_free, w_emit, w_sys, w_mbx, w_cmd, w_swc, w_vec, w_shelf]⟩

theorem execSwcGclStage_writes (W : List Block) (S : State) (dt : Nat) (r : Ring) (s : State) (w_now : Block.now ∈ W)
    (w_clk : Block.clk ∈ W) (w_free : Block.free ∈ W) (w_emit : Block.emit ∈ W) (w_sys : Block.sys ∈ W)
    (w_mbx : Block.mbx ∈ W) (w_cmd : Block.cmd ∈ W) (w_swc : Block.swc ∈ W) (w_vec : Block.vec ∈ W)
    (w_shelf : Block.shelf ∈ W) :
    ∃ u, execSwcGclStage dt r s = .next u ∧ (OnlyWrites W S u ↔ OnlyWrites W S s) := by
  unfold execSwcGclStage; exact ⟨_, rfl, by simp [w_now, w_clk, w_free, w_emit, w_sys, w_mbx, w_cmd, w_swc, w_vec, w_shelf]⟩

theorem execSwcGclCommit_writes (W : List Block) (S : State) (dt : Nat) (r : Ring) (s : State) (w_now : Block.now ∈ W)
    (w_clk : Block.clk ∈ W) (w_free : Block.free ∈ W) (w_emit : Block.emit ∈ W) (w_sys : Block.sys ∈ W)
    (w_mbx : Block.mbx ∈ W) (w_cmd : Block.cmd ∈ W) (w_swc : Block.swc ∈ W) (w_vec : Block.vec ∈ W)
    (w_shelf : Block.shelf ∈ W) :
    ∃ u, execSwcGclCommit dt r s = .next u ∧ (OnlyWrites W S u ↔ OnlyWrites W S s) := by
  unfold execSwcGclCommit; exact ⟨_, rfl, by simp [w_now, w_clk, w_free, w_emit, w_sys, w_mbx, w_cmd, w_swc, w_vec, w_shelf]⟩

theorem execSwcMacsecKey_writes (W : List Block) (S : State) (dt : Nat) (r : Ring) (s : State) (w_now : Block.now ∈ W)
    (w_clk : Block.clk ∈ W) (w_free : Block.free ∈ W) (w_emit : Block.emit ∈ W) (w_sys : Block.sys ∈ W)
    (w_mbx : Block.mbx ∈ W) (w_cmd : Block.cmd ∈ W) (w_swc : Block.swc ∈ W) (w_vec : Block.vec ∈ W)
    (w_shelf : Block.shelf ∈ W) :
    ∃ u, execSwcMacsecKey dt r s = .next u ∧ (OnlyWrites W S u ↔ OnlyWrites W S s) := by
  unfold execSwcMacsecKey; exact ⟨_, rfl, by simp [w_now, w_clk, w_free, w_emit, w_sys, w_mbx, w_cmd, w_swc, w_vec, w_shelf]⟩

theorem execSwcStreamStatus_writes (W : List Block) (S : State) (dt : Nat) (r : Ring) (s : State)
    (w_now : Block.now ∈ W) (w_clk : Block.clk ∈ W) (w_free : Block.free ∈ W) (w_emit : Block.emit ∈ W)
    (w_sys : Block.sys ∈ W) (w_mbx : Block.mbx ∈ W) (w_cmd : Block.cmd ∈ W) (w_swc : Block.swc ∈ W)
    (w_vec : Block.vec ∈ W) (w_shelf : Block.shelf ∈ W) :
    ∃ u, execSwcStreamStatus dt r s = .next u ∧ (OnlyWrites W S u ↔ OnlyWrites W S s) := by
  unfold execSwcStreamStatus; exact ⟨_, rfl, by simp [w_now, w_clk, w_free, w_emit, w_sys, w_mbx, w_cmd, w_swc, w_vec, w_shelf]⟩

theorem execSwcSave_writes (W : List Block) (S : State) (dt : Nat) (r : Ring) (s : State) (w_now : Block.now ∈ W)
    (w_clk : Block.clk ∈ W) (w_free : Block.free ∈ W) (w_emit : Block.emit ∈ W) (w_sys : Block.sys ∈ W)
    (w_mbx : Block.mbx ∈ W) (w_cmd : Block.cmd ∈ W) (w_vec : Block.vec ∈ W) (w_shelf : Block.shelf ∈ W) :
    ∃ u, execSwcSave dt r s = .next u ∧ (OnlyWrites W S u ↔ OnlyWrites W S s) := by
  unfold execSwcSave; exact ⟨_, rfl, by simp [w_now, w_clk, w_free, w_emit, w_sys, w_mbx, w_cmd, w_vec, w_shelf]⟩

theorem execConsistFrameRx_writes (W : List Block) (S : State) (dt : Nat) (f : EthFrame) (s : State)
    (w_now : Block.now ∈ W) (w_clk : Block.clk ∈ W) (w_free : Block.free ∈ W) (w_emit : Block.emit ∈ W)
    (w_trunk : Block.trunk ∈ W) (w_sched : Block.sched ∈ W) (w_lsk : Block.lsk ∈ W) (w_swc : Block.swc ∈ W)
    (w_fab : Block.fab ∈ W) :
    ∃ u, execConsistFrameRx dt f s = .next u ∧ (OnlyWrites W S u ↔ OnlyWrites W S s) := by
  unfold execConsistFrameRx; exact ⟨_, rfl, by simp [w_now, w_clk, w_free, w_emit, w_trunk, w_sched, w_lsk, w_swc, w_fab]⟩

theorem execConsistFrameEgress_writes (W : List Block) (S : State) (dt : Nat) (port : Fin 22) (queue : Fin 8)
    (s : State) (w_now : Block.now ∈ W) (w_clk : Block.clk ∈ W) (w_emit : Block.emit ∈ W) (w_swc : Block.swc ∈ W) :
    ∃ u, execConsistFrameEgress dt port queue s = .next u ∧ (OnlyWrites W S u ↔ OnlyWrites W S s) := by
  unfold execConsistFrameEgress; exact ⟨_, rfl, by simp [w_now, w_clk, w_emit, w_swc]⟩

theorem execAddressAgeing_writes (W : List Block) (S : State) (dt : Nat) (mac : BitVec 48) (vid : BitVec 12) (s : State)
    (w_now : Block.now ∈ W) (w_clk : Block.clk ∈ W) (w_emit : Block.emit ∈ W) (w_swc : Block.swc ∈ W) :
    ∃ u, execAddressAgeing dt mac vid s = .next u ∧ (OnlyWrites W S u ↔ OnlyWrites W S s) := by
  unfold execAddressAgeing; exact ⟨_, rfl, by simp [-begin__frame, w_now, w_clk, w_emit, w_swc]⟩

theorem execFrerResetTimer_writes (W : List Block) (S : State) (dt : Nat) (handle : Fin 256) (s : State)
    (w_now : Block.now ∈ W) (w_clk : Block.clk ∈ W) (w_emit : Block.emit ∈ W) (w_swc : Block.swc ∈ W) :
    ∃ u, execFrerResetTimer dt handle s = .next u ∧ (OnlyWrites W S u ↔ OnlyWrites W S s) := by
  unfold execFrerResetTimer; exact ⟨_, rfl, by simp [w_now, w_clk, w_emit, w_swc]⟩

theorem execMkaPduRx_writes (W : List Block) (S : State) (dt : Nat) (port : Fin 16) (m : MkPdu) (s : State)
    (w_now : Block.now ∈ W) (w_clk : Block.clk ∈ W) (w_free : Block.free ∈ W) (w_emit : Block.emit ∈ W)
    (w_cmd : Block.cmd ∈ W) (w_flow : Block.flow ∈ W) (w_swc : Block.swc ∈ W) (w_vec : Block.vec ∈ W) :
    ∃ u, execMkaPduRx dt port m s = .next u ∧ (OnlyWrites W S u ↔ OnlyWrites W S s) := by
  unfold execMkaPduRx; exact ⟨_, rfl, by simp [w_now, w_clk, w_free, w_emit, w_cmd, w_flow, w_swc, w_vec]⟩

theorem execSakDistribute_writes (W : List Block) (S : State) (dt : Nat) (port : Fin 16) (s : State)
    (w_now : Block.now ∈ W) (w_clk : Block.clk ∈ W) (w_emit : Block.emit ∈ W) (w_cmd : Block.cmd ∈ W)
    (w_flow : Block.flow ∈ W) (w_swc : Block.swc ∈ W) (w_vec : Block.vec ∈ W) :
    ∃ u, execSakDistribute dt port s = .next u ∧ (OnlyWrites W S u ↔ OnlyWrites W S s) := by
  unfold execSakDistribute; exact ⟨_, rfl, by simp [w_now, w_clk, w_emit, w_cmd, w_flow, w_swc, w_vec]⟩

theorem execConsistLinkChange_writes (W : List Block) (S : State) (dt : Nat) (port : Fin 16) (up : Bool) (speed : Fin 3)
    (t1Master : Bool) (s : State) (w_now : Block.now ∈ W) (w_clk : Block.clk ∈ W) (w_emit : Block.emit ∈ W)
    (w_cmd : Block.cmd ∈ W) (w_time : Block.time ∈ W) (w_flow : Block.flow ∈ W) (w_swc : Block.swc ∈ W)
    (w_vec : Block.vec ∈ W) :
    ∃ u, execConsistLinkChange dt port up speed t1Master s = .next u ∧ (OnlyWrites W S u ↔ OnlyWrites W S s) := by
  unfold execConsistLinkChange; exact ⟨_, rfl, by simp [w_now, w_clk, w_emit, w_cmd, w_time, w_flow, w_swc, w_vec]⟩

@[simp] theorem canInterrupt_writes (W : List Block) (S : State) (vector : Byte) (dest : BitVec 3) (s : State)
    (w_emit : Block.emit ∈ W) (w_vec : Block.vec ∈ W) :
    OnlyWrites W S (canInterrupt vector dest s) ↔ OnlyWrites W S s := by
  unfold canInterrupt; (repeat' split) <;> simp [w_emit, w_vec]

@[simp] theorem canIrq_writes (W : List Block) (S : State) (c bit : Nat) (s : State) (w_emit : Block.emit ∈ W)
    (w_can : Block.can ∈ W) (w_vec : Block.vec ∈ W) :
    OnlyWrites W S (canIrq c bit s) ↔ OnlyWrites W S s := by
  unfold canIrq; simp [w_emit, w_can, w_vec]

@[simp] theorem canHpbIrq_writes (W : List Block) (S : State) (_c : Nat) (o : CanObj) (s : State)
    (w_emit : Block.emit ∈ W) (w_vec : Block.vec ∈ W) :
    OnlyWrites W S (canHpbIrq _c o s) ↔ OnlyWrites W S s := by
  unfold canHpbIrq; simp [w_emit, w_vec]

@[simp] theorem canCount_writes (W : List Block) (S : State) (c i : Nat) (s : State) (w_can : Block.can ∈ W) :
    OnlyWrites W S (canCount c i s) ↔ OnlyWrites W S s := by
  unfold canCount; simp [w_can]

@[simp] theorem canStamp_writes (W : List Block) (S : State) (s : State) (w_free : Block.free ∈ W) :
    OnlyWrites W S (canStamp s).2 ↔ OnlyWrites W S s := by
  unfold canStamp; simp [w_free]

@[simp] theorem canStart_writes (W : List Block) (S : State) (c : Nat) (o : CanSlot) (exclusive : Bool) (s : State)
    (w_free : Block.free ∈ W) (w_emit : Block.emit ∈ W) (w_can : Block.can ∈ W) :
    OnlyWrites W S (canStart c o exclusive s) ↔ OnlyWrites W S s := by
  unfold canStart; simp [w_free, w_emit, w_can]

@[simp] theorem canStartRef_writes (W : List Block) (S : State) (c : Nat) (late : Bool) (s : State)
    (w_free : Block.free ∈ W) (w_emit : Block.emit ∈ W) (w_can : Block.can ∈ W) :
    OnlyWrites W S (canStartRef c late s) ↔ OnlyWrites W S s := by
  unfold canStartRef; simp [w_free, w_emit, w_can]

@[simp] theorem canRefWithhold_writes (W : List Block) (S : State) (c : Nat) (s : State) (w_can : Block.can ∈ W) :
    OnlyWrites W S (canRefWithhold c s) ↔ OnlyWrites W S s := by
  unfold canRefWithhold; dsimp only; (repeat' split) <;> simp_all [w_can]

@[simp] theorem canWithhold_writes (W : List Block) (S : State) (c : Nat) (s0 : State) (w_can : Block.can ∈ W) :
    OnlyWrites W S (canWithhold c s0) ↔ OnlyWrites W S s0 := by
  unfold canWithhold; dsimp only; (repeat' split) <;> simp_all [w_can]

@[simp] theorem canOfferExclusive_writes (W : List Block) (S : State) (c col : Nat) (o : CanSlot) (s : State)
    (w_free : Block.free ∈ W) (w_emit : Block.emit ∈ W) (w_can : Block.can ∈ W) :
    OnlyWrites W S (canOfferExclusive c col o s) ↔ OnlyWrites W S s := by
  unfold canOfferExclusive; simp [w_free, w_emit, w_can]

@[simp] theorem canOfferPending_writes (W : List Block) (S : State) (c : Nat) (s : State) (w_free : Block.free ∈ W)
    (w_emit : Block.emit ∈ W) (w_can : Block.can ∈ W) :
    OnlyWrites W S (canOfferPending c s) ↔ OnlyWrites W S s := by
  unfold canOfferPending; (repeat' split) <;> simp [w_free, w_emit, w_can]

@[simp] theorem canOffer_writes (W : List Block) (S : State) (c : Nat) (s0 : State) (w_free : Block.free ∈ W)
    (w_emit : Block.emit ∈ W) (w_can : Block.can ∈ W) :
    OnlyWrites W S (canOffer c s0) ↔ OnlyWrites W S s0 := by
  unfold canOffer; dsimp only; (repeat' split) <;> simp [w_free, w_emit, w_can]

@[simp] theorem canRequest_writes (W : List Block) (S : State) (c : Nat) (o : CanSlot) (s : State)
    (w_can : Block.can ∈ W) :
    OnlyWrites W S (canRequest c o s) ↔ OnlyWrites W S s := by
  unfold canRequest; simp [w_can]

@[simp] theorem canCancel_writes (W : List Block) (S : State) (c : Nat) (o : CanSlot) (s : State)
    (w_emit : Block.emit ∈ W) (w_can : Block.can ∈ W) (w_vec : Block.vec ∈ W) :
    OnlyWrites W S (canCancel c o s) ↔ OnlyWrites W S s := by
  unfold canCancel; dsimp only; (repeat' split) <;> simp [w_emit, w_can, w_vec]

@[simp] theorem canSetEState_writes (W : List Block) (S : State) (c : Nat) (e : EState) (s : State)
    (w_emit : Block.emit ∈ W) (w_cmd : Block.cmd ∈ W) (w_flow : Block.flow ∈ W) (w_can : Block.can ∈ W)
    (w_vec : Block.vec ∈ W) :
    OnlyWrites W S (canSetEState c e s) ↔ OnlyWrites W S s := by
  unfold canSetEState; simp [w_emit, w_cmd, w_flow, w_can, w_vec]

@[simp] theorem canJudge_writes (W : List Block) (S : State) (c : Nat) (s : State) (w_emit : Block.emit ∈ W)
    (w_cmd : Block.cmd ∈ W) (w_flow : Block.flow ∈ W) (w_can : Block.can ∈ W) (w_vec : Block.vec ∈ W) :
    OnlyWrites W S (canJudge c s) ↔ OnlyWrites W S s := by
  unfold canJudge; simp [w_emit, w_cmd, w_flow, w_can, w_vec]

@[simp] theorem canBusOff_writes (W : List Block) (S : State) (c : Nat) (s : State) (w_emit : Block.emit ∈ W)
    (w_cmd : Block.cmd ∈ W) (w_flow : Block.flow ∈ W) (w_can : Block.can ∈ W) (w_vec : Block.vec ∈ W) :
    OnlyWrites W S (canBusOff c s) ↔ OnlyWrites W S s := by
  unfold canBusOff; simp [w_emit, w_cmd, w_flow, w_can, w_vec]

@[simp] theorem canTecInc_writes (W : List Block) (S : State) (c n : Nat) (s : State) (w_emit : Block.emit ∈ W)
    (w_cmd : Block.cmd ∈ W) (w_flow : Block.flow ∈ W) (w_can : Block.can ∈ W) (w_vec : Block.vec ∈ W) :
    OnlyWrites W S (canTecInc c n s) ↔ OnlyWrites W S s := by
  unfold canTecInc; simp [w_emit, w_cmd, w_flow, w_can, w_vec]

@[simp] theorem canRecInc_writes (W : List Block) (S : State) (c n : Nat) (s : State) (w_emit : Block.emit ∈ W)
    (w_cmd : Block.cmd ∈ W) (w_flow : Block.flow ∈ W) (w_can : Block.can ∈ W) (w_vec : Block.vec ∈ W) :
    OnlyWrites W S (canRecInc c n s) ↔ OnlyWrites W S s := by
  unfold canRecInc; simp [w_emit, w_cmd, w_flow, w_can, w_vec]

@[simp] theorem canRecOk_writes (W : List Block) (S : State) (c : Nat) (s : State) (w_emit : Block.emit ∈ W)
    (w_cmd : Block.cmd ∈ W) (w_flow : Block.flow ∈ W) (w_can : Block.can ∈ W) (w_vec : Block.vec ∈ W) :
    OnlyWrites W S (canRecOk c s) ↔ OnlyWrites W S s := by
  unfold canRecOk; simp [w_emit, w_cmd, w_flow, w_can, w_vec]

@[simp] theorem canApplyMode_writes (W : List Block) (S : State) (c m : Nat) (s : State) (w_can : Block.can ∈ W) :
    OnlyWrites W S (canApplyMode c m s) ↔ OnlyWrites W S s := by
  unfold canApplyMode; simp [w_can]

@[simp] theorem canFrameEnd_writes (W : List Block) (S : State) (c : Nat) (s : State) (w_free : Block.free ∈ W)
    (w_emit : Block.emit ∈ W) (w_can : Block.can ∈ W) :
    OnlyWrites W S (canFrameEnd c s) ↔ OnlyWrites W S s := by
  unfold canFrameEnd; dsimp only; (repeat' split) <;> simp [w_free, w_emit, w_can]

@[simp] theorem canWriteCtrl_writes (W : List Block) (S : State) (c : Nat) (busy : Bool) (v : BitVec 32) (s : State)
    (w_can : Block.can ∈ W) (w_free : Block.free ∈ W) (w_emit : Block.emit ∈ W) :
    OnlyWrites W S (canWriteCtrl c busy v s) ↔ OnlyWrites W S s := by
  unfold canWriteCtrl; simp [w_free, w_emit, w_can]

@[simp] theorem canTxComplete_writes (W : List Block) (S : State) (c : Nat) (tdcv : Option Nat) (s : State)
    (w_free : Block.free ∈ W) (w_emit : Block.emit ∈ W) (w_cmd : Block.cmd ∈ W) (w_flow : Block.flow ∈ W)
    (w_can : Block.can ∈ W) (w_vec : Block.vec ∈ W) :
    OnlyWrites W S (canTxComplete c tdcv s) ↔ OnlyWrites W S s := by
  unfold canTxComplete; dsimp only; (repeat' split) <;> simp [w_free, w_emit, w_cmd, w_flow, w_can, w_vec]

@[simp] theorem canAttemptLost_writes (W : List Block) (S : State) (c : Nat) (s : State) (w_emit : Block.emit ∈ W)
    (w_can : Block.can ∈ W) (w_vec : Block.vec ∈ W) :
    OnlyWrites W S (canAttemptLost c s) ↔ OnlyWrites W S s := by
  unfold canAttemptLost; (repeat' split) <;> simp [w_emit, w_can, w_vec]

@[simp] theorem canArbLost_writes (W : List Block) (S : State) (c : Nat) (s : State) (w_emit : Block.emit ∈ W)
    (w_can : Block.can ∈ W) (w_vec : Block.vec ∈ W) :
    OnlyWrites W S (canArbLost c s) ↔ OnlyWrites W S s := by
  unfold canArbLost; (repeat' split) <;> simp [w_emit, w_can, w_vec]

@[simp] theorem canToSlot_writes (W : List Block) (S : State) (c : Nat) (o : CanSlot) (f : CanFrame) (filter : Nat)
    (s : State) (w_emit : Block.emit ∈ W) (w_can : Block.can ∈ W) (w_vec : Block.vec ∈ W) :
    OnlyWrites W S (canToSlot c o f filter s) ↔ OnlyWrites W S s := by
  unfold canToSlot; (repeat' split) <;> simp [w_emit, w_can, w_vec]

@[simp] theorem canToFifo_writes (W : List Block) (S : State) (c : Nat) (f : CanFrame) (filter : Nat) (s : State)
    (w_emit : Block.emit ∈ W) (w_can : Block.can ∈ W) (w_vec : Block.vec ∈ W) :
    OnlyWrites W S (canToFifo c f filter s) ↔ OnlyWrites W S s := by
  unfold canToFifo; simp [w_emit, w_can, w_vec]

@[simp] theorem canFilter_writes (W : List Block) (S : State) (c : Nat) (f : CanFrame) (s : State)
    (w_emit : Block.emit ∈ W) (w_can : Block.can ∈ W) (w_vec : Block.vec ∈ W) :
    OnlyWrites W S (canFilter c f s) ↔ OnlyWrites W S s := by
  unfold canFilter; dsimp only; (repeat' split) <;> simp [w_emit, w_can, w_vec]

@[simp] theorem canForeignGuard_writes (W : List Block) (S : State) (s : State) (w_twin : Block.twin ∈ W)
    (w_can : Block.can ∈ W) :
    OnlyWrites W S (canForeignGuard s) ↔ OnlyWrites W S s := by
  unfold canForeignGuard; simp [w_twin, w_can]

@[simp] theorem canReceive_writes (W : List Block) (S : State) (c : Nat) (f : CanFrame) (own : Bool) (s : State)
    (w_free : Block.free ∈ W) (w_emit : Block.emit ∈ W) (w_cmd : Block.cmd ∈ W) (w_flow : Block.flow ∈ W)
    (w_twin : Block.twin ∈ W) (w_can : Block.can ∈ W) (w_vec : Block.vec ∈ W) :
    OnlyWrites W S (canReceive c f own s) ↔ OnlyWrites W S s := by
  unfold canReceive; simp [w_free, w_emit, w_cmd, w_flow, w_twin, w_can, w_vec]

@[simp] theorem canAckError_writes (W : List Block) (S : State) (c : Nat) (s : State) (w_emit : Block.emit ∈ W)
    (w_can : Block.can ∈ W) (w_vec : Block.vec ∈ W) :
    OnlyWrites W S (canAckError c s) ↔ OnlyWrites W S s := by
  unfold canAckError; dsimp only; (repeat' split) <;> simp [w_emit, w_can, w_vec]

@[simp] theorem canUnackRestart_writes (W : List Block) (S : State) (c : Nat) (s : State) (w_can : Block.can ∈ W) :
    OnlyWrites W S (canUnackRestart c s) ↔ OnlyWrites W S s := by
  unfold canUnackRestart; (repeat' split) <;> simp [w_can]

@[simp] theorem canError_writes (W : List Block) (S : State) (c : Nat) (e : CanError) (s : State)
    (w_free : Block.free ∈ W) (w_emit : Block.emit ∈ W) (w_cmd : Block.cmd ∈ W) (w_flow : Block.flow ∈ W)
    (w_can : Block.can ∈ W) (w_vec : Block.vec ∈ W) :
    OnlyWrites W S (canError c e s) ↔ OnlyWrites W S s := by
  unfold canError; simp [w_free, w_emit, w_cmd, w_flow, w_can, w_vec]

@[simp] theorem canRecovered_writes (W : List Block) (S : State) (c occ : Nat) (s : State) (w_free : Block.free ∈ W)
    (w_emit : Block.emit ∈ W) (w_cmd : Block.cmd ∈ W) (w_flow : Block.flow ∈ W) (w_can : Block.can ∈ W)
    (w_vec : Block.vec ∈ W) :
    OnlyWrites W S (canRecovered c occ s) ↔ OnlyWrites W S s := by
  unfold canRecovered; simp [w_free, w_emit, w_cmd, w_flow, w_can, w_vec]

@[simp] theorem canObjWrite_writes (W : List Block) (S : State) (c : Nat) (o : CanSlot) (w : Nat) (v : BitVec 32)
    (s : State) (w_can : Block.can ∈ W) :
    OnlyWrites W S (canObjWrite c o w v s) ↔ OnlyWrites W S s := by
  unfold canObjWrite; simp [w_can]

@[simp] theorem canLatch_writes (W : List Block) (S : State) (c : Nat) (o : CanSlot) (i : Iface) (s : State)
    (w_can : Block.can ∈ W) :
    OnlyWrites W S (canLatch c o i s) ↔ OnlyWrites W S s := by
  unfold canLatch; simp [w_can]

@[simp] theorem canLoadOne_writes (W : List Block) (S : State) (c : Nat) (s : State) (w_can : Block.can ∈ W) (w_free : Block.free ∈ W) (w_emit : Block.emit ∈ W) :
    OnlyWrites W S (canLoadOne c s) ↔ OnlyWrites W S s := by
  unfold canLoadOne; (repeat' split) <;> simp [w_free, w_emit, w_can]

@[simp] theorem canSaveMask_writes (W : List Block) (S : State) (mask : Nat) (s : State) (w_can : Block.can ∈ W) :
    OnlyWrites W S (canSaveMask mask s) ↔ OnlyWrites W S s := by
  unfold canSaveMask; simp [w_can]

@[simp] theorem canSaveBody_writes (W : List Block) (S : State) (r : Ring) (s : State) :
    OnlyWrites W S (canSaveBody r s).2 ↔ OnlyWrites W S s := by
  unfold canSaveBody; simp

@[simp] theorem canLoadBody_writes (W : List Block) (S : State) (r : Ring) (s : State) (w_can : Block.can ∈ W) (w_free : Block.free ∈ W) (w_emit : Block.emit ∈ W) :
    OnlyWrites W S (canLoadBody r s).2 ↔ OnlyWrites W S s := by
  unfold canLoadBody; (repeat' split) <;> simp [w_free, w_emit, w_can]

theorem execCanFrameRx_writes (W : List Block) (S : State) (dt : Nat) (c : Fin 12) (f : CanFrame) (own : Bool)
    (s : State) (w_now : Block.now ∈ W) (w_clk : Block.clk ∈ W) (w_free : Block.free ∈ W) (w_emit : Block.emit ∈ W)
    (w_cmd : Block.cmd ∈ W) (w_flow : Block.flow ∈ W) (w_twin : Block.twin ∈ W) (w_can : Block.can ∈ W)
    (w_vec : Block.vec ∈ W) :
    ∃ u, execCanFrameRx dt c f own s = .next u ∧ (OnlyWrites W S u ↔ OnlyWrites W S s) := by
  unfold execCanFrameRx; exact ⟨_, rfl, by simp [w_now, w_clk, w_free, w_emit, w_cmd, w_flow, w_twin, w_can, w_vec]⟩

theorem execCanTxComplete_writes (W : List Block) (S : State) (dt : Nat) (c : Fin 12) (tdcv : Option Nat) (s : State)
    (w_now : Block.now ∈ W) (w_clk : Block.clk ∈ W) (w_free : Block.free ∈ W) (w_emit : Block.emit ∈ W)
    (w_cmd : Block.cmd ∈ W) (w_flow : Block.flow ∈ W) (w_can : Block.can ∈ W) (w_vec : Block.vec ∈ W) :
    ∃ u, execCanTxComplete dt c tdcv s = .next u ∧ (OnlyWrites W S u ↔ OnlyWrites W S s) := by
  unfold execCanTxComplete; exact ⟨_, rfl, by simp [w_now, w_clk, w_free, w_emit, w_cmd, w_flow, w_can, w_vec]⟩

theorem execCanArbitrationLost_writes (W : List Block) (S : State) (dt : Nat) (c : Fin 12) (s : State)
    (w_now : Block.now ∈ W) (w_clk : Block.clk ∈ W) (w_emit : Block.emit ∈ W) (w_can : Block.can ∈ W)
    (w_vec : Block.vec ∈ W) :
    ∃ u, execCanArbitrationLost dt c s = .next u ∧ (OnlyWrites W S u ↔ OnlyWrites W S s) := by
  unfold execCanArbitrationLost; exact ⟨_, rfl, by simp [w_now, w_clk, w_emit, w_can, w_vec]⟩

theorem execCanError_writes (W : List Block) (S : State) (dt : Nat) (c : Fin 12) (e : CanError) (s : State)
    (w_now : Block.now ∈ W) (w_clk : Block.clk ∈ W) (w_free : Block.free ∈ W) (w_emit : Block.emit ∈ W)
    (w_cmd : Block.cmd ∈ W) (w_flow : Block.flow ∈ W) (w_can : Block.can ∈ W) (w_vec : Block.vec ∈ W) :
    ∃ u, execCanError dt c e s = .next u ∧ (OnlyWrites W S u ↔ OnlyWrites W S s) := by
  unfold execCanError; exact ⟨_, rfl, by simp [w_now, w_clk, w_free, w_emit, w_cmd, w_flow, w_can, w_vec]⟩

theorem execCanRecoveryComplete_writes (W : List Block) (S : State) (dt : Nat) (c : Fin 12) (occ : Fin 129) (s : State)
    (w_now : Block.now ∈ W) (w_clk : Block.clk ∈ W) (w_free : Block.free ∈ W) (w_emit : Block.emit ∈ W)
    (w_cmd : Block.cmd ∈ W) (w_flow : Block.flow ∈ W) (w_can : Block.can ∈ W) (w_vec : Block.vec ∈ W) :
    ∃ u, execCanRecoveryComplete dt c occ s = .next u ∧ (OnlyWrites W S u ↔ OnlyWrites W S s) := by
  unfold execCanRecoveryComplete; exact ⟨_, rfl, by simp [w_now, w_clk, w_free, w_emit, w_cmd, w_flow, w_can, w_vec]⟩

@[simp] theorem canIntegrated_writes (W : List Block) (S : State) (c : Nat) (s : State) (w_free : Block.free ∈ W)
    (w_emit : Block.emit ∈ W) (w_can : Block.can ∈ W) :
    OnlyWrites W S (canIntegrated c s) ↔ OnlyWrites W S s := by
  unfold canIntegrated; simp [w_free, w_emit, w_can]

theorem execCanIntegrationComplete_writes (W : List Block) (S : State) (dt : Nat) (c : Fin 12) (s : State)
    (w_now : Block.now ∈ W) (w_clk : Block.clk ∈ W) (w_free : Block.free ∈ W) (w_emit : Block.emit ∈ W)
    (w_can : Block.can ∈ W) :
    ∃ u, execCanIntegrationComplete dt c s = .next u ∧ (OnlyWrites W S u ↔ OnlyWrites W S s) := by
  unfold execCanIntegrationComplete; exact ⟨_, rfl, by simp [w_now, w_clk, w_free, w_emit, w_can]⟩

theorem execCanWakePattern_writes (W : List Block) (S : State) (dt : Nat) (c : Fin 12) (s : State)
    (w_now : Block.now ∈ W) (w_clk : Block.clk ∈ W) (w_emit : Block.emit ∈ W) (w_cmd : Block.cmd ∈ W)
    (w_flow : Block.flow ∈ W) (w_vec : Block.vec ∈ W) :
    ∃ u, execCanWakePattern dt c s = .next u ∧ (OnlyWrites W S u ↔ OnlyWrites W S s) := by
  unfold execCanWakePattern; exact ⟨_, rfl, by simp [w_now, w_clk, w_emit, w_cmd, w_flow, w_vec]⟩

theorem execCanModeWrite_writes (W : List Block) (S : State) (dt : Nat) (c : Fin 12) (src : Iface) (value : BitVec 32)
    (busy : Bool) (s : State) (w_now : Block.now ∈ W) (w_clk : Block.clk ∈ W) (w_emit : Block.emit ∈ W)
    (w_lsk : Block.lsk ∈ W) (w_can : Block.can ∈ W) (w_bridge : Block.bridge ∈ W) (w_vec : Block.vec ∈ W) (w_free : Block.free ∈ W) :
    ∃ u, execCanModeWrite dt c src value busy s = .next u ∧ (OnlyWrites W S u ↔ OnlyWrites W S s) := by
  unfold execCanModeWrite; exact ⟨_, rfl, by simp [w_free, w_now, w_clk, w_emit, w_lsk, w_can, w_bridge, w_vec]⟩

@[simp] theorem canTxrq_writes (W : List Block) (S : State) (c m : Nat) (v : BitVec 32) (s : State)
    (w_free : Block.free ∈ W) (w_emit : Block.emit ∈ W) (w_can : Block.can ∈ W) :
    OnlyWrites W S (canTxrq c m v s) ↔ OnlyWrites W S s := by
  unfold canTxrq; simp [w_free, w_emit, w_can]

@[simp] theorem canTxcan_writes (W : List Block) (S : State) (c m : Nat) (v : BitVec 32) (s : State)
    (w_emit : Block.emit ∈ W) (w_can : Block.can ∈ W) (w_vec : Block.vec ∈ W) :
    OnlyWrites W S (canTxcan c m v s) ↔ OnlyWrites W S s := by
  unfold canTxcan; simp [w_emit, w_can, w_vec]

@[simp] theorem canHpbCtrl_writes (W : List Block) (S : State) (c : Nat) (v : BitVec 32) (s : State)
    (w_free : Block.free ∈ W) (w_emit : Block.emit ∈ W) (w_can : Block.can ∈ W) (w_vec : Block.vec ∈ W) :
    OnlyWrites W S (canHpbCtrl c v s) ↔ OnlyWrites W S s := by
  unfold canHpbCtrl; simp [w_free, w_emit, w_can, w_vec]

theorem execCanTxrqWrite_writes (W : List Block) (S : State) (dt : Nat) (c : Fin 12) (m : Fin 4) (src : Iface)
    (value : BitVec 32) (s : State) (w_now : Block.now ∈ W) (w_clk : Block.clk ∈ W) (w_free : Block.free ∈ W)
    (w_emit : Block.emit ∈ W) (w_lsk : Block.lsk ∈ W) (w_can : Block.can ∈ W) (w_bridge : Block.bridge ∈ W)
    (w_vec : Block.vec ∈ W) :
    ∃ u, execCanTxrqWrite dt c m src value s = .next u ∧ (OnlyWrites W S u ↔ OnlyWrites W S s) := by
  unfold execCanTxrqWrite; exact ⟨_, rfl, by simp [w_now, w_clk, w_free, w_emit, w_lsk, w_can, w_bridge, w_vec]⟩

theorem execCanTxcanWrite_writes (W : List Block) (S : State) (dt : Nat) (c : Fin 12) (m : Fin 4) (src : Iface)
    (value : BitVec 32) (s : State) (w_now : Block.now ∈ W) (w_clk : Block.clk ∈ W) (w_emit : Block.emit ∈ W)
    (w_lsk : Block.lsk ∈ W) (w_can : Block.can ∈ W) (w_bridge : Block.bridge ∈ W) (w_vec : Block.vec ∈ W) :
    ∃ u, execCanTxcanWrite dt c m src value s = .next u ∧ (OnlyWrites W S u ↔ OnlyWrites W S s) := by
  unfold execCanTxcanWrite; exact ⟨_, rfl, by simp [w_now, w_clk, w_emit, w_lsk, w_can, w_bridge, w_vec]⟩

theorem execCanHpbRequest_writes (W : List Block) (S : State) (dt : Nat) (c : Fin 12) (src : Iface) (value : BitVec 32)
    (s : State) (w_now : Block.now ∈ W) (w_clk : Block.clk ∈ W) (w_free : Block.free ∈ W) (w_emit : Block.emit ∈ W)
    (w_lsk : Block.lsk ∈ W) (w_can : Block.can ∈ W) (w_bridge : Block.bridge ∈ W) (w_vec : Block.vec ∈ W) :
    ∃ u, execCanHpbRequest dt c src value s = .next u ∧ (OnlyWrites W S u ↔ OnlyWrites W S s) := by
  unfold execCanHpbRequest; exact ⟨_, rfl, by simp [w_now, w_clk, w_free, w_emit, w_lsk, w_can, w_bridge, w_vec]⟩

theorem execCanHpbCancel_writes (W : List Block) (S : State) (dt : Nat) (c : Fin 12) (src : Iface) (value : BitVec 32)
    (s : State) (w_now : Block.now ∈ W) (w_clk : Block.clk ∈ W) (w_free : Block.free ∈ W) (w_emit : Block.emit ∈ W)
    (w_lsk : Block.lsk ∈ W) (w_can : Block.can ∈ W) (w_bridge : Block.bridge ∈ W) (w_vec : Block.vec ∈ W) :
    ∃ u, execCanHpbCancel dt c src value s = .next u ∧ (OnlyWrites W S u ↔ OnlyWrites W S s) := by
  unfold execCanHpbCancel; exact ⟨_, rfl, by simp [w_now, w_clk, w_free, w_emit, w_lsk, w_can, w_bridge, w_vec]⟩

@[simp] theorem canRecoverStart_writes (W : List Block) (S : State) (c : Nat) (v : BitVec 32) (s : State)
    (w_can : Block.can ∈ W) :
    OnlyWrites W S (canRecoverStart c v s) ↔ OnlyWrites W S s := by
  unfold canRecoverStart; simp [w_can]

theorem execCanRecoverStart_writes (W : List Block) (S : State) (dt : Nat) (c : Fin 12) (src : Iface)
    (value : BitVec 32) (s : State) (w_now : Block.now ∈ W) (w_clk : Block.clk ∈ W) (w_emit : Block.emit ∈ W)
    (w_lsk : Block.lsk ∈ W) (w_can : Block.can ∈ W) (w_bridge : Block.bridge ∈ W) (w_vec : Block.vec ∈ W) :
    ∃ u, execCanRecoverStart dt c src value s = .next u ∧ (OnlyWrites W S u ↔ OnlyWrites W S s) := by
  unfold execCanRecoverStart; exact ⟨_, rfl, by simp [w_now, w_clk, w_emit, w_lsk, w_can, w_bridge, w_vec]⟩

@[simp] theorem canFifoPop_writes (W : List Block) (S : State) (c : Nat) (v : BitVec 32) (s : State)
    (w_can : Block.can ∈ W) :
    OnlyWrites W S (canFifoPop c v s) ↔ OnlyWrites W S s := by
  unfold canFifoPop; simp [w_can]

theorem execCanFifoPop_writes (W : List Block) (S : State) (dt : Nat) (c : Fin 12) (src : Iface) (value : BitVec 32)
    (s : State) (w_now : Block.now ∈ W) (w_clk : Block.clk ∈ W) (w_emit : Block.emit ∈ W) (w_lsk : Block.lsk ∈ W)
    (w_can : Block.can ∈ W) (w_bridge : Block.bridge ∈ W) (w_vec : Block.vec ∈ W) :
    ∃ u, execCanFifoPop dt c src value s = .next u ∧ (OnlyWrites W S u ↔ OnlyWrites W S s) := by
  unfold execCanFifoPop; exact ⟨_, rfl, by simp [w_now, w_clk, w_emit, w_lsk, w_can, w_bridge, w_vec]⟩

theorem execCanObjectWord0Read_writes (W : List Block) (S : State) (dt : Nat) (c : Fin 12) (o : CanSlot) (src : Iface)
    (s : State) (w_now : Block.now ∈ W) (w_clk : Block.clk ∈ W) (w_emit : Block.emit ∈ W) (w_lsk : Block.lsk ∈ W)
    (w_can : Block.can ∈ W) (w_bridge : Block.bridge ∈ W) (w_vec : Block.vec ∈ W) :
    ∃ u, execCanObjectWord0Read dt c o src s = .next u ∧ (OnlyWrites W S u ↔ OnlyWrites W S s) := by
  unfold execCanObjectWord0Read; exact ⟨_, rfl, by simp [w_now, w_clk, w_emit, w_lsk, w_can, w_bridge, w_vec]⟩

theorem execCanObjectWrite_writes (W : List Block) (S : State) (dt : Nat) (c : Fin 12) (o : CanSlot) (word : Fin 20)
    (src : Iface) (value : BitVec 32) (s : State) (w_now : Block.now ∈ W) (w_clk : Block.clk ∈ W)
    (w_emit : Block.emit ∈ W) (w_lsk : Block.lsk ∈ W) (w_can : Block.can ∈ W) (w_bridge : Block.bridge ∈ W)
    (w_vec : Block.vec ∈ W) :
    ∃ u, execCanObjectWrite dt c o word src value s = .next u ∧ (OnlyWrites W S u ↔ OnlyWrites W S s) := by
  unfold execCanObjectWrite; exact ⟨_, rfl, by simp [w_now, w_clk, w_emit, w_lsk, w_can, w_bridge, w_vec]⟩

theorem execCanSave_writes (W : List Block) (S : State) (dt : Nat) (r : Ring) (s : State) (w_now : Block.now ∈ W)
    (w_clk : Block.clk ∈ W) (w_free : Block.free ∈ W) (w_emit : Block.emit ∈ W) (w_sys : Block.sys ∈ W)
    (w_mbx : Block.mbx ∈ W) (w_cmd : Block.cmd ∈ W) (w_vec : Block.vec ∈ W) (w_shelf : Block.shelf ∈ W) :
    ∃ u, execCanSave dt r s = .next u ∧ (OnlyWrites W S u ↔ OnlyWrites W S s) := by
  unfold execCanSave; exact ⟨_, rfl, by simp [w_now, w_clk, w_free, w_emit, w_sys, w_mbx, w_cmd, w_vec, w_shelf]⟩

theorem execCanLoad_writes (W : List Block) (S : State) (dt : Nat) (r : Ring) (s : State) (w_now : Block.now ∈ W)
    (w_clk : Block.clk ∈ W) (w_free : Block.free ∈ W) (w_emit : Block.emit ∈ W) (w_sys : Block.sys ∈ W)
    (w_mbx : Block.mbx ∈ W) (w_cmd : Block.cmd ∈ W) (w_can : Block.can ∈ W) (w_vec : Block.vec ∈ W)
    (w_shelf : Block.shelf ∈ W) :
    ∃ u, execCanLoad dt r s = .next u ∧ (OnlyWrites W S u ↔ OnlyWrites W S s) := by
  unfold execCanLoad; exact ⟨_, rfl, by simp [w_now, w_clk, w_free, w_emit, w_sys, w_mbx, w_cmd, w_can, w_vec, w_shelf]⟩

@[simp] theorem canTtFault_writes (W : List Block) (S : State) (c cause : Nat) (s : State) (w_emit : Block.emit ∈ W)
    (w_cmd : Block.cmd ∈ W) (w_flow : Block.flow ∈ W) (w_vec : Block.vec ∈ W) :
    OnlyWrites W S (canTtFault c cause s) ↔ OnlyWrites W S s := by
  unfold canTtFault; simp [w_emit, w_cmd, w_flow, w_vec]

@[simp] theorem canCommitNow_writes (W : List Block) (S : State) (c : Nat) (s : State) (w_emit : Block.emit ∈ W)
    (w_cmd : Block.cmd ∈ W) (w_flow : Block.flow ∈ W) (w_can : Block.can ∈ W) (w_vec : Block.vec ∈ W) :
    OnlyWrites W S (canCommitNow c s) ↔ OnlyWrites W S s := by
  unfold canCommitNow; simp [w_emit, w_cmd, w_flow, w_can, w_vec]

@[simp] theorem canCommitWrite_writes (W : List Block) (S : State) (c : Nat) (cycle : BitVec 32) (s : State)
    (w_emit : Block.emit ∈ W) (w_cmd : Block.cmd ∈ W) (w_flow : Block.flow ∈ W) (w_can : Block.can ∈ W)
    (w_vec : Block.vec ∈ W) :
    OnlyWrites W S (canCommitWrite c cycle s) ↔ OnlyWrites W S s := by
  unfold canCommitWrite; simp [w_emit, w_cmd, w_flow, w_can, w_vec]

@[simp] theorem canEndChecks_writes (W : List Block) (S : State) (c : Nat) (counted : Bool) (s : State)
    (w_can : Block.can ∈ W) :
    OnlyWrites W S (canEndChecks c counted s) ↔ OnlyWrites W S s := by
  unfold canEndChecks; simp [w_can]

@[simp] theorem canBegin_writes (W : List Block) (S : State) (c row : Nat) (s : State) (w_can : Block.can ∈ W) :
    OnlyWrites W S (canBegin c row s) ↔ OnlyWrites W S s := by
  unfold canBegin; simp [w_can]

@[simp] theorem canMacroChange_writes (W : List Block) (S : State) (c : Nat) (s : State) (w_emit : Block.emit ∈ W)
    (w_cmd : Block.cmd ∈ W) (w_flow : Block.flow ∈ W) (w_can : Block.can ∈ W) (w_vec : Block.vec ∈ W) :
    OnlyWrites W S (canMacroChange c s) ↔ OnlyWrites W S s := by
  unfold canMacroChange; simp [w_emit, w_cmd, w_flow, w_can, w_vec]

@[simp] theorem canReference_writes (W : List Block) (S : State) (c count : Nat) (s : State) (w_emit : Block.emit ∈ W)
    (w_cmd : Block.cmd ∈ W) (w_flow : Block.flow ∈ W) (w_can : Block.can ∈ W) (w_vec : Block.vec ∈ W) :
    OnlyWrites W S (canReference c count s) ↔ OnlyWrites W S s := by
  unfold canReference; simp [w_emit, w_cmd, w_flow, w_can, w_vec]

@[simp] theorem canRefAbandon_writes (W : List Block) (S : State) (c : Nat) (s : State) (w_free : Block.free ∈ W)
    (w_emit : Block.emit ∈ W) (w_cmd : Block.cmd ∈ W) (w_flow : Block.flow ∈ W) (w_can : Block.can ∈ W)
    (w_vec : Block.vec ∈ W) :
    OnlyWrites W S (canRefAbandon c s) ↔ OnlyWrites W S s := by
  unfold canRefAbandon; simp [w_free, w_emit, w_cmd, w_flow, w_can, w_vec]

@[simp] theorem canRefTimeout_writes (W : List Block) (S : State) (c : Nat) (s : State) (w_emit : Block.emit ∈ W)
    (w_cmd : Block.cmd ∈ W) (w_flow : Block.flow ∈ W) (w_can : Block.can ∈ W) (w_vec : Block.vec ∈ W) :
    OnlyWrites W S (canRefTimeout c s) ↔ OnlyWrites W S s := by
  unfold canRefTimeout; simp [w_emit, w_cmd, w_flow, w_can, w_vec]

@[simp] theorem canCloseChecks_writes (W : List Block) (S : State) (c col : Nat) (s : State) (w_can : Block.can ∈ W) :
    OnlyWrites W S (canCloseChecks c col s) ↔ OnlyWrites W S s := by
  unfold canCloseChecks; simp [w_can]

@[simp] theorem canWindow_writes (W : List Block) (S : State) (c col : Nat) (idle : Bool) (s : State)
    (w_free : Block.free ∈ W) (w_emit : Block.emit ∈ W) (w_can : Block.can ∈ W) (w_vec : Block.vec ∈ W) :
    OnlyWrites W S (canWindow c col idle s) ↔ OnlyWrites W S s := by
  unfold canWindow; dsimp only; (repeat' split) <;> simp [w_free, w_emit, w_can, w_vec]

@[simp] theorem canWindowEnd_writes (W : List Block) (S : State) (c col : Nat) (s : State) (w_emit : Block.emit ∈ W)
    (w_can : Block.can ∈ W) (w_vec : Block.vec ∈ W) :
    OnlyWrites W S (canWindowEnd c col s) ↔ OnlyWrites W S s := by
  unfold canWindowEnd; dsimp only; (repeat' split) <;> simp [w_emit, w_can, w_vec]

@[simp] theorem canDeadlineDone_writes (W : List Block) (S : State) (c : Nat) (s : State) (w_can : Block.can ∈ W) :
    OnlyWrites W S (canDeadlineDone c s) ↔ OnlyWrites W S s := by
  unfold canDeadlineDone; simp [w_can]

@[simp] theorem canCheckLinks_writes (W : List Block) (S : State) (c : Nat) (s : State) (w_emit : Block.emit ∈ W)
    (w_cmd : Block.cmd ∈ W) (w_flow : Block.flow ∈ W) (w_can : Block.can ∈ W) (w_vec : Block.vec ∈ W) :
    OnlyWrites W S (canCheckLinks c s) ↔ OnlyWrites W S s := by
  unfold canCheckLinks; simp [w_emit, w_cmd, w_flow, w_can, w_vec]

theorem execCanTtCommitWrite_writes (W : List Block) (S : State) (dt : Nat) (c : Fin 12) (src : Iface)
    (cycle : BitVec 32) (s : State) (w_now : Block.now ∈ W) (w_clk : Block.clk ∈ W) (w_emit : Block.emit ∈ W)
    (w_cmd : Block.cmd ∈ W) (w_flow : Block.flow ∈ W) (w_lsk : Block.lsk ∈ W) (w_can : Block.can ∈ W)
    (w_bridge : Block.bridge ∈ W) (w_vec : Block.vec ∈ W) :
    ∃ u, execCanTtCommitWrite dt c src cycle s = .next u ∧ (OnlyWrites W S u ↔ OnlyWrites W S s) := by
  unfold execCanTtCommitWrite; exact ⟨_, rfl, by simp [w_now, w_clk, w_emit, w_cmd, w_flow, w_lsk, w_can, w_bridge, w_vec]⟩

theorem execCanReferenceRx_writes (W : List Block) (S : State) (dt : Nat) (c : Fin 12) (count : Nat) (s : State)
    (w_now : Block.now ∈ W) (w_clk : Block.clk ∈ W) (w_emit : Block.emit ∈ W) (w_cmd : Block.cmd ∈ W)
    (w_flow : Block.flow ∈ W) (w_can : Block.can ∈ W) (w_vec : Block.vec ∈ W) :
    ∃ u, execCanReferenceRx dt c count s = .next u ∧ (OnlyWrites W S u ↔ OnlyWrites W S s) := by
  unfold execCanReferenceRx; exact ⟨_, rfl, by simp [w_now, w_clk, w_emit, w_cmd, w_flow, w_can, w_vec]⟩

theorem execCanReferenceAbandon_writes (W : List Block) (S : State) (dt : Nat) (c : Fin 12) (s : State)
    (w_now : Block.now ∈ W) (w_clk : Block.clk ∈ W) (w_free : Block.free ∈ W) (w_emit : Block.emit ∈ W)
    (w_cmd : Block.cmd ∈ W) (w_flow : Block.flow ∈ W) (w_can : Block.can ∈ W) (w_vec : Block.vec ∈ W) :
    ∃ u, execCanReferenceAbandon dt c s = .next u ∧ (OnlyWrites W S u ↔ OnlyWrites W S s) := by
  unfold execCanReferenceAbandon; exact ⟨_, rfl, by simp [w_now, w_clk, w_free, w_emit, w_cmd, w_flow, w_can, w_vec]⟩

theorem execCanSlaveRefTimeout_writes (W : List Block) (S : State) (dt : Nat) (c : Fin 12) (s : State)
    (w_now : Block.now ∈ W) (w_clk : Block.clk ∈ W) (w_emit : Block.emit ∈ W) (w_cmd : Block.cmd ∈ W)
    (w_flow : Block.flow ∈ W) (w_can : Block.can ∈ W) (w_vec : Block.vec ∈ W) :
    ∃ u, execCanSlaveRefTimeout dt c s = .next u ∧ (OnlyWrites W S u ↔ OnlyWrites W S s) := by
  unfold execCanSlaveRefTimeout; exact ⟨_, rfl, by simp [w_now, w_clk, w_emit, w_cmd, w_flow, w_can, w_vec]⟩

theorem execCanHatchWindow_writes (W : List Block) (S : State) (dt : Nat) (c : Fin 12) (col : Fin 64) (idle : Bool)
    (s : State) (w_now : Block.now ∈ W) (w_clk : Block.clk ∈ W) (w_free : Block.free ∈ W) (w_emit : Block.emit ∈ W)
    (w_can : Block.can ∈ W) (w_vec : Block.vec ∈ W) :
    ∃ u, execCanHatchWindow dt c col idle s = .next u ∧ (OnlyWrites W S u ↔ OnlyWrites W S s) := by
  unfold execCanHatchWindow; exact ⟨_, rfl, by simp [w_now, w_clk, w_free, w_emit, w_can, w_vec]⟩

theorem execCanHatchWindowEnd_writes (W : List Block) (S : State) (dt : Nat) (c : Fin 12) (col : Fin 64) (s : State)
    (w_now : Block.now ∈ W) (w_clk : Block.clk ∈ W) (w_emit : Block.emit ∈ W) (w_can : Block.can ∈ W)
    (w_vec : Block.vec ∈ W) :
    ∃ u, execCanHatchWindowEnd dt c col s = .next u ∧ (OnlyWrites W S u ↔ OnlyWrites W S s) := by
  unfold execCanHatchWindowEnd; exact ⟨_, rfl, by simp [w_now, w_clk, w_emit, w_can, w_vec]⟩

@[simp] theorem canReadClear_writes (W : List Block) (S : State) (c off : Nat) (s : State) (w_can : Block.can ∈ W) :
    OnlyWrites W S (canReadClear c off s) ↔ OnlyWrites W S s := by
  unfold canReadClear; simp [w_can]

@[simp] theorem mvbCount_writes (W : List Block) (S : State) (g i : Nat) (s : State) (w_mvb : Block.mvb ∈ W) :
    OnlyWrites W S (mvbCount g i s) ↔ OnlyWrites W S s := by
  unfold mvbCount; simp [w_mvb]

@[simp] theorem mvbAnswer_writes (W : List Block) (S : State) (g : Fin 2) (fcode : BitVec 4) (addr : BitVec 12)
    (s : State) (w_free : Block.free ∈ W) (w_emit : Block.emit ∈ W) (w_mvb : Block.mvb ∈ W) :
    OnlyWrites W S (mvbAnswer g fcode addr s) ↔ OnlyWrites W S s := by
  unfold mvbAnswer; dsimp only; (repeat' split) <;> simp [w_free, w_emit, w_mvb]

@[simp] theorem mvbPoll_writes (W : List Block) (S : State) (g : Fin 2) (fcode : BitVec 4) (addr : BitVec 12)
    (s : State) (w_free : Block.free ∈ W) (w_emit : Block.emit ∈ W) (w_mvb : Block.mvb ∈ W) :
    OnlyWrites W S (mvbPoll g fcode addr s) ↔ OnlyWrites W S s := by
  unfold mvbPoll; simp [w_free, w_emit, w_mvb]

@[simp] theorem mvbNext_writes (W : List Block) (S : State) (g : Fin 2) (s : State) (w_free : Block.free ∈ W)
    (w_emit : Block.emit ∈ W) (w_mvb : Block.mvb ∈ W) :
    OnlyWrites W S (mvbNext g s) ↔ OnlyWrites W S s := by
  unfold mvbNext; dsimp only; (repeat' split) <;> simp [w_free, w_emit, w_mvb]

@[simp] theorem mvbTakeTable_writes (W : List Block) (S : State) (g : Nat) (s : State) (w_emit : Block.emit ∈ W)
    (w_cmd : Block.cmd ∈ W) (w_flow : Block.flow ∈ W) (w_mvb : Block.mvb ∈ W) (w_vec : Block.vec ∈ W) :
    OnlyWrites W S (mvbTakeTable g s) ↔ OnlyWrites W S s := by
  unfold mvbTakeTable; (repeat' split) <;> simp [w_emit, w_cmd, w_flow, w_mvb, w_vec]

@[simp] theorem mvbPeriod_writes (W : List Block) (S : State) (g : Fin 2) (s : State) (w_free : Block.free ∈ W)
    (w_emit : Block.emit ∈ W) (w_cmd : Block.cmd ∈ W) (w_flow : Block.flow ∈ W) (w_mvb : Block.mvb ∈ W)
    (w_vec : Block.vec ∈ W) :
    OnlyWrites W S (mvbPeriod g s) ↔ OnlyWrites W S s := by
  unfold mvbPeriod; dsimp only; (repeat' split) <;> simp [w_free, w_emit, w_cmd, w_flow, w_mvb, w_vec]

@[simp] theorem mvbCut_writes (W : List Block) (S : State) (g : Nat) (s : State) (w_mvb : Block.mvb ∈ W) :
    OnlyWrites W S (mvbCut g s) ↔ OnlyWrites W S s := by
  unfold mvbCut; simp [w_mvb]

@[simp] theorem lineEvent_writes (W : List Block) (S : State) (g line : Nat) (old new : MvbLineSt) (s : State)
    (w_emit : Block.emit ∈ W) (w_cmd : Block.cmd ∈ W) (w_flow : Block.flow ∈ W) (w_vec : Block.vec ∈ W) :
    OnlyWrites W S (lineEvent g line old new s) ↔ OnlyWrites W S s := by
  unfold lineEvent; simp [w_emit, w_cmd, w_flow, w_vec]

@[simp] theorem mvbJudge_writes (W : List Block) (S : State) (g : Nat) (a b : Bool) (s : State)
    (w_emit : Block.emit ∈ W) (w_cmd : Block.cmd ∈ W) (w_flow : Block.flow ∈ W) (w_mvb : Block.mvb ∈ W)
    (w_vec : Block.vec ∈ W) :
    OnlyWrites W S (mvbJudge g a b s) ↔ OnlyWrites W S s := by
  unfold mvbJudge; simp [w_emit, w_cmd, w_flow, w_mvb, w_vec]

@[simp] theorem mvbMasterRx_writes (W : List Block) (S : State) (g : Fin 2) (f : MvbMaster) (s : State)
    (w_free : Block.free ∈ W) (w_emit : Block.emit ∈ W) (w_cmd : Block.cmd ∈ W) (w_flow : Block.flow ∈ W)
    (w_mvb : Block.mvb ∈ W) (w_vec : Block.vec ∈ W) :
    OnlyWrites W S (mvbMasterRx g f s) ↔ OnlyWrites W S s := by
  unfold mvbMasterRx; simp [w_free, w_emit, w_cmd, w_flow, w_mvb, w_vec]

@[simp] theorem mvbSlaveRx_writes (W : List Block) (S : State) (g : Fin 2) (f : MvbSlave) (s : State)
    (w_emit : Block.emit ∈ W) (w_cmd : Block.cmd ∈ W) (w_flow : Block.flow ∈ W) (w_mvb : Block.mvb ∈ W)
    (w_vec : Block.vec ∈ W) :
    OnlyWrites W S (mvbSlaveRx g f s) ↔ OnlyWrites W S s := by
  unfold mvbSlaveRx; dsimp only; (repeat' split) <;> simp [w_emit, w_cmd, w_flow, w_mvb, w_vec]

@[simp] theorem mvbNoReply_writes (W : List Block) (S : State) (g : Nat) (s : State) (w_mvb : Block.mvb ∈ W) :
    OnlyWrites W S (mvbNoReply g s) ↔ OnlyWrites W S s := by
  unfold mvbNoReply; simp [w_mvb]

@[simp] theorem mvbDeadlineDone_writes (W : List Block) (S : State) (g : Nat) (s : State) (w_mvb : Block.mvb ∈ W) :
    OnlyWrites W S (mvbDeadlineDone g s) ↔ OnlyWrites W S s := by
  unfold mvbDeadlineDone; simp [w_mvb]

@[simp] theorem mvbCheckLinks_writes (W : List Block) (S : State) (g : Nat) (s : State) (w_emit : Block.emit ∈ W)
    (w_cmd : Block.cmd ∈ W) (w_flow : Block.flow ∈ W) (w_mvb : Block.mvb ∈ W) (w_vec : Block.vec ∈ W) :
    OnlyWrites W S (mvbCheckLinks g s) ↔ OnlyWrites W S s := by
  unfold mvbCheckLinks; simp [w_emit, w_cmd, w_flow, w_mvb, w_vec]

@[simp] theorem mvbApply_writes (W : List Block) (S : State) (g : Nat) (c : MvbCfg) (s : State)
    (w_mvb : Block.mvb ∈ W) :
    OnlyWrites W S (mvbApply g c s) ↔ OnlyWrites W S s := by
  unfold mvbApply; simp [w_mvb]

@[simp] theorem mvbConfigBody_writes (W : List Block) (S : State) (r : Ring) (s : State) (w_mvb : Block.mvb ∈ W) :
    OnlyWrites W S (mvbConfigBody r s).2 ↔ OnlyWrites W S s := by
  unfold mvbConfigBody; simp [w_mvb]

@[simp] theorem mvbStageBody_writes (W : List Block) (S : State) (r : Ring) (s : State) (w_mvb : Block.mvb ∈ W) :
    OnlyWrites W S (mvbStageBody r s).2 ↔ OnlyWrites W S s := by
  unfold mvbStageBody; simp [w_mvb]

@[simp] theorem mvbCommitBody_writes (W : List Block) (S : State) (r : Ring) (s : State) (w_mvb : Block.mvb ∈ W) :
    OnlyWrites W S (mvbCommitBody r s).2 ↔ OnlyWrites W S s := by
  unfold mvbCommitBody; dsimp only; (repeat' split) <;> simp [w_mvb]

@[simp] theorem mvbPortSetBody_writes (W : List Block) (S : State) (r : Ring) (s : State) (w_mvb : Block.mvb ∈ W) :
    OnlyWrites W S (mvbPortSetBody r s).2 ↔ OnlyWrites W S s := by
  unfold mvbPortSetBody; simp [w_mvb]

@[simp] theorem mvbPortWriteBody_writes (W : List Block) (S : State) (r : Ring) (s : State) (w_mvb : Block.mvb ∈ W) :
    OnlyWrites W S (mvbPortWriteBody r s).2 ↔ OnlyWrites W S s := by
  unfold mvbPortWriteBody; dsimp only; (repeat' split) <;> simp [w_mvb]

@[simp] theorem mvbPortReadBody_writes (W : List Block) (S : State) (r : Ring) (s : State) :
    OnlyWrites W S (mvbPortReadBody r s).2 ↔ OnlyWrites W S s := by
  unfold mvbPortReadBody; dsimp only; (repeat' split) <;> simp

@[simp] theorem mvbStatusBody_writes (W : List Block) (S : State) (r : Ring) (s : State) (w_mvb : Block.mvb ∈ W) :
    OnlyWrites W S (mvbStatusBody r s).2 ↔ OnlyWrites W S s := by
  unfold mvbStatusBody; simp [w_mvb]

theorem execMvbConfig_writes (W : List Block) (S : State) (dt : Nat) (r : Ring) (s : State) (w_now : Block.now ∈ W)
    (w_clk : Block.clk ∈ W) (w_free : Block.free ∈ W) (w_emit : Block.emit ∈ W) (w_sys : Block.sys ∈ W)
    (w_mbx : Block.mbx ∈ W) (w_cmd : Block.cmd ∈ W) (w_mvb : Block.mvb ∈ W) (w_vec : Block.vec ∈ W)
    (w_shelf : Block.shelf ∈ W) :
    ∃ u, execMvbConfig dt r s = .next u ∧ (OnlyWrites W S u ↔ OnlyWrites W S s) := by
  unfold execMvbConfig; exact ⟨_, rfl, by simp [w_now, w_clk, w_free, w_emit, w_sys, w_mbx, w_cmd, w_mvb, w_vec, w_shelf]⟩

theorem execMvbPollStage_writes (W : List Block) (S : State) (dt : Nat) (r : Ring) (s : State) (w_now : Block.now ∈ W)
    (w_clk : Block.clk ∈ W) (w_free : Block.free ∈ W) (w_emit : Block.emit ∈ W) (w_sys : Block.sys ∈ W)
    (w_mbx : Block.mbx ∈ W) (w_cmd : Block.cmd ∈ W) (w_mvb : Block.mvb ∈ W) (w_vec : Block.vec ∈ W)
    (w_shelf : Block.shelf ∈ W) :
    ∃ u, execMvbPollStage dt r s = .next u ∧ (OnlyWrites W S u ↔ OnlyWrites W S s) := by
  unfold execMvbPollStage; exact ⟨_, rfl, by simp [w_now, w_clk, w_free, w_emit, w_sys, w_mbx, w_cmd, w_mvb, w_vec, w_shelf]⟩

theorem execMvbPollCommit_writes (W : List Block) (S : State) (dt : Nat) (r : Ring) (s : State) (w_now : Block.now ∈ W)
    (w_clk : Block.clk ∈ W) (w_free : Block.free ∈ W) (w_emit : Block.emit ∈ W) (w_sys : Block.sys ∈ W)
    (w_mbx : Block.mbx ∈ W) (w_cmd : Block.cmd ∈ W) (w_mvb : Block.mvb ∈ W) (w_vec : Block.vec ∈ W)
    (w_shelf : Block.shelf ∈ W) :
    ∃ u, execMvbPollCommit dt r s = .next u ∧ (OnlyWrites W S u ↔ OnlyWrites W S s) := by
  unfold execMvbPollCommit; exact ⟨_, rfl, by simp [w_now, w_clk, w_free, w_emit, w_sys, w_mbx, w_cmd, w_mvb, w_vec, w_shelf]⟩

theorem execMvbPortSet_writes (W : List Block) (S : State) (dt : Nat) (r : Ring) (s : State) (w_now : Block.now ∈ W)
    (w_clk : Block.clk ∈ W) (w_free : Block.free ∈ W) (w_emit : Block.emit ∈ W) (w_sys : Block.sys ∈ W)
    (w_mbx : Block.mbx ∈ W) (w_cmd : Block.cmd ∈ W) (w_mvb : Block.mvb ∈ W) (w_vec : Block.vec ∈ W)
    (w_shelf : Block.shelf ∈ W) :
    ∃ u, execMvbPortSet dt r s = .next u ∧ (OnlyWrites W S u ↔ OnlyWrites W S s) := by
  unfold execMvbPortSet; exact ⟨_, rfl, by simp [w_now, w_clk, w_free, w_emit, w_sys, w_mbx, w_cmd, w_mvb, w_vec, w_shelf]⟩

theorem execMvbPortWrite_writes (W : List Block) (S : State) (dt : Nat) (r : Ring) (s : State) (w_now : Block.now ∈ W)
    (w_clk : Block.clk ∈ W) (w_free : Block.free ∈ W) (w_emit : Block.emit ∈ W) (w_sys : Block.sys ∈ W)
    (w_mbx : Block.mbx ∈ W) (w_cmd : Block.cmd ∈ W) (w_mvb : Block.mvb ∈ W) (w_vec : Block.vec ∈ W)
    (w_shelf : Block.shelf ∈ W) :
    ∃ u, execMvbPortWrite dt r s = .next u ∧ (OnlyWrites W S u ↔ OnlyWrites W S s) := by
  unfold execMvbPortWrite; exact ⟨_, rfl, by simp [w_now, w_clk, w_free, w_emit, w_sys, w_mbx, w_cmd, w_mvb, w_vec, w_shelf]⟩

theorem execMvbPortRead_writes (W : List Block) (S : State) (dt : Nat) (r : Ring) (s : State) (w_now : Block.now ∈ W)
    (w_clk : Block.clk ∈ W) (w_free : Block.free ∈ W) (w_emit : Block.emit ∈ W) (w_sys : Block.sys ∈ W)
    (w_mbx : Block.mbx ∈ W) (w_cmd : Block.cmd ∈ W) (w_vec : Block.vec ∈ W) (w_shelf : Block.shelf ∈ W) :
    ∃ u, execMvbPortRead dt r s = .next u ∧ (OnlyWrites W S u ↔ OnlyWrites W S s) := by
  unfold execMvbPortRead; exact ⟨_, rfl, by simp [w_now, w_clk, w_free, w_emit, w_sys, w_mbx, w_cmd, w_vec, w_shelf]⟩

theorem execMvbStatus_writes (W : List Block) (S : State) (dt : Nat) (r : Ring) (s : State) (w_now : Block.now ∈ W)
    (w_clk : Block.clk ∈ W) (w_free : Block.free ∈ W) (w_emit : Block.emit ∈ W) (w_sys : Block.sys ∈ W)
    (w_mbx : Block.mbx ∈ W) (w_cmd : Block.cmd ∈ W) (w_mvb : Block.mvb ∈ W) (w_vec : Block.vec ∈ W)
    (w_shelf : Block.shelf ∈ W) :
    ∃ u, execMvbStatus dt r s = .next u ∧ (OnlyWrites W S u ↔ OnlyWrites W S s) := by
  unfold execMvbStatus; exact ⟨_, rfl, by simp [w_now, w_clk, w_free, w_emit, w_sys, w_mbx, w_cmd, w_mvb, w_vec, w_shelf]⟩

theorem execMvbBasicPeriodStart_writes (W : List Block) (S : State) (dt : Nat) (g : Fin 2) (s : State)
    (w_now : Block.now ∈ W) (w_clk : Block.clk ∈ W) (w_free : Block.free ∈ W) (w_emit : Block.emit ∈ W)
    (w_cmd : Block.cmd ∈ W) (w_flow : Block.flow ∈ W) (w_mvb : Block.mvb ∈ W) (w_vec : Block.vec ∈ W) :
    ∃ u, execMvbBasicPeriodStart dt g s = .next u ∧ (OnlyWrites W S u ↔ OnlyWrites W S s) := by
  unfold execMvbBasicPeriodStart; exact ⟨_, rfl, by simp [w_now, w_clk, w_free, w_emit, w_cmd, w_flow, w_mvb, w_vec]⟩

theorem execMvbMasterFrameSend_writes (W : List Block) (S : State) (dt : Nat) (g : Fin 2) (s : State)
    (w_now : Block.now ∈ W) (w_clk : Block.clk ∈ W) (w_free : Block.free ∈ W) (w_emit : Block.emit ∈ W)
    (w_mvb : Block.mvb ∈ W) :
    ∃ u, execMvbMasterFrameSend dt g s = .next u ∧ (OnlyWrites W S u ↔ OnlyWrites W S s) := by
  unfold execMvbMasterFrameSend; exact ⟨_, rfl, by simp [w_now, w_clk, w_free, w_emit, w_mvb]⟩

theorem execMvbNoReplyTimeout_writes (W : List Block) (S : State) (dt : Nat) (g : Fin 2) (s : State)
    (w_now : Block.now ∈ W) (w_clk : Block.clk ∈ W) (w_emit : Block.emit ∈ W) (w_mvb : Block.mvb ∈ W) :
    ∃ u, execMvbNoReplyTimeout dt g s = .next u ∧ (OnlyWrites W S u ↔ OnlyWrites W S s) := by
  unfold execMvbNoReplyTimeout; exact ⟨_, rfl, by simp [w_now, w_clk, w_emit, w_mvb]⟩

theorem execMvbMasterFrameRx_writes (W : List Block) (S : State) (dt : Nat) (g : Fin 2) (f : MvbMaster) (s : State)
    (w_now : Block.now ∈ W) (w_clk : Block.clk ∈ W) (w_free : Block.free ∈ W) (w_emit : Block.emit ∈ W)
    (w_cmd : Block.cmd ∈ W) (w_flow : Block.flow ∈ W) (w_mvb : Block.mvb ∈ W) (w_vec : Block.vec ∈ W) :
    ∃ u, execMvbMasterFrameRx dt g f s = .next u ∧ (OnlyWrites W S u ↔ OnlyWrites W S s) := by
  unfold execMvbMasterFrameRx; exact ⟨_, rfl, by simp [w_now, w_clk, w_free, w_emit, w_cmd, w_flow, w_mvb, w_vec]⟩

theorem execMvbSlaveFrameRx_writes (W : List Block) (S : State) (dt : Nat) (g : Fin 2) (f : MvbSlave) (s : State)
    (w_now : Block.now ∈ W) (w_clk : Block.clk ∈ W) (w_emit : Block.emit ∈ W) (w_cmd : Block.cmd ∈ W)
    (w_flow : Block.flow ∈ W) (w_mvb : Block.mvb ∈ W) (w_vec : Block.vec ∈ W) :
    ∃ u, execMvbSlaveFrameRx dt g f s = .next u ∧ (OnlyWrites W S u ↔ OnlyWrites W S s) := by
  unfold execMvbSlaveFrameRx; exact ⟨_, rfl, by simp [w_now, w_clk, w_emit, w_cmd, w_flow, w_mvb, w_vec]⟩

end Sys2Proof.Machine
end

