-- ==== Sys2Proof/Laws/WritesTrain.lean ====
section
/-! SUPPORT. The time unit, the trunk and inauguration: which parts of a state they may write. -/

namespace Sys2Proof.Machine

@[simp] theorem modTime_writes (W : List Block) (S : State) (f : Time → Time) (s : State) (w_now : Block.now ∈ W)
    (w_time : Block.time ∈ W) :
    OnlyWrites W S (modTime f s) ↔ OnlyWrites W S s := by
  unfold modTime; simp [w_now, w_time]

@[simp] theorem setTimeState_writes (W : List Block) (S : State) (n : TimeSt) (s : State) (w_now : Block.now ∈ W)
    (w_emit : Block.emit ∈ W) (w_cmd : Block.cmd ∈ W) (w_time : Block.time ∈ W) (w_flow : Block.flow ∈ W)
    (w_vec : Block.vec ∈ W) :
    OnlyWrites W S (setTimeState n s) ↔ OnlyWrites W S s := by
  unfold setTimeState; have hf : ∀ t,
      (holdFreq t).tio.length = t.tio.length := by intro t; unfold holdFreq; simp [w_now, w_emit, w_cmd, w_time, w_flow, w_vec]
  dsimp only; (repeat' split) <;> simp [w_now, w_emit, w_cmd, w_time, w_flow, w_vec, hf]

@[simp] theorem tioLate_writes (W : List Block) (S : State) (n start : Nat) (s : State) (w_emit : Block.emit ∈ W)
    (w_cmd : Block.cmd ∈ W) (w_flow : Block.flow ∈ W) (w_vec : Block.vec ∈ W) :
    OnlyWrites W S (tioLate n start s) ↔ OnlyWrites W S s := by
  unfold tioLate; simp [w_emit, w_cmd, w_flow, w_vec]

@[simp] theorem tioDrive_writes (W : List Block) (S : State) (n : Nat) (asserted : Bool) (s : State)
    (w_emit : Block.emit ∈ W) :
    OnlyWrites W S (tioDrive n asserted s) ↔ OnlyWrites W S s := by
  unfold tioDrive; simp [w_emit]

@[simp] theorem tioStep_writes (W : List Block) (S : State) (n old new : Nat) (s : State) (w_now : Block.now ∈ W)
    (w_emit : Block.emit ∈ W) (w_cmd : Block.cmd ∈ W) (w_time : Block.time ∈ W) (w_flow : Block.flow ∈ W)
    (w_vec : Block.vec ∈ W) :
    OnlyWrites W S (tioStep n old new s) ↔ OnlyWrites W S s := by
  unfold tioStep; simp [w_now, w_emit, w_cmd, w_time, w_flow, w_vec]

@[simp] theorem countSteps_writes (W : List Block) (S : State) (d : Int) (gen : BitVec 16) (s : State)
    (w_now : Block.now ∈ W) (w_emit : Block.emit ∈ W) (w_cmd : Block.cmd ∈ W) (w_time : Block.time ∈ W)
    (w_flow : Block.flow ∈ W) (w_vec : Block.vec ∈ W) :
    OnlyWrites W S (countSteps d gen s) ↔ OnlyWrites W S s := by
  unfold countSteps; dsimp only
  rw [forEach_writes _ _ _ _ _ (fun n s => by simp [w_now, w_emit, w_cmd, w_time, w_flow, w_vec]),
    raise_writes _ _ _ _ _ (by assumption) (by assumption) (by assumption) (by assumption), modTime_writes _ _ _ _ w_now w_time]
  exact (upd_flow W S { s with now := addTicks s.now d }
    { s.flow with relNow := s.flow.relNow + d } w_flow).trans (upd_now W S s _ w_now)

@[simp] theorem stepDeltas_writes (W : List Block) (S : State) (ps : List Nat) (d : Int) (s : State)
    (w_trunk : Block.trunk ∈ W) :
    OnlyWrites W S (stepDeltas ps d s) ↔ OnlyWrites W S s := by
  unfold stepDeltas; simp [w_trunk]

@[simp] theorem stepCount_writes (W : List Block) (S : State) (d : Int) (gen : BitVec 16) (s : State)
    (w_now : Block.now ∈ W) (w_emit : Block.emit ∈ W) (w_cmd : Block.cmd ∈ W) (w_trunk : Block.trunk ∈ W)
    (w_time : Block.time ∈ W) (w_flow : Block.flow ∈ W) (w_vec : Block.vec ∈ W) :
    OnlyWrites W S (stepCount d gen s) ↔ OnlyWrites W S s := by
  unfold stepCount; simp [w_now, w_emit, w_cmd, w_trunk, w_time, w_flow, w_vec]

@[simp] theorem sampleEntry_writes (W : List Block) (S : State) (theta : Int) (s : State) (w_now : Block.now ∈ W)
    (w_emit : Block.emit ∈ W) (w_cmd : Block.cmd ∈ W) (w_time : Block.time ∈ W) (w_flow : Block.flow ∈ W)
    (w_vec : Block.vec ∈ W) :
    OnlyWrites W S (sampleEntry theta s) ↔ OnlyWrites W S s := by
  unfold sampleEntry; (repeat' split) <;> simp [w_now, w_emit, w_cmd, w_time, w_flow, w_vec]

@[simp] theorem sampleLock_writes (W : List Block) (S : State) (theta : Int) (s : State) (w_now : Block.now ∈ W)
    (w_emit : Block.emit ∈ W) (w_cmd : Block.cmd ∈ W) (w_time : Block.time ∈ W) (w_flow : Block.flow ∈ W)
    (w_vec : Block.vec ∈ W) :
    OnlyWrites W S (sampleLock theta s) ↔ OnlyWrites W S s := by
  unfold sampleLock; (repeat' split) <;> simp [w_now, w_emit, w_cmd, w_time, w_flow, w_vec]

@[simp] theorem sampleApply_writes (W : List Block) (S : State) (theta f : Int) (s : State) (w_now : Block.now ∈ W)
    (w_emit : Block.emit ∈ W) (w_cmd : Block.cmd ∈ W) (w_trunk : Block.trunk ∈ W) (w_time : Block.time ∈ W)
    (w_flow : Block.flow ∈ W) (w_vec : Block.vec ∈ W) :
    OnlyWrites W S (sampleApply theta f s) ↔ OnlyWrites W S s := by
  unfold sampleApply; simp [w_now, w_emit, w_cmd, w_trunk, w_time, w_flow, w_vec]

@[simp] theorem sampleRecord_writes (W : List Block) (S : State) (theta : Int) (source : BitVec 2) (hops : Nat)
    (s : State) (w_now : Block.now ∈ W) (w_time : Block.time ∈ W) :
    OnlyWrites W S (sampleRecord theta source hops s) ↔ OnlyWrites W S s := by
  unfold sampleRecord; simp [w_now, w_time]

@[simp] theorem takeSample_writes (W : List Block) (S : State) (steep : State → State) (theta : Int) (source : BitVec 2)
    (hops : Nat) (s : State) (hsteep : ∀ y0, OnlyWrites W S (steep y0) ↔ OnlyWrites W S y0) (w_now : Block.now ∈ W)
    (w_emit : Block.emit ∈ W) (w_cmd : Block.cmd ∈ W) (w_trunk : Block.trunk ∈ W) (w_time : Block.time ∈ W)
    (w_flow : Block.flow ∈ W) (w_vec : Block.vec ∈ W) :
    OnlyWrites W S (takeSample steep theta source hops s) ↔ OnlyWrites W S s := by
  unfold takeSample; dsimp only; (repeat' split) <;> simp_all

@[simp] theorem becomeMaster_writes (W : List Block) (S : State) (s : State) (w_now : Block.now ∈ W)
    (w_emit : Block.emit ∈ W) (w_cmd : Block.cmd ∈ W) (w_time : Block.time ∈ W) (w_flow : Block.flow ∈ W)
    (w_vec : Block.vec ∈ W) :
    OnlyWrites W S (becomeMaster s) ↔ OnlyWrites W S s := by
  unfold becomeMaster; simp [w_now, w_emit, w_cmd, w_time, w_flow, w_vec]

@[simp] theorem leaveMaster_writes (W : List Block) (S : State) (s : State) (w_now : Block.now ∈ W)
    (w_emit : Block.emit ∈ W) (w_cmd : Block.cmd ∈ W) (w_time : Block.time ∈ W) (w_flow : Block.flow ∈ W)
    (w_vec : Block.vec ∈ W) :
    OnlyWrites W S (leaveMaster s) ↔ OnlyWrites W S s := by
  unfold leaveMaster; (repeat' split) <;> simp [w_now, w_emit, w_cmd, w_time, w_flow, w_vec]

theorem execHoldoverEntry_writes (W : List Block) (S : State) (dt : Nat) (s : State) (w_now : Block.now ∈ W)
    (w_clk : Block.clk ∈ W) (w_emit : Block.emit ∈ W) (w_cmd : Block.cmd ∈ W) (w_time : Block.time ∈ W)
    (w_flow : Block.flow ∈ W) (w_vec : Block.vec ∈ W) :
    ∃ u, execHoldoverEntry dt s = .next u ∧ (OnlyWrites W S u ↔ OnlyWrites W S s) := by
  unfold execHoldoverEntry; exact ⟨_, rfl, by (repeat' split) <;> simp [w_now, w_clk, w_emit, w_cmd, w_time, w_flow, w_vec]⟩

@[simp] theorem tioEdge_writes (W : List Block) (S : State) (n at_ : Nat) (asserts : Bool) (s : State)
    (w_now : Block.now ∈ W) (w_emit : Block.emit ∈ W) (w_time : Block.time ∈ W) :
    OnlyWrites W S (tioEdge n at_ asserts s) ↔ OnlyWrites W S s := by
  unfold tioEdge; simp [w_now, w_emit, w_time]

@[simp] theorem tioGateAtInstant_writes (W : List Block) (S : State) (n : Nat) (s : State) (w_now : Block.now ∈ W)
    (w_emit : Block.emit ∈ W) (w_time : Block.time ∈ W) :
    OnlyWrites W S (tioGateAtInstant n s) ↔ OnlyWrites W S s := by
  unfold tioGateAtInstant; simp [w_now, w_emit, w_time]

@[simp] theorem tioCapture_writes (W : List Block) (S : State) (n at_ : Nat) (rising : Bool) (width : Nat) (s : State)
    (w_now : Block.now ∈ W) (w_free : Block.free ∈ W) (w_emit : Block.emit ∈ W) (w_cmd : Block.cmd ∈ W)
    (w_time : Block.time ∈ W) (w_flow : Block.flow ∈ W) (w_vec : Block.vec ∈ W) :
    OnlyWrites W S (tioCapture n at_ rising width s) ↔ OnlyWrites W S s := by
  unfold tioCapture; simp [w_now, w_free, w_emit, w_cmd, w_time, w_flow, w_vec]

@[simp] theorem tioStop_writes (W : List Block) (S : State) (n : Nat) (s : State) (w_now : Block.now ∈ W)
    (w_emit : Block.emit ∈ W) (w_time : Block.time ∈ W) :
    OnlyWrites W S (tioStop n s) ↔ OnlyWrites W S s := by
  unfold tioStop; simp [w_now, w_emit, w_time]

@[simp] theorem tioArm_writes (W : List Block) (S : State) (n : Nat) (s : State) (w_now : Block.now ∈ W)
    (w_emit : Block.emit ∈ W) (w_cmd : Block.cmd ∈ W) (w_time : Block.time ∈ W) (w_flow : Block.flow ∈ W)
    (w_vec : Block.vec ∈ W) :
    OnlyWrites W S (tioArm n s) ↔ OnlyWrites W S s := by
  unfold tioArm; simp [w_now, w_emit, w_cmd, w_time, w_flow, w_vec]

@[simp] theorem tioCtrlWrite_writes (W : List Block) (S : State) (n v : Nat) (s : State) (w_now : Block.now ∈ W)
    (w_emit : Block.emit ∈ W) (w_cmd : Block.cmd ∈ W) (w_time : Block.time ∈ W) (w_flow : Block.flow ∈ W)
    (w_vec : Block.vec ∈ W) :
    OnlyWrites W S (tioCtrlWrite n v s) ↔ OnlyWrites W S s := by
  unfold tioCtrlWrite; simp [w_now, w_emit, w_cmd, w_time, w_flow, w_vec]

@[simp] theorem latchShadow_writes (W : List Block) (S : State) (i : Iface) (addr : Nat) (bytes : List Byte) (s : State)
    (w_shadows : Block.shadows ∈ W) :
    OnlyWrites W S (latchShadow i addr bytes s) ↔ OnlyWrites W S s := by
  unfold latchShadow; simp [w_shadows]

@[simp] theorem tioCapTake_writes (W : List Block) (S : State) (n : Nat) (i : Iface) (s : State) (w_now : Block.now ∈ W)
    (w_time : Block.time ∈ W) (w_shadows : Block.shadows ∈ W) :
    OnlyWrites W S (tioCapTake n i s).2 ↔ OnlyWrites W S s := by
  unfold tioCapTake; simp [w_now, w_time, w_shadows]

@[simp] theorem tioCapRead_writes (W : List Block) (S : State) (n : Nat) (i : Iface) (s : State) (w_now : Block.now ∈ W)
    (w_emit : Block.emit ∈ W) (w_time : Block.time ∈ W) (w_shadows : Block.shadows ∈ W) :
    OnlyWrites W S (tioCapRead n i s) ↔ OnlyWrites W S s := by
  unfold tioCapRead; simp [w_now, w_emit, w_time, w_shadows]

theorem execTioPulseEdge_writes (W : List Block) (S : State) (dt : Nat) (n : Fin 6) (at_ : Nat) (assert_ : Bool)
    (s : State) (w_now : Block.now ∈ W) (w_clk : Block.clk ∈ W) (w_emit : Block.emit ∈ W) (w_time : Block.time ∈ W) :
    ∃ u, execTioPulseEdge dt n at_ assert_ s = .next u ∧ (OnlyWrites W S u ↔ OnlyWrites W S s) := by
  unfold execTioPulseEdge; exact ⟨_, rfl, by simp [w_now, w_clk, w_emit, w_time]⟩

theorem execTioCaptureEdge_writes (W : List Block) (S : State) (dt : Nat) (n : Fin 6) (at_ : Nat) (rising : Bool)
    (width : Nat) (s : State) (w_now : Block.now ∈ W) (w_clk : Block.clk ∈ W) (w_free : Block.free ∈ W)
    (w_emit : Block.emit ∈ W) (w_cmd : Block.cmd ∈ W) (w_time : Block.time ∈ W) (w_flow : Block.flow ∈ W)
    (w_vec : Block.vec ∈ W) :
    ∃ u, execTioCaptureEdge dt n at_ rising width s = .next u ∧ (OnlyWrites W S u ↔ OnlyWrites W S s) := by
  unfold execTioCaptureEdge; exact ⟨_, rfl, by simp [w_now, w_clk, w_free, w_emit, w_cmd, w_time, w_flow, w_vec]⟩

theorem execTioArm_writes (W : List Block) (S : State) (dt : Nat) (n : Fin 6) (src : Iface) (value : BitVec 32)
    (s : State) (w_now : Block.now ∈ W) (w_clk : Block.clk ∈ W) (w_emit : Block.emit ∈ W) (w_cmd : Block.cmd ∈ W)
    (w_time : Block.time ∈ W) (w_flow : Block.flow ∈ W) (w_lsk : Block.lsk ∈ W) (w_bridge : Block.bridge ∈ W)
    (w_vec : Block.vec ∈ W) :
    ∃ u, execTioArm dt n src value s = .next u ∧ (OnlyWrites W S u ↔ OnlyWrites W S s) := by
  unfold execTioArm; exact ⟨_, rfl, by simp [w_now, w_clk, w_emit, w_cmd, w_time, w_flow, w_lsk, w_bridge, w_vec]⟩

theorem execTioStop_writes (W : List Block) (S : State) (dt : Nat) (n : Fin 6) (src : Iface) (value : BitVec 32)
    (s : State) (w_now : Block.now ∈ W) (w_clk : Block.clk ∈ W) (w_emit : Block.emit ∈ W) (w_cmd : Block.cmd ∈ W)
    (w_time : Block.time ∈ W) (w_flow : Block.flow ∈ W) (w_lsk : Block.lsk ∈ W) (w_bridge : Block.bridge ∈ W)
    (w_vec : Block.vec ∈ W) :
    ∃ u, execTioStop dt n src value s = .next u ∧ (OnlyWrites W S u ↔ OnlyWrites W S s) := by
  unfold execTioStop; exact ⟨_, rfl, by simp [w_now, w_clk, w_emit, w_cmd, w_time, w_flow, w_lsk, w_bridge, w_vec]⟩

theorem execTioCapRead_writes (W : List Block) (S : State) (dt : Nat) (n : Fin 6) (src : Iface) (s : State)
    (w_now : Block.now ∈ W) (w_clk : Block.clk ∈ W) (w_emit : Block.emit ∈ W) (w_time : Block.time ∈ W)
    (w_lsk : Block.lsk ∈ W) (w_bridge : Block.bridge ∈ W) (w_vec : Block.vec ∈ W) (w_shadows : Block.shadows ∈ W) :
    ∃ u, execTioCapRead dt n src s = .next u ∧ (OnlyWrites W S u ↔ OnlyWrites W S s) := by
  unfold execTioCapRead; exact ⟨_, rfl, by simp [w_now, w_clk, w_emit, w_time, w_lsk, w_bridge, w_vec, w_shadows]⟩

@[simp] theorem modTrunk_writes (W : List Block) (S : State) (f : Trunk → Trunk) (s : State)
    (w_trunk : Block.trunk ∈ W) :
    OnlyWrites W S (modTrunk f s) ↔ OnlyWrites W S s := by
  unfold modTrunk; simp [w_trunk]

@[simp] theorem portCount_writes (W : List Block) (S : State) (p i : Nat) (s : State) (w_trunk : Block.trunk ∈ W) :
    OnlyWrites W S (portCount p i s) ↔ OnlyWrites W S s := by
  unfold portCount; simp [w_trunk]

@[simp] theorem trunkLink_writes (W : List Block) (S : State) (p : Nat) (s : State) (w_emit : Block.emit ∈ W)
    (w_cmd : Block.cmd ∈ W) (w_flow : Block.flow ∈ W) (w_vec : Block.vec ∈ W) :
    OnlyWrites W S (trunkLink p s) ↔ OnlyWrites W S s := by
  unfold trunkLink; simp [w_emit, w_cmd, w_flow, w_vec]

@[simp] theorem portRole_writes (W : List Block) (S : State) (p : Nat) (s : State) (w_trunk : Block.trunk ∈ W) :
    OnlyWrites W S (portRole p s) ↔ OnlyWrites W S s := by
  unfold portRole; simp [w_trunk]

@[simp] theorem roleForPolicy_writes (W : List Block) (S : State) (p : Nat) (s : State) (w_trunk : Block.trunk ∈ W) :
    OnlyWrites W S (roleForPolicy p s) ↔ OnlyWrites W S s := by
  unfold roleForPolicy; (repeat' split) <;> simp_all [w_trunk]

@[simp] theorem portToDetect_writes (W : List Block) (S : State) (p cause : Nat) (s : State) (w_emit : Block.emit ∈ W)
    (w_cmd : Block.cmd ∈ W) (w_trunk : Block.trunk ∈ W) (w_flow : Block.flow ∈ W) (w_vec : Block.vec ∈ W) :
    OnlyWrites W S (portToDetect p cause s) ↔ OnlyWrites W S s := by
  unfold portToDetect; simp [w_emit, w_cmd, w_trunk, w_flow, w_vec]

@[simp] theorem portToBypassed_writes (W : List Block) (S : State) (p : Nat) (s : State) (w_emit : Block.emit ∈ W)
    (w_cmd : Block.cmd ∈ W) (w_trunk : Block.trunk ∈ W) (w_flow : Block.flow ∈ W) (w_vec : Block.vec ∈ W) :
    OnlyWrites W S (portToBypassed p s) ↔ OnlyWrites W S s := by
  unfold portToBypassed; dsimp only; (repeat' split) <;> simp [w_emit, w_cmd, w_trunk, w_flow, w_vec]

@[simp] theorem portToTrain_writes (W : List Block) (S : State) (p : Nat) (m : Mode) (s : State)
    (w_trunk : Block.trunk ∈ W) :
    OnlyWrites W S (portToTrain p m s) ↔ OnlyWrites W S s := by
  unfold portToTrain; simp [w_trunk]

@[simp] theorem portToNegotiate_writes (W : List Block) (S : State) (p : Nat) (s : State) (w_trunk : Block.trunk ∈ W) :
    OnlyWrites W S (portToNegotiate p s) ↔ OnlyWrites W S s := by
  unfold portToNegotiate; simp [w_trunk]

@[simp] theorem waitBegins_writes (W : List Block) (S : State) (s : State) (w_ina : Block.ina ∈ W) :
    OnlyWrites W S (waitBegins s) ↔ OnlyWrites W S s := by
  unfold waitBegins; simp [w_ina]

@[simp] theorem portToUp_writes (W : List Block) (S : State) (p : Nat) (partner : BitVec 64) (s : State)
    (w_emit : Block.emit ∈ W) (w_cmd : Block.cmd ∈ W) (w_trunk : Block.trunk ∈ W) (w_ina : Block.ina ∈ W)
    (w_flow : Block.flow ∈ W) (w_vec : Block.vec ∈ W) :
    OnlyWrites W S (portToUp p partner s) ↔ OnlyWrites W S s := by
  unfold portToUp; simp [w_emit, w_cmd, w_trunk, w_ina, w_flow, w_vec]

@[simp] theorem portTrainFail_writes (W : List Block) (S : State) (p : Nat) (s : State) (w_trunk : Block.trunk ∈ W) :
    OnlyWrites W S (portTrainFail p s) ↔ OnlyWrites W S s := by
  unfold portTrainFail; simp [w_trunk]

@[simp] theorem portEnergy_writes (W : List Block) (S : State) (p : Nat) (s : State) (w_trunk : Block.trunk ∈ W) :
    OnlyWrites W S (portEnergy p s) ↔ OnlyWrites W S s := by
  unfold portEnergy; (repeat' split) <;> simp [w_trunk]

@[simp] theorem portFallback_writes (W : List Block) (S : State) (p : Nat) (s : State) (w_emit : Block.emit ∈ W)
    (w_cmd : Block.cmd ∈ W) (w_trunk : Block.trunk ∈ W) (w_flow : Block.flow ∈ W) (w_vec : Block.vec ∈ W) :
    OnlyWrites W S (portFallback p s) ↔ OnlyWrites W S s := by
  unfold portFallback; (repeat' split) <;> simp_all [w_emit, w_cmd, w_trunk, w_flow, w_vec]

@[simp] theorem portTrainingFailure_writes (W : List Block) (S : State) (p : Nat) (answered : Bool) (s : State)
    (w_emit : Block.emit ∈ W) (w_cmd : Block.cmd ∈ W) (w_trunk : Block.trunk ∈ W) (w_flow : Block.flow ∈ W)
    (w_vec : Block.vec ∈ W) :
    OnlyWrites W S (portTrainingFailure p answered s) ↔ OnlyWrites W S s := by
  unfold portTrainingFailure; (repeat' split) <;> simp [w_emit, w_cmd, w_trunk, w_flow, w_vec]

@[simp] theorem siblingFallback_writes (W : List Block) (S : State) (q : Nat) (s : State) (w_emit : Block.emit ∈ W)
    (w_cmd : Block.cmd ∈ W) (w_trunk : Block.trunk ∈ W) (w_flow : Block.flow ∈ W) (w_vec : Block.vec ∈ W) :
    OnlyWrites W S (siblingFallback q s) ↔ OnlyWrites W S s := by
  unfold siblingFallback; (repeat' split) <;> simp_all [w_emit, w_cmd, w_trunk, w_flow, w_vec]

@[simp] theorem portNegotiated_writes (W : List Block) (S : State) (p : Nat) (m1000 m100 master : Bool) (s : State)
    (w_emit : Block.emit ∈ W) (w_cmd : Block.cmd ∈ W) (w_trunk : Block.trunk ∈ W) (w_flow : Block.flow ∈ W)
    (w_vec : Block.vec ∈ W) :
    OnlyWrites W S (portNegotiated p m1000 m100 master s) ↔ OnlyWrites W S s := by
  unfold portNegotiated; (repeat' split) <;> simp [w_emit, w_cmd, w_trunk, w_flow, w_vec]

@[simp] theorem portViolations_writes (W : List Block) (S : State) (p k : Nat) (lockLost : Bool) (s : State)
    (w_trunk : Block.trunk ∈ W) :
    OnlyWrites W S (portViolations p k lockLost s) ↔ OnlyWrites W S s := by
  unfold portViolations; (repeat' split) <;> simp [w_trunk]

@[simp] theorem portSwap_writes (W : List Block) (S : State) (p : Nat) (s : State) (w_trunk : Block.trunk ∈ W) :
    OnlyWrites W S (portSwap p s) ↔ OnlyWrites W S s := by
  unfold portSwap; simp [w_trunk]

@[simp] theorem portLoss_writes (W : List Block) (S : State) (p : Nat) (s : State) (w_trunk : Block.trunk ∈ W) :
    OnlyWrites W S (portLoss p s) ↔ OnlyWrites W S s := by
  unfold portLoss; simp [w_trunk]

@[simp] theorem portResume_writes (W : List Block) (S : State) (p : Nat) (s : State) (w_trunk : Block.trunk ∈ W) :
    OnlyWrites W S (portResume p s) ↔ OnlyWrites W S s := by
  unfold portResume; (repeat' split) <;> simp [w_trunk]

@[simp] theorem portPolicy_writes (W : List Block) (S : State) (pol p : Nat) (s : State) (w_emit : Block.emit ∈ W)
    (w_cmd : Block.cmd ∈ W) (w_trunk : Block.trunk ∈ W) (w_flow : Block.flow ∈ W) (w_vec : Block.vec ∈ W) :
    OnlyWrites W S (portPolicy pol p s) ↔ OnlyWrites W S s := by
  unfold portPolicy; dsimp only; (repeat' split) <;> simp [w_emit, w_cmd, w_trunk, w_flow, w_vec]

@[simp] theorem applyPolicy_writes (W : List Block) (S : State) (d pol : Nat) (s : State) (w_emit : Block.emit ∈ W)
    (w_cmd : Block.cmd ∈ W) (w_trunk : Block.trunk ∈ W) (w_flow : Block.flow ∈ W) (w_vec : Block.vec ∈ W) :
    OnlyWrites W S (applyPolicy d pol s) ↔ OnlyWrites W S s := by
  unfold applyPolicy; simp [w_emit, w_cmd, w_trunk, w_flow, w_vec]

@[simp] theorem portRetrain_writes (W : List Block) (S : State) (p : Nat) (s : State) (w_emit : Block.emit ∈ W)
    (w_cmd : Block.cmd ∈ W) (w_trunk : Block.trunk ∈ W) (w_flow : Block.flow ∈ W) (w_vec : Block.vec ∈ W) :
    OnlyWrites W S (portRetrain p s) ↔ OnlyWrites W S s := by
  unfold portRetrain; simp [w_emit, w_cmd, w_trunk, w_flow, w_vec]

@[simp] theorem queuedPolicy_writes (W : List Block) (S : State) (d : Nat) (s : State) (w_emit : Block.emit ∈ W)
    (w_cmd : Block.cmd ∈ W) (w_trunk : Block.trunk ∈ W) (w_flow : Block.flow ∈ W) (w_vec : Block.vec ∈ W) :
    OnlyWrites W S (queuedPolicy d s) ↔ OnlyWrites W S s := by
  unfold queuedPolicy; (repeat' split) <;> simp [w_emit, w_cmd, w_trunk, w_flow, w_vec]

@[simp] theorem trunkEnterSteep_writes (W : List Block) (S : State) (s : State) (w_emit : Block.emit ∈ W)
    (w_cmd : Block.cmd ∈ W) (w_trunk : Block.trunk ∈ W) (w_flow : Block.flow ∈ W) (w_vec : Block.vec ∈ W) :
    OnlyWrites W S (trunkEnterSteep s) ↔ OnlyWrites W S s := by
  unfold trunkEnterSteep; simp [w_emit, w_cmd, w_trunk, w_flow, w_vec]

@[simp] theorem switchCommand_writes (W : List Block) (S : State) (line : Line) (close : Bool) (s : State)
    (w_emit : Block.emit ∈ W) (w_trunk : Block.trunk ∈ W) :
    OnlyWrites W S (switchCommand line close s) ↔ OnlyWrites W S s := by
  unfold switchCommand; (repeat' split) <;> simp [w_emit, w_trunk]

@[simp] theorem closeLine_writes (W : List Block) (S : State) (line : Line) (s : State) (w_emit : Block.emit ∈ W)
    (w_cmd : Block.cmd ∈ W) (w_trunk : Block.trunk ∈ W) (w_flow : Block.flow ∈ W) (w_vec : Block.vec ∈ W) :
    OnlyWrites W S (closeLine line s) ↔ OnlyWrites W S s := by
  unfold closeLine; dsimp only; (repeat' split) <;> simp [w_emit, w_cmd, w_trunk, w_flow, w_vec]

@[simp] theorem portAttach_writes (W : List Block) (S : State) (p : Nat) (s : State) (w_trunk : Block.trunk ∈ W) :
    OnlyWrites W S (portAttach p s) ↔ OnlyWrites W S s := by
  unfold portAttach; (repeat' split) <;> simp_all [w_trunk]

@[simp] theorem openLine_writes (W : List Block) (S : State) (line : Line) (s : State) (w_emit : Block.emit ∈ W)
    (w_trunk : Block.trunk ∈ W) :
    OnlyWrites W S (openLine line s) ↔ OnlyWrites W S s := by
  unfold openLine; rw [forEach_writes]
  · simp [w_emit, w_trunk]
  · intro x s; (repeat' split) <;> simp [w_emit, w_trunk]

@[simp] theorem senseCheck_writes (W : List Block) (S : State) (line : Line) (sensed : Bool) (s : State)
    (w_emit : Block.emit ∈ W) (w_cmd : Block.cmd ∈ W) (w_trunk : Block.trunk ∈ W) (w_flow : Block.flow ∈ W)
    (w_vec : Block.vec ∈ W) :
    OnlyWrites W S (senseCheck line sensed s) ↔ OnlyWrites W S s := by
  unfold senseCheck; dsimp only; (repeat' split) <;> simp [w_emit, w_cmd, w_trunk, w_flow, w_vec]

@[simp] theorem sequenceEnd_writes (W : List Block) (S : State) (passive : Bool) (status : Nat) (s : State)
    (w_emit : Block.emit ∈ W) (w_cmd : Block.cmd ∈ W) (w_trunk : Block.trunk ∈ W) (w_flow : Block.flow ∈ W)
    (w_vec : Block.vec ∈ W) :
    OnlyWrites W S (sequenceEnd passive status s) ↔ OnlyWrites W S s := by
  unfold sequenceEnd; simp [w_emit, w_cmd, w_trunk, w_flow, w_vec]

@[simp] theorem closeBoth_writes (W : List Block) (S : State) (s : State) (w_emit : Block.emit ∈ W)
    (w_cmd : Block.cmd ∈ W) (w_trunk : Block.trunk ∈ W) (w_flow : Block.flow ∈ W) (w_vec : Block.vec ∈ W) :
    OnlyWrites W S (closeBoth s) ↔ OnlyWrites W S s := by
  unfold closeBoth; simp [w_emit, w_cmd, w_trunk, w_flow, w_vec]

@[simp] theorem modSched_writes (W : List Block) (S : State) (f : Sched → Sched) (s : State)
    (w_sched : Block.sched ∈ W) :
    OnlyWrites W S (modSched f s) ↔ OnlyWrites W S s := by
  unfold modSched; simp [w_sched]

@[simp] theorem inaCount_writes (W : List Block) (S : State) (i : Nat) (s : State) (w_ina : Block.ina ∈ W) :
    OnlyWrites W S (inaCount i s) ↔ OnlyWrites W S s := by
  unfold inaCount; simp [w_ina]

@[simp] theorem modTwin_writes (W : List Block) (S : State) (f : Twin → Twin) (s : State) (w_twin : Block.twin ∈ W) :
    OnlyWrites W S (modTwin f s) ↔ OnlyWrites W S s := by
  unfold modTwin; simp [w_twin]

@[simp] theorem twinCount_writes (W : List Block) (S : State) (i : Nat) (s : State) (w_twin : Block.twin ∈ W) :
    OnlyWrites W S (twinCount i s) ↔ OnlyWrites W S s := by
  unfold twinCount; simp [w_twin]

@[simp] theorem setRole_writes (W : List Block) (S : State) (new : Role) (cause : Nat) (s : State)
    (w_emit : Block.emit ∈ W) (w_cmd : Block.cmd ∈ W) (w_flow : Block.flow ∈ W) (w_twin : Block.twin ∈ W)
    (w_vec : Block.vec ∈ W) :
    OnlyWrites W S (setRole new cause s) ↔ OnlyWrites W S s := by
  unfold setRole; simp [w_emit, w_cmd, w_flow, w_twin, w_vec]

@[simp] theorem raiseClaim_writes (W : List Block) (S : State) (s : State) (w_emit : Block.emit ∈ W)
    (w_cmd : Block.cmd ∈ W) (w_flow : Block.flow ∈ W) (w_twin : Block.twin ∈ W) (w_vec : Block.vec ∈ W) :
    OnlyWrites W S (raiseClaim s) ↔ OnlyWrites W S s := by
  unfold raiseClaim; simp [w_emit, w_cmd, w_flow, w_twin, w_vec]

@[simp] theorem twinLeave_writes (W : List Block) (S : State) (s : State) (w_emit : Block.emit ∈ W)
    (w_cmd : Block.cmd ∈ W) (w_flow : Block.flow ∈ W) (w_twin : Block.twin ∈ W) (w_vec : Block.vec ∈ W) (w_now : Block.now ∈ W) (w_time : Block.time ∈ W) :
    OnlyWrites W S (twinLeave s) ↔ OnlyWrites W S s := by
  unfold twinLeave; simp [w_now, w_time, w_emit, w_cmd, w_flow, w_twin, w_vec]

@[simp] theorem partnerAtSwitch_writes (W : List Block) (S : State) (new : Directory) (s : State)
    (w_twin : Block.twin ∈ W) :
    OnlyWrites W S (partnerAtSwitch new s) ↔ OnlyWrites W S s := by
  unfold partnerAtSwitch; (repeat' split) <;> simp [w_twin]

@[simp] theorem learnClaim_writes (W : List Block) (S : State) (gen : BitVec 16) (pref : Bool) (addr : BitVec 10)
    (s : State) (w_twin : Block.twin ∈ W) :
    OnlyWrites W S (learnClaim gen pref addr s) ↔ OnlyWrites W S s := by
  unfold learnClaim; simp [w_twin]

@[simp] theorem learnFromFlow_writes (W : List Block) (S : State) (f : FlowFrame) (verified : Bool) (s : State)
    (w_twin : Block.twin ∈ W) :
    OnlyWrites W S (learnFromFlow f verified s) ↔ OnlyWrites W S s := by
  unfold learnFromFlow; simp [w_twin]

@[simp] theorem modSession_writes (W : List Block) (S : State) (p : Session → Bool) (f : Session → Session) (s : State)
    (w_flow : Block.flow ∈ W) :
    OnlyWrites W S (modSession p f s) ↔ OnlyWrites W S s := by
  unfold modSession; simp [w_flow]

@[simp] theorem queueSession_writes (W : List Block) (S : State) (f : SessionFrame) (s : State)
    (w_trunk : Block.trunk ∈ W) (w_sched : Block.sched ∈ W) :
    OnlyWrites W S (queueSession f s) ↔ OnlyWrites W S s := by
  unfold queueSession; simp [w_trunk, w_sched]

@[simp] theorem sendSession_writes (W : List Block) (S : State) (f : SessionFrame) (s : State) (w_emit : Block.emit ∈ W)
    (w_trunk : Block.trunk ∈ W) (w_sched : Block.sched ∈ W) (w_fab : Block.fab ∈ W) :
    OnlyWrites W S (sendSession f s) ↔ OnlyWrites W S s := by
  unfold sendSession; simp [w_emit, w_trunk, w_sched, w_fab]

@[simp] theorem closeSession_writes (W : List Block) (S : State) (x : Session) (cause : Nat) (s : State)
    (w_emit : Block.emit ∈ W) (w_trunk : Block.trunk ∈ W) (w_sched : Block.sched ∈ W) (w_flow : Block.flow ∈ W)
    (w_fab : Block.fab ∈ W) :
    OnlyWrites W S (closeSession x cause s) ↔ OnlyWrites W S s := by
  unfold closeSession; simp [w_emit, w_trunk, w_sched, w_flow, w_fab]

@[simp] theorem sessionClosed_writes (W : List Block) (S : State) (x : Session) (cause : Nat) (s : State)
    (w_emit : Block.emit ∈ W) (w_cmd : Block.cmd ∈ W) (w_flow : Block.flow ∈ W) (w_vec : Block.vec ∈ W) :
    OnlyWrites W S (sessionClosed x cause s) ↔ OnlyWrites W S s := by
  unfold sessionClosed; simp [w_emit, w_cmd, w_flow, w_vec]

@[simp] theorem renumberSessions_writes (W : List Block) (S : State) (map : List Byte) (new : Directory) (s : State)
    (w_emit : Block.emit ∈ W) (w_cmd : Block.cmd ∈ W) (w_trunk : Block.trunk ∈ W) (w_sched : Block.sched ∈ W)
    (w_flow : Block.flow ∈ W) (w_fab : Block.fab ∈ W) (w_vec : Block.vec ∈ W) :
    OnlyWrites W S (renumberSessions map new s) ↔ OnlyWrites W S s := by
  unfold renumberSessions; simp [w_emit, w_cmd, w_trunk, w_sched, w_flow, w_fab, w_vec]

@[simp] theorem mismatchEvent_writes (W : List Block) (S : State) (p : Nat) (s : State) (w_emit : Block.emit ∈ W)
    (w_cmd : Block.cmd ∈ W) (w_flow : Block.flow ∈ W) (w_vec : Block.vec ∈ W) :
    OnlyWrites W S (mismatchEvent p s) ↔ OnlyWrites W S s := by
  unfold mismatchEvent; simp [w_emit, w_cmd, w_flow, w_vec]

@[simp] theorem mismatchOnce_writes (W : List Block) (S : State) (p : Nat) (s : State) (w_emit : Block.emit ∈ W)
    (w_cmd : Block.cmd ∈ W) (w_ina : Block.ina ∈ W) (w_flow : Block.flow ∈ W) (w_vec : Block.vec ∈ W) :
    OnlyWrites W S (mismatchOnce p s) ↔ OnlyWrites W S s := by
  unfold mismatchOnce; simp [w_emit, w_cmd, w_ina, w_flow, w_vec]

@[simp] theorem enterSteep_writes (W : List Block) (S : State) (s : State) (w_now : Block.now ∈ W)
    (w_emit : Block.emit ∈ W) (w_cmd : Block.cmd ∈ W) (w_trunk : Block.trunk ∈ W) (w_ina : Block.ina ∈ W)
    (w_time : Block.time ∈ W) (w_flow : Block.flow ∈ W) (w_twin : Block.twin ∈ W) (w_vec : Block.vec ∈ W) :
    OnlyWrites W S (enterSteep s) ↔ OnlyWrites W S s := by
  unfold enterSteep; dsimp only; (repeat' split) <;> simp [w_now, w_emit, w_cmd, w_trunk, w_ina, w_time, w_flow, w_twin, w_vec]

@[simp] theorem phaseSample_writes (W : List Block) (S : State) (theta : Int) (source : BitVec 2) (hops : Nat)
    (s : State) (w_now : Block.now ∈ W) (w_emit : Block.emit ∈ W) (w_cmd : Block.cmd ∈ W) (w_trunk : Block.trunk ∈ W)
    (w_ina : Block.ina ∈ W) (w_time : Block.time ∈ W) (w_flow : Block.flow ∈ W) (w_twin : Block.twin ∈ W)
    (w_vec : Block.vec ∈ W) :
    OnlyWrites W S (phaseSample theta source hops s) ↔ OnlyWrites W S s := by
  unfold phaseSample; simp [w_now, w_emit, w_cmd, w_trunk, w_ina, w_time, w_flow, w_twin, w_vec]

@[simp] theorem settleLeading_writes (W : List Block) (S : State) (s : State) (w_emit : Block.emit ∈ W)
    (w_cmd : Block.cmd ∈ W) (w_ina : Block.ina ∈ W) (w_flow : Block.flow ∈ W) (w_vec : Block.vec ∈ W) :
    OnlyWrites W S (settleLeading s) ↔ OnlyWrites W S s := by
  unfold settleLeading; (repeat' split) <;> simp [w_emit, w_cmd, w_ina, w_flow, w_vec]

@[simp] theorem conflictEvent_writes (W : List Block) (S : State) (cause : Byte) (uid : BitVec 64) (s : State)
    (w_emit : Block.emit ∈ W) (w_cmd : Block.cmd ∈ W) (w_flow : Block.flow ∈ W) (w_vec : Block.vec ∈ W) :
    OnlyWrites W S (conflictEvent cause uid s) ↔ OnlyWrites W S s := by
  unfold conflictEvent; simp [w_emit, w_cmd, w_flow, w_vec]

@[simp] theorem noteConflict_writes (W : List Block) (S : State) (s : State) (w_emit : Block.emit ∈ W)
    (w_cmd : Block.cmd ∈ W) (w_ina : Block.ina ∈ W) (w_flow : Block.flow ∈ W) (w_vec : Block.vec ∈ W) :
    OnlyWrites W S (noteConflict s) ↔ OnlyWrites W S s := by
  unfold noteConflict; (repeat' split) <;> simp [w_emit, w_cmd, w_ina, w_flow, w_vec]

@[simp] theorem reportConflicts_writes (W : List Block) (S : State) (conf : List (Byte × BitVec 64)) (s : State)
    (w_emit : Block.emit ∈ W) (w_cmd : Block.cmd ∈ W) (w_ina : Block.ina ∈ W) (w_flow : Block.flow ∈ W)
    (w_vec : Block.vec ∈ W) :
    OnlyWrites W S (reportConflicts conf s) ↔ OnlyWrites W S s := by
  unfold reportConflicts; simp [w_emit, w_cmd, w_ina, w_flow, w_vec]

@[simp] theorem firstChange_writes (W : List Block) (S : State) (was : Bool) (s : State) (w_now : Block.now ∈ W)
    (w_emit : Block.emit ∈ W) (w_cmd : Block.cmd ∈ W) (w_sched : Block.sched ∈ W) (w_time : Block.time ∈ W)
    (w_flow : Block.flow ∈ W) (w_vec : Block.vec ∈ W) :
    OnlyWrites W S (firstChange was s) ↔ OnlyWrites W S s := by
  unfold firstChange; simp [w_now, w_emit, w_cmd, w_sched, w_time, w_flow, w_vec]

@[simp] theorem switchState_writes (W : List Block) (S : State) (addr : BitVec 10) (s : State) (w_now : Block.now ∈ W)
    (w_emit : Block.emit ∈ W) (w_cmd : Block.cmd ∈ W) (w_trunk : Block.trunk ∈ W) (w_ina : Block.ina ∈ W)
    (w_time : Block.time ∈ W) (w_flow : Block.flow ∈ W) (w_twin : Block.twin ∈ W) (w_vec : Block.vec ∈ W) :
    OnlyWrites W S (switchState addr s) ↔ OnlyWrites W S s := by
  unfold switchState; simp [w_now, w_emit, w_cmd, w_trunk, w_ina, w_time, w_flow, w_twin, w_vec]

@[simp] theorem heldOnJoin_writes (W : List Block) (S : State) (was s : State) (w_emit : Block.emit ∈ W)
    (w_cmd : Block.cmd ∈ W) (w_flow : Block.flow ∈ W) (w_vec : Block.vec ∈ W) :
    OnlyWrites W S (heldOnJoin was s) ↔ OnlyWrites W S s := by
  unfold heldOnJoin; simp [w_emit, w_cmd, w_flow, w_vec]

@[simp] theorem topoChange_writes (W : List Block) (S : State) (oldGen newGen : BitVec 16) (oldAddr newAddr : BitVec 10)
    (removal step : Bool) (s : State) (w_emit : Block.emit ∈ W) (w_cmd : Block.cmd ∈ W) (w_flow : Block.flow ∈ W)
    (w_vec : Block.vec ∈ W) :
    OnlyWrites W S (topoChange oldGen newGen oldAddr newAddr removal step s) ↔ OnlyWrites W S s := by
  unfold topoChange; simp [w_emit, w_cmd, w_flow, w_vec]

@[simp] theorem sendDirAgain_writes (W : List Block) (S : State) (s : State) (w_trunk : Block.trunk ∈ W) :
    OnlyWrites W S (sendDirAgain s) ↔ OnlyWrites W S s := by
  unfold sendDirAgain; simp [w_trunk]

@[simp] theorem performSwitch_writes (W : List Block) (S : State) (new : Directory) (conf : List (Byte × BitVec 64))
    (removal step : Bool) (s : State) (w_now : Block.now ∈ W) (w_emit : Block.emit ∈ W) (w_cmd : Block.cmd ∈ W)
    (w_trunk : Block.trunk ∈ W) (w_ina : Block.ina ∈ W) (w_sched : Block.sched ∈ W) (w_time : Block.time ∈ W)
    (w_flow : Block.flow ∈ W) (w_twin : Block.twin ∈ W) (w_fab : Block.fab ∈ W) (w_vec : Block.vec ∈ W) :
    OnlyWrites W S (performSwitch new conf removal step s) ↔ OnlyWrites W S s := by
  unfold performSwitch; simp [-modIna_frame, -modIna_ina, w_now, w_emit, w_cmd, w_trunk, w_ina, w_sched, w_time, w_flow, w_twin, w_fab, w_vec]

@[simp] theorem scheduleRemoval_writes (W : List Block) (S : State) (b : BreakBody) (s : State)
    (w_ina : Block.ina ∈ W) :
    OnlyWrites W S (scheduleRemoval b s) ↔ OnlyWrites W S s := by
  unfold scheduleRemoval; (repeat' split) <;> simp [w_ina]

@[simp] theorem portBusy_writes (W : List Block) (S : State) (p n : Nat) (s : State) (w_trunk : Block.trunk ∈ W) :
    OnlyWrites W S (portBusy p n s) ↔ OnlyWrites W S s := by
  unfold portBusy; (repeat' split) <;> simp_all [w_trunk]

@[simp] theorem protect_writes (W : List Block) (S : State) (lineB : Bool) (f : FlowFrame) (s : State)
    (w_flow : Block.flow ∈ W) :
    OnlyWrites W S (protect lineB f s).2 ↔ OnlyWrites W S s := by
  unfold protect; dsimp only; (repeat' split) <;> simp_all [w_flow]

@[simp] theorem flowLeft_writes (W : List Block) (S : State) (i : Nat) (first : Bool) (s : State)
    (w_flow : Block.flow ∈ W) :
    OnlyWrites W S (flowLeft i first s) ↔ OnlyWrites W S s := by
  unfold flowLeft; (repeat' split) <;> simp_all [w_flow]

@[simp] theorem countedAcross_writes (W : List Block) (S : State) (p i : Nat) (s : State) (w_trunk : Block.trunk ∈ W)
    :
    OnlyWrites W S (countedAcross p i s) ↔ OnlyWrites W S s := by
  unfold countedAcross; (repeat' split) <;> simp_all [w_trunk]

@[simp] theorem departing_writes (W : List Block) (S : State) (p : Nat) (f : QFrame) (s : State)
    (w_trunk : Block.trunk ∈ W) (w_flow : Block.flow ∈ W) :
    OnlyWrites W S (departing p f s).2 ↔ OnlyWrites W S s := by
  unfold departing; dsimp only; (repeat' split) <;> simp_all [w_trunk, w_flow]

@[simp] theorem startFrame_writes (W : List Block) (S : State) (p q : Nat) (f : QFrame) (s : State)
    (w_emit : Block.emit ∈ W) (w_trunk : Block.trunk ∈ W) (w_flow : Block.flow ∈ W) :
    OnlyWrites W S (startFrame p q f s) ↔ OnlyWrites W S s := by
  unfold startFrame; dsimp only; (repeat' split) <;> simp_all [w_emit, w_trunk, w_flow]

@[simp] theorem enqueueFirst_writes (W : List Block) (S : State) (p : Nat) (f : QFrame) (s : State)
    (w_trunk : Block.trunk ∈ W) (w_sched : Block.sched ∈ W) :
    OnlyWrites W S (enqueueFirst p f s) ↔ OnlyWrites W S s := by
  unfold enqueueFirst; dsimp only; (repeat' split) <;> simp_all [w_trunk, w_sched]

@[simp] theorem sendUrgent_writes (W : List Block) (S : State) (p : Nat) (f : OutFrame) (s : State)
    (w_emit : Block.emit ∈ W) (w_trunk : Block.trunk ∈ W) (w_sched : Block.sched ∈ W) (w_flow : Block.flow ∈ W) :
    OnlyWrites W S (sendUrgent p f s) ↔ OnlyWrites W S s := by
  unfold sendUrgent; simp [w_flow, w_emit, w_trunk, w_sched]

@[simp] theorem breakNow_writes (W : List Block) (S : State) (d : Nat) (cause : Byte) (tDown : Nat) (lost : BitVec 64)
    (s : State) (w_emit : Block.emit ∈ W) (w_trunk : Block.trunk ∈ W) (w_ina : Block.ina ∈ W)
    (w_sched : Block.sched ∈ W) (w_flow : Block.flow ∈ W) :
    OnlyWrites W S (breakNow d cause tDown lost s) ↔ OnlyWrites W S s := by
  unfold breakNow; (repeat' split) <;> simp [w_flow, w_emit, w_trunk, w_ina, w_sched]

@[simp] theorem checkBroken_writes (W : List Block) (S : State) (d : Nat) (s : State) (w_emit : Block.emit ∈ W)
    (w_trunk : Block.trunk ∈ W) (w_ina : Block.ina ∈ W) (w_sched : Block.sched ∈ W) (w_flow : Block.flow ∈ W) :
    OnlyWrites W S (checkBroken d s) ↔ OnlyWrites W S s := by
  unfold checkBroken; simp [w_flow, w_emit, w_trunk, w_ina, w_sched]

@[simp] theorem portLost_writes (W : List Block) (S : State) (p : Nat) (s : State) (w_emit : Block.emit ∈ W)
    (w_trunk : Block.trunk ∈ W) (w_ina : Block.ina ∈ W) (w_sched : Block.sched ∈ W) (w_flow : Block.flow ∈ W) :
    OnlyWrites W S (portLost p s) ↔ OnlyWrites W S s := by
  unfold portLost; simp [w_flow, w_emit, w_trunk, w_ina, w_sched]

@[simp] theorem renewReport_writes (W : List Block) (S : State) (m : MergeReport) (q : Nat) (s : State)
    (w_trunk : Block.trunk ∈ W) :
    OnlyWrites W S (renewReport m q s) ↔ OnlyWrites W S s := by
  unfold renewReport; simp [w_trunk]

@[simp] theorem mergeReport_writes (W : List Block) (S : State) (p : Nat) (s : State) (w_trunk : Block.trunk ∈ W)
    (w_ina : Block.ina ∈ W) (w_sched : Block.sched ∈ W) :
    OnlyWrites W S (mergeReport p s) ↔ OnlyWrites W S s := by
  unfold mergeReport; (repeat' split) <;> simp [w_trunk, w_ina, w_sched]

@[simp] theorem sendAcross_writes (W : List Block) (S : State) (p : Nat) (s : State) (w_trunk : Block.trunk ∈ W)
    (w_sched : Block.sched ∈ W) :
    OnlyWrites W S (sendAcross p s) ↔ OnlyWrites W S s := by
  unfold sendAcross; (repeat' split) <;> simp [w_trunk, w_sched]

@[simp] theorem enterContend_writes (W : List Block) (S : State) (s : State) (w_now : Block.now ∈ W)
    (w_emit : Block.emit ∈ W) (w_cmd : Block.cmd ∈ W) (w_ina : Block.ina ∈ W) (w_time : Block.time ∈ W)
    (w_flow : Block.flow ∈ W) (w_twin : Block.twin ∈ W) (w_vec : Block.vec ∈ W) :
    OnlyWrites W S (enterContend s) ↔ OnlyWrites W S s := by
  unfold enterContend; simp [w_now, w_emit, w_cmd, w_ina, w_time, w_flow, w_twin, w_vec]

@[simp] theorem prepareFirst_writes (W : List Block) (S : State) (s : State) (w_ina : Block.ina ∈ W) :
    OnlyWrites W S (prepareFirst s) ↔ OnlyWrites W S s := by
  unfold prepareFirst; simp [w_ina]

@[simp] theorem ttSend_writes (W : List Block) (S : State) (ps : List Nat) (t : Ttdp) (s : State)
    (w_emit : Block.emit ∈ W) (w_trunk : Block.trunk ∈ W) (w_sched : Block.sched ∈ W) :
    OnlyWrites W S (ttSend ps t s) ↔ OnlyWrites W S s := by
  unfold ttSend; (repeat' split) <;> simp_all [w_emit, w_trunk, w_sched]

@[simp] theorem leaveBackbone_writes (W : List Block) (S : State) (s : State) (w_now : Block.now ∈ W)
    (w_emit : Block.emit ∈ W) (w_cmd : Block.cmd ∈ W) (w_trunk : Block.trunk ∈ W) (w_ina : Block.ina ∈ W)
    (w_time : Block.time ∈ W) (w_flow : Block.flow ∈ W) (w_twin : Block.twin ∈ W) (w_vec : Block.vec ∈ W) :
    OnlyWrites W S (leaveBackbone s) ↔ OnlyWrites W S s := by
  unfold leaveBackbone; simp [w_now, w_emit, w_cmd, w_trunk, w_ina, w_time, w_flow, w_twin, w_vec]

@[simp] theorem ttTell_writes (W : List Block) (S : State) (d : Nat) (s : State) (w_emit : Block.emit ∈ W)
    (w_trunk : Block.trunk ∈ W) (w_sched : Block.sched ∈ W) (w_fab : Block.fab ∈ W) :
    OnlyWrites W S (ttTell d s) ↔ OnlyWrites W S s := by
  unfold ttTell; dsimp only; (repeat' split) <;> simp_all [w_emit, w_trunk, w_sched, w_fab]

@[simp] theorem ttGone_writes (W : List Block) (S : State) (d : Nat) (before s : State) (w_now : Block.now ∈ W)
    (w_emit : Block.emit ∈ W) (w_cmd : Block.cmd ∈ W) (w_trunk : Block.trunk ∈ W) (w_ina : Block.ina ∈ W)
    (w_time : Block.time ∈ W) (w_flow : Block.flow ∈ W) (w_twin : Block.twin ∈ W) (w_vec : Block.vec ∈ W) (w_sched : Block.sched ∈ W) (w_fab : Block.fab ∈ W) :
    OnlyWrites W S (ttGone d before s) ↔ OnlyWrites W S s := by
  unfold ttGone; simp [w_sched, w_fab, w_now, w_emit, w_cmd, w_trunk, w_ina, w_time, w_flow, w_twin, w_vec]

theorem execLossOfSignal_writes (W : List Block) (S : State) (dt : Nat) (p : Fin 4) (s : State) (w_now : Block.now ∈ W)
    (w_clk : Block.clk ∈ W) (w_emit : Block.emit ∈ W) (w_trunk : Block.trunk ∈ W) :
    ∃ u, execLossOfSignal dt p s = .next u ∧ (OnlyWrites W S u ↔ OnlyWrites W S s) := by
  unfold execLossOfSignal; exact ⟨_, rfl, by simp [w_now, w_clk, w_emit, w_trunk]⟩

theorem execResumeEntry_writes (W : List Block) (S : State) (dt : Nat) (p : Fin 4) (s : State) (w_now : Block.now ∈ W)
    (w_clk : Block.clk ∈ W) (w_emit : Block.emit ∈ W) (w_trunk : Block.trunk ∈ W) :
    ∃ u, execResumeEntry dt p s = .next u ∧ (OnlyWrites W S u ↔ OnlyWrites W S s) := by
  unfold execResumeEntry; exact ⟨_, rfl, by simp [w_now, w_clk, w_emit, w_trunk]⟩

@[simp] theorem linkDown_writes (W : List Block) (S : State) (p cause : Nat) (s : State) (w_now : Block.now ∈ W)
    (w_emit : Block.emit ∈ W) (w_cmd : Block.cmd ∈ W) (w_trunk : Block.trunk ∈ W) (w_ina : Block.ina ∈ W)
    (w_sched : Block.sched ∈ W) (w_time : Block.time ∈ W) (w_flow : Block.flow ∈ W) (w_twin : Block.twin ∈ W)
    (w_vec : Block.vec ∈ W) (w_fab : Block.fab ∈ W) :
    OnlyWrites W S (linkDown p cause s) ↔ OnlyWrites W S s := by
  unfold linkDown; simp [w_fab, w_now, w_emit, w_cmd, w_trunk, w_ina, w_sched, w_time, w_flow, w_twin, w_vec]

@[simp] theorem portRelock_writes (W : List Block) (S : State) (p : Nat) (s : State) (w_now : Block.now ∈ W)
    (w_emit : Block.emit ∈ W) (w_cmd : Block.cmd ∈ W) (w_trunk : Block.trunk ∈ W) (w_ina : Block.ina ∈ W)
    (w_sched : Block.sched ∈ W) (w_time : Block.time ∈ W) (w_flow : Block.flow ∈ W) (w_twin : Block.twin ∈ W)
    (w_vec : Block.vec ∈ W) (w_fab : Block.fab ∈ W) :
    OnlyWrites W S (portRelock p s) ↔ OnlyWrites W S s := by
  unfold portRelock; (repeat' split) <;> simp [w_fab, w_now, w_emit, w_cmd, w_trunk, w_ina, w_sched, w_time, w_flow, w_twin, w_vec]

theorem execSignalRelock_writes (W : List Block) (S : State) (dt : Nat) (p : Fin 4) (s : State) (w_now : Block.now ∈ W)
    (w_clk : Block.clk ∈ W) (w_emit : Block.emit ∈ W) (w_cmd : Block.cmd ∈ W) (w_trunk : Block.trunk ∈ W)
    (w_ina : Block.ina ∈ W) (w_sched : Block.sched ∈ W) (w_time : Block.time ∈ W) (w_flow : Block.flow ∈ W)
    (w_twin : Block.twin ∈ W) (w_vec : Block.vec ∈ W) (w_fab : Block.fab ∈ W) :
    ∃ u, execSignalRelock dt p s = .next u ∧ (OnlyWrites W S u ↔ OnlyWrites W S s) := by
  unfold execSignalRelock; exact ⟨_, rfl, by simp [w_fab, w_now, w_clk, w_emit, w_cmd, w_trunk, w_ina, w_sched, w_time, w_flow, w_twin, w_vec]⟩

theorem execLinkDownTimeout_writes (W : List Block) (S : State) (dt : Nat) (p : Fin 4) (s : State)
    (w_now : Block.now ∈ W) (w_clk : Block.clk ∈ W) (w_emit : Block.emit ∈ W) (w_cmd : Block.cmd ∈ W)
    (w_trunk : Block.trunk ∈ W) (w_ina : Block.ina ∈ W) (w_sched : Block.sched ∈ W) (w_time : Block.time ∈ W)
    (w_flow : Block.flow ∈ W) (w_twin : Block.twin ∈ W) (w_vec : Block.vec ∈ W) (w_fab : Block.fab ∈ W) :
    ∃ u, execLinkDownTimeout dt p s = .next u ∧ (OnlyWrites W S u ↔ OnlyWrites W S s) := by
  unfold execLinkDownTimeout; exact ⟨_, rfl, by simp [w_fab, w_now, w_clk, w_emit, w_cmd, w_trunk, w_ina, w_sched, w_time, w_flow, w_twin, w_vec]⟩

theorem execPartnerEnergyDetect_writes (W : List Block) (S : State) (dt : Nat) (p : Fin 4) (s : State)
    (w_now : Block.now ∈ W) (w_clk : Block.clk ∈ W) (w_emit : Block.emit ∈ W) (w_trunk : Block.trunk ∈ W) :
    ∃ u, execPartnerEnergyDetect dt p s = .next u ∧ (OnlyWrites W S u ↔ OnlyWrites W S s) := by
  unfold execPartnerEnergyDetect; exact ⟨_, rfl, by simp [w_now, w_clk, w_emit, w_trunk]⟩

@[simp] theorem portQualify_writes (W : List Block) (S : State) (p : Nat) (s : State) (w_trunk : Block.trunk ∈ W) :
    OnlyWrites W S (portQualify p s) ↔ OnlyWrites W S s := by
  unfold portQualify; (repeat' split) <;> simp [w_trunk]

theorem execTrainingLockComplete_writes (W : List Block) (S : State) (dt : Nat) (p : Fin 4) (s : State)
    (w_now : Block.now ∈ W) (w_clk : Block.clk ∈ W) (w_emit : Block.emit ∈ W) (w_trunk : Block.trunk ∈ W) :
    ∃ u, execTrainingLockComplete dt p s = .next u ∧ (OnlyWrites W S u ↔ OnlyWrites W S s) := by
  unfold execTrainingLockComplete; exact ⟨_, rfl, by simp [w_now, w_clk, w_emit, w_trunk]⟩

theorem execQualifyComplete_writes (W : List Block) (S : State) (dt : Nat) (p : Fin 4) (partner : BitVec 64) (s : State)
    (w_now : Block.now ∈ W) (w_clk : Block.clk ∈ W) (w_emit : Block.emit ∈ W) (w_cmd : Block.cmd ∈ W)
    (w_trunk : Block.trunk ∈ W) (w_ina : Block.ina ∈ W) (w_flow : Block.flow ∈ W) (w_vec : Block.vec ∈ W) :
    ∃ u, execQualifyComplete dt p partner s = .next u ∧ (OnlyWrites W S u ↔ OnlyWrites W S s) := by
  unfold execQualifyComplete; exact ⟨_, rfl, by (repeat' split) <;> simp [w_now, w_clk, w_emit, w_cmd, w_trunk, w_ina, w_flow, w_vec]⟩

theorem execCodeViolationLimit_writes (W : List Block) (S : State) (dt : Nat) (p : Fin 4) (violations : Nat)
    (lockLost : Bool) (s : State) (w_now : Block.now ∈ W) (w_clk : Block.clk ∈ W) (w_emit : Block.emit ∈ W)
    (w_trunk : Block.trunk ∈ W) :
    ∃ u, execCodeViolationLimit dt p violations lockLost s = .next u ∧ (OnlyWrites W S u ↔ OnlyWrites W S s) := by
  unfold execCodeViolationLimit; exact ⟨_, rfl, by simp [w_now, w_clk, w_emit, w_trunk]⟩

theorem execNegotiateTimeout_writes (W : List Block) (S : State) (dt : Nat) (p : Fin 4) (s : State)
    (w_now : Block.now ∈ W) (w_clk : Block.clk ∈ W) (w_emit : Block.emit ∈ W) (w_cmd : Block.cmd ∈ W)
    (w_trunk : Block.trunk ∈ W) (w_flow : Block.flow ∈ W) (w_vec : Block.vec ∈ W) :
    ∃ u, execNegotiateTimeout dt p s = .next u ∧ (OnlyWrites W S u ↔ OnlyWrites W S s) := by
  unfold execNegotiateTimeout; exact ⟨_, rfl, by (repeat' split) <;> simp [w_now, w_clk, w_emit, w_cmd, w_trunk, w_flow, w_vec]⟩

theorem execAutonegComplete_writes (W : List Block) (S : State) (dt : Nat) (p : Fin 4) (m1000 m100 master : Bool)
    (s : State) (w_now : Block.now ∈ W) (w_clk : Block.clk ∈ W) (w_emit : Block.emit ∈ W) (w_trunk : Block.trunk ∈ W) (w_cmd : Block.cmd ∈ W) (w_flow : Block.flow ∈ W) (w_vec : Block.vec ∈ W) :
    ∃ u, execAutonegComplete dt p m1000 m100 master s = .next u ∧ (OnlyWrites W S u ↔ OnlyWrites W S s) := by
  unfold execAutonegComplete; exact ⟨_, rfl, by (repeat' split) <;> simp [w_cmd, w_flow, w_vec, w_now, w_clk, w_emit, w_trunk]⟩

theorem execTrainingFailure_writes (W : List Block) (S : State) (dt : Nat) (p : Fin 4) (answered : Bool) (s : State)
    (w_now : Block.now ∈ W) (w_clk : Block.clk ∈ W) (w_emit : Block.emit ∈ W) (w_cmd : Block.cmd ∈ W)
    (w_trunk : Block.trunk ∈ W) (w_flow : Block.flow ∈ W) (w_vec : Block.vec ∈ W) :
    ∃ u, execTrainingFailure dt p answered s = .next u ∧ (OnlyWrites W S u ↔ OnlyWrites W S s) := by
  unfold execTrainingFailure; exact ⟨_, rfl, by simp [w_now, w_clk, w_emit, w_cmd, w_trunk, w_flow, w_vec]⟩

theorem execT1LinkUp_writes (W : List Block) (S : State) (dt : Nat) (p : Fin 4) (partner : BitVec 64) (s : State)
    (w_now : Block.now ∈ W) (w_clk : Block.clk ∈ W) (w_emit : Block.emit ∈ W) (w_cmd : Block.cmd ∈ W)
    (w_trunk : Block.trunk ∈ W) (w_ina : Block.ina ∈ W) (w_flow : Block.flow ∈ W) (w_vec : Block.vec ∈ W) :
    ∃ u, execT1LinkUp dt p partner s = .next u ∧ (OnlyWrites W S u ↔ OnlyWrites W S s) := by
  unfold execT1LinkUp; exact ⟨_, rfl, by (repeat' split) <;> simp [w_now, w_clk, w_emit, w_cmd, w_trunk, w_ina, w_flow, w_vec]⟩

theorem execT1LinkDown_writes (W : List Block) (S : State) (dt : Nat) (p : Fin 4) (s : State) (w_now : Block.now ∈ W)
    (w_clk : Block.clk ∈ W) (w_emit : Block.emit ∈ W) (w_cmd : Block.cmd ∈ W) (w_trunk : Block.trunk ∈ W)
    (w_ina : Block.ina ∈ W) (w_sched : Block.sched ∈ W) (w_time : Block.time ∈ W) (w_flow : Block.flow ∈ W)
    (w_twin : Block.twin ∈ W) (w_vec : Block.vec ∈ W) (w_fab : Block.fab ∈ W) :
    ∃ u, execT1LinkDown dt p s = .next u ∧ (OnlyWrites W S u ↔ OnlyWrites W S s) := by
  unfold execT1LinkDown; exact ⟨_, rfl, by simp [w_fab, w_now, w_clk, w_emit, w_cmd, w_trunk, w_ina, w_sched, w_time, w_flow, w_twin, w_vec]⟩

theorem execT1RoleSwap_writes (W : List Block) (S : State) (dt : Nat) (p : Fin 4) (s : State) (w_now : Block.now ∈ W)
    (w_clk : Block.clk ∈ W) (w_emit : Block.emit ∈ W) (w_trunk : Block.trunk ∈ W) :
    ∃ u, execT1RoleSwap dt p s = .next u ∧ (OnlyWrites W S u ↔ OnlyWrites W S s) := by
  unfold execT1RoleSwap; exact ⟨_, rfl, by (repeat' split) <;> simp [w_now, w_clk, w_emit, w_trunk]⟩

@[simp] theorem modLane_writes (W : List Block) (S : State) (k lane : Nat) (f : DelayEst → DelayEst) (s : State)
    (w_fab : Block.fab ∈ W) :
    OnlyWrites W S (modLane k lane f s) ↔ OnlyWrites W S s := by
  unfold modLane; simp [w_fab]

@[simp] theorem delayRequestSend_writes (W : List Block) (S : State) (p : DelayPort) (idle : Bool) (tTx : Int)
    (s : State) (w_emit : Block.emit ∈ W) (w_trunk : Block.trunk ∈ W) (w_fab : Block.fab ∈ W) :
    OnlyWrites W S (delayRequestSend p idle tTx s) ↔ OnlyWrites W S s := by
  unfold delayRequestSend; (repeat' split) <;> simp [w_emit, w_trunk, w_fab]

theorem execDelayRequest_writes (W : List Block) (S : State) (dt : Nat) (p : DelayPort) (idle : Bool) (tTx : Int)
    (s : State) (w_now : Block.now ∈ W) (w_clk : Block.clk ∈ W) (w_emit : Block.emit ∈ W) (w_trunk : Block.trunk ∈ W)
    (w_fab : Block.fab ∈ W) :
    ∃ u, execDelayRequest dt p idle tTx s = .next u ∧ (OnlyWrites W S u ↔ OnlyWrites W S s) := by
  unfold execDelayRequest; exact ⟨_, rfl, by simp [w_now, w_clk, w_emit, w_trunk, w_fab]⟩

@[simp] theorem delayMarkerIn_writes (W : List Block) (S : State) (p : DelayPort) (m : Marker) (tRx tTx : Int)
    (s : State) (w_emit : Block.emit ∈ W) (w_trunk : Block.trunk ∈ W) (w_fab : Block.fab ∈ W) :
    OnlyWrites W S (delayMarkerIn p m tRx tTx s) ↔ OnlyWrites W S s := by
  unfold delayMarkerIn; (repeat' split) <;> simp [w_emit, w_trunk, w_fab]

@[simp] theorem pdelayIn_writes (W : List Block) (S : State) (p : DelayPort) (m : DelayMsg) (tRx tTx : Int) (s : State)
    (w_emit : Block.emit ∈ W) (w_trunk : Block.trunk ∈ W) :
    OnlyWrites W S (pdelayIn p m tRx tTx s) ↔ OnlyWrites W S s := by
  unfold pdelayIn; (repeat' split) <;> simp [w_emit, w_trunk]

@[simp] theorem delayIn_writes (W : List Block) (S : State) (p : DelayPort) (m : DelayMsg) (tRx tTx : Int) (s : State)
    (w_emit : Block.emit ∈ W) (w_trunk : Block.trunk ∈ W) (w_fab : Block.fab ∈ W) :
    OnlyWrites W S (delayIn p m tRx tTx s) ↔ OnlyWrites W S s := by
  unfold delayIn; (repeat' split) <;> simp [w_emit, w_trunk, w_fab]

theorem execDelayMarkerRx_writes (W : List Block) (S : State) (dt : Nat) (p : DelayPort) (m : DelayMsg) (tRx : Int)
    (tTx : Int) (s : State) (w_now : Block.now ∈ W) (w_clk : Block.clk ∈ W) (w_emit : Block.emit ∈ W)
    (w_trunk : Block.trunk ∈ W) (w_fab : Block.fab ∈ W) :
    ∃ u, execDelayMarkerRx dt p m tRx tTx s = .next u ∧ (OnlyWrites W S u ↔ OnlyWrites W S s) := by
  unfold execDelayMarkerRx; exact ⟨_, rfl, by simp [w_now, w_clk, w_emit, w_trunk, w_fab]⟩

@[simp] theorem delayTrunkDone_writes (W : List Block) (S : State) (p : Nat) (x : DelayEst × Bool) (s : State)
    (w_trunk : Block.trunk ∈ W) :
    OnlyWrites W S (delayTrunkDone p x s) ↔ OnlyWrites W S s := by
  unfold delayTrunkDone; simp [w_trunk]

@[simp] theorem delayLaneDone_writes (W : List Block) (S : State) (k lane : Nat) (x : DelayEst × Bool) (s : State)
    (w_fab : Block.fab ∈ W) :
    OnlyWrites W S (delayLaneDone k lane x s) ↔ OnlyWrites W S s := by
  unfold delayLaneDone; simp [w_fab]

@[simp] theorem delayFollowIn_writes (W : List Block) (S : State) (p : DelayPort) (m : DelayMsg) (s : State)
    (w_trunk : Block.trunk ∈ W) (w_fab : Block.fab ∈ W) :
    OnlyWrites W S (delayFollowIn p m s) ↔ OnlyWrites W S s := by
  unfold delayFollowIn; (repeat' split) <;> simp [w_trunk, w_fab]

theorem execDelayFollowUpRx_writes (W : List Block) (S : State) (dt : Nat) (p : DelayPort) (m : DelayMsg) (s : State)
    (w_now : Block.now ∈ W) (w_clk : Block.clk ∈ W) (w_emit : Block.emit ∈ W) (w_trunk : Block.trunk ∈ W)
    (w_fab : Block.fab ∈ W) :
    ∃ u, execDelayFollowUpRx dt p m s = .next u ∧ (OnlyWrites W S u ↔ OnlyWrites W S s) := by
  unfold execDelayFollowUpRx; exact ⟨_, rfl, by (repeat' split) <;> simp [w_now, w_clk, w_emit, w_trunk, w_fab]⟩

theorem execPeerDelayRequest_writes (W : List Block) (S : State) (dt : Nat) (p : Fin 4) (tTx : Int) (s : State)
    (w_now : Block.now ∈ W) (w_clk : Block.clk ∈ W) (w_emit : Block.emit ∈ W) (w_trunk : Block.trunk ∈ W) :
    ∃ u, execPeerDelayRequest dt p tTx s = .next u ∧ (OnlyWrites W S u ↔ OnlyWrites W S s) := by
  unfold execPeerDelayRequest; exact ⟨_, rfl, by (repeat' split) <;> simp [w_now, w_clk, w_emit, w_trunk]⟩

@[simp] theorem beaconOut_writes (W : List Block) (S : State) (p : Nat) (s : State) (w_emit : Block.emit ∈ W) (w_trunk : Block.trunk ∈ W) :
    OnlyWrites W S (beaconOut p s) ↔ OnlyWrites W S s := by
  unfold beaconOut; simp [w_trunk, w_emit]

theorem execLinkBeaconSend_writes (W : List Block) (S : State) (dt : Nat) (p : Fin 4) (idleFor : Nat) (s : State)
    (w_now : Block.now ∈ W) (w_clk : Block.clk ∈ W) (w_emit : Block.emit ∈ W) (w_trunk : Block.trunk ∈ W) :
    ∃ u, execLinkBeaconSend dt p idleFor s = .next u ∧ (OnlyWrites W S u ↔ OnlyWrites W S s) := by
  unfold execLinkBeaconSend; exact ⟨_, rfl, by simp [w_trunk, w_now, w_clk, w_emit]⟩

@[simp] theorem passiveBeacon_writes (W : List Block) (S : State) (p : Nat) (s : State) (w_emit : Block.emit ∈ W)
    (w_trunk : Block.trunk ∈ W) :
    OnlyWrites W S (passiveBeacon p s) ↔ OnlyWrites W S s := by
  unfold passiveBeacon; (repeat' split) <;> simp_all [w_emit, w_trunk]

@[simp] theorem passiveBeacons_writes (W : List Block) (S : State) (s : State) (w_emit : Block.emit ∈ W) (w_trunk : Block.trunk ∈ W) :
    OnlyWrites W S (passiveBeacons s) ↔ OnlyWrites W S s := by
  unfold passiveBeacons; simp [w_trunk, w_emit]

@[simp] theorem goPassive_writes (W : List Block) (S : State) (s : State) (w_emit : Block.emit ∈ W)
    (w_trunk : Block.trunk ∈ W) :
    OnlyWrites W S (goPassive s) ↔ OnlyWrites W S s := by
  unfold goPassive; simp [w_emit, w_trunk]

theorem execPassiveBeaconSend_writes (W : List Block) (S : State) (dt : Nat) (s : State) (w_now : Block.now ∈ W)
    (w_clk : Block.clk ∈ W) (w_emit : Block.emit ∈ W) (w_trunk : Block.trunk ∈ W) :
    ∃ u, execPassiveBeaconSend dt s = .next u ∧ (OnlyWrites W S u ↔ OnlyWrites W S s) := by
  unfold execPassiveBeaconSend; exact ⟨_, rfl, by simp [w_trunk, w_now, w_clk, w_emit]⟩

@[simp] theorem beaconSample_writes (W : List Block) (S : State) (p : Nat) (s : State) (w_now : Block.now ∈ W)
    (w_emit : Block.emit ∈ W) (w_cmd : Block.cmd ∈ W) (w_trunk : Block.trunk ∈ W) (w_ina : Block.ina ∈ W)
    (w_time : Block.time ∈ W) (w_flow : Block.flow ∈ W) (w_twin : Block.twin ∈ W) (w_vec : Block.vec ∈ W) :
    OnlyWrites W S (beaconSample p s) ↔ OnlyWrites W S s := by
  unfold beaconSample; simp [w_now, w_emit, w_cmd, w_trunk, w_ina, w_time, w_flow, w_twin, w_vec]

@[simp] theorem beaconSchedule_writes (W : List Block) (S : State) (p : Nat) (b : Beacon) (s : State)
    (w_emit : Block.emit ∈ W) (w_cmd : Block.cmd ∈ W) (w_trunk : Block.trunk ∈ W) (w_ina : Block.ina ∈ W)
    (w_flow : Block.flow ∈ W) (w_vec : Block.vec ∈ W) :
    OnlyWrites W S (beaconSchedule p b s) ↔ OnlyWrites W S s := by
  unfold beaconSchedule; simp [w_emit, w_cmd, w_trunk, w_ina, w_flow, w_vec]

@[simp] theorem beaconPassive_writes (W : List Block) (S : State) (p : Nat) (b : Beacon) (s : State)
    (w_emit : Block.emit ∈ W) (w_trunk : Block.trunk ∈ W) (w_ina : Block.ina ∈ W) (w_sched : Block.sched ∈ W) (w_flow : Block.flow ∈ W) :
    OnlyWrites W S (beaconPassive p b s) ↔ OnlyWrites W S s := by
  unfold beaconPassive; simp [w_flow, w_emit, w_trunk, w_ina, w_sched]

@[simp] theorem beaconMerge_writes (W : List Block) (S : State) (p : Nat) (b : Beacon) (s : State)
    (w_trunk : Block.trunk ∈ W) (w_ina : Block.ina ∈ W) (w_sched : Block.sched ∈ W) :
    OnlyWrites W S (beaconMerge p b s) ↔ OnlyWrites W S s := by
  unfold beaconMerge; simp [w_trunk, w_ina, w_sched]

@[simp] theorem beaconIn_writes (W : List Block) (S : State) (p : Nat) (b : Beacon) (tRx : Int) (s : State)
    (w_now : Block.now ∈ W) (w_emit : Block.emit ∈ W) (w_cmd : Block.cmd ∈ W) (w_trunk : Block.trunk ∈ W)
    (w_ina : Block.ina ∈ W) (w_sched : Block.sched ∈ W) (w_time : Block.time ∈ W) (w_flow : Block.flow ∈ W)
    (w_twin : Block.twin ∈ W) (w_vec : Block.vec ∈ W) (w_fab : Block.fab ∈ W) :
    OnlyWrites W S (beaconIn p b tRx s) ↔ OnlyWrites W S s := by
  unfold beaconIn; simp [w_fab, w_now, w_emit, w_cmd, w_trunk, w_ina, w_sched, w_time, w_flow, w_twin, w_vec]

theorem execLinkBeaconRx_writes (W : List Block) (S : State) (dt : Nat) (p : Fin 4) (b : Beacon) (tRx : Int) (s : State)
    (w_now : Block.now ∈ W) (w_clk : Block.clk ∈ W) (w_emit : Block.emit ∈ W) (w_cmd : Block.cmd ∈ W)
    (w_trunk : Block.trunk ∈ W) (w_ina : Block.ina ∈ W) (w_sched : Block.sched ∈ W) (w_time : Block.time ∈ W)
    (w_flow : Block.flow ∈ W) (w_twin : Block.twin ∈ W) (w_vec : Block.vec ∈ W) (w_fab : Block.fab ∈ W) :
    ∃ u, execLinkBeaconRx dt p b tRx s = .next u ∧ (OnlyWrites W S u ↔ OnlyWrites W S s) := by
  unfold execLinkBeaconRx; exact ⟨_, rfl, by simp [w_fab, w_now, w_clk, w_emit, w_cmd, w_trunk, w_ina, w_sched, w_time, w_flow, w_twin, w_vec]⟩

@[simp] theorem closeLineBroken_writes (W : List Block) (S : State) (line : Line) (s : State) (w_emit : Block.emit ∈ W)
    (w_cmd : Block.cmd ∈ W) (w_trunk : Block.trunk ∈ W) (w_ina : Block.ina ∈ W) (w_sched : Block.sched ∈ W)
    (w_flow : Block.flow ∈ W) (w_vec : Block.vec ∈ W) :
    OnlyWrites W S (closeLineBroken line s) ↔ OnlyWrites W S s := by
  unfold closeLineBroken; simp [w_emit, w_cmd, w_trunk, w_ina, w_sched, w_flow, w_vec]

@[simp] theorem emergencyClose_writes (W : List Block) (S : State) (s : State) (w_emit : Block.emit ∈ W)
    (w_cmd : Block.cmd ∈ W) (w_trunk : Block.trunk ∈ W) (w_ina : Block.ina ∈ W) (w_sched : Block.sched ∈ W)
    (w_flow : Block.flow ∈ W) (w_vec : Block.vec ∈ W) :
    OnlyWrites W S (emergencyClose s) ↔ OnlyWrites W S s := by
  unfold emergencyClose; simp [w_emit, w_cmd, w_trunk, w_ina, w_sched, w_flow, w_vec]

@[simp] theorem startSequence_writes (W : List Block) (S : State) (passive : Bool) (s : State) (w_emit : Block.emit ∈ W)
    (w_trunk : Block.trunk ∈ W) :
    OnlyWrites W S (startSequence passive s) ↔ OnlyWrites W S s := by
  unfold startSequence; simp [w_emit, w_trunk]

@[simp] theorem nextSequence_writes (W : List Block) (S : State) (passive : Bool) (s : State) (w_emit : Block.emit ∈ W)
    (w_trunk : Block.trunk ∈ W) :
    OnlyWrites W S (nextSequence passive s) ↔ OnlyWrites W S s := by
  unfold nextSequence; simp [w_emit, w_trunk]

@[simp] theorem finishSequence_writes (W : List Block) (S : State) (passive : Bool) (s : State)
    (w_emit : Block.emit ∈ W) (w_cmd : Block.cmd ∈ W) (w_trunk : Block.trunk ∈ W) (w_flow : Block.flow ∈ W)
    (w_vec : Block.vec ∈ W) :
    OnlyWrites W S (finishSequence passive s) ↔ OnlyWrites W S s := by
  unfold finishSequence; simp [w_emit, w_cmd, w_trunk, w_flow, w_vec]

theorem execBypassLineAClose_writes (W : List Block) (S : State) (dt : Nat) (s : State) (w_now : Block.now ∈ W)
    (w_clk : Block.clk ∈ W) (w_emit : Block.emit ∈ W) (w_cmd : Block.cmd ∈ W) (w_trunk : Block.trunk ∈ W)
    (w_ina : Block.ina ∈ W) (w_sched : Block.sched ∈ W) (w_flow : Block.flow ∈ W) (w_vec : Block.vec ∈ W) :
    ∃ u, execBypassLineAClose dt s = .next u ∧ (OnlyWrites W S u ↔ OnlyWrites W S s) := by
  unfold execBypassLineAClose; exact ⟨_, rfl, by (repeat' split) <;> simp [w_now, w_clk, w_emit, w_cmd, w_trunk, w_ina, w_sched, w_flow, w_vec]⟩

theorem execBypassLineBClose_writes (W : List Block) (S : State) (dt : Nat) (s : State) (w_now : Block.now ∈ W)
    (w_clk : Block.clk ∈ W) (w_emit : Block.emit ∈ W) (w_cmd : Block.cmd ∈ W) (w_trunk : Block.trunk ∈ W)
    (w_ina : Block.ina ∈ W) (w_sched : Block.sched ∈ W) (w_flow : Block.flow ∈ W) (w_vec : Block.vec ∈ W) :
    ∃ u, execBypassLineBClose dt s = .next u ∧ (OnlyWrites W S u ↔ OnlyWrites W S s) := by
  unfold execBypassLineBClose; exact ⟨_, rfl, by (repeat' split) <;> simp [w_now, w_clk, w_emit, w_cmd, w_trunk, w_ina, w_sched, w_flow, w_vec]⟩

theorem execBypassLineAOpen_writes (W : List Block) (S : State) (dt : Nat) (s : State) (w_now : Block.now ∈ W)
    (w_clk : Block.clk ∈ W) (w_emit : Block.emit ∈ W) (w_trunk : Block.trunk ∈ W) :
    ∃ u, execBypassLineAOpen dt s = .next u ∧ (OnlyWrites W S u ↔ OnlyWrites W S s) := by
  unfold execBypassLineAOpen; exact ⟨_, rfl, by (repeat' split) <;> simp [w_now, w_clk, w_emit, w_trunk]⟩

theorem execBypassLineBOpen_writes (W : List Block) (S : State) (dt : Nat) (s : State) (w_now : Block.now ∈ W)
    (w_clk : Block.clk ∈ W) (w_emit : Block.emit ∈ W) (w_cmd : Block.cmd ∈ W) (w_trunk : Block.trunk ∈ W)
    (w_flow : Block.flow ∈ W) (w_vec : Block.vec ∈ W) :
    ∃ u, execBypassLineBOpen dt s = .next u ∧ (OnlyWrites W S u ↔ OnlyWrites W S s) := by
  unfold execBypassLineBOpen; exact ⟨_, rfl, by (repeat' split) <;> simp [w_now, w_clk, w_emit, w_cmd, w_trunk, w_flow, w_vec]⟩

theorem execBypassSenseCheck_writes (W : List Block) (S : State) (dt : Nat) (line : Line) (closed : Bool) (s : State)
    (w_now : Block.now ∈ W) (w_clk : Block.clk ∈ W) (w_emit : Block.emit ∈ W) (w_cmd : Block.cmd ∈ W)
    (w_trunk : Block.trunk ∈ W) (w_flow : Block.flow ∈ W) (w_vec : Block.vec ∈ W) :
    ∃ u, execBypassSenseCheck dt line closed s = .next u ∧ (OnlyWrites W S u ↔ OnlyWrites W S s) := by
  unfold execBypassSenseCheck; exact ⟨_, rfl, by simp [w_now, w_clk, w_emit, w_cmd, w_trunk, w_flow, w_vec]⟩

@[simp] theorem ttTake_writes (W : List Block) (S : State) (t : Ttdp) (s : State) (w_ina : Block.ina ∈ W) :
    OnlyWrites W S (ttTake t s) ↔ OnlyWrites W S s := by
  unfold ttTake; simp [w_ina]

@[simp] theorem transitEmit_writes (W : List Block) (S : State) (q : Nat) (x : TransitItem) (s : State)
    (w_emit : Block.emit ∈ W) (w_trunk : Block.trunk ∈ W) :
    OnlyWrites W S (transitEmit q x s) ↔ OnlyWrites W S s := by
  unfold transitEmit; simp [w_trunk, w_emit]

@[simp] theorem transitOut_writes (W : List Block) (S : State) (q : Nat) (x : TransitItem) (s : State)
    (w_emit : Block.emit ∈ W) (w_trunk : Block.trunk ∈ W) :
    OnlyWrites W S (transitOut q x s) ↔ OnlyWrites W S s := by
  unfold transitOut; simp [w_emit, w_trunk]

@[simp] theorem forwardLen_writes (W : List Block) (S : State) (p : Nat) (f : OutFrame) (len : Nat) (s : State)
    (w_emit : Block.emit ∈ W) (w_trunk : Block.trunk ∈ W) :
    OnlyWrites W S (forwardLen p f len s) ↔ OnlyWrites W S s := by
  unfold forwardLen; simp [w_emit, w_trunk]

@[simp] theorem ttLearn_writes (W : List Block) (S : State) (d : Nat) (t : Ttdp) (s : State) (w_now : Block.now ∈ W)
    (w_emit : Block.emit ∈ W) (w_cmd : Block.cmd ∈ W) (w_trunk : Block.trunk ∈ W) (w_ina : Block.ina ∈ W)
    (w_time : Block.time ∈ W) (w_flow : Block.flow ∈ W) (w_twin : Block.twin ∈ W) (w_vec : Block.vec ∈ W) :
    OnlyWrites W S (ttLearn d t s) ↔ OnlyWrites W S s := by
  unfold ttLearn; dsimp only; (repeat' split) <;> simp_all [w_now, w_emit, w_cmd, w_trunk, w_ina, w_time, w_flow, w_twin, w_vec]

@[simp] theorem ttdpIn_writes (W : List Block) (S : State) (p : Nat) (t : Ttdp) (s : State) (w_now : Block.now ∈ W)
    (w_emit : Block.emit ∈ W) (w_cmd : Block.cmd ∈ W) (w_trunk : Block.trunk ∈ W) (w_ina : Block.ina ∈ W)
    (w_time : Block.time ∈ W) (w_flow : Block.flow ∈ W) (w_twin : Block.twin ∈ W) (w_vec : Block.vec ∈ W) (w_sched : Block.sched ∈ W) (w_fab : Block.fab ∈ W) :
    OnlyWrites W S (ttdpIn p t s) ↔ OnlyWrites W S s := by
  unfold ttdpIn; simp [w_sched, w_fab, w_now, w_emit, w_cmd, w_trunk, w_ina, w_time, w_flow, w_twin, w_vec]

theorem execTtdpFrameRx_writes (W : List Block) (S : State) (dt : Nat) (p : Fin 4) (t : Ttdp) (s : State)
    (w_now : Block.now ∈ W) (w_clk : Block.clk ∈ W) (w_emit : Block.emit ∈ W) (w_cmd : Block.cmd ∈ W)
    (w_trunk : Block.trunk ∈ W) (w_ina : Block.ina ∈ W) (w_time : Block.time ∈ W) (w_flow : Block.flow ∈ W)
    (w_twin : Block.twin ∈ W) (w_vec : Block.vec ∈ W) (w_sched : Block.sched ∈ W) (w_fab : Block.fab ∈ W) :
    ∃ u, execTtdpFrameRx dt p t s = .next u ∧ (OnlyWrites W S u ↔ OnlyWrites W S s) := by
  unfold execTtdpFrameRx; exact ⟨_, rfl, by simp [w_sched, w_fab, w_now, w_clk, w_emit, w_cmd, w_trunk, w_ina, w_time, w_flow, w_twin, w_vec]⟩

@[simp] theorem domainSend_writes (W : List Block) (S : State) (ps : List Nat) (domain : BitVec 7) (x : Int)
    (s : State) (w_trunk : Block.trunk ∈ W) (w_sched : Block.sched ∈ W) :
    OnlyWrites W S (domainSend ps domain x s) ↔ OnlyWrites W S s := by
  unfold domainSend; (repeat' split) <;> simp_all [w_trunk, w_sched]

@[simp] theorem domainSyncIn_writes (W : List Block) (S : State) (p : Nat) (domain : BitVec 7) (origin tRx : Int)
    (s : State) (w_now : Block.now ∈ W) (w_emit : Block.emit ∈ W) (w_cmd : Block.cmd ∈ W) (w_trunk : Block.trunk ∈ W)
    (w_ina : Block.ina ∈ W) (w_time : Block.time ∈ W) (w_flow : Block.flow ∈ W) (w_twin : Block.twin ∈ W)
    (w_vec : Block.vec ∈ W) (w_sched : Block.sched ∈ W) :
    OnlyWrites W S (domainSyncIn p domain origin tRx s) ↔ OnlyWrites W S s := by
  unfold domainSyncIn; simp [w_sched, w_now, w_emit, w_cmd, w_trunk, w_ina, w_time, w_flow, w_twin, w_vec]

theorem execTrunkDomainSyncRx_writes (W : List Block) (S : State) (dt : Nat) (p : Fin 4) (domain : BitVec 7)
    (origin : Int) (tRx : Int) (s : State) (w_now : Block.now ∈ W) (w_clk : Block.clk ∈ W) (w_emit : Block.emit ∈ W)
    (w_cmd : Block.cmd ∈ W) (w_trunk : Block.trunk ∈ W) (w_ina : Block.ina ∈ W) (w_time : Block.time ∈ W)
    (w_flow : Block.flow ∈ W) (w_twin : Block.twin ∈ W) (w_vec : Block.vec ∈ W) (w_sched : Block.sched ∈ W) :
    ∃ u, execTrunkDomainSyncRx dt p domain origin tRx s = .next u ∧ (OnlyWrites W S u ↔ OnlyWrites W S s) := by
  unfold execTrunkDomainSyncRx; exact ⟨_, rfl, by simp [w_sched, w_now, w_clk, w_emit, w_cmd, w_trunk, w_ina, w_time, w_flow, w_twin, w_vec]⟩

@[simp] theorem wtbPortUp_writes (W : List Block) (S : State) (p : Nat) (s : State) (w_emit : Block.emit ∈ W)
    (w_cmd : Block.cmd ∈ W) (w_trunk : Block.trunk ∈ W) (w_ina : Block.ina ∈ W) (w_flow : Block.flow ∈ W)
    (w_vec : Block.vec ∈ W) :
    OnlyWrites W S (wtbPortUp p s) ↔ OnlyWrites W S s := by
  unfold wtbPortUp; dsimp only; (repeat' split) <;> simp [w_emit, w_cmd, w_trunk, w_ina, w_flow, w_vec]

@[simp] theorem wtbTap_writes (W : List Block) (S : State) (s : State) (w_emit : Block.emit ∈ W) (w_cmd : Block.cmd ∈ W)
    (w_trunk : Block.trunk ∈ W) (w_flow : Block.flow ∈ W) (w_vec : Block.vec ∈ W) :
    OnlyWrites W S (wtbTap s) ↔ OnlyWrites W S s := by
  unfold wtbTap; simp [w_emit, w_cmd, w_trunk, w_flow, w_vec]

@[simp] theorem wtbEndPorts_writes (W : List Block) (S : State) (d : Nat) (s : State) (w_emit : Block.emit ∈ W)
    (w_cmd : Block.cmd ∈ W) (w_trunk : Block.trunk ∈ W) (w_ina : Block.ina ∈ W) (w_flow : Block.flow ∈ W)
    (w_vec : Block.vec ∈ W) :
    OnlyWrites W S (wtbEndPorts d s) ↔ OnlyWrites W S s := by
  unfold wtbEndPorts; simp [w_emit, w_cmd, w_trunk, w_ina, w_flow, w_vec]

@[simp] theorem wtbPorts_writes (W : List Block) (S : State) (d : Fin 2) (master : Bool) (s : State)
    (w_emit : Block.emit ∈ W) (w_cmd : Block.cmd ∈ W) (w_trunk : Block.trunk ∈ W) (w_ina : Block.ina ∈ W)
    (w_flow : Block.flow ∈ W) (w_vec : Block.vec ∈ W) :
    OnlyWrites W S (wtbPorts d master s) ↔ OnlyWrites W S s := by
  unfold wtbPorts; simp [w_emit, w_cmd, w_trunk, w_ina, w_flow, w_vec]

@[simp] theorem islandPut_writes (W : List Block) (S : State) (u : BitVec 64) (d : Fin 2) (addrs : List Byte)
    (interior : Bool) (s : State) (w_ina : Block.ina ∈ W) :
    OnlyWrites W S (islandPut u d addrs interior s) ↔ OnlyWrites W S s := by
  unfold islandPut; simp [w_ina]

@[simp] theorem islandDone_writes (W : List Block) (S : State) (d : Fin 2) (addrs : List Byte) (interior master : Bool)
    (s : State) (w_emit : Block.emit ∈ W) (w_cmd : Block.cmd ∈ W) (w_trunk : Block.trunk ∈ W) (w_ina : Block.ina ∈ W)
    (w_sched : Block.sched ∈ W) (w_flow : Block.flow ∈ W) (w_vec : Block.vec ∈ W) :
    OnlyWrites W S (islandDone d addrs interior master s) ↔ OnlyWrites W S s := by
  unfold islandDone; simp [w_emit, w_cmd, w_trunk, w_ina, w_sched, w_flow, w_vec]

@[simp] theorem islandReported_writes (W : List Block) (S : State) (u : BitVec 64) (d : Fin 2) (addrs : List Byte)
    (interior : Bool) (s : State) (w_ina : Block.ina ∈ W) :
    OnlyWrites W S (islandReported u d addrs interior s) ↔ OnlyWrites W S s := by
  unfold islandReported; simp [w_ina]

theorem execIslandInaugurationComplete_writes (W : List Block) (S : State) (dt : Nat) (dir : Fin 2)
    (wtbAddrs : List Byte) (interior master : Bool) (reporter : Option (BitVec 64)) (s : State) (w_now : Block.now ∈ W)
    (w_clk : Block.clk ∈ W) (w_emit : Block.emit ∈ W) (w_cmd : Block.cmd ∈ W) (w_trunk : Block.trunk ∈ W)
    (w_ina : Block.ina ∈ W) (w_sched : Block.sched ∈ W) (w_flow : Block.flow ∈ W) (w_vec : Block.vec ∈ W) :
    ∃ u, execIslandInaugurationComplete dt dir wtbAddrs interior master reporter s = .next u ∧ (OnlyWrites W S u ↔ OnlyWrites W S s) := by
  unfold execIslandInaugurationComplete; exact ⟨_, rfl, by (repeat' split) <;> simp [w_now, w_clk, w_emit, w_cmd, w_trunk, w_ina, w_sched, w_flow, w_vec]⟩

@[simp] theorem trunkSetPolicyBody_writes (W : List Block) (S : State) (r : Ring) (s : State) (w_emit : Block.emit ∈ W)
    (w_cmd : Block.cmd ∈ W) (w_trunk : Block.trunk ∈ W) (w_flow : Block.flow ∈ W) (w_vec : Block.vec ∈ W) :
    OnlyWrites W S (trunkSetPolicyBody r s).2 ↔ OnlyWrites W S s := by
  unfold trunkSetPolicyBody; simp [w_emit, w_cmd, w_trunk, w_flow, w_vec]

@[simp] theorem trunkStatusBody_writes (W : List Block) (S : State) (r : Ring) (s : State) (w_trunk : Block.trunk ∈ W) :
    OnlyWrites W S (trunkStatusBody r s).2 ↔ OnlyWrites W S s := by
  unfold trunkStatusBody; simp [w_trunk]

@[simp] theorem trunkBypassBody_writes (W : List Block) (S : State) (r : Ring) (s : State) (w_emit : Block.emit ∈ W)
    (w_trunk : Block.trunk ∈ W) :
    OnlyWrites W S (trunkBypassBody r s).2 ↔ OnlyWrites W S s := by
  unfold trunkBypassBody; (repeat' split) <;> simp [w_emit, w_trunk]

@[simp] theorem trunkRetrainBody_writes (W : List Block) (S : State) (r : Ring) (s : State) (w_emit : Block.emit ∈ W)
    (w_cmd : Block.cmd ∈ W) (w_trunk : Block.trunk ∈ W) (w_flow : Block.flow ∈ W) (w_vec : Block.vec ∈ W) :
    OnlyWrites W S (trunkRetrainBody r s).2 ↔ OnlyWrites W S s := by
  unfold trunkRetrainBody; simp [w_emit, w_cmd, w_trunk, w_flow, w_vec]

theorem execTrunkSetPolicy_writes (W : List Block) (S : State) (dt : Nat) (r : Ring) (s : State) (w_now : Block.now ∈ W)
    (w_clk : Block.clk ∈ W) (w_free : Block.free ∈ W) (w_emit : Block.emit ∈ W) (w_sys : Block.sys ∈ W)
    (w_mbx : Block.mbx ∈ W) (w_cmd : Block.cmd ∈ W) (w_trunk : Block.trunk ∈ W) (w_flow : Block.flow ∈ W)
    (w_vec : Block.vec ∈ W) (w_shelf : Block.shelf ∈ W) :
    ∃ u, execTrunkSetPolicy dt r s = .next u ∧ (OnlyWrites W S u ↔ OnlyWrites W S s) := by
  unfold execTrunkSetPolicy; exact ⟨_, rfl, by simp [w_now, w_clk, w_free, w_emit, w_sys, w_mbx, w_cmd, w_trunk, w_flow, w_vec, w_shelf]⟩

theorem execTrunkStatus_writes (W : List Block) (S : State) (dt : Nat) (r : Ring) (s : State) (w_now : Block.now ∈ W)
    (w_clk : Block.clk ∈ W) (w_free : Block.free ∈ W) (w_emit : Block.emit ∈ W) (w_sys : Block.sys ∈ W)
    (w_mbx : Block.mbx ∈ W) (w_cmd : Block.cmd ∈ W) (w_trunk : Block.trunk ∈ W) (w_vec : Block.vec ∈ W)
    (w_shelf : Block.shelf ∈ W) :
    ∃ u, execTrunkStatus dt r s = .next u ∧ (OnlyWrites W S u ↔ OnlyWrites W S s) := by
  unfold execTrunkStatus; exact ⟨_, rfl, by simp [w_now, w_clk, w_free, w_emit, w_sys, w_mbx, w_cmd, w_trunk, w_vec, w_shelf]⟩

theorem execTrunkBypassPassive_writes (W : List Block) (S : State) (dt : Nat) (r : Ring) (s : State)
    (w_now : Block.now ∈ W) (w_clk : Block.clk ∈ W) (w_free : Block.free ∈ W) (w_emit : Block.emit ∈ W)
    (w_sys : Block.sys ∈ W) (w_mbx : Block.mbx ∈ W) (w_cmd : Block.cmd ∈ W) (w_trunk : Block.trunk ∈ W)
    (w_vec : Block.vec ∈ W) (w_shelf : Block.shelf ∈ W) :
    ∃ u, execTrunkBypassPassive dt r s = .next u ∧ (OnlyWrites W S u ↔ OnlyWrites W S s) := by
  unfold execTrunkBypassPassive; exact ⟨_, rfl, by simp [w_now, w_clk, w_free, w_emit, w_sys, w_mbx, w_cmd, w_trunk, w_vec, w_shelf]⟩

theorem execTrunkBypassActive_writes (W : List Block) (S : State) (dt : Nat) (r : Ring) (s : State)
    (w_now : Block.now ∈ W) (w_clk : Block.clk ∈ W) (w_free : Block.free ∈ W) (w_emit : Block.emit ∈ W)
    (w_sys : Block.sys ∈ W) (w_mbx : Block.mbx ∈ W) (w_cmd : Block.cmd ∈ W) (w_trunk : Block.trunk ∈ W)
    (w_vec : Block.vec ∈ W) (w_shelf : Block.shelf ∈ W) :
    ∃ u, execTrunkBypassActive dt r s = .next u ∧ (OnlyWrites W S u ↔ OnlyWrites W S s) := by
  unfold execTrunkBypassActive; exact ⟨_, rfl, by simp [w_now, w_clk, w_free, w_emit, w_sys, w_mbx, w_cmd, w_trunk, w_vec, w_shelf]⟩

theorem execTrunkRetrain_writes (W : List Block) (S : State) (dt : Nat) (r : Ring) (s : State) (w_now : Block.now ∈ W)
    (w_clk : Block.clk ∈ W) (w_free : Block.free ∈ W) (w_emit : Block.emit ∈ W) (w_sys : Block.sys ∈ W)
    (w_mbx : Block.mbx ∈ W) (w_cmd : Block.cmd ∈ W) (w_trunk : Block.trunk ∈ W) (w_flow : Block.flow ∈ W)
    (w_vec : Block.vec ∈ W) (w_shelf : Block.shelf ∈ W) :
    ∃ u, execTrunkRetrain dt r s = .next u ∧ (OnlyWrites W S u ↔ OnlyWrites W S s) := by
  unfold execTrunkRetrain; exact ⟨_, rfl, by simp [w_now, w_clk, w_free, w_emit, w_sys, w_mbx, w_cmd, w_trunk, w_flow, w_vec, w_shelf]⟩

@[simp] theorem forwardAtOnce_writes (W : List Block) (S : State) (p : Nat) (f : OutFrame) (len : Nat) (s : State)
    (w_emit : Block.emit ∈ W) (w_trunk : Block.trunk ∈ W) :
    OnlyWrites W S (forwardAtOnce p f len s) ↔ OnlyWrites W S s := by
  unfold forwardAtOnce; (repeat' split) <;> simp_all [w_emit, w_trunk]

@[simp] theorem forwardFrame_writes (W : List Block) (S : State) (p : Nat) (f : OutFrame) (s : State)
    (w_emit : Block.emit ∈ W) (w_trunk : Block.trunk ∈ W) :
    OnlyWrites W S (forwardFrame p f s) ↔ OnlyWrites W S s := by
  unfold forwardFrame; simp [w_emit, w_trunk]

@[simp] theorem creditDefer_writes (W : List Block) (S : State) (p q : Nat) (s : State) (w_trunk : Block.trunk ∈ W)
    (w_sched : Block.sched ∈ W) :
    OnlyWrites W S (creditDefer p q s) ↔ OnlyWrites W S s := by
  unfold creditDefer; dsimp only; (repeat' split) <;> simp_all [w_trunk, w_sched]

@[simp] theorem startQueued_writes (W : List Block) (S : State) (p q : Nat) (f : QFrame) (s : State)
    (w_emit : Block.emit ∈ W) (w_trunk : Block.trunk ∈ W) (w_flow : Block.flow ∈ W) :
    OnlyWrites W S (startQueued p q f s) ↔ OnlyWrites W S s := by
  unfold startQueued; simp [w_flow, w_emit, w_trunk]

@[simp] theorem boundaryQueues_writes (W : List Block) (S : State) (p : Nat) (s : State) (w_trunk : Block.trunk ∈ W) :
    OnlyWrites W S (boundaryQueues p s) ↔ OnlyWrites W S s := by
  unfold boundaryQueues; simp [w_trunk]

@[simp] theorem classDefers_writes (W : List Block) (S : State) (p q : Nat) (qs : List Nat) (s : State)
    (w_trunk : Block.trunk ∈ W) (w_sched : Block.sched ∈ W) :
    OnlyWrites W S (classDefers p q qs s) ↔ OnlyWrites W S s := by
  unfold classDefers; (repeat' split) <;> simp_all [w_trunk, w_sched]

@[simp] theorem nextQueued_writes (W : List Block) (S : State) (p : Nat) (l : List Nat) (s : State)
    (w_emit : Block.emit ∈ W) (w_trunk : Block.trunk ∈ W) (w_sched : Block.sched ∈ W) (w_flow : Block.flow ∈ W) :
    OnlyWrites W S (nextQueued p l s) ↔ OnlyWrites W S s := by
  induction l generalizing s with
  | nil => simp [w_flow, w_emit, w_trunk, w_sched, nextQueued]
  | cons q qs ih => unfold nextQueued; (repeat' split) <;> simp [w_flow, w_emit, w_trunk, w_sched, ih]

@[simp] theorem nonScheduled_writes (W : List Block) (S : State) (p : Nat) (transitBusy : Bool) (s : State)
    (w_emit : Block.emit ∈ W) (w_trunk : Block.trunk ∈ W) (w_sched : Block.sched ∈ W) (w_flow : Block.flow ∈ W) :
    OnlyWrites W S (nonScheduled p transitBusy s) ↔ OnlyWrites W S s := by
  unfold nonScheduled; dsimp only; (repeat' split) <;> simp [w_flow, w_emit, w_trunk, w_sched]

@[simp] theorem slewTurn_writes (W : List Block) (S : State) (s : State) (w_now : Block.now ∈ W)
    (w_time : Block.time ∈ W) :
    OnlyWrites W S (slewTurn s) ↔ OnlyWrites W S s := by
  unfold slewTurn; (repeat' split) <;> simp_all [w_now, w_time]

@[simp] theorem mergeLost_writes (W : List Block) (S : State) (p : Prepared) (s : State) (w_ina : Block.ina ∈ W) :
    OnlyWrites W S (mergeLost p s) ↔ OnlyWrites W S s := by
  unfold mergeLost; (repeat' split) <;> simp_all [w_ina]

@[simp] theorem ttClean_writes (W : List Block) (S : State) (d : Nat) (s : State) (w_emit : Block.emit ∈ W)
    (w_trunk : Block.trunk ∈ W) (w_ina : Block.ina ∈ W) (w_sched : Block.sched ∈ W) (w_fab : Block.fab ∈ W) :
    OnlyWrites W S (ttClean d s) ↔ OnlyWrites W S s := by
  unfold ttClean; dsimp only; (repeat' split) <;> simp_all [w_emit, w_trunk, w_ina, w_sched, w_fab]

@[simp] theorem ttDiscover_writes (W : List Block) (S : State) (s : State) (w_emit : Block.emit ∈ W)
    (w_trunk : Block.trunk ∈ W) (w_sched : Block.sched ∈ W) :
    OnlyWrites W S (ttDiscover s) ↔ OnlyWrites W S s := by
  unfold ttDiscover; (repeat' split) <;> simp_all [w_emit, w_trunk, w_sched]

end Sys2Proof.Machine
end

