-- ==== Sys2Proof/Laws/WritesFlow.lean ====
section
/-! SUPPORT. Flows, sessions and the twin: which parts of a state they may write. -/

namespace Sys2Proof.Machine

@[simp] theorem modLine_writes (W : List Block) (S : State) (l : Line) (f : LinePath → LinePath) (s : State)
    (w_sched : Block.sched ∈ W) :
    OnlyWrites W S (modLine l f s) ↔ OnlyWrites W S s := by
  unfold modLine; (repeat' split) <;> simp [w_sched]

@[simp] theorem enterHeld_writes (W : List Block) (S : State) (s : State) (w_emit : Block.emit ∈ W)
    (w_cmd : Block.cmd ∈ W) (w_ina : Block.ina ∈ W) (w_sched : Block.sched ∈ W) (w_flow : Block.flow ∈ W)
    (w_vec : Block.vec ∈ W) :
    OnlyWrites W S (enterHeld s) ↔ OnlyWrites W S s := by
  unfold enterHeld; (repeat' split) <;> simp [w_emit, w_cmd, w_ina, w_sched, w_flow, w_vec]

@[simp] theorem leaveHeld_writes (W : List Block) (S : State) (s : State) (w_ina : Block.ina ∈ W)
    (w_sched : Block.sched ∈ W) :
    OnlyWrites W S (leaveHeld s) ↔ OnlyWrites W S s := by
  unfold leaveHeld; simp [w_ina, w_sched]

@[simp] theorem followHeld_writes (W : List Block) (S : State) (f : OpeningFrame) (s : State) (w_emit : Block.emit ∈ W)
    (w_cmd : Block.cmd ∈ W) (w_ina : Block.ina ∈ W) (w_sched : Block.sched ∈ W) (w_flow : Block.flow ∈ W)
    (w_vec : Block.vec ∈ W) :
    OnlyWrites W S (followHeld f s) ↔ OnlyWrites W S s := by
  unfold followHeld; simp [w_emit, w_cmd, w_ina, w_sched, w_flow, w_vec]

@[simp] theorem runImage_writes (W : List Block) (S : State) (im : Image) (s : State) (w_sched : Block.sched ∈ W) :
    OnlyWrites W S (runImage im s) ↔ OnlyWrites W S s := by
  unfold runImage; simp [w_sched]

@[simp] theorem macroChange_writes (W : List Block) (S : State) (s : State) (w_emit : Block.emit ∈ W)
    (w_cmd : Block.cmd ∈ W) (w_flow : Block.flow ∈ W) (w_can : Block.can ∈ W) (w_swc : Block.swc ∈ W)
    (w_vec : Block.vec ∈ W) :
    OnlyWrites W S (macroChange s) ↔ OnlyWrites W S s := by
  unfold macroChange; simp [w_emit, w_cmd, w_flow, w_can, w_swc, w_vec]

@[simp] theorem setLine_writes (W : List Block) (S : State) (b : Bool) (s : State) (w_now : Block.now ∈ W)
    (w_time : Block.time ∈ W) :
    OnlyWrites W S (setLine b s) ↔ OnlyWrites W S s := by
  unfold setLine; simp [w_now, w_time]

@[simp] theorem sampleA_writes (W : List Block) (S : State) (theta : Int) (hops : Nat) (s : State)
    (w_now : Block.now ∈ W) (w_emit : Block.emit ∈ W) (w_cmd : Block.cmd ∈ W) (w_trunk : Block.trunk ∈ W)
    (w_ina : Block.ina ∈ W) (w_time : Block.time ∈ W) (w_flow : Block.flow ∈ W) (w_twin : Block.twin ∈ W)
    (w_vec : Block.vec ∈ W) :
    OnlyWrites W S (sampleA theta hops s) ↔ OnlyWrites W S s := by
  unfold sampleA; simp [w_now, w_emit, w_cmd, w_trunk, w_ina, w_time, w_flow, w_twin, w_vec]

@[simp] theorem sampleB_writes (W : List Block) (S : State) (theta : Int) (hops : Nat) (s : State)
    (w_now : Block.now ∈ W) (w_emit : Block.emit ∈ W) (w_cmd : Block.cmd ∈ W) (w_trunk : Block.trunk ∈ W)
    (w_ina : Block.ina ∈ W) (w_time : Block.time ∈ W) (w_flow : Block.flow ∈ W) (w_twin : Block.twin ∈ W)
    (w_vec : Block.vec ∈ W) :
    OnlyWrites W S (sampleB theta hops s) ↔ OnlyWrites W S s := by
  unfold sampleB; simp [w_now, w_emit, w_cmd, w_trunk, w_ina, w_time, w_flow, w_twin, w_vec]

@[simp] theorem openingSample_writes (W : List Block) (S : State) (p : Nat) (f : OpeningFrame) (tPin : Int) (s : State)
    (w_now : Block.now ∈ W) (w_emit : Block.emit ∈ W) (w_cmd : Block.cmd ∈ W) (w_trunk : Block.trunk ∈ W)
    (w_ina : Block.ina ∈ W) (w_time : Block.time ∈ W) (w_flow : Block.flow ∈ W) (w_twin : Block.twin ∈ W)
    (w_vec : Block.vec ∈ W) :
    OnlyWrites W S (openingSample p f tPin s) ↔ OnlyWrites W S s := by
  unfold openingSample; simp [w_now, w_emit, w_cmd, w_trunk, w_ina, w_time, w_flow, w_twin, w_vec]

@[simp] theorem followInaug_writes (W : List Block) (S : State) (f : OpeningFrame) (s : State) (w_ina : Block.ina ∈ W) :
    OnlyWrites W S (followInaug f s) ↔ OnlyWrites W S s := by
  unfold followInaug; (repeat' split) <;> simp [w_ina]

@[simp] theorem openingLine_writes (W : List Block) (S : State) (im : Image) (p : Nat) (f : OpeningFrame) (s : State)
    (w_sched : Block.sched ∈ W) :
    OnlyWrites W S (openingLine im p f s) ↔ OnlyWrites W S s := by
  unfold openingLine; simp [w_sched]

@[simp] theorem openingFirst_writes (W : List Block) (S : State) (im : Image) (f : OpeningFrame) (s : State)
    (w_emit : Block.emit ∈ W) (w_cmd : Block.cmd ∈ W) (w_ina : Block.ina ∈ W) (w_sched : Block.sched ∈ W)
    (w_flow : Block.flow ∈ W) (w_vec : Block.vec ∈ W) :
    OnlyWrites W S (openingFirst im f s) ↔ OnlyWrites W S s := by
  unfold openingFirst; simp [w_emit, w_cmd, w_ina, w_sched, w_flow, w_vec]

@[simp] theorem openingValid_writes (W : List Block) (S : State) (im : Image) (p : Nat) (f : OpeningFrame) (tPin : Int)
    (s : State) (w_now : Block.now ∈ W) (w_emit : Block.emit ∈ W) (w_cmd : Block.cmd ∈ W) (w_trunk : Block.trunk ∈ W)
    (w_ina : Block.ina ∈ W) (w_sched : Block.sched ∈ W) (w_time : Block.time ∈ W) (w_flow : Block.flow ∈ W)
    (w_twin : Block.twin ∈ W) (w_vec : Block.vec ∈ W) :
    OnlyWrites W S (openingValid im p f tPin s) ↔ OnlyWrites W S s := by
  unfold openingValid; dsimp only; (repeat' split) <;> simp [w_now, w_emit, w_cmd, w_trunk, w_ina, w_sched, w_time, w_flow, w_twin, w_vec]

@[simp] theorem openingFailed_writes (W : List Block) (S : State) (why p : Nat) (s : State) (w_now : Block.now ∈ W)
    (w_emit : Block.emit ∈ W) (w_cmd : Block.cmd ∈ W) (w_trunk : Block.trunk ∈ W) (w_ina : Block.ina ∈ W)
    (w_sched : Block.sched ∈ W) (w_time : Block.time ∈ W) (w_flow : Block.flow ∈ W) (w_twin : Block.twin ∈ W)
    (w_vec : Block.vec ∈ W) :
    OnlyWrites W S (openingFailed why p s) ↔ OnlyWrites W S s := by
  unfold openingFailed; simp [w_now, w_emit, w_cmd, w_trunk, w_ina, w_sched, w_time, w_flow, w_twin, w_vec]

@[simp] theorem openingContend_writes (W : List Block) (S : State) (f : OpeningFrame) (s : State)
    (w_now : Block.now ∈ W) (w_emit : Block.emit ∈ W) (w_cmd : Block.cmd ∈ W) (w_trunk : Block.trunk ∈ W)
    (w_ina : Block.ina ∈ W) (w_time : Block.time ∈ W) (w_flow : Block.flow ∈ W) (w_twin : Block.twin ∈ W)
    (w_vec : Block.vec ∈ W) :
    OnlyWrites W S (openingContend f s) ↔ OnlyWrites W S s := by
  unfold openingContend; simp [w_now, w_emit, w_cmd, w_trunk, w_ina, w_time, w_flow, w_twin, w_vec]

@[simp] theorem openingEffect_writes (W : List Block) (S : State) (p : Nat) (f : OpeningFrame) (tPin : Int) (s : State)
    (w_now : Block.now ∈ W) (w_emit : Block.emit ∈ W) (w_cmd : Block.cmd ∈ W) (w_trunk : Block.trunk ∈ W)
    (w_ina : Block.ina ∈ W) (w_sched : Block.sched ∈ W) (w_time : Block.time ∈ W) (w_flow : Block.flow ∈ W)
    (w_twin : Block.twin ∈ W) (w_vec : Block.vec ∈ W) :
    OnlyWrites W S (openingEffect p f tPin s) ↔ OnlyWrites W S s := by
  unfold openingEffect; dsimp only; (repeat' split) <;> simp [w_now, w_emit, w_cmd, w_trunk, w_ina, w_sched, w_time, w_flow, w_twin, w_vec]

@[simp] theorem frameError_writes (W : List Block) (S : State) (p : Nat) (fin : FrameEnd) (s : State)
    (w_trunk : Block.trunk ∈ W) :
    OnlyWrites W S (frameError p fin s) ↔ OnlyWrites W S s := by
  unfold frameError; (repeat' split) <;> simp_all [w_trunk]

@[simp] theorem openingIn_writes (W : List Block) (S : State) (p : Nat) (f : OpeningFrame) (tRx : Int) (fin : FrameEnd)
    (s : State) (w_now : Block.now ∈ W) (w_emit : Block.emit ∈ W) (w_cmd : Block.cmd ∈ W) (w_trunk : Block.trunk ∈ W)
    (w_ina : Block.ina ∈ W) (w_sched : Block.sched ∈ W) (w_time : Block.time ∈ W) (w_flow : Block.flow ∈ W)
    (w_twin : Block.twin ∈ W) (w_vec : Block.vec ∈ W) :
    OnlyWrites W S (openingIn p f tRx fin s) ↔ OnlyWrites W S s := by
  unfold openingIn; (repeat' split) <;> simp [w_now, w_emit, w_cmd, w_trunk, w_ina, w_sched, w_time, w_flow, w_twin, w_vec]

theorem execOpeningFrameRx_writes (W : List Block) (S : State) (dt : Nat) (p : Fin 4) (f : OpeningFrame) (tRx : Int)
    (fin : FrameEnd) (s : State) (w_now : Block.now ∈ W) (w_clk : Block.clk ∈ W) (w_emit : Block.emit ∈ W)
    (w_cmd : Block.cmd ∈ W) (w_trunk : Block.trunk ∈ W) (w_ina : Block.ina ∈ W) (w_sched : Block.sched ∈ W)
    (w_time : Block.time ∈ W) (w_flow : Block.flow ∈ W) (w_twin : Block.twin ∈ W) (w_vec : Block.vec ∈ W) :
    ∃ u, execOpeningFrameRx dt p f tRx fin s = .next u ∧ (OnlyWrites W S u ↔ OnlyWrites W S s) := by
  unfold execOpeningFrameRx; exact ⟨_, rfl, by simp [w_now, w_clk, w_emit, w_cmd, w_trunk, w_ina, w_sched, w_time, w_flow, w_twin, w_vec]⟩

@[simp] theorem slotPhase_writes (W : List Block) (S : State) (starts : Bool) (s : State) (w_free : Block.free ∈ W)
    (w_emit : Block.emit ∈ W) (w_cmd : Block.cmd ∈ W) (w_flow : Block.flow ∈ W) (w_vec : Block.vec ∈ W) :
    OnlyWrites W S (slotPhase starts s) ↔ OnlyWrites W S s := by
  unfold slotPhase; simp [w_free, w_emit, w_cmd, w_flow, w_vec]

@[simp] theorem transitLocal_writes (W : List Block) (S : State) (f : EthFrame) (s : State) (w_free : Block.free ∈ W)
    (w_emit : Block.emit ∈ W) (w_trunk : Block.trunk ∈ W) (w_sched : Block.sched ∈ W) (w_lsk : Block.lsk ∈ W)
    (w_swc : Block.swc ∈ W) (w_fab : Block.fab ∈ W) :
    OnlyWrites W S (transitLocal f s) ↔ OnlyWrites W S s := by
  unfold transitLocal; simp [w_free, w_emit, w_trunk, w_sched, w_lsk, w_swc, w_fab]

@[simp] theorem transitIn_writes (W : List Block) (S : State) (p : Nat) (f : TransitFrame) (t : Int) (s : State)
    (w_free : Block.free ∈ W) (w_emit : Block.emit ∈ W) (w_trunk : Block.trunk ∈ W) (w_sched : Block.sched ∈ W)
    (w_lsk : Block.lsk ∈ W) (w_swc : Block.swc ∈ W) (w_fab : Block.fab ∈ W) :
    OnlyWrites W S (transitIn p f t s) ↔ OnlyWrites W S s := by
  unfold transitIn; dsimp only; (repeat' split) <;> simp_all [w_free, w_emit, w_trunk, w_sched, w_lsk, w_swc, w_fab]

theorem execTrunkFrameForward_writes (W : List Block) (S : State) (dt : Nat) (p : Fin 4) (f : TransitFrame) (_tRx : Int)
    (s : State) (w_now : Block.now ∈ W) (w_clk : Block.clk ∈ W) (w_free : Block.free ∈ W) (w_emit : Block.emit ∈ W)
    (w_trunk : Block.trunk ∈ W) (w_sched : Block.sched ∈ W) (w_lsk : Block.lsk ∈ W) (w_swc : Block.swc ∈ W)
    (w_fab : Block.fab ∈ W) :
    ∃ u, execTrunkFrameForward dt p f _tRx s = .next u ∧ (OnlyWrites W S u ↔ OnlyWrites W S s) := by
  unfold execTrunkFrameForward; exact ⟨_, rfl, by simp [w_now, w_clk, w_free, w_emit, w_trunk, w_sched, w_lsk, w_swc, w_fab]⟩

theorem execSporadicAbort_writes (W : List Block) (S : State) (dt : Nat) (passing : List (Fin 4)) (s : State)
    (w_now : Block.now ∈ W) (w_clk : Block.clk ∈ W) (w_emit : Block.emit ∈ W) (w_trunk : Block.trunk ∈ W)
    (w_sched : Block.sched ∈ W) :
    ∃ u, execSporadicAbort dt passing s = .next u ∧ (OnlyWrites W S u ↔ OnlyWrites W S s) := by
  unfold execSporadicAbort; exact ⟨_, rfl, by simp [w_now, w_clk, w_emit, w_trunk, w_sched]⟩

theorem execNonScheduledSend_writes (W : List Block) (S : State) (dt : Nat) (p : Fin 4) (transitBusy : Bool) (s : State)
    (w_now : Block.now ∈ W) (w_clk : Block.clk ∈ W) (w_emit : Block.emit ∈ W) (w_trunk : Block.trunk ∈ W)
    (w_sched : Block.sched ∈ W) (w_flow : Block.flow ∈ W) :
    ∃ u, execNonScheduledSend dt p transitBusy s = .next u ∧ (OnlyWrites W S u ↔ OnlyWrites W S s) := by
  unfold execNonScheduledSend; exact ⟨_, rfl, by simp [w_flow, w_now, w_clk, w_emit, w_trunk, w_sched]⟩

@[simp] theorem breakIn_writes (W : List Block) (S : State) (p : Nat) (b : BreakBody) (s : State)
    (w_emit : Block.emit ∈ W) (w_trunk : Block.trunk ∈ W) (w_ina : Block.ina ∈ W) (w_sched : Block.sched ∈ W) :
    OnlyWrites W S (breakIn p b s) ↔ OnlyWrites W S s := by
  unfold breakIn; simp [w_emit, w_trunk, w_ina, w_sched]

theorem execBreakRx_writes (W : List Block) (S : State) (dt : Nat) (p : Fin 4) (b : BreakBody) (s : State)
    (w_now : Block.now ∈ W) (w_clk : Block.clk ∈ W) (w_emit : Block.emit ∈ W) (w_trunk : Block.trunk ∈ W)
    (w_ina : Block.ina ∈ W) (w_sched : Block.sched ∈ W) :
    ∃ u, execBreakRx dt p b s = .next u ∧ (OnlyWrites W S u ↔ OnlyWrites W S s) := by
  unfold execBreakRx; exact ⟨_, rfl, by simp [w_now, w_clk, w_emit, w_trunk, w_ina, w_sched]⟩

@[simp] theorem takeDirectory_writes (W : List Block) (S : State) (d : Directory) (s : State) (w_emit : Block.emit ∈ W)
    (w_cmd : Block.cmd ∈ W) (w_ina : Block.ina ∈ W) (w_flow : Block.flow ∈ W) (w_vec : Block.vec ∈ W) :
    OnlyWrites W S (takeDirectory d s) ↔ OnlyWrites W S s := by
  unfold takeDirectory; simp [w_emit, w_cmd, w_ina, w_flow, w_vec]

@[simp] theorem takePrepared_writes (W : List Block) (S : State) (d : Directory) (s : State) (w_ina : Block.ina ∈ W) :
    OnlyWrites W S (takePrepared d s) ↔ OnlyWrites W S s := by
  unfold takePrepared; (repeat' split) <;> simp [w_ina]

@[simp] theorem directoryIn_writes (W : List Block) (S : State) (p : Nat) (f : DirFrame) (s : State)
    (w_emit : Block.emit ∈ W) (w_cmd : Block.cmd ∈ W) (w_trunk : Block.trunk ∈ W) (w_ina : Block.ina ∈ W)
    (w_sched : Block.sched ∈ W) (w_flow : Block.flow ∈ W) (w_vec : Block.vec ∈ W) :
    OnlyWrites W S (directoryIn p f s) ↔ OnlyWrites W S s := by
  unfold directoryIn; dsimp only; (repeat' split) <;> simp [w_emit, w_cmd, w_trunk, w_ina, w_sched, w_flow, w_vec]

@[simp] theorem directoryOnTrunk_writes (W : List Block) (S : State) (p : Nat) (d : DirFrame) (s : State)
    (w_emit : Block.emit ∈ W) (w_cmd : Block.cmd ∈ W) (w_trunk : Block.trunk ∈ W) (w_ina : Block.ina ∈ W)
    (w_sched : Block.sched ∈ W) (w_flow : Block.flow ∈ W) (w_fab : Block.fab ∈ W) (w_vec : Block.vec ∈ W) :
    OnlyWrites W S (directoryOnTrunk p d s) ↔ OnlyWrites W S s := by
  unfold directoryOnTrunk; simp [w_emit, w_cmd, w_trunk, w_ina, w_sched, w_flow, w_fab, w_vec]

theorem execDirectoryRx_writes (W : List Block) (S : State) (dt : Nat) (p : Fin 4) (d : DirFrame) (s : State)
    (w_now : Block.now ∈ W) (w_clk : Block.clk ∈ W) (w_emit : Block.emit ∈ W) (w_cmd : Block.cmd ∈ W)
    (w_trunk : Block.trunk ∈ W) (w_ina : Block.ina ∈ W) (w_sched : Block.sched ∈ W) (w_flow : Block.flow ∈ W)
    (w_fab : Block.fab ∈ W) (w_vec : Block.vec ∈ W) :
    ∃ u, execDirectoryRx dt p d s = .next u ∧ (OnlyWrites W S u ↔ OnlyWrites W S s) := by
  unfold execDirectoryRx; exact ⟨_, rfl, by simp [w_now, w_clk, w_emit, w_cmd, w_trunk, w_ina, w_sched, w_flow, w_fab, w_vec]⟩

@[simp] theorem joinFirst_writes (W : List Block) (S : State) (j : JoinBody) (s : State) (w_ina : Block.ina ∈ W) :
    OnlyWrites W S (joinFirst j s) ↔ OnlyWrites W S s := by
  unfold joinFirst; simp [w_ina]

@[simp] theorem joinLead_writes (W : List Block) (S : State) (j : JoinBody) (s : State) (w_ina : Block.ina ∈ W) :
    OnlyWrites W S (joinLead j s) ↔ OnlyWrites W S s := by
  unfold joinLead; simp [w_ina]

@[simp] theorem joinIn_writes (W : List Block) (S : State) (p : Option Nat) (j : JoinBody) (s : State)
    (w_emit : Block.emit ∈ W) (w_trunk : Block.trunk ∈ W) (w_ina : Block.ina ∈ W) (w_sched : Block.sched ∈ W) :
    OnlyWrites W S (joinIn p j s) ↔ OnlyWrites W S s := by
  unfold joinIn; (repeat' split) <;> simp [w_emit, w_trunk, w_ina, w_sched]

theorem execJoinRx_writes (W : List Block) (S : State) (dt : Nat) (p : Option (Fin 4)) (j : JoinBody) (s : State)
    (w_now : Block.now ∈ W) (w_clk : Block.clk ∈ W) (w_emit : Block.emit ∈ W) (w_trunk : Block.trunk ∈ W)
    (w_ina : Block.ina ∈ W) (w_sched : Block.sched ∈ W) :
    ∃ u, execJoinRx dt p j s = .next u ∧ (OnlyWrites W S u ↔ OnlyWrites W S s) := by
  unfold execJoinRx; exact ⟨_, rfl, by simp [w_now, w_clk, w_emit, w_trunk, w_ina, w_sched]⟩

@[simp] theorem coldClaimIn_writes (W : List Block) (S : State) (p : Nat) (c : ColdClaim) (s : State)
    (w_emit : Block.emit ∈ W) (w_trunk : Block.trunk ∈ W) (w_ina : Block.ina ∈ W) (w_sched : Block.sched ∈ W) :
    OnlyWrites W S (coldClaimIn p c s) ↔ OnlyWrites W S s := by
  unfold coldClaimIn; simp [w_emit, w_trunk, w_ina, w_sched]

theorem execColdClaimRx_writes (W : List Block) (S : State) (dt : Nat) (p : Fin 4) (c : ColdClaim) (s : State)
    (w_now : Block.now ∈ W) (w_clk : Block.clk ∈ W) (w_emit : Block.emit ∈ W) (w_trunk : Block.trunk ∈ W)
    (w_ina : Block.ina ∈ W) (w_sched : Block.sched ∈ W) :
    ∃ u, execColdClaimRx dt p c s = .next u ∧ (OnlyWrites W S u ↔ OnlyWrites W S s) := by
  unfold execColdClaimRx; exact ⟨_, rfl, by simp [w_now, w_clk, w_emit, w_trunk, w_ina, w_sched]⟩

@[simp] theorem mergeReportIn_writes (W : List Block) (S : State) (p : Nat) (m : MergeReport) (s : State)
    (w_emit : Block.emit ∈ W) (w_cmd : Block.cmd ∈ W) (w_ina : Block.ina ∈ W) (w_sched : Block.sched ∈ W)
    (w_flow : Block.flow ∈ W) (w_vec : Block.vec ∈ W) (w_trunk : Block.trunk ∈ W) :
    OnlyWrites W S (mergeReportIn p m s) ↔ OnlyWrites W S s := by
  unfold mergeReportIn; simp [w_trunk, w_emit, w_cmd, w_ina, w_sched, w_flow, w_vec]

theorem execMergeReportRx_writes (W : List Block) (S : State) (dt : Nat) (p : Fin 4) (m : MergeReport) (s : State)
    (w_now : Block.now ∈ W) (w_clk : Block.clk ∈ W) (w_emit : Block.emit ∈ W) (w_cmd : Block.cmd ∈ W)
    (w_ina : Block.ina ∈ W) (w_sched : Block.sched ∈ W) (w_flow : Block.flow ∈ W) (w_vec : Block.vec ∈ W) (w_trunk : Block.trunk ∈ W) :
    ∃ u, execMergeReportRx dt p m s = .next u ∧ (OnlyWrites W S u ↔ OnlyWrites W S s) := by
  unfold execMergeReportRx; exact ⟨_, rfl, by simp [w_trunk, w_now, w_clk, w_emit, w_cmd, w_ina, w_sched, w_flow, w_vec]⟩

@[simp] theorem leadSetIn_writes (W : List Block) (S : State) (p : Option Nat) (vid : BitVec 48) (s : State)
    (w_ina : Block.ina ∈ W) (w_sched : Block.sched ∈ W) (w_emit : Block.emit ∈ W) (w_trunk : Block.trunk ∈ W) :
    OnlyWrites W S (leadSetIn p vid s) ↔ OnlyWrites W S s := by
  unfold leadSetIn; cases p <;> simp [w_ina, w_sched, w_emit, w_trunk]

theorem execLeadSetRx_writes (W : List Block) (S : State) (dt : Nat) (p : Option (Fin 4)) (vid : BitVec 48) (s : State)
    (w_now : Block.now ∈ W) (w_clk : Block.clk ∈ W) (w_emit : Block.emit ∈ W) (w_ina : Block.ina ∈ W)
    (w_sched : Block.sched ∈ W) (w_trunk : Block.trunk ∈ W) :
    ∃ u, execLeadSetRx dt p vid s = .next u ∧ (OnlyWrites W S u ↔ OnlyWrites W S s) := by
  unfold execLeadSetRx; exact ⟨_, rfl, by simp [w_trunk, w_now, w_clk, w_emit, w_ina, w_sched]⟩

theorem execColdStartTimeout_writes (W : List Block) (S : State) (dt : Nat) (s : State) (w_now : Block.now ∈ W)
    (w_clk : Block.clk ∈ W) (w_emit : Block.emit ∈ W) (w_cmd : Block.cmd ∈ W) (w_ina : Block.ina ∈ W)
    (w_time : Block.time ∈ W) (w_flow : Block.flow ∈ W) (w_twin : Block.twin ∈ W) (w_vec : Block.vec ∈ W) :
    ∃ u, execColdStartTimeout dt s = .next u ∧ (OnlyWrites W S u ↔ OnlyWrites W S s) := by
  unfold execColdStartTimeout; exact ⟨_, rfl, by simp [w_now, w_clk, w_emit, w_cmd, w_ina, w_time, w_flow, w_twin, w_vec]⟩

theorem execColdClaimSend_writes (W : List Block) (S : State) (dt : Nat) (s : State) (w_now : Block.now ∈ W)
    (w_clk : Block.clk ∈ W) (w_emit : Block.emit ∈ W) (w_trunk : Block.trunk ∈ W) (w_ina : Block.ina ∈ W)
    (w_sched : Block.sched ∈ W) :
    ∃ u, execColdClaimSend dt s = .next u ∧ (OnlyWrites W S u ↔ OnlyWrites W S s) := by
  unfold execColdClaimSend; exact ⟨_, rfl, by simp [w_now, w_clk, w_emit, w_trunk, w_ina, w_sched]⟩

theorem execContendTimeout_writes (W : List Block) (S : State) (dt : Nat) (s : State) (w_now : Block.now ∈ W)
    (w_clk : Block.clk ∈ W) (w_emit : Block.emit ∈ W) (w_ina : Block.ina ∈ W) :
    ∃ u, execContendTimeout dt s = .next u ∧ (OnlyWrites W S u ↔ OnlyWrites W S s) := by
  unfold execContendTimeout; exact ⟨_, rfl, by simp [w_now, w_clk, w_emit, w_ina]⟩

theorem execProvisionalNoJoin_writes (W : List Block) (S : State) (dt : Nat) (s : State) (w_now : Block.now ∈ W)
    (w_clk : Block.clk ∈ W) (w_emit : Block.emit ∈ W) (w_ina : Block.ina ∈ W) :
    ∃ u, execProvisionalNoJoin dt s = .next u ∧ (OnlyWrites W S u ↔ OnlyWrites W S s) := by
  unfold execProvisionalNoJoin; exact ⟨_, rfl, by simp [w_now, w_clk, w_emit, w_ina]⟩

@[simp] theorem schedStatusBody_writes (W : List Block) (S : State) (r : Ring) (s : State) (w_sched : Block.sched ∈ W) :
    OnlyWrites W S (schedStatusBody r s).2 ↔ OnlyWrites W S s := by
  unfold schedStatusBody; simp [w_sched]

@[simp] theorem schedStageBody_writes (W : List Block) (S : State) (r : Ring) (s : State) (w_sched : Block.sched ∈ W) :
    OnlyWrites W S (schedStageBody r s).2 ↔ OnlyWrites W S s := by
  unfold schedStageBody; simp [w_sched]

@[simp] theorem schedVerifyBody_writes (W : List Block) (S : State) (_r : Ring) (s : State)
    (w_sched : Block.sched ∈ W) :
    OnlyWrites W S (schedVerifyBody _r s).2 ↔ OnlyWrites W S s := by
  unfold schedVerifyBody; dsimp only; (repeat' split) <;> simp [w_sched]

@[simp] theorem schedHoldBody_writes (W : List Block) (S : State) (_r : Ring) (s : State) (w_sched : Block.sched ∈ W) :
    OnlyWrites W S (schedHoldBody _r s).2 ↔ OnlyWrites W S s := by
  unfold schedHoldBody; (repeat' split) <;> simp [w_sched]

@[simp] theorem schedActivateBody_writes (W : List Block) (S : State) (_r : Ring) (s : State) (w_emit : Block.emit ∈ W)
    (w_cmd : Block.cmd ∈ W) (w_ina : Block.ina ∈ W) (w_sched : Block.sched ∈ W) (w_flow : Block.flow ∈ W)
    (w_can : Block.can ∈ W) (w_swc : Block.swc ∈ W) (w_vec : Block.vec ∈ W) :
    OnlyWrites W S (schedActivateBody _r s).2 ↔ OnlyWrites W S s := by
  unfold schedActivateBody; (repeat' split) <;> simp [w_emit, w_cmd, w_ina, w_sched, w_flow, w_can, w_swc, w_vec]

@[simp] theorem schedReleaseBody_writes (W : List Block) (S : State) (_r : Ring) (s : State)
    (w_sched : Block.sched ∈ W) :
    OnlyWrites W S (schedReleaseBody _r s).2 ↔ OnlyWrites W S s := by
  unfold schedReleaseBody; (repeat' split) <;> simp [w_sched]

@[simp] theorem entryCount_writes (W : List Block) (S : State) (n i : Nat) (s : State) (w_sched : Block.sched ∈ W) :
    OnlyWrites W S (entryCount n i s) ↔ OnlyWrites W S s := by
  unfold entryCount; simp [w_sched]

@[simp] theorem schedEntryStatusBody_writes (W : List Block) (S : State) (r : Ring) (s : State)
    (w_sched : Block.sched ∈ W) :
    OnlyWrites W S (schedEntryStatusBody r s).2 ↔ OnlyWrites W S s := by
  unfold schedEntryStatusBody; dsimp only; (repeat' split) <;> simp [w_sched]

theorem execSchedStatus_writes (W : List Block) (S : State) (dt : Nat) (r : Ring) (s : State) (w_now : Block.now ∈ W)
    (w_clk : Block.clk ∈ W) (w_free : Block.free ∈ W) (w_emit : Block.emit ∈ W) (w_sys : Block.sys ∈ W)
    (w_mbx : Block.mbx ∈ W) (w_cmd : Block.cmd ∈ W) (w_sched : Block.sched ∈ W) (w_vec : Block.vec ∈ W)
    (w_shelf : Block.shelf ∈ W) :
    ∃ u, execSchedStatus dt r s = .next u ∧ (OnlyWrites W S u ↔ OnlyWrites W S s) := by
  unfold execSchedStatus; exact ⟨_, rfl, by simp [w_now, w_clk, w_free, w_emit, w_sys, w_mbx, w_cmd, w_sched, w_vec, w_shelf]⟩

theorem execSchedStage_writes (W : List Block) (S : State) (dt : Nat) (r : Ring) (s : State) (w_now : Block.now ∈ W)
    (w_clk : Block.clk ∈ W) (w_free : Block.free ∈ W) (w_emit : Block.emit ∈ W) (w_sys : Block.sys ∈ W)
    (w_mbx : Block.mbx ∈ W) (w_cmd : Block.cmd ∈ W) (w_sched : Block.sched ∈ W) (w_vec : Block.vec ∈ W)
    (w_shelf : Block.shelf ∈ W) :
    ∃ u, execSchedStage dt r s = .next u ∧ (OnlyWrites W S u ↔ OnlyWrites W S s) := by
  unfold execSchedStage; exact ⟨_, rfl, by simp [w_now, w_clk, w_free, w_emit, w_sys, w_mbx, w_cmd, w_sched, w_vec, w_shelf]⟩

theorem execSchedVerify_writes (W : List Block) (S : State) (dt : Nat) (r : Ring) (s : State) (w_now : Block.now ∈ W)
    (w_clk : Block.clk ∈ W) (w_free : Block.free ∈ W) (w_emit : Block.emit ∈ W) (w_sys : Block.sys ∈ W)
    (w_mbx : Block.mbx ∈ W) (w_cmd : Block.cmd ∈ W) (w_sched : Block.sched ∈ W) (w_vec : Block.vec ∈ W)
    (w_shelf : Block.shelf ∈ W) :
    ∃ u, execSchedVerify dt r s = .next u ∧ (OnlyWrites W S u ↔ OnlyWrites W S s) := by
  unfold execSchedVerify; exact ⟨_, rfl, by simp [w_now, w_clk, w_free, w_emit, w_sys, w_mbx, w_cmd, w_sched, w_vec, w_shelf]⟩

theorem execSchedHold_writes (W : List Block) (S : State) (dt : Nat) (r : Ring) (s : State) (w_now : Block.now ∈ W)
    (w_clk : Block.clk ∈ W) (w_free : Block.free ∈ W) (w_emit : Block.emit ∈ W) (w_sys : Block.sys ∈ W)
    (w_mbx : Block.mbx ∈ W) (w_cmd : Block.cmd ∈ W) (w_sched : Block.sched ∈ W) (w_vec : Block.vec ∈ W)
    (w_shelf : Block.shelf ∈ W) :
    ∃ u, execSchedHold dt r s = .next u ∧ (OnlyWrites W S u ↔ OnlyWrites W S s) := by
  unfold execSchedHold; exact ⟨_, rfl, by simp [w_now, w_clk, w_free, w_emit, w_sys, w_mbx, w_cmd, w_sched, w_vec, w_shelf]⟩

theorem execSchedRelease_writes (W : List Block) (S : State) (dt : Nat) (r : Ring) (s : State) (w_now : Block.now ∈ W)
    (w_clk : Block.clk ∈ W) (w_free : Block.free ∈ W) (w_emit : Block.emit ∈ W) (w_sys : Block.sys ∈ W)
    (w_mbx : Block.mbx ∈ W) (w_cmd : Block.cmd ∈ W) (w_sched : Block.sched ∈ W) (w_vec : Block.vec ∈ W)
    (w_shelf : Block.shelf ∈ W) :
    ∃ u, execSchedRelease dt r s = .next u ∧ (OnlyWrites W S u ↔ OnlyWrites W S s) := by
  unfold execSchedRelease; exact ⟨_, rfl, by simp [w_now, w_clk, w_free, w_emit, w_sys, w_mbx, w_cmd, w_sched, w_vec, w_shelf]⟩

theorem execSchedEntryStatus_writes (W : List Block) (S : State) (dt : Nat) (r : Ring) (s : State)
    (w_now : Block.now ∈ W) (w_clk : Block.clk ∈ W) (w_free : Block.free ∈ W) (w_emit : Block.emit ∈ W)
    (w_sys : Block.sys ∈ W) (w_mbx : Block.mbx ∈ W) (w_cmd : Block.cmd ∈ W) (w_sched : Block.sched ∈ W)
    (w_vec : Block.vec ∈ W) (w_shelf : Block.shelf ∈ W) :
    ∃ u, execSchedEntryStatus dt r s = .next u ∧ (OnlyWrites W S u ↔ OnlyWrites W S s) := by
  unfold execSchedEntryStatus; exact ⟨_, rfl, by simp [w_now, w_clk, w_free, w_emit, w_sys, w_mbx, w_cmd, w_sched, w_vec, w_shelf]⟩

@[simp] theorem modRun_writes (W : List Block) (S : State) (i : Nat) (f : FlowRun → FlowRun) (s : State)
    (w_flow : Block.flow ∈ W) :
    OnlyWrites W S (modRun i f s) ↔ OnlyWrites W S s := by
  unfold modRun; simp [w_flow]

@[simp] theorem flowCount_writes (W : List Block) (S : State) (i k : Nat) (s : State) (w_flow : Block.flow ∈ W) :
    OnlyWrites W S (flowCount i k s) ↔ OnlyWrites W S s := by
  unfold flowCount; simp [w_flow]

@[simp] theorem setBank_writes (W : List Block) (S : State) (one : Bool) (f : Mem → Mem) (s : State)
    (w_flow : Block.flow ∈ W) :
    OnlyWrites W S (setBank one f s) ↔ OnlyWrites W S s := by
  unfold setBank; simp [w_flow]

@[simp] theorem modOut_writes (W : List Block) (S : State) (f : Mem → Mem) (s : State) (w_flow : Block.flow ∈ W) :
    OnlyWrites W S (modOut f s) ↔ OnlyWrites W S s := by
  unfold modOut; simp [w_flow]

@[simp] theorem modNext_writes (W : List Block) (S : State) (f : Mem → Mem) (s : State) (w_flow : Block.flow ∈ W) :
    OnlyWrites W S (modNext f s) ↔ OnlyWrites W S s := by
  unfold modNext; simp [w_flow]

@[simp] theorem writeLinked_writes (W : List Block) (S : State) (i off : Nat) (data : List Byte) (s : State)
    (w_flow : Block.flow ∈ W) :
    OnlyWrites W S (writeLinked i off data s) ↔ OnlyWrites W S s := by
  unfold writeLinked; simp [w_flow]

@[simp] theorem checkLinks_writes (W : List Block) (S : State) (s : State) (w_emit : Block.emit ∈ W)
    (w_cmd : Block.cmd ∈ W) (w_flow : Block.flow ∈ W) (w_can : Block.can ∈ W) (w_mvb : Block.mvb ∈ W)
    (w_vec : Block.vec ∈ W) :
    OnlyWrites W S (checkLinks s) ↔ OnlyWrites W S s := by
  unfold checkLinks; simp [w_emit, w_cmd, w_flow, w_can, w_mvb, w_vec]

@[simp] theorem judgeContexts_writes (W : List Block) (S : State) (s : State) (w_emit : Block.emit ∈ W)
    (w_cmd : Block.cmd ∈ W) (w_flow : Block.flow ∈ W) (w_can : Block.can ∈ W) (w_mvb : Block.mvb ∈ W)
    (w_vec : Block.vec ∈ W) :
    OnlyWrites W S (judgeContexts s) ↔ OnlyWrites W S s := by
  unfold judgeContexts; (repeat' split) <;> simp [w_emit, w_cmd, w_flow, w_can, w_mvb, w_vec]

@[simp] theorem flowSetBody_writes (W : List Block) (S : State) (r : Ring) (s : State) (w_flow : Block.flow ∈ W) :
    OnlyWrites W S (flowSetBody r s).2 ↔ OnlyWrites W S s := by
  unfold flowSetBody; dsimp only; (repeat' split) <;> simp [w_flow]

@[simp] theorem flowGetBody_writes (W : List Block) (S : State) (r : Ring) (s : State) :
    OnlyWrites W S (flowGetBody r s).2 ↔ OnlyWrites W S s := by
  unfold flowGetBody; simp

@[simp] theorem flowStatusBody_writes (W : List Block) (S : State) (r : Ring) (s : State) (w_flow : Block.flow ∈ W) :
    OnlyWrites W S (flowStatusBody r s).2 ↔ OnlyWrites W S s := by
  unfold flowStatusBody; simp [w_flow]

@[simp] theorem flowSaveBody_writes (W : List Block) (S : State) (_r : Ring) (s : State) :
    OnlyWrites W S (flowSaveBody _r s).2 ↔ OnlyWrites W S s := by
  unfold flowSaveBody; simp

@[simp] theorem flowSaveWork_writes (W : List Block) (S : State) (s : State) (w_flow : Block.flow ∈ W) :
    OnlyWrites W S (flowSaveWork s) ↔ OnlyWrites W S s := by
  unfold flowSaveWork; simp [w_flow]

@[simp] theorem flowMacsecKeyBody_writes (W : List Block) (S : State) (r : Ring) (s : State) (w_flow : Block.flow ∈ W) :
    OnlyWrites W S (flowMacsecKeyBody r s).2 ↔ OnlyWrites W S s := by
  unfold flowMacsecKeyBody; simp [w_flow]

theorem execFlowSet_writes (W : List Block) (S : State) (dt : Nat) (r : Ring) (s : State) (w_now : Block.now ∈ W)
    (w_clk : Block.clk ∈ W) (w_free : Block.free ∈ W) (w_emit : Block.emit ∈ W) (w_sys : Block.sys ∈ W)
    (w_mbx : Block.mbx ∈ W) (w_cmd : Block.cmd ∈ W) (w_flow : Block.flow ∈ W) (w_vec : Block.vec ∈ W)
    (w_shelf : Block.shelf ∈ W) :
    ∃ u, execFlowSet dt r s = .next u ∧ (OnlyWrites W S u ↔ OnlyWrites W S s) := by
  unfold execFlowSet; exact ⟨_, rfl, by simp [w_now, w_clk, w_free, w_emit, w_sys, w_mbx, w_cmd, w_flow, w_vec, w_shelf]⟩

theorem execFlowGet_writes (W : List Block) (S : State) (dt : Nat) (r : Ring) (s : State) (w_now : Block.now ∈ W)
    (w_clk : Block.clk ∈ W) (w_free : Block.free ∈ W) (w_emit : Block.emit ∈ W) (w_sys : Block.sys ∈ W)
    (w_mbx : Block.mbx ∈ W) (w_cmd : Block.cmd ∈ W) (w_vec : Block.vec ∈ W) (w_shelf : Block.shelf ∈ W) :
    ∃ u, execFlowGet dt r s = .next u ∧ (OnlyWrites W S u ↔ OnlyWrites W S s) := by
  unfold execFlowGet; exact ⟨_, rfl, by simp [w_now, w_clk, w_free, w_emit, w_sys, w_mbx, w_cmd, w_vec, w_shelf]⟩

theorem execFlowStatus_writes (W : List Block) (S : State) (dt : Nat) (r : Ring) (s : State) (w_now : Block.now ∈ W)
    (w_clk : Block.clk ∈ W) (w_free : Block.free ∈ W) (w_emit : Block.emit ∈ W) (w_sys : Block.sys ∈ W)
    (w_mbx : Block.mbx ∈ W) (w_cmd : Block.cmd ∈ W) (w_flow : Block.flow ∈ W) (w_vec : Block.vec ∈ W)
    (w_shelf : Block.shelf ∈ W) :
    ∃ u, execFlowStatus dt r s = .next u ∧ (OnlyWrites W S u ↔ OnlyWrites W S s) := by
  unfold execFlowStatus; exact ⟨_, rfl, by simp [w_now, w_clk, w_free, w_emit, w_sys, w_mbx, w_cmd, w_flow, w_vec, w_shelf]⟩

theorem execFlowSave_writes (W : List Block) (S : State) (dt : Nat) (r : Ring) (s : State) (w_now : Block.now ∈ W)
    (w_clk : Block.clk ∈ W) (w_free : Block.free ∈ W) (w_emit : Block.emit ∈ W) (w_sys : Block.sys ∈ W)
    (w_mbx : Block.mbx ∈ W) (w_cmd : Block.cmd ∈ W) (w_vec : Block.vec ∈ W) (w_shelf : Block.shelf ∈ W) :
    ∃ u, execFlowSave dt r s = .next u ∧ (OnlyWrites W S u ↔ OnlyWrites W S s) := by
  unfold execFlowSave; exact ⟨_, rfl, by simp [w_now, w_clk, w_free, w_emit, w_sys, w_mbx, w_cmd, w_vec, w_shelf]⟩

theorem execFlowMacsecKey_writes (W : List Block) (S : State) (dt : Nat) (r : Ring) (s : State) (w_now : Block.now ∈ W)
    (w_clk : Block.clk ∈ W) (w_free : Block.free ∈ W) (w_emit : Block.emit ∈ W) (w_sys : Block.sys ∈ W)
    (w_mbx : Block.mbx ∈ W) (w_cmd : Block.cmd ∈ W) (w_flow : Block.flow ∈ W) (w_vec : Block.vec ∈ W)
    (w_shelf : Block.shelf ∈ W) :
    ∃ u, execFlowMacsecKey dt r s = .next u ∧ (OnlyWrites W S u ↔ OnlyWrites W S s) := by
  unfold execFlowMacsecKey; exact ⟨_, rfl, by simp [w_now, w_clk, w_free, w_emit, w_sys, w_mbx, w_cmd, w_flow, w_vec, w_shelf]⟩

@[simp] theorem schedActivateFull_writes (W : List Block) (S : State) (r : Ring) (s : State) (w_emit : Block.emit ∈ W)
    (w_cmd : Block.cmd ∈ W) (w_ina : Block.ina ∈ W) (w_sched : Block.sched ∈ W) (w_flow : Block.flow ∈ W)
    (w_can : Block.can ∈ W) (w_mvb : Block.mvb ∈ W) (w_swc : Block.swc ∈ W) (w_vec : Block.vec ∈ W) :
    OnlyWrites W S (schedActivateFull r s).2 ↔ OnlyWrites W S s := by
  unfold schedActivateFull; simp [w_emit, w_cmd, w_ina, w_sched, w_flow, w_can, w_mvb, w_swc, w_vec]

theorem execSchedActivate_writes (W : List Block) (S : State) (dt : Nat) (r : Ring) (s : State) (w_now : Block.now ∈ W)
    (w_clk : Block.clk ∈ W) (w_free : Block.free ∈ W) (w_emit : Block.emit ∈ W) (w_sys : Block.sys ∈ W)
    (w_mbx : Block.mbx ∈ W) (w_cmd : Block.cmd ∈ W) (w_ina : Block.ina ∈ W) (w_sched : Block.sched ∈ W)
    (w_flow : Block.flow ∈ W) (w_can : Block.can ∈ W) (w_mvb : Block.mvb ∈ W) (w_swc : Block.swc ∈ W)
    (w_vec : Block.vec ∈ W) (w_shelf : Block.shelf ∈ W) :
    ∃ u, execSchedActivate dt r s = .next u ∧ (OnlyWrites W S u ↔ OnlyWrites W S s) := by
  unfold execSchedActivate; exact ⟨_, rfl, by simp [w_now, w_clk, w_free, w_emit, w_sys, w_mbx, w_cmd, w_ina, w_sched, w_flow, w_can, w_mvb, w_swc, w_vec, w_shelf]⟩

@[simp] theorem entryReceived_writes (W : List Block) (S : State) (n : Nat) (lineB : Bool) (s : State)
    (w_sched : Block.sched ∈ W) :
    OnlyWrites W S (entryReceived n lineB s) ↔ OnlyWrites W S s := by
  unfold entryReceived; simp [w_sched]

@[simp] theorem windowViolation_writes (W : List Block) (S : State) (n : Nat) (s : State) (w_sched : Block.sched ∈ W) :
    OnlyWrites W S (windowViolation n s) ↔ OnlyWrites W S s := by
  unfold windowViolation; simp [w_sched]

@[simp] theorem macsecNote_writes (W : List Block) (S : State) (t : SecTag) (s : State) (w_flow : Block.flow ∈ W) :
    OnlyWrites W S (macsecNote t s) ↔ OnlyWrites W S s := by
  unfold macsecNote; simp [w_flow]

@[simp] theorem macsecTake_writes (W : List Block) (S : State) (f : FlowFrame) (s : State) (w_flow : Block.flow ∈ W) :
    OnlyWrites W S (macsecTake f s).2 ↔ OnlyWrites W S s := by
  unfold macsecTake; (repeat' split) <;> simp [w_flow]

@[simp] theorem showFlags_writes (W : List Block) (S : State) (i : Nat) (s : State) (w_flow : Block.flow ∈ W) :
    OnlyWrites W S (showFlags i s) ↔ OnlyWrites W S s := by
  unfold showFlags; simp [w_flow]

@[simp] theorem enterSafe_writes (W : List Block) (S : State) (i cause : Nat) (s : State) (w_emit : Block.emit ∈ W)
    (w_cmd : Block.cmd ∈ W) (w_flow : Block.flow ∈ W) (w_vec : Block.vec ∈ W) :
    OnlyWrites W S (enterSafe i cause s) ↔ OnlyWrites W S s := by
  unfold enterSafe; simp [w_emit, w_cmd, w_flow, w_vec]

@[simp] theorem safeCheck_writes (W : List Block) (S : State) (i : Nat) (c : FlowCtx) (higher : Bool) (f : FlowFrame)
    (s : State) (w_emit : Block.emit ∈ W) (w_cmd : Block.cmd ∈ W) (w_flow : Block.flow ∈ W) (w_vec : Block.vec ∈ W) :
    OnlyWrites W S (safeCheck i c higher f s).2 ↔ OnlyWrites W S s := by
  unfold safeCheck; (repeat' split) <;> simp [w_emit, w_cmd, w_flow, w_vec]

@[simp] theorem acceptFlow_writes (W : List Block) (S : State) (i : Nat) (c : FlowCtx) (lineB higher : Bool)
    (f : FlowFrame) (s : State) (w_flow : Block.flow ∈ W) :
    OnlyWrites W S (acceptFlow i c lineB higher f s) ↔ OnlyWrites W S s := by
  unfold acceptFlow; simp [w_flow]

@[simp] theorem consumeNew_writes (W : List Block) (S : State) (i : Nat) (c : FlowCtx) (lineB : Bool) (f : FlowFrame)
    (s : State) (w_emit : Block.emit ∈ W) (w_cmd : Block.cmd ∈ W) (w_flow : Block.flow ∈ W) (w_vec : Block.vec ∈ W) :
    OnlyWrites W S (consumeNew i c lineB f s) ↔ OnlyWrites W S s := by
  unfold consumeNew; dsimp only; (repeat' split) <;> simp [w_emit, w_cmd, w_flow, w_vec]

@[simp] theorem consumeChecks_writes (W : List Block) (S : State) (i : Nat) (c : FlowCtx) (lineB : Bool) (f : FlowFrame)
    (s : State) (w_emit : Block.emit ∈ W) (w_cmd : Block.cmd ∈ W) (w_sched : Block.sched ∈ W) (w_flow : Block.flow ∈ W)
    (w_vec : Block.vec ∈ W) :
    OnlyWrites W S (consumeChecks i c lineB f s) ↔ OnlyWrites W S s := by
  unfold consumeChecks; simp [w_emit, w_cmd, w_sched, w_flow, w_vec]

@[simp] theorem consumeFrame_writes (W : List Block) (S : State) (i : Nat) (c : FlowCtx) (lineB verified : Bool)
    (check6 : State → Bool × State) (f : FlowFrame) (s : State)
    (hcheck6 : ∀ y0, OnlyWrites W S (check6 y0).2 ↔ OnlyWrites W S y0) (w_emit : Block.emit ∈ W) (w_cmd : Block.cmd ∈ W)
    (w_sched : Block.sched ∈ W) (w_flow : Block.flow ∈ W) (w_vec : Block.vec ∈ W) :
    OnlyWrites W S (consumeFrame i c lineB verified check6 f s) ↔ OnlyWrites W S s := by
  unfold consumeFrame; (repeat' split) <;> simp_all

@[simp] theorem windowCheck_writes (W : List Block) (S : State) (im : Image) (p : Nat) (t : Int) (c : FlowCtx)
    (s : State) (w_sched : Block.sched ∈ W) :
    OnlyWrites W S (windowCheck im p t c s).2 ↔ OnlyWrites W S s := by
  unfold windowCheck; dsimp only; (repeat' split) <;> simp [w_sched]

@[simp] theorem slotNote_writes (W : List Block) (S : State) (im : Image) (p : Nat) (t : Int) (s : State)
    (w_sched : Block.sched ∈ W) :
    OnlyWrites W S (slotNote im p t s) ↔ OnlyWrites W S s := by
  unfold slotNote; (repeat' split) <;> simp [w_sched]

@[simp] theorem flowFromTrunk_writes (W : List Block) (S : State) (p : Nat) (tPin : Int) (verified : Bool)
    (f : FlowFrame) (s : State) (w_emit : Block.emit ∈ W) (w_cmd : Block.cmd ∈ W) (w_sched : Block.sched ∈ W)
    (w_flow : Block.flow ∈ W) (w_vec : Block.vec ∈ W) :
    OnlyWrites W S (flowFromTrunk p tPin verified f s) ↔ OnlyWrites W S s := by
  unfold flowFromTrunk; dsimp only; (repeat' split) <;> simp [w_emit, w_cmd, w_sched, w_flow, w_vec]

@[simp] theorem flowFromFabric_writes (W : List Block) (S : State) (lineB verified : Bool) (f : FlowFrame) (s : State)
    (w_emit : Block.emit ∈ W) (w_cmd : Block.cmd ∈ W) (w_sched : Block.sched ∈ W) (w_flow : Block.flow ∈ W)
    (w_vec : Block.vec ∈ W) :
    OnlyWrites W S (flowFromFabric lineB verified f s) ↔ OnlyWrites W S s := by
  unfold flowFromFabric; (repeat' split) <;> simp [w_emit, w_cmd, w_sched, w_flow, w_vec]

@[simp] theorem producedHeaders_writes (W : List Block) (S : State) (s : State) (w_flow : Block.flow ∈ W) :
    OnlyWrites W S (producedHeaders s) ↔ OnlyWrites W S s := by
  unfold producedHeaders; simp [w_flow]

@[simp] theorem nextSeq_writes (W : List Block) (S : State) (i : Nat) (s : State) (w_flow : Block.flow ∈ W) :
    OnlyWrites W S (nextSeq i s).2 ↔ OnlyWrites W S s := by
  unfold nextSeq; dsimp only; (repeat' split) <;> simp_all [w_flow]

@[simp] theorem nextSend_writes (W : List Block) (S : State) (i : Nat) (s : State) (w_flow : Block.flow ∈ W) :
    OnlyWrites W S (nextSend i s).2 ↔ OnlyWrites W S s := by
  unfold nextSend; simp [w_flow]

@[simp] theorem flowOnLine_writes (W : List Block) (S : State) (c : FlowCtx) (lineB : Bool) (f : FlowFrame) (s : State)
    (w_flow : Block.flow ∈ W) :
    OnlyWrites W S (flowOnLine c lineB f s).2 ↔ OnlyWrites W S s := by
  unfold flowOnLine; simp [w_flow]

@[simp] theorem wtbLine_writes (W : List Block) (S : State) (okA okB : Bool) (s : State) (w_trunk : Block.trunk ∈ W) :
    OnlyWrites W S (wtbLine okA okB s) ↔ OnlyWrites W S s := by
  unfold wtbLine; simp [w_trunk]

@[simp] theorem islandTelegram_writes (W : List Block) (S : State) (addr : Byte) (data : List Byte) (okA okB : Bool)
    (s : State) (w_trunk : Block.trunk ∈ W) (w_flow : Block.flow ∈ W) :
    OnlyWrites W S (islandTelegram addr data okA okB s) ↔ OnlyWrites W S s := by
  unfold islandTelegram; simp [w_trunk, w_flow]

theorem execIslandTelegramRx_writes (W : List Block) (S : State) (dt : Nat) (addr : Byte) (data : List Byte)
    (okA okB : Bool) (s : State) (w_now : Block.now ∈ W) (w_clk : Block.clk ∈ W) (w_emit : Block.emit ∈ W)
    (w_trunk : Block.trunk ∈ W) (w_flow : Block.flow ∈ W) :
    ∃ u, execIslandTelegramRx dt addr data okA okB s = .next u ∧ (OnlyWrites W S u ↔ OnlyWrites W S s) := by
  unfold execIslandTelegramRx; exact ⟨_, rfl, by simp [w_now, w_clk, w_emit, w_trunk, w_flow]⟩

theorem execIslandTelegramSend_writes (W : List Block) (S : State) (dt : Nat) (s : State) (w_now : Block.now ∈ W)
    (w_clk : Block.clk ∈ W) (w_emit : Block.emit ∈ W) :
    ∃ u, execIslandTelegramSend dt s = .next u ∧ (OnlyWrites W S u ↔ OnlyWrites W S s) := by
  unfold execIslandTelegramSend; exact ⟨_, rfl, by simp [w_now, w_clk, w_emit]⟩

@[simp] theorem sendSegments_writes (W : List Block) (S : State) (x : Session) (m : Message) (from_ to_ : Nat)
    (s : State) (w_emit : Block.emit ∈ W) (w_trunk : Block.trunk ∈ W) (w_sched : Block.sched ∈ W)
    (w_fab : Block.fab ∈ W) :
    OnlyWrites W S (sendSegments x m from_ to_ s) ↔ OnlyWrites W S s := by
  unfold sendSegments; simp [w_emit, w_trunk, w_sched, w_fab]

@[simp] theorem pumpSession_writes (W : List Block) (S : State) (sid : BitVec 16) (opener : BitVec 64) (s : State)
    (w_emit : Block.emit ∈ W) (w_trunk : Block.trunk ∈ W) (w_sched : Block.sched ∈ W) (w_flow : Block.flow ∈ W)
    (w_fab : Block.fab ∈ W) :
    OnlyWrites W S (pumpSession sid opener s) ↔ OnlyWrites W S s := by
  unfold pumpSession; (repeat' split) <;> simp [w_emit, w_trunk, w_sched, w_flow, w_fab]

@[simp] theorem sessionOpenBody_writes (W : List Block) (S : State) (r : Ring) (s : State) (w_free : Block.free ∈ W)
    (w_emit : Block.emit ∈ W) (w_trunk : Block.trunk ∈ W) (w_sched : Block.sched ∈ W) (w_flow : Block.flow ∈ W)
    (w_fab : Block.fab ∈ W) :
    OnlyWrites W S (sessionOpenBody r s).2 ↔ OnlyWrites W S s := by
  unfold sessionOpenBody; simp [w_free, w_emit, w_trunk, w_sched, w_flow, w_fab]

@[simp] theorem sessionSendBody_writes (W : List Block) (S : State) (r : Ring) (s : State) (w_emit : Block.emit ∈ W)
    (w_trunk : Block.trunk ∈ W) (w_sched : Block.sched ∈ W) (w_flow : Block.flow ∈ W) (w_fab : Block.fab ∈ W) :
    OnlyWrites W S (sessionSendBody r s).2 ↔ OnlyWrites W S s := by
  unfold sessionSendBody; (repeat' split) <;> simp [w_emit, w_trunk, w_sched, w_flow, w_fab]

@[simp] theorem sessionRecvBody_writes (W : List Block) (S : State) (r : Ring) (s : State) (w_flow : Block.flow ∈ W) :
    OnlyWrites W S (sessionRecvBody r s).2 ↔ OnlyWrites W S s := by
  unfold sessionRecvBody; (repeat' split) <;> simp [w_flow]

@[simp] theorem sessionCloseBody_writes (W : List Block) (S : State) (r : Ring) (s : State) (w_emit : Block.emit ∈ W)
    (w_trunk : Block.trunk ∈ W) (w_sched : Block.sched ∈ W) (w_flow : Block.flow ∈ W) (w_fab : Block.fab ∈ W) :
    OnlyWrites W S (sessionCloseBody r s).2 ↔ OnlyWrites W S s := by
  unfold sessionCloseBody; (repeat' split) <;> simp [w_emit, w_trunk, w_sched, w_flow, w_fab]

theorem execSessionOpen_writes (W : List Block) (S : State) (dt : Nat) (r : Ring) (s : State) (w_now : Block.now ∈ W)
    (w_clk : Block.clk ∈ W) (w_free : Block.free ∈ W) (w_emit : Block.emit ∈ W) (w_sys : Block.sys ∈ W)
    (w_mbx : Block.mbx ∈ W) (w_cmd : Block.cmd ∈ W) (w_trunk : Block.trunk ∈ W) (w_sched : Block.sched ∈ W)
    (w_flow : Block.flow ∈ W) (w_fab : Block.fab ∈ W) (w_vec : Block.vec ∈ W) (w_shelf : Block.shelf ∈ W) :
    ∃ u, execSessionOpen dt r s = .next u ∧ (OnlyWrites W S u ↔ OnlyWrites W S s) := by
  unfold execSessionOpen; exact ⟨_, rfl, by simp [w_now, w_clk, w_free, w_emit, w_sys, w_mbx, w_cmd, w_trunk, w_sched, w_flow, w_fab, w_vec, w_shelf]⟩

theorem execSessionSend_writes (W : List Block) (S : State) (dt : Nat) (r : Ring) (s : State) (w_now : Block.now ∈ W)
    (w_clk : Block.clk ∈ W) (w_free : Block.free ∈ W) (w_emit : Block.emit ∈ W) (w_sys : Block.sys ∈ W)
    (w_mbx : Block.mbx ∈ W) (w_cmd : Block.cmd ∈ W) (w_trunk : Block.trunk ∈ W) (w_sched : Block.sched ∈ W)
    (w_flow : Block.flow ∈ W) (w_fab : Block.fab ∈ W) (w_vec : Block.vec ∈ W) (w_shelf : Block.shelf ∈ W) :
    ∃ u, execSessionSend dt r s = .next u ∧ (OnlyWrites W S u ↔ OnlyWrites W S s) := by
  unfold execSessionSend; exact ⟨_, rfl, by simp [w_now, w_clk, w_free, w_emit, w_sys, w_mbx, w_cmd, w_trunk, w_sched, w_flow, w_fab, w_vec, w_shelf]⟩

theorem execSessionRecv_writes (W : List Block) (S : State) (dt : Nat) (r : Ring) (s : State) (w_now : Block.now ∈ W)
    (w_clk : Block.clk ∈ W) (w_free : Block.free ∈ W) (w_emit : Block.emit ∈ W) (w_sys : Block.sys ∈ W)
    (w_mbx : Block.mbx ∈ W) (w_cmd : Block.cmd ∈ W) (w_flow : Block.flow ∈ W) (w_vec : Block.vec ∈ W)
    (w_shelf : Block.shelf ∈ W) :
    ∃ u, execSessionRecv dt r s = .next u ∧ (OnlyWrites W S u ↔ OnlyWrites W S s) := by
  unfold execSessionRecv; exact ⟨_, rfl, by simp [w_now, w_clk, w_free, w_emit, w_sys, w_mbx, w_cmd, w_flow, w_vec, w_shelf]⟩

theorem execSessionClose_writes (W : List Block) (S : State) (dt : Nat) (r : Ring) (s : State) (w_now : Block.now ∈ W)
    (w_clk : Block.clk ∈ W) (w_free : Block.free ∈ W) (w_emit : Block.emit ∈ W) (w_sys : Block.sys ∈ W)
    (w_mbx : Block.mbx ∈ W) (w_cmd : Block.cmd ∈ W) (w_trunk : Block.trunk ∈ W) (w_sched : Block.sched ∈ W)
    (w_flow : Block.flow ∈ W) (w_fab : Block.fab ∈ W) (w_vec : Block.vec ∈ W) (w_shelf : Block.shelf ∈ W) :
    ∃ u, execSessionClose dt r s = .next u ∧ (OnlyWrites W S u ↔ OnlyWrites W S s) := by
  unfold execSessionClose; exact ⟨_, rfl, by simp [w_now, w_clk, w_free, w_emit, w_sys, w_mbx, w_cmd, w_trunk, w_sched, w_flow, w_fab, w_vec, w_shelf]⟩

@[simp] theorem sessionOpened_writes (W : List Block) (S : State) (f : SessionFrame) (s : State)
    (w_emit : Block.emit ∈ W) (w_trunk : Block.trunk ∈ W) (w_sched : Block.sched ∈ W) (w_flow : Block.flow ∈ W)
    (w_fab : Block.fab ∈ W) :
    OnlyWrites W S (sessionOpened f s) ↔ OnlyWrites W S s := by
  unfold sessionOpened; simp [w_emit, w_trunk, w_sched, w_flow, w_fab]

@[simp] theorem sessionData_writes (W : List Block) (S : State) (x : Session) (f : SessionFrame) (s : State)
    (w_emit : Block.emit ∈ W) (w_trunk : Block.trunk ∈ W) (w_sched : Block.sched ∈ W) (w_flow : Block.flow ∈ W)
    (w_fab : Block.fab ∈ W) :
    OnlyWrites W S (sessionData x f s) ↔ OnlyWrites W S s := by
  unfold sessionData; (repeat' split) <;> simp [w_emit, w_trunk, w_sched, w_flow, w_fab]

@[simp] theorem sessionAck_writes (W : List Block) (S : State) (x : Session) (f : SessionFrame) (s : State)
    (w_emit : Block.emit ∈ W) (w_cmd : Block.cmd ∈ W) (w_trunk : Block.trunk ∈ W) (w_sched : Block.sched ∈ W)
    (w_flow : Block.flow ∈ W) (w_fab : Block.fab ∈ W) (w_vec : Block.vec ∈ W) :
    OnlyWrites W S (sessionAck x f s) ↔ OnlyWrites W S s := by
  unfold sessionAck; (repeat' split) <;> simp [w_emit, w_cmd, w_trunk, w_sched, w_flow, w_fab, w_vec]

@[simp] theorem sessionIn_writes (W : List Block) (S : State) (f : SessionFrame) (s : State) (w_emit : Block.emit ∈ W)
    (w_cmd : Block.cmd ∈ W) (w_trunk : Block.trunk ∈ W) (w_sched : Block.sched ∈ W) (w_flow : Block.flow ∈ W)
    (w_fab : Block.fab ∈ W) (w_vec : Block.vec ∈ W) :
    OnlyWrites W S (sessionIn f s) ↔ OnlyWrites W S s := by
  unfold sessionIn; (repeat' split) <;> simp [w_emit, w_cmd, w_trunk, w_sched, w_flow, w_fab, w_vec]

@[simp] theorem sessionPass_writes (W : List Block) (S : State) (p : Option Nat) (f : SessionFrame) (s : State)
    (w_emit : Block.emit ∈ W) (w_trunk : Block.trunk ∈ W) :
    OnlyWrites W S (sessionPass p f s) ↔ OnlyWrites W S s := by
  unfold sessionPass; (repeat' split) <;> simp_all [w_emit, w_trunk]

@[simp] theorem sessionFrameIn_writes (W : List Block) (S : State) (p : Option Nat) (f : SessionFrame) (s : State)
    (w_emit : Block.emit ∈ W) (w_cmd : Block.cmd ∈ W) (w_trunk : Block.trunk ∈ W) (w_sched : Block.sched ∈ W)
    (w_flow : Block.flow ∈ W) (w_fab : Block.fab ∈ W) (w_vec : Block.vec ∈ W) :
    OnlyWrites W S (sessionFrameIn p f s) ↔ OnlyWrites W S s := by
  unfold sessionFrameIn; simp [w_emit, w_cmd, w_trunk, w_sched, w_flow, w_fab, w_vec]

theorem execSessionFrameRx_writes (W : List Block) (S : State) (dt : Nat) (p : Option (Fin 4)) (f : SessionFrame)
    (s : State) (w_now : Block.now ∈ W) (w_clk : Block.clk ∈ W) (w_emit : Block.emit ∈ W) (w_cmd : Block.cmd ∈ W)
    (w_trunk : Block.trunk ∈ W) (w_sched : Block.sched ∈ W) (w_flow : Block.flow ∈ W) (w_fab : Block.fab ∈ W)
    (w_vec : Block.vec ∈ W) :
    ∃ u, execSessionFrameRx dt p f s = .next u ∧ (OnlyWrites W S u ↔ OnlyWrites W S s) := by
  unfold execSessionFrameRx; exact ⟨_, rfl, by simp [w_now, w_clk, w_emit, w_cmd, w_trunk, w_sched, w_flow, w_fab, w_vec]⟩

@[simp] theorem retransmit_writes (W : List Block) (S : State) (sid : BitVec 16) (opener : BitVec 64) (s : State)
    (w_emit : Block.emit ∈ W) (w_cmd : Block.cmd ∈ W) (w_trunk : Block.trunk ∈ W) (w_sched : Block.sched ∈ W)
    (w_flow : Block.flow ∈ W) (w_fab : Block.fab ∈ W) (w_vec : Block.vec ∈ W) :
    OnlyWrites W S (retransmit sid opener s) ↔ OnlyWrites W S s := by
  unfold retransmit; (repeat' split) <;> simp [w_emit, w_cmd, w_trunk, w_sched, w_flow, w_fab, w_vec]

theorem execSessionRetransmit_writes (W : List Block) (S : State) (dt : Nat) (sid : BitVec 16) (opener : BitVec 64)
    (s : State) (w_now : Block.now ∈ W) (w_clk : Block.clk ∈ W) (w_emit : Block.emit ∈ W) (w_cmd : Block.cmd ∈ W)
    (w_trunk : Block.trunk ∈ W) (w_sched : Block.sched ∈ W) (w_flow : Block.flow ∈ W) (w_fab : Block.fab ∈ W)
    (w_vec : Block.vec ∈ W) :
    ∃ u, execSessionRetransmit dt sid opener s = .next u ∧ (OnlyWrites W S u ↔ OnlyWrites W S s) := by
  unfold execSessionRetransmit; exact ⟨_, rfl, by simp [w_now, w_clk, w_emit, w_cmd, w_trunk, w_sched, w_flow, w_fab, w_vec]⟩

@[simp] theorem modPtp_writes (W : List Block) (S : State) (d : Nat) (f : PtpInst → PtpInst) (s : State)
    (w_now : Block.now ∈ W) (w_time : Block.time ∈ W) :
    OnlyWrites W S (modPtp d f s) ↔ OnlyWrites W S s := by
  unfold modPtp; simp [w_now, w_time]

@[simp] theorem switchDomain_writes (W : List Block) (S : State) (d : Fin 2) (s : State) (w_now : Block.now ∈ W)
    (w_emit : Block.emit ∈ W) (w_cmd : Block.cmd ∈ W) (w_time : Block.time ∈ W) (w_flow : Block.flow ∈ W)
    (w_vec : Block.vec ∈ W) :
    OnlyWrites W S (switchDomain d s) ↔ OnlyWrites W S s := by
  unfold switchDomain; simp [w_now, w_emit, w_cmd, w_time, w_flow, w_vec]

@[simp] theorem selectDomain_writes (W : List Block) (S : State) (s : State) (w_now : Block.now ∈ W)
    (w_emit : Block.emit ∈ W) (w_cmd : Block.cmd ∈ W) (w_time : Block.time ∈ W) (w_flow : Block.flow ∈ W)
    (w_vec : Block.vec ∈ W) :
    OnlyWrites W S (selectDomain s) ↔ OnlyWrites W S s := by
  unfold selectDomain; simp [w_now, w_emit, w_cmd, w_time, w_flow, w_vec]

theorem execDomainReturnTimer_writes (W : List Block) (S : State) (dt : Nat) (s : State) (w_now : Block.now ∈ W)
    (w_clk : Block.clk ∈ W) (w_emit : Block.emit ∈ W) (w_cmd : Block.cmd ∈ W) (w_time : Block.time ∈ W)
    (w_flow : Block.flow ∈ W) (w_vec : Block.vec ∈ W) :
    ∃ u, execDomainReturnTimer dt s = .next u ∧ (OnlyWrites W S u ↔ OnlyWrites W S s) := by
  unfold execDomainReturnTimer; exact ⟨_, rfl, by simp [w_now, w_clk, w_emit, w_cmd, w_time, w_flow, w_vec]⟩

@[simp] theorem ptpMaster_writes (W : List Block) (S : State) (d : Nat) (s : State) (w_now : Block.now ∈ W)
    (w_emit : Block.emit ∈ W) (w_cmd : Block.cmd ∈ W) (w_time : Block.time ∈ W) (w_flow : Block.flow ∈ W)
    (w_vec : Block.vec ∈ W) :
    OnlyWrites W S (ptpMaster d s) ↔ OnlyWrites W S s := by
  unfold ptpMaster; simp [w_now, w_emit, w_cmd, w_time, w_flow, w_vec]

@[simp] theorem ptpFollow_writes (W : List Block) (S : State) (d port : Nat) (a : PtpAnnounce) (s : State)
    (w_now : Block.now ∈ W) (w_emit : Block.emit ∈ W) (w_cmd : Block.cmd ∈ W) (w_time : Block.time ∈ W)
    (w_flow : Block.flow ∈ W) (w_vec : Block.vec ∈ W) :
    OnlyWrites W S (ptpFollow d port a s) ↔ OnlyWrites W S s := by
  unfold ptpFollow; simp [w_now, w_emit, w_cmd, w_time, w_flow, w_vec]

@[simp] theorem ptpAnnounce_writes (W : List Block) (S : State) (d port : Nat) (a : PtpAnnounce) (s : State)
    (w_now : Block.now ∈ W) (w_emit : Block.emit ∈ W) (w_cmd : Block.cmd ∈ W) (w_time : Block.time ∈ W)
    (w_flow : Block.flow ∈ W) (w_vec : Block.vec ∈ W) :
    OnlyWrites W S (ptpAnnounce d port a s) ↔ OnlyWrites W S s := by
  unfold ptpAnnounce; simp [w_now, w_emit, w_cmd, w_time, w_flow, w_vec]

@[simp] theorem ptpSignaling_writes (W : List Block) (S : State) (d port : Nat) (domain : BitVec 7) (logSync : Byte)
    (s : State) (w_now : Block.now ∈ W) (w_time : Block.time ∈ W) :
    OnlyWrites W S (ptpSignaling d port domain logSync s) ↔ OnlyWrites W S s := by
  unfold ptpSignaling; simp [w_now, w_time]

@[simp] theorem ptpGeneral_writes (W : List Block) (S : State) (port : Nat) (m : PtpGeneral) (s : State)
    (w_now : Block.now ∈ W) (w_emit : Block.emit ∈ W) (w_cmd : Block.cmd ∈ W) (w_time : Block.time ∈ W)
    (w_flow : Block.flow ∈ W) (w_vec : Block.vec ∈ W) :
    OnlyWrites W S (ptpGeneral port m s) ↔ OnlyWrites W S s := by
  unfold ptpGeneral; (repeat' split) <;> simp [w_now, w_emit, w_cmd, w_time, w_flow, w_vec]

theorem execPtpAnnounceRx_writes (W : List Block) (S : State) (dt : Nat) (port : Fin 16) (m : PtpGeneral) (s : State)
    (w_now : Block.now ∈ W) (w_clk : Block.clk ∈ W) (w_emit : Block.emit ∈ W) (w_cmd : Block.cmd ∈ W)
    (w_time : Block.time ∈ W) (w_flow : Block.flow ∈ W) (w_vec : Block.vec ∈ W) :
    ∃ u, execPtpAnnounceRx dt port m s = .next u ∧ (OnlyWrites W S u ↔ OnlyWrites W S s) := by
  unfold execPtpAnnounceRx; exact ⟨_, rfl, by simp [w_now, w_clk, w_emit, w_cmd, w_time, w_flow, w_vec]⟩

@[simp] theorem ptpServo_writes (W : List Block) (S : State) (d : Nat) (offset rate : Int) (s : State)
    (w_now : Block.now ∈ W) (w_free : Block.free ∈ W) (w_emit : Block.emit ∈ W) (w_cmd : Block.cmd ∈ W)
    (w_time : Block.time ∈ W) (w_flow : Block.flow ∈ W) (w_vec : Block.vec ∈ W) :
    OnlyWrites W S (ptpServo d offset rate s) ↔ OnlyWrites W S s := by
  unfold ptpServo; simp [w_now, w_free, w_emit, w_cmd, w_time, w_flow, w_vec]

@[simp] theorem ptpTake_writes (W : List Block) (S : State) (d port : Nat) (pin origin corr rate : Int) (s : State)
    (w_now : Block.now ∈ W) (w_free : Block.free ∈ W) (w_emit : Block.emit ∈ W) (w_cmd : Block.cmd ∈ W)
    (w_time : Block.time ∈ W) (w_flow : Block.flow ∈ W) (w_vec : Block.vec ∈ W) :
    OnlyWrites W S (ptpTake d port pin origin corr rate s) ↔ OnlyWrites W S s := by
  unfold ptpTake; (repeat' split) <;> simp [w_now, w_free, w_emit, w_cmd, w_time, w_flow, w_vec]

@[simp] theorem ptpSync_writes (W : List Block) (S : State) (d port : Nat) (m : PtpSync) (s : State)
    (w_now : Block.now ∈ W) (w_free : Block.free ∈ W) (w_emit : Block.emit ∈ W) (w_cmd : Block.cmd ∈ W)
    (w_time : Block.time ∈ W) (w_flow : Block.flow ∈ W) (w_vec : Block.vec ∈ W) :
    OnlyWrites W S (ptpSync d port m s) ↔ OnlyWrites W S s := by
  unfold ptpSync; simp [w_now, w_free, w_emit, w_cmd, w_time, w_flow, w_vec]

@[simp] theorem ptpFollowUp_writes (W : List Block) (S : State) (d port : Nat) (domain : BitVec 7) (seq : BitVec 16)
    (origin corr rate : Int) (s : State) (w_now : Block.now ∈ W) (w_free : Block.free ∈ W) (w_emit : Block.emit ∈ W)
    (w_cmd : Block.cmd ∈ W) (w_time : Block.time ∈ W) (w_flow : Block.flow ∈ W) (w_vec : Block.vec ∈ W) :
    OnlyWrites W S (ptpFollowUp d port domain seq origin corr rate s) ↔ OnlyWrites W S s := by
  unfold ptpFollowUp; (repeat' split) <;> simp [w_now, w_free, w_emit, w_cmd, w_time, w_flow, w_vec]

@[simp] theorem ptpDelayEnd_writes (W : List Block) (S : State) (port : Nat) (t1Raw t4Raw t2 t3 : Int) (s : State)
    (w_now : Block.now ∈ W) (w_time : Block.time ∈ W) :
    OnlyWrites W S (ptpDelayEnd port t1Raw t4Raw t2 t3 s) ↔ OnlyWrites W S s := by
  unfold ptpDelayEnd; simp [w_now, w_time]

@[simp] theorem ptpTimed_writes (W : List Block) (S : State) (port : Nat) (m : PtpTimed) (s : State)
    (w_now : Block.now ∈ W) (w_free : Block.free ∈ W) (w_emit : Block.emit ∈ W) (w_cmd : Block.cmd ∈ W)
    (w_time : Block.time ∈ W) (w_flow : Block.flow ∈ W) (w_vec : Block.vec ∈ W) :
    OnlyWrites W S (ptpTimed port m s) ↔ OnlyWrites W S s := by
  unfold ptpTimed; (repeat' split) <;> simp [w_now, w_free, w_emit, w_cmd, w_time, w_flow, w_vec]

theorem execPtpSyncRx_writes (W : List Block) (S : State) (dt : Nat) (port : Fin 16) (m : PtpTimed) (s : State)
    (w_now : Block.now ∈ W) (w_clk : Block.clk ∈ W) (w_free : Block.free ∈ W) (w_emit : Block.emit ∈ W)
    (w_cmd : Block.cmd ∈ W) (w_time : Block.time ∈ W) (w_flow : Block.flow ∈ W) (w_vec : Block.vec ∈ W) :
    ∃ u, execPtpSyncRx dt port m s = .next u ∧ (OnlyWrites W S u ↔ OnlyWrites W S s) := by
  unfold execPtpSyncRx; exact ⟨_, rfl, by simp [w_now, w_clk, w_free, w_emit, w_cmd, w_time, w_flow, w_vec]⟩

@[simp] theorem ptpTimeout_writes (W : List Block) (S : State) (d : Nat) (announce : Bool) (s : State)
    (w_now : Block.now ∈ W) (w_emit : Block.emit ∈ W) (w_cmd : Block.cmd ∈ W) (w_time : Block.time ∈ W)
    (w_flow : Block.flow ∈ W) (w_vec : Block.vec ∈ W) :
    OnlyWrites W S (ptpTimeout d announce s) ↔ OnlyWrites W S s := by
  unfold ptpTimeout; simp [w_now, w_emit, w_cmd, w_time, w_flow, w_vec]

theorem execPtpSyncTimeout_writes (W : List Block) (S : State) (dt : Nat) (inst : Fin 2) (announce : Bool) (s : State)
    (w_now : Block.now ∈ W) (w_clk : Block.clk ∈ W) (w_emit : Block.emit ∈ W) (w_cmd : Block.cmd ∈ W)
    (w_time : Block.time ∈ W) (w_flow : Block.flow ∈ W) (w_vec : Block.vec ∈ W) :
    ∃ u, execPtpSyncTimeout dt inst announce s = .next u ∧ (OnlyWrites W S u ↔ OnlyWrites W S s) := by
  unfold execPtpSyncTimeout; exact ⟨_, rfl, by simp [w_now, w_clk, w_emit, w_cmd, w_time, w_flow, w_vec]⟩

@[simp] theorem ptpTwoStep_writes (W : List Block) (S : State) (d : Fin 2) (stamp : Int → Int × Int) (n : Nat)
    (s : State) (w_now : Block.now ∈ W) (w_emit : Block.emit ∈ W) (w_time : Block.time ∈ W) :
    OnlyWrites W S (ptpTwoStep d stamp n s) ↔ OnlyWrites W S s := by
  unfold ptpTwoStep; dsimp only; (repeat' split) <;> simp_all [w_now, w_emit, w_time]

@[simp] theorem ptpSend_writes (W : List Block) (S : State) (d : Fin 2) (k : PtpKind) (s : State)
    (w_emit : Block.emit ∈ W) (w_now : Block.now ∈ W) (w_time : Block.time ∈ W) :
    OnlyWrites W S (ptpSend d k s) ↔ OnlyWrites W S s := by
  unfold ptpSend; dsimp only; (repeat' split) <;> simp [w_now, w_time, w_emit]

theorem execPtpMessageSend_writes (W : List Block) (S : State) (dt : Nat) (inst : Fin 2) (kind : PtpKind) (s : State)
    (w_now : Block.now ∈ W) (w_clk : Block.clk ∈ W) (w_emit : Block.emit ∈ W) (w_time : Block.time ∈ W) :
    ∃ u, execPtpMessageSend dt inst kind s = .next u ∧ (OnlyWrites W S u ↔ OnlyWrites W S s) := by
  unfold execPtpMessageSend; exact ⟨_, rfl, by simp [w_time, w_now, w_clk, w_emit]⟩

theorem execTcxoStop_writes (W : List Block) (S : State) (dt : Nat) (s : State) (w_now : Block.now ∈ W)
    (w_clk : Block.clk ∈ W) (w_emit : Block.emit ∈ W) (w_cmd : Block.cmd ∈ W) (w_trunk : Block.trunk ∈ W)
    (w_ina : Block.ina ∈ W) (w_time : Block.time ∈ W) (w_flow : Block.flow ∈ W) (w_twin : Block.twin ∈ W)
    (w_vec : Block.vec ∈ W) :
    ∃ u, execTcxoStop dt s = .next u ∧ (OnlyWrites W S u ↔ OnlyWrites W S s) := by
  unfold execTcxoStop; exact ⟨_, rfl, by simp [w_now, w_clk, w_emit, w_cmd, w_trunk, w_ina, w_time, w_flow, w_twin, w_vec]⟩

theorem execTcxoRestart_writes (W : List Block) (S : State) (dt : Nat) (s : State) (w_now : Block.now ∈ W)
    (w_clk : Block.clk ∈ W) (w_emit : Block.emit ∈ W) (w_time : Block.time ∈ W) :
    ∃ u, execTcxoRestart dt s = .next u ∧ (OnlyWrites W S u ↔ OnlyWrites W S s) := by
  unfold execTcxoRestart; exact ⟨_, rfl, by simp [w_now, w_clk, w_emit, w_time]⟩

@[simp] theorem timeStatusBody_writes (W : List Block) (S : State) (r : Ring) (s : State) (w_now : Block.now ∈ W)
    (w_time : Block.time ∈ W) :
    OnlyWrites W S (timeStatusBody r s).2 ↔ OnlyWrites W S s := by
  unfold timeStatusBody; simp [w_now, w_time]

@[simp] theorem timeSetBody_writes (W : List Block) (S : State) (r : Ring) (s : State) (w_now : Block.now ∈ W)
    (w_emit : Block.emit ∈ W) (w_cmd : Block.cmd ∈ W) (w_trunk : Block.trunk ∈ W) (w_time : Block.time ∈ W)
    (w_flow : Block.flow ∈ W) (w_vec : Block.vec ∈ W) :
    OnlyWrites W S (timeSetBody r s).2 ↔ OnlyWrites W S s := by
  unfold timeSetBody; simp [w_now, w_emit, w_cmd, w_trunk, w_time, w_flow, w_vec]

@[simp] theorem timePtpConfigBody_writes (W : List Block) (S : State) (r : Ring) (s : State) (w_now : Block.now ∈ W)
    (w_time : Block.time ∈ W) :
    OnlyWrites W S (timePtpConfigBody r s).2 ↔ OnlyWrites W S s := by
  unfold timePtpConfigBody; simp [w_now, w_time]

@[simp] theorem ptpCancel_writes (W : List Block) (S : State) (d : Nat) (s : State) (w_now : Block.now ∈ W)
    (w_time : Block.time ∈ W) :
    OnlyWrites W S (ptpCancel d s) ↔ OnlyWrites W S s := by
  unfold ptpCancel; simp [w_now, w_time]

@[simp] theorem timeDomainPolicyBody_writes (W : List Block) (S : State) (r : Ring) (s : State) (w_now : Block.now ∈ W)
    (w_emit : Block.emit ∈ W) (w_cmd : Block.cmd ∈ W) (w_time : Block.time ∈ W) (w_flow : Block.flow ∈ W)
    (w_vec : Block.vec ∈ W) :
    OnlyWrites W S (timeDomainPolicyBody r s).2 ↔ OnlyWrites W S s := by
  unfold timeDomainPolicyBody; simp [w_now, w_emit, w_cmd, w_time, w_flow, w_vec]

@[simp] theorem timeSteerBody_writes (W : List Block) (S : State) (r : Ring) (s : State) (w_now : Block.now ∈ W)
    (w_time : Block.time ∈ W) :
    OnlyWrites W S (timeSteerBody r s).2 ↔ OnlyWrites W S s := by
  unfold timeSteerBody; simp [w_now, w_time]

@[simp] theorem timePtpStatusBody_writes (W : List Block) (S : State) (r : Ring) (s : State) (w_now : Block.now ∈ W)
    (w_time : Block.time ∈ W) :
    OnlyWrites W S (timePtpStatusBody r s).2 ↔ OnlyWrites W S s := by
  unfold timePtpStatusBody; simp [w_now, w_time]

theorem execTimeStatus_writes (W : List Block) (S : State) (dt : Nat) (r : Ring) (s : State) (w_now : Block.now ∈ W)
    (w_clk : Block.clk ∈ W) (w_free : Block.free ∈ W) (w_emit : Block.emit ∈ W) (w_sys : Block.sys ∈ W)
    (w_mbx : Block.mbx ∈ W) (w_cmd : Block.cmd ∈ W) (w_time : Block.time ∈ W) (w_vec : Block.vec ∈ W)
    (w_shelf : Block.shelf ∈ W) :
    ∃ u, execTimeStatus dt r s = .next u ∧ (OnlyWrites W S u ↔ OnlyWrites W S s) := by
  unfold execTimeStatus; exact ⟨_, rfl, by simp [w_now, w_clk, w_free, w_emit, w_sys, w_mbx, w_cmd, w_time, w_vec, w_shelf]⟩

theorem execTimeSet_writes (W : List Block) (S : State) (dt : Nat) (r : Ring) (s : State) (w_now : Block.now ∈ W)
    (w_clk : Block.clk ∈ W) (w_free : Block.free ∈ W) (w_emit : Block.emit ∈ W) (w_sys : Block.sys ∈ W)
    (w_mbx : Block.mbx ∈ W) (w_cmd : Block.cmd ∈ W) (w_trunk : Block.trunk ∈ W) (w_time : Block.time ∈ W)
    (w_flow : Block.flow ∈ W) (w_vec : Block.vec ∈ W) (w_shelf : Block.shelf ∈ W) :
    ∃ u, execTimeSet dt r s = .next u ∧ (OnlyWrites W S u ↔ OnlyWrites W S s) := by
  unfold execTimeSet; exact ⟨_, rfl, by simp [w_now, w_clk, w_free, w_emit, w_sys, w_mbx, w_cmd, w_trunk, w_time, w_flow, w_vec, w_shelf]⟩

theorem execTimePtpConfig_writes (W : List Block) (S : State) (dt : Nat) (r : Ring) (s : State) (w_now : Block.now ∈ W)
    (w_clk : Block.clk ∈ W) (w_free : Block.free ∈ W) (w_emit : Block.emit ∈ W) (w_sys : Block.sys ∈ W)
    (w_mbx : Block.mbx ∈ W) (w_cmd : Block.cmd ∈ W) (w_time : Block.time ∈ W) (w_vec : Block.vec ∈ W)
    (w_shelf : Block.shelf ∈ W) :
    ∃ u, execTimePtpConfig dt r s = .next u ∧ (OnlyWrites W S u ↔ OnlyWrites W S s) := by
  unfold execTimePtpConfig; exact ⟨_, rfl, by simp [w_now, w_clk, w_free, w_emit, w_sys, w_mbx, w_cmd, w_time, w_vec, w_shelf]⟩

theorem execTimeDomainPolicy_writes (W : List Block) (S : State) (dt : Nat) (r : Ring) (s : State)
    (w_now : Block.now ∈ W) (w_clk : Block.clk ∈ W) (w_free : Block.free ∈ W) (w_emit : Block.emit ∈ W)
    (w_sys : Block.sys ∈ W) (w_mbx : Block.mbx ∈ W) (w_cmd : Block.cmd ∈ W) (w_time : Block.time ∈ W)
    (w_flow : Block.flow ∈ W) (w_vec : Block.vec ∈ W) (w_shelf : Block.shelf ∈ W) :
    ∃ u, execTimeDomainPolicy dt r s = .next u ∧ (OnlyWrites W S u ↔ OnlyWrites W S s) := by
  unfold execTimeDomainPolicy; exact ⟨_, rfl, by simp [w_now, w_clk, w_free, w_emit, w_sys, w_mbx, w_cmd, w_time, w_flow, w_vec, w_shelf]⟩

theorem execTimeSteer_writes (W : List Block) (S : State) (dt : Nat) (r : Ring) (s : State) (w_now : Block.now ∈ W)
    (w_clk : Block.clk ∈ W) (w_free : Block.free ∈ W) (w_emit : Block.emit ∈ W) (w_sys : Block.sys ∈ W)
    (w_mbx : Block.mbx ∈ W) (w_cmd : Block.cmd ∈ W) (w_time : Block.time ∈ W) (w_vec : Block.vec ∈ W)
    (w_shelf : Block.shelf ∈ W) :
    ∃ u, execTimeSteer dt r s = .next u ∧ (OnlyWrites W S u ↔ OnlyWrites W S s) := by
  unfold execTimeSteer; exact ⟨_, rfl, by simp [w_now, w_clk, w_free, w_emit, w_sys, w_mbx, w_cmd, w_time, w_vec, w_shelf]⟩

theorem execTimePtpStatus_writes (W : List Block) (S : State) (dt : Nat) (r : Ring) (s : State) (w_now : Block.now ∈ W)
    (w_clk : Block.clk ∈ W) (w_free : Block.free ∈ W) (w_emit : Block.emit ∈ W) (w_sys : Block.sys ∈ W)
    (w_mbx : Block.mbx ∈ W) (w_cmd : Block.cmd ∈ W) (w_time : Block.time ∈ W) (w_vec : Block.vec ∈ W)
    (w_shelf : Block.shelf ∈ W) :
    ∃ u, execTimePtpStatus dt r s = .next u ∧ (OnlyWrites W S u ↔ OnlyWrites W S s) := by
  unfold execTimePtpStatus; exact ⟨_, rfl, by simp [w_now, w_clk, w_free, w_emit, w_sys, w_mbx, w_cmd, w_time, w_vec, w_shelf]⟩

@[simp] theorem modRec_writes (W : List Block) (S : State) (f : Rec → Rec) (s : State) (w_flow : Block.flow ∈ W) :
    OnlyWrites W S (modRec f s) ↔ OnlyWrites W S s := by
  unfold modRec; simp [w_flow]

@[simp] theorem recStatusBody_writes (W : List Block) (S : State) (_r : Ring) (s : State) :
    OnlyWrites W S (recStatusBody _r s).2 ↔ OnlyWrites W S s := by
  unfold recStatusBody; simp

@[simp] theorem recConfigBody_writes (W : List Block) (S : State) (r : Ring) (s : State) (w_flow : Block.flow ∈ W) :
    OnlyWrites W S (recConfigBody r s).2 ↔ OnlyWrites W S s := by
  unfold recConfigBody; simp [w_flow]

@[simp] theorem caskRefused_writes (W : List Block) (S : State) (type : BitVec 16) (s : State)
    (w_emit : Block.emit ∈ W) (w_cmd : Block.cmd ∈ W) (w_flow : Block.flow ∈ W) (w_vec : Block.vec ∈ W) :
    OnlyWrites W S (caskRefused type s) ↔ OnlyWrites W S s := by
  unfold caskRefused; (repeat' split) <;> simp_all [w_emit, w_cmd, w_flow, w_vec]

@[simp] theorem recTriggerBody_writes (W : List Block) (S : State) (r : Ring) (s : State) (w_flow : Block.flow ∈ W) (w_emit : Block.emit ∈ W) (w_cmd : Block.cmd ∈ W) (w_vec : Block.vec ∈ W) :
    OnlyWrites W S (recTriggerBody r s).2 ↔ OnlyWrites W S s := by
  unfold recTriggerBody; (repeat' split) <;> simp [w_emit, w_cmd, w_vec, w_flow]

@[simp] theorem recCaskBody_writes (W : List Block) (S : State) (r : Ring) (s : State) :
    OnlyWrites W S (recCaskBody r s).2 ↔ OnlyWrites W S s := by
  unfold recCaskBody; dsimp only; (repeat' split) <;> simp

@[simp] theorem recReleaseBody_writes (W : List Block) (S : State) (r : Ring) (s : State) (w_flow : Block.flow ∈ W) :
    OnlyWrites W S (recReleaseBody r s).2 ↔ OnlyWrites W S s := by
  unfold recReleaseBody; simp [w_flow]

@[simp] theorem recPageBody_writes (W : List Block) (S : State) (r : Ring) (s : State) (w_flow : Block.flow ∈ W) :
    OnlyWrites W S (recPageBody r s).2 ↔ OnlyWrites W S s := by
  unfold recPageBody; simp [w_flow]

theorem execRecStatus_writes (W : List Block) (S : State) (dt : Nat) (r : Ring) (s : State) (w_now : Block.now ∈ W)
    (w_clk : Block.clk ∈ W) (w_free : Block.free ∈ W) (w_emit : Block.emit ∈ W) (w_sys : Block.sys ∈ W)
    (w_mbx : Block.mbx ∈ W) (w_cmd : Block.cmd ∈ W) (w_vec : Block.vec ∈ W) (w_shelf : Block.shelf ∈ W) :
    ∃ u, execRecStatus dt r s = .next u ∧ (OnlyWrites W S u ↔ OnlyWrites W S s) := by
  unfold execRecStatus; exact ⟨_, rfl, by simp [w_now, w_clk, w_free, w_emit, w_sys, w_mbx, w_cmd, w_vec, w_shelf]⟩

theorem execRecConfig_writes (W : List Block) (S : State) (dt : Nat) (r : Ring) (s : State) (w_now : Block.now ∈ W)
    (w_clk : Block.clk ∈ W) (w_free : Block.free ∈ W) (w_emit : Block.emit ∈ W) (w_sys : Block.sys ∈ W)
    (w_mbx : Block.mbx ∈ W) (w_cmd : Block.cmd ∈ W) (w_flow : Block.flow ∈ W) (w_vec : Block.vec ∈ W)
    (w_shelf : Block.shelf ∈ W) :
    ∃ u, execRecConfig dt r s = .next u ∧ (OnlyWrites W S u ↔ OnlyWrites W S s) := by
  unfold execRecConfig; exact ⟨_, rfl, by simp [w_now, w_clk, w_free, w_emit, w_sys, w_mbx, w_cmd, w_flow, w_vec, w_shelf]⟩

theorem execRecTrigger_writes (W : List Block) (S : State) (dt : Nat) (r : Ring) (s : State) (w_now : Block.now ∈ W)
    (w_clk : Block.clk ∈ W) (w_free : Block.free ∈ W) (w_emit : Block.emit ∈ W) (w_sys : Block.sys ∈ W)
    (w_mbx : Block.mbx ∈ W) (w_cmd : Block.cmd ∈ W) (w_flow : Block.flow ∈ W) (w_vec : Block.vec ∈ W)
    (w_shelf : Block.shelf ∈ W) :
    ∃ u, execRecTrigger dt r s = .next u ∧ (OnlyWrites W S u ↔ OnlyWrites W S s) := by
  unfold execRecTrigger; exact ⟨_, rfl, by simp [w_now, w_clk, w_free, w_emit, w_sys, w_mbx, w_cmd, w_flow, w_vec, w_shelf]⟩

theorem execRecCask_writes (W : List Block) (S : State) (dt : Nat) (r : Ring) (s : State) (w_now : Block.now ∈ W)
    (w_clk : Block.clk ∈ W) (w_free : Block.free ∈ W) (w_emit : Block.emit ∈ W) (w_sys : Block.sys ∈ W)
    (w_mbx : Block.mbx ∈ W) (w_cmd : Block.cmd ∈ W) (w_vec : Block.vec ∈ W) (w_shelf : Block.shelf ∈ W) :
    ∃ u, execRecCask dt r s = .next u ∧ (OnlyWrites W S u ↔ OnlyWrites W S s) := by
  unfold execRecCask; exact ⟨_, rfl, by simp [w_now, w_clk, w_free, w_emit, w_sys, w_mbx, w_cmd, w_vec, w_shelf]⟩

theorem execRecRelease_writes (W : List Block) (S : State) (dt : Nat) (r : Ring) (s : State) (w_now : Block.now ∈ W)
    (w_clk : Block.clk ∈ W) (w_free : Block.free ∈ W) (w_emit : Block.emit ∈ W) (w_sys : Block.sys ∈ W)
    (w_mbx : Block.mbx ∈ W) (w_cmd : Block.cmd ∈ W) (w_flow : Block.flow ∈ W) (w_vec : Block.vec ∈ W)
    (w_shelf : Block.shelf ∈ W) :
    ∃ u, execRecRelease dt r s = .next u ∧ (OnlyWrites W S u ↔ OnlyWrites W S s) := by
  unfold execRecRelease; exact ⟨_, rfl, by simp [w_now, w_clk, w_free, w_emit, w_sys, w_mbx, w_cmd, w_flow, w_vec, w_shelf]⟩

theorem execRecPage_writes (W : List Block) (S : State) (dt : Nat) (r : Ring) (s : State) (w_now : Block.now ∈ W)
    (w_clk : Block.clk ∈ W) (w_free : Block.free ∈ W) (w_emit : Block.emit ∈ W) (w_sys : Block.sys ∈ W)
    (w_mbx : Block.mbx ∈ W) (w_cmd : Block.cmd ∈ W) (w_flow : Block.flow ∈ W) (w_vec : Block.vec ∈ W)
    (w_shelf : Block.shelf ∈ W) :
    ∃ u, execRecPage dt r s = .next u ∧ (OnlyWrites W S u ↔ OnlyWrites W S s) := by
  unfold execRecPage; exact ⟨_, rfl, by simp [w_now, w_clk, w_free, w_emit, w_sys, w_mbx, w_cmd, w_flow, w_vec, w_shelf]⟩

@[simp] theorem topoStatusBody_writes (W : List Block) (S : State) (r : Ring) (s : State) (w_ina : Block.ina ∈ W) :
    OnlyWrites W S (topoStatusBody r s).2 ↔ OnlyWrites W S s := by
  unfold topoStatusBody; simp [w_ina]

@[simp] theorem topoDirectoryBody_writes (W : List Block) (S : State) (r : Ring) (s : State) :
    OnlyWrites W S (topoDirectoryBody r s).2 ↔ OnlyWrites W S s := by
  unfold topoDirectoryBody; dsimp only; (repeat' split) <;> simp

@[simp] theorem topoPositionMapBody_writes (W : List Block) (S : State) (_r : Ring) (s : State) :
    OnlyWrites W S (topoPositionMapBody _r s).2 ↔ OnlyWrites W S s := by
  unfold topoPositionMapBody; simp

@[simp] theorem topoSetLeadingBody_writes (W : List Block) (S : State) (r : Ring) (s : State) (w_emit : Block.emit ∈ W)
    (w_cmd : Block.cmd ∈ W) (w_ina : Block.ina ∈ W) (w_flow : Block.flow ∈ W) (w_vec : Block.vec ∈ W) :
    OnlyWrites W S (topoSetLeadingBody r s).2 ↔ OnlyWrites W S s := by
  unfold topoSetLeadingBody; simp [w_emit, w_cmd, w_ina, w_flow, w_vec]

@[simp] theorem topoSetIdentityBody_writes (W : List Block) (S : State) (r : Ring) (s : State) (w_ina : Block.ina ∈ W) :
    OnlyWrites W S (topoSetIdentityBody r s).2 ↔ OnlyWrites W S s := by
  unfold topoSetIdentityBody; simp [w_ina]

@[simp] theorem topoColdStartBody_writes (W : List Block) (S : State) (_r : Ring) (s : State) (w_now : Block.now ∈ W)
    (w_emit : Block.emit ∈ W) (w_cmd : Block.cmd ∈ W) (w_ina : Block.ina ∈ W) (w_time : Block.time ∈ W)
    (w_flow : Block.flow ∈ W) (w_twin : Block.twin ∈ W) (w_vec : Block.vec ∈ W) :
    OnlyWrites W S (topoColdStartBody _r s).2 ↔ OnlyWrites W S s := by
  unfold topoColdStartBody; simp [w_now, w_emit, w_cmd, w_ina, w_time, w_flow, w_twin, w_vec]

theorem execTopoStatus_writes (W : List Block) (S : State) (dt : Nat) (r : Ring) (s : State) (w_now : Block.now ∈ W)
    (w_clk : Block.clk ∈ W) (w_free : Block.free ∈ W) (w_emit : Block.emit ∈ W) (w_sys : Block.sys ∈ W)
    (w_mbx : Block.mbx ∈ W) (w_cmd : Block.cmd ∈ W) (w_ina : Block.ina ∈ W) (w_vec : Block.vec ∈ W)
    (w_shelf : Block.shelf ∈ W) :
    ∃ u, execTopoStatus dt r s = .next u ∧ (OnlyWrites W S u ↔ OnlyWrites W S s) := by
  unfold execTopoStatus; exact ⟨_, rfl, by simp [w_now, w_clk, w_free, w_emit, w_sys, w_mbx, w_cmd, w_ina, w_vec, w_shelf]⟩

theorem execTopoDirectory_writes (W : List Block) (S : State) (dt : Nat) (r : Ring) (s : State) (w_now : Block.now ∈ W)
    (w_clk : Block.clk ∈ W) (w_free : Block.free ∈ W) (w_emit : Block.emit ∈ W) (w_sys : Block.sys ∈ W)
    (w_mbx : Block.mbx ∈ W) (w_cmd : Block.cmd ∈ W) (w_vec : Block.vec ∈ W) (w_shelf : Block.shelf ∈ W) :
    ∃ u, execTopoDirectory dt r s = .next u ∧ (OnlyWrites W S u ↔ OnlyWrites W S s) := by
  unfold execTopoDirectory; exact ⟨_, rfl, by simp [w_now, w_clk, w_free, w_emit, w_sys, w_mbx, w_cmd, w_vec, w_shelf]⟩

theorem execTopoPositionMap_writes (W : List Block) (S : State) (dt : Nat) (r : Ring) (s : State)
    (w_now : Block.now ∈ W) (w_clk : Block.clk ∈ W) (w_free : Block.free ∈ W) (w_emit : Block.emit ∈ W)
    (w_sys : Block.sys ∈ W) (w_mbx : Block.mbx ∈ W) (w_cmd : Block.cmd ∈ W) (w_vec : Block.vec ∈ W)
    (w_shelf : Block.shelf ∈ W) :
    ∃ u, execTopoPositionMap dt r s = .next u ∧ (OnlyWrites W S u ↔ OnlyWrites W S s) := by
  unfold execTopoPositionMap; exact ⟨_, rfl, by simp [w_now, w_clk, w_free, w_emit, w_sys, w_mbx, w_cmd, w_vec, w_shelf]⟩

theorem execTopoSetLeading_writes (W : List Block) (S : State) (dt : Nat) (r : Ring) (s : State) (w_now : Block.now ∈ W)
    (w_clk : Block.clk ∈ W) (w_free : Block.free ∈ W) (w_emit : Block.emit ∈ W) (w_sys : Block.sys ∈ W)
    (w_mbx : Block.mbx ∈ W) (w_cmd : Block.cmd ∈ W) (w_ina : Block.ina ∈ W) (w_flow : Block.flow ∈ W)
    (w_vec : Block.vec ∈ W) (w_shelf : Block.shelf ∈ W) :
    ∃ u, execTopoSetLeading dt r s = .next u ∧ (OnlyWrites W S u ↔ OnlyWrites W S s) := by
  unfold execTopoSetLeading; exact ⟨_, rfl, by simp [w_now, w_clk, w_free, w_emit, w_sys, w_mbx, w_cmd, w_ina, w_flow, w_vec, w_shelf]⟩

theorem execTopoSetIdentity_writes (W : List Block) (S : State) (dt : Nat) (r : Ring) (s : State)
    (w_now : Block.now ∈ W) (w_clk : Block.clk ∈ W) (w_free : Block.free ∈ W) (w_emit : Block.emit ∈ W)
    (w_sys : Block.sys ∈ W) (w_mbx : Block.mbx ∈ W) (w_cmd : Block.cmd ∈ W) (w_ina : Block.ina ∈ W)
    (w_vec : Block.vec ∈ W) (w_shelf : Block.shelf ∈ W) :
    ∃ u, execTopoSetIdentity dt r s = .next u ∧ (OnlyWrites W S u ↔ OnlyWrites W S s) := by
  unfold execTopoSetIdentity; exact ⟨_, rfl, by simp [w_now, w_clk, w_free, w_emit, w_sys, w_mbx, w_cmd, w_ina, w_vec, w_shelf]⟩

theorem execTopoColdStart_writes (W : List Block) (S : State) (dt : Nat) (r : Ring) (s : State) (w_now : Block.now ∈ W)
    (w_clk : Block.clk ∈ W) (w_free : Block.free ∈ W) (w_emit : Block.emit ∈ W) (w_sys : Block.sys ∈ W)
    (w_mbx : Block.mbx ∈ W) (w_cmd : Block.cmd ∈ W) (w_ina : Block.ina ∈ W) (w_time : Block.time ∈ W)
    (w_flow : Block.flow ∈ W) (w_twin : Block.twin ∈ W) (w_vec : Block.vec ∈ W) (w_shelf : Block.shelf ∈ W) :
    ∃ u, execTopoColdStart dt r s = .next u ∧ (OnlyWrites W S u ↔ OnlyWrites W S s) := by
  unfold execTopoColdStart; exact ⟨_, rfl, by simp [w_now, w_clk, w_free, w_emit, w_sys, w_mbx, w_cmd, w_ina, w_time, w_flow, w_twin, w_vec, w_shelf]⟩

@[simp] theorem rescalePrep_writes (W : List Block) (S : State) (old new : Nat) (s : State) (w_ina : Block.ina ∈ W) :
    OnlyWrites W S (rescalePrep old new s) ↔ OnlyWrites W S s := by
  unfold rescalePrep; dsimp only; (repeat' split) <;> simp_all [w_ina]

@[simp] theorem pathClose_writes (W : List Block) (S : State) (s : State) (w_sched : Block.sched ∈ W) :
    OnlyWrites W S (pathClose s) ↔ OnlyWrites W S s := by
  unfold pathClose; dsimp only; (repeat' split) <;> simp_all [w_sched]

@[simp] theorem fabricFlow_writes (W : List Block) (S : State) (i : Nat) (c : FlowCtx) (s : State)
    (w_emit : Block.emit ∈ W) (w_flow : Block.flow ∈ W) (w_fab : Block.fab ∈ W) :
    OnlyWrites W S (fabricFlow i c s) ↔ OnlyWrites W S s := by
  unfold fabricFlow; dsimp only; (repeat' split) <;> simp_all [w_emit, w_flow, w_fab]

@[simp] theorem lineFlow_writes (W : List Block) (S : State) (ctx : Option Nat) (f : FlowFrame) (b : Bool) (s : State)
    (w_trunk : Block.trunk ∈ W) (w_sched : Block.sched ∈ W) :
    OnlyWrites W S (lineFlow ctx f b s) ↔ OnlyWrites W S s := by
  unfold lineFlow; dsimp only; (repeat' split) <;> simp_all [w_trunk, w_sched]

@[simp] theorem dropWithheld_writes (W : List Block) (S : State) (s : State) (w_trunk : Block.trunk ∈ W) :
    OnlyWrites W S (dropWithheld s) ↔ OnlyWrites W S s := by
  unfold dropWithheld; (repeat' split) <;> simp_all [w_trunk]

@[simp] theorem ptpStart_writes (W : List Block) (S : State) (d : Nat) (s : State) (w_now : Block.now ∈ W)
    (w_emit : Block.emit ∈ W) (w_cmd : Block.cmd ∈ W) (w_time : Block.time ∈ W) (w_flow : Block.flow ∈ W)
    (w_vec : Block.vec ∈ W) :
    OnlyWrites W S (ptpStart d s) ↔ OnlyWrites W S s := by
  unfold ptpStart; dsimp only; (repeat' split) <;> simp_all [w_now, w_emit, w_cmd, w_time, w_flow, w_vec]

end Sys2Proof.Machine
end

