-- ==== Sys2Proof/Laws/WritesNode.lean ====
section
/-! SUPPORT. Fabric, bridge, power and self-repair: which parts of a state they may write. -/

namespace Sys2Proof.Machine

@[simp] theorem checkRelease_writes (W : List Block) (S : State) (s : State) (w_flow : Block.flow ∈ W) :
    OnlyWrites W S (checkRelease s) ↔ OnlyWrites W S s := by
  unfold checkRelease; simp [w_flow]

@[simp] theorem setRelease_writes (W : List Block) (S : State) (bit : Nat) (s : State) (w_flow : Block.flow ∈ W) :
    OnlyWrites W S (setRelease bit s) ↔ OnlyWrites W S s := by
  unfold setRelease; simp [w_flow]

@[simp] theorem modRep_writes (W : List Block) (S : State) (f : Rep → Rep) (s : State) (w_rep : Block.rep ∈ W) :
    OnlyWrites W S (modRep f s) ↔ OnlyWrites W S s := by
  unfold modRep; simp [w_rep]

@[simp] theorem repCount_writes (W : List Block) (S : State) (i : Nat) (s : State) (w_rep : Block.rep ∈ W) :
    OnlyWrites W S (repCount i s) ↔ OnlyWrites W S s := by
  unfold repCount; simp [w_rep]

@[simp] theorem modLsk_writes (W : List Block) (S : State) (f : Lsk → Lsk) (s : State) (w_lsk : Block.lsk ∈ W) :
    OnlyWrites W S (modLsk f s) ↔ OnlyWrites W S s := by
  unfold modLsk; simp [w_lsk]

@[simp] theorem repairEntry_writes (W : List Block) (S : State) (cls loc left : Nat) (atStart : Bool) (s : State)
    (w_emit : Block.emit ∈ W) (w_cmd : Block.cmd ∈ W) (w_flow : Block.flow ∈ W) (w_vec : Block.vec ∈ W)
    (w_rep : Block.rep ∈ W) :
    OnlyWrites W S (repairEntry cls loc left atStart s) ↔ OnlyWrites W S s := by
  unfold repairEntry; simp [w_emit, w_cmd, w_flow, w_vec, w_rep]

@[simp] theorem reserveEmpty_writes (W : List Block) (S : State) (bit before after : Nat) (s : State)
    (w_emit : Block.emit ∈ W) (w_cmd : Block.cmd ∈ W) (w_flow : Block.flow ∈ W) (w_vec : Block.vec ∈ W) :
    OnlyWrites W S (reserveEmpty bit before after s) ↔ OnlyWrites W S s := by
  unfold reserveEmpty; simp [w_emit, w_cmd, w_flow, w_vec]

@[simp] theorem retirePair_writes (W : List Block) (S : State) (p : Nat) (atStart : Bool) (s : State)
    (w_emit : Block.emit ∈ W) (w_cmd : Block.cmd ∈ W) (w_flow : Block.flow ∈ W) (w_vec : Block.vec ∈ W)
    (w_rep : Block.rep ∈ W) :
    OnlyWrites W S (retirePair p atStart s) ↔ OnlyWrites W S s := by
  unfold retirePair; simp [w_emit, w_cmd, w_flow, w_vec, w_rep]

@[simp] theorem readsCome_writes (W : List Block) (S : State) (l core : Nat) (r : List ReadIn) (s : State)
    (w_lsk : Block.lsk ∈ W) :
    OnlyWrites W S (readsCome l core r s) ↔ OnlyWrites W S s := by
  unfold readsCome; (repeat' split) <;> simp_all [w_lsk]

@[simp] theorem readComes_writes (W : List Block) (S : State) (l : Fin 4) (r : ReadIn) (s : State)
    (w_lsk : Block.lsk ∈ W) :
    OnlyWrites W S (readComes l r s) ↔ OnlyWrites W S s := by
  unfold readComes; simp [w_lsk]

@[simp] theorem twinLinks_writes (W : List Block) (S : State) (h : Heartbeat) (s : State) (w_emit : Block.emit ∈ W) :
    OnlyWrites W S (twinLinks h s) ↔ OnlyWrites W S s := by
  unfold twinLinks; simp [w_emit]

@[simp] theorem heartbeatFrame_writes (W : List Block) (S : State) (h : Heartbeat) (s : State)
    (w_trunk : Block.trunk ∈ W) (w_sched : Block.sched ∈ W) :
    OnlyWrites W S (heartbeatFrame h s) ↔ OnlyWrites W S s := by
  unfold heartbeatFrame; split <;> simp [w_trunk, w_sched]

@[simp] theorem sendHeartbeats_writes (W : List Block) (S : State) (s : State) (w_emit : Block.emit ∈ W)
    (w_trunk : Block.trunk ∈ W) (w_sched : Block.sched ∈ W) :
    OnlyWrites W S (sendHeartbeats s) ↔ OnlyWrites W S s := by
  unfold sendHeartbeats; simp [w_emit, w_trunk, w_sched]

theorem acceptPartner_writes (W : List Block) (S : State) (uid : BitVec 64) (vid : BitVec 48) (s t : State)
    (h : acceptPartner uid vid s = some t) (w_twin : Block.twin ∈ W) :
    OnlyWrites W S t ↔ OnlyWrites W S s := by
  unfold acceptPartner at h
  (repeat' split at h) <;> simp [w_twin] at h <;> (try subst h) <;> simp [w_twin]

@[simp] theorem trunkHeartbeat_writes (W : List Block) (S : State) (p : Nat) (t : Int) (s : State)
    (w_sched : Block.sched ∈ W) :
    OnlyWrites W S (trunkHeartbeat p t s).2 ↔ OnlyWrites W S s := by
  unfold trunkHeartbeat; dsimp only; (repeat' split) <;> simp [w_sched]

@[simp] theorem heartbeatIn_writes (W : List Block) (S : State) (tw tr : Bool) (h : Heartbeat) (s : State)
    (w_emit : Block.emit ∈ W) (w_cmd : Block.cmd ∈ W) (w_flow : Block.flow ∈ W) (w_twin : Block.twin ∈ W)
    (w_vec : Block.vec ∈ W) :
    OnlyWrites W S (heartbeatIn tw tr h s) ↔ OnlyWrites W S s := by
  unfold heartbeatIn; (repeat' split) <;> simp [w_emit, w_cmd, w_flow, w_twin, w_vec]

@[simp] theorem takeHeartbeat_writes (W : List Block) (S : State) (tw tr : Bool) (h : Heartbeat) (s : State)
    (w_emit : Block.emit ∈ W) (w_cmd : Block.cmd ∈ W) (w_flow : Block.flow ∈ W) (w_twin : Block.twin ∈ W)
    (w_vec : Block.vec ∈ W) :
    OnlyWrites W S (takeHeartbeat tw tr h s) ↔ OnlyWrites W S s := by
  unfold takeHeartbeat; split
  · rename_i h1
    rw [heartbeatIn_writes _ _ _ _ _ _ w_emit w_cmd w_flow w_twin w_vec, acceptPartner_writes W S _ _ _ _ h1 w_twin]
  · rfl

@[simp] theorem heartbeatPass_writes (W : List Block) (S : State) (p : Nat) (t : Int) (h : Heartbeat) (s : State)
    (w_emit : Block.emit ∈ W) (w_trunk : Block.trunk ∈ W) :
    OnlyWrites W S (heartbeatPass p t h s) ↔ OnlyWrites W S s := by
  unfold heartbeatPass; dsimp only; (repeat' split) <;> simp_all [w_emit, w_trunk]

@[simp] theorem heartbeatTrunk_writes (W : List Block) (S : State) (p : Nat) (t : Int) (h : Heartbeat) (s : State)
    (w_emit : Block.emit ∈ W) (w_cmd : Block.cmd ∈ W) (w_trunk : Block.trunk ∈ W) (w_sched : Block.sched ∈ W)
    (w_flow : Block.flow ∈ W) (w_twin : Block.twin ∈ W) (w_vec : Block.vec ∈ W) :
    OnlyWrites W S (heartbeatTrunk p t h s) ↔ OnlyWrites W S s := by
  unfold heartbeatTrunk; dsimp only; (repeat' split) <;> simp_all [w_emit, w_cmd, w_trunk, w_sched, w_flow, w_twin, w_vec]

@[simp] theorem heartbeatOn_writes (W : List Block) (S : State) (path : HbPath) (h : Heartbeat) (s : State)
    (w_emit : Block.emit ∈ W) (w_cmd : Block.cmd ∈ W) (w_sched : Block.sched ∈ W) (w_flow : Block.flow ∈ W)
    (w_twin : Block.twin ∈ W) (w_vec : Block.vec ∈ W) (w_trunk : Block.trunk ∈ W) :
    OnlyWrites W S (heartbeatOn path h s) ↔ OnlyWrites W S s := by
  unfold heartbeatOn; split <;> simp [w_trunk, w_emit, w_cmd, w_sched, w_flow, w_twin, w_vec]

theorem execHeartbeatRx_writes (W : List Block) (S : State) (dt : Nat) (path : HbPath) (h : Heartbeat) (s : State)
    (w_now : Block.now ∈ W) (w_clk : Block.clk ∈ W) (w_emit : Block.emit ∈ W) (w_cmd : Block.cmd ∈ W)
    (w_sched : Block.sched ∈ W) (w_flow : Block.flow ∈ W) (w_twin : Block.twin ∈ W) (w_vec : Block.vec ∈ W) (w_trunk : Block.trunk ∈ W) :
    ∃ u, execHeartbeatRx dt path h s = .next u ∧ (OnlyWrites W S u ↔ OnlyWrites W S s) := by
  unfold execHeartbeatRx; exact ⟨_, rfl, by simp [w_trunk, w_now, w_clk, w_emit, w_cmd, w_sched, w_flow, w_twin, w_vec]⟩

@[simp] theorem ageAtInstant_writes (W : List Block) (S : State) (s : State) (w_twin : Block.twin ∈ W) :
    OnlyWrites W S (ageAtInstant s) ↔ OnlyWrites W S s := by
  unfold ageAtInstant; simp [w_twin]

@[simp] theorem endSwitchover_writes (W : List Block) (S : State) (status : Nat) (s : State) (w_emit : Block.emit ∈ W)
    (w_cmd : Block.cmd ∈ W) (w_flow : Block.flow ∈ W) (w_twin : Block.twin ∈ W) (w_vec : Block.vec ∈ W) :
    OnlyWrites W S (endSwitchover status s) ↔ OnlyWrites W S s := by
  unfold endSwitchover; simp [w_emit, w_cmd, w_flow, w_twin, w_vec]

@[simp] theorem startActive_writes (W : List Block) (S : State) (s : State) (w_emit : Block.emit ∈ W)
    (w_cmd : Block.cmd ∈ W) (w_flow : Block.flow ∈ W) (w_twin : Block.twin ∈ W) (w_vec : Block.vec ∈ W) :
    OnlyWrites W S (startActive s) ↔ OnlyWrites W S s := by
  unfold startActive; simp [w_emit, w_cmd, w_flow, w_twin, w_vec]

@[simp] theorem putRegion_writes (W : List Block) (S : State) (w : Nat × Nat × List Byte) (s : State)
    (w_twin : Block.twin ∈ W) (w_lsk : Block.lsk ∈ W) :
    OnlyWrites W S (putRegion w s) ↔ OnlyWrites W S s := by
  unfold putRegion; simp [w_twin, w_lsk]

@[simp] theorem writeRegion_writes (W : List Block) (S : State) (w : Nat × Nat × List Byte) (s : State)
    (w_twin : Block.twin ∈ W) (w_lsk : Block.lsk ∈ W) :
    OnlyWrites W S (writeRegion w s) ↔ OnlyWrites W S s := by
  unfold writeRegion; simp [w_twin, w_lsk]

@[simp] theorem drainWaiting_writes (W : List Block) (S : State) (s : State) (w_twin : Block.twin ∈ W)
    (w_lsk : Block.lsk ∈ W) :
    OnlyWrites W S (drainWaiting s) ↔ OnlyWrites W S s := by
  unfold drainWaiting; simp [w_twin, w_lsk]

@[simp] theorem regionSnapshot_writes (W : List Block) (S : State) (s : State) (w_emit : Block.emit ∈ W)
    (w_cmd : Block.cmd ∈ W) (w_flow : Block.flow ∈ W) (w_twin : Block.twin ∈ W) (w_vec : Block.vec ∈ W) :
    OnlyWrites W S (regionSnapshot s) ↔ OnlyWrites W S s := by
  unfold regionSnapshot; simp [w_emit, w_cmd, w_flow, w_twin, w_vec]

@[simp] theorem applyStaging_writes (W : List Block) (S : State) (s : State) (w_twin : Block.twin ∈ W)
    (w_lsk : Block.lsk ∈ W) :
    OnlyWrites W S (applyStaging s) ↔ OnlyWrites W S s := by
  unfold applyStaging; (repeat' split) <;> simp [w_twin, w_lsk]

@[simp] theorem restoreFlow_writes (W : List Block) (S : State) (age : Nat) (s : State) (w_flow : Block.flow ∈ W) :
    OnlyWrites W S (restoreFlow age s) ↔ OnlyWrites W S s := by
  unfold restoreFlow; split
  · rfl
  · rw [forEach_writes]
    intro x s; (repeat' split) <;> simp [w_flow]

@[simp] theorem discardPartials_writes (W : List Block) (S : State) (s : State) (w_twin : Block.twin ∈ W) :
    OnlyWrites W S (discardPartials s) ↔ OnlyWrites W S s := by
  unfold discardPartials; simp [w_twin]

@[simp] theorem releaseNotTaken_writes (W : List Block) (S : State) (s : State) (w_flow : Block.flow ∈ W) :
    OnlyWrites W S (releaseNotTaken s) ↔ OnlyWrites W S s := by
  unfold releaseNotTaken; simp [w_flow]

@[simp] theorem takeOver_writes (W : List Block) (S : State) (cause : Nat) (s : State) (w_emit : Block.emit ∈ W)
    (w_cmd : Block.cmd ∈ W) (w_flow : Block.flow ∈ W) (w_twin : Block.twin ∈ W) (w_lsk : Block.lsk ∈ W)
    (w_vec : Block.vec ∈ W) :
    OnlyWrites W S (takeOver cause s) ↔ OnlyWrites W S s := by
  unfold takeOver; simp [w_emit, w_cmd, w_flow, w_twin, w_lsk, w_vec]

@[simp] theorem stepDownNow_writes (W : List Block) (S : State) (cause : Nat) (s : State) (w_emit : Block.emit ∈ W)
    (w_cmd : Block.cmd ∈ W) (w_flow : Block.flow ∈ W) (w_twin : Block.twin ∈ W) (w_vec : Block.vec ∈ W) :
    OnlyWrites W S (stepDownNow cause s) ↔ OnlyWrites W S s := by
  unfold stepDownNow; simp [w_emit, w_cmd, w_flow, w_twin, w_vec]

@[simp] theorem sendRack_writes (W : List Block) (S : State) (room : Nat) (s : State) (w_emit : Block.emit ∈ W)
    (w_twin : Block.twin ∈ W) :
    OnlyWrites W S (sendRack room s) ↔ OnlyWrites W S s := by
  unfold sendRack; dsimp only; (repeat' split) <;> simp [w_emit, w_twin]

theorem execRackingFrameSend_writes (W : List Block) (S : State) (dt : Nat) (room : Nat) (s : State)
    (w_now : Block.now ∈ W) (w_clk : Block.clk ∈ W) (w_emit : Block.emit ∈ W) (w_twin : Block.twin ∈ W)
    (w_lsk : Block.lsk ∈ W) :
    ∃ u, execRackingFrameSend dt room s = .next u ∧ (OnlyWrites W S u ↔ OnlyWrites W S s) := by
  unfold execRackingFrameSend; exact ⟨_, rfl, by simp [w_now, w_clk, w_emit, w_twin, w_lsk]⟩

@[simp] theorem genFor_writes (W : List Block) (S : State) (stream : Nat) (f : RackFrame) (s : State)
    (w_twin : Block.twin ∈ W) :
    OnlyWrites W S (genFor stream f s).2 ↔ OnlyWrites W S s := by
  unfold genFor; (repeat' split) <;> simp [w_twin]

@[simp] theorem writeFullPages_writes (W : List Block) (S : State) (items : List RackItem) (s : State)
    (w_twin : Block.twin ∈ W) (w_lsk : Block.lsk ∈ W) :
    OnlyWrites W S (writeFullPages items s) ↔ OnlyWrites W S s := by
  unfold writeFullPages; simp [w_twin, w_lsk]

@[simp] theorem applyGen_writes (W : List Block) (S : State) (stream : Nat) (g : RackGen) (s : State)
    (w_emit : Block.emit ∈ W) (w_cmd : Block.cmd ∈ W) (w_flow : Block.flow ∈ W) (w_twin : Block.twin ∈ W)
    (w_lsk : Block.lsk ∈ W) (w_vec : Block.vec ∈ W) :
    OnlyWrites W S (applyGen stream g s) ↔ OnlyWrites W S s := by
  unfold applyGen; simp [w_emit, w_cmd, w_flow, w_twin, w_lsk, w_vec]

@[simp] theorem rackIn_writes (W : List Block) (S : State) (stream : Nat) (f : RackFrame) (s : State)
    (w_emit : Block.emit ∈ W) (w_cmd : Block.cmd ∈ W) (w_flow : Block.flow ∈ W) (w_twin : Block.twin ∈ W)
    (w_lsk : Block.lsk ∈ W) (w_vec : Block.vec ∈ W) :
    OnlyWrites W S (rackIn stream f s) ↔ OnlyWrites W S s := by
  unfold rackIn; dsimp only; (repeat' split) <;> simp [w_emit, w_cmd, w_flow, w_twin, w_lsk, w_vec]

theorem execRackingFrameRx_writes (W : List Block) (S : State) (dt : Nat) (f : RackFrame) (s : State)
    (w_now : Block.now ∈ W) (w_clk : Block.clk ∈ W) (w_emit : Block.emit ∈ W) (w_cmd : Block.cmd ∈ W)
    (w_flow : Block.flow ∈ W) (w_twin : Block.twin ∈ W) (w_lsk : Block.lsk ∈ W) (w_vec : Block.vec ∈ W) :
    ∃ u, execRackingFrameRx dt f s = .next u ∧ (OnlyWrites W S u ↔ OnlyWrites W S s) := by
  unfold execRackingFrameRx; exact ⟨_, rfl, by simp [w_now, w_clk, w_emit, w_cmd, w_flow, w_twin, w_lsk, w_vec]⟩

theorem execRegionStagingApply_writes (W : List Block) (S : State) (dt : Nat) (s : State) (w_now : Block.now ∈ W)
    (w_clk : Block.clk ∈ W) (w_emit : Block.emit ∈ W) (w_twin : Block.twin ∈ W) (w_lsk : Block.lsk ∈ W) :
    ∃ u, execRegionStagingApply dt s = .next u ∧ (OnlyWrites W S u ↔ OnlyWrites W S s) := by
  unfold execRegionStagingApply; exact ⟨_, rfl, by simp [w_now, w_clk, w_emit, w_twin, w_lsk]⟩

theorem execCopyOnWrite_writes (W : List Block) (S : State) (dt : Nat) (page : Nat) (addr : Nat) (data : List Byte)
    (s : State) (w_now : Block.now ∈ W) (w_clk : Block.clk ∈ W) (w_emit : Block.emit ∈ W) (w_twin : Block.twin ∈ W)
    (w_lsk : Block.lsk ∈ W) :
    ∃ u, execCopyOnWrite dt page addr data s = .next u ∧ (OnlyWrites W S u ↔ OnlyWrites W S s) := by
  unfold execCopyOnWrite; exact ⟨_, rfl, by simp [-begin__frame, w_now, w_clk, w_emit, w_twin, w_lsk]⟩

@[simp] theorem twinStatusBody_writes (W : List Block) (S : State) (r : Ring) (s : State) (w_twin : Block.twin ∈ W) :
    OnlyWrites W S (twinStatusBody r s).2 ↔ OnlyWrites W S s := by
  unfold twinStatusBody; simp [w_twin]

@[simp] theorem twinConfigBody_writes (W : List Block) (S : State) (r : Ring) (s : State) (w_twin : Block.twin ∈ W) :
    OnlyWrites W S (twinConfigBody r s).2 ↔ OnlyWrites W S s := by
  unfold twinConfigBody; simp [w_twin]

@[simp] theorem twinSwitchoverBody_writes (W : List Block) (S : State) (_r : Ring) (s : State)
    (w_twin : Block.twin ∈ W) :
    OnlyWrites W S (twinSwitchoverBody _r s).2 ↔ OnlyWrites W S s := by
  unfold twinSwitchoverBody; simp [w_twin]

@[simp] theorem twinServiceBody_writes (W : List Block) (S : State) (r : Ring) (s : State) (w_twin : Block.twin ∈ W) :
    OnlyWrites W S (twinServiceBody r s).2 ↔ OnlyWrites W S s := by
  unfold twinServiceBody; simp [w_twin]

@[simp] theorem twinRenewBody_writes (W : List Block) (S : State) (_r : Ring) (s : State) (w_twin : Block.twin ∈ W) :
    OnlyWrites W S (twinRenewBody _r s).2 ↔ OnlyWrites W S s := by
  unfold twinRenewBody; simp [w_twin]

theorem execTwinStatus_writes (W : List Block) (S : State) (dt : Nat) (r : Ring) (s : State) (w_now : Block.now ∈ W)
    (w_clk : Block.clk ∈ W) (w_free : Block.free ∈ W) (w_emit : Block.emit ∈ W) (w_sys : Block.sys ∈ W)
    (w_mbx : Block.mbx ∈ W) (w_cmd : Block.cmd ∈ W) (w_twin : Block.twin ∈ W) (w_vec : Block.vec ∈ W)
    (w_shelf : Block.shelf ∈ W) :
    ∃ u, execTwinStatus dt r s = .next u ∧ (OnlyWrites W S u ↔ OnlyWrites W S s) := by
  unfold execTwinStatus; exact ⟨_, rfl, by simp [w_now, w_clk, w_free, w_emit, w_sys, w_mbx, w_cmd, w_twin, w_vec, w_shelf]⟩

theorem execTwinConfig_writes (W : List Block) (S : State) (dt : Nat) (r : Ring) (s : State) (w_now : Block.now ∈ W)
    (w_clk : Block.clk ∈ W) (w_free : Block.free ∈ W) (w_emit : Block.emit ∈ W) (w_sys : Block.sys ∈ W)
    (w_mbx : Block.mbx ∈ W) (w_cmd : Block.cmd ∈ W) (w_twin : Block.twin ∈ W) (w_vec : Block.vec ∈ W)
    (w_shelf : Block.shelf ∈ W) :
    ∃ u, execTwinConfig dt r s = .next u ∧ (OnlyWrites W S u ↔ OnlyWrites W S s) := by
  unfold execTwinConfig; exact ⟨_, rfl, by simp [w_now, w_clk, w_free, w_emit, w_sys, w_mbx, w_cmd, w_twin, w_vec, w_shelf]⟩

theorem execTwinSwitchover_writes (W : List Block) (S : State) (dt : Nat) (r : Ring) (s : State) (w_now : Block.now ∈ W)
    (w_clk : Block.clk ∈ W) (w_free : Block.free ∈ W) (w_emit : Block.emit ∈ W) (w_sys : Block.sys ∈ W)
    (w_mbx : Block.mbx ∈ W) (w_cmd : Block.cmd ∈ W) (w_twin : Block.twin ∈ W) (w_vec : Block.vec ∈ W)
    (w_shelf : Block.shelf ∈ W) :
    ∃ u, execTwinSwitchover dt r s = .next u ∧ (OnlyWrites W S u ↔ OnlyWrites W S s) := by
  unfold execTwinSwitchover; exact ⟨_, rfl, by simp [w_now, w_clk, w_free, w_emit, w_sys, w_mbx, w_cmd, w_twin, w_vec, w_shelf]⟩

theorem execTwinServiceOut_writes (W : List Block) (S : State) (dt : Nat) (r : Ring) (s : State) (w_now : Block.now ∈ W)
    (w_clk : Block.clk ∈ W) (w_free : Block.free ∈ W) (w_emit : Block.emit ∈ W) (w_sys : Block.sys ∈ W)
    (w_mbx : Block.mbx ∈ W) (w_cmd : Block.cmd ∈ W) (w_twin : Block.twin ∈ W) (w_vec : Block.vec ∈ W)
    (w_shelf : Block.shelf ∈ W) :
    ∃ u, execTwinServiceOut dt r s = .next u ∧ (OnlyWrites W S u ↔ OnlyWrites W S s) := by
  unfold execTwinServiceOut; exact ⟨_, rfl, by simp [w_now, w_clk, w_free, w_emit, w_sys, w_mbx, w_cmd, w_twin, w_vec, w_shelf]⟩

theorem execTwinServiceReturn_writes (W : List Block) (S : State) (dt : Nat) (r : Ring) (s : State)
    (w_now : Block.now ∈ W) (w_clk : Block.clk ∈ W) (w_free : Block.free ∈ W) (w_emit : Block.emit ∈ W)
    (w_sys : Block.sys ∈ W) (w_mbx : Block.mbx ∈ W) (w_cmd : Block.cmd ∈ W) (w_twin : Block.twin ∈ W)
    (w_vec : Block.vec ∈ W) (w_shelf : Block.shelf ∈ W) :
    ∃ u, execTwinServiceReturn dt r s = .next u ∧ (OnlyWrites W S u ↔ OnlyWrites W S s) := by
  unfold execTwinServiceReturn; exact ⟨_, rfl, by simp [w_now, w_clk, w_free, w_emit, w_sys, w_mbx, w_cmd, w_twin, w_vec, w_shelf]⟩

theorem execTwinRenew_writes (W : List Block) (S : State) (dt : Nat) (r : Ring) (s : State) (w_now : Block.now ∈ W)
    (w_clk : Block.clk ∈ W) (w_free : Block.free ∈ W) (w_emit : Block.emit ∈ W) (w_sys : Block.sys ∈ W)
    (w_mbx : Block.mbx ∈ W) (w_cmd : Block.cmd ∈ W) (w_twin : Block.twin ∈ W) (w_vec : Block.vec ∈ W)
    (w_shelf : Block.shelf ∈ W) :
    ∃ u, execTwinRenew dt r s = .next u ∧ (OnlyWrites W S u ↔ OnlyWrites W S s) := by
  unfold execTwinRenew; exact ⟨_, rfl, by simp [w_now, w_clk, w_free, w_emit, w_sys, w_mbx, w_cmd, w_twin, w_vec, w_shelf]⟩

@[simp] theorem pairCount_writes (W : List Block) (S : State) (l i : Nat) (s : State) (w_lsk : Block.lsk ∈ W) :
    OnlyWrites W S (pairCount l i s) ↔ OnlyWrites W S s := by
  unfold pairCount; simp [w_lsk]

theorem execHoldBufferStall_writes (W : List Block) (S : State) (dt : Nat) (l : Fin 4) (cycles : Nat) (s : State)
    (w_now : Block.now ∈ W) (w_clk : Block.clk ∈ W) (w_emit : Block.emit ∈ W) (w_lsk : Block.lsk ∈ W) :
    ∃ u, execHoldBufferStall dt l cycles s = .next u ∧ (OnlyWrites W S u ↔ OnlyWrites W S s) := by
  unfold execHoldBufferStall; exact ⟨_, rfl, by simp [w_now, w_clk, w_emit, w_lsk]⟩

@[simp] theorem clearShadows_writes (W : List Block) (S : State) (l : Nat) (s : State) (w_can : Block.can ∈ W)
    (w_shadows : Block.shadows ∈ W) :
    OnlyWrites W S (clearShadows l s) ↔ OnlyWrites W S s := by
  unfold clearShadows; apply writes_of; rw [onlyWrites_parts]; simp [w_can, w_shadows]

@[simp] theorem startLocked_writes (W : List Block) (S : State) (l entry : Nat) (s : State) (w_lsk : Block.lsk ∈ W) :
    OnlyWrites W S (startLocked l entry s) ↔ OnlyWrites W S s := by
  unfold startLocked; (repeat' split) <;> simp_all [w_lsk]

@[simp] theorem startPair_writes (W : List Block) (S : State) (l entry : Nat) (s : State) (w_lsk : Block.lsk ∈ W)
    (w_can : Block.can ∈ W) (w_shadows : Block.shadows ∈ W) :
    OnlyWrites W S (startPair l entry s) ↔ OnlyWrites W S s := by
  unfold startPair; simp [w_lsk, w_can, w_shadows]

@[simp] theorem holdPair_writes (W : List Block) (S : State) (l : Nat) (s : State) (w_lsk : Block.lsk ∈ W)
    (w_can : Block.can ∈ W) (w_shadows : Block.shadows ∈ W) :
    OnlyWrites W S (holdPair l s) ↔ OnlyWrites W S s := by
  unfold holdPair; simp [w_lsk, w_can, w_shadows]

@[simp] theorem faultComes_writes (W : List Block) (S : State) (l : Fin 4) (core a : Nat) (s : State)
    (w_emit : Block.emit ∈ W) (w_lsk : Block.lsk ∈ W) :
    OnlyWrites W S (faultComes l core a s) ↔ OnlyWrites W S s := by
  unfold faultComes; dsimp only; (repeat' split) <;> simp_all [w_emit, w_lsk]

theorem execPairAccessFault_writes (W : List Block) (S : State) (dt : Nat) (l : Fin 4) (core : Fin 2) (addr : Nat)
    (s : State) (w_now : Block.now ∈ W) (w_clk : Block.clk ∈ W) (w_emit : Block.emit ∈ W) (w_lsk : Block.lsk ∈ W) :
    ∃ u, execPairAccessFault dt l core addr s = .next u ∧ (OnlyWrites W S u ↔ OnlyWrites W S s) := by
  unfold execPairAccessFault; exact ⟨_, rfl, by simp [w_lsk, w_now, w_clk, w_emit]⟩

@[simp] theorem atPoint_writes (W : List Block) (S : State) (l : Nat) (s : State) (w_lsk : Block.lsk ∈ W) :
    OnlyWrites W S (atPoint l s) ↔ OnlyWrites W S s := by
  unfold atPoint; (repeat' split) <;> simp_all [w_lsk]

theorem execHandoverPoint_writes (W : List Block) (S : State) (dt : Nat) (l : Fin 4) (s : State) (w_now : Block.now ∈ W)
    (w_clk : Block.clk ∈ W) (w_emit : Block.emit ∈ W) (w_lsk : Block.lsk ∈ W) :
    ∃ u, execHandoverPoint dt l s = .next u ∧ (OnlyWrites W S u ↔ OnlyWrites W S s) := by
  unfold execHandoverPoint; exact ⟨_, rfl, by simp [w_now, w_clk, w_emit, w_lsk]⟩

theorem execDebugAccess_writes (W : List Block) (S : State) (dt : Nat) (l : Fin 4) (s : State) (w_now : Block.now ∈ W)
    (w_clk : Block.clk ∈ W) (w_emit : Block.emit ∈ W) (w_cmd : Block.cmd ∈ W) (w_flow : Block.flow ∈ W)
    (w_lsk : Block.lsk ∈ W) (w_vec : Block.vec ∈ W) :
    ∃ u, execDebugAccess dt l s = .next u ∧ (OnlyWrites W S u ↔ OnlyWrites W S s) := by
  unfold execDebugAccess; exact ⟨_, rfl, by simp [w_now, w_clk, w_emit, w_cmd, w_flow, w_lsk, w_vec]⟩

theorem execPairReadyWrite_writes (W : List Block) (S : State) (dt : Nat) (l : Fin 4) (core : Fin 2) (value : BitVec 32)
    (s : State) (w_now : Block.now ∈ W) (w_clk : Block.clk ∈ W) (w_emit : Block.emit ∈ W) (w_lsk : Block.lsk ∈ W) :
    ∃ u, execPairReadyWrite dt l core value s = .next u ∧ (OnlyWrites W S u ↔ OnlyWrites W S s) := by
  unfold execPairReadyWrite; exact ⟨_, rfl, by simp [w_now, w_clk, w_emit, w_lsk]⟩

@[simp] theorem lskStatusBody_writes (W : List Block) (S : State) (r : Ring) (s : State) (w_lsk : Block.lsk ∈ W) :
    OnlyWrites W S (lskStatusBody r s).2 ↔ OnlyWrites W S s := by
  unfold lskStatusBody; simp [w_lsk]

@[simp] theorem lskPairConfigBody_writes (W : List Block) (S : State) (r : Ring) (s : State) (w_lsk : Block.lsk ∈ W) :
    OnlyWrites W S (lskPairConfigBody r s).2 ↔ OnlyWrites W S s := by
  unfold lskPairConfigBody; dsimp only; (repeat' split) <;> simp [w_lsk]

@[simp] theorem lskPairResetBody_writes (W : List Block) (S : State) (r : Ring) (s : State) (w_lsk : Block.lsk ∈ W) :
    OnlyWrites W S (lskPairResetBody r s).2 ↔ OnlyWrites W S s := by
  unfold lskPairResetBody; simp [w_lsk]

@[simp] theorem askHand_writes (W : List Block) (S : State) (l : Nat) (k : HandKind) (s : State)
    (w_lsk : Block.lsk ∈ W) :
    OnlyWrites W S (askHand l k s) ↔ OnlyWrites W S s := by
  unfold askHand; simp [w_lsk]

@[simp] theorem lskSplitBody_writes (W : List Block) (S : State) (r : Ring) (s : State) (w_lsk : Block.lsk ∈ W) :
    OnlyWrites W S (lskSplitBody r s).2 ↔ OnlyWrites W S s := by
  unfold lskSplitBody; simp [w_lsk]

@[simp] theorem lskRejoinBody_writes (W : List Block) (S : State) (r : Ring) (s : State) (w_lsk : Block.lsk ∈ W) :
    OnlyWrites W S (lskRejoinBody r s).2 ↔ OnlyWrites W S s := by
  unfold lskRejoinBody; simp [w_lsk]

@[simp] theorem lskSubstituteBody_writes (W : List Block) (S : State) (r : Ring) (s : State) (w_lsk : Block.lsk ∈ W) :
    OnlyWrites W S (lskSubstituteBody r s).2 ↔ OnlyWrites W S s := by
  unfold lskSubstituteBody; simp [w_lsk]

theorem execLskStatus_writes (W : List Block) (S : State) (dt : Nat) (r : Ring) (s : State) (w_now : Block.now ∈ W)
    (w_clk : Block.clk ∈ W) (w_free : Block.free ∈ W) (w_emit : Block.emit ∈ W) (w_sys : Block.sys ∈ W)
    (w_mbx : Block.mbx ∈ W) (w_cmd : Block.cmd ∈ W) (w_lsk : Block.lsk ∈ W) (w_vec : Block.vec ∈ W)
    (w_shelf : Block.shelf ∈ W) :
    ∃ u, execLskStatus dt r s = .next u ∧ (OnlyWrites W S u ↔ OnlyWrites W S s) := by
  unfold execLskStatus; exact ⟨_, rfl, by simp [w_now, w_clk, w_free, w_emit, w_sys, w_mbx, w_cmd, w_lsk, w_vec, w_shelf]⟩

theorem execLskPairConfig_writes (W : List Block) (S : State) (dt : Nat) (r : Ring) (s : State) (w_now : Block.now ∈ W)
    (w_clk : Block.clk ∈ W) (w_free : Block.free ∈ W) (w_emit : Block.emit ∈ W) (w_sys : Block.sys ∈ W)
    (w_mbx : Block.mbx ∈ W) (w_cmd : Block.cmd ∈ W) (w_lsk : Block.lsk ∈ W) (w_vec : Block.vec ∈ W)
    (w_shelf : Block.shelf ∈ W) :
    ∃ u, execLskPairConfig dt r s = .next u ∧ (OnlyWrites W S u ↔ OnlyWrites W S s) := by
  unfold execLskPairConfig; exact ⟨_, rfl, by simp [w_now, w_clk, w_free, w_emit, w_sys, w_mbx, w_cmd, w_lsk, w_vec, w_shelf]⟩

theorem execLskPairReset_writes (W : List Block) (S : State) (dt : Nat) (r : Ring) (s : State) (w_now : Block.now ∈ W)
    (w_clk : Block.clk ∈ W) (w_free : Block.free ∈ W) (w_emit : Block.emit ∈ W) (w_sys : Block.sys ∈ W)
    (w_mbx : Block.mbx ∈ W) (w_cmd : Block.cmd ∈ W) (w_lsk : Block.lsk ∈ W) (w_vec : Block.vec ∈ W)
    (w_shelf : Block.shelf ∈ W) :
    ∃ u, execLskPairReset dt r s = .next u ∧ (OnlyWrites W S u ↔ OnlyWrites W S s) := by
  unfold execLskPairReset; exact ⟨_, rfl, by simp [w_now, w_clk, w_free, w_emit, w_sys, w_mbx, w_cmd, w_lsk, w_vec, w_shelf]⟩

theorem execLskSplit_writes (W : List Block) (S : State) (dt : Nat) (r : Ring) (s : State) (w_now : Block.now ∈ W)
    (w_clk : Block.clk ∈ W) (w_free : Block.free ∈ W) (w_emit : Block.emit ∈ W) (w_sys : Block.sys ∈ W)
    (w_mbx : Block.mbx ∈ W) (w_cmd : Block.cmd ∈ W) (w_lsk : Block.lsk ∈ W) (w_vec : Block.vec ∈ W)
    (w_shelf : Block.shelf ∈ W) :
    ∃ u, execLskSplit dt r s = .next u ∧ (OnlyWrites W S u ↔ OnlyWrites W S s) := by
  unfold execLskSplit; exact ⟨_, rfl, by simp [w_now, w_clk, w_free, w_emit, w_sys, w_mbx, w_cmd, w_lsk, w_vec, w_shelf]⟩

theorem execLskRejoin_writes (W : List Block) (S : State) (dt : Nat) (r : Ring) (s : State) (w_now : Block.now ∈ W)
    (w_clk : Block.clk ∈ W) (w_free : Block.free ∈ W) (w_emit : Block.emit ∈ W) (w_sys : Block.sys ∈ W)
    (w_mbx : Block.mbx ∈ W) (w_cmd : Block.cmd ∈ W) (w_lsk : Block.lsk ∈ W) (w_vec : Block.vec ∈ W)
    (w_shelf : Block.shelf ∈ W) :
    ∃ u, execLskRejoin dt r s = .next u ∧ (OnlyWrites W S u ↔ OnlyWrites W S s) := by
  unfold execLskRejoin; exact ⟨_, rfl, by simp [w_now, w_clk, w_free, w_emit, w_sys, w_mbx, w_cmd, w_lsk, w_vec, w_shelf]⟩

theorem execLskSubstitute_writes (W : List Block) (S : State) (dt : Nat) (r : Ring) (s : State) (w_now : Block.now ∈ W)
    (w_clk : Block.clk ∈ W) (w_free : Block.free ∈ W) (w_emit : Block.emit ∈ W) (w_sys : Block.sys ∈ W)
    (w_mbx : Block.mbx ∈ W) (w_cmd : Block.cmd ∈ W) (w_lsk : Block.lsk ∈ W) (w_vec : Block.vec ∈ W)
    (w_shelf : Block.shelf ∈ W) :
    ∃ u, execLskSubstitute dt r s = .next u ∧ (OnlyWrites W S u ↔ OnlyWrites W S s) := by
  unfold execLskSubstitute; exact ⟨_, rfl, by simp [w_now, w_clk, w_free, w_emit, w_sys, w_mbx, w_cmd, w_lsk, w_vec, w_shelf]⟩

@[simp] theorem nextWindowWrite_writes (W : List Block) (S : State) (i : Iface) (off : Nat) (data : List Byte)
    (s : State) (w_flow : Block.flow ∈ W) (w_lsk : Block.lsk ∈ W) (w_emit : Block.emit ∈ W) :
    OnlyWrites W S (nextWindowWrite i off data s) ↔ OnlyWrites W S s := by
  unfold nextWindowWrite; (repeat' split) <;> simp [w_emit, w_flow, w_lsk]

@[simp] theorem openNext_writes (W : List Block) (S : State) (s : State) (w_emit : Block.emit ∈ W)
    (w_flow : Block.flow ∈ W) (w_vec : Block.vec ∈ W) :
    OnlyWrites W S (openNext s) ↔ OnlyWrites W S s := by
  unfold openNext; simp [w_emit, w_flow, w_vec]

@[simp] theorem pdiReleaseWrite_writes (W : List Block) (S : State) (i : Iface) (v : Nat) (s : State)
    (w_flow : Block.flow ∈ W) :
    OnlyWrites W S (pdiReleaseWrite i v s) ↔ OnlyWrites W S s := by
  unfold pdiReleaseWrite; (repeat' split) <;> simp [w_flow]

@[simp] theorem pdiMaskWrite_writes (W : List Block) (S : State) (i : Iface) (v : Nat) (s : State)
    (w_flow : Block.flow ∈ W) :
    OnlyWrites W S (pdiMaskWrite i v s) ↔ OnlyWrites W S s := by
  unfold pdiMaskWrite; simp [w_flow]

@[simp] theorem pdiRead_writes (W : List Block) (S : State) (off : Nat) (s : State) (w_flow : Block.flow ∈ W) :
    OnlyWrites W S (pdiRead off s).2 ↔ OnlyWrites W S s := by
  unfold pdiRead; (repeat' split) <;> simp [w_flow]

@[simp] theorem fabLinkEvent_writes (W : List Block) (S : State) (k : Nat) (s : State) (w_emit : Block.emit ∈ W)
    (w_cmd : Block.cmd ∈ W) (w_flow : Block.flow ∈ W) (w_vec : Block.vec ∈ W) :
    OnlyWrites W S (fabLinkEvent k s) ↔ OnlyWrites W S s := by
  unfold fabLinkEvent; simp [w_emit, w_cmd, w_flow, w_vec]

@[simp] theorem fabLeave_writes (W : List Block) (S : State) (k : Nat) (st : FabSt) (s : State)
    (w_emit : Block.emit ∈ W) (w_cmd : Block.cmd ∈ W) (w_flow : Block.flow ∈ W) (w_fab : Block.fab ∈ W)
    (w_vec : Block.vec ∈ W) :
    OnlyWrites W S (fabLeave k st s) ↔ OnlyWrites W S s := by
  unfold fabLeave; simp [w_emit, w_cmd, w_flow, w_fab, w_vec]

@[simp] theorem fabConflict_writes (W : List Block) (S : State) (cause : Nat) (uid : BitVec 64) (s : State)
    (w_emit : Block.emit ∈ W) (w_cmd : Block.cmd ∈ W) (w_flow : Block.flow ∈ W) (w_vec : Block.vec ∈ W) :
    OnlyWrites W S (fabConflict cause uid s) ↔ OnlyWrites W S s := by
  unfold fabConflict; simp [w_emit, w_cmd, w_flow, w_vec]

theorem execFabricBeaconSend_writes (W : List Block) (S : State) (dt : Nat) (k : Fin 4) (s : State)
    (w_now : Block.now ∈ W) (w_clk : Block.clk ∈ W) (w_emit : Block.emit ∈ W) (w_fab : Block.fab ∈ W) :
    ∃ u, execFabricBeaconSend dt k s = .next u ∧ (OnlyWrites W S u ↔ OnlyWrites W S s) := by
  unfold execFabricBeaconSend; exact ⟨_, rfl, by simp [w_now, w_clk, w_emit, w_fab]⟩

@[simp] theorem fabJudgeVid_writes (W : List Block) (S : State) (k : Nat) (s : State) (w_emit : Block.emit ∈ W)
    (w_cmd : Block.cmd ∈ W) (w_flow : Block.flow ∈ W) (w_fab : Block.fab ∈ W) (w_vec : Block.vec ∈ W) :
    OnlyWrites W S (fabJudgeVid k s) ↔ OnlyWrites W S s := by
  unfold fabJudgeVid; simp [w_emit, w_cmd, w_flow, w_fab, w_vec]

@[simp] theorem fabTakeTable_writes (W : List Block) (S : State) (b : FabricBeacon) (s : State)
    (w_fab : Block.fab ∈ W) :
    OnlyWrites W S (fabTakeTable b s) ↔ OnlyWrites W S s := by
  unfold fabTakeTable; simp [w_fab]

@[simp] theorem fabSchedule_writes (W : List Block) (S : State) (k : Nat) (b : FabricBeacon) (s : State)
    (w_emit : Block.emit ∈ W) (w_cmd : Block.cmd ∈ W) (w_ina : Block.ina ∈ W) (w_flow : Block.flow ∈ W)
    (w_vec : Block.vec ∈ W) :
    OnlyWrites W S (fabSchedule k b s) ↔ OnlyWrites W S s := by
  unfold fabSchedule; simp [w_emit, w_cmd, w_ina, w_flow, w_vec]

@[simp] theorem fabBeaconIn_writes (W : List Block) (S : State) (k : Nat) (b : FabricBeacon) (s : State)
    (w_emit : Block.emit ∈ W) (w_cmd : Block.cmd ∈ W) (w_ina : Block.ina ∈ W) (w_flow : Block.flow ∈ W)
    (w_fab : Block.fab ∈ W) (w_vec : Block.vec ∈ W) :
    OnlyWrites W S (fabBeaconIn k b s) ↔ OnlyWrites W S s := by
  unfold fabBeaconIn; simp [w_emit, w_cmd, w_ina, w_flow, w_fab, w_vec]

theorem execFabricBeaconRx_writes (W : List Block) (S : State) (dt : Nat) (k : Fin 4) (b : FabricBeacon) (s : State)
    (w_now : Block.now ∈ W) (w_clk : Block.clk ∈ W) (w_emit : Block.emit ∈ W) (w_cmd : Block.cmd ∈ W)
    (w_ina : Block.ina ∈ W) (w_flow : Block.flow ∈ W) (w_fab : Block.fab ∈ W) (w_vec : Block.vec ∈ W) :
    ∃ u, execFabricBeaconRx dt k b s = .next u ∧ (OnlyWrites W S u ↔ OnlyWrites W S s) := by
  unfold execFabricBeaconRx; exact ⟨_, rfl, by simp [w_now, w_clk, w_emit, w_cmd, w_ina, w_flow, w_fab, w_vec]⟩

@[simp] theorem fabAssign_writes (W : List Block) (S : State) (uid : BitVec 64) (s : State) (w_emit : Block.emit ∈ W)
    (w_cmd : Block.cmd ∈ W) (w_flow : Block.flow ∈ W) (w_fab : Block.fab ∈ W) (w_vec : Block.vec ∈ W) :
    OnlyWrites W S (fabAssign uid s) ↔ OnlyWrites W S s := by
  unfold fabAssign; (repeat' split) <;> simp [w_emit, w_cmd, w_flow, w_fab, w_vec]

@[simp] theorem fabResend_writes (W : List Block) (S : State) (k : Nat) (old : FabricFrame × Nat → Bool) (s : State)
    (w_emit : Block.emit ∈ W) (w_fab : Block.fab ∈ W) :
    OnlyWrites W S (fabResend k old s) ↔ OnlyWrites W S s := by
  unfold fabResend; simp [w_emit, w_fab]

theorem execFabricAckTimeout_writes (W : List Block) (S : State) (dt : Nat) (k : Fin 4) (s : State)
    (w_now : Block.now ∈ W) (w_clk : Block.clk ∈ W) (w_emit : Block.emit ∈ W) (w_fab : Block.fab ∈ W) :
    ∃ u, execFabricAckTimeout dt k s = .next u ∧ (OnlyWrites W S u ↔ OnlyWrites W S s) := by
  unfold execFabricAckTimeout; exact ⟨_, rfl, by simp [w_now, w_clk, w_emit, w_fab]⟩

theorem execFabricLinkDown_writes (W : List Block) (S : State) (dt : Nat) (k : Fin 4) (s : State)
    (w_now : Block.now ∈ W) (w_clk : Block.clk ∈ W) (w_emit : Block.emit ∈ W) (w_cmd : Block.cmd ∈ W)
    (w_flow : Block.flow ∈ W) (w_fab : Block.fab ∈ W) (w_vec : Block.vec ∈ W) :
    ∃ u, execFabricLinkDown dt k s = .next u ∧ (OnlyWrites W S u ↔ OnlyWrites W S s) := by
  unfold execFabricLinkDown; exact ⟨_, rfl, by simp [w_now, w_clk, w_emit, w_cmd, w_flow, w_fab, w_vec]⟩

@[simp] theorem fabEnterUp_writes (W : List Block) (S : State) (k : Nat) (s : State) (w_emit : Block.emit ∈ W)
    (w_cmd : Block.cmd ∈ W) (w_flow : Block.flow ∈ W) (w_fab : Block.fab ∈ W) (w_vec : Block.vec ∈ W) :
    OnlyWrites W S (fabEnterUp k s) ↔ OnlyWrites W S s := by
  unfold fabEnterUp; simp [w_emit, w_cmd, w_flow, w_fab, w_vec]

theorem execFabricLinkUp_writes (W : List Block) (S : State) (dt : Nat) (k : Fin 4) (s : State) (w_now : Block.now ∈ W)
    (w_clk : Block.clk ∈ W) (w_emit : Block.emit ∈ W) (w_cmd : Block.cmd ∈ W) (w_flow : Block.flow ∈ W)
    (w_fab : Block.fab ∈ W) (w_vec : Block.vec ∈ W) :
    ∃ u, execFabricLinkUp dt k s = .next u ∧ (OnlyWrites W S u ↔ OnlyWrites W S s) := by
  unfold execFabricLinkUp; exact ⟨_, rfl, by simp [w_now, w_clk, w_emit, w_cmd, w_flow, w_fab, w_vec]⟩

@[simp] theorem retireLane_writes (W : List Block) (S : State) (k lane : Nat) (s : State) (w_emit : Block.emit ∈ W)
    (w_cmd : Block.cmd ∈ W) (w_flow : Block.flow ∈ W) (w_fab : Block.fab ∈ W) (w_vec : Block.vec ∈ W)
    (w_rep : Block.rep ∈ W) :
    OnlyWrites W S (retireLane k lane s) ↔ OnlyWrites W S s := by
  unfold retireLane; simp [w_emit, w_cmd, w_flow, w_fab, w_vec, w_rep]

@[simp] theorem fabSwitchLane_writes (W : List Block) (S : State) (k : Nat) (lane : Fin 2) (s : State)
    (w_emit : Block.emit ∈ W) (w_cmd : Block.cmd ∈ W) (w_flow : Block.flow ∈ W) (w_fab : Block.fab ∈ W)
    (w_vec : Block.vec ∈ W) (w_rep : Block.rep ∈ W) :
    OnlyWrites W S (fabSwitchLane k lane s) ↔ OnlyWrites W S s := by
  unfold fabSwitchLane; simp [w_emit, w_cmd, w_flow, w_fab, w_vec, w_rep]

@[simp] theorem fabBlockErrors_writes (W : List Block) (S : State) (k n : Nat) (s : State) (w_fab : Block.fab ∈ W) :
    OnlyWrites W S (fabBlockErrors k n s) ↔ OnlyWrites W S s := by
  unfold fabBlockErrors; simp [w_fab]

theorem execFabricLaneSwitch_writes (W : List Block) (S : State) (dt : Nat) (k : Fin 4) (lane : Fin 2)
    (errors : Option Nat) (s : State) (w_now : Block.now ∈ W) (w_clk : Block.clk ∈ W) (w_emit : Block.emit ∈ W)
    (w_cmd : Block.cmd ∈ W) (w_flow : Block.flow ∈ W) (w_fab : Block.fab ∈ W) (w_vec : Block.vec ∈ W)
    (w_rep : Block.rep ∈ W) :
    ∃ u, execFabricLaneSwitch dt k lane errors s = .next u ∧ (OnlyWrites W S u ↔ OnlyWrites W S s) := by
  unfold execFabricLaneSwitch; exact ⟨_, rfl, by simp [w_now, w_clk, w_emit, w_cmd, w_flow, w_fab, w_vec, w_rep]⟩

@[simp] theorem spareJudged_writes (W : List Block) (S : State) (k errors : Nat) (s : State) (w_fab : Block.fab ∈ W) :
    OnlyWrites W S (spareJudged k errors s) ↔ OnlyWrites W S s := by
  unfold spareJudged; simp [w_fab]

theorem execSpareLaneGood_writes (W : List Block) (S : State) (dt : Nat) (k : Fin 4) (errors : Nat) (s : State)
    (w_now : Block.now ∈ W) (w_clk : Block.clk ∈ W) (w_emit : Block.emit ∈ W) (w_fab : Block.fab ∈ W) :
    ∃ u, execSpareLaneGood dt k errors s = .next u ∧ (OnlyWrites W S u ↔ OnlyWrites W S s) := by
  unfold execSpareLaneGood; exact ⟨_, rfl, by simp [w_now, w_clk, w_emit, w_fab]⟩

@[simp] theorem reportIn_writes (W : List Block) (S : State) (r : FabricReport) (s : State) (w_ina : Block.ina ∈ W) :
    OnlyWrites W S (reportIn r s) ↔ OnlyWrites W S s := by
  unfold reportIn; dsimp only; (repeat' split) <;> simp [w_ina]

@[simp] theorem fabricReportIn_writes (W : List Block) (S : State) (p : Option Nat) (r : FabricReport) (s : State)
    (w_emit : Block.emit ∈ W) (w_trunk : Block.trunk ∈ W) (w_ina : Block.ina ∈ W) (w_sched : Block.sched ∈ W) :
    OnlyWrites W S (fabricReportIn p r s) ↔ OnlyWrites W S s := by
  unfold fabricReportIn; dsimp only; (repeat' split) <;> simp_all [w_emit, w_trunk, w_ina, w_sched]

theorem execFabricReportRx_writes (W : List Block) (S : State) (dt : Nat) (p : Option (Fin 4)) (r : FabricReport)
    (s : State) (w_now : Block.now ∈ W) (w_clk : Block.clk ∈ W) (w_emit : Block.emit ∈ W) (w_ina : Block.ina ∈ W)
    (w_sched : Block.sched ∈ W) (w_trunk : Block.trunk ∈ W) :
    ∃ u, execFabricReportRx dt p r s = .next u ∧ (OnlyWrites W S u ↔ OnlyWrites W S s) := by
  unfold execFabricReportRx; exact ⟨_, rfl, by simp [w_trunk, w_now, w_clk, w_emit, w_ina, w_sched]⟩

theorem execFabricTickSend_writes (W : List Block) (S : State) (dt : Nat) (s : State) (w_now : Block.now ∈ W)
    (w_clk : Block.clk ∈ W) (w_emit : Block.emit ∈ W) (w_fab : Block.fab ∈ W) :
    ∃ u, execFabricTickSend dt s = .next u ∧ (OnlyWrites W S u ↔ OnlyWrites W S s) := by
  unfold execFabricTickSend; exact ⟨_, rfl, by (repeat' split) <;> simp [w_now, w_clk, w_emit, w_fab]⟩

@[simp] theorem tickChoose_writes (W : List Block) (S : State) (t : FabricTick) (s : State) (w_fab : Block.fab ∈ W) :
    OnlyWrites W S (tickChoose t s) ↔ OnlyWrites W S s := by
  unfold tickChoose; simp [w_fab]

@[simp] theorem tickValid_writes (W : List Block) (S : State) (im : Image) (t : FabricTick) (s : State)
    (w_emit : Block.emit ∈ W) (w_cmd : Block.cmd ∈ W) (w_ina : Block.ina ∈ W) (w_sched : Block.sched ∈ W)
    (w_flow : Block.flow ∈ W) (w_vec : Block.vec ∈ W) :
    OnlyWrites W S (tickValid im t s) ↔ OnlyWrites W S s := by
  unfold tickValid; simp [w_emit, w_cmd, w_ina, w_sched, w_flow, w_vec]

@[simp] theorem tickSample_writes (W : List Block) (S : State) (k : Nat) (theta : Int) (t : FabricTick) (s : State)
    (w_now : Block.now ∈ W) (w_emit : Block.emit ∈ W) (w_cmd : Block.cmd ∈ W) (w_trunk : Block.trunk ∈ W)
    (w_ina : Block.ina ∈ W) (w_time : Block.time ∈ W) (w_flow : Block.flow ∈ W) (w_twin : Block.twin ∈ W)
    (w_fab : Block.fab ∈ W) (w_vec : Block.vec ∈ W) :
    OnlyWrites W S (tickSample k theta t s) ↔ OnlyWrites W S s := by
  unfold tickSample; simp [w_now, w_emit, w_cmd, w_trunk, w_ina, w_time, w_flow, w_twin, w_fab, w_vec]

@[simp] theorem tickOn_writes (W : List Block) (S : State) (k : Nat) (t : FabricTick) (residence : Nat) (s : State)
    (w_emit : Block.emit ∈ W) :
    OnlyWrites W S (tickOn k t residence s) ↔ OnlyWrites W S s := by
  unfold tickOn; simp [w_emit]

@[simp] theorem tickEffect_writes (W : List Block) (S : State) (im : Image) (k : Nat) (t : FabricTick) (tRx : Int)
    (s : State) (w_now : Block.now ∈ W) (w_emit : Block.emit ∈ W) (w_cmd : Block.cmd ∈ W) (w_trunk : Block.trunk ∈ W)
    (w_ina : Block.ina ∈ W) (w_sched : Block.sched ∈ W) (w_time : Block.time ∈ W) (w_flow : Block.flow ∈ W)
    (w_twin : Block.twin ∈ W) (w_fab : Block.fab ∈ W) (w_vec : Block.vec ∈ W) :
    OnlyWrites W S (tickEffect im k t tRx s) ↔ OnlyWrites W S s := by
  unfold tickEffect; dsimp only; (repeat' split) <;> simp [w_now, w_emit, w_cmd, w_trunk, w_ina, w_sched, w_time, w_flow, w_twin, w_fab, w_vec]

@[simp] theorem tickNote_writes (W : List Block) (S : State) (t : FabricTick) (s : State) (w_fab : Block.fab ∈ W) :
    OnlyWrites W S (tickNote t s) ↔ OnlyWrites W S s := by
  unfold tickNote; (repeat' split) <;> simp_all [w_fab]

@[simp] theorem tickIn_writes (W : List Block) (S : State) (k : Nat) (t : FabricTick) (tRx : Int) (residence : Nat)
    (s : State) (w_now : Block.now ∈ W) (w_emit : Block.emit ∈ W) (w_cmd : Block.cmd ∈ W) (w_trunk : Block.trunk ∈ W)
    (w_ina : Block.ina ∈ W) (w_sched : Block.sched ∈ W) (w_time : Block.time ∈ W) (w_flow : Block.flow ∈ W)
    (w_twin : Block.twin ∈ W) (w_fab : Block.fab ∈ W) (w_vec : Block.vec ∈ W) :
    OnlyWrites W S (tickIn k t tRx residence s) ↔ OnlyWrites W S s := by
  unfold tickIn; dsimp only; (repeat' split) <;> simp [w_now, w_emit, w_cmd, w_trunk, w_ina, w_sched, w_time, w_flow, w_twin, w_fab, w_vec]

theorem execFabricTickRx_writes (W : List Block) (S : State) (dt : Nat) (k : Fin 4) (t : FabricTick) (tRx : Int)
    (residence : Nat) (s : State) (w_now : Block.now ∈ W) (w_clk : Block.clk ∈ W) (w_emit : Block.emit ∈ W)
    (w_cmd : Block.cmd ∈ W) (w_trunk : Block.trunk ∈ W) (w_ina : Block.ina ∈ W) (w_sched : Block.sched ∈ W)
    (w_time : Block.time ∈ W) (w_flow : Block.flow ∈ W) (w_twin : Block.twin ∈ W) (w_fab : Block.fab ∈ W)
    (w_vec : Block.vec ∈ W) :
    ∃ u, execFabricTickRx dt k t tRx residence s = .next u ∧ (OnlyWrites W S u ↔ OnlyWrites W S s) := by
  unfold execFabricTickRx; exact ⟨_, rfl, by simp [w_now, w_clk, w_emit, w_cmd, w_trunk, w_ina, w_sched, w_time, w_flow, w_twin, w_fab, w_vec]⟩

@[simp] theorem proxyIn_writes (W : List Block) (S : State) (slot : Fin 16) (entry : Nat) (f : FlowFrame) (s : State)
    (w_fab : Block.fab ∈ W) :
    OnlyWrites W S (proxyIn slot entry f s) ↔ OnlyWrites W S s := by
  unfold proxyIn; simp [w_fab]

theorem execProxyFrameRx_writes (W : List Block) (S : State) (dt : Nat) (slot : Fin 16) (entry : Nat) (f : FlowFrame)
    (s : State) (w_now : Block.now ∈ W) (w_clk : Block.clk ∈ W) (w_emit : Block.emit ∈ W) (w_fab : Block.fab ∈ W) :
    ∃ u, execProxyFrameRx dt slot entry f s = .next u ∧ (OnlyWrites W S u ↔ OnlyWrites W S s) := by
  unfold execProxyFrameRx; exact ⟨_, rfl, by simp [w_now, w_clk, w_emit, w_fab]⟩

@[simp] theorem subscribeIn_writes (W : List Block) (S : State) (slot : Fin 16) (flows : List (BitVec 16)) (s : State)
    (w_fab : Block.fab ∈ W) :
    OnlyWrites W S (subscribeIn slot flows s) ↔ OnlyWrites W S s := by
  unfold subscribeIn; simp [w_fab]

theorem execFabricSubscribeRx_writes (W : List Block) (S : State) (dt : Nat) (slot : Fin 16) (flows : List (BitVec 16))
    (s : State) (w_now : Block.now ∈ W) (w_clk : Block.clk ∈ W) (w_emit : Block.emit ∈ W) (w_fab : Block.fab ∈ W) :
    ∃ u, execFabricSubscribeRx dt slot flows s = .next u ∧ (OnlyWrites W S u ↔ OnlyWrites W S s) := by
  unfold execFabricSubscribeRx; exact ⟨_, rfl, by simp [w_now, w_clk, w_emit, w_fab]⟩

@[simp] theorem relayFlow_writes (W : List Block) (S : State) (lineB : Bool) (f : FlowFrame) (s : State)
    (w_emit : Block.emit ∈ W) (w_fab : Block.fab ∈ W) :
    OnlyWrites W S (relayFlow lineB f s) ↔ OnlyWrites W S s := by
  unfold relayFlow; simp [w_emit, w_fab]

@[simp] theorem fabStatusBody_writes (W : List Block) (S : State) (r : Ring) (s : State) (w_fab : Block.fab ∈ W) :
    OnlyWrites W S (fabStatusBody r s).2 ↔ OnlyWrites W S s := by
  unfold fabStatusBody; simp [w_fab]

@[simp] theorem fabAttach_writes (W : List Block) (S : State) (s : State) (w_emit : Block.emit ∈ W)
    (w_cmd : Block.cmd ∈ W) (w_trunk : Block.trunk ∈ W) (w_flow : Block.flow ∈ W) (w_vec : Block.vec ∈ W) :
    OnlyWrites W S (fabAttach s) ↔ OnlyWrites W S s := by
  unfold fabAttach; simp [w_emit, w_cmd, w_trunk, w_flow, w_vec]

@[simp] theorem fabConfigBody_writes (W : List Block) (S : State) (r : Ring) (s : State) (w_emit : Block.emit ∈ W)
    (w_cmd : Block.cmd ∈ W) (w_trunk : Block.trunk ∈ W) (w_flow : Block.flow ∈ W) (w_fab : Block.fab ∈ W)
    (w_vec : Block.vec ∈ W) :
    OnlyWrites W S (fabConfigBody r s).2 ↔ OnlyWrites W S s := by
  unfold fabConfigBody; simp [w_emit, w_cmd, w_trunk, w_flow, w_fab, w_vec]

@[simp] theorem fabSlotTableBody_writes (W : List Block) (S : State) (r : Ring) (s : State) (w_fab : Block.fab ∈ W) :
    OnlyWrites W S (fabSlotTableBody r s).2 ↔ OnlyWrites W S s := by
  unfold fabSlotTableBody; (repeat' split) <;> simp [w_fab]

theorem execFabStatus_writes (W : List Block) (S : State) (dt : Nat) (r : Ring) (s : State) (w_now : Block.now ∈ W)
    (w_clk : Block.clk ∈ W) (w_free : Block.free ∈ W) (w_emit : Block.emit ∈ W) (w_sys : Block.sys ∈ W)
    (w_mbx : Block.mbx ∈ W) (w_cmd : Block.cmd ∈ W) (w_fab : Block.fab ∈ W) (w_vec : Block.vec ∈ W)
    (w_shelf : Block.shelf ∈ W) :
    ∃ u, execFabStatus dt r s = .next u ∧ (OnlyWrites W S u ↔ OnlyWrites W S s) := by
  unfold execFabStatus; exact ⟨_, rfl, by simp [w_now, w_clk, w_free, w_emit, w_sys, w_mbx, w_cmd, w_fab, w_vec, w_shelf]⟩

theorem execFabConfig_writes (W : List Block) (S : State) (dt : Nat) (r : Ring) (s : State) (w_now : Block.now ∈ W)
    (w_clk : Block.clk ∈ W) (w_free : Block.free ∈ W) (w_emit : Block.emit ∈ W) (w_sys : Block.sys ∈ W)
    (w_mbx : Block.mbx ∈ W) (w_cmd : Block.cmd ∈ W) (w_trunk : Block.trunk ∈ W) (w_flow : Block.flow ∈ W)
    (w_fab : Block.fab ∈ W) (w_vec : Block.vec ∈ W) (w_shelf : Block.shelf ∈ W) :
    ∃ u, execFabConfig dt r s = .next u ∧ (OnlyWrites W S u ↔ OnlyWrites W S s) := by
  unfold execFabConfig; exact ⟨_, rfl, by simp [w_now, w_clk, w_free, w_emit, w_sys, w_mbx, w_cmd, w_trunk, w_flow, w_fab, w_vec, w_shelf]⟩

theorem execFabSlotTable_writes (W : List Block) (S : State) (dt : Nat) (r : Ring) (s : State) (w_now : Block.now ∈ W)
    (w_clk : Block.clk ∈ W) (w_free : Block.free ∈ W) (w_emit : Block.emit ∈ W) (w_sys : Block.sys ∈ W)
    (w_mbx : Block.mbx ∈ W) (w_cmd : Block.cmd ∈ W) (w_fab : Block.fab ∈ W) (w_vec : Block.vec ∈ W)
    (w_shelf : Block.shelf ∈ W) :
    ∃ u, execFabSlotTable dt r s = .next u ∧ (OnlyWrites W S u ↔ OnlyWrites W S s) := by
  unfold execFabSlotTable; exact ⟨_, rfl, by simp [w_now, w_clk, w_free, w_emit, w_sys, w_mbx, w_cmd, w_fab, w_vec, w_shelf]⟩

@[simp] theorem noteFailing_writes (W : List Block) (S : State) (p : MemPlace) (s : State) (w_rep : Block.rep ∈ W) :
    OnlyWrites W S (noteFailing p s) ↔ OnlyWrites W S s := by
  unfold noteFailing; simp [w_rep]

@[simp] theorem bankError_writes (W : List Block) (S : State) (b : Nat) (unc : Bool) (s : State)
    (w_swc : Block.swc ∈ W) :
    OnlyWrites W S (bankError b unc s) ↔ OnlyWrites W S s := by
  unfold bankError; simp [w_swc]

@[simp] theorem cacheCorrected_writes (W : List Block) (S : State) (e : MemError) (s : State) (w_lsk : Block.lsk ∈ W)
    :
    OnlyWrites W S (cacheCorrected e s) ↔ OnlyWrites W S s := by
  unfold cacheCorrected; (repeat' split) <;> simp_all [w_lsk]

@[simp] theorem memoryError_writes (W : List Block) (S : State) (e : MemError) (s : State) (w_swc : Block.swc ∈ W)
    (w_rep : Block.rep ∈ W) (w_lsk : Block.lsk ∈ W) :
    OnlyWrites W S (memoryError e s) ↔ OnlyWrites W S s := by
  unfold memoryError; (repeat' split) <;> simp [w_lsk, w_swc, w_rep]

@[simp] theorem reportUncorrectable_writes (W : List Block) (S : State) (e : MemError) (s : State)
    (w_free : Block.free ∈ W) (w_emit : Block.emit ∈ W) (w_cmd : Block.cmd ∈ W) (w_flow : Block.flow ∈ W)
    (w_vec : Block.vec ∈ W) :
    OnlyWrites W S (reportUncorrectable e s) ↔ OnlyWrites W S s := by
  unfold reportUncorrectable; simp [w_free, w_emit, w_cmd, w_flow, w_vec]

@[simp] theorem readMet_writes (W : List Block) (S : State) (e : MemError) (s : State) (w_lsk : Block.lsk ∈ W) :
    OnlyWrites W S (readMet e s) ↔ OnlyWrites W S s := by
  unfold readMet; (repeat' split) <;> simp [w_lsk]

theorem execMemoryEccError_writes (W : List Block) (S : State) (dt : Nat) (e : MemError) (s : State)
    (w_now : Block.now ∈ W) (w_clk : Block.clk ∈ W) (w_free : Block.free ∈ W) (w_emit : Block.emit ∈ W)
    (w_cmd : Block.cmd ∈ W) (w_flow : Block.flow ∈ W) (w_lsk : Block.lsk ∈ W) (w_swc : Block.swc ∈ W)
    (w_vec : Block.vec ∈ W) (w_rep : Block.rep ∈ W) :
    ∃ u, execMemoryEccError dt e s = .next u ∧ (OnlyWrites W S u ↔ OnlyWrites W S s) := by
  unfold execMemoryEccError; exact ⟨_, rfl, by simp [w_now, w_clk, w_free, w_emit, w_cmd, w_flow, w_lsk, w_swc, w_vec, w_rep]⟩

@[simp] theorem placeDone_writes (W : List Block) (S : State) (p : MemPlace) (s : State) (w_rep : Block.rep ∈ W) :
    OnlyWrites W S (placeDone p s) ↔ OnlyWrites W S s := by
  unfold placeDone; simp [w_rep]

@[simp] theorem noteMacroFull_writes (W : List Block) (S : State) (m : BitVec 16) (was : Bool) (s : State)
    (w_emit : Block.emit ∈ W) (w_cmd : Block.cmd ∈ W) (w_flow : Block.flow ∈ W) (w_vec : Block.vec ∈ W)
    (w_rep : Block.rep ∈ W) :
    OnlyWrites W S (noteMacroFull m was s) ↔ OnlyWrites W S s := by
  unfold noteMacroFull; simp [w_emit, w_cmd, w_flow, w_vec, w_rep]

@[simp] theorem useRow_writes (W : List Block) (S : State) (m index : BitVec 16) (atStart : Bool) (s : State)
    (w_emit : Block.emit ∈ W) (w_cmd : Block.cmd ∈ W) (w_flow : Block.flow ∈ W) (w_vec : Block.vec ∈ W)
    (w_rep : Block.rep ∈ W) :
    OnlyWrites W S (useRow m index atStart s) ↔ OnlyWrites W S s := by
  unfold useRow; simp [w_emit, w_cmd, w_flow, w_vec, w_rep]

@[simp] theorem useCol_writes (W : List Block) (S : State) (m index : BitVec 16) (atStart : Bool) (s : State)
    (w_emit : Block.emit ∈ W) (w_cmd : Block.cmd ∈ W) (w_flow : Block.flow ∈ W) (w_vec : Block.vec ∈ W)
    (w_rep : Block.rep ∈ W) :
    OnlyWrites W S (useCol m index atStart s) ↔ OnlyWrites W S s := by
  unfold useCol; simp [w_emit, w_cmd, w_flow, w_vec, w_rep]

@[simp] theorem repairSram_writes (W : List Block) (S : State) (m : BitVec 16) (isRow : Bool) (index : BitVec 16)
    (c : Option (Fin 5)) (atStart : Bool) (s : State) (w_emit : Block.emit ∈ W) (w_cmd : Block.cmd ∈ W)
    (w_flow : Block.flow ∈ W) (w_vec : Block.vec ∈ W) (w_rep : Block.rep ∈ W) :
    OnlyWrites W S (repairSram m isRow index c atStart s) ↔ OnlyWrites W S s := by
  unfold repairSram; simp [w_emit, w_cmd, w_flow, w_vec, w_rep]

@[simp] theorem retirePage_writes (W : List Block) (S : State) (page : BitVec 16) (atStart : Bool) (s : State)
    (w_emit : Block.emit ∈ W) (w_cmd : Block.cmd ∈ W) (w_flow : Block.flow ∈ W) (w_vec : Block.vec ∈ W)
    (w_rep : Block.rep ∈ W) :
    OnlyWrites W S (retirePage page atStart s) ↔ OnlyWrites W S s := by
  unfold retirePage; simp [w_emit, w_cmd, w_flow, w_vec, w_rep]

@[simp] theorem repairPlace_writes (W : List Block) (S : State) (p : MemPlace) (atStart : Bool) (s : State)
    (w_emit : Block.emit ∈ W) (w_cmd : Block.cmd ∈ W) (w_flow : Block.flow ∈ W) (w_vec : Block.vec ∈ W)
    (w_rep : Block.rep ∈ W) :
    OnlyWrites W S (repairPlace p atStart s) ↔ OnlyWrites W S s := by
  unfold repairPlace; (repeat' split) <;> simp [w_emit, w_cmd, w_flow, w_vec, w_rep]

@[simp] theorem repTestEvent_writes (W : List Block) (S : State) (kind pair : Nat) (passed : Bool) (s : State)
    (w_emit : Block.emit ∈ W) (w_cmd : Block.cmd ∈ W) (w_flow : Block.flow ∈ W) (w_vec : Block.vec ∈ W) :
    OnlyWrites W S (repTestEvent kind pair passed s) ↔ OnlyWrites W S s := by
  unfold repTestEvent; simp [w_emit, w_cmd, w_flow, w_vec]

@[simp] theorem requestDone_writes (W : List Block) (S : State) (kind : Fin 8) (s : State) (w_emit : Block.emit ∈ W)
    (w_cmd : Block.cmd ∈ W) (w_flow : Block.flow ∈ W) (w_vec : Block.vec ∈ W) (w_rep : Block.rep ∈ W) :
    OnlyWrites W S (requestDone kind s) ↔ OnlyWrites W S s := by
  unfold requestDone; (repeat' split) <;> simp [w_emit, w_cmd, w_flow, w_vec, w_rep]

@[simp] theorem scrubSlice_writes (W : List Block) (S : State) (w : ScrubWork) (s : State) (w_emit : Block.emit ∈ W)
    (w_cmd : Block.cmd ∈ W) (w_flow : Block.flow ∈ W) (w_vec : Block.vec ∈ W) (w_rep : Block.rep ∈ W) :
    OnlyWrites W S (scrubSlice w s) ↔ OnlyWrites W S s := by
  unfold scrubSlice; (repeat' split) <;> simp [w_emit, w_cmd, w_flow, w_vec, w_rep]

theorem execScrubSlice_writes (W : List Block) (S : State) (dt : Nat) (w : ScrubWork) (s : State)
    (w_now : Block.now ∈ W) (w_clk : Block.clk ∈ W) (w_emit : Block.emit ∈ W) (w_cmd : Block.cmd ∈ W)
    (w_flow : Block.flow ∈ W) (w_vec : Block.vec ∈ W) (w_rep : Block.rep ∈ W) :
    ∃ u, execScrubSlice dt w s = .next u ∧ (OnlyWrites W S u ↔ OnlyWrites W S s) := by
  unfold execScrubSlice; exact ⟨_, rfl, by simp [w_now, w_clk, w_emit, w_cmd, w_flow, w_vec, w_rep]⟩

@[simp] theorem bankRetire_writes (W : List Block) (S : State) (b : Nat) (s : State) (w_emit : Block.emit ∈ W)
    (w_cmd : Block.cmd ∈ W) (w_flow : Block.flow ∈ W) (w_swc : Block.swc ∈ W) (w_vec : Block.vec ∈ W)
    (w_rep : Block.rep ∈ W) :
    OnlyWrites W S (bankRetire b s) ↔ OnlyWrites W S s := by
  unfold bankRetire; dsimp only; (repeat' split) <;> simp [w_emit, w_cmd, w_flow, w_swc, w_vec, w_rep]

theorem execBankDrainComplete_writes (W : List Block) (S : State) (dt : Nat) (bank : Fin 26) (s : State)
    (w_now : Block.now ∈ W) (w_clk : Block.clk ∈ W) (w_emit : Block.emit ∈ W) (w_cmd : Block.cmd ∈ W)
    (w_flow : Block.flow ∈ W) (w_swc : Block.swc ∈ W) (w_vec : Block.vec ∈ W) (w_rep : Block.rep ∈ W) :
    ∃ u, execBankDrainComplete dt bank s = .next u ∧ (OnlyWrites W S u ↔ OnlyWrites W S s) := by
  unfold execBankDrainComplete; exact ⟨_, rfl, by simp [w_now, w_clk, w_emit, w_cmd, w_flow, w_swc, w_vec, w_rep]⟩

@[simp] theorem rotationTry_writes (W : List Block) (S : State) (s : State) (w_lsk : Block.lsk ∈ W)
    (w_rep : Block.rep ∈ W) :
    OnlyWrites W S (rotationTry s) ↔ OnlyWrites W S s := by
  unfold rotationTry; dsimp only; (repeat' split) <;> simp [w_lsk, w_rep]

theorem execRotationStep_writes (W : List Block) (S : State) (dt : Nat) (s : State) (w_now : Block.now ∈ W)
    (w_clk : Block.clk ∈ W) (w_emit : Block.emit ∈ W) (w_lsk : Block.lsk ∈ W) (w_rep : Block.rep ∈ W) :
    ∃ u, execRotationStep dt s = .next u ∧ (OnlyWrites W S u ↔ OnlyWrites W S s) := by
  unfold execRotationStep; exact ⟨_, rfl, by simp [w_now, w_clk, w_emit, w_lsk, w_rep]⟩

@[simp] theorem agingRead_writes (W : List Block) (S : State) (monitors : List Nat) (s : State)
    (w_rep : Block.rep ∈ W) :
    OnlyWrites W S (agingRead monitors s) ↔ OnlyWrites W S s := by
  unfold agingRead; simp [w_rep]

@[simp] theorem applyCache_writes (W : List Block) (S : State) (p : Fin 5) (atStart : Bool) (s : State)
    (w_emit : Block.emit ∈ W) (w_cmd : Block.cmd ∈ W) (w_flow : Block.flow ∈ W) (w_vec : Block.vec ∈ W)
    (w_rep : Block.rep ∈ W) :
    OnlyWrites W S (applyCache p atStart s) ↔ OnlyWrites W S s := by
  unfold applyCache; simp [w_emit, w_cmd, w_flow, w_vec, w_rep]

@[simp] theorem testPassed_writes (W : List Block) (S : State) (p : Fin 5) (s : State) (w_emit : Block.emit ∈ W)
    (w_cmd : Block.cmd ∈ W) (w_flow : Block.flow ∈ W) (w_lsk : Block.lsk ∈ W) (w_vec : Block.vec ∈ W)
    (w_rep : Block.rep ∈ W) :
    OnlyWrites W S (testPassed p s) ↔ OnlyWrites W S s := by
  unfold testPassed; simp [w_emit, w_cmd, w_flow, w_lsk, w_vec, w_rep]

@[simp] theorem testFailed_writes (W : List Block) (S : State) (p : Fin 5) (s : State) (w_emit : Block.emit ∈ W)
    (w_cmd : Block.cmd ∈ W) (w_flow : Block.flow ∈ W) (w_lsk : Block.lsk ∈ W) (w_vec : Block.vec ∈ W)
    (w_rep : Block.rep ∈ W) :
    OnlyWrites W S (testFailed p s) ↔ OnlyWrites W S s := by
  unfold testFailed; simp [w_emit, w_cmd, w_flow, w_lsk, w_vec, w_rep]

@[simp] theorem selfTestEnd_writes (W : List Block) (S : State) (p : Fin 5) (passed : Bool) (monitors : List Nat)
    (s : State) (w_emit : Block.emit ∈ W) (w_cmd : Block.cmd ∈ W) (w_flow : Block.flow ∈ W) (w_lsk : Block.lsk ∈ W)
    (w_vec : Block.vec ∈ W) (w_rep : Block.rep ∈ W) :
    OnlyWrites W S (selfTestEnd p passed monitors s) ↔ OnlyWrites W S s := by
  unfold selfTestEnd; simp [w_emit, w_cmd, w_flow, w_lsk, w_vec, w_rep]

theorem execLogicSelfTestComplete_writes (W : List Block) (S : State) (dt : Nat) (phys : Fin 5) (passed : Bool)
    (monitors : List Nat) (s : State) (w_now : Block.now ∈ W) (w_clk : Block.clk ∈ W) (w_emit : Block.emit ∈ W)
    (w_cmd : Block.cmd ∈ W) (w_flow : Block.flow ∈ W) (w_lsk : Block.lsk ∈ W) (w_vec : Block.vec ∈ W)
    (w_rep : Block.rep ∈ W) :
    ∃ u, execLogicSelfTestComplete dt phys passed monitors s = .next u ∧ (OnlyWrites W S u ↔ OnlyWrites W S s) := by
  unfold execLogicSelfTestComplete; exact ⟨_, rfl, by simp [w_now, w_clk, w_emit, w_cmd, w_flow, w_lsk, w_vec, w_rep]⟩

theorem execAgingMonitorRead_writes (W : List Block) (S : State) (dt : Nat) (monitors : List Nat) (s : State)
    (w_now : Block.now ∈ W) (w_clk : Block.clk ∈ W) (w_emit : Block.emit ∈ W) (w_rep : Block.rep ∈ W) :
    ∃ u, execAgingMonitorRead dt monitors s = .next u ∧ (OnlyWrites W S u ↔ OnlyWrites W S s) := by
  unfold execAgingMonitorRead; exact ⟨_, rfl, by simp [w_now, w_clk, w_emit, w_rep]⟩

@[simp] theorem agingApply_writes (W : List Block) (S : State) (s : State) (w_emit : Block.emit ∈ W)
    (w_cmd : Block.cmd ∈ W) (w_flow : Block.flow ∈ W) (w_vec : Block.vec ∈ W) (w_rep : Block.rep ∈ W) :
    OnlyWrites W S (agingApply s) ↔ OnlyWrites W S s := by
  unfold agingApply; (repeat' split) <;> simp [w_emit, w_cmd, w_flow, w_vec, w_rep]

@[simp] theorem repStatusBody_writes (W : List Block) (S : State) (r : Ring) (s : State) (w_rep : Block.rep ∈ W) :
    OnlyWrites W S (repStatusBody r s).2 ↔ OnlyWrites W S s := by
  unfold repStatusBody; simp [w_rep]

@[simp] theorem repLogBody_writes (W : List Block) (S : State) (r : Ring) (s : State) :
    OnlyWrites W S (repLogBody r s).2 ↔ OnlyWrites W S s := by
  unfold repLogBody; simp

@[simp] theorem addReq_writes (W : List Block) (S : State) (kind : Fin 8) (m : Nat) (s : State)
    (w_rep : Block.rep ∈ W) :
    OnlyWrites W S (addReq kind m s) ↔ OnlyWrites W S s := by
  unfold addReq; simp [w_rep]

@[simp] theorem askTest_writes (W : List Block) (S : State) (p : Fin 5) (s : State) (w_lsk : Block.lsk ∈ W)
    (w_rep : Block.rep ∈ W) :
    OnlyWrites W S (askTest p s) ↔ OnlyWrites W S s := by
  unfold askTest; simp [w_lsk, w_rep]

@[simp] theorem repTestBody_writes (W : List Block) (S : State) (r : Ring) (s : State) (w_lsk : Block.lsk ∈ W)
    (w_rep : Block.rep ∈ W) :
    OnlyWrites W S (repTestBody r s).2 ↔ OnlyWrites W S s := by
  unfold repTestBody; simp [w_lsk, w_rep]

@[simp] theorem repCalibrateBody_writes (W : List Block) (S : State) (r : Ring) (s : State) (w_rep : Block.rep ∈ W) :
    OnlyWrites W S (repCalibrateBody r s).2 ↔ OnlyWrites W S s := by
  unfold repCalibrateBody; simp [w_rep]

@[simp] theorem repRotationBody_writes (W : List Block) (S : State) (r : Ring) (s : State) (w_rep : Block.rep ∈ W) :
    OnlyWrites W S (repRotationBody r s).2 ↔ OnlyWrites W S s := by
  unfold repRotationBody; simp [w_rep]

theorem execRepStatus_writes (W : List Block) (S : State) (dt : Nat) (r : Ring) (s : State) (w_now : Block.now ∈ W)
    (w_clk : Block.clk ∈ W) (w_free : Block.free ∈ W) (w_emit : Block.emit ∈ W) (w_sys : Block.sys ∈ W)
    (w_mbx : Block.mbx ∈ W) (w_cmd : Block.cmd ∈ W) (w_vec : Block.vec ∈ W) (w_rep : Block.rep ∈ W)
    (w_shelf : Block.shelf ∈ W) :
    ∃ u, execRepStatus dt r s = .next u ∧ (OnlyWrites W S u ↔ OnlyWrites W S s) := by
  unfold execRepStatus; exact ⟨_, rfl, by simp [w_now, w_clk, w_free, w_emit, w_sys, w_mbx, w_cmd, w_vec, w_rep, w_shelf]⟩

theorem execRepLog_writes (W : List Block) (S : State) (dt : Nat) (r : Ring) (s : State) (w_now : Block.now ∈ W)
    (w_clk : Block.clk ∈ W) (w_free : Block.free ∈ W) (w_emit : Block.emit ∈ W) (w_sys : Block.sys ∈ W)
    (w_mbx : Block.mbx ∈ W) (w_cmd : Block.cmd ∈ W) (w_vec : Block.vec ∈ W) (w_shelf : Block.shelf ∈ W) :
    ∃ u, execRepLog dt r s = .next u ∧ (OnlyWrites W S u ↔ OnlyWrites W S s) := by
  unfold execRepLog; exact ⟨_, rfl, by simp [w_now, w_clk, w_free, w_emit, w_sys, w_mbx, w_cmd, w_vec, w_shelf]⟩

theorem execRepTest_writes (W : List Block) (S : State) (dt : Nat) (r : Ring) (s : State) (w_now : Block.now ∈ W)
    (w_clk : Block.clk ∈ W) (w_free : Block.free ∈ W) (w_emit : Block.emit ∈ W) (w_sys : Block.sys ∈ W)
    (w_mbx : Block.mbx ∈ W) (w_cmd : Block.cmd ∈ W) (w_lsk : Block.lsk ∈ W) (w_vec : Block.vec ∈ W)
    (w_rep : Block.rep ∈ W) (w_shelf : Block.shelf ∈ W) :
    ∃ u, execRepTest dt r s = .next u ∧ (OnlyWrites W S u ↔ OnlyWrites W S s) := by
  unfold execRepTest; exact ⟨_, rfl, by simp [w_now, w_clk, w_free, w_emit, w_sys, w_mbx, w_cmd, w_lsk, w_vec, w_rep, w_shelf]⟩

theorem execRepCalibrate_writes (W : List Block) (S : State) (dt : Nat) (r : Ring) (s : State) (w_now : Block.now ∈ W)
    (w_clk : Block.clk ∈ W) (w_free : Block.free ∈ W) (w_emit : Block.emit ∈ W) (w_sys : Block.sys ∈ W)
    (w_mbx : Block.mbx ∈ W) (w_cmd : Block.cmd ∈ W) (w_vec : Block.vec ∈ W) (w_rep : Block.rep ∈ W)
    (w_shelf : Block.shelf ∈ W) :
    ∃ u, execRepCalibrate dt r s = .next u ∧ (OnlyWrites W S u ↔ OnlyWrites W S s) := by
  unfold execRepCalibrate; exact ⟨_, rfl, by simp [w_now, w_clk, w_free, w_emit, w_sys, w_mbx, w_cmd, w_vec, w_rep, w_shelf]⟩

theorem execRepRotation_writes (W : List Block) (S : State) (dt : Nat) (r : Ring) (s : State) (w_now : Block.now ∈ W)
    (w_clk : Block.clk ∈ W) (w_free : Block.free ∈ W) (w_emit : Block.emit ∈ W) (w_sys : Block.sys ∈ W)
    (w_mbx : Block.mbx ∈ W) (w_cmd : Block.cmd ∈ W) (w_vec : Block.vec ∈ W) (w_rep : Block.rep ∈ W)
    (w_shelf : Block.shelf ∈ W) :
    ∃ u, execRepRotation dt r s = .next u ∧ (OnlyWrites W S u ↔ OnlyWrites W S s) := by
  unfold execRepRotation; exact ⟨_, rfl, by simp [w_now, w_clk, w_free, w_emit, w_sys, w_mbx, w_cmd, w_vec, w_rep, w_shelf]⟩

@[simp] theorem modPwr_writes (W : List Block) (S : State) (f : Pwr → Pwr) (s : State) (w_pwr : Block.pwr ∈ W) :
    OnlyWrites W S (modPwr f s) ↔ OnlyWrites W S s := by
  unfold modPwr; simp [w_pwr]

@[simp] theorem pwrCount_writes (W : List Block) (S : State) (i : Nat) (s : State) (w_pwr : Block.pwr ∈ W) :
    OnlyWrites W S (pwrCount i s) ↔ OnlyWrites W S s := by
  unfold pwrCount; simp [w_pwr]

@[simp] theorem setSupply_writes (W : List Block) (S : State) (n : Supply) (s : State) (w_emit : Block.emit ∈ W)
    (w_cmd : Block.cmd ∈ W) (w_flow : Block.flow ∈ W) (w_vec : Block.vec ∈ W) (w_pwr : Block.pwr ∈ W) :
    OnlyWrites W S (setSupply n s) ↔ OnlyWrites W S s := by
  unfold setSupply; (repeat' split) <;> simp [w_emit, w_cmd, w_flow, w_vec, w_pwr]

@[simp] theorem setDoms_writes (W : List Block) (S : State) (l : List (Nat × DomSt)) (s : State)
    (w_pwr : Block.pwr ∈ W) :
    OnlyWrites W S (setDoms l s) ↔ OnlyWrites W S s := by
  unfold setDoms; simp [w_pwr]

@[simp] theorem quietBuses_writes (W : List Block) (S : State) (s : State) (w_can : Block.can ∈ W)
    (w_mvb : Block.mvb ∈ W) :
    OnlyWrites W S (quietBuses s) ↔ OnlyWrites W S s := by
  unfold quietBuses; simp [w_can, w_mvb]

@[simp] theorem quietOutputs_writes (W : List Block) (S : State) (s : State) (w_now : Block.now ∈ W)
    (w_emit : Block.emit ∈ W) (w_time : Block.time ∈ W) (w_can : Block.can ∈ W) (w_mvb : Block.mvb ∈ W) :
    OnlyWrites W S (quietOutputs s) ↔ OnlyWrites W S s := by
  unfold quietOutputs; simp [w_now, w_emit, w_time, w_can, w_mvb]

@[simp] theorem declareLoss_writes (W : List Block) (S : State) (s : State) (w_now : Block.now ∈ W)
    (w_emit : Block.emit ∈ W) (w_cmd : Block.cmd ∈ W) (w_trunk : Block.trunk ∈ W) (w_time : Block.time ∈ W)
    (w_flow : Block.flow ∈ W) (w_lsk : Block.lsk ∈ W) (w_can : Block.can ∈ W) (w_mvb : Block.mvb ∈ W)
    (w_vec : Block.vec ∈ W) (w_pwr : Block.pwr ∈ W) (w_shadows : Block.shadows ∈ W) :
    OnlyWrites W S (declareLoss s) ↔ OnlyWrites W S s := by
  unfold declareLoss; simp [w_now, w_emit, w_cmd, w_trunk, w_time, w_flow, w_lsk, w_can, w_mvb, w_vec, w_pwr, w_shadows]

@[simp] theorem inputChange_writes (W : List Block) (S : State) (vin : Nat) (s : State) (w_now : Block.now ∈ W)
    (w_emit : Block.emit ∈ W) (w_cmd : Block.cmd ∈ W) (w_trunk : Block.trunk ∈ W) (w_ina : Block.ina ∈ W)
    (w_sched : Block.sched ∈ W) (w_time : Block.time ∈ W) (w_flow : Block.flow ∈ W) (w_lsk : Block.lsk ∈ W)
    (w_can : Block.can ∈ W) (w_mvb : Block.mvb ∈ W) (w_vec : Block.vec ∈ W) (w_pwr : Block.pwr ∈ W)
    (w_shadows : Block.shadows ∈ W) :
    OnlyWrites W S (inputChange vin s) ↔ OnlyWrites W S s := by
  unfold inputChange; simp [w_now, w_emit, w_cmd, w_trunk, w_ina, w_sched, w_time, w_flow, w_lsk, w_can, w_mvb, w_vec, w_pwr, w_shadows]

theorem execInputVoltageChange_writes (W : List Block) (S : State) (dt : Nat) (vin : Nat) (s : State)
    (w_now : Block.now ∈ W) (w_clk : Block.clk ∈ W) (w_emit : Block.emit ∈ W) (w_cmd : Block.cmd ∈ W)
    (w_trunk : Block.trunk ∈ W) (w_ina : Block.ina ∈ W) (w_sched : Block.sched ∈ W) (w_time : Block.time ∈ W)
    (w_flow : Block.flow ∈ W) (w_lsk : Block.lsk ∈ W) (w_can : Block.can ∈ W) (w_mvb : Block.mvb ∈ W)
    (w_vec : Block.vec ∈ W) (w_pwr : Block.pwr ∈ W) (w_shadows : Block.shadows ∈ W) :
    ∃ u, execInputVoltageChange dt vin s = .next u ∧ (OnlyWrites W S u ↔ OnlyWrites W S s) := by
  unfold execInputVoltageChange; exact ⟨_, rfl, by simp [w_now, w_clk, w_emit, w_cmd, w_trunk, w_ina, w_sched, w_time, w_flow, w_lsk, w_can, w_mvb, w_vec, w_pwr, w_shadows]⟩

theorem execStoreOkChange_writes (W : List Block) (S : State) (dt : Nat) (vstore : Nat) (s : State)
    (w_now : Block.now ∈ W) (w_clk : Block.clk ∈ W) (w_emit : Block.emit ∈ W) (w_pwr : Block.pwr ∈ W) :
    ∃ u, execStoreOkChange dt vstore s = .next u ∧ (OnlyWrites W S u ↔ OnlyWrites W S s) := by
  unfold execStoreOkChange; exact ⟨_, rfl, by simp [w_now, w_clk, w_emit, w_pwr]⟩

theorem execLossDeclared_writes (W : List Block) (S : State) (dt : Nat) (vin : Nat) (vstore : Nat) (s : State)
    (w_now : Block.now ∈ W) (w_clk : Block.clk ∈ W) (w_emit : Block.emit ∈ W) (w_cmd : Block.cmd ∈ W)
    (w_trunk : Block.trunk ∈ W) (w_time : Block.time ∈ W) (w_flow : Block.flow ∈ W) (w_lsk : Block.lsk ∈ W)
    (w_can : Block.can ∈ W) (w_mvb : Block.mvb ∈ W) (w_vec : Block.vec ∈ W) (w_pwr : Block.pwr ∈ W)
    (w_shadows : Block.shadows ∈ W) :
    ∃ u, execLossDeclared dt vin vstore s = .next u ∧ (OnlyWrites W S u ↔ OnlyWrites W S s) := by
  unfold execLossDeclared; exact ⟨_, rfl, by simp [w_now, w_clk, w_emit, w_cmd, w_trunk, w_time, w_flow, w_lsk, w_can, w_mvb, w_vec, w_pwr, w_shadows]⟩

theorem execShutdownBypassClose_writes (W : List Block) (S : State) (dt : Nat) (s : State) (w_now : Block.now ∈ W)
    (w_clk : Block.clk ∈ W) (w_emit : Block.emit ∈ W) (w_cmd : Block.cmd ∈ W) (w_trunk : Block.trunk ∈ W)
    (w_ina : Block.ina ∈ W) (w_sched : Block.sched ∈ W) (w_flow : Block.flow ∈ W) (w_vec : Block.vec ∈ W) :
    ∃ u, execShutdownBypassClose dt s = .next u ∧ (OnlyWrites W S u ↔ OnlyWrites W S s) := by
  unfold execShutdownBypassClose; exact ⟨_, rfl, by simp [w_now, w_clk, w_emit, w_cmd, w_trunk, w_ina, w_sched, w_flow, w_vec]⟩

theorem execPd0Stop_writes (W : List Block) (S : State) (dt : Nat) (s : State) (w_now : Block.now ∈ W)
    (w_clk : Block.clk ∈ W) (w_emit : Block.emit ∈ W) (w_time : Block.time ∈ W) :
    ∃ u, execPd0Stop dt s = .next u ∧ (OnlyWrites W S u ↔ OnlyWrites W S s) := by
  unfold execPd0Stop; exact ⟨_, rfl, by simp [-begin__frame, w_now, w_clk, w_emit, w_time]⟩

@[simp] theorem thermalEvent_writes (W : List Block) (S : State) (state : Nat) (s : State) (w_emit : Block.emit ∈ W)
    (w_cmd : Block.cmd ∈ W) (w_flow : Block.flow ∈ W) (w_vec : Block.vec ∈ W) (w_pwr : Block.pwr ∈ W) :
    OnlyWrites W S (thermalEvent state s) ↔ OnlyWrites W S s := by
  unfold thermalEvent; simp [w_emit, w_cmd, w_flow, w_vec, w_pwr]

@[simp] theorem thermalIn_writes (W : List Block) (S : State) (case_ die : Int) (s : State) (w_now : Block.now ∈ W)
    (w_emit : Block.emit ∈ W) (w_cmd : Block.cmd ∈ W) (w_trunk : Block.trunk ∈ W) (w_time : Block.time ∈ W)
    (w_flow : Block.flow ∈ W) (w_lsk : Block.lsk ∈ W) (w_can : Block.can ∈ W) (w_mvb : Block.mvb ∈ W)
    (w_vec : Block.vec ∈ W) (w_pwr : Block.pwr ∈ W) (w_shadows : Block.shadows ∈ W) :
    OnlyWrites W S (thermalIn case_ die s) ↔ OnlyWrites W S s := by
  unfold thermalIn; simp [w_now, w_emit, w_cmd, w_trunk, w_time, w_flow, w_lsk, w_can, w_mvb, w_vec, w_pwr, w_shadows]

theorem execThermalChange_writes (W : List Block) (S : State) (dt : Nat) (case : Int) (die : Int) (s : State)
    (w_now : Block.now ∈ W) (w_clk : Block.clk ∈ W) (w_emit : Block.emit ∈ W) (w_cmd : Block.cmd ∈ W)
    (w_trunk : Block.trunk ∈ W) (w_time : Block.time ∈ W) (w_flow : Block.flow ∈ W) (w_lsk : Block.lsk ∈ W)
    (w_can : Block.can ∈ W) (w_mvb : Block.mvb ∈ W) (w_vec : Block.vec ∈ W) (w_pwr : Block.pwr ∈ W)
    (w_shadows : Block.shadows ∈ W) :
    ∃ u, execThermalChange dt case die s = .next u ∧ (OnlyWrites W S u ↔ OnlyWrites W S s) := by
  unfold execThermalChange; exact ⟨_, rfl, by simp [w_now, w_clk, w_emit, w_cmd, w_trunk, w_time, w_flow, w_lsk, w_can, w_mvb, w_vec, w_pwr, w_shadows]⟩

@[simp] theorem enterDom_writes (W : List Block) (S : State) (d : Nat) (n : DomSt) (s : State) (w_pwr : Block.pwr ∈ W) :
    OnlyWrites W S (enterDom d n s) ↔ OnlyWrites W S s := by
  unfold enterDom; (repeat' split) <;> simp [w_pwr]

@[simp] theorem chooseDom_writes (W : List Block) (S : State) (d : Nat) (s : State) (w_pwr : Block.pwr ∈ W) :
    OnlyWrites W S (chooseDom d s) ↔ OnlyWrites W S s := by
  unfold chooseDom; simp [w_pwr]

theorem execPowerDomainIdle_writes (W : List Block) (S : State) (dt : Nat) (d : Fin 12) (idle : Bool)
    (next : Option Nat) (s : State) (w_now : Block.now ∈ W) (w_clk : Block.clk ∈ W) (w_emit : Block.emit ∈ W)
    (w_pwr : Block.pwr ∈ W) :
    ∃ u, execPowerDomainIdle dt d idle next s = .next u ∧ (OnlyWrites W S u ↔ OnlyWrites W S s) := by
  unfold execPowerDomainIdle; exact ⟨_, rfl, by simp [w_now, w_clk, w_emit, w_pwr]⟩

@[simp] theorem wakeDom_writes (W : List Block) (S : State) (d : Nat) (s : State) (w_pwr : Block.pwr ∈ W) :
    OnlyWrites W S (wakeDom d s) ↔ OnlyWrites W S s := by
  unfold wakeDom; (repeat' split) <;> simp [w_pwr]

theorem execDomainWakeTimer_writes (W : List Block) (S : State) (dt : Nat) (d : Fin 12) (s : State)
    (w_now : Block.now ∈ W) (w_clk : Block.clk ∈ W) (w_emit : Block.emit ∈ W) (w_pwr : Block.pwr ∈ W) :
    ∃ u, execDomainWakeTimer dt d s = .next u ∧ (OnlyWrites W S u ↔ OnlyWrites W S s) := by
  unfold execDomainWakeTimer; exact ⟨_, rfl, by simp [w_now, w_clk, w_emit, w_pwr]⟩

theorem execAsyncDomainWake_writes (W : List Block) (S : State) (dt : Nat) (d : Fin 12) (due : Option Nat) (s : State)
    (w_now : Block.now ∈ W) (w_clk : Block.clk ∈ W) (w_emit : Block.emit ∈ W) (w_pwr : Block.pwr ∈ W) :
    ∃ u, execAsyncDomainWake dt d due s = .next u ∧ (OnlyWrites W S u ↔ OnlyWrites W S s) := by
  unfold execAsyncDomainWake; exact ⟨_, rfl, by simp [w_now, w_clk, w_emit, w_pwr]⟩

@[simp] theorem parkedEvent_writes (W : List Block) (S : State) (kiln : Bool) (s : State) (w_emit : Block.emit ∈ W)
    (w_cmd : Block.cmd ∈ W) (w_flow : Block.flow ∈ W) (w_vec : Block.vec ∈ W) (w_pwr : Block.pwr ∈ W) :
    OnlyWrites W S (parkedEvent kiln s) ↔ OnlyWrites W S s := by
  unfold parkedEvent; simp [w_emit, w_cmd, w_flow, w_vec, w_pwr]

@[simp] theorem portToListen_writes (W : List Block) (S : State) (p : Nat) (s : State) (w_trunk : Block.trunk ∈ W) :
    OnlyWrites W S (portToListen p s) ↔ OnlyWrites W S s := by
  unfold portToListen; simp [w_trunk]

@[simp] theorem enterPark_writes (W : List Block) (S : State) (s : State) (w_now : Block.now ∈ W)
    (w_emit : Block.emit ∈ W) (w_cmd : Block.cmd ∈ W) (w_trunk : Block.trunk ∈ W) (w_ina : Block.ina ∈ W)
    (w_time : Block.time ∈ W) (w_flow : Block.flow ∈ W) (w_twin : Block.twin ∈ W) (w_lsk : Block.lsk ∈ W)
    (w_can : Block.can ∈ W) (w_mvb : Block.mvb ∈ W) (w_vec : Block.vec ∈ W) (w_pwr : Block.pwr ∈ W)
    (w_shadows : Block.shadows ∈ W) :
    OnlyWrites W S (enterPark s) ↔ OnlyWrites W S s := by
  unfold enterPark; simp [w_now, w_emit, w_cmd, w_trunk, w_ina, w_time, w_flow, w_twin, w_lsk, w_can, w_mvb, w_vec, w_pwr, w_shadows]

@[simp] theorem forwardWake_writes (W : List Block) (S : State) (port : Option (Fin 4)) (s : State)
    (w_emit : Block.emit ∈ W) :
    OnlyWrites W S (forwardWake port s) ↔ OnlyWrites W S s := by
  unfold forwardWake; simp [w_emit]

@[simp] theorem wakeIn_writes (W : List Block) (S : State) (src : Nat) (port : Option (Fin 4)) (s : State)
    (w_emit : Block.emit ∈ W) (w_sys : Block.sys ∈ W) (w_pwr : Block.pwr ∈ W) :
    OnlyWrites W S (wakeIn src port s) ↔ OnlyWrites W S s := by
  unfold wakeIn; simp [w_emit, w_sys, w_pwr]

theorem execWakeSource_writes (W : List Block) (S : State) (dt : Nat) (src : Fin 5) (port : Option (Fin 4)) (s : State)
    (w_now : Block.now ∈ W) (w_clk : Block.clk ∈ W) (w_emit : Block.emit ∈ W) (w_sys : Block.sys ∈ W)
    (w_pwr : Block.pwr ∈ W) :
    ∃ u, execWakeSource dt src port s = .next u ∧ (OnlyWrites W S u ↔ OnlyWrites W S s) := by
  unfold execWakeSource; exact ⟨_, rfl, by simp [w_now, w_clk, w_emit, w_sys, w_pwr]⟩

theorem execWakeLLowTimeout_writes (W : List Block) (S : State) (dt : Nat) (s : State) (w_now : Block.now ∈ W)
    (w_clk : Block.clk ∈ W) (w_emit : Block.emit ∈ W) (w_sys : Block.sys ∈ W) (w_pwr : Block.pwr ∈ W) :
    ∃ u, execWakeLLowTimeout dt s = .next u ∧ (OnlyWrites W S u ↔ OnlyWrites W S s) := by
  unfold execWakeLLowTimeout; exact ⟨_, rfl, by simp [w_now, w_clk, w_emit, w_sys, w_pwr]⟩

@[simp] theorem pwrStatusBody_writes (W : List Block) (S : State) (r : Ring) (s : State) (w_pwr : Block.pwr ∈ W) :
    OnlyWrites W S (pwrStatusBody r s).2 ↔ OnlyWrites W S s := by
  unfold pwrStatusBody; simp [w_pwr]

@[simp] theorem pwrStore_writes (W : List Block) (S : State) (s : State) (w_pwr : Block.pwr ∈ W) :
    OnlyWrites W S (pwrStore s) ↔ OnlyWrites W S s := by
  unfold pwrStore; simp [w_pwr]

@[simp] theorem pwrDomainConfigBody_writes (W : List Block) (S : State) (r : Ring) (s : State) (w_pwr : Block.pwr ∈ W) :
    OnlyWrites W S (pwrDomainConfigBody r s).2 ↔ OnlyWrites W S s := by
  unfold pwrDomainConfigBody; simp [w_pwr]

@[simp] theorem dropEntry_writes (W : List Block) (S : State) (s : State) (w_emit : Block.emit ∈ W)
    (w_cmd : Block.cmd ∈ W) (w_flow : Block.flow ∈ W) (w_vec : Block.vec ∈ W) (w_pwr : Block.pwr ∈ W) :
    OnlyWrites W S (dropEntry s) ↔ OnlyWrites W S s := by
  unfold dropEntry; simp [w_emit, w_cmd, w_flow, w_vec, w_pwr]

@[simp] theorem entryBody_writes (W : List Block) (S : State) (kiln : Bool) (r : Ring) (s : State)
    (w_emit : Block.emit ∈ W) (w_cmd : Block.cmd ∈ W) (w_flow : Block.flow ∈ W) (w_vec : Block.vec ∈ W)
    (w_pwr : Block.pwr ∈ W) :
    OnlyWrites W S (entryBody kiln r s).2 ↔ OnlyWrites W S s := by
  unfold entryBody; simp [w_emit, w_cmd, w_flow, w_vec, w_pwr]

@[simp] theorem pwrWakeConfigBody_writes (W : List Block) (S : State) (r : Ring) (s : State) (w_pwr : Block.pwr ∈ W) :
    OnlyWrites W S (pwrWakeConfigBody r s).2 ↔ OnlyWrites W S s := by
  unfold pwrWakeConfigBody; simp [w_pwr]

theorem execPwrStatus_writes (W : List Block) (S : State) (dt : Nat) (r : Ring) (s : State) (w_now : Block.now ∈ W)
    (w_clk : Block.clk ∈ W) (w_free : Block.free ∈ W) (w_emit : Block.emit ∈ W) (w_sys : Block.sys ∈ W)
    (w_mbx : Block.mbx ∈ W) (w_cmd : Block.cmd ∈ W) (w_vec : Block.vec ∈ W) (w_pwr : Block.pwr ∈ W)
    (w_shelf : Block.shelf ∈ W) :
    ∃ u, execPwrStatus dt r s = .next u ∧ (OnlyWrites W S u ↔ OnlyWrites W S s) := by
  unfold execPwrStatus; exact ⟨_, rfl, by simp [w_now, w_clk, w_free, w_emit, w_sys, w_mbx, w_cmd, w_vec, w_pwr, w_shelf]⟩

theorem execPwrDomainConfig_writes (W : List Block) (S : State) (dt : Nat) (r : Ring) (s : State)
    (w_now : Block.now ∈ W) (w_clk : Block.clk ∈ W) (w_free : Block.free ∈ W) (w_emit : Block.emit ∈ W)
    (w_sys : Block.sys ∈ W) (w_mbx : Block.mbx ∈ W) (w_cmd : Block.cmd ∈ W) (w_vec : Block.vec ∈ W)
    (w_pwr : Block.pwr ∈ W) (w_shelf : Block.shelf ∈ W) :
    ∃ u, execPwrDomainConfig dt r s = .next u ∧ (OnlyWrites W S u ↔ OnlyWrites W S s) := by
  unfold execPwrDomainConfig; exact ⟨_, rfl, by simp [w_now, w_clk, w_free, w_emit, w_sys, w_mbx, w_cmd, w_vec, w_pwr, w_shelf]⟩

theorem execPwrPark_writes (W : List Block) (S : State) (dt : Nat) (r : Ring) (s : State) (w_now : Block.now ∈ W)
    (w_clk : Block.clk ∈ W) (w_free : Block.free ∈ W) (w_emit : Block.emit ∈ W) (w_sys : Block.sys ∈ W)
    (w_mbx : Block.mbx ∈ W) (w_cmd : Block.cmd ∈ W) (w_flow : Block.flow ∈ W) (w_vec : Block.vec ∈ W)
    (w_pwr : Block.pwr ∈ W) (w_shelf : Block.shelf ∈ W) :
    ∃ u, execPwrPark dt r s = .next u ∧ (OnlyWrites W S u ↔ OnlyWrites W S s) := by
  unfold execPwrPark; exact ⟨_, rfl, by simp [w_now, w_clk, w_free, w_emit, w_sys, w_mbx, w_cmd, w_flow, w_vec, w_pwr, w_shelf]⟩

theorem execPwrParkWithdraw_writes (W : List Block) (S : State) (dt : Nat) (r : Ring) (s : State)
    (w_now : Block.now ∈ W) (w_clk : Block.clk ∈ W) (w_free : Block.free ∈ W) (w_emit : Block.emit ∈ W)
    (w_sys : Block.sys ∈ W) (w_mbx : Block.mbx ∈ W) (w_cmd : Block.cmd ∈ W) (w_flow : Block.flow ∈ W)
    (w_vec : Block.vec ∈ W) (w_pwr : Block.pwr ∈ W) (w_shelf : Block.shelf ∈ W) :
    ∃ u, execPwrParkWithdraw dt r s = .next u ∧ (OnlyWrites W S u ↔ OnlyWrites W S s) := by
  unfold execPwrParkWithdraw; exact ⟨_, rfl, by simp [w_now, w_clk, w_free, w_emit, w_sys, w_mbx, w_cmd, w_flow, w_vec, w_pwr, w_shelf]⟩

theorem execPwrKiln_writes (W : List Block) (S : State) (dt : Nat) (r : Ring) (s : State) (w_now : Block.now ∈ W)
    (w_clk : Block.clk ∈ W) (w_free : Block.free ∈ W) (w_emit : Block.emit ∈ W) (w_sys : Block.sys ∈ W)
    (w_mbx : Block.mbx ∈ W) (w_cmd : Block.cmd ∈ W) (w_flow : Block.flow ∈ W) (w_vec : Block.vec ∈ W)
    (w_pwr : Block.pwr ∈ W) (w_shelf : Block.shelf ∈ W) :
    ∃ u, execPwrKiln dt r s = .next u ∧ (OnlyWrites W S u ↔ OnlyWrites W S s) := by
  unfold execPwrKiln; exact ⟨_, rfl, by simp [w_now, w_clk, w_free, w_emit, w_sys, w_mbx, w_cmd, w_flow, w_vec, w_pwr, w_shelf]⟩

theorem execPwrKilnWithdraw_writes (W : List Block) (S : State) (dt : Nat) (r : Ring) (s : State)
    (w_now : Block.now ∈ W) (w_clk : Block.clk ∈ W) (w_free : Block.free ∈ W) (w_emit : Block.emit ∈ W)
    (w_sys : Block.sys ∈ W) (w_mbx : Block.mbx ∈ W) (w_cmd : Block.cmd ∈ W) (w_flow : Block.flow ∈ W)
    (w_vec : Block.vec ∈ W) (w_pwr : Block.pwr ∈ W) (w_shelf : Block.shelf ∈ W) :
    ∃ u, execPwrKilnWithdraw dt r s = .next u ∧ (OnlyWrites W S u ↔ OnlyWrites W S s) := by
  unfold execPwrKilnWithdraw; exact ⟨_, rfl, by simp [w_now, w_clk, w_free, w_emit, w_sys, w_mbx, w_cmd, w_flow, w_vec, w_pwr, w_shelf]⟩

theorem execPwrWakeConfig_writes (W : List Block) (S : State) (dt : Nat) (r : Ring) (s : State) (w_now : Block.now ∈ W)
    (w_clk : Block.clk ∈ W) (w_free : Block.free ∈ W) (w_emit : Block.emit ∈ W) (w_sys : Block.sys ∈ W)
    (w_mbx : Block.mbx ∈ W) (w_cmd : Block.cmd ∈ W) (w_vec : Block.vec ∈ W) (w_pwr : Block.pwr ∈ W)
    (w_shelf : Block.shelf ∈ W) :
    ∃ u, execPwrWakeConfig dt r s = .next u ∧ (OnlyWrites W S u ↔ OnlyWrites W S s) := by
  unfold execPwrWakeConfig; exact ⟨_, rfl, by simp [w_now, w_clk, w_free, w_emit, w_sys, w_mbx, w_cmd, w_vec, w_pwr, w_shelf]⟩

@[simp] theorem sysPatchStageBody_writes (W : List Block) (S : State) (r : Ring) (s : State) (w_sys : Block.sys ∈ W) :
    OnlyWrites W S (sysPatchStageBody r s).2 ↔ OnlyWrites W S s := by
  unfold sysPatchStageBody; simp [w_sys]

@[simp] theorem sysPatchVerifyBody_writes (W : List Block) (S : State) (_r : Ring) (s : State) (w_sys : Block.sys ∈ W) :
    OnlyWrites W S (sysPatchVerifyBody _r s).2 ↔ OnlyWrites W S s := by
  unfold sysPatchVerifyBody; (repeat' split) <;> simp [w_sys]

@[simp] theorem sysIdentityBody_writes (W : List Block) (S : State) (_r : Ring) (s : State) :
    OnlyWrites W S (sysIdentityBody _r s).2 ↔ OnlyWrites W S s := by
  unfold sysIdentityBody; simp

@[simp] theorem sysNopBody_writes (W : List Block) (S : State) (r : Ring) (s : State) :
    OnlyWrites W S (sysNopBody r s).2 ↔ OnlyWrites W S s := by
  unfold sysNopBody; simp

@[simp] theorem sysLogReadBody_writes (W : List Block) (S : State) (r : Ring) (s : State) :
    OnlyWrites W S (sysLogReadBody r s).2 ↔ OnlyWrites W S s := by
  unfold sysLogReadBody; simp

@[simp] theorem sysEventMaskBody_writes (W : List Block) (S : State) (r : Ring) (s : State) (w_cmd : Block.cmd ∈ W) :
    OnlyWrites W S (sysEventMaskBody r s).2 ↔ OnlyWrites W S s := by
  unfold sysEventMaskBody; simp [w_cmd]

@[simp] theorem sysResetBody_writes (W : List Block) (S : State) (r : Ring) (s : State) (w_sys : Block.sys ∈ W) :
    OnlyWrites W S (sysResetBody r s).2 ↔ OnlyWrites W S s := by
  unfold sysResetBody; simp [w_sys]

@[simp] theorem queuedDropped_writes (W : List Block) (S : State) (qs : List Queued) (s : State) (w_now : Block.now ∈ W)
    (w_trunk : Block.trunk ∈ W) (w_ina : Block.ina ∈ W) (w_sched : Block.sched ∈ W) (w_time : Block.time ∈ W)
    (w_twin : Block.twin ∈ W) (w_lsk : Block.lsk ∈ W) (w_mvb : Block.mvb ∈ W) (w_swc : Block.swc ∈ W)
    (w_pwr : Block.pwr ∈ W) (w_rep : Block.rep ∈ W) :
    OnlyWrites W S (queuedDropped qs s) ↔ OnlyWrites W S s := by
  apply writes_of; rw [onlyWrites_parts]
  simp [queuedDropped, w_now, w_trunk, w_ina, w_sched, w_time, w_twin, w_lsk, w_mvb, w_swc, w_pwr, w_rep]

@[simp] theorem resetFollow_writes (W : List Block) (S : State) (s : State) (w_free : Block.free ∈ W)
    (w_emit : Block.emit ∈ W) (w_mbx : Block.mbx ∈ W) (w_cmd : Block.cmd ∈ W) (w_flow : Block.flow ∈ W)
    (w_vec : Block.vec ∈ W) (w_now : Block.now ∈ W) (w_sched : Block.sched ∈ W) (w_time : Block.time ∈ W) (w_trunk : Block.trunk ∈ W) (w_ina : Block.ina ∈ W) (w_twin : Block.twin ∈ W) (w_lsk : Block.lsk ∈ W) (w_mvb : Block.mvb ∈ W) (w_swc : Block.swc ∈ W) (w_pwr : Block.pwr ∈ W) (w_rep : Block.rep ∈ W) :
    OnlyWrites W S (resetFollow s) ↔ OnlyWrites W S s := by
  unfold resetFollow; (repeat' split) <;> simp [w_trunk, w_ina, w_twin, w_lsk, w_mvb, w_swc, w_pwr, w_rep, w_now, w_sched, w_time, w_free, w_emit, w_mbx, w_cmd, w_flow, w_vec]

@[simp] theorem thenReset_writes (W : List Block) (S : State) (before after : State) (w_free : Block.free ∈ W)
    (w_emit : Block.emit ∈ W) (w_mbx : Block.mbx ∈ W) (w_cmd : Block.cmd ∈ W) (w_flow : Block.flow ∈ W)
    (w_vec : Block.vec ∈ W) (w_now : Block.now ∈ W) (w_sched : Block.sched ∈ W) (w_time : Block.time ∈ W) (w_trunk : Block.trunk ∈ W) (w_ina : Block.ina ∈ W) (w_twin : Block.twin ∈ W) (w_lsk : Block.lsk ∈ W) (w_mvb : Block.mvb ∈ W) (w_swc : Block.swc ∈ W) (w_pwr : Block.pwr ∈ W) (w_rep : Block.rep ∈ W) :
    OnlyWrites W S (thenReset before after) ↔ OnlyWrites W S after := by
  unfold thenReset; split <;> simp [w_trunk, w_ina, w_twin, w_lsk, w_mvb, w_swc, w_pwr, w_rep, w_now, w_sched, w_time, w_free, w_emit, w_mbx, w_cmd, w_flow, w_vec]

@[simp] theorem sysProfileConfirmBody_writes (W : List Block) (S : State) (r : Ring) (s : State)
    (w_sys : Block.sys ∈ W) :
    OnlyWrites W S (sysProfileConfirmBody r s).2 ↔ OnlyWrites W S s := by
  unfold sysProfileConfirmBody; simp [w_sys]

@[simp] theorem debugNonce_writes (W : List Block) (S : State) (s : State) (w_sys : Block.sys ∈ W) :
    OnlyWrites W S (debugNonce s).2 ↔ OnlyWrites W S s := by
  unfold debugNonce; simp [w_sys]

@[simp] theorem debugUnlock_writes (W : List Block) (S : State) (req : List Byte) (s : State) (w_emit : Block.emit ∈ W)
    (w_sys : Block.sys ∈ W) (w_cmd : Block.cmd ∈ W) (w_flow : Block.flow ∈ W) (w_vec : Block.vec ∈ W) :
    OnlyWrites W S (debugUnlock req s).2 ↔ OnlyWrites W S s := by
  unfold debugUnlock; (repeat' split) <;> simp [w_emit, w_sys, w_cmd, w_flow, w_vec]

@[simp] theorem sysDebugBody_writes (W : List Block) (S : State) (r : Ring) (s : State) (w_emit : Block.emit ∈ W)
    (w_sys : Block.sys ∈ W) (w_cmd : Block.cmd ∈ W) (w_flow : Block.flow ∈ W) (w_vec : Block.vec ∈ W) :
    OnlyWrites W S (sysDebugBody r s).2 ↔ OnlyWrites W S s := by
  unfold sysDebugBody; (repeat' split) <;> simp [w_emit, w_sys, w_cmd, w_flow, w_vec]

theorem execSysIdentity_writes (W : List Block) (S : State) (dt : Nat) (r : Ring) (s : State) (w_now : Block.now ∈ W)
    (w_clk : Block.clk ∈ W) (w_free : Block.free ∈ W) (w_emit : Block.emit ∈ W) (w_sys : Block.sys ∈ W)
    (w_mbx : Block.mbx ∈ W) (w_cmd : Block.cmd ∈ W) (w_vec : Block.vec ∈ W) (w_shelf : Block.shelf ∈ W) :
    ∃ u, execSysIdentity dt r s = .next u ∧ (OnlyWrites W S u ↔ OnlyWrites W S s) := by
  unfold execSysIdentity; exact ⟨_, rfl, by simp [w_now, w_clk, w_free, w_emit, w_sys, w_mbx, w_cmd, w_vec, w_shelf]⟩

theorem execSysNop_writes (W : List Block) (S : State) (dt : Nat) (r : Ring) (s : State) (w_now : Block.now ∈ W)
    (w_clk : Block.clk ∈ W) (w_free : Block.free ∈ W) (w_emit : Block.emit ∈ W) (w_sys : Block.sys ∈ W)
    (w_mbx : Block.mbx ∈ W) (w_cmd : Block.cmd ∈ W) (w_vec : Block.vec ∈ W) (w_shelf : Block.shelf ∈ W) :
    ∃ u, execSysNop dt r s = .next u ∧ (OnlyWrites W S u ↔ OnlyWrites W S s) := by
  unfold execSysNop; exact ⟨_, rfl, by simp [w_now, w_clk, w_free, w_emit, w_sys, w_mbx, w_cmd, w_vec, w_shelf]⟩

theorem execSysReset_writes (W : List Block) (S : State) (dt : Nat) (r : Ring) (s : State) (w_now : Block.now ∈ W)
    (w_clk : Block.clk ∈ W) (w_free : Block.free ∈ W) (w_emit : Block.emit ∈ W) (w_sys : Block.sys ∈ W)
    (w_mbx : Block.mbx ∈ W) (w_cmd : Block.cmd ∈ W) (w_flow : Block.flow ∈ W) (w_vec : Block.vec ∈ W)
    (w_shelf : Block.shelf ∈ W) (w_sched : Block.sched ∈ W) (w_time : Block.time ∈ W) (w_trunk : Block.trunk ∈ W) (w_ina : Block.ina ∈ W) (w_twin : Block.twin ∈ W) (w_lsk : Block.lsk ∈ W) (w_mvb : Block.mvb ∈ W) (w_swc : Block.swc ∈ W) (w_pwr : Block.pwr ∈ W) (w_rep : Block.rep ∈ W) :
    ∃ u, execSysReset dt r s = .next u ∧ (OnlyWrites W S u ↔ OnlyWrites W S s) := by
  unfold execSysReset; exact ⟨_, rfl, by simp [w_trunk, w_ina, w_twin, w_lsk, w_mvb, w_swc, w_pwr, w_rep, w_sched, w_time, w_now, w_clk, w_free, w_emit, w_sys, w_mbx, w_cmd, w_flow, w_vec, w_shelf]⟩

theorem execSysEventMask_writes (W : List Block) (S : State) (dt : Nat) (r : Ring) (s : State) (w_now : Block.now ∈ W)
    (w_clk : Block.clk ∈ W) (w_free : Block.free ∈ W) (w_emit : Block.emit ∈ W) (w_sys : Block.sys ∈ W)
    (w_mbx : Block.mbx ∈ W) (w_cmd : Block.cmd ∈ W) (w_vec : Block.vec ∈ W) (w_shelf : Block.shelf ∈ W) :
    ∃ u, execSysEventMask dt r s = .next u ∧ (OnlyWrites W S u ↔ OnlyWrites W S s) := by
  unfold execSysEventMask; exact ⟨_, rfl, by simp [w_now, w_clk, w_free, w_emit, w_sys, w_mbx, w_cmd, w_vec, w_shelf]⟩

theorem execSysPatchStage_writes (W : List Block) (S : State) (dt : Nat) (r : Ring) (s : State) (w_now : Block.now ∈ W)
    (w_clk : Block.clk ∈ W) (w_free : Block.free ∈ W) (w_emit : Block.emit ∈ W) (w_sys : Block.sys ∈ W)
    (w_mbx : Block.mbx ∈ W) (w_cmd : Block.cmd ∈ W) (w_vec : Block.vec ∈ W) (w_shelf : Block.shelf ∈ W) :
    ∃ u, execSysPatchStage dt r s = .next u ∧ (OnlyWrites W S u ↔ OnlyWrites W S s) := by
  unfold execSysPatchStage; exact ⟨_, rfl, by simp [w_now, w_clk, w_free, w_emit, w_sys, w_mbx, w_cmd, w_vec, w_shelf]⟩

theorem execSysPatchVerify_writes (W : List Block) (S : State) (dt : Nat) (r : Ring) (s : State) (w_now : Block.now ∈ W)
    (w_clk : Block.clk ∈ W) (w_free : Block.free ∈ W) (w_emit : Block.emit ∈ W) (w_sys : Block.sys ∈ W)
    (w_mbx : Block.mbx ∈ W) (w_cmd : Block.cmd ∈ W) (w_vec : Block.vec ∈ W) (w_shelf : Block.shelf ∈ W) :
    ∃ u, execSysPatchVerify dt r s = .next u ∧ (OnlyWrites W S u ↔ OnlyWrites W S s) := by
  unfold execSysPatchVerify; exact ⟨_, rfl, by simp [w_now, w_clk, w_free, w_emit, w_sys, w_mbx, w_cmd, w_vec, w_shelf]⟩

theorem execSysLogRead_writes (W : List Block) (S : State) (dt : Nat) (r : Ring) (s : State) (w_now : Block.now ∈ W)
    (w_clk : Block.clk ∈ W) (w_free : Block.free ∈ W) (w_emit : Block.emit ∈ W) (w_sys : Block.sys ∈ W)
    (w_mbx : Block.mbx ∈ W) (w_cmd : Block.cmd ∈ W) (w_vec : Block.vec ∈ W) (w_shelf : Block.shelf ∈ W) :
    ∃ u, execSysLogRead dt r s = .next u ∧ (OnlyWrites W S u ↔ OnlyWrites W S s) := by
  unfold execSysLogRead; exact ⟨_, rfl, by simp [w_now, w_clk, w_free, w_emit, w_sys, w_mbx, w_cmd, w_vec, w_shelf]⟩

theorem execSysProfileConfirm_writes (W : List Block) (S : State) (dt : Nat) (r : Ring) (s : State)
    (w_now : Block.now ∈ W) (w_clk : Block.clk ∈ W) (w_free : Block.free ∈ W) (w_emit : Block.emit ∈ W)
    (w_sys : Block.sys ∈ W) (w_mbx : Block.mbx ∈ W) (w_cmd : Block.cmd ∈ W) (w_vec : Block.vec ∈ W)
    (w_shelf : Block.shelf ∈ W) :
    ∃ u, execSysProfileConfirm dt r s = .next u ∧ (OnlyWrites W S u ↔ OnlyWrites W S s) := by
  unfold execSysProfileConfirm; exact ⟨_, rfl, by simp [w_now, w_clk, w_free, w_emit, w_sys, w_mbx, w_cmd, w_vec, w_shelf]⟩

theorem execSysDebugNonce_writes (W : List Block) (S : State) (dt : Nat) (r : Ring) (s : State) (w_now : Block.now ∈ W)
    (w_clk : Block.clk ∈ W) (w_free : Block.free ∈ W) (w_emit : Block.emit ∈ W) (w_sys : Block.sys ∈ W)
    (w_mbx : Block.mbx ∈ W) (w_cmd : Block.cmd ∈ W) (w_flow : Block.flow ∈ W) (w_vec : Block.vec ∈ W)
    (w_shelf : Block.shelf ∈ W) :
    ∃ u, execSysDebugNonce dt r s = .next u ∧ (OnlyWrites W S u ↔ OnlyWrites W S s) := by
  unfold execSysDebugNonce; exact ⟨_, rfl, by simp [w_now, w_clk, w_free, w_emit, w_sys, w_mbx, w_cmd, w_flow, w_vec, w_shelf]⟩

theorem execSysDebugUnlock_writes (W : List Block) (S : State) (dt : Nat) (r : Ring) (s : State) (w_now : Block.now ∈ W)
    (w_clk : Block.clk ∈ W) (w_free : Block.free ∈ W) (w_emit : Block.emit ∈ W) (w_sys : Block.sys ∈ W)
    (w_mbx : Block.mbx ∈ W) (w_cmd : Block.cmd ∈ W) (w_flow : Block.flow ∈ W) (w_vec : Block.vec ∈ W)
    (w_shelf : Block.shelf ∈ W) :
    ∃ u, execSysDebugUnlock dt r s = .next u ∧ (OnlyWrites W S u ↔ OnlyWrites W S s) := by
  unfold execSysDebugUnlock; exact ⟨_, rfl, by simp [w_now, w_clk, w_free, w_emit, w_sys, w_mbx, w_cmd, w_flow, w_vec, w_shelf]⟩

theorem execSysDebugRelock_writes (W : List Block) (S : State) (dt : Nat) (r : Ring) (s : State) (w_now : Block.now ∈ W)
    (w_clk : Block.clk ∈ W) (w_free : Block.free ∈ W) (w_emit : Block.emit ∈ W) (w_sys : Block.sys ∈ W)
    (w_mbx : Block.mbx ∈ W) (w_cmd : Block.cmd ∈ W) (w_flow : Block.flow ∈ W) (w_vec : Block.vec ∈ W)
    (w_shelf : Block.shelf ∈ W) :
    ∃ u, execSysDebugRelock dt r s = .next u ∧ (OnlyWrites W S u ↔ OnlyWrites W S s) := by
  unfold execSysDebugRelock; exact ⟨_, rfl, by simp [w_now, w_clk, w_free, w_emit, w_sys, w_mbx, w_cmd, w_flow, w_vec, w_shelf]⟩

@[simp] theorem workWrite_writes (W : List Block) (S : State) (a : Nat) (d : List Byte) (s : State)
    (w_twin : Block.twin ∈ W) (w_lsk : Block.lsk ∈ W) :
    OnlyWrites W S (workWrite a d s) ↔ OnlyWrites W S s := by
  unfold workWrite; dsimp only; (repeat' split) <;> simp_all [w_twin, w_lsk]

@[simp] theorem writeBack_writes (W : List Block) (S : State) (c : CoreState) (s : State) (w_twin : Block.twin ∈ W)
    (w_lsk : Block.lsk ∈ W) :
    OnlyWrites W S (writeBack c s) ↔ OnlyWrites W S s := by
  unfold writeBack; (repeat' split) <;> simp_all [w_twin, w_lsk]

@[simp] theorem tickClose_writes (W : List Block) (S : State) (s : State) (w_fab : Block.fab ∈ W) :
    OnlyWrites W S (tickClose s) ↔ OnlyWrites W S s := by
  unfold tickClose; (repeat' split) <;> simp_all [w_fab]

end Sys2Proof.Machine
end

