-- ==== Sys2Proof/Laws/WritesHost.lean ====
section
/-! SUPPORT. The host side: which parts of a state they may write. -/

namespace Sys2Proof.Machine

@[simp] theorem modBridge_writes (W : List Block) (S : State) (f : Bridge → Bridge) (s : State)
    (w_bridge : Block.bridge ∈ W) (w_vec : Block.vec ∈ W) :
    OnlyWrites W S (modBridge f s) ↔ OnlyWrites W S s := by
  unfold modBridge; simp [w_bridge, w_vec]

@[simp] theorem bridgeCount_writes (W : List Block) (S : State) (i : Nat) (s : State) (w_bridge : Block.bridge ∈ W)
    (w_vec : Block.vec ∈ W) :
    OnlyWrites W S (bridgeCount i s) ↔ OnlyWrites W S s := by
  unfold bridgeCount; simp [w_bridge, w_vec]

@[simp] theorem semSet_writes (W : List Block) (S : State) (k : Nat) (x : Option Sem) (s : State)
    (w_bridge : Block.bridge ∈ W) (w_vec : Block.vec ∈ W) :
    OnlyWrites W S (semSet k x s) ↔ OnlyWrites W S s := by
  unfold semSet; simp [w_bridge, w_vec]

@[simp] theorem semTake_writes (W : List Block) (S : State) (i : Iface) (k : Nat) (s : State)
    (w_bridge : Block.bridge ∈ W) (w_vec : Block.vec ∈ W) :
    OnlyWrites W S (semTake i k s) ↔ OnlyWrites W S s := by
  unfold semTake; simp [w_bridge, w_vec]

@[simp] theorem semRead_writes (W : List Block) (S : State) (i : Iface) (k : Nat) (s : State)
    (w_bridge : Block.bridge ∈ W) (w_vec : Block.vec ∈ W) :
    OnlyWrites W S (semRead i k s).2 ↔ OnlyWrites W S s := by
  unfold semRead; (repeat' split) <;> simp [w_bridge, w_vec]

@[simp] theorem semWrite_writes (W : List Block) (S : State) (i : Iface) (k v : Nat) (s : State)
    (w_bridge : Block.bridge ∈ W) (w_vec : Block.vec ∈ W) :
    OnlyWrites W S (semWrite i k v s) ↔ OnlyWrites W S s := by
  unfold semWrite; (repeat' split) <;> simp [w_bridge, w_vec]

@[simp] theorem semEvent_writes (W : List Block) (S : State) (k cause : Nat) (s : State) (w_emit : Block.emit ∈ W)
    (w_cmd : Block.cmd ∈ W) (w_flow : Block.flow ∈ W) (w_vec : Block.vec ∈ W) :
    OnlyWrites W S (semEvent k cause s) ↔ OnlyWrites W S s := by
  unfold semEvent; simp [w_emit, w_cmd, w_flow, w_vec]

@[simp] theorem semFree_writes (W : List Block) (S : State) (k cause : Nat) (s : State) (w_emit : Block.emit ∈ W)
    (w_cmd : Block.cmd ∈ W) (w_flow : Block.flow ∈ W) (w_bridge : Block.bridge ∈ W) (w_vec : Block.vec ∈ W) :
    OnlyWrites W S (semFree k cause s) ↔ OnlyWrites W S s := by
  unfold semFree; simp [w_emit, w_cmd, w_flow, w_bridge, w_vec]

@[simp] theorem fabWindowSetBody_writes (W : List Block) (S : State) (r : Ring) (s : State)
    (w_bridge : Block.bridge ∈ W) (w_vec : Block.vec ∈ W) :
    OnlyWrites W S (fabWindowSetBody r s).2 ↔ OnlyWrites W S s := by
  unfold fabWindowSetBody; simp [w_bridge, w_vec]

@[simp] theorem fabBridgeStatusBody_writes (W : List Block) (S : State) (r : Ring) (s : State)
    (w_bridge : Block.bridge ∈ W) (w_vec : Block.vec ∈ W) :
    OnlyWrites W S (fabBridgeStatusBody r s).2 ↔ OnlyWrites W S s := by
  unfold fabBridgeStatusBody; simp [w_bridge, w_vec]

@[simp] theorem fabPwlogBody_writes (W : List Block) (S : State) (r : Ring) (s : State) (w_bridge : Block.bridge ∈ W)
    (w_vec : Block.vec ∈ W) :
    OnlyWrites W S (fabPwlogBody r s).2 ↔ OnlyWrites W S s := by
  unfold fabPwlogBody; simp [w_bridge, w_vec]

@[simp] theorem fabSemReleaseBody_writes (W : List Block) (S : State) (r : Ring) (s : State) (w_emit : Block.emit ∈ W)
    (w_cmd : Block.cmd ∈ W) (w_flow : Block.flow ∈ W) (w_bridge : Block.bridge ∈ W) (w_vec : Block.vec ∈ W) :
    OnlyWrites W S (fabSemReleaseBody r s).2 ↔ OnlyWrites W S s := by
  unfold fabSemReleaseBody; simp [w_emit, w_cmd, w_flow, w_bridge, w_vec]

theorem execFabWindowSet_writes (W : List Block) (S : State) (dt : Nat) (r : Ring) (s : State) (w_now : Block.now ∈ W)
    (w_clk : Block.clk ∈ W) (w_free : Block.free ∈ W) (w_emit : Block.emit ∈ W) (w_sys : Block.sys ∈ W)
    (w_mbx : Block.mbx ∈ W) (w_cmd : Block.cmd ∈ W) (w_bridge : Block.bridge ∈ W) (w_vec : Block.vec ∈ W)
    (w_shelf : Block.shelf ∈ W) :
    ∃ u, execFabWindowSet dt r s = .next u ∧ (OnlyWrites W S u ↔ OnlyWrites W S s) := by
  unfold execFabWindowSet; exact ⟨_, rfl, by simp [w_now, w_clk, w_free, w_emit, w_sys, w_mbx, w_cmd, w_bridge, w_vec, w_shelf]⟩

theorem execFabBridgeStatus_writes (W : List Block) (S : State) (dt : Nat) (r : Ring) (s : State)
    (w_now : Block.now ∈ W) (w_clk : Block.clk ∈ W) (w_free : Block.free ∈ W) (w_emit : Block.emit ∈ W)
    (w_sys : Block.sys ∈ W) (w_mbx : Block.mbx ∈ W) (w_cmd : Block.cmd ∈ W) (w_bridge : Block.bridge ∈ W)
    (w_vec : Block.vec ∈ W) (w_shelf : Block.shelf ∈ W) :
    ∃ u, execFabBridgeStatus dt r s = .next u ∧ (OnlyWrites W S u ↔ OnlyWrites W S s) := by
  unfold execFabBridgeStatus; exact ⟨_, rfl, by simp [w_now, w_clk, w_free, w_emit, w_sys, w_mbx, w_cmd, w_bridge, w_vec, w_shelf]⟩

theorem execFabPwlog_writes (W : List Block) (S : State) (dt : Nat) (r : Ring) (s : State) (w_now : Block.now ∈ W)
    (w_clk : Block.clk ∈ W) (w_free : Block.free ∈ W) (w_emit : Block.emit ∈ W) (w_sys : Block.sys ∈ W)
    (w_mbx : Block.mbx ∈ W) (w_cmd : Block.cmd ∈ W) (w_bridge : Block.bridge ∈ W) (w_vec : Block.vec ∈ W)
    (w_shelf : Block.shelf ∈ W) :
    ∃ u, execFabPwlog dt r s = .next u ∧ (OnlyWrites W S u ↔ OnlyWrites W S s) := by
  unfold execFabPwlog; exact ⟨_, rfl, by simp [w_now, w_clk, w_free, w_emit, w_sys, w_mbx, w_cmd, w_bridge, w_vec, w_shelf]⟩

theorem execFabSemRelease_writes (W : List Block) (S : State) (dt : Nat) (r : Ring) (s : State) (w_now : Block.now ∈ W)
    (w_clk : Block.clk ∈ W) (w_free : Block.free ∈ W) (w_emit : Block.emit ∈ W) (w_sys : Block.sys ∈ W)
    (w_mbx : Block.mbx ∈ W) (w_cmd : Block.cmd ∈ W) (w_flow : Block.flow ∈ W) (w_bridge : Block.bridge ∈ W)
    (w_vec : Block.vec ∈ W) (w_shelf : Block.shelf ∈ W) :
    ∃ u, execFabSemRelease dt r s = .next u ∧ (OnlyWrites W S u ↔ OnlyWrites W S s) := by
  unfold execFabSemRelease; exact ⟨_, rfl, by simp [w_now, w_clk, w_free, w_emit, w_sys, w_mbx, w_cmd, w_flow, w_bridge, w_vec, w_shelf]⟩

@[simp] theorem queuedComplete_writes (W : List Block) (S : State) (seq : BitVec 32) (status : BitVec 16) (s : State)
    (w_now : Block.now ∈ W) (w_emit : Block.emit ∈ W) (w_sys : Block.sys ∈ W) (w_cmd : Block.cmd ∈ W)
    (w_time : Block.time ∈ W) (w_flow : Block.flow ∈ W) (w_can : Block.can ∈ W) (w_swc : Block.swc ∈ W)
    (w_vec : Block.vec ∈ W) (w_shelf : Block.shelf ∈ W) :
    OnlyWrites W S (queuedComplete seq status s) ↔ OnlyWrites W S s := by
  unfold queuedComplete; (repeat' split) <;> simp [w_now, w_emit, w_sys, w_cmd, w_time, w_flow, w_can, w_swc, w_vec, w_shelf]

theorem execQueuedCommandComplete_writes (W : List Block) (S : State) (dt : Nat) (seq : BitVec 32) (status : BitVec 16)
    (s : State) (w_now : Block.now ∈ W) (w_clk : Block.clk ∈ W) (w_emit : Block.emit ∈ W) (w_sys : Block.sys ∈ W)
    (w_cmd : Block.cmd ∈ W) (w_time : Block.time ∈ W) (w_flow : Block.flow ∈ W) (w_can : Block.can ∈ W)
    (w_swc : Block.swc ∈ W) (w_vec : Block.vec ∈ W) (w_shelf : Block.shelf ∈ W) :
    ∃ u, execQueuedCommandComplete dt seq status s = .next u ∧ (OnlyWrites W S u ↔ OnlyWrites W S s) := by
  unfold execQueuedCommandComplete; exact ⟨_, rfl, by simp [w_now, w_clk, w_emit, w_sys, w_cmd, w_time, w_flow, w_can, w_swc, w_vec, w_shelf]⟩

@[simp] theorem lockRead_writes (W : List Block) (S : State) (i : Iface) (n : Nat) (s : State) (w_mbx : Block.mbx ∈ W) :
    OnlyWrites W S (lockRead i n s).2 ↔ OnlyWrites W S s := by
  unfold lockRead; (repeat' split) <;> simp [w_mbx]

@[simp] theorem lockWrite_writes (W : List Block) (S : State) (i : Iface) (n v : Nat) (s : State)
    (w_mbx : Block.mbx ∈ W) :
    OnlyWrites W S (lockWrite i n v s) ↔ OnlyWrites W S s := by
  unfold lockWrite; simp [w_mbx]

@[simp] theorem doorbellRead_writes (W : List Block) (S : State) (i : Iface) (off : Nat) (s : State)
    (w_mbx : Block.mbx ∈ W) (w_cmd : Block.cmd ∈ W) :
    OnlyWrites W S (doorbellRead i off s).2 ↔ OnlyWrites W S s := by
  unfold doorbellRead; simp [w_mbx, w_cmd]

@[simp] theorem evqRdWrite_writes (W : List Block) (S : State) (i : Iface) (v : Nat) (s : State)
    (w_emit : Block.emit ∈ W) (w_cmd : Block.cmd ∈ W) (w_vec : Block.vec ∈ W) :
    OnlyWrites W S (evqRdWrite i v s) ↔ OnlyWrites W S s := by
  unfold evqRdWrite; simp [w_emit, w_cmd, w_vec]

@[simp] theorem evqRead_writes (W : List Block) (S : State) (off : Nat) (s : State) (w_cmd : Block.cmd ∈ W) :
    OnlyWrites W S (evqRead off s).2 ↔ OnlyWrites W S s := by
  unfold evqRead; (repeat' split) <;> simp [w_cmd]

@[simp] theorem holdTimeout_writes (W : List Block) (S : State) (s : State) (w_emit : Block.emit ∈ W)
    (w_cmd : Block.cmd ∈ W) (w_vec : Block.vec ∈ W) :
    OnlyWrites W S (holdTimeout s) ↔ OnlyWrites W S s := by
  unfold holdTimeout; dsimp only; (repeat' split) <;> simp [w_emit, w_cmd, w_vec]

@[simp] theorem multiRead_writes (W : List Block) (S : State) (i : Iface) (base off : Nat) (words : List Nat)
    (s : State) (w_shadows : Block.shadows ∈ W) :
    OnlyWrites W S (multiRead i base off words s).2 ↔ OnlyWrites W S s := by
  unfold multiRead; simp [w_shadows]

@[simp] theorem ttsRead_writes (W : List Block) (S : State) (i : Iface) (off : Nat) (s : State) (w_now : Block.now ∈ W)
    (w_time : Block.time ∈ W) (w_shadows : Block.shadows ∈ W) :
    OnlyWrites W S (ttsRead i off s).2 ↔ OnlyWrites W S s := by
  unfold ttsRead; simp [w_now, w_time, w_shadows]

@[simp] theorem tioRead_writes (W : List Block) (S : State) (i : Iface) (n off : Nat) (s : State)
    (w_now : Block.now ∈ W) (w_time : Block.time ∈ W) (w_shadows : Block.shadows ∈ W) :
    OnlyWrites W S (tioRead i n off s).2 ↔ OnlyWrites W S s := by
  unfold tioRead; simp [w_now, w_time, w_shadows]

@[simp] theorem canReadFull_writes (W : List Block) (S : State) (i : Iface) (c off : Nat) (s : State)
    (w_can : Block.can ∈ W) :
    OnlyWrites W S (canReadFull i c off s).2 ↔ OnlyWrites W S s := by
  unfold canReadFull; (repeat' split) <;> simp [w_can]

@[simp] theorem summaryRead_writes (W : List Block) (S : State) (i : Iface) (j off : Nat) (s : State)
    (w_shadows : Block.shadows ∈ W) :
    OnlyWrites W S (summaryRead i j off s).2 ↔ OnlyWrites W S s := by
  unfold summaryRead; simp [w_shadows]

@[simp] theorem regRead_writes (W : List Block) (S : State) (i : Iface) (a : Nat) (s : State) (w_now : Block.now ∈ W)
    (w_mbx : Block.mbx ∈ W) (w_cmd : Block.cmd ∈ W) (w_time : Block.time ∈ W) (w_flow : Block.flow ∈ W)
    (w_can : Block.can ∈ W) (w_shadows : Block.shadows ∈ W) :
    OnlyWrites W S (regRead i a s).2 ↔ OnlyWrites W S s := by
  unfold regRead; simp [w_now, w_mbx, w_cmd, w_time, w_flow, w_can, w_shadows]

@[simp] theorem busRead_writes (W : List Block) (S : State) (i : Iface) (a n : Nat) (s : State) (w_now : Block.now ∈ W)
    (w_mbx : Block.mbx ∈ W) (w_cmd : Block.cmd ∈ W) (w_time : Block.time ∈ W) (w_flow : Block.flow ∈ W)
    (w_can : Block.can ∈ W) (w_shadows : Block.shadows ∈ W) :
    OnlyWrites W S (busRead i a n s).2 ↔ OnlyWrites W S s := by
  unfold busRead; (repeat' split) <;> simp [w_now, w_mbx, w_cmd, w_time, w_flow, w_can, w_shadows]

@[simp] theorem readAccess_writes (W : List Block) (S : State) (dt : Nat) (src : Iface) (a n : Nat) (s : State)
    (w_now : Block.now ∈ W) (w_clk : Block.clk ∈ W) (w_emit : Block.emit ∈ W) (w_mbx : Block.mbx ∈ W)
    (w_cmd : Block.cmd ∈ W) (w_time : Block.time ∈ W) (w_flow : Block.flow ∈ W) (w_lsk : Block.lsk ∈ W)
    (w_can : Block.can ∈ W) (w_bridge : Block.bridge ∈ W) (w_vec : Block.vec ∈ W) (w_shadows : Block.shadows ∈ W) :
    OnlyWrites W S (readAccess dt src a n s) ↔ OnlyWrites W S s := by
  unfold readAccess; simp [w_now, w_clk, w_emit, w_mbx, w_cmd, w_time, w_flow, w_lsk, w_can, w_bridge, w_vec, w_shadows]

theorem execMbxLockRead_writes (W : List Block) (S : State) (dt : Nat) (src : Iface) (mbx : Fin 8) (s : State)
    (w_now : Block.now ∈ W) (w_clk : Block.clk ∈ W) (w_emit : Block.emit ∈ W) (w_mbx : Block.mbx ∈ W)
    (w_cmd : Block.cmd ∈ W) (w_time : Block.time ∈ W) (w_flow : Block.flow ∈ W) (w_lsk : Block.lsk ∈ W)
    (w_can : Block.can ∈ W) (w_bridge : Block.bridge ∈ W) (w_vec : Block.vec ∈ W) (w_shadows : Block.shadows ∈ W) :
    ∃ u, execMbxLockRead dt src mbx s = .next u ∧ (OnlyWrites W S u ↔ OnlyWrites W S s) := by
  unfold execMbxLockRead; exact ⟨_, rfl, by simp [w_now, w_clk, w_emit, w_mbx, w_cmd, w_time, w_flow, w_lsk, w_can, w_bridge, w_vec, w_shadows]⟩

theorem execMbxLockWrite_writes (W : List Block) (S : State) (dt : Nat) (src : Iface) (mbx : Fin 8) (value : BitVec 32)
    (s : State) (w_now : Block.now ∈ W) (w_clk : Block.clk ∈ W) (w_emit : Block.emit ∈ W) (w_mbx : Block.mbx ∈ W)
    (w_lsk : Block.lsk ∈ W) (w_bridge : Block.bridge ∈ W) (w_vec : Block.vec ∈ W) :
    ∃ u, execMbxLockWrite dt src mbx value s = .next u ∧ (OnlyWrites W S u ↔ OnlyWrites W S s) := by
  unfold execMbxLockWrite; exact ⟨_, rfl, by simp [w_now, w_clk, w_emit, w_mbx, w_lsk, w_bridge, w_vec]⟩

theorem execEvqRdWrite_writes (W : List Block) (S : State) (dt : Nat) (src : Iface) (value : BitVec 32) (s : State)
    (w_now : Block.now ∈ W) (w_clk : Block.clk ∈ W) (w_emit : Block.emit ∈ W) (w_cmd : Block.cmd ∈ W)
    (w_lsk : Block.lsk ∈ W) (w_bridge : Block.bridge ∈ W) (w_vec : Block.vec ∈ W) :
    ∃ u, execEvqRdWrite dt src value s = .next u ∧ (OnlyWrites W S u ↔ OnlyWrites W S s) := by
  unfold execEvqRdWrite; exact ⟨_, rfl, by simp [w_now, w_clk, w_emit, w_cmd, w_lsk, w_bridge, w_vec]⟩

theorem execEvqHoldTimeout_writes (W : List Block) (S : State) (dt : Nat) (s : State) (w_now : Block.now ∈ W)
    (w_clk : Block.clk ∈ W) (w_emit : Block.emit ∈ W) (w_cmd : Block.cmd ∈ W) (w_vec : Block.vec ∈ W) :
    ∃ u, execEvqHoldTimeout dt s = .next u ∧ (OnlyWrites W S u ↔ OnlyWrites W S s) := by
  unfold execEvqHoldTimeout; exact ⟨_, rfl, by simp [w_now, w_clk, w_emit, w_cmd, w_vec]⟩

theorem execPdiReleaseHost_writes (W : List Block) (S : State) (dt : Nat) (src : Iface) (value : BitVec 32) (s : State)
    (w_now : Block.now ∈ W) (w_clk : Block.clk ∈ W) (w_emit : Block.emit ∈ W) (w_flow : Block.flow ∈ W)
    (w_lsk : Block.lsk ∈ W) (w_bridge : Block.bridge ∈ W) (w_vec : Block.vec ∈ W) :
    ∃ u, execPdiReleaseHost dt src value s = .next u ∧ (OnlyWrites W S u ↔ OnlyWrites W S s) := by
  unfold execPdiReleaseHost; exact ⟨_, rfl, by simp [w_now, w_clk, w_emit, w_flow, w_lsk, w_bridge, w_vec]⟩

theorem execPdiReleasePair_writes (W : List Block) (S : State) (dt : Nat) (l : Fin 4) (value : BitVec 32) (s : State)
    (w_now : Block.now ∈ W) (w_clk : Block.clk ∈ W) (w_emit : Block.emit ∈ W) (w_flow : Block.flow ∈ W)
    (w_lsk : Block.lsk ∈ W) (w_bridge : Block.bridge ∈ W) (w_vec : Block.vec ∈ W) :
    ∃ u, execPdiReleasePair dt l value s = .next u ∧ (OnlyWrites W S u ↔ OnlyWrites W S s) := by
  unfold execPdiReleasePair; exact ⟨_, rfl, by simp [w_now, w_clk, w_emit, w_flow, w_lsk, w_bridge, w_vec]⟩

theorem execPdiRelMaskWrite_writes (W : List Block) (S : State) (dt : Nat) (src : Iface) (value : BitVec 32) (s : State)
    (w_now : Block.now ∈ W) (w_clk : Block.clk ∈ W) (w_emit : Block.emit ∈ W) (w_flow : Block.flow ∈ W)
    (w_lsk : Block.lsk ∈ W) (w_bridge : Block.bridge ∈ W) (w_vec : Block.vec ∈ W) :
    ∃ u, execPdiRelMaskWrite dt src value s = .next u ∧ (OnlyWrites W S u ↔ OnlyWrites W S s) := by
  unfold execPdiRelMaskWrite; exact ⟨_, rfl, by simp [w_now, w_clk, w_emit, w_flow, w_lsk, w_bridge, w_vec]⟩

theorem bridgeRoute_writes (W : List Block) (S : State) (resp : Bool) (f : BridgeFrame) (s t : State)
    (h : bridgeRoute resp f s = some t) (w_emit : Block.emit ∈ W) (w_trunk : Block.trunk ∈ W) (w_sched : Block.sched ∈ W) (w_fab : Block.fab ∈ W) :
    OnlyWrites W S t ↔ OnlyWrites W S s := by
  unfold bridgeRoute at h; dsimp only at h
  (repeat' split at h) <;> simp at h
  · obtain ⟨_, _, rfl⟩ := h; simp [w_emit, w_trunk, w_sched, w_fab]
  · obtain ⟨_, _, rfl⟩ := h; simp [w_emit, w_trunk, w_sched, w_fab]
  · subst h; simp [w_emit, w_trunk, w_sched, w_fab]

@[simp] theorem bridgeRoute_getD_writes (W : List Block) (S : State) (resp : Bool) (f : BridgeFrame) (s : State)
    (w_emit : Block.emit ∈ W) (w_trunk : Block.trunk ∈ W)
    (w_sched : Block.sched ∈ W) (w_fab : Block.fab ∈ W) :
    OnlyWrites W S ((bridgeRoute resp f s).getD s) ↔ OnlyWrites W S s := by
  cases h : bridgeRoute resp f s with
  | none => simp
  | some t => simpa using bridgeRoute_writes W S resp f s t h w_emit w_trunk w_sched w_fab

theorem sendOutbound_writes (W : List Block) (S : State) (o : Outbound) (s : State) (x : Outbound × State)
    (h : sendOutbound o s = some x) (w_emit : Block.emit ∈ W) (w_trunk : Block.trunk ∈ W) (w_sched : Block.sched ∈ W) (w_fab : Block.fab ∈ W) :
    OnlyWrites W S x.2 ↔ OnlyWrites W S s := by
  simp only [sendOutbound, Option.map_eq_some_iff] at h
  obtain ⟨t, ht, rfl⟩ := h
  exact bridgeRoute_writes W S _ _ s t ht w_emit w_trunk w_sched w_fab

@[simp] theorem withdrawIn_writes (W : List Block) (S : State) (r : BridgeFrame) (s : State)
    (w_bridge : Block.bridge ∈ W) (w_vec : Block.vec ∈ W) :
    OnlyWrites W S (withdrawIn r s) ↔ OnlyWrites W S s := by
  unfold withdrawIn; simp [w_bridge, w_vec]

@[simp] theorem putOut_writes (W : List Block) (S : State) (o : Outbound) (s : State) (w_bridge : Block.bridge ∈ W)
    (w_vec : Block.vec ∈ W) :
    OnlyWrites W S (putOut o s) ↔ OnlyWrites W S s := by
  unfold putOut; simp [w_bridge, w_vec]

@[simp] theorem putPosted_writes (W : List Block) (S : State) (old new : Outbound) (s : State)
    (w_bridge : Block.bridge ∈ W) (w_vec : Block.vec ∈ W) :
    OnlyWrites W S (putPosted old new s) ↔ OnlyWrites W S s := by
  unfold putPosted; simp [w_bridge, w_vec]

@[simp] theorem fetchStale_writes (W : List Block) (S : State) (s : State) (w_bridge : Block.bridge ∈ W)
    (w_vec : Block.vec ∈ W) :
    OnlyWrites W S (fetchStale s) ↔ OnlyWrites W S s := by
  unfold fetchStale; (repeat' split) <;> simp [w_bridge, w_vec]

@[simp] theorem askAgain_writes (W : List Block) (S : State) (o : Outbound) (put : Outbound → State → State) (s : State)
    (hp : ∀ o s, OnlyWrites W S (put o s) ↔ OnlyWrites W S s) (w_emit : Block.emit ∈ W) (w_trunk : Block.trunk ∈ W)
    (w_sched : Block.sched ∈ W) (w_fab : Block.fab ∈ W) (w_bridge : Block.bridge ∈ W) (w_vec : Block.vec ∈ W) :
    OnlyWrites W S (askAgain o put s) ↔ OnlyWrites W S s := by
  unfold askAgain; dsimp only; (repeat' split) <;> simp [w_emit, w_trunk, w_sched, w_fab, w_bridge, w_vec, hp]
  rename_i h; simpa [w_emit, w_trunk, w_sched, w_fab, w_bridge, w_vec] using sendOutbound_writes W S _ _ _ h

@[simp] theorem busyRetry_writes (W : List Block) (S : State) (s : State) (w_emit : Block.emit ∈ W)
    (w_trunk : Block.trunk ∈ W) (w_sched : Block.sched ∈ W) (w_fab : Block.fab ∈ W) (w_bridge : Block.bridge ∈ W)
    (w_vec : Block.vec ∈ W) :
    OnlyWrites W S (busyRetry s) ↔ OnlyWrites W S s := by
  unfold busyRetry; (repeat' split) <;> simp (maxDischargeDepth := 9) [w_emit, w_trunk, w_sched, w_fab, w_bridge, w_vec]

@[simp] theorem semTimeout_writes (W : List Block) (S : State) (k : Nat) (s : State) (w_emit : Block.emit ∈ W)
    (w_cmd : Block.cmd ∈ W) (w_flow : Block.flow ∈ W) (w_bridge : Block.bridge ∈ W) (w_vec : Block.vec ∈ W) :
    OnlyWrites W S (semTimeout k s) ↔ OnlyWrites W S s := by
  unfold semTimeout; (repeat' split) <;> simp [w_emit, w_cmd, w_flow, w_bridge, w_vec]

@[simp] theorem vecPendWrite_writes (W : List Block) (S : State) (v : BitVec 32) (s : State)
    (w_bridge : Block.bridge ∈ W) (w_vec : Block.vec ∈ W) :
    OnlyWrites W S (vecPendWrite v s) ↔ OnlyWrites W S s := by
  unfold vecPendWrite; simp [w_bridge, w_vec]

@[simp] theorem bar4Read_writes (W : List Block) (S : State) (i : Iface) (off : Nat) (s : State)
    (w_bridge : Block.bridge ∈ W) (w_vec : Block.vec ∈ W) :
    OnlyWrites W S (bar4Read i off s).2 ↔ OnlyWrites W S s := by
  unfold bar4Read; simp [w_bridge, w_vec]

@[simp] theorem barAccess_writes (W : List Block) (S : State) (dt : Nat) (src : Iface) (len : Nat)
    (w : Option (List Byte)) (f : State → State) (s : State) (hf : ∀ y0, OnlyWrites W S (f y0) ↔ OnlyWrites W S y0)
    (w_now : Block.now ∈ W) (w_clk : Block.clk ∈ W) (w_emit : Block.emit ∈ W) :
    OnlyWrites W S (barAccess dt src len w f s) ↔ OnlyWrites W S s := by
  unfold barAccess; (repeat' split) <;> simp_all

theorem execBridgeFetchStale_writes (W : List Block) (S : State) (dt : Nat) (s : State) (w_now : Block.now ∈ W)
    (w_clk : Block.clk ∈ W) (w_emit : Block.emit ∈ W) (w_bridge : Block.bridge ∈ W) (w_vec : Block.vec ∈ W) :
    ∃ u, execBridgeFetchStale dt s = .next u ∧ (OnlyWrites W S u ↔ OnlyWrites W S s) := by
  unfold execBridgeFetchStale; exact ⟨_, rfl, by simp [w_now, w_clk, w_emit, w_bridge, w_vec]⟩

theorem execBridgeBusyRetry_writes (W : List Block) (S : State) (dt : Nat) (s : State) (w_now : Block.now ∈ W)
    (w_clk : Block.clk ∈ W) (w_emit : Block.emit ∈ W) (w_trunk : Block.trunk ∈ W) (w_sched : Block.sched ∈ W)
    (w_fab : Block.fab ∈ W) (w_bridge : Block.bridge ∈ W) (w_vec : Block.vec ∈ W) :
    ∃ u, execBridgeBusyRetry dt s = .next u ∧ (OnlyWrites W S u ↔ OnlyWrites W S s) := by
  unfold execBridgeBusyRetry; exact ⟨_, rfl, by simp [w_now, w_clk, w_emit, w_trunk, w_sched, w_fab, w_bridge, w_vec]⟩

theorem execFabSemRead_writes (W : List Block) (S : State) (dt : Nat) (src : Iface) (k : Fin 32) (s : State)
    (w_now : Block.now ∈ W) (w_clk : Block.clk ∈ W) (w_emit : Block.emit ∈ W) (w_bridge : Block.bridge ∈ W)
    (w_vec : Block.vec ∈ W) :
    ∃ u, execFabSemRead dt src k s = .next u ∧ (OnlyWrites W S u ↔ OnlyWrites W S s) := by
  unfold execFabSemRead; exact ⟨_, rfl, by simp [w_now, w_clk, w_emit, w_bridge, w_vec]⟩

theorem execFabSemWrite_writes (W : List Block) (S : State) (dt : Nat) (src : Iface) (k : Fin 32) (value : BitVec 32)
    (s : State) (w_now : Block.now ∈ W) (w_clk : Block.clk ∈ W) (w_emit : Block.emit ∈ W) (w_bridge : Block.bridge ∈ W)
    (w_vec : Block.vec ∈ W) :
    ∃ u, execFabSemWrite dt src k value s = .next u ∧ (OnlyWrites W S u ↔ OnlyWrites W S s) := by
  unfold execFabSemWrite; exact ⟨_, rfl, by simp [w_now, w_clk, w_emit, w_bridge, w_vec]⟩

theorem execSemTmoExpiry_writes (W : List Block) (S : State) (dt : Nat) (k : Fin 32) (s : State) (w_now : Block.now ∈ W)
    (w_clk : Block.clk ∈ W) (w_emit : Block.emit ∈ W) (w_cmd : Block.cmd ∈ W) (w_flow : Block.flow ∈ W)
    (w_bridge : Block.bridge ∈ W) (w_vec : Block.vec ∈ W) :
    ∃ u, execSemTmoExpiry dt k s = .next u ∧ (OnlyWrites W S u ↔ OnlyWrites W S s) := by
  unfold execSemTmoExpiry; exact ⟨_, rfl, by simp [w_now, w_clk, w_emit, w_cmd, w_flow, w_bridge, w_vec]⟩

theorem execFabVecPendWrite_writes (W : List Block) (S : State) (dt : Nat) (src : Iface) (value : BitVec 32) (s : State)
    (w_now : Block.now ∈ W) (w_clk : Block.clk ∈ W) (w_emit : Block.emit ∈ W) (w_bridge : Block.bridge ∈ W)
    (w_vec : Block.vec ∈ W) :
    ∃ u, execFabVecPendWrite dt src value s = .next u ∧ (OnlyWrites W S u ↔ OnlyWrites W S s) := by
  unfold execFabVecPendWrite; exact ⟨_, rfl, by simp [w_now, w_clk, w_emit, w_bridge, w_vec]⟩

@[simp] theorem bar4Span_writes (W : List Block) (S : State) (i : Iface) (off n : Nat) (s : State)
    (w_bridge : Block.bridge ∈ W) (w_vec : Block.vec ∈ W) :
    OnlyWrites W S (bar4Span i off n s).2 ↔ OnlyWrites W S s := by
  unfold bar4Span; simp [w_bridge, w_vec]

@[simp] theorem spaceRead_writes (W : List Block) (S : State) (i : Iface) (a n : Nat) (s : State)
    (w_now : Block.now ∈ W) (w_mbx : Block.mbx ∈ W) (w_cmd : Block.cmd ∈ W) (w_time : Block.time ∈ W)
    (w_flow : Block.flow ∈ W) (w_can : Block.can ∈ W) (w_bridge : Block.bridge ∈ W) (w_vec : Block.vec ∈ W)
    (w_shadows : Block.shadows ∈ W) :
    OnlyWrites W S (spaceRead i a n s).2 ↔ OnlyWrites W S s := by
  unfold spaceRead; simp [w_now, w_mbx, w_cmd, w_time, w_flow, w_can, w_bridge, w_vec, w_shadows]

@[simp] theorem spaceAccess_writes (W : List Block) (S : State) (dt : Nat) (src : Iface) (a len : Nat)
    (w : Option (List Byte)) (f : State → State) (s : State) (hf : ∀ y0, OnlyWrites W S (f y0) ↔ OnlyWrites W S y0)
    (w_now : Block.now ∈ W) (w_clk : Block.clk ∈ W) (w_emit : Block.emit ∈ W) (w_lsk : Block.lsk ∈ W)
    (w_bridge : Block.bridge ∈ W) (w_vec : Block.vec ∈ W) :
    OnlyWrites W S (spaceAccess dt src a len w f s) ↔ OnlyWrites W S s := by
  unfold spaceAccess; (repeat' split) <;> simp_all

@[simp] theorem registerRead_writes (W : List Block) (S : State) (dt : Nat) (src : Iface) (a : Nat) (s : State)
    (w_now : Block.now ∈ W) (w_clk : Block.clk ∈ W) (w_emit : Block.emit ∈ W) (w_mbx : Block.mbx ∈ W)
    (w_cmd : Block.cmd ∈ W) (w_time : Block.time ∈ W) (w_flow : Block.flow ∈ W) (w_lsk : Block.lsk ∈ W)
    (w_can : Block.can ∈ W) (w_bridge : Block.bridge ∈ W) (w_vec : Block.vec ∈ W) (w_shadows : Block.shadows ∈ W) :
    OnlyWrites W S (registerRead dt src a s) ↔ OnlyWrites W S s := by
  unfold registerRead; simp [w_now, w_clk, w_emit, w_mbx, w_cmd, w_time, w_flow, w_lsk, w_can, w_bridge, w_vec, w_shadows]

theorem execMultiRegisterLatchRead_writes (W : List Block) (S : State) (dt : Nat) (src : Iface) (addr : Nat) (s : State)
    (w_now : Block.now ∈ W) (w_clk : Block.clk ∈ W) (w_emit : Block.emit ∈ W) (w_mbx : Block.mbx ∈ W)
    (w_cmd : Block.cmd ∈ W) (w_time : Block.time ∈ W) (w_flow : Block.flow ∈ W) (w_lsk : Block.lsk ∈ W)
    (w_can : Block.can ∈ W) (w_bridge : Block.bridge ∈ W) (w_vec : Block.vec ∈ W) (w_shadows : Block.shadows ∈ W) :
    ∃ u, execMultiRegisterLatchRead dt src addr s = .next u ∧ (OnlyWrites W S u ↔ OnlyWrites W S s) := by
  unfold execMultiRegisterLatchRead; exact ⟨_, rfl, by simp [w_now, w_clk, w_emit, w_mbx, w_cmd, w_time, w_flow, w_lsk, w_can, w_bridge, w_vec, w_shadows]⟩

theorem execRcFieldRead_writes (W : List Block) (S : State) (dt : Nat) (src : Iface) (addr : Nat) (s : State)
    (w_now : Block.now ∈ W) (w_clk : Block.clk ∈ W) (w_emit : Block.emit ∈ W) (w_mbx : Block.mbx ∈ W)
    (w_cmd : Block.cmd ∈ W) (w_time : Block.time ∈ W) (w_flow : Block.flow ∈ W) (w_lsk : Block.lsk ∈ W)
    (w_can : Block.can ∈ W) (w_bridge : Block.bridge ∈ W) (w_vec : Block.vec ∈ W) (w_shadows : Block.shadows ∈ W) :
    ∃ u, execRcFieldRead dt src addr s = .next u ∧ (OnlyWrites W S u ↔ OnlyWrites W S s) := by
  unfold execRcFieldRead; exact ⟨_, rfl, by simp [w_now, w_clk, w_emit, w_mbx, w_cmd, w_time, w_flow, w_lsk, w_can, w_bridge, w_vec, w_shadows]⟩

@[simp] theorem bridgePass_writes (W : List Block) (S : State) (p : Option (Fin 4)) (resp : Bool) (r : BridgeFrame)
    (s : State) (w_emit : Block.emit ∈ W) (w_trunk : Block.trunk ∈ W) :
    OnlyWrites W S (bridgePass p resp r s) ↔ OnlyWrites W S s := by
  unfold bridgePass; (repeat' split) <;> simp_all [w_emit, w_trunk]

@[simp] theorem blockRead_writes (W : List Block) (S : State) (l : Fin 4) (core a n : Nat) (s : State)
    (w_now : Block.now ∈ W) (w_emit : Block.emit ∈ W) (w_mbx : Block.mbx ∈ W) (w_cmd : Block.cmd ∈ W)
    (w_time : Block.time ∈ W) (w_flow : Block.flow ∈ W) (w_lsk : Block.lsk ∈ W) (w_can : Block.can ∈ W)
    (w_shadows : Block.shadows ∈ W) :
    OnlyWrites W S (blockRead l core a n s) ↔ OnlyWrites W S s := by
  unfold blockRead; dsimp only; (repeat' split) <;> simp_all [w_now, w_emit, w_mbx, w_cmd, w_time, w_flow, w_lsk, w_can, w_shadows]

@[simp] theorem memoryRead_writes (W : List Block) (S : State) (l : Fin 4) (core a n : Nat) (s : State)
    (w_lsk : Block.lsk ∈ W) :
    OnlyWrites W S (memoryRead l core a n s) ↔ OnlyWrites W S s := by
  unfold memoryRead; (repeat' split) <;> simp_all [w_lsk]

@[simp] theorem bridgeOther_writes (W : List Block) (S : State) (p : Option (Fin 4)) (resp : Bool) (r : BridgeFrame)
    (s : State) (w_emit : Block.emit ∈ W) (w_trunk : Block.trunk ∈ W) (w_sched : Block.sched ∈ W)
    (w_fab : Block.fab ∈ W) :
    OnlyWrites W S (bridgeOther p resp r s) ↔ OnlyWrites W S s := by
  unfold bridgeOther; (repeat' split) <;> simp_all [w_emit, w_trunk, w_sched, w_fab]

end Sys2Proof.Machine
end

