-- ==== Sys2Proof/Laws/WritesLife.lean ====
section
/-! SUPPORT. Start, the registration instant and what a command does: which parts of a state they may write. -/

namespace Sys2Proof.Machine

@[simp] theorem startPorts_writes (W : List Block) (S : State) (s : State) (w_trunk : Block.trunk ∈ W) :
    OnlyWrites W S (startPorts s) ↔ OnlyWrites W S s := by
  unfold startPorts; simp [w_trunk]

@[simp] theorem beginStart_writes (W : List Block) (S : State) (cause : Byte) (s : State) (w_sys : Block.sys ∈ W) :
    OnlyWrites W S (beginStart cause s) ↔ OnlyWrites W S s := by
  unfold beginStart; simp [w_sys]

@[simp] theorem tapReset_writes (W : List Block) (S : State) (s : State) (w_sys : Block.sys ∈ W) :
    OnlyWrites W S (tapReset s) ↔ OnlyWrites W S s := by
  unfold tapReset; simp [w_sys]

@[simp] theorem powerGood_writes (W : List Block) (S : State) (p : PowerGoodIn) (s : State) (w_now : Block.now ∈ W)
    (w_sys : Block.sys ∈ W) (w_trunk : Block.trunk ∈ W) (w_time : Block.time ∈ W) (w_pwr : Block.pwr ∈ W) (w_can : Block.can ∈ W) :
    OnlyWrites W S (powerGood p s) ↔ OnlyWrites W S s := by
  unfold powerGood; dsimp only
  rw [startPorts_writes _ _ _ w_trunk, beginStart_writes _ _ _ _ w_sys, tapReset_writes _ _ _ w_sys]
  refine (writes_of (s := s) ?_).trans Iff.rfl
  rw [onlyWrites_parts]; simp [w_can, w_now, w_sys, w_trunk, w_time, w_pwr, modSys]

theorem execPowerGood_writes (W : List Block) (S : State) (dt : Nat) (p : PowerGoodIn) (s : State)
    (w_now : Block.now ∈ W) (w_clk : Block.clk ∈ W) (w_emit : Block.emit ∈ W) (w_sys : Block.sys ∈ W)
    (w_trunk : Block.trunk ∈ W) (w_time : Block.time ∈ W) (w_pwr : Block.pwr ∈ W) (w_can : Block.can ∈ W) :
    ∃ u, execPowerGood dt p s = .next u ∧ (OnlyWrites W S u ↔ OnlyWrites W S s) := by
  unfold execPowerGood; exact ⟨_, rfl, by simp [w_can, w_now, w_clk, w_emit, w_sys, w_trunk, w_time, w_pwr]⟩

theorem execStartRetry_writes (W : List Block) (S : State) (dt : Nat) (s : State) (w_now : Block.now ∈ W)
    (w_clk : Block.clk ∈ W) (w_emit : Block.emit ∈ W) (w_sys : Block.sys ∈ W) :
    ∃ u, execStartRetry dt s = .next u ∧ (OnlyWrites W S u ↔ OnlyWrites W S s) := by
  unfold execStartRetry; exact ⟨_, rfl, by simp [w_now, w_clk, w_emit, w_sys]⟩

@[simp] theorem perstLow_writes (W : List Block) (S : State) (s : State) (w_sys : Block.sys ∈ W) :
    OnlyWrites W S (perstLow s) ↔ OnlyWrites W S s := by
  unfold perstLow; simp [w_sys]

theorem execPerstAssert_writes (W : List Block) (S : State) (dt : Nat) (s : State) (w_now : Block.now ∈ W)
    (w_clk : Block.clk ∈ W) (w_emit : Block.emit ∈ W) (w_sys : Block.sys ∈ W) :
    ∃ u, execPerstAssert dt s = .next u ∧ (OnlyWrites W S u ↔ OnlyWrites W S s) := by
  unfold execPerstAssert; exact ⟨_, rfl, by simp [w_now, w_clk, w_emit, w_sys]⟩

theorem execPerstRelease_writes (W : List Block) (S : State) (dt : Nat) (s : State) (w_now : Block.now ∈ W)
    (w_clk : Block.clk ∈ W) (w_emit : Block.emit ∈ W) (w_sys : Block.sys ∈ W) :
    ∃ u, execPerstRelease dt s = .next u ∧ (OnlyWrites W S u ↔ OnlyWrites W S s) := by
  unfold execPerstRelease; exact ⟨_, rfl, by simp [-begin__frame, w_now, w_clk, w_emit, w_sys]⟩

theorem execSupervisorFatalFault_writes (W : List Block) (S : State) (dt : Nat) (s : State) (w_now : Block.now ∈ W)
    (w_clk : Block.clk ∈ W) (w_emit : Block.emit ∈ W) (w_cmd : Block.cmd ∈ W) (w_trunk : Block.trunk ∈ W)
    (w_ina : Block.ina ∈ W) (w_sched : Block.sched ∈ W) (w_flow : Block.flow ∈ W) (w_vec : Block.vec ∈ W) :
    ∃ u, execSupervisorFatalFault dt s = .next u ∧ (OnlyWrites W S u ↔ OnlyWrites W S s) := by
  unfold execSupervisorFatalFault; exact ⟨_, rfl, by simp [w_now, w_clk, w_emit, w_cmd, w_trunk, w_ina, w_sched, w_flow, w_vec]⟩

theorem execJtagExtest_writes (W : List Block) (S : State) (dt : Nat) (s : State) (w_now : Block.now ∈ W)
    (w_clk : Block.clk ∈ W) (w_emit : Block.emit ∈ W) (w_sys : Block.sys ∈ W) (w_cmd : Block.cmd ∈ W)
    (w_trunk : Block.trunk ∈ W) (w_ina : Block.ina ∈ W) (w_sched : Block.sched ∈ W) (w_time : Block.time ∈ W)
    (w_flow : Block.flow ∈ W) (w_can : Block.can ∈ W) (w_mvb : Block.mvb ∈ W) (w_vec : Block.vec ∈ W) :
    ∃ u, execJtagExtest dt s = .next u ∧ (OnlyWrites W S u ↔ OnlyWrites W S s) := by
  refine ⟨_, rfl, ?_⟩
  rw [onlyWrites_ite, modSys_writes W S _ _ w_sys, modSys_writes W S _ _ w_sys]
  simp [w_now, w_clk, w_emit, w_cmd, w_trunk, w_ina, w_sched, w_time, w_flow, w_can, w_mvb, w_vec]

@[simp] theorem gateSuppress_writes (W : List Block) (S : State) (n : Nat) (s : State) (w_free : Block.free ∈ W)
    (w_emit : Block.emit ∈ W) (w_cmd : Block.cmd ∈ W) (w_sched : Block.sched ∈ W) (w_flow : Block.flow ∈ W)
    (w_vec : Block.vec ∈ W) :
    OnlyWrites W S (gateSuppress n s) ↔ OnlyWrites W S s := by
  unfold gateSuppress; simp [w_free, w_emit, w_cmd, w_sched, w_flow, w_vec]

@[simp] theorem spanSuppress_writes (W : List Block) (S : State) (im : Image) (b : Bool) (s : State)
    (w_emit : Block.emit ∈ W) (w_cmd : Block.cmd ∈ W) (w_sched : Block.sched ∈ W) (w_flow : Block.flow ∈ W)
    (w_vec : Block.vec ∈ W) :
    OnlyWrites W S (spanSuppress im b s) ↔ OnlyWrites W S s := by
  unfold spanSuppress; simp [w_emit, w_cmd, w_sched, w_flow, w_vec]

@[simp] theorem lineSends_writes (W : List Block) (S : State) (im : Image) (n : Nat) (b : Bool) (s : State)
    (w_free : Block.free ∈ W) (w_emit : Block.emit ∈ W) (w_cmd : Block.cmd ∈ W) (w_sched : Block.sched ∈ W)
    (w_flow : Block.flow ∈ W) (w_vec : Block.vec ∈ W) :
    OnlyWrites W S (lineSends im n b s).2 ↔ OnlyWrites W S s := by
  unfold lineSends; simp [w_free, w_emit, w_cmd, w_sched, w_flow, w_vec]

@[simp] theorem sendingLines_writes (W : List Block) (S : State) (im : Image) (n : Nat) (l : List Bool) (s : State)
    (w_free : Block.free ∈ W) (w_emit : Block.emit ∈ W) (w_cmd : Block.cmd ∈ W) (w_sched : Block.sched ∈ W) (w_flow : Block.flow ∈ W) (w_vec : Block.vec ∈ W) :
    OnlyWrites W S (sendingLines im n l s).2 ↔ OnlyWrites W S s := by
  induction l generalizing s with
  | nil => simp [w_free, w_emit, w_cmd, w_sched, w_flow, w_vec, sendingLines]
  | cons b bs ih => simp [w_free, w_emit, w_cmd, w_sched, w_flow, w_vec, sendingLines, ih]

@[simp] theorem sendLine_writes (W : List Block) (S : State) (im : Image) (e : Entry) (b : Bool) (f : OutFrame)
    (len : Nat) (transit : List (Fin 4)) (s : State) (w_emit : Block.emit ∈ W) (w_trunk : Block.trunk ∈ W)
    (w_sched : Block.sched ∈ W) :
    OnlyWrites W S (sendLine im e b f len transit s) ↔ OnlyWrites W S s := by
  unfold sendLine; simp [w_emit, w_trunk, w_sched]

@[simp] theorem countSent_writes (W : List Block) (S : State) (n : Nat) (s : State) (w_sched : Block.sched ∈ W) :
    OnlyWrites W S (countSent n s) ↔ OnlyWrites W S s := by
  unfold countSent; simp [w_sched]

@[simp] theorem sendFlow_writes (W : List Block) (S : State) (im : Image) (n : Nat) (e : Entry) (transit : List (Fin 4))
    (i : Nat) (c : FlowCtx) (s : State) (w_free : Block.free ∈ W) (w_emit : Block.emit ∈ W) (w_cmd : Block.cmd ∈ W)
    (w_trunk : Block.trunk ∈ W) (w_sched : Block.sched ∈ W) (w_flow : Block.flow ∈ W) (w_vec : Block.vec ∈ W) :
    OnlyWrites W S (sendFlow im n e transit i c s) ↔ OnlyWrites W S s := by
  unfold sendFlow; simp [w_free, w_emit, w_cmd, w_trunk, w_sched, w_flow, w_vec]

@[simp] theorem sendHeartbeatEntry_writes (W : List Block) (S : State) (im : Image) (n : Nat) (e : Entry)
    (transit : List (Fin 4)) (s : State) (w_free : Block.free ∈ W) (w_emit : Block.emit ∈ W) (w_cmd : Block.cmd ∈ W)
    (w_trunk : Block.trunk ∈ W) (w_sched : Block.sched ∈ W) (w_flow : Block.flow ∈ W) (w_vec : Block.vec ∈ W) :
    OnlyWrites W S (sendHeartbeatEntry im n e transit s) ↔ OnlyWrites W S s := by
  unfold sendHeartbeatEntry; simp [w_free, w_emit, w_cmd, w_trunk, w_sched, w_flow, w_vec]

@[simp] theorem sendProxy_writes (W : List Block) (S : State) (im : Image) (n : Nat) (e : Entry)
    (transit : List (Fin 4)) (slot : Nat) (s : State) (w_free : Block.free ∈ W) (w_emit : Block.emit ∈ W)
    (w_cmd : Block.cmd ∈ W) (w_trunk : Block.trunk ∈ W) (w_sched : Block.sched ∈ W) (w_flow : Block.flow ∈ W)
    (w_fab : Block.fab ∈ W) (w_bridge : Block.bridge ∈ W) (w_vec : Block.vec ∈ W) :
    OnlyWrites W S (sendProxy im n e transit slot s) ↔ OnlyWrites W S s := by
  unfold sendProxy; (repeat' split) <;> simp [w_free, w_emit, w_cmd, w_trunk, w_sched, w_flow, w_fab, w_bridge, w_vec]

@[simp] theorem scheduledSend_writes (W : List Block) (S : State) (n : Nat) (transit : List (Fin 4)) (s : State)
    (w_free : Block.free ∈ W) (w_emit : Block.emit ∈ W) (w_cmd : Block.cmd ∈ W) (w_trunk : Block.trunk ∈ W)
    (w_sched : Block.sched ∈ W) (w_flow : Block.flow ∈ W) (w_fab : Block.fab ∈ W) (w_bridge : Block.bridge ∈ W)
    (w_vec : Block.vec ∈ W) :
    OnlyWrites W S (scheduledSend n transit s) ↔ OnlyWrites W S s := by
  unfold scheduledSend; (repeat' split) <;> simp [w_free, w_emit, w_cmd, w_trunk, w_sched, w_flow, w_fab, w_bridge, w_vec]

theorem execScheduledSend_writes (W : List Block) (S : State) (dt : Nat) (entry : Nat) (transit : List (Fin 4))
    (s : State) (w_now : Block.now ∈ W) (w_clk : Block.clk ∈ W) (w_free : Block.free ∈ W) (w_emit : Block.emit ∈ W)
    (w_cmd : Block.cmd ∈ W) (w_trunk : Block.trunk ∈ W) (w_sched : Block.sched ∈ W) (w_flow : Block.flow ∈ W)
    (w_fab : Block.fab ∈ W) (w_bridge : Block.bridge ∈ W) (w_vec : Block.vec ∈ W) :
    ∃ u, execScheduledSend dt entry transit s = .next u ∧ (OnlyWrites W S u ↔ OnlyWrites W S s) := by
  unfold execScheduledSend; exact ⟨_, rfl, by simp [w_now, w_clk, w_free, w_emit, w_cmd, w_trunk, w_sched, w_flow, w_fab, w_bridge, w_vec]⟩

@[simp] theorem forwardFlow_writes (W : List Block) (S : State) (p : Nat) (tPin : Int) (f : FlowFrame) (good : Bool)
    (s : State) (w_emit : Block.emit ∈ W) (w_trunk : Block.trunk ∈ W) :
    OnlyWrites W S (forwardFlow p tPin f good s) ↔ OnlyWrites W S s := by
  unfold forwardFlow; simp [w_emit, w_trunk]

@[simp] theorem flowOnTrunk_writes (W : List Block) (S : State) (p : Nat) (tRx : Int) (f : FlowFrame) (fin : FrameEnd)
    (s : State) (w_emit : Block.emit ∈ W) (w_cmd : Block.cmd ∈ W) (w_trunk : Block.trunk ∈ W)
    (w_sched : Block.sched ∈ W) (w_flow : Block.flow ∈ W) (w_twin : Block.twin ∈ W) (w_fab : Block.fab ∈ W)
    (w_vec : Block.vec ∈ W) :
    OnlyWrites W S (flowOnTrunk p tRx f fin s) ↔ OnlyWrites W S s := by
  unfold flowOnTrunk; (repeat' split) <;> simp [w_emit, w_cmd, w_trunk, w_sched, w_flow, w_twin, w_fab, w_vec]

theorem execFlowFrameRx_writes (W : List Block) (S : State) (dt : Nat) (src : FlowArrival) (f : FlowFrame)
    (fin : FrameEnd) (s : State) (w_now : Block.now ∈ W) (w_clk : Block.clk ∈ W) (w_emit : Block.emit ∈ W)
    (w_cmd : Block.cmd ∈ W) (w_trunk : Block.trunk ∈ W) (w_sched : Block.sched ∈ W) (w_flow : Block.flow ∈ W)
    (w_twin : Block.twin ∈ W) (w_fab : Block.fab ∈ W) (w_vec : Block.vec ∈ W) :
    ∃ u, execFlowFrameRx dt src f fin s = .next u ∧ (OnlyWrites W S u ↔ OnlyWrites W S s) := by
  unfold execFlowFrameRx; exact ⟨_, rfl, by (repeat' split) <;> simp [w_now, w_clk, w_emit, w_cmd, w_trunk, w_sched, w_flow, w_twin, w_fab, w_vec]⟩

theorem execNextOpenSet_writes (W : List Block) (S : State) (dt : Nat) (s : State) (w_now : Block.now ∈ W)
    (w_clk : Block.clk ∈ W) (w_emit : Block.emit ∈ W) (w_flow : Block.flow ∈ W) (w_vec : Block.vec ∈ W) :
    ∃ u, execNextOpenSet dt s = .next u ∧ (OnlyWrites W S u ↔ OnlyWrites W S s) := by
  unfold execNextOpenSet; exact ⟨_, rfl, by simp [w_now, w_clk, w_emit, w_flow, w_vec]⟩

@[simp] theorem linkWrite_writes (W : List Block) (S : State) (i off : Nat) (data : List Byte) (s : State)
    (w_flow : Block.flow ∈ W) (w_lsk : Block.lsk ∈ W) :
    OnlyWrites W S (linkWrite i off data s) ↔ OnlyWrites W S s := by
  unfold linkWrite; (repeat' split) <;> simp_all [w_flow, w_lsk]

@[simp] theorem linkedWrites_writes (W : List Block) (S : State) (s : State) (w_flow : Block.flow ∈ W)
    (w_can : Block.can ∈ W) (w_mvb : Block.mvb ∈ W) (w_lsk : Block.lsk ∈ W) :
    OnlyWrites W S (linkedWrites s) ↔ OnlyWrites W S s := by
  unfold linkedWrites; simp [w_lsk, w_flow, w_can, w_mvb]

theorem execReleaseDeadline_writes (W : List Block) (S : State) (dt : Nat) (s : State) (w_now : Block.now ∈ W)
    (w_clk : Block.clk ∈ W) (w_emit : Block.emit ∈ W) (w_flow : Block.flow ∈ W) (w_can : Block.can ∈ W)
    (w_mvb : Block.mvb ∈ W) (w_lsk : Block.lsk ∈ W) :
    ∃ u, execReleaseDeadline dt s = .next u ∧ (OnlyWrites W S u ↔ OnlyWrites W S s) := by
  unfold execReleaseDeadline; exact ⟨_, rfl, by simp [w_lsk, w_now, w_clk, w_emit, w_flow, w_can, w_mvb]⟩

@[simp] theorem debugKept_writes (W : List Block) (S : State) (old : State) (s : State) (w_lsk : Block.lsk ∈ W) :
    OnlyWrites W S (debugKept old s) ↔ OnlyWrites W S s := by
  unfold debugKept; (repeat' split) <;> simp_all [w_lsk]

@[simp] theorem holdRemovals_writes (W : List Block) (S : State) (s : State) (w_ina : Block.ina ∈ W) :
    OnlyWrites W S (holdRemovals s) ↔ OnlyWrites W S s := by
  unfold holdRemovals; (repeat' split) <;> simp_all [w_ina]

end Sys2Proof.Machine
end

