-- ==== Sys2Proof/WellFormed.lean ====
section
/-! DEFINITION. Which commands are well formed: the operands lie in the ranges the spec gives the frames, registers and
requests they stand for. `exec` gives every command a meaning; this is what a sender may send. -/

namespace Sys2Proof

/-- R549, R555: a request payload is at most 4,064 bytes. -/
def Ring.wellFormed (r : Ring) : Bool := r.req.length ≤ 4064

/-- R100: at most 64 vehicles, at positions 1 to 64. -/
def Directory.wellFormed (d : Directory) : Bool :=
  d.vehicles.length ≤ 64 && d.vehicles.all (fun v => 1 ≤ v.pos.toNat && v.pos.toNat ≤ 64)

/-- R100: a frame holds up to 32 records. -/
def DirFrame.wellFormed (d : DirFrame) : Bool := d.records.length ≤ 32 && d.vehicleCount.toNat ≤ 64

/-- R162: the poll vector is 128 bytes. -/
def OpeningFrame.wellFormed (f : OpeningFrame) : Bool := f.poll.length ≤ 1024

/-- R279: LEN is the payload's length; the largest frame is 1,518 bytes. -/
def FlowFrame.wellFormed (f : FlowFrame) : Bool := f.payload.length == f.len && f.len + 46 ≤ 1518

/-- R358: at most 32 KiB, 32 KiB and 512 KiB of lines in a core's caches. -/
def CoreState.wellFormed (c : CoreState) : Bool :=
  c.l1i.length ≤ 512 && c.l1d.length ≤ 512 && c.l2.length ≤ 8192 &&
  (c.l1i ++ c.l1d ++ c.l2).all (fun x => x.data.length = 64 && x.addr.toNat % 64 = 0)

/-- What a faulty cycle leaves a core in is a core's state. -/
def PairCycle.wellFormed (c : PairCycle) : Bool :=
  [c.badLead, c.badTrail].all (fun x => match x with | some y => y.1.wellFormed | none => true)

/-- R304: a segment. -/
def SessionFrame.wellFormed (f : SessionFrame) : Bool := 1 ≤ f.kind.toNat && f.kind.toNat ≤ 4 && f.payload.length ≤ 1440

/-- R345: the streams, and items of their own sizes. -/
def RackItem.wellFormed : RackItem → Bool
  | .ctx n _ _ _ => n.toNat < 512
  | .block n d => n.toNat < 1024 && d.length == 64
  | .page n d => n.toNat < 4096 && d.length == 4096

/-- R345, R346. -/
def RackFrame.wellFormed (f : RackFrame) : Bool :=
  1 ≤ f.stream.toNat && f.stream.toNat ≤ 3 && f.items.all RackItem.wellFormed && (!f.commit || f.items.isEmpty)

/-- ISO 11898-1: the identifier's width and the data the DLC stands for. -/
def CanFrame.wellFormed (f : CanFrame) : Bool :=
  (f.ide || f.id.toNat < 2048) && f.data.length ≤ (if f.fdf then 64 else 8)

/-- R464: a slave frame carries 2, 4, 8, 16 or 32 bytes on each line. -/
def MvbSlave.wellFormed (f : MvbSlave) : Bool :=
  [f.dataA, f.dataB].all (fun d => match d with
    | some l => [2, 4, 8, 16, 32].contains l.length
    | none => true)

/-- R505: the costs to 16 slots and the table of slots 2 to 15. -/
def FabricBeacon.wellFormed (b : FabricBeacon) : Bool := b.cost.length ≤ 16 && b.table.length ≤ 14

/-- R528: 4 to 256 data bytes, a multiple of 4. -/
def BridgeFrame.wellFormed (b : BridgeFrame) : Bool :=
  1 ≤ b.op.toNat && b.op.toNat ≤ 5 && b.len ≤ 256 && b.len % 4 == 0 && b.data.length ≤ 256

/-- R511. -/
def FabricPayload.wellFormed : FabricPayload → Bool
  | .flow _ f => f.wellFormed
  | .proxy e f => e < 4096 && f.wellFormed
  | .bridge _ b => b.wellFormed
  | .join _ => true
  | .leadSet _ => true
  | .subscribe l => l.length ≤ 512
  | .dir d => d.wellFormed
  | .session f => f.wellFormed
  | .ttdp _ => true
  | .eth f => 1 ≤ f.len

/-- R605: the steps 0x1 to 0x7, and the twelve areas of R610. -/
def StepResult.wellFormed (r : StepResult) : Bool :=
  1 ≤ r.step && r.step ≤ 7 && r.corrupt.all (fun a => 1 ≤ a && a ≤ 12)

/-- R580: an access lies in the combined space of the three windows. -/
def spaceHas (addr len : Nat) : Bool := addr + len ≤ 0x03004000

/-- A command whose operands are in range. -/
def Instr.wellFormed : Instr → Bool
  | .powerGood _ _ => true
  | .startStepComplete _ r => r.wellFormed
  | .startRetry _ => true
  | .perstAssert _ => true
  | .perstRelease _ => true
  | .supervisorWatchdogExpiry _ => true
  | .supervisorFatalFault _ => true
  | .nodeResetApply _ => true
  | .inputVoltageChange _ _ => true
  | .storeOkChange _ _ => true
  | .lossDeclared _ _ _ => true
  | .shutdownBypassClose _ => true
  | .converterStop _ _ => true
  | .pd0Stop _ => true
  | .thermalChange _ _ _ => true
  | .powerDomainIdle _ _ _ _ => true
  | .domainWakeTimer _ _ => true
  | .asyncDomainWake _ _ _ => true
  | .parkEntry _ => true
  | .kilnEntry _ => true
  | .wakeSource _ _ _ => true
  | .wakeLLowTimeout _ => true
  | .parkWakeComplete _ => true
  | .registrationInstant => true
  | .holdoverEntry _ => true
  | .nextOpenSet _ => true
  | .releaseDeadline _ => true
  | .lossOfSignal _ _ => true
  | .resumeEntry _ _ => true
  | .signalRelock _ _ => true
  | .linkDownTimeout _ _ => true
  | .partnerEnergyDetect _ _ => true
  | .trainingLockComplete _ _ => true
  | .qualifyComplete _ _ _ => true
  | .codeViolationLimit _ _ _ _ => true
  | .negotiateTimeout _ _ => true
  | .t1LinkUp _ _ _ => true
  | .t1RoleSwap _ _ => true
  | .delayRequest _ _ _ _ => true
  | .delayMarkerRx _ _ _ _ _ => true
  | .delayFollowUpRx _ _ _ => true
  | .peerDelayRequest _ _ _ => true
  | .bypassLineAClose _ => true
  | .bypassLineBClose _ => true
  | .bypassLineAOpen _ => true
  | .bypassLineBOpen _ => true
  | .bypassSenseCheck _ _ _ => true
  | .linkBeaconSend _ _ _ => true
  | .passiveBeaconSend _ => true
  | .linkBeaconRx _ _ _ _ => true
  | .breakRx _ _ _ => true
  | .directoryRx _ _ d => d.wellFormed
  | .joinRx _ _ _ => true
  | .coldClaimRx _ _ _ => true
  | .mergeReportRx _ _ m => m.dir.wellFormed
  | .leadSetRx _ _ _ => true
  | .openingFrameRx _ _ f _ _ => f.wellFormed
  | .coldStartTimeout _ => true
  | .coldClaimSend _ => true
  | .contendTimeout _ => true
  | .provisionalNoJoin _ => true
  | .yieldSwitch _ => true
  | .scheduledSend _ entry transit => entry < 4096 && decide transit.Nodup
  | .sporadicAbort _ passing => decide passing.Nodup
  | .trunkFrameForward _ _ _ _ => true
  | .flowFrameRx _ _ f _ => f.wellFormed
  | .sessionFrameRx _ _ f => f.wellFormed
  | .sessionRetransmit _ _ _ => true
  | .tcxoStop _ => true
  | .tcxoRestart _ => true
  | .ptpSyncRx _ _ _ => true
  | .ptpAnnounceRx _ _ _ => true
  | .ptpMessageSend _ _ _ => true
  | .ptpSyncTimeout _ _ _ => true
  | .domainReturnTimer _ => true
  | .tioPulseEdge _ _ _ _ => true
  | .tioCaptureEdge _ _ _ _ _ => true
  | .tioArm _ _ _ _ => true
  | .tioStop _ _ _ _ => true
  | .tioCapRead _ _ _ => true
  | .heartbeatRx _ _ _ => true
  | .takeover _ => true
  | .takeoverPartnerOut _ => true
  | .stepDown _ => true
  | .nonpreferredActivate _ => true
  | .rackingFrameRx _ f => f.wellFormed
  | .regionStagingApply _ => true
  | .rackAbandon _ => true
  | .copyOnWrite _ page addr data => page < 4096 && addr + data.length ≤ 4096
  | .burinVerdict _ _ cs => cs.all PairCycle.wellFormed
  | .holdBufferStall _ _ _ => true
  | .checkerFault _ _ => true
  | .cacheUncorrectable _ _ _ => true
  | .pairRestart _ _ => true
  | .pairAccessFault _ _ _ _ => true
  | .handoverPoint _ _ => true
  | .splitInstant _ _ => true
  | .substitutionTransfer _ _ => true
  | .rejoinInstant _ _ => true
  | .handoverAbandon _ _ => true
  | .debugAccess _ _ => true
  | .jtagExtest _ => true
  | .pairReadyWrite _ _ _ _ => true
  | .canFrameRx _ _ f _ => f.wellFormed
  | .canTxComplete _ _ _ => true
  | .canArbitrationLost _ _ => true
  | .canError _ _ _ => true
  | .canRecoveryComplete _ _ _ => true
  | .canIntegrationComplete _ _ => true
  | .canWakePattern _ _ => true
  | .canModeWrite _ _ _ _ _ => true
  | .canTxrqWrite _ _ _ _ _ => true
  | .canTxcanWrite _ _ _ _ _ => true
  | .canHpbRequest _ _ _ _ => true
  | .canHpbCancel _ _ _ _ => true
  | .canRecoverStart _ _ _ _ => true
  | .canFifoPop _ _ _ _ => true
  | .canObjectWord0Read _ _ _ _ => true
  | .canObjectWrite _ _ _ _ _ _ => true
  | .canTtCommitWrite _ _ _ _ => true
  | .canMatrixCommit _ _ => true
  | .canReferenceRx _ _ _ => true
  | .canReferenceAbandon _ _ => true
  | .canSlaveRefTimeout _ _ => true
  | .canHatchWindow _ _ _ _ => true
  | .canHatchWindowEnd _ _ _ => true
  | .mvbBasicPeriodStart _ _ => true
  | .mvbMasterFrameSend _ _ => true
  | .mvbNoReplyTimeout _ _ => true
  | .mvbMasterFrameRx _ _ _ => true
  | .mvbSlaveFrameRx _ _ f => f.wellFormed
  | .consistFrameRx _ f => 1 ≤ f.len
  | .consistFrameEgress _ _ _ => true
  | .addressAgeing _ _ _ => true
  | .frerResetTimer _ _ => true
  | .mkaPduRx _ _ _ => true
  | .sakDistribute _ _ => true
  | .consistLinkChange _ _ _ _ _ => true
  | .fabricBeaconSend _ _ => true
  | .fabricBeaconRx _ _ b => b.wellFormed
  | .fabricSlotAssign _ _ => true
  | .fabricFrameRx _ _ f => f.payload.wellFormed
  | .fabricAckTimeout _ _ => true
  | .fabricLinkDown _ _ => true
  | .fabricLinkUp _ _ => true
  | .fabricLaneSwitch _ _ _ _ => true
  | .spareLaneGood _ _ _ => true
  | .fabricReportRx _ _ r => r.uids.length ≤ 14
  | .fabricTickSend _ => true
  | .fabricTickRx _ _ t _ _ => t.frame.wellFormed
  | .proxyFrameRx _ _ entry f => entry < 4096 && f.wellFormed
  | .fabricSubscribeRx _ _ flows => flows.length ≤ 512
  | .bridgeRequestRx _ _ r _ => r.wellFormed
  | .bridgeResponseRx _ _ r => r.wellFormed
  | .bridgeWithdrawRx _ _ r => r.wellFormed
  | .bridgeRetryTimer _ _ => true
  | .bridgeReqTimeout _ _ => true
  | .bridgeFetchStale _ => true
  | .bridgeBusyRetry _ => true
  | .remoteWindowRead _ _ _ _ len => 1 ≤ len && len ≤ 512
  | .remoteWindowWrite _ _ _ _ data => 1 ≤ data.length && data.length ≤ 256
  | .lockedSequenceStart _ _ _ => true
  | .lockedSequenceEnd _ => true
  | .fabSemRead _ _ _ => true
  | .fabSemWrite _ _ _ _ => true
  | .semTmoExpiry _ _ => true
  | .fabVecPendWrite _ _ _ => true
  | .memoryEccError _ _ => true
  | .scrubSlice _ _ => true
  | .bankDrainComplete _ _ => true
  | .rotationStep _ => true
  | .logicSelfTestComplete _ _ _ _ => true
  | .agingMonitorRead _ _ => true
  | .agingStepApply _ => true
  | .queuedCommandComplete _ _ _ => true
  | .mailboxWrite _ _ _ off data => off + data.length ≤ 4096
  | .mbxLockRead _ _ _ => true
  | .mbxLockWrite _ _ _ _ => true
  | .evqRdWrite _ _ _ => true
  | .evqHoldTimeout _ => true
  | .nextWindowWrite _ _ off data => off + data.length ≤ 65536
  | .currentWindowWrite _ _ off data => off + data.length ≤ 65536
  | .pdiReleaseHost _ _ _ => true
  | .pdiReleasePair _ _ _ => true
  | .pdiRelMaskWrite _ _ _ => true
  | .multiRegisterLatchRead _ _ addr => spaceHas addr 4
  | .rcFieldRead _ _ addr => spaceHas addr 4
  | .localBusAccess _ _ => true
  | .pcieMultiDwordRequest _ addr len wdata => spaceHas addr len && (match wdata with | some l => l.length == len | none => true)
  | .spiTransfer _ addr words wdata => spaceHas addr (4 * words) && (match wdata with | some l => l.length == 4 * words | none => true)
  | .unalignedAccess _ _ addr width wdata => spaceHas addr width && (match wdata with | some l => l.length == width | none => true)
  | .unmappedAccess _ _ addr width wdata => spaceHas addr width && (match wdata with | some l => l.length == width | none => true)
  | .registerWrite _ _ addr _ => spaceHas addr 4
  | .sysIdentity _ r => r.wellFormed
  | .sysNop _ r => r.wellFormed
  | .sysReset _ r => r.wellFormed
  | .sysEventMask _ r => r.wellFormed
  | .sysPatchStage _ r => r.wellFormed
  | .sysPatchVerify _ r => r.wellFormed
  | .sysLogRead _ r => r.wellFormed
  | .sysProfileConfirm _ r => r.wellFormed
  | .sysDebugNonce _ r => r.wellFormed
  | .sysDebugUnlock _ r => r.wellFormed
  | .sysDebugRelock _ r => r.wellFormed
  | .topoStatus _ r => r.wellFormed
  | .topoDirectory _ r => r.wellFormed
  | .topoPositionMap _ r => r.wellFormed
  | .topoSetLeading _ r => r.wellFormed
  | .topoSetIdentity _ r => r.wellFormed
  | .topoColdStart _ r => r.wellFormed
  | .trunkSetPolicy _ r => r.wellFormed
  | .trunkStatus _ r => r.wellFormed
  | .trunkBypassPassive _ r => r.wellFormed
  | .trunkBypassActive _ r => r.wellFormed
  | .trunkRetrain _ r => r.wellFormed
  | .schedStatus _ r => r.wellFormed
  | .schedStage _ r => r.wellFormed
  | .schedVerify _ r => r.wellFormed
  | .schedHold _ r => r.wellFormed
  | .schedActivate _ r => r.wellFormed
  | .schedRelease _ r => r.wellFormed
  | .schedEntryStatus _ r => r.wellFormed
  | .timeStatus _ r => r.wellFormed
  | .timeSet _ r => r.wellFormed
  | .timePtpConfig _ r => r.wellFormed
  | .timeDomainPolicy _ r => r.wellFormed
  | .timeSteer _ r => r.wellFormed
  | .timePtpStatus _ r => r.wellFormed
  | .flowSet _ r => r.wellFormed
  | .flowGet _ r => r.wellFormed
  | .flowStatus _ r => r.wellFormed
  | .flowSave _ r => r.wellFormed
  | .flowMacsecKey _ r => r.wellFormed
  | .sessionOpen _ r => r.wellFormed
  | .sessionSend _ r => r.wellFormed
  | .sessionRecv _ r => r.wellFormed
  | .sessionClose _ r => r.wellFormed
  | .twinStatus _ r => r.wellFormed
  | .twinConfig _ r => r.wellFormed
  | .twinSwitchover _ r => r.wellFormed
  | .twinServiceOut _ r => r.wellFormed
  | .twinServiceReturn _ r => r.wellFormed
  | .twinRenew _ r => r.wellFormed
  | .lskStatus _ r => r.wellFormed
  | .lskPairConfig _ r => r.wellFormed
  | .lskPairReset _ r => r.wellFormed
  | .lskSplit _ r => r.wellFormed
  | .lskRejoin _ r => r.wellFormed
  | .lskSubstitute _ r => r.wellFormed
  | .canSave _ r => r.wellFormed
  | .canLoad _ r => r.wellFormed
  | .mvbConfig _ r => r.wellFormed
  | .mvbPollStage _ r => r.wellFormed
  | .mvbPollCommit _ r => r.wellFormed
  | .mvbPortSet _ r => r.wellFormed
  | .mvbPortWrite _ r => r.wellFormed
  | .mvbPortRead _ r => r.wellFormed
  | .mvbStatus _ r => r.wellFormed
  | .swcPortConfig _ r => r.wellFormed
  | .swcPortStatus _ r => r.wellFormed
  | .swcVlanSet _ r => r.wellFormed
  | .swcStreamSet _ r => r.wellFormed
  | .swcGclStage _ r => r.wellFormed
  | .swcGclCommit _ r => r.wellFormed
  | .swcMacsecKey _ r => r.wellFormed
  | .swcStreamStatus _ r => r.wellFormed
  | .swcSave _ r => r.wellFormed
  | .fabStatus _ r => r.wellFormed
  | .fabConfig _ r => r.wellFormed
  | .fabWindowSet _ r => r.wellFormed
  | .fabSlotTable _ r => r.wellFormed
  | .fabBridgeStatus _ r => r.wellFormed
  | .fabPwlog _ r => r.wellFormed
  | .fabSemRelease _ r => r.wellFormed
  | .pwrStatus _ r => r.wellFormed
  | .pwrDomainConfig _ r => r.wellFormed
  | .pwrPark _ r => r.wellFormed
  | .pwrParkWithdraw _ r => r.wellFormed
  | .pwrKiln _ r => r.wellFormed
  | .pwrKilnWithdraw _ r => r.wellFormed
  | .pwrWakeConfig _ r => r.wellFormed
  | .repStatus _ r => r.wellFormed
  | .repLog _ r => r.wellFormed
  | .repTest _ r => r.wellFormed
  | .repCalibrate _ r => r.wellFormed
  | .repRotation _ r => r.wellFormed
  | .recStatus _ r => r.wellFormed
  | .recConfig _ r => r.wellFormed
  | .recTrigger _ r => r.wellFormed
  | .recCask _ r => r.wellFormed
  | .recRelease _ r => r.wellFormed
  | .recPage _ r => r.wellFormed
  | .autonegComplete _ _ _ _ _ => true
  | .trainingFailure _ _ _ => true
  | .t1LinkDown _ _ => true
  | .ttdpFrameRx _ _ _ => true
  | .trunkDomainSyncRx _ _ _ _ _ => true
  | .islandInaugurationComplete _ _ _ _ _ _ => true
  | .islandTelegramRx _ _ _ _ _ => true
  | .islandTelegramSend _ => true
  | .nonScheduledSend _ _ _ => true
  | .doorbellRing _ _ _ _ => true
  | .rackingFrameSend _ _ => true

end Sys2Proof
end

