-- ==== Sys2Proof/Tests/Slice0.lean ====
section
/-! SUPPORT. Own tests: for each statement with hypotheses a state and operands that meet them, clause by clause; for each
check of `WellFormed.lean` an ill-formed command it refuses; and a few single steps with values read off the spec. -/

open Sys2Proof Sys2Proof.Machine

namespace Sys2Proof.Tests

/-! ## Small states and records the witnesses use -/

/-- A start that ended: power is good, every domain runs and the node is ready. -/
def upSys : Sys := { Sys.reset with powered := true, step := 8, ready := true, step4Done := true, step5Done := true }

/-- The node after such a start, in steep. -/
def up : State :=
  { State.reset with
    sys := upSys
    pwr := { Pwr.reset with dev := .run, supply := .normal, doms := List.replicate 12 .run } }

/-- A request through mailbox 1 from PCI Express. -/
def q (req : List Byte) : Ring := { mbx := 1, src := .pcie, tag := 5, req := req, flashFail := none }

/-- A request of `n` bytes, zero but for the first ones. -/
def qz (n : Nat) (req : List Byte) : Ring := q (req ++ List.replicate (n - req.length) 0)

/-- `up` with one part changed. -/
def onIna (f : Ina → Ina) : State := modIna f up
def onSys (f : Sys → Sys) : State := modSys f up
def onTwin (f : Twin → Twin) : State := modTwin f up
def onTrunk (f : Trunk → Trunk) : State := modTrunk f up
def onSched (f : Sched → Sched) : State := modSched f up
def onFlow (f : Flow → Flow) : State := modFlow f up

/-- A schedule image of one entry, with the digest of R195 at its end. -/
def imageBytes : List Byte :=
  [77, 65, 83, 72, 1, 0, 232, 3, 232, 3, 1, 0, 1, 0, 0, 0, 208, 7, 0, 0, 136, 19, 0, 0, 32, 78, 0, 0, 16, 39, 0, 0,
   160, 187, 13, 0, 136, 19, 0, 0, 0, 0, 0, 0, 0, 0, 0, 0, 1, 0, 0, 0, 120, 0, 0, 0, 0, 0, 0, 0, 0, 0, 0, 0] ++
  [136, 19, 0, 0, 64, 0, 0, 0, 3, 0, 0, 0, 0, 0, 0, 0, 0, 0, 1, 0, 0, 0, 0, 0, 180, 4, 6, 134, 40, 184, 127, 187,
   106, 236, 230, 68, 87, 56, 187, 143, 193, 55, 171, 239, 252, 208, 118, 28, 216, 217, 32, 191, 194, 7, 150, 255]

/-- A poll table of one entry. -/
def pollBytes : List Byte := [1, 0, 0, 0, 100, 0, 0, 0, 254, 194, 69, 42, 0, 0, 0, 0, 3, 0, 0, 0]

/-- Its entry, for any node on both lines, and the image of it. -/
def en1 : Entry := { start := 5000, len := 64, role := 0, lines := 3, flags := 0 }
def im1 : Image where
  cycleUs := 1000
  guardNs := 1000
  spanNs := 2000
  slotBegin := 5000
  mgmtBegin := 20000
  mgmtLen := 10000
  sporEnd := 900000
  releaseNs := 5000
  sporCredit := 0
  mgmtCredit := 0
  entries := [{ en1 with role := 0x0010 }, en1]
  variants := [[0]]
  seq := [0]
  hash := 0

/-- A directory of one vehicle: this node and a fabric node in slot 2. -/
def dir1 : Directory where
  gen := 3
  refUid := upSys.uid
  leadVid := 7
  nodes := 2
  vehicles := [{ pos := 1, flags := 1, slots := 5, vid := 7, wtbAddr := 0, uidA := upSys.uid, uidB := 0 }]

/-- A prepared generation. -/
def prep1 : Prepared where
  dir := { dir1 with gen := 4 }
  hash := 0
  committed := true
  k := 5
  step := 0
  stepping := false
  whole := true
  merge := false
  stableAt := 0
  otherGen := 0
  floor := 0
  conf := []
  base := 0
  seen := 0
  joins := []

/-- The node joined as the first and only node, with trunk port 0 up, its schedule running. -/
def lone : State :=
  modTrunk (fun t => { t with ports := t.ports.set 0 { Port.reset with st := .up, mode := .ndoelle } })
    (modSched (fun d => { d with running := some im1 })
      (onIna (fun n => { n with
        st := .joined, vid := 7, gen := 3, addr := 0x010, dir := some dir1
        members := [{ uid := upSys.uid, vid := 7, twinB := false, dirToRef := false }] })))

/-- The same node, Held. -/
def heldNode : State := modIna (fun n => { n with st := .held }) lone

/-- A heartbeat of a partner in Standby. -/
def hb2 : Heartbeat where
  uid := 99
  vid := 7
  addr := 0x011
  role := 2
  preferred := false
  twHeard := true
  trunkHeard := true
  switch := false
  ownGen := 1
  seenGen := 1
  gen := 3
  cycle := 0
  switchCycle := 0
  flowRgen := 0
  regionRgen := 0

/-- `lone` as the Active twin of a partner in Standby. -/
def activeTwin : State :=
  modTwin (fun t => { t with configured := true, role := .active, partner := some 99, hb := some hb2, own := 1, seen := 1 }) lone

/-- A pair in lock-step. -/
def lockedPair (l : Nat) : State := modPair l (fun p => { p with st := .locked, configured := true }) up

/-- A staged patch of four bytes. -/
def pat : Patch := { bytes := [(0, 1)], len := 4, verified := false }

/-- A session with a message received. -/
def msg1 : Message := { number := 0, bytes := [5, 6], last := true, acked := 0, sent := 0, resends := [], sentClk := 0 }
def ses (rx : List Message) : Session where
  sid := 3
  opener := upSys.uid
  byIdentity := false
  slot := 0
  addr := 0
  vid := 0
  peerUid := 0
  nextMsg := 0
  out := []
  inMsg := none
  rxq := rx
def withSession (rx : List Message) : State := onFlow (fun w => { w with sessions := [ses rx] })

/-- A port of an MVB segment. -/
def port0 : MvbPort where
  fcode := 0
  dir := 2
  claim := false
  svc := 0
  linked := false
  flow := 0
  off := 0
  data := [1, 2]
  next := none
  age := 1
  held := false
  lineB := false
  taken := false

/-- A cask. -/
def cask1 : Cask := { offset := 0, length := 16, cycle := 9, tag := 1, postLeft := 0, order := 0, held := 16 }

/-- Trunk port `p` in a state and mode, the rest as `up`. -/
def portIn (p : Nat) (st : PortSt) (m : Mode) : State := modPort p (fun t => { t with st := st, mode := m }) up

/-- `portIn` under a mode policy of both directions. -/
def portUnder (pol p : Nat) (st : PortSt) (m : Mode) : State :=
  modTrunk (fun t => { t with policy := [pol, pol] }) (portIn p st m)

/-- `portIn` with a loss since moment 0. -/
def portLosing (p : Nat) (st : PortSt) (m : Mode) : State := modPort p (fun t => { t with lossClk := some 0 }) (portIn p st m)

/-- Fabric link `k` up. -/
def linkUp (k : Nat) : State := modFab k (fun l => { l with st := .up, partnerSlot := 3 }) up

/-- A beacon of a joined neighbour without an image. -/
def beacon1 : Beacon where
  uid := 50
  vid := 8
  addr := 0x020
  flags := 0
  prio := 0
  gen := 3
  nodes := 1
  cycleUs := 1000
  refUid := 50
  endRef := 50
  endFar := 50
  hash := 0
  txTime := 0
  leadVid := 0

/-- A break that lost this node's neighbour, or the node itself. -/
def break1 (lost : BitVec 64) : BreakBody := { addr := 0x010, dir := 0, cause := 1, tDown := 0, lostUid := lost, gen := 3 }

/-- A directory frame, foreign or not. -/
def dirFrame1 (foreign : Bool) : DirFrame where
  index := 0
  vehicleCount := 1
  gen := 3
  refUid := upSys.uid
  leadVid := 7
  nodes := 1
  dirHash := dirHash { dir1 with nodes := 1 }
  prepared := false
  isForeign := foreign
  records := dir1.vehicles

/-- A JOIN and a merge report of another node. -/
def join1 : JoinBody := { uid := 60, vid := 9, twinB := false, native := false, fabric := false, prio := 0, nb1 := 0, nb2 := 0 }
def merge1 (b : Beacon) : MergeReport := { addr := 0x010, port := 0, partner := b, delta := 0, tStable := 0, dir := dir1 }

/-- A cycle-opening frame. -/
def opening1 : OpeningFrame where
  source := 0
  type := 0x10
  version := 1
  cycle := 1
  variant := 0
  held := false
  noPoll := false
  lineB := false
  dirUp := true
  cycleUs := 1000
  schedTag := 0
  path := 0
  origin := 0
  inaug := { gen := 3, prepare := false, commit := false, step := false, provisional := false, removal := false, dirHash := 0,
             nextGen := 0, nextHash := 0, switchCycle := 0, stepTicks := 0, refUid := upSys.uid }
  poll := []

/-- The straps and senses of a power-good. -/
def pg : PowerGoodIn := { profSelHigh := true, maintLow := false, sensedA := true, sensedB := false, storeCap := 900 }

/-- The node in a start step. -/
def starting (n : Nat) : State := onSys (fun y => { y with step := n, ready := false, step4Done := false, step5Done := false })

/-- The end of a start step. -/
def stepEnd (n : Nat) (ok : Bool) : StepResult := { step := n, ok := ok, pairFail := [], corrupt := [], logOk := true }

/-- `up` with the power unit changed. -/
def onPwr (f : Pwr → Pwr) : State := modPwr f up

/-- `im1` with another first entry. -/
def imWith (e : Entry) : Image := { im1 with entries := [e, en1] }
def loneWith (e : Entry) : State := modSched (fun d => { d with running := some (imWith e) }) lone

/-- A context that produces in entry 0, and one that consumes flow 12. -/
def prodCtx : FlowCtx := { flowCtxZero with flowId := 11, enable := true, produce := true, lines := 3, len := 8 }
def consCtx : FlowCtx := { flowCtxZero with flowId := 12, enable := true, lines := 3, len := 2, expectRole := 0xFFFF }

/-- A flow frame of flow 12. -/
def flow1 (gen : BitVec 16) : FlowFrame where
  source := 0
  flowId := 12
  gen := gen
  claim := 0
  seq := 1
  fresh := 1
  safe := false
  island := false
  srcAddr := 0x020
  len := 2
  safety := 0
  payload := [1, 2]
  sec := none

/-- A fabric node that consumes flow 12. -/
def fabNode (c : FlowCtx) : State :=
  modFabric (fun f => { f with attached := true, mySlot := 3 }) (modFlow (fun w => { w with ctx := [(0, c)] }) lone)

/-- Both ports of line A up. -/
def lineAUp : State := modPort 2 (fun t => { t with st := .up, mode := .ndoelle }) lone

/-- A frame from a consist port. -/
def eth1 : EthFrame where
  port := 15
  dst := 2
  src := 4
  vlan := none
  pcp := 0
  len := 64
  rtag := none
  fcsOk := true
  secTagOk := false
  flow := none
  pair := none

/-- A frame in transit, and a queued directory frame. -/
def transit1 (l : Option EthFrame) : TransitFrame := { fin := .good, len := 4096, local_ := l }
def queued1 : QFrame := { frame := .dir (dirFrame1 false), len := 100, deferred := false, ctx := none, urgent := false }
def withQueue (s : State) : State := modPort 0 (fun t => { t with queues := [[queued1], [], [], []] }) s

/-- A port 0 at a boundary. -/
def atBoundary (s : State) : State := modPort 0 (fun t => { t with partner := some { beacon1 with flags := 2 } }) s

/-- A session frame. -/
def sframe (kind : Byte) : SessionFrame where
  sid := 3
  kind := kind
  cause := 0
  openerUid := upSys.uid
  msg := 1
  seg := 0
  msgLen := 2
  payload := [5, 6]
  srcAddr := 0x020
  dst := 0x010

/-- A session with a message sent, and a state that holds sessions. -/
def msg2 (resends : Nat) : Message := { number := 1, bytes := [5, 6], last := true, acked := 0, sent := 3, resends := [resends], sentClk := 0 }
def ses2 (resends : Nat) : Session := { ses [] with out := [msg2 resends] }
def withSes (x : List Session) : State := modFlow (fun w => { w with sessions := x }) (portIn 0 .up .ndoelle)

/-- `up` with a consist link up and measured and PTP unit 0 changed, and units to change it to. -/
def onPtp (f : PtpInst → PtpInst) : State :=
  modTime (fun t => { t with links := t.links.set 0 (some 0) })
    (modSw 0 (fun t => { t with link := true, speed := 3 }) (modPtp 0 f up))
def slave (i : PtpInst) : PtpInst := { i with role := 2, ports := 1, portRoles := 2, state := 1 }
def sync1 : PtpSync := { domain := 0, seq := 9, raw := 0, twoStep := false, origin := 5, corr := 0, rate := 6 }
def announce1 : PtpAnnounce where
  domain := 0
  priority1 := 1
  clockClass := 6
  accuracy := 0
  oslv := 0
  priority2 := 0
  gmId := 77
  stepsRemoved := 0
  traceable := true

/-- A timed port changed. -/
def onTio (f : Tio → Tio) : State := modTio 5 f up
def cap1 : Capture := { time := 0, rising := true, holdover := false, stepped := false }

/-- A racking frame, and a racking generation. -/
def rack1 (commit : Bool) (items : List RackItem) : RackFrame where
  uid := 99
  stream := 1
  commit := commit
  rgen := 1
  cycle := 2
  part := 0
  items := if commit then [] else items
  totItems := BitVec.ofNat 32 items.length
  totBytes := BitVec.ofNat 32 (itemsSize items)
  crc := itemsCrc items
def gen1 (items : List RackItem) : RackGen :=
  { rgen := 1, cycle := 2, part := 0, items := items, parts := [(0, items)], sent := 0, committed := false, cyclesSince := 0 }
def item1 : RackItem := .ctx 0 1 1 0

/-- `lone` as a twin in Standby, and as a twin told to take over. -/
def standbyTwin (f : Twin → Twin) : State :=
  modTwin (fun t => f { t with configured := true, role := .standby, partner := some 99 }) lone
def regionTwin (f : Twin → Twin) : State := onTwin (fun t => f { t with regionOn := true, regionPages := 4096 })

/-- A pair in lock-step, changed. -/
def onPair (f : Pair → Pair) : State := modPair 3 f (lockedPair 3)
def held1 (w : BitVec 64) : HeldAccess := { window := w, kind := .memory, addr := 0, len := 4, wdata := some [1, 2, 3, 4] }

/-- A CAN channel that takes part in traffic, changed. -/
def onCan (f : Can → Can) : State := modCan 11 (fun ch => f { ch with modeAct := 1, ctrl := 0x11, act := 1 }) up
def canFrame1 : CanFrame :=
  { id := 0x40000, ide := false, rtr := false, fdf := false, brs := false, esi := false, dlc := 2, data := [1, 2], ts := 9 }
def filter1 : CanFilter :=
  { fid := 0x40000, ide := false, en := true, mask := 0x1FFC0000, kind := 0, index := 127, hits := Sat.zero }
def canErr1 (data tx exc : Bool) : CanError where
  kind := .stuff
  dataPhase := data
  transmitting := tx
  dominantSeen := false
  inFlag := false
  arbStuff := false
  afterFlag := false
  runs := 0
  protocolException := exc
def sendObj : CanObj := { canObjZero with en := true, tx := true }
def req1 (o : CanSlot) : CanReq := { slot := o, unacks := 0 }
def matrix1 (kind : BitVec 2) : CanMatrix :=
  { CanMatrix.reset with role := 2, cols := 2, starts := [(1, 100000)], cells := [(1, { index := 5, hpb := false, kind := kind })] }

/-- A vehicle-bus segment changed, and a poll table of one entry. -/
def onMvb (f : Mvb → Mvb) : State := modMvb 1 f up
def table1 : PollTable := { bp2 := false, sporUs := 100, entries := [3], scan := [] }

/-- A consist port with its link up, changed. -/
def onSw (f : SwPort → SwPort) : State := modSw 15 (fun t => f { t with link := true, cfg := { t.cfg with mode := 1 } }) up
def mk1 (prio : Byte) : MkPdu := { icvOk := true, serverPrio := prio, sci := 1, sak := some 3, pnExhausted := false }
def secPort (t : SwPort) : SwPort := { t with cfg := { t.cfg with mode := 1, macsec := true, ksPrio := 9 }, key := some ([], []) }

/-- Self-repair, the bridge, the fabric, the host's side, with a part changed. -/
def onRep (f : Rep → Rep) : State := modRep f up
def onBridge (f : Bridge → Bridge) : State := modBridge f up
def onFabric (f : Fab → Fab) : State := modFabric f up
def onFab (f : FabLink → FabLink) : State := modFab 0 f up
def onMbx (f : Mailbox → Mailbox) : State := modMbx 7 f up
def onCmd (f : Cmd → Cmd) : State := modCmd f up

/-- A memory error, a queued command and a running rotation's state. -/
def dramErr (bad : Bool) : MemError := { place := .dram 9 4, uncorrectable := bad, reader := none, value := 0 }
def queued (op : BitVec 16) : Queued := { mbx := 0, opcode := op, tag := 5, cmdSeq := 44, arg := 0 }
def rotating (spare : Bool) : State :=
  { modRep (fun r => { r with rotDeferred := spare }) (lockedPair 3) with
    lsk := { (lockedPair 3).lsk with spareReady := spare } }

/-- A beacon, a frame and a report of the fabric. -/
def fbeacon (vid : BitVec 48) : FabricBeacon where
  uid := 60
  vid := vid
  slot := 3
  twin := false
  twinB := false
  active := false
  numbered := false
  joined := true
  gen := 3
  cost := List.replicate 16 4
  table := List.replicate 14 0
  schedTag := 0
def fframe (seq : BitVec 16) (dst hops : Byte) : FabricFrame :=
  { seq := seq, dst := dst, src := 3, hops := hops, cls := 0, payload := .leadSet 9 }
def freport : FabricReport := { vid := 7, slots := 8, uids := List.replicate 14 0 }

/-- A tick. -/
def ftick (b : Bool) : FabricTick := { fromTwinB := b, frame := opening1, time := 0, corr := 0, eps := 3 }

/-- A bridge frame to this node, and an outbound transfer. -/
def bframe (op : Byte) : BridgeFrame where
  tag := 7
  op := op
  status := 0
  initUid := 60
  initAddr := 0x020
  dst := 0
  gen := 0
  len := 4
  addr := 0
  sem := 31
  reissue := false
  data := []
def outb : Outbound where
  frame := { bframe 1 with initUid := upSys.uid, dst := 0x030 }
  window := none
  through := windowOf up 0
  src := .lb
  target := 0x030
  targetUid := 0
  sends := 1
  startClk := 0
  sentClk := 0
  busy := false
def semLb : Sem := { owner := 0x400, ownerUid := upSys.uid, ownerVid := none, clk := 0 }
def lbRead : LbAccess := { off := 0x8024, wdata := none, be := 3, lock := false, abandon := false }

/-- An event in the queue. -/
def event1 : Event where
  seq := 0
  type := 0x0101
  lost := false
  unsure := false
  logged := false
  time := 0
  param := []
  clk := 0
  raised := false

/-- `lone` in the middle of its slot region, on a line whose path is valid. -/
def slotTime : State := { modSched (fun d => { d with a := { d.a with valid := true } }) lone with now := nsT 15000 }

/-- The same with both ports of line A up. -/
def slotLineA : State := modPort 2 (fun t => { t with st := .up, mode := .ndoelle }) slotTime

/-- A node whose cycle has opened and polls the entry. -/
def opened (s : State) : State := modSched (fun d => { d with openOk := true, poll := [true] }) s

/-- An address beyond the ROM, the blocks and every window. -/
def farAway : Nat := Config.romBase + Config.romSize + 2 ^ 52

/-- A clock cycle in which both cores do what is given here, and the state of a pair's cores. -/
def quiet : PairCycle where
  read := none
  irqQueue := false
  irqTio := false
  irqCan := false
  irqHost := false
  irqTimer := false
  stall := false
  badLead := some (default, default)
  badTrail := some (default, default)
  badDelay := none
def cores0 : Cores := (pairOf up 3).cores

theorem beyond {p : Pair} {c a : Nat} (hr : Config.romBase + Config.romSize ≤ a) (ha : 2 ^ 52 ≤ a)
    (h : [p.cfg.priv, p.cfg.shared, p.cfg.splitWin].all (fun w => w.1 + w.2 ≤ 2 ^ 36) = true) : pairMay p c a = false := by
  simp only [List.all_cons, List.all_nil, Bool.and_true, Bool.and_eq_true, decide_eq_true_eq] at h
  obtain ⟨h1, h2, h3⟩ := h
  simp only [pairMay, inWindows, inUnits, inBlocks, inRom, Bool.or_eq_false_iff, Bool.and_eq_false_iff, decide_eq_false_iff_not]
  split <;> omega

theorem farAway_out {p : Pair} (c : Nat) (h : [p.cfg.priv, p.cfg.shared, p.cfg.splitWin].all (fun w => w.1 + w.2 ≤ 2 ^ 36) = true) :
    pairMay p c farAway = false :=
  beyond (Nat.le_add_right ..) (Nat.le_add_left ..) h

/-- The same error met by a read of pair 3. -/
def readErr (bad : Bool) : MemError := { dramErr bad with reader := some 3, value := 7 }
def eg1 : EgFrame := { frame := eth1, rtag := none, stream := none, bank := 0, cells := 1 }

/-- A node in its slot region with a copy of the opening frame and one fabric link up, and the tick it then sends. -/
def tickNode : State :=
  modFab 0 (fun l => { l with st := .up })
    (onSched (fun d => { d with running := some im1, openOk := true, a := { d.a with copy := some opening1 } }))
def tick1 : FabricTick := (ownTick (begin_ (nsT 5000) tickNode)).getD (ftick false)

/-! ## Checks in place of the structures the statements name -/

/-- `Runs`, as a check. -/
def runsB (sp : CmdSpec) (r : Ring) (dt : Nat) (s : State) : Bool :=
  decide (partsOf s = nodeParts) && mayRing r.src (begin_ dt s) && !(mbxOf s r.mbx).ring && s.sys.resetPending.isNone &&
  lockAllows r.mbx r.src s && s.sys.ready && (checkRequest sp r.src r.req).isNone && (!sp.flash || r.flashFail.isNone)

theorem runs_of {sp : CmdSpec} {r : Ring} {dt : Nat} {s : State} (h : runsB sp r dt s = true) : Runs sp r dt s := by
  simp only [runsB, Bool.and_eq_true, Bool.or_eq_true, Bool.not_eq_true', decide_eq_true_eq, Option.isNone_iff_eq_none] at h
  obtain ⟨⟨⟨⟨⟨⟨⟨h1, h2⟩, h3⟩, h4⟩, h5⟩, h6⟩, h7⟩, h8⟩ := h
  exact ⟨⟨h1, h2, h3, h4, h5, h6⟩, h7, fun hf => h8.resolve_left (by simp [hf])⟩

/-- `Accesses`, as a check. -/
def accessesB (src : Iface) (addr : Nat) (s : State) : Bool :=
  ifaceOpen src s && reaches src addr s &&
    decide (∀ l : Fin 4, src = .pair l →
      (pairOf s l.val).halted = false ∧ pairLocked (pairOf s l.val) = false ∧ pairSplit (pairOf s l.val) = true ∧
        (pairOf s l.val).stopped.any (fun b => !b) = true)

theorem accesses_iff {src : Iface} {addr : Nat} {s : State} : Accesses src addr s ↔ accessesB src addr s = true := by
  simp only [accessesB, Bool.and_eq_true, decide_eq_true_eq]
  exact ⟨fun h => ⟨⟨h.isOpen, h.reach⟩, h.runs⟩, fun h => ⟨h.1.1, h.1.2, h.2⟩⟩

/-- A check of the next state shows that there is one. -/
theorem next_of {o : Host.Outcome State Fault Refusal} {P : State → Bool}
    (h : (match o with | .next t => P t | _ => false) = true) : ∃ t, o = .next t ∧ P t = true := by
  cases o with
  | next t => exact ⟨t, rfl, h⟩
  | fault _ => cases h
  | refused _ => cases h

theorem runs_iff {sp : CmdSpec} {r : Ring} {dt : Nat} {s : State} : Runs sp r dt s ↔ runsB sp r dt s = true := by
  refine ⟨fun h => ?_, runs_of⟩
  have h1 : partsOf s = nodeParts := h.rings.sound
  have h8 : sp.flash = false ∨ r.flashFail = none := by
    cases hf : sp.flash
    · exact .inl rfl
    · exact .inr (h.flash hf)
  simp only [runsB, h1, h.rings.may, h.rings.idle, h.rings.noReset, h.rings.lock, h.rings.ready, h.checks]
  rcases h8 with h8 | h8 <;> simp [h8]

theorem sound_iff {s : State} : Sound s ↔ partsOf s = nodeParts := Iff.rfl

theorem all_some {α : Type} {o : Option α} {P : α → Prop} : (∀ d, o = some d → P d) ↔ ∀ d ∈ o, P d := Iff.rfl

theorem ownTraffic_iff {p : Fin 4} {dt : Nat} {s : State} :
    OwnTraffic p dt s ↔ (portUp s p && !(isBoundary s p) && !(straysNow p (begin_ dt s))) = true := by
  simp [OwnTraffic, and_assoc]

theorem mem_all {α : Type} {l : List α} {P : α → Prop} [DecidablePred P] :
    (∀ x ∈ l, P x) ↔ l.all (fun x => decide (P x)) = true := by simp

/-! ## What the statements suppose can be met -/

set_option Elab.async false

/-- What `Obligations.SysCommandsComplete` supposes can be met, clause by clause. -/
theorem test_met_sysCommandsComplete :
    (∃ (dt : Nat) (r : Ring) (s : State), Runs sysIdentitySpec r dt s) ∧
    (∃ (dt : Nat) (r : Ring) (s : State), Runs sysNopSpec r dt s) ∧
    (∃ (dt : Nat) (r : Ring) (s : State), Runs sysEventMaskSpec r dt s ∧ fieldAt r.req 0 2 = 0xFFFF ∧ byteAt r.req 2 = 1) ∧
    (∃ (dt : Nat) (r : Ring) (s : State), Runs sysEventMaskSpec r dt s ∧ fieldAt r.req 0 2 = 0xFFFF ∧ byteAt r.req 2 = 0) ∧
    (∃ (dt : Nat) (r : Ring) (s : State) (w : Bool), Runs sysEventMaskSpec r dt s ∧ eventCodes.lookup (fieldAt r.req 0 2) = some w
      ∧ fieldAt r.req 0 2 ≠ 0xFFFF ∧ byteAt r.req 2 = 1) ∧
    (∃ (dt : Nat) (r : Ring) (s : State) (w : Bool), Runs sysEventMaskSpec r dt s ∧ eventCodes.lookup (fieldAt r.req 0 2) = some w
      ∧ fieldAt r.req 0 2 ≠ 0xFFFF ∧ fieldAt r.req 0 2 ≠ 0x0101 ∧ fieldAt r.req 0 2 ≠ 0x0102 ∧ byteAt r.req 2 = 0) ∧
    (∃ (dt : Nat) (r : Ring) (s : State), Runs sysPatchStageSpec r dt s ∧ fieldAt r.req 0 4 = 0 ∧ 4 ≤ fieldAt r.req 4 2 ∧ fieldAt
      r.req 4 2 ≤ 2048 ∧ fieldAt r.req 4 2 % 4 = 0) ∧
    (∃ (dt : Nat) (r : Ring) (s : State) (p : Patch), Runs sysPatchStageSpec r dt s ∧ s.sys.patchStaged = some p ∧ fieldAt r.req 0
      4 ≠ 0 ∧ fieldAt r.req 0 4 % 4 = 0 ∧ 4 ≤ fieldAt r.req 4 2 ∧ fieldAt r.req 4 2 ≤ 2048 ∧ fieldAt r.req 4 2 % 4 = 0 ∧ fieldAt
      r.req 0 4 + fieldAt r.req 4 2 ≤ 65536) ∧
    (∃ (dt : Nat) (r : Ring) (s : State) (p : Patch), Runs sysPatchVerifySpec r dt s ∧ s.sys.patchStaged = some p) ∧
    (∃ (dt : Nat) (r : Ring) (s : State), Runs sysLogReadSpec r dt s ∧ 1 ≤ fieldAt r.req 2 2 ∧ fieldAt r.req 2 2 ≤ 126) ∧
    (∃ (dt : Nat) (r : Ring) (s : State), Runs sysProfileConfirmSpec r dt s ∧ byteAt r.req 0 = b2n s.sys.native) ∧
    (∃ (dt : Nat) (r : Ring) (s : State), Runs sysDebugSpec r dt s ∧ byteAt r.req 0 = 0 ∧ r.req.length = 4 ∧ debugReserved r.req =
      none) ∧
    (∃ (dt : Nat) (r : Ring) (s : State) (n : _), Runs sysDebugSpec r dt s ∧ byteAt r.req 0 = 1 ∧ r.req.length = 68 ∧
      debugReserved r.req = none ∧ nonceValid (begin_ dt s) = some n) ∧
    (∃ (dt : Nat) (r : Ring) (s : State), Runs sysDebugSpec r dt s ∧ byteAt r.req 0 = 2 ∧ r.req.length = 4 ∧ debugReserved r.req =
      none) := by
  refine ⟨
    ⟨0, q [0,0,0,0], up, ?_⟩,
    ⟨0, q [1,2,3], up, ?_⟩,
    ⟨0, q [0xFF,0xFF,1,0], up, ?_⟩,
    ⟨0, q [0xFF,0xFF,0,0], up, ?_⟩,
    ⟨0, q [0x01,0x01,1,0], up, false, ?_⟩,
    ⟨0, q [0x03,0x01,0,0], up, true, ?_⟩,
    ⟨0, q ([0,0,0,0,4,0,0,0] ++ [1,2,3,4]), up, ?_⟩,
    ⟨0, q ([0xFC,0xFF,0,0,4,0,0,0] ++ [1,2,3,4]), onSys (fun y => { y with patchStaged := some pat }), pat, ?_⟩,
    ⟨0, q [0,0,0,0], onSys (fun y => { y with patchStaged := some pat }), pat, ?_⟩,
    ⟨0, q [0,0,126,0], up, ?_⟩,
    ⟨0, q [0,0,0,0], up, ?_⟩,
    ⟨0, q [0,0,0,0], up, ?_⟩,
    ⟨0, qz 68 [1, 1], onSys (fun y => { y with nonce := some (0, 0), nonceNext := 1 }), Config.nonce 0, runs_of (by
      decide +kernel), by decide +kernel, by decide +kernel, by decide +kernel, rfl⟩,
    ⟨0, q [2,0,0,0], up, ?_⟩⟩
  all_goals (try simp only [runs_iff])
  all_goals decide +kernel

/-- What `Obligations.SysResetCompletes` supposes can be met, clause by clause. -/
theorem test_met_sysResetCompletes :
    (∃ (dt : Nat) (r : Ring) (s : State), Runs sysResetSpec r dt s ∧ byteAt r.req 0 = 0x96 ∧ byteAt r.req 1 = 0x48) := by
  refine ⟨0, q [0x96,0x48,0,0], modMbx 2 (fun m => { m with ring := true, state := 1 }) (modCmd (fun c =>
    { c with queued := [{ mbx := 2, opcode := 0x0204, tag := 1, cmdSeq := 1, arg := 0 }] }) up), ?_⟩
  simp only [runs_iff]
  decide +kernel

/-- What `Obligations.TopoTrunkCommandsComplete` supposes can be met, clause by clause. -/
theorem test_met_topoTrunkCommandsComplete :
    (∃ (dt : Nat) (r : Ring) (s : State), Runs topoStatusSpec r dt s) ∧
    (∃ (dt : Nat) (r : Ring) (s : State) (d : Directory), Runs topoDirectorySpec r dt s ∧ byteAt r.req 0 = 0 ∧ s.ina.dir = some d)
      ∧
    (∃ (dt : Nat) (r : Ring) (s : State) (p : Prepared), Runs topoDirectorySpec r dt s ∧ byteAt r.req 0 = 1 ∧ s.ina.prep = some p
      ∧ p.whole = true) ∧
    (∃ (dt : Nat) (r : Ring) (s : State), Runs topoPositionMapSpec r dt s) ∧
    (∃ (dt : Nat) (r : Ring) (s : State), Runs topoSetLeadingSpec r dt s ∧ s.cmd.queued.length < 32) ∧
    (∃ (dt : Nat) (r : Ring) (s : State), Runs topoSetIdentitySpec r dt s ∧ s.ina.st = .steep ∧ fieldAt r.req 0 6 ≠ 0 ∧ byteAt
      r.req 6 ≤ 1) ∧
    (∃ (dt : Nat) (r : Ring) (s : State), Runs topoColdStartSpec r dt s ∧ s.fab.attached = false ∧ (s.ina.st = .steep ∨ s.ina.st =
      .held)) ∧
    (∃ (dt : Nat) (r : Ring) (s : State), Runs trunkSetPolicySpec r dt s ∧ 1 ≤ byteAt r.req 0 ∧ byteAt r.req 0 ≤ 2 ∧ byteAt r.req
      1 ≤ 6 ∧ (byteAt r.req 1 = 6 → s.sys.native = false) ∧ (s.fab.attached = true → byteAt r.req 1 = 0) ∧ policyAtOnce (byteAt
      r.req 0 - 1) s = true) ∧
    (∃ (dt : Nat) (r : Ring) (s : State), Runs trunkSetPolicySpec r dt s ∧ 1 ≤ byteAt r.req 0 ∧ byteAt r.req 0 ≤ 2 ∧ byteAt r.req
      1 ≤ 6 ∧ (byteAt r.req 1 = 6 → s.sys.native = false) ∧ (s.fab.attached = true → byteAt r.req 1 = 0) ∧ policyAtOnce (byteAt
      r.req 0 - 1) s = false ∧ s.cmd.queued.length < 32) ∧
    (∃ (dt : Nat) (r : Ring) (s : State), Runs trunkStatusSpec r dt s ∧ byteAt r.req 0 ≤ 3) ∧
    (∃ (dt : Nat) (r : Ring) (s : State), Runs trunkBypassSpec r dt s ∧ byteAt r.req 0 = 1 ∧ s.cmd.queued.length < 32) ∧
    (∃ (dt : Nat) (r : Ring) (s : State), Runs trunkBypassSpec r dt s ∧ byteAt r.req 0 = 0 ∧ s.fab.attached = false ∧
      s.cmd.queued.length < 32) ∧
    (∃ (dt : Nat) (r : Ring) (s : State), Runs trunkRetrainSpec r dt s ∧ byteAt r.req 0 ≤ 3 ∧ s.ina.st = .steep) ∧
    (∃ (dt : Nat) (r : Ring) (s : State), Runs trunkRetrainSpec r dt s ∧ byteAt r.req 0 ≤ 3 ∧ s.ina.st ≠ .steep ∧
      s.cmd.queued.length < 32) := by
  refine ⟨
    ⟨0, q [1,0,0,0], up, ?_⟩,
    ⟨0, q [0,0,0,0], lone, dir1, ?_⟩,
    ⟨0, q [1,0,0,0], modIna (fun n => { n with prep := some prep1 }) lone, prep1, ?_⟩,
    ⟨0, q [0,0,0,0], up, ?_⟩,
    ⟨0, q [1,0,0,0,0,0,0,0], up, ?_⟩,
    ⟨0, q [1,0,0,0,0,0,1,3], up, ?_⟩,
    ⟨0, q [0,0,0,0], onIna (fun n => { n with vid := 7 }), ?_⟩,
    ⟨0, q [2,6,0,0], up, ?_⟩,
    ⟨0, q [1,0,0,0], lone, ?_⟩,
    ⟨0, q [3,1,0,0], up, ?_⟩,
    ⟨0, q [1,0,0,0], up, ?_⟩,
    ⟨0, q [0,0,0,0], up, ?_⟩,
    ⟨0, q [3,0,0,0], up, ?_⟩,
    ⟨0, q [3,0,0,0], lone, ?_⟩⟩
  all_goals (try simp only [runs_iff])
  all_goals decide +kernel

/-- What `Obligations.SchedCommandsComplete` supposes can be met, clause by clause. -/
theorem test_met_schedCommandsComplete :
    (∃ (dt : Nat) (r : Ring) (s : State), Runs schedStatusSpec r dt s) ∧
    (∃ (dt : Nat) (r : Ring) (s : State), Runs schedStageSpec r dt s ∧ fieldAt r.req 0 4 = 0 ∧ 4 ≤ fieldAt r.req 4 2 ∧ fieldAt
      r.req 4 2 ≤ 2048 ∧ fieldAt r.req 4 2 % 4 = 0) ∧
    (∃ (dt : Nat) (r : Ring) (s : State), Runs schedStageSpec r dt s ∧ fieldAt r.req 0 4 ≠ 0 ∧ fieldAt r.req 0 4 % 4 = 0 ∧ 4 ≤
      fieldAt r.req 4 2 ∧ fieldAt r.req 4 2 ≤ 2048 ∧ fieldAt r.req 4 2 % 4 = 0 ∧ fieldAt r.req 0 4 + fieldAt r.req 4 2 ≤ 262144) ∧
    (∃ (dt : Nat) (r : Ring) (s : State), Runs schedVerifySpec r dt s ∧ imageCheck (memRead s.sched.stagedBytes 0
      s.sched.stagedLen) = none) ∧
    (∃ (dt : Nat) (r : Ring) (s : State), Runs schedHoldSpec r dt s ∧ s.ina.st = .joined ∧ isFirst s = true ∧ s.cmd.queued.length
      < 32) ∧
    (∃ (dt : Nat) (r : Ring) (s : State) (im : Image), Runs schedActivateSpec r dt s ∧ s.ina.st = .steep ∧ s.sched.verified = some
      im) ∧
    (∃ (dt : Nat) (r : Ring) (s : State) (im : Image), Runs schedActivateSpec r dt s ∧ s.ina.st = .held ∧ s.sched.verified = some
      im) ∧
    (∃ (dt : Nat) (r : Ring) (s : State), Runs schedReleaseSpec r dt s ∧ s.ina.st = .held ∧ isFirst s = true ∧ s.cmd.queued.length
      < 32) ∧
    (∃ (dt : Nat) (r : Ring) (s : State) (im : Image) (e : Entry), Runs schedEntryStatusSpec r dt s ∧ s.sched.running = some im ∧
      entryAt im (fieldAt r.req 0 2) = some e) := by
  refine ⟨
    ⟨0, q [1,0,0,0], up, ?_⟩,
    ⟨0, q ([0,0,0,0,4,0,0,0] ++ [1,2,3,4]), up, ?_⟩,
    ⟨0, q ([0xFC,0xFF,3,0,4,0,0,0] ++ [1,2,3,4]), up, ?_⟩,
    ⟨0, q [0,0,0,0], onSched (fun d => { d with stagedBytes := memWrite [] 0 imageBytes, stagedLen := imageBytes.length }), ?_⟩,
    ⟨0, q [0,0,0,0], lone, ?_⟩,
    ⟨0, q [0,0,0,0], onSched (fun d => { d with verified := some im1 }), im1, ?_⟩,
    ⟨0, q [0,0,0,0], modSched (fun d => { d with verified := some im1 }) heldNode, im1, ?_⟩,
    ⟨0, q [0,0,0,0], heldNode, ?_⟩,
    ⟨0, q [1,0,1,0], lone, im1, en1, ?_⟩⟩
  all_goals (try simp only [runs_iff])
  all_goals decide +kernel

/-- What `Obligations.TimeCommandsComplete` supposes can be met, clause by clause. -/
theorem test_met_timeCommandsComplete :
    (∃ (dt : Nat) (r : Ring) (s : State), Runs timeStatusSpec r dt s) ∧
    (∃ (dt : Nat) (r : Ring) (s : State), Runs timeSetSpec r dt s ∧ s.ina.st = .steep ∧ fieldAt r.req 6 4 < 1000000000) ∧
    (∃ (dt : Nat) (r : Ring) (s : State), Runs timePtpConfigSpec r dt s ∧ byteAt r.req 0 ≤ 1 ∧ byteAt r.req 1 ≤ 3 ∧ byteAt r.req 2
      ≤ 127 ∧ (byteAt r.req 5 = 0 ∨ 249 ≤ byteAt r.req 5) ∧ s.cmd.queued.length < 32) ∧
    (∃ (dt : Nat) (r : Ring) (s : State), Runs timeDomainPolicySpec r dt s ∧ byteAt r.req 0 ≤ 3 ∧ byteAt r.req 1 ≤ 1 ∧ (fieldAt
      r.req 2 2 = 0 ∨ 20 ≤ fieldAt r.req 2 2 ∧ fieldAt r.req 2 2 ≤ 10000)) ∧
    (∃ (dt : Nat) (r : Ring) (s : State), Runs timeSteerSpec r dt s ∧ byteAt r.req 0 ≤ 1) ∧
    (∃ (dt : Nat) (r : Ring) (s : State), Runs timePtpStatusSpec r dt s ∧ byteAt r.req 0 ≤ 1) := by
  refine ⟨
    ⟨0, q [1,0,0,0], up, ?_⟩,
    ⟨0, q [1,0,0,0,0,0,0xFF,0xC9,0x9A,0x3B,0,0], up, ?_⟩,
    ⟨0, q [1,3,127,1,2,249,3,0], up, ?_⟩,
    ⟨0, q [3,1,20,0], up, ?_⟩,
    ⟨0, q [1,0,0,0], up, ?_⟩,
    ⟨0, q [1,1,0,0], up, ?_⟩⟩
  all_goals (try simp only [runs_iff])
  all_goals decide +kernel

/-- What `Obligations.FlowSessionCommandsComplete` supposes can be met, clause by clause. -/
theorem test_met_flowSessionCommandsComplete :
    (∃ (dt : Nat) (r : Ring) (s : State), Runs flowSetSpec r dt s ∧ fieldAt r.req 0 2 < 512 ∧ ctxOffender (fieldAt r.req 0 2)
      (ctxOfBytes (r.req.drop 4)) (ctxWritten s) s.sched.running s.flow.key.isSome = none) ∧
    (∃ (dt : Nat) (r : Ring) (s : State), Runs flowGetSpec r dt s ∧ fieldAt r.req 0 2 < 512) ∧
    (∃ (dt : Nat) (r : Ring) (s : State), Runs flowStatusSpec r dt s ∧ fieldAt r.req 0 2 < 512) ∧
    (∃ (dt : Nat) (r : Ring) (s : State), Runs flowSaveSpec r dt s ∧ s.cmd.queued.length < 32) ∧
    (∃ (dt : Nat) (r : Ring) (s : State), Runs flowMacsecKeySpec r dt s) ∧
    (∃ (dt : Nat) (r : Ring) (s : State), Runs sessionOpenSpec r dt s ∧ byteAt r.req 0 ≤ 1 ∧ (byteAt r.req 0 = 1 → byteAt r.req 1
      < 16) ∧ s.flow.sessions.length < 32) ∧
    (∃ (dt : Nat) (r : Ring) (s : State) (x : Session), Runs sessionSendSpec r dt s ∧ sessionNamed (fieldAt r.req 0 2) s = some x
      ∧ fieldAt r.req 4 2 ≤ 3072 ∧ fieldAt r.req 2 2 + fieldAt r.req 4 2 ≤ 16384 ∧ ((byteAt r.req 6).testBit 0 = true → 0 <
      fieldAt r.req 4 2 ∨ 0 < composing x)) ∧
    (∃ (dt : Nat) (r : Ring) (s : State) (x : Session), Runs sessionRecvSpec r dt s ∧ sessionNamed (fieldAt r.req 0 2) s = some x
      ∧ x.rxq = []) ∧
    (∃ (dt : Nat) (r : Ring) (s : State) (x : Session) (m : Message) (ms : _), Runs sessionRecvSpec r dt s ∧ sessionNamed (fieldAt
      r.req 0 2) s = some x ∧ x.rxq = m :: ms ∧ fieldAt r.req 2 2 < m.bytes.length) ∧
    (∃ (dt : Nat) (r : Ring) (s : State) (x : Session), Runs sessionCloseSpec r dt s ∧ sessionNamed (fieldAt r.req 0 2) s = some
      x) := by
  refine ⟨
    ⟨0, qz 36 [0xFF,1], up, ?_⟩,
    ⟨0, q [0xFF,1,0,0], up, ?_⟩,
    ⟨0, q [0xFF,1,1,0], up, ?_⟩,
    ⟨0, q [0,0,0,0], up, ?_⟩,
    ⟨0, qz 32 [7], up, ?_⟩,
    ⟨0, q [1,15,0,0,0,0,0,0,0,0,0,0], up, ?_⟩,
    ⟨0, q [3,0,0,0,2,0,1,0,9,9], withSession [], ses [], ?_⟩,
    ⟨0, q [3,0,0,0,0,0,0,0], withSession [], ses [], ?_⟩,
    ⟨0, q [3,0,1,0,0,0,0,0], withSession [msg1], ses [msg1], msg1, [], ?_⟩,
    ⟨0, q [3,0,0,0], withSession [], ses [], ?_⟩⟩
  all_goals (try simp only [runs_iff])
  all_goals decide +kernel

/-- What `Obligations.TwinCommandsComplete` supposes can be met, clause by clause. -/
theorem test_met_twinCommandsComplete :
    (∃ (dt : Nat) (r : Ring) (s : State), Runs twinStatusSpec r dt s) ∧
    (∃ (dt : Nat) (r : Ring) (s : State), Runs twinConfigSpec r dt s ∧ (s.ina.st = .steep ∨ s.twin.role = .out) ∧ s.fab.attached =
      false ∧ (byteAt r.req 0).testBit 1 = true ∧ 1 ≤ fieldAt r.req 2 2 ∧ fieldAt r.req 2 2 ≤ 4096 ∧ fieldAt r.req 4 4 % 4096 = 0
      ∧ fieldAt r.req 4 4 + 4096 * fieldAt r.req 2 2 ≤ 27 * 1048576) ∧
    (∃ (dt : Nat) (r : Ring) (s : State), Runs twinConfigSpec r dt s ∧ (s.ina.st = .steep ∨ s.twin.role = .out) ∧ s.fab.attached =
      false ∧ (byteAt r.req 0).testBit 1 = false) ∧
    (∃ (dt : Nat) (r : Ring) (s : State), Runs twinSwitchoverSpec r dt s ∧ isActive s = true ∧ partnerRole s = 2 ∧
      s.cmd.queued.length < 32) ∧
    (∃ (dt : Nat) (r : Ring) (s : State), Runs twinServiceSpec r dt s ∧ byteAt r.req 0 = 0 ∧ s.twin.configured = true ∧ isActive s
      = true ∧ partnerRole s = 2 ∧ s.cmd.queued.length < 32) ∧
    (∃ (dt : Nat) (r : Ring) (s : State), Runs twinServiceSpec r dt s ∧ byteAt r.req 0 = 0 ∧ s.twin.configured = true ∧ (isActive
      s = false ∨ partnerRole s ≠ 2 ∧ (byteAt r.req 1).testBit 0 = true) ∧ s.cmd.queued.length < 32) ∧
    (∃ (dt : Nat) (r : Ring) (s : State), Runs twinServiceSpec r dt s ∧ byteAt r.req 0 = 1 ∧ s.twin.configured = true ∧
      s.cmd.queued.length < 32) ∧
    (∃ (dt : Nat) (r : Ring) (s : State), Runs twinRenewSpec r dt s ∧ s.trunk.byCommand = true ∧ s.trunk.lineA.closed = true ∧
      s.trunk.lineB.closed = true) := by
  refine ⟨
    ⟨0, q [1,0,0,0], up, ?_⟩,
    ⟨0, q [3,0,0,16,0,0,0xB0,0], up, ?_⟩,
    ⟨0, q [1,0,0,0,0,0,0,0], up, ?_⟩,
    ⟨0, q [0,0,0,0], activeTwin, ?_⟩,
    ⟨0, q [0,0,0,0], activeTwin, ?_⟩,
    ⟨0, q [0,0,0,0], onTwin (fun t => { t with configured := true }), ?_⟩,
    ⟨0, q [1,0,0,0], onTwin (fun t => { t with configured := true }), ?_⟩,
    ⟨0, q [0,0,0,0], onTrunk (fun t => { t with byCommand := true }), ?_⟩⟩
  all_goals (try simp only [runs_iff])
  all_goals decide +kernel

/-- What `Obligations.LockstepCommandsComplete` supposes can be met, clause by clause. -/
theorem test_met_lockstepCommandsComplete :
    (∃ (dt : Nat) (r : Ring) (s : State), Runs lskStatusSpec r dt s ∧ byteAt r.req 0 ≤ 3) ∧
    (∃ (dt : Nat) (r : Ring) (s : State), Runs lskPairConfigSpec r dt s ∧ byteAt r.req 0 ≤ 3 ∧ pairCfgOffender (byteAt r.req 0)
      (pairCfgOf r.req) s = none ∧ pairConfigurable (pairOf s (byteAt r.req 0)) = true) ∧
    (∃ (dt : Nat) (r : Ring) (s : State), Runs lskPairResetSpec r dt s ∧ byteAt r.req 0 ≤ 3 ∧ byteAt r.req 1 ≤ 1) ∧
    (∃ (dt : Nat) (r : Ring) (s : State), Runs lskSplitSpec r dt s ∧ byteAt r.req 0 ≤ 3 ∧ pairState (pairOf s (byteAt r.req 0)) =
      1 ∧ s.cmd.queued.length < 32) ∧
    (∃ (dt : Nat) (r : Ring) (s : State), Runs lskRejoinSpec r dt s ∧ byteAt r.req 0 ≤ 3 ∧ pairState (pairOf s (byteAt r.req 0)) =
      2 ∧ (pairOf s (byteAt r.req 0)).dbg = false ∧ s.cmd.queued.length < 32) ∧
    (∃ (dt : Nat) (r : Ring) (s : State), Runs lskSubstituteSpec r dt s ∧ byteAt r.req 0 ≤ 3 ∧ pairState (pairOf s (byteAt r.req
      0)) = 1 ∧ (pairOf s (byteAt r.req 0)).dbg = false ∧ s.lsk.spareReady = true ∧ s.cmd.queued.length < 32) := by
  refine ⟨
    ⟨0, q [3,1,0,0], up, ?_⟩,
    ⟨0, qz 24 [3], up, ?_⟩,
    ⟨0, q [3,1,0,0], up, ?_⟩,
    ⟨0, q [3,0,0,0], lockedPair 3, ?_⟩,
    ⟨0, q [3,0,0,0], modPair 3 (fun p => { p with st := .split }) (lockedPair 3), ?_⟩,
    ⟨0, q [3,0,0,0], modLsk (fun k => { k with spareReady := true }) (lockedPair 3), ?_⟩⟩
  all_goals (try simp only [runs_iff])
  all_goals decide +kernel

/-- What `Obligations.CanMvbCommandsComplete` supposes can be met, clause by clause. -/
theorem test_met_canMvbCommandsComplete :
    (∃ (dt : Nat) (r : Ring) (s : State), Runs canSaveSpec r dt s ∧ s.cmd.queued.length < 32) ∧
    (∃ (dt : Nat) (r : Ring) (s : State), Runs canLoadSpec r dt s ∧ (∀ c ∈ canMasked (fieldAt r.req 0 2), canModeAct (canOf s c) =
      0)) ∧
    (∃ (dt : Nat) (r : Ring) (s : State), Runs mvbConfigSpec r dt s ∧ byteAt r.req 0 ≤ 1 ∧ byteAt r.req 1 ≤ 2 ∧ fieldAt r.req 4 2
      ≤ 4095 ∧ (mvbOf s (byteAt r.req 0)).cfg.role = 0) ∧
    (∃ (dt : Nat) (r : Ring) (s : State), Runs mvbConfigSpec r dt s ∧ byteAt r.req 0 ≤ 1 ∧ byteAt r.req 1 ≤ 2 ∧ fieldAt r.req 4 2
      ≤ 4095 ∧ (mvbOf s (byteAt r.req 0)).cfg.role ≠ 0 ∧ s.cmd.queued.length < 32) ∧
    (∃ (dt : Nat) (r : Ring) (s : State), Runs mvbStageSpec r dt s ∧ byteAt r.req 0 ≤ 1 ∧ fieldAt r.req 2 2 % 4 = 0 ∧ fieldAt
      r.req 4 4 % 4 = 0 ∧ fieldAt r.req 4 4 + fieldAt r.req 2 2 ≤ 16912) ∧
    (∃ (dt : Nat) (r : Ring) (s : State), Runs mvbCommitSpec r dt s ∧ byteAt r.req 0 ≤ 1 ∧ pollCheck (mvbOf s (byteAt r.req
      0)).staged = none ∧ s.cmd.queued.length < 32) ∧
    (∃ (dt : Nat) (r : Ring) (s : State), Runs mvbPortSetSpec r dt s ∧ byteAt r.req 0 ≤ 1 ∧ (mvbRecord r.req).fcode ≤ 4 ∧
      (mvbRecord r.req).dir ≤ 2 ∧ mvbLinkOk (mvbRecord r.req) s = true) ∧
    (∃ (dt : Nat) (r : Ring) (s : State) (p : _), Runs mvbPortWriteSpec r dt s ∧ byteAt r.req 0 ≤ 1 ∧ tblGet (mvbOf s (byteAt
      r.req 0)).ports (fieldAt r.req 2 2) = some p ∧ p.dir = 1 ∧ p.linked = false ∧ r.req.length = 4 + fcodeBytes p.fcode) ∧
    (∃ (dt : Nat) (r : Ring) (s : State) (p : MvbPort), Runs mvbPortReadSpec r dt s ∧ byteAt r.req 0 ≤ 1 ∧ fieldAt r.req 2 2 <
      4096 ∧ tblGet (mvbOf s (byteAt r.req 0)).ports (fieldAt r.req 2 2) = some p) ∧
    (∃ (dt : Nat) (r : Ring) (s : State), Runs mvbStatusSpec r dt s ∧ byteAt r.req 0 ≤ 1) := by
  refine ⟨
    ⟨0, q [1,8,0,0], up, ?_⟩,
    ⟨0, q [0xFF,0x0F,0,0], up, ?_⟩,
    ⟨0, q [1,2,1,0,0xFF,0x0F,0,0], up, ?_⟩,
    ⟨0, q [1,2,1,0,0xFF,0x0F,0,0], modMvb 1 (fun m => { m with cfg := { m.cfg with role := 1 } }) up, ?_⟩,
    ⟨0, q [1,0,4,0,0x0C,0x42,0,0,1,2,3,4], up, ?_⟩,
    ⟨0, q [1,0,0,0,5,0,0,0], modMvb 1 (fun m => { m with staged := memWrite [] 0 pollBytes }) up, ?_⟩,
    ⟨0, q [1,0,0,0,3,0x40,1,0,0,0,0,0], up, ?_⟩,
    ⟨0, q [1,0,3,0,1,2], modMvb 1 (fun m => { m with ports := tblSet m.ports 3 { port0 with dir := 1 } }) up,
      { port0 with dir := 1 }, ?_⟩,
    ⟨0, q [1,0,3,0], modMvb 1 (fun m => { m with ports := tblSet m.ports 3 port0 }) up, port0, ?_⟩,
    ⟨0, q [1,1,0,0], up, ?_⟩⟩
  all_goals (try simp only [runs_iff, mem_all])
  all_goals decide +kernel

/-- What `Obligations.SwitchCommandsComplete` supposes can be met, clause by clause. -/
theorem test_met_switchCommandsComplete :
    (∃ (dt : Nat) (r : Ring) (s : State), Runs swcPortConfigSpec r dt s ∧ byteAt r.req 0 ≤ 15 ∧ byteAt r.req 1 ≤ 4 ∧ (byteAt r.req
      1 = 4 → 12 ≤ byteAt r.req 0) ∧ 1 ≤ fieldAt r.req 4 2 ∧ fieldAt r.req 4 2 ≤ 4094 ∧ byteAt r.req 6 ≤ 2 ∧ s.cmd.queued.length <
      32) ∧
    (∃ (dt : Nat) (r : Ring) (s : State), Runs swcPortStatusSpec r dt s ∧ byteAt r.req 0 ≤ 21) ∧
    (∃ (dt : Nat) (r : Ring) (s : State), Runs swcVlanSetSpec r dt s ∧ 1 ≤ fieldAt r.req 0 2 ∧ fieldAt r.req 0 2 ≤ 4094) ∧
    (∃ (dt : Nat) (r : Ring) (s : State), Runs swcStreamSetSpec r dt s ∧ (streamRecord r.req).frer ≠ 3 ∧ ((streamRecord
      r.req).frer = 2 → 2 ≤ (streamRecord r.req).history ∧ (streamRecord r.req).history ≤ 32 ∧ 1 ≤ (streamRecord r.req).resetMs) ∧
      ((streamRecord r.req).frer ≠ 0 → bitCount (streamRecord r.req).ports.toNat = 2)) ∧
    (∃ (dt : Nat) (r : Ring) (s : State), Runs swcGclStageSpec r dt s ∧ gclReserved r.req = none ∧ byteAt r.req 0 ≤ 15 ∧ byteAt
      r.req 1 ≤ 128 ∧ fieldAt r.req 4 4 ≠ 0 ∧ cycleUs s * 1000 % fieldAt r.req 4 4 = 0 ∧ ((gclEntries r.req).map (fun e =>
      e.2)).sum = fieldAt r.req 4 4) ∧
    (∃ (dt : Nat) (r : Ring) (s : State), Runs swcGclCommitSpec r dt s ∧ fieldAt r.req 0 2 ≠ 0 ∧ (∀ p : Nat, p < 16 → (fieldAt
      r.req 0 2).testBit p = true → (swOf s p).staged ≠ none) ∧ s.cmd.queued.length < 32) ∧
    (∃ (dt : Nat) (r : Ring) (s : State), Runs swcMacsecKeySpec r dt s ∧ byteAt r.req 0 ≤ 15) ∧
    (∃ (dt : Nat) (r : Ring) (s : State), Runs swcStreamStatusSpec r dt s) ∧
    (∃ (dt : Nat) (r : Ring) (s : State), Runs swcSaveSpec r dt s ∧ s.cmd.queued.length < 32) := by
  refine ⟨
    ⟨0, q [15,4,0,0,0xFE,0x0F,2,0], up, ?_⟩,
    ⟨0, q [21,1,0,0], up, ?_⟩,
    ⟨0, q [0xFE,0x0F,0,0,1,0,0,0,1,0,0,0], up, ?_⟩,
    ⟨0, qz 36 [7], up, ?_⟩,
    ⟨0, q [15,1,0,0,0xE8,3,0,0,0xFF,0,0,0,0xE8,3,0,0], lone, ?_⟩,
    ⟨0, q [0,0x80,0,0,9,0,0,0], modSw 15 (fun t => { t with staged := some { ct := 1000, entries := [(0xFF, 1000)] } }) up, ?_⟩,
    ⟨0, qz 52 [15], up, ?_⟩,
    ⟨0, q [255,1,0,0], up, ?_⟩,
    ⟨0, q [0,0,0,0], up, ?_⟩⟩
  all_goals (try simp only [runs_iff])
  all_goals decide +kernel

/-- What `Obligations.FabricCommandsComplete` supposes can be met, clause by clause. -/
theorem test_met_fabricCommandsComplete :
    (∃ (dt : Nat) (r : Ring) (s : State), Runs fabStatusSpec r dt s ∧ byteAt r.req 0 ≤ 3) ∧
    (∃ (dt : Nat) (r : Ring) (s : State), Runs fabConfigSpec r dt s ∧ s.ina.st = .steep ∧ ((byteAt r.req 0).testBit 0 = true →
      s.twin.configured = false) ∧ 1 ≤ fieldAt r.req 4 2 ∧ fieldAt r.req 4 2 ≤ 50 ∧ 10 ≤ fieldAt r.req 6 2 ∧ fieldAt r.req 6 2 ≤
      10000) ∧
    (∃ (dt : Nat) (r : Ring) (s : State), Runs fabWindowSetSpec r dt s ∧ byteAt r.req 0 ≤ 7 ∧ byteAt r.req 1 ≤ 2 ∧ (byteAt r.req 3
      ≤ 31 ∨ byteAt r.req 3 = 0xFF) ∧ fieldAt r.req 4 2 < 1024 ∧ byteAt r.req 6 < 16 ∧ fieldAt r.req 16 4 % 0x400000 = 0 ∧ fieldAt
      r.req 16 4 < 0x1000000) ∧
    (∃ (dt : Nat) (r : Ring) (s : State), Runs fabSlotTableSpec r dt s ∧ 2 ≤ byteAt r.req 0 ∧ byteAt r.req 0 ≤ 15 ∧ byteAt r.req 1
      = 1 ∧ fieldAt r.req 8 8 ≠ 0 ∧ fabActiveTwin s = true) ∧
    (∃ (dt : Nat) (r : Ring) (s : State), Runs fabSlotTableSpec r dt s ∧ 2 ≤ byteAt r.req 0 ∧ byteAt r.req 0 ≤ 15 ∧ byteAt r.req 1
      = 0 ∧ fabActiveTwin s = true) ∧
    (∃ (dt : Nat) (r : Ring) (s : State), Runs fabBridgeStatusSpec r dt s) ∧
    (∃ (dt : Nat) (r : Ring) (s : State), Runs fabPwlogSpec r dt s ∧ 1 ≤ byteAt r.req 0 ∧ byteAt r.req 0 ≤ 64) ∧
    (∃ (dt : Nat) (r : Ring) (s : State), Runs fabSemReleaseSpec r dt s ∧ byteAt r.req 0 ≤ 31) := by
  refine ⟨
    ⟨0, q [3,1,0,0], up, ?_⟩,
    ⟨0, q [1,15,0xFF,0xFF,50,0,10,0], up, ?_⟩,
    ⟨0, qz 20 [7,2,3,31,0xFF,3,15,0,0,0,0,0,0,0,0,0,0,0,0xC0,0], up, ?_⟩,
    ⟨0, q [15,1,0,0,0,0,0,0,1,0,0,0,0,0,0,0], activeTwin, ?_⟩,
    ⟨0, qz 16 [2,0], activeTwin, ?_⟩,
    ⟨0, q [1,0,0,0], up, ?_⟩,
    ⟨0, q [64,1,0,0], up, ?_⟩,
    ⟨0, q [31,0,0,0], up, ?_⟩⟩
  all_goals (try simp only [runs_iff])
  all_goals decide +kernel

/-- What `Obligations.PowerCommandsComplete` supposes can be met, clause by clause. -/
theorem test_met_powerCommandsComplete :
    (∃ (dt : Nat) (r : Ring) (s : State), Runs pwrStatusSpec r dt s) ∧
    (∃ (dt : Nat) (r : Ring) (s : State), Runs pwrDomainConfigSpec r dt s ∧ 1 ≤ byteAt r.req 0 ∧ byteAt r.req 0 ≤ 11 ∧ byteAt
      r.req 1 ≤ domLimit (byteAt r.req 0)) ∧
    (∃ (dt : Nat) (r : Ring) (s : State), Runs pwrParkSpec r dt s ∧ byteAt r.req 4 = 0 ∧ s.cmd.queued.length < 32) ∧
    (∃ (dt : Nat) (r : Ring) (s : State), Runs pwrKilnSpec r dt s ∧ byteAt r.req 4 = 0 ∧ s.cmd.queued.length < 32) ∧
    (∃ (dt : Nat) (r : Ring) (s : State), Runs pwrParkSpec r dt s ∧ byteAt r.req 4 = 1) ∧
    (∃ (dt : Nat) (r : Ring) (s : State), Runs pwrKilnSpec r dt s ∧ byteAt r.req 4 = 1) ∧
    (∃ (dt : Nat) (r : Ring) (s : State), Runs pwrWakeConfigSpec r dt s ∧ fieldAt r.req 10 4 < 1000000000) := by
  refine ⟨
    ⟨0, q [1,0,0,0], up, ?_⟩,
    ⟨0, q [11,1,0,0], up, ?_⟩,
    ⟨0, q [9,0,0,0,0,0,0,0], up, ?_⟩,
    ⟨0, q [9,0,0,0,0,0,0,0], up, ?_⟩,
    ⟨0, q [9,0,0,0,1,0,0,0], modPwr (fun p => { p with pend := some (false, 9, false) }) (modCmd (fun c =>
      { c with queued := [{ mbx := 2, opcode := 0x0C03, tag := 1, cmdSeq := 1, arg := 0 }] }) up), ?_⟩,
    ⟨0, q [9,0,0,0,1,0,0,0], up, ?_⟩,
    ⟨0, q [0x1F,0x1D,0,0,1,0,0,0,0,0,0xFF,0xC9,0x9A,0x3B,0,0], up, ?_⟩⟩
  all_goals (try simp only [runs_iff])
  all_goals decide +kernel

/-- What `Obligations.RepairRecorderCommandsComplete` supposes can be met, clause by clause. -/
theorem test_met_repairRecorderCommandsComplete :
    (∃ (dt : Nat) (r : Ring) (s : State), Runs repStatusSpec r dt s) ∧
    (∃ (dt : Nat) (r : Ring) (s : State), Runs repLogSpec r dt s ∧ 1 ≤ fieldAt r.req 2 2 ∧ fieldAt r.req 2 2 ≤ 250) ∧
    (∃ (dt : Nat) (r : Ring) (s : State), Runs repTestSpec r dt s ∧ 2 ≤ byteAt r.req 0 ∧ byteAt r.req 0 ≤ 4 ∧ byteAt r.req 1 = 0 ∧
      reqPending (Fin.ofNat 8 (byteAt r.req 0 - 1)) s = false ∧ s.cmd.queued.length < 32) ∧
    (∃ (dt : Nat) (r : Ring) (s : State), Runs repTestSpec r dt s ∧ byteAt r.req 0 = 1 ∧ byteAt r.req 1 ≤ 4 ∧
      s.rep.retired.getLsbD (byteAt r.req 1) = false ∧ (∀ l, carriedBy s (Fin.ofNat 5 (byteAt r.req 1)) = some l → pairSplit
      (pairOf s l) = false ∧ (pairOf s l).dbg = false) ∧ reqPending 0 s = false ∧ s.cmd.queued.length < 32) ∧
    (∃ (dt : Nat) (r : Ring) (s : State), Runs repCalibrateSpec r dt s ∧ 1 ≤ byteAt r.req 0 ∧ byteAt r.req 0 ≤ 3 ∧ reqPending
      (Fin.ofNat 8 (byteAt r.req 0 + 3)) s = false ∧ s.cmd.queued.length < 32) ∧
    (∃ (dt : Nat) (r : Ring) (s : State), Runs repRotationSpec r dt s ∧ (fieldAt r.req 0 2 = 0 ∨ 6 ≤ fieldAt r.req 0 2 ∧ fieldAt
      r.req 0 2 ≤ 168)) ∧
    (∃ (dt : Nat) (r : Ring) (s : State), Runs recStatusSpec r dt s) ∧
    (∃ (dt : Nat) (r : Ring) (s : State), Runs recConfigSpec r dt s ∧ byteAt r.req 4 ≤ 1) ∧
    (∃ (dt : Nat) (r : Ring) (s : State) (i : _), Runs recTriggerSpec r dt s ∧ s.flow.rec_.collecting = some i) ∧
    (∃ (dt : Nat) (r : Ring) (s : State) (x : _), Runs recTriggerSpec r dt s ∧ s.flow.rec_.collecting = none ∧ roomForCask
      s.cmd.cycleEvents.length s.flow.rec_ = some x) ∧
    (∃ (dt : Nat) (r : Ring) (s : State) (c : Cask), Runs recCaskSpec r dt s ∧ byteAt r.req 0 ≤ 7 ∧ s.flow.rec_.casks.getD (byteAt
      r.req 0) none = some c) ∧
    (∃ (dt : Nat) (r : Ring) (s : State), Runs recReleaseSpec r dt s ∧ byteAt r.req 0 ≤ 7) ∧
    (∃ (dt : Nat) (r : Ring) (s : State), Runs recPageSpec r dt s ∧ byteAt r.req 0 < 24) := by
  refine ⟨
    ⟨0, q [1,0,0,0], up, ?_⟩,
    ⟨0, q [0,0,250,0], up, ?_⟩,
    ⟨0, q [4,0,0,0], up, ?_⟩,
    ⟨0, q [1,4,0,0], up, ?_⟩,
    ⟨0, q [3,0,0,0], up, ?_⟩,
    ⟨0, q [168,0,0,0], up, ?_⟩,
    ⟨0, q [0,0,0,0], up, ?_⟩,
    ⟨0, qz 166 [1,0,1,0,1,0,3,1], up, ?_⟩,
    ⟨0, q [1,0,0,0], modRec (fun x => { x with collecting := some 2 }) up, 2, ?_⟩,
    ⟨0, q [1,0,0,0], up, Rec.reset, ?_⟩,
    ⟨0, q [7,0,0,0], modRec (fun x => { x with casks := x.casks.set 7 (some cask1) }) up, cask1, ?_⟩,
    ⟨0, q [7,0,0,0], up, ?_⟩,
    ⟨0, q [23,0,0,0], up, ?_⟩⟩
  all_goals (try simp only [runs_iff, all_some])
  all_goals decide +kernel

/-- What `Obligations.TrunkPortTransitions` supposes can be met, clause by clause. -/
theorem test_met_trunkPortTransitions :
    (∃ (p : Fin 4) (s : State), Sound s ∧ portUp s p = true ∧ onNdoelle (portOf s p) = true ∧ (portOf s p).lossClk = none) ∧
    (∃ (dt : Nat) (p : Fin 4) (s : State) (c : _), Sound s ∧ portUp s p = true ∧ (portOf s p).lossClk = some c ∧ c + usT 100 <
      s.clk + dt) ∧
    (∃ (dt : Nat) (p : Fin 4) (s : State) (c : _), Sound s ∧ (portOf s p).st = .up ∧ (portOf s p).lossClk = some c ∧ c ≤ s.clk ∧
      s.clk + dt < c + macroT s) ∧
    (∃ (dt : Nat) (p : Fin 4) (s : State) (c : _), Sound s ∧ (portOf s p).st = .resume ∧ (portOf s p).lossClk = some c ∧ c ≤ s.clk
      ∧ s.clk + dt < c + macroT s) ∧
    (∃ (dt : Nat) (p : Fin 4) (s : State) (c : _), Sound s ∧ linkHeld (portOf s p) = true ∧ (portOf s p).lossClk = some c ∧ c +
      macroT s ≤ s.clk + dt) ∧
    (∃ (p : Fin 4) (s : State), Sound s ∧ (portOf s p).st = .detect ∧ (policyOf s p = 1 ∧ negotiatesNext p s = false ∨ policyOf s
      p = 2)) ∧
    (∃ (p : Fin 4) (s : State), Sound s ∧ (portOf s p).st = .detect ∧ (policyOf s p = 1 ∧ negotiatesNext p s = true ∨ policyOf s p
      = 3)) ∧
    (∃ (p : Fin 4) (s : State), Sound s ∧ (portOf s p).st = .detect ∧ (policyOf s p = 4 ∨ policyOf s p = 5)) ∧
    (∃ (p : Fin 4) (s : State), Sound s ∧ (portOf s p).st = .train ∧ onNdoelle (portOf s p) = true) ∧
    (∃ (dt : Nat) (p : Fin 4) (s : State), Sound s ∧ (portOf s p).st = .qualify ∧ (portOf s p).qualClk + msT 16 ≤ s.clk + dt ∧
      (portOf s p).violations ≤ 16) ∧
    (∃ (dt : Nat) (p : Fin 4) (s : State), Sound s ∧ (portOf s p).st = .qualify ∧ (s.clk + dt < (portOf s p).qualClk + msT 16 ∨ 16
      < (portOf s p).violations)) ∧
    (∃ (p : Fin 4) (s : State) (k : Nat) (lost : Bool), Sound s ∧ (portOf s p).st = .qualify ∧ (lost = true ∨ 16 < (portOf s
      p).violations + k)) ∧
    (∃ (p : Fin 4) (s : State) (k : Nat) (lost : Bool), Sound s ∧ (portOf s p).st = .qualify ∧ lost = false ∧ (portOf s
      p).violations + k ≤ 16 ∨ linkHeld (portOf s p) = true) ∧
    (∃ (dt : Nat) (p : Fin 4) (s : State), Sound s ∧ (portOf s p).st = .negotiate ∧ (portOf s p).qualClk + secT 2 ≤ s.clk + dt) ∧
    (∃ (p : Fin 4) (s : State) (a : Bool) (b : Bool), Sound s ∧ (portOf s p).st = .negotiate ∧ (a = true ∨ b = true) ∧ onT1
      (portOf s (siblingPort p)) = false ∧ ndoelleHeld (portOf s (siblingPort p)) = false) ∧
    (∃ (p : Fin 4) (s : State) (a : Bool) (b : Bool), Sound s ∧ (portOf s p).st = .negotiate ∧ (portOf s (siblingPort p)).mode =
      .t1000 ∧ a = true ∨ (portOf s (siblingPort p)).mode = .t100 ∧ b = true) ∧
    (∃ (dt : Nat) (p : Fin 4) (s : State) (ans : Bool), Sound s ∧ (portOf s p).st = .train ∧ fallsBack p ans (begin_ dt s) =
      false) ∧
    (∃ (dt : Nat) (p : Fin 4) (s : State), Sound s ∧ (portOf s p).st = .train ∧ (portOf s p).trainPol = 1 ∧ policyOf s p = 1 ∧
      onNdoelle (portOf s p) = true ∧ (portOf s p).qualClk + msT 40 ≤ s.clk + dt ∧ ndoelleHeld (portOf s (siblingPort p)) = false)
      ∧
    (∃ (p : Fin 4) (s : State), Sound s ∧ (portOf s p).st = .train ∧ onT1 (portOf s p) = true) ∧
    (∃ (dt : Nat) (p : Fin 4) (s : State), Sound s ∧ (portOf s p).st = .train ∧ ((portOf s p).trainPol = 4 ∨ (portOf s p).trainPol
      = 5) ∨ (portOf s p).st = .detect ∧ (policyOf s p = 4 ∨ policyOf s p = 5) ∧ (portOf s p).swapClk + msT 500 ≤ s.clk + dt) ∧
    (∃ (dt : Nat) (p : Fin 4) (s : State), Sound s ∧ s.clk + dt < (portOf s p).swapClk + msT 500) ∧
    (∃ (p : Fin 4) (s : State), Sound s ∧ linkHeld (portOf s p) = true ∧ onT1 (portOf s p) = true) := by
  refine ⟨
    ⟨3, portIn 3 .up .ndoelle, ?_⟩,
    ⟨usT 100 + 1, 3, portLosing 3 .up .ndoelle, 0, ?_⟩,
    ⟨macroT up - 1, 3, portLosing 3 .up .ndoelle, 0, ?_⟩,
    ⟨macroT up - 1, 3, portLosing 3 .resume .ndoelle, 0, ?_⟩,
    ⟨macroT up, 3, portLosing 3 .up .ndoelle, 0, ?_⟩,
    ⟨3, portUnder 2 3 .detect .none, ?_⟩,
    ⟨3, portUnder 3 3 .detect .none, ?_⟩,
    ⟨1, portUnder 5 1 .detect .none, ?_⟩,
    ⟨3, portIn 3 .train .ndoelle, ?_⟩,
    ⟨msT 16, 3, portIn 3 .qualify .ndoelle, ?_⟩,
    ⟨msT 16 - 1, 3, portIn 3 .qualify .ndoelle, ?_⟩,
    ⟨3, portIn 3 .qualify .ndoelle, (17 : Nat), false, ?_⟩,
    ⟨3, portIn 3 .up .ndoelle, (17 : Nat), false, ?_⟩,
    ⟨secT 2, 3, portIn 3 .negotiate .none, ?_⟩,
    ⟨3, portIn 3 .negotiate .none, false, true, ?_⟩,
    ⟨3, modPort (siblingPort 3) (fun t => { t with mode := .t100 }) (portIn 3 .negotiate .none), true, true, ?_⟩,
    ⟨0, 3, portUnder 1 3 .train .ndoelle, true, ?_⟩,
    ⟨msT 40, 3, modPort 3 (fun t => { t with trainPol := 1 }) (portUnder 1 3 .train .ndoelle), ?_⟩,
    ⟨3, portIn 3 .train .t1000, ?_⟩,
    ⟨msT 500, 3, portUnder 5 3 .detect .none, ?_⟩,
    ⟨msT 500 - 1, 3, portUnder 5 3 .detect .none, ?_⟩,
    ⟨3, portIn 3 .up .t100, ?_⟩⟩
  all_goals (try simp only [sound_iff])
  all_goals decide +kernel

/-- What `Obligations.HopDelayExchange` supposes can be met, clause by clause. -/
theorem test_met_hopDelayExchange :
    (∃ (dt : Nat) (s : State) (p : Fin 4) (tx : _), Sound s ∧ portUp s p = true ∧ onNdoelle (portOf s p) = true ∧ markerClear p
      (tx - ((begin_ dt s).now : Int)).toNat 1 (begin_ dt s) = true) ∧
    (∃ (dt : Nat) (s : State) (p : Fin 4) (tx : Int) (idle : Bool), Sound s ∧ (idle = false ∨ markerClear p (tx - ((begin_ dt
      s).now : Int)).toNat 1 (begin_ dt s) = false)) ∧
    (∃ (s : State) (k : Fin 4) (l : Fin 2), Sound s ∧ laneRuns s k l = true ∧ (fabOf s k).delays.length = 2) ∧
    (∃ (s : State) (p : Fin 4) (m : _), Sound s ∧ markerPort (.trunk p) s = true ∧ markerOk m = true ∧ m.type = 0 ∧ s.sys.extest =
      false) ∧
    (∃ (dt : Nat) (s : State) (k : Fin 4) (l : Fin 2) (m : _) (tx : _), Sound s ∧ laneRuns s k l = true ∧ markerOk m = true ∧
      m.type = 0 ∧ ((begin_ dt s).now : Int) ≤ tx ∧ s.sys.extest = false) ∧
    (∃ (s : State) (p : Fin 4) (m : _), Sound s ∧ markerPort (.trunk p) s = true ∧ markerOk m = true ∧ m.type = 1 ∧ m.seq =
      markerSeq (portOf s p).delay ∧ (portOf s p).delay.t1.isSome = true) ∧
    (∃ (s : State) (p : Fin 4), Sound s ∧ portUp s p = true ∧ onT1 (portOf s p) = true ∧ s.sys.extest = false) ∧
    (∃ (s : State) (p : Fin 4), Sound s ∧ portUp s p = true ∧ onT1 (portOf s p) = true ∧ (portOf s p).delay.t1.isSome = true) ∧
    (∃ (s : State) (p : Fin 4) (m : _) (a : _) (b : _), Sound s ∧ markerPort (.trunk p) s = true ∧ markerOk m = true ∧ m.type = 2
      ∧ m.seq = markerSeq (portOf s p).delay ∧ m.value.toNat ≤ 128000 ∧ (portOf s p).delay.t1 = some a ∧ (portOf s p).delay.t4 =
      some b ∧ (portOf s p).delay.valid = true ∧ ((b - a - (m.value.toNat : Int) * 4096) / 2 - (portOf s p).delay.est).natAbs ≤
      nsT 8) ∧
    (∃ (s : State) (p : Fin 4) (m : _), Sound s ∧ markerPort (.trunk p) s = true ∧ markerOk m = true ∧ m.type = 2 ∧ (m.seq ≠
      markerSeq (portOf s p).delay ∨ 128000 < m.value.toNat)) ∧
    (∃ (s : State) (p : Fin 4), Sound s ∧ portUp s p = true ∧ onT1 (portOf s p) = true) ∧
    (∃ (s : State) (k : Fin 4) (l : Fin 2) (m : _), Sound s ∧ laneRuns s k l = true ∧ markerOk m = true ∧ m.type = 2) ∧
    (∃ (s : State) (p : Fin 4), Sound s ∧ portUp s p = true ∧ onT1 (portOf s p) = true) := by
  refine ⟨
    ⟨0, portIn 3 .up .ndoelle, 3, 5, ?_⟩,
    ⟨0, portIn 3 .up .ndoelle, 3, (5 : Int), false, ?_⟩,
    ⟨linkUp 3, 3, 1, ?_⟩,
    ⟨portIn 3 .up .ndoelle, 3, marker 0 7 0, ?_⟩,
    ⟨0, linkUp 3, 3, 1, marker 0 7 0, 9000000, ?_⟩,
    ⟨modPort 3 (fun t => { t with delay := { t.delay with reqSeq := 71, t1 := some 1 } }) (portIn 3 .up .ndoelle), 3, marker 1 7
      0, ?_⟩,
    ⟨portIn 3 .up .t100, 3, ?_⟩,
    ⟨modPort 3 (fun t => { t with delay := { t.delay with reqSeq := 71, t1 := some 1 } }) (portIn 3 .up .t1000), 3, ?_⟩,
    ⟨modPort 3 (fun t =>
      { t with delay := { t.delay with reqSeq := 71, valid := true, t1 := some 0, t4 := some (524288000 + 2 * nsT 8) } }) (portIn
      3 .up .ndoelle), 3, marker 2 7 128000, 0, 524288000 + 2 * nsT 8, ?_⟩,
    ⟨portIn 3 .up .ndoelle, 3, marker 2 7 128001, ?_⟩,
    ⟨portIn 3 .up .t100, 3, ?_⟩,
    ⟨linkUp 3, 3, 1, marker 2 7 0, ?_⟩,
    ⟨portIn 3 .up .t100, 3, ?_⟩⟩
  all_goals (try simp only [sound_iff])
  all_goals decide +kernel

/-- What `Obligations.BypassSwitches` supposes can be met, clause by clause. -/
theorem test_met_bypassSwitches :
    (∃ (s : State) (q : BypassSeq), s.trunk.seq = some q ∧ q.passive = true ∧ q.lineADone = false ∧ passiveTold s = true) ∧
    (∃ (s : State), passiveTold s = false) ∧
    (∃ (dt : Nat) (s : State) (q : BypassSeq), s.trunk.seq = some q ∧ q.passive = true ∧ q.lineADone = true ∧ q.aClk + msT 100 ≤
      s.clk + dt) ∧
    (∃ (s : State) (q : BypassSeq), s.trunk.seq = some q ∧ q.passive = false ∧ q.lineADone = false ∧ mayOpenSwitch s = true) ∧
    (∃ (dt : Nat) (s : State) (q : BypassSeq), s.trunk.seq = some q ∧ q.passive = false ∧ q.lineADone = true ∧ lineBMayOpen q.aClk
      (begin_ dt s) = true ∧ mayOpenSwitch s = true) ∧
    (∃ (dt : Nat) (s : State) (c : Bool), s.trunk.lineA.command = some c ∧ s.trunk.lineA.cmdClk + msT 4 ≤ s.clk + dt) ∧
    (∃ (dt : Nat) (s : State) (c : Bool), s.trunk.lineB.command = some c ∧ s.trunk.lineB.cmdClk + msT 4 ≤ s.clk + dt) ∧
    (∃ (dt : Nat) (s : State) (c : Bool) (x : Bool), s.trunk.lineA.command = some c ∧ x ≠ c ∧ s.trunk.lineA.retried = false ∧
      s.trunk.lineA.cmdClk + msT 4 ≤ s.clk + dt) ∧
    (∃ (s : State), s.sys.powered = true) ∧
    (∃ (s : State), s.pwr.shutdown = true) := by
  refine ⟨
    ⟨onTrunk (fun t => { t with seq := some { passive := true, lineADone := false, aClk := 0 } }),
      ({ passive := true, lineADone := false, aClk := 0 } : BypassSeq), ?_⟩,
    ⟨modTrunk (fun t => { t with seq := some { passive := true, lineADone := false, aClk := 0 } }) lone, ?_⟩,
    ⟨msT 100, onTrunk (fun t => { t with seq := some { passive := true, lineADone := true, aClk := 0 } }),
      ({ passive := true, lineADone := true, aClk := 0 } : BypassSeq), ?_⟩,
    ⟨onTrunk (fun t => { t with seq := some { passive := false, lineADone := false, aClk := 0 } }),
      ({ passive := false, lineADone := false, aClk := 0 } : BypassSeq), ?_⟩,
    ⟨msT 100, onTrunk (fun t => { t with seq := some { passive := false, lineADone := true, aClk := 0 } }),
      ({ passive := false, lineADone := true, aClk := 0 } : BypassSeq), ?_⟩,
    ⟨msT 4, onTrunk (fun t => { t with lineA := { t.lineA with command := some false } }), false, ?_⟩,
    ⟨msT 4, onTrunk (fun t => { t with lineB := { t.lineB with command := some false } }), false, ?_⟩,
    ⟨msT 4, onTrunk (fun t => { t with lineA := { t.lineA with command := some false } }), false, true, ?_⟩,
    ⟨up, ?_⟩,
    ⟨onPwr (fun p => { p with shutdown := true }), ?_⟩⟩
  all_goals decide +kernel

/-- What `Obligations.InaugurationCommandsComplete` supposes can be met, clause by clause. -/
theorem test_met_inaugurationCommandsComplete :
    (∃ (dt : Nat) (s : State) (p : Fin 4) (idle : _), Sound s ∧ beaconPort s p = true ∧ beaconClear p idle (begin_ dt s) = true ∧
      s.sys.extest = false) ∧
    (∃ (dt : Nat) (s : State) (p : Fin 4) (idle : _), Sound s ∧ (beaconPort s p = false ∨ beaconClear p idle (begin_ dt s) =
      false)) ∧
    (∃ (dt : Nat) (s : State) (p : Fin 4), Sound s ∧ s.trunk.passiveOn = true ∧ upPorts s = [p.val] ∧ s.sys.extest = false ∧
      beaconClear p (lineTicks (portOf s p) (inaugLen (.beacon (ownBeacon p (begin_ dt s))))) (begin_ dt s) = true) ∧
    (∃ (s : State) (p : Fin 4) (b : Beacon), Sound s ∧ beaconPort s p = true ∧ s.ina.st = .steep ∧ sameSchedule b s = true ∧
      b.flags.getLsbD 0 = false ∧ (portOf s p).ttdp = false ∧ (portOf s p).delay.valid = false) ∧
    (∃ (s : State) (p : Fin 4), Sound s ∧ beaconPort s p = false) ∧
    (∃ (dt : Nat) (s : State) (p : Fin 4) (b : BreakBody) (d : Directory) (u : _), Sound s ∧ portUp s p = true ∧ isBoundary s p =
      false ∧ straysNow p (begin_ dt s) = false ∧ s.ina.dir = some d ∧ uidNumbered d b.lostUid = true ∧ reporterOf b s = some u ∧
      s.ina.removals = []) ∧
    (∃ (s : State) (p : Fin 4) (b : BreakBody), Sound s ∧ portUp s p = true ∧ isBoundary s p = false ∧ (∀ d, s.ina.dir = some d →
      uidNumbered d b.lostUid = false)) ∧
    (∃ (dt : Nat) (s : State) (p : Fin 4) (d : DirFrame) (D : Directory), Sound s ∧ portUp s p = true ∧ isBoundary s p = false ∧
      straysNow p (begin_ dt s) = false ∧ d.isForeign = false ∧ d.prepared = false ∧ joined s = false ∧ s.ina.partial_ = [] ∧
      assembleDir [d] = some D) ∧
    (∃ (dt : Nat) (s : State) (p : Fin 4) (d : DirFrame) (D : Directory) (q : Prepared), Sound s ∧ portUp s p = true ∧ isBoundary
      s p = false ∧ straysNow p (begin_ dt s) = false ∧ d.isForeign = false ∧ d.prepared = true ∧ isFirst s = false ∧
      s.ina.partial_ = [] ∧ assembleDir [d] = some D ∧ s.ina.prep = some q ∧ q.committed = false) ∧
    (∃ (dt : Nat) (s : State) (p : Fin 4) (d : DirFrame) (D : Directory), Sound s ∧ portUp s p = true ∧ straysNow p (begin_ dt s)
      = false ∧ d.isForeign = true ∧ (portOf s p).partner = none ∧ s.ina.partial_ = [] ∧ assembleDir [d] = some D) ∧
    (∃ (dt : Nat) (s : State) (p : _) (j : JoinBody), Sound s ∧ isFirst s = true ∧ (∀ q : Fin 4, p = some q → OwnTraffic q dt s) ∧
      j ∉ s.ina.extra) ∧
    (∃ (dt : Nat) (s : State) (p : _) (j : JoinBody), Sound s ∧ inProvLead s = true ∧ (∀ q : Fin 4, p = some q → OwnTraffic q dt
      s) ∧ (∀ x ∈ s.ina.joiners, x.uid ≠ j.uid)) ∧
    (∃ (dt : Nat) (s : State) (p : Fin 4), Sound s ∧ portUp s p = true ∧ isBoundary s p = false ∧ isFirst s = false ∧ inProvLead s
      = false ∧ straysNow p (begin_ dt s) = false) ∧
    (∃ (s : State) (p : Fin 4), Sound s ∧ (portUp s p = false ∨ isBoundary s p = true)) ∧
    (∃ (s : State), Sound s ∧ isFirst s = false ∧ inProvLead s = false) ∧
    (∃ (dt : Nat) (s : State) (p : Fin 4), Sound s ∧ portUp s p = true ∧ isBoundary s p = false ∧ straysNow p (begin_ dt s) =
      false ∧ s.ina.st = .contend) ∧
    (∃ (dt : Nat) (s : State) (p : Fin 4) (m : MergeReport), Sound s ∧ portUp s p = true ∧ isBoundary s p = false ∧ isFirst s =
      true ∧ straysNow p (begin_ dt s) = false ∧ (∀ d, s.ina.dir = some d → uidNumbered d m.partner.uid = false) ∧ sameSchedule
      m.partner s = true) ∧
    (∃ (dt : Nat) (s : State) (p : Fin 4) (m : MergeReport), Sound s ∧ portUp s p = true ∧ isBoundary s p = false ∧ isFirst s =
      true ∧ straysNow p (begin_ dt s) = false ∧ (∀ d, s.ina.dir = some d → uidNumbered d m.partner.uid = false) ∧ sameSchedule
      m.partner s = false) ∧
    (∃ (dt : Nat) (s : State) (p : Fin 4), Sound s ∧ portUp s p = true ∧ isBoundary s p = false ∧ isFirst s = false ∧ straysNow p
      (begin_ dt s) = false) ∧
    (∃ (s : State) (p : Fin 4), Sound s ∧ (portUp s p = false ∨ isBoundary s p = true)) ∧
    (∃ (dt : Nat) (s : State) (p : _) (v : _), Sound s ∧ isFirst s = true ∧ (∀ q : Fin 4, p = some q → OwnTraffic q dt s) ∧ (∀ d,
      s.ina.dir = some d → d.leadVid ≠ v)) ∧
    (∃ (s : State) (p : Fin 4), Sound s ∧ (portUp s p = false ∨ isBoundary s p = true)) ∧
    (∃ (dt : Nat) (s : State) (p : Fin 4), Sound s ∧ portUp s p = true ∧ isBoundary s p = false ∧ isFirst s = false ∧ straysNow p
      (begin_ dt s) = false) ∧
    (∃ (s : State), Sound s ∧ isFirst s = false) ∧
    (∃ (s : State) (p : Fin 4), Sound s ∧ portUp s p = true ∧ onWtb s p = false ∧ isBoundary s p = false) ∧
    (∃ (dt : Nat) (s : State) (p : Fin 4) (f : OpeningFrame) (rx : _) (im : Image), Sound s ∧ portUp s p = true ∧ onWtb s p =
      false ∧ isBoundary s p = false ∧ f.type = 0x10 ∧ f.version = 1 ∧ s.sched.running = some im ∧ joined s = false ∧ s.ina.st =
      .steep ∧ s.sched.openOk = false ∧ (portOf s p).delay.valid = false ∧ openingFault im p f (pinRx (portOf s p) rx) (begin_ dt
      s) = none) ∧
    (∃ (dt : Nat) (s : State) (p : Fin 4) (f : OpeningFrame) (rx : _) (im : Image), Sound s ∧ portUp s p = true ∧ onWtb s p =
      false ∧ isBoundary s p = false ∧ f.type = 0x10 ∧ f.version = 1 ∧ s.sched.running = some im ∧ joined s = false ∧ s.ina.st =
      .steep ∧ openingFault im p f (pinRx (portOf s p) rx) (begin_ dt s) = some 3) ∧
    (∃ (dt : Nat) (s : State), Sound s ∧ mayContend s = true ∧ quietLong (begin_ dt s) = true ∧ isFirst s = false ∧ inProvLead s =
      false ∧ inContend s = false ∧ inBackbone s = false) ∧
    (∃ (s : State) (p : Fin 4), Sound s ∧ s.ina.st = .contend ∧ upPorts s = [p.val] ∧ carriesPadait p s = true ∧ (portOf s
      p).queues = [[], [], [], []]) ∧
    (∃ (dt : Nat) (s : State), Sound s ∧ s.ina.st = .contend ∧ s.ina.contendClk + msT 10 ≤ s.clk + dt) ∧
    (∃ (s : State), Sound s ∧ s.ina.st = .provLead ∧ 2 ≤ s.ina.provQuiet ∧ s.ina.prep = none) ∧
    (∃ (dt : Nat) (s : State) (p : _) (k : _), Sound s ∧ s.ina.prep = some p ∧ yieldSwitchTime (begin_ dt s) = some k ∧
      instantRuns s = true) ∧
    (∃ (s : State), Sound s ∧ s.ina.prep = none) := by
  refine ⟨
    ⟨0, lone, 0, nsT 1000000, ?_⟩,
    ⟨0, lone, 0, 0, ?_⟩,
    ⟨0, modTrunk (fun t => { t with passiveOn := true }) lone, 0, ?_⟩,
    ⟨modIna (fun n => { n with st := .steep }) lone, 0, beacon1, ?_⟩,
    ⟨lone, 1, ?_⟩,
    ⟨0, lone, 0, break1 upSys.uid, dir1, upSys.uid, ?_⟩,
    ⟨lone, 0, break1 77, ?_⟩,
    ⟨0, modIna (fun n => { n with st := .steep }) lone, 0, dirFrame1 false, ({ dir1 with nodes := 1 } : Directory), ?_⟩,
    ⟨0, modIna (fun n => { n with addr := 0x020, prep := some { prep1 with committed := false } }) lone, 0,
      ({ dirFrame1 false with prepared := true } : DirFrame), ({ dir1 with nodes := 1 } : Directory),
      ({ prep1 with committed := false } : Prepared), ?_⟩,
    ⟨0, lone, 0, dirFrame1 true, ({ dir1 with nodes := 1 } : Directory), ?_⟩,
    ⟨0, lone, some 0, join1, ?_⟩,
    ⟨0, modIna (fun n => { n with st := .provLead }) lone, some 0, join1, ?_⟩,
    ⟨0, portIn 0 .up .ndoelle, 0, ?_⟩,
    ⟨atBoundary lone, 0, ?_⟩,
    ⟨up, ?_⟩,
    ⟨0, modIna (fun n => { n with st := .contend }) lone, 0, ?_⟩,
    ⟨0, lone, 0, merge1 beacon1, ?_⟩,
    ⟨0, lone, 0, merge1 { beacon1 with hash := 1 }, ?_⟩,
    ⟨0, portIn 0 .up .ndoelle, 0, ?_⟩,
    ⟨up, 0, ?_⟩,
    ⟨0, lone, some (0 : Fin 4), 9, ?_⟩,
    ⟨atBoundary lone, 0, ?_⟩,
    ⟨0, portIn 0 .up .ndoelle, 0, ?_⟩,
    ⟨up, ?_⟩,
    ⟨lone, 0, ?_⟩,
    ⟨0, modIna (fun n => { n with st := .steep }) lone, 0, opening1, 65568768000, im1, ?_⟩,
    ⟨0, modIna (fun n => { n with st := .steep }) lone, 0, opening1, 65600000000, im1, ?_⟩,
    ⟨msT 120, modIna (fun n => { n with st := .steep }) (modTrunk (fun t =>
      { t with lineA := { t.lineA with closed := false }, lineB := { t.lineB with closed := false } }) lone), ?_⟩,
    ⟨modIna (fun n => { n with st := .contend }) (modPort 0 (fun t => { t with queues := [[], [], [], []] }) lone), 0, ?_⟩,
    ⟨msT 10, modIna (fun n => { n with st := .contend }) lone, ?_⟩,
    ⟨modIna (fun n => { n with st := .provLead, provQuiet := 2 }) lone, ?_⟩,
    ⟨0, modIna (fun n => { n with prep := some { prep1 with stepping := true } }) lone, { prep1 with stepping := true }, 5 *
      macroT lone, ?_⟩,
    ⟨up, ?_⟩⟩
  all_goals (try simp only [sound_iff, all_some, ownTraffic_iff, mem_all])
  all_goals decide +kernel

/-- What `Obligations.BackboneCommandsComplete` supposes can be met, clause by clause. -/
theorem test_met_backboneCommandsComplete :
    (∃ (s : State) (d : Fin 2), s.sys.native = false ∧ s.trunk.policy.getD d.val 0 = 6 ∧ joined s = false) ∧
    (∃ (s : State) (u : _) (D : Directory), isFirst s = true ∧ s.ina.dir = some D ∧ uidNumbered D u = true) ∧
    (∃ (s : State), isFirst s = false) ∧
    (∃ (s : State) (a : _) (okA : Bool) (okB : Bool), islandHolds a s = true ∧ (okA = true ∨ okB = true)) ∧
    (∃ (s : State), s.ina.islands ≠ [] ∧ s.sys.extest = false) ∧
    (∃ (s : State) (p : Fin 4), portUp s p = true ∧ onWtb s p = false ∧ onT1 (portOf s p) = true ∧ (portOf s p).partner = none ∧
      inBackbone s = false) ∧
    (∃ (s : State) (p : Fin 4) (x : Ttdp), portUp s p = true ∧ onWtb s p = false ∧ onT1 (portOf s p) = true ∧ (portOf s p).partner
      = none ∧ inBackbone s = true ∧ x.counter = s.ina.ttCounter) ∧
    (∃ (s : State) (p : Fin 4), (portUp s p = false ∨ onWtb s p = true)) ∧
    (∃ (s : State) (p : Fin 4), portUp s p = true ∧ inBackbone s = true ∧ isFirst s = true) ∧
    (∃ (s : State) (p : Fin 4), portUp s p = true ∧ inBackbone s = true ∧ isFirst s = false ∧ (∀ q ∈ upPorts s, dirOfPort q ≠
      dirOfPort p → (portOf s q).ttdp = false)) ∧
    (∃ (s : State) (p : Fin 4), (portUp s p = false ∨ inBackbone s = false)) ∧
    (∃ (s : State) (n : BitVec 7), n ≠ s.time.trunkDomain) := by
  refine ⟨
    ⟨onTrunk (fun t => { t with policy := [3, 6] }), 1, ?_⟩,
    ⟨lone, upSys.uid, dir1, ?_⟩,
    ⟨up, ?_⟩,
    ⟨modFlow (fun w => { w with ctx := [(1, { prodCtx with transport := 2, entry := 3 })] }) (onIna (fun n =>
      { n with islands := [{ uid := 1, dir := 1, addrs := [3], interior := false }] })), 3, false, true, ?_⟩,
    ⟨onIna (fun n => { n with islands := [{ uid := 1, dir := 1, addrs := [3], interior := false }] }), ?_⟩,
    ⟨portIn 0 .up .t1000, 0, ?_⟩,
    ⟨modIna (fun n => { n with st := .backbone }) (portIn 0 .up .t1000), 0, ({ counter := 0, nodes := [] } : Ttdp), ?_⟩,
    ⟨up, 0, ?_⟩,
    ⟨modIna (fun n => { n with st := .backbone, addr := 0x010 }) (modPort 1 (fun t => { t with st := .up, mode := .t1000 })
      (portIn 0 .up .t1000)), 0, ?_⟩,
    ⟨modIna (fun n => { n with st := .backbone }) (portIn 0 .up .t1000), 0, ?_⟩,
    ⟨lone, 0, ?_⟩,
    ⟨up, (21 : BitVec 7), ?_⟩⟩
  all_goals (try simp only [mem_all])
  all_goals decide +kernel

/-- What `Obligations.StartCommandsComplete` supposes can be met, clause by clause. -/
theorem test_met_startCommandsComplete :
    (∃ (s : State), Sound s ∧ s.sys.powered = false ∧ s.pwr.dev = .unpowered) ∧
    (∃ (s : State) (w : _), Sound s ∧ s.sys.powered = false ∧ s.pwr.dev = .kiln ∧ s.sys.kilnWake = some w) ∧
    (∃ (s : State) (r : StepResult), Sound s ∧ stepRuns 1 s = true ∧ r.step = 1 ∧ r.ok = true) ∧
    (∃ (s : State) (r : StepResult), Sound s ∧ stepRuns 1 s = true ∧ r.step = 1 ∧ r.ok = false) ∧
    (∃ (s : State) (r : StepResult), Sound s ∧ stepRuns 2 s = true ∧ r.step = 2) ∧
    (∃ (s : State) (r : StepResult), Sound s ∧ stepRuns 3 s = true ∧ r.step = 3) ∧
    (∃ (s : State) (r : StepResult), Sound s ∧ stepRuns 4 s = true ∧ r.step = 4 ∧ r.ok = true) ∧
    (∃ (s : State) (r : StepResult), Sound s ∧ stepRuns 4 s = true ∧ r.step = 4 ∧ r.ok = false) ∧
    (∃ (s : State) (r : StepResult), Sound s ∧ stepRuns 5 s = true ∧ r.step = 5) ∧
    (∃ (s : State) (r : StepResult), Sound s ∧ stepRuns 6 s = true ∧ r.step = 6) ∧
    (∃ (dt : Nat) (s : State), Sound s ∧ s.sys.powered = true ∧ s.sys.heldInReset = true ∧ s.sys.attempts = 1 ∧ s.sys.startClk +
      secT 1 ≤ s.clk + dt) := by
  refine ⟨
    ⟨State.reset, ?_⟩,
    ⟨modSys (fun y => { y with kilnWake := some 2 }) (modPwr (fun p => { p with dev := .kiln }) State.reset), 2, ?_⟩,
    ⟨starting 1, stepEnd 1 true, ?_⟩,
    ⟨starting 1, stepEnd 1 false, ?_⟩,
    ⟨starting 2, stepEnd 2 true, ?_⟩,
    ⟨starting 3, stepEnd 3 true, ?_⟩,
    ⟨starting 4, stepEnd 4 true, ?_⟩,
    ⟨starting 4, stepEnd 4 false, ?_⟩,
    ⟨starting 5, stepEnd 5 true, ?_⟩,
    ⟨starting 6, stepEnd 6 true, ?_⟩,
    ⟨secT 1, onSys (fun y => { y with heldInReset := true, attempts := 1 }), ?_⟩⟩
  all_goals (try simp only [sound_iff])
  all_goals decide +kernel

/-- What `Obligations.ResetCommandsComplete` supposes can be met, clause by clause. -/
theorem test_met_resetCommandsComplete :
    (∃ (s : State), Sound s) ∧
    (∃ (s : State), Sound s) ∧
    (∃ (s : State), Sound s ∧ s.sys.powered = true ∧ s.sys.heldInReset = false) ∧
    (∃ (s : State), Sound s ∧ s.sys.powered = true) ∧
    (∃ (dt : Nat) (s : State) (k : _), Sound s ∧ s.sys.resetPending = some k ∧ nextInstant s ≤ (begin_ dt s).now) ∧
    (∃ (dt : Nat) (s : State), Sound s ∧ (s.sys.resetPending = none ∨ (begin_ dt s).now < nextInstant s)) ∧
    (∃ (s : State) (k : _), Sound s ∧ s.sys.powered = true ∧ s.sys.resetPending = some k) ∧
    (∃ (s : State), Sound s ∧ s.sys.powered = true ∧ s.sys.debugScope.getLsbD 0 = true) ∧
    (∃ (s : State), Sound s ∧ (s.sys.powered = false ∨ s.sys.debugScope.getLsbD 0 = false)) := by
  refine ⟨
    ⟨up, ?_⟩,
    ⟨up, ?_⟩,
    ⟨up, ?_⟩,
    ⟨up, ?_⟩,
    ⟨macroT up, onSys (fun y => { y with resetPending := some (1, 0) }), (1, 0), ?_⟩,
    ⟨0, onSys (fun y => { y with resetPending := some (1, 0) }), ?_⟩,
    ⟨onSys (fun y => { y with resetPending := some (1, 0), debugScope := 2 }), (1, 0), ?_⟩,
    ⟨onSys (fun y => { y with debugScope := 1 }), ?_⟩,
    ⟨onSys (fun y => { y with debugScope := 2 }), ?_⟩⟩
  all_goals (try simp only [sound_iff])
  all_goals decide +kernel

/-- What `Obligations.SupplyCommandsComplete` supposes can be met, clause by clause. -/
theorem test_met_supplyCommandsComplete :
    (∃ (s : State), Sound s ∧ s.sys.powered = true ∧ s.pwr.dev = .run) ∧
    (∃ (s : State), Sound s ∧ s.sys.powered = true ∧ s.pwr.dev = .run ∧ s.pwr.supply = .normal) ∧
    (∃ (s : State), Sound s ∧ s.sys.powered = true ∧ s.pwr.dev = .run ∧ s.pwr.supply = .riding) ∧
    (∃ (s : State) (vin : _), Sound s ∧ s.sys.powered = true ∧ s.pwr.dev = .park ∧ s.pwr.supply ≠ .loss ∧ vin < 1200) ∧
    (∃ (s : State) (vin : _), Sound s ∧ s.pwr.dev = .kiln ∧ 1200 ≤ vin) ∧
    (∃ (s : State), Sound s) ∧
    (∃ (s : State) (vin : _) (v : _), Sound s ∧ s.pwr.supply = .riding ∧ s.pwr.dev ≠ .kiln ∧ vin < 1300 ∧ v ≤ 7200) ∧
    (∃ (s : State), Sound s ∧ s.pwr.shutdown = true) ∧
    (∃ (s : State), Sound s ∧ s.pwr.shutdown = true) ∧
    (∃ (s : State), Sound s ∧ s.sys.powered = false) ∧
    (∃ (s : State) (c : _) (d : _), Sound s ∧ s.sys.powered = true ∧ s.pwr.supply ≠ .loss ∧ c < 1050 ∧ d < 1100) ∧
    (∃ (s : State) (c : _) (d : _), Sound s ∧ s.sys.powered = true ∧ s.pwr.supply ≠ .loss ∧ s.pwr.throttled = false ∧ c < 1050 ∧
      1100 ≤ d ∧ d < 1250) ∧
    (∃ (s : State) (c : _) (d : _), Sound s ∧ s.sys.powered = true ∧ s.pwr.supply ≠ .loss ∧ (1250 ≤ d ∨ 1050 ≤ c)) := by
  refine ⟨
    ⟨up, ?_⟩,
    ⟨up, ?_⟩,
    ⟨onPwr (fun p => { p with supply := .riding }), ?_⟩,
    ⟨onPwr (fun p => { p with dev := .park }), 1199, ?_⟩,
    ⟨onPwr (fun p => { p with dev := .kiln }), 1200, ?_⟩,
    ⟨up, ?_⟩,
    ⟨onPwr (fun p => { p with supply := .riding }), 1299, 7200, ?_⟩,
    ⟨onPwr (fun p => { p with shutdown := true }), ?_⟩,
    ⟨onPwr (fun p => { p with shutdown := true }), ?_⟩,
    ⟨State.reset, ?_⟩,
    ⟨up, 1049, 1099, ?_⟩,
    ⟨up, 1049, 1249, ?_⟩,
    ⟨up, 1050, 1099, ?_⟩⟩
  all_goals (try simp only [sound_iff])
  all_goals decide +kernel

/-- What `Obligations.PowerStateCommandsComplete` supposes can be met, clause by clause. -/
theorem test_met_powerStateCommandsComplete :
    (∃ (s : State) (d : Fin 12), Sound s ∧ s.pwr.dev = .run ∧ s.pwr.doms.getD d.val .off ≠ .off ∧ d.val < s.pwr.idle.length) ∧
    (∃ (s : State) (d : Fin 12), Sound s ∧ s.pwr.dev = .run ∧ s.pwr.doms.getD d.val .off ≠ .off ∧ d.val < s.pwr.idle.length ∧
      d.val < s.pwr.nextAt.length ∧ mayIdle d.val s = true) ∧
    (∃ (s : State) (d : Fin 12), Sound s ∧ s.pwr.dev = .run ∧ s.pwr.doms.getD d.val .off ≠ .off ∧ d.val < s.pwr.idle.length ∧
      d.val < s.pwr.nextAt.length ∧ mayIdle d.val s = true) ∧
    (∃ (s : State) (d : Fin 12), Sound s ∧ s.pwr.dev = .run ∧ s.pwr.doms.getD d.val .off ≠ .off ∧ mayIdle d.val s = false) ∧
    (∃ (s : State) (d : Fin 12), Sound s ∧ s.pwr.doms.getD d.val .off ≠ .off) ∧
    (∃ (s : State) (d : Fin 12) (k : _), Sound s ∧ s.pwr.doms.getD d.val .off ≠ .off ∧ wakeLatency d.val s ≤ k) ∧
    (∃ (s : State) (d : Fin 12) (k : _), Sound s ∧ s.pwr.doms.getD d.val .off ≠ .off ∧ k < wakeLatency d.val s) ∧
    (∃ (dt : Nat) (s : State), Sound s ∧ parkDue (runTo (nextInstant s) s) = true ∧ nextInstant s ≤ (begin_ dt s).now) ∧
    (∃ (dt : Nat) (s : State), Sound s ∧ (parkDue (runTo (nextInstant s) s) = false ∨ (begin_ dt s).now < nextInstant s)) ∧
    (∃ (s : State), Sound s ∧ s.sys.powered = true ∧ s.sys.resetPending = none ∧ parkDue s = true) ∧
    (∃ (dt : Nat) (s : State), Sound s ∧ kilnDue (runTo (nextInstant s) s) = true ∧ nextInstant s ≤ (begin_ dt s).now) ∧
    (∃ (dt : Nat) (s : State), Sound s ∧ (kilnDue (runTo (nextInstant s) s) = false ∨ (begin_ dt s).now < nextInstant s)) ∧
    (∃ (s : State), Sound s ∧ s.sys.powered = true ∧ s.sys.resetPending = none ∧ kilnDue s = true) ∧
    (∃ (dt : Nat) (s : State) (i : Fin 5), Sound s ∧ s.pwr.dev = .park ∧ s.pwr.wakeBits = 0 ∧ s.pwr.wakePark.getLsbD i.val = true
      ∧ (i = 3 → s.pwr.alarm ≠ 0 ∧ s.pwr.alarm ≤ (begin_ dt s).now) ∧ (i = 4 → canWakes s = true)) ∧
    (∃ (dt : Nat) (s : State) (i : Fin 5), Sound s ∧ s.pwr.dev = .kiln ∧ s.pwr.wakeBits = 0 ∧ s.pwr.wakeKiln.getLsbD i.val = true
      ∧ i ≠ 1 ∧ (i = 3 → s.pwr.alarm ≠ 0 ∧ s.pwr.alarm ≤ (begin_ dt s).now) ∧ (i = 4 → canWakes s = true)) ∧
    (∃ (s : State), Sound s ∧ s.pwr.dev = .park ∧ s.pwr.wakeBits = 0 ∧ s.pwr.wakePark.getLsbD 2 = true) ∧
    (∃ (s : State), Sound s ∧ s.pwr.dev = .park ∧ s.pwr.wakeBits ≠ 0) := by
  refine ⟨
    ⟨up, 11, ?_⟩,
    ⟨up, 11, ?_⟩,
    ⟨up, 11, ?_⟩,
    ⟨modPair 1 (fun p => { p with pendHand := some .split }) up, 3, ?_⟩,
    ⟨onPwr (fun p => { p with doms := p.doms.set 11 .nap }), 11, ?_⟩,
    ⟨onPwr (fun p => { p with doms := p.doms.set 11 .nap }), 11, usT 40, ?_⟩,
    ⟨onPwr (fun p => { p with doms := p.doms.set 11 .nap }), 11, usT 40 - 1, ?_⟩,
    ⟨macroT up, onPwr (fun p => { p with pend := some (false, 1, false) }), ?_⟩,
    ⟨0, onPwr (fun p => { p with pend := some (false, 0, false) }), ?_⟩,
    ⟨onPwr (fun p => { p with pend := some (false, 0, false) }), ?_⟩,
    ⟨macroT up, onPwr (fun p => { p with pend := some (true, 1, false) }), ?_⟩,
    ⟨0, onPwr (fun p => { p with pend := some (true, 0, false) }), ?_⟩,
    ⟨onPwr (fun p => { p with pend := some (true, 0, false) }), ?_⟩,
    ⟨9, onPwr (fun p => { p with dev := .park, alarm := 9 }), 3, ?_⟩,
    ⟨9, onPwr (fun p => { p with dev := .kiln, alarm := 9 }), 3, ?_⟩,
    ⟨onPwr (fun p => { p with dev := .park }), ?_⟩,
    ⟨onPwr (fun p => { p with dev := .park, wakeBits := 4 }), ?_⟩⟩
  all_goals (try simp only [sound_iff])
  all_goals decide +kernel

/-- What `Obligations.CycleCommandsComplete` supposes can be met, clause by clause. -/
theorem test_met_cycleCommandsComplete :
    (∃ (s : State), Sound s ∧ instantRuns s = true ∧ s.ina.prep = none) ∧
    (∃ (s : State) (p : _), Sound s ∧ instantRuns s = true ∧ s.ina.prep = some p ∧ yieldSwitchTime s = some (nextInstant s) ∧
      removalDue s = false) ∧
    (∃ (s : State) (p : Prepared), Sound s ∧ instantRuns s = true ∧ s.ina.prep = some p ∧ (yieldSwitchTime s ≠ some (nextInstant
      s) ∨ removalDue s = true)) ∧
    (∃ (s : State), Sound s ∧ instantRuns s = false ∧ inPark s = false) ∧
    (∃ (s : State), Sound s ∧ instantRuns s = false ∧ inPark s = true) ∧
    (∃ (s : State), Sound s ∧ (s.time.st = .acquire ∨ s.time.st = .locked) ∧ 2 ≤ s.time.without) ∧
    (∃ (s : State), Sound s ∧ (s.time.st = .free ∨ s.time.st = .master ∨ s.time.st = .holdover ∨ s.time.without < 2)) ∧
    (∃ (s : State), Sound s ∧ s.flow.opening = true ∧ s.flow.nextOpen = false ∧ s.flow.heldWrites = [] ∧ s.flow.irqEn = false) ∧
    (∃ (s : State) (i : _) (off : _) (data : _), Sound s ∧ s.flow.opening = true ∧ s.flow.nextOpen = false ∧ s.flow.heldWrites =
      [(i, off, data)] ∧ s.flow.irqEn = false) ∧
    (∃ (s : State), Sound s ∧ s.flow.opening = true ∧ s.flow.nextOpen = false ∧ s.flow.heldWrites = [] ∧ s.flow.irqEn = true) ∧
    (∃ (s : State), Sound s ∧ (s.flow.opening = false ∨ s.flow.nextOpen = true)) ∧
    (∃ (s : State), Sound s ∧ s.sys.ready = true ∧ s.pwr.dev = .run ∧ s.flow.deadline = false) ∧
    (∃ (s : State), Sound s ∧ (s.sys.ready = false ∨ s.pwr.dev ≠ .run ∨ s.flow.deadline = true)) := by
  refine ⟨
    ⟨up, ?_⟩,
    ⟨modIna (fun n => { n with prep := some { prep1 with stepping := true, k := 1 } }) lone,
      { prep1 with stepping := true, k := 1 }, ?_⟩,
    ⟨modIna (fun n => { n with prep := some prep1 }) lone, prep1, ?_⟩,
    ⟨State.reset, ?_⟩,
    ⟨onPwr (fun p => { p with dev := .park }), ?_⟩,
    ⟨modTime (fun t => { t with st := .locked, without := 2 }) up, ?_⟩,
    ⟨up, ?_⟩,
    ⟨onFlow (fun w => { w with opening := true }), ?_⟩,
    ⟨onFlow (fun w => { w with opening := true, heldWrites := [(.pcie, 0, [1, 2])] }), Iface.pcie, 0, [1,2], ?_⟩,
    ⟨onFlow (fun w => { w with opening := true, irqEn := true }), ?_⟩,
    ⟨up, ?_⟩,
    ⟨up, ?_⟩,
    ⟨State.reset, ?_⟩⟩
  all_goals (try simp only [sound_iff])
  all_goals decide +kernel

/-- What `Obligations.LineCommandsComplete` supposes can be met, clause by clause. -/
theorem test_met_lineCommandsComplete :
    (∃ (dt : Nat) (s : State) (n : _) (im : Image) (e : _) (i : _) (c : FlowCtx), Sound s ∧ s.sched.running = some im ∧ entryAt im
      n = some e ∧ joined s = true ∧ s.fab.attached = false ∧ readyToSend (begin_ dt s) = true ∧ (polledEntries (begin_ dt
      s)).contains n = true ∧ entryOwn e s = true ∧ e.flags.getLsbD 0 = false ∧ entryFlow n s = some (i, c)) ∧
    (∃ (dt : Nat) (s : State) (n : _) (im : Image) (e : _), Sound s ∧ s.sched.running = some im ∧ entryAt im n = some e ∧ joined s
      = true ∧ s.fab.attached = false ∧ readyToSend (begin_ dt s) = true ∧ (polledEntries (begin_ dt s)).contains n = true ∧
      entryOwn e s = true ∧ e.flags.getLsbD 0 = true) ∧
    (∃ (dt : Nat) (s : State) (n : _) (im : Image) (e : _) (k : _), Sound s ∧ s.sched.running = some im ∧ entryAt im n = some e ∧
      joined s = true ∧ s.fab.attached = false ∧ readyToSend (begin_ dt s) = true ∧ (polledEntries (begin_ dt s)).contains n =
      true ∧ entryOwn e s = false ∧ proxySlot e s = some k ∧ fabActiveTwin s = true) ∧
    (∃ (dt : Nat) (s : State) (n : _), Sound s ∧ (s.sched.running = none ∨ joined s = false ∨ s.fab.attached = true ∨ readyToSend
      (begin_ dt s) = false ∨ (polledEntries (begin_ dt s)).contains n = false)) ∧
    (∃ (s : State), Sound s ∧ s.sys.extest = false) ∧
    (∃ (dt : Nat) (s : State) (p : Fin 4) (f : TransitFrame) (rx : _), Sound s ∧ f.fin = .good ∧ f.local_ = none ∧ straysAt p
      (pinRx (portOf s p) rx) (begin_ dt s) = false ∧ scheduledAt p (pinRx (portOf s p) rx) (begin_ dt s) = false ∧ onWtb s p =
      false ∧ forwards s p = true ∧ onWtb s (acrossPort p) = false ∧ (portOf s (acrossPort p)).busyTill ≤ s.clk + dt ∧ (portOf s
      (acrossPort p)).fifo = []) ∧
    (∃ (dt : Nat) (s : State) (p : Fin 4) (f : TransitFrame) (rx : _), Sound s ∧ f.fin = .good ∧ f.local_ = none ∧ straysAt p
      (pinRx (portOf s p) rx) (begin_ dt s) = false ∧ scheduledAt p (pinRx (portOf s p) rx) (begin_ dt s) = false ∧ onWtb s p =
      false ∧ forwards s p = true ∧ onWtb s (acrossPort p) = false ∧ s.clk + dt < (portOf s (acrossPort p)).busyTill ∧ ((portOf s
      (acrossPort p)).fifo.map transitLen).sum + f.len ≤ 4096) ∧
    (∃ (dt : Nat) (s : State) (p : Fin 4) (f : TransitFrame) (rx : Int), Sound s ∧ f.fin = .good ∧ f.local_ = none ∧ straysAt p
      (pinRx (portOf s p) rx) (begin_ dt s) = true ∧ scheduledAt p (pinRx (portOf s p) rx) (begin_ dt s) = false ∧ onWtb s p =
      false ∧ forwards s p = true ∧ onWtb s (acrossPort p) = false) ∧
    (∃ (dt : Nat) (s : State) (p : Fin 4) (f : TransitFrame) (rx : _) (e : EthFrame), Sound s ∧ f.fin = .good ∧ f.local_ = some e
      ∧ straysAt p (pinRx (portOf s p) rx) (begin_ dt s) = false ∧ portUp s p = true ∧ onWtb s p = false ∧ isBoundary s p = false)
      ∧
    (∃ (dt : Nat) (s : State) (p : Fin 4) (f : TransitFrame) (rx : Int) (e : EthFrame), Sound s ∧ f.fin = .good ∧ f.local_ = some
      e ∧ straysAt p (pinRx (portOf s p) rx) (begin_ dt s) = true ∧ portUp s p = true ∧ onWtb s p = false) ∧
    (∃ (dt : Nat) (s : State) (p : Fin 4) (rx : Int), Sound s ∧ straysAt p (pinRx (portOf s p) rx) (begin_ dt s) = false ∧ portUp
      s p = true ∧ onWtb s p = false ∧ cutsThrough p s = false) ∧
    (∃ (dt : Nat) (s : State) (p : Fin 4) (f : _) (fs : _), Sound s ∧ portCarries s p = true ∧ onWtb s p = false ∧ (portOf s
      p).busyTill ≤ s.clk + dt ∧ (portOf s p).fifo = f :: fs) ∧
    (∃ (dt : Nat) (s : State) (p : Fin 4) (f : QFrame) (im : Image), Sound s ∧ portCarries s p = true ∧ onWtb s p = false ∧
      (portOf s p).busyTill ≤ s.clk + dt ∧ (portOf s p).fifo = [] ∧ ((portOf s p).queues.getD 0 []).head? = some f ∧ isBoundary s
      p = false ∧ s.sched.running = some im ∧ regionAllows im p 0 f (begin_ dt s) = true ∧ creditAllows im p 0 f s = true) ∧
    (∃ (dt : Nat) (s : State) (p : Fin 4) (f : QFrame), Sound s ∧ portCarries s p = true ∧ onWtb s p = false ∧ (portOf s
      p).busyTill ≤ s.clk + dt ∧ (portOf s p).fifo = [] ∧ ((portOf s p).queues.getD 0 []).head? = some f ∧ isBoundary s p = false
      ∧ s.sched.running = none) ∧
    (∃ (dt : Nat) (s : State) (p : Fin 4), Sound s ∧ portCarries s p = true ∧ onWtb s p = false ∧ (portOf s p).busyTill ≤ s.clk +
      dt ∧ (portOf s p).fifo = [] ∧ isBoundary s p = true ∧ (∀ q ∈ (portOf s p).queues, ∀ f ∈ q, mayCross f.frame = false)) ∧
    (∃ (s : State), Sound s) ∧
    (∃ (s : State) (b : Bool) (f : FlowFrame) (i : _) (c : FlowCtx), Sound s ∧ s.fab.attached = true ∧ f.sec = none ∧
      s.twin.configured = false ∧ consumer f.flowId s = some (i, c) ∧ c.macsec = false ∧ genInForce f.gen s = true ∧ lineAllowed c
      b = true) ∧
    (∃ (s : State) (f : FlowFrame) (i : _) (c : FlowCtx), Sound s ∧ s.fab.attached = true ∧ f.sec = none ∧ s.twin.configured =
      false ∧ consumer f.flowId s = some (i, c) ∧ c.macsec = false ∧ genInForce f.gen s = false) ∧
    (∃ (s : State) (f : FlowFrame) (i : _) (c : _), Sound s ∧ s.fab.attached = true ∧ f.sec = none ∧ s.twin.configured = false ∧
      consumer f.flowId s = some (i, c) ∧ c.macsec = true) ∧
    (∃ (s : State) (b : Bool) (f : FlowFrame) (i : _) (c : _), Sound s ∧ s.fab.attached = true ∧ f.sec = none ∧ s.twin.configured
      = false ∧ consumer f.flowId s = some (i, c) ∧ c.macsec = false ∧ genInForce f.gen s = true ∧ lineAllowed c b = true ∧ f.len
      ≠ c.len.toNat) ∧
    (∃ (s : State) (fin : FrameEnd), Sound s ∧ (s.fab.attached = false ∨ fin ≠ .good)) ∧
    (∃ (s : State) (p : Fin 4), Sound s ∧ portUp s p = true ∧ onWtb s p = false) ∧
    (∃ (s : State) (p : Fin 4), Sound s ∧ portUp s p = true ∧ onWtb s p = false ∧ isBoundary s p = true) ∧
    (∃ (s : State) (p : Fin 4) (f : FlowFrame), Sound s ∧ portUp s p = true ∧ onWtb s p = false ∧ isBoundary s p = false ∧ f.sec =
      none ∧ s.twin.configured = false ∧ genInForce f.gen s = false ∧ consumer f.flowId s = none ∧ s.sched.running = none) := by
  refine ⟨
    ⟨0, opened (modFlow (fun w => { w with ctx := [(0, prodCtx)], run := [(0, { flowRunZero with valid := true })] }) lone), 0,
      im1, { en1 with role := 0x0010 }, 0, prodCtx, ?_⟩,
    ⟨0, opened (loneWith { en1 with role := 0x0010, flags := 1 }), 0, imWith { en1 with role := 0x0010, flags := 1 },
      { en1 with role := 0x0010, flags := 1 }, ?_⟩,
    ⟨0, opened (loneWith { en1 with role := 0x0012 }), 0, imWith { en1 with role := 0x0012 }, { en1 with role := 0x0012 }, 2, ?_⟩,
    ⟨0, up, 0, ?_⟩,
    ⟨up, ?_⟩,
    ⟨0, lineAUp, 0, transit1 none, 5, ?_⟩,
    ⟨0, modPort 2 (fun t => { t with busyTill := 1 }) lineAUp, 0, transit1 none, 5, ?_⟩,
    ⟨0, slotLineA, 0, transit1 none, (nsT 15000 : Int), ?_⟩,
    ⟨0, lineAUp, 0, transit1 (some eth1), 5, eth1, ?_⟩,
    ⟨0, slotLineA, 0, transit1 (some eth1), (nsT 15000 : Int), eth1, ?_⟩,
    ⟨0, lone, 0, (5 : Int), ?_⟩,
    ⟨0, modPort 0 (fun t => { t with fifo := [.raw (transit1 none)] }) lineAUp, 0, TransitItem.raw (transit1 none), [], ?_⟩,
    ⟨nsT 30000, withQueue lone, 0, queued1, im1, ?_⟩,
    ⟨0, withQueue (modSched (fun d => { d with running := none }) lone), 0, queued1, ?_⟩,
    ⟨0, modPort 0 (fun t => { t with queues := [[queued1], [], [], []] }) (atBoundary lone), 0, ?_⟩,
    ⟨up, ?_⟩,
    ⟨fabNode consCtx, true, flow1 3, 0, consCtx, ?_⟩,
    ⟨fabNode consCtx, flow1 4, 0, consCtx, ?_⟩,
    ⟨fabNode { consCtx with macsec := true }, flow1 4, 0, { consCtx with macsec := true }, ?_⟩,
    ⟨fabNode { consCtx with len := 3 }, true, flow1 3, 0, { consCtx with len := 3 }, ?_⟩,
    ⟨up, (.good : FrameEnd), ?_⟩,
    ⟨lone, 0, ?_⟩,
    ⟨atBoundary lone, 0, ?_⟩,
    ⟨modSched (fun d => { d with running := none }) lone, 0, flow1 4, ?_⟩⟩
  all_goals (try simp only [sound_iff, mem_all])
  all_goals decide +kernel

/-- What `Obligations.SessionFramesComplete` supposes can be met, clause by clause. -/
theorem test_met_sessionFramesComplete :
    (∃ (s : State) (p : Fin 4), (portUp s p = false ∨ isBoundary s p = true)) ∧
    (∃ (dt : Nat) (s : State) (p : Fin 4), portUp s p = true ∧ isBoundary s p = false ∧ straysNow p (begin_ dt s) = true) ∧
    (∃ (dt : Nat) (s : State) (p : Fin 4) (f : SessionFrame), OwnTraffic p dt s ∧ forFabricNode f.dst s = true) ∧
    (∃ (dt : Nat) (s : State) (p : _) (f : SessionFrame), (∀ q : Fin 4, p = some q → OwnTraffic q dt s ∧ forFabricNode f.dst s =
      false) ∧ f.kind = 1 ∧ (∀ x ∈ s.flow.sessions, isSession f.sid f.openerUid x = false) ∧ s.flow.sessions.length < 32) ∧
    (∃ (dt : Nat) (s : State) (p : _) (f : SessionFrame), (∀ q : Fin 4, p = some q → OwnTraffic q dt s ∧ forFabricNode f.dst s =
      false) ∧ f.kind = 1 ∧ (∀ x ∈ s.flow.sessions, isSession f.sid f.openerUid x = false) ∧ 32 ≤ s.flow.sessions.length) ∧
    (∃ (dt : Nat) (s : State) (p : _) (f : SessionFrame) (x : Session), (∀ q : Fin 4, p = some q → OwnTraffic q dt s ∧
      forFabricNode f.dst s = false) ∧ f.kind = 2 ∧ s.flow.sessions.find? (isSession f.sid f.openerUid) = some x ∧ x.rxq.length <
      4 ∧ x.inMsg = none ∧ f.seg = 0 ∧ f.payload.length < f.msgLen.toNat) ∧
    (∃ (dt : Nat) (s : State) (p : _) (f : SessionFrame) (x : Session), (∀ q : Fin 4, p = some q → OwnTraffic q dt s ∧
      forFabricNode f.dst s = false) ∧ f.kind = 2 ∧ s.flow.sessions.find? (isSession f.sid f.openerUid) = some x ∧ x.rxq.length <
      4 ∧ x.inMsg = none ∧ f.seg = 0 ∧ f.msgLen.toNat ≤ f.payload.length) ∧
    (∃ (dt : Nat) (s : State) (p : _) (f : SessionFrame) (x : Session) (m : Message), (∀ q : Fin 4, p = some q → OwnTraffic q dt s
      ∧ forFabricNode f.dst s = false) ∧ f.kind = 3 ∧ s.flow.sessions.find? (isSession f.sid f.openerUid) = some x ∧ x.out = [m] ∧
      m.number = f.msg ∧ m.acked ≤ f.msgLen.toNat ∧ f.msgLen.toNat < m.sent ∧ segCount m ≤ f.msgLen.toNat + 1) ∧
    (∃ (dt : Nat) (s : State) (p : _) (f : SessionFrame) (x : Session), (∀ q : Fin 4, p = some q → OwnTraffic q dt s ∧
      forFabricNode f.dst s = false) ∧ f.kind = 4 ∧ s.flow.sessions.find? (isSession f.sid f.openerUid) = some x) ∧
    (∃ (dt : Nat) (s : State) (sid : _) (o : _) (x : Session) (m : Message) (ms : List Message), s.flow.sessions.find? (isSession
      sid o) = some x ∧ x.out = m :: ms ∧ m.acked < m.sent ∧ (∀ n ∈ m.resends, n < 8) ∧ m.sentClk + 2 * macroT s ≤ s.clk + dt) ∧
    (∃ (dt : Nat) (s : State) (sid : _) (o : _) (x : Session) (m : Message) (ms : List Message), s.flow.sessions.find? (isSession
      sid o) = some x ∧ x.out = m :: ms ∧ m.acked < m.sent ∧ (∃ n ∈ m.resends, 8 ≤ n) ∧ m.sentClk + 2 * macroT s ≤ s.clk + dt) ∧
    (∃ (dt : Nat) (s : State) (sid : _) (o : _) (x : Session) (m : Message) (ms : List Message), s.flow.sessions.find? (isSession
      sid o) = some x ∧ x.out = m :: ms ∧ (m.sent ≤ m.acked ∨ s.clk + dt < m.sentClk + 2 * macroT s)) := by
  refine ⟨
    ⟨atBoundary lone, 0, ?_⟩,
    ⟨0, slotTime, 0, ?_⟩,
    ⟨0, lone, 0, ({ sframe 1 with dst := 0x012 } : SessionFrame), ?_⟩,
    ⟨0, portIn 0 .up .ndoelle, some (0 : Fin 4), sframe 1, ?_⟩,
    ⟨0, withSes (List.replicate 32 { ses [] with sid := 4 }), some (0 : Fin 4), sframe 1, ?_⟩,
    ⟨0, withSes [ses []], some (0 : Fin 4), ({ sframe 2 with msgLen := 3 } : SessionFrame), ses [], ?_⟩,
    ⟨0, withSes [ses []], some (0 : Fin 4), sframe 2, ses [], ?_⟩,
    ⟨0, withSes [ses2 0], some (0 : Fin 4), sframe 3, ses2 0, msg2 0, ?_⟩,
    ⟨0, withSes [ses []], some (0 : Fin 4), sframe 4, ses [], ?_⟩,
    ⟨2 * macroT up, withSes [ses2 7], 3, upSys.uid, ses2 7, msg2 7, ([] : List Message), ?_⟩,
    ⟨2 * macroT up, withSes [ses2 8], 3, upSys.uid, ses2 8, msg2 8, ([] : List Message), ?_⟩,
    ⟨2 * macroT up - 1, withSes [ses2 8], 3, upSys.uid, ses2 8, msg2 8, ([] : List Message), ?_⟩⟩
  all_goals (try simp only [all_some, ownTraffic_iff, mem_all])
  all_goals decide +kernel

/-- What `Obligations.ClockCommandsComplete` supposes can be met, clause by clause. -/
theorem test_met_clockCommandsComplete :
    (∃ (s : State), s.time.tcxo = true ∧ joined s = false ∧ inProvLead s = false) ∧
    (∃ (s : State), s.time.tcxo = true ∧ (joined s = true ∨ inProvLead s = true)) ∧
    (∃ (s : State), s.time.tcxo = false) ∧
    (∃ (s : State) (p : Fin 16) (m : PtpSync) (d : _), ptpSlave 0 p m.domain s = true ∧ ptpSlave 1 p m.domain s = false ∧
      m.twoStep = false ∧ s.time.links.getD p none = some d ∧ (ptpOf s 0).primed = false ∧ (ptpOf s 0).locked = false ∧ 0 <
      s.time.ptp.length) ∧
    (∃ (s : State) (p : Fin 16) (m : PtpSync) (d : _), ptpSlave 0 p m.domain s = true ∧ ptpSlave 1 p m.domain s = false ∧
      m.twoStep = false ∧ s.time.links.getD p none = some d ∧ (ptpOf s 0).primed = true ∧ (ptpOf s 0).locked = false ∧ (ptpOf s
      0).good = 15 ∧ (m.origin + m.corr + d - swPinRx p m.raw s - (ptpOf s 0).offset).natAbs ≤ nsT 100 ∧ 0 < s.time.ptp.length) ∧
    (∃ (s : State) (p : Fin 16) (m : PtpSync), ptpSlave 0 p m.domain s = true ∧ ptpSlave 1 p m.domain s = false ∧ m.twoStep =
      true) ∧
    (∃ (s : State) (p : Fin 16) (dom : BitVec 7) (q : BitVec 16) (pin : _) (d : _), ptpSlave 0 p dom s = true ∧ ptpSlave 1 p dom s
      = false ∧ (ptpOf s 0).waiting = some (p.val, q, pin) ∧ s.time.links.getD p none = some d ∧ (ptpOf s 0).primed = false ∧
      (ptpOf s 0).locked = false ∧ 0 < s.time.ptp.length) ∧
    (∃ (s : State) (p : Fin 16), ptpPort p s = true) ∧
    (∃ (s : State) (p : Fin 16), ptpPort p s = true) ∧
    (∃ (s : State) (p : Fin 16) (m : PtpSync), ptpSlave 0 p m.domain s = false ∧ ptpSlave 1 p m.domain s = false) ∧
    (∃ (s : State) (p : Fin 16) (a : PtpAnnounce), ptpOn (ptpOf s 0) a.domain p s = true ∧ (ptpOf s 0).role = 2 ∧ a.gmId ≠
      s.sys.uid ∧ (ptpOf s 0).state = 1 ∧ ptpOn (ptpOf s 1) a.domain p s = false ∧ 0 < s.time.ptp.length) ∧
    (∃ (s : State) (p : Fin 16) (a : PtpAnnounce), ptpOn (ptpOf s 0) a.domain p s = true ∧ (ptpOf s 0).role = 2 ∧ a.gmId ≠
      s.sys.uid ∧ (ptpOf s 0).state = 3 ∧ a.gmId ≠ (ptpOf s 0).gm.gmId ∧ bmcaKey (ptpOf s 0).gm ≤ bmcaKey a ∧ ptpOn (ptpOf s 1)
      a.domain p s = false) ∧
    (∃ (s : State) (p : Fin 16) (a : PtpAnnounce), ptpOn (ptpOf s 0) a.domain p s = true ∧ (ptpOf s 0).role = 1 ∧ a.gmId ≠
      s.sys.uid ∧ (ptpOf s 0).state = 3 ∧ a.gmId = (ptpOf s 0).gm.gmId ∧ ptpPortRole (ptpOf s 0) p = 2 ∧ bmcaKey (ownAnnounce
      (ptpOf s 0) s) < bmcaKey a ∧ ptpOn (ptpOf s 1) a.domain p s = false ∧ 0 < s.time.ptp.length) ∧
    (∃ (s : State) (p : Fin 16) (dom : BitVec 7), ptpOn (ptpOf s 0) dom p s = true ∧ ptpOn (ptpOf s 1) dom p s = false) ∧
    (∃ (dt : Nat) (s : State) (d : Fin 2) (n : _), (ptpOf s d).state = 4 ∧ (ptpOf s d).role ≠ 0 ∧ ptpSendPorts (ptpOf s d) .sync
      (begin_ dt s) = [n] ∧ d.val < s.time.ptp.length ∧ s.sys.extest = false) ∧
    (∃ (dt : Nat) (s : State) (d : Fin 2) (n : _) (o : _) (c : _) (pin : _), (ptpOf s d).state = 3 ∧ (ptpOf s d).role ≠ 0 ∧
      ptpSendPorts (ptpOf s d) .sync (begin_ dt s) = [n] ∧ (ptpOf s d).last = some (o, c, pin) ∧ d.val < s.time.ptp.length ∧
      s.sys.extest = false) ∧
    (∃ (s : State) (d : Fin 2), (ptpOf s d).state = 4 ∧ (ptpOf s d).role ≠ 0 ∧ ptpSendPorts (ptpOf s d) .announce s ≠ []) ∧
    (∃ (s : State) (d : Fin 2), (ptpOf s d).state = 3 ∧ (ptpOf s d).role ≠ 0 ∧ ptpSendPorts (ptpOf s d) .announce s ≠ []) ∧
    (∃ (s : State) (d : Fin 2), (ptpOf s d).role ≠ 0 ∧ ptpSendPorts (ptpOf s d) .pdelay s ≠ []) ∧
    (∃ (dt : Nat) (s : State) (d : Fin 2) (k : _), (ptpOf s d).role = 0 ∨ ptpSendPorts (ptpOf s d) k (begin_ dt s) = []) ∧
    (∃ (s : State) (d : Fin 2), (ptpOf s d).role = 2 ∧ (ptpOf s d).state = 3 ∧ (ptpOf s d).locked = true ∧ d.val <
      s.time.ptp.length) ∧
    (∃ (s : State) (d : Fin 2), (ptpOf s d).role = 2 ∧ (ptpOf s d).state = 2 ∧ (ptpOf s d).locked = false ∧ d.val <
      s.time.ptp.length) ∧
    (∃ (s : State) (d : Fin 2), (ptpOf s d).role = 1 ∧ (ptpOf s d).state = 3 ∧ d.val < s.time.ptp.length) ∧
    (∃ (dt : Nat) (s : State), s.time.returning = true ∧ (ptpOf s 0).locked = true ∧ (ptpOf s 0).lockClk + secT 10 ≤ s.clk + dt ∧
      suspectHold s = false) := by
  refine ⟨
    ⟨up, ?_⟩,
    ⟨lone, ?_⟩,
    ⟨modTime (fun t => { t with tcxo := false }) up, ?_⟩,
    ⟨onPtp slave, 0, sync1, 0, ?_⟩,
    ⟨onPtp (fun i => { slave i with good := 15, state := 2, primed := true }), 0,
      ({ sync1 with origin := swPinRx 0 0 (onPtp slave) + nsT 100 } : PtpSync), 0, ?_⟩,
    ⟨onPtp slave, 0, ({ sync1 with twoStep := true } : PtpSync), ?_⟩,
    ⟨onPtp (fun i => { slave i with waiting := some (0, 9, 3) }), 0, (0 : BitVec 7), (9 : BitVec 16), 3, 0, ?_⟩,
    ⟨onPtp slave, 0, ?_⟩,
    ⟨onPtp slave, 0, ?_⟩,
    ⟨up, 0, sync1, ?_⟩,
    ⟨onPtp slave, 0, announce1, ?_⟩,
    ⟨onPtp (fun i => { slave i with state := 3 }), 0, announce1, ?_⟩,
    ⟨onPtp (fun i => { slave i with role := 1, state := 3, gm := announce1 }), 0, ({ announce1 with priority1 := 255 } :
      PtpAnnounce), ?_⟩,
    ⟨onPtp slave, 0, (0 : BitVec 7), ?_⟩,
    ⟨0, onPtp (fun i => { i with role := 1, state := 4, ports := 1, portRoles := 1 }), 0, 0, ?_⟩,
    ⟨0, onPtp (fun i => { i with role := 1, state := 3, ports := 1, portRoles := 1, last := some (5, 6, 7) }), 0, 0, 5, 6, 7, ?_⟩,
    ⟨onPtp (fun i => { i with role := 1, state := 4, ports := 1, portRoles := 1 }), 0, ?_⟩,
    ⟨onPtp (fun i => { i with role := 1, state := 3, ports := 1, portRoles := 1, last := some (5, 6, 7) }), 0, ?_⟩,
    ⟨onPtp slave, 0, ?_⟩,
    ⟨0, up, 1, PtpKind.sync, ?_⟩,
    ⟨onPtp (fun i => { slave i with state := 3, locked := true }), 0, ?_⟩,
    ⟨onPtp (fun i => { slave i with state := 2 }), 0, ?_⟩,
    ⟨onPtp (fun i => { slave i with role := 1, state := 3 }), 0, ?_⟩,
    ⟨secT 10, modTime (fun t => { t with returning := true, selected := 1 }) (onPtp (fun i =>
      { slave i with locked := true, state := 3 })), ?_⟩⟩
  all_goals decide +kernel

/-- What `Obligations.TimedIoCommandsComplete` supposes can be met, clause by clause. -/
theorem test_met_timedIoCommandsComplete :
    (∃ (n : Fin 6) (s : State) (at_ : _), Sound s ∧ (tioOf s n).armed = true ∧ (tioOf s n).armMode = 1 ∧ at_ = (tioOf s
      n).armStart ∧ (tioOf s n).driven = none ∧ tioMayDrive (tioOf s n) s = true ∧ s.sys.extest = false) ∧
    (∃ (n : Fin 6) (s : State) (at_ : _), Sound s ∧ (tioOf s n).armed = true ∧ (tioOf s n).armMode = 1 ∧ at_ = (tioOf s
      n).armStart ∧ (tioOf s n).driven = none ∧ tioMayDrive (tioOf s n) s = false) ∧
    (∃ (n : Fin 6) (s : State) (at_ : _), Sound s ∧ (tioOf s n).armed = true ∧ (tioOf s n).armMode = 1 ∧ at_ = (tioOf s
      n).armStart + (tioOf s n).armWidth ∧ (∀ d, (tioOf s n).driven = some d → d < at_) ∧ (tioOf s n).active = true ∧ s.sys.extest
      = false) ∧
    (∃ (n : Fin 6) (s : State) (at_ : _) (r : Bool) (w : _), Sound s ∧ (tioOf s n).armed = true ∧ (tioOf s n).armMode = 3 ∧
      tioSelects (tioOf s n) r = true ∧ nsT 20 ≤ w ∧ tioSpaced (tioOf s n) at_ = true ∧ (tioOf s n).fifo.length < 16) ∧
    (∃ (n : Fin 6) (s : State) (at_ : _) (r : Bool) (w : _), Sound s ∧ (tioOf s n).armed = true ∧ (tioOf s n).armMode = 3 ∧
      tioSelects (tioOf s n) r = true ∧ nsT 20 ≤ w ∧ tioSpaced (tioOf s n) at_ = true ∧ 16 ≤ (tioOf s n).fifo.length) ∧
    (∃ (dt : Nat) (n : Fin 6) (s : State) (src : _), Sound s ∧ Accesses src (tioAddr n 0) s ∧ tioStart (tioOf s n) < (begin_ dt
      s).now + nsT 200) ∧
    (∃ (dt : Nat) (n : Fin 6) (s : State) (src : _), Sound s ∧ Accesses src (tioAddr n 0) s ∧ (begin_ dt s).now + nsT 200 ≤
      tioStart (tioOf s n)) ∧
    (∃ (n : Fin 6) (s : State) (src : _) (v : BitVec 32), Sound s ∧ Accesses src (tioAddr n 0) s ∧ v.getLsbD 9 = true ∧ v.getLsbD
      8 = false ∧ (tioOf s n).active = false) ∧
    (∃ (n : Fin 6) (s : State) (src : _) (v : BitVec 32), Sound s ∧ Accesses src (tioAddr n 0) s ∧ v.getLsbD 9 = true ∧ v.getLsbD
      8 = false ∧ (tioOf s n).active = true ∧ s.sys.extest = false) ∧
    (∃ (n : Fin 6) (s : State) (src : _), Sound s ∧ Accesses src (tioAddr n 0x30) s) := by
  refine ⟨
    ⟨5, onTio (fun t => { t with armed := true, armMode := 1 }), 0, ?_⟩,
    ⟨5, onTio (fun t => { t with armed := true, armMode := 1, armGate := true }), 0, ?_⟩,
    ⟨5, onTio (fun t => { t with armed := true, armMode := 1, armWidth := 9, active := true, driven := some 0 }), 9, ?_⟩,
    ⟨5, onTio (fun t => { t with armed := true, armMode := 3, lastEdge := some 0 }), nsT 100, true, nsT 20, ?_⟩,
    ⟨5, onTio (fun t => { t with armed := true, armMode := 3, fifo := List.replicate 16 cap1 }), nsT 100, true, nsT 20, ?_⟩,
    ⟨0, 5, up, Iface.pcie, ?_⟩,
    ⟨0, 5, onTio (fun t => { t with startNs := 200 }), Iface.pcie, ?_⟩,
    ⟨5, up, Iface.lb, (0x200 : BitVec 32), ?_⟩,
    ⟨5, onTio (fun t => { t with active := true }), Iface.lb, (0x200 : BitVec 32), ?_⟩,
    ⟨5, onTio (fun t => { t with fifo := [cap1] }), Iface.lb, ?_⟩⟩
  all_goals (try simp only [accesses_iff, sound_iff, all_some])
  all_goals decide +kernel

/-- What `Obligations.TwinEventCommandsComplete` supposes can be met, clause by clause. -/
theorem test_met_twinEventCommandsComplete :
    (∃ (s : State) (h : Heartbeat), s.twin.configured = true ∧ joined s = true ∧ h.uid ≠ s.sys.uid ∧ h.vid = s.ina.vid ∧
      s.twin.partner = none ∧ s.twin.recAgain = false) ∧
    (∃ (s : State) (h : Heartbeat), s.twin.configured = true ∧ joined s = true ∧ h.uid ≠ s.sys.uid ∧ h.vid = s.ina.vid ∧
      s.twin.partner = some h.uid ∧ s.twin.role = .active ∧ claimLow s.twin.own s.twin.preferred s.ina.addr < claimLow h.ownGen
      h.preferred h.addr) ∧
    (∃ (s : State) (p : Fin 4), (portUp s p = false ∨ isBoundary s p = true)) ∧
    (∃ (s : State) (p : Fin 4) (h : Heartbeat), portUp s p = true ∧ isBoundary s p = false ∧ s.twin.configured = true ∧ joined s =
      true ∧ h.uid ≠ s.sys.uid ∧ h.vid = s.ina.vid ∧ s.twin.partner = some h.uid ∧ s.sched.running = none ∧ s.sched.noPoll = true)
      ∧
    (∃ (s : State) (h : Heartbeat) (u : BitVec 64), s.twin.partner = some u ∧ u ≠ h.uid) ∧
    (∃ (dt : Nat) (s : State), takeoverDue (runTo (nextInstant s) s) = true ∧ nextInstant s ≤ (begin_ dt s).now) ∧
    (∃ (dt : Nat) (s : State), (takeoverDue (runTo (nextInstant s) s) = false ∨ (begin_ dt s).now < nextInstant s)) ∧
    (∃ (dt : Nat) (s : State), partnerOutDue (runTo (nextInstant s) s) = true ∧ nextInstant s ≤ (begin_ dt s).now) ∧
    (∃ (dt : Nat) (s : State), (partnerOutDue (runTo (nextInstant s) s) = false ∨ (begin_ dt s).now < nextInstant s)) ∧
    (∃ (dt : Nat) (s : State), stepDownDue (runTo (nextInstant s) s) = true ∧ nextInstant s ≤ (begin_ dt s).now) ∧
    (∃ (dt : Nat) (s : State), (stepDownDue (runTo (nextInstant s) s) = false ∨ (begin_ dt s).now < nextInstant s)) ∧
    (∃ (dt : Nat) (s : State), activateDue (runTo (nextInstant s) s) = true ∧ nextInstant s ≤ (begin_ dt s).now) ∧
    (∃ (dt : Nat) (s : State), (activateDue (runTo (nextInstant s) s) = false ∨ (begin_ dt s).now < nextInstant s)) ∧
    (∃ (dt : Nat) (s : State), abandonDue (runTo (nextInstant s) s) = true ∧ nextInstant s ≤ (begin_ dt s).now) ∧
    (∃ (dt : Nat) (s : State), (abandonDue (runTo (nextInstant s) s) = false ∨ (begin_ dt s).now < nextInstant s)) ∧
    (∃ (s : State), s.twin.role = .active ∧ s.twin.foreignStop = false) ∧
    (∃ (s : State) (r : Bool) (c : Byte), (s.twin.role = .standby ∨ s.twin.role = .returning) ∧ takeoverCause r s = some c) ∧
    (∃ (s : State), s.twin.role = .active ∧ (s.twin.foreignStop = true ∨ s.twin.higher = true)) ∧
    (∃ (s : State), activateDue s = true) ∧
    (∃ (s : State) (g : RackGen), abandonDue s = true ∧ s.twin.regionOut = some g) ∧
    (∃ (s : State) (f : RackFrame), s.twin.configured = true ∧ joined s = true ∧ s.twin.partner = some f.uid ∧ s.twin.role =
      .standby ∧ f.stream = 1 ∧ f.commit = false ∧ s.twin.inFlow = none) ∧
    (∃ (s : State) (f : RackFrame) (g : RackGen), s.twin.configured = true ∧ joined s = true ∧ s.twin.partner = some f.uid ∧
      s.twin.role = .standby ∧ f.stream = 1 ∧ f.commit = true ∧ s.twin.inFlow = some g ∧ g.rgen = f.rgen ∧ f.totItems.toNat =
      g.items.length ∧ f.totBytes.toNat = itemsSize g.items ∧ f.crc = itemsCrc g.items) ∧
    (∃ (s : State) (f : RackFrame) (g : RackGen), s.twin.configured = true ∧ joined s = true ∧ s.twin.partner = some f.uid ∧
      s.twin.role = .standby ∧ f.stream = 1 ∧ f.commit = true ∧ s.twin.inFlow = some g ∧ g.rgen = f.rgen ∧ f.crc ≠ itemsCrc
      g.items) ∧
    (∃ (s : State) (f : RackFrame), s.twin.partner ≠ some f.uid) ∧
    (∃ (dt : Nat) (s : State) (g : RackGen) (room : _), s.twin.role = .active ∧ lastInstant (begin_ dt s) + usT 6 ≤ (begin_ dt
      s).now ∧ (begin_ dt s).now + usT 10 ≤ nextInstant (begin_ dt s) ∧ s.twin.flowOut = some g ∧ g.items.length ≤ g.sent ∧ 28 ≤
      room) ∧
    (∃ (s : State), s.twin.role = .active ∧ s.twin.flowOut = none ∧ s.twin.regionOut = none ∧ s.twin.fullOut = none ∧
      s.twin.waiting = []) ∧
    (∃ (s : State), s.twin.role ≠ .active) ∧
    (∃ (s : State) (g : RackGen), s.twin.staging = some g) ∧
    (∃ (s : State), s.twin.staging = none) ∧
    (∃ (s : State) (p : _) (a : _), s.twin.regionOn = true ∧ p < s.twin.regionPages ∧ a < 4096 ∧ waits p s.twin = false) ∧
    (∃ (s : State) (p : _) (a : _), s.twin.regionOn = true ∧ p < s.twin.regionPages ∧ a < 4096 ∧ waits p s.twin = true) ∧
    (∃ (s : State) (p : _) (a : _), (s.twin.regionOn = false ∨ s.twin.regionPages ≤ p ∨ 4096 ≤ a)) := by
  refine ⟨
    ⟨modTwin (fun t => { t with configured := true }) lone, hb2, ?_⟩,
    ⟨activeTwin, ({ hb2 with ownGen := 2 } : Heartbeat), ?_⟩,
    ⟨atBoundary lone, 0, ?_⟩,
    ⟨modSched (fun d => { d with running := none, noPoll := true }) activeTwin, 0, hb2, ?_⟩,
    ⟨activeTwin, ({ hb2 with uid := 98 } : Heartbeat), (99 : BitVec 64), ?_⟩,
    ⟨macroT up, standbyTwin (fun t => { t with silent := 2 }), ?_⟩,
    ⟨macroT up, standbyTwin id, ?_⟩,
    ⟨macroT up, standbyTwin (fun t => { t with hbOut := true }), ?_⟩,
    ⟨0, standbyTwin (fun t => { t with hbOut := true }), ?_⟩,
    ⟨macroT up, modTwin (fun t => { t with higher := true }) activeTwin, ?_⟩,
    ⟨macroT up, activeTwin, ?_⟩,
    ⟨macroT up, modTwin (fun t => { t with configured := true, joinedBefore := true, joinedCycles := 7 }) lone, ?_⟩,
    ⟨macroT up, activeTwin, ?_⟩,
    ⟨macroT up, modTwin (fun t => { t with regionOut := some { gen1 [] with committed := true, cyclesSince := 2 } }) activeTwin,
      ?_⟩,
    ⟨macroT up, activeTwin, ?_⟩,
    ⟨activeTwin, ?_⟩,
    ⟨standbyTwin (fun t => { t with silent := 3 }), true, (2 : Byte), ?_⟩,
    ⟨modTwin (fun t => { t with higher := true }) activeTwin, ?_⟩,
    ⟨modTwin (fun t => { t with configured := true, joinedBefore := true, joinedCycles := 7 }) lone, ?_⟩,
    ⟨modTwin (fun t => { t with regionOut := some { gen1 [] with committed := true, cyclesSince := 2 } }) activeTwin,
      ({ gen1 [] with committed := true, cyclesSince := 2 } : RackGen), ?_⟩,
    ⟨standbyTwin id, rack1 false [item1], ?_⟩,
    ⟨standbyTwin (fun t => { t with inFlow := some (gen1 [item1]) }), rack1 true [item1], gen1 [item1], ?_⟩,
    ⟨standbyTwin (fun t => { t with inFlow := some (gen1 [item1]) }), ({ rack1 true [item1] with crc := itemsCrc [] } :
      RackFrame), gen1 [item1], ?_⟩,
    ⟨lone, rack1 false [item1], ?_⟩,
    ⟨usT 6, modTwin (fun t => { t with flowOut := some (gen1 []) }) activeTwin, gen1 [], 28, ?_⟩,
    ⟨activeTwin, ?_⟩,
    ⟨lone, ?_⟩,
    ⟨standbyTwin (fun t => { t with staging := some (gen1 []) }), gen1 [], ?_⟩,
    ⟨lone, ?_⟩,
    ⟨regionTwin id, 4095, 4095, ?_⟩,
    ⟨regionTwin (fun t => { t with regionOut := some (gen1 [.page 4095 []]), pool := 256 }), 4095, 4095, ?_⟩,
    ⟨up, 4095, 4095, ?_⟩⟩
  all_goals decide +kernel

/-- What `Obligations.PairEventCommandsComplete` supposes can be met, clause by clause. -/
theorem test_met_pairEventCommandsComplete :
    (∃ (l : Fin 4) (s : State), Sound s ∧ (pairOf s l).st ≠ .locked ∧ pairSplit (pairOf s l) = false) ∧
    (∃ (l : Fin 4) (s : State), Sound s ∧ pairSplit (pairOf s l) = true) ∧
    (∃ (dt : Nat) (l : Fin 4) (s : State) (c : PairCycle), Sound s ∧ (pairOf s l).st = .locked ∧ verdictDue (pairOf s l).cores
      (pairOf (pairCycle l c (begin_ dt s)) l).cores = none) ∧
    (∃ (dt : Nat) (l : Fin 4) (s : State) (c : PairCycle) (w : _) (ok : Bool), Sound s ∧ (pairOf s l).st = .locked ∧ verdictDue
      (pairOf s l).cores (pairOf (pairCycle l c (begin_ dt s)) l).cores = some (w, ok)) ∧
    (∃ (s : State), Sound s) ∧
    (∃ (s : State) (k : Cores) (k' : Cores) (a : _), Sound s ∧ k.cyc = 255 ∧ k'.cyc = 0 ∧ k.doneLead = some a) ∧
    (∃ (l : Fin 4) (s : State), Sound s ∧ (pairOf s l).held = []) ∧
    (∃ (l : Fin 4) (s : State) (w : BitVec 64) (h : HeldAccess), Sound s ∧ (pairOf s l).held = [h] ∧ h.window.toNat ≤ w.toNat) ∧
    (∃ (l : Fin 4) (s : State) (w : BitVec 64) (h : HeldAccess), Sound s ∧ (pairOf s l).held = [h] ∧ w.toNat < h.window.toNat) ∧
    (∃ (s : State), Sound s) ∧
    (∃ (l : Fin 4) (s : State), Sound s ∧ (pairOf s l).held.length = 64) ∧
    (∃ (l : Fin 4) (s : State), Sound s ∧ (pairOf s l).st = .locked) ∧
    (∃ (l : Fin 4) (s : State), Sound s ∧ (pairOf s l).st = .locked) ∧
    (∃ (l : Fin 4) (s : State), Sound s ∧ (pairOf s l).st = .split ∧ (pairOf s l).pendHand = some .rejoin) ∧
    (∃ (l : Fin 4) (s : State), Sound s ∧ (pairOf s l).st = .split ∧ (pairOf s l).pendHand ≠ some .rejoin) ∧
    (∃ (dt : Nat) (l : Fin 4) (s : State), Sound s ∧ restartsNow l.val (runTo (nextInstant s) s) = true ∧ nextInstant s ≤ (begin_
      dt s).now) ∧
    (∃ (dt : Nat) (l : Fin 4) (s : State), Sound s ∧ (restartsNow l.val (runTo (nextInstant s) s) = false ∨ (begin_ dt s).now <
      nextInstant s)) ∧
    (∃ (l : Fin 4) (s : State) (x : Fin 5), Sound s ∧ restartsNow l.val s = true ∧ s.lsk.spare = some x ∧ s.lsk.spareReady = true)
      ∧
    (∃ (l : Fin 4) (s : State) (x : Fin 5), Sound s ∧ restartsNow l.val s = true ∧ s.lsk.spareReady = false ∧ (pairOf s l).phys =
      some x ∧ (pairOf s l).lastCause ≠ 2) ∧
    (∃ (l : Fin 4) (s : State) (c : Fin 2) (a : _), Sound s ∧ (pairOf s l).st = .locked ∧ pairMay (pairOf s l) c.val a = false) ∧
    (∃ (l : Fin 4) (s : State) (c : Fin 2) (a : _), Sound s ∧ (pairOf s l).st = .split ∧ pairMay (pairOf s l) c.val a = false) ∧
    (∃ (dt : Nat) (l : Fin 4) (s : State), Sound s ∧ (pairOf s l).st = .locked ∧ (pairOf s l).pendHand = some .split ∨ (pairOf s
      l).pendHand = some .subst ∧ (pairOf s l).hok.getD 0 false = true ∧ (begin_ dt s).now + usT 150 ≤ nextInstant (begin_ dt s))
      ∧
    (∃ (l : Fin 4) (s : State), Sound s ∧ (pairOf s l).st = .split) ∧
    (∃ (dt : Nat) (l : Fin 4) (s : State), Sound s ∧ splitsNow (pairOf (runTo (nextInstant s) s) l) = true ∧ nextInstant s ≤
      (begin_ dt s).now) ∧
    (∃ (dt : Nat) (l : Fin 4) (s : State), Sound s ∧ (splitsNow (pairOf (runTo (nextInstant s) s) l) = false ∨ (begin_ dt s).now <
      nextInstant s)) ∧
    (∃ (l : Fin 4) (s : State), Sound s ∧ (pairOf s l).st = .locked ∧ (pairOf s l).debugSplitAt = false ∧ (pairOf s l).pendHand =
      some .split ∧ isDrained (pairOf s l) = true) ∧
    (∃ (l : Fin 4) (s : State), Sound s ∧ (pairOf s l).st = .locked ∧ (pairOf s l).debugSplitAt = true ∧ isDrained (pairOf s l) =
      true) ∧
    (∃ (l : Fin 4) (s : State), Sound s ∧ (pairOf s l).st = .locked ∧ (pairOf s l).pendHand = some .subst ∧ isDrained (pairOf s l)
      = true ∧ archState (pairOf s l).cores.lead = archState (pairOf s l).cores.trail ∧ s.lsk.spareReady = true) ∧
    (∃ (l : Fin 4) (s : State), Sound s ∧ (pairOf s l).st = .locked ∧ (pairOf s l).pendHand = some .subst ∧ isDrained (pairOf s l)
      = true ∧ archState (pairOf s l).cores.lead ≠ archState (pairOf s l).cores.trail) ∧
    (∃ (l : Fin 4) (s : State) (x : Fin 5), Sound s ∧ (pairOf s l).substTo = some x) ∧
    (∃ (dt : Nat) (l : Fin 4) (s : State), Sound s ∧ rejoinsNow (pairOf (runTo (nextInstant s) s) l) = true ∧ nextInstant s ≤
      (begin_ dt s).now) ∧
    (∃ (dt : Nat) (l : Fin 4) (s : State), Sound s ∧ (rejoinsNow (pairOf (runTo (nextInstant s) s) l) = false ∨ (begin_ dt s).now
      < nextInstant s)) ∧
    (∃ (l : Fin 4) (s : State), Sound s ∧ rejoinsNow (pairOf s l) = true) ∧
    (∃ (l : Fin 4) (s : State), Sound s ∧ ((pairOf s l).pendHand = some .split ∨ (pairOf s l).pendHand = some .subst) ∧ (pairOf s
      l).halted = false ∧ 1000 ≤ (pairOf s l).handCycles) ∧
    (∃ (l : Fin 4) (s : State), Sound s ∧ s.sys.debugScope.getLsbD 1 = true ∧ (pairOf s l).st = .locked ∧ (pairOf s
      l).debugSplitAt = false) ∧
    (∃ (l : Fin 4) (s : State), Sound s ∧ (pairOf s l).st = .locked ∧ (pairOf s l).halted = false ∧ (pairOf s l).dbg = false) ∧
    (∃ (l : Fin 4) (s : State) (c : Fin 2), Sound s ∧ (pairOf s l).st = .split ∧ (pairOf s l).halted = false ∧ (pairOf s
      l).stopped.getD c.val false = false) := by
  refine ⟨
    ⟨3, up, ?_⟩,
    ⟨3, onPair (fun p => { p with st := .split }), ?_⟩,
    ⟨0, 3, lockedPair 3, quiet, ?_⟩,
    ⟨0, 3, onPair (fun p => { p with cores := { p.cores with cyc := 255, win := 5, doneLead := some 1, doneTrail := some 1 } }),
      quiet, 4, true, ?_⟩,
    ⟨lockedPair 3, ?_⟩,
    ⟨up, ({ cores0 with cyc := 255, win := 5, doneLead := some 1, doneTrail := some 2 } : Cores), cores0, 1, ?_⟩,
    ⟨3, lockedPair 3, ?_⟩,
    ⟨3, onPair (fun p => { p with held := [held1 4] }), (4 : BitVec 64), held1 4, ?_⟩,
    ⟨3, onPair (fun p => { p with held := [held1 4] }), (3 : BitVec 64), held1 4, ?_⟩,
    ⟨lockedPair 3, ?_⟩,
    ⟨3, onPair (fun p => { p with held := List.replicate 64 (held1 1) }), ?_⟩,
    ⟨3, lockedPair 3, ?_⟩,
    ⟨3, lockedPair 3, ?_⟩,
    ⟨3, onPair (fun p => { p with st := .split, pendHand := some .rejoin }), ?_⟩,
    ⟨3, onPair (fun p => { p with st := .split }), ?_⟩,
    ⟨macroT up, 3, onPair (fun p => { p with st := .fenced, lastCause := 1, configured := false, onFence := 1 }), ?_⟩,
    ⟨0, 3, onPair (fun p => { p with st := .fenced, lastCause := 1, configured := false }), ?_⟩,
    ⟨3, modLsk (fun k => { k with spareReady := true }) (onPair (fun p =>
      { p with st := .fenced, lastCause := 1, configured := false, onFence := 1 })), (4 : Fin 5), ?_⟩,
    ⟨3, onPair (fun p => { p with st := .fenced, lastCause := 1, configured := false, onFence := 1 }), (3 : Fin 5), ?_⟩,
    ⟨3, lockedPair 3, 1, farAway, sound_iff.mpr (by decide +kernel), by decide +kernel, farAway_out 1 (by decide +kernel)⟩,
    ⟨3, onPair (fun p => { p with st := .split }), 1, farAway, sound_iff.mpr (by decide +kernel), by decide +kernel, farAway_out 1
      (by decide +kernel)⟩,
    ⟨0, 3, onPair (fun p => { p with pendHand := some .split, hok := [true, true] }), ?_⟩,
    ⟨3, onPair (fun p => { p with st := .split }), ?_⟩,
    ⟨macroT up, 3, onPair (fun p => { p with debugSplitAt := true, halted := true }), ?_⟩,
    ⟨0, 3, onPair (fun p => { p with debugSplitAt := true }), ?_⟩,
    ⟨3, onPair (fun p => { p with pendHand := some .split, halted := true }), ?_⟩,
    ⟨3, onPair (fun p => { p with debugSplitAt := true, halted := true }), ?_⟩,
    ⟨3, modLsk (fun k => { k with spareReady := true }) (onPair (fun p => { p with pendHand := some .subst, halted := true })),
      ?_⟩,
    ⟨3, onPair (fun p =>
      { p with pendHand := some .subst, halted := true, cores := { p.cores with lead := { p.cores.lead with pc := 4 } } }), ?_⟩,
    ⟨3, onPair (fun p => { p with substTo := some 4 }), (4 : Fin 5), ?_⟩,
    ⟨macroT up, 3, onPair (fun p =>
      { p with st := .split, pendHand := some .rejoin, rejoinRdy := [true, true], wfi := [true, true] }), ?_⟩,
    ⟨0, 3, onPair (fun p => { p with st := .split, pendHand := some .rejoin, rejoinRdy := [true, true] }), ?_⟩,
    ⟨3, onPair (fun p => { p with st := .split, pendHand := some .rejoin, rejoinRdy := [true, true], wfi := [true, true] }), ?_⟩,
    ⟨3, onPair (fun p => { p with pendHand := some .split, handCycles := 1000 }), ?_⟩,
    ⟨3, modSys (fun y => { y with debugScope := 2 }) (lockedPair 3), ?_⟩,
    ⟨3, lockedPair 3, ?_⟩,
    ⟨3, onPair (fun p => { p with st := .split }), (1 : Fin 2), ?_⟩⟩
  all_goals (try simp only [sound_iff])
  all_goals decide +kernel

/-- What `Obligations.CanBusCommandsComplete` supposes can be met, clause by clause. -/
theorem test_met_canBusCommandsComplete :
    (∃ (c : Fin 12) (s : State) (f : CanFrame) (i : _) (ft : CanFilter), Sound s ∧ canTakesPart (canOf s c) = true ∧ canModeAct
      (canOf s c) ≠ 3 ∧ canForeign (canOf s c) f = false ∧ (canOf s c).filters.find? (fun e => canMatches e.2 f) = some (i, ft) ∧
      ft.kind = 0 ∧ (canSlotGet (canOf s c) (.obj (Fin.ofNat 128 ft.index.toNat))).en = true ∧ (canSlotGet (canOf s c) (.obj
      (Fin.ofNat 128 ft.index.toNat))).tx = false) ∧
    (∃ (c : Fin 12) (s : State), Sound s ∧ canTakesPart (canOf s c) = false) ∧
    (∃ (c : Fin 12) (s : State), Sound s ∧ canModeAct (canOf s c) ≠ 4 ∧ canModeAct (canOf s c) ≠ 5) ∧
    (∃ (c : Fin 12) (s : State) (i : Fin 128) (a : Bool) (b : Bool) (d : Bool), Sound s ∧ (canOf s c).tx = .slot (.obj i) a b d) ∧
    (∃ (c : Fin 12) (s : State) (b : Fin 8) (x : Bool) (y : Bool) (d : Bool), Sound s ∧ (canOf s c).tx = .slot (.hpb b) x y d) ∧
    (∃ (c : Fin 12) (s : State), Sound s ∧ (canOf s c).tx = .none) ∧
    (∃ (c : Fin 12) (s : State) (o : _) (d : Bool), Sound s ∧ (canOf s c).tx = .slot o false false d) ∧
    (∃ (c : Fin 12) (s : State) (o : _) (d : Bool), Sound s ∧ (canOf s c).tx = .slot o false true d) ∧
    (∃ (c : Fin 12) (s : State) (e : CanError), Sound s ∧ canTakesPart (canOf s c) = true ∧ e.protocolException = true ∧ canCtl
      (canOf s c) 6 = false) ∧
    (∃ (c : Fin 12) (s : State) (e : CanError), Sound s ∧ canTakesPart (canOf s c) = true ∧ e.protocolException = false ∧
      e.dataPhase = false ∧ e.transmitting = false ∧ (canOf s c).recc + canRecStep e ≤ 127) ∧
    (∃ (c : Fin 12) (s : State) (e : CanError) (o : _) (d : Bool), Sound s ∧ canTakesPart (canOf s c) = true ∧ e.protocolException
      = false ∧ e.dataPhase = true ∧ e.transmitting = true ∧ e.kind ≠ .ack ∧ (canOf s c).tx = .slot o false false d ∧ canModeAct
      (canOf s c) ≠ 3 ∧ (canOf s c).tec + canTecStep e ≤ 255) ∧
    (∃ (c : Fin 12) (s : State) (e : CanError), Sound s ∧ canTakesPart (canOf s c) = true ∧ e.protocolException = false ∧
      e.dataPhase = false ∧ e.transmitting = true ∧ (canOf s c).tx ≠ .none ∧ e.kind = .ack ∧ (canOf s c).est = .passive ∧
      e.dominantSeen = false) ∧
    (∃ (c : Fin 12) (s : State) (occ : Fin 129), Sound s ∧ (canOf s c).recovering = true ∧ canModeAct (canOf s c) ≠ 0 ∧ canModeAct
      (canOf s c) ≠ 6 ∧ occ.val < 128) ∧
    (∃ (c : Fin 12) (s : State) (occ : Fin 129), Sound s ∧ (canOf s c).recovering = true ∧ canModeAct (canOf s c) ≠ 0 ∧ canModeAct
      (canOf s c) ≠ 6 ∧ occ.val = 128) ∧
    (∃ (c : Fin 12) (s : State), Sound s ∧ (canOf s c).integrating = true ∧ canModeAct (canOf s c) ≠ 0 ∧ canModeAct (canOf s c) ≠
      6) ∧
    (∃ (c : Fin 12) (s : State), Sound s ∧ canModeAct (canOf s c) = 6 ∧ canCtl (canOf s c) 13 = true) ∧
    (∃ (c : Fin 12) (s : State), Sound s ∧ canModeAct (canOf s c) ≠ 6) := by
  refine ⟨
    ⟨11, onCan (fun ch => { ch with filters := [(31, filter1)], objs := [(127, { canObjZero with en := true })] }), canFrame1, 31,
      filter1, ?_⟩,
    ⟨11, up, ?_⟩,
    ⟨11, up, ?_⟩,
    ⟨11, onCan (fun ch => { ch with tx := .slot (.obj 127) true true true, pending := [req1 (.obj 127)] }), 127, true, true, true,
      ?_⟩,
    ⟨11, onCan (fun ch => { ch with tx := .slot (.hpb 7) true true true }), 7, true, true, true, ?_⟩,
    ⟨11, up, ?_⟩,
    ⟨11, onCan (fun ch => { ch with tx := .slot (.obj 127) false false true }), CanSlot.obj 127, true, ?_⟩,
    ⟨11, onCan (fun ch => { ch with tx := .slot (.obj 127) false true true, pending := [req1 (.obj 127)] }), CanSlot.obj 127,
      true, ?_⟩,
    ⟨11, onCan id, canErr1 false false true, ?_⟩,
    ⟨11, onCan (fun ch => { ch with recc := 126 }), canErr1 false false false, ?_⟩,
    ⟨11, onCan (fun ch => { ch with tec := 247, tx := .slot (.obj 127) false false true, pending := [req1 (.obj 127)] }), canErr1
      true true false, CanSlot.obj 127, true, ?_⟩,
    ⟨11, onCan (fun ch =>
      { ch with est := .passive, tec := 130, tx := .slot (.obj 127) false false true, pending := [req1 (.obj 127)] }),
      ({ canErr1 false true false with kind := .ack } : CanError), ?_⟩,
    ⟨11, onCan (fun ch => { ch with recovering := true, est := .busOff }), 127, ?_⟩,
    ⟨11, onCan (fun ch => { ch with recovering := true, est := .busOff }), 128, ?_⟩,
    ⟨11, onCan (fun ch => { ch with integrating := true }), ?_⟩,
    ⟨11, onCan (fun ch => { ch with modeAct := 6, ctrl := 0x2006 }), ?_⟩,
    ⟨11, onCan id, ?_⟩⟩
  all_goals (try simp only [sound_iff])
  all_goals decide +kernel

/-- What `Obligations.CanAccessCommandsComplete` supposes can be met, clause by clause. -/
theorem test_met_canAccessCommandsComplete :
    (∃ (c : Fin 12) (src : Iface) (s : State), Sound s ∧ Accesses src (canAddr c 0x000) s ∧ canModeAct (canOf s c) = 0 ∧
      canTimingOk (canOf s c) = true ∧ (canOf s c).ctrl = 0x10 ∧ (canOf s c).act.toNat < 2) ∧
    (∃ (c : Fin 12) (src : Iface) (s : State), Sound s ∧ Accesses src (canAddr c 0x000) s ∧ canModeAct (canOf s c) = 0 ∧ (canOf s
      c).ctrl = 0x10 ∧ canTimingOk (canOf s c) = false) ∧
    (∃ (c : Fin 12) (src : Iface) (s : State), Sound s ∧ Accesses src (canAddr c 0x000) s ∧ canModeAct (canOf s c) = 1 ∧ (canOf s
      c).ctrl = 0x11 ∧ canTakesPart (canOf s c) = true) ∧
    (∃ (c : Fin 12) (src : Iface) (s : State), Sound s ∧ Accesses src (canAddr c 0x000) s ∧ canModeAct (canOf s c) = 1 ∧ (canOf s
      c).ctrl = 0x11 ∧ (canOf s c).act.toNat < 2) ∧
    (∃ (c : Fin 12) (src : Iface) (s : State) (i : Fin 32), Sound s ∧ Accesses src (canAddr c 0x040) s ∧ (canSlotGet (canOf s c)
      (.obj (Fin.ofNat 128 i.val))).en = true ∧ (canSlotGet (canOf s c) (.obj (Fin.ofNat 128 i.val))).tx = true ∧ (canSlotGet
      (canOf s c) (.obj (Fin.ofNat 128 i.val))).fdf = false ∧ (canSlotGet (canOf s c) (.obj (Fin.ofNat 128 i.val))).claim = false
      ∧ canNamedExclusive (canOf s c) (.obj (Fin.ofNat 128 i.val)) = false ∧ canIsPending (canOf s c) (.obj (Fin.ofNat 128 i.val))
      = false ∧ (∀ r ∈ (canOf s c).pending, canGated (canSlotGet (canOf s c) r.slot) s = false)) ∧
    (∃ (c : Fin 12) (src : Iface) (s : State) (i : Fin 32), Sound s ∧ Accesses src (canAddr c 0x040) s ∧ (canSlotGet (canOf s c)
      (.obj (Fin.ofNat 128 i.val))).en = true ∧ (canSlotGet (canOf s c) (.obj (Fin.ofNat 128 i.val))).tx = true ∧ (canSlotGet
      (canOf s c) (.obj (Fin.ofNat 128 i.val))).fdf = false ∧ (canSlotGet (canOf s c) (.obj (Fin.ofNat 128 i.val))).claim = true ∧
      canGateOpen (canSlotGet (canOf s c) (.obj (Fin.ofNat 128 i.val))).svc.toNat s = false ∧ canNamedExclusive (canOf s c) (.obj
      (Fin.ofNat 128 i.val)) = false) ∧
    (∃ (c : Fin 12) (src : Iface) (s : State) (i : Fin 32), Sound s ∧ Accesses src (canAddr c 0x050) s ∧ (canOf s c).tx = .none ∧
      canIsPending (canOf s c) (.obj (Fin.ofNat 128 i.val)) = true) ∧
    (∃ (c : Fin 12) (src : Iface) (s : State) (b : Fin 8), Sound s ∧ Accesses src (canAddr c 0x070) s ∧ (canSlotGet (canOf s c)
      (.hpb b)).en = true ∧ (canSlotGet (canOf s c) (.hpb b)).tx = true ∧ (canSlotGet (canOf s c) (.hpb b)).fdf = false ∧
      (canSlotGet (canOf s c) (.hpb b)).claim = false ∧ canNamedExclusive (canOf s c) (.hpb b) = false ∧ canIsPending (canOf s c)
      (.hpb b) = false ∧ (∀ r ∈ (canOf s c).pending, canGated (canSlotGet (canOf s c) r.slot) s = false)) ∧
    (∃ (c : Fin 12) (src : Iface) (s : State) (b : Fin 8), Sound s ∧ Accesses src (canAddr c 0x070) s ∧ (canOf s c).tx = .none ∧
      canIsPending (canOf s c) (.hpb b) = true ∧ (∀ r ∈ (canOf s c).pending, canGated (canSlotGet (canOf s c) r.slot) s = false))
      ∧
    (∃ (c : Fin 12) (src : Iface) (s : State), Sound s ∧ Accesses src (canAddr c 0x018) s ∧ (canOf s c).recovPend = true) ∧
    (∃ (c : Fin 12) (src : Iface) (s : State), Sound s ∧ Accesses src (canAddr c 0x018) s ∧ (canOf s c).recovPend = false) ∧
    (∃ (c : Fin 12) (src : Iface) (s : State), Sound s ∧ Accesses src (canAddr c 0x024) s ∧ (canOf s c).fifoLevel ≠ 0) ∧
    (∃ (c : Fin 12) (src : Iface) (s : State), Sound s ∧ Accesses src (canAddr c 0x024) s ∧ (canOf s c).fifoLevel = 0) ∧
    (∃ (c : Fin 12) (src : Iface) (s : State) (o : _), Sound s ∧ Accesses src (canAddr c (canSlotOff o)) s) ∧
    (∃ (c : Fin 12) (src : Iface) (s : State) (o : _), Sound s ∧ Accesses src (canAddr c (canSlotOff o + 4 * 0)) s ∧ canIsPending
      (canOf s c) o = false) ∧
    (∃ (c : Fin 12) (src : Iface) (s : State) (o : _), Sound s ∧ Accesses src (canAddr c (canSlotOff o + 4 * 0)) s ∧ canIsPending
      (canOf s c) o = true ∧ (canSlotGet (canOf s c) o).tx = true) ∧
    (∃ (c : Fin 12) (src : Iface) (s : State) (o : _), Sound s ∧ Accesses src (canAddr c (canSlotOff o + 4 * 1)) s ∧ canIsPending
      (canOf s c) o = false) := by
  refine ⟨
    ⟨11, .pcie, onCan (fun ch => { ch with modeAct := 0, ctrl := 0x10 }), ?_⟩,
    ⟨11, .pcie, onCan (fun ch => { ch with modeAct := 0, ctrl := 0x10, nbt := 0 }), ?_⟩,
    ⟨11, .pcie, onCan id, ?_⟩,
    ⟨11, .pcie, onCan id, ?_⟩,
    ⟨11, .pcie, modCan 11 (fun ch => { ch with objs := [(31, sendObj)] }) up, 31, ?_⟩,
    ⟨11, .pcie, modCan 11 (fun ch => { ch with objs := [(31, { sendObj with claim := true })] }) up, 31, ?_⟩,
    ⟨11, .pcie, modCan 11 (fun ch => { ch with objs := [(31, sendObj)], pending := [req1 (.obj 31)] }) up, 31, ?_⟩,
    ⟨11, .pcie, modCan 11 (fun ch => { ch with hpbs := [(7, sendObj)] }) up, 7, ?_⟩,
    ⟨11, .pcie, modCan 11 (fun ch => { ch with hpbs := [(7, sendObj)], pending := [req1 (.hpb 7)] }) up, 7, ?_⟩,
    ⟨11, .lb, onCan (fun ch => { ch with recovPend := true, est := .busOff }), ?_⟩,
    ⟨11, .lb, up, ?_⟩,
    ⟨11, .lb, onCan (fun ch => { ch with fifoBase := 126, fifoDepth := 2, fifoHead := 127, fifoLevel := 1 }), ?_⟩,
    ⟨11, .lb, up, ?_⟩,
    ⟨11, .pcie, up, CanSlot.hpb 7, ?_⟩,
    ⟨11, .pcie, up, CanSlot.obj 127, ?_⟩,
    ⟨11, .pcie, modCan 11 (fun ch => { ch with objs := [(127, sendObj)], pending := [req1 (.obj 127)] }) up, CanSlot.obj 127, ?_⟩,
    ⟨11, .pcie, up, CanSlot.obj 127, ?_⟩⟩
  all_goals (try simp only [accesses_iff, sound_iff, mem_all])
  all_goals decide +kernel

/-- What `Obligations.CanScheduleCommandsComplete` supposes can be met, clause by clause. -/
theorem test_met_canScheduleCommandsComplete :
    (∃ (dt : Nat) (c : Fin 12) (s : State) (src : _) (k : BitVec 32), Sound s ∧ Accesses src (canAddr c 0x088) s ∧ wrapNewer k
      (cycleNo (begin_ dt s)) = true) ∧
    (∃ (dt : Nat) (c : Fin 12) (s : State) (src : _) (k : BitVec 32), Sound s ∧ Accesses src (canAddr c 0x088) s ∧ wrapNewer k
      (cycleNo (begin_ dt s)) = false) ∧
    (∃ (dt : Nat) (c : Fin 12) (s : State), Sound s ∧ canCommits c (runTo (nextInstant s) s) = true ∧ nextInstant s ≤ (begin_ dt
      s).now) ∧
    (∃ (dt : Nat) (c : Fin 12) (s : State), Sound s ∧ (canCommits c (runTo (nextInstant s) s) = false ∨ (begin_ dt s).now <
      nextInstant s)) ∧
    (∃ (c : Fin 12) (s : State), Sound s ∧ canShadowOk (canOf s c) s = true) ∧
    (∃ (c : Fin 12) (s : State), Sound s ∧ canShadowOk (canOf s c) s = false) ∧
    (∃ (c : Fin 12) (s : State) (d : Fin 12), Sound s ∧ d ≠ c) ∧
    (∃ (dt : Nat) (c : Fin 12) (s : State), Sound s ∧ canTakesPart (canOf s c) = true ∧ (canOf s c).active.role = 2 ∧ canCommitDue
      (canOf s c) (begin_ dt s) = false) ∧
    (∃ (c : Fin 12) (s : State), Sound s ∧ canTakesPart (canOf s c) = false) ∧
    (∃ (dt : Nat) (c : Fin 12) (s : State), Sound s ∧ (canOf s c).refDue = true ∧ (canOf s c).refWait = true ∧ (canOf s c).tx =
      .none ∧ canReached (canOf s c) (canColStart (canOf s c).active 0) (begin_ dt s) = true) ∧
    (∃ (dt : Nat) (c : Fin 12) (s : State), Sound s ∧ (canOf s c).refDue = false ∨ canReached (canOf s c) (canColStart (canOf s
      c).active 0) (begin_ dt s) = false) ∧
    (∃ (dt : Nat) (c : Fin 12) (s : State), Sound s ∧ (canOf s c).slaveAct = true ∧ (canOf s c).lastRefClk + 2 * canBcMacro (canOf
      s c).active * macroT s ≤ s.clk + dt) ∧
    (∃ (dt : Nat) (c : Fin 12) (s : State), Sound s ∧ s.clk + dt < (canOf s c).lastRefClk + 2 * canBcMacro (canOf s c).active *
      macroT s) ∧
    (∃ (dt : Nat) (c : Fin 12) (s : State) (k : Fin 64), Sound s ∧ (canOf s c).running = true ∧ (canOf s c).refSpan = false ∧
      k.val < canCols (canOf s c).active ∧ (canOf s c).deadCols.contains k.val = false ∧ canFitsShort (canOf s c) k (begin_ dt s)
      = true ∧ canReached (canOf s c) (canColStart (canOf s c).active k) (begin_ dt s) = true ∧ (canCell (canOf s c).active (canOf
      s c).row k).kind = 3) ∧
    (∃ (dt : Nat) (c : Fin 12) (s : State) (k : Fin 64), Sound s ∧ (canOf s c).running = true ∧ (canOf s c).refSpan = false ∧
      k.val < canCols (canOf s c).active ∧ (canOf s c).deadCols.contains k.val = false ∧ canFitsShort (canOf s c) k (begin_ dt s)
      = true ∧ canReached (canOf s c) (canColStart (canOf s c).active k) (begin_ dt s) = true ∧ (canCell (canOf s c).active (canOf
      s c).row k).kind = 2) ∧
    (∃ (dt : Nat) (c : Fin 12) (s : State) (k : Fin 64), Sound s ∧ (canOf s c).running = true ∧ (canOf s c).refSpan = false ∧
      k.val < canCols (canOf s c).active ∧ (canOf s c).deadCols.contains k.val = false ∧ canFitsShort (canOf s c) k (begin_ dt s)
      = true ∧ canReached (canOf s c) (canColStart (canOf s c).active k) (begin_ dt s) = true ∧ (canCell (canOf s c).active (canOf
      s c).row k).kind = 1 ∧ (canOf s c).est ≠ .busOff ∧ (canSlotGet (canOf s c) (canCellSlot (canCell (canOf s c).active (canOf s
      c).row k))).en = true ∧ (canSlotGet (canOf s c) (canCellSlot (canCell (canOf s c).active (canOf s c).row k))).tx = true ∧
      canGated (canSlotGet (canOf s c) (canCellSlot (canCell (canOf s c).active (canOf s c).row k))) s = false) ∧
    (∃ (dt : Nat) (c : Fin 12) (s : State) (k : Fin 64), Sound s ∧ (canOf s c).running = false ∨ canReached (canOf s c)
      (canColStart (canOf s c).active k) (begin_ dt s) = false) ∧
    (∃ (c : Fin 12) (s : State) (k : Fin 64), Sound s ∧ (canOf s c).window = some (k.val, false) ∧ (canCell (canOf s c).active
      (canOf s c).row k).kind = 1) ∧
    (∃ (c : Fin 12) (s : State) (k : Fin 64), Sound s ∧ (canOf s c).window = some (k.val, true)) := by
  refine ⟨
    ⟨0, 11, up, Iface.pcie, (1 : BitVec 32), ?_⟩,
    ⟨0, 11, up, Iface.pcie, (0 : BitVec 32), ?_⟩,
    ⟨macroT up, 11, onCan (fun ch => { ch with commitPend := true, commit := 1 }), ?_⟩,
    ⟨0, 11, onCan (fun ch => { ch with commitPend := true, commit := 1 }), ?_⟩,
    ⟨11, onCan (fun ch => { ch with commitPend := true, deadCols := [1], shadow := { matrix1 2 with role := 1 } }), ?_⟩,
    ⟨11, onCan (fun ch => { ch with commitPend := true, shadow := { CanMatrix.reset with rowsLog2 := 6 } }), ?_⟩,
    ⟨11, onCan (fun ch => { ch with commitPend := true, commit := 1 }), (3 : Fin 12), ?_⟩,
    ⟨0, 11, onCan (fun ch => { ch with active := { matrix1 2 with rowsLog2 := 2 } }), ?_⟩,
    ⟨11, up, ?_⟩,
    ⟨0, 11, onCan (fun ch => { ch with refDue := true, refWait := true }), ?_⟩,
    ⟨0, 11, onCan id, ?_⟩,
    ⟨2 * macroT up, 11, onCan (fun ch => { ch with slaveAct := true, active := matrix1 2 }), ?_⟩,
    ⟨2 * macroT up - 1, 11, onCan (fun ch => { ch with slaveAct := true, active := matrix1 2 }), ?_⟩,
    ⟨nsT 100000, 11, onCan (fun ch => { ch with running := true, active := matrix1 3 }), 1, ?_⟩,
    ⟨nsT 100000, 11, onCan (fun ch => { ch with running := true, active := matrix1 2 }), 1, ?_⟩,
    ⟨nsT 100000, 11, onCan (fun ch => { ch with running := true, active := matrix1 1, objs := [(5, sendObj)] }), 1, ?_⟩,
    ⟨0, 11, up, 63, ?_⟩,
    ⟨11, onCan (fun ch => { ch with running := true, active := matrix1 1, window := some (1, false) }), 1, ?_⟩,
    ⟨11, onCan (fun ch => { ch with running := true, active := matrix1 1, window := some (1, true) }), 1, ?_⟩⟩
  all_goals (try simp only [accesses_iff, sound_iff])
  all_goals decide +kernel

/-- What `Obligations.MvbBusCommandsComplete` supposes can be met, clause by clause. -/
theorem test_met_mvbBusCommandsComplete :
    (∃ (dt : Nat) (g : Fin 2) (s : State) (t : PollTable), Sound s ∧ (mvbOf s g).roleAct = 2 ∧ (mvbOf s g).commit = none ∧ (mvbOf
      s g).table = some t ∧ (mvbOf s g).cfg.role = 2 ∧ mvbStarts (mvbOf s g) (begin_ dt s) = true) ∧
    (∃ (dt : Nat) (g : Fin 2) (s : State), Sound s ∧ (mvbOf s g).cfg.role = 2 ∧ mvbStarts (mvbOf s g) (begin_ dt s) = false) ∧
    (∃ (g : Fin 2) (s : State), Sound s ∧ (mvbOf s g).roleAct = 1 ∧ (mvbOf s g).cfg.role = 1) ∧
    (∃ (g : Fin 2) (s : State), Sound s ∧ (mvbOf s g).roleAct = 0) ∧
    (∃ (dt : Nat) (g : Fin 2) (s : State) (t : PollTable) (e : BitVec 32) (es : List (BitVec 32)), Sound s ∧ (mvbOf s g).roleAct =
      2 ∧ (mvbOf s g).master = none ∧ (mvbOf s g).table = some t ∧ (mvbOf s g).inPeriod = true ∧ mvbFits t (begin_ dt s).now =
      true ∧ (mvbOf s g).polls = e :: es ∧ tblGet (mvbOf s g).ports (BitVec.ofNat 12 (pollPort e)).toNat = none ∧ (BitVec.ofNat 4
      (pollFcode e)).toNat ≤ 4) ∧
    (∃ (dt : Nat) (g : Fin 2) (s : State) (t : PollTable), Sound s ∧ (mvbOf s g).roleAct = 2 ∧ (mvbOf s g).master = none ∧ (mvbOf
      s g).table = some t ∧ (mvbOf s g).inPeriod = true ∧ mvbFits t (begin_ dt s).now = false) ∧
    (∃ (g : Fin 2) (s : State) (x : BitVec 4 × BitVec 12), Sound s ∧ (mvbOf s g).roleAct = 2 ∧ (mvbOf s g).master = some x) ∧
    (∃ (g : Fin 2) (s : State), Sound s ∧ (mvbOf s g).master = none) ∧
    (∃ (g : Fin 2) (s : State) (f : MvbMaster) (p : MvbPort), Sound s ∧ (mvbOf s g).roleAct ≠ 0 ∧ f.onA = true ∧ f.fcode.toNat ≤ 4
      ∧ tblGet (mvbOf s g).ports f.addr.toNat = some p ∧ p.dir = 1 ∧ p.fcode = f.fcode.toNat ∧ p.claim = false ∧ s.sys.extest =
      false) ∧
    (∃ (g : Fin 2) (s : State) (f : MvbMaster) (p : MvbPort), Sound s ∧ (mvbOf s g).roleAct ≠ 0 ∧ f.onA = true ∧ f.fcode.toNat ≤ 4
      ∧ tblGet (mvbOf s g).ports f.addr.toNat = some p ∧ p.dir = 1 ∧ p.fcode = f.fcode.toNat ∧ p.claim = true ∧ gateOpen
      p.svc.toNat s = false) ∧
    (∃ (s : State) (f : MvbMaster), Sound s ∧ f.onA = false ∧ f.onB = false) ∧
    (∃ (g : Fin 2) (s : State) (f : MvbSlave) (fc : BitVec 4) (a : BitVec 12) (p : MvbPort) (d : List Byte), Sound s ∧ (mvbOf s
      g).master = some (fc, a) ∧ fc.toNat ≤ 4 ∧ f.dataA = some d ∧ f.firstB = false ∧ f.invalidA = false ∧ f.invalidB = false ∧
      (f.dataB = none ∨ f.dataB = some d) ∧ tblGet (mvbOf s g).ports a.toNat = some p ∧ p.dir = 2 ∧ p.fcode = fc.toNat) ∧
    (∃ (g : Fin 2) (s : State), Sound s ∧ (mvbOf s g).master = none) := by
  refine ⟨
    ⟨0, 1, onMvb (fun m => { m with roleAct := 2, cfg := { m.cfg with role := 2 }, table := some table1 }), table1, ?_⟩,
    ⟨usT 1, 1, onMvb (fun m => { m with roleAct := 2, cfg := { m.cfg with role := 2 }, table := some table1 }), ?_⟩,
    ⟨1, onMvb (fun m => { m with roleAct := 1, cfg := { m.cfg with role := 1 }, ports := [(3, port0)] }), ?_⟩,
    ⟨1, up, ?_⟩,
    ⟨0, 1, onMvb (fun m => { m with roleAct := 2, table := some table1, inPeriod := true, polls := [3] }), table1, (3 : BitVec
      32), ([] : List (BitVec 32)), ?_⟩,
    ⟨usT 959, 1, onMvb (fun m => { m with roleAct := 2, table := some table1, inPeriod := true, polls := [3] }), table1, ?_⟩,
    ⟨1, onMvb (fun m => { m with roleAct := 2, master := some (0, 3) }), ((0, 3) : BitVec 4 × BitVec 12), ?_⟩,
    ⟨1, up, ?_⟩,
    ⟨1, onMvb (fun m => { m with roleAct := 1, ports := [(4095, { port0 with dir := 1 })] }),
      ({ fcode := 0, addr := 4095, onA := true, onB := false } : MvbMaster), ({ port0 with dir := 1 } : MvbPort), ?_⟩,
    ⟨1, onMvb (fun m => { m with roleAct := 1, ports := [(4095, { port0 with dir := 1, claim := true })] }),
      ({ fcode := 0, addr := 4095, onA := true, onB := false } : MvbMaster), ({ port0 with dir := 1, claim := true } : MvbPort),
      ?_⟩,
    ⟨up, ({ fcode := 0, addr := 4095, onA := false, onB := false } : MvbMaster), ?_⟩,
    ⟨1, onMvb (fun m => { m with roleAct := 1, master := some (0, 3), ports := [(3, port0)] }),
      ({ dataA := some [8, 9], dataB := none, invalidA := false, invalidB := false, firstB := false } : MvbSlave), (0 : BitVec 4),
      (3 : BitVec 12), port0, ([8, 9] : List Byte), ?_⟩,
    ⟨1, up, ?_⟩⟩
  all_goals (try simp only [sound_iff])
  all_goals decide +kernel

/-- What `Obligations.SwitchEventCommandsComplete` supposes can be met, clause by clause. -/
theorem test_met_switchEventCommandsComplete :
    (∃ (s : State) (f : EthFrame), isConsist f.port = true ∧ swActive (swOf s f.port) = false) ∧
    (∃ (s : State) (f : EthFrame), isConsist f.port = true ∧ swActive (swOf s f.port) = true ∧ f.fcsOk = false) ∧
    (∃ (s : State) (f : EthFrame), isConsist f.port = true ∧ swActive (swOf s f.port) = true ∧ f.fcsOk = true ∧ 2000 < f.len) ∧
    (∃ (s : State) (f : EthFrame), isConsist f.port = true ∧ swActive (swOf s f.port) = true ∧ f.fcsOk = true ∧ 64 ≤ f.len ∧ f.len
      ≤ 2000 ∧ (swOf s f.port).cfg.macsec = true ∧ f.secTagOk = false) ∧
    (∃ (s : State) (f : EthFrame), isConsist f.port = true ∧ swActive (swOf s f.port) = true ∧ f.fcsOk = true ∧ 64 ≤ f.len ∧ f.len
      ≤ 2000 ∧ (swOf s f.port).cfg.macsec = false ∧ vlanAccepts f s = false) ∧
    (∃ (s : State) (f : EthFrame), isConsist f.port = true ∧ swActive (swOf s f.port) = true ∧ f.fcsOk = true ∧ 64 ≤ f.len ∧ f.len
      ≤ 2000 ∧ (swOf s f.port).cfg.macsec = false ∧ vlanAccepts f s = true ∧ s.swc.streams = []) ∧
    (∃ (s : State) (f : EthFrame) (l : _), f.port = 20 ∧ f.pair = some l ∧ (pairOf s l).st = .locked ∧ (pairOf s l).halted =
      false) ∧
    (∃ (s : State) (f : EthFrame) (l : _), f.port = 20 ∧ f.pair = some l ∧ (pairOf s l).st = .fenced ∨ (pairOf s l).st = .held ∨
      (pairOf s l).halted = true) ∧
    (∃ (s : State) (p : Fin 22) (q : Fin 8) (e : EgFrame) (es : List EgFrame), isConsist p = false ∧ ((swOf s p).queues.getD q [])
      = e :: es ∧ (∀ k : Fin 8, q < k → (swOf s p).queues.getD k [] = [])) ∧
    (∃ (dt : Nat) (s : State) (p : Fin 22) (q : Fin 8) (e : EgFrame) (es : List EgFrame), swActive (swOf s p) = true ∧ (swOf s
      p).cfg.macsec = false ∧ ((swOf s p).queues.getD q []) = e :: es ∧ queueReady p (swOf s p) q (begin_ dt s).now = true ∧ (∀ k
      : Fin 8, q < k → queueReady p (swOf s p) k (begin_ dt s).now = false)) ∧
    (∃ (s : State) (p : Fin 22) (q : Fin 8), ((swOf s p).queues.getD q []) = []) ∧
    (∃ (dt : Nat) (s : State) (h : Fin 256), recoveryStale (streamOf s h) (s.clk + dt) = true) ∧
    (∃ (dt : Nat) (s : State) (h : Fin 256), recoveryStale (streamOf s h) (s.clk + dt) = false) ∧
    (∃ (s : State) (p : Fin 16) (m : MkPdu) (k : BitVec 32), (swOf s p).cfg.macsec = true ∧ (swOf s p).key.isSome = true ∧ m.icvOk
      = true ∧ (swOf s p).link = true ∧ m.serverPrio.toNat < (swOf s p).cfg.ksPrio.toNat ∧ m.sak = some k) ∧
    (∃ (s : State) (p : Fin 16) (m : MkPdu) (x : BitVec 32), (swOf s p).cfg.macsec = true ∧ (swOf s p).key.isSome = true ∧ m.icvOk
      = true ∧ (swOf s p).link = true ∧ (swOf s p).cfg.ksPrio.toNat < m.serverPrio.toNat ∧ m.pnExhausted = false ∧ (swOf s p).sak
      = some x) ∧
    (∃ (s : State) (p : Fin 16) (m : MkPdu), (swOf s p).cfg.macsec = false ∨ m.icvOk = false) ∧
    (∃ (s : State) (p : Fin 16), (swOf s p).cfg.macsec = true ∧ (swOf s p).server = true ∧ (swOf s p).live = true) ∧
    (∃ (s : State) (p : Fin 16), (swOf s p).link = false ∧ (swOf s p).cfg.mode ≠ 0) ∧
    (∃ (s : State) (p : Fin 16), (swOf s p).link = true) ∧
    (∃ (s : State) (p : Fin 16) (b : Bool), (swOf s p).link = b) := by
  refine ⟨
    ⟨up, eth1, ?_⟩,
    ⟨onSw id, ({ eth1 with fcsOk := false } : EthFrame), ?_⟩,
    ⟨onSw id, ({ eth1 with len := 2001 } : EthFrame), ?_⟩,
    ⟨onSw secPort, ({ eth1 with len := 2000 } : EthFrame), ?_⟩,
    ⟨onSw (fun t => { t with cfg := { t.cfg with accept := 1 } }), ({ eth1 with len := 2000 } : EthFrame), ?_⟩,
    ⟨{ onSw id with swc := { (onSw id).swc with vlans := [(1, (0xFFFF, 0xFFFF))] } }, eth1, ?_⟩,
    ⟨lockedPair 3, ({ eth1 with port := 20, pair := some 3 } : EthFrame), 3, ?_⟩,
    ⟨up, ({ eth1 with port := 20, pair := some 3 } : EthFrame), 3, ?_⟩,
    ⟨modSw 21 (fun t =>
      { t with queues := [[], [], [], [], [], [], [], [{ frame := eth1, rtag := none, stream := none, bank := 0, cells := 1 }]] })
      up, 21, 7, ({ frame := eth1, rtag := none, stream := none, bank := 0, cells := 1 } : EgFrame), ([] : List EgFrame), ?_⟩,
    ⟨0, onSw (fun t => { t with queues := [[], [], [], [], [], [], [], [eg1]] }), 15, 7, eg1, ([] : List EgFrame), ?_⟩,
    ⟨up, 21, 7, ?_⟩,
    ⟨msT 100, modStream 255 (fun t => { t with frer := 2, recSeq := some 3, resetMs := 100 }) up, 255, ?_⟩,
    ⟨msT 100 - 1, modStream 255 (fun t => { t with frer := 2, recSeq := some 3, resetMs := 100 }) up, 255, ?_⟩,
    ⟨onSw secPort, 15, mk1 8, (3 : BitVec 32), ?_⟩,
    ⟨onSw (fun t => { secPort t with sak := some 4 }), 15, mk1 10, (4 : BitVec 32), ?_⟩,
    ⟨up, 15, mk1 10, ?_⟩,
    ⟨onSw (fun t => { secPort t with server := true, live := true }), 15, ?_⟩,
    ⟨onSw (fun t => { t with link := false }), 15, ?_⟩,
    ⟨onSw secPort, 15, ?_⟩,
    ⟨onSw id, 15, true, ?_⟩⟩
  all_goals decide +kernel

/-- What `Obligations.RepairEventCommandsComplete` supposes can be met, clause by clause. -/
theorem test_met_repairEventCommandsComplete :
    (∃ (s : State) (e : MemError) (b : Fin 26), Sound s ∧ e.place = .bank b) ∧
    (∃ (s : State) (e : MemError) (pg : BitVec 16) (w : BitVec 12), Sound s ∧ e.place = .dram pg w ∧ e.uncorrectable = false ∧
      s.rep.errs = [] ∧ s.rep.failing = []) ∧
    (∃ (s : State) (e : MemError) (pg : BitVec 16) (w : BitVec 12), Sound s ∧ e.place = .dram pg w ∧ e.uncorrectable = true ∧
      s.rep.failing = [] ∧ s.rep.repaired = [] ∧ s.rep.pendingCache = [] ∧ s.rep.ways = []) ∧
    (∃ (s : State) (e : MemError), Sound s ∧ e.uncorrectable = true) ∧
    (∃ (s : State) (e : MemError) (l : Fin 4), Sound s ∧ e.reader = some l ∧ (pairOf s l).st = .locked) ∧
    (∃ (s : State), Sound s) ∧
    (∃ (dt : Nat) (s : State), Sound s ∧ nextInstant (begin_ dt s) < (begin_ dt s).now + usT 20) ∧
    (∃ (dt : Nat) (s : State) (p : MemPlace), Sound s ∧ failPlace p ∈ s.rep.failing ∧ (begin_ dt s).now + usT 20 ≤ nextInstant
      (begin_ dt s)) ∧
    (∃ (s : State) (k : Fin 8), Sound s ∧ k ≠ 0 ∧ (∀ q ∈ s.rep.reqs, q.1 ≠ k)) ∧
    (∃ (dt : Nat) (s : State) (k : Fin 8) (n : BitVec 32), Sound s ∧ k ≠ 0 ∧ s.rep.reqs = [(k, n)] ∧ (begin_ dt s).now + usT 20 ≤
      nextInstant (begin_ dt s)) ∧
    (∃ (dt : Nat) (s : State) (b : Fin 26), Sound s ∧ bankDrained b (begin_ dt s) = true) ∧
    (∃ (dt : Nat) (s : State) (b : Fin 26), Sound s ∧ bankDrained b (begin_ dt s) = false) ∧
    (∃ (dt : Nat) (s : State) (p : Fin 5) (l : Nat), Sound s ∧ rotDue (begin_ dt s) = true ∧ s.rep.rotRun = none ∧
      s.rep.rotStopped = false ∧ rotChoice (begin_ dt s) = some p ∧ carriedBy (begin_ dt s) p = some l ∧ s.lsk.spareReady = true ∧
      coresOff (begin_ dt s) = false ∧ (pairOf s l).pendHand = none) ∧
    (∃ (dt : Nat) (s : State), Sound s ∧ rotDue (begin_ dt s) = true ∧ s.rep.rotRun = none ∧ s.rep.rotStopped = false ∧
      s.lsk.spareReady = false ∧ s.rep.rotDeferred = false) ∧
    (∃ (s : State) (p : Fin 5), Sound s ∧ s.rep.testing = some p ∧ s.rep.rotRun = none ∧ s.rep.rotPick = none ∧ s.rep.pendingCache
      = [] ∧ s.rep.refenced = 0 ∧ s.rep.fenced = 0) ∧
    (∃ (s : State) (p : Fin 5), Sound s ∧ s.rep.testing = some p ∧ s.rep.rotRun = none ∧ s.rep.rotPick = none ∧ s.rep.pendingCache
      = []) ∧
    (∃ (s : State) (p : Fin 5), Sound s ∧ s.rep.testing ≠ some p) ∧
    (∃ (s : State) (w : Nat), Sound s ∧ s.rep.stepNext = none ∧ s.rep.step.toNat < 15 ∧ 150 * (s.rep.step.toNat + 1) < w) ∧
    (∃ (s : State) (w : Nat), Sound s ∧ s.rep.stepNext = none ∧ w ≤ 150 * (s.rep.step.toNat + 1)) ∧
    (∃ (dt : Nat) (s : State), Sound s ∧ s.rep.stepNext ≠ none ∧ nextInstant s ≤ (begin_ dt s).now) ∧
    (∃ (dt : Nat) (s : State), Sound s ∧ (s.rep.stepNext = none ∨ (begin_ dt s).now < nextInstant s)) ∧
    (∃ (s : State) (n : BitVec 4), Sound s ∧ s.rep.stepNext = some n) ∧
    (∃ (s : State) (q : Queued), Sound s ∧ s.cmd.queued = [q] ∧ q.opcode = 0x0A09) ∧
    (∃ (s : State) (q : Queued), Sound s ∧ s.cmd.queued = [q] ∧ q.opcode = 0x0504) ∧
    (∃ (s : State) (n : BitVec 32), Sound s ∧ (∀ q ∈ s.cmd.queued, q.cmdSeq ≠ n)) := by
  refine ⟨
    ⟨up, ({ place := .bank 25, uncorrectable := true, reader := none, value := 0 } : MemError), (25 : Fin 26), ?_⟩,
    ⟨up, dramErr false, (9 : BitVec 16), (4 : BitVec 12), ?_⟩,
    ⟨up, dramErr true, (9 : BitVec 16), (4 : BitVec 12), ?_⟩,
    ⟨up, readErr true, ?_⟩,
    ⟨lockedPair 3, readErr true, 3, ?_⟩,
    ⟨up, ?_⟩,
    ⟨macroT up - usT 20 + 1, up, ?_⟩,
    ⟨0, onRep (fun r => { r with failing := [.dram 9 0] }), (.dram 9 4 : MemPlace), ?_⟩,
    ⟨up, (7 : Fin 8), ?_⟩,
    ⟨0, onRep (fun r => { r with reqs := [(7, 3)] }), (7 : Fin 8), (3 : BitVec 32), ?_⟩,
    ⟨0, { up with swc := { up.swc with banks := updAt up.swc.banks 23 (fun k => { k with draining := true }) } }, (23 : Fin 26),
      ?_⟩,
    ⟨0, up, (25 : Fin 26), ?_⟩,
    ⟨0, rotating true, (3 : Fin 5), (3 : Nat), ?_⟩,
    ⟨secT 86400, rotating false, ?_⟩,
    ⟨onRep (fun r => { r with testing := some 4 }), (4 : Fin 5), ?_⟩,
    ⟨onRep (fun r => { r with testing := some 4 }), (4 : Fin 5), ?_⟩,
    ⟨up, (4 : Fin 5), ?_⟩,
    ⟨onRep (fun r => { r with step := 14 }), (2251 : Nat), ?_⟩,
    ⟨up, (150 : Nat), ?_⟩,
    ⟨macroT up, onRep (fun r => { r with step := 14, stepNext := some 15 }), ?_⟩,
    ⟨0, onRep (fun r => { r with step := 14, stepNext := some 15 }), ?_⟩,
    ⟨onRep (fun r => { r with step := 14, stepNext := some 15 }), (15 : BitVec 4), ?_⟩,
    ⟨onCmd (fun c => { c with queued := [queued 0x0A09] }), queued 0x0A09, ?_⟩,
    ⟨onCmd (fun c => { c with queued := [queued 0x0504] }), queued 0x0504, ?_⟩,
    ⟨onCmd (fun c => { c with queued := [queued 0x0504] }), (45 : BitVec 32), ?_⟩⟩
  all_goals (try simp only [sound_iff, mem_all])
  all_goals decide +kernel

/-- What `Obligations.FabricEventsComplete` supposes can be met, clause by clause. -/
theorem test_met_fabricEventsComplete :
    (∃ (s : State) (k : Fin 4), Sound s ∧ fabEnabled s k = true ∧ s.sys.extest = false) ∧
    (∃ (s : State) (k : Fin 4), Sound s ∧ fabEnabled s k = false) ∧
    (∃ (s : State) (k : Fin 4) (b : FabricBeacon), Sound s ∧ (fabOf s k).st = .up ∧ b.vid = s.ina.vid) ∧
    (∃ (s : State) (k : Fin 4) (b : FabricBeacon), Sound s ∧ (fabOf s k).st = .up ∧ b.vid ≠ s.ina.vid) ∧
    (∃ (s : State) (k : Fin 4), Sound s ∧ fabEnabled s k = false) ∧
    (∃ (dt : Nat) (s : State) (u : BitVec 64), Sound s ∧ slotDue u (runTo (nextInstant s) s) = true ∧ nextInstant s ≤ (begin_ dt
      s).now) ∧
    (∃ (dt : Nat) (s : State) (u : BitVec 64), Sound s ∧ (slotDue u (runTo (nextInstant s) s) = false ∨ (begin_ dt s).now <
      nextInstant s)) ∧
    (∃ (s : State) (n : Nat), Sound s ∧ s.fab.slots.findIdx? (fun x => x == 0) = some n) ∧
    (∃ (s : State), Sound s ∧ s.fab.slots.findIdx? (fun x => x == 0) = none) ∧
    (∃ (s : State) (u : BitVec 64), Sound s ∧ fabActiveTwin s = true ∧ s.fab.assign = [u]) ∧
    (∃ (s : State) (k : Fin 4) (f : FabricFrame), Sound s ∧ (fabOf s k).st = .up ∧ f.seq = (fabOf s k).rxSeq ∧ fabDest s
      f.dst.toNat = fabSlot s) ∧
    (∃ (s : State) (k : Fin 4) (f : FabricFrame), Sound s ∧ (fabOf s k).st = .up ∧ f.seq = (fabOf s k).rxSeq ∧ fabDest s
      f.dst.toNat ≠ fabSlot s ∧ f.hops.toNat ≤ 1) ∧
    (∃ (s : State) (k : Fin 4) (j : Fin 4) (f : FabricFrame), Sound s ∧ (fabOf s k).st = .up ∧ f.seq = (fabOf s k).rxSeq ∧ fabDest
      s f.dst.toNat ≠ fabSlot s ∧ 1 < f.hops.toNat ∧ fabRoute s (fabDest s f.dst.toNat) = some j.val ∧ j ≠ k) ∧
    (∃ (s : State) (k : Fin 4) (f : FabricFrame), Sound s ∧ f.seq ≠ (fabOf s k).rxSeq) ∧
    (∃ (dt : Nat) (s : State) (k : Fin 4) (f : FabricFrame) (c : Nat), Sound s ∧ (fabOf s k).st = .up ∧ (fabOf s k).replay = [(f,
      c)] ∧ c + usT 10 ≤ s.clk + dt ∧ s.sys.extest = false) ∧
    (∃ (s : State) (k : Fin 4), Sound s ∧ fabEnabled s k = true) ∧
    (∃ (s : State) (k : Fin 4), Sound s ∧ (fabOf s k).st = .training ∧ (fabOf s k).beaconTx = true ∧ (fabOf s k).beaconRx = true ∧
      fabForeign s k = false) ∧
    (∃ (s : State) (k : Fin 4) (l : Fin 2) (e : Option Nat), Sound s ∧ (fabOf s k).st = .up ∧ (fabOf s k).lane = l ∧ (fabOf s
      k).spare = .good ∧ (fabOf s k).switches = [] ∧ (fabOf s k).replay = [] ∧ 16 ≤ e.getD 16) ∧
    (∃ (s : State) (k : Fin 4) (l : Fin 2) (e : Option Nat), Sound s ∧ (fabOf s k).st = .up ∧ (fabOf s k).lane = l ∧ (fabOf s
      k).spare ≠ .good ∨ e.getD 16 < 16) ∧
    (∃ (s : State) (k : Fin 4) (l : Fin 2), Sound s ∧ (fabOf s k).lane ≠ l) ∧
    (∃ (s : State) (k : Fin 4) (n : Nat), Sound s ∧ (fabOf s k).spare ≠ .retired ∧ 1 < n) ∧
    (∃ (dt : Nat) (s : State) (k : Fin 4) (n : Nat), Sound s ∧ (fabOf s k).spare ≠ .retired ∧ n ≤ 1 ∧ (fabOf s k).spareClk + secT
      1 ≤ s.clk + dt) ∧
    (∃ (dt : Nat) (s : State) (k : Fin 4) (n : Nat), Sound s ∧ (fabOf s k).spare = .retired ∨ (n ≤ 1 ∧ s.clk + dt < (fabOf s
      k).spareClk + secT 1)) ∧
    (∃ (s : State) (r : FabricReport) (d : Directory) (v : VehRec), Sound s ∧ isFirst s = true ∧ s.ina.dir = some d ∧
      d.vehicles.find? (fun v => v.vid == r.vid && !isLegacy v) = some v ∧ bitsOf v.slots.toNat 2 14 ≠ bitsOf r.slots.toNat 2 14)
      ∧
    (∃ (s : State) (r : FabricReport) (d : Directory) (v : VehRec), Sound s ∧ isFirst s = true ∧ s.ina.dir = some d ∧
      d.vehicles.find? (fun v => v.vid == r.vid && !isLegacy v) = some v ∧ reportDiffers v r s = false) ∧
    (∃ (dt : Nat) (s : State) (p : Fin 4), Sound s ∧ portUp s p = true ∧ isBoundary s p = false ∧ straysNow p (begin_ dt s) =
      true) ∧
    (∃ (dt : Nat) (s : State) (p : Fin 4), Sound s ∧ OwnTraffic p dt s ∧ isFirst s = false) ∧
    (∃ (s : State) (p : Fin 4), Sound s ∧ (portUp s p = false ∨ isBoundary s p = true)) ∧
    (∃ (s : State), Sound s ∧ isFirst s = false) ∧
    (∃ (dt : Nat) (s : State) (x : FabricTick) (k : Fin 4), Sound s ∧ s.fab.attached = false ∧ (s.sched.openOk = true ∨
      opensCycles s = true) ∧ tickDue (begin_ dt s) = true ∧ ownTick (begin_ dt s) = some x ∧ fabUpLinks s = [k.val]) ∧
    (∃ (dt : Nat) (s : State), Sound s ∧ (s.fab.attached = true ∨ tickDue (begin_ dt s) = false)) ∧
    (∃ (s : State) (k : Fin 4) (x : FabricTick), Sound s ∧ s.fab.attached = true ∧ (fabOf s k).st = .up ∧ s.sched.running = none ∧
      x.fromTwinB = tickPreferB s ∧ s.fab.srcB = x.fromTwinB ∧ tickAgain x s = false ∧ fabUpLinks s = [k.val]) ∧
    (∃ (s : State) (x : FabricTick), Sound s ∧ s.fab.attached = true ∧ tickAgain x s = true) ∧
    (∃ (s : State), Sound s ∧ s.fab.attached = false) ∧
    (∃ (s : State) (f : FlowFrame), Sound s ∧ fabActiveTwin s = true ∧ s.fab.proxy = [] ∧ flowWireLen f ≤ 98304) ∧
    (∃ (s : State), Sound s ∧ fabActiveTwin s = false) ∧
    (∃ (s : State), Sound s ∧ s.fab.attached = false) := by
  refine ⟨
    ⟨linkUp 0, (0 : Fin 4), ?_⟩,
    ⟨up, (3 : Fin 4), ?_⟩,
    ⟨linkUp 3, (3 : Fin 4), fbeacon 0, ?_⟩,
    ⟨linkUp 3, (3 : Fin 4), fbeacon 5, ?_⟩,
    ⟨up, (3 : Fin 4), ?_⟩,
    ⟨macroT lone, modFabric (fun f => { f with assign := [60], slots := List.replicate 14 9 }) lone, (60 : BitVec 64), ?_⟩,
    ⟨0, modFabric (fun f => { f with assign := [60], slots := List.replicate 14 9 }) lone, (60 : BitVec 64), ?_⟩,
    ⟨modFabric (fun f => { f with slots := List.replicate 13 9 ++ [0] }) lone, (13 : Nat), ?_⟩,
    ⟨modFabric (fun f => { f with slots := List.replicate 14 9 }) lone, ?_⟩,
    ⟨modFabric (fun f => { f with assign := [60] }) lone, (60 : BitVec 64), ?_⟩,
    ⟨linkUp 0, (0 : Fin 4), fframe 0 0xFF 1, ?_⟩,
    ⟨linkUp 0, (0 : Fin 4), fframe 0 5 1, ?_⟩,
    ⟨modFabric (fun f => { f with costs := updAt f.costs 23 (fun _ => 15) }) (modFab 3 (fun l => { l with st := .up }) (linkUp
      0)), (0 : Fin 4), (3 : Fin 4), fframe 0 5 2, ?_⟩,
    ⟨linkUp 0, (0 : Fin 4), fframe 9 5 2, ?_⟩,
    ⟨usT 10, onFab (fun l => { l with st := .up, replay := [(fframe 0 5 2, 0)] }), (0 : Fin 4), fframe 0 5 2, (0 : Nat), ?_⟩,
    ⟨linkUp 0, (0 : Fin 4), ?_⟩,
    ⟨onFab (fun l => { l with st := .training, beaconTx := true, beaconRx := true }), (0 : Fin 4), ?_⟩,
    ⟨onFab (fun l => { l with st := .up, lane := 1 }), (0 : Fin 4), (1 : Fin 2), (none : Option Nat), ?_⟩,
    ⟨onFab (fun l => { l with st := .up, lane := 1 }), (0 : Fin 4), (1 : Fin 2), (some 15 : Option Nat), ?_⟩,
    ⟨up, (0 : Fin 4), (1 : Fin 2), ?_⟩,
    ⟨up, (0 : Fin 4), (2 : Nat), ?_⟩,
    ⟨secT 1, onFab (fun l => { l with spare := .suspect }), (0 : Fin 4), (1 : Nat), ?_⟩,
    ⟨secT 1 - 1, onFab (fun l => { l with spare := .suspect }), (0 : Fin 4), (1 : Nat), ?_⟩,
    ⟨lone, freport, dir1, ({ pos := 1, flags := 1, slots := 5, vid := 7, wtbAddr := 0, uidA := upSys.uid, uidB := 0 } : VehRec),
      ?_⟩,
    ⟨lone, ({ freport with slots := 5 } : FabricReport), dir1,
      ({ pos := 1, flags := 1, slots := 5, vid := 7, wtbAddr := 0, uidA := upSys.uid, uidB := 0 } : VehRec), ?_⟩,
    ⟨0, slotTime, (0 : Fin 4), ?_⟩,
    ⟨0, portIn 0 .up .ndoelle, (0 : Fin 4), ?_⟩,
    ⟨atBoundary lone, (0 : Fin 4), ?_⟩,
    ⟨up, ?_⟩,
    ⟨nsT 5000, tickNode, tick1, (0 : Fin 4), ?_⟩,
    ⟨0, onFabric (fun f => { f with attached := true }), ?_⟩,
    ⟨modFabric (fun f => { f with attached := true }) (linkUp 0), (0 : Fin 4), ftick false, ?_⟩,
    ⟨modFabric (fun f => { f with attached := true, ticks := [(false, 0)] }) (linkUp 0), ftick false, ?_⟩,
    ⟨up, ?_⟩,
    ⟨lone, flow1 1, ?_⟩,
    ⟨up, ?_⟩,
    ⟨up, ?_⟩⟩
  all_goals (try simp only [sound_iff, ownTraffic_iff])
  all_goals decide +kernel

/-- What `Obligations.BridgeCommandsComplete` supposes can be met, clause by clause. -/
theorem test_met_bridgeCommandsComplete :
    (∃ (s : State) (r : BridgeFrame), s.sys.powered = true ∧ ownAddr r.dst s = true ∧ bridgeReady s = true ∧ r.op ≠ 5 ∧ r.op ≠ 2 ∧
      s.bridge.out = none ∧ (∀ e ∈ s.bridge.store, ¬ (e.1 = r.initUid ∧ e.2.1 = r.tag)) ∧ (∀ e ∈ s.bridge.inq, ¬ (e.1.initUid =
      r.initUid ∧ e.1.tag = r.tag))) ∧
    (∃ (dt : Nat) (s : State) (r : BridgeFrame), s.sys.powered = true ∧ ownAddr r.dst s = true ∧ bridgeReady s = true ∧ r.op = 3 ∧
      r.sem.toNat < 32 ∧ s.bridge.out = none ∧ s.bridge.store = [] ∧ s.bridge.inq = [] ∧ semOf s r.sem.toNat = none ∧ semBusy r
      (begin_ dt s) = false ∧ r.sem.toNat < s.bridge.sems.length) ∧
    (∃ (s : State) (r : BridgeFrame) (o : Outbound), s.sys.powered = true ∧ ownAddr r.dst s = true ∧ bridgeReady s = true ∧ r.op =
      1 ∧ s.bridge.out = some o ∧ crosses o r = false ∧ s.bridge.store = [] ∧ s.bridge.inq = []) ∧
    (∃ (s : State) (r : BridgeFrame), s.sys.powered = true ∧ ownAddr r.dst s = false ∧ s.fab.attached = true) ∧
    (∃ (dt : Nat) (s : State) (p : Fin 4) (r : BridgeFrame), s.sys.powered = true ∧ OwnTraffic p dt s ∧ ownAddr r.dst s = false ∧
      r.dst.toNat / 16 ≠ position s) ∧
    (∃ (s : State) (p : Fin 4), (portUp s p = false ∨ isBoundary s p = true)) ∧
    (∃ (dt : Nat) (s : State) (p : Fin 4), s.sys.powered = true ∧ portUp s p = true ∧ isBoundary s p = false ∧ straysNow p (begin_
      dt s) = true) ∧
    (∃ (s : State) (r : BridgeFrame) (o : Outbound), s.sys.powered = true ∧ ownAddr r.dst s = true ∧ r.initUid = s.sys.uid ∧
      s.bridge.out = some o ∧ o.frame.tag = r.tag ∧ r.status = 0 ∧ o.frame.op = 1 ∧ o.src = .lb) ∧
    (∃ (s : State) (r : BridgeFrame) (o : Outbound), s.sys.powered = true ∧ ownAddr r.dst s = true ∧ r.initUid = s.sys.uid ∧
      s.bridge.out = some o ∧ o.frame.tag = r.tag ∧ r.status = 0x80) ∧
    (∃ (s : State) (r : BridgeFrame), s.sys.powered = true ∧ ownAddr r.dst s = true ∧ r.initUid ≠ s.sys.uid) ∧
    (∃ (s : State) (r : BridgeFrame), s.sys.powered = true ∧ ownAddr r.dst s = true) ∧
    (∃ (dt : Nat) (s : State) (o : Outbound) (tag : BitVec 16), s.bridge.out = some o ∧ s.bridge.posted = [] ∧ o.frame.tag = tag ∧
      o.busy = false ∧ 1 ≤ o.sends ∧ o.sends < 4 ∧ o.sentClk + 2 * macroT s ≤ s.clk + dt) ∧
    (∃ (s : State) (o : Outbound), s.bridge.out = some o ∧ s.bridge.posted = [] ∧ o.sends = 0) ∧
    (∃ (dt : Nat) (s : State) (o : Outbound) (tag : BitVec 16), s.bridge.out = some o ∧ s.bridge.posted = [] ∧ s.bridge.waiting =
      [] ∧ s.bridge.inq = [] ∧ o.frame.tag = tag ∧ o.frame.op = 1 ∧ o.busy = false ∧ o.src = .lb ∧ o.startClk + msT s.fab.reqTmo ≤
      s.clk + dt) ∧
    (∃ (dt : Nat) (s : State) (o : Outbound), s.bridge.out = some o ∧ s.bridge.posted = [] ∧ s.bridge.waiting = [] ∧ s.clk + dt <
      o.startClk + msT s.fab.reqTmo) ∧
    (∃ (dt : Nat) (s : State) (a : Nat) (n : Nat) (d : List Byte), s.bridge.fetch = some (a, n, some d) ∧ s.bridge.fetchClk + usT
      100 ≤ s.clk + dt) ∧
    (∃ (dt : Nat) (s : State) (o : Outbound), s.bridge.out = some o ∧ s.bridge.posted = [] ∧ o.busy = true ∧ o.sentClk + usT 10 ≤
      s.clk + dt) ∧
    (∃ (s : State) (o : Outbound), s.bridge.out = some o ∧ s.bridge.posted = [] ∧ o.busy = false) ∧
    (∃ (s : State) (off : Nat) (len : Nat), ifaceOpen .pcie s = true ∧ windowSpan off len 512 = false) ∧
    (∃ (s : State) (w : Fin 8) (off : Nat), ifaceOpen .pcie s = true ∧ windowSpan off 4 512 = true ∧ (windowOf s w).mode = 0) ∧
    (∃ (s : State) (w : Fin 8) (off : Nat) (hi : Nat) (lo : Nat), ifaceOpen .lb s = true ∧ off < 0x400000 ∧ off % 4 = 0 ∧
      s.bridge.fetch = some (windowAddr w off, 4, some (leBytes 2 lo ++ leBytes 2 hi)) ∧ lo < 65536 ∧ hi < 65536) ∧
    (∃ (s : State) (off : Nat) (d : List Byte), ifaceOpen .pcie s = true ∧ windowSpan off d.length 256 = false) ∧
    (∃ (s : State) (w : Fin 8) (off : Nat) (d : List Byte), ifaceOpen .pcie s = true ∧ windowSpan off d.length 256 = true ∧
      (windowOf s w).mode ≠ 0 ∧ (windowOf s w).wr = false) ∧
    (∃ (s : State) (w : Fin 8) (off : Nat) (r : _) (h : BitVec 16), ifaceOpen .lb s = true ∧ off < 0x400000 ∧ off % 4 = 2 ∧
      s.bridge.fetch = none ∧ s.bridge.lbHigh = some (r, h) ∧ r + 2 = windowAddr w off) ∧
    (∃ (s : State) (w : Fin 8), ifaceOpen .lb s = true ∧ (windowOf s w).guard_.isSome = true ∧ s.bridge.lock = some (w, true)) ∧
    (∃ (s : State) (w : Fin 8) (v : Fin 8), ifaceOpen .lb s = true ∧ (windowOf s w).guard_.isSome = true ∧ s.bridge.lock = some
      (v, true) ∧ v ≠ w) ∧
    (∃ (s : State) (w : Fin 8), ifaceOpen .lb s = true ∧ (windowOf s w).guard_.isSome = true ∧ s.bridge.lock = none ∧
      s.bridge.fetch = none) ∧
    (∃ (s : State) (w : Fin 8), s.bridge.lock = some (w, false)) ∧
    (∃ (s : State), s.bridge.lock = none) ∧
    (∃ (s : State) (k : Fin 32), ifaceOpen .pcie s = true ∧ semOf s k = none) ∧
    (∃ (s : State) (k : Fin 32) (x : Sem), ifaceOpen .pcie s = true ∧ semOf s k = some x) ∧
    (∃ (s : State) (k : Fin 32) (x : Sem), ifaceOpen .lb s = true ∧ semOf s k = some x ∧ semOwned .lb x s = true) ∧
    (∃ (s : State) (k : Fin 32) (x : Sem) (v : BitVec 32), ifaceOpen .lb s = true ∧ semOf s k = some x ∧ (semOwned .lb x s = false
      ∨ v ≠ 0)) ∧
    (∃ (dt : Nat) (s : State) (k : Fin 32) (x : Sem), semOf s k = some x ∧ x.clk + msT s.fab.semTmo ≤ s.clk + dt) ∧
    (∃ (s : State), ifaceOpen .pcie s = true) := by
  refine ⟨
    ⟨up, bframe 1, ?_⟩,
    ⟨0, up, bframe 3, ?_⟩,
    ⟨onBridge (fun b => { b with out := some outb }), bframe 1, outb, ?_⟩,
    ⟨modFabric (fun f => { f with attached := true }) up, ({ bframe 1 with dst := 0x030 } : BridgeFrame), ?_⟩,
    ⟨0, lone, (0 : Fin 4), ({ bframe 1 with dst := 0x030 } : BridgeFrame), ?_⟩,
    ⟨atBoundary lone, (0 : Fin 4), ?_⟩,
    ⟨0, slotTime, (0 : Fin 4), ?_⟩,
    ⟨onBridge (fun b => { b with out := some outb, fetch := some (0, 4, none) }),
      ({ bframe 1 with initUid := upSys.uid, data := [1, 2, 3, 4] } : BridgeFrame), outb, ?_⟩,
    ⟨onBridge (fun b => { b with out := some outb }), ({ bframe 1 with initUid := upSys.uid, status := 0x80 } : BridgeFrame),
      outb, ?_⟩,
    ⟨up, bframe 1, ?_⟩,
    ⟨onBridge (fun b => { b with inq := [(bframe 1, 0, false)] }), bframe 5, ?_⟩,
    ⟨2 * macroT up, onBridge (fun b => { b with out := some { outb with sends := 3 } }), ({ outb with sends := 3 } : Outbound), (7
      : BitVec 16), ?_⟩,
    ⟨onBridge (fun b => { b with out := some { outb with sends := 0 } }), ({ outb with sends := 0 } : Outbound), ?_⟩,
    ⟨msT 10, onBridge (fun b => { b with out := some outb, fetch := some (0, 4, none) }), outb, (7 : BitVec 16), ?_⟩,
    ⟨msT 10 - 1, onBridge (fun b => { b with out := some outb }), outb, ?_⟩,
    ⟨usT 100, onBridge (fun b => { b with fetch := some (0x1000000, 4, some [1, 2, 3, 4]) }), (0x1000000 : Nat), (4 : Nat), ([1,
      2, 3, 4] : List Byte), ?_⟩,
    ⟨usT 10, onBridge (fun b => { b with out := some { outb with busy := true } }), ({ outb with busy := true } : Outbound), ?_⟩,
    ⟨onBridge (fun b => { b with out := some outb }), outb, ?_⟩,
    ⟨up, (0 : Nat), (516 : Nat), ?_⟩,
    ⟨up, (7 : Fin 8), (0x3FFFFC : Nat), ?_⟩,
    ⟨onBridge (fun b => { b with fetch := some (windowAddr 7 0x3FFFFC, 4, some [1, 0, 0xFF, 0xFF]) }), (7 : Fin 8), (0x3FFFFC :
      Nat), (65535 : Nat), (1 : Nat), ?_⟩,
    ⟨up, (2 : Nat), ([1, 2, 3, 4] : List Byte), ?_⟩,
    ⟨onBridge (fun b => { b with windows := updAt b.windows 7 (fun w => { w with mode := 1, addr := 0x030 }) }), (7 : Fin 8),
      (0x3FFFFC : Nat), ([1, 2, 3, 4] : List Byte), ?_⟩,
    ⟨onBridge (fun b => { b with lbHigh := some (windowAddr 7 0x3FFFFC, 5) }), (7 : Fin 8), (0x3FFFFE : Nat), windowAddr 7
      0x3FFFFC, (5 : BitVec 16), ?_⟩,
    ⟨onBridge (fun b => { b with lock := some (7, true), windows := updAt b.windows 7 (fun w => { w with guard_ := some 31 }) }),
      (7 : Fin 8), ?_⟩,
    ⟨onBridge (fun b => { b with lock := some (6, true), windows := updAt b.windows 7 (fun w => { w with guard_ := some 31 }) }),
      (7 : Fin 8), (6 : Fin 8), ?_⟩,
    ⟨onBridge (fun b => { b with windows := updAt b.windows 7 (fun w => { w with guard_ := some 31 }) }), (7 : Fin 8), ?_⟩,
    ⟨onBridge (fun b => { b with lock := some (7, false) }), (7 : Fin 8), ?_⟩,
    ⟨up, ?_⟩,
    ⟨up, (31 : Fin 32), ?_⟩,
    ⟨onBridge (fun b => { b with sems := updAt b.sems 31 (fun _ => some semLb) }), (31 : Fin 32), semLb, ?_⟩,
    ⟨onBridge (fun b => { b with sems := updAt b.sems 31 (fun _ => some semLb) }), (31 : Fin 32), semLb, ?_⟩,
    ⟨onBridge (fun b => { b with sems := updAt b.sems 31 (fun _ => some semLb) }), (31 : Fin 32), semLb, (1 : BitVec 32), ?_⟩,
    ⟨msT 100, onBridge (fun b => { b with sems := updAt b.sems 31 (fun _ => some semLb) }), (31 : Fin 32), semLb, ?_⟩,
    ⟨onBridge (fun b => { b with vecPend := 3 }), ?_⟩⟩
  all_goals (try simp only [ownTraffic_iff, mem_all])
  all_goals decide +kernel

/-- What `Obligations.HostQueueCommandsComplete` supposes can be met, clause by clause. -/
theorem test_met_hostQueueCommandsComplete :
    (∃ (src : Iface) (s : State) (m : Fin 8), Sound s ∧ Accesses src (0x1000 * m.val + 0x20) s ∧ isPair src = false ∧ (mbxOf s
      m).ring = false) ∧
    (∃ (src : Iface) (s : State) (m : Fin 8), Sound s ∧ Accesses src (0x1000 * m.val + 0x20) s ∧ isPair src = false ∧ (mbxOf s
      m).ring = true) ∧
    (∃ (src : Iface) (s : State) (m : Fin 8), Sound s ∧ Accesses src (0x8040 + 4 * m.val) s ∧ isPair src = false ∧ (mbxOf s
      m).lock = none) ∧
    (∃ (src : Iface) (s : State) (m : Fin 8) (x : BitVec 12), Sound s ∧ Accesses src (0x8040 + 4 * m.val) s ∧ isPair src = false ∧
      (mbxOf s m).lock = some x) ∧
    (∃ (src : Iface) (s : State) (m : Fin 8), Sound s ∧ Accesses src (0x8040 + 4 * m.val) s ∧ isPair src = false ∧ (mbxOf s
      m).lock = some (ownerTag src s)) ∧
    (∃ (src : Iface) (s : State) (m : Fin 8) (x : BitVec 12) (v : BitVec 32), Sound s ∧ Accesses src (0x8040 + 4 * m.val) s ∧
      (mbxOf s m).lock = some x ∧ (x ≠ ownerTag src s ∨ v ≠ 0)) ∧
    (∃ (src : Iface) (s : State) (m : Fin 8), Sound s ∧ Accesses src (0x8000 + 4 * m.val) s ∧ isPair src = false ∧ (mbxOf s
      m).ring = true) ∧
    (∃ (src : Iface) (s : State) (m : Fin 8), Sound s ∧ Accesses src (0x8000 + 4 * m.val) s ∧ isPair src = false ∧ (mbxOf s
      m).ring = false ∧ s.sys.resetPending = none ∧ lockAllows m src s = true ∧ commandOf (mbxOf s m).opcode.toNat = none) ∧
    (∃ (src : Iface) (s : State) (m : Fin 8), Sound s ∧ Accesses src (0x8000 + 4 * m.val) s ∧ isPair src = false) ∧
    (∃ (src : Iface) (s : State) (n : Nat), Sound s ∧ Accesses src 0x108004 s ∧ isPair src = false ∧ (s.cmd.wr - BitVec.ofNat 10
      n).toNat ≤ (s.cmd.wr - s.cmd.rd).toNat ∧ n < 1024 ∧ s.cmd.evqIrqEn = false) ∧
    (∃ (src : Iface) (s : State) (n : Nat), Sound s ∧ Accesses src 0x108004 s ∧ (s.cmd.wr - s.cmd.rd).toNat < (s.cmd.wr -
      BitVec.ofNat 10 n).toNat ∧ n < 1024) ∧
    (∃ (dt : Nat) (s : State) (e : Event), Sound s ∧ s.cmd.evqIrqEn = true ∧ s.cmd.evqHold ≠ 0 ∧ 0 < unread s.cmd ∧ unread s.cmd <
      threshOf s.cmd ∧ tblGet s.cmd.ring s.cmd.rd.toNat = some e ∧ e.raised = false ∧ e.clk + usT (10 * s.cmd.evqHold.toNat) ≤
      s.clk + dt) ∧
    (∃ (s : State), Sound s ∧ s.cmd.evqHold = 0) := by
  refine ⟨
    ⟨Iface.spi, up, (7 : Fin 8), ?_⟩,
    ⟨Iface.spi, onMbx (fun m => { m with ring := true }), (7 : Fin 8), ?_⟩,
    ⟨Iface.lb, up, (7 : Fin 8), ?_⟩,
    ⟨Iface.lb, onMbx (fun m => { m with lock := some 0x400 }), (7 : Fin 8), (0x400 : BitVec 12), ?_⟩,
    ⟨Iface.lb, onMbx (fun m => { m with lock := some 0x400 }), (7 : Fin 8), ?_⟩,
    ⟨Iface.lb, onMbx (fun m => { m with lock := some 0x400 }), (7 : Fin 8), (0x400 : BitVec 12), (1 : BitVec 32), ?_⟩,
    ⟨Iface.pcie, onMbx (fun m => { m with ring := true }), (7 : Fin 8), ?_⟩,
    ⟨Iface.pcie, onMbx (fun m => { m with opcode := 0x1234 }), (7 : Fin 8), ?_⟩,
    ⟨Iface.pcie, up, (7 : Fin 8), ?_⟩,
    ⟨Iface.pcie, onCmd (fun c => { c with rd := 1020, wr := 1023 }), (1023 : Nat), ?_⟩,
    ⟨Iface.pcie, up, (1023 : Nat), ?_⟩,
    ⟨usT 10, onCmd (fun c => { c with evqIrqEn := true, evqHold := 1, evqThresh := 2, wr := 1, ring := [(0, event1)] }), event1,
      ?_⟩,
    ⟨up, ?_⟩⟩
  all_goals (try simp only [accesses_iff, sound_iff])
  all_goals decide +kernel

/-- What `Obligations.HostAccessCommandsComplete` supposes can be met, clause by clause. -/
theorem test_met_hostAccessCommandsComplete :
    (∃ (src : Iface) (s : State), Accesses src 0x200000 s ∧ s.flow.opening = true ∧ s.flow.nextOpen = true ∧ s.flow.relPend =
      false ∧ blockRefuses src 0 s = none) ∧
    (∃ (src : Iface) (s : State), Accesses src 0x200000 s ∧ s.flow.opening = true ∧ s.flow.nextOpen = false ∧ s.flow.relPend =
      false ∧ (src ≠ .lb ∨ s.flow.heldWrites = []) ∧ blockRefuses src 0 s = none) ∧
    (∃ (src : Iface) (s : State), Accesses src 0x200000 s ∧ s.flow.opening = true ∧ s.flow.relPend = true ∧ (src ≠ .lb ∨
      s.flow.heldWrites = []) ∧ blockRefuses src 0 s = none) ∧
    (∃ (src : Iface) (s : State) (l : Nat), Accesses src 0x200000 s ∧ s.flow.opening = true ∧ (src ≠ .lb ∨ s.flow.heldWrites = [])
      ∧ blockRefuses src 0 s = some l) ∧
    (∃ (s : State) (off : _), off < 0x10000 ∧ ifaceOpen .lb s = true ∧ s.flow.opening = true ∧ s.flow.nextOpen = false ∧
      s.flow.heldWrites ≠ []) ∧
    (∃ (src : Iface) (s : State) (off : Nat), off < 0x10000 ∧ Accesses src (0x210000 + off) s) ∧
    (∃ (dt : Nat) (s : State), Accesses .pcie 0x220000 s ∧ s.flow.relPend = false ∧ s.flow.relMask = 0x3 ∧ s.flow.release = 0 ∧
      pairReleased 0 (begin_ dt s) = false) ∧
    (∃ (s : State), Accesses .pcie 0x220000 s ∧ s.flow.relPend = false ∧ s.flow.relMask = 0x1 ∧ s.flow.release = 0) ∧
    (∃ (src : Iface) (s : State), Accesses src 0x220000 s ∧ s.flow.relPend = true) ∧
    (∃ (s : State) (l : Fin 4), Accesses (.pair l) 0x220000 s ∧ s.flow.relPend = false ∧ s.flow.relMask = 0x1 ∧ s.flow.release =
      0) ∧
    (∃ (src : Iface) (s : State) (v : BitVec 32), Accesses src 0x220004 s ∧ isPair src = false ∧ v.toNat % 32 ≠ 0) ∧
    (∃ (src : Iface) (s : State) (v : BitVec 32), Accesses src 0x220004 s ∧ v.toNat % 32 = 0) ∧
    (∃ (src : Iface) (s : State), Accesses src 0x400000 s) ∧
    (∃ (src : Iface) (s : State) (b : List Byte), Accesses src 0x400004 s ∧ s.shadows = [(src, 0x400000, b)]) ∧
    (∃ (src : Iface) (s : State), Accesses src 0x8024 s) ∧
    (∃ (src : Iface) (s : State), Accesses src 0x108008 s) ∧
    (∃ (s : State) (a : LbAccess), ifaceOpen .lb s = true ∧ a.abandon = false ∧ a.be = 0) ∧
    (∃ (s : State) (a : LbAccess) (d : BitVec 16), ifaceOpen .lb s = true ∧ a.abandon = true ∧ a.wdata = some d) ∧
    (∃ (s : State) (a : LbAccess), ifaceOpen .lb s = true ∧ a.abandon = false ∧ a.be = 3 ∧ a.lock = false ∧ a.wdata = none ∧ a.off
      = 0x8024 ∧ s.bridge.lbPage = 0) ∧
    (∃ (s : State) (n : Nat), ifaceOpen .pcie s = true ∧ n % 4 ≠ 0) ∧
    (∃ (s : State), ifaceOpen .pcie s = true) ∧
    (∃ (s : State), ifaceOpen .spi s = true) ∧
    (∃ (s : State), ifaceOpen .spi s = true) ∧
    (∃ (src : Iface) (s : State) (a : Nat) (n : Nat), Accesses src a s ∧ widthOk a n = false) ∧
    (∃ (src : Iface) (s : State) (a : Nat) (n : Nat), Accesses src a s ∧ widthOk a n = false) ∧
    (∃ (src : Iface) (s : State) (a : Nat), Accesses src a s ∧ blockAt a = .none_) ∧
    (∃ (src : Iface) (s : State) (a : Nat), Accesses src a s ∧ blockAt a = .none_) ∧
    (∃ (src : Iface) (s : State) (v : BitVec 32), Accesses src 0x8040 s ∧ isPair src = false ∧ (mbxOf s 0).lock = some (ownerTag
      src s) ∧ v = 0) := by
  refine ⟨
    ⟨Iface.pcie, onFlow (fun w => { w with opening := true, nextOpen := true }), ?_⟩,
    ⟨Iface.pcie, onFlow (fun w => { w with opening := true, nextOpen := false }), ?_⟩,
    ⟨Iface.pcie, onFlow (fun w => { w with opening := true, relPend := true }), ?_⟩,
    ⟨Iface.pcie, modPair 3 (fun p => { p with cfg := { p.cfg with classes := 2 } }) (modFlow (fun w =>
      { w with opening := true, nextOpen := true, ctx := [(0, { prodCtx with svc := 1 })] }) (lockedPair 3)), (3 : Nat), ?_⟩,
    ⟨onFlow (fun w => { w with opening := true, heldWrites := [(.lb, 0, [1])] }), 3, ?_⟩,
    ⟨Iface.pcie, up, (0xFFFF : Nat), ?_⟩,
    ⟨0, modFlow (fun w => { w with relMask := 3 }) (lockedPair 0), ?_⟩,
    ⟨onFlow (fun w => { w with relMask := 1 }), ?_⟩,
    ⟨Iface.pcie, onFlow (fun w => { w with relPend := true }), ?_⟩,
    ⟨modPair 3 (fun p => { p with st := .split }) (onFlow (fun w => { w with relMask := 1 })), (3 : Fin 4), ?_⟩,
    ⟨Iface.pcie, up, (31 : BitVec 32), ?_⟩,
    ⟨Iface.pcie, up, (32 : BitVec 32), ?_⟩,
    ⟨Iface.pcie, up, ?_⟩,
    ⟨Iface.pcie, { up with shadows := [(.pcie, 0x400000, [1, 2, 3, 4, 5, 6, 7, 8, 9, 10, 11, 12])] }, ([1, 2, 3, 4, 5, 6, 7, 8, 9,
      10, 11, 12] : List Byte), ?_⟩,
    ⟨Iface.spi, up, ?_⟩,
    ⟨Iface.spi, up, ?_⟩,
    ⟨up, ({ lbRead with be := 0 } : LbAccess), ?_⟩,
    ⟨up, ({ lbRead with abandon := true, wdata := some 5 } : LbAccess), (5 : BitVec 16), ?_⟩,
    ⟨up, lbRead, ?_⟩,
    ⟨up, (3 : Nat), ?_⟩,
    ⟨up, ?_⟩,
    ⟨up, ?_⟩,
    ⟨up, ?_⟩,
    ⟨Iface.pcie, up, (0x8002 : Nat), (4 : Nat), ?_⟩,
    ⟨Iface.pcie, up, (0x8002 : Nat), (4 : Nat), ?_⟩,
    ⟨Iface.pcie, up, (0x8060 : Nat), ?_⟩,
    ⟨Iface.pcie, up, (0x8060 : Nat), ?_⟩,
    ⟨Iface.lb, modMbx 0 (fun m => { m with lock := some 0x400 }) up, (0 : BitVec 32), ?_⟩⟩
  all_goals (try simp only [accesses_iff])
  all_goals decide +kernel

/-- What `Obligations.EventQueueFullLoses` supposes can be met, clause by clause. -/
theorem test_met_eventQueueFullLoses :
    (∃ (s : State), queueFull s.cmd = true) ∧
    (∃ (s : State), queueFull s.cmd = false) := by
  refine ⟨
    ⟨onCmd (fun c => { c with wr := 1023 }), ?_⟩,
    ⟨up, ?_⟩⟩
  all_goals decide +kernel

/-- What `Obligations.EventsAreNumberedAndRecorded` supposes can be met, clause by clause. -/
theorem test_met_eventsAreNumberedAndRecorded :
    (∃ (code : Nat) (s : State), BitVec.ofNat 16 code ∈ s.cmd.mask) ∧
    (∃ (code : Nat) (s : State), BitVec.ofNat 16 code ∉ s.cmd.mask ∧ queueFull s.cmd = false) := by
  refine ⟨
    ⟨(0x0101 : Nat), onCmd (fun c => { c with mask := [0x0101] }), ?_⟩,
    ⟨(0x0101 : Nat), up, ?_⟩⟩
  all_goals decide +kernel

/-- What `Obligations.ReadIndexNeverMovesBack` supposes can be met, clause by clause. -/
theorem test_met_readIndexNeverMovesBack :
    (∃ (src : Iface) (v : BitVec 32) (s : State), Accesses src 0x108004 s ∧ (isPair src = true ∨ (s.cmd.wr - s.cmd.rd).toNat <
      (s.cmd.wr - BitVec.ofNat 10 v.toNat).toNat)) ∧
    (∃ (src : Iface) (v : BitVec 32) (s : State), Accesses src 0x108004 s ∧ isPair src = false ∧ (s.cmd.wr - BitVec.ofNat 10
      v.toNat).toNat ≤ (s.cmd.wr - s.cmd.rd).toNat) := by
  refine ⟨
    ⟨Iface.lb, (1 : BitVec 32), up, ?_⟩,
    ⟨Iface.lb, (0 : BitVec 32), up, ?_⟩⟩
  all_goals (try simp only [accesses_iff])
  all_goals decide +kernel

/-- What `Obligations.CurrentWindowIsReadOnly` supposes can be met, clause by clause. -/
theorem test_met_currentWindowIsReadOnly :
    (∃ (off : Nat), off < 0x10000) := by
  refine ⟨(0xFFFF : Nat), ?_⟩
  decide +kernel

/-- What `Obligations.MemoryReadsBack` supposes can be met, clause by clause. -/
theorem test_met_memoryReadsBack :
    (∃ (m : Mem), Memory.wf m = true) ∧
    (∃ (m : Mem), Memory.wf m = true) ∧
    (∃ (m : Mem), Memory.wf m = true) := by
  refine ⟨
    ⟨([(3, 1)] : Mem), ?_⟩,
    ⟨([(3, 1)] : Mem), ?_⟩,
    ⟨([(3, 1)] : Mem), ?_⟩⟩
  all_goals decide +kernel

/-- A request from a remote initiator. -/
def fromAfar : Ring := { mbx := 7, src := .remote 0x020 60, tag := 5, req := List.replicate 12 0, flashFail := none }

/-! ## The witnesses that need the request of a command, or its next state -/

/-- What `Obligations.RingsRefused` supposes can be met: a ring of a busy mailbox, of one another party has locked, and the
same by a doorbell. -/
theorem test_met_ringsRefused :
    (∃ (i : Instr) (sp : CmdSpec) (dt : Nat) (r : Ring) (s : State), requestOf i = some (sp, dt, r) ∧
      mayRing r.src (begin_ dt s) = true ∧ (mbxOf s r.mbx).ring = true) ∧
    (∃ (i : Instr) (sp : CmdSpec) (dt : Nat) (r : Ring) (s : State), requestOf i = some (sp, dt, r) ∧ Sound s ∧
      mayRing r.src (begin_ dt s) = true ∧ lockAllows r.mbx r.src s = false ∧ (mbxOf s r.mbx).ring = false ∧
      s.sys.resetPending = none) ∧
    (∃ (n : Fin 8) (src : Iface) (s : State), Sound s ∧ Accesses src (0x8000 + 4 * n.val) s ∧ isPair src = false ∧
      (mbxOf s n).ring = true ∧ (mbxOf s n).irqEn = false ∧ (mbxOf s n).vector = 0) ∧
    (∃ (n : Fin 8) (src : Iface) (s : State), Sound s ∧ Accesses src (0x8000 + 4 * n.val) s ∧ isPair src = false ∧
      lockAllows n src s = false ∧ (mbxOf s n).irqEn = false ∧ (mbxOf s n).vector = 0) := by
  refine ⟨
    ⟨.sysNop 0 { q [] with mbx := 7 }, sysNopSpec, 0, { q [] with mbx := 7 }, onMbx (fun m => { m with ring := true }), rfl, ?_⟩,
    ⟨.sysNop 0 { q [] with mbx := 7 }, sysNopSpec, 0, { q [] with mbx := 7 }, onMbx (fun m => { m with lock := some 0x400 }),
      rfl, ?_⟩,
    ⟨7, .pcie, onMbx (fun m => { m with ring := true }), ?_⟩, ⟨7, .pcie, onMbx (fun m => { m with lock := some 0x400 }), ?_⟩⟩
  all_goals (try simp only [sound_iff, accesses_iff])
  all_goals decide +kernel

/-- What `Obligations.RequestChecksInOrder` supposes can be met, for each check: an interface that may not ring, a remote
request of a command that takes none, a wrong length, a reserved byte that is set, and a command before the node is ready. -/
theorem test_met_requestChecksInOrder :
    (∃ (i : Instr) (sp : CmdSpec) (dt : Nat) (r : Ring) (s : State), requestOf i = some (sp, dt, r) ∧
      s.sys.resetPending = none ∧ mayRing r.src (begin_ dt s) = false) ∧
    (∃ (i : Instr) (sp : CmdSpec) (dt : Nat) (r : Ring) (s : State), requestOf i = some (sp, dt, r) ∧
      s.sys.resetPending = none ∧ Sound s ∧ mayRing r.src (begin_ dt s) = true ∧ (mbxOf s r.mbx).ring = false ∧
      lockAllows r.mbx r.src s = true ∧ (sp.noRemote && isRemote r.src) = true) ∧
    (∃ (i : Instr) (sp : CmdSpec) (dt : Nat) (r : Ring) (s : State), requestOf i = some (sp, dt, r) ∧
      s.sys.resetPending = none ∧ Sound s ∧ mayRing r.src (begin_ dt s) = true ∧ (mbxOf s r.mbx).ring = false ∧
      lockAllows r.mbx r.src s = true ∧ (sp.noRemote && isRemote r.src) = false ∧ lengthOk sp r.req = false) ∧
    (∃ (i : Instr) (sp : CmdSpec) (dt : Nat) (r : Ring) (s : State) (off : Nat), requestOf i = some (sp, dt, r) ∧
      s.sys.resetPending = none ∧ Sound s ∧ mayRing r.src (begin_ dt s) = true ∧ (mbxOf s r.mbx).ring = false ∧
      lockAllows r.mbx r.src s = true ∧ (sp.noRemote && isRemote r.src) = false ∧ lengthOk sp r.req = true ∧
      reservedSet sp.resv r.req = some off) ∧
    (∃ (i : Instr) (sp : CmdSpec) (dt : Nat) (r : Ring) (s : State), requestOf i = some (sp, dt, r) ∧
      s.sys.resetPending = none ∧ Sound s ∧ mayRing r.src (begin_ dt s) = true ∧ (mbxOf s r.mbx).ring = false ∧
      lockAllows r.mbx r.src s = true ∧ checkRequest sp r.src r.req = none ∧ s.sys.ready = false ∧
      startAllowed sp.opcode = false) := by
  refine ⟨
    ⟨.sysNop 0 (q []), sysNopSpec, 0, q [], State.reset, rfl, ?_⟩,
    ⟨.timeSet 0 fromAfar, timeSetSpec, 0, fromAfar, up, rfl, ?_⟩,
    ⟨.sysIdentity 0 (q [0, 0, 0]), sysIdentitySpec, 0, q [0, 0, 0], up, rfl, ?_⟩,
    ⟨.sysIdentity 0 (q [0, 0, 0, 1]), sysIdentitySpec, 0, q [0, 0, 0, 1], up, 3, rfl, ?_⟩,
    ⟨.sysReset 0 (q [0x96, 0x48, 0, 0]), sysResetSpec, 0, q [0x96, 0x48, 0, 0], starting 6, rfl, ?_⟩⟩
  all_goals (try simp only [sound_iff])
  all_goals decide +kernel

/-- What `Obligations.ErrorsHaveNoEffect` supposes can be met: a request of a wrong length, answered with an error. -/
theorem test_met_errorsHaveNoEffect :
    ∃ (i : Instr) (sp : CmdSpec) (dt : Nat) (r : Ring) (s t : State), requestOf i = some (sp, dt, r) ∧ Sound s ∧
      mayRing r.src (begin_ dt s) = true ∧ (mbxOf s r.mbx).ring = false ∧ s.sys.resetPending = none ∧
      lockAllows r.mbx r.src s = true ∧ exec i s = .next t ∧ (mbxOf t r.mbx).state = 2 ∧
      0x0100 ≤ (mbxOf t r.mbx).status.toNat := by
  obtain ⟨t, h, hb⟩ := next_of (o := exec (.sysIdentity 0 (q [0, 0, 0])) up)
    (P := fun t => decide ((mbxOf t 1).state = 2 ∧ 0x0100 ≤ (mbxOf t 1).status.toNat)) (by decide +kernel)
  have hb := of_decide_eq_true hb
  exact ⟨.sysIdentity 0 (q [0, 0, 0]), sysIdentitySpec, 0, q [0, 0, 0], up, t, rfl, by rw [sound_iff]; decide +kernel,
    by decide +kernel, by decide +kernel, by decide +kernel, by decide +kernel, h, hb.1, hb.2⟩

/-- What `Obligations.ErrorsHaveNoEffect` says of a full command queue supposes 32 queued commands, and a sound state can
have them. -/
theorem test_met_queue_of_commands_full :
    ∃ s : State, Sound s ∧ mayRing .pcie (begin_ 0 s) = true ∧ 32 ≤ s.cmd.queued.length := by
  refine ⟨onCmd (fun c => { c with queued := List.replicate 32 (queued 0x0504) }), ?_⟩
  rw [sound_iff]
  decide +kernel

/-- What `Obligations.EveryStepKeepsSound` supposes can be met. -/
theorem test_met_everyStepKeepsSound : ∃ s t : State, Sound s ∧ step s = .next t := by
  obtain ⟨t, h, -⟩ := next_of (o := step { up with pending := [.sysNop 0 (q [])] }) (P := fun _ => true) (by decide +kernel)
  exact ⟨{ up with pending := [.sysNop 0 (q [])] }, t, by rw [sound_iff]; decide +kernel, h⟩

/-- What the seven statements on frames suppose can be met: a command of each that answers a next state, and a frame that is
not one of another channel's (`Obligations.CanAndMvbFrames`). -/
theorem test_met_frames :
    ((exec (.resumeEntry 0 3) (portLosing 3 .up .ndoelle) matches .next _) = true) ∧
    ((exec (.tcxoStop 0) lone matches .next _) = true) ∧ ((exec (.checkerFault 0 3) (lockedPair 3) matches .next _) = true) ∧
    ((exec (.canFrameRx 0 11 canFrame1 false) (onCan id) matches .next _) = true ∧ canForeign (canOf (onCan id) 11) canFrame1 = false) ∧
    ((exec (.consistFrameRx 0 eth1) (onSw id) matches .next _) = true) ∧ ((exec (.thermalChange 0 0 0) up matches .next _) = true) ∧
    ((exec (.mbxLockRead 0 .lb 7) up matches .next _) = true) ∧ ((exec (.sysNop 0 (q [1])) up matches .next _) = true) := by
  decide +kernel

/-- What the last clause of `Obligations.MemoryReadsBack` supposes can be met. -/
theorem test_met_memory_extensional :
    ∃ m n : Mem, Memory.wf m = true ∧ Memory.wf n = true ∧ ∀ a, memGet m a = memGet n a :=
  ⟨[(3, 1)], [(3, 1)], by decide, by decide, fun _ => rfl⟩

/-! ## Ill-formed commands are refused

One ill-formed term for each check of `WellFormed.lean`, and a well-formed neighbour of it. -/

/-- A vehicle record. -/
def veh1 : VehRec := { pos := 1, flags := 1, slots := 0, vid := 7, wtbAddr := 0, uidA := 1, uidB := 0 }

/-- R549: a request of 4,065 bytes. -/
theorem test_wf_ring : (Instr.sysNop 0 (q (List.replicate 4065 0))).wellFormed = false ∧
    (Instr.sysNop 0 (q (List.replicate 4064 0))).wellFormed = true := by decide +kernel

/-- R100: positions 0 and 65, and 33 records in one frame. -/
theorem test_wf_directory :
    (Directory.mk 0 0 0 0 [{ veh1 with pos := 0 }]).wellFormed = false ∧
    (Directory.mk 0 0 0 0 [{ veh1 with pos := 65 }]).wellFormed = false ∧
    (Instr.directoryRx 0 0 { dirFrame1 false with records := List.replicate 33 veh1 }).wellFormed = false ∧
    (Instr.directoryRx 0 0 { dirFrame1 false with vehicleCount := 65 }).wellFormed = false ∧
    (Instr.mergeReportRx 0 0 { merge1 beacon1 with dir := { dir1 with vehicles := List.replicate 65 veh1 } }).wellFormed = false ∧
    (Instr.directoryRx 0 0 (dirFrame1 false)).wellFormed = true ∧
    (Instr.mergeReportRx 0 0 (merge1 beacon1)).wellFormed = true := by decide +kernel

/-- R605, R610: the steps 0 and 8, and area 13. -/
theorem test_wf_stepResult :
    (Instr.startStepComplete 0 (stepEnd 0 true)).wellFormed = false ∧
    (Instr.startStepComplete 0 (stepEnd 8 true)).wellFormed = false ∧
    (Instr.startStepComplete 0 { stepEnd 6 true with corrupt := [13] }).wellFormed = false ∧
    (Instr.startStepComplete 0 { stepEnd 7 true with corrupt := [12] }).wellFormed = true := by decide +kernel

/-- R162: a poll vector of 1,025 entries. -/
theorem test_wf_opening :
    (Instr.openingFrameRx 0 0 { opening1 with poll := List.replicate 1025 false } 0 .good).wellFormed = false ∧
    (Instr.fabricTickRx 0 0 { ftick false with frame := { opening1 with poll := List.replicate 1025 false } } 0 0).wellFormed = false ∧
    (Instr.openingFrameRx 0 0 { opening1 with poll := List.replicate 1024 false } 0 .good).wellFormed = true := by decide +kernel

/-- A frame leaves after entry 4,095 of the schedule at most, and once on each port. -/
theorem test_wf_sends :
    (Instr.scheduledSend 0 4096 []).wellFormed = false ∧ (Instr.scheduledSend 0 0 [1, 1]).wellFormed = false ∧
    (Instr.sporadicAbort 0 [2, 2]).wellFormed = false ∧ (Instr.scheduledSend 0 4095 [1, 2]).wellFormed = true := by
  decide +kernel

/-- R279, R304: LEN that is not the payload's, a payload that is too long, and session frames of no kind or too long. -/
theorem test_wf_frames :
    (Instr.flowFrameRx 0 (.fabric false) { flow1 1 with len := 3 } .good).wellFormed = false ∧
    (Instr.flowFrameRx 0 (.fabric false) { flow1 1 with len := 1473, payload := List.replicate 1473 0 } .good).wellFormed = false ∧
    (Instr.flowFrameRx 0 (.fabric false) (flow1 1) .good).wellFormed = true ∧
    (Instr.proxyFrameRx 0 2 4096 (flow1 1)).wellFormed = false ∧
    (Instr.proxyFrameRx 0 2 1 { flow1 1 with len := 3 }).wellFormed = false ∧
    (Instr.sessionFrameRx 0 none (sframe 0)).wellFormed = false ∧ (Instr.sessionFrameRx 0 none (sframe 5)).wellFormed = false ∧
    (Instr.sessionFrameRx 0 none { sframe 1 with payload := List.replicate 1441 0 }).wellFormed = false ∧
    (Instr.sessionFrameRx 0 none (sframe 4)).wellFormed = true := by decide +kernel

/-- R345, R346: items of a wrong number or size, streams 0 and 4, and a commit with items. -/
theorem test_wf_racking :
    (RackItem.ctx 512 0 0 0).wellFormed = false ∧ (RackItem.block 1024 (List.replicate 64 0)).wellFormed = false ∧
    (RackItem.block 1023 (List.replicate 63 0)).wellFormed = false ∧ (RackItem.page 4096 (List.replicate 4096 0)).wellFormed = false ∧
    (RackItem.page 4095 (List.replicate 4095 0)).wellFormed = false ∧
    (Instr.rackingFrameRx 0 (rack1 false [.ctx 512 0 0 0])).wellFormed = false ∧
    (Instr.rackingFrameRx 0 { rack1 false [] with stream := 0 }).wellFormed = false ∧
    (Instr.rackingFrameRx 0 { rack1 false [] with stream := 4 }).wellFormed = false ∧
    (Instr.rackingFrameRx 0 { rack1 true [] with items := [item1] }).wellFormed = false ∧
    (Instr.rackingFrameRx 0 (rack1 false [item1])).wellFormed = true ∧
    (Instr.copyOnWrite 0 4096 0 []).wellFormed = false ∧ (Instr.copyOnWrite 0 1 4095 [1, 2]).wellFormed = false ∧
    (Instr.copyOnWrite 0 4095 4094 [1, 2]).wellFormed = true := by decide +kernel

/-- A base identifier of 12 bits, 9 bytes in a classic frame, a slave frame of 3 bytes, and an empty consist frame. -/
theorem test_wf_buses :
    (Instr.canFrameRx 0 3 { canFrame1 with id := 2048 } false).wellFormed = false ∧
    (Instr.canFrameRx 0 3 { canFrame1 with id := 2047, data := List.replicate 9 0 } false).wellFormed = false ∧
    (Instr.canFrameRx 0 3 { canFrame1 with id := 2047 } false).wellFormed = true ∧
    (Instr.mvbSlaveFrameRx 0 1 { dataA := some [1, 2, 3], dataB := none, invalidA := false, invalidB := false, firstB := false }).wellFormed
      = false ∧
    (Instr.mvbSlaveFrameRx 0 1 { dataA := some [1, 2], dataB := none, invalidA := false, invalidB := false, firstB := false }).wellFormed
      = true ∧
    (Instr.consistFrameRx 0 { eth1 with len := 0 }).wellFormed = false ∧ (Instr.consistFrameRx 0 eth1).wellFormed = true := by
  decide +kernel

/-- R505, R510, R511, R518, R528: the sizes of what fabric and bridge frames carry. -/
theorem test_wf_fabric :
    (Instr.fabricBeaconRx 0 1 { fbeacon 7 with cost := List.replicate 17 0 }).wellFormed = false ∧
    (Instr.fabricBeaconRx 0 1 { fbeacon 7 with table := List.replicate 15 0 }).wellFormed = false ∧
    (Instr.fabricBeaconRx 0 1 (fbeacon 7)).wellFormed = true ∧
    (Instr.fabricReportRx 0 none { freport with uids := List.replicate 15 0 }).wellFormed = false ∧
    (Instr.fabricReportRx 0 none freport).wellFormed = true ∧
    (Instr.fabricSubscribeRx 0 3 (List.replicate 513 1)).wellFormed = false ∧
    (Instr.fabricSubscribeRx 0 3 (List.replicate 512 1)).wellFormed = true ∧
    (Instr.bridgeRequestRx 0 none (bframe 0) false).wellFormed = false ∧ (Instr.bridgeRequestRx 0 none (bframe 6) false).wellFormed = false ∧
    (Instr.bridgeRequestRx 0 none { bframe 1 with len := 6 } false).wellFormed = false ∧
    (Instr.bridgeRequestRx 0 none { bframe 1 with len := 260 } false).wellFormed = false ∧
    (Instr.bridgeResponseRx 0 none { bframe 1 with data := List.replicate 257 0 }).wellFormed = false ∧
    (Instr.bridgeRequestRx 0 none (bframe 1) false).wellFormed = true ∧
    (Instr.fabricFrameRx 0 0 (fframe 0 5 2)).wellFormed = true := by decide +kernel

/-- R511: what a fabric frame carries is well formed itself. -/
theorem test_wf_fabricPayload :
    (FabricPayload.flow false { flow1 1 with len := 3 }).wellFormed = false ∧
    (FabricPayload.proxy 4096 (flow1 1)).wellFormed = false ∧ (FabricPayload.bridge false (bframe 0)).wellFormed = false ∧
    (FabricPayload.subscribe (List.replicate 513 1)).wellFormed = false ∧
    (FabricPayload.dir { dirFrame1 false with vehicleCount := 65 }).wellFormed = false ∧
    (FabricPayload.session (sframe 0)).wellFormed = false ∧ (FabricPayload.eth { eth1 with len := 0 }).wellFormed = false ∧
    (Instr.fabricFrameRx 0 0 { fframe 0 5 2 with payload := .subscribe (List.replicate 513 1) }).wellFormed = false := by
  decide +kernel

/-- R580: accesses that leave their window or the map, of no byte, or with data of another length. -/
theorem test_wf_accesses :
    (Instr.remoteWindowRead 0 .pcie 0 0 513).wellFormed = false ∧ (Instr.remoteWindowRead 0 .pcie 0 0 0).wellFormed = false ∧
    (Instr.remoteWindowWrite 0 .pcie 0 0 []).wellFormed = false ∧
    (Instr.remoteWindowWrite 0 .pcie 0 0 (List.replicate 257 0)).wellFormed = false ∧
    (Instr.mailboxWrite 0 .pcie 0 4095 [1, 2]).wellFormed = false ∧ (Instr.mailboxWrite 0 .pcie 0 4094 [1, 2]).wellFormed = true ∧
    (Instr.nextWindowWrite 0 .pcie 65535 [1, 2]).wellFormed = false ∧
    (Instr.currentWindowWrite 0 .pcie 65535 [1, 2]).wellFormed = false ∧
    (Instr.nextWindowWrite 0 .pcie 65535 [1]).wellFormed = true ∧
    (Instr.multiRegisterLatchRead 0 .pcie 0x03003FFE).wellFormed = false ∧ (Instr.rcFieldRead 0 .pcie 0x03003FFE).wellFormed = false ∧
    (Instr.registerWrite 0 .pcie 0x03003FFE 0).wellFormed = false ∧ (Instr.registerWrite 0 .pcie 0x03003FFC 0).wellFormed = true := by
  decide +kernel

/-- R525, R580: lengths and data that do not agree. -/
theorem test_wf_transfers :
    (Instr.pcieMultiDwordRequest 0 0x03003FFC 8 none).wellFormed = false ∧
    (Instr.pcieMultiDwordRequest 0 0 8 (some [1, 2])).wellFormed = false ∧
    (Instr.spiTransfer 0 0 2 (some [1, 2])).wellFormed = false ∧ (Instr.spiTransfer 0 0x03003FFC 2 none).wellFormed = false ∧
    (Instr.unalignedAccess 0 .pcie 1 4 (some [1, 2])).wellFormed = false ∧
    (Instr.unmappedAccess 0 .pcie 0x8060 4 (some [1, 2])).wellFormed = false ∧
    (Instr.pcieMultiDwordRequest 0 0 8 none).wellFormed = true ∧ (Instr.unalignedAccess 0 .pcie 1 2 (some [1, 2])).wellFormed = true := by
  decide +kernel

/-! ## Single steps

The values are read off the rules named, not off the model. -/

/-- A check of the state after one step. -/
def after (s : State) (c : Instr) (p : State → Bool) : Bool :=
  match step { s with pending := c :: s.pending } with
  | .next t => p t
  | _ => false

/-- With no command waiting the block idles (log 1). -/
theorem test_step_idle : step up = .next up := rfl

/-- R605: power-good begins the start at step 0x1, with the node not ready. -/
theorem test_powerGood : after State.reset (.powerGood 0 pg)
    (fun t => t.sys.powered && t.sys.step == 1 && !t.sys.ready && t.pending.isEmpty) = true := by decide +kernel

/-- R573, R553: SYS_NOP returns the request bytes, TAG and DONE. -/
theorem test_sysNop : after up (.sysNop 0 (q [9, 8, 7]))
    (fun t => (mbxOf t 1).done && !(mbxOf t 1).ring && (mbxOf t 1).status == 0 && (mbxOf t 1).rspLen == 3 &&
      (mbxOf t 1).tag == 5 && memGet (mbxOf t 1).payload 0 == 9 && memGet (mbxOf t 1).payload 2 == 7 &&
      t.cmd.nextSeq == up.cmd.nextSeq + 1) = true := by decide +kernel

/-- R555: a request of the wrong length is answered BAD_LENGTH with the length the command takes. -/
theorem test_wrong_length : after up (.sysIdentity 0 (q [0, 0, 0]))
    (fun t => (mbxOf t 1).status == 0x0101 && (mbxOf t 1).detail == 4) = true := by decide +kernel

/-- R547: a read of a free lock returns 0 and takes it for the reader. -/
theorem test_lock_taken : after up (.mbxLockRead 0 .lb 7)
    (fun t => t.emit == [.readData .lb [0, 0, 0, 0]] && (mbxOf t 7).lock == some 0x400) = true := by decide +kernel

/-- R535: a write of 0 by the owner frees a semaphore. -/
theorem test_semaphore_freed :
    after (onBridge (fun b => { b with sems := updAt b.sems 31 (fun _ => some semLb) })) (.fabSemWrite 0 .lb 31 0)
      (fun t => (semOf t 31).isNone) = true := by decide +kernel

/-- R498: a frame out of sequence is not taken. -/
theorem test_fabric_sequence : after (linkUp 0) (.fabricFrameRx 0 0 (fframe 9 5 2)) (fun t => (fabOf t 0).rxSeq == 0) = true := by
  decide +kernel

/-- R591: a write of PDI_RELEASE bit 0 sets it. -/
theorem test_release : after up (.pdiReleaseHost 0 .pcie 1) (fun t => t.flow.release.getLsbD 0) = true := by decide +kernel

/-! ## Layouts -/

/-- The worked example of 06, a safe frame byte by byte. -/
def flowExample : FlowFrame where
  source := 0
  flowId := 0x0117
  gen := 0x0108
  claim := 0x200058A2
  seq := 0x38373635
  fresh := 0x00C4
  safe := true
  island := false
  srcAddr := 0x051
  len := 1
  safety := 0xE3069283
  payload := [0x39]
  sec := none

/-- Its code, and its bytes from offset 18. -/
theorem test_flow_bytes :
    safetyCode 0x34333231 flowExample.seq flowExample.payload = flowExample.safety ∧
    (flowBytes 0x88B5 flowExample).length = 64 ∧
    ((flowBytes 0x88B5 flowExample).drop 18).take 42 =
      [0x17, 0x01, 0x08, 0x01, 0xA2, 0x58, 0x00, 0x20, 0x35, 0x36, 0x37, 0x38, 0xC4, 0x00, 0x01, 0x00, 0x51, 0x00, 0x01, 0x00,
       0x83, 0x92, 0x06, 0xE3, 0x39] ++ List.replicate 17 0 := by decide +kernel

/-- R94, R107, R162, R331: the lengths of a beacon, the inauguration block, an opening frame and a heartbeat's body. -/
theorem test_lengths :
    (beaconBytes beacon1).length = 104 ∧ (inaugBytes opening1.inaug).length = 40 ∧ (openingBytes 0x88B5 opening1).length = 208 ∧
    (heartbeatBytes hb2).length = 40 := by decide +kernel

/-- R162: the header of an opening frame of the reference-end node. -/
theorem test_opening_header :
    (openingBytes 0x88B5 opening1).take 6 = [0x03, 0x5A, 0xD0, 0x00, 0x00, 0x01] ∧
    ((openingBytes 0x88B5 opening1).drop 14).take 4 = [0x10, 0x01, 186, 0] := by decide +kernel

/-! ## The standards' ciphers

Known answers of FIPS 197 (appendix C.3), NIST SP 800-38B (AES-256) and of the GCM specification (test case 14). -/

/-- AES-256 of one block. -/
theorem test_aes256 :
    aesBlock (roundKeys (List.range 32)) ((List.range 16).map (fun i => 17 * i)) = natBytes 16 0x8ea2b7ca516745bfeafc49904b496089 := by
  decide +kernel

/-- AES-CMAC-256 of one block. -/
theorem test_cmac256 :
    aesCmac (natBytes 32 0x603deb1015ca71be2b73aef0857d77811f352c073b6108d72d9810a30914dff4) (natBytes 16 0x6bc1bee22e409f96e93d7e117393172a) =
      natBytes 16 0x28a7023f452e8f82bd4bf28d8c37c35c := by decide +kernel

/-- GCM-AES-256 of one block. -/
theorem test_gcm256 :
    gcmSeal (List.replicate 32 0) (List.replicate 12 0) [] (List.replicate 16 0) =
      (natBytes 16 0xcea7403d4d606b6e074ec5d3baf39d18, natBytes 16 0xd0d1c8a799996bf0265b98b5d48ab919) := by decide +kernel

end Sys2Proof.Tests
end

section
/-! PROOFS. The waiting commands and the fused identity stay in every state, sound or not. What writes neither the queue nor
the system block is told by the laws on `OnlyWrites`, for the list of all the other blocks (`outside`); what writes the
system block keeps the identity fused in it (`Holds`). -/

namespace Sys2Proof.Machine

/-- Every block but the waiting commands and the system block. -/
def outside : List Block :=
  [.now, .clk, .free, .emit, .mbx, .cmd, .trunk, .ina, .sched, .time, .flow, .twin, .lsk, .can, .mvb, .swc, .fab, .bridge,
   .vec, .pwr, .rep, .shelf, .shadows, .summaries]

@[simp] theorem mem_outside (b : Block) : b ∈ outside ↔ b ≠ .pending ∧ b ≠ .sys := by
  cases b <;> decide

theorem onlyWrites_outside (S s : State) : OnlyWrites outside S s ↔ s.pending = S.pending ∧ s.sys = S.sys := by
  rw [onlyWrites_parts]; simp

/-- `OnlyWrites outside` in terms of the two parts it reads. -/
def SameOwn (S : State) (p : List Instr) (y : Sys) : Prop := p = S.pending ∧ y = S.sys

@[simp] theorem outside_mk (S : State) (p n c fr e sys cmd trunk ina sched time flow twin lsk can mvb swc fab bridge pwr rep
    shelf shadows s1 s2 s3) :
    OnlyWrites outside S (State.mk p n c fr e sys cmd trunk ina sched time flow twin lsk can mvb swc fab bridge pwr rep shelf
      shadows s1 s2 s3) ↔ SameOwn S p sys := onlyWrites_outside _ _

@[simp] theorem outside_fold (S s : State) : SameOwn S s.pending s.sys ↔ OnlyWrites outside S s :=
  (onlyWrites_outside S s).symm

/-- A state with these commands waiting and this system block. -/
def holding (p : List Instr) (y : Sys) : State := { State.reset with pending := p, sys := y }

/-- The state holds the waiting commands and the fused identity `K`: up to what lies outside, it is `holding` them. In this
form the laws on `OnlyWrites` apply to it. -/
@[simp] abbrev Holds (K : Keep) (s : State) : Prop := ∃ y, fusedOf y = K.2 ∧ OnlyWrites outside (holding K.1 y) s

theorem holds_iff (K : Keep) (s : State) : Holds K s ↔ s.pending = K.1 ∧ fusedOf s.sys = K.2 := by
  simp only [Holds, onlyWrites_outside, holding]
  constructor
  · rintro ⟨y, hy, hp, rfl⟩; exact ⟨hp, hy⟩
  · rintro ⟨hp, hf⟩; exact ⟨_, hf, hp, rfl⟩

@[simp] theorem holds_ite (K : Keep) (c : Prop) [Decidable c] (a b : Sys → Prop) :
    (∃ y, fusedOf y = K.2 ∧ if c then a y else b y) ↔
    if c then ∃ y, fusedOf y = K.2 ∧ a y else ∃ y, fusedOf y = K.2 ∧ b y := by split <;> rfl

theorem holds_foldl {α : Type} (K : Keep) (f : State → α → State) (h : ∀ s x, Holds K (f s x) ↔ Holds K s) (l : List α)
    (s : State) : Holds K (l.foldl f s) ↔ Holds K s := by
  induction l generalizing s with
  | nil => rfl
  | cons x xs ih => exact (ih _).trans (h s x)

@[simp] theorem forEach_holds {α : Type} (K : Keep) (l : List α) (f : α → State → State) (s : State)
    (h : ∀ x s, Holds K (f x s) ↔ Holds K s) : Holds K (forEach l f s) ↔ Holds K s :=
  holds_foldl K _ (fun s x => h x s) l s

/-- `Holds` in terms of what it reads. -/
def HoldsParts (K : Keep) (p : List Instr) (f : Fused) : Prop := p = K.1 ∧ f = K.2

/-- `Holds` of a record with a system block of its own, as `outside_mk` leaves it. -/
@[simp] theorem holds_mk (K : Keep) (p : List Instr) (x : Sys) :
    (∃ y, fusedOf y = K.2 ∧ SameOwn (holding K.1 y) p x) ↔ HoldsParts K p (fusedOf x) := by
  simp only [SameOwn, HoldsParts, holding]
  constructor
  · rintro ⟨y, hy, hp, rfl⟩; exact ⟨hp, hy⟩
  · rintro ⟨hp, hf⟩; exact ⟨_, hf, hp, rfl⟩

@[simp] theorem holds_fold (K : Keep) (s : State) : HoldsParts K s.pending (fusedOf s.sys) ↔ Holds K s :=
  (holds_iff K s).symm

end Sys2Proof.Machine
end

section
/-! PROOFS. Operations that write neither the queue nor the system block, for which the laws on `OnlyWrites` stop short: up to
the registration instant and the accesses of the host. -/

namespace Sys2Proof.Machine

/-! ### The shared operations -/

@[simp] theorem raiseLogOnly_outside (S : State) (code : Nat) (param : List Byte) (s : State) :
    OnlyWrites outside S (raiseLogOnly code param s) ↔ OnlyWrites outside S s := by
  unfold raiseLogOnly; simp

/-! ### CAN channels, vehicle bus and switch -/

@[simp] theorem gclAtInstant_outside (S s : State) :
    OnlyWrites outside S (gclAtInstant s) ↔ OnlyWrites outside S s := by
  unfold gclAtInstant; simp

@[simp] theorem peerLost_outside (S : State) (p : Nat) (s : State) :
    OnlyWrites outside S (peerLost p s) ↔ OnlyWrites outside S s := by
  unfold peerLost; simp

@[simp] theorem swApply_outside (S : State) (p : Nat) (c : SwcCfg) (s : State) :
    OnlyWrites outside S (swApply p c s) ↔ OnlyWrites outside S s := by
  unfold swApply; simp

@[simp] theorem swcLoad_outside (S s : State) : OnlyWrites outside S (swcLoad s) ↔ OnlyWrites outside S s := by
  unfold swcLoad; split <;> simp

@[simp] theorem swcNodeReset_outside (S s : State) :
    OnlyWrites outside S (swcNodeReset s) ↔ OnlyWrites outside S s := by
  unfold swcNodeReset; simp

@[simp] theorem canNodeReset_outside (S : State) (c : Nat) (s : State) :
    OnlyWrites outside S (canNodeReset c s) ↔ OnlyWrites outside S s := by
  unfold canNodeReset; simp

@[simp] theorem canRefer_outside (S : State) (c : Nat) (s : State) :
    OnlyWrites outside S (canRefer c s) ↔ OnlyWrites outside S s := by
  unfold canRefer; simp

@[simp] theorem canToSlave_outside (S : State) (c : Nat) (s : State) :
    OnlyWrites outside S (canToSlave c s) ↔ OnlyWrites outside S s := by
  unfold canToSlave; simp

@[simp] theorem canMasterBegin_outside (S : State) (c n : Nat) (whole : Bool) (s : State) :
    OnlyWrites outside S (canMasterBegin c n whole s) ↔ OnlyWrites outside S s := by
  unfold canMasterBegin; simp

@[simp] theorem canAtInstant_outside (S : State) (switch : Bool) (c : Nat) (s0 : State) :
    OnlyWrites outside S (canAtInstant switch c s0) ↔ OnlyWrites outside S s0 := by
  unfold canAtInstant; simp

@[simp] theorem canLinkLoad_outside (S : State) (rd : Nat → Nat → Nat → List Byte) (effective : Bool) (c : Nat)
    (s : State) :
    OnlyWrites outside S (canLinkLoad rd effective c s) ↔ OnlyWrites outside S s := by
  unfold canLinkLoad; simp

@[simp] theorem canRegWrite_outside (S : State) (c off : Nat) (v : BitVec 32) (s : State) :
    OnlyWrites outside S (canRegWrite c off v s) ↔ OnlyWrites outside S s := by
  unfold canRegWrite; dsimp only; (repeat' split) <;> simp

@[simp] theorem canWrite_outside (S : State) (c off : Nat) (v : BitVec 32) (s : State) :
    OnlyWrites outside S (canWrite c off v s) ↔ OnlyWrites outside S s := by
  unfold canWrite; (repeat' split) <;> simp

@[simp] theorem mvbNodeReset_outside (S : State) (g : Nat) (s : State) :
    OnlyWrites outside S (mvbNodeReset g s) ↔ OnlyWrites outside S s := by
  unfold mvbNodeReset; simp

@[simp] theorem mvbLoad_outside (S : State) (g : Nat) (s : State) :
    OnlyWrites outside S (mvbLoad g s) ↔ OnlyWrites outside S s := by
  unfold mvbLoad; split <;> simp

/-! ### Trunk, inauguration, schedule and train time -/

@[simp] theorem cycleSample_outside (S s : State) :
    OnlyWrites outside S (cycleSample s) ↔ OnlyWrites outside S s := by
  unfold cycleSample; simp

@[simp] theorem tioNodeReset_outside (S : State) (n : Nat) (s : State) :
    OnlyWrites outside S (tioNodeReset n s) ↔ OnlyWrites outside S s := by
  unfold tioNodeReset; simp

@[simp] theorem sendLeading_outside (S s : State) :
    OnlyWrites outside S (sendLeading s) ↔ OnlyWrites outside S s := by
  unfold sendLeading; split <;> simp

@[simp] theorem performRemovals_outside (S : State) (due : List Removal) (s : State) :
    OnlyWrites outside S (performRemovals due s) ↔ OnlyWrites outside S s := by
  unfold performRemovals; split <;> simp

@[simp] theorem removalsAtInstant_outside (S s : State) :
    OnlyWrites outside S (removalsAtInstant s) ↔ OnlyWrites outside S s := by
  unfold removalsAtInstant; dsimp only; (repeat' split) <;> simp

@[simp] theorem prepareAddition_outside (S s : State) :
    OnlyWrites outside S (prepareAddition s) ↔ OnlyWrites outside S s := by
  unfold prepareAddition; split <;> simp

@[simp] theorem prepareMerge_outside (S : State) (m : MergeReport) (s : State) :
    OnlyWrites outside S (prepareMerge m s) ↔ OnlyWrites outside S s := by
  unfold prepareMerge; split <;> simp

@[simp] theorem mergeStep_outside (S : State) (m : MergeReport) (p : Prepared) (s : State) :
    OnlyWrites outside S (mergeStep m p s) ↔ OnlyWrites outside S s := by
  unfold mergeStep; simp

@[simp] theorem commitDue_outside (S : State) (fresh : Bool) (s : State) :
    OnlyWrites outside S (commitDue fresh s) ↔ OnlyWrites outside S s := by
  unfold commitDue; split <;> simp

@[simp] theorem firstNodePrepares_outside (S s : State) :
    OnlyWrites outside S (firstNodePrepares s) ↔ OnlyWrites outside S s := by
  unfold firstNodePrepares; (repeat' split) <;> simp

@[simp] theorem sendDirectories_outside (S s : State) :
    OnlyWrites outside S (sendDirectories s) ↔ OnlyWrites outside S s := by
  unfold sendDirectories; dsimp only; (repeat' split) <;> simp

@[simp] theorem repeatBreaks_outside (S s : State) :
    OnlyWrites outside S (repeatBreaks s) ↔ OnlyWrites outside S s := by
  unfold repeatBreaks; simp

@[simp] theorem lacksDirectory_outside (S s : State) :
    OnlyWrites outside S (lacksDirectory s) ↔ OnlyWrites outside S s := by
  unfold lacksDirectory; simp

@[simp] theorem switchAtInstant_outside (S : State) (c : BitVec 32) (s : State) :
    OnlyWrites outside S (switchAtInstant c s) ↔ OnlyWrites outside S s := by
  unfold switchAtInstant; split <;> simp

@[simp] theorem proofCycle_outside (S : State) (mism : Bool) (join : State → State) (s : State)
    (hjoin : ∀ s, OnlyWrites outside S (join s) ↔ OnlyWrites outside S s) :
    OnlyWrites outside S (proofCycle mism join s) ↔ OnlyWrites outside S s := by
  unfold proofCycle; simp [hjoin]

@[simp] theorem proofAtInstant_outside (S s : State) :
    OnlyWrites outside S (proofAtInstant s) ↔ OnlyWrites outside S s := by
  unfold proofAtInstant; simp

@[simp] theorem ttAtInstant_outside (S s : State) :
    OnlyWrites outside S (ttAtInstant s) ↔ OnlyWrites outside S s := by
  unfold ttAtInstant; dsimp only; (repeat' split) <;> simp

@[simp] theorem domainAtInstant_outside (S s : State) :
    OnlyWrites outside S (domainAtInstant s) ↔ OnlyWrites outside S s := by
  unfold domainAtInstant; simp

/-! ### Process data, sessions and recorder -/

@[simp] theorem sendOpening_outside (S s : State) :
    OnlyWrites outside S (sendOpening s) ↔ OnlyWrites outside S s := by
  unfold sendOpening; split <;> simp

@[simp] theorem releaseNow_outside (S s : State) : OnlyWrites outside S (releaseNow s) ↔ OnlyWrites outside S s := by
  unfold releaseNow; (repeat' split) <;> simp

@[simp] theorem releaseAtInstant_outside (S s : State) :
    OnlyWrites outside S (releaseAtInstant s) ↔ OnlyWrites outside S s := by
  unfold releaseAtInstant; split <;> simp

@[simp] theorem holdAtInstant_outside (S s : State) :
    OnlyWrites outside S (holdAtInstant s) ↔ OnlyWrites outside S s := by
  unfold holdAtInstant; simp

@[simp] theorem lineClose_outside (S s : State) : OnlyWrites outside S (lineClose s) ↔ OnlyWrites outside S s := by
  unfold lineClose; simp

@[simp] theorem heldSample_outside (S s : State) : OnlyWrites outside S (heldSample s) ↔ OnlyWrites outside S s := by
  unfold heldSample; split <;> simp

@[simp] theorem cycleClose_outside (S s : State) : OnlyWrites outside S (cycleClose s) ↔ OnlyWrites outside S s := by
  unfold cycleClose; split <;> simp

@[simp] theorem creditRestore_outside (S s : State) :
    OnlyWrites outside S (creditRestore s) ↔ OnlyWrites outside S s := by
  unfold creditRestore; simp

@[simp] theorem leadAtInstant_outside (S s : State) :
    OnlyWrites outside S (leadAtInstant s) ↔ OnlyWrites outside S s := by
  unfold leadAtInstant; simp

@[simp] theorem leadStep_outside (S : State) (was s : State) :
    OnlyWrites outside S (leadStep was s) ↔ OnlyWrites outside S s := by
  unfold leadStep; simp

@[simp] theorem provisionalAtInstant_outside (S s : State) :
    OnlyWrites outside S (provisionalAtInstant s) ↔ OnlyWrites outside S s := by
  unfold provisionalAtInstant; simp

@[simp] theorem zeroArea_outside (S : State) (c : FlowCtx) (s : State) :
    OnlyWrites outside S (zeroArea c s) ↔ OnlyWrites outside S s := by
  unfold zeroArea; simp

@[simp] theorem applyCtx_outside (S : State) (i : Nat) (c : FlowCtx) (s : State) :
    OnlyWrites outside S (applyCtx i c s) ↔ OnlyWrites outside S s := by
  unfold applyCtx; simp

@[simp] theorem applyContexts_outside (S s : State) :
    OnlyWrites outside S (applyContexts s) ↔ OnlyWrites outside S s := by
  unfold applyContexts; simp

@[simp] theorem sakAtInstant_outside (S s : State) :
    OnlyWrites outside S (sakAtInstant s) ↔ OnlyWrites outside S s := by
  unfold sakAtInstant; simp

@[simp] theorem emptyAtInstant_outside (S : State) (polled : List Nat) (hb : List Nat) (s : State) :
    OnlyWrites outside S (emptyAtInstant polled hb s) ↔ OnlyWrites outside S s := by
  unfold emptyAtInstant; split
  · rfl
  · refine forEach_writes _ _ _ _ _ fun n s => ?_
    dsimp only; split <;> simp

@[simp] theorem showArea_outside (S : State) (i : Nat) (c : FlowCtx) (new : Bool) (zero : Bool) (old : FlowRun)
    (s : State) :
    OnlyWrites outside S (showArea i c new zero old s) ↔ OnlyWrites outside S s := by
  unfold showArea; simp

@[simp] theorem consumedAtInstant_outside (S : State) (i : Nat) (c : FlowCtx) (s : State) :
    OnlyWrites outside S (consumedAtInstant i c s) ↔ OnlyWrites outside S s := by
  unfold consumedAtInstant; simp

@[simp] theorem consumedUpdate_outside (S s : State) :
    OnlyWrites outside S (consumedUpdate s) ↔ OnlyWrites outside S s := by
  unfold consumedUpdate; simp

@[simp] theorem freshAdvance_outside (S s : State) :
    OnlyWrites outside S (freshAdvance s) ↔ OnlyWrites outside S s := by
  unfold freshAdvance; simp

@[simp] theorem banksAtInstant_outside (S : State) (effective : Bool) (s : State) :
    OnlyWrites outside S (banksAtInstant effective s) ↔ OnlyWrites outside S s := by
  unfold banksAtInstant; simp

@[simp] theorem queueFlow_outside (S : State) (i : Nat) (c : FlowCtx) (s : State) :
    OnlyWrites outside S (queueFlow i c s) ↔ OnlyWrites outside S s := by
  unfold queueFlow; simp

@[simp] theorem sporadicAtInstant_outside (S : State) (arrived : List Nat) (s : State) :
    OnlyWrites outside S (sporadicAtInstant arrived s) ↔ OnlyWrites outside S s := by
  unfold sporadicAtInstant; simp

@[simp] theorem islandAtInstant_outside (S s : State) :
    OnlyWrites outside S ((islandAtInstant s).2) ↔ OnlyWrites outside S s := by
  unfold islandAtInstant; simp

@[simp] theorem islandPlace_outside (S s : State) :
    OnlyWrites outside S (islandPlace s) ↔ OnlyWrites outside S s := by
  unfold islandPlace; simp

@[simp] theorem sessionsReset_outside (S s : State) :
    OnlyWrites outside S (sessionsReset s) ↔ OnlyWrites outside S s := by
  unfold sessionsReset; simp

@[simp] theorem outMove_outside (S s : State) : OnlyWrites outside S (outMove s) ↔ OnlyWrites outside S s := by
  unfold outMove; simp

@[simp] theorem suspectEvent_outside (S : State) (on : Bool) (s : State) :
    OnlyWrites outside S (suspectEvent on s) ↔ OnlyWrites outside S s := by
  unfold suspectEvent; simp

@[simp] theorem compareDomains_outside (S s : State) :
    OnlyWrites outside S (compareDomains s) ↔ OnlyWrites outside S s := by
  unfold compareDomains; simp

@[simp] theorem steerAtInstant_outside (S s : State) :
    OnlyWrites outside S (steerAtInstant s) ↔ OnlyWrites outside S s := by
  unfold steerAtInstant; simp

@[simp] theorem growCask_outside (S : State) (o n : Nat) (s : State) :
    OnlyWrites outside S (growCask o n s) ↔ OnlyWrites outside S s := by
  unfold growCask; dsimp only; (repeat' split) <;> simp_all

@[simp] theorem triggerCask_outside (S : State) (n : Nat) (t : Option (BitVec 16 × BitVec 32)) (s : State) :
    OnlyWrites outside S (triggerCask n t s) ↔ OnlyWrites outside S s := by
  unfold triggerCask; (repeat' split) <;> simp

@[simp] theorem recorderAtInstant_outside (S : State) (evs : List Event) (t : Option (BitVec 16 × BitVec 32))
    (overrun : Bool) (s : State) :
    OnlyWrites outside S (recorderAtInstant evs t overrun s) ↔ OnlyWrites outside S s := by
  unfold recorderAtInstant; split <;> simp

/-! ### Twins, lock-step pairs, fabric, power and self-repair -/

@[simp] theorem noteFence_outside (S : State) (p : Nat) (s : State) :
    OnlyWrites outside S (noteFence p s) ↔ OnlyWrites outside S s := by
  unfold noteFence; simp

@[simp] theorem freePair_outside (S : State) (p cause : Nat) (s : State) :
    OnlyWrites outside S (freePair p cause s) ↔ OnlyWrites outside S s := by
  unfold freePair; simp

@[simp] theorem issueTxn_outside (S : State) (l : Fin 4) (w : BitVec 64) (x : CoreTxn) (s : State) :
    OnlyWrites outside S (issueTxn l w x s) ↔ OnlyWrites outside S s := by
  unfold issueTxn; (repeat' split) <;> simp

@[simp] theorem pairCycle_outside (S : State) (l : Fin 4) (c : PairCycle) (s : State) :
    OnlyWrites outside S (pairCycle l c s) ↔ OnlyWrites outside S s := by
  unfold pairCycle; dsimp only; (repeat' split) <;> simp

@[simp] theorem sendOutBoth_outside (S s : State) :
    OnlyWrites outside S (sendOutBoth s) ↔ OnlyWrites outside S s := by
  unfold sendOutBoth; dsimp only; (repeat' split) <;> simp

@[simp] theorem pathEvent_outside (S : State) (n : Nat) (was now : Bool) (s : State) :
    OnlyWrites outside S (pathEvent n was now s) ↔ OnlyWrites outside S s := by
  unfold pathEvent; simp

@[simp] theorem twinPaths_outside (S s : State) :
    OnlyWrites outside S ((twinPaths s).2) ↔ OnlyWrites outside S s := by
  unfold twinPaths; simp

@[simp] theorem serviceAtInstant_outside (S s : State) :
    OnlyWrites outside S (serviceAtInstant s) ↔ OnlyWrites outside S s := by
  unfold serviceAtInstant; split <;> simp

@[simp] theorem switchoverAtInstant_outside (S s : State) :
    OnlyWrites outside S (switchoverAtInstant s) ↔ OnlyWrites outside S s := by
  unfold switchoverAtInstant; split <;> simp

@[simp] theorem startRole_outside (S s : State) : OnlyWrites outside S (startRole s) ↔ OnlyWrites outside S s := by
  unfold startRole; simp

@[simp] theorem flowSnapshot_outside (S s : State) :
    OnlyWrites outside S (flowSnapshot s) ↔ OnlyWrites outside S s := by
  unfold flowSnapshot; simp

@[simp] theorem fullSnapshot_outside (S s : State) :
    OnlyWrites outside S (fullSnapshot s) ↔ OnlyWrites outside S s := by
  unfold fullSnapshot; simp

@[simp] theorem regionReport_outside (S s : State) :
    OnlyWrites outside S (regionReport s) ↔ OnlyWrites outside S s := by
  unfold regionReport; split <;> simp

@[simp] theorem loseTransfers_outside (S s : State) :
    OnlyWrites outside S (loseTransfers s) ↔ OnlyWrites outside S s := by
  unfold loseTransfers; simp

@[simp] theorem switchWithoutRegion_outside (S s : State) :
    OnlyWrites outside S (switchWithoutRegion s) ↔ OnlyWrites outside S s := by
  unfold switchWithoutRegion; simp

@[simp] theorem rackAtInstant_outside (S s : State) :
    OnlyWrites outside S (rackAtInstant s) ↔ OnlyWrites outside S s := by
  unfold rackAtInstant; simp

@[simp] theorem roleAtInstant_outside (S : State) (reached : Bool) (s : State) :
    OnlyWrites outside S (roleAtInstant reached s) ↔ OnlyWrites outside S s := by
  unfold roleAtInstant; (repeat' split) <;> simp

@[simp] theorem twinAtInstant_outside (S s : State) :
    OnlyWrites outside S (twinAtInstant s) ↔ OnlyWrites outside S s := by
  unfold twinAtInstant; simp

@[simp] theorem handEvent_outside (S : State) (l : Nat) (k : HandKind) (result : Nat) (s : State) :
    OnlyWrites outside S (handEvent l k result s) ↔ OnlyWrites outside S s := by
  unfold handEvent; simp

@[simp] theorem handDone_outside (S : State) (l : Nat) (k : HandKind) (s : State) :
    OnlyWrites outside S (handDone l k s) ↔ OnlyWrites outside S s := by
  unfold handDone; simp

@[simp] theorem rotationLost_outside (S : State) (l : Nat) (s : State) :
    OnlyWrites outside S (rotationLost l s) ↔ OnlyWrites outside S s := by
  unfold rotationLost; simp

@[simp] theorem handAbandon_outside (S : State) (l : Nat) (s : State) :
    OnlyWrites outside S (handAbandon l s) ↔ OnlyWrites outside S s := by
  unfold handAbandon; split <;> simp

@[simp] theorem fencePair_outside (S : State) (l cause core : Nat) (w : BitVec 64) (s : State) :
    OnlyWrites outside S (fencePair l cause core w s) ↔ OnlyWrites outside S s := by
  unfold fencePair; dsimp only; (repeat' split) <;> simp

@[simp] theorem checkerFault_outside (S : State) (l : Nat) (s : State) :
    OnlyWrites outside S (checkerFault l s) ↔ OnlyWrites outside S s := by
  unfold checkerFault; simp

@[simp] theorem splitCoreFault_outside (S : State) (l : Nat) (core : Fin 2) (s : State) :
    OnlyWrites outside S (splitCoreFault l core s) ↔ OnlyWrites outside S s := by
  unfold splitCoreFault; simp

@[simp] theorem restartPair_outside (S : State) (l : Nat) (s : State) :
    OnlyWrites outside S (restartPair l s) ↔ OnlyWrites outside S s := by
  unfold restartPair; dsimp only; (repeat' split) <;> simp

@[simp] theorem transfer_outside (S : State) (l : Nat) (s : State) :
    OnlyWrites outside S (transfer l s) ↔ OnlyWrites outside S s := by
  unfold transfer; dsimp only; (repeat' split) <;> simp_all

@[simp] theorem substitutionAtInstant_outside (S : State) (l : Nat) (s : State) :
    OnlyWrites outside S (substitutionAtInstant l s) ↔ OnlyWrites outside S s := by
  unfold substitutionAtInstant; dsimp only; (repeat' split) <;> simp

@[simp] theorem splitPair_outside (S : State) (l : Nat) (st : PairSt) (s : State) :
    OnlyWrites outside S (splitPair l st s) ↔ OnlyWrites outside S s := by
  unfold splitPair; simp

@[simp] theorem splitAtInstant_outside (S : State) (l : Nat) (s : State) :
    OnlyWrites outside S (splitAtInstant l s) ↔ OnlyWrites outside S s := by
  unfold splitAtInstant; simp

@[simp] theorem rejoinAtInstant_outside (S : State) (l : Nat) (s : State) :
    OnlyWrites outside S (rejoinAtInstant l s) ↔ OnlyWrites outside S s := by
  unfold rejoinAtInstant; simp

@[simp] theorem restartAtInstant_outside (S : State) (l : Nat) (s : State) :
    OnlyWrites outside S (restartAtInstant l s) ↔ OnlyWrites outside S s := by
  unfold restartAtInstant; simp

@[simp] theorem resetAtInstant_outside (S : State) (l : Nat) (s : State) :
    OnlyWrites outside S (resetAtInstant l s) ↔ OnlyWrites outside S s := by
  unfold resetAtInstant; dsimp only; (repeat' split) <;> simp

@[simp] theorem pairAtInstant_outside (S : State) (l : Nat) (s : State) :
    OnlyWrites outside S (pairAtInstant l s) ↔ OnlyWrites outside S s := by
  unfold pairAtInstant; simp

@[simp] theorem lskAtInstant_outside (S s : State) :
    OnlyWrites outside S (lskAtInstant s) ↔ OnlyWrites outside S s := by
  unfold lskAtInstant; simp

@[simp] theorem pairNodeReset_outside (S : State) (l : Nat) (s : State) :
    OnlyWrites outside S (pairNodeReset l s) ↔ OnlyWrites outside S s := by
  unfold pairNodeReset; simp

@[simp] theorem pdiIrqWrite_outside (S : State) (i : Iface) (v : Nat) (s : State) :
    OnlyWrites outside S (pdiIrqWrite i v s) ↔ OnlyWrites outside S s := by
  unfold pdiIrqWrite; simp

@[simp] theorem pdiWrite_outside (S : State) (i : Iface) (off v : Nat) (s : State) :
    OnlyWrites outside S (pdiWrite i off v s) ↔ OnlyWrites outside S s := by
  unfold pdiWrite; split <;> simp

@[simp] theorem fabStartLinks_outside (S s : State) :
    OnlyWrites outside S (fabStartLinks s) ↔ OnlyWrites outside S s := by
  unfold fabStartLinks; simp

@[simp] theorem fabAssignAtInstant_outside (S s : State) :
    OnlyWrites outside S (fabAssignAtInstant s) ↔ OnlyWrites outside S s := by
  unfold fabAssignAtInstant; simp

@[simp] theorem fabReachAtInstant_outside (S s : State) :
    OnlyWrites outside S (fabReachAtInstant s) ↔ OnlyWrites outside S s := by
  unfold fabReachAtInstant; simp

@[simp] theorem fabReportAtInstant_outside (S s : State) :
    OnlyWrites outside S (fabReportAtInstant s) ↔ OnlyWrites outside S s := by
  unfold fabReportAtInstant; simp

@[simp] theorem fabProofAtInstant_outside (S s : State) :
    OnlyWrites outside S (fabProofAtInstant s) ↔ OnlyWrites outside S s := by
  unfold fabProofAtInstant; simp

@[simp] theorem fabSubscribeAtInstant_outside (S s : State) :
    OnlyWrites outside S (fabSubscribeAtInstant s) ↔ OnlyWrites outside S s := by
  unfold fabSubscribeAtInstant; simp

@[simp] theorem proxyOne_outside (S : State) (x : Nat × FlowCtx) (s : State) :
    OnlyWrites outside S (proxyOne x s) ↔ OnlyWrites outside S s := by
  unfold proxyOne; simp

@[simp] theorem fabProxyAtInstant_outside (S s : State) :
    OnlyWrites outside S (fabProxyAtInstant s) ↔ OnlyWrites outside S s := by
  unfold fabProxyAtInstant; simp

@[simp] theorem fabLeadAtInstant_outside (S s : State) :
    OnlyWrites outside S (fabLeadAtInstant s) ↔ OnlyWrites outside S s := by
  unfold fabLeadAtInstant; split <;> simp

@[simp] theorem fabAtInstant_outside (S s : State) :
    OnlyWrites outside S (fabAtInstant s) ↔ OnlyWrites outside S s := by
  unfold fabAtInstant; simp

@[simp] theorem rotationAtInstant_outside (S s : State) :
    OnlyWrites outside S (rotationAtInstant s) ↔ OnlyWrites outside S s := by
  unfold rotationAtInstant; simp

@[simp] theorem startFail_outside (S : State) (failed : List (Fin 5)) (p : Fin 5) (s : State) :
    OnlyWrites outside S (startFail failed p s) ↔ OnlyWrites outside S s := by
  unfold startFail; dsimp only; (repeat' split) <;> simp

@[simp] theorem startSelfTest_outside (S : State) (failed : List (Fin 5)) (s : State) :
    OnlyWrites outside S (startSelfTest failed s) ↔ OnlyWrites outside S s := by
  unfold startSelfTest; simp

@[simp] theorem logLost_outside (S s : State) : OnlyWrites outside S (logLost s) ↔ OnlyWrites outside S s := by
  unfold logLost; simp

@[simp] theorem thermalAtInstant_outside (S s : State) :
    OnlyWrites outside S (thermalAtInstant s) ↔ OnlyWrites outside S s := by
  unfold thermalAtInstant; simp

/-! ### Mailboxes, accesses and the host bridge -/

@[simp] theorem semOwnFree_outside (S s : State) : OnlyWrites outside S (semOwnFree s) ↔ OnlyWrites outside S s := by
  unfold semOwnFree; simp

@[simp] theorem pwFail_outside (S : State) (code : Nat) (o : Outbound) (s : State) :
    OnlyWrites outside S (pwFail code o s) ↔ OnlyWrites outside S s := by
  unfold pwFail; simp

@[simp] theorem mbxWrite_outside (S : State) (i : Iface) (n off : Nat) (data : List Byte) (s : State) :
    OnlyWrites outside S (mbxWrite i n off data s) ↔ OnlyWrites outside S s := by
  unfold mbxWrite; simp

@[simp] theorem evqWrite_outside (S : State) (i : Iface) (off v : Nat) (s : State) :
    OnlyWrites outside S (evqWrite i off v s) ↔ OnlyWrites outside S s := by
  unfold evqWrite; simp

@[simp] theorem bytesWrite_outside (S : State) (i : Iface) (a : Nat) (data : List Byte) (s : State) :
    OnlyWrites outside S (bytesWrite i a data s) ↔ OnlyWrites outside S s := by
  unfold bytesWrite; simp

@[simp] theorem busReads_outside (S : State) (i : Iface) (f a n : Nat) (s : State) :
    OnlyWrites outside S (busReads i f a n s).2 ↔ OnlyWrites outside S s := by
  induction f generalizing a n s with
  | zero => simp [busReads]
  | succ f ih => unfold busReads; dsimp only; split <;> simp [ih]

@[simp] theorem newOutbound_outside (S : State) (op : Nat) (src : Iface) (w : Fin 8) (off len : Nat)
    (data : List Byte) (s : State) :
    OnlyWrites outside S ((newOutbound op src w off len data s).2) ↔ OnlyWrites outside S s := by
  unfold newOutbound; simp

@[simp] theorem readDone_outside (S : State) (o : Outbound) (data : List Byte) (s : State) :
    OnlyWrites outside S (readDone o data s) ↔ OnlyWrites outside S s := by
  unfold readDone; split <;> simp

@[simp] theorem failOutbound_outside (S : State) (code : Nat) (o : Outbound) (s : State) :
    OnlyWrites outside S (failOutbound code o s) ↔ OnlyWrites outside S s := by
  unfold failOutbound; simp

@[simp] theorem sendPosted_outside (S : State) (n w : Nat) (s : State) :
    OnlyWrites outside S (sendPosted n w s) ↔ OnlyWrites outside S s := by
  induction n generalizing s with
  | zero => simp [sendPosted]
  | succ n ih =>
    unfold sendPosted; (repeat' split) <;> simp [ih]
    rename_i h; simpa using sendOutbound_writes outside S _ _ _ h (by simp) (by simp)

@[simp] theorem sendAllPosted_outside (S s : State) :
    OnlyWrites outside S (sendAllPosted s) ↔ OnlyWrites outside S s := by
  unfold sendAllPosted; simp

@[simp] theorem bridgeAnswer_outside (S : State) (status : Nat) (data : List Byte) (r : BridgeFrame) (s : State) :
    OnlyWrites outside S (bridgeAnswer status data r s) ↔ OnlyWrites outside S s := by
  unfold bridgeAnswer; simp

@[simp] theorem startOutbound_outside (S : State) (o : Outbound) (s : State) :
    OnlyWrites outside S (startOutbound o s) ↔ OnlyWrites outside S s := by
  unfold startOutbound; split
  · rename_i h; simpa using sendOutbound_writes outside S _ _ _ h (by simp) (by simp)
  · simp

@[simp] theorem dropOut_outside (S s : State) : OnlyWrites outside S (dropOut s) ↔ OnlyWrites outside S s := by
  unfold dropOut; simp

@[simp] theorem dropPosted_outside (S : State) (o : Outbound) (s : State) :
    OnlyWrites outside S (dropPosted o s) ↔ OnlyWrites outside S s := by
  unfold dropPosted; simp

@[simp] theorem switchOne_outside (S : State) (old : Option Directory) (put : Outbound → State → State)
    (drop : State → State) (o : Outbound) (s : State)
    (hp : ∀ o s, OnlyWrites outside S (put o s) ↔ OnlyWrites outside S s)
    (hd : ∀ s, OnlyWrites outside S (drop s) ↔ OnlyWrites outside S s) :
    OnlyWrites outside S (switchOne old put drop o s) ↔ OnlyWrites outside S s := by
  unfold switchOne; (repeat' split) <;> simp [hp, hd]
  rename_i h; simpa using sendOutbound_writes outside S _ _ _ h (by simp) (by simp)

@[simp] theorem bridgeNodeReset_outside (S s : State) :
    OnlyWrites outside S (bridgeNodeReset s) ↔ OnlyWrites outside S s := by
  unfold bridgeNodeReset; simp

@[simp] theorem bar4Reads_outside (S : State) (i : Iface) (n a : Nat) (s : State) :
    OnlyWrites outside S (bar4Reads i n a s).2 ↔ OnlyWrites outside S s := by
  induction n generalizing a s with
  | zero => simp [bar4Reads]
  | succ n ih => unfold bar4Reads; simp [ih]

@[simp] theorem spiReads_outside (S : State) (n a : Nat) (s : State) :
    OnlyWrites outside S (spiReads n a s).2 ↔ OnlyWrites outside S s := by
  induction n generalizing a s with
  | zero => simp [spiReads]
  | succ n ih => unfold spiReads; dsimp only; split <;> simp [ih]

@[simp] theorem lbReady_outside (S : State) (v : BitVec 16) (s : State) :
    OnlyWrites outside S (lbReady v s) ↔ OnlyWrites outside S s := by
  unfold lbReady; simp

@[simp] theorem lbRegRead_outside (S : State) (a : Nat) (s : State) :
    OnlyWrites outside S ((lbRegRead a s).2) ↔ OnlyWrites outside S s := by
  unfold lbRegRead; simp

@[simp] theorem lbHalfRead_outside (S : State) (a : Nat) (be : BitVec 2) (high : Option (Nat × BitVec 16))
    (s : State) :
    OnlyWrites outside S (lbHalfRead a be high s) ↔ OnlyWrites outside S s := by
  unfold lbHalfRead; (repeat' split) <;> simp

@[simp] theorem fabJoinIn_outside (S : State) (j : JoinBody) (s : State) :
    OnlyWrites outside S (fabJoinIn j s) ↔ OnlyWrites outside S s := by
  unfold fabJoinIn; simp

@[simp] theorem fabLeadIn_outside (S : State) (vid : BitVec 48) (s : State) :
    OnlyWrites outside S (fabLeadIn vid s) ↔ OnlyWrites outside S s := by
  unfold fabLeadIn; simp

@[simp] theorem refreshSummaries_outside (S s : State) :
    OnlyWrites outside S (refreshSummaries s) ↔ OnlyWrites outside S s := by
  unfold refreshSummaries; simp

/-! ### Start, reset and the registration instant -/

@[simp] theorem bypassedEvents_outside (S s : State) :
    OnlyWrites outside S (bypassedEvents s) ↔ OnlyWrites outside S s := by
  unfold bypassedEvents; refine forEach_writes _ _ _ _ _ fun p s => ?_
  split <;> simp

@[simp] theorem startConfig_outside (S : State) (a cause : Nat) (s : State) :
    OnlyWrites outside S (startConfig a cause s) ↔ OnlyWrites outside S s := by
  unfold startConfig; simp

@[simp] theorem putAside_outside (S : State) (a : Nat) (s : State) :
    OnlyWrites outside S (putAside a s) ↔ OnlyWrites outside S s := by
  unfold putAside; simp

@[simp] theorem useIdentity_outside (S : State) (k : KeptIdentity) (s : State) :
    OnlyWrites outside S (useIdentity k s) ↔ OnlyWrites outside S s := by
  unfold useIdentity; simp

@[simp] theorem usePolicy_outside (S : State) (l : List Nat) (s : State) :
    OnlyWrites outside S (usePolicy l s) ↔ OnlyWrites outside S s := by
  unfold usePolicy; simp

@[simp] theorem useTwin_outside (S : State) (k : KeptTwin) (s : State) :
    OnlyWrites outside S (useTwin k s) ↔ OnlyWrites outside S s := by
  unfold useTwin; simp

@[simp] theorem useFab_outside (S : State) (k : KeptFab) (s : State) :
    OnlyWrites outside S (useFab k s) ↔ OnlyWrites outside S s := by
  unfold useFab; simp

@[simp] theorem useSched_outside (S : State) (k : KeptSched) (s : State) :
    OnlyWrites outside S (useSched k s) ↔ OnlyWrites outside S s := by
  unfold useSched; simp

@[simp] theorem usePtp_outside (S : State) (k : KeptPtp) (s : State) :
    OnlyWrites outside S (usePtp k s) ↔ OnlyWrites outside S s := by
  unfold usePtp; simp

@[simp] theorem areaDefault_outside (S : State) (a : Nat) (s : State) :
    OnlyWrites outside S (areaDefault a s) ↔ OnlyWrites outside S s := by
  unfold areaDefault; simp

@[simp] theorem loadFlows_outside (S s : State) : OnlyWrites outside S (loadFlows s) ↔ OnlyWrites outside S s := by
  unfold loadFlows; simp

@[simp] theorem loadPairs_outside (S s : State) : OnlyWrites outside S (loadPairs s) ↔ OnlyWrites outside S s := by
  unfold loadPairs; simp

@[simp] theorem loadPolicy_outside (S s : State) : OnlyWrites outside S (loadPolicy s) ↔ OnlyWrites outside S s := by
  unfold loadPolicy; simp

@[simp] theorem areaLoad_outside (S : State) (a : Nat) (s : State) :
    OnlyWrites outside S (areaLoad a s) ↔ OnlyWrites outside S s := by
  unfold areaLoad; dsimp only
  refine writes_if ?_ <| writes_if ?_ <| writes_if ?_ <| writes_if ?_ <| writes_if ?_ <| writes_if ?_ <| writes_if ?_ <|
    writes_if ?_ <| writes_if ?_ <| writes_if ?_ <| writes_if ?_ ?_
  · split <;> simp
  · simp
  · split <;> simp
  · split <;> simp
  · split <;> simp
  · simp
  · split <;> simp
  · simp
  · simp
  · simp
  · simp
  · split <;> simp

@[simp] theorem startArea_outside (S : State) (corrupt : List Nat) (a : Nat) (s : State) :
    OnlyWrites outside S (startArea corrupt a s) ↔ OnlyWrites outside S s := by
  unfold startArea; simp

@[simp] theorem startPairs_outside (S s : State) : OnlyWrites outside S (startPairs s) ↔ OnlyWrites outside S s := by
  unfold startPairs; simp

@[simp] theorem startAttached_outside (S s : State) :
    OnlyWrites outside S (startAttached s) ↔ OnlyWrites outside S s := by
  unfold startAttached; simp

@[simp] theorem startLinks_outside (S s : State) : OnlyWrites outside S (startLinks s) ↔ OnlyWrites outside S s := by
  unfold startLinks; simp

@[simp] theorem startSteep_outside (S s : State) : OnlyWrites outside S (startSteep s) ↔ OnlyWrites outside S s := by
  unfold startSteep; dsimp only; (repeat' split) <;> simp

@[simp] theorem timeNodeReset_outside (S s : State) :
    OnlyWrites outside S (timeNodeReset s) ↔ OnlyWrites outside S s := by
  unfold timeNodeReset; split <;> simp

@[simp] theorem blocksReset_outside (S s : State) :
    OnlyWrites outside S (blocksReset s) ↔ OnlyWrites outside S s := by
  unfold blocksReset; simp

@[simp] theorem wakeBlocks_outside (S s : State) : OnlyWrites outside S (wakeBlocks s) ↔ OnlyWrites outside S s := by
  unfold wakeBlocks; simp

@[simp] theorem proxyLeft_outside (S : State) (polled : List Nat) (s : State) :
    OnlyWrites outside S (proxyLeft polled s) ↔ OnlyWrites outside S s := by
  unfold proxyLeft; simp

@[simp] theorem runTo_outside (S : State) (t : Nat) (s : State) :
    OnlyWrites outside S (runTo t s) ↔ OnlyWrites outside S s := by
  unfold runTo; simp

@[simp] theorem takeCycle_outside (S s : State) : OnlyWrites outside S (takeCycle s) ↔ OnlyWrites outside S s := by
  unfold takeCycle; simp

@[simp] theorem closeCycle_outside (S : State) (polled hb : List Nat) (s : State) :
    OnlyWrites outside S (closeCycle polled hb s) ↔ OnlyWrites outside S s := by
  unfold closeCycle; simp

@[simp] theorem reportIslands_outside (S : State) (before s : State) :
    OnlyWrites outside S (reportIslands before s) ↔ OnlyWrites outside S s := by
  unfold reportIslands; simp

@[simp] theorem openCycle_outside (S s : State) : OnlyWrites outside S (openCycle s) ↔ OnlyWrites outside S s := by
  unfold openCycle; simp

@[simp] theorem producedAtInstant_outside (S : State) (took effective : Bool) (s : State) :
    OnlyWrites outside S (producedAtInstant took effective s) ↔ OnlyWrites outside S s := by
  unfold producedAtInstant; simp

@[simp] theorem flowsAtInstant_outside (S s : State) :
    OnlyWrites outside S (flowsAtInstant s) ↔ OnlyWrites outside S s := by
  unfold flowsAtInstant; simp

@[simp] theorem cansAtInstant_outside (S : State) (sw effective : Bool) (s : State) :
    OnlyWrites outside S (cansAtInstant sw effective s) ↔ OnlyWrites outside S s := by
  unfold cansAtInstant; simp

@[simp] theorem gatesOpen_outside (S s : State) : OnlyWrites outside S (gatesOpen s) ↔ OnlyWrites outside S s := by
  unfold gatesOpen; simp

@[simp] theorem racksAtInstant_outside (S s : State) :
    OnlyWrites outside S (racksAtInstant s) ↔ OnlyWrites outside S s := by
  unfold racksAtInstant; simp

@[simp] theorem openingAtStart_outside (S s : State) :
    OnlyWrites outside S (openingAtStart s) ↔ OnlyWrites outside S s := by
  unfold openingAtStart; dsimp only; (repeat' split) <;> simp

end Sys2Proof.Machine
end

section
/-! PROOFS. Operations that may write the system block keep the identity fused in it. -/

namespace Sys2Proof.Machine

/-! ### The shared operations -/

@[simp] theorem areaWritten_holds (K : Keep) (a : Nat) (s : State) : Holds K (areaWritten a s) ↔ Holds K s := by
  unfold areaWritten; simp

@[simp] theorem afterError_holds (K : Keep) (sp : CmdSpec) (before x : State) :
    Holds K (afterError sp before x) ↔ Holds K before := by
  unfold afterError; simp

theorem settle_holds (K : Keep) (sp : CmdSpec) (r : Ring) (before : State) (x : Reply × State)
    (h : Holds K x.2 ↔ Holds K before) :
    Holds K (settle sp r before x).2 ↔ Holds K before := by
  unfold settle; (repeat' split) <;> simp [h]

@[simp] theorem nonceSpent_holds (K : Keep) (sp : CmdSpec) (s : State) : Holds K (nonceSpent sp s) ↔ Holds K s := by
  unfold nonceSpent; simp

@[simp] theorem answer_holds (K : Keep) (sp : CmdSpec) (body : Ring → State → Reply × State) (r : Ring) (s : State)
    (h : ∀ r s, Holds K (body r s).2 ↔ Holds K s) :
    Holds K (answer sp body r s).2 ↔ Holds K s := by
  unfold answer; (repeat' split) <;> simp [settle_holds, h]

@[simp] theorem runAccepted_holds (K : Keep) (sp : CmdSpec) (body : Ring → State → Reply × State) (r : Ring)
    (s : State) (hbody : ∀ r s, Holds K (body r s).2 ↔ Holds K s) :
    Holds K (runAccepted sp body r s) ↔ Holds K s := by
  unfold runAccepted; simp [hbody]

@[simp] theorem submit_holds (K : Keep) (sp : CmdSpec) (body : Ring → State → Reply × State) (dt : Nat) (r : Ring)
    (s : State) (hbody : ∀ r s, Holds K (body r s).2 ↔ Holds K s) :
    Holds K (submit sp body dt r s) ↔ Holds K s := by
  unfold submit; simp [hbody]

@[simp] theorem runLater_holds (K : Keep) (sp : CmdSpec) (body : Ring → State → Reply × State) (r : Ring)
    (s : State) (hbody : ∀ r s, Holds K (body r s).2 ↔ Holds K s) :
    Holds K (runLater sp body r s) ↔ Holds K s := by
  unfold runLater; simp [hbody]

@[simp] theorem submitLater_holds (K : Keep) (sp : CmdSpec) (body : Ring → State → Reply × State) (dt : Nat)
    (r : Ring) (s : State) (hbody : ∀ r s, Holds K (body r s).2 ↔ Holds K s) :
    Holds K (submitLater sp body dt r s) ↔ Holds K s := by
  unfold submitLater; simp [hbody]

@[simp] theorem accessBy_holds (K : Keep) (src : Iface) (addr len : Nat) (w : Option (List Byte))
    (f : State → State) (s : State) (hf : ∀ s, Holds K (f s) ↔ Holds K s) :
    Holds K (accessBy src addr len w f s) ↔ Holds K s := by
  unfold accessBy; (repeat' split) <;> simp [hf]

@[simp] theorem hostAccess_holds (K : Keep) (dt : Nat) (src : Iface) (addr : Nat) (w : Option (BitVec 32))
    (f : State → State) (s : State) (hf : ∀ s, Holds K (f s) ↔ Holds K s) :
    Holds K (hostAccess dt src addr w f s) ↔ Holds K s := by
  unfold hostAccess; simp [hf]

/-! ### CAN channels, vehicle bus and switch -/

@[simp] theorem swAtInstant_holds (K : Keep) (s : State) : Holds K (swAtInstant s) ↔ Holds K s := by
  unfold swAtInstant
  simp only [Holds, gclAtInstant_outside, peerLost_outside, forEach_writes, implies_true]
  refine forEach_holds K _ _ s fun p s => ?_
  split <;> simp

@[simp] theorem mvbAtInstant_holds (K : Keep) (rd : Nat → Nat → Nat → List Byte) (g : Nat) (s : State) :
    Holds K (mvbAtInstant rd g s) ↔ Holds K s := by
  unfold mvbAtInstant; split <;> simp

/-! ### Process data, sessions and recorder -/

@[simp] theorem ptpApply_holds (K : Keep) (d : Nat) (s : State) : Holds K (ptpApply d s) ↔ Holds K s := by
  unfold ptpApply; split <;> simp

@[simp] theorem ptpAtInstant_holds (K : Keep) (s : State) : Holds K (ptpAtInstant s) ↔ Holds K s := by
  unfold ptpAtInstant; simp

/-! ### Twins, lock-step pairs, fabric, power and self-repair -/

@[simp] theorem powerAtInstant_holds (K : Keep) (s : State) : Holds K (powerAtInstant s) ↔ Holds K s := by
  unfold powerAtInstant; simp

@[simp] theorem wakeIn_holds (K : Keep) (src : Nat) (port : Option (Fin 4)) (s : State) :
    Holds K (wakeIn src port s) ↔ Holds K s := by
  unfold wakeIn; simp

@[simp] theorem sysPatchStageBody_holds (K : Keep) (r : Ring) (s : State) :
    Holds K ((sysPatchStageBody r s).2) ↔ Holds K s := by
  unfold sysPatchStageBody; simp

@[simp] theorem sysPatchVerifyBody_holds (K : Keep) (r : Ring) (s : State) :
    Holds K ((sysPatchVerifyBody r s).2) ↔ Holds K s := by
  unfold sysPatchVerifyBody; (repeat' split) <;> simp

@[simp] theorem sysResetBody_holds (K : Keep) (r : Ring) (s : State) :
    Holds K ((sysResetBody r s).2) ↔ Holds K s := by
  unfold sysResetBody; simp

@[simp] theorem sysProfileConfirmBody_holds (K : Keep) (r : Ring) (s : State) :
    Holds K ((sysProfileConfirmBody r s).2) ↔ Holds K s := by
  unfold sysProfileConfirmBody; simp

@[simp] theorem debugNonce_holds (K : Keep) (s : State) : Holds K ((debugNonce s).2) ↔ Holds K s := by
  unfold debugNonce; simp

@[simp] theorem debugUnlock_holds (K : Keep) (req : List Byte) (s : State) :
    Holds K ((debugUnlock req s).2) ↔ Holds K s := by
  unfold debugUnlock; split <;> simp

@[simp] theorem sysDebugBody_holds (K : Keep) (r : Ring) (s : State) :
    Holds K ((sysDebugBody r s).2) ↔ Holds K s := by
  unfold sysDebugBody; split <;> simp

/-! ### Mailboxes, accesses and the host bridge -/

theorem commands_holds (K : Keep) : ∀ c ∈ commands, ∀ r s, Holds K (c.2 r s).2 ↔ Holds K s := by
  unfold commands commands1 commands2 commands3 commands4 commands5 commands6
  simp only [List.cons_append, List.nil_append, List.forall_mem_cons]
  and_intros <;> simp

@[simp] theorem ringMailbox_holds (K : Keep) (n : Fin 8) (i : Iface) (s : State) :
    Holds K (ringMailbox n i s) ↔ Holds K s := by
  unfold ringMailbox; dsimp only; split
  · simp
  · split
    · simp
    · rename_i c hc
      have h := commands_holds K c (List.mem_of_find?_eq_some hc)
      split <;> simp [h]

@[simp] theorem doorbellWrite_holds (K : Keep) (n : Fin 8) (i : Iface) (v : Nat) (s : State) :
    Holds K (doorbellWrite n i v s) ↔ Holds K s := by
  unfold doorbellWrite; simp

@[simp] theorem queuedComplete_holds (K : Keep) (seq : BitVec 32) (status : BitVec 16) (s : State) :
    Holds K (queuedComplete seq status s) ↔ Holds K s := by
  unfold queuedComplete; split <;> simp

@[simp] theorem regWrite_holds (K : Keep) (i : Iface) (a v : Nat) (s : State) :
    Holds K (regWrite i a v s) ↔ Holds K s := by
  unfold regWrite; simp

@[simp] theorem busWrite_holds (K : Keep) (i : Iface) (a : Nat) (data : List Byte) (s : State) :
    Holds K (busWrite i a data s) ↔ Holds K s := by
  unfold busWrite; split <;> simp

@[simp] theorem busWrites_holds (K : Keep) (i : Iface) (f a : Nat) (d : List Byte) (s : State) :
    Holds K (busWrites i f a d s) ↔ Holds K s := by
  induction f generalizing a d s with
  | zero => simp [busWrites]
  | succ f ih => unfold busWrites; dsimp only; split <;> simp [ih]

@[simp] theorem writeAccess_holds (K : Keep) (dt : Nat) (src : Iface) (a : Nat) (data : List Byte) (s : State) :
    Holds K (writeAccess dt src a data s) ↔ Holds K s := by
  unfold writeAccess; simp

@[simp] theorem bridgeServe_holds (K : Keep) (bad : Bool) (r : BridgeFrame) (s : State) :
    Holds K (bridgeServe bad r s) ↔ Holds K s := by
  unfold bridgeServe; simp

@[simp] theorem bridgePump_holds (K : Keep) (n : Nat) (s : State) : Holds K (bridgePump n s) ↔ Holds K s := by
  induction n generalizing s with
  | zero => simp [bridgePump]
  | succ n ih => unfold bridgePump; (repeat' split) <;> simp [ih]

@[simp] theorem bridgeRun_holds (K : Keep) (s : State) : Holds K (bridgeRun s) ↔ Holds K s := by
  unfold bridgeRun; simp

@[simp] theorem enqueueOutbound_holds (K : Keep) (o : Outbound) (s : State) :
    Holds K (enqueueOutbound o s) ↔ Holds K s := by
  unfold enqueueOutbound; simp

@[simp] theorem yieldCrossing_holds (K : Keep) (bad : Bool) (o : Outbound) (r : BridgeFrame) (s : State) :
    Holds K (yieldCrossing bad o r s) ↔ Holds K s := by
  unfold yieldCrossing; simp

@[simp] theorem requestIn_holds (K : Keep) (bad : Bool) (r : BridgeFrame) (s : State) :
    Holds K (requestIn bad r s) ↔ Holds K s := by
  unfold requestIn; (repeat' split) <;> simp

@[simp] theorem semOperation_holds (K : Keep) (op : Nat) (w : Fin 8) (s : State) :
    Holds K (semOperation op w s) ↔ Holds K s := by
  unfold semOperation; simp

@[simp] theorem lockAcquired_holds (K : Keep) (w : Option (Fin 8)) (s : State) :
    Holds K (lockAcquired w s) ↔ Holds K s := by
  unfold lockAcquired; split <;> simp

@[simp] theorem lockEnd_holds (K : Keep) (s : State) : Holds K (lockEnd s) ↔ Holds K s := by
  unfold lockEnd; split <;> simp

@[simp] theorem responseOut_holds (K : Keep) (o : Outbound) (r : BridgeFrame) (s : State) :
    Holds K (responseOut o r s) ↔ Holds K s := by
  unfold responseOut; simp

@[simp] theorem responsePosted_holds (K : Keep) (o : Outbound) (r : BridgeFrame) (s : State) :
    Holds K (responsePosted o r s) ↔ Holds K s := by
  unfold responsePosted; simp

@[simp] theorem responseIn_holds (K : Keep) (r : BridgeFrame) (s : State) : Holds K (responseIn r s) ↔ Holds K s := by
  unfold responseIn; (repeat' split) <;> simp

@[simp] theorem bridgeFrameIn_holds (K : Keep) (p : Option (Fin 4)) (resp bad : Bool) (r : BridgeFrame) (s : State) :
    Holds K (bridgeFrameIn p resp bad r s) ↔ Holds K s := by
  unfold bridgeFrameIn; simp

@[simp] theorem bridgeRx_holds (K : Keep) (p : Option (Fin 4)) (resp bad : Bool) (r : BridgeFrame) (s : State) :
    Holds K (bridgeRx p resp bad r s) ↔ Holds K s := by
  unfold bridgeRx; simp

@[simp] theorem resendOutbound_holds (K : Keep) (o : Outbound) (put : Outbound → State → State)
    (drop : State → State) (s : State) (hp : ∀ o s, Holds K (put o s) ↔ Holds K s)
    (hd : ∀ s, Holds K (drop s) ↔ Holds K s) :
    Holds K (resendOutbound o put drop s) ↔ Holds K s := by
  unfold resendOutbound; (repeat' split) <;> simp [hp, hd]
  rename_i h; simp [sendOutbound_writes outside _ _ _ _ h]

@[simp] theorem retryTimer_holds (K : Keep) (tag : BitVec 16) (s : State) :
    Holds K (retryTimer tag s) ↔ Holds K s := by
  unfold retryTimer; dsimp only; (repeat' split) <;> simp

@[simp] theorem reqTimeout_holds (K : Keep) (tag : BitVec 16) (s : State) :
    Holds K (reqTimeout tag s) ↔ Holds K s := by
  unfold reqTimeout; dsimp only; (repeat' split) <;> simp

@[simp] theorem startRead_holds (K : Keep) (src : Iface) (w : Fin 8) (off len : Nat) (s : State) :
    Holds K (startRead src w off len s) ↔ Holds K s := by
  unfold startRead; simp

@[simp] theorem splitReads_holds (K : Keep) (n : Nat) (w : Fin 8) (off len : Nat) (s : State) :
    Holds K (splitReads n w off len s) ↔ Holds K s := by
  induction n generalizing off len s with
  | zero => simp [splitReads]
  | succ n ih => unfold splitReads; split <;> simp [ih]

@[simp] theorem lbRemoteRead_holds (K : Keep) (be : BitVec 2) (high : Option (Nat × BitVec 16)) (w : Fin 8)
    (off : Nat) (s : State) :
    Holds K (lbRemoteRead be high w off s) ↔ Holds K s := by
  unfold lbRemoteRead; (repeat' split) <;> simp

@[simp] theorem postWrite_holds (K : Keep) (src : Iface) (w : Fin 8) (off : Nat) (data : List Byte) (s : State) :
    Holds K (postWrite src w off data s) ↔ Holds K s := by
  unfold postWrite; simp

@[simp] theorem lbLocked_holds (K : Keep) (lock : Bool) (w : Fin 8) (f : State → State) (s : State)
    (hf : ∀ s, Holds K (f s) ↔ Holds K s) :
    Holds K (lbLocked lock w f s) ↔ Holds K s := by
  unfold lbLocked; (repeat' split) <;> simp [hf]

@[simp] theorem lbWindowRead_holds (K : Keep) (lock : Bool) (w : Fin 8) (off : Nat) (s : State) :
    Holds K (lbWindowRead lock w off s) ↔ Holds K s := by
  unfold lbWindowRead; simp

@[simp] theorem windowRead_holds (K : Keep) (src : Iface) (w : Fin 8) (off len : Nat) (s : State) :
    Holds K (windowRead src w off len s) ↔ Holds K s := by
  unfold windowRead; split <;> simp

@[simp] theorem windowWrite_holds (K : Keep) (src : Iface) (w : Fin 8) (off : Nat) (data : List Byte) (s : State) :
    Holds K (windowWrite src w off data s) ↔ Holds K s := by
  unfold windowWrite; (repeat' split) <;> simp

@[simp] theorem bridgeSwitch_holds (K : Keep) (old : Option Directory) (s : State) :
    Holds K (bridgeSwitch old s) ↔ Holds K s := by
  unfold bridgeSwitch; dsimp only
  rw [bridgeRun_holds, forEach_holds, forEach_holds, forEach_holds]
  · split <;> simp
  · intro x s; simp
  · intro x s; simp
  · intro x s; (repeat' split) <;> simp

@[simp] theorem bar4Write_holds (K : Keep) (i : Iface) (off v : Nat) (s : State) :
    Holds K (bar4Write i off v s) ↔ Holds K s := by
  unfold bar4Write; simp

@[simp] theorem barAccess_holds (K : Keep) (dt : Nat) (src : Iface) (len : Nat) (w : Option (List Byte))
    (f : State → State) (s : State) (hf : ∀ s, Holds K (f s) ↔ Holds K s) :
    Holds K (barAccess dt src len w f s) ↔ Holds K s := by
  unfold barAccess; simp [hf]

@[simp] theorem spaceWrite_holds (K : Keep) (i : Iface) (a : Nat) (data : List Byte) (s : State) :
    Holds K (spaceWrite i a data s) ↔ Holds K s := by
  unfold spaceWrite; simp

@[simp] theorem spaceAccess_holds (K : Keep) (dt : Nat) (src : Iface) (a len : Nat) (w : Option (List Byte))
    (f : State → State) (s : State) (hf : ∀ s, Holds K (f s) ↔ Holds K s) :
    Holds K (spaceAccess dt src a len w f s) ↔ Holds K s := by
  unfold spaceAccess; simp [hf]

@[simp] theorem bar4Writes_holds (K : Keep) (i : Iface) (n a : Nat) (d : List Byte) (s : State) :
    Holds K (bar4Writes i n a d s) ↔ Holds K s := by
  induction n generalizing a d s with
  | zero => simp [bar4Writes]
  | succ n ih => unfold bar4Writes; simp [ih]

@[simp] theorem pcieRead_holds (K : Keep) (a len : Nat) (s : State) : Holds K (pcieRead a len s) ↔ Holds K s := by
  unfold pcieRead; simp

@[simp] theorem pcieWrite_holds (K : Keep) (a : Nat) (d : List Byte) (s : State) :
    Holds K (pcieWrite a d s) ↔ Holds K s := by
  unfold pcieWrite; simp

@[simp] theorem oddAccess_holds (K : Keep) (dt : Nat) (src : Iface) (addr width : Nat) (wdata : Option (List Byte))
    (s : State) :
    Holds K (oddAccess dt src addr width wdata s) ↔ Holds K s := by
  unfold oddAccess; split <;> simp

@[simp] theorem spiWrites_holds (K : Keep) (n a : Nat) (d : List Byte) (s : State) :
    Holds K (spiWrites n a d s) ↔ Holds K s := by
  induction n generalizing a d s with
  | zero => simp [spiWrites]
  | succ n ih => unfold spiWrites; split <;> simp [ih]

@[simp] theorem lbRegWrite_holds (K : Keep) (a v : Nat) (s : State) : Holds K (lbRegWrite a v s) ↔ Holds K s := by
  unfold lbRegWrite; simp

@[simp] theorem lbHalfWrite_holds (K : Keep) (a : Nat) (be : BitVec 2) (d : BitVec 16) (f : Nat → State → State)
    (s : State) (hf : ∀ v s, Holds K (f v s) ↔ Holds K s) :
    Holds K (lbHalfWrite a be d f s) ↔ Holds K s := by
  unfold lbHalfWrite; (repeat' split) <;> simp [hf]

@[simp] theorem lbWindowWrite_holds (K : Keep) (w : Fin 8) (off a : Nat) (be : BitVec 2) (d : BitVec 16) (s : State) :
    Holds K (lbWindowWrite w off a be d s) ↔ Holds K s := by
  unfold lbWindowWrite; simp

@[simp] theorem lbAccess_holds (K : Keep) (x : LbAccess) (s : State) : Holds K (lbAccess x s) ↔ Holds K s := by
  unfold lbAccess; (repeat' split) <;> simp

@[simp] theorem lbAbandoned_holds (K : Keep) (x : LbAccess) (s : State) : Holds K (lbAbandoned x s) ↔ Holds K s := by
  unfold lbAbandoned; simp

@[simp] theorem passOn_holds (K : Keep) (l : Fin 4) (core : Nat) (k : HeldKind) (a n : Nat) (d : Option (List Byte))
    (s : State) :
    Holds K (passOn l core k a n d s) ↔ Holds K s := by
  unfold passOn; split <;> simp

@[simp] theorem releaseHeld_holds (K : Keep) (l : Fin 4) (x : HeldAccess) (s : State) :
    Holds K (releaseHeld l x s) ↔ Holds K s := by
  unfold releaseHeld; simp

@[simp] theorem verdict_holds (K : Keep) (l : Fin 4) (w : BitVec 64) (clean : Bool) (s : State) :
    Holds K (verdict l w clean s) ↔ Holds K s := by
  unfold verdict; simp

@[simp] theorem splitTxn_holds (K : Keep) (l : Fin 4) (core : Nat) (x : CoreTxn) (s : State) :
    Holds K (splitTxn l core x s) ↔ Holds K s := by
  unfold splitTxn; (repeat' split) <;> simp

@[simp] theorem splitCycle_holds (K : Keep) (l : Fin 4) (core : Fin 2) (c : PairCycle) (s : State) :
    Holds K (splitCycle l core c s) ↔ Holds K s := by
  unfold splitCycle; dsimp only; (repeat' split) <;> simp_all

@[simp] theorem pairStep_holds (K : Keep) (l : Fin 4) (c : PairCycle) (s : State) :
    Holds K (pairStep l c s) ↔ Holds K s := by
  unfold pairStep; dsimp only; (repeat' split) <;> simp

@[simp] theorem pairRun_holds (K : Keep) (l : Fin 4) (cs : List PairCycle) (s : State) :
    Holds K (pairRun l cs s) ↔ Holds K s := by
  unfold pairRun; simp

@[simp] theorem fabDeliver_holds (K : Keep) (f : FabricFrame) (s : State) : Holds K (fabDeliver f s) ↔ Holds K s := by
  unfold fabDeliver; split <;> simp

@[simp] theorem fabFrameIn_holds (K : Keep) (k : Nat) (f : FabricFrame) (s : State) :
    Holds K (fabFrameIn k f s) ↔ Holds K s := by
  unfold fabFrameIn; simp

/-! ### Start, reset and the registration instant -/

@[simp] theorem powerOff_holds (K : Keep) (dev : DevSt) (s : State) : Holds K (powerOff dev s) ↔ Holds K s := by
  unfold powerOff; simp

@[simp] theorem beginStart_holds (K : Keep) (cause : Byte) (s : State) :
    Holds K (beginStart cause s) ↔ Holds K s := by
  unfold beginStart; simp

@[simp] theorem tapReset_holds (K : Keep) (s : State) : Holds K (tapReset s) ↔ Holds K s := by
  unfold tapReset; simp

@[simp] theorem powerGood_holds (K : Keep) (p : PowerGoodIn) (s : State) : Holds K (powerGood p s) ↔ Holds K s := by
  unfold powerGood; simp

@[simp] theorem stagedAtStart_holds (K : Keep) (s : State) : Holds K ((stagedAtStart s).2) ↔ Holds K s := by
  unfold stagedAtStart; (repeat' split) <;> simp

@[simp] theorem runningAtStart_holds (K : Keep) (s : State) : Holds K ((runningAtStart s).2) ↔ Holds K s := by
  unfold runningAtStart; (repeat' split) <;> simp

@[simp] theorem patchCheck_holds (K : Keep) (s : State) : Holds K ((patchCheck s).2) ↔ Holds K s := by
  unfold patchCheck; simp

@[simp] theorem startEvents_holds (K : Keep) (discarded : Option Nat) (s : State) :
    Holds K (startEvents discarded s) ↔ Holds K s := by
  unfold startEvents; (repeat' split) <;> simp

@[simp] theorem endStep2_holds (K : Keep) (s : State) : Holds K (endStep2 s) ↔ Holds K s := by
  unfold endStep2; simp

@[simp] theorem endStep6_holds (K : Keep) (corrupt : List Nat) (s : State) :
    Holds K (endStep6 corrupt s) ↔ Holds K s := by
  unfold endStep6; simp

@[simp] theorem startFailed_holds (K : Keep) (step : Nat) (s : State) : Holds K (startFailed step s) ↔ Holds K s := by
  unfold startFailed; simp

@[simp] theorem afterMemory_holds (K : Keep) (s : State) : Holds K (afterMemory s) ↔ Holds K s := by
  unfold afterMemory; simp

@[simp] theorem endStep3_holds (K : Keep) (logOk : Bool) (s : State) : Holds K (endStep3 logOk s) ↔ Holds K s := by
  unfold endStep3; simp

@[simp] theorem endStep4_holds (K : Keep) (s : State) : Holds K (endStep4 s) ↔ Holds K s := by
  unfold endStep4; simp

@[simp] theorem stepDone_holds (K : Keep) (r : StepResult) (s : State) : Holds K (stepDone r s) ↔ Holds K s := by
  unfold stepDone; simp

@[simp] theorem perstLow_holds (K : Keep) (s : State) : Holds K (perstLow s) ↔ Holds K s := by
  unfold perstLow; simp

@[simp] theorem restart_holds (K : Keep) (cause : Byte) (s : State) : Holds K (restart cause s) ↔ Holds K s := by
  unfold restart; simp

@[simp] theorem enterKiln_holds (K : Keep) (s : State) : Holds K (enterKiln s) ↔ Holds K s := by
  unfold enterKiln; simp

@[simp] theorem endsAtInstant_holds (K : Keep) (s : State) : Holds K (endsAtInstant s) ↔ Holds K s := by
  unfold endsAtInstant; simp

@[simp] theorem parkWake_holds (K : Keep) (s : State) : Holds K (parkWake s) ↔ Holds K s := by
  unfold parkWake; simp

@[simp] theorem backboneAtInstant_holds (K : Keep) (sw : State → State) (s : State)
    (hsw : ∀ s, Holds K (sw s) ↔ Holds K s) :
    Holds K (backboneAtInstant sw s) ↔ Holds K s := by
  unfold backboneAtInstant; simp [hsw]

@[simp] theorem mvbsAtInstant_holds (K : Keep) (s : State) : Holds K (mvbsAtInstant s) ↔ Holds K s := by
  unfold mvbsAtInstant; simp

@[simp] theorem upkeepAtInstant_holds (K : Keep) (s : State) : Holds K (upkeepAtInstant s) ↔ Holds K s := by
  unfold upkeepAtInstant; simp

@[simp] theorem serviceInstant_holds (K : Keep) (sw effective : Bool) (s : State) :
    Holds K (serviceInstant sw effective s) ↔ Holds K s := by
  unfold serviceInstant; simp

@[simp] theorem beforeRoles_holds (K : Keep) (polled hb : List Nat) (sw : State → State) (s : State)
    (hsw : ∀ s, Holds K (sw s) ↔ Holds K s) :
    Holds K (beforeRoles polled hb sw s) ↔ Holds K s := by
  unfold beforeRoles; simp [hsw]

@[simp] theorem afterRoles_holds (K : Keep) (sw took effective : Bool) (evs : List Event)
    (trig : Option (BitVec 16 × BitVec 32)) (s : State) :
    Holds K (afterRoles sw took effective evs trig s) ↔ Holds K s := by
  unfold afterRoles; simp

@[simp] theorem instantBody_holds (K : Keep) (polled hb : List Nat) (sw : State → State) (s : State)
    (hsw : ∀ s, Holds K (sw s) ↔ Holds K s) :
    Holds K (instantBody polled hb sw s) ↔ Holds K s := by
  unfold instantBody; simp [hsw]

@[simp] theorem yieldTo_holds (K : Keep) (p : Prepared) (t : Nat) (s : State) :
    Holds K (yieldTo p t s) ↔ Holds K s := by
  unfold yieldTo; simp

@[simp] theorem instant_holds (K : Keep) (s : State) : Holds K (instant s) ↔ Holds K s := by
  unfold instant; (repeat' split) <;> simp

@[simp] theorem instantIf_holds (K : Keep) (due : State → Bool) (dt : Nat) (s : State) :
    Holds K (instantIf due dt s) ↔ Holds K s := by
  unfold instantIf; simp

end Sys2Proof.Machine
end

section
/-! PROOFS. Every command answers a next state with the commands that waited and the identity that was fused. -/

namespace Sys2Proof.Machine

/-- A command that writes neither the queue nor the system block. -/
theorem holds_of_writes (K : Keep) {o : Host.Outcome State Fault Refusal} {s : State}
    (h : ∃ u, o = .next u ∧ (OnlyWrites outside s u ↔ OnlyWrites outside s s)) :
    ∃ u, o = .next u ∧ (Holds K u ↔ Holds K s) := by
  obtain ⟨u, hu, hw⟩ := h
  obtain ⟨hp, hs⟩ := (onlyWrites_outside s u).mp (hw.mpr (onlyWrites_refl _ s))
  exact ⟨u, hu, by rw [holds_iff, holds_iff, hp, hs]⟩

/-- A mailbox command answers `submit` (or `submitLater`) of its chapter's part (`submit_holds`). -/
theorem exec_request_holds (K : Keep) (i : Instr) (s : State) (h : (requestOf i).isSome = true) :
    ∃ u, exec i s = .next u ∧ (Holds K u ↔ Holds K s) := by
  cases i with
  | sysIdentity dt r | sysNop dt r | sysReset dt r | sysEventMask dt r | sysPatchStage dt r | sysPatchVerify dt r
  | sysLogRead dt r | sysProfileConfirm dt r | sysDebugNonce dt r | sysDebugUnlock dt r | sysDebugRelock dt r
  | topoStatus dt r | topoDirectory dt r | topoPositionMap dt r | topoSetLeading dt r | topoSetIdentity dt r
  | topoColdStart dt r | trunkSetPolicy dt r | trunkStatus dt r | trunkBypassPassive dt r | trunkBypassActive dt r
  | trunkRetrain dt r | schedStatus dt r | schedStage dt r | schedVerify dt r | schedHold dt r | schedActivate dt r
  | schedRelease dt r | schedEntryStatus dt r | timeStatus dt r | timeSet dt r | timePtpConfig dt r
  | timeDomainPolicy dt r | timeSteer dt r | timePtpStatus dt r | flowSet dt r | flowGet dt r | flowStatus dt r
  | flowSave dt r | flowMacsecKey dt r | sessionOpen dt r | sessionSend dt r | sessionRecv dt r | sessionClose dt r
  | twinStatus dt r | twinConfig dt r | twinSwitchover dt r | twinServiceOut dt r | twinServiceReturn dt r
  | twinRenew dt r | lskStatus dt r | lskPairConfig dt r | lskPairReset dt r | lskSplit dt r | lskRejoin dt r
  | lskSubstitute dt r | canSave dt r | canLoad dt r | mvbConfig dt r | mvbPollStage dt r | mvbPollCommit dt r
  | mvbPortSet dt r | mvbPortWrite dt r | mvbPortRead dt r | mvbStatus dt r | swcPortConfig dt r
  | swcPortStatus dt r | swcVlanSet dt r | swcStreamSet dt r | swcGclStage dt r | swcGclCommit dt r
  | swcMacsecKey dt r | swcStreamStatus dt r | swcSave dt r | fabStatus dt r | fabConfig dt r | fabWindowSet dt r
  | fabSlotTable dt r | fabBridgeStatus dt r | fabPwlog dt r | fabSemRelease dt r | pwrStatus dt r
  | pwrDomainConfig dt r | pwrPark dt r | pwrParkWithdraw dt r | pwrKiln dt r | pwrKilnWithdraw dt r
  | pwrWakeConfig dt r | repStatus dt r | repLog dt r | repTest dt r | repCalibrate dt r | repRotation dt r
  | recStatus dt r | recConfig dt r | recTrigger dt r | recCask dt r | recRelease dt r | recPage dt r =>
    exact ⟨_, rfl, by simp⟩
  | _ => cases h

/-- What writes no system block is told by the law of its own on `OnlyWrites`; the mailbox commands are told above; what is
left may write the system block, at a start, a reset, an instant or through an access, and its operations keep `Holds`. -/
theorem exec_holds (K : Keep) (i : Instr) (s : State) : ∃ u, exec i s = .next u ∧ (Holds K u ↔ Holds K s) := by
  cases i with
  | supervisorFatalFault dt => exact holds_of_writes K (by apply execSupervisorFatalFault_writes <;> simp)
  | inputVoltageChange dt vin => exact holds_of_writes K (by apply execInputVoltageChange_writes <;> simp)
  | storeOkChange dt vstore => exact holds_of_writes K (by apply execStoreOkChange_writes <;> simp)
  | lossDeclared dt vin vstore => exact holds_of_writes K (by apply execLossDeclared_writes <;> simp)
  | shutdownBypassClose dt => exact holds_of_writes K (by apply execShutdownBypassClose_writes <;> simp)
  | pd0Stop dt => exact holds_of_writes K (by apply execPd0Stop_writes <;> simp)
  | thermalChange dt case die => exact holds_of_writes K (by apply execThermalChange_writes <;> simp)
  | powerDomainIdle dt d idle next => exact holds_of_writes K (by apply execPowerDomainIdle_writes <;> simp)
  | domainWakeTimer dt d => exact holds_of_writes K (by apply execDomainWakeTimer_writes <;> simp)
  | asyncDomainWake dt d due => exact holds_of_writes K (by apply execAsyncDomainWake_writes <;> simp)
  | holdoverEntry dt => exact holds_of_writes K (by apply execHoldoverEntry_writes <;> simp)
  | nextOpenSet dt => exact holds_of_writes K (by apply execNextOpenSet_writes <;> simp)
  | releaseDeadline dt => exact holds_of_writes K (by apply execReleaseDeadline_writes <;> simp)
  | lossOfSignal dt p => exact holds_of_writes K (by apply execLossOfSignal_writes <;> simp)
  | resumeEntry dt p => exact holds_of_writes K (by apply execResumeEntry_writes <;> simp)
  | signalRelock dt p => exact holds_of_writes K (by apply execSignalRelock_writes <;> simp)
  | linkDownTimeout dt p => exact holds_of_writes K (by apply execLinkDownTimeout_writes <;> simp)
  | partnerEnergyDetect dt p => exact holds_of_writes K (by apply execPartnerEnergyDetect_writes <;> simp)
  | trainingLockComplete dt p => exact holds_of_writes K (by apply execTrainingLockComplete_writes <;> simp)
  | qualifyComplete dt p partner => exact holds_of_writes K (by apply execQualifyComplete_writes <;> simp)
  | codeViolationLimit dt p violations lockLost =>
    exact holds_of_writes K (by apply execCodeViolationLimit_writes <;> simp)
  | negotiateTimeout dt p => exact holds_of_writes K (by apply execNegotiateTimeout_writes <;> simp)
  | t1LinkUp dt p partner => exact holds_of_writes K (by apply execT1LinkUp_writes <;> simp)
  | t1RoleSwap dt p => exact holds_of_writes K (by apply execT1RoleSwap_writes <;> simp)
  | delayRequest dt p idle tTx => exact holds_of_writes K (by apply execDelayRequest_writes <;> simp)
  | delayMarkerRx dt p m tRx tTx => exact holds_of_writes K (by apply execDelayMarkerRx_writes <;> simp)
  | delayFollowUpRx dt p m => exact holds_of_writes K (by apply execDelayFollowUpRx_writes <;> simp)
  | peerDelayRequest dt p tTx => exact holds_of_writes K (by apply execPeerDelayRequest_writes <;> simp)
  | bypassLineAClose dt => exact holds_of_writes K (by apply execBypassLineAClose_writes <;> simp)
  | bypassLineBClose dt => exact holds_of_writes K (by apply execBypassLineBClose_writes <;> simp)
  | bypassLineAOpen dt => exact holds_of_writes K (by apply execBypassLineAOpen_writes <;> simp)
  | bypassLineBOpen dt => exact holds_of_writes K (by apply execBypassLineBOpen_writes <;> simp)
  | bypassSenseCheck dt line closed => exact holds_of_writes K (by apply execBypassSenseCheck_writes <;> simp)
  | linkBeaconSend dt p idleFor => exact holds_of_writes K (by apply execLinkBeaconSend_writes <;> simp)
  | passiveBeaconSend dt => exact holds_of_writes K (by apply execPassiveBeaconSend_writes <;> simp)
  | linkBeaconRx dt p b tRx => exact holds_of_writes K (by apply execLinkBeaconRx_writes <;> simp)
  | breakRx dt p b => exact holds_of_writes K (by apply execBreakRx_writes <;> simp)
  | directoryRx dt p d => exact holds_of_writes K (by apply execDirectoryRx_writes <;> simp)
  | joinRx dt p j => exact holds_of_writes K (by apply execJoinRx_writes <;> simp)
  | coldClaimRx dt p c => exact holds_of_writes K (by apply execColdClaimRx_writes <;> simp)
  | mergeReportRx dt p m => exact holds_of_writes K (by apply execMergeReportRx_writes <;> simp)
  | leadSetRx dt p vid => exact holds_of_writes K (by apply execLeadSetRx_writes <;> simp)
  | openingFrameRx dt p f tRx fin => exact holds_of_writes K (by apply execOpeningFrameRx_writes <;> simp)
  | coldStartTimeout dt => exact holds_of_writes K (by apply execColdStartTimeout_writes <;> simp)
  | coldClaimSend dt => exact holds_of_writes K (by apply execColdClaimSend_writes <;> simp)
  | contendTimeout dt => exact holds_of_writes K (by apply execContendTimeout_writes <;> simp)
  | provisionalNoJoin dt => exact holds_of_writes K (by apply execProvisionalNoJoin_writes <;> simp)
  | scheduledSend dt entry transit => exact holds_of_writes K (by apply execScheduledSend_writes <;> simp)
  | sporadicAbort dt passing => exact holds_of_writes K (by apply execSporadicAbort_writes <;> simp)
  | trunkFrameForward dt p f tRx => exact holds_of_writes K (by apply execTrunkFrameForward_writes <;> simp)
  | flowFrameRx dt src f fin => exact holds_of_writes K (by apply execFlowFrameRx_writes <;> simp)
  | sessionFrameRx dt p f => exact holds_of_writes K (by apply execSessionFrameRx_writes <;> simp)
  | sessionRetransmit dt sid opener => exact holds_of_writes K (by apply execSessionRetransmit_writes <;> simp)
  | tcxoStop dt => exact holds_of_writes K (by apply execTcxoStop_writes <;> simp)
  | tcxoRestart dt => exact holds_of_writes K (by apply execTcxoRestart_writes <;> simp)
  | ptpSyncRx dt port m => exact holds_of_writes K (by apply execPtpSyncRx_writes <;> simp)
  | ptpAnnounceRx dt port m => exact holds_of_writes K (by apply execPtpAnnounceRx_writes <;> simp)
  | ptpMessageSend dt inst kind => exact holds_of_writes K (by apply execPtpMessageSend_writes <;> simp)
  | ptpSyncTimeout dt inst announce => exact holds_of_writes K (by apply execPtpSyncTimeout_writes <;> simp)
  | domainReturnTimer dt => exact holds_of_writes K (by apply execDomainReturnTimer_writes <;> simp)
  | tioPulseEdge dt n at_ assert_ => exact holds_of_writes K (by apply execTioPulseEdge_writes <;> simp)
  | tioCaptureEdge dt n at_ rising width => exact holds_of_writes K (by apply execTioCaptureEdge_writes <;> simp)
  | tioArm dt n src value => exact holds_of_writes K (by apply execTioArm_writes <;> simp)
  | tioStop dt n src value => exact holds_of_writes K (by apply execTioStop_writes <;> simp)
  | tioCapRead dt n src => exact holds_of_writes K (by apply execTioCapRead_writes <;> simp)
  | heartbeatRx dt path h => exact holds_of_writes K (by apply execHeartbeatRx_writes <;> simp)
  | rackingFrameRx dt f => exact holds_of_writes K (by apply execRackingFrameRx_writes <;> simp)
  | regionStagingApply dt => exact holds_of_writes K (by apply execRegionStagingApply_writes <;> simp)
  | copyOnWrite dt page addr data => exact holds_of_writes K (by apply execCopyOnWrite_writes <;> simp)
  | holdBufferStall dt l cycles => exact holds_of_writes K (by apply execHoldBufferStall_writes <;> simp)
  | pairAccessFault dt l core addr => exact holds_of_writes K (by apply execPairAccessFault_writes <;> simp)
  | handoverPoint dt l => exact holds_of_writes K (by apply execHandoverPoint_writes <;> simp)
  | debugAccess dt l => exact holds_of_writes K (by apply execDebugAccess_writes <;> simp)
  | pairReadyWrite dt l core value => exact holds_of_writes K (by apply execPairReadyWrite_writes <;> simp)
  | canFrameRx dt c f own => exact holds_of_writes K (by apply execCanFrameRx_writes <;> simp)
  | canTxComplete dt c tdcv => exact holds_of_writes K (by apply execCanTxComplete_writes <;> simp)
  | canArbitrationLost dt c => exact holds_of_writes K (by apply execCanArbitrationLost_writes <;> simp)
  | canError dt c e => exact holds_of_writes K (by apply execCanError_writes <;> simp)
  | canRecoveryComplete dt c occ => exact holds_of_writes K (by apply execCanRecoveryComplete_writes <;> simp)
  | canIntegrationComplete dt c => exact holds_of_writes K (by apply execCanIntegrationComplete_writes <;> simp)
  | canWakePattern dt c => exact holds_of_writes K (by apply execCanWakePattern_writes <;> simp)
  | canModeWrite dt c src value busy => exact holds_of_writes K (by apply execCanModeWrite_writes <;> simp)
  | canTxrqWrite dt c m src value => exact holds_of_writes K (by apply execCanTxrqWrite_writes <;> simp)
  | canTxcanWrite dt c m src value => exact holds_of_writes K (by apply execCanTxcanWrite_writes <;> simp)
  | canHpbRequest dt c src value => exact holds_of_writes K (by apply execCanHpbRequest_writes <;> simp)
  | canHpbCancel dt c src value => exact holds_of_writes K (by apply execCanHpbCancel_writes <;> simp)
  | canRecoverStart dt c src value => exact holds_of_writes K (by apply execCanRecoverStart_writes <;> simp)
  | canFifoPop dt c src value => exact holds_of_writes K (by apply execCanFifoPop_writes <;> simp)
  | canObjectWord0Read dt c o src => exact holds_of_writes K (by apply execCanObjectWord0Read_writes <;> simp)
  | canObjectWrite dt c o word src value => exact holds_of_writes K (by apply execCanObjectWrite_writes <;> simp)
  | canTtCommitWrite dt c src cycle => exact holds_of_writes K (by apply execCanTtCommitWrite_writes <;> simp)
  | canReferenceRx dt c count => exact holds_of_writes K (by apply execCanReferenceRx_writes <;> simp)
  | canReferenceAbandon dt c => exact holds_of_writes K (by apply execCanReferenceAbandon_writes <;> simp)
  | canSlaveRefTimeout dt c => exact holds_of_writes K (by apply execCanSlaveRefTimeout_writes <;> simp)
  | canHatchWindow dt c col idle => exact holds_of_writes K (by apply execCanHatchWindow_writes <;> simp)
  | canHatchWindowEnd dt c col => exact holds_of_writes K (by apply execCanHatchWindowEnd_writes <;> simp)
  | mvbBasicPeriodStart dt g => exact holds_of_writes K (by apply execMvbBasicPeriodStart_writes <;> simp)
  | mvbMasterFrameSend dt g => exact holds_of_writes K (by apply execMvbMasterFrameSend_writes <;> simp)
  | mvbNoReplyTimeout dt g => exact holds_of_writes K (by apply execMvbNoReplyTimeout_writes <;> simp)
  | mvbMasterFrameRx dt g f => exact holds_of_writes K (by apply execMvbMasterFrameRx_writes <;> simp)
  | mvbSlaveFrameRx dt g f => exact holds_of_writes K (by apply execMvbSlaveFrameRx_writes <;> simp)
  | consistFrameRx dt f => exact holds_of_writes K (by apply execConsistFrameRx_writes <;> simp)
  | consistFrameEgress dt port queue => exact holds_of_writes K (by apply execConsistFrameEgress_writes <;> simp)
  | addressAgeing dt mac vid => exact holds_of_writes K (by apply execAddressAgeing_writes <;> simp)
  | frerResetTimer dt handle => exact holds_of_writes K (by apply execFrerResetTimer_writes <;> simp)
  | mkaPduRx dt port m => exact holds_of_writes K (by apply execMkaPduRx_writes <;> simp)
  | sakDistribute dt port => exact holds_of_writes K (by apply execSakDistribute_writes <;> simp)
  | consistLinkChange dt port up speed t1Master =>
    exact holds_of_writes K (by apply execConsistLinkChange_writes <;> simp)
  | fabricBeaconSend dt k => exact holds_of_writes K (by apply execFabricBeaconSend_writes <;> simp)
  | fabricBeaconRx dt k b => exact holds_of_writes K (by apply execFabricBeaconRx_writes <;> simp)
  | fabricAckTimeout dt k => exact holds_of_writes K (by apply execFabricAckTimeout_writes <;> simp)
  | fabricLinkDown dt k => exact holds_of_writes K (by apply execFabricLinkDown_writes <;> simp)
  | fabricLinkUp dt k => exact holds_of_writes K (by apply execFabricLinkUp_writes <;> simp)
  | fabricLaneSwitch dt k lane errors => exact holds_of_writes K (by apply execFabricLaneSwitch_writes <;> simp)
  | spareLaneGood dt k errors => exact holds_of_writes K (by apply execSpareLaneGood_writes <;> simp)
  | fabricReportRx dt p r => exact holds_of_writes K (by apply execFabricReportRx_writes <;> simp)
  | fabricTickSend dt => exact holds_of_writes K (by apply execFabricTickSend_writes <;> simp)
  | fabricTickRx dt k t tRx residence => exact holds_of_writes K (by apply execFabricTickRx_writes <;> simp)
  | proxyFrameRx dt slot entry f => exact holds_of_writes K (by apply execProxyFrameRx_writes <;> simp)
  | fabricSubscribeRx dt slot flows => exact holds_of_writes K (by apply execFabricSubscribeRx_writes <;> simp)
  | bridgeFetchStale dt => exact holds_of_writes K (by apply execBridgeFetchStale_writes <;> simp)
  | bridgeBusyRetry dt => exact holds_of_writes K (by apply execBridgeBusyRetry_writes <;> simp)
  | fabSemRead dt src k => exact holds_of_writes K (by apply execFabSemRead_writes <;> simp)
  | fabSemWrite dt src k value => exact holds_of_writes K (by apply execFabSemWrite_writes <;> simp)
  | semTmoExpiry dt k => exact holds_of_writes K (by apply execSemTmoExpiry_writes <;> simp)
  | fabVecPendWrite dt src value => exact holds_of_writes K (by apply execFabVecPendWrite_writes <;> simp)
  | memoryEccError dt e => exact holds_of_writes K (by apply execMemoryEccError_writes <;> simp)
  | scrubSlice dt w => exact holds_of_writes K (by apply execScrubSlice_writes <;> simp)
  | bankDrainComplete dt bank => exact holds_of_writes K (by apply execBankDrainComplete_writes <;> simp)
  | rotationStep dt => exact holds_of_writes K (by apply execRotationStep_writes <;> simp)
  | logicSelfTestComplete dt phys passed monitors =>
    exact holds_of_writes K (by apply execLogicSelfTestComplete_writes <;> simp)
  | agingMonitorRead dt monitors => exact holds_of_writes K (by apply execAgingMonitorRead_writes <;> simp)
  | mbxLockRead dt src mbx => exact holds_of_writes K (by apply execMbxLockRead_writes <;> simp)
  | mbxLockWrite dt src mbx value => exact holds_of_writes K (by apply execMbxLockWrite_writes <;> simp)
  | evqRdWrite dt src value => exact holds_of_writes K (by apply execEvqRdWrite_writes <;> simp)
  | evqHoldTimeout dt => exact holds_of_writes K (by apply execEvqHoldTimeout_writes <;> simp)
  | pdiReleaseHost dt src value => exact holds_of_writes K (by apply execPdiReleaseHost_writes <;> simp)
  | pdiReleasePair dt l value => exact holds_of_writes K (by apply execPdiReleasePair_writes <;> simp)
  | pdiRelMaskWrite dt src value => exact holds_of_writes K (by apply execPdiRelMaskWrite_writes <;> simp)
  | multiRegisterLatchRead dt src addr =>
    exact holds_of_writes K (by apply execMultiRegisterLatchRead_writes <;> simp)
  | rcFieldRead dt src addr => exact holds_of_writes K (by apply execRcFieldRead_writes <;> simp)
  | autonegComplete dt p m1000 m100 master => exact holds_of_writes K (by apply execAutonegComplete_writes <;> simp)
  | trainingFailure dt p answered => exact holds_of_writes K (by apply execTrainingFailure_writes <;> simp)
  | t1LinkDown dt p => exact holds_of_writes K (by apply execT1LinkDown_writes <;> simp)
  | ttdpFrameRx dt p t => exact holds_of_writes K (by apply execTtdpFrameRx_writes <;> simp)
  | trunkDomainSyncRx dt p domain origin tRx =>
    exact holds_of_writes K (by apply execTrunkDomainSyncRx_writes <;> simp)
  | islandInaugurationComplete dt dir wtbAddrs interior master reporter =>
    exact holds_of_writes K (by apply execIslandInaugurationComplete_writes <;> simp)
  | islandTelegramRx dt addr data okA okB => exact holds_of_writes K (by apply execIslandTelegramRx_writes <;> simp)
  | islandTelegramSend dt => exact holds_of_writes K (by apply execIslandTelegramSend_writes <;> simp)
  | nonScheduledSend dt p transitBusy => exact holds_of_writes K (by apply execNonScheduledSend_writes <;> simp)
  | rackingFrameSend dt room => exact holds_of_writes K (by apply execRackingFrameSend_writes <;> simp)
  | powerGood dt p | startStepComplete dt r | startRetry dt | perstAssert dt | perstRelease dt
  | supervisorWatchdogExpiry dt | nodeResetApply dt | converterStop dt vin | parkEntry dt | kilnEntry dt
  | wakeSource dt src port | wakeLLowTimeout dt | parkWakeComplete dt | registrationInstant | takeover dt
  | takeoverPartnerOut dt | stepDown dt | nonpreferredActivate dt | rackAbandon dt | burinVerdict dt l cycles
  | checkerFault dt l | cacheUncorrectable dt l core | pairRestart dt l | splitInstant dt l
  | substitutionTransfer dt l | rejoinInstant dt l | handoverAbandon dt l | jtagExtest dt | canMatrixCommit dt c
  | fabricSlotAssign dt uid | fabricFrameRx dt k f | bridgeRequestRx dt p r bad | bridgeResponseRx dt p r
  | bridgeWithdrawRx dt p r | bridgeRetryTimer dt tag | bridgeReqTimeout dt tag | remoteWindowRead dt src w off len
  | remoteWindowWrite dt src w off data | lockedSequenceStart dt w off | lockedSequenceEnd dt | agingStepApply dt
  | queuedCommandComplete dt seq status | mailboxWrite dt src mbx off data | nextWindowWrite dt src off data
  | currentWindowWrite dt src off data | unalignedAccess dt src addr width wdata
  | unmappedAccess dt src addr width wdata | doorbellRing dt src mbx value =>
    exact ⟨_, rfl, by simp⟩
  | yieldSwitch dt => exact ⟨_, rfl, by split <;> simp⟩
  | localBusAccess dt a | registerWrite dt src addr value => exact ⟨_, rfl, by simp [ite_apply]⟩
  | pcieMultiDwordRequest dt addr len wdata => exact ⟨_, rfl, by cases wdata <;> simp⟩
  | spiTransfer dt addr words wdata => exact ⟨_, rfl, by cases wdata <;> simp⟩
  | _ => exact exec_request_holds K _ s rfl

end Sys2Proof.Machine
end

section
/-! PROOFS. What every command and every step keeps (spec/00_scope.md), and the counters of class sat (R14). -/

namespace Sys2Proof.Machine

/-! ## Counters of class sat (R14) -/

/-- One count moves the counter up by one, but not past its maximum. -/
theorem satInc_toNat (c : Sat) : (satInc c).n.toNat = min (c.n.toNat + 1) 0xFFFFFFFF := by
  unfold satInc
  split
  case isTrue hmax => simp [hmax]
  case isFalse hlow =>
    have hne : c.n.toNat ≠ 0xFFFFFFFF := fun h => hlow (BitVec.eq_of_toNat_eq h)
    rw [BitVec.toNat_add, show (1 : BitVec 32).toNat = 1 from rfl]
    omega

/-- One count sets the overflow bit exactly when the counter stands at its maximum. -/
theorem satInc_ovf (c : Sat) : (satInc c).ovf = true ↔ c.ovf = true ∨ 0xFFFFFFFF < c.n.toNat + 1 := by
  unfold satInc
  split
  case isTrue hmax => simp [hmax]
  case isFalse hlow =>
    have hne : c.n.toNat ≠ 0xFFFFFFFF := fun h => hlow (BitVec.eq_of_toNat_eq h)
    have hlt : ¬ 0xFFFFFFFF < c.n.toNat + 1 := by omega
    simp only [hlt, or_false]

theorem satAdd_toNat (k : Nat) (c : Sat) : (satAdd k c).n.toNat = min (c.n.toNat + k) 0xFFFFFFFF := by
  induction k generalizing c with
  | zero => simp only [satAdd]; omega
  | succ k ih => rw [satAdd, ih, satInc_toNat]; omega

theorem satAdd_ovf (k : Nat) (c : Sat) :
    (satAdd k c).ovf = true ↔ c.ovf = true ∨ 0xFFFFFFFF < c.n.toNat + k := by
  induction k generalizing c with
  | zero =>
    have hlt : ¬ 0xFFFFFFFF < c.n.toNat + 0 := by omega
    simp only [satAdd, hlt, or_false]
  | succ k ih =>
    rw [satAdd, ih, satInc_ovf, satInc_toNat, or_assoc]
    exact or_congr_right (by omega)

/-! ## What a step keeps -/

theorem step_of_empty {s : State} (h : s.pending = []) : step s = .next s := by
  simp [step, h]

theorem step_of_front {c : Instr} {cs : List Instr} {s : State} (h : s.pending = c :: cs) :
    step s = exec c { s with pending := cs } := by
  simp [step, h]

/-- Whatever a command answers from a sound state is sound, and has the same waiting commands and fused identity. -/
theorem exec_keeps_sound {i : Instr} {s t : State} (hs : Sound s) (h : exec i s = .next t) :
    Kept (s.pending, fusedOf s.sys) t := by
  obtain ⟨u, hu, hkept⟩ := exec_kept (s.pending, fusedOf s.sys) i s
  obtain rfl : u = t := Host.Outcome.next.inj (hu.symm.trans h)
  exact hkept.mpr ⟨rfl, rfl, hs⟩

end Sys2Proof.Machine
end

section
/-! PROOFS. The statements of spec/00_scope.md. -/

open Sys2Proof Sys2Proof.Machine

/-- Settles O49: by induction on the counts, from what one count does. -/
theorem countersStopAtTheirMaximum : Obligations.CountersStopAtTheirMaximum :=
  fun k c => ⟨satAdd_toNat k c, satAdd_ovf k c⟩

/-- Settles O42: the queue and the fused identity by `exec_holds`, in a state with any parts; the parts by `exec_kept`. -/
theorem everyCommandCompletes : Obligations.EveryCommandCompletes := by
  intro i s
  obtain ⟨t, ht, hholds⟩ := exec_holds (s.pending, fusedOf s.sys) i s
  obtain ⟨hpending, hfused⟩ := (holds_iff _ t).mp (hholds.mpr ((holds_iff _ s).mpr ⟨rfl, rfl⟩))
  refine ⟨t, ht, hpending, hfused, fun hs => ?_⟩
  obtain ⟨-, -, hsound⟩ := exec_keeps_sound hs ht
  exact hsound

/-- Settles O43: with no command waiting nothing changes; else the front command runs on the rest of the queue. -/
theorem everyStepKeepsSound : Obligations.EveryStepKeepsSound := by
  intro s t hs h
  cases hq : s.pending with
  | nil =>
    obtain rfl := Host.Outcome.next.inj ((step_of_empty hq).symm.trans h)
    exact ⟨hs, rfl, hq⟩
  | cons c cs =>
    rw [step_of_front hq] at h
    obtain ⟨hpending, hfused, hsound⟩ := exec_keeps_sound (s := { s with pending := cs }) hs h
    exact ⟨hsound, hfused, hpending⟩

end

section
/-! PROOFS. Nothing but the passing of time moves the clock of the machine: whatever takes effect at a registration instant
leaves it where the count has run to. -/

namespace Sys2Proof.Machine

/-- Every block but the clock. -/
def clockless : List Block :=
  [.pending, .now, .free, .emit, .sys, .mbx, .cmd, .trunk, .ina, .sched, .time, .flow, .twin, .lsk, .can, .mvb, .swc, .fab,
   .bridge, .vec, .pwr, .rep, .shelf, .shadows, .summaries]

@[simp] theorem mem_clockless (b : Block) : b ∈ clockless ↔ b ≠ .clk := by
  cases b <;> decide

theorem onlyWrites_clockless (S s : State) : OnlyWrites clockless S s ↔ s.clk = S.clk := by
  rw [onlyWrites_parts]; simp

/-- `OnlyWrites clockless` in terms of the part it reads. -/
def SameClk (S : State) (c : Nat) : Prop := c = S.clk

@[simp] theorem clockless_mk (S : State) (p n c fr e sys cmd trunk ina sched time flow twin lsk can mvb swc fab bridge pwr rep
    shelf shadows s1 s2 s3) :
    OnlyWrites clockless S (State.mk p n c fr e sys cmd trunk ina sched time flow twin lsk can mvb swc fab bridge pwr rep
      shelf shadows s1 s2 s3) ↔ SameClk S c := onlyWrites_clockless _ _

@[simp] theorem clockless_fold (S s : State) : SameClk S s.clk ↔ OnlyWrites clockless S s :=
  (onlyWrites_clockless S s).symm

section
variable (S : State)

/-! ### CAN channels, vehicle bus and switch -/

@[simp] theorem gclAtInstant_clk (s : State) :
    OnlyWrites clockless S (gclAtInstant s) ↔ OnlyWrites clockless S s := by
  unfold gclAtInstant; simp

@[simp] theorem peerLost_clk (p : Nat) (s : State) :
    OnlyWrites clockless S (peerLost p s) ↔ OnlyWrites clockless S s := by
  unfold peerLost; simp

@[simp] theorem swApply_clk (p : Nat) (c : SwcCfg) (s : State) :
    OnlyWrites clockless S (swApply p c s) ↔ OnlyWrites clockless S s := by
  unfold swApply; simp

@[simp] theorem swcNodeReset_clk (s : State) :
    OnlyWrites clockless S (swcNodeReset s) ↔ OnlyWrites clockless S s := by
  unfold swcNodeReset; simp

@[simp] theorem canNodeReset_clk (c : Nat) (s : State) :
    OnlyWrites clockless S (canNodeReset c s) ↔ OnlyWrites clockless S s := by
  unfold canNodeReset; simp

@[simp] theorem canRefer_clk (c : Nat) (s : State) :
    OnlyWrites clockless S (canRefer c s) ↔ OnlyWrites clockless S s := by
  unfold canRefer; simp

@[simp] theorem canToSlave_clk (c : Nat) (s : State) :
    OnlyWrites clockless S (canToSlave c s) ↔ OnlyWrites clockless S s := by
  unfold canToSlave; simp

@[simp] theorem canMasterBegin_clk (c n : Nat) (whole : Bool) (s : State) :
    OnlyWrites clockless S (canMasterBegin c n whole s) ↔ OnlyWrites clockless S s := by
  unfold canMasterBegin; simp

@[simp] theorem canAtInstant_clk (switch : Bool) (c : Nat) (s0 : State) :
    OnlyWrites clockless S (canAtInstant switch c s0) ↔ OnlyWrites clockless S s0 := by
  unfold canAtInstant; simp

@[simp] theorem canLinkLoad_clk (rd : Nat → Nat → Nat → List Byte) (effective : Bool) (c : Nat)
    (s : State) :
    OnlyWrites clockless S (canLinkLoad rd effective c s) ↔ OnlyWrites clockless S s := by
  unfold canLinkLoad; simp

@[simp] theorem canRegWrite_clk (c off : Nat) (v : BitVec 32) (s : State) :
    OnlyWrites clockless S (canRegWrite c off v s) ↔ OnlyWrites clockless S s := by
  unfold canRegWrite; dsimp only; (repeat' split) <;> simp

@[simp] theorem canWrite_clk (c off : Nat) (v : BitVec 32) (s : State) :
    OnlyWrites clockless S (canWrite c off v s) ↔ OnlyWrites clockless S s := by
  unfold canWrite; (repeat' split) <;> simp

@[simp] theorem mvbNodeReset_clk (g : Nat) (s : State) :
    OnlyWrites clockless S (mvbNodeReset g s) ↔ OnlyWrites clockless S s := by
  unfold mvbNodeReset; simp

@[simp] theorem swAtInstant_clk (s : State) : OnlyWrites clockless S (swAtInstant s) ↔ OnlyWrites clockless S s := by
  unfold swAtInstant
  simp only [gclAtInstant_clk, peerLost_clk, forEach_writes, implies_true]
  refine forEach_writes _ _ _ _ s fun p s => ?_
  split <;> simp

@[simp] theorem mvbAtInstant_clk (rd : Nat → Nat → Nat → List Byte) (g : Nat) (s : State) :
    OnlyWrites clockless S (mvbAtInstant rd g s) ↔ OnlyWrites clockless S s := by
  unfold mvbAtInstant; split <;> simp

/-! ### Trunk, inauguration, schedule and train time -/

@[simp] theorem cycleSample_clk (s : State) :
    OnlyWrites clockless S (cycleSample s) ↔ OnlyWrites clockless S s := by
  unfold cycleSample; simp

@[simp] theorem tioNodeReset_clk (n : Nat) (s : State) :
    OnlyWrites clockless S (tioNodeReset n s) ↔ OnlyWrites clockless S s := by
  unfold tioNodeReset; simp

@[simp] theorem sendLeading_clk (s : State) :
    OnlyWrites clockless S (sendLeading s) ↔ OnlyWrites clockless S s := by
  unfold sendLeading; split <;> simp

@[simp] theorem performRemovals_clk (due : List Removal) (s : State) :
    OnlyWrites clockless S (performRemovals due s) ↔ OnlyWrites clockless S s := by
  unfold performRemovals; split <;> simp

@[simp] theorem removalsAtInstant_clk (s : State) :
    OnlyWrites clockless S (removalsAtInstant s) ↔ OnlyWrites clockless S s := by
  unfold removalsAtInstant; dsimp only; (repeat' split) <;> simp

@[simp] theorem prepareAddition_clk (s : State) :
    OnlyWrites clockless S (prepareAddition s) ↔ OnlyWrites clockless S s := by
  unfold prepareAddition; split <;> simp

@[simp] theorem prepareMerge_clk (m : MergeReport) (s : State) :
    OnlyWrites clockless S (prepareMerge m s) ↔ OnlyWrites clockless S s := by
  unfold prepareMerge; split <;> simp

@[simp] theorem mergeStep_clk (m : MergeReport) (p : Prepared) (s : State) :
    OnlyWrites clockless S (mergeStep m p s) ↔ OnlyWrites clockless S s := by
  unfold mergeStep; simp

@[simp] theorem commitDue_clk (fresh : Bool) (s : State) :
    OnlyWrites clockless S (commitDue fresh s) ↔ OnlyWrites clockless S s := by
  unfold commitDue; split <;> simp

@[simp] theorem firstNodePrepares_clk (s : State) :
    OnlyWrites clockless S (firstNodePrepares s) ↔ OnlyWrites clockless S s := by
  unfold firstNodePrepares; (repeat' split) <;> simp

@[simp] theorem sendDirectories_clk (s : State) :
    OnlyWrites clockless S (sendDirectories s) ↔ OnlyWrites clockless S s := by
  unfold sendDirectories; dsimp only; (repeat' split) <;> simp

@[simp] theorem repeatBreaks_clk (s : State) :
    OnlyWrites clockless S (repeatBreaks s) ↔ OnlyWrites clockless S s := by
  unfold repeatBreaks; simp

@[simp] theorem lacksDirectory_clk (s : State) :
    OnlyWrites clockless S (lacksDirectory s) ↔ OnlyWrites clockless S s := by
  unfold lacksDirectory; simp

@[simp] theorem switchAtInstant_clk (c : BitVec 32) (s : State) :
    OnlyWrites clockless S (switchAtInstant c s) ↔ OnlyWrites clockless S s := by
  unfold switchAtInstant; split <;> simp

@[simp] theorem proofCycle_clk (mism : Bool) (join : State → State) (s : State)
    (hjoin : ∀ s, OnlyWrites clockless S (join s) ↔ OnlyWrites clockless S s) :
    OnlyWrites clockless S (proofCycle mism join s) ↔ OnlyWrites clockless S s := by
  unfold proofCycle; simp [hjoin]

@[simp] theorem proofAtInstant_clk (s : State) :
    OnlyWrites clockless S (proofAtInstant s) ↔ OnlyWrites clockless S s := by
  unfold proofAtInstant; simp

@[simp] theorem ttAtInstant_clk (s : State) :
    OnlyWrites clockless S (ttAtInstant s) ↔ OnlyWrites clockless S s := by
  unfold ttAtInstant; dsimp only; (repeat' split) <;> simp

@[simp] theorem domainAtInstant_clk (s : State) :
    OnlyWrites clockless S (domainAtInstant s) ↔ OnlyWrites clockless S s := by
  unfold domainAtInstant; simp

/-! ### Process data, sessions and recorder -/

@[simp] theorem sendOpening_clk (s : State) :
    OnlyWrites clockless S (sendOpening s) ↔ OnlyWrites clockless S s := by
  unfold sendOpening; split <;> simp

@[simp] theorem releaseNow_clk (s : State) : OnlyWrites clockless S (releaseNow s) ↔ OnlyWrites clockless S s := by
  unfold releaseNow; (repeat' split) <;> simp

@[simp] theorem releaseAtInstant_clk (s : State) :
    OnlyWrites clockless S (releaseAtInstant s) ↔ OnlyWrites clockless S s := by
  unfold releaseAtInstant; split <;> simp

@[simp] theorem holdAtInstant_clk (s : State) :
    OnlyWrites clockless S (holdAtInstant s) ↔ OnlyWrites clockless S s := by
  unfold holdAtInstant; simp

@[simp] theorem lineClose_clk (s : State) : OnlyWrites clockless S (lineClose s) ↔ OnlyWrites clockless S s := by
  unfold lineClose; simp

@[simp] theorem heldSample_clk (s : State) : OnlyWrites clockless S (heldSample s) ↔ OnlyWrites clockless S s := by
  unfold heldSample; split <;> simp

@[simp] theorem cycleClose_clk (s : State) : OnlyWrites clockless S (cycleClose s) ↔ OnlyWrites clockless S s := by
  unfold cycleClose; split <;> simp

@[simp] theorem creditRestore_clk (s : State) :
    OnlyWrites clockless S (creditRestore s) ↔ OnlyWrites clockless S s := by
  unfold creditRestore; simp

@[simp] theorem leadAtInstant_clk (s : State) :
    OnlyWrites clockless S (leadAtInstant s) ↔ OnlyWrites clockless S s := by
  unfold leadAtInstant; simp

@[simp] theorem leadStep_clk (was s : State) :
    OnlyWrites clockless S (leadStep was s) ↔ OnlyWrites clockless S s := by
  unfold leadStep; simp

@[simp] theorem provisionalAtInstant_clk (s : State) :
    OnlyWrites clockless S (provisionalAtInstant s) ↔ OnlyWrites clockless S s := by
  unfold provisionalAtInstant; simp

@[simp] theorem zeroArea_clk (c : FlowCtx) (s : State) :
    OnlyWrites clockless S (zeroArea c s) ↔ OnlyWrites clockless S s := by
  unfold zeroArea; simp

@[simp] theorem applyCtx_clk (i : Nat) (c : FlowCtx) (s : State) :
    OnlyWrites clockless S (applyCtx i c s) ↔ OnlyWrites clockless S s := by
  unfold applyCtx; simp

@[simp] theorem applyContexts_clk (s : State) :
    OnlyWrites clockless S (applyContexts s) ↔ OnlyWrites clockless S s := by
  unfold applyContexts; simp

@[simp] theorem sakAtInstant_clk (s : State) :
    OnlyWrites clockless S (sakAtInstant s) ↔ OnlyWrites clockless S s := by
  unfold sakAtInstant; simp

@[simp] theorem emptyAtInstant_clk (polled : List Nat) (hb : List Nat) (s : State) :
    OnlyWrites clockless S (emptyAtInstant polled hb s) ↔ OnlyWrites clockless S s := by
  unfold emptyAtInstant; split
  · rfl
  · refine forEach_writes _ _ _ _ _ fun n s => ?_
    dsimp only; split <;> simp

@[simp] theorem showArea_clk (i : Nat) (c : FlowCtx) (new : Bool) (zero : Bool) (old : FlowRun)
    (s : State) :
    OnlyWrites clockless S (showArea i c new zero old s) ↔ OnlyWrites clockless S s := by
  unfold showArea; simp

@[simp] theorem consumedAtInstant_clk (i : Nat) (c : FlowCtx) (s : State) :
    OnlyWrites clockless S (consumedAtInstant i c s) ↔ OnlyWrites clockless S s := by
  unfold consumedAtInstant; simp

@[simp] theorem consumedUpdate_clk (s : State) :
    OnlyWrites clockless S (consumedUpdate s) ↔ OnlyWrites clockless S s := by
  unfold consumedUpdate; simp

@[simp] theorem freshAdvance_clk (s : State) :
    OnlyWrites clockless S (freshAdvance s) ↔ OnlyWrites clockless S s := by
  unfold freshAdvance; simp

@[simp] theorem banksAtInstant_clk (effective : Bool) (s : State) :
    OnlyWrites clockless S (banksAtInstant effective s) ↔ OnlyWrites clockless S s := by
  unfold banksAtInstant; simp

@[simp] theorem queueFlow_clk (i : Nat) (c : FlowCtx) (s : State) :
    OnlyWrites clockless S (queueFlow i c s) ↔ OnlyWrites clockless S s := by
  unfold queueFlow; simp

@[simp] theorem sporadicAtInstant_clk (arrived : List Nat) (s : State) :
    OnlyWrites clockless S (sporadicAtInstant arrived s) ↔ OnlyWrites clockless S s := by
  unfold sporadicAtInstant; simp

@[simp] theorem islandAtInstant_clk (s : State) :
    OnlyWrites clockless S ((islandAtInstant s).2) ↔ OnlyWrites clockless S s := by
  unfold islandAtInstant; simp

@[simp] theorem islandPlace_clk (s : State) :
    OnlyWrites clockless S (islandPlace s) ↔ OnlyWrites clockless S s := by
  unfold islandPlace; simp

@[simp] theorem sessionsReset_clk (s : State) :
    OnlyWrites clockless S (sessionsReset s) ↔ OnlyWrites clockless S s := by
  unfold sessionsReset; simp

@[simp] theorem outMove_clk (s : State) : OnlyWrites clockless S (outMove s) ↔ OnlyWrites clockless S s := by
  unfold outMove; simp

@[simp] theorem suspectEvent_clk (on : Bool) (s : State) :
    OnlyWrites clockless S (suspectEvent on s) ↔ OnlyWrites clockless S s := by
  unfold suspectEvent; simp

@[simp] theorem compareDomains_clk (s : State) :
    OnlyWrites clockless S (compareDomains s) ↔ OnlyWrites clockless S s := by
  unfold compareDomains; simp

@[simp] theorem steerAtInstant_clk (s : State) :
    OnlyWrites clockless S (steerAtInstant s) ↔ OnlyWrites clockless S s := by
  unfold steerAtInstant; simp

@[simp] theorem growCask_clk (o n : Nat) (s : State) :
    OnlyWrites clockless S (growCask o n s) ↔ OnlyWrites clockless S s := by
  unfold growCask; dsimp only; (repeat' split) <;> simp_all

@[simp] theorem triggerCask_clk (n : Nat) (t : Option (BitVec 16 × BitVec 32)) (s : State) :
    OnlyWrites clockless S (triggerCask n t s) ↔ OnlyWrites clockless S s := by
  unfold triggerCask; (repeat' split) <;> simp

@[simp] theorem recorderAtInstant_clk (evs : List Event) (t : Option (BitVec 16 × BitVec 32))
    (overrun : Bool) (s : State) :
    OnlyWrites clockless S (recorderAtInstant evs t overrun s) ↔ OnlyWrites clockless S s := by
  unfold recorderAtInstant; split <;> simp

@[simp] theorem ptpApply_clk (d : Nat) (s : State) : OnlyWrites clockless S (ptpApply d s) ↔ OnlyWrites clockless S s := by
  unfold ptpApply; split <;> simp

@[simp] theorem ptpAtInstant_clk (s : State) : OnlyWrites clockless S (ptpAtInstant s) ↔ OnlyWrites clockless S s := by
  unfold ptpAtInstant; simp

/-! ### Twins, lock-step pairs, fabric, power and self-repair -/

@[simp] theorem freePair_clk (p cause : Nat) (s : State) :
    OnlyWrites clockless S (freePair p cause s) ↔ OnlyWrites clockless S s := by
  unfold freePair; simp

@[simp] theorem sendOutBoth_clk (s : State) :
    OnlyWrites clockless S (sendOutBoth s) ↔ OnlyWrites clockless S s := by
  unfold sendOutBoth; dsimp only; (repeat' split) <;> simp

@[simp] theorem pathEvent_clk (n : Nat) (was now : Bool) (s : State) :
    OnlyWrites clockless S (pathEvent n was now s) ↔ OnlyWrites clockless S s := by
  unfold pathEvent; simp

@[simp] theorem twinPaths_clk (s : State) :
    OnlyWrites clockless S ((twinPaths s).2) ↔ OnlyWrites clockless S s := by
  unfold twinPaths; simp

@[simp] theorem serviceAtInstant_clk (s : State) :
    OnlyWrites clockless S (serviceAtInstant s) ↔ OnlyWrites clockless S s := by
  unfold serviceAtInstant; split <;> simp

@[simp] theorem switchoverAtInstant_clk (s : State) :
    OnlyWrites clockless S (switchoverAtInstant s) ↔ OnlyWrites clockless S s := by
  unfold switchoverAtInstant; split <;> simp

@[simp] theorem startRole_clk (s : State) : OnlyWrites clockless S (startRole s) ↔ OnlyWrites clockless S s := by
  unfold startRole; simp

@[simp] theorem flowSnapshot_clk (s : State) :
    OnlyWrites clockless S (flowSnapshot s) ↔ OnlyWrites clockless S s := by
  unfold flowSnapshot; simp

@[simp] theorem fullSnapshot_clk (s : State) :
    OnlyWrites clockless S (fullSnapshot s) ↔ OnlyWrites clockless S s := by
  unfold fullSnapshot; simp

@[simp] theorem regionReport_clk (s : State) :
    OnlyWrites clockless S (regionReport s) ↔ OnlyWrites clockless S s := by
  unfold regionReport; split <;> simp

@[simp] theorem loseTransfers_clk (s : State) :
    OnlyWrites clockless S (loseTransfers s) ↔ OnlyWrites clockless S s := by
  unfold loseTransfers; simp

@[simp] theorem switchWithoutRegion_clk (s : State) :
    OnlyWrites clockless S (switchWithoutRegion s) ↔ OnlyWrites clockless S s := by
  unfold switchWithoutRegion; simp

@[simp] theorem rackAtInstant_clk (s : State) :
    OnlyWrites clockless S (rackAtInstant s) ↔ OnlyWrites clockless S s := by
  unfold rackAtInstant; simp

@[simp] theorem roleAtInstant_clk (reached : Bool) (s : State) :
    OnlyWrites clockless S (roleAtInstant reached s) ↔ OnlyWrites clockless S s := by
  unfold roleAtInstant; (repeat' split) <;> simp

@[simp] theorem twinAtInstant_clk (s : State) :
    OnlyWrites clockless S (twinAtInstant s) ↔ OnlyWrites clockless S s := by
  unfold twinAtInstant; simp

@[simp] theorem handEvent_clk (l : Nat) (k : HandKind) (result : Nat) (s : State) :
    OnlyWrites clockless S (handEvent l k result s) ↔ OnlyWrites clockless S s := by
  unfold handEvent; simp

@[simp] theorem handDone_clk (l : Nat) (k : HandKind) (s : State) :
    OnlyWrites clockless S (handDone l k s) ↔ OnlyWrites clockless S s := by
  unfold handDone; simp

@[simp] theorem rotationLost_clk (l : Nat) (s : State) :
    OnlyWrites clockless S (rotationLost l s) ↔ OnlyWrites clockless S s := by
  unfold rotationLost; simp

@[simp] theorem handAbandon_clk (l : Nat) (s : State) :
    OnlyWrites clockless S (handAbandon l s) ↔ OnlyWrites clockless S s := by
  unfold handAbandon; split <;> simp

@[simp] theorem restartPair_clk (l : Nat) (s : State) :
    OnlyWrites clockless S (restartPair l s) ↔ OnlyWrites clockless S s := by
  unfold restartPair; dsimp only; (repeat' split) <;> simp

@[simp] theorem substitutionAtInstant_clk (l : Nat) (s : State) :
    OnlyWrites clockless S (substitutionAtInstant l s) ↔ OnlyWrites clockless S s := by
  unfold substitutionAtInstant; dsimp only; (repeat' split) <;> simp

@[simp] theorem splitPair_clk (l : Nat) (st : PairSt) (s : State) :
    OnlyWrites clockless S (splitPair l st s) ↔ OnlyWrites clockless S s := by
  unfold splitPair; simp

@[simp] theorem splitAtInstant_clk (l : Nat) (s : State) :
    OnlyWrites clockless S (splitAtInstant l s) ↔ OnlyWrites clockless S s := by
  unfold splitAtInstant; simp

@[simp] theorem rejoinAtInstant_clk (l : Nat) (s : State) :
    OnlyWrites clockless S (rejoinAtInstant l s) ↔ OnlyWrites clockless S s := by
  unfold rejoinAtInstant; simp

@[simp] theorem restartAtInstant_clk (l : Nat) (s : State) :
    OnlyWrites clockless S (restartAtInstant l s) ↔ OnlyWrites clockless S s := by
  unfold restartAtInstant; simp

@[simp] theorem resetAtInstant_clk (l : Nat) (s : State) :
    OnlyWrites clockless S (resetAtInstant l s) ↔ OnlyWrites clockless S s := by
  unfold resetAtInstant; dsimp only; (repeat' split) <;> simp

@[simp] theorem pairAtInstant_clk (l : Nat) (s : State) :
    OnlyWrites clockless S (pairAtInstant l s) ↔ OnlyWrites clockless S s := by
  unfold pairAtInstant; simp

@[simp] theorem lskAtInstant_clk (s : State) :
    OnlyWrites clockless S (lskAtInstant s) ↔ OnlyWrites clockless S s := by
  unfold lskAtInstant; simp

@[simp] theorem pairNodeReset_clk (l : Nat) (s : State) :
    OnlyWrites clockless S (pairNodeReset l s) ↔ OnlyWrites clockless S s := by
  unfold pairNodeReset; simp

@[simp] theorem pdiIrqWrite_clk (i : Iface) (v : Nat) (s : State) :
    OnlyWrites clockless S (pdiIrqWrite i v s) ↔ OnlyWrites clockless S s := by
  unfold pdiIrqWrite; simp

@[simp] theorem pdiWrite_clk (i : Iface) (off v : Nat) (s : State) :
    OnlyWrites clockless S (pdiWrite i off v s) ↔ OnlyWrites clockless S s := by
  unfold pdiWrite; split <;> simp

@[simp] theorem fabStartLinks_clk (s : State) :
    OnlyWrites clockless S (fabStartLinks s) ↔ OnlyWrites clockless S s := by
  unfold fabStartLinks; simp

@[simp] theorem fabAssignAtInstant_clk (s : State) :
    OnlyWrites clockless S (fabAssignAtInstant s) ↔ OnlyWrites clockless S s := by
  unfold fabAssignAtInstant; simp

@[simp] theorem fabReachAtInstant_clk (s : State) :
    OnlyWrites clockless S (fabReachAtInstant s) ↔ OnlyWrites clockless S s := by
  unfold fabReachAtInstant; simp

@[simp] theorem fabReportAtInstant_clk (s : State) :
    OnlyWrites clockless S (fabReportAtInstant s) ↔ OnlyWrites clockless S s := by
  unfold fabReportAtInstant; simp

@[simp] theorem fabProofAtInstant_clk (s : State) :
    OnlyWrites clockless S (fabProofAtInstant s) ↔ OnlyWrites clockless S s := by
  unfold fabProofAtInstant; simp

@[simp] theorem fabSubscribeAtInstant_clk (s : State) :
    OnlyWrites clockless S (fabSubscribeAtInstant s) ↔ OnlyWrites clockless S s := by
  unfold fabSubscribeAtInstant; simp

@[simp] theorem proxyOne_clk (x : Nat × FlowCtx) (s : State) :
    OnlyWrites clockless S (proxyOne x s) ↔ OnlyWrites clockless S s := by
  unfold proxyOne; simp

@[simp] theorem fabProxyAtInstant_clk (s : State) :
    OnlyWrites clockless S (fabProxyAtInstant s) ↔ OnlyWrites clockless S s := by
  unfold fabProxyAtInstant; simp

@[simp] theorem fabLeadAtInstant_clk (s : State) :
    OnlyWrites clockless S (fabLeadAtInstant s) ↔ OnlyWrites clockless S s := by
  unfold fabLeadAtInstant; split <;> simp

@[simp] theorem fabAtInstant_clk (s : State) :
    OnlyWrites clockless S (fabAtInstant s) ↔ OnlyWrites clockless S s := by
  unfold fabAtInstant; simp

@[simp] theorem rotationAtInstant_clk (s : State) :
    OnlyWrites clockless S (rotationAtInstant s) ↔ OnlyWrites clockless S s := by
  unfold rotationAtInstant; simp

@[simp] theorem thermalAtInstant_clk (s : State) :
    OnlyWrites clockless S (thermalAtInstant s) ↔ OnlyWrites clockless S s := by
  unfold thermalAtInstant; simp

@[simp] theorem powerAtInstant_clk (s : State) : OnlyWrites clockless S (powerAtInstant s) ↔ OnlyWrites clockless S s := by
  unfold powerAtInstant; simp

/-! ### Mailboxes, accesses and the host bridge -/

@[simp] theorem semOwnFree_clk (s : State) : OnlyWrites clockless S (semOwnFree s) ↔ OnlyWrites clockless S s := by
  unfold semOwnFree; simp

@[simp] theorem pwFail_clk (code : Nat) (o : Outbound) (s : State) :
    OnlyWrites clockless S (pwFail code o s) ↔ OnlyWrites clockless S s := by
  unfold pwFail; simp

@[simp] theorem mbxWrite_clk (i : Iface) (n off : Nat) (data : List Byte) (s : State) :
    OnlyWrites clockless S (mbxWrite i n off data s) ↔ OnlyWrites clockless S s := by
  unfold mbxWrite; simp

@[simp] theorem evqWrite_clk (i : Iface) (off v : Nat) (s : State) :
    OnlyWrites clockless S (evqWrite i off v s) ↔ OnlyWrites clockless S s := by
  unfold evqWrite; simp

@[simp] theorem bytesWrite_clk (i : Iface) (a : Nat) (data : List Byte) (s : State) :
    OnlyWrites clockless S (bytesWrite i a data s) ↔ OnlyWrites clockless S s := by
  unfold bytesWrite; simp

@[simp] theorem busReads_clk (i : Iface) (f a n : Nat) (s : State) :
    OnlyWrites clockless S (busReads i f a n s).2 ↔ OnlyWrites clockless S s := by
  induction f generalizing a n s with
  | zero => simp [busReads]
  | succ f ih => unfold busReads; dsimp only; split <;> simp [ih]

@[simp] theorem readDone_clk (o : Outbound) (data : List Byte) (s : State) :
    OnlyWrites clockless S (readDone o data s) ↔ OnlyWrites clockless S s := by
  unfold readDone; split <;> simp

@[simp] theorem failOutbound_clk (code : Nat) (o : Outbound) (s : State) :
    OnlyWrites clockless S (failOutbound code o s) ↔ OnlyWrites clockless S s := by
  unfold failOutbound; simp

@[simp] theorem sendPosted_clk (n w : Nat) (s : State) :
    OnlyWrites clockless S (sendPosted n w s) ↔ OnlyWrites clockless S s := by
  induction n generalizing s with
  | zero => simp [sendPosted]
  | succ n ih =>
    unfold sendPosted; (repeat' split) <;> simp [ih]
    rename_i h; simpa using sendOutbound_writes clockless S _ _ _ h (by simp) (by simp)

@[simp] theorem sendAllPosted_clk (s : State) :
    OnlyWrites clockless S (sendAllPosted s) ↔ OnlyWrites clockless S s := by
  unfold sendAllPosted; simp

@[simp] theorem bridgeAnswer_clk (status : Nat) (data : List Byte) (r : BridgeFrame) (s : State) :
    OnlyWrites clockless S (bridgeAnswer status data r s) ↔ OnlyWrites clockless S s := by
  unfold bridgeAnswer; simp

@[simp] theorem startOutbound_clk (o : Outbound) (s : State) :
    OnlyWrites clockless S (startOutbound o s) ↔ OnlyWrites clockless S s := by
  unfold startOutbound; split
  · rename_i h; simpa using sendOutbound_writes clockless S _ _ _ h (by simp) (by simp)
  · simp

@[simp] theorem dropOut_clk (s : State) : OnlyWrites clockless S (dropOut s) ↔ OnlyWrites clockless S s := by
  unfold dropOut; simp

@[simp] theorem dropPosted_clk (o : Outbound) (s : State) :
    OnlyWrites clockless S (dropPosted o s) ↔ OnlyWrites clockless S s := by
  unfold dropPosted; simp

@[simp] theorem switchOne_clk (old : Option Directory) (put : Outbound → State → State)
    (drop : State → State) (o : Outbound) (s : State)
    (hp : ∀ o s, OnlyWrites clockless S (put o s) ↔ OnlyWrites clockless S s)
    (hd : ∀ s, OnlyWrites clockless S (drop s) ↔ OnlyWrites clockless S s) :
    OnlyWrites clockless S (switchOne old put drop o s) ↔ OnlyWrites clockless S s := by
  unfold switchOne; (repeat' split) <;> simp [hp, hd]
  rename_i h; simpa using sendOutbound_writes clockless S _ _ _ h (by simp) (by simp)

@[simp] theorem bridgeNodeReset_clk (s : State) :
    OnlyWrites clockless S (bridgeNodeReset s) ↔ OnlyWrites clockless S s := by
  unfold bridgeNodeReset; simp

@[simp] theorem refreshSummaries_clk (s : State) :
    OnlyWrites clockless S (refreshSummaries s) ↔ OnlyWrites clockless S s := by
  unfold refreshSummaries; simp

theorem commands_clk : ∀ c ∈ commands, ∀ r s, OnlyWrites clockless S (c.2 r s).2 ↔ OnlyWrites clockless S s := by
  unfold commands commands1 commands2 commands3 commands4 commands5 commands6
  simp only [List.cons_append, List.nil_append, List.forall_mem_cons]
  and_intros <;> simp

@[simp] theorem ringMailbox_clk (n : Fin 8) (i : Iface) (s : State) :
    OnlyWrites clockless S (ringMailbox n i s) ↔ OnlyWrites clockless S s := by
  unfold ringMailbox; dsimp only; split
  · simp
  · split
    · simp
    · rename_i c hc
      have h := commands_clk S c (List.mem_of_find?_eq_some hc)
      split <;> simp [h]

@[simp] theorem doorbellWrite_clk (n : Fin 8) (i : Iface) (v : Nat) (s : State) :
    OnlyWrites clockless S (doorbellWrite n i v s) ↔ OnlyWrites clockless S s := by
  unfold doorbellWrite; simp

@[simp] theorem regWrite_clk (i : Iface) (a v : Nat) (s : State) :
    OnlyWrites clockless S (regWrite i a v s) ↔ OnlyWrites clockless S s := by
  unfold regWrite; simp

@[simp] theorem busWrite_clk (i : Iface) (a : Nat) (data : List Byte) (s : State) :
    OnlyWrites clockless S (busWrite i a data s) ↔ OnlyWrites clockless S s := by
  unfold busWrite; split <;> simp

@[simp] theorem busWrites_clk (i : Iface) (f a : Nat) (d : List Byte) (s : State) :
    OnlyWrites clockless S (busWrites i f a d s) ↔ OnlyWrites clockless S s := by
  induction f generalizing a d s with
  | zero => simp [busWrites]
  | succ f ih => unfold busWrites; dsimp only; split <;> simp [ih]

@[simp] theorem bridgeServe_clk (bad : Bool) (r : BridgeFrame) (s : State) :
    OnlyWrites clockless S (bridgeServe bad r s) ↔ OnlyWrites clockless S s := by
  unfold bridgeServe; simp

@[simp] theorem bridgePump_clk (n : Nat) (s : State) :
    OnlyWrites clockless S (bridgePump n s) ↔ OnlyWrites clockless S s := by
  induction n generalizing s with
  | zero => simp [bridgePump]
  | succ n ih => unfold bridgePump; (repeat' split) <;> simp [ih]

@[simp] theorem bridgeRun_clk (s : State) : OnlyWrites clockless S (bridgeRun s) ↔ OnlyWrites clockless S s := by
  unfold bridgeRun; simp

@[simp] theorem bridgeSwitch_clk (old : Option Directory) (s : State) :
    OnlyWrites clockless S (bridgeSwitch old s) ↔ OnlyWrites clockless S s := by
  unfold bridgeSwitch; dsimp only
  rw [bridgeRun_clk, forEach_writes, forEach_writes, forEach_writes]
  · split <;> simp
  · intro x s; simp
  · intro x s; simp
  · intro x s; (repeat' split) <;> simp

/-! ### Start, reset and the registration instant -/

@[simp] theorem timeNodeReset_clk (s : State) :
    OnlyWrites clockless S (timeNodeReset s) ↔ OnlyWrites clockless S s := by
  unfold timeNodeReset; split <;> simp

@[simp] theorem blocksReset_clk (s : State) :
    OnlyWrites clockless S (blocksReset s) ↔ OnlyWrites clockless S s := by
  unfold blocksReset; simp

@[simp] theorem proxyLeft_clk (polled : List Nat) (s : State) :
    OnlyWrites clockless S (proxyLeft polled s) ↔ OnlyWrites clockless S s := by
  unfold proxyLeft; simp

@[simp] theorem takeCycle_clk (s : State) : OnlyWrites clockless S (takeCycle s) ↔ OnlyWrites clockless S s := by
  unfold takeCycle; simp

@[simp] theorem closeCycle_clk (polled hb : List Nat) (s : State) :
    OnlyWrites clockless S (closeCycle polled hb s) ↔ OnlyWrites clockless S s := by
  unfold closeCycle; simp

@[simp] theorem reportIslands_clk (before s : State) :
    OnlyWrites clockless S (reportIslands before s) ↔ OnlyWrites clockless S s := by
  unfold reportIslands; simp

@[simp] theorem openCycle_clk (s : State) : OnlyWrites clockless S (openCycle s) ↔ OnlyWrites clockless S s := by
  unfold openCycle; simp

@[simp] theorem producedAtInstant_clk (took effective : Bool) (s : State) :
    OnlyWrites clockless S (producedAtInstant took effective s) ↔ OnlyWrites clockless S s := by
  unfold producedAtInstant; simp

@[simp] theorem flowsAtInstant_clk (s : State) :
    OnlyWrites clockless S (flowsAtInstant s) ↔ OnlyWrites clockless S s := by
  unfold flowsAtInstant; simp

@[simp] theorem cansAtInstant_clk (sw effective : Bool) (s : State) :
    OnlyWrites clockless S (cansAtInstant sw effective s) ↔ OnlyWrites clockless S s := by
  unfold cansAtInstant; simp

@[simp] theorem gatesOpen_clk (s : State) : OnlyWrites clockless S (gatesOpen s) ↔ OnlyWrites clockless S s := by
  unfold gatesOpen; simp

@[simp] theorem racksAtInstant_clk (s : State) :
    OnlyWrites clockless S (racksAtInstant s) ↔ OnlyWrites clockless S s := by
  unfold racksAtInstant; simp

@[simp] theorem openingAtStart_clk (s : State) :
    OnlyWrites clockless S (openingAtStart s) ↔ OnlyWrites clockless S s := by
  unfold openingAtStart; dsimp only; (repeat' split) <;> simp

@[simp] theorem powerOff_clk (dev : DevSt) (s : State) :
    OnlyWrites clockless S (powerOff dev s) ↔ OnlyWrites clockless S s := by
  unfold powerOff; simp

@[simp] theorem restart_clk (cause : Byte) (s : State) :
    OnlyWrites clockless S (restart cause s) ↔ OnlyWrites clockless S s := by
  unfold restart; simp

@[simp] theorem enterKiln_clk (s : State) : OnlyWrites clockless S (enterKiln s) ↔ OnlyWrites clockless S s := by
  unfold enterKiln; simp

@[simp] theorem endsAtInstant_clk (s : State) : OnlyWrites clockless S (endsAtInstant s) ↔ OnlyWrites clockless S s := by
  unfold endsAtInstant; simp

@[simp] theorem backboneAtInstant_clk (sw : State → State) (s : State)
    (hsw : ∀ s, OnlyWrites clockless S (sw s) ↔ OnlyWrites clockless S s) :
    OnlyWrites clockless S (backboneAtInstant sw s) ↔ OnlyWrites clockless S s := by
  unfold backboneAtInstant; simp [hsw]

@[simp] theorem mvbsAtInstant_clk (s : State) : OnlyWrites clockless S (mvbsAtInstant s) ↔ OnlyWrites clockless S s := by
  unfold mvbsAtInstant; simp

@[simp] theorem upkeepAtInstant_clk (s : State) :
    OnlyWrites clockless S (upkeepAtInstant s) ↔ OnlyWrites clockless S s := by
  unfold upkeepAtInstant; simp

@[simp] theorem serviceInstant_clk (sw effective : Bool) (s : State) :
    OnlyWrites clockless S (serviceInstant sw effective s) ↔ OnlyWrites clockless S s := by
  unfold serviceInstant; simp

@[simp] theorem beforeRoles_clk (polled hb : List Nat) (sw : State → State) (s : State)
    (hsw : ∀ s, OnlyWrites clockless S (sw s) ↔ OnlyWrites clockless S s) :
    OnlyWrites clockless S (beforeRoles polled hb sw s) ↔ OnlyWrites clockless S s := by
  unfold beforeRoles; simp [hsw]

@[simp] theorem afterRoles_clk (sw took effective : Bool) (evs : List Event)
    (trig : Option (BitVec 16 × BitVec 32)) (s : State) :
    OnlyWrites clockless S (afterRoles sw took effective evs trig s) ↔ OnlyWrites clockless S s := by
  unfold afterRoles; simp

@[simp] theorem instantBody_clk (polled hb : List Nat) (sw : State → State) (s : State)
    (hsw : ∀ s, OnlyWrites clockless S (sw s) ↔ OnlyWrites clockless S s) :
    OnlyWrites clockless S (instantBody polled hb sw s) ↔ OnlyWrites clockless S s := by
  unfold instantBody; simp [hsw]

end

/-- An instant with this node's own switch, if one is due. -/
theorem instantBody_own_clk (polled hb : List Nat) (c : BitVec 32) (s : State) :
    (instantBody polled hb (switchAtInstant c) s).clk = s.clk :=
  (onlyWrites_clockless s _).mp
    ((instantBody_clk s polled hb _ s (switchAtInstant_clk s c)).mpr (onlyWrites_refl _ s))

end Sys2Proof.Machine
end

section
/-! PROOFS. The instants of a cycle (spec/01, spec/05, spec/06, spec/15): what runs at a registration instant, the entry to
Holdover, the next window and the release deadline. -/

namespace Sys2Proof.Machine

/-- What a step of a fold keeps, the fold keeps. -/
theorem forEach_keeps {α β : Type} (g : State → β) (f : α → State → State) (h : ∀ x s, g (f x s) = g s)
    (l : List α) (s : State) : g (forEach l f s) = g s := by
  induction l generalizing s with
  | nil => rfl
  | cons x xs ih => exact (ih (f x s)).trans (h x s)

/-! ## The registration instant (R35, R135) -/

theorem exec_registrationInstant (s : State) : exec .registrationInstant s = .next (instant s) := rfl

/-- What takes effect at an instant that no yielding group's switch takes over. -/
theorem instant_own {s : State} (hruns : instantRuns s = true)
    (hprep : ∀ p, s.ina.prep = some p → yieldSwitchTime s ≠ some (nextInstant s) ∨ removalDue s = true) :
    instant s = instantBody (polledEntries s) (heartbeatEntries (polledEntries s) s)
      (switchAtInstant (cycleNo (runTo (nextInstant s) s))) (runTo (nextInstant s) s) := by
  simp only [instant, hruns, if_true]
  cases hp : s.ina.prep with
  | none => rfl
  | some p =>
    refine if_neg ?_
    rcases hprep p hp with h | h <;> simp [h]

theorem instant_yields {s : State} {p : Prepared} (hruns : instantRuns s = true) (hprep : s.ina.prep = some p)
    (htime : yieldSwitchTime s = some (nextInstant s)) (hdue : removalDue s = false) :
    instant s = yieldTo p (nextInstant s) s := by
  simp [instant, hruns, hprep, htime, hdue]

theorem instant_idle {s : State} (hruns : instantRuns s = false) :
    instant s = if inPark s then powerAtInstant (runTo (nextInstant s) s) else runTo (nextInstant s) s := by
  simp [instant, hruns]

/-! ## Power at an instant in Park (R634, R639) -/

theorem enterDom_deepestNext (d : Nat) (n : DomSt) (s : State) :
    (enterDom d n s).pwr.deepestNext = s.pwr.deepestNext := by
  unfold enterDom
  dsimp only
  split
  · rfl
  · cases n <;> rfl

theorem chooseDom_deepestNext (d : Nat) (s : State) : (chooseDom d s).pwr.deepestNext = s.pwr.deepestNext := by
  simp only [chooseDom, apply_ite (fun t : State => t.pwr.deepestNext), enterDom_deepestNext, ite_self]

theorem thermalAtInstant_deepestNext (s : State) : (thermalAtInstant s).pwr.deepestNext = s.pwr.deepestNext := by
  unfold thermalAtInstant thermalEvent
  split <;> simp [modPwr, pwrCount]

theorem powerAtInstant_deepestNext (s : State) : (powerAtInstant s).pwr.deepestNext = List.replicate 12 none := by
  rw [powerAtInstant, forEach_keeps (fun s => s.pwr.deepestNext) _ chooseDom_deepestNext, thermalAtInstant_deepestNext]
  rfl

theorem powerAtInstant_now (s : State) : (powerAtInstant s).now = s.now := by
  have h : OnlyWrites [.emit, .cmd, .flow, .vec, .pwr] s (powerAtInstant s) := by
    simp [powerAtInstant, thermalAtInstant, onlyWrites_refl]
  obtain ⟨hnow, -⟩ := h .now (by decide)
  exact hnow

/-! ## Holdover (R232, R234) -/

theorem exec_holdoverEntry_due {dt : Nat} {s : State} (hst : s.time.st = .acquire ∨ s.time.st = .locked)
    (hwithout : 2 ≤ s.time.without) : exec (.holdoverEntry dt) s = .next (setTimeState .holdover (begin_ dt s)) := by
  change execHoldoverEntry dt s = _
  rcases hst with h | h <;> simp [execHoldoverEntry, h, hwithout]

theorem exec_holdoverEntry_not_due {dt : Nat} {s : State}
    (h : s.time.st = .free ∨ s.time.st = .master ∨ s.time.st = .holdover ∨ s.time.without < 2) :
    exec (.holdoverEntry dt) s = .next (begin_ dt s) := by
  change execHoldoverEntry dt s = _
  rcases h with h | h | h | h
  · simp [execHoldoverEntry, h]
  · simp [execHoldoverEntry, h]
  · simp [execHoldoverEntry, h]
  · cases hst : s.time.st <;> simp [execHoldoverEntry, hst, Nat.not_le.mpr h]

theorem setTimeState_holdover {s : State} (h : s.time.st ≠ .holdover) :
    (setTimeState .holdover s).time.st = .holdover ∧ (setTimeState .holdover s).time.slew = 0 ∧
    (setTimeState .holdover s).time.holdEntry = s.clk := by
  simp [setTimeState, h, holdFreq]

/-! ## The next window and the deadline (R268–R270) -/

theorem exec_nextOpenSet_due {dt : Nat} {s : State} (hopening : s.flow.opening = true) (hnext : s.flow.nextOpen = false) :
    exec (.nextOpenSet dt) s = .next (openNext (begin_ dt s)) := by
  change execNextOpenSet dt s = _
  simp [execNextOpenSet, hopening, hnext]

theorem exec_nextOpenSet_not_due {dt : Nat} {s : State} (h : s.flow.opening = false ∨ s.flow.nextOpen = true) :
    exec (.nextOpenSet dt) s = .next (begin_ dt s) := by
  change execNextOpenSet dt s = _
  rcases h with h | h <;> simp [execNextOpenSet, h]

@[simp] theorem modNext_flags (f : Mem → Mem) (s : State) :
    (modNext f s).flow.nextOpen = s.flow.nextOpen ∧ (modNext f s).flow.heldWrites = s.flow.heldWrites ∧
    (modNext f s).flow.irqEn = s.flow.irqEn ∧ (modNext f s).flow.deadline = s.flow.deadline := by
  unfold modNext setBank
  cases s.flow.outBank1 <;> exact ⟨rfl, rfl, rfl, rfl⟩

theorem openNext_quiet {s : State} (hheld : s.flow.heldWrites = []) (hirq : s.flow.irqEn = false) :
    openNext s = modFlow (fun w => { w with nextOpen := true, heldWrites := [] }) s := by
  simp [openNext, hheld, hirq, forEach]

theorem openNext_signals {s : State} (hheld : s.flow.heldWrites = []) (hirq : s.flow.irqEn = true) :
    openNext s = raiseVector s.flow.vector (modFlow (fun w => { w with nextOpen := true, heldWrites := [] }) s) := by
  simp [openNext, hheld, hirq, forEach]

/-- A write held back is placed in the window that opens. -/
theorem openNext_one_held {s : State} {i : Iface} {off : Nat} {data : List Byte} (hheld : s.flow.heldWrites = [(i, off, data)])
    (hirq : s.flow.irqEn = false) :
    openNext s = modNext
      (fun m => storeProduced (modFlow (fun w => { w with nextOpen := true, heldWrites := [] }) s) m off data)
      (modFlow (fun w => { w with nextOpen := true, heldWrites := [] }) s) := by
  simp [openNext, hheld, hirq, forEach]

theorem linkedWrites_deadline (s : State) : (linkedWrites s).flow.deadline = s.flow.deadline := by
  have hlink : ∀ i off data s, (linkWrite i off data s).flow.deadline = s.flow.deadline := fun i off data s => by
    unfold linkWrite
    split
    · rfl
    · simp [writeLinked]
  simp only [linkedWrites]
  rw [forEach_keeps (fun s => s.flow.deadline) mvbDeadlineDone (fun _ _ => rfl),
    forEach_keeps (fun s => s.flow.deadline) canDeadlineDone (fun _ _ => rfl),
    forEach_keeps (fun s => s.flow.deadline) _ (fun _ _ => hlink _ _ _ _)]

theorem exec_releaseDeadline_due {dt : Nat} {s : State} (hready : s.sys.ready = true) (hrun : s.pwr.dev = .run)
    (hdone : s.flow.deadline = false) :
    exec (.releaseDeadline dt) s = .next (linkedWrites (modFlow (fun w => { w with deadline := true }) (begin_ dt s))) := by
  change execReleaseDeadline dt s = _
  simp [execReleaseDeadline, inRun, hready, hrun, hdone]

theorem exec_releaseDeadline_not_due {dt : Nat} {s : State}
    (h : s.sys.ready = false ∨ s.pwr.dev ≠ .run ∨ s.flow.deadline = true) :
    exec (.releaseDeadline dt) s = .next (begin_ dt s) := by
  change execReleaseDeadline dt s = _
  have hrun : s.pwr.dev ≠ .run → inRun s = false := fun h => by
    unfold inRun
    cases hdev : s.pwr.dev <;> simp_all
  rcases h with h | h | h
  · simp [execReleaseDeadline, h]
  · have hrun' : inRun (begin_ dt s) = false := hrun h
    simp [execReleaseDeadline, hrun']
  · simp [execReleaseDeadline, h]

end Sys2Proof.Machine
end

section
/-! PROOFS. Line traffic (spec/01, spec/02, spec/06): which frame a scheduled send carries, what becomes of a frame that passes,
what a port sends next, and what a flow frame that arrives does. -/

namespace Sys2Proof.Machine

/-! ## Ports -/

@[simp] theorem portOf_begin_ (dt : Nat) (s : State) (p : Nat) : portOf (begin_ dt s) p = portOf s p := rfl

@[simp] theorem portOf_emit (e : Emission) (s : State) (p : Nat) : portOf (emit e s) p = portOf s p := by
  simp [portOf]

@[simp] theorem portOf_schedCount (i : Nat) (s : State) (p : Nat) : portOf (schedCount i s) p = portOf s p := rfl

@[simp] theorem portOf_flowLeft (i : Nat) (first : Bool) (s : State) (p : Nat) :
    portOf (flowLeft i first s) p = portOf s p := rfl

theorem port_mem {s : State} (h : Sound s) (p : Fin 4) : p.val < s.trunk.ports.length := by
  rw [h.ports]; exact p.isLt

theorem acrossPort_lt (p : Nat) : acrossPort p < 4 := Nat.mod_lt _ (by decide)

theorem acrossPort_acrossPort (p : Fin 4) : acrossPort (acrossPort p) = p := by
  unfold acrossPort; omega

theorem acrossPort_ne (p : Fin 4) : acrossPort p ≠ p := by
  unfold acrossPort; omega

theorem portUp_of_forwards {p : Nat} {s : State} (h : forwards s p = true) : portUp s p = true := by
  simp only [forwards, Bool.and_eq_true] at h
  obtain ⟨⟨⟨⟨hup, -⟩, -⟩, -⟩, -⟩ := h
  exact hup

theorem portCarries_of_portUp {p : Nat} {s : State} (h : portUp s p = true) : portCarries s p = true := by
  unfold portUp at h
  unfold portCarries
  cases hst : (portOf s p).st <;> simp [hst] at h ⊢

theorem frameError_bad {p : Nat} {s : State} (h : portUp s p = true) : frameError p .bad s = portCount p 1 s := by
  simp [frameError, portCarries_of_portUp h]

/-! ## Own entries (R174, R288) -/

section
variable {n : Nat} {tr : List (Fin 4)} {im : Image} {e : Entry} {s : State}
  (hrun : s.sched.running = some im) (hentry : entryAt im n = some e) (hjoined : joined s = true)
  (hfab : s.fab.attached = false) (hready : readyToSend s = true) (hpolled : (polledEntries s).contains n = true)
include hrun hentry hjoined hfab hready hpolled

theorem scheduledSend_flow {i : Nat} {c : FlowCtx} (hown : entryOwn e s = true) (hflag : e.flags.getLsbD 0 = false)
    (hflow : entryFlow n s = some (i, c)) : scheduledSend n tr s = sendFlow im n e tr i c s := by
  simp only [scheduledSend, hrun, hentry, hjoined, hfab, hready, hpolled, hown, hflag, hflow]; rfl

theorem scheduledSend_heartbeat (hown : entryOwn e s = true) (hflag : e.flags.getLsbD 0 = true) :
    scheduledSend n tr s = sendHeartbeatEntry im n e tr s := by
  simp only [scheduledSend, hrun, hentry, hjoined, hfab, hready, hpolled, hown, hflag]; rfl

theorem scheduledSend_proxy {k : Nat} (hown : entryOwn e s = false) (hslot : proxySlot e s = some k)
    (hactive : fabActiveTwin s = true) : scheduledSend n tr s = sendProxy im n e tr k s := by
  simp only [scheduledSend, hrun, hentry, hjoined, hfab, hready, hpolled, hown, hslot, hactive]; rfl

end

theorem scheduledSend_silent (n : Nat) (tr : List (Fin 4)) {s : State}
    (h : s.sched.running = none ∨ joined s = false ∨ s.fab.attached = true ∨ readyToSend s = false ∨
      (polledEntries s).contains n = false) : scheduledSend n tr s = s := by
  cases hrun : s.sched.running with
  | none => simp only [scheduledSend, hrun]
  | some im =>
    cases hentry : entryAt im n with
    | none => simp only [scheduledSend, hrun, hentry]
    | some e =>
      simp only [scheduledSend, hrun, hentry]
      refine if_pos ?_
      rcases h with h | h | h | h | h
      · rw [hrun] at h; cases h
      all_goals simp only [h, Bool.not_false, Bool.or_true, Bool.true_or]

/-! ## A frame that passes (R36, R37, R185, R208) -/

theorem transitOut_idle {q : Nat} {x : TransitItem} {s : State} (hbusy : (portOf s q).busyTill ≤ s.clk)
    (hfifo : (portOf s q).fifo = []) : transitOut q x s = transitEmit q x s := by
  simp [transitOut, hfifo, hbusy]

theorem transitOut_waits {q : Nat} {x : TransitItem} {s : State} (hbusy : s.clk < (portOf s q).busyTill)
    (hroom : ((portOf s q).fifo.map transitLen).sum + transitLen x ≤ 4096) :
    transitOut q x s = modPort q (fun t => { t with fifo := t.fifo ++ [x] }) s := by
  simp [transitOut, hbusy, hroom]

theorem transitEmit_emit {q : Nat} {f : TransitFrame} {s : State} (h : s.sys.extest = false) :
    (transitEmit q (.raw f) s).emit = s.emit ++ [.transit (Fin.ofNat 4 q) f] := by
  simp [transitEmit, emit, portBusy, portCount, h]

/-- R87: a frame that goes on counts at the port on which it arrived. -/
theorem transitEmit_ctr {p : Fin 4} {x : TransitItem} {s : State} (h : Sound s) :
    (portOf (transitEmit (acrossPort p) x s) p).ctr = ctrInc (portOf s p).ctr 9 := by
  simp only [transitEmit, portBusy, portCount, acrossPort_acrossPort, portOf_emit]
  rw [portOf_modPort_ne _ _ _ _ (acrossPort_ne p), portOf_modPort_self _ _ _ (port_mem h p)]

/-- A good frame for elsewhere goes on; in the slot region outside every window it counts as a stray. -/
theorem transitIn_passing {p : Nat} {f : TransitFrame} {t : Int} {s : State} (hgood : f.fin = .good) (helse : f.local_ = none)
    (hsched : scheduledAt p t s = false) (hwtb : onWtb s p = false) (hfwd : forwards s p = true)
    (hwtb' : onWtb s (acrossPort p) = false) :
    transitIn p f t s = transitOut (acrossPort p) (.raw f) (if straysAt p t s then schedCount 9 s else s) := by
  simp [transitIn, transitGoes, frameError, portUp_of_forwards hfwd, hgood, helse, hsched, hwtb, hfwd, hwtb']

/-- A good frame for a port group of this node does not go on. -/
theorem transitIn_local {p : Nat} {f : TransitFrame} {t : Int} {s : State} {e : EthFrame} (hgood : f.fin = .good)
    (hlocal : f.local_ = some e) (hup : portUp s p = true) (hwtb : onWtb s p = false) :
    transitIn p f t s =
      if straysAt p t s then schedCount 9 s else if isBoundary s p then s else transitLocal e s := by
  simp only [transitIn, transitGoes, frameError, hgood, hlocal, hup, hwtb]
  cases straysAt p t s <;> simp

/-- What is stored whole before it goes on does not go on unless it is good. -/
theorem transitIn_broken {p : Nat} {f : TransitFrame} {t : Int} {s : State} (hbroken : f.fin ≠ .good)
    (hstray : straysAt p t s = false) (hup : portUp s p = true) (hwtb : onWtb s p = false) (hcut : cutsThrough p s = false) :
    transitIn p f t s = frameError p f.fin s := by
  have hgoes : ∀ b, transitGoes p b f s = false := fun b => by simp [transitGoes, hcut, hbroken]
  simp only [transitIn, hgoes, hstray, hup, hwtb]
  cases hl : f.local_ <;> cases hf : f.fin <;> simp_all

/-! ## What a port sends next (R92, R208–R210) -/

section
variable {p : Nat} {s : State} (hcarry : portCarries s p = true) (hwtb : onWtb s p = false)
  (hbusy : (portOf s p).busyTill ≤ s.clk)
include hcarry hwtb hbusy

theorem nonScheduled_transit {f : TransitItem} {fs : List TransitItem} (hfifo : (portOf s p).fifo = f :: fs) :
    nonScheduled p false s = transitEmit p f (modPort p (fun t => { t with fifo := fs }) s) := by
  simp [nonScheduled, hcarry, hwtb, Nat.not_lt.mpr hbusy, hfifo]

theorem nonScheduled_own (hfifo : (portOf s p).fifo = []) :
    nonScheduled p false s = nextQueued p [0, 1, 2, 3] (boundaryQueues p s) := by
  simp [nonScheduled, hcarry, hwtb, Nat.not_lt.mpr hbusy, hfifo]

end

theorem nonScheduled_busy (p : Nat) (s : State) : nonScheduled p true s = s := by
  simp [nonScheduled]

theorem boundaryQueues_inner {p : Nat} {s : State} (h : isBoundary s p = false) : boundaryQueues p s = s := by
  simp [boundaryQueues, h]

theorem nextQueued_empty {p : Nat} {s : State} (h : ∀ q ∈ (portOf s p).queues, q = []) (qs : List Nat) :
    nextQueued p qs s = s := by
  induction qs with
  | nil => rfl
  | cons q qs ih =>
    have hq : (portOf s p).queues.getD q [] = [] := by
      rw [List.getD_eq_getElem?_getD]
      cases hx : (portOf s p).queues[q]? with
      | none => rfl
      | some x => exact h x (List.mem_of_getElem? hx)
    simp only [nextQueued, hq, List.head?_nil, ih]

theorem boundaryQueues_queues {p : Fin 4} {s : State} (h : Sound s) (hb : isBoundary s p = true)
    (hcross : ∀ q ∈ (portOf s p).queues, ∀ f ∈ q, mayCross f.frame = false) :
    ∀ q ∈ (portOf (boundaryQueues p s) p).queues, q = [] := by
  intro q hq
  rw [boundaryQueues, if_pos hb, portOf_modPort_self _ _ _ (port_mem h p)] at hq
  obtain ⟨r, hr, rfl⟩ := List.mem_map.mp hq
  exact List.filter_eq_nil_iff.mpr fun f hf => by simp [hcross r hr f hf]

theorem boundaryQueues_emit (p : Nat) (s : State) : (boundaryQueues p s).emit = s.emit := by
  unfold boundaryQueues; split <;> rfl

theorem mayStart_of_idle {p q : Nat} {f : QFrame} {s : State} (hrun : s.sched.running = none) :
    mayStart p q f s = true := by
  simp only [mayStart, hrun]

theorem mayStart_of_allowed {p q : Nat} {f : QFrame} {s : State} {im : Image} (hrun : s.sched.running = some im)
    (hregion : regionAllows im p q f s = true) (hcredit : creditAllows im p q f s = true) : mayStart p q f s = true := by
  simp only [mayStart, hrun, hregion, hcredit, Bool.and_self]

theorem nextQueued_start {p q : Nat} {qs : List Nat} {f : QFrame} {s : State}
    (hhead : ((portOf s p).queues.getD q []).head? = some f) (hmay : mayStart p q f s = true) :
    nextQueued p (q :: qs) s = startQueued p q f s := by
  simp only [nextQueued, hhead]
  unfold mayStart at hmay
  cases hrun : s.sched.running with
  | none => rfl
  | some im => simp_all

/-- What starts on a port changes other ports only among the frames that wait there. -/
theorem departing_port (p : Fin 4) (f : QFrame) (s : State) : portOf (departing p f s).2 p = portOf s p := by
  have hacross : ∀ i s, portOf (countedAcross p i s) p = portOf s p := fun i s => portOf_modPort_ne _ _ _ _ (acrossPort_ne p)
  have hprotect : ∀ b g s, portOf (protect b g s).2 p = portOf s p := fun _ _ _ => rfl
  unfold departing
  split
  · rfl
  · split
    · rfl
    · dsimp only; split <;> simp [hacross, hprotect]
  · rfl

theorem departing_frame (p : Nat) (f : QFrame) (s : State) :
    (departing p f s).2.clk = s.clk ∧ (departing p f s).2.trunk.ports.length = s.trunk.ports.length := by
  unfold departing
  split
  · exact ⟨rfl, rfl⟩
  · split
    · exact ⟨rfl, rfl⟩
    · dsimp only; split <;> simp [protect, countedAcross, flowLeft]
  · exact ⟨rfl, rfl⟩

/-- R208, R210: the port is busy for as long as the frame lasts, and the credit of its class is used. -/
theorem startFrame_port {p : Fin 4} {f : QFrame} {s : State} (hp : p.val < s.trunk.ports.length)
    (hidle : (portOf s p).busyTill ≤ s.clk) :
    (portOf (startFrame p 0 f s) p).busyTill = s.clk + lineTicks (portOf s p) f.len ∧
    (portOf (startFrame p 0 f s) p).mgmtUsed = (portOf s p).mgmtUsed + f.len := by
  obtain ⟨hclk, hlen⟩ := departing_frame p f s
  rw [← hlen] at hp
  simp only [startFrame, trunkOut, portBusy, portOf_emit, modPort_frame]
  rw [portOf_modPort_self _ _ _ (by simpa using hp), portOf_modPort_self _ _ _ hp, departing_port, hclk]
  exact ⟨max_eq_right (hidle.trans (Nat.le_add_right _ _)), rfl⟩

theorem startQueued_port {p : Fin 4} {f : QFrame} {s : State} (h : Sound s) (hidle : (portOf s p).busyTill ≤ s.clk) :
    (portOf (startQueued p 0 f s) p).busyTill = s.clk + lineTicks (portOf s p) f.len ∧
    (portOf (startQueued p 0 f s) p).mgmtUsed = (portOf s p).mgmtUsed + f.len := by
  have hp := port_mem h p
  have hport := startFrame_port (p := p) (f := f)
    (s := modPort p (fun t => { t with queues := updAt t.queues 0 (fun l => l.drop 1) }) s) (by simpa using hp)
    (by rw [portOf_modPort_self _ _ _ hp]; exact hidle)
  rwa [portOf_modPort_self _ _ _ hp] at hport

/-! ## A flow frame that arrives (R281, R288, R293) -/

section
variable {i : Nat} {c : FlowCtx} {b v : Bool} {check6 : State → Bool × State} {f : FlowFrame} {s : State}

theorem consumeFrame_unprotected (hmac : c.macsec = true) : consumeFrame i c b false check6 f s = flowCount i 13 s := by
  simp [consumeFrame, hmac]

theorem consumeFrame_stale (hmac : c.macsec = false) (hgen : genInForce f.gen s = false) :
    consumeFrame i c b v check6 f s = flowCount i 8 s := by
  simp [consumeFrame, hmac, hgen]

theorem consumeFrame_checked (hmac : c.macsec = false) (hgen : genInForce f.gen s = true) (hline : lineAllowed c b = true)
    (hcheck : check6 s = (true, s)) : consumeFrame i c b v check6 f s = consumeChecks i c b f s := by
  simp [consumeFrame, hmac, hgen, hline, hcheck]

theorem consumeChecks_length (hlen : f.len ≠ c.len.toNat) : consumeChecks i c b f s = flowCount i 9 s := if_pos hlen

end

theorem macsecTake_plain {f : FlowFrame} (h : f.sec = none) (s : State) : macsecTake f s = (false, s) := by
  simp only [macsecTake, h]

theorem learnFromFlow_alone {s : State} (h : s.twin.configured = false) (f : FlowFrame) (v : Bool) :
    learnFromFlow f v s = s := by
  simp [learnFromFlow, h]

theorem exec_flowFrameRx_fabric {dt : Nat} {b : Bool} {f : FlowFrame} {s : State} {i : Nat} {c : FlowCtx}
    (hfab : s.fab.attached = true) (hsec : f.sec = none) (htwin : s.twin.configured = false)
    (hcons : consumer f.flowId s = some (i, c)) :
    exec (.flowFrameRx dt (.fabric b) f .good) s =
      .next (consumeFrame i c b false (fun s => (true, s)) f (begin_ dt s)) := by
  have hcons' : consumer f.flowId (begin_ dt s) = some (i, c) := hcons
  change execFlowFrameRx dt (.fabric b) f .good s = _
  simp [execFlowFrameRx, hfab, macsecTake_plain hsec, learnFromFlow_alone, htwin, flowFromFabric, hcons']

section
variable {p : Nat} {rx : Int} {f : FlowFrame} {s : State} (hup : portUp s p = true) (hwtb : onWtb s p = false)
include hup hwtb

theorem flowOnTrunk_bad :
    flowOnTrunk p rx f .bad s = forwardFlow p (pinRx (portOf s p) rx) f false (portCount p 1 s) := by
  have hend : (FrameEnd.bad == FrameEnd.good) = false := rfl
  simp [flowOnTrunk, hup, hwtb, frameError_bad, hend]

theorem flowOnTrunk_abort : flowOnTrunk p rx f .abort s = forwardFlow p (pinRx (portOf s p) rx) f false s := by
  have hend : (FrameEnd.abort == FrameEnd.good) = false := rfl
  simp [flowOnTrunk, hup, hwtb, hend]

/-- R92: on a boundary port it is another group's, and no flow of this node's. -/
theorem flowOnTrunk_boundary (hb : isBoundary s p = true) :
    flowOnTrunk p rx f .good s = forwardFlow p (pinRx (portOf s p) rx) f true s := by
  simp [flowOnTrunk, hup, hwtb, hb]

/-- A frame that no flow of this node takes, of a generation not in force: it goes on as it came. -/
theorem flowOnTrunk_unread (hsec : f.sec = none) (htwin : s.twin.configured = false) (hgen : genInForce f.gen s = false)
    (hcons : consumer f.flowId s = none) (hrun : s.sched.running = none) :
    flowOnTrunk p rx f .good s = forwardFlow p (pinRx (portOf s p) rx) f true s := by
  have hread : flowFromTrunk p (pinRx (portOf s p) rx) false f s = s := by simp [flowFromTrunk, hrun, hcons]
  simp [flowOnTrunk, hup, hwtb, macsecTake_plain hsec, learnFromFlow_alone htwin, hread, hgen]

end

/-! ## The commands -/

theorem sound_begin_ {s : State} (h : Sound s) (dt : Nat) : Sound (begin_ dt s) := h

theorem exec_trunkFrameForward (dt : Nat) (p : Fin 4) (f : TransitFrame) (rx : Int) (s : State) :
    exec (.trunkFrameForward dt p f rx) s = .next (transitIn p f (pinRx (portOf s p) rx) (begin_ dt s)) := rfl

theorem exec_nonScheduledSend (dt : Nat) (p : Fin 4) (busy : Bool) (s : State) :
    exec (.nonScheduledSend dt p busy) s = .next (nonScheduled p busy (begin_ dt s)) := rfl

theorem exec_nonScheduledSend_head {dt : Nat} {p : Fin 4} {f : QFrame} {s : State} (hcarry : portCarries s p = true)
    (hwtb : onWtb s p = false) (hidle : (portOf s p).busyTill ≤ s.clk + dt) (hfifo : (portOf s p).fifo = [])
    (hhead : ((portOf s p).queues.getD 0 []).head? = some f) (hb : isBoundary s p = false)
    (hmay : mayStart p 0 f (begin_ dt s) = true) :
    exec (.nonScheduledSend dt p false) s = .next (startQueued p 0 f (begin_ dt s)) := by
  rw [exec_nonScheduledSend, nonScheduled_own (s := begin_ dt s) hcarry hwtb hidle hfifo,
    boundaryQueues_inner (s := begin_ dt s) hb, nextQueued_start (s := begin_ dt s) hhead hmay]

theorem exec_flowFrameRx_unread {dt : Nat} {b : Bool} {f : FlowFrame} {fin : FrameEnd} {s : State}
    (h : s.fab.attached = false ∨ fin ≠ .good) :
    exec (.flowFrameRx dt (.fabric b) f fin) s = .next (begin_ dt s) := by
  change execFlowFrameRx dt (.fabric b) f fin s = _
  rcases h with h | h <;> simp [execFlowFrameRx, h]

/-- R212: a frame still passing at a port is aborted. -/
theorem exec_sporadicAbort_one {dt : Nat} {p : Fin 4} {s : State} (hs : Sound s) (hext : s.sys.extest = false) :
    ∃ t, exec (.sporadicAbort dt [p]) s = .next t ∧ t.emit = [.abortCode p] ∧ (portOf t p).busyTill = s.clk + dt ∧
      t.sched.ctr = ctrInc s.sched.ctr 12 ∧ (∀ q : Fin 4, q ≠ p → portOf t q = portOf s q) := by
  refine ⟨_, rfl, ?_, ?_, ?_, fun q hq => ?_⟩
  · simp [forEach, emit, schedCount, hext]
  · simp only [forEach, List.foldl_cons, List.foldl_nil, portOf_emit, portOf_schedCount]
    rw [portOf_modPort_self _ _ _ (port_mem (sound_begin_ hs dt) p)]; rfl
  · simp [forEach, schedCount]
  · simp only [forEach, List.foldl_cons, List.foldl_nil, portOf_emit, portOf_schedCount]
    rw [portOf_modPort_ne _ _ _ _ (fun h => hq (Fin.ext h.symm))]; rfl

end Sys2Proof.Machine
end

section
/-! PROOFS. The statements of spec/01_train_from_one_node.md. -/

open Sys2Proof Sys2Proof.Machine

/-- Settles O23: each clause names the branch its command takes (`instant_*` and the `exec_*` equations); no part of an instant
moves the clock (`instantBody_own_clk`). -/
theorem cycleCommandsComplete : Obligations.CycleCommandsComplete := by
  intro dt s _
  refine ⟨?_, ?_, ?_, ?_, ?_, ?_, fun h => exec_holdoverEntry_not_due h, ?_, ?_, ?_, fun h => exec_nextOpenSet_not_due h, ?_,
    fun h => exec_releaseDeadline_not_due h⟩
  · intro hruns hprep
    have hexec := (exec_registrationInstant s).trans
      (congrArg Host.Outcome.next (instant_own hruns (fun p hp => by simp [hprep] at hp)))
    exact ⟨hexec, _, hexec, instantBody_own_clk _ _ _ _⟩
  · exact fun p hruns hprep htime hdue => congrArg Host.Outcome.next (instant_yields hruns hprep htime hdue)
  · exact fun p hruns _ hown => congrArg Host.Outcome.next (instant_own hruns (fun _ _ => hown))
  · intro hruns hpark
    have hexec : exec .registrationInstant s = .next (runTo (nextInstant s) s) := by
      rw [exec_registrationInstant, instant_idle hruns, if_neg (Bool.eq_false_iff.mp hpark)]
    exact ⟨hexec, _, hexec, rfl⟩
  · intro hruns hpark
    have hexec : exec .registrationInstant s = .next (powerAtInstant (runTo (nextInstant s) s)) := by
      rw [exec_registrationInstant, instant_idle hruns, if_pos hpark]
    exact ⟨hexec, _, hexec, powerAtInstant_now _, powerAtInstant_deepestNext _⟩
  · intro hst hwithout
    have hexec := exec_holdoverEntry_due (dt := dt) hst hwithout
    have hnot : s.time.st ≠ .holdover := by rcases hst with h | h <;> simp [h]
    exact ⟨hexec, _, hexec, setTimeState_holdover (s := begin_ dt s) hnot⟩
  · intro hopening hnext hheld hirq
    exact (exec_nextOpenSet_due hopening hnext).trans
      (congrArg Host.Outcome.next (openNext_quiet (s := begin_ dt s) hheld hirq))
  · intro i off data hopening hnext hheld hirq
    have hexec := (exec_nextOpenSet_due (dt := dt) hopening hnext).trans
      (congrArg Host.Outcome.next (openNext_one_held (s := begin_ dt s) hheld hirq))
    exact ⟨hexec, _, hexec, by simp, by simp⟩
  · intro hopening hnext hheld hirq
    exact (exec_nextOpenSet_due hopening hnext).trans
      (congrArg Host.Outcome.next (openNext_signals (s := begin_ dt s) hheld hirq))
  · intro hready hrun hdone
    have hexec := exec_releaseDeadline_due (dt := dt) hready hrun hdone
    exact ⟨hexec, _, hexec, linkedWrites_deadline _⟩

/-- Settles O24: each clause names the branch of its command (`scheduledSend_*`, `transitIn_*`, `nonScheduled_*`,
`consumeFrame_*`, `flowOnTrunk_*`); what it supposes of the state holds as well once the command has begun. -/
theorem lineCommandsComplete : Obligations.LineCommandsComplete := by
  intro dt s hs
  have hs' : Sound (begin_ dt s) := sound_begin_ hs dt
  refine ⟨?_, ?_, ?_, ?_, fun p hext => exec_sporadicAbort_one hs hext, ?_, ?_, ?_, ?_, ?_, ?_, ?_, ?_, ?_, ?_, ?_, ?_, ?_,
    ?_, ?_, ?_, ?_, ?_, ?_⟩
  · intro n tr im e i c hrun hentry hjoined hfab hready hpolled hown hflag hflow
    exact congrArg Host.Outcome.next
      (scheduledSend_flow (s := begin_ dt s) hrun hentry hjoined hfab hready hpolled hown hflag hflow)
  · intro n tr im e hrun hentry hjoined hfab hready hpolled hown hflag
    exact congrArg Host.Outcome.next
      (scheduledSend_heartbeat (s := begin_ dt s) hrun hentry hjoined hfab hready hpolled hown hflag)
  · intro n tr im e k hrun hentry hjoined hfab hready hpolled hown hslot hactive
    exact congrArg Host.Outcome.next
      (scheduledSend_proxy (s := begin_ dt s) hrun hentry hjoined hfab hready hpolled hown hslot hactive)
  · intro n tr h
    exact congrArg Host.Outcome.next (scheduledSend_silent n tr h)
  · intro p f rx hgood helse hstray hsched hwtb hfwd hwtb' hidle hfifo
    have hexec : exec (.trunkFrameForward dt p f rx) s = .next (transitEmit (acrossPort p) (.raw f) (begin_ dt s)) := by
      rw [exec_trunkFrameForward, transitIn_passing (s := begin_ dt s) hgood helse hsched hwtb hfwd hwtb', hstray]
      exact congrArg Host.Outcome.next (transitOut_idle hidle hfifo)
    exact ⟨hexec, _, hexec, transitEmit_ctr hs', fun hext => transitEmit_emit (s := begin_ dt s) hext⟩
  · intro p f rx hgood helse hstray hsched hwtb hfwd hwtb' hbusy hroom
    have hexec : exec (.trunkFrameForward dt p f rx) s =
        .next (modPort (acrossPort p) (fun t => { t with fifo := t.fifo ++ [.raw f] }) (begin_ dt s)) := by
      rw [exec_trunkFrameForward, transitIn_passing (s := begin_ dt s) hgood helse hsched hwtb hfwd hwtb', hstray]
      exact congrArg Host.Outcome.next (transitOut_waits hbusy hroom)
    refine ⟨_, hexec, rfl, ?_⟩
    rw [portOf_modPort_self _ _ _ (port_mem hs' ⟨_, acrossPort_lt p⟩), portOf_begin_]
  · intro p f rx hgood helse hstray hsched hwtb hfwd hwtb'
    rw [exec_trunkFrameForward, transitIn_passing (s := begin_ dt s) hgood helse hsched hwtb hfwd hwtb', if_pos hstray]
  · intro p f rx e hgood hlocal hstray hup hwtb hb
    rw [exec_trunkFrameForward, transitIn_local (s := begin_ dt s) hgood hlocal hup hwtb, hstray]
    exact congrArg Host.Outcome.next (if_neg (Bool.eq_false_iff.mp hb))
  · intro p f rx e hgood hlocal hstray hup hwtb
    rw [exec_trunkFrameForward, transitIn_local (s := begin_ dt s) hgood hlocal hup hwtb, if_pos hstray]
  · intro p f rx hstray hup hwtb hcut
    refine ⟨fun hbad => ?_, fun habort => ?_⟩
    · rw [exec_trunkFrameForward, transitIn_broken (s := begin_ dt s) (by simp [hbad]) hstray hup hwtb hcut, hbad]
      exact congrArg Host.Outcome.next (frameError_bad hup)
    · rw [exec_trunkFrameForward, transitIn_broken (s := begin_ dt s) (by simp [habort]) hstray hup hwtb hcut, habort]
      rfl
  · intro p f fs hcarry hwtb hidle hfifo
    exact congrArg Host.Outcome.next (nonScheduled_transit (s := begin_ dt s) hcarry hwtb hidle hfifo)
  · intro p f im hcarry hwtb hidle hfifo hhead hb hrun hregion hcredit
    have hmay : mayStart p 0 f (begin_ dt s) = true := mayStart_of_allowed hrun hregion hcredit
    have hexec := exec_nonScheduledSend_head hcarry hwtb hidle hfifo hhead hb hmay
    obtain ⟨hbusy, hused⟩ := startQueued_port (f := f) hs' hidle
    exact ⟨hexec, _, hexec, hbusy, hused⟩
  · intro p f hcarry hwtb hidle hfifo hhead hb hrun
    exact exec_nonScheduledSend_head hcarry hwtb hidle hfifo hhead hb (mayStart_of_idle hrun)
  · intro p hcarry hwtb hidle hfifo hb hcross
    have hempty := boundaryQueues_queues hs' hb hcross
    have hexec : exec (.nonScheduledSend dt p false) s = .next (boundaryQueues p (begin_ dt s)) := by
      rw [exec_nonScheduledSend, nonScheduled_own (s := begin_ dt s) hcarry hwtb hidle hfifo, nextQueued_empty hempty]
    exact ⟨_, hexec, boundaryQueues_emit p _, hempty⟩
  · exact fun p => congrArg Host.Outcome.next (nonScheduled_busy p _)
  · intro b f i c hfab hsec htwin hcons hmac hgen hline
    rw [exec_flowFrameRx_fabric hfab hsec htwin hcons, consumeFrame_checked (s := begin_ dt s) hmac hgen hline rfl]
  · intro b f i c hfab hsec htwin hcons hmac hgen
    rw [exec_flowFrameRx_fabric hfab hsec htwin hcons, consumeFrame_stale (s := begin_ dt s) hmac hgen]
  · intro b f i c hfab hsec htwin hcons hmac
    rw [exec_flowFrameRx_fabric hfab hsec htwin hcons, consumeFrame_unprotected hmac]
  · intro b f i c hfab hsec htwin hcons hmac hgen hline hlen
    rw [exec_flowFrameRx_fabric hfab hsec htwin hcons, consumeFrame_checked (s := begin_ dt s) hmac hgen hline rfl,
      consumeChecks_length hlen]
  · exact fun b f fin h => exec_flowFrameRx_unread h
  · exact fun p rx f hup hwtb => ⟨congrArg Host.Outcome.next (flowOnTrunk_bad hup hwtb),
      congrArg Host.Outcome.next (flowOnTrunk_abort hup hwtb)⟩
  · exact fun p rx f hup hwtb hb => congrArg Host.Outcome.next (flowOnTrunk_boundary hup hwtb hb)
  · intro p rx f hup hwtb _ hsec htwin hgen hcons hrun
    exact congrArg Host.Outcome.next (flowOnTrunk_unread hup hwtb hsec htwin hgen hcons hrun)

end

section
/-! PROOFS. The TOPO and TRUNK commands (spec/02, spec/03): what the subject chapters answer, case by case. -/

namespace Sys2Proof.Machine

theorem inSteep_iff (s : State) : inSteep s = true ↔ s.ina.st = .steep := by
  unfold inSteep; cases s.ina.st <;> simp

theorem inHeld_iff (s : State) : inHeld s = true ↔ s.ina.st = .held := by
  unfold inHeld; cases s.ina.st <;> simp

/-! ## Bodies (R56, R71, R72, R87, R100, R106, R138, R154, R714) -/

section
variable {r : Ring} {s : State}

theorem topoDirectoryBody_inForce {d : Directory} (hk : byteAt r.req 0 = 0) (hd : s.ina.dir = some d) :
    topoDirectoryBody r s = (done ((dirFrames false false d).flatMap dirFrameBytes), s) := by
  simp [topoDirectoryBody, hk, hd]

theorem topoDirectoryBody_prepared {p : Prepared} (hk : byteAt r.req 0 = 1) (hp : s.ina.prep = some p)
    (hw : p.whole = true) :
    topoDirectoryBody r s = (done ((dirFrames true false p.dir).flatMap dirFrameBytes), s) := by
  simp [topoDirectoryBody, hk, hp, hw, Option.filter]

theorem topoSetIdentityBody_steep (hst : s.ina.st = .steep) (hv : fieldAt r.req 0 6 ≠ 0) (htwin : byteAt r.req 6 ≤ 1) :
    topoSetIdentityBody r s = (done [], modIna (fun n => { n with
      vid := BitVec.ofNat 48 (fieldAt r.req 0 6), twinB := byteAt r.req 6 == 1
      prio := BitVec.ofNat 8 (byteAt r.req 7) }) s) := by
  simp [topoSetIdentityBody, hv, (inSteep_iff s).mpr hst, Nat.not_le.mpr (Nat.lt_succ_of_le htwin)]

theorem topoColdStartBody_waiting (hfab : s.fab.attached = false) (hst : s.ina.st = .steep ∨ s.ina.st = .held) :
    topoColdStartBody r s = (done [], if mayContend s then enterContend s else s) := by
  have hwaits : (inSteep s || inHeld s) = true := by
    rw [Bool.or_eq_true, inSteep_iff, inHeld_iff]; exact hst
  simp [topoColdStartBody, hfab, hwaits]

section
variable (hdir : 1 ≤ byteAt r.req 0) (hdir' : byteAt r.req 0 ≤ 2) (hpol : byteAt r.req 1 ≤ 6)
  (hwtb : byteAt r.req 1 = 6 → s.sys.native = false) (hfab : s.fab.attached = true → byteAt r.req 1 = 0)
include hdir hdir' hpol hwtb hfab

/-- A policy that the node accepts is applied or queued, as the ports of the direction stand (R714). -/
theorem trunkSetPolicyBody_accepted : trunkSetPolicyBody r s =
    if policyAtOnce (byteAt r.req 0 - 1) s then (done [], applyPolicy (byteAt r.req 0 - 1) (byteAt r.req 1) s)
    else (queued 0, modTrunk (fun t => { t with
      policyNext := updAt t.policyNext (byteAt r.req 0 - 1) (fun _ => some (byteAt r.req 1)) }) s) := by
  have hrange : ¬ (byteAt r.req 0 < 1 ∨ 2 < byteAt r.req 0) := by omega
  have hnative : ¬ (byteAt r.req 1 = 6 ∧ s.sys.native = true) := fun h => by simp [hwtb h.1] at h
  have hattached : ¬ (s.fab.attached = true ∧ byteAt r.req 1 ≠ 0) := fun h => h.2 (hfab h.1)
  simp only [trunkSetPolicyBody, Bool.or_eq_true, Bool.and_eq_true, decide_eq_true_eq, if_neg hrange,
    if_neg (Nat.not_lt.mpr hpol), if_neg hnative, if_neg hattached]

end

theorem trunkStatusBody_port (hp : byteAt r.req 0 ≤ 3) :
    trunkStatusBody r s = (done (trunkRecord (byteAt r.req 0) s),
      if clearAsked r.req 1 then modPort (byteAt r.req 0) (fun t => { t with ctr := ctrClear t.ctr }) s else s) :=
  if_neg (Nat.not_lt.mpr hp)

theorem trunkBypassBody_passive (hb : byteAt r.req 0 = 1) :
    trunkBypassBody r s = (queued 1, if s.trunk.seq.isSome then s else startSequence true s) := by
  cases hseq : s.trunk.seq <;> simp [trunkBypassBody, hb, hseq]

theorem trunkBypassBody_active (hb : byteAt r.req 0 = 0) (hfab : s.fab.attached = false) :
    trunkBypassBody r s = (queued 0, if s.trunk.seq.isSome then s else startSequence false s) := by
  cases hseq : s.trunk.seq <;> simp [trunkBypassBody, hb, hfab, hseq]

theorem trunkRetrainBody_steep (hp : byteAt r.req 0 ≤ 3) (hst : s.ina.st = .steep) :
    trunkRetrainBody r s = (done [], portRetrain (byteAt r.req 0) s) := by
  simp [trunkRetrainBody, Nat.not_lt.mpr hp, (inSteep_iff s).mpr hst]

theorem trunkRetrainBody_later (hp : byteAt r.req 0 ≤ 3) (hst : s.ina.st ≠ .steep) :
    trunkRetrainBody r s =
      (queued (byteAt r.req 0), modPort (byteAt r.req 0) (fun t => { t with retrain := true }) s) := by
  have hnot : inSteep s = false := Bool.eq_false_iff.mpr fun h => hst ((inSteep_iff s).mp h)
  simp [trunkRetrainBody, Nat.not_lt.mpr hp, hnot]

end

/-- What a TOPO_SET_LEADING keeps is read off the queue and the stored command, which taking the ring leaves. -/
theorem leadKept_taken (op dt : Nat) (r : Ring) (s : State) : leadKept (taken op dt r s) = leadKept s := by
  simp [leadKept]

end Sys2Proof.Machine
end

section
/-! PROOFS. Trunk ports (spec/02): what the changes of port state (R67–R69) write in the port they name and leave in the others,
and what each event on a port comes to. -/

namespace Sys2Proof.Machine

/-! ## Parts of a port -/

theorem Sound.port_lt {s : State} (h : Sound s) {p : Nat} (hp : p < 4) : p < s.trunk.ports.length := h.ports.symm ▸ hp

theorem portUp_iff {s : State} {p : Nat} : portUp s p = true ↔ (portOf s p).st = .up := by
  unfold portUp; cases (portOf s p).st <;> simp

theorem linkHeld_iff {t : Port} : linkHeld t = true ↔ t.st = .up ∨ t.st = .resume := by
  unfold linkHeld; cases t.st <;> simp

theorem onNdoelle_iff {t : Port} : onNdoelle t = true ↔ t.mode = .ndoelle := by
  unfold onNdoelle; cases t.mode <;> simp

theorem st_of_not_ndoelleHeld {t : Port} (hmode : onNdoelle t = true) (h : ndoelleHeld t = false) : t.st = .train := by
  unfold ndoelleHeld at h
  cases hst : t.st <;> simp [hmode, hst] at h ⊢

theorem sound_of_kept {s t : State} (h : ∀ K, Kept K t ↔ Kept K s) (hs : Sound s) : Sound t := by
  obtain ⟨-, -, ht⟩ := (h (s.pending, fusedOf s.sys)).mpr ⟨rfl, rfl, hs⟩
  exact ht

theorem siblingPort_lt (p : Fin 4) : siblingPort p < 4 := by
  unfold siblingPort dirOfPort; omega

theorem siblingPort_ne (p : Fin 4) : siblingPort p ≠ p := by
  unfold siblingPort dirOfPort; omega

theorem updAt_congr {α : Type} {l : List α} {i : Nat} {f g : α → α} (d : α) (h : f (l.getD i d) = g (l.getD i d)) :
    updAt l i f = updAt l i g := by
  induction l generalizing i with
  | nil => rfl
  | cons x xs ih =>
    cases i with
    | zero => exact congrArg (· :: xs) h
    | succ n => exact congrArg (x :: ·) (ih h)

/-- Two changes of a port that agree on the port as it stands are one. -/
theorem modPort_congr {p : Nat} {f g : Port → Port} {s : State} (h : f (portOf s p) = g (portOf s p)) :
    modPort p f s = modPort p g s :=
  congrArg (fun l => { s with trunk := { s.trunk with ports := l } }) (updAt_congr Port.reset h)

theorem getD_updAt_field {α β : Type} (g : α → β) {f : α → α} (h : ∀ t, g (f t) = g t) (l : List α) (i j : Nat) (d : α) :
    g ((updAt l i f).getD j d) = g (l.getD j d) := by
  induction l generalizing i j with
  | nil => rfl
  | cons x xs ih =>
    cases i with
    | zero => cases j <;> simp [updAt, h]
    | succ n =>
      cases j with
      | zero => rfl
      | succ m => exact ih n m

/-- A field that a change of a port keeps reads the same at every port. -/
theorem modPort_field {β : Type} (g : Port → β) {f : Port → Port} (h : ∀ t, g (f t) = g t) (p q : Nat) (s : State) :
    g (portOf (modPort p f s) q) = g (portOf s q) := getD_updAt_field g h _ _ _ _

/-! ## Changes of port state (R54, R62, R67–R69): the port named, and the others -/

@[simp] theorem portOf_modIna (f : Ina → Ina) (s : State) (q : Nat) : portOf (modIna f s) q = portOf s q := rfl

@[simp] theorem portOf_raise (code : Nat) (param : List Byte) (s : State) (q : Nat) :
    portOf (raise code param s) q = portOf s q := by simp [portOf]

@[simp] theorem portOf_trunkLink (p : Nat) (s : State) (q : Nat) : portOf (trunkLink p s) q = portOf s q :=
  portOf_raise _ _ _ _

@[simp] theorem portOf_waitBegins (s : State) (q : Nat) : portOf (waitBegins s) q = portOf s q := rfl

/-- A role taken for a policy touches the role alone. -/
theorem roleForPolicy_field {β : Type} (g : Port → β)
    (h : ∀ t m c k, g { t with t1Master := m, swapClk := c, trainPol := k } = g t) (p q : Nat) (s : State) :
    g (portOf (roleForPolicy p s) q) = g (portOf s q) := by
  unfold roleForPolicy
  split
  · exact modPort_field g (fun t => h t _ _ _) p q s
  · rfl

theorem portOf_roleForPolicy_ne {p q : Nat} (hq : p ≠ q) (s : State) : portOf (roleForPolicy p s) q = portOf s q := by
  unfold roleForPolicy
  split
  · exact portOf_modPort_ne _ _ _ _ hq
  · rfl

section
variable {p : Nat} {s : State}

theorem portOf_portToDetect_ne {q : Nat} (hq : p ≠ q) (cause : Nat) : portOf (portToDetect p cause s) q = portOf s q := by
  unfold portToDetect
  rw [portOf_roleForPolicy_ne hq]
  split
  · rw [portOf_trunkLink, portOf_modPort_ne _ _ _ _ hq]
  · rw [portOf_modPort_ne _ _ _ _ hq]

/-- R67, R68: a port that returns to Detect from no link. -/
theorem portToDetect_unlinked (hs : Sound s) (hp : p < 4) (cause : Nat) (h : linkHeld (portOf s p) = false) :
    (portOf (portToDetect p cause s) p).st = .detect ∧ (portOf (portToDetect p cause s) p).clause98 = false ∧
    (portOf (portToDetect p cause s) p).ctr = (portOf s p).ctr := by
  have hfield : ∀ {β : Type} (g : Port → β), (∀ t m c k, g { t with t1Master := m, swapClk := c, trainPol := k } = g t) →
      g (portOf (portToDetect p cause s) p) = g (portClear .detect (portOf s p)) := fun g hg => by
    unfold portToDetect
    rw [roleForPolicy_field g hg, if_neg (Bool.eq_false_iff.mp h), portOf_modPort_self _ _ _ (hs.port_lt hp)]
  exact ⟨hfield (·.st) fun _ _ _ _ => rfl, hfield (·.clause98) fun _ _ _ _ => rfl, hfield (·.ctr) fun _ _ _ _ => rfl⟩

/-- R67–R69: a port whose link is held returns to Detect: the link's end counts, with its cause. -/
theorem portToDetect_linked (hs : Sound s) (hp : p < 4) (cause : Nat) (h : linkHeld (portOf s p) = true) :
    (portOf (portToDetect p cause s) p).st = .detect ∧ (portOf (portToDetect p cause s) p).delay.valid = false ∧
    (portOf (portToDetect p cause s) p).ctr = ctrInc (portOf s p).ctr 4 ∧
    (portOf (portToDetect p cause s) p).downCause =
      BitVec.ofNat 4 (if cause = 1 && (portOf s p).passive then 5 else cause) := by
  have hfield : ∀ {β : Type} (g : Port → β), (∀ t m c k, g { t with t1Master := m, swapClk := c, trainPol := k } = g t) →
      g (portOf (portToDetect p cause s) p) = g { portClear .detect (portOf s p) with
        downCause := BitVec.ofNat 4 (if cause = 1 && (portOf s p).passive then 5 else cause)
        ctr := ctrInc (portOf s p).ctr 4, swapClk := s.clk } := fun g hg => by
    unfold portToDetect
    rw [roleForPolicy_field g hg, if_pos h, portOf_trunkLink, portOf_modPort_self _ _ _ (hs.port_lt hp)]
  exact ⟨hfield (·.st) fun _ _ _ _ => rfl, hfield (·.delay.valid) fun _ _ _ _ => rfl, hfield (·.ctr) fun _ _ _ _ => rfl,
    hfield (·.downCause) fun _ _ _ _ => rfl⟩

/-- R48: a port that falls back to Clause 98. -/
theorem portFallback_port (hs : Sound s) (hp : p < 4) (h : linkHeld (portOf s p) = false) :
    (portOf (portFallback p s) p).st = .detect ∧ (portOf (portFallback p s) p).clause98 = true ∧
    (portOf (portFallback p s) p).ctr = (portOf s p).ctr := by
  obtain ⟨hst, -, hctr⟩ := portToDetect_unlinked hs hp 0 h
  have hs' : Sound (portToDetect p 0 s) := sound_of_kept (fun K => portToDetect_kept K p 0 s) hs
  unfold portFallback
  rw [portOf_modPort_self _ _ _ (hs'.port_lt hp)]
  exact ⟨hst, rfl, hctr⟩

theorem portOf_portFallback_ne {q : Nat} (hq : p ≠ q) : portOf (portFallback p s) q = portOf s q := by
  unfold portFallback
  rw [portOf_modPort_ne _ _ _ _ hq, portOf_portToDetect_ne hq]

theorem portOf_portTrainFail_ne {q : Nat} (hq : p ≠ q) : portOf (portTrainFail p s) q = portOf s q :=
  portOf_modPort_ne _ _ _ _ hq

theorem portOf_portTrainFail_self (hs : Sound s) (hp : p < 4) :
    portOf (portTrainFail p s) p = { portOf s p with ctr := ctrInc (portOf s p).ctr 6 } :=
  portOf_modPort_self _ _ _ (hs.port_lt hp)

/-- R67, R714: a port enters Train. -/
theorem portOf_portToTrain_self (hs : Sound s) (hp : p < 4) (m : Mode) :
    portOf (portToTrain p m s) p = { portClear .train (portOf s p) with
      mode := m, energySeen := true, ctr := ctrInc (portOf s p).ctr 5, qualClk := s.clk, trainPol := policyOf s p } :=
  portOf_modPort_self _ _ _ (hs.port_lt hp)

theorem portOf_portToTrain_ne {q : Nat} (hq : p ≠ q) (m : Mode) : portOf (portToTrain p m s) q = portOf s q :=
  portOf_modPort_ne _ _ _ _ hq

/-- R67: a port enters Negotiate. -/
theorem portOf_portToNegotiate_self (hs : Sound s) (hp : p < 4) :
    portOf (portToNegotiate p s) p =
      { portClear .negotiate (portOf s p) with energySeen := true, qualClk := s.clk } :=
  portOf_modPort_self _ _ _ (hs.port_lt hp)

theorem portOf_portToNegotiate_ne {q : Nat} (hq : p ≠ q) : portOf (portToNegotiate p s) q = portOf s q :=
  portOf_modPort_ne _ _ _ _ hq

/-- R68: a port enters Up. -/
theorem portOf_portToUp_self (hs : Sound s) (hp : p < 4) (u : BitVec 64) :
    portOf (portToUp p u s) p = { portOf s p with
      st := .up, partnerUid := u, okUid := u
      delay := { DelayEst.reset with reqSeq := (portOf s p).delay.reqSeq, accSeq := (portOf s p).delay.accSeq }
      lossClk := none, rideCounted := false, upInstants := 0, stable := onNdoelle (portOf s p), stableClk := s.clk } := by
  unfold portToUp
  rw [portOf_waitBegins, portOf_trunkLink, portOf_modPort_self _ _ _ (hs.port_lt hp)]

end

/-! ## A link goes down (R68, R91, R153) -/

/-- R116: a node that is not joined says nothing of a broken direction. -/
theorem checkBroken_unjoined {s : State} (h : joined s = false) (d : Nat) : checkBroken d s = s := by
  unfold checkBroken breakNow
  split
  · rfl
  · cases s.ina.dir <;> simp [h]

theorem inBackbone_unjoined {s : State} (h : joined s = false) : inBackbone s = false := by
  unfold joined at h
  unfold inBackbone
  cases hst : s.ina.st <;> simp [hst] at h ⊢

/-- What queuing a frame leaves of a port: all but its queues. -/
theorem trunkEnqueue_field {β : Type} (g : Port → β) (h : ∀ t l, g { t with queues := l } = g t) (p q : Nat) (f : QFrame)
    (s : State) (j : Nat) : g (portOf (trunkEnqueue p q f s) j) = g (portOf s j) := by
  simp only [trunkEnqueue]
  split
  · rfl
  · split
    · rw [portOf_schedCount]
    · exact modPort_field g (fun t => h t _) p j s

theorem mgmtSend_field {β : Type} (g : Port → β) (h : ∀ t l, g { t with queues := l } = g t) (ps : List Nat) (f : OutFrame)
    (len : Nat) (s : State) (j : Nat) : g (portOf (mgmtSend ps f len s) j) = g (portOf s j) :=
  forEach_keeps (fun s => g (portOf s j)) _ (fun _ s => trunkEnqueue_field g h _ _ _ s j) ps s

theorem portOf_fabRelay (x : FabricPayload) (s : State) (j : Nat) : portOf (fabRelay x s) j = portOf s j := by
  have htrunk : OnlyWrites [.emit, .fab] s (fabRelay x s) := by simp [onlyWrites_refl]
  unfold portOf
  rw [htrunk .trunk (by decide)]

/-- R153 at a node that is not joined: the end of a partner without beacons may be told, and no more. -/
theorem ttGone_field {β : Type} (g : Port → β) (h : ∀ t l, g { t with queues := l } = g t) {d : Nat} {before s : State}
    (hj : joined s = false) (j : Nat) : g (portOf (ttGone d before s) j) = g (portOf s j) := by
  have hina : ∀ t, OnlyWrites [.emit, .trunk, .sched, .fab] s t → t.ina = s.ina := fun t ht => ht .ina (by decide)
  have htold : joined (ttTell d s) = false := by
    unfold joined
    rw [hina _ (by simp [ttTell, ttSend, onlyWrites_refl])]
    exact hj
  unfold ttGone
  split
  · rw [leaveBackbone, inBackbone_unjoined htold]
    simp only [Bool.false_and, Bool.false_eq_true, if_false]
    rw [ttTell, portOf_fabRelay, ttSend, mgmtSend_field g h]
  · rfl

/-- R58, R67: a link that goes down at a node that is not joined. -/
theorem linkDown_unjoined {p : Nat} {s : State} (hs : Sound s) (hp : p < 4) (cause : Nat)
    (hheld : linkHeld (portOf s p) = true) (hj : joined s = false) :
    (portOf (linkDown p cause s) p).st = .detect ∧ (portOf (linkDown p cause s) p).delay.valid = false ∧
    (portOf (linkDown p cause s) p).ctr = ctrInc (portOf s p).ctr 4 ∧
    (portOf (linkDown p cause s) p).downCause =
      BitVec.ofNat 4 (if cause = 1 && (portOf s p).passive then 5 else cause) := by
  have hina : OnlyWrites [.emit, .cmd, .trunk, .flow, .vec] s (portToDetect p cause s) := by simp [onlyWrites_refl]
  have hj' : joined (portToDetect p cause s) = false := by
    unfold joined
    rw [hina .ina (by decide)]
    exact hj
  have hfield : ∀ {β : Type} (g : Port → β), (∀ t l, g { t with queues := l } = g t) →
      g (portOf (linkDown p cause s) p) = g (portOf (portToDetect p cause s) p) := fun g hg => by
    unfold linkDown portLost
    rw [checkBroken_unjoined hj', ttGone_field g hg hj']
  obtain ⟨hst, hvalid, hctr, hcause⟩ := portToDetect_linked hs hp cause hheld
  exact ⟨(hfield (·.st) fun _ _ => rfl).trans hst, (hfield (·.delay.valid) fun _ _ => rfl).trans hvalid,
    (hfield (·.ctr) fun _ _ => rfl).trans hctr, (hfield (·.downCause) fun _ _ => rfl).trans hcause⟩

end Sys2Proof.Machine
end

section
/-! PROOFS. Trunk port events (spec/02): what the command of each event makes of the port. -/

namespace Sys2Proof.Machine

section
variable {p : Nat} {s : State}

/-! ## Loss of signal (R58) -/

theorem portLoss_begins (hup : portUp s p = true) (hline : onNdoelle (portOf s p) = true)
    (hloss : (portOf s p).lossClk = none) : portLoss p s = modPort p (fun t => { t with lossClk := some s.clk }) s := by
  simp [portLoss, hup, hline, hloss]

theorem lossFor_eq {c : Nat} (h : (portOf s p).lossClk = some c) : lossFor p s = some (s.clk - c) := by
  simp [lossFor, h]

theorem portResume_long {c : Nat} (hup : portUp s p = true) (hloss : (portOf s p).lossClk = some c)
    (hlong : c + usT 100 < s.clk) :
    portResume p s =
      modPort p (fun t => { t with st := .resume, rideCounted := true, ctr := ctrInc t.ctr 3, fifo := [] }) s := by
  have hover : usT 100 < s.clk - c := Nat.lt_sub_of_add_lt (by rwa [Nat.add_comm])
  simp [portResume, lossFor_eq hloss, hup, hover]

section
variable {c : Nat} (hloss : (portOf s p).lossClk = some c)
include hloss

theorem portRelock_up (hst : (portOf s p).st = .up) (hc : c ≤ s.clk) (hshort : s.clk < c + macroT s) :
    portRelock p s = modPort p (fun t => { t with
      lossClk := none, ctr := ctrInc t.ctr (if s.clk ≤ c + usT 100 then 2 else 3) }) s := by
  have hdown : ¬ macroT s ≤ s.clk - c := by omega
  have hride : s.clk - c ≤ usT 100 ↔ s.clk ≤ c + usT 100 := by omega
  simp only [portRelock, lossFor_eq hloss, if_neg hdown, hst, hride]

theorem portRelock_resume (hst : (portOf s p).st = .resume) (hc : c ≤ s.clk) (hshort : s.clk < c + macroT s) :
    portRelock p s = modPort p (fun t => { t with st := .up, lossClk := none, rideCounted := false }) s := by
  have hdown : ¬ macroT s ≤ s.clk - c := by omega
  simp only [portRelock, lossFor_eq hloss, if_neg hdown, hst]

theorem portRelock_down (hlong : c + macroT s ≤ s.clk) : portRelock p s = linkDown p 1 s := by
  have hdown : macroT s ≤ s.clk - c := by omega
  simp only [portRelock, lossFor_eq hloss, if_pos hdown]

theorem lossOver_of_long (hlong : c + macroT s ≤ s.clk) : lossOver p s = true := by
  have hdown : macroT s ≤ s.clk - c := by omega
  simp only [lossOver, lossFor_eq hloss, hdown, decide_true]

end

/-! ## Energy, training and qualification (R48, R53, R54, R67) -/

section
variable (hst : (portOf s p).st = .detect)
include hst

theorem portEnergy_ndoelle (hpol : policyOf s p = 1 ∧ negotiatesNext p s = false ∨ policyOf s p = 2) :
    portEnergy p s = portToTrain p .ndoelle s := by
  rcases hpol with ⟨hpol, hnext⟩ | hpol
  · simp [portEnergy, hst, hpol, hnext]
  · simp [portEnergy, hst, hpol]

theorem portEnergy_negotiate (hpol : policyOf s p = 1 ∧ negotiatesNext p s = true ∨ policyOf s p = 3) :
    portEnergy p s = portToNegotiate p s := by
  rcases hpol with ⟨hpol, hnext⟩ | hpol
  · simp [portEnergy, hst, hpol, hnext]
  · simp [portEnergy, hst, hpol]

theorem portEnergy_t1 (hpol : policyOf s p = 4 ∨ policyOf s p = 5) :
    portEnergy p s = portToTrain p (if policyOf s p = 4 then .t1000 else .t100) s := by
  rcases hpol with hpol | hpol <;> simp [portEnergy, hst, hpol]

end

theorem portQualify_train (hst : (portOf s p).st = .train) (hline : onNdoelle (portOf s p) = true) :
    portQualify p s = modPort p (fun t => { portClear .qualify t with
      qualClk := s.clk, partner := none, partnerClk := none, deltas := [] }) s := by
  simp [portQualify, hst, hline]

theorem portQualified_iff (hst : (portOf s p).st = .qualify) :
    portQualified p s = true ↔ (portOf s p).qualClk + msT 16 ≤ s.clk ∧ (portOf s p).violations ≤ 16 := by
  simp [portQualified, hst]

theorem portViolations_fails (hs : Sound s) (hp : p < 4) {k : Nat} {lost : Bool} (hst : (portOf s p).st = .qualify)
    (h : lost = true ∨ 16 < (portOf s p).violations + k) :
    portViolations p k lost s = portToTrain p .ndoelle (portTrainFail p (modPort p (fun t => { t with
      ctr := updAt t.ctr 0 (satAdd k), violations := t.violations + k }) s)) := by
  simp only [portViolations, hst, portOf_modPort_self _ _ _ (hs.port_lt hp)]
  refine if_pos ?_
  simpa using h

theorem portViolations_counts (hs : Sound s) (hp : p < 4) {k : Nat} {lost : Bool}
    (h : (portOf s p).st = .qualify ∧ lost = false ∧ (portOf s p).violations + k ≤ 16 ∨ linkHeld (portOf s p) = true) :
    portViolations p k lost s = modPort p (fun t => { t with
      ctr := updAt t.ctr 0 (satAdd k), violations := t.violations + k }) s := by
  rw [linkHeld_iff] at h
  rcases h with ⟨hst, hlost, hfew⟩ | hst | hst
  · simp only [portViolations, hst, portOf_modPort_self _ _ _ (hs.port_lt hp)]
    refine if_neg ?_
    simpa [hlost] using hfew
  · simp only [portViolations, hst]
  · simp only [portViolations, hst]

/-! ## Negotiation (R44, R50, R67) -/

theorem commonMode_preferred {a b : Bool} (hab : a = true ∨ b = true) (ht1 : onT1 (portOf s (siblingPort p)) = false)
    (hheld : ndoelleHeld (portOf s (siblingPort p)) = false) : commonMode p a b s = if a then .t1000 else .t100 := by
  unfold onT1 at ht1
  unfold commonMode siblingMode
  cases hm : (portOf s (siblingPort p)).mode <;> simp only [hm, reduceCtorEq] at ht1 ⊢
  all_goals cases a <;> simp_all

theorem commonMode_sibling {a b : Bool}
    (h : siblingMode s p = .t1000 ∧ a = true ∨ siblingMode s p = .t100 ∧ b = true) :
    commonMode p a b s = siblingMode s p := by
  rcases h with ⟨hm, hoffer⟩ | ⟨hm, hoffer⟩ <;> simp [commonMode, hm, hoffer]

theorem portNegotiated_common {a b master : Bool} {m : Mode} (hst : (portOf s p).st = .negotiate)
    (hm : commonMode p a b s = m) (hnone : m ≠ .none) :
    portNegotiated p a b master s =
      modPort p (fun t => { t with t1Master := master }) (portToTrain p m (siblingFallback (siblingPort p) s)) := by
  cases m <;> simp [portNegotiated, hst, hm] at hnone ⊢

theorem portOf_siblingFallback_ne {q : Nat} (hq : p ≠ q) : portOf (siblingFallback p s) q = portOf s q := by
  unfold siblingFallback
  split
  · split
    · exact portOf_portFallback_ne hq
    · rfl
  · rfl

theorem siblingFallback_training (hst : (portOf s p).st = .train) (hline : onNdoelle (portOf s p) = true) :
    siblingFallback p s = portFallback p s := by
  simp [siblingFallback, hst, hline]

end

section
variable {p : Fin 4} {s : State} {a b master : Bool} {m : Mode}

/-- R50, R67: a port that has resolved a mode trains in it. -/
theorem portNegotiated_port (hs : Sound s) (hst : (portOf s p).st = .negotiate) (hm : commonMode p a b s = m)
    (hnone : m ≠ .none) :
    (portOf (portNegotiated p a b master s) p).st = .train ∧ (portOf (portNegotiated p a b master s) p).t1Master = master ∧
    (portOf (portNegotiated p a b master s) p).mode = m := by
  have hs1 : Sound (siblingFallback (siblingPort p) s) :=
    sound_of_kept (fun K => siblingFallback_kept K (siblingPort p) s) hs
  have hs2 : Sound (portToTrain p m (siblingFallback (siblingPort p) s)) :=
    sound_of_kept (fun K => portToTrain_kept K p m _) hs1
  rw [portNegotiated_common hst hm hnone, portOf_modPort_self _ _ _ (hs2.port_lt p.isLt),
    portOf_portToTrain_self hs1 p.isLt]
  exact ⟨rfl, rfl, rfl⟩

/-- R44: the port of the direction that still trains on the Ndoelle line falls back. -/
theorem portNegotiated_sibling (hs : Sound s) (hst : (portOf s p).st = .negotiate) (hm : commonMode p a b s = m)
    (hnone : m ≠ .none) (hline : onNdoelle (portOf s (siblingPort p)) = true)
    (hheld : ndoelleHeld (portOf s (siblingPort p)) = false) :
    (portOf (portNegotiated p a b master s) (siblingPort p)).st = .detect ∧
    (portOf (portNegotiated p a b master s) (siblingPort p)).clause98 = true := by
  have htrain := st_of_not_ndoelleHeld hline hheld
  have hlink : linkHeld (portOf s (siblingPort p)) = false := by simp [linkHeld, htrain]
  have hne : (p : Nat) ≠ siblingPort p := (siblingPort_ne p).symm
  obtain ⟨hdetect, hclause, -⟩ := portFallback_port hs (siblingPort_lt p) hlink
  rw [portNegotiated_common hst hm hnone, portOf_modPort_ne _ _ _ _ hne, portOf_portToTrain_ne hne,
    siblingFallback_training htrain hline]
  exact ⟨hdetect, hclause⟩

end

section
variable {p : Nat} {s : State}

/-! ## Failed training (R48, R67) -/

theorem portTrainingFailure_port (hs : Sound s) (hp : p < 4) {answered : Bool} (hst : (portOf s p).st = .train)
    (hfalls : fallsBack p answered s = false) :
    (portOf (portTrainingFailure p answered s) p).st = .detect ∧
    (portOf (portTrainingFailure p answered s) p).clause98 = false ∧
    (portOf (portTrainingFailure p answered s) p).ctr = ctrInc (portOf s p).ctr 6 := by
  have hs' : Sound (portTrainFail p s) := sound_of_kept (fun K => portTrainFail_kept K p s) hs
  have hport := portOf_portTrainFail_self hs hp
  have hlink : linkHeld (portOf (portTrainFail p s) p) = false := by rw [hport]; simp [linkHeld, hst]
  obtain ⟨hdetect, hclause, hctr⟩ := portToDetect_unlinked hs' hp 0 hlink
  simp only [portTrainingFailure, hst, hfalls, Bool.false_eq_true, if_false]
  exact ⟨hdetect, hclause, by rw [hctr, hport]⟩

theorem portTrainingFailure_fallsBack (hs : Sound s) (hp : p < 4) {answered : Bool} (hst : (portOf s p).st = .train)
    (hfalls : fallsBack p answered s = true) :
    (portOf (portTrainingFailure p answered s) p).st = .detect ∧
    (portOf (portTrainingFailure p answered s) p).clause98 = true ∧
    (portOf (portTrainingFailure p answered s) p).ctr = ctrInc (portOf s p).ctr 6 := by
  have hs' : Sound (portTrainFail p s) := sound_of_kept (fun K => portTrainFail_kept K p s) hs
  have hport := portOf_portTrainFail_self hs hp
  have hlink : linkHeld (portOf (portTrainFail p s) p) = false := by rw [hport]; simp [linkHeld, hst]
  obtain ⟨hdetect, hclause, hctr⟩ := portFallback_port hs' hp hlink
  simp only [portTrainingFailure, hst, hfalls, if_true]
  exact ⟨hdetect, hclause, by rw [hctr, hport]⟩

theorem portOf_portTrainingFailure_ne {q : Nat} (hq : p ≠ q) (answered : Bool) :
    portOf (portTrainingFailure p answered s) q = portOf s q := by
  unfold portTrainingFailure
  split
  · split
    · rw [portOf_portFallback_ne hq, portOf_portTrainFail_ne hq]
    · rw [portOf_portToDetect_ne hq, portOf_portTrainFail_ne hq]
  · rfl

/-! ## Roles of a fixed T1 policy (R63) -/

theorem portSwap_due (hwaits : (portOf s p).st = .train ∧ ((portOf s p).trainPol = 4 ∨ (portOf s p).trainPol = 5) ∨
      (portOf s p).st = .detect ∧ (policyOf s p = 4 ∨ policyOf s p = 5))
    (hdue : (portOf s p).swapClk + msT 500 ≤ s.clk) :
    portSwap p s = modPort p (fun t => { t with t1Master := !t.t1Master, swapClk := s.clk }) s := by
  rcases hwaits with ⟨hst, hpol⟩ | ⟨hst, hpol⟩ <;> simp [portSwap, fixedPolicy, hst, hpol, hdue]

theorem portSwap_not_due (h : s.clk < (portOf s p).swapClk + msT 500) : portSwap p s = s := by
  simp [portSwap, Nat.not_le.mpr h]

end

end Sys2Proof.Machine
end

section
/-! PROOFS. The hop-delay exchange (spec/02, spec/11): what leaves with a request, what answers it, and what a response and a
follow-up make of the estimate. -/

namespace Sys2Proof.Machine

/-! ## What is sent -/

theorem emit_sent {s : State} (h : s.sys.extest = false) (e : Emission) : (emit e s).emit = s.emit ++ [e] := by
  simp [emit, h]

theorem emits_sent {s : State} (h : s.sys.extest = false) (es : List Emission) : (emits es s).emit = s.emit ++ es := by
  induction es generalizing s with
  | nil => exact (List.append_nil _).symm
  | cons e es ih =>
    have hkeep : (emit e s).sys.extest = false := by simpa using h
    calc (emits (e :: es) s).emit = (emits es (emit e s)).emit := rfl
      _ = s.emit ++ (e :: es) := by rw [ih hkeep, emit_sent h, List.append_assoc]; rfl

/-! ## Ports and lanes -/

theorem pdelayPort_t1 {p : Fin 4} {s : State} (hup : portUp s p = true) (ht1 : onT1 (portOf s p) = true) :
    pdelayPort (.trunk p) s = some p := by
  simp [pdelayPort, hup, ht1]

theorem laneOf_modLane_self {s : State} (hs : Sound s) (k : Fin 4) (l : Fin 2) (hl : (fabOf s k).delays.length = 2)
    (f : DelayEst → DelayEst) : laneOf (modLane k l f s) k l = f (laneOf s k l) := by
  have hk : (k : Nat) < s.fab.links.length := by rw [hs.links]; exact k.isLt
  unfold laneOf modLane
  rw [fabOf_modFab_self _ _ _ hk]
  exact getD_updAt_self _ _ _ _ (by rw [hl]; exact l.isLt)

/-! ## Requests (R77, R78, R160, R503) -/

theorem delayRequestSend_trunk {p : Fin 4} {tx : Int} {s : State} (hup : portUp s p = true)
    (hline : onNdoelle (portOf s p) = true) (hclear : markerClear p (tx - s.now).toNat 1 s = true) :
    delayRequestSend (.trunk p) true tx s =
      emit (.delay (.trunk p) (.marker (marker 0 (markerSeq (portOf (modPort p (fun t =>
        { t with delay := delayAsk (pinTx t tx) t.delay }) s) p).delay) 0)))
        (modPort p (fun t => { t with delay := delayAsk (pinTx t tx) t.delay }) s) := by
  simp only [delayRequestSend, hup, hline, hclear, Bool.not_true, Bool.and_self, Bool.false_eq_true, if_false, if_true]

theorem delayRequestSend_waits {p : Fin 4} {idle : Bool} {tx : Int} {s : State}
    (h : idle = false ∨ markerClear p (tx - s.now).toNat 1 s = false) : delayRequestSend (.trunk p) idle tx s = s := by
  rcases h with h | h
  · simp [delayRequestSend, h]
  · simp only [delayRequestSend, h, Bool.and_false, Bool.false_eq_true, if_false, ite_self]

theorem delayRequestSend_lane {k : Fin 4} {l : Fin 2} {tx : Int} {s : State} (hruns : laneRuns s k l = true) :
    delayRequestSend (.fabric k l) true tx s =
      emit (.delay (.fabric k l) (.marker (marker 0 (markerSeq (laneOf (modLane k l (delayAsk tx) s) k l)) 0)))
        (modLane k l (delayAsk tx) s) := by
  simp [delayRequestSend, hruns]

/-! ## Answers (R78, R79, R82) -/

section
variable {p : DelayPort} {m : Marker} {rx tx : Int} {s : State} (hport : markerPort p s = true) (hok : markerOk m = true)
include hport hok

/-- R78: a request is answered with a response and a follow-up of the residence time. -/
theorem delayMarkerIn_request (htype : m.type = 0) : delayMarkerIn p m rx tx s =
    emits [.delay p (.marker (marker 1 m.seq 0)), .delay p (.marker (marker 2 m.seq (BitVec.ofInt 24
      (((delayPins p rx (max tx ((s.now : Int) + delayWait p tx s)) s).2 -
        (delayPins p rx (max tx ((s.now : Int) + delayWait p tx s)) s).1) / 4096))))] s := by
  simp [delayMarkerIn, hport, hok, htype]

end

/-- R79: a response to the request in hand gives t4. -/
theorem delayMarkerIn_response {p : Fin 4} {m : Marker} {rx tx : Int} {s : State} (hport : markerPort (.trunk p) s = true)
    (hok : markerOk m = true) (htype : m.type = 1) (hseq : m.seq = markerSeq (portOf s p).delay)
    (hasked : (portOf s p).delay.t1.isSome = true) :
    delayMarkerIn (.trunk p) m rx tx s =
      modPort p (fun t => { t with delay := { t.delay with t4 := some (pinRx (portOf s p) rx) } }) s := by
  have hnot : m.type ≠ 0 := by rw [htype]; decide
  simp only [delayMarkerIn, hport, hok, Bool.not_true, Bool.or_self, Bool.false_eq_true, if_false, if_neg hnot,
    if_pos htype]
  refine modPort_congr ?_
  simp [delayResponse, delayPins, hseq, hasked]

theorem pdelayIn_request {p : Fin 4} {q : BitVec 16} {rx tx : Int} {s : State} (h : pdelayPort (.trunk p) s = some p) :
    pdelayIn (.trunk p) (.pdelayReq q) rx tx s =
      emits [.delay (.trunk p) (.pdelayResp q (pinRx (portOf s p) rx)),
        .delay (.trunk p) (.pdelayFollowUp q (pinTx (portOf s p) tx))] s := by
  simp [pdelayIn, h, delayPins]

theorem pdelayIn_response {p : Fin 4} {t2 rx tx : Int} {s : State} (h : pdelayPort (.trunk p) s = some p)
    (hasked : (portOf s p).delay.t1.isSome = true) :
    pdelayIn (.trunk p) (.pdelayResp (portOf s p).delay.reqSeq t2) rx tx s = modPort p (fun t =>
      { t with delay := { t.delay with t2 := some t2, t4 := some (pinRx (portOf s p) rx) } }) s := by
  simp only [pdelayIn, h]
  refine modPort_congr ?_
  simp [pdelayResponse, delayPins, hasked]

/-! ## The estimate (R80, R81) -/

/-- R81: a sample within the window moves the estimate by a sixteenth of what it is off. -/
theorem markerComplete_near {m : Marker} {d : DelayEst} {a b : Int} (hseq : m.seq = markerSeq d)
    (hturn : m.value.toNat ≤ 128000) (ht1 : d.t1 = some a) (ht4 : d.t4 = some b) (hvalid : d.valid = true)
    (hnear : ((b - a - (m.value.toNat : Int) * 4096) / 2 - d.est).natAbs ≤ nsT 8) :
    markerComplete m d = ({ d with
      t1 := none, t2 := none, t4 := none, rejects := 0, accSeq := markerSeq d
      est := d.est + ((b - a - (m.value.toNat : Int) * 4096) / 2 - d.est) / 16 }, false) := by
  have hin : ¬ (m.seq ≠ markerSeq d ∨ 128000 < m.value.toNat) :=
    not_or.mpr ⟨not_not.mpr hseq, Nat.not_lt.mpr hturn⟩
  simp only [markerComplete, Bool.or_eq_true, decide_eq_true_eq, if_neg hin, delayComplete, ht1, ht4, delayFilter, hvalid,
    Bool.not_true, Bool.false_eq_true, if_false, if_pos hnear]
  rfl

/-- R80: a follow-up of another sequence, or one after more than 8 µs, completes nothing. -/
theorem markerComplete_ignored {m : Marker} {d : DelayEst} (h : m.seq ≠ markerSeq d ∨ 128000 < m.value.toNat) :
    markerComplete m d = (d, false) := by
  simp only [markerComplete, Bool.or_eq_true, decide_eq_true_eq, if_pos h]

theorem delayFollowIn_marker_trunk {p : Fin 4} {m : Marker} {s : State} (hport : markerPort (.trunk p) s = true)
    (hok : markerOk m = true) (htype : m.type = 2) :
    delayFollowIn (.trunk p) (.marker m) s = delayTrunkDone p (markerComplete m (portOf s p).delay) s := by
  simp [delayFollowIn, hport, hok, htype]

theorem delayFollowIn_marker_lane {k : Fin 4} {l : Fin 2} {m : Marker} {s : State}
    (hport : markerPort (.fabric k l) s = true) (hok : markerOk m = true) (htype : m.type = 2) :
    delayFollowIn (.fabric k l) (.marker m) s = delayLaneDone k l (markerComplete m (laneOf s k l)) s := by
  simp [delayFollowIn, hport, hok, htype]

theorem delayFollowIn_pdelay {p : Fin 4} {q : BitVec 16} {t3 : Int} {s : State} (h : pdelayPort (.trunk p) s = some p) :
    delayFollowIn (.trunk p) (.pdelayFollowUp q t3) s = delayTrunkDone p (pdelayComplete q t3 (portOf s p).delay) s := by
  simp only [delayFollowIn, h]

/-- What a sample leaves in its port. -/
theorem delayTrunkDone_port {p : Nat} {s : State} (hs : Sound s) (hp : p < 4) (x : DelayEst × Bool) :
    (portOf (delayTrunkDone p x s) p).delay = x.1 ∧
    (portOf (delayTrunkDone p x s) p).ctr = if x.2 then ctrInc (portOf s p).ctr 7 else (portOf s p).ctr := by
  simp only [delayTrunkDone]
  rw [portOf_modPort_self _ _ _ (hs.port_lt hp)]
  exact ⟨rfl, rfl⟩

end Sys2Proof.Machine
end

section
/-! PROOFS. The trunk apart from its ports (spec/02): the policies, the bypass switches, the staggered sequence and what the
node announces. Most of what happens on the trunk happens in its ports and leaves all that alone. -/

namespace Sys2Proof.Machine

/-- A trunk without its ports. -/
def portless (t : Trunk) : Trunk := { t with ports := [] }

/-- What a state holds of the trunk apart from the ports. -/
def beside (s : State) : Trunk := portless s.trunk

@[simp] theorem beside_mk (p n c fr e sys cmd trunk ina sched time flow twin lsk can mvb swc fab bridge pwr rep shelf shadows
    s1 s2 s3) :
    beside (State.mk p n c fr e sys cmd trunk ina sched time flow twin lsk can mvb swc fab bridge pwr rep shelf shadows
      s1 s2 s3) = portless trunk := rfl

@[simp] theorem portless_fold (s : State) : portless s.trunk = beside s := rfl

@[simp] theorem beside_ite (c : Prop) [Decidable c] (a b : State) :
    beside (if c then a else b) = if c then beside a else beside b := by split <;> rfl

theorem beside_of_writes {w : List Block} {s t : State} (h : OnlyWrites w s t) (hw : Block.trunk ∉ w) :
    beside t = beside s := congrArg portless (h .trunk hw)

@[simp] theorem forEach_beside {α : Type} (l : List α) (f : α → State → State) (s : State)
    (h : ∀ x s, beside (f x s) = beside s) : beside (forEach l f s) = beside s := forEach_keeps beside f h l s

/-! ## Shared operations -/

@[simp] theorem emit_beside (e : Emission) (s : State) : beside (emit e s) = beside s :=
  congrArg portless (by simp)

@[simp] theorem raise_beside (code : Nat) (param : List Byte) (s : State) : beside (raise code param s) = beside s :=
  congrArg portless (by simp)

@[simp] theorem modIna_beside (f : Ina → Ina) (s : State) : beside (modIna f s) = beside s := rfl

@[simp] theorem modFlow_beside (f : Flow → Flow) (s : State) : beside (modFlow f s) = beside s := rfl

@[simp] theorem modPort_beside (p : Nat) (f : Port → Port) (s : State) : beside (modPort p f s) = beside s := rfl

@[simp] theorem schedCount_beside (i : Nat) (s : State) : beside (schedCount i s) = beside s := rfl

@[simp] theorem finishQueued_beside (p : Queued → Bool) (status : Nat) (s : State) :
    beside (finishQueued p status s) = beside s := by
  simp [finishQueued, completeEvent]

/-- A change of the trunk that does not read its ports. -/
theorem modTrunk_beside (f : Trunk → Trunk) (s : State) (h : ∀ t, portless (f t) = f (portless t)) :
    beside (modTrunk f s) = f (beside s) := h s.trunk

/-! ## Ports and frames -/

@[simp] theorem trunkLink_beside (p : Nat) (s : State) : beside (trunkLink p s) = beside s := raise_beside _ _ _

@[simp] theorem roleForPolicy_beside (p : Nat) (s : State) : beside (roleForPolicy p s) = beside s := by
  unfold roleForPolicy portRole; split <;> rfl

@[simp] theorem portToBypassed_beside (p : Nat) (s : State) : beside (portToBypassed p s) = beside s := by
  unfold portToBypassed; dsimp only; split <;> simp

@[simp] theorem portAttach_beside (p : Nat) (s : State) : beside (portAttach p s) = beside s := by
  simp [portAttach]

@[simp] theorem portBusy_beside (p n : Nat) (s : State) : beside (portBusy p n s) = beside s := rfl

@[simp] theorem trunkOut_beside (p : Nat) (f : OutFrame) (at_ : Option Int) (s : State) :
    beside (trunkOut p f at_ s) = beside s := emit_beside _ _

@[simp] theorem departing_beside (p : Nat) (f : QFrame) (s : State) : beside (departing p f s).2 = beside s := by
  unfold departing
  split
  · rfl
  · split
    · rfl
    · dsimp only; split <;> simp [countedAcross, flowLeft, protect]
  · rfl

@[simp] theorem startFrame_beside (p q : Nat) (f : QFrame) (s : State) : beside (startFrame p q f s) = beside s := by
  simp [startFrame]

@[simp] theorem enqueueFirst_beside (p : Nat) (f : QFrame) (s : State) : beside (enqueueFirst p f s) = beside s := by
  simp [enqueueFirst]

@[simp] theorem sendUrgent_beside (p : Nat) (f : OutFrame) (s : State) : beside (sendUrgent p f s) = beside s := by
  simp [sendUrgent]

@[simp] theorem scheduleRemoval_beside (b : BreakBody) (s : State) : beside (scheduleRemoval b s) = beside s := by
  unfold scheduleRemoval inaCount; split <;> simp

@[simp] theorem breakNow_beside (d : Nat) (cause : Byte) (tDown : Nat) (lost : BitVec 64) (s : State) :
    beside (breakNow d cause tDown lost s) = beside s := by
  unfold breakNow; split <;> simp

@[simp] theorem checkBroken_beside (d : Nat) (s : State) : beside (checkBroken d s) = beside s := by
  simp [checkBroken]

/-! ## The bypass switches (R70–R76) -/

/-- A trunk whose switch of a line has been commanded at a moment. -/
def commanded (line : Line) (close : Bool) (clk : Nat) (t : Trunk) : Trunk :=
  let b : Bypass := { closed := close, command := some close, retried := false, cmdClk := clk }
  match line with
  | .a => { t with lineA := b }
  | .b => { t with lineB := b }

@[simp] theorem switchCommand_beside (line : Line) (close : Bool) (s : State) :
    beside (switchCommand line close s) = commanded line close s.clk (beside s) := by
  unfold switchCommand
  rw [emit_beside]
  cases line <;> rfl

@[simp] theorem closeLine_beside (line : Line) (s : State) :
    beside (closeLine line s) = commanded line true s.clk (beside s) := by
  simp only [closeLine]
  rw [forEach_beside _ _ _ fun p s => ?_, switchCommand_beside]
  split <;> simp [portCount]

@[simp] theorem openLine_beside (line : Line) (s : State) :
    beside (openLine line s) = commanded line false s.clk (beside s) := by
  unfold openLine
  rw [forEach_beside _ _ _ fun p s => ?_, switchCommand_beside]
  split <;> simp

theorem switches_of_beside_eq {s : State} {t : Trunk} (h : beside s = t) :
    s.trunk.lineA = t.lineA ∧ s.trunk.lineB = t.lineB ∧ s.trunk.seq = t.seq ∧ s.trunk.byCommand = t.byCommand :=
  h ▸ ⟨rfl, rfl, rfl, rfl⟩

/-- R70: both switches stand closed, and no sequence is in progress. -/
theorem emergencyClose_switches (s : State) :
    (emergencyClose s).trunk.lineA.closed = true ∧ (emergencyClose s).trunk.lineB.closed = true ∧
    (emergencyClose s).trunk.seq = none ∧ (emergencyClose s).trunk.byCommand = false := by
  have h : beside (emergencyClose s) = { commanded .b true (closeLine .a s).clk (commanded .a true s.clk (beside s)) with
      seq := none, byCommand := false } := by
    rw [emergencyClose, modTrunk_beside, checkBroken_beside, checkBroken_beside, closeBoth, finishQueued_beside,
      modTrunk_beside, closeLine_beside, closeLine_beside]
    · exact fun _ => rfl
    · exact fun _ => rfl
  obtain ⟨hlineA, hlineB, hseq, hby⟩ := switches_of_beside_eq h
  rw [hlineA, hlineB, hseq, hby]
  exact ⟨rfl, rfl, rfl, rfl⟩

/-! ## The staggered sequence (R71, R72, R74, R96) -/

/-- How a trunk's switches stand, and whether by command. -/
def standing (t : Trunk) : Bypass × Bypass × Bool := (t.lineA, t.lineB, t.byCommand)

/-- How the switches stand, and whether by command. -/
def switches (s : State) : Bypass × Bypass × Bool := standing s.trunk

theorem switches_of_beside {s t : State} (h : beside t = beside s) : switches t = switches s :=
  show standing (beside t) = standing (beside s) from congrArg standing h

theorem passiveBeacon_switches (p : Nat) (s : State) : switches (passiveBeacon p s) = switches s := by
  unfold passiveBeacon
  split
  · exact switches_of_beside (s := s) (t := beaconOut p s) (by simp [beaconOut])
  · rfl

theorem startSequence_switches (passive : Bool) (s : State) : switches (startSequence passive s) = switches s := by
  have htold : ∀ s, switches (passiveBeacons s) = switches s := fun s =>
    forEach_keeps switches _ passiveBeacon_switches _ s
  unfold startSequence goPassive
  cases passive
  · rfl
  · simp only [if_true]
    split
    · exact htold _
    · exact htold _

/-- R74: a sequence that is complete leaves the switches as they stand, now by command; what waits begins. -/
theorem finishSequence_switches (passive : Bool) (s : State) :
    switches (finishSequence passive s) = (s.trunk.lineA, s.trunk.lineB, passive) := by
  have hend : switches (sequenceEnd passive 0 (modTrunk (fun t => { t with byCommand := passive }) s)) =
      (s.trunk.lineA, s.trunk.lineB, passive) := switches_of_beside
    (s := modTrunk (fun t => { t with seq := none }) (modTrunk (fun t => { t with byCommand := passive }) s))
    (finishQueued_beside _ _ _)
  unfold finishSequence nextSequence
  split
  · rw [startSequence_switches, hend]
  · exact hend

/-! ## A switch looked at (R76) -/

section
variable {s : State} {c : Bool}

theorem senseCheck_a_found (hcmd : s.trunk.lineA.command = some c) (hdue : s.trunk.lineA.cmdClk + msT 4 ≤ s.clk) :
    senseCheck .a c s = modTrunk (fun t => { t with lineA := { t.lineA with closed := c, command := none } }) s := by
  simp only [senseCheck, hcmd, if_neg (Nat.not_lt.mpr hdue), if_true]
  rfl

theorem senseCheck_b_found (hcmd : s.trunk.lineB.command = some c) (hdue : s.trunk.lineB.cmdClk + msT 4 ≤ s.clk) :
    senseCheck .b c s = modTrunk (fun t => { t with lineB := { t.lineB with closed := c, command := none } }) s := by
  simp only [senseCheck, hcmd, if_neg (Nat.not_lt.mpr hdue), if_true]
  rfl

/-- R76: a switch found elsewhere is driven once more. -/
theorem senseCheck_a_again {x : Bool} (hcmd : s.trunk.lineA.command = some c) (hx : x ≠ c)
    (hfirst : s.trunk.lineA.retried = false) (hdue : s.trunk.lineA.cmdClk + msT 4 ≤ s.clk) :
    (senseCheck .a x s).trunk.lineA = { closed := x, command := some c, retried := true, cmdClk := s.clk } := by
  simp [senseCheck, hcmd, Nat.not_lt.mpr hdue, hx, hfirst, modTrunk]

end

end Sys2Proof.Machine
end

section
/-! PROOFS. Directions on another backbone (spec/02, spec/05, spec/06): the wire train bus and its islands, topology discovery and
the trunk time domain. -/

namespace Sys2Proof.Machine

/-! ## Islands of the wire train bus (R65, R66, R146–R149) -/

/-- What a port that enters Up leaves of inauguration: all but the moment from which a start waits. -/
theorem portToUp_inaField {β : Type} (g : Ina → β) (h : ∀ n c, g { n with quietClk := c } = g n) (p : Nat) (u : BitVec 64)
    (s : State) : g (portToUp p u s).ina = g s.ina := by
  unfold portToUp waitBegins
  simp [h, trunkLink]

theorem wtbPortUp_inaField {β : Type} (g : Ina → β) (h : ∀ n c, g { n with quietClk := c } = g n) (p : Nat) (s : State) :
    g (wtbPortUp p s).ina = g s.ina := by
  unfold wtbPortUp
  dsimp only
  split
  · rfl
  · exact portToUp_inaField g h _ _ _
  · exact portToUp_inaField g h _ _ _
  · rfl

theorem closeLine_ina (line : Line) (s : State) : (closeLine line s).ina = s.ina := by
  have hwrites : OnlyWrites [.emit, .cmd, .trunk, .flow, .vec] s (closeLine line s) := by simp [onlyWrites_refl]
  exact hwrites .ina (by decide)

theorem openLine_ina (line : Line) (s : State) : (openLine line s).ina = s.ina := by
  have hwrites : OnlyWrites [.emit, .cmd, .trunk, .flow, .vec] s (openLine line s) := by simp [onlyWrites_refl]
  exact hwrites .ina (by decide)

/-- R65, R66: what neither a line's switch nor a port that takes its place on the bus changes, the node's place on the bus
changes as far as it is noted. -/
theorem wtbPorts_keeps {β : Type} (g : State → β) (hclose : ∀ l s, g (closeLine l s) = g s)
    (hopen : ∀ l s, g (openLine l s) = g s) (hup : ∀ p s, g (wtbPortUp p s) = g s)
    (hport : ∀ p f s, g (modPort p f s) = g s) (d : Fin 2) (m : Bool) (s : State) :
    g (wtbPorts d m s) = g (modTrunk (fun t => { t with
      wtbEnd := !s.trunk.policy.all (fun x => x == 6), wtbMaster := m
      wtbTerm := if s.trunk.policy.all (fun x => x == 6) then none else some d }) s) := by
  simp only [wtbPorts]
  split
  · simp only [wtbTap]
    rw [forEach_keeps g _ fun p s => hport p _ s]
    split <;> split <;> simp only [hclose]
  · simp only [wtbEndPorts]
    rw [forEach_keeps g _ hup]
    split <;> split <;> simp only [hopen]

theorem wtbPorts_inaField {β : Type} (g : Ina → β) (h : ∀ n c, g { n with quietClk := c } = g n) (d : Fin 2) (m : Bool)
    (s : State) : g (wtbPorts d m s).ina = g s.ina :=
  wtbPorts_keeps (fun s => g s.ina) (fun l s => congrArg g (closeLine_ina l s)) (fun l s => congrArg g (openLine_ina l s))
    (wtbPortUp_inaField g h) (fun _ _ _ => rfl) d m s

@[simp] theorem portToTrain_beside (p : Nat) (m : Mode) (s : State) : beside (portToTrain p m s) = beside s := rfl

@[simp] theorem portToUp_beside (p : Nat) (u : BitVec 64) (s : State) : beside (portToUp p u s) = beside s := by
  simp [portToUp, waitBegins]

@[simp] theorem wtbPortUp_beside (p : Nat) (s : State) : beside (wtbPortUp p s) = beside s := by
  unfold wtbPortUp
  dsimp only
  split <;> simp

@[simp] theorem commanded_wtbMaster (line : Line) (close : Bool) (clk : Nat) (t : Trunk) :
    (commanded line close clk t).wtbMaster = t.wtbMaster := by
  cases line <;> rfl

theorem closeLine_wtbMaster (line : Line) (s : State) : (closeLine line s).trunk.wtbMaster = s.trunk.wtbMaster :=
  (congrArg (·.wtbMaster) (closeLine_beside line s)).trans (commanded_wtbMaster _ _ _ _)

theorem openLine_wtbMaster (line : Line) (s : State) : (openLine line s).trunk.wtbMaster = s.trunk.wtbMaster :=
  (congrArg (·.wtbMaster) (openLine_beside line s)).trans (commanded_wtbMaster _ _ _ _)

theorem wtbPorts_wtbMaster (d : Fin 2) (m : Bool) (s : State) : (wtbPorts d m s).trunk.wtbMaster = m :=
  wtbPorts_keeps (fun s => s.trunk.wtbMaster) closeLine_wtbMaster openLine_wtbMaster
    (fun p s => congrArg (·.wtbMaster) (wtbPortUp_beside p s)) (fun _ _ _ => rfl) d m s

/-- R146–R148 at a node that is not joined: the island is noted, and an interior one reported at most. -/
theorem islandDone_unjoined {d : Fin 2} {a : List Byte} {i m : Bool} {s : State} (hnative : s.sys.native = false)
    (hpol : s.trunk.policy.getD d.val 0 = 6) (hj : joined s = false) :
    (islandDone d a i m s).ina =
      { (islandPut s.sys.uid d a i (wtbPorts d m s)).ina with islandConflict := i } ∧
    (islandDone d a i m s).trunk = (wtbPorts d m s).trunk := by
  have hj' : joined (wtbPorts d m s) = false := by
    unfold joined at hj ⊢
    rw [wtbPorts_inaField (·.st) fun _ _ => rfl]
    exact hj
  have hput : joined (modIna (fun n => { n with islandConflict := i }) (islandPut s.sys.uid d a i (wtbPorts d m s))) = false :=
    hj'
  simp only [islandDone, hnative, hpol, hput, Bool.false_and, Bool.false_eq_true, if_false, ne_eq, not_true_eq_false,
    decide_false, Bool.or_self]
  split
  · simp [conflictEvent, islandPut]
  · exact ⟨rfl, rfl⟩

/-! ## Telegrams (R301, R302) -/

theorem tblGet_tblSet_self {α : Type} (t : Tbl α) (i : Nat) (v : α) : tblGet (tblSet t i v) i = some v := by
  induction t with
  | nil => simp [tblSet, tblGet]
  | cons e t ih =>
    simp only [tblSet]
    split
    · simp [tblGet]
    · split
      · rename_i h
        simp [tblGet, h]
      · rename_i h
        simp [tblGet, h, ih]

theorem tblGet_tblSet_ne {α : Type} (t : Tbl α) {i j : Nat} (v : α) (h : j ≠ i) : tblGet (tblSet t i v) j = tblGet t j := by
  induction t with
  | nil => simp [tblSet, tblGet, h]
  | cons e t ih =>
    simp only [tblSet]
    split
    · simp [tblGet, h]
    · split
      · rename_i heq
        simp [tblGet, ← heq, h]
      · simp only [tblGet, ih]

/-- Flow `i` holds this telegram of its island node. -/
def holdsTelegram (i : Nat) (data : List Byte) (s : State) : Prop :=
  ∃ x, tblGet s.flow.run i = some x ∧ x.telegram = some data

theorem modRun_holdsTelegram {i j : Nat} {data : List Byte} {s : State} (h : i = j ∨ holdsTelegram i data s) :
    holdsTelegram i data (modRun j (fun r => { r with telegram := some data }) s) := by
  by_cases hij : i = j
  · subst hij
    exact ⟨_, tblGet_tblSet_self _ _ _, rfl⟩
  · obtain ⟨x, hx, hdata⟩ := h.resolve_left hij
    exact ⟨x, (tblGet_tblSet_ne _ _ hij).trans hx, hdata⟩

theorem forEach_holdsTelegram {i : Nat} {data : List Byte} (l : List (Nat × FlowCtx)) (s : State)
    (h : (∃ e ∈ l, e.1 = i) ∨ holdsTelegram i data s) :
    holdsTelegram i data (forEach l (fun e s => modRun e.1 (fun r => { r with telegram := some data }) s) s) := by
  induction l generalizing s with
  | nil => exact h.resolve_left (by simp)
  | cons x xs ih =>
    refine ih _ ?_
    rcases h with ⟨e, he, rfl⟩ | h
    · rcases List.mem_cons.mp he with rfl | he
      · exact .inr (modRun_holdsTelegram (.inl rfl))
      · exact .inl ⟨e, he, rfl⟩
    · exact .inr (modRun_holdsTelegram (.inr h))

/-- R301: a telegram heard valid on a line is what every flow of its island node now holds. -/
theorem islandTelegram_holds {a : Byte} {data : List Byte} {okA okB : Bool} {s : State} (hisland : islandHolds a s = true)
    (hok : okA = true ∨ okB = true) {e : Nat × FlowCtx} (he : e ∈ s.flow.ctx) (hen : e.2.enable = true)
    (hprod : e.2.produce = true) (htrans : e.2.transport = 2) (hsrc : islandSrc e.2 = a) :
    holdsTelegram e.1 data (islandTelegram a data okA okB s) := by
  have hheard : (okA || okB) = true := by simpa using hok
  simp only [islandTelegram, hisland, hheard, Bool.not_true, Bool.or_self, Bool.false_eq_true, if_false]
  refine forEach_holdsTelegram _ _ (.inl ⟨e, List.mem_filter.mpr ⟨he, ?_⟩, rfl⟩)
  simp [hen, hprod, htrans, hsrc]

/-! ## Topology discovery (R64, R152, R153) -/

theorem port_lt_of_portUp {s : State} {p : Nat} (h : portUp s p = true) : p < s.trunk.ports.length := by
  by_contra hp
  have hreset : portOf s p = Port.reset := List.getD_eq_default _ _ (Nat.not_lt.mp hp)
  rw [portUp_iff, hreset] at h
  cases h

/-- R64: what the node tells is read off its inauguration and its identity. -/
theorem ttOwn_congr {s t : State} (hina : t.ina = s.ina) (hsys : t.sys = s.sys) (l : List (BitVec 48 × BitVec 64)) :
    ttOwn l t = ttOwn l s := by
  simp [ttOwn, hina, hsys]

section
variable {p : Nat} {x : Ttdp} {s : State}

/-- The state in which a topology frame of a partner without beacons has been passed on. -/
def ttPassed (p : Nat) (x : Ttdp) (s : State) : State :=
  modPort p (fun q => { q with ttdp := true }) (fabRelay (.ttdp x) (forwardLen p (.ttdp x) (ttLen x) s))

theorem ttPassed_writes : OnlyWrites [.emit, .trunk, .fab] s (ttPassed p x s) := by
  simp [ttPassed, onlyWrites_refl]

theorem ttPassed_ina : (ttPassed p x s).ina = s.ina := ttPassed_writes .ina (by decide)

theorem forwardLen_ports_length (f : OutFrame) (len : Nat) :
    (forwardLen p f len s).trunk.ports.length = s.trunk.ports.length := by
  simp only [forwardLen, transitOut, transitEmit, portBusy, portCount]
  split
  · split
    · split <;> simp
    · simp
  · rfl

theorem portOf_ttPassed (hup : portUp s p = true) : (portOf (ttPassed p x s) p).ttdp = true := by
  have hrelay : (fabRelay (.ttdp x) (forwardLen p (.ttdp x) (ttLen x) s)).trunk =
      (forwardLen p (.ttdp x) (ttLen x) s).trunk := by
    have hwrites : OnlyWrites [.emit, .fab] (forwardLen p (.ttdp x) (ttLen x) s)
        (fabRelay (.ttdp x) (forwardLen p (.ttdp x) (ttLen x) s)) := by simp [onlyWrites_refl]
    exact hwrites .trunk (by decide)
  have hp : p < (fabRelay (.ttdp x) (forwardLen p (.ttdp x) (ttLen x) s)).trunk.ports.length := by
    rw [hrelay, forwardLen_ports_length]
    exact port_lt_of_portUp hup
  unfold ttPassed
  rw [portOf_modPort_self _ _ _ hp]

theorem ttdpIn_partner (hup : portUp s p = true) (hwtb : onWtb s p = false) (ht1 : onT1 (portOf s p) = true)
    (hpartner : (portOf s p).partner = none) :
    ttdpIn p x s = ttTake x (ttSend [p] (ttOwn x.nodes s) (ttPassed p x s)) := by
  have hown : ttOwn x.nodes (ttPassed p x s) = ttOwn x.nodes s :=
    ttOwn_congr ttPassed_ina (ttPassed_writes .sys (by decide)) _
  rw [← hown]
  simp [ttdpIn, hup, hwtb, ht1, hpartner, ttPassed]

theorem ttdpIn_unheard (h : portUp s p = false ∨ onWtb s p = true) : ttdpIn p x s = s := by
  rcases h with h | h <;> simp [ttdpIn, h]

theorem ttSend_ina (ps : List Nat) (o : Ttdp) : (ttSend ps o s).ina = s.ina := by
  have hwrites : OnlyWrites [.emit, .trunk, .sched] s (ttSend ps o s) := by simp [onlyWrites_refl]
  exact hwrites .ina (by decide)

theorem ttTake_pends (h : inBackbone s = false) : ttTake x s = modIna (fun n => { n with ttPend := some x }) s := by
  simp [ttTake, h]

theorem ttTake_known (h : inBackbone s = true) (hcount : x.counter = s.ina.ttCounter) : ttTake x s = s := by
  simp [ttTake, h, hcount]

end

theorem inBackbone_congr {s t : State} (h : t.ina = s.ina) : inBackbone t = inBackbone s := by
  simp [inBackbone, h]

/-! ## The trunk time domain (R229) -/

section
variable {p : Nat} {o rx : Int} {s : State}

theorem trunkEnqueue_time (p q : Nat) (f : QFrame) (s : State) : (trunkEnqueue p q f s).time = s.time := by
  simp only [trunkEnqueue]
  split
  · rfl
  · split <;> rfl

theorem domainSend_time (ps : List Nat) (d : BitVec 7) (x : Int) : (domainSend ps d x s).time = s.time :=
  forEach_keeps (fun s => s.time) _ (fun _ _ => trunkEnqueue_time _ _ _ _) ps s

theorem domainSend_isFirst (ps : List Nat) (d : BitVec 7) (x : Int) : isFirst (domainSend ps d x s) = isFirst s := by
  have hwrites : OnlyWrites [.trunk, .sched] s (domainSend ps d x s) := by simp [onlyWrites_refl]
  have hina : (domainSend ps d x s).ina = s.ina := hwrites .ina (by decide)
  simp [isFirst, joined, hina]

section
variable (hup : portUp s p = true) (hback : inBackbone s = true)
include hup hback

/-- R229: the first node passes the domain's time on. -/
theorem domainSyncIn_first (hfirst : isFirst s = true) :
    domainSyncIn p s.time.trunkDomain o rx s = domainSend
      ((upPorts s).filter (fun q => dirOfPort q ≠ dirOfPort p && (portOf s q).ttdp)) s.time.trunkDomain
      (-(pinRx (portOf s p) rx - (o + hopDelay s p))) s := by
  simp [domainSyncIn, hup, hback, domainSend_isFirst, hfirst]

/-- R229: another node takes its sample, here with no hop to pass the time on to. -/
theorem domainSyncIn_samples (hfirst : isFirst s = false)
    (hlast : ∀ q ∈ upPorts s, dirOfPort q ≠ dirOfPort p → (portOf s q).ttdp = false) :
    domainSyncIn p s.time.trunkDomain o rx s =
      phaseSample (pinRx (portOf s p) rx - (o + hopDelay s p)) 2 (hopsVia p s) s := by
  have hnone : (upPorts s).filter (fun q => dirOfPort q ≠ dirOfPort p && (portOf s q).ttdp) = [] :=
    List.filter_eq_nil_iff.mpr fun q hq h => by
      simp only [Bool.and_eq_true, decide_eq_true_eq] at h
      simp [hlast q hq h.1] at h
  simp only [domainSyncIn, hup, hback, hnone, Bool.not_true, ne_eq, not_true_eq_false, decide_false, Bool.or_self,
    Bool.false_eq_true, if_false]
  exact if_neg (Bool.eq_false_iff.mp hfirst)

end

theorem domainSyncIn_unheard {n : BitVec 7} (h : portUp s p = false ∨ inBackbone s = false ∨ n ≠ s.time.trunkDomain) :
    domainSyncIn p n o rx s = s := by
  rcases h with h | h | h <;> simp [domainSyncIn, h]

end

end Sys2Proof.Machine
end

section
/-! PROOFS. A restart of the node (spec/02, spec/10): the state every block comes back in, and the bypass switches, which a
restart leaves as they stand. -/

namespace Sys2Proof.Machine

/-! ## Operations on the other blocks -/

@[simp] theorem modSys_beside (f : Sys → Sys) (s : State) : beside (modSys f s) = beside s := rfl

@[simp] theorem modTime_beside (f : Time → Time) (s : State) : beside (modTime f s) = beside s := rfl

@[simp] theorem modBridge_beside (f : Bridge → Bridge) (s : State) : beside (modBridge f s) = beside s := rfl

@[simp] theorem bridgeCount_beside (i : Nat) (s : State) : beside (bridgeCount i s) = beside s := rfl

/-! ## What a reset sends of the bridge leaves the trunk apart from its ports -/

@[simp] theorem trunkEnqueue_beside (p q : Nat) (f : QFrame) (s : State) : beside (trunkEnqueue p q f s) = beside s := by
  unfold trunkEnqueue
  dsimp only
  split
  · rfl
  · split
    · rfl
    · rfl

@[simp] theorem mgmtSend_beside (ps : List Nat) (f : OutFrame) (len : Nat) (s : State) :
    beside (mgmtSend ps f len s) = beside s :=
  forEach_beside _ _ _ fun _ _ => trunkEnqueue_beside _ _ _ _

@[simp] theorem fabOriginate_beside (dst cls : Nat) (p : FabricPayload) (s : State) :
    beside (fabOriginate dst cls p s) = beside s :=
  beside_of_writes (w := [.emit, .fab]) (by simp [onlyWrites_refl]) (by decide)

theorem bridgeRoute_beside {resp : Bool} {b : BridgeFrame} {s t : State} (h : bridgeRoute resp b s = some t) :
    beside t = beside s := by
  unfold bridgeRoute at h
  dsimp only at h
  split at h
  case isTrue =>
    obtain ⟨_, _, rfl⟩ := Option.map_eq_some_iff.mp h
    exact fabOriginate_beside _ _ _ _
  case isFalse =>
    split at h
    case isTrue =>
      obtain ⟨_, _, rfl⟩ := Option.map_eq_some_iff.mp h
      exact fabOriginate_beside _ _ _ _
    case isFalse =>
      split at h
      case isTrue => exact absurd h (by simp)
      case isFalse =>
        cases h
        exact mgmtSend_beside _ _ _ _

@[simp] theorem bridgeAnswer_beside (status : Nat) (data : List Byte) (r : BridgeFrame) (s : State) :
    beside (bridgeAnswer status data r s) = beside s := by
  have hroute : ∀ f s, beside ((bridgeRoute true f s).getD s) = beside s := fun f s => by
    cases h : bridgeRoute true f s with
    | none => rfl
    | some t => exact bridgeRoute_beside h
  unfold bridgeAnswer
  dsimp only
  rw [hroute]
  split <;> rfl

@[simp] theorem readDone_beside (o : Outbound) (data : List Byte) (s : State) : beside (readDone o data s) = beside s := by
  unfold readDone
  split
  · rfl
  · split <;> simp

@[simp] theorem pwFail_beside (code : Nat) (o : Outbound) (s : State) : beside (pwFail code o s) = beside s := by
  unfold pwFail
  dsimp only
  rw [raise_beside, bridgeCount_beside, modBridge_beside]
  split <;> simp

@[simp] theorem failOutbound_beside (code : Nat) (o : Outbound) (s : State) : beside (failOutbound code o s) = beside s := by
  unfold failOutbound
  split
  · exact readDone_beside _ _ _
  · split <;> simp

/-! ## Each block's reset -/

@[simp] theorem sessionsReset_beside (s : State) : beside (sessionsReset s) = beside s :=
  forEach_beside _ _ _ fun _ _ => raise_beside _ _ _

theorem tioNodeReset_beside (n : Nat) (s : State) : beside (tioNodeReset n s) = beside s :=
  beside_of_writes (w := [.now, .emit, .time]) (by simp [tioNodeReset, onlyWrites_refl]) (by decide)

@[simp] theorem setTimeState_beside (n : TimeSt) (s : State) : beside (setTimeState n s) = beside s :=
  beside_of_writes (w := [.now, .emit, .cmd, .time, .flow, .vec]) (by simp [onlyWrites_refl]) (by decide)

@[simp] theorem timeNodeReset_beside (s : State) : beside (timeNodeReset s) = beside s := by
  unfold timeNodeReset
  dsimp only
  rw [forEach_beside _ _ _ tioNodeReset_beside, modTime_beside]
  split <;> simp

@[simp] theorem twinLeave_beside (s : State) : beside (twinLeave s) = beside s :=
  beside_of_writes (w := [.emit, .cmd, .flow, .twin, .vec, .now, .time]) (by simp [onlyWrites_refl]) (by decide)

theorem pairNodeReset_beside (l : Nat) (s : State) : beside (pairNodeReset l s) = beside s :=
  beside_of_writes (w := [.lsk, .can, .shadows]) (by simp [pairNodeReset, onlyWrites_refl]) (by decide)

theorem canNodeReset_beside (c : Nat) (s : State) : beside (canNodeReset c s) = beside s := rfl

theorem mvbNodeReset_beside (g : Nat) (s : State) : beside (mvbNodeReset g s) = beside s := rfl

@[simp] theorem swcNodeReset_beside (s : State) : beside (swcNodeReset s) = beside s := rfl

@[simp] theorem fabStartLinks_beside (s : State) : beside (fabStartLinks s) = beside s :=
  beside_of_writes (w := [.emit, .cmd, .flow, .fab, .vec]) (by simp [fabStartLinks, onlyWrites_refl]) (by decide)

@[simp] theorem bridgeNodeReset_beside (s : State) : beside (bridgeNodeReset s) = beside s := by
  unfold bridgeNodeReset
  dsimp only
  rw [semOwnFree, modBridge_beside, modBridge_beside, forEach_beside _ _ _ fun _ _ => bridgeAnswer_beside _ _ _ _,
    forEach_beside _ _ _ fun _ _ => failOutbound_beside _ _ _, modBridge_beside]

/-! ## The blocks together -/

/-- The switches of the two lines. -/
def lines (s : State) : Bypass × Bypass := (s.trunk.lineA, s.trunk.lineB)

theorem lines_of_beside {s t : State} (h : beside t = beside s) : lines t = lines s :=
  congrArg (fun x => (x.lineA, x.lineB)) h

theorem lines_closed_iff {s t : State} (h : lines t = lines s) :
    (t.trunk.lineA.closed = true ∧ t.trunk.lineB.closed = true) ↔ s.trunk.lineA.closed = true ∧ s.trunk.lineB.closed = true := by
  obtain ⟨hlineA, hlineB⟩ := Prod.mk.inj h
  rw [hlineA, hlineB]

theorem lines_of_writes {w : List Block} {s t : State} (h : OnlyWrites w s t) (hw : Block.trunk ∉ w) : lines t = lines s :=
  lines_of_beside (beside_of_writes h hw)

theorem blocksReset_lines (s : State) : lines (blocksReset s) = lines s := by
  unfold lines blocksReset
  dsimp only
  refine lines_of_beside ?_
  rw [bridgeNodeReset_beside, fabStartLinks_beside, swcNodeReset_beside, forEach_beside _ _ _ mvbNodeReset_beside,
    forEach_beside _ _ _ canNodeReset_beside, forEach_beside _ _ _ pairNodeReset_beside, twinLeave_beside,
    timeNodeReset_beside, sessionsReset_beside]

/-! ## A restart (R69, R575, R605) -/

/-- What the system registers of a restarted node are before its start begins. -/
def restartSys (y : Sys) : Sys := { y with
  attempts := 0, resetPending := none, resetHold := true, nonce := none, debugScope := 0, extest := false
  tap := match y.tap with | .extest => .bypass | i => i }

/-- The blocks a restart starts from: a commanded reset takes the pairs' debug holds away, any other keeps them. -/
def restartBlocks (cause : Byte) (s : State) : State :=
  if cause = 1 then blocksReset s else debugKept s (blocksReset s)

theorem restart_eq (cause : Byte) (s : State) :
    restart cause s = beginStart cause (startPorts (modSys restartSys (restartBlocks cause s))) := rfl

theorem restartBlocks_keeps (cause : Byte) (s : State) : OnlyWrites [.lsk] (blocksReset s) (restartBlocks cause s) := by
  unfold restartBlocks
  split
  · exact onlyWrites_refl _ _
  · simp [onlyWrites_refl]

theorem beginStart_startPorts_beside (cause : Byte) (s : State) : beside (beginStart cause (startPorts s)) = beside s :=
  (modSys_beside _ _).trans (forEach_beside _ _ _ fun _ _ => rfl)

/-- Opening the ports and beginning the start write the system registers and the trunk only. -/
theorem beginStart_startPorts_keeps (cause : Byte) (s : State) :
    OnlyWrites [.sys, .trunk] s (beginStart cause (startPorts s)) := by
  simp [onlyWrites_refl]

theorem beginStart_startPorts_sys (cause : Byte) (s : State) :
    (beginStart cause (startPorts s)).sys = { s.sys with
      step := 1, step4Done := false, step5Done := false, ready := false, cause := cause, heldInReset := false
      startClk := s.clk, pgClk := s.clk, patchActive := false } := by
  have hports : OnlyWrites [.trunk] s (startPorts s) := by simp [onlyWrites_refl]
  have hsys : (startPorts s).sys = s.sys := hports .sys (by decide)
  have hclk : (startPorts s).clk = s.clk := hports .clk (by decide)
  rw [← hsys, ← hclk]
  rfl

/-- A restarted node is at the first step of its start, with nothing of its last life asked for or unlocked. -/
theorem restart_sys (cause : Byte) (s : State) :
    (restart cause s).sys.step = 1 ∧ (restart cause s).sys.cause = cause ∧ (restart cause s).sys.ready = false ∧
    (restart cause s).sys.resetPending = none ∧ (restart cause s).sys.resetHold = true ∧
    (restart cause s).sys.debugScope = 0 := by
  rw [restart_eq, beginStart_startPorts_sys]
  exact ⟨rfl, rfl, rfl, rfl, rfl, rfl⟩

theorem blocksReset_steep (s : State) : (blocksReset s).ina.st = .steep := rfl

/-- A restarted node is In steep. -/
theorem restart_steep (cause : Byte) (s : State) : (restart cause s).ina.st = .steep := by
  have hstart : (restart cause s).ina = (restartBlocks cause s).ina :=
    beginStart_startPorts_keeps cause (modSys restartSys (restartBlocks cause s)) .ina (by decide)
  have hblocks : (restartBlocks cause s).ina = (blocksReset s).ina := restartBlocks_keeps cause s .ina (by decide)
  rw [hstart, hblocks, blocksReset_steep]

theorem restart_lines (cause : Byte) (s : State) : lines (restart cause s) = lines s := by
  have hstart : beside (restart cause s) = beside (restartBlocks cause s) := by
    rw [restart_eq, beginStart_startPorts_beside, modSys_beside]
  rw [lines_of_beside hstart, lines_of_writes (restartBlocks_keeps cause s) (by decide), blocksReset_lines]

theorem quietOutputs_lines (s : State) : lines (quietOutputs s) = lines s :=
  lines_of_writes (w := [.now, .emit, .time, .can, .mvb]) (by simp [onlyWrites_refl]) (by decide)

/-! ## The instant (R575) -/

theorem resetDue_iff {s : State} : resetDue s = true ↔ s.sys.resetPending ≠ none := Option.isSome_iff_ne_none

theorem instantIf_of_due {due : State → Bool} {dt : Nat} {s : State} (hdue : due (runTo (nextInstant s) s) = true)
    (hnow : nextInstant s ≤ (begin_ dt s).now) : instantIf due dt s = instant s :=
  if_pos (by rw [hdue, decide_eq_true hnow]; rfl)

theorem instantIf_of_not_due {due : State → Bool} {dt : Nat} {s : State}
    (hnot : due (runTo (nextInstant s) s) = false ∨ (begin_ dt s).now < nextInstant s) :
    instantIf due dt s = begin_ dt s :=
  if_neg (by
    rw [Bool.and_eq_true, decide_eq_true_eq]
    rintro ⟨hdue, hnow⟩
    rcases hnot with hfalse | hlate
    · exact absurd hdue (by simp [hfalse])
    · exact Nat.not_le.mpr hlate hnow)

theorem endsAtInstant_reset {s : State} {k : Byte × Fin 8} (hpower : s.sys.powered = true) (hreset : s.sys.resetPending = some k) :
    endsAtInstant s = restart 1 (sendOutBoth s) := by
  simp [endsAtInstant, hpower, resetDue, hreset]

end Sys2Proof.Machine
end

section
/-! PROOFS. The statements of spec/02_trunk_line.md. -/

open Sys2Proof Sys2Proof.Machine

/-- Settles O41: the state after power-on reset is written out field by field. -/
theorem resetState : Obligations.ResetState := by
  refine ⟨rfl, rfl, rfl, rfl, ?_, rfl, rfl, rfl, ?_, rfl, rfl, rfl, rfl⟩
  · decide
  · decide

/-- Settles O3: each clause names what the command's chapter answers (`…Body_…`), and `does_plain`, `does`, `queues_plain` and
`queues` bring the answer to its mailbox. -/
theorem topoTrunkCommandsComplete : Obligations.TopoTrunkCommandsComplete := by
  intro dt r s
  refine ⟨?_, ?_, ?_, ?_, ?_, ?_, ?_, ?_, ?_, ?_, ?_, ?_, ?_, ?_⟩
  · intro h
    refine does_plain h rfl rfl rfl (mbx_of_is fun mb => ?_)
    simp
  · intro d h hk hd
    exact does_plain h rfl rfl (topoDirectoryBody_inForce hk (by simpa using hd)) rfl
  · intro p h hk hp hw
    exact does_plain h rfl rfl (topoDirectoryBody_prepared hk (by simpa using hp) hw) rfl
  · intro h
    refine does_plain h rfl rfl ?_ rfl
    simp [topoPositionMapBody]
  · intro h hroom
    refine queues_plain h hroom rfl rfl ?_ (mbx_of_is fun mb => ?_)
    · simp only [topoSetLeadingBody, leadKept_taken, taken_frame]
    · simp
  · intro h hst hv htwin
    exact does h rfl (topoSetIdentityBody_steep (by simpa using hst) hv htwin) (mbx_of_is fun mb => by simp) rfl
  · intro h hfab hst
    refine does_plain h rfl rfl (topoColdStartBody_waiting (by simpa using hfab) (by simpa using hst)) (mbx_of_is fun mb => ?_)
    simp
  · intro h hdir hdir' hpol hwtb hfab hnow
    refine does h rfl ((trunkSetPolicyBody_accepted hdir hdir' hpol (by simpa using hwtb) (by simpa using hfab)).trans
      (if_pos ?_)) (mbx_of_is fun mb => by simp) rfl
    exact hnow
  · intro h hdir hdir' hpol hwtb hfab hlater hroom
    refine queues h hroom rfl ((trunkSetPolicyBody_accepted hdir hdir' hpol (by simpa using hwtb) (by simpa using hfab)).trans
      (if_neg ?_)) (mbx_of_is fun mb => by simp) rfl
    exact Bool.eq_false_iff.mp hlater
  · intro h hp
    refine does_plain h rfl rfl (trunkStatusBody_port hp) (mbx_of_is fun mb => ?_)
    simp
  · intro h hb hroom
    refine queues_plain h hroom rfl rfl (trunkBypassBody_passive hb) (mbx_of_is fun mb => ?_)
    simp
  · intro h hb hfab hroom
    refine queues_plain h hroom rfl rfl (trunkBypassBody_active hb (by simpa using hfab)) (mbx_of_is fun mb => ?_)
    simp
  · intro h hp hst
    exact does_plain h rfl rfl (trunkRetrainBody_steep hp (by simpa using hst)) (mbx_of_is fun mb => by simp)
  · intro h hp hst hroom
    exact queues_plain h hroom rfl rfl (trunkRetrainBody_later hp (by simpa using hst)) (mbx_of_is fun mb => by simp)

/-- Settles O14: each clause names what its event makes of the port (`portRelock_up`, `portEnergy_ndoelle`, …), and reads the
port off that change; what it supposes of the state holds as well once the command has begun. -/
theorem trunkPortTransitions : Obligations.TrunkPortTransitions := by
  intro dt p s hs
  have hs' : Sound (begin_ dt s) := sound_begin_ hs dt
  have hp : (p : Nat) < 4 := p.isLt
  have hself (f : Port → Port) : portOf (modPort p f (begin_ dt s)) p = f (portOf s p) :=
    portOf_modPort_self _ _ _ (port_mem hs' p)
  have hother {q : Fin 4} (hq : q ≠ p) : (p : Nat) ≠ q := fun h => hq (Fin.ext h.symm)
  refine ⟨?_, ?_, ?_, ?_, ?_, ?_, ?_, ?_, ?_, ?_, ?_, ?_, ?_, ?_, ?_, ?_, ?_, ?_, ?_, ?_, ?_, ?_⟩
  · exact fun hup hline hloss => congrArg Host.Outcome.next (portLoss_begins (s := begin_ dt s) hup hline hloss)
  · intro c hup hloss hlong
    refine ⟨_, congrArg Host.Outcome.next (portResume_long (s := begin_ dt s) hup hloss hlong), ?_⟩
    rw [hself]
    exact ⟨rfl, rfl, rfl, rfl, hloss, fun q hq => portOf_modPort_ne _ _ _ _ (hother hq)⟩
  · intro c hst hloss hc hshort
    exact congrArg Host.Outcome.next
      (portRelock_up (s := begin_ dt s) hloss hst (Nat.le_trans hc (Nat.le_add_right _ _)) hshort)
  · intro c hst hloss hc hshort
    exact congrArg Host.Outcome.next
      (portRelock_resume (s := begin_ dt s) hloss hst (Nat.le_trans hc (Nat.le_add_right _ _)) hshort)
  · intro c hheld hloss hlong
    have hover : lossOver p (begin_ dt s) = true := lossOver_of_long (s := begin_ dt s) hloss hlong
    have hexec : exec (.linkDownTimeout dt p) s = .next (linkDown p 1 (begin_ dt s)) :=
      congrArg Host.Outcome.next (if_pos (Bool.and_eq_true_iff.mpr ⟨hheld, hover⟩))
    refine ⟨congrArg Host.Outcome.next (portRelock_down (s := begin_ dt s) hloss hlong), hexec, fun hj => ⟨_, hexec, ?_⟩⟩
    obtain ⟨hst, hvalid, hctr, hcause⟩ := linkDown_unjoined hs' hp 1 hheld hj
    refine ⟨hst, hvalid, hctr, hcause.trans ?_⟩
    cases hpass : (portOf s p).passive <;> simp [hpass]
  · intro hst hpol
    refine ⟨_, congrArg Host.Outcome.next (portEnergy_ndoelle (s := begin_ dt s) hst hpol), ?_⟩
    rw [portOf_portToTrain_self hs' hp]
    exact ⟨rfl, rfl, rfl, rfl, fun q hq => portOf_portToTrain_ne (hother hq) _⟩
  · intro hst hpol
    refine ⟨_, congrArg Host.Outcome.next (portEnergy_negotiate (s := begin_ dt s) hst hpol), ?_⟩
    rw [portOf_portToNegotiate_self hs' hp]
    exact ⟨rfl, rfl, fun q hq => portOf_portToNegotiate_ne (hother hq)⟩
  · intro hst hpol
    refine ⟨_, congrArg Host.Outcome.next (portEnergy_t1 (s := begin_ dt s) hst hpol), ?_⟩
    rw [portOf_portToTrain_self hs' hp]
    exact ⟨rfl, rfl, rfl⟩
  · intro hst hline
    refine ⟨_, congrArg Host.Outcome.next (portQualify_train (s := begin_ dt s) hst hline), ?_⟩
    rw [hself]
    exact ⟨rfl, onNdoelle_iff.mp hline, rfl, rfl, rfl, rfl⟩
  · intro uid hst hlong hfew
    have hqual : portQualified p (begin_ dt s) = true := (portQualified_iff (s := begin_ dt s) hst).mpr ⟨hlong, hfew⟩
    have hexec : exec (.qualifyComplete dt p uid) s = .next (portToUp p uid (begin_ dt s)) :=
      congrArg Host.Outcome.next (if_pos hqual)
    refine ⟨hexec, _, hexec, ?_⟩
    rw [portOf_portToUp_self hs' hp]
    exact ⟨rfl, rfl, rfl⟩
  · intro uid hst hnot
    refine congrArg Host.Outcome.next (if_neg fun h => ?_)
    obtain ⟨hlong, hfew⟩ := (portQualified_iff (s := begin_ dt s) hst).mp h
    exact hnot.elim (Nat.not_lt.mpr hlong) (Nat.not_lt.mpr hfew)
  · intro k lost hst hfails
    have hs1 : Sound (portTrainFail p (modPort p (fun t => { t with
        ctr := updAt t.ctr 0 (satAdd k), violations := t.violations + k }) (begin_ dt s))) :=
      sound_of_kept (fun K => by simp) hs'
    refine ⟨_, congrArg Host.Outcome.next (portViolations_fails hs' hp hst hfails), ?_⟩
    rw [portOf_portToTrain_self hs1 hp]
    refine ⟨rfl, rfl, rfl, fun q hq => ?_⟩
    rw [portOf_portToTrain_ne (hother hq), portOf_portTrainFail_ne (hother hq), portOf_modPort_ne _ _ _ _ (hother hq)]
    rfl
  · exact fun k lost h => congrArg Host.Outcome.next (portViolations_counts hs' hp h)
  · intro hst hlong
    have hlink : linkHeld (portOf (begin_ dt s) p) = false := by simp [linkHeld, hst]
    have hexec : exec (.negotiateTimeout dt p) s = .next (portToDetect p 0 (begin_ dt s)) := by
      change execNegotiateTimeout dt p s = _
      simp [execNegotiateTimeout, hst, hlong]
    obtain ⟨hdetect, -, -⟩ := portToDetect_unlinked hs' hp 0 hlink
    exact ⟨_, hexec, hdetect, fun q hq => portOf_portToDetect_ne (hother hq) 0⟩
  · intro a b m hst hoffer ht1 hheld
    have hm := commonMode_preferred (s := begin_ dt s) hoffer ht1 hheld
    have hnone : (if a then Mode.t1000 else Mode.t100) ≠ .none := by cases a <;> simp
    obtain ⟨htrain, hmaster, hmode⟩ := portNegotiated_port (master := m) hs' hst hm hnone
    exact ⟨_, rfl, htrain, hmaster, hmode, fun hline => portNegotiated_sibling hs' hst hm hnone hline hheld⟩
  · intro a b m hst hoffer
    have hm := commonMode_sibling (s := begin_ dt s) hoffer
    have hnone : siblingMode (begin_ dt s) p ≠ .none := by
      change (portOf s (siblingPort p)).mode ≠ .none
      rcases hoffer with ⟨h, -⟩ | ⟨h, -⟩ <;> simp [h]
    exact ⟨_, rfl, portNegotiated_port (master := m) hs' hst hm hnone⟩
  · intro answered hst hfalls
    obtain ⟨hdetect, hclause, hctr⟩ := portTrainingFailure_port hs' hp hst hfalls
    exact ⟨_, rfl, hdetect, hclause, hctr, fun q hq => portOf_portTrainingFailure_ne (hother hq) _⟩
  · intro hst htrained hpol hline hlong hheld
    have hfalls : fallsBack p false (begin_ dt s) = true := by
      simp only [fallsBack, Bool.and_eq_true, decide_eq_true_eq, Bool.not_eq_true']
      exact ⟨⟨⟨⟨⟨htrained, hpol⟩, hline⟩, trivial⟩, hlong⟩, hheld⟩
    obtain ⟨hdetect, hclause, hctr⟩ := portTrainingFailure_fallsBack hs' hp hst hfalls
    exact ⟨_, rfl, hdetect, hclause, hctr, fun q hq => portOf_portTrainingFailure_ne (hother hq) _⟩
  · intro uid hst ht1
    have hs1 : Sound (modPort p (fun t => { t with
        partner := none, partnerClk := none, deltas := [], qualClk := s.clk + dt }) (begin_ dt s)) :=
      sound_of_kept (fun K => by simp) hs'
    have hexec : exec (.t1LinkUp dt p uid) s = .next (portToUp p uid (modPort p (fun t => { t with
        partner := none, partnerClk := none, deltas := [], qualClk := s.clk + dt }) (begin_ dt s))) := by
      change execT1LinkUp dt p uid s = _
      simp [execT1LinkUp, hst, ht1]
    refine ⟨_, hexec, ?_⟩
    rw [portOf_portToUp_self hs1 hp, hself]
    exact ⟨rfl, rfl, rfl⟩
  · exact fun hwaits hdue => congrArg Host.Outcome.next (portSwap_due (s := begin_ dt s) hwaits hdue)
  · exact fun h => congrArg Host.Outcome.next (portSwap_not_due (s := begin_ dt s) h)
  · intro hheld ht1
    have hexec : exec (.t1LinkDown dt p) s = .next (linkDown p 1 (begin_ dt s)) :=
      congrArg Host.Outcome.next (if_pos (Bool.and_eq_true_iff.mpr ⟨hheld, ht1⟩))
    refine ⟨hexec, fun hj => ⟨_, hexec, ?_⟩⟩
    obtain ⟨hst, -, hctr, -⟩ := linkDown_unjoined hs' hp 1 hheld hj
    exact ⟨hst, hctr⟩

/-- Settles O15: each clause names what the command sends or what it makes of the estimate (`delayRequestSend_trunk`,
`delayMarkerIn_request`, `markerComplete_near`, …), at the moment the command has begun. -/
theorem hopDelayExchange : Obligations.HopDelayExchange := by
  intro dt s hs
  have hs' : Sound (begin_ dt s) := sound_begin_ hs dt
  refine ⟨?_, ?_, ?_, ?_, ?_, ?_, ?_, ?_, ?_, ?_, ?_, ?_, ?_⟩
  · intro p tx hup hline hclear
    refine ⟨_, congrArg Host.Outcome.next (delayRequestSend_trunk (s := begin_ dt s) hup hline hclear), ?_, fun hext => ?_⟩
    · rw [portOf_emit, portOf_modPort_self _ _ _ (port_mem hs' p)]
      rfl
    · rw [emit_sent (by exact hext), portOf_modPort_self _ _ _ (port_mem hs' p)]
      rfl
  · exact fun p tx idle h => congrArg Host.Outcome.next (delayRequestSend_waits (s := begin_ dt s) h)
  · intro k l tx hruns hlanes
    refine ⟨_, congrArg Host.Outcome.next (delayRequestSend_lane (s := begin_ dt s) hruns), ?_⟩
    calc _ = laneOf (modLane k l (delayAsk tx) (begin_ dt s)) k l := by simp [laneOf, fabOf]
      _ = _ := laneOf_modLane_self hs' k l hlanes _
  · intro p m rx tx hport hok htype hext
    refine ⟨_, congrArg Host.Outcome.next (delayMarkerIn_request (s := begin_ dt s) hport hok htype), ?_⟩
    rw [emits_sent (by exact hext)]
    rfl
  · intro k l m rx tx hruns hok htype hlater hext
    have hwait : max tx (((begin_ dt s).now : Int) + delayWait (.fabric k l) tx (begin_ dt s)) = tx := by
      simp only [delayWait]; omega
    refine ⟨_, congrArg Host.Outcome.next
      (delayMarkerIn_request (p := .fabric k l) (s := begin_ dt s) hruns hok htype), ?_⟩
    rw [emits_sent (by exact hext), hwait]
    rfl
  · exact fun p m rx tx hport hok htype hseq hasked =>
      congrArg Host.Outcome.next (delayMarkerIn_response (s := begin_ dt s) hport hok htype hseq hasked)
  · intro p q rx tx hup ht1 hext
    refine ⟨_, congrArg Host.Outcome.next (pdelayIn_request (pdelayPort_t1 (s := begin_ dt s) hup ht1)), ?_⟩
    rw [emits_sent (by exact hext)]
    rfl
  · exact fun p t2 rx tx hup ht1 hasked =>
      congrArg Host.Outcome.next (pdelayIn_response (pdelayPort_t1 (s := begin_ dt s) hup ht1) hasked)
  · intro p m a b hport hok htype hseq hturn ht1 ht4 hvalid hnear
    refine ⟨_, congrArg Host.Outcome.next (delayFollowIn_marker_trunk (s := begin_ dt s) hport hok htype), ?_⟩
    obtain ⟨hdelay, hctr⟩ := delayTrunkDone_port hs' p.isLt (markerComplete m (portOf (begin_ dt s) p).delay)
    rw [hdelay, hctr, portOf_begin_, markerComplete_near hseq hturn ht1 ht4 hvalid hnear]
    exact ⟨hvalid, rfl, rfl, rfl, rfl⟩
  · intro p m hport hok htype hout
    refine ⟨_, congrArg Host.Outcome.next (delayFollowIn_marker_trunk (s := begin_ dt s) hport hok htype), ?_⟩
    obtain ⟨hdelay, -⟩ := delayTrunkDone_port hs' p.isLt (markerComplete m (portOf (begin_ dt s) p).delay)
    rw [hdelay, portOf_begin_, markerComplete_ignored hout]
  · exact fun p q t3 hup ht1 =>
      congrArg Host.Outcome.next (delayFollowIn_pdelay (pdelayPort_t1 (s := begin_ dt s) hup ht1))
  · exact fun k l m hruns hok htype =>
      congrArg Host.Outcome.next (delayFollowIn_marker_lane (s := begin_ dt s) hruns hok htype)
  · intro p tx hup ht1
    have hexec : exec (.peerDelayRequest dt p tx) s = .next (emit (.delay (.trunk p) (.pdelayReq (portOf (modPort p (fun t =>
        { t with delay := delayAsk (pinTx t tx) t.delay }) (begin_ dt s)) p).delay.reqSeq))
        (modPort p (fun t => { t with delay := delayAsk (pinTx t tx) t.delay }) (begin_ dt s))) := by
      change execPeerDelayRequest dt p tx s = _
      simp [execPeerDelayRequest, pdelayPort_t1 (s := begin_ dt s) hup ht1]
    refine ⟨_, hexec, ?_, fun hext => ?_⟩
    · rw [portOf_emit, portOf_modPort_self _ _ _ (port_mem hs' p)]
      rfl
    · rw [emit_sent (by exact hext), portOf_modPort_self _ _ _ (port_mem hs' p)]
      rfl

/-- Settles O16: each clause is a branch of its command; how the switches stand after it is read off the trunk apart from its
ports (`closeLine_beside`, `openLine_beside`, `finishSequence_switches`, `emergencyClose_switches`). -/
theorem bypassSwitches : Obligations.BypassSwitches := by
  intro dt s
  refine ⟨?_, ?_, ?_, ?_, ?_, ?_, ?_, ?_, ?_, ?_⟩
  · intro q hq hpass hfirst htold
    have hexec : exec (.bypassLineAClose dt) s = .next (closeLineBroken .a (modTrunk (fun t => { t with
        seq := some { q with lineADone := true, aClk := s.clk + dt } }) (begin_ dt s))) := by
      have htold' : passiveTold (begin_ dt s) = true := htold
      change execBypassLineAClose dt s = _
      simp [execBypassLineAClose, hq, hpass, hfirst, htold']
    have hbeside : beside (closeLineBroken .a (modTrunk (fun t => { t with
        seq := some { q with lineADone := true, aClk := s.clk + dt } }) (begin_ dt s))) =
        commanded .a true (s.clk + dt) { beside s with seq := some { q with lineADone := true, aClk := s.clk + dt } } := by
      rw [closeLineBroken, checkBroken_beside, checkBroken_beside, closeLine_beside, modTrunk_beside]
      · rfl
      · exact fun _ => rfl
    exact ⟨hexec, _, hexec, congrArg (·.lineA.closed) hbeside, congrArg (·.lineB) hbeside, congrArg (·.seq) hbeside⟩
  · intro htold
    have htold' : passiveTold (begin_ dt s) = false := htold
    change execBypassLineAClose dt s = _
    cases hq : s.trunk.seq <;> simp [execBypassLineAClose, hq, htold']
  · intro q hq hpass hfirst hdue
    have hexec : exec (.bypassLineBClose dt) s = .next (finishSequence true (closeLineBroken .b (begin_ dt s))) := by
      change execBypassLineBClose dt s = _
      simp [execBypassLineBClose, hq, hpass, hfirst, hdue]
    have hbeside : beside (closeLineBroken .b (begin_ dt s)) = commanded .b true (s.clk + dt) (beside s) := by
      rw [closeLineBroken, checkBroken_beside, checkBroken_beside, closeLine_beside]
      rfl
    have hend := finishSequence_switches true (closeLineBroken .b (begin_ dt s))
    exact ⟨hexec, _, hexec, (congrArg (·.2.1.closed) hend).trans (congrArg (·.lineB.closed) hbeside),
      (congrArg (·.1) hend).trans (congrArg (·.lineA) hbeside), congrArg (·.2.2) hend⟩
  · intro q hq hpass hfirst hmay
    have hexec : exec (.bypassLineAOpen dt) s = .next (openLine .a (modTrunk (fun t => { t with
        seq := some { q with lineADone := true, aClk := s.clk + dt } }) (begin_ dt s))) := by
      have hmay' : mayOpenSwitch (begin_ dt s) = true := hmay
      change execBypassLineAOpen dt s = _
      simp [execBypassLineAOpen, hq, hpass, hfirst, hmay']
    have hbeside := openLine_beside .a (modTrunk (fun t => { t with
        seq := some { q with lineADone := true, aClk := s.clk + dt } }) (begin_ dt s))
    exact ⟨hexec, _, hexec, congrArg (·.lineA.closed) hbeside, congrArg (·.lineB) hbeside⟩
  · intro q hq hpass hfirst hline hmay
    have hexec : exec (.bypassLineBOpen dt) s = .next (finishSequence false (openLine .b (begin_ dt s))) := by
      have hmay' : mayOpenSwitch (begin_ dt s) = true := hmay
      change execBypassLineBOpen dt s = _
      simp [execBypassLineBOpen, hq, hpass, hfirst, hline, hmay']
    have hbeside := openLine_beside .b (begin_ dt s)
    have hend := finishSequence_switches false (openLine .b (begin_ dt s))
    exact ⟨hexec, _, hexec, (congrArg (·.2.1.closed) hend).trans (congrArg (·.lineB.closed) hbeside),
      (congrArg (·.1) hend).trans (congrArg (·.lineA) hbeside), congrArg (·.2.2) hend⟩
  · exact fun c hcmd hdue => congrArg Host.Outcome.next (senseCheck_a_found (s := begin_ dt s) hcmd hdue)
  · exact fun c hcmd hdue => congrArg Host.Outcome.next (senseCheck_b_found (s := begin_ dt s) hcmd hdue)
  · exact fun c x hcmd hx hfirst hdue => ⟨_, rfl, senseCheck_a_again (s := begin_ dt s) hcmd hx hfirst hdue⟩
  · intro hpower
    have hexec : exec (.supervisorFatalFault dt) s = .next (emergencyClose (begin_ dt s)) :=
      congrArg Host.Outcome.next (if_pos hpower)
    exact ⟨hexec, _, hexec, emergencyClose_switches _⟩
  · intro hshut
    have hexec : exec (.shutdownBypassClose dt) s = .next (emergencyClose (begin_ dt s)) :=
      congrArg Host.Outcome.next (if_pos hshut)
    obtain ⟨hA, hB, hseq, -⟩ := emergencyClose_switches (begin_ dt s)
    exact ⟨hexec, _, hexec, hA, hB, hseq⟩

/-- Settles O18: each clause names what its command does (`islandDone_unjoined`, `islandTelegram_holds`, `ttdpIn_partner`,
`domainSyncIn_first`, …) at the moment it has begun. -/
theorem backboneCommandsComplete : Obligations.BackboneCommandsComplete := by
  intro dt s
  refine ⟨?_, ?_, ?_, ?_, ?_, ?_, ?_, ?_, ?_, ?_, ?_, ?_, ?_⟩
  · intro d a i m hnative hpol hj
    obtain ⟨hina, htrunk⟩ := islandDone_unjoined (a := a) (i := i) (m := m) (s := begin_ dt s) hnative hpol hj
    refine ⟨_, rfl, ?_⟩
    rw [hina, htrunk]
    refine ⟨rfl, rfl, wtbPorts_wtbMaster _ _ _, ?_⟩
    exact congrArg (fun l : List Island => _ :: l.filter _) (wtbPorts_inaField (·.islands) (fun _ _ => rfl) d m (begin_ dt s))
  · intro d a i m u D hfirst hdir hnum
    have hknown : (isFirst (begin_ dt s) && ((begin_ dt s).ina.dir.map (fun x => uidNumbered x u)).getD false) = true :=
      Bool.and_eq_true_iff.mpr ⟨hfirst, by simp [hdir, hnum]⟩
    exact congrArg Host.Outcome.next (if_pos hknown)
  · intro d a i m u hfirst
    refine congrArg Host.Outcome.next (if_neg fun h => ?_)
    obtain ⟨hfirst', -⟩ := Bool.and_eq_true_iff.mp h
    exact Bool.false_ne_true (hfirst.symm.trans hfirst')
  · exact fun a data okA okB hisland hok => ⟨_, rfl, fun e he hen hprod htrans hsrc =>
      islandTelegram_holds (s := begin_ dt s) hisland hok he hen hprod htrans hsrc⟩
  · intro a data
    exact congrArg Host.Outcome.next (if_pos (by simp))
  · intro hisland hext
    have hsome : (begin_ dt s).ina.islands.isEmpty = false := by simpa using hisland
    have hexec : exec (.islandTelegramSend dt) s =
        .next (emit (.wtb (memRead s.flow.islandOut 0 128)) (begin_ dt s)) :=
      congrArg Host.Outcome.next (if_neg (Bool.eq_false_iff.mp hsome))
    exact ⟨_, hexec, emit_sent (s := begin_ dt s) hext _, by simp⟩
  · intro p x hup hwtb ht1 hpartner hback
    have hexec : exec (.ttdpFrameRx dt p x) s =
        .next (ttTake x (ttSend [p.val] (ttOwn x.nodes (begin_ dt s)) (ttPassed p x (begin_ dt s)))) :=
      congrArg Host.Outcome.next (ttdpIn_partner (s := begin_ dt s) hup hwtb ht1 hpartner)
    have hback' : inBackbone (ttSend [p.val] (ttOwn x.nodes (begin_ dt s)) (ttPassed p x (begin_ dt s))) = false :=
      (inBackbone_congr ((ttSend_ina _ _).trans ttPassed_ina)).trans hback
    refine ⟨hexec, _, hexec, ?_, ?_⟩
    · rw [ttTake_pends hback', modIna_ina, ttSend_ina, ttPassed_ina]
      rfl
    · rw [ttTake_pends hback', portOf_modIna, ttSend, mgmtSend_field (·.ttdp) fun _ _ => rfl]
      exact portOf_ttPassed (s := begin_ dt s) hup
  · intro p x hup hwtb ht1 hpartner hback hcount
    have hina : (ttSend [p.val] (ttOwn x.nodes (begin_ dt s)) (ttPassed p x (begin_ dt s))).ina = s.ina :=
      (ttSend_ina _ _).trans ttPassed_ina
    refine ⟨_, congrArg Host.Outcome.next (ttdpIn_partner (x := x) (s := begin_ dt s) hup hwtb ht1 hpartner), ?_⟩
    rw [ttTake_known ((inBackbone_congr hina).trans hback) (by rw [hina]; exact hcount), hina]
  · exact fun p x h => congrArg Host.Outcome.next (ttdpIn_unheard (s := begin_ dt s) h)
  · intro p o rx hup hback hfirst
    have hexec : exec (.trunkDomainSyncRx dt p s.time.trunkDomain o rx) s = .next (domainSend
        ((upPorts s).filter (fun q => dirOfPort q ≠ dirOfPort p && (portOf s q).ttdp)) s.time.trunkDomain
        (-(pinRx (portOf s p) rx - (o + hopDelay s p))) (begin_ dt s)) :=
      congrArg Host.Outcome.next (domainSyncIn_first (s := begin_ dt s) hup hback hfirst)
    exact ⟨hexec, _, hexec, domainSend_time _ _ _⟩
  · exact fun p o rx hup hback hfirst hlast =>
      congrArg Host.Outcome.next (domainSyncIn_samples (s := begin_ dt s) hup hback hfirst hlast)
  · exact fun p n o rx h => congrArg Host.Outcome.next
      (domainSyncIn_unheard (s := begin_ dt s) (h.imp_right Or.inl))
  · exact fun p n o rx h => congrArg Host.Outcome.next (domainSyncIn_unheard (s := begin_ dt s) (.inr (.inr h)))

/-- Settles O20: each clause is a branch of its command; what a restart leaves is `restart_sys`, `restart_steep` and
`restart_lines`, and how an emergency leaves the switches is `emergencyClose_switches`. -/
theorem resetCommandsComplete : Obligations.ResetCommandsComplete := by
  intro dt s _
  refine ⟨rfl, rfl, ?_, ?_, ?_, ?_, ?_, ?_, ?_⟩
  · intro hpower hheld
    have hexec : exec (.supervisorWatchdogExpiry dt) s = .next (restart 3 (emergencyClose (begin_ dt s))) :=
      congrArg Host.Outcome.next (if_pos (Bool.and_eq_true_iff.mpr ⟨hpower, congrArg not hheld⟩))
    obtain ⟨hstep, hcause, hready, -, -, -⟩ := restart_sys 3 (emergencyClose (begin_ dt s))
    obtain ⟨hlineA, hlineB, -, -⟩ := emergencyClose_switches (begin_ dt s)
    exact ⟨hexec, _, hexec, hstep, hcause, hready, restart_steep _ _,
      (lines_closed_iff (restart_lines _ _)).mpr ⟨hlineA, hlineB⟩⟩
  · intro hpower
    have hexec : exec (.supervisorFatalFault dt) s = .next (emergencyClose (begin_ dt s)) :=
      congrArg Host.Outcome.next (if_pos hpower)
    exact ⟨hexec, _, hexec, emergencyClose_switches _⟩
  · intro k hreset hnow
    exact congrArg Host.Outcome.next (instantIf_of_due (resetDue_iff.mpr (by simp [runTo, hreset])) hnow)
  · intro hnot
    exact congrArg Host.Outcome.next (instantIf_of_not_due (hnot.imp_left fun hnone => by simp [resetDue, runTo, hnone]))
  · intro k hpower hreset
    have hends := endsAtInstant_reset hpower hreset
    obtain ⟨hstep, hcause, hready, hpending, hhold, hscope⟩ := restart_sys 1 (sendOutBoth s)
    rw [hends]
    exact ⟨rfl, hstep, hcause, hready, hpending, hhold, hscope, restart_steep _ _⟩
  · intro hpower hscope
    have hexec : exec (.jtagExtest dt) s = .next (modSys (fun y => { y with extest := true, tap := .extest })
        (quietOutputs (emergencyClose (begin_ dt s)))) :=
      congrArg Host.Outcome.next (if_pos (Bool.and_eq_true_iff.mpr ⟨hpower, hscope⟩))
    obtain ⟨hlineA, hlineB, -, -⟩ := emergencyClose_switches (begin_ dt s)
    have hlines := (lines_of_beside (modSys_beside (fun y => { y with extest := true, tap := .extest })
      (quietOutputs (emergencyClose (begin_ dt s))))).trans (quietOutputs_lines _)
    exact ⟨_, hexec, rfl, rfl, (lines_closed_iff hlines).mpr ⟨hlineA, hlineB⟩⟩
  · intro hnot
    refine congrArg Host.Outcome.next (if_neg ?_)
    rw [Bool.and_eq_true]
    rintro ⟨hpower, hscope⟩
    rcases hnot with hoff | hlocked
    · exact Bool.false_ne_true (hoff.symm.trans hpower)
    · exact Bool.false_ne_true (hlocked.symm.trans hscope)

end

section
/-! PROOFS. The SCHED commands (spec/04): what the subject chapter answers, case by case. -/

namespace Sys2Proof.Machine

/-! ## Bodies (R198–R202, R216, R278) -/

section
variable {r : Ring} {s : State}

/-- R198: an aligned piece within the store is staged; what was staged before it stays unless it begins the image. -/
theorem schedStageBody_accepted (halign : fieldAt r.req 0 4 % 4 = 0) (hmin : 4 ≤ fieldAt r.req 4 2)
    (hmax : fieldAt r.req 4 2 ≤ 2048) (hword : fieldAt r.req 4 2 % 4 = 0)
    (hfits : fieldAt r.req 0 4 + fieldAt r.req 4 2 ≤ 262144) :
    schedStageBody r s = (done [], modSched (fun d => { d with
      stagedBytes := memWrite (if fieldAt r.req 0 4 = 0 then [] else s.sched.stagedBytes) (fieldAt r.req 0 4) (r.req.drop 8)
      stagedLen := max (if fieldAt r.req 0 4 = 0 then 0 else s.sched.stagedLen) (fieldAt r.req 0 4 + fieldAt r.req 4 2)
      verified := none, activated := false }) s) := by
  simp [schedStageBody, halign, hword, Nat.not_lt.mpr hmin, Nat.not_lt.mpr hmax, Nat.not_lt.mpr hfits]

/-- R199: an image in which nothing offends. -/
theorem schedVerifyBody_sound (h : imageCheck (memRead s.sched.stagedBytes 0 s.sched.stagedLen) = none) :
    schedVerifyBody r s = (done (leBytes 32 (imageOf (memRead s.sched.stagedBytes 0 s.sched.stagedLen)).hash.toNat),
      modSched (fun d => { d with
        verified := some (imageOf (memRead s.sched.stagedBytes 0 s.sched.stagedLen)) }) s) := by
  simp only [schedVerifyBody, h]

theorem schedHoldBody_first (h : isFirst s = true) :
    schedHoldBody r s = (queued 0, modSched (fun d => { d with holdAsked := true }) s) := if_pos h

/-- R201, R278: an image that begins to run at once, its contexts judged. -/
theorem schedActivateFull_steep {im : Image} (hst : s.ina.st = .steep) (him : s.sched.verified = some im) :
    schedActivateFull r s = (done [], judgeContexts
      (if cycleUs (modIna (fun n => { n with mismatch := false }) (runImage im s)) = cycleUs s
       then modIna (fun n => { n with mismatch := false }) (runImage im s)
       else macroChange (modIna (fun n => { n with mismatch := false }) (runImage im s)))) := by
  simp [schedActivateFull, schedActivateBody, hst, him, (inSteep_iff s).mpr hst, done]

theorem schedActivateFull_held {im : Image} (hst : s.ina.st = .held) (him : s.sched.verified = some im) :
    schedActivateFull r s = (done [], modSched (fun d => { d with activated := true }) s) := by
  have hnot : inSteep s = false := by simp [inSteep, hst]
  simp [schedActivateFull, schedActivateBody, hst, him, hnot]

theorem schedReleaseBody_first (hst : s.ina.st = .held) (h : isFirst s = true) :
    schedReleaseBody r s = (queued 0, modSched (fun d => { d with release := some (releaseCount s) }) s) := by
  simp [schedReleaseBody, hst, h]

theorem schedEntryStatusBody_listed {im : Image} {e : Entry} (hrun : s.sched.running = some im)
    (hentry : entryAt im (fieldAt r.req 0 2) = some e) :
    schedEntryStatusBody r s = (done (entryRecord (fieldAt r.req 0 2) e s),
      if clearAsked r.req 2 then modSched (fun d => { d with entryCtr := tblErase d.entryCtr (fieldAt r.req 0 2) }) s
      else s) := by
  simp [schedEntryStatusBody, hrun, hentry]

end

@[simp] theorem isFirst_taken (op dt : Nat) (r : Ring) (s : State) : isFirst (taken op dt r s) = isFirst s := by
  simp [isFirst, joined]

end Sys2Proof.Machine
end

section
/-! PROOFS. Message data sessions (spec/06, spec/11): which frames reach the sessions of this node, and what opening, data,
acknowledgement, closing and retransmission make of the session they name. -/

namespace Sys2Proof.Machine

/-! ## A session found by its name -/

section
variable {sid : BitVec 16} {o : BitVec 64} {x : Session} {s : State}

theorem named_of_find (h : s.flow.sessions.find? (isSession sid o) = some x) : x.sid = sid ∧ x.opener = o := by
  simpa [isSession] using List.find?_some h

/-- A session keeps its name under a change that keeps both of its parts. -/
theorem find_modSession {g : Session → Session} (hg : ∀ y, isSession sid o (g y) = isSession sid o y)
    (h : s.flow.sessions.find? (isSession sid o) = some x) :
    (modSession (isSession sid o) g s).flow.sessions.find? (isSession sid o) = some (g x) := by
  have hname : isSession sid o ∘ (fun y => if isSession sid o y then g y else y) = isSession sid o := by
    funext y
    simp only [Function.comp_apply, apply_ite (isSession sid o), hg, ite_self]
  have hx : isSession sid o x = true := List.find?_some h
  simp only [modSession, modFlow, List.find?_map, hname, h, Option.map_some, hx, if_true]

end

/-! ## What sending a session frame leaves alone (R304, R519) -/

/-- Sending a frame of a session writes the queues of the ports, the schedule's counts and the fabric at most. -/
theorem sendSession_keeps (f : SessionFrame) (s : State) : OnlyWrites [.emit, .trunk, .sched, .fab] s (sendSession f s) := by
  simp [onlyWrites_refl]

theorem sendSession_flow (f : SessionFrame) (s : State) : (sendSession f s).flow = s.flow :=
  sendSession_keeps f s .flow (by decide)

theorem sendSegments_flow (x : Session) (m : Message) (a b : Nat) (s : State) : (sendSegments x m a b s).flow = s.flow :=
  forEach_keeps (fun s => s.flow) _ (fun _ _ => sendSession_flow _ _) _ s

theorem closeSession_sessions (x : Session) (cause : Nat) (s : State) :
    (closeSession x cause s).flow.sessions = s.flow.sessions.filter (fun y => !(isSession x.sid x.opener y)) := by
  simp only [closeSession, sendSession_flow, modFlow]

theorem sessionClosed_sessions (x : Session) (cause : Nat) (s : State) :
    (sessionClosed x cause s).flow.sessions = s.flow.sessions := by
  simp [sessionClosed]

theorem closeSession_find (x : Session) (cause : Nat) (s : State) :
    (closeSession x cause s).flow.sessions.find? (isSession x.sid x.opener) = none := by
  rw [closeSession_sessions, List.find?_eq_none]
  intro y hy
  simpa using (List.mem_filter.mp hy).2

/-! ## Frames -/

section
variable {f : SessionFrame} {x : Session} {s : State}

/-! ### OPEN (R303) -/

theorem unknown_of_new (hnew : ∀ x ∈ s.flow.sessions, isSession f.sid f.openerUid x = false) :
    s.flow.sessions.any (isSession f.sid f.openerUid) = false := List.any_eq_false.mpr (by simpa using hnew)

section
variable (hkind : f.kind = 1) (hnew : ∀ x ∈ s.flow.sessions, isSession f.sid f.openerUid x = false)
include hkind hnew

/-- An OPEN of a session not known makes one while there is room. -/
theorem sessionIn_opened (hroom : s.flow.sessions.length < 32) :
    sessionIn f s = modFlow (fun w => { w with sessions := w.sessions ++ [{
      sid := f.sid, opener := f.openerUid, byIdentity := true, slot := 0, addr := f.srcAddr, vid := 0
      peerUid := f.openerUid, nextMsg := 0, out := [], inMsg := none, rxq := [] }] }) s := by
  simp [sessionIn, sessionOpened, hkind, unknown_of_new hnew, Nat.not_le.mpr hroom]

/-- An OPEN beyond the 32 sessions is refused, and no session changes. -/
theorem sessionIn_refused (hfull : 32 ≤ s.flow.sessions.length) : (sessionIn f s).flow.sessions = s.flow.sessions := by
  simp [sessionIn, sessionOpened, hkind, unknown_of_new hnew, hfull, sendSession_flow]

end

variable (hfind : s.flow.sessions.find? (isSession f.sid f.openerUid) = some x)

/-! ### DATA (R303) -/

/-- The first segment of a message, as it is kept. -/
def firstSegment (f : SessionFrame) : Message where
  number := f.msg
  bytes := f.payload
  last := false
  acked := 1
  sent := 0
  resends := []
  sentClk := 0

theorem takeSegment_first (hseg : f.seg = 0) : takeSegment f none = some (firstSegment f) := if_pos hseg

/-- What the first segment of a message makes of its session: kept, or, when it is the whole message, put up to be read. -/
def withFirstSegment (f : SessionFrame) (y : Session) : Session :=
  if f.msgLen.toNat ≤ f.payload.length then
    { y with inMsg := some { firstSegment f with bytes := [], last := true }
             rxq := y.rxq ++ [{ firstSegment f with last := true }] }
  else { y with inMsg := some (firstSegment f) }

theorem sessionData_first (hroom : x.rxq.length < 4) (hidle : x.inMsg = none) (hseg : f.seg = 0) :
    (sessionData x f s).flow = (modSession (isSession x.sid x.opener) (withFirstSegment f) s).flow := by
  simp only [sessionData, hidle, takeSegment_first hseg, Nat.not_le.mpr hroom]
  unfold withFirstSegment
  by_cases hwhole : f.msgLen.toNat ≤ f.payload.length
  · simp [firstSegment, hwhole, sendSession_flow]
  · simp [firstSegment, hwhole, sendSession_flow]

include hfind in
/-- A first segment changes the session it names, and that alone. -/
theorem sessionIn_first (hkind : f.kind = 2) (hroom : x.rxq.length < 4) (hidle : x.inMsg = none) (hseg : f.seg = 0) :
    (sessionIn f s).flow.sessions.find? (isSession f.sid f.openerUid) = some (withFirstSegment f x) := by
  obtain ⟨hsid, hopener⟩ := named_of_find hfind
  have hdata : sessionIn f s = sessionData x f s := by simp [sessionIn, hkind, hfind]
  rw [hdata, sessionData_first hroom hidle hseg, hsid, hopener]
  refine find_modSession (fun y => ?_) hfind
  unfold withFirstSegment
  split <;> rfl

/-! ### ACK (R303) -/

include hfind in
theorem pumpSession_idle (hout : x.out = []) : pumpSession f.sid f.openerUid s = s := by
  simp [pumpSession, hfind, hout]

include hfind in
/-- An ACK of the last segment of the only message ends it. -/
theorem sessionIn_acked {m : Message} (hkind : f.kind = 3) (hout : x.out = [m]) (hnum : m.number = f.msg)
    (hnot : m.acked ≤ f.msgLen.toNat) (hsent : f.msgLen.toNat < m.sent) (hall : segCount m ≤ f.msgLen.toNat + 1) :
    (sessionIn f s).flow.sessions.find? (isSession f.sid f.openerUid) = some { x with out := [] } := by
  obtain ⟨hsid, hopener⟩ := named_of_find hfind
  have hended : (modSession (isSession f.sid f.openerUid) (fun y => { y with out := [] }) s).flow.sessions.find?
      (isSession f.sid f.openerUid) = some { x with out := [] } := find_modSession (fun _ => rfl) hfind
  have hack : sessionIn f s = pumpSession f.sid f.openerUid (raise 0x0511 (leBytes 2 f.sid.toNat ++ leBytes 1 m.number.toNat)
      (modSession (isSession f.sid f.openerUid) (fun y => { y with out := [] }) s)) := by
    simp [sessionIn, sessionAck, hkind, hfind, hout, hnum, hsid, hopener, Nat.not_lt.mpr hnot, Nat.not_le.mpr hsent, hall]
  rw [hack, pumpSession_idle (x := { x with out := [] }) (by simpa using hended) rfl]
  simpa using hended

/-! ### CLOSE (R303) -/

include hfind in
theorem sessionIn_closed (hkind : f.kind = 4) :
    sessionIn f s = modFlow (fun w => { w with
      sessions := w.sessions.filter (fun y => !(isSession x.sid x.opener y)) }) s := by
  simp [sessionIn, hkind, hfind]

end

/-! ## Retransmission (R303) -/

section
variable {sid : BitVec 16} {o : BitVec 64} {x : Session} {m : Message} {ms : List Message} {s : State}
  (hfind : s.flow.sessions.find? (isSession sid o) = some x) (hout : x.out = m :: ms)
include hfind hout

theorem retransmit_not_due (hnot : m.sent ≤ m.acked ∨ s.clk < m.sentClk + 2 * macroT s) : retransmit sid o s = s := by
  simp only [retransmit, hfind, hout]
  exact if_pos (by simpa using hnot)

section
variable (hwaits : m.acked < m.sent) (hdue : m.sentClk + 2 * macroT s ≤ s.clk)
include hwaits hdue

theorem retransmit_again (hmay : ∀ n ∈ m.resends, n < 8) : retransmit sid o s =
    modSession (isSession sid o) (fun y => { y with out := resentOnce s.clk m :: ms }) (sendSegments x m m.acked m.sent s) := by
  have hfew : m.resends.any (fun n => 8 ≤ n) = false := List.any_eq_false.mpr (by simpa using hmay)
  simp [retransmit, hfind, hout, Nat.not_le.mpr hwaits, Nat.not_lt.mpr hdue, hfew]

theorem retransmit_gives_up (hspent : ∃ n ∈ m.resends, 8 ≤ n) :
    retransmit sid o s = sessionClosed x 1 (closeSession x 1 s) := by
  have hmany : m.resends.any (fun n => 8 ≤ n) = true := List.any_eq_true.mpr (by simpa using hspent)
  simp [retransmit, hfind, hout, Nat.not_le.mpr hwaits, Nat.not_lt.mpr hdue, hmany]

theorem retransmit_again_find (hmay : ∀ n ∈ m.resends, n < 8) :
    (retransmit sid o s).flow.sessions.find? (isSession sid o) = some { x with out := resentOnce s.clk m :: ms } := by
  rw [retransmit_again hfind hout hwaits hdue hmay]
  exact find_modSession (fun _ => rfl) (by rw [sendSegments_flow]; exact hfind)

end
end

/-! ## The commands -/

theorem exec_sessionRetransmit (dt : Nat) (sid : BitVec 16) (o : BitVec 64) (s : State) :
    exec (.sessionRetransmit dt sid o) s = .next (retransmit sid o (begin_ dt s)) := rfl

theorem exec_sessionFrameRx (dt : Nat) (p : Option (Fin 4)) (f : SessionFrame) (s : State) :
    exec (.sessionFrameRx dt p f) s = .next (sessionFrameIn (p.map (fun p => p.val)) f (begin_ dt s)) := rfl

section
variable {dt : Nat} {p : Fin 4} {f : SessionFrame} {s : State}

theorem sessionFrameIn_keptOut (h : portUp s p = false ∨ isBoundary s p = true) :
    sessionFrameIn (some p.val) f s = s := if_pos (by simpa [keptOut] using h)

theorem sessionFrameIn_stray (hup : portUp s p = true) (hinner : isBoundary s p = false) (hstray : straysNow p s = true) :
    sessionFrameIn (some p.val) f s = forwardLen p (.session f) (sessionLen f) (schedCount 9 s) := by
  simp [sessionFrameIn, sessionPass, keptOut, hup, hinner, hstray]

theorem sessionFrameIn_own (hup : portUp s p = true) (hinner : isBoundary s p = false) (hstray : straysNow p s = false) :
    sessionFrameIn (some p.val) f s =
      if forFabricNode f.dst s then fabOriginate (f.dst.toNat % 16) 3 (.session f) s else sessionIn f s := by
  simp [sessionFrameIn, keptOut, hup, hinner, hstray]

end

/-- R304: a frame from the fabric, or from a port whose traffic is taken and not for a fabric node, reaches the sessions. -/
theorem exec_sessionFrameRx_own {dt : Nat} {p : Option (Fin 4)} {f : SessionFrame} {s : State}
    (h : ∀ q : Fin 4, p = some q → OwnTraffic q dt s ∧ forFabricNode f.dst s = false) :
    exec (.sessionFrameRx dt p f) s = .next (sessionIn f (begin_ dt s)) := by
  rw [exec_sessionFrameRx]
  cases p with
  | none => rfl
  | some q =>
    obtain ⟨⟨hup, hinner, hstray⟩, hnode⟩ := h q rfl
    have hnode' : forFabricNode f.dst (begin_ dt s) = false := hnode
    rw [Option.map_some, sessionFrameIn_own (s := begin_ dt s) hup hinner hstray, hnode']
    rfl

end Sys2Proof.Machine
end

section
/-! PROOFS. The statements of spec/04_mash_schedule.md. -/

open Sys2Proof Sys2Proof.Machine

/-- Settles O4: each clause names what the chapter answers (`sched…Body_…`, `schedActivateFull_…`), and `does`, `does_plain` and
`queues_plain` bring the answer to its mailbox. -/
theorem schedCommandsComplete : Obligations.SchedCommandsComplete := by
  intro dt r s
  refine ⟨?_, ?_, ?_, ?_, ?_, ?_, ?_, ?_, ?_⟩
  · intro h
    exact does_plain h rfl rfl rfl (mbx_of_is fun mb => by simp)
  · intro h hzero hmin hmax hword
    refine does h rfl (schedStageBody_accepted (by simp [hzero]) hmin hmax hword (by omega)) (mbx_of_is fun mb => by simp) ?_
    simp only [hzero, if_true, Nat.zero_max, Nat.zero_add]
    rfl
  · intro h hoff halign hmin hmax hword hfits
    refine does h rfl (schedStageBody_accepted halign hmin hmax hword hfits) (mbx_of_is fun mb => by simp) ?_
    simp only [if_neg hoff]
    rfl
  · intro h hsound
    refine does h rfl ((schedVerifyBody_sound (by simpa using hsound)).trans ?_) (mbx_of_is fun mb => by simp) rfl
    simp
  · intro h _ hfirst hroom
    exact queues_plain h hroom rfl rfl (schedHoldBody_first (by simpa using hfirst)) rfl
  · intro im h hst him
    exact does h rfl (schedActivateFull_steep (by simpa using hst) (by simpa using him)) (mbx_of_is fun mb => by simp) rfl
  · intro im h hst him
    exact does h rfl (schedActivateFull_held (by simpa using hst) (by simpa using him)) rfl rfl
  · intro h hst hfirst hroom
    exact queues_plain h hroom rfl rfl (schedReleaseBody_first (by simpa using hst) (by simpa using hfirst)) rfl
  · intro im e h hrun hentry
    exact does_plain h rfl rfl (schedEntryStatusBody_listed (by simpa using hrun) hentry) (mbx_of_is fun mb => by simp)

/-- Settles O25: each clause names the branch its command takes (`sessionFrameIn_…`, `sessionIn_…`, `retransmit_…`); what stands
of the session named is found after it by `find_modSession`, a send leaving the sessions alone. -/
theorem sessionFramesComplete : Obligations.SessionFramesComplete := by
  intro dt s
  refine ⟨?_, ?_, ?_, ?_, ?_, ?_, ?_, ?_, ?_, ?_, ?_, ?_⟩
  · exact fun p f h => congrArg Host.Outcome.next (sessionFrameIn_keptOut (s := begin_ dt s) h)
  · exact fun p f hup hinner hstray =>
      congrArg Host.Outcome.next (sessionFrameIn_stray (s := begin_ dt s) hup hinner hstray)
  · intro p f ⟨hup, hinner, hstray⟩ hnode
    exact congrArg Host.Outcome.next ((sessionFrameIn_own (s := begin_ dt s) hup hinner hstray).trans (if_pos hnode))
  · intro p f hown hkind hnew hroom
    rw [exec_sessionFrameRx_own hown, sessionIn_opened (s := begin_ dt s) hkind hnew hroom]
  · exact fun p f hown hkind hnew hfull =>
      ⟨_, exec_sessionFrameRx_own hown, sessionIn_refused (s := begin_ dt s) hkind hnew hfull⟩
  · intro p f x hown hkind hfind hroom hidle hseg hpart
    refine ⟨_, exec_sessionFrameRx_own hown, _, sessionIn_first (s := begin_ dt s) hfind hkind hroom hidle hseg, ?_⟩
    rw [withFirstSegment, if_neg (Nat.not_le.mpr hpart)]
    exact ⟨rfl, rfl⟩
  · intro p f x hown hkind hfind hroom hidle hseg hwhole
    refine ⟨_, exec_sessionFrameRx_own hown, _, sessionIn_first (s := begin_ dt s) hfind hkind hroom hidle hseg, ?_⟩
    rw [withFirstSegment, if_pos hwhole]
    rfl
  · exact fun p f x m hown hkind hfind hout hnum hnot hsent hall => ⟨_, exec_sessionFrameRx_own hown, _,
      sessionIn_acked (s := begin_ dt s) hfind hkind hout hnum hnot hsent hall, rfl⟩
  · intro p f x hown hkind hfind
    rw [exec_sessionFrameRx_own hown, sessionIn_closed (s := begin_ dt s) hfind hkind]
  · exact fun sid o x m ms hfind hout hwaits hmay hdue => ⟨_, exec_sessionRetransmit dt sid o s, _,
      retransmit_again_find (s := begin_ dt s) hfind hout hwaits hdue hmay, rfl⟩
  · intro sid o x m ms hfind hout hwaits hspent hdue
    obtain ⟨hsid, hopener⟩ := named_of_find hfind
    have hexec : exec (.sessionRetransmit dt sid o) s = .next (sessionClosed x 1 (closeSession x 1 (begin_ dt s))) :=
      congrArg Host.Outcome.next (retransmit_gives_up (s := begin_ dt s) hfind hout hwaits hdue hspent)
    refine ⟨hexec, _, hexec, ?_⟩
    rw [sessionClosed_sessions, ← hsid, ← hopener]
    exact closeSession_find x 1 _
  · exact fun sid o x m ms hfind hout hnot =>
      congrArg Host.Outcome.next (retransmit_not_due (s := begin_ dt s) hfind hout hnot)

end

section
/-! PROOFS. The TIME commands (spec/05): what the subject chapter answers, case by case. -/

namespace Sys2Proof.Machine

/-! ## Bodies (R246, R248, R249, R260) -/

section
variable {r : Ring} {s : State}

theorem timeSetBody_steep (hst : s.ina.st = .steep) (hns : fieldAt r.req 6 4 < 1000000000) :
    timeSetBody r s = (done [], setTimeState .free (stepCount ((timeOf r.req : Int) - s.now) (heldGen s) s)) := by
  simp [timeSetBody, (inSteep_iff s).mpr hst, Nat.not_le.mpr hns]

theorem timePtpConfigBody_accepted (hinst : byteAt r.req 0 ≤ 1) (hrole : byteAt r.req 1 ≤ 3) (hdomain : byteAt r.req 2 ≤ 127)
    (hsync : byteAt r.req 5 = 0 ∨ 249 ≤ byteAt r.req 5) :
    timePtpConfigBody r s = (queued (byteAt r.req 0), modPtp (byteAt r.req 0) (fun i => { i with
      pending := some (BitVec.ofNat 8 (byteAt r.req 1), BitVec.ofNat 7 (byteAt r.req 2), BitVec.ofNat 8 (byteAt r.req 3),
        BitVec.ofNat 8 (byteAt r.req 4), BitVec.ofNat 8 (byteAt r.req 5), BitVec.ofNat 16 (fieldAt r.req 6 2)) }) s) := by
  have hsync' : ¬ (byteAt r.req 5 ≠ 0 ∧ byteAt r.req 5 < 249) := by omega
  simp only [timePtpConfigBody, Bool.and_eq_true, decide_eq_true_eq, if_neg hsync',
    if_neg (Nat.not_le.mpr (Nat.lt_succ_of_le hinst)), if_neg (Nat.not_le.mpr (Nat.lt_succ_of_le hrole)),
    if_neg (Nat.not_le.mpr (Nat.lt_succ_of_le hdomain))]

theorem timeDomainPolicyBody_accepted (hpolicy : byteAt r.req 0 ≤ 3) (hreaction : byteAt r.req 1 ≤ 1)
    (hbound : fieldAt r.req 2 2 = 0 ∨ 20 ≤ fieldAt r.req 2 2 ∧ fieldAt r.req 2 2 ≤ 10000) :
    timeDomainPolicyBody r s = (done [], selectDomain (modTime (fun t => { t with
      policy := BitVec.ofNat 8 (byteAt r.req 0), reaction := BitVec.ofNat 8 (byteAt r.req 1)
      bound := if fieldAt r.req 2 2 = 0 then 200 else fieldAt r.req 2 2 }) s)) := by
  have hbound' : ¬ (fieldAt r.req 2 2 ≠ 0 ∧ (fieldAt r.req 2 2 < 20 ∨ 10000 < fieldAt r.req 2 2)) := by omega
  simp only [timeDomainPolicyBody, Bool.and_eq_true, Bool.or_eq_true, decide_eq_true_eq, if_neg hbound',
    if_neg (Nat.not_le.mpr (Nat.lt_succ_of_le hpolicy)), if_neg (Nat.not_le.mpr (Nat.lt_succ_of_le hreaction))]

theorem timeSteerBody_accepted (h : byteAt r.req 0 ≤ 1) :
    timeSteerBody r s = (done [], modTime (fun t => { t with steer := byteAt r.req 0 == 1 }) s) :=
  if_neg (Nat.not_le.mpr (Nat.lt_succ_of_le h))

theorem timePtpStatusBody_accepted (h : byteAt r.req 0 ≤ 1) :
    timePtpStatusBody r s = (done (ptpRecord (byteAt r.req 0) s),
      if clearAsked r.req 1 then modPtp (byteAt r.req 0) (fun i => { i with ctr := ctrClear i.ctr }) s else s) :=
  if_neg (Nat.not_le.mpr (Nat.lt_succ_of_le h))

end

end Sys2Proof.Machine
end

section
/-! PROOFS. The oscillator monitor (spec/05): a stopped TCXO, and what an entry to steep makes of the time unit. -/

namespace Sys2Proof.Machine

/-! ## The time unit's state (R232) -/

theorem setTimeState_tcxo (n : TimeSt) (s : State) : (setTimeState n s).time.tcxo = s.time.tcxo := by
  unfold setTimeState
  split
  · rfl
  · cases n <;> simp [holdFreq]

theorem setTimeState_ina (n : TimeSt) (s : State) : (setTimeState n s).ina = s.ina := by
  have h : OnlyWrites [.now, .emit, .cmd, .time, .flow, .vec] s (setTimeState n s) := by simp [onlyWrites_refl]
  exact h .ina (by decide)

/-- Free runs on the ring oscillator. -/
theorem setTimeState_free {s : State} (hsource : s.time.source = 3) :
    (setTimeState .free s).time.st = .free ∧ (setTimeState .free s).time.source = 3 := by
  by_cases h : s.time.st = .free
  · simp [setTimeState, h, hsource]
  · simp [setTimeState, h]

theorem leaveMaster_tcxo (s : State) : (leaveMaster s).time.tcxo = s.time.tcxo := by
  unfold leaveMaster
  split
  · exact setTimeState_tcxo _ _
  · rfl

theorem leaveMaster_ina (s : State) : (leaveMaster s).ina = s.ina := by
  unfold leaveMaster
  split
  · exact setTimeState_ina _ _
  · rfl

/-! ## Entry to steep (R123) -/

/-- What writes nothing of the time unit leaves the oscillator as it is. -/
theorem tcxo_of_keeps {w : List Block} {s t : State} (h : OnlyWrites w s t) (hw : Block.time ∉ w) :
    t.time.tcxo = s.time.tcxo := by
  have hrest : { t.time with carry := 0 } = { s.time with carry := 0 } := h .time hw
  exact (congrArg Time.tcxo hrest :)

theorem tioGateAtInstant_tcxo (n : Nat) (s : State) : (tioGateAtInstant n s).time.tcxo = s.time.tcxo := by
  simp only [tioGateAtInstant, tioDrive, apply_ite (fun t : State => t.time.tcxo), emit_frame, modTio_time, ite_self]

theorem setRole_tcxo (new : Role) (cause : Nat) (s : State) : (setRole new cause s).time.tcxo = s.time.tcxo :=
  tcxo_of_keeps (w := [.emit, .cmd, .flow, .twin, .vec]) (by simp [onlyWrites_refl]) (by decide)

theorem finishQueued_tcxo (p : Queued → Bool) (status : Nat) (s : State) :
    (finishQueued p status s).time.tcxo = s.time.tcxo :=
  tcxo_of_keeps (w := [.emit, .cmd, .flow, .vec]) (by simp [onlyWrites_refl]) (by decide)

theorem twinLeave_tcxo (s : State) : (twinLeave s).time.tcxo = s.time.tcxo := by
  unfold twinLeave
  split
  · rfl
  · rw [forEach_keeps (fun s => s.time.tcxo) _ tioGateAtInstant_tcxo, setRole_tcxo, finishQueued_tcxo]
    rfl

theorem twinLeave_ina (s : State) : (twinLeave s).ina = s.ina := by
  have h : OnlyWrites [.now, .emit, .cmd, .time, .flow, .twin, .vec] s (twinLeave s) := by simp [onlyWrites_refl]
  exact h .ina (by decide)

theorem trunkEnterSteep_keeps (s : State) : OnlyWrites [.emit, .cmd, .trunk, .flow, .vec] s (trunkEnterSteep s) := by
  simp [onlyWrites_refl]

theorem trunkEnterSteep_tcxo (s : State) : (trunkEnterSteep s).time.tcxo = s.time.tcxo :=
  tcxo_of_keeps (trunkEnterSteep_keeps s) (by decide)

theorem trunkEnterSteep_ina (s : State) : (trunkEnterSteep s).ina = s.ina := trunkEnterSteep_keeps s .ina (by decide)

theorem steepQueues_time (s : State) :
    (forEach (List.range 4) (fun p s => modPort p steepQueues s) s).time = s.time :=
  forEach_keeps (fun s => s.time) (fun p => modPort p steepQueues) (fun _ _ => rfl) _ s

theorem steepQueues_ina (s : State) :
    (forEach (List.range 4) (fun p s => modPort p steepQueues s) s).ina = s.ina :=
  forEach_keeps (fun s => s.ina) (fun p => modPort p steepQueues) (fun _ _ => rfl) _ s

theorem mismatchOnce_tcxo (p : Nat) (s : State) : (mismatchOnce p s).time.tcxo = s.time.tcxo :=
  tcxo_of_keeps (w := [.emit, .cmd, .ina, .flow, .vec]) (by simp [onlyWrites_refl]) (by decide)

theorem mismatchOnce_st (p : Nat) (s : State) : (mismatchOnce p s).ina.st = s.ina.st := by
  simp only [mismatchOnce, mismatchEvent, apply_ite (fun t : State => t.ina.st), raise_frame, modIna_ina, ite_self]

theorem leaveMaster_if_tcxo (c : Bool) (s : State) : (if c then leaveMaster s else s).time.tcxo = s.time.tcxo := by
  cases c
  · rfl
  · exact leaveMaster_tcxo s

theorem leaveMaster_if_ina (c : Bool) (s : State) : (if c then leaveMaster s else s).ina = s.ina := by
  cases c
  · rfl
  · exact leaveMaster_ina s

theorem enterSteep_tcxo (s : State) : (enterSteep s).time.tcxo = s.time.tcxo := by
  unfold enterSteep
  dsimp only
  split
  · rw [trunkEnterSteep_tcxo, twinLeave_tcxo, steepQueues_time, leaveMaster_if_tcxo]
    rfl
  · rw [mismatchOnce_tcxo, trunkEnterSteep_tcxo, twinLeave_tcxo, steepQueues_time, leaveMaster_if_tcxo]
    rfl

theorem enterSteep_st (s : State) : (enterSteep s).ina.st = .steep := by
  unfold enterSteep
  dsimp only
  split
  · rw [trunkEnterSteep_ina, twinLeave_ina, steepQueues_ina, leaveMaster_if_ina]
    rfl
  · rw [mismatchOnce_st, trunkEnterSteep_ina, twinLeave_ina, steepQueues_ina, leaveMaster_if_ina]
    rfl

/-! ## TCXO_STOP (R234) -/

/-- The state of a node whose oscillator has just stopped: the fault reported, the unit in Free on the ring oscillator. -/
def onRing (s : State) : State :=
  setTimeState .free (raise 0x0402 (leBytes 1 3) (modTime (fun t => { t with tcxo := false, source := 3 }) s))

theorem onRing_time (s : State) :
    (onRing s).time.tcxo = false ∧ (onRing s).time.source = 3 ∧ (onRing s).time.st = .free := by
  obtain ⟨hst, hsource⟩ := setTimeState_free
    (s := raise 0x0402 (leBytes 1 3) (modTime (fun t => { t with tcxo := false, source := 3 }) s)) (by simp)
  exact ⟨(setTimeState_tcxo _ _).trans (by simp), hsource, hst⟩

theorem onRing_ina (s : State) : (onRing s).ina = s.ina := (setTimeState_ina _ _).trans (by simp)

theorem joined_congr {s t : State} (h : t.ina = s.ina) : joined t = joined s := by unfold joined; rw [h]

theorem inProvLead_congr {s t : State} (h : t.ina = s.ina) : inProvLead t = inProvLead s := by unfold inProvLead; rw [h]

section
variable {dt : Nat} {s : State}

theorem exec_tcxoStop_running (h : s.time.tcxo = true) : exec (.tcxoStop dt) s = .next
    (if joined s || inProvLead s then enterSteep (onRing (begin_ dt s)) else onRing (begin_ dt s)) := by
  have hina : (onRing (begin_ dt s)).ina = s.ina := onRing_ina _
  change execTcxoStop dt s = _
  simp only [execTcxoStop, begin__frame, h, Bool.not_true, Bool.false_eq_true, if_false]
  change Host.Outcome.next (if joined (onRing (begin_ dt s)) || inProvLead (onRing (begin_ dt s)) then
    enterSteep (onRing (begin_ dt s)) else onRing (begin_ dt s)) = _
  rw [joined_congr hina, inProvLead_congr hina]

theorem exec_tcxoStop_stopped (h : s.time.tcxo = false) : exec (.tcxoStop dt) s = .next (begin_ dt s) := by
  change execTcxoStop dt s = _
  simp [execTcxoStop, h]

end

end Sys2Proof.Machine
end

section
/-! PROOFS. PTP units (spec/05): an operation on one unit leaves the other alone, and what a Sync, an Announce, a timeout and a
send make of the unit they name. -/

namespace Sys2Proof.Machine

/-! ## One unit at a time -/

theorem ptpOf_congr {s t : State} (h : t.time.ptp = s.time.ptp) (d : Nat) : ptpOf t d = ptpOf s d := by simp [ptpOf, h]

theorem ptpOf_modPtp_self {d : Nat} {s : State} (f : PtpInst → PtpInst) (h : d < s.time.ptp.length) :
    ptpOf (modPtp d f s) d = f (ptpOf s d) := getD_updAt_self _ _ _ _ h

theorem ptpOf_modPtp_ne {d e : Nat} (f : PtpInst → PtpInst) (s : State) (h : d ≠ e) :
    ptpOf (modPtp d f s) e = ptpOf s e := getD_updAt_ne _ _ _ _ _ h

@[simp] theorem modPtp_length (d : Nat) (f : PtpInst → PtpInst) (s : State) :
    (modPtp d f s).time.ptp.length = s.time.ptp.length := updAt_length _ _ _

theorem selectDomain_ptp (s : State) : (selectDomain s).time.ptp = s.time.ptp := by
  unfold selectDomain switchDomain
  split
  · rfl
  · simp only [apply_ite (fun t : State => t.time.ptp), raise_frame, modTime_time, ite_self]

@[simp] theorem ptpOf_selectDomain (s : State) (d : Nat) : ptpOf (selectDomain s) d = ptpOf s d :=
  ptpOf_congr (selectDomain_ptp s) d

theorem selectDomain_ports (s : State) : (selectDomain s).swc = s.swc := by
  have h : OnlyWrites [.now, .emit, .cmd, .time, .flow, .vec] s (selectDomain s) := by simp [onlyWrites_refl]
  exact h .swc (by decide)

@[simp] theorem ptpOf_emit (e : Emission) (s : State) (d : Nat) : ptpOf (emit e s) d = ptpOf s d :=
  ptpOf_congr (by simp) d

theorem ptpOf_emits (es : List Emission) (s : State) (d : Nat) : ptpOf (emits es s) d = ptpOf s d :=
  forEach_keeps (fun s => ptpOf s d) emit (fun e s => ptpOf_emit e s d) es s

@[simp] theorem ptpOf_takeFree (n : Nat) (s : State) (d : Nat) : ptpOf (takeFree n s).2 d = ptpOf s d := rfl

/-- A PTP unit and the consist ports decide together on which ports the unit takes part. -/
theorem ptpOn_congr {i : PtpInst} {domain : BitVec 7} {port : Nat} {s t : State} (h : t.swc = s.swc) :
    ptpOn i domain port t = ptpOn i domain port s := by simp [ptpOn, ptpPort, swOf, h]

theorem ptpSlave_congr {d port : Nat} {domain : BitVec 7} {s t : State} (hinst : ptpOf t d = ptpOf s d) (hports : t.swc = s.swc) :
    ptpSlave d port domain t = ptpSlave d port domain s := by simp only [ptpSlave, hinst, ptpOn_congr hports]

/-! ## The servo (R245) -/

theorem ptpServo_other {d e : Nat} (h : d ≠ e) (offset rate : Int) (s : State) :
    ptpOf (ptpServo d offset rate s) e = ptpOf s e := by
  simp only [ptpServo, apply_ite (fun t : State => ptpOf t e), ptpOf_selectDomain, ptpOf_modPtp_ne _ _ h, ptpOf_takeFree, ite_self]

theorem ptpServo_ports (d : Nat) (offset rate : Int) (s : State) : (ptpServo d offset rate s).swc = s.swc := by
  have h : OnlyWrites [.now, .free, .emit, .cmd, .time, .flow, .vec] s (ptpServo d offset rate s) := by simp [onlyWrites_refl]
  exact h .swc (by decide)

/-- Wherever the free value puts the servo, no more of the residual is left than there was. -/
theorem servo_residual_le (res : Int) {k : Nat} (hk : k ≤ res.natAbs) :
    (res - if res < 0 then -(k : Int) else k).natAbs ≤ res.natAbs := by
  split <;> omega

section
variable {d : Nat} {offset rate : Int} {s : State} (hd : d < s.time.ptp.length) (hfree : (ptpOf s d).locked = false)
include hd hfree

/-- A unit that has taken no Sync yet takes the offset whole. -/
theorem ptpServo_first (hnew : (ptpOf s d).primed = false) :
    ptpOf (ptpServo d offset rate s) d = { ptpOf s d with
      offset := offset, rate := rate, primed := true, good := 0, state := 2, ctr := ctrInc (ptpOf s d).ctr 0 } := by
  simp [ptpServo, hnew, hfree, ptpOf_modPtp_self _ (show d < (takeFree _ s).2.time.ptp.length from hd)]

/-- The sixteenth small residual in a row locks the unit. -/
theorem ptpServo_locks (hprimed : (ptpOf s d).primed = true) (hgood : (ptpOf s d).good = 15)
    (hnear : (offset - (ptpOf s d).offset).natAbs ≤ nsT 100) :
    (ptpOf (ptpServo d offset rate s) d).locked = true ∧ (ptpOf (ptpServo d offset rate s) d).state = 3 ∧
    (ptpOf (ptpServo d offset rate s) d).lockClk = s.clk := by
  have hk : (takeFree ((offset - (ptpOf s d).offset).natAbs + 1) s).1 ≤ (offset - (ptpOf s d).offset).natAbs :=
    Nat.le_of_lt_succ (Nat.mod_lt _ (Nat.succ_pos _))
  have hleft := (servo_residual_le _ hk).trans hnear
  simp only [ptpServo, hprimed, hfree, hgood, hleft, Bool.not_true, Bool.false_eq_true, if_false, decide_true, Bool.and_self,
    if_true]
  simp [ptpOf_modPtp_self _ (show d < (takeFree _ s).2.time.ptp.length from hd)]

end

/-! ## Syncs (R242) -/

section
variable {d port : Nat} {pin origin corr rate link : Int} {s : State}

theorem ptpTake_other {e : Nat} (h : d ≠ e) : ptpOf (ptpTake d port pin origin corr rate s) e = ptpOf s e := by
  unfold ptpTake
  split
  · rfl
  · rw [ptpServo_other h, ptpOf_modPtp_ne _ _ h]

theorem ptpTake_ports : (ptpTake d port pin origin corr rate s).swc = s.swc := by
  unfold ptpTake
  split
  · rfl
  · exact ptpServo_ports _ _ _ _

section
variable (hlink : s.time.links.getD port none = some link) (hd : d < s.time.ptp.length) (hfree : (ptpOf s d).locked = false)
include hlink hd hfree

/-- The first Sync a unit takes. -/
theorem ptpTake_first (hnew : (ptpOf s d).primed = false) :
    ptpOf (ptpTake d port pin origin corr rate s) d = { ptpOf s d with
      offset := origin + corr + link - pin, rate := rate, primed := true, good := 0, state := 2, waiting := none
      last := some (origin, corr + link, pin), ctr := ctrInc (ptpOf s d).ctr 0 } := by
  have hinst := ptpOf_modPtp_self (fun i => { i with waiting := none, last := some (origin, corr + link, pin) }) hd
  simp only [ptpTake, hlink]
  rw [ptpServo_first (by simpa using hd) (by simpa [hinst] using hfree) (by simpa [hinst] using hnew), hinst]

theorem ptpTake_locks (hprimed : (ptpOf s d).primed = true) (hgood : (ptpOf s d).good = 15)
    (hnear : (origin + corr + link - pin - (ptpOf s d).offset).natAbs ≤ nsT 100) :
    (ptpOf (ptpTake d port pin origin corr rate s) d).locked = true ∧
    (ptpOf (ptpTake d port pin origin corr rate s) d).state = 3 ∧
    (ptpOf (ptpTake d port pin origin corr rate s) d).lockClk = s.clk := by
  have hinst := ptpOf_modPtp_self (fun i => { i with waiting := none, last := some (origin, corr + link, pin) }) hd
  simp only [ptpTake, hlink]
  exact ptpServo_locks (by simpa using hd) (by simpa [hinst] using hfree) (by simpa [hinst] using hprimed)
    (by simpa [hinst] using hgood) (by simpa [hinst] using hnear)

end
end

section
variable {d port : Nat} {s : State}

theorem ptpSync_elsewhere {m : PtpSync} (h : ptpSlave d port m.domain s = false) : ptpSync d port m s = s := by
  simp [ptpSync, h]

theorem ptpSync_complete {m : PtpSync} (h : ptpSlave d port m.domain s = true) (hone : m.twoStep = false) :
    ptpSync d port m s = ptpTake d port (swPinRx port m.raw s) m.origin m.corr m.rate s := by
  simp [ptpSync, h, hone]

theorem ptpSync_waits {m : PtpSync} (h : ptpSlave d port m.domain s = true) (htwo : m.twoStep = true) :
    ptpSync d port m s = modPtp d (fun i => { i with waiting := some (port, m.seq, swPinRx port m.raw s) }) s := by
  simp [ptpSync, h, htwo]

variable {domain : BitVec 7} {seq : BitVec 16} {origin corr rate pin : Int}

theorem ptpFollowUp_elsewhere (h : ptpSlave d port domain s = false) :
    ptpFollowUp d port domain seq origin corr rate s = s := by
  unfold ptpFollowUp
  split
  · simp [h]
  · rfl

theorem ptpFollowUp_complete (h : ptpSlave d port domain s = true) (hwait : (ptpOf s d).waiting = some (port, seq, pin)) :
    ptpFollowUp d port domain seq origin corr rate s = ptpTake d port pin origin corr rate s := by
  simp [ptpFollowUp, h, hwait]

end

section
variable {dt : Nat} {p : Fin 16} {s : State}

/-- A Sync that only unit 0 follows. -/
theorem exec_ptpSyncRx_zero {m : PtpSync} {t : State} (hzero : ptpSync 0 p m (begin_ dt s) = t)
    (hinst : ptpOf t 1 = ptpOf s 1) (hports : t.swc = s.swc) (hother : ptpSlave 1 p m.domain s = false) :
    exec (.ptpSyncRx dt p (.sync m)) s = .next t := by
  change Host.Outcome.next (ptpSync 1 p m (ptpSync 0 p m (begin_ dt s))) = _
  rw [hzero, ptpSync_elsewhere ((ptpSlave_congr hinst hports).trans hother)]

theorem exec_ptpSyncRx_complete {m : PtpSync} (hslave : ptpSlave 0 p m.domain s = true)
    (hother : ptpSlave 1 p m.domain s = false) (hone : m.twoStep = false) :
    exec (.ptpSyncRx dt p (.sync m)) s =
      .next (ptpTake 0 p (swPinRx p m.raw s) m.origin m.corr m.rate (begin_ dt s)) :=
  exec_ptpSyncRx_zero (ptpSync_complete (s := begin_ dt s) hslave hone) (ptpTake_other (by decide)) ptpTake_ports hother

theorem exec_ptpSyncRx_waits {m : PtpSync} (hslave : ptpSlave 0 p m.domain s = true)
    (hother : ptpSlave 1 p m.domain s = false) (htwo : m.twoStep = true) :
    exec (.ptpSyncRx dt p (.sync m)) s =
      .next (modPtp 0 (fun i => { i with waiting := some (p.val, m.seq, swPinRx p m.raw s) }) (begin_ dt s)) :=
  exec_ptpSyncRx_zero (ptpSync_waits (s := begin_ dt s) hslave htwo) (ptpOf_modPtp_ne _ _ (by decide)) rfl hother

theorem exec_ptpSyncRx_elsewhere {m : PtpSync} (hzero : ptpSlave 0 p m.domain s = false)
    (hone : ptpSlave 1 p m.domain s = false) : exec (.ptpSyncRx dt p (.sync m)) s = .next (begin_ dt s) :=
  exec_ptpSyncRx_zero (ptpSync_elsewhere (s := begin_ dt s) hzero) rfl rfl hone

/-- A Follow_Up of the Sync that waits in unit 0 alone. -/
theorem exec_ptpSyncRx_followUp {domain : BitVec 7} {seq : BitVec 16} {origin corr rate pin : Int}
    (hslave : ptpSlave 0 p domain s = true) (hother : ptpSlave 1 p domain s = false)
    (hwait : (ptpOf s 0).waiting = some (p.val, seq, pin)) :
    exec (.ptpSyncRx dt p (.followUp domain seq origin corr rate)) s =
      .next (ptpTake 0 p pin origin corr rate (begin_ dt s)) := by
  change Host.Outcome.next (ptpFollowUp 1 p domain seq origin corr rate
    (ptpFollowUp 0 p domain seq origin corr rate (begin_ dt s))) = _
  rw [ptpFollowUp_complete (s := begin_ dt s) hslave hwait, ptpFollowUp_elsewhere]
  exact (ptpSlave_congr (ptpTake_other (by decide)) ptpTake_ports).trans hother

theorem exec_ptpSyncRx_delayRequest {raw : Int} (h : ptpPort p s = true) :
    exec (.ptpSyncRx dt p (.pdelayReq raw)) s =
      .next (emit (.ptpDelayAnswer p (swPinRx p raw s) (swPinTx p (begin_ dt s).now s)) (begin_ dt s)) :=
  congrArg Host.Outcome.next (if_pos h)

theorem exec_ptpSyncRx_delayEnd {t1 t4 t2 t3 : Int} (h : ptpPort p s = true) :
    exec (.ptpSyncRx dt p (.pdelayEnd t1 t4 t2 t3)) s = .next (modTime (fun t => { t with
      links := updAt t.links p (fun _ => some (((swPinRx p t4 s - swPinTx p t1 s) - (t3 - t2)) / 2)) }) (begin_ dt s)) :=
  congrArg Host.Outcome.next (if_pos h)

end

/-! ## Announces and Signaling (R242, R243) -/

section
variable {d : Nat} {s : State}

theorem ptpMaster_other {e : Nat} (h : d ≠ e) : ptpOf (ptpMaster d s) e = ptpOf s e := by
  rw [ptpMaster, ptpOf_selectDomain, ptpOf_modPtp_ne _ _ h]

theorem ptpMaster_ports : (ptpMaster d s).swc = s.swc := selectDomain_ports _

theorem ptpMaster_inst (hd : d < s.time.ptp.length) :
    (ptpOf (ptpMaster d s) d).state = 4 ∧ (ptpOf (ptpMaster d s) d).locked = false := by
  rw [ptpMaster, ptpOf_selectDomain, ptpOf_modPtp_self _ hd]
  exact ⟨rfl, rfl⟩

variable {port : Nat} {a : PtpAnnounce}

theorem ptpFollow_other {e : Nat} (h : d ≠ e) : ptpOf (ptpFollow d port a s) e = ptpOf s e := by
  rw [ptpFollow, ptpOf_emit, ptpOf_selectDomain, ptpOf_modPtp_ne _ _ h]

theorem ptpFollow_ports : (ptpFollow d port a s).swc = s.swc := by
  simp [ptpFollow, selectDomain_ports, modPtp]

theorem ptpFollow_inst (hd : d < s.time.ptp.length) :
    (ptpOf (ptpFollow d port a s) d).state = 2 ∧ (ptpOf (ptpFollow d port a s) d).gm = a ∧
    (ptpOf (ptpFollow d port a s) d).locked = false := by
  rw [ptpFollow, ptpOf_emit, ptpOf_selectDomain, ptpOf_modPtp_self _ hd]
  exact ⟨rfl, rfl, rfl⟩

theorem ptpAnnounce_unheard (h : ptpOn (ptpOf s d) a.domain port s = false) : ptpAnnounce d port a s = s := by
  simp [ptpAnnounce, h]

theorem ptpSignaling_heard {domain : BitVec 7} {v : Byte} (h : ptpOn (ptpOf s d) domain port s = true) :
    ptpSignaling d port domain v s = modPtp d (fun i => { i with intervals := updAt i.intervals port (fun _ => v) }) s :=
  if_pos h

theorem ptpSignaling_unheard {domain : BitVec 7} {v : Byte} (h : ptpOn (ptpOf s d) domain port s = false) :
    ptpSignaling d port domain v s = s := if_neg (Bool.eq_false_iff.mp h)

section
variable (hon : ptpOn (ptpOf s d) a.domain port s = true) (hgm : a.gmId ≠ s.sys.uid)
include hon hgm

/-- A slave that listens follows the first grandmaster it hears. -/
theorem ptpAnnounce_first (hrole : (ptpOf s d).role = 2) (hst : (ptpOf s d).state = 1) :
    ptpAnnounce d port a s = ptpFollow d port a s := by
  simp [ptpAnnounce, hon, hgm, hrole, hst]

/-- A clock no better than the one a slave follows changes nothing. -/
theorem ptpAnnounce_no_better (hrole : (ptpOf s d).role = 2) (hst : (ptpOf s d).state = 3)
    (hnew : a.gmId ≠ (ptpOf s d).gm.gmId) (hkey : bmcaKey (ptpOf s d).gm ≤ bmcaKey a) : ptpAnnounce d port a s = s := by
  simp [ptpAnnounce, hon, hgm, hrole, hst, hnew.symm, hkey]

/-- A BMCA unit becomes grandmaster when the one it follows announces itself the worse clock. -/
theorem ptpAnnounce_worse (hrole : (ptpOf s d).role = 1) (hst : (ptpOf s d).state = 3)
    (hsame : a.gmId = (ptpOf s d).gm.gmId) (hport : ptpPortRole (ptpOf s d) port = 2)
    (hkey : bmcaKey (ownAnnounce (ptpOf s d) s) < bmcaKey a) : ptpAnnounce d port a s = ptpMaster d s := by
  simp [ptpAnnounce, hon, hgm, hrole, hst, ← hsame, hport, hkey]

end
end

section
variable {dt : Nat} {p : Fin 16} {s : State}

/-- An Announce that only unit 0 hears. -/
theorem exec_ptpAnnounceRx_zero {a : PtpAnnounce} {t : State} (hzero : ptpAnnounce 0 p a (begin_ dt s) = t)
    (hinst : ptpOf t 1 = ptpOf s 1) (hports : t.swc = s.swc) (hother : ptpOn (ptpOf s 1) a.domain p s = false) :
    exec (.ptpAnnounceRx dt p (.announce a)) s = .next t := by
  change Host.Outcome.next (ptpAnnounce 1 p a (ptpAnnounce 0 p a (begin_ dt s))) = _
  rw [hzero, ptpAnnounce_unheard (by rw [hinst, ptpOn_congr hports, hother])]

theorem exec_ptpAnnounceRx_signaling {domain : BitVec 7} {v : Byte} (hon : ptpOn (ptpOf s 0) domain p s = true)
    (hother : ptpOn (ptpOf s 1) domain p s = false) :
    exec (.ptpAnnounceRx dt p (.signaling domain v)) s =
      .next (modPtp 0 (fun i => { i with intervals := updAt i.intervals p (fun _ => v) }) (begin_ dt s)) := by
  change Host.Outcome.next (ptpSignaling 1 p domain v (ptpSignaling 0 p domain v (begin_ dt s))) = _
  rw [ptpSignaling_heard (s := begin_ dt s) hon, ptpSignaling_unheard]
  rw [ptpOf_modPtp_ne _ _ (by decide)]
  exact hother

end

/-! ## Timeouts (R245) -/

section
variable {d : Nat} {s : State} (hd : d < s.time.ptp.length)
include hd

/-- A slave that misses its Syncs leaves lock, and keeps the offset it has. -/
theorem ptpTimeout_sync (hrole : (ptpOf s d).role = 2) (hst : (ptpOf s d).state = 3) (hlock : (ptpOf s d).locked = true) :
    ptpOf (ptpTimeout d false s) d = { ptpOf s d with
      state := 5, primed := false, locked := false, good := 0, waiting := none, ctr := ctrInc (ptpOf s d).ctr 1 } := by
  simp [ptpTimeout, hrole, hst, hlock, ptpOf_modPtp_self _ hd]

/-- A slave that has lost its grandmaster before it locked listens again. -/
theorem ptpTimeout_announce (hrole : (ptpOf s d).role = 2) (hst : (ptpOf s d).state = 2)
    (hlock : (ptpOf s d).locked = false) :
    (ptpOf (ptpTimeout d true s) d).state = 1 ∧ (ptpOf (ptpTimeout d true s) d).locked = false := by
  simp [ptpTimeout, hrole, hst, hlock, ptpOf_modPtp_self _ hd]

end

theorem ptpTimeout_bmca {d : Nat} {s : State} (hrole : (ptpOf s d).role = 1) (hst : (ptpOf s d).state = 3) :
    ptpTimeout d true s = ptpMaster d s := by
  simp [ptpTimeout, hrole, hst]

/-! ## Sends (R242, R244) -/

section
variable {d : Fin 2} {s : State}

theorem ptpSend_silent {k : PtpKind} (h : (ptpOf s d).role = 0 ∨ ptpSendPorts (ptpOf s d) k s = []) : ptpSend d k s = s := by
  rcases h with h | h <;> simp [ptpSend, h]

section
variable (hrole : (ptpOf s d).role ≠ 0#8)
include hrole

theorem ptpSend_delay (hports : ptpSendPorts (ptpOf s d) .pdelay s ≠ []) :
    ptpSend d .pdelay s = emit (.ptpPdelay d (ptpSendPorts (ptpOf s d) .pdelay s) (ptpOf s d).domain) s := by
  simp [ptpSend, hrole, hports]

/-- A grandmaster announces itself. -/
theorem ptpSend_announce_master (hst : (ptpOf s d).state = 4) (hports : ptpSendPorts (ptpOf s d) .announce s ≠ []) :
    ptpSend d .announce s =
      emit (.ptpAnnounce d (ptpSendPorts (ptpOf s d) .announce s) (ownAnnounce (ptpOf s d) s)) s := by
  simp [ptpSend, hrole, hst, hports]

/-- A relay announces the grandmaster it follows, one step further. -/
theorem ptpSend_announce_relay (hst : (ptpOf s d).state = 3) (hports : ptpSendPorts (ptpOf s d) .announce s ≠ []) :
    ptpSend d .announce s = emit (.ptpAnnounce d (ptpSendPorts (ptpOf s d) .announce s)
      { (ptpOf s d).gm with stepsRemoved := (ptpOf s d).gm.stepsRemoved + 1 }) s := by
  simp [ptpSend, hrole, hst, hports]

variable {n : Nat} (hport : ptpSendPorts (ptpOf s d) .sync s = [n])
include hport

/-- A grandmaster's Sync carries consist time. -/
theorem ptpSend_sync_master (hst : (ptpOf s d).state = 4) :
    ptpSend d .sync s = ptpTwoStep d (fun t => (t + s.time.oOut, 0)) n s := by
  simp [ptpSend, hrole, hst, hport, forEach]

/-- A relay's Sync carries the origin it received, the residence added to the correction. -/
theorem ptpSend_sync_relay {origin corr pin : Int} (hst : (ptpOf s d).state = 3)
    (hlast : (ptpOf s d).last = some (origin, corr, pin)) :
    ptpSend d .sync s = ptpTwoStep d (fun t => (origin, corr + (t - pin))) n s := by
  simp [ptpSend, hrole, hst, hport, hlast, forEach]

end

/-- A Sync in two steps: the next number, in the message and in its Follow_Up. -/
theorem ptpTwoStep_sent {n : Nat} {stamp : Int → Int × Int} (hd : d.val < s.time.ptp.length) (hext : s.sys.extest = false) :
    (ptpOf (ptpTwoStep d stamp n s) d).txSeq = (ptpOf s d).txSeq + 1 ∧
    (ptpTwoStep d stamp n s).emit = s.emit ++
      [.ptpSync d n (ptpOf s d).domain ((ptpOf s d).txSeq + 1), .ptpFollowUp d n (ptpOf s d).domain
        ((ptpOf s d).txSeq + 1) (stamp (swPinTx n s.now s)).1 (stamp (swPinTx n s.now s)).2] := by
  have hinst := ptpOf_modPtp_self (fun i => { i with
    txSeq := i.txSeq + 1, syncClk := updAt i.syncClk n (fun _ => some s.clk) }) hd
  simp only [ptpTwoStep]
  rw [ptpOf_emits, hinst, emits_sent]
  · exact ⟨rfl, rfl⟩
  · exact hext

end

/-! ## The selected domain (R246) -/

theorem exec_domainReturnTimer_due {dt : Nat} {s : State} (hreturning : s.time.returning = true)
    (hlock : (ptpOf s 0).locked = true) (hlong : (ptpOf s 0).lockClk + secT 10 ≤ s.clk + dt) (hhold : suspectHold s = false) :
    exec (.domainReturnTimer dt) s = .next (switchDomain 0 (begin_ dt s)) := by
  have hinst : ptpOf (begin_ dt s) 0 = ptpOf s 0 := rfl
  have hhold' : suspectHold (begin_ dt s) = false := hhold
  change execDomainReturnTimer dt s = _
  simp [execDomainReturnTimer, hinst, hhold', hreturning, hlock, hlong]

theorem switchDomain_time (d : Fin 2) (s : State) : (switchDomain d s).time.selected = d ∧
    (switchDomain d s).time.slewing = true ∧ (switchDomain d s).time.returning = false := by
  simp [switchDomain]

end Sys2Proof.Machine
end

section
/-! PROOFS. Timed I/O (spec/05): pulse edges, captured edges, ARM and STOP at the port they name, and that they leave the other
ports alone. -/

namespace Sys2Proof.Machine

/-! ## One port at a time -/

theorem tioOf_congr {s t : State} (h : t.time.tio = s.time.tio) (n : Nat) : tioOf t n = tioOf s n := by simp [tioOf, h]

theorem Sound.tio_lt {s : State} (h : Sound s) (n : Fin 6) : n.val < s.time.tio.length := by rw [h.tio]; exact n.isLt

@[simp] theorem modTio_length (n : Nat) (f : Tio → Tio) (s : State) :
    (modTio n f s).time.tio.length = s.time.tio.length := updAt_length _ _ _

@[simp] theorem tioOf_emit (e : Emission) (s : State) (n : Nat) : tioOf (emit e s) n = tioOf s n :=
  tioOf_congr (by simp) n

@[simp] theorem tioOf_raise (code : Nat) (param : List Byte) (s : State) (n : Nat) : tioOf (raise code param s) n = tioOf s n :=
  tioOf_congr (by simp) n

@[simp] theorem tioOf_tioDrive (m : Nat) (asserted : Bool) (s : State) (n : Nat) : tioOf (tioDrive m asserted s) n = tioOf s n :=
  tioOf_emit _ _ _

@[simp] theorem tioOf_begin_ (dt : Nat) (s : State) (n : Nat) : tioOf (begin_ dt s) n = tioOf s n := rfl

/-- A port is driven at the level that its polarity gives, while EXTEST does not hold it. -/
theorem tioDrive_sent {s : State} {n : Fin 6} (hn : n.val < s.time.tio.length) (hext : s.sys.extest = false) (asserted : Bool)
    (f : Tio → Tio) :
    (tioDrive n asserted (modTio n f s)).emit = s.emit ++ [.tio n (asserted != (f (tioOf s n)).armPol)] := by
  rw [tioDrive, tioOf_modTio_self _ _ _ hn, Fin.ofNat_val_eq_self]
  exact emit_sent (s := modTio n f s) hext _

/-! ## Pulse edges (R251, R257) -/

@[simp] theorem tioPass_outputs (b : Nat) (t : Tio) :
    (tioPass b t).active = t.active ∧ (tioPass b t).gated = t.gated ∧ (tioPass b t).armed = t.armed ∧
    (tioPass b t).armPol = t.armPol := by
  simp only [tioPass, apply_ite Tio.active, apply_ite Tio.gated, apply_ite Tio.armed, apply_ite Tio.armPol, ite_self, and_self]

@[simp] theorem tioCome_outputs (at_ : Nat) (drives : Bool) (t : Tio) :
    (tioCome at_ drives t).active = t.active ∧ (tioCome at_ drives t).gated = t.gated ∧
    (tioCome at_ drives t).armed = t.armed ∧ (tioCome at_ drives t).armPol = t.armPol := by
  cases drives
  · exact tioPass_outputs _ _
  · exact ⟨rfl, rfl, rfl, rfl⟩

section
variable {n at_ : Nat} {s : State} (harmed : (tioOf s n).armed = true) (hmode : (tioOf s n).armMode = 1)
include harmed hmode

/-- START of a one-shot pulse comes while the gate is open. -/
theorem tioEdge_start (hstart : at_ = (tioOf s n).armStart) (hnew : (tioOf s n).driven = none)
    (hmay : tioMayDrive (tioOf s n) s = true) :
    tioEdge n at_ true s = tioDrive n true (modTio n (fun t => tioCome at_ true { t with
      gated := false, active := true, armed := t.armed }) s) := by
  simp [tioEdge, harmed, hmode, tioDue, hstart, tioDriven, hnew, hmay]

/-- START of a one-shot pulse is withheld while the gate is closed. -/
theorem tioEdge_gated (hstart : at_ = (tioOf s n).armStart) (hnew : (tioOf s n).driven = none)
    (hmay : tioMayDrive (tioOf s n) s = false) :
    tioEdge n at_ true s = modTio n (fun t => tioCome at_ false { t with
      gated := true, active := false, armed := t.armed }) s := by
  simp [tioEdge, harmed, hmode, tioDue, hstart, tioDriven, hnew, hmay]

/-- The end of a one-shot pulse disarms the port. -/
theorem tioEdge_end (hend : at_ = (tioOf s n).armStart + (tioOf s n).armWidth)
    (hlater : ∀ d, (tioOf s n).driven = some d → d < at_) (hactive : (tioOf s n).active = true) :
    tioEdge n at_ false s = tioDrive n false (modTio n (fun t => tioCome at_ (t.active || tioMayDrive (tioOf s n) s) { t with
      gated := !(tioMayDrive (tioOf s n) s), active := false, armed := false }) s) := by
  have hnot : tioDriven (tioOf s n) at_ = false := by
    cases hd : (tioOf s n).driven with
    | none => simp [tioDriven, hd]
    | some d => simp [tioDriven, hd, Nat.not_le.mpr (hlater d hd)]
  have hdue : tioDue (tioOf s n) at_ false = true := by simp [tioDue, hmode, hend]
  simp [tioEdge, harmed, hmode, hdue, hnot, hactive]

end

/-! ## Captured edges (R252, R255) -/

/-- The entry that a port `t` keeps of an edge, `k` being the free part of its timestamp. -/
def captureOf (at_ k : Nat) (rising : Bool) (t : Tio) (s : State) : Capture where
  time := nsT (at_ / 65536 + k - 20)
  rising := rising
  holdover := timeUnsure s
  stepped := t.stepMark

/-- Its timestamp lies within 20 ns of the count. -/
theorem captureOf_near (at_ : Nat) {k : Nat} (hk : k < 41) (rising : Bool) (t : Tio) (s : State) :
    nsT (at_ / 65536 - 20) ≤ (captureOf at_ k rising t s).time ∧
    (captureOf at_ k rising t s).time ≤ nsT (at_ / 65536 + 20) := by
  simp only [captureOf, nsT]
  omega

section
variable {n at_ width : Nat} {rising : Bool} {s : State} (harmed : (tioOf s n).armed = true)
  (hmode : (tioOf s n).armMode = 3) (hselect : tioSelects (tioOf s n) rising = true) (hwide : nsT 20 ≤ width)
  (hspaced : tioSpaced (tioOf s n) at_ = true)
include harmed hmode hselect hwide hspaced

theorem tioCapture_queued (hroom : (tioOf s n).fifo.length < 16) (m : Nat) :
    tioOf (tioCapture n at_ rising width s) m = tioOf (modTio n (fun t => { t with
      fifo := t.fifo ++ [captureOf at_ (takeFree 41 s).1 rising t s], stepMark := false, lastEdge := some at_ }) s) m := by
  simp only [tioCapture, harmed, hmode, hselect, hspaced, Nat.not_lt.mpr hwide, Nat.not_le.mpr hroom]
  rfl

theorem tioCapture_dropped (hfull : 16 ≤ (tioOf s n).fifo.length) (m : Nat) :
    tioOf (tioCapture n at_ rising width s) m =
      tioOf (modTio n (fun t => { t with dropping := true, lastEdge := some at_, ctr := ctrInc t.ctr 1 }) s) m := by
  simp only [tioCapture, harmed, hmode, hselect, hspaced, Nat.not_lt.mpr hwide, hfull]
  simp [apply_ite (fun t : State => tioOf t m)]

end

/-! ## Accesses that reach the port (R520, R523, R525) -/

theorem hostAccess_carried {dt addr : Nat} {src : Iface} {w : Option (BitVec 32)} {f : State → State} {s : State}
    (h : Accesses src addr s) : hostAccess dt src addr w f s = f (begin_ dt s) := by
  obtain ⟨hopen, hreach, hruns⟩ := h
  have hopen' : ifaceOpen src (begin_ dt s) = true := hopen
  have hreach' : reaches src addr (begin_ dt s) = true := hreach
  cases src with
  | pair l =>
    obtain ⟨hhalted, hlocked, hsplit, hrun⟩ := hruns l rfl
    have hpair : pairOf (begin_ dt s) l = pairOf s l := rfl
    simp [hostAccess, accessBy, hopen', hreach', hpair, hhalted, hlocked, hsplit, hrun]
  | _ => simp [hostAccess, accessBy, hopen', hreach']

/-! ## STOP (R259) -/

section
variable {n : Nat} {s : State}

theorem tioStop_inst (hn : n < s.time.tio.length) :
    tioOf (tioStop n s) n = { tioOf s n with armed := false, active := false, gated := false } := by
  simp only [tioStop, apply_ite (fun t : State => tioOf t n), tioOf_tioDrive, tioOf_modTio_self _ _ _ hn, ite_self]

theorem tioStop_other {m : Nat} (h : n ≠ m) : tioOf (tioStop n s) m = tioOf s m := by
  simp only [tioStop, apply_ite (fun t : State => tioOf t m), tioOf_tioDrive, tioOf_modTio_ne _ _ _ _ h, ite_self]

@[simp] theorem tioStop_length : (tioStop n s).time.tio.length = s.time.tio.length := by
  simp [tioStop, tioDrive, apply_ite (fun t : State => t.time)]

theorem tioStop_idle_emit (h : (tioOf s n).active = false) : (tioStop n s).emit = s.emit := by
  simp [tioStop, h]

end

/-- An output that is stopped while active goes to its inactive level. -/
theorem tioStop_active_emit {n : Fin 6} {s : State} (hn : n.val < s.time.tio.length) (h : (tioOf s n).active = true)
    (hext : s.sys.extest = false) : (tioStop n s).emit = s.emit ++ [.tio n (tioOf s n).armPol] := by
  have hlevel : (false != (tioOf s n).armPol) = (tioOf s n).armPol := Bool.false_bne _
  simp only [tioStop, h, if_true]
  rw [tioDrive_sent hn hext, hlevel]

/-! ## ARM (R253, R254) -/

section
variable {n : Nat} {s : State}

theorem tioLate_inst (m start : Nat) (s : State) : tioOf (tioLate m start s) n = tioOf s n := tioOf_raise _ _ _ _

theorem tioGateAtInstant_inst (hn : n < s.time.tio.length) :
    ∃ held active, tioOf (tioGateAtInstant n s) n = { tioOf s n with gated := held, active := active } := by
  simp only [tioGateAtInstant, apply_ite (fun t : State => tioOf t n), tioOf_tioDrive, tioOf_modTio_self _ _ _ hn, ite_self]
  exact ⟨_, _, rfl⟩

theorem tioGateAtInstant_other {m : Nat} (h : n ≠ m) : tioOf (tioGateAtInstant n s) m = tioOf s m := by
  simp only [tioGateAtInstant, apply_ite (fun t : State => tioOf t m), tioOf_tioDrive, tioOf_modTio_ne _ _ _ _ h, ite_self]

section
variable (hmode : (tioOf s n).mode = 1)
include hmode

theorem tioArm_late (hlate : tioStart (tioOf s n) < s.now + nsT 200) :
    tioArm n s = tioLate n (tioStart (tioOf s n)) (modTio n (fun t => { t with late := true }) (tioStop n s)) := by
  simp [tioArm, hmode, hlate]

/-- Whether or not its polarity changes, a port that is armed runs with the values present. -/
theorem tioArm_taken (htime : s.now + nsT 200 ≤ tioStart (tioOf s n)) :
    ∃ u : State, u.time = (modTio n (tioTake s.now) (tioStop n s)).time ∧ tioArm n s = tioGateAtInstant n u := by
  refine ⟨if (tioOf s n).pol != (tioOf s n).armPol then tioDrive n false (modTio n (tioTake s.now) (tioStop n s))
    else modTio n (tioTake s.now) (tioStop n s), ?_, ?_⟩
  · split
    · simp [tioDrive]
    · rfl
  · simp [tioArm, hmode, Nat.not_lt.mpr htime]

theorem tioArm_taken_other {m : Nat} (h : n ≠ m) (htime : s.now + nsT 200 ≤ tioStart (tioOf s n)) :
    tioOf (tioArm n s) m = tioOf s m := by
  obtain ⟨u, htaken, harm⟩ := tioArm_taken hmode htime
  rw [harm, tioGateAtInstant_other h, tioOf_congr (congrArg Time.tio htaken), tioOf_modTio_ne _ _ _ _ h, tioStop_other h]

variable (hn : n < s.time.tio.length)
include hn

/-- A one-shot whose START is less than 200 ns away is not armed. -/
theorem tioArm_late_inst (hlate : tioStart (tioOf s n) < s.now + nsT 200) :
    tioOf (tioArm n s) n = { tioOf s n with armed := false, active := false, gated := false, late := true } := by
  rw [tioArm_late hmode hlate, tioLate_inst, tioOf_modTio_self _ _ _ (by simpa using hn), tioStop_inst hn]

/-- A one-shot in time takes the values present. -/
theorem tioArm_taken_inst (htime : s.now + nsT 200 ≤ tioStart (tioOf s n)) :
    ∃ held active, tioOf (tioArm n s) n = { tioTake s.now { tioOf s n with armed := false, active := false, gated := false } with
      gated := held, active := active } := by
  obtain ⟨u, htaken, harm⟩ := tioArm_taken hmode htime
  have hlen : n < u.time.tio.length := by simpa [htaken] using hn
  obtain ⟨held, active, hinst⟩ := tioGateAtInstant_inst hlen
  refine ⟨held, active, ?_⟩
  rw [harm, hinst, tioOf_congr (congrArg Time.tio htaken), tioOf_modTio_self _ _ _ (by simpa using hn), tioStop_inst hn]

end
end

/-! ## Writes of TIO_CTRL (R259) -/

section
variable {n v : Nat} {s : State}

theorem tioCtrlWrite_arm (harm : v.testBit 8 = true) (hstop : v.testBit 9 = false) :
    tioCtrlWrite n v s = tioArm n (modTio n (tioSetCtrl v) s) := by
  simp [tioCtrlWrite, harm, hstop]

theorem tioCtrlWrite_stop (harm : v.testBit 8 = false) (hstop : v.testBit 9 = true) :
    tioCtrlWrite n v s = tioStop n (modTio n (tioSetCtrl v) s) := by
  simp [tioCtrlWrite, harm, hstop]

end

/-! ## Reading the capture register (R259) -/

theorem onPort_readData (src : Iface) (b : List Byte) : onPort (.readData src b) = false := rfl

/-- An answer to an interface is given whatever EXTEST holds (R620). -/
theorem emit_readData (src : Iface) (b : List Byte) (s : State) :
    (emit (.readData src b) s).emit = s.emit ++ [.readData src b] := by
  rw [emit, onPort_readData, Bool.and_false, if_neg Bool.false_ne_true]

section
variable {n : Nat} {src : Iface} {s : State}

theorem tioCapRead_emit : (tioCapRead n src s).emit =
    s.emit ++ [.readData src (leBytes 4 ((captureRegs (tioOf s n).fifo.head?).getD 0 0))] := by
  simp only [tioCapRead, tioCapTake]
  exact emit_readData _ _ _

theorem tioCapRead_tio (m : Nat) :
    tioOf (tioCapRead n src s) m = tioOf (modTio n (fun t => { t with fifo := t.fifo.drop 1, dropping := false }) s) m := by
  rw [tioCapRead, tioOf_emit]
  rfl

end

/-! ## The commands -/

section
variable {dt : Nat} {n : Fin 6} {src : Iface} {s : State}

/-- ARM of a one-shot of active-high polarity: MODE and POL are written, then the port is armed. -/
theorem exec_tioArm_oneShot (h : Accesses src (tioAddr n 0) s) : exec (.tioArm dt n src 0x101) s =
    .next (tioArm n (modTio n (tioSetCtrl 0x101) (begin_ dt s))) :=
  congrArg Host.Outcome.next ((hostAccess_carried h).trans (tioCtrlWrite_arm (by decide) (by decide)))

theorem exec_tioStop {v : BitVec 32} (h : Accesses src (tioAddr n 0) s) (hstop : v.getLsbD 9 = true)
    (harm : v.getLsbD 8 = false) :
    exec (.tioStop dt n src v) s = .next (tioStop n (modTio n (tioSetCtrl v.toNat) (begin_ dt s))) :=
  congrArg Host.Outcome.next ((hostAccess_carried h).trans (tioCtrlWrite_stop harm hstop))

theorem exec_tioCapRead (h : Accesses src (tioAddr n 0x30) s) :
    exec (.tioCapRead dt n src) s = .next (tioCapRead n src (begin_ dt s)) :=
  congrArg Host.Outcome.next (hostAccess_carried h)

end

end Sys2Proof.Machine
end

section
/-! PROOFS. The statements of spec/05_train_time.md. -/

open Sys2Proof Sys2Proof.Machine

/-- Settles O5: each clause names what the chapter answers (`time…Body_…`), and `does`, `does_plain` and `queues_plain` bring the
answer to its mailbox. -/
theorem timeCommandsComplete : Obligations.TimeCommandsComplete := by
  intro dt r s
  refine ⟨?_, ?_, ?_, ?_, ?_, ?_⟩
  · intro h
    exact does_plain h rfl rfl rfl (mbx_of_is fun mb => by simp)
  · intro h hst hns
    exact does_plain h rfl rfl (timeSetBody_steep (by simpa using hst) hns) (mbx_of_is fun mb => by simp)
  · intro h hinst hrole hdomain hsync hroom
    exact queues_plain h hroom rfl rfl (timePtpConfigBody_accepted hinst hrole hdomain hsync) rfl
  · intro h hpolicy hreaction hbound
    exact does h rfl (timeDomainPolicyBody_accepted hpolicy hreaction hbound) (mbx_of_is fun mb => by simp) rfl
  · intro h hsteer
    exact does h rfl (timeSteerBody_accepted hsteer) rfl rfl
  · intro h hinst
    exact does_plain h rfl rfl (timePtpStatusBody_accepted hinst) (mbx_of_is fun mb => by simp)

/-- Settles O26: each clause names the branch its command takes (`exec_tcxoStop_…`, `exec_ptpSyncRx_…`, `ptpAnnounce_…`,
`ptpTimeout_…`, `ptpSend_…`) and reads the unit off what the branch makes of it (`ptpTake_first`, `ptpTake_locks`, …). -/
theorem clockCommandsComplete : Obligations.ClockCommandsComplete := by
  intro dt s
  refine ⟨?_, ?_, exec_tcxoStop_stopped, rfl, ?_, ?_, fun p m => exec_ptpSyncRx_waits, ?_,
    fun p raw => exec_ptpSyncRx_delayRequest, fun p t1 t4 t2 t3 => exec_ptpSyncRx_delayEnd,
    fun p m => exec_ptpSyncRx_elsewhere, ?_, ?_, ?_, fun p dom v => exec_ptpAnnounceRx_signaling, ?_, ?_, ?_, ?_, ?_, ?_, ?_, ?_,
    ?_, ?_⟩
  · intro hrun hjoined hlead
    have hexec : exec (.tcxoStop dt) s = .next (onRing (begin_ dt s)) := by
      rw [exec_tcxoStop_running hrun, hjoined, hlead]
      rfl
    exact ⟨hexec, _, hexec, onRing_time _⟩
  · intro hrun hgroup
    refine ⟨_, exec_tcxoStop_running hrun, ?_⟩
    obtain ⟨htcxo, -, -⟩ := onRing_time (begin_ dt s)
    rw [if_pos (by simpa using hgroup)]
    exact ⟨(enterSteep_tcxo _).trans htcxo, enterSteep_st _⟩
  · intro p m link hslave hother hone hlink hnew hfree hd
    refine ⟨_, exec_ptpSyncRx_complete hslave hother hone, ?_⟩
    rw [ptpTake_first (s := begin_ dt s) hlink hd hfree hnew, ptpTake_other (by decide)]
    exact ⟨rfl, rfl, rfl, rfl, rfl, rfl, rfl⟩
  · intro p m link hslave hother hone hlink hprimed hfree hgood hnear hd
    exact ⟨_, exec_ptpSyncRx_complete hslave hother hone, ptpTake_locks (s := begin_ dt s) hlink hd hfree hprimed hgood hnear⟩
  · intro p dom q o c r pin link hslave hother hwait hlink hnew hfree hd
    refine ⟨_, exec_ptpSyncRx_followUp hslave hother hwait, ?_⟩
    rw [ptpTake_first (s := begin_ dt s) hlink hd hfree hnew]
    exact ⟨rfl, rfl, rfl, rfl⟩
  · intro p a hon hrole hgm hst hother hd
    exact ⟨_, exec_ptpAnnounceRx_zero (ptpAnnounce_first (s := begin_ dt s) hon hgm hrole hst) (ptpFollow_other (by decide))
      ptpFollow_ports hother, ptpFollow_inst hd⟩
  · intro p a hon hrole hgm hst hnew hkey hother
    exact exec_ptpAnnounceRx_zero (ptpAnnounce_no_better (s := begin_ dt s) hon hgm hrole hst hnew hkey) rfl rfl hother
  · intro p a hon hrole hgm hst hsame hport hkey hother hd
    exact ⟨_, exec_ptpAnnounceRx_zero (ptpAnnounce_worse (s := begin_ dt s) hon hgm hrole hst hsame hport hkey)
      (ptpMaster_other (by decide)) ptpMaster_ports hother, ptpMaster_inst hd⟩
  · intro d n hst hrole hport hd hext
    refine ⟨_, congrArg Host.Outcome.next (ptpSend_sync_master (s := begin_ dt s) hrole hport hst), ?_⟩
    exact ptpTwoStep_sent (s := begin_ dt s) hd hext
  · intro d n o c pin hst hrole hport hlast hd hext
    refine ⟨_, congrArg Host.Outcome.next (ptpSend_sync_relay (s := begin_ dt s) hrole hport hst hlast), ?_⟩
    exact ptpTwoStep_sent (s := begin_ dt s) hd hext
  · exact fun d hst hrole hports => congrArg Host.Outcome.next (ptpSend_announce_master (s := begin_ dt s) hrole hst hports)
  · exact fun d hst hrole hports => congrArg Host.Outcome.next (ptpSend_announce_relay (s := begin_ dt s) hrole hst hports)
  · exact fun d hrole hports => congrArg Host.Outcome.next (ptpSend_delay (s := begin_ dt s) hrole hports)
  · exact fun d k h => congrArg Host.Outcome.next (ptpSend_silent (s := begin_ dt s) h)
  · intro d hrole hst hlock hd
    refine ⟨_, rfl, ?_⟩
    rw [ptpTimeout_sync (s := begin_ dt s) hd hrole hst hlock]
    exact ⟨rfl, rfl, rfl, rfl⟩
  · exact fun d hrole hst hlock hd => ⟨_, rfl, ptpTimeout_announce (s := begin_ dt s) hd hrole hst hlock⟩
  · intro d hrole hst hd
    exact ⟨_, congrArg Host.Outcome.next (ptpTimeout_bmca (s := begin_ dt s) hrole hst), ptpMaster_inst hd⟩
  · intro hreturning hlock hlong hhold
    have hexec := exec_domainReturnTimer_due hreturning hlock hlong hhold
    exact ⟨hexec, _, hexec, switchDomain_time 0 _⟩

/-- Settles O27: each clause names what its command makes of the port (`tioEdge_…`, `tioCapture_…`, `tioArm_…`, `tioStop_…`,
`tioCapRead_…`), the access reaching the port by `hostAccess_carried`; the other ports stay by `tioOf_modTio_ne`. -/
theorem timedIoCommandsComplete : Obligations.TimedIoCommandsComplete := by
  intro dt n s hs
  have hn : n.val < (begin_ dt s).time.tio.length := (sound_begin_ hs dt).tio_lt n
  have hkeep : ∀ (f : Tio → Tio) (m : Fin 6), m ≠ n → tioOf (modTio n f (begin_ dt s)) m = tioOf s m :=
    fun f m hm => tioOf_modTio_ne _ _ _ _ (Fin.val_ne_of_ne hm.symm)
  have hctrl : ∀ v, tioOf (modTio n (tioSetCtrl v) (begin_ dt s)) n = tioSetCtrl v (tioOf s n) :=
    fun v => tioOf_modTio_self _ _ _ hn
  have hlen : ∀ v, n.val < (modTio n (tioSetCtrl v) (begin_ dt s)).time.tio.length := fun v => by simpa using hn
  refine ⟨?_, ?_, ?_, ?_, ?_, ?_, ?_, ?_, ?_, ?_⟩
  · intro at_ harmed hmode hstart hnew hmay hext
    refine ⟨_, congrArg Host.Outcome.next (tioEdge_start (s := begin_ dt s) harmed hmode hstart hnew hmay), ?_⟩
    rw [tioOf_tioDrive, tioDrive_sent (s := begin_ dt s) hn hext, tioOf_modTio_self _ _ _ hn]
    exact ⟨rfl, by simp [tioCome, hnew], by simp, harmed⟩
  · intro at_ harmed hmode hstart hnew hmay
    refine ⟨_, congrArg Host.Outcome.next (tioEdge_gated (s := begin_ dt s) harmed hmode hstart hnew hmay), ?_⟩
    rw [tioOf_modTio_self _ _ _ hn]
    simp
  · intro at_ harmed hmode hend hlater hactive hext
    refine ⟨_, congrArg Host.Outcome.next (tioEdge_end (s := begin_ dt s) harmed hmode hend hlater hactive), ?_⟩
    rw [tioOf_tioDrive, tioDrive_sent (s := begin_ dt s) hn hext, tioOf_modTio_self _ _ _ hn]
    simp
  · intro at_ r w harmed hmode hselect hwide hspaced hroom
    have hqueued := tioCapture_queued (s := begin_ dt s) harmed hmode hselect hwide hspaced hroom
    obtain ⟨hlow, hhigh⟩ := captureOf_near at_ (k := (takeFree 41 (begin_ dt s)).1) (Nat.mod_lt _ (by decide)) r (tioOf s n) s
    refine ⟨_, captureOf at_ (takeFree 41 (begin_ dt s)).1 r (tioOf s n) s, rfl, ?_⟩
    rw [hqueued, tioOf_modTio_self _ _ _ hn]
    exact ⟨rfl, rfl, hlow, hhigh, rfl, rfl, rfl, fun m hm => (hqueued m).trans (hkeep _ m hm)⟩
  · intro at_ r w harmed hmode hselect hwide hspaced hfull
    refine ⟨_, rfl, ?_⟩
    rw [tioCapture_dropped (s := begin_ dt s) harmed hmode hselect hwide hspaced hfull, tioOf_modTio_self _ _ _ hn]
    exact ⟨rfl, rfl, rfl⟩
  · intro src hacc hlate
    refine ⟨_, exec_tioArm_oneShot hacc, ?_⟩
    rw [tioArm_late_inst (by rw [hctrl]; rfl) (hlen _) (by rw [hctrl]; exact hlate), hctrl]
    exact ⟨rfl, rfl, rfl⟩
  · intro src hacc htime
    have hmode : (tioOf (modTio n (tioSetCtrl 0x101) (begin_ dt s)) n).mode = 1 := by rw [hctrl]; rfl
    have htime' : (begin_ dt s).now + nsT 200 ≤ tioStart (tioOf (modTio n (tioSetCtrl 0x101) (begin_ dt s)) n) := by
      rw [hctrl]; exact htime
    obtain ⟨held, active, hinst⟩ := tioArm_taken_inst hmode (hlen _) htime'
    refine ⟨_, exec_tioArm_oneShot hacc, ?_⟩
    rw [hinst, hctrl]
    exact ⟨rfl, rfl, rfl, rfl, rfl, rfl, fun m hm =>
      (tioArm_taken_other hmode (Fin.val_ne_of_ne hm.symm) htime').trans (hkeep _ m hm)⟩
  · intro src v hacc hstop harm hidle
    refine ⟨_, exec_tioStop hacc hstop harm, ?_⟩
    rw [tioStop_inst (hlen _), tioStop_idle_emit (by rw [hctrl]; exact hidle)]
    exact ⟨rfl, rfl, rfl, fun m hm => (tioStop_other (Fin.val_ne_of_ne hm.symm)).trans (hkeep _ m hm)⟩
  · intro src v hacc hstop harm hactive hext
    refine ⟨_, exec_tioStop hacc hstop harm, ?_⟩
    rw [tioStop_inst (hlen _), tioStop_active_emit (hlen _) (by rw [hctrl]; exact hactive) hext, hctrl]
    exact ⟨rfl, rfl, rfl⟩
  · intro src hacc
    refine ⟨_, exec_tioCapRead hacc, ?_⟩
    rw [tioCapRead_tio, tioOf_modTio_self _ _ _ hn, tioCapRead_emit]
    exact ⟨rfl, rfl, rfl, fun m hm => (tioCapRead_tio _).trans (hkeep _ m hm)⟩

end

section
/-! PROOFS. Byte memories (spec/06, log 4): what a byte read comes to after a byte or a range is written or cleared, and that a
memory in canonical form is known by what it reads. -/

namespace Sys2Proof.Machine

theorem memGet_cons_self (a : Nat) (v : Byte) (m : Mem) : memGet ((a, v) :: m) a = v := if_pos rfl

theorem memGet_cons_ne {a x : Nat} (h : x ≠ a) (v : Byte) (m : Mem) : memGet ((a, v) :: m) x = memGet m x := if_neg h

theorem memGet_unlisted {m : Mem} {x : Nat} (h : ∀ c ∈ m, x ≠ c.1) : memGet m x = 0 := by
  induction m with
  | nil => rfl
  | cons c m ih =>
    rw [memGet_cons_ne (h c List.mem_cons_self)]
    exact ih fun d hd => h d (List.mem_cons_of_mem c hd)

theorem listed_of_memGet_ne_zero {m : Mem} {x : Nat} (h : memGet m x ≠ 0) : ∃ c ∈ m, x = c.1 := by
  contrapose! h
  exact memGet_unlisted h

/-! ## Read after write and after clear (R264, R311, R449, R545) -/

/-- A byte put before entries that read 0 at its address; a 0 is not listed. -/
theorem memGet_put {m : Mem} {a : Nat} (h : memGet m a = 0) (v : Byte) (x : Nat) :
    memGet (if v = 0 then m else (a, v) :: m) x = if x = a then v else memGet m x := by
  split
  · next hv =>
    split
    · next hx => rw [hx, h, hv]
    · rfl
  · rfl

theorem memGet_memSet {m : Mem} (hm : Memory.wf m = true) (a : Nat) (v : Byte) (x : Nat) :
    memGet (memSet m a v) x = if x = a then v else memGet m x := by
  induction m with
  | nil => exact memGet_put rfl v x
  | cons c m ih =>
    obtain ⟨b, w⟩ := c
    obtain ⟨-, hrise, hm'⟩ := (wf_cons _ _).mp hm
    rcases lt_trichotomy a b with hlt | rfl | hgt
    · have hunlisted : memGet ((b, w) :: m) a = 0 := by
        rw [memGet_cons_ne hlt.ne]
        exact memGet_unlisted fun d hd => (hlt.trans (hrise d hd)).ne
      rw [memSet, if_pos hlt]
      exact memGet_put hunlisted v x
    · have hunlisted : memGet m a = 0 := memGet_unlisted fun d hd => (hrise d hd).ne
      rw [memSet, if_neg (lt_irrefl a), if_pos rfl, memGet_put hunlisted]
      split
      · rfl
      · next hx => rw [memGet_cons_ne hx]
    · rw [memSet, if_neg hgt.not_gt, if_neg hgt.ne']
      by_cases hx : x = b
      · rw [hx, memGet_cons_self, memGet_cons_self, if_neg hgt.ne]
      · rw [memGet_cons_ne hx, memGet_cons_ne hx, ih hm']

theorem memGet_memWrite {m : Mem} (hm : Memory.wf m = true) (a : Nat) (d : List Byte) (x : Nat) :
    memGet (memWrite m a d) x = if a ≤ x ∧ x < a + d.length then d.getD (x - a) 0 else memGet m x := by
  induction d generalizing m a with
  | nil => simp [memWrite]
  | cons v d ih =>
    rw [memWrite, ih (memSet_wf m a v hm), memGet_memSet hm]
    rcases lt_trichotomy x a with hlt | rfl | hgt
    · simp [hlt.ne, hlt.not_ge, (Nat.lt_succ_of_lt hlt).not_ge]
    · simp
    · have hstep : x - a = x - (a + 1) + 1 := by omega
      simp [hgt.ne', hgt.le, Nat.succ_le_of_lt hgt, hstep, Nat.add_assoc, Nat.add_comm 1]

/-- An entry outside the range stays listed, and one inside is taken out. -/
theorem memGet_memClear (m : Mem) (a n x : Nat) :
    memGet (memClear m a n) x = if a ≤ x ∧ x < a + n then 0 else memGet m x := by
  induction m with
  | nil => simp [memClear, memGet]
  | cons c m ih =>
    obtain ⟨b, w⟩ := c
    by_cases hin : a ≤ b ∧ b < a + n
    · have hdrop : memClear ((b, w) :: m) a n = memClear m a n := by simp [memClear, hin]
      rw [hdrop, ih]
      split
      · rfl
      · next hx =>
        have hne : x ≠ b := fun h => hx (h ▸ hin)
        rw [memGet_cons_ne hne]
    · have hout : b < a ∨ a + n ≤ b := by omega
      have hkeep : memClear ((b, w) :: m) a n = (b, w) :: memClear m a n := by simp [memClear, hout]
      rw [hkeep]
      by_cases hx : x = b
      · rw [hx, memGet_cons_self, memGet_cons_self, if_neg hin]
      · rw [memGet_cons_ne hx, memGet_cons_ne hx, ih]

/-! ## A memory in canonical form is known by what it reads (log 4) -/

theorem memGet_tail {a : Nat} {v : Byte} {m : Mem} (hm : Memory.wf ((a, v) :: m) = true) (x : Nat) :
    memGet m x = if x = a then 0 else memGet ((a, v) :: m) x := by
  obtain ⟨-, hrise, -⟩ := (wf_cons _ _).mp hm
  split
  · next h => exact memGet_unlisted fun c hc => h ▸ (hrise c hc).ne
  · next h => rw [memGet_cons_ne h]

theorem memGet_head_ne_zero {c : Nat × Byte} {m : Mem} (hm : Memory.wf (c :: m) = true) : memGet (c :: m) c.1 ≠ 0 := by
  obtain ⟨hlisted, -, -⟩ := (wf_cons c m).mp hm
  rwa [memGet_cons_self]

/-- The lowest address listed in `m` is listed in `n`, and so not below the lowest there. -/
theorem head_le_of_same_reads {a b : Nat} {v w : Byte} {m n : Mem} (hm : Memory.wf ((a, v) :: m) = true)
    (hn : Memory.wf ((b, w) :: n) = true) (h : ∀ x, memGet ((a, v) :: m) x = memGet ((b, w) :: n) x) : b ≤ a := by
  obtain ⟨-, hrise, -⟩ := (wf_cons _ _).mp hn
  obtain ⟨c, hc, rfl⟩ : ∃ c ∈ (b, w) :: n, a = c.1 :=
    listed_of_memGet_ne_zero (by rw [← h a]; exact memGet_head_ne_zero hm)
  rcases List.mem_cons.mp hc with rfl | hc
  · exact le_rfl
  · exact (hrise c hc).le

theorem mem_eq_of_same_reads {m n : Mem} (hm : Memory.wf m = true) (hn : Memory.wf n = true)
    (h : ∀ x, memGet m x = memGet n x) : m = n := by
  induction m generalizing n with
  | nil =>
    cases n with
    | nil => rfl
    | cons d n => exact absurd (h d.1).symm (memGet_head_ne_zero hn)
  | cons c m ih =>
    cases n with
    | nil => exact absurd (h c.1) (memGet_head_ne_zero hm)
    | cons d n =>
      obtain ⟨a, v⟩ := c
      obtain ⟨b, w⟩ := d
      obtain rfl : a = b :=
        le_antisymm (head_le_of_same_reads hn hm fun x => (h x).symm) (head_le_of_same_reads hm hn h)
      obtain rfl : v = w := by simpa only [memGet_cons_self] using h a
      obtain ⟨-, -, hm'⟩ := (wf_cons _ _).mp hm
      obtain ⟨-, -, hn'⟩ := (wf_cons _ _).mp hn
      have htail : m = n := ih hm' hn' fun x => by
        rw [memGet_tail hm, memGet_tail hn, h]
      rw [htail]

end Sys2Proof.Machine
end

section
/-! PROOFS. The current window (spec/06): an access that is carried out, and what a write to the window comes to (R265). -/

namespace Sys2Proof.Machine

theorem accessBy_carried {src : Iface} {addr len : Nat} {w : Option (List Byte)} {f : State → State} {s : State}
    (h : Accesses src addr s) : accessBy src addr len w f s = f s := by
  obtain ⟨hopen, hreach, hruns⟩ := h
  cases src with
  | pair l =>
    obtain ⟨hhalted, hlocked, hsplit, hrun⟩ := hruns l rfl
    simp [accessBy, hopen, hreach, hhalted, hlocked, hsplit, hrun]
  | _ => simp [accessBy, hopen, hreach]

/-- The passing of time opens and closes no interface. -/
theorem accesses_begin_ {src : Iface} {addr : Nat} {s : State} (h : Accesses src addr s) (dt : Nat) :
    Accesses src addr (begin_ dt s) := ⟨h.isOpen, h.reach, h.runs⟩

theorem writeAccess_carried {dt addr : Nat} {src : Iface} {d : List Byte} {s : State} (h : Accesses src addr s) :
    writeAccess dt src addr d s = busWrite src addr d (begin_ dt s) := accessBy_carried (accesses_begin_ h dt)

section
variable {off : Nat} (hoff : off < 0x10000)
include hoff

theorem blockAt_currentWindow : blockAt (0x210000 + off) = .bytes := by
  have hlow : ∀ k ≤ 0x210000, ¬ 0x210000 + off < k := fun k hk => by omega
  have hhigh : 0x210000 + off < 0x220000 := by omega
  simp [blockAt, hlow, hhigh]

theorem bytesWrite_currentWindow (src : Iface) (d : List Byte) (s : State) :
    bytesWrite src (0x210000 + off) d s = s := by
  have hmbx : ¬ 0x210000 + off < 0x8000 := by omega
  have hnext : ¬ 0x210000 + off < 0x210000 := by omega
  rw [bytesWrite, if_neg hmbx, if_neg hnext]

theorem busWrite_currentWindow (src : Iface) (d : List Byte) (s : State) :
    busWrite src (0x210000 + off) d s = s := by
  simp only [busWrite, blockAt_currentWindow hoff, bytesWrite_currentWindow hoff, ite_self]

theorem exec_currentWindowWrite {dt : Nat} {src : Iface} {d : List Byte} {s : State}
    (h : Accesses src (0x210000 + off) s) : exec (.currentWindowWrite dt src off d) s = .next (begin_ dt s) := by
  have hexec : exec (.currentWindowWrite dt src off d) s = .next (writeAccess dt src (0x210000 + off % 0x10000) d s) := rfl
  rw [hexec, Nat.mod_eq_of_lt hoff, writeAccess_carried h, busWrite_currentWindow hoff]

end

end Sys2Proof.Machine
end

section
/-! PROOFS. The FLOW and SESSION commands (spec/06): what the subject chapter answers, case by case. -/

namespace Sys2Proof.Machine

@[simp] theorem ctxWritten_taken (op dt : Nat) (r : Ring) (s : State) : ctxWritten (taken op dt r s) = ctxWritten s := by
  simp [ctxWritten]

@[simp] theorem sessionNamed_taken (op dt : Nat) (r : Ring) (sid : Nat) (s : State) :
    sessionNamed sid (taken op dt r s) = sessionNamed sid s := by
  simp [sessionNamed]

section
variable {r : Ring} {s : State}

/-! ## FLOW bodies (R277, R278, R312, R313) -/

section
variable (hindex : fieldAt r.req 0 2 < 512)
include hindex

/-- R278: a record in which nothing offends. -/
theorem flowSetBody_accepted
    (hnone : ctxOffender (fieldAt r.req 0 2) (ctxOfBytes (r.req.drop 4)) (ctxWritten s) s.sched.running
      s.flow.key.isSome = none) :
    flowSetBody r s = (done [], modFlow (fun w => { w with
      ctxNext := tblSet w.ctxNext (fieldAt r.req 0 2) (ctxOfBytes (r.req.drop 4)) }) s) := by
  simp only [flowSetBody, if_neg (Nat.not_le.mpr hindex), hnone]

theorem flowGetBody_listed :
    flowGetBody r s = (done (ctxBytes ((tblGet (ctxWritten s) (fieldAt r.req 0 2)).getD flowCtxZero)), s) :=
  if_neg (Nat.not_le.mpr hindex)

theorem flowStatusBody_listed :
    flowStatusBody r s = (done (flowRecord (fieldAt r.req 0 2) s),
      if clearAsked r.req 2 then modRun (fieldAt r.req 0 2) (fun x => { x with ctr := ctrClear x.ctr }) s else s) :=
  if_neg (Nat.not_le.mpr hindex)

end

/-! ## SESSION bodies (R303, R305) -/

/-- The identifier that a SESSION_OPEN chooses: free among those of this node's own sessions. -/
def chosenSid (s : State) : BitVec 16 :=
  freeSid (takeFree 65536 s).1 ((s.flow.sessions.filter (fun x => x.opener == s.sys.uid)).map (fun x => x.sid))

/-- The session that a SESSION_OPEN opens. -/
def openedBy (r : Ring) (s : State) : Session where
  sid := chosenSid s
  opener := s.sys.uid
  byIdentity := byteAt r.req 0 = 1
  slot := BitVec.ofNat 8 (byteAt r.req 1)
  addr := BitVec.ofNat 10 (fieldAt r.req 2 2)
  vid := BitVec.ofNat 48 (fieldAt r.req 4 6)
  peerUid := 0
  nextMsg := 0
  out := []
  inMsg := none
  rxq := []

/-- What SESSION_OPEN makes of the sessions, before the OPEN frame is sent. -/
def withOpened (r : Ring) (s : State) : State :=
  modFlow (fun w => { w with sessions := w.sessions ++ [openedBy r s] }) (takeFree 65536 s).2

theorem sessionOpenBody_opened (hby : byteAt r.req 0 ≤ 1) (hslot : byteAt r.req 0 = 1 → byteAt r.req 1 < 16)
    (hroom : s.flow.sessions.length < 32) :
    sessionOpenBody r s = (done (leBytes 2 (chosenSid s).toNat),
      sendSession (sessionFrame (openedBy r s) 1 0 0 0 0 [] (withOpened r s)) (withOpened r s)) := by
  have hslot' : ¬ (byteAt r.req 0 = 1 ∧ 16 ≤ byteAt r.req 1) := fun h => Nat.not_le.mpr (hslot h.1) h.2
  simp only [sessionOpenBody, Bool.and_eq_true, decide_eq_true_eq, if_neg hslot',
    if_neg (Nat.not_le.mpr (Nat.lt_succ_of_le hby)), if_neg (Nat.not_le.mpr hroom)]
  rfl

section
variable {x : Session} (hnamed : sessionNamed (fieldAt r.req 0 2) s = some x)
include hnamed

theorem sessionSendBody_stored (hchunk : fieldAt r.req 4 2 ≤ 3072) (hmessage : fieldAt r.req 2 2 + fieldAt r.req 4 2 ≤ 16384)
    (hlast : (byteAt r.req 6).testBit 0 = true → 0 < fieldAt r.req 4 2 ∨ 0 < composing x) :
    sessionSendBody r s = (done [], pumpSession x.sid x.opener (modSession (isSession x.sid x.opener)
      (storeChunk (fieldAt r.req 2 2) (r.req.drop 8) ((byteAt r.req 6).testBit 0)) s)) := by
  have hlast' : ¬ (((byteAt r.req 6).testBit 0 = true ∧ fieldAt r.req 4 2 = 0) ∧ composing x = 0) := by
    rintro ⟨⟨hbit, hempty⟩, hnothing⟩
    have := hlast hbit
    omega
  simp only [sessionSendBody, hnamed, Bool.and_eq_true, decide_eq_true_eq, if_neg (Nat.not_lt.mpr hchunk),
    if_neg (Nat.not_lt.mpr hmessage), if_neg hlast']

theorem sessionRecvBody_none (hempty : x.rxq = []) : sessionRecvBody r s = (done [0, 0], s) := by
  simp only [sessionRecvBody, hnamed, hempty]
  rfl

/-- The message leaves the session with the answer that holds its last byte. -/
theorem sessionRecvBody_read {m : Message} {ms : List Message} (holdest : x.rxq = m :: ms)
    (hoff : fieldAt r.req 2 2 < m.bytes.length) :
    sessionRecvBody r s = (done (leBytes 2 m.bytes.length ++ (m.bytes.drop (fieldAt r.req 2 2)).take 3072),
      if m.bytes.length ≤ fieldAt r.req 2 2 + 3072
      then modSession (isSession x.sid x.opener) (fun y => { y with rxq := ms }) s else s) := by
  have hend : fieldAt r.req 2 2 + ((m.bytes.drop (fieldAt r.req 2 2)).take 3072).length = m.bytes.length ↔
      m.bytes.length ≤ fieldAt r.req 2 2 + 3072 := by
    rw [List.length_take, List.length_drop]
    omega
  simp only [sessionRecvBody, hnamed, holdest, if_neg (Nat.not_le.mpr hoff), hend]

theorem sessionCloseBody_named : sessionCloseBody r s = (done [], closeSession x 0 s) := by
  simp only [sessionCloseBody, hnamed]

end

end

/-! ## The commands whose answer is not named beforehand -/

/-- R303: SESSION_OPEN answers the identifier it has chosen. -/
theorem exec_sessionOpen {dt : Nat} {r : Ring} {s : State} (h : Runs sessionOpenSpec r dt s) (hby : byteAt r.req 0 ≤ 1)
    (hslot : byteAt r.req 0 = 1 → byteAt r.req 1 < 16) (hroom : s.flow.sessions.length < 32) :
    ∃ t, exec (.sessionOpen dt r) s = .next t ∧
      Answered r 0 0 (leBytes 2 (chosenSid (taken sessionOpenSpec.opcode dt r s)).toNat)
        (taken sessionOpenSpec.opcode dt r s) t ∧ OthersSame r s t ∧
      t.flow.sessions = s.flow.sessions ++ [openedBy r (taken sessionOpenSpec.opcode dt r s)] := by
  obtain ⟨t, hexec, hanswer, hothers, hrest⟩ : Does (.sessionOpen dt r) sessionOpenSpec dt r s
      (fun u => leBytes 2 (chosenSid u).toNat)
      (fun u => sendSession (sessionFrame (openedBy r u) 1 0 0 0 0 [] (withOpened r u)) (withOpened r u)) :=
    does_plain h rfl rfl (sessionOpenBody_opened hby hslot (by simpa using hroom))
      (mbx_of_is fun mb => by simp [withOpened])
  have hflow := congrArg State.flow hrest
  refine ⟨t, hexec, hanswer, hothers, ?_⟩
  calc t.flow.sessions
    _ = (withOpened r (taken sessionOpenSpec.opcode dt r s)).flow.sessions :=
      congrArg Flow.sessions (hflow.trans (sendSession_flow _ _))
    _ = s.flow.sessions ++ [openedBy r (taken sessionOpenSpec.opcode dt r s)] := by simp [withOpened]

end Sys2Proof.Machine
end

section
/-! PROOFS. The REP and REC commands (spec/06, spec/16): what the subject chapters answer, case by case. -/

namespace Sys2Proof.Machine

@[simp] theorem reqPending_taken (k : Fin 8) (op dt : Nat) (r : Ring) (s : State) :
    reqPending k (taken op dt r s) = reqPending k s := by
  simp [reqPending]

@[simp] theorem pairOf_taken (l op dt : Nat) (r : Ring) (s : State) : pairOf (taken op dt r s) l = pairOf s l := by
  simp [pairOf]

@[simp] theorem carriedBy_taken (p : Fin 5) (op dt : Nat) (r : Ring) (s : State) :
    carriedBy (taken op dt r s) p = carriedBy s p := by
  simp [carriedBy]

section
variable {r : Ring} {s : State}

/-! ## REP bodies (R662, R667–R669) -/

theorem repLogBody_listed (hmin : 1 ≤ fieldAt r.req 2 2) (hmax : fieldAt r.req 2 2 ≤ 250) :
    repLogBody r s = (done (leBytes 2 ((s.rep.hist.drop (fieldAt r.req 0 2)).take (fieldAt r.req 2 2)).length ++
      leBytes 2 s.rep.hist.length ++ leBytes 12 0 ++
      ((s.rep.hist.drop (fieldAt r.req 0 2)).take (fieldAt r.req 2 2)).flatMap repEntryBytes), s) := by
  have hrange : ¬ (fieldAt r.req 2 2 < 1 ∨ 250 < fieldAt r.req 2 2) := by omega
  simp only [repLogBody, Bool.or_eq_true, decide_eq_true_eq, if_neg hrange]

/-- R667: a cache sweep, a memory scrub or a lane check. -/
theorem repTestBody_other (hmin : 2 ≤ byteAt r.req 0) (hmax : byteAt r.req 0 ≤ 4) (hzero : byteAt r.req 1 = 0)
    (hfree : reqPending (Fin.ofNat 8 (byteAt r.req 0 - 1)) s = false) :
    repTestBody r s = (queued 0, addReq (Fin.ofNat 8 (byteAt r.req 0 - 1)) r.mbx.val s) := by
  have hne : byteAt r.req 0 ≠ 1 := by omega
  have hrange : ¬ (byteAt r.req 0 < 1 ∨ 4 < byteAt r.req 0) := by omega
  simp only [repTestBody, Bool.or_eq_true, Bool.and_eq_true, decide_eq_true_eq, if_neg hrange, hne, hzero, hfree,
    ne_eq, not_true_eq_false, and_false, false_and, or_false, if_false, Bool.false_eq_true]

/-- R667: the self-test of a physical pair whose logical pair, if it carries one, is neither split nor open to debug. -/
theorem repTestBody_pair (hkind : byteAt r.req 0 = 1) (hpair : byteAt r.req 1 ≤ 4)
    (hkept : s.rep.retired.getLsbD (byteAt r.req 1) = false)
    (hcarried : ∀ l, carriedBy s (Fin.ofNat 5 (byteAt r.req 1)) = some l →
      pairSplit (pairOf s l) = false ∧ (pairOf s l).dbg = false)
    (hfree : reqPending 0 s = false) :
    repTestBody r s = (queued 0, addReq 0 r.mbx.val (askTest (Fin.ofNat 5 (byteAt r.req 1)) s)) := by
  have hplace : byteAt r.req 1 % 5 = byteAt r.req 1 := Nat.mod_eq_of_lt (Nat.lt_succ_of_le hpair)
  cases hl : carriedBy s (Fin.ofNat 5 (byteAt r.req 1)) with
  | none => simp [repTestBody, hkind, hl, hplace, hkept, hfree, Nat.not_lt.mpr hpair, -Fin.ofNat_eq_cast]
  | some l =>
    obtain ⟨hwhole, hclosed⟩ := hcarried l hl
    simp [repTestBody, hkind, hl, hwhole, hclosed, hplace, hkept, hfree, Nat.not_lt.mpr hpair, -Fin.ofNat_eq_cast]

theorem repCalibrateBody_accepted (hmin : 1 ≤ byteAt r.req 0) (hmax : byteAt r.req 0 ≤ 3)
    (hfree : reqPending (Fin.ofNat 8 (byteAt r.req 0 + 3)) s = false) :
    repCalibrateBody r s = (queued 0, addReq (Fin.ofNat 8 (byteAt r.req 0 + 3)) r.mbx.val s) := by
  have hrange : ¬ (byteAt r.req 0 < 1 ∨ 3 < byteAt r.req 0) := by omega
  simp only [repCalibrateBody, Bool.or_eq_true, decide_eq_true_eq, if_neg hrange, hfree, Bool.false_eq_true, if_false]

theorem repRotationBody_accepted (h : fieldAt r.req 0 2 = 0 ∨ 6 ≤ fieldAt r.req 0 2 ∧ fieldAt r.req 0 2 ≤ 168) :
    repRotationBody r s = (done [], modRep (fun x => { x with
      rotHours := fieldAt r.req 0 2, rotDueClk := s.clk + secT (fieldAt r.req 0 2 * 720)
      rotDeferred := x.rotDeferred && fieldAt r.req 0 2 ≠ 0 }) s) := by
  have hrange : ¬ (fieldAt r.req 0 2 ≠ 0 ∧ (fieldAt r.req 0 2 < 6 ∨ 168 < fieldAt r.req 0 2)) := by omega
  simp only [repRotationBody, Bool.and_eq_true, Bool.or_eq_true, decide_eq_true_eq, if_neg hrange]

/-! ## REC bodies (R308, R309, R311, R312) -/

theorem recConfigBody_accepted (h : byteAt r.req 4 ≤ 1) :
    recConfigBody r s = (done [], modRec (fun x => { x with
      next := some (fieldAt r.req 0 2, fieldAt r.req 2 2, byteAt r.req 4 == 1,
       ((List.range 16).map (fun i => BitVec.ofNat 16 (fieldAt r.req (6 + 2 * i) 2))).filter (fun t => t ≠ 0),
       (r.req.drop 38).take 128) }) s) :=
  if_neg (Nat.not_le.mpr (Nat.lt_succ_of_le h))

theorem recTriggerBody_collecting {i : Nat} (h : s.flow.rec_.collecting = some i) :
    recTriggerBody r s = (done (leBytes 1 i),
      modRec (fun x => { x with trigger := some (0, BitVec.ofNat 32 (fieldAt r.req 0 4)) }) s) := by
  simp only [recTriggerBody, h]

theorem recTriggerBody_begins {x : Rec} (hidle : s.flow.rec_.collecting = none)
    (hroom : roomForCask s.cmd.cycleEvents.length s.flow.rec_ = some x) :
    recTriggerBody r s = (done (leBytes 1 (beginCask (cycleNo s) (BitVec.ofNat 32 (fieldAt r.req 0 4)) x).1),
      modRec (fun _ => { (beginCask (cycleNo s) (BitVec.ofNat 32 (fieldAt r.req 0 4)) x).2 with
        trigger := some (0, BitVec.ofNat 32 (fieldAt r.req 0 4)) }) s) := by
  simp only [recTriggerBody, hidle, hroom]

theorem recCaskBody_held {c : Cask} (hindex : byteAt r.req 0 ≤ 7)
    (hcask : s.flow.rec_.casks.getD (byteAt r.req 0) none = some c) :
    recCaskBody r s =
      (done (leBytes 4 c.offset ++ leBytes 4 c.length ++ leBytes 4 c.cycle.toNat ++ leBytes 4 c.tag.toNat), s) := by
  simp only [recCaskBody, if_neg (Nat.not_le.mpr (Nat.lt_succ_of_le hindex)), hcask]

theorem recReleaseBody_accepted (h : byteAt r.req 0 ≤ 7) :
    recReleaseBody r s = (done [], modRec (fun x => { x with
      casks := updAt x.casks (byteAt r.req 0) (fun _ => none)
      collecting := if x.collecting = some (byteAt r.req 0) then none else x.collecting }) s) :=
  if_neg (Nat.not_le.mpr (Nat.lt_succ_of_le h))

theorem recPageBody_accepted (h : byteAt r.req 0 < 24) :
    recPageBody r s = (done [], modRec (fun x => { x with page := byteAt r.req 0 }) s) := if_neg (Nat.not_le.mpr h)

end

end Sys2Proof.Machine
end

section
/-! PROOFS. The statements of spec/06_registration_and_process_data.md. -/

open Sys2Proof Sys2Proof.Machine

/-- Settles O51: the window lies in a block of bytes, of which only the mailboxes and the next window take a write. -/
theorem currentWindowIsReadOnly : Obligations.CurrentWindowIsReadOnly :=
  fun _ src d s hoff => ⟨busWrite_currentWindow hoff src d s, fun _ h => exec_currentWindowWrite hoff h⟩

/-- Settles O52: one byte at a time for a write, one entry at a time for a clear and for two memories that read the same. -/
theorem memoryReadsBack : Obligations.MemoryReadsBack :=
  fun m hm => ⟨fun a d => memWrite_wf m a d hm, memGet_memWrite hm, memGet_memClear m, fun _ => mem_eq_of_same_reads hm⟩

/-- Settles O6: each clause names what the chapter answers (`flow…Body_…`, `session…Body_…`), and `does`, `does_plain` and
`queues_plain` bring the answer to its mailbox. -/
theorem flowSessionCommandsComplete : Obligations.FlowSessionCommandsComplete := by
  intro dt r s
  refine ⟨?_, ?_, ?_, ?_, ?_, ?_, ?_, ?_, ?_, ?_⟩
  · intro h hindex hnone
    exact does_plain h rfl rfl (flowSetBody_accepted hindex (by simpa using hnone)) (mbx_of_is fun mb => by simp)
  · intro h hindex
    exact does_plain h rfl rfl ((flowGetBody_listed hindex).trans (by simp)) rfl
  · intro h hindex
    exact does_plain h rfl rfl (flowStatusBody_listed hindex) (mbx_of_is fun mb => by simp)
  · intro h hroom
    exact queues_plain h hroom rfl rfl rfl rfl
  · intro h
    exact does h rfl rfl (mbx_of_is fun mb => by simp) rfl
  · intro h hby hslot hroom
    obtain ⟨t, hexec, hanswer, hothers, hsessions⟩ := exec_sessionOpen h hby hslot hroom
    exact ⟨t, hexec, _, hanswer, hothers, hsessions.trans (by simp [openedBy])⟩
  · intro x h hnamed hchunk hmessage hlast
    exact does_plain h rfl rfl (sessionSendBody_stored (by simpa using hnamed) hchunk hmessage hlast)
      (mbx_of_is fun mb => by simp)
  · intro x h hnamed hempty
    exact does_plain h rfl rfl (sessionRecvBody_none (by simpa using hnamed) hempty) rfl
  · intro x m ms h hnamed holdest hoff
    exact does_plain h rfl rfl (sessionRecvBody_read (by simpa using hnamed) holdest hoff) (mbx_of_is fun mb => by simp)
  · intro x h hnamed
    exact does_plain h rfl rfl (sessionCloseBody_named (by simpa using hnamed)) (mbx_of_is fun mb => by simp)

/-- Settles O13: each clause names what the chapter answers (`rep…Body_…`, `rec…Body_…`), and `does_plain` and `queues_plain`
bring the answer to its mailbox. -/
theorem repairRecorderCommandsComplete : Obligations.RepairRecorderCommandsComplete := by
  intro dt r s
  refine ⟨?_, ?_, ?_, ?_, ?_, ?_, ?_, ?_, ?_, ?_, ?_, ?_, ?_⟩
  · intro h
    exact does_plain h rfl rfl rfl (mbx_of_is fun mb => by simp)
  · intro h hmin hmax
    exact does_plain h rfl rfl ((repLogBody_listed hmin hmax).trans (by simp)) rfl
  · intro h hmin hmax hzero hfree hroom
    exact queues_plain h hroom rfl rfl (repTestBody_other hmin hmax hzero (by simpa using hfree)) (mbx_of_is fun mb => by simp)
  · intro h hkind hpair hkept hcarried hfree hroom
    exact queues_plain h hroom rfl rfl (repTestBody_pair hkind hpair (by simpa using hkept) (by simpa using hcarried)
      (by simpa using hfree)) (mbx_of_is fun mb => by simp)
  · intro h hmin hmax hfree hroom
    exact queues_plain h hroom rfl rfl (repCalibrateBody_accepted hmin hmax (by simpa using hfree))
      (mbx_of_is fun mb => by simp)
  · intro h hperiod
    exact does_plain h rfl rfl (repRotationBody_accepted hperiod) (mbx_of_is fun mb => by simp)
  · intro h
    exact does_plain h rfl rfl (by simp [recStatusBody]) rfl
  · intro h hpolicy
    exact does_plain h rfl rfl (recConfigBody_accepted hpolicy) (mbx_of_is fun mb => by simp)
  · intro i h hcollecting
    exact does_plain h rfl rfl (recTriggerBody_collecting (by simpa using hcollecting)) (mbx_of_is fun mb => by simp)
  · intro x h hidle hroom
    exact does_plain h rfl rfl (recTriggerBody_begins (by simpa using hidle) (by simpa using hroom))
      (mbx_of_is fun mb => by simp)
  · intro c h hindex hcask
    exact does_plain h rfl rfl (recCaskBody_held hindex (by simpa using hcask)) rfl
  · intro h hindex
    exact does_plain h rfl rfl (recReleaseBody_accepted hindex) (mbx_of_is fun mb => by simp)
  · intro h hpage
    exact does_plain h rfl rfl (recPageBody_accepted hpage) (mbx_of_is fun mb => by simp)

end

section
/-! PROOFS. The TWIN commands (spec/07): what the subject chapter answers, case by case. -/

namespace Sys2Proof.Machine

@[simp] theorem isActive_taken (op dt : Nat) (r : Ring) (s : State) : isActive (taken op dt r s) = isActive s := by
  simp [isActive]

@[simp] theorem partnerRole_taken (op dt : Nat) (r : Ring) (s : State) :
    partnerRole (taken op dt r s) = partnerRole s := by
  simp [partnerRole]

/-! ## Bodies (R318, R327, R342, R349, R351, R353) -/

section
variable {r : Ring} {s : State}

/-- A region asked for has its pages and its offset in range (R342); without a region neither is looked at. -/
theorem twinConfigBody_accepted (hst : s.ina.st = .steep ∨ s.twin.role = .out) (hfab : s.fab.attached = false)
    (hregion : (byteAt r.req 0).testBit 1 = true → 1 ≤ fieldAt r.req 2 2 ∧ fieldAt r.req 2 2 ≤ 4096 ∧
      fieldAt r.req 4 4 % 4096 = 0 ∧ fieldAt r.req 4 4 + 4096 * fieldAt r.req 2 2 ≤ 27 * 1048576) :
    twinConfigBody r s = (done [], modTwin (fun t => { t with
      configured := true, preferred := (byteAt r.req 0).testBit 0, regionOn := (byteAt r.req 0).testBit 1
      regionPages := if (byteAt r.req 0).testBit 1 then fieldAt r.req 2 2 else 0
      regionOff := if (byteAt r.req 0).testBit 1 then fieldAt r.req 4 4 else 0 }) s) := by
  have hpages : ¬ ((byteAt r.req 0).testBit 1 = true ∧ (fieldAt r.req 2 2 = 0 ∨ 4096 < fieldAt r.req 2 2)) := by
    rintro ⟨hon, hbad⟩; have := hregion hon; omega
  have halign : ¬ ((byteAt r.req 0).testBit 1 = true ∧ fieldAt r.req 4 4 % 4096 ≠ 0) := by
    rintro ⟨hon, hbad⟩; have := hregion hon; omega
  have hfits : ¬ ((byteAt r.req 0).testBit 1 = true ∧ 27 * 1048576 < fieldAt r.req 4 4 + 4096 * fieldAt r.req 2 2) := by
    rintro ⟨hon, hbad⟩; have := hregion hon; omega
  simp only [twinConfigBody, Bool.and_eq_true, Bool.or_eq_true, decide_eq_true_eq, if_neg hpages, if_neg halign,
    if_neg hfits, hfab, Bool.false_eq_true, or_false]
  rcases hst with hsteep | hout
  · cases s.twin.role <;> simp [(inSteep_iff s).mpr hsteep]
  · simp [hout]

theorem twinSwitchoverBody_standby (hactive : isActive s = true) (hpartner : partnerRole s = 2) :
    twinSwitchoverBody r s = (queued 0, modTwin askSwitchover s) := by
  simp [twinSwitchoverBody, hactive, hpartner]

section
variable (hcfg : s.twin.configured = true)
include hcfg

/-- Service of an Active node with a partner in Standby begins with a switchover (R351). -/
theorem twinServiceBody_outAfter (hop : byteAt r.req 0 = 0) (hactive : isActive s = true) (hpartner : partnerRole s = 2) :
    twinServiceBody r s = (queued 0, modTwin (fun t => { askSwitchover t with outAfter := true }) s) := by
  simp [twinServiceBody, hop, hcfg, hactive, hpartner]

/-- A node that is not Active, or is forced, goes out of service by itself (R351). -/
theorem twinServiceBody_outAt (hop : byteAt r.req 0 = 0)
    (halone : isActive s = false ∨ partnerRole s ≠ 2 ∧ (byteAt r.req 1).testBit 0 = true) :
    twinServiceBody r s = (queued 0, modTwin (fun t => { t with outAt := some 6 }) s) := by
  rcases halone with hinactive | ⟨hpartner, hforce⟩
  · simp [twinServiceBody, hop, hcfg, hinactive]
  · simp [twinServiceBody, hop, hcfg, hpartner, hforce]

theorem twinServiceBody_return (hop : byteAt r.req 0 = 1) :
    twinServiceBody r s = (queued 1, modTwin (fun t => { t with returnAt := true }) s) := by
  simp [twinServiceBody, hop, hcfg]

end

theorem twinRenewBody_closed (hcmd : s.trunk.byCommand = true) (hA : s.trunk.lineA.closed = true)
    (hB : s.trunk.lineB.closed = true) :
    twinRenewBody r s = (done [], modTwin (fun t => { t with own := 0, seen := 0, limitRaised := false }) s) := by
  simp [twinRenewBody, hcmd, hA, hB]

end

end Sys2Proof.Machine
end

section
/-! PROOFS. The statements of spec/07_twin_failover.md. -/

open Sys2Proof Sys2Proof.Machine

/-- Settles O7: each clause names what the chapter answers (`twin…Body_…`), and `does`, `does_plain`, `queues` and
`queues_plain` bring the answer to its mailbox. -/
theorem twinCommandsComplete : Obligations.TwinCommandsComplete := by
  intro dt r s
  refine ⟨?_, ?_, ?_, ?_, ?_, ?_, ?_, ?_⟩
  · intro h
    exact does_plain h rfl rfl rfl (mbx_of_is fun mb => by simp)
  · intro h hst hfab hon hmin hmax halign hfits
    refine does h rfl (twinConfigBody_accepted (by simpa using hst) (by simpa using hfab)
      fun _ => ⟨hmin, hmax, halign, hfits⟩) (mbx_of_is fun mb => by simp) ?_
    simp only [hon, if_true]
    rfl
  · intro h hst hfab hoff
    refine does h rfl (twinConfigBody_accepted (by simpa using hst) (by simpa using hfab) (by simp [hoff]))
      (mbx_of_is fun mb => by simp) ?_
    simp only [hoff, Bool.false_eq_true, if_false]
    rfl
  · intro h hactive hpartner hroom
    exact queues_plain h hroom rfl rfl (twinSwitchoverBody_standby (by simpa using hactive) (by simpa using hpartner))
      (mbx_of_is fun mb => by simp)
  · intro h hop hcfg hactive hpartner hroom
    exact queues h hroom rfl (twinServiceBody_outAfter (by simpa using hcfg) hop (by simpa using hactive)
      (by simpa using hpartner)) (mbx_of_is fun mb => by simp) rfl
  · intro h hop hcfg halone hroom
    exact queues h hroom rfl (twinServiceBody_outAt (by simpa using hcfg) hop (by simpa using halone))
      (mbx_of_is fun mb => by simp) rfl
  · intro h hop hcfg hroom
    exact queues h hroom rfl (twinServiceBody_return (by simpa using hcfg) hop) (mbx_of_is fun mb => by simp) rfl
  · intro h hcmd hA hB
    exact does_plain h rfl rfl (twinRenewBody_closed (by simpa using hcmd) (by simpa using hA) (by simpa using hB))
      (mbx_of_is fun mb => by simp)

end

section
/-! PROOFS. The LSK commands (spec/08): what the subject chapter answers, case by case, and a reset that waits for its instant. -/

namespace Sys2Proof.Machine

@[simp] theorem otherCfgs_taken (l op dt : Nat) (r : Ring) (s : State) : otherCfgs l (taken op dt r s) = otherCfgs l s := by
  simp [otherCfgs]

/-- What a configuration must not meet is read off the other pairs, which taking the ring leaves. -/
@[simp] theorem pairCfgOffender_taken (l : Nat) (c : PairCfg) (op dt : Nat) (r : Ring) (s : State) :
    pairCfgOffender l c (taken op dt r s) = pairCfgOffender l c s := by
  unfold pairCfgOffender
  rw [otherCfgs_taken]

/-! ## Bodies (R388, R389, R391, R392) -/

section
variable {r : Ring} {s : State} (hpair : byteAt r.req 0 ≤ 3)
include hpair

theorem lskStatusBody_listed : lskStatusBody r s = (done (pairRecord (byteAt r.req 0) s),
    if clearAsked r.req 1 then modPair (byteAt r.req 0) (fun p => { p with ctr := ctrClear p.ctr }) s else s) :=
  if_neg (Nat.not_le.mpr (Nat.lt_succ_of_le hpair))

theorem lskPairConfigBody_accepted (hcfg : pairCfgOffender (byteAt r.req 0) (pairCfgOf r.req) s = none)
    (hstill : pairConfigurable (pairOf s (byteAt r.req 0)) = true) :
    lskPairConfigBody r s = (done [],
      modLsk (fun k => { k with saved := updAt k.saved (byteAt r.req 0) (fun _ => some (pairCfgOf r.req)) })
        (modPair (byteAt r.req 0) (fun p => { p with
          cfg := pairCfgOf r.req, configured := true, ready := p.ready &&& (pairCfgOf r.req).classes }) s)) := by
  simp only [lskPairConfigBody, if_neg (Nat.not_le.mpr (Nat.lt_succ_of_le hpair)), hcfg, hstill, Bool.not_true,
    Bool.false_eq_true, if_false]

theorem lskPairResetBody_accepted (hhold : byteAt r.req 1 ≤ 1) :
    lskPairResetBody r s = (done [], modPair (byteAt r.req 0) (fun p => { p with
      resetAsk := some (byteAt r.req 1 == 1), resetMbx := p.resetMbx ++ [r.mbx] }) s) := by
  simp only [lskPairResetBody, if_neg (Nat.not_le.mpr (Nat.lt_succ_of_le hpair)),
    if_neg (Nat.not_le.mpr (Nat.lt_succ_of_le hhold))]

theorem lskSplitBody_locked (hlocked : pairState (pairOf s (byteAt r.req 0)) = 1) :
    lskSplitBody r s = (queued (byteAt r.req 0), askHand (byteAt r.req 0) .split s) := by
  simp only [lskSplitBody, if_neg (Nat.not_le.mpr (Nat.lt_succ_of_le hpair)), hlocked, ne_eq, not_true_eq_false, if_false]

section
variable (hclosed : (pairOf s (byteAt r.req 0)).dbg = false)
include hclosed

theorem lskRejoinBody_split (hsplit : pairState (pairOf s (byteAt r.req 0)) = 2) :
    lskRejoinBody r s = (queued (byteAt r.req 0), askHand (byteAt r.req 0) .rejoin s) := by
  simp [lskRejoinBody, Nat.lt_succ_of_le hpair, hsplit, hclosed]

theorem lskSubstituteBody_locked (hlocked : pairState (pairOf s (byteAt r.req 0)) = 1) (hspare : s.lsk.spareReady = true) :
    lskSubstituteBody r s = (queued (byteAt r.req 0), askHand (byteAt r.req 0) .subst s) := by
  simp [lskSubstituteBody, Nat.lt_succ_of_le hpair, hlocked, hclosed, hspare]

end

end

/-! ## A command that completes at a later instant (R389) -/

section
variable {sp : CmdSpec} {body : Ring → State → Reply × State} {dt : Nat} {r : Ring} {s : State}

/-- Writing the request leaves the lock of its mailbox as it was (R548, R549). -/
theorem Rings.lockAllows_loadRequest (h : Rings r dt s) (op : Nat) :
    lockAllows r.mbx r.src (loadRequest op r (begin_ dt s)) = true := by
  have hmem : r.mbx.val < (begin_ dt s).cmd.mbx.length := h.sound.mbx.symm ▸ r.mbx.isLt
  have hlock := h.lock
  unfold lockAllows at hlock ⊢
  rw [loadRequest, mbxOf_modMbx_self _ _ _ hmem]
  exact hlock

/-- A ring that the node takes is run in the state that taking it leaves. -/
theorem submitLater_runs (h : Rings r dt s) :
    submitLater sp body dt r s = runLater sp body r (taken sp.opcode dt r s) := by
  have hidle : (mbxOf (begin_ dt s) r.mbx).ring = false := h.idle
  have hnoReset : (begin_ dt s).sys.resetPending = none := h.noReset
  simp only [submitLater, h.may, hidle, hnoReset, h.lockAllows_loadRequest, Bool.not_true, Option.isSome_none,
    Bool.or_self, Bool.false_eq_true, if_false, if_true]
  rfl

/-- A command that stores nothing in flash and whose chapter answers DONE comes to what the chapter leaves: its mailbox is not
completed yet. -/
theorem runLater_done {y : State} {rsp : List Byte} (h : Runs sp r dt s) (hflash : sp.flash = false)
    (harea : areaOf sp.opcode = 0) (hb : body r (taken sp.opcode dt r s) = (done rsp, y)) :
    runLater sp body r (taken sp.opcode dt r s) = y := by
  have hready : (taken sp.opcode dt r s).sys.ready = true := by simpa using h.rings.ready
  have hsettle : settle sp r (taken sp.opcode dt r s) (done rsp, y) = (done rsp, y) := by
    cases hfail : r.flashFail <;> simp [settle, done, hfail, hflash, harea, areaWritten]
  have hanswer : answer sp body r (taken sp.opcode dt r s) = (done rsp, y) := by
    simp only [answer, h.checks, hready, hb, hsettle, Bool.not_true, Bool.false_and, Bool.false_eq_true, if_false]
  simp only [runLater, hanswer]
  rfl

/-- The mailbox of a ring taken stays busy. -/
theorem taken_busy (op dt : Nat) (r : Ring) (hs : Sound s) :
    (mbxOf (taken op dt r s) r.mbx).state = 1 ∧ (mbxOf (taken op dt r s) r.mbx).ring = true := by
  rw [taken_mbx op dt r s hs]
  exact ⟨rfl, rfl⟩

end

theorem exec_lskPairReset_accepted {dt : Nat} {r : Ring} {s : State} (h : Runs lskPairResetSpec r dt s)
    (hpair : byteAt r.req 0 ≤ 3) (hhold : byteAt r.req 1 ≤ 1) :
    exec (.lskPairReset dt r) s = .next (modPair (byteAt r.req 0) (fun p => { p with
      resetAsk := some (byteAt r.req 1 == 1), resetMbx := p.resetMbx ++ [r.mbx] })
        (taken lskPairResetSpec.opcode dt r s)) :=
  congrArg Host.Outcome.next
    ((submitLater_runs h.rings).trans (runLater_done h rfl rfl (lskPairResetBody_accepted hpair hhold)))

end Sys2Proof.Machine
end

section
/-! PROOFS. The statements of spec/08_lockstep_cluster.md. -/

open Sys2Proof Sys2Proof.Machine

/-- Settles O8: each clause names what the chapter answers (`lsk…Body_…`), and `does`, `does_plain` and `queues_plain` bring the
answer to its mailbox; a reset leaves its mailbox busy as the ring was taken (`exec_lskPairReset_accepted`, `taken_busy`). -/
theorem lockstepCommandsComplete : Obligations.LockstepCommandsComplete := by
  intro dt r s
  refine ⟨?_, ?_, ?_, ?_, ?_, ?_⟩
  · intro h hpair
    exact does_plain h rfl rfl (lskStatusBody_listed hpair) (mbx_of_is fun mb => by simp)
  · intro h hpair hcfg hstill
    exact does h rfl (lskPairConfigBody_accepted hpair (by simpa using hcfg) (by simpa using hstill))
      (mbx_of_is fun mb => by simp) rfl
  · intro h hpair hhold
    obtain ⟨hstate, hring⟩ := taken_busy lskPairResetSpec.opcode dt r h.rings.sound
    exact ⟨_, exec_lskPairReset_accepted h hpair hhold, hstate, hring, taken_other _ _ _ _, rfl⟩
  · intro h hpair hlocked hroom
    exact queues_plain h hroom rfl rfl (lskSplitBody_locked hpair (by simpa using hlocked)) rfl
  · intro h hpair hsplit hclosed hroom
    exact queues_plain h hroom rfl rfl (lskRejoinBody_split hpair (by simpa using hclosed) (by simpa using hsplit)) rfl
  · intro h hpair hlocked hclosed hspare hroom
    exact queues_plain h hroom rfl rfl (lskSubstituteBody_locked hpair (by simpa using hclosed) (by simpa using hlocked)
      (by simpa using hspare)) rfl

end

section
/-! PROOFS. The CAN and MVB commands (spec/09, spec/10): what the subject chapters answer, case by case. -/

namespace Sys2Proof.Machine

@[simp] theorem canOf_taken (c op dt : Nat) (r : Ring) (s : State) : canOf (taken op dt r s) c = canOf s c := by
  simp [canOf]

@[simp] theorem mvbOf_taken (g op dt : Nat) (r : Ring) (s : State) : mvbOf (taken op dt r s) g = mvbOf s g := by
  simp [mvbOf]

/-- What a port record is judged by are the flow contexts and the twin classes, which taking the ring leaves. -/
@[simp] theorem mvbLinkOk_taken (p : MvbPort) (op dt : Nat) (r : Ring) (s : State) :
    mvbLinkOk p (taken op dt r s) = mvbLinkOk p s := by
  simp [mvbLinkOk, classPair]

section
variable {r : Ring} {s : State}

/-! ## CAN bodies (R447) -/

theorem canLoadBody_inConfig (h : ∀ c ∈ canMasked (fieldAt r.req 0 2), canModeAct (canOf s c) = 0) :
    canLoadBody r s = (done [], forEach (canMasked (fieldAt r.req 0 2)) canLoadOne s) := by
  have hnone : (canMasked (fieldAt r.req 0 2)).find? (fun c => canModeAct (canOf s c) ≠ 0) = none :=
    List.find?_eq_none.mpr fun c hc => by simp [h c hc]
  simp only [canLoadBody, hnone]

/-! ## MVB bodies (R453, R460, R462, R463, R466, R491, R493) -/

/-- The configuration that MVB_CONFIG asks for. -/
def mvbCfgOf (req : List Byte) : MvbCfg where
  role := byteAt req 1
  admClaim := (byteAt req 2).testBit 0
  admSvc := BitVec.ofNat 4 (byteAt req 2 / 16)
  device := BitVec.ofNat 12 (fieldAt req 4 2)

section
variable (hseg : byteAt r.req 0 ≤ 1)
include hseg

section
variable (hrole : byteAt r.req 1 ≤ 2) (hdevice : fieldAt r.req 4 2 ≤ 4095)
include hrole hdevice

theorem mvbConfigBody_off (hoff : (mvbOf s (byteAt r.req 0)).cfg.role = 0) :
    mvbConfigBody r s = (done [], mvbApply (byteAt r.req 0) (mvbCfgOf r.req) s) := by
  simp only [mvbConfigBody, if_neg (Nat.not_lt.mpr hseg), if_neg (Nat.not_lt.mpr hrole), if_neg (Nat.not_lt.mpr hdevice),
    if_pos hoff, mvbCfgOf]

theorem mvbConfigBody_on (hon : (mvbOf s (byteAt r.req 0)).cfg.role ≠ 0) :
    mvbConfigBody r s = (queued (byteAt r.req 0),
      modMvb (byteAt r.req 0) (fun m => { m with cfgNext := some (mvbCfgOf r.req) }) s) := by
  simp only [mvbConfigBody, if_neg (Nat.not_lt.mpr hseg), if_neg (Nat.not_lt.mpr hrole), if_neg (Nat.not_lt.mpr hdevice),
    if_neg hon, mvbCfgOf]

end

theorem mvbStageBody_accepted (hlen : fieldAt r.req 2 2 % 4 = 0) (hoff : fieldAt r.req 4 4 % 4 = 0)
    (hfits : fieldAt r.req 4 4 + fieldAt r.req 2 2 ≤ 16912) :
    mvbStageBody r s = (done [], modMvb (byteAt r.req 0) (fun m => { m with
      staged := memWrite m.staged (fieldAt r.req 4 4) (r.req.drop 8) }) s) := by
  have hplace : ¬ (fieldAt r.req 4 4 % 4 ≠ 0 ∨ 16912 < fieldAt r.req 4 4 + fieldAt r.req 2 2) := by omega
  simp only [mvbStageBody, Bool.or_eq_true, decide_eq_true_eq, if_neg (Nat.not_lt.mpr hseg), if_neg (not_not.mpr hlen),
    if_neg hplace]

theorem mvbCommitBody_checked (hcheck : pollCheck (mvbOf s (byteAt r.req 0)).staged = none) :
    mvbCommitBody r s = (queued (byteAt r.req 0), modMvb (byteAt r.req 0) (fun m => { m with
      commit := some (mvbParse m.staged, BitVec.ofNat 32 (fieldAt r.req 4 4),
        !(wrapNewer (BitVec.ofNat 32 (fieldAt r.req 4 4)) (cycleNo s))) }) s) := by
  simp only [mvbCommitBody, if_neg (Nat.not_lt.mpr hseg), hcheck]

theorem mvbPortSetBody_accepted (hfcode : (mvbRecord r.req).fcode ≤ 4) (hdir : (mvbRecord r.req).dir ≤ 2)
    (hlink : mvbLinkOk (mvbRecord r.req) s = true) :
    mvbPortSetBody r s = (done [], modMvb (byteAt r.req 0) (fun m => { m with
      portsNext := tblSet m.portsNext (fieldAt r.req 4 2 % 4096) (mvbRecord r.req) }) s) := by
  simp only [mvbPortSetBody, if_neg (Nat.not_lt.mpr hseg), if_neg (Nat.not_lt.mpr hfcode), if_neg (Nat.not_lt.mpr hdir),
    hlink, Bool.not_true, Bool.false_eq_true, if_false]

section
variable {p : MvbPort} (hport : tblGet (mvbOf s (byteAt r.req 0)).ports (fieldAt r.req 2 2) = some p)
include hport

theorem mvbPortWriteBody_source (hdir : p.dir = 1) (hlinked : p.linked = false)
    (hlen : r.req.length = 4 + fcodeBytes p.fcode) :
    mvbPortWriteBody r s = (done [], modMvb (byteAt r.req 0) (fun m => { m with
      ports := tblSet m.ports (fieldAt r.req 2 2) { p with next := some (r.req.drop 4) } }) s) := by
  simp only [mvbPortWriteBody, if_neg (Nat.not_lt.mpr hseg), hport, hdir, hlinked, hlen, ne_eq, not_true_eq_false,
    decide_false, Bool.or_self, Bool.false_eq_true, if_false]

theorem mvbPortReadBody_held (haddr : fieldAt r.req 2 2 < 4096) :
    mvbPortReadBody r s =
      (done ([BitVec.ofNat 8 p.age, BitVec.ofNat 8 (b2n p.held + 2 * b2n p.lineB), 0, 0] ++ p.data), s) := by
  simp only [mvbPortReadBody, if_neg (Nat.not_lt.mpr hseg), if_neg (Nat.not_le.mpr haddr), hport]
  rfl

end

theorem mvbStatusBody_listed : mvbStatusBody r s = (done (mvbStatusRec (mvbOf s (byteAt r.req 0))),
    if clearAsked r.req 1 then modMvb (byteAt r.req 0) (fun m => { m with ctr := ctrClear m.ctr }) s else s) :=
  if_neg (Nat.not_lt.mpr hseg)

end
end

end Sys2Proof.Machine
end

section
/-! PROOFS. CAN channels (spec/09): one channel at a time, its objects and buffers, its interrupts, and what an arbitration
opportunity can make of it. -/

namespace Sys2Proof.Machine

/-! ## One channel at a time -/

theorem canOf_congr {s t : State} (h : t.can = s.can) (d : Nat) : canOf t d = canOf s d := by simp [canOf, h]

theorem Sound.can_lt {s : State} (h : Sound s) (c : Fin 12) : c.val < s.can.length := by rw [h.can]; exact c.isLt

@[simp] theorem modCan_length (c : Nat) (f : Can → Can) (s : State) : (modCan c f s).can.length = s.can.length :=
  updAt_length _ _ _

/-- A channel changed reads as changed; a number that no channel has reads the same. -/
theorem canOf_modCan_or (c : Nat) (f : Can → Can) (s : State) :
    canOf (modCan c f s) c = f (canOf s c) ∨ canOf (modCan c f s) c = canOf s c := by
  by_cases hc : c < s.can.length
  · exact .inl (canOf_modCan_self c f s hc)
  · have hnone : ∀ l : List Can, l.length ≤ c → l.getD c Can.reset = Can.reset := fun l hl => by simp [hl]
    exact .inr ((hnone _ (by simpa using hc)).trans (hnone _ (by simpa using hc)).symm)

@[simp] theorem canOf_begin_ (dt : Nat) (s : State) (d : Nat) : canOf (begin_ dt s) d = canOf s d := rfl

@[simp] theorem canOf_emit (e : Emission) (s : State) (d : Nat) : canOf (emit e s) d = canOf s d := canOf_congr (by simp) d

@[simp] theorem canOf_canTtFault (c cause : Nat) (s : State) (d : Nat) : canOf (canTtFault c cause s) d = canOf s d :=
  canOf_congr (by simp [canTtFault]) d

/-! ## Interrupts (R444) -/

@[simp] theorem canInterrupt_can (vector : Byte) (dest : BitVec 3) (s : State) : (canInterrupt vector dest s).can = s.can := by
  unfold canInterrupt
  split <;> simp

@[simp] theorem canInterrupt_twin (vector : Byte) (dest : BitVec 3) (s : State) :
    (canInterrupt vector dest s).twin = s.twin := by
  unfold canInterrupt
  split <;> simp

/-- Of the channels, an interrupt changes the status bits of its own. -/
theorem canOf_canIrq (c bit : Nat) (s : State) (d : Nat) :
    canOf (canIrq c bit s) d = canOf (modCan c (fun ch => { ch with irqStat := ch.irqStat ||| (1#12 <<< bit) }) s) d := by
  refine canOf_congr ?_ d
  simp only [canIrq, apply_ite State.can, canInterrupt_can, ite_self]

theorem canOf_canIrq_self {c : Nat} (bit : Nat) {s : State} (hc : c < s.can.length) :
    canOf (canIrq c bit s) c = { canOf s c with irqStat := (canOf s c).irqStat ||| (1#12 <<< bit) } :=
  (canOf_canIrq c bit s c).trans (canOf_modCan_self _ _ _ hc)

@[simp] theorem canIrq_twin (c bit : Nat) (s : State) : (canIrq c bit s).twin = s.twin := by
  simp only [canIrq, apply_ite State.twin, canInterrupt_twin, modCan_frame, ite_self]

/-! ## Objects and buffers (R445) -/

section
variable (o : CanSlot) (f : CanObj → CanObj) (ch : Can)

@[simp] theorem canSlotGet_canSlotMod_self : canSlotGet (canSlotMod o f ch) o = f (canSlotGet ch o) := by
  cases o <;> simp [canSlotGet, canSlotMod, tblGet_tblSet_self]

theorem canSlotGet_canSlotMod_ne {p : CanSlot} (h : p ≠ o) : canSlotGet (canSlotMod o f ch) p = canSlotGet ch p := by
  cases o with
  | obj i =>
    cases p with
    | obj j =>
      have hne : j.val ≠ i.val := fun e => h (congrArg CanSlot.obj (Fin.ext e))
      simp only [canSlotGet, canSlotMod, tblGet_tblSet_ne _ _ hne]
    | hpb b => rfl
  | hpb a =>
    cases p with
    | obj j => rfl
    | hpb b =>
      have hne : b.val ≠ a.val := fun e => h (congrArg CanSlot.hpb (Fin.ext e))
      simp only [canSlotGet, canSlotMod, tblGet_tblSet_ne _ _ hne]

@[simp] theorem canSlotMod_frame :
    (canSlotMod o f ch).pending = ch.pending ∧ (canSlotMod o f ch).cfgErr = ch.cfgErr ∧ (canSlotMod o f ch).ctr = ch.ctr ∧
    (canSlotMod o f ch).refDue = ch.refDue ∧ (canSlotMod o f ch).refWait = ch.refWait := by
  cases o <;> exact ⟨rfl, rfl, rfl, rfl, rfl⟩

end

/-! ## Closed gates (R424) -/

/-- A gate is judged by the twin service alone. -/
theorem canGated_congr {s t : State} (h : t.twin = s.twin) (x : CanObj) : canGated x t = canGated x s := by
  simp only [canGated, canGateOpen, gateOpen, mayClaim, h]

/-- R437: the reference is withheld, or nothing is. -/
theorem canRefWithhold_or (c : Nat) (s : State) :
    canRefWithhold c s = modCan c (fun ch => { ch with
      slaveAct := true, refDue := false, refWait := false, running := false, window := none, lastRefClk := s.clk }) s ∨
    canRefWithhold c s = s := ite_eq_or_eq _ _ _

theorem canRefWithhold_twin (c : Nat) (s : State) : (canRefWithhold c s).twin = s.twin := by
  rcases canRefWithhold_or c s with heq | heq <;> rw [heq]
  rfl

/-! ## An arbitration opportunity (R39, R419, R426, R436–R440) -/

/-- The slot's flag WITHHELD set. -/
def flagWithheld (x : CanObj) : CanObj := { x with withheld := true }

/-- R426: the pending request of a slot withheld. -/
def withholdSlot (o : CanSlot) (ch : Can) : Can :=
  canSlotMod o flagWithheld { canDrop o ch with ctr := ctrInc ch.ctr 10 }

theorem canSlotGet_withholdSlot_self (o : CanSlot) (ch : Can) :
    canSlotGet (withholdSlot o ch) o = flagWithheld (canSlotGet ch o) := canSlotGet_canSlotMod_self _ _ _

theorem canSlotGet_withholdSlot_ne {o p : CanSlot} (h : p ≠ o) (ch : Can) :
    canSlotGet (withholdSlot o ch) p = canSlotGet ch p := canSlotGet_canSlotMod_ne _ _ _ h

theorem withholdSlot_pending (o : CanSlot) (ch : Can) :
    (withholdSlot o ch).pending = ch.pending.filter (fun r => r.slot ≠ o) := (canSlotMod_frame _ _ _).1

/-- What an arbitration opportunity can make of channel `a`, one change after another; `gated` tells the objects whose gate is
closed. -/
inductive Offered (gated : CanObj → Bool) (a : Can) : Can → Prop
  | same : Offered gated a a
  | refWithheld {b : Can} (clk : Nat) : Offered gated a b → Offered gated a { b with
      slaveAct := true, refDue := false, refWait := false, running := false, window := none, lastRefClk := clk }
  | withheld {b : Can} (o : CanSlot) : gated (canSlotGet b o) = true → Offered gated a b →
      Offered gated a (withholdSlot o b)
  | notRetried {b : Can} (o : CanSlot) (late exclusive : Bool) : Offered gated a b →
      Offered gated a { b with tx := .slot o late true exclusive }
  | lapsed {b : Can} : Offered gated a b → Offered gated a { b with window := none, ctr := ctrInc b.ctr 10 }
  | handed {b : Can} (col : Nat) : Offered gated a b → Offered gated a { b with window := some (col, true) }
  | started {b : Can} (o : CanSlot) (exclusive : Bool) (ts : BitVec 30) : Offered gated a b →
      Offered gated a { b with tx := .slot o false false exclusive, act := 3, sofNs := ts }
  | referred {b : Can} (row : Nat) (late : Bool) (ts : BitVec 30) : Offered gated a b → Offered gated a { b with
      tx := .reference row, act := 3, sofNs := ts, refWait := false, ctr := if late then ctrInc b.ctr 13 else b.ctr }

section
variable {gated : CanObj → Bool} {a : Can} {c : Nat}

/-- A change that keeps to what an opportunity can make of a channel, made to the channel. -/
theorem Offered.modCan {s : State} {f : Can → Can} (h : Offered gated a (canOf s c))
    (hf : Offered gated a (canOf s c) → Offered gated a (f (canOf s c))) : Offered gated a (canOf (modCan c f s) c) := by
  rcases canOf_modCan_or c f s with heq | heq <;> rw [heq]
  · exact hf h
  · exact h

theorem canRefWithhold_offered {s : State} (h : Offered gated a (canOf s c)) :
    Offered gated a (canOf (canRefWithhold c s) c) := by
  rcases canRefWithhold_or c s with heq | heq <;> rw [heq]
  · exact h.modCan (.refWithheld _)
  · exact h

/-- R426: the requests of a list withheld, one after another. -/
theorem forEach_withheld_offered {l : List CanReq} {s : State} (h : Offered gated a (canOf s c))
    (hl : ∀ r ∈ l, gated (canSlotGet (canOf s c) r.slot) = true) (hflag : ∀ x, gated (flagWithheld x) = gated x) :
    Offered gated a (canOf (forEach l (fun r s => modCan c (withholdSlot r.slot) s) s) c) := by
  induction l generalizing s with
  | nil => exact h
  | cons r rs ih =>
    refine ih (h.modCan (.withheld _ (hl r (by simp)))) fun q hq => ?_
    have hq' := hl q (by simp [hq])
    rcases canOf_modCan_or c (withholdSlot r.slot) s with heq | heq <;> rw [heq]
    · by_cases hqr : q.slot = r.slot
      · rw [hqr] at hq' ⊢
        rw [canSlotGet_withholdSlot_self, hflag]
        exact hq'
      · rw [canSlotGet_withholdSlot_ne hqr]
        exact hq'
    · exact hq'

theorem canStart_offered {s : State} (o : CanSlot) (exclusive : Bool) (h : Offered gated a (canOf s c)) :
    Offered gated a (canOf (canStart c o exclusive s) c) := by
  refine Offered.modCan ?_ (.started _ _ _)
  rw [canOf_emit]
  exact h

theorem canStartRef_offered {s : State} (late : Bool) (h : Offered gated a (canOf s c)) :
    Offered gated a (canOf (canStartRef c late s) c) := by
  simp only [canStartRef, canOf_emit]
  exact Offered.modCan (s := (canStamp s).2) h (.referred _ _ _)

theorem canOfferExclusive_offered {s : State} (col : Nat) (o : CanSlot) (h : Offered gated a (canOf s c)) :
    Offered gated a (canOf (canOfferExclusive c col o s) c) := by
  unfold canOfferExclusive
  split
  · exact h.modCan .lapsed
  · exact (canStart_offered o true h).modCan (.handed col)

theorem canOfferPending_offered {s : State} (h : Offered gated a (canOf s c)) :
    Offered gated a (canOf (canOfferPending c s) c) := by
  unfold canOfferPending
  split
  · exact canStart_offered _ _ h
  · exact h

end

/-- R426, R437: what withholding makes of the channel. -/
theorem canWithhold_offered (c : Nat) (s : State) :
    Offered (fun x => canGated x s) (canOf s c) (canOf (canWithhold c s) c) := by
  have hgate (x : CanObj) : canGated x (canRefWithhold c s) = canGated x s := canGated_congr (canRefWithhold_twin c s) x
  have hout (l : List CanReq) (hl : ∀ r ∈ l, canGated (canSlotGet (canOf (canRefWithhold c s) c) r.slot) s = true) :=
    forEach_withheld_offered (gated := fun x => canGated x s) (canRefWithhold_offered (.same (a := canOf s c))) hl fun _ => rfl
  have hshut {p : CanReq → Bool} {u : Can} {r : CanReq} (hr : r ∈ u.pending.filter (fun r =>
      canGated (canSlotGet u r.slot) (canRefWithhold c s) && p r)) : canGated (canSlotGet u r.slot) s = true :=
    (hgate _).symm.trans (Bool.and_elim_left (List.mem_filter.mp hr).2)
  unfold canWithhold
  dsimp only
  split
  · split
    · exact (hout _ fun _ hr => hshut hr).modCan (.notRetried _ _ _)
    · exact hout _ fun _ hr => hshut hr
  · exact hout _ fun _ hr => hshut hr

theorem canOffer_offered (c : Nat) (s : State) :
    Offered (fun x => canGated x s) (canOf s c) (canOf (canOffer c s) c) := by
  have h := canWithhold_offered c s
  unfold canOffer
  dsimp only
  repeat' split
  · exact h
  · exact canStartRef_offered _ h
  · exact canOfferExclusive_offered _ _ h
  · exact canOfferPending_offered h
  · exact h
  · exact h
  · exact canOfferPending_offered h

/-! ### What it leaves -/

theorem take_updAt {α : Type} (l : List α) {i k : Nat} (f : α → α) (h : k ≤ i) : (updAt l i f).take k = l.take k := by
  induction l generalizing i k with
  | nil => rfl
  | cons x xs ih =>
    cases k with
    | zero => rfl
    | succ k =>
      cases i with
      | zero => omega
      | succ i => simp [updAt, ih (Nat.le_of_succ_le_succ h)]

/-- A channel without what an arbitration opportunity may write: of the counters, those from WITHHELD on. -/
def unoffered (ch : Can) : Can := { ch with
  pending := [], objs := [], hpbs := [], tx := .none, act := 0, sofNs := 0, window := none, running := false
  slaveAct := false, refDue := false, refWait := false, lastRefClk := 0, ctr := ch.ctr.take 10 }

namespace Offered

section
variable {gated : CanObj → Bool} {a b : Can} (h : Offered gated a b)
include h

theorem unoffered_eq : unoffered b = unoffered a := by
  have htake (ch : Can) {i : Nat} (hi : 10 ≤ i) : (ctrInc ch.ctr i).take 10 = ch.ctr.take 10 := take_updAt _ _ hi
  induction h with
  | same => rfl
  | withheld o _ _ ih => cases o <;> simpa [unoffered, withholdSlot, canSlotMod, canDrop, htake] using ih
  | lapsed _ ih => simpa [unoffered, htake] using ih
  | referred _ late _ _ ih => cases late <;> simpa [unoffered, htake] using ih
  | refWithheld _ _ ih | notRetried _ _ _ _ ih | handed _ _ ih | started _ _ _ _ ih => exact ih

/-- A field that `unoffered` shows reads the same. -/
theorem reads {β : Type} (f : Can → β) (hf : ∀ ch, f (unoffered ch) = f ch) : f b = f a := by
  rw [← hf b, h.unoffered_eq, hf a]

/-- R426: a slot is left alone, or marked WITHHELD. -/
theorem slot (o : CanSlot) : canSlotGet b o = canSlotGet a o ∨ canSlotGet b o = flagWithheld (canSlotGet a o) := by
  induction h with
  | same => exact .inl rfl
  | @withheld b p _ _ ih =>
    by_cases hop : o = p
    · subst hop
      rw [canSlotGet_withholdSlot_self]
      rcases ih with ih | ih <;> rw [ih] <;> exact .inr rfl
    · rw [canSlotGet_withholdSlot_ne hop]
      exact ih
  | refWithheld _ _ ih | notRetried _ _ _ _ ih | lapsed _ ih | handed _ _ ih | started _ _ _ _ ih
  | referred _ _ _ _ ih => exact ih

theorem cancelled (o : CanSlot) : (canSlotGet b o).cancelled = (canSlotGet a o).cancelled := by
  rcases h.slot o with heq | heq <;> rw [heq]
  rfl

theorem staysWithheld {o : CanSlot} (hset : (canSlotGet a o).withheld = true) : (canSlotGet b o).withheld = true := by
  rcases h.slot o with heq | heq <;> rw [heq]
  · exact hset
  · rfl

theorem pending_sub : ∀ r ∈ b.pending, r ∈ a.pending := by
  induction h with
  | same => exact fun _ hr => hr
  | withheld o _ _ ih =>
    intro r hr
    rw [withholdSlot_pending] at hr
    exact ih r (List.mem_of_mem_filter hr)
  | refWithheld _ _ ih | notRetried _ _ _ _ ih | lapsed _ ih | handed _ _ ih | started _ _ _ _ ih
  | referred _ _ _ _ ih => exact ih

/-- Requests of open gates all stay pending. -/
theorem pending_eq (hflag : ∀ x, gated (flagWithheld x) = gated x)
    (hopen : ∀ r ∈ a.pending, gated (canSlotGet a r.slot) = false) : b.pending = a.pending := by
  induction h with
  | same => rfl
  | @withheld b o hgated hb ih =>
    have hkept : ∀ r ∈ b.pending, r.slot ≠ o := by
      rintro r hr rfl
      have hfree := hopen r (ih ▸ hr)
      have hgate : gated (canSlotGet b r.slot) = gated (canSlotGet a r.slot) := by
        rcases hb.slot r.slot with heq | heq <;> rw [heq]
        exact hflag _
      exact absurd (hgated.symm.trans (hgate.trans hfree)) (by decide)
    calc (withholdSlot o b).pending
      _ = b.pending.filter (fun r => r.slot ≠ o) := withholdSlot_pending o b
      _ = b.pending := List.filter_eq_self.mpr (by simpa using hkept)
      _ = a.pending := ih
  | refWithheld _ _ ih | notRetried _ _ _ _ ih | lapsed _ ih | handed _ _ ih | started _ _ _ _ ih
  | referred _ _ _ _ ih => exact ih

/-- R436: an opportunity makes no reference due. -/
theorem noRef (hdue : a.refDue = false) (hwait : a.refWait = false) : b.refDue = false ∧ b.refWait = false := by
  induction h with
  | same => exact ⟨hdue, hwait⟩
  | withheld o _ _ ih => simpa [withholdSlot, canDrop] using ih
  | refWithheld _ _ _ => exact ⟨rfl, rfl⟩
  | referred _ _ _ _ ih => exact ⟨ih.1, rfl⟩
  | notRetried _ _ _ _ ih | lapsed _ ih | handed _ _ ih | started _ _ _ _ ih => exact ih

end
end Offered

end Sys2Proof.Machine
end

section
/-! PROOFS. Host accesses of a CAN channel (spec/09): the mode, requests and cancellations, the receive queue, recovery, and the
words of an object or buffer. -/

namespace Sys2Proof.Machine

/-- What an arbitration opportunity leaves of the mode and the control register. -/
@[simp] theorem canOffer_control (c : Nat) (s : State) :
    (canOf (canOffer c s) c).modeAct = (canOf s c).modeAct ∧ (canOf (canOffer c s) c).modeNext = (canOf s c).modeNext ∧
    (canOf (canOffer c s) c).integrating = (canOf s c).integrating ∧ (canOf (canOffer c s) c).ctrl = (canOf s c).ctrl ∧
    (canOf (canOffer c s) c).cfgErr = (canOf s c).cfgErr := by
  have h := canOffer_offered c s
  exact ⟨h.reads Can.modeAct fun _ => rfl, h.reads Can.modeNext fun _ => rfl, h.reads Can.integrating fun _ => rfl,
    h.reads Can.ctrl fun _ => rfl, h.reads Can.cfgErr fun _ => rfl⟩

section
variable {c : Nat} {s : State}

/-! ## The mode (R403, R407, R409) -/

/-- CAN_CTRL holds `v`. -/
def withCtrl (v : BitVec 32) (ch : Can) : Can := { ch with ctrl := v }

theorem canTimingOk_rewritten {v : BitVec 32} {ch : Can} (h : ch.ctrl = v) :
    canTimingOk { ch with ctrl := v } = canTimingOk ch := by
  subst h
  rfl

/-- CAN_CTRL holds `v` and its mode `m` is in effect, with the arbitration opportunity that comes of it. -/
def ctrlInEffect (c m : Nat) (v : BitVec 32) (s : State) : State :=
  canOffer c (canApplyMode c m (modCan c (fun _ => withCtrl v (canOf s c)) s))

section
variable (hconfig : canModeAct (canOf s c) = 0) (hctrl : (canOf s c).ctrl = 0x10)
include hconfig hctrl

/-- Config is left with a legal timing. -/
theorem canWriteCtrl_legal (htiming : canTimingOk (canOf s c) = true) :
    canWriteCtrl c false 0x11 s = ctrlInEffect c 1 0x11 s := by
  simp [canWriteCtrl, ctrlInEffect, withCtrl, hconfig, hctrl, canTimingOk_rewritten (v := 16#32) hctrl, htiming, canTakesPart]

theorem canWriteCtrl_illegal (htiming : canTimingOk (canOf s c) = false) :
    canWriteCtrl c false 0x11 s = modCan c (fun _ => { withCtrl 0x10 (canOf s c) with cfgErr := true }) s := by
  simp [canWriteCtrl, withCtrl, hconfig, hctrl, canTimingOk_rewritten (v := 16#32) hctrl, htiming]

end

section
variable (hnormal : canModeAct (canOf s c) = 1) (hctrl : (canOf s c).ctrl = 0x11)
include hnormal hctrl

/-- The channel takes part in a frame: the mode waits for its end. -/
theorem canWriteCtrl_busy (hpart : canTakesPart (canOf s c) = true) :
    canWriteCtrl c true 0x10 s =
      modCan c (fun ch => { ch with modeNext := some 0 }) (modCan c (fun _ => withCtrl 0x10 (canOf s c)) s) := by
  simp [canWriteCtrl, withCtrl, hnormal, hctrl, hpart]

theorem canWriteCtrl_idle (hact : (canOf s c).act.toNat < 2) :
    canWriteCtrl c false 0x10 s = ctrlInEffect c 0 0x10 s := by
  simp [canWriteCtrl, ctrlInEffect, withCtrl, hnormal, hctrl, Nat.not_le.mpr hact]

end

section
variable (hc : c < s.can.length) (v : BitVec 32) (m : Nat)
include hc

theorem ctrlInEffect_control :
    (canOf (ctrlInEffect c m v s) c).modeAct = BitVec.ofNat 3 m ∧ (canOf (ctrlInEffect c m v s) c).modeNext = none ∧
    (canOf (ctrlInEffect c m v s) c).ctrl = v ∧ (canOf (ctrlInEffect c m v s) c).cfgErr = (canOf s c).cfgErr := by
  simp [ctrlInEffect, canApplyMode, canOf_modCan_self, hc, withCtrl]

/-- R408: a channel that leaves Config integrates. -/
theorem ctrlInEffect_integrating (hconfig : canModeAct (canOf s c) = 0) (hm : m ≠ 0 ∧ m ≠ 6) :
    (canOf (ctrlInEffect c m v s) c).integrating = true := by
  have hmode : canModeAct (withCtrl v (canOf s c)) = 0 := hconfig
  simp [ctrlInEffect, canApplyMode, canOf_modCan_self, hc, hmode, hm]

end

/-! ## Requests (R417, R424) -/

section
variable {o : CanSlot} (hen : (canSlotGet (canOf s c) o).en = true) (htx : (canSlotGet (canOf s c) o).tx = true)
  (hfdf : (canSlotGet (canOf s c) o).fdf = false) (hexcl : canNamedExclusive (canOf s c) o = false)
include hen htx hfdf hexcl

theorem canRequest_accepted (hopen : canGated (canSlotGet (canOf s c) o) s = false)
    (hnew : canIsPending (canOf s c) o = false) :
    canRequest c o s = modCan c (fun ch => { ch with pending := ch.pending ++ [{ slot := o, unacks := 0 }] }) s := by
  simp [canRequest, hen, htx, hfdf, hexcl, hopen, hnew]

theorem canRequest_withheld (hshut : canGated (canSlotGet (canOf s c) o) s = true) :
    canRequest c o s = modCan c (fun ch => canSlotMod o flagWithheld { ch with ctr := ctrInc ch.ctr 10 }) s := by
  simp only [canRequest, hen, htx, hfdf, hexcl, hshut, Bool.not_true, Bool.or_self, Bool.false_and, Bool.false_eq_true,
    if_false, if_true]
  rfl

variable (hc : c < s.can.length)
include hc

/-- A request of a slot that no claim gates joins the pending ones, while no gate of theirs is closed. -/
theorem canOffer_request_pending (hclaim : (canSlotGet (canOf s c) o).claim = false)
    (hnew : canIsPending (canOf s c) o = false)
    (hopen : ∀ r ∈ (canOf s c).pending, canGated (canSlotGet (canOf s c) r.slot) s = false) :
    (canOf (canOffer c (canRequest c o s)) c).pending = (canOf s c).pending ++ [{ slot := o, unacks := 0 }] := by
  have hfree : canGated (canSlotGet (canOf s c) o) s = false := by simp [canGated, hclaim]
  rw [canRequest_accepted hen htx hfdf hexcl hfree hnew]
  have hinst := canOf_modCan_self c (fun ch => { ch with pending := ch.pending ++ [{ slot := o, unacks := 0 }] }) s hc
  refine ((canOffer_offered c _).pending_eq (fun _ => rfl) ?_).trans (congrArg Can.pending hinst)
  rw [hinst]
  intro r hr
  rcases List.mem_append.mp hr with hold | hr
  · exact hopen r hold
  · rw [List.mem_singleton.mp hr]
    exact hfree

/-- A request of a slot whose gate is shut is marked WITHHELD, and the pending ones gain none. -/
theorem canOffer_request_withheld (hshut : canGated (canSlotGet (canOf s c) o) s = true) :
    (∀ r ∈ (canOf (canOffer c (canRequest c o s)) c).pending, r ∈ (canOf s c).pending) ∧
    (canSlotGet (canOf (canOffer c (canRequest c o s)) c) o).withheld = true := by
  rw [canRequest_withheld hen htx hfdf hexcl hshut]
  have hinst := canOf_modCan_self c (fun ch => canSlotMod o flagWithheld { ch with ctr := ctrInc ch.ctr 10 }) s hc
  have hoffered := canOffer_offered c (modCan c (fun ch => canSlotMod o flagWithheld { ch with ctr := ctrInc ch.ctr 10 }) s)
  rw [hinst] at hoffered
  refine ⟨fun r hr => ?_, ?_⟩
  · simpa using hoffered.pending_sub r hr
  · exact hoffered.staysWithheld (by rw [canSlotGet_canSlotMod_self]; rfl)

end

/-! ## Cancellations (R428) -/

section
variable {o : CanSlot} (hidle : (canOf s c).tx = .none) (hpend : canIsPending (canOf s c) o = true)
include hidle hpend

/-- A pending request that is not being sent is withdrawn with its flag CANCELLED. -/
theorem canCancel_withdrawn : canCancel c o s =
    canIrq c 9 (modCan c (fun ch => canSlotMod o (fun y => { y with cancelled := true }) (canDrop o ch)) s) := by
  simp [canCancel, hidle, hpend]

theorem canCancel_twin : (canCancel c o s).twin = s.twin := by
  rw [canCancel_withdrawn hidle hpend, canIrq_twin]
  rfl

variable (hc : c < s.can.length)
include hc

theorem canOf_canCancel : ∃ irq, canOf (canCancel c o s) c =
    { canSlotMod o (fun y => { y with cancelled := true }) (canDrop o (canOf s c)) with irqStat := irq } := by
  rw [canCancel_withdrawn hidle hpend, canOf_canIrq_self _ (by simpa using hc), canOf_modCan_self _ _ _ hc]
  exact ⟨_, rfl⟩

theorem canCancel_slot : canSlotGet (canOf (canCancel c o s) c) o = { canSlotGet (canOf s c) o with cancelled := true } := by
  obtain ⟨irq, heq⟩ := canOf_canCancel hidle hpend hc
  rw [heq]
  exact canSlotGet_canSlotMod_self _ _ _

theorem canCancel_slot_other {p : CanSlot} (h : p ≠ o) :
    canSlotGet (canOf (canCancel c o s) c) p = canSlotGet (canOf s c) p := by
  obtain ⟨irq, heq⟩ := canOf_canCancel hidle hpend hc
  rw [heq]
  exact canSlotGet_canSlotMod_ne _ _ _ h

theorem canCancel_pending :
    (canOf (canCancel c o s) c).pending = (canOf s c).pending.filter (fun r => r.slot ≠ o) := by
  obtain ⟨irq, heq⟩ := canOf_canCancel hidle hpend hc
  rw [heq]
  exact (canSlotMod_frame _ _ _).1

/-- The arbitration opportunity after a cancellation takes nothing of it back. -/
theorem canOffer_cancel (hopen : ∀ r ∈ (canOf s c).pending, canGated (canSlotGet (canOf s c) r.slot) s = false) :
    (canSlotGet (canOf (canOffer c (canCancel c o s)) c) o).cancelled = true ∧
    (canOf (canOffer c (canCancel c o s)) c).pending = (canOf s c).pending.filter (fun r => r.slot ≠ o) := by
  have hoffered := canOffer_offered c (canCancel c o s)
  have hflag := canCancel_slot hidle hpend hc
  constructor
  · rw [hoffered.cancelled, hflag]
  · refine (hoffered.pending_eq (fun _ => rfl) fun r hr => ?_).trans (canCancel_pending hidle hpend hc)
    rw [canCancel_pending hidle hpend hc] at hr
    obtain ⟨hold, hne⟩ := List.mem_filter.mp hr
    rw [canCancel_slot_other hidle hpend hc (by simpa using hne), canGated_congr (canCancel_twin hidle hpend)]
    exact hopen r hold

end

/-! ## The masks of TXRQ, TXCAN and HPB_CTRL -/

theorem filter_finRange_eq_singleton {n : Nat} {p : Fin n → Bool} {a : Fin n} (h : ∀ j, p j = true ↔ j = a) :
    (List.finRange n).filter p = [a] := by
  have hp : p = (· == a) := funext fun j => by rw [Bool.eq_iff_iff, h, beq_iff_eq]
  rw [hp, List.filter_beq, List.count_eq_one_of_mem (List.nodup_finRange n) (List.mem_finRange a)]
  rfl

/-- One bit of the first mask word names one object. -/
theorem canMaskSlots_one (i : Fin 32) : canMaskSlots 0 (1#32 <<< i.val) = [.obj (Fin.ofNat 128 i.val)] := by
  refine congrArg (List.map CanSlot.obj) (filter_finRange_eq_singleton fun j => ?_)
  have hbit : (1#32 <<< i.val).getLsbD (j.val % 32) = decide (j.val % 32 = i.val) := by
    rw [BitVec.getLsbD_shiftLeft, BitVec.getLsbD_one, Bool.eq_iff_iff]
    simp only [Nat.ofNat_pos, decide_true, Bool.true_and, Bool.and_eq_true, decide_eq_true_eq,
      Bool.not_eq_true', decide_eq_false_iff_not, not_lt]
    omega
  simp only [hbit, Bool.and_eq_true, beq_iff_eq, decide_eq_true_eq, Fin.ext_iff, Fin.val_ofNat]
  omega

theorem canMaskHpbs_one (b : Fin 8) : canMaskHpbs (2 ^ b.val) = [.hpb b] := by
  revert b
  decide

theorem canTxrq_one (i : Fin 32) :
    canTxrq c 0 (1#32 <<< i.val) s = canOffer c (canRequest c (.obj (Fin.ofNat 128 i.val)) s) := by
  rw [canTxrq, canMaskSlots_one]
  rfl

theorem canTxcan_one (i : Fin 32) : canTxcan c 0 (1#32 <<< i.val) s = canCancel c (.obj (Fin.ofNat 128 i.val)) s := by
  rw [canTxcan, canMaskSlots_one]
  rfl

theorem updAt_id {α : Type} (l : List α) (i : Nat) : updAt l i (fun x => x) = l := by
  induction l generalizing i with
  | nil => rfl
  | cons x xs ih => cases i <;> simp [updAt, ih]

/-- A write of HPB_CTRL that clears no DONE bit. -/
theorem canHpbCtrl_keepsDone {v : BitVec 32} (h : bitsOf v.toNat 16 8 = 0) :
    canHpbCtrl c v s = canOffer c (forEach (canMaskHpbs (bitsOf v.toNat 0 8)) (canRequest c)
      (forEach (canMaskHpbs (bitsOf v.toNat 8 8)) (canCancel c) s)) := by
  have hsame : modCan c (fun ch => { ch with hpbDone := ch.hpbDone &&& ~~~ (BitVec.ofNat 8 (bitsOf v.toNat 16 8)) }) s = s := by
    have hall (b : Byte) : b &&& 255#8 = b := BitVec.and_allOnes
    simp [h, hall, modCan, updAt_id]
  simp only [canHpbCtrl, hsame]

theorem canHpbCtrl_request (b : Fin 8) :
    canHpbCtrl c (1#32 <<< b.val) s = canOffer c (canRequest c (.hpb b) s) := by
  have hfields : bitsOf (1#32 <<< b.val).toNat 16 8 = 0 ∧ bitsOf (1#32 <<< b.val).toNat 8 8 = 0 ∧
      bitsOf (1#32 <<< b.val).toNat 0 8 = 2 ^ b.val := by
    revert b
    decide
  obtain ⟨hdone, hcancel, hrequest⟩ := hfields
  rw [canHpbCtrl_keepsDone hdone, hcancel, hrequest, canMaskHpbs_one]
  rfl

theorem canHpbCtrl_cancel (b : Fin 8) :
    canHpbCtrl c (1#32 <<< (8 + b.val)) s = canOffer c (canCancel c (.hpb b) s) := by
  have hfields : bitsOf (1#32 <<< (8 + b.val)).toNat 16 8 = 0 ∧ bitsOf (1#32 <<< (8 + b.val)).toNat 8 8 = 2 ^ b.val ∧
      bitsOf (1#32 <<< (8 + b.val)).toNat 0 8 = 0 := by
    revert b
    decide
  obtain ⟨hdone, hcancel, hrequest⟩ := hfields
  rw [canHpbCtrl_keepsDone hdone, hcancel, hrequest, canMaskHpbs_one]
  rfl

/-! ## Recovery and the receive queue (R414, R433) -/

theorem canRecoverStart_waiting (h : (canOf s c).recovPend = true) :
    canRecoverStart c 1 s = modCan c (fun ch => { ch with recovPend := false, recovering := true, recovCnt := 0 }) s := by
  simp [canRecoverStart, h]

theorem canRecoverStart_none (h : (canOf s c).recovPend = false) : canRecoverStart c 1 s = s := by
  simp [canRecoverStart, h]

theorem canFifoPop_head (h : (canOf s c).fifoLevel ≠ 0) : canFifoPop c 0x10000 s =
    modCan c (fun ch => { ch with fifoHead := canHeadNext ch, fifoLevel := ch.fifoLevel - 1 }) s :=
  if_pos (by simpa using h)

theorem canFifoPop_empty (h : (canOf s c).fifoLevel = 0) : canFifoPop c 0x10000 s = s := by
  simp [canFifoPop, h]

/-! ## Words of an object or buffer (R415, R418, R423) -/

@[simp] theorem leBytes_length (k v : Nat) : (leBytes k v).length = k := by
  induction k generalizing v with
  | zero => rfl
  | succ k ih => simp [leBytes, ih]

/-- Word 0 is the first four of the 80 bytes. -/
theorem canObjBytes_word0 (o : CanSlot) (x : CanObj) :
    (canObjBytes o x).take 4 = leBytes 4 (canObjWord (canIsHpb o) x 0) := by
  simp [canObjBytes]

theorem canLatch_shadow (o : CanSlot) (i : Iface) (hc : c < s.can.length) :
    (i, o, canObjBytes o (canSlotGet (canOf s c) o)) ∈ (canOf (canLatch c o i s) c).shadows := by
  rw [canLatch, canOf_modCan_self _ _ _ hc]
  exact List.mem_append_right _ (List.mem_singleton_self _)

theorem canLatch_slots (o : CanSlot) (i : Iface) (hc : c < s.can.length) :
    (canOf (canLatch c o i s) c).objs = (canOf s c).objs ∧ (canOf (canLatch c o i s) c).hpbs = (canOf s c).hpbs := by
  rw [canLatch, canOf_modCan_self _ _ _ hc]
  exact ⟨rfl, rfl⟩

section
variable {o : CanSlot} {v : BitVec 32}

theorem canObjWrite_header (hfree : canIsPending (canOf s c) o = false) : canObjWrite c o 0 v s =
    modCan c (canSlotMod o (fun _ => canObjSet (canIsHpb o) 0 v.toNat (canSlotGet (canOf s c) o))) s := by
  simp [canObjWrite, hfree]

/-- R418: the header of a transmit slot whose request is pending stands. -/
theorem canObjWrite_locked (hpend : canIsPending (canOf s c) o = true) (htx : (canSlotGet (canOf s c) o).tx = true) :
    canObjWrite c o 0 v s = modCan c (canSlotMod o (fun _ => canSlotGet (canOf s c) o)) s := by
  simp [canObjWrite, hpend, htx]

/-- LINK's undefined code is no legal link. -/
theorem canLinkOk_undefined {isHpb : Bool} {x : CanObj} (h : x.link = 3) : canLinkOk isHpb x s = false := by
  simp [canLinkOk, h]

/-- R423: a word 1 with an illegal link sets CFG_ERR, and of the slot clears the status bits written alone. -/
theorem canObjWrite_illegalLink (hfree : canIsPending (canOf s c) o = false) : canObjWrite c o 1 0xC100 s =
    modCan c (fun ch => canSlotMod o (canObjW1c 0xC100) { ch with cfgErr := true }) s := by
  have hlink : canLinkOk (canIsHpb o) (canObjSet (canIsHpb o) 1 0xC100 (canSlotGet (canOf s c) o)) s = false :=
    canLinkOk_undefined rfl
  simp [canObjWrite, hfree, hlink]

end
end

/-! ## The commands -/

section
variable {dt : Nat} {c : Fin 12} {src : Iface} {s : State}

theorem exec_canModeWrite {v : BitVec 32} {busy : Bool} (h : Accesses src (canAddr c 0x000) s) :
    exec (.canModeWrite dt c src v busy) s = .next (canWriteCtrl c busy v (begin_ dt s)) :=
  congrArg Host.Outcome.next (hostAccess_carried h)

theorem exec_canTxrqWrite (h : Accesses src (canAddr c 0x040) s) (i : Fin 32) :
    exec (.canTxrqWrite dt c 0 src (1#32 <<< i.val)) s =
      .next (canOffer c (canRequest c (.obj (Fin.ofNat 128 i.val)) (begin_ dt s))) :=
  congrArg Host.Outcome.next ((hostAccess_carried h).trans (canTxrq_one i))

theorem exec_canTxcanWrite (h : Accesses src (canAddr c 0x050) s) (i : Fin 32) :
    exec (.canTxcanWrite dt c 0 src (1#32 <<< i.val)) s =
      .next (canCancel c (.obj (Fin.ofNat 128 i.val)) (begin_ dt s)) :=
  congrArg Host.Outcome.next ((hostAccess_carried h).trans (canTxcan_one i))

theorem exec_canHpbRequest (h : Accesses src (canAddr c 0x070) s) (b : Fin 8) :
    exec (.canHpbRequest dt c src (1#32 <<< b.val)) s = .next (canOffer c (canRequest c (.hpb b) (begin_ dt s))) :=
  congrArg Host.Outcome.next ((hostAccess_carried h).trans (canHpbCtrl_request b))

theorem exec_canHpbCancel (h : Accesses src (canAddr c 0x070) s) (b : Fin 8) :
    exec (.canHpbCancel dt c src (1#32 <<< (8 + b.val))) s = .next (canOffer c (canCancel c (.hpb b) (begin_ dt s))) :=
  congrArg Host.Outcome.next ((hostAccess_carried h).trans (canHpbCtrl_cancel b))

theorem exec_canRecoverStart (h : Accesses src (canAddr c 0x018) s) {v : BitVec 32} :
    exec (.canRecoverStart dt c src v) s = .next (canRecoverStart c v (begin_ dt s)) :=
  congrArg Host.Outcome.next (hostAccess_carried h)

theorem exec_canFifoPop (h : Accesses src (canAddr c 0x024) s) {v : BitVec 32} :
    exec (.canFifoPop dt c src v) s = .next (canFifoPop c v (begin_ dt s)) :=
  congrArg Host.Outcome.next (hostAccess_carried h)

theorem exec_canObjectWord0Read {o : CanSlot} (h : Accesses src (canAddr c (canSlotOff o)) s) :
    exec (.canObjectWord0Read dt c o src) s = .next (emit (.readData src ((canObjBytes o (canSlotGet (canOf s c) o)).take 4))
      (canLatch c o src (begin_ dt s))) := by
  rw [canObjBytes_word0]
  exact congrArg Host.Outcome.next (hostAccess_carried h)

theorem exec_canObjectWrite {o : CanSlot} {w : Fin 20} {v : BitVec 32}
    (h : Accesses src (canAddr c (canSlotOff o + 4 * w.val)) s) :
    exec (.canObjectWrite dt c o w src v) s = .next (canObjWrite c o w v (begin_ dt s)) :=
  congrArg Host.Outcome.next (hostAccess_carried h)

end

end Sys2Proof.Machine
end

section
/-! PROOFS. The hatch matrix of a CAN channel (spec/09): commits, references and their absence, and the windows of the columns. -/

namespace Sys2Proof.Machine

section
variable {c : Nat} {s : State}

/-! ## Commits (R441) -/

theorem canCommitWrite_ahead {k : BitVec 32} (h : wrapNewer k (cycleNo s) = true) : canCommitWrite c k s =
    modCan c (fun ch => { ch with commit := k, commitPend := true, commitLate := ch.commitLate }) s := by
  simp [canCommitWrite, h]

theorem canCommitWrite_late {k : BitVec 32} (h : wrapNewer k (cycleNo s) = false) : canCommitWrite c k s =
    canTtFault c 3 (modCan c (fun ch => { ch with commit := k, commitPend := true, commitLate := true }) s) := by
  simp [canCommitWrite, h]

/-- A command of an event that falls on an instant which the time that passes does not reach, or at which nothing is due. -/
theorem instantIf_idle {due : State → Bool} {dt : Nat}
    (h : due (runTo (nextInstant s) s) = false ∨ (begin_ dt s).now < nextInstant s) : instantIf due dt s = begin_ dt s := by
  refine if_neg ?_
  rcases h with h | h
  · simp [h]
  · simp [-begin__frame, Nat.not_le.mpr h]

theorem instantIf_due {due : State → Bool} {dt : Nat} (hdue : due (runTo (nextInstant s) s) = true)
    (hreached : nextInstant s ≤ (begin_ dt s).now) : instantIf due dt s = instant s :=
  if_pos (by simp [-begin__frame, hdue, hreached])

section
variable (hc : c < s.can.length)
include hc

/-- A legal shadow becomes the active matrix. -/
theorem canCommitNow_legal (hlegal : canShadowOk (canOf s c) s = true) :
    (canOf (canCommitNow c s) c).active = (canOf s c).shadow ∧ (canOf (canCommitNow c s) c).commitPend = false ∧
    (canOf (canCommitNow c s) c).deadCols = [] ∧ (canOf (canCommitNow c s) c).cfgErr = (canOf s c).cfgErr := by
  rw [canCommitNow, if_pos hlegal, canOf_modCan_self _ _ _ hc]
  exact ⟨rfl, rfl, rfl, rfl⟩

/-- An illegal one is refused with CFG_ERR. -/
theorem canCommitNow_illegal (hillegal : canShadowOk (canOf s c) s = false) :
    (canOf (canCommitNow c s) c).active = (canOf s c).active ∧ (canOf (canCommitNow c s) c).commitPend = false ∧
    (canOf (canCommitNow c s) c).cfgErr = true := by
  rw [canCommitNow, if_neg (by simp [hillegal]), canOf_canTtFault, canOf_modCan_self _ _ _ hc]
  exact ⟨rfl, rfl, rfl⟩

end

theorem canCommitNow_other {d : Nat} (h : d ≠ c) : canOf (canCommitNow c s) d = canOf s d := by
  simp only [canCommitNow, apply_ite (fun t : State => canOf t d), canOf_canTtFault, canOf_modCan_ne _ _ _ _ h.symm, ite_self]

/-! ## References (R435, R436, R438) -/

theorem canReference_idle {n : Nat} (h : canTakesPart (canOf s c) = false) : canReference c n s = s := by
  simp [canReference, h]

/-- A slave with no commit due begins a basic cycle at each reference. -/
theorem canReference_slave {n : Nat} (hpart : canTakesPart (canOf s c) = true) (hrole : (canOf s c).active.role = 2)
    (hdue : canCommitDue (canOf s c) s = false) :
    canReference c n s = canIrq c 7 (modCan c (fun ch => { ch with slaveAct := true, refSpan := false, lastRefClk := s.clk })
      (canBegin c (n % canRows (canOf (canEndChecks c true s) c).active) (canEndChecks c true s))) := by
  simp [canReference, hpart, hrole, hdue]

theorem canReference_slave_inst {n : Nat} (hc : c < s.can.length) (hpart : canTakesPart (canOf s c) = true)
    (hrole : (canOf s c).active.role = 2) (hdue : canCommitDue (canOf s c) s = false) :
    (canOf (canReference c n s) c).row = n % canRows (canOf s c).active ∧ (canOf (canReference c n s) c).col = 0 ∧
    (canOf (canReference c n s) c).running = true ∧ (canOf (canReference c n s) c).slaveAct = true ∧
    (canOf (canReference c n s) c).refSpan = false ∧ (canOf (canReference c n s) c).bcClk = s.now ∧
    (canOf (canReference c n s) c).lastRefClk = s.clk ∧ (canOf (canReference c n s) c).window = none := by
  rw [canReference_slave hpart hrole hdue]
  simp [canOf_canIrq, canBegin, canEndChecks, canOf_modCan_self, hc]

/-- A reference that is not due, or whose column 0 has not come, is not abandoned. -/
theorem canRefAbandon_stays
    (h : (canOf s c).refDue = false ∨ canReached (canOf s c) (canColStart (canOf s c).active 0) s = false) :
    canRefAbandon c s = s := by
  rcases h with h | h <;> simp [canRefAbandon, h]

section
variable (hdue : (canOf s c).refDue = true) (hwait : (canOf s c).refWait = true) (hidle : (canOf s c).tx = .none)
  (hreached : canReached (canOf s c) (canColStart (canOf s c).active 0) s = true)
include hdue hwait hidle hreached

theorem canRefAbandon_missed : canRefAbandon c s = canOffer c (canTtFault c 1 (modCan c (fun ch => { ch with
    refDue := false, refWait := false, ctr := ctrInc ch.ctr 9 }) s)) := by
  simp [canRefAbandon, hdue, hwait, hidle, hreached]

/-- R436: a missing reference is counted and no longer due. -/
theorem canRefAbandon_missed_inst (hc : c < s.can.length) :
    (canOf (canRefAbandon c s) c).refDue = false ∧ (canOf (canRefAbandon c s) c).refWait = false ∧
    ctrGet (canOf (canRefAbandon c s) c).ctr 9 = ctrGet (ctrInc (canOf s c).ctr 9) 9 := by
  rw [canRefAbandon_missed hdue hwait hidle hreached]
  have hoffered := canOffer_offered c (canTtFault c 1 (modCan c (fun ch => { ch with
    refDue := false, refWait := false, ctr := ctrInc ch.ctr 9 }) s))
  rw [canOf_canTtFault, canOf_modCan_self _ _ _ hc] at hoffered
  obtain ⟨hnotDue, hnotWait⟩ := hoffered.noRef rfl rfl
  have hread (cs : Ctrs) : ctrGet (cs.take 10) 9 = ctrGet cs 9 := by simp [ctrGet, List.getD_eq_getElem?_getD]
  exact ⟨hnotDue, hnotWait, hoffered.reads (fun ch => ctrGet ch.ctr 9) fun ch => hread ch.ctr⟩

end

/-- R438: a slave 2 × BC_MACRO macrocycles without a reference. -/
theorem canRefTimeout_due (hslave : (canOf s c).slaveAct = true)
    (htime : (canOf s c).lastRefClk + 2 * canBcMacro (canOf s c).active * macroT s ≤ s.clk) :
    canRefTimeout c s = canTtFault c 2 (modCan c (fun ch => { ch with
      refSpan := true, running := false, window := none, lastRefClk := s.clk, ctr := ctrInc ch.ctr 9 }) s) :=
  if_pos (by simp [hslave, htime])

theorem canRefTimeout_early (htime : s.clk < (canOf s c).lastRefClk + 2 * canBcMacro (canOf s c).active * macroT s) :
    canRefTimeout c s = s :=
  if_neg (by simp [Nat.not_le.mpr htime])

/-! ## Windows (R439, R440) -/

/-- A channel whose matrix does not run, or to which the column has not come, opens no window. -/
theorem canWindow_stays {k : Nat} {idle : Bool} (h : (canOf s c).running = false ∨
    canReached (canOf s c) (canColStart (canOf s c).active k) s = false) : canWindow c k idle s = s := by
  rcases h with h | h <;> simp [canWindow, h]

/-- What the START of column `k` finds: the matrix runs, the column is in use, and it has come and fits. -/
structure ColumnStarts (ch : Can) (k : Nat) (s : State) : Prop where
  running : ch.running = true
  hasRef : ch.refSpan = false
  inUse : k < canCols ch.active
  alive : ch.deadCols.contains k = false
  fits : canFitsShort ch k s = true
  reached : canReached ch (canColStart ch.active k) s = true

/-- Nothing then keeps the column's window shut. -/
theorem ColumnStarts.opens {ch : Can} {k : Nat} {s : State} (h : ColumnStarts ch k s) :
    (!(ch.running && !ch.refSpan && k < canCols ch.active && !(ch.deadCols.contains k)) || !(canFitsShort ch k s) ||
      !(canReached ch (canColStart ch.active k) s)) = false := by
  simp only [h.running, h.hasRef, h.inUse, h.alive, h.fits, h.reached, decide_true, Bool.not_false, Bool.not_true, Bool.and_self,
    Bool.or_self]

/-- The channel at the START of a column: the checks of earlier columns are closed. -/
def atColumn (c k : Nat) (s : State) : State := modCan c (fun ch => { ch with col := k }) (canCloseChecks c k s)

section
variable {k : Nat} (h : ColumnStarts (canOf s c) k s)
include h

theorem canWindow_receive (hkind : (canCell (canOf s c).active (canOf s c).row k).kind = 3) :
    canWindow c k false s = modCan c (fun ch => { ch with
      window := none, rxCheck := ch.rxCheck ++ [(canSlotNo (canCellSlot (canCell (canOf s c).active (canOf s c).row k)), k)] })
      (atColumn c k s) := by
  simp only [canWindow, h.opens, hkind, Bool.false_eq_true, if_false]
  rfl

theorem canWindow_arbitrating (hkind : (canCell (canOf s c).active (canOf s c).row k).kind = 2) :
    canWindow c k false s = modCan c (fun ch => { ch with window := some (k, false) }) (atColumn c k s) := by
  simp only [canWindow, h.opens, hkind, Bool.false_eq_true, if_false]
  rfl

theorem canWindow_exclusive (hkind : (canCell (canOf s c).active (canOf s c).row k).kind = 1)
    (hest : (canOf s c).est ≠ .busOff)
    (hen : (canSlotGet (canOf s c) (canCellSlot (canCell (canOf s c).active (canOf s c).row k))).en = true)
    (htx : (canSlotGet (canOf s c) (canCellSlot (canCell (canOf s c).active (canOf s c).row k))).tx = true)
    (hopen : canGated (canSlotGet (canOf s c) (canCellSlot (canCell (canOf s c).active (canOf s c).row k))) s = false) :
    canWindow c k false s = modCan c (fun ch => { ch with window := some (k, false) }) (atColumn c k s) := by
  simp only [canWindow, h.opens, hkind, hen, htx, hopen, hest, Bool.not_true, Bool.or_self, Bool.false_eq_true, if_false]
  rfl

end

@[simp] theorem atColumn_length (k : Nat) : (atColumn c k s).can.length = s.can.length := by
  simp [atColumn, canCloseChecks]

theorem atColumn_col (k : Nat) (hc : c < s.can.length) : (canOf (atColumn c k s) c).col = k := by
  rw [atColumn, canOf_modCan_self _ _ _ (by simpa [canCloseChecks] using hc)]

theorem atColumn_window (k : Nat) (w : Option (Nat × Bool)) (hc : c < s.can.length) :
    (canOf (modCan c (fun ch => { ch with window := w }) (atColumn c k s)) c).col = k ∧
    (canOf (modCan c (fun ch => { ch with window := w }) (atColumn c k s)) c).window = w := by
  rw [canOf_modCan_self _ _ _ (by simpa using hc)]
  exact ⟨atColumn_col k hc, rfl⟩

theorem atColumn_check (k : Nat) (x : Nat × Nat) (hc : c < s.can.length) :
    (canOf (modCan c (fun ch => { ch with window := none, rxCheck := ch.rxCheck ++ [x] }) (atColumn c k s)) c).col = k ∧
    (canOf (modCan c (fun ch => { ch with window := none, rxCheck := ch.rxCheck ++ [x] }) (atColumn c k s)) c).window = none ∧
    x ∈ (canOf (modCan c (fun ch => { ch with window := none, rxCheck := ch.rxCheck ++ [x] }) (atColumn c k s)) c).rxCheck := by
  rw [canOf_modCan_self _ _ _ (by simpa using hc)]
  exact ⟨atColumn_col k hc, rfl, List.mem_append_right _ (List.mem_singleton_self _)⟩

/-- An exclusive window whose frame was not handed over is missed. -/
theorem canWindowEnd_missed {k : Nat} (hc : c < s.can.length) (hopen : (canOf s c).window = some (k, false))
    (hkind : (canCell (canOf s c).active (canOf s c).row k).kind = 1) :
    (canOf (canWindowEnd c k s) c).window = none ∧ (canOf (canWindowEnd c k s) c).ctr = ctrInc (canOf s c).ctr 7 := by
  have hend : canWindowEnd c k s = canIrq c 8 (canCount c 7 (modCan c (fun ch => { ch with window := none }) s)) := by
    simp [canWindowEnd, hopen, hkind]
  rw [hend]
  simp [canOf_canIrq, canCount, canOf_modCan_self, hc]

theorem canWindowEnd_handed {k : Nat} (hopen : (canOf s c).window = some (k, true)) :
    canWindowEnd c k s = modCan c (fun ch => { ch with window := none }) s := by
  simp [canWindowEnd, hopen]

end

/-! ## The commands -/

section
variable {dt : Nat} {c : Fin 12} {s : State}

theorem exec_canTtCommitWrite {src : Iface} {k : BitVec 32} (h : Accesses src (canAddr c 0x088) s) :
    exec (.canTtCommitWrite dt c src k) s = .next (canCommitWrite c k (begin_ dt s)) :=
  congrArg Host.Outcome.next (hostAccess_carried h)

theorem exec_canMatrixCommit : exec (.canMatrixCommit dt c) s = .next (instantIf (canCommits c) dt s) := rfl

theorem exec_canReferenceRx {n : Nat} : exec (.canReferenceRx dt c n) s = .next (canReference c n (begin_ dt s)) := rfl

theorem exec_canReferenceAbandon : exec (.canReferenceAbandon dt c) s = .next (canRefAbandon c (begin_ dt s)) := rfl

theorem exec_canSlaveRefTimeout : exec (.canSlaveRefTimeout dt c) s = .next (canRefTimeout c (begin_ dt s)) := rfl

theorem exec_canHatchWindow {k : Fin 64} {idle : Bool} :
    exec (.canHatchWindow dt c k idle) s = .next (canWindow c k idle (begin_ dt s)) := rfl

theorem exec_canHatchWindowEnd {k : Fin 64} :
    exec (.canHatchWindowEnd dt c k) s = .next (canWindowEnd c k (begin_ dt s)) := rfl

end

end Sys2Proof.Machine
end

section
/-! PROOFS. The statements of spec/09_can_channels.md. -/

open Sys2Proof Sys2Proof.Machine

/-- Settles O9: each clause names what the chapter answers (`can…Body_…`, `mvb…Body_…`), and `does`, `does_plain`, `queues` and
`queues_plain` bring the answer to its mailbox. -/
theorem canMvbCommandsComplete : Obligations.CanMvbCommandsComplete := by
  intro dt r s
  refine ⟨?_, ?_, ?_, ?_, ?_, ?_, ?_, ?_, ?_, ?_⟩
  · intro h hroom
    exact queues_plain h hroom rfl rfl rfl rfl
  · intro h hconfig
    exact does_plain h rfl rfl (canLoadBody_inConfig (by simpa using hconfig)) (mbx_of_is fun mb => by simp)
  · intro h hseg hrole hdevice hoff
    exact does h rfl (mvbConfigBody_off hseg hrole hdevice (by simpa using hoff)) (mbx_of_is fun mb => by simp) rfl
  · intro h hseg hrole hdevice hon hroom
    exact queues_plain h hroom rfl rfl (mvbConfigBody_on hseg hrole hdevice (by simpa using hon)) (mbx_of_is fun mb => by simp)
  · intro h hseg hlen hoff hfits
    exact does_plain h rfl rfl (mvbStageBody_accepted hseg hlen hoff hfits) (mbx_of_is fun mb => by simp)
  · intro h hseg hcheck hroom
    exact queues h hroom rfl (mvbCommitBody_checked hseg (by simpa using hcheck)) (mbx_of_is fun mb => by simp) rfl
  · intro h hseg hfcode hdir hlink
    exact does_plain h rfl rfl (mvbPortSetBody_accepted hseg hfcode hdir (by simpa using hlink)) (mbx_of_is fun mb => by simp)
  · intro p h hseg hport hdir hlinked hlen
    exact does_plain h rfl rfl (mvbPortWriteBody_source hseg (by simpa using hport) hdir hlinked hlen)
      (mbx_of_is fun mb => by simp)
  · intro p h hseg haddr hport
    exact does_plain h rfl rfl (mvbPortReadBody_held hseg (by simpa using hport) haddr) rfl
  · intro h hseg
    exact does_plain h rfl rfl (mvbStatusBody_listed hseg) (mbx_of_is fun mb => by simp)

/-- Settles O31: each access is carried out (`exec_can…`), and what its write comes to is read off the channel; an arbitration
opportunity that follows keeps what `canOffer_offered` says. -/
theorem canAccessCommandsComplete : Obligations.CanAccessCommandsComplete := by
  intro dt c src s hsound
  have hc : c.val < (begin_ dt s).can.length := hsound.can_lt c
  refine ⟨?_, ?_, ?_, ?_, ?_, ?_, ?_, ?_, ?_, ?_, ?_, ?_, ?_, ?_, ?_, ?_, ?_⟩
  · intro h hmode htiming hctrl _
    refine ⟨_, (exec_canModeWrite h).trans (congrArg _ (canWriteCtrl_legal hmode hctrl htiming)), ?_⟩
    obtain ⟨hact, -, hctrl, herr⟩ := ctrlInEffect_control hc 0x11 1
    exact ⟨hact, ctrlInEffect_integrating hc 0x11 1 hmode (by decide), hctrl, herr⟩
  · intro h hmode hctrl htiming
    refine ⟨_, (exec_canModeWrite h).trans (congrArg _ (canWriteCtrl_illegal hmode hctrl htiming)), ?_⟩
    rw [canOf_modCan_self _ _ _ hc]
    exact ⟨rfl, rfl, rfl⟩
  · intro h hmode hctrl hpart
    refine ⟨_, (exec_canModeWrite h).trans (congrArg _ (canWriteCtrl_busy hmode hctrl hpart)), ?_⟩
    rw [canOf_modCan_self _ _ _ (by simpa using hc), canOf_modCan_self _ _ _ hc]
    exact ⟨rfl, rfl, rfl⟩
  · intro h hmode hctrl hact
    refine ⟨_, (exec_canModeWrite h).trans (congrArg _ (canWriteCtrl_idle hmode hctrl hact)), ?_⟩
    obtain ⟨hact, hnext, hctrl, -⟩ := ctrlInEffect_control hc 0x10 0
    exact ⟨hnext, hact, hctrl⟩
  · intro i h hen htx hfdf hclaim hexcl hnew hopen
    exact ⟨_, exec_canTxrqWrite h i, canOffer_request_pending hen htx hfdf hexcl hc hclaim hnew hopen⟩
  · intro i h hen htx hfdf hclaim hshut hexcl
    have hgated : canGated (canSlotGet (canOf s c) (.obj (Fin.ofNat 128 i.val))) s = true := by
      simp [canGated, hclaim, hshut, -Fin.ofNat_eq_cast]
    exact ⟨_, exec_canTxrqWrite h i, canOffer_request_withheld hen htx hfdf hexcl hc hgated⟩
  · intro i h hidle hpend
    exact ⟨_, exec_canTxcanWrite h i, congrArg CanObj.cancelled (canCancel_slot (s := begin_ dt s) hidle hpend hc),
      canCancel_pending (s := begin_ dt s) hidle hpend hc⟩
  · intro b h hen htx hfdf hclaim hexcl hnew hopen
    exact ⟨_, exec_canHpbRequest h b, canOffer_request_pending hen htx hfdf hexcl hc hclaim hnew hopen⟩
  · intro b h hidle hpend hopen
    exact ⟨_, exec_canHpbCancel h b, canOffer_cancel hidle hpend hc hopen⟩
  · intro h hpend
    exact (exec_canRecoverStart h).trans (congrArg _ (canRecoverStart_waiting hpend))
  · intro h hpend
    exact (exec_canRecoverStart h).trans (congrArg _ (canRecoverStart_none hpend))
  · intro h hlevel
    exact (exec_canFifoPop h).trans (congrArg _ (canFifoPop_head hlevel))
  · intro h hlevel
    exact (exec_canFifoPop h).trans (congrArg _ (canFifoPop_empty hlevel))
  · intro o h
    refine ⟨_, exec_canObjectWord0Read h, emit_readData _ _ _, ?_, ?_⟩
    · rw [canOf_emit]
      exact canLatch_shadow o src hc
    · rw [canOf_emit]
      exact canLatch_slots o src hc
  · intro o v h hfree
    have hexec := (exec_canObjectWrite (dt := dt) (w := 0) (v := v) h).trans (congrArg _ (canObjWrite_header hfree))
    refine ⟨hexec, _, hexec, ?_⟩
    rw [canOf_modCan_self _ _ _ hc, canSlotGet_canSlotMod_self]
    exact ⟨rfl, rfl, rfl⟩
  · intro o v h hpend htx
    refine ⟨_, (exec_canObjectWrite (w := 0) h).trans (congrArg _ (canObjWrite_locked hpend htx)), ?_⟩
    rw [canOf_modCan_self _ _ _ hc, canSlotGet_canSlotMod_self]
    rfl
  · intro o h hfree
    refine ⟨_, (exec_canObjectWrite (w := 1) h).trans (congrArg _ (canObjWrite_illegalLink hfree)), ?_⟩
    rw [canOf_modCan_self _ _ _ hc, canSlotGet_canSlotMod_self]
    exact ⟨(canSlotMod_frame _ _ _).2.1, rfl, rfl⟩

/-- Settles O32: a commit, a reference, its absence and the START and end of a column each come to what the lemma of their
case says. -/
theorem canScheduleCommandsComplete : Obligations.CanScheduleCommandsComplete := by
  intro dt c s hsound
  have hc : c.val < (begin_ dt s).can.length := hsound.can_lt c
  refine ⟨?_, ?_, ?_, ?_, ?_, ?_, ?_, ?_, ?_, ?_, ?_, ?_, ?_, ?_, ?_, ?_, ?_, ?_, ?_⟩
  · intro src k h hahead
    exact (exec_canTtCommitWrite h).trans (congrArg _ (canCommitWrite_ahead hahead))
  · intro src k h hlate
    exact (exec_canTtCommitWrite h).trans (congrArg _ (canCommitWrite_late hlate))
  · intro hdue hreached
    exact exec_canMatrixCommit.trans (congrArg _ (instantIf_due hdue hreached))
  · intro hnot
    exact exec_canMatrixCommit.trans (congrArg _ (instantIf_idle hnot))
  · exact canCommitNow_legal (hsound.can_lt c)
  · exact canCommitNow_illegal (hsound.can_lt c)
  · exact fun d hd => canCommitNow_other (Fin.val_ne_of_ne hd)
  · intro n hpart hrole hdue
    exact ⟨_, exec_canReferenceRx, canReference_slave_inst hc hpart hrole hdue⟩
  · intro n hpart
    exact exec_canReferenceRx.trans (congrArg _ (canReference_idle hpart))
  · intro hdue hwait hidle hreached
    exact ⟨_, exec_canReferenceAbandon, canRefAbandon_missed_inst hdue hwait hidle hreached hc⟩
  · intro hnot
    exact exec_canReferenceAbandon.trans (congrArg _ (canRefAbandon_stays hnot))
  · intro hslave htime
    exact exec_canSlaveRefTimeout.trans (congrArg _ (canRefTimeout_due hslave htime))
  · intro htime
    exact exec_canSlaveRefTimeout.trans (congrArg _ (canRefTimeout_early htime))
  · intro k hrun href huse halive hfits hreached hkind
    exact ⟨_, exec_canHatchWindow.trans (congrArg _ (canWindow_receive ⟨hrun, href, huse, halive, hfits, hreached⟩ hkind)),
      atColumn_check _ _ hc⟩
  · intro k hrun href huse halive hfits hreached hkind
    exact ⟨_, exec_canHatchWindow.trans (congrArg _ (canWindow_arbitrating ⟨hrun, href, huse, halive, hfits, hreached⟩ hkind)),
      atColumn_window _ _ hc⟩
  · intro k hrun href huse halive hfits hreached hkind hest hen htx hopen
    exact ⟨_, exec_canHatchWindow.trans (congrArg _ (canWindow_exclusive ⟨hrun, href, huse, halive, hfits, hreached⟩ hkind
      hest hen htx hopen)), atColumn_window _ _ hc⟩
  · intro k i hnot
    exact exec_canHatchWindow.trans (congrArg _ (canWindow_stays hnot))
  · intro k hopen hkind
    exact ⟨_, exec_canHatchWindowEnd, canWindowEnd_missed hc hopen hkind⟩
  · intro k hopen
    exact exec_canHatchWindowEnd.trans (congrArg _ (canWindowEnd_handed hopen))

end

section
/-! PROOFS. The SWC commands (spec/10): what the subject chapter answers, case by case. -/

namespace Sys2Proof.Machine

@[simp] theorem swOf_taken (p op dt : Nat) (r : Ring) (s : State) : swOf (taken op dt r s) p = swOf s p := by
  simp [swOf]

@[simp] theorem cycleUs_taken (op dt : Nat) (r : Ring) (s : State) : cycleUs (taken op dt r s) = cycleUs s := by
  simp [cycleUs]

theorem leNat_lt (l : List Byte) : leNat l < 256 ^ l.length := by
  induction l with
  | nil => exact Nat.one_pos
  | cons b bs ih =>
    have hb := b.isLt
    simp only [leNat, List.length_cons, pow_succ]
    omega

theorem fieldAt_lt (l : List Byte) (off n : Nat) : fieldAt l off n < 256 ^ n :=
  (leNat_lt _).trans_le (Nat.pow_le_pow_right (by decide) (List.length_take_le n _))

/-- A mask of 16 ports that is not empty names one of them. -/
theorem exists_port_of_mask_ne_zero {l : List Byte} (h : fieldAt l 0 2 ≠ 0) : ∃ p < 16, (fieldAt l 0 2).testBit p = true := by
  obtain ⟨p, hp⟩ := Nat.exists_testBit_of_ne_zero h
  refine ⟨p, Nat.lt_of_not_le fun hle => ?_, hp⟩
  have hlt : fieldAt l 0 2 < 2 ^ p := (fieldAt_lt l 0 2).trans_le (Nat.pow_le_pow_right (n := 2) (by decide) hle)
  simp [Nat.testBit_lt_two_pow hlt] at hp

section
variable {r : Ring} {s : State}

/-! ## Ports and VLANs (R475, R491, R493) -/

theorem swcPortConfigBody_accepted (hport : byteAt r.req 0 ≤ 15) (hmode : byteAt r.req 1 ≤ 4)
    (hten : byteAt r.req 1 = 4 → 12 ≤ byteAt r.req 0) (hpvid : 1 ≤ fieldAt r.req 4 2) (hpvid' : fieldAt r.req 4 2 ≤ 4094)
    (haccept : byteAt r.req 6 ≤ 2) :
    swcPortConfigBody r s = (queued (byteAt r.req 0),
      modSw (byteAt r.req 0) (fun t => { t with cfgNext := some (swcPortCfg r.req) }) s) := by
  have hfits : ¬ (4 < byteAt r.req 1 ∨ byteAt r.req 1 = 4 ∧ byteAt r.req 0 < 12) := by omega
  have hvid : ¬ (fieldAt r.req 4 2 < 1 ∨ 4094 < fieldAt r.req 4 2) := by omega
  simp only [swcPortConfigBody, Bool.or_eq_true, Bool.and_eq_true, decide_eq_true_eq, if_neg (Nat.not_lt.mpr hport),
    if_neg hfits, if_neg hvid, if_neg (Nat.not_lt.mpr haccept)]

theorem swcPortStatusBody_listed (hport : byteAt r.req 0 ≤ 21) :
    swcPortStatusBody r s = (done (swcPortRec (byteAt r.req 0) (swOf s (byteAt r.req 0))),
      if clearAsked r.req 1 then modSw (byteAt r.req 0) (fun t => { t with ctr := ctrClear t.ctr }) s else s) :=
  if_neg (Nat.not_lt.mpr hport)

theorem swcVlanSetBody_accepted (hvid : 1 ≤ fieldAt r.req 0 2) (hvid' : fieldAt r.req 0 2 ≤ 4094) :
    swcVlanSetBody r s = (done [], { s with swc := { s.swc with
      vlans := tblSet s.swc.vlans (fieldAt r.req 0 2)
        (BitVec.ofNat 32 (fieldAt r.req 4 4), BitVec.ofNat 32 (fieldAt r.req 8 4)) } }) := by
  have hrange : ¬ (fieldAt r.req 0 2 < 1 ∨ 4094 < fieldAt r.req 0 2) := by omega
  simp only [swcVlanSetBody, Bool.or_eq_true, decide_eq_true_eq, if_neg hrange]

/-! ## Streams (R485, R492) -/

theorem swcStreamSetBody_accepted (hfrer : (streamRecord r.req).frer ≠ 3)
    (hrecover : (streamRecord r.req).frer = 2 → 2 ≤ (streamRecord r.req).history ∧ (streamRecord r.req).history ≤ 32 ∧
      1 ≤ (streamRecord r.req).resetMs)
    (hports : (streamRecord r.req).frer ≠ 0 → bitCount (streamRecord r.req).ports.toNat = 2) :
    swcStreamSetBody r s = (done [], modStream (byteAt r.req 0) (fun _ => { streamRecord r.req with
      cTok := (streamRecord r.req).cbs * tokenUnit, eTok := (streamRecord r.req).ebs * tokenUnit, tokClk := s.clk }) s) := by
  have hhistory : ¬ ((streamRecord r.req).frer = 2 ∧
      ((streamRecord r.req).history < 2 ∨ 32 < (streamRecord r.req).history)) :=
    fun ⟨h2, hbad⟩ => by have := hrecover h2; omega
  have hreset : ¬ ((streamRecord r.req).frer = 2 ∧ (streamRecord r.req).resetMs < 1) :=
    fun ⟨h2, hbad⟩ => by have := hrecover h2; omega
  have hmask : ¬ ((streamRecord r.req).frer ≠ 0 ∧ bitCount (streamRecord r.req).ports.toNat ≠ 2) :=
    fun ⟨hsome, hbad⟩ => hbad (hports hsome)
  simp only [swcStreamSetBody, Bool.or_eq_true, Bool.and_eq_true, decide_eq_true_eq, if_neg hfrer, if_neg hhistory,
    if_neg hreset, if_neg hmask]

/-! ## Gate lists (R477, R479) -/

theorem swcGclStageBody_accepted (hzero : gclReserved r.req = none) (hport : byteAt r.req 0 ≤ 15)
    (hcount : byteAt r.req 1 ≤ 128) (hct : fieldAt r.req 4 4 ≠ 0) (hdivides : cycleUs s * 1000 % fieldAt r.req 4 4 = 0)
    (hsum : ((gclEntries r.req).map (fun e => e.2)).sum = fieldAt r.req 4 4) :
    swcGclStageBody r s = (done [], modSw (byteAt r.req 0) (fun t => { t with
      staged := some { ct := fieldAt r.req 4 4, entries := gclEntries r.req } }) s) := by
  have hcycle : ¬ (fieldAt r.req 4 4 = 0 ∨ cycleUs s * 1000 % fieldAt r.req 4 4 ≠ 0) := by simp [hct, hdivides]
  simp only [swcGclStageBody, hzero, Bool.or_eq_true, decide_eq_true_eq, if_neg (Nat.not_lt.mpr hport),
    if_neg (Nat.not_lt.mpr hcount), if_neg hcycle, if_neg (not_not.mpr hsum)]

theorem swcGclCommitBody_accepted (hmask : fieldAt r.req 0 2 ≠ 0)
    (hstaged : ∀ p : Nat, p < 16 → (fieldAt r.req 0 2).testBit p = true → (swOf s p).staged ≠ none) :
    swcGclCommitBody r s = (queued (fieldAt r.req 0 2),
      forEach ((List.range 16).filter (fun p => (fieldAt r.req 0 2).testBit p)) (fun p u => modSw p (fun t => { t with
        commit := some (BitVec.ofNat 32 (fieldAt r.req 4 4),
          !(wrapNewer (BitVec.ofNat 32 (fieldAt r.req 4 4)) (cycleNo u))) }) u) s) := by
  have hall : ((List.range 16).filter (fun p => (fieldAt r.req 0 2).testBit p)).any
      (fun p => (swOf s p).staged.isNone) = false := by
    simpa [List.any_eq_false] using hstaged
  have hsome : ((List.range 16).filter (fun p => (fieldAt r.req 0 2).testBit p)).isEmpty = false := by
    obtain ⟨p, hp, hbit⟩ := exists_port_of_mask_ne_zero hmask
    exact List.isEmpty_eq_false_iff_exists_mem.mpr ⟨p, List.mem_filter.mpr ⟨List.mem_range.mpr hp, hbit⟩⟩
  simp only [swcGclCommitBody, hall, hsome, Bool.or_self, Bool.false_eq_true, if_false]

/-! ## Keys (R489) -/

theorem swcMacsecKeyBody_accepted (hport : byteAt r.req 0 ≤ 15) :
    swcMacsecKeyBody r s = (done [], modSw (byteAt r.req 0) (fun t => { t with
      key := some ((r.req.drop 4).take 32, (r.req.drop 36).take 16) }) s) := if_neg (Nat.not_lt.mpr hport)

end

end Sys2Proof.Machine
end

section
/-! PROOFS. Vehicle-bus segments (spec/10): basic periods, polls and their answers, and what a slave frame makes of a sink
port. -/

namespace Sys2Proof.Machine

/-! ## One segment at a time -/

theorem Sound.mvb_lt {s : State} (h : Sound s) (g : Fin 2) : g.val < s.mvb.length := by rw [h.mvb]; exact g.isLt

theorem mvbOf_congr {s t : State} (h : t.mvb = s.mvb) (g : Nat) : mvbOf t g = mvbOf s g := by simp [mvbOf, h]

@[simp] theorem mvbOf_emit (e : Emission) (s : State) (g : Nat) : mvbOf (emit e s) g = mvbOf s g := mvbOf_congr (by simp) g

theorem updAt_updAt {α : Type} (l : List α) (i : Nat) (f k : α → α) :
    updAt (updAt l i f) i k = updAt l i (fun x => k (f x)) := by
  induction l generalizing i with
  | nil => rfl
  | cons x xs ih =>
    cases i with
    | zero => rfl
    | succ n => exact congrArg (x :: ·) (ih n)

theorem modMvb_modMvb (g : Nat) (f k : Mvb → Mvb) (s : State) :
    modMvb g k (modMvb g f s) = modMvb g (fun m => k (f m)) s :=
  congrArg (fun l => { s with mvb := l }) (updAt_updAt s.mvb g f k)

/-! ## Answers (R463, R466, R469) -/

section
variable {g : Fin 2} {fcode : BitVec 4} {addr : BitVec 12} {p : MvbPort} {s : State} (hfcode : fcode.toNat ≤ 4)
include hfcode

theorem mvbAnswer_unlisted (hnone : tblGet (mvbOf s g).ports addr.toNat = none) : mvbAnswer g fcode addr s = s := by
  simp only [mvbAnswer, if_pos hfcode, hnone]

section
variable (hport : tblGet (mvbOf s g).ports addr.toNat = some p) (hdir : p.dir = 1) (hown : p.fcode = fcode.toNat)
include hport hdir hown

theorem mvbAnswer_source (hclaim : p.claim = false) :
    mvbAnswer g fcode addr s = emit (.mvbSlave g p.data) (modMvb g (fun m => { m with master := none }) s) := by
  simp [mvbAnswer, hfcode, hport, hdir, hown, hclaim]

theorem mvbAnswer_withheld (hclaim : p.claim = true) (hshut : gateOpen p.svc.toNat s = false) :
    mvbAnswer g fcode addr s = mvbCount g 5 s := by
  simp [mvbAnswer, hfcode, hport, hdir, hown, hclaim, hshut]

end
end

/-! ## Polls (R456, R459) -/

section
variable {g : Fin 2} {t : PollTable} {s : State}

section
variable (hrole : (mvbOf s g).roleAct = 2) (htable : (mvbOf s g).table = some t) (hperiod : (mvbOf s g).inPeriod = true)
include hrole htable hperiod

theorem mvbNext_entry {e : BitVec 32} {es : List (BitVec 32)} (hfits : mvbFits t s.now = true)
    (hpolls : (mvbOf s g).polls = e :: es) :
    mvbNext g s = mvbPoll g (BitVec.ofNat 4 (pollFcode e)) (BitVec.ofNat 12 (pollPort e))
      (modMvb g (fun m => { m with polls := es }) s) := by
  simp [mvbNext, hrole, htable, hperiod, hfits, hpolls]

theorem mvbNext_late (hlate : mvbFits t s.now = false) :
    mvbNext g s = modMvb g (fun m => { m with inPeriod := false, polls := [], scanDue := false }) s := by
  simp [mvbNext, hrole, htable, hperiod, hlate]

end

/-- A master frame for a port that the node does not have goes out, and the node does not answer it. -/
theorem mvbPoll_foreign {fcode : BitVec 4} {addr : BitVec 12} (hg : g.val < s.mvb.length) (hfcode : fcode.toNat ≤ 4)
    (hnone : tblGet (mvbOf s g).ports addr.toNat = none) :
    mvbPoll g fcode addr s = emit (.mvbMaster g fcode addr)
      (modMvb g (fun m => { m with master := some (fcode, addr), ctr := ctrInc m.ctr 0 }) s) := by
  refine mvbAnswer_unlisted hfcode ?_
  rw [mvbOf_emit, mvbOf_modMvb_self _ _ _ hg]
  exact hnone

/-- R456, R459: the head entry is polled, for a port of another device. -/
theorem mvbNext_polls_foreign {e : BitVec 32} {es : List (BitVec 32)} (hg : g.val < s.mvb.length)
    (hrole : (mvbOf s g).roleAct = 2) (htable : (mvbOf s g).table = some t) (hperiod : (mvbOf s g).inPeriod = true)
    (hfits : mvbFits t s.now = true) (hpolls : (mvbOf s g).polls = e :: es)
    (hnone : tblGet (mvbOf s g).ports (BitVec.ofNat 12 (pollPort e)).toNat = none)
    (hfcode : (BitVec.ofNat 4 (pollFcode e)).toNat ≤ 4) :
    mvbNext g s = emit (.mvbMaster g (BitVec.ofNat 4 (pollFcode e)) (BitVec.ofNat 12 (pollPort e)))
      (modMvb g (fun m => { m with
        polls := es, master := some (BitVec.ofNat 4 (pollFcode e), BitVec.ofNat 12 (pollPort e)), ctr := ctrInc m.ctr 0 })
        s) := by
  rw [mvbNext_entry hrole htable hperiod hfits hpolls, mvbPoll_foreign (by simpa using hg) hfcode
    (by rw [mvbOf_modMvb_self _ _ _ hg]; exact hnone), modMvb_modMvb]

theorem exec_mvbMasterFrameSend {dt : Nat} (h : (mvbOf s g).master = none) :
    exec (.mvbMasterFrameSend dt g) s = .next (mvbNext g (begin_ dt s)) :=
  congrArg Host.Outcome.next (if_pos (congrArg Option.isNone h))

theorem mvbNoReply_waiting {x : BitVec 4 × BitVec 12} (hrole : (mvbOf s g).roleAct = 2)
    (hmaster : (mvbOf s g).master = some x) :
    mvbNoReply g s = modMvb g (fun m => { m with master := none, ctr := ctrInc m.ctr 1 }) s := by
  simp [mvbNoReply, hrole, hmaster, mvbCount, modMvb_modMvb]

theorem mvbNoReply_none (hmaster : (mvbOf s g).master = none) : mvbNoReply g s = s := by
  simp [mvbNoReply, hmaster]

/-! ## Basic periods (R454, R459, R461) -/

/-- R454, R466: what a basic period makes of a segment before it polls. -/
def periodBegun (m : Mvb) : Mvb := { m with ports := tblMap (fun _ p => mvbAge p) m.ports, master := none }

theorem mvbTakeTable_uncommitted {k : Nat} (h : (mvbOf s k).commit = none) : mvbTakeTable k s = s := by
  simp only [mvbTakeTable, h]

theorem mvbPeriod_off (h : (mvbOf s g).roleAct = 0) : mvbPeriod g s = s := by
  simp [mvbPeriod, h]

theorem mvbPeriod_between (hcfg : (mvbOf s g).cfg.role = 2) (h : mvbStarts (mvbOf s g) s = false) : mvbPeriod g s = s := by
  simp [mvbPeriod, hcfg, h]

theorem mvbPeriod_device (hrole : (mvbOf s g).roleAct = 1) (hcfg : (mvbOf s g).cfg.role = 1) :
    mvbPeriod g s = modMvb g periodBegun s := by
  refine (if_neg (by simp [hrole, hcfg])).trans ?_
  simp only [hrole, hcfg]
  split <;> rfl

theorem mvbPeriod_polls (hg : g.val < s.mvb.length) (hrole : (mvbOf s g).roleAct = 2) (hcommit : (mvbOf s g).commit = none)
    (htable : (mvbOf s g).table = some t) (hcfg : (mvbOf s g).cfg.role = 2) (hstarts : mvbStarts (mvbOf s g) s = true) :
    mvbPeriod g s = mvbNext g (modMvb g (fun m => { m with
      ports := tblMap (fun _ p => mvbAge p) m.ports, master := none, polls := pollsOf t (mvbIndex t s.now)
      scanDue := !t.scan.isEmpty, inPeriod := true }) s) := by
  have hbegun : mvbOf (modMvb g periodBegun s) g = periodBegun (mvbOf s g) := mvbOf_modMvb_self _ _ _ hg
  have htake : mvbTakeTable g (modMvb g (fun m => { m with ports := tblMap (fun _ p => mvbAge p) m.ports, master := none }) s) =
      modMvb g periodBegun s := mvbTakeTable_uncommitted (s := modMvb g periodBegun s) (by rw [hbegun]; exact hcommit)
  have htable' : (mvbOf (modMvb g periodBegun s) g).table = some t := by rw [hbegun]; exact htable
  simp [mvbPeriod, hrole, hcfg, hstarts, htake, htable', modMvb_modMvb, periodBegun]

end

/-! ## What an event sends (R538, R588) -/

section
variable {e : Emission} {s : State}

theorem mem_raiseVector_emit {v : BitVec 5} (h : e ∈ (raiseVector v s).emit) : e ∈ s.emit ∨ ∃ v, e = .msix v := by
  unfold raiseVector emit at h
  split at h
  · split at h
    · exact .inl h
    · exact (List.mem_append.mp h).imp_right fun hlast => ⟨_, List.mem_singleton.mp hlast⟩
  · exact .inl h

theorem mem_raiseQueue_emit (h : e ∈ (raiseQueue s).emit) : e ∈ s.emit ∨ ∃ v, e = .msix v :=
  (mem_raiseVector_emit h :)

theorem mem_queueEvent_emit {ev : Event} (h : e ∈ (queueEvent ev s).emit) : e ∈ s.emit ∨ ∃ v, e = .msix v := by
  unfold queueEvent at h
  dsimp only at h
  split at h
  · exact .inl h
  · split at h
    · exact (mem_raiseQueue_emit h :)
    · exact .inl h

/-- Raising an event sends nothing but interrupts. -/
theorem mem_raise_emit {code : Nat} {param : List Byte} (h : e ∈ (raise code param s).emit) :
    e ∈ s.emit ∨ ∃ v, e = .msix v := by
  unfold raise raiseAt at h
  dsimp only at h
  split at h
  · exact .inl h
  · exact (mem_queueEvent_emit h :)

end

/-! ## Lines (R467, R468) -/

/-- A segment whose lines have been judged after a frame. -/
def judged (a b : Bool) (m : Mvb) : Mvb := { m with lineA := lineJudge a b m.lineA, lineB := lineJudge b a m.lineB }

theorem lineEvent_mvb (g line : Nat) (old new : MvbLineSt) (s : State) : (lineEvent g line old new s).mvb = s.mvb := by
  unfold lineEvent; split <;> simp

theorem mem_lineEvent_emit {e : Emission} {g line : Nat} {old new : MvbLineSt} {s : State}
    (h : e ∈ (lineEvent g line old new s).emit) : e ∈ s.emit ∨ ∃ v, e = .msix v := by
  unfold lineEvent at h
  split at h
  · exact .inl h
  · exact mem_raise_emit h

section
variable {g : Nat} {a b : Bool} {s : State}

/-- Of the segments, judging the lines changes the lines of its own. -/
theorem mvbOf_mvbJudge (hg : g < s.mvb.length) : mvbOf (mvbJudge g a b s) g = judged a b (mvbOf s g) := by
  have hmvb : (mvbJudge g a b s).mvb = (modMvb g (fun m => { m with
      lineA := lineJudge a b (mvbOf s g).lineA, lineB := lineJudge b a (mvbOf s g).lineB }) s).mvb :=
    (lineEvent_mvb _ _ _ _ _).trans (lineEvent_mvb _ _ _ _ _)
  rw [mvbOf_congr hmvb, mvbOf_modMvb_self _ _ _ hg]
  rfl

theorem mvbJudge_keeps : OnlyWrites [.emit, .cmd, .flow, .mvb, .vec] s (mvbJudge g a b s) := by
  simp [onlyWrites_refl]

theorem mvbJudge_length : (mvbJudge g a b s).mvb.length = s.mvb.length := by
  simp [mvbJudge, lineEvent_mvb]

theorem mem_mvbJudge_emit {e : Emission} (h : e ∈ (mvbJudge g a b s).emit) : e ∈ s.emit ∨ ∃ v, e = .msix v := by
  rcases mem_lineEvent_emit h with hA | hirq
  · exact (mem_lineEvent_emit hA :)
  · exact .inr hirq

end

/-! ## Master frames (R463, R466, R469) -/

section
variable {g : Fin 2} {f : MvbMaster} {p : MvbPort} {s : State}

/-- The state in which the node answers a master frame that it heard. -/
def masterHeard (g : Fin 2) (f : MvbMaster) (s : State) : State :=
  mvbJudge g f.onA f.onB (modMvb g (fun m => { m with master := some (f.fcode, f.addr) }) s)

theorem mvbMasterRx_heard (hrole : (mvbOf s g).roleAct ≠ 0) (hline : f.onA = true) :
    mvbMasterRx g f s = mvbAnswer g f.fcode f.addr (masterHeard g f s) :=
  if_neg (by simpa [hline] using hrole)

theorem mvbMasterRx_unheard (ha : f.onA = false) (hb : f.onB = false) : mvbMasterRx g f s = s := by
  simp [mvbMasterRx, ha, hb]

theorem mvbOf_masterHeard (hg : g.val < s.mvb.length) :
    mvbOf (masterHeard g f s) g = judged f.onA f.onB { mvbOf s g with master := some (f.fcode, f.addr) } := by
  rw [masterHeard, mvbOf_mvbJudge (by simpa using hg), mvbOf_modMvb_self _ _ _ hg]

theorem masterHeard_keeps : OnlyWrites [.emit, .cmd, .flow, .mvb, .vec] s (masterHeard g f s) := by
  simp [masterHeard, onlyWrites_refl]

theorem masterHeard_length : (masterHeard g f s).mvb.length = s.mvb.length := by
  simp [masterHeard, mvbJudge_length]

theorem mem_masterHeard_emit {e : Emission} (h : e ∈ (masterHeard g f s).emit) : e ∈ s.emit ∨ ∃ v, e = .msix v :=
  (mem_mvbJudge_emit h :)

section
variable (hg : g.val < s.mvb.length) (hrole : (mvbOf s g).roleAct ≠ 0) (hline : f.onA = true) (hfcode : f.fcode.toNat ≤ 4)
  (hport : tblGet (mvbOf s g).ports f.addr.toNat = some p) (hdir : p.dir = 1) (hown : p.fcode = f.fcode.toNat)
include hg hrole hline hfcode hport hdir hown

theorem mvbMasterRx_source (hclaim : p.claim = false) (hext : s.sys.extest = false) :
    (mvbOf (mvbMasterRx g f s) g).master = none ∧ .mvbSlave g p.data ∈ (mvbMasterRx g f s).emit := by
  have hheard : (masterHeard g f s).sys = s.sys := masterHeard_keeps .sys (by decide)
  rw [mvbMasterRx_heard hrole hline, mvbAnswer_source hfcode (by rw [mvbOf_masterHeard hg]; exact hport) hdir hown hclaim]
  constructor
  · rw [mvbOf_emit, mvbOf_modMvb_self _ _ _ (by rw [masterHeard_length]; exact hg)]
  · rw [emit_sent (by simpa [hheard] using hext)]
    simp

theorem mvbMasterRx_withheld (hclaim : p.claim = true) (hshut : gateOpen p.svc.toNat s = false) (hnew : s.emit = []) :
    (mvbOf (mvbMasterRx g f s) g).master = some (f.fcode, f.addr) ∧ ∀ d, .mvbSlave g d ∉ (mvbMasterRx g f s).emit := by
  have hheard : (masterHeard g f s).twin = s.twin := masterHeard_keeps .twin (by decide)
  have hshut' : gateOpen p.svc.toNat (masterHeard g f s) = false := by
    simpa only [gateOpen, mayClaim, hheard] using hshut
  rw [mvbMasterRx_heard hrole hline,
    mvbAnswer_withheld hfcode (by rw [mvbOf_masterHeard hg]; exact hport) hdir hown hclaim hshut']
  constructor
  · rw [mvbCount, mvbOf_modMvb_self _ _ _ (by rw [masterHeard_length]; exact hg), mvbOf_masterHeard hg]
    rfl
  · intro d hmem
    rcases mem_masterHeard_emit hmem with h | ⟨v, h⟩
    · simp [hnew] at h
    · cases h

end
end

/-! ## Slave frames (R464, R467, R468) -/

section
variable {g : Fin 2} {f : MvbSlave} {s : State}

theorem mvbSlaveRx_unasked (h : (mvbOf s g).master = none) : mvbSlaveRx g f s = s := by
  simp only [mvbSlaveRx, h]

theorem mvbTake_sink {addr fcode : Nat} {data : List Byte} {lineB : Bool} {m : Mvb} {p : MvbPort}
    (hport : tblGet m.ports addr = some p) (hdir : p.dir = 2) (hfcode : p.fcode = fcode) :
    mvbTake addr fcode data lineB m = { m with ports := tblSet m.ports addr { p with
      data := padTo (fcodeBytes fcode) data, age := 0, held := true, lineB := lineB, taken := true } } := by
  simp [mvbTake, hport, hdir, hfcode]

/-- A frame that came valid on line A, first there, and on line B alike or not at all, is the value the port takes. -/
theorem mvbSlaveRx_lineA {fc : BitVec 4} {a : BitVec 12} {d : List Byte} (hmaster : (mvbOf s g).master = some (fc, a))
    (hfc : fc.toNat ≤ 4) (hdata : f.dataA = some d) (hfirst : f.firstB = false) (hinvA : f.invalidA = false)
    (hinvB : f.invalidB = false) (hagree : f.dataB = none ∨ f.dataB = some d) :
    mvbSlaveRx g f s = modMvb g (mvbTake a.toNat fc.toNat d false)
      (mvbJudge g true f.dataB.isSome (modMvb g (fun m => { m with master := none }) s)) := by
  rcases hagree with hB | hB <;> simp [mvbSlaveRx, hmaster, hfc, hdata, hfirst, hinvA, hinvB, hB]

theorem mvbSlaveRx_taken {fc : BitVec 4} {a : BitVec 12} {d : List Byte} {p : MvbPort} (hg : g.val < s.mvb.length)
    (hmaster : (mvbOf s g).master = some (fc, a)) (hfc : fc.toNat ≤ 4) (hdata : f.dataA = some d) (hfirst : f.firstB = false)
    (hinvA : f.invalidA = false) (hinvB : f.invalidB = false) (hagree : f.dataB = none ∨ f.dataB = some d)
    (hport : tblGet (mvbOf s g).ports a.toNat = some p) (hdir : p.dir = 2) (hown : p.fcode = fc.toNat) :
    (mvbOf (mvbSlaveRx g f s) g).master = none ∧ (mvbOf (mvbSlaveRx g f s) g).ctr = (mvbOf s g).ctr ∧
    tblGet (mvbOf (mvbSlaveRx g f s) g).ports a.toNat = some { p with
      data := padTo (fcodeBytes fc.toNat) d, age := 0, held := true, lineB := false, taken := true } := by
  have hsink := mvbTake_sink (data := d) (lineB := false) (m := judged true f.dataB.isSome { mvbOf s g with master := none })
    hport hdir hown
  rw [mvbSlaveRx_lineA hmaster hfc hdata hfirst hinvA hinvB hagree,
    mvbOf_modMvb_self _ _ _ (by rw [mvbJudge_length]; simpa using hg), mvbOf_mvbJudge (by simpa using hg),
    mvbOf_modMvb_self _ _ _ hg, hsink]
  exact ⟨rfl, rfl, tblGet_tblSet_self _ _ _⟩

end

end Sys2Proof.Machine
end

section
/-! PROOFS. The consist switch (spec/10): what becomes of a frame that arrives, when a queued frame leaves, and what the
MACsec and link commands make of a port. -/

namespace Sys2Proof.Machine

/-! ## The switch apart from its ports -/

/-- What the switch core holds beside its ports: VLANs, addresses, streams and banks. -/
def swTables (s : State) : Swc := { s.swc with ports := [] }

theorem swTables_of_writes {w : List Block} {s t : State} (h : OnlyWrites w s t) (hw : Block.swc ∉ w) :
    swTables t = swTables s := by
  have hswc : t.swc = s.swc := h .swc hw
  simp [swTables, hswc]

@[simp] theorem swTables_modSw (p : Nat) (f : SwPort → SwPort) (s : State) : swTables (modSw p f s) = swTables s := rfl

@[simp] theorem swTables_swCount (p i : Nat) (s : State) : swTables (swCount p i s) = swTables s := rfl

section
variable (h : Option (Fin 256)) (rtag : Option (BitVec 16)) (vid : BitVec 12) (f : EthFrame)

@[simp] theorem swTables_swEnqueue (p q : Nat) (s : State) : swTables (swEnqueue p q f rtag h s) = swTables s := by
  unfold swEnqueue
  dsimp only
  split <;> rfl

/-- A frame queued, dropped or passed on changes no table of the switch. -/
@[simp] theorem swTables_egress (p : Nat) (s : State) : swTables (egress h rtag vid f p s) = swTables s := by
  have hfabric : ∀ x, OnlyWrites [.emit, .fab] s (fabOriginate 0x10 3 x s) := fun x => by simp [onlyWrites_refl]
  have htrunk : ∀ (qs : List Nat) (i : Nat) (x : QFrame),
      OnlyWrites [.trunk, .sched] s (forEach qs (fun q s => trunkEnqueue q i x s) s) := fun qs i x => by
    simp [onlyWrites_refl]
  unfold egress
  dsimp only
  split
  · split
    · rfl
    · split
      · exact swTables_of_writes (hfabric _) (by decide)
      · exact swTables_of_writes (htrunk _ _ _) (by decide)
  · split
    · rfl
    · split
      · rfl
      · exact swTables_swEnqueue _ _ _ _ _ _

end

theorem swTables_swForward_none (f : EthFrame) (s : State) : swTables (swForward none f s) = swTables s :=
  forEach_keeps swTables _ (fun p s => swTables_egress _ _ _ _ p s) _ _

theorem swForward_none_tables (f : EthFrame) (s : State) :
    (swForward none f s).swc.streams = s.swc.streams ∧ (swForward none f s).swc.addrs = s.swc.addrs :=
  ⟨(congrArg Swc.streams (swTables_swForward_none f s) :), (congrArg Swc.addrs (swTables_swForward_none f s) :)⟩

/-! ## Addresses learnt (R475) -/

theorem learn_streams (f : EthFrame) (vid : BitVec 12) (s : State) : (learn f vid s).swc.streams = s.swc.streams := by
  unfold learn
  split
  · rfl
  · dsimp only
    split <;> rfl

theorem learn_first {f : EthFrame} (vid : BitVec 12) {s : State} (hsrc : isGroup f.src = false) (hnone : s.swc.addrs = []) :
    (learn f vid s).swc.addrs = [(f.src, vid, f.port.val, false, s.clk)] := by
  simp [learn, hsrc, hnone]

/-! ## Ingress (R474, R475, R481, R489) -/

section
variable {f : EthFrame} {s : State} (hport : isConsist f.port = true)
include hport

theorem port_ne_cluster : f.port ≠ 20 := by
  intro h
  simp [h, isConsist] at hport

theorem consistRx_consist : consistRx f s = switchIn f s := by
  simp only [consistRx, if_neg (port_ne_cluster hport)]

theorem switchIn_down (hdown : swActive (swOf s f.port) = false) : switchIn f s = s := by
  simp [switchIn, hport, hdown]

end

section
variable {f : EthFrame} {s : State} (hactive : swActive (swOf s f.port) = true)
include hactive

theorem switchIn_badFcs (hfcs : f.fcsOk = false) : switchIn f s = swCount f.port 2 (swCount f.port 0 s) := by
  simp [switchIn, hactive, hfcs]

theorem switchIn_oversize (hfcs : f.fcsOk = true) (hlen : 2000 < f.len) :
    switchIn f s = swCount f.port 3 (swCount f.port 0 s) := by
  simp [switchIn, hactive, hfcs, hlen]

section
variable (hport : isConsist f.port = true) (hfcs : f.fcsOk = true) (hmin : 64 ≤ f.len) (hmax : f.len ≤ 2000)
include hport hfcs hmin hmax

theorem switchIn_unauthenticated (hmacsec : (swOf s f.port).cfg.macsec = true) (htag : f.secTagOk = false) :
    switchIn f s = swCount f.port 9 (swCount f.port 0 s) := by
  simp [switchIn, hport, hactive, hfcs, Nat.not_lt.mpr hmin, Nat.not_lt.mpr hmax, hmacsec, htag]

theorem switchIn_vlanRefused (hmacsec : (swOf s f.port).cfg.macsec = false) (hvlan : vlanAccepts f s = false) :
    switchIn f s = swCount f.port 4 (swCount f.port 0 s) := by
  simp [switchIn, hport, hactive, hfcs, Nat.not_lt.mpr hmin, Nat.not_lt.mpr hmax, hmacsec, hvlan]

/-- R474: a frame of no stream is learnt from and forwarded. -/
theorem switchIn_unidentified (hmacsec : (swOf s f.port).cfg.macsec = false) (hvlan : vlanAccepts f s = true)
    (hstreams : s.swc.streams = []) :
    switchIn f s = swForward none f (learn f (frameVid f (swOf s f.port)) (swCount f.port 0 s)) := by
  have hnone : streamFor f (frameVid f (swOf s f.port)) (learn f (frameVid f (swOf s f.port)) (swCount f.port 0 s)) = none := by
    rw [streamFor, learn_streams]
    simp [swCount, hstreams]
  simp [switchIn, hport, hactive, hfcs, Nat.not_lt.mpr hmin, Nat.not_lt.mpr hmax, hmacsec, hvlan, hnone]

end
end

/-! ## Frames of the cluster pairs (R36, R368) -/

section
variable {f : EthFrame} {l : Fin 4} {s : State} (hport : f.port = 20) (hpair : f.pair = some l)
include hport hpair

theorem consistRx_locked (hst : (pairOf s l).st = .locked) (hruns : (pairOf s l).halted = false) :
    consistRx f s = holdTxn l (.frame f) 0 f.len (some []) s := by
  simp [consistRx, hport, hpair, pairLocked, hst, hruns]

theorem consistRx_silent (h : (pairOf s l).st = .fenced ∨ (pairOf s l).st = .held ∨ (pairOf s l).halted = true) :
    consistRx f s = s := by
  rcases h with hst | hst | hhalted
  · simp [consistRx, hport, hpair, pairLocked, pairSplit, hst]
  · simp [consistRx, hport, hpair, pairLocked, pairSplit, hst]
  · simp [consistRx, hport, hpair, hhalted]

end

/-! ## Egress (R476, R478, R484) -/

theorem egressGated_internal {p : Nat} (hport : isConsist p = false) (h : Option (Fin 256)) (k : Nat) (s : State) :
    egressGated h k p s = false := by
  simp [egressGated, hport]

section
variable {p q now : Nat} {t : SwPort}

theorem queueReady_empty (h : t.queues.getD q [] = []) : queueReady p t q now = false := by
  simp only [queueReady, h, List.head?_nil]

theorem queueReady_internal {e : EgFrame} {es : List EgFrame} (hport : isConsist p = false) (h : t.queues.getD q [] = e :: es) :
    queueReady p t q now = true := by
  simp only [queueReady, h, List.head?_cons, hport, Bool.not_false, Bool.true_or]

end

section
variable {p : Fin 22} {q : Fin 8} {s : State}

theorem swEgress_empty (h : (swOf s p).queues.getD q [] = []) : swEgress p q s = s := by
  simp [swEgress, queueReady_empty h]

/-- R476, R478, R484: the head frame of the highest ready queue leaves, or its claim gate withholds it. -/
theorem swEgress_head {e : EgFrame} {es : List EgFrame}
    (hopen : isConsist p = true → swActive (swOf s p) = true ∧ (swOf s p).cfg.macsec = false)
    (hqueue : (swOf s p).queues.getD q [] = e :: es) (hready : queueReady p (swOf s p) q s.now = true)
    (hfirst : ∀ k : Fin 8, q < k → queueReady p (swOf s p) k s.now = false) :
    swEgress p q s =
      if egressGated e.stream e.frame.port p s then
        swCount p 7 (modSw p (fun t => { t with queues := updAt t.queues q (fun _ => es) }) s)
      else emit (.consist p e.frame e.rtag) (swCount p 1 (modSw p (fun t => { t with
        queues := updAt t.queues q (fun _ => es) }) s)) := by
  have hblocked : (isConsist p && (!(swActive (swOf s p)) || ((swOf s p).cfg.macsec && !(swOf s p).secured))) = false := by
    cases hconsist : isConsist p with
    | false => rfl
    | true => simp [hopen hconsist]
  have hhigher : (List.range 8).any (fun k => q < k && queueReady p (swOf s p) k s.now) = false := by
    refine List.any_eq_false.mpr fun k hk h => ?_
    obtain ⟨hlt, hk'⟩ := (Bool.and_eq_true _ _).mp h
    rw [hfirst ⟨k, List.mem_range.mp hk⟩ (of_decide_eq_true hlt)] at hk'
    cases hk'
  simp only [swEgress, hblocked, hready, hhigher, hqueue, Bool.not_true, Bool.or_self, Bool.false_eq_true, if_false]

end

/-! ## MACsec (R489, R490) -/

section
variable {p : Fin 16} {m : MkPdu} {s : State}

theorem mkaRx_ignored (h : (swOf s p).cfg.macsec = false ∨ m.icvOk = false) : mkaRx p m s = s := by
  rcases h with h | h <;> simp [mkaRx, h]

section
variable (hmacsec : (swOf s p).cfg.macsec = true) (hkey : (swOf s p).key.isSome = true) (hicv : m.icvOk = true)
  (hlink : (swOf s p).link = true)
include hmacsec hkey hicv hlink

theorem mkaRx_heard : (!(swOf s p).cfg.macsec || (swOf s p).key.isNone || !m.icvOk || !(swOf s p).link) = false := by
  simp [hmacsec, hicv, hlink, ← Option.not_isSome, hkey]

/-- R489: the peer of the lower priority value is the key server, and this port uses its SAK. -/
theorem mkaRx_follows {k : BitVec 32} (hprio : m.serverPrio.toNat < (swOf s p).cfg.ksPrio.toNat) (hsak : m.sak = some k) :
    mkaRx p m s = setSecured p true (modSw p (fun t => { t with sak := some k })
      (modSw p (fun t => { t with live := true, liveClk := s.clk, server := false }) s)) := by
  have hne : (swOf s p).cfg.ksPrio ≠ m.serverPrio := fun h => by simp [h] at hprio
  simp [mkaRx, mkaRx_heard hmacsec hkey hicv hlink, hne, Nat.not_lt.mpr hprio.le, hsak]

/-- R489, R490: as key server the port keeps the SAK that it has distributed. -/
theorem mkaRx_serves {x : BitVec 32} (hprio : (swOf s p).cfg.ksPrio.toNat < m.serverPrio.toNat) (hpn : m.pnExhausted = false)
    (hsak : (swOf s p).sak = some x) :
    mkaRx p m s = modSw p (fun t => { t with live := true, liveClk := s.clk, server := true }) s := by
  have hne : (swOf s p).cfg.ksPrio ≠ m.serverPrio := fun h => by simp [h] at hprio
  simp [mkaRx, mkaRx_heard hmacsec hkey hicv hlink, hne, hprio, hpn, hsak]

end

theorem sakDistribute_serves (hmacsec : (swOf s p).cfg.macsec = true) (hserver : (swOf s p).server = true)
    (hlive : (swOf s p).live = true) :
    sakDistribute p s = setSecured p true (emit (.mkpdu p (some (s.swc.sakNext + 1)))
      (modSw p (fun t => { t with sak := some (s.swc.sakNext + 1) })
        { s with swc := { s.swc with sakNext := s.swc.sakNext + 1 } })) := by
  simp [sakDistribute, hmacsec, hserver, hlive]

end

/-! ## Links (R472, R494) -/

section
variable {p v : Nat} {m : Bool} {s : State}

theorem linkChange_same {b : Bool} (h : (swOf s p).link = b) : linkChange p b v m s = s := by
  simp [linkChange, h]

theorem linkChange_up (hdown : (swOf s p).link = false) (hmode : (swOf s p).cfg.mode ≠ 0) :
    linkChange p true v m s = raise 0x0A01 (leBytes 1 p ++ leBytes 1 (linkSpeed (swOf s p).cfg v))
      (modSw p (fun t => { t with
        link := true, speed := BitVec.ofNat 2 (linkSpeed t.cfg v), t1Master := linkMaster t.cfg m }) s) := by
  simp [linkChange, hdown, hmode]

theorem linkChange_down (hup : (swOf s p).link = true) :
    linkChange p false v m s = setSecured p false (modSw p (fun t => { t with live := false, server := false, sak := none })
      (modTime (fun x => { x with links := updAt x.links p (fun _ => none) })
        (raise 0x0A01 (leBytes 1 p ++ leBytes 1 0xFF)
          (modSw p (fun t => { t with
            link := false, speed := BitVec.ofNat 2 (linkSpeed t.cfg v), t1Master := linkMaster t.cfg m }) s)))) := by
  simp [linkChange, hup, modTime]

end

end Sys2Proof.Machine
end

section
/-! PROOFS. The statements of spec/10_vehicle_bus_and_consist_switch.md. -/

open Sys2Proof Sys2Proof.Machine

/-- Settles O10: each clause names what the chapter answers (`swc…Body_…`), and `does_plain` and `queues_plain` bring the answer
to its mailbox. -/
theorem switchCommandsComplete : Obligations.SwitchCommandsComplete := by
  intro dt r s
  refine ⟨?_, ?_, ?_, ?_, ?_, ?_, ?_, ?_, ?_⟩
  · intro h hport hmode hten hpvid hpvid' haccept hroom
    exact queues_plain h hroom rfl rfl (swcPortConfigBody_accepted hport hmode hten hpvid hpvid' haccept)
      (mbx_of_is fun mb => by simp)
  · intro h hport
    exact does_plain h rfl rfl (swcPortStatusBody_listed hport) (mbx_of_is fun mb => by simp)
  · intro h hvid hvid'
    exact does_plain h rfl rfl (swcVlanSetBody_accepted hvid hvid') rfl
  · intro h hfrer hrecover hports
    exact does_plain h rfl rfl (swcStreamSetBody_accepted hfrer hrecover hports) (mbx_of_is fun mb => by simp)
  · intro h hzero hport hcount hct hdivides hsum
    exact does_plain h rfl rfl (swcGclStageBody_accepted hzero hport hcount hct (by simpa using hdivides) hsum)
      (mbx_of_is fun mb => by simp)
  · intro h hmask hstaged hroom
    exact queues_plain h hroom rfl rfl (swcGclCommitBody_accepted hmask (by simpa using hstaged)) (mbx_of_is fun mb => by simp)
  · intro h hport
    exact does_plain h rfl rfl (swcMacsecKeyBody_accepted hport) (mbx_of_is fun mb => by simp)
  · intro h
    exact does_plain h rfl rfl rfl (mbx_of_is fun mb => by simp)
  · intro h hroom
    exact queues_plain h hroom rfl rfl rfl rfl

/-- Settles O33: each command is the branch that its state and frame choose (`mvbPeriod_…`, `mvbNext_…`, `mvbNoReply_…`,
`mvbMasterRx_…`, `mvbSlaveRx_…`). -/
theorem mvbBusCommandsComplete : Obligations.MvbBusCommandsComplete := by
  intro dt g s hsound
  have hg : g.val < (begin_ dt s).mvb.length := hsound.mvb_lt g
  refine ⟨?_, ?_, ?_, ?_, ?_, ?_, ?_, ?_, ?_, ?_, ?_, ?_, ?_⟩
  · intro t hrole hcommit htable hcfg hstarts
    exact congrArg Host.Outcome.next (mvbPeriod_polls hg hrole hcommit htable hcfg hstarts)
  · intro hcfg hstarts
    exact congrArg Host.Outcome.next (mvbPeriod_between hcfg hstarts)
  · intro hrole hcfg
    exact congrArg Host.Outcome.next (mvbPeriod_device hrole hcfg)
  · intro hrole
    exact congrArg Host.Outcome.next (mvbPeriod_off hrole)
  · intro t e es hrole hmaster htable hperiod hfits hpolls hnone hfcode
    rw [exec_mvbMasterFrameSend hmaster]
    exact congrArg Host.Outcome.next (mvbNext_polls_foreign hg hrole htable hperiod hfits hpolls hnone hfcode)
  · intro t hrole hmaster htable hperiod hlate
    rw [exec_mvbMasterFrameSend hmaster]
    exact congrArg Host.Outcome.next (mvbNext_late hrole htable hperiod hlate)
  · intro x hrole hmaster
    exact congrArg Host.Outcome.next (mvbNoReply_waiting hrole hmaster)
  · intro hmaster
    exact congrArg Host.Outcome.next (mvbNoReply_none hmaster)
  · intro f p hrole hline hfcode hport hdir hown hclaim hext
    exact ⟨_, rfl, mvbMasterRx_source hg hrole hline hfcode hport hdir hown hclaim hext⟩
  · intro f p hrole hline hfcode hport hdir hown hclaim hshut
    exact ⟨_, rfl, mvbMasterRx_withheld hg hrole hline hfcode hport hdir hown hclaim hshut rfl⟩
  · intro f ha hb
    exact congrArg Host.Outcome.next (mvbMasterRx_unheard ha hb)
  · intro f fc a p d hmaster hfc hdata hfirst hinvA hinvB hagree hport hdir hown
    exact ⟨_, rfl, mvbSlaveRx_taken hg hmaster hfc hdata hfirst hinvA hinvB hagree hport hdir hown⟩
  · intro f hmaster
    exact congrArg Host.Outcome.next (mvbSlaveRx_unasked hmaster)

/-- Settles O34: each command is the branch that its state and frame choose (`switchIn_…`, `consistRx_…`, `swEgress_…`,
`mkaRx_…`, `linkChange_…`); forwarding a frame changes no table of the switch (`swForward_none_tables`). -/
theorem switchEventCommandsComplete : Obligations.SwitchEventCommandsComplete := by
  intro dt s
  refine ⟨?_, ?_, ?_, ?_, ?_, ?_, ?_, ?_, ?_, ?_, ?_, ?_, ?_, ?_, ?_, ?_, ?_, ?_, ?_, ?_, ?_⟩
  · intro f hport hdown
    exact congrArg Host.Outcome.next ((consistRx_consist hport).trans (switchIn_down hport hdown))
  · intro f hport hactive hfcs
    exact congrArg Host.Outcome.next ((consistRx_consist hport).trans (switchIn_badFcs hactive hfcs))
  · intro f hport hactive hfcs hlen
    exact congrArg Host.Outcome.next ((consistRx_consist hport).trans (switchIn_oversize hactive hfcs hlen))
  · intro f hport hactive hfcs hmin hmax hmacsec htag
    exact congrArg Host.Outcome.next ((consistRx_consist hport).trans
      (switchIn_unauthenticated hactive hport hfcs hmin hmax hmacsec htag))
  · intro f hport hactive hfcs hmin hmax hmacsec hvlan
    exact congrArg Host.Outcome.next ((consistRx_consist hport).trans
      (switchIn_vlanRefused hactive hport hfcs hmin hmax hmacsec hvlan))
  · intro f hport hactive hfcs hmin hmax hmacsec hvlan hstreams
    obtain ⟨hstreams', haddrs⟩ :=
      swForward_none_tables f (learn f (frameVid f (swOf s f.port)) (swCount f.port 0 (begin_ dt s)))
    refine ⟨_, congrArg Host.Outcome.next ((consistRx_consist hport).trans
      (switchIn_unidentified (s := begin_ dt s) hactive hport hfcs hmin hmax hmacsec hvlan hstreams)), fun n => ?_,
      fun hsrc hnone => haddrs.trans (learn_first _ hsrc hnone)⟩
    exact congrArg (tblGet · n) (hstreams'.trans ((learn_streams _ _ _).trans hstreams))
  · intro f l hport hpair hst hruns
    obtain ⟨k, hof, rfl⟩ : ∃ k : Fin 4, f.pair = some k ∧ k.val = l := by simpa [Option.bind_eq_some_iff] using hpair
    exact congrArg Host.Outcome.next (consistRx_locked (s := begin_ dt s) hport hof hst hruns)
  · intro f l hport hpair h
    obtain ⟨k, hof, rfl⟩ : ∃ k : Fin 4, f.pair = some k ∧ k.val = l := by simpa [Option.bind_eq_some_iff] using hpair
    exact congrArg Host.Outcome.next (consistRx_silent (s := begin_ dt s) hport hof h)
  · intro p q e es hport hqueue hempty
    refine congrArg Host.Outcome.next ((swEgress_head (s := begin_ dt s) (by simp [hport]) hqueue
      (queueReady_internal hport hqueue) fun k hk => queueReady_empty (hempty k hk)).trans ?_)
    rw [egressGated_internal hport]
    rfl
  · intro p q e es hactive hmacsec hqueue hready hfirst
    exact (congrArg Host.Outcome.next (swEgress_head (s := begin_ dt s) (fun _ => ⟨hactive, hmacsec⟩) hqueue hready
      hfirst)).trans (apply_ite Host.Outcome.next _ _ _)
  · intro p q hempty
    exact congrArg Host.Outcome.next (swEgress_empty (s := begin_ dt s) hempty)
  · exact fun m v => ⟨_, rfl, rfl, rfl, rfl⟩
  · exact fun h hstale => congrArg Host.Outcome.next (if_pos hstale)
  · exact fun h hfresh => congrArg Host.Outcome.next (if_neg (Bool.eq_false_iff.mp hfresh))
  · intro p m k hmacsec hkey hicv hlink hprio hsak
    exact congrArg Host.Outcome.next (mkaRx_follows (s := begin_ dt s) hmacsec hkey hicv hlink hprio hsak)
  · intro p m x hmacsec hkey hicv hlink hprio hpn hsak
    exact congrArg Host.Outcome.next (mkaRx_serves (s := begin_ dt s) hmacsec hkey hicv hlink hprio hpn hsak)
  · intro p m h
    exact congrArg Host.Outcome.next (mkaRx_ignored (s := begin_ dt s) h)
  · intro p hmacsec hserver hlive
    exact congrArg Host.Outcome.next (sakDistribute_serves (s := begin_ dt s) hmacsec hserver hlive)
  · intro p v m hdown hmode
    exact congrArg Host.Outcome.next (linkChange_up (s := begin_ dt s) hdown hmode)
  · intro p v m hup
    exact congrArg Host.Outcome.next (linkChange_down (s := begin_ dt s) hup)
  · intro p b v m h
    exact congrArg Host.Outcome.next (linkChange_same (s := begin_ dt s) h)

end

section
/-! PROOFS. The FAB commands (spec/11): what the subject chapter answers, case by case. -/

namespace Sys2Proof.Machine

@[simp] theorem fabActiveTwin_taken (op dt : Nat) (r : Ring) (s : State) :
    fabActiveTwin (taken op dt r s) = fabActiveTwin s := by
  simp [fabActiveTwin, holdsActiveClaim]

section
variable {r : Ring} {s : State}

/-! ## The fabric's record and configuration (R504, R541, R542) -/

theorem fabStatusBody_listed (hlink : byteAt r.req 0 ≤ 3) :
    fabStatusBody r s = (done (fabRecord (byteAt r.req 0) s),
      if clearAsked r.req 1 then modFab (byteAt r.req 0) (fun l => { l with ctr := ctrClear l.ctr }) s else s) :=
  if_neg (Nat.not_lt.mpr hlink)

/-- In steep the new configuration stands at once: a link of a changed mask bit goes to training or is disabled, and a node that
becomes attached closes its bypass. -/
theorem fabConfigBody_steep (hst : s.ina.st = .steep) (htwin : (byteAt r.req 0).testBit 0 = true → s.twin.configured = false)
    (hreq : 1 ≤ fieldAt r.req 4 2) (hreq' : fieldAt r.req 4 2 ≤ 50) (hsem : 10 ≤ fieldAt r.req 6 2)
    (hsem' : fieldAt r.req 6 2 ≤ 10000) :
    fabConfigBody r s = (done [], (if (byteAt r.req 0).testBit 0 && !s.fab.attached then fabAttach else id)
      (forEach (List.range 4) (fun k v =>
          if v.fab.mask.getLsbD k && !(s.fab.mask.getLsbD k) then fabLeave k .training v
          else if !(v.fab.mask.getLsbD k) && s.fab.mask.getLsbD k then fabLeave k .disabled v else v)
        (modFabric (fun f => { f with
          attached := (byteAt r.req 0).testBit 0, mask := BitVec.ofNat 4 (byteAt r.req 1)
          allow := BitVec.ofNat 16 (fieldAt r.req 2 2), reqTmo := fieldAt r.req 4 2
          semTmo := fieldAt r.req 6 2 }) s))) := by
  have hfree : ¬ ((byteAt r.req 0).testBit 0 = true ∧ s.twin.configured = true) := by
    rintro ⟨hattach, htwin'⟩
    simp [htwin hattach] at htwin'
  have hreqRange : ¬ (fieldAt r.req 4 2 < 1 ∨ 50 < fieldAt r.req 4 2) := by omega
  have hsemRange : ¬ (fieldAt r.req 6 2 < 10 ∨ 10000 < fieldAt r.req 6 2) := by omega
  simp only [fabConfigBody, Bool.and_eq_true, Bool.or_eq_true, decide_eq_true_eq, if_neg hfree, if_neg hreqRange,
    if_neg hsemRange, (inSteep_iff s).mpr hst, Bool.not_true, Bool.false_eq_true, if_false]
  split <;> rfl

/-! ## Slots at the Active twin (R507, R541) -/

section
variable (hslot : 2 ≤ byteAt r.req 0) (hslot' : byteAt r.req 0 ≤ 15) (hactive : fabActiveTwin s = true)
include hslot hslot' hactive

theorem fabSlotTableBody_assigns (hassign : byteAt r.req 1 = 1) (huid : fieldAt r.req 8 8 ≠ 0) :
    fabSlotTableBody r s = (done [], modFabric (fun f => { f with
      slots := updAt (f.slots.map (fun v => if v = BitVec.ofNat 64 (fieldAt r.req 8 8) then 0 else v)) (byteAt r.req 0 - 2)
        (fun _ => BitVec.ofNat 64 (fieldAt r.req 8 8))
      assign := f.assign.filter (fun v => v ≠ BitVec.ofNat 64 (fieldAt r.req 8 8))
      noSlot := f.noSlot.filter (fun v => v ≠ BitVec.ofNat 64 (fieldAt r.req 8 8)) }) s) := by
  have hrange : ¬ (byteAt r.req 0 < 2 ∨ 15 < byteAt r.req 0) := by omega
  have hfits : fieldAt r.req 8 8 < 2 ^ 64 := fieldAt_lt r.req 8 8
  have huid' : BitVec.ofNat 64 (fieldAt r.req 8 8) ≠ 0 :=
    fun h => huid ((Nat.mod_eq_of_lt hfits).symm.trans (congrArg BitVec.toNat h))
  simp only [fabSlotTableBody, Bool.or_eq_true, Bool.and_eq_true, decide_eq_true_eq, if_neg hrange, hassign, huid', hactive,
    and_false, Nat.lt_irrefl, Bool.not_true, Bool.false_eq_true, if_false, if_true]

theorem fabSlotTableBody_frees (hfree : byteAt r.req 1 = 0) :
    fabSlotTableBody r s = (done [], modFabric (fun f => { f with
      slots := updAt f.slots (byteAt r.req 0 - 2) (fun _ => 0), noSlot := [] }) s) := by
  have hrange : ¬ (byteAt r.req 0 < 2 ∨ 15 < byteAt r.req 0) := by omega
  simp only [fabSlotTableBody, Bool.or_eq_true, Bool.and_eq_true, decide_eq_true_eq, if_neg hrange, hfree, hactive,
    Nat.not_lt_zero, Nat.zero_ne_one, false_and, Bool.not_true, Bool.false_eq_true, if_false]

end

/-! ## The host bridge (R526, R537, R541) -/

theorem fabWindowSetBody_accepted (hindex : byteAt r.req 0 ≤ 7) (hmode : byteAt r.req 1 ≤ 2)
    (hguard : byteAt r.req 3 ≤ 31 ∨ byteAt r.req 3 = 0xFF) (haddr : fieldAt r.req 4 2 < 1024) (hslot : byteAt r.req 6 < 16)
    (halign : fieldAt r.req 16 4 % 0x400000 = 0) (hbase : fieldAt r.req 16 4 < 0x1000000) :
    fabWindowSetBody r s = (done [], modBridge (fun x => { x with
      windows := updAt x.windows (byteAt r.req 0) (fun _ => {
        mode := byteAt r.req 1, addr := BitVec.ofNat 10 (fieldAt r.req 4 2), vid := BitVec.ofNat 48 (fieldAt r.req 8 6)
        slot := BitVec.ofNat 8 (byteAt r.req 6), base := BitVec.ofNat 32 (fieldAt r.req 16 4)
        rd := (byteAt r.req 2).testBit 0, wr := (byteAt r.req 2).testBit 1
        guard_ := if byteAt r.req 3 = 0xFF then none else some (Fin.ofNat 32 (byteAt r.req 3)) }) }) s) := by
  have hguard' : ¬ (32 ≤ byteAt r.req 3 ∧ byteAt r.req 3 ≠ 0xFF) := by omega
  have hbase' : ¬ (fieldAt r.req 16 4 % 0x400000 ≠ 0 ∨ 0x1000000 ≤ fieldAt r.req 16 4) := by omega
  simp only [fabWindowSetBody, Bool.and_eq_true, Bool.or_eq_true, decide_eq_true_eq,
    if_neg (Nat.not_le.mpr (Nat.lt_succ_of_le hindex)), if_neg (Nat.not_le.mpr (Nat.lt_succ_of_le hmode)), if_neg hguard',
    if_neg (Nat.not_le.mpr haddr), if_neg (Nat.not_le.mpr hslot), if_neg hbase']

theorem fabPwlogBody_listed (hmin : 1 ≤ byteAt r.req 0) (hmax : byteAt r.req 0 ≤ 64) :
    fabPwlogBody r s = (done ([BitVec.ofNat 8 (s.bridge.pwlog.take (byteAt r.req 0)).length, 0, 0, 0] ++
        (s.bridge.pwlog.take (byteAt r.req 0)).flatMap pwBytes),
      if (byteAt r.req 1).testBit 0 then modBridge (fun b => { b with pwlog := b.pwlog.drop (byteAt r.req 0) }) s
      else s) := by
  have hcount : ¬ (byteAt r.req 0 = 0 ∨ 64 < byteAt r.req 0) := by omega
  simp only [fabPwlogBody, Bool.or_eq_true, decide_eq_true_eq, if_neg hcount]

theorem fabSemReleaseBody_released (hsem : byteAt r.req 0 ≤ 31) :
    fabSemReleaseBody r s = (done [], semFree (byteAt r.req 0) 2 s) :=
  if_neg (Nat.not_le.mpr (Nat.lt_succ_of_le hsem))

end

end Sys2Proof.Machine
end

section
/-! PROOFS. The statements of spec/11_vehicle_fabric_and_host_bridge.md. -/

open Sys2Proof Sys2Proof.Machine

/-- Settles O11: each clause names what the chapter answers (`fab…Body_…`), and `does` and `does_plain` bring the answer to its
mailbox. -/
theorem fabricCommandsComplete : Obligations.FabricCommandsComplete := by
  intro dt r s
  refine ⟨?_, ?_, ?_, ?_, ?_, ?_, ?_, ?_⟩
  · intro h hlink
    exact does_plain h rfl rfl (fabStatusBody_listed hlink) (mbx_of_is fun mb => by simp)
  · intro h hst htwin hreq hreq' hsem hsem'
    refine does h rfl (fabConfigBody_steep (by simpa using hst) (by simpa using htwin) hreq hreq' hsem hsem')
      (mbx_of_is fun mb => ?_) (by simp only [taken_frame]; rfl)
    split <;> simp
  · intro h hindex hmode hguard haddr hslot halign hbase
    exact does h rfl (fabWindowSetBody_accepted hindex hmode hguard haddr hslot halign hbase) rfl rfl
  · intro h hslot hslot' hassign huid hactive
    exact does h rfl (fabSlotTableBody_assigns hslot hslot' (by simpa using hactive) hassign huid) rfl rfl
  · intro h hslot hslot' hfree hactive
    exact does h rfl (fabSlotTableBody_frees hslot hslot' (by simpa using hactive) hfree) rfl rfl
  · intro h
    exact does_plain h rfl rfl rfl (mbx_of_is fun mb => by simp)
  · intro h hmin hmax
    exact does_plain h rfl rfl ((fabPwlogBody_listed hmin hmax).trans (by simp)) (mbx_of_is fun mb => by simp)
  · intro h hsem
    exact does_plain h rfl rfl (fabSemReleaseBody_released hsem) (mbx_of_is fun mb => by simp)

end

section
/-! PROOFS. The event queue (spec/12, spec/13): how full it is, what an event that enters it or is lost to it leaves, and a write
of its read index. -/

namespace Sys2Proof.Machine

/-! ## Room in the queue (R567) -/

theorem queueFull_iff (c : Cmd) : queueFull c = true ↔ c.wr + 1 = c.rd := beq_iff_eq

theorem unread_le (c : Cmd) : unread c ≤ 1023 := Nat.le_of_lt_succ (c.wr - c.rd).isLt

theorem unread_full_iff (c : Cmd) : unread c = 1023 ↔ c.wr + 1 = c.rd := by
  unfold unread; bv_omega

/-! ## An event that enters, or is lost -/

theorem queueEvent_full {e : Event} {s : State} (h : queueFull s.cmd = true) :
    queueEvent e s = { s with cmd := { s.cmd with lost := satInc s.cmd.lost, lostMark := true } } := if_pos h

theorem tblGet_tblMap {α : Type} (f : Nat → α → α) (t : Tbl α) (i : Nat) :
    tblGet (tblMap f t) i = (tblGet t i).map (f i) := by
  induction t with
  | nil => rfl
  | cons x t ih =>
    obtain ⟨k, v⟩ := x
    change (if i = k then _ else tblGet (tblMap f t) i) = Option.map (f i) (if i = k then _ else tblGet t i)
    split
    · next h => rw [h]; rfl
    · exact ih

theorem raiseQueue_entry {s : State} {i : Nat} {e : Event} (h : tblGet s.cmd.ring i = some e) :
    tblGet (raiseQueue s).cmd.ring i = some { e with raised := true } := by
  simp [raiseQueue, tblGet_tblMap, h]

/-- The state that an event leaves which finds room: its entry stands at the write index, LOST as it was marked. -/
def entryWritten (e : Event) (s : State) : State :=
  modCmd (fun c => { c with ring := tblSet c.ring c.wr.toNat { e with lost := c.lostMark }, wr := c.wr + 1, lostMark := false }) s

theorem queueEvent_room {e : Event} {s : State} (h : queueFull s.cmd = false) :
    queueEvent e s = entryWritten e s ∨ queueEvent e s = raiseQueue (entryWritten e s) := by
  simp only [queueEvent, h, Bool.false_eq_true, if_false]
  split
  · exact .inr rfl
  · exact .inl rfl

@[simp] theorem raiseQueue_indices (s : State) : (raiseQueue s).cmd.wr = s.cmd.wr ∧ (raiseQueue s).cmd.lost = s.cmd.lost ∧
    (raiseQueue s).cmd.lostMark = s.cmd.lostMark := by
  simp [raiseQueue]

theorem queueEvent_room_cmd {e : Event} {s : State} (h : queueFull s.cmd = false) :
    (queueEvent e s).cmd.wr = s.cmd.wr + 1 ∧ (queueEvent e s).cmd.lostMark = false ∧
    (queueEvent e s).cmd.lost = s.cmd.lost := by
  rcases queueEvent_room (e := e) h with hq | hq <;> rw [hq] <;> simp [entryWritten]

theorem queueEvent_room_entry {e : Event} {s : State} (h : queueFull s.cmd = false) :
    ∃ f, tblGet (queueEvent e s).cmd.ring s.cmd.wr.toNat = some f ∧ f.lost = s.cmd.lostMark ∧ f.seq = e.seq ∧
      f.type = e.type ∧ f.time = e.time ∧ f.param = e.param := by
  have hentry : tblGet (entryWritten e s).cmd.ring s.cmd.wr.toNat = some { e with lost := s.cmd.lostMark } :=
    tblGet_tblSet_self _ _ _
  rcases queueEvent_room (e := e) h with hq | hq <;> rw [hq]
  · exact ⟨_, hentry, rfl, rfl, rfl, rfl, rfl⟩
  · exact ⟨_, raiseQueue_entry hentry, rfl, rfl, rfl, rfl, rfl⟩

/-! ## Every event (R568, R572) -/

@[simp] theorem recordEvent_queue (e : Event) (s : State) : (recordEvent e s).cmd.wr = s.cmd.wr ∧
    (recordEvent e s).cmd.ring = s.cmd.ring ∧ (recordEvent e s).cmd.lost = s.cmd.lost ∧
    queueFull (recordEvent e s).cmd = queueFull s.cmd := ⟨rfl, rfl, rfl, rfl⟩

theorem raise_masked {code : Nat} {param : List Byte} {s : State} (h : BitVec.ofNat 16 code ∈ s.cmd.mask) :
    raise code param s = recordEvent (newEvent s.now code param s) s := by
  have hmask : s.cmd.mask.contains (newEvent s.now code param s).type = true := List.contains_iff_mem.mpr h
  simp only [raise, raiseAt, hmask, if_true]

theorem raise_unmasked {code : Nat} {param : List Byte} {s : State} (h : BitVec.ofNat 16 code ∉ s.cmd.mask) :
    raise code param s =
      queueEvent (newEvent s.now code param s) (recordEvent (newEvent s.now code param s) s) := by
  have hmask : ¬ s.cmd.mask.contains (newEvent s.now code param s).type = true := fun hm => h (List.contains_iff_mem.mp hm)
  simp only [raise, raiseAt, if_neg hmask]

theorem raise_log (code : Nat) (param : List Byte) (s : State) : (raise code param s).cmd.log =
    if isLogged code then keepLast 4096 (s.cmd.log ++ [newEvent s.now code param s]) else s.cmd.log := by
  by_cases h : BitVec.ofNat 16 code ∈ s.cmd.mask
  · rw [raise_masked h]; rfl
  · rw [raise_unmasked h]; simp only [queueEvent_frame]; rfl

theorem keepLast_of_le {α : Type} {n : Nat} {l : List α} (h : l.length ≤ n) : keepLast n l = l := by
  rw [keepLast, Nat.sub_eq_zero_of_le h, List.drop_zero]

/-! ## EVQ_RD (R586, R588) -/

section
variable {i : Iface} {v : Nat} {s : State}

theorem evqRdWrite_discarded
    (h : isPair i = true ∨ (s.cmd.wr - s.cmd.rd).toNat < (s.cmd.wr - BitVec.ofNat 10 v).toNat) :
    evqRdWrite i v s = modCmd (fun c => { c with rdErr := true }) s := if_pos (by simpa using h)

theorem evqRdWrite_accepted (hpair : isPair i = false)
    (hback : (s.cmd.wr - BitVec.ofNat 10 v).toNat ≤ (s.cmd.wr - s.cmd.rd).toNat) :
    evqRdWrite i v s = if s.cmd.evqIrqEn && s.cmd.wr ≠ BitVec.ofNat 10 v
      then raiseQueue (modCmd (fun c => { c with rd := BitVec.ofNat 10 v }) s)
      else modCmd (fun c => { c with rd := BitVec.ofNat 10 v }) s :=
  if_neg (by rw [hpair, Bool.false_or, decide_eq_true_eq]; exact Nat.not_lt.mpr hback)

end

theorem exec_evqRdWrite {dt : Nat} {src : Iface} {v : BitVec 32} {s : State} (h : Accesses src 0x108004 s) :
    exec (.evqRdWrite dt src v) s = .next (evqRdWrite src v.toNat (begin_ dt s)) :=
  congrArg Host.Outcome.next (hostAccess_carried h)

end Sys2Proof.Machine
end

section
open Sys2Proof Sys2Proof.Machine

/-- Settles O47: an event that finds room leaves `entryWritten`, with the queue's vector raised or not. -/
theorem eventQueueFullLoses : Obligations.EventQueueFullLoses := fun e s =>
  ⟨queueFull_iff _, (queueFull_iff _).trans (unread_full_iff _).symm, unread_le _, queueEvent_full, fun hroom => by
    obtain ⟨hwr, hmark, hlost⟩ := queueEvent_room_cmd (e := e) hroom
    exact ⟨hwr, hmark, by simp, hlost, queueEvent_room_entry hroom⟩⟩

/-- Settles O48: `recordEvent` numbers, records and logs the event, and `queueEvent` is met by an unmasked one alone. -/
theorem eventsAreNumberedAndRecorded : Obligations.EventsAreNumberedAndRecorded := by
  intro code param s
  refine ⟨by simp, ⟨newEvent s.now code param s, by simp, rfl, rfl, rfl, rfl, rfl, fun hlog hlen => ?_, fun hlog => ?_⟩,
    fun hmask => ?_, fun hmask hroom => ?_, ?_⟩
  · rw [raise_log, if_pos hlog, keepLast_of_le (by simpa using hlen)]
  · rw [raise_log, if_neg (by simp [hlog])]
  · rw [raise_masked hmask]; exact ⟨rfl, rfl, rfl⟩
  · rw [raise_unmasked hmask, (queueEvent_room_cmd (by simpa using hroom)).1]; rfl
  · exact (raise_writes _ s code param s (by decide) (by decide) (by decide) (by decide)).mpr (onlyWrites_refl _ s)

/-- Settles O50: a write of EVQ_RD that is carried out is `evqRdWrite`, whose two cases the clauses name. -/
theorem readIndexNeverMovesBack : Obligations.ReadIndexNeverMovesBack := by
  intro dt src v s hacc
  refine ⟨fun h => ?_, fun hpair hback => ⟨_, exec_evqRdWrite hacc, ?_⟩⟩
  · rw [exec_evqRdWrite hacc, evqRdWrite_discarded (s := begin_ dt s) h]
  · rw [evqRdWrite_accepted (s := begin_ dt s) hpair hback]
    have hunread : ∀ c : Cmd, c.wr = s.cmd.wr → c.rd = BitVec.ofNat 10 v.toNat → unread c ≤ unread s.cmd :=
      fun c hwr hrd => by rw [unread, hwr, hrd]; exact hback
    split
    · exact ⟨by simp, by simp, by simp, hunread _ (by simp) (by simp), fun _ _ => rfl⟩
    · next hraise =>
      exact ⟨by simp, by simp, by simp, hunread _ (by simp) (by simp), fun hirq hne => absurd (by simpa [hirq] using hne) hraise⟩

end

section
/-! PROOFS. One channel, one segment, one port at a time (spec/02, spec/09, spec/10): what an event of one changes leaves the others
as they were. -/

namespace Sys2Proof.Machine

/-! ## CAN channels -/

/-- Every channel but `c` is in `s` as it is in `k`. -/
def CansBut (c : Nat) (k s : State) : Prop := ∀ d, d ≠ c → canOf s d = canOf k d

theorem cansBut_congr {s t : State} (h : t.can = s.can) (c : Nat) (k : State) : CansBut c k t ↔ CansBut c k s :=
  forall₂_congr fun d _ => by rw [canOf_congr h d]

/-- What writes no channel leaves every channel. -/
theorem cansBut_of_writes {w : List Block} {s t : State} (h : ∀ S, OnlyWrites w S t ↔ OnlyWrites w S s)
    (hw : Block.can ∉ w) (c : Nat) (k : State) : CansBut c k t ↔ CansBut c k s :=
  cansBut_congr ((h s).mpr (onlyWrites_refl w s) .can hw) c k

@[simp] theorem cansBut_ite (c : Nat) (k : State) (p : Prop) [Decidable p] (a b : State) :
    CansBut c k (if p then a else b) ↔ if p then CansBut c k a else CansBut c k b := by split <;> rfl

@[simp] theorem forEach_cansBut (c : Nat) (k : State) {α : Type} (l : List α) (f : α → State → State) (s : State)
    (h : ∀ x s, CansBut c k (f x s) ↔ CansBut c k s) : CansBut c k (forEach l f s) ↔ CansBut c k s := by
  induction l generalizing s with
  | nil => rfl
  | cons x xs ih => exact (ih (f x s)).trans (h x s)

@[simp] theorem cansBut_begin_ (c : Nat) (k : State) (dt : Nat) (s : State) : CansBut c k (begin_ dt s) ↔ CansBut c k s := Iff.rfl

@[simp] theorem emit_cansBut (c : Nat) (k : State) (e : Emission) (s : State) : CansBut c k (emit e s) ↔ CansBut c k s :=
  cansBut_congr (by simp) c k

@[simp] theorem raise_cansBut (c : Nat) (k : State) (code : Nat) (param : List Byte) (s : State) :
    CansBut c k (raise code param s) ↔ CansBut c k s := cansBut_congr (by simp) c k

@[simp] theorem canStamp_cansBut (c : Nat) (k s : State) : CansBut c k (canStamp s).2 ↔ CansBut c k s := Iff.rfl

@[simp] theorem canInterrupt_cansBut (c : Nat) (k : State) (vector : Byte) (dest : BitVec 3) (s : State) :
    CansBut c k (canInterrupt vector dest s) ↔ CansBut c k s := cansBut_congr (by simp) c k

@[simp] theorem canHpbIrq_cansBut (c : Nat) (k : State) (x : Nat) (o : CanObj) (s : State) :
    CansBut c k (canHpbIrq x o s) ↔ CansBut c k s := cansBut_congr (by simp [canHpbIrq]) c k

@[simp] theorem canTtFault_cansBut (c : Nat) (k : State) (x cause : Nat) (s : State) :
    CansBut c k (canTtFault x cause s) ↔ CansBut c k s := cansBut_congr (by simp [canTtFault]) c k

@[simp] theorem modCan_cansBut (c : Nat) (k : State) (f : Can → Can) (s : State) :
    CansBut c k (modCan c f s) ↔ CansBut c k s :=
  forall₂_congr fun d hd => by rw [canOf_modCan_ne _ _ _ _ hd.symm]

@[simp] theorem canIrq_cansBut (c : Nat) (k : State) (bit : Nat) (s : State) :
    CansBut c k (canIrq c bit s) ↔ CansBut c k s :=
  forall₂_congr fun d hd => by rw [canOf_canIrq, canOf_modCan_ne _ _ _ _ hd.symm]

@[simp] theorem canCount_cansBut (c : Nat) (k : State) (i : Nat) (s : State) :
    CansBut c k (canCount c i s) ↔ CansBut c k s := by
  unfold canCount; simp

@[simp] theorem canStart_cansBut (c : Nat) (k : State) (o : CanSlot) (exclusive : Bool) (s : State) :
    CansBut c k (canStart c o exclusive s) ↔ CansBut c k s := by
  unfold canStart; simp

@[simp] theorem canStartRef_cansBut (c : Nat) (k : State) (late : Bool) (s : State) :
    CansBut c k (canStartRef c late s) ↔ CansBut c k s := by
  unfold canStartRef; simp

@[simp] theorem canRefWithhold_cansBut (c : Nat) (k : State) (s : State) :
    CansBut c k (canRefWithhold c s) ↔ CansBut c k s := by
  unfold canRefWithhold; dsimp only; (repeat' split) <;> simp_all

@[simp] theorem canWithhold_cansBut (c : Nat) (k : State) (s : State) :
    CansBut c k (canWithhold c s) ↔ CansBut c k s := by
  unfold canWithhold; dsimp only; (repeat' split) <;> simp_all

@[simp] theorem canOfferExclusive_cansBut (c : Nat) (k : State) (col : Nat) (o : CanSlot) (s : State) :
    CansBut c k (canOfferExclusive c col o s) ↔ CansBut c k s := by
  unfold canOfferExclusive; simp

@[simp] theorem canOfferPending_cansBut (c : Nat) (k : State) (s : State) :
    CansBut c k (canOfferPending c s) ↔ CansBut c k s := by
  unfold canOfferPending; (repeat' split) <;> simp

@[simp] theorem canOffer_cansBut (c : Nat) (k : State) (s : State) :
    CansBut c k (canOffer c s) ↔ CansBut c k s := by
  unfold canOffer; dsimp only; (repeat' split) <;> simp

@[simp] theorem canRequest_cansBut (c : Nat) (k : State) (o : CanSlot) (s : State) :
    CansBut c k (canRequest c o s) ↔ CansBut c k s := by
  unfold canRequest; simp

@[simp] theorem canCancel_cansBut (c : Nat) (k : State) (o : CanSlot) (s : State) :
    CansBut c k (canCancel c o s) ↔ CansBut c k s := by
  unfold canCancel; dsimp only; (repeat' split) <;> simp

@[simp] theorem canSetEState_cansBut (c : Nat) (k : State) (e : EState) (s : State) :
    CansBut c k (canSetEState c e s) ↔ CansBut c k s := by
  unfold canSetEState; simp

@[simp] theorem canJudge_cansBut (c : Nat) (k : State) (s : State) :
    CansBut c k (canJudge c s) ↔ CansBut c k s := by
  unfold canJudge; simp

@[simp] theorem canBusOff_cansBut (c : Nat) (k : State) (s : State) :
    CansBut c k (canBusOff c s) ↔ CansBut c k s := by
  unfold canBusOff; simp

@[simp] theorem canTecInc_cansBut (c : Nat) (k : State) (n : Nat) (s : State) :
    CansBut c k (canTecInc c n s) ↔ CansBut c k s := by
  unfold canTecInc; simp

@[simp] theorem canRecInc_cansBut (c : Nat) (k : State) (n : Nat) (s : State) :
    CansBut c k (canRecInc c n s) ↔ CansBut c k s := by
  unfold canRecInc; simp

@[simp] theorem canRecOk_cansBut (c : Nat) (k : State) (s : State) :
    CansBut c k (canRecOk c s) ↔ CansBut c k s := by
  unfold canRecOk; simp

@[simp] theorem canApplyMode_cansBut (c : Nat) (k : State) (m : Nat) (s : State) :
    CansBut c k (canApplyMode c m s) ↔ CansBut c k s := by
  unfold canApplyMode; simp

@[simp] theorem canFrameEnd_cansBut (c : Nat) (k : State) (s : State) :
    CansBut c k (canFrameEnd c s) ↔ CansBut c k s := by
  unfold canFrameEnd; dsimp only; (repeat' split) <;> simp

@[simp] theorem canWriteCtrl_cansBut (c : Nat) (k : State) (busy : Bool) (v : BitVec 32) (s : State) :
    CansBut c k (canWriteCtrl c busy v s) ↔ CansBut c k s := by
  unfold canWriteCtrl; simp

@[simp] theorem canTxComplete_cansBut (c : Nat) (k : State) (tdcv : Option Nat) (s : State) :
    CansBut c k (canTxComplete c tdcv s) ↔ CansBut c k s := by
  unfold canTxComplete; dsimp only; (repeat' split) <;> simp

@[simp] theorem canAttemptLost_cansBut (c : Nat) (k : State) (s : State) :
    CansBut c k (canAttemptLost c s) ↔ CansBut c k s := by
  unfold canAttemptLost; (repeat' split) <;> simp

@[simp] theorem canArbLost_cansBut (c : Nat) (k : State) (s : State) :
    CansBut c k (canArbLost c s) ↔ CansBut c k s := by
  unfold canArbLost; (repeat' split) <;> simp

@[simp] theorem canToSlot_cansBut (c : Nat) (k : State) (o : CanSlot) (f : CanFrame) (filter : Nat) (s : State) :
    CansBut c k (canToSlot c o f filter s) ↔ CansBut c k s := by
  unfold canToSlot; (repeat' split) <;> simp

@[simp] theorem canToFifo_cansBut (c : Nat) (k : State) (f : CanFrame) (filter : Nat) (s : State) :
    CansBut c k (canToFifo c f filter s) ↔ CansBut c k s := by
  unfold canToFifo; simp

@[simp] theorem canFilter_cansBut (c : Nat) (k : State) (f : CanFrame) (s : State) :
    CansBut c k (canFilter c f s) ↔ CansBut c k s := by
  unfold canFilter; dsimp only; (repeat' split) <;> simp

@[simp] theorem canAckError_cansBut (c : Nat) (k : State) (s : State) :
    CansBut c k (canAckError c s) ↔ CansBut c k s := by
  unfold canAckError; dsimp only; (repeat' split) <;> simp

@[simp] theorem canUnackRestart_cansBut (c : Nat) (k : State) (s : State) :
    CansBut c k (canUnackRestart c s) ↔ CansBut c k s := by
  unfold canUnackRestart; (repeat' split) <;> simp

@[simp] theorem canError_cansBut (c : Nat) (k : State) (e : CanError) (s : State) :
    CansBut c k (canError c e s) ↔ CansBut c k s := by
  unfold canError; simp

@[simp] theorem canRecovered_cansBut (c : Nat) (k : State) (occ : Nat) (s : State) :
    CansBut c k (canRecovered c occ s) ↔ CansBut c k s := by
  unfold canRecovered; simp

@[simp] theorem canObjWrite_cansBut (c : Nat) (k : State) (o : CanSlot) (w : Nat) (v : BitVec 32) (s : State) :
    CansBut c k (canObjWrite c o w v s) ↔ CansBut c k s := by
  unfold canObjWrite; simp

@[simp] theorem canLatch_cansBut (c : Nat) (k : State) (o : CanSlot) (i : Iface) (s : State) :
    CansBut c k (canLatch c o i s) ↔ CansBut c k s := by
  unfold canLatch; simp

@[simp] theorem canIntegrated_cansBut (c : Nat) (k : State) (s : State) :
    CansBut c k (canIntegrated c s) ↔ CansBut c k s := by
  unfold canIntegrated; simp

@[simp] theorem canTxrq_cansBut (c : Nat) (k : State) (m : Nat) (v : BitVec 32) (s : State) :
    CansBut c k (canTxrq c m v s) ↔ CansBut c k s := by
  unfold canTxrq; simp

@[simp] theorem canTxcan_cansBut (c : Nat) (k : State) (m : Nat) (v : BitVec 32) (s : State) :
    CansBut c k (canTxcan c m v s) ↔ CansBut c k s := by
  unfold canTxcan; simp

@[simp] theorem canHpbCtrl_cansBut (c : Nat) (k : State) (v : BitVec 32) (s : State) :
    CansBut c k (canHpbCtrl c v s) ↔ CansBut c k s := by
  unfold canHpbCtrl; simp

@[simp] theorem canRecoverStart_cansBut (c : Nat) (k : State) (v : BitVec 32) (s : State) :
    CansBut c k (canRecoverStart c v s) ↔ CansBut c k s := by
  unfold canRecoverStart; simp

@[simp] theorem canFifoPop_cansBut (c : Nat) (k : State) (v : BitVec 32) (s : State) :
    CansBut c k (canFifoPop c v s) ↔ CansBut c k s := by
  unfold canFifoPop; simp

@[simp] theorem canCommitNow_cansBut (c : Nat) (k : State) (s : State) :
    CansBut c k (canCommitNow c s) ↔ CansBut c k s := by
  unfold canCommitNow; simp

@[simp] theorem canCommitWrite_cansBut (c : Nat) (k : State) (cycle : BitVec 32) (s : State) :
    CansBut c k (canCommitWrite c cycle s) ↔ CansBut c k s := by
  unfold canCommitWrite; simp

@[simp] theorem canEndChecks_cansBut (c : Nat) (k : State) (counted : Bool) (s : State) :
    CansBut c k (canEndChecks c counted s) ↔ CansBut c k s := by
  unfold canEndChecks; simp

@[simp] theorem canBegin_cansBut (c : Nat) (k : State) (row : Nat) (s : State) :
    CansBut c k (canBegin c row s) ↔ CansBut c k s := by
  unfold canBegin; simp

@[simp] theorem canMacroChange_cansBut (c : Nat) (k : State) (s : State) :
    CansBut c k (canMacroChange c s) ↔ CansBut c k s := by
  unfold canMacroChange; simp

@[simp] theorem canReference_cansBut (c : Nat) (k : State) (count : Nat) (s : State) :
    CansBut c k (canReference c count s) ↔ CansBut c k s := by
  unfold canReference; simp

@[simp] theorem canRefAbandon_cansBut (c : Nat) (k : State) (s : State) :
    CansBut c k (canRefAbandon c s) ↔ CansBut c k s := by
  unfold canRefAbandon; simp

@[simp] theorem canRefTimeout_cansBut (c : Nat) (k : State) (s : State) :
    CansBut c k (canRefTimeout c s) ↔ CansBut c k s := by
  unfold canRefTimeout; simp

@[simp] theorem canCloseChecks_cansBut (c : Nat) (k : State) (col : Nat) (s : State) :
    CansBut c k (canCloseChecks c col s) ↔ CansBut c k s := by
  unfold canCloseChecks; simp

@[simp] theorem canWindow_cansBut (c : Nat) (k : State) (col : Nat) (idle : Bool) (s : State) :
    CansBut c k (canWindow c col idle s) ↔ CansBut c k s := by
  unfold canWindow; dsimp only; (repeat' split) <;> simp

@[simp] theorem canWindowEnd_cansBut (c : Nat) (k : State) (col : Nat) (s : State) :
    CansBut c k (canWindowEnd c col s) ↔ CansBut c k s := by
  unfold canWindowEnd; dsimp only; (repeat' split) <;> simp

/-- R414: an event that another node's frame does not bring about reaches no other channel. -/
theorem canReceive_cansBut (c : Nat) (k : State) (f : CanFrame) (own : Bool) (s : State)
    (hforeign : canForeign (canOf s c) f = false) : CansBut c k (canReceive c f own s) ↔ CansBut c k s := by
  simp [canReceive, hforeign]

@[simp] theorem accessBy_cansBut (c : Nat) (k : State) (src : Iface) (addr len : Nat) (w : Option (List Byte))
    (f : State → State) (s : State) (hf : ∀ x, CansBut c k (f x) ↔ CansBut c k x) :
    CansBut c k (accessBy src addr len w f s) ↔ CansBut c k s := by
  have hclosed : CansBut c k (closedAnswer src len w s) ↔ CansBut c k s :=
    cansBut_of_writes (w := [.emit]) (fun S => by simp) (by decide) c k
  have hrefused : CansBut c k (refusedAnswer src len w s) ↔ CansBut c k s :=
    cansBut_of_writes (w := [.emit, .bridge, .vec]) (fun S => by simp) (by decide) c k
  have hheld (l : Nat) : CansBut c k (holdAccess l addr len w s) ↔ CansBut c k s :=
    cansBut_of_writes (w := [.lsk]) (fun S => by simp) (by decide) c k
  unfold accessBy
  repeat' split
  all_goals simp only [hclosed, hrefused, hheld, hf, cansBut_ite, ite_self]

@[simp] theorem hostAccess_cansBut (c : Nat) (k : State) (dt : Nat) (src : Iface) (addr : Nat) (w : Option (BitVec 32))
    (f : State → State) (s : State) (hf : ∀ x, CansBut c k (f x) ↔ CansBut c k x) :
    CansBut c k (hostAccess dt src addr w f s) ↔ CansBut c k s :=
  (accessBy_cansBut c k src addr 4 _ f _ hf).trans (cansBut_begin_ c k dt s)

/-- A command whose meaning keeps the other channels leaves them as they were. -/
theorem can_others {i : Instr} {c : Fin 12} {u : State → State} (hexec : ∀ s, exec i s = .next (u s))
    (hu : ∀ k s, CansBut c k (u s) ↔ CansBut c k s) (s t : State) (h : exec i s = .next t) (j : Fin 12) (hj : j ≠ c) :
    canOf t j = canOf s j := by
  obtain rfl : u s = t := Host.Outcome.next.inj ((hexec s).symm.trans h)
  exact (hu s s).mpr (fun _ _ => rfl) j (fun he => hj (Fin.ext he))

/-! ## Vehicle-bus segments -/

/-- Every segment but `g` is in `s` as it is in `k`. -/
def MvbsBut (g : Nat) (k s : State) : Prop := ∀ d, d ≠ g → mvbOf s d = mvbOf k d

theorem mvbsBut_congr {s t : State} (h : t.mvb = s.mvb) (g : Nat) (k : State) : MvbsBut g k t ↔ MvbsBut g k s :=
  forall₂_congr fun d _ => by simp only [mvbOf, h]

@[simp] theorem mvbsBut_ite (g : Nat) (k : State) (p : Prop) [Decidable p] (a b : State) :
    MvbsBut g k (if p then a else b) ↔ if p then MvbsBut g k a else MvbsBut g k b := by split <;> rfl

@[simp] theorem mvbsBut_begin_ (g : Nat) (k : State) (dt : Nat) (s : State) : MvbsBut g k (begin_ dt s) ↔ MvbsBut g k s := Iff.rfl

@[simp] theorem emit_mvbsBut (g : Nat) (k : State) (e : Emission) (s : State) : MvbsBut g k (emit e s) ↔ MvbsBut g k s :=
  mvbsBut_congr (by simp) g k

@[simp] theorem takeFree_mvbsBut (g : Nat) (k : State) (n : Nat) (s : State) :
    MvbsBut g k (takeFree n s).2 ↔ MvbsBut g k s := Iff.rfl

@[simp] theorem raise_mvbsBut (g : Nat) (k : State) (code : Nat) (param : List Byte) (s : State) :
    MvbsBut g k (raise code param s) ↔ MvbsBut g k s := mvbsBut_congr (by simp) g k

@[simp] theorem finishQueued_mvbsBut (g : Nat) (k : State) (p : Queued → Bool) (status : Nat) (s : State) :
    MvbsBut g k (finishQueued p status s) ↔ MvbsBut g k s := by
  have hwrites : OnlyWrites [.emit, .cmd, .flow, .vec] s (finishQueued p status s) := by simp [onlyWrites_refl]
  exact mvbsBut_congr (hwrites .mvb (by decide)) g k

@[simp] theorem lineEvent_mvbsBut (g : Nat) (k : State) (x line : Nat) (old new : MvbLineSt) (s : State) :
    MvbsBut g k (lineEvent x line old new s) ↔ MvbsBut g k s := mvbsBut_congr (by unfold lineEvent; split <;> simp) g k

@[simp] theorem modMvb_mvbsBut (g : Nat) (k : State) (f : Mvb → Mvb) (s : State) :
    MvbsBut g k (modMvb g f s) ↔ MvbsBut g k s :=
  forall₂_congr fun d hd => by rw [mvbOf_modMvb_ne _ _ _ _ hd.symm]

@[simp] theorem mvbCount_mvbsBut (g : Nat) (k : State) (i : Nat) (s : State) :
    MvbsBut g k (mvbCount g i s) ↔ MvbsBut g k s := by
  unfold mvbCount; simp

@[simp] theorem mvbAnswer_mvbsBut (g : Fin 2) (k : State) (fcode : BitVec 4) (addr : BitVec 12) (s : State) :
    MvbsBut g k (mvbAnswer g fcode addr s) ↔ MvbsBut g k s := by
  unfold mvbAnswer; dsimp only; (repeat' split) <;> simp

@[simp] theorem mvbPoll_mvbsBut (g : Fin 2) (k : State) (fcode : BitVec 4) (addr : BitVec 12) (s : State) :
    MvbsBut g k (mvbPoll g fcode addr s) ↔ MvbsBut g k s := by
  unfold mvbPoll; simp

@[simp] theorem mvbNext_mvbsBut (g : Fin 2) (k : State) (s : State) :
    MvbsBut g k (mvbNext g s) ↔ MvbsBut g k s := by
  unfold mvbNext; dsimp only; (repeat' split) <;> simp

@[simp] theorem mvbTakeTable_mvbsBut (g : Nat) (k : State) (s : State) :
    MvbsBut g k (mvbTakeTable g s) ↔ MvbsBut g k s := by
  unfold mvbTakeTable; (repeat' split) <;> simp

@[simp] theorem mvbPeriod_mvbsBut (g : Fin 2) (k : State) (s : State) :
    MvbsBut g k (mvbPeriod g s) ↔ MvbsBut g k s := by
  unfold mvbPeriod; dsimp only; (repeat' split) <;> simp

@[simp] theorem mvbCut_mvbsBut (g : Nat) (k : State) (s : State) :
    MvbsBut g k (mvbCut g s) ↔ MvbsBut g k s := by
  unfold mvbCut; simp

@[simp] theorem mvbJudge_mvbsBut (g : Nat) (k : State) (a b : Bool) (s : State) :
    MvbsBut g k (mvbJudge g a b s) ↔ MvbsBut g k s := by
  unfold mvbJudge; simp

@[simp] theorem mvbMasterRx_mvbsBut (g : Fin 2) (k : State) (f : MvbMaster) (s : State) :
    MvbsBut g k (mvbMasterRx g f s) ↔ MvbsBut g k s := by
  unfold mvbMasterRx; simp

@[simp] theorem mvbSlaveRx_mvbsBut (g : Fin 2) (k : State) (f : MvbSlave) (s : State) :
    MvbsBut g k (mvbSlaveRx g f s) ↔ MvbsBut g k s := by
  unfold mvbSlaveRx; dsimp only; (repeat' split) <;> simp

@[simp] theorem mvbNoReply_mvbsBut (g : Nat) (k : State) (s : State) :
    MvbsBut g k (mvbNoReply g s) ↔ MvbsBut g k s := by
  unfold mvbNoReply; simp

/-- A command whose meaning keeps the other segment leaves it as it was. -/
theorem mvb_others {i : Instr} {g : Fin 2} {u : State → State} (hexec : ∀ s, exec i s = .next (u s))
    (hu : ∀ k s, MvbsBut g k (u s) ↔ MvbsBut g k s) (s t : State) (h : exec i s = .next t) (j : Fin 2) (hj : j ≠ g) :
    mvbOf t j = mvbOf s j := by
  obtain rfl : u s = t := Host.Outcome.next.inj ((hexec s).symm.trans h)
  exact (hu s s).mpr (fun _ _ => rfl) j (fun he => hj (Fin.ext he))

/-! ## Trunk ports -/

section
variable {p q : Nat} (h : p ≠ q) (s : State)
include h

theorem portOf_portResume_ne : portOf (portResume p s) q = portOf s q := by
  unfold portResume
  split
  · simp only [apply_ite (portOf · q), portOf_modPort_ne _ _ _ _ h, ite_self]
  · rfl

theorem portOf_portEnergy_ne : portOf (portEnergy p s) q = portOf s q := by
  unfold portEnergy
  split
  · simp only [apply_ite (portOf · q), portOf_portToTrain_ne h, portOf_portToNegotiate_ne h, ite_self]
  · rfl

theorem portOf_portQualify_ne : portOf (portQualify p s) q = portOf s q := by
  unfold portQualify
  split
  · simp only [apply_ite (portOf · q), portOf_modPort_ne _ _ _ _ h, ite_self]
  · rfl

theorem portOf_portSwap_ne : portOf (portSwap p s) q = portOf s q := by
  simp only [portSwap, apply_ite (portOf · q), portOf_modPort_ne _ _ _ _ h, ite_self]

/-- R44: a mode that is negotiated may take the other port of the direction off the Ndoelle line, and no other. -/
theorem portOf_portNegotiated_ne (m1000 m100 master : Bool) (hsib : siblingPort p ≠ q) :
    portOf (portNegotiated p m1000 m100 master s) q = portOf s q := by
  unfold portNegotiated
  split
  · rfl
  · rw [portOf_modPort_ne _ _ _ _ h, portOf_portToTrain_ne h, portOf_siblingFallback_ne hsib]
  · rfl

end

/-- A command whose meaning keeps port `q` leaves it as it was. -/
theorem port_stays {i : Instr} {q : Nat} {u : State → State} {s t : State} (hexec : ∀ s, exec i s = .next (u s))
    (h : exec i s = .next t) (hu : portOf (u s) q = portOf s q) : portOf t q = portOf s q := by
  obtain rfl : u s = t := Host.Outcome.next.inj ((hexec s).symm.trans h)
  exact hu

end Sys2Proof.Machine
end

section
/-! PROOFS. From the laws on what a meaning may write (`OnlyWrites`) to the frames of the commands. -/

namespace Sys2Proof.Machine

theorem writes_of_exec {w : List Block} {i : Instr}
    (h : ∀ S s, ∃ u, exec i s = .next u ∧ (OnlyWrites w S u ↔ OnlyWrites w S s)) : Writes w i := fun s =>
  let ⟨u, hu, hw⟩ := h s s
  ⟨u, hu, hw.mpr (onlyWrites_refl w s)⟩

/-- R528, R529: a withdrawal empties a place of the queue, or goes on to the node it is for. -/
theorem execBridgeWithdrawRx_writes (W : List Block) (S : State) (dt : Nat) (p : Option (Fin 4)) (r : BridgeFrame) (s : State)
    (w_now : Block.now ∈ W) (w_clk : Block.clk ∈ W) (w_emit : Block.emit ∈ W) (w_trunk : Block.trunk ∈ W)
    (w_sched : Block.sched ∈ W) (w_fab : Block.fab ∈ W) (w_bridge : Block.bridge ∈ W) :
    ∃ u, execBridgeWithdrawRx dt p r s = .next u ∧ (OnlyWrites W S u ↔ OnlyWrites W S s) := by
  have hwithdraw (f : BridgeFrame) (u : State) : OnlyWrites W S (withdrawIn f u) ↔ OnlyWrites W S u := by
    apply writes_of; rw [onlyWrites_parts]; simp [withdrawIn, w_bridge]
  exact ⟨_, rfl, by
    simp [bridgeRx, bridgeFrameIn, requestIn, hwithdraw, w_now, w_clk, w_emit, w_trunk, w_sched, w_fab]⟩

theorem exec_canFrameRx (dt : Nat) (c : Fin 12) (f : CanFrame) (own : Bool) (s : State) :
    exec (.canFrameRx dt c f own) s = .next (canReceive c f own (begin_ dt s)) := rfl

end Sys2Proof.Machine
end

section
/-! PROOFS. What a command leaves as it was. -/

open Sys2Proof Sys2Proof.Machine

/-- Settles O40: the equation of `step`. -/
theorem stepRunsFrontCommand : Obligations.StepRunsFrontCommand := fun _ _ => rfl

/-- Settles O53: what a command writes is the law on its meaning (`exec…_writes`), and a port that a change does not name reads the same. -/
theorem trunkFrames : Obligations.TrunkFrames :=
  ⟨fun dt p => writes_of_exec fun S s => by apply execLossOfSignal_writes <;> decide,
   fun dt p => writes_of_exec fun S s => by apply execResumeEntry_writes <;> decide,
   fun dt p => writes_of_exec fun S s => by apply execSignalRelock_writes <;> decide,
   fun dt p => writes_of_exec fun S s => by apply execLinkDownTimeout_writes <;> decide,
   fun dt p => writes_of_exec fun S s => by apply execPartnerEnergyDetect_writes <;> decide,
   fun dt p => writes_of_exec fun S s => by apply execTrainingLockComplete_writes <;> decide,
   fun dt p partner => writes_of_exec fun S s => by apply execQualifyComplete_writes <;> decide,
   fun dt p violations lockLost => writes_of_exec fun S s => by apply execCodeViolationLimit_writes <;> decide,
   fun dt p => writes_of_exec fun S s => by apply execNegotiateTimeout_writes <;> decide,
   fun dt p partner => writes_of_exec fun S s => by apply execT1LinkUp_writes <;> decide,
   fun dt p => writes_of_exec fun S s => by apply execT1RoleSwap_writes <;> decide,
   fun dt p idle tTx => writes_of_exec fun S s => by apply execDelayRequest_writes <;> decide,
   fun dt p m tRx tTx => writes_of_exec fun S s => by apply execDelayMarkerRx_writes <;> decide,
   fun dt p m => writes_of_exec fun S s => by apply execDelayFollowUpRx_writes <;> decide,
   fun dt p tTx => writes_of_exec fun S s => by apply execPeerDelayRequest_writes <;> decide,
   fun dt => writes_of_exec fun S s => by apply execBypassLineAClose_writes <;> decide,
   fun dt => writes_of_exec fun S s => by apply execBypassLineBClose_writes <;> decide,
   fun dt => writes_of_exec fun S s => by apply execBypassLineAOpen_writes <;> decide,
   fun dt => writes_of_exec fun S s => by apply execBypassLineBOpen_writes <;> decide,
   fun dt line closed => writes_of_exec fun S s => by apply execBypassSenseCheck_writes <;> decide,
   fun dt p idleFor => writes_of_exec fun S s => by apply execLinkBeaconSend_writes <;> decide,
   fun dt => writes_of_exec fun S s => by apply execPassiveBeaconSend_writes <;> decide,
   fun dt p b tRx => writes_of_exec fun S s => by apply execLinkBeaconRx_writes <;> decide,
   fun dt p b => writes_of_exec fun S s => by apply execBreakRx_writes <;> decide,
   fun dt p d => writes_of_exec fun S s => by apply execDirectoryRx_writes <;> decide,
   fun dt p j => writes_of_exec fun S s => by apply execJoinRx_writes <;> decide,
   fun dt p c => writes_of_exec fun S s => by apply execColdClaimRx_writes <;> decide,
   fun dt p m => writes_of_exec fun S s => by apply execMergeReportRx_writes <;> decide,
   fun dt p vid => writes_of_exec fun S s => by apply execLeadSetRx_writes <;> decide,
   fun dt p f tRx fin => writes_of_exec fun S s => by apply execOpeningFrameRx_writes <;> decide,
   fun dt => writes_of_exec fun S s => by apply execColdStartTimeout_writes <;> decide,
   fun dt => writes_of_exec fun S s => by apply execColdClaimSend_writes <;> decide,
   fun dt => writes_of_exec fun S s => by apply execContendTimeout_writes <;> decide,
   fun dt => writes_of_exec fun S s => by apply execProvisionalNoJoin_writes <;> decide,
   fun dt => writes_of_exec fun S s => by apply execShutdownBypassClose_writes <;> decide,
   fun dt p m1000 m100 master => writes_of_exec fun S s => by apply execAutonegComplete_writes <;> decide,
   fun dt p answered => writes_of_exec fun S s => by apply execTrainingFailure_writes <;> decide,
   fun dt p => writes_of_exec fun S s => by apply execT1LinkDown_writes <;> decide,
   fun dt p t => writes_of_exec fun S s => by apply execTtdpFrameRx_writes <;> decide,
   fun dt dir wtbAddrs interior master reporter => writes_of_exec fun S s => by apply execIslandInaugurationComplete_writes <;> decide,
   fun dt addr data okA okB => writes_of_exec fun S s => by apply execIslandTelegramRx_writes <;> decide,
   fun dt => writes_of_exec fun S s => by apply execIslandTelegramSend_writes <;> decide,
   fun dt _ s _ h j hj => port_stays (fun _ => rfl) h (portOf_portResume_ne (fun he => hj (Fin.ext he.symm)) (begin_ dt s)),
   fun dt _ s _ h j hj => port_stays (fun _ => rfl) h (portOf_portEnergy_ne (fun he => hj (Fin.ext he.symm)) (begin_ dt s)),
   fun dt _ s _ h j hj => port_stays (fun _ => rfl) h (portOf_portQualify_ne (fun he => hj (Fin.ext he.symm)) (begin_ dt s)),
   fun dt _ s _ h j hj => port_stays (fun _ => rfl) h (portOf_portSwap_ne (fun he => hj (Fin.ext he.symm)) (begin_ dt s)),
   fun dt _ m1000 m100 master s _ h j hj hsib => port_stays (fun _ => rfl) h
    (portOf_portNegotiated_ne (fun he => hj (Fin.ext he.symm)) (begin_ dt s) m1000 m100 master (Ne.symm hsib))⟩

/-- Settles O54: what a command writes is the law on its meaning (`exec…_writes`). -/
theorem scheduleAndTimeFrames : Obligations.ScheduleAndTimeFrames :=
  ⟨fun dt entry transit => writes_of_exec fun S s => by apply execScheduledSend_writes <;> decide,
   fun dt passing => writes_of_exec fun S s => by apply execSporadicAbort_writes <;> decide,
   fun dt p f tRx => writes_of_exec fun S s => by apply execTrunkFrameForward_writes <;> decide,
   fun dt src f fin => writes_of_exec fun S s => by apply execFlowFrameRx_writes <;> decide,
   fun dt p f => writes_of_exec fun S s => by apply execSessionFrameRx_writes <;> decide,
   fun dt sid opener => writes_of_exec fun S s => by apply execSessionRetransmit_writes <;> decide,
   fun dt => writes_of_exec fun S s => by apply execTcxoStop_writes <;> decide,
   fun dt => writes_of_exec fun S s => by apply execTcxoRestart_writes <;> decide,
   fun dt port m => writes_of_exec fun S s => by apply execPtpSyncRx_writes <;> decide,
   fun dt port m => writes_of_exec fun S s => by apply execPtpAnnounceRx_writes <;> decide,
   fun dt inst kind => writes_of_exec fun S s => by apply execPtpMessageSend_writes <;> decide,
   fun dt inst announce => writes_of_exec fun S s => by apply execPtpSyncTimeout_writes <;> decide,
   fun dt => writes_of_exec fun S s => by apply execDomainReturnTimer_writes <;> decide,
   fun dt n at_ assert_ => writes_of_exec fun S s => by apply execTioPulseEdge_writes <;> decide,
   fun dt n at_ rising width => writes_of_exec fun S s => by apply execTioCaptureEdge_writes <;> decide,
   fun dt n src value => writes_of_exec fun S s => by apply execTioArm_writes <;> decide,
   fun dt n src value => writes_of_exec fun S s => by apply execTioStop_writes <;> decide,
   fun dt n src => writes_of_exec fun S s => by apply execTioCapRead_writes <;> decide,
   fun dt => writes_of_exec fun S s => by apply execHoldoverEntry_writes <;> decide,
   fun dt p domain origin tRx => writes_of_exec fun S s => by apply execTrunkDomainSyncRx_writes <;> decide,
   fun dt p transitBusy => writes_of_exec fun S s => by apply execNonScheduledSend_writes <;> decide,
   fun dt => writes_of_exec fun S s => by apply execPd0Stop_writes <;> decide⟩

/-- Settles O55: what a command writes is the law on its meaning (`exec…_writes`). -/
theorem twinAndLockstepFrames : Obligations.TwinAndLockstepFrames :=
  ⟨fun dt path h => writes_of_exec fun S s => by apply execHeartbeatRx_writes <;> decide,
   fun dt f => writes_of_exec fun S s => by apply execRackingFrameRx_writes <;> decide,
   fun dt => writes_of_exec fun S s => by apply execRegionStagingApply_writes <;> decide,
   fun dt page addr data => writes_of_exec fun S s => by apply execCopyOnWrite_writes <;> decide,
   fun dt l cycles => writes_of_exec fun S s => by apply execHoldBufferStall_writes <;> decide,
   fun dt l core addr => writes_of_exec fun S s => by apply execPairAccessFault_writes <;> decide,
   fun dt l => writes_of_exec fun S s => by apply execHandoverPoint_writes <;> decide,
   fun dt l => writes_of_exec fun S s => by apply execDebugAccess_writes <;> decide,
   fun dt l core value => writes_of_exec fun S s => by apply execPairReadyWrite_writes <;> decide,
   fun dt room => writes_of_exec fun S s => by apply execRackingFrameSend_writes <;> decide⟩

/-- Settles O56: what a command writes is the law on its meaning (`exec…_writes`); the other channels and the other segment stay
by the laws `…_cansBut` and `…_mvbsBut`. -/
theorem canAndMvbFrames : Obligations.CanAndMvbFrames :=
  ⟨fun dt c f own => writes_of_exec fun S s => by apply execCanFrameRx_writes <;> decide,
   fun dt c tdcv => writes_of_exec fun S s => by apply execCanTxComplete_writes <;> decide,
   fun dt c => writes_of_exec fun S s => by apply execCanArbitrationLost_writes <;> decide,
   fun dt c e => writes_of_exec fun S s => by apply execCanError_writes <;> decide,
   fun dt c occ => writes_of_exec fun S s => by apply execCanRecoveryComplete_writes <;> decide,
   fun dt c => writes_of_exec fun S s => by apply execCanIntegrationComplete_writes <;> decide,
   fun dt c => writes_of_exec fun S s => by apply execCanWakePattern_writes <;> decide,
   fun dt c src value busy => writes_of_exec fun S s => by apply execCanModeWrite_writes <;> decide,
   fun dt c m src value => writes_of_exec fun S s => by apply execCanTxrqWrite_writes <;> decide,
   fun dt c m src value => writes_of_exec fun S s => by apply execCanTxcanWrite_writes <;> decide,
   fun dt c src value => writes_of_exec fun S s => by apply execCanHpbRequest_writes <;> decide,
   fun dt c src value => writes_of_exec fun S s => by apply execCanHpbCancel_writes <;> decide,
   fun dt c src value => writes_of_exec fun S s => by apply execCanRecoverStart_writes <;> decide,
   fun dt c src value => writes_of_exec fun S s => by apply execCanFifoPop_writes <;> decide,
   fun dt c o src => writes_of_exec fun S s => by apply execCanObjectWord0Read_writes <;> decide,
   fun dt c o word src value => writes_of_exec fun S s => by apply execCanObjectWrite_writes <;> decide,
   fun dt c src cycle => writes_of_exec fun S s => by apply execCanTtCommitWrite_writes <;> decide,
   fun dt c count => writes_of_exec fun S s => by apply execCanReferenceRx_writes <;> decide,
   fun dt c => writes_of_exec fun S s => by apply execCanReferenceAbandon_writes <;> decide,
   fun dt c => writes_of_exec fun S s => by apply execCanSlaveRefTimeout_writes <;> decide,
   fun dt c col idle => writes_of_exec fun S s => by apply execCanHatchWindow_writes <;> decide,
   fun dt c col => writes_of_exec fun S s => by apply execCanHatchWindowEnd_writes <;> decide,
   fun dt g => writes_of_exec fun S s => by apply execMvbBasicPeriodStart_writes <;> decide,
   fun dt g => writes_of_exec fun S s => by apply execMvbMasterFrameSend_writes <;> decide,
   fun dt g => writes_of_exec fun S s => by apply execMvbNoReplyTimeout_writes <;> decide,
   fun dt g f => writes_of_exec fun S s => by apply execMvbMasterFrameRx_writes <;> decide,
   fun dt g f => writes_of_exec fun S s => by apply execMvbSlaveFrameRx_writes <;> decide,
   fun dt => writes_of_exec fun S s => by apply execReleaseDeadline_writes <;> decide,
   fun dt c f own s t hforeign h j hj => by
    have hforeign' : canForeign (canOf (begin_ dt s) c) f = false := by simpa using hforeign
    rw [exec_canFrameRx] at h
    rw [← Host.Outcome.next.inj h]
    exact (canReceive_cansBut c s f own (begin_ dt s) hforeign').mpr (by simp [CansBut]) j (fun he => hj (Fin.ext he)),
   fun _ _ _ => can_others (fun _ => rfl) (by simp),
   fun _ _ => can_others (fun _ => rfl) (by simp),
   fun _ _ _ => can_others (fun _ => rfl) (by simp),
   fun _ _ _ => can_others (fun _ => rfl) (by simp),
   fun _ _ => can_others (fun _ => rfl) (by simp),
   fun _ _ => can_others (fun _ => rfl) (by simp),
   fun _ _ _ _ _ => can_others (fun _ => rfl) (by simp),
   fun _ _ _ _ _ => can_others (fun _ => rfl) (by simp),
   fun _ _ _ _ _ => can_others (fun _ => rfl) (by simp),
   fun _ _ _ _ => can_others (fun _ => rfl) (by simp),
   fun _ _ _ _ => can_others (fun _ => rfl) (by simp),
   fun _ _ _ _ => can_others (fun _ => rfl) (by simp),
   fun _ _ _ _ => can_others (fun _ => rfl) (by simp),
   fun _ _ _ _ => can_others (fun _ => rfl) (by simp),
   fun _ _ _ _ _ _ => can_others (fun _ => rfl) (by simp),
   fun _ _ _ _ => can_others (fun _ => rfl) (by simp),
   fun _ _ _ => can_others (fun _ => rfl) (by simp),
   fun _ _ => can_others (fun _ => rfl) (by simp),
   fun _ _ => can_others (fun _ => rfl) (by simp),
   fun _ _ _ _ => can_others (fun _ => rfl) (by simp),
   fun _ _ _ => can_others (fun _ => rfl) (by simp),
   fun _ _ => mvb_others (fun _ => rfl) (by simp),
   fun _ _ => mvb_others (fun _ => rfl) (by simp),
   fun _ _ => mvb_others (fun _ => rfl) (by simp),
   fun _ _ _ => mvb_others (fun _ => rfl) (by simp),
   fun _ _ _ => mvb_others (fun _ => rfl) (by simp)⟩

/-- Settles O57: what a command writes is the law on its meaning (`exec…_writes`). -/
theorem switchFabricBridgeFrames : Obligations.SwitchFabricBridgeFrames :=
  ⟨fun dt f => writes_of_exec fun S s => by apply execConsistFrameRx_writes <;> decide,
   fun dt port queue => writes_of_exec fun S s => by apply execConsistFrameEgress_writes <;> decide,
   fun dt mac vid => writes_of_exec fun S s => by apply execAddressAgeing_writes <;> decide,
   fun dt handle => writes_of_exec fun S s => by apply execFrerResetTimer_writes <;> decide,
   fun dt port m => writes_of_exec fun S s => by apply execMkaPduRx_writes <;> decide,
   fun dt port => writes_of_exec fun S s => by apply execSakDistribute_writes <;> decide,
   fun dt port up speed t1Master => writes_of_exec fun S s => by apply execConsistLinkChange_writes <;> decide,
   fun dt k => writes_of_exec fun S s => by apply execFabricBeaconSend_writes <;> decide,
   fun dt k b => writes_of_exec fun S s => by apply execFabricBeaconRx_writes <;> decide,
   fun dt k => writes_of_exec fun S s => by apply execFabricAckTimeout_writes <;> decide,
   fun dt k => writes_of_exec fun S s => by apply execFabricLinkDown_writes <;> decide,
   fun dt k => writes_of_exec fun S s => by apply execFabricLinkUp_writes <;> decide,
   fun dt k lane errors => writes_of_exec fun S s => by apply execFabricLaneSwitch_writes <;> decide,
   fun dt k errors => writes_of_exec fun S s => by apply execSpareLaneGood_writes <;> decide,
   fun dt p r => writes_of_exec fun S s => by apply execFabricReportRx_writes <;> decide,
   fun dt => writes_of_exec fun S s => by apply execFabricTickSend_writes <;> decide,
   fun dt k t tRx residence => writes_of_exec fun S s => by apply execFabricTickRx_writes <;> decide,
   fun dt slot entry f => writes_of_exec fun S s => by apply execProxyFrameRx_writes <;> decide,
   fun dt slot flows => writes_of_exec fun S s => by apply execFabricSubscribeRx_writes <;> decide,
   fun dt p r => writes_of_exec fun S s => by apply execBridgeWithdrawRx_writes <;> decide,
   fun dt => writes_of_exec fun S s => by apply execBridgeFetchStale_writes <;> decide,
   fun dt => writes_of_exec fun S s => by apply execBridgeBusyRetry_writes <;> decide,
   fun dt src k => writes_of_exec fun S s => by apply execFabSemRead_writes <;> decide,
   fun dt src k value => writes_of_exec fun S s => by apply execFabSemWrite_writes <;> decide,
   fun dt k => writes_of_exec fun S s => by apply execSemTmoExpiry_writes <;> decide,
   fun dt src value => writes_of_exec fun S s => by apply execFabVecPendWrite_writes <;> decide⟩

/-- Settles O58: what a command writes is the law on its meaning (`exec…_writes`). -/
theorem powerAndRepairFrames : Obligations.PowerAndRepairFrames :=
  ⟨fun dt p => writes_of_exec fun S s => by apply execPowerGood_writes <;> decide,
   fun dt => writes_of_exec fun S s => by apply execStartRetry_writes <;> decide,
   fun dt => writes_of_exec fun S s => by apply execPerstAssert_writes <;> decide,
   fun dt => writes_of_exec fun S s => by apply execPerstRelease_writes <;> decide,
   fun dt => writes_of_exec fun S s => by apply execSupervisorFatalFault_writes <;> decide,
   fun dt vin => writes_of_exec fun S s => by apply execInputVoltageChange_writes <;> decide,
   fun dt vstore => writes_of_exec fun S s => by apply execStoreOkChange_writes <;> decide,
   fun dt vin vstore => writes_of_exec fun S s => by apply execLossDeclared_writes <;> decide,
   fun dt case die => writes_of_exec fun S s => by apply execThermalChange_writes <;> decide,
   fun dt d idle next => writes_of_exec fun S s => by apply execPowerDomainIdle_writes <;> decide,
   fun dt d => writes_of_exec fun S s => by apply execDomainWakeTimer_writes <;> decide,
   fun dt d due => writes_of_exec fun S s => by apply execAsyncDomainWake_writes <;> decide,
   fun dt src port => writes_of_exec fun S s => by apply execWakeSource_writes <;> decide,
   fun dt => writes_of_exec fun S s => by apply execWakeLLowTimeout_writes <;> decide,
   fun dt e => writes_of_exec fun S s => by apply execMemoryEccError_writes <;> decide,
   fun dt w => writes_of_exec fun S s => by apply execScrubSlice_writes <;> decide,
   fun dt bank => writes_of_exec fun S s => by apply execBankDrainComplete_writes <;> decide,
   fun dt => writes_of_exec fun S s => by apply execRotationStep_writes <;> decide,
   fun dt phys passed monitors => writes_of_exec fun S s => by apply execLogicSelfTestComplete_writes <;> decide,
   fun dt monitors => writes_of_exec fun S s => by apply execAgingMonitorRead_writes <;> decide,
   fun dt => writes_of_exec fun S s => by apply execJtagExtest_writes <;> decide⟩

/-- Settles O59: what a command writes is the law on its meaning (`exec…_writes`). -/
theorem hostAccessFrames : Obligations.HostAccessFrames :=
  ⟨fun dt src mbx => writes_of_exec fun S s => by apply execMbxLockRead_writes <;> decide,
   fun dt src mbx value => writes_of_exec fun S s => by apply execMbxLockWrite_writes <;> decide,
   fun dt src value => writes_of_exec fun S s => by apply execEvqRdWrite_writes <;> decide,
   fun dt => writes_of_exec fun S s => by apply execEvqHoldTimeout_writes <;> decide,
   fun dt src value => writes_of_exec fun S s => by apply execPdiReleaseHost_writes <;> decide,
   fun dt l value => writes_of_exec fun S s => by apply execPdiReleasePair_writes <;> decide,
   fun dt src value => writes_of_exec fun S s => by apply execPdiRelMaskWrite_writes <;> decide,
   fun dt src addr => writes_of_exec fun S s => by apply execMultiRegisterLatchRead_writes <;> decide,
   fun dt src addr => writes_of_exec fun S s => by apply execRcFieldRead_writes <;> decide,
   fun dt seq status => writes_of_exec fun S s => by apply execQueuedCommandComplete_writes <;> decide,
   fun dt => writes_of_exec fun S s => by apply execNextOpenSet_writes <;> decide⟩

/-- Settles O60: what a command writes is the law on its meaning (`exec…_writes`). -/
theorem mailboxCommandFrames : Obligations.MailboxCommandFrames :=
  ⟨fun dt r => writes_of_exec fun S s => by apply execSysIdentity_writes <;> decide,
   fun dt r => writes_of_exec fun S s => by apply execSysNop_writes <;> decide,
   fun dt r => writes_of_exec fun S s => by apply execSysReset_writes <;> decide,
   fun dt r => writes_of_exec fun S s => by apply execSysEventMask_writes <;> decide,
   fun dt r => writes_of_exec fun S s => by apply execSysPatchStage_writes <;> decide,
   fun dt r => writes_of_exec fun S s => by apply execSysPatchVerify_writes <;> decide,
   fun dt r => writes_of_exec fun S s => by apply execSysLogRead_writes <;> decide,
   fun dt r => writes_of_exec fun S s => by apply execSysProfileConfirm_writes <;> decide,
   fun dt r => writes_of_exec fun S s => by apply execSysDebugNonce_writes <;> decide,
   fun dt r => writes_of_exec fun S s => by apply execSysDebugUnlock_writes <;> decide,
   fun dt r => writes_of_exec fun S s => by apply execSysDebugRelock_writes <;> decide,
   fun dt r => writes_of_exec fun S s => by apply execTopoStatus_writes <;> decide,
   fun dt r => writes_of_exec fun S s => by apply execTopoDirectory_writes <;> decide,
   fun dt r => writes_of_exec fun S s => by apply execTopoPositionMap_writes <;> decide,
   fun dt r => writes_of_exec fun S s => by apply execTopoSetLeading_writes <;> decide,
   fun dt r => writes_of_exec fun S s => by apply execTopoSetIdentity_writes <;> decide,
   fun dt r => writes_of_exec fun S s => by apply execTopoColdStart_writes <;> decide,
   fun dt r => writes_of_exec fun S s => by apply execTrunkSetPolicy_writes <;> decide,
   fun dt r => writes_of_exec fun S s => by apply execTrunkStatus_writes <;> decide,
   fun dt r => writes_of_exec fun S s => by apply execTrunkBypassPassive_writes <;> decide,
   fun dt r => writes_of_exec fun S s => by apply execTrunkBypassActive_writes <;> decide,
   fun dt r => writes_of_exec fun S s => by apply execTrunkRetrain_writes <;> decide,
   fun dt r => writes_of_exec fun S s => by apply execSchedStatus_writes <;> decide,
   fun dt r => writes_of_exec fun S s => by apply execSchedStage_writes <;> decide,
   fun dt r => writes_of_exec fun S s => by apply execSchedVerify_writes <;> decide,
   fun dt r => writes_of_exec fun S s => by apply execSchedHold_writes <;> decide,
   fun dt r => writes_of_exec fun S s => by apply execSchedActivate_writes <;> decide,
   fun dt r => writes_of_exec fun S s => by apply execSchedRelease_writes <;> decide,
   fun dt r => writes_of_exec fun S s => by apply execSchedEntryStatus_writes <;> decide,
   fun dt r => writes_of_exec fun S s => by apply execTimeStatus_writes <;> decide,
   fun dt r => writes_of_exec fun S s => by apply execTimeSet_writes <;> decide,
   fun dt r => writes_of_exec fun S s => by apply execTimePtpConfig_writes <;> decide,
   fun dt r => writes_of_exec fun S s => by apply execTimeDomainPolicy_writes <;> decide,
   fun dt r => writes_of_exec fun S s => by apply execTimeSteer_writes <;> decide,
   fun dt r => writes_of_exec fun S s => by apply execTimePtpStatus_writes <;> decide,
   fun dt r => writes_of_exec fun S s => by apply execFlowSet_writes <;> decide,
   fun dt r => writes_of_exec fun S s => by apply execFlowGet_writes <;> decide,
   fun dt r => writes_of_exec fun S s => by apply execFlowStatus_writes <;> decide,
   fun dt r => writes_of_exec fun S s => by apply execFlowSave_writes <;> decide,
   fun dt r => writes_of_exec fun S s => by apply execFlowMacsecKey_writes <;> decide,
   fun dt r => writes_of_exec fun S s => by apply execSessionOpen_writes <;> decide,
   fun dt r => writes_of_exec fun S s => by apply execSessionSend_writes <;> decide,
   fun dt r => writes_of_exec fun S s => by apply execSessionRecv_writes <;> decide,
   fun dt r => writes_of_exec fun S s => by apply execSessionClose_writes <;> decide,
   fun dt r => writes_of_exec fun S s => by apply execTwinStatus_writes <;> decide,
   fun dt r => writes_of_exec fun S s => by apply execTwinConfig_writes <;> decide,
   fun dt r => writes_of_exec fun S s => by apply execTwinSwitchover_writes <;> decide,
   fun dt r => writes_of_exec fun S s => by apply execTwinServiceOut_writes <;> decide,
   fun dt r => writes_of_exec fun S s => by apply execTwinServiceReturn_writes <;> decide,
   fun dt r => writes_of_exec fun S s => by apply execTwinRenew_writes <;> decide,
   fun dt r => writes_of_exec fun S s => by apply execLskStatus_writes <;> decide,
   fun dt r => writes_of_exec fun S s => by apply execLskPairConfig_writes <;> decide,
   fun dt r => writes_of_exec fun S s => by apply execLskPairReset_writes <;> decide,
   fun dt r => writes_of_exec fun S s => by apply execLskSplit_writes <;> decide,
   fun dt r => writes_of_exec fun S s => by apply execLskRejoin_writes <;> decide,
   fun dt r => writes_of_exec fun S s => by apply execLskSubstitute_writes <;> decide,
   fun dt r => writes_of_exec fun S s => by apply execCanSave_writes <;> decide,
   fun dt r => writes_of_exec fun S s => by apply execCanLoad_writes <;> decide,
   fun dt r => writes_of_exec fun S s => by apply execMvbConfig_writes <;> decide,
   fun dt r => writes_of_exec fun S s => by apply execMvbPollStage_writes <;> decide,
   fun dt r => writes_of_exec fun S s => by apply execMvbPollCommit_writes <;> decide,
   fun dt r => writes_of_exec fun S s => by apply execMvbPortSet_writes <;> decide,
   fun dt r => writes_of_exec fun S s => by apply execMvbPortWrite_writes <;> decide,
   fun dt r => writes_of_exec fun S s => by apply execMvbPortRead_writes <;> decide,
   fun dt r => writes_of_exec fun S s => by apply execMvbStatus_writes <;> decide,
   fun dt r => writes_of_exec fun S s => by apply execSwcPortConfig_writes <;> decide,
   fun dt r => writes_of_exec fun S s => by apply execSwcPortStatus_writes <;> decide,
   fun dt r => writes_of_exec fun S s => by apply execSwcVlanSet_writes <;> decide,
   fun dt r => writes_of_exec fun S s => by apply execSwcStreamSet_writes <;> decide,
   fun dt r => writes_of_exec fun S s => by apply execSwcGclStage_writes <;> decide,
   fun dt r => writes_of_exec fun S s => by apply execSwcGclCommit_writes <;> decide,
   fun dt r => writes_of_exec fun S s => by apply execSwcMacsecKey_writes <;> decide,
   fun dt r => writes_of_exec fun S s => by apply execSwcStreamStatus_writes <;> decide,
   fun dt r => writes_of_exec fun S s => by apply execSwcSave_writes <;> decide,
   fun dt r => writes_of_exec fun S s => by apply execFabStatus_writes <;> decide,
   fun dt r => writes_of_exec fun S s => by apply execFabConfig_writes <;> decide,
   fun dt r => writes_of_exec fun S s => by apply execFabWindowSet_writes <;> decide,
   fun dt r => writes_of_exec fun S s => by apply execFabSlotTable_writes <;> decide,
   fun dt r => writes_of_exec fun S s => by apply execFabBridgeStatus_writes <;> decide,
   fun dt r => writes_of_exec fun S s => by apply execFabPwlog_writes <;> decide,
   fun dt r => writes_of_exec fun S s => by apply execFabSemRelease_writes <;> decide,
   fun dt r => writes_of_exec fun S s => by apply execPwrStatus_writes <;> decide,
   fun dt r => writes_of_exec fun S s => by apply execPwrDomainConfig_writes <;> decide,
   fun dt r => writes_of_exec fun S s => by apply execPwrPark_writes <;> decide,
   fun dt r => writes_of_exec fun S s => by apply execPwrParkWithdraw_writes <;> decide,
   fun dt r => writes_of_exec fun S s => by apply execPwrKiln_writes <;> decide,
   fun dt r => writes_of_exec fun S s => by apply execPwrKilnWithdraw_writes <;> decide,
   fun dt r => writes_of_exec fun S s => by apply execPwrWakeConfig_writes <;> decide,
   fun dt r => writes_of_exec fun S s => by apply execRepStatus_writes <;> decide,
   fun dt r => writes_of_exec fun S s => by apply execRepLog_writes <;> decide,
   fun dt r => writes_of_exec fun S s => by apply execRepTest_writes <;> decide,
   fun dt r => writes_of_exec fun S s => by apply execRepCalibrate_writes <;> decide,
   fun dt r => writes_of_exec fun S s => by apply execRepRotation_writes <;> decide,
   fun dt r => writes_of_exec fun S s => by apply execRecStatus_writes <;> decide,
   fun dt r => writes_of_exec fun S s => by apply execRecConfig_writes <;> decide,
   fun dt r => writes_of_exec fun S s => by apply execRecTrigger_writes <;> decide,
   fun dt r => writes_of_exec fun S s => by apply execRecCask_writes <;> decide,
   fun dt r => writes_of_exec fun S s => by apply execRecRelease_writes <;> decide,
   fun dt r => writes_of_exec fun S s => by apply execRecPage_writes <;> decide⟩
end

section
/-! PROOFS. A request from its ring to its answer (spec/12): how the machine carries it out (`exec_request`), the checks before the
command's own, what an error leaves, and what follows a reset. -/

namespace Sys2Proof.Machine

/-! ## Every answer has a status that its mailbox can show (R545) -/

/-- The status of an answer fits the 16 bits that a mailbox has for it (R545). -/
def Coded (x : Reply × State) : Prop := x.1.status < 0x10000

@[simp] theorem coded_done (rsp : List Byte) (s : State) : Coded (done rsp, s) := by simp [Coded, done]
@[simp] theorem coded_queued (arg : Nat) (s : State) : Coded (queued arg, s) := by simp [Coded, queued]
@[simp] theorem coded_fail (status detail : Nat) (s : State) : Coded (fail status detail, s) ↔ status < 0x10000 := Iff.rfl
@[simp] theorem coded_outOfRange (off : Nat) (s : State) : Coded (outOfRange off, s) := by simp [Coded, outOfRange, fail]
@[simp] theorem coded_outOfRangeAll (s : State) : Coded (outOfRangeAll, s) := by simp [Coded, outOfRangeAll, fail]
@[simp] theorem coded_notInState (code : Nat) (s : State) : Coded (notInState code, s) := by simp [Coded, notInState, fail]
@[simp] theorem coded_notInStateAll (s : State) : Coded (notInStateAll, s) := by simp [Coded, notInStateAll, fail]

@[simp] theorem coded_ite (c : Prop) [Decidable c] (x y : Reply × State) :
    Coded (if c then x else y) ↔ (c → Coded x) ∧ (¬c → Coded y) := by
  split <;> simp [*]

@[simp] theorem coded_mk (status detail arg : Nat) (rsp : List Byte) (s : State) :
    Coded ({ status := status, detail := detail, rsp := rsp, arg := arg }, s) ↔ status < 0x10000 := Iff.rfl

theorem entryBody_coded (k : Bool) (r : Ring) (s : State) : Coded (entryBody k r s) := by
  simp [entryBody]

theorem canLoadBody_coded (r : Ring) (s : State) : Coded (canLoadBody r s) := by
  unfold canLoadBody; (repeat' split) <;> simp

theorem canSaveBody_coded (r : Ring) (s : State) : Coded (canSaveBody r s) := by
  simp [canSaveBody]

theorem fabBridgeStatusBody_coded (r : Ring) (s : State) : Coded (fabBridgeStatusBody r s) := by
  simp [fabBridgeStatusBody]

theorem fabConfigBody_coded (r : Ring) (s : State) : Coded (fabConfigBody r s) := by
  simp [fabConfigBody]

theorem fabPwlogBody_coded (r : Ring) (s : State) : Coded (fabPwlogBody r s) := by
  simp [fabPwlogBody]

theorem fabSemReleaseBody_coded (r : Ring) (s : State) : Coded (fabSemReleaseBody r s) := by
  simp [fabSemReleaseBody]

theorem fabSlotTableBody_coded (r : Ring) (s : State) : Coded (fabSlotTableBody r s) := by
  simp [fabSlotTableBody]

theorem fabStatusBody_coded (r : Ring) (s : State) : Coded (fabStatusBody r s) := by
  simp [fabStatusBody]

theorem fabWindowSetBody_coded (r : Ring) (s : State) : Coded (fabWindowSetBody r s) := by
  simp [fabWindowSetBody]

theorem flowGetBody_coded (r : Ring) (s : State) : Coded (flowGetBody r s) := by
  simp [flowGetBody]

theorem flowMacsecKeyBody_coded (r : Ring) (s : State) : Coded (flowMacsecKeyBody r s) := by
  simp [flowMacsecKeyBody]

theorem flowSaveBody_coded (r : Ring) (s : State) : Coded (flowSaveBody r s) := by
  simp [flowSaveBody]

theorem flowSetBody_coded (r : Ring) (s : State) : Coded (flowSetBody r s) := by
  unfold flowSetBody; dsimp only; (repeat' split) <;> simp

theorem flowStatusBody_coded (r : Ring) (s : State) : Coded (flowStatusBody r s) := by
  simp [flowStatusBody]

theorem lskPairConfigBody_coded (r : Ring) (s : State) : Coded (lskPairConfigBody r s) := by
  unfold lskPairConfigBody; dsimp only; (repeat' split) <;> simp

theorem lskPairResetBody_coded (r : Ring) (s : State) : Coded (lskPairResetBody r s) := by
  simp [lskPairResetBody]

theorem lskRejoinBody_coded (r : Ring) (s : State) : Coded (lskRejoinBody r s) := by
  simp [lskRejoinBody]

theorem lskSplitBody_coded (r : Ring) (s : State) : Coded (lskSplitBody r s) := by
  simp [lskSplitBody]

theorem lskStatusBody_coded (r : Ring) (s : State) : Coded (lskStatusBody r s) := by
  simp [lskStatusBody]

theorem lskSubstituteBody_coded (r : Ring) (s : State) : Coded (lskSubstituteBody r s) := by
  simp [lskSubstituteBody]

theorem mvbCommitBody_coded (r : Ring) (s : State) : Coded (mvbCommitBody r s) := by
  unfold mvbCommitBody; dsimp only; (repeat' split) <;> simp [outOfRangeAll, fail]

theorem mvbConfigBody_coded (r : Ring) (s : State) : Coded (mvbConfigBody r s) := by
  simp [mvbConfigBody]

theorem mvbPortReadBody_coded (r : Ring) (s : State) : Coded (mvbPortReadBody r s) := by
  unfold mvbPortReadBody; dsimp only; (repeat' split) <;> simp

theorem mvbPortSetBody_coded (r : Ring) (s : State) : Coded (mvbPortSetBody r s) := by
  simp [mvbPortSetBody]

theorem mvbPortWriteBody_coded (r : Ring) (s : State) : Coded (mvbPortWriteBody r s) := by
  unfold mvbPortWriteBody; dsimp only; (repeat' split) <;> simp

theorem mvbStageBody_coded (r : Ring) (s : State) : Coded (mvbStageBody r s) := by
  simp [mvbStageBody]

theorem mvbStatusBody_coded (r : Ring) (s : State) : Coded (mvbStatusBody r s) := by
  simp [mvbStatusBody]

theorem pwrDomainConfigBody_coded (r : Ring) (s : State) : Coded (pwrDomainConfigBody r s) := by
  simp [pwrDomainConfigBody]

theorem pwrStatusBody_coded (r : Ring) (s : State) : Coded (pwrStatusBody r s) := by
  simp [pwrStatusBody]

theorem pwrWakeConfigBody_coded (r : Ring) (s : State) : Coded (pwrWakeConfigBody r s) := by
  simp [pwrWakeConfigBody]

theorem recCaskBody_coded (r : Ring) (s : State) : Coded (recCaskBody r s) := by
  unfold recCaskBody; dsimp only; (repeat' split) <;> simp

theorem recConfigBody_coded (r : Ring) (s : State) : Coded (recConfigBody r s) := by
  simp [recConfigBody]

theorem recPageBody_coded (r : Ring) (s : State) : Coded (recPageBody r s) := by
  simp [recPageBody]

theorem recReleaseBody_coded (r : Ring) (s : State) : Coded (recReleaseBody r s) := by
  simp [recReleaseBody]

theorem recStatusBody_coded (r : Ring) (s : State) : Coded (recStatusBody r s) := by
  simp [recStatusBody]

theorem recTriggerBody_coded (r : Ring) (s : State) : Coded (recTriggerBody r s) := by
  unfold recTriggerBody; dsimp only; (repeat' split) <;> simp

theorem repCalibrateBody_coded (r : Ring) (s : State) : Coded (repCalibrateBody r s) := by
  simp [repCalibrateBody]

theorem repLogBody_coded (r : Ring) (s : State) : Coded (repLogBody r s) := by
  simp [repLogBody]

theorem repRotationBody_coded (r : Ring) (s : State) : Coded (repRotationBody r s) := by
  simp [repRotationBody]

theorem repStatusBody_coded (r : Ring) (s : State) : Coded (repStatusBody r s) := by
  simp [repStatusBody]

theorem repTestBody_coded (r : Ring) (s : State) : Coded (repTestBody r s) := by
  simp [repTestBody]

theorem schedActivateBody_coded (r : Ring) (s : State) : Coded (schedActivateBody r s) := by
  unfold schedActivateBody; dsimp only; (repeat' split) <;> simp

/-- What it adds to an image that begins to run at once is no answer of its own. -/
theorem schedActivateFull_coded (r : Ring) (s : State) : Coded (schedActivateFull r s) := by
  unfold schedActivateFull; dsimp only; split <;> exact schedActivateBody_coded r s

theorem schedEntryStatusBody_coded (r : Ring) (s : State) : Coded (schedEntryStatusBody r s) := by
  unfold schedEntryStatusBody; dsimp only; (repeat' split) <;> simp

theorem schedHoldBody_coded (r : Ring) (s : State) : Coded (schedHoldBody r s) := by
  simp [schedHoldBody]

theorem schedReleaseBody_coded (r : Ring) (s : State) : Coded (schedReleaseBody r s) := by
  unfold schedReleaseBody; (repeat' split) <;> simp

theorem schedStageBody_coded (r : Ring) (s : State) : Coded (schedStageBody r s) := by
  simp [schedStageBody]

theorem schedStatusBody_coded (r : Ring) (s : State) : Coded (schedStatusBody r s) := by
  simp [schedStatusBody]

theorem schedVerifyBody_coded (r : Ring) (s : State) : Coded (schedVerifyBody r s) := by
  unfold schedVerifyBody; dsimp only; (repeat' split) <;> simp

theorem sessionCloseBody_coded (r : Ring) (s : State) : Coded (sessionCloseBody r s) := by
  unfold sessionCloseBody; (repeat' split) <;> simp

theorem sessionOpenBody_coded (r : Ring) (s : State) : Coded (sessionOpenBody r s) := by
  simp [sessionOpenBody]

theorem sessionRecvBody_coded (r : Ring) (s : State) : Coded (sessionRecvBody r s) := by
  unfold sessionRecvBody; dsimp only; (repeat' split) <;> simp

theorem sessionSendBody_coded (r : Ring) (s : State) : Coded (sessionSendBody r s) := by
  unfold sessionSendBody; dsimp only; (repeat' split) <;> simp

theorem swcGclCommitBody_coded (r : Ring) (s : State) : Coded (swcGclCommitBody r s) := by
  simp [swcGclCommitBody]

theorem swcGclStageBody_coded (r : Ring) (s : State) : Coded (swcGclStageBody r s) := by
  unfold swcGclStageBody; dsimp only; (repeat' split) <;> simp

theorem swcMacsecKeyBody_coded (r : Ring) (s : State) : Coded (swcMacsecKeyBody r s) := by
  simp [swcMacsecKeyBody]

theorem swcPortConfigBody_coded (r : Ring) (s : State) : Coded (swcPortConfigBody r s) := by
  simp [swcPortConfigBody]

theorem swcPortStatusBody_coded (r : Ring) (s : State) : Coded (swcPortStatusBody r s) := by
  simp [swcPortStatusBody]

theorem swcSaveBody_coded (r : Ring) (s : State) : Coded (swcSaveBody r s) := by
  simp [swcSaveBody]

theorem swcStreamSetBody_coded (r : Ring) (s : State) : Coded (swcStreamSetBody r s) := by
  simp [swcStreamSetBody]

theorem swcStreamStatusBody_coded (r : Ring) (s : State) : Coded (swcStreamStatusBody r s) := by
  simp [swcStreamStatusBody]

theorem swcVlanSetBody_coded (r : Ring) (s : State) : Coded (swcVlanSetBody r s) := by
  simp [swcVlanSetBody]

theorem debugUnlock_coded (req : List Byte) (s : State) : Coded (debugUnlock req s) := by
  unfold debugUnlock; dsimp only; (repeat' split) <;> simp

theorem sysDebugBody_coded (r : Ring) (s : State) : Coded (sysDebugBody r s) := by
  unfold sysDebugBody; dsimp only; (repeat' split) <;> simp [debugNonce, debugUnlock_coded]

theorem sysEventMaskBody_coded (r : Ring) (s : State) : Coded (sysEventMaskBody r s) := by
  simp [sysEventMaskBody]

theorem sysIdentityBody_coded (r : Ring) (s : State) : Coded (sysIdentityBody r s) := by
  simp [sysIdentityBody]

theorem sysLogReadBody_coded (r : Ring) (s : State) : Coded (sysLogReadBody r s) := by
  simp [sysLogReadBody]

theorem sysNopBody_coded (r : Ring) (s : State) : Coded (sysNopBody r s) := by
  simp [sysNopBody]

theorem sysPatchStageBody_coded (r : Ring) (s : State) : Coded (sysPatchStageBody r s) := by
  simp [sysPatchStageBody]

theorem sysPatchVerifyBody_coded (r : Ring) (s : State) : Coded (sysPatchVerifyBody r s) := by
  unfold sysPatchVerifyBody; (repeat' split) <;> simp

theorem sysProfileConfirmBody_coded (r : Ring) (s : State) : Coded (sysProfileConfirmBody r s) := by
  simp [sysProfileConfirmBody]

theorem sysResetBody_coded (r : Ring) (s : State) : Coded (sysResetBody r s) := by
  simp [sysResetBody]

theorem timeDomainPolicyBody_coded (r : Ring) (s : State) : Coded (timeDomainPolicyBody r s) := by
  simp [timeDomainPolicyBody]

theorem timePtpConfigBody_coded (r : Ring) (s : State) : Coded (timePtpConfigBody r s) := by
  simp [timePtpConfigBody]

theorem timePtpStatusBody_coded (r : Ring) (s : State) : Coded (timePtpStatusBody r s) := by
  simp [timePtpStatusBody]

theorem timeSetBody_coded (r : Ring) (s : State) : Coded (timeSetBody r s) := by
  simp [timeSetBody]

theorem timeStatusBody_coded (r : Ring) (s : State) : Coded (timeStatusBody r s) := by
  simp [timeStatusBody]

theorem timeSteerBody_coded (r : Ring) (s : State) : Coded (timeSteerBody r s) := by
  simp [timeSteerBody]

theorem topoColdStartBody_coded (r : Ring) (s : State) : Coded (topoColdStartBody r s) := by
  simp [topoColdStartBody]

theorem topoDirectoryBody_coded (r : Ring) (s : State) : Coded (topoDirectoryBody r s) := by
  unfold topoDirectoryBody; dsimp only; (repeat' split) <;> simp

theorem topoPositionMapBody_coded (r : Ring) (s : State) : Coded (topoPositionMapBody r s) := by
  simp [topoPositionMapBody]

theorem topoSetIdentityBody_coded (r : Ring) (s : State) : Coded (topoSetIdentityBody r s) := by
  simp [topoSetIdentityBody]

theorem topoSetLeadingBody_coded (r : Ring) (s : State) : Coded (topoSetLeadingBody r s) := by
  simp [topoSetLeadingBody]

theorem topoStatusBody_coded (r : Ring) (s : State) : Coded (topoStatusBody r s) := by
  simp [topoStatusBody]

theorem trunkBypassBody_coded (r : Ring) (s : State) : Coded (trunkBypassBody r s) := by
  unfold trunkBypassBody; dsimp only; (repeat' split) <;> simp

theorem trunkRetrainBody_coded (r : Ring) (s : State) : Coded (trunkRetrainBody r s) := by
  simp [trunkRetrainBody]

theorem trunkSetPolicyBody_coded (r : Ring) (s : State) : Coded (trunkSetPolicyBody r s) := by
  simp [trunkSetPolicyBody]

theorem trunkStatusBody_coded (r : Ring) (s : State) : Coded (trunkStatusBody r s) := by
  simp [trunkStatusBody]

theorem twinConfigBody_coded (r : Ring) (s : State) : Coded (twinConfigBody r s) := by
  simp [twinConfigBody]

theorem twinRenewBody_coded (r : Ring) (s : State) : Coded (twinRenewBody r s) := by
  simp [twinRenewBody]

theorem twinServiceBody_coded (r : Ring) (s : State) : Coded (twinServiceBody r s) := by
  simp [twinServiceBody]

theorem twinStatusBody_coded (r : Ring) (s : State) : Coded (twinStatusBody r s) := by
  simp [twinStatusBody]

theorem twinSwitchoverBody_coded (r : Ring) (s : State) : Coded (twinSwitchoverBody r s) := by
  simp [twinSwitchoverBody]

/-! ## A ring that is not taken, and one that is -/

section
variable {sp : CmdSpec} {body : Ring → State → Reply × State} {dt : Nat} {r : Ring} {s : State}

/-- The node takes the ring (R546–R550, R607): `Rings` but for START_READY, which a command is held to after it is taken. -/
structure TakesRing (r : Ring) (dt : Nat) (s : State) : Prop where
  sound : Sound s
  may : mayRing r.src (begin_ dt s) = true
  idle : (mbxOf s r.mbx).ring = false
  noReset : s.sys.resetPending = none
  lock : lockAllows r.mbx r.src s = true

/-- Writing the request leaves the lock of its mailbox as it was (R548, R549). -/
theorem lockAllows_loadRequest (hs : Sound s) (op : Nat) :
    lockAllows r.mbx r.src (loadRequest op r (begin_ dt s)) = lockAllows r.mbx r.src s := by
  have hmem : r.mbx.val < (begin_ dt s).cmd.mbx.length := hs.mbx.symm ▸ r.mbx.isLt
  unfold lockAllows
  rw [loadRequest, mbxOf_modMbx_self _ _ _ hmem]
  rfl

theorem submit_closed (h : mayRing r.src (begin_ dt s) = false) : submit sp body dt r s = begin_ dt s := by
  simp [submit, h]

theorem submitLater_closed (h : mayRing r.src (begin_ dt s) = false) : submitLater sp body dt r s = begin_ dt s := by
  simp [submitLater, h]

theorem submit_busy (h : mayRing r.src (begin_ dt s) = true) (hring : (mbxOf s r.mbx).ring = true) :
    submit sp body dt r s = refuseRing r.mbx (begin_ dt s) := by
  have hring' : (mbxOf (begin_ dt s) r.mbx).ring = true := hring
  simp [submit, h, hring']

theorem submitLater_busy (h : mayRing r.src (begin_ dt s) = true) (hring : (mbxOf s r.mbx).ring = true) :
    submitLater sp body dt r s = refuseRing r.mbx (begin_ dt s) := by
  have hring' : (mbxOf (begin_ dt s) r.mbx).ring = true := hring
  simp [submitLater, h, hring']

theorem submit_locked (hs : Sound s) (h : mayRing r.src (begin_ dt s) = true) (hlock : lockAllows r.mbx r.src s = false)
    (hidle : (mbxOf s r.mbx).ring = false) (hnoReset : s.sys.resetPending = none) :
    submit sp body dt r s = refuseRing r.mbx (loadRequest sp.opcode r (begin_ dt s)) := by
  have hidle' : (mbxOf (begin_ dt s) r.mbx).ring = false := hidle
  simp [submit, h, hidle', hnoReset, lockAllows_loadRequest hs, hlock]

theorem submitLater_locked (hs : Sound s) (h : mayRing r.src (begin_ dt s) = true)
    (hlock : lockAllows r.mbx r.src s = false) (hidle : (mbxOf s r.mbx).ring = false)
    (hnoReset : s.sys.resetPending = none) :
    submitLater sp body dt r s = refuseRing r.mbx (loadRequest sp.opcode r (begin_ dt s)) := by
  have hidle' : (mbxOf (begin_ dt s) r.mbx).ring = false := hidle
  simp [submitLater, h, hidle', hnoReset, lockAllows_loadRequest hs, hlock]

theorem submit_taken (h : TakesRing r dt s) : submit sp body dt r s = runAccepted sp body r (taken sp.opcode dt r s) := by
  have hidle' : (mbxOf (begin_ dt s) r.mbx).ring = false := h.idle
  simp [submit, h.may, hidle', h.noReset, lockAllows_loadRequest h.sound, h.lock, taken]

theorem submitLater_taken (h : TakesRing r dt s) :
    submitLater sp body dt r s = runLater sp body r (taken sp.opcode dt r s) := by
  have hidle' : (mbxOf (begin_ dt s) r.mbx).ring = false := h.idle
  simp [submitLater, h.may, hidle', h.noReset, lockAllows_loadRequest h.sound, h.lock, taken]

/-! ## What the checks answer (R555), and what an error leaves (R556) -/

theorem checkRequest_remote (h : (sp.noRemote && isRemote r.src) = true) :
    checkRequest sp r.src r.req = some (fail 0x0105 0) := by
  simp only [checkRequest, h, if_true]

theorem checkRequest_length (hremote : (sp.noRemote && isRemote r.src) = false) (h : lengthOk sp r.req = false) :
    checkRequest sp r.src r.req = some (fail 0x0101 sp.minLen) := by
  simp [checkRequest, hremote, h]

theorem checkRequest_reserved {off : Nat} (hremote : (sp.noRemote && isRemote r.src) = false)
    (hlength : lengthOk sp r.req = true) (h : reservedSet sp.resv r.req = some off) :
    checkRequest sp r.src r.req = some (outOfRange off) := by
  simp [checkRequest, hremote, hlength, h]

/-- Every failure of these checks is an error. -/
theorem checkRequest_error {rp : Reply} (h : checkRequest sp r.src r.req = some rp) : 0x0100 ≤ rp.status := by
  unfold checkRequest at h
  split at h
  · cases h; decide
  · split at h
    · cases h; simp [fail]
    · split at h <;> cases h
      simp [outOfRange, fail]

theorem checkRequest_coded {rp : Reply} (h : checkRequest sp r.src r.req = some rp) (u : State) : Coded (rp, u) := by
  unfold checkRequest at h
  split at h
  · cases h; simp
  · split at h
    · cases h; simp
    · split at h <;> cases h
      simp

theorem answer_check {rp : Reply} {u : State} (h : checkRequest sp r.src r.req = some rp) :
    answer sp body r u = (rp, nonceSpent sp u) := by
  simp [answer, h]

/-- R608: the state check. -/
theorem answer_unready {u : State} (h : checkRequest sp r.src r.req = none) (hready : u.sys.ready = false)
    (hstart : startAllowed sp.opcode = false) : answer sp body r u = (notInState u.sys.step, u) := by
  simp [answer, h, hready, hstart]

/-- A state that differs from `u` in the nonce of a debug unlock at most (R621). -/
def ButNonce (sp : CmdSpec) (u v : State) : Prop :=
  v = u ∨ sp.opcode = 0x0111 ∧ ∃ n, v = modSys (fun y => { y with nonce := n }) u

theorem butNonce_nonceSpent (u : State) : ButNonce sp u (nonceSpent sp u) := by
  unfold nonceSpent
  split
  · exact .inr ⟨‹_›, none, rfl⟩
  · exact .inl rfl

theorem butNonce_afterError (u x : State) : ButNonce sp u (afterError sp u x) := by
  unfold afterError
  split
  · exact .inr ⟨‹_›, _, rfl⟩
  · exact .inl rfl

theorem ButNonce.mbx {u v : State} (h : ButNonce sp u v) : v.cmd.mbx = u.cmd.mbx := by
  obtain rfl | ⟨-, n, rfl⟩ := h <;> rfl

theorem ButNonce.resetPending {u v : State} (h : ButNonce sp u v) : v.sys.resetPending = u.sys.resetPending := by
  obtain rfl | ⟨-, n, rfl⟩ := h <;> rfl

theorem ButNonce.eq {u v : State} (h : ButNonce sp u v) (hop : sp.opcode ≠ 0x0111) : v = u := by
  obtain rfl | ⟨hop', -⟩ := h
  · rfl
  · exact absurd hop' hop

theorem ButNonce.nonce_none {u v : State} (h : ButNonce sp u v) :
    modSys (fun y => { y with nonce := none }) v = modSys (fun y => { y with nonce := none }) u := by
  obtain rfl | ⟨-, n, rfl⟩ := h <;> rfl

/-- R556, R559: an answer that is an error has no effect, and one QUEUED finds room. -/
theorem settle_cases (u : State) (x : Reply × State) :
    0x0100 ≤ (settle sp r u x).1.status ∧ ButNonce sp u (settle sp r u x).2 ∨
    (settle sp r u x).1 = x.1 ∧ x.1.status < 0x0100 ∧ (x.1.status = 1 → u.cmd.queued.length < 32) := by
  unfold settle
  split
  · exact .inl ⟨‹_›, butNonce_afterError u x.2⟩
  next herr =>
    have hlt : x.1.status < 0x0100 := by omega
    split
    · split
      · exact .inl ⟨by simp [fail], .inl rfl⟩
      · exact .inr ⟨rfl, hlt, fun _ => by omega⟩
    next hqueued =>
      have hroom : x.1.status = 1 → u.cmd.queued.length < 32 := fun h => absurd h hqueued
      split
      · split
        · exact .inl ⟨by simp [fail], .inl rfl⟩
        · exact .inr ⟨rfl, hlt, hroom⟩
      · exact .inr ⟨rfl, hlt, hroom⟩

/-- R556, R559, R621: `settle_cases`, the checks before it counted in. -/
theorem answer_cases (u : State) :
    0x0100 ≤ (answer sp body r u).1.status ∧ ButNonce sp u (answer sp body r u).2 ∨
    (answer sp body r u).1.status < 0x0100 ∧ ((answer sp body r u).1.status = 1 → u.cmd.queued.length < 32) := by
  unfold answer
  split
  next rp h => exact .inl ⟨checkRequest_error h, butNonce_nonceSpent u⟩
  · split
    · exact .inl ⟨by simp [notInState, fail], .inl rfl⟩
    · obtain h | ⟨heq, hlt, hroom⟩ := settle_cases (sp := sp) (r := r) u (body r u)
      · exact .inl h
      · exact .inr (heq ▸ ⟨hlt, hroom⟩)

theorem settle_coded (u : State) {x : Reply × State} (h : Coded x) : Coded (settle sp r u x) := by
  unfold settle
  split
  · exact h
  · split
    · split
      · simp
      · exact h
    · split
      · split
        · simp
        · exact h
      · exact h

theorem answer_coded (hbody : ∀ r s, Coded (body r s)) (u : State) : Coded (answer sp body r u) := by
  unfold answer
  split
  next rp h => exact checkRequest_coded h _
  · split
    · simp
    · exact settle_coded u (hbody r u)

/-! ## A command that completes at once -/

/-- R553, R556: a command that completes with an error. -/
theorem runAccepted_error (hs : Sound s)
    (hstate : ButNonce sp (taken sp.opcode dt r s) (answer sp body r (taken sp.opcode dt r s)).2) :
    Answered r (answer sp body r (taken sp.opcode dt r s)).1.status (answer sp body r (taken sp.opcode dt r s)).1.detail
      (answer sp body r (taken sp.opcode dt r s)).1.rsp (taken sp.opcode dt r s)
      (runAccepted sp body r (taken sp.opcode dt r s)) ∧
    OthersSame r s (runAccepted sp body r (taken sp.opcode dt r s)) ∧
    rest (runAccepted sp body r (taken sp.opcode dt r s)) = rest (answer sp body r (taken sp.opcode dt r s)).2 :=
  completed_runs hs hstate.mbx

/-- A command that completes later (R553) completes at once with an error. -/
theorem runLater_error {u : State} (herr : 0x0100 ≤ (answer sp body r u).1.status) :
    runLater sp body r u = runAccepted sp body r u := by
  have h0 : (answer sp body r u).1.status ≠ 0 := by omega
  simp [runLater, runAccepted, h0]

end

/-! ## How a request is carried out -/

/-- The machine runs a request through its chapter's part: at once, or for LSK_PAIR_RESET to a later completion, or for
SYS_RESET with what follows a reset (R553, R575). -/
theorem exec_request {i : Instr} {sp : CmdSpec} {dt : Nat} {r : Ring} (h : requestOf i = some (sp, dt, r)) :
    (∃ body, (∀ r s, Coded (body r s)) ∧ ∀ s, exec i s = .next (submit sp body dt r s)) ∨
    (sp = lskPairResetSpec ∧ ∀ s, exec i s = .next (submitLater sp lskPairResetBody dt r s)) ∨
    (sp = sysResetSpec ∧ ∀ s, exec i s = .next (thenReset s (submit sp sysResetBody dt r s))) := by
  cases i with
  | lskPairReset dt' r' => cases h; exact .inr (.inl ⟨rfl, fun _ => rfl⟩)
  | sysReset dt' r' => cases h; exact .inr (.inr ⟨rfl, fun _ => rfl⟩)
  | sysIdentity => cases h; exact .inl ⟨_, sysIdentityBody_coded, fun _ => rfl⟩
  | sysNop => cases h; exact .inl ⟨_, sysNopBody_coded, fun _ => rfl⟩
  | sysEventMask => cases h; exact .inl ⟨_, sysEventMaskBody_coded, fun _ => rfl⟩
  | sysPatchStage => cases h; exact .inl ⟨_, sysPatchStageBody_coded, fun _ => rfl⟩
  | sysPatchVerify => cases h; exact .inl ⟨_, sysPatchVerifyBody_coded, fun _ => rfl⟩
  | sysLogRead => cases h; exact .inl ⟨_, sysLogReadBody_coded, fun _ => rfl⟩
  | sysProfileConfirm => cases h; exact .inl ⟨_, sysProfileConfirmBody_coded, fun _ => rfl⟩
  | sysDebugNonce => cases h; exact .inl ⟨_, sysDebugBody_coded, fun _ => rfl⟩
  | sysDebugUnlock => cases h; exact .inl ⟨_, sysDebugBody_coded, fun _ => rfl⟩
  | sysDebugRelock => cases h; exact .inl ⟨_, sysDebugBody_coded, fun _ => rfl⟩
  | topoStatus => cases h; exact .inl ⟨_, topoStatusBody_coded, fun _ => rfl⟩
  | topoDirectory => cases h; exact .inl ⟨_, topoDirectoryBody_coded, fun _ => rfl⟩
  | topoPositionMap => cases h; exact .inl ⟨_, topoPositionMapBody_coded, fun _ => rfl⟩
  | topoSetLeading => cases h; exact .inl ⟨_, topoSetLeadingBody_coded, fun _ => rfl⟩
  | topoSetIdentity => cases h; exact .inl ⟨_, topoSetIdentityBody_coded, fun _ => rfl⟩
  | topoColdStart => cases h; exact .inl ⟨_, topoColdStartBody_coded, fun _ => rfl⟩
  | trunkSetPolicy => cases h; exact .inl ⟨_, trunkSetPolicyBody_coded, fun _ => rfl⟩
  | trunkStatus => cases h; exact .inl ⟨_, trunkStatusBody_coded, fun _ => rfl⟩
  | trunkBypassPassive => cases h; exact .inl ⟨_, trunkBypassBody_coded, fun _ => rfl⟩
  | trunkBypassActive => cases h; exact .inl ⟨_, trunkBypassBody_coded, fun _ => rfl⟩
  | trunkRetrain => cases h; exact .inl ⟨_, trunkRetrainBody_coded, fun _ => rfl⟩
  | schedStatus => cases h; exact .inl ⟨_, schedStatusBody_coded, fun _ => rfl⟩
  | schedStage => cases h; exact .inl ⟨_, schedStageBody_coded, fun _ => rfl⟩
  | schedVerify => cases h; exact .inl ⟨_, schedVerifyBody_coded, fun _ => rfl⟩
  | schedHold => cases h; exact .inl ⟨_, schedHoldBody_coded, fun _ => rfl⟩
  | schedActivate => cases h; exact .inl ⟨_, schedActivateFull_coded, fun _ => rfl⟩
  | schedRelease => cases h; exact .inl ⟨_, schedReleaseBody_coded, fun _ => rfl⟩
  | schedEntryStatus => cases h; exact .inl ⟨_, schedEntryStatusBody_coded, fun _ => rfl⟩
  | timeStatus => cases h; exact .inl ⟨_, timeStatusBody_coded, fun _ => rfl⟩
  | timeSet => cases h; exact .inl ⟨_, timeSetBody_coded, fun _ => rfl⟩
  | timePtpConfig => cases h; exact .inl ⟨_, timePtpConfigBody_coded, fun _ => rfl⟩
  | timeDomainPolicy => cases h; exact .inl ⟨_, timeDomainPolicyBody_coded, fun _ => rfl⟩
  | timeSteer => cases h; exact .inl ⟨_, timeSteerBody_coded, fun _ => rfl⟩
  | timePtpStatus => cases h; exact .inl ⟨_, timePtpStatusBody_coded, fun _ => rfl⟩
  | flowSet => cases h; exact .inl ⟨_, flowSetBody_coded, fun _ => rfl⟩
  | flowGet => cases h; exact .inl ⟨_, flowGetBody_coded, fun _ => rfl⟩
  | flowStatus => cases h; exact .inl ⟨_, flowStatusBody_coded, fun _ => rfl⟩
  | flowSave => cases h; exact .inl ⟨_, flowSaveBody_coded, fun _ => rfl⟩
  | flowMacsecKey => cases h; exact .inl ⟨_, flowMacsecKeyBody_coded, fun _ => rfl⟩
  | sessionOpen => cases h; exact .inl ⟨_, sessionOpenBody_coded, fun _ => rfl⟩
  | sessionSend => cases h; exact .inl ⟨_, sessionSendBody_coded, fun _ => rfl⟩
  | sessionRecv => cases h; exact .inl ⟨_, sessionRecvBody_coded, fun _ => rfl⟩
  | sessionClose => cases h; exact .inl ⟨_, sessionCloseBody_coded, fun _ => rfl⟩
  | twinStatus => cases h; exact .inl ⟨_, twinStatusBody_coded, fun _ => rfl⟩
  | twinConfig => cases h; exact .inl ⟨_, twinConfigBody_coded, fun _ => rfl⟩
  | twinSwitchover => cases h; exact .inl ⟨_, twinSwitchoverBody_coded, fun _ => rfl⟩
  | twinServiceOut => cases h; exact .inl ⟨_, twinServiceBody_coded, fun _ => rfl⟩
  | twinServiceReturn => cases h; exact .inl ⟨_, twinServiceBody_coded, fun _ => rfl⟩
  | twinRenew => cases h; exact .inl ⟨_, twinRenewBody_coded, fun _ => rfl⟩
  | lskStatus => cases h; exact .inl ⟨_, lskStatusBody_coded, fun _ => rfl⟩
  | lskPairConfig => cases h; exact .inl ⟨_, lskPairConfigBody_coded, fun _ => rfl⟩
  | lskSplit => cases h; exact .inl ⟨_, lskSplitBody_coded, fun _ => rfl⟩
  | lskRejoin => cases h; exact .inl ⟨_, lskRejoinBody_coded, fun _ => rfl⟩
  | lskSubstitute => cases h; exact .inl ⟨_, lskSubstituteBody_coded, fun _ => rfl⟩
  | canSave => cases h; exact .inl ⟨_, canSaveBody_coded, fun _ => rfl⟩
  | canLoad => cases h; exact .inl ⟨_, canLoadBody_coded, fun _ => rfl⟩
  | mvbConfig => cases h; exact .inl ⟨_, mvbConfigBody_coded, fun _ => rfl⟩
  | mvbPollStage => cases h; exact .inl ⟨_, mvbStageBody_coded, fun _ => rfl⟩
  | mvbPollCommit => cases h; exact .inl ⟨_, mvbCommitBody_coded, fun _ => rfl⟩
  | mvbPortSet => cases h; exact .inl ⟨_, mvbPortSetBody_coded, fun _ => rfl⟩
  | mvbPortWrite => cases h; exact .inl ⟨_, mvbPortWriteBody_coded, fun _ => rfl⟩
  | mvbPortRead => cases h; exact .inl ⟨_, mvbPortReadBody_coded, fun _ => rfl⟩
  | mvbStatus => cases h; exact .inl ⟨_, mvbStatusBody_coded, fun _ => rfl⟩
  | swcPortConfig => cases h; exact .inl ⟨_, swcPortConfigBody_coded, fun _ => rfl⟩
  | swcPortStatus => cases h; exact .inl ⟨_, swcPortStatusBody_coded, fun _ => rfl⟩
  | swcVlanSet => cases h; exact .inl ⟨_, swcVlanSetBody_coded, fun _ => rfl⟩
  | swcStreamSet => cases h; exact .inl ⟨_, swcStreamSetBody_coded, fun _ => rfl⟩
  | swcGclStage => cases h; exact .inl ⟨_, swcGclStageBody_coded, fun _ => rfl⟩
  | swcGclCommit => cases h; exact .inl ⟨_, swcGclCommitBody_coded, fun _ => rfl⟩
  | swcMacsecKey => cases h; exact .inl ⟨_, swcMacsecKeyBody_coded, fun _ => rfl⟩
  | swcStreamStatus => cases h; exact .inl ⟨_, swcStreamStatusBody_coded, fun _ => rfl⟩
  | swcSave => cases h; exact .inl ⟨_, swcSaveBody_coded, fun _ => rfl⟩
  | fabStatus => cases h; exact .inl ⟨_, fabStatusBody_coded, fun _ => rfl⟩
  | fabConfig => cases h; exact .inl ⟨_, fabConfigBody_coded, fun _ => rfl⟩
  | fabWindowSet => cases h; exact .inl ⟨_, fabWindowSetBody_coded, fun _ => rfl⟩
  | fabSlotTable => cases h; exact .inl ⟨_, fabSlotTableBody_coded, fun _ => rfl⟩
  | fabBridgeStatus => cases h; exact .inl ⟨_, fabBridgeStatusBody_coded, fun _ => rfl⟩
  | fabPwlog => cases h; exact .inl ⟨_, fabPwlogBody_coded, fun _ => rfl⟩
  | fabSemRelease => cases h; exact .inl ⟨_, fabSemReleaseBody_coded, fun _ => rfl⟩
  | pwrStatus => cases h; exact .inl ⟨_, pwrStatusBody_coded, fun _ => rfl⟩
  | pwrDomainConfig => cases h; exact .inl ⟨_, pwrDomainConfigBody_coded, fun _ => rfl⟩
  | pwrPark => cases h; exact .inl ⟨_, entryBody_coded false, fun _ => rfl⟩
  | pwrParkWithdraw => cases h; exact .inl ⟨_, entryBody_coded false, fun _ => rfl⟩
  | pwrKiln => cases h; exact .inl ⟨_, entryBody_coded true, fun _ => rfl⟩
  | pwrKilnWithdraw => cases h; exact .inl ⟨_, entryBody_coded true, fun _ => rfl⟩
  | pwrWakeConfig => cases h; exact .inl ⟨_, pwrWakeConfigBody_coded, fun _ => rfl⟩
  | repStatus => cases h; exact .inl ⟨_, repStatusBody_coded, fun _ => rfl⟩
  | repLog => cases h; exact .inl ⟨_, repLogBody_coded, fun _ => rfl⟩
  | repTest => cases h; exact .inl ⟨_, repTestBody_coded, fun _ => rfl⟩
  | repCalibrate => cases h; exact .inl ⟨_, repCalibrateBody_coded, fun _ => rfl⟩
  | repRotation => cases h; exact .inl ⟨_, repRotationBody_coded, fun _ => rfl⟩
  | recStatus => cases h; exact .inl ⟨_, recStatusBody_coded, fun _ => rfl⟩
  | recConfig => cases h; exact .inl ⟨_, recConfigBody_coded, fun _ => rfl⟩
  | recTrigger => cases h; exact .inl ⟨_, recTriggerBody_coded, fun _ => rfl⟩
  | recCask => cases h; exact .inl ⟨_, recCaskBody_coded, fun _ => rfl⟩
  | recRelease => cases h; exact .inl ⟨_, recReleaseBody_coded, fun _ => rfl⟩
  | recPage => cases h; exact .inl ⟨_, recPageBody_coded, fun _ => rfl⟩
  | _ => cases h

theorem thenReset_of_same {s t : State} (h : t.sys.resetPending = s.sys.resetPending) : thenReset s t = t := by
  simp [thenReset, h]

theorem refuseRing_sys (n : Nat) (s : State) : (refuseRing n s).sys = s.sys := rfl

/-- R582, R607: while the interface does not reach the mailboxes. -/
theorem exec_request_closed {i : Instr} {sp : CmdSpec} {dt : Nat} {r : Ring} {s : State}
    (h : requestOf i = some (sp, dt, r)) (hmay : mayRing r.src (begin_ dt s) = false) : exec i s = .next (begin_ dt s) := by
  obtain ⟨body, -, he⟩ | ⟨-, he⟩ | ⟨-, he⟩ := exec_request h
  · rw [he, submit_closed hmay]
  · rw [he, submitLater_closed hmay]
  · rw [he, submit_closed hmay, thenReset_of_same]; rfl

/-- R550. -/
theorem exec_request_busy {i : Instr} {sp : CmdSpec} {dt : Nat} {r : Ring} {s : State}
    (h : requestOf i = some (sp, dt, r)) (hmay : mayRing r.src (begin_ dt s) = true) (hring : (mbxOf s r.mbx).ring = true) :
    exec i s = .next (refuseRing r.mbx (begin_ dt s)) := by
  obtain ⟨body, -, he⟩ | ⟨-, he⟩ | ⟨-, he⟩ := exec_request h
  · rw [he, submit_busy hmay hring]
  · rw [he, submitLater_busy hmay hring]
  · rw [he, submit_busy hmay hring, thenReset_of_same]; rfl

/-- R548, R550: the request stands in the mailbox all the same (log 7). -/
theorem exec_request_locked {i : Instr} {sp : CmdSpec} {dt : Nat} {r : Ring} {s : State}
    (h : requestOf i = some (sp, dt, r)) (hs : Sound s) (hmay : mayRing r.src (begin_ dt s) = true)
    (hlock : lockAllows r.mbx r.src s = false) (hidle : (mbxOf s r.mbx).ring = false)
    (hnoReset : s.sys.resetPending = none) :
    exec i s = .next (refuseRing r.mbx (loadRequest sp.opcode r (begin_ dt s))) := by
  obtain ⟨body, -, he⟩ | ⟨-, he⟩ | ⟨-, he⟩ := exec_request h
  · rw [he, submit_locked hs hmay hlock hidle hnoReset]
  · rw [he, submitLater_locked hs hmay hlock hidle hnoReset]
  · rw [he, submit_locked hs hmay hlock hidle hnoReset, thenReset_of_same]; rfl

theorem completeMbx_resetPending (n lim : Nat) (rp : Reply) (s : State) :
    (completeMbx n lim rp s).sys.resetPending = s.sys.resetPending := by
  unfold completeMbx
  dsimp only
  split <;> simp

/-- R553, R556: a request that the node takes and answers with an error completes at once, and nothing follows. -/
theorem exec_request_error {i : Instr} {sp : CmdSpec} {dt : Nat} {r : Ring} {s : State}
    (h : requestOf i = some (sp, dt, r)) (htaken : TakesRing r dt s) {rp : Reply} {v : State} (hstatus : 0x0100 ≤ rp.status)
    (hv : ButNonce sp (taken sp.opcode dt r s) v)
    (hanswer : ∀ body, answer sp body r (taken sp.opcode dt r s) = (rp, v)) :
    exec i s = .next (completeMbx r.mbx (elapsedLimit sp) rp v) := by
  have hrun (body) : runAccepted sp body r (taken sp.opcode dt r s) = completeMbx r.mbx (elapsedLimit sp) rp v := by
    simp only [runAccepted, hanswer]
  obtain ⟨body, -, he⟩ | ⟨-, he⟩ | ⟨-, he⟩ := exec_request h
  · rw [he, submit_taken htaken, hrun]
  · rw [he, submitLater_taken htaken, runLater_error (by rw [hanswer]; exact hstatus), hrun]
  · rw [he, submit_taken htaken, hrun, thenReset_of_same]
    rw [completeMbx_resetPending, hv.resetPending]
    simp

/-- R555, R606–R608: the checks before the command's own, each with its answer. -/
theorem exec_request_checked {i : Instr} {sp : CmdSpec} {dt : Nat} {r : Ring} {s : State}
    (h : requestOf i = some (sp, dt, r)) (htaken : TakesRing r dt s) {rp : Reply} {v : State} (hstatus : 0x0100 ≤ rp.status)
    (hv : ButNonce sp (taken sp.opcode dt r s) v)
    (hanswer : ∀ body, answer sp body r (taken sp.opcode dt r s) = (rp, v)) {t : State} (ht : exec i s = .next t) :
    Answered r rp.status rp.detail rp.rsp (taken sp.opcode dt r s) t ∧ OthersSame r s t ∧ rest t = rest v := by
  obtain rfl := Host.Outcome.next.inj ((exec_request_error h htaken hstatus hv hanswer).symm.trans ht)
  exact completed_runs htaken.sound hv.mbx

/-! ## The mailbox of a completion, and what follows a reset -/

theorem completeMbx_length (n lim : Nat) (rp : Reply) (s : State) :
    (completeMbx n lim rp s).cmd.mbx.length = s.cmd.mbx.length := by
  unfold completeMbx
  dsimp only
  split <;> simp

/-- R553. -/
theorem mbxOf_completeMbx_self {n : Nat} (lim : Nat) (rp : Reply) {s : State} (h : n < s.cmd.mbx.length) :
    ∃ e, mbxOf (completeMbx n lim rp s) n = answered rp e (mbxOf s n) := by
  refine ⟨(takeFree (lim + 1) s).1, ?_⟩
  have hself : mbxOf (modMbx n (answered rp (takeFree (lim + 1) s).1) (takeFree (lim + 1) s).2) n =
      answered rp (takeFree (lim + 1) s).1 (mbxOf s n) := by
    rw [mbxOf_modMbx_self _ _ _ (by simpa using h)]
    exact congrArg _ (mbxOf_congr (by simp) n)
  unfold completeMbx
  dsimp only
  split
  · rw [mbxOf_congr (raiseVector_mbx _ _), hself]
  · exact hself

theorem mbxOf_completeMbx_ne {n j : Nat} (lim : Nat) (rp : Reply) (s : State) (h : n ≠ j) :
    mbxOf (completeMbx n lim rp s) j = mbxOf s j := by
  have hne : mbxOf (modMbx n (answered rp (takeFree (lim + 1) s).1) (takeFree (lim + 1) s).2) j = mbxOf s j :=
    (mbxOf_modMbx_ne _ _ _ _ h).trans (mbxOf_congr (by simp) j)
  unfold completeMbx
  dsimp only
  split
  · rw [mbxOf_congr (raiseVector_mbx _ _), hne]
  · exact hne

/-- The busy mailboxes of `l` end with RESETTING (R575). -/
def endBusy (l : List Nat) (s : State) : State := forEach l (fun n s => completeMbx n 250000 (fail 0x010C 0) s) s

theorem endBusy_cons (n : Nat) (l : List Nat) (s : State) :
    endBusy (n :: l) s = endBusy l (completeMbx n 250000 (fail 0x010C 0) s) := rfl

theorem mbxOf_endBusy_ne {l : List Nat} {j : Nat} (s : State) (h : j ∉ l) : mbxOf (endBusy l s) j = mbxOf s j := by
  induction l generalizing s with
  | nil => rfl
  | cons n l ih =>
    rw [List.mem_cons, not_or] at h
    rw [endBusy_cons, ih _ h.2, mbxOf_completeMbx_ne _ _ _ (Ne.symm h.1)]

theorem mbxOf_endBusy_mem {l : List Nat} {j : Nat} {s : State} (hl : l.Nodup) (hj : j ∈ l) (hlt : j < s.cmd.mbx.length) :
    ∃ e, mbxOf (endBusy l s) j = answered (fail 0x010C 0) e (mbxOf s j) := by
  induction l generalizing s with
  | nil => cases hj
  | cons n l ih =>
    obtain ⟨hn, hl⟩ := List.nodup_cons.mp hl
    rw [endBusy_cons]
    by_cases he : n = j
    · subst he
      obtain ⟨e, he⟩ := mbxOf_completeMbx_self 250000 (fail 0x010C 0) hlt
      exact ⟨e, (mbxOf_endBusy_ne _ hn).trans he⟩
    · have hmem : j ∈ l := (List.mem_cons.mp hj).resolve_left fun h => he h.symm
      rw [← mbxOf_completeMbx_ne 250000 (fail 0x010C 0) s he]
      exact ih hl hmem (by rwa [completeMbx_length])

/-- The mailboxes that ring (R575). -/
def busyMbxs (s : State) : List Nat := (List.range 8).filter (fun n => (mbxOf s n).state = 1)

theorem mem_busyMbxs {s : State} {n : Nat} : n ∈ busyMbxs s ↔ n < 8 ∧ (mbxOf s n).state = 1 := by
  simp [busyMbxs]

theorem resetFollow_due {s : State} {src : Byte} {m : Fin 8} (h : s.sys.resetPending = some (src, m)) :
    resetFollow s = queuedDropped s.cmd.queued (finishQueued (fun _ => true) 0x010C
      (endBusy (busyMbxs (raise 0x0103 (leBytes 1 src.toNat ++ leBytes 1 m.val) s))
        (raise 0x0103 (leBytes 1 src.toNat ++ leBytes 1 m.val) s))) := by
  unfold resetFollow
  rw [h]
  rfl

theorem queuedDropped_mbx (qs : List Queued) (s : State) : (queuedDropped qs s).cmd.mbx = s.cmd.mbx := rfl

/-- R575: after the ring's own completion, every mailbox but the busy ones stays, and these end. -/
theorem mbxOf_resetFollow {s : State} {src : Byte} {m : Fin 8} (h : s.sys.resetPending = some (src, m)) (j : Nat) :
    mbxOf (resetFollow s) j = mbxOf (endBusy (busyMbxs s) (raise 0x0103 (leBytes 1 src.toNat ++ leBytes 1 m.val) s)) j := by
  have hbusy : busyMbxs (raise 0x0103 (leBytes 1 src.toNat ++ leBytes 1 m.val) s) = busyMbxs s := by
    unfold busyMbxs
    congr 1
    funext n
    rw [mbxOf_congr (s := s) (by simp)]
  rw [resetFollow_due h, hbusy]
  exact (mbxOf_congr (queuedDropped_mbx _ _) j).trans (mbxOf_congr (mbx_of_is fun mb => by simp) j)

theorem mbxOf_resetFollow_idle {s : State} {j : Nat} (hj : (mbxOf s j).state ≠ 1) :
    mbxOf (resetFollow s) j = mbxOf s j := by
  cases h : s.sys.resetPending with
  | none => unfold resetFollow; rw [h]
  | some x =>
    rw [mbxOf_resetFollow (src := x.1) (m := x.2) h, mbxOf_endBusy_ne _ fun hmem => hj (mem_busyMbxs.mp hmem).2]
    exact mbxOf_congr (by simp) j

theorem mbxOf_resetFollow_busy {s : State} {j : Nat} (hs : Sound s) (hdue : s.sys.resetPending.isSome = true)
    (hlt : j < 8) (hj : (mbxOf s j).state = 1) :
    ∃ e, mbxOf (resetFollow s) j = answered (fail 0x010C 0) e (mbxOf s j) := by
  obtain ⟨x, h⟩ := Option.isSome_iff_exists.mp hdue
  rw [mbxOf_resetFollow (src := x.1) (m := x.2) h]
  obtain ⟨e, he⟩ := mbxOf_endBusy_mem (s := raise 0x0103 (leBytes 1 x.1.toNat ++ leBytes 1 x.2.val) s)
    (List.nodup_range.filter _) (mem_busyMbxs.mpr ⟨hlt, hj⟩) (by simpa [hs.mbx] using hlt)
  exact ⟨e, he.trans (congrArg _ (mbxOf_congr (by simp) j))⟩

/-! ## An error has no effect (R556), and the 33rd queued command finds no room (R559) -/

/-- R556, R559, R621: what a command rung with `r` in `s` leaves in `t`: with an error the node as it was taken, but for the
nonce of a debug unlock; with any other answer its mailbox shows it, and QUEUED only where the queue had room. -/
def Completes (sp : CmdSpec) (dt : Nat) (r : Ring) (s t : State) : Prop :=
  (∃ (rp : Reply) (v : State), 0x0100 ≤ rp.status ∧ rp.status < 0x10000 ∧ ButNonce sp (taken sp.opcode dt r s) v ∧
    Answered r rp.status rp.detail rp.rsp (taken sp.opcode dt r s) t ∧ OthersSame r s t ∧ rest t = rest v) ∨
  (mbxOf t r.mbx).status.toNat < 0x0100 ∧ ((mbxOf t r.mbx).status = 1 → s.cmd.queued.length < 32)

/-- A command that completes at once. -/
theorem runAccepted_completes {sp : CmdSpec} {body : Ring → State → Reply × State} {dt : Nat} {r : Ring} {s : State}
    (hs : Sound s) (hbody : ∀ r s, Coded (body r s)) (ht : Sound (runAccepted sp body r (taken sp.opcode dt r s))) :
    Completes sp dt r s (runAccepted sp body r (taken sp.opcode dt r s)) := by
  obtain ⟨herr, hv⟩ | ⟨hlt, hroom⟩ := answer_cases (sp := sp) (body := body) (r := r) (taken sp.opcode dt r s)
  · exact .inl ⟨_, _, herr, answer_coded hbody _, hv, runAccepted_error hs hv⟩
  · have hmem : r.mbx.val < (answer sp body r (taken sp.opcode dt r s)).2.cmd.mbx.length := by
      rw [← completeMbx_length r.mbx (elapsedLimit sp) (answer sp body r (taken sp.opcode dt r s)).1]
      exact ht.mbx.symm ▸ r.mbx.isLt
    obtain ⟨e, he⟩ := mbxOf_completeMbx_self (elapsedLimit sp) (answer sp body r (taken sp.opcode dt r s)).1 hmem
    have hstatus : (mbxOf (runAccepted sp body r (taken sp.opcode dt r s)) r.mbx).status.toNat =
        (answer sp body r (taken sp.opcode dt r s)).1.status := by
      rw [show mbxOf (runAccepted sp body r (taken sp.opcode dt r s)) r.mbx = _ from he]
      simp only [answered, BitVec.toNat_ofNat]
      omega
    refine .inr ⟨hstatus ▸ hlt, fun hqueued => ?_⟩
    have hroom' : (taken sp.opcode dt r s).cmd.queued.length < 32 := hroom (by rw [← hstatus, hqueued]; rfl)
    simpa using hroom'

theorem answer_mbx {sp : CmdSpec} {body : Ring → State → Reply × State} {r : Ring}
    (hbody : ∀ r s, (body r s).2.cmd.mbx = s.cmd.mbx) (u : State) : (answer sp body r u).2.cmd.mbx = u.cmd.mbx := by
  unfold answer settle afterError nonceSpent
  (repeat' split) <;> simp [hbody]

/-- A command with a later completion has completed only where it answers at once. -/
theorem runLater_completes {dt : Nat} {r : Ring} {s : State} (hs : Sound s)
    (ht : Sound (runLater lskPairResetSpec lskPairResetBody r (taken lskPairResetSpec.opcode dt r s)))
    (hstate : (mbxOf (runLater lskPairResetSpec lskPairResetBody r (taken lskPairResetSpec.opcode dt r s)) r.mbx).state = 2) :
    Completes lskPairResetSpec dt r s
      (runLater lskPairResetSpec lskPairResetBody r (taken lskPairResetSpec.opcode dt r s)) := by
  by_cases h0 : (answer lskPairResetSpec lskPairResetBody r (taken lskPairResetSpec.opcode dt r s)).1.status = 0
  · have hmbx : (answer lskPairResetSpec lskPairResetBody r (taken lskPairResetSpec.opcode dt r s)).2.cmd.mbx =
        (taken lskPairResetSpec.opcode dt r s).cmd.mbx :=
      answer_mbx (fun r s => mbx_of_is fun mb => by unfold lskPairResetBody; dsimp only; (repeat' split) <;> simp) _
    rw [runLater, if_pos h0, mbxOf_congr hmbx, (taken_busy _ _ _ hs).1] at hstate
    exact absurd hstate (by decide)
  · have hrun : runLater lskPairResetSpec lskPairResetBody r (taken lskPairResetSpec.opcode dt r s) =
        runAccepted lskPairResetSpec lskPairResetBody r (taken lskPairResetSpec.opcode dt r s) := by
      rw [runLater, if_neg h0]
      rfl
    rw [hrun] at ht ⊢
    exact runAccepted_completes hs lskPairResetBody_coded ht

/-- What follows a reset leaves the mailbox of SYS_RESET itself as it was completed. -/
theorem thenReset_completes {sp : CmdSpec} {dt : Nat} {r : Ring} {s t : State} (hsp : sp.opcode ≠ 0x0111)
    (hdone : (mbxOf t r.mbx).state ≠ 1) (h : Completes sp dt r s t) :
    Completes sp dt r s (thenReset s t) := by
  obtain ⟨rp, v, herr, hlt, hv, ha, ho, hr⟩ | hstatus := h
  · have hsys : t.sys.resetPending = s.sys.resetPending := by
      have hrest : (rest t).sys = (rest v).sys := congrArg State.sys hr
      rw [show t.sys = v.sys from hrest, hv.eq hsp]
      simp
    rw [thenReset_of_same hsys]
    exact .inl ⟨rp, v, herr, hlt, hv, ha, ho, hr⟩
  · unfold thenReset
    split
    · unfold Completes
      rw [mbxOf_resetFollow_idle hdone]
      exact .inr hstatus
    · exact .inr hstatus

theorem exec_request_completes {i : Instr} {sp : CmdSpec} {dt : Nat} {r : Ring} {s t : State}
    (h : requestOf i = some (sp, dt, r)) (htaken : TakesRing r dt s) (ht : exec i s = .next t)
    (hstate : (mbxOf t r.mbx).state = 2) : Completes sp dt r s t := by
  have hkept := exec_keeps_sound htaken.sound ht
  obtain ⟨-, -, hsound⟩ := id hkept
  obtain ⟨body, hbody, he⟩ | ⟨rfl, he⟩ | ⟨rfl, he⟩ := exec_request h
  · rw [he, submit_taken htaken] at ht
    obtain rfl := Host.Outcome.next.inj ht
    exact runAccepted_completes htaken.sound hbody hsound
  · rw [he, submitLater_taken htaken] at ht
    obtain rfl := Host.Outcome.next.inj ht
    exact runLater_completes htaken.sound hsound hstate
  · rw [he, submit_taken htaken] at ht
    obtain rfl := Host.Outcome.next.inj ht
    obtain ⟨-, -, hrun⟩ := (thenReset_kept _ _ _).mp hkept
    refine thenReset_completes (by decide) ?_ (runAccepted_completes htaken.sound sysResetBody_coded hrun)
    have hmem : r.mbx.val < (answer sysResetSpec sysResetBody r (taken sysResetSpec.opcode dt r s)).2.cmd.mbx.length := by
      rw [← completeMbx_length r.mbx (elapsedLimit sysResetSpec)
        (answer sysResetSpec sysResetBody r (taken sysResetSpec.opcode dt r s)).1]
      exact hrun.mbx.symm ▸ r.mbx.isLt
    obtain ⟨e, he⟩ := mbxOf_completeMbx_self (elapsedLimit sysResetSpec)
      (answer sysResetSpec sysResetBody r (taken sysResetSpec.opcode dt r s)).1 hmem
    rw [show mbxOf (runAccepted sysResetSpec sysResetBody r (taken sysResetSpec.opcode dt r s)) r.mbx = _ from he]
    simp [answered]
end Sys2Proof.Machine
end

section
/-! PROOFS. Mailboxes as the host sees them (spec/12, spec/13): a doorbell, a lock and a payload written and read. -/

namespace Sys2Proof.Machine

/-! ## Doorbells (R546, R550) -/

theorem modMbx_congr {n : Nat} {f g : Mailbox → Mailbox} {s : State} (h : f (mbxOf s n) = g (mbxOf s n)) :
    modMbx n f s = modMbx n g s := by
  unfold modMbx
  rw [updAt_congr Mailbox.reset h]

theorem modMbx_of_same {n : Nat} {f : Mailbox → Mailbox} {s : State} (h : f (mbxOf s n) = mbxOf s n) :
    modMbx n f s = s := by
  rw [modMbx_congr (g := fun m => m) h]
  unfold modMbx
  rw [updAt_id]

theorem Sound.mbx_lt {s : State} (h : Sound s) (n : Fin 8) : n.val < s.cmd.mbx.length := h.mbx.symm ▸ n.isLt

@[simp] theorem mbxOf_emit (e : Emission) (s : State) (n : Nat) : mbxOf (emit e s) n = mbxOf s n :=
  mbxOf_congr (by simp) n

section
variable {dt : Nat} {src : Iface} {n : Fin 8} {s : State}

theorem exec_doorbellRing {v : BitVec 32} (h : Accesses src (0x8000 + 4 * n.val) s) (hpair : isPair src = false) :
    exec (.doorbellRing dt src n v) s = .next (doorbellWrite n src v.toNat (begin_ dt s)) := by
  have hexec : exec (.doorbellRing dt src n v) s = .next (hostAccess dt src (0x8000 + 4 * n.val) (some v)
    (fun s => if isPair src then s else doorbellWrite n src v.toNat s) s) := rfl
  rw [hexec, hostAccess_carried h, hpair, if_neg Bool.false_ne_true]

/-- A write of 1 rings and clears IRQ_EN and VECTOR. -/
theorem doorbellWrite_one : doorbellWrite n src 1 s =
    ringMailbox n src (modMbx n.val (fun m => { m with irqEn := false, vector := 0 }) s) := by
  have h1 : Nat.testBit 1 1 = false := by decide
  have h2 : Nat.testBit 1 2 = false := by decide
  have h7 : Nat.testBit 1 7 = false := by decide
  simp [doorbellWrite, h1, h2, h7]

/-- A write of 2 clears DONE, and IRQ_EN and VECTOR with it. -/
theorem doorbellWrite_two : doorbellWrite n src 2 s =
    modMbx n.val (fun m => { m with done := false, irqEn := false, vector := 0 }) s := by
  have h0 : Nat.testBit 2 0 = false := by decide
  have h1 : Nat.testBit 2 1 = true := by decide
  have h2 : Nat.testBit 2 2 = false := by decide
  have h7 : Nat.testBit 2 7 = false := by decide
  simp [doorbellWrite, h0, h1, h2, h7]

theorem ringMailbox_refused (h : (mbxOf s n).ring = true ∨ lockAllows n src s = false) :
    ringMailbox n src s = refuseRing n s := by
  unfold ringMailbox
  obtain h | h := h <;> simp [h]

theorem ringMailbox_unknown (hring : (mbxOf s n).ring = false) (hnoReset : s.sys.resetPending = none)
    (hlock : lockAllows n src s = true) (hop : commandOf (mbxOf s n).opcode.toNat = none) :
    ringMailbox n src s = completeMbx n.val 1000 (fail 0x0100 0) (acceptRing n.val src s) := by
  simp [ringMailbox, hring, hnoReset, hlock, hop]

theorem mbxOf_refuseRing_self (hs : Sound s) : mbxOf (refuseRing n s) n = { mbxOf s n with refused := true } :=
  mbxOf_modMbx_self n.val (fun m => { m with refused := true }) s (hs.mbx_lt n)

theorem mbxOf_refuseRing_ne {j : Nat} (hj : n.val ≠ j) : mbxOf (refuseRing n s) j = mbxOf s j :=
  mbxOf_modMbx_ne n.val (fun m => { m with refused := true }) s j hj

theorem mbxOf_acceptRing_length : (acceptRing n.val src s).cmd.mbx.length = s.cmd.mbx.length := by simp [acceptRing]

/-! ## Locks (R547) -/

theorem exec_mbxLockRead (h : Accesses src (0x8040 + 4 * n.val) s) :
    exec (.mbxLockRead dt src n) s = .next (emit (.readData src (leBytes 4 (lockRead src n (begin_ dt s)).1))
      (lockRead src n (begin_ dt s)).2) := by
  have hexec : exec (.mbxLockRead dt src n) s = .next (readAccess dt src (0x8040 + 4 * n.val) 4 s) := rfl
  have hwidth : widthOk (0x8040 + 4 * n.val) 4 = true := by
    simp [widthOk, Nat.add_mod]
  have hblock : blockAt (0x8040 + 4 * n.val) = .regs := by
    have hlow : ¬ 0x8040 + 4 * n.val < 0x8000 := by omega
    have hhigh : 0x8040 + 4 * n.val < 0x8060 := by omega
    simp [blockAt, hlow, hhigh]
  have haddr : (0x8040 + 4 * n.val) / 4 * 4 = 0x8040 + 4 * n.val := by omega
  have hoff : (0x8040 + 4 * n.val) % 4 = 0 := by omega
  have hreg : regRead src (0x8040 + 4 * n.val) (begin_ dt s) = lockRead src n (begin_ dt s) := by
    have hhigh : 0x8040 + 4 * n.val < 0x8060 := by omega
    have hidx : 0x8040 + 4 * n.val - 0x8000 = 0x40 + 4 * n.val := by omega
    have hn : (0x40 + 4 * n.val - 0x40) / 4 = n.val := by omega
    have h20 : ¬ 0x40 + 4 * n.val < 0x20 := by omega
    have hne (k : Nat) (hk : k < 0x40) : ¬ 0x40 + 4 * n.val = k := by omega
    have h60 : 0x40 + 4 * n.val < 0x60 := by omega
    rw [regRead, if_pos hhigh, hidx, doorbellRead]
    simp [h20, hne, h60]
  rw [hexec, readAccess, accessBy_carried (accesses_begin_ h dt)]
  simp only [busRead, hwidth, hblock, haddr, hoff, hreg, Bool.not_true, Bool.false_eq_true, if_false]
  rfl

theorem exec_mbxLockWrite {v : BitVec 32} (h : Accesses src (0x8040 + 4 * n.val) s) :
    exec (.mbxLockWrite dt src n v) s = .next (lockWrite src n v.toNat (begin_ dt s)) :=
  congrArg Host.Outcome.next (hostAccess_carried h)

theorem lockRead_held {o : BitVec 12} (h : (mbxOf s n).lock = some o) : lockRead src n s = (o.toNat + 2 ^ 31, s) := by
  rw [lockRead, h]

theorem lockRead_free (hpair : isPair src = false) (h : (mbxOf s n).lock = none) :
    lockRead src n s = (0, modMbx n (fun m => { m with lock := some (ownerTag src s) }) s) := by
  rw [lockRead, h, hpair]
  rfl

theorem lockWrite_owner (hpair : isPair src = false) (h : (mbxOf s n).lock = some (ownerTag src s)) :
    lockWrite src n 0 s = modMbx n (fun m => { m with lock := none }) s := by
  simp [lockWrite, hpair, h]

theorem lockWrite_other {x : BitVec 12} {v : Nat} (h : (mbxOf s n).lock = some x) (hx : x ≠ ownerTag src s ∨ v ≠ 0) :
    lockWrite src n v s = s := by
  refine if_neg ?_
  rw [h]
  obtain hx | hv := hx
  · simp [hx]
  · simp [hv]

/-! ## The payload (R551) -/

/-- A byte of the payload written is a byte of the block at the mailbox's address. -/
theorem exec_mailboxWrite_payload {v : Byte} (h : Accesses src (0x1000 * n.val + 0x20) s) :
    exec (.mailboxWrite dt src n 0x20 [v]) s = .next (mbxWrite src n 0x20 [v] (begin_ dt s)) := by
  have hexec : exec (.mailboxWrite dt src n 0x20 [v]) s = .next (writeAccess dt src (0x1000 * n.val + 0x20) [v] s) := rfl
  have hwidth : widthOk (0x1000 * n.val + 0x20) 1 = true := by simp [widthOk, Nat.mod_one]
  have hlow : 0x1000 * n.val + 0x20 < 0x8000 := by omega
  have hmbx : (0x1000 * n.val + 0x20) / 0x1000 = n.val := by omega
  have hoff : (0x1000 * n.val + 0x20) % 0x1000 = 0x20 := by omega
  rw [hexec, writeAccess_carried h]
  simp [busWrite, hwidth, blockAt, hlow, bytesWrite, hmbx, hoff]

theorem mbxWrite_busy {off : Nat} {d : List Byte} (hpair : isPair src = false) (h : (mbxOf s n).ring = true) :
    mbxWrite src n off d s = modCmd (fun c => { c with ctr := ctrInc c.ctr 1 }) s := by
  simp [mbxWrite, hpair, h]

theorem mbxWrite_idle {off : Nat} {d : List Byte} (hpair : isPair src = false) (h : (mbxOf s n).ring = false) :
    mbxWrite src n off d s = modMbx n (mbxStore off d) s := by
  simp [mbxWrite, hpair, h]

end

/-! ## The timed raise of the event queue's vector (R588) -/

theorem holdTimeout_off {s : State} (h : s.cmd.evqHold = 0) : holdTimeout s = s := by simp [holdTimeout, h]

theorem holdTimeout_due {s : State} {e : Event} (hirq : s.cmd.evqIrqEn = true) (hhold : s.cmd.evqHold ≠ 0)
    (hunread : 0 < unread s.cmd) (hthresh : unread s.cmd < threshOf s.cmd) (he : tblGet s.cmd.ring s.cmd.rd.toNat = some e)
    (hraised : e.raised = false) (hdue : e.clk + usT (10 * s.cmd.evqHold.toNat) ≤ s.clk) :
    holdTimeout s = raiseQueue s := by
  have hhold' : decide (s.cmd.evqHold ≠ 0) = true := decide_eq_true hhold
  rw [holdTimeout, hirq, hhold', decide_eq_true hunread, decide_eq_true hthresh, he]
  simp [hraised, hdue]

end Sys2Proof.Machine
end

section
/-! PROOFS. The statements of spec/12_mailbox_command_set.md and spec/13_direct_registers.md about the mailboxes. -/

open Sys2Proof Sys2Proof.Machine

/-- Settles O44: a request by `exec_request`, a doorbell written by what its write comes to. -/
theorem ringsRefused : Obligations.RingsRefused := by
  refine ⟨fun i sp dt r s h hmay hring => exec_request_busy h hmay hring,
    fun i sp dt r s h hs hmay hlock hidle hnoReset => exec_request_locked h hs hmay hlock hidle hnoReset, ?_, ?_⟩
  · intro n dt src s _ h hpair href hirq hvec
    have hsame : modMbx n.val (fun m => { m with irqEn := false, vector := 0 }) (begin_ dt s) = begin_ dt s := by
      refine modMbx_of_same ?_
      have hirq' : (mbxOf (begin_ dt s) n).irqEn = false := hirq
      have hvec' : (mbxOf (begin_ dt s) n).vector = 0 := hvec
      rw [← hirq', ← hvec']
    rw [exec_doorbellRing h hpair]
    exact congrArg _ (doorbellWrite_one.trans (hsame.symm ▸ ringMailbox_refused href))
  · exact fun n s hs => ⟨mbxOf_refuseRing_self hs, fun j hj => mbxOf_refuseRing_ne fun he => hj (Fin.ext he.symm), rfl, rfl⟩

/-- Settles O45: each check by its answer (`answer_check`, `answer_unready`), which `exec_request_checked` completes. -/
theorem requestChecksInOrder : Obligations.RequestChecksInOrder := by
  intro i sp dt r s h hnoReset
  refine ⟨exec_request_closed h, fun hs hmay hidle hlock => ?_⟩
  have htaken : TakesRing r dt s := ⟨hs, hmay, hidle, hnoReset, hlock⟩
  have hspent := butNonce_nonceSpent (sp := sp) (taken sp.opcode dt r s)
  obtain ⟨t, ht, -⟩ := exec_kept (s.pending, fusedOf s.sys) i s
  have hcheck {rp : Reply} (hc : checkRequest sp r.src r.req = some rp) :=
    exec_request_checked h htaken (checkRequest_error hc) hspent (fun _ => answer_check hc) ht
  refine ⟨t, ht, fun hremote => hcheck (checkRequest_remote hremote),
    fun hremote hlength => hcheck (checkRequest_length hremote hlength),
    fun off hremote hlength hreserved => hcheck (checkRequest_reserved hremote hlength hreserved), ?_⟩
  intro hc hready hstart
  have hready' : (taken sp.opcode dt r s).sys.ready = false := by simpa using hready
  have hstep : (taken sp.opcode dt r s).sys.step = s.sys.step := by simp
  have hanswer (body) : answer sp body r (taken sp.opcode dt r s) = (notInState s.sys.step, taken sp.opcode dt r s) := by
    rw [answer_unready hc hready' hstart, hstep]
  exact exec_request_checked h htaken (by simp [notInState, fail]) (.inl rfl) hanswer ht

/-- Settles O46: by `exec_request_completes`. -/
theorem errorsHaveNoEffect : Obligations.ErrorsHaveNoEffect := by
  intro i sp dt r s t h hs hmay hidle hnoReset hlock ht hstate
  obtain ⟨rp, v, herr, hlt, hv, ha, ho, hr⟩ | ⟨hstatus, hroom⟩ :=
    exec_request_completes h ⟨hs, hmay, hidle, hnoReset, hlock⟩ ht hstate
  · obtain ⟨hring, hdone, -, htag, hstatus, -⟩ := ha
    have hrest : rest (modSys (fun y => { y with nonce := none }) t) = rest (modSys (fun y => { y with nonce := none }) v) :=
      congrArg (modSys (fun y => { y with nonce := none })) hr
    refine ⟨fun _ => ⟨ho, hring, hdone, htag, fun hop => hr.trans (congrArg rest (hv.eq hop)),
      hrest.trans (congrArg rest hv.nonce_none)⟩, fun _ hone => ?_⟩
    have hval : rp.status = 1 := by
      have := congrArg BitVec.toNat (hstatus.symm.trans hone)
      simpa [Nat.mod_eq_of_lt hlt] using this
    omega
  · exact ⟨fun herr => absurd hstatus (by omega), fun hfull hone => absurd (hroom hone) (by omega)⟩

/-- Settles O38: each access by what it comes to where it is carried out. -/
theorem hostQueueCommandsComplete : Obligations.HostQueueCommandsComplete := by
  intro dt src s hs
  have hbegin : Sound (begin_ dt s) := hs
  refine ⟨?_, ?_, ?_, ?_, ?_, ?_, ?_, ?_, ?_, ?_, ?_, ?_, ?_⟩
  · intro m v h hpair hring
    rw [exec_mailboxWrite_payload h, mbxWrite_idle (s := begin_ dt s) hpair hring]
    rfl
  · intro m v h hpair hring
    rw [exec_mailboxWrite_payload h, mbxWrite_busy (s := begin_ dt s) hpair hring]
  · intro m h hpair hlock
    refine ⟨_, (exec_mbxLockRead h).trans (by rw [lockRead_free (s := begin_ dt s) hpair hlock]), ?_, ?_, fun j hj => ?_⟩
    · rw [mbxOf_emit, mbxOf_modMbx_self m.val _ (begin_ dt s) (hbegin.mbx_lt m)]
      rfl
    · exact emit_readData _ _ _
    · rw [mbxOf_emit, mbxOf_modMbx_ne m.val _ (begin_ dt s) j fun he => hj (Fin.ext he.symm)]
      rfl
  · intro m x h hpair hlock
    rw [exec_mbxLockRead h, lockRead_held (s := begin_ dt s) hlock]
  · intro m h hpair hlock
    rw [exec_mbxLockWrite h]
    exact congrArg _ (lockWrite_owner hpair hlock)
  · intro m x v h hlock hx
    rw [exec_mbxLockWrite h]
    exact congrArg _ (lockWrite_other hlock (hx.imp_right fun hv h0 => hv (BitVec.eq_of_toNat_eq h0)))
  · intro m h hpair hring
    have hself := mbxOf_modMbx_self m.val (fun m => { m with irqEn := false, vector := 0 }) (begin_ dt s) (hbegin.mbx_lt m)
    have hring' : (mbxOf (modMbx m.val (fun m => { m with irqEn := false, vector := 0 }) (begin_ dt s)) m).ring = true := by
      rw [hself]; exact hring
    have hsound : Sound (modMbx m.val (fun m => { m with irqEn := false, vector := 0 }) (begin_ dt s)) := by
      simpa [Sound, partsOf] using hs
    have hmbx := mbxOf_refuseRing_self (n := m) hsound
    rw [hself] at hmbx
    refine ⟨_, (exec_doorbellRing h hpair).trans (congrArg _ (doorbellWrite_one.trans
      (ringMailbox_refused (.inl hring')))), ?_, ?_, ?_, rfl, rfl⟩ <;> rw [hmbx]
    · exact hring
    · rfl
  · intro m h hpair hring hnoReset hlock hop
    have hself := mbxOf_modMbx_self m.val (fun m => { m with irqEn := false, vector := 0 }) (begin_ dt s) (hbegin.mbx_lt m)
    have hring' : (mbxOf (modMbx m.val (fun m => { m with irqEn := false, vector := 0 }) (begin_ dt s)) m).ring = false := by
      rw [hself]; exact hring
    have hlock' : lockAllows m src (modMbx m.val (fun m => { m with irqEn := false, vector := 0 }) (begin_ dt s)) = true := by
      unfold lockAllows; rw [hself]; exact hlock
    have hop' : commandOf (mbxOf (modMbx m.val (fun m => { m with irqEn := false, vector := 0 }) (begin_ dt s)) m).opcode.toNat
        = none := by rw [hself]; exact hop
    obtain ⟨e, he⟩ := mbxOf_completeMbx_self (n := m.val) 1000 (fail 0x0100 0)
      (s := acceptRing m.val src (modMbx m.val (fun m => { m with irqEn := false, vector := 0 }) (begin_ dt s)))
      (by rw [mbxOf_acceptRing_length]; simpa using hbegin.mbx_lt m)
    refine ⟨_, (exec_doorbellRing h hpair).trans (congrArg _ (doorbellWrite_one.trans
      (ringMailbox_unknown hring' hnoReset hlock' hop'))), ?_, ?_, ?_, ?_⟩ <;> rw [he] <;> rfl
  · intro m h hpair
    rw [exec_doorbellRing h hpair]
    exact congrArg _ doorbellWrite_two
  · intro n h hpair hback hn hirq
    have hval : (BitVec.ofNat 32 n).toNat = n := by simp; omega
    have hirq' : (begin_ dt s).cmd.evqIrqEn = false := hirq
    rw [exec_evqRdWrite h, hval, evqRdWrite_accepted (s := begin_ dt s) hpair hback, hirq']
    rfl
  · intro n h hback hn
    have hval : (BitVec.ofNat 32 n).toNat = n := by simp; omega
    rw [exec_evqRdWrite h, hval, evqRdWrite_discarded (s := begin_ dt s) (.inr hback)]
  · intro e hirq hhold hunread hthresh he hraised hdue
    exact congrArg _ (holdTimeout_due (s := begin_ dt s) hirq hhold hunread hthresh he hraised hdue)
  · exact fun h => congrArg _ (holdTimeout_off (s := begin_ dt s) h)

end

section
/-! PROOFS. The system commands (spec/12) and the power commands (spec/15): what each chapter's part answers. -/

namespace Sys2Proof.Machine

/-! ## Answers that are errors -/

/-- R553, R556: a command whose chapter answers an error. -/
theorem answers_error {i : Instr} {sp : CmdSpec} {body : Ring → State → Reply × State} {dt : Nat} {r : Ring} {s y : State}
    {status detail : Nat} (h : Runs sp r dt s) (he : exec i s = .next (submit sp body dt r s))
    (hb : body r (taken sp.opcode dt r s) = (fail status detail, y)) (herr : 0x0100 ≤ status) :
    ∃ t, exec i s = .next t ∧ Answered r status detail [] (taken sp.opcode dt r s) t ∧
      rest t = rest (afterError sp (taken sp.opcode dt r s) y) := by
  have hsettle : settle sp r (taken sp.opcode dt r s) (fail status detail, y) =
      (fail status detail, afterError sp (taken sp.opcode dt r s) y) := if_pos herr
  refine ⟨_, he, ?_⟩
  rw [submit_runs h.rings h.checks, hb, hsettle]
  obtain ⟨ha, -, hr⟩ := completed_runs (op := sp.opcode) (dt := dt) (lim := elapsedLimit sp) (r := r)
    (rp := fail status detail) h.rings.sound (butNonce_afterError (sp := sp) (taken sp.opcode dt r s) y).mbx
  exact ⟨ha, hr⟩

section
variable {r : Ring} {s : State}

/-! ## SYS_EVENT_MASK (R573) -/

theorem sysEventMaskBody_unmask_all (hcode : fieldAt r.req 0 2 = 0xFFFF) (hop : byteAt r.req 2 = 1) :
    sysEventMaskBody r s = (done [], modCmd (fun c => { c with mask := [] }) s) := by
  simp [sysEventMaskBody, hcode, hop]

theorem sysEventMaskBody_mask_all (hcode : fieldAt r.req 0 2 = 0xFFFF) (hop : byteAt r.req 2 = 0) :
    sysEventMaskBody r s = (done [], modCmd (fun c => { c with mask := maskable }) s) := by
  simp [sysEventMaskBody, hcode, hop]

section
variable {w : Bool} (hcode : eventCodes.lookup (fieldAt r.req 0 2) = some w) (hall : fieldAt r.req 0 2 ≠ 0xFFFF)
include hcode hall

theorem sysEventMaskBody_unmask (hop : byteAt r.req 2 = 1) :
    sysEventMaskBody r s = (done [], modCmd (fun c => { c with
      mask := c.mask.filter (fun x => x ≠ BitVec.ofNat 16 (fieldAt r.req 0 2)) }) s) := by
  simp [sysEventMaskBody, hcode, hall, hop, modCmd]

theorem sysEventMaskBody_mask (h1 : fieldAt r.req 0 2 ≠ 0x0101) (h2 : fieldAt r.req 0 2 ≠ 0x0102) (hop : byteAt r.req 2 = 0) :
    sysEventMaskBody r s = (done [], modCmd (fun c => { c with
      mask := c.mask.filter (fun x => x ≠ BitVec.ofNat 16 (fieldAt r.req 0 2)) ++ [BitVec.ofNat 16 (fieldAt r.req 0 2)] }) s) := by
  simp [sysEventMaskBody, hcode, hall, h1, h2, hop, modCmd]

end

/-! ## Patches (R577, R578) -/

section
variable (hmin : 4 ≤ fieldAt r.req 4 2) (hmax : fieldAt r.req 4 2 ≤ 2048) (hwords : fieldAt r.req 4 2 % 4 = 0)
include hmin hmax hwords

/-- Bytes at offset 0 begin a patch anew. -/
theorem sysPatchStageBody_first (hoff : fieldAt r.req 0 4 = 0) :
    sysPatchStageBody r s = (done [], modSys (fun y => { y with
      patchStaged := some { bytes := memWrite [] 0 (r.req.drop 8), len := fieldAt r.req 4 2, verified := false } }) s) := by
  have hlt : ¬ (fieldAt r.req 4 2 < 4 ∨ 2048 < fieldAt r.req 4 2 ∨ fieldAt r.req 4 2 % 4 ≠ 0) := by omega
  have hfits : ¬ 65536 < fieldAt r.req 4 2 := by omega
  simp [sysPatchStageBody, hoff, hfits, hwords, Nat.not_lt.mpr hmin, Nat.not_lt.mpr hmax]

theorem sysPatchStageBody_further {p : Patch} (hp : s.sys.patchStaged = some p) (hoff : fieldAt r.req 0 4 ≠ 0)
    (halign : fieldAt r.req 0 4 % 4 = 0) (hfits : fieldAt r.req 0 4 + fieldAt r.req 4 2 ≤ 65536) :
    sysPatchStageBody r s = (done [], modSys (fun y => { y with
      patchStaged := some { bytes := memWrite p.bytes (fieldAt r.req 0 4) (r.req.drop 8)
                            len := max p.len (fieldAt r.req 0 4 + fieldAt r.req 4 2), verified := false } }) s) := by
  simp [sysPatchStageBody, hp, hoff, halign, hwords, Nat.not_lt.mpr hmin, Nat.not_lt.mpr hmax, Nat.not_lt.mpr hfits]

end

theorem sysPatchVerifyBody_verified {p : Patch} (hp : s.sys.patchStaged = some p)
    (h : patchFault s.sys.romMinor (runningFloor s) p = none) :
    sysPatchVerifyBody r s = (done (leBytes 2 (patchLevel p) ++ leBytes 2 (patchFloor p) ++ patchId p),
      modSys (fun y => { y with patchStaged := some { p with verified := true } }) s) := by
  simp only [sysPatchVerifyBody, hp, h]

theorem sysPatchVerifyBody_fault {p : Patch} {c : Nat} (hp : s.sys.patchStaged = some p)
    (h : patchFault s.sys.romMinor (runningFloor s) p = some c) : sysPatchVerifyBody r s = (fail 0x0109 c, s) := by
  simp only [sysPatchVerifyBody, hp, h]

/-! ## Log, profile, debug (R572, R615, R621) -/

theorem sysLogReadBody_listed (hmin : 1 ≤ fieldAt r.req 2 2) (hmax : fieldAt r.req 2 2 ≤ 126) :
    sysLogReadBody r s = (done (leBytes 2 ((s.cmd.log.drop (fieldAt r.req 0 2)).take (fieldAt r.req 2 2)).length ++
      leBytes 2 s.cmd.log.length ++ leBytes 28 0 ++
      ((s.cmd.log.drop (fieldAt r.req 0 2)).take (fieldAt r.req 2 2)).flatMap eventBytes), s) := by
  have h : ¬ (fieldAt r.req 2 2 < 1 ∨ 126 < fieldAt r.req 2 2) := by omega
  exact if_neg (by simpa using h)

theorem sysProfileConfirmBody_confirmed (h : byteAt r.req 0 = b2n s.sys.native) :
    sysProfileConfirmBody r s = (done [], modSys (fun y => { y with
      profileRecord := some y.native, step := if y.step = 7 then 8 else y.step }) s) := by
  have hle : ¬ 1 < b2n s.sys.native := by cases s.sys.native <;> decide
  simp [sysProfileConfirmBody, h, hle]

section
variable (hresv : debugReserved r.req = none)
include hresv

theorem sysDebugBody_nonce (hkind : byteAt r.req 0 = 0) (hlen : r.req.length = 4) :
    sysDebugBody r s = debugNonce s := by
  simp [sysDebugBody, hresv, hkind, hlen]

theorem sysDebugBody_unlock (hkind : byteAt r.req 0 = 1) (hlen : r.req.length = 68) :
    sysDebugBody r s = debugUnlock r.req s := by
  simp [sysDebugBody, hresv, hkind, hlen]

theorem sysDebugBody_relock (hkind : byteAt r.req 0 = 2) (hlen : r.req.length = 4) :
    sysDebugBody r s = (done [], modSys (fun y => { y with debugScope := 0 }) s) := by
  simp [sysDebugBody, hresv, hkind, hlen]

end

/-- What the signature of a debug unlock is over (R621). -/
def debugMessage (r : Ring) (n : BitVec 128) (s : State) : List Byte :=
  leBytes 8 s.sys.uid.toNat ++ leBytes 16 n.toNat ++ [BitVec.ofNat 8 (byteAt r.req 1)]

theorem debugUnlock_signed {n : BitVec 128} (hn : nonceValid s = some n)
    (h : Config.ed25519 true (debugMessage r n s) ((r.req.drop 4).take 64) = true) :
    debugUnlock r.req s = (done [], raise 0x0105 [BitVec.ofNat 8 (byteAt r.req 1)]
      (modSys (fun y => { y with nonce := none, debugScope := BitVec.ofNat 8 (byteAt r.req 1) }) s)) := by
  unfold debugMessage at h
  have hscope : leBytes 1 (BitVec.ofNat 8 (byteAt r.req 1)).toNat = [BitVec.ofNat 8 (byteAt r.req 1)] := by
    rw [leBytes, leBytes, BitVec.ofNat_toNat, BitVec.setWidth_eq]
  simp only [debugUnlock, hn, h, if_true, hscope]
  rfl

theorem debugUnlock_unsigned {n : BitVec 128} (hn : nonceValid s = some n)
    (h : Config.ed25519 true (debugMessage r n s) ((r.req.drop 4).take 64) ≠ true) :
    debugUnlock r.req s = (fail 0x0102 4, modSys (fun y => { y with nonce := none }) s) := by
  unfold debugMessage at h
  simp only [debugUnlock, hn, h]
  rfl

/-- The nonce of a debug unlock is judged by the moment of the command. -/
theorem nonceValid_taken (op dt : Nat) : nonceValid (taken op dt r s) = nonceValid (begin_ dt s) := by
  simp [nonceValid]

theorem runningFloor_taken (op dt : Nat) : runningFloor (taken op dt r s) = runningFloor s := by
  simp [runningFloor]

/-! ## Power (R638, R641, R647) -/

theorem pwrDomainConfigBody_stored (hmin : 1 ≤ byteAt r.req 0) (hmax : byteAt r.req 0 ≤ 11)
    (hlimit : byteAt r.req 1 ≤ domLimit (byteAt r.req 0)) :
    pwrDomainConfigBody r s = (done [], pwrStore (modPwr (fun p => { p with
      deepestNext := updAt p.deepestNext (byteAt r.req 0) (fun _ => some (byteAt r.req 1)) }) s)) := by
  have h : ¬ (byteAt r.req 0 < 1 ∨ 11 < byteAt r.req 0) := by omega
  exact (if_neg (by simpa using h)).trans (if_neg (Nat.not_lt.mpr hlimit))

theorem pwrWakeConfigBody_stored (h : fieldAt r.req 10 4 < 1000000000) :
    pwrWakeConfigBody r s = (done [], pwrStore (modPwr (fun p => { p with
      wakePark := BitVec.ofNat 5 (byteAt r.req 0), wakeKiln := BitVec.ofNat 5 (byteAt r.req 1)
      alarm := timeOf (r.req.drop 4) }) s)) :=
  if_neg (Nat.not_le.mpr h)

theorem entryBody_asked (kiln : Bool) (h : byteAt r.req 4 = 0) :
    entryBody kiln r s = (queued 0, modPwr (fun p => { p with
      pend := some (kiln, BitVec.ofNat 32 (fieldAt r.req 0 4),
        !(wrapNewer (BitVec.ofNat 32 (fieldAt r.req 0 4)) (cycleNo s))) }) (dropEntry s)) := by
  simp [entryBody, h]

theorem entryBody_withdrawn (kiln : Bool) (h : byteAt r.req 4 = 1) : entryBody kiln r s = (done [], dropEntry s) := by
  simp [entryBody, h]

end

/-! ## SYS_RESET (R575) -/

section
variable {dt : Nat} {r : Ring} {s : State}

theorem Runs.takes {sp : CmdSpec} (h : Runs sp r dt s) : TakesRing r dt s :=
  ⟨h.rings.sound, h.rings.may, h.rings.idle, h.rings.noReset, h.rings.lock⟩

/-- SYS_RESET with a reset due in it. -/
def resetAsked (dt : Nat) (r : Ring) (s : State) : State :=
  modSys (fun y => { y with resetPending := some (BitVec.ofNat 8 (srcIf r.src), r.mbx) }) (taken sysResetSpec.opcode dt r s)

theorem sysResetBody_due (h0 : byteAt r.req 0 = 0x96) (h1 : byteAt r.req 1 = 0x48) :
    sysResetBody r (taken sysResetSpec.opcode dt r s) = (done [], resetAsked dt r s) := by
  simp only [sysResetBody, h0, h1, resetAsked, ne_eq, not_true_eq_false, if_false]

/-- The command completes before what follows the reset. -/
def resetDone (dt : Nat) (r : Ring) (s : State) : State :=
  completeMbx r.mbx (elapsedLimit sysResetSpec) (done []) (resetAsked dt r s)

theorem exec_sysReset (h : Runs sysResetSpec r dt s) (h0 : byteAt r.req 0 = 0x96) (h1 : byteAt r.req 1 = 0x48) :
    exec (.sysReset dt r) s = .next (resetFollow (resetDone dt r s)) := by
  have hsettle : settle sysResetSpec r (taken sysResetSpec.opcode dt r s) (done [], resetAsked dt r s) =
      (done [], resetAsked dt r s) := by
    have harea : areaOf sysResetSpec.opcode = 0 := rfl
    have hflash : sysResetSpec.flash = false := rfl
    cases hfail : r.flashFail <;> simp [settle, done, hfail, hflash, harea, areaWritten]
  have hsubmit : submit sysResetSpec sysResetBody dt r s = resetDone dt r s := by
    rw [submit_runs h.rings h.checks, sysResetBody_due h0 h1, hsettle, resetDone]
  have hdue : (resetDone dt r s).sys.resetPending.isSome = true := by
    rw [resetDone, completeMbx_resetPending]
    rfl
  have hexec : exec (.sysReset dt r) s = .next (thenReset s (submit sysResetSpec sysResetBody dt r s)) := rfl
  rw [hexec, hsubmit, thenReset, h.rings.noReset, hdue]
  rfl

theorem resetDone_sound (hs : Sound s) : Sound (resetDone dt r s) := by
  have hkept : Kept (s.pending, fusedOf s.sys) (resetDone dt r s) ↔ Kept (s.pending, fusedOf s.sys) s := by
    simp [resetDone, resetAsked, taken]
  exact (hkept.mpr ⟨rfl, rfl, hs⟩).2.2

theorem resetFollow_sys (s : State) : (resetFollow s).sys = s.sys := by
  have h : OnlyWrites [.free, .emit, .mbx, .cmd, .flow, .vec, .now, .sched, .time, .trunk, .ina, .twin, .lsk, .mvb, .swc,
      .pwr, .rep] s (resetFollow s) := by
    simp [onlyWrites_refl]
  exact h .sys (by decide)

theorem finishQueued_all_queued (status : Nat) (s : State) : (finishQueued (fun _ => true) status s).cmd.queued = [] := by
  have h : (finishQueued (fun _ => true) status s).cmd.queued =
      ({ s with cmd := { s.cmd with queued := s.cmd.queued.filter (fun _ => false) } } : State).cmd.queued :=
    forEach_keeps (fun s => s.cmd.queued) _ (fun q s => by simp [completeEvent]) _ _
  rw [h]
  simp

theorem resetFollow_queued {src : Byte} {m : Fin 8} (h : s.sys.resetPending = some (src, m)) :
    (resetFollow s).cmd.queued = [] := by
  rw [resetFollow_due h]
  exact finishQueued_all_queued _ _

theorem completeMbx_sys (n lim : Nat) (rp : Reply) (s : State) : (completeMbx n lim rp s).sys = s.sys := by
  unfold completeMbx
  dsimp only
  split <;> simp

theorem resetDone_sys : (resetDone dt r s).sys =
    { s.sys with resetPending := some (BitVec.ofNat 8 (srcIf r.src), r.mbx) } := by
  rw [resetDone, completeMbx_sys, resetAsked, modSys]
  simp

/-- R553: its own mailbox shows the completion, and the others are as they were. -/
theorem resetDone_answered (hs : Sound s) :
    Answered r 0 0 [] (taken sysResetSpec.opcode dt r s) (resetDone dt r s) ∧ OthersSame r s (resetDone dt r s) := by
  obtain ⟨ha, ho, -⟩ := completed_runs (op := sysResetSpec.opcode) (dt := dt) (lim := elapsedLimit sysResetSpec)
    (x := resetAsked dt r s) (rp := done []) hs rfl
  exact ⟨ha, ho⟩

end

end Sys2Proof.Machine
end

section
/-! PROOFS. The statements of spec/12_mailbox_command_set.md and spec/15_power_states.md about mailbox commands. -/

open Sys2Proof Sys2Proof.Machine

/-- Settles O1: each by its chapter's answer. -/
theorem sysCommandsComplete : Obligations.SysCommandsComplete := by
  intro dt r s
  refine ⟨?_, ?_, ?_, ?_, ?_, ?_, ?_, ?_, ?_, ?_, ?_, ?_, ?_, ?_⟩
  · exact fun h => does_plain h rfl rfl rfl rfl
  · exact fun h => does_plain h rfl rfl rfl rfl
  · exact fun h hcode hop => does_plain h rfl rfl (sysEventMaskBody_unmask_all hcode hop) rfl
  · exact fun h hcode hop => does_plain h rfl rfl (sysEventMaskBody_mask_all hcode hop) rfl
  · exact fun w h hcode hall hop => does_plain h rfl rfl (sysEventMaskBody_unmask hcode hall hop) rfl
  · exact fun w h hcode hall h1 h2 hop => does_plain h rfl rfl (sysEventMaskBody_mask hcode hall h1 h2 hop) rfl
  · exact fun h hoff hmin hmax hwords => does_plain h rfl rfl (sysPatchStageBody_first hmin hmax hwords hoff) rfl
  · intro p h hp hoff halign hmin hmax hwords hfits
    exact does_plain h rfl rfl (sysPatchStageBody_further hmin hmax hwords (by simpa using hp) hoff halign hfits) rfl
  · intro p h hp
    have hp' : (taken sysPatchVerifySpec.opcode dt r s).sys.patchStaged = some p := by simpa using hp
    have hfault : patchFault (taken sysPatchVerifySpec.opcode dt r s).sys.romMinor
        (runningFloor (taken sysPatchVerifySpec.opcode dt r s)) p = patchFault s.sys.romMinor (runningFloor s) p := by
      rw [runningFloor_taken]
      simp
    split
    next hnone => exact does_plain h rfl rfl (sysPatchVerifyBody_verified hp' (hfault.trans hnone)) rfl
    next c hsome => exact answers_error h rfl (sysPatchVerifyBody_fault hp' (hfault.trans hsome)) (by decide)
  · intro h hmin hmax
    exact does_plain h rfl rfl ((sysLogReadBody_listed hmin hmax).trans (by simp)) rfl
  · exact fun h hp => does_plain h rfl rfl (sysProfileConfirmBody_confirmed (by simpa using hp)) rfl
  · exact fun h hkind hlen hresv => does_plain h rfl rfl (sysDebugBody_nonce hresv hkind hlen) rfl
  · intro n h hkind hlen hresv hn
    have hbody := sysDebugBody_unlock (s := taken sysDebugSpec.opcode dt r s) hresv hkind hlen
    have hn' : nonceValid (taken sysDebugSpec.opcode dt r s) = some n := (nonceValid_taken _ _).trans hn
    have hmsg : debugMessage r n (taken sysDebugSpec.opcode dt r s) = debugMessage r n s := by simp [debugMessage]
    split
    next hsigned =>
      exact does_plain h rfl rfl (hbody.trans (debugUnlock_signed hn' (by rw [hmsg]; exact hsigned)))
        (mbx_of_is fun mb => by simp)
    next hunsigned =>
      exact answers_error h rfl (hbody.trans (debugUnlock_unsigned hn' (by rw [hmsg]; exact hunsigned))) (by decide)
  · exact fun h hkind hlen hresv => does_plain h rfl rfl (sysDebugBody_relock hresv hkind hlen) rfl

/-- Settles O2: the command completes, and then what follows a reset (`resetFollow`) ends the others. -/
theorem sysResetCompletes : Obligations.SysResetCompletes := by
  intro dt r s h h0 h1
  have hs := h.rings.sound
  obtain ⟨ha, ho⟩ := resetDone_answered (dt := dt) (r := r) hs
  have hsys := resetDone_sys (dt := dt) (r := r) (s := s)
  have hidle : (mbxOf (resetDone dt r s) r.mbx).state ≠ 1 := by
    obtain ⟨-, -, hstate, -⟩ := ha
    rw [hstate]
    decide
  refine ⟨_, exec_sysReset h h0 h1, ?_, (resetFollow_sys _).trans hsys,
    resetFollow_queued (congrArg Sys.resetPending hsys), ?_, ?_⟩
  · unfold Answered
    rw [mbxOf_resetFollow_idle hidle]
    exact ha
  · intro j hj hbusy
    obtain ⟨e, he⟩ := mbxOf_resetFollow_busy (resetDone_sound hs) (congrArg (fun y => y.resetPending.isSome) hsys) j.isLt
      ((congrArg Mailbox.state (ho j hj)).trans hbusy)
    rw [he]
    exact ⟨rfl, rfl, rfl⟩
  · intro j hj hquiet
    rw [mbxOf_resetFollow_idle (by rw [ho j hj]; exact hquiet), ho j hj]

/-- Settles O12: each by its chapter's answer. -/
theorem powerCommandsComplete : Obligations.PowerCommandsComplete := by
  intro dt r s
  refine ⟨?_, ?_, ?_, ?_, ?_, ?_, ?_⟩
  · exact fun h => does_plain h rfl rfl rfl (mbx_of_is fun mb => by split <;> simp)
  · intro h hmin hmax hlimit
    exact does h rfl (pwrDomainConfigBody_stored hmin hmax hlimit) rfl rfl
  · exact fun h hask hroom => queues_plain h hroom rfl rfl (entryBody_asked false hask) (mbx_of_is fun mb => by simp)
  · exact fun h hask hroom => queues_plain h hroom rfl rfl (entryBody_asked true hask) (mbx_of_is fun mb => by simp)
  · exact fun h hask => does_plain h rfl rfl (entryBody_withdrawn false hask) (mbx_of_is fun mb => by simp)
  · exact fun h hask => does_plain h rfl rfl (entryBody_withdrawn true hask) (mbx_of_is fun mb => by simp)
  · exact fun h halarm => does h rfl (pwrWakeConfigBody_stored halarm) rfl rfl

end

section
/-! PROOFS. A start of the node (spec/14): what each of its steps leaves in the system registers. -/

namespace Sys2Proof.Machine

theorem sys_of_outside {s t : State} (h : OnlyWrites outside s t) : t.sys = s.sys := h .sys (by decide)

/-! ## Power-good (R604, R605) -/

theorem exec_powerGood {dt : Nat} {p : PowerGoodIn} {s : State} (h : mayPower s = true) :
    exec (.powerGood dt p) s = .next (powerGood p (begin_ dt s)) :=
  congrArg Host.Outcome.next (if_pos (show mayPower (begin_ dt s) = true from h))

/-- Putting the ports where their switches and policies have them writes the ports only. -/
theorem startPorts_keeps (s : State) : OnlyWrites [.trunk] s (startPorts s) := by simp [onlyWrites_refl]

theorem startPorts_lines (s : State) : lines (startPorts s) = lines s :=
  lines_of_beside (forEach_beside _ _ _ fun _ _ => rfl)

/-- What a power-good leaves before the ports are put in place. -/
def poweredUp (p : PowerGoodIn) (s : State) : State :=
  let s1 := modSys (fun y => { y with powered := true, native := p.profSelHigh, maint := p.maintLow, attempts := 0 }) s
  beginStart (if s.sys.kilnWake.isSome then 2 else 0) (tapReset { s1 with
    now := if s.time.rtcKept then s.now else 0
    can := s1.can.map (canPowerOff false)
    time := { s1.time with rtcKept := true }
    trunk := { s1.trunk with
      policy := startPolicy s1
      lineA := { closed := p.sensedA, command := none, retried := false, cmdClk := 0 }
      lineB := { closed := p.sensedB, command := none, retried := false, cmdClk := 0 } }
    pwr := { s1.pwr with
      dev := .run, supply := if s1.pwr.vin < 1440 then .below else .normal, storeCap := p.storeCap
      storeDegraded := p.storeCap.toNat < 540, doms := s1.pwr.doms.map (fun _ => DomSt.run), wakeBits := 0 } })

theorem powerGood_eq (p : PowerGoodIn) (s : State) : powerGood p s = startPorts (poweredUp p s) := rfl

theorem powerGood_sys (p : PowerGoodIn) (s : State) : (powerGood p s).sys = (poweredUp p s).sys :=
  startPorts_keeps (poweredUp p s) .sys (by decide)

theorem powerGood_pwr (p : PowerGoodIn) (s : State) : (powerGood p s).pwr = (poweredUp p s).pwr :=
  startPorts_keeps (poweredUp p s) .pwr (by decide)

theorem powerGood_lines (p : PowerGoodIn) (s : State) : lines (powerGood p s) = lines (poweredUp p s) :=
  startPorts_lines (poweredUp p s)

theorem powerGood_registers (p : PowerGoodIn) (s : State) :
    (powerGood p s).sys.powered = true ∧ (powerGood p s).sys.native = p.profSelHigh ∧
    (powerGood p s).sys.maint = p.maintLow ∧ (powerGood p s).sys.step = 1 ∧ (powerGood p s).sys.ready = false ∧
    (powerGood p s).sys.cause = (if s.sys.kilnWake.isSome then 2 else 0) ∧ (powerGood p s).pwr.dev = .run ∧
    (powerGood p s).pwr.storeCap = p.storeCap ∧ (powerGood p s).trunk.lineA.closed = p.sensedA ∧
    (powerGood p s).trunk.lineB.closed = p.sensedB := by
  obtain ⟨hlineA, hlineB⟩ := Prod.mk.inj (powerGood_lines p s)
  rw [powerGood_sys, powerGood_pwr, hlineA, hlineB]
  exact ⟨rfl, rfl, rfl, rfl, rfl, rfl, rfl, rfl, rfl, rfl⟩

/-! ## A step that fails (R606) -/

theorem emergencyClose_sys (s : State) : (emergencyClose s).sys = s.sys := sys_of_outside (by simp [onlyWrites_refl, outside])

theorem raiseLogOnly_keeps (code : Nat) (param : List Byte) (s : State) :
    (raiseLogOnly code param s).sys = s.sys ∧ (raiseLogOnly code param s).trunk = s.trunk := ⟨rfl, rfl⟩

theorem modSys_keeps (f : Sys → Sys) (s : State) : (modSys f s).sys = f s.sys ∧ (modSys f s).trunk = s.trunk := ⟨rfl, rfl⟩

/-- A failed step holds the node in reset, its attempt counted and both switches closed. -/
theorem startFailed_held (n : Nat) (s : State) :
    (startFailed n s).sys.heldInReset = true ∧ (startFailed n s).sys.attempts = s.sys.attempts + 1 ∧
    (startFailed n s).trunk.lineA.closed = true ∧ (startFailed n s).trunk.lineB.closed = true := by
  obtain ⟨hlineA, hlineB, -, -⟩ :=
    emergencyClose_switches (modSys (fun y => { y with attempts := y.attempts + 1 }) s)
  have hattempts : (emergencyClose (modSys (fun y => { y with attempts := y.attempts + 1 }) s)).sys.attempts =
      s.sys.attempts + 1 := by rw [emergencyClose_sys]; rfl
  unfold startFailed
  dsimp only
  split
  · simp only [modSys_keeps, raiseLogOnly_keeps, true_and]
    exact ⟨hattempts, hlineA, hlineB⟩
  · exact ⟨rfl, hattempts, hlineA, hlineB⟩

/-! ## A step that passes (R605, R607, R609, R617) -/

section
variable {dt : Nat} {r : StepResult} {s : State}

theorem exec_startStepComplete {n : Nat} (h : stepRuns n s = true) (hn : r.step = n) :
    exec (.startStepComplete dt r) s = .next (stepDone r (begin_ dt s)) :=
  have hruns : stepRuns r.step (begin_ dt s) = true := hn ▸ h
  congrArg Host.Outcome.next (if_pos hruns)

theorem stepDone_first (h : r.step = 1) :
    stepDone r s = if r.ok then modSys (fun y => { y with step := 2 }) s else startFailed 1 s := by
  simp [stepDone, h]

theorem stepDone_second (h : r.step = 2) : stepDone r s = endStep2 s := by simp [stepDone, h]

theorem stepDone_third (h : r.step = 3) : stepDone r s = endStep3 r.logOk s := by simp [stepDone, h]

theorem stepDone_fourth (h : r.step = 4) : stepDone r s = if r.ok then endStep4 s else startFailed 4 s := by
  simp [stepDone, h]

theorem stepDone_fifth (h : r.step = 5) :
    stepDone r s = afterMemory (modSys (fun y => { y with step5Done := true }) (startSelfTest r.pairFail s)) := by
  simp [stepDone, h]

theorem stepDone_sixth (h : r.step = 6) : stepDone r s = endStep6 r.corrupt s := by simp [stepDone, h]

end

theorem stagedAtStart_cause (s : State) : (stagedAtStart s).2.sys.cause = s.sys.cause := by
  unfold stagedAtStart
  (repeat' split) <;> rfl

theorem runningAtStart_cause (s : State) : (runningAtStart s).2.sys.cause = s.sys.cause := by
  unfold runningAtStart
  (repeat' split) <;> rfl

theorem patchCheck_cause (s : State) : (patchCheck s).2.sys.cause = s.sys.cause := by
  unfold patchCheck
  split
  · rfl
  · exact (runningAtStart_cause _).trans (stagedAtStart_cause s)

theorem raise_sys (code : Nat) (param : List Byte) (s : State) : (raise code param s).sys = s.sys := by simp

theorem startEvents_cause (c : Option Nat) (s : State) : (startEvents c s).sys.cause = s.sys.cause := by
  unfold startEvents
  dsimp only
  (repeat' split) <;> simp [modSys]

theorem endStep2_sys (s : State) :
    (endStep2 s).sys.step = (if s.sys.cause = 1 then 6 else 3) ∧ (endStep2 s).sys.resetHold = false := by
  have hsys : (bypassedEvents (startEvents (patchCheck s).1 (patchCheck s).2)).sys.cause = s.sys.cause := by
    rw [sys_of_outside ((bypassedEvents_outside _ _).mpr (onlyWrites_refl _ _)), startEvents_cause, patchCheck_cause]
  refine ⟨?_, rfl⟩
  rw [← hsys]
  rfl

theorem endStep3_step (logOk : Bool) (s : State) : (endStep3 logOk s).sys.step = (if s.sys.cause = 3 then 5 else 4) := by
  have hlog : (if logOk then s else logLost { s with swc := { s.swc with banks := Swc.reset.banks } }).sys = s.sys := by
    split
    · rfl
    · exact sys_of_outside ((logLost_outside _ _).mpr (by simp [onlyWrites_refl, outside]))
  have hrepair (l : List MemPlace) (u : State) : (forEach l (fun p s => repairPlace p true s) u).sys = u.sys :=
    forEach_keeps State.sys _ (fun p s => sys_of_outside (by simp [onlyWrites_refl, outside])) l u
  unfold endStep3
  dsimp only
  rw [modSys, hrepair, hlog]

theorem endStep4_sys (s : State) :
    (endStep4 s).sys.step4Done = true ∧ (endStep4 s).lsk.work = [] ∧
    (endStep4 s).sys.step = (if s.sys.step5Done then 6 else 5) := by
  refine ⟨rfl, rfl, ?_⟩
  simp [endStep4, afterMemory, modSys]

theorem stepDone_fifth_sys (failed : List (Fin 5)) (s : State) :
    (afterMemory (modSys (fun y => { y with step5Done := true }) (startSelfTest failed s))).sys.step5Done = true ∧
    (afterMemory (modSys (fun y => { y with step5Done := true }) (startSelfTest failed s))).sys.step =
      (if s.sys.step4Done || s.sys.cause = 3 then 6 else s.sys.step) := by
  have hsys : (startSelfTest failed s).sys = s.sys :=
    sys_of_outside ((startSelfTest_outside _ _ _).mpr (onlyWrites_refl _ _))
  refine ⟨rfl, ?_⟩
  simp only [afterMemory, modSys, hsys]
  cases s.sys.step4Done <;> simp

theorem endStep6_sys (corrupt : List Nat) (s : State) :
    (endStep6 corrupt s).sys.ready = true ∧ ((endStep6 corrupt s).sys.step = 7 ∨ (endStep6 corrupt s).sys.step = 8) ∧
    (endStep6 corrupt s).sys.readyClk = s.clk := by
  have hsys : ∃ y : Sys, ∃ b : Bool, (endStep6 corrupt s).sys =
      { y with step := if b then 8 else 7, ready := true, readyClk := s.clk } := by
    unfold endStep6
    dsimp only
    rw [sys_of_outside ((startAttached_outside _ _).mpr ((startLinks_outside _ _).mpr (onlyWrites_refl _ _)))]
    dsimp only
    rw [sys_of_outside ((startSteep_outside _ _).mpr (onlyWrites_refl _ _)), raise_sys]
    exact ⟨_, _, rfl⟩
  obtain ⟨y, b, hsys⟩ := hsys
  rw [hsys]
  refine ⟨rfl, ?_, rfl⟩
  cases b
  · exact .inl rfl
  · exact .inr rfl

/-- R606: the start tried again 1 s after it failed. -/
theorem exec_startRetry {dt : Nat} {s : State} (hpower : s.sys.powered = true) (hheld : s.sys.heldInReset = true)
    (honce : s.sys.attempts = 1) (hdue : s.sys.startClk + secT 1 ≤ s.clk + dt) :
    exec (.startRetry dt) s = .next (beginStart s.sys.cause (begin_ dt s)) := by
  have hdue' : (begin_ dt s).sys.startClk + secT 1 ≤ (begin_ dt s).clk := hdue
  have hdec := decide_eq_true hdue'
  have honce' : (begin_ dt s).sys.attempts = 1 := honce
  have hpower' : (begin_ dt s).sys.powered = true := hpower
  have hheld' : (begin_ dt s).sys.heldInReset = true := hheld
  have hexec : exec (.startRetry dt) s = execStartRetry dt s := rfl
  rw [hexec, execStartRetry, hpower', hheld', honce', hdec]
  rfl

end Sys2Proof.Machine
end

section
/-! PROOFS. The statement of spec/14_bring_up.md about the start. -/

open Sys2Proof Sys2Proof.Machine

/-- Settles O19: each step by what it leaves in the system registers. -/
theorem startCommandsComplete : Obligations.StartCommandsComplete := by
  intro dt s _
  refine ⟨?_, ?_, ?_, ?_, ?_, ?_, ?_, ?_, ?_, ?_, ?_⟩
  · intro p hpower hdev
    have hmay : mayPower s = true := by simp [mayPower, hpower, hdev]
    obtain ⟨h1, h2, h3, h4, h5, hcause, h7⟩ := powerGood_registers p (begin_ dt s)
    refine ⟨exec_powerGood hmay, _, exec_powerGood hmay, h1, h2, h3, h4, h5, fun hkiln => ?_, h7⟩
    have hkiln' : (begin_ dt s).sys.kilnWake = none := hkiln
    rw [hcause, hkiln']
    rfl
  · intro p w hpower hdev hkiln
    have hmay : mayPower s = true := by simp [mayPower, hpower, hdev, hkiln]
    obtain ⟨h1, -, -, h4, -, hcause, h7, -⟩ := powerGood_registers p (begin_ dt s)
    have hkiln' : (begin_ dt s).sys.kilnWake = some w := hkiln
    exact ⟨_, exec_powerGood hmay, h1, h4, by rw [hcause, hkiln']; rfl, h7⟩
  · intro r h hstep hok
    rw [exec_startStepComplete h hstep, stepDone_first hstep, hok]
    rfl
  · intro r h hstep hok
    have hexec : exec (.startStepComplete dt r) s = .next (startFailed 1 (begin_ dt s)) := by
      rw [exec_startStepComplete h hstep, stepDone_first hstep, hok]
      rfl
    exact ⟨hexec, _, hexec, startFailed_held 1 (begin_ dt s)⟩
  · intro r h hstep
    exact ⟨_, (exec_startStepComplete h hstep).trans (congrArg _ (stepDone_second hstep)), endStep2_sys (begin_ dt s)⟩
  · intro r h hstep
    exact ⟨_, (exec_startStepComplete h hstep).trans (congrArg _ (stepDone_third hstep)), endStep3_step _ (begin_ dt s)⟩
  · intro r h hstep hok
    refine ⟨_, (exec_startStepComplete h hstep).trans (congrArg _ ((stepDone_fourth hstep).trans (if_pos hok))), ?_⟩
    exact endStep4_sys (begin_ dt s)
  · intro r h hstep hok
    refine ⟨_, (exec_startStepComplete h hstep).trans (congrArg _ ((stepDone_fourth hstep).trans (if_neg ?_))), ?_⟩
    · simp [hok]
    · exact startFailed_held 4 (begin_ dt s)
  · intro r h hstep
    exact ⟨_, (exec_startStepComplete h hstep).trans (congrArg _ (stepDone_fifth hstep)),
      stepDone_fifth_sys r.pairFail (begin_ dt s)⟩
  · intro r h hstep
    exact ⟨_, (exec_startStepComplete h hstep).trans (congrArg _ (stepDone_sixth hstep)), endStep6_sys _ (begin_ dt s)⟩
  · exact fun hpower hheld honce hdue => exec_startRetry hpower hheld honce hdue

end

section
/-! PROOFS. Power domains, Park and Kiln and the wakes (spec/15). -/

namespace Sys2Proof.Machine

/-! ## A domain's state (R632–R636) -/

section
variable {dt : Nat} {d : Fin 12} {s : State}

theorem setDoms_one_self {n : DomSt} {d : Nat} (h : d < s.pwr.doms.length) :
    (setDoms [(d, n)] s).pwr.doms.getD d .off = n := getD_updAt_self _ _ _ _ h

theorem pwrCount_doms (i : Nat) (s : State) : (pwrCount i s).pwr.doms = s.pwr.doms ∧ (pwrCount i s).pwr.idle = s.pwr.idle :=
  ⟨rfl, rfl⟩

theorem enterDom_self {n : DomSt} {d : Nat} (h : d < s.pwr.doms.length) :
    (enterDom d n s).pwr.doms.getD d .off = n := by
  have hset := setDoms_one_self (n := n) h
  unfold enterDom
  dsimp only
  split
  next hsame => exact hsame.symm
  · cases n <;> exact hset

theorem enterDom_idle (d : Nat) (n : DomSt) (s : State) : (enterDom d n s).pwr.idle = s.pwr.idle := by
  unfold enterDom
  dsimp only
  split
  · rfl
  · cases n <;> rfl

/-- How far ahead the domain's next event lies: the one it told of, where that has not passed, or the instant (R634). -/
def eventAhead (d : Nat) (s : State) : Nat :=
  match s.pwr.nextAt.getD d none with
  | some c => if c < s.clk then nextInstant s - s.now else min (c - s.clk) (nextInstant s - s.now)
  | none => nextInstant s - s.now

theorem eventAhead_none {d : Nat} (h : s.pwr.nextAt.getD d none = none) : eventAhead d s = nextInstant s - s.now := by
  rw [eventAhead, h]

theorem eventAhead_told {d k : Nat} (h : s.pwr.nextAt.getD d none = some (s.clk + k)) :
    eventAhead d s = min k (nextInstant s - s.now) := by
  have hnot : ¬ s.clk + k < s.clk := by omega
  have hk : s.clk + k - s.clk = k := by omega
  rw [eventAhead, h]
  simp only [hnot, hk, if_false]

/-- The state chosen for a domain of a node in service that is not off. -/
theorem chooseDom_on {d : Nat} (hrun : s.pwr.dev = .run) (hon : s.pwr.doms.getD d .off ≠ .off) :
    chooseDom d s = enterDom d (if s.pwr.idle.getD d false && mayIdle d s then
      domFit (min (domLimit d) (s.pwr.deepest.getD d 2)) (eventAhead d s) else .run) s := by
  have hrun' : inRun s = true := by simp [inRun, hrun]
  have hstays : ∀ b : Bool, b = false → (if b || !inRun s then s else
      enterDom d (if s.pwr.idle.getD d false && mayIdle d s then
        domFit (min (domLimit d) (s.pwr.deepest.getD d 2)) (eventAhead d s) else .run) s) =
      enterDom d (if s.pwr.idle.getD d false && mayIdle d s then
        domFit (min (domLimit d) (s.pwr.deepest.getD d 2)) (eventAhead d s) else .run) s := by
    rintro _ rfl
    rw [hrun']
    rfl
  refine hstays (match s.pwr.doms.getD d .off with | .off => true | _ => false) ?_
  split
  · exact absurd ‹_› hon
  · rfl

/-- The power manager told of a domain's idleness and of its next known event. -/
def idleTold (d : Nat) (idle : Bool) (next : Option Nat) (s : State) : State :=
  modPwr (fun p => { p with
    idle := updAt p.idle d (fun _ => idle), nextAt := updAt p.nextAt d (fun _ => next.map (fun t => s.clk + t)) }) s

theorem exec_powerDomainIdle {idle : Bool} {next : Option Nat} :
    exec (.powerDomainIdle dt d idle next) s = .next (chooseDom d (idleTold d idle next (begin_ dt s))) := rfl

theorem mayIdle_idleTold {idle : Bool} {next : Option Nat} (d' : Nat) :
    mayIdle d' (idleTold d idle next (begin_ dt s)) = mayIdle d' s := rfl

theorem idleTold_idle {idle : Bool} {next : Option Nat} (h : d.val < s.pwr.idle.length) (x : Bool) :
    (idleTold d idle next (begin_ dt s)).pwr.idle.getD d x = idle := getD_updAt_self _ _ _ _ h

theorem idleTold_nextAt {idle : Bool} {next : Option Nat} (h : d.val < s.pwr.nextAt.length) :
    (idleTold d idle next (begin_ dt s)).pwr.nextAt.getD d none = next.map (fun t => s.clk + dt + t) :=
  getD_updAt_self _ _ _ _ h

/-- R634, R635: what is chosen for a domain that has just told of itself. -/
theorem chooseDom_told {idle : Bool} {next : Option Nat} (hs : Sound s) (hrun : s.pwr.dev = .run)
    (hon : s.pwr.doms.getD d.val .off ≠ .off) :
    (chooseDom d (idleTold d idle next (begin_ dt s))).pwr.doms.getD d .off =
      (if (idleTold d idle next (begin_ dt s)).pwr.idle.getD d false && mayIdle d s then
        domFit (min (domLimit d) (s.pwr.deepest.getD d 2)) (eventAhead d (idleTold d idle next (begin_ dt s)))
      else .run) := by
  have hlen : d.val < (idleTold d idle next (begin_ dt s)).pwr.doms.length := by
    have hdoms : d.val < s.pwr.doms.length := hs.doms.symm ▸ d.isLt
    exact hdoms
  rw [chooseDom_on (s := idleTold d idle next (begin_ dt s)) hrun hon, enterDom_self hlen, mayIdle_idleTold]
  rfl

theorem chooseDom_idle (d : Nat) (s : State) : (chooseDom d s).pwr.idle = s.pwr.idle := by
  simp only [chooseDom, apply_ite (fun t : State => t.pwr.idle), enterDom_idle, ite_self]

theorem wakeDom_on {d : Nat} (h : s.pwr.doms.getD d .off ≠ .off) : wakeDom d s = setDoms [(d, .run)] s := by
  unfold wakeDom
  split
  · exact absurd ‹_› h
  · rfl

theorem exec_asyncDomainWake {k : Nat} (h : s.pwr.doms.getD d.val .off ≠ .off) :
    exec (.asyncDomainWake dt d (some k)) s = .next (setDoms [(d.val, .run)]
      (if k < wakeLatency d.val s then pwrCount 4 (begin_ dt s) else begin_ dt s)) := by
  have hexec : exec (.asyncDomainWake dt d (some k)) s =
      .next (wakeDom d.val (if decide (k < wakeLatency d.val s) then pwrCount 4 (begin_ dt s) else begin_ dt s)) := rfl
  have hon : (if decide (k < wakeLatency d.val s) then pwrCount 4 (begin_ dt s) else begin_ dt s).pwr.doms.getD d.val .off
      ≠ .off := by
    split <;> exact h
  rw [hexec, wakeDom_on hon]
  simp only [decide_eq_true_eq]

end

/-! ## Entry to Park and Kiln (R638–R640) -/

/-- Whether frames are kept from being forwarded survives what leaves the trunk beside its ports alone. -/
theorem stopForward_of_beside {s t : State} (h : beside t = beside s) : t.trunk.stopForward = s.trunk.stopForward :=
  (congrArg (fun x : Trunk => x.stopForward) h : (beside t).stopForward = (beside s).stopForward)

@[simp] theorem portPolicy_beside (pol p : Nat) (s : State) : beside (portPolicy pol p s) = beside s := by
  unfold portPolicy; dsimp only; (repeat' split) <;> simp [portToDetect, portRole]

theorem applyPolicy_stopForward (d pol : Nat) (s : State) :
    (applyPolicy d pol s).trunk.stopForward = s.trunk.stopForward :=
  stopForward_of_beside (s := modTrunk (fun t => { t with policy := updAt t.policy d (fun _ => pol) }) s)
    (forEach_beside _ _ _ fun _ _ => portPolicy_beside _ _ _)

theorem queuedPolicy_stopForward (d : Nat) (s : State) : (queuedPolicy d s).trunk.stopForward = s.trunk.stopForward := by
  unfold queuedPolicy
  split
  · split
    · rfl
    · exact applyPolicy_stopForward _ _ _
  · rfl

@[simp] theorem portRetrain_beside (p : Nat) (s : State) : beside (portRetrain p s) = beside s := by
  unfold portRetrain portToDetect; dsimp only; split <;> simp

theorem trunkEnterSteep_stopForward (s : State) : (trunkEnterSteep s).trunk.stopForward = s.trunk.stopForward := by
  have hports : beside (trunkEnterSteep s) = beside (queuedPolicy 1 (queuedPolicy 0 s)) := by
    unfold trunkEnterSteep
    dsimp only
    rw [finishQueued_beside, forEach_beside _ _ _ fun p s => ?_, finishQueued_beside]
    split <;> simp
  rw [stopForward_of_beside hports, queuedPolicy_stopForward, queuedPolicy_stopForward]

theorem leaveMaster_beside (s : State) : beside (leaveMaster s) = beside s := by
  unfold leaveMaster; split <;> simp

theorem mismatchOnce_beside (p : Nat) (s : State) : beside (mismatchOnce p s) = beside s :=
  beside_of_writes (w := [.emit, .cmd, .ina, .flow, .vec]) (by simp [onlyWrites_refl]) (by decide)

theorem enterSteep_stopForward (s : State) : (enterSteep s).trunk.stopForward = s.trunk.stopForward := by
  have hbefore : ∀ (c : Bool) (u : State), beside (twinLeave (forEach (List.range 4) (fun p s => modPort p steepQueues s)
      (if c then leaveMaster u else u))) = beside u := fun c u => by
    rw [twinLeave_beside, forEach_beside _ _ _ fun _ _ => modPort_beside _ _ _]
    cases c
    · rfl
    · exact leaveMaster_beside u
  unfold enterSteep
  dsimp only
  split
  · rw [trunkEnterSteep_stopForward, stopForward_of_beside (hbefore _ _)]
    rfl
  · rw [stopForward_of_beside (mismatchOnce_beside _ _), trunkEnterSteep_stopForward, stopForward_of_beside (hbefore _ _)]
    rfl

theorem parkedEvent_keeps (kiln : Bool) (s : State) : OnlyWrites [.emit, .cmd, .flow, .vec, .pwr] s (parkedEvent kiln s) := by
  simp [onlyWrites_refl]

/-- The node in Steep, its entry to Park told, its frames not forwarded. -/
def parking (s : State) : State :=
  parkedEvent false (enterSteep (modTrunk (fun t => { t with stopForward := true, seq := none }) s))

theorem parking_steep (s : State) : (parking s).ina.st = .steep := by
  rw [parking, parkedEvent_keeps _ _ .ina (by decide), enterSteep_st]

theorem parking_stopForward (s : State) : (parking s).trunk.stopForward = true := by
  rw [parking, parkedEvent_keeps _ _ .trunk (by decide), enterSteep_stopForward]
  rfl

theorem openLine_keeps (line : Line) (s : State) :
    (openLine line s).ina = s.ina ∧ (openLine line s).trunk.stopForward = s.trunk.stopForward := by
  have hina : OnlyWrites [.emit, .cmd, .trunk, .flow, .vec] s (openLine line s) := by simp [onlyWrites_refl]
  refine ⟨hina .ina (by decide), ?_⟩
  have h := congrArg Trunk.stopForward (openLine_beside line s)
  cases line <;> exact h

/-- The switches opened that stand closed. -/
def parkLines (u : State) : State :=
  let v := if u.trunk.lineA.closed then openLine .a u else u
  if v.trunk.lineB.closed then openLine .b v else v

theorem parkLines_keeps (u : State) :
    (parkLines u).ina = u.ina ∧ (parkLines u).trunk.stopForward = u.trunk.stopForward := by
  have hopen (c : Bool) (line : Line) (u : State) : (if c then openLine line u else u).ina = u.ina ∧
      (if c then openLine line u else u).trunk.stopForward = u.trunk.stopForward := by
    cases c
    · exact ⟨rfl, rfl⟩
    · exact openLine_keeps line u
  unfold parkLines
  dsimp only
  rw [(hopen _ _ _).1, (hopen _ _ _).2, (hopen _ _ _).1, (hopen _ _ _).2]
  exact ⟨rfl, rfl⟩

/-- The blocks that Park turns off. -/
def parkBlocks (u : State) : State :=
  modPwr (fun p => { p with dev := .park, wakeBits := 0 }) (setDoms [(0, .run), (1, .nap), (2, .off), (3, .off), (4, .nap),
    (5, .off), (6, .run), (7, .off), (8, .off), (9, .run), (10, .run), (11, .off)]
    (forEach (List.range 12) (fun c s => if canCtl (canOf s c) 13 then canApplyMode c 6 s else s)
      (quietBuses (forEach (List.range 4) holdPair u))))

theorem parkBlocks_keeps (u : State) : OnlyWrites [.lsk, .can, .shadows, .mvb, .pwr, .emit, .free] u (parkBlocks u) := by
  simp [parkBlocks, onlyWrites_refl]

theorem enterPark_eq (s : State) :
    enterPark s = parkBlocks (forEach (List.range 4) portToListen (parkLines (parking s))) := by
  unfold enterPark parkBlocks parkLines parking
  rfl

/-- An entry to Park leaves the inauguration in Steep and the forwarding stopped. -/
theorem enterPark_keeps (s : State) : (enterPark s).ina.st = .steep ∧ (enterPark s).trunk.stopForward = true := by
  have hports (u : State) : beside (forEach (List.range 4) portToListen u) = beside u :=
    forEach_beside _ _ _ fun _ _ => modPort_beside _ _ _
  have hportsIna (u : State) : (forEach (List.range 4) portToListen u).ina = u.ina :=
    forEach_keeps State.ina portToListen (fun _ _ => rfl) _ u
  obtain ⟨hina, hstop⟩ := parkLines_keeps (parking s)
  rw [enterPark_eq, parkBlocks_keeps _ .ina (by decide), parkBlocks_keeps _ .trunk (by decide), hportsIna,
    stopForward_of_beside (hports _), hina, hstop]
  exact ⟨parking_steep s, parking_stopForward s⟩

theorem entryDue_iff {kiln : Bool} {s : State} (h : entryDue kiln s = true) : ∃ c late, s.pwr.pend = some (kiln, c, late) := by
  unfold entryDue at h
  split at h
  next k c late hp =>
    obtain ⟨hk, -⟩ := Bool.and_eq_true_iff.mp h
    exact ⟨c, late, by rw [hp, eq_of_beq hk]⟩
  · cases h

theorem parkDue_of_kilnDue {s : State} (h : kilnDue s = true) : parkDue s = false := by
  obtain ⟨-, hk⟩ := Bool.and_eq_true_iff.mp h
  obtain ⟨c, late, hp⟩ := entryDue_iff hk
  simp [parkDue, entryDue, hp]

theorem endsAtInstant_park {s : State} (hpower : s.sys.powered = true) (hnoReset : s.sys.resetPending = none)
    (h : parkDue s = true) : endsAtInstant s = enterPark s := by
  simp [endsAtInstant, hpower, resetDue, hnoReset, h]

theorem endsAtInstant_kiln {s : State} (hpower : s.sys.powered = true) (hnoReset : s.sys.resetPending = none)
    (h : kilnDue s = true) : endsAtInstant s = enterKiln s := by
  simp [endsAtInstant, hpower, resetDue, hnoReset, h, parkDue_of_kilnDue h]

/-- Without power but for PD0 every domain is off. -/
theorem powerOff_doms {dev : DevSt} {s : State} {d : Nat} (hd : 1 ≤ d) : (powerOff dev s).pwr.doms.getD d .off = .off := by
  have hoff : (s.pwr.doms.map (fun _ => DomSt.off)).getD d .off = .off := by
    rw [List.getD_eq_getElem?_getD, List.getElem?_map]
    cases s.pwr.doms[d]? <;> rfl
  exact (getD_updAt_ne _ 0 d _ _ (by omega)).trans hoff

/-! ## Wakes (R641–R643) -/

section
variable {src : Nat} {port : Option (Fin 4)} {s : State}

theorem forwardWake_keeps (port : Option (Fin 4)) (s : State) : OnlyWrites [.emit] s (forwardWake port s) := by
  simp [onlyWrites_refl]

/-- The node awake by a source, the wake passed on. -/
def woken (src : Nat) (port : Option (Fin 4)) (s : State) : State :=
  forwardWake port (modPwr (fun p => { p with wakeBits := 1#5 <<< src, lastWake := 1#5 <<< src }) s)

theorem wakeIn_park (hidle : s.pwr.wakeBits = 0) (hen : wakeEnabled src s = true) (hdev : s.pwr.dev = .park) :
    wakeIn src port s = woken src port s := by
  have hkiln : inKiln s = false := by simp [inKiln, hdev]
  simp [wakeIn, hidle, hen, hkiln, woken]

theorem wakeIn_kiln (hidle : s.pwr.wakeBits = 0) (hen : wakeEnabled src s = true) (hdev : s.pwr.dev = .kiln) :
    wakeIn src port s =
      { woken src port s with sys := { (woken src port s).sys with kilnWake := some ((1#5 <<< src).setWidth 8) } } := by
  have hkiln : inKiln s = true := by simp [inKiln, hdev]
  simp [wakeIn, hidle, hen, hkiln, woken]

theorem woken_pwr : (woken src port s).pwr = { s.pwr with wakeBits := 1#5 <<< src, lastWake := 1#5 <<< src } :=
  forwardWake_keeps _ _ .pwr (by decide)

theorem wakeEnabled_park (hdev : s.pwr.dev = .park) (hsrc : s.pwr.wakePark.getLsbD src = true)
    (halarm : src = 3 → s.pwr.alarm ≠ 0 ∧ s.pwr.alarm ≤ s.now) (hcan : src = 4 → canWakes s = true) :
    wakeEnabled src s = true := by
  have hpark : inPark s = true := by simp [inPark, hdev]
  simp only [wakeEnabled, hpark, hsrc, if_true, Bool.true_and, Bool.and_eq_true, Bool.or_eq_true, decide_eq_true_eq]
  exact ⟨or_iff_not_imp_left.mpr fun h => halarm (not_not.mp h), or_iff_not_imp_left.mpr fun h => hcan (not_not.mp h)⟩

theorem wakeEnabled_kiln (hdev : s.pwr.dev = .kiln) (hsrc : s.pwr.wakeKiln.getLsbD src = true) (hnot : src ≠ 1)
    (halarm : src = 3 → s.pwr.alarm ≠ 0 ∧ s.pwr.alarm ≤ s.now) (hcan : src = 4 → canWakes s = true) :
    wakeEnabled src s = true := by
  have hpark : inPark s = false := by simp [inPark, hdev]
  have hkiln : inKiln s = true := by simp [inKiln, hdev]
  simp only [wakeEnabled, hpark, hkiln, hsrc, decide_eq_true hnot, Bool.false_eq_true, if_false, Bool.true_and,
    Bool.and_eq_true, Bool.or_eq_true, decide_eq_true_eq]
  exact ⟨or_iff_not_imp_left.mpr fun h => halarm (not_not.mp h), or_iff_not_imp_left.mpr fun h => hcan (not_not.mp h)⟩

/-- In Park a wake without a port of its own goes to every port and to the twin. -/
theorem woken_park_emit (hdev : s.pwr.dev = .park) (hextest : s.sys.extest = false) :
    (woken src none s).emit = s.emit ++ [.wakePort 0, .wakePort 1, .wakePort 2, .wakePort 3, .wakeTwin 0, .wakeTwin 1] := by
  have hpark : inPark (modPwr (fun p => { p with wakeBits := 1#5 <<< src, lastWake := 1#5 <<< src }) s) = true := by
    simp [inPark, modPwr, hdev]
  rw [woken, forwardWake, if_pos hpark]
  exact emits_sent (s := modPwr (fun p => { p with wakeBits := 1#5 <<< src, lastWake := 1#5 <<< src }) s) hextest _

end

theorem canLoadOne_beside (c : Nat) (s : State) : beside (canLoadOne c s) = beside s :=
  beside_of_writes (w := [.can, .free, .emit]) (by simp [onlyWrites_refl]) (by decide)

/-- The blocks that were off come back and leave the trunk, apart from its ports, and the power manager alone. -/
theorem wakeBlocks_beside (s : State) : beside (wakeBlocks s) = beside s := by
  have hpairs (u : State) : beside (startPairs u) = beside u :=
    beside_of_writes (w := [.lsk, .can, .shadows]) (by simp [startPairs, onlyWrites_refl]) (by decide)
  have hflows (u : State) : beside (loadFlows u) = beside u :=
    beside_of_writes (w := [.emit, .cmd, .flow, .can, .mvb, .vec, .shelf]) (by simp [loadFlows, onlyWrites_mk]) (by decide)
  have hswc (u : State) : beside (swcLoad u) = beside u := by unfold swcLoad; split <;> rfl
  have hmvb (g : Nat) (u : State) : beside (mvbLoad g u) = beside u :=
    beside_of_writes (w := [.emit, .cmd, .flow, .mvb, .vec]) (by unfold mvbLoad; split <;> simp [onlyWrites_refl]) (by decide)
  unfold wakeBlocks
  dsimp only
  rw [hpairs, hflows, beside_mk, portless_fold, bridgeNodeReset_beside, hswc, swcNodeReset_beside,
    forEach_beside _ _ _ fun g u => (hmvb g _).trans (mvbNodeReset_beside g u),
    forEach_beside _ _ _ fun c u => (canLoadOne_beside c _).trans (canNodeReset_beside c u),
    forEach_beside _ _ _ pairNodeReset_beside, sessionsReset_beside]

/-- What coming back from Park may write of a node, its power manager not among it. -/
def wakeWrites : List Block :=
  [.free, .emit, .cmd, .trunk, .sched, .flow, .lsk, .can, .mvb, .swc, .fab, .bridge, .vec, .shelf, .shadows]

theorem readDone_keeps (S : State) (o : Outbound) (data : List Byte) (s : State) :
    OnlyWrites wakeWrites S (readDone o data s) ↔ OnlyWrites wakeWrites S s := by
  unfold readDone
  (repeat' split) <;> simp [wakeWrites]

theorem failOutbound_keeps (S : State) (code : Nat) (o : Outbound) (s : State) :
    OnlyWrites wakeWrites S (failOutbound code o s) ↔ OnlyWrites wakeWrites S s := by
  unfold failOutbound
  split
  · exact (readDone_keeps S o _ _).trans (by simp [wakeWrites])
  · split <;> simp [wakeWrites, pwFail]

theorem bridgeNodeReset_keeps (S s : State) : OnlyWrites wakeWrites S (bridgeNodeReset s) ↔ OnlyWrites wakeWrites S s := by
  have hfail (l : List Outbound) (u : State) :
      OnlyWrites wakeWrites S (forEach l (fun o s => failOutbound 6 o s) u) ↔ OnlyWrites wakeWrites S u :=
    forEach_writes _ _ _ _ _ fun o u => failOutbound_keeps S 6 o u
  have hanswer (l : List (BridgeFrame × Nat × Bool)) (u : State) :
      OnlyWrites wakeWrites S (forEach l (fun e s => bridgeAnswer 6 [] e.1 s) u) ↔ OnlyWrites wakeWrites S u :=
    forEach_writes _ _ _ _ _ fun e u => by simp [bridgeAnswer, wakeWrites]
  have hfree (u : State) : OnlyWrites wakeWrites S (semOwnFree u) ↔ OnlyWrites wakeWrites S u := by
    simp [semOwnFree, wakeWrites]
  have hmod (f : Bridge → Bridge) (u : State) : OnlyWrites wakeWrites S (modBridge f u) ↔ OnlyWrites wakeWrites S u := by
    simp [wakeWrites]
  unfold bridgeNodeReset
  dsimp only
  rw [hfree, hmod, hanswer, hfail, hmod]

theorem wakeBlocks_pwr (s : State) : (wakeBlocks s).pwr = s.pwr := by
  have hpairs (u : State) : OnlyWrites wakeWrites s (startPairs u) ↔ OnlyWrites wakeWrites s u := by
    simp [startPairs, wakeWrites]
  have hrun (l : List (Nat × FlowCtx)) (u : State) : OnlyWrites wakeWrites s
      (forEach l (fun e s => modRun e.1 (fun r => safeStart e.2 (validClear r)) s) u) ↔ OnlyWrites wakeWrites s u :=
    forEach_writes _ _ _ _ _ fun e u => by simp [wakeWrites]
  have hflows (u : State) : OnlyWrites wakeWrites s (loadFlows u) ↔ OnlyWrites wakeWrites s u := by
    rw [loadFlows, judgeContexts_writes _ _ _ (by decide) (by decide) (by decide) (by decide) (by decide) (by decide), hrun]
    rw [onlyWrites_mk, onlyWrites_parts]
    simp [wakeWrites]
  have hreset (l : List Nat) (u : State) :
      OnlyWrites wakeWrites s (forEach l pairNodeReset u) ↔ OnlyWrites wakeWrites s u :=
    forEach_writes _ _ _ _ _ fun l u => by simp [pairNodeReset, wakeWrites]
  have hcan (l : List Nat) (u : State) :
      OnlyWrites wakeWrites s (forEach l (fun c s => canLoadOne c (canNodeReset c s)) u) ↔ OnlyWrites wakeWrites s u :=
    forEach_writes _ _ _ _ _ fun c u => by simp [canNodeReset, wakeWrites]
  have hmvb (l : List Nat) (u : State) :
      OnlyWrites wakeWrites s (forEach l (fun g s => mvbLoad g (mvbNodeReset g s)) u) ↔ OnlyWrites wakeWrites s u :=
    forEach_writes _ _ _ _ _ fun g u => by unfold mvbLoad; split <;> simp [wakeWrites, mvbNodeReset]
  have hswc (u : State) : OnlyWrites wakeWrites s (swcLoad (swcNodeReset u)) ↔ OnlyWrites wakeWrites s u := by
    unfold swcLoad
    split <;> simp [wakeWrites, swcNodeReset]
  have hsessions : OnlyWrites wakeWrites s (sessionsReset s) := by simp [sessionsReset, wakeWrites, onlyWrites_refl]
  have h : OnlyWrites wakeWrites s (wakeBlocks s) := by
    unfold wakeBlocks
    dsimp only
    rw [hpairs, hflows, upd_flow _ _ _ _ (by decide), bridgeNodeReset_keeps, hswc, hmvb, hcan, hreset]
    exact hsessions
  exact h .pwr (by decide)

/-- R643: the state in which a node woken from Park brings its blocks back. -/
def wakeBegun (s : State) : State :=
  { s with
    sys := { s.sys with readyClk := s.clk }
    ina := { s.ina with quietClk := none }
    pwr := { s.pwr with dev := .run, wakeBits := 0, doms := s.pwr.doms.map (fun _ => DomSt.run) }
    trunk := passiveEnd s.trunk }

theorem parkWake_eq (s : State) : parkWake s = raise 0x0C04 (leBytes 1 0 ++ [s.pwr.wakeBits.setWidth 8])
    (fabStartLinks (bypassedEvents (startPorts (wakeBlocks (wakeBegun s))))) := rfl

theorem bypassedEvents_keeps (s : State) : OnlyWrites [.emit, .cmd, .flow, .vec] s (bypassedEvents s) := by
  unfold bypassedEvents
  refine (forEach_writes _ _ _ _ _ fun p s => ?_).mpr (onlyWrites_refl _ _)
  split <;> simp

/-- R643: the node is in Run again, and forwards. -/
theorem parkWake_run (s : State) :
    (parkWake s).pwr.dev = .run ∧ (parkWake s).pwr.wakeBits = 0 ∧ (parkWake s).trunk.stopForward = false := by
  have hports (u : State) : beside (startPorts u) = beside u := forEach_beside _ _ _ fun _ _ => rfl
  have hlinks (u : State) : OnlyWrites [.emit, .cmd, .flow, .fab, .vec] u (fabStartLinks u) := by
    simp [fabStartLinks, onlyWrites_refl]
  have hraise (code : Nat) (b : List Byte) (u : State) : (raise code b u).pwr = u.pwr := by simp
  have hpwr : (parkWake s).pwr = (wakeBegun s).pwr := by
    rw [parkWake_eq, hraise, hlinks _ .pwr (by decide), bypassedEvents_keeps _ .pwr (by decide),
      startPorts_keeps _ .pwr (by decide), wakeBlocks_pwr]
  have hbeside : beside (parkWake s) = beside (wakeBegun s) := by
    rw [parkWake_eq, raise_beside, beside_of_writes (hlinks _) (by decide),
      beside_of_writes (bypassedEvents_keeps _) (by decide), hports, wakeBlocks_beside]
  rw [hpwr, stopForward_of_beside hbeside]
  exact ⟨rfl, rfl, rfl⟩

/-- An enabled source wakes a node in Park, and is noted as its last. -/
theorem exec_wakeSource_park {dt : Nat} {i : Fin 5} {p : Option (Fin 4)} {s : State} (hdev : s.pwr.dev = .park)
    (hidle : s.pwr.wakeBits = 0) (hen : wakeEnabled i (begin_ dt s) = true) :
    exec (.wakeSource dt i p) s = .next (woken i p (begin_ dt s)) := by
  have hexec : exec (.wakeSource dt i p) s = .next (wakeIn i p (begin_ dt s)) := rfl
  rw [hexec, wakeIn_park (s := begin_ dt s) hidle hen hdev]

theorem exec_parkWakeComplete {dt : Nat} {s : State} (hdev : s.pwr.dev = .park) (hwoken : s.pwr.wakeBits ≠ 0) :
    exec (.parkWakeComplete dt) s = .next (parkWake (begin_ dt s)) := by
  have hpark : inPark (begin_ dt s) = true := by simp [inPark, hdev]
  have hwoken' : decide ((begin_ dt s).pwr.wakeBits ≠ 0) = true := decide_eq_true hwoken
  exact congrArg Host.Outcome.next (if_pos (by rw [hpark, hwoken', Bool.and_self]))

end Sys2Proof.Machine
end

section
/-! PROOFS. The statements of spec/15_power_states.md about domains, Park and Kiln. -/

open Sys2Proof Sys2Proof.Machine

/-- Settles O22: each command by the lemma about the state it makes. -/
theorem powerStateCommandsComplete : Obligations.PowerStateCommandsComplete := by
  intro dt s hs
  refine ⟨?_, ?_, ?_, ?_, ?_, ?_, ?_, ?_, ?_, ?_, ?_, ?_, ?_, ?_, ?_, ?_, ?_⟩
  · intro d x hrun hon hlen
    refine ⟨_, exec_powerDomainIdle, ?_, ?_⟩
    · rw [chooseDom_told hs hrun hon, idleTold_idle hlen]
      rfl
    · rw [chooseDom_idle, idleTold_idle hlen]
  · intro d hrun hon hidle hnext hmay
    refine ⟨_, exec_powerDomainIdle, ?_⟩
    rw [chooseDom_told hs hrun hon, idleTold_idle hidle, hmay, eventAhead_none (idleTold_nextAt hnext)]
    rfl
  · intro d k hrun hon hidle hnext hmay
    refine ⟨_, exec_powerDomainIdle, ?_⟩
    rw [chooseDom_told hs hrun hon, idleTold_idle hidle, hmay, eventAhead_told (idleTold_nextAt hnext)]
    rfl
  · intro d x hrun hon hmay
    refine ⟨_, exec_powerDomainIdle, ?_⟩
    rw [chooseDom_told hs hrun hon, hmay, Bool.and_false]
    rfl
  · exact fun d hon => congrArg Host.Outcome.next (wakeDom_on (s := begin_ dt s) hon)
  · intro d k hon hlate
    rw [exec_asyncDomainWake hon, if_neg (by omega)]
  · intro d k hon hsoon
    rw [exec_asyncDomainWake hon, if_pos hsoon]
  · exact fun hdue hnow => congrArg Host.Outcome.next (instantIf_of_due hdue hnow)
  · exact fun hnot => congrArg Host.Outcome.next (instantIf_of_not_due hnot)
  · intro hpower hreset hdue
    rw [endsAtInstant_park hpower hreset hdue]
    exact ⟨rfl, rfl, rfl, enterPark_keeps s⟩
  · exact fun hdue hnow => congrArg Host.Outcome.next (instantIf_of_due hdue hnow)
  · exact fun hnot => congrArg Host.Outcome.next (instantIf_of_not_due hnot)
  · intro hpower hreset hdue
    rw [endsAtInstant_kiln hpower hreset hdue]
    exact ⟨rfl, rfl, rfl, fun d hd => powerOff_doms hd⟩
  · intro i p hdev hidle hsrc halarm hcan
    have hen := wakeEnabled_park (s := begin_ dt s) hdev hsrc (fun h => halarm (Fin.ext h)) (fun h => hcan (Fin.ext h))
    exact ⟨_, exec_wakeSource_park hdev hidle hen, by rw [woken_pwr], by rw [woken_pwr], by rw [woken_pwr]; exact hdev⟩
  · intro i p hdev hidle hsrc hnot halarm hcan
    have hen := wakeEnabled_kiln (s := begin_ dt s) hdev hsrc (fun h => hnot (Fin.ext h)) (fun h => halarm (Fin.ext h))
      (fun h => hcan (Fin.ext h))
    refine ⟨_, congrArg Host.Outcome.next (wakeIn_kiln (port := p) (s := begin_ dt s) hidle hen hdev), rfl, ?_⟩
    exact (congrArg Pwr.dev woken_pwr).trans hdev
  · intro hdev hidle hsrc
    have hen := wakeEnabled_park (src := 2) (s := begin_ dt s) hdev hsrc (by omega) (by omega)
    refine ⟨_, congrArg Host.Outcome.next (wakeIn_park (port := none) (s := begin_ dt s) hidle hen hdev), ?_, ?_⟩
    · rw [woken_pwr]
      rfl
    · exact fun hextest => woken_park_emit (s := begin_ dt s) hdev hextest
  · intro hdev hwoken
    exact ⟨exec_parkWakeComplete hdev hwoken, _, exec_parkWakeComplete hdev hwoken, parkWake_run _⟩

end

section
/-! PROOFS. A declared loss that a busy port keeps from being told (spec/15). -/

namespace Sys2Proof.Machine

/-- A node riding through an outage, trunk port 0 up and still sending. -/
def ridingBusy : State :=
  { State.reset with
    pwr := { Pwr.reset with dev := .run, supply := .riding }
    trunk := { Trunk.reset with
      ports := updAt Trunk.reset.ports 0 (fun t => { t with st := .up, mode := .ndoelle, busyTill := 1000 }) } }

/-- The loss is declared and no PASSIVE beacon leaves: the only port that is up is busy. -/
theorem ridingBusy_loss {t : State} (h : exec (.lossDeclared 0 1200 7000) ridingBusy = .next t) :
    t.trunk.passiveSent = none := by
  obtain rfl := Host.Outcome.next.inj h
  decide +kernel

end Sys2Proof.Machine
end

section
/-! PROOFS. The statement of spec/15_power_states.md about the supply. -/

open Sys2Proof Sys2Proof.Machine

/-- Refutes O21: a loss declared while the only port that is up still sends has sent no PASSIVE beacon (`ridingBusy`). -/
theorem not_supplyCommandsComplete : ¬ Obligations.SupplyCommandsComplete := by
  intro h
  obtain ⟨-, -, -, -, -, -, hloss, -⟩ := h 0 ridingBusy rfl
  obtain ⟨t, hexec, -, -, hsent, -⟩ := hloss 1200 7000 rfl (by decide) (by decide) (by decide)
  rw [ridingBusy_loss hexec] at hsent
  cases hsent

end

section
/-! PROOFS. Self-repair and background test (spec/16): memory errors, banks, rotation, self-tests, aging and queued stores. -/

namespace Sys2Proof.Machine

/-! ## Lists and blocks -/

theorem getElem?_updAt_self {α : Type} {l : List α} {i : Nat} {f : α → α} {x : α} (h : l[i]? = some x) :
    (updAt l i f)[i]? = some (f x) := by
  induction l generalizing i with
  | nil => simp at h
  | cons y ys ih =>
    cases i with
    | zero => simpa [updAt] using congrArg (Option.map f) h
    | succ i => simpa [updAt] using ih (by simpa using h)

theorem getElem?_updAt_ne {α : Type} {l : List α} {i j : Nat} {f : α → α} (h : i ≠ j) : (updAt l i f)[j]? = l[j]? := by
  induction l generalizing i j with
  | nil => rfl
  | cons y ys ih =>
    cases i with
    | zero =>
      cases j with
      | zero => exact absurd rfl h
      | succ j => rfl
    | succ i =>
      cases j with
      | zero => rfl
      | succ j => simpa [updAt] using ih (by omega)

/-- What a change of a pair leaves of each pair is left of every pair. -/
theorem pairOf_modPair_field {β : Type} (g : Pair → β) {f : Pair → Pair} (h : ∀ p, g (f p) = g p) (i l : Nat)
    (s : State) :
    g (pairOf (modPair i f s) l) = g (pairOf s l) := getD_updAt_field g h _ _ _ _

theorem finishQueued_queued (p : Queued → Bool) (status : Nat) (s : State) :
    (finishQueued p status s).cmd.queued = s.cmd.queued.filter (fun q => !p q) :=
  forEach_keeps (fun s => s.cmd.queued) _ (fun q s => by simp [completeEvent]) _ _

theorem finishQueued_saved (p : Queued → Bool) (status : Nat) (s : State) :
    (finishQueued p status s).flow.saved = s.flow.saved :=
  forEach_keeps (fun s => s.flow.saved) _ (fun q s => by simp [completeEvent]) _ _

/-- Queued commands that end leave every block but the log of events. -/
theorem finishQueued_keeps (p : Queued → Bool) (status : Nat) (s : State) :
    OnlyWrites [.emit, .cmd, .flow, .vec] s (finishQueued p status s) := by
  simp [onlyWrites_refl]

/-! ## Memory errors (R653, R656–R659) -/

section
variable {dt : Nat} {e : MemError} {s : State}

theorem exec_memoryEccError :
    exec (.memoryEccError dt e) s = .next (readMet e (reportUncorrectable e (memoryError e (begin_ dt s)))) := rfl

theorem toldError_keeps (e : MemError) (s : State) :
    OnlyWrites [.free, .emit, .cmd, .flow, .vec, .lsk] s (readMet e (reportUncorrectable e s)) := by
  simp [onlyWrites_refl]

theorem toldError_rep (e : MemError) (s : State) : (readMet e (reportUncorrectable e s)).rep = s.rep :=
  toldError_keeps e s .rep (by decide)

theorem toldError_swc (e : MemError) (s : State) : (readMet e (reportUncorrectable e s)).swc = s.swc :=
  toldError_keeps e s .swc (by decide)

theorem bankError_draining {b : Nat} {k : Bank} (hbank : s.swc.banks[b]? = some k) (huse : k.inUse = true) :
    ∃ n, (bankError b true s).swc.banks[b]? = some n ∧ n.draining = true ∧ n.retired = k.retired :=
  ⟨_, getElem?_updAt_self hbank, by simp [huse], rfl⟩

/-- A first corrected error of a page is kept with its moment, and nothing fails yet. -/
theorem memoryError_dram_first {pg w} (hplace : e.place = .dram pg w) (hcorr : e.uncorrectable = false)
    (herrs : s.rep.errs = []) :
    memoryError e s = modRep (fun r => { r with errs := [(e.place, s.clk, false)], ctr := ctrInc r.ctr 2 }) s := by
  have hfirst : nowFailing e s = false := by
    simp [nowFailing, hcorr, hplace, earlierErrors, herrs, moments]
  simp [memoryError, hplace, hcorr, hfirst, repCount, modRep, herrs, keepLast]

/-- An uncorrectable error of a page of which nothing is known yet makes the page fail. -/
theorem memoryError_dram_fails {pg w} (hplace : e.place = .dram pg w) (hunc : e.uncorrectable = true)
    (hfailing : s.rep.failing = []) (hrepaired : s.rep.repaired = []) (hcache : s.rep.pendingCache = [])
    (hways : s.rep.ways = []) : (memoryError e s).rep.failing = [.dram pg 0] := by
  have hfails : nowFailing e s = true := by simp [nowFailing, hunc]
  have hnote : noteFailing e.place s = modRep (fun r => { r with failing := r.failing ++ [.dram pg 0] }) s := by
    simp [noteFailing, hplace, failPlace, cacheMacro, hfailing, hrepaired, hcache, hways]
  simp only [hplace] at hnote
  simp [memoryError, hplace, hunc, hfails, hnote, hfailing, modRep]

/-- What a memory error changes of a pair is a counter. -/
theorem cacheCorrected_pair {β : Type} (g : Pair → β) (hg : ∀ p c, g { p with ctr := c } = g p) (l : Nat) (u : State) :
    g (pairOf (cacheCorrected e u) l) = g (pairOf u l) := by
  unfold cacheCorrected
  split
  · split
    · split
      · rfl
      · exact pairOf_modPair_field g (fun p => hg p _) _ _ _
    · rfl
  · rfl

theorem memoryError_sound (hs : Sound s) : Sound (memoryError e (begin_ dt s)) := by
  have hkept : Kept (s.pending, fusedOf s.sys) (memoryError e (begin_ dt s)) ↔ Kept (s.pending, fusedOf s.sys) s := by simp
  exact (hkept.mpr ⟨rfl, rfl, hs⟩).2.2

theorem noteFailing_keeps (p : MemPlace) (u : State) : OnlyWrites [.rep] u (noteFailing p u) := by simp [onlyWrites_refl]

theorem memoryError_pair {β : Type} (g : Pair → β) (hg : ∀ p c, g { p with ctr := c } = g p) (l : Nat) :
    g (pairOf (memoryError e s) l) = g (pairOf s l) := by
  have hnoted (c : Bool) (u : State) : (if c then noteFailing e.place u else u).lsk = u.lsk := by
    cases c
    · rfl
    · exact noteFailing_keeps _ _ .lsk (by decide)
  have hcounted (c : Bool) (i : Nat) (u : State) : (if c then u else repCount i u).lsk = u.lsk := by cases c <;> rfl
  have hpair (u : State) (h : u.lsk = s.lsk) : g (pairOf u l) = g (pairOf s l) := by rw [pairOf, h]; rfl
  have hkept (f : Rep → Rep) (u : State) : (modRep f u).lsk = u.lsk := rfl
  unfold memoryError
  cases hplace : e.place with
  | bank b => rfl
  | sram m isRow i c =>
    rw [hplace] at hnoted
    refine (cacheCorrected_pair g hg l _).trans (hpair _ ?_)
    rw [hkept, hnoted, hcounted]
  | dram page w =>
    rw [hplace] at hnoted
    refine hpair _ ?_
    rw [hkept, apply_ite State.lsk, hnoted]
    exact (ite_self _).trans (hcounted _ _ _)

/-- A locked pair that reads the word gets it, or its report. -/
theorem toldError_pair {l : Fin 4} (hl : l.val < s.lsk.pairs.length) (hreader : e.reader = some l)
    (hlocked : (pairOf s l).st = .locked) :
    (pairOf (readMet e (reportUncorrectable e s)) l).st = .locked ∧
    (pairOf (readMet e (reportUncorrectable e s)) l).cores.reads = (pairOf s l).cores.reads ++
      [{ data := e.value, corrected := !e.uncorrectable, uncorrectable := e.uncorrectable }] := by
  have hkeep : OnlyWrites [.free, .emit, .cmd, .flow, .vec] s (reportUncorrectable e s) := by simp [onlyWrites_refl]
  have hlsk : (reportUncorrectable e s).lsk = s.lsk := hkeep .lsk (by decide)
  have hpair : pairOf (reportUncorrectable e s) l = pairOf s l := by rw [pairOf, hlsk]; rfl
  have hread : readMet e (reportUncorrectable e s) = readComes l
      { data := e.value, corrected := !e.uncorrectable, uncorrectable := e.uncorrectable } (reportUncorrectable e s) := by
    simp [readMet, hreader, hpair, pairLocked, hlocked]
  rw [hread, readComes, readsCome, pairOf_modPair_self _ _ _ (hlsk.symm ▸ hl), hpair]
  exact ⟨hlocked, rfl⟩

end

/-! ## Background slices and banks (R659, R661, R667) -/

section
variable {dt : Nat} {s : State}

theorem exec_scrubSlice {w : ScrubWork} : exec (.scrubSlice dt w) s =
    .next (if (begin_ dt s).now + usT 20 ≤ nextInstant (begin_ dt s) then scrubSlice w (begin_ dt s) else begin_ dt s) := rfl

theorem scrubSlice_repair {p : MemPlace} (h : failPlace p ∈ s.rep.failing) :
    scrubSlice (.repair p) s = repairPlace (failPlace p) false s := if_pos (by simpa using h)

theorem scrubSlice_not_asked {k : Fin 8} {ok : Bool} (h : ∀ q ∈ s.rep.reqs, q.1 ≠ k) :
    scrubSlice (.request k ok) s = s := by
  have hnone : s.rep.reqs.any (fun q => q.1 = k) = false := by simpa using h
  exact if_neg (by rw [hnone, Bool.and_false]; exact Bool.false_ne_true)

/-- A request's test told. -/
theorem repTestEvent_rep (kind pair : Nat) (passed : Bool) (s : State) : (repTestEvent kind pair passed s).rep = s.rep := by
  simp [repTestEvent]

theorem requestDone_reqs {k : Fin 8} {n : BitVec 32} (h : s.rep.reqs = [(k, n)]) : (requestDone k s).rep.reqs = [] := by
  have hfind : s.rep.reqs.find? (fun q => q.1 = k) = some (k, n) := by simp [h]
  have hended (p : Queued → Bool) (u : State) : (finishQueued p 0 u).rep = u.rep := finishQueued_keeps p 0 u .rep (by decide)
  simp only [requestDone, hfind, hended]
  simp [modRep, h]

theorem scrubSlice_request {k : Fin 8} {ok : Bool} {n : BitVec 32} (hk : k ≠ 0) (h : s.rep.reqs = [(k, n)]) :
    (scrubSlice (.request k ok) s).rep.reqs = [] := by
  have hkind : k.val ≠ 0 := fun h0 => hk (Fin.ext h0)
  have hasked : scrubSlice (.request k ok) s = requestDone k (repTestEvent (requestKind k) 0xFF ok s) := by
    simp [scrubSlice, hkind, h]
  rw [hasked]
  exact requestDone_reqs (by rw [repTestEvent_rep, h])

theorem repairEntry_swc (cls loc left : Nat) (atStart : Bool) (s : State) :
    (repairEntry cls loc left atStart s).swc = s.swc := by
  simp [repairEntry, modRep]

theorem reserveEmpty_swc (bit before after : Nat) (s : State) : (reserveEmpty bit before after s).swc = s.swc := by
  unfold reserveEmpty; split <;> simp

/-- A bank retired has no cells of a frame and takes none; the spare that takes its place is another. -/
theorem bankRetire_bank {b : Nat} {k : Bank} (h : s.swc.banks[b]? = some k) :
    ∃ n, (bankRetire b s).swc.banks[b]? = some n ∧ n.inUse = false ∧ n.draining = false ∧ n.retired = true := by
  have hgone := getElem?_updAt_self (f := fun k => { k with inUse := false, draining := false, retired := true }) h
  unfold bankRetire
  dsimp only
  split
  next i hspare =>
    have hfree := List.find?_some hspare
    have hne : i ≠ b := by
      rintro rfl
      simp [hgone] at hfree
    split
    · rw [repairEntry_swc]
      exact ⟨_, hgone, rfl, rfl, rfl⟩
    · rw [reserveEmpty_swc, repairEntry_swc]
      exact ⟨_, (getElem?_updAt_ne hne).trans hgone, rfl, rfl, rfl⟩
  · rw [repairEntry_swc]
    exact ⟨_, hgone, rfl, rfl, rfl⟩

theorem exec_bankDrainComplete {b : Fin 26} : exec (.bankDrainComplete dt b) s =
    .next (if bankDrained b (begin_ dt s) then bankRetire b (begin_ dt s) else begin_ dt s) := rfl

theorem bankDrained_mem {b : Nat} (h : bankDrained b s = true) : ∃ k, s.swc.banks[b]? = some k := by
  unfold bankDrained at h
  split at h
  next k hbank => exact ⟨k, hbank⟩
  · cases h

/-! ## Rotation and self-test (R660–R663) -/

/-- A step due, with the spare ready and a pair to free, asks for the substitution. -/
theorem rotationTry_runs {p : Fin 5} {l : Nat} (hdue : rotDue s = true) (hidle : s.rep.rotRun = none)
    (hrotates : s.rep.rotStopped = false) (hchoice : rotChoice s = some p) (hcarried : carriedBy s p = some l)
    (hspare : s.lsk.spareReady = true) (hon : coresOff s = false) (hfree : (pairOf s l).pendHand = none) :
    rotationTry s = askHand l .subst (modRep (fun r => { r with
      rotRun := some p, rotDeferred := false, rotDueClk := s.rep.rotDueClk + rotSpan s }) s) := by
  simp [rotationTry, hdue, hidle, hrotates, hchoice, hcarried, hspare, hon, hfree]

/-- A step due without a Ready spare is deferred, and counted. -/
theorem rotationTry_deferred (hdue : rotDue s = true) (hidle : s.rep.rotRun = none) (hrotates : s.rep.rotStopped = false)
    (hspare : s.lsk.spareReady = false) (hfirst : s.rep.rotDeferred = false) :
    rotationTry s = repCount 5 (modRep (fun r => { r with rotDeferred := true }) s) := by
  unfold rotationTry
  simp only [hdue, hidle, hrotates, hspare, hfirst, Bool.not_true, Option.isSome_none, Bool.or_self, Bool.false_and,
    Bool.false_eq_true, if_false]
  split <;> rfl

theorem agingRead_none (s : State) : agingRead [] s = s := if_neg (by simp)

theorem applyCache_none {p : Fin 5} {atStart : Bool} (h : s.rep.pendingCache = []) : applyCache p atStart s = s := by
  simp [applyCache, h, forEach]

/-- A self-test's end without a repair held, a monitor, a rotation or a request: the verdict, and its event. -/
theorem selfTestEnd_alone {p : Fin 5} {passed : Bool} {v : State} (hcache : s.rep.pendingCache = [])
    (hv : (if passed then testPassed p (modRep (fun r => { r with testing := none }) s)
      else testFailed p (modRep (fun r => { r with testing := none }) s)) = v)
    (hrun : v.rep.rotRun = none) (hpick : v.rep.rotPick = none) :
    selfTestEnd p passed [] s = repTestEvent 1 p passed v := by
  simp only [selfTestEnd, applyCache_none hcache, agingRead_none, hv, repTestEvent_rep, hrun, hpick, reduceCtorEq, if_false]

theorem repTestEvent_lsk (kind pair : Nat) (passed : Bool) (s : State) : (repTestEvent kind pair passed s).lsk = s.lsk := by
  simp [repTestEvent]

theorem testPassed_spare {p : Fin 5} (hre : s.rep.refenced = 0) (hfe : s.rep.fenced = 0) :
    testPassed p s = modLsk (fun k => { k with spare := some p, spareReady := true })
      (modRep (fun r => { r with
        testClk := updAt r.testClk p (fun _ => some s.clk), fenced := r.fenced &&& ~~~ (1#5 <<< p.val) }) s) := by
  simp [testPassed, hre, hfe, modRep, modLsk]

theorem retirePair_fields (p : Nat) (atStart : Bool) (s : State) :
    (retirePair p atStart s).lsk = s.lsk ∧ (retirePair p atStart s).rep.retired = s.rep.retired ||| (1#5 <<< p) ∧
    (retirePair p atStart s).rep.testing = s.rep.testing ∧ (retirePair p atStart s).rep.rotRun = s.rep.rotRun ∧
    (retirePair p atStart s).rep.rotPick = s.rep.rotPick := by
  have hempty (bit before after : Nat) (u : State) : (reserveEmpty bit before after u).lsk = u.lsk ∧
      (reserveEmpty bit before after u).rep = u.rep := by
    unfold reserveEmpty; split <;> simp
  unfold retirePair
  dsimp only
  rw [(hempty _ _ _ _).1, (hempty _ _ _ _).2]
  simp [repairEntry, modRep]

/-- A pair that fails its test is retired and is the spare no longer; nothing else of the cluster changes. -/
theorem testFailed_fields (p : Fin 5) (s : State) :
    (testFailed p s).rep.retired = s.rep.retired ||| (1#5 <<< p.val) ∧ (testFailed p s).rep.testing = s.rep.testing ∧
    (testFailed p s).rep.rotRun = s.rep.rotRun ∧ (testFailed p s).rep.rotPick = s.rep.rotPick ∧
    (s.lsk.spare ≠ some p → (testFailed p s).lsk = s.lsk) ∧
    (s.lsk.spare = some p → (testFailed p s).lsk.spare = none ∧ (testFailed p s).lsk.spareReady = false) := by
  obtain ⟨hlsk, hretired, htesting, hrun, hpick⟩ := retirePair_fields p false (repCount 6 s)
  have hlsk' : (retirePair p false (repCount 6 s)).lsk = s.lsk := hlsk
  unfold testFailed
  dsimp only
  rw [hlsk']
  split
  next h => exact ⟨hretired, htesting, hrun, hpick, fun hne => absurd h hne, fun _ => ⟨rfl, rfl⟩⟩
  next h => exact ⟨hretired, htesting, hrun, hpick, fun _ => hlsk', fun heq => absurd heq h⟩

theorem exec_logicSelfTestComplete {p : Fin 5} {passed : Bool} {ms : List Nat} : exec (.logicSelfTestComplete dt p passed ms) s =
    .next (if s.rep.testing = some p then selfTestEnd p passed ms (begin_ dt s) else begin_ dt s) := rfl

/-! ## Aging (R665, R666) -/

theorem agingRead_one {w : Nat} (hnone : s.rep.stepNext = none) : agingRead [w] s =
    if s.rep.step.toNat < 15 ∧ 150 * (s.rep.step.toNat + 1) < w then
      modRep (fun r => { r with stepNext := some (BitVec.ofNat 4 (s.rep.step.toNat + 1)) }) s else s := by
  simp [agingRead, hnone]

theorem runTo_rep (t : Nat) (s : State) : (runTo t s).rep = s.rep := rfl

theorem agingApply_taken {n : BitVec 4} (h : s.rep.stepNext = some n) :
    (agingApply s).rep.step = n ∧ (agingApply s).rep.stepNext = none := by
  simp [agingApply, h, repairEntry, modRep]

/-! ## Queued stores that end (R558) -/

theorem queuedComplete_stored {q : Queued} (hq : s.cmd.queued = [q]) (hop : q.opcode = 0x0A09) :
    queuedComplete q.cmdSeq 0 s = finishQueued (fun x => x.cmdSeq == q.cmdSeq) 0 (areaWritten 11 (swcSaveWork s)) := by
  have hfind : s.cmd.queued.find? (fun x => x.cmdSeq == q.cmdSeq) = some q := by simp [hq]
  have harea : areaOf 0x0A09 = 11 := rfl
  simp [queuedComplete, hfind, hop, harea]

theorem queuedComplete_failed {q : Queued} (hq : s.cmd.queued = [q]) (hop : q.opcode = 0x0504) :
    queuedComplete q.cmdSeq 0x010A s = finishQueued (fun x => x.cmdSeq == q.cmdSeq) 0x010A s := by
  have hfind : s.cmd.queued.find? (fun x => x.cmdSeq == q.cmdSeq) = some q := by simp [hq]
  simp [queuedComplete, hfind, hop]

theorem queuedComplete_unknown {n : BitVec 32} {v : BitVec 16} (h : ∀ q ∈ s.cmd.queued, q.cmdSeq ≠ n) :
    queuedComplete n v s = s := by
  have hfind : s.cmd.queued.find? (fun x => x.cmdSeq == n) = none := by simpa using h
  rw [queuedComplete, hfind]

theorem finishQueued_seq_queued {q : Queued} (hq : s.cmd.queued = [q]) (status : Nat) :
    (finishQueued (fun x => x.cmdSeq == q.cmdSeq) status s).cmd.queued = [] := by
  rw [finishQueued_queued, hq]
  simp

end

end Sys2Proof.Machine
end

section
/-! PROOFS. The statement of spec/16_self_repair_and_background_test.md. -/

open Sys2Proof Sys2Proof.Machine

/-- Settles O35: each command by the lemma about the state it makes. -/
theorem repairEventCommandsComplete : Obligations.RepairEventCommandsComplete := by
  intro dt s hs
  refine ⟨?_, ?_, ?_, ?_, ?_, ?_, ?_, ?_, ?_, ?_, ?_, ?_, ?_, ?_, ?_, ?_, ?_, ?_, ?_, ?_, ?_, ?_, ?_, ?_, ?_⟩
  · intro e b hplace
    have hbank : memoryError e (begin_ dt s) = bankError b e.uncorrectable (begin_ dt s) := by rw [memoryError, hplace]
    refine ⟨_, exec_memoryEccError, ?_, fun k hk huse hunc => ?_⟩
    · rw [toldError_rep, hbank]
      rfl
    · rw [toldError_swc, hbank, hunc]
      exact bankError_draining (s := begin_ dt s) hk huse
  · intro e pg w hplace hcorr herrs hfailing
    refine ⟨_, exec_memoryEccError, ?_⟩
    rw [toldError_rep, memoryError_dram_first (s := begin_ dt s) hplace hcorr herrs]
    exact ⟨rfl, hfailing, rfl⟩
  · intro e pg w hplace hunc hfailing hrepaired hcache hways
    refine ⟨_, exec_memoryEccError, ?_⟩
    rw [toldError_rep]
    exact memoryError_dram_fails (s := begin_ dt s) hplace hunc hfailing hrepaired hcache hways
  · intro e hunc
    refine ⟨(takeFree 65536 (memoryError e (begin_ dt s))).1, exec_memoryEccError.trans ?_⟩
    rw [reportUncorrectable, if_pos hunc]
  · intro e l hreader hlocked
    have hpairs : l.val < (memoryError e (begin_ dt s)).lsk.pairs.length := (memoryError_sound hs).pairs.symm ▸ l.isLt
    have hst : (pairOf (memoryError e (begin_ dt s)) l).st = .locked :=
      (memoryError_pair Pair.st (fun _ _ => rfl) l).trans hlocked
    have hcores := memoryError_pair (e := e) (s := begin_ dt s) Pair.cores (fun _ _ => rfl) l
    refine ⟨_, exec_memoryEccError, ?_⟩
    have h := toldError_pair hpairs hreader hst
    rw [hcores] at h
    exact h
  · exact exec_scrubSlice.trans (congrArg _ (ite_self _))
  · intro w hlate
    rw [exec_scrubSlice, if_neg (by omega)]
  · intro p hfailing htime
    rw [exec_scrubSlice, if_pos htime, scrubSlice_repair (s := begin_ dt s) hfailing]
  · intro k ok _ hnone
    rw [exec_scrubSlice, scrubSlice_not_asked (s := begin_ dt s) hnone, ite_self]
  · intro k ok n hk hreqs htime
    refine ⟨_, exec_scrubSlice, ?_⟩
    rw [if_pos htime]
    exact scrubSlice_request (s := begin_ dt s) hk hreqs
  · intro b hdrained
    obtain ⟨k, hk⟩ := bankDrained_mem hdrained
    obtain ⟨n, hn⟩ := bankRetire_bank hk
    exact ⟨_, n, exec_bankDrainComplete, by rw [if_pos hdrained]; exact hn⟩
  · intro b hnot
    rw [exec_bankDrainComplete, hnot]
    rfl
  · intro p l hdue hidle hrotates hchoice hcarried hspare hon hfree
    have hexec : exec (.rotationStep dt) s = .next (rotationTry (begin_ dt s)) := rfl
    refine ⟨_, hexec, ?_⟩
    rw [rotationTry_runs hdue hidle hrotates hchoice hcarried hspare hon hfree]
    refine ⟨rfl, fun hl => ?_, rfl⟩
    have hpairs : l < s.lsk.pairs.length := hs.pairs.symm ▸ hl
    exact congrArg Pair.pendHand (pairOf_modPair_self l _ (modRep _ (begin_ dt s)) hpairs)
  · intro hdue hidle hrotates hspare hfirst
    exact congrArg Host.Outcome.next (rotationTry_deferred hdue hidle hrotates hspare hfirst)
  · intro p htesting hrun hpick hcache hre hfe
    refine ⟨_, exec_logicSelfTestComplete, ?_⟩
    rw [if_pos htesting, selfTestEnd_alone (s := begin_ dt s) (p := p) (passed := true) hcache
      (testPassed_spare (s := modRep (fun r => { r with testing := none }) (begin_ dt s)) hre hfe) hrun hpick,
      repTestEvent_rep, repTestEvent_lsk]
    exact ⟨rfl, rfl, rfl, rfl⟩
  · intro p htesting hrun hpick hcache
    obtain ⟨hretired, hnone, hrun', hpick', hother, hspare⟩ :=
      testFailed_fields p (modRep (fun r => { r with testing := none }) (begin_ dt s))
    refine ⟨_, exec_logicSelfTestComplete, ?_⟩
    rw [if_pos htesting, selfTestEnd_alone (s := begin_ dt s) (p := p) (passed := false) hcache rfl
      (hrun'.trans hrun) (hpick'.trans hpick),
      repTestEvent_rep, repTestEvent_lsk]
    exact ⟨hnone, hretired, hother, hspare⟩
  · intro p ok ms hnot
    rw [exec_logicSelfTestComplete, if_neg hnot]
  · intro w hnone hstep hworst
    exact congrArg Host.Outcome.next ((agingRead_one (s := begin_ dt s) hnone).trans (if_pos ⟨hstep, hworst⟩))
  · intro w hnone hworst
    exact congrArg Host.Outcome.next ((agingRead_one (s := begin_ dt s) hnone).trans
      (if_neg fun h => absurd h.2 (Nat.not_lt.mpr hworst)))
  · intro hsome hnow
    exact congrArg Host.Outcome.next (instantIf_of_due (due := fun s => s.rep.stepNext.isSome)
      (by rw [runTo_rep, Option.isSome_iff_ne_none]; exact hsome) hnow)
  · intro hnot
    exact congrArg Host.Outcome.next (instantIf_of_not_due (due := fun s => s.rep.stepNext.isSome)
      (hnot.imp (fun h => by rw [runTo_rep, h]; rfl) id))
  · exact fun n hn => agingApply_taken hn
  · intro q hq hop
    refine ⟨_, congrArg Host.Outcome.next (queuedComplete_stored (s := begin_ dt s) hq hop), ?_, ?_, ?_⟩
    · exact finishQueued_seq_queued (s := areaWritten 11 (swcSaveWork (begin_ dt s))) hq 0
    · rw [finishQueued_keeps _ _ _ .swc (by decide)]
      rfl
    · rw [finishQueued_keeps _ _ _ .sys (by decide)]
      rfl
  · intro q hq hop
    refine ⟨_, congrArg Host.Outcome.next (queuedComplete_failed (s := begin_ dt s) hq hop), ?_, ?_, ?_⟩
    · exact finishQueued_seq_queued (s := begin_ dt s) hq 0x010A
    · exact finishQueued_saved _ _ _
    · rw [finishQueued_keeps _ _ _ .sys (by decide)]
      rfl
  · exact fun n v hnone => congrArg Host.Outcome.next (queuedComplete_unknown (s := begin_ dt s) hnone)

end

section
/-! PROOFS. CAN channels on their bus (spec/09): frames, errors, bus-off recovery and wake-up. -/

namespace Sys2Proof.Machine

/-! ## What the error state and the interrupts may write of a channel -/

theorem canOf_modCan_field {β : Type} (g : Can → β) {f : Can → Can} (h : ∀ ch, g (f ch) = g ch) (i d : Nat) (s : State) :
    g (canOf (modCan i f s) d) = g (canOf s d) := getD_updAt_field g h _ _ _ _

theorem canOf_raise (code : Nat) (b : List Byte) (s : State) (d : Nat) : canOf (raise code b s) d = canOf s d :=
  canOf_congr (by simp) d

/-- A channel without its error state and its interrupt status. -/
def quiet (ch : Can) : Can := { ch with est := .active, irqStat := 0 }

theorem canIrq_quiet (c bit : Nat) (s : State) (d : Nat) : quiet (canOf (canIrq c bit s) d) = quiet (canOf s d) := by
  rw [canOf_canIrq]
  exact canOf_modCan_field quiet (fun _ => by rfl) _ _ _

theorem canSetEState_quiet (c : Nat) (e : EState) (s : State) (d : Nat) :
    quiet (canOf (canSetEState c e s) d) = quiet (canOf s d) := by
  unfold canSetEState
  dsimp only
  split
  · rfl
  · rw [canIrq_quiet, canOf_raise]
    exact canOf_modCan_field quiet (fun _ => by rfl) _ _ _

/-- A field that neither the error state nor the interrupt status shows reads the same after the counters are judged. -/
theorem canJudge_reads {β : Type} (f : Can → β) (hf : ∀ ch, f (quiet ch) = f ch) (c : Nat) (s : State) (d : Nat) :
    f (canOf (canJudge c s) d) = f (canOf s d) := by
  rw [← hf, canJudge, canSetEState_quiet, hf]

theorem canSetEState_est {c : Nat} {e : EState} {s : State} (hc : c < s.can.length) :
    (canOf (canSetEState c e s) c).est = e := by
  unfold canSetEState
  dsimp only
  split
  next h => exact h
  · have hst : (canOf (modCan c (fun ch => { ch with est := e }) s) c).est = e := by rw [canOf_modCan_self _ _ _ hc]
    rw [canOf_canIrq, canOf_modCan_field Can.est (fun _ => by rfl), canOf_raise]
    exact hst

theorem canJudge_keeps (c : Nat) (s : State) : OnlyWrites [.can, .emit, .cmd, .flow, .vec] s (canJudge c s) := by
  simp [onlyWrites_refl]

/-! ## The end of a frame (R409, R419) -/

/-- The channel at the end of a frame, before it offers: the bus idle, a waiting change of mode in effect. -/
def frameEnded (c : Nat) (s : State) : State :=
  let s1 := modCan c (fun ch => { ch with
    tx := .none
    act := match ch.est with | .busOff => 0 | _ => if ch.integrating then 0 else 1 }) s
  match (canOf s1 c).modeNext with
  | some m => canApplyMode c m.toNat s1
  | none => s1

theorem canFrameEnd_eq (c : Nat) (s : State) : canFrameEnd c s = canOffer c (frameEnded c s) := rfl

/-- A channel without what the end of a frame may write of it before it offers. -/
def unended (ch : Can) : Can := { ch with tx := .none, act := 0, modeAct := 0, modeNext := none, integrating := false }

theorem frameEnded_reads {β : Type} (f : Can → β) (hf : ∀ ch, f (unended ch) = f ch) (c : Nat) (s : State) (d : Nat) :
    f (canOf (frameEnded c s) d) = f (canOf s d) := by
  rw [← hf, ← hf (canOf s d)]
  refine congrArg f ?_
  unfold frameEnded
  dsimp only
  split
  · exact (canOf_modCan_field unended (fun _ => by rfl) _ _ _).trans (canOf_modCan_field unended (fun _ => by rfl) _ _ _)
  · exact canOf_modCan_field unended (fun _ => by rfl) _ _ _

theorem frameEnded_twin (c : Nat) (s : State) : (frameEnded c s).twin = s.twin := by
  unfold frameEnded
  dsimp only
  split <;> rfl

theorem canFrameEnd_offered (c : Nat) (s : State) :
    Offered (fun x => canGated x s) (canOf (frameEnded c s) c) (canOf (canFrameEnd c s) c) := by
  have h := canOffer_offered c (frameEnded c s)
  have hgate : (fun x => canGated x (frameEnded c s)) = fun x => canGated x s :=
    funext fun x => canGated_congr (frameEnded_twin c s) x
  rw [hgate] at h
  exact h

/-- A field that neither the end of a frame nor an arbitration opportunity writes. -/
theorem canFrameEnd_reads {β : Type} (f : Can → β) (hf : ∀ ch, f (unended ch) = f ch) (hf' : ∀ ch, f (unoffered ch) = f ch)
    (c : Nat) (s : State) : f (canOf (canFrameEnd c s) c) = f (canOf s c) :=
  ((canFrameEnd_offered c s).reads f hf').trans (frameEnded_reads f hf c s c)

theorem canSlotGet_unended (o : CanSlot) (ch : Can) : canSlotGet (unended ch) o = canSlotGet ch o := by
  cases o <;> rfl

theorem canSlotGet_quiet (o : CanSlot) (ch : Can) : canSlotGet (quiet ch) o = canSlotGet ch o := by
  cases o <;> rfl

theorem canFrameEnd_slot (o : CanSlot) (c : Nat) (s : State) :
    canSlotGet (canOf (canFrameEnd c s) c) o = canSlotGet (canOf s c) o ∨
    canSlotGet (canOf (canFrameEnd c s) c) o = flagWithheld (canSlotGet (canOf s c) o) := by
  have h := (canFrameEnd_offered c s).slot o
  rw [frameEnded_reads (fun ch => canSlotGet ch o) (canSlotGet_unended o)] at h
  exact h

theorem canFrameEnd_pending_sub (c : Nat) (s : State) :
    ∀ r ∈ (canOf (canFrameEnd c s) c).pending, r ∈ (canOf s c).pending := by
  have h := (canFrameEnd_offered c s).pending_sub
  rw [frameEnded_reads Can.pending (fun _ => rfl)] at h
  exact h

/-- A request of an open gate stays pending, or stays none. -/
theorem Offered.isPending {gated : CanObj → Bool} {a b : Can} (h : Offered gated a b)
    (hflag : ∀ x, gated (flagWithheld x) = gated x) {o : CanSlot} (hopen : gated (canSlotGet a o) = false) :
    canIsPending b o = canIsPending a o := by
  induction h with
  | same => rfl
  | @withheld b p hgated hb ih =>
    have hne : o ≠ p := by
      rintro rfl
      have hgate : gated (canSlotGet b o) = gated (canSlotGet a o) := by
        rcases hb.slot o with heq | heq <;> rw [heq]
        exact hflag _
      exact absurd (hgated.symm.trans (hgate.trans hopen)) (by decide)
    refine Eq.trans ?_ ih
    rw [canIsPending, withholdSlot_pending, canIsPending, List.any_filter]
    refine List.any_congr rfl fun r => ?_
    by_cases hr : r.slot = o
    · simp [hr, hne]
    · simp [hr]
  | refWithheld _ _ ih | notRetried _ _ _ _ ih | lapsed _ ih | handed _ _ ih | started _ _ _ _ ih
  | referred _ _ _ _ ih => exact ih

theorem canFrameEnd_isPending {o : CanSlot} {c : Nat} {s : State} (hopen : canGated (canSlotGet (canOf s c) o) s = false) :
    canIsPending (canOf (canFrameEnd c s) c) o = canIsPending (canOf s c) o := by
  have hslot := frameEnded_reads (fun ch => canSlotGet ch o) (canSlotGet_unended o) c s c
  refine ((canFrameEnd_offered c s).isPending (fun _ => rfl) (hslot.symm ▸ hopen)).trans ?_
  exact frameEnded_reads (fun ch => canIsPending ch o) (fun _ => rfl) c s c

/-! ### A channel that integrates (R408) -/

theorem canWithhold_idle {c : Nat} {s : State} (h : (canOf s c).tx = .none) :
    (canOf (canWithhold c s) c).tx = .none ∧ (canOf (canWithhold c s) c).act = (canOf s c).act := by
  have href : (canOf (canRefWithhold c s) c).tx = .none ∧ (canOf (canRefWithhold c s) c).act = (canOf s c).act := by
    rcases canRefWithhold_or c s with heq | heq <;> rw [heq]
    · exact ⟨(canOf_modCan_field Can.tx (fun _ => by rfl) _ _ _).trans h, canOf_modCan_field Can.act (fun _ => by rfl) _ _ _⟩
    · exact ⟨h, rfl⟩
  have heach {β : Type} (g : Can → β) (hg : ∀ o ch, g (withholdSlot o ch) = g ch) (l : List CanReq) (u : State) :
      g (canOf (forEach l (fun r s => modCan c (withholdSlot r.slot) s) u) c) = g (canOf u c) :=
    forEach_keeps (fun s => g (canOf s c)) _ (fun r s => canOf_modCan_field g (hg r.slot) _ _ _) l u
  have htx := heach Can.tx (fun o ch => by cases o <;> rfl)
  have hact := heach Can.act (fun o ch => by cases o <;> rfl)
  unfold canWithhold
  dsimp only
  rw [href.1]
  exact ⟨(htx _ _).trans href.1, (hact _ _).trans href.2⟩

theorem canOffer_integrating {c : Nat} {s : State} (h : (canOf s c).integrating = true) : canOffer c s = canWithhold c s := by
  have hint : (canOf (canWithhold c s) c).integrating = true :=
    ((canWithhold_offered c s).reads Can.integrating fun _ => rfl).trans h
  simp [canOffer, canSends, canTakesPart, hint]

/-! ## Reception (R412, R413) -/

section
variable {dt : Nat} {c : Fin 12} {s : State}

/-- What a reception without error makes of the counters: nothing else but REC and the error state. -/
theorem canRecOk_reads {β : Type} (f : Can → β) (hf : ∀ ch, f (quiet ch) = f ch)
    (hf' : ∀ ch r p, f { ch with recc := r, rp := p } = f ch) (c : Nat) (s : State) (d : Nat) :
    f (canOf (canRecOk c s) d) = f (canOf s d) := by
  rw [canRecOk, canJudge_reads f hf]
  refine canOf_modCan_field f (fun ch => ?_) _ _ _
  split
  · exact hf' ch 120 false
  · exact hf' ch (ch.recc - 1) ch.rp

/-- A frame for a free object is stored in it with NEW set. -/
theorem canToSlot_obj {c : Nat} {i : Fin 128} {f : CanFrame} {n : Nat} (hc : c < s.can.length)
    (hen : (canSlotGet (canOf s c) (.obj i)).en = true) (hrx : (canSlotGet (canOf s c) (.obj i)).tx = false) :
    ∃ x, canSlotGet (canOf (canToSlot c (.obj i) f n s) c) (.obj i) = canStore f n x := by
  have hto : canToSlot c (.obj i) f n s = canIrq c 1 (modCan c (fun ch => canTakeIn (.obj i) f n
      (canSlotMod (.obj i) (fun y => { y with lost := y.lost || y.new })
        { ch with ctr := if (canSlotGet (canOf s c) (.obj i)).new then ctrInc ch.ctr 6 else ch.ctr })) s) := by
    simp [canToSlot, hen, hrx]
  rw [hto, ← canSlotGet_quiet, canIrq_quiet, canSlotGet_quiet, canOf_modCan_self _ _ _ hc, canTakeIn,
    canSlotGet_canSlotMod_self]
  exact ⟨_, rfl⟩

/-- The state in which a frame received without error meets the filters. -/
def received (c : Nat) (s : State) : State :=
  if canModeAct (canOf s c) = 3 then canCount c 1 s else canRecOk c (canCount c 1 s)

theorem received_reads {β : Type} (f : Can → β) (hf : ∀ ch, f (quiet ch) = f ch)
    (hf' : ∀ ch r p, f { ch with recc := r, rp := p } = f ch) (hf'' : ∀ ch k, f { ch with ctr := k } = f ch)
    (c : Nat) (s : State) (d : Nat) : f (canOf (received c s) d) = f (canOf s d) := by
  have hcount : f (canOf (canCount c 1 s) d) = f (canOf s d) := canOf_modCan_field f (fun ch => hf'' ch _) _ _ _
  unfold received
  split
  · exact hcount
  · rw [canRecOk_reads f hf hf', hcount]

theorem received_sound (hs : Sound s) : Sound (received c s) := by
  have hkept : Kept (s.pending, fusedOf s.sys) (received c s) ↔ Kept (s.pending, fusedOf s.sys) s := by simp [received]
  exact (hkept.mpr ⟨rfl, rfl, hs⟩).2.2

theorem canReceive_native {f : CanFrame} (hpart : canTakesPart (canOf s c) = true) (hown : canForeign (canOf s c) f = false) :
    canReceive c f false s = canFrameEnd c (canFilter c f (received c s)) := by
  simp [canReceive, hpart, hown, received]

theorem canFilter_obj {c : Nat} {f : CanFrame} {i : Nat} {ft : CanFilter}
    (hfind : (canOf s c).filters.find? (fun e => canMatches e.2 f) = some (i, ft)) (hkind : ft.kind = 0) :
    canFilter c f s = canToSlot c (.obj (Fin.ofNat 128 ft.index.toNat)) f i
      (modCan c (fun ch => { ch with filters := tblSet ch.filters i { ft with hits := hitInc ft.hits } }) s) := by
  have hindex : ft.index.toNat < 128 := ft.index.isLt
  have hobj : (⟨ft.index.toNat, hindex⟩ : Fin 128) = Fin.ofNat 128 ft.index.toNat :=
    Fin.ext (Nat.mod_eq_of_lt hindex).symm
  simp [canFilter, hfind, hkind, hobj]

/-- R412, R413: the frame as its object holds it at the end. -/
theorem canReceive_obj {f : CanFrame} {i : Nat} {ft : CanFilter} (hs : Sound s)
    (hpart : canTakesPart (canOf s c) = true) (hown : canForeign (canOf s c) f = false)
    (hfind : (canOf s c).filters.find? (fun e => canMatches e.2 f) = some (i, ft)) (hkind : ft.kind = 0)
    (hen : (canSlotGet (canOf s c) (.obj (Fin.ofNat 128 ft.index.toNat))).en = true)
    (hrx : (canSlotGet (canOf s c) (.obj (Fin.ofNat 128 ft.index.toNat))).tx = false) :
    (canSlotGet (canOf (canReceive c f false s) c) (.obj (Fin.ofNat 128 ft.index.toNat))).new = true ∧
    (canSlotGet (canOf (canReceive c f false s) c) (.obj (Fin.ofNat 128 ft.index.toNat))).id = f.id ∧
    (canSlotGet (canOf (canReceive c f false s) c) (.obj (Fin.ofNat 128 ft.index.toNat))).dlc = f.dlc ∧
    (canSlotGet (canOf (canReceive c f false s) c) (.obj (Fin.ofNat 128 ft.index.toNat))).ts = f.ts ∧
    (canSlotGet (canOf (canReceive c f false s) c) (.obj (Fin.ofNat 128 ft.index.toNat))).filter = BitVec.ofNat 6 i := by
  have hlen : c.val < (received c s).can.length := (received_sound hs).can_lt c
  have hslot (o : CanSlot) : canSlotGet (canOf (modCan c (fun ch => { ch with
      filters := tblSet ch.filters i { ft with hits := hitInc ft.hits } }) (received c s)) c) o = canSlotGet (canOf s c) o :=
    (canOf_modCan_field (fun ch => canSlotGet ch o) (fun _ => by cases o <;> rfl) _ _ _).trans
      (received_reads (fun ch => canSlotGet ch o) (canSlotGet_quiet o) (fun _ _ _ => by cases o <;> rfl)
        (fun _ _ => by cases o <;> rfl) _ _ _)
  have hfind' : (canOf (received c s) c).filters.find? (fun e => canMatches e.2 f) = some (i, ft) := by
    rw [received_reads Can.filters (fun _ => rfl) (fun _ _ _ => rfl) (fun _ _ => rfl), hfind]
  obtain ⟨x, hx⟩ := canToSlot_obj (f := f) (n := i) (s := modCan c (fun ch => { ch with
      filters := tblSet ch.filters i { ft with hits := hitInc ft.hits } }) (received c s)) (by simpa using hlen)
      ((congrArg CanObj.en (hslot _)).trans hen) ((congrArg CanObj.tx (hslot _)).trans hrx)
  have hend := canFrameEnd_slot (.obj (Fin.ofNat 128 ft.index.toNat)) c (canFilter c f (received c s))
  rw [canFilter_obj hfind' hkind, hx] at hend
  rw [canReceive_native hpart hown, canFilter_obj hfind' hkind]
  rcases hend with hend | hend <;> rw [hend] <;> exact ⟨rfl, rfl, rfl, rfl, rfl⟩

/-! ## A frame sent (R405, R419, R420) -/

/-- The channel whose slot's frame is sent: its request dropped, its time noted, TEC and TXOK. -/
def slotSent (o : CanSlot) (ch : Can) : Can :=
  canSlotMod o (fun y => { y with ts := ch.sofNs }) { canDrop o ch with tec := ch.tec - 1, ctr := ctrInc ch.ctr 0 }

theorem canTxComplete_obj {c : Nat} {i : Fin 128} {a b d : Bool} (htx : (canOf s c).tx = .slot (.obj i) a b d) :
    canTxComplete c none s = canFrameEnd c (canJudge c (canIrq c 0 (modCan c (fun ch => { ch with
      done := ch.done ||| (1#128 <<< i.val) }) (modCan c (slotSent (.obj i)) s)))) := by
  rw [canTxComplete, htx]
  rfl

theorem canTxComplete_hpb {c : Nat} {i : Fin 8} {a b d : Bool} (htx : (canOf s c).tx = .slot (.hpb i) a b d) :
    canTxComplete c none s = canFrameEnd c (canJudge c (canHpbIrq c (canSlotGet (canOf s c) (.hpb i)) (modCan c (fun ch =>
      { ch with hpbDone := ch.hpbDone ||| (1#8 <<< i.val) }) (modCan c (slotSent (.hpb i)) s)))) := by
  rw [canTxComplete, htx]
  rfl

/-- A field that neither the judging of the counters nor the end of the frame writes. -/
theorem frameJudged_reads {β : Type} (f : Can → β) (hquiet : ∀ ch, f (quiet ch) = f ch) (hf : ∀ ch, f (unended ch) = f ch)
    (hf' : ∀ ch, f (unoffered ch) = f ch) (c : Nat) (s : State) :
    f (canOf (canFrameEnd c (canJudge c s)) c) = f (canOf s c) :=
  (canFrameEnd_reads f hf hf' c _).trans (canJudge_reads f hquiet c s c)

theorem frameJudged_pending_sub (c : Nat) (s : State) :
    ∀ r ∈ (canOf (canFrameEnd c (canJudge c s)) c).pending, r ∈ (canOf s c).pending := by
  have h := canFrameEnd_pending_sub c (canJudge c s)
  rw [canJudge_reads Can.pending (fun _ => rfl)] at h
  exact h

theorem ctrGet_take (cs : Ctrs) : ctrGet (cs.take 10) 0 = ctrGet cs 0 := by simp [ctrGet, List.getD_eq_getElem?_getD]

theorem slotSent_pending (o : CanSlot) (ch : Can) : (slotSent o ch).pending = ch.pending.filter (fun r => r.slot ≠ o) :=
  (canSlotMod_frame _ _ _).1

/-- R419: DONE, no request left, TEC and TXOK after a frame of an object was sent. -/
theorem canTxComplete_obj_inst {c : Nat} (hc : c < s.can.length) {i : Fin 128} {a b d : Bool}
    (htx : (canOf s c).tx = .slot (.obj i) a b d) :
    (canOf (canTxComplete c none s) c).done = (canOf s c).done ||| (1#128 <<< i.val) ∧
    canIsPending (canOf (canTxComplete c none s) c) (.obj i) = false ∧
    (∀ r ∈ (canOf (canTxComplete c none s) c).pending, r ∈ (canOf s c).pending) ∧
    (canOf (canTxComplete c none s) c).tec = (canOf s c).tec - 1 ∧
    ctrGet (canOf (canTxComplete c none s) c).ctr 0 = ctrGet (ctrInc (canOf s c).ctr 0) 0 := by
  rw [canTxComplete_obj htx]
  have hsent : canOf (canIrq c 0 (modCan c (fun ch => { ch with done := ch.done ||| (1#128 <<< i.val) })
      (modCan c (slotSent (.obj i)) s))) c = { slotSent (.obj i) (canOf s c) with
        done := (canOf s c).done ||| (1#128 <<< i.val), irqStat := (canOf s c).irqStat ||| (1#12 <<< 0) } := by
    rw [canOf_canIrq_self 0 (by simpa using hc), canOf_modCan_self _ _ _ (by simpa using hc), canOf_modCan_self _ _ _ hc]
    rfl
  have hpending := frameJudged_pending_sub c (canIrq c 0 (modCan c (fun ch => { ch with done := ch.done ||| (1#128 <<< i.val) })
      (modCan c (slotSent (.obj i)) s)))
  rw [hsent] at hpending
  have hleft : ∀ r ∈ (canOf s c).pending.filter (fun r => r.slot ≠ .obj i), r ∈ (canOf s c).pending ∧ r.slot ≠ .obj i :=
    fun r hr => by simpa using hr
  refine ⟨?_, ?_, fun r hr => (hleft r (by simpa [slotSent_pending] using hpending r hr)).1, ?_, ?_⟩
  · rw [frameJudged_reads Can.done (fun _ => rfl) (fun _ => rfl) (fun _ => rfl), hsent]
  · rw [canIsPending, List.any_eq_false]
    intro r hr
    simpa using (hleft r (by simpa [slotSent_pending] using hpending r hr)).2
  · rw [frameJudged_reads Can.tec (fun _ => rfl) (fun _ => rfl) (fun _ => rfl), hsent]
    rfl
  · rw [frameJudged_reads (fun ch => ctrGet ch.ctr 0) (fun _ => rfl) (fun _ => rfl) (fun _ => ctrGet_take _), hsent]
    rfl

theorem canTxComplete_hpb_inst {c : Nat} (hc : c < s.can.length) {i : Fin 8} {a b d : Bool}
    (htx : (canOf s c).tx = .slot (.hpb i) a b d) :
    (canOf (canTxComplete c none s) c).hpbDone = (canOf s c).hpbDone ||| (1#8 <<< i.val) ∧
    (canOf (canTxComplete c none s) c).tec = (canOf s c).tec - 1 := by
  rw [canTxComplete_hpb htx]
  have hsent : canOf (canHpbIrq c (canSlotGet (canOf s c) (.hpb i)) (modCan c (fun ch => { ch with
      hpbDone := ch.hpbDone ||| (1#8 <<< i.val) }) (modCan c (slotSent (.hpb i)) s))) c = { slotSent (.hpb i) (canOf s c) with
        hpbDone := (canOf s c).hpbDone ||| (1#8 <<< i.val) } := by
    rw [canHpbIrq, canOf_congr (canInterrupt_can _ _ _), canOf_modCan_self _ _ _ (by simpa using hc), canOf_modCan_self _ _ _ hc]
    rfl
  rw [frameJudged_reads Can.hpbDone (fun _ => rfl) (fun _ => rfl) (fun _ => rfl),
    frameJudged_reads Can.tec (fun _ => rfl) (fun _ => rfl) (fun _ => rfl), hsent]
  exact ⟨rfl, rfl⟩

theorem modCan_modCan (c : Nat) (f g : Can → Can) (s : State) : modCan c g (modCan c f s) = modCan c (fun ch => g (f ch)) s := by
  have hlist (l : List Can) (c : Nat) : updAt (updAt l c f) c g = updAt l c (fun ch => g (f ch)) := by
    induction l generalizing c with
    | nil => rfl
    | cons x xs ih => cases c <;> simp [updAt, ih]
  simp only [modCan, hlist]

theorem modCan_congr {c : Nat} {f g : Can → Can} (h : f (canOf s c) = g (canOf s c)) : modCan c f s = modCan c g s := by
  simp only [modCan]
  rw [updAt_congr Can.reset h]

theorem canArbLost_stays {c : Nat} {o : CanSlot} {d : Bool} (htx : (canOf s c).tx = .slot o false false d) :
    canArbLost c s = modCan c (fun ch => { ch with tx := .none, act := 2, ctr := ctrInc ch.ctr 2 }) s := by
  simp [canArbLost, canAttemptLost, htx]

theorem canArbLost_withdrawn {c : Nat} {o : CanSlot} {d : Bool} (htx : (canOf s c).tx = .slot o false true d) :
    canArbLost c s = modCan c (fun ch => { canDrop o ch with tx := .none, act := 2, ctr := ctrInc ch.ctr 2 }) s := by
  simp only [canArbLost, canAttemptLost, htx, modCan_modCan]
  rfl

/-! ## Errors (R430–R433) -/

/-- The code of a protocol error noted. -/
def errNoted (e : CanError) (ch : Can) : Can :=
  if e.dataPhase then { ch with dlec := BitVec.ofNat 3 (canErrCode e.kind) }
  else { ch with lec := BitVec.ofNat 3 (canErrCode e.kind) }

theorem canError_exception {c : Nat} {e : CanError} (hpart : canTakesPart (canOf s c) = true) (hexc : e.protocolException = true)
    (hon : canCtl (canOf s c) 6 = false) : canError c e s = canFrameEnd c (modCan c (fun ch => { ch with
      integrating := true, ctr := ctrInc ch.ctr 12 }) s) := by
  simp [canError, hpart, hexc, hon]

/-- A protocol exception leaves the channel integrating, its counts as they were. -/
theorem canError_exception_inst {c : Nat} (hc : c < s.can.length) (hnext : (canOf s c).modeNext = none) :
    let t := canFrameEnd c (modCan c (fun ch => { ch with integrating := true, ctr := ctrInc ch.ctr 12 }) s)
    (canOf t c).integrating = true ∧ (canOf t c).act = 0 ∧ (canOf t c).tx = .none ∧ (canOf t c).tec = (canOf s c).tec ∧
      (canOf t c).recc = (canOf s c).recc := by
  intro t
  have hnext' : (canOf (modCan c (fun ch => { ch with integrating := true, ctr := ctrInc ch.ctr 12 }) s) c).modeNext = none :=
    (canOf_modCan_field Can.modeNext (fun _ => by rfl) _ _ _).trans hnext
  have hended : canOf (frameEnded c (modCan c (fun ch => { ch with integrating := true, ctr := ctrInc ch.ctr 12 }) s)) c =
      { canOf s c with integrating := true, ctr := ctrInc (canOf s c).ctr 12, tx := .none, act := 0 } := by
    unfold frameEnded
    dsimp only
    rw [canOf_modCan_field Can.modeNext (fun _ => by rfl), hnext']
    dsimp only
    rw [canOf_modCan_self _ _ _ (by simpa using hc), canOf_modCan_self _ _ _ hc]
    cases (canOf s c).est <;> rfl
  have hint := congrArg Can.integrating hended
  have htx := congrArg Can.tx hended
  have hact := congrArg Can.act hended
  have htec := congrArg Can.tec hended
  have hrec := congrArg Can.recc hended
  have ht : t = canWithhold c (frameEnded c (modCan c (fun ch => { ch with integrating := true, ctr := ctrInc ch.ctr 12 }) s)) :=
    canOffer_integrating hint
  obtain ⟨hidle, hstill⟩ := canWithhold_idle htx
  have hreads := canWithhold_offered c (frameEnded c (modCan c (fun ch => { ch with
    integrating := true, ctr := ctrInc ch.ctr 12 }) s))
  rw [ht]
  exact ⟨(hreads.reads Can.integrating fun _ => rfl).trans hint, hstill.trans hact, hidle,
    (hreads.reads Can.tec fun _ => rfl).trans htec,
    (hreads.reads Can.recc fun _ => rfl).trans hrec⟩

theorem canError_heard {c : Nat} {e : CanError} (hpart : canTakesPart (canOf s c) = true) (hexc : e.protocolException = false)
    (hrx : e.transmitting = false) : canError c e s = canFrameEnd c (if canModeAct (canOf s c) = 3
      then modCan c (errNoted e) s else canRecInc c (canRecStep e) (modCan c (errNoted e) s)) := by
  simp only [canError, hpart, hexc, hrx, Bool.not_true, Bool.not_false, Bool.false_and, Bool.and_true, Bool.false_eq_true, if_false]
  rfl

theorem errNoted_field {β : Type} (f : Can → β) (hf : ∀ ch l d, f { ch with lec := l, dlec := d } = f ch) (e : CanError)
    (ch : Can) : f (errNoted e ch) = f ch := by
  unfold errNoted
  split
  · exact hf ch ch.lec _
  · exact hf ch _ ch.dlec

/-- A receiver's error: the code, REC, and nothing of the transmitter's count. -/
theorem canError_heard_inst {c : Nat} (hc : c < s.can.length) {e : CanError} (hpart : canTakesPart (canOf s c) = true)
    (hexc : e.protocolException = false) (hphase : e.dataPhase = false) (hrx : e.transmitting = false)
    (hrec : (canOf s c).recc + canRecStep e ≤ 127) :
    (canOf (canError c e s) c).lec = BitVec.ofNat 3 (canErrCode e.kind) ∧ (canOf (canError c e s) c).dlec = (canOf s c).dlec ∧
    (canOf (canError c e s) c).tec = (canOf s c).tec ∧ (canOf (canError c e s) c).recc =
      (if canModeAct (canOf s c) = 3 then (canOf s c).recc else (canOf s c).recc + canRecStep e) := by
  have hnoted : canOf (modCan c (errNoted e) s) c = { canOf s c with lec := BitVec.ofNat 3 (canErrCode e.kind) } := by
    rw [canOf_modCan_self _ _ _ hc, errNoted, hphase]
    rfl
  rw [canError_heard hpart hexc hrx]
  split
  · rw [canFrameEnd_reads Can.lec (fun _ => rfl) (fun _ => rfl), canFrameEnd_reads Can.dlec (fun _ => rfl) (fun _ => rfl),
      canFrameEnd_reads Can.tec (fun _ => rfl) (fun _ => rfl), canFrameEnd_reads Can.recc (fun _ => rfl) (fun _ => rfl), hnoted]
    exact ⟨rfl, rfl, rfl, rfl⟩
  · have hraised : canOf (modCan c (fun ch => if 127 < ch.recc + canRecStep e then { ch with recc := 127, rp := true }
        else { ch with recc := ch.recc + canRecStep e }) (modCan c (errNoted e) s)) c = { canOf s c with
          lec := BitVec.ofNat 3 (canErrCode e.kind), recc := (canOf s c).recc + canRecStep e } := by
      rw [canOf_modCan_self _ _ _ (by simpa using hc), hnoted]
      exact if_neg (Nat.not_lt.mpr hrec)
    rw [canRecInc, frameJudged_reads Can.lec (fun _ => rfl) (fun _ => rfl) (fun _ => rfl),
      frameJudged_reads Can.dlec (fun _ => rfl) (fun _ => rfl) (fun _ => rfl),
      frameJudged_reads Can.tec (fun _ => rfl) (fun _ => rfl) (fun _ => rfl),
      frameJudged_reads Can.recc (fun _ => rfl) (fun _ => rfl) (fun _ => rfl), hraised]
    exact ⟨rfl, rfl, rfl, rfl⟩

/-- An error of the frame being sent, not of acknowledgement, that stays pending: its run of acknowledgement errors ends, and
TEC rises. -/
theorem canError_sent {c : Nat} {e : CanError} {o : CanSlot} {d : Bool}
    (hpart : canTakesPart (canOf s c) = true) (hexc : e.protocolException = false) (htx : e.transmitting = true)
    (hkind : e.kind ≠ .ack) (hslot : (canOf s c).tx = .slot o false false d) (hmode : canModeAct (canOf s c) ≠ 3) :
    canError c e s = canFrameEnd c (canTecInc c (canTecStep e) (canUnackRestart c (modCan c (errNoted e) s))) := by
  have hack : (e.kind == CanErrKind.ack) = false := by simpa using hkind
  have hnoted : (canOf (modCan c (errNoted e) s) c).tx = .slot o false false d :=
    (canOf_modCan_field Can.tx (fun ch => errNoted_field Can.tx (fun _ _ _ => rfl) e ch) _ _ _).trans hslot
  have hrestart : canAttemptLost c (canUnackRestart c (modCan c (errNoted e) s)) = canUnackRestart c (modCan c (errNoted e) s) := by
    have htx' : (canOf (canUnackRestart c (modCan c (errNoted e) s)) c).tx = .slot o false false d := by
      rw [canUnackRestart, hnoted]
      exact (canOf_modCan_field Can.tx (fun _ => by rfl) _ _ _).trans hnoted
    rw [canAttemptLost, htx']
  have hbusy : (CanTx.slot o false false d == CanTx.none) = false := rfl
  refine Eq.trans ?_ (congrArg (fun u => canFrameEnd c (canTecInc c (canTecStep e) u)) hrestart)
  simp only [canError, hpart, hexc, htx, hack, hslot, hmode, hbusy, Bool.not_true, Bool.not_false, Bool.false_and, Bool.and_true,
    Bool.false_eq_true, if_false, if_true]
  rfl

theorem canUnackRestart_keeps (c : Nat) (s : State) : OnlyWrites [.can] s (canUnackRestart c s) := by simp [onlyWrites_refl]

/-- What restarting the run of acknowledgement errors leaves of a channel. -/
theorem canUnackRestart_reads {β : Type} (f : Can → β) (hf : ∀ ch g, f { ch with pending := ch.pending.map g } = f ch) (c : Nat)
    (s : State) (d : Nat) : f (canOf (canUnackRestart c s) d) = f (canOf s d) := by
  unfold canUnackRestart
  split
  · exact canOf_modCan_field f (fun ch => hf ch _) _ _ _
  · rfl

theorem canUnackRestart_length (c : Nat) (s : State) : (canUnackRestart c s).can.length = s.can.length := by
  unfold canUnackRestart
  split
  · exact modCan_length _ _ _
  · rfl

theorem canIsPending_map {ch : Can} {g : CanReq → CanReq} (hg : ∀ r, (g r).slot = r.slot) (o : CanSlot) :
    canIsPending { ch with pending := ch.pending.map g } o = canIsPending ch o := by
  rw [canIsPending, List.any_map]
  exact List.any_congr rfl fun r => by simp [hg]

/-- The same of a channel's request: it stays. -/
theorem canUnackRestart_isPending (c : Nat) (s : State) (o : CanSlot) :
    canIsPending (canOf (canUnackRestart c s) c) o = canIsPending (canOf s c) o := by
  unfold canUnackRestart
  split
  · exact canOf_modCan_field (fun ch => canIsPending ch o)
      (fun ch => canIsPending_map (fun r => by split <;> rfl) o) _ _ _
  · rfl

/-- The sender's error in the data phase: DLEC and TEC; and a request of an open gate stays pending. -/
theorem canError_sent_inst {c : Nat} (hc : c < s.can.length) {e : CanError} {o : CanSlot} {d : Bool}
    (hpart : canTakesPart (canOf s c) = true) (hexc : e.protocolException = false) (hphase : e.dataPhase = true)
    (htx : e.transmitting = true) (hkind : e.kind ≠ .ack) (hslot : (canOf s c).tx = .slot o false false d)
    (hmode : canModeAct (canOf s c) ≠ 3) (htec : (canOf s c).tec + canTecStep e ≤ 255) :
    (canOf (canError c e s) c).dlec = BitVec.ofNat 3 (canErrCode e.kind) ∧ (canOf (canError c e s) c).lec = (canOf s c).lec ∧
    (canOf (canError c e s) c).tec = (canOf s c).tec + canTecStep e ∧
    (canGated (canSlotGet (canOf s c) o) s = false → canIsPending (canOf (canError c e s) c) o = canIsPending (canOf s c) o) := by
  have hnoted : canOf (modCan c (errNoted e) s) c = { canOf s c with dlec := BitVec.ofNat 3 (canErrCode e.kind) } := by
    rw [canOf_modCan_self _ _ _ hc, errNoted, hphase]
    rfl
  have hlen : c < (canUnackRestart c (modCan c (errNoted e) s)).can.length := by
    rwa [canUnackRestart_length, modCan_length]
  have hreads {β : Type} (f : Can → β) (hf : ∀ ch g, f { ch with pending := ch.pending.map g } = f ch) :
      f (canOf (canUnackRestart c (modCan c (errNoted e) s)) c) =
        f { canOf s c with dlec := BitVec.ofNat 3 (canErrCode e.kind) } := by
    rw [canUnackRestart_reads f hf, hnoted]
  have htwin : (canJudge c (modCan c (fun ch => { ch with tec := ch.tec + canTecStep e })
      (canUnackRestart c (modCan c (errNoted e) s)))).twin = s.twin := by
    have hkeep : OnlyWrites [.can, .emit, .cmd, .flow, .vec] s (canJudge c (modCan c (fun ch => { ch with
        tec := ch.tec + canTecStep e }) (canUnackRestart c (modCan c (errNoted e) s)))) := by simp [onlyWrites_refl]
    exact hkeep .twin (by decide)
  have hraised : canTecInc c (canTecStep e) (canUnackRestart c (modCan c (errNoted e) s)) = canJudge c (modCan c (fun ch =>
      { ch with tec := ch.tec + canTecStep e }) (canUnackRestart c (modCan c (errNoted e) s))) := by
    rw [canTecInc, if_neg (by rw [hreads Can.tec fun _ _ => rfl]; exact Nat.not_lt.mpr htec)]
  rw [canError_sent hpart hexc htx hkind hslot hmode, hraised]
  refine ⟨?_, ?_, ?_, fun hopen => ?_⟩
  · rw [frameJudged_reads Can.dlec (fun _ => rfl) (fun _ => rfl) (fun _ => rfl),
      canOf_modCan_field Can.dlec (fun _ => by rfl), hreads Can.dlec fun _ _ => rfl]
  · rw [frameJudged_reads Can.lec (fun _ => rfl) (fun _ => rfl) (fun _ => rfl),
      canOf_modCan_field Can.lec (fun _ => by rfl), hreads Can.lec fun _ _ => rfl]
  · rw [frameJudged_reads Can.tec (fun _ => rfl) (fun _ => rfl) (fun _ => rfl), canOf_modCan_self _ _ _ hlen,
      hreads Can.tec fun _ _ => rfl]
  · have hslots : canSlotGet (canOf (canJudge c (modCan c (fun ch => { ch with tec := ch.tec + canTecStep e })
        (canUnackRestart c (modCan c (errNoted e) s)))) c) o = canSlotGet (canOf s c) o := by
      rw [canJudge_reads (fun ch => canSlotGet ch o) (canSlotGet_quiet o),
        canOf_modCan_field (fun ch => canSlotGet ch o) (fun _ => by cases o <;> rfl),
        hreads (fun ch => canSlotGet ch o) fun _ _ => by cases o <;> rfl]
      cases o <;> rfl
    rw [canFrameEnd_isPending (by rw [hslots, canGated_congr htwin]; exact hopen),
      canJudge_reads (fun ch => canIsPending ch o) (fun _ => rfl),
      canOf_modCan_field (fun ch => canIsPending ch o) (fun _ => by rfl), canUnackRestart_isPending, hnoted]
    rfl

/-- What an acknowledgement error and the end of an attempt leave of a channel. -/
def unattempted (ch : Can) : Can := { ch with pending := [], objs := [], hpbs := [], irqStat := 0, ctr := [] }

theorem unattempted_slotMod (o : CanSlot) (f : CanObj → CanObj) (ch : Can) :
    unattempted (canSlotMod o f ch) = unattempted ch := by
  cases o <;> rfl

theorem canIrq_unattempted (c bit : Nat) (s : State) (d : Nat) :
    unattempted (canOf (canIrq c bit s) d) = unattempted (canOf s d) := by
  rw [canOf_canIrq]
  exact canOf_modCan_field unattempted (fun _ => by rfl) _ _ _

theorem canAckError_unattempted (c : Nat) (s : State) (d : Nat) :
    unattempted (canOf (canAckError c s) d) = unattempted (canOf s d) := by
  have hcount (u : State) : unattempted (canOf (canCount c 3 u) d) = unattempted (canOf u d) :=
    canOf_modCan_field unattempted (fun _ => by rfl) _ _ _
  unfold canAckError
  dsimp only
  split
  · split
    · rw [canIrq_unattempted, canOf_modCan_field unattempted fun ch => by rw [unattempted_slotMod]; rfl,
        canOf_modCan_field unattempted fun _ => by rfl, hcount]
    · rw [canOf_modCan_field unattempted fun _ => by rfl, hcount]
  · exact hcount s

theorem canAttemptLost_unattempted (c : Nat) (s : State) (d : Nat) :
    unattempted (canOf (canAttemptLost c s) d) = unattempted (canOf s d) := by
  unfold canAttemptLost
  split
  · rw [canIrq_unattempted]
    exact canOf_modCan_field unattempted (fun ch => by rw [unattempted_slotMod]; rfl) _ _ _
  · exact canOf_modCan_field unattempted (fun _ => by rfl) _ _ _
  · rfl

theorem canError_exempt {c : Nat} {e : CanError} (hpart : canTakesPart (canOf s c) = true) (hexc : e.protocolException = false)
    (htx : e.transmitting = true) (hbusy : (canOf s c).tx ≠ .none) (hkind : e.kind = .ack) (hpassive : (canOf s c).est = .passive)
    (hdominant : e.dominantSeen = false) :
    canError c e s = canFrameEnd c (canAttemptLost c (canAckError c (modCan c (errNoted e) s))) := by
  have hack : (e.kind == CanErrKind.ack) = true := by simpa using hkind
  have hbusy' : ((canOf s c).tx == CanTx.none) = false := by simpa using hbusy
  simp only [canError, hpart, hexc, htx, hack, hbusy', hpassive, hdominant, Bool.not_true, Bool.not_false, Bool.false_and,
    Bool.and_true, Bool.false_eq_true, if_false, if_true, ite_self]
  rfl

/-- R431: an error-passive sender that no one acknowledges keeps its count. -/
theorem canError_exempt_inst {c : Nat} (hc : c < s.can.length) {e : CanError} (hpart : canTakesPart (canOf s c) = true)
    (hexc : e.protocolException = false) (hphase : e.dataPhase = false) (htx : e.transmitting = true)
    (hbusy : (canOf s c).tx ≠ .none) (hkind : e.kind = .ack) (hpassive : (canOf s c).est = .passive)
    (hdominant : e.dominantSeen = false) :
    (canOf (canError c e s) c).lec = 3 ∧ (canOf (canError c e s) c).tec = (canOf s c).tec := by
  have hnoted : canOf (modCan c (errNoted e) s) c = { canOf s c with lec := 3 } := by
    rw [canOf_modCan_self _ _ _ hc, errNoted, hphase, hkind]
    rfl
  have hkept : unattempted (canOf (canAttemptLost c (canAckError c (modCan c (errNoted e) s))) c) =
      unattempted { canOf s c with lec := 3 } := by
    rw [canAttemptLost_unattempted, canAckError_unattempted, hnoted]
  rw [canError_exempt hpart hexc htx hbusy hkind hpassive hdominant]
  rw [canFrameEnd_reads Can.lec (fun _ => rfl) (fun _ => rfl), canFrameEnd_reads Can.tec (fun _ => rfl) (fun _ => rfl)]
  have hlec := congrArg Can.lec hkept
  have htec := congrArg Can.tec hkept
  exact ⟨hlec, htec⟩

/-! ## Recovery from bus-off, integration and wake-up (R408, R411, R433) -/

section
variable {c : Nat} (hon : canModeAct (canOf s c) ≠ 0) (hon' : canModeAct (canOf s c) ≠ 6)
include hon hon'

theorem canRecovered_counts {occ : Nat} (hrec : (canOf s c).recovering = true) (hocc : occ < 128) :
    canRecovered c occ s = modCan c (fun ch => { ch with recovCnt := max ch.recovCnt occ }) s := by
  simp [canRecovered, hrec, hon, hon', hocc]

/-- The channel whose bus-off ends. -/
def recoveredCan (ch : Can) : Can := { ch with
  tec := 0, recc := 0, rp := false, recovering := false, recovPend := false, recovCnt := 128
  integrating := false, act := 1 }

theorem canRecovered_ends (hrec : (canOf s c).recovering = true) :
    canRecovered c 128 s = canOffer c (canIrq c 6 (canSetEState c .active (modCan c recoveredCan s))) := by
  have hmay : ((canOf s c).recovering && decide (canModeAct (canOf s c) ≠ 0) && decide (canModeAct (canOf s c) ≠ 6)) = true := by
    simp [hrec, hon, hon']
  exact (if_pos hmay).trans (if_neg (Nat.lt_irrefl 128))

theorem canRecovered_ends_inst (hc : c < s.can.length) (hrec : (canOf s c).recovering = true) :
    let ch := canOf (canRecovered c 128 s) c
    ch.est = .active ∧ ch.tec = 0 ∧ ch.recc = 0 ∧ ch.recovering = false ∧ ch.recovPend = false ∧ ch.recovCnt = 128 := by
  intro ch
  have hch : ch = canOf (canOffer c (canIrq c 6 (canSetEState c .active (modCan c recoveredCan s)))) c :=
    congrArg (canOf · c) (canRecovered_ends hon hon' hrec)
  have hreads {β : Type} (f : Can → β) (hf : ∀ ch, f (unoffered ch) = f ch) (hquiet : ∀ ch, f (quiet ch) = f ch) :
      f ch = f (recoveredCan (canOf s c)) := by
    rw [hch, (canOffer_offered c _).reads f hf, ← hquiet, canIrq_quiet, canSetEState_quiet, canOf_modCan_self _ _ _ hc, hquiet]
  have hest : ch.est = .active := by
    rw [hch, (canOffer_offered c _).reads Can.est fun _ => rfl, canOf_canIrq, canOf_modCan_field Can.est fun _ => by rfl]
    exact canSetEState_est (by simpa using hc)
  exact ⟨hest, hreads Can.tec (fun _ => rfl) fun _ => rfl, hreads Can.recc (fun _ => rfl) fun _ => rfl,
    hreads Can.recovering (fun _ => rfl) fun _ => rfl, hreads Can.recovPend (fun _ => rfl) fun _ => rfl,
    hreads Can.recovCnt (fun _ => rfl) fun _ => rfl⟩

theorem canIntegrated_joins (hint : (canOf s c).integrating = true) :
    canIntegrated c s = canOffer c (modCan c (fun ch => { ch with
      integrating := false, act := match (canOf s c).est with | .busOff => 0 | _ => 1 }) s) := by
  have hmay : ((canOf s c).integrating && decide (canModeAct (canOf s c) ≠ 0) && decide (canModeAct (canOf s c) ≠ 6)) = true := by
    simp [hint, hon, hon']
  exact (if_pos hmay).trans (congrArg (canOffer c) (modCan_congr rfl))

end

theorem canReceive_idle {c : Nat} {f : CanFrame} {own : Bool} (h : canTakesPart (canOf s c) = false) :
    canReceive c f own s = s := by
  simp [canReceive, h]

theorem canReceive_unlooped {c : Nat} {f : CanFrame} (h4 : canModeAct (canOf s c) ≠ 4) (h5 : canModeAct (canOf s c) ≠ 5) :
    canReceive c f true s = s := by
  simp [canReceive, h4, h5]

end

end Sys2Proof.Machine
end

section
/-! PROOFS. The statement of spec/09_can_channels.md about the bus. -/

open Sys2Proof Sys2Proof.Machine

/-- Settles O30: each command is the branch that its channel and frame choose. -/
theorem canBusCommandsComplete : Obligations.CanBusCommandsComplete := by
  intro dt c s hs
  have hc : c.val < (begin_ dt s).can.length := hs.can_lt c
  refine ⟨?_, ?_, ?_, ?_, ?_, ?_, ?_, ?_, ?_, ?_, ?_, ?_, ?_, ?_, ?_, ?_, ?_⟩
  · intro f i ft hpart _ hown hfind hkind hen hrx
    exact ⟨_, rfl, canReceive_obj (s := begin_ dt s) hs hpart hown hfind hkind hen hrx⟩
  · exact fun f own hidle => congrArg Host.Outcome.next (canReceive_idle (s := begin_ dt s) hidle)
  · exact fun f h4 h5 => congrArg Host.Outcome.next (canReceive_unlooped (s := begin_ dt s) h4 h5)
  · exact fun i a b d htx => ⟨_, rfl, canTxComplete_obj_inst hc htx⟩
  · exact fun b x y d htx => ⟨_, rfl, canTxComplete_hpb_inst hc htx⟩
  · intro htx
    refine congrArg Host.Outcome.next ?_
    rw [canTxComplete, canOf_begin_, htx]
  · exact fun o d htx => congrArg Host.Outcome.next (canArbLost_stays (s := begin_ dt s) htx)
  · exact fun o d htx => congrArg Host.Outcome.next (canArbLost_withdrawn (s := begin_ dt s) htx)
  · intro e hpart hexc hon
    have hexec : exec (.canError dt c e) s = .next _ :=
      congrArg Host.Outcome.next (canError_exception (s := begin_ dt s) hpart hexc hon)
    exact ⟨hexec, fun hnext => ⟨_, hexec, canError_exception_inst hc hnext⟩⟩
  · exact fun e hpart hexc hphase hrx hrec => ⟨_, rfl, canError_heard_inst hc hpart hexc hphase hrx hrec⟩
  · intro e o d hpart hexc hphase htx hkind hslot hmode htec
    exact ⟨_, rfl, canError_sent_inst hc hpart hexc hphase htx hkind hslot hmode htec⟩
  · intro e hpart hexc hphase htx hbusy hkind hpassive hdominant
    exact ⟨_, rfl, canError_exempt_inst hc hpart hexc hphase htx hbusy hkind hpassive hdominant⟩
  · intro occ hrec hon hon' hocc
    exact congrArg Host.Outcome.next (canRecovered_counts (s := begin_ dt s) hon hon' hrec hocc)
  · intro occ hrec hon hon' hocc
    refine ⟨_, rfl, ?_⟩
    rw [hocc]
    exact canRecovered_ends_inst hon hon' hc hrec
  · intro hint hon hon'
    have hexec : exec (.canIntegrationComplete dt c) s = .next _ :=
      congrArg Host.Outcome.next (canIntegrated_joins (s := begin_ dt s) hon hon' hint)
    refine ⟨hexec, _, hexec, ?_⟩
    obtain ⟨-, -, hkept, -⟩ := canOffer_control c.val (modCan c (fun ch => { ch with
      integrating := false, act := match (canOf s c).est with | .busOff => 0 | _ => 1 }) (begin_ dt s))
    rw [canOf_modCan_self _ _ _ hc] at hkept
    exact hkept
  · exact fun hmode hwup => congrArg Host.Outcome.next (if_pos (by simp [hmode, hwup]))
  · exact fun hmode => congrArg Host.Outcome.next (if_neg (by simp [hmode]))

end

section
/-! PROOFS. The vehicle fabric (spec/11): links, lanes, beacons, slots, frames, reports and ticks. -/

namespace Sys2Proof.Machine

section
variable {dt : Nat} {k : Fin 4} {s : State}

/-! ## One link at a time -/

theorem Sound.fab_lt (hs : Sound s) (k : Fin 4) : k.val < s.fab.links.length := hs.links.symm ▸ k.isLt

theorem fabOf_congr {s t : State} (h : t.fab = s.fab) (j : Nat) : fabOf t j = fabOf s j := by rw [fabOf, h]; rfl

theorem fabOf_raise (code : Nat) (b : List Byte) (s : State) (j : Nat) : fabOf (raise code b s) j = fabOf s j :=
  fabOf_congr (by simp) j

theorem fabOf_emit (e : Emission) (s : State) (j : Nat) : fabOf (emit e s) j = fabOf s j := fabOf_congr (by simp) j

/-- What a change of a link leaves of each link is left of every link. -/
theorem fabOf_modFab_field {β : Type} (g : FabLink → β) {f : FabLink → FabLink} (h : ∀ l, g (f l) = g l) (i j : Nat)
    (s : State) : g (fabOf (modFab i f s) j) = g (fabOf s j) := getD_updAt_field g h _ _ _ _

theorem modFab_modFab (k : Nat) (f g : FabLink → FabLink) (s : State) :
    modFab k g (modFab k f s) = modFab k (fun l => g (f l)) s := by
  have hlist (l : List FabLink) (k : Nat) : updAt (updAt l k f) k g = updAt l k (fun x => g (f x)) := by
    induction l generalizing k with
    | nil => rfl
    | cons x xs ih => cases k <;> simp [updAt, ih]
  simp only [modFab, hlist]

/-- The link enters a state other than Up: it alone changes, and of it nothing that its partner told. -/
theorem fabLeave_self (st : FabSt) (hk : k.val < s.fab.links.length) :
    (fabOf (fabLeave k st s) k).st = st ∧ (fabOf (fabLeave k st s) k).replay = [] ∧
    (fabOf (fabLeave k st s) k).beaconRx = false ∧ (fabOf (fabLeave k st s) k).partner = (fabOf s k).partner ∧
    (fabOf (fabLeave k st s) k).partnerUid = (fabOf s k).partnerUid := by
  have hleft : fabOf (fabSetCosts k [] (modFab k (fun l => { l with
      st := st, replay := [], beaconTx := false, beaconRx := false, txSeq := 0, rxSeq := 0 }) s)) k =
      { fabOf s k with st := st, replay := [], beaconTx := false, beaconRx := false, txSeq := 0, rxSeq := 0 } :=
    fabOf_modFab_self _ _ _ hk
  unfold fabLeave
  dsimp only
  split
  · rw [fabLinkEvent, fabOf_raise, fabCount, fabOf_modFab_self _ _ _ (by simpa [fabSetCosts, modFabric, modFab, updAt_length] using hk),
      hleft]
    exact ⟨rfl, rfl, rfl, rfl, rfl⟩
  · rw [hleft]
    exact ⟨rfl, rfl, rfl, rfl, rfl⟩

theorem fabLeave_ne (st : FabSt) {j : Nat} (hj : j ≠ k) : fabOf (fabLeave k st s) j = fabOf s j := by
  have hleft : fabOf (fabSetCosts k [] (modFab k (fun l => { l with
      st := st, replay := [], beaconTx := false, beaconRx := false, txSeq := 0, rxSeq := 0 }) s)) j = fabOf s j :=
    fabOf_modFab_ne _ _ _ _ hj.symm
  unfold fabLeave
  dsimp only
  split
  · rw [fabLinkEvent, fabOf_raise, fabCount, fabOf_modFab_ne _ _ _ _ hj.symm, hleft]
  · exact hleft

theorem fabUp_iff : fabUp s k = true ↔ (fabOf s k).st = .up := by
  unfold fabUp
  cases (fabOf s k).st <;> simp

/-! ## Beacons (R505–R508, R512) -/

theorem exec_fabricBeaconSend (h : fabEnabled s k = true) : exec (.fabricBeaconSend dt k) s =
    .next (emit (.fabricBeacon k (ownFabricBeacon k (begin_ dt s))) (modFab k (fun l => { l with beaconTx := true })
      (begin_ dt s))) := congrArg Host.Outcome.next (if_pos h)

/-- What a beacon of the own vehicle makes of the slot table leaves the links. -/
theorem fabTakeTable_links (b : FabricBeacon) (s : State) (j : Nat) : fabOf (fabTakeTable b s) j = fabOf s j := by
  unfold fabTakeTable
  (repeat' split) <;> rfl

theorem fabSchedule_links (i : Nat) (b : FabricBeacon) (s : State) (j : Nat) : fabOf (fabSchedule i b s) j = fabOf s j := by
  have hkeep : OnlyWrites [.emit, .cmd, .ina, .flow, .vec] s (fabSchedule i b s) := by
    unfold fabSchedule
    split <;> simp [onlyWrites_refl]
  exact fabOf_congr (hkeep .fab (by decide)) j

theorem fabOf_modFabric {f : Fab → Fab} {s : State} (h : (f s.fab).links = s.fab.links) (j : Nat) :
    fabOf (modFabric f s) j = fabOf s j := congrArg (fun l => l.getD j FabLink.reset) h

theorem fabSetCosts_links (i : Nat) (c : List Byte) (s : State) (j : Nat) : fabOf (fabSetCosts i c s) j = fabOf s j := by
  unfold fabSetCosts
  dsimp only
  rw [fabOf_modFabric rfl, fabOf_modFabric rfl]

/-- The link with what its partner's beacon tells. -/
def beaconTold (b : FabricBeacon) (l : FabLink) : FabLink :=
  { l with partner := some b, partnerSlot := b.slot, partnerUid := b.uid, beaconRx := true }

theorem fabOf_beaconTold (b : FabricBeacon) (hk : k.val < s.fab.links.length) :
    fabOf (modFab k (beaconTold b) s) k = beaconTold b (fabOf s k) := fabOf_modFab_self _ _ _ hk

theorem fabForeign_iff {b : FabricBeacon} (h : (fabOf s k).partner = some b) : fabForeign s k = decide (b.vid ≠ s.ina.vid) := by
  rw [fabForeign, h]

theorem fabBeaconIn_enabled {b : FabricBeacon} (hup : (fabOf s k).st = .up) : fabBeaconIn k b s =
    let s2 := fabJudgeVid k (modFab k (beaconTold b) s)
    let s3 := if fabUp s2 k then fabSetCosts k b.cost s2 else modFab k (fun l => { l with beaconRx := true }) s2
    if fabForeign s3 k then s3 else fabSchedule k b (fabTakeTable b s3) := by
  have hen : fabEnabled s k = true := by rw [fabEnabled, hup]
  rw [fabBeaconIn, hen]
  rfl

/-- A beacon of the own vehicle on an Up link: the link has the partner it tells of, and stays Up. -/
theorem fabBeaconIn_own {b : FabricBeacon} (hk : k.val < s.fab.links.length) (hup : (fabOf s k).st = .up)
    (hvid : b.vid = s.ina.vid) : fabOf (fabBeaconIn k b s) k = beaconTold b (fabOf s k) := by
  have htold := fabOf_beaconTold b hk
  have hown : fabForeign (modFab k (beaconTold b) s) k = false := by
    rw [fabForeign_iff (by rw [htold]; rfl)]
    exact decide_eq_false (not_not.mpr hvid)
  have hst : (fabOf (modFab k (beaconTold b) s) k).st = .up := by rw [htold]; exact hup
  have hjudge : fabJudgeVid k (modFab k (beaconTold b) s) = modFab k (beaconTold b) s := by simp [fabJudgeVid, hown, hst]
  have hcosts : fabForeign (fabSetCosts k b.cost (modFab k (beaconTold b) s)) k = false := hown
  rw [fabBeaconIn_enabled hup]
  dsimp only
  rw [hjudge, if_pos (fabUp_iff.mpr hst), hcosts, if_neg Bool.false_ne_true, fabSchedule_links, fabTakeTable_links,
    fabSetCosts_links]
  exact htold

/-- A beacon of another vehicle makes the link a boundary. -/
theorem fabBeaconIn_foreign {b : FabricBeacon} (hk : k.val < s.fab.links.length) (hup : (fabOf s k).st = .up)
    (hvid : b.vid ≠ s.ina.vid) : (fabOf (fabBeaconIn k b s) k).st = .boundary ∧
    (fabOf (fabBeaconIn k b s) k).partner = some b ∧ (fabOf (fabBeaconIn k b s) k).replay = [] := by
  have htold := fabOf_beaconTold b hk
  have hforeign : fabForeign (modFab k (beaconTold b) s) k = true := by
    rw [fabForeign_iff (by rw [htold]; rfl)]
    exact decide_eq_true hvid
  have hst : (fabOf (modFab k (beaconTold b) s) k).st = .up := by rw [htold]; exact hup
  have hlen : k.val < (modFab k (beaconTold b) s).fab.links.length := by simpa [modFab, updAt_length] using hk
  obtain ⟨hst', hreplay, -, hpartner, -⟩ := fabLeave_self (s := modFab k (beaconTold b) s) .boundary hlen
  have hjudge : fabJudgeVid k (modFab k (beaconTold b) s) = fabConflict 1 (fabOf (modFab k (beaconTold b) s) k).partnerUid
      (fabLeave k .boundary (modFab k (beaconTold b) s)) := by simp [fabJudgeVid, hforeign, hst]
  have hconflict : ∀ u : State, fabOf (fabConflict 1 (fabOf (modFab k (beaconTold b) s) k).partnerUid u) k = fabOf u k :=
    fun u => fabOf_raise _ _ _ _
  have hdown : fabUp (fabConflict 1 (fabOf (modFab k (beaconTold b) s) k).partnerUid
      (fabLeave k .boundary (modFab k (beaconTold b) s))) k = false := by
    rw [fabUp, hconflict, hst']
  have hheard {β : Type} (g : FabLink → β) (hg : ∀ l, g { l with beaconRx := true } = g l) (u : State) :
      g (fabOf (if fabForeign (modFab k (fun l => { l with beaconRx := true }) u) k
        then modFab k (fun l => { l with beaconRx := true }) u
        else fabSchedule k b (fabTakeTable b (modFab k (fun l => { l with beaconRx := true }) u))) k) = g (fabOf u k) := by
    split
    · exact fabOf_modFab_field g hg _ _ _
    · rw [fabSchedule_links, fabTakeTable_links]
      exact fabOf_modFab_field g hg _ _ _
  rw [fabBeaconIn_enabled hup]
  dsimp only
  rw [hjudge, hdown]
  refine ⟨?_, ?_, ?_⟩
  · exact (hheard FabLink.st (fun _ => rfl) _).trans ((congrArg _ (hconflict _)).trans hst')
  · exact (hheard FabLink.partner (fun _ => rfl) _).trans ((congrArg _ (hconflict _)).trans
      (hpartner.trans (congrArg FabLink.partner htold)))
  · exact (hheard FabLink.replay (fun _ => rfl) _).trans ((congrArg _ (hconflict _)).trans hreplay)

theorem fabBeaconIn_disabled {b : FabricBeacon} (h : fabEnabled s k = false) : fabBeaconIn k b s = s := by
  rw [fabBeaconIn, h]
  rfl

/-! ## Slots (R507) -/

theorem fabAssign_free {u : BitVec 64} {n : Nat} (h : s.fab.slots.findIdx? (fun x => x == 0) = some n) :
    fabAssign u s = modFabric (fun f => { f with slots := updAt f.slots n (fun _ => u) }) s := by
  rw [fabAssign, h]

theorem fabAssign_full {u : BitVec 64} (h : s.fab.slots.findIdx? (fun x => x == 0) = none) :
    (fabAssign u s).fab.slots = s.fab.slots ∧ u ∈ (fabAssign u s).fab.noSlot := by
  have hfab : (fabAssign u s).fab = { s.fab with noSlot := s.fab.noSlot ++ [u] } := by
    rw [fabAssign, h]
    simp [fabConflict, modFabric]
  rw [hfab]
  exact ⟨rfl, by simp⟩

/-! ## Frames (R498, R511, R513) -/

/-- What of a link's partner is read is read alike before and after a change that leaves it. -/
theorem find?_updAt_map {α β : Type} {p : α → Bool} {g : α → β} {f : α → α} (hp : ∀ x, p (f x) = p x) (hg : ∀ x, g (f x) = g x)
    (l : List α) (i : Nat) : ((updAt l i f).find? p).map g = (l.find? p).map g := by
  induction l generalizing i with
  | nil => rfl
  | cons x xs ih =>
    cases i with
    | zero =>
      rw [updAt, List.find?_cons, List.find?_cons, hp]
      split
      · exact congrArg some (hg x)
      · rfl
    | succ i =>
      rw [updAt, List.find?_cons, List.find?_cons]
      split
      · rfl
      · exact ih i

/-- The next frame of a link expected. -/
def nextExpected (l : FabLink) : FabLink := { l with rxSeq := l.rxSeq + 1 }

theorem fabActiveSlot_expected (k : Nat) (s : State) : fabActiveSlot (modFab k nextExpected s) = fabActiveSlot s := by
  have hfind := find?_updAt_map (p := fun l : FabLink => match l.partner with | some b => b.active && l.st == .up | none => false)
    (g := fun l => l.partnerSlot.toNat) (f := nextExpected) (fun _ => rfl) (fun _ => rfl) s.fab.links k
  have hread (o : Option FabLink) : (match o with | some l => l.partnerSlot.toNat | none => 0) =
      (o.map (fun l => l.partnerSlot.toNat)).getD 0 := by cases o <;> rfl
  have hslot : (match (modFab k nextExpected s).fab.links.find? (fun l : FabLink => match l.partner with
      | some b => b.active && l.st == .up | none => false) with | some l => l.partnerSlot.toNat | none => 0) =
      (match s.fab.links.find? (fun l : FabLink => match l.partner with
      | some b => b.active && l.st == .up | none => false) with | some l => l.partnerSlot.toNat | none => 0) := by
    rw [hread, hread]
    exact congrArg (Option.getD · 0) hfind
  exact congrArg (fun x => if fabActiveTwin s then fabSlot s else if !s.fab.attached then 1 - fabSlot s else x) hslot

theorem fabDest_expected (k : Nat) (s : State) (dst : Nat) : fabDest (modFab k nextExpected s) dst = fabDest s dst := by
  have htrunk : fabTrunkSlot (modFab k nextExpected s) = fabTrunkSlot s := by
    rw [fabTrunkSlot, fabActiveSlot_expected]
    rfl
  rw [fabDest, htrunk]
  rfl

/-- A frame in sequence on an Up link: delivered, dropped or sent on. -/
theorem fabFrameIn_next {f : FabricFrame} (hup : (fabOf s k).st = .up) (hseq : f.seq = (fabOf s k).rxSeq) : fabFrameIn k f s =
    if fabDest s f.dst.toNat = fabSlot s then fabDeliver f (modFab k nextExpected s)
    else if f.hops.toNat ≤ 1 then fabCount k 4 (modFab k nextExpected s)
    else fabForward k { f with hops := f.hops - 1 } (modFab k nextExpected s) := by
  have hin : (!fabUp s k || decide (f.seq ≠ (fabOf s k).rxSeq)) = false := by simp [fabUp_iff.mpr hup, hseq]
  rw [← fabDest_expected k s]
  exact if_neg (by rw [hin]; exact Bool.false_ne_true)

theorem fabFrameIn_stale {f : FabricFrame} (hseq : f.seq ≠ (fabOf s k).rxSeq) : fabFrameIn k f s = s :=
  if_pos (by simp [hseq])

theorem fabForward_routed {j : Fin 4} {f : FabricFrame} (h : fabRoute s (fabDest s f.dst.toNat) = some j.val) :
    fabForward k f (modFab k nextExpected s) = fabSendOn j f (modFab k nextExpected s) := by
  have hroute : fabRoute (modFab k nextExpected s) (fabDest (modFab k nextExpected s) f.dst.toNat) = some j.val := by
    rw [fabDest_expected]
    exact h
  rw [fabForward, hroute]

/-- R498: the one frame that waits too long is sent again, and counted. -/
theorem fabResend_one {f : FabricFrame} {c : Nat} {old : FabricFrame × Nat → Bool}
    (hreplay : (fabOf s k).replay = [(f, c)]) (hold : old (f, c) = true) :
    fabResend k old s = emit (.fabric k f) (fabCount k 1 (modFab k (fun l => { l with
      replay := l.replay.map (fun x => if old x then (x.1, s.clk) else x) }) s)) := by
  simp [fabResend, hreplay, hold, forEach]

theorem fabResend_none {old : FabricFrame × Nat → Bool} (hreplay : (fabOf s k).replay = []) : fabResend k old s = s := by
  have hfixed : ∀ l : FabLink, l.replay = [] →
      { l with replay := l.replay.map (fun x => if old x then (x.1, s.clk) else x) } = l := by
    rintro ⟨⟩ h
    obtain rfl : _ = [] := h
    rfl
  have hsame : modFab k (fun l => { l with replay := l.replay.map (fun x => if old x then (x.1, s.clk) else x) }) s = s := by
    simp only [modFab]
    rw [updAt_congr (g := fun x => x) FabLink.reset (hfixed _ hreplay), updAt_id]
  simp [fabResend, hreplay, forEach, hsame]

theorem fabAckTimeout_one {f : FabricFrame} {c : Nat} (hk : k.val < s.fab.links.length) (hup : (fabOf s k).st = .up)
    (hreplay : (fabOf s k).replay = [(f, c)]) (hold : c + usT 10 ≤ s.clk + dt) (hextest : s.sys.extest = false) :
    ∃ t, exec (.fabricAckTimeout dt k) s = .next t ∧ t.emit = [.fabric k f] ∧ (fabOf t k).replay = [(f, s.clk + dt)] ∧
      (fabOf t k).ctr = ctrInc (fabOf s k).ctr 1 := by
  have hold' : decide (c + usT 10 ≤ (begin_ dt s).clk) = true := decide_eq_true hold
  have hexec : exec (.fabricAckTimeout dt k) s = .next (fabResend k (fun x => x.2 + usT 10 ≤ (begin_ dt s).clk) (begin_ dt s)) :=
    congrArg Host.Outcome.next (if_pos (fabUp_iff (s := begin_ dt s).mpr hup))
  have hlink : fabOf (fabCount k 1 (modFab k (fun l => { l with replay := l.replay.map (fun x =>
      if decide (x.2 + usT 10 ≤ (begin_ dt s).clk) then (x.1, (begin_ dt s).clk) else x) }) (begin_ dt s))) k =
      { fabOf s k with replay := [(f, s.clk + dt)], ctr := ctrInc (fabOf s k).ctr 1 } := by
    rw [fabCount, modFab_modFab, fabOf_modFab_self k _ (begin_ dt s) hk]
    have hback : fabOf (begin_ dt s) k = fabOf s k := rfl
    rw [hback, hreplay, List.map_singleton, if_pos hold']
    rfl
  rw [fabResend_one (s := begin_ dt s) hreplay hold'] at hexec
  refine ⟨_, hexec, ?_, ?_, ?_⟩
  · exact emit_sent (s := fabCount k 1 (modFab k _ (begin_ dt s))) hextest _
  · rw [fabOf_emit, hlink]
  · rw [fabOf_emit, hlink]

/-! ## Up and down (R499) -/

theorem fabEnterUp_self (hk : k.val < s.fab.links.length) :
    (fabOf (fabEnterUp k s) k).st = .up ∧ (fabOf (fabEnterUp k s) k).delays = [DelayEst.reset, DelayEst.reset] := by
  have hentered := fabOf_modFab_self k (fun l => { l with
    st := .up, delays := [DelayEst.reset, DelayEst.reset], spareClk := s.clk
    spare := match l.spare with | .retired => .retired | _ => .suspect }) s hk
  have hlink : fabOf (fabEnterUp k s) k = fabOf (modFab k (fun l => { l with
      st := .up, delays := [DelayEst.reset, DelayEst.reset], spareClk := s.clk
      spare := match l.spare with | .retired => .retired | _ => .suspect }) s) k := fabOf_raise _ _ _ _
  rw [hlink, hentered]
  exact ⟨rfl, rfl⟩

theorem fabEnterUp_ne {j : Nat} (hj : j ≠ k) : fabOf (fabEnterUp k s) j = fabOf s j :=
  (fabOf_raise _ _ _ _).trans (fabOf_modFab_ne _ _ _ _ hj.symm)

theorem exec_fabricLinkUp (htrain : (fabOf s k).st = .training) (htx : (fabOf s k).beaconTx = true)
    (hrx : (fabOf s k).beaconRx = true) (hown : fabForeign s k = false) :
    exec (.fabricLinkUp dt k) s = .next (fabEnterUp k (begin_ dt s)) := by
  have htrain' : fabTraining (begin_ dt s) k = true := by
    have hst : (fabOf (begin_ dt s) k).st = .training := htrain
    rw [fabTraining, hst]
  have htx' : (fabOf (begin_ dt s) k).beaconTx = true := htx
  have hrx' : (fabOf (begin_ dt s) k).beaconRx = true := hrx
  have hown' : fabForeign (begin_ dt s) k = false := hown
  exact congrArg Host.Outcome.next (if_pos (by rw [htrain', htx', hrx', hown']; rfl))

/-! ## Lanes (R500–R502) -/

/-- The active lane at fault, made the Suspect spare; what waits for an acknowledgement is not sent again yet. -/
def laneSwitched (k : Fin 4) (l : Fin 2) (s : State) : State :=
  emit (.laneSwitch (Fin.ofNat 4 k) (1 - l)) (fabCount k 2 (modFab k (fun x => { x with
    lane := 1 - l, spare := .suspect, spareClk := s.clk, switches := keepLast 8 (x.switches ++ [(l, s.clk)]) }) s))

theorem laneSwitched_link {l : Fin 2} (hk : k.val < s.fab.links.length) (hfirst : (fabOf s k).switches = []) :
    fabOf (laneSwitched k l s) k = { fabOf s k with
      lane := 1 - l, spare := .suspect, spareClk := s.clk, switches := [(l, s.clk)], ctr := ctrInc (fabOf s k).ctr 2 } := by
  rw [laneSwitched, fabOf_emit, fabCount, modFab_modFab, fabOf_modFab_self _ _ _ hk, hfirst]
  rfl

theorem fabSwitchLane_unretired {l : Fin 2} (h : laneSwitches k l (laneSwitched k l s) < 3) : fabSwitchLane k l s =
    fabResend k (fun _ => true)
      (raise 0x0B02 (leBytes 1 k ++ leBytes 1 (1 - l).val ++ leBytes 1 (b2n false)) (laneSwitched k l s)) := by
  have hfew : decide (3 ≤ laneSwitches k l (laneSwitched k l s)) = false := decide_eq_false (Nat.not_le.mpr h)
  have hsplit : fabSwitchLane k l s = fabResend k (fun _ => true)
      (raise 0x0B02 (leBytes 1 k ++ leBytes 1 (1 - l).val ++ leBytes 1 (b2n (3 ≤ laneSwitches k l (laneSwitched k l s))))
        (if 3 ≤ laneSwitches k l (laneSwitched k l s) then retireLane k l (laneSwitched k l s) else laneSwitched k l s)) := rfl
  rw [hsplit, hfew, if_neg (Nat.not_le.mpr h)]

theorem fabSwitchLane_first {l : Fin 2} (hk : k.val < s.fab.links.length) (hfirst : (fabOf s k).switches = [])
    (hreplay : (fabOf s k).replay = []) : fabOf (fabSwitchLane k l s) k = { fabOf s k with
      lane := 1 - l, spare := .suspect, spareClk := s.clk, switches := [(l, s.clk)], ctr := ctrInc (fabOf s k).ctr 2 } := by
  have hlink := laneSwitched_link (l := l) hk hfirst
  have hfew : laneSwitches k l (laneSwitched k l s) < 3 := by
    have hlength := List.length_filter_le (fun x : Fin 2 × Nat => x.1 = l && (laneSwitched k l s).clk ≤ x.2 + secT 86400)
      (fabOf (laneSwitched k l s) k).switches
    have hone : (fabOf (laneSwitched k l s) k).switches.length = 1 := by rw [hlink]; rfl
    exact Nat.lt_of_le_of_lt (hlength.trans hone.le) (by decide)
  have htold := fabOf_raise 0x0B02 (leBytes 1 k ++ leBytes 1 (1 - l).val ++ leBytes 1 (b2n false)) (laneSwitched k l s) k
  rw [fabSwitchLane_unretired hfew, fabResend_none (by rw [htold, hlink]; exact hreplay), htold, hlink]

/-- Block errors on the active lane noted. -/
theorem exec_fabricLaneSwitch {l : Fin 2} {e : Option Nat} (hup : (fabOf s k).st = .up) (hlane : (fabOf s k).lane = l) :
    exec (.fabricLaneSwitch dt k l e) s = .next (if (match (fabOf s k).spare with | .good => true | _ => false) && 16 ≤ e.getD 16
      then fabSwitchLane k l (fabBlockErrors k (e.getD 0) (begin_ dt s)) else fabBlockErrors k (e.getD 0) (begin_ dt s)) :=
  congrArg Host.Outcome.next (if_pos (by
    have hlane' : (fabOf (begin_ dt s) k).lane = l := hlane
    rw [fabUp_iff (s := begin_ dt s).mpr hup, hlane']
    simp))

theorem spareJudged_self {n : Nat} (hk : k.val < s.fab.links.length) : fabOf (spareJudged k n s) k =
    (match (fabOf s k).spare with
     | .retired => fabOf s k
     | _ => if 1 < n then { fabOf s k with spare := .suspect, spareClk := s.clk }
            else if (fabOf s k).spareClk + secT 1 ≤ s.clk then { fabOf s k with spare := .good } else fabOf s k) :=
  fabOf_modFab_self _ _ _ hk

theorem spareJudged_bad {n : Nat} (hk : k.val < s.fab.links.length) (hspare : (fabOf s k).spare ≠ .retired) (hn : 1 < n) :
    fabOf (spareJudged k n s) k = { fabOf s k with spare := .suspect, spareClk := s.clk } := by
  rw [spareJudged_self hk]
  split
  · exact absurd ‹_› hspare
  · exact if_pos hn

theorem spareJudged_good {n : Nat} (hk : k.val < s.fab.links.length) (hspare : (fabOf s k).spare ≠ .retired) (hn : n ≤ 1)
    (hclk : (fabOf s k).spareClk + secT 1 ≤ s.clk) : fabOf (spareJudged k n s) k = { fabOf s k with spare := .good } := by
  rw [spareJudged_self hk]
  split
  · exact absurd ‹_› hspare
  · rw [if_neg (Nat.not_lt.mpr hn), if_pos hclk]

theorem spareJudged_same {n : Nat} (hk : k.val < s.fab.links.length)
    (h : (fabOf s k).spare = .retired ∨ (n ≤ 1 ∧ s.clk < (fabOf s k).spareClk + secT 1)) :
    fabOf (spareJudged k n s) k = fabOf s k := by
  rw [spareJudged_self hk]
  rcases h with h | ⟨hn, hclk⟩
  · rw [h]
  · split
    · rfl
    · rw [if_neg (Nat.not_lt.mpr hn), if_neg (Nat.not_le.mpr hclk)]

/-! ## Reports (R510) -/

section
variable {r : FabricReport} {d : Directory} {v : VehRec} (hdir : s.ina.dir = some d)
  (hfind : d.vehicles.find? (fun v => v.vid == r.vid && !isLegacy v) = some v)
include hdir hfind

theorem reportIn_listed : reportIn r s = if reportDiffers v r s
    then modIna (fun n => { n with fabricNew := s.ina.fabricNew.filter (fun x => x.vid ≠ r.vid) ++ [r] }) s
    else modIna (fun n => { n with
      fabricNew := s.ina.fabricNew.filter (fun x => x.vid ≠ r.vid)
      fabricKnown := s.ina.fabricKnown.filter (fun x => x.vid ≠ r.vid) ++ [r] }) s := by
  simp only [reportIn, hdir, Option.bind_some, hfind]

end

theorem fabricReportIn_first {r : FabricReport} (h : isFirst s = true) : fabricReportIn none r s = reportIn r s := by
  simp [fabricReportIn, keptOut, h]

theorem fabricReportIn_local {r : FabricReport} (h : isFirst s = false) : fabricReportIn none r s = s := by
  simp [fabricReportIn, keptOut, h]

theorem fabricReportIn_refused {p : Nat} {r : FabricReport} (h : portUp s p = false ∨ isBoundary s p = true) :
    fabricReportIn (some p) r s = s := by
  rcases h with h | h <;> simp [fabricReportIn, keptOut, h]

section
variable {p : Nat} {r : FabricReport} (hup : portUp s p = true) (hinner : isBoundary s p = false)
include hup hinner

theorem fabricReportIn_strays (hstrays : straysNow p s = true) : fabricReportIn (some p) r s =
    forwardLen p (.fabricReport r) (controlLen (reportBytes r).length) (schedCount 9 s) := by
  simp [fabricReportIn, keptOut, hup, hinner, hstrays]

theorem fabricReportIn_passes (hown : straysNow p s = false) (hnot : isFirst s = false) : fabricReportIn (some p) r s =
    forwardLen p (.fabricReport r) (controlLen (reportBytes r).length) s := by
  simp [fabricReportIn, keptOut, hup, hinner, hown, hnot]

end

/-! ## Ticks (R514–R516, R226) -/

theorem fabUpLinks_begin (dt : Nat) (s : State) : fabUpLinks (begin_ dt s) = fabUpLinks s := rfl

theorem exec_fabricTickSend {x : FabricTick} (hfree : s.fab.attached = false) (hopens : s.sched.openOk = true ∨ opensCycles s = true)
    (hdue : tickDue (begin_ dt s) = true) (hown : ownTick (begin_ dt s) = some x) (hlinks : fabUpLinks s = [k.val]) :
    exec (.fabricTickSend dt) s =
      .next (emit (.fabricTick k x) (modFabric (fun f => { f with tickSent := true }) (begin_ dt s))) := by
  have hopens' : ((begin_ dt s).sched.openOk || opensCycles (begin_ dt s)) = true := by
    rcases hopens with h | h
    · exact Bool.or_eq_true_iff.mpr (.inl h)
    · exact Bool.or_eq_true_iff.mpr (.inr h)
  have hfree' : (begin_ dt s).fab.attached = false := hfree
  refine congrArg Host.Outcome.next ((if_neg ?_).trans ?_)
  · rw [hfree', hopens', hdue]
    decide
  · rw [hown, fabUpLinks_begin, hlinks]
    simp [forEach]

theorem exec_fabricTickSend_none (h : s.fab.attached = true ∨ tickDue (begin_ dt s) = false) :
    exec (.fabricTickSend dt) s = .next (begin_ dt s) := by
  refine congrArg Host.Outcome.next (if_pos ?_)
  rcases h with h | h
  · have h' : (begin_ dt s).fab.attached = true := h
    rw [h', Bool.true_or, Bool.true_or]
  · rw [h, Bool.not_false, Bool.or_true]

theorem tickIn_ignored {x : FabricTick} {rx : Int} {res : Nat} (h : s.fab.attached = false ∨ tickAgain x s = true) :
    tickIn k x rx res s = s := by
  rcases h with h | h <;> exact if_pos (by simp [h])

/-- A tick of the preferred twin at a node without a schedule is noted, and goes nowhere on. -/
theorem tickIn_preferred {x : FabricTick} {rx : Int} {res : Nat} (hatt : s.fab.attached = true) (hup : (fabOf s k).st = .up)
    (hrun : s.sched.running = none) (hpref : x.fromTwinB = tickPreferB s) (hsrc : s.fab.srcB = x.fromTwinB)
    (hnew : tickAgain x s = false) (hlinks : fabUpLinks s = [k.val]) :
    tickIn k x rx res s = modFabric (fun f => { f with
      ticks := f.ticks.filter (fun y => y.1 != x.fromTwinB) ++ [(x.fromTwinB, x.time)]
      tickPref := true, srcB := x.fromTwinB }) s := by
  have hgood : tickGood k x rx (tickNote x s) = true := by
    have hrun' : (tickNote x s).sched.running = none := hrun
    rw [tickGood, hrun']
  have hpref' : (x.fromTwinB == tickPreferB (tickNote x s)) = true := by
    have hsame : tickPreferB (tickNote x s) = tickPreferB s := rfl
    rw [hsame, ← hpref, beq_self_eq_true]
  have hsrc' : (tickNote x s).fab.srcB = x.fromTwinB := hsrc
  have hchosen : tickChoose x (tickNote x s) = modFabric (fun f => { f with
      ticks := f.ticks.filter (fun y => y.1 != x.fromTwinB) ++ [(x.fromTwinB, x.time)]
      tickPref := true, srcB := x.fromTwinB }) s := by
    rw [tickChoose, hpref']
    simp only [modFabric, hsrc', ite_self, if_true]
    rfl
  have hlast : tickOn k x res (tickChoose x (tickNote x s)) = tickChoose x (tickNote x s) := by
    have hlinks' : fabUpLinks (tickChoose x (tickNote x s)) = [k.val] := by rw [hchosen]; exact hlinks
    simp [tickOn, hlinks', forEach]
  have htaken : (!s.fab.attached || !fabUp s k || tickAgain x s) = false := by
    rw [hatt, fabUp_iff.mpr hup, hnew]
    rfl
  have hrun' : (tickChoose x (tickNote x s)).sched.running = none := by rw [hchosen]; exact hrun
  have hsrc'' : (tickChoose x (tickNote x s)).fab.srcB = x.fromTwinB := by rw [hchosen]; rfl
  rw [tickIn, htaken]
  simp only [hgood, if_true, Bool.false_eq_true, if_false, hsrc'', ne_eq, not_true_eq_false, hrun', hlast]
  exact hchosen

/-- R517: the first frame of a fabric node in the Active twin's buffer. -/
theorem proxyIn_first {m : Fin 16} {n : Nat} {f : FlowFrame} (hactive : fabActiveTwin s = true) (hempty : s.fab.proxy = [])
    (hlen : flowWireLen f ≤ 98304) : proxyIn m n f s = modFabric (fun b => { b with proxy := [(m, n, s.now, f)] }) s := by
  simp [proxyIn, hempty, hactive, Nat.not_lt.mpr hlen]

end

end Sys2Proof.Machine
end

section
/-! PROOFS. The statement of spec/11_vehicle_fabric_and_host_bridge.md about the fabric's events. -/

open Sys2Proof Sys2Proof.Machine

/-- Settles O36: each command by the lemma about the state it makes. -/
theorem fabricEventsComplete : Obligations.FabricEventsComplete := by
  intro dt s hs
  have hk (k : Fin 4) : k.val < (begin_ dt s).fab.links.length := hs.fab_lt k
  refine ⟨?_, ?_, ?_, ?_, ?_, ?_, ?_, ?_, ?_, ?_, ?_, ?_, ?_, ?_, ?_, ?_, ?_, ?_, ?_, ?_, ?_, ?_, ?_, ?_, ?_, ?_, ?_, ?_,
    ?_, ?_, ?_, ?_, ?_, ?_, ?_, ?_, ?_⟩
  · intro k hen hextest
    refine ⟨_, exec_fabricBeaconSend hen, ?_, ?_⟩
    · exact emit_sent (s := modFab k _ (begin_ dt s)) hextest _
    · rw [fabOf_emit, fabOf_modFab_self _ _ _ (hk k)]
      exact ⟨rfl, rfl⟩
  · intro k hen
    exact congrArg Host.Outcome.next (if_neg (Bool.eq_false_iff.mp hen))
  · intro k b hup hvid
    refine ⟨_, rfl, ?_⟩
    rw [fabBeaconIn_own (s := begin_ dt s) (hk k) hup hvid]
    exact ⟨rfl, rfl, rfl, hup⟩
  · exact fun k b hup hvid => ⟨_, rfl, fabBeaconIn_foreign (s := begin_ dt s) (hk k) hup hvid⟩
  · exact fun k b hen => congrArg Host.Outcome.next (fabBeaconIn_disabled (s := begin_ dt s) hen)
  · exact fun u hdue hnow => congrArg Host.Outcome.next (instantIf_of_due hdue hnow)
  · exact fun u hnot => congrArg Host.Outcome.next (instantIf_of_not_due hnot)
  · exact fun u n hfree => fabAssign_free hfree
  · exact fun u hfull => fabAssign_full hfull
  · intro u hactive hnew
    rw [fabAssignAtInstant, if_pos hactive, hnew]
    rfl
  · intro k f hup hseq hdest
    exact congrArg Host.Outcome.next ((fabFrameIn_next (s := begin_ dt s) hup hseq).trans (if_pos hdest))
  · intro k f hup hseq hdest hhops
    refine congrArg Host.Outcome.next ((fabFrameIn_next (s := begin_ dt s) hup hseq).trans
      ((if_neg hdest).trans ((if_pos hhops).trans ?_)))
    rw [fabCount, modFab_modFab]
    rfl
  · intro k j f hup hseq hdest hhops hroute hne
    refine congrArg Host.Outcome.next ((fabFrameIn_next (s := begin_ dt s) hup hseq).trans
      ((if_neg hdest).trans ((if_neg (Nat.not_le.mpr hhops)).trans ?_)))
    exact fabForward_routed (s := begin_ dt s) (f := { f with hops := f.hops - 1 }) hroute
  · exact fun k f hseq => congrArg Host.Outcome.next (fabFrameIn_stale (s := begin_ dt s) hseq)
  · exact fun k f c hup hreplay hold hextest => fabAckTimeout_one (hk k) hup hreplay hold hextest
  · intro k hen
    obtain ⟨hst, hreplay, hrx, -, -⟩ := fabLeave_self (s := begin_ dt s) .training (hk k)
    exact ⟨_, congrArg Host.Outcome.next (if_pos hen), hst, hreplay, hrx,
      fun j hj => fabLeave_ne (s := begin_ dt s) .training fun h => hj (Fin.ext h)⟩
  · intro k htrain htx hrx hown
    obtain ⟨hst, hdelays⟩ := fabEnterUp_self (s := begin_ dt s) (hk k)
    exact ⟨_, exec_fabricLinkUp htrain htx hrx hown, hst, hdelays,
      fun j hj => fabEnterUp_ne (s := begin_ dt s) fun h => hj (Fin.ext h)⟩
  · intro k l e hup hlane hgood hfirst hreplay he
    have herrors := fabOf_modFab_self k.val (fun x => { x with ctr := updAt x.ctr 0 (satAdd (e.getD 0)) }) (begin_ dt s) (hk k)
    refine ⟨_, (exec_fabricLaneSwitch hup hlane).trans (congrArg _ (if_pos (by rw [hgood]; simpa using he))), ?_⟩
    have hlen : k.val < (fabBlockErrors k (e.getD 0) (begin_ dt s)).fab.links.length := by
      simpa [fabBlockErrors, modFab, updAt_length] using hk k
    rw [fabSwitchLane_first hlen ((congrArg FabLink.switches herrors).trans hfirst)
      ((congrArg FabLink.replay herrors).trans hreplay)]
    exact ⟨rfl, rfl, rfl, congrArg (fun x => ctrInc (FabLink.ctr x) 2) herrors⟩
  · intro k l e hup hlane hnot
    refine (exec_fabricLaneSwitch hup hlane).trans (congrArg _ (if_neg ?_))
    rcases hnot with hnot | hnot
    · cases hspare : (fabOf s k).spare
      · exact absurd hspare hnot
      · simp
      · simp
    · simp [Nat.not_le.mpr hnot]
  · intro k l e hlane
    refine congrArg Host.Outcome.next (if_neg ?_)
    have hlane' : (fabOf (begin_ dt s) k).lane ≠ l := hlane
    simp [hlane']
  · intro k n hspare hn
    refine ⟨_, rfl, ?_⟩
    rw [spareJudged_bad (s := begin_ dt s) (hk k) hspare hn]
    exact ⟨rfl, rfl, rfl⟩
  · intro k n hspare hn hclk
    refine ⟨_, rfl, ?_⟩
    rw [spareJudged_good (s := begin_ dt s) (hk k) hspare hn hclk]
    exact ⟨rfl, rfl⟩
  · exact fun k n h => ⟨_, rfl, spareJudged_same (s := begin_ dt s) (hk k) h⟩
  · intro r d v hfirst hdir hfind hbits
    have hdiffers : reportDiffers v r (begin_ dt s) = true := by simp [reportDiffers, hbits]
    exact congrArg Host.Outcome.next ((fabricReportIn_first (s := begin_ dt s) hfirst).trans
      ((reportIn_listed (s := begin_ dt s) hdir hfind).trans (if_pos hdiffers)))
  · intro r d v hfirst hdir hfind hsame
    exact congrArg Host.Outcome.next ((fabricReportIn_first (s := begin_ dt s) hfirst).trans
      ((reportIn_listed (s := begin_ dt s) hdir hfind).trans (if_neg (Bool.eq_false_iff.mp hsame))))
  · exact fun p r hup hinner hstrays => congrArg Host.Outcome.next (fabricReportIn_strays (s := begin_ dt s) hup hinner hstrays)
  · rintro p r ⟨hup, hinner, hown⟩ hnot
    exact congrArg Host.Outcome.next (fabricReportIn_passes (s := begin_ dt s) hup hinner hown hnot)
  · exact fun p r h => congrArg Host.Outcome.next (fabricReportIn_refused (s := begin_ dt s) h)
  · exact fun r hnot => congrArg Host.Outcome.next (fabricReportIn_local (s := begin_ dt s) hnot)
  · exact fun x k hfree hopens hdue hown hlinks => exec_fabricTickSend hfree hopens hdue hown hlinks
  · exact fun h => exec_fabricTickSend_none h
  · intro k x rx res hatt hup hrun hpref hsrc hnew hlinks
    exact congrArg Host.Outcome.next (tickIn_preferred (s := begin_ dt s) hatt hup hrun hpref hsrc hnew hlinks)
  · exact fun k x rx res _ hagain => congrArg Host.Outcome.next (tickIn_ignored (s := begin_ dt s) (.inr hagain))
  · exact fun k x rx res hfree => congrArg Host.Outcome.next (tickIn_ignored (s := begin_ dt s) (.inl hfree))
  · intro m n f hactive hempty hlen
    exact congrArg Host.Outcome.next (proxyIn_first (s := begin_ dt s) hactive hempty hlen)
  · exact fun m n f hnot => congrArg Host.Outcome.next (if_pos (by
      have hnot' : fabActiveTwin (begin_ dt s) = false := hnot
      rw [hnot']
      rfl))
  · exact fun m fl hfree => congrArg Host.Outcome.next (if_neg (Bool.eq_false_iff.mp hfree))

end

section
/-! PROOFS. The host bridge (spec/11): requests, responses, timers, windows and semaphores. -/

namespace Sys2Proof.Machine

section
variable {dt : Nat} {s : State}

/-! ## What a route leaves of the bridge -/

/-- A frame on its way leaves the bridge as it was. -/
theorem bridgeRoute_bridge {resp : Bool} {f : BridgeFrame} {t : State} (h : bridgeRoute resp f s = some t) :
    t.bridge = s.bridge := by
  have hkeep : OnlyWrites [.emit, .trunk, .sched, .fab] s t :=
    (bridgeRoute_writes _ s resp f s t h (by decide) (by decide) (by decide) (by decide)).mpr (onlyWrites_refl _ _)
  have hrest := hkeep .bridge (by decide)
  have hvec := hkeep .vec (by decide)
  have heq : ∀ a b : Bridge, { a with vecPend := 0 } = { b with vecPend := 0 } → a.vecPend = b.vecPend → a = b := by
    rintro ⟨⟩ ⟨⟩ h h'
    simp_all
  exact heq _ _ hrest hvec

theorem bridgeRoute_getD_bridge (resp : Bool) (f : BridgeFrame) (s : State) :
    ((bridgeRoute resp f s).getD s).bridge = s.bridge := by
  cases h : bridgeRoute resp f s with
  | none => rfl
  | some t => exact bridgeRoute_bridge h

/-- The answer to a request that is not BUSY is kept first. -/
theorem bridgeAnswer_bridge {status : Nat} {data : List Byte} {r : BridgeFrame} (h : status ≠ 0x80) :
    (bridgeAnswer status data r s).bridge = { s.bridge with
      store := s.bridge.store.filter (fun e => e.1 ≠ r.initUid) ++ keepLast 32
        (s.bridge.store.filter (fun e => e.1 = r.initUid) ++ [(r.initUid, r.tag,
          { r with status := BitVec.ofNat 8 status, data := data, dst := r.initAddr, gen := s.ina.gen })]) } := by
  unfold bridgeAnswer
  dsimp only
  rw [if_neg h, bridgeRoute_getD_bridge]
  rfl

/-! ## Frames that arrive (R528–R530, R534) -/

theorem bridgeRx_delivered {resp bad : Bool} {r : BridgeFrame} (hpower : s.sys.powered = true) :
    bridgeRx none resp bad r s = bridgeFrameIn none resp bad r s := by
  simp [bridgeRx, keptOut, hpower]

theorem bridgeRx_refused {p : Fin 4} {resp bad : Bool} {r : BridgeFrame} (h : portUp s p = false ∨ isBoundary s p = true) :
    bridgeRx (some p) resp bad r s = s := by
  rcases h with h | h <;> simp [bridgeRx, keptOut, h]

section
variable {p : Fin 4} {resp bad : Bool} {r : BridgeFrame} (hpower : s.sys.powered = true) (hup : portUp s p = true)
  (hinner : isBoundary s p = false)
include hpower hup hinner

theorem bridgeRx_strays (hstrays : straysNow p s = true) :
    bridgeRx (some p) resp bad r s = forwardLen p (.bridge resp r) (bridgeLen r) (schedCount 9 s) := by
  simp [bridgeRx, keptOut, hpower, hup, hinner, hstrays, bridgePass]

theorem bridgeRx_passes (hown : straysNow p s = false) (haddr : ownAddr r.dst s = false)
    (hpos : r.dst.toNat / 16 ≠ position s) :
    bridgeRx (some p) resp bad r s = forwardLen p (.bridge resp r) (bridgeLen r) s := by
  simp [bridgeRx, keptOut, hpower, hup, hinner, hown, bridgeFrameIn, haddr, bridgeOther, hpos, bridgePass]

end

theorem bridgeFrameIn_attached {resp bad : Bool} {r : BridgeFrame} (haddr : ownAddr r.dst s = false) (hatt : s.fab.attached = true) :
    bridgeFrameIn none resp bad r s = s := by
  simp [bridgeFrameIn, haddr, bridgeOther, hatt, bridgePass]

theorem bridgeFrameIn_request {bad : Bool} {r : BridgeFrame} (haddr : ownAddr r.dst s = true) :
    bridgeFrameIn none false bad r s = requestIn bad r s := by
  simp [bridgeFrameIn, haddr]

theorem bridgeFrameIn_response {r : BridgeFrame} (haddr : ownAddr r.dst s = true) :
    bridgeFrameIn none true false r s = if r.initUid = s.sys.uid then responseIn r s else s := by
  simp [bridgeFrameIn, haddr]

section
variable {bad : Bool} {r : BridgeFrame} (hready : bridgeReady s = true)
include hready

/-- A request of its own tag goes to the free engine. -/
theorem requestIn_free (h5 : r.op ≠ 5) (h2 : r.op ≠ 2) (hfree : s.bridge.out = none)
    (hstore : ∀ e ∈ s.bridge.store, ¬ (e.1 = r.initUid ∧ e.2.1 = r.tag))
    (hinq : ∀ e ∈ s.bridge.inq, ¬ (e.1.initUid = r.initUid ∧ e.1.tag = r.tag)) :
    requestIn bad r s = bridgeServe bad r s := by
  have hnew : s.bridge.store.find? (fun e => e.1 == r.initUid && e.2.1 == r.tag) = none :=
    List.find?_eq_none.mpr fun e he => by simpa using hstore e he
  have hnot : s.bridge.inq.any (fun e => e.1.initUid == r.initUid && e.1.tag == r.tag) = false :=
    List.any_eq_false.mpr fun e he => by simpa using hinq e he
  simp only [requestIn, h5, h2, hready, hnew, hnot, hfree, Bool.not_true, Bool.false_eq_true, if_false]

theorem requestIn_queued {o : Outbound} (hop : r.op = 1) (hbusy : s.bridge.out = some o) (hcross : crosses o r = false)
    (hstore : s.bridge.store = []) (hinq : s.bridge.inq = []) :
    requestIn bad r s = modBridge (fun b => { b with inq := b.inq ++ [(r, s.clk, bad)] }) s := by
  simp [requestIn, hop, hready, hstore, hinq, hbusy, hcross]

end

/-- R535: a free semaphore acquired for a request, the answer kept. -/
theorem bridgeServe_acquires {bad : Bool} {r : BridgeFrame} (hop : r.op = 3) (hsem : r.sem.toNat < 32)
    (hstore : s.bridge.store = []) (hfree : semOf s r.sem.toNat = none) (hlen : r.sem.toNat < s.bridge.sems.length) :
    (semOf (bridgeServe bad r s) r.sem.toNat).isSome = true ∧
    ∃ f, (bridgeServe bad r s).bridge.store = [(r.initUid, r.tag, f)] ∧ f.status = 0 ∧ f.dst = r.initAddr ∧
      f.gen = s.ina.gen := by
  have hserve : bridgeServe bad r s = bridgeAnswer 0 [] r (semTake (initiator r) r.sem.toNat s) := by
    simp [bridgeServe, semBusy, hfree, hop, Nat.not_le.mpr hsem]
  have hbridge := bridgeAnswer_bridge (status := 0) (data := []) (r := r) (s := semTake (initiator r) r.sem.toNat s) (by decide)
  have hstore' : (semTake (initiator r) r.sem.toNat s).bridge.store = [] := hstore
  constructor
  · rw [hserve, semOf, hbridge]
    exact congrArg Option.isSome (getD_updAt_self _ _ _ none hlen)
  · rw [hserve, hbridge, hstore']
    exact ⟨_, rfl, rfl, rfl, rfl⟩

/-! ## Responses (R529, R531) -/

theorem responseIn_out {o : Outbound} {r : BridgeFrame} (hout : s.bridge.out = some o) (htag : o.frame.tag = r.tag) :
    responseIn r s = responseOut o r s := by
  simp [responseIn, hout, htag]

theorem responseOut_read {o : Outbound} {r : BridgeFrame} (hstatus : r.status = 0) (hop : o.frame.op = 1) (hsrc : o.src = .lb) :
    responseOut o r s = bridgeRun (modBridge (fun b => { b with
      out := none, fetch := b.fetch.map (fun x => (x.1, x.2.1, some r.data)), fetchClk := s.clk }) s) := by
  simp [responseOut, hstatus, hop, readDone, hsrc, modBridge]

theorem responseOut_busy {o : Outbound} {r : BridgeFrame} (hstatus : r.status = 0x80) :
    responseOut o r s = modBridge (fun b => { b with out := some { o with busy := true, sentClk := s.clk } }) s :=
  if_pos hstatus

/-! ## Timers (R529, R531, R536) -/

/-- Nothing waits: everything that can go on has gone on. -/
theorem bridgeRun_idle (hposted : s.bridge.posted = []) (hwaiting : s.bridge.waiting = []) (hinq : s.bridge.inq = []) :
    bridgeRun s = s := by
  have hsend (w : Nat) (n : Nat) : sendPosted n w s = s := by cases n <;> simp [sendPosted, hposted]
  have hall (l : List Nat) : forEach l (fun w s => sendPosted (s.bridge.posted.length + 1) w s) s = s := by
    induction l with
    | nil => rfl
    | cons w ws ih =>
      have hstep : forEach (w :: ws) (fun w s => sendPosted (s.bridge.posted.length + 1) w s) s =
        forEach ws (fun w s => sendPosted (s.bridge.posted.length + 1) w s) (sendPosted (s.bridge.posted.length + 1) w s) := rfl
      rw [hstep, hsend, ih]
  have hposted' : sendAllPosted s = s := hall _
  rw [bridgeRun]
  simp only [hposted', hinq, hwaiting, List.length_nil]
  simp [bridgePump, hinq, hwaiting]

/-- A transfer that leaves takes its moment and one more send, and leaves the bridge. -/
theorem sendOutbound_some {o : Outbound} {x : Outbound × State} (h : sendOutbound o s = some x) :
    x.1.sends = o.sends + 1 ∧ x.1.sentClk = s.clk ∧ x.1.frame.tag = o.frame.tag ∧ x.2.bridge = s.bridge := by
  simp only [sendOutbound, Option.map_eq_some_iff] at h
  obtain ⟨t, ht, rfl⟩ := h
  exact ⟨rfl, rfl, rfl, bridgeRoute_bridge ht⟩

/-- R529: the transfer in the engine sent again under its tag. -/
theorem resendOutbound_due {o : Outbound} {drop : State → State} (hbusy : o.busy = false) (hsent : 1 ≤ o.sends)
    (hmore : o.sends < 4) (hdue : o.sentClk + 2 * macroT s ≤ s.clk) : ∃ o', o'.sends = o.sends + 1 ∧ o'.sentClk = s.clk ∧
      o'.frame.tag = o.frame.tag ∧ (resendOutbound o putOut drop s).bridge = { s.bridge with out := some o' } := by
  have hnow : (o.busy || decide (o.sends = 0) || decide (s.clk < o.sentClk + 2 * macroT s)) = false := by
    simp [hbusy, Nat.not_lt.mpr hdue]
    omega
  have heq : resendOutbound o putOut drop s = match sendOutbound o s with
      | some (o1, s1) => putOut o1 s1
      | none => putOut { o with sends := o.sends + 1, sentClk := s.clk } s := by
    rw [resendOutbound, hnow, if_pos hmore]
    rfl
  rw [heq]
  split
  next o1 s1 hsome =>
    obtain ⟨hsends, hclk, htag, hbridge⟩ := sendOutbound_some hsome
    exact ⟨o1, hsends, hclk, htag, congrArg (fun b : Bridge => { b with out := some o1 }) hbridge⟩
  · exact ⟨{ o with sends := o.sends + 1, sentClk := s.clk }, rfl, rfl, rfl, rfl⟩

theorem retryTimer_out {o : Outbound} {tag : BitVec 16} (hout : s.bridge.out = some o) (htag : o.frame.tag = tag)
    (hposted : (resendOutbound o putOut dropOut s).bridge.posted = []) :
    retryTimer tag s = resendOutbound o putOut dropOut s := by
  simp [retryTimer, hout, htag, hposted]

theorem retryTimer_unsent {o : Outbound} {tag : BitVec 16} (hout : s.bridge.out = some o) (hposted : s.bridge.posted = [])
    (hunsent : o.sends = 0) : retryTimer tag s = s := by
  simp [retryTimer, hout, resendOutbound, hunsent, hposted]

/-- R531, R537: a read of the local bus that fails is fetched as all ones, counted, and told in RD_ERR. -/
theorem failOutbound_read {code : Nat} {o : Outbound} (hop : o.frame.op = 1) (hsrc : o.src = .lb) :
    failOutbound code o s = modBridge (fun b => { b with
      rdErr := BitVec.ofNat 8 code
      rdErrWin := BitVec.ofNat 3 (match o.window with | some w => w.val | none => 0)
      ctr := ctrInc b.ctr 0
      fetch := b.fetch.map (fun x => (x.1, x.2.1, some (List.replicate o.frame.len 0xFF)))
      fetchClk := s.clk }) s := by
  cases hwin : o.window <;> simp [failOutbound, hop, readDone, hsrc, bridgeCount, modBridge, hwin]

/-- R531: a read of the local bus that stands too long completes with all ones. -/
theorem reqTimeout_read {o : Outbound} {tag : BitVec 16} (hout : s.bridge.out = some o) (hposted : s.bridge.posted = [])
    (hwaiting : s.bridge.waiting = []) (hinq : s.bridge.inq = []) (htag : o.frame.tag = tag) (hop : o.frame.op = 1)
    (hbusy : o.busy = false) (hsrc : o.src = .lb) (hover : tmoOver o s = true) :
    reqTimeout tag s = failOutbound 3 o (dropOut s) := by
  have hfail := failOutbound_read (code := 3) (s := dropOut s) hop hsrc
  have hposted' : (failOutbound 3 o (dropOut s)).bridge.posted = [] := by rw [hfail]; exact hposted
  have hwaiting' : (failOutbound 3 o (dropOut s)).bridge.waiting = [] := by rw [hfail]; exact hwaiting
  have hinq' : (failOutbound 3 o (dropOut s)).bridge.inq = [] := by rw [hfail]; exact hinq
  have hrun := bridgeRun_idle hposted' hwaiting' hinq'
  simp [reqTimeout, hout, htag, hover, hop, hbusy, hrun, hposted', hwaiting']

theorem reqTimeout_early {o : Outbound} {tag : BitVec 16} (hout : s.bridge.out = some o) (hposted : s.bridge.posted = [])
    (hwaiting : s.bridge.waiting = []) (hearly : tmoOver o s = false) : reqTimeout tag s = s := by
  simp [reqTimeout, hout, hearly, hwaiting, hposted]

theorem fetchStale_old {a n : Nat} {d : List Byte} (hfetch : s.bridge.fetch = some (a, n, some d))
    (hold : s.bridge.fetchClk + usT 100 ≤ s.clk) :
    fetchStale s = modBridge (fun b => { b with fetch := none, ctr := ctrInc b.ctr 3 }) s := by
  simp [fetchStale, hfetch, hold, bridgeCount, modBridge]

/-- R536: a transfer answered BUSY is asked for again under a new tag, whether a route is there or not. -/
theorem askAgain_due {o : Outbound} (hbusy : o.busy = true) (hdue : o.sentClk + usT 10 ≤ s.clk) :
    ∃ o', o'.frame.tag = s.bridge.nextTag ∧ o'.sentClk = s.clk ∧
      (askAgain o putOut s).bridge = { s.bridge with out := some o', nextTag := s.bridge.nextTag + 1 } := by
  have hnow : (!o.busy || decide (s.clk < o.sentClk + usT 10)) = false := by
    simp [hbusy, Nat.not_lt.mpr hdue]
  unfold askAgain
  rw [hnow]
  dsimp only
  rw [if_neg Bool.false_ne_true]
  split
  next o2 s2 hsome =>
    obtain ⟨-, hclk, htag, hbridge⟩ := sendOutbound_some hsome
    exact ⟨o2, htag, hclk, congrArg (fun b : Bridge => { b with out := some o2 }) hbridge⟩
  · exact ⟨{ o with sends := 0, frame := { o.frame with tag := s.bridge.nextTag }, busy := true, sentClk := s.clk }, rfl, rfl, rfl⟩

theorem busyRetry_out {o : Outbound} (hout : s.bridge.out = some o) (hposted : (askAgain o putOut s).bridge.posted = []) :
    busyRetry s = askAgain o putOut s := by
  simp [busyRetry, hout, hposted, forEach]

theorem busyRetry_idle {o : Outbound} (hout : s.bridge.out = some o) (hposted : s.bridge.posted = []) (hbusy : o.busy = false) :
    busyRetry s = s := by
  simp [busyRetry, hout, askAgain, hbusy, hposted, forEach]

/-! ## Windows (R523, R531, R532) -/

theorem barAccess_open {src : Iface} {len : Nat} {w : Option (List Byte)} {f : State → State} (hhost : barHost src = true)
    (hopen : ifaceOpen src s = true) : barAccess dt src len w f s = f (begin_ dt s) := by
  have hopen' : ifaceOpen src (begin_ dt s) = true := hopen
  simp [barAccess, hhost, hopen']

theorem windowRead_split {w : Fin 8} {off : Nat} (hspan : windowSpan off 4 512 = true) :
    windowRead .pcie w off 4 s = startRead .pcie w off 4 (emit .pcieHeld s) := by
  simp [windowRead, hspan, splitReads]

/-- The bus is held whatever EXTEST holds. -/
theorem emit_pcieHeld (s : State) : (emit .pcieHeld s).emit = s.emit ++ [.pcieHeld] := by
  have honPort : onPort .pcieHeld = false := rfl
  rw [emit, honPort, Bool.and_false, if_neg Bool.false_ne_true]

/-- A read through a window that is off completes with all ones at once. -/
theorem startRead_off {w : Fin 8} {off : Nat} (hmode : (windowOf s w).mode = 0) (hperst : s.sys.perst = false) :
    ∃ b, startRead .pcie w off 4 s = emit (.readData .pcie [0xFF, 0xFF, 0xFF, 0xFF]) (modBridge b s) ∧
      (b s.bridge).rdErr = 1 ∧ (b s.bridge).rdErrWin = BitVec.ofNat 3 w ∧ (b s.bridge).ctr = ctrInc s.bridge.ctr 0 := by
  refine ⟨fun b => { b with nextTag := b.nextTag + 1, rdErr := 1, rdErrWin := BitVec.ofNat 3 w, ctr := ctrInc b.ctr 0 },
    ?_, rfl, rfl, rfl⟩
  have hfault : windowFault 1 (windowOf s w) s = 1 := if_pos hmode
  simp [startRead, hfault, newOutbound, bridgeFrame, failOutbound, readDone, hperst, bridgeCount, modBridge]

/-- An event leaves the log of failed posted writes and the writes that wait. -/
theorem raise_bridge (code : Nat) (b : List Byte) :
    (raise code b s).bridge.pwlog = s.bridge.pwlog ∧ (raise code b s).bridge.posted = s.bridge.posted := by
  have hkeep : OnlyWrites [.cmd, .vec, .flow, .emit] s (raise code b s) := by simp [onlyWrites_refl]
  have hbridge : { (raise code b s).bridge with vecPend := 0 } = { s.bridge with vecPend := 0 } := hkeep .bridge (by decide)
  have hlog := congrArg Bridge.pwlog hbridge
  have hposted := congrArg Bridge.posted hbridge
  exact ⟨hlog, hposted⟩

/-- R537: the entry of the log for a failed posted write. -/
def pwEntry (code : Nat) (o : Outbound) (s : State) : PwEntry where
  time := s.now
  addr := o.frame.addr
  target := o.targetUid
  node := o.target
  error := BitVec.ofNat 8 code
  window := BitVec.ofNat 8 (match o.window with | some w => w.val | none => 0)
  iface := BitVec.ofNat 8 (ifaceTag o.src)
  len := o.frame.len

/-- R537: a failed posted write is added to the log. -/
theorem pwFail_log (code : Nat) (o : Outbound) :
    (pwFail code o s).bridge.pwlog = keepLast 64 (s.bridge.pwlog ++ [pwEntry code o s]) ∧
    (pwFail code o s).bridge.posted = s.bridge.posted := by
  have hfull : (if 64 ≤ s.bridge.pwlog.length then bridgeCount 2 s else s).bridge.pwlog = s.bridge.pwlog ∧
      (if 64 ≤ s.bridge.pwlog.length then bridgeCount 2 s else s).bridge.posted = s.bridge.posted := by
    split <;> exact ⟨rfl, rfl⟩
  unfold pwFail
  dsimp only
  rw [(raise_bridge _ _).1, (raise_bridge _ _).2]
  exact ⟨congrArg (fun l => keepLast 64 (l ++ [pwEntry code o s])) hfull.1, hfull.2⟩

/-- A posted write that the window does not allow is logged, and no write waits for it. -/
theorem postWrite_forbidden {w : Fin 8} {off : Nat} {d : List Byte} (hmode : (windowOf s w).mode ≠ 0)
    (hwr : (windowOf s w).wr = false) : ∃ e, (postWrite .pcie w off d s).bridge.pwlog = keepLast 64 (s.bridge.pwlog ++ [e]) ∧
      e.error = 2 ∧ e.window = BitVec.ofNat 8 w ∧ e.len = d.length ∧
      (postWrite .pcie w off d s).bridge.posted = s.bridge.posted := by
  have hfault : windowFault 2 (windowOf s w) s = 2 := by simp [windowFault, hmode, hwr]
  have hfail : postWrite .pcie w off d s = pwFail 2 (newOutbound 2 .pcie w off d.length d s).1
      (newOutbound 2 .pcie w off d.length d s).2 := by
    simp [postWrite, hfault, failOutbound, newOutbound, bridgeFrame]
  obtain ⟨hlog, hposted⟩ := pwFail_log (s := (newOutbound 2 .pcie w off d.length d s).2) 2
    (newOutbound 2 .pcie w off d.length d s).1
  rw [hfail]
  exact ⟨_, hlog, rfl, rfl, rfl, hposted⟩

theorem lbMask_whole {v : Nat} (hv : v < 65536) : lbMask 3 v = BitVec.ofNat 16 v := by
  have hsum : v % 256 + v / 256 % 256 * 256 = v := by omega
  exact congrArg (BitVec.ofNat 16) hsum

/-- The two halves of a register read from its four bytes. -/
theorem fieldAt_halves {lo hi : Nat} (hlo : lo < 65536) (hhi : hi < 65536) :
    fieldAt (leBytes 2 lo ++ leBytes 2 hi) 0 2 = lo ∧ fieldAt (leBytes 2 lo ++ leBytes 2 hi) 2 2 = hi := by
  simp only [fieldAt, leBytes, leNat, List.cons_append, List.nil_append, List.drop_zero, List.drop_succ_cons,
    List.take_succ_cons, List.take_zero, BitVec.toNat_ofNat]
  omega

/-- R531: the low half of what was fetched, the high half latched. -/
theorem lbRemoteRead_fetched {high : Option (Nat × BitVec 16)} {w : Fin 8} {off n lo hi : Nat} (halign : off % 4 = 0)
    (hfetch : s.bridge.fetch = some (windowAddr w off, n, some (leBytes 2 lo ++ leBytes 2 hi))) (hlo : lo < 65536)
    (hhi : hi < 65536) : lbRemoteRead 3 high w off s = emit (.lbAnswer true (BitVec.ofNat 16 lo)) (modBridge (fun b => { b with
      fetch := none, lbHigh := some (windowAddr w off, BitVec.ofNat 16 hi) }) s) := by
  obtain ⟨hlo', hhi'⟩ := fieldAt_halves hlo hhi
  have hmask := lbMask_whole hlo
  simp only [lbRemoteRead, hfetch, halign, hlo', hhi', hmask, if_true, decide_true, Bool.and_self]

/-- R523: the high half that the access before latched. -/
theorem lbRemoteRead_latched {w : Fin 8} {off r : Nat} {h : BitVec 16} (halign : off % 4 = 2) (hfetch : s.bridge.fetch = none)
    (hkey : r + 2 = windowAddr w off) :
    lbRemoteRead 3 (some (r, h)) w off s = emit (.lbAnswer true (lbMask 3 h.toNat)) s := by
  simp [lbRemoteRead, hfetch, halign, hkey]

/-- A read outside a locked sequence of a half that lies in the window. -/
theorem lbWindowRead_unlocked {w : Fin 8} {off : Nat} (hin : off < 0x400000) (heven : off % 2 = 0) :
    lbWindowRead false w off s = lbRemoteRead 3 s.bridge.lbHigh w off (modBridge (fun b => { b with lbHigh := none }) s) := by
  have hoff : off % 0x400000 / 2 * 2 = off := by omega
  simp [lbWindowRead, lbLocked, hoff]

/-! ## Locked sequences and semaphores (R535, R536) -/

section
variable {w : Fin 8} {f : State → State} (hguard : (windowOf s w).guard_.isSome = true)
include hguard

theorem lbLocked_held (hlock : s.bridge.lock = some (w, true)) : lbLocked true w f s = f s := by
  have hguard' : (windowOf s w).guard_.isNone = false := by simpa using hguard
  simp [lbLocked, hguard', hlock]

theorem lbLocked_other {v : Fin 8} (hlock : s.bridge.lock = some (v, true)) (hne : v ≠ w) :
    lbLocked true w f s = emit (.lbAnswer false 0) s := by
  have hguard' : (windowOf s w).guard_.isNone = false := by simpa using hguard
  simp [lbLocked, hguard', hlock, hne]

theorem lbLocked_first (hlock : s.bridge.lock = none) (hfetch : s.bridge.fetch = none) : lbLocked true w f s =
    emit (.lbAnswer false 0) (semOperation 3 w (modBridge (fun b => { b with lock := some (w, false) }) s)) := by
  have hguard' : (windowOf s w).guard_.isNone = false := by simpa using hguard
  simp [lbLocked, hguard', hlock, hfetch]

end

theorem lockEnd_acquiring {w : Fin 8} (hlock : s.bridge.lock = some (w, false)) :
    lockEnd s = modBridge (fun b => { b with lock := none }) s := by
  simp [lockEnd, hlock]

theorem lockEnd_none (hlock : s.bridge.lock = none) : lockEnd s = s := by
  simp [lockEnd, hlock]

theorem semWrite_owner {i : Iface} {k : Nat} {x : Sem} (hsem : semOf s k = some x) (hown : semOwned i x s = true) :
    semWrite i k 0 s = semSet k none s := by
  simp [semWrite, hsem, hown]

theorem semWrite_ignored {i : Iface} {k v : Nat} {x : Sem} (hsem : semOf s k = some x) (h : semOwned i x s = false ∨ v ≠ 0) :
    semWrite i k v s = s := by
  rcases h with h | h <;> simp [semWrite, hsem, h]

theorem semTimeout_due {k : Nat} {x : Sem} (hsem : semOf s k = some x) (hdue : x.clk + msT s.fab.semTmo ≤ s.clk) :
    semTimeout k s = semSet k none (semEvent k 0 s) := by
  simp [semTimeout, hsem, hdue, semFree]

end

end Sys2Proof.Machine
end

section
/-! PROOFS. The statement of spec/11_vehicle_fabric_and_host_bridge.md about the bridge's events. -/

open Sys2Proof Sys2Proof.Machine

/-- Settles O37: each command is the branch that its state and frame choose. -/
theorem bridgeCommandsComplete : Obligations.BridgeCommandsComplete := by
  intro dt s
  refine ⟨?_, ?_, ?_, ?_, ?_, ?_, ?_, ?_, ?_, ?_, ?_, ?_, ?_, ?_, ?_, ?_, ?_, ?_, ?_, ?_, ?_, ?_, ?_, ?_, ?_, ?_, ?_, ?_,
    ?_, ?_, ?_, ?_, ?_, ?_, ?_⟩
  · intro r bad hpower haddr hready h5 h2 hfree hstore hinq
    exact congrArg Host.Outcome.next ((bridgeRx_delivered (s := begin_ dt s) hpower).trans
      ((bridgeFrameIn_request (s := begin_ dt s) haddr).trans
      (requestIn_free (s := begin_ dt s) hready h5 h2 hfree hstore hinq)))
  · intro r bad hpower haddr hready hop hsem hfree hstore hinq hsemFree _ hlen
    have h5 : r.op ≠ 5 := by rw [hop]; decide
    have h2 : r.op ≠ 2 := by rw [hop]; decide
    have hserve := requestIn_free (s := begin_ dt s) (bad := bad) hready h5 h2 hfree
      (fun e he => absurd (hstore ▸ he : e ∈ []) (List.not_mem_nil))
      (fun e he => absurd (hinq ▸ he : e ∈ []) (List.not_mem_nil))
    refine ⟨_, congrArg Host.Outcome.next ((bridgeRx_delivered (s := begin_ dt s) hpower).trans
      ((bridgeFrameIn_request (s := begin_ dt s) haddr).trans hserve)), ?_⟩
    exact bridgeServe_acquires (s := begin_ dt s) hop hsem hstore hsemFree hlen
  · intro r o bad hpower haddr hready hop hout hcross hstore hinq
    exact congrArg Host.Outcome.next ((bridgeRx_delivered (s := begin_ dt s) hpower).trans
      ((bridgeFrameIn_request (s := begin_ dt s) haddr).trans
      (requestIn_queued (s := begin_ dt s) hready hop hout hcross hstore hinq)))
  · intro r bad hpower haddr hatt
    exact congrArg Host.Outcome.next ((bridgeRx_delivered (s := begin_ dt s) hpower).trans
      (bridgeFrameIn_attached (s := begin_ dt s) haddr hatt))
  · rintro p r bad hpower ⟨hup, hinner, hown⟩ haddr hpos
    exact congrArg Host.Outcome.next (bridgeRx_passes (s := begin_ dt s) hpower hup hinner hown haddr hpos)
  · exact fun p r bad h => congrArg Host.Outcome.next (bridgeRx_refused (s := begin_ dt s) h)
  · intro p r bad hpower hup hinner hstrays
    exact congrArg Host.Outcome.next (bridgeRx_strays (s := begin_ dt s) hpower hup hinner hstrays)
  · intro r o hpower haddr hown hout htag hstatus hop hsrc
    exact congrArg Host.Outcome.next ((bridgeRx_delivered (s := begin_ dt s) hpower).trans
      ((bridgeFrameIn_response (s := begin_ dt s) haddr).trans ((if_pos hown).trans
      ((responseIn_out (s := begin_ dt s) hout htag).trans (responseOut_read (s := begin_ dt s) hstatus hop hsrc)))))
  · intro r o hpower haddr hown hout htag hstatus
    exact congrArg Host.Outcome.next ((bridgeRx_delivered (s := begin_ dt s) hpower).trans
      ((bridgeFrameIn_response (s := begin_ dt s) haddr).trans ((if_pos hown).trans
      ((responseIn_out (s := begin_ dt s) hout htag).trans (responseOut_busy (s := begin_ dt s) hstatus)))))
  · intro r hpower haddr hother
    exact congrArg Host.Outcome.next ((bridgeRx_delivered (s := begin_ dt s) hpower).trans
      ((bridgeFrameIn_response (s := begin_ dt s) haddr).trans (if_neg hother)))
  · intro r hpower haddr
    exact congrArg Host.Outcome.next ((bridgeRx_delivered (s := begin_ dt s) (r := { r with op := 5 }) hpower).trans
      (bridgeFrameIn_request (s := begin_ dt s) (r := { r with op := 5 }) haddr))
  · intro o tag hout hposted htag hbusy hsent hmore hdue
    obtain ⟨o', hsends, hclk, htag', hbridge⟩ :=
      resendOutbound_due (s := begin_ dt s) (drop := dropOut) hbusy hsent hmore hdue
    have hposted' : (resendOutbound o putOut dropOut (begin_ dt s)).bridge.posted = [] := by rw [hbridge]; exact hposted
    exact ⟨_, o', congrArg Host.Outcome.next (retryTimer_out (s := begin_ dt s) hout htag hposted'), by rw [hbridge], hsends,
      hclk, htag'.trans htag⟩
  · exact fun o tag hout hposted hunsent => congrArg Host.Outcome.next (retryTimer_unsent (s := begin_ dt s) hout hposted hunsent)
  · intro o tag hout hposted hwaiting hinq htag hop hbusy hsrc hover
    refine ⟨_, congrArg Host.Outcome.next (reqTimeout_read (s := begin_ dt s) hout hposted hwaiting hinq htag hop hbusy hsrc
      (decide_eq_true hover)), ?_⟩
    rw [failOutbound_read hop hsrc]
    exact ⟨rfl, rfl, rfl, rfl⟩
  · intro o tag hout hposted hwaiting hearly
    exact congrArg Host.Outcome.next (reqTimeout_early (s := begin_ dt s) hout hposted hwaiting
      (decide_eq_false (Nat.not_le.mpr hearly)))
  · exact fun a n d hfetch hold => congrArg Host.Outcome.next (fetchStale_old (s := begin_ dt s) hfetch hold)
  · intro o hout hposted hbusy hdue
    obtain ⟨o', htag, hclk, hbridge⟩ := askAgain_due (s := begin_ dt s) hbusy hdue
    have hposted' : (askAgain o putOut (begin_ dt s)).bridge.posted = [] := by rw [hbridge]; exact hposted
    exact ⟨_, o', congrArg Host.Outcome.next (busyRetry_out (s := begin_ dt s) hout hposted'), by rw [hbridge], htag,
      by rw [hbridge]; rfl, hclk⟩
  · exact fun o hout hposted hbusy => congrArg Host.Outcome.next (busyRetry_idle (s := begin_ dt s) hout hposted hbusy)
  · intro w off len hopen hspan
    refine congrArg Host.Outcome.next ((barAccess_open rfl hopen).trans ?_)
    rw [windowRead, hspan]
    rfl
  · intro w off hopen hspan hmode
    have hperst : s.sys.perst = false := by simpa [ifaceOpen] using (Bool.and_eq_true_iff.mp hopen).2
    obtain ⟨b, hread, herr, hwin, hctr⟩ := startRead_off (s := emit .pcieHeld (begin_ dt s)) (w := w) (off := off)
      (by simpa [windowOf] using hmode) (by simpa using hperst)
    refine ⟨_, congrArg Host.Outcome.next ((barAccess_open rfl hopen).trans ((windowRead_split hspan).trans hread)), ?_, ?_⟩
    · exact (emit_readData _ _ _).trans (congrArg (· ++ _) (emit_pcieHeld (begin_ dt s)))
    · simpa [modBridge] using And.intro herr (And.intro hwin hctr)
  · intro w off hi lo hopen hin halign hfetch hlo hhi
    refine congrArg Host.Outcome.next ((barAccess_open rfl hopen).trans ?_)
    refine (lbWindowRead_unlocked hin (by omega)).trans ?_
    exact lbRemoteRead_fetched (s := modBridge (fun b => { b with lbHigh := none }) (begin_ dt s)) halign hfetch hlo hhi
  · intro w off d hopen hspan
    refine congrArg Host.Outcome.next ((barAccess_open rfl hopen).trans ?_)
    rw [windowWrite, hspan]
    rfl
  · intro w off d hopen hspan hmode hwr
    obtain ⟨e, hlog, herror, hwin, hlen, hposted⟩ := postWrite_forbidden (s := begin_ dt s) (off := off) (d := d) hmode hwr
    refine ⟨_, e, congrArg Host.Outcome.next ((barAccess_open rfl hopen).trans ?_), hlog, herror, hwin, hlen, hposted⟩
    rw [windowWrite, hspan]
    rfl
  · intro w off r h hopen hin halign hfetch hhigh hkey
    have hhigh' : (begin_ dt s).bridge.lbHigh = some (r, h) := hhigh
    refine congrArg Host.Outcome.next ((barAccess_open rfl hopen).trans ((lbWindowRead_unlocked hin (by omega)).trans ?_))
    rw [hhigh']
    exact lbRemoteRead_latched (s := modBridge (fun b => { b with lbHigh := none }) (begin_ dt s)) halign hfetch hkey
  · intro w off hopen hguard hlock
    exact congrArg Host.Outcome.next ((barAccess_open rfl hopen).trans
      (lbLocked_held (s := modBridge (fun b => { b with lbHigh := none }) (begin_ dt s)) hguard hlock))
  · intro w v off hopen hguard hlock hne
    exact congrArg Host.Outcome.next ((barAccess_open rfl hopen).trans
      (lbLocked_other (s := modBridge (fun b => { b with lbHigh := none }) (begin_ dt s)) hguard hlock hne))
  · intro w off hopen hguard hlock hfetch
    exact congrArg Host.Outcome.next ((barAccess_open rfl hopen).trans
      (lbLocked_first (s := modBridge (fun b => { b with lbHigh := none }) (begin_ dt s)) hguard hlock hfetch))
  · exact fun w hlock => congrArg Host.Outcome.next (lockEnd_acquiring (s := begin_ dt s) hlock)
  · exact fun hlock => congrArg Host.Outcome.next (lockEnd_none (s := begin_ dt s) hlock)
  · intro k hopen hfree
    have hfree' : semOf (begin_ dt s) k = none := hfree
    refine congrArg Host.Outcome.next ((barAccess_open rfl hopen).trans ?_)
    simp only [semRead, hfree']
  · intro k x hopen hsem
    have hsem' : semOf (begin_ dt s) k = some x := hsem
    refine congrArg Host.Outcome.next ((barAccess_open rfl hopen).trans ?_)
    simp only [semRead, hsem']
  · intro k x hopen hsem hown
    exact congrArg Host.Outcome.next ((barAccess_open rfl hopen).trans (semWrite_owner (s := begin_ dt s) hsem hown))
  · intro k x v hopen hsem hnot
    refine congrArg Host.Outcome.next ((barAccess_open rfl hopen).trans (semWrite_ignored (s := begin_ dt s) hsem ?_))
    exact hnot.imp id fun hv h0 => hv (BitVec.eq_of_toNat_eq h0)
  · exact fun k x hsem hdue => congrArg Host.Outcome.next (semTimeout_due (s := begin_ dt s) hsem hdue)
  · exact fun v hopen => congrArg Host.Outcome.next (barAccess_open rfl hopen)

end

section
/-! PROOFS. The twins (spec/07): heartbeats, the role at an instant, racking and writes to the region. -/

namespace Sys2Proof.Machine

section
variable {dt : Nat} {s : State}

/-! ## What a change of another part leaves of the twin -/

theorem raise_twin (code : Nat) (b : List Byte) (s : State) : (raise code b s).twin = s.twin := by simp

theorem finishQueued_twin (p : Queued → Bool) (status : Nat) (s : State) : (finishQueued p status s).twin = s.twin :=
  finishQueued_keeps p status s .twin (by decide)

/-! ## Heartbeats (R317, R323, R328–R332) -/

/-- R317: a node of the twin vehicle without a partner takes the sender for it. -/
theorem acceptPartner_new {uid : BitVec 64} {vid : BitVec 48} (hconf : s.twin.configured = true) (hjoined : joined s = true)
    (huid : uid ≠ s.sys.uid) (hvid : vid = s.ina.vid) (hnone : s.twin.partner = none) (hrec : s.twin.recAgain = false) :
    acceptPartner uid vid s = some (modTwin (fun t => { t with partner := some uid }) s) := by
  simp [acceptPartner, hconf, hjoined, huid, hvid, hnone, hrec]

theorem acceptPartner_partner {uid : BitVec 64} {vid : BitVec 48} (hconf : s.twin.configured = true)
    (hjoined : joined s = true) (huid : uid ≠ s.sys.uid) (hvid : vid = s.ina.vid) (hsome : s.twin.partner = some uid) :
    acceptPartner uid vid s = some s := by
  simp [acceptPartner, hconf, hjoined, huid, hvid, hsome]

theorem acceptPartner_other {uid u : BitVec 64} {vid : BitVec 48} (hsome : s.twin.partner = some u) (hne : u ≠ uid) :
    acceptPartner uid vid s = none := by
  unfold acceptPartner
  split
  · rfl
  · simp [hsome, hne]

/-- What SWITCH changes of the twin: the echo only. -/
theorem noteSwitch_echo (h : Heartbeat) (t : Twin) :
    ∃ e k, noteSwitch h t = { t with echoed := e, echoK := k } := by
  unfold noteSwitch
  repeat' split
  all_goals exact ⟨_, _, rfl⟩

/-- A heartbeat taken from the partner is noted, its path heard, its claim learnt. -/
theorem heartbeatIn_twin (tw tr : Bool) (h : Heartbeat) (s : State) :
    (heartbeatIn tw tr h s).twin.partner = s.twin.partner ∧ (heartbeatIn tw tr h s).twin.hb = some h ∧
    (heartbeatIn tw tr h s).twin.twNow = (s.twin.twNow || tw) ∧ (heartbeatIn tw tr h s).twin.trNow = (s.twin.trNow || tr) ∧
    (heartbeatIn tw tr h s).twin.partnerClaim = h.ownGen ∧ (heartbeatIn tw tr h s).twin.partnerPref = h.preferred ∧
    (heartbeatIn tw tr h s).twin.higher = (s.twin.higher || (isActive s &&
      decide (claimLow s.twin.own s.twin.preferred s.ina.addr < claimLow h.ownGen h.preferred h.addr))) ∧
    (heartbeatIn tw tr h s).twin.seen.toNat = max (max s.twin.seen.toNat h.seenGen.toNat) h.ownGen.toNat := by
  obtain ⟨e, k, hswitch⟩ := noteSwitch_echo h (noteHeartbeat tw tr h s.twin)
  have hraise : (heartbeatIn tw tr h s).twin = (learnClaim h.ownGen h.preferred h.addr
      (modTwin (fun _ => { noteHeartbeat tw tr h s.twin with echoed := e, echoK := k }) s)).twin := by
    rw [← hswitch]
    unfold heartbeatIn
    dsimp only
    split
    · exact raise_twin _ _ _
    · rfl
  rw [hraise]
  refine ⟨rfl, rfl, rfl, rfl, rfl, rfl, rfl, ?_⟩
  simp only [learnClaim, modTwin, noteHeartbeat]
  split <;> split <;> omega

theorem heartbeatTrunk_keptOut {p : Fin 4} {t : Int} {h : Heartbeat} (hout : portUp s p = false ∨ isBoundary s p = true) :
    heartbeatTrunk p t h s = s := by
  rcases hout with hout | hout <;> simp [heartbeatTrunk, keptOut, hout]

/-- R329: a heartbeat of the partner as a management frame, where nothing is scheduled. -/
theorem heartbeatTrunk_noPoll {p : Fin 4} {t : Int} {h : Heartbeat} (hup : portUp s p = true) (hinner : isBoundary s p = false)
    (haccept : acceptPartner h.uid h.vid s = some s) (hrun : s.sched.running = none) (hpoll : s.sched.noPoll = true) :
    heartbeatTrunk p t h s = heartbeatIn false true h s := by
  simp [heartbeatTrunk, keptOut, hup, hinner, haccept, trunkHeartbeat, hrun, hpoll, slotAt, takeHeartbeat]

/-! ## The role at an instant (R320, R326, R333–R338) -/

/-- SEEN_GEN plus one (R326, R18). -/
def nextClaim (t : Twin) : BitVec 16 := BitVec.ofNat 16 (min 0xFFFF (t.seen.toNat + 1))

/-- R326: raising the claim changes the two generations and the mark of the limit. -/
theorem raiseClaim_twin (s : State) :
    ∃ m, (raiseClaim s).twin = { s.twin with own := nextClaim s.twin, seen := nextClaim s.twin, limitRaised := m } := by
  unfold raiseClaim
  dsimp only
  split
  · exact ⟨true, raise_twin _ _ _⟩
  · exact ⟨s.twin.limitRaised, rfl⟩

theorem setRole_active {cause : Nat} (h : s.twin.role ≠ .active) :
    (setRole .active cause s).twin = { enterActive s.twin with role := .active } := by
  rw [setRole, if_neg (Ne.symm h)]
  exact raise_twin _ _ _

theorem setRole_returning {cause : Nat} (h : s.twin.role = .active) :
    (setRole .returning cause s).twin = { enterReturning (leaveActive s.twin) with role := .returning } := by
  rw [setRole, if_neg (by rw [h]; decide)]
  exact raise_twin _ _ _

/-- A node that enters Active with a raised claim keeps what else it holds. -/
theorem setRole_active_raiseClaim {cause : Nat} (h : s.twin.role ≠ .active) :
    (setRole .active cause (raiseClaim s)).twin.role = .active ∧
    (setRole .active cause (raiseClaim s)).twin.own = nextClaim s.twin ∧
    (setRole .active cause (raiseClaim s)).twin.ctr = s.twin.ctr := by
  obtain ⟨m, hclaim⟩ := raiseClaim_twin s
  rw [setRole_active (by rw [hclaim]; exact h), hclaim]
  exact ⟨rfl, rfl, rfl⟩

theorem roleAtInstant_active (h : s.twin.role = .active) {reached : Bool} : roleAtInstant reached s =
    if s.twin.foreignStop then stepDownNow 9 s else if reached then takeOver 2 s else if s.twin.higher then stepDownNow 4 s
    else s := by
  simp only [roleAtInstant, h]

theorem takeOver_active {cause : Nat} (h : s.twin.role = .active) : takeOver cause s = twinCount 0 (raiseClaim s) := by
  simp [takeOver, isActive, h]

/-- R335: what a node does before it takes over: staged pages applied, its ages told, the flow state its own, partial
generations discarded. -/
def readyToTakeOver (s : State) : State :=
  discardPartials (releaseNotTaken (restoreFlow (ageAtInstant (applyStaging s)).twin.flowAge.toNat (ageAtInstant (applyStaging s))))

theorem applyStaging_twin (s : State) : (applyStaging s).twin.role = s.twin.role ∧ (applyStaging s).twin.seen = s.twin.seen ∧
    (applyStaging s).twin.staging = none := by
  unfold applyStaging
  split
  next hnone => exact ⟨rfl, rfl, hnone⟩
  · exact ⟨rfl, rfl, rfl⟩

theorem ageAtInstant_twin (s : State) : (ageAtInstant s).twin.role = s.twin.role ∧ (ageAtInstant s).twin.seen = s.twin.seen ∧
    (ageAtInstant s).twin.staging = s.twin.staging := by
  unfold ageAtInstant
  split <;> exact ⟨rfl, rfl, rfl⟩

/-- The racked flow state goes to the flows and the process data. -/
theorem restoreFlow_twin (age : Nat) (s : State) : (restoreFlow age s).twin = s.twin := by
  unfold restoreFlow
  split
  · rfl
  · refine forEach_keeps (fun s => s.twin) _ (fun i s => ?_) _ _
    cases i <;> rfl

theorem readyToTakeOver_twin (s : State) : (readyToTakeOver s).twin.role = s.twin.role ∧
    (readyToTakeOver s).twin.seen = s.twin.seen ∧ (readyToTakeOver s).twin.staging = none ∧
    (readyToTakeOver s).twin.inFlow = none ∧ (readyToTakeOver s).twin.inRegion = none ∧
    (readyToTakeOver s).twin.inFull = none := by
  obtain ⟨hrole, hseen, hstaging⟩ := applyStaging_twin s
  obtain ⟨hrole', hseen', hstaging'⟩ := ageAtInstant_twin (applyStaging s)
  have hflow := restoreFlow_twin (ageAtInstant (applyStaging s)).twin.flowAge.toNat (ageAtInstant (applyStaging s))
  refine ⟨?_, ?_, ?_, rfl, rfl, rfl⟩
  · exact (congrArg Twin.role hflow).trans (hrole'.trans hrole)
  · exact (congrArg Twin.seen hflow).trans (hseen'.trans hseen)
  · exact (congrArg Twin.staging hflow).trans (hstaging'.trans hstaging)

/-- R333–R335: the takeover of a node that waits. -/
theorem takeOver_waiting {cause : Nat} (h : s.twin.role ≠ .active) :
    (takeOver cause s).twin = (setRole .active cause (twinCount 0 (raiseClaim (readyToTakeOver s)))).twin := by
  have hnot : isActive s = false := by
    unfold isActive
    split
    · exact absurd ‹_› h
    · rfl
  rw [takeOver, hnot]
  exact raise_twin _ _ _

theorem takeOver_twin {cause : Nat} (h : s.twin.role ≠ .active) : (takeOver cause s).twin.role = .active ∧
    (takeOver cause s).twin.own = nextClaim s.twin ∧ (takeOver cause s).twin.seen = (takeOver cause s).twin.own ∧
    (takeOver cause s).twin.inFlow = none ∧ (takeOver cause s).twin.inRegion = none ∧
    (takeOver cause s).twin.inFull = none ∧ (takeOver cause s).twin.staging = none := by
  obtain ⟨hrole, hseen, hstaging, hflow, hregion, hfull⟩ := readyToTakeOver_twin s
  obtain ⟨m, hclaim⟩ := raiseClaim_twin (readyToTakeOver s)
  have hcount : (twinCount 0 (raiseClaim (readyToTakeOver s))).twin.role ≠ .active := by
    simp only [twinCount, modTwin, hclaim, hrole]
    exact h
  have hnext : nextClaim (readyToTakeOver s).twin = nextClaim s.twin := by rw [nextClaim, hseen]; rfl
  rw [takeOver_waiting h, setRole_active hcount]
  simp only [twinCount, modTwin, enterActive, hclaim]
  exact ⟨trivial, hnext, trivial, hflow, hregion, hfull, hstaging⟩

theorem roleAtInstant_takeOver {reached : Bool} {c : Byte} (hwait : s.twin.role = .standby ∨ s.twin.role = .returning)
    (hcause : takeoverCause reached s = some c) : roleAtInstant reached s = takeOver c.toNat s := by
  rcases hwait with h | h <;> simp only [roleAtInstant, h, hcause]

/-- R337, R338: the step-down of an Active node. -/
theorem stepDownNow_twin {cause : Nat} (h : s.twin.role = .active) : (stepDownNow cause s).twin.role = .returning ∧
    (stepDownNow cause s).twin.applied = none ∧ (stepDownNow cause s).twin.switching = none ∧
    (stepDownNow cause s).twin.ctr = ctrInc s.twin.ctr 1 := by
  have hend : (endSwitchover 0x010B (twinCount 1 s)).twin = { s.twin with
      ctr := ctrInc s.twin.ctr 1, switching := none, switchSnap := false, outAfter := false, echoed := false } := by
    unfold endSwitchover
    simp only [modTwin, finishQueued_twin]
    rfl
  rw [stepDownNow, setRole_returning (by rw [hend]; exact h), hend]
  exact ⟨rfl, rfl, rfl, rfl⟩

/-- R320: the eighth joined cycle without an Active node makes a node that is not preferred Active. -/
theorem roleAtInstant_activate {reached : Bool} (hdue : activateDue s = true) :
    roleAtInstant reached s = startActive (modTwin (fun t => { t with joinedCycles := 8 }) s) ∧ s.twin.role = .out := by
  have hout : s.twin.role = .out := by
    revert hdue
    unfold activateDue
    cases s.twin.role <;> simp
  simp only [activateDue, hout, Bool.and_true, Bool.and_eq_true, Bool.not_eq_true', decide_eq_true_eq] at hdue
  obtain ⟨⟨⟨⟨⟨⟨-, hheld⟩, hbefore⟩, hpref⟩, hpartner⟩, hactive⟩, hcycles⟩ := hdue
  have hn : min 8 (s.twin.joinedCycles + 1) = 8 := by omega
  refine ⟨?_, hout⟩
  simp [roleAtInstant, hout, startRole, hheld, hbefore, hpref, hpartner, hactive, hn]

/-- R343: a generation that the partner has not reported two cycles after its commit is given up. -/
theorem regionReport_abandon {g : RackGen} (hdue : abandonDue s = true) (hout : s.twin.regionOut = some g) :
    regionReport s = modTwin (fun t => { markDirty (genPages g) t with regionOut := none, switchSnap := false }) s := by
  simp only [abandonDue, hout, Bool.and_eq_true, Bool.not_eq_true', decide_eq_true_eq] at hdue
  obtain ⟨-, ⟨hcommit, hcycles⟩, hreport⟩ := hdue
  cases hhb : s.twin.hb with
  | none => simp [regionReport, hout, hcommit, hcycles, hhb]
  | some h =>
    have hne : (h.regionRgen == g.rgen) = false := by simpa [hhb] using hreport
    simp [regionReport, hout, hcommit, hcycles, hhb, hne]

/-! ## Racking frames (R340, R344–R347) -/

section
variable {f : RackFrame} (hconf : s.twin.configured = true) (hjoined : joined s = true)
  (hpartner : s.twin.partner = some f.uid)

theorem exec_rackingFrameRx_other (h : s.twin.partner ≠ some f.uid) : exec (.rackingFrameRx dt f) s = .next (begin_ dt s) :=
  congrArg Host.Outcome.next (if_pos (by simp [h]))

include hconf hjoined hpartner in
/-- A frame of the flow stream from the partner, at a node in Standby. -/
theorem exec_rackingFrameRx_flow (hrole : s.twin.role = .standby) (hstream : f.stream = 1) :
    exec (.rackingFrameRx dt f) s =
      .next (rackIn 1 f (modTwin (fun t => { t with frameSince := true }) (begin_ dt s))) := by
  have hjoined' : joined (begin_ dt s) = true := hjoined
  have hwait : isWaiting (modTwin (fun t => { t with frameSince := true }) (begin_ dt s)) = true := by
    simp [isWaiting, modTwin, hrole]
  have htaken : ¬ ((!(begin_ dt s).twin.configured || !joined (begin_ dt s) ||
      decide ((begin_ dt s).twin.partner ≠ some f.uid)) = true) := by
    simp [hconf, hjoined', hpartner]
  refine congrArg Host.Outcome.next ((if_neg htaken).trans ?_)
  dsimp only
  rw [hwait, hstream]
  rfl

end

theorem rackIn_first {f : RackFrame} (hcommit : f.commit = false) (hnone : s.twin.inFlow = none) :
    rackIn 1 f s = modTwin (fun t => { t with
      inFlow := some { emptyGen f with items := f.items, parts := [(f.part, f.items)], part := 1 } }) s := by
  have hcollect : collect f (emptyGen f) = { emptyGen f with items := f.items, parts := [(f.part, f.items)], part := 1 } := by
    simp [collect, emptyGen, putPart]
  have hgen : genFor 1 f s = (some (emptyGen f), s) := by simp [genFor, inGen, hnone]
  simp only [rackIn, hgen, hcommit, hcollect]
  rfl

theorem rackIn_commit {f : RackFrame} {g : RackGen} (hcommit : f.commit = true) (hsome : s.twin.inFlow = some g)
    (hrgen : g.rgen = f.rgen) : rackIn 1 f s =
    if f.totItems.toNat = g.items.length && f.totBytes.toNat = itemsSize g.items && f.crc = itemsCrc g.items then
      applyGen 1 g (modTwin (setInGen 1 none) s)
    else twinCount 4 (modTwin (setInGen 1 none) s) := by
  simp [rackIn, genFor, inGen, hsome, hrgen, hcommit]

/-! ### Frames that leave -/

/-- R346: the commit of a generation whose items have left. -/
def commitFrame (uid : BitVec 64) (g : RackGen) : RackFrame where
  uid := uid
  stream := 1
  commit := true
  rgen := g.rgen
  cycle := g.cycle
  part := g.part
  items := []
  totItems := BitVec.ofNat 32 g.items.length
  totBytes := BitVec.ofNat 32 (itemsSize g.items)
  crc := itemsCrc g.items

theorem sendRack_commit {g : RackGen} {room : Nat} (hout : s.twin.flowOut = some g) (hsent : g.items.length ≤ g.sent)
    (hroom : 28 ≤ room) : sendRack room s = emit (.rack (commitFrame s.sys.uid g)) (modTwin (fun t => { t with
      flowOut := none, flowRgen := g.rgen, flowCycle := g.cycle }) s) := by
  have hrest : g.items.drop g.sent = [] := List.drop_eq_nil_of_le hsent
  simp [sendRack, hout, nextRackFrame, hrest, Nat.not_lt.mpr hroom, commitFrame]

theorem sendRack_nothing {room : Nat} (hflow : s.twin.flowOut = none) (hregion : s.twin.regionOut = none)
    (hfull : s.twin.fullOut = none) : sendRack room s = s := by
  simp [sendRack, hflow, hregion, hfull]

theorem drainWaiting_nothing (h : s.twin.waiting = []) : drainWaiting s = s := by
  have hnil : modTwin (fun t => { t with waiting := [] }) s = s := by
    simp only [modTwin, ← h]
  rw [drainWaiting, h, hnil]
  rfl

/-- Writes to the region leave what the twin sends, and what leaves the node. -/
theorem drainWaiting_keeps (s : State) : (drainWaiting s).twin.flowOut = s.twin.flowOut ∧
    (drainWaiting s).twin.flowRgen = s.twin.flowRgen ∧ (drainWaiting s).twin.flowCycle = s.twin.flowCycle ∧
    (drainWaiting s).emit = s.emit := by
  have hstep {α : Type} (g : State → α) (h : ∀ (w : Nat × Nat × List Byte) (u : State),
      g (modTwin (fun t => { t with waiting := t.waiting ++ [w] }) u) = g u ∧ g (putRegion w u) = g u)
      (h0 : g (modTwin (fun t => { t with waiting := [] }) s) = g s) : g (drainWaiting s) = g s := by
    refine (forEach_keeps g _ (fun w u => ?_) _ _).trans h0
    split
    · exact (h w u).1
    · exact (h w u).2
  exact ⟨hstep (fun s => s.twin.flowOut) (fun w u => ⟨rfl, rfl⟩) rfl,
    hstep (fun s => s.twin.flowRgen) (fun w u => ⟨rfl, rfl⟩) rfl,
    hstep (fun s => s.twin.flowCycle) (fun w u => ⟨rfl, rfl⟩) rfl, hstep (fun s => s.emit) (fun w u => ⟨rfl, rfl⟩) rfl⟩

theorem exec_rackingFrameSend_idle {room : Nat} (h : s.twin.role ≠ .active) :
    exec (.rackingFrameSend dt room) s = .next (begin_ dt s) := by
  have hnot : isActive (begin_ dt s) = false := by
    unfold isActive
    split
    · exact absurd ‹_› h
    · rfl
  exact congrArg Host.Outcome.next (if_neg (by rw [hnot]; simp))

/-! ## Writes to the region (R342, R344) -/

theorem mem_insertNat (p : Nat) (l : List Nat) : p ∈ insertNat p l := by
  induction l with
  | nil => exact List.mem_singleton.mpr rfl
  | cons y ys ih =>
    rw [insertNat]
    split
    · exact List.mem_cons_self
    · exact List.mem_cons_of_mem _ ih

theorem mem_markDirty (p : Nat) (t : Twin) : p ∈ (markDirty [p] t).dirty := by
  simp only [markDirty, List.foldl_cons, List.foldl_nil]
  split
  next h => exact List.contains_iff_mem.mp h
  · exact mem_insertNat p _

theorem exec_copyOnWrite {p a : Nat} {d : List Byte} (hon : s.twin.regionOn = true) (hp : p < s.twin.regionPages) (ha : a < 4096) :
    exec (.copyOnWrite dt p a d) s = .next (writeRegion (p, a, d) (begin_ dt s)) := by
  exact congrArg Host.Outcome.next (if_neg (by simp [hon, hp, ha]))

end

end Sys2Proof.Machine
end

section
/-! PROOFS. The statement of spec/07_twin_failover.md. -/

open Sys2Proof Sys2Proof.Machine

/-- Settles O28: each command is the branch that its state and frame choose. -/
theorem twinEventCommandsComplete : Obligations.TwinEventCommandsComplete := by
  intro dt s
  refine ⟨?_, ?_, ?_, ?_, ?_, ?_, ?_, ?_, ?_, ?_, ?_, ?_, ?_, ?_, ?_, ?_, ?_, ?_, ?_, ?_, ?_, ?_, ?_, ?_, ?_, ?_, ?_, ?_,
    ?_, ?_, ?_, ?_⟩
  · intro h hconf hjoined huid hvid hnone hrec
    have haccept := acceptPartner_new (s := begin_ dt s) hconf hjoined huid hvid hnone hrec
    obtain ⟨hpartner, hhb, htw, htr, hclaim, hpref, -, hseen⟩ := heartbeatIn_twin true false h
      (modTwin (fun t => { t with partner := some h.uid }) (begin_ dt s))
    have hmax : (s.twin.seen.toNat ⊔ h.seenGen.toNat) ⊔ h.ownGen.toNat = _ := hseen.symm
    refine ⟨_, congrArg Host.Outcome.next (by simp only [heartbeatOn, takeHeartbeat, haccept]), hpartner, hhb, htw.trans (Bool.or_true _),
      htr.trans (Bool.or_false _), hclaim, hpref, ?_, ?_, ?_⟩ <;> omega
  · intro h hconf hjoined huid hvid hsome hrole hlow
    have haccept := acceptPartner_partner (s := begin_ dt s) hconf hjoined huid hvid hsome
    obtain ⟨-, hhb, htw, -, -, -, hhigher, -⟩ := heartbeatIn_twin true false h (begin_ dt s)
    have hactive : isActive (begin_ dt s) = true := by simp [isActive, hrole]
    refine ⟨_, congrArg Host.Outcome.next (by simp only [heartbeatOn, takeHeartbeat, haccept]), hhb, ?_, htw.trans (Bool.or_true _)⟩
    rw [hhigher, hactive]
    exact (congrArg (_ || ·) (decide_eq_true hlow)).trans (Bool.or_true _)
  · exact fun p rx h hout => congrArg Host.Outcome.next (heartbeatTrunk_keptOut (s := begin_ dt s) hout)
  · intro p rx h hup hinner hconf hjoined huid hvid hsome hrun hpoll
    have haccept := acceptPartner_partner (s := begin_ dt s) hconf hjoined huid hvid hsome
    obtain ⟨-, hhb, htw, htr, -⟩ := heartbeatIn_twin false true h (begin_ dt s)
    exact ⟨_, congrArg Host.Outcome.next (heartbeatTrunk_noPoll (s := begin_ dt s) hup hinner haccept hrun hpoll), hhb,
      htr.trans (Bool.or_true _), htw.trans (Bool.or_false _)⟩
  · intro h u hsome hne
    have haccept := acceptPartner_other (s := begin_ dt s) (vid := h.vid) hsome hne
    exact congrArg Host.Outcome.next (by simp only [heartbeatOn, takeHeartbeat, haccept])
  · exact fun hdue hnow => congrArg Host.Outcome.next (instantIf_of_due hdue hnow)
  · exact fun hnot => congrArg Host.Outcome.next (instantIf_of_not_due hnot)
  · exact fun hdue hnow => congrArg Host.Outcome.next (instantIf_of_due hdue hnow)
  · exact fun hnot => congrArg Host.Outcome.next (instantIf_of_not_due hnot)
  · exact fun hdue hnow => congrArg Host.Outcome.next (instantIf_of_due hdue hnow)
  · exact fun hnot => congrArg Host.Outcome.next (instantIf_of_not_due hnot)
  · exact fun hdue hnow => congrArg Host.Outcome.next (instantIf_of_due hdue hnow)
  · exact fun hnot => congrArg Host.Outcome.next (instantIf_of_not_due hnot)
  · exact fun hdue hnow => congrArg Host.Outcome.next (instantIf_of_due hdue hnow)
  · exact fun hnot => congrArg Host.Outcome.next (instantIf_of_not_due hnot)
  · intro hrole hforeign
    obtain ⟨m, hclaim⟩ := raiseClaim_twin s
    have hreassert : roleAtInstant true s = twinCount 0 (raiseClaim s) := by
      rw [roleAtInstant_active hrole, hforeign]
      exact takeOver_active hrole
    rw [hreassert]
    simp only [twinCount, modTwin, hclaim]
    exact ⟨trivial, hrole, rfl, trivial⟩
  · intro r c hwait hcause
    have hnot : s.twin.role ≠ .active := by rcases hwait with h | h <;> rw [h] <;> decide
    obtain ⟨hrole, hown, hseen, hflow, hregion, hfull, hstaging⟩ := takeOver_twin (cause := c.toNat) hnot
    rw [roleAtInstant_takeOver hwait hcause]
    exact ⟨rfl, hrole, hown, hseen, hflow, hregion, hfull, hstaging⟩
  · intro hrole hcause
    rw [roleAtInstant_active hrole]
    cases hforeign : s.twin.foreignStop with
    | true => exact stepDownNow_twin hrole
    | false =>
      have hhigher : s.twin.higher = true := by simpa [hforeign] using hcause
      rw [hhigher]
      exact stepDownNow_twin hrole
  · intro r hdue
    obtain ⟨hstart, hout⟩ := roleAtInstant_activate (reached := r) hdue
    rw [hstart]
    exact setRole_active_raiseClaim (s := modTwin (fun t => { t with joinedCycles := 8 }) s) (by
      rw [modTwin]
      simp [hout])
  · exact fun g hdue hout => regionReport_abandon hdue hout
  · intro f hconf hjoined hpartner hrole hstream hcommit hnone
    have hin := rackIn_first (s := modTwin (fun t => { t with frameSince := true }) (begin_ dt s)) hcommit hnone
    refine ⟨_, exec_rackingFrameRx_flow hconf hjoined hpartner hrole hstream, ?_⟩
    rw [hin]
    exact ⟨rfl, rfl, rfl⟩
  · intro f g hconf hjoined hpartner hrole hstream hcommit hsome hrgen hitems hbytes hcrc
    have hin := rackIn_commit (s := modTwin (fun t => { t with frameSince := true }) (begin_ dt s)) hcommit hsome hrgen
    refine ⟨_, exec_rackingFrameRx_flow hconf hjoined hpartner hrole hstream, ?_⟩
    rw [hin, if_pos (by simp [hitems, hbytes, hcrc])]
    exact ⟨rfl, rfl, rfl, rfl⟩
  · intro f g hconf hjoined hpartner hrole hstream hcommit hsome hrgen hcrc
    have hin := rackIn_commit (s := modTwin (fun t => { t with frameSince := true }) (begin_ dt s)) hcommit hsome hrgen
    refine ⟨_, exec_rackingFrameRx_flow hconf hjoined hpartner hrole hstream, ?_⟩
    rw [hin, if_neg (by simp [hcrc])]
    exact ⟨rfl, rfl, rfl⟩
  · exact fun f hother => exec_rackingFrameRx_other hother
  · intro g room hrole hlast hnext hout hsent hroom
    have hactive : isActive (begin_ dt s) = true := by simp [isActive, hrole]
    have hsend := sendRack_commit (s := begin_ dt s) (room := room) hout hsent hroom
    obtain ⟨hflow, hrgen, hcycle, hemit⟩ := drainWaiting_keeps (sendRack room (begin_ dt s))
    refine ⟨_, congrArg Host.Outcome.next (if_pos (by rw [hactive, decide_eq_true hlast, decide_eq_true hnext]; rfl)), ?_, ?_, ?_, fun hext => ?_⟩
    · rw [hflow, hsend]; simp [modTwin]
    · rw [hrgen, hsend]; simp [modTwin]
    · rw [hcycle, hsend]; simp [modTwin]
    · rw [hemit, hsend, emit_sent (by simpa [modTwin] using hext)]
      rfl
  · intro room hrole hflow hregion hfull hwaiting
    have hsend := sendRack_nothing (s := begin_ dt s) (room := room) hflow hregion hfull
    have hdrain := drainWaiting_nothing (s := begin_ dt s) hwaiting
    exact congrArg Host.Outcome.next (by rw [hsend, hdrain, ite_self])
  · exact fun room hrole => exec_rackingFrameSend_idle hrole
  · intro g hsome
    have hsome' : (begin_ dt s).twin.staging = some g := hsome
    refine ⟨_, rfl, ?_⟩
    simp only [applyStaging, hsome']
    exact ⟨rfl, rfl, rfl, rfl⟩
  · intro hnone
    have hnone' : (begin_ dt s).twin.staging = none := hnone
    exact congrArg Host.Outcome.next (by simp only [applyStaging, hnone'])
  · intro p a d hon hp ha hwait
    have hput : writeRegion (p, a, d) (begin_ dt s) = putRegion (p, a, d) (begin_ dt s) := if_neg (by
      intro h
      exact absurd (hwait.symm.trans h) (by decide))
    refine ⟨_, (exec_copyOnWrite hon hp ha).trans (congrArg Host.Outcome.next hput), rfl, mem_markDirty p _, rfl, rfl⟩
  · intro p a d hon hp ha hwait
    exact (exec_copyOnWrite hon hp ha).trans (congrArg Host.Outcome.next (if_pos hwait))
  · intro p a d hnot
    refine congrArg Host.Outcome.next (if_pos ?_)
    rcases hnot with h | h | h <;> simp [h]

end

section
/-! PROOFS. The lock-step pairs (spec/08): verdicts, faults, restarts, hand-overs, debug and READY. -/

namespace Sys2Proof.Machine

/-! ## What a change of another part leaves of the pairs -/

theorem pairOf_congr {s t : State} (h : t.lsk.pairs = s.lsk.pairs) (l : Nat) : pairOf t l = pairOf s l := by
  rw [pairOf, h]
  rfl

@[simp] theorem pairOf_begin_ (dt : Nat) (s : State) (l : Nat) : pairOf (begin_ dt s) l = pairOf s l := rfl

theorem raise_lsk (code : Nat) (b : List Byte) (s : State) : (raise code b s).lsk = s.lsk := by simp

theorem finishQueued_lsk (p : Queued → Bool) (status : Nat) (s : State) : (finishQueued p status s).lsk = s.lsk :=
  finishQueued_keeps p status s .lsk (by decide)

theorem checkRelease_lsk (s : State) : (checkRelease s).lsk = s.lsk := by
  unfold checkRelease
  split <;> rfl

theorem ite_modTwin_lsk (c : Bool) (f : Twin → Twin) (s : State) : (if c then modTwin f s else s).lsk = s.lsk := by
  split <;> rfl

theorem rotationLost_lsk (l : Nat) (s : State) : (rotationLost l s).lsk = s.lsk := by
  unfold rotationLost
  split <;> rfl

/-- A pair whose hand-over has ended, completed or given up. -/
def handEnded (p : Pair) : Pair := { p with pendHand := none, halted := false, substTo := none, handCycles := 0 }

/-- R393: a completed hand-over ends at the pair and counts. -/
theorem handDone_lsk (l : Nat) (k : HandKind) (s : State) :
    (handDone l k s).lsk = (pairCount l 7 (modPair l handEnded s)).lsk :=
  (finishQueued_lsk _ _ _).trans (raise_lsk _ _ _)

theorem handAbandon_none {l : Nat} {s : State} (h : (pairOf s l).pendHand = none) : handAbandon l s = s := by
  simp only [handAbandon, h]

theorem handAbandon_lsk {l : Nat} {s : State} {k : HandKind} (h : (pairOf s l).pendHand = some k) :
    (handAbandon l s).lsk = (modPair l handEnded s).lsk := by
  simp only [handAbandon, h]
  exact (finishQueued_lsk _ _ _).trans ((raise_lsk _ _ _).trans (rotationLost_lsk _ _))

theorem pairOf_handAbandon_field {β : Type} (g : Pair → β) (hg : ∀ p, g (handEnded p) = g p) (l m : Nat) (s : State) :
    g (pairOf (handAbandon l s) m) = g (pairOf s m) := by
  cases h : (pairOf s l).pendHand with
  | none => rw [handAbandon_none h]
  | some k => exact (congrArg g (pairOf_congr (congrArg Lsk.pairs (handAbandon_lsk h)) m)).trans (pairOf_modPair_field g hg l m s)

theorem pairOf_handAbandon_ne {l m : Nat} (hne : l ≠ m) (s : State) : pairOf (handAbandon l s) m = pairOf s m := by
  cases h : (pairOf s l).pendHand with
  | none => rw [handAbandon_none h]
  | some k => exact (pairOf_congr (congrArg Lsk.pairs (handAbandon_lsk h)) m).trans (pairOf_modPair_ne l handEnded s m hne)

/-- Writes to the work area leave the pairs and the spare. -/
theorem workWrite_keeps (a : Nat) (d : List Byte) (s : State) : (workWrite a d s).lsk.pairs = s.lsk.pairs ∧
    (workWrite a d s).lsk.spare = s.lsk.spare ∧ (workWrite a d s).lsk.spareReady = s.lsk.spareReady := by
  unfold workWrite writeRegion
  dsimp only
  split
  · split <;> exact ⟨rfl, rfl, rfl⟩
  · exact ⟨rfl, rfl, rfl⟩

theorem writeBack_keeps (c : CoreState) (s : State) : (writeBack c s).lsk.pairs = s.lsk.pairs ∧
    (writeBack c s).lsk.spare = s.lsk.spare ∧ (writeBack c s).lsk.spareReady = s.lsk.spareReady :=
  ⟨forEach_keeps (fun s => s.lsk.pairs) _ (fun _ u => (workWrite_keeps _ _ u).1) _ _,
    forEach_keeps (fun s => s.lsk.spare) _ (fun _ u => (workWrite_keeps _ _ u).2.1) _ _,
    forEach_keeps (fun s => s.lsk.spareReady) _ (fun _ u => (workWrite_keeps _ _ u).2.2) _ _⟩

/-- R662: a freed pair leaves the others, and no spare is Ready. -/
theorem freePair_keeps (p cause : Nat) (s : State) : (freePair p cause s).lsk.pairs = s.lsk.pairs ∧
    (freePair p cause s).lsk.spareReady = false := by
  have hretire (u : State) : (retirePair p false u).lsk = u.lsk := by
    simp only [retirePair, reserveEmpty]
    split
    · exact (raise_lsk _ _ _).trans (raise_lsk _ _ _)
    · exact raise_lsk _ _ _
  unfold freePair
  dsimp only
  split
  · rw [hretire]
    exact ⟨rfl, rfl⟩
  · exact ⟨rfl, rfl⟩

/-! ## The fence (R377) -/

/-- What the fence makes of the pair, its hand-over apart. -/
def fenced (cause reaction : Nat) (p : Pair) : Pair := { p with
  held := [], st := .fenced, halted := false, lastCause := BitVec.ofNat 4 cause, onFence := reaction, withdraw := true,
  readySet := 0, windowCode := none, debugSplitAt := false, cores := stopCores p.cores }

section
variable {l cause core : Nat} {w : BitVec 64} {s : State}

/-- The fence is the pair's change, its hand-over given up; the rest is noted elsewhere. -/
theorem fencePair_lsk : ∃ t, t.lsk = (modPair l (fenced cause (reactionOf l s)) s).lsk ∧
    (fencePair l cause core w s).lsk = (handAbandon l t).lsk := by
  unfold fencePair
  dsimp only
  refine ⟨_, (raise_lsk _ _ _).trans ?_, (checkRelease_lsk _).trans (ite_modTwin_lsk _ _ _)⟩
  split <;> rfl

/-- R377: the fenced pair. -/
theorem fencePair_pair (hl : l < s.lsk.pairs.length) : (pairOf (fencePair l cause core w s) l).st = .fenced ∧
    (pairOf (fencePair l cause core w s) l).held = [] ∧
    (pairOf (fencePair l cause core w s) l).lastCause = BitVec.ofNat 4 cause ∧
    (pairOf (fencePair l cause core w s) l).withdraw = true ∧
    (pairOf (fencePair l cause core w s) l).phys = (pairOf s l).phys := by
  obtain ⟨t, hfenced, habandon⟩ := fencePair_lsk (l := l) (cause := cause) (core := core) (w := w) (s := s)
  have hpair : pairOf t l = fenced cause (reactionOf l s) (pairOf s l) :=
    (pairOf_congr (congrArg Lsk.pairs hfenced) l).trans (pairOf_modPair_self l _ s hl)
  have hfield {β : Type} (g : Pair → β) (hg : ∀ p, g (handEnded p) = g p) :
      g (pairOf (fencePair l cause core w s) l) = g (fenced cause (reactionOf l s) (pairOf s l)) :=
    (congrArg g (pairOf_congr (congrArg Lsk.pairs habandon) l)).trans ((pairOf_handAbandon_field g hg l l t).trans
      (congrArg g hpair))
  exact ⟨hfield Pair.st fun _ => rfl, hfield Pair.held fun _ => rfl, hfield Pair.lastCause fun _ => rfl,
    hfield Pair.withdraw fun _ => rfl, hfield Pair.phys fun _ => rfl⟩

theorem fencePair_ne {m : Nat} (hne : l ≠ m) : pairOf (fencePair l cause core w s) m = pairOf s m := by
  obtain ⟨t, hfenced, habandon⟩ := fencePair_lsk (l := l) (cause := cause) (core := core) (w := w) (s := s)
  calc pairOf (fencePair l cause core w s) m
    _ = pairOf (handAbandon l t) m := pairOf_congr (congrArg Lsk.pairs habandon) m
    _ = pairOf t m := pairOf_handAbandon_ne hne t
    _ = pairOf (modPair l (fenced cause (reactionOf l s)) s) m := pairOf_congr (congrArg Lsk.pairs hfenced) m
    _ = pairOf s m := pairOf_modPair_ne l _ s m hne

end

theorem pairCount_length (l i : Nat) (s : State) : (pairCount l i s).lsk.pairs.length = s.lsk.pairs.length := updAt_length _ _ _

/-! ## The cores' cycles and the burin (R360–R366) -/

section
variable {dt : Nat} {l : Fin 4} {s : State}

theorem pairLocked_of (p : Pair) (h : p.st = .locked) : pairLocked p = true ∧ pairSplit p = false := by
  simp [pairLocked, pairSplit, h]

theorem pairSplit_of (p : Pair) (h : p.st = .split) : pairLocked p = false ∧ pairSplit p = true := by
  simp [pairLocked, pairSplit, h]

theorem pairStep_stands {c : PairCycle} (hlocked : (pairOf s l).st ≠ .locked) (hsplit : pairSplit (pairOf s l) = false) :
    pairStep l c s = s := by
  have hnot : pairLocked (pairOf s l) = false := by
    unfold pairLocked
    split
    · exact absurd ‹_› hlocked
    · rfl
  simp [pairStep, hsplit, hnot]

theorem pairRun_stands (cs : List PairCycle) (hlocked : (pairOf s l).st ≠ .locked) (hsplit : pairSplit (pairOf s l) = false) :
    pairRun l cs s = s := by
  induction cs with
  | nil => rfl
  | cons c cs ih =>
    have hcons : pairRun l (c :: cs) s = pairRun l cs (pairStep l c s) := rfl
    rw [hcons, pairStep_stands hlocked hsplit, ih]

theorem pairRun_append (cs : List PairCycle) (c : PairCycle) (s : State) :
    pairRun l (cs ++ [c]) s = pairStep l c (pairRun l cs s) := by
  simp [pairRun, forEach]

theorem pairStep_locked {c : PairCycle} (hlocked : (pairOf s l).st = .locked) : pairStep l c s =
    match verdictDue (pairOf s l).cores (pairOf (pairCycle l c s) l).cores with
    | some v => verdict l v.1 v.2 (pairCycle l c s)
    | none => pairCycle l c s := by
  obtain ⟨hl, hs⟩ := pairLocked_of _ hlocked
  rw [pairStep, hl, hs]
  rfl

theorem verdictDue_close {k k' : Cores} {a : BitVec 64} (hlast : k.cyc = 255) (hclosed : k'.cyc = 0) (hdone : k.doneLead = some a) :
    verdictDue k k' = some (k.win - 1, some a == k.doneTrail) := by
  simp [verdictDue, hlast, hclosed, hdone]

/-- R365, R368: a clean window lets its transactions go in their order. -/
theorem verdict_clean {w : BitVec 64} {gone kept : List HeldAccess}
    (hgone : (pairOf s l).held.filter (fun h => h.window.toNat ≤ w.toNat) = gone)
    (hkept : (pairOf s l).held.filter (fun h => !decide (h.window.toNat ≤ w.toNat)) = kept) : verdict l w true s =
    forEach gone (releaseHeld l) (modPair l (fun p => { p with
      window := w, windowCode := some (w.toNat % 2 == 0), held := kept, cores := verdictGiven p.cores }) s) := by
  have hmod : modPair l (fun p => { p with
        window := w, windowCode := some (w.toNat % 2 == 0), held := p.held.filter (fun h => !decide (h.window.toNat ≤ w.toNat)),
        cores := verdictGiven p.cores }) s =
      modPair l (fun p => { p with
        window := w, windowCode := some (w.toNat % 2 == 0), held := kept, cores := verdictGiven p.cores }) s := by
    unfold modPair
    rw [updAt_congr (Pair.reset 0)]
    rw [← hkept]
    rfl
  rw [← hmod, ← hgone]
  rfl

/-- R377: of a divergence. -/
theorem verdict_divergence (hl : l.val < s.lsk.pairs.length) (w : BitVec 64) : (pairOf (verdict l w false s) l).st = .fenced ∧
    (pairOf (verdict l w false s) l).held = [] ∧ (pairOf (verdict l w false s) l).lastCause = 1 ∧
    (pairOf (verdict l w false s) l).withdraw = true ∧ (pairOf (verdict l w false s) l).phys = (pairOf s l).phys ∧
    (∀ m : Fin 4, m ≠ l → pairOf (verdict l w false s) m = pairOf s m) := by
  obtain ⟨hst, hheld, hcause, hwith, hphys⟩ := fencePair_pair (l := l.val) (cause := 1) (core := 0) (w := w)
    (s := pairCount l.val 0 s) (by rw [pairCount_length]; exact hl)
  refine ⟨hst, hheld, hcause, hwith, hphys.trans (pairOf_modPair_field Pair.phys (fun _ => by rfl) _ _ _), fun m hm => ?_⟩
  have hne : l.val ≠ m.val := fun h => hm (Fin.ext h.symm)
  exact (fencePair_ne hne).trans (pairOf_modPair_ne _ _ _ _ hne)

/-! ## Restart, substitution, split and rejoin (R378, R382–R384, R387) -/

/-- What a completed hand-over leaves of the pair. -/
theorem handDone_pair {l : Nat} {k : HandKind} (hl : l < s.lsk.pairs.length) : pairOf (handDone l k s) l =
    { handEnded (pairOf s l) with ctr := ctrInc (pairOf s l).ctr 7 } := by
  have hlen : l < (modPair l handEnded s).lsk.pairs.length := by rw [modPair, updAt_length]; exact hl
  rw [pairOf_congr (congrArg Lsk.pairs (handDone_lsk l k s)) l, pairCount, pairOf_modPair_self _ _ _ hlen,
    pairOf_modPair_self _ _ _ hl]
  rfl

theorem startPair_pair {l entry : Nat} (hl : l < s.lsk.pairs.length) : (pairOf (startPair l entry s) l).st = .locked ∧
    (pairOf (startPair l entry s) l).entry = BitVec.ofNat 4 entry ∧ (pairOf (startPair l entry s) l).window = 0 ∧
    (pairOf (startPair l entry s) l).phys = (pairOf s l).phys := by
  have hpair := pairOf_modPair_self l (fun p => { p with
    st := .locked, entry := BitVec.ofNat 4 entry, window := 0, windowCode := none, held := [], stopped := [false, false],
    hok := [false, false], rejoinRdy := [false, false], wfi := [false, false], ready := 0, readySet := 0, halted := false,
    withdraw := false, cores := Cores.start (coreAt p.cfg.vector) }) (clearShadows l s) hl
  rw [startPair, startLocked, hpair]
  exact ⟨rfl, rfl, rfl, rfl⟩

/-- R378: the restart on the Ready spare. -/
theorem restartPair_spare {l : Nat} {x : Fin 5} (hl : l < s.lsk.pairs.length) (hspare : s.lsk.spare = some x)
    (hready : s.lsk.spareReady = true) : (pairOf (restartPair l s) l).st = .locked ∧
    (pairOf (restartPair l s) l).phys = some x ∧ (pairOf (restartPair l s) l).entry = 1 ∧
    (pairOf (restartPair l s) l).window = 0 ∧ (restartPair l s).lsk.spareReady = false := by
  obtain ⟨t, hpairs, hnone, hdone⟩ : ∃ t, t.lsk.pairs = (modPair l (fun p => { p with phys := some x }) (startPair l 1 s)).lsk.pairs ∧
      t.lsk.spareReady = false ∧ restartPair l s = handDone l .restart t := by
    unfold restartPair
    simp only [hspare, hready]
    refine ⟨_, ?_, ?_, rfl⟩
    · split
      · exact (freePair_keeps _ _ _).1
      · rfl
    · split
      · exact (freePair_keeps _ _ _).2
      · rfl
  have hstart : l < (startPair l 1 s).lsk.pairs.length := by
    rw [startPair, startLocked, modPair, updAt_length]
    exact hl
  have hlen : l < t.lsk.pairs.length := by rw [hpairs, modPair, updAt_length]; exact hstart
  obtain ⟨hst, hentry, hwindow, -⟩ := startPair_pair (entry := 1) hl
  rw [hdone, handDone_pair hlen, pairOf_congr hpairs, pairOf_modPair_self _ _ _ hstart, handDone_lsk]
  exact ⟨hst, rfl, hentry, hwindow, hnone⟩

/-- R378: the restart on the pair's own physical pair. -/
theorem restartPair_same {l : Nat} {x : Fin 5} (hl : l < s.lsk.pairs.length) (hspare : s.lsk.spareReady = false)
    (hphys : (pairOf s l).phys = some x) (hcause : (pairOf s l).lastCause ≠ 2) : (pairOf (restartPair l s) l).st = .locked ∧
    (pairOf (restartPair l s) l).phys = some x ∧ (pairOf (restartPair l s) l).entry = 1 ∧
    (pairOf (restartPair l s) l).window = 0 := by
  have hdone : restartPair l s = handDone l .restart (startPair l 1 s) := by
    unfold restartPair
    simp only [hspare, hphys, hcause, if_false]
    cases s.lsk.spare <;> rfl
  have hlen : l < (startPair l 1 s).lsk.pairs.length := by
    rw [startPair, startLocked, modPair, updAt_length]
    exact hl
  obtain ⟨hst, hentry, hwindow, hown⟩ := startPair_pair (entry := 1) hl
  rw [hdone, handDone_pair hlen]
  exact ⟨hst, hown.trans hphys, hentry, hwindow⟩

/-- R382, R387: the split pair. -/
theorem splitPair_pair {l : Nat} {st : PairSt} (hl : l < s.lsk.pairs.length) : (pairOf (splitPair l st s) l).st = st ∧
    (pairOf (splitPair l st s) l).entry = 2 ∧ (pairOf (splitPair l st s) l).ready = 0 ∧
    (pairOf (splitPair l st s) l).pendHand = none ∧ (pairOf (splitPair l st s) l).halted = false ∧
    (pairOf (splitPair l st s) l).debugSplitAt = false := by
  rw [splitPair, handDone_pair (by rw [modPair, updAt_length]; exact hl), pairOf_modPair_self _ _ _ hl]
  exact ⟨rfl, rfl, rfl, rfl, rfl, rfl⟩

theorem handAbandon_length (l : Nat) (s : State) : (handAbandon l s).lsk.pairs.length = s.lsk.pairs.length := by
  cases h : (pairOf s l).pendHand with
  | none => rw [handAbandon_none h]
  | some k => rw [handAbandon_lsk h, modPair, updAt_length]

/-- R383: the logical pair resumes on the spare. -/
theorem substitutionAtInstant_pair {l : Nat} {x : Fin 5} (hl : l < s.lsk.pairs.length) (hto : (pairOf s l).substTo = some x) :
    (pairOf (substitutionAtInstant l s) l).phys = some x ∧ (pairOf (substitutionAtInstant l s) l).entry = 4 ∧
    (pairOf (substitutionAtInstant l s) l).window = 0 ∧
    (pairOf (substitutionAtInstant l s) l).cores.lead = archState (pairOf s l).cores.lead ∧
    (pairOf (substitutionAtInstant l s) l).cores.trail = archState (pairOf s l).cores.lead := by
  obtain ⟨t, hpairs, hdone⟩ : ∃ t, t.lsk.pairs = (modPair l (fun p => { p with
      phys := some x, entry := 4, window := 0, windowCode := none, cores := Cores.start (archState p.cores.lead) }) s).lsk.pairs ∧
      substitutionAtInstant l s = handDone l .subst t := by
    unfold substitutionAtInstant
    simp only [hto]
    refine ⟨_, ?_, rfl⟩
    split
    · exact (freePair_keeps _ _ _).1
    · rfl
  have hlen : l < t.lsk.pairs.length := by rw [hpairs, modPair, updAt_length]; exact hl
  rw [hdone, handDone_pair hlen, pairOf_congr hpairs, pairOf_modPair_self _ _ _ hl]
  exact ⟨rfl, rfl, rfl, rfl, rfl⟩

/-- R384: the rejoined pair. -/
theorem rejoinAtInstant_pair {l : Nat} (hl : l < s.lsk.pairs.length) (hnow : rejoinsNow (pairOf s l) = true) :
    (pairOf (rejoinAtInstant l s) l).st = .locked ∧ (pairOf (rejoinAtInstant l s) l).entry = 3 ∧
    (pairOf (rejoinAtInstant l s) l).window = 0 ∧ (pairOf (rejoinAtInstant l s) l).ready = 0 ∧
    (pairOf (rejoinAtInstant l s) l).pendHand = none := by
  have hpairs : (writeBack (pairOf s l).cores.trail (writeBack (pairOf s l).cores.lead s)).lsk.pairs = s.lsk.pairs :=
    (writeBack_keeps _ _).1.trans (writeBack_keeps _ _).1
  have hlen : l < (writeBack (pairOf s l).cores.trail (writeBack (pairOf s l).cores.lead s)).lsk.pairs.length :=
    hpairs.symm ▸ hl
  have hlen' : l < (startLocked l 3 (writeBack (pairOf s l).cores.trail (writeBack (pairOf s l).cores.lead s))).lsk.pairs.length := by
    rw [startLocked, modPair, updAt_length]
    exact hlen
  simp only [rejoinAtInstant, hnow, if_true]
  rw [handDone_pair (by rw [modPair, updAt_length]; exact hlen'), pairOf_modPair_self _ _ _ hlen', startLocked,
    pairOf_modPair_self _ _ _ hlen]
  exact ⟨rfl, rfl, rfl, rfl, rfl⟩

/-- R383: the copies agree and are for the spare. -/
theorem transfer_agrees {l : Nat} (hl : l < s.lsk.pairs.length)
    (hagree : archState (pairOf s l).cores.lead = archState (pairOf s l).cores.trail) (hready : s.lsk.spareReady = true) :
    (pairOf (transfer l s) l).substTo = s.lsk.spare ∧ (pairOf (transfer l s) l).cores = cachesOff (pairOf s l).cores := by
  obtain ⟨hpairs, hspare, hready'⟩ := writeBack_keeps (pairOf s l).cores.lead s
  have hlen : l < (writeBack (pairOf s l).cores.lead s).lsk.pairs.length := hpairs.symm ▸ hl
  have htransfer : transfer l s = modPair l (fun p => { p with substTo := s.lsk.spare })
      (modPair l (fun p => { p with cores := cachesOff p.cores }) (writeBack (pairOf s l).cores.lead s)) := by
    have hnot : ¬ archState (pairOf s l).cores.lead ≠ archState (pairOf s l).cores.trail := not_not.mpr hagree
    exact (if_neg hnot).trans ((if_pos (hready'.trans hready)).trans (congrArg (fun x => modPair l (fun p => { p with
      substTo := x }) (modPair l (fun p => { p with cores := cachesOff p.cores }) (writeBack (pairOf s l).cores.lead s))) hspare))
  rw [htransfer, pairOf_modPair_self _ _ _ (by rw [modPair, updAt_length]; exact hlen), pairOf_modPair_self _ _ _ hlen,
    pairOf_congr hpairs]
  exact ⟨rfl, rfl⟩

theorem transfer_differs {l : Nat} (hl : l < s.lsk.pairs.length)
    (hdiffer : archState (pairOf s l).cores.lead ≠ archState (pairOf s l).cores.trail) :
    (pairOf (transfer l s) l).st = .fenced ∧ (pairOf (transfer l s) l).lastCause = 4 := by
  obtain ⟨hpairs, -, -⟩ := writeBack_keeps (pairOf s l).cores.lead s
  have hlen : l < (modPair l (fun p => { p with cores := cachesOff p.cores })
      (writeBack (pairOf s l).cores.lead s)).lsk.pairs.length := by
    rw [modPair, updAt_length, hpairs]
    exact hl
  obtain ⟨hst, -, hcause, -, -⟩ := fencePair_pair (cause := 4) (core := 0) (w := (pairOf s l).cores.win) hlen
  rw [transfer, if_pos hdiffer]
  exact ⟨hst, hcause⟩

end

/-! ## The commands -/

section
variable {dt : Nat} {l : Fin 4} {s : State}

theorem exec_pairAccessFault {c : Fin 2} {a : Nat} (hruns : pairLocked (pairOf s l) = true ∨ pairSplit (pairOf s l) = true)
    (hmay : pairMay (pairOf s l) c.val a = false) : exec (.pairAccessFault dt l c a) s =
    .next (faultComes l (if pairSplit (pairOf s l) then c.val else 0) a (begin_ dt s)) :=
  congrArg Host.Outcome.next (if_pos (by rcases hruns with h | h <;> simp [h, hmay]))

/-- R381: a WFI of a locked pair in time is the hand-over point. -/
theorem pointReached_of (hlocked : (pairOf s l).st = .locked)
    (hhand : (pairOf s l).pendHand = some .split ∨ (pairOf s l).pendHand = some .subst)
    (hhok : (pairOf s l).hok.getD 0 false = true) (hnow : s.now + usT 150 ≤ nextInstant s) : pointReached l s = true := by
  have hawaits : awaitsPoint (pairOf s l) = true := by rcases hhand with h | h <;> simp [awaitsPoint, h]
  rw [pointReached, (pairLocked_of _ hlocked).1, hawaits, hhok, decide_eq_true hnow]
  rfl

theorem exec_pairReadyWrite {c : Fin 2} {v : BitVec 32} (hl : l.val < s.lsk.pairs.length)
    (hwrites : (pairLocked (pairOf s l) || (pairSplit (pairOf s l) && !((pairOf s l).stopped.getD c.val false))) = true)
    (hhalted : (pairOf s l).halted = false) : ∃ t, exec (.pairReadyWrite dt l c v) s = .next t ∧
    pairOf t l = csrWrite c v.toNat { pairOf s l with wfi := updAt (pairOf s l).wfi c.val (fun _ => false) } :=
  ⟨_, congrArg Host.Outcome.next (if_pos (by
    rw [pairOf_begin_, hwrites, hhalted]
    rfl)), pairOf_modPair_self _ _ (begin_ dt s) hl⟩

end

end Sys2Proof.Machine
end

section
/-! PROOFS. The statement of spec/08_lockstep_cluster.md about the pairs' events. -/

open Sys2Proof Sys2Proof.Machine

/-- Settles O29: each command is the branch that the pair's state chooses. -/
theorem pairEventCommandsComplete : Obligations.PairEventCommandsComplete := by
  intro dt l s hs
  have hl : l.val < (begin_ dt s).lsk.pairs.length := (Sound.pairs hs).symm ▸ l.isLt
  have hcount (i : Nat) : l.val < (pairCount l.val i (begin_ dt s)).lsk.pairs.length := by rw [pairCount_length]; exact hl
  refine ⟨?_, ?_, ?_, ?_, ?_, ?_, ?_, ?_, ?_, ?_, ?_, ?_, ?_, ?_, ?_, ?_, ?_, ?_, ?_, ?_, ?_, ?_, ?_, ?_, ?_, ?_, ?_, ?_,
    ?_, ?_, ?_, ?_, ?_, ?_, ?_, ?_, ?_⟩
  · exact fun cs hlocked hsplit => congrArg Host.Outcome.next (pairRun_stands (s := begin_ dt s) cs hlocked hsplit)
  · exact fun c hsplit => congrArg Host.Outcome.next (if_pos hsplit)
  · intro c hlocked hnone
    have hnone' : verdictDue (pairOf (begin_ dt s) l).cores (pairOf (pairCycle l c (begin_ dt s)) l).cores = none := hnone
    exact congrArg Host.Outcome.next ((pairStep_locked (s := begin_ dt s) hlocked).trans (by rw [hnone']))
  · intro c w ok hlocked hsome
    have hsome' : verdictDue (pairOf (begin_ dt s) l).cores (pairOf (pairCycle l c (begin_ dt s)) l).cores = some (w, ok) := hsome
    exact congrArg Host.Outcome.next ((pairStep_locked (s := begin_ dt s) hlocked).trans (by rw [hsome']))
  · exact fun cs c => ⟨_, rfl, congrArg Host.Outcome.next (pairRun_append cs c (begin_ dt s))⟩
  · exact fun k k' a hlast hclosed hdone => verdictDue_close hlast hclosed hdone
  · exact fun w hheld => verdict_clean (gone := []) (kept := []) (by rw [hheld]; rfl) (by rw [hheld]; rfl)
  · intro w h hheld hle
    exact verdict_clean (gone := [h]) (kept := []) (by simp [hheld, hle]) (by simp [hheld, hle])
  · intro w h hheld hlt
    exact verdict_clean (gone := []) (kept := [h]) (by simp [hheld, hlt]) (by simp [hheld, hlt])
  · exact fun w => verdict_divergence (s := s) hl w
  · exact fun n hfull => congrArg Host.Outcome.next (if_pos (Nat.le_of_eq hfull.symm))
  · intro hlocked
    obtain ⟨hst, hheld, hcause, hwith, -⟩ := fencePair_pair (cause := 2) (core := 0) (w := (pairOf (begin_ dt s) l).cores.win) (hcount 1)
    exact ⟨_, congrArg Host.Outcome.next (if_pos (pairLocked_of _ hlocked).1), hst, hheld, hcause, hwith⟩
  · intro c hlocked
    obtain ⟨hst, -, hcause, -, -⟩ := fencePair_pair (cause := 3) (core := c.val) (w := (pairOf (begin_ dt s) l).cores.win) (hcount 3)
    exact ⟨_, congrArg Host.Outcome.next (if_pos (pairLocked_of _ hlocked).1), hst, hcause⟩
  · intro c hsplit hhand
    obtain ⟨hnot, his⟩ := pairSplit_of _ hsplit
    obtain ⟨hst, -, hcause, -, -⟩ := fencePair_pair (cause := 3) (core := c.val) (w := (pairOf (begin_ dt s) l).window) (hcount 3)
    refine ⟨_, congrArg Host.Outcome.next ((if_neg ?_).trans (if_pos ?_)), hst, hcause⟩
    · exact fun h => absurd (hnot.symm.trans h) (by decide)
    · rw [Bool.and_eq_true, decide_eq_true_eq]
      exact ⟨his, hhand⟩
  · intro c hsplit hhand
    obtain ⟨hnot, his⟩ := pairSplit_of _ hsplit
    refine ⟨_, congrArg Host.Outcome.next ((if_neg ?_).trans ((if_neg ?_).trans (if_pos his))), ?_⟩
    · exact fun h => absurd (hnot.symm.trans h) (by decide)
    · rw [Bool.and_eq_true, decide_eq_true_eq]
      exact fun h => hhand h.2
    · rw [splitCoreFault, pairOf_congr (congrArg Lsk.pairs (raise_lsk _ _ _)), pairOf_modPair_self _ _ _ (hcount 3), pairCount,
        pairOf_modPair_self _ _ _ hl]
      exact ⟨hsplit, rfl, rfl⟩
  · exact fun hdue hnow => congrArg Host.Outcome.next (instantIf_of_due hdue hnow)
  · exact fun hnot => congrArg Host.Outcome.next (instantIf_of_not_due hnot)
  · intro x hdue hspare hready
    rw [restartAtInstant, if_pos hdue]
    exact restartPair_spare (s := s) hl hspare hready
  · intro x hdue hready hphys hcause
    rw [restartAtInstant, if_pos hdue]
    exact restartPair_same (s := s) hl hready hphys hcause
  · intro c a hlocked hmay
    obtain ⟨his, hnot⟩ := pairLocked_of _ hlocked
    rw [exec_pairAccessFault (.inl his) hmay, hnot]
    rfl
  · intro c a hsplit hmay
    obtain ⟨-, his⟩ := pairSplit_of _ hsplit
    rw [exec_pairAccessFault (.inr his) hmay, his]
    rfl
  · intro hlocked hhand hhok hnow
    have hpoint := pointReached_of (s := begin_ dt s) hlocked hhand hhok hnow
    refine congrArg Host.Outcome.next ((if_neg ?_).trans (if_pos hpoint))
    exact fun h => absurd ((pairLocked_of _ hlocked).2.symm.trans h) (by decide)
  · exact fun hsplit => congrArg Host.Outcome.next (if_pos (pairSplit_of _ hsplit).2)
  · exact fun hdue hnow => congrArg Host.Outcome.next (instantIf_of_due (due := fun s => splitsNow (pairOf s l)) hdue hnow)
  · exact fun hnot => congrArg Host.Outcome.next (instantIf_of_not_due (due := fun s => splitsNow (pairOf s l)) hnot)
  · intro hlocked hdebug hhand hdrained
    have hnow : splitsNow (pairOf s l) = true := by simp [splitsNow, (pairLocked_of _ hlocked).1, hdrained, hhand]
    have hsplit : splitAtInstant l s = splitPair l .split s := by simp [splitAtInstant, hnow, hdebug]
    obtain ⟨hst, hentry, hready, hpend, hhalted, -⟩ := splitPair_pair (st := .split) (s := s) hl
    rw [hsplit]
    exact ⟨hst, hentry, hready, hpend, hhalted⟩
  · intro hlocked hdebug hdrained
    have hnow : splitsNow (pairOf s l) = true := by simp [splitsNow, (pairLocked_of _ hlocked).1, hdrained, hdebug]
    have hsplit : splitAtInstant l s =
        splitPair l .debugSplit (if (pairOf s l).pendHand = some .split then s else handAbandon l s) := by
      simp [splitAtInstant, hnow, hdebug]
    have hlen : l.val < (if (pairOf s l).pendHand = some .split then s else handAbandon l s).lsk.pairs.length := by
      split
      · exact hl
      · rw [handAbandon_length]; exact hl
    obtain ⟨hst, -, hready, -, -, hnone⟩ := splitPair_pair (st := .debugSplit) hlen
    rw [hsplit]
    exact ⟨hst, hnone, hready⟩
  · intro hlocked hhand hdrained hagree hready
    have hexec : exec (.substitutionTransfer dt l) s = .next (transfer l (begin_ dt s)) :=
      congrArg Host.Outcome.next (if_neg (by simp [(pairLocked_of _ hlocked).1, hhand, hdrained]))
    exact ⟨hexec, _, hexec, transfer_agrees (s := begin_ dt s) hl hagree hready⟩
  · intro hlocked hhand hdrained hdiffer
    have hexec : exec (.substitutionTransfer dt l) s = .next (transfer l (begin_ dt s)) :=
      congrArg Host.Outcome.next (if_neg (by simp [(pairLocked_of _ hlocked).1, hhand, hdrained]))
    exact ⟨_, hexec, transfer_differs (s := begin_ dt s) hl hdiffer⟩
  · exact fun x hto => substitutionAtInstant_pair (s := s) hl hto
  · exact fun hdue hnow => congrArg Host.Outcome.next (instantIf_of_due (due := fun s => rejoinsNow (pairOf s l)) hdue hnow)
  · exact fun hnot => congrArg Host.Outcome.next (instantIf_of_not_due (due := fun s => rejoinsNow (pairOf s l)) hnot)
  · exact fun hnow => rejoinAtInstant_pair (s := s) hl hnow
  · intro hhand hhalted hcycles
    obtain ⟨k, hk, hawaits⟩ : ∃ k, (pairOf (begin_ dt s) l).pendHand = some k ∧ awaitsPoint (pairOf s l) = true := by
      rcases hhand with h | h <;> exact ⟨_, h, by simp [awaitsPoint, h]⟩
    have hpair : pairOf (handAbandon l (begin_ dt s)) l = handEnded (pairOf s l) :=
      (pairOf_congr (congrArg Lsk.pairs (handAbandon_lsk hk)) l).trans (pairOf_modPair_self _ _ (begin_ dt s) hl)
    refine ⟨_, congrArg Host.Outcome.next (if_pos ?_), by rw [hpair]; rfl, by rw [hpair]; rfl, by rw [hpair]; rfl⟩
    simp [hawaits, hhalted, hcycles]
  · intro hscope hlocked hdebug
    exact congrArg Host.Outcome.next (if_pos (by simp [hscope, (pairLocked_of _ hlocked).1, hdebug]))
  · intro c v hlocked hhalted hdbg
    obtain ⟨his, hnot⟩ := pairLocked_of _ hlocked
    obtain ⟨t, hexec, hpair⟩ := exec_pairReadyWrite (dt := dt) (c := c) (v := v) (s := s) hl (by simp [his]) hhalted
    refine ⟨t, hexec, ?_⟩
    rw [hpair]
    simp [csrWrite, pairSplit, pairLocked, hlocked, hdbg, BitVec.getLsbD]
  · intro c v hsplit hhalted hstopped
    obtain ⟨hnot, his⟩ := pairSplit_of _ hsplit
    obtain ⟨t, hexec, hpair⟩ := exec_pairReadyWrite (dt := dt) (c := c) (v := v) (s := s) hl (by rw [his, hstopped]; simp) hhalted
    refine ⟨t, hexec, ?_⟩
    rw [hpair]
    simp [csrWrite, pairSplit, pairLocked, hsplit, BitVec.getLsbD]

end

section
/-! PROOFS. The inauguration (spec/03): beacons, breaks, directories, joins, claims and the opening frame. -/

namespace Sys2Proof.Machine

section
variable {dt : Nat} {p : Fin 4} {s : State}

theorem joined_of_steep (h : s.ina.st = .steep) : joined s = false := by simp [joined, h]

theorem isFirst_of_unjoined (h : joined s = false) : isFirst s = false := by simp [isFirst, h]

theorem isFirst_of_provLead (h : inProvLead s = true) : isFirst s = false := by
  refine isFirst_of_unjoined ?_
  revert h
  unfold inProvLead joined
  cases s.ina.st <;> simp

/-- What a frame on its way leaves. -/
theorem forwardFrame_keeps (p : Nat) (f : OutFrame) (s : State) : OnlyWrites [.emit, .trunk] s (forwardFrame p f s) := by
  simp [onlyWrites_refl]

/-! ## Beacons sent (R93–R96) -/

theorem beaconOut_emit (h : s.sys.extest = false) :
    (beaconOut p s).emit = s.emit ++ [.trunk p (.beacon (ownBeacon p s)) none (some s.trunk.etherType)] := by
  have hport : (Fin.ofNat 4 p.val : Fin 4) = p := Fin.ofNat_val_eq_self p
  unfold beaconOut trunkOut
  rw [hport, emit_sent (by exact h)]
  rfl

theorem ownBeacon_passive (h : s.trunk.passiveOn = true) : (ownBeacon p s).flags.getLsbD 0 = true := by
  have hodd (n : Nat) (hn : n % 2 = 1) : (BitVec.ofNat 8 n).getLsbD 0 = true := by
    simp [BitVec.getLsbD_ofNat, Nat.testBit_zero, hn]
  refine hodd _ ?_
  have hset : b2n s.trunk.passiveOn = 1 := by rw [h]; rfl
  omega

theorem passiveBeacons_one (hup : upPorts s = [p.val])
    (hclear : beaconClear p (lineTicks (portOf s p) (inaugLen (.beacon (ownBeacon p s)))) s = true) :
    (passiveBeacons s).emit = (beaconOut p s).emit := by
  have hone : passiveBeacons s = passiveBeacon p.val s := by rw [passiveBeacons, hup]; rfl
  rw [hone, passiveBeacon, hclear]
  rfl

/-! ## Beacons taken (R95) -/

/-- What a beacon at raw time `rx` makes of a port whose clock stands at `clk`. -/
def beaconTaken (b : Beacon) (rx : Int) (clk : Nat) (t : Port) : Port := { t with
  partner := some b, partnerClk := some clk, partnerUid := if linkHeld t then t.partnerUid else b.uid
  strange := t.strange || (linkHeld t && b.uid ≠ t.partnerUid && b.uid ≠ t.okUid)
  deltas := ((b.txTime : Int) + (if linkHeld t then t.delay.est else 0) - pinRx t rx) :: t.deltas.take 7 }

/-- What a beacon leaves of every port: its link and its partner's kind. -/
theorem beaconTaken_ports (b : Beacon) (rx : Int) (j : Nat) :
    linkHeld (portOf (modPort p (beaconTaken b rx s.clk) s) j) = linkHeld (portOf s j) ∧
    (portOf (modPort p (beaconTaken b rx s.clk) s) j).ttdp = (portOf s j).ttdp ∧
    (portOf (modPort p (beaconTaken b rx s.clk) s) j).delay = (portOf s j).delay :=
  ⟨getD_updAt_field linkHeld (fun _ => by rfl) _ _ _ _, getD_updAt_field Port.ttdp (fun _ => by rfl) _ _ _ _,
    getD_updAt_field Port.delay (fun _ => by rfl) _ _ _ _⟩

/-- A node that takes a beacon on a port without an estimate samples nothing from it. -/
theorem beaconSample_none (h : delayValid s p = false) : beaconSample p s = s := by
  have hno : noSampleFrom p s = true := by simp [noSampleFrom, h]
  have hsource : beaconSource s p = false := by simp [beaconSource, hno]
  simp [beaconSample, hsource]

theorem ttGone_same {d : Nat} {t : State} (h : ttHere d t = ttHere d s) : ttGone d s t = t := by
  simp [ttGone, h]

/-- R95: a beacon of a schedule that agrees, at a node in Steep without an estimate, changes the port and the newest
generation only. -/
theorem beaconIn_steep {b : Beacon} {rx : Int} (hport : beaconPort s p = true) (hsteep : s.ina.st = .steep)
    (hsame : sameSchedule b s = true) (hactive : b.flags.getLsbD 0 = false) (httdp : (portOf s p).ttdp = false)
    (hvalid : (portOf s p).delay.valid = false) : beaconIn p b rx s =
    modIna (fun n => { n with newest := newerGen n.newest b.gen }) (modPort p (beaconTaken b rx s.clk) s) := by
  have hmod : modPort p (fun t => { t with
      partner := some b, partnerClk := some s.clk, partnerUid := if linkHeld t then t.partnerUid else b.uid, ttdp := false
      strange := t.strange || (linkHeld t && b.uid ≠ t.partnerUid && b.uid ≠ t.okUid)
      deltas := (((b.txTime : Int) + (if linkHeld (portOf s p) then (portOf s p).delay.est else 0) - pinRx (portOf s p) rx) ::
        t.deltas).take 8 }) s = modPort p (beaconTaken b rx s.clk) s :=
    modPort_congr (by simp only [beaconTaken, List.take_succ_cons, httdp])
  generalize hu : modIna (fun n => { n with newest := newerGen n.newest b.gen }) (modPort p (beaconTaken b rx s.clk) s) = u
  have hpassive : beaconPassive p b u = u := by rw [beaconPassive, hactive]; rfl
  have hschedule : beaconSchedule p b u = u := by
    have hsame' : sameSchedule b u = true := by rw [← hu]; exact hsame
    simp [beaconSchedule, hsame']
  have hmerge : beaconMerge p b u = u := by
    have hjoined : joined u = false := by rw [← hu]; exact joined_of_steep hsteep
    simp [beaconMerge, hjoined]
  have hsample : beaconSample p u = u :=
    (beaconSample_none (by rw [← hu]; exact (congrArg DelayEst.valid (beaconTaken_ports b rx p).2.2).trans hvalid))
  have hgone : ttGone (dirOfPort p) s u = u := by
    refine ttGone_same ?_
    have hhere (j : Nat) : (linkHeld (portOf u j) && (portOf u j).ttdp) = (linkHeld (portOf s j) && (portOf s j).ttdp) := by
      obtain ⟨hlink, htt, -⟩ := beaconTaken_ports (p := p) (s := s) b rx j
      rw [← hu]
      exact congrArg₂ _ hlink htt
    simp only [ttHere, hhere]
  unfold beaconIn
  rw [hport]
  dsimp only
  rw [if_neg (by decide), hmod, hu, hpassive, hschedule, hmerge, hsample, hgone]

theorem beaconIn_noPort {b : Beacon} {rx : Int} (hport : beaconPort s p = false) : beaconIn p b rx s = s := by
  simp [beaconIn, hport]

/-! ## Breaks (R116, R117) -/

section
variable {b : BreakBody} (hup : portUp s p = true) (hinner : isBoundary s p = false)
include hup hinner

theorem breakIn_known {d : Directory} (hown : straysNow p s = false) (hdir : s.ina.dir = some d)
    (hnum : uidNumbered d b.lostUid = true) : breakIn p b s = forwardFrame p (.breakF b) (scheduleRemoval b s) := by
  simp [breakIn, hup, hinner, hown, hdir, hnum]

theorem breakIn_unknown (hnot : ∀ d, s.ina.dir = some d → uidNumbered d b.lostUid = false) :
    breakIn p b s = forwardFrame p (.breakF b) (if straysNow p s then schedCount 9 s else s) := by
  have hknown : (s.ina.dir.map (fun d => uidNumbered d b.lostUid)).getD false = false := by
    cases hdir : s.ina.dir with
    | none => rfl
    | some d => exact hnot d hdir
  simp [breakIn, hup, hinner, hknown]

end

theorem scheduleRemoval_first {b : BreakBody} {u : BitVec 64} (hrep : reporterOf b s = some u) (hnone : s.ina.removals = []) :
    scheduleRemoval b s = inaCount 5 (modIna (fun n => { n with
      removals := n.removals ++ [{ brk := b, reporter := u, wait := removalWait b.tDown s }] }) s) := by
  simp [scheduleRemoval, hrep, hnone]

/-- A frame that goes on over an idle port leaves at once. -/
theorem forwardFrame_emit {f : OutFrame} (hfwd : forwards s p = true) (hcarries : carriesPadait (acrossPort p) s = true)
    (hfifo : (portOf s (acrossPort p)).fifo = []) (hbusy : (portOf s (acrossPort p)).busyTill ≤ s.clk)
    (hext : s.sys.extest = false) : (forwardFrame p f s).emit = s.emit ++ [.forwarded (Fin.ofNat 4 (acrossPort p)) f] := by
  have hpass : passesOn p f s = true := by simp [passesOn, hfwd, hcarries]
  rw [forwardFrame, forwardLen, hpass, if_pos rfl, transitOut_idle hbusy hfifo, transitEmit, emit_sent (by exact hext)]
  rfl

/-! ## Directories (R100) -/

section
variable {f : DirFrame} {D : Directory} (hpart : s.ina.partial_ = []) (hdir : assembleDir [f] = some D)
include hpart hdir

/-- A directory that comes in one frame. -/
theorem directoryIn_whole : directoryIn p f s =
    if f.isForeign then mergeReport p (modIna (fun n => { n with foreignDir := some D })
      (modIna (fun n => { n with partial_ := [] }) s))
    else if isFirst s then modIna (fun n => { n with partial_ := [] }) s
    else if f.prepared then takePrepared D (modIna (fun n => { n with partial_ := [] }) s)
    else takeDirectory D (modIna (fun n => { n with partial_ := [] }) s) := by
  simp [directoryIn, hpart, hdir]

end

theorem directoryOnTrunk_own {f : DirFrame} (hup : portUp s p = true) (hinner : isBoundary s p = false)
    (hown : straysNow p s = false) (hnative : f.isForeign = false) : directoryOnTrunk p f s =
    fabRelay (.dir f) (forwardFrame p (.dir f) (directoryIn p f s)) := by
  simp [directoryOnTrunk, portCarries_of_portUp hup, hinner, hown, hnative]

theorem directoryOnTrunk_foreign {f : DirFrame} (hup : portUp s p = true) (hown : straysNow p s = false)
    (hforeign : f.isForeign = true) : directoryOnTrunk p f s = directoryIn p f s := by
  simp [directoryOnTrunk, portCarries_of_portUp hup, hown, hforeign]

theorem fabRelay_forwardFrame_ina (x : FabricPayload) (f : OutFrame) (t : State) :
    (fabRelay x (forwardFrame p f t)).ina = t.ina := by
  have hkeep : OnlyWrites [.emit, .trunk, .fab] t (fabRelay x (forwardFrame p f t)) := by simp [onlyWrites_refl]
  exact hkeep .ina (by decide)

/-- R99: a case that is noted is noted as such only. -/
theorem noteConflict_ina (s : State) : ∃ c, (noteConflict s).ina = { s.ina with conflict := c } := by
  unfold noteConflict
  split
  · exact ⟨s.ina.conflict, rfl⟩
  · split
    · exact ⟨none, rfl⟩
    · split
      · split
        · exact ⟨s.ina.conflict, rfl⟩
        next c _ _ =>
          have hkeep (u : State) : (conflictEvent c s.sys.uid u).ina = u.ina := by simp [conflictEvent]
          exact ⟨some c, hkeep _⟩
      · exact ⟨s.ina.conflict, rfl⟩

theorem takeDirectory_unjoined {D : Directory} (h : joined s = false) : ∃ c, (takeDirectory D s).ina = { s.ina with
    gen := D.gen, dir := some D, dirAge := 0, members := walkOf D, newest := newerGen s.ina.newest D.gen, conflict := c } := by
  rw [takeDirectory, h, if_neg Bool.false_ne_true]
  exact noteConflict_ina _

theorem takePrepared_uncommitted {D : Directory} {q : Prepared} (hprep : s.ina.prep = some q) (hnot : q.committed = false) :
    takePrepared D s = modIna (fun n => { n with
      prep := some { q with dir := D, hash := dirHash D, whole := true, conf := leftOut D s } }) s := by
  simp [takePrepared, hprep, hnot]

theorem mergeReport_alone (h : (portOf s p).partner = none) : mergeReport p s = s := by
  simp only [mergeReport, h]

/-! ## Joins, claims, reports and the leading vehicle (R106, R126, R131, R138, R142) -/

theorem keptOut_of_own {dt : Nat} {p : Option (Fin 4)} (h : ∀ q : Fin 4, p = some q → OwnTraffic q dt s) :
    keptOut (p.map (fun q => q.val)) (begin_ dt s) = false ∧
    ((p.map (fun q => q.val)).map (fun q => straysNow q (begin_ dt s))).getD false = false := by
  cases p with
  | none => exact ⟨rfl, rfl⟩
  | some q =>
    obtain ⟨hup, hinner, hown⟩ := h q rfl
    have hup' : portUp (begin_ dt s) q.val = true := hup
    have hinner' : isBoundary (begin_ dt s) q.val = false := hinner
    exact ⟨by simp [keptOut, hup', hinner'], hown⟩

theorem keptOut_out (h : portUp s p = false ∨ isBoundary s p = true) : keptOut (some p.val) s = true := by
  rcases h with h | h <;> simp [keptOut, h]

theorem keptOut_in (hup : portUp s p = true) (hinner : isBoundary s p = false) : keptOut (some p.val) s = false := by
  simp [keptOut, hup, hinner]

section
variable {q : Option Nat} {j : JoinBody} (hkept : keptOut q s = false) (hstray : (q.map (fun p => straysNow p s)).getD false = false)
include hkept hstray

theorem joinIn_first (hfirst : isFirst s = true) : joinIn q j s = joinFirst j s := by
  simp only [joinIn, hkept, hstray, hfirst, Bool.false_eq_true, if_false, if_true]

theorem joinIn_lead (hlead : inProvLead s = true) : joinIn q j s = joinLead j s := by
  simp only [joinIn, hkept, hstray, isFirst_of_provLead hlead, hlead, Bool.false_eq_true, if_false, if_true]

end

theorem joinFirst_new {j : JoinBody} (h : j ∉ s.ina.extra) :
    joinFirst j s = modIna (fun n => { n with additions := putJoin j n.additions }) s := if_neg (by simpa using h)

theorem joinLead_new {j : JoinBody} (h : ∀ x ∈ s.ina.joiners, x.uid ≠ j.uid) :
    joinLead j s = modIna (fun n => { n with joiners := n.joiners ++ [j], provQuiet := 0, provJoin := true }) s :=
  if_neg (by simpa using h)

/-- R138, R139: what a claim makes of a contending node. -/
theorem coldClaimIn_contend {c : ColdClaim} (hup : portUp s p = true) (hinner : isBoundary s p = false)
    (hown : straysNow p s = false) (hst : s.ina.st = .contend) : c.newestGen ∈ (coldClaimIn p c s).ina.heardGens ∧
    (coldClaimIn p c s).ina.st = if (ownRank s).toNat < c.rank.toNat then .provMember else .contend := by
  have hkeep := forwardFrame_keeps p (.coldClaim c) s
  have hina : (forwardFrame p (.coldClaim c) s).ina = s.ina := hkeep .ina (by decide)
  have hsys : (forwardFrame p (.coldClaim c) s).sys = s.sys := hkeep .sys (by decide)
  have hrank (g : Ina → Ina) (hg : (g s.ina).prio = s.ina.prio) :
      ownRank (modIna g (forwardFrame p (.coldClaim c) s)) = ownRank s := by
    simp only [ownRank, modIna, hsys, hina, hg]
  have hin (g : Ina → Ina) (hg : (g s.ina).st = s.ina.st) :
      inContend (modIna g (forwardFrame p (.coldClaim c) s)) = true := by
    simp only [inContend, modIna, hina, hg, hst]
  have hmem : c.newestGen ∈ (s.ina.heardGens ++ [c.newestGen]).eraseDups := by simp
  unfold coldClaimIn
  rw [hup, hinner, hown]
  dsimp only
  rw [hin _ rfl, hrank _ rfl, if_neg (by decide), if_neg (by decide)]
  by_cases hlow : (ownRank s).toNat < c.rank.toNat
  · rw [if_pos (by simp [hlow]), if_pos hlow]
    exact ⟨by simp only [modIna, hina]; exact hmem, rfl⟩
  · rw [if_neg (by simp [hlow]), if_neg hlow]
    exact ⟨by simp only [modIna, hina]; exact hmem, by simp only [modIna, hina]; exact hst⟩

theorem notNumbered_of {v : BitVec 64} (h : ∀ d, s.ina.dir = some d → uidNumbered d v = false) :
    (s.ina.dir.map (fun d => uidNumbered d v)).getD false = false := by
  cases hdir : s.ina.dir with
  | none => rfl
  | some d => exact h d hdir

section
variable {m : MergeReport} (hup : portUp s p = true) (hinner : isBoundary s p = false) (hown : straysNow p s = false)
include hup hinner hown

theorem mergeReportIn_first (hfirst : isFirst s = true)
    (hnot : ∀ d, s.ina.dir = some d → uidNumbered d m.partner.uid = false) : mergeReportIn p m s =
    if sameSchedule m.partner s then modIna (fun n => { n with mergeWait := some m }) s
    else raise 0x0202 (leBytes 1 m.port.val ++ leBytes 8 m.partner.uid.toNat) s := by
  simp [mergeReportIn, hup, hinner, hown, hfirst, notNumbered_of hnot]

theorem mergeReportIn_passes (hfirst : isFirst s = false) :
    mergeReportIn p m s = forwardLen p (.mergeReport m) (reportLen m) s := by
  simp [mergeReportIn, hup, hinner, hown, hfirst]

end

theorem mergeReportIn_out {m : MergeReport} (h : portUp s p = false ∨ isBoundary s p = true) : mergeReportIn p m s = s := by
  rcases h with h | h <;> simp [mergeReportIn, h]

/-! ## The opening frame (R138, R165–R173) -/

/-- R200: a node follows the holding of cycles in its state and in the flags of the schedule. -/
theorem enterHeld_keeps (s : State) : (enterHeld s).sched = { s.sched with heldFlag := true } ∧
    ∃ st tt, (enterHeld s).ina = { s.ina with st := st, heldTt := tt } := by
  have hraise (tt : Bool) : (raise 0x0303 (leBytes 2 s.ina.gen.toNat) (modSched (fun d => { d with heldFlag := true })
        (modIna (fun n => { n with st := .held, heldTt := tt }) s))).sched = { s.sched with heldFlag := true } ∧
      (raise 0x0303 (leBytes 2 s.ina.gen.toNat) (modSched (fun d => { d with heldFlag := true })
        (modIna (fun n => { n with st := .held, heldTt := tt }) s))).ina = { s.ina with st := .held, heldTt := tt } := by
    constructor <;> simp [modSched, modIna]
  unfold enterHeld
  dsimp only
  split
  · exact ⟨(hraise false).1, _, _, (hraise false).2⟩
  · exact ⟨(hraise true).1, _, _, (hraise true).2⟩
  · exact ⟨rfl, _, _, rfl⟩

theorem followHeld_keeps (f : OpeningFrame) (s : State) :
    (∃ h r a, (followHeld f s).sched = { s.sched with heldFlag := h, release := r, activated := a }) ∧
    ∃ st tt, (followHeld f s).ina = { s.ina with st := st, heldTt := tt } := by
  obtain ⟨hsched, st, tt, hina⟩ := enterHeld_keeps s
  have hheld : (∃ h, (if s.sched.heldFlag && inHeld s then s else enterHeld s).sched = { s.sched with heldFlag := h }) ∧
      ∃ st tt, (if s.sched.heldFlag && inHeld s then s else enterHeld s).ina = { s.ina with st := st, heldTt := tt } := by
    split
    · exact ⟨⟨_, rfl⟩, _, _, rfl⟩
    · exact ⟨⟨_, hsched⟩, _, _, hina⟩
  obtain ⟨⟨h, hflag⟩, hstate⟩ := hheld
  by_cases hf : f.held = true
  · rw [followHeld, if_pos hf]
    refine ⟨⟨h, if f.variant = 0xFF then none else some (f.variant.toNat + 1), s.sched.activated, ?_⟩, hstate⟩
    simp only [modSched, hflag]
  · rw [followHeld, if_neg hf]
    split <;> exact ⟨⟨_, _, _, rfl⟩, _, _, rfl⟩

theorem followInaug_keeps (f : OpeningFrame) (s : State) : ∃ q, followInaug f s = modIna (fun n => { n with prep := q }) s := by
  unfold followInaug
  dsimp only
  repeat' split
  all_goals exact ⟨_, rfl⟩

theorem openingIn_bad {f : OpeningFrame} {rx : Int} (hup : portUp s p = true) :
    openingIn p f rx .bad s = portCount p 1 s := frameError_bad hup

/-- An opening frame has been heard now (R138). -/
def heardNow (s : State) : State := modIna (fun n => { n with quietClk := some s.clk }) s

section
variable {f : OpeningFrame} {t : Int} {im : Image} (hrun : s.sched.running = some im) (hst : s.ina.st = .steep)
include hrun hst

/-- A node in Steep judges the frame by R166. -/
theorem openingEffect_steep : openingEffect p f t s =
    (match openingFault im p f t s with
      | some why => openingFailed why p s
      | none => openingValid im p f t s) := by
  have hjoined := joined_of_steep hst
  have hcontend : openingContend f s = s := by simp [openingContend, inContend, hst]
  have hforeign : foreignOpening f s = false := by
    unfold foreignOpening
    split
    · rw [hjoined]; rfl
    · rfl
  have hopens : opensCycles s = false := by simp [opensCycles, isFirst_of_unjoined hjoined, inProvLead, hst]
  simp only [openingEffect, hrun, hcontend, hforeign, hopens]
  rfl

theorem openingEffect_fault {why : Nat} (h : openingFault im p f t s = some why) :
    openingEffect p f t s = openingFailed why p s := by
  rw [openingEffect_steep hrun hst, h]

theorem openingEffect_valid (h : openingFault im p f t s = none) : openingEffect p f t s = openingValid im p f t s := by
  rw [openingEffect_steep hrun hst, h]

end

/-- The schedule and the inauguration are those of the frame's effect: what goes on changes neither. -/
theorem openingIn_good {f : OpeningFrame} {rx : Int} (hup : portUp s p = true) (hwtb : onWtb s p = false)
    (hinner : isBoundary s p = false) (htype : f.type = 0x10) (hversion : f.version = 1) :
    (openingIn p f rx .good s).sched = (openingEffect p f (pinRx (portOf s p) rx) (heardNow s)).sched ∧
    (openingIn p f rx .good s).ina = (openingEffect p f (pinRx (portOf s p) rx) (heardNow s)).ina := by
  have heq : openingIn p f rx .good s = forwardAtOnce p (.opening (forwardedOpening p f
        (openingEffect p f (pinRx (portOf s p) rx) (heardNow s)))) 208
      (openingEffect p f (pinRx (portOf s p) rx) (heardNow s)) := by
    simp [openingIn, hup, hwtb, hinner, htype, hversion, heardNow]
  have hkeep (u : State) (x : OutFrame) : OnlyWrites [.emit, .trunk] u (forwardAtOnce p x 208 u) := by simp [onlyWrites_refl]
  rw [heq]
  exact ⟨hkeep _ _ .sched (by decide), hkeep _ _ .ina (by decide)⟩

/-- R166–R173: the first valid copy of a cycle, on a port without an estimate. -/
theorem openingValid_first {f : OpeningFrame} {t : Int} {im : Image} (hfirst : s.sched.openOk = false)
    (hvalid : (portOf s p).delay.valid = false) :
    openingValid im p f t s = openingFirst im f (openingLine im p f s) := by
  have hport : portOf (openingFirst im f (openingLine im p f s)) p = portOf s p := by
    have hkeep : OnlyWrites [.emit, .cmd, .ina, .sched, .flow, .vec] s (openingFirst im f (openingLine im p f s)) := by
      simp [openingFirst, openingLine, onlyWrites_refl]
    exact congrArg (fun k : Trunk => k.ports.getD p Port.reset) (hkeep .trunk (by decide))
  have hno : noSampleFrom p (openingFirst im f (openingLine im p f s)) = true := by
    simp [noSampleFrom, delayValid, hport, hvalid]
  simp [openingValid, hfirst, openingSample, hno]

/-- What the first valid copy leaves in the schedule and in the inauguration. -/
theorem openingFirst_keeps {f : OpeningFrame} {im : Image} :
    (openingFirst im f (openingLine im p f s)).sched.openOk = true ∧
    (openingFirst im f (openingLine im p f s)).sched.variant = f.variant ∧
    (openingFirst im f (openingLine im p f s)).sched.poll = (if f.noPoll then [] else f.poll) ∧
    (openingFirst im f (openingLine im p f s)).sched.pollVariant = variantOf im f.cycle ∧
    (openingFirst im f (openingLine im p f s)).sched.ctr = s.sched.ctr ∧
    (lineState (openingFirst im f (openingLine im p f s)) (lineOfPort p)).copy = some f ∧
    (openingFirst im f (openingLine im p f s)).ina.quietClk = s.ina.quietClk ∧
    (openingFirst im f (openingLine im p f s)).ina.newest = newerGen s.ina.newest f.inaug.gen := by
  unfold openingFirst
  dsimp only
  generalize hw : modIna (fun n => { n with newest := newerGen n.newest f.inaug.gen }) (modSched (fun d => { d with
    openOk := true, openClk := (openingLine im p f s).clk, variant := f.variant, noPoll := f.noPoll, afterRelease := false,
    poll := if f.noPoll then [] else f.poll, pollVariant := variantOf im f.cycle }) (openingLine im p f s)) = w
  obtain ⟨q, hprep⟩ := followInaug_keeps f (followHeld f w)
  obtain ⟨⟨h, r, a, hsched⟩, st, tt, hina⟩ := followHeld_keeps f w
  rw [hprep]
  simp only [modIna, lineState, hsched, hina]
  rw [← hw]
  cases hline : lineOfPort p <;> simp [openingLine, hline, modLine, modIna, modSched]

/-! ## Contention (R122, R138–R142) -/

theorem enterContend_ina (hfirst : isFirst s = false) : (enterContend s).ina = { clearNumbering s.ina with
    st := .contend, ctr := ctrInc s.ina.ctr 4, joiners := [], contendClk := s.clk } := by
  rw [enterContend, hfirst]
  exact twinLeave_ina _

/-- R138: the claim waits in the management queue of the one port that is Up. -/
theorem inaugSend_claim {c : ColdClaim} (hs : Sound s) (hst : s.ina.st = .contend) (hcarries : carriesPadait p s = true)
    (hqueues : (portOf s p).queues = [[], [], [], []]) : (portOf (inaugSend [p.val] (.coldClaim c) s) p).queues =
      [[{ frame := .coldClaim c, len := 64, deferred := false, ctx := none, urgent := false }], [], [], []] ∧
    (inaugSend [p.val] (.coldClaim c) s).ina = s.ina := by
  have hlen : inaugLen (.coldClaim c) = 64 := rfl
  have hmay : mayQueue p (.coldClaim c) s = true := by simp [mayQueue, hst, hcarries]
  have hsend : inaugSend [p.val] (.coldClaim c) s = modPort p (fun t => { t with queues := updAt t.queues 0 (fun _ =>
      [{ frame := .coldClaim c, len := 64, deferred := false, ctx := none, urgent := false }]) }) s := by
    simp [inaugSend, mgmtSend, forEach, trunkEnqueue, hlen, hqueues, hmay, replaceFlow]
  rw [hsend, portOf_modPort_self _ _ _ (port_mem hs p), hqueues]
  exact ⟨rfl, rfl⟩

/-- R142: the first generation is prepared for the third cycle to come. -/
theorem prepareFirst_prep (s : State) : ∃ q, (prepareFirst s).ina.prep = some q ∧ q.dir.gen = firstGen s.ina ∧
    q.dir.leadVid = s.ina.leading.getD 0 ∧ q.k = cycleNo s + 3 ∧ q.committed = false ∧ q.whole = true :=
  ⟨_, rfl, rfl, rfl, rfl, rfl, rfl⟩

/-- R135: the switch of a yielding group moves the clock as far as its moment. -/
theorem yieldTo_clk (q : Prepared) (t : Nat) (s : State) : (yieldTo q t s).clk = (runTo t s).clk := by
  have hruns : (runTo t (if t < nextInstant s then holdRemovals s else s)).clk = (runTo t s).clk := by split <;> rfl
  refine Eq.trans ?_ hruns
  have hswitch (S u : State) : OnlyWrites clockless S (if q.whole then performSwitch q.dir q.conf false true u
      else lacksDirectory u) ↔ OnlyWrites clockless S u := by split <;> simp
  rw [← onlyWrites_clockless]
  unfold yieldTo
  dsimp only
  rw [instantBody_clk _ _ _ _ _ (hswitch _)]
  simp [onlyWrites_refl]

end

end Sys2Proof.Machine
end

section
/-! PROOFS. The statement of spec/03_inauguration.md about its frames and moments. -/

open Sys2Proof Sys2Proof.Machine

/-- Settles O17: each command is the branch that the node's state and the frame choose. -/
theorem inaugurationCommandsComplete : Obligations.InaugurationCommandsComplete := by
  intro dt s hs
  have hs' : Sound (begin_ dt s) := sound_begin_ hs dt
  refine ⟨?_, ?_, ?_, ?_, ?_, ?_, ?_, ?_, ?_, ?_, ?_, ?_, ?_, ?_, ?_, ?_, ?_, ?_, ?_, ?_, ?_, ?_, ?_, ?_, ?_, ?_, ?_, ?_,
    ?_, ?_, ?_, ?_, ?_⟩
  · intro p idle hport hclear hext
    have hport' : beaconPort (begin_ dt s) p = true := hport
    have hemit := beaconOut_emit (p := p) (s := begin_ dt s) hext
    exact ⟨_, _, congrArg Host.Outcome.next (if_pos (by rw [hport', hclear]; rfl)), hemit, rfl, rfl, rfl, rfl, rfl, rfl⟩
  · intro p idle hnot
    refine congrArg Host.Outcome.next (if_neg ?_)
    rw [Bool.and_eq_true]
    rintro ⟨hport, hclear⟩
    rcases hnot with h | h
    · exact absurd (h.symm.trans hport) (by decide)
    · exact absurd (h.symm.trans hclear) (by decide)
  · intro p hon hup hext hclear
    have hemit := (passiveBeacons_one (s := begin_ dt s) hup hclear).trans (beaconOut_emit (s := begin_ dt s) hext)
    exact ⟨_, _, congrArg Host.Outcome.next (if_pos hon), hemit, rfl, ownBeacon_passive (s := begin_ dt s) hon⟩
  · intro p b rx hport hsteep hsame hactive httdp hvalid
    exact congrArg Host.Outcome.next (beaconIn_steep (s := begin_ dt s) hport hsteep hsame hactive httdp hvalid)
  · exact fun p b rx hport => congrArg Host.Outcome.next (beaconIn_noPort (s := begin_ dt s) hport)
  · intro p b d u hup hinner hown hdir hnum hrep hnone
    have hin := breakIn_known (s := begin_ dt s) hup hinner hown hdir hnum
    have hfirst := scheduleRemoval_first (s := begin_ dt s) hrep hnone
    have hina : (breakIn p b (begin_ dt s)).ina = (scheduleRemoval b (begin_ dt s)).ina := by
      rw [hin]
      exact forwardFrame_keeps _ _ _ .ina (by decide)
    refine ⟨_, rfl, ?_⟩
    rw [hina, hfirst]
    exact ⟨congrArg (· ++ _) hnone, rfl⟩
  · intro p b hup hinner hnot
    have hin := breakIn_unknown (s := begin_ dt s) hup hinner hnot
    refine ⟨_, congrArg Host.Outcome.next hin, ?_, fun hfwd hcarries hfifo hbusy hext => ?_⟩
    · refine (forwardFrame_keeps p (.breakF b) _ .ina (by decide)).trans ?_
      split <;> rfl
    · split
      · exact forwardFrame_emit (s := schedCount 9 (begin_ dt s)) hfwd hcarries hfifo hbusy hext
      · exact forwardFrame_emit (s := begin_ dt s) hfwd hcarries hfifo hbusy hext
  · intro p d D hup hinner hown hnative hforce hunjoined hpart hdir
    have hin : directoryIn p d (begin_ dt s) = takeDirectory D (modIna (fun n => { n with partial_ := [] }) (begin_ dt s)) := by
      rw [directoryIn_whole (s := begin_ dt s) hpart hdir, hnative, hforce, isFirst_of_unjoined (s := begin_ dt s) hunjoined]
      rfl
    obtain ⟨c, htaken⟩ := takeDirectory_unjoined (D := D) (s := modIna (fun n => { n with partial_ := [] }) (begin_ dt s)) hunjoined
    refine ⟨_, congrArg Host.Outcome.next (directoryOnTrunk_own (s := begin_ dt s) hup hinner hown hnative), ?_⟩
    rw [fabRelay_forwardFrame_ina, hin, htaken]
    exact ⟨rfl, rfl, rfl, rfl, rfl⟩
  · intro p d D q hup hinner hown hnative hprep hfirst hpart hdir hq hcommit
    have hfirst' : isFirst (begin_ dt s) = false := hfirst
    have hin : directoryIn p d (begin_ dt s) = takePrepared D (modIna (fun n => { n with partial_ := [] }) (begin_ dt s)) := by
      rw [directoryIn_whole (s := begin_ dt s) hpart hdir, hnative, hprep, hfirst']
      rfl
    have htaken := takePrepared_uncommitted (D := D) (s := modIna (fun n => { n with partial_ := [] }) (begin_ dt s)) hq hcommit
    refine ⟨_, congrArg Host.Outcome.next (directoryOnTrunk_own (s := begin_ dt s) hup hinner hown hnative), ?_⟩
    rw [fabRelay_forwardFrame_ina, hin, htaken]
    exact ⟨rfl, rfl⟩
  · intro p d D hup hown hforeign halone hpart hdir
    have hin := directoryIn_whole (p := p) (s := begin_ dt s) hpart hdir
    have hreport := mergeReport_alone (p := p) (s := modIna (fun n => { n with foreignDir := some D })
      (modIna (fun n => { n with partial_ := [] }) (begin_ dt s))) halone
    refine ⟨_, congrArg Host.Outcome.next ((directoryOnTrunk_foreign (s := begin_ dt s) hup hown hforeign).trans hin), ?_⟩
    rw [if_pos hforeign, hreport]
    exact ⟨rfl, rfl⟩
  · intro p j hfirst hown hnew
    obtain ⟨hkept, hstray⟩ := keptOut_of_own hown
    exact congrArg Host.Outcome.next ((joinIn_first hkept hstray hfirst).trans (joinFirst_new hnew))
  · intro p j hlead hown hnew
    obtain ⟨hkept, hstray⟩ := keptOut_of_own hown
    exact congrArg Host.Outcome.next ((joinIn_lead hkept hstray hlead).trans (joinLead_new hnew))
  · intro p j hup hinner hfirst hlead hown
    have hkept := keptOut_in (p := p) (s := begin_ dt s) hup hinner
    have hlead' : inProvLead (begin_ dt s) = false := hlead
    have hfirst' : isFirst (begin_ dt s) = false := hfirst
    refine congrArg Host.Outcome.next ?_
    simp [joinIn, hkept, hown, hfirst', hlead']
  · intro p j hout
    have hkept := keptOut_out (p := p) (s := begin_ dt s) hout
    exact congrArg Host.Outcome.next (if_pos hkept)
  · intro j hfirst hlead
    have hlead' : inProvLead (begin_ dt s) = false := hlead
    have hfirst' : isFirst (begin_ dt s) = false := hfirst
    have hports : trainPorts (begin_ dt s) = trainPorts s := rfl
    refine congrArg Host.Outcome.next ?_
    simp [joinIn, keptOut, hfirst', hlead', hports]
  · exact fun p c hup hinner hown hst => ⟨_, rfl, coldClaimIn_contend (s := begin_ dt s) hup hinner hown hst⟩
  · exact fun p m hup hinner hfirst hown hnot hsame => congrArg Host.Outcome.next
      ((mergeReportIn_first (s := begin_ dt s) hup hinner hown hfirst hnot).trans (if_pos hsame))
  · intro p m hup hinner hfirst hown hnot hother
    refine congrArg Host.Outcome.next ((mergeReportIn_first (s := begin_ dt s) hup hinner hown hfirst hnot).trans (if_neg ?_))
    exact fun h => absurd (hother.symm.trans h) (by decide)
  · exact fun p m hup hinner hfirst hown =>
      congrArg Host.Outcome.next (mergeReportIn_passes (s := begin_ dt s) hup hinner hown hfirst)
  · exact fun p m hout => congrArg Host.Outcome.next (mergeReportIn_out (s := begin_ dt s) hout)
  · intro p v hfirst hown hnew
    obtain ⟨hkept, hstray⟩ := keptOut_of_own hown
    have hfirst' : isFirst (begin_ dt s) = true := hfirst
    have hother : (begin_ dt s).ina.dir.map (fun d => d.leadVid) ≠ some v := by
      intro h
      obtain ⟨d, hd, hv⟩ := Option.map_eq_some_iff.mp h
      exact hnew d hd hv
    refine congrArg Host.Outcome.next ?_
    simp only [leadSetIn, hkept, hstray, hfirst']
    exact if_neg hother
  · exact fun p v hout => congrArg Host.Outcome.next (if_pos (keptOut_out (p := p) (s := begin_ dt s) hout))
  · intro p v hup hinner hfirst hown
    have hkept := keptOut_in (p := p) (s := begin_ dt s) hup hinner
    have hfirst' : isFirst (begin_ dt s) = false := hfirst
    refine congrArg Host.Outcome.next ?_
    simp [leadSetIn, hkept, hown, hfirst']
  · intro v hfirst
    have hfirst' : isFirst (begin_ dt s) = false := hfirst
    refine congrArg Host.Outcome.next ?_
    simp [leadSetIn, keptOut, hfirst']
  · exact fun p f rx hup _ _ => ⟨congrArg Host.Outcome.next (openingIn_bad (s := begin_ dt s) hup), rfl⟩
  · intro p f rx im hup hwtb hinner htype hversion hrun _ hst hfirst hvalid hfault
    obtain ⟨hsched, hina⟩ := openingIn_good (s := begin_ dt s) (rx := rx) hup hwtb hinner htype hversion
    have heffect : openingEffect p f (pinRx (portOf (begin_ dt s) p) rx) (heardNow (begin_ dt s)) =
        openingFirst im f (openingLine im p f (heardNow (begin_ dt s))) :=
      (openingEffect_valid (s := heardNow (begin_ dt s)) hrun hst hfault).trans
        (openingValid_first (s := heardNow (begin_ dt s)) hfirst hvalid)
    obtain ⟨hok, hvariant, hpoll, hpv, hctr, hcopy, hquiet, hnewest⟩ :=
      openingFirst_keeps (p := p) (s := heardNow (begin_ dt s)) (f := f) (im := im)
    have hline (u v : State) (l : Line) (h : u.sched = v.sched) : lineState u l = lineState v l := by
      cases l <;> simp only [lineState, h]
    rw [heffect] at hsched hina
    refine ⟨_, rfl, ?_⟩
    rw [hline _ _ _ hsched, hsched, hina]
    exact ⟨hok, hvariant, hpoll, hpv, hquiet, hnewest, hcopy, hctr⟩
  · intro p f rx im hup hwtb hinner htype hversion hrun _ hst hfault
    obtain ⟨hsched, -⟩ := openingIn_good (s := begin_ dt s) (rx := rx) hup hwtb hinner htype hversion
    have heffect := openingEffect_fault (s := heardNow (begin_ dt s)) hrun hst hfault
    exact ⟨_, rfl, hsched.trans (congrArg State.sched heffect)⟩
  · intro hmay hquiet hfirst hlead hcontend hbackbone
    have hexec : exec (.coldStartTimeout dt) s = .next (enterContend (begin_ dt s)) := by
      have hmay' : mayContend (begin_ dt s) = true := hmay
      have hfirst' : isFirst (begin_ dt s) = false := hfirst
      have hlead' : inProvLead (begin_ dt s) = false := hlead
      have hcontend' : inContend (begin_ dt s) = false := hcontend
      have hbackbone' : inBackbone (begin_ dt s) = false := hbackbone
      exact congrArg Host.Outcome.next (if_pos (by rw [hmay', hquiet, hfirst', hlead', hcontend', hbackbone']; rfl))
    refine ⟨hexec, _, hexec, ?_⟩
    rw [enterContend_ina (s := begin_ dt s) hfirst]
    exact ⟨rfl, rfl, rfl⟩
  · intro p hst hup hcarries hqueues
    have hin : inContend (begin_ dt s) = true := by simp [inContend, hst]
    have hup' : upPorts (begin_ dt s) = [p.val] := hup
    obtain ⟨hsent, hina⟩ := inaugSend_claim (c := ownColdClaim (begin_ dt s))
      (s := modIna (fun n => { n with claimSeq := n.claimSeq + 1 }) (begin_ dt s)) hs' hst hcarries hqueues
    refine ⟨_, congrArg Host.Outcome.next (if_pos hin), ?_, ?_⟩
    · rw [hup', hina]
      rfl
    · rw [hup']
      exact hsent
  · intro hst hdue
    have hin : inContend (begin_ dt s) = true := by simp [inContend, hst]
    exact congrArg Host.Outcome.next (if_pos (by rw [hin, Bool.true_and, decide_eq_true_eq]; exact hdue))
  · intro hst hquiet hnone
    have hin : inProvLead (begin_ dt s) = true := by simp [inProvLead, hst]
    obtain ⟨q, hprep, hgen, hlead, hk, hcommit, hwhole⟩ := prepareFirst_prep (begin_ dt s)
    exact ⟨_, q, congrArg Host.Outcome.next (if_pos (by simp [hin, hquiet, hnone])), hprep, hgen, hlead, hk, hcommit, hwhole⟩
  · intro q k hprep hswitch hruns
    have hexec : exec (.yieldSwitch dt) s = .next (yieldTo q (max k (begin_ dt s).now) (begin_ dt s)) := by
      have hprep' : (begin_ dt s).ina.prep = some q := hprep
      have hruns' : instantRuns (begin_ dt s) = true := hruns
      refine congrArg Host.Outcome.next ?_
      simp only [hprep', hswitch, hruns', if_true]
    exact ⟨hexec, _, hexec, yieldTo_clk _ _ _⟩
  · intro hnone
    have hnone' : (begin_ dt s).ina.prep = none := hnone
    refine congrArg Host.Outcome.next ?_
    simp only [hnone']

end
